-- ==== Sys2Proof/Word.lean ====
section
/-! DEFINITION. The word types of the ZL-9624: bit vectors of the widths its registers, packets and
records use (R2 fixes that every multi-byte field is little-endian; the bytes are laid out in Machine/Bits.lean). -/

namespace Sys2Proof

/-- A byte. -/
abbrev Byte := BitVec 8
/-- A 16-bit field. -/
abbrev U16 := BitVec 16
/-- A 32-bit register or field. -/
abbrev U32 := BitVec 32
/-- A 64-bit register or field. -/
abbrev U64 := BitVec 64

end Sys2Proof
end

