-- ==== Sys2Proof/Syntax.lean ====
section
/-! DEFINITION. The commands of the block: `Instr`, one constructor per row of spec/opcode_table.json, with the
row's operands. An Imven command carries the header of R396 and its parameter fields, reserved fields included (R3);
a register write carries the value written; an event from outside carries what the outside world supplies (a sensor
reading, a received message, a measured edge). Nothing here says what a command does. -/

namespace Sys2Proof

/-- A master's port of entry for Imven packets: submission ring `r` of the host, or the side-band as a whole (R405). -/
inductive Src where
  | ring (r : Fin 16)
  | side
deriving DecidableEq, Repr

/-- The two masters of R406. -/
inductive Master where
  | host
  | sideBand
deriving DecidableEq, Repr

/-- An MTIME field of a packet (R8): 48-bit seconds and a 32-bit nanosecond word. -/
structure MTime where
  sec : BitVec 48
  ns : BitVec 32
deriving DecidableEq, Repr

/-- The packet header of R396 (OPCODE is the constructor's own), with the source it came from. -/
structure Hdr where
  src : Src
  flags : Byte
  plen : Byte
  tag : U16
  seq : U16
  target : MTime
  budget : U32
  rsv : BitVec 80
deriving DecidableEq, Repr

/-- A packet whose OPCODE is not in the catalogue, or whose sub-operation field names no row of the table. -/
structure Stray where
  h : Hdr
  opcode : U16
deriving DecidableEq, Repr

/-- The identity of an accepted command: its source, sequence number and tag (R396). -/
structure CmdKey where
  src : Src
  seq : U16
  tag : U16
deriving DecidableEq, Repr

/-- Whether a host-memory access the module makes in a step succeeds (R393 codes 0x04, 0x05; R376). -/
inductive HostMem where
  | ok
  | readFails
  | writeFails
deriving DecidableEq, Repr

/-- Why the host's link goes down (R388, R419). -/
inductive LinkDown where
  | dlDown
  | conventionalReset
  | functionReset
deriving DecidableEq, Repr

/-- A memory error met by an access (R351): its address, and whether it is uncorrected. -/
structure MemErr where
  addr : Nat
  ue : Bool
deriving DecidableEq, Repr

/-! ### Chapter 01 (the panel description) -/

/-- PANEL_LOAD parameters (R29). -/
structure PanelLoadP where
  handle : U32
  bufOffset : U32
  length : U32
  flags : U32
deriving DecidableEq, Repr

/-! ### Chapter 02 (scene streams) -/

/-- SCENE_OPEN parameters (R59). -/
structure SceneOpenP where
  source : Byte
  flags : Byte
  maxPlanes : Byte
  rsv : Byte
  ringMib : U32
  start : MTime
  port : U16
  handle : U32
  streamId : U32
  startFrame : U32
deriving DecidableEq, Repr

/-- SCENE_FEED parameters (R61). -/
structure SceneFeedP where
  session : U32
  length : U32
  offset : U64
  addr : U64
  kind : Byte
  rsv : BitVec 56
deriving DecidableEq, Repr

/-- SCENE_CLOSE parameters after HOW (R65). -/
structure SceneCloseP where
  session : U32
  rsv : BitVec 24
deriving DecidableEq, Repr

/-! ### Chapter 03 (Cirrus) -/

/-- CODEC_JOB parameters after OP (R85). -/
structure CodecJobP where
  level : Byte
  tables : Byte
  flags : Byte
  blockSize : U32
  inAddr : U64
  outAddr : U64
  inLen : U32
  outLen : U32
  rsv : U64
deriving DecidableEq, Repr

/-- CODEC_RESUME parameters (R93). -/
structure CodecResumeP where
  job : U32
  flags : Byte
  rsv : BitVec 24
  outAddr : U64
  inAddr : U64
  outLen : U32
  inLen : U32
  rsv2 : U64
deriving DecidableEq, Repr

/-- CODEC_ABORT parameters (R95). -/
structure CodecAbortP where
  job : U32
  rsv : U32
deriving DecidableEq, Repr

/-! ### Chapter 04 (Cumulus) -/

/-- FRAME_SUBMIT parameters (R119). -/
structure FrameSubmitP where
  handle : U32
  offset : U32
  fence : U64
  value : U64
  point : Byte
  flags : Byte
  rsv : BitVec 48
deriving DecidableEq, Repr

/-- VIEW_SHIFT parameters (R127). -/
structure ViewShiftP where
  originX : U32
  originY : U32
  rateX : U32
  rateY : U32
  parX : U16
  parY : U16
  t0 : MTime
  rsv : BitVec 80
deriving DecidableEq, Repr

/-! ### Chapter 05 (cameras) -/

/-- CAM_CFG OP 0 parameters after OP (R140). -/
structure CamPortP where
  port : Byte
  gearMax : Byte
  dtype : Byte
  width : U16
  height : U16
  flags : Byte
  rsv : BitVec 56
deriving DecidableEq, Repr

/-- CAM_CFG OP 1 parameters after OP. -/
structure CamOffP where
  port : Byte
  rsv : BitVec 48
deriving DecidableEq, Repr

/-- CAM_CFG OP 2 parameters after OP; `data` holds the units after the first. -/
structure CamI2cP where
  port : Byte
  addr : Byte
  writeLen : Byte
  readLen : Byte
  speed : Byte
  rsv : U16
  data : List Byte
deriving DecidableEq, Repr

/-- CAM_CFG OP 3 parameters after OP. -/
structure CamMapP where
  port : Byte
  rsv : U16
  handle : U32
  offset : U32
  length : U32
deriving DecidableEq, Repr

/-- CAM_TRIGGER_CFG parameters (R146). -/
structure CamTrigP where
  offset : U32
  width : U16
  flags : Byte
  rsv : Byte
  skew : List U16
deriving DecidableEq, Repr

/-- SWEEP_CFG parameters (R157). -/
structure SweepCfgP where
  planes : Byte
  flags : Byte
  minViews : Byte
  rsv : Byte
  lo : U16
  hi : U16
  disp : List U16
deriving DecidableEq, Repr

/-- CAM_STATUS parameters (R164). -/
structure CamStatusP where
  port : Byte
  rsv : BitVec 56
deriving DecidableEq, Repr

/-- How an I2C transfer ends on the camera's side (R143). -/
inductive I2cEnd where
  | done (read : List Byte)
  | addrNack
  | dataNack (written : Byte)
  | heldLow
deriving DecidableEq, Repr

/-- A CSI-2 frame as a port receives it (R136, R137): the stamps of its FS and FE packets, the packets and packet headers that
are counted, whether a header or payload failed beyond correction, its lines of the configured data type. -/
structure CsiFrame where
  fs : MTime
  fe : MTime
  counted : U16
  broken : Bool
  lines : List (List Byte)
deriving DecidableEq, Repr

/-! ### Chapter 06 operands -/

/-- What happened in a half while a band (or a row) was fetched: the first row, counted within the slot, whose base data was
not in the head when due; overlays whose rows were not, with the row; the CRC-32C computed over the phase block read in
full, where it differs from that of the stored bytes. -/
structure FetchHalf where
  base : Option Nat
  ovl : List (Nat × Nat)
  crc : Option Nat
deriving DecidableEq, Repr

/-- What a write slot's fetches found: both halves, the bytes read for each host-memory overlay (its rows of the slot, each
of 4 × WIDTH bytes), and memory errors met. -/
structure FetchP where
  a : FetchHalf
  b : FetchHalf
  host : List (Nat × List Byte)
  errs : List MemErr
deriving DecidableEq, Repr

/-- TIMING_SET (R194). -/
structure TimingSetP where
  rate : U16
  rsv : BitVec 48
deriving DecidableEq, Repr

/-- LAYER_SET (R180). -/
structure LayerSetP where
  layer : Byte
  flags : Byte
  rsv : U16
  x0 : U16
  y0 : U16
  width : U16
  height : U16
  stride : U32
  addr : U64
  fence : U64
  value : U64
deriving DecidableEq, Repr

/-- LAYER_ENABLE (R183). -/
structure LayerEnableP where
  mask : Byte
  rsv : BitVec 56
  fence : U64
  value : U64
deriving DecidableEq, Repr

/-- STARLIGHT_SET (R191); `host` holds the bytes read where the source is host memory. -/
structure StarlightSetP where
  x0 : U16
  y0 : U16
  w : U16
  h : U16
  scale : Byte
  flags : Byte
  rsv : U16
  len : U32
  addr : U64
  palette : List Byte
  host : List Byte
deriving DecidableEq, Repr

/-- SCANOUT_STATUS (R201). -/
structure ScanoutStatusP where
  half : Byte
  rsv : BitVec 56
deriving DecidableEq, Repr

/-! ### Chapter 07 (the panel link) -/

/-- PANEL_LINK_TRAIN parameters after OP (R225). -/
structure LinkTrainP where
  halves : Byte
  rate : Byte
  rsv : BitVec 40
deriving DecidableEq, Repr

/-- A HELLO message (R216). -/
structure HelloMsg where
  model : U32
  lanes : Byte
  rate : Byte
  credits : Byte
deriving DecidableEq, Repr

/-- A STATUS message (R216, R220). -/
structure StatusMsg where
  flags : Byte
  lastSeq : U16
  free : Byte
  locked : Byte
  own : U16
deriving DecidableEq, Repr

/-! ### Chapter 08 (the steering drive) -/

/-- STEER_CFG parameters (R260). -/
structure SteerCfgP where
  bandMode : Byte
  band : Byte
  trim : U16
  offset : U16
  rsv : BitVec 80
deriving DecidableEq, Repr

/-! ### Chapter 09 (Meridian) -/

/-- TIME_SET parameters after OP (R271). -/
structure TimeSetP where
  rsv : BitVec 56
  time : MTime
  rsv2 : BitVec 48
  delta : U64
deriving DecidableEq, Repr

/-- TIME_ADJUST parameters after OP (R272). -/
structure TimeAdjustP where
  rsv : BitVec 24
  freq : U32
  delta : U64
deriving DecidableEq, Repr

/-- PTP_PORT_CFG parameters (R278). -/
structure PtpPortCfgP where
  port : Byte
  profile : Byte
  flags : Byte
  domain : Byte
  logSync : Byte
  logAnnounce : Byte
  prio1 : Byte
  prio2 : Byte
  txLat : U16
  rxLat : U16
  asym : U32
  rsv : U64
deriving DecidableEq, Repr

/-- TIMER_ARM parameters (R280). -/
structure TimerArmP where
  flags : Byte
  rsv : BitVec 24
  cookie : U32
  t : MTime
  rsv2 : BitVec 48
  period : U64
deriving DecidableEq, Repr

/-- A command that carries a handle in bytes 0 to 3 and zero in bytes 4 to 7. -/
structure HandleP where
  handle : U32
  rsv : U32
deriving DecidableEq, Repr

/-- A PTP message as a port receives it, its stamps at the contact and its protocol times in 0.25 ns (R273, R274). -/
inductive PtpMsg where
  | sync (t1 t2 : Nat) (correction : Int)
  | delayResp (t3 t4 : Nat) (correction : Int)
  | peerDelay (t1 t2 t3 t4 : Nat)
  | announce (prio1 cls accuracy variance prio2 : Nat) (gm : U64)
deriving DecidableEq, Repr

/-- The messages a port sends of its own accord (R275). -/
inductive PtpTxKind where
  | sync | announce | delayReq
deriving DecidableEq, Repr

/-! ### Chapter 10 operands -/

/-- A reading of every thermal sensor (R305): 24 die sensors and the Horizon sensor in 0.1 °C; a stack that fails to report
reads as none. -/
structure ThmRead where
  die : List Int
  hbm0 : Option Int
  hbm1 : Option Int
  hor : Int
deriving DecidableEq, Repr

/-- MODE_SET (R292), with the thermal sample and the panel thermistor code that its decision demands (R290). -/
structure ModeSetP where
  mode : Byte
  rsv : Byte
  rate : U16
  rsv2 : U32
  thm : ThmRead
  therm : Nat
deriving DecidableEq, Repr

/-- THERMAL_READ (R324), with the sample it demands. -/
structure ThermalReadP where
  select : Byte
  rsv : BitVec 56
  thm : ThmRead
deriving DecidableEq, Repr

/-- THERMAL_LIMITS_SET (R325). -/
structure ThermalLimitsP where
  warn : U16
  request : U16
  critical : U16
  hbmRequest : U16
  hbmCritical : U16
  rsv : BitVec 48
deriving DecidableEq, Repr

/-- THROTTLE_ACK (R327). -/
structure ThrottleAckP where
  target : Byte
  flags : Byte
  rsv : BitVec 48
deriving DecidableEq, Repr

/-- A measurement of the power manager (R304): VMAIN in mV, power in mW, VAUX power in mW. -/
structure PowerRead where
  mv : Nat
  mw : Nat
  vaux : Nat
deriving DecidableEq, Repr

/-! ### Chapter 11 (memory controller) -/

/-- The best passing ranges of one PC at one point, each a start tap and a number of taps (R352): four read and four write
delays, the command delay, the two references. -/
structure DmcMeas where
  rd : List (Nat × Nat)
  wr : List (Nat × Nat)
  ca : Nat × Nat
  rdV : Nat × Nat
  wrV : Nat × Nat
deriving DecidableEq, Repr

/-- What the start-up check of one PC at one point shows (R346, R347): whether the check fails, and the ranges a training
finds if one is made. -/
structure DmcCheck where
  point : Nat
  pc : Nat
  fails : Bool
  found : DmcMeas
deriving DecidableEq, Repr

/-- The work a calibration window did (R349): one step, the last step of a sweep with the ranges found, or one test
segment (TEST_END reports what the segments of a test found). -/
inductive WinWork where
  | step
  | sweepEnd (m : DmcMeas)
  | segment
deriving DecidableEq, Repr


/-! ### Chapter 12 (buffers and the ledger) -/

/-- BUF_ALLOC parameters (R372). -/
structure BufAllocP where
  size : U64
  align : Byte
  rsv : BitVec 56
deriving DecidableEq, Repr

/-- BUF_COPY parameters (R376). -/
structure BufCopyP where
  src : U64
  dst : U64
  len : U32
  flags : Byte
  rsv : BitVec 88
deriving DecidableEq, Repr

/-- LEDGER_READ parameters (R381). -/
structure LedgerReadP where
  pool : Byte
  rsv : BitVec 56
  dest : U64
deriving DecidableEq, Repr

/-- A count an audit finds in a column of a pool other than the count the moves gave it (R380). -/
structure Upset where
  pool : Nat
  column : Nat
  count : Nat
deriving DecidableEq, Repr

/-! ### Chapter 13 (Imven command protocol) -/

/-- The content of a side-band message as received (R410): what its framing says and the packet it carries.
`wellFormed` is false for a message that breaks a rule of R410 (magic, KIND, VERSION, LENGTH, MCTP message type). On SB_T1 it
comes from an IP address and port. -/
structure SbMsg where
  wellFormed : Bool
  opcode : U16
  stray : Bool
  h : Hdr
  addr : U32
  port : U16
deriving DecidableEq, Repr

/-- GET_INFO parameters (R412). -/
structure GetInfoP where
  page : Byte
  rsv : BitVec 56
deriving DecidableEq, Repr

/-- PARAM_GET parameters (R412). -/
structure ParamGetP where
  id : U16
  rsv : BitVec 48
deriving DecidableEq, Repr

/-- PARAM_SET parameters (R412). -/
structure ParamSetP where
  id : U16
  rsv : BitVec 48
  value : U64
deriving DecidableEq, Repr

/-- PARAM_LIST parameters (R412). -/
structure ParamListP where
  startId : U16
  count : U16
  rsv : U32
  dest : U64
deriving DecidableEq, Repr

/-- LEASE_TAKE parameters (R407): byte 0 (FORCE in bit 0) and bytes 1 to 7. -/
structure LeaseTakeP where
  b0 : Byte
  rsv : BitVec 56
deriving DecidableEq, Repr

/-- What Horizon measures as HWD_HOLDUP_V and HWD_VAUX_V are read, in mV (R536, R556). -/
structure HwdVolts where
  holdup : U16
  vaux : U16
deriving DecidableEq, Repr

/-! ### Chapter 14 (events and fault recovery) -/

/-- EVENT_LOG_READ parameters (R424). -/
structure EventLogReadP where
  start : U32
  count : U16
  flags : Byte
  rsv : Byte
  dest : U64
deriving DecidableEq, Repr

/-- RESET_LEVEL parameters other than LEVEL (R433). -/
structure ResetLevelP where
  domain : Byte
  flags : Byte
  rsv : BitVec 40
deriving DecidableEq, Repr

/-- DIAG_CAPTURE parameters (R434). -/
structure DiagCaptureP where
  domain : Byte
  rsv : BitVec 24
  handle : U32
  offset : U32
  rsv2 : U32
deriving DecidableEq, Repr

/-! ### Chapter 15 (Backbone bridge and side-band) -/

/-- NET_PORT_CFG parameters (R441). -/
structure NetPortCfgP where
  port : Byte
  speed : Byte
  flags : Byte
  pcp : Byte
  pvid : U16
  maxFrame : U16
  rsv : U64
deriving DecidableEq, Repr

/-- NET_VLAN_CFG OP 0 (R444); `rsv` holds every byte not named. -/
structure NetVlanP where
  vid : U16
  members : U16
  untagged : U16
  rsv : BitVec 136
deriving DecidableEq, Repr

/-- NET_VLAN_CFG OP 1 (R444). The first octet of MAC is the most significant byte. -/
structure NetStaticP where
  vid : U16
  ports : U16
  mac : BitVec 48
  rsv : BitVec 104
deriving DecidableEq, Repr

/-- NET_VLAN_CFG OP 2 (R444): `tc` holds TC[0] to TC[7], TC[0] in the low byte. -/
structure NetPrioP where
  port : Byte
  tc : U64
  rsv : BitVec 112
deriving DecidableEq, Repr

/-- NET_VLAN_CFG OP 3 (R444). -/
structure NetStreamP where
  stream : Byte
  vid : U16
  ingress : U16
  egress : U16
  mac : BitVec 48
  flags : Byte
  history : Byte
  resetMs : U32
  rsv : U32
deriving DecidableEq, Repr

/-- One entry of NET_SCHED_CFG OP 0 (R446). -/
structure SchedEntryP where
  gates : Byte
  rsv : BitVec 24
  interval : U32
deriving DecidableEq, Repr

/-- NET_SCHED_CFG OP 0 (R446): `entries` are the units after the first, PLEN − 1 of them. -/
structure NetSchedWriteP where
  port : Byte
  start : U16
  count : Byte
  rsv : BitVec 24
  entries : List SchedEntryP
deriving DecidableEq, Repr

/-- NET_SCHED_CFG OP 1 (R446): `tail` are the units after the third. -/
structure NetSchedCommitP where
  port : Byte
  length : U16
  cycle : U32
  base : MTime
  rsv : BitVec 48
  tail : List U64
deriving DecidableEq, Repr

/-- NET_SCHED_CFG OP 2 (R446): `tail` are the units after the first. -/
structure NetSchedDisableP where
  port : Byte
  rsv : BitVec 48
  tail : List U64
deriving DecidableEq, Repr

/-- NET_STATS parameters (R448). -/
structure NetStatsP where
  port : Byte
  page : Byte
  rsv : BitVec 48
deriving DecidableEq, Repr

/-- A frame on SB_T1 (R451), by destination and source MAC address: an ARP request for an address, a UDP datagram, or
anything else. -/
inductive T1Frame where
  | arp (target sender : U32) (srcMac : BitVec 48)
  | udp (dstMac srcMac : BitVec 48) (dst : U32) (dstPort : U16) (m : SbMsg)
  | other
deriving DecidableEq, Repr

/-- What the SMBus carried an MCTP message in (R452): the target address, whether every packet's PEC was right, and the
source endpoint. -/
structure SmbFrame where
  addr : Byte
  pecOk : Bool
  source : Byte
deriving DecidableEq, Repr


/-! ### Chapter 16 (non-volatile store) -/

/-- NV_READ and NV_WRITE parameters before DATA (R473); DELETE (bit 2 of FLAGS) is the constructor's own. -/
structure NvAccessP where
  part : Byte
  type : Byte
  key : U16
  offset : U16
  len : U16
  flags : Byte
  rsv : BitVec 56
  addr : U64
deriving DecidableEq, Repr

/-- NV_UNLOCK and NV_LOCK parameters (R468, R469), OP being the constructor's own. -/
structure NvPassP where
  part : Byte
  access : Byte
  pwLen : Byte
  rsv : BitVec 32
  password : BitVec 256
deriving DecidableEq, Repr

/-- NV_COUNTER_ADD parameters (R471). -/
structure NvCounterP where
  key : U16
  rsv : BitVec 48
  increment : U64
deriving DecidableEq, Repr

/-- What the start-up scan finds in a slot that is not what the module last wrote there whole: a torn or decayed slot, or a
valid record (R465, R466). -/
inductive NvFound where
  | zero
  | bad
  | valid (part : Nat) (type : Nat) (key : Nat) (seq : Nat) (tomb : Bool) (bgen : Nat) (payload : List Byte)
deriving DecidableEq, Repr

/-! ### Chapter 17 (Halo and Overcast) -/

/-- CAL_RUN parameters (R482). -/
structure CalRunP where
  item : Byte
  point : Byte
  rsv : BitVec 48
  mask : U64
deriving DecidableEq, Repr

/-- CAL_STATUS parameters (R483). -/
structure CalStatusP where
  item : Byte
  point : Byte
  pc : Byte
  rsv : BitVec 40
deriving DecidableEq, Repr

/-- CAL_EXPORT parameters (R485). -/
structure CalExportP where
  flags : Byte
  rsv : BitVec 24
  room : U32
  dest : U64
deriving DecidableEq, Repr

/-- CAL_IMPORT parameters (R486). -/
structure CalImportP where
  handle : U32
  offset : U32
  len : U32
  flags : Byte
  rsv : BitVec 24
deriving DecidableEq, Repr

/-- What a calibration measured (R477): the ranges of a sweep, the launch skews of a half (true for B), the ADC's offset and
gain, or the DAC's offsets and gain with the current-sense offset. -/
inductive CalMeas where
  | hbm (m : DmcMeas)
  | skew (b : Bool) (taps : List Int)
  | adc (off gain : Int)
  | dac (offC offS gain sense : Int)
deriving DecidableEq, Repr

/-- TEST_RUN parameters (R495). -/
structure TestRunP where
  set : U32
  inst : Byte
  flags : Byte
  rsv : BitVec 80
deriving DecidableEq, Repr

/-- TEST_RESULT parameters (R496). -/
structure TestResultP where
  id : Byte
  inst : Byte
  rsv : BitVec 48
deriving DecidableEq, Repr

/-- What a test shows as it ends (R490, R491): the pattern responses compressed so far; an error count with the first error;
or the worst measurement. `whole` is false when fewer patterns or measurements completed than planned. -/
inductive TestShow where
  | patterns (responses : List U64)
  | errors (whole : Bool) (count : Nat) (first : Nat)
  | measured (whole : Bool) (worst : Int)
deriving DecidableEq, Repr

/-! ### Chapter 18 (Security and life cycle) -/

/-- LIFE_ADVANCE parameters (R512). -/
structure LifeAdvanceP where
  target : Byte
  rsv : BitVec 24
  confirm : U32
deriving DecidableEq, Repr

/-- How a power loss cuts LIFE_ADVANCE short (R504, R512): while the fuse is blown, leaving it unblown or marginal, or during
the erasure. The power loss itself is a command of its own. -/
inductive LifeCut where
  | blow (marginal : Bool)
  | erasing
deriving DecidableEq, Repr

/-- CHALLENGE_GET parameters (R514). -/
structure ChallengeGetP where
  part : Byte
  rsv : BitVec 56
deriving DecidableEq, Repr

/-- RESPONSE_PUT parameters (R515). -/
structure ResponsePutP where
  purpose : Byte
  rsv : BitVec 56
  sigR : BitVec 384
  sigS : BitVec 384
deriving DecidableEq, Repr

/-- PASSWORD_PUT parameters (R516). The first byte of PASSWORD is the low byte. -/
structure PasswordPutP where
  purpose : Byte
  pwLen : Byte
  rsv : BitVec 48
  password : BitVec 256
deriving DecidableEq, Repr

/-- KEY_INSTALL parameters (R518): `data` is the DATA field, padding included. -/
structure KeyInstallP where
  len : Byte
  rsv : U16
  keyId : U32
  data : List Byte
deriving DecidableEq, Repr

/-- ATTEST_QUOTE parameters (R519). The first byte of NONCE is the low byte. -/
structure AttestP where
  part : Byte
  flags : Byte
  rsv : BitVec 48
  dest : U64
  nonce : BitVec 256
deriving DecidableEq, Repr

/-- FW_BEGIN parameters (R520). -/
structure FwBeginP where
  total : U32
  rsv : U32
deriving DecidableEq, Repr

/-- FW_CHUNK parameters (R521). `data` is what the source holds: the inline DATA field with its padding, or the bytes read
from host memory. -/
structure FwChunkP where
  offset : U32
  length : U16
  src : Byte
  rsv : Byte
  addr : U64
  data : List Byte
deriving DecidableEq, Repr

/-- FW_ACTIVATE parameters (R523). -/
structure FwActivateP where
  flags : Byte
  rsv : BitVec 48
deriving DecidableEq, Repr

/-- How a power loss cuts a confirmation short (R504, R523): the ROLLBACK fuse being blown, and whether it is left marginal. -/
structure ConfirmCut where
  fuse : Fin 64
  marginal : Bool
deriving DecidableEq, Repr


/-! ### Chapter 19 (Module hardware) -/

/-- DETACH_PREPARE parameters (R551). -/
structure DetachP where
  reason : Byte
  rsv : BitVec 56
deriving DecidableEq, Repr

/-- A discrete input with a stuck timeout of R539. -/
inductive HwdInput where
  | detach
  | mrst
  | camera (port : Fin 16)
deriving DecidableEq, Repr


/-- The commands: one constructor per row of spec/opcode_table.json; the rows without operands stand last. -/
inductive Instr where
  /-- BAND_INSTANT (R170): A band instant J(m,b) is reached: common b switches phase and a band write slot opens or closes. -/
  | bandInstant (p : FetchP)
  /-- FLAT_ROW_WRITE (R177): In Flat, a row's write slot starts and the row of the flat base is sent. -/
  | flatRowWrite (p : FetchP)
  /-- SCN_HEAD_FAULT (R200): A scan-out head fails its internal checks; its half stops emitting and the head is recovered at L1. -/
  | scnHeadFault (b : Bool)
  /-- TIMING_SET (R194): Command to change the frame rate of the mode in force. -/
  | timingSet (h : Hdr) (p : TimingSetP)
  /-- LAYER_SET (R180): Command to set the source of the flat base or of an overlay layer. -/
  | layerSet (h : Hdr) (p : LayerSetP)
  /-- LAYER_ENABLE (R183): Command to enable or disable overlay layers 1 to 4. -/
  | layerEnable (h : Hdr) (p : LayerEnableP)
  /-- STARLIGHT_SET (R191): Command to copy a Starlight image and palette into the inactive store page. -/
  | starlightSet (h : Hdr) (p : StarlightSetP)
  /-- SCANOUT_STATUS (R201): Command that returns the state of one scan-out head. -/
  | scanoutStatus (h : Hdr) (p : ScanoutStatusP)
  /-- MODE_SET (R292): Command to change the mode and rate. -/
  | modeSet (h : Hdr) (p : ModeSetP)
  /-- MODE_GET (R295): Command that returns the mode, rate and standing conditions. -/
  | modeGet (h : Hdr)
  /-- PANEL_LOAD (R29): Command to check and install a Lival panel file from a device buffer. -/
  | panelLoad (h : Hdr) (p : PanelLoadP)
  /-- SCENE_OPEN (R59): Command to open a scene session from host feed, backbone or clip cache. -/
  | sceneOpen (h : Hdr) (p : SceneOpenP)
  /-- SCENE_FEED (R61): Command to copy stream bytes into a source 0 session's ring. -/
  | sceneFeed (h : Hdr) (p : SceneFeedP) (data : List Byte)
  /-- SCENE_CLOSE_DRAIN (R65): Command to close a session after showing every complete frame held. -/
  | sceneCloseDrain (h : Hdr) (p : SceneCloseP)
  /-- SCENE_CLOSE_NOW (R65): Command to close a session at the next display-frame boundary. -/
  | sceneCloseNow (h : Hdr) (p : SceneCloseP)
  /-- STREAM_DATAGRAM (R63): A UDP datagram carrying stream bytes for a backbone session arrives at the internal port. -/
  | streamDatagram (port : U16) (payload : List Byte)
  /-- STREAM_FRAME_DECODE_START (R57): Cirrus starts a stream frame once all its bytes are present and an MPI slot is free. -/
  | streamFrameDecodeStart (slot : Fin 2)
  /-- STREAM_FRAME_DECODED (R57): The decoding of a stream frame completes into its MPI slot. -/
  | streamFrameDecoded (slot : Fin 2)
  /-- SESSION_END_COMPLETE (R64): The last frame's interval ends, a session without LOOP ends COMPLETE, or a DRAIN close completes. -/
  | sessionEndComplete (slot : Fin 2)
  /-- CODEC_JOB_COMPRESS (R85): Command to open a compressing codec job. -/
  | codecJobCompress (h : Hdr) (p : CodecJobP)
  /-- CODEC_JOB_DECOMPRESS (R85): Command to open a decompressing codec job. -/
  | codecJobDecompress (h : Hdr) (p : CodecJobP)
  /-- CODEC_RESUME (R93): Command to resume a stopped codec job with more output space or input. -/
  | codecResume (h : Hdr) (p : CodecResumeP)
  /-- CODEC_ABORT (R95): Command to stop a codec job at its next committed boundary and free its slot. -/
  | codecAbort (h : Hdr) (p : CodecAbortP)
  /-- CIRRUS_BLOCK_START (R83): A free Cirrus engine is assigned the next block by priority. -/
  | cirrusBlockStart (engine : Fin 16)
  /-- CIRRUS_BLOCK_DONE (R73): An engine finishes a block, or stops on output space, and the job or frame advances. -/
  | cirrusBlockDone (engine : Fin 16) (host : List Byte)
  /-- CDC_HOST_STARVED (R84): A codec job has waited 100 ms for an engine. -/
  | cdcHostStarved (slot : Fin 16)
  /-- CDC_SUSPEND_LIMIT_EXPIRY (R96): A stopped job exceeds CDC_SUSPEND_LIMIT and ends with event 0x62. -/
  | cdcSuspendLimitExpiry (slot : Fin 16)
  /-- CDC_ENGINE_FAULT (R97): A Cirrus engine fails its internal checks and Cirrus is recovered at L1. -/
  | cdcEngineFault (engine : Fin 16)
  /-- SYN_DEADLINE (R124): A frame is not committed by S_Pk − 500 µs; it is stopped and the last frame is shown again. -/
  | synDeadline (done : Byte)
  /-- SYN_GROUP_FAULT (R130): A Cumulus lane group fails its checks and is recovered at L1. -/
  | synGroupFault (group : Byte)
  /-- FRAME_SUBMIT (R119): Command to render a host MPI in a chosen frame, with an optional fence. -/
  | frameSubmit (h : Hdr) (p : FrameSubmitP)
  /-- FRAME_STATUS (R123): Command that returns the status of a recent frame. -/
  | frameStatus (h : Hdr) (k : U64)
  /-- VIEW_SHIFT (R127): Command to set the view shift translation, rate and parallax from a chosen frame. -/
  | viewShift (h : Hdr) (p : ViewShiftP)
  /-- CAM_CFG_PORT (R141): Command to configure a camera port's format, gear and sweep use, re-arming it. -/
  | camCfgPort (h : Hdr) (p : CamPortP)
  /-- CAM_CFG_OFF (R142): Command to deconfigure a camera port and power it down. -/
  | camCfgOff (h : Hdr) (p : CamOffP)
  /-- CAM_CFG_I2C (R143): Command to perform one I2C transfer to a camera. -/
  | camCfgI2c (h : Hdr) (p : CamI2cP)
  /-- CAM_I2C_TRANSFER_DONE (R143): A camera I2C transfer ends and its command completes. -/
  | camI2cTransferDone (port : Fin 16) (e : I2cEnd)
  /-- CAM_CFG_MAP (R144): Command to validate and load a rectification map for a port. -/
  | camCfgMap (h : Hdr) (p : CamMapP)
  /-- CAM_TRIGGER_CFG (R146): Command to set the trigger offset, width, polarity and per-port skew. -/
  | camTriggerCfg (h : Hdr) (p : CamTrigP)
  /-- SWEEP_CFG (R157): Command to set the sweep's planes, disparities and opacity thresholds. -/
  | sweepCfg (h : Hdr) (p : SweepCfgP)
  /-- CAM_STATUS (R164): Command that returns the state of one camera port. -/
  | camStatus (h : Hdr) (p : CamStatusP)
  /-- CAM_LINK_UP (R134): A camera port completes A-PHY training. -/
  | camLinkUp (port : Fin 16) (gear : Fin 5) (latency : Fin 10001)
  /-- CAM_LINK_DOWN (R138): A camera port's link is lost; buffers return and the port may be masked for flapping. -/
  | camLinkDown (port : Fin 16)
  /-- CAM_TRIGGER (R147): T_trig of a port for a camera window is reached and the trigger edge is sent. -/
  | camTrigger (port : Fin 16)
  /-- CSI2_FRAME (R148): A CSI-2 frame from a camera is received whole and judged against its window. -/
  | csi2Frame (port : Fin 16) (f : CsiFrame)
  /-- CAM_WINDOW_END (R148): A camera window ends; an image whose FE has not arrived is discarded as late. -/
  | camWindowEnd (outstanding : U16)
  /-- CAM_PRES_INPUT (R539): A camera presence input changes level after qualification. -/
  | camPresInput (port : Fin 16) (level : Bool) (stable : Nat)
  /-- SWP_FAULT (R159): A sweep lane group fails its checks and is recovered at L1. -/
  | swpFault (group : Fin 16)
  /-- PANEL_LINK_TRAIN (R225): Command OP 0 to train or retrain named panel halves. -/
  | panelLinkTrain (h : Hdr) (p : LinkTrainP)
  /-- PANEL_PRES_REARM (R225): Command OP 1 to re-arm a masked panel presence input. -/
  | panelPresRearm (h : Hdr) (p : LinkTrainP)
  /-- HELLO (R216): A HELLO message arrives on a back lane with the panel's model code and capabilities. -/
  | hello (b : Bool) (p : HelloMsg)
  /-- TSTAT (R221): A TSTAT message reports a training stage and its lanes. -/
  | tstat (b : Bool) (stage : Byte) (mask : U32)
  /-- PANEL_CINIT (R217): The panel's CINIT message announces its row credits. -/
  | panelCinit (b : Bool) (credits : Byte)
  /-- ACK (R218): An ACK message acknowledges row packets and returns their credits. -/
  | ack (b : Bool) (seq : U16) (count : Byte)
  /-- NAK (R219): A NAK message refuses a row packet, which is resent or lost. -/
  | nak (b : Bool) (seq : U16) (reason : Byte)
  /-- STATUS (R220): A panel STATUS message arrives; outstanding packets up to LAST_SEQ count as ACKed. -/
  | status (b : Bool) (p : StatusMsg)
  /-- PEVT (R217): A PEVT message is queued as event 0xBB and its credit returned with LINKCTL CREDIT. -/
  | pevt (b : Bool) (code : U16) (data : List Byte)
  /-- TRAINING_ATTEMPT (R221): A training attempt of a half starts once a back lane has lock and HELLO has been received. -/
  | trainingAttempt (b : Bool)
  /-- TRAINING_ATTEMPT_TIMEOUT (R221): TSTAT stage 3 has not arrived 8 ms after the attempt began and the attempt fails. -/
  | trainingAttemptTimeout (b : Bool)
  /-- TRAINING_RETRY (R223): 1 ms after a failed attempt a new attempt begins. -/
  | trainingRetry (b : Bool)
  /-- PLK_ACK_TIMEOUT (R219): No ACK or NAK arrives within PLK_ACK_TIMEOUT of a packet's EOP. -/
  | plkAckTimeout (b : Bool)
  /-- PANEL_PRES_CHANGE (R226): A panel presence input level is accepted after qualification. -/
  | panelPresChange (b : Bool) (level : Bool) (stable : Nat)
  /-- PLK_PRES_STUCK (R226): A presence input asserted for 5 s without back-lane lock is masked. -/
  | plkPresStuck (b : Bool)
  /-- BACK_LANE_LOCK_LOSS (R215): A back lane loses block lock and the half continues on the other. -/
  | backLaneLockLoss (b : Bool) (lane : Bool)
  /-- PLK_HALF_DOWN (R227): Both back lanes lack lock for 100 µs or presence is released; the half becomes absent. -/
  | plkHalfDown (b : Bool)
  /-- PLK_HALF_PRESENT (R228): Presence is accepted and a back lane gains lock; the half becomes present and trains. -/
  | plkHalfPresent (b : Bool) (lane : Bool)
  /-- THERMISTOR_SAMPLE (R246): The panel thermistor is sampled at its due time or on demand and converted to temperature. -/
  | thermistorSample (code : BitVec 12)
  /-- STD_OVERCURRENT (R255): An output stays at its current limit for 10 µs and the drive is recovered. -/
  | stdOvercurrent (out : Byte)
  /-- STEER_CFG (R260): Command to lock a band and set amplitude trim and thermistor offset. -/
  | steerCfg (h : Hdr) (p : SteerCfgP)
  /-- STEER_STATUS (R261): Command that samples the thermistor and returns the steering state. -/
  | steerStatus (h : Hdr) (code : BitVec 12)
  /-- TIME_GET (R270): Command that returns the time, state, offset and frequency. -/
  | timeGet (h : Hdr)
  /-- TIME_SET_ABSOLUTE (R271): Command OP 0 to set Meridian time to an absolute value. -/
  | timeSetAbsolute (h : Hdr) (p : TimeSetP)
  /-- TIME_SET_RELATIVE (R271): Command OP 1 to step Meridian time by a signed delta. -/
  | timeSetRelative (h : Hdr) (p : TimeSetP)
  /-- TIME_SET_AT_PPS (R271): Command OP 2 to set the time of the next used PPS_IN edge. -/
  | timeSetAtPps (h : Hdr) (p : TimeSetP)
  /-- TIME_ADJUST_SLEW (R272): Command OP 0 to remove an offset by slewing 40 ppm. -/
  | timeAdjustSlew (h : Hdr) (p : TimeAdjustP)
  /-- TIME_ADJUST_FREQUENCY (R272): Command OP 1 to set the frequency offset. -/
  | timeAdjustFrequency (h : Hdr) (p : TimeAdjustP)
  /-- PTP_PORT_CFG (R278): Command to configure a port's time-protocol profile and latencies. -/
  | ptpPortCfg (h : Hdr) (p : PtpPortCfgP)
  /-- PTP_EVENT_MESSAGE (R274): A PTP message is received and stamped on a time-protocol port. -/
  | ptpEventMessage (port : Fin 8) (m : PtpMsg)
  /-- PTP_MESSAGE_TX (R275): A Sync, Announce or delay request interval expires and the port sends its message. -/
  | ptpMessageTx (port : Fin 8) (kind : PtpTxKind)
  /-- TIMER_ARM (R280): Command to arm a Meridian timer. -/
  | timerArm (h : Hdr) (p : TimerArmP)
  /-- TIMER_CANCEL (R281): Command to disarm and release a timer. -/
  | timerCancel (h : Hdr) (p : HandleP)
  /-- TIME_TIMER (R279): A timer reaches its expiry and fires with its cookie. -/
  | timeTimer (timer : Fin 64)
  /-- PPS_IN_EDGE (R283): An active edge on PPS_IN is stamped and used, counted or starts a series. -/
  | ppsInEdge (stamp : Nat) (width : Nat)
  /-- MT_NS_READ (R269): A read of MT_NS latches the time and frame index for that master. -/
  | mtNsRead (m : Master)
  /-- VAUX_POWER_GOOD (R543): VAUX is applied and Horizon's power-on reset releases. -/
  | vauxPowerGood (found : List (Nat × NvFound))
  /-- PWR_VMAIN_RANGE (R302): VMAIN leaves 10.8 V to 13.2 V for 1 ms while staying above 9.0 V. -/
  | pwrVmainRange (mv : Nat)
  /-- POWER_SAMPLE (R304): Every 100 µs VMAIN power is measured and the energy estimate and averages updated. -/
  | powerSample (p : PowerRead)
  /-- THERMAL_SAMPLE (R307): Dewpoint samples every sensor on energy step, interval or demand and updates its conditions. -/
  | thermalSample (t : ThmRead)
  /-- CONFIRMATION_SAMPLE (R308): A confirmation sample falls due 1 ms or 2 ms after a first qualifying sample. -/
  | confirmationSample (t : ThmRead)
  /-- HORIZON_SENSOR_READ (R310): In Dormant Horizon reads its sensor every 60 s and may trip a wake. -/
  | horizonSensorRead (v : Int)
  /-- THERMAL_READ (R324): Command that takes a sample and returns temperatures. -/
  | thermalRead (h : Hdr) (p : ThermalReadP)
  /-- THERMAL_LIMITS_SET (R325): Command to lower the thermal set levels. -/
  | thermalLimitsSet (h : Hdr) (p : ThermalLimitsP)
  /-- THROTTLE_ACK (R327): Command to name the target of a throttle step-down. -/
  | throttleAck (h : Hdr) (p : ThrottleAckP)
  /-- WAKE (R299): An accepted wake starts the main domain and enters Dawn. -/
  | wake (t : ThmRead)
  /-- DMC_READY (R346): The release sequence ends and device memory is released. -/
  | dmcReady (checks : List DmcCheck) (other : DmcMeas)
  /-- CAL_WINDOW_OPEN (R348): A calibration window opens on a pseudo-channel when its conditions hold. -/
  | calWindowOpen (pc : Fin 64)
  /-- CAL_WINDOW_CLOSE (R349): A window's step ends, its saved data is restored and the window closes. -/
  | calWindowClose (pc : Fin 64) (work : WinWork)
  /-- DMC_REFRESH (R340): A per-bank refresh of a pseudo-channel falls due. -/
  | dmcRefresh (pc : Fin 64)
  /-- DMC_PAGE_IDLE_EXPIRY (R339): DMC_PAGE_IDLE passes with no access and the bank is precharged. -/
  | dmcPageIdleExpiry (pc : Fin 64) (bank : Fin 32)
  /-- BAR2_READ (R365): A host read through BAR2 returns memory or all ones. -/
  | bar2Read (off : U64) (len : Byte) (errs : List MemErr)
  /-- BAR2_WRITE (R365): A host write through BAR2 lands in an occupied heap unit or is dropped. -/
  | bar2Write (off : U64) (data : List Byte)
  /-- PARAM_SET_DMC_HASH (R337): PARAM_SET of a DMC_HASH mask is checked and stored. -/
  | paramSetDmcHash (h : Hdr) (p : ParamSetP)
  /-- PARAM_SET_DMC_DLY (R345): PARAM_SET of DMC_DLY_TIMING or DMC_DLY_VREF writes the selected delay record. -/
  | paramSetDmcDly (h : Hdr) (p : ParamSetP)
  /-- BUF_ALLOC (R372): Command to allocate a device buffer in the heap. -/
  | bufAlloc (h : Hdr) (p : BufAllocP)
  /-- BUF_FREE (R374): Command to free a device buffer, at once or deferred. -/
  | bufFree (h : Hdr) (p : HandleP)
  /-- BUF_COPY (R376): Command to copy between host memory and device buffers. -/
  | bufCopy (h : Hdr) (p : BufCopyP)
  /-- BUF_COPY_DONE (R376): A copy ends, completely or early, and its completion is written. -/
  | bufCopyDone (k : CmdKey) (copied : U32) (mem : HostMem) (data : List Byte)
  /-- BUF_QUERY (R377): Command that returns a buffer's size, address and holders. -/
  | bufQuery (h : Hdr) (p : HandleP)
  /-- LEDGER_READ (R381): Command that audits a pool and returns its ledger record. -/
  | ledgerRead (h : Hdr) (p : LedgerReadP) (upsets : List Upset)
  /-- LEDGER_AUDIT_TICK (R379): Each second of Meridian time every pool is audited. -/
  | ledgerAuditTick (upsets : List Upset)
  /-- RING_ENABLE (R392): RING_CTL write with ENABLE 1 starts a ring pair. -/
  | ringEnable (r : Fin 16) (v : BitVec 31)
  /-- RING_DISABLE (R392): RING_CTL write with ENABLE 0 stops reading and drains the pair. -/
  | ringDisable (r : Fin 16) (v : BitVec 31)
  /-- RING_DRAINED (R392): No command of a draining pair remains in flight and it turns off. -/
  | ringDrained (r : Fin 16)
  /-- SQ_TAIL (R391): Doorbell write submitting entries to a submission ring. -/
  | sqTail (r : Fin 16) (v : U32) (strays : List Stray) (mem : HostMem)
  /-- CQ_HEAD (R391): Doorbell write releasing completion entries and re-arming the interrupt. -/
  | cqHead (r : Fin 16) (v : U32)
  /-- LEASE_HB (R409): A host write to LEASE_HB renews the lease as LEASE_RENEW does. -/
  | leaseHb (v : U32)
  /-- SAFE_REQ (R409): A keyed host write to SAFE_REQ enters the safe hold of L4. -/
  | safeReq (v : U32)
  /-- REGISTER_WRITE (R389): A write to a BAR0 register without behaviour of its own updates its field or is ignored. -/
  | registerWrite (off : U16) (v : U32)
  /-- REG64_LOW_READ (R6): A read of the low word of a 64-bit register latches its high word for that master. -/
  | reg64LowRead (m : Master) (off : U16)
  /-- PCIE_LINK_DOWN (R388): The host's link goes down; rings are disabled and replies are discarded. -/
  | pcieLinkDown (why : LinkDown)
  /-- DEFERRED_ACCEPTANCE (R405): A command held back by CHAIN, FENCE_WAIT, completion space or a test hold is taken up once its condition holds. -/
  | deferredAcceptance (src : Src)
  /-- SCHEDULED_COMMAND_RUN (R402): The target of a held command is reached and it runs as if it arrived then. -/
  | scheduledCommandRun (slot : Fin 64)
  /-- CMD_DEADLINE (R403): A command's budget runs out and it stops or is flagged late. -/
  | cmdDeadline (k : CmdKey)
  /-- SB_T1_DATAGRAM (R451): A frame on SB_T1 is received; an Imven datagram is checked and its message taken. -/
  | sbT1Datagram (f : T1Frame)
  /-- MCTP_MESSAGE (R452): An MCTP message on SB_SMB is assembled and its Imven message taken. -/
  | mctpMessage (f : SmbFrame) (m : SbMsg)
  /-- SET_ENDPOINT_ID (R452): MCTP control message setting the module's endpoint ID. -/
  | setEndpointId (f : SmbFrame) (op : Byte) (eid : Byte)
  /-- GET_ENDPOINT_ID (R452): MCTP control message returning the endpoint ID. -/
  | getEndpointId (f : SmbFrame)
  /-- GET_MCTP_VERSION_SUPPORT (R452): MCTP control message returning the supported versions. -/
  | getMctpVersionSupport (f : SmbFrame) (type : Byte)
  /-- GET_MESSAGE_TYPE_SUPPORT (R452): MCTP control message returning the supported message types. -/
  | getMessageTypeSupport (f : SmbFrame)
  /-- NOP (R412): Command that replies OK with zero words. -/
  | nop (h : Hdr)
  /-- GET_INFO (R412): Command that returns a page of device information. -/
  | getInfo (h : Hdr) (p : GetInfoP)
  /-- PARAM_GET (R412): Command that returns a parameter's value in force. -/
  | paramGet (h : Hdr) (p : ParamGetP) (v : HwdVolts)
  /-- PARAM_SET (R412): Command to set a writable parameter. -/
  | paramSet (h : Hdr) (p : ParamSetP)
  /-- PARAM_LIST (R412): Command that lists parameters from a starting ID. -/
  | paramList (h : Hdr) (p : ParamListP) (v : HwdVolts)
  /-- LEASE_TAKE (R407): Command to take, renew or force the control lease. -/
  | leaseTake (h : Hdr) (p : LeaseTakeP)
  /-- LEASE_RENEW (R408): Command to renew the control lease. -/
  | leaseRenew (h : Hdr)
  /-- LEASE_RELEASE (R408): Command to release the control lease. -/
  | leaseRelease (h : Hdr)
  /-- EVT_PEND_WRITE (R419): A W1C write clears event pending bits. -/
  | evtPendWrite (word : Fin 8) (v : U32)
  /-- EVT_MASK_WRITE (R419): A write to an event mask word; unmasking a pending source sends its message. -/
  | evtMaskWrite (word : Fin 8) (v : U32)
  /-- EVQ_CTL_WRITE (R421): A write to EVQ_CTL enables or disables the event queue. -/
  | evqCtlWrite (v : U32)
  /-- EVQ_HEAD (R421): A write to EVQ_HEAD releases event queue entries or disables the queue on error. -/
  | evqHead (v : U32)
  /-- EVENT_LOG_READ (R424): Command that copies records from the event history. -/
  | eventLogRead (h : Hdr) (p : EventLogReadP)
  /-- RESET_LEVEL_1 (R433): Command to recover one domain at L1. -/
  | resetLevel1 (h : Hdr) (p : ResetLevelP)
  /-- RESET_LEVEL_2 (R433): Command to recover the data plane at L2. -/
  | resetLevel2 (h : Hdr) (p : ResetLevelP)
  /-- RESET_LEVEL_3 (R433): Command to reset everything but Horizon at L3. -/
  | resetLevel3 (h : Hdr) (p : ResetLevelP)
  /-- RESET_LEVEL_4 (R433): Command from any master to take the actions of R317 and enter the safe hold. -/
  | resetLevel4 (h : Hdr) (p : ResetLevelP)
  /-- DIAG_CAPTURE (R434): Command that copies a domain's recovery capture into a device buffer. -/
  | diagCapture (h : Hdr) (p : DiagCaptureP)
  /-- RECOVERY_START (R429): A waiting recovery starts when no conflicting recovery runs or waits ahead of it. -/
  | recoveryStart (rseq : U32)
  /-- RECOVERY_END (R431): A recovery completes and its end record is formed with its outcome. -/
  | recoveryEnd (rseq : U32) (success : Bool) (t : ThmRead)
  /-- ETH_FRAME_RX (R437): A frame is received whole on a bridge port and forwarded, delivered or discarded. -/
  | ethFrameRx (port : Fin 8) (bytes : List Byte) (fcsOk : Bool)
  /-- ETH_FRAME_TX (R447): A queued frame starts transmission when its gate is open long enough. -/
  | ethFrameTx (port : Fin 8)
  /-- GATE_CONTROL_EVENT (R447): A gate control list entry boundary is reached and gates change. -/
  | gateControlEvent (port : Fin 8)
  /-- NET_SCHED_SWITCH (R446): The change time is reached and the administrative gate list becomes operational. -/
  | netSchedSwitch (port : Fin 8)
  /-- FRER_RESET_TIMEOUT (R445): A stream's RESET_MS passes and its recovery history is reset. -/
  | frerResetTimeout (stream : Fin 64)
  /-- NET_LINK_UP (R450): An Ethernet port's link comes up. -/
  | netLinkUp (port : Fin 8) (latency : Fin 4096)
  /-- NET_LINK_DOWN (R449): An Ethernet port loses link; it retrains or is masked on a repeat. -/
  | netLinkDown (port : Fin 8)
  /-- NET_PORT_CFG (R441): Command to set a bridge port's speed, VLAN defaults and frame size. -/
  | netPortCfg (h : Hdr) (p : NetPortCfgP)
  /-- NET_VLAN_CFG_VLAN (R444): Command OP 0 to set or delete a VLAN. -/
  | netVlanCfgVlan (h : Hdr) (p : NetVlanP)
  /-- NET_VLAN_CFG_STATIC_ENTRY (R444): Command OP 1 to set or delete a static forwarding entry. -/
  | netVlanCfgStaticEntry (h : Hdr) (p : NetStaticP)
  /-- NET_VLAN_CFG_PRIORITY_MAP (R444): Command OP 2 to set a port's priority-to-class map. -/
  | netVlanCfgPriorityMap (h : Hdr) (p : NetPrioP)
  /-- NET_VLAN_CFG_STREAM (R445): Command OP 3 to configure an 802.1CB stream. -/
  | netVlanCfgStream (h : Hdr) (p : NetStreamP)
  /-- NET_SCHED_CFG_WRITE (R446): Command OP 0 to write gate list entries. -/
  | netSchedCfgWrite (h : Hdr) (p : NetSchedWriteP)
  /-- NET_SCHED_CFG_COMMIT (R446): Command OP 1 to make the gate list operational at its change time. -/
  | netSchedCfgCommit (h : Hdr) (p : NetSchedCommitP)
  /-- NET_SCHED_CFG_DISABLE (R446): Command OP 2 to open every gate at once. -/
  | netSchedCfgDisable (h : Hdr) (p : NetSchedDisableP)
  /-- NET_STATS (R448): Command that returns a port's counters. -/
  | netStats (h : Hdr) (p : NetStatsP)
  /-- NV_READ (R473): Command that reads a record's payload. -/
  | nvRead (h : Hdr) (p : NvAccessP)
  /-- NV_WRITE (R473): Command that writes a host record. -/
  | nvWrite (h : Hdr) (p : NvAccessP) (data : List Byte) (fails : Nat)
  /-- NV_WRITE_DELETE (R463): Command NV_WRITE with DELETE that removes a key by tombstone. -/
  | nvWriteDelete (h : Hdr) (p : NvAccessP)
  /-- NV_UNLOCK (R468): Command that unlocks partition access with a password. -/
  | nvUnlock (h : Hdr) (p : NvPassP) (rsv8 : Byte)
  /-- NV_LOCK (R469): Command OP 0 that relocks a partition. -/
  | nvLock (h : Hdr) (p : NvPassP)
  /-- NV_LOCK_SET_PASSWORD (R469): Command OP 1 that sets a new password and locks. -/
  | nvLockSetPassword (h : Hdr) (p : NvPassP)
  /-- NV_LOCK_REMOVE_PASSWORD (R469): Command OP 2 that removes a partition password. -/
  | nvLockRemovePassword (h : Hdr) (p : NvPassP)
  /-- NV_COUNTER_ADD (R471): Command that adds to a host counter. -/
  | nvCounterAdd (h : Hdr) (p : NvCounterP)
  /-- NV_LOG_READ (R474): Command that reads the flushed event log. -/
  | nvLogRead (h : Hdr) (p : EventLogReadP)
  /-- CAL_RUN (R482): Command to run a calibration of one item or every item. -/
  | calRun (h : Hdr) (p : CalRunP)
  /-- CAL_AUTO_TRIGGER (R479): An automatic calibration falls due by period or temperature change. -/
  | calAutoTrigger (item : Byte) (pc : Fin 64)
  /-- CAL_DONE (R480): A calibration completes and its count and time are recorded. -/
  | calDone (pc : Fin 64) (m : CalMeas)
  /-- CAL_STALE (R480): A trim goes CAL_STALE hours without recalibration. -/
  | calStale (item : Byte)
  /-- CAL_EXPORT (R485): Command that writes the calibration image. -/
  | calExport (h : Hdr) (p : CalExportP)
  /-- CAL_IMPORT (R486): Command that checks and stores a calibration image. -/
  | calImport (h : Hdr) (p : CalImportP)
  /-- CAL_STATUS (R483): Command that returns an item's calibration status. -/
  | calStatus (h : Hdr) (p : CalStatusP)
  /-- TEST_RUN (R495): Command to start a run of self-tests. -/
  | testRun (h : Hdr) (p : TestRunP)
  /-- TEST_END (R491): A test ends with its outcome and the power scheduler starts waiting tests. -/
  | testEnd (id : Byte) (inst : Byte) (r : TestShow)
  /-- TEST_RESULT (R496): Command that returns a test's outcome and result. -/
  | testResult (h : Hdr) (p : TestResultP)
  /-- TEST_ABORT (R497): Command to stop every running test. -/
  | testAbort (h : Hdr)
  /-- TST_BUSY (R493): A command held by an in-service test outlasts its hold time and returns BUSY_SELFTEST. -/
  | tstBusy (k : CmdKey)
  /-- LIFE_GET (R525): Command that returns the life-cycle and authentication state. -/
  | lifeGet (h : Hdr)
  /-- CHALLENGE_GET_NEW (R514): Command PART 0 that forms a new challenge for the master. -/
  | challengeGetNew (h : Hdr) (p : ChallengeGetP)
  /-- CHALLENGE_GET_PART (R514): Command PART 1 to 3 that returns part of the held challenge. -/
  | challengeGetPart (h : Hdr) (p : ChallengeGetP)
  /-- RESPONSE_PUT (R515): Command carrying a signed response to authenticate or open debug. -/
  | responsePut (h : Hdr) (p : ResponsePutP)
  /-- PASSWORD_PUT (R516): Command carrying the debug password to authenticate or open debug. -/
  | passwordPut (h : Hdr) (p : PasswordPutP)
  /-- ATTEST_QUOTE_FORM (R519): Command PART 0 that forms and holds a signed attestation quote. -/
  | attestQuoteForm (h : Hdr) (p : AttestP)
  /-- ATTEST_QUOTE_PART (R519): Command PART 1 to 18 that returns part of the held quote. -/
  | attestQuotePart (h : Hdr) (p : AttestP)
  /-- LIFE_ADVANCE (R512): Command to advance the life-cycle state, blowing fuses and resetting. -/
  | lifeAdvance (h : Hdr) (p : LifeAdvanceP) (trims : List U16) (cut : Option LifeCut)
  /-- KEY_INSTALL_OWNER_KEY (R518): Command KIND 1 that installs the owner debug key. -/
  | keyInstallOwnerKey (h : Hdr) (p : KeyInstallP)
  /-- KEY_INSTALL_FLEET_KEY (R518): Command KIND 2 that installs the fleet attestation key. -/
  | keyInstallFleetKey (h : Hdr) (p : KeyInstallP)
  /-- KEY_INSTALL_PASSWORD (R518): Command KIND 3 that sets the debug password. -/
  | keyInstallPassword (h : Hdr) (p : KeyInstallP)
  /-- KEY_INSTALL_REMOVE_PASSWORD (R518): Command KIND 4 that removes the debug password. -/
  | keyInstallRemovePassword (h : Hdr) (p : KeyInstallP)
  /-- FW_BEGIN (R520): Command that opens a firmware update and erases the target slot. -/
  | fwBegin (h : Hdr) (p : FwBeginP)
  /-- FW_CHUNK (R521): Command that programs the next chunk of an image. -/
  | fwChunk (h : Hdr) (p : FwChunkP) (fails : Bool)
  /-- FW_COMMIT (R522): Command that starts verification of the staged image. -/
  | fwCommit (h : Hdr)
  /-- FW_ACTIVATE_ARM (R523): Command OP 0 that arms the sealed slot for one trial boot. -/
  | fwActivateArm (h : Hdr) (p : FwActivateP)
  /-- FW_ACTIVATE_CONFIRM (R523): Command OP 1 that confirms the running trial image and blows fuses. -/
  | fwActivateConfirm (h : Hdr) (p : FwActivateP) (cut : Option ConfirmCut)
  /-- FW_ACTIVATE_DISARM (R523): Command OP 2 that disarms a trial. -/
  | fwActivateDisarm (h : Hdr) (p : FwActivateP)
  /-- DETACH_REQ_ASSERT (R544): An assertion of DETACH_REQ_N is accepted and starts the detach quiesce. -/
  | detachReqAssert (edges : Nat) (stall : Option (Fin 5)) (took : Nat)
  /-- QUIESCE_STEP_FORCED (R546): A quiesce step reaches its maximum and what remains of it is forced. -/
  | quiesceStepForced (stall : Option (Fin 5))
  /-- DETACH_REQ_RELEASE (R547): A release of DETACH_REQ_N is accepted and the detached state ends. -/
  | detachReqRelease (edges : Nat)
  /-- DETACH_PREPARE (R551): Command that starts the detach quiesce. -/
  | detachPrepare (h : Hdr) (p : DetachP) (stall : Option (Fin 5)) (took : Nat)
  /-- MRST_ASSERT (R542): An accepted assertion of MRST_N starts an L3 and holds the main domain in reset. -/
  | mrstAssert (edges : Nat)
  /-- MRST_RELEASE (R542): MRST_N is released and the main domain starts as at the end of an L3. -/
  | mrstRelease (edges : Nat) (t : ThmRead)
  /-- HWD_INPUT_STUCK (R539): A discrete input is held past its stuck timeout and masked. -/
  | hwdInputStuck (input : HwdInput)
  /-- PARAM_SET_HWD_REARM (R539): PARAM_SET of HWD_REARM re-arms masked DETACH_REQ_N or MRST_N. -/
  | paramSetHwdRearm (h : Hdr) (p : ParamSetP)
  /-- CARRIER_EDGE (R253): The steering carrier changes sign at S_m + n × T_c / 2; the driver measures the edge charge of each common, judges settling and applies any DC trim delay. -/
  | carrierEdge (charges : List Nat)
  /-- SUBFRAME_START (R10): Meridian time reaches the start S_m of a subframe of the frame grid; at S_Pk a frame begins, the SUBFRAME_START marker is sent and values due at the next frame take effect. -/
  | subframeStart
  /-- EMIT_ON (R172): A band's emission window opens and the EMIT_ON marker is sent. -/
  | emitOn
  /-- EMIT_OFF (R172): A band's emission window closes and the EMIT_OFF marker is sent. -/
  | emitOff
  /-- STARLIGHT_ROW_WRITE (R193): In Starlight, a window row's write slot starts and its codes and palette are sent on lane 00. -/
  | starlightRowWrite
  /-- OVERLAY_HOST_READ_FAIL (R186): A host-memory read for an overlay fails, and every enabled host-memory overlay is switched off. -/
  | overlayHostReadFail
  /-- SCN_STILL_LOWERED (R190): SCN_STILL_HOLD expires in Still-air and the rate is lowered to SCN_STILL_RATE as a seamless change. -/
  | scnStillLowered
  /-- DARK_INTERVAL_TRAIN_TIMEOUT (R198): Two new periods after c′ a half that has not trained is handled as a training failure. -/
  | darkIntervalTrainTimeout
  /-- MODE_CHANGE_BOUNDARY (R197): The boundary c of an accepted mode or rate change is reached and the change takes effect. -/
  | modeChangeBoundary
  /-- DMC_RATE_CHANGE_DONE (R342): The PHY has locked at the new point and held requests resume. -/
  | dmcRateChangeDone
  /-- PANEL_LOAD_COMPLETION (R33): The check of a panel file ends; the description is installed whole or nothing changes. -/
  | panelLoadCompletion
  /-- SYNTHESIS_START (R99): The synthesis of frame k starts at S_P(k−1) or at the end of the previous synthesis, taking its source under R102. -/
  | synthesisStart
  /-- SYN_COMMIT (R100): Cumulus finishes a frame, records its CRCs and hands it to Stratus in one step. -/
  | synCommit
  /-- SWEEP_START (R153): The sweep of a frame starts once the previous sweep ended and images are in or S_P(k−2) is reached. -/
  | sweepStart
  /-- SWEEP_END (R154): A sweep finishes its MPI slot and returns its camera buffers. -/
  | sweepEnd
  /-- SWP_DEADLINE (R153): A sweep has not ended by S_P(k−1) and is abandoned. -/
  | swpDeadline
  /-- STD_SETTLE_MISS (R253): A band's settle deadline passes without a settled carrier edge. -/
  | stdSettleMiss
  /-- CROWBAR_CLOSE (R256): 50 µs into a discharge the crowbar ties every output to STRET. -/
  | crowbarClose
  /-- STD_DISCHARGED (R256): A discharge completes with every inter-electrode voltage below 50 mV. -/
  | stdDischarged
  /-- STD_REST_EXPIRY (R244): The layer has been crowbarred for STD_REST; accumulators clear and new pairs may start. -/
  | stdRestExpiry
  /-- STD_FAULT (R255): The steering driver fails its internal checks and is recovered. -/
  | stdFault
  /-- HOLDUP_CHARGED (R536): The hold-up store reaches 20.0 V and counts as charged. -/
  | holdupCharged
  /-- TIME_SET_PPS_TIMEOUT (R271): No PPS edge is used within 1.5 s and the pending OP 2 completes DEADLINE_MISSED. -/
  | timeSetPpsTimeout
  /-- SLEW_DONE (R272): A slew has removed its offset and its command completes OK. -/
  | slewDone
  /-- TIME_SOURCE_LOST (R268): No slave port for 3 announce intervals, or no used PPS edge for 1.5 s; LOCKED becomes HOLDOVER. -/
  | timeSourceLost
  /-- TIME_HOLDOVER_END (R268): HOLDOVER has lasted TIME_HOLDOVER and the state becomes FREE. -/
  | timeHoldoverEnd
  /-- HORIZON_ALARM (R287): A WAKE timer held in the Horizon alarm expires in Dormant and wakes the module. -/
  | horizonAlarm
  /-- PPS_IN_STUCK (R283): PPS_IN's active level lasts 1.0 s and the input is masked. -/
  | ppsInStuck
  /-- PPS_IN_LOST (R284): No PPS_IN edge has been used for 1.5 s. -/
  | ppsInLost
  /-- PPS_OUT_EDGE (R285): A selected instant is reached and PPS_OUT pulses. -/
  | ppsOutEdge
  /-- VAUX_LOST (R549): VAUX is lost, ending everything Horizon held. -/
  | vauxLost
  /-- VMAIN_QUALIFIED (R297): VMAIN has stayed in range for 10 ms; the input switch closes and the module may wake. -/
  | vmainQualified
  /-- PWR_VMAIN_LOST (R302): VMAIN falls below 9.0 V for 20 µs; the layer is crowbarred and the main domain is lost. -/
  | pwrVmainLost
  /-- WARMUP_LIMIT_EXPIRY (R311): THM_WARMUP_LIMIT passes before warm-up ends and the idle load stops. -/
  | warmupLimitExpiry
  /-- THROTTLE_GRACE_EXPIRY (R315): A grace ends with the request still standing and the step-down is enforced. -/
  | throttleGraceExpiry
  /-- SHUTDOWN_HOLD_EXPIRY (R318): 60 s after a thermal shutdown Horizon accepts wakes again. -/
  | shutdownHoldExpiry
  /-- PE_PERST_RISE (R298): A rising edge of PE_PERST_N arrives, waking the module when enabled. -/
  | pePerstRise
  /-- FENCE_MIGRATION_START (R355): No allocated buffer remains in the withdrawn range and the granule copy begins. -/
  | fenceMigrationStart
  /-- DMC_FENCED (R355): The migration copy ends, the PC carries no traffic and the memory budget is checked. -/
  | dmcFenced
  /-- DMC_FAULT (R359): The memory controller fails its internal checks and is recovered at L2. -/
  | dmcFault
  /-- BUF_WITHDRAW_WAIT (R378): Once a second, allocated buffers still in a withdrawn range are reported. -/
  | bufWithdrawWait
  /-- PCIE_LINK_UP (R388): The endpoint reports DL_Up and the host's link is up again. -/
  | pcieLinkUp
  /-- ASPM_L1_ENTRY (R387): 10 µs pass with no pending transaction and the module requests ASPM L1. -/
  | aspmL1Entry
  /-- CMD_LEASE_EXPIRED (R408): The control lease expires CMD_LEASE_TIME after its last renewal. -/
  | cmdLeaseExpired
  /-- SBD_LINK_UP (R455): SB_T1 gains link. -/
  | sbdLinkUp
  /-- SBD_LINK_DOWN (R455): SB_T1 loses link. -/
  | sbdLinkDown
  /-- EVQ_DROPPED_READ (R421): A read of EVQ_DROPPED returns the count and clears it. -/
  | evqDroppedRead
  /-- COALESCE_MS_END (R420): A millisecond ends; coalesced sources deliver one record and may leave coalescing. -/
  | coalesceMsEnd
  /-- FDB_AGEING (R442): A learned address ages out after NET_AGEING. -/
  | fdbAgeing
  /-- NET_BRIDGE_FAULT (R449): The bridge core fails its checks and is recovered at L1. -/
  | netBridgeFault
  /-- NV_LOG_FLUSH (R472): Unflushed event records are written to the LOG partition when due. -/
  | nvLogFlush
  /-- CAL_RUN_DONE (R482): A commanded calibration run ends and its completion is written. -/
  | calRunDone
  /-- BST_AUTO_RUN (R500): BST_AUTO_PERIOD expires and a run of in-service tests starts. -/
  | bstAutoRun
  /-- FIELD_OPEN_EXPIRY (R513): SEC_OPEN_HOURS pass and FIELD_OPEN ends. -/
  | fieldOpenExpiry
  /-- FW_ERASE_DONE (R520): The slot erase ends and FW_BEGIN completes. -/
  | fwEraseDone
  /-- FW_VERIFY_DONE (R522): Verification of the staged image ends and the slot is sealed or left unsealed. -/
  | fwVerifyDone
deriving DecidableEq, Repr

end Sys2Proof
end

