-- ==== Sys2Proof/Machine/Bits.lean ====
section
/-! DEFINITION. Byte order (R2), bit fields, signed readings and the CRC-32C of R4. -/

namespace Sys2Proof.Machine

/-- The low `n` bytes of `v`, least significant first (R2). -/
def leBytes : Nat → Nat → List Byte
  | 0, _ => []
  | n + 1, v => BitVec.ofNat 8 v :: leBytes n (v / 256)

/-- The little-endian value of a list of bytes (R2). -/
def leNat : List Byte → Nat
  | [] => 0
  | b :: bs => b.toNat + 256 * leNat bs

/-- The big-endian bytes of `v`, `n` of them (used only where a named standard lays a field out so). -/
def beBytes (n v : Nat) : List Byte := (leBytes n v).reverse

/-- The big-endian value of a list of bytes. -/
def beNat (bs : List Byte) : Nat := leNat bs.reverse

/-- `n` bytes of `bs` from offset `o`; bytes past the end read as zero. -/
def bytesAt (bs : List Byte) (o n : Nat) : List Byte :=
  let t := (bs.drop o).take n
  t ++ List.replicate (n - t.length) 0

/-- The little-endian field of `n` bytes at offset `o`. -/
def field (bs : List Byte) (o n : Nat) : Nat := leNat (bytesAt bs o n)

/-- Bits `[hi:lo]` of a number. -/
def bits (v hi lo : Nat) : Nat := (v >>> lo) % 2 ^ (hi + 1 - lo)

/-- Bit `i` of a number, as a truth value. -/
def bit (v i : Nat) : Bool := v.testBit i

/-- 1 for true, 0 for false. -/
def b2n (b : Bool) : Nat := if b then 1 else 0

/-- The signed reading of a `w`-bit two's-complement number. -/
def signed (w v : Nat) : Int :=
  if v % 2 ^ w < 2 ^ (w - 1) then (v % 2 ^ w : Nat) else ((v % 2 ^ w : Nat) : Int) - (2 ^ w : Nat)

/-- The `w`-bit two's-complement number of a signed value. -/
def unsigned (w : Nat) (i : Int) : Nat := (i % ((2 ^ w : Nat) : Int)).toNat

/-- One bit step of the reflected CRC-32C (polynomial 0x1EDC_6F41 reflected is 0x82F6_3B78), R4. -/
def crcShift (c : Nat) : Nat := if c % 2 = 1 then (c / 2) ^^^ 0x82F63B78 else c / 2

/-- One byte into a running CRC-32C, R4. -/
def crcByte (c : Nat) (b : Byte) : Nat :=
  crcShift (crcShift (crcShift (crcShift (crcShift (crcShift (crcShift (crcShift (c ^^^ b.toNat))))))))

/-- CRC-32C of a list of bytes: initial value and final exclusive-or 0xFFFF_FFFF (R4). -/
def crc32c (bs : List Byte) : Nat := (bs.foldl crcByte 0xFFFFFFFF) ^^^ 0xFFFFFFFF

/-- Smallest `m ≥ n` that is a multiple of `a`. -/
def alignUp (n a : Nat) : Nat := ((n + a - 1) / a) * a

/-- Ceiling division. -/
def ceilDiv (a b : Nat) : Nat := (a + b - 1) / b

/-- Rounding division of integers toward negative infinity. -/
def floorDiv (a b : Int) : Int := Int.fdiv a b

/-- The integer clamped to `[lo, hi]`. -/
def clampInt (lo hi v : Int) : Int := if v < lo then lo else if hi < v then hi else v

/-- All bytes zero. -/
def zeroBytes (n : Nat) : List Byte := List.replicate n 0

/-- Value of a key in an association list, or a default. -/
def assocD (l : List (Nat × Nat)) (k d : Nat) : Nat :=
  match l with
  | [] => d
  | (a, v) :: r => if a = k then v else assocD r k d

/-- Sets a key in an association list, keeping the keys in rising order. -/
def assocSet (l : List (Nat × Nat)) (k v : Nat) : List (Nat × Nat) :=
  match l with
  | [] => [(k, v)]
  | (a, w) :: r => if a = k then (k, v) :: r else if k < a then (k, v) :: (a, w) :: r else (a, w) :: assocSet r k v

/-- Removes a key from an association list. -/
def assocDel (l : List (Nat × Nat)) (k : Nat) : List (Nat × Nat) := l.filter (fun e => e.1 != k)

/-- Inserts by a rising key. -/
def insertBy {α : Type} (f : α → Nat) (x : α) : List α → List α
  | [] => [x]
  | y :: r => if f x ≤ f y then x :: y :: r else y :: insertBy f x r

/-- Sorts by a rising key. -/
def sortBy {α : Type} (f : α → Nat) : List α → List α
  | [] => []
  | x :: r => insertBy f x (sortBy f r)

end Sys2Proof.Machine
end

