-- ==== Sys2Proof/Machine/Sha.lean ====
section
/-! DEFINITION. SHA-384 (FIPS 180-4, which R505 names), on lists of bytes. The rounds are those of the standard;
PRESUMED, log entry 8. -/

namespace Sys2Proof.Machine

/-- 64-bit words. -/
def w64 : Nat := 2 ^ 64

/-- Round constants 0 to 39: the first 64 bits of the fractional parts of the cube roots of the first primes. -/
def shaK1 : List Nat :=
  [0x428A2F98D728AE22, 0x7137449123EF65CD, 0xB5C0FBCFEC4D3B2F, 0xE9B5DBA58189DBBC,
   0x3956C25BF348B538, 0x59F111F1B605D019, 0x923F82A4AF194F9B, 0xAB1C5ED5DA6D8118,
   0xD807AA98A3030242, 0x12835B0145706FBE, 0x243185BE4EE4B28C, 0x550C7DC3D5FFB4E2,
   0x72BE5D74F27B896F, 0x80DEB1FE3B1696B1, 0x9BDC06A725C71235, 0xC19BF174CF692694,
   0xE49B69C19EF14AD2, 0xEFBE4786384F25E3, 0x0FC19DC68B8CD5B5, 0x240CA1CC77AC9C65,
   0x2DE92C6F592B0275, 0x4A7484AA6EA6E483, 0x5CB0A9DCBD41FBD4, 0x76F988DA831153B5,
   0x983E5152EE66DFAB, 0xA831C66D2DB43210, 0xB00327C898FB213F, 0xBF597FC7BEEF0EE4,
   0xC6E00BF33DA88FC2, 0xD5A79147930AA725, 0x06CA6351E003826F, 0x142929670A0E6E70,
   0x27B70A8546D22FFC, 0x2E1B21385C26C926, 0x4D2C6DFC5AC42AED, 0x53380D139D95B3DF,
   0x650A73548BAF63DE, 0x766A0ABB3C77B2A8, 0x81C2C92E47EDAEE6, 0x92722C851482353B]

/-- Round constants 40 to 79. -/
def shaK2 : List Nat :=
  [0xA2BFE8A14CF10364, 0xA81A664BBC423001, 0xC24B8B70D0F89791, 0xC76C51A30654BE30,
   0xD192E819D6EF5218, 0xD69906245565A910, 0xF40E35855771202A, 0x106AA07032BBD1B8,
   0x19A4C116B8D2D0C8, 0x1E376C085141AB53, 0x2748774CDF8EEB99, 0x34B0BCB5E19B48A8,
   0x391C0CB3C5C95A63, 0x4ED8AA4AE3418ACB, 0x5B9CCA4F7763E373, 0x682E6FF3D6B2B8A3,
   0x748F82EE5DEFB2FC, 0x78A5636F43172F60, 0x84C87814A1F0AB72, 0x8CC702081A6439EC,
   0x90BEFFFA23631E28, 0xA4506CEBDE82BDE9, 0xBEF9A3F7B2C67915, 0xC67178F2E372532B,
   0xCA273ECEEA26619C, 0xD186B8C721C0C207, 0xEADA7DD6CDE0EB1E, 0xF57D4F7FEE6ED178,
   0x06F067AA72176FBA, 0x0A637DC5A2C898A6, 0x113F9804BEF90DAE, 0x1B710B35131C471B,
   0x28DB77F523047D84, 0x32CAAB7B40C72493, 0x3C9EBE0A15C9BEBC, 0x431D67C49C100D4C,
   0x4CC5D4BECB3E42B6, 0x597F299CFC657E2A, 0x5FCB6FAB3AD6FAEC, 0x6C44198C4A475817]

/-- Initial hash value of SHA-384: from the square roots of the ninth to sixteenth primes. -/
def shaIv : List Nat :=
  [0xCBBB9D5DC1059ED8, 0x629A292A367CD507, 0x9159015A3070DD17, 0x152FECD8F70E5939,
   0x67332667FFC00B31, 0x8EB44A8768581511, 0xDB0C2E0D64F98FA7, 0x47B5481DBEFA4FA4]

/-- Rotation right of a 64-bit word. -/
def rotr (x n : Nat) : Nat := (x >>> n) ||| ((x <<< (64 - n)) % w64)

/-- σ₀ of the message schedule. -/
def shaS0 (x : Nat) : Nat := rotr x 1 ^^^ rotr x 8 ^^^ (x >>> 7)
/-- σ₁ of the message schedule. -/
def shaS1 (x : Nat) : Nat := rotr x 19 ^^^ rotr x 61 ^^^ (x >>> 6)
/-- Σ₀ of the rounds. -/
def shaB0 (x : Nat) : Nat := rotr x 28 ^^^ rotr x 34 ^^^ rotr x 39
/-- Σ₁ of the rounds. -/
def shaB1 (x : Nat) : Nat := rotr x 14 ^^^ rotr x 18 ^^^ rotr x 41

/-- The rounds, over the constants left, the sixteen schedule words in hand (oldest first) and the eight variables. -/
def shaRounds : List Nat → List Nat → List Nat → List Nat
  | [], _, v => v
  | k :: ks, ws, v =>
    match v with
    | [a, b, c, d, e, f, g, h] =>
      let w := ws.getD 0 0
      let nw := (shaS1 (ws.getD 14 0) + ws.getD 9 0 + shaS0 (ws.getD 1 0) + w) % w64
      let t1 := (h + shaB1 e + ((e &&& f) ^^^ ((w64 - 1 - e) &&& g)) + k + w) % w64
      let t2 := (shaB0 a + ((a &&& b) ^^^ (a &&& c) ^^^ (b &&& c))) % w64
      shaRounds ks (ws.drop 1 ++ [nw]) [(t1 + t2) % w64, a, b, c, (d + t1) % w64, e, f, g]
    | _ => v

/-- Big-endian 64-bit words of a block. -/
def shaWords : List Byte → Nat → List Nat
  | _, 0 => []
  | bs, n + 1 => beNat (bs.take 8) :: shaWords (bs.drop 8) n

/-- One block into the hash value. -/
def shaBlock (hv : List Nat) (blk : List Byte) : List Nat :=
  List.zipWith (fun a b => (a + b) % w64) hv (shaRounds (shaK1 ++ shaK2) (shaWords blk 16) hv)

/-- The blocks of a padded message, `n` of them. -/
def shaBlocks : Nat → List Nat → List Byte → List Nat
  | 0, hv, _ => hv
  | n + 1, hv, bs => shaBlocks n (shaBlock hv (bs.take 128)) (bs.drop 128)

/-- The padded message: a one bit, zeros, and the length in bits in sixteen bytes. -/
def shaPad (bs : List Byte) : List Byte :=
  bs ++ [0x80] ++ zeroBytes ((239 - bs.length % 128) % 128) ++ beBytes 16 (bs.length * 8)

/-- SHA-384 of a message: 48 bytes. -/
def sha384 (bs : List Byte) : List Byte :=
  let m := shaPad bs
  ((shaBlocks (m.length / 128) shaIv m).take 6).flatMap (beBytes 8)

end Sys2Proof.Machine
end

