-- ==== Sys2Proof/Machine/Ecdsa.lean ====
section
/-! DEFINITION. ECDSA on curve P-384 (FIPS 186-5, which R505 names): affine points over the prime field, verification and
signing; integers are stored as 48 little-endian bytes (R505). PRESUMED, log entry 8. -/

namespace Sys2Proof.Machine

/-- The field prime of P-384. -/
def ecP : Nat := 0xFFFFFFFFFFFFFFFFFFFFFFFFFFFFFFFFFFFFFFFFFFFFFFFFFFFFFFFFFFFFFFFEFFFFFFFF0000000000000000FFFFFFFF
/-- The group order. -/
def ecN : Nat := 0xFFFFFFFFFFFFFFFFFFFFFFFFFFFFFFFFFFFFFFFFFFFFFFFFC7634D81F4372DDF581A0DB248B0A77AECEC196ACCC52973
/-- The coefficient b. -/
def ecB : Nat := 0xB3312FA7E23EE7E4988E056BE3F82D19181D9C6EFE8141120314088F5013875AC656398D8A2ED19D2A85C8EDD3EC2AEF
/-- The generator. -/
def ecG : Option (Nat × Nat) :=
  some (0xAA87CA22BE8B05378EB1C71EF320AD746E1D3B628BA79B9859F741E082542A385502F25DBF55296C3A545E3872760AB7,
        0x3617DE4A96262C6F5D9E98BF9292DC29F8F41DBD289A147CE9DA3113B5F0B8C00A60B1CE1D7E819D7A431D7C90EA0E5F)

/-- `x ^ e mod m` over `k` bits of `e`. -/
def powMod (m : Nat) : Nat → Nat → Nat → Nat
  | 0, _, _ => 1 % m
  | k + 1, x, e => let r := powMod m k (x * x % m) (e / 2); if e % 2 = 1 then x * r % m else r

/-- The inverse modulo a prime. -/
def invMod (m x : Nat) : Nat := powMod m 384 (x % m) (m - 2)

/-- `a - b` modulo `m`. -/
def subMod (m a b : Nat) : Nat := (a % m + (m - b % m)) % m

/-- Point addition; none is the point at infinity. -/
def ecAdd (p q : Option (Nat × Nat)) : Option (Nat × Nat) :=
  match p, q with
  | none, q => q
  | p, none => p
  | some (x1, y1), some (x2, y2) =>
    if x1 = x2 ∧ (y1 + y2) % ecP = 0 then none
    else
      let l := if x1 = x2 then subMod ecP (3 * x1 * x1) 3 * invMod ecP (2 * y1) % ecP
               else subMod ecP y2 y1 * invMod ecP (subMod ecP x2 x1) % ecP
      let x := subMod ecP (l * l) (x1 + x2)
      some (x, subMod ecP (l * subMod ecP x1 x) y1)

/-- `e` times a point, over `k` bits. -/
def ecMul : Nat → Nat → Option (Nat × Nat) → Option (Nat × Nat)
  | 0, _, _ => none
  | k + 1, e, p => let r := ecMul k (e / 2) (ecAdd p p); if e % 2 = 1 then ecAdd p r else r

/-- The pair is a point of the curve other than infinity, with reduced coordinates. -/
def ecOnCurve (x y : Nat) : Bool := x < ecP && y < ecP && y * y % ecP == subMod ecP (x * x * x + ecB) (3 * x)

/-- ECDSA verification of the digest `z` (as an integer) with public key (x, y). -/
def ecVerify (x y z r sg : Nat) : Bool :=
  ecOnCurve x y && 1 ≤ r && r < ecN && 1 ≤ sg && sg < ecN &&
  (let w := invMod ecN sg
   match ecAdd (ecMul 384 (z * w % ecN) ecG) (ecMul 384 (r * w % ecN) (some (x, y))) with
   | some (px, _) => px % ecN == r
   | none => false)

/-- The public point of a private scalar. -/
def ecPublic (d : Nat) : Nat × Nat := (ecMul 384 d ecG).getD (0, 0)

/-- ECDSA signature (r, s) of the digest `z` with private scalar `d` and per-signature scalar `k`. -/
def ecSign (d z k : Nat) : Nat × Nat :=
  let r := (ecPublic k).1 % ecN
  (r, invMod ecN k * ((z + r * d) % ecN) % ecN)

/-- The integer of a SHA-384 digest. -/
def digestNat (bs : List Byte) : Nat := beNat (sha384 bs)

end Sys2Proof.Machine
end

