-- ==== Sys2Proof/Config.lean ====
section
/-! DEFINITION. What the spec leaves open, as constants without a body: free values. Each is applied to what it may
depend on, or to the counter `State.free`; no proof can see a value of one. -/

namespace Sys2Proof

/-- A byte of a device buffer or register whose contents the spec calls undefined, by draw. -/
opaque Config.undefByte : Nat → Nat → Byte

/-- The true random number generator of R514 and the salts of R467: 32 bytes by draw. -/
opaque Config.trng : Nat → List Byte

/-- The body of a capture (R434): internal state that the spec does not lay out, by draw. -/
opaque Config.captureBody : Nat → Nat → List Byte

/-- SHA-384 of the public key of firmware key `i` as held in the boot ROM (R505): the spec gives no values. -/
opaque Config.romKeyDigest : Nat → List Byte

/-- BODY_HASH of the image placed at manufacture (R506). -/
opaque Config.factoryHash : List Byte

/-- The randomness an ECDSA signer draws (FIPS 186-5), by draw: the scalar k. -/
opaque Config.ecdsaNonce : Nat → Nat

/-- How many bytes a copy that ends early has copied in order (R376), by draw. -/
opaque Config.copiedBytes : Nat → Nat

/-- The reference signature the firmware holds for a test and instance (R490). -/
opaque Config.testReference : Nat → Nat → Nat

/-- The planned pattern count of a test and instance (R490). -/
opaque Config.testPatterns : Nat → Nat → Nat

/-- The payload Cirrus writes for a block, by level, TABLES setting and original data (R80: the exact symbol choices are
not part of the spec). -/
opaque Config.deflate : Nat → Nat → List Byte → List Byte

/-- The reason item of event 0x94 or 0xA4 (R173, R202: no code is given), by draw. -/
opaque Config.bgReason : Nat → Nat

/-- The payload of the fuse shadow record (R503: no layout is given), by the LIFE, ROLLBACK and REVOKE values. -/
opaque Config.shadowRecord : Nat → Nat → Nat → List Byte

/-- A code that an event or record names and the spec does not list, by the event's number and draw. -/
opaque Config.code : Nat → Nat → Nat

/-- What a count reads once it has passed the range its parameter table gives, by parameter ID and count: the spec states no
value there. -/
opaque Config.countPast : Nat → Nat → Nat

/-- The version entries of Get MCTP Version Support (R452: the spec names no versions), by message type: a count and four bytes
each. -/
opaque Config.mctpVersions : Nat → List Byte

/-- VERSION of the Recovery firmware of the boot ROM, which the spec does not give. -/
opaque Config.recoveryVersion : Nat

/-- BODY_HASH a quote names while the Recovery firmware runs, which the spec does not give. -/
opaque Config.recoveryHash : List Byte

/-- FW_VERSION in Dormant, where no firmware image runs (R412 gives none). -/
opaque Config.dormantVersion : Nat

end Sys2Proof
end

