-- ==== Sys2Proof/Machine/ParamTable.lean ====
section
/-! DEFINITION. The parameter catalogue: one entry per parameter of the chapters' tables (R412, R7). -/

namespace Sys2Proof.Machine

/-- A parameter of the catalogue: ID, width, range (signed where `lo` is negative), access, takes-effect code of R7, reset
value, and what keeps it: 0 returns to reset at L3 and in Dormant, 1 held in Horizon, 2 kept in the NV store, 3 returns to
reset at L3 only. -/
structure PDesc where
  id : Nat
  width : Nat
  lo : Int
  hi : Int
  ro : Bool
  eff : Nat
  reset : Nat
  keep : Nat
deriving DecidableEq, Repr

/-- A read-only parameter. -/
def pRo (id width : Nat) : PDesc := ⟨id, width, 0, 0, true, 0, 0, 0⟩

/-- A writable parameter. -/
def pRw (id width : Nat) (lo hi : Int) (eff reset keep : Nat) : PDesc := ⟨id, width, lo, hi, false, eff, reset, keep⟩

/-- Parameters 0x00xx. -/
def params00 : List PDesc :=
  [pRo 0x0020 8,
   pRo 0x0021 32,
   pRo 0x0022 32,
   pRo 0x0023 16,
   pRo 0x0030 8,
   pRo 0x0031 16,
   pRw 0x0032 8 0 3 0 0 0,
   pRo 0x0033 32,
   pRo 0x0034 32,
   pRo 0x0035 16,
   pRo 0x0036 16]

/-- Parameters 0x01xx. -/
def params01 : List PDesc :=
  [pRo 0x0100 8,
   pRo 0x0101 8,
   pRo 0x0102 8,
   pRw 0x0103 8 0 1 0 0 2,
   pRw 0x0104 8 0 0x3F 0 0x3F 1,
   pRo 0x0105 8,
   pRo 0x0110 16,
   pRo 0x0111 16,
   pRo 0x0112 16,
   pRo 0x0113 64,
   pRo 0x0114 16,
   pRo 0x0115 32]

/-- Parameters 0x02xx. -/
def params02 : List PDesc :=
  [pRo 0x0200 16,
   pRo 0x0201 16,
   pRo 0x0202 16,
   pRo 0x0203 16,
   pRo 0x0204 16,
   pRw 0x0205 8 0 1 0 0 0,
   pRw 0x0206 16 100 5000 0 500 0,
   pRw 0x0207 16 100 10000 0 1000 0,
   pRw 0x0208 16 100 10000 0 2000 0,
   pRw 0x0209 16 (-550) 850 0 64986 1,
   pRw 0x020A 16 (-400) 1250 0 1250 1,
   pRo 0x020B 32,
   pRo 0x020C 32,
   pRo 0x020D 32,
   pRw 0x020E 16 60 3600 0 600 0,
   pRo 0x0210 16,
   pRo 0x0211 16,
   pRo 0x0212 16,
   pRo 0x0213 16,
   pRo 0x0214 16,
   pRo 0x0215 16,
   pRo 0x0216 16,
   pRo 0x0217 16,
   pRo 0x0218 16]

/-- Parameters 0x02xx. -/
def params02a : List PDesc :=
  [pRo 0x0219 16,
   pRo 0x021A 16,
   pRo 0x021B 16,
   pRo 0x021C 16,
   pRo 0x021D 16,
   pRo 0x021E 16,
   pRo 0x021F 16,
   pRo 0x0220 16,
   pRo 0x0221 16,
   pRo 0x0222 16,
   pRo 0x0223 16,
   pRo 0x0224 16,
   pRo 0x0225 16,
   pRo 0x0226 16,
   pRo 0x0227 16]

/-- Parameters 0x03xx. -/
def params03 : List PDesc :=
  [pRw 0x0300 8 0 2 0 0 1,
   pRo 0x0301 8,
   pRw 0x0302 16 2 400 0 4 1,
   pRw 0x0303 32 100 1000000000 0 1000 1,
   pRw 0x0304 32 1 86400 0 300 1,
   pRo 0x0305 32,
   pRo 0x0306 32,
   pRw 0x0310 8 0 1 0 0 1,
   pRw 0x0311 32 (-400000) 400000 0 0 1,
   pRw 0x0312 8 0 3 0 0 1,
   pRw 0x0313 32 1 500000 0 100000 1,
   pRw 0x0314 32 (-400000) 400000 0 0 1,
   pRo 0x0320 32,
   pRo 0x0321 8,
   pRo 0x0322 32,
   pRo 0x0323 32,
   pRo 0x0330 8,
   pRo 0x0331 8,
   pRo 0x0332 8,
   pRo 0x0333 8,
   pRo 0x0334 8,
   pRo 0x0335 8,
   pRo 0x0336 8,
   pRo 0x0337 8]

/-- Parameters 0x04xx. -/
def params04 : List PDesc :=
  [pRw 0x0400 32 0 0xFFFFFFFF 0 0 1,
   pRw 0x0401 32 0 0xFFFFFFFF 0 0 1,
   pRw 0x0402 32 0 0xFFFFFFFF 0 0 1,
   pRw 0x0403 32 0 0xFFFFFFFF 0 0 1,
   pRw 0x0404 32 0 0xFFFFFFFF 0 0 1,
   pRw 0x0405 32 0 0xFFFFFFFF 0 0 1,
   pRw 0x0406 32 0 0xFFFFFFFF 0 0 1,
   pRw 0x0407 32 0 0xFFFFFFFF 0 0 1,
   pRw 0x0410 16 10 10000 0 100 1,
   pRo 0x0411 32,
   pRo 0x0412 32,
   pRo 0x0413 32,
   pRo 0x0414 32,
   pRo 0x0415 32,
   pRo 0x0416 32,
   pRo 0x0417 32,
   pRo 0x0418 32]

/-- Parameters 0x05xx. -/
def params05 : List PDesc :=
  [pRw 0x0500 32 100 60000 0 2000 0,
   pRo 0x0501 8,
   pRo 0x0502 8,
   pRo 0x0503 32,
   pRo 0x0504 32,
   pRo 0x0505 32,
   pRo 0x0506 32,
   pRo 0x0507 32]

/-- Parameters 0x06xx. -/
def params06 : List PDesc :=
  [pRo 0x0600 8,
   pRw 0x0601 16 1 3600 0 10 1,
   pRo 0x0602 16,
   pRo 0x0603 16,
   pRo 0x0604 16,
   pRo 0x0605 16,
   pRo 0x0606 16,
   pRo 0x0607 16,
   pRo 0x0608 32,
   pRo 0x0609 16]

/-- Parameters 0x07xx. -/
def params07 : List PDesc :=
  [pRo 0x0700 8,
   pRo 0x0701 8,
   pRw 0x0702 16 0 2000 0 120 0,
   pRw 0x0703 16 100 1000 0 400 0,
   pRw 0x0704 8 1 16 0 4 0,
   pRw 0x0705 32 1 1000000 0 1000 0,
   pRw 0x0706 32 1 1000000 0 100 0,
   pRw 0x0707 8 4 32 0 12 0,
   pRo 0x0708 64,
   pRo 0x0709 64,
   pRo 0x070A 64,
   pRo 0x070B 16,
   pRo 0x070C 32,
   pRo 0x070D 32,
   pRo 0x070E 8,
   pRw 0x0710 32 0 0x1FFFFFFF 0 0x00208001 2,
   pRw 0x0711 32 0 0x1FFFFFFF 0 0x00410002 2,
   pRw 0x0712 32 0 0x1FFFFFFF 0 0x00820004 2,
   pRw 0x0713 32 0 0x1FFFFFFF 0 0x01040008 2,
   pRw 0x0714 32 0 0x1FFFFFFF 0 0x02080010 2,
   pRw 0x0715 32 0 0x1FFFFFFF 0 0x04100020 2,
   pRw 0x0716 32 0 0x1FFFFFFF 0 0x00800400 2,
   pRw 0x0717 32 0 0x1FFFFFFF 0 0x01000800 2,
   pRw 0x0718 32 0 0x1FFFFFFF 0 0x02001000 2]

/-- Parameters 0x07xx. -/
def params07a : List PDesc :=
  [pRw 0x0719 32 0 0x1FFFFFFF 0 0x04002000 2,
   pRw 0x071A 32 0 0x1FFFFFFF 0 0x08004000 2,
   pRw 0x0720 16 0 0xFFFF 0 0x1000 0,
   pRw 0x0721 64 0 0x3FFFFFFFFFFFFF 0 0 2,
   pRw 0x0722 16 0 0x3F3F 0 0 2,
   pRo 0x0723 32]

/-- Parameters 0x08xx. -/
def params08 : List PDesc :=
  [pRo 0x0800 32,
   pRo 0x0801 32,
   pRo 0x0802 16,
   pRo 0x0803 16,
   pRw 0x0804 32 0 327680 0 16384 0,
   pRo 0x0805 32,
   pRo 0x0806 32]

/-- Parameters 0x09xx. -/
def params09 : List PDesc :=
  [pRw 0x0900 8 0 8 0 2 0,
   pRw 0x0901 16 1 3600 0 60 0,
   pRo 0x0902 8,
   pRo 0x0903 8,
   pRo 0x0904 64,
   pRo 0x0905 64,
   pRo 0x0906 32,
   pRo 0x0940 8,
   pRo 0x0941 80,
   pRo 0x0942 32,
   pRo 0x0943 32,
   pRo 0x0944 32,
   pRo 0x0945 32,
   pRo 0x0946 32,
   pRo 0x0947 32,
   pRo 0x0950 8,
   pRo 0x0951 80,
   pRo 0x0952 32,
   pRo 0x0953 32,
   pRo 0x0954 32,
   pRo 0x0955 32,
   pRo 0x0956 32,
   pRo 0x0957 32]

/-- Parameters 0x0Axx. -/
def params0A : List PDesc :=
  [pRw 0x0A00 24 0 0xFFFFFF 1 0 0,
   pRw 0x0A01 16 61440 65535 1 65280 0,
   pRw 0x0A02 8 0 2 1 0 0,
   pRw 0x0A03 8 1 48 1 48 0,
   pRw 0x0A04 16 64 4096 1 256 0,
   pRo 0x0A05 8,
   pRo 0x0A06 8,
   pRo 0x0A07 16,
   pRo 0x0A08 64,
   pRo 0x0A09 64,
   pRo 0x0A0A 64,
   pRo 0x0A0B 32,
   pRo 0x0A0C 32]

/-- Parameters 0x0Bxx. -/
def params0B : List PDesc :=
  [pRo 0x0B00 8,
   pRo 0x0B01 8,
   pRo 0x0B02 16,
   pRo 0x0B03 32]

/-- Parameters 0x0Cxx. -/
def params0C : List PDesc :=
  [pRw 0x0C00 8 1 16 0 4 0,
   pRo 0x0C01 16,
   pRo 0x0C02 16,
   pRo 0x0C03 32,
   pRo 0x0C04 32]

/-- Parameters 0x0Dxx. -/
def params0D : List PDesc :=
  [pRw 0x0D00 24 0 0xFFFFFF 1 0 0,
   pRw 0x0D01 32 (-40000) 40000 3 0 0,
   pRo 0x0D10 32,
   pRo 0x0D11 32,
   pRo 0x0D12 32,
   pRo 0x0D13 32,
   pRo 0x0D14 32,
   pRw 0x0D20 8 40 60 0 40 0,
   pRw 0x0D21 16 0 600 0 10 0,
   pRw 0x0D22 16 0 50000 0 2000 0,
   pRw 0x0D23 16 0 6000 0 4000 0,
   pRo 0x0D30 8,
   pRo 0x0D31 16,
   pRo 0x0D32 32,
   pRw 0x0D80 24 0 0xFFFFFF 1 0 0,
   pRw 0x0D81 32 (-40000) 40000 3 0 0,
   pRo 0x0D90 32,
   pRo 0x0D91 32,
   pRo 0x0D92 32,
   pRo 0x0D93 32,
   pRo 0x0D94 32]

/-- Parameters 0x0Exx. -/
def params0E : List PDesc :=
  [pRo 0x0E00 8,
   pRo 0x0E01 32,
   pRo 0x0E02 8,
   pRo 0x0E03 8,
   pRo 0x0E04 32,
   pRo 0x0E05 32,
   pRo 0x0E06 32,
   pRw 0x0E10 16 2 200 0 20 0,
   pRw 0x0E11 8 0 3 0 2 0,
   pRw 0x0E12 8 1 10 0 3 0,
   pRw 0x0E13 8 0 1 3 1 0,
   pRo 0x0E80 8,
   pRo 0x0E81 32,
   pRo 0x0E82 8,
   pRo 0x0E83 8,
   pRo 0x0E84 32,
   pRo 0x0E85 32,
   pRo 0x0E86 32]

/-- Parameters 0x0Fxx. -/
def params0F : List PDesc :=
  [pRw 0x0F00 16 50 1000 2 200 0,
   pRw 0x0F01 16 4 256 2 16 0,
   pRw 0x0F02 8 1 64 0 4 0,
   pRw 0x0F03 16 5 1000 0 20 0,
   pRo 0x0F10 16,
   pRo 0x0F11 16,
   pRo 0x0F12 8,
   pRo 0x0F13 16,
   pRo 0x0F14 16,
   pRo 0x0F15 16,
   pRo 0x0F16 32,
   pRo 0x0F17 32]

/-- Parameters 0x10xx. -/
def params10 : List PDesc :=
  [pRw 0x1000 48 0 0xFFFFFFFFFFFF 0 0 2,
   pRw 0x1001 32 0 0xFFFFFFFF 0 0 2,
   pRw 0x1002 32 10 1000000 0 300 2,
   pRw 0x1003 16 64 16384 0 2048 2,
   pRo 0x1010 8,
   pRo 0x1011 8,
   pRo 0x1012 8,
   pRo 0x1013 8,
   pRo 0x1014 8,
   pRo 0x1015 8,
   pRo 0x1016 8,
   pRo 0x1017 8,
   pRo 0x1018 8,
   pRo 0x1020 16,
   pRo 0x1021 16]

/-- Parameters 0x11xx. -/
def params11 : List PDesc :=
  [pRw 0x1100 48 0 0xFFFFFFFFFFFF 0 0x025A4C962401 2,
   pRw 0x1101 32 1 0xFFFFFFFF 0 0xA9FE6018 2,
   pRw 0x1102 16 1024 65535 0 23116 2,
   pRw 0x1103 8 0x08 0x77 0 0x4C 2,
   pRw 0x1104 8 0 1 0 0 2,
   pRw 0x1105 8 0 2 0 0 2,
   pRw 0x1106 32 0 0xFFFFFFFF 0 0 2,
   pRw 0x1107 16 1024 65535 0 23116 2,
   pRw 0x1108 8 0 254 0 0 2,
   pRo 0x1109 8,
   pRo 0x110A 8]

/-- Parameters 0x12xx. -/
def params12 : List PDesc :=
  [pRw 0x1200 8 0 7 0 7 0,
   pRw 0x1201 32 60 86400 0 3600 0,
   pRw 0x1202 16 20 300 0 100 0,
   pRw 0x1203 16 1 3600 0 60 0,
   pRw 0x1204 16 1 720 0 24 0,
   pRo 0x1205 8,
   pRo 0x1206 32]

/-- Parameters 0x13xx. -/
def params13 : List PDesc :=
  [pRw 0x1300 8 10 45 0 45 0,
   pRw 0x1301 32 0 0x7E 0 0 0,
   pRw 0x1302 32 0 604800 0 0 0,
   pRo 0x1303 8,
   pRo 0x1304 16,
   pRo 0x1305 32,
   pRo 0x1306 32]

/-- Parameters 0x14xx. -/
def params14 : List PDesc :=
  [pRo 0x1400 8,
   pRo 0x1401 8,
   pRo 0x1402 32,
   pRo 0x1403 32,
   pRw 0x1404 8 1 8 0 8 2,
   pRo 0x1405 32]

/-- The catalogue, in rising order of ID. -/
def paramTable : List PDesc :=
  params00 ++ params01 ++ params02 ++ params02a ++ params03 ++ params04 ++ params05 ++ params06 ++ params07 ++ params07a ++ params08 ++ params09 ++ params0A ++ params0B ++ params0C ++ params0D ++ params0E ++ params0F ++ params10 ++ params11 ++ params12 ++ params13 ++ params14

end Sys2Proof.Machine
end

