-- ==== Sys2Proof/Machine/State.lean ====
section
/-! DEFINITION. The state of the ZL-9624: every register, queue, counter, latch and mode the spec gives the module,
as plain data, grouped by the chapter that names it. Each field's default is its reset value: the value the spec
states, or, where it states none, the value the assumption log names. `State.reset` is the module as Horizon's
power-on reset finds it (R297, R543): VAUX just applied, Dormant, nothing queued. -/

namespace Sys2Proof.Machine

/-- Faults: none. The block has no fault entry; a row whose happening cannot occur leaves the state as it is. -/
inductive Fault where
deriving DecidableEq, Repr

/-- Refusals. -/
inductive Refusal where
  /-- Raised by `exec` for a row that has no meaning yet; safe (the machine stops). -/
  | notModelled (mnemonic : String)
deriving DecidableEq, Repr

/-! ## Shared vocabulary -/

/-- The twelve modes of R1. -/
inductive Mode where
  | dormant | starlight | dawn | stillAir | flat | standard | swift | deep | cloudburst | skylight | overcast | recovery
deriving DecidableEq, Repr

/-- A range of device memory whose contents the spec calls undefined (R44, R372, R376): its first address, its length, and the
draw that tells its free bytes from those of other ranges (the model's own field, log entry 3). -/
structure Vague where
  first : Nat
  len : Nat
  draw : Nat
deriving DecidableEq, Repr

/-- Device memory (R364). -/
structure DevMem where
  /-- The bytes that are not blank, addresses rising. -/
  cells : List Host.Cell := []
  /-- The ranges that hold undefined bytes. -/
  vague : List Vague := []
  /-- Ranges called undefined so far: the next draw (the model's own field, log entry 3). -/
  draws : Nat := 0
deriving DecidableEq, Repr

/-- The two halves of the panel. -/
inductive Half where
  | a | b
deriving DecidableEq, Repr

/-- A final or interim reply (R397). `word` holds the three result words. -/
structure Reply where
  src : Src
  tag : U16
  seq : U16
  opcode : Nat
  status : Nat
  late : Bool
  time : Nat
  w0 : Nat
  w1 : Nat
  w2 : Nat
deriving DecidableEq, Repr

/-- An event record (R417), before its bytes are laid out; `time` is Meridian ns since the epoch. -/
structure Rec where
  source : Nat
  coalesced : Bool := false
  recovery : Bool := false
  isEnd : Bool := false
  logged : Bool := false
  level : Nat := 0xFF
  outcome : Nat := 0
  evseq : Nat := 0
  time : Nat := 0
  overflow : Nat := 0
  rseq : Nat := 0
  prior : Nat := 0
  esc : Nat := 0
  payload : List Byte := []
deriving DecidableEq, Repr

/-- What an event or marker says of a subframe (R211). -/
structure SubMark where
  q : Nat
  phase : Nat
  dark : Bool
  flat : Bool
  star : Bool
  k : Nat
  m : Nat
deriving DecidableEq, Repr

/-- A copy in progress (R376). -/
structure BufCopy where
  h : Hdr
  srcDev : Option (Nat × Nat)    -- buffer index and device address of the source; none for host memory
  dstDev : Option (Nat × Nat)
  srcAddr : Nat
  dstAddr : Nat
  len : Nat
deriving DecidableEq, Repr
/-- Where a side-band command came from (R451, R452): SB_T1 with an IP address, a port and a MAC
address (0 where ARP is to resolve it), or an MCTP endpoint. -/
structure SbFrom where
  t1 : Bool
  addr : Nat
  port : Nat
  mac : Nat := 0
deriving DecidableEq, Repr


/-- What the module puts out: replies, messages, records in host memory, packets, markers, pins. The model's record of
its outputs; the outside world's memory itself is not part of the block. -/
inductive Out where
  /-- A camera trigger edge at this Meridian instant, of this width in ns, active low or not (R146, R147). -/
  | camTrigger (port t width : Nat) (low : Bool)
  /-- An I2C transfer started to a camera: address, bytes written, bytes to read, speed (R143). -/
  | camI2c (port addr : Nat) (data : List Byte) (readLen speed : Nat)
  /-- The SUBFRAME_START marker of a half, at this instant in 0.25 ns (R168, R211). -/
  | markSub (b : Bool) (at4 : Int) (m : SubMark)
  /-- An EMIT_ON (or EMIT_OFF) marker of a half for a band, due at this instant in 0.25 ns (R172, R211). -/
  | markEmit (b : Bool) (on : Bool) (band : Nat) (at4 : Int)
  /-- The DARK marker of a half with its reason (R211). -/
  | markDark (b : Bool) (reason : Nat)
  /-- A row packet of a half (R210, R213): PTYPE, q, SEQ, ROW and its data bytes. -/
  | rowPacket (b : Bool) (star : Bool) (q seq row : Nat) (data : List Byte)
  /-- Training of a half: TRAIN columns of a stage at a rate code (R221). -/
  | train (b : Bool) (stage rate : Nat)
  /-- LINKCTL LANE_MAP and CINIT of a half (R210, R221). -/
  | linkInit (b : Bool) (lanes credits : Nat)
  /-- LINKCTL CREDIT: PEVT credits returned (R210, R217). -/
  | linkCredit (b : Bool) (n : Nat)
  /-- Every forward lane of a half in electrical idle. -/
  | lanesIdle (b : Bool)
  /-- A steering output is commanded to a level, in mV, times the carrier (R238). Outputs 0 to 63 are the commons, 64 to 67
  the segments of half A, 68 to 71 those of half B. -/
  | stdLevel (out : Nat) (mv : Int)
  /-- The crowbar closes or opens. -/
  | crowbar (closed : Bool)
  /-- A pulse on PPS_OUT with its leading edge at this Meridian instant and of this length, both in ns (R285). -/
  | ppsOut (t : Nat) (width : Nat)
  /-- A PTP message sent on a port: kind, its time-stamp in 0.25 ns, the clockClass and clockIdentity it carries. -/
  | ptpTx (port : Nat) (kind : Nat) (stamp : Nat) (clockClass : Nat) (gm : Nat)
  /-- The bytes a BAR2 read returned (R365). -/
  | bar2Read (off : Nat) (data : List Byte)
  /-- A reply written to completion entry `idx` of ring `r` with its PHASE bit (R397). -/
  | ringReply (r : Nat) (idx : Nat) (phase : Bool) (interim : Bool) (rep : Reply)
  /-- A reply sent on the side-band (R410). -/
  | sbReply (dest : Option SbFrom) (interim : Bool) (rep : Reply)
  /-- A reply discarded (R388, R393, R558). -/
  | lostReply (rep : Reply)
  /-- One MSI-X message. -/
  | msix (vector : Nat)
  /-- Bytes written to host memory at a bus address. -/
  | hostWrite (addr : Nat) (data : List Byte)
  /-- Bytes read from host memory at a bus address, `n` of them. -/
  | hostRead (addr n : Nat)
  /-- The value a register read returned. -/
  | regRead (off : Nat) (value : Nat)
  /-- A request to enter ASPM L1 (R387). -/
  | aspmL1
  /-- A record formed (R417). -/
  | record (r : Rec)
  /-- A record written to entry `idx` of the event queue, with its PHASE bit (R421). -/
  | evq (idx : Nat) (phase : Bool) (r : Rec)
  /-- A side-band notification (R422). -/
  | notify (dest : SbFrom) (r : Rec)
  /-- A frame sent from a bridge port: its bytes without FCS, and the Meridian time of its start in 0.01 ns (R447). -/
  | ethTx (port : Nat) (data : List Byte) (at_ : Nat)
  /-- An MCTP control response: its command code and its bytes after the code (R452). -/
  | mctpReply (cmd : Nat) (data : List Byte)
  /-- An ARP reply on SB_T1 (R451): the address asked for and who asked. -/
  | sbArp (ip mac : Nat) (dest : SbFrom)
deriving DecidableEq, Repr


/-! ## Chapter 09: Meridian -/

/-- Time state of R266. -/
inductive TimeState where
  | unset | free | locked | holdover
deriving DecidableEq, Repr

/-- A timer of R279. -/
structure Timer where
  idx : Nat
  gen : Nat
  t : Nat          -- next expiry, Meridian ns
  period : Nat     -- 0 for one-shot
  cookie : Nat
  wake : Bool
  firings : Nat
  skipped : Nat
deriving DecidableEq, Repr

/-- A slew in progress (R272). -/
structure Slew where
  h : Hdr
  left : Int       -- ns not yet removed at `since`
  since : Nat      -- reference ns
deriving DecidableEq, Repr

/-- A pending TIME_SET OP 2 (R271). -/
structure PpsSet where
  h : Hdr
  sec : Nat
  until_ : Nat
deriving DecidableEq, Repr

/-- The data set of the best clock heard on a port (IEEE 1588, R275). -/
structure Foreign where
  prio1 : Nat
  cls : Nat
  accuracy : Nat
  variance : Nat
  prio2 : Nat
  id : Nat
deriving DecidableEq, Repr

/-- Configuration and protocol state of one time-protocol port (R278, R275). -/
structure PtpPort where
  profile : Nat := 0
  flags : Nat := 0
  domain : Nat := 0
  logSync : Int := 0
  logAnnounce : Int := 0
  prio1 : Nat := 0
  prio2 : Nat := 0
  txLat : Nat := 0
  rxLat : Nat := 0
  asym : Int := 0
  portState : Nat := 0
  pathDelay : Int := 0        -- meanPathDelay, 0.25 ns
  syncDiff : Option Int := none -- t2 − t1 of the last Sync, 0.25 ns
  foreign : Option Foreign := none
  lastAnnounce : Nat := 0     -- reference ns of the last Announce
  nextSync : Nat := 0
  nextAnnounce : Nat := 0
  nextDelay : Nat := 0
deriving DecidableEq, Repr

/-- The Meridian group a master has latched (R269). -/
structure MtLatch where
  mer : Nat
  state : Nat
  k : Nat
deriving DecidableEq, Repr

/-- The time unit. `mer` is Meridian time in units of 2⁻⁴⁸ ns since the epoch (48-bit seconds, 30-bit nanoseconds and a
48-bit fraction, R264); `ref` counts nanoseconds of the 500 MHz time clock since VAUX was applied. -/
structure TimeSt where
  ref : Nat := 0
  mer : Nat := 0
  foff : Int := 0             -- frequency offset, 2⁻⁴⁸ ns per tick (R265)
  state : TimeState := .unset
  iacc : Int := 0             -- servo integral I, in units of 0.25 ns / 64
  inLock : Nat := 0           -- consecutive filtered offsets within ±TIME_LOCK
  outLock : Nat := 0          -- consecutive offsets beyond ±4 × TIME_LOCK
  stepRun : Nat := 0          -- consecutive measurements beyond TIME_STEP_NS
  offset : Int := 0           -- latest θ, 0.25 ns
  lastMeas : Option Nat := none
  rateLimited : Bool := false
  sourceLost : Bool := false
  holdSince : Nat := 0
  slew : Option Slew := none
  ppsSet : Option PpsSet := none
  timers : List Timer := []
  alarms : List Timer := []   -- WAKE timers held by the Horizon alarm (R287)
  steps : Nat := 0
  lateCount : Nat := 0
  ppsEdges : Nat := 0
  ppsGlitches : Nat := 0
  ppsLast : Option Nat := none     -- last accepted edge, reference ns
  ppsUsed : Option Nat := none     -- last used edge, reference ns
  ppsMasked : Bool := false
  ppsLostRaised : Bool := false
  ppsBounce : Option Nat := none   -- last 0x37 event, reference ns
  ppsOutNext : Option Nat := none  -- last PPS_OUT instant acted on, Meridian ns
  ports : List PtpPort := List.replicate 8 {}
  slaveLast : Nat := 0        -- last instant with a port in SLAVE state, Meridian ns
  gmId : Nat := 0             -- clockIdentity of the grandmaster followed
  latchHost : Option MtLatch := none
  latchSide : Option MtLatch := none
  carried : Option (Nat × Nat) := none  -- recorded (Meridian ns, crystal count), R286
deriving DecidableEq, Repr

/-! ## Chapter 10: modes, power, thermal -/

/-- A cause recorded in the safe hold (R432). -/
inductive SafeCause where
  | thermal | request | escalation | ninthFence
deriving DecidableEq, Repr

/-- A pending change of mode or rate (R197, R290). `c` is the boundary's Meridian ns; `k` the frame index at c. -/
structure Change where
  target : Mode
  rate : Nat
  c : Nat
  k : Option Nat
  cause : Nat
  timing : Bool              -- made by TIMING_SET, or a MODE_SET to the mode in force
  cmd : Option (Hdr × Nat)   -- the command waiting on it, with its opcode
deriving DecidableEq, Repr

/-- A MODE_SET accepted and held (R36 or the warm-up of R293). -/
structure HeldMode where
  h : Hdr
  p : ModeSetP
  judged : Bool              -- accepted, and held for the release of device memory
deriving DecidableEq, Repr

/-- A condition of R312: whether it stands, and its count of consecutive qualifying samples. -/
structure Cond where
  on : Bool := false
  count : Nat := 0
deriving DecidableEq, Repr

/-- Mode and wake state. -/
structure ModeSt where
  mode : Mode := .dormant
  rate : Nat := 0
  lastCause : Nat := 1
  safeHold : Bool := false
  causes : List SafeCause := []
  change : Option Change := none
  completing : Option (Hdr × Nat × Nat) := none  -- a MODE_SET/TIMING_SET whose change took effect, awaiting its first lit frame: (header, opcode, frames dark)
  heldSet : List HeldMode := []
  stepOwed : Option Nat := none       -- cause of a step-down that fell due in a dark interval (R322)
  vmainQual : Bool := false
  vmainRange : Option Nat := none     -- event 0x05 raised; reference ns of the last out-of-range report
  wakeHeld : Nat := 0
  waking : Option Nat := none         -- mask of the sources of a wake accepted but not yet entered Dawn
  wakeLast : Nat := 0
  shutUntil : Option Nat := none      -- reference ns until which wakes are ignored (R318)
  ledgerRebuilt : Bool := false       -- the next event 0x00 carries the ledger-rebuilt flag
  vauxOn : Bool := true
deriving DecidableEq, Repr

/-- Power manager (R304). Power samples are in mW. -/
structure PwrSt where
  e : Nat := 0               -- energy estimate, mW × 100 µs
  eLast : Nat := 0           -- E at the last thermal sample
  winSum : Nat := 0
  winCount : Nat := 0
  avg10 : Nat := 0           -- last 10 ms average, mW
  avgs : List Nat := []      -- the last 10 ms averages, newest first, at most 100
  overRun : Nat := 0
  underRun : Nat := 0
  capped : Bool := false
  overCount : Nat := 0
  vmainMv : Nat := 0
  vauxMw : Nat := 0
  lastSample : Nat := 0      -- reference ns
deriving DecidableEq, Repr

/-- Dewpoint (R305 to R318). Temperatures in 0.1 °C. -/
structure ThmSt where
  die : List Int := List.replicate 24 0
  ok : List Bool := List.replicate 24 true
  dev : List Nat := List.replicate 24 0
  hbm0 : Int := 0
  hbm1 : Int := 0
  hor : Int := 0
  lastSample : Option Nat := none  -- reference ns
  samples : Nat := 0
  warn : Cond := {}
  dieReq : Cond := {}
  hbmReq0 : Cond := {}
  hbmReq1 : Cond := {}
  dieCrit : Cond := {}
  hbmCrit0 : Cond := {}
  hbmCrit1 : Cond := {}
  sensorsLow : Bool := false   -- fewer than 12 die sensors: the die request stands permanently
  grace : Option Nat := none   -- enforcement time, Meridian ns
  ack : Option Nat := none     -- THROTTLE_ACK target, 0xFF for the step-down
  throttles : Nat := 0
  confirm : List Nat := []     -- confirmation samples due, reference ns
  warmup : Option Nat := none  -- reference ns at which warm-up began
  warmCount : Nat := 0
  warmFailed : Bool := false   -- THM_WARMUP_LIMIT passed first
  warmLoad : Bool := false     -- the idle load of the warm-up runs
  limDieWarn : Int := 950
  limDieReq : Int := 1000
  limDieCrit : Int := 1150
  limHbmReq : Int := 850
  limHbmCrit : Int := 950
  tripped : Bool := false
  tripCount : Nat := 0
  horLast : Nat := 0           -- reference ns of Horizon's last reading in Dormant
deriving DecidableEq, Repr

/-! ## Chapter 12: buffers and ledger -/

/-- A stage that may hold a heap buffer (R375), with the owner's own number. -/
inductive Stage where
  | stratusA | stratusB | cumulus | cirrus | nimbus
deriving DecidableEq, Repr

/-- A heap buffer object: units [start, start + units); `live` while its handle is live; its stage holds. -/
structure Buf where
  idx : Nat
  start : Nat
  units : Nat
  live : Bool
  gen : Nat                  -- generation its (last) handle carried
  holds : List (Stage × Nat)
deriving DecidableEq, Repr

/-- One pool of R367: its TOTAL, its twelve columns (R368) and its flags (R381). -/
structure Pool where
  id : Nat
  total : Nat
  cols : List Nat
  rebuilt : Bool := false
deriving DecidableEq, Repr

/-- Buffers and ledger. -/
structure BufSt where
  bufs : List Buf := []
  gens : List (Nat × Nat) := []   -- generation of object pool × 65536 + index where it is not 1 (R363)
  pools : List Pool :=
    [⟨0x01, 327680, [327680,0,0,0,0,0,0,0,0,0,0,0], false⟩, ⟨0x10, 3, [3,0,0,0,0,0,0,0,0,0,0,0], false⟩,
     ⟨0x11, 3, [3,0,0,0,0,0,0,0,0,0,0,0], false⟩, ⟨0x12, 3, [3,0,0,0,0,0,0,0,0,0,0,0], false⟩,
     ⟨0x13, 48, [48,0,0,0,0,0,0,0,0,0,0,0], false⟩, ⟨0x14, 64, [64,0,0,0,0,0,0,0,0,0,0,0], false⟩,
     ⟨0x15, 0, [0,0,0,0,0,0,0,0,0,0,0,0], false⟩, ⟨0x16, 0, [0,0,0,0,0,0,0,0,0,0,0,0], false⟩,
     ⟨0x17, 8, [8,0,0,0,0,0,0,0,0,0,0,0], false⟩, ⟨0x18, 8, [8,0,0,0,0,0,0,0,0,0,0,0], false⟩,
     ⟨0x20, 4096, [4096,0,0,0,0,0,0,0,0,0,0,0], false⟩, ⟨0x21, 4096, [4096,0,0,0,0,0,0,0,0,0,0,0], false⟩,
     ⟨0x28, 16384, [16384,0,0,0,0,0,0,0,0,0,0,0], false⟩, ⟨0xF0, 2, [2,0,0,0,0,0,0,0,0,0,0,0], false⟩,
     ⟨0xF1, 16, [16,0,0,0,0,0,0,0,0,0,0,0], false⟩, ⟨0xF2, 64, [64,0,0,0,0,0,0,0,0,0,0,0], false⟩]
  unguarded : Bool := false
  low : Bool := false             -- event 0x50 raised and FREE not yet above the mark
  auditSeq : Nat := 0
  audits : Nat := 0
  faults : Nat := 0
  lastAudit : Nat := 0            -- last audited second of Meridian time
  copies : List BufCopy := []
  rebuild : List Nat := []        -- pools to be rebuilt at the end of the L2 an audit started (R380)
  withdrawEvt : Nat := 0          -- reference ns of the last event 0x56
deriving DecidableEq, Repr

/-! ## Chapter 13: Imven -/

/-- State of a ring pair (R390). -/
inductive RingState where
  | off | running | draining | error
deriving DecidableEq, Repr

/-- One ring pair: its registers (R390) and what the module keeps for it. `n` is the entries per ring while not off. -/
structure Ring where
  sqBase : Nat := 0
  cqBase : Nat := 0
  vector : Nat := 0
  irq : Bool := false
  size : Nat := 0
  enable : Bool := false
  state : RingState := .off
  error : Nat := 0
  n : Nat := 16
  head : Nat := 0
  seqExp : Nat := 0
  sqTail : Nat := 0           -- SQ_TAIL doorbell index
  cqTail : Nat := 0
  cqHead : Nat := 0           -- CQ_HEAD doorbell index
  written : Nat := 0          -- entries written since the pair was enabled
  armed : Bool := false
  waitRaised : Bool := false  -- event 0x26 raised for the present wait
  sqBad : Bool := false       -- a read of the submission ring fails (an input of the outside world)
  discard : Bool := false     -- ring error 0x05: replies are discarded (R393)
  held : Bool := false        -- its entries are out of FREE in the ledger
  cqBad : Bool := false       -- writes of the completion ring fail (likewise)
deriving DecidableEq, Repr

/-- An accepted command that has not given its final reply. -/
structure Live where
  h : Hdr
  opcode : Nat
  interim : Bool              -- ACCEPTED has been given
  late : Bool
  deadline : Option Nat       -- Meridian ns at which the budget runs out
  stop : Bool                 -- the opcode's rule on expiry is "stop"
  reserve : Nat               -- completion entries still reserved
  orphan : Bool               -- the host's link went down since: its replies are discarded
  at_ : Nat                   -- Meridian ns of acceptance (of T for a held command)
deriving DecidableEq, Repr

/-- A command taken from its source, or standing in its ring, that waits (R401, R405, R493). `seqOk` is none while its
entry has not been read. -/
structure Wait where
  i : Instr
  h : Hdr
  opcode : Nat
  seqExp : Option Nat
  test : Option Nat           -- held by an in-service test since (reference ns)
deriving DecidableEq, Repr

/-- A command in the scheduler (R402). -/
structure Held where
  slot : Nat
  i : Instr
  h : Hdr
  opcode : Nat
  t : Nat
deriving DecidableEq, Repr

/-- The last command taken from a source, and its final status once it has given one (R405). -/
structure LastCmd where
  src : Src
  seq : U16
  tag : U16
  status : Option Nat
deriving DecidableEq, Repr

/-- The control lease (R406 to R409). `expiry` is in Meridian ns. -/
structure Lease where
  holder : Option Master := none
  expiry : Nat := 0
  forced : Bool := false
  last : Option Master := none    -- the last holder, whose expired lease LEASE_RENEW may renew
deriving DecidableEq, Repr

/-- The PCI Express function and the command protocol. -/
structure CmdSt where
  up : Bool := false               -- the host's link
  l1 : Bool := false               -- ASPM L1
  lastHost : Nat := 0              -- reference ns of the last transaction
  rings : List Ring := List.replicate 16 {}
  msixTable : List Nat := (List.replicate 32 [0, 0, 0, 1]).flatten
  pba : Nat := 0
  hi64 : List (Nat × Nat) := []    -- latched high words: offset (side-band offsets + 65536) and value (R6)
  ready : Bool := false            -- DEV_STATE READY
  live : List Live := []
  waits : List Wait := []
  sched : List Held := []
  last : List LastCmd := []
  lease : Lease := {}
  accepted : Nat := 0
  refused : Nat := 0
  deadlines : Nat := 0
  replyLost : Nat := 0
  lostRaised : Bool := false       -- event 0x2A raised for this link-down
  sbDropped : Nat := 0
  sbReady : List SbMsg := []       -- side-band messages taken whose command has not been run
  sbKept : List Reply := []        -- the 16 most recent final side-band replies, newest first
  sbBusy : Option Nat := none      -- reference ns of the last event 0x29
deriving DecidableEq, Repr

/-! ## Chapter 14: events and recovery -/

/-- Per-source counting of R420 in the millisecond `ms`. -/
structure SrcCount where
  source : Nat
  ms : Nat
  count : Nat
  coalesced : Bool
  since : Nat                -- firings of this millisecond not delivered on their own
  last : List Byte           -- payload of the last firing
  lastTime : Nat
deriving DecidableEq, Repr

/-- A recovery running or waiting (R426 to R431). `source` is none for a commanded recovery without records. -/
structure Recov where
  rseq : Nat
  domain : Nat
  level : Nat
  source : Option Nat
  payload : List Byte
  prior : Nat
  running : Bool
  own : Bool                 -- the own action of R427 is taken (OUTCOME 5)
  cmd : Option (Hdr × Nat)   -- RESET_LEVEL that commanded it
  mode : Mode                -- the mode in force at the fault (R291)
  rate : Nat
  leave : Bool               -- RESET_LEVEL EXIT_RECOVERY
deriving DecidableEq, Repr

/-- The latest fault of a domain (R428). -/
structure Window where
  domain : Nat
  t0 : Nat
  level : Nat
  rseq : Nat
deriving DecidableEq, Repr

/-- A capture held for a domain (R434). -/
structure Capture where
  domain : Nat
  rseq : Nat
  time : Nat
  body : List Byte
deriving DecidableEq, Repr

/-- Events, event queue, history, recoveries. -/
structure EvtSt where
  evseq : Nat := 0
  pend : Nat := 0                          -- 256 pending bits (R419)
  mask : Nat := 2 ^ 256 - 1
  vmap : List Nat := List.replicate 256 0
  counts : List SrcCount := []
  history : List Rec := []                 -- newest first, at most 1,024 (R423)
  qBase : Nat := 0
  qEnable : Bool := false
  qSize : Nat := 0
  qTail : Nat := 0
  qWritten : Nat := 0
  qHead : Nat := 0
  seqReg : Nat := 0                        -- EVT_SEQ (R421)
  dropped : Nat := 0
  coalescedRecs : Nat := 0
  sbSent : Nat := 0
  rseq : Nat := 0
  recs : List Recov := []                  -- in the order decided
  windows : List Window := []
  captures : List Capture := []            -- in private memory
  capStore : Option Capture := none        -- in Horizon: domain 0x31
  counts5 : List Nat := [0, 0, 0, 0, 0]    -- FLT_COUNT_L0 to L4
deriving DecidableEq, Repr

/-! ## Chapter 01: the panel description -/

/-- A temperature band of the STEERING section (R27): T_LOW in 0.1 °C, DAC codes, µs. -/
structure TBand where
  low : Int
  amp : Nat
  odAmp : Nat
  odTime : Nat
  settle : Nat
deriving DecidableEq, Repr

/-- A panel description (R24 to R28). `az` and `el` are empty and `corr` is empty while only the summary is held; `corr` is
empty too when the file has no CORRECTION section. -/
structure PanelDesc where
  w : Nat
  h : Nat
  lx : Nat
  ly : Nat
  p : Nat
  nh : Nat
  nb : Nat
  az : List Int
  el : List Int
  corr : List Byte           -- the DX, DY bytes of R26
  thermNom : Nat
  thermB : Nat
  ampCeil : Nat
  dcLimit : Nat
  bands : List TBand
  modelCode : Nat
  fwd : Nat
  maxRate : Nat
  crc : Nat                  -- panel description CRC (R30)
  head : List Byte           -- header and directory (R37)
  geom : List Byte
  steer : List Byte
  link : List Byte
deriving DecidableEq, Repr

/-- A PANEL_LOAD being checked (R33). -/
structure PanelLoad where
  h : Hdr
  buf : Nat
  addr : Nat
  len : Nat
  validate : Bool
deriving DecidableEq, Repr

/-- The panel description: held, in full or as the summary alone (R38). -/
structure PanelSt where
  desc : Option PanelDesc := none
  full : Bool := false
  load : Option PanelLoad := none
deriving DecidableEq, Repr

/-! ## Chapter 02: scene sessions -/

/-- An MPI slot (R42, R44): the ledger column it stands in, the disparities of its planes, each plane's occupancy bits. -/
structure MpiSlot where
  col : Nat := 0
  disp : List Int := []
  occ : List Nat := []
deriving DecidableEq, Repr

/-- A decoded stream frame held in an MPI slot (R55, R57): `t` is its PTS plus that of its lap (R64), so that T_n is
T_s + t. -/
structure SFrame where
  uid : Nat
  num : Nat
  t : Nat
  mpi : Nat
  last : Bool
  late : Bool
  lap : Nat -- what its lap adds to stream times (R64)
deriving DecidableEq, Repr

/-- A tile of the frame being decoded: plane, tile index, offset and length of its record in the stream. -/
structure TileRec where
  plane : Nat
  tile : Nat
  off : Nat
  len : Nat
deriving DecidableEq, Repr

/-- The stream frame being decoded (R57): its header fields, the tiles still to decode and those on an engine, the REPEAT
copies, a frame-scope failure. -/
structure Decode where
  uid : Nat
  num : Nat
  pts : Nat
  off : Nat
  len : Nat
  key : Bool
  last : Bool
  mpi : Nat
  planes : Nat               -- planes decoded
  disp : List Int
  tiles : List TileRec
  bad : Option Nat
  resync : Bool
deriving DecidableEq, Repr

/-- The previous frame in stream order, REPEAT reference of the next (R46, R57). -/
structure SRef where
  num : Nat
  pts : Nat
  planes : Nat               -- planes in the stream frame
  mpi : Nat
deriving DecidableEq, Repr

/-- Fields of a checked stream header (R47). -/
structure StreamHdr where
  maxPlanes : Nat
  len : Nat
  index : Nat
  endPts : Nat
deriving DecidableEq, Repr

/-- An open session (R59). -/
structure Session where
  source : Nat
  loop : Bool
  asap : Bool
  start : Option Nat         -- T_s, Meridian ns
  maxPlanes : Nat
  units : Nat                -- 16 MiB units of its ring
  port : Nat
  streamId : Nat
  buf : Nat                  -- clip buffer index (source 2)
  base : Nat                 -- device address of the clip
  clipLen : Nat              -- bytes of the clip buffer
  hdr : Option StreamHdr
  segs : List (Nat × List Byte) := []   -- stream bytes held: offset and bytes, rising, not overlapping
  feeds : Nat := 0
  expect : Nat := 0          -- next expected feed offset
  next : Nat                 -- decode point
  search : Bool := false     -- looking for a key frame from `next` on (R61, R63, R67)
  resync : Bool := false     -- after a loss, until a key frame has been decoded (R67)
  first : Bool := true       -- codes 0x16 and 0x17 do not apply to the next frame
  ref : Option SRef := none
  lap : Nat := 0
  decode : Option Decode := none
  frames : List SFrame := []
  shown : Option SFrame := none  -- the frame last shown
  shownEnd : Nat := 0        -- end of the display frame that first showed it, Meridian ns
  waiting : Option Nat := none   -- uid last assigned to a display frame
  closing : Bool := false    -- NOW
  drain : Option Hdr := none
  ended : Bool := false      -- the stream's last frame has been decoded or passed
  refused : Option Nat := none
  cutSaid : List Mode := []
  lateSaid : List Nat := []  -- stream offsets of frames counted as late
  opened : Nat := 0          -- order of opening
deriving DecidableEq, Repr

/-- Status of a session slot (R72), kept until the next SCENE_OPEN that takes the slot. -/
structure SessStat where
  start : Nat := 0
  shown : Nat := 0
  late : Nat := 0
  drop : Nat := 0
  lost : Nat := 0
  tileErr : Nat := 0
deriving DecidableEq, Repr

/-- Scenes and MPI slots. -/
structure SceneSt where
  mpi : List MpiSlot := [{}, {}, {}]
  sess : List (Option Session) := [none, none]
  stat : List SessStat := [{}, {}]
  opens : Nat := 0           -- sessions opened
  uid : Nat := 0
  dropped : Nat := 0         -- backbone data dropped beyond the ring (R63)
deriving DecidableEq, Repr

/-! ## Chapter 03: Cirrus -/

/-- A segment of a codec job (R85, R92): a device buffer's index or none for host memory, its address and length. -/
structure CSeg where
  dev : Option Nat
  addr : Nat
  len : Nat
deriving DecidableEq, Repr

/-- A codec job (R85 to R96). `inp` holds the input bytes of the open block below IN_DONE (its saved state), `units` the units
of it placed by a compressing job (R89), `blkOut` the bytes of it written by a decompressing one (R91). -/
structure CodecJob where
  idx : Nat
  h : Hdr                    -- the CODEC_JOB or CODEC_RESUME in progress, or the last one
  opcode : Nat
  running : Bool
  code : Nat                 -- code of the last stop
  stoppedAt : Nat            -- reference ns
  waitSince : Nat            -- reference ns since which it has waited for an engine
  starved : Bool
  decomp : Bool
  level : Nat
  tables : Nat
  blockSize : Nat
  more : Bool
  ins : List CSeg            -- input still to read, the first partly read
  inUsed : Nat               -- bytes of the first input segment read
  out : CSeg
  outUsed : Nat
  inDone : Nat
  outDone : Nat
  inTotal : Nat
  outTotal : Nat
  block : Nat
  inp : List Byte
  units : Nat
  blkOut : Nat
deriving DecidableEq, Repr

/-- What an engine works on (R83): a tile of a session's frame, or a codec job's block. -/
inductive EngWork where
  | tile (slot : Nat) (t : TileRec)
  | job (idx : Nat)
deriving DecidableEq, Repr

/-- Cirrus. -/
structure CdcSt where
  jobs : List CodecJob := []
  eng : List (Option EngWork) := List.replicate 16 none
  off : List Nat := []             -- engines out of service
  recent : List (Nat × Nat) := []  -- engines that have failed, with Meridian ns
  inBytes : Nat := 0
  outBytes : Nat := 0
  errors : Nat := 0
deriving DecidableEq, Repr

/-! ## Chapter 04: Cumulus -/

/-- A view shift (R127); `t0` is Meridian ns. -/
structure Shift where
  ox : Int := 0
  oy : Int := 0
  rx : Int := 0
  ry : Int := 0
  px : Int := 0
  py : Int := 0
  t0 : Nat := 0
deriving DecidableEq, Repr

/-- An MPI as Cumulus reads it: a host MPI (R117) or an MPI slot (R42, R44). `occ` holds each plane's occupancy bits; with
`full` every tile is occupied. -/
structure Mpi where
  base : Nat                 -- device address of plane 0
  stride : Nat
  mx : Nat
  my : Nat
  disp : List Int
  occ : List Nat
  full : Bool
deriving DecidableEq, Repr

/-- A frame job (R119). -/
structure FrameJob where
  h : Hdr
  k : Nat
  buf : Nat
  mpi : Mpi
  fence : Nat
  value : Nat
  point : Nat
  keep : Bool
deriving DecidableEq, Repr

/-- A source of Cumulus (R102): a decoded stream frame (session slot and MPI slot), a frame job, a sweep's MPI slot. -/
inductive FSrc where
  | session (slot mpi uid : Nat)
  | job (j : FrameJob)
  | sweep (mpi : Nat)
deriving DecidableEq, Repr

/-- The values a frame is rendered with (R103, R104, R128). -/
structure SynVals where
  bg : Nat
  et : Nat
  edge : Nat
  vscale : Nat
  sx : Int
  sy : Int
  px : Int
  py : Int
  phases : List Nat
  planes : Nat               -- the plane limit
  panel : PanelDesc
deriving DecidableEq, Repr

/-- The synthesis in progress (R99). -/
structure Synth where
  k : Nat
  src : FSrc
  mpi : Mpi
  vals : SynVals
deriving DecidableEq, Repr

/-- The last committed frame (R102, R103). -/
structure SynLast where
  k : Nat
  src : FSrc
  vals : SynVals
deriving DecidableEq, Repr

/-- A frame's status (R123). -/
structure FrameStat where
  k : Nat
  state : Nat
  src : Nat
  planes : Nat
  slack : Nat
  tag : Nat
deriving DecidableEq, Repr

/-- A fence of a frame job that waits for SHOWN (1) or RETIRED (2). -/
structure JobFence where
  k : Nat
  point : Nat
  fence : Nat
  value : Nat
deriving DecidableEq, Repr

/-- Cumulus. -/
structure SynSt where
  cur : Option Synth := none
  freeAt : Option Nat := none     -- Meridian ns at which the last synthesis ended
  nextK : Option Nat := none      -- the lowest k whose synthesis has not started
  jobs : List FrameJob := []
  last : Option SynLast := none
  kept : List (FrameJob × Bool) := []     -- KEEP jobs whose MPIs are held, newest first, and whether a frame of each has committed
  fences : List JobFence := []
  shift : Shift := {}
  shiftNext : List (Nat × Shift) := []    -- new shifts with the frames from which they apply, frames rising
  off : List Nat := []            -- lane groups out of service
  recent : List (Nat × Nat) := [] -- groups that have failed, with Meridian ns
  cut : Option Nat := none        -- lowered plane limit (R116)
  stats : List FrameStat := []    -- newest first, at most 64
  committedK : Nat := 0
  shownK : Nat := 0
  retiredK : Nat := 0
  misses : Nat := 0
  restarts : Nat := 0
deriving DecidableEq, Repr

/-! ## Chapter 05: cameras and the sweep -/

/-- A rectification map (R150): knots as (BX, BY, EX, EY), none where invalid. -/
structure CamMap where
  kx : Nat
  ky : Nat
  w : Nat
  h : Nat
  gain : List Nat
  knots : List (Option (Int × Int × Int × Int))
deriving DecidableEq, Repr

/-- A port's configuration (R140 OP 0). -/
structure CamCfg where
  gearMax : Nat
  dtype : Nat
  w : Nat
  h : Nat
  sweep : Bool
  free : Bool
deriving DecidableEq, Repr

/-- An image accepted for a window (R148): the display frame it serves, the camera buffer (0 to 2) and its bytes' rows. -/
structure CamImage where
  k : Nat
  buf : Nat
  cfg : CamCfg                   -- the configuration it was received under
deriving DecidableEq, Repr

/-- An I2C transfer waiting or under way (R143). -/
structure CamI2c where
  h : Hdr
  addr : Nat
  data : List Byte
  speed : Nat
  readLen : Nat
deriving DecidableEq, Repr

/-- A camera port. -/
structure CamPort where
  cfg : Option CamCfg := none
  cfgFrom : Nat := 0             -- first window of `cfg`; `cfgPrev` governs the ones before (R141)
  cfgPrev : Option CamCfg := none
  gear : Option Nat := none      -- trained gear; none while the link is down
  camera : Bool := false         -- a camera is present, as the presence input was last accepted
  presEdge : Option Nat := none  -- reference ns of the last accepted edge
  presAt : Nat := 0              -- reference ns since which the input has been asserted
  presMasked : Bool := false     -- the input has been asserted past its stuck timeout (R539)
  bounces : Nat := 0
  said : Option Nat := none      -- reference ns of the last event 0x0D
  latency : Nat := 0             -- uplink latency measured at the last training, ns (R147, R477)
  lost : Bool := false           -- the link has been lost and has not come up since (R139)
  masked : Bool := false
  rearm : Bool := false          -- waiting for re-arming (R139)
  format : Bool := false         -- left out of the sweep: trained gear too low (R141)
  drops : List Nat := []         -- reference ns of link drops, newest first
  dropCount : Nat := 0
  map : Option CamMap := none
  images : List CamImage := []
  judged : List Nat := []        -- windows whose first image has been judged late, extra or bad
  skipped : Nat := 0             -- packets and packet headers counted under R136
  accepted : Nat := 0
  slack : Int := 0
  i2c : List CamI2c := []
  freeing : Bool := false        -- OP 1: its buffers return once no sweep reads them
deriving DecidableEq, Repr

/-- The disparities of SWEEP_CFG at reset (R157). -/
def sweepDisp0 : List Int := (List.range 24).map (fun i => 96 * Int.ofNat i - 768)

/-- SWEEP_CFG settings (R157). -/
structure SweepCfg where
  planes : Nat := 24
  fill : Bool := true
  minViews : Nat := 3
  lo : Nat := 24
  hi : Nat := 96
  disp : List Int := sweepDisp0
deriving DecidableEq, Repr

/-- A sweep in progress (R153). -/
structure Sweep where
  k : Nat
  mpi : Nat
  ports : List (Nat × Nat)       -- port and camera buffer
  cams : List (CamCfg × CamMap)  -- the configuration and the map of each of them
  planes : Nat
  cfg : SweepCfg
deriving DecidableEq, Repr

/-- Trigger settings (R146). -/
structure TrigCfg where
  offset : Nat := 200
  width : Nat := 10
  low : Bool := false
  skew : List Int := List.replicate 16 0
deriving DecidableEq, Repr

/-- Cameras and the sweep engine. -/
structure CamSt where
  ports : List CamPort := List.replicate 16 {}
  trig : TrigCfg := {}
  trigNext : Option (Nat × TrigCfg) := none  -- first window with the new settings
  trigDone : List Nat := List.replicate 16 0 -- per port, k of the last trigger sent
  winEnd : Nat := 0                          -- k of the last window that ended
  sweepCfg : SweepCfg := {}
  sweep : Option Sweep := none
  done : List (Nat × Nat) := []              -- finished sweeps: k and MPI slot
  lastK : Option Nat := none                 -- k of the last sweep that started, ended or was abandoned
  present : Nat := 0                         -- port mask of the last sweep
  lastNc : Option Nat := none
  noneSaid : Bool := false
  off : List Nat := []
  recent : List (Nat × Nat) := []
  cut : Option Nat := none
  misses : Nat := 0
  late : Nat := 0
  errors : Nat := 0
  fromK : Nat := 0                           -- first frame whose window is used since Skylight began
deriving DecidableEq, Repr

/-! ## Chapter 06: Stratus -/

/-- A segment of the frame grid (R167): whole second T_a in ns, rate F, phase slots NQ, first boundary c of frame k_c, and
j. -/
structure Seg where
  ta : Nat
  f : Nat
  nq : Nat
  c : Nat
  kc : Nat
  j : Nat
deriving DecidableEq, Repr

/-- Subframe q of frame k of a segment. -/
structure Sub where
  seg : Seg
  k : Nat
  q : Nat
deriving DecidableEq, Repr

/-- The source of a layer (R180). -/
inductive LayerSrc where
  | dev (buf off : Nat)
  | host (addr : Nat)
deriving DecidableEq, Repr

/-- A layer: the flat base (0) or an overlay. -/
structure Layer where
  src : Option LayerSrc := none
  x0 : Nat := 0
  y0 : Nat := 0
  w : Nat := 0
  h : Nat := 0
  stride : Nat := 0
  on : Bool := false
deriving DecidableEq, Repr

/-- What a waiting change of R182 does. -/
inductive LayerOp where
  | set (n : Nat) (l : Layer)
  | enable (mask : Nat)
  | starlight
deriving DecidableEq, Repr

/-- A change accepted and not yet applied: from frame `k`, or at Meridian ns `at_` while no grid runs (R182). -/
structure LayerWait where
  op : LayerOp
  k : Option Nat
  at_ : Nat
  fence : Nat
  value : Nat
deriving DecidableEq, Repr

/-- A fence to be written once every frame before `k` has been read for the last time in both halves (R182, R183), with
the sources then let go. -/
structure FenceWait where
  k : Nat
  fence : Nat
  value : Nat
  gone : List Nat            -- buffers of the replaced sources, held until then
deriving DecidableEq, Repr

/-- A page of the Starlight store (R191, R192). -/
structure StarPage where
  x0 : Nat
  y0 : Nat
  w : Nat
  h : Nat
  scale : Nat
  pixels : List Byte
  palette : List Byte
deriving DecidableEq, Repr

/-- What a half shows: the source, coded as in R201, and the frame of the store, by its index. -/
structure Show where
  source : Nat := 0
  frame : Option Nat := none
deriving DecidableEq, Repr

/-- A scan-out head. -/
structure Head where
  lit : Bool := false
  recovering : Bool := false    -- L1 of the head (R200)
  now : Show := {}              -- shown in the frame in progress; outside the light-field modes its frame is kept (R189)
  before : Show := {}           -- shown in the frame before, until the last band of that frame has been sent
  shownK : Nat := 0
  baseOff : Bool := false       -- an underrun: background for the rest of the frame (R187)
  ovlOff : List Nat := []       -- overlays off for the rest of the frame
  bad : List Nat := []          -- frames whose check failed in this half (R176)
  cut : Bool := false           -- the read of the phase block in progress was interrupted (R175)
  underBase : Nat := 0
  underOvl : Nat := 0
  crcFail : Nat := 0
  repeats : Nat := 0
  bgFrames : Nat := 0
deriving DecidableEq, Repr

/-- A frame in the frame store: committed, or being synthesised; its slots, the CRCs recorded at commit per half and phase
slot, and the heads that hold it (R100, R174). -/
structure Frame where
  k : Nat
  phases : List Nat
  slotA : Nat
  slotB : Nat
  committed : Bool
  crcA : List Nat
  crcB : List Nat
  src : FSrc
  holdA : Bool
  holdB : Bool
deriving DecidableEq, Repr

/-- A dark interval (R198): c, c′, its reason, the frames that have been dark, and the new period's deadline. -/
structure Dark where
  c : Nat
  cp : Nat
  reason : Nat
  frames : Nat
  deadline : Nat
  forced : Bool              -- step 6 has been reached: a half that has trained lights alone
deriving DecidableEq, Repr

/-- Emission window of a band (R172): the subframe, its start instant, and whether EMIT_ON has been sent. -/
structure Win where
  sub : Sub
  band : Nat
  on : Nat
  sent : Bool
deriving DecidableEq, Repr

/-- Stratus. -/
structure ScnSt where
  seg : Option Seg := none
  began : Bool := false         -- a frame of `seg` has started
  cur : Option Sub := none
  prev : Option Sub := none     -- the subframe before `cur`
  band : Nat := 0               -- the next band instant of `cur`
  row : Nat := 0                -- the next row of the frame in Flat or Starlight
  lastK : Option Nat := none    -- the last frame that started before the grid stopped
  headA : Head := {}
  headB : Head := {}
  frames : List Frame := []
  layers : List Layer := List.replicate 5 {}
  layersOld : List Layer := List.replicate 5 {}  -- as of the frame before, for the last band of it
  waits : List LayerWait := []
  fences : List FenceWait := []
  star : Option StarPage := none
  starNext : Option StarPage := none
  dark : Option Dark := none
  wins : List Win := []
  darkFrames : Nat := 0         -- SCN_DARK_FRAMES
  stillSince : Option Nat := none   -- reference ns from which Still-air has been lit and may be lowered
deriving DecidableEq, Repr

/-! ## Chapter 07: the panel link -/

/-- A row to be sent in a write slot (R213). -/
structure RowJob where
  star : Bool
  q : Nat
  row : Nat
  data : List Byte
  resent : Nat
  slotEnd : Nat              -- end of its write slot, Meridian ns
deriving DecidableEq, Repr

/-- A packet sent and not yet acknowledged; `eop` is the Meridian instant of its EOP in ps. -/
structure Packet where
  seq : Nat
  job : RowJob
  eop : Nat
  timedOut : Bool
deriving DecidableEq, Repr

/-- A HELLO (R216). -/
structure Hello where
  model : Nat
  lanes : Nat
  rate : Nat
  credits : Nat
deriving DecidableEq, Repr

/-- Training of a half (R221, R223): the rate code, the attempt's first TRAIN column (reference ns) once it has begun, the
lanes locked and deskewed, failed attempts of the series, whether the second series runs, the retry instant. -/
structure Train where
  rate : Nat
  began : Option Nat
  locked : Option Nat
  skewed : Option Nat
  cinit : Option Nat
  failed : Nat
  second : Bool
  retry : Option Nat
  said3 : Bool := false      -- TSTAT stage 3 has arrived
deriving DecidableEq, Repr

/-- One half's link. -/
structure Plk where
  level : Bool := false            -- presence input asserted, as accepted
  lastEdge : Option Nat := none    -- reference ns of the last accepted edge
  assertedAt : Nat := 0            -- reference ns since which the input has been asserted
  masked : Bool := false
  bounces : Nat := 0
  lock0 : Bool := false
  lock1 : Bool := false
  lockLost : Option Nat := none    -- reference ns at which the last back lane lost lock
  present : Bool := false
  hello : Option Hello := none
  train : Option Train := none
  failed : Bool := false
  up : Bool := false
  lanes : Nat := 0                 -- lanes in use
  rate : Nat := 0
  seq : Nat := 0
  sent : List Packet := []         -- outstanding packets, oldest first
  rows : List RowJob := []         -- rows of the write slot not yet sent
  freeAt : Nat := 0                -- Meridian ps from which the next packet may start
  stalled : Bool := false          -- event 0xBE raised in this frame
  lostFrame : Nat := 0             -- rows lost in this frame
  retries : Nat := 0
  rowsLost : Nat := 0
  flags : Nat := 0                 -- STATUS flags last reported
deriving DecidableEq, Repr

/-- A PANEL_LINK_TRAIN OP 0 in progress (R225): halves named, and halves that have failed. -/
structure LinkCmd where
  h : Hdr
  left : Nat
  named : Nat
  failed : Nat
  rate : Nat
deriving DecidableEq, Repr

/-- The panel link. -/
structure PlkSt where
  a : Plk := {}
  b : Plk := {}
  mismatch : Bool := false         -- the model code reported disagrees (R39)
  cmd : Option LinkCmd := none
deriving DecidableEq, Repr

/-! ## Chapter 08: the steering drive -/

/-- What drives one output: until `odEnd` (Meridian ns) the level `od`, then the level `hold`, both in mV without the
carrier (R238). -/
structure OutDrive where
  od : Int := 0
  odEnd : Nat := 0
  hold : Int := 0
deriving DecidableEq, Repr

/-- Edge bookkeeping of an output (R253, R255): the last edge's charge and instant, whether the band has settled in its
subframe or been counted as a miss, and the greatest charges of its first pair and of the pair in progress. -/
structure EdgeSt where
  last : Option (Nat × Nat) := none
  settled : Bool := false
  since : Nat := 0               -- J(m, b) + T_od
  deadline : Nat := 0            -- J(m, b) + Z + T_c / 2
  m : Nat := 0
  first : Option Nat := none
  peak : Nat := 0
  low : Nat := 0                 -- pairs in a row below 1/16 of `first`
  trim : Bool := false
deriving DecidableEq, Repr

/-- Settings of STEER_CFG that wait for the next pair boundary (R260). -/
structure SteerWait where
  lock : Option Nat
  trim : Int
deriving DecidableEq, Repr

/-- The steering drive. -/
structure StdSt where
  powered : Bool := false
  recovering : Bool := false       -- in recovery at L1 (R244)
  rest : Bool := false             -- new pairs wait for STD_REST after a recovery at L1 (R244)
  discharge : Option Nat := none   -- start of a discharge under way (reference ns)
  closedAt : Option Nat := some 0  -- reference ns since which the crowbar has been closed; none while open
  firstK : Nat := 0                -- k of powered frame 0
  pairs : Nat := 0                 -- pairs begun since power-up of the layer
  pairsTotal : Nat := 0            -- STD_PAIRS
  level : List OutDrive := List.replicate 72 {}
  acc : List Int := List.replicate 72 0     -- DC accumulators, mV × ns
  accAt : Nat := 0                 -- Meridian ns up to which they have been integrated
  edges : List EdgeSt := List.replicate 72 {}
  edge : Nat := 0                  -- the next carrier edge of the subframe: S_m + edge × T_c / 2
  subAt : Nat := 0                 -- S_m of the subframe whose carrier runs
  sign : Bool := false             -- Π(j) is −1
  band : Option Nat := none        -- band in force
  qual : Option Nat := none        -- qualified, not yet applied
  target : Nat := 0
  count : Nat := 0                 -- consecutive qualifying samples
  steps : Nat := 0                 -- settle steps in force
  stepNext : Bool := false         -- a settle step waits for the next pair boundary
  missPair : Nat := 0
  misses : Nat := 0
  lock : Option Nat := none
  trim : Int := 0
  wait : Option SteerWait := none
  offset : Int := 0
  code : Nat := 0
  temp : Int := 0
  fault : Bool := false
  lastSample : Nat := 0            -- reference ns
  dcMax : Nat := 0                 -- greatest magnitude at the last comparison, mV·ms
  charged : Bool := false          -- the hold-up store (R536)
  lowSaid : Bool := false          -- event 0xCB raised at this start-up
  owed : Bool := false             -- event 0xC5 owed at the next start-up (R257)
  limitSaid : Bool := false        -- event 0xC3 raised for the present decision
  deadA : Bool := false            -- segment outputs of half A crowbarred since its absence (R240)
  deadB : Bool := false
deriving DecidableEq, Repr

/-! ## Chapter 11: memory controller -/

/-- One 16-byte record of a delay set (R343). -/
structure DlyRec where
  rd : List Nat := [0, 0, 0, 0]
  wr : List Nat := [0, 0, 0, 0]
  ca : Nat := 0
  rdVref : Nat := 0
  wrVref : Nat := 0
  valid : Bool := false
  degraded : Bool := false
  fenced : Bool := false
  margin : Nat := 0
  order : Nat := 0
deriving DecidableEq, Repr

/-- A sweep of one PC at the point in force (R350): an error retraining (R352), or a calibration of Halo. -/
structure DmcSweep where
  pc : Nat
  retrain : Bool
  windows : Nat             -- window steps done
deriving DecidableEq, Repr

/-- Per-PC bookkeeping of the controller. -/
structure PcSt where
  refBank : Nat := 0        -- next bank to refresh (R340)
  refDone : Bool := false   -- a refresh has just completed
  winSince : Bool := false  -- a calibration window has opened since the last refresh
  winOpen : Bool := false
  lastWasSweep : Bool := false
  ce : List Nat := []       -- reference ns of corrected errors within the last second
deriving DecidableEq, Repr

/-- An open row of a bank (R339). -/
structure OpenRow where
  pc : Nat
  bank : Nat
  row : Nat
  last : Nat
deriving DecidableEq, Repr

/-- A fence being carried out (R355): `copying` is step 3. -/
structure Fence where
  pc : Nat
  copying : Bool
deriving DecidableEq, Repr

/-- The memory controller. -/
structure DmcSt where
  state : Nat := 0           -- DMC_STATE
  point : Nat := 0           -- DMC_POINT
  dly16 : List DlyRec := List.replicate 64 {}
  dly32 : List DlyRec := List.replicate 64 {}
  dly48 : List DlyRec := List.replicate 64 {}
  dly64 : List DlyRec := List.replicate 64 {}
  fenced : List Nat := []    -- complete fences, in fence order
  fences : List Fence := []  -- fences decided and not complete, in order
  pcs : List PcSt := List.replicate 64 {}
  rows : List OpenRow := []
  sweeps : List DmcSweep := []
  ceCount : Nat := 0
  ueCount : Nat := 0
  hot0 : Bool := false
  hot1 : Bool := false
  cool0 : Nat := 0
  cool1 : Nat := 0
  change : Option (Nat × Nat) := none  -- a change of point under way: old and new
deriving DecidableEq, Repr


/-! ## Chapter 15: bridge and side-band -/

/-- An entry of a gate control list (R446): the open gates and the interval in ns. -/
structure GateEntry where
  gates : Nat
  interval : Nat
deriving DecidableEq, Repr

/-- An operational gate control list (R446): BASE and CYCLE in ns of Meridian time. -/
structure GateList where
  entries : List GateEntry
  cycle : Nat
  base : Nat
deriving DecidableEq, Repr

/-- A bridge port (R436, R441, R444): its settings, its link, its gates and its counts (R448). -/
structure NetPort where
  speed : Nat := 0
  dropUntagged : Bool := false
  pcp : Nat := 0
  pvid : Nat := 1
  maxFrame : Nat := 1518
  map : List Nat := [0, 0, 1, 2, 3, 4, 5, 6]   -- priority to traffic class
  up : Bool := false
  masked : Bool := false
  latency : Nat := 0                            -- internal latency measured at the last link-up, in 0.25 ns (R477)
  admin : List (Nat × GateEntry) := []          -- entries written, by index
  oper : Option GateList := none                -- none: every gate open
  next : Option (Nat × GateList) := none        -- change time in Meridian ns, and the list
  gates : Nat := 255
  txEnd : Nat := 0                              -- Meridian time, in 0.01 ns, at which the port can send again
  rx : Nat := 0
  tx : Nat := 0
  bad : Nat := 0
  drop1 : Nat := 0
  drop2 : Nat := 0
  vlanDrop : Nat := 0
  rxOct : Nat := 0
  txOct : Nat := 0
  waits : Nat := 0
deriving DecidableEq, Repr

/-- A VLAN (R444): its members and the members it leaves untagged on. -/
structure Vlan where
  vid : Nat
  members : Nat
  untagged : Nat
deriving DecidableEq, Repr

/-- A static forwarding entry (R444). -/
structure StaticMac where
  vid : Nat
  mac : Nat
  ports : Nat
deriving DecidableEq, Repr

/-- A learned address (R442) and the reference ns at which it was last seen. -/
structure FdbEntry where
  vid : Nat
  mac : Nat
  port : Nat
  seen : Nat
deriving DecidableEq, Repr

/-- A stream (R444 OP 3, R445). -/
structure StreamCfg where
  idx : Nat
  vid : Nat
  ingress : Nat
  egress : Nat
  mac : Nat
  flags : Nat
  history : Nat
  resetMs : Nat
deriving DecidableEq, Repr

/-- What a stream runs with (R445): the next sequence number it gives out; the newest sequence number accepted, the history
of the numbers at and behind it (newest first), how far it has moved since the first, and the reference ns of the last frame
accepted; packets lost. -/
structure StreamRun where
  idx : Nat
  next : Nat := 0
  high : Option Nat := none
  seen : List Bool := []
  shifts : Nat := 0
  at_ : Nat := 0
  lost : Nat := 0
deriving DecidableEq, Repr

/-- A frame in the packet buffer (R443): its cells and their ledger column. -/
structure NetFrame where
  uid : Nat
  cells : Nat
  col : Nat
deriving DecidableEq, Repr

/-- A copy of a frame queued at a port: its class, its bytes, its ingress port and Meridian ns (R277), and whether a gate has
made it wait. -/
structure NetCopy where
  uid : Nat
  port : Nat
  cls : Nat
  data : List Byte
  from_ : Nat
  at_ : Nat
  waited : Bool := false
deriving DecidableEq, Repr

/-- The residence of a two-step Sync, kept for its Follow_Up (R277): sourcePortIdentity, sequenceId, egress port, and the time
in 2⁻¹⁶ ns. -/
structure TcHold where
  id : Nat
  seq : Nat
  port : Nat
  res : Nat
deriving DecidableEq, Repr

/-- The bridge. -/
structure NetSt where
  ports : List NetPort := List.replicate 9 {}
  vlans : List Vlan := [⟨1, 0x1FF, 0x1FF⟩]
  statics : List StaticMac := []
  fdb : List FdbEntry := []
  fullSaid : Bool := false
  streams : List StreamCfg := []
  runs : List StreamRun := []
  frames : List NetFrame := []
  queue : List NetCopy := []
  uid : Nat := 0
  tc : List TcHold := []
  ipDrops : Nat := 0            -- datagrams the internal port discarded (R439)
deriving DecidableEq, Repr

/-- The side-band port, in Horizon. -/
structure SbdSt where
  up : Bool := false                       -- SBD_T1_STATE
  eid : Nat := 0                           -- SBD_EID
  from_ : List (CmdKey × SbFrom) := []     -- sources of commands not yet finally answered
  last : Option SbFrom := none             -- source of the most recent accepted command on SB_T1
  failAt : Option Nat := none              -- reference ns of the last event 0xDE
deriving DecidableEq, Repr

/-! ## Chapter 16: NV store -/

/-- A valid record in a slot (R459). -/
structure NvRec where
  part : Nat
  type : Nat
  key : Nat
  seq : Nat
  tomb : Bool
  bgen : Nat
  payload : List Byte
deriving DecidableEq, Repr

/-- A slot's content: a valid record, or bytes that are no valid record and not entirely zero. A slot not listed is zero. -/
inductive NvSlot where
  | valid (r : NvRec)
  | bad
deriving DecidableEq, Repr

/-- The NV store. -/
structure NvSt where
  ready : Bool := false
  slots : List (Nat × NvSlot) := []     -- rising slot numbers
  ptr : List Nat := [191, 255, 447, 479, 511]   -- last slot written, per partition
  bgen : List Nat := List.replicate 16 0        -- generation of each bank
  failed : List Nat := []               -- slots that have failed once
  retired : List Nat := []
  unlocks : List (Master × Nat × Nat) := []   -- master, partition, kind
  lockUntil : List (Nat × Nat) := []    -- partition and reference ns at which its lock-out ends
  writes : Nat := 0
  flushed : Nat := 0                    -- EVSEQ up to which the history has been flushed
  lastFlush : Nat := 0                  -- reference ns
deriving DecidableEq, Repr


/-! ## Chapter 17: Halo and Overcast -/

/-- A calibration in progress (R477): its item, its point and PC for item 1, and the instant it began. -/
structure CalJob where
  item : Nat
  point : Nat
  pc : Nat
  since : Nat
deriving DecidableEq, Repr

/-- The CAL_RUN in progress (R482): its packet and parameters, what is still to complete, what has, the narrowest margin, the PCs left without a
working setting, and the point to return to in Dawn. -/
structure CalRun where
  h : Hdr
  asked : CalRunP
  point : Nat
  left : List (Nat × Nat)      -- item and PC (0 where the item has none)
  done : Nat
  narrow : Option Nat
  bad : Nat
deriving DecidableEq, Repr

/-- Halo. -/
structure CalSt where
  jobs : List CalJob := []
  run : Option CalRun := none
  partly : Option CalRun := none          -- the last CAL_RUN, if it was abandoned: what it left is what a later one repeats
  abandoned : Nat := 0
  staleSaid : List Nat := []              -- items whose event 0xF1 stands
  lastAdc : Option Nat := none            -- reference ns of the last calibration of item 3 since start-up
  lastDac : Option Nat := none            -- likewise of item 4
  sweepTemp : List Int := List.replicate 64 0  -- stack temperature at each PC's last sweep, 0.1 °C
  trim : List Byte := []                  -- the trim record in force (R478); empty: every item at its centre
deriving DecidableEq, Repr

/-- A running test (R488): its start, its planned end and the run it belongs to. -/
structure TestJob where
  id : Nat
  inst : Nat
  start : Nat
deriving DecidableEq, Repr

/-- A kept result (R496). -/
structure TestRes where
  id : Nat
  inst : Nat
  outcome : Nat
  reason : Nat
  run : Nat
  w1 : Nat
  w2 : Nat
deriving DecidableEq, Repr

/-- The run in progress (R495, R500): its command (none for an automatic run), the tests waiting, in rising ID order,
and those passed over once. -/
structure TestRun where
  h : Option Hdr
  stopOnFail : Bool
  waiting : List (Nat × Nat)
  passed : List (Nat × Nat)
  set : Nat
deriving DecidableEq, Repr

/-- Overcast. -/
structure BstSt where
  number : Nat := 0
  run : Option TestRun := none
  jobs : List TestJob := []
  results : List TestRes := []
  heldCount : Nat := 0
  busyCount : Nat := 0
  lastAuto : Nat := 0                     -- reference ns
  adcBad : Bool := false                  -- ADC_REF failed: thermistor fault until one passes (R492)
deriving DecidableEq, Repr

/-! ## Chapter 18: security -/

/-- A fuse as the boot ROM reads it (R504). -/
inductive Fuse where
  | unblown | marginal | blown
deriving DecidableEq, Repr

/-- A firmware slot: the image placed at manufacture, whose bytes the spec does not give but whose header fields it
needs, or the bytes programmed by an update (erased bytes read 0xFF and are not listed). -/
inductive FwImage where
  | none
  | factory (version rollback revoke keyIndex : Nat)
  | bytes (data : List Byte)
deriving DecidableEq, Repr

/-- An open firmware update (R520): the slot, its owner, its length; a command whose erase or verification runs. -/
structure FwUpdate where
  owner : Master
  slot : Nat
  total : Nat
  erasing : Option Hdr
  verifying : Option Hdr
deriving DecidableEq, Repr

/-- A challenge held for a master (R514). `until_` is Meridian ns. -/
structure Challenge where
  data : List Byte
  until_ : Nat
deriving DecidableEq, Repr

/-- FIELD_OPEN (R513): the instant on the Horizon counter at which it ends. -/
structure FieldOpen where
  until_ : Nat
deriving DecidableEq, Repr

/-- Security state. -/
structure SecSt where
  lifeFuses : List Fuse := List.replicate 8 .unblown
  rollFuses : List Fuse := List.replicate 64 .unblown
  revoke : Nat := 0
  sensorTrim : List Nat := List.replicate 24 0
  slotA : FwImage := .factory 0x01000000 0 0 0
  slotB : FwImage := .none
  sealedFactory : Bool := true     -- the boot control record has not been written: ACTIVE is A and SEALED is 1
  running : Option Nat := none     -- slot running; none is the Recovery firmware or nothing
  bootFailedActive : Bool := false -- ACTIVE failed verification at this boot
  update : Option FwUpdate := none
  open_ : Option FieldOpen := none
  chalHost : Option Challenge := none
  chalSide : Option Challenge := none
  authHost : Nat := 0              -- Meridian ns until which owner authentication is held; 0 when not
  authSide : Nat := 0
  quoteHost : Option (List Byte) := none
  quoteSide : Option (List Byte) := none
  lockUntil : Nat := 0             -- reference ns
  abortedPend : Bool := false      -- the aborted flag of event 0xEE is owed after the next start-up
  erasePend : Bool := false        -- an erasure of R512 is not complete
deriving DecidableEq, Repr


/-! ## Chapter 19: hardware -/

/-- The detach quiesce (R545): when its trigger was accepted (reference ns), the source of R544, the step (2 to 6) that hangs, the
forced-step mask (bit n for step n), the DETACH_PREPARE waiting, the EVSEQ of event 0x08, VMAIN lost meanwhile, and how long
the steps up to 7 take when none is forced (ns). -/
structure Quiesce where
  since : Nat
  source : Nat
  step : Nat
  forced : Nat
  cmd : Option Hdr
  evseq : Nat
  vmainLost : Bool
  took : Nat
deriving DecidableEq, Repr

/-- A discrete input (R539): the level accepted, when (reference ns), masked, edges counted, when event 0x0D was last raised. -/
structure Input where
  on : Bool := false
  edge : Option Nat := none
  masked : Bool := false
  bounces : Nat := 0
  said : Option Nat := none
deriving DecidableEq, Repr

/-- Hot-plug, detach and discrete inputs. -/
structure HwdSt where
  quiesce : Option Quiesce := none
  detached : Bool := false
  safe : Bool := false           -- SAFE_N asserted
  present : Bool := false        -- PRESENT_N driven
  det : Input := {}              -- DETACH_REQ_N
  mrst : Input := {}             -- MRST_N
  ignored : Nat := 0             -- accepted assertions of MRST_N not acted on (R542)
  safeAt : Nat := 0              -- reference ns at which SAFE_N was asserted
  seating : Bool := false        -- VAUX is up and step 7 of R543 has not come
  lastQuiesce : Nat := 0
  forcedCount : Nat := 0
  holdupMv : Nat := 0            -- HWD_HOLDUP_V and HWD_VAUX_V as last measured
  vauxMv : Nat := 0
deriving DecidableEq, Repr



/-! ## The state -/

/-- The machine. -/
structure State where
  /-- The commands waiting for the block, first in first out. -/
  pending : List Instr := []
  /-- What the module has sent out or driven, newest first (the model's own record of its outputs). -/
  out : List Out := []
  /-- The model's own counter from which free values are drawn. -/
  free : Nat := 0
  /-- Writable parameters whose value in force is not the reset value: ID and value (R412). -/
  par : List (Nat × Nat) := []
  /-- Parameter values accepted and not yet in force: ID, value and takes-effect code (R7). -/
  parPend : List (Nat × Nat × Nat) := []
  time : TimeSt := {}
  mode : ModeSt := {}
  pwr : PwrSt := {}
  thm : ThmSt := {}
  buf : BufSt := {}
  cmd : CmdSt := {}
  evt : EvtSt := {}
  mem : DevMem := {}
  pnl : PanelSt := {}
  scene : SceneSt := {}
  cdc : CdcSt := {}
  syn : SynSt := {}
  cam : CamSt := {}
  scn : ScnSt := {}
  plk : PlkSt := {}
  std : StdSt := {}
  dmc : DmcSt := {}
  net : NetSt := {}
  sbd : SbdSt := {}
  nv : NvSt := {}
  cal : CalSt := {}
  bst : BstSt := {}
  sec : SecSt := {}
  hwd : HwdSt := {}
deriving DecidableEq, Repr

/-- The machine right after reset: VAUX applied, Dormant (R297), every field at its reset value. -/
def State.reset : State := {}

end Sys2Proof.Machine
end

