-- ==== Sys2Proof/Machine/Ops.lean ====
section
/-! DEFINITION. The operations every command shares: time (R264), parameters in force (R412), device memory, the ledger
(R367 to R370), buffers and their holds (R362, R375), event records and their delivery (R416 to R423). -/

namespace Sys2Proof.Machine

/-! ## Outputs and free values -/

/-- A transaction crosses the host's link: the instant is kept, and the link is in L0 (R387). -/
def hostTouch (s : State) : State := { s with cmd := { s.cmd with lastHost := s.time.ref, l1 := false } }

/-- Outputs that are transactions on the host's link. -/
def usesHost : Out → Bool
  | .ringReply _ _ _ _ _ | .msix _ | .hostWrite _ _ | .hostRead _ _ | .evq _ _ _ => true
  | _ => false

/-- Records one output. -/
def emit (o : Out) (s : State) : State :=
  let s := if usesHost o then hostTouch s else s
  { s with out := o :: s.out }

/-- Advances the draw counter of free values. -/
def drawn (s : State) : State := { s with free := s.free + 1 }

/-! ## Time -/

/-- One nanosecond in the units of `TimeSt.mer` (2⁻⁴⁸ ns, R264). -/
def fracOne : Nat := 2 ^ 48

/-- Nanoseconds per second. -/
def nsPerSec : Nat := 1000000000

/-- Meridian time in whole nanoseconds since the epoch. -/
def merNs (s : State) : Nat := s.time.mer / fracOne

/-- 40 ppm of a 2 ns tick, in 2⁻⁴⁸ ns (R272). -/
def slewStep : Int := 22517998136

/-- 45 ppm of a 2 ns tick, in 2⁻⁴⁸ ns (R265). -/
def foffLimit : Int := 25332747903

/-- The frequency offset in force, a running slew included (R272), in 2⁻⁴⁸ ns per tick. A positive remainder is removed
by running slow. -/
def foffNow (s : State) : Int :=
  match s.time.slew with
  | none => s.time.foff
  | some w => if w.left < 0 then s.time.foff + slewStep else s.time.foff - slewStep

/-- INC of R264: what one 2 ns tick adds to Meridian time, in 2⁻⁴⁸ ns. -/
def inc (s : State) : Nat := ((2 * fracOne : Nat) + foffNow s).toNat

/-- `n` ticks of the time clock pass. -/
def ticks (n : Nat) (s : State) : State :=
  { s with time := { s.time with ref := s.time.ref + 2 * n, mer := s.time.mer + n * inc s } }

/-- Time passes until Meridian time stands at `t` ns (nothing when it already stands there or later). -/
def advanceMer (t : Nat) (s : State) : State :=
  if t * fracOne ≤ s.time.mer then s
  else { s with time := { s.time with
          ref := s.time.ref + 2 * ceilDiv (t * fracOne - s.time.mer) (inc s), mer := t * fracOne } }

/-- Time passes until `r` ns of the reference clock (nothing when they have passed). -/
def advanceRef (r : Nat) (s : State) : State :=
  if r ≤ s.time.ref then s else ticks (ceilDiv (r - s.time.ref) 2) s

/-- The payload items of an MTIME (R418): 48-bit seconds and a 32-bit nanosecond word. -/
def mtItems (t : Nat) : List (Nat × Nat) := [(6, t / nsPerSec), (4, t % nsPerSec)]

/-- The ten bytes of an MTIME (R8). -/
def mtBytes (t : Nat) : List Byte := leBytes 6 (t / nsPerSec) ++ leBytes 4 (t % nsPerSec)

/-- An MTIME field as Meridian ns. -/
def mtOf (t : MTime) : Nat := t.sec.toNat * nsPerSec + t.ns.toNat

/-- The nanosecond word is below 10⁹ (R8). -/
def mtOk (t : MTime) : Bool := t.ns.toNat < nsPerSec

/-! ## Modes -/

/-- The number of a mode (R1). -/
def modeNum : Mode → Nat
  | .dormant => 0 | .starlight => 1 | .dawn => 2 | .stillAir => 3 | .flat => 4 | .standard => 5 | .swift => 6
  | .deep => 7 | .cloudburst => 8 | .skylight => 9 | .overcast => 10 | .recovery => 11

/-- The mode of a number (R1). -/
def modeOf : Nat → Option Mode
  | 0 => some .dormant | 1 => some .starlight | 2 => some .dawn | 3 => some .stillAir | 4 => some .flat
  | 5 => some .standard | 6 => some .swift | 7 => some .deep | 8 => some .cloudburst | 9 => some .skylight
  | 10 => some .overcast | 11 => some .recovery | _ => none

/-- The lit modes (chapter 10). -/
def isLit : Mode → Bool
  | .starlight | .stillAir | .flat | .standard | .swift | .deep | .cloudburst | .skylight => true
  | _ => false

/-- The light-field modes (chapter 10). -/
def isLightField : Mode → Bool
  | .stillAir | .standard | .swift | .deep | .cloudburst | .skylight => true
  | _ => false

/-- The modes in which Cumulus renders. -/
def isRendered : Mode → Bool
  | .standard | .swift | .deep | .cloudburst | .skylight => true
  | _ => false

/-- A recovery at L3 is under way: everything but Horizon is in reset (R426). -/
def moduleDown (s : State) : Bool := s.evt.recs.any (fun r => r.level == 3 && r.running)

/-- The main domain is powered and not in reset. -/
def mainOn (s : State) : Bool := s.mode.mode != .dormant && !moduleDown s

/-! ## Parameters -/

/-- The catalogue entry of an ID. -/
def pFind : List PDesc → Nat → Option PDesc
  | [], _ => none
  | d :: r, id => if d.id = id then some d else pFind r id

/-- The reset value of a writable parameter. -/
def pReset (id : Nat) : Nat :=
  match pFind paramTable id with
  | some d => d.reset
  | none => 0

/-- The value in force of a writable parameter (R412). -/
def pv (s : State) (id : Nat) : Nat := assocD s.par id (pReset id)

/-- The value in force of a signed writable parameter of width `w`. -/
def pvs (s : State) (w id : Nat) : Int := signed w (pv s id)

/-- Puts a value in force. -/
def pSet (id v : Nat) (s : State) : State :=
  { s with par := if v = pReset id then assocDel s.par id else assocSet s.par id v }

/-- Values accepted with takes-effect code `eff` come into force, in order (R7). -/
def pApply (eff : Nat) (s : State) : State :=
  let due := s.parPend.filter (fun e => e.2.2 == eff)
  due.foldl (fun s e => pSet e.1 e.2.1 s) { s with parPend := s.parPend.filter (fun e => e.2.2 != eff) }

/-- The parameters that return to their reset values at L3 (`dormant` false) or in Dormant (true). -/
def pForget (dormant : Bool) (s : State) : State :=
  let keeps := fun (id : Nat) => match pFind paramTable id with
    | some d => d.keep == 1 || d.keep == 2 || (dormant && d.keep == 3)
    | none => false
  { s with par := s.par.filter (fun e => keeps e.1), parPend := s.parPend.filter (fun e => keeps e.1) }

/-! ## Device memory -/

/-- What a device-memory byte that nothing has written reads as (DESIGN CHOICE, log entry 3). -/
def memBlank : Byte := 0

/-- The byte listed at an address. -/
def cellGet : List Host.Cell → Nat → Byte
  | [], _ => memBlank
  | (a, b) :: r, x => if a = x then b else if x < a then memBlank else cellGet r x

/-- Lists one byte, keeping the canonical form: addresses rising, no entry equal to `memBlank`. -/
def cellPut : List Host.Cell → Nat → Byte → List Host.Cell
  | [], x, v => if v = memBlank then [] else [(x, v)]
  | (a, b) :: r, x, v =>
    if a = x then (if v = memBlank then r else (x, v) :: r)
    else if x < a then (if v = memBlank then (a, b) :: r else (x, v) :: (a, b) :: r)
    else (a, b) :: cellPut r x v

/-- The bytes of [x, x + n) are listed no more. -/
def cellErase (m : List Host.Cell) (x n : Nat) : List Host.Cell := m.filter (fun c => c.1 < x || x + n ≤ c.1)

/-- An address lies in an undefined range. -/
def Vague.has (v : Vague) (x : Nat) : Bool := v.first ≤ x && x < v.first + v.len

/-- What is left of an undefined range without [x, x + n). -/
def Vague.without (x n : Nat) (v : Vague) : List Vague :=
  if v.first + v.len ≤ x ∨ x + n ≤ v.first then [v]
  else (if v.first < x then [{ v with len := x - v.first }] else []) ++
    (if x + n < v.first + v.len then [{ v with first := x + n, len := v.first + v.len - (x + n) }] else [])

/-- The byte at a device address: a free value where the spec calls it undefined, else the byte written, else `memBlank`. -/
def memGet (m : DevMem) (x : Nat) : Byte :=
  match m.vague.find? (·.has x) with
  | some v => Config.undefByte v.draw x
  | none => cellGet m.cells x

/-- Writes one byte. -/
def memPut (m : DevMem) (x : Nat) (v : Byte) : DevMem :=
  { m with cells := cellPut m.cells x v, vague := m.vague.flatMap (Vague.without x 1) }

/-- Writes bytes from address `x` upward. -/
def memPutAll (m : DevMem) (x : Nat) : List Byte → DevMem
  | [] => m
  | v :: vs => memPutAll (memPut m x v) (x + 1) vs

/-- `n` bytes from address `x`. -/
def memGetAll (m : DevMem) (x n : Nat) : List Byte := (List.range n).map (fun i => memGet m (x + i))

/-- The bytes of [x, x + n) return to the unwritten state. -/
def memErase (m : DevMem) (x n : Nat) : DevMem :=
  { m with cells := cellErase m.cells x n, vague := m.vague.flatMap (Vague.without x n) }

/-- The contents of [x, x + n) become undefined: free bytes until they are written (log entry 3). -/
def memBlur (m : DevMem) (x n : Nat) : DevMem :=
  { cells := cellErase m.cells x n, vague := ⟨x, n, m.draws⟩ :: m.vague.flatMap (Vague.without x n), draws := m.draws + 1 }

/-- Addresses strictly rise, from above `lo`. -/
def memRising : Option Nat → List Host.Cell → Bool
  | _, [] => true
  | lo, (a, _) :: r => (match lo with | none => true | some l => decide (l < a)) && memRising (some a) r

/-- The canonical form of memory: the listed addresses rise and no entry is blank. -/
def Memory.wf (m : DevMem) : Bool := memRising none m.cells && m.cells.all (fun c => c.2 != memBlank)

/-- Contents of device memory that the spec calls undefined. -/
def devBlur (a n : Nat) (s : State) : State := { s with mem := memBlur s.mem a n }

/-- Writes bytes to device memory. -/
def devWrite (a : Nat) (bs : List Byte) (s : State) : State := { s with mem := memPutAll s.mem a bs }

/-! ## MSI-X, event records and their delivery -/

/-- Sends one MSI-X message, or sets its pending bit while the vector is masked (R387, R419). -/
def sendMsix (v : Nat) (s : State) : State :=
  if !s.cmd.up then s
  else if (s.cmd.msixTable.getD (4 * v + 3) 1) % 2 = 1 then
    { s with cmd := { s.cmd with pba := s.cmd.pba ||| 2 ^ v } }
  else emit (.msix v) s

/-- Entries of the event queue (R421). -/
def evqN (s : State) : Nat := 256 * 2 ^ s.evt.qSize

/-- Writes a record to the event queue, or counts it in EVQ_DROPPED (R421). -/
def evqWrite (r : Rec) (s : State) : State :=
  if !s.cmd.up then s
  else if s.evt.qEnable && (s.evt.qTail + evqN s - s.evt.qHead) % evqN s < evqN s - 1 then
    emit (.evq s.evt.qTail (s.evt.qWritten / evqN s % 2 == 0) r)
      { s with evt := { s.evt with qTail := (s.evt.qTail + 1) % evqN s, qWritten := s.evt.qWritten + 1 } }
  else { s with evt := { s.evt with dropped := s.evt.dropped + 1 } }

/-- A formed record sets its pending bit and goes to the event queue (R419, R421). -/
def post (r : Rec) (s : State) : State :=
  let was := s.evt.pend.testBit r.source
  let s := { s with evt := { s.evt with pend := s.evt.pend ||| 2 ^ r.source } }
  let s := if !was && !(s.evt.mask.testBit r.source) then sendMsix (s.evt.vmap.getD r.source 0) s else s
  evqWrite r s

/-- A record with its EVSEQ joins the history (R417, R423). -/
def logRec (r : Rec) (s : State) : Rec × State :=
  let r := { r with evseq := (s.evt.evseq + 1) % 2 ^ 32, logged := !mainOn s }
  (r, emit (.record r) { s with evt := { s.evt with
    evseq := r.evseq, seqReg := r.evseq, history := (r :: s.evt.history).take 1024,
    coalescedRecs := s.evt.coalescedRecs + b2n r.coalesced } })

/-- Where notifications go (R453): none while SBD_NOTIFY_LINK is 0 or no destination is known. -/
def notifyTo (s : State) : Option SbFrom :=
  if pv s 0x1105 = 1 then
    (if !s.sbd.up then none else if pv s 0x1106 = 0 then s.sbd.last else some ⟨true, pv s 0x1106, pv s 0x1107, 0⟩)
  else some ⟨false, pv s 0x1108, 0, 0⟩

/-- Event 0xDE has been raised within the last second. -/
def notifyMuted (s : State) : Bool := match s.sbd.failAt with | some t => decide (s.time.ref < t + nsPerSec) | none => false

/-- A notification that cannot be sent: event 0xDE once per second (R453). -/
def notifyFails (s : State) : State :=
  if notifyMuted s then s
  else
    let (r, s) := logRec { source := 0xDE, time := merNs s } { s with sbd := { s.sbd with failAt := some s.time.ref } }
    post r s

/-- Delivers a formed record by the routes enabled (R419, R421, R422). -/
def deliver (r : Rec) (s : State) : State :=
  let s := post r s
  if (pv s (0x0400 + r.source / 32)).testBit (r.source % 32) && pv s 0x1105 != 0 then
    (match notifyTo s with
     | some d => emit (.notify d r) { s with evt := { s.evt with sbSent := s.evt.sbSent + 1 } }
     | none => notifyFails s)
  else s

/-- Forms a record: EVSEQ, history (R417, R423), and delivery while the main domain is on. -/
def formRec (r : Rec) (s : State) : State :=
  let (r, s) := logRec r s
  if mainOn s then deliver r s else s

/-- The bytes of payload items (width, value), packed and padded to 28 bytes (R418). -/
def payload (items : List (Nat × Nat)) : List Byte :=
  bytesAt (items.flatMap (fun e => leBytes e.1 e.2)) 0 28

/-- The count kept for a source, if any. -/
def srcCount (s : State) (src : Nat) : Option SrcCount := s.evt.counts.find? (fun c => c.source == src)

/-- Replaces the count kept for a source. -/
def setCount (c : SrcCount) (s : State) : State :=
  { s with evt := { s.evt with counts := c :: s.evt.counts.filter (fun x => x.source != c.source) } }

/-- The end of a coalesced source's millisecond (R420 steps 4 to 6). -/
def coalesceEnd (c : SrcCount) (s : State) : State :=
  let s := if c.coalesced && c.since > 0 then
      formRec { source := c.source, coalesced := true, time := c.lastTime, overflow := min c.since 65535,
                payload := c.last } s
    else s
  setCount { c with coalesced := c.coalesced && c.count > 64, count := 0, since := 0, ms := c.ms + 1 } s

/-- A firing of a source outside a recovery, at Meridian time now (R420). -/
def fire (src : Nat) (pay : List Byte) (s : State) : State :=
  let ms := merNs s / 1000000
  let s := match srcCount s src with
    | some c =>
      if c.ms < ms then
        setCount ⟨src, ms, 0, (if c.ms + 1 = ms then c.coalesced && c.count > 64 else false), 0, [], 0⟩
          (if c.coalesced && c.since > 0 then coalesceEnd c s else s)
      else s
    | none => setCount ⟨src, ms, 0, false, 0, [], 0⟩ s
  match srcCount s src with
  | none => s
  | some c =>
    if c.coalesced || c.count ≥ 64 then
      setCount { c with count := c.count + 1, coalesced := true, since := c.since + 1, last := pay,
                        lastTime := merNs s } s
    else formRec { source := src, time := merNs s, payload := pay } (setCount { c with count := c.count + 1 } s)

/-- Raises an event with payload items (width, value). -/
def raise (src : Nat) (items : List (Nat × Nat)) (s : State) : State := fire src (payload items) s

/-- Raises an event when a condition holds. -/
def raiseIf (c : Bool) (src : Nat) (items : List (Nat × Nat)) (s : State) : State :=
  if c then raise src items s else s

/-! ## The ledger -/

/-- Moves `n` units of a pool from one column to another, never more than the column holds (R370). -/
def Pool.move (p : Pool) (a b n : Nat) : Pool :=
  let k := min n (p.cols.getD a 0)
  if a = b ∨ p.cols.length ≤ b then p
  else { p with cols := (p.cols.modify a (· - k)).modify b (· + k) }

/-- Applies a function to one pool. -/
def onPool (id : Nat) (f : Pool → Pool) (s : State) : State :=
  { s with buf := { s.buf with pools := s.buf.pools.map (fun p => if p.id = id then f p else p) } }

/-- Moves units of a pool between ledger columns. -/
def move (id a b n : Nat) (s : State) : State := onPool id (fun p => p.move a b n) s

/-- A pool of the ledger. -/
def poolOf (s : State) (id : Nat) : Option Pool := s.buf.pools.find? (fun p => p.id == id)

/-- The count of one column of a pool. -/
def col (s : State) (id c : Nat) : Nat :=
  match poolOf s id with
  | some p => p.cols.getD c 0
  | none => 0

/-- Every unit of a pool goes back to FREE. -/
def Pool.free (p : Pool) : Pool := { p with cols := p.cols.sum :: List.replicate (p.cols.length - 1) 0 }

/-- Every unit of a pool goes back to FREE. -/
def freePool (id : Nat) (s : State) : State := onPool id Pool.free s

/-- The TOTAL of a credit pool becomes `n`, all FREE (R371). -/
def setTotal (id n : Nat) (s : State) : State :=
  onPool id (fun p => { p with total := n, cols := n :: List.replicate 11 0 }) s

/-! ## Handles and buffers -/

/-- The generation of an object (R363). -/
def genOf (s : State) (pool idx : Nat) : Nat := assocD s.buf.gens (pool * 65536 + idx) 1

/-- Advances an object's generation: 255 goes back to 1 (R362). -/
def nextGen (pool idx : Nat) (s : State) : State :=
  let g := genOf s pool idx % 255 + 1
  { s with buf := { s.buf with gens :=
      (if g = 1 then assocDel s.buf.gens (pool * 65536 + idx) else assocSet s.buf.gens (pool * 65536 + idx) g) } }

/-- The handle of an object (R362). -/
def handle (pool idx gen : Nat) : Nat := pool * 2 ^ 24 + idx * 2 ^ 8 + gen

/-- First heap address. -/
def heapBase : Nat := 0x300000000
/-- Units of the heap. -/
def heapUnits : Nat := 327680
/-- Bytes per heap unit. -/
def unitBytes : Nat := 65536

/-- The live buffer a handle names (R362). -/
def bufOf (s : State) (h : Nat) : Option Buf :=
  s.buf.bufs.find? (fun b => b.live && h == handle 0x01 b.idx (genOf s 0x01 b.idx))

/-- Device address of a buffer. -/
def bufAddr (b : Buf) : Nat := heapBase + b.start * unitBytes

/-- Fenced PCs plus those whose fence is decided: the fences that withdraw units (R378). -/
def fenceCount (s : State) : Nat := s.dmc.fenced.length + s.dmc.fences.length

/-- First heap unit of the withdrawn range (R354). -/
def withdrawnFrom (s : State) : Nat := heapUnits - min heapUnits (fenceCount s * 8192)

/-- Units of a buffer that lie in the withdrawn range. -/
def unitsWithdrawn (s : State) (b : Buf) : Nat :=
  b.start + b.units - max b.start (min (withdrawnFrom s) (b.start + b.units))

/-- The ledger column of a stage (R368). -/
def stageCol : Stage → Nat
  | .stratusA => 6 | .stratusB => 7 | .cumulus => 5 | .cirrus => 3 | .nimbus => 2

/-- The first holder of R369. -/
def firstHolder (hs : List (Stage × Nat)) : Option Stage :=
  let has := fun (x : Stage) => hs.any (fun e => e.1 == x)
  if has .stratusA then some .stratusA else if has .stratusB then some .stratusB
  else if has .cumulus then some .cumulus else if has .cirrus then some .cirrus
  else if has .nimbus then some .nimbus else none

/-- The holder mask of R374: bit 0 Stratus, bit 1 Cumulus, bit 2 Cirrus, bit 3 Nimbus. -/
def holderMask (b : Buf) : Nat :=
  let has := fun (x : Stage) => b.holds.any (fun e => e.1 == x)
  b2n (has .stratusA || has .stratusB) + 2 * b2n (has .cumulus) + 4 * b2n (has .cirrus) + 8 * b2n (has .nimbus)

/-- The ledger column a buffer's units stand in (R369). -/
def bufCol (b : Buf) : Nat :=
  if b.live then 1 else match firstHolder b.holds with
    | some h => stageCol h
    | none => 0

/-- Replaces the buffer object of an index. -/
def setBuf (b : Buf) (s : State) : State :=
  { s with buf := { s.buf with bufs := s.buf.bufs.map (fun x => if x.idx = b.idx then b else x) } }

/-- Removes a buffer object and frees its units from column `c`: FREE, or WITHDRAWN in a withdrawn range (R370). -/
def dropBuf (b : Buf) (c : Nat) (s : State) : State :=
  let w := unitsWithdrawn s b
  move 0x01 c 11 w (move 0x01 c 0 (b.units - w)
    { s with buf := { s.buf with bufs := s.buf.bufs.filter (fun x => x.idx != b.idx) } })

/-- HEAP FREE against BUF_LOW_MARK: event 0x50 on first falling below, re-armed above the mark (R373). -/
def checkLow (s : State) : State :=
  let f := col s 0x01 0
  if f < pv s 0x0804 then
    if s.buf.low then s else raise 0x50 [] { s with buf := { s.buf with low := true } }
  else if pv s 0x0804 < f then { s with buf := { s.buf with low := false } } else s

/-- A stage takes a hold on a buffer (R375). -/
def hold (idx : Nat) (st : Stage) (owner : Nat) (s : State) : State :=
  { s with buf := { s.buf with bufs := s.buf.bufs.map (fun b =>
      if b.idx = idx then { b with holds := (st, owner) :: b.holds } else b) } }

/-- The buffer's holds change to `hs`: units of a freed buffer pass to the next holder, and the last release completes the
deferred free with event 0x52 (R370, R374). -/
def setHolds (b : Buf) (hs : List (Stage × Nat)) (s : State) : State :=
  let b' := { b with holds := hs }
  if b.live then setBuf b' s
  else match firstHolder hs with
    | some _ => move 0x01 (bufCol b) (bufCol b') b.units (setBuf b' s)
    | none => checkLow (raise 0x52 [(4, handle 0x01 b.idx b.gen)] (dropBuf b (bufCol b) s))

/-- A stage's hold of one owner on one buffer ends. -/
def release (idx : Nat) (st : Stage) (owner : Nat) (s : State) : State :=
  match s.buf.bufs.find? (fun b => b.idx == idx) with
  | none => s
  | some b => if (st, owner) ∈ b.holds then setHolds b (b.holds.erase (st, owner)) s else s

/-- Every hold of a stage on any buffer ends. -/
def releaseStage (st : Stage) (s : State) : State :=
  s.buf.bufs.foldl (fun s b => if b.holds.any (fun e => e.1 == st) then
    setHolds b (b.holds.filter (fun e => e.1 != st)) s else s) s

/-- Every hold of one owner of a stage ends. -/
def releaseOwner (st : Stage) (owner : Nat) (s : State) : State :=
  s.buf.bufs.foldl (fun s b => if b.holds.contains (st, owner) then
    setHolds b (b.holds.filter (fun e => e != (st, owner))) s else s) s

/-- A device-buffer segment as SOURCE_ADDR of R61 codes it: the handle in bits [31:0] and the byte offset in bits
[63:32]. -/
def segHandle (a : U64) : Nat := a.toNat % 2 ^ 32
/-- The byte offset of a segment address (R61). -/
def segOff (a : U64) : Nat := a.toNat / 2 ^ 32
/-- A segment of `n` bytes lies within its buffer. -/
def segFits (b : Buf) (off n : Nat) : Bool := off + n ≤ b.units * unitBytes

/-! ## Audits (R379) -/

/-- One audit of a pool: AUDIT_SEQ and LEDGER_AUDITS rise by one. -/
def auditOne (s : State) : State :=
  { s with buf := { s.buf with auditSeq := (s.buf.auditSeq + 1) % 2 ^ 32, audits := s.buf.audits + 1 } }

/-- Every pool is audited (R379); the stored columns balance, so no fault is found. -/
def auditAll (s : State) : State :=
  { s with buf := { s.buf with auditSeq := (s.buf.auditSeq + 16) % 2 ^ 32, audits := s.buf.audits + 16 } }

end Sys2Proof.Machine
end

