-- ==== Sys2Proof/Machine/Catalogue.lean ====
section
/-! DEFINITION. Status codes (R399) and the opcode catalogue (R413). -/

namespace Sys2Proof.Machine

namespace St
/-- Done. -/
def ok : Nat := 0x00
/-- Interim; the final reply follows. -/
def accepted : Nat := 0x01
/-- Done in part. -/
def deferred : Nat := 0x02
/-- Stopped at a committed boundary. -/
def partly : Nat := 0x03
/-- Opcode unknown. -/
def badOpcode : Nat := 0x10
/-- Header or parameter invalid. -/
def badParam : Nat := 0x11
/-- PLEN not allowed. -/
def badLength : Nat := 0x12
/-- Handle not live. -/
def badHandle : Nat := 0x13
/-- A conflicting operation is in progress. -/
def busy : Nat := 0x20
/-- The serving block is under test. -/
def busySelftest : Nat := 0x21
/-- Not allowed in the mode in force. -/
def modeForbids : Nat := 0x22
/-- The master does not hold the lease. -/
def noLease : Nat := 0x23
/-- The target lay in the past. -/
def timePassed : Nat := 0x30
/-- A deadline ran out. -/
def deadlineMissed : Nat := 0x31
/-- Locked by life-cycle state or by a password. -/
def deniedLocked : Nat := 0x40
/-- Authentication failed. -/
def authFail : Nat := 0x41
/-- Too many authentication failures. -/
def lockedOut : Nat := 0x42
/-- No free slot, entry or memory. -/
def noSpace : Nat := 0x50
/-- A budget rule would be broken. -/
def budgetExceeded : Nat := 0x51
/-- The operation failed. -/
def fault : Nat := 0x60
/-- Done with reduced capability. -/
def degraded : Nat := 0x61
/-- Ended by the detach quiesce. -/
def abortedDetach : Nat := 0x62
/-- Ended by recovery at L2 or L3. -/
def abortedReset : Nat := 0x63
/-- What the command needs is absent. -/
def notPresent : Nat := 0x70
end St

/-- What a reply says: its status and result words. -/
structure Verdict where
  status : Nat
  w0 : Nat := 0
  w1 : Nat := 0
  w2 : Nat := 0
deriving DecidableEq, Repr

/-- A status with zero words (R397). -/
def no (st : Nat) : Verdict := { status := st }
/-- OK with result words. -/
def okay (w0 : Nat := 0) (w1 : Nat := 0) (w2 : Nat := 0) : Verdict := ⟨St.ok, w0, w1, w2⟩

/-- The verdict of the first condition that holds: how the spec's tables of checks are read. -/
def firstOf : List (Bool × Verdict) → Option Verdict
  | [] => none
  | (c, v) :: r => if c then some v else firstOf r

/-- Command class of R413. -/
inductive Class where
  | observe | control | privileged
deriving DecidableEq, Repr

/-- How an opcode treats SCHEDULED (R402). -/
inductive Sched where
  | notTaken | frame | held
deriving DecidableEq, Repr

/-- One row of the catalogue: opcode, class, scheduling, modes, default budget in µs (none: no budget), the "stop" rule,
whether it may answer ACCEPTED of its own accord, and, for a privileged one, the life-cycle states that admit it. -/
structure CmdInfo where
  opcode : Nat
  cls : Class
  sched : Sched
  modes : List Nat
  budget : Option Nat
  stop : Bool
  interim : Bool
  life : List Nat
deriving DecidableEq, Repr

/-- Modes a to b. -/
def upTo (a b : Nat) : List Nat := (List.range (b + 1 - a)).map (· + a)

/-- Catalogue rows of class O. -/
def cO (op : Nat) (ms : List Nat) (us : Nat) : CmdInfo := ⟨op, .observe, .notTaken, ms, some us, false, false, []⟩
/-- Catalogue rows of class C. -/
def cC (op : Nat) (sc : Sched) (ms : List Nat) (us : Option Nat) (stop interim : Bool) : CmdInfo :=
  ⟨op, .control, sc, ms, us, stop, interim, []⟩
/-- Catalogue rows of class P. -/
def cP (op : Nat) (ms : List Nat) (us : Nat) (life : List Nat) : CmdInfo :=
  ⟨op, .privileged, .notTaken, ms, some us, false, false, life⟩

/-- Opcodes 0x0001 to 0x0306. -/
def catalogue1 : List CmdInfo :=
  [cO 0x0001 (upTo 0 11) 1000, cO 0x0002 (upTo 0 11) 1000, cC 0x0003 .frame (upTo 1 11) none false true,
   cO 0x0004 (upTo 0 11) 1000, cO 0x0005 (upTo 1 11) 1000, cO 0x0006 (upTo 1 11) 1000, cO 0x0007 (upTo 1 11) 1000,
   cC 0x0009 .notTaken (upTo 1 11) (some 300000) false true, cC 0x000A .notTaken (upTo 1 11) (some 1000000) false true,
   cO 0x0101 (upTo 1 11) 1000, cC 0x0102 .held (upTo 1 10) (some 10000) false false, cO 0x0104 (upTo 1 11) 5000,
   cC 0x0201 .notTaken (upTo 2 9) (some 1000) false false, cC 0x0202 .held (upTo 1 11) (some 1000) false false,
   cC 0x0203 .held (upTo 2 9) (some 1000000) true true, cO 0x0204 (upTo 1 11) 1000, cO 0x0205 (upTo 1 11) 1000,
   cC 0x0301 .held (upTo 1 9) (some 200000) false true, cC 0x0302 .notTaken (3 :: upTo 5 8) (some 10000) false false,
   cC 0x0303 .notTaken (3 :: upTo 5 8) (some 50000) false false, cC 0x0304 .held (3 :: upTo 5 8) none false true,
   cC 0x0305 .frame (upTo 5 8) none false true, cO 0x0306 (upTo 1 11) 1000]
/-- Opcodes 0x0307 to 0x0703. -/
def catalogue2 : List CmdInfo :=
  [cC 0x0307 .frame (3 :: upTo 5 9) (some 1000) false false, cC 0x0401 .frame (upTo 2 9) (some 1000) false false,
   cC 0x0402 .frame (upTo 2 9) (some 1000) false false, cC 0x0404 .frame (1 :: upTo 3 9) (some 2000000) false true,
   cC 0x0405 .frame (upTo 1 9) (some 5000) false false, cO 0x0406 (upTo 1 11) 1000,
   cC 0x0407 .held (upTo 1 9) (some 200000) false true, cC 0x0408 .held (upTo 1 10) (some 1000) false false,
   cO 0x0409 (upTo 1 11) 5000, cC 0x0501 .held (upTo 2 9) (some 1000000) true true,
   cC 0x0502 .notTaken (upTo 2 9) (some 1000000) true true, cC 0x0503 .notTaken (upTo 1 11) (some 1000) false false,
   cO 0x0601 (upTo 0 11) 1000, cC 0x0602 .notTaken (upTo 1 10) (some 2000000) false true,
   cC 0x0603 .notTaken (upTo 1 10) none false true, cC 0x0604 .notTaken (upTo 1 10) (some 1000) false false,
   cC 0x0605 .held (upTo 1 10) (some 1000) false false, cC 0x0606 .held (upTo 1 10) (some 10000) false false,
   cO 0x0701 (upTo 0 11) 1000, cC 0x0702 .held (upTo 1 10) (some 1000) false false,
   cC 0x0703 .notTaken (upTo 1 10) (some 1000) false false]
/-- Opcodes 0x0801 to 0x0B07. -/
def catalogue3 : List CmdInfo :=
  [cO 0x0801 (upTo 1 11) 1000, cC 0x0802 .held (upTo 1 10) (some 10000) false false,
   cC 0x0803 .notTaken (upTo 1 11) (some 50000) false false, cC 0x0804 .notTaken (upTo 1 11) (some 10000) false false,
   cC 0x0805 .held (upTo 1 10) (some 10000) false false, cO 0x0806 (upTo 1 11) 5000,
   cC 0x0901 .held (upTo 2 9) (some 10000000) false true, cO 0x0902 (upTo 1 11) 10000,
   cP 0x0903 [2] 50000 [1, 2, 4, 5], cO 0x0904 (upTo 1 11) 1000,
   cC 0x0A01 .held (upTo 2 10) none false true, cO 0x0A02 (upTo 1 11) 1000,
   cC 0x0A03 .notTaken (upTo 2 10) (some 100000) false false,
   cO 0x0B01 (upTo 1 11) 1000, cO 0x0B02 (upTo 1 11) 5000, cO 0x0B03 (upTo 1 11) 50000, cO 0x0B04 (upTo 1 11) 50000,
   cO 0x0B05 (upTo 1 11) 50000, cP 0x0B06 [2, 11] 100000 [0, 1, 2, 3, 4, 5], cP 0x0B07 [2] 100000 [2, 4]]
/-- Opcodes 0x0C01 to 0x0E02. -/
def catalogue4 : List CmdInfo :=
  [cC 0x0C01 .held (upTo 1 10) (some 100000) false false, cC 0x0C02 .held (upTo 1 10) (some 10000) false false,
   cC 0x0C03 .held (upTo 1 10) (some 10000) false false, cO 0x0C04 (upTo 1 11) 1000,
   cC 0x0C05 .held (upTo 1 9) (some 100000) false true, cC 0x0C06 .held (upTo 1 9) (some 1000) false false,
   cO 0x0C07 (upTo 1 11) 1000, cC 0x0C08 .held (upTo 1 9) (some 1000) false false,
   cC 0x0D01 .notTaken (upTo 1 11) (some 10000) false true, cC 0x0D02 .notTaken (upTo 1 11) (some 10000) false false,
   cC 0x0D03 .notTaken (upTo 1 11) (some 5000000) false true, cC 0x0D04 .notTaken [2, 11] (some 1000000) false false,
   cP 0x0E01 (upTo 1 11) 100000 [1, 4, 5], cO 0x0E02 (upTo 1 11) 5000]

/-- The catalogue of R413. -/
def catalogue : List CmdInfo := catalogue1 ++ catalogue2 ++ catalogue3 ++ catalogue4

/-- The catalogue row of an opcode. -/
def infoFind : List CmdInfo → Nat → Option CmdInfo
  | [], _ => none
  | c :: r, op => if c.opcode = op then some c else infoFind r op

/-- The catalogue row of an opcode, or none for an unknown one. -/
def infoOf (op : Nat) : Option CmdInfo := infoFind catalogue op

/-- An opcode of the catalogue may be served in the mode in force (R413, Modes column). -/
def modeOk (op : Nat) (s : State) : Bool :=
  match infoOf op with
  | some c => c.modes.contains (modeNum s.mode.mode)
  | none => false

end Sys2Proof.Machine
end

