-- ==== Sys2Proof/Machine/TestHold.lean ====
section
/-! DEFINITION. The test catalogue of Overcast (R488) and the commands an in-service test holds back (R493). -/

namespace Sys2Proof.Machine

/-- The kind of a test (R488): in-service, full, vendor. -/
inductive TestKind where
  | service | full | vendor
deriving DecidableEq, Repr

/-- The result a test gives (R488): a sealed signature, an error count, a measurement with its limit. -/
inductive TestResult where
  | signature | errors | measured (limit : Int)
deriving DecidableEq, Repr

/-- A row of the test catalogue: instances (0 for none), duration in ns, power in 0.1 W, the opcodes held and the hold time
in ns. -/
structure TestInfo where
  id : Nat
  kind : TestKind
  insts : Nat
  result : TestResult
  dur : Nat
  power : Nat
  holds : List Nat
  holdTime : Nat
deriving DecidableEq, Repr

/-- The test catalogue (R488). The limit of STD_LOAD is that of R234, in mV. -/
def testCatalogue : List TestInfo :=
  [⟨0x01, .service, 64, .errors, 10000000000, 2, [], 0⟩,
   ⟨0x02, .service, 16, .signature, 500000, 1, [], 0⟩,
   ⟨0x03, .service, 16, .signature, 200000, 3, [], 0⟩,
   ⟨0x04, .service, 16, .signature, 200000, 1, [], 0⟩,
   ⟨0x05, .service, 0, .measured 4, 1000000, 0, [0x0003, 0x0408, 0x0409], 2000000⟩,
   ⟨0x06, .service, 0, .errors, 8000000, 0, [0x0801, 0x0802, 0x0803, 0x0804, 0x0805, 0x0806, 0x0102], 10000000⟩,
   ⟨0x10, .full, 0, .signature, 20000000, 30, [], 0⟩, ⟨0x11, .full, 0, .signature, 60000000, 140, [], 0⟩,
   ⟨0x12, .full, 0, .signature, 30000000, 40, [], 0⟩, ⟨0x13, .full, 0, .signature, 25000000, 40, [], 0⟩,
   ⟨0x14, .full, 0, .errors, 2000000000, 160, [], 0⟩, ⟨0x15, .full, 0, .measured 0, 200000000, 80, [], 0⟩,
   ⟨0x16, .full, 0, .measured 0, 10000000000, 80, [], 0⟩, ⟨0x17, .full, 0, .measured 0, 100000000, 25, [], 0⟩,
   ⟨0x18, .full, 0, .measured 0, 120000000, 40, [], 0⟩, ⟨0x19, .full, 0, .measured 71, 40000000, 15, [], 0⟩,
   ⟨0x1E, .vendor, 0, .errors, 30000000000, 180, [], 0⟩, ⟨0x1F, .vendor, 0, .signature, 500000000, 200, [], 0⟩]

/-- The catalogue row of a test. -/
def testInfo (id : Nat) : Option TestInfo := testCatalogue.find? (fun t => t.id == id)

/-- The command sets a parameter that the NV store keeps. -/
def setsNvParam (i : Instr) : Bool :=
  match i with
  | .paramSet _ p | .paramSetDmcHash _ p | .paramSetDmcDly _ p | .paramSetHwdRearm _ p =>
    (match pFind paramTable p.id.toNat with | some d => d.keep == 2 | none => false)
  | _ => false

/-- The in-service test that holds back an opcode, with its start. -/
def holder (opc : Nat) (i : Instr) (s : State) : Option (TestInfo × Nat) :=
  s.bst.jobs.findSome? (fun j => match testInfo j.id with
    | some t => if t.holds.contains opc && (opc != 0x0102 || setsNvParam i) then some (t, j.start) else none
    | none => none)

/-- The expected end (Meridian ns) of the in-service test that holds back a command, if one does (R493). -/
def testBlock (opc : Nat) (i : Instr) (s : State) : Option Nat :=
  (holder opc i s).map (fun e => merNs s + (e.2 + e.1.dur - s.time.ref))

end Sys2Proof.Machine
end

