-- ==== Sys2Proof/Machine/Accept.lean ====
section
/-! DEFINITION. Imven acceptance and replies: the checks of R398, completion entries (R401), ordering by CHAIN and
FENCE_WAIT (R405), the scheduler (R402), budgets (R403), and the writing of replies (R397, R400). -/

namespace Sys2Proof.Machine

/-! ## Life-cycle state and the lease -/

/-- The value of a thermometer field (R504): one more than the highest index that reads blown or marginal. -/
def fuseValue (fs : List Fuse) : Nat :=
  (fs.zipIdx.filter (fun e => e.1 != .unblown)).foldl (fun m e => max m (e.2 + 1)) 0

/-- The life-cycle state code of R511. -/
def lifeState (s : State) : Nat :=
  match fuseValue s.sec.lifeFuses with
  | 0 => 0 | 1 => 1 | 2 => 2
  | 3 => if s.sec.open_.isSome then 4 else 3
  | 4 => 5
  | _ => 6

/-- The master behind a source (R406). -/
def masterOf : Src → Master
  | .ring _ => .host
  | .side => .sideBand

/-- Master codes of R407: 1 host, 2 side-band. -/
def masterCode : Master → Nat
  | .host => 1
  | .sideBand => 2

/-- The master holds a live lease (R406). -/
def holdsLease (s : State) (m : Master) : Bool := s.cmd.lease.holder == some m && merNs s < s.cmd.lease.expiry

/-! ## Rings -/

/-- A ring pair. -/
def ringOf (s : State) (r : Nat) : Ring := s.cmd.rings.getD r {}

/-- Replaces a ring pair. -/
def setRing (r : Nat) (x : Ring) (s : State) : State := { s with cmd := { s.cmd with rings := s.cmd.rings.set r x } }

/-- Written completion entries that the host has not released (R391). -/
def unreleased (x : Ring) : Nat := (x.cqTail + x.n - x.cqHead) % x.n

/-- Submitted entries that the module has not read (R391). -/
def unread (x : Ring) : Nat := (x.sqTail + x.n - x.head) % x.n

/-- A ring error stops the pair: STATE 3, the code, event 0x25 with the pair and the code (R393). -/
def ringError (r code : Nat) (s : State) : State :=
  let x := ringOf s r
  raise 0x25 [(1, r), (1, code)]
    (setRing r { x with state := .error, error := code, discard := x.discard || code == 0x05 } s)

/-- Completion entries reserved for the accepted commands of a pair (R401). -/
def reserved (s : State) (r : Nat) : Nat :=
  (s.cmd.live.filter (fun l => !l.orphan && (match l.h.src with | .ring k => k.val == r | .side => false))).foldl
    (fun n l => n + l.reserve) 0

/-! ## Replies -/

/-- The identity of a command. -/
def keyOf (h : Hdr) : CmdKey := ⟨h.src, h.seq, h.tag⟩

/-- The accepted command of an identity, if it has not given its final reply. -/
def liveOf (s : State) (k : CmdKey) : Option Live := s.cmd.live.find? (fun l => keyOf l.h == k)

/-- A reply that cannot be written is discarded and counted; event 0x2A once per link-down (R388). -/
def loseReply (rep : Reply) (s : State) : State :=
  let s := emit (.lostReply rep) { s with cmd := { s.cmd with replyLost := s.cmd.replyLost + 1 } }
  if s.cmd.lostRaised then s
  else raise 0x2A [] { s with cmd := { s.cmd with lostRaised := true } }

/-- Writes a reply into a completion ring (R397), raises its interrupt (R394) and moves the entry in the ledger (R395).
A failed write is ring error 0x05 (R393). -/
def ringReply (r : Nat) (interim : Bool) (rep : Reply) (s : State) : State :=
  let x := ringOf s r
  if x.state = .off ∨ x.discard then emit (.lostReply rep) s
  else if x.cqBad then ringError r 0x05 (emit (.lostReply rep) s)
  else
    let s := emit (.ringReply r x.cqTail (x.written / x.n % 2 == 0) interim rep) s
    let s := move 0x21 2 1 1 s
    let fireIrq := x.irq && x.armed
    let s := setRing r { x with cqTail := (x.cqTail + 1) % x.n, written := x.written + 1,
                                armed := x.armed && !fireIrq } s
    if fireIrq then sendMsix x.vector s else s

/-- Keeps the 16 most recent final side-band replies (R411). -/
def keepReply (rep : Reply) (s : State) : State :=
  { s with cmd := { s.cmd with sbKept := (rep :: s.cmd.sbKept).take 16 } }

/-- Sends a reply to its source. -/
def sendReply (orphan interim : Bool) (rep : Reply) (s : State) : State :=
  match rep.src with
  | .ring r => if orphan || !s.cmd.up then loseReply rep s else ringReply r.val interim rep s
  | .side =>
    let k : CmdKey := ⟨rep.src, rep.seq, rep.tag⟩
    let s := emit (.sbReply ((s.sbd.from_.find? (fun e => e.1 == k)).map (·.2)) interim rep) s
    if interim then s
    else keepReply rep { s with sbd := { s.sbd with from_ := s.sbd.from_.filter (fun e => e.1 != k) } }

/-- NO_REPLY (R400). -/
def noReply (h : Hdr) : Bool := h.flags.toNat.testBit 2

/-- The final status of a command is noted for CHAIN (R405). -/
def noteFinal (h : Hdr) (st : Nat) (s : State) : State :=
  { s with cmd := { s.cmd with last := s.cmd.last.map (fun l =>
      if l.src = h.src ∧ l.seq = h.seq ∧ l.tag = h.tag ∧ l.status = none then { l with status := some st } else l) } }

/-- The final reply of a command (R397): LATE when its budget ran out, nothing written when NO_REPLY suppresses it. -/
def finish (h : Hdr) (opc : Nat) (v : Verdict) (s : State) : State :=
  let l := liveOf s (keyOf h)
  let late := match l with | some l => l.late | none => false
  let orphan := match l with | some l => l.orphan | none => false
  let rep : Reply := ⟨h.src, h.tag, h.seq, opc, v.status, late, merNs s, v.w0, v.w1, v.w2⟩
  let s := noteFinal h v.status { s with cmd := { s.cmd with live := s.cmd.live.filter (fun l => keyOf l.h != keyOf h) } }
  if noReply h && v.status == St.ok then
    { s with sbd := { s.sbd with from_ := s.sbd.from_.filter (fun e => e.1 != keyOf h) } }
  else sendReply orphan false rep s

/-- The interim reply ACCEPTED of a command; none when one has been given already (R397). -/
def accepted (h : Hdr) (opc w0 : Nat) (s : State) : State :=
  match liveOf s (keyOf h) with
  | none => s
  | some l =>
    if l.interim then s
    else
      let rep : Reply := ⟨h.src, h.tag, h.seq, opc, St.accepted, l.late, merNs s, w0, 0, 0⟩
      let s := { s with cmd := { s.cmd with live := s.cmd.live.map (fun x =>
          if keyOf x.h = keyOf h then { x with interim := true, reserve := x.reserve - 1 } else x) } }
      if noReply h then s else sendReply l.orphan true rep s

/-- Ends a list of accepted commands with one verdict each. -/
def finishAll (ls : List (Hdr × Nat)) (v : Verdict) (s : State) : State :=
  ls.foldl (fun s e => finish e.1 e.2 v s) s

/-! ## Acceptance -/

/-- An Imven command as a row of the table: its packet, its opcode, the PLEN values it allows, whether a field of it names
host memory, whether any master may issue it, the samples it demands, its own checks (R398 step 9) and its effect. -/
structure Row where
  i : Instr
  h : Hdr
  opc : Nat
  plens : List Nat
  host : Bool := false
  anyMaster : Bool := false
  pre : State → State := id
  chk : State → Option Verdict
  run : State → State

/-- SCHEDULED (R396). -/
def scheduled (h : Hdr) : Bool := h.flags.toNat.testBit 0
/-- ASAP_IF_LATE (R396). -/
def asapIfLate (h : Hdr) : Bool := h.flags.toNat.testBit 1

/-- The command is to be held until its target (R402). With ASAP_IF_LATE and a target that has passed it is due at once. -/
def toHold (r : Row) : Bool := (match infoOf r.opc with | some c => c.sched == .held | none => false) && scheduled r.h

/-- Checks 1 to 8 of R398, in order; `exp` is SEQ_EXP for an entry of a ring. -/
def checks (r : Row) (exp : Option Nat) (s : State) : Option Verdict :=
  if (match exp with | some e => r.h.seq.toNat != e | none => false) then some ⟨St.badParam, exp.getD 0, 0, 0⟩
  else match infoOf r.opc with
  | none => some (no St.badOpcode)
  | some c =>
    firstOf
      [(!r.plens.contains r.h.plen.toNat, no St.badLength),
       (r.h.rsv != 0 || r.h.flags.toNat ≥ 32 || (!scheduled r.h && mtOf r.h.target != 0) ||
         (scheduled r.h && c.sched == .notTaken) || !mtOk r.h.target, no St.badParam),
       (r.h.src == .side && r.host, no St.badParam),
       (c.cls != .observe && !r.anyMaster && !holdsLease s (masterOf r.h.src), no St.noLease),
       (c.cls == .privileged && !c.life.contains (lifeState s), no St.deniedLocked),
       (toHold r && s.cmd.sched.length ≥ 64, no St.noSpace),
       (toHold r && mtOf r.h.target < merNs s && !asapIfLate r.h, no St.timePassed)]

/-- The event a refusal of R398 raises. -/
def refusalEvent (r : Row) (exp : Option Nat) (v : Verdict) (s : State) : State :=
  if (match exp with | some e => r.h.seq.toNat != e | none => false) then raise 0x27 [] s
  else if v.status = St.noLease then raise 0x23 [(1, masterCode (masterOf r.h.src)), (8, r.opc)] s
  else s

/-- The budget of a command in Meridian ns from `t` (R403). -/
def deadlineFrom (t : Nat) (h : Hdr) (c : CmdInfo) : Option Nat :=
  if h.budget.toNat = 0xFFFFFFFF then none
  else if h.budget.toNat = 0 then c.budget.map (fun us => t + us * 1000)
  else some (t + h.budget.toNat * 1000)

/-- Replies a command may produce (R401): two for an opcode that can answer ACCEPTED. -/
def repliesOf (op : Nat) : Nat :=
  match infoOf op with
  | some c => if c.interim || c.sched == .held then 2 else 1
  | none => 1

/-- The lowest free scheduler slot. -/
def freeSlot (s : State) : Nat :=
  ((List.range 64).find? (fun k => !s.cmd.sched.any (fun e => e.slot == k))).getD 64

/-- The samples, the own checks and the effect of a command (R398 step 9). -/
def perform (r : Row) (s : State) : State :=
  let s := r.pre s
  match r.chk s with
  | some v => finish r.h r.opc v s
  | none => r.run s

/-- An in-service test holds the command back, if one does: it waits from now on, with event 0xF9 (R493). -/
def holdForTest (r : Row) (exp : Option Nat) (s : State) : Option State :=
  (testBlock r.opc r.i s).map (fun _ =>
    raise 0xF9 [] { s with
      cmd := { s.cmd with waits := ⟨r.i, r.h, r.opc, exp, some s.time.ref⟩ :: s.cmd.waits }
      bst := { s.bst with heldCount := s.bst.heldCount + 1 } })

/-- The source of a side-band command accepted on SB_T1 is the one notifications may go to (R453). -/
def noteT1 (h : Hdr) (s : State) : State :=
  match s.sbd.from_.find? (fun e => e.1 == keyOf h) with
  | some (_, f) => if f.t1 then { s with sbd := { s.sbd with last := some f } } else s
  | none => s

/-- The command becomes an accepted one (R398). -/
def admitLive (r : Row) (t : Nat) (s : State) : State :=
  let s := noteT1 r.h s
  match infoOf r.opc with
  | none => s
  | some c => { s with cmd := { s.cmd with accepted := s.cmd.accepted + 1, live := s.cmd.live ++
      [⟨r.h, r.opc, false, false, deadlineFrom t r.h c, c.stop, repliesOf r.opc, false, t⟩] } }

/-- Records the command as the last one taken from its source (R405). -/
def noteTaken (h : Hdr) (s : State) : State :=
  { s with cmd := { s.cmd with last := ⟨h.src, h.seq, h.tag, none⟩ :: s.cmd.last.filter (fun l => l.src != h.src) } }

/-- Side-band commands in flight (R411). -/
def sideInFlight (s : State) : Nat := (s.cmd.live.filter (fun l => l.h.src == .side)).length

/-- A taken packet is judged: answered ABORTED_DETACH during the quiesce (R545), else R411, then R398, then held (R402) or
performed. -/
def accept (r : Row) (exp : Option Nat) (s : State) : State :=
  let s := noteTaken r.h s
  if s.hwd.quiesce.isSome then finish r.h r.opc (no St.abortedDetach) s
  else if r.h.src == .side && sideInFlight s ≥ 8 then
    let due : Bool := match s.cmd.sbBusy with | some t => decide (t + nsPerSec ≤ s.time.ref) | none => true
    finish r.h r.opc (no St.busy) (if due then raise 0x29 [] { s with cmd := { s.cmd with sbBusy := some s.time.ref } }
      else s)
  else match checks r exp s with
  | some v =>
    finish r.h (if v.status = St.badOpcode then 0 else r.opc) v
      (refusalEvent r exp v { s with cmd := { s.cmd with refused := s.cmd.refused + 1 } })
  | none =>
    if toHold r then
      let slot := freeSlot s
      accepted r.h r.opc slot (admitLive r (max (merNs s) (mtOf r.h.target))
        { s with cmd := { s.cmd with sched := s.cmd.sched ++ [⟨slot, r.i, r.h, r.opc, mtOf r.h.target⟩] } })
    else match holdForTest r exp s with
      | some s' => s'
      | none => perform r (admitLive r (merNs s) s)

/-- CHAIN (R405). -/
def chained (h : Hdr) : Bool := h.flags.toNat.testBit 4
/-- FENCE_WAIT (R405). -/
def fenceWait (h : Hdr) : Bool := h.flags.toNat.testBit 3

/-- The command before this one from the same source (R405). -/
def before (s : State) (h : Hdr) : Option LastCmd := s.cmd.last.find? (fun l => l.src == h.src)

/-- The ordering conditions of R405 hold the command back. -/
def mustWait (h : Hdr) (s : State) : Bool :=
  (chained h && (match before s h with | some l => l.status == none | none => false)) ||
  (fenceWait h && (s.cmd.live.any (fun l => l.h.src == h.src)))

/-- A packet read from its source whose ordering conditions hold: a broken CHAIN, or acceptance (R405). -/
def takeUp (r : Row) (exp : Option Nat) (s : State) : State :=
  match (if chained r.h then before s r.h else none) with
  | some l =>
    if l.status = some St.ok ∨ l.status = some St.deferred then accept r exp s
    else finish r.h r.opc ⟨St.fault, 0x100, l.tag.toNat, l.status.getD 0⟩ (noteTaken r.h s)
  | none => accept r exp s

/-- A command waits. -/
def pushWait (w : Wait) (s : State) : State := { s with cmd := { s.cmd with waits := s.cmd.waits ++ [w] } }

/-- An earlier command of the source waits. -/
def hasWait (s : State) (x : Src) : Bool := s.cmd.waits.any (fun w => w.h.src == x)

/-- Writable completion entries not reserved (R401). -/
def cqRoom (s : State) (r : Nat) : Nat :=
  let x := ringOf s r
  x.n - 1 - unreleased x - reserved s r

/-- The module reads one submission entry: HEAD and SEQ_EXP advance, the entry goes back to the host (R395, R398). -/
def readEntry (r : Nat) (s : State) : State :=
  let x := ringOf s r
  move 0x20 2 1 1 (setRing r { x with head := (x.head + 1) % x.n, seqExp := (x.seqExp + 1) % 65536,
                                      waitRaised := false } s)

/-- The entry at the head of ring `k` is taken up: it waits for completion entries (R401), or is read and then waits
under R405 or is admitted. -/
def takeRing (r : Row) (k : Nat) (s : State) : State :=
  let x := ringOf s k
  if cqRoom s k < repliesOf r.opc then
    let s := pushWait ⟨r.i, r.h, r.opc, none, none⟩ s
    if x.waitRaised then s else raise 0x26 [] (setRing k { x with waitRaised := true } s)
  else
    let s := readEntry k s
    if mustWait r.h s then pushWait ⟨r.i, r.h, r.opc, some x.seqExp, none⟩ s else takeUp r (some x.seqExp) s

/-- Entries of a ring whose commands already wait unread. -/
def waitingUnread (s : State) (x : Src) : Nat := (s.cmd.waits.filter (fun w => w.h.src == x && w.seqExp == none)).length

/-- Opcodes Horizon answers in Dormant (R300). -/
def dormantOps : List Nat := [0x0001, 0x0002, 0x0004, 0x0701, 0x0601]

/-- A side-band message taken matches this packet. -/
def sbMatches (m : SbMsg) (r : Row) : Bool := m.h.seq == r.h.seq && m.h.tag == r.h.tag && m.opcode.toNat == r.opc

/-- An Imven packet reaches the front of its source (R398, R401, R405). A packet that stands in no ring and in no
side-band message does not exist, and nothing happens. -/
def command (r : Row) (s : State) : State :=
  match r.h.src with
  | .ring k =>
    let x := ringOf s k.val
    if s.cmd.up && s.cmd.ready && x.state == .running && !x.sqBad && waitingUnread s r.h.src < unread x then
      if hasWait s r.h.src then pushWait ⟨r.i, r.h, r.opc, none, none⟩ s else takeRing r k.val s
    else s
  | .side =>
    match s.cmd.sbReady with
    | [] => s
    | m :: rest =>
      if sbMatches m r then
        let s := { s with cmd := { s.cmd with sbReady := rest } }
        if hasWait s r.h.src || (!mainOn s && !dormantOps.contains r.opc) then
          pushWait ⟨r.i, r.h, r.opc, some r.h.seq.toNat, none⟩ s
        else if mustWait r.h s then pushWait ⟨r.i, r.h, r.opc, some r.h.seq.toNat, none⟩ s
        else takeUp r none s
      else s

/-- An always-next meaning. -/
def ok (s : State) : Host.Outcome State Fault Refusal := .next s

end Sys2Proof.Machine
end

