-- ==== Sys2Proof/Machine/NvOps.lean ====
section
/-! DEFINITION. The NV store's operations: finding records (R459, R465), writing one (R461, R462), deleting one (R463),
locks (R467, R469), counters (R471) and the flushed event log (R472). -/

namespace Sys2Proof.Machine

/-- The 64 bytes of an event record (R417), PHASE 0. -/
def recBytes (r : Rec) : List Byte :=
  let b := leBytes 1 r.source ++
    leBytes 1 (b2n r.coalesced + 2 * b2n r.recovery + 4 * b2n r.isEnd + 8 * b2n r.logged) ++
    leBytes 1 r.level ++ leBytes 1 r.outcome ++ leBytes 4 r.evseq ++ mtBytes r.time ++ leBytes 2 r.overflow ++
    leBytes 4 r.rseq ++ leBytes 4 r.prior ++ leBytes 4 r.esc ++ bytesAt r.payload 0 28
  b ++ leBytes 4 (crc32c b)

/-- First slot of a partition (R457). -/
def partFirst (p : Nat) : Nat := [0, 192, 256, 448, 480].getD p 512
/-- Slots of a partition (R457). -/
def partSlots (p : Nat) : Nat := [192, 64, 192, 32, 32].getD p 0
/-- Partition of a slot (R457). -/
def slotPart (n : Nat) : Nat := if n < 192 then 0 else if n < 256 then 1 else if n < 448 then 2 else if n < 480 then 3 else 4

/-- The content of a slot; none when it is entirely zero. -/
def slotGet (s : State) (n : Nat) : Option NvSlot := (s.nv.slots.find? (fun e => e.1 == n)).map (·.2)

/-- Sets the content of a slot, keeping slot numbers rising. -/
def slotPut : List (Nat × NvSlot) → Nat → NvSlot → List (Nat × NvSlot)
  | [], n, v => [(n, v)]
  | (m, w) :: r, n, v => if m = n then (n, v) :: r else if n < m then (n, v) :: (m, w) :: r else (m, w) :: slotPut r n v

/-- A slot's content becomes `v`. -/
def slotSet (n : Nat) (v : NvSlot) (s : State) : State := { s with nv := { s.nv with slots := slotPut s.nv.slots n v } }

/-- A slot becomes zero. -/
def slotClear (n : Nat) (s : State) : State := { s with nv := { s.nv with slots := s.nv.slots.filter (fun e => e.1 != n) } }

/-- MAGIC of a slot is set to zero (R463): what the slot is left with is invalid and not entirely zero. -/
def slotSpoil (n : Nat) (s : State) : State :=
  { s with nv := { s.nv with slots := s.nv.slots.map (fun e => if e.1 = n then (n, .bad) else e) } }

/-- The valid records of a key with their slots (R459). -/
def copiesOf (s : State) (part type key : Nat) : List (Nat × NvRec) :=
  s.nv.slots.filterMap (fun e => match e.2 with
    | .valid r => if r.part = part ∧ r.type = type ∧ r.key = key then some (e.1, r) else none
    | .bad => none)

/-- `a` is kept rather than `b` (R465, R466): the higher SEQ, then the higher BGEN, then the lower slot. -/
def newerRec (a b : Nat × NvRec) : Bool :=
  b.2.seq < a.2.seq || (b.2.seq == a.2.seq && (b.2.bgen < a.2.bgen || (b.2.bgen == a.2.bgen && a.1 < b.1)))

/-- The newest of a list of copies. -/
def newestOf : List (Nat × NvRec) → Option (Nat × NvRec)
  | [] => none
  | a :: r => match newestOf r with
    | none => some a
    | some b => if newerRec a b then some a else some b

/-- The newest valid record of a key (a tombstone included). -/
def newest (s : State) (part type key : Nat) : Option (Nat × NvRec) := newestOf (copiesOf s part type key)

/-- The payload of a key; absent when there is none or its newest record is a tombstone (R463). -/
def nvGet (s : State) (part type key : Nat) : Option (List Byte) :=
  match newest s part type key with
  | some (_, r) => if r.tomb then none else some r.payload
  | none => none

/-- A slot holds the newest valid record of its key (R462). -/
def holdsNewest (s : State) (n : Nat) : Bool :=
  match slotGet s n with
  | some (.valid r) => (match newest s r.part r.type r.key with | some (m, _) => m == n | none => false)
  | _ => false

/-- Slots of a partition that a write may take: neither newest of a key nor retired (R462). -/
def slotUsable (s : State) (n : Nat) : Bool := !holdsNewest s n && !s.nv.retired.contains n

/-- The slots of a partition in pointer order, from the slot after its pointer. -/
def slotsFrom (s : State) (part : Nat) : List Nat :=
  (List.range (partSlots part)).map (fun i =>
    partFirst part + (s.nv.ptr.getD part 0 + 1 - partFirst part + i) % partSlots part)

/-- The next slot a write takes, or none (R462 step 2). -/
def nextSlot (s : State) (part : Nat) : Option Nat := (slotsFrom s part).find? (slotUsable s)

/-- The pointer enters a bank: its generation becomes one more than the highest of the partition (R461). -/
def enterBank (part b : Nat) (s : State) : State :=
  let banks := (List.range (partSlots part / 32)).map (· + partFirst part / 32)
  let top := banks.foldl (fun m b => max m (s.nv.bgen.getD b 0)) 0
  { s with nv := { s.nv with bgen := s.nv.bgen.set b (top + 1) } }

/-- The pointer moves up, or wraps, to slot `n`; it enters each bank whose first slot it reaches on its way (R461). -/
def movePtr (part n : Nat) (s : State) : State :=
  let way := (slotsFrom s part).takeWhile (· != n) ++ [n]
  let s := (way.filter (fun m => m % 32 == 0)).foldl (fun s m => enterBank part (m / 32) s) s
  { s with nv := { s.nv with ptr := s.nv.ptr.set part n } }

/-- A slot failed its read-back: it is retired when it has failed before (R462 step 4). -/
def slotFailed (n : Nat) (s : State) : State :=
  let s := raise 0xE5 [] (slotSet n .bad s)
  if s.nv.failed.contains n then { s with nv := { s.nv with retired := s.nv.retired ++ [n] } }
  else { s with nv := { s.nv with failed := s.nv.failed ++ [n] } }

/-- What a write comes to: a refusal, or the SEQ written. -/
inductive NvResult where
  | seq (n : Nat)
  | refused (st : Nat)
deriving DecidableEq, Repr

/-- One attempt to write a record into the next slot; `bad` is a read-back mismatch. None when no slot is found. -/
def nvAttempt (r : NvRec) (bad : Bool) (s : State) : Option State :=
  match nextSlot s r.part with
  | none => none
  | some n =>
    let s := movePtr r.part n s
    if bad then some (slotFailed n s)
    else
      let s := slotSet n (.valid { r with bgen := s.nv.bgen.getD (n / 32) 0 }) s
      some { s with nv := { s.nv with writes := s.nv.writes + 1 } }

/-- Writes a record (R462); `fails` attempts in a row fail their read-back (at most one retry). -/
def nvPut (part type key : Nat) (tomb : Bool) (pay : List Byte) (fails : Nat) (s : State) : State × NvResult :=
  let seq := match newest s part type key with | some (_, r) => r.seq + 1 | none => 1
  if 0xFFFFFFFF < seq then (s, .refused St.fault)
  else
    let r : NvRec := ⟨part, type, key, seq, tomb, 0, pay⟩
    match nvAttempt r (0 < fails) s with
    | none => (raise 0xE2 [] s, .refused St.noSpace)
    | some s1 =>
      if fails = 0 then (s1, .seq seq)
      else match nvAttempt r (1 < fails) s1 with
        | none => (raise 0xE2 [] s1, .refused St.noSpace)
        | some s2 => if fails = 1 then (s2, .seq seq) else (s2, .refused St.fault)

/-- A write of the module's own accord (R464). -/
def nvOwn (part type key : Nat) (pay : List Byte) (s : State) : State := (nvPut part type key false pay 0 s).1

/-- Deletes a key (R463): a tombstone, then MAGIC cleared in every older copy, then in the tombstone. -/
def nvDelete (part type key : Nat) (s : State) : State × NvResult :=
  match nvPut part type key true [] 0 s with
  | (s, .refused st) => (s, .refused st)
  | (s, .seq q) => ((copiesOf s part type key).foldl (fun s e => slotSpoil e.1 s) s, .seq q)

/-- The read (kind 0) or write (kind 1) password record of a partition (R467): 16 salt bytes and 48 digest bytes. -/
def passRec (s : State) (part kind : Nat) : Option (List Byte) := nvGet s 4 0x10 (2 * part + kind)

/-- The partition is locked for an access of a master (R467, R468). -/
def nvLocked (s : State) (m : Master) (part kind : Nat) : Bool :=
  (passRec s part kind).isSome && !s.nv.unlocks.contains (m, part, kind)

/-- The digest of a password (R467): partition code, access kind, salt, password. -/
def passDigest (part kind : Nat) (salt pw : List Byte) : List Byte :=
  sha384 (leBytes 1 part ++ leBytes 1 kind ++ salt ++ pw)

/-- The password matches the stored one of a partition and kind; an absent one is open (R467). -/
def passMatches (s : State) (part kind : Nat) (pw : List Byte) : Bool :=
  match passRec s part kind with
  | none => true
  | some p => passDigest part kind (p.take 16) pw == (p.drop 16).take 48

/-- A module or host counter (R471). -/
def counterGet (s : State) (key : Nat) : Nat := match nvGet s 1 0x20 key with | some p => leNat p | none => 0

/-- The module sets a counter of its own. -/
def counterSet (key v : Nat) (s : State) : State := nvOwn 1 0x20 key (leBytes 8 (v % 2 ^ 64)) s

/-- The period of a lock-out after `n` consecutive failures, in ns: none before the fifth, then 60 s doubling up to
3,600 s (R470). -/
def lockPeriod (n : Nat) : Nat := if n < 5 then 0 else min 3600 (60 * 2 ^ (n - 5)) * nsPerSec

/-- COUNTERS key of the password failures of a partition (DESIGN CHOICE, log entry 9). -/
def failKey (part : Nat) : Nat := 0x10 + part

/-- Records not yet flushed, oldest first (R472). -/
def unflushed (s : State) : List Rec := (s.evt.history.takeWhile (fun r => r.evseq != s.nv.flushed)).reverse

/-- Writes records to the log, 31 to a slot; `k` bounds the slots. -/
def flushChunks : Nat → List Rec → State → State
  | 0, _, s => s
  | k + 1, rs, s =>
    if rs.isEmpty then s
    else flushChunks k (rs.drop 31) (nvOwn 2 0x30 0 ((rs.take 31).flatMap recBytes) s)

/-- Flushes every record not yet flushed (R472, R423). -/
def nvFlush (s : State) : State :=
  let rs := unflushed s
  let s := flushChunks 34 rs s
  { s with nv := { s.nv with flushed := (match s.evt.history with | r :: _ => r.evseq | [] => s.nv.flushed),
                             lastFlush := s.time.ref } }

/-- Free slots of a partition (R476): slots a write may take. -/
def freeSlots (s : State) (part : Nat) : Nat :=
  ((List.range (partSlots part)).filter (fun i => slotUsable s (partFirst part + i))).length

/-- NVS_LOCKS (R476): bit 2 × partition + kind set while locked, for either master. -/
def nvLocks (s : State) : Nat :=
  (List.range 10).foldl (fun n i => n + b2n ((passRec s (i / 2) (i % 2)).isSome &&
    !(s.nv.unlocks.contains (.host, i / 2, i % 2) || s.nv.unlocks.contains (.sideBand, i / 2, i % 2))) * 2 ^ i) 0

/-- An unlock ends when its master loses the lease (R468). -/
def dropUnlocks (m : Master) (s : State) : State :=
  { s with nv := { s.nv with unlocks := s.nv.unlocks.filter (fun e => e.1 != m) } }

/-- The start-up scan (R465, R466): slots as found, bank generations and pointers resumed, bad slots reported once, equal
sequences resolved and rewritten, event 0xE0. -/
def nvScan (found : List (Nat × NvFound)) (s : State) : State :=
  let s := found.foldl (fun s e => match e.2 with
    | .zero => slotClear e.1 s
    | .bad => slotSet e.1 .bad s
    | .valid p t k q tb g pay =>
      if p = slotPart e.1 ∧ 1 ≤ t ∧ 1 ≤ q ∧ 1 ≤ g ∧ pay.length ≤ 1984 then slotSet e.1 (.valid ⟨p, t, k, q, tb, g, pay⟩) s
      else slotSet e.1 .bad s) s
  let valid := s.nv.slots.filterMap (fun e => match e.2 with | .valid r => some (e.1, r) | .bad => none)
  let bad := (s.nv.slots.filter (fun e => e.2 == .bad)).length
  let gens := (List.range 16).map (fun b =>
    (valid.filter (fun e => e.1 / 32 == b)).foldl (fun m e => max m e.2.bgen) 0)
  let ptrs := (List.range 5).map (fun p =>
    match (valid.filter (fun e => e.2.part == p)).foldl (fun (o : Option (Nat × NvRec)) e => match o with
      | none => some e
      | some b => if b.2.bgen < e.2.bgen ∨ (b.2.bgen = e.2.bgen ∧ b.1 < e.1) then some e else some b) none with
    | some e => e.1
    | none => partFirst p + partSlots p - 1)
  let s := { s with nv := { s.nv with ready := true, ptr := ptrs, bgen := gens, failed := [], retired := [] } }
  let s := if bad = 0 then s else raise 0xE1 [] s
  -- ambiguous keys: the winner's rival shares its sequence with another payload
  let amb := valid.filterMap (fun e => match newest s e.2.part e.2.type e.2.key with
    | some w => if w.1 = e.1 then
        (valid.find? (fun o => o.1 != e.1 && o.2.part == e.2.part && o.2.type == e.2.type && o.2.key == e.2.key &&
          o.2.seq == e.2.seq && (o.2.payload != e.2.payload || o.2.tomb != e.2.tomb) && e.2.part != 2)).map (fun o => (e, o))
      else none
    | none => none)
  let s := amb.foldl (fun s eo =>
    let e := eo.1
    (nvPut e.2.part e.2.type e.2.key e.2.tomb e.2.payload 0
      (raise 0xE3 [(1, e.2.part), (1, e.2.type), (2, e.2.key), (2, e.1), (2, eo.2.1)] s)).1) s
  raise 0xE0 [(4, valid.length), (4, bad)] s

end Sys2Proof.Machine
end

