-- ==== Sys2Proof/Machine/SecOps.lean ====
section
/-! DEFINITION. Security operations other chapters call: the end of a firmware update (R524), of FIELD_OPEN (R513), and the
boot control record (R507). -/

namespace Sys2Proof.Machine

/-- Updates the security state. -/
def onSec (f : SecSt → SecSt) (s : State) : State := { s with sec := f s.sec }

/-! ## The boot control record (R507) -/

/-- The boot control record: slots as 0 and 1, 0xFF for none. -/
structure BootCtl where
  active : Nat
  trial : Nat
  trying : Nat
  sealed : Nat
  auto : Nat
  staged : Nat
deriving DecidableEq, Repr

/-- The record as stored; before the first write, the factory's (log entry 1). -/
def bootCtl (s : State) : BootCtl :=
  match nvGet s 3 0x01 0 with
  | some b => ⟨field b 0 1, field b 1 1, field b 2 1, field b 3 1, field b 4 1, field b 8 4⟩
  | none => ⟨0, 0xFF, 0xFF, b2n s.sec.sealedFactory, 0, 0⟩

/-- One write of the record (R507). -/
def putBoot (b : BootCtl) (s : State) : State :=
  nvOwn 3 0x01 0 ([b.active, b.trial, b.trying, b.sealed, b.auto].map (BitVec.ofNat 8) ++ zeroBytes 3 ++ leBytes 4 b.staged ++
    zeroBytes 4) s

/-- A slot's SEALED bit. -/
def isSealed (n : Nat) (s : State) : Bool := (bootCtl s).sealed.testBit n

/-- A slot's SEALED bit in a mask is set or cleared. -/
def sealTo (n : Nat) (v : Bool) (m : Nat) : Nat := if m.testBit n == v then m else m ^^^ 2 ^ n

/-! ## What ends -/

/-- Event 0xEE with its flags: bit 0 sealed, bit 1 aborted, bit 2 reverted (DEDUCED, log entry 25). -/
def stageEvent (flags : Nat) (s : State) : State := raise 0xEE [(1, flags)] s

/-- An open update ends without sealing (R524): a firmware command in flight completes with a status, where one is given;
the aborted event comes at once or after the next start-up. -/
def endUpdate (st : Option Nat) (later : Bool) (s : State) : State :=
  match s.sec.update with
  | none => s
  | some u =>
    let s := putBoot { bootCtl s with staged := 0 } (onSec (fun c => { c with update := none }) s)
    let s := match st with
      | some v =>
        let s := match u.erasing with | some h => finish h 0x0D01 (no v) s | none => s
        (match u.verifying with | some h => finish h 0x0D03 (no v) s | none => s)
      | none => s
    if later then { s with sec := { s.sec with abortedPend := true } } else stageEvent 2 s

/-- FIELD_OPEN ends (R513): the test access port closes, event 0xED with the closed flag (bit 1; bit 0 is open, log entry 52) and
the cause, for which the spec lists no codes. -/
def endFieldOpen (s : State) : State :=
  if s.sec.open_.isNone then s
  else raise 0xED [(1, 2), (1, Config.code 0xED s.free)] (drawn (onSec (fun c => { c with open_ := none }) s))

end Sys2Proof.Machine
end

