-- ==== Sys2Proof/Machine/BootOps.lean ====
section
/-! DEFINITION. The boot chain (chapter 18): fuses made firm (R504), the boot control record (R507), verification of an image
(R506, R508), the choice of a slot (R509) and confirmation (R510). -/

namespace Sys2Proof.Machine

/-! ## Fuses (R503, R504) -/

/-- The thermometer fuses below the field's value that are not blown at the tight margin. -/
def looseFuses (fs : List Fuse) : Nat :=
  ((fs.take (fuseValue fs)).filter (fun f => f != .blown)).length

/-- Every fuse below index `n` reads blown. -/
def blowTo (n : Nat) (fs : List Fuse) : List Fuse := fs.zipIdx.map (fun e => if e.2 < n then .blown else e.1)

/-- Fuses of both thermometer fields are made firm, with one event 0xEF for each re-blown (R504). -/
def firmFuses (s : State) : State :=
  let n := looseFuses s.sec.lifeFuses + looseFuses s.sec.rollFuses
  let s := onSec (fun c => { c with
    lifeFuses := blowTo (fuseValue c.lifeFuses) c.lifeFuses, rollFuses := blowTo (fuseValue c.rollFuses) c.rollFuses }) s
  (List.range n).foldl (fun s _ => raise 0xEF [] s) s

/-- The ROLLBACK fuse value. -/
def rollbackValue (s : State) : Nat := fuseValue s.sec.rollFuses

/-! ## Images (R506) -/

/-- The image in a slot. -/
def imageOf (n : Nat) (s : State) : FwImage := if n = 0 then s.sec.slotA else s.sec.slotB

/-- `n` bytes of a slot's programmed data at an offset; erased bytes read 0xFF. -/
def slotBytes (d : List Byte) (o n : Nat) : List Byte :=
  let t := (d.drop o).take n
  t ++ List.replicate (n - t.length) 0xFF

/-- VERSION of an image. -/
def imgVersion : FwImage → Nat
  | .factory v _ _ _ => v
  | .bytes d => leNat (slotBytes d 8 4)
  | .none => 0

/-- ROLLBACK of an image. -/
def imgRollback : FwImage → Nat
  | .factory _ r _ _ => r
  | .bytes d => leNat (slotBytes d 12 1)
  | .none => 0

/-- REVOKE of an image. -/
def imgRevoke : FwImage → Nat
  | .factory _ _ r _ => r
  | .bytes d => leNat (slotBytes d 13 1)
  | .none => 0

/-- KEY_INDEX of an image. -/
def imgKey : FwImage → Nat
  | .factory _ _ _ k => k
  | .bytes d => leNat (slotBytes d 6 1)
  | .none => 0

/-- BODY_HASH of an image. -/
def imgHash : FwImage → List Byte
  | .factory _ _ _ _ => Config.factoryHash
  | .bytes d => slotBytes d 32 48
  | .none => zeroBytes 48

/-- Checks 0x01 to 0x04 and 0x06 of R508 on the header and body bytes of a slot. -/
def imageBad (d : List Byte) (revoked fuse : Nat) : Option Nat :=
  let h := slotBytes d 0 512
  let key := field h 6 1
  let len := field h 16 4
  let x := field h 80 48
  let y := field h 128 48
  if field h 0 4 ≠ 0x4957465A ∨ field h 4 1 ≠ 1 ∨ field h 5 1 ≠ 1 ∨ field h 7 1 ≠ 0 ∨ 16 ≤ field h 13 1 ∨ field h 14 2 ≠ 0 ∨
      bytesAt h 20 12 ≠ zeroBytes 12 ∨ bytesAt h 176 80 ≠ zeroBytes 80 ∨ bytesAt h 352 160 ≠ zeroBytes 160 then some 0x01
  else if 3 < key ∨ sha384 (bytesAt h 80 96) ≠ Config.romKeyDigest key then some 0x02
  else if revoked.testBit key ∨ (field h 13 1).testBit key then some 0x03
  else if !ecVerify x y (digestNat (bytesAt h 0 256)) (field h 256 48) (field h 304 48) then some 0x04
  else if field h 12 1 < fuse then some 0x05
  else if len < 4096 ∨ 16776704 < len ∨ len % 64 ≠ 0 ∨ sha384 (slotBytes d 512 len) ≠ bytesAt h 32 48 then some 0x06
  else none

/-- Verification of an image (R508) but check 0x07. The image placed at manufacture is held to be signed and whole (log
entry 28). -/
def verifyImage (m : FwImage) (s : State) : Option Nat :=
  match m with
  | .none => imageBad [] s.sec.revoke (rollbackValue s)
  | .bytes d => imageBad d s.sec.revoke (rollbackValue s)
  | .factory _ r v k =>
    if s.sec.revoke.testBit k || v.testBit k then some 0x03 else if r < rollbackValue s then some 0x05 else none

/-- Verification of a slot at boot (R508). -/
def verifyBoot (n : Nat) (s : State) : Option Nat :=
  match verifyImage (imageOf n s) s with
  | some c => some c
  | none => if isSealed n s then none else some 0x07

/-! ## Confirmation (R510) -/

/-- The actions of R510 for a slot: ROLLBACK and REVOKE fuses are blown, and the other slot's SEALED bit is cleared when its
image would now fail check 0x03 or 0x05. -/
def confirmSlot (n : Nat) (s : State) : State :=
  let m := imageOf n s
  let s := onSec (fun c => { c with rollFuses := blowTo (imgRollback m) c.rollFuses, revoke := c.revoke ||| imgRevoke m % 16 }) s
  let o := imageOf (1 - n) s
  let b := bootCtl s
  if b.sealed.testBit (1 - n) &&
      (s.sec.revoke.testBit (imgKey o) || (imgRevoke o).testBit (imgKey o) || imgRollback o < rollbackValue s) then
    putBoot { b with sealed := sealTo (1 - n) false b.sealed } s
  else s

/-- FW_ACTIVATE confirm: ACTIVE becomes the running slot, TRYING is cleared, then R510 (R523). -/
def confirmRunning (n : Nat) (s : State) : State :=
  confirmSlot n (putBoot { bootCtl s with active := n, trying := 0xFF } s)

/-! ## Erasure (R512) -/

/-- Records of a partition that satisfy a condition are erased. -/
def nvErase (part : Nat) (f : NvRec → Bool) (s : State) : State :=
  { s with nv := { s.nv with slots := s.nv.slots.filter (fun e => match e.2 with
      | .valid r => !(r.part == part && f r)
      | .bad => slotPart e.1 != part) } }

/-- The erasure of a life-cycle state (R512): in RETURNED the owner keys, OWNER and the host types of CONFIG; in END_OF_LIFE
KEYS but the boot control record, OWNER and CONFIG. -/
def lifeErase (s : State) : State :=
  let s := nvErase 4 (fun _ => true) s
  if fuseValue s.sec.lifeFuses = 4 then
    nvErase 0 (fun r => 0x80 ≤ r.type) (nvErase 3 (fun r => r.type == 0x03 || r.type == 0x04) s)
  else nvErase 0 (fun _ => true) (nvErase 3 (fun r => !(r.type == 0x01 && r.key == 0)) s)

/-! ## The boot sequence (R509) -/

/-- Firmware of a slot starts: event 0xE8 with the slot, VERSION and the trial flag; a confirmation left unfinished is
completed (R510). -/
def startSlot (n : Nat) (s : State) : State :=
  let s := onSec (fun c => { c with running := some n }) s
  let b := bootCtl s
  let s := if b.active = n ∧ b.trying = 0xFF then confirmSlot n s else s
  raise 0xE8 [(1, n), (4, imgVersion (imageOf n s)), (1, b2n (b.trying == n))] s

/-- The candidate slot of R509 step 3, with the record's change. -/
def candidate (s : State) : Nat × State :=
  let b := bootCtl s
  if b.trial ≤ 1 then (b.trial, putBoot { b with trial := 0xFF, trying := b.trial } s)
  else if b.trying ≤ 1 then (b.active, stageEvent 4 (putBoot { b with trying := 0xFF } s))
  else (b.active, s)

/-- A slot fails verification: event 0xE9 with the slot and the code. -/
def bootFail (n code : Nat) (s : State) : State :=
  raise 0xE9 [(1, n), (1, code)] (onSec (fun c => { c with bootFailedActive := c.bootFailedActive || n == (bootCtl s).active }) s)

/-- The boot ROM runs (R504, R509, R510); the fuse shadow is written (R503) and an erasure cut short is repeated (R512). No
slot runs afterwards when the Recovery firmware has started. -/
def boot (s : State) : State :=
  let s := firmFuses (onSec (fun c => { c with running := none, bootFailedActive := false }) s)
  let life := fuseValue s.sec.lifeFuses
  let s := if s.sec.erasePend && (life == 4 || 5 ≤ life) then onSec (fun c => { c with erasePend := false }) (lifeErase s) else s
  let s := nvOwn 3 0x02 0 ((Config.shadowRecord life (rollbackValue s) s.sec.revoke).take 1984) s
  if 5 ≤ life then s
  else
    let (n, s) := candidate s
    match verifyBoot n s with
    | none => startSlot n s
    | some c =>
      let s := bootFail n c s
      let s := if (bootCtl s).trying = 0xFF then s else putBoot { bootCtl s with trying := 0xFF } s
      match verifyBoot (1 - n) s with
      | none => startSlot (1 - n) s
      | some c => bootFail (1 - n) c s

end Sys2Proof.Machine
end

