-- ==== Sys2Proof/Machine/Inflate.lean ====
section
/-! DEFINITION. Raw DEFLATE as R74, R75 and R79 hold a decoder to it, cut into the units of R89. The layout of the DEFLATE
fields themselves is that of RFC 1951 (PRESUMED, log entry 8). -/

namespace Sys2Proof.Machine

/-- Bits of a byte, least significant first. -/
def byteBits (b : Byte) : List Bool := (List.range 8).map (fun i => b.toNat.testBit i)

/-- Bits of bytes in stream order. -/
def streamBits (bs : List Byte) : List Bool := bs.flatMap byteBits

/-- The number of `n` bits, least significant first, and the bits after them. -/
def takeBits : Nat → List Bool → Option (Nat × List Bool)
  | 0, bs => some (0, bs)
  | _ + 1, [] => none
  | n + 1, b :: bs => (takeBits n bs).map (fun r => (b2n b + 2 * r.1, r.2))

/-- What a unit adds to the output: nothing, one byte, or a copy of a length from a distance. -/
inductive IOut where
  | none
  | byte (b : Byte)
  | copy (len dist : Nat)
deriving DecidableEq, Repr

/-- A unit: its bits and its output. -/
structure IUnit where
  bits : List Bool
  out : IOut
deriving DecidableEq, Repr

/-- A code word: length, code (most significant bit first), symbol. -/
structure CodeWord where
  len : Nat
  code : Nat
  sym : Nat
deriving DecidableEq, Repr

/-- Number of symbols of a length. -/
def lenCount (ls : List Nat) (l : Nat) : Nat := (ls.filter (fun x => x == l)).length

/-- The first code of a length (RFC 1951, 3.2.2). -/
def firstCode (ls : List Nat) : Nat → Nat
  | 0 => 0
  | l + 1 => 2 * (firstCode ls l + (if l = 0 then 0 else lenCount ls l))

/-- The code words of code lengths. -/
def codeOf (ls : List Nat) : List CodeWord :=
  (ls.zipIdx.filter (fun e => e.1 != 0)).map (fun e =>
    ⟨e.1, firstCode ls e.1 + lenCount (ls.take e.2) e.1, e.2⟩)

/-- Kraft sum in units of 2⁻¹⁵. -/
def kraft (ls : List Nat) : Nat := (ls.filter (fun l => l != 0)).foldl (fun n l => n + 2 ^ (15 - l)) 0

/-- Neither over-subscribed nor incomplete (R74). -/
def codeFull (ls : List Nat) : Bool := kraft ls == 32768

/-- A distance code R74 admits: full, or exactly one code of length 1. -/
def distFull (ls : List Nat) : Bool := codeFull ls || ls.filter (fun l => l != 0) == [1]

/-- How reading a symbol ends. -/
inductive Sym where
  | ok (sym : Nat) (rest : List Bool)
  | short
  | bad
deriving DecidableEq, Repr

/-- Reads one symbol, `n` bits at most, having read `c` of length `l`. -/
def readSym (t : List CodeWord) : Nat → Nat → Nat → List Bool → Sym
  | 0, _, _, _ => .bad
  | _ + 1, _, _, [] => .short
  | n + 1, l, c, b :: bs =>
    let c' := 2 * c + b2n b
    match t.find? (fun w => w.len == l + 1 && w.code == c') with
    | some w => .ok w.sym bs
    | none => readSym t n (l + 1) c' bs

/-- Lengths of the static literal/length code. -/
def staticLit : List Nat :=
  List.replicate 144 8 ++ List.replicate 112 9 ++ List.replicate 24 7 ++ List.replicate 8 8

/-- Lengths of the static distance code. -/
def staticDist : List Nat := List.replicate 32 5

/-- Base length and extra bits of symbols 257 to 285. -/
def lenTable : List (Nat × Nat) :=
  [(3, 0), (4, 0), (5, 0), (6, 0), (7, 0), (8, 0), (9, 0), (10, 0), (11, 1), (13, 1), (15, 1), (17, 1), (19, 2), (23, 2),
   (27, 2), (31, 2), (35, 3), (43, 3), (51, 3), (59, 3), (67, 4), (83, 4), (99, 4), (115, 4), (131, 5), (163, 5),
   (195, 5), (227, 5), (258, 0)]

/-- Base distance and extra bits of symbols 0 to 29. -/
def distTable : List (Nat × Nat) :=
  [(1, 0), (2, 0), (3, 0), (4, 0), (5, 1), (7, 1), (9, 2), (13, 2), (17, 3), (25, 3), (33, 4), (49, 4), (65, 5), (97, 5),
   (129, 6), (193, 6), (257, 7), (385, 7), (513, 8), (769, 8), (1025, 9), (1537, 9), (2049, 10), (3073, 10), (4097, 11),
   (6145, 11), (8193, 12), (12289, 12), (16385, 13), (24577, 13)]

/-- Order of the code-length code lengths. -/
def clOrder : List Nat := [16, 17, 18, 0, 8, 7, 9, 6, 10, 5, 11, 4, 12, 3, 13, 2, 14, 1, 15]

/-- Where a decoder stands in a DEFLATE stream. -/
inductive IPhase where
  | head
  | align (fin : Bool)
  | stored (fin : Bool) (left : Nat)
  | hlit (fin : Bool)
  | hdist (fin : Bool) (nl : Nat)
  | hclen (fin : Bool) (nl nd : Nat)
  | cl (fin : Bool) (nl nd nc : Nat) (acc : List Nat)
  | lens (fin : Bool) (nl nd : Nat) (t : List CodeWord) (acc : List Nat)
  | syms (fin : Bool) (lt dt : List CodeWord)
  | done
deriving DecidableEq, Repr

/-- One step of a decoder: a unit, a failed check of R79, or too few bits. -/
inductive IStep where
  | unit (rest : List Bool) (out : IOut) (next : IPhase)
  | err (code : Nat)
  | short
deriving DecidableEq, Repr

/-- The phase after a DEFLATE block. -/
def afterBlock (fin : Bool) : IPhase := if fin then .done else .head

/-- A field of `n` bits, judged by `f`. -/
def readField (n : Nat) (bs : List Bool) (f : Nat → List Bool → IStep) : IStep :=
  match takeBits n bs with
  | some (v, r) => f v r
  | none => .short

/-- The phase after the lengths of both codes are known (R74). -/
def startSyms (fin : Bool) (nl nd : Nat) (ls : List Nat) (r : List Bool) : IStep :=
  let l := ls.take nl
  let d := (ls.drop nl).take nd
  if codeFull l && distFull d then .unit r .none (.syms fin (codeOf l) (codeOf d)) else .err 0x05

/-- More code lengths `new` join `acc`. -/
def addLens (fin : Bool) (nl nd : Nat) (t : List CodeWord) (acc new : List Nat) (r : List Bool) : IStep :=
  let a := acc ++ new
  if nl + nd < a.length then .err 0x05
  else if a.length = nl + nd then startSyms fin nl nd a r
  else .unit r .none (.lens fin nl nd t a)

/-- A length or distance symbol with its extra bits. -/
def withExtra (e : Nat × Nat) (bs : List Bool) : Option (Nat × List Bool) :=
  (takeBits e.2 bs).map (fun r => (e.1 + r.1, r.2))

/-- The distance of a match of length `len`. -/
def readDist (fin : Bool) (lt dt : List CodeWord) (len : Nat) (bs : List Bool) : IStep :=
  match readSym dt 15 0 0 bs with
  | .short => .short
  | .bad => .err 0x06
  | .ok s r =>
    match distTable[s]? with
    | none => .err 0x06
    | some e => (match withExtra e r with
      | none => .short
      | some (d, r) => .unit r (.copy len d) (.syms fin lt dt))

/-- One symbol of a DEFLATE block. -/
def readLit (fin : Bool) (lt dt : List CodeWord) (bs : List Bool) : IStep :=
  match readSym lt 15 0 0 bs with
  | .short => .short
  | .bad => .err 0x06
  | .ok s r =>
    if s < 256 then .unit r (.byte (BitVec.ofNat 8 s)) (.syms fin lt dt)
    else if s = 256 then .unit r .none (afterBlock fin)
    else match lenTable[s - 257]? with
      | none => .err 0x06
      | some e => (match withExtra e r with
        | none => .short
        | some (n, r) => readDist fin lt dt n r)

/-- A code-length symbol (RFC 1951, 3.2.7). -/
def readLen (fin : Bool) (nl nd : Nat) (t : List CodeWord) (acc : List Nat) (bs : List Bool) : IStep :=
  match readSym t 7 0 0 bs with
  | .short => .short
  | .bad => .err 0x06
  | .ok s r =>
    if s < 16 then addLens fin nl nd t acc [s] r
    else if s = 16 then
      (match acc.getLast? with
       | none => .err 0x05
       | some p => readField 2 r (fun v r => addLens fin nl nd t acc (List.replicate (3 + v) p) r))
    else if s = 17 then readField 3 r (fun v r => addLens fin nl nd t acc (List.replicate (3 + v) 0) r)
    else readField 7 r (fun v r => addLens fin nl nd t acc (List.replicate (11 + v) 0) r)

/-- Code-length code lengths by symbol. -/
def clLens (acc : List Nat) : List Nat :=
  (List.range 19).map (fun s => match (clOrder.zip acc).find? (fun e => e.1 == s) with | some e => e.2 | none => 0)

/-- One step of a decoder; `used` is the number of bits read so far. -/
def inflStep (ph : IPhase) (used : Nat) (bs : List Bool) : IStep :=
  match ph with
  | .done => .short
  | .head => readField 3 bs (fun v r =>
      let fin := v % 2 == 1
      if v / 2 = 0 then .unit r .none (.align fin)
      else if v / 2 = 1 then .unit r .none (.syms fin (codeOf staticLit) (codeOf staticDist))
      else if v / 2 = 2 then .unit r .none (.hlit fin) else .err 0x04)
  | .align fin =>
    let p := (8 - used % 8) % 8
    readField p bs (fun _ r => readField 32 r (fun v r =>
      let n := v % 65536
      if v / 65536 ≠ 65535 - n then .err 0x04
      else .unit r .none (if n = 0 then afterBlock fin else .stored fin n)))
  | .stored fin n => readField 8 bs (fun v r =>
      .unit r (.byte (BitVec.ofNat 8 v)) (if n ≤ 1 then afterBlock fin else .stored fin (n - 1)))
  | .hlit fin => readField 5 bs (fun v r => if 286 < 257 + v then .err 0x05 else .unit r .none (.hdist fin (257 + v)))
  | .hdist fin nl => readField 5 bs (fun v r => if 30 < 1 + v then .err 0x05 else .unit r .none (.hclen fin nl (1 + v)))
  | .hclen fin nl nd => readField 4 bs (fun v r => .unit r .none (.cl fin nl nd (4 + v) []))
  | .cl fin nl nd nc acc => readField 3 bs (fun v r =>
      let a := acc ++ [v]
      if a.length < nc then .unit r .none (.cl fin nl nd nc a)
      else if codeFull (clLens a) then .unit r .none (.lens fin nl nd (codeOf (clLens a)) []) else .err 0x05)
  | .lens fin nl nd t acc => readLen fin nl nd t acc bs
  | .syms fin lt dt => readLit fin lt dt bs

/-- How decoding a run of bits ends: the stream is complete, a check fails, or the bits run out. -/
inductive IEnd where
  | complete
  | err (code : Nat)
  | short
deriving DecidableEq, Repr

/-- The units of a stream, in order, and how they end; `n` bounds the steps. -/
def inflUnits : Nat → IPhase → Nat → List Bool → List IUnit × IEnd
  | 0, _, _, _ => ([], .short)
  | n + 1, ph, used, bs =>
    if ph = .done then ([], .complete)
    else match inflStep ph used bs with
    | .short => ([], .short)
    | .err c => ([], .err c)
    | .unit r o ph' =>
      let k := bs.length - r.length
      let t := inflUnits n ph' (used + k) r
      (⟨bs.take k, o⟩ :: t.1, t.2)

/-- The units of a payload. -/
def unitsOf (bs : List Byte) : List IUnit × IEnd :=
  let b := streamBits bs
  inflUnits (b.length + 2) .head 0 b

/-- Copies `n` bytes from `d` back, newest first. -/
def copyBack : Nat → Nat → List Byte → List Byte
  | 0, _, rev => rev
  | n + 1, d, rev => copyBack n d (rev.getD (d - 1) 0 :: rev)

/-- A decoder's progress through a block: output newest first, its length, the bits used. -/
structure IProg where
  rev : List Byte
  n : Nat
  used : Nat
deriving DecidableEq, Repr

/-- How a run through units ends: all of them, the output limit, or a failed check. -/
inductive IRun where
  | all
  | full
  | err (code : Nat)
deriving DecidableEq, Repr

/-- Runs units until the output holds `limit` bytes (R91); `orig` is ORIG_LEN (R77), distances are checked under R75. -/
def runUnits (limit orig : Nat) : List IUnit → IProg → IProg × IRun
  | [], p => (p, .all)
  | u :: us, p =>
    if limit ≤ p.n then (p, .full)
    else
      let used := p.used + u.bits.length
      match u.out with
      | .none => runUnits limit orig us { p with used := used }
      | .byte b =>
        if orig ≤ p.n then (p, .err 0x08) else runUnits limit orig us ⟨b :: p.rev, p.n + 1, used⟩
      | .copy len d =>
        if p.n < d then (p, .err 0x07)
        else if orig < p.n + len then (p, .err 0x08)
        else if limit < p.n + len then (⟨copyBack (limit - p.n) d p.rev, limit, used⟩, .full)
        else runUnits limit orig us ⟨copyBack len d p.rev, p.n + len, used⟩

/-- The original data of a complete stream that fills its payload exactly, ending within the last byte with zero bits
after it (R77). -/
def inflate (orig : Nat) (bs : List Byte) : Option (List Byte) :=
  let (us, e) := unitsOf bs
  if e ≠ .complete then none
  else
    let (p, r) := runUnits (orig + 1) orig us ⟨[], 0, 0⟩
    if r == .all && p.n == orig && ceilDiv p.used 8 == bs.length && ((streamBits bs).drop p.used).all (!·) then
      some p.rev.reverse
    else none

end Sys2Proof.Machine
end

