-- ==== Sys2Proof/Machine/PanelOps.lean ====
section
/-! DEFINITION. The Lival panel file (chapter 01): its checks in the order of the validation codes (R30, R31), the
description it gives (R24 to R28), the panel summary (R37) and the geometry of R11 to R18. -/

namespace Sys2Proof.Machine

/-! ## The file -/

/-- A directory entry (R22) with its own offset in the file. -/
structure SecEnt where
  at_ : Nat
  type : Nat
  ver : Nat
  off : Nat
  len : Nat
  crc : Nat
deriving DecidableEq, Repr

/-- A failed check: code, file offset, section type (R30). -/
structure PanelBad where
  code : Nat
  off : Nat
  type : Nat
deriving DecidableEq, Repr

/-- A signed 16-bit field. -/
def field16s (bs : List Byte) (o : Nat) : Int := signed 16 (field bs o 2)

/-- The `n` bytes from `o` are zero; bytes past the end of the file read as zero. -/
def zeroAt (bs : List Byte) (o n : Nat) : Bool := ((bs.drop o).take n).all (· == 0)

/-- The directory (R22). -/
def secEnts (bs : List Byte) : List SecEnt :=
  (List.range (field bs 12 2)).map (fun i =>
    let e := 64 + 16 * i
    ⟨e, field bs e 2, field bs (e + 2) 2, field bs (e + 4) 4, field bs (e + 8) 4, field bs (e + 12) 4⟩)

/-- The first failing check of a list of (condition, failure). -/
def firstBad : List (Bool × PanelBad) → Option PanelBad
  | [] => none
  | (c, v) :: r => if c then some v else firstBad r

/-- MODEL_NAME: characters 0x20 to 0x7E, then zero bytes (R21). -/
def nameOk (bs : List Byte) : Bool :=
  let n := (bs.drop 16).take 16
  let t := n.dropWhile (fun c => 0x20 ≤ c.toNat && c.toNat ≤ 0x7E)
  t.all (· == 0)

/-- The reserved fields and the padding of a section of a known type, as (offset, length) within the section, rising. -/
def reservedOf (bs : List Byte) (e : SecEnt) : List (Nat × Nat) :=
  if e.type = 1 then [(9, 1), (20, 12)]
  else if e.type = 2 then
    let n := 4 + 2 * (field bs e.off 2 + field bs (e.off + 2) 2)
    [(n, e.len - n)]
  else if e.type = 3 then
    let n := 8 + 2 * (field bs e.off 2 * field bs (e.off + 2) 2)
    [(4, 4), (n, e.len - n)]
  else if e.type = 4 then [(3, 1), (14, 2)] ++ (List.range 16).map (fun i => (26 + 16 * i, 6))
  else if e.type = 5 then [(8, 8)] else []

/-- A file byte that neither the header, the directory nor a section covers. -/
def uncovered (es : List SecEnt) (i : Nat) : Bool :=
  64 + 16 * es.length ≤ i && es.all (fun e => i < e.off || e.off + e.len ≤ i)

/-- The first uncovered byte that is not zero (R22). -/
def firstUncovered (bs : List Byte) (es : List SecEnt) : Option Nat :=
  (bs.zipIdx.find? (fun e => e.1 != 0 && uncovered es e.2)).map (·.2)

/-- Codes 0x01 to 0x04 (R31): the header. -/
def badHeader (bs : List Byte) (len : Nat) : Option PanelBad :=
  let n := field bs 12 2
  firstBad
    [(len < 208 || 134217728 < len || field bs 8 4 != len, ⟨0x01, 8, 0⟩),
     (field bs 0 4 != 0x4650564C, ⟨0x02, 0, 0⟩),
     (field bs 5 1 != 1, ⟨0x03, 5, 0⟩), (field bs 6 2 != 64, ⟨0x03, 6, 0⟩),
     (n < 4 || 16 < n || len < 64 + 16 * n, ⟨0x03, 12, 0⟩),
     (crc32c (bytesAt bs 64 (16 * n)) != field bs 32 4, ⟨0x04, 32, 0⟩),
     (crc32c (bytesAt bs 0 60) != field bs 60 4, ⟨0x04, 60, 0⟩)]

/-- Code 0x05 (R31): reserved fields, padding, uncovered bytes, MODEL_NAME. Uncovered bytes, which belong to no section,
come last. -/
def badZeros (bs : List Byte) (es : List SecEnt) : Option PanelBad :=
  firstBad ([(!zeroAt bs 14 2, ⟨0x05, 14, 0⟩), (!nameOk bs, ⟨0x05, 16, 0⟩), (!zeroAt bs 36 24, ⟨0x05, 36, 0⟩)] ++
    es.flatMap (fun e => (reservedOf bs e).map (fun r => (!zeroAt bs (e.off + r.1) r.2, ⟨0x05, e.off + r.1, e.type⟩))) ++
    [((firstUncovered bs es).isSome, ⟨0x05, (firstUncovered bs es).getD 0, 0⟩)])

/-- Two sections overlap. -/
def secOverlap (a b : SecEnt) : Bool := a.off < b.off + b.len && b.off < a.off + a.len

/-- Code 0x06 (R31): placement. -/
def badPlace (es : List SecEnt) (len : Nat) : Option PanelBad :=
  firstBad (es.zipIdx.map (fun e =>
    (e.1.off % 8 != 0 || e.1.off < 64 + 16 * es.length || len < e.1.off + e.1.len ||
      (es.take e.2).any (secOverlap e.1), ⟨0x06, e.1.at_ + 4, e.1.type⟩)))

/-- Code 0x07 (R31): SEC_CRC. -/
def badSecCrc (bs : List Byte) (es : List SecEnt) : Option PanelBad :=
  firstBad (es.map (fun e => (crc32c (bytesAt bs e.off e.len) != e.crc, ⟨0x07, e.at_ + 12, e.type⟩)))

/-- A section type the module knows (R23). -/
def knownSec (t : Nat) : Bool := (1 ≤ t && t ≤ 5) || (0x8000 ≤ t && t ≤ 0xFFFF)

/-- Code 0x08 (R31): unknown, duplicated or missing sections. -/
def badTypes (es : List SecEnt) : Option PanelBad :=
  firstBad (es.zipIdx.map (fun e =>
      (!knownSec e.1.type || (es.take e.2).any (fun x => x.type == e.1.type), ⟨0x08, e.1.at_, e.1.type⟩)) ++
    [1, 2, 4, 5].map (fun t => (!es.any (fun e => e.type == t), ⟨0x08, 64, t⟩)))

/-- The LENGTH of a section is right for its type (R23), by the counts it states itself. -/
def secLenOk (bs : List Byte) (e : SecEnt) : Bool :=
  e.len % 8 == 0 &&
  (if e.type = 1 then e.len == 32
   else if e.type = 2 then e.len == alignUp (4 + 2 * (field bs e.off 2 + field bs (e.off + 2) 2)) 8
   else if e.type = 3 then e.len == alignUp (8 + 2 * (field bs e.off 2 * field bs (e.off + 2) 2)) 8
   else if e.type = 4 then e.len == 272
   else if e.type = 5 then e.len == 16 else true)

/-- Code 0x09 (R31): SEC_VER and LENGTH. -/
def badLens (bs : List Byte) (es : List SecEnt) : Option PanelBad :=
  firstBad (es.flatMap (fun e => [(e.ver != 1, ⟨0x09, e.at_ + 2, e.type⟩), (!secLenOk bs e, ⟨0x09, e.at_ + 8, e.type⟩)]))

/-- The section of a type. -/
def secOf (es : List SecEnt) (t : Nat) : Option SecEnt := es.find? (fun e => e.type == t)

/-- Offset of the section of a type. -/
def secOff (es : List SecEnt) (t : Nat) : Nat := match secOf es t with | some e => e.off | none => 0

/-- A field of `n` bytes lies within a range. -/
def within (bs : List Byte) (o n lo hi : Nat) : Bool := lo ≤ field bs o n && field bs o n ≤ hi

/-- Codes 0x10 and 0x11 (R31, R24): GEOMETRY. -/
def badGeom (bs : List Byte) (es : List SecEnt) : Option PanelBad :=
  let g := secOff es 1
  let w := field bs g 2
  let h := field bs (g + 2) 2
  let lx := field bs (g + 4) 1
  let ly := field bs (g + 5) 1
  let nh := field bs (g + 7) 1
  let nb := field bs (g + 8) 1
  let br := field bs (g + 10) 2
  firstBad
    [(!within bs g 2 16 15360, ⟨0x10, g, 1⟩), (!within bs (g + 2) 2 16 8640, ⟨0x10, g + 2, 1⟩),
     (!within bs (g + 4) 1 2 8, ⟨0x10, g + 4, 1⟩), (!within bs (g + 5) 1 2 8, ⟨0x10, g + 5, 1⟩),
     (!within bs (g + 6) 1 1 4, ⟨0x10, g + 6, 1⟩), (!within bs (g + 7) 1 1 2, ⟨0x10, g + 7, 1⟩),
     (!within bs (g + 8) 1 1 64, ⟨0x10, g + 8, 1⟩), (!within bs (g + 12) 4 20000 1000000, ⟨0x10, g + 12, 1⟩),
     (!within bs (g + 16) 4 20000 1000000, ⟨0x10, g + 16, 1⟩),
     (w % nh != 0 || 7680 < w / nh || (w / nh) % lx != 0, ⟨0x11, g, 1⟩), (h % nb != 0, ⟨0x11, g + 2, 1⟩),
     (br != h / nb || br % ly != 0, ⟨0x11, g + 10, 1⟩)]

/-- Code 0x12 (R31): the counts of DIRECTIONS and CORRECTION, in directory order. -/
def badCounts (bs : List Byte) (es : List SecEnt) : Option PanelBad :=
  let g := secOff es 1
  let lx := field bs (g + 4) 1
  let ly := field bs (g + 5) 1
  firstBad (es.flatMap (fun e =>
    if e.type = 2 then
      [(field bs e.off 2 != lx * field bs (g + 6) 1, ⟨0x12, e.off, 2⟩), (field bs (e.off + 2) 2 != ly, ⟨0x12, e.off + 2, 2⟩)]
    else if e.type = 3 then
      [(field bs e.off 2 != field bs g 2 / lx, ⟨0x12, e.off, 3⟩),
       (field bs (e.off + 2) 2 != field bs (g + 2) 2 / ly, ⟨0x12, e.off + 2, 3⟩)]
    else []))

/-- The entries of a direction table are in range and strictly monotonic up to entry `i` (R25). -/
def angleOk (t : List Int) (i : Nat) : Bool :=
  let v := t.getD i 0
  let before := t.getD (i - 1) 0
  decide (-8999 ≤ v) && decide (v ≤ 8999) &&
  (i == 0 || if decide (t.getD 0 0 < t.getD 1 0) then decide (before < v) else decide (v < before))

/-- The azimuth and elevation tables of a file. -/
def anglesOf (bs : List Byte) (es : List SecEnt) : List Int × List Int :=
  let d := secOff es 2
  let nh := field bs d 2
  ((List.range nh).map (fun i => field16s bs (d + 4 + 2 * i)),
   (List.range (field bs (d + 2) 2)).map (fun i => field16s bs (d + 4 + 2 * nh + 2 * i)))

/-- Code 0x13 (R31): angles. -/
def badAngles (bs : List Byte) (es : List SecEnt) : Option PanelBad :=
  let d := secOff es 2
  let (az, el) := anglesOf bs es
  firstBad ((List.range az.length).map (fun i => (!angleOk az i, ⟨0x13, d + 4 + 2 * i, 2⟩)) ++
    (List.range el.length).map (fun i => (!angleOk el i, ⟨0x13, d + 4 + 2 * az.length + 2 * i, 2⟩)))

/-- Codes 0x20 and 0x21 (R31, R27): STEERING. -/
def badSteer (bs : List Byte) (es : List SecEnt) : Option PanelBad :=
  let g := secOff es 1
  let t := secOff es 4
  let ceil := field bs (t + 10) 2
  let low := fun (i : Nat) => field16s bs (t + 16 + 16 * i)
  firstBad
    ([(field bs t 1 != 16, ⟨0x20, t, 4⟩), (field bs (t + 1) 1 != field bs (g + 8) 1, ⟨0x20, t + 1, 4⟩),
      (field bs (t + 2) 1 != field bs (g + 6) 1, ⟨0x20, t + 2, 4⟩), (!within bs (t + 4) 4 1000 1000000, ⟨0x20, t + 4, 4⟩),
      (!within bs (t + 8) 2 2000 6000, ⟨0x20, t + 8, 4⟩), (!within bs (t + 10) 2 1 4095, ⟨0x20, t + 10, 4⟩),
      (!within bs (t + 12) 2 1 65535, ⟨0x20, t + 12, 4⟩)] ++
     (List.range 16).flatMap (fun i =>
       let b := t + 16 + 16 * i
       [(decide (low i < -550) || decide (1250 < low i), ⟨0x20, b, 4⟩), (!within bs (b + 2) 2 0 ceil, ⟨0x20, b + 2, 4⟩),
        (!within bs (b + 4) 2 (field bs (b + 2) 2) ceil, ⟨0x20, b + 4, 4⟩), (!within bs (b + 6) 2 0 2000, ⟨0x20, b + 6, 4⟩),
        (!within bs (b + 8) 2 100 20000, ⟨0x20, b + 8, 4⟩)]) ++
     (List.range 16).map (fun i =>
       ((if i = 0 then decide (-400 < low 0) else decide (low i ≤ low (i - 1))), ⟨0x21, t + 16 + 16 * i, 4⟩)))

/-- Code 0x30 (R31, R28): LINK. -/
def badLink (bs : List Byte) (es : List SecEnt) : Option PanelBad :=
  let l := secOff es 5
  firstBad
    [(field bs l 4 == 0, ⟨0x30, l, 5⟩), (!within bs (l + 4) 1 1 30, ⟨0x30, l + 4, 5⟩),
     (field bs (l + 5) 1 != 2, ⟨0x30, l + 5, 5⟩), (!within bs (l + 6) 2 5 60, ⟨0x30, l + 6, 5⟩)]

/-- The first failure of several groups of checks, each made only when those before it pass. -/
def thenBad (a : Option PanelBad) (b : Unit → Option PanelBad) : Option PanelBad :=
  match a with
  | some x => some x
  | none => b ()

/-- The checks of R31 in the order of their codes. -/
def panelBad (bs : List Byte) (len : Nat) : Option PanelBad :=
  let es := secEnts bs
  thenBad (badHeader bs len) fun _ => thenBad (badZeros bs es) fun _ => thenBad (badPlace es len) fun _ =>
  thenBad (badSecCrc bs es) fun _ => thenBad (badTypes es) fun _ => thenBad (badLens bs es) fun _ =>
  thenBad (badGeom bs es) fun _ => thenBad (badCounts bs es) fun _ => thenBad (badAngles bs es) fun _ =>
  thenBad (badSteer bs es) fun _ => badLink bs es

/-! ## The description -/

/-- Temperature bands of a STEERING section (R27). -/
def bandsOf (st : List Byte) : List TBand :=
  (List.range 16).map (fun i =>
    let b := 16 + 16 * i
    ⟨field16s st b, field st (b + 2) 2, field st (b + 4) 2, field st (b + 6) 2, field st (b + 8) 2⟩)

/-- The description that GEOMETRY, STEERING and LINK sections give, directions and correction left empty. -/
def descOf (crc : Nat) (head g st l : List Byte) : PanelDesc :=
  { w := field g 0 2, h := field g 2 2, lx := field g 4 1, ly := field g 5 1, p := field g 6 1, nh := field g 7 1,
    nb := field g 8 1, az := [], el := [], corr := [], thermNom := field st 4 4, thermB := field st 8 2,
    ampCeil := field st 10 2, dcLimit := field st 12 2, bands := bandsOf st, modelCode := field l 0 4, fwd := field l 4 1,
    maxRate := field l 6 2, crc := crc, head := head, geom := g, steer := st, link := l }

/-- The bytes of the section of a type. -/
def secBytes (bs : List Byte) (es : List SecEnt) (t : Nat) : List Byte :=
  match secOf es t with | some e => bytesAt bs e.off e.len | none => []

/-- The description of a valid file. -/
def panelOf (bs : List Byte) : PanelDesc :=
  let es := secEnts bs
  let (az, el) := anglesOf bs es
  { descOf (crc32c bs) (bytesAt bs 0 (64 + 16 * es.length)) (secBytes bs es 1) (secBytes bs es 4) (secBytes bs es 5) with
    az := az, el := el,
    corr := (match secOf es 3 with
      | some e => bytesAt bs (e.off + 8) (2 * (field bs e.off 2 * field bs (e.off + 2) 2))
      | none => []) }

/-- The panel summary record (R37): header, directory, GEOMETRY, STEERING, LINK, panel description CRC. -/
def summaryBytes (d : PanelDesc) : List Byte := d.head ++ d.geom ++ d.steer ++ d.link ++ leBytes 4 d.crc

/-- The description a summary record gives. -/
def summaryParse (bs : List Byte) : PanelDesc :=
  let n := 64 + 16 * field bs 12 2
  descOf (field bs (n + 320) 4) (bytesAt bs 0 n) (bytesAt bs n 32) (bytesAt bs (n + 32) 272) (bytesAt bs (n + 304) 16)

/-- The summary held in the NV store is taken as the description, the full one being absent (R37, R38). -/
def panelFromNv (s : State) : State :=
  { s with pnl := { desc := (nvGet s 0 0x01 0).map summaryParse, full := false, load := none } }

/-! ## Geometry (R11 to R18) -/

/-- Columns per half (R15). -/
def PanelDesc.wh (d : PanelDesc) : Nat := d.w / d.nh
/-- Row pitch RP (R18). -/
def PanelDesc.rp (d : PanelDesc) : Nat := 64 * ceilDiv (3 * d.wh) 64
/-- Bytes of one phase block (R18). -/
def PanelDesc.block (d : PanelDesc) : Nat := d.rp * d.h
/-- Rows per band (R14). -/
def PanelDesc.bandRows (d : PanelDesc) : Nat := d.h / d.nb
/-- Hogel columns. -/
def PanelDesc.hx (d : PanelDesc) : Nat := d.w / d.lx
/-- Hogel rows. -/
def PanelDesc.hy (d : PanelDesc) : Nat := d.h / d.ly
/-- Rays per frame, all phases. -/
def PanelDesc.rays (d : PanelDesc) : Nat := d.w * d.h * 3 * d.p
/-- Views: horizontal times vertical directions. -/
def PanelDesc.views (d : PanelDesc) : Nat := d.lx * d.p * d.ly

/-- Byte offset of subpixel `c` of column `x` (within the half) and row `y` in phase slot `q` of a half's slot (R18). -/
def PanelDesc.byteAt (d : PanelDesc) (q y x c : Nat) : Nat := q * d.block + y * d.rp + 3 * x + c

/-- dx and dy of hogel (x, y): (0, 0) without a CORRECTION section (R19, R23, R26). -/
def PanelDesc.corrAt (d : PanelDesc) (x y : Nat) : Int × Int :=
  let i := 2 * (y * d.hx + x)
  (signed 8 (field d.corr i 1), signed 8 (field d.corr (i + 1) 1))

/-- rnd of R107. -/
def rnd (a : Int) (n : Nat) : Int := floorDiv (a + (n / 2 : Nat)) n

/-- SYN_VSCALE as R106 computes it, before clamping. -/
def vscaleOf (d : PanelDesc) : Nat :=
  let nv := d.el.length
  if nv ≤ 1 then 256
  else
    let e := (d.el.getLastD 0 - d.el.headD 0).natAbs
    let a := (d.az.getLastD 0 - d.az.headD 0).natAbs
    (rnd ((256 * e * (d.az.length - 1) : Nat) : Int) (a * (nv - 1))).toNat

/-- The phase list of a mode on a panel of `p` phases (R16); Still-air's is that of the frame it shows. -/
def phasesOf (m : Mode) (p : Nat) : List Nat :=
  match m with
  | .swift => [0, 2]
  | .flat | .starlight => [0]
  | _ => List.range p

/-- The description in force. -/
def desc? (s : State) : Option PanelDesc := s.pnl.desc

/-- PANEL_STATE (R40). -/
def panelState (s : State) : Nat := if s.pnl.desc.isNone then 0 else if s.pnl.full then 2 else 1

/-- The master of the PANEL_LOAD could not change the summary (R37): CONFIG is write-locked and the summary would change. -/
def summaryDenied (m : Master) (d : PanelDesc) (s : State) : Bool :=
  nvLocked s m 0 1 && nvGet s 0 0x01 0 != some (summaryBytes d)

/-- The checks of R38: what a lit mode needs of the description is held. -/
def panelServes (m : Mode) (s : State) : Bool :=
  !isLit m || (s.pnl.desc.isSome && (m == .starlight || m == .flat || s.pnl.full))

end Sys2Proof.Machine
end

