-- ==== Sys2Proof/Machine/GridOps.lean ====
section
/-! DEFINITION. The frame grid (R10, R167), the band instants (R170), the lane-rate classes (R196) and the boundaries of
changes (R197). Instants are Meridian ns. -/

namespace Sys2Proof.Machine

/-! ## Modes and rates (R1) -/

/-- The rate column of R1. -/
def rateOk (m : Mode) (r : Nat) : Bool :=
  match m with
  | .starlight => r == 30 || r == 60
  | .flat => r == 60
  | .stillAir | .standard | .deep => 40 ≤ r && r ≤ 60
  | .swift | .cloudburst => 90 ≤ r && r ≤ 120
  | .skylight => r == 60 || r == 120
  | _ => r == 0

/-- Plane maximum of a mode (R1). -/
def modePlanes (m : Mode) : Nat := match m with | .deep => 48 | .standard | .swift | .cloudburst | .skylight => 24 | _ => 0

/-- Maximum VMAIN power of a mode, in mW (R1). -/
def modePower (m : Mode) : Nat :=
  match m with
  | .dormant => 0 | .starlight => 2500 | .dawn => 12000 | .stillAir => 16000 | .flat => 18000 | .standard => 28000
  | .swift => 28000 | .deep => 31000 | .cloudburst => 40000 | .skylight => 45000 | .overcast => 45000 | .recovery => 6000

/-- Rate code of a mode's lane-rate class, in 0.5 Gbit/s units (R196, R205); 0 for a dark mode. -/
def rateCode (m : Mode) (rate : Nat) : Nat :=
  match m with
  | .starlight => 5
  | .flat => 16
  | .stillAir | .standard | .swift | .deep => 32
  | .cloudburst => 60
  | .skylight => if rate = 120 then 60 else 32
  | _ => 0

/-- tb of R205, in ps. -/
def columnPs (code : Nat) : Nat := if code = 5 then 26400 else if code = 16 then 8250 else if code = 32 then 4125 else 2200

/-- The frame a half last showed in a light-field mode, as Still-air re-scans it. -/
def keptFrame (s : State) : Option Frame :=
  let get := fun (o : Option Nat) => match o with
    | some k => s.scn.frames.find? (fun f => f.k == k && f.committed)
    | none => none
  match get s.scn.headA.now.frame with
  | some f => some f
  | none => get s.scn.headB.now.frame

/-- NQ of a mode on the resident panel (R10, R16). -/
def nqOf (m : Mode) (s : State) : Nat :=
  match m with
  | .starlight | .flat => 1
  | .swift => 2
  | .stillAir => (match keptFrame s with
    | some f => f.phases.length
    | none => (match s.pnl.desc with | some d => d.p | none => 1))
  | _ => match s.pnl.desc with | some d => d.p | none => 1

/-- Phase list shown in the mode in force (R16). -/
def phasesNow (s : State) : List Nat :=
  let p := match s.pnl.desc with | some d => d.p | none => 1
  match s.mode.mode with
  | .stillAir => (match keptFrame s with | some f => f.phases | none => List.range p)
  | m => phasesOf m p

/-! ## Segments -/

/-- First boundary at or after `t` of the grid of rate `f` anchored on whole seconds. -/
def boundaryFrom (t f : Nat) : Nat :=
  let ta := t / nsPerSec * nsPerSec
  ta + ceilDiv ((t - ta) * f) nsPerSec * nsPerSec / f

/-- First boundary common to the grids of rates `f` and `g` at or after `t` (R167). -/
def commonFrom (t f g : Nat) : Nat := boundaryFrom t (Nat.gcd f g)

/-- The segment of rate `f` and `nq` slots that begins at boundary `c` with frame `kc`; without an index the segment is the
first one, k_a = 0 (R167). -/
def segFrom (c f nq : Nat) (kc : Option Nat) : Seg :=
  let ta := c / nsPerSec * nsPerSec
  let j := ceilDiv ((c - ta) * f) nsPerSec
  ⟨ta, f, nq, c, kc.getD j, j⟩

/-- Start of subframe `q` of frame `k` (R167). -/
def Seg.start (g : Seg) (k q : Nat) : Nat := g.ta + ((g.nq * (g.j + k - g.kc) + q) * nsPerSec) / (g.f * g.nq)

/-- First frame of a segment whose start lies at or after `t`. -/
def Seg.frameFrom (g : Seg) (t : Nat) : Nat := g.kc + (max g.j (ceilDiv ((t - g.ta) * g.f) nsPerSec) - g.j)

/-- The frame of a segment in which `t` falls. -/
def Seg.frameAt (g : Seg) (t : Nat) : Nat := g.kc + (ceilDiv ((t - g.ta + 1) * g.f) nsPerSec - 1 - g.j)

/-- The new segment of a change waiting for its boundary, when it leads into a lit mode with a grid (R197, R198). -/
def segAfter (s : State) : Option Seg :=
  match s.mode.change with
  | none => none
  | some x => if isLit x.target then
      some (segFrom (boundaryFrom x.c x.rate) x.rate (nqOf x.target s) (match x.k with
        | some k => some k
        | none => s.scn.lastK.map (· + 1)))
    else none

/-- A grid runs. -/
def gridRuns (s : State) : Bool := s.scn.seg.isSome

/-- The index of the frame in which Meridian instant `t` falls; none while the panel has no frame grid (R269). -/
def frameAt (t : Nat) (s : State) : Option Nat :=
  match s.scn.seg with
  | none => none
  | some g => if g.c ≤ t then some (g.frameAt t) else s.scn.lastK

/-- The first frame boundary at or after `t`, with its index (R182, R120). A change waiting for its boundary is taken into
account. -/
def frameFrom (t : Nat) (s : State) : Option (Nat × Nat) :=
  match s.scn.seg with
  | none => none
  | some g =>
    let k := if g.c ≤ t then g.frameFrom t else g.kc
    match s.mode.change, segAfter s with
    | some x, some n => if x.c ≤ g.start k 0 then
        (let k2 := if n.c ≤ t then n.frameFrom t else n.kc; some (n.start k2 0, k2))
      else some (g.start k 0, k)
    | _, _ => some (g.start k 0, k)

/-- S_Pk of a frame that has begun or is to come, in the segments known. -/
def frameStart (k : Nat) (s : State) : Nat :=
  match s.scn.seg with
  | none => 0
  | some g =>
    match s.mode.change, segAfter s with
    | some x, some n => if g.kc ≤ k ∧ g.start k 0 < x.c then g.start k 0 else if n.kc ≤ k then n.start k 0 else g.start k 0
    | _, _ => if g.kc ≤ k then g.start k 0 else (match s.scn.cur with
      | some u => u.seg.start k 0
      | none => g.start k 0)

/-! ## Subframes and band instants -/

/-- S_m of a subframe. -/
def Sub.at_ (u : Sub) : Nat := u.seg.start u.k u.q

/-- Index m of a subframe within its segment (R167). -/
def Sub.m (u : Sub) : Nat := u.seg.nq * u.k + u.q

/-- The subframe after `u`: in the segment in force when another has begun at `u`'s end, or in the one a waiting seamless
change begins there (R167, R170). -/
def nextSub (u : Sub) (s : State) : Sub :=
  if u.q + 1 < u.seg.nq then { u with q := u.q + 1 }
  else
    let same : Sub := ⟨u.seg, u.k + 1, 0⟩
    match s.scn.seg with
    | some g =>
      if g != u.seg then ⟨g, g.kc, 0⟩
      else (match s.mode.change, segAfter s with
        | some x, some n => if x.c ≤ same.at_ then ⟨n, n.kc, 0⟩ else same
        | _, _ => same)
    | none => same

/-- The subframe that starts next; none while no grid runs. -/
def comingSub (s : State) : Option Sub :=
  match s.scn.seg with
  | none => none
  | some g => match s.scn.cur with
    | none => some ⟨g, g.kc, 0⟩
    | some u => some (nextSub u s)

/-- Bands of the panel. -/
def bandsN (s : State) : Nat := match s.pnl.desc with | some d => d.nb | none => 1

/-- J(m, b) for b < NB (R170). -/
def bandAt (u : Sub) (b : Nat) (s : State) : Nat := u.at_ + b * ((nextSub u s).at_ - u.at_) / bandsN s

/-- J(m, b) for b up to NB + 1 (R170). -/
def bandInst (u : Sub) (b : Nat) (s : State) : Nat :=
  if b < bandsN s then bandAt u b s else bandAt (nextSub u s) (b - bandsN s) s

/-! ## Boundaries of changes (R197) -/

/-- The modes have one lane-rate class (R196). -/
def sameClass (m : Mode) (r : Nat) (m2 : Mode) (r2 : Nat) : Bool := rateCode m r == rateCode m2 r2 && rateCode m r != 0

/-- The boundary c of a change to a mode and rate with a target instant, and the frame index there (R197). Out of a mode
without a grid it is the target itself. -/
def changeBoundary (m : Mode) (rate target : Nat) (s : State) : Nat × Option Nat :=
  match s.scn.seg with
  | none => (target, none)
  | some g =>
    let t := max target g.c
    let c := if isLit m && sameClass s.mode.mode s.mode.rate m rate && rate != s.mode.rate then commonFrom t s.mode.rate rate
      else g.start (g.frameFrom t) 0
    (c, some (g.frameFrom c))

end Sys2Proof.Machine
end

