-- ==== Sys2Proof/Machine/SteeringOps.lean ====
section
/-! DEFINITION. The steering drive (chapter 08): the values in force (R249), settle limits (R250, R251), the panel
temperature (R245, R247), drive levels and DC accumulators (R236 to R243), powering and discharge (R241, R256). -/

namespace Sys2Proof.Machine

/-- Updates the steering state. -/
def onStd (f : StdSt → StdSt) (s : State) : State := { s with std := f s.std }

/-! ## Values in force -/

/-- A row of the temperature band table; an all-zero row without a panel description. -/
def bandRow (s : State) (i : Nat) : TBand :=
  match s.pnl.desc with
  | some d => d.bands.getD i ⟨0, 0, 0, 0, 0⟩
  | none => ⟨0, 0, 0, 0, 0⟩

/-- The effective band (R249). -/
def effBand (s : State) : Nat := (s.std.lock.getD (s.std.band.getD 0)) - s.std.steps

/-- Settle time Z in force, in µs (R249). -/
def settleNow (s : State) : Nat := (bandRow s (effBand s)).settle

/-- Amplitude code in force (R249). -/
def ampCode (s : State) : Nat :=
  match s.pnl.desc with
  | some d => (clampInt 0 d.ampCeil ((bandRow s (effBand s)).amp + s.std.trim)).toNat
  | none => 0

/-- Overdrive code in force (R249). -/
def odCode (s : State) : Nat :=
  match s.pnl.desc with
  | some d =>
    let a := ampCode s
    let o := clampInt 0 d.ampCeil ((bandRow s (effBand s)).odAmp + s.std.trim)
    max a (min o.toNat (4 * a / 3))
  | none => 0

/-- Overdrive time in force, in ns (R249). -/
def odTimeNs (s : State) : Nat := min (bandRow s (effBand s)).odTime (settleNow s) * 1000

/-- The settle limit of a mode at a rate, in µs; none for a mode that does not power the layer (R250). -/
def settleLimit (m : Mode) (rate : Nat) : Option Nat :=
  match m with
  | .stillAir | .standard | .swift | .deep => some 2500
  | .cloudburst => some 900
  | .skylight => some (if rate = 120 then 900 else 2500)
  | _ => none

/-- The effective bands that are to apply but have not been applied: a qualified band, a settle step, the settings of
STEER_CFG (R251). -/
def bandsToCome (s : State) : List Nat :=
  let qual := match s.std.qual, s.std.lock with | some b, none => [b] | _, _ => []
  let step := if s.std.stepNext then [effBand s - 1] else []
  let cfg := match s.std.wait with
    | some w => [w.lock.getD (s.std.qual.getD (s.std.band.getD 0))]
    | none => []
  qual ++ step ++ cfg

/-- Z for the tests of R251: the longest settle time of the effective band and of those to come. -/
def settleTest (s : State) : Nat :=
  ((effBand s :: bandsToCome s).map (fun b => (bandRow s b).settle)).foldl max 0

/-- A setting meets its settle limit (R251). -/
def settleOk (m : Mode) (rate : Nat) (s : State) : Bool :=
  match settleLimit m rate with
  | some l => decide (settleTest s ≤ l)
  | none => true

/-- The layer is powered (R236). -/
def layerPowered (s : State) : Bool := s.std.powered
/-- Reference ns since which the layer has been crowbarred; none while it is not. -/
def crowbarSince (s : State) : Option Nat := s.std.closedAt

/-! ## Panel temperature (R245) -/

/-- Scale of the fixed-point arithmetic of the conversion. -/
def lnScale : Nat := 2 ^ 80

/-- 2 artanh(y) by its series, `y` scaled: terms from y^(2i+1) / (2i+1), `n` of them. -/
def artanh2 : Nat → Nat → Int → Int → Int
  | 0, _, _, _ => 0
  | n + 1, i, y2, t => 2 * (t / (2 * i + 1 : Nat)) + artanh2 n (i + 1) y2 (t * y2 / (lnScale : Nat))

/-- ln 2, scaled: 2 artanh(1/3). -/
def ln2 : Int := artanh2 60 0 ((lnScale : Int) / 9) ((lnScale : Int) / 3)

/-- Halves or doubles a ratio a / b until it lies in [2/3, 4/3), counting the powers of two; `n` bounds the steps. -/
def normRatio : Nat → Nat → Nat → Int → Nat × Nat × Int
  | 0, a, b, e => (a, b, e)
  | n + 1, a, b, e =>
    if 4 * b ≤ 3 * a then normRatio n a (2 * b) (e + 1)
    else if 3 * a < 2 * b then normRatio n (2 * a) b (e - 1)
    else (a, b, e)

/-- ln(a / b), scaled. -/
def lnRatio (a b : Nat) : Int :=
  let (x, y, e) := normRatio 64 a b 0
  let t := (((x : Int) - y) * (lnScale : Nat)) / ((x + y : Nat) : Int)
  e * ln2 + artanh2 60 0 (t * t / (lnScale : Nat)) t

/-- Temperature in 0.1 °C of an ADC code (R245), THERM_OFFSET not added: 1 / (1 / 298.15 K + ln(Rt / THERM_NOM) / THERM_B)
rounded. -/
def thermTemp (d : PanelDesc) (n : Nat) : Int :=
  let l := lnRatio (10000 * n) ((4096 - n) * d.thermNom)
  let inv := (lnScale : Int) * 20 / 5963 + l / (d.thermB : Nat)
  floorDiv (10 * (lnScale : Nat) - 2731 * inv) inv

/-- A code of an open or shorted thermistor (R245). -/
def thermBad (n : Nat) : Bool := 4080 ≤ n || n ≤ 16

/-- The band that contains a temperature (R27). -/
def bandOfTemp (s : State) (t : Int) : Nat :=
  ((List.range 16).filter (fun i => i == 0 || decide ((bandRow s i).low ≤ t))).foldl max 0

/-- The target of a sample that qualifies for a move from band `i` (R247). -/
def bandTarget (s : State) (i : Nat) (t : Int) : Option Nat :=
  if i ≠ 0 ∧ t < (bandRow s i).low then some (bandOfTemp s t)
  else
    let js := (List.range 16).filter (fun j => i < j && decide ((bandRow s j).low + 15 ≤ t))
    js.getLast?

/-- The frame index an application of a band reports: the frame in progress, or all bits one while no grid runs. -/
def bandK (s : State) : Nat := match s.scn.seg with | some _ => (frameAt (merNs s) s).getD (2 ^ 64 - 1) | none => 2 ^ 64 - 1

/-- A band is applied: it is the band in force, settle steps are cleared, event 0xC1 (R248, R254). -/
def applyBand (b k : Nat) (s : State) : State :=
  raise 0xC1 [(1, s.std.band.getD 255), (1, b), (8, k)]
    (onStd (fun d => { d with band := some b, qual := none, steps := 0, stepNext := false, limitSaid := false }) s)

/-- A sample's temperature works on the band in force and the qualified band (R247, R248). -/
def bandSample (t : Int) (s : State) : State :=
  if s.pnl.desc.isNone then s
  else match s.std.band with
  | none => applyBand (bandOfTemp s t) (bandK s) s
  | some i =>
    match bandTarget s i t with
    | none => onStd (fun d => { d with count := 0 }) s
    | some j =>
      let n := s.std.count + 1
      if n < 3 then onStd (fun d => { d with count := n, target := j }) s
      else
        let s := onStd (fun d => { d with count := 0, target := j, qual := some j }) s
        if s.std.powered then s else applyBand j (bandK s) s

/-- A thermistor sample of ADC code `n` (R245, R246): a sensor fault counts as T_LOW[0] and raises event 0xC8 once until a
good sample; a thermistor whose reference test has failed counts as faulty (R492). -/
def thermSample (n : Nat) (s : State) : State :=
  match s.pnl.desc with
  | none => onStd (fun d => { d with code := n, lastSample := s.time.ref }) s
  | some p =>
    let bad := thermBad n || s.bst.adcBad
    let t := if bad then (bandRow s 0).low else thermTemp p n + s.std.offset
    let s := raiseIf (bad && !s.std.fault) 0xC8 [] s
    bandSample t (onStd (fun d => { d with code := n, temp := t, fault := bad, lastSample := s.time.ref }) s)

/-! ## Levels and accumulators -/

/-- The integral of the carrier without Π over [0, x) of a subframe, in ns (R237). -/
def carrierInt (tc x : Nat) : Nat := let r := x % tc; if 2 * r < tc then r else tc - r

/-- T_c in ns. -/
def carrierNs (s : State) : Nat := pv s 0x0F00 * 1000

/-- The integral of the carrier over [a, b), both in the subframe that began at `subAt` (R237). -/
def carrierOver (s : State) (a b : Nat) : Int :=
  let tc := carrierNs s
  let v : Int := (carrierInt tc (b - s.std.subAt) : Int) - carrierInt tc (a - s.std.subAt)
  if s.std.sign then -v else v

/-- What an output's drive adds to its accumulator over [a, b). -/
def driveOver (s : State) (o : OutDrive) (a b : Nat) : Int :=
  let c := max a (min o.odEnd b)
  o.od * carrierOver s a c + o.hold * carrierOver s c b

/-- The accumulators are integrated up to Meridian instant `t` (R242). -/
def stdIntegrate (t : Nat) (s : State) : State :=
  if !s.std.powered || t ≤ s.std.accAt then s
  else onStd (fun d => { d with
    acc := (d.acc.zip d.level).map (fun e => e.1 + driveOver s e.2 d.accAt t), accAt := t }) s

/-- An output takes a drive. -/
def setDrive (i : Nat) (o : OutDrive) (s : State) : State :=
  emit (.stdLevel i (if s.std.accAt < o.odEnd then o.od else o.hold)) (onStd (fun d => { d with level := d.level.set i o }) s)

/-- Index j of powered frame `k` (R236). -/
def poweredJ (s : State) (k : Nat) : Nat := k - s.std.firstK

/-- The group sign G of subframe slot `q` of frame `k` is −1 (R236). -/
def groupNeg (s : State) (nq k q : Nat) : Bool := (nq * poweredJ s k + q) % 2 == 1

/-- A value with the group sign. -/
def withSign (neg : Bool) (v : Int) : Int := if neg then -v else v

/-- Phases of the panel. -/
def phasesN (s : State) : Nat := match s.pnl.desc with | some d => d.p | none => 1

/-- The steering phase of subframe slot `q` (R16). -/
def phaseOf (s : State) (q : Nat) : Nat := (phasesNow s).getD q 0

/-- Segment output `p` of a half (R233). -/
def segOut (b : Bool) (p : Nat) : Nat := 64 + 4 * b2n b + p

/-- The segment outputs of a half are crowbarred on their own: it is absent, or has not rejoined since (R240). -/
def segDead (b : Bool) (s : State) : Bool :=
  if b then s.std.deadB || !s.plk.b.present else s.std.deadA || !s.plk.a.present

/-- Notes that a half's segment outputs are crowbarred on their own, or no longer. -/
def setDead (b v : Bool) (s : State) : State :=
  onStd (fun d => if b then { d with deadB := v } else { d with deadA := v }) s

/-- The segment outputs of a half that becomes absent are crowbarred (R240). -/
def crowbarHalf (b : Bool) (s : State) : State :=
  let s := stdIntegrate (merNs s) s
  setDead b true (if s.std.powered then (List.range 4).foldl (fun s p => setDrive (segOut b p) {} s) s else s)

/-- The segment group of a phase takes a level in each half that is present (R238, R240). -/
def driveSegs (p : Nat) (v : Int) (s : State) : State :=
  let one := fun (s : State) (b : Bool) => if segDead b s then s else setDrive (segOut b p) ⟨v, 0, v⟩ s
  one (one s false) true

/-- A subframe starts while the layer is powered (R237, R238): the carrier restarts, the segment group of its phase takes
−G × 2a / 3. -/
def stdSubframe (u : Sub) (s : State) : State :=
  if !s.std.powered then s
  else
    let s := stdIntegrate u.at_ s
    let s := onStd (fun d => { d with
      subAt := u.at_, edge := 1, accAt := max d.accAt u.at_,
      sign := ((u.seg.nq + 1) * poweredJ s u.k) % 2 == 1 }) s
    if phasesN s < 2 then s
    else driveSegs (phaseOf s u.q) (withSign (!groupNeg s u.seg.nq u.k u.q) (2 * ampCode s)) s

/-- Common `b` switches to the phase of subframe `u` at J(m, b) (R238, R239). At the last common the segment group of the
subframe before returns to 0 V. -/
def stdBand (u : Sub) (b t : Nat) (s : State) : State :=
  if !s.std.powered then s
  else
    let s := stdIntegrate t s
    let neg := groupNeg s u.seg.nq u.k u.q
    let a := ampCode s
    let o := odCode s
    let e := t + odTimeNs s
    let dr : OutDrive :=
      if phasesN s < 2 then ⟨withSign neg (3 * o), e, withSign neg (3 * a)⟩
      else ⟨withSign neg (3 * (o : Int) - 2 * a), e, withSign neg a⟩
    let s := setDrive b dr s
    let z := settleNow s * 1000
    let s := onStd (fun d => { d with edges := d.edges.modify b (fun x =>
      { x with settled := false, since := e, deadline := t + z + carrierNs s / 2, m := u.m }) }) s
    match s.scn.prev with
    | some v => if b + 1 = bandsN s ∧ 2 ≤ phasesN s ∧ phaseOf s v.q ≠ phaseOf s u.q then driveSegs (phaseOf s v.q) 0 s else s
    | none => s

/-- Every output's drive ends. -/
def stdQuiet (s : State) : State := onStd (fun d => { d with level := List.replicate 72 {} }) s

/-- The layer stops being powered (R256 step 1): the carrier stops, every output is driven to 0 V; pairs end, settle steps
are cleared, and what waited for a pair boundary applies (R241, R248, R254, R260, R7). -/
def stdDischarge (s : State) : State :=
  if !s.std.powered then s
  else
    let s := stdQuiet (stdIntegrate (merNs s) s)
    let s := onStd (fun d => { d with
      powered := false, discharge := some s.time.ref, steps := 0, stepNext := false, missPair := 0, limitSaid := false,
      lock := (match d.wait with | some w => w.lock | none => d.lock),
      trim := (match d.wait with | some w => w.trim | none => d.trim), wait := none }) s
    let s := pApply 2 s
    match s.std.qual with
    | some b => applyBand b (bandK s) s
    | none => s

/-- The crowbar closes directly, as when VMAIN is lost (R257). -/
def stdCrowbarNow (s : State) : State :=
  if s.std.powered then
    emit (.crowbar true) (onStd (fun d => { d with discharge := none, closedAt := some s.time.ref, owed := true }) (stdDischarge s))
  else s

/-- The accumulators are cleared once the crowbar has been closed without a break for STD_REST (R242). -/
def stdRest (s : State) : State :=
  match s.std.closedAt with
  | some t => if t + pv s 0x0F03 * 1000000 ≤ s.time.ref then onStd (fun d => { d with acc := List.replicate 72 0 }) s else s
  | none => s

/-- New pairs start at S_Pk of frame `k` (R241, R256): the crowbar opens, event 0xC0. -/
def stdPower (k : Nat) (s : State) : State :=
  if s.std.powered then s
  else
    let s := stdRest s
    raise 0xC0 [(8, k)] (emit (.crowbar false) (onStd (fun d => { d with
      powered := true, discharge := none, closedAt := none, firstK := k, pairs := 0, missPair := 0, accAt := merNs s,
      edges := List.replicate 72 {}, level := List.replicate 72 {} }) s))

/-- DC_LIMIT in mV × ns. -/
def dcLimit (s : State) : Int := match s.pnl.desc with | some d => (d.dcLimit : Int) * 1000000 | none => 0

/-- An accumulator is compared (R242, R243): trimming of the output in the next pair, the greatest magnitude kept. -/
def dcCompare (i : Nat) (s : State) : State :=
  let a : Int := ((s.std.acc.getD i 0).natAbs : Nat)
  onStd (fun d => { d with
    dcMax := max d.dcMax (a.toNat / 1000000),
    edges := d.edges.modify i (fun e => { e with trim := decide (dcLimit s ≤ 8 * a) }) }) s

/-- An output that reaches DC_LIMIT at its comparison (R244). -/
def dcHit (i : Nat) (s : State) : Bool := s.std.powered && decide (dcLimit s ≤ ((s.std.acc.getD i 0).natAbs : Nat))

/-- One pair of an output ends for the open-output check (R255): the peak of its first pair is kept, and a pair whose
charges all stay below 1/16 of it counts. -/
def openStep (e : EdgeSt) : EdgeSt :=
  match e.first with
  | none => { e with first := if e.peak = 0 then none else some e.peak, peak := 0, low := 0 }
  | some f => { e with peak := 0, low := if 16 * e.peak < f then e.low + 1 else 0 }

/-- A pair boundary at frame `k` (R241, R248, R254, R260, R7): the pair counts rise, waiting settings apply, the newest
qualified band and a settle step apply. -/
def pairBoundary (k : Nat) (s : State) : State :=
  let s := onStd (fun d => { d with
    pairs := d.pairs + 1, pairsTotal := d.pairsTotal + 1, missPair := 0, dcMax := 0 }) (pApply 2 s)
  let s := match s.std.wait with
    | some w => onStd (fun d => { d with lock := w.lock, trim := w.trim, wait := none, steps := 0, stepNext := false }) s
    | none => s
  let s := match s.std.qual with
    | some b => applyBand b k s
    | none => s
  if s.std.stepNext then onStd (fun d => { d with steps := d.steps + 1, stepNext := false }) s else s

/-- Frame `k` begins a pair (R241). -/
def isPairStart (k : Nat) (s : State) : Bool := s.std.powered && poweredJ s k % 2 == 0

end Sys2Proof.Machine
end

