-- ==== Sys2Proof/Machine/PanelLinkOps.lean ====
section
/-! DEFINITION. The panel link (chapter 07): the link budget (R206), training (R221 to R223), credits (R217), the sending
and resending of row packets (R208, R213, R219). A half is named by a truth value: false for A, true for B. -/

namespace Sys2Proof.Machine

/-! ## Halves -/

/-- The link of a half. -/
def plkOf (b : Bool) (s : State) : Plk := if b then s.plk.b else s.plk.a

/-- Updates the link of a half. -/
def onPlk (b : Bool) (f : Plk → Plk) (s : State) : State :=
  { s with plk := if b then { s.plk with b := f s.plk.b } else { s.plk with a := f s.plk.a } }

/-- The scan-out head of a half. -/
def headOf (b : Bool) (s : State) : Head := if b then s.scn.headB else s.scn.headA

/-- Updates the head of a half. -/
def onHead (b : Bool) (f : Head → Head) (s : State) : State :=
  { s with scn := if b then { s.scn with headB := f s.scn.headB } else { s.scn with headA := f s.scn.headA } }

/-- Scan-out events: the second half's numbers lie 0x10 above the first's (R202). -/
def scnEvt (b : Bool) (e : Nat) : Nat := e + 0x10 * b2n b

/-- The panel has a half B (R15). -/
def twoHalves (s : State) : Bool := match s.pnl.desc with | some d => d.nh == 2 | none => true

/-- The halves of the panel. -/
def halves (s : State) : List Bool := if twoHalves s then [false, true] else [false]

/-- The pool of a half's row credits (R367). -/
def creditPool (b : Bool) : Nat := 0x15 + b2n b
/-- The pool of a half's PEVT credits. -/
def pevtPool (b : Bool) : Nat := 0x17 + b2n b

/-- The fault domain of a half's link (R427). -/
def linkDomain (b : Bool) : Nat := 0x06 + b2n b
/-- The fault domain of a half's head (R427). -/
def headDomain (b : Bool) : Nat := 0x04 + b2n b

/-- Sends a half a DARK marker with its reason (R211). -/
def sendDark (b : Bool) (reason : Nat) (s : State) : State := emit (.markDark b reason) s

/-! ## The link budget (R206) -/

/-- Lanes wired: the lower of the LINK section and HELLO (R216). -/
def wiredLanes (b : Bool) (s : State) : Nat :=
  let l := match s.pnl.desc with | some d => d.fwd | none => 30
  match (plkOf b s).hello with | some h => min l h.lanes | none => l

/-- The highest rate code permitted (R205). -/
def maxRateCode (b : Bool) (s : State) : Nat :=
  let l := match s.pnl.desc with | some d => d.maxRate | none => 60
  match (plkOf b s).hello with | some h => min l h.rate | none => l

/-- Number of lanes of a mask. -/
def laneCount (m : Nat) : Nat := ((List.range 30).filter (fun i => m.testBit i)).length

/-- Blocks of a full row's packet (R206). -/
def rowBlocks (d : PanelDesc) : Nat := ceilDiv (3 * d.wh) 8 + 2

/-- The inequality of R206 with `nl` lanes. -/
def linkFits (d : PanelDesc) (m : Mode) (rate nq nl : Nat) : Bool :=
  let cr := ceilDiv (rowBlocks d) nl
  let tb := columnPs (rateCode m rate)
  if m == .starlight then true
  else if m == .flat then
    10 * (cr + 2) ≤ 9 * (nsPerSec / rate / d.h * 1000 / tb)
  else 10 * (d.h / d.nb * cr + 8) ≤ 9 * (nsPerSec / (rate * nq) / d.nb * 1000 / tb)

/-- Lanes R206 reckons with for a half entering a mode: those in use while the class stays, else the wired ones. -/
def budgetLanes (b : Bool) (m : Mode) (rate : Nat) (s : State) : Nat :=
  let p := plkOf b s
  if p.up && p.rate == rateCode m rate then laneCount p.lanes else wiredLanes b s

/-- A setting fits the link budget of every half (R206). -/
def linkOk (m : Mode) (rate : Nat) (s : State) : Bool :=
  match s.pnl.desc with
  | none => true
  | some d => (halves s).all (fun b => rateCode m rate ≤ maxRateCode b s &&
      linkFits d m rate (nqOf m s) (max 1 (budgetLanes b m rate s)))

/-- The highest integer rate in the mode's range that fits, or 0 (R206). -/
def linkBest (m : Mode) (s : State) : Nat :=
  ((List.range 121).filter (fun r => rateOk m r && linkOk m r s)).foldl max 0

/-! ## Credits and training -/

/-- Every outstanding row credit of a half returns and its packets and waiting rows are discarded (R221, R227). -/
def reclaim (b : Bool) (s : State) : State :=
  move (creditPool b) 9 0 (col s (creditPool b) 9) (onPlk b (fun p => { p with sent := [], rows := [] }) s)

/-- A half's link goes down to electrical idle (R204, R227, R229). -/
def linkIdle (b : Bool) (s : State) : State :=
  emit (.lanesIdle b) (onPlk b (fun p => { p with up := false, train := none, failed := false, lanes := 0, rate := 0 })
    (reclaim b s))

/-- The model code of HELLO disagrees with the resident summary (R39). -/
def modelWrong (b : Bool) (s : State) : Bool :=
  match (plkOf b s).hello, s.pnl.desc with
  | some h, some d => h.model != d.modelCode
  | _, _ => false

/-- The model code a half reports is held against the resident summary (R39): event 0xB8, and every lit mode is refused from
then on. -/
def judgeModel (b : Bool) (s : State) : State :=
  if modelWrong b s then raise 0xB8 [(1, b2n b)] { s with plk := { s.plk with mismatch := true } } else s

/-- HELLO reports fewer lanes or a lower rate than the LINK section gives: event 0xB9 (R216). -/
def judgeCap (b : Bool) (s : State) : State :=
  match (plkOf b s).hello, s.pnl.desc with
  | some h, some d => if h.lanes < d.fwd || h.rate < d.maxRate then raise 0xB9 [(1, b2n b)] s else s
  | _, _ => s

/-- Training of a half at a rate code is called for (R221), with the checks of R39 and R216. -/
def startTrain (b : Bool) (rate : Nat) (second : Bool) (s : State) : State :=
  judgeModel b (judgeCap b (onPlk b (fun p => { p with
    up := false, failed := false, seq := 0, train := some ⟨rate, none, none, none, none, 0, second, none, false⟩ }) (reclaim b s)))

/-- The completion of a PANEL_LINK_TRAIN with its result words (R225): FAULT with the mask of failing halves. -/
def linkWords (c : LinkCmd) (failing : Nat) (s : State) : Verdict :=
  ⟨if failing = 0 then St.ok else St.fault, s.plk.a.lanes, s.plk.b.lanes, c.rate + failing * 2 ^ 8⟩

/-- A named half of a PANEL_LINK_TRAIN has trained or failed; the command ends once every named half has (R225). -/
def linkCmdHalf (b trained : Bool) (s : State) : State :=
  match s.plk.cmd with
  | none => s
  | some c =>
    if !c.left.testBit (b2n b) then s
    else
      let c := { c with left := c.left - 2 ^ b2n b, failed := if trained then c.failed else c.failed ||| 2 ^ b2n b }
      if c.left = 0 then finish c.h 0x0407 (linkWords c c.failed s) { s with plk := { s.plk with cmd := none } }
      else { s with plk := { s.plk with cmd := some c } }

/-- A PANEL_LINK_TRAIN ends with a status (R229). -/
def endLinkCmd (st : Nat) (s : State) : State :=
  match s.plk.cmd with
  | none => s
  | some c =>
    finish c.h 0x0407 (if st = St.fault then linkWords c (c.left ||| c.failed) s else no st)
      { s with plk := { s.plk with cmd := none } }

/-- Both halves' lanes go to electrical idle and a PANEL_LINK_TRAIN in progress ends (R225, R229). -/
def linksIdle (st : Nat) (s : State) : State :=
  (halves s).foldl (fun s b => if (plkOf b s).up || (plkOf b s).train.isSome then linkIdle b s else s) (endLinkCmd st s)

/-- The lane mask of all wired lanes, or lane 00 alone in Starlight (R204). -/
def wiredMask (b : Bool) (rate : Nat) (s : State) : Nat := if rate = 5 then 1 else 2 ^ wiredLanes b s - 1

/-- The lanes locked and deskewed may be used as they are (R222). -/
def lanesAllowed (b : Bool) (rate mask : Nat) (s : State) : Bool :=
  let all := wiredMask b rate s
  mask == all ||
  (pv s 0x0E13 == 1 && mask != 0 && (rate != 5 || mask.testBit 0) &&
    (s.mode.mode == .dawn || (match s.pnl.desc with
      | some d => linkFits d s.mode.mode s.mode.rate (nqOf s.mode.mode s) (laneCount mask)
      | none => true)))

/-- A back lane of a half has block lock. -/
def backLock (b : Bool) (s : State) : Bool := (plkOf b s).lock0 || (plkOf b s).lock1

/-- An attempt may begin (R221 step 1). -/
def mayTrain (b : Bool) (s : State) : Bool :=
  let p := plkOf b s
  backLock b s && p.hello.isSome && (s.mode.mode == .dawn || !modelWrong b s) &&
  (match p.train with | some t => t.began.isNone && t.retry.isNone && t.rate ≤ maxRateCode b s | none => false) &&
  !p.failed

/-- An attempt begins (R221): TRAIN stage 1. -/
def beginAttempt (b : Bool) (s : State) : State :=
  match (plkOf b s).train with
  | none => s
  | some t => emit (.train b 1 t.rate) (onPlk b (fun p => { p with
      train := some { t with began := some s.time.ref, locked := none, skewed := none, cinit := none, retry := none,
                             said3 := false } })
      (reclaim b s))

/-- A training of some half is in progress. -/
def training (b : Bool) (s : State) : Bool := (plkOf b s).train.isSome

/-- The rate code a lit mode in force trains at. -/
def classNow (s : State) : Nat := rateCode s.mode.mode s.mode.rate

/-- Both halves are retrained at the rate code last used, with the panel dark (R482 item 2). -/
def retrainDark (s : State) : State :=
  (halves s).foldl (fun s b =>
    let r := (plkOf b s).rate
    startTrain b (if r = 0 then 5 else r) false s) s

/-! ## Row packets -/

/-- Length in columns of the packet of a row (R208). -/
def packetCols (p : Plk) (j : RowJob) : Nat := ceilDiv (ceilDiv j.data.length 8 + 2) (max 1 (laneCount p.lanes))

/-- Length in ps of the packet of a row. -/
def packetPs (p : Plk) (j : RowJob) : Nat := packetCols p j * columnPs p.rate

/-- The first row of the write slot goes out at `freeAt`, spending a credit (R217). -/
def sendRow (b : Bool) (j : RowJob) (s : State) : State :=
  let p := plkOf b s
  let eop := p.freeAt + packetPs p j
  move (creditPool b) 0 9 1 (emit (.rowPacket b j.star j.q p.seq j.row j.data) (onPlk b (fun p => { p with
    rows := p.rows.drop 1, seq := (p.seq + 1) % 65536, freeAt := eop, sent := p.sent ++ [⟨p.seq, j, eop, false⟩] }) s))

/-- Every row that could leave by Meridian ns `t` is sent, in order, each once a credit is held and the packet before it has
left; a head that waits for a credit raises event 0xBE once per frame (R217, R219). `n` bounds the rows. -/
def pumpN : Nat → Bool → Nat → State → State
  | 0, _, _, s => s
  | n + 1, b, t, s =>
    let p := plkOf b s
    match p.rows with
    | [] => s
    | j :: _ =>
      if !p.up || t * 1000 < p.freeAt || j.slotEnd * 1000 < p.freeAt + packetPs p j then s
      else if col s (creditPool b) 0 = 0 then
        (if p.stalled then s
         else raise 0xBE [(1, b2n b)] (onPlk b (fun p => { p with stalled := true }) s))
      else pumpN n b t (sendRow b j s)

/-- The head of a half sends what it can up to now. -/
def pump (b : Bool) (s : State) : State := pumpN ((plkOf b s).rows.length + 1) b (merNs s) s

/-- A row is lost (R219). -/
def loseRow (b : Bool) (s : State) : State :=
  raise 0xB6 [(1, b2n b)] (onPlk b (fun p => { p with rowsLost := p.rowsLost + 1, lostFrame := p.lostFrame + 1 }) s)

/-- A row refused or timed out is resent while R219 allows it, else lost. -/
def resendRow (b : Bool) (j : RowJob) (s : State) : State :=
  let p := plkOf b s
  let start := max p.freeAt (merNs s * 1000)
  if j.resent < pv s 0x0E11 ∧ start + packetPs p j ≤ j.slotEnd * 1000 then
    pump b (raise 0xB5 [(1, b2n b)] (onPlk b (fun p => { p with
      retries := p.retries + 1, freeAt := start, rows := { j with resent := j.resent + 1 } :: p.rows }) s))
  else loseRow b s

/-- Rows of closed write slots that have not been sent are lost (R219). -/
def closeSlots (b : Bool) (s : State) : State :=
  let s := pump b s
  let late := (plkOf b s).rows.filter (fun j => decide (j.slotEnd ≤ merNs s))
  late.foldl (fun s _ => loseRow b s)
    (onPlk b (fun p => { p with rows := p.rows.filter (fun j => decide (merNs s < j.slotEnd)) }) s)

/-- Rows of a write slot join the head's queue. -/
def queueRows (b : Bool) (js : List RowJob) (s : State) : State :=
  pump b (onPlk b (fun p => { p with rows := p.rows ++ js, freeAt := max p.freeAt (merNs s * 1000) }) s)

/-- A credit returns for an outstanding packet (R218, R220). -/
def creditBack (b : Bool) (s : State) : State := move (creditPool b) 9 0 1 s

end Sys2Proof.Machine
end

