-- ==== Sys2Proof/Machine/SceneOps.lean ====
section
/-! DEFINITION. Scene streams and MPI slots (chapter 02): the layouts of R42 to R53, the checks of R54, the stream bytes a
session holds, the frame a session shows (R55, R56), and the end of a session. -/

namespace Sys2Proof.Machine

/-! ## Sessions -/

/-- The session open in a slot. -/
def sessOf (i : Nat) (s : State) : Option Session := s.scene.sess.getD i none

/-- Puts a session, or none, into a slot. -/
def setSess (i : Nat) (x : Option Session) (s : State) : State := { s with scene := { s.scene with sess := s.scene.sess.set i x } }

/-- Updates the session open in a slot. -/
def onSess (i : Nat) (f : Session → Session) (s : State) : State := setSess i ((sessOf i s).map f) s

/-- Updates the status of a session slot. -/
def onStat (i : Nat) (f : SessStat → SessStat) (s : State) : State :=
  { s with scene := { s.scene with stat := s.scene.stat.modify i f } }

/-- The slot of the session a live handle names. -/
def sessSlot (s : State) (h : Nat) : Option Nat :=
  [0, 1].find? (fun i => (sessOf i s).isSome && h == handle 0xF0 i (genOf s 0xF0 i))

/-! ## MPI slots (R42, R44, R45) -/

/-- First device address of MPI slot `i` (R364). -/
def mpiBase (i : Nat) : Nat := 0x11D000000 + i * 707788800

/-- The most planes a slot holds on a panel (R42). -/
def mpiPlanes (d : PanelDesc) : Nat := min 48 (707788800 / (4 * d.hx * d.hy))

/-- Bytes of one plane. -/
def PanelDesc.planeBytes (d : PanelDesc) : Nat := 4 * d.hx * d.hy

/-- Tiles per plane (R45). -/
def PanelDesc.tiles (d : PanelDesc) : Nat := ceilDiv d.hx 64 * ceilDiv d.hy 64

/-- A tile's first column and row, its width and height in samples (R45). -/
def PanelDesc.tileBox (d : PanelDesc) (t : Nat) : Nat × Nat × Nat × Nat :=
  let tx := ceilDiv d.hx 64
  let x := t % tx * 64
  let y := t / tx * 64
  (x, y, min 64 (d.hx - x), min 64 (d.hy - y))

/-- Sample bytes of a tile (R45). -/
def PanelDesc.tileBytes (d : PanelDesc) (t : Nat) : Nat := let (_, _, w, h) := d.tileBox t; 4 * w * h

/-- Device address of row `r` of tile `t` of plane `p` in MPI slot `i`. -/
def tileRow (d : PanelDesc) (i p t r : Nat) : Nat :=
  let (x, y, _, _) := d.tileBox t
  mpiBase i + p * d.planeBytes + 4 * ((y + r) * d.hx + x)

/-- An MPI slot. -/
def mpiSlot (i : Nat) (s : State) : MpiSlot := s.scene.mpi.getD i {}

/-- Updates an MPI slot. -/
def onMpi (i : Nat) (f : MpiSlot → MpiSlot) (s : State) : State :=
  { s with scene := { s.scene with mpi := s.scene.mpi.modify i f } }

/-- Sets or clears the occupancy bit of a tile of a plane. -/
def setOcc (i p t : Nat) (b : Bool) (s : State) : State :=
  onMpi i (fun m => { m with occ := m.occ.modify p (fun o =>
    if o.testBit t == b then o else o ^^^ 2 ^ t) }) s

/-- Writes a tile's sample bytes, in row-major order, and sets its occupancy bit (R46). -/
def putTile (d : PanelDesc) (i p t : Nat) (bs : List Byte) (s : State) : State :=
  let (_, _, w, h) := d.tileBox t
  setOcc i p t true ((List.range h).foldl (fun s r => devWrite (tileRow d i p t r) ((bs.drop (4 * w * r)).take (4 * w)) s) s)

/-- Copies a tile and its occupancy bit from slot `j` (R46, REPEAT). A plane the reference did not decode is empty. -/
def copyTile (d : PanelDesc) (j i p t : Nat) (s : State) : State :=
  if ((mpiSlot j s).occ.getD p 0).testBit t then
    let (_, _, w, h) := d.tileBox t
    putTile d i p t ((List.range h).flatMap (fun r => memGetAll s.mem (tileRow d j p t r) (4 * w))) s
  else setOcc i p t false s

/-- A source names MPI slot `i`. -/
def srcUses (i : Nat) : FSrc → Bool
  | .session _ m _ => m == i
  | .sweep m => m == i
  | .job _ => false

/-- MPI slot `i` is a source under R102 and R103, a frame still to be shown, a REPEAT reference, or being filled. -/
def mpiUsed (i : Nat) (s : State) : Bool :=
  s.scene.sess.any (fun o => match o with
    | some x => x.frames.any (fun f => f.mpi == i) || (match x.ref with | some r => r.mpi == i | none => false) ||
        (match x.decode with | some c => c.mpi == i | none => false) ||
        (match x.shown with | some f => f.mpi == i | none => false)
    | none => false) ||
  (match s.syn.cur with | some c => srcUses i c.src | none => false) ||
  (match s.syn.last with
    | some l => (match l.src with | .session _ m _ => m == i | _ => false)
    | none => false) ||
  (match s.cam.sweep with | some w => w.mpi == i | none => false) ||
  s.cam.done.any (fun e => e.2 == i)

/-- MPI slots no longer used go back to FREE (R370). -/
def mpiCollect (s : State) : State :=
  (List.range 3).foldl (fun s i =>
    let m := mpiSlot i s
    if m.col ≠ 0 ∧ !mpiUsed i s then move 0x12 m.col 0 1 (onMpi i (fun _ => {}) s) else s) s

/-- The lowest free MPI slot. -/
def freeMpi (s : State) : Option Nat := (List.range 3).find? (fun i => (mpiSlot i s).col == 0)

/-- An MPI slot passes to a ledger column (R370). -/
def mpiTo (i c : Nat) (s : State) : State :=
  let a := (mpiSlot i s).col
  if a = c then s else move 0x12 a c 1 (onMpi i (fun m => { m with col := c }) s)

/-- An MPI slot is taken for planes of the given disparities, every tile EMPTY and its bytes undefined (R44). -/
def takeMpi (i c : Nat) (disp : List Int) (s : State) : State :=
  mpiTo i c (devBlur (mpiBase i) 707788800 <| onMpi i (fun m => { m with disp := disp, occ := List.replicate disp.length 0 }) s)

/-! ## Stream bytes -/

/-- Adds bytes at an offset to stored segments; bytes already held stay (R63). -/
def segAdd : List (Nat × List Byte) → Nat → List Byte → List (Nat × List Byte)
  | [], o, bs => if bs = [] then [] else [(o, bs)]
  | (a, x) :: r, o, bs =>
    if bs = [] then (a, x) :: r
    else if o + bs.length ≤ a then (o, bs) :: (a, x) :: r
    else if a + x.length ≤ o then (a, x) :: segAdd r o bs
    else
      let tail := (a, x) :: segAdd r (a + x.length) (bs.drop (a + x.length - o))
      if o < a then (o, bs.take (a - o)) :: tail else tail

/-- `n` bytes at an offset, if all are held. -/
def segRead : List (Nat × List Byte) → Nat → Nat → Option (List Byte)
  | _, _, 0 => some []
  | [], _, _ => none
  | (a, x) :: r, o, n + 1 =>
    if o < a then none
    else if a + x.length ≤ o then segRead r o (n + 1)
    else
      let t := (x.drop (o - a)).take (n + 1)
      (segRead r (o + t.length) (n + 1 - t.length)).map (t ++ ·)

/-- Bytes below an offset are let go. -/
def segDrop (l : List (Nat × List Byte)) (p : Nat) : List (Nat × List Byte) :=
  (l.map (fun e => if e.1 < p then (p, e.2.drop (p - e.1)) else e)).filter (fun e => e.2 != [])

/-- `n` stream bytes at an offset of a session: from its ring, or in place from its clip (R64). -/
def streamRead (x : Session) (o n : Nat) (s : State) : Option (List Byte) :=
  if x.source = 2 then (if o + n ≤ x.clipLen then some (memGetAll s.mem (x.base + o) n) else none)
  else segRead x.segs o n

/-- Ring size of a session in bytes (R59). -/
def ringBytes (x : Session) : Nat := x.units * 0x1000000

/-- Free ring bytes of a session (R62): what is not held from the decode point on. -/
def ringFree (x : Session) : Nat := ringBytes x - (x.expect - x.next)

/-! ## Stream header and index -/

/-- Stream-scope failure of a stream header (R47, R54). -/
def streamHdrBad (d : PanelDesc) (bs : List Byte) : Option Nat :=
  let len := field bs 16 8
  if field bs 0 4 ≠ 0x5353564C ∨ field bs 5 1 ≠ 1 ∨ field bs 6 2 ≠ 64 ∨ crc32c (bytesAt bs 0 60) ≠ field bs 60 4 ∨
      !zeroAt bs 13 3 ∨ !zeroAt bs 56 4 then some 0x01
  else if field bs 8 2 ≠ d.hx ∨ field bs 10 2 ≠ d.hy then some 0x02
  else if field bs 12 1 = 0 ∨ mpiPlanes d < field bs 12 1 then some 0x03
  else if (len ≠ 0 ∧ (len < 128 ∨ 2 ^ 40 < len)) ∨ field bs 24 8 % 8 ≠ 0 then some 0x04
  else none

/-- The fields of a checked stream header. -/
def streamHdr (bs : List Byte) : StreamHdr := ⟨field bs 12 1, field bs 16 8, field bs 24 8, field bs 32 8⟩

/-- An index entry (R53). -/
structure IdxEntry where
  num : Nat
  off : Nat
  pts : Nat
deriving DecidableEq, Repr

/-- The index entries of a clip. -/
def idxEntries (m : DevMem) (base idx : Nat) : List IdxEntry :=
  let n := leNat (memGetAll m (base + idx + 4) 4)
  (List.range n).map (fun i =>
    let e := memGetAll m (base + idx + 16 + 24 * i) 24
    ⟨field e 0 4, field e 8 8, field e 16 8⟩)

/-- Entries rise in FRAME_NUMBER. -/
def idxRising : List IdxEntry → Bool
  | a :: b :: r => decide (a.num < b.num) && idxRising (b :: r)
  | _ => true

/-- The index of a clip passes R53 and code 0x04 of R54. -/
def idxOk (m : DevMem) (base clip : Nat) (h : StreamHdr) : Bool :=
  let at_ := fun o n => leNat (memGetAll m (base + h.index + o) n)
  let n := at_ 4 4
  h.index != 0 && h.index + 16 ≤ clip && at_ 0 4 == 0x4953564C && 1 ≤ n && n ≤ 1048576 && at_ 8 4 == 0 &&
  h.index + 16 + 24 * n ≤ clip && h.len == h.index + 16 + 24 * n &&
  crc32c (memGetAll m (base + h.index + 16) (24 * n)) == at_ 12 4 &&
  (let es := idxEntries m base h.index
   idxRising es && (es.headD ⟨0, 0, 0⟩).off == 64 &&
   es.zipIdx.all (fun e => leNat (memGetAll m (base + h.index + 20 + 24 * e.2) 4) == 0 && e.1.off % 8 == 0 &&
     e.1.off + 48 ≤ clip &&
     (let f := memGetAll m (base + e.1.off) 48
      field f 0 4 == 0x4653564C && (field f 13 1).testBit 0 && field f 8 4 == e.1.num && field f 16 8 == e.1.pts)))

/-! ## Frames -/

/-- The frame header reads: MAGIC and HDR_CRC (R54 code 0x10). -/
def frameHdrOk (b : List Byte) : Bool := field b 0 4 == 0x4653564C && crc32c (bytesAt b 0 44) == field b 44 4

/-- Bytes of the plane table of a frame of `n` planes (R48). -/
def planeTab (n : Nat) : Nat := 8 * ceilDiv (2 * n) 8
/-- Bytes of one state map (R48). -/
def mapLen (d : PanelDesc) : Nat := 8 * ceilDiv d.tiles 32
/-- Bytes of a length table (R48). -/
def lenTab (n : Nat) : Nat := 8 * ceilDiv (4 * n) 8
/-- Bytes before the tile records (R48). -/
def framePre (d : PanelDesc) (b : List Byte) : Nat :=
  48 + planeTab (field b 12 1) + field b 12 1 * mapLen d + lenTab (field b 24 4)

/-- State code of tile `t` of plane `p` (R50). -/
def tileState (d : PanelDesc) (b : List Byte) (p t : Nat) : Nat :=
  bits (field b (48 + planeTab (field b 12 1) + p * mapLen d + t / 4) 1) (2 * (t % 4) + 1) (2 * (t % 4))

/-- Disparities of a frame's planes. -/
def frameDisp (b : List Byte) : List Int := (List.range (field b 12 1)).map (fun i => field16s b (48 + 2 * i))

/-- Disparities rise strictly and lie in the range of R43. -/
def dispOk (l : List Int) : Bool :=
  l.all (fun v => decide (-16384 ≤ v) && decide (v ≤ 16383)) &&
  (l.zip (l.drop 1)).all (fun e => decide (e.1 < e.2))

/-- The CODED tiles of a frame, by plane and tile (R51). -/
def codedTiles (d : PanelDesc) (b : List Byte) : List (Nat × Nat) :=
  (List.range (field b 12 1)).flatMap (fun p =>
    ((List.range d.tiles).filter (fun t => tileState d b p t == 1)).map (fun t => (p, t)))

/-- Length of record `i`. -/
def recLen (d : PanelDesc) (b : List Byte) (i : Nat) : Nat :=
  field b (48 + planeTab (field b 12 1) + field b 12 1 * mapLen d + 4 * i) 4

/-- Sum of the lengths of the first `n` records. -/
def recSum (d : PanelDesc) (b : List Byte) (n : Nat) : Nat := (List.range n).foldl (fun v i => v + recLen d b i) 0

/-- Any tile has a state code. -/
def anyState (d : PanelDesc) (b : List Byte) (p c : Nat) : Bool := (List.range d.tiles).any (fun t => tileState d b p t == c)

/-- The failed check of a frame, by the codes of R54 in order; `b` holds the frame's bytes. -/
def frameBad (d : PanelDesc) (x : Session) (b : List Byte) : Option Nat :=
  let np := field b 12 1
  let fl := field b 13 1
  let coded := field b 24 4
  let maps := 48 + planeTab np
  let lens := maps + np * mapLen d
  let pre := framePre d b
  let key := fl.testBit 0
  if !frameHdrOk b then some 0x10
  else if field b 4 4 % 8 ≠ 0 ∨ np = 0 ∨ x.maxPlanes < np ∨ 4 ≤ fl ∨ !zeroAt b 14 2 ∨ !zeroAt b 32 12 ∨
      np * d.tiles < coded ∨ field b 4 4 ≠ pre + recSum d b coded ∨
      (List.range coded).any (fun i => recLen d b i % 8 != 0) ∨ (x.ref.isNone && !key) then some 0x11
  else if crc32c (bytesAt b 48 (pre - 48)) ≠ field b 28 4 ∨ !zeroAt b (48 + 2 * np) (planeTab np - 2 * np) ∨
      !zeroAt b (lens + 4 * coded) (lenTab coded - 4 * coded) ∨
      (List.range np).any (fun p => (List.range (4 * mapLen d - d.tiles)).any (fun i =>
        tileState d b p (d.tiles + i) != 0)) then some 0x12
  else if !dispOk (frameDisp b) then some 0x13
  else if (List.range np).any (fun p => anyState d b p 3 ||
      (anyState d b p 2 && (key || (match x.ref with | some r => r.planes ≤ p | none => true)))) then some 0x14
  else if coded ≠ (codedTiles d b).length then some 0x15
  else if !x.first && (match x.ref with | some r => field b 8 4 != (r.num + 1) % 2 ^ 32 | none => false) then some 0x16
  else if !x.first && (match x.ref with | some r => decide (field b 16 8 ≤ r.pts) | none => false) then some 0x17
  else none

/-- The stream offset of the first key frame held at or after an offset, at multiples of 8 (R67). -/
def findKey (x : Session) (o : Nat) : Option Nat :=
  let hi := x.segs.foldl (fun n e => max n (e.1 + e.2.length)) 0
  let o := alignUp o 8
  ((List.range ((hi - o) / 8 + 1)).map (fun i => o + 8 * i)).find? (fun p =>
    match segRead x.segs p 48 with
    | some b => frameHdrOk b && (field b 13 1).testBit 0
    | none => false)

/-- Where the next frame of a session starts: at its decode point, or at the first key frame found while it searches. -/
def nextFrame (x : Session) : Option Nat :=
  if x.search then findKey x x.next else some x.next

/-- The bytes of the next frame, once all are present (R57). A frame whose header does not read, or whose length cannot be
held, is taken as its header alone. -/
def frameBytes (x : Session) (o : Nat) (s : State) : Option (List Byte) :=
  match streamRead x o 48 s with
  | none => none
  | some h =>
    let len := field h 4 4
    if !frameHdrOk h || len % 8 != 0 || len < 48 || (x.source != 2 && ringBytes x < len) then some h
    else streamRead x o len s

/-! ## Presentation (R55, R56) -/

/-- T_n of a frame of a session, once T_s is known. -/
def shownAt (x : Session) (f : SFrame) : Option Nat := x.start.map (· + f.t)

/-- Stream time of the end of the last frame's interval, END_PTS with its lap (R55); none when it has none. -/
def endTime (x : Session) (f : SFrame) (endPts : Nat) : Option Nat :=
  if f.last ∧ endPts ≠ 0 then x.start.map (· + max (endPts + f.lap) f.t) else none

/-- END_PTS of a session's stream, 0 when unknown. -/
def endPts (x : Session) : Nat := match x.hdr with | some h => h.endPts | none => 0

/-- What the lap in progress adds to a PTS (R64). -/
def lapOffset (x : Session) (s : State) : Nat :=
  match x.hdr with
  | some h => if x.loop && x.lap != 0 then x.lap * (h.endPts - ((idxEntries s.mem x.base h.index).headD ⟨0, 0, 0⟩).pts) else 0
  | none => 0

/-- The frame a session shows in a display frame that starts at `t`: its newest decoded frame due by then, unless the
last frame's interval is over. -/
def sessPick (x : Session) (t : Nat) : Option SFrame :=
  let due := x.frames.filter (fun f => match shownAt x f with | some a => decide (a ≤ t) | none => false)
  match due.getLast? with
  | none => none
  | some f => (match endTime x f (endPts x) with
    | some e => if e ≤ t then none else some f
    | none => some f)

/-- Open sessions in the order of opening, oldest first. -/
def sessByAge (s : State) : List (Nat × Session) :=
  sortBy (fun e => e.2.opened) ([0, 1].filterMap (fun i => (sessOf i s).map (fun x => (i, x))))

/-! ## End of a session -/

/-- The frame being decoded is given up: engines on its tiles stop, and its MPI slot is let go. -/
def dropDecode (i : Nat) (s : State) : State :=
  let s := { s with cdc := { s.cdc with eng := s.cdc.eng.map (fun e => match e with
    | some (.tile j _) => if j = i then none else e
    | _ => e) } }
  mpiCollect (onSess i (fun x => { x with decode := none }) s)

/-- The status with which a waiting drain ends, by the reason of the end. -/
def drainStatus (reason : Nat) : Nat := if reason = 4 then St.abortedReset else if reason = 5 then St.abortedDetach else St.ok

/-- A session ends (R65, R70): its ring returns, its handle's generation advances, its clip is released, event 0x6D holds
the reason, and the code for FORMAT. -/
def endSession (i reason code : Nat) (s : State) : State :=
  match sessOf i s with
  | none => s
  | some x =>
    let s := dropDecode i s
    let s := setSess i none s
    let s := nextGen 0xF0 i (move 0xF0 1 0 1 (move 0x14 3 0 x.units s))
    let s := if x.source = 2 then release x.buf .cirrus i s else s
    let s := mpiCollect s
    let s := raise 0x6D ((1, reason) :: (if reason = 6 then [(1, code)] else [])) s
    match x.drain with
    | some h => finish h 0x0304 (no (drainStatus reason)) s
    | none => s

/-- Every open session ends. -/
def endSessions (reason : Nat) (s : State) : State := endSession 1 reason 0 (endSession 0 reason 0 s)

/-- Where a session goes on after losing the frame at offset `o` (R67): a clip at the next index entry, the first of the
next lap when it loops, or nowhere; the other sources search from there. -/
def resumeAfter (o : Nat) (s : State) (x : Session) : Session :=
  let x := { x with resync := true, first := true, decode := none }
  if x.source ≠ 2 then { x with next := o + 8, search := true }
  else
    let es := match x.hdr with | some h => idxEntries s.mem x.base h.index | none => []
    match es.find? (fun e => decide (o < e.off)) with
    | some e => { x with next := e.off }
    | none => if x.loop && x.drain.isNone then { x with next := 64, lap := x.lap + 1 } else { x with ended := true }

/-- The frame a session is decoding is lost, as by Cirrus L1 (R70), and the session resynchronises (R67). -/
def loseDecode (i : Nat) (s : State) : State :=
  match sessOf i s with
  | some x => (match x.decode with
    | some c => onStat i (fun t => { t with lost := t.lost + 1 }) (onSess i (resumeAfter c.off s) (dropDecode i s))
    | none => s)
  | none => s

end Sys2Proof.Machine
end

