-- ==== Sys2Proof/Machine/SynOps.lean ====
section
/-! DEFINITION. Cumulus (chapter 04): the arithmetic of R105 to R113, the budget of R114, the values a frame is rendered
with (R103, R104), its source (R102), commit, miss, restart and abandonment (R100, R124, R131), the fences of frame jobs
(R121). -/

namespace Sys2Proof.Machine

/-- Updates Cumulus. -/
def onSyn (f : SynSt → SynSt) (s : State) : State := { s with syn := f s.syn }

/-! ## One ray (R105 to R112) -/

/-- mul16 (R110). -/
def mul16 (a b : Nat) : Nat := let t := a * b; (t + t / 65536 + 32768) / 65536

/-- The column of the source that column `i` reads (R108). -/
def edgeCol (edge mx : Nat) (i : Int) : Option Nat :=
  if 0 ≤ i ∧ i < mx then some i.toNat
  else if edge = 1 then some (clampInt 0 (mx - 1 : Nat) i).toNat
  else if edge = 2 then some (i % (mx : Int)).toNat
  else none

/-- The row of the source that row `j` reads (R108). -/
def edgeRow (edge my : Nat) (j : Int) : Option Nat :=
  if 0 ≤ j ∧ j < my then some j.toNat
  else if edge = 1 then some (clampInt 0 (my - 1 : Nat) j).toNat
  else none

/-- A tile of a plane is occupied. -/
def Mpi.occupied (m : Mpi) (d x y : Nat) : Bool :=
  m.full || (m.occ.getD d 0).testBit (y / 64 * ceilDiv m.mx 64 + x / 64)

/-- Channel `c` of sample (i, j) of plane `d` as R108 reads it. -/
def Mpi.sample (m : Mpi) (mem : DevMem) (edge d c : Nat) (i j : Int) : Nat :=
  match edgeCol edge m.mx i, edgeRow edge m.my j with
  | some x, some y => if m.occupied d x y then (memGet mem (m.base + d * m.stride + 4 * (y * m.mx + x) + c)).toNat else 0
  | _, _ => 0

/-- The bilinear sample s_c of R109 at (px, py). -/
def Mpi.bilinear (m : Mpi) (mem : DevMem) (edge d c : Nat) (px py : Int) : Nat :=
  let i := floorDiv px 64
  let j := floorDiv py 64
  let fx := (px - 64 * i).toNat
  let fy := (py - 64 * j).toNat
  ((64 - fx) * (64 - fy) * m.sample mem edge d c i j * 257 + fx * (64 - fy) * m.sample mem edge d c (i + 1) j * 257 +
    (64 - fx) * fy * m.sample mem edge d c i (j + 1) * 257 + fx * fy * m.sample mem edge d c (i + 1) (j + 1) * 257 + 2048) / 4096

/-- Accumulators of a ray (R110). -/
structure Acc where
  r : Nat
  g : Nat
  b : Nat
  a : Nat
deriving DecidableEq, Repr

/-- σx of R105: +1 when AZIMUTH falls as h rises. -/
def sigmaX (d : PanelDesc) : Int := if d.az.getD 1 0 < d.az.getD 0 0 then 1 else -1
/-- σy of R105: +1 when ELEVATION rises as v rises. -/
def sigmaY (d : PanelDesc) : Int := if d.el.getD 0 0 < d.el.getD 1 0 then 1 else -1

/-- Position (px, py) of R105 of the ray of pixel (u, v) of hogel (x, y) in phase `p`, for a plane of disparity `disp`. -/
def rayAt (w : SynVals) (x y u v p : Nat) (disp : Int) : Int × Int :=
  let d := w.panel
  let c := d.corrAt x y
  let nh := d.az.length
  let nv := d.el.length
  let dh : Int := 64 * ((d.p * u + p : Nat) : Int) + (d.p : Int) * c.1 - 32 * ((nh : Int) - 1) - w.px
  let dv : Int := 64 * (v : Int) + c.2 - 32 * ((nv : Int) - 1) - w.py
  (64 * (x : Int) + w.sx + sigmaX d * rnd (disp * dh) 64,
   64 * (y : Int) + w.sy + sigmaY d * rnd (disp * dv * w.vscale) 16384)

/-- One plane composited (R110). -/
def overPlane (k : Acc) (sr sg sb sa : Nat) : Acc :=
  let t := 65535 - k.a
  ⟨min 65535 (k.r + mul16 sr t), min 65535 (k.g + mul16 sg t), min 65535 (k.b + mul16 sb t), min 65535 (k.a + mul16 sa t)⟩

/-- The planes composited front to back from plane `d`, with the early end of R111. -/
def overPlanes (w : SynVals) (m : Mpi) (mem : DevMem) (pos : Int → Int × Int) : List Int → Nat → Acc → Acc
  | [], _, k => k
  | disp :: r, d, k =>
    let (px, py) := pos disp
    let s := fun c => m.bilinear mem w.edge d c px py
    let k := overPlane k (s 0) (s 1) (s 2) (s 3)
    if w.et ≤ k.a then k else overPlanes w m mem pos r (d + 1) k

/-- The output byte of a colour accumulator with background byte `bg` (R112). -/
def outByte (c a bg : Nat) : Byte :=
  BitVec.ofNat 8 ((min 65535 (c + mul16 (257 * bg) (65535 - a)) * 255 + 32895) / 65536)

/-- The three bytes of pixel (u, v) of hogel (x, y) in phase `p` (R105 to R113). -/
def rayBytes (w : SynVals) (m : Mpi) (mem : DevMem) (x y u v p : Nat) : List Byte :=
  let k := overPlanes w m mem (rayAt w x y u v p) (m.disp.take w.planes) 0 ⟨0, 0, 0, 0⟩
  [outByte k.r k.a (bits w.bg 23 16), outByte k.g k.a (bits w.bg 15 8), outByte k.b k.a (bits w.bg 7 0)]

/-- The bytes of row `yy` of a half, in phase `p`, with its padding (R18). -/
def rowBytes (w : SynVals) (m : Mpi) (mem : DevMem) (half p yy : Nat) : List Byte :=
  let d := w.panel
  let px := (List.range d.wh).flatMap (fun c =>
    let xx := half * d.wh + c
    rayBytes w m mem (xx / d.lx) (yy / d.ly) (xx % d.lx) (yy % d.ly) p)
  px ++ zeroBytes (d.rp - px.length)

/-- A phase block (R18). -/
def blockBytes (w : SynVals) (m : Mpi) (mem : DevMem) (half p : Nat) : List Byte :=
  (List.range w.panel.h).flatMap (rowBytes w m mem half p)

/-! ## Planes and the budget -/

/-- SYN_GROUPS_OK. -/
def groupsOk (s : State) : Nat := 16 - s.syn.off.length

/-- W × H × NQ × F × NP fits the budget of `g` lane groups (R114). -/
def synFits (wh nq f np g : Nat) : Bool := wh * nq * f * np * 16 ≤ 1800000000000 * g

/-- The largest NP that fits (R115), at most 48. -/
def synBest (wh nq f g : Nat) : Nat := ((List.range 49).filter (fun np => synFits wh nq f np g)).foldl max 0

/-- NP of a mode with a value of SYN_PLANES_MAX on a panel (R114). -/
def planesFor (m : Mode) (pmax : Nat) (d : PanelDesc) : Nat := min (modePlanes m) (min pmax (mpiPlanes d))

/-- The word 0 of a BUDGET_EXCEEDED under R115, none when a setting fits. -/
def synBudget (m : Mode) (rate pmax : Nat) (d : PanelDesc) (s : State) : Option Nat :=
  if !isRendered m then none
  else
    let nq := (phasesOf m d.p).length
    if synFits (d.w * d.h) nq rate (planesFor m pmax d) (groupsOk s) then none
    else some (synBest (d.w * d.h) nq rate (groupsOk s))

/-- SYN_PLANE_LIMIT (R116, R133). -/
def planeLimit (s : State) : Nat :=
  match s.pnl.desc with
  | some d => if isRendered s.mode.mode then
      (let n := planesFor s.mode.mode (pv s 0x0A03) d
       match s.syn.cut with | some c => min c n | none => n)
    else 0
  | none => 0

/-! ## Values of a frame (R103, R104, R128) -/

/-- A PARAM_SET held for a target, as the parameter and value it names (R402). -/
def heldParam : Instr → Option (Nat × Nat)
  | .paramSet _ p => some (p.id.toNat, p.value.toNat)
  | _ => none

/-- The value of a synthesis parameter in force at frame `k`: the values accepted and waiting for a frame apply by then, and
so do held PARAM_SETs whose targets come no later than S_Pk (R7, R104). -/
def synParam (id k : Nat) (s : State) : Nat :=
  let v := s.parPend.foldl (fun v e => if e.1 = id ∧ e.2.2 = 1 then e.2.1 else v) (pv s id)
  (sortBy (fun e => e.t) s.cmd.sched).foldl (fun v e => match heldParam e.i with
    | some (i, x) => if i = id ∧ e.t ≤ frameStart k s then x else v
    | none => v) v

/-- The mode in force at frame `k`'s first subframe: a pending change that takes effect by then counts. -/
def modeAt (k : Nat) (s : State) : Mode :=
  match s.mode.change with
  | some x => if x.c ≤ frameStart k s then x.target else s.mode.mode
  | none => s.mode.mode

/-- The view shift in force for frame `k` (R127). -/
def shiftFor (k : Nat) (s : State) : Shift :=
  match (s.syn.shiftNext.filter (fun e => e.1 ≤ k)).getLast? with
  | some e => e.2
  | none => s.syn.shift

/-- SX_k of R128. -/
def shiftX (h : Shift) (edge mx t : Nat) : Int :=
  let v := h.ox + floorDiv (h.rx * ((t : Int) - h.t0)) 1000000000
  if edge = 2 then v % ((64 * mx : Nat) : Int) else clampInt (-2147483648) 2147483647 v
/-- SY_k of R128. -/
def shiftY (h : Shift) (t : Nat) : Int :=
  clampInt (-2147483648) 2147483647 (h.oy + floorDiv (h.ry * ((t : Int) - h.t0)) 1000000000)

/-- The values with which frame `k` is rendered from an MPI (R103, R104). -/
def valsFor (k : Nat) (m : Mpi) (d : PanelDesc) (s : State) : SynVals :=
  let h := shiftFor k s
  let t := frameStart k s
  let edge := synParam 0x0A02 k s
  let md := modeAt k s
  let n := planesFor md (synParam 0x0A03 k s) d
  { bg := synParam 0x0A00 k s, et := synParam 0x0A01 k s, edge := edge, vscale := synParam 0x0A04 k s,
    sx := shiftX h edge m.mx t, sy := shiftY h t, px := h.px, py := h.py, phases := phasesOf md d.p,
    planes := (match s.syn.cut with | some c => if md = s.mode.mode then min c n else n | none => n), panel := d }

/-- The MPI of an MPI slot as Cumulus reads it (R42, R108). -/
def slotMpi (i : Nat) (d : PanelDesc) (s : State) : Mpi :=
  let m := mpiSlot i s
  ⟨mpiBase i, d.planeBytes, d.hx, d.hy, m.disp, m.occ, false⟩

/-- The MPI of a source. -/
def srcMpi (f : FSrc) (d : PanelDesc) (s : State) : Mpi :=
  match f with
  | .session _ i _ => slotMpi i d s
  | .sweep i => slotMpi i d s
  | .job j => j.mpi

/-- A change of R103 makes a held source due again: the synthesis parameters, the view shift, DIRECTIONS or CORRECTION; and,
as R131 has a held source rendered for a new mode, the phase list and the plane limit (DEDUCED, log entry 22). -/
def valsDiffer (a b : SynVals) : Bool :=
  a.bg != b.bg || a.et != b.et || a.edge != b.edge || a.vscale != b.vscale || a.sx != b.sx || a.sy != b.sy || a.px != b.px ||
  a.py != b.py || a.phases != b.phases || a.planes != b.planes || a.panel.az != b.panel.az || a.panel.el != b.panel.el ||
  a.panel.corr != b.panel.corr

/-! ## Sources (R102) -/

/-- The session frame item 3 of R102 names for a display frame that starts at `t`. -/
def sessionSource (t : Nat) (s : State) : Option FSrc :=
  let lastUid := match s.syn.last with
    | some l => (match l.src with | .session _ _ u => some u | _ => none)
    | none => none
  let have_ := (sessByAge s).reverse.filterMap (fun e =>
    match sessPick e.2 t with
    | some f => if lastUid = some f.uid then none else some (FSrc.session e.1 f.mpi f.uid)
    | none => none)
  have_.head?

/-- The held source item 4 of R102 names: a KEEP job that has yet to be rendered, or the source of the last committed frame
under a change of R103. -/
def heldSource (k : Nat) (d : PanelDesc) (s : State) : Option FSrc :=
  match s.syn.kept.find? (fun e => !e.2) with
  | some (j, _) => some (.job j)
  | none =>
    match s.syn.last with
    | none => none
    | some l =>
      let held : Bool := match l.src with
        | .session _ _ _ => true | .job j => s.syn.kept.any (fun e => e.1 == j) | .sweep _ => false
      if held && valsDiffer (valsFor k (srcMpi l.src d s) d s) l.vals then some l.src else none

/-- The source of frame `k` (R102). -/
def sourceFor (k : Nat) (d : PanelDesc) (s : State) : Option FSrc :=
  match s.syn.jobs.find? (fun j => j.k == k) with
  | some j => some (.job j)
  | none =>
    match (if modeAt k s = .skylight then s.cam.done.find? (fun e => e.1 == k) else none) with
    | some e => some (.sweep e.2)
    | none =>
      match sessionSource (frameStart k s) s with
      | some f => some f
      | none => heldSource k d s

/-- Source code of R123. -/
def srcCode : FSrc → Nat
  | .session 0 _ _ => 1
  | .session _ _ _ => 2
  | .job _ => 3
  | .sweep _ => 4

/-- Tag of R123. -/
def srcTag : FSrc → Nat
  | .job j => j.h.tag.toNat
  | _ => 0

/-! ## Frame status -/

/-- The status of a frame, which joins the 64 kept (R123). -/
def putStat (t : FrameStat) (s : State) : State :=
  onSyn (fun y => { y with stats := (t :: y.stats.filter (fun e => e.k != t.k)).take 64 }) s

/-- The status kept of a frame changes. -/
def onFrameStat (k : Nat) (f : FrameStat → FrameStat) (s : State) : State :=
  onSyn (fun y => { y with stats := y.stats.map (fun e => if e.k = k then f e else e) }) s

/-! ## Fences -/

/-- A fence is written: one 8-byte write, or dropped with the event `lost` while the link is down (R121, R186). -/
def writeFence (lost fence value : Nat) (s : State) : State :=
  if fence = 0 then s
  else if s.cmd.up then emit (.hostWrite fence (leBytes 8 value)) s
  else raise lost [] s

/-- Fences of frame jobs whose frame reaches a point (1 SHOWN, 2 RETIRED). -/
def jobFences (k point : Nat) (s : State) : State :=
  let due := s.syn.fences.filter (fun f => f.k == k && f.point == point)
  due.foldl (fun s f => writeFence 0x78 f.fence f.value s)
    (onSyn (fun y => { y with fences := y.fences.filter (fun f => !(f.k == k && f.point == point)) }) s)

/-! ## Frame store slots -/

/-- A frame of the store. -/
def frameOf (k : Nat) (s : State) : Option Frame := s.scn.frames.find? (fun f => f.k == k)

/-- Updates the frames of the store. -/
def onFrames (f : List Frame → List Frame) (s : State) : State := { s with scn := { s.scn with frames := f s.scn.frames } }

/-- Device address of a frame-store slot of a half (R364). -/
def storeBase (b : Bool) (slot : Nat) : Nat := (slot + 3 * b2n b) * 0x2F800000

/-- The lowest free slot of a half. -/
def freeStore (b : Bool) (s : State) : Option Nat :=
  (List.range 3).find? (fun i => s.scn.frames.all (fun f => (if b then f.slotB else f.slotA) != i))

/-- Slots of a frame return from a ledger column of each half, and the frame is forgotten (R370). -/
def dropFrame (k colA colB : Nat) (s : State) : State :=
  match frameOf k s with
  | none => s
  | some _ =>
    let s := move 0x10 colA 0 1 s
    let s := if twoHalves s then move 0x11 colB 0 1 s else s
    onFrames (fun l => l.filter (fun f => f.k != k)) s

/-- The owner number of a hold of Cumulus on the buffer of a job for frame `k`. -/
def jobOwner (j : FrameJob) : Nat := j.h.tag.toNat * 2 ^ 64 + j.k

/-- A frame job lets its buffer go (R122). -/
def letJob (j : FrameJob) (s : State) : State := release j.buf .cumulus (jobOwner j) s

/-- The held KEEP sources are released, but for one that stays (R122, R131). -/
def dropKept (stay : Option FrameJob) (s : State) : State :=
  let go := s.syn.kept.filter (fun e => some e.1 != stay)
  go.foldl (fun s e => letJob e.1 s) (onSyn (fun y => { y with kept := y.kept.filter (fun e => some e.1 == stay) }) s)

/-- A job ends with a reply, its fence written or not (R121, R131). A KEEP job stays held when `stay`. -/
def endJob (j : FrameJob) (v : Verdict) (fence stay : Bool) (s : State) : State :=
  let s := if fence then writeFence 0x78 j.fence j.value s else s
  let s := finish j.h 0x0305 v s
  if stay then s else letJob j s

/-- Pending jobs end with a status (R131). -/
def endJobs (st : Nat) (fence : Bool) (s : State) : State :=
  s.syn.jobs.foldl (fun s j => endJob j (no st) fence false s) (onSyn (fun y => { y with jobs := [] }) s)

/-! ## The synthesis in progress -/

/-- Commit deadline of frame `k` (R99). -/
def commitBy (k : Nat) (s : State) : Nat := frameStart k s - 500000

/-- The MPI slot of a source is in use by synthesis (R370). -/
def srcToCumulus (f : FSrc) (s : State) : State :=
  match f with
  | .session _ i _ => mpiTo i 5 s
  | .sweep i => mpiTo i 5 s
  | .job _ => s

/-- The synthesis of frame `k` ends without a commit: its slot returns. -/
def stopSynth (s : State) : State :=
  match s.syn.cur with
  | none => s
  | some c => mpiCollect (onSyn (fun y => { y with cur := none, freeAt := some (merNs s) })
      (onFrameStat c.k (fun t => { t with state := 5 }) (dropFrame c.k 5 5 s)))

/-- A job being rendered ends with a status, its KEEP source released too. -/
def endCurJob (st : Nat) (fence : Bool) (s : State) : State :=
  match s.syn.cur with
  | some c => (match c.src with
    | .job j => if s.syn.kept.any (fun e => e.1 == j) then s else endJob j (no st) fence false s
    | _ => s)
  | none => s

/-- Synthesis is abandoned (R131): the frame in synthesis without event 0x74, the pending jobs with a status, the KEEP
source. -/
def abandonSyn (st : Nat) (fence : Bool) (s : State) : State :=
  let s := endCurJob st fence s
  let s := stopSynth s
  dropKept none (endJobs st fence s)

/-- The synthesis in progress starts again with the values in force at its frame (R104): event 0x76. -/
def restartSyn (s : State) : State :=
  match s.syn.cur, s.pnl.desc with
  | some c, some _ =>
    let v := valsFor c.k c.mpi c.vals.panel s
    raise 0x76 [] (onSyn (fun y => { y with cur := some { c with vals := v }, restarts := y.restarts + 1 }) s)
  | _, _ => s

/-- A change of a synthesis parameter, of the mode or of the timing reaches the frame in synthesis (R104). -/
def synRecheck (s : State) : State :=
  match s.syn.cur with
  | none => s
  | some c =>
    let v := valsFor c.k c.mpi c.vals.panel s
    let w := c.vals
    if isRendered (modeAt c.k s) && (v.bg != w.bg || v.et != w.et || v.edge != w.edge || v.phases != w.phases) then restartSyn s
    else s

/-- A synthesis in progress starts again when a parameter set now applies to its frame (R104). -/
def synParamSet (id : Nat) (s : State) : State :=
  match s.syn.cur with
  | none => s
  | some c =>
    let v := valsFor c.k c.mpi c.vals.panel s
    if (id = 0x0A03 ∧ v.planes ≠ c.vals.planes) ∨ (id = 0x0A04 ∧ v.vscale ≠ c.vals.vscale) then restartSyn s
    else synRecheck s

/-- The lowest frame whose synthesis has not started (R120). -/
def openFrame (s : State) : Option Nat :=
  match s.scn.seg with
  | none => none
  | some g =>
    let k := if g.c ≤ merNs s then g.frameAt (merNs s) + 1 else g.kc
    some (match s.syn.nextK with | some n => max n k | none => k)

/-- The frame a job or shift without SCHEDULED, or with a target, is for (R120): none when its start has passed. -/
def targetFrame (h : Hdr) (s : State) : Option Nat :=
  match openFrame s with
  | none => none
  | some o =>
    if scheduled h then
      (match frameFrom (mtOf h.target) s with
       | some (_, k) => if o ≤ k then some k else if asapIfLate h then some o else none
       | none => none)
    else some o

end Sys2Proof.Machine
end

