-- ==== Sys2Proof/Machine/CodecOps.lean ====
section
/-! DEFINITION. Cirrus (chapter 03): blocks (R76 to R79), compression in units (R89), codec jobs and where they stop (R87,
R88, R90, R91), the choice of work for an engine (R83). -/

namespace Sys2Proof.Machine

/-- Updates Cirrus. -/
def onCdc (f : CdcSt → CdcSt) (s : State) : State := { s with cdc := f s.cdc }

/-- CDC_ENGINES_OK. -/
def enginesOk (s : State) : Nat := 16 - s.cdc.off.length

/-! ## Blocks -/

/-- Failed check of a block header (R76, R77, R79). -/
def blkHdrBad (b : List Byte) : Option Nat :=
  let f := field b 2 1
  let raw := f.testBit 0
  let tables := bits f 2 1
  let orig := field b 4 4
  let stored := field b 8 4
  if field b 0 2 ≠ 0x4243 then some 0x01
  else if 8 ≤ f ∨ 9 < field b 3 1 ∨ (raw == (tables != 0)) then some 0x02
  else if orig = 0 ∨ 65536 < orig ∨ stored = 0 ∨ 65536 < stored ∨ (if raw then stored ≠ orig else orig ≤ stored) then some 0x03
  else none

/-- Bytes a block occupies (R76). -/
def blkLen (stored : Nat) : Nat := 8 * ceilDiv (16 + stored) 8

/-- How decoding of a block stops: at its end, for want of output space, for want of input, or on a data error. -/
inductive BlkStop where
  | done
  | full
  | need
  | err (code : Nat)
deriving DecidableEq, Repr

/-- What decoding of a block gives: its original bytes so far, the input bytes used, how it stops. -/
structure BlkRun where
  out : List Byte
  used : Nat
  stop : BlkStop
deriving DecidableEq, Repr

/-- The end of a block whose data is complete: ORIG_CRC, then the padding (R77, R79). -/
def blkTail (b out : List Byte) : BlkRun :=
  let stored := field b 8 4
  if crc32c out ≠ field b 12 4 then ⟨out, 16 + stored, .err 0x09⟩
  else if !zeroAt (b.take (blkLen stored)) (16 + stored) (blkLen stored - 16 - stored) then ⟨out, 16 + stored, .err 0x02⟩
  else if b.length < blkLen stored then ⟨out, b.length, .need⟩
  else ⟨out, blkLen stored, .done⟩

/-- A RAW block with the payload bytes present. -/
def runRaw (b : List Byte) (limit : Nat) : BlkRun :=
  let stored := field b 8 4
  let n := min (b.length - 16) stored
  let out := (b.drop 16).take (min n limit)
  if limit < stored ∧ limit ≤ n then ⟨out, 16 + limit, .full⟩
  else if n < stored then ⟨out, 16 + n, .need⟩
  else blkTail b out

/-- A DEFLATE block with the payload bytes present (R74, R75, R91). -/
def runDeflate (b : List Byte) (limit : Nat) : BlkRun :=
  let orig := field b 4 4
  let stored := field b 8 4
  let pay := (b.drop 16).take stored
  let (us, e) := unitsOf pay
  let (p, r) := runUnits limit orig us ⟨[], 0, 0⟩
  let out := p.rev.reverse
  let used := 16 + p.used / 8
  match r with
  | .err c => ⟨out, used, .err c⟩
  | .full => ⟨out, used, .full⟩
  | .all =>
    match e with
    | .err c => ⟨out, used, .err c⟩
    | .short => ⟨out, used, if pay.length < stored then .need else .err 0x08⟩
    | .complete =>
      if p.n ≠ orig ∨ ceilDiv p.used 8 ≠ stored ∨ !((streamBits pay).drop p.used).all (!·) then ⟨out, used, .err 0x08⟩
      else blkTail b out

/-- Decodes a block from the bytes present, writing at most `limit` original bytes. -/
def runBlock (b : List Byte) (limit : Nat) : BlkRun :=
  if b.length < 16 then ⟨[], 0, .need⟩
  else match blkHdrBad b with
  | some c => ⟨[], 0, .err c⟩
  | none => if (field b 2 1).testBit 0 then runRaw b limit else runDeflate b limit

/-- A tile record decoded whole (R51): its original data, or the code of R79. -/
def decodeRecord (b : List Byte) : Except Nat (List Byte) :=
  let r := runBlock b 65537
  match r.stop with
  | .done => if zeroAt b r.used (b.length - r.used) then .ok r.out else .error 0x02
  | .err c => .error c
  | _ => .error 0x0A

/-! ## Compression -/

/-- A unit of a block being written: its length in bits and the original bytes it covers (R89, R90). -/
structure OUnit where
  bits : Nat
  cover : Nat
deriving DecidableEq, Repr

/-- A block as Cirrus writes it: its bytes and its units. -/
structure OBlock where
  bytes : List Byte
  units : List OUnit
deriving DecidableEq, Repr

/-- Block type of a payload that R81 admits: one DEFLATE block with BFINAL, static or dynamic as TABLES asks. -/
def payloadType (tables : Nat) (us : List IUnit) : Option Nat :=
  match us.head? with
  | some u =>
    if u.bits = [true, true, false] ∧ tables ≠ 2 then some 1
    else if u.bits = [true, false, true] ∧ tables ≠ 1 then some 2
    else none
  | none => none

/-- The payload Cirrus writes for a block and its type, none when the block is written RAW (R78, R80, R81). -/
def compressed (level tables : Nat) (data : List Byte) : Option (List Byte × Nat) :=
  let p := Config.deflate level tables data
  if level = 0 ∨ data.length ≤ p.length ∨ inflate data.length p ≠ some data then none
  else (payloadType tables (unitsOf p).1).map (fun t => (p, t))

/-- Original bytes a DEFLATE unit covers. -/
def coverOf : IOut → Nat
  | .none => 0
  | .byte _ => 1
  | .copy n _ => n

/-- A block header (R76). -/
def blkHdr (flags level orig stored crc : Nat) : List Byte :=
  leBytes 2 0x4243 ++ leBytes 1 flags ++ leBytes 1 level ++ leBytes 4 orig ++ leBytes 4 stored ++ leBytes 4 crc

/-- The block of original data at a level and table choice (R76 to R81), with its units (R89). -/
def encodeBlock (level tables : Nat) (data : List Byte) : OBlock :=
  let crc := crc32c data
  match compressed level tables data with
  | some (p, t) =>
    let us := (unitsOf p).1.map (fun u => (⟨u.bits.length, coverOf u.out⟩ : OUnit))
    let nbits := us.foldl (fun n u => n + u.bits) 0
    let pad := blkLen p.length - 16 - p.length
    ⟨blkHdr (2 * t) level data.length p.length crc ++ p ++ zeroBytes pad,
     ⟨128, 0⟩ :: us ++ (if nbits = 8 * p.length then [] else [⟨8 * p.length - nbits, 0⟩]) ++ List.replicate pad ⟨8, 0⟩⟩
  | none =>
    let pad := blkLen data.length - 16 - data.length
    ⟨blkHdr 1 level data.length data.length crc ++ data ++ zeroBytes pad,
     ⟨128, 0⟩ :: List.replicate data.length ⟨8, 1⟩ ++ List.replicate pad ⟨8, 0⟩⟩

/-- Units placed while each fits whole in `space` bits (R89): how many, their bits, the bytes they cover. -/
def placeUnits (space : Nat) : List OUnit → Nat → Nat → Nat → Nat × Nat × Nat
  | [], n, b, c => (n, b, c)
  | u :: us, n, b, c => if b + u.bits ≤ space then placeUnits space us (n + 1) (b + u.bits) (c + u.cover) else (n, b, c)

/-- Bits and covered bytes of the first `n` units. -/
def unitSum (us : List OUnit) (n : Nat) : Nat × Nat := (us.take n).foldl (fun e u => (e.1 + u.bits, e.2 + u.cover)) (0, 0)

/-! ## Jobs -/

/-- The job of an index. -/
def jobOf (i : Nat) (s : State) : Option CodecJob := s.cdc.jobs.find? (fun j => j.idx == i)

/-- Updates the job of an index. -/
def onJob (i : Nat) (f : CodecJob → CodecJob) (s : State) : State :=
  onCdc (fun c => { c with jobs := c.jobs.map (fun j => if j.idx = i then f j else j) }) s

/-- The handle of a job. -/
def jobHandle (s : State) (i : Nat) : Nat := handle 0xF1 i (genOf s 0xF1 i)

/-- The job a live handle names. -/
def jobBy (s : State) (h : Nat) : Option CodecJob := s.cdc.jobs.find? (fun j => h == jobHandle s j.idx)

/-- Owner number of a job's holds. -/
def cdcOwner (i : Nat) : Nat := 16 + i

/-- Input bytes of a job not yet consumed. -/
def inLeft (j : CodecJob) : Nat := j.ins.foldl (fun n g => n + g.len) 0 - j.inUsed

/-- The first `n` bytes of a job's input from `skip` on; bytes of host memory are taken from `host` in order, and read as
zero past its end. -/
def gather (m : DevMem) : List CSeg → Nat → Nat → List Byte → List Byte
  | [], _, _, _ => []
  | g :: gs, skip, n, host =>
    let k := min n (g.len - skip)
    match g.dev with
    | some _ => memGetAll m (g.addr + skip) k ++ gather m gs (skip - g.len) (n - k) host
    | none => bytesAt host 0 k ++ gather m gs (skip - g.len) (n - k) (host.drop k)

/-- `n` input bytes of a job are consumed. -/
def eatInput : Nat → List CSeg → Nat → List CSeg × Nat
  | _, [], _ => ([], 0)
  | n, g :: gs, used =>
    if used + n < g.len then (g :: gs, used + n) else eatInput (used + n - g.len) gs 0

/-- Bytes go to a job's output segment. -/
def putOutput (g : CSeg) (off : Nat) (bs : List Byte) (s : State) : State :=
  if bs = [] then s
  else match g.dev with
  | some _ => devWrite (g.addr + off) bs s
  | none => emit (.hostWrite (g.addr + off) bs) s

/-- The words of R87. -/
def jobWords (st code blk : Nat) (j : CodecJob) : Verdict := ⟨st, j.inDone, j.outDone, blk % 2 ^ 24 * 256 + code⟩

/-- The engine of a job is free again. -/
def freeEngine (i : Nat) (s : State) : State :=
  onCdc (fun c => { c with eng := c.eng.map (fun e => if e = some (.job i) then none else e) }) s

/-- A job's slot is freed (R87, R96): its handle's generation advances, its holds end. -/
def freeJob (i : Nat) (s : State) : State :=
  let s := releaseOwner .cirrus (cdcOwner i) (freeEngine i s)
  nextGen 0xF1 i (move 0xF1 1 0 1 (onCdc (fun c => { c with jobs := c.jobs.filter (fun j => j.idx != i) }) s))

/-- A job's command ends with a final reply and the job's slot is freed. -/
def jobEnds (i st code blk : Nat) (s : State) : State :=
  match jobOf i s with
  | none => s
  | some j => finish j.h j.opcode (jobWords st code blk j) (freeJob i s)

/-- A job stops at a committed boundary and is kept (R88): event 0x61. -/
def jobStops (i st code blk : Nat) (s : State) : State :=
  match jobOf i s with
  | none => s
  | some j =>
    let s := onJob i (fun j => { j with running := false, code := code, stoppedAt := s.time.ref }) (freeEngine i s)
    let s := raise 0x61 [(4, jobHandle s i), (1, code)] s
    finish j.h j.opcode (jobWords st code blk j) s

/-- A stopped job ends without a reply (R96): event 0x62. -/
def jobLost (i : Nat) (s : State) : State := raise 0x62 [(4, jobHandle s i)] (freeJob i s)

/-- Every job meets an end of R96: running ones as `f` says, stopped ones are lost. -/
def endJobsAll (f : CodecJob → State → State) (s : State) : State :=
  s.cdc.jobs.foldl (fun s j => if j.running then f j s else jobLost j.idx s) s

/-- A data error of a block (R79, R97, R98). -/
def dataError (code : Nat) (s : State) : State := raise 0x63 [(1, code)] (onCdc (fun c => { c with errors := c.errors + 1 }) s)

/-- Input and output bytes are counted (R98). -/
def countBytes (i o : Nat) (s : State) : State :=
  onCdc (fun c => { c with inBytes := (c.inBytes + i) % 2 ^ 64, outBytes := (c.outBytes + o) % 2 ^ 64 }) s

/-- A job advances: `used` input bytes are consumed and `bs` are written. -/
def jobMoves (i used : Nat) (bs : List Byte) (f : CodecJob → CodecJob) (s : State) : State :=
  match jobOf i s with
  | none => s
  | some j =>
    let s := countBytes used bs.length (putOutput j.out j.outUsed bs s)
    let (ins, u) := eatInput used j.ins j.inUsed
    onJob i (fun j => f { j with ins := ins, inUsed := u, inDone := j.inDone + used, outUsed := j.outUsed + bs.length,
                                 outDone := j.outDone + bs.length }) s

/-- What follows a finished block: the job goes on, stops for want of input, or is complete (R87). -/
def afterJobBlock (i : Nat) (s : State) : State :=
  match jobOf i s with
  | none => s
  | some j =>
    if inLeft j ≠ 0 then onJob i (fun j => { j with waitSince := s.time.ref, starved := false }) (freeEngine i s)
    else if j.more then jobStops i St.partly 0x81 (j.block - 1) s
    else jobEnds i St.ok 0x00 (j.block - 1) s

/-- A compressing job works on its block (R78, R88 to R90, R94). -/
def compressStep (j : CodecJob) (host : List Byte) (s : State) : State :=
  let want := j.blockSize - j.inp.length
  let n := min want (inLeft j)
  let data := j.inp ++ gather s.mem j.ins j.inUsed n host
  if n < want ∧ j.more then jobStops j.idx St.partly 0x81 j.block s
  else if data = [] then jobEnds j.idx St.ok 0x00 (j.block - 1) s
  else
    let b := encodeBlock j.level j.tables data
    let (b0, _) := unitSum b.units j.units
    let space := 8 * (b0 / 8 + (j.out.len - j.outUsed))
    let (k, b1, c1) := placeUnits space (b.units.drop j.units) j.units b0 (unitSum b.units j.units).2
    let bs := (b.bytes.drop (b0 / 8)).take (b1 / 8 - b0 / 8)
    if k = b.units.length then
      afterJobBlock j.idx (jobMoves j.idx (data.length - j.inp.length) bs
        (fun j => { j with block := j.block + 1, inp := [], units := 0 }) s)
    else
      jobStops j.idx St.partly 0x80 j.block (jobMoves j.idx (c1 - j.inp.length) bs
        (fun j => { j with inp := data.take c1, units := k }) s)

/-- A decompressing job works on its block (R79, R88, R91). -/
def decompressStep (j : CodecJob) (host : List Byte) (s : State) : State :=
  let n := min (inLeft j) (65536 + 24)
  let data := j.inp ++ gather s.mem j.ins j.inUsed n host
  if data = [] ∧ !j.more then jobEnds j.idx St.ok 0x00 (j.block - 1) s
  else
    let r := runBlock data (j.blkOut + (j.out.len - j.outUsed))
    let bs := r.out.drop j.blkOut
    let used := max j.inp.length r.used
    let go := fun f => jobMoves j.idx (used - j.inp.length) bs f s
    match r.stop with
    | .done => afterJobBlock j.idx (go (fun j => { j with block := j.block + 1, inp := [], blkOut := 0 }))
    | .full => jobStops j.idx St.partly 0x80 j.block (go (fun j => { j with inp := data.take used, blkOut := r.out.length }))
    | .need =>
      let s := go (fun j => { j with inp := data.take used, blkOut := r.out.length })
      if j.more then jobStops j.idx St.partly 0x81 j.block s
      else jobEnds j.idx St.badParam 0x0A j.block (dataError 0x0A s)
    | .err c => jobEnds j.idx St.badParam c j.block (dataError c (go id))

/-! ## Engines (R83) -/

/-- Jobs that wait for an engine, oldest submission first. -/
def waitingJobs (s : State) : List CodecJob :=
  s.cdc.jobs.filter (fun j => j.running && !s.cdc.eng.contains (some (.job j.idx)))

/-- Engines at work on sessions. -/
def sessionEngines (s : State) : Nat :=
  (s.cdc.eng.filter (fun e => match e with | some (.tile _ _) => true | _ => false)).length

/-- Sessions with a tile to decode, the frame that falls due first leading. -/
def tileSessions (s : State) : List (Nat × Session) :=
  sortBy (fun e => (e.2.start.getD 0) + (match e.2.decode with | some c => c.pts | none => 0))
    ((sessByAge s).filter (fun e => match e.2.decode with | some c => c.tiles != [] | none => false))

/-- The work an idle engine takes (R83): a tile while CDC_HOST_SHARE engines stay free of session work if a job waits, else
the oldest waiting job. -/
def nextWork (s : State) : Option EngWork :=
  let jobs := waitingJobs s
  let free : Bool := jobs == [] || sessionEngines s + pv s 0x0900 < enginesOk s
  match (if free then tileSessions s else []) with
  | (i, x) :: _ => (match x.decode with
    | some c => c.tiles.head?.map (fun t => .tile i t)
    | none => none)
  | [] => jobs.head?.map (fun j => .job j.idx)

/-- Cirrus L1 (R70, R96): running jobs complete FAULT, sessions lose the frame they decode. -/
def cirrusReset (s : State) : State :=
  let s := s.cdc.jobs.foldl (fun s j => if j.running then jobEnds j.idx St.fault 0x85 j.block s else s) s
  let s := loseDecode 1 (loseDecode 0 s)
  onCdc (fun c => { c with eng := List.replicate 16 none }) s

/-- Running jobs stop with code 0x82 (R96, change to Starlight). -/
def suspendJobs (s : State) : State :=
  s.cdc.jobs.foldl (fun s j => if j.running then jobStops j.idx St.partly 0x82 j.block s else s) s

end Sys2Proof.Machine
end

