-- ==== Sys2Proof/Machine/CamOps.lean ====
section
/-! DEFINITION. Live capture (chapter 05): the state of ports, camera buffers, windows and triggers (R134 to R149),
rectification maps (R150, R151), the sweep (R152 to R158). -/

namespace Sys2Proof.Machine

/-- Updates the cameras. -/
def onCam (f : CamSt → CamSt) (s : State) : State := { s with cam := f s.cam }

/-- A camera port. -/
def portOf (c : Nat) (s : State) : CamPort := s.cam.ports.getD c {}

/-- Updates a camera port. -/
def onPort (c : Nat) (f : CamPort → CamPort) (s : State) : State :=
  onCam (fun x => { x with ports := x.ports.modify c f }) s

/-- The sixteen ports. -/
def camPorts : List Nat := List.range 16

/-- Fault domain of a port (R427). -/
def camDomain (c : Nat) : Nat := 0x10 + c

/-! ## Formats and gears -/

/-- Bytes per pixel of a data type (R141). -/
def pixelBytes (dt : Nat) : Nat := if dt = 0x1E then 2 else if dt = 0x24 then 3 else 1

/-- Row pitch of an image in its buffer (R141). -/
def camPitch (g : CamCfg) : Nat := 64 * ceilDiv (g.w * pixelBytes g.dtype) 64

/-- Usable payload of a gear, in bit/s (R134). -/
def gearRate (g : Nat) : Nat := [0, 1600000000, 3200000000, 6400000000, 9600000000, 12800000000].getD g 0

/-- Frame rate the checks of R141 and R158 use. -/
def camRate (s : State) : Nat := if s.mode.mode = .skylight then s.mode.rate else 60

/-- The payload of a configuration at a rate fits a gear (R141). -/
def gearFits (g : CamCfg) (rate gear : Nat) : Bool := g.w * g.h * 8 * pixelBytes g.dtype * rate ≤ gearRate gear

/-- The port powers its receiver (R135, R539). -/
def portPowered (c : Nat) (s : State) : Bool :=
  let p := portOf c s
  p.cfg.isSome && !p.freeing && (s.mode.mode == .dawn || s.mode.mode == .skylight) && !p.masked && (p.camera || p.presMasked)

/-- The configuration that governs a window of a port (R141). -/
def cfgAt (c k : Nat) (s : State) : Option CamCfg :=
  let p := portOf c s
  if k < p.cfgFrom then p.cfgPrev else p.cfg

/-- The port's map is valid for its configuration (R148, R150). -/
def mapValid (c : Nat) (s : State) : Bool :=
  match (portOf c s).map, (portOf c s).cfg with
  | some m, some g => m.w == g.w && m.h == g.h
  | _, _ => false

/-- Configured ports with SWEEP set. -/
def sweepPorts (s : State) : List Nat :=
  camPorts.filter (fun c => !(portOf c s).freeing && (match (portOf c s).cfg with | some g => g.sweep | none => false))

/-! ## The sweep budget (R158) -/

/-- SWP_GROUPS_OK. -/
def sweepGroups (s : State) : Nat := 16 - s.cam.off.length

/-- The terms of R158 fit. -/
def sweepFits (d : PanelDesc) (np rate nc : Nat) (s : State) : Bool :=
  d.hx * d.hy * np * rate * nc * 16 ≤ 230000000000 * sweepGroups s

/-- Planes a sweep setting asks for, the plane limit of Skylight applied (R157). -/
def sweepAsk (planes : Nat) (d : PanelDesc) (s : State) : Nat := min planes (planesFor .skylight (pv s 0x0A03) d)

/-- The sweep budget holds with `nc` ports, `planes` planes and a rate; it does when no panel description is held. -/
def sweepBudget (planes nc rate : Nat) (s : State) : Bool :=
  match s.pnl.desc with
  | some d => sweepFits d (sweepAsk planes d s) rate nc s
  | none => true

/-- SWP_PLANE_LIMIT (R159, R166): the planes swept in Skylight. -/
def sweepLimit (s : State) : Nat :=
  if s.mode.mode = .skylight then
    let n := min s.cam.sweepCfg.planes (planeLimit s)
    match s.cam.cut with | some c => min c n | none => n
  else 0

/-! ## Camera buffers (R149) -/

/-- Device address of a port's camera buffer. -/
def camBase (c i : Nat) : Nat := 0x19B900000 + (3 * c + i) * 0x1000000

/-- Buffers of a port in a sweep. -/
def sweptBufs (c : Nat) (s : State) : List Nat :=
  match s.cam.sweep with
  | some w => (w.ports.filter (fun e => e.1 == c)).map (·.2)
  | none => []

/-- A buffer of a port that holds no image. -/
def freeCamBuf (c : Nat) (s : State) : Option Nat :=
  (List.range 3).find? (fun i => (portOf c s).images.all (fun x => x.buf != i) && !(sweptBufs c s).contains i)

/-- The buffers of a deconfigured port return once no sweep reads them (R370). -/
def settlePort (c : Nat) (s : State) : State :=
  let p := portOf c s
  if p.freeing && p.images == [] && sweptBufs c s == [] then
    move 0x13 8 0 3 (onPort c (fun p => { p with freeing := false, cfg := none, cfgPrev := none, map := none }) s)
  else s

/-- Accepted images of a port that satisfy a condition are discarded and their buffers return (R149). -/
def dropImages (c : Nat) (f : CamImage → Bool) (s : State) : State :=
  let n := ((portOf c s).images.filter f).length
  settlePort c (move 0x13 4 8 n (onPort c (fun p => { p with images := p.images.filter (fun x => !f x) }) s))

/-- Accepted images of every port that satisfy a condition are discarded. -/
def dropAllImages (f : CamImage → Bool) (s : State) : State := camPorts.foldl (fun s c => dropImages c f s) s

/-- The sweep in progress ends without a result: its MPI slot and buffers return. -/
def abandonSweep (s : State) : State :=
  match s.cam.sweep with
  | none => s
  | some w =>
    let s := move 0x13 4 8 w.ports.length (onCam (fun x => { x with sweep := none }) s)
    mpiCollect (w.ports.foldl (fun s e => settlePort e.1 s) s)

/-- Images, the sweep in progress and finished sweeps for frames before `k` are discarded (R162, R163). -/
def dropCapture (k : Nat) (s : State) : State :=
  let s := match s.cam.sweep with | some w => if w.k < k then abandonSweep s else s | none => s
  mpiCollect (onCam (fun x => { x with done := x.done.filter (fun e => k ≤ e.1) }) (dropAllImages (fun x => x.k < k) s))

/-- Every image and sweep is discarded (R163). -/
def dropAllCapture (s : State) : State :=
  mpiCollect (onCam (fun x => { x with done := [] }) (dropAllImages (fun _ => true) (abandonSweep s)))

/-- Transfers waiting at a port end with a status (R143); each failed one raises event 0x86. -/
def endI2c (c st : Nat) (s : State) : State :=
  (portOf c s).i2c.foldl (fun s t => raise 0x86 [] (finish t.h 0x0C05 (no st) s)) (onPort c (fun p => { p with i2c := [] }) s)

/-- A port is powered down (R135). -/
def portDown (c : Nat) (s : State) : State := endI2c c St.notPresent (onPort c (fun p => { p with gear := none }) s)

/-- Ports that R135 no longer powers go down. -/
def settlePower (s : State) : State :=
  camPorts.foldl (fun s c => if (portOf c s).gear.isSome && !portPowered c s then portDown c s else s) s

/-! ## Windows and triggers -/

/-- Start of camera window `k`: S_P(k−3) (R147). -/
def windowStart (k : Nat) (s : State) : Nat := frameStart (k - 3) s
/-- End of camera window `k`: S_P(k−2). -/
def windowEnd (k : Nat) (s : State) : Nat := frameStart (k - 2) s

/-- The trigger settings of a window (R146). -/
def trigAt (k : Nat) (s : State) : TrigCfg :=
  match s.cam.trigNext with
  | some (f, t) => if f ≤ k then t else s.cam.trig
  | none => s.cam.trig

/-- T_trig(k, c) (R147). -/
def trigTime (k c : Nat) (s : State) : Nat :=
  let t := trigAt k s
  ((windowStart k s + t.offset * 1000 : Nat) + 10 * t.skew.getD c 0 : Int).toNat

/-- A port has its images for window `k` in the sweep (R148): an image accepted, SWEEP set, a valid map, no re-arming
awaited. -/
def portPresent (c k : Nat) (s : State) : Bool :=
  let p := portOf c s
  (match p.images.find? (fun x => x.k == k), p.map with | some x, some m => m.w == x.cfg.w && m.h == x.cfg.h | _, _ => false) &&
  (match p.cfg with | some g => g.sweep | none => false) && !p.rearm && !p.masked && !p.format

/-! ## Rectification (R150 to R152) -/

/-- The code of a failing map (R150): `avail` is what the buffer holds from the map's offset on. -/
def mapBad (bs : List Byte) (len avail : Nat) (g : Option CamCfg) (d : Option PanelDesc) : Option Nat :=
  let kx := field bs 4 2
  let ky := field bs 6 2
  if avail < len ∨ len < 32 then some 0x01
  else if len ≠ 32 + 12 * (kx * ky) then some 0x01
  else if field bs 0 4 ≠ 0x4D52564C then some 0x02
  else if crc32c (bytesAt bs 0 28) ≠ field bs 28 4 ∨ crc32c (bytesAt bs 32 (12 * (kx * ky))) ≠ field bs 24 4 then some 0x03
  else
    let ok : Bool := match g, d with
      | some g, some d => kx == ceilDiv d.hx 16 + 1 && ky == ceilDiv d.hy 16 + 1 && field bs 8 2 == g.w && field bs 10 2 == g.h
      | _, _ => false
    if !ok || !within bs 12 2 64 1024 || !within bs 14 2 64 1024 || !within bs 16 2 64 1024 || !zeroAt bs 18 6 then some 0x04
    else none

/-- The map of valid bytes. -/
def mapOf (bs : List Byte) : CamMap :=
  let kx := field bs 4 2
  let ky := field bs 6 2
  { kx := kx, ky := ky, w := field bs 8 2, h := field bs 10 2, gain := [field bs 12 2, field bs 14 2, field bs 16 2],
    knots := (List.range (kx * ky)).map (fun n =>
      let o := 32 + 12 * n
      if field bs o 4 = 0x80000000 then none
      else some (signed 32 (field bs o 4), signed 32 (field bs (o + 4) 4), field16s bs (o + 8), field16s bs (o + 10))) }

/-- Interpolation of a knot value (R151). -/
def lerp (a b : Nat) (k00 k10 k01 k11 : Int) : Int :=
  rnd (((16 - a) * (16 - b) : Nat) * k00 + (a * (16 - b) : Nat) * k10 + ((16 - a) * b : Nat) * k01 + (a * b : Nat) * k11) 256

/-- Camera position of sample (x, y) on a plane of disparity `disp` (R151). -/
def camPos (m : CamMap) (x y : Nat) (disp : Int) : Option (Int × Int) :=
  let n := (y / 16) * m.kx + x / 16
  let at_ := fun i => m.knots.getD i none
  match at_ n, at_ (n + 1), at_ (n + m.kx), at_ (n + m.kx + 1) with
  | some p, some q, some r, some t =>
    let f := fun (g : Int × Int × Int × Int → Int) => lerp (x % 16) (y % 16) (g p) (g q) (g r) (g t)
    some (f (·.1) + rnd (disp * f (·.2.2.1)) 64, f (·.2.1) + rnd (disp * f (·.2.2.2)) 64)
  | _, _, _, _ => none

/-- clamp of R152, after the shift by 8. -/
def clampPix (v : Int) : Nat := (clampInt 0 255 (floorDiv v 256)).toNat

/-- Channel `ch` of camera pixel (i, j) of the image at a base address (R152). -/
def camPixel (mem : DevMem) (g : CamCfg) (base i j ch : Nat) : Nat :=
  let row := base + j * camPitch g
  let b := fun o => (memGet mem (row + o)).toNat
  if g.dtype = 0x24 then b (3 * i + ch)
  else if g.dtype = 0x2A then b i
  else
    let p := 4 * (i / 2)
    let y : Int := b (p + 1 + 2 * (i % 2))
    let cb : Int := (b p : Int) - 128
    let cr : Int := (b (p + 2) : Int) - 128
    match ch with
    | 0 => clampPix (298 * (y - 16) + 459 * cr + 128)
    | 1 => clampPix (298 * (y - 16) - 55 * cb - 136 * cr + 128)
    | _ => clampPix (298 * (y - 16) + 541 * cb + 128)

/-- What a camera contributes to a sample: its channel values with gain, none when it does not contribute (R152). -/
def camValue (mem : DevMem) (g : CamCfg) (m : CamMap) (base x y : Nat) (disp : Int) : Option (List Nat) :=
  match camPos m x y disp with
  | none => none
  | some (cx, cy) =>
    let ci := floorDiv cx 16
    let cj := floorDiv cy 16
    let fx := (cx - 16 * ci).toNat
    let fy := (cy - 16 * cj).toNat
    if ci < 0 ∨ (g.w : Int) - 2 < ci ∨ cj < 0 ∨ (g.h : Int) - 2 < cj then none
    else
      let i := ci.toNat
      let j := cj.toNat
      some ((List.range 3).map (fun ch =>
        let v := fun a b => camPixel mem g base (i + a) (j + b) ch
        let q := ((16 - fx) * (16 - fy) * v 0 0 + fx * (16 - fy) * v 1 0 + (16 - fx) * fy * v 0 1 + fx * fy * v 1 1 + 128) / 256
        min 255 ((q * m.gain.getD ch 256 + 128) / 256)))

/-! ## Opacity (R154, R155) -/

/-- rnd of R107 on natural numbers. -/
def rndN (a n : Nat) : Nat := (a + n / 2) / n

/-- The sample of R154, with R155 on the rear plane: R, G, B, A. -/
def sweepSample (c : SweepCfg) (rear : Bool) (vs : List (List Nat)) : List Nat :=
  let n := vs.length
  if n = 0 then [0, 0, 0, 0]
  else
    let mu := (List.range 3).map (fun ch => rndN (vs.foldl (fun t v => t + v.getD ch 0) 0) n)
    let dev := rndN (vs.foldl (fun t v => (List.range 3).foldl (fun t ch =>
      t + ((v.getD ch 0 : Int) - mu.getD ch 0).natAbs) t) 0) n
    let a := if rear && c.fill then 255
      else if n < c.minViews then 0
      else if dev ≤ c.lo then 255
      else if c.hi ≤ dev then 0
      else rndN (255 * (c.hi - dev)) (c.hi - c.lo)
    mu.map (fun v => rndN (v * a) 255) ++ [a]

/-- The cameras of a sweep: configuration, map, image base. -/
def sweepCams (w : Sweep) : List (CamCfg × CamMap × Nat) :=
  (w.ports.zip w.cams).map (fun e => (e.2.1, e.2.2, camBase e.1.1 e.1.2))

/-- The samples of a tile of a plane. -/
def sweepTile (d : PanelDesc) (w : Sweep) (mem : DevMem) (cams : List (CamCfg × CamMap × Nat)) (p t : Nat) : List (List Nat) :=
  let (x0, y0, tw, th) := d.tileBox t
  let disp := w.cfg.disp.getD p 0
  (List.range th).flatMap (fun r => (List.range tw).map (fun c =>
    sweepSample w.cfg (p + 1 == w.planes) (cams.filterMap (fun e => camValue mem e.1 e.2.1 e.2.2 (x0 + c) (y0 + r) disp))))

/-- The sweep writes its MPI slot: each tile with any opacity, and its occupancy bit (R156). -/
def sweepWrite (d : PanelDesc) (w : Sweep) (s : State) : State :=
  let cams := sweepCams w
  let mem := s.mem
  (List.range w.planes).foldl (fun s p => (List.range d.tiles).foldl (fun s t =>
    let v := sweepTile d w mem cams p t
    if v.all (fun q => q.getD 3 0 == 0) then setOcc w.mpi p t false s
    else putTile d w.mpi p t (v.flatten.map (BitVec.ofNat 8)) s) s) s

end Sys2Proof.Machine
end

