-- ==== Sys2Proof/Machine/ScanoutOps.lean ====
section
/-! DEFINITION. Scan-out operations (chapter 06): layers and their sources (R182, R184), the holds of the heads on frames
and their retirement (R174), what a half shows (R173, R189), the rows it sends (R171, R179, R187, R193), dark intervals
(R198) and steps of Meridian time (R169). -/

namespace Sys2Proof.Machine

/-- Updates the scan-out. -/
def onScn (f : ScnSt → ScnSt) (s : State) : State := { s with scn := f s.scn }

/-! ## Layers (R180 to R184) -/

/-- A layer. -/
def layerOf (n : Nat) (s : State) : Layer := s.scn.layers.getD n {}

/-- The device buffer of a layer's source. -/
def Layer.buf (l : Layer) : Option Nat := match l.src with | some (.dev b _) => some b | _ => none

/-- The source is host memory. -/
def Layer.isHost (l : Layer) : Bool := match l.src with | some (.host _) => true | _ => false

/-- Layer `n` is read: an enabled overlay, or the flat base in Flat (R184). -/
def layerRead (n : Nat) (s : State) : Bool := if n = 0 then s.mode.mode == .flat else (layerOf n s).on

/-- The source of layer `n` is let go when its buffer is no longer live and nothing reads it (R184). -/
def pruneLayer (n : Nat) (reads : Bool) (s : State) (l : Layer) : Layer :=
  match l.buf with
  | none => l
  | some b => (match s.buf.bufs.find? (fun x => x.idx == b) with
    | none => { l with src := none, on := l.on && n == 0 }
    | some x => if x.live || reads then l else { l with src := none })

/-- The device buffers that scan-out references: sources of layers, of waiting changes, and replaced ones still to be read
(R182). -/
def layerBufs (s : State) : List Nat :=
  s.scn.layers.filterMap Layer.buf ++
  s.scn.waits.filterMap (fun w => match w.op with | .set _ l => l.buf | _ => none) ++ s.scn.fences.flatMap (·.gone)

/-- A half holds the sources: it is present, or neither half is. -/
def holdsHalf (b : Bool) (s : State) : Bool :=
  (twoHalves s || !b) && ((plkOf b s).present || !(plkOf (!b) s).present)

/-- The stage of a half. -/
def halfStage (b : Bool) : Stage := if b then .stratusB else .stratusA

/-- The holds of a half on buffers follow what scan-out references. -/
def syncHolds (b : Bool) (s : State) : State :=
  let want := if holdsHalf b s then layerBufs s else []
  s.buf.bufs.foldl (fun s x =>
    let has := x.holds.contains (halfStage b, 0)
    if want.contains x.idx && !has then hold x.idx (halfStage b) 0 s
    else if has && !want.contains x.idx then release x.idx (halfStage b) 0 s else s) s

/-- Sources that nothing may read any more are let go, and the holds follow (R182, R184). -/
def settleLayers (s : State) : State :=
  let s := onScn (fun c => { c with
    layers := c.layers.zipIdx.map (fun e => pruneLayer e.2 (layerRead e.2 s) s e.1),
    waits := c.waits.map (fun w => match w.op with
      | .set n l => { w with op := .set n (pruneLayer n (layerRead n s) s l) }
      | _ => w) }) s
  syncHolds true (syncHolds false s)

/-- A BUF_FREE of a buffer that no layer reads removes it from the layers at its acceptance (R184). -/
def dropSources (idx : Nat) (s : State) : State :=
  let drop := fun n (l : Layer) => if l.buf = some idx ∧ !layerRead n s then { l with src := none } else l
  settleLayers (onScn (fun c => { c with
    layers := c.layers.zipIdx.map (fun e => drop e.2 e.1),
    waits := c.waits.map (fun w => match w.op with | .set n l => { w with op := .set n (drop n l) } | _ => w) }) s)

/-- A waiting change applies from frame `k` (R182): event 0x98 with the layer, 0xFF where the change names no single one
(DEDUCED, log entry 23), and k; the replaced source and the fence wait for the last read of the frames before. -/
def applyWait (k : Nat) (w : LayerWait) (s : State) : State :=
  let ls := s.scn.layers
  let (ls', gone, layer) : List Layer × List Nat × Nat := match w.op with
    | .set n l => (ls.set n { l with on := (ls.getD n {}).on && l.src.isSome }, ((ls.getD n {}).buf).toList, n)
    | .enable m => (ls.zipIdx.map (fun e => if e.2 = 0 then e.1 else { e.1 with on := m.testBit e.2 && e.1.src.isSome }),
        ls.zipIdx.filterMap (fun e => if e.2 ≠ 0 ∧ e.1.on ∧ !m.testBit e.2 then e.1.buf else none), 0xFF)
    | .starlight => (ls, [], 0xFF)
  let s := onScn (fun c => { c with
    layers := ls', fences := c.fences ++ [⟨k, w.fence, w.value, gone⟩],
    star := (match w.op with | .starlight => c.starNext | _ => c.star),
    starNext := (match w.op with | .starlight => none | _ => c.starNext) }) s
  raise 0x98 [(1, layer), (8, k)] s

/-- Changes due by frame `k` apply, in the order accepted. -/
def applyWaits (k : Nat) (s : State) : State :=
  let due := s.scn.waits.filter (fun w => match w.k with | some f => decide (f ≤ k) | none => true)
  let s := onScn (fun c => { c with
    waits := c.waits.filter (fun w => match w.k with | some f => decide (k < f) | none => false) }) s
  due.foldl (fun s w => applyWait k w s) s

/-- Fences whose replaced sources have been read for the last time are written, and the sources let go (R182, R183). -/
def endFences (k : Nat) (s : State) : State :=
  let due := s.scn.fences.filter (fun f => decide (f.k ≤ k))
  let s := onScn (fun c => { c with fences := c.fences.filter (fun f => decide (k < f.k)) }) s
  settleLayers (due.foldl (fun s f => writeFence 0x9F f.fence f.value s) s)

/-- The frame index an application outside the frame grid reports (R182). -/
def noFrame : Nat := 2 ^ 64 - 1

/-- Changes due at Meridian instant now while no grid runs apply, with their fences (R182). -/
def applyWaitsDawn (s : State) : State :=
  let due := s.scn.waits.filter (fun w => w.k.isNone && decide (w.at_ ≤ merNs s))
  if s.scn.seg.isSome || due.isEmpty then s
  else
    let s := onScn (fun c => { c with waits := c.waits.filter (fun w => !(w.k.isNone && decide (w.at_ ≤ merNs s))) }) s
    endFences noFrame (due.foldl (fun s w => applyWait noFrame w s) s)

/-- Every layer, waiting change and store page is cleared; fences are written when the link is up, for the layers of host
memory alone or for all (R200). -/
def clearLayers (hostOnly : Bool) (s : State) : State :=
  let ls := s.scn.layers
  let isHost := fun (w : LayerWait) => match w.op with | .set n _ => (ls.getD n {}).isHost | _ => false
  let fs := s.scn.fences.filter (fun f => !hostOnly || f.gone.isEmpty)
  let ws := s.scn.waits.filter (fun w => !hostOnly || isHost w)
  let s := onScn (fun c => { c with
    layers := List.replicate 5 {}, layersOld := List.replicate 5 {}, waits := [], fences := [], star := none,
    starNext := none }) s
  let s := fs.foldl (fun s f => if s.cmd.up then writeFence 0x9F f.fence f.value s else s) s
  settleLayers (ws.foldl (fun s w => if s.cmd.up then writeFence 0x9F w.fence w.value s else s) s)

/-- Bytes per second the enabled host-memory overlays of a list read (R185). -/
def hostRead (ls : List Layer) (nq rate : Nat) : Nat :=
  (ls.drop 1).foldl (fun n l => if l.on && l.isHost then n + 4 * l.w * l.h * nq * rate else n) 0

/-- The overlays as they will stand once the waiting changes have applied. -/
def layersToCome (s : State) : List Layer :=
  s.scn.waits.foldl (fun ls w => match w.op with
    | .set n l => ls.set n { l with on := (ls.getD n {}).on && l.src.isSome }
    | .enable m => ls.zipIdx.map (fun e => if e.2 = 0 then e.1 else { e.1 with on := m.testBit e.2 && e.1.src.isSome })
    | .starlight => ls) s.scn.layers

/-- The host-memory limit of R185 holds for a list of overlays in a mode at a rate, with a value of SCN_HOST_BW. Starlight
composites no overlay. -/
def hostFits (ls : List Layer) (m : Mode) (rate bw : Nat) (s : State) : Bool :=
  !isLit m || m == .starlight || hostRead ls (nqOf m s) rate ≤ bw * 1000000

/-- Every enabled host-memory overlay is switched off in both halves and disabled: event 0x99 (R186). -/
def hostLayersOff (s : State) : State :=
  let off := ((s.scn.layers.zipIdx.filter (fun e => e.2 ≠ 0 && e.1.on && e.1.isHost)).map (·.2))
  if off.isEmpty then s
  else
    let cut := fun (h : Head) => { h with ovlOff := h.ovlOff ++ off }
    raise 0x99 [] (onHead false cut (onHead true cut (onScn (fun c => { c with
      layers := c.layers.zipIdx.map (fun e => if off.contains e.2 then { e.1 with on := false } else e.1) }) s)))

/-! ## Frames held by the heads (R174) -/

/-- A frame of the store is retired: SYN_RETIRED_K, its status, the fences at RETIRED, and its slots return (R121, R126). -/
def retireFrame (k : Nat) (s : State) : State :=
  let s := onSyn (fun y => { y with retiredK := max y.retiredK k }) s
  let s := onFrameStat k (fun t => { t with state := 4 }) s
  let s := dropFrame k 6 7 s
  let forget := fun (h : Head) => { h with bad := h.bad.filter (· != k) }
  jobFences k 2 (onHead true forget (onHead false forget s))

/-- A half holds frame `k`. -/
def holdsFrame (b : Bool) (f : Frame) : Bool := if b then f.holdB else f.holdA

/-- A half takes its hold on frame `k`, or lets it go. -/
def markHold (b on : Bool) (k : Nat) (s : State) : State :=
  onFrames (fun l => l.map (fun f => if f.k = k then (if b then { f with holdB := on } else { f with holdA := on }) else f)) s

/-- A half ends its hold on frame `k`: the frame is retired once neither half holds it. -/
def letFrame (b : Bool) (k : Nat) (s : State) : State :=
  match frameOf k s with
  | none => s
  | some f =>
    if !holdsFrame b f then s
    else
      let s := markHold b false k s
      if holdsFrame (!b) f then s else retireFrame k s

/-- A half ends its holds but on the frame it shows now. -/
def letBefore (b : Bool) (s : State) : State :=
  let now := (headOf b s).now.frame
  let s := onHead b (fun h => { h with before := {} }) s
  s.scn.frames.foldl (fun s f => if now ≠ some f.k ∧ holdsFrame b f then letFrame b f.k s else s) s

/-- Every hold of a half ends (R200). -/
def letAll (b : Bool) (s : State) : State :=
  letBefore b (onHead b (fun h => { h with now := {}, before := {}, lit := false }) s)

/-- Committed frames up to `k` that no half has taken at their S_Pk are retired unseen (DEDUCED, log entry 24). -/
def retireUnseen (k : Nat) (s : State) : State :=
  (s.scn.frames.filter (fun f => f.committed && decide (f.k ≤ k) && !f.holdA && !f.holdB)).foldl (fun s f => retireFrame f.k s) s

/-- Every frame of the store is discarded and its slots return (R169, R200): a frame no half has shown counts as missed;
fences of frame jobs still to be written are written, or dropped. -/
def dropFrames (fences : Bool) (s : State) : State :=
  let s := if fences then s else onSyn (fun y => { y with fences := [] }) s
  let s := (s.scn.frames.filter (fun f => f.committed)).foldl (fun s f =>
    if f.holdA || f.holdB then retireFrame f.k (jobFences f.k 1 s)
    else dropFrame f.k 6 7 (jobFences f.k 2 (jobFences f.k 1 (onFrameStat f.k (fun t => { t with state := 5 }) s)))) s
  let clear := fun (h : Head) => { h with now := {}, before := {}, bad := [] }
  onHead true clear (onHead false clear s)

/-! ## What a half shows (R173, R189) -/

/-- A half emits. -/
def halfLit (b : Bool) (s : State) : Bool := (headOf b s).lit

/-- The background colour is shown in frame `k`: event 0x94 with k and a reason, for which the spec gives no codes. -/
def bgEvent (b : Bool) (k : Nat) (s : State) : State :=
  raise (scnEvt b 0x94) [(8, k), (1, Config.bgReason s.free)]
    (drawn (onHead b (fun h => { h with bgFrames := h.bgFrames + 1 }) s))

/-- A half shows `w` in frame `k`; what it showed before stays held until its last band has been sent. -/
def setShow (b : Bool) (k : Nat) (w : Show) (s : State) : State :=
  let s := onHead b (fun h => { h with before := h.now, now := w, shownK := k }) s
  match w.frame with
  | some f => markHold b true f s
  | none => s

/-- A frame of the store may be shown again in a half (R173 item 2). -/
def repeatable (b : Bool) (s : State) : Option Nat :=
  let h := headOf b s
  match h.now.frame with
  | none => none
  | some k => (match frameOf k s with
    | some f =>
      let swept : Bool := match f.src with | .sweep _ => true | _ => false
      if (h.now.source == 1 || h.now.source == 2) && f.phases == phasesNow s && !h.bad.contains k &&
        (s.mode.mode != .skylight || swept) then some k else none
    | none => none)

/-- A lit half chooses what it shows in frame `k` (R173, R178, R189, R193). -/
def chooseLit (b : Bool) (k : Nat) (s : State) : State :=
  let h := headOf b s
  match s.mode.mode with
  | .flat => setShow b k { h.now with source := if (layerOf 0 s).src.isSome then 3 else 0 } s
  | .starlight => setShow b k { h.now with source := 4 } s
  | .stillAir => (match h.now.frame with
    | some f => if h.bad.contains f then bgEvent b k (setShow b k {} s) else setShow b k ⟨1, some f⟩ s
    | none => bgEvent b k (setShow b k {} s))
  | _ =>
    let fresh : Bool := match frameOf k s with | some f => f.committed && f.phases == phasesNow s | none => false
    if fresh then setShow b k ⟨1, some k⟩ s
    else match repeatable b s with
      | some f => raise (scnEvt b 0x93) [(8, k)] (onHead b (fun h => { h with repeats := h.repeats + 1 }) (setShow b k ⟨2, some f⟩ s))
      | none => bgEvent b k (setShow b k {} s)

/-- A present half handles frame `k`, which starts dark (R174, R198): a committed frame is shown, though no light leaves;
the frame before is let go, but the one kept for Still-air. -/
def chooseDark (b : Bool) (k : Nat) (s : State) : State :=
  if !isRendered s.mode.mode then s
  else
    let fresh : Bool := match frameOf k s with | some f => f.committed && f.phases == phasesNow s | none => false
    letBefore b (setShow b k (if fresh && (plkOf b s).present then ⟨1, some k⟩ else {}) s)

/-- The session of a frame of the store shows a stream frame, perhaps its first: event 0x68, and any other session that has
shown frames ends as REPLACED (R66). -/
def sessionShown (i uid k : Nat) (s : State) : State :=
  match sessOf i s with
  | none => s
  | some x => (match x.frames.find? (fun f => f.uid == uid) with
    | none => s
    | some f =>
      if (match x.shown with | some g => g.uid == uid | none => false) then s
      else
        let s := onSess i (fun x => { x with shown := some f, shownEnd := frameStart (k + 1) s }) s
        let s := onStat i (fun t => { t with shown := t.shown + 1 }) s
        if x.shown.isSome then mpiCollect s
        else
          let s := raise 0x68 (mtItems (x.start.getD 0)) s
          mpiCollect (match sessOf (1 - i) s with
            | some y => if y.shown.isSome then endSession (1 - i) 2 0 s else s
            | none => s))

/-- Frame `k` of the store is shown at its S_Pk: SYN_SHOWN_K, its status, the fences at SHOWN, its session (R121, R126). -/
def frameShown (k : Nat) (s : State) : State :=
  match frameOf k s with
  | none => s
  | some f =>
    let s := onSyn (fun y => { y with shownK := max y.shownK k }) s
    let s := jobFences k 1 (onFrameStat k (fun t => { t with state := 3 }) s)
    match f.src with
    | .session i _ uid => sessionShown i uid k s
    | _ => s

/-! ## Rows (R171, R178, R179, R193) -/

/-- The three bytes of the background colour of a half (R188). -/
def bgBytes (b : Bool) (s : State) : List Byte :=
  let v := pv s (0x0D00 + 0x80 * b2n b)
  [BitVec.ofNat 8 (v / 65536), BitVec.ofNat 8 (v / 256), BitVec.ofNat 8 v]

/-- Device address of a source's offset. -/
def srcAddr (bf off : Nat) (s : State) : Nat :=
  match s.buf.bufs.find? (fun x => x.idx == bf) with
  | some x => bufAddr x + off
  | none => 0

/-- Base bytes of row `y` of a half (R171, R178): of slot `qi` of a stored frame, of the flat base, or the background. -/
def baseRow (d : PanelDesc) (b : Bool) (w : Show) (base : Layer) (qi y : Nat) (s : State) : List Byte :=
  let bg := (List.replicate d.wh (bgBytes b s)).flatten
  if w.source = 3 then
    (match base.src with
     | some (.dev bf off) => memGetAll s.mem (srcAddr bf off s + b2n b * d.block + y * d.rp) (3 * d.wh)
     | _ => bg)
  else match w.frame.bind (fun k => if w.source = 1 ∨ w.source = 2 then frameOf k s else none) with
    | some f => memGetAll s.mem (storeBase b (if b then f.slotB else f.slotA) + qi * d.block + y * d.rp) (3 * d.wh)
    | none => bg

/-- The bytes read for a host-memory overlay. -/
def hostBytes (host : List (Nat × List Byte)) (n : Nat) : List Byte :=
  match host.find? (fun e => e.1 == n) with
  | some e => e.2
  | none => []

/-- Byte `c` of the sample of an overlay at hogel (x, y); `top` is the first of the layer's rows of which `host` holds bytes. -/
def layerByte (l : Layer) (n top : Nat) (host : List (Nat × List Byte)) (x y c : Nat) (s : State) : Nat :=
  match l.src with
  | some (.dev bf off) => (memGet s.mem (srcAddr bf off s + (y - l.y0) * l.stride + 4 * (x - l.x0) + c)).toNat
  | some (.host _) => field (hostBytes host n) (((y - top) * l.w + (x - l.x0)) * 4 + c) 1
  | none => 0

/-- An overlay covers a hogel. -/
def Layer.covers (l : Layer) (x y : Nat) : Bool := l.x0 ≤ x && x < l.x0 + l.w && l.y0 ≤ y && y < l.y0 + l.h

/-- The overlays composited over a base byte of channel `c` at hogel (x, y) (R179). -/
def overByte (ls : List (Layer × Nat)) (top : Nat) (host : List (Nat × List Byte)) (x y c : Nat) (s : State) (v : Byte) : Byte :=
  BitVec.ofNat 8 (ls.foldl (fun v e =>
    if e.1.covers x y then
      (let smp := fun c => layerByte e.1 e.2 (max top e.1.y0) host x y c s
       min 255 (smp c + rndN (v * (255 - smp 3)) 255))
    else v) v.toNat)

/-- The data bytes of row `y` of a half with the overlays of a list (R171, R179, R213). -/
def rowData (d : PanelDesc) (b : Bool) (ls : List (Layer × Nat)) (top : Nat) (host : List (Nat × List Byte)) (y : Nat)
    (base : List Byte) (s : State) : List Byte :=
  base.zipIdx.map (fun e => overByte ls top host ((b2n b * d.wh + e.2 / 3) / d.lx) (y / d.ly) (e.2 % 3) s e.1)

/-- The enabled overlays of a list of layers that a head has not switched off, lowest first. -/
def litLayers (ls : List Layer) (off : List Nat) : List (Layer × Nat) :=
  ls.zipIdx.filter (fun e => e.2 ≠ 0 && e.1.on && e.1.src.isSome && !off.contains e.2)

/-- Reads of host memory for the overlay rows of [y, y + n) (R185). -/
def readHost (d : PanelDesc) (ls : List (Layer × Nat)) (y n : Nat) (s : State) : State :=
  ls.foldl (fun s e => match e.1.src with
    | some (.host a) =>
      let lo := max (y / d.ly) e.1.y0
      let hi := min ((y + n - 1) / d.ly + 1) (e.1.y0 + e.1.h)
      if lo < hi then emit (.hostRead (a + (lo - e.1.y0) * e.1.stride) ((hi - lo - 1) * e.1.stride + 4 * e.1.w)) s else s
    | _ => s) s

/-- Underruns of a slot act on a head (R187): the base for the rest of the frame, overlays likewise, each counted with its
event. -/
def underruns (b : Bool) (w : Show) (ls : List (Layer × Nat)) (f : FetchHalf) (s : State) : State :=
  let h := headOf b s
  let s := if f.base.isSome && w.source != 0 && !h.baseOff then
      raise (scnEvt b 0x90) [] (onHead b (fun h => { h with baseOff := true, cut := true, underBase := h.underBase + 1 }) s)
    else s
  f.ovl.foldl (fun s e =>
    if ls.any (fun l => l.2 == e.1) && !(headOf b s).ovlOff.contains e.1 then
      raise (scnEvt b 0x91) [(1, e.1)] (onHead b (fun h => { h with
        ovlOff := h.ovlOff ++ [e.1], underOvl := h.underOvl + 1 }) s)
    else s) s

/-- A half sends `n` rows from row `y` of a slot that ends at `slotEnd`: base from `w`, underruns as the fetch found them
(R171, R187). -/
def sendRows (d : PanelDesc) (b : Bool) (q qi : Nat) (w : Show) (layers : List Layer) (f : FetchHalf)
    (host : List (Nat × List Byte)) (y n slotEnd : Nat) (s : State) : State :=
  let h := headOf b s
  let ls := litLayers layers h.ovlOff
  let jobs : List RowJob := (List.range n).map (fun r =>
    let bare := h.baseOff || (match f.base with | some u => decide (u ≤ r) | none => false)
    let base := baseRow d b (if bare then {} else w) (layers.getD 0 {}) qi (y + r) s
    let on := ls.filter (fun e => !f.ovl.any (fun u => u.1 == e.2 && (y + u.2) / d.ly ≤ (y + r) / d.ly))
    ⟨false, q, y + r, rowData d b on (y / d.ly) host (y + r) base s, 0, slotEnd⟩)
  queueRows b jobs (underruns b w ls f s)

/-- The check of a phase block that a half has read in full (R175, R176). -/
def checkBlock (d : PanelDesc) (b : Bool) (w : Show) (k qi : Nat) (crc : Option Nat) (s : State) : State :=
  let h := headOf b s
  match (if h.cut || (w.source != 1 && w.source != 2) then none else w.frame.bind (fun n => frameOf n s)) with
  | none => s
  | some f =>
    let want := (if b then f.crcB else f.crcA).getD qi 0
    let got := crc.getD (crc32c (memGetAll s.mem (storeBase b (if b then f.slotB else f.slotA) + qi * d.block) d.block))
    if got = want then s
    else raise (scnEvt b 0x92) [(8, k), (1, qi)] (onHead b (fun h => { h with crcFail := h.crcFail + 1, bad := f.k :: h.bad }) s)

/-- Rows of the Starlight window on the panel (R193). -/
def StarPage.rows (p : StarPage) : Nat := p.h * p.scale

/-- The code of window column `x` in window row `r`, bit 3 zero (R191, R213). -/
def StarPage.code (p : StarPage) (x r : Nat) : Nat :=
  let sx := x / p.scale
  let v := field p.pixels (r / p.scale * ceilDiv p.w 2 + sx / 2) 1
  (if sx % 2 = 0 then v else v / 16) % 8

/-- The codes packed two to a byte, the low nibble first. -/
def packCodes : List Nat → List Byte
  | [] => []
  | [a] => [BitVec.ofNat 8 a]
  | a :: c :: r => BitVec.ofNat 8 (a + 16 * c) :: packCodes r

/-- The data of window row `r` in a half, if any of it lies there (R213, PTYPE 1). -/
def starRow (d : PanelDesc) (b : Bool) (p : StarPage) (r : Nat) : Option (List Byte) :=
  let lo := max p.x0 (b2n b * d.wh)
  let hi := min (p.x0 + p.w * p.scale) (b2n b * d.wh + d.wh)
  if hi ≤ lo then none
  else some (leBytes 2 (lo - b2n b * d.wh) ++ leBytes 2 (hi - lo) ++ zeroBytes 4 ++ bytesAt p.palette 0 24 ++
    packCodes ((List.range (hi - lo)).map (fun i => p.code (lo - p.x0 + i) r)))

/-! ## Readiness and darkness (R198, R200, R244, R258) -/

/-- The layer may be powered: the hold-up store is charged, no recovery at L1 runs, STD_REST has passed where one asks for
it. -/
def layerReady (s : State) : Bool :=
  s.std.charged && !s.std.recovering &&
  (!s.std.rest || (match s.std.closedAt with | some t => decide (t + pv s 0x0F03 * 1000000 ≤ s.time.ref) | none => false))

/-- The mode in force can be lit as far as the layer goes. -/
def mayLight (s : State) : Bool := !isLightField s.mode.mode || layerReady s

/-- Every half that is present has trained. -/
def allTrained (s : State) : Bool :=
  let here := (halves s).filter (fun b => (plkOf b s).present)
  !here.isEmpty && here.all (fun b => (plkOf b s).up)

/-- A half stops emitting at once: DARK with a reason, its rows and windows dropped, the block being read interrupted. -/
def darken (b : Bool) (reason : Nat) (s : State) : State :=
  let up := (plkOf b s).up
  let s := onHead b (fun h => { h with lit := false, cut := true }) s
  let s := onPlk b (fun p => { p with rows := [] }) s
  if up then sendDark b reason s else s

/-- Emission stops in both halves at once and the layer is unpowered (R198 step 1, R256). -/
def lightsOut (reason : Nat) (s : State) : State :=
  let s := (halves s).foldl (fun s b => darken b reason s) s
  stdDischarge (onScn (fun c => { c with wins := [] }) s)

/-- Frame period of a segment in ns, rounded up. -/
def periodNs (f : Nat) : Nat := ceilDiv nsPerSec f

/-- A dark interval begins (R198): the new segment starts at c′; event 0x9B with its reason. -/
def beginDark (reason c : Nat) (g : Seg) (s : State) : State :=
  raise 0x9B [(1, reason)] (onScn (fun x => { x with
    seg := some g, began := false, cur := none, prev := none, band := 0, row := 0, wins := [], stillSince := none,
    dark := some ⟨c, g.c, reason, 0, g.start (g.kc + 2) 0, false⟩ }) s)

/-- The panel is lit: no dark interval runs and some half emits. -/
def panelLit (s : State) : Bool := s.scn.seg.isSome && s.scn.dark.isNone && (halfLit false s || halfLit true s)

/-- SCN_EMIT_WINDOW in µs (R172, R203): 0 outside the light-field modes. -/
def emitWindow (s : State) : Nat :=
  match s.scn.seg with
  | some g => if isLightField s.mode.mode then
      (let u := nsPerSec / (g.f * g.nq)
       (u - max (settleNow s * 1000) (2 * (u / bandsN s)) - 200000) / 1000)
    else 0
  | none => 0

/-! ## Steps of Meridian time (R169) -/

/-- A step that is not absorbed: emission stops, the frames are discarded with their jobs, a new segment begins at least two
frame periods later, and in Skylight the capture restarts. -/
def timeJump (s : State) : State :=
  match s.scn.seg with
  | none => s
  | some g =>
    let k := match s.scn.lastK with | some k => k + 1 | none => g.kc
    let s := lightsOut 2 s
    let s := match s.syn.cur with
      | some c => stopSynth (match c.src with
          | .job j => endJob j ⟨St.deadlineMissed, c.k % 2 ^ 32, 0, 0⟩ true false s
          | _ => s)
      | none => s
    let due := s.syn.jobs.filter (fun j => decide (j.k < k))
    let s := due.foldl (fun s j => endJob j ⟨St.deadlineMissed, j.k % 2 ^ 32, 0, 0⟩ true false s)
      (onSyn (fun y => { y with jobs := y.jobs.filter (fun j => decide (k ≤ j.k)), nextK := some k, freeAt := some (merNs s) }) s)
    let s := dropFrames true s
    let s := if s.mode.mode = .skylight then onCam (fun c => { c with fromK := k + 3 }) (dropAllCapture s) else s
    let s := beginDark 2 (merNs s) (segFrom (boundaryFrom (merNs s + 2 * periodNs g.f) g.f) g.f g.nq (some k)) s
    match s.mode.change with
    | none => s
    | some x =>
      let b := changeBoundary x.target x.rate x.c s
      { s with mode := { s.mode with change := some { x with c := b.1, k := b.2 } } }

/-- Scan-out's treatment of a step of Meridian time by `d` ns (R169): event 0x9D with Δ and whether it was absorbed. -/
def scnTimeStep (d : Int) (s : State) : State :=
  let small := decide (d.natAbs ≤ pv s 0x0D22)
  let s := raise 0x9D [(8, unsigned 64 d), (1, b2n small)] s
  if small then s else timeJump s

end Sys2Proof.Machine
end

