-- ==== Sys2Proof/Machine/Idle.lean ====
section
/-! DEFINITION. What happens while no command waits (log entry 2). -/

namespace Sys2Proof.Machine

/-- One 2 ns tick of the time clock (R264); scan-out changes that wait for an instant outside the frame grid come due (R182). -/
def idle (s : State) : State := applyWaitsDawn (ticks 1 s)

end Sys2Proof.Machine
end

