-- ==== Sys2Proof/Machine/RingOps.lean ====
section
/-! DEFINITION. Ring pairs going off, and the host's link going down (R388, R392, R395). -/

namespace Sys2Proof.Machine

/-- The pair's entries of both ledger pools go to FREE (R395). -/
def freeRingEntries (x : Ring) (s : State) : State :=
  if x.held then
    move 0x21 2 0 (x.n - unreleased x) (move 0x21 1 0 (unreleased x)
      (move 0x20 1 0 (x.n - unread x) (move 0x20 2 0 (unread x) s)))
  else s

/-- The pair is off: its entries are free and its unread commands do not exist any more (R392, R395). -/
def ringOff (r : Nat) (s : State) : State :=
  let x := ringOf s r
  setRing r { x with state := .off, held := false } (freeRingEntries x s)

/-- The host's link is down (R388): every pair is off without draining, the commands waiting in or read from its rings and
not accepted end with it, the replies of accepted ones will be discarded, and the event queue is disabled (R421). -/
def linkDown (s : State) : State :=
  if !s.cmd.up then s
  else
    let fromRing := fun (h : Hdr) => h.src != .side
    let s := { s with evt := { s.evt with qEnable := false }, cmd := { s.cmd with
      up := false, l1 := false, lostRaised := false, waits := s.cmd.waits.filter (fun w => !fromRing w.h),
      live := s.cmd.live.map (fun l => if fromRing l.h then { l with orphan := true } else l) } }
    (List.range 16).foldl (fun s r =>
      let s := ringOff r s
      setRing r { ringOf s r with enable := false } s) s

end Sys2Proof.Machine
end

