-- ==== Sys2Proof/Machine/NetBase.lean ====
section
/-! DEFINITION. The bridge's state operations: which ports run (R450), a port that goes down (R449, R450), gate lists over time
(R446, R447), and the configuration records of the NV store (R440). -/

namespace Sys2Proof.Machine

/-- Updates the bridge. -/
def onNet (f : NetSt → NetSt) (s : State) : State := { s with net := f s.net }

/-- A bridge port. -/
def netPort (s : State) (n : Nat) : NetPort := s.net.ports.getD n {}

/-- Updates one port. -/
def onNetPort (n : Nat) (f : NetPort → NetPort) (s : State) : State := onNet (fun b => { b with ports := b.ports.modify n f }) s

/-- The port is configured as a link (R441). -/
def netConfigured (s : State) (port : Nat) : Bool := (netPort s port).speed != 0

/-- A port set to a speed can run in the mode in force (R450). -/
def netAllowed (n speed : Nat) (s : State) : Bool :=
  match s.mode.mode with
  | .dormant => false
  | .starlight => n == 8 || (n ≤ 1 && speed == 2)
  | _ => true

/-- NET_PORT_STATE (R456): 0 disabled, 1 down, 2 up, 3 masked, 4 down by mode. The internal port has no link and reports 0. -/
def netPortState (s : State) (n : Nat) : Nat :=
  let p := netPort s n
  if p.speed = 0 then 0 else if p.masked then 3 else if !netAllowed n p.speed s then 4 else if p.up then 2 else 1

/-- Forwarding runs: the main domain is on and no recovery holds the bridge (R449, R450). -/
def netRuns (s : State) : Bool :=
  mainOn s && !s.evt.recs.any (fun r => r.running && ((2 ≤ r.level && r.level ≤ 3) || (r.domain == 0x20 && r.level == 1)))

/-- Cells of a frame of `n` bytes (R443). -/
def cellsOf (n : Nat) : Nat := ceilDiv n 256

/-- Frames without a copy left to send give their cells back (R443). -/
def netCollect (s : State) : State :=
  let gone := s.net.frames.filter (fun f => !s.net.queue.any (fun c => c.uid == f.uid))
  gone.foldl (fun s f => move 0x28 f.col 0 f.cells s)
    (onNet (fun b => { b with frames := b.frames.filter (fun f => b.queue.any (fun c => c.uid == f.uid)) }) s)

/-- Every queued frame is discarded. -/
def netFlush (s : State) : State := netCollect (onNet (fun b => { b with queue := [] }) s)

/-- A port is down (R450): its queued frames are discarded, the addresses learned on it removed. -/
def netDrop (n : Nat) (s : State) : State :=
  let s := onNetPort n (fun p => { p with up := false }) s
  let s := onNet (fun b => { b with queue := b.queue.filter (fun c => c.port != n),
                                    fullSaid := b.fullSaid && !b.fdb.any (fun e => e.port == n),
                                    fdb := b.fdb.filter (fun e => e.port != n) }) s
  netCollect s

/-- The payload of event 0xD1: the port and a cause, for which the spec lists no codes (kinds: 0 link lost, 1 mode, 2 new
settings, 3 detach). -/
def downItems (n kind : Nat) : List (Nat × Nat) := [(1, n), (1, Config.code 0xD1 kind)]

/-- A port that is up goes down with event 0xD1 (R450). -/
def netDown (n kind : Nat) (s : State) : State :=
  if (netPort s n).up then auditAll (raise 0xD1 (downItems n kind) (netDrop n s)) else s

/-- Ports that cannot run in the mode entered go down (R450). -/
def netModeChange (s : State) : State :=
  (List.range 8).foldl (fun s n => if netAllowed n (netPort s n).speed s then s else netDown n 1 s) s

/-- The bridge at L1 or L2 (R449, R450): queued frames and what it has learned are gone; its configuration is kept. -/
def netReset (s : State) : State :=
  onNet (fun b => { b with fdb := [], fullSaid := false, runs := [], tc := [] }) (netFlush s)

/-- The detach quiesce (R450): the module's own queued frames are sent, then the ports go down. -/
def netQuiesce (s : State) : State :=
  let own := s.net.queue.filter (fun c => c.from_ == 8)
  let s := own.foldl (fun s c => emit (.ethTx c.port c.data (100 * merNs s)) s) s
  let s := onNet (fun b => { b with queue := b.queue.filter (fun c => c.from_ != 8) }) s
  (List.range 8).foldl (fun s n => netDown n 3 s) (netCollect s)

/-! ## Gate lists (R446, R447) -/

/-- The gates of a list at an offset into the cycle and the ns left until the next entry or the end of the cycle; all gates
stay as in the last entry from the end of the list on. -/
def gatesIn (cycle : Nat) : List GateEntry → Nat → Nat → Nat → Nat × Nat
  | [], last, _, off => (last, cycle - off)
  | e :: r, _, sum, off => if off < sum + e.interval then (e.gates, sum + e.interval - off)
                           else gatesIn cycle r e.gates (sum + e.interval) off

/-- The offset of Meridian instant `t` in the cycles of a list. -/
def cycleOff (l : GateList) (t : Nat) : Nat := ((((t : Int) - (l.base : Int)) % (l.cycle : Int)).toNat)

/-- The gates of a port at Meridian instant `t` (ns) and the instant of the next boundary, if any: a pending list takes over
at its change time. -/
def gatesAt (p : NetPort) (t : Nat) : Nat × Option Nat :=
  let on := fun (l : GateList) => let g := gatesIn l.cycle l.entries 255 0 (cycleOff l t); (g.1, t + g.2)
  match p.next with
  | some (c, l) =>
    if c ≤ t then (let g := on l; (g.1, some g.2))
    else match p.oper with
      | some o => (let g := on o; (g.1, some (min g.2 c)))
      | none => (255, some c)
  | none => match p.oper with
    | some o => (let g := on o; (g.1, some g.2))
    | none => (255, none)

/-- The first instant BASE + n × CYCLE at or after `now` (R446). -/
def changeTime (base cycle now : Nat) : Nat := if now ≤ base then base else base + ceilDiv (now - base) cycle * cycle

/-- Meridian time was stepped by `d` ns: a gate list is disabled when that is more than its CYCLE, with event 0xD6 (R455). -/
def netStepped (d : Int) (s : State) : State :=
  (List.range 8).foldl (fun s n => match (netPort s n).oper with
    | some l => if (l.cycle : Int) < (d.natAbs : Int) then
        raise 0xD6 [] (onNetPort n (fun p => { p with oper := none, gates := 255 }) s) else s
    | none => s) s

/-! ## Configuration records (R440): CONFIG partition, type 0x05. The keys and payloads are the model's (log entry 51). -/

/-- A record is written; a refusal leaves the state as it was, but for the write's events. -/
def netPut (key : Nat) (bytes : List Byte) (fill : State → State) (s : State) : State × Option Nat :=
  match nvPut 0 0x05 key false bytes 0 s with
  | (s, .seq _) => (fill s, none)
  | (s, .refused st) => (s, some st)

/-- A port's settings and priority map. -/
def portRecord (p : NetPort) : List Byte :=
  leBytes 1 p.speed ++ leBytes 1 (b2n p.dropUntagged) ++ leBytes 1 p.pcp ++ leBytes 2 p.pvid ++ leBytes 2 p.maxFrame ++
    p.map.flatMap (leBytes 1)

/-- The settings of a port record. -/
def portOfRecord (r : List Byte) (p : NetPort) : NetPort :=
  { p with speed := field r 0 1, dropUntagged := field r 1 1 == 1, pcp := field r 2 1, pvid := field r 3 2,
           maxFrame := field r 5 2, map := (List.range 8).map (fun i => field r (7 + i) 1) }

/-- The VLAN table. -/
def vlanRecord (vs : List Vlan) : List Byte := vs.flatMap (fun v => leBytes 2 v.vid ++ leBytes 2 v.members ++ leBytes 2 v.untagged)

/-- The VLANs of a record. -/
def vlansOf (r : List Byte) : List Vlan :=
  (List.range (r.length / 6)).map (fun i => ⟨field r (6 * i) 2, field r (6 * i + 2) 2, field r (6 * i + 4) 2⟩)

/-- A part of the static entries. -/
def staticRecord (es : List StaticMac) : List Byte :=
  es.flatMap (fun e => leBytes 2 e.vid ++ leBytes 6 e.mac ++ leBytes 2 e.ports)

/-- The static entries of a record. -/
def staticsOf (r : List Byte) : List StaticMac :=
  (List.range (r.length / 10)).map (fun i => ⟨field r (10 * i) 2, field r (10 * i + 2) 6, field r (10 * i + 8) 2⟩)

/-- The streams. -/
def streamRecord (ss : List StreamCfg) : List Byte :=
  ss.flatMap (fun x => leBytes 1 x.idx ++ leBytes 2 x.vid ++ leBytes 2 x.ingress ++ leBytes 2 x.egress ++ leBytes 6 x.mac ++
    leBytes 1 x.flags ++ leBytes 1 x.history ++ leBytes 4 x.resetMs)

/-- The streams of a record. -/
def streamsOf (r : List Byte) : List StreamCfg :=
  (List.range (r.length / 19)).map (fun i =>
    let f := fun o n => field r (19 * i + o) n
    ⟨f 0 1, f 1 2, f 3 2, f 5 2, f 7 6, f 13 1, f 14 1, f 15 4⟩)

/-- A port's administrative gate list. -/
def adminRecord (es : List (Nat × GateEntry)) : List Byte :=
  es.flatMap (fun e => leBytes 1 e.1 ++ leBytes 1 e.2.gates ++ leBytes 4 e.2.interval)

/-- The administrative list of a record. -/
def adminOf (r : List Byte) : List (Nat × GateEntry) :=
  (List.range (r.length / 6)).map (fun i => (field r (6 * i) 1, ⟨field r (6 * i + 1) 1, field r (6 * i + 2) 4⟩))

/-- The gate list a port was last committed to; empty once it is disabled. -/
def gateRecord : Option GateList → List Byte
  | none => []
  | some l => leBytes 4 l.cycle ++ mtBytes l.base ++ l.entries.flatMap (fun e => leBytes 1 e.gates ++ leBytes 4 e.interval)

/-- The gate list of a record. -/
def gateListOf (r : List Byte) : Option GateList :=
  if r.length < 19 then none
  else some ⟨(List.range ((r.length - 14) / 5)).map (fun i => ⟨field r (14 + 5 * i) 1, field r (15 + 5 * i) 4⟩),
             field r 0 4, field r 4 6 * nsPerSec + field r 10 4⟩

/-- A port at a start-up: as its records set it out, its link down (R440). A committed list becomes operational at its next
cycle. -/
def restorePort (s : State) (n : Nat) : NetPort :=
  let p : NetPort := match nvGet s 0 0x05 (0x1000 + n) with | some r => portOfRecord r {} | none => {}
  let adm := match nvGet s 0 0x05 (0x3000 + n) with | some r => adminOf r | none => []
  let com := (nvGet s 0 0x05 (0x3100 + n)).bind gateListOf
  { p with admin := adm, next := com.map (fun l => (changeTime l.base l.cycle (merNs s), l)) }

/-- The bridge is configured from its records (R440). -/
def netRestore (s : State) : State :=
  onNet (fun b => { b with
    ports := (List.range 9).map (restorePort s)
    vlans := (match nvGet s 0 0x05 0x2000 with | some r => vlansOf r | none => b.vlans)
    statics := (List.range 4).flatMap (fun c => match nvGet s 0 0x05 (0x2100 + c) with | some r => staticsOf r | none => [])
    streams := (match nvGet s 0 0x05 0x2300 with | some r => streamsOf r | none => []) }) s

end Sys2Proof.Machine
end

