-- ==== Sys2Proof/Machine/MeridianOps.lean ====
section
/-! DEFINITION. Meridian's operations: its states (R266), steps and the servo (R267), slews (R272), timers (R279, R282,
R287), the carry through Dormant and L3 (R286), and the best master clock choice (R275). -/

namespace Sys2Proof.Machine

/-- State codes of R266. -/
def tsCode : TimeState → Nat
  | .unset => 0 | .free => 1 | .locked => 2 | .holdover => 3

/-- Changes the time state, raising event 0x30 with the old and new states (R266). -/
def setTimeState (n : TimeState) (s : State) : State :=
  if s.time.state = n then s
  else raise 0x30 [(1, tsCode s.time.state), (1, tsCode n)] { s with time := { s.time with state := n } }

/-- Meridian time is locked in the sense of R147 and R168 (R266). -/
def timeLocked (s : State) : Bool :=
  s.time.state == .locked || s.time.state == .holdover || (pv s 0x0300 == 0 && s.time.state == .free)

/-- A signed 64-bit value as its low and high result words. -/
def lo32 (d : Int) : Nat := unsigned 64 d % 2 ^ 32
/-- The high word of a signed 64-bit value. -/
def hi32 (d : Int) : Nat := unsigned 64 d / 2 ^ 32

/-- Moves Meridian time by `q` quarter nanoseconds, never below zero. -/
def shiftMer (q : Int) (s : State) : State :=
  { s with time := { s.time with mer := (s.time.mer + q * (2 ^ 46 : Nat)).toNat } }

/-- A step of Meridian time by `q` quarter nanoseconds (R267): event 0x31 with Δ in ns and the cause, TIME_STEPS, and
scan-out's treatment under R169. -/
def stepTime (q : Int) (cause : Nat) (s : State) : State :=
  let d := floorDiv q 4
  if q = 0 then s
  else
    let s := shiftMer q s
    let s := raise 0x31 [(8, unsigned 64 d), (1, cause)] { s with time := { s.time with steps := s.time.steps + 1 } }
    scnTimeStep d (netStepped d s)

/-- What a running slew has not yet removed, in ns (R272): it removes 40 ns per millisecond. -/
def slewLeft (w : Slew) (s : State) : Int :=
  let gone : Int := ((s.time.ref - w.since) / 25000 : Nat)
  if w.left < 0 then min 0 (w.left + gone) else max 0 (w.left - gone)

/-- A slew in progress ends early: PARTIAL with the part not yet removed (R272). -/
def endSlew (s : State) : State :=
  match s.time.slew with
  | none => s
  | some w =>
    let d := slewLeft w s
    finish w.h 0x0603 ⟨St.partly, lo32 d, hi32 d, 0⟩ { s with time := { s.time with slew := none } }

/-- The servo meets the frequency limit: event 0x3E once until it asks for less (R265). -/
def setServoFreq (f : Int) (s : State) : State :=
  let limited := f < -foffLimit ∨ foffLimit < f
  let s := if limited ∧ !s.time.rateLimited then raise 0x3E [] s else s
  { s with time := { s.time with foff := clampInt (-foffLimit) foffLimit f, rateLimited := decide limited } }

/-- Lock qualification of R266 on one offset (0.25 ns). -/
def judgeLock (th : Int) (s : State) : State :=
  let lock : Int := pv s 0x0302
  let inside := -lock ≤ th ∧ th ≤ lock
  let far := th < -(4 * lock) ∨ 4 * lock < th
  let s := { s with time := { s.time with
    inLock := (if inside then s.time.inLock + 1 else 0), outLock := (if far then s.time.outLock + 1 else 0) } }
  if s.time.state = .locked then (if 4 ≤ s.time.outLock then setTimeState .free s else s)
  else if 16 ≤ s.time.inLock then setTimeState .locked s else s

/-- A measurement of the offset θ (0.25 ns): servo, slew or step, and lock state (R266, R267). -/
def measure (th : Int) (s : State) : State :=
  let big := (pv s 0x0303 : Int) * 4 < th ∨ th < -((pv s 0x0303 : Int) * 4)
  let s := { s with time := { s.time with offset := th, sourceLost := false,
                                          stepRun := (if big then s.time.stepRun + 1 else 0) } }
  let wasUnset := s.time.state == .unset
  let s := if wasUnset then setTimeState .free s else s
  let firm := s.time.state = .locked ∨ s.time.state = .holdover
  let now := s.time.ref
  if big ∧ (¬ firm ∨ 4 ≤ s.time.stepRun) then
    let s := stepTime (-th) 0 s
    judgeLock th { s with time := { s.time with stepRun := 0, lastMeas := some now } }
  else
    let i := s.time.iacc + th
    let s := { s with time := { s.time with iacc := i } }
    let s := match s.time.lastMeas with
      | none => s
      | some t => if now ≤ t then s else setServoFreq (floorDiv (-(8 * th + i) * (2 ^ 41 : Nat)) ((now - t : Nat) : Int)) s
    judgeLock th { s with time := { s.time with lastMeas := some now } }

/-- Records a scheduled action that runs at or after T + 1 µs: event 0x35 and TIME_LATE_COUNT (R279, R289). -/
def lateAction (t : Nat) (s : State) : State :=
  if t + 1000 ≤ merNs s then raise 0x35 [] { s with time := { s.time with lateCount := s.time.lateCount + 1 } } else s

/-- Event 0x34 for a timer: handle, COOKIE, time and flags (R279). -/
def timerEvent (t : Timer) (flags : Nat) (s : State) : State :=
  raise 0x34 ([(4, handle 0xF2 t.idx t.gen), (4, t.cookie)] ++ mtItems (merNs s) ++ [(1, flags)]) s

/-- Releases a timer: its unit goes back to FREE and its generation advances (R280, R370). -/
def dropTimer (idx : Nat) (s : State) : State :=
  nextGen 0xF2 idx (move 0xF2 1 0 1 { s with time := { s.time with
    timers := s.time.timers.filter (fun t => t.idx != idx), alarms := s.time.alarms.filter (fun t => t.idx != idx) } })

/-- A timer fires now, for the latest of its expiries before now (R279, R282); one-shot timers are released. -/
def fireTimer (t : Timer) (s : State) : State :=
  let past := if t.period = 0 then 0 else (merNs s - t.t - 1) / t.period
  let due := t.t + past * t.period
  let late := due + 1000 ≤ merNs s
  let s := lateAction due (timerEvent t (b2n late) s)
  if t.period = 0 then dropTimer t.idx s
  else { s with time := { s.time with timers := s.time.timers.map (fun x =>
      if x.idx = t.idx then { x with t := due + t.period, firings := x.firings + 1, skipped := x.skipped + past } else x) } }

/-- Every timer without WAKE is released with the cancelled flag; WAKE timers move to the Horizon alarm (R287). -/
def timersToHorizon (s : State) : State :=
  let s := { s with time := { s.time with alarms := s.time.alarms ++ s.time.timers.filter (fun (t : Timer) => t.wake) } }
  let plain : List Timer := s.time.timers.filter (fun (t : Timer) => !t.wake)
  let s := plain.foldl (fun s t => dropTimer t.idx (timerEvent t 2 s)) s
  { s with time := { s.time with timers := [] } }

/-- The crystal count of the Horizon counter: 32,768 per second of VAUX (R286). -/
def crystal (s : State) : Nat := s.time.ref * 32768 / nsPerSec

/-- Records Meridian time and the counter together (R286 step 1). -/
def recordTime (s : State) : State :=
  { s with time := { s.time with carried := some (merNs s, crystal s), slew := none } }

/-- Restores Meridian time from the record (R286 steps 2 and 3): the elapsed crystal periods × 30,517.578125 ns, rounded
to the nanosecond, and event 0x3C with the error bound; without a record, event 0x3D. -/
def restoreTime (s : State) : State :=
  match s.time.carried with
  | none => raise 0x3D [] s
  | some (t, c) =>
    let n := crystal s - c
    let el := (n * 30517578125 + 500000) / 1000000
    let bound := ceilDiv (el * 50) 1000000 + 61000
    let s := { s with time := { s.time with mer := (t + el) * fracOne, carried := none, lastMeas := none,
                                            inLock := 0, outLock := 0, stepRun := 0 } }
    let s := if s.time.state = .unset then s else setTimeState .free s
    raise 0x3C [(8, bound)] s

/-! ## Time-protocol ports -/

/-- A time-protocol port. -/
def ptpOf (s : State) (p : Nat) : PtpPort := s.time.ports.getD p {}

/-- Replaces a port. -/
def setPtp (p : Nat) (x : PtpPort) (s : State) : State := { s with time := { s.time with ports := s.time.ports.set p x } }

/-- A port changes its portState, raising event 0x3A with the port and the state (R288). -/
def setPortState (p n : Nat) (s : State) : State :=
  if (ptpOf s p).portState = n then s
  else raise 0x3A [(1, p), (1, n)] (setPtp p { ptpOf s p with portState := n } s)

/-- The clockIdentity formed from the base MAC address: EUI-48 with 0xFFFE in the middle (R276; IEEE 1588). -/
def clockIdentity (s : State) : Nat :=
  let m := pv s 0x1000
  (m / 2 ^ 24) * 2 ^ 40 + 0xFFFE * 2 ^ 24 + m % 2 ^ 24

/-- clockClass of the module as grandmaster (R275). -/
def ownClass (s : State) : Nat :=
  if (s.time.state = .locked ∨ s.time.state = .holdover) ∧ pv s 0x0300 = 2 then 7 else 248

/-- Data-set comparison of IEEE 1588: the smaller list is the better clock. -/
def betterClock : List Nat → List Nat → Bool
  | a :: r, b :: q => a < b || (a == b && betterClock r q)
  | _, _ => false

/-- A data set as the list compared. -/
def dataSet (f : Foreign) : List Nat := [f.prio1, f.cls, f.accuracy, f.variance, f.prio2, f.id]

/-- The module's own data set on the settings of a port. -/
def ownSet (s : State) (p : PtpPort) : List Nat := [p.prio1, ownClass s, 0xFE, 0xFFFF, p.prio2, clockIdentity s]

/-- The enabled port that hears the best clock, when that clock is better than the module's own. -/
def bestPort (s : State) : Option Nat :=
  (List.range 8).foldl (fun (o : Option Nat) p =>
    let x := ptpOf s p
    match x.foreign with
    | none => o
    | some f =>
      if x.profile = 0 ∨ x.flags.testBit 0 then o
      else if !betterClock (dataSet f) (ownSet s x) then o
      else match o with
        | none => some p
        | some q => match (ptpOf s q).foreign with
          | some g => if betterClock (dataSet f) (dataSet g) then some p else o
          | none => some p) none

/-- The portStates the choice gives (R275): the port of the best clock UNCALIBRATED or SLAVE, other ports that hear a clock
PASSIVE, the rest MASTER (LISTENING on a SLAVE_ONLY port). A new grandmaster raises event 0x3B. -/
def runBmca (s : State) : State :=
  let best := bestPort s
  let s := (List.range 8).foldl (fun s p =>
    let x := ptpOf s p
    if x.profile = 0 then setPortState p 0 s
    else if best = some p then (if x.portState = 9 then s else setPortState p 8 s)
    else if best.isSome && x.foreign.isSome && !x.flags.testBit 0 then setPortState p 7 s
    else setPortState p (if x.flags.testBit 1 then 4 else 6) s) s
  let gm := match best with
    | some p => (match (ptpOf s p).foreign with | some f => f.id | none => 0)
    | none => if (List.range 8).any (fun p => (ptpOf s p).profile != 0) then clockIdentity s else 0
  if gm = s.time.gmId then s else raise 0x3B [] { s with time := { s.time with gmId := gm } }

/-- 2^l seconds in ns. -/
def logInterval (l : Int) : Nat := if l < 0 then nsPerSec / 2 ^ l.natAbs else nsPerSec * 2 ^ l.natAbs

/-- A port is in SLAVE state. -/
def anySlave (s : State) : Bool := s.time.ports.any (fun p => p.portState == 9)

end Sys2Proof.Machine
end

