-- ==== Sys2Proof/Machine/BufferOps.lean ====
section
/-! DEFINITION. Buffers and copies as other chapters end them: a copy's early end (R376), the release of every buffer
(R384), the ledger record (R382). -/

namespace Sys2Proof.Machine

/-- A number that identifies a command as the owner of a hold. -/
def ownerOf (h : Hdr) : Nat :=
  (match h.src with | .ring r => r.val | .side => 16) * 2 ^ 32 + h.seq.toNat * 2 ^ 16 + h.tag.toNat

/-- Ends a copy's holds and forgets it. -/
def dropCopy (c : BufCopy) (s : State) : State :=
  let s := { s with buf := { s.buf with copies := s.buf.copies.filter (fun x => keyOf x.h != keyOf c.h) } }
  releaseOwner .nimbus (ownerOf c.h) s

/-- The first `n` bytes of a copy land (R376): `data` are the bytes read from host memory. -/
def landCopy (c : BufCopy) (n : Nat) (data : List Byte) (s : State) : State :=
  let bs := if c.srcDev.isSome then memGetAll s.mem c.srcAddr n else bytesAt data 0 n
  if c.dstDev.isSome then devWrite c.dstAddr bs s else emit (.hostWrite c.dstAddr bs) s

/-- Destination bytes from the count copied onward are undefined (R376). -/
def loseRest (c : BufCopy) (n : Nat) (s : State) : State :=
  if c.dstDev.isSome ∧ n < c.len then devBlur (c.dstAddr + n) (c.len - n) s else s

/-- A copy ends early by another chapter's rule: the bytes copied in order in word 0 (R376). The row names no bytes of host memory:
of a copy out of it every destination byte is free. -/
def endCopy (st : Nat) (c : BufCopy) (s : State) : State :=
  let n := Config.copiedBytes s.free % (c.len + 1)
  let s := drawn s
  let s := if c.srcDev.isSome then loseRest c n (landCopy c n [] s) else loseRest c 0 s
  finish c.h 0x0203 ⟨st, n, 0, 0⟩ (dropCopy c s)

/-- Every copy ends early. -/
def endCopies (st : Nat) (s : State) : State := s.buf.copies.foldl (fun s c => endCopy st c s) s

/-- Every device buffer is released and its generation advances; event 0x53 with the number of buffers; units stay in
WITHDRAWN where fences stand (R384). -/
def releaseAll (s : State) : State :=
  let n := (s.buf.bufs.filter (·.live)).length
  let s := s.buf.bufs.foldl (fun s b => dropBuf b (bufCol b) (if b.live then nextGen 0x01 b.idx s else s)) s
  checkLow (raise 0x53 [(2, n)] s)

/-- The flags of R381 for a pool: REBUILT, UNBALANCED, UNGUARDED. -/
def poolFlags (s : State) (p : Pool) (cols : List Nat) : Nat :=
  b2n p.rebuilt + 2 * b2n (cols.sum != p.total) + 4 * b2n s.buf.unguarded

/-- The ledger record of R382. -/
def ledgerRecord (s : State) (p : Pool) (cols : List Nat) : List Byte :=
  let b := leBytes 1 p.id ++ leBytes 1 (poolFlags s p cols) ++ zeroBytes 2 ++ leBytes 4 s.buf.auditSeq ++ mtBytes (merNs s) ++
    zeroBytes 2 ++ leBytes 4 p.total ++ ((List.range 12).flatMap (fun c => leBytes 4 (cols.getD c 0))) ++ zeroBytes 4
  b ++ leBytes 4 (crc32c b)

/-- The counts an audit of a pool finds: the stored ones, with the upset columns of the outside world. -/
def foundCols (p : Pool) (us : List Upset) : List Nat :=
  us.foldl (fun cs u => if u.pool = p.id then cs.set u.column u.count else cs) p.cols

/-- Pools that an L2 rebuilds from the holders actually found (R380). -/
def rebuildable (id : Nat) : Bool := id != 0x01 && id != 0xF0 && id != 0xF1 && id != 0xF2

/-- At the end of the L2: the pool is rebuilt, with event 0x55 and its REBUILT flag (R380). -/
def rebuildPools (s : State) : State :=
  let s := s.buf.rebuild.foldl (fun s id =>
    raise 0x55 [(1, id)] (onPool id (fun p => { p with rebuilt := true }) s)) s
  { s with buf := { s.buf with rebuild := [] } }

end Sys2Proof.Machine
end

