-- ==== Sys2Proof/Machine/DmcOps.lean ====
section
/-! DEFINITION. The memory controller's operations: the address map and its relocation by fences (R334, R354), delay sets
(R343, R344), changes of point (R342), sweeps and the abandoning of calibrations (R350, R481), errors (R351) and the memory
budget (R358). -/

namespace Sys2Proof.Machine

/-! ## The address map -/

/-- Parity of the bits of `n` below bit `k`. -/
def parity : Nat → Nat → Bool
  | 0, _ => false
  | k + 1, n => xor (n.testBit k) (parity k n)

/-- The place of a granule: PC, upper bank-address bits H[10:6], row and column (R334). -/
structure Place where
  pc : Nat
  upper : Nat
  row : Nat
  column : Nat
deriving DecidableEq, Repr

/-- The masks in force (R336). -/
def hashMasks (s : State) : List Nat := (List.range 11).map (fun i => pv s (0x0710 + i))

/-- The bank-address bits H[10:0] of a device address (R334). -/
def bankBits (ms : List Nat) (a : Nat) : Nat :=
  (List.range 11).foldl (fun n i => n + b2n (parity 29 ((a >>> 6) &&& ms.getD i 0)) * 2 ^ i) 0

/-- The place the masks give an address, before relocation (R334). -/
def homePlace (ms : List Nat) (a : Nat) : Place :=
  let h := bankBits ms a
  ⟨h % 64, h / 64, bits a 34 21, bits a 15 12⟩

/-- The healthy PCs in rising number. -/
def healthyPcs (f : List Nat) : List Nat := (List.range 64).filter (fun n => !f.contains n)

/-- The relocation of R354 with fenced PCs `f` in fence order. -/
def relocate (f : List Nat) (p : Place) : Place :=
  match f.idxOf? p.pc with
  | none => p
  | some i => { p with pc := (healthyPcs f).getD (p.row / 256) 0, row := 16384 - 256 * f.length + 256 * i + p.row % 256 }

/-- The place of a device address (R334, R354). -/
def placeOf (s : State) (a : Nat) : Place := relocate s.dmc.fenced (homePlace (hashMasks s) a)

/-- The home bit of H[i] in a mask (R335). -/
def homeBit (i : Nat) : Nat := if i < 6 then i else i + 4

/-- A mask is valid for H[i]: it contains its own home bit and no home bit of any other H (R335). -/
def maskValid (i v : Nat) : Bool :=
  v < 2 ^ 29 && (List.range 11).all (fun j => v.testBit (homeBit j) == (i == j))

/-- The address whose granule stands at a home place, byte `b` within it: home bits are recovered from H (R335). -/
def addressOf (ms : List Nat) (p : Place) (b : Nat) : Nat :=
  let base := p.row * 2 ^ 21 + p.column * 2 ^ 12 + b
  let h := p.pc + p.upper * 64
  (List.range 11).foldl (fun a i =>
    a + b2n (xor (h.testBit i) (parity 29 ((base >>> 6) &&& ms.getD i 0))) * 2 ^ (homeBit i + 6)) base

/-- Undoes a relocation. -/
def unrelocate (f : List Nat) (p : Place) : Place :=
  let l := 16384 - 256 * f.length
  if f.isEmpty ∨ p.row < l then p
  else match (healthyPcs f).idxOf? p.pc with
    | none => p
    | some q => { p with pc := f.getD ((p.row - l) / 256) 0, row := 256 * q + (p.row - l) % 256 }

/-- The cells of memory after the masks change: each byte keeps its place in the stacks. -/
def rehash (old new f : List Nat) (m : DevMem) : DevMem :=
  { m with cells := m.cells.foldl (fun r c =>
      cellPut r (addressOf new (unrelocate f (relocate f (homePlace old c.1))) (c.1 % 64)) c.2) []
           vague := [] }

/-! ## Delay sets -/

/-- The delay set of a point. -/
def dlySet (s : State) (point : Nat) : List DlyRec :=
  if point = 16 then s.dmc.dly16 else if point = 32 then s.dmc.dly32 else if point = 48 then s.dmc.dly48 else s.dmc.dly64

/-- Replaces the delay set of a point. -/
def setDly (point : Nat) (l : List DlyRec) (s : State) : State :=
  { s with dmc :=
    (if point = 16 then { s.dmc with dly16 := l } else if point = 32 then { s.dmc with dly32 := l }
     else if point = 48 then { s.dmc with dly48 := l } else { s.dmc with dly64 := l }) }

/-- The record of a PC at a point. -/
def dlyOf (s : State) (point pc : Nat) : DlyRec := (dlySet s point).getD pc {}

/-- Replaces the record of a PC at a point. -/
def putDly (point pc : Nat) (r : DlyRec) (s : State) : State := setDly point ((dlySet s point).set pc r) s

/-- The four points. -/
def points : List Nat := [16, 32, 48, 64]

/-- The 16 bytes of a record (R343). -/
def dlyBytes (r : DlyRec) : List Byte :=
  (r.rd ++ r.wr).map (BitVec.ofNat 8) ++ leBytes 1 r.ca ++ leBytes 1 r.rdVref ++ leBytes 1 r.wrVref ++
    leBytes 1 (b2n r.valid + 2 * b2n r.degraded + 4 * b2n r.fenced) ++ leBytes 1 r.margin ++ leBytes 1 r.order ++ zeroBytes 2

/-- A record read from its bytes. -/
def dlyParse (bs : List Byte) : DlyRec :=
  let v := fun (i : Nat) => field bs i 1
  ⟨(List.range 4).map v, (List.range 4).map (fun i => v (4 + i)), v 8, v 9, v 10, (v 11).testBit 0, (v 11).testBit 1,
   (v 11).testBit 2, v 12, v 13⟩

/-- The 1,024 bytes of a delay set (R344). -/
def dlySetBytes (l : List DlyRec) : List Byte := l.flatMap dlyBytes

/-- A delay set read from its bytes. -/
def dlySetParse (bs : List Byte) : List DlyRec := (List.range 64).map (fun i => dlyParse (bytesAt bs (16 * i) 16))

/-- The CONFIG partition is write-locked for everyone (R344): locked, and unlocked by no master. -/
def configLocked (s : State) : Bool :=
  (passRec s 0 1).isSome && !(s.nv.unlocks.contains (.host, 0, 1) || s.nv.unlocks.contains (.sideBand, 0, 1))

/-- The stored delay set of a point; records that are not VALID when none is stored. -/
def storedSet (s : State) (point : Nat) : List DlyRec :=
  match nvGet s 0 0x02 point with
  | some bs => dlySetParse bs
  | none => List.replicate 64 {}

/-- The stored record of a PC at a point. -/
def storedDly (s : State) (point pc : Nat) : DlyRec := (storedSet s point).getD pc {}

/-- Stores the record of one PC at a point, under any lock. -/
def storeRec (point pc : Nat) (r : DlyRec) (s : State) : State :=
  nvOwn 0 0x02 point (dlySetBytes ((storedSet s point).set pc r)) s

/-- Stores the setting of a PC that the controller has found: not while CONFIG is write-locked, event 0x4B with the
not-stored flag (R344). -/
def storeFound (point pc : Nat) (s : State) : State :=
  if configLocked s then raise 0x4B [(1, 2)] s else storeRec point pc (dlyOf s point pc) s

/-- Loads the stored delay set of a point; a missing one raises event 0x4B with the missing flag (R346). -/
def loadDly (point : Nat) (s : State) : State :=
  match nvGet s 0 0x02 point with
  | some bs => setDly point (dlySetParse bs) s
  | none => setDly point (List.replicate 64 {}) (raise 0x4B [(1, 1)] s)

/-- A PC is degraded: some record of it is (R347, R352). -/
def isDegraded (s : State) (pc : Nat) : Bool := points.any (fun p => (dlyOf s p pc).degraded)

/-- A mask over the PCs. -/
def pcMask (f : Nat → Bool) : Nat := (List.range 64).foldl (fun n i => n + b2n (f i) * 2 ^ i) 0

/-- A PC carries no traffic: its fence is complete. -/
def isFenced (s : State) (pc : Nat) : Bool := s.dmc.fenced.contains pc

/-- A PC is fenced or its fence is decided. -/
def fenceDecided (s : State) (pc : Nat) : Bool := isFenced s pc || s.dmc.fences.any (fun f => f.pc == pc)

/-- DMC_CAPACITY (R361). -/
def dmcCapacity (s : State) : Nat := 2 ^ 35 - s.dmc.fenced.length * 2 ^ 29

/-- First address of the withdrawn range with `f` fences (R354). -/
def withdrawnBase (f : Nat) : Nat := 0x800000000 - f * 0x20000000

/-- Updates the bookkeeping of a PC. -/
def onPc (pc : Nat) (f : PcSt → PcSt) (s : State) : State :=
  { s with dmc := { s.dmc with pcs := s.dmc.pcs.modify pc f } }

/-- The bookkeeping of a PC. -/
def pcOf (s : State) (pc : Nat) : PcSt := s.dmc.pcs.getD pc {}

/-- The best passing ranges of a sweep as (start, length), one per item (R352). -/
def sweepNarrow (w : DmcMeas) : Nat := ((w.rd ++ w.wr ++ [w.ca]).map (·.2)).foldl min 64

/-- The centre of a range, rounded down. -/
def centre (r : Nat × Nat) : Nat := (2 * r.1 + r.2 - 1) / 2

/-- The ranges lie within 0 to 63 and there are four of each kind. -/
def measOk (w : DmcMeas) : Bool :=
  w.rd.length == 4 && w.wr.length == 4 &&
  (w.rd ++ w.wr ++ [w.ca, w.rdV, w.wrV]).all (fun r => r.1 + r.2 ≤ 64)

/-- Every delay range spans at least DMC_MIN_MARGIN taps (R352). -/
def sweepGood (s : State) (w : DmcMeas) : Bool := measOk w && pv s 0x0707 ≤ sweepNarrow w

/-- A record set to the centres of the ranges (R352). -/
def centred (r : DlyRec) (w : DmcMeas) : DlyRec :=
  { r with rd := w.rd.map centre, wr := w.wr.map centre, ca := centre w.ca, rdVref := centre w.rdV, wrVref := centre w.wrV,
           valid := true, degraded := false, margin := sweepNarrow w }

/-! ## Halo: completed and abandoned calibrations (R480 to R482) -/

/-- Ends the CAL_RUN in progress with a status and an abandon cause; an abandoned one is kept for a later CAL_RUN (R482). -/
def endCalRun (st cause : Nat) (s : State) : State :=
  match s.cal.run with
  | none => s
  | some r => finish r.h 0x0901 ⟨st, r.done, r.narrow.getD 0, r.bad + cause * 256⟩
      { s with cal := { s.cal with run := none, partly := (if cause = 0 then none else some r) } }

/-- Abandons the calibrations that `f` selects with a cause: event 0xF2 with item and cause, CAL_ABANDON_COUNT; a CAL_RUN
that held one of them ends PARTIAL, with its other calibrations (R481, R482). -/
def abandonCal (f : CalJob → Bool) (cause : Nat) (s : State) : State :=
  let inRun := fun (j : CalJob) => match s.cal.run with | some r => r.left.contains (j.item, j.pc) | none => false
  let hit := s.cal.jobs.any (fun j => f j && inRun j)
  let gone := s.cal.jobs.filter (fun j => f j || (hit && inRun j))
  let s := { s with
    cal := { s.cal with jobs := s.cal.jobs.filter (fun j => !(f j || (hit && inRun j))),
                        abandoned := s.cal.abandoned + gone.length }
    dmc := { s.dmc with sweeps := s.dmc.sweeps.filter (fun w => w.retrain || !gone.any (fun j => j.item == 1 && j.pc == w.pc)) } }
  let s := gone.foldl (fun s j => raise 0xF2 [(1, j.item), (1, cause)] s) s
  if hit then endCalRun St.partly cause s else s

/-- Retrainings that `f` selects are dropped, each with event 0xF2, and the error counts of their PCs begin again (R350). -/
def dropRetrain (f : Nat → Bool) (cause : Nat) (s : State) : State :=
  let gone := s.dmc.sweeps.filter (fun w => w.retrain && f w.pc)
  let s := { s with dmc := { s.dmc with sweeps := s.dmc.sweeps.filter (fun w => !(w.retrain && f w.pc)) } }
  gone.foldl (fun s w => raise 0xF2 [(1, 1), (1, cause)]
    (onPc w.pc (fun p => { p with ce := [] }) { s with cal := { s.cal with abandoned := s.cal.abandoned + 1 } })) s

/-- Every sweep is abandoned (R350). -/
def abandonSweeps (cause : Nat) (s : State) : State :=
  dropRetrain (fun _ => true) cause (abandonCal (fun j => j.item == 1) cause s)

/-- Open windows close and open rows are precharged (R339, R342). -/
def closeWindows (s : State) : State :=
  { s with dmc := { s.dmc with rows := [], pcs := s.dmc.pcs.map (fun p => { p with winOpen := false }) } }

/-! ## Points -/

/-- The point of a mode at a rate (R341); none where the mode names no point. -/
def pointOf (m : Mode) (rate : Nat) : Option Nat :=
  match m with
  | .stillAir | .recovery | .overcast => some 16
  | .flat | .standard | .swift => some 32
  | .deep => some 48
  | .skylight => some (if rate = 120 then 64 else 48)
  | .cloudburst => some 64
  | _ => none

/-- Memory moves to a point (R342, R350, R359): sweeps are abandoned, windows close, the stored delay set is in force; the
event follows at step 5. From self-refresh there is no old point. -/
def changePoint (p : Nat) (s : State) : State :=
  if s.dmc.state = 4 then
    { s with dmc := { s.dmc with state := 3, point := p, change := some (s.dmc.point, p) } }
  else if s.dmc.state ≠ 3 ∨ s.dmc.point = p then s
  else
    let old := s.dmc.point
    let s := closeWindows (abandonSweeps 1 s)
    { s with dmc := { s.dmc with point := p, change := some (old, p) } }

/-- Entry to Starlight (R359): self-refresh, contents kept, sweeps abandoned. -/
def enterSelfRefresh (s : State) : State :=
  if s.dmc.state ≠ 3 then s
  else
    let s := closeWindows (abandonSweeps 2 s)
    { s with dmc := { s.dmc with state := 4, point := 0, change := none } }

/-- The stacks are held in reset (R346): contents lost, nothing open. -/
def dmcReset (st : Nat) (s : State) : State :=
  { s with
    mem := {}
    dmc := { s.dmc with state := st, point := 0, rows := [], sweeps := [], pcs := List.replicate 64 {}, change := none,
                        hot0 := false, hot1 := false, cool0 := 0, cool1 := 0 } }

/-- Release of device memory begins (R346). -/
def dmcRelease (s : State) : State := if s.dmc.state = 1 then { s with dmc := { s.dmc with state := 2 } } else s

/-! ## Errors -/

/-- A sweep of a PC is running. -/
def sweeping (s : State) (pc : Nat) : Bool := s.dmc.sweeps.any (fun w => w.pc == pc)

/-- A retraining of a PC at the point in force starts (R352); a calibration of that PC is abandoned (R481 cause 6). -/
def startRetrain (pc : Nat) (s : State) : State :=
  if s.dmc.sweeps.any (fun w => w.pc == pc && w.retrain) || s.dmc.state != 3 then s
  else
    let s := onPc pc (fun p => { p with ce := [] }) (abandonCal (fun j => j.item == 1 && j.pc == pc) 6 s)
    raise 0x44 [] { s with dmc := { s.dmc with sweeps := s.dmc.sweeps ++ [⟨pc, true, 0⟩] } }

/-- FENCED and FENCE_ORDER of the four records of a PC, recorded in the NV store under any lock (R355, R464). -/
def recordFence (pc order : Nat) (s : State) : State :=
  points.foldl (fun s p =>
    storeRec p pc { storedDly s p pc with fenced := true, order := order }
      (putDly p pc { dlyOf s p pc with fenced := true, order := order } s)) s

/-- Units of FREE heap in [a, b). -/
def freeUnitsIn (s : State) (a b : Nat) : Nat :=
  (b - a) - s.buf.bufs.foldl (fun n x => n + (min b (x.start + x.units) - max a x.start)) 0

/-- Step 1 of a fence (R355, R378): recorded, announced with the new withdrawn range, FREE units of the range withdrawn, a
sweep of the PC abandoned. -/
def decideFence (pc : Nat) (s : State) : State :=
  let k := fenceCount s
  let s := recordFence pc k s
  let s := raise 0x47 [(1, pc), (8, withdrawnBase (k + 1)), (8, withdrawnBase k)] s
  let n := freeUnitsIn s (heapUnits - (k + 1) * 8192) (heapUnits - k * 8192)
  let s := checkLow (move 0x01 0 11 n { s with dmc := { s.dmc with fences := s.dmc.fences ++ [⟨pc, false⟩] } })
  dropRetrain (fun n => n == pc) 6 (abandonCal (fun j => j.item == 1 && j.pc == pc) 6 s)

/-! ## The memory budget (R358) -/

/-- The right-hand side of R358, in bytes per second: 1.6 × R × (64 − F) × 10⁹ with R = point / 10. -/
def dmcSupply (s : State) (point : Nat) : Nat := 160000000 * point * (64 - s.dmc.fenced.length)

/-- The demand D of R358, times 32: `w` and `h` are the panel's pixels, `nq` the phase slots, `np` the plane limit and `nc`
NC_cfg. -/
def dmcDemand32 (m : Mode) (rate w h nq np nc : Nat) : Nat :=
  let pl := w * h * 3 * nq * rate
  if m == .stillAir || m == .flat then pl * 32
  else pl * (64 + np) + (if m == .skylight then 32 * 2 * nc * 16777216 * rate else 0)

/-- A setting fits the memory budget. -/
def dmcFits (s : State) (m : Mode) (rate w h nq np nc : Nat) : Bool :=
  match pointOf m rate with
  | none => true
  | some p => m == .recovery || m == .overcast || dmcDemand32 m rate w h nq np nc ≤ 32 * dmcSupply s p

end Sys2Proof.Machine
end

