-- ==== Sys2Proof/Machine/TestOps.lean ====
section
/-! DEFINITION. Overcast's operations: starting tests under the power limit (R494), ending them (R491, R499), results and
the run's completion (R495). -/

namespace Sys2Proof.Machine

/-- Keeps the result of a test instance (R496). -/
def putResult (r : TestRes) (s : State) : State :=
  { s with bst := { s.bst with
    results := r :: s.bst.results.filter (fun x => !(x.id == r.id && x.inst == r.inst)) } }

/-- Power of a test, in 0.1 W. -/
def testPower (id : Nat) : Nat := match testInfo id with | some t => t.power | none => 0

/-- Power of the tests that run, in 0.1 W. -/
def powerNow (s : State) : Nat := s.bst.jobs.foldl (fun n j => n + testPower j.id) 0

/-- The limit of R494 for tests, in 0.1 W: BST_POWER_CAP less the 6 W of Overcast. -/
def powerLimit (s : State) : Nat := pv s 0x1300 * 10 - 60

/-- A test starts: event 0xF5 with the ID, the instance and the run number (R501). -/
def startTest (e : Nat × Nat) (s : State) : State :=
  raise 0xF5 [(1, e.1), (1, e.2), (2, s.bst.number)]
    { s with bst := { s.bst with
        jobs := s.bst.jobs ++ [⟨e.1, e.2, s.time.ref⟩]
        run := s.bst.run.map (fun r => { r with waiting := r.waiting.erase e, passed := r.passed.erase e }) } }

/-- A test may start beside those that run (R494): an in-service test is not staggered, another fits within the limit. -/
def testFits (id : Nat) (s : State) : Bool :=
  (match testInfo id with | some t => t.kind == .service | none => false) || powerNow s + testPower id ≤ powerLimit s

/-- The scheduler of R494: the waiting tests in rising ID order; each that fits starts, one instance of a test at a time; one
passed over for the first time raises event 0xFB. -/
def schedule (s : State) : State :=
  match s.bst.run with
  | none => s
  | some r => r.waiting.foldl (fun s e =>
      if s.bst.jobs.any (fun j => j.id == e.1) then s
      else if testFits e.1 s then startTest e s
      else match s.bst.run with
        | some q => if q.passed.contains e then s
          else raise 0xFB [] { s with bst := { s.bst with run := some { q with passed := e :: q.passed } } }
        | none => s) s

/-- The outcome of a test in the present run: its instances' outcomes summed up (R491). -/
def outcomeOf (s : State) (id : Nat) : Nat :=
  let rs := s.bst.results.filter (fun r => r.id == id && r.run == s.bst.number)
  if rs.any (fun r => r.outcome == 3) then 3 else if rs.any (fun r => r.outcome == 4) then 4 else 2

/-- The mask of the tests of a run with an outcome. -/
def outcomeMask (s : State) (set o : Nat) : Nat :=
  (List.range 32).foldl (fun n i => n + b2n (set.testBit i && outcomeOf s i == o) * 2 ^ i) 0

/-- The completion of a run (R495), or with the status another chapter gives. -/
def completeRun (st : Option Nat) (s : State) : State :=
  match s.bst.run with
  | none => s
  | some r =>
    let p := outcomeMask s r.set 2
    let f := outcomeMask s r.set 3
    let i := outcomeMask s r.set 4
    let s := { s with bst := { s.bst with run := none } }
    match r.h with
    | none => s
    | some h => finish h 0x0A01 ⟨st.getD (if f ≠ 0 then St.fault else if i ≠ 0 then St.partly else St.ok), p, f, i⟩ s

/-- A run with nothing running and nothing waiting completes. -/
def settleRun (s : State) : State :=
  match s.bst.run with
  | some r => if r.waiting.isEmpty && s.bst.jobs.isEmpty then completeRun none s else s
  | none => s

/-- Events of a test's end (R501). -/
def testEnded (id inst outcome reason : Nat) (s : State) : State :=
  let s := raise 0xF6 [(1, id), (1, inst), (1, outcome), (1, reason)] s
  if outcome = 3 then raise 0xF7 [] s else if outcome = 4 then raise 0xF8 [] s else s

/-- Running and waiting tests that `f` selects end INCOMPLETE with a reason (R491, R499). -/
def stopTests (f : Nat × Nat → Bool) (reason : Nat) (s : State) : State :=
  let run := (s.bst.jobs.map (fun j => (j.id, j.inst))).filter f
  let wait := (match s.bst.run with | some r => r.waiting | none => []).filter f
  let s := { s with bst := { s.bst with
    jobs := s.bst.jobs.filter (fun j => !f (j.id, j.inst))
    run := s.bst.run.map (fun r => { r with waiting := r.waiting.filter (fun e => !f e) }) } }
  (run ++ wait).foldl (fun s e => testEnded e.1 e.2 4 reason (putResult ⟨e.1, e.2, 4, reason, s.bst.number, 0, 0⟩ s)) s

/-- Every test ends INCOMPLETE and the run completes with a status (R499). -/
def endTests (reason : Nat) (st : Option Nat) (s : State) : State := completeRun st (stopTests (fun _ => true) reason s)

/-- An L1 of a block ends its tests INCOMPLETE with reason 4; the run continues (R499). -/
def endTestsOf (ids : List Nat) (s : State) : State :=
  settleRun (schedule (stopTests (fun e => ids.contains e.1) 4 s))

/-- A new run begins: its number, its tests in rising ID order, the first of them started. -/
def beginRun (h : Option Hdr) (stop : Bool) (set : Nat) (work : List (Nat × Nat)) (s : State) : State :=
  settleRun (schedule { s with bst := { s.bst with
    number := (s.bst.number + 1) % 65536, run := some ⟨h, stop, work, [], set⟩ } })

end Sys2Proof.Machine
end

