-- ==== Sys2Proof/Machine/MainOps.lean ====
section
/-! DEFINITION. What ends with the main domain: the host's link (R388), accepted and held commands (R301, R404), and the
state that only the main domain holds (R301, R302, R426). -/

namespace Sys2Proof.Machine

/-- The host's link goes down (R388), with the host-memory overlays (R186). -/
def hostDown (s : State) : State := if s.cmd.up then linkDown (hostLayersOff s) else s

/-- No unit waits on a command any more: what blocks keep of accepted commands is forgotten. -/
def forgetCommands (s : State) : State :=
  { s with
    time := { s.time with slew := none, ppsSet := none }
    plk := { s.plk with cmd := none }
    pnl := { s.pnl with load := none }
    cal := { s.cal with run := none }
    bst := { s.bst with run := s.bst.run.map (fun r => { r with h := none }) }
    mode := { s.mode with heldSet := [], completing := none, change := s.mode.change.map (fun x => { x with cmd := none }) }
    evt := { s.evt with recs := s.evt.recs.map (fun r => { r with cmd := none }) }
    sec := { s.sec with update := s.sec.update.map (fun u => { u with erasing := none, verifying := none }) } }

/-- Commands in the scheduler end with a status (R404). -/
def endSched (st : Nat) (s : State) : State :=
  let hs := s.cmd.sched.map (fun e => (e.h, e.opcode))
  finishAll hs (no st) { s with cmd := { s.cmd with sched := [] } }

/-- Every accepted command but one ends with a verdict, and so does every command read and waiting; a copy keeps the bytes
copied in its reply (R301, R376). -/
def endCommands (v : Verdict) (but : Option CmdKey) (s : State) : State :=
  let s := endCopies v.status s
  let ls := (s.cmd.live.filter (fun l => but != some (keyOf l.h))).map (fun l => (l.h, l.opcode))
  let ws := (s.cmd.waits.filter (fun w => w.seqExp.isSome)).map (fun w => (w.h, w.opcode))
  finishAll ws v (finishAll ls v { s with cmd := { s.cmd with waits := [] } })

/-- The lease ends without an event (R408), and with it its holder's partition unlocks (R468). -/
def endLease (s : State) : State :=
  { s with cmd := { s.cmd with lease := {} }, nv := { s.nv with unlocks := [] } }

/-- The blocks of the data plane at their reset state (R426): scenes, codec, synthesis, capture, scan-out, links. -/
def planeReset (s : State) : State :=
  { s with
    scene := { s.scene with mpi := [{}, {}, {}], sess := [none, none] }
    cdc := { s.cdc with jobs := [], eng := List.replicate 16 none }
    syn := { s.syn with cur := none, jobs := [], last := none, kept := [], fences := [], cut := none, nextK := none }
    cam := { s.cam with sweep := none, done := [] }
    scn := { s.scn with frames := [], dark := none, wins := [], cur := none, prev := none } }

/-- What Horizon keeps of a half's presence input (R226). -/
def keptPlk (p : Plk) : Plk :=
  { level := p.level, lastEdge := p.lastEdge, assertedAt := p.assertedAt, masked := p.masked, bounces := p.bounces }

/-- What Horizon keeps of the cameras' presence inputs (R539). -/
def keptCam (c : CamSt) : CamSt :=
  { ports := c.ports.map (fun p =>
      { camera := p.camera, presEdge := p.presEdge, presAt := p.presAt, presMasked := p.presMasked, bounces := p.bounces,
        said := p.said, cfg := if p.freeing then none else p.cfg, lost := p.lost || p.gear.isSome, masked := p.masked }) }

/-- Everything that only the main domain holds is at its reset state, as after the loss of its power (R301, R302) or a reset
at L3 (R426): what Horizon, the NV store and the fuses hold stays. -/
def mainReset (dormant : Bool) (s : State) : State :=
  let s := pForget dormant s
  { s with
    time := { s.time with slew := none, ppsSet := none, timers := [], ports := List.replicate 8 {}, latchHost := none,
                          latchSide := none, ppsLast := none, ppsUsed := none, gmId := 0 }
    mode := { s.mode with change := none, completing := none, heldSet := [], safeHold := false,
                          causes := [], stepOwed := none }
    pwr := { vmainMv := s.pwr.vmainMv, vauxMw := s.pwr.vauxMw }
    thm := { hor := s.thm.hor, tripped := s.thm.tripped, tripCount := s.thm.tripCount, horLast := s.thm.horLast }
    buf := { gens := s.buf.gens, pools := s.buf.pools, low := false }
    cmd := { lastHost := s.cmd.lastHost, sbReady := s.cmd.sbReady, sbKept := s.cmd.sbKept, sbBusy := s.cmd.sbBusy,
             waits := s.cmd.waits.filter (fun w => w.h.src == .side) }
    evt := { s.evt with pend := 0, mask := 2 ^ 256 - 1, vmap := List.replicate 256 0, counts := [], qBase := 0,
                        qEnable := false, qSize := 0, qTail := 0, qWritten := 0, qHead := 0, dropped := 0, seqReg := 0, captures := [] }
    mem := {}
    pnl := { desc := s.pnl.desc, full := false, load := none }
    scene := {}, cdc := {}, syn := {}, cam := keptCam s.cam, scn := {}, plk := { a := keptPlk s.plk.a, b := keptPlk s.plk.b }
    std := { charged := !dormant && s.std.charged, closedAt := some (s.std.closedAt.getD s.time.ref), owed := s.std.owed, pairsTotal := s.std.pairsTotal }
    dmc := { fenced := s.dmc.fenced, fences := s.dmc.fences }
    cal := { partly := s.cal.partly }
    bst := {}
    net := {}
    sec := { s.sec with running := none, update := none, open_ := none, chalHost := none, chalSide := none, authHost := 0,
                        authSide := 0, quoteHost := none, quoteSide := none } }

/-- Every unit of every pool but the heap is FREE (R384). -/
def emptyPools (s : State) : State :=
  [0x10, 0x11, 0x12, 0x13, 0x14, 0x15, 0x16, 0x17, 0x18, 0x20, 0x21, 0x28, 0xF0, 0xF1, 0xF2].foldl
    (fun s id => freePool id s) s

end Sys2Proof.Machine
end

