-- ==== Sys2Proof/Machine/ModeOps.lean ====
section
/-! DEFINITION. Modes (chapter 10): thermal conditions and the grace (R312 to R315), the step-down ladder (R319 to R323),
what a change of mode or rate does to every block (R197, R198, R290 to R296, R301), the safe hold (R317, R432). -/

namespace Sys2Proof.Machine

/-- Updates the mode state. -/
def onMode (f : ModeSt → ModeSt) (s : State) : State := { s with mode := f s.mode }

/-- Updates Dewpoint. -/
def onThm (f : ThmSt → ThmSt) (s : State) : State := { s with thm := f s.thm }

/-! ## Conditions (R306, R312) -/

/-- The die throttle request stands. -/
def dieRequest (s : State) : Bool := s.thm.dieReq.on || s.thm.sensorsLow

/-- An HBM throttle request stands. -/
def hbmRequest (s : State) : Bool := s.thm.hbmReq0.on || s.thm.hbmReq1.on

/-- A throttle request or a power overdraw stands (R316). -/
def throttled (s : State) : Bool := dieRequest s || hbmRequest s || s.pwr.capped

/-- A critical condition stands (R317). -/
def criticalNow (s : State) : Bool := s.thm.dieCrit.on || s.thm.hbmCrit0.on || s.thm.hbmCrit1.on

/-- THM_STATE (R331). -/
def thmState (s : State) : Nat :=
  b2n s.thm.warn.on + 2 * b2n (dieRequest s) + 4 * b2n (hbmRequest s) + 8 * b2n s.pwr.capped + 16 * b2n (criticalNow s) +
  32 * b2n s.thm.warmup.isSome + 64 * b2n s.thm.grace.isSome

/-- The die temperature: the highest of the sensors in service (R305). -/
def dieTemp (s : State) : Int :=
  ((s.thm.die.zip s.thm.ok).filter (·.2)).foldl (fun m e => if m < e.1 then e.1 else m) (-32768)

/-- THM_GRACE in ns. -/
def graceNs (s : State) : Nat := pv s 0x0208 * 1000000

/-- Milliseconds left in a running grace (R295). -/
def graceLeft (s : State) : Nat := match s.thm.grace with | some t => (t - merNs s) / 1000000 | none => 0

/-! ## The ladder (R319, R320) -/

/-- The rate at which Still-air starts (R190). -/
def stillRate (m : Mode) (rate : Nat) : Nat := if isLit m && rate != 0 then max 40 (min rate 60) else 60

/-- The next rung below a mode at a rate (R319). -/
def nextRung (m : Mode) (rate : Nat) : Option (Mode × Nat) :=
  match m with
  | .skylight => if rate = 120 then some (.skylight, 60) else some (.standard, 60)
  | .cloudburst | .deep => some (.standard, 60)
  | .swift | .standard => some (.flat, 60)
  | .flat => some (.stillAir, stillRate m rate)
  | .stillAir => some (.starlight, 30)
  | _ => none

/-- The chain of a mode at a rate, `n` rungs at most. -/
def chainN : Nat → Mode → Nat → List (Mode × Nat)
  | 0, _, _ => []
  | n + 1, m, r => match nextRung m r with
    | some (m2, r2) => (m2, r2) :: chainN n m2 r2
    | none => []

/-- The chain of a mode at a rate, down to Starlight (R319). -/
def chain (m : Mode) (rate : Nat) : List (Mode × Nat) := chainN 8 m rate

/-- Some configured port has SWEEP set and a valid map (R161). -/
def skylightCams (s : State) : Bool := (sweepPorts s).any (fun c => mapValid c s)

/-- A setting with the largest plane count that fits meets the memory budget (R358). -/
def modeDmcFits (m : Mode) (rate : Nat) (s : State) : Bool :=
  match s.pnl.desc with
  | none => true
  | some d =>
    let nq := nqOf m s
    let np := min (planesFor m (pv s 0x0A03) d) (synBest (d.w * d.h) nq rate (groupsOk s))
    dmcFits s m rate d.w d.h nq np (sweepPorts s).length

/-- A rung is permitted (R320, R358). -/
def permitted (m : Mode) (rate : Nat) (s : State) : Bool :=
  m == .starlight ||
  (settleOk m rate s && linkOk m rate s && modeDmcFits m rate s && panelServes m s && (m != .skylight || skylightCams s) &&
   (match s.pnl.desc with
    | some d =>
      (!isRendered m || 1 ≤ synBest (d.w * d.h) (phasesOf m d.p).length rate (groupsOk s)) &&
      (m != .skylight || sweepFits d 1 rate (sweepPorts s).length s)
    | none => false))

/-- The first permitted rung of a chain. -/
def firstRung (l : List (Mode × Nat)) (s : State) : Option (Mode × Nat) := l.find? (fun e => permitted e.1 e.2 s)

/-- The rung a step-down takes: the target named by THROTTLE_ACK while it is permitted, or the first permitted one below it,
else the first permitted one below the mode in force (R315, R319, R327). -/
def rungFor (target : Option Nat) (s : State) : Option (Mode × Nat) :=
  let below := chain s.mode.mode s.mode.rate
  match target.bind modeOf with
  | some m => (match below.find? (fun e => e.1 == m) with
    | some e => if permitted e.1 e.2 s then some e else firstRung (chain e.1 e.2) s
    | none => firstRung below s)
  | none => firstRung below s

/-! ## Pending changes -/

/-- A command that waits on a change ends. -/
def endChangeCmd (v : Verdict) (s : State) : State :=
  match s.mode.change with
  | some x => (match x.cmd with
    | some (h, opc) => finish h opc v (onMode (fun m => { m with change := none }) s)
    | none => onMode (fun m => { m with change := none }) s)
  | none => s

/-- Every pending MODE_SET and TIMING_SET ends with a verdict, the held ones and the one that waits for its first lit frame
included; a THROTTLE_ACK target is dropped. -/
def cancelChanges (v : Verdict) (s : State) : State :=
  let s := endChangeCmd v s
  let held := s.mode.heldSet
  let s := held.foldl (fun s e => finish e.h 0x0003 v s) (onMode (fun m => { m with heldSet := [] }) s)
  onThm (fun t => { t with ack := none }) s

/-- The module's own step-down stands as the pending change. -/
def isStepDown (x : Change) : Bool := x.cmd.isNone && x.cause != 0

/-- The dark interval of a change runs: reason 1. -/
def changeDark (s : State) : Bool := match s.scn.dark with | some d => d.reason == 1 | none => false

/-- A change is pending or the dark interval of one runs (R195, R293). -/
def changeBusy (s : State) : Bool :=
  s.mode.change.isSome || changeDark s || !s.mode.heldSet.isEmpty || s.mode.completing.isSome

/-- A step-down is made from a lit mode (R319 to R322): event 0x02, the pending commands cancelled. Of two that fall due at
one boundary one is made; one that meets an earlier pending one leaves it (DEDUCED, log entry 26). `from_` is the target
instant of R197. -/
def makeStep (cause : Nat) (target : Option Nat) (from_ : Nat) (s : State) : State :=
  match rungFor target s with
  | none => raise 0x1C [] s
  | some (m, r) =>
    let b := changeBoundary m r from_ s
    if (match s.mode.change with | some x => isStepDown x && decide (x.c ≤ b.1) | none => false) then s
    else
      let s := cancelChanges ⟨St.modeForbids, 1, 0, 0⟩ s
      raise 0x02 [(1, cause), (1, modeNum s.mode.mode), (1, modeNum m), (8, b.2.getD noFrame)]
        (onMode (fun x => { x with change := some ⟨m, r, b.1, b.2, cause, m == x.mode, none⟩ }) s)

/-- The warm-up load and any calibration sweep stop (R323); the warm-up itself goes on. -/
def stopWarm (s : State) : State := abandonCal (fun j => j.item == 1) 3 (onThm (fun t => { t with warmLoad := false }) s)

/-- A step-down falls due (R319 to R323); during the quiesce none does (R549). -/
def stepDown (cause : Nat) (target : Option Nat) (from_ : Nat) (s : State) : State :=
  if s.hwd.quiesce.isSome then s else
  match s.mode.mode with
  | .dormant | .recovery => s
  | .dawn => stopWarm s
  | .overcast => endTests 3 (some St.partly) s
  | .starlight => raise 0x1C [] s
  | _ =>
    if s.scn.dark.isSome then
      onMode (fun m => { m with stepOwed := some (m.stepOwed.getD cause) }) (cancelChanges ⟨St.modeForbids, 1, 0, 0⟩ s)
    else makeStep cause target from_ s

/-- A settle limit would be broken (R252): event 0xC3 with the band and Z once per decision, and a step-down at the pair
boundary at which the band would apply. -/
def settleCheck (s : State) : State :=
  if settleOk s.mode.mode s.mode.rate s || !s.std.powered || s.std.limitSaid then s
  else
    let l := (settleLimit s.mode.mode s.mode.rate).getD 0
    let b := ((bandsToCome s).find? (fun b => decide (l < (bandRow s b).settle))).getD (effBand s)
    let s := raise 0xC3 [(1, b), (2, (bandRow s b).settle)] (onStd (fun d => { d with limitSaid := true }) s)
    let k := match s.scn.cur with | some u => u.k + 1 | none => 0
    let k := if poweredJ s k % 2 = 0 then k else k + 1
    stepDown 4 none (frameStart k s) s

/-! ## The grace (R314, R315) -/

/-- A new grace begins at Meridian instant now. -/
def startGrace (s : State) : State := onThm (fun t => { t with grace := some (merNs s + graceNs s), ack := none }) s

/-- Every request has cleared (R315): event 0x14; a pending enforcement and the target are dropped. -/
def throttleCleared (s : State) : State :=
  let s := raise 0x14 [] (onThm (fun t => { t with grace := none, ack := none }) s)
  match s.mode.change with
  | some x => if isStepDown x && (x.cause == 2 || x.cause == 3) then onMode (fun m => { m with change := none }) s else s
  | none => s

/-! ## Warm-up (R311) -/

/-- The check of the stacks at an entry to Dawn: too cold starts the warm-up and its load with event 0x1A; otherwise memory that
is held in reset is released. A warm-up that runs goes on. -/
def checkWarm (s : State) : State :=
  if s.thm.warmup.isSome then s
  else if s.thm.hbm0 < 0 ∨ s.thm.hbm1 < 0 then
    raise 0x1A [] (onThm (fun t => { t with
      warmup := some s.time.ref, warmCount := 0, warmFailed := false, warmLoad := true }) s)
  else dmcRelease (onThm (fun t => { t with warmFailed := false }) s)

/-- Dawn is left with device memory already released: a warm-up ends with its load (DEDUCED, log entry 31). -/
def leaveWarm (s : State) : State :=
  if s.mode.mode = .dawn ∨ s.dmc.state = 1 then s else onThm (fun t => { t with warmup := none, warmCount := 0, warmLoad := false }) s

/-! ## What a change does (R197, R198, R290) -/

/-- The panel's side of a change from a mode at a rate, at Meridian instant now: seamless within a lane-rate class, through a
dark interval into any other lit mode, dark out of the lit modes (R197, R198, R229, R256). `kc` is the index at c. -/
def panelChange (m0 : Mode) (r0 : Nat) (k : Option Nat) (s : State) : State :=
  let m := s.mode.mode
  let r := s.mode.rate
  let c := merNs s
  let was := s.scn.seg.isSome
  let kc := match k with | some k => some k | none => s.scn.lastK.map (· + 1)
  if isLit m && was && sameClass m0 r0 m r && s.scn.dark.isNone then
    onScn (fun x => { x with
      seg := some (segFrom c r (nqOf m s) kc), began := false,
      stillSince := if m == .stillAir && m0 != .stillAir then some s.time.ref else none }) s
  else if isLit m then
    let s := if was then lightsOut 1 s else s
    let s := if was then letBefore true (letBefore false s) else s
    let s := beginDark 1 c (segFrom (boundaryFrom c r) r (nqOf m s) kc) s
    (halves s).foldl (fun s b => if (plkOf b s).present then startTrain b (rateCode m r) false s else s) s
  else
    let s := if was then
        (let s := letBefore true (letBefore false (lightsOut 5 s))
         let s := onScn (fun x => { x with
           seg := none, began := false, cur := none, prev := none, dark := none, wins := [], stillSince := none }) s
         endFences noFrame (retireUnseen noFrame s))
      else s
    linksIdle St.fault s

/-- A mode in which sessions go on (R70). -/
def sessionMode (m : Mode) : Bool :=
  match m with | .standard | .swift | .deep | .cloudburst | .stillAir => true | _ => false

/-- A mode in which frame jobs go on (R131). -/
def jobMode (m : Mode) : Bool := match m with | .standard | .swift | .deep | .cloudburst => true | _ => false

/-- The plane limits of a new mode or rate: the largest that fit, where the budgets do not take the planes asked for (R116,
R159, R320). -/
def freshCuts (s : State) : State :=
  match s.pnl.desc with
  | none => s
  | some d =>
    let m := s.mode.mode
    let nq := (phasesOf m d.p).length
    let best := synBest (d.w * d.h) nq s.mode.rate (groupsOk s)
    let cut := if isRendered m && best < planesFor m (pv s 0x0A03) d then some best else none
    let s := onSyn (fun y => { y with cut := cut }) s
    let nc := (sweepPorts s).length
    let ask := sweepAsk s.cam.sweepCfg.planes d s
    let fit := ((List.range (ask + 1)).filter (fun n => sweepFits d n s.mode.rate nc s)).foldl max 0
    onCam (fun c => { c with cut := if m == .skylight && fit < ask then some fit else none }) s

/-- Sessions, synthesis and capture after a change (R70, R131, R161 to R163). -/
def sceneChange (m0 : Mode) (s : State) : State :=
  let m := s.mode.mode
  let s := if m0 = m ∨ (sessionMode m0 ∧ sessionMode m) then s else endSessions 3 s
  let s := if m0 = m ∨ (jobMode m0 ∧ jobMode m) then s else abandonSyn St.modeForbids true s
  let s := synRecheck (freshCuts (netModeChange s))
  let kc := match s.scn.seg with | some g => g.kc | none => 0
  let s := if m = .skylight then dropCapture (kc + 3) (onCam (fun c => { c with fromK := kc + 3 }) s)
    else if m0 = .skylight then dropAllCapture s else s
  settlePower s

/-- Codec jobs, memory, calibrations, tests and layers after a change (R96, R184, R341, R359, R481, R499). -/
def blockChange (m0 : Mode) (s : State) : State :=
  let m := s.mode.mode
  let s := match m with
    | .starlight => suspendJobs s
    | .dormant | .overcast | .recovery => endJobsAll (fun j s => jobLost j.idx s) s
    | _ => s
  let s := if m = .starlight ∨ m = .dormant then abandonCal (fun _ => true) 2 s else s
  let s := if m = .starlight then enterSelfRefresh s
    else match pointOf m s.mode.rate with
      | some p => changePoint p s
      | none => if m0 = .starlight ∧ m = .dawn then changePoint 16 s else s
  let s := if m0 = .overcast ∧ m ≠ .overcast then endTests 2 (some St.partly) s else s
  settleLayers s

/-- Entry to Dormant (R301, steps 2 to 6): objects and commands end, buffers are released, the log is flushed, event 0x07 is
raised, `fin` gives the MODE_SET its reply, and the main domain goes off with time carried. -/
def dormantEntry (fin : State → State) (but : Option CmdKey) (s : State) : State :=
  let s := timersToHorizon s
  let s := endSched St.modeForbids (endCommands ⟨St.modeForbids, 7, 0, 0⟩ but s)
  let s := forgetCommands (endFieldOpen (endUpdate none true (endLease s)))
  let s := auditAll (emptyPools (releaseAll s))
  let s := nvFlush s
  let s := fin (raise 0x07 [] s)
  mainReset true (dmcReset 0 (recordTime (hostDown s)))

/-- The mode and rate change at Meridian instant now, with the frame index at c and the cause (R290, R296): event 0x01 when
the mode changes, event 0x9A on the frame grid (R202), and every block's side of it. -/
def enterMode (m : Mode) (rate : Nat) (k : Option Nat) (cause : Nat) (s : State) : State :=
  let m0 := s.mode.mode
  let r0 := s.mode.rate
  let grid := s.scn.seg.isSome
  let s := onMode (fun x => { x with mode := m, rate := rate, lastCause := if m == m0 then x.lastCause else cause }) s
  let s := if m = m0 then s
    else raise 0x01 [(1, modeNum m0), (1, modeNum m), (8, k.getD noFrame), (1, cause)] s
  let s := if grid then raise 0x9A [(1, r0), (1, rate), (8, k.getD noFrame)] s else s
  let s := blockChange m0 (sceneChange m0 (panelChange m0 r0 k (pApply 3 s)))
  let s := if m = .dawn ∧ m0 ≠ .dawn then checkWarm s else leaveWarm s
  if throttled s then startGrace s else s

/-- Result words of a MODE_SET or TIMING_SET at its end (R194, R294). -/
def changeWords (opc k dark : Nat) (s : State) : Verdict :=
  if opc = 0x0404 then okay k dark (emitWindow s)
  else okay k dark (modeNum s.mode.mode + s.mode.rate * 256 + emitWindow s * 65536)

/-- A pending change takes effect at its boundary (R197, R294, R301); one out of the safe hold leaves it (R432). -/
def applyChange (x : Change) (s : State) : State :=
  let s := onMode (fun m => { m with change := none, safeHold := false, causes := [] }) s
  let s := enterMode x.target x.rate x.k x.cause s
  let s := if x.cmd.isNone && x.timing && x.cause == 0 then raise 0x9E [] s else s
  match x.target with
  | .dormant => dormantEntry (fun s => match x.cmd with
      | some (h, opc) => finish h opc (okay 0xFFFFFFFF 0 0) s
      | none => s) (x.cmd.map (fun e => keyOf e.1)) s
  | m =>
    match x.cmd with
    | none => settleCheck s
    | some (h, opc) =>
      if isLit m then settleCheck (onMode (fun y => { y with completing := some (h, opc, 0) }) s)
      else finish h opc (changeWords opc 0xFFFFFFFF 0 s) s

/-- The first lit frame `k` of a change whose command waits (R194, R294). -/
def completeChange (k dark : Nat) (s : State) : State :=
  match s.mode.completing with
  | none => s
  | some (h, opc, _) => finish h opc (changeWords opc (k % 2 ^ 32) dark s) (onMode (fun m => { m with completing := none }) s)

/-! ## The safe hold (R317, R432) -/

/-- The actions of R317: both halves DARK with reason 3, the layer discharged, Cumulus, the sweep engine and Cirrus stopped,
Dawn with the safe hold; calibrations are abandoned (R481), the lease ends (R408), the ledger is UNGUARDED (R383). -/
def safeActions (c : SafeCause) (s : State) : State :=
  let s := onMode (fun m => { m with
    safeHold := true,
    causes := if m.causes.contains c then m.causes else m.causes ++ [c] }) s
  let s := { s with buf := { s.buf with unguarded := true } }
  let s := abandonCal (fun _ => true) 3 (endLease s)
  if s.mode.mode = .dormant ∨ s.mode.mode = .recovery then s
  else
    let s := if s.scn.seg.isSome then lightsOut 3 s else s
    let s := linksIdle St.fault (cancelChanges (no St.modeForbids) s)
    let s := match s.mode.completing with
      | some (h, opc, _) => finish h opc (no St.modeForbids) (onMode (fun m => { m with completing := none }) s)
      | none => s
    let s := suspendJobs (abandonSweep s)
    if s.mode.mode = .dawn then s else enterMode .dawn 0 (frameAt (merNs s) s) 8 s

end Sys2Proof.Machine
end

