-- ==== Sys2Proof/Machine/StartOps.lean ====
section
/-! DEFINITION. The start of the main domain, after a wake or at the end of an L3 (R299, R286, R291, R423, R509). -/

namespace Sys2Proof.Machine

/-- Records raised while the main domain was off are delivered by the other routes, in EVSEQ order (R423). -/
def deliverLogged (s : State) : State :=
  (s.evt.history.takeWhile (fun r => r.logged)).reverse.foldl (fun s r => deliver r s) s

/-- Event 0x00 with the mask of sources and the ledger-rebuilt flag (R328). -/
def startEvent (mask : Nat) (s : State) : State :=
  raise 0x00 [(1, mask), (1, b2n s.mode.ledgerRebuilt)] (onMode (fun m => { m with ledgerRebuilt := false }) s)

/-- Events that other chapters owe at a start-up: 0xC5 after a crowbar without a quiesce (R257), 0xCB while the
hold-up store is not charged (R258), 0xD9 while no base MAC address is set (R438), an aborted update (R524). -/
def owedEvents (s : State) : State :=
  let s := if s.std.owed then raise 0xC5 [] (onStd (fun d => { d with owed := false }) s) else s
  let s := if s.std.charged || s.std.lowSaid then s else raise 0xCB [] (onStd (fun d => { d with lowSaid := true }) s)
  let s := if pv s 0x1000 = 0 then raise 0xD9 [] s else s
  if s.sec.abortedPend then stageEvent 2 (onSec (fun c => { c with abortedPend := false }) s) else s

/-- Ports that kept their configuration (R135, R163) own three camera buffers again (R149); log entry 49. -/
def ownCamBufs (s : State) : State := move 0x13 0 8 (3 * (s.cam.ports.filter (fun p => p.cfg.isSome)).length) s

/-- The steps of R299 up to step 6: the time is restored, the firmware verified and started; the stacks stand in reset. -/
def startFirmware (s : State) : State :=
  let s := netRestore (ownCamBufs (boot (restoreTime s)))
  let since := s.time.ref
  { s with
    cmd := { s.cmd with ready := true }
    dmc := { s.dmc with state := 1 }
    plk := { s.plk with a := { s.plk.a with assertedAt := since }, b := { s.plk.b with assertedAt := since } }
    cam := { s.cam with ports := s.cam.ports.map (fun p => { p with presAt := since }) } }

/-- An armed trial boot with AUTO_CONFIRM confirms itself (R523). -/
def autoConfirm (s : State) : State :=
  match s.sec.running with
  | some n => let b := bootCtl s
    if b.trying = n ∧ b.auto.testBit 0 then confirmRunning n s else s
  | none => s

/-- WAKE timers come back from the Horizon alarm; those that expired meanwhile raise event 0x34 (R287). -/
def alarmsBack (s : State) : State :=
  let l := s.time.alarms
  let s := { s with time := { s.time with timers := s.time.timers ++ l, alarms := [] } }
  (l.filter (fun t => decide (t.t ≤ merNs s))).foldl (fun s t => fireTimer t s) s

/-- Step 7 of R299, in the mode entered: logged records are delivered, event 0x00 follows, and what start-up owes. -/
def startDone (mask : Nat) (s : State) : State := alarmsBack (owedEvents (startEvent mask (deliverLogged (autoConfirm s))))

/-- A lit mode that an L3 re-enters (R291): it goes through a dark interval from the end of the L3 (R198). -/
def relight (s : State) : State :=
  let m := s.mode.mode
  let r := s.mode.rate
  beginDark 3 (merNs s) (segFrom (boundaryFrom (merNs s) r) r (nqOf m s) (s.scn.lastK.map (· + 1))) s

/-- The main domain starts again at the end of an L3 (R291, R426). -/
def startAfterReset (m : Mode) (rate : Nat) (leave : Bool) (s : State) : State :=
  let s := startFirmware s
  let s := { s with evt := { s.evt with recs := s.evt.recs.filter (fun r => r.level != 3) } }
  let back := (m == .starlight || m == .flat) && s.pnl.desc.isSome
  let next : Mode := if s.sec.running.isNone || (m == .recovery && !leave) then .recovery else if back then m else .dawn
  let rate := if next == m then rate else 0
  let s := onMode (fun x => { x with mode := next, rate := rate, lastCause := if next == m then x.lastCause else 7 }) s
  let s := if next == m then s else raise 0x01 [(1, modeNum m), (1, modeNum next), (8, noFrame), (1, 7)] s
  let s := startDone 0 s
  if isLit next then relight s else s

/-- A wake that has been accepted brings the module into Dawn, or Recovery when no firmware verifies (R299). -/
def startAfterWake (mask : Nat) (s : State) : State :=
  let s := startFirmware s
  let next : Mode := if s.sec.running.isNone then .recovery else .dawn
  let s := onMode (fun x => { x with
    mode := next, rate := 0, lastCause := 1, wakeLast := mask, waking := none, wakeHeld := 0, shutUntil := none }) s
  startDone mask (raise 0x01 [(1, modeNum .dormant), (1, modeNum next), (8, noFrame), (1, 1)] s)

end Sys2Proof.Machine
end

