-- ==== Sys2Proof/Machine/Levels.lean ====
section
/-! DEFINITION. What each recovery level does to the blocks (R426, R384), and the own actions of R427. -/

namespace Sys2Proof.Machine

/-! ## L0 and L1 of a block -/

/-- Calibrations of a block's items are abandoned and its tests end as the block is re-initialised (R481, R499). -/
def endBlockWork (items tests : List Nat) (s : State) : State :=
  endTestsOf tests (abandonCal (fun j => items.contains j.item) 4 s)

/-- The rate code a half trains at: that of the mode in force, in a dark mode the one it trains at or last used, at first 2.5 Gbit/s. -/
def trainCode (b : Bool) (s : State) : Nat :=
  let c := classNow s
  let p := plkOf b s
  if c ≠ 0 then c else match p.train with
    | some t => t.rate
    | none => if p.rate ≠ 0 then p.rate else 5

/-- A half's link is recovered (R224, R223): its half goes dark and trains, at L1 with the second series. -/
def linkBegin (b second : Bool) (s : State) : State :=
  let code := trainCode b s
  let s := if (plkOf b s).up && s.scn.seg.isSome then darken b 1 s else s
  startTrain b code second s

/-- The steering drive is recovered at L1 (R244, R255): both halves DARK with reason 3, the layer discharged, new pairs no
sooner than STD_REST later. -/
def steeringBegin (s : State) : State :=
  let was := s.std.powered
  let s := if was then (halves s).foldl (fun s b => darken b 3 s) s else s
  let s := stdDischarge (onScn (fun c => { c with wins := if was then [] else c.wins }) s)
  let s := onStd (fun d => { d with recovering := true, rest := true }) s
  if was && s.scn.dark.isNone then
    onScn (fun c => { c with stillSince := none, dark := some ⟨merNs s, merNs s, 3, 0, merNs s, false⟩ }) s
  else s

/-- An L0 or L1 of a domain starts: its block is isolated and re-initialised. -/
def blockBegin (dom level : Nat) (_rseq : Nat) (s : State) : State :=
  match dom with
  | 0x01 => endBlockWork [] [0x02] (cirrusReset s)
  | 0x02 => endBlockWork [] [0x03] (restartSyn s)
  | 0x03 => endBlockWork [] [0x04] s
  | 0x04 => onHead false (fun h => { h with recovering := true }) (darken false 3 (letAll false s))
  | 0x05 => onHead true (fun h => { h with recovering := true }) (darken true 3 (letAll true s))
  | 0x06 => linkBegin false (level == 1) s
  | 0x07 => linkBegin true (level == 1) s
  | 0x08 => endBlockWork [3, 4] [0x05] (steeringBegin s)
  | 0x20 => if level = 0 then s else netReset s
  | d => if 0x10 ≤ d ∧ d ≤ 0x1F then onPort (d - 0x10) (fun p => { p with gear := none }) s else s

/-- An L0 or L1 of a domain ends. -/
def blockEnd (dom _level : Nat) (_success : Bool) (s : State) : State :=
  match dom with
  | 0x04 => onHead false (fun h => { h with recovering := false }) s
  | 0x05 => onHead true (fun h => { h with recovering := false }) s
  | 0x08 => onStd (fun d => { d with recovering := false }) s
  | _ => s

/-! ## L2 -/

/-- Capture at L2 (R163): images and sweeps are discarded; configured ports train again and are re-armed. -/
def camsReset (s : State) : State :=
  camPorts.foldl (fun s c =>
    let was := (portOf c s).gear.isSome
    let s := endI2c c St.abortedReset s
    onPort c (fun p => { p with gear := none, lost := p.lost || was }) s) (dropAllCapture s)

/-- The pools of the data plane return to FREE (R384). -/
def planePools (s : State) : State :=
  [0x10, 0x11, 0x12, 0x14, 0x15, 0x16, 0x17, 0x18, 0x28].foldl (fun s id => freePool id s) s

/-- Every stage hold on heap buffers ends; deferred frees complete (R384). -/
def endHolds (s : State) : State :=
  [Stage.stratusA, .stratusB, .cumulus, .cirrus, .nimbus].foldl (fun s st => releaseStage st s) s

/-- The data plane is reset at L2 (R426): every block of it, its objects and commands as its chapter sets out. -/
def planeBegin (s : State) : State :=
  let s := if s.scn.seg.isSome then lightsOut 3 s else s
  let s := endSessions 4 s
  let s := endJobsAll (fun j s => jobEnds j.idx St.abortedReset 0x86 j.block s) s
  let s := onSyn (fun y => { y with last := none, fences := [], shift := {}, shiftNext := [], cut := none }) (abandonSyn St.abortedReset false s)
  let s := clearLayers true (dropFrames false s)
  let s := endCopies St.abortedReset (camsReset s)
  let s := dropRetrain (fun _ => true) 4 (abandonCal (fun _ => true) 4 (linksIdle St.abortedReset s))
  let s := endUpdate (some St.abortedReset) false (endTests 4 (some St.abortedReset) s)
  let s := planePools (endHolds (mpiCollect (netReset s)))
  let s := closeWindows { s with dmc := { s.dmc with state := if s.dmc.state = 3 then 4 else s.dmc.state } }
  if s.scn.seg.isNone then s
  else raise 0x9B [(1, 3)] (onScn (fun c => { c with
    stillSince := none, dark := some ⟨merNs s, merNs s, 3, 0, merNs s + 1000 * nsPerSec, false⟩ }) s)

/-- An L2 ends: memory leaves self-refresh, and a lit mode is lit again under R198 with c the end of the L2. -/
def planeEnd (s : State) : State :=
  let s := { s with dmc := { s.dmc with state := if s.dmc.state = 4 ∧ s.mode.mode ≠ Mode.starlight then 3 else s.dmc.state } }
  match s.scn.seg with
  | none => s
  | some g =>
    let cp := boundaryFrom (merNs s) g.f
    let now := merNs s
    let relit := fun (d : Dark) =>
      ({ d with c := now, cp := cp, deadline := boundaryFrom (cp + 1) g.f + periodNs g.f, forced := false } : Dark)
    let s := onScn (fun c => { c with dark := c.dark.map relit }) s
    (halves s).foldl (fun s b => if (plkOf b s).present then startTrain b (classNow s) false s else s) s

/-! ## L3 -/

/-- Everything but Horizon is reset at L3 (R426): time is carried, commands and objects end, buffers are released, the host's
link goes down. -/
def moduleBegin (_rseq : Nat) (s : State) : State :=
  let s := if s.scn.seg.isSome then lightsOut 3 s else s
  let s := endSched St.abortedReset (endCommands (no St.abortedReset) none s)
  let s := forgetCommands (endFieldOpen (endUpdate none true (endLease s)))
  let s := recordTime (timersToHorizon s)
  let s := auditAll (emptyPools (releaseAll s))
  mainReset false (dmcReset 0 (hostDown s))

/-- An L3 ends: the main domain has started again. -/
def moduleEnd (r : Recov) (s : State) : State := startAfterReset r.mode r.rate r.leave s

/-! ## Own actions (R427) -/

/-- The first unit of a list of failures. -/
def failedUnit (l : List (Nat × Nat)) : Nat := (l.headD (0, 0)).1

/-- An engine is left out of service (R98); what it worked on is taken up again by another. -/
def engineOff (s : State) : State :=
  let e := failedUnit s.cdc.recent
  let w := s.cdc.eng.getD e none
  let s := onCdc (fun c => { c with off := if c.off.contains e then c.off else c.off ++ [e], eng := c.eng.set e none }) s
  match w with
  | some (.tile i t) => onSess i (fun x => { x with decode := x.decode.map (fun d => { d with tiles := t :: d.tiles }) }) s
  | _ => s

/-- Synthesis no longer fits with the lane groups left (R116): the plane limit falls, with event 0x75, or the module steps
down. -/
def synCut (s : State) : State :=
  match s.pnl.desc with
  | none => s
  | some d =>
    if !isRendered s.mode.mode then s
    else
      let old := planeLimit s
      let best := synBest (d.w * d.h) (phasesNow s).length s.mode.rate (groupsOk s)
      if old ≤ best then s
      else if best = 0 then stepDown 5 none (merNs s) s
      else raise 0x75 [(1, old), (1, best)] (onSyn (fun y => { y with cut := some best }) s)

/-- A lane group of Cumulus is left out of service: event 0x71 with the group and SYN_GROUPS_OK; the frame in synthesis starts
again (R130). -/
def synGroupOff (s : State) : State :=
  let g := failedUnit s.syn.recent
  let s := onSyn (fun y => { y with off := if y.off.contains g then y.off else y.off ++ [g] }) s
  synCut (restartSyn (raise 0x71 [(1, g), (1, groupsOk s)] s))

/-- A sweep lane group is left out of service: the swept plane count falls, with event 0x8D, or the module steps down (R159). -/
def sweepGroupOff (s : State) : State :=
  let g := failedUnit s.cam.recent
  let s := onCam (fun c => { c with off := if c.off.contains g then c.off else c.off ++ [g] }) s
  match s.pnl.desc with
  | none => s
  | some d =>
    let old := sweepLimit s
    let fit := ((List.range (old + 1)).filter (fun n => sweepFits d n s.mode.rate (sweepPorts s).length s)).foldl max 0
    if s.mode.mode ≠ .skylight ∨ old ≤ fit then s
    else if fit = 0 then stepDown 6 none (merNs s) s
    else raise 0x8D [] (onCam (fun c => { c with cut := some fit }) s)

/-- A camera port is masked (R138): event 0x8E, the receiver off. -/
def maskPort (c : Nat) (s : State) : State :=
  portDown c (raise 0x8E [] (onPort c (fun p => { p with masked := true }) s))

/-- A bridge port is masked until NET_PORT_CFG re-arms it: event 0xD2 (R449). -/
def netMask (n : Nat) (s : State) : State :=
  raise 0xD2 [(1, n)] (netDrop n (onNetPort n (fun p => { p with masked := true }) s))

/-- The own action of R427 for a repeated fault. -/
def ownAction (dom : Nat) (pay : List Byte) (s : State) : State :=
  if dom = 1 then engineOff s else if dom = 2 then synGroupOff s else if dom = 3 then sweepGroupOff s
  else if dom = 0x20 then netMask (field pay 0 1) s
  else if 0x10 ≤ dom ∧ dom ≤ 0x1F then maskPort (dom - 0x10) s else s

end Sys2Proof.Machine
end

