-- ==== Sys2Proof/Machine/Recovery.lean ====
section
/-! DEFINITION. The fault ladder: entry levels (R427), escalation (R428), serialisation (R429), numbering and records
(R431), captures (R434). -/

namespace Sys2Proof.Machine

/-- The level at which a domain's fault enters the ladder (R427). -/
def entryLevel (d : Nat) : Nat :=
  if d = 0x06 ∨ d = 0x07 ∨ (0x10 ≤ d ∧ d ≤ 0x1F) ∨ d = 0x21 then 0
  else if d = 0x30 then 2 else if d = 0x31 then 3 else 1

/-- The domains of R427. -/
def knownDomain (d : Nat) : Bool :=
  (1 ≤ d && d ≤ 8) || (0x10 ≤ d && d ≤ 0x1F) || d == 0x20 || d == 0x21 || d == 0x30 || d == 0x31

/-- A domain has an own action for a repeat (R427). -/
def hasOwn (d : Nat) : Bool := d == 1 || d == 2 || d == 3 || (0x10 ≤ d && d ≤ 0x1F)

/-- The blocks of the data plane (R426, L2). -/
def inPlane (d : Nat) : Bool := (1 ≤ d && d ≤ 8) || (0x10 ≤ d && d ≤ 0x1F) || d == 0x20 || d == 0x30

/-- A recovery at `l` in domain `d` has the block of domain `e` within its scope. -/
def covers (d l e : Nat) : Bool := l == 3 || (l == 2 && inPlane e) || (l ≤ 1 && d == e)

/-- Two recoveries conflict (R429): same domain, head and link of one half, or one of them an L2 or L3. -/
def conflict (d1 l1 d2 l2 : Nat) : Bool :=
  l1 != 4 && l2 != 4 &&
  (l1 ≥ 2 || l2 ≥ 2 || d1 == d2 || (d1 == 4 && d2 == 6) || (d1 == 6 && d2 == 4) || (d1 == 5 && d2 == 7) ||
    (d1 == 7 && d2 == 5))

/-- `a` is ahead of `b` (R429): running before waiting, then the higher level, then the one decided first. -/
def aheadOf (a b : Recov) : Bool :=
  (a.running && !b.running) ||
  (a.running == b.running && (b.level < a.level || (b.level == a.level && a.rseq < b.rseq)))

/-- A record of a recovery (R431). -/
def recovRecord (r : Recov) (isEnd : Bool) (outcome esc : Nat) (s : State) : State :=
  match r.source with
  | none => s
  | some src => formRec {
      source := src, recovery := true, isEnd := isEnd, level := r.level, outcome := outcome,
      time := merNs s, rseq := r.rseq, prior := r.prior, esc := esc, payload := r.payload } s

/-- The capture of a domain before it is re-initialised (R434): at most 1,048,576 bytes in private memory, and for an L3
at most 65,536 bytes in Horizon's store. -/
def takeCapture (r : Recov) (s : State) : State :=
  let body := (Config.captureBody s.free r.domain).take (if r.level = 3 then 65536 else 1048576)
  let c : Capture := ⟨(if r.level = 3 then 0x31 else r.domain), r.rseq, merNs s, body⟩
  if r.level = 3 then drawn { s with evt := { s.evt with capStore := some c, captures := [] } }
  else if r.level = 0 ∨ r.level = 4 then s
  else drawn { s with evt := { s.evt with captures := c :: s.evt.captures.filter (fun x => x.domain != r.domain) } }

/-- A recovery is no longer in progress. -/
def dropRecov (rseq : Nat) (s : State) : State :=
  { s with evt := { s.evt with recs := s.evt.recs.filter (fun r => r.rseq != rseq) } }

/-- Ends a recovery with an outcome: its end record, the reply of a RESET_LEVEL, and the audit of R379. -/
def endRecov (r : Recov) (outcome esc : Nat) (s : State) : State :=
  let s := dropRecov r.rseq s
  let s := if 1 ≤ r.level ∧ r.level ≤ 3 then auditAll s else s
  let s := recovRecord r true outcome esc s
  match r.cmd with
  | some (h, opc) => finish h opc (if outcome = 6 then no St.abortedDetach else okay r.rseq outcome) s
  | none => s

/-- The effects of a recovery's start. -/
def startRecov (r : Recov) (s : State) : State :=
  let s := { s with evt := { s.evt with recs := s.evt.recs.map (fun x =>
      if x.rseq = r.rseq then { x with running := true } else x) } }
  let s := takeCapture r s
  if r.level = 2 then planeBegin s
  else if r.level = 3 then
    moduleBegin r.rseq { s with evt := { s.evt with windows := s.evt.windows.filter (fun w => w.domain == 0x31) } }
  else blockBegin r.domain r.level r.rseq s

/-- No conflicting recovery runs, and none waits ahead (R429). -/
def mayStart (r : Recov) (s : State) : Bool :=
  !r.running && s.evt.recs.all (fun o => o.rseq == r.rseq || !conflict r.domain r.level o.domain o.level ||
    !(o.running || aheadOf o r))

/-- The detach quiesce has passed step 1: faults start no recovery (R430). -/
def quiescing (s : State) : Bool := s.hwd.quiesce.isSome

/-- Decides a recovery (R429, R431): the next RSEQ, its start record, absorption of lower recoveries within its scope, and
its start when nothing it conflicts with runs or waits ahead. An L4 takes its actions at once and ends. During the detach quiesce none is
decided (R430). -/
def decideRecov (dom level : Nat) (src : Option Nat) (pay : List Byte) (esc : Nat) (cause : SafeCause)
    (cmd : Option (Hdr × Nat)) (leave : Bool) (s : State) : State :=
  if quiescing s then s else
  let rseq := (s.evt.rseq + 1) % 2 ^ 32
  let s := { s with evt := { s.evt with rseq := rseq, counts5 := s.evt.counts5.modify level (· + 1) } }
  let conf := s.evt.recs.filter (fun r => conflict dom level r.domain r.level)
  let gone := conf.filter (fun r => r.level < level && covers dom level r.domain)
  let ahead := conf.filter (fun r => !(r.level < level && covers dom level r.domain) && (r.running || level ≤ r.level))
  let order := sortBy (fun (r : Recov) => (if r.running then 0 else 10) + (4 - r.level)) ahead
  let prior := match order.getLast? with | some r => (if level = 4 then 0 else r.rseq) | none => 0
  let r : Recov := ⟨rseq, dom, level, src, pay, prior, false, false, cmd, s.mode.mode, s.mode.rate, leave⟩
  let s := recovRecord r false 0 esc s
  if level = 4 then recovRecord r true 1 0 (safeActions cause s)
  else
    let s := { s with evt := { s.evt with recs := s.evt.recs ++ [r] } }
    let s := gone.foldl (fun s g =>
      if g.rseq = esc then endRecov g 2 0 s else endRecov g 3 rseq s) s
    if mayStart r s then startRecov r s else s

/-- The open window of a domain at Meridian time now (R428). -/
def windowOf (d : Nat) (s : State) : Option Window :=
  s.evt.windows.find? (fun w => w.domain == d && w.t0 ≤ merNs s && merNs s < w.t0 + pv s 0x0410 * 1000000)

/-- Records the latest fault of a domain. -/
def setWindow (d level rseq : Nat) (s : State) : State :=
  { s with evt := { s.evt with windows := ⟨d, merNs s, level, rseq⟩ :: s.evt.windows.filter (fun w => w.domain != d) } }

/-- The own action of R427 is taken for a fault, and the domain's window opens anew at a level (R428, R431). -/
def takeOwn (dom entry level src : Nat) (pay : List Byte) (s : State) : State :=
  let rseq := (s.evt.rseq + 1) % 2 ^ 32
  let r : Recov := ⟨rseq, dom, entry, some src, pay, 0, false, true, none, s.mode.mode, s.mode.rate, false⟩
  let s := { s with evt := { s.evt with rseq := rseq, counts5 := s.evt.counts5.modify entry (· + 1) } }
  let s := setWindow dom level rseq s
  recovRecord r true 5 0 (ownAction dom pay (recovRecord r false 0 0 s))

/-- A fault of a domain, entering the ladder at a level (R428): own action for a repeat, escalation one level above the
domain's latest recovery, or the entry level; an L2 or L3 while the window of domain 0x31 is open escalates to L4. -/
def faultAt (dom entry src : Nat) (pay : List Byte) (s : State) : State :=
  if quiescing s then fire src pay s
  else match windowOf dom s, hasOwn dom with
  | some w, true => takeOwn dom entry w.level src pay s
  | w, _ =>
    let up := match w with | some w => min 4 (w.level + 1) | none => entry
    let esc := match w with | some w => w.rseq | none => 0
    let plane := if up = 2 ∧ dom ≠ 0x30 then windowOf 0x30 s else none
    let up2 := match plane with | some p => min 4 (p.level + 1) | none => up
    let esc2 := match plane with | some p => p.rseq | none => esc
    let modl := if up2 = 2 ∨ up2 = 3 then windowOf 0x31 s else none
    let level := if modl.isSome then 4 else up2
    let esc3 := match modl with | some m => (if esc2 = 0 then m.rseq else esc2) | none => esc2
    let rseq := (s.evt.rseq + 1) % 2 ^ 32
    let s := setWindow dom level rseq s
    let s := if level = 2 then setWindow 0x30 2 rseq s else if level = 3 then setWindow 0x31 3 rseq s else s
    decideRecov dom level (some src) pay esc3 .escalation none false s

/-- A fault of a domain at its entry level. -/
def faultOf (dom src : Nat) (items : List (Nat × Nat)) (s : State) : State :=
  faultAt dom (entryLevel dom) src (payload items) s

end Sys2Proof.Machine
end

