-- ==== Sys2Proof/Machine/Scenes.lean ====
section
/-! DEFINITION. Scene sessions: their commands (R59 to R65), the bytes they receive (R63), the decoding of their frames (R57, R58,
R67) and their end (R64, R65). -/

namespace Sys2Proof.Machine

/-! ## SCENE_OPEN (R59, R60) -/

/-- ASAP of SCENE_OPEN. -/
def openAsap (p : SceneOpenP) : Bool := p.flags.toNat.testBit 1
/-- LOOP of SCENE_OPEN. -/
def openLoop (p : SceneOpenP) : Bool := p.flags.toNat.testBit 0

/-- Fields of SCENE_OPEN are in range, those unused by the source zero (R59). -/
def openOk (p : SceneOpenP) : Bool :=
  let ring := p.ringMib.toNat
  p.source.toNat ≤ 2 && p.flags.toNat ≤ 3 && p.rsv == 0 && (openAsap p || mtOk p.start) && (p.source == 2 || !openLoop p) &&
  (if p.source = 2 then ring == 0 else 16 ≤ ring && ring ≤ 512 && ring % 16 == 0) &&
  (if p.source = 1 then 1 ≤ p.maxPlanes.toNat && p.maxPlanes.toNat ≤ 48 && 1024 ≤ p.port.toNat
   else p.maxPlanes == 0 && p.port == 0 && p.streamId == 0) &&
  (p.source == 2 || (p.handle == 0 && p.startFrame == 0))

/-- The clip of a source 2 session: its buffer, its header, the entry of START_FRAME, or the code its header or index fails with. -/
def clipOf (p : SceneOpenP) (s : State) : Except Nat (Buf × StreamHdr × Option IdxEntry) :=
  match bufOf s p.handle.toNat, s.pnl.desc with
  | some b, some d =>
    let bs := memGetAll s.mem (bufAddr b) 64
    (match streamHdrBad d bs with
     | some c => .error c
     | none =>
       let h := streamHdr bs
       if idxOk s.mem (bufAddr b) (b.units * unitBytes) h then
         .ok (b, h, (idxEntries s.mem (bufAddr b) h.index).find? (fun e => e.num == p.startFrame.toNat))
       else .error 0x04)
  | _, _ => .error 0x02

/-- The checks a clip's header and index undergo (R60). -/
def clipVerdict (h : Hdr) (p : SceneOpenP) (s : State) : Option Verdict :=
  match clipOf p s with
  | .error c => some ⟨St.badParam, c, 0, 0⟩
  | .ok (_, _, none) => some (no St.badParam)
  | .ok (_, g, some e) =>
    if openLoop p && g.endPts == 0 then some (no St.badParam)
    else if !openAsap p && !asapIfLate h && mtOf p.start + e.pts < merNs s then some (no St.timePassed)
    else none

/-- The checks of SCENE_OPEN, in the order of the table of R60; a stale handle leaves no clip to check. -/
def chkSceneOpen (h : Hdr) (p : SceneOpenP) (s : State) : Option Verdict :=
  let full := (sessOf 0 s).isSome && (sessOf 1 s).isSome
  firstOf
    [(!modeOk 0x0302 s, no St.modeForbids),
     (full || (p.source != 2 && col s 0x14 0 < ceilDiv p.ringMib.toNat 16), no St.noSpace),
     (!openOk p, no St.badParam),
     (p.source == 2 && (bufOf s p.handle.toNat).isNone, no St.badHandle),
     (p.source == 2 && (clipVerdict h p s).isSome, (clipVerdict h p s).getD (okay))]

/-- The session a SCENE_OPEN opens. -/
def openSession (h : Hdr) (p : SceneOpenP) (s : State) : Session :=
  let blank : Session :=
    { source := p.source.toNat, loop := openLoop p, asap := openAsap p,
      start := if openAsap p then none else some (mtOf p.start), maxPlanes := p.maxPlanes.toNat,
      units := p.ringMib.toNat / 16, port := p.port.toNat, streamId := p.streamId.toNat, buf := 0, base := 0, clipLen := 0,
      hdr := none, next := if p.source = 1 then 0 else 64, search := p.source == 1, opened := s.scene.opens }
  match (if p.source = 2 then clipOf p s else .error 0) with
  | .ok (b, g, some e) =>
    let late := mtOf p.start + e.pts < merNs s
    { blank with
      buf := b.idx, base := bufAddr b, clipLen := b.units * unitBytes, hdr := some g, maxPlanes := g.maxPlanes, next := e.off,
      asap := blank.asap || (late && asapIfLate h), start := if late then none else blank.start }
  | _ => blank

/-- The effect of SCENE_OPEN: the lowest free slot takes the session, its ring comes out of the stream pool, the clip is held
(R59, R370, R375), the slot's counters restart (R72). -/
def runSceneOpen (h : Hdr) (p : SceneOpenP) (s : State) : State :=
  let i := if (sessOf 0 s).isNone then 0 else 1
  let x := openSession h p s
  let s := setSess i (some x) { s with scene := { s.scene with opens := s.scene.opens + 1 } }
  let s := onStat i (fun _ => { start := x.start.getD 0 }) s
  let s := move 0xF0 0 1 1 (move 0x14 0 3 x.units s)
  let s := if x.source = 2 then hold x.buf .cirrus i s else s
  finish h 0x0302 (okay (handle 0xF0 i (genOf s 0xF0 i)) (ringBytes x) 0) s

/-- SCENE_OPEN as a row. -/
def rowSceneOpen (h : Hdr) (p : SceneOpenP) : Row :=
  { i := .sceneOpen h p, h := h, opc := 0x0302, plens := [4], chk := chkSceneOpen h p, run := runSceneOpen h p }

/-- SCENE_OPEN (R59). -/
def execSceneOpen (h : Hdr) (p : SceneOpenP) (s : State) : Host.Outcome State Fault Refusal := ok (command (rowSceneOpen h p) s)

/-! ## SCENE_FEED (R61, R62) -/

/-- The offset rules of R61. -/
def feedOffsetOk (p : SceneFeedP) (x : Session) : Bool :=
  let o := p.offset.toNat
  let n := p.length.toNat
  (if x.feeds = 0 then o == 0 && 64 ≤ n else if x.feeds = 1 then 64 ≤ o && o % 8 == 0 else o == x.expect) &&
  (match x.hdr with | some h => h.len == 0 || o + n ≤ h.len | none => true)

/-- Free ring bytes as a feed finds them: a second feed that does not go on where the first ended starts the ring anew. -/
def feedRoom (p : SceneFeedP) (x : Session) : Nat :=
  if x.feeds = 1 ∧ p.offset.toNat ≠ x.expect then ringBytes x else ringFree x

/-- The session a SCENE_FEED names. -/
def feedSess (p : SceneFeedP) (s : State) : Option (Nat × Session) :=
  (sessSlot s p.session.toNat).bind (fun i => (sessOf i s).map (fun x => (i, x)))

/-- The checks of SCENE_FEED (R61, R62). -/
def chkSceneFeed (p : SceneFeedP) (s : State) : Option Verdict :=
  let x := (feedSess p s).map (·.2)
  let buf := bufOf s (segHandle p.addr)
  firstOf
    [(!modeOk 0x0303 s, no St.modeForbids),
     (p.length == 0 || 67108864 < p.length.toNat || 1 < p.kind.toNat || p.rsv != 0, no St.badParam),
     (x.isNone || (p.kind == 1 && buf.isNone), no St.badHandle),
     ((match x with | some x => x.source != 0 || !feedOffsetOk p x | none => true), no St.badParam),
     (p.kind == 1 && (match buf with | some b => !segFits b (segOff p.addr) p.length.toNat | none => true), no St.badParam)]

/-- A session's stream header is judged when it has come in (R68). -/
def judgeStreamHdr (i : Nat) (s : State) : State :=
  match sessOf i s, s.pnl.desc with
  | some x, some d =>
    if x.hdr.isSome || x.source = 2 then s
    else match segRead x.segs 0 64 with
      | none => s
      | some b => (match streamHdrBad d b with
        | some c => endSession i 6 c s
        | none => onSess i (fun x => { x with
            hdr := some (streamHdr b), maxPlanes := if x.source = 0 then (streamHdr b).maxPlanes else x.maxPlanes }) s)
  | _, _ => s

/-- A feed's bytes join the ring. -/
def takeFeed (o : Nat) (bs : List Byte) (x : Session) : Session :=
  let x := if x.feeds = 1 ∧ o ≠ x.expect then { x with segs := [], next := o, search := true } else x
  { x with segs := segAdd x.segs o bs, feeds := min 2 (x.feeds + 1), expect := o + bs.length }

/-- The effect of SCENE_FEED: the bytes are copied, or NO_SPACE with the free bytes (R62). -/
def runSceneFeed (h : Hdr) (p : SceneFeedP) (data : List Byte) (s : State) : State :=
  match feedSess p s with
  | none => s
  | some (i, x) =>
    let n := p.length.toNat
    if feedRoom p x < n then
      finish h 0x0303 ⟨St.noSpace, feedRoom p x % 2 ^ 32, 0, 0⟩ (onSess i (fun x => { x with refused := some n }) s)
    else
      let bs := match (if p.kind = 1 then bufOf s (segHandle p.addr) else none) with
        | some b => memGetAll s.mem (bufAddr b + segOff p.addr) n
        | none => bytesAt data 0 n
      let s := if p.kind = 0 then emit (.hostRead p.addr.toNat n) s else s
      let s := onSess i (takeFeed p.offset.toNat bs) s
      let x := (sessOf i s).getD x
      judgeStreamHdr i (finish h 0x0303 (okay (ringFree x) (x.expect % 2 ^ 32)) s)

/-- SCENE_FEED as a row. -/
def rowSceneFeed (h : Hdr) (p : SceneFeedP) (data : List Byte) : Row :=
  { i := .sceneFeed h p data, h := h, opc := 0x0303, plens := [4], host := p.kind == 0, chk := chkSceneFeed p,
    run := runSceneFeed h p data }

/-- SCENE_FEED (R61): `data` are the bytes read from host memory. -/
def execSceneFeed (h : Hdr) (p : SceneFeedP) (data : List Byte) (s : State) : Host.Outcome State Fault Refusal :=
  ok (command (rowSceneFeed h p data) s)

/-! ## SCENE_CLOSE (R65) -/

/-- The checks of SCENE_CLOSE; a second DRAIN finds the first in progress. -/
def chkSceneClose (drain : Bool) (p : SceneCloseP) (s : State) : Option Verdict :=
  let slot := sessSlot s p.session.toNat
  firstOf
    [(!modeOk 0x0304 s, no St.modeForbids), (p.rsv != 0, no St.badParam), (slot.isNone, no St.badHandle),
     (drain && (match slot.bind (fun i => sessOf i s) with | some x => x.drain.isSome | none => false), no St.busy)]

/-- SCENE_CLOSE with HOW DRAIN as a row. -/
def rowSceneCloseDrain (h : Hdr) (p : SceneCloseP) : Row :=
  { i := .sceneCloseDrain h p, h := h, opc := 0x0304, plens := [1], chk := chkSceneClose true p,
    run := fun s => match sessSlot s p.session.toNat with
      | some i => accepted h 0x0304 0 (onSess i (fun x => { x with drain := some h }) s)
      | none => s }

/-- SCENE_CLOSE, HOW DRAIN (R65). -/
def execSceneCloseDrain (h : Hdr) (p : SceneCloseP) (s : State) : Host.Outcome State Fault Refusal :=
  ok (command (rowSceneCloseDrain h p) s)

/-- SCENE_CLOSE with HOW NOW as a row. -/
def rowSceneCloseNow (h : Hdr) (p : SceneCloseP) : Row :=
  { i := .sceneCloseNow h p, h := h, opc := 0x0304, plens := [1], chk := chkSceneClose false p,
    run := fun s => match sessSlot s p.session.toNat with
      | some i => finish h 0x0304 (okay) (onSess i (fun x => { x with closing := true }) s)
      | none => s }

/-- SCENE_CLOSE, HOW NOW (R65). -/
def execSceneCloseNow (h : Hdr) (p : SceneCloseP) (s : State) : Host.Outcome State Fault Refusal :=
  ok (command (rowSceneCloseNow h p) s)

/-! ## STREAM_DATAGRAM (R63) -/

/-- The bytes of a datagram are placed in a ring from the decode point on; those past its capacity are dropped and counted. -/
def placeData (i o : Nat) (bs : List Byte) (s : State) : State :=
  match sessOf i s with
  | none => s
  | some x =>
    let from_ := if x.segs = [] ∧ x.ref.isNone ∧ x.next = 0 then o else x.next
    let bs1 := bs.drop (from_ - o)
    let o1 := max o from_
    let room := from_ + ringBytes x - o1
    let s := onSess i (fun x => { x with
      next := from_, segs := segAdd x.segs o1 (bs1.take room), expect := max x.expect (o1 + min room bs1.length) }) s
    { s with scene := { s.scene with dropped := s.scene.dropped + (bs1.length - room) } }

/-- A UDP datagram for a backbone session (R63); one that no session takes is ignored. -/
def streamIn (port : Nat) (payload : List Byte) (s : State) : State :=
  let wanted := fun (i : Nat) => match sessOf i s with
    | some x => x.source == 1 && x.port == port && x.streamId == field payload 4 4
    | none => false
  if !mainOn s || payload.length < 17 || 8960 < payload.length || field payload 0 4 ≠ 0x4453564C then s
  else match [0, 1].find? wanted with
    | none => s
    | some i => judgeStreamHdr i (placeData i (field payload 8 8) (payload.drop 16) s)

/-- STREAM_DATAGRAM (R63). -/
def execStreamDatagram (port : U16) (payload : List Byte) (s : State) : Host.Outcome State Fault Refusal :=
  ok (streamIn port.toNat payload s)

/-! ## Decoding (R57, R58, R67) -/

/-- The tile records of a frame whose planes lie below a limit (R51). -/
def tileRecs (d : PanelDesc) (b : List Byte) (o np : Nat) : List TileRec :=
  ((codedTiles d b).zipIdx.map (fun e => (⟨e.1.1, e.1.2, o + framePre d b + recSum d b e.2, recLen d b e.2⟩ : TileRec))).filter
    (fun r => r.plane < np)

/-- The REPEAT tiles of a frame are copied from its reference (R46). -/
def copyRepeats (d : PanelDesc) (b : List Byte) (j i np : Nat) (s : State) : State :=
  (List.range np).foldl (fun s p => ((List.range d.tiles).filter (fun t => tileState d b p t == 2)).foldl (fun s t =>
    copyTile d j i p t s) s) s

/-- The planes of a frame that the mode allows; in Still-air every one (R58). -/
def planesAllowed (np : Nat) (s : State) : Nat := if isRendered s.mode.mode then min np (planeLimit s) else np

/-- Event 0x6F once per session and mode (R58). -/
def sayCut (i : Nat) (x : Session) (s : State) : State :=
  if x.cutSaid.contains s.mode.mode then s
  else raise 0x6F [] (onSess i (fun x => { x with cutSaid := s.mode.mode :: x.cutSaid }) s)

/-- The decoding of a frame begins in MPI slot `m`: its checks, the planes kept, its REPEAT copies, its tiles to decode. -/
def beginDecode (i : Nat) (x : Session) (d : PanelDesc) (o : Nat) (b : List Byte) (m : Nat) (s : State) : State :=
  let s := { s with scene := { s.scene with uid := s.scene.uid + 1 } }
  let base : Decode :=
    { uid := s.scene.uid, num := field b 8 4, pts := field b 16 8, off := o, len := field b 4 4, key := (field b 13 1).testBit 0,
      last := (field b 13 1).testBit 1, mpi := 3, planes := 0, disp := [], tiles := [], bad := frameBad d x b, resync := x.resync }
  let put := fun (c : Decode) (s : State) => onSess i (fun x => { x with decode := some c, next := o, search := false }) s
  if base.bad.isSome then put base s
  else
    let np := planesAllowed (field b 12 1) s
    let s := if np < field b 12 1 then sayCut i x s else s
    let disp := frameDisp b
    let s := takeMpi m 3 (disp.take np) s
    let s := match x.ref with | some r => copyRepeats d b r.mpi m np s | none => s
    put { base with mpi := m, planes := np, disp := disp, tiles := tileRecs d b o np } s

/-- STREAM_FRAME_DECODE_START (R57): all of the next frame's bytes are present and an MPI slot is free. -/
def execStreamFrameDecodeStart (slot : Fin 2) (s : State) : Host.Outcome State Fault Refusal :=
  ok (match sessOf slot.val s, s.pnl.desc, freeMpi s with
    | some x, some d, some m =>
      if x.decode.isSome || x.ended || s.dmc.state ≠ 3 || (x.source == 0 && x.hdr.isNone) then s
      else (match nextFrame x with
        | none => s
        | some o => (match frameBytes x o s with
          | some b => beginDecode slot.val x d o b m s
          | none => s))
    | _, _, _ => s)

/-- Ring space is there for a feed that was refused: event 0x6E (R62). -/
def spaceCheck (i : Nat) (s : State) : State :=
  match sessOf i s with
  | some x => (match x.refused with
    | some n => if n ≤ ringFree x then raise 0x6E [] (onSess i (fun x => { x with refused := none }) s) else s
    | none => s)
  | none => s

/-- A frame that failed a check is lost (R67): event 0x6A with the code and FRAME_NUMBER, or the offset when the header does not
read. -/
def frameLost (i : Nat) (c : Decode) (code : Nat) (s : State) : State :=
  let s := raise 0x6A ((1, code) :: (if code = 0x10 then [(8, c.off)] else [(4, c.num)])) s
  onSess i (fun x => { x with segs := segDrop x.segs x.next })
    (onStat i (fun t => { t with lost := t.lost + 1 }) (onSess i (resumeAfter c.off s) s))

/-- Where decoding goes on after a frame (R64): after its bytes, at entry 0 in the next lap, or nowhere; a drain ends a looped clip with
its lap (R65; DEDUCED, log entry 47). -/
def goOn (c : Decode) (x : Session) : Session :=
  let x := { x with decode := none, next := c.off + c.len, segs := segDrop x.segs (c.off + c.len), first := false, resync := false }
  if !c.last then x
  else if x.source = 2 ∧ x.loop ∧ x.drain.isNone then { x with next := 64, lap := x.lap + 1, first := true }
  else { x with ended := true }

/-- STREAM_FRAME_DECODED (R57): every tile of the frame has been decoded; the frame stands in its MPI slot and is the reference of
the next; or it is lost. -/
def execStreamFrameDecoded (slot : Fin 2) (s : State) : Host.Outcome State Fault Refusal :=
  let i := slot.val
  let busy := s.cdc.eng.any (fun e => match e with | some (.tile j _) => j == i | _ => false)
  ok (match sessOf i s with
    | none => s
    | some x => (match x.decode with
      | none => s
      | some c => (match c.bad with
        | some code => spaceCheck i (frameLost i c code s)
        | none =>
          if busy || c.tiles != [] then s
          else
            let f : SFrame := ⟨c.uid, c.num, c.pts + lapOffset x s, c.mpi, c.last, x.lateSaid.contains c.off, lapOffset x s⟩
            let s := onSess i (fun x => { goOn c x with
              frames := x.frames ++ [f], ref := some ⟨c.num, c.pts, c.disp.length, c.mpi⟩ }) s
            spaceCheck i (mpiCollect (if c.resync then raise 0x6C [] s else s)))))

/-! ## The end of a session (R64, R65) -/

/-- No complete frame is left to decode. -/
def nothingToDecode (x : Session) (s : State) : Bool :=
  x.decode.isNone && (x.ended || (match nextFrame x with | some o => (frameBytes x o s).isNone | none => true))

/-- Meridian instant at which the interval of a session's last held frame ends (R55, R65): END_PTS, or one display frame after it
is first shown; the present when there is no frame; none while it has not been shown. -/
def lastEnd (x : Session) (s : State) : Option Nat :=
  match (match x.frames.getLast? with | some f => some f | none => x.shown) with
  | none => some (merNs s)
  | some f => (match endTime x f (endPts x) with
    | some e => some e
    | none => if (match x.shown with | some g => g.uid == f.uid | none => false) then some x.shownEnd else none)

/-- SESSION_END_COMPLETE (R64, R65): a drained session, or a clip without LOOP, ends with its last frame's interval. -/
def execSessionEndComplete (slot : Fin 2) (s : State) : Host.Outcome State Fault Refusal :=
  let i := slot.val
  ok (match sessOf i s with
    | none => s
    | some x =>
      if !nothingToDecode x s then s
      else if x.drain.isSome then
        (match lastEnd x s with
         | some t => endSession i 1 0 (advanceMer t s)
         | none => s)
      else if x.source = 2 ∧ x.ended ∧ endPts x ≠ 0 then
        (match x.start with
         | some t => endSession i 0 0 (advanceMer (t + endPts x) s)
         | none => endSession i 0 0 s)
      else s)

end Sys2Proof.Machine
end

