-- ==== Sys2Proof/Machine/Bridge.lean ====
section
/-! DEFINITION. Frames in the bridge: reception (R437), forwarding (R442, R443), streams (R445), the internal port (R439),
transmission under the gates (R447) and the transparent clock (R277). Numbers inside frames are big-endian, as their standards
lay them out. -/

namespace Sys2Proof.Machine

/-! ## Frames -/

/-- The big-endian field of `n` bytes at offset `o`. -/
def beField (bs : List Byte) (o n : Nat) : Nat := beNat (bytesAt bs o n)

/-- A received frame without its tags: destination, source, priority with drop eligibility (the top four bits of the tag), VLAN,
R-TAG sequence number, and the bytes from the EtherType on. -/
structure Pkt where
  da : Nat
  sa : Nat
  pri : Nat
  vid : Nat
  rtag : Option Nat
  rest : List Byte
deriving DecidableEq, Repr

/-- The EtherType of a frame, behind a VLAN tag and an R-TAG. -/
def etherOf (p : Pkt) : Nat := beField p.rest 0 2

/-- Reads a frame (IEEE 802.1Q and 802.1CB): a VLAN tag, then an R-TAG; untagged frames take the port's PCP and PVID (R441), and
so does the VLAN of a priority-tagged one. -/
def readPkt (port : NetPort) (bs : List Byte) : Pkt :=
  let tagged := beField bs 12 2 == 0x8100
  let tci := beField bs 14 2
  let b := if tagged then bs.drop 16 else bs.drop 12
  let r := beField b 0 2 == 0xF1C1
  { da := beField bs 0 6, sa := beField bs 6 6,
    pri := if tagged then tci / 4096 else port.pcp * 2,
    vid := if tagged && tci % 4096 != 0 then tci % 4096 else port.pvid,
    rtag := if r then some (beField b 4 2) else none,
    rest := if r then b.drop 6 else b }

/-- The bytes of a copy: a VLAN tag unless the port is in the untagged mask, an R-TAG when it is kept; frames shorter than 60
bytes are padded (R437: no frame is shorter than 64 bytes with its FCS). -/
def writePkt (p : Pkt) (untag keepR : Bool) : List Byte :=
  let b := beBytes 6 p.da ++ beBytes 6 p.sa ++
    (if untag then [] else beBytes 2 0x8100 ++ beBytes 2 (p.pri * 4096 + p.vid)) ++
    (match p.rtag with | some q => (if keepR then beBytes 2 0xF1C1 ++ zeroBytes 2 ++ beBytes 2 q else []) | none => []) ++ p.rest
  b ++ zeroBytes (60 - b.length)

/-- A group address. -/
def isGroup (mac : Nat) : Bool := mac.testBit 40
/-- The broadcast address. -/
def broadcast : Nat := 0xFFFFFFFFFFFF

/-- Where the PTP message of a frame starts in its bytes from the EtherType on: EtherType 0x88F7, or UDP over IPv4 to port 319
or 320 (R275). -/
def ptpAt (rest : List Byte) : Option Nat :=
  if beField rest 0 2 = 0x88F7 then some 2
  else if beField rest 0 2 = 0x0800 ∧ field rest 11 1 = 17 then
    let o := 2 + field rest 2 1 % 16 * 4
    if beField rest (o + 2) 2 = 319 ∨ beField rest (o + 2) 2 = 320 then some (o + 8) else none
  else none

/-- A time-protocol port lets a PTP frame through as a transparent clock: TC set, and another domain than its own (R277). -/
def ptpPasses (x : PtpPort) (rest : List Byte) (o : Nat) : Bool := x.flags.testBit 2 && field rest (o + 4) 1 != x.domain

/-- A PTP frame is consumed by the module's own instance: PTP_EVENT_MESSAGE is its content (R275). -/
def ptpConsumed (n : Nat) (rest : List Byte) (s : State) : Bool :=
  let x := ptpOf s n
  match ptpAt rest with
  | none => false
  | some o =>
    n ≤ 7 && x.profile != 0 && (beField rest 0 2 == 0x88F7) == (x.profile != 3) && !ptpPasses x rest o

/-! ## Streams (R445) -/

/-- An enabled stream that a frame belongs to: destination and VLAN on an ingress port. -/
def streamOf (n : Nat) (p : Pkt) (s : State) : Option StreamCfg :=
  s.net.streams.find? (fun x => x.flags.testBit 0 && x.vid == p.vid && x.mac == p.da && x.ingress.testBit n)

/-- What a stream runs with. -/
def runOf (i : Nat) (s : State) : StreamRun := (s.net.runs.find? (fun r => r.idx == i)).getD { idx := i }

/-- Replaces what a stream runs with. -/
def setRun (r : StreamRun) (s : State) : State := onNet (fun b => { b with runs := r :: b.runs.filter (fun x => x.idx != r.idx) }) s

/-- The distance from `a` to `b` in 16-bit sequence numbers, −32,768 to 32,767. -/
def seqDelta (a b : Nat) : Int := signed 16 ((b + 65536 - a) % 65536)

/-- The history moves on by `k` numbers: those that leave it unseen are lost, unless they lie before the first one accepted. -/
def historyMove : Nat → StreamRun → StreamRun
  | 0, r => r
  | k + 1, r =>
    let n := r.seen.length
    let lostOne := !r.seen.getLastD true && decide (n ≤ r.shifts + 1)
    historyMove k { r with seen := false :: r.seen.take (n - 1), shifts := r.shifts + 1, lost := r.lost + b2n lostOne }

/-- The vector recovery algorithm of IEEE 802.1CB on a sequence number: whether the frame is accepted. -/
def recover (x : StreamCfg) (q now : Nat) (r : StreamRun) : Bool × StreamRun :=
  match r.high with
  | none => (true, { r with high := some q, seen := true :: List.replicate (x.history - 1) false, shifts := 0, at_ := now })
  | some hi =>
    let d := seqDelta hi q
    if (x.history : Int) ≤ d ∨ d ≤ -(x.history : Int) then (false, r)
    else if d ≤ 0 then
      if r.seen.getD d.natAbs true then (false, r) else (true, { r with seen := r.seen.set d.natAbs true, at_ := now })
    else
      let r := historyMove d.natAbs r
      (true, { r with high := some q, seen := r.seen.set 0 true, at_ := now })

/-- A frame of a stream: REPLICATE numbers an untagged one, ELIMINATE passes it through recovery; event 0xD7 with the stream and
the count when numbers are lost. None: the frame is a copy, or has no number to recover by. -/
def throughStream (x : StreamCfg) (p : Pkt) (s : State) : Option Pkt × State :=
  let r := runOf x.idx s
  let number := x.flags.testBit 1 && p.rtag.isNone
  let p := if number then { p with rtag := some r.next } else p
  let s := if number then setRun { r with next := (r.next + 1) % 65536 } s else s
  if !x.flags.testBit 2 then (some p, s)
  else match p.rtag with
    | none => (none, s)
    | some q =>
      let r := runOf x.idx s
      let (take, r2) := recover x q s.time.ref r
      let s := setRun r2 s
      let s := if r.lost < r2.lost then raise 0xD7 [(1, x.idx), (4, r2.lost - r.lost)] s else s
      (if take then some p else none, s)

/-! ## Forwarding (R442, R443) -/

/-- The VLAN of a number. -/
def vlanOf (v : Nat) (s : State) : Option Vlan := s.net.vlans.find? (fun x => x.vid == v)

/-- The bridge learns a source address (R442): 8,192 entries; event 0xD4 once while the table is full. -/
def learn (n : Nat) (p : Pkt) (s : State) : State :=
  if isGroup p.sa then s
  else
    let e : FdbEntry := ⟨p.vid, p.sa, n, s.time.ref⟩
    let rest := s.net.fdb.filter (fun x => !(x.vid == p.vid && x.mac == p.sa))
    if rest.length < 8192 then onNet (fun b => { b with fdb := e :: rest }) s
    else if s.net.fullSaid then s
    else raise 0xD4 [] (onNet (fun b => { b with fullSaid := true }) s)

/-- The ports a frame goes to (R442, R445): a stream's EGRESS, a static entry, the port learned, or every other member; the
internal port takes a flooded frame only for its own address or a broadcast. -/
def egressOf (n : Nat) (p : Pkt) (x : Option StreamCfg) (v : Vlan) (s : State) : List Nat :=
  let mem := fun (mask : Nat) => (List.range 9).filter (fun q => mask.testBit q && v.members.testBit q)
  match x with
  | some x => mem x.egress
  | none =>
    match s.net.statics.find? (fun e => e.vid == p.vid && e.mac == p.da) with
    | some e => (mem e.ports).filter (· != n)
    | none =>
      match (if isGroup p.da then none else s.net.fdb.find? (fun e => e.vid == p.vid && e.mac == p.da)) with
      | some e => (mem (2 ^ e.port)).filter (· != n)
      | none => (mem 0x1FF).filter (fun q => q != n && (q != 8 || p.da == pv s 0x1000 || p.da == broadcast))

/-- The traffic class of a frame at a port (R442, R444). -/
def classAt (q : Nat) (p : Pkt) (s : State) : Nat := (netPort s q).map.getD (p.pri / 2 % 8) 0

/-- Cells queued at a port in a class. -/
def queued (q c : Nat) (s : State) : Nat :=
  (s.net.queue.filter (fun x => x.port == q && x.cls == c)).foldl (fun m x =>
    m + ((s.net.frames.find? (fun f => f.uid == x.uid)).map (·.cells)).getD 0) 0

/-- The copies of a frame for external ports that are up: an R-TAG stays on EGRESS ports that lie in the stream's INGRESS mask,
and on frames of no stream (R445). -/
def copiesFor (n uid : Nat) (p : Pkt) (x : Option StreamCfg) (v : Vlan) (ports : List Nat) (s : State) : List NetCopy :=
  (ports.filter (fun q => q != 8 && (netPort s q).up)).map (fun q =>
    ⟨uid, q, classAt q p s, writePkt p (v.untagged.testBit q) (match x with | some x => x.ingress.testBit q | none => true), n,
     merNs s, false⟩)

/-- A frame of `len` bytes is dropped: counted, with event 0xD3 (R443). -/
def netLose (n reason : Nat) (s : State) : State :=
  raise 0xD3 [(1, n), (1, reason)] (onNetPort n (fun p =>
    if reason = 1 then { p with drop1 := p.drop1 + 1 } else { p with drop2 := p.drop2 + 1 }) s)

/-- A frame admitted on port `n` is stored for its external ports (R443): dropped for want of cells or queue room. True: it
goes on. -/
def storeFrame (n len : Nat) (p : Pkt) (x : Option StreamCfg) (v : Vlan) (ports : List Nat) (s : State) : Bool × State :=
  let k := cellsOf len
  if col s 0x28 0 < k then (false, netLose n 1 s)
  else
    let cs := copiesFor n s.net.uid p x v ports s
    if cs.any (fun c => pv s 0x1003 < queued c.port c.cls s + k) then (false, netLose n 2 s)
    else if cs.isEmpty then (true, s)
    else
      let c := if n = 8 then 2 else 10
      (true, move 0x28 0 c k (onNet (fun b => { b with
        uid := b.uid + 1, frames := b.frames ++ [⟨b.uid, k, c⟩], queue := b.queue ++ cs }) s))

/-- A frame on a port is admitted by its VLAN, learned from, passed through its stream, and stored; `deliver` says whether the
internal port receives it. -/
def forward (n len : Nat) (p : Pkt) (s : State) : Bool × Pkt × State :=
  match vlanOf p.vid s with
  | none => (false, p, onNetPort n (fun x => { x with vlanDrop := x.vlanDrop + 1 }) s)
  | some v =>
    if !v.members.testBit n then (false, p, onNetPort n (fun x => { x with vlanDrop := x.vlanDrop + 1 }) s)
    else
      let s := learn n p s
      let x := streamOf n p s
      let (q, s) := match x with | some x => throughStream x p s | none => (some p, s)
      match q with
      | none => (false, p, s)
      | some p =>
        let ports := egressOf n p x v s
        let (go, s) := storeFrame n len p x v ports s
        (go && ports.contains 8 && n != 8, p, s)

/-! ## The internal port (R439) -/

/-- The one's-complement sum of bytes as 16-bit words, folded. -/
def onesSum : List Byte → Nat
  | [] => 0
  | [a] => a.toNat * 256
  | a :: b :: r => let t := a.toNat * 256 + b.toNat + onesSum r
                   t % 65536 + t / 65536

/-- The Internet checksum of bytes. -/
def inetSum (bs : List Byte) : Nat := 0xFFFF - onesSum bs

/-- Counts a datagram the internal port discards. -/
def ipDrop (s : State) : State := onNet (fun b => { b with ipDrops := b.ipDrops + 1 }) s

/-- The module sends a frame of its own from the internal port, in the VLAN and at the priority of the one it answers. -/
def ownSend (asker : Pkt) (rest : List Byte) (s : State) : State :=
  let p : Pkt := { da := asker.sa, sa := pv s 0x1000, pri := asker.pri, vid := asker.vid, rtag := none, rest := rest }
  let n := max 60 (14 + rest.length - 2) + 4
  let (_, _, s) := forward 8 n p s
  s

/-- An ARP request for NET_IP is answered. -/
def arpIn (p : Pkt) (s : State) : State :=
  let b := p.rest.drop 2
  if pv s 0x1001 ≠ 0 ∧ beField b 0 8 = 0x0001080006040001 ∧ beField b 24 4 = pv s 0x1001 then
    ownSend p (beBytes 2 0x0806 ++ beBytes 8 0x0001080006040002 ++ beBytes 6 (pv s 0x1000) ++ beBytes 4 (pv s 0x1001) ++
      bytesAt b 8 10) s
  else s

/-- An open backbone session listens on a UDP port (R63), or the time protocol does with profile 3. -/
def udpOpen (port : Nat) (s : State) : Bool :=
  [0, 1].any (fun i => match sessOf i s with | some x => x.source == 1 && x.port == port | none => false) ||
  ((port == 319 || port == 320) && s.time.ports.any (fun x => x.profile == 3))

/-- An IPv4 datagram for the module: NET_IP, or a group or broadcast address. -/
def ipForUs (dst : Nat) (s : State) : Bool := dst == pv s 0x1001 || (0xE0000000 ≤ dst && dst < 0xF0000000) || dst == 0xFFFFFFFF

/-- An ICMP echo request is answered: addresses swapped, type 0, checksum anew. -/
def echoIn (p : Pkt) (ip : List Byte) (s : State) : State :=
  let body := ip.drop 20
  let ans := leBytes 2 0 ++ zeroBytes 2 ++ body.drop 4
  let icmp := leBytes 2 0 ++ beBytes 2 (inetSum ans) ++ body.drop 4
  let hd := bytesAt ip 0 8 ++ [0x40] ++ bytesAt ip 9 1 ++ zeroBytes 2 ++ beBytes 4 (pv s 0x1001) ++ bytesAt ip 12 4
  let hdr := hd.take 10 ++ beBytes 2 (inetSum hd) ++ hd.drop 12
  ownSend p (beBytes 2 0x0800 ++ hdr ++ icmp) s

/-- An IPv4 datagram reaches the internal port (R439). -/
def ipIn (p : Pkt) (s : State) : State :=
  let b := p.rest.drop 2
  let len := beField b 2 2
  let ip := b.take len
  let dst := beField b 16 4
  if pv s 0x1001 = 0 then s
  else if !ipForUs dst s then ipDrop s
  else if field b 0 1 ≠ 0x45 ∨ beField b 6 2 % 16384 ≠ 0 ∨ len < 20 ∨ b.length < len ∨ onesSum (b.take 20) ≠ 0xFFFF then ipDrop s
  else if field b 9 1 = 1 then
    (if field ip 20 1 = 8 ∧ field ip 21 1 = 0 ∧ 28 ≤ len ∧ onesSum (ip.drop 20) = 0xFFFF ∧ dst = pv s 0x1001 then echoIn p ip s
     else ipDrop s)
  else if field b 9 1 = 17 then
    let ulen := beField ip 24 2
    let pseudo := bytesAt ip 12 8 ++ [0, 17] ++ beBytes 2 ulen ++ (ip.drop 20).take ulen
    if ulen < 8 ∨ len < 20 + ulen ∨ (beField ip 26 2 ≠ 0 ∧ onesSum pseudo ≠ 0xFFFF) ∨ !udpOpen (beField ip 22 2) s then ipDrop s
    else streamIn (beField ip 22 2) ((ip.drop 28).take (ulen - 8)) s
  else ipDrop s

/-- A frame reaches the internal port: nothing while no base MAC address is set (R438). -/
def internalIn (p : Pkt) (s : State) : State :=
  if pv s 0x1000 = 0 then s
  else if etherOf p = 0x0806 then arpIn p s
  else if etherOf p = 0x0800 then ipIn p s
  else s

/-! ## Reception (R437) -/

/-- A frame whose FCS and length are good is received on an external port. -/
def frameIn (n : Nat) (bs : List Byte) (s : State) : State :=
  let len := bs.length + 4
  let s := onNetPort n (fun x => { x with rx := x.rx + 1, rxOct := x.rxOct + len }) s
  let port := netPort s n
  let p := readPkt port bs
  if etherOf p = 0x8808 then onNetPort n (fun x => { x with bad := x.bad + 1 }) s
  else if ptpConsumed n p.rest s then s
  else if port.dropUntagged && beField bs 12 2 != 0x8100 then onNetPort n (fun x => { x with vlanDrop := x.vlanDrop + 1 }) s
  else
    let (mine, p, s) := forward n len p s
    if mine then internalIn p s else s

/-- ETH_FRAME_RX (R437): `bytes` is the frame without its FCS. A port that is down, or a bridge whose forwarding has stopped,
receives nothing. -/
def execEthFrameRx (port : Fin 8) (bytes : List Byte) (fcsOk : Bool) (s : State) : Host.Outcome State Fault Refusal :=
  let x := netPort s port.val
  let len := bytes.length + 4
  ok (if !netRuns s || !x.up then s
    else if !fcsOk || len < 64 || x.maxFrame < len then onNetPort port.val (fun p => { p with bad := p.bad + 1 }) s
    else frameIn port.val bytes s)

/-! ## Transmission (R447) -/

/-- Time per byte in 0.01 ns. -/
def byteTime (speed : Nat) : Nat := if speed = 1 then 800 else if speed = 2 then 80 else 32

/-- How long a frame of `n` bytes (without FCS) takes, preamble and inter-frame gap included, in 0.01 ns. -/
def frameTime (speed n : Nat) : Nat := (n + 4 + 8 + 12) * byteTime speed

/-- From instant `t` (0.01 ns) the gate of a class stays open for `d`; `k` bounds the boundaries looked past. -/
def staysOpen (p : NetPort) (c : Nat) : Nat → Nat → Nat → Bool
  | 0, _, _ => true
  | k + 1, t, d =>
    let (g, e) := gatesAt p (t / 100)
    if !g.testBit c then false
    else match e with
      | none => true
      | some e => if t + d ≤ e * 100 then true else staysOpen p c k (e * 100) (t + d - e * 100)

/-- The first copy queued at a port in a class. -/
def netHead (q c : Nat) (s : State) : Option NetCopy := s.net.queue.find? (fun x => x.port == q && x.cls == c)

/-- The copies at the heads of a port's classes, highest class first. -/
def heads (q : Nat) (s : State) : List NetCopy := [7, 6, 5, 4, 3, 2, 1, 0].filterMap (fun c => netHead q c s)

/-- The instant from `t` (0.01 ns) on at which a copy can be sent, and which: the highest class whose gate stays open long
enough; else from the next boundary on. -/
def firstStart (p : NetPort) (cs : List NetCopy) : Nat → Nat → Option (Nat × NetCopy)
  | 0, _ => none
  | k + 1, t =>
    match cs.find? (fun c => staysOpen p c.cls 600 t (frameTime p.speed c.data.length)) with
    | some c => some (t, c)
    | none => match (gatesAt p (t / 100)).2 with
      | some e => firstStart p cs k (e * 100)
      | none => none

/-- Copies at the heads that their gates hold back are counted once each (R448). -/
def countWaits (q t : Nat) (s : State) : State :=
  let p := netPort s q
  let held := (heads q s).filter (fun c => !c.waited && !staysOpen p c.cls 600 t (frameTime p.speed c.data.length))
  onNetPort q (fun x => { x with waits := x.waits + held.length })
    (onNet (fun b => { b with queue := b.queue.map (fun c => if held.contains c then { c with waited := true } else c) }) s)

/-! ### The transparent clock (R277) -/

/-- Replaces `v.length` bytes at offset `o`. -/
def patchBytes (bs : List Byte) (o : Nat) (v : List Byte) : List Byte := bs.take o ++ v ++ bs.drop (o + v.length)

/-- Adds 2⁻¹⁶ ns to the correctionField at offset `o` of a PTP message; a UDP checksum is formed anew. -/
def addCorrection (bs : List Byte) (start o : Nat) (v : Nat) : List Byte :=
  let bs := patchBytes bs (o + 8) (beBytes 8 ((beField bs (o + 8) 8 + v) % 2 ^ 64))
  if beField bs start 2 ≠ 0x0800 ∨ beField bs (o - 2) 2 = 0 then bs
  else
    let u := o - 8
    let ulen := beField bs (u + 4) 2
    let pseudo := bytesAt bs (start + 14) 8 ++ [0, 17] ++ beBytes 2 ulen ++ bytesAt bs u 6 ++ zeroBytes 2 ++
      (bs.drop (u + 8)).take (ulen - 8)
    patchBytes bs (u + 6) (beBytes 2 (let c := inetSum pseudo; if c = 0 then 0xFFFF else c))

/-- The offset of the EtherType behind the tags of a frame. -/
def etherAt (bs : List Byte) : Nat :=
  let o := if beField bs 12 2 = 0x8100 then 16 else 12
  if beField bs o 2 = 0xF1C1 then o + 6 else o

/-- A copy passes between two TC ports: the residence of a one-step Sync or a Delay_Req goes into its correctionField, that of a
two-step Sync into its Follow_Up. `t` is the start of transmission in 0.01 ns. -/
def transparent (c : NetCopy) (t : Nat) (s : State) : List Byte × State :=
  let o := etherAt c.data
  match ptpAt (c.data.drop o) with
  | none => (c.data, s)
  | some k =>
    let m := o + k
    if !((ptpOf s c.from_).flags.testBit 2 && (ptpOf s c.port).flags.testBit 2 && c.from_ ≤ 7) then (c.data, s)
    else
      let res := (t - 100 * c.at_) * 65536 / 100
      let id := beField c.data (m + 20) 10
      let q := beField c.data (m + 30) 2
      let kind := field c.data m 1 % 16
      if kind = 0 ∧ (field c.data (m + 6) 1).testBit 1 then
        (c.data, onNet (fun b => { b with tc := (⟨id, q, c.port, res⟩ :: b.tc).take 64 }) s)
      else if kind = 0 ∨ kind = 1 then (addCorrection c.data o m res, s)
      else if kind = 8 then
        match s.net.tc.find? (fun x => x.id == id && x.seq == q && x.port == c.port) with
        | some x => (addCorrection c.data o m x.res, onNet (fun b => { b with tc := b.tc.erase x }) s)
        | none => (c.data, s)
      else (c.data, s)

/-- A copy leaves a port at instant `t` (0.01 ns): it is sent, counted, and its cells go back with the last copy. -/
def sendCopy (c : NetCopy) (t : Nat) (s : State) : State :=
  let (bs, s) := transparent c t s
  let s := onNetPort c.port (fun x => { x with
    tx := x.tx + 1, txOct := x.txOct + bs.length + 4, txEnd := t + frameTime x.speed bs.length }) s
  netCollect (emit (.ethTx c.port bs t) (onNet (fun b => { b with queue := b.queue.erase c }) s))

/-- ETH_FRAME_TX (R447): the port sends the copy of the highest class whose gate stays open for its whole transmission, at the
first instant at which there is one. -/
def execEthFrameTx (port : Fin 8) (s : State) : Host.Outcome State Fault Refusal :=
  let n := port.val
  let p := netPort s n
  ok (if !netRuns s || !p.up || (heads n s).isEmpty then s
    else
      let t0 := max (100 * merNs s) p.txEnd
      let s := countWaits n t0 s
      match firstStart p (heads n s) 1200 t0 with
      | none => s
      | some (t, c) => sendCopy c t (advanceMer (ceilDiv t 100) s))

end Sys2Proof.Machine
end

