-- ==== Sys2Proof/Machine/BridgeRows.lean ====
section
/-! DEFINITION. The bridge's commands (R441, R444, R446, R448) and its other happenings (R442, R445 to R447, R449, R450). -/

namespace Sys2Proof.Machine

/-! ## Gates and time -/

/-- GATE_CONTROL_EVENT (R447): the next boundary of the port's list is reached and its gates change. -/
def execGateControlEvent (port : Fin 8) (s : State) : Host.Outcome State Fault Refusal :=
  let p := netPort s port.val
  ok (if !mainOn s || p.oper.isNone then s
    else match (gatesAt p (merNs s)).2 with
      | none => s
      | some e =>
        if (match p.next with | some (c, _) => decide (c ≤ e) | none => false) then s
        else onNetPort port.val (fun x => { x with gates := (gatesAt p e).1 }) (advanceMer e s))

/-- NET_SCHED_SWITCH (R446): at the change time the committed list becomes operational, with event 0xD5; a cycle of the old list
ends. -/
def execNetSchedSwitch (port : Fin 8) (s : State) : Host.Outcome State Fault Refusal :=
  ok (match (netPort s port.val).next with
    | none => s
    | some (c, l) =>
      if !mainOn s then s
      else
        let s := advanceMer c s
        let s := onNetPort port.val (fun p => { p with oper := some l, next := none }) s
        raise 0xD5 [] (onNetPort port.val (fun p => { p with gates := (gatesAt p (merNs s)).1 }) s))

/-- FDB_AGEING (R442): the address seen longest ago ages out NET_AGEING seconds after it was seen, with any that is due with it;
the full table is armed to report again. -/
def execFdbAgeing (s : State) : Host.Outcome State Fault Refusal :=
  let age := pv s 0x1002 * nsPerSec
  ok (match s.net.fdb with
    | [] => s
    | e :: r =>
      let s := advanceRef (r.foldl (fun m x => min m x.seen) e.seen + age) s
      onNet (fun b => { b with fdb := b.fdb.filter (fun x => decide (s.time.ref < x.seen + age)), fullSaid := false }) s)

/-- FRER_RESET_TIMEOUT (R445): RESET_MS after the last frame accepted the recovery history of a stream is reset. -/
def execFrerResetTimeout (stream : Fin 64) (s : State) : Host.Outcome State Fault Refusal :=
  let r := runOf stream.val s
  ok (match s.net.streams.find? (fun x => x.idx == stream.val) with
    | none => s
    | some x =>
      if r.high.isNone || !x.flags.testBit 2 then s
      else setRun { r with high := none, seen := [], shifts := 0 } (advanceRef (r.at_ + x.resetMs * 1000000) s))

/-! ## Links and faults (R449, R450) -/

/-- The running L0 recovery of a port. -/
def netRecov (n : Nat) (s : State) : Option Recov :=
  s.evt.recs.find? (fun r => r.running && r.domain == 0x20 && r.level == 0 && field r.payload 0 1 == n)

/-- NET_LINK_UP (R450, R455): event 0xD0 with the port and speed; the port's internal latency is measured (R477), its recovery
ends, the ledger is audited (R379). -/
def execNetLinkUp (port : Fin 8) (latency : Fin 4096) (s : State) : Host.Outcome State Fault Refusal :=
  let n := port.val
  ok (if !mainOn s || quiescing s || netPortState s n ≠ 1 then s
    else
      let s := onNetPort n (fun p => { p with up := true, latency := latency.val, txEnd := 0 }) s
      let s := raise 0xD0 [(1, n), (1, (netPort s n).speed)] s
      auditAll (match netRecov n s with | some r => endRecov r 1 0 s | none => s))

/-- NET_LINK_DOWN (R449): the port's frames and learned addresses go, and the loss is a fault of domain 0x20: the port retrains
at L0, or is masked on a repeat. -/
def execNetLinkDown (port : Fin 8) (s : State) : Host.Outcome State Fault Refusal :=
  let n := port.val
  ok (if !(netPort s n).up then s
    else
      let pay := payload (downItems n 0)
      let s := netDrop n s
      auditAll (match (if quiescing s then none else windowOf 0x20 s) with
        | some w => takeOwn 0x20 0 w.level 0xD1 pay s
        | none => faultAt 0x20 0 0xD1 pay s))

/-- NET_BRIDGE_FAULT (R449): event 0xD8, a fault of domain 0x20 at L1. -/
def execNetBridgeFault (s : State) : Host.Outcome State Fault Refusal :=
  ok (if !mainOn s then s else faultAt 0x20 1 0xD8 [] s)

/-! ## Configuration commands -/

/-- The refusals of R448 in its order: a field, a full table, the mode, the lock of the CONFIG partition. -/
def chkNet (h : Hdr) (opc : Nat) (bad full forbids : Bool) (s : State) : Option Verdict :=
  firstOf
    [(bad, no St.badParam), (full, no St.noSpace), (!modeOk opc s || forbids, no St.modeForbids),
     (nvLocked s (masterOf h.src) 0 1, no St.deniedLocked)]

/-- A change that is recorded first (R440): the write's refusal is the reply, and nothing changes. -/
def netCommand (h : Hdr) (opc key : Nat) (rec : List Byte) (fill : State → State) (v : State → Verdict) (s : State) : State :=
  match netPut key rec fill s with
  | (s, none) => finish h opc (v s) s
  | (s, some st) => finish h opc (no st) s

/-- The fields of NET_PORT_CFG are in range (R441). -/
def portFields (p : NetPortCfgP) : Bool :=
  p.port.toNat ≤ 8 && p.speed.toNat ≤ 4 && (p.speed == 0 || p.port != 8) &&
  (p.port.toNat ≤ 1 || p.speed.toNat ≤ 2) && (2 ≤ p.port.toNat || p.speed != 1) &&
  p.flags.toNat ≤ 1 && p.pcp.toNat < 8 && 1 ≤ p.pvid.toNat && p.pvid.toNat ≤ 4094 &&
  1518 ≤ p.maxFrame.toNat && p.maxFrame.toNat ≤ 9216 && p.rsv == 0

/-- The settings NET_PORT_CFG gives a port; a masked port is re-armed (R449). -/
def portSet (p : NetPortCfgP) (x : NetPort) : NetPort :=
  { x with speed := p.speed.toNat, dropUntagged := p.flags.toNat.testBit 0, pcp := p.pcp.toNat, pvid := p.pvid.toNat,
           maxFrame := p.maxFrame.toNat, masked := false }

/-- NET_PORT_CFG as a row: the port retrains with its new settings. -/
def rowNetPortCfg (h : Hdr) (p : NetPortCfgP) : Row :=
  let n := p.port.toNat
  { i := .netPortCfg h p, h := h, opc := 0x0C01, plens := [2],
    chk := fun s => chkNet h 0x0C01 (!portFields p) false (p.speed != 0 && !netAllowed n p.speed.toNat s) s,
    run := fun s => netCommand h 0x0C01 (0x1000 + n) (portRecord (portSet p (netPort s n)))
      (fun s => onNetPort n (portSet p) (netDown n 2 s)) (fun s => okay (netPortState s n)) s }

/-- NET_PORT_CFG (R441). -/
def execNetPortCfg (h : Hdr) (p : NetPortCfgP) (s : State) : Host.Outcome State Fault Refusal :=
  ok (command (rowNetPortCfg h p) s)

/-- The VLAN table with one VLAN set, or deleted when it has no members (R444). -/
def vlanSet (v : Vlan) (vs : List Vlan) : List Vlan :=
  let rest := vs.filter (fun x => x.vid != v.vid)
  if v.members = 0 then rest else rest ++ [v]

/-- NET_VLAN_CFG OP 0 as a row. -/
def rowNetVlanCfgVlan (h : Hdr) (p : NetVlanP) : Row :=
  let v : Vlan := ⟨p.vid.toNat, p.members.toNat, p.untagged.toNat⟩
  let bad := v.vid == 0 || 4094 < v.vid || 511 < v.members || v.untagged &&& v.members != v.untagged || p.rsv != 0
  { i := .netVlanCfgVlan h p, h := h, opc := 0x0C02, plens := [3],
    chk := fun s => chkNet h 0x0C02 bad (256 < (vlanSet v s.net.vlans).length) false s,
    run := fun s => netCommand h 0x0C02 0x2000 (vlanRecord (vlanSet v s.net.vlans))
      (onNet (fun b => { b with vlans := vlanSet v b.vlans })) (fun _ => okay) s }

/-- NET_VLAN_CFG, OP 0: a VLAN (R444). -/
def execNetVlanCfgVlan (h : Hdr) (p : NetVlanP) (s : State) : Host.Outcome State Fault Refusal :=
  ok (command (rowNetVlanCfgVlan h p) s)

/-- The static entries with one set, or deleted when it names no port (R444). -/
def staticSet (e : StaticMac) (es : List StaticMac) : List StaticMac :=
  let rest := es.filter (fun x => !(x.vid == e.vid && x.mac == e.mac))
  if e.ports = 0 then rest else rest ++ [e]

/-- The parts of the static table that a change alters are written; the first refusal ends it. -/
def putStatics (es : List StaticMac) : List Nat → State → State × Option Nat
  | [], s => (onNet (fun b => { b with statics := es }) s, none)
  | c :: r, s =>
    let part := fun (l : List StaticMac) => (l.drop (170 * c)).take 170
    if part es = part s.net.statics then putStatics es r s
    else match netPut (0x2100 + c) (staticRecord (part es)) id s with
      | (s, none) => putStatics es r s
      | (s, some st) => (s, some st)

/-- NET_VLAN_CFG OP 1 as a row. -/
def rowNetVlanCfgStaticEntry (h : Hdr) (p : NetStaticP) : Row :=
  let e : StaticMac := ⟨p.vid.toNat, p.mac.toNat, p.ports.toNat⟩
  let bad := e.vid == 0 || 4094 < e.vid || 511 < e.ports || p.rsv != 0
  { i := .netVlanCfgStaticEntry h p, h := h, opc := 0x0C02, plens := [3],
    chk := fun s => chkNet h 0x0C02 bad (512 < (staticSet e s.net.statics).length) false s,
    run := fun s => match putStatics (staticSet e s.net.statics) (List.range 4) s with
      | (s, none) => finish h 0x0C02 (okay) s
      | (s, some st) => finish h 0x0C02 (no st) s }

/-- NET_VLAN_CFG, OP 1: a static entry (R444). -/
def execNetVlanCfgStaticEntry (h : Hdr) (p : NetStaticP) (s : State) : Host.Outcome State Fault Refusal :=
  ok (command (rowNetVlanCfgStaticEntry h p) s)

/-- NET_VLAN_CFG OP 2 as a row. -/
def rowNetVlanCfgPriorityMap (h : Hdr) (p : NetPrioP) : Row :=
  let n := p.port.toNat
  let tc := (leBytes 8 p.tc.toNat).map (·.toNat)
  let set := fun (x : NetPort) => { x with map := tc }
  { i := .netVlanCfgPriorityMap h p, h := h, opc := 0x0C02, plens := [3],
    chk := fun s => chkNet h 0x0C02 (8 < n || tc.any (fun c => decide (7 < c)) || p.rsv != 0) false
      ((netPort s n).speed != 0 && !netAllowed n (netPort s n).speed s) s,
    run := fun s => netCommand h 0x0C02 (0x1000 + n) (portRecord (set (netPort s n))) (onNetPort n set) (fun _ => okay) s }

/-- NET_VLAN_CFG, OP 2: a priority map (R444). -/
def execNetVlanCfgPriorityMap (h : Hdr) (p : NetPrioP) (s : State) : Host.Outcome State Fault Refusal :=
  ok (command (rowNetVlanCfgPriorityMap h p) s)

/-- The fields of a stream are in range (R444). -/
def streamFields (p : NetStreamP) : Bool :=
  p.stream.toNat ≤ 63 && 1 ≤ p.vid.toNat && p.vid.toNat ≤ 4094 && p.ingress.toNat ≤ 511 && p.egress.toNat ≤ 511 &&
  p.flags.toNat ≤ 7 && 2 ≤ p.history.toNat && p.history.toNat ≤ 32 && 1 ≤ p.resetMs.toNat && p.resetMs.toNat ≤ 10000 && p.rsv == 0

/-- NET_VLAN_CFG OP 3 as a row: the stream starts anew. -/
def rowNetVlanCfgStream (h : Hdr) (p : NetStreamP) : Row :=
  let x : StreamCfg := ⟨p.stream.toNat, p.vid.toNat, p.ingress.toNat, p.egress.toNat, p.mac.toNat, p.flags.toNat,
    p.history.toNat, p.resetMs.toNat⟩
  let set := fun (l : List StreamCfg) => l.filter (fun y => y.idx != x.idx) ++ [x]
  { i := .netVlanCfgStream h p, h := h, opc := 0x0C02, plens := [3],
    chk := fun s => chkNet h 0x0C02 (!streamFields p) false false s,
    run := fun s => netCommand h 0x0C02 0x2300 (streamRecord (set s.net.streams))
      (onNet (fun b => { b with streams := set b.streams, runs := b.runs.filter (fun r => r.idx != x.idx) }))
      (fun _ => okay) s }

/-- NET_VLAN_CFG, OP 3: a stream (R444, R445). -/
def execNetVlanCfgStream (h : Hdr) (p : NetStreamP) (s : State) : Host.Outcome State Fault Refusal :=
  ok (command (rowNetVlanCfgStream h p) s)

/-! ## Gate lists (R446) -/

/-- The port of a gate list cannot run in the mode in force (R448). -/
def schedForbids (n : Nat) (s : State) : Bool := !netAllowed n (netPort s n).speed s && (netPort s n).speed != 0

/-- PLEN of NET_SCHED_CFG: up to 28 units (R446). -/
def schedPlens : List Nat := (List.range 28).map (· + 1)

/-- The fields of OP 0 are in range. -/
def schedWriteFields (p : NetSchedWriteP) : Bool :=
  p.port.toNat ≤ 7 && p.start.toNat ≤ 255 && 1 ≤ p.count.toNat && p.count.toNat ≤ 26 && p.start.toNat + p.count.toNat ≤ 256 &&
  p.rsv == 0 && p.count.toNat ≤ p.entries.length &&
  (p.entries.take p.count.toNat).all (fun e => e.rsv == 0 && 100 ≤ e.interval.toNat && e.interval.toNat ≤ 1000000000) &&
  (p.entries.drop p.count.toNat).all (fun e => e.gates == 0 && e.rsv == 0 && e.interval == 0)

/-- The administrative list with the entries of OP 0 written, by rising index. -/
def adminSet (p : NetSchedWriteP) (es : List (Nat × GateEntry)) : List (Nat × GateEntry) :=
  let new := ((p.entries.take p.count.toNat).zipIdx).map (fun e => (p.start.toNat + e.2, (⟨e.1.gates.toNat, e.1.interval.toNat⟩ : GateEntry)))
  sortBy (·.1) (es.filter (fun e => !(p.start.toNat ≤ e.1 && e.1 < p.start.toNat + p.count.toNat)) ++ new)

/-- NET_SCHED_CFG OP 0 as a row. -/
def rowNetSchedCfgWrite (h : Hdr) (p : NetSchedWriteP) : Row :=
  let n := p.port.toNat
  { i := .netSchedCfgWrite h p, h := h, opc := 0x0C03, plens := schedPlens,
    chk := fun s => chkNet h 0x0C03 (!schedWriteFields p) false (schedForbids n s) s,
    run := fun s => netCommand h 0x0C03 (0x3000 + n) (adminRecord (adminSet p (netPort s n).admin))
      (onNetPort n (fun x => { x with admin := adminSet p x.admin })) (fun _ => okay) s }

/-- NET_SCHED_CFG, OP 0: entries of the administrative list (R446). -/
def execNetSchedCfgWrite (h : Hdr) (p : NetSchedWriteP) (s : State) : Host.Outcome State Fault Refusal :=
  ok (command (rowNetSchedCfgWrite h p) s)

/-- The first `len` entries of a port's administrative list, when all of them have been written. -/
def adminTake (es : List (Nat × GateEntry)) (len : Nat) : Option (List GateEntry) :=
  let l := es.filter (fun e => decide (e.1 < len))
  if l.length = len then some (l.map (·.2)) else none

/-- The list that OP 1 commits, when its fields are in range (R446, R448). -/
def commitList (p : NetSchedCommitP) (x : NetPort) : Option GateList :=
  let len := p.length.toNat
  match adminTake x.admin len with
  | none => none
  | some es =>
    let sum := es.foldl (fun m e => m + e.interval) 0
    if p.port.toNat ≤ 7 && 1 ≤ len && len ≤ 256 && mtOk p.base && p.rsv == 0 && sum ≤ p.cycle.toNat &&
        p.cycle.toNat ≤ 1000000000 && p.tail.all (· == 0) then
      some ⟨es, p.cycle.toNat, mtOf p.base⟩
    else none

/-- NET_SCHED_CFG OP 1 as a row: the reply names the change time. -/
def rowNetSchedCfgCommit (h : Hdr) (p : NetSchedCommitP) : Row :=
  let n := p.port.toNat
  { i := .netSchedCfgCommit h p, h := h, opc := 0x0C03, plens := schedPlens,
    chk := fun s => chkNet h 0x0C03 (h.plen.toNat < 3 || (commitList p (netPort s n)).isNone) false (schedForbids n s) s,
    run := fun s => match commitList p (netPort s n) with
      | none => s
      | some l =>
        let c := changeTime l.base l.cycle (merNs s)
        netCommand h 0x0C03 (0x3100 + n) (gateRecord (some l)) (onNetPort n (fun x => { x with next := some (c, l) }))
          (fun _ => okay (c / nsPerSec % 2 ^ 32) (c % nsPerSec)) s }

/-- NET_SCHED_CFG, OP 1: the list becomes operational at its change time (R446). -/
def execNetSchedCfgCommit (h : Hdr) (p : NetSchedCommitP) (s : State) : Host.Outcome State Fault Refusal :=
  ok (command (rowNetSchedCfgCommit h p) s)

/-- NET_SCHED_CFG OP 2 as a row: every gate opens at once. -/
def rowNetSchedCfgDisable (h : Hdr) (p : NetSchedDisableP) : Row :=
  let n := p.port.toNat
  { i := .netSchedCfgDisable h p, h := h, opc := 0x0C03, plens := schedPlens,
    chk := fun s => chkNet h 0x0C03 (7 < n || p.rsv != 0 || p.tail.any (· != 0)) false (schedForbids n s) s,
    run := fun s => netCommand h 0x0C03 (0x3100 + n) (gateRecord none)
      (onNetPort n (fun x => { x with oper := none, next := none, gates := 255 })) (fun _ => okay) s }

/-- NET_SCHED_CFG, OP 2 (R446). -/
def execNetSchedCfgDisable (h : Hdr) (p : NetSchedDisableP) (s : State) : Host.Outcome State Fault Refusal :=
  ok (command (rowNetSchedCfgDisable h p) s)

/-! ## Statistics (R448) -/

/-- The three counts of a page. -/
def statsWords (p : NetPort) (page : Nat) : Verdict :=
  let w := fun (n : Nat) => n % 2 ^ 32
  match page with
  | 0 => okay (w p.rx) (w p.tx) (w p.bad)
  | 1 => okay (w p.drop1) (w p.drop2) (w p.vlanDrop)
  | _ => okay (w p.rxOct) (w p.txOct) (w p.waits)

/-- NET_STATS as a row. -/
def rowNetStats (h : Hdr) (p : NetStatsP) : Row :=
  { i := .netStats h p, h := h, opc := 0x0C04, plens := [1],
    chk := fun s => firstOf [(!modeOk 0x0C04 s, no St.modeForbids),
      (8 < p.port.toNat || 2 < p.page.toNat || p.rsv != 0, no St.badParam)],
    run := fun s => finish h 0x0C04 (statsWords (netPort s p.port.toNat) p.page.toNat) s }

/-- NET_STATS (R448). -/
def execNetStats (h : Hdr) (p : NetStatsP) (s : State) : Host.Outcome State Fault Refusal := ok (command (rowNetStats h p) s)

end Sys2Proof.Machine
end

