-- ==== Sys2Proof/Machine/NvStore.lean ====
section
/-! DEFINITION. The commands of chapter 16: NV_READ, NV_WRITE, NV_UNLOCK, NV_LOCK, NV_COUNTER_ADD, NV_LOG_READ and the log
flush. -/

namespace Sys2Proof.Machine

/-- The refusal of a device-buffer field in Starlight, before the command's checks on the buffer (R366). -/
def starlightBuf (dev : Bool) (s : State) : Bool := dev && s.mode.mode == .starlight

/-- Reading a record: KIND and whether the result goes into the reply (R473). -/
def nvReadInline (p : NvAccessP) : Bool := p.addr == 0 && p.len.toNat ≤ 8

/-- The checks of NV_READ (R473). -/
def chkNvRead (_h : Hdr) (p : NvAccessP) (s : State) : Option Verdict :=
  let dev := p.flags.toNat.testBit 0
  let pay := nvGet s p.part.toNat p.type.toNat p.key.toNat
  let b := bufOf s (segHandle p.addr)
  firstOf
    [(!modeOk 0x0801 s, no St.modeForbids),
     (p.part.toNat > 4 || p.type == 0 || p.len.toNat > 1984 || p.flags.toNat > 1 || p.rsv != 0, no St.badParam),
     (p.part == 3 || (p.part == 4 && p.type == 0x10) || nvLocked s (masterOf _h.src) p.part.toNat 0, no St.deniedLocked),
     (pay.isNone, no St.notPresent),
     (p.offset.toNat + p.len.toNat > (pay.getD []).length, no St.badParam),
     (!nvReadInline p && starlightBuf dev s, no St.modeForbids),
     (!nvReadInline p && dev && b.isNone, no St.badHandle),
     (!nvReadInline p && dev && (match b with | some b => !segFits b (segOff p.addr) p.len.toNat | none => false), no St.badParam)]

/-- The effect of NV_READ (R473). -/
def runNvRead (h : Hdr) (p : NvAccessP) (s : State) : State :=
  match newest s p.part.toNat p.type.toNat p.key.toNat with
  | none => s
  | some (_, r) =>
    let d := bytesAt r.payload p.offset.toNat p.len.toNat
    if nvReadInline p then
      finish h 0x0801 (okay (r.payload.length + p.len.toNat * 2 ^ 16) (leNat (d.take 4)) (leNat (d.drop 4))) s
    else
      let s := if p.flags.toNat.testBit 0 then
          (match bufOf s (segHandle p.addr) with
           | some b => devWrite (bufAddr b + segOff p.addr) d s
           | none => s)
        else if p.addr = 0 then s else emit (.hostWrite p.addr.toNat d) s
      finish h 0x0801 (okay r.payload.length r.seq (if p.addr = 0 then 0 else d.length)) s

/-- NV_READ as a row. -/
def rowNvRead (h : Hdr) (p : NvAccessP) : Row :=
  { i := .nvRead h p, h := h, opc := 0x0801, plens := [3],
    host := !p.flags.toNat.testBit 0 && p.addr != 0, chk := chkNvRead h p, run := runNvRead h p }

/-- NV_READ (R473). -/
def execNvRead (h : Hdr) (p : NvAccessP) (s : State) : Host.Outcome State Fault Refusal := ok (command (rowNvRead h p) s)

/-- The bytes a write takes: inline, from host memory (both as the operand gives them), or from a device buffer. -/
def nvWriteData (p : NvAccessP) (data : List Byte) (s : State) : List Byte :=
  if p.flags.toNat.testBit 1 || !p.flags.toNat.testBit 0 then bytesAt data 0 p.len.toNat
  else match bufOf s (segHandle p.addr) with
    | some b => memGetAll s.mem (bufAddr b + segOff p.addr) p.len.toNat
    | none => []

/-- The checks NV_WRITE and NV_WRITE with DELETE share, up to the key (R473). -/
def chkNvTarget (h : Hdr) (p : NvAccessP) (s : State) : List (Bool × Verdict) :=
  [(!modeOk 0x0802 s, no St.modeForbids),
   (p.part.toNat > 4 || p.type.toNat < 0x80 || (p.part != 0 && p.part != 4) || p.offset != 0 || p.len.toNat > 1984 ||
     p.flags.toNat / 8 != 0 || p.rsv != 0, no St.badParam)] ++
  [(nvLocked s (masterOf h.src) p.part.toNat 1, no St.deniedLocked)]

/-- The checks of NV_WRITE (R473). -/
def chkNvWrite (h : Hdr) (p : NvAccessP) (data : List Byte) (s : State) : Option Verdict :=
  let inl := p.flags.toNat.testBit 1
  let dev := p.flags.toNat.testBit 0 && !inl
  let b := bufOf s (segHandle p.addr)
  firstOf ((chkNvTarget h p s).take 2 ++
    [(inl && (p.len.toNat > 200 || p.addr != 0 || (data.drop p.len.toNat).any (· != 0)), no St.badParam)] ++
    (chkNvTarget h p s).drop 2 ++
    [(starlightBuf dev s, no St.modeForbids),
     (dev && b.isNone, no St.badHandle),
     (dev && (match b with | some b => !segFits b (segOff p.addr) p.len.toNat | none => false), no St.badParam)])

/-- The effect of NV_WRITE: one record of the host's key (R462); the reply carries SEQ. -/
def runNvWrite (h : Hdr) (p : NvAccessP) (data : List Byte) (fails : Nat) (s : State) : State :=
  match nvPut p.part.toNat p.type.toNat p.key.toNat false (nvWriteData p data s) fails s with
  | (s, .seq q) => finish h 0x0802 (okay q) s
  | (s, .refused st) => finish h 0x0802 (no st) s

/-- NV_WRITE as a row; DELETE is clear. -/
def rowNvWrite (h : Hdr) (p : NvAccessP) (data : List Byte) (fails : Nat) : Row :=
  let q := { p with flags := p.flags &&& 0xFB }
  { i := .nvWrite h p data fails, h := h, opc := 0x0802,
    plens := if q.flags.toNat.testBit 1 then [3 + ceilDiv p.len.toNat 8] else [3],
    host := !q.flags.toNat.testBit 0 && !q.flags.toNat.testBit 1 && p.addr != 0,
    chk := chkNvWrite h q data, run := runNvWrite h q data fails }

/-- NV_WRITE (R473). -/
def execNvWrite (h : Hdr) (p : NvAccessP) (data : List Byte) (fails : Nat) (s : State) : Host.Outcome State Fault Refusal :=
  ok (command (rowNvWrite h p data fails) s)

/-- The effect of a deletion (R463). -/
def runNvDelete (h : Hdr) (p : NvAccessP) (s : State) : State :=
  match nvDelete p.part.toNat p.type.toNat p.key.toNat s with
  | (s, .seq q) => finish h 0x0802 (okay q) s
  | (s, .refused st) => finish h 0x0802 (no st) s

/-- NV_WRITE with DELETE as a row: a key that is absent has nothing to delete (R473). -/
def rowNvWriteDelete (h : Hdr) (p : NvAccessP) : Row :=
  let q := { p with flags := p.flags &&& 0xFB }
  { i := .nvWriteDelete h p, h := h, opc := 0x0802, plens := [3],
    chk := fun s => firstOf (chkNvTarget h q s ++
      [((nvGet s p.part.toNat p.type.toNat p.key.toNat).isNone, no St.notPresent)]),
    run := runNvDelete h q }

/-- NV_WRITE with DELETE (R463). -/
def execNvWriteDelete (h : Hdr) (p : NvAccessP) (s : State) : Host.Outcome State Fault Refusal :=
  ok (command (rowNvWriteDelete h p) s)

/-- The 32 password bytes of a packet, first byte first. -/
def pwBytes (p : NvPassP) : List Byte := leBytes 32 p.password.toNat

/-- PW_LEN names 8 to 32 bytes and the rest of the field is zero (R468). -/
def pwFormed (p : NvPassP) : Bool :=
  8 ≤ p.pwLen.toNat && p.pwLen.toNat ≤ 32 && ((pwBytes p).drop p.pwLen.toNat).all (· == 0)

/-- The access kinds a packet names. -/
def accessKinds (p : NvPassP) : List Nat := (List.range 2).filter (fun k => p.access.toNat.testBit k)

/-- PART and ACCESS in range (R468). -/
def passFields (p : NvPassP) : Bool := p.part.toNat ≤ 4 && p.access != 0 && p.access.toNat < 4 && p.rsv == 0

/-- The lock-out of a partition stands (R470). -/
def nvLockedOut (s : State) (part : Nat) : Bool := s.time.ref < assocD s.nv.lockUntil part 0

/-- A failed password: the count rises, and from the fifth failure on it locks the partition out with event 0xE4 (R470). -/
def nvAuthFail (part : Nat) (s : State) : State :=
  let n := counterGet s (failKey part) + 1
  let s := counterSet (failKey part) n s
  if n < 5 then s
  else raise 0xE4 [] { s with nv := { s.nv with lockUntil := assocSet s.nv.lockUntil part (s.time.ref + lockPeriod n) } }

/-- The effect of NV_UNLOCK (R468, R470). -/
def runNvUnlock (h : Hdr) (p : NvPassP) (s : State) : State :=
  let part := p.part.toNat
  if (accessKinds p).all (fun k => passMatches s part k ((pwBytes p).take p.pwLen.toNat)) then
    let s := if counterGet s (failKey part) = 0 then s else counterSet (failKey part) 0 s
    let us := (accessKinds p).foldl (fun u k =>
      if u.contains (masterOf h.src, part, k) then u else (masterOf h.src, part, k) :: u) s.nv.unlocks
    finish h 0x0803 (okay) { s with nv := { s.nv with unlocks := us } }
  else finish h 0x0803 (no St.authFail) (nvAuthFail part s)

/-- NV_UNLOCK as a row. Byte 3 is reserved here and OP in NV_LOCK. -/
def rowNvUnlock (h : Hdr) (p : NvPassP) (rsv8 : Byte) : Row :=
  { i := .nvUnlock h p rsv8, h := h, opc := 0x0803, plens := [5],
    chk := fun s => firstOf
      [(!passFields p || rsv8 != 0 || !pwFormed p, no St.badParam),
       (nvLockedOut s p.part.toNat, no St.lockedOut)],
    run := runNvUnlock h p }

/-- NV_UNLOCK (R468). -/
def execNvUnlock (h : Hdr) (p : NvPassP) (rsv8 : Byte) (s : State) : Host.Outcome State Fault Refusal :=
  ok (command (rowNvUnlock h p rsv8) s)

/-- PW_LEN and PASSWORD are zero (R469). -/
def pwZero (p : NvPassP) : Bool := p.pwLen == 0 && p.password == 0

/-- The named accesses lock again, for every master when `all`, else for the issuing one (R468, R469). -/
def relock (p : NvPassP) (m : Option Master) (s : State) : State :=
  { s with nv := { s.nv with unlocks := s.nv.unlocks.filter (fun e =>
      !(e.2.1 == p.part.toNat && (accessKinds p).contains e.2.2 && (m == none || m == some e.1))) } }

/-- NV_LOCK OP 0 as a row (R469). -/
def rowNvLock (h : Hdr) (p : NvPassP) : Row :=
  { i := .nvLock h p, h := h, opc := 0x0804, plens := [5],
    chk := fun _ => firstOf [(!passFields p || !pwZero p, no St.badParam)],
    run := fun s => finish h 0x0804 (okay) (relock p (some (masterOf h.src)) s) }

/-- NV_LOCK OP 0: relocks a partition (R469). -/
def execNvLock (h : Hdr) (p : NvPassP) (s : State) : Host.Outcome State Fault Refusal := ok (command (rowNvLock h p) s)

/-- The named accesses are locked for the issuing master (R469). -/
def lockedForAny (h : Hdr) (p : NvPassP) (s : State) : Bool :=
  (accessKinds p).any (fun k => nvLocked s (masterOf h.src) p.part.toNat k)

/-- A 16-byte salt drawn from the generator. -/
def drawSalt (s : State) : List Byte := bytesAt (Config.trng s.free) 0 16

/-- Stores a password digest for one access kind (R467). -/
def putPass (part k : Nat) (pw : List Byte) (s : State) : State × NvResult :=
  let salt := drawSalt s
  nvPut 4 0x10 (2 * part + k) false (salt ++ passDigest part k salt pw) 0 (drawn s)

/-- Stores a digest of the password for each of several access kinds; the first write that is refused ends it. -/
def putPasses (part : Nat) (pw : List Byte) : List Nat → State → State × Option Nat
  | [], s => (s, none)
  | k :: r, s => match putPass part k pw s with
    | (s, .seq _) => putPasses part pw r s
    | (s, .refused st) => (s, some st)

/-- Removes the passwords there are of several access kinds; the first deletion that is refused ends it. -/
def dropPasses (part : Nat) : List Nat → State → State × Option Nat
  | [], s => (s, none)
  | k :: r, s =>
    if (passRec s part k).isNone then dropPasses part r s
    else match nvDelete 4 0x10 (2 * part + k) s with
      | (s, .seq _) => dropPasses part r s
      | (s, .refused st) => (s, some st)

/-- NV_LOCK OP 1 as a row (R469). -/
def rowNvLockSetPassword (h : Hdr) (p : NvPassP) : Row :=
  { i := .nvLockSetPassword h p, h := h, opc := 0x0804, plens := [5],
    chk := fun s => firstOf
      [(!passFields p || !pwFormed p, no St.badParam),
       (lockedForAny h p s, no St.deniedLocked)],
    run := fun s => match putPasses p.part.toNat ((pwBytes p).take p.pwLen.toNat) (accessKinds p) (relock p none s) with
      | (s, none) => finish h 0x0804 (okay) s
      | (s, some st) => finish h 0x0804 (no st) s }

/-- NV_LOCK OP 1: sets a new password and locks (R469). -/
def execNvLockSetPassword (h : Hdr) (p : NvPassP) (s : State) : Host.Outcome State Fault Refusal :=
  ok (command (rowNvLockSetPassword h p) s)

/-- NV_LOCK OP 2 as a row (R469). -/
def rowNvLockRemovePassword (h : Hdr) (p : NvPassP) : Row :=
  { i := .nvLockRemovePassword h p, h := h, opc := 0x0804, plens := [5],
    chk := fun s => firstOf
      [(!passFields p || !pwZero p, no St.badParam), (lockedForAny h p s, no St.deniedLocked)],
    run := fun s => match dropPasses p.part.toNat (accessKinds p) s with
      | (s, none) => finish h 0x0804 (okay) s
      | (s, some st) => finish h 0x0804 (no st) s }

/-- NV_LOCK OP 2: removes a partition password (R469). -/
def execNvLockRemovePassword (h : Hdr) (p : NvPassP) (s : State) : Host.Outcome State Fault Refusal :=
  ok (command (rowNvLockRemovePassword h p) s)

/-- NV_COUNTER_ADD as a row (R471). -/
def rowNvCounterAdd (h : Hdr) (p : NvCounterP) : Row :=
  { i := .nvCounterAdd h p, h := h, opc := 0x0805, plens := [2],
    chk := fun s => firstOf
      [(!modeOk 0x0805 s, no St.modeForbids),
       (p.key.toNat < 0x40 || p.key.toNat > 0xFF || p.rsv != 0 || p.increment == 0 || p.increment.toNat ≥ 2 ^ 32 ||
         counterGet s p.key.toNat + p.increment.toNat ≥ 2 ^ 64, no St.badParam),
       (nvLocked s (masterOf h.src) 1 1, no St.deniedLocked)],
    run := fun s =>
      let v := counterGet s p.key.toNat + p.increment.toNat
      match nvPut 1 0x20 p.key.toNat false (leBytes 8 v) 0 s with
      | (s, .seq q) => finish h 0x0805 (okay (v % 2 ^ 32) (v / 2 ^ 32) q) s
      | (s, .refused st) => finish h 0x0805 (no st) s }

/-- NV_COUNTER_ADD (R471). -/
def execNvCounterAdd (h : Hdr) (p : NvCounterP) (s : State) : Host.Outcome State Fault Refusal :=
  ok (command (rowNvCounterAdd h p) s)

/-- The flushed log: the 64-byte records of every valid log slot, in EVSEQ order (R472, R474). -/
def logRecords (s : State) : List (List Byte) :=
  let slots := s.nv.slots.filterMap (fun e => match e.2 with
    | .valid r => if r.part = 2 ∧ r.type = 0x30 then some r else none
    | .bad => none)
  let ordered := sortBy (·.seq) slots
  ordered.flatMap (fun r => (List.range (r.payload.length / 64)).map (fun i => bytesAt r.payload (64 * i) 64))

/-- The checks of EVENT_LOG_READ and NV_LOG_READ (R424, R474). -/
def chkLogRead (p : EventLogReadP) (s : State) : Option Verdict :=
  let dev := p.flags.toNat.testBit 0
  let b := bufOf s (segHandle p.dest)
  firstOf
    [(p.count == 0 || p.count.toNat > 1024 || p.flags.toNat > 1 || p.rsv != 0 || p.dest.toNat % 64 != 0 &&
        !dev || dev && segOff p.dest % 64 != 0, no St.badParam),
     (p.dest != 0 && starlightBuf dev s, no St.modeForbids),
     (p.dest != 0 && dev && b.isNone, no St.badHandle),
     (p.dest != 0 && dev && (match b with | some b => !segFits b (segOff p.dest) (p.count.toNat * 64) | none => false),
       no St.badParam)]

/-- The effect of a log read on a list of records in rising EVSEQ order (R424). -/
def runLogRead (h : Hdr) (opc : Nat) (p : EventLogReadP) (rs : List (List Byte)) (s : State) : State :=
  let sel := (rs.filter (fun r => p.start.toNat ≤ field r 4 4)).take p.count.toNat
  let d := sel.flatten
  let s := if p.dest = 0 then s
    else if p.flags.toNat.testBit 0 then
      (match bufOf s (segHandle p.dest) with
       | some b => devWrite (bufAddr b + segOff p.dest) d s
       | none => s)
    else emit (.hostWrite p.dest.toNat d) s
  finish h opc (okay sel.length (match rs.head? with | some r => field r 4 4 | none => 0)
    (match rs.getLast? with | some r => field r 4 4 | none => 0)) s

/-- NV_LOG_READ as a row (R474). -/
def rowNvLogRead (h : Hdr) (p : EventLogReadP) : Row :=
  { i := .nvLogRead h p, h := h, opc := 0x0806, plens := [2], host := !p.flags.toNat.testBit 0 && p.dest != 0,
    chk := chkLogRead p, run := fun s => runLogRead h 0x0806 p (logRecords s) s }

/-- NV_LOG_READ (R474). -/
def execNvLogRead (h : Hdr) (p : EventLogReadP) (s : State) : Host.Outcome State Fault Refusal :=
  ok (command (rowNvLogRead h p) s)

/-- The log flush is due (R472): 31 records wait and NVS_LOG_INTERVAL has passed. -/
def flushDue (s : State) : Bool := 31 ≤ (unflushed s).length

/-- NV_LOG_FLUSH: at the first moment at which the interval allows it, every record not yet flushed is written (R472). -/
def execNvLogFlush (s : State) : Host.Outcome State Fault Refusal :=
  ok (if flushDue s then nvFlush (advanceRef (s.nv.lastFlush + pv s 0x0601 * nsPerSec) s) else s)

end Sys2Proof.Machine
end

