-- ==== Sys2Proof/Machine/Buffers.lean ====
section
/-! DEFINITION. The commands of chapter 12: allocating, freeing, copying and querying device buffers, and the ledger. -/

namespace Sys2Proof.Machine

/-- Units a SIZE rounds up to (R372). -/
def unitsFor (size : Nat) : Nat := ceilDiv size unitBytes

/-- No buffer occupies [a, a + n) and the range is not withdrawn. -/
def runFree (s : State) (a n : Nat) : Bool :=
  a + n ≤ withdrawnFrom s && s.buf.bufs.all (fun b => b.start + b.units ≤ a || a + n ≤ b.start)

/-- The places at which a lowest aligned run can start: the heap's start and each buffer's end, aligned. -/
def startsOf (s : State) (al : Nat) : List Nat := 0 :: s.buf.bufs.map (fun b => alignUp (b.start + b.units) al)

/-- The lowest aligned run of `n` FREE units (R372). -/
def placeFor (s : State) (n al : Nat) : Option Nat :=
  ((startsOf s al).filter (fun a => runFree s a n)).foldl (fun (o : Option Nat) a => match o with
    | none => some a
    | some b => some (min a b)) none

/-- The length of the FREE run from `a`, 0 when `a` is occupied. -/
def runFrom (s : State) (a : Nat) : Nat :=
  if !runFree s a 1 then 0
  else s.buf.bufs.foldl (fun m b => if a ≤ b.start then min m (b.start - a) else m) (withdrawnFrom s - a)

/-- The largest aligned run of FREE units (R373, BUF_HEAP_LARGEST with alignment 1). -/
def largestRun (s : State) (al : Nat) : Nat := (startsOf s al).foldl (fun m a => max m (runFrom s a)) 0

/-- The lowest buffer index not in use. -/
def freeBufIdx (s : State) : Option Nat :=
  (List.range (s.buf.bufs.length + 1)).find? (fun i => i < 16384 && !s.buf.bufs.any (fun b => b.idx == i))

/-- Alignment of BUF_ALLOC in units. -/
def alignUnits (p : BufAllocP) : Nat := 2 ^ (p.align.toNat - 16)

/-- The checks of R373, in order. -/
def chkBufAlloc (p : BufAllocP) (s : State) : Option Verdict :=
  firstOf
    [(!modeOk 0x0201 s, no St.modeForbids), (s.dmc.state != 3, no St.notPresent),
     (p.size == 0 || 17179869184 < p.size.toNat || p.align.toNat < 16 || 30 < p.align.toNat || p.rsv != 0, no St.badParam),
     (16384 ≤ s.buf.bufs.length || (placeFor s (unitsFor p.size.toNat) (alignUnits p)).isNone,
       ⟨St.noSpace, largestRun s (alignUnits p), 0, 0⟩)]

/-- The effect of BUF_ALLOC (R372): the buffer object, its units FREE to HOST, its contents undefined, the reply with handle and address. -/
def runBufAlloc (h : Hdr) (p : BufAllocP) (s : State) : State :=
  let n := unitsFor p.size.toNat
  match placeFor s n (alignUnits p), freeBufIdx s with
  | some a, some i =>
    let b : Buf := ⟨i, a, n, true, genOf s 0x01 i, []⟩
    let s := devBlur (bufAddr b) (n * unitBytes) (move 0x01 0 1 n { s with buf := { s.buf with bufs := s.buf.bufs ++ [b] } })
    finish h 0x0201 (okay (handle 0x01 i b.gen) (bufAddr b % 2 ^ 32) (bufAddr b / 2 ^ 32)) (checkLow s)
  | _, _ => s

/-- BUF_ALLOC as a row. -/
def rowBufAlloc (h : Hdr) (p : BufAllocP) : Row :=
  { i := .bufAlloc h p, h := h, opc := 0x0201, plens := [2], chk := chkBufAlloc p, run := runBufAlloc h p }

/-- BUF_ALLOC (R372). -/
def execBufAlloc (h : Hdr) (p : BufAllocP) (s : State) : Host.Outcome State Fault Refusal := ok (command (rowBufAlloc h p) s)

/-- The effect of BUF_FREE (R374): the generation advances; layers that do not
read the buffer let it go (R184); an unheld buffer is freed, a held one deferred. -/
def runBufFree (h : Hdr) (p : HandleP) (s : State) : State :=
  match bufOf s p.handle.toNat with
  | none => s
  | some b =>
    let s := dropSources b.idx (nextGen 0x01 b.idx s)
    let b := (s.buf.bufs.find? (fun x => x.idx == b.idx)).getD b
    if b.holds.isEmpty then finish h 0x0202 (okay) (checkLow (dropBuf b 1 s))
    else
      let b' := { b with live := false }
      let s := raise 0x51 [] (move 0x01 1 (bufCol b') b.units (setBuf b' s))
      finish h 0x0202 ⟨St.deferred, holderMask b, 0, 0⟩ s

/-- BUF_FREE as a row. -/
def rowBufFree (h : Hdr) (p : HandleP) : Row :=
  { i := .bufFree h p, h := h, opc := 0x0202, plens := [1],
    chk := fun s => firstOf [(p.rsv != 0, no St.badParam), ((bufOf s p.handle.toNat).isNone, no St.badHandle)],
    run := runBufFree h p }

/-- BUF_FREE (R374). -/
def execBufFree (h : Hdr) (p : HandleP) (s : State) : Host.Outcome State Fault Refusal := ok (command (rowBufFree h p) s)

/-- SRC_KIND and DST_KIND. -/
def copyKinds (p : BufCopyP) : Bool × Bool := (p.flags.toNat.testBit 0, p.flags.toNat.testBit 1)

/-- Two device segments of a copy overlap. -/
def copyOverlap (p : BufCopyP) (s : State) : Bool :=
  match bufOf s (segHandle p.src), bufOf s (segHandle p.dst) with
  | some a, some b =>
    let x := bufAddr a + segOff p.src
    let y := bufAddr b + segOff p.dst
    x < y + p.len.toNat && y < x + p.len.toNat
  | _, _ => false

/-- A segment of a copy reaches past its buffer. -/
def copyPast (a : U64) (p : BufCopyP) (s : State) : Bool :=
  match bufOf s (segHandle a) with
  | some b => !segFits b (segOff a) p.len.toNat
  | none => false

/-- The checks of BUF_COPY (R373, R376). -/
def chkBufCopy (p : BufCopyP) (s : State) : Option Verdict :=
  let (sd, dd) := copyKinds p
  firstOf
    [(!modeOk 0x0203 s, no St.modeForbids), (s.dmc.state != 3, no St.notPresent),
     (p.len == 0 || 1073741824 < p.len.toNat || p.flags.toNat > 3 || p.flags == 0 || p.rsv != 0, no St.badParam),
     ((sd && (bufOf s (segHandle p.src)).isNone) || (dd && (bufOf s (segHandle p.dst)).isNone), no St.badHandle),
     ((sd && copyPast p.src p s) || (dd && copyPast p.dst p s) || (sd && dd && copyOverlap p s), no St.badParam)]

/-- The effect of BUF_COPY: ACCEPTED, Nimbus holds the buffers, the copy is in progress (R375, R376). -/
def runBufCopy (h : Hdr) (p : BufCopyP) (s : State) : State :=
  let (sd, dd) := copyKinds p
  let seg := fun (dev : Bool) (a : U64) => if dev then (bufOf s (segHandle a)).map (fun b => (b.idx, bufAddr b + segOff a)) else none
  let src := seg sd p.src
  let dst := seg dd p.dst
  let adr := fun (o : Option (Nat × Nat)) (a : U64) => match o with | some e => e.2 | none => a.toNat
  let s := match src with | some e => hold e.1 .nimbus (ownerOf h) s | none => s
  let s := match dst with | some e => hold e.1 .nimbus (ownerOf h) s | none => s
  accepted h 0x0203 0 { s with buf := { s.buf with copies := s.buf.copies ++
    [⟨h, src, dst, adr src p.src, adr dst p.dst, p.len.toNat⟩] } }

/-- BUF_COPY as a row. -/
def rowBufCopy (h : Hdr) (p : BufCopyP) : Row :=
  { i := .bufCopy h p, h := h, opc := 0x0203, plens := [4],
    host := (!p.flags.toNat.testBit 0 && p.src != 0) || (!p.flags.toNat.testBit 1 && p.dst != 0),
    chk := chkBufCopy p, run := runBufCopy h p }

/-- BUF_COPY (R376). -/
def execBufCopy (h : Hdr) (p : BufCopyP) (s : State) : Host.Outcome State Fault Refusal := ok (command (rowBufCopy h p) s)

/-- A copy ends (R376): whole, OK with LENGTH; or early on a failed host access, FAULT with the bytes copied in order. -/
def execBufCopyDone (k : CmdKey) (copied : U32) (mem : HostMem) (data : List Byte) (s : State) :
    Host.Outcome State Fault Refusal :=
  ok (match s.buf.copies.find? (fun c => keyOf c.h == k) with
    | none => s
    | some c =>
      if mem = .ok then finish c.h 0x0203 (okay c.len) (dropCopy c (landCopy c c.len data s))
      else
        let n := min copied.toNat c.len
        finish c.h 0x0203 ⟨St.fault, n, 0, 0⟩ (dropCopy c (loseRest c n (landCopy c n data s))))

/-- BUF_QUERY as a row (R377). -/
def rowBufQuery (h : Hdr) (p : HandleP) : Row :=
  { i := .bufQuery h p, h := h, opc := 0x0204, plens := [1],
    chk := fun s => firstOf [(p.rsv != 0, no St.badParam), ((bufOf s p.handle.toNat).isNone, no St.badHandle)],
    run := fun s => match bufOf s p.handle.toNat with
      | none => s
      | some b => finish h 0x0204
          (okay b.units (bufAddr b % 2 ^ 32) (bufAddr b / 2 ^ 32 + holderMask b * 2 ^ 8)) s }

/-- BUF_QUERY (R377). -/
def execBufQuery (h : Hdr) (p : HandleP) (s : State) : Host.Outcome State Fault Refusal := ok (command (rowBufQuery h p) s)

/-- One pool is audited with the counts found (R379, R380): an imbalance raises event 0x54 with the pool and the sum, is
counted, and starts an L2, unless the ledger is UNGUARDED. -/
def auditPool (us : List Upset) (p : Pool) (s : State) : State :=
  let s := auditOne s
  let sum := (foundCols p us).sum
  if sum = p.total then s
  else
    let s := { s with buf := { s.buf with faults := s.buf.faults + 1 } }
    if s.buf.unguarded then raise 0x54 [(1, p.id), (4, sum)] s
    else
      let s := { s with buf := { s.buf with rebuild :=
        (if rebuildable p.id && !s.buf.rebuild.contains p.id then s.buf.rebuild ++ [p.id] else s.buf.rebuild) } }
      faultOf 0x30 0x54 [(1, p.id), (4, sum)] s

/-- LEDGER_READ as a row (R381): the audit, the record, the reply. -/
def rowLedgerRead (h : Hdr) (p : LedgerReadP) (us : List Upset) : Row :=
  { i := .ledgerRead h p us, h := h, opc := 0x0205, plens := [2], host := p.dest != 0,
    chk := fun s => firstOf
      [((poolOf s p.pool.toNat).isNone || p.rsv != 0 || p.dest.toNat % 8 != 0, no St.badParam)],
    run := fun s => match poolOf s p.pool.toNat with
      | none => s
      | some q =>
        let cols := foundCols q us
        let s1 := auditOne s
        let rec_ := ledgerRecord s1 q cols
        let v := okay s1.buf.auditSeq q.total (cols.getD 0 0 % 2 ^ 24 + poolFlags s1 q cols * 2 ^ 24)
        let s := auditPool us q s
        let s := if p.dest = 0 then s else emit (.hostWrite p.dest.toNat rec_) s
        finish h 0x0205 v s }

/-- LEDGER_READ (R381). -/
def execLedgerRead (h : Hdr) (p : LedgerReadP) (upsets : List Upset) (s : State) : Host.Outcome State Fault Refusal :=
  ok (command (rowLedgerRead h p upsets) s)

/-- The next second of Meridian time: every pool is audited (R379). -/
def execLedgerAuditTick (upsets : List Upset) (s : State) : Host.Outcome State Fault Refusal :=
  ok (if !mainOn s then s
    else
      let s := advanceMer ((max s.buf.lastAudit (merNs s / nsPerSec) + 1) * nsPerSec) s
      let s := { s with buf := { s.buf with lastAudit := merNs s / nsPerSec } }
      s.buf.pools.foldl (fun s p => auditPool upsets p s) s)

/-- The buffers with units in the withdrawn range. -/
def withdrawnBufs (s : State) : List Buf := s.buf.bufs.filter (fun b => 0 < unitsWithdrawn s b)

/-- Once per second while allocated buffers lie in a withdrawn range: event 0x56 with the units and the lowest handle
(R378). -/
def execBufWithdrawWait (s : State) : Host.Outcome State Fault Refusal :=
  ok (match withdrawnBufs s with
    | [] => s
    | b :: r =>
      let s := advanceRef (s.buf.withdrawEvt + nsPerSec) s
      let n := (b :: r).foldl (fun n x => n + unitsWithdrawn s x) 0
      let low := r.foldl (fun m x => min m (handle 0x01 x.idx x.gen)) (handle 0x01 b.idx b.gen)
      raise 0x56 [(4, n), (4, low)] { s with buf := { s.buf with withdrawEvt := s.time.ref } })

end Sys2Proof.Machine
end

