-- ==== Sys2Proof/Machine/Camera.lean ====
section
/-! DEFINITION. Camera ports: CAM_CFG, CAM_TRIGGER_CFG and CAM_STATUS, links, triggers, images and windows (R134 to R149, R164,
R539). -/

namespace Sys2Proof.Machine

/-! ## CAM_CFG OP 0 (R140, R141) -/

/-- The configuration that OP 0 gives. -/
def cfgOf (p : CamPortP) : CamCfg :=
  ⟨p.gearMax.toNat, p.dtype.toNat, p.width.toNat, p.height.toNat, p.flags.toNat.testBit 0, p.flags.toNat.testBit 1⟩

/-- Fields of OP 0 are in range, and the image fits a camera buffer. -/
def camPortOk (p : CamPortP) : Bool :=
  let g := cfgOf p
  p.port.toNat ≤ 15 && 1 ≤ g.gearMax && g.gearMax ≤ 5 && (g.dtype == 0x1E || g.dtype == 0x24 || g.dtype == 0x2A) &&
  64 ≤ g.w && g.w ≤ 4096 && (g.dtype != 0x1E || g.w % 2 == 0) && 64 ≤ g.h && g.h ≤ 2304 && p.flags.toNat ≤ 3 && p.rsv == 0 &&
  camPitch g * g.h ≤ 16777216

/-- Configured ports with SWEEP set once port `c` is configured with `on` (R158). -/
def sweepCount (c : Nat) (on : Bool) (s : State) : Nat :=
  ((sweepPorts s).filter (fun x => x != c)).length + b2n on

/-- A number of swept ports breaks the sweep budget, or in Skylight the memory budget (R158, R358). -/
def sweepOver (planes nc : Nat) (s : State) : Bool :=
  !sweepBudget planes nc (camRate s) s ||
  (s.mode.mode == .skylight && (match s.pnl.desc with
    | some d => !dmcFits s .skylight s.mode.rate d.w d.h (nqOf .skylight s) (planesFor .skylight (pv s 0x0A03) d) nc
    | none => false))

/-- The budgets of OP 0: the payload and the trained gear, the sweep. -/
def camPortBudget (p : CamPortP) (s : State) : Bool :=
  let c := p.port.toNat
  let nc := sweepCount c (cfgOf p).sweep s
  (match (portOf c s).gear with | some g => gearFits (cfgOf p) (camRate s) g | none => true) &&
  (nc == (sweepPorts s).length || !sweepOver s.cam.sweepCfg.planes nc s)

/-- The first window that opens after the present. -/
def nextWindow (s : State) : Nat :=
  match frameFrom (merNs s + 1) s with
  | some (_, k) => k + 3
  | none => 0

/-- The port takes a configuration: it governs the windows that open from now on, and the port is re-armed (R138, R139, R141). -/
def configure (c : Nat) (g : CamCfg) (s : State) : State :=
  let p := portOf c s
  let k := nextWindow s
  let s := if p.cfg.isNone then move 0x13 0 8 3 s else s
  let s := if (match p.gear with | some t => decide (g.gearMax < t) | none => false) then portDown c s else s
  onPort c (fun p => { p with
    cfg := some g, cfgFrom := k, cfgPrev := if p.cfgFrom < k then p.cfg else p.cfgPrev, freeing := false, masked := false,
    presMasked := false, rearm := false, format := false, drops := [], accepted := 0 }) s

/-- CAM_CFG OP 0 as a row. -/
def rowCamCfgPort (h : Hdr) (p : CamPortP) : Row :=
  { i := .camCfgPort h p, h := h, opc := 0x0C05, plens := [2],
    chk := fun s => firstOf
      [(!modeOk 0x0C05 s, no St.modeForbids), (!camPortOk p, no St.badParam), (!camPortBudget p s, no St.budgetExceeded)],
    run := fun s => finish h 0x0C05 (okay) (configure p.port.toNat (cfgOf p) s) }

/-- CAM_CFG, OP 0 PORT (R141). -/
def execCamCfgPort (h : Hdr) (p : CamPortP) (s : State) : Host.Outcome State Fault Refusal := ok (command (rowCamCfgPort h p) s)

/-! ## CAM_CFG OP 1 (R142) -/

/-- CAM_CFG OP 1 as a row. -/
def rowCamCfgOff (h : Hdr) (p : CamOffP) : Row :=
  { i := .camCfgOff h p, h := h, opc := 0x0C05, plens := [1],
    chk := fun s => firstOf
      [(!modeOk 0x0C05 s, no St.modeForbids), (15 < p.port.toNat || p.rsv != 0, no St.badParam)],
    run := fun s =>
      let c := p.port.toNat
      let s := if (portOf c s).cfg.isSome then
          settlePort c (onPort c (fun x => { x with freeing := true }) (portDown c s))
        else s
      finish h 0x0C05 (okay) s }

/-- CAM_CFG, OP 1 OFF (R142). -/
def execCamCfgOff (h : Hdr) (p : CamOffP) (s : State) : Host.Outcome State Fault Refusal := ok (command (rowCamCfgOff h p) s)

/-! ## CAM_CFG OP 2 (R143) -/

/-- Fields of OP 2 are in range. -/
def camI2cOk (p : CamI2cP) : Bool :=
  let w := p.writeLen.toNat
  p.port.toNat ≤ 15 && 8 ≤ p.addr.toNat && p.addr.toNat ≤ 0x77 && w ≤ 192 && p.readLen.toNat ≤ 8 && 1 ≤ w + p.readLen.toNat &&
  p.speed.toNat ≤ 1 && p.rsv == 0 && zeroAt p.data w (8 * ceilDiv w 8 - w)

/-- The first transfer waiting at a port starts. -/
def startI2c (c : Nat) (s : State) : State :=
  match (portOf c s).i2c with
  | t :: _ => emit (.camI2c c t.addr t.data t.readLen t.speed) s
  | [] => s

/-- CAM_CFG OP 2 as a row: transfers to one port run in submission order. -/
def rowCamCfgI2c (h : Hdr) (p : CamI2cP) : Row :=
  { i := .camCfgI2c h p, h := h, opc := 0x0C05, plens := [1 + ceilDiv p.writeLen.toNat 8],
    chk := fun s => firstOf
      [(!modeOk 0x0C05 s, no St.modeForbids), (!camI2cOk p, no St.badParam),
       ((portOf p.port.toNat s).gear.isNone, no St.notPresent)],
    run := fun s =>
      let c := p.port.toNat
      let t : CamI2c := ⟨h, p.addr.toNat, bytesAt p.data 0 p.writeLen.toNat, p.speed.toNat, p.readLen.toNat⟩
      let quiet := (portOf c s).i2c == []
      let s := accepted h 0x0C05 0 (onPort c (fun x => { x with i2c := x.i2c ++ [t] }) s)
      if quiet then startI2c c s else s }

/-- CAM_CFG, OP 2 I2C (R143). -/
def execCamCfgI2c (h : Hdr) (p : CamI2cP) (s : State) : Host.Outcome State Fault Refusal := ok (command (rowCamCfgI2c h p) s)

/-- What an ended transfer answers (R143). -/
def i2cVerdict (t : CamI2c) (e : I2cEnd) : Verdict :=
  match e with
  | .done read =>
    let v := leNat (bytesAt read 0 t.readLen)
    okay t.readLen (v % 2 ^ 32) (v / 2 ^ 32)
  | .addrNack => ⟨St.fault, 1, 0, 0⟩
  | .dataNack n => ⟨St.fault, 2, min n.toNat t.data.length, 0⟩
  | .heldLow => ⟨St.fault, 3, 0, 0⟩

/-- CAM_I2C_TRANSFER_DONE (R143): the transfer under way at a port ends; a failed one raises event 0x86. -/
def execCamI2cTransferDone (port : Fin 16) (e : I2cEnd) (s : State) : Host.Outcome State Fault Refusal :=
  let c := port.val
  ok (match (portOf c s).i2c with
    | [] => s
    | t :: rest =>
      let s := finish t.h 0x0C05 (i2cVerdict t e) (onPort c (fun p => { p with i2c := rest }) s)
      startI2c c (match e with | .done _ => s | _ => raise 0x86 [] s))

/-! ## CAM_CFG OP 3 (R144, R150) -/

/-- The bytes of a map, and what its buffer holds from its offset on. -/
def mapBytes (p : CamMapP) (s : State) : List Byte × Nat :=
  match bufOf s p.handle.toNat with
  | some b =>
    let avail := b.units * unitBytes - p.offset.toNat
    (memGetAll s.mem (bufAddr b + p.offset.toNat) (min avail p.length.toNat), avail)
  | none => ([], 0)

/-- The code with which a map fails. -/
def mapCode (p : CamMapP) (s : State) : Option Nat :=
  mapBad (mapBytes p s).1 p.length.toNat (mapBytes p s).2 (portOf p.port.toNat s).cfg s.pnl.desc

/-- CAM_CFG OP 3 as a row; in Starlight no command reads a device buffer (R366). -/
def rowCamCfgMap (h : Hdr) (p : CamMapP) : Row :=
  { i := .camCfgMap h p, h := h, opc := 0x0C05, plens := [2],
    chk := fun s => firstOf
      [(!modeOk 0x0C05 s || s.mode.mode == .starlight, no St.modeForbids),
       (15 < p.port.toNat || p.rsv != 0 || p.offset.toNat % 8 != 0, no St.badParam),
       ((bufOf s p.handle.toNat).isNone, no St.badHandle),
       ((mapCode p s).isSome, ⟨St.badParam, (mapCode p s).getD 0, 0, 0⟩)],
    run := fun s => finish h 0x0C05 (okay)
      (onPort p.port.toNat (fun x => { x with map := some (mapOf (mapBytes p s).1), rearm := false }) s) }

/-- CAM_CFG, OP 3 MAP (R144). -/
def execCamCfgMap (h : Hdr) (p : CamMapP) (s : State) : Host.Outcome State Fault Refusal := ok (command (rowCamCfgMap h p) s)

/-! ## CAM_TRIGGER_CFG (R146) -/

/-- A skew of CAM_TRIGGER_CFG. -/
def skewAt (p : CamTrigP) (c : Nat) : Int := signed 16 (p.skew.getD c 0).toNat

/-- Fields of CAM_TRIGGER_CFG are in range. -/
def camTrigOk (p : CamTrigP) : Bool :=
  100 ≤ p.offset.toNat && p.offset.toNat ≤ 4000 && 1 ≤ p.width.toNat && p.width.toNat ≤ 1000 && p.flags.toNat ≤ 1 && p.rsv == 0 &&
  camPorts.all (fun c => decide (-10000 ≤ skewAt p c) && decide (skewAt p c ≤ 10000))

/-- CAM_TRIGGER_CFG as a row: in force from the first window that opens after the reply. -/
def rowCamTriggerCfg (h : Hdr) (p : CamTrigP) : Row :=
  { i := .camTriggerCfg h p, h := h, opc := 0x0C06, plens := [5],
    chk := fun s => firstOf [(!modeOk 0x0C06 s, no St.modeForbids), (!camTrigOk p, no St.badParam)],
    run := fun s =>
      let k := nextWindow s
      let t : TrigCfg := ⟨p.offset.toNat, p.width.toNat, p.flags.toNat.testBit 0, camPorts.map (skewAt p)⟩
      finish h 0x0C06 (okay) (onCam (fun x => { x with trig := trigAt (k - 1) s, trigNext := some (k, t) }) s) }

/-- CAM_TRIGGER_CFG (R146). -/
def execCamTriggerCfg (h : Hdr) (p : CamTrigP) (s : State) : Host.Outcome State Fault Refusal :=
  ok (command (rowCamTriggerCfg h p) s)

/-! ## CAM_STATUS (R164) -/

/-- State code of a port. -/
def camState (c : Nat) (s : State) : Nat :=
  let p := portOf c s
  if p.cfg.isNone || p.freeing then 0
  else if p.masked then 5
  else if !portPowered c s then 1
  else if p.gear.isNone then 2
  else if p.rearm then 6
  else if s.cam.present.testBit c then 4
  else 3

/-- CAM_STATUS as a row. -/
def rowCamStatus (h : Hdr) (p : CamStatusP) : Row :=
  { i := .camStatus h p, h := h, opc := 0x0C07, plens := [1],
    chk := fun s => firstOf [(!modeOk 0x0C07 s, no St.modeForbids), (15 < p.port.toNat || p.rsv != 0, no St.badParam)],
    run := fun s =>
      let c := p.port.toNat
      let x := portOf c s
      finish h 0x0C07 (okay (camState c s + 256 * x.gear.getD 0) (x.accepted % 2 ^ 32) (unsigned 32 x.slack)) s }

/-- CAM_STATUS (R164). -/
def execCamStatus (h : Hdr) (p : CamStatusP) (s : State) : Host.Outcome State Fault Refusal := ok (command (rowCamStatus h p) s)

/-! ## Links (R134, R138, R139) -/

/-- The recovery of a port's link, if one runs. -/
def camRecov (c : Nat) (s : State) : Option Recov := s.evt.recs.find? (fun r => r.domain == camDomain c && r.running)

/-- CAM_LINK_UP (R134, R139, R141): a powered port trains; `gear` + 1 is the highest gear of the camera, `latency` the measured
uplink latency (R477). A port returning after a loss awaits re-arming; a gear too low for the payload raises event 0x85. -/
def execCamLinkUp (port : Fin 16) (gear : Fin 5) (latency : Fin 10001) (s : State) : Host.Outcome State Fault Refusal :=
  let c := port.val
  let p := portOf c s
  ok (match p.cfg with
    | none => s
    | some g =>
      if !mainOn s || p.gear.isSome || !portPowered c s then s
      else
        let t := min g.gearMax (gear.val + 1)
        let bad := !gearFits g (camRate s) t
        let s := onPort c (fun p => { p with
          gear := some t, latency := latency.val, rearm := p.rearm || p.lost, lost := false, format := bad }) s
        let s := raise 0x80 [(1, t), (1, b2n p.lost)] s
        let s := raiseIf bad 0x85 [] s
        let s := match camRecov c s with | some r => endRecov r 1 0 s | none => s
        auditAll s)

/-- Link drops of a port within the last 10 s (R138). -/
def recentDrops (c : Nat) (s : State) : Nat :=
  ((portOf c s).drops.filter (fun t => decide (s.time.ref < t + 10 * nsPerSec))).length

/-- A port's link goes down: its transfers end, and the drop is a fault of its domain: masked beyond CAM_FLAP_LIMIT drops within
10 s, recovered at L0 otherwise (R138, R427). -/
def linkLost (c : Nat) (s : State) : State :=
  let s := portDown c (onPort c (fun p => { p with
    lost := true, dropCount := p.dropCount + 1, drops := (s.time.ref :: p.drops).take 17 }) s)
  let s := if quiescing s then fire 0x81 [] s
    else if pv s 0x0C00 < recentDrops c s then takeOwn (camDomain c) 0 0 0x81 [] s
    else
      let rseq := (s.evt.rseq + 1) % 2 ^ 32
      decideRecov (camDomain c) 0 (some 0x81) [] 0 .escalation none false (setWindow (camDomain c) 0 rseq s)
  auditAll s

/-- CAM_LINK_DOWN (R138): the link of a trained port is lost. -/
def execCamLinkDown (port : Fin 16) (s : State) : Host.Outcome State Fault Refusal :=
  ok (if (portOf port.val s).gear.isNone then s else linkLost port.val s)

/-! ## Triggers (R147) -/

/-- CAM_TRIGGER (R147): T_trig of the next window of a triggered port is reached; the edge is sent early by the port's uplink
latency. -/
def execCamTrigger (port : Fin 16) (s : State) : Host.Outcome State Fault Refusal :=
  let c := port.val
  let p := portOf c s
  ok (match frameAt (merNs s) s with
    | none => s
    | some f =>
      let k := max s.cam.fromK (max (s.cam.trigDone.getD c 0 + 1) (f + 3))
      if s.mode.mode ≠ .skylight || p.gear.isNone || s.scn.dark.isSome || f + 4 < k ||
          (match cfgAt c k s with | some g => g.free | none => true) then s
      else
        let t := trigTime k c s
        let q := trigAt k s
        emit (.camTrigger c (t - p.latency) (q.width * 1000) q.low)
          (onCam (fun x => { x with trigDone := x.trigDone.set c k }) (advanceMer (t - p.latency) s)))

/-! ## Images (R136, R137, R148) -/

/-- An image of a port is discarded: the window's image is judged, event 0x84 or 0x85 for R136, 0x82 for a late FE. -/
def badImage (c k src : Nat) (s : State) : State :=
  let s := onPort c (fun p => { p with judged := (k :: p.judged).take 8 }) s
  let s := if src = 0x82 then onCam (fun x => { x with late := x.late + 1 }) s
    else onCam (fun x => { x with errors := x.errors + 1 }) s
  raise src [(1, c), (8, k)] s

/-- An image is stored line by line with the row pitch of R141, and accepted for window `k` (R148, R149). -/
def storeImage (c k : Nat) (g : CamCfg) (lines : List (List Byte)) (s : State) : State :=
  match freeCamBuf c s with
  | none => s
  | some i =>
    let s := (lines.zipIdx).foldl (fun s e => devWrite (camBase c i + e.2 * camPitch g) e.1 s) s
    move 0x13 8 4 1 (onPort c (fun p => { p with images := p.images ++ [⟨k, i, g⟩], accepted := p.accepted + 1 }) s)

/-- A frame is judged for window `k` (R148). -/
def judgeImage (c k : Nat) (g : CamCfg) (f : CsiFrame) (s : State) : State :=
  let p := portOf c s
  let fs := mtOf f.fs
  let fe := mtOf f.fe
  let late := windowEnd k s ≤ fe
  let s := onPort c (fun p => { p with slack := floorDiv ((windowEnd k s : Int) - fe) 1000 }) s
  if !g.free && fs < trigTime k c s then raise 0x83 [(1, c), (8, k)] s
  else if p.images.any (fun x => x.k == k) then raise 0x83 [(1, c), (8, k)] s
  else if p.judged.contains k then (if late then s else raise 0x83 [(1, c), (8, k)] s)
  else if late then badImage c k 0x82 s
  else if f.broken then badImage c k 0x84 s
  else if f.lines.length ≠ g.h || f.lines.any (fun l => l.length != g.w * pixelBytes g.dtype) then badImage c k 0x85 s
  else storeImage c k g f.lines s

/-- CSI2_FRAME (R136, R148): a frame is received whole at its FE stamp, and judged in Skylight for the window of its FS stamp. -/
def execCsi2Frame (port : Fin 16) (f : CsiFrame) (s : State) : Host.Outcome State Fault Refusal :=
  let c := port.val
  ok (if (portOf c s).gear.isNone || mtOf f.fe < mtOf f.fs then s
    else
      let s := onPort c (fun p => { p with skipped := p.skipped + f.counted.toNat }) (advanceMer (mtOf f.fe) s)
      if s.mode.mode ≠ .skylight then s
      else match frameAt (mtOf f.fs) s with
        | none => s
        | some j =>
          let k := j + 3
          if k < s.cam.fromK then s
          else match cfgAt c k s with
            | none => s
            | some g => judgeImage c k g f s)

/-- CAM_WINDOW_END (R148): the next window ends; ports of the mask have an image whose FE has not arrived. -/
def execCamWindowEnd (outstanding : U16) (s : State) : Host.Outcome State Fault Refusal :=
  ok (match frameAt (merNs s) s with
    | none => s
    | some f =>
      let k := max s.cam.fromK (s.cam.winEnd + 1)
      if s.mode.mode ≠ .skylight || s.scn.dark.isSome || f + 4 < k then s
      else
        let s := onCam (fun x => { x with winEnd := k }) (advanceMer (windowEnd k s) s)
        camPorts.foldl (fun s c =>
          let p := portOf c s
          if outstanding.toNat.testBit c && p.gear.isSome && (cfgAt c k s).isSome && !p.images.any (fun x => x.k == k) &&
              !p.judged.contains k then badImage c k 0x82 s
          else s) s)

/-! ## Presence (R539) -/

/-- Extra edges of a port's presence input are counted, with event 0x0D once per second. -/
def presBounce (c : Nat) (s : State) : State :=
  let s := onPort c (fun p => { p with bounces := p.bounces + 1 }) s
  let p := portOf c s
  if (match p.said with | some t => decide (s.time.ref < t + nsPerSec) | none => false) then s
  else raise 0x0D [(1, 0x10 + c), (4, p.bounces)] (onPort c (fun p => { p with said := some s.time.ref }) s)

/-- A presence level of a camera is accepted at reference ns now; without a camera the receiver is off and its link is lost. -/
def acceptCam (c : Nat) (level : Bool) (s : State) : State :=
  let s := onPort c (fun p => { p with camera := level, presEdge := some s.time.ref, presAt := s.time.ref }) s
  if !level && (portOf c s).gear.isSome then linkLost c s else s

/-- CAM_PRES_INPUT (R539, R226): a camera's presence input goes to a level and stays there for `stable` µs. -/
def execCamPresInput (port : Fin 16) (level : Bool) (stable : Nat) (s : State) : Host.Outcome State Fault Refusal :=
  let c := port.val
  let p := portOf c s
  let ready := s.time.ref + 20000000
  let open_ := match p.presEdge with | some e => e + 200000000 | none => 0
  ok (if p.presMasked || level == p.camera then s
    else
      let s := if ready < open_ then presBounce c s else s
      let at_ := max ready open_
      if at_ ≤ s.time.ref + stable * 1000 then acceptCam c level (advanceRef at_ s) else s)

end Sys2Proof.Machine
end

