-- ==== Sys2Proof/Machine/DmcErr.lean ====
section
/-! DEFINITION. Memory errors met by reads (R351 to R353, R355, R356). -/

namespace Sys2Proof.Machine

/-- A PC is to be fenced: a ninth one stays in service as degraded, with event 0x49 and the safe hold (R355, R356). -/
def fencePc (pc : Nat) (s : State) : State :=
  if fenceDecided s pc then s
  else if 8 ≤ fenceCount s then
    decideRecov 0x31 4 (some 0x49) (payload []) 0 .ninthFence none false (raise 0x49 [] s)
  else decideFence pc s

/-- An error of the PC asks for a fence of a degraded PC, or else for a retraining (R352, R353). -/
def errorActs (pc : Nat) (ue : Bool) (s : State) : State :=
  let n := (pcOf s pc).ce.length
  if fenceDecided s pc then s
  else if isDegraded s pc then (if ue || pv s 0x0706 < n then fencePc pc s else s)
  else if ue || pv s 0x0705 < n then startRetrain pc s
  else s

/-- A read meets an error: corrected and counted with event 0x42, or uncorrected with event 0x43 (R351). -/
def memError (e : MemErr) (s : State) : State :=
  let pc := (placeOf s e.addr).pc
  if e.ue then
    errorActs pc true (raise 0x43 [(1, pc), (8, e.addr)] { s with dmc := { s.dmc with ueCount := s.dmc.ueCount + 1 } })
  else
    let s := onPc pc (fun p => { p with ce := s.time.ref :: p.ce.filter (fun t => decide (s.time.ref < t + nsPerSec)) }) s
    errorActs pc false (raise 0x42 [(1, pc)] { s with dmc := { s.dmc with ceCount := s.dmc.ceCount + 1 } })

/-- The errors met in one step; none while device memory is out of service. -/
def memErrors (es : List MemErr) (s : State) : State := if s.dmc.state = 3 then es.foldl (fun s e => memError e s) s else s

end Sys2Proof.Machine
end

