-- ==== Sys2Proof/Machine/UnitFaults.lean ====
section
/-! DEFINITION. Faults of one unit of a block that has several: an engine of Cirrus (R97, R98), a lane group of Cumulus (R130), a
lane group of the sweep (R159). -/

namespace Sys2Proof.Machine

/-- An engine fails its checks: Cirrus is recovered at L1, an engine failing again is left out of service (R97, R98). -/
def engineFault (e : Nat) (s : State) : State :=
  if !mainOn s || s.cdc.off.contains e then s
  else faultOf 0x01 0x60 [] (onCdc (fun c => { c with recent := ((e, merNs s) :: c.recent).take 16 }) s)

/-- A lane group of Cumulus fails its checks (R130). -/
def groupFault (g : Nat) (s : State) : State :=
  if !mainOn s || 15 < g || s.syn.off.contains g then s
  else faultOf 0x02 0x70 [] (onSyn (fun y => { y with recent := ((g, merNs s) :: y.recent).take 16 }) s)

/-- A lane group of the sweep fails its checks (R159). -/
def sweepFault (g : Nat) (s : State) : State :=
  if !mainOn s || s.cam.off.contains g then s
  else faultOf 0x03 0x8C [] (onCam (fun c => { c with recent := ((g, merNs s) :: c.recent).take 16 }) s)

end Sys2Proof.Machine
end

