-- ==== Sys2Proof/Machine/Codec.lean ====
section
/-! DEFINITION. Codec jobs: their commands (R85 to R95), the assignment and the work of engines (R73, R83, R87 to R91), starving
and the suspend limit (R84, R96), engine faults (R97). -/

namespace Sys2Proof.Machine

/-! ## Segments -/

/-- IN_KIND of a FLAGS byte (R85, R93): the input is a device buffer. -/
def inDev (f : Byte) : Bool := f.toNat.testBit 1
/-- OUT_KIND of a FLAGS byte. -/
def outDev (f : Byte) : Bool := f.toNat.testBit 2

/-- A device segment's handle is live. -/
def segLive (dev : Bool) (a : U64) (s : State) : Bool := !dev || (bufOf s (segHandle a)).isSome

/-- A segment does not reach past the end of its device buffer. -/
def segIn (dev : Bool) (a : U64) (n : Nat) (s : State) : Bool :=
  !dev || (match bufOf s (segHandle a) with | some b => segFits b (segOff a) n | none => true)

/-- The segment an address names. -/
def segOf (dev : Bool) (a : U64) (n : Nat) (s : State) : CSeg :=
  match (if dev then bufOf s (segHandle a) else none) with
  | some b => ⟨some b.idx, bufAddr b + segOff a, n⟩
  | none => ⟨none, a.toNat, n⟩

/-- A job holds the device buffer of a segment until it ends (R92, R375). -/
def holdSeg (i : Nat) (g : CSeg) (s : State) : State :=
  match g.dev with
  | some b => hold b .cirrus (cdcOwner i) s
  | none => s

/-! ## CODEC_JOB (R85, R86) -/

/-- Fields of CODEC_JOB are in range, those unused by OP zero. -/
def codecJobOk (decomp : Bool) (p : CodecJobP) : Bool :=
  let bs := p.blockSize.toNat
  (if decomp then p.level == 0 && p.tables == 0 && bs == 0
   else p.level.toNat ≤ 9 && p.tables.toNat ≤ 2 && 1024 ≤ bs && bs ≤ 65536 && bs % 1024 == 0) &&
  p.flags.toNat ≤ 7 && p.rsv == 0 && p.inLen.toNat ≤ 1073741824 && (p.inLen != 0 || p.flags.toNat.testBit 0) &&
  1 ≤ p.outLen.toNat && p.outLen.toNat ≤ 1073741824

/-- The checks of CODEC_JOB, in the order of R86. -/
def chkCodecJob (decomp : Bool) (p : CodecJobP) (s : State) : Option Verdict :=
  firstOf
    [(!modeOk 0x0501 s, no St.modeForbids),
     (16 ≤ s.cdc.jobs.length, no St.noSpace),
     (!codecJobOk decomp p || !segIn (inDev p.flags) p.inAddr p.inLen.toNat s ||
        !segIn (outDev p.flags) p.outAddr p.outLen.toNat s, no St.badParam),
     (!segLive (inDev p.flags) p.inAddr s || !segLive (outDev p.flags) p.outAddr s, no St.badHandle)]

/-- The lowest free job slot. -/
def freeJobSlot (s : State) : Nat := ((List.range 16).find? (fun i => (jobOf i s).isNone)).getD 0

/-- The job a CODEC_JOB opens in slot `i`. -/
def openJob (h : Hdr) (decomp : Bool) (p : CodecJobP) (i : Nat) (s : State) : CodecJob :=
  { idx := i, h := h, opcode := 0x0501, running := true, code := 0, stoppedAt := 0, waitSince := s.time.ref, starved := false,
    decomp := decomp, level := p.level.toNat, tables := p.tables.toNat, blockSize := p.blockSize.toNat,
    more := p.flags.toNat.testBit 0, ins := [segOf (inDev p.flags) p.inAddr p.inLen.toNat s], inUsed := 0,
    out := segOf (outDev p.flags) p.outAddr p.outLen.toNat s, outUsed := 0, inDone := 0, outDone := 0,
    inTotal := p.inLen.toNat, outTotal := p.outLen.toNat, block := 0, inp := [], units := 0, blkOut := 0 }

/-- The effect of CODEC_JOB: the lowest free slot takes the job, which holds its buffers and waits for an engine. -/
def runCodecJob (h : Hdr) (decomp : Bool) (p : CodecJobP) (s : State) : State :=
  let i := freeJobSlot s
  let j := openJob h decomp p i s
  let s := move 0xF1 0 1 1 (onCdc (fun c => { c with jobs := c.jobs ++ [j] }) s)
  let s := holdSeg i j.out (j.ins.foldl (fun s g => holdSeg i g s) s)
  accepted h 0x0501 (jobHandle s i) s

/-- CODEC_JOB as a row. -/
def rowCodecJob (i : Instr) (h : Hdr) (decomp : Bool) (p : CodecJobP) : Row :=
  { i := i, h := h, opc := 0x0501, plens := [5], host := (!inDev p.flags && p.inLen != 0) || !outDev p.flags,
    chk := chkCodecJob decomp p, run := runCodecJob h decomp p }

/-- CODEC_JOB with OP compress as a row. -/
def rowCodecJobCompress (h : Hdr) (p : CodecJobP) : Row := rowCodecJob (.codecJobCompress h p) h false p

/-- CODEC_JOB, OP compress (R85). -/
def execCodecJobCompress (h : Hdr) (p : CodecJobP) (s : State) : Host.Outcome State Fault Refusal :=
  ok (command (rowCodecJobCompress h p) s)

/-- CODEC_JOB with OP decompress as a row. -/
def rowCodecJobDecompress (h : Hdr) (p : CodecJobP) : Row := rowCodecJob (.codecJobDecompress h p) h true p

/-- CODEC_JOB, OP decompress (R85). -/
def execCodecJobDecompress (h : Hdr) (p : CodecJobP) (s : State) : Host.Outcome State Fault Refusal :=
  ok (command (rowCodecJobDecompress h p) s)

/-! ## CODEC_RESUME (R93) -/

/-- Fields of CODEC_RESUME are in range. -/
def codecResumeOk (p : CodecResumeP) : Bool :=
  p.flags.toNat ≤ 7 && p.rsv == 0 && p.rsv2 == 0 && p.inLen.toNat ≤ 1073741824 && p.outLen.toNat ≤ 1073741824

/-- The rules of R93 that join a resume to its job, and the totals of R87. -/
def resumeFits (p : CodecResumeP) (j : CodecJob) : Bool :=
  !((j.code == 0x80 || j.code == 0x84) && p.outLen == 0) &&
  !(j.code == 0x81 && p.inLen == 0 && !p.flags.toNat.testBit 0) &&
  (p.inLen == 0 || j.more) &&
  j.inTotal + p.inLen.toNat < 2 ^ 32 && (p.outLen == 0 || j.outDone + p.outLen.toNat < 2 ^ 32)

/-- The checks of CODEC_RESUME, in the order of R93; a stale job handle leaves no job to check against. -/
def chkCodecResume (p : CodecResumeP) (s : State) : Option Verdict :=
  let j := jobBy s p.job.toNat
  let di := inDev p.flags && p.inLen != 0
  let do_ := outDev p.flags && p.outLen != 0
  firstOf
    [((match j with | some j => j.running | none => false), no St.busy),
     (!modeOk 0x0501 s, no St.modeForbids),
     (!codecResumeOk p || (match j with | some j => !resumeFits p j | none => false) ||
        !segIn di p.inAddr p.inLen.toNat s || !segIn do_ p.outAddr p.outLen.toNat s, no St.badParam),
     (j.isNone || !segLive di p.inAddr s || !segLive do_ p.outAddr s, no St.badHandle)]

/-- The effect of CODEC_RESUME: new segments join the job, which waits for an engine again. -/
def runCodecResume (h : Hdr) (p : CodecResumeP) (s : State) : State :=
  match jobBy s p.job.toNat with
  | none => s
  | some j =>
    let gi := if p.inLen = 0 then [] else [segOf (inDev p.flags) p.inAddr p.inLen.toNat s]
    let go := if p.outLen = 0 then [] else [segOf (outDev p.flags) p.outAddr p.outLen.toNat s]
    let s := (gi ++ go).foldl (fun s g => holdSeg j.idx g s) s
    let s := onJob j.idx (fun j => { j with
      h := h, opcode := 0x0502, running := true, code := 0, waitSince := s.time.ref, starved := false,
      more := j.more && !p.flags.toNat.testBit 0, ins := j.ins ++ gi, inTotal := j.inTotal + p.inLen.toNat,
      out := go.headD j.out, outUsed := if go = [] then j.outUsed else 0,
      outTotal := if go = [] then j.outTotal else j.outDone + p.outLen.toNat }) s
    accepted h 0x0502 0 s

/-- CODEC_RESUME as a row. -/
def rowCodecResume (h : Hdr) (p : CodecResumeP) : Row :=
  { i := .codecResume h p, h := h, opc := 0x0502, plens := [5],
    host := (!inDev p.flags && p.inLen != 0) || (!outDev p.flags && p.outLen != 0),
    chk := chkCodecResume p, run := runCodecResume h p }

/-- CODEC_RESUME (R93). -/
def execCodecResume (h : Hdr) (p : CodecResumeP) (s : State) : Host.Outcome State Fault Refusal :=
  ok (command (rowCodecResume h p) s)

/-! ## CODEC_ABORT (R95) -/

/-- The effect of CODEC_ABORT: a running job stops with code 0x83, the slot is freed, the reply holds the boundary. -/
def runCodecAbort (h : Hdr) (p : CodecAbortP) (s : State) : State :=
  match jobBy s p.job.toNat with
  | none => s
  | some j =>
    let s := if j.running then jobStops j.idx St.partly 0x83 j.block s else s
    finish h 0x0503 (okay j.inDone j.outDone) (freeJob j.idx s)

/-- CODEC_ABORT as a row. -/
def rowCodecAbort (h : Hdr) (p : CodecAbortP) : Row :=
  { i := .codecAbort h p, h := h, opc := 0x0503, plens := [1],
    chk := fun s => firstOf
      [(!modeOk 0x0503 s, no St.modeForbids), (p.rsv != 0, no St.badParam), ((jobBy s p.job.toNat).isNone, no St.badHandle)],
    run := runCodecAbort h p }

/-- CODEC_ABORT (R95). -/
def execCodecAbort (h : Hdr) (p : CodecAbortP) (s : State) : Host.Outcome State Fault Refusal :=
  ok (command (rowCodecAbort h p) s)

/-! ## Engines -/

/-- Cirrus works: the main domain runs, memory is up, no recovery of it is in progress. -/
def cirrusUp (s : State) : Bool :=
  mainOn s && s.dmc.state == 3 &&
  !s.evt.recs.any (fun r => r.running && (r.domain == 1 || r.level == 2 || r.level == 3))

/-- An engine takes a piece of work. -/
def assign (e : Nat) (w : EngWork) (s : State) : State :=
  let s := onCdc (fun c => { c with eng := c.eng.set e (some w) }) s
  match w with
  | .tile i _ => onSess i (fun x => { x with decode := x.decode.map (fun c => { c with tiles := c.tiles.drop 1 }) }) s
  | .job j => onJob j (fun j => { j with starved := false }) s

/-- CIRRUS_BLOCK_START (R83): an idle engine in service is assigned the next block. -/
def execCirrusBlockStart (engine : Fin 16) (s : State) : Host.Outcome State Fault Refusal :=
  let e := engine.val
  ok (if !cirrusUp s || s.cdc.off.contains e || s.cdc.eng.getD e none != none ||
      s.bst.jobs.any (fun t => t.id == 2 && t.inst == e) then s
    else match nextWork s with
      | some w => assign e w s
      | none => s)

/-- A tile record that fails is written EMPTY, with event 0x6B (R69); a block that fails raises event 0x63 first (R79). -/
def tileFails (i : Nat) (c : Decode) (t : TileRec) (code : Option Nat) (s : State) : State :=
  let s := match code with | some k => dataError k s | none => s
  let s := setOcc c.mpi t.plane t.tile false (raise 0x6B [(1, t.plane), (2, t.tile)] s)
  onStat i (fun x => { x with tileErr := x.tileErr + 1 }) s

/-- An engine finishes a tile record of a session's frame (R51, R57). -/
def tileDone (e i : Nat) (t : TileRec) (s : State) : State :=
  let s := onCdc (fun c => { c with eng := c.eng.set e none }) s
  match sessOf i s, s.pnl.desc with
  | some x, some d => (match x.decode with
    | some c =>
      let rec_ := (streamRead x t.off t.len s).getD []
      (match decodeRecord rec_ with
       | .error k => tileFails i c t (some k) (countBytes t.len 0 s)
       | .ok bs =>
         let s := countBytes t.len bs.length s
         if bs.length = d.tileBytes t.tile then putTile d c.mpi t.plane t.tile bs s else tileFails i c t none s)
    | none => s)
  | _, _ => s

/-- Input of a job read from host memory while it works on a block. -/
def readsOf : List CSeg → Nat → Nat → List (Nat × Nat)
  | [], _, _ => []
  | g :: gs, skip, n =>
    let k := min n (g.len - skip)
    let l := readsOf gs (skip - g.len) (n - k)
    if g.dev.isNone && k != 0 then (g.addr + skip, k) :: l else l

/-- The most input bytes a job reads for its block. -/
def blockInput (j : CodecJob) : Nat :=
  min (inLeft j) (if j.decomp then 65536 + 24 else j.blockSize - j.inp.length)

/-- An engine works on its job's block, to its end or until it stops. -/
def jobDone (i : Nat) (host : List Byte) (s : State) : State :=
  match jobOf i s with
  | none => s
  | some j =>
    let s := (readsOf j.ins j.inUsed (blockInput j)).foldl (fun s e => emit (.hostRead e.1 e.2) s) s
    if j.decomp then decompressStep j host s else compressStep j host s

/-- CIRRUS_BLOCK_DONE (R73, R87): an engine finishes its block or stops; `host` are the bytes read from host memory. -/
def execCirrusBlockDone (engine : Fin 16) (host : List Byte) (s : State) : Host.Outcome State Fault Refusal :=
  let e := engine.val
  ok (if !cirrusUp s then s
    else match s.cdc.eng.getD e none with
      | some (.tile i t) => tileDone e i t s
      | some (.job i) => jobDone i host s
      | none => s)

/-! ## Waiting and stopped jobs -/

/-- CDC_HOST_STARVED (R84): a job has waited 100 ms for an engine; event 0x64 once until it is assigned one. -/
def execCdcHostStarved (slot : Fin 16) (s : State) : Host.Outcome State Fault Refusal :=
  ok (match (waitingJobs s).find? (fun j => j.idx == slot.val) with
    | some j =>
      if j.starved then s
      else raise 0x64 [] (onJob j.idx (fun j => { j with starved := true }) (advanceRef (j.waitSince + 100000000) s))
    | none => s)

/-- CDC_SUSPEND_LIMIT_EXPIRY (R96): a job has been stopped longer than CDC_SUSPEND_LIMIT and is lost. -/
def execCdcSuspendLimitExpiry (slot : Fin 16) (s : State) : Host.Outcome State Fault Refusal :=
  ok (match jobOf slot.val s with
    | some j =>
      if j.running then s
      else jobLost j.idx (advanceRef (j.stoppedAt + pv s 0x0901 * nsPerSec + 1) s)
    | none => s)

/-- CDC_ENGINE_FAULT (R97, R98): an engine fails its checks; Cirrus is recovered at L1, an engine failing again is left out. -/
def execCdcEngineFault (engine : Fin 16) (s : State) : Host.Outcome State Fault Refusal :=
  ok (engineFault engine.val s)

end Sys2Proof.Machine
end

