-- ==== Sys2Proof/Machine/Halo.lean ====
section
/-! DEFINITION. Halo (chapter 17): calibration runs, automatic calibrations, completions, and the calibration image. -/

namespace Sys2Proof.Machine

/-! ## Trims and history -/

/-- The trim record of 128 bytes with every item at its centre (R478): VALID 0 and no values. -/
def trimBlank : List Byte := zeroBytes 128

/-- The trim record in force. -/
def trimOf (s : State) : List Byte := if s.cal.trim.isEmpty then trimBlank else s.cal.trim

/-- A signed 16-bit field of the trim record, 0 while its VALID bit is clear (R478). -/
def trimField (s : State) (validBit o : Nat) : Int :=
  if (field (trimOf s) 0 2).testBit validBit then signed 16 (field (trimOf s) o 2) else 0

/-- Launch skew of lane `l` of a half, 16 taps while its VALID bit is clear (R478). -/
def trimSkew (s : State) (b : Bool) (l : Nat) : Nat :=
  if (field (trimOf s) 0 2).testBit (b2n b) then field (trimOf s) (16 + 30 * b2n b + l) 1 else 16

/-- Replaces `n` bytes at offset `o`. -/
def patch (bs : List Byte) (o : Nat) (d : List Byte) : List Byte := bs.take o ++ d ++ bs.drop (o + d.length)

/-- A signed 16-bit value as bytes. -/
def s16 (i : Int) : List Byte := leBytes 2 (unsigned 16 i)

/-- The history key of an item at a point (R478): the point for item 1, key 1 for items 2 to 4. -/
def histKey (item point : Nat) : Nat := if item = 1 then point else 1

/-- The entry of an item or PC within its history record (R478). -/
def histIdx (item pc : Nat) : Nat := if item = 1 then pc else item - 2

/-- Count and completion second of the last calibration of an item at a point and PC (R478). -/
def histGet (s : State) (item point pc : Nat) : Nat × Nat :=
  match nvGet s 0 0x07 (histKey item point) with
  | some bs => (field bs (10 * histIdx item pc) 4, field bs (10 * histIdx item pc + 4) 6)
  | none => (0, 0)

/-- Counts a completed calibration with its time (R478, R480). -/
def histAdd (item point pc : Nat) (s : State) : State :=
  let bs := (nvGet s 0 0x07 (histKey item point)).getD (zeroBytes (if item = 1 then 640 else 30))
  let n := (histGet s item point pc).1
  nvOwn 0 0x07 (histKey item point)
    (patch bs (10 * histIdx item pc) (leBytes 4 (n + 1) ++ leBytes 6 (merNs s / nsPerSec))) s

/-! ## Starting calibrations -/

/-- The point a run of item 1 works at. -/
def calPoint (p : Nat) (s : State) : Nat := if p = 0 then s.dmc.point else p

/-- A calibration of an item starts: for item 1 a sweep of the PC, for item 2 a training of both halves. -/
def startCal (item pc : Nat) (s : State) : State :=
  let s := { s with cal := { s.cal with jobs := s.cal.jobs ++ [⟨item, (if item = 1 then s.dmc.point else 0), pc, s.time.ref⟩] } }
  if item = 1 then
    (if sweeping s pc then s else { s with dmc := { s.dmc with sweeps := s.dmc.sweeps ++ [⟨pc, false, 0⟩] } })
  else if item = 2 ∧ pc = 0 then retrainDark s
  else s

/-- An in-service test of the item's resource runs (R479). -/
def testHolds (item pc : Nat) (s : State) : Bool :=
  s.bst.jobs.any (fun j => (item == 1 && j.id == 1 && j.inst == pc) || (item == 3 && j.id == 5))

/-- The calibrations of the first item still to do in a run start when none of the run is under way: one item at a time, and
none while an in-service test of its resource runs (R479). -/
def nextCal (s : State) : State :=
  match s.cal.run with
  | none => s
  | some r => if !s.cal.jobs.isEmpty then s
    else match r.left with
    | [] => s
    | (item, _) :: _ => (r.left.filter (fun e => e.1 == item && !testHolds item e.2 s)).foldl (fun s e => startCal item e.2 s) s

/-- The PCs a PC_MASK selects: 0 selects every PC not fenced (R482). -/
def calPcs (m : Nat) (s : State) : List Nat :=
  (List.range 64).filter (fun n => if m = 0 then !isFenced s n else m.testBit n)

/-- The items and PCs a CAL_RUN is to complete (R482). -/
def calWork (item mask : Nat) (s : State) : List (Nat × Nat) :=
  let one := (calPcs mask s).map (fun n => (1, n))
  if item = 1 then one
  else if item = 0xFF then
    (if s.dmc.state = 3 then one else []) ++ (if s.mode.mode = .dawn then [(2, 0), (2, 1)] else []) ++ [(3, 0)] ++
      (if layerPowered s then [] else [(4, 0)])
  else if item = 2 then [(2, 0), (2, 1)] else [(item, 0)]

/-- A run has something left to do and none of it under way. -/
def runWaits (s : State) : Bool :=
  s.cal.jobs.isEmpty && (match s.cal.run with | some r => !r.left.isEmpty | none => false)

/-- What a CAL_RUN is to do: one that asks the same as an abandoned one repeats only what is missing (R482). -/
def calTodo (p : CalRunP) (s : State) : List (Nat × Nat) :=
  let all := calWork p.item.toNat p.mask.toNat s
  let miss := match s.cal.partly with
    | some r => if r.asked = p ∧ r.point = calPoint p.point.toNat s then all.filter (fun e => r.left.contains e) else []
    | none => []
  if miss.isEmpty then all else miss

/-- The checks of CAL_RUN (R482). -/
def chkCalRun (p : CalRunP) (s : State) : Option Verdict :=
  let item := p.item.toNat
  let pt := p.point.toNat
  let mask := p.mask.toNat
  firstOf
    [(!modeOk 0x0901 s, no St.modeForbids),
     (!(1 ≤ item && item ≤ 4 || item == 0xFF) || p.rsv != 0 ||
        !(pt == 0 || item == 1 && points.contains pt) || (item != 1 && mask != 0) ||
        (List.range 64).any (fun n => mask.testBit n && isFenced s n), no St.badParam),
     ((item == 1 && pt != 0 && pt != s.dmc.point && s.mode.mode != .dawn) || (item == 2 && s.mode.mode != .dawn) ||
        (item == 4 && layerPowered s), no St.modeForbids),
     (item == 1 && s.dmc.state != 3 && s.dmc.state != 4, no St.notPresent),
     (s.cal.run.isSome, no St.busy)]

/-- CAL_RUN as a row. -/
def rowCalRun (h : Hdr) (p : CalRunP) : Row :=
  { i := .calRun h p, h := h, opc := 0x0901, plens := [2], chk := chkCalRun p,
    run := fun s =>
      let pt := calPoint p.point.toNat s
      let s := accepted h 0x0901 0 s
      let s := if p.item = 1 && s.dmc.point != pt then changePoint pt s else s
      nextCal { s with cal := { s.cal with run := some ⟨h, p, pt, calTodo p s, 0, none, 0⟩ } } }

/-- CAL_RUN (R482). -/
def execCalRun (h : Hdr) (p : CalRunP) (s : State) : Host.Outcome State Fault Refusal := ok (command (rowCalRun h p) s)

/-- The stack temperature of a PC, 0.1 °C. -/
def stackTemp (s : State) (pc : Nat) : Int := if pc < 32 then s.thm.hbm0 else s.thm.hbm1

/-- An automatic calibration is due (R479): the Meridian second from which it is, or none when it is not governed or its
condition cannot hold. -/
def calDue (item pc : Nat) (s : State) : Option Nat :=
  let last := (histGet s item s.dmc.point pc).2
  if item = 1 then
    if (pv s 0x1200).testBit 0 && s.dmc.state == 3 && !isFenced s pc then
      (if last = 0 ∨ (pv s 0x1202 : Int) ≤ (stackTemp s pc - s.cal.sweepTemp.getD pc 0).natAbs then some 0
       else some (last + pv s 0x1201))
    else none
  else if item = 3 then
    (if (pv s 0x1200).testBit 1 then (match s.cal.lastAdc with
      | none => some 0
      | some t => some (merNs s / nsPerSec + ceilDiv (t + pv s 0x1203 * nsPerSec - s.time.ref) nsPerSec)) else none)
  else if item = 4 then
    (match crowbarSince s with
     | none => none
     | some t => if (pv s 0x1200).testBit 2 && t + 5000000 ≤ s.time.ref then
         (match s.cal.lastDac with
          | none => some 0
          | some u => if u + 600 * nsPerSec ≤ s.time.ref then some 0 else none) else none)
  else none

/-- CAL_AUTO_TRIGGER (R479): an automatic calibration falls due and starts, unless another item is being calibrated or an
in-service test of its resource runs; a run that waits goes first. -/
def execCalAutoTrigger (item : Byte) (pc : Fin 64) (s : State) : Host.Outcome State Fault Refusal :=
  let n := if item = 1 then pc.val else 0
  ok (if runWaits s then nextCal s else match calDue item.toNat n s with
    | none => s
    | some t =>
      if s.cal.jobs.any (fun j => j.item != item.toNat || j.pc == n) || testHolds item.toNat n s then s
      else startCal item.toNat n (advanceMer (t * nsPerSec) s))

/-! ## Completions -/

/-- A trim clamped to its range, with event 0xF4 naming the item and the field or lane (R480). -/
def clampTrim (item fieldNo : Nat) (lo hi v : Int) (s : State) : State × Int :=
  (raiseIf (decide (v < lo) || decide (hi < v)) 0xF4 [(1, item), (1, fieldNo)] s, clampInt lo hi v)

/-- Clamps a list of skews (R480). -/
def clampSkews (base : Nat) : List Int → Nat → State → State × List Nat
  | [], _, s => (s, [])
  | v :: vs, i, s =>
    let (s, w) := clampTrim 2 (base + i) 0 31 v s
    let (s, ws) := clampSkews base vs (i + 1) s
    (s, w.toNat :: ws)

/-- The trim record takes new values and is stored by the module of its own accord (R478). -/
def putTrim (t : List Byte) (s : State) : State := nvOwn 0 0x06 0 t { s with cal := { s.cal with trim := t } }

/-- The VALID bits with some set. -/
def withValid (t : List Byte) (m : Nat) : List Byte := patch t 0 (leBytes 2 (field t 0 2 ||| m))

/-- A finished calibration leaves the run and its job (R482). -/
def calFinished (item pc : Nat) (margin : Option Nat) (bad : Bool) (s : State) : State :=
  let f := fun (r : CalRun) =>
    if r.left.contains (item, pc) then
      { r with left := r.left.erase (item, pc), done := r.done + 1, bad := r.bad + b2n bad,
               narrow := (match margin with | none => r.narrow | some m => some (min m (r.narrow.getD m))) }
    else r
  nextCal { s with cal := { s.cal with
    jobs := s.cal.jobs.filter (fun j => !(j.item == item && j.pc == pc)), run := s.cal.run.map f,
    staleSaid := s.cal.staleSaid.filter (· != item) } }

/-- A sweep of a PC at the point in force ends with the ranges measured (R352, R480): a retraining stores the setting with
event 0x45, a calibration stores it with event 0xF0; a failed one leaves the setting and marks the PC degraded, event
0x46. -/
def sweepEnd (w : DmcSweep) (m : DmcMeas) (s : State) : State :=
  let pt := s.dmc.point
  let good := sweepGood s m
  let s := { s with
    dmc := { s.dmc with sweeps := s.dmc.sweeps.filter (fun x => x.pc != w.pc) }
    cal := { s.cal with sweepTemp := s.cal.sweepTemp.set w.pc (stackTemp s w.pc) } }
  let s := if good then storeFound pt w.pc (putDly pt w.pc (centred (dlyOf s pt w.pc) m) s)
    else
      let s := raise 0x46 [] (putDly pt w.pc { dlyOf s pt w.pc with degraded := true } s)
      storeRec pt w.pc { storedDly s pt w.pc with degraded := true } s
  if w.retrain then raiseIf good 0x45 [(1, sweepNarrow m)] s
  else
    let s := histAdd 1 pt w.pc s
    let s := raiseIf good 0xF0 [(1, 1), (1, pt), (1, w.pc), (2, sweepNarrow m)] s
    calFinished 1 w.pc (some (if good then sweepNarrow m else 0)) (!good) s

/-- A calibration of item 3 is under way or this completion belongs to a training (item 2). -/
def calRunning (item pc : Nat) (s : State) : Bool := s.cal.jobs.any (fun j => j.item == item && j.pc == pc)

/-- CAL_DONE (R480): a calibration of item 2, 3 or 4, or a sweep made on a whole idle PC, completes with what it measured. -/
def execCalDone (pc : Fin 64) (m : CalMeas) (s : State) : Host.Outcome State Fault Refusal :=
  ok (match m with
    | .hbm w => (match s.dmc.sweeps.find? (fun x => x.pc == pc.val) with
      | some x => if s.mode.mode = .dawn then sweepEnd x w s else s
      | none => s)
    | .skew b taps =>
      if !calRunning 2 (b2n b) s ∨ taps.length ≠ 30 then s
      else
        let (s, ws) := clampSkews (30 * b2n b) taps 0 s
        let t := patch (withValid (trimOf s) (2 ^ b2n b)) (16 + 30 * b2n b) (ws.map (BitVec.ofNat 8))
        let s := histAdd 2 0 0 (putTrim t s)
        calFinished 2 (b2n b) none false (raise 0xF0 [(1, 2), (2, ws.headD 0)] s)
    | .adc off gain =>
      if !calRunning 3 0 s then s
      else
        let (s, o) := clampTrim 3 0 (-64) 63 off s
        let (s, g) := clampTrim 3 1 (-1311) 1311 gain s
        let s := histAdd 3 0 0 (putTrim (patch (withValid (trimOf s) 4) 2 (s16 o ++ s16 g)) s)
        calFinished 3 0 none false (raise 0xF0 [(1, 3), (2, unsigned 16 o)]
          { s with cal := { s.cal with lastAdc := some s.time.ref } })
    | .dac offC offS gain sense =>
      if !calRunning 4 0 s then s
      else
        let (s, c) := clampTrim 4 0 (-32) 31 offC s
        let (s, d) := clampTrim 4 1 (-32) 31 offS s
        let (s, g) := clampTrim 4 2 (-1311) 1311 gain s
        let (s, i) := clampTrim 4 3 (-128) 127 sense s
        let s := histAdd 4 0 0 (putTrim (patch (withValid (trimOf s) 24) 6 (s16 c ++ s16 d ++ s16 g ++ s16 i)) s)
        calFinished 4 0 none false (raise 0xF0 [(1, 4), (2, unsigned 16 c)]
          { s with cal := { s.cal with lastDac := some s.time.ref } }))

/-- CAL_RUN_DONE (R482): nothing of the run is left; the completion is written, and in Dawn memory returns to 1.6 Gbit/s, after
an abandoned run too. -/
def execCalRunDone (s : State) : Host.Outcome State Fault Refusal :=
  ok (match s.cal.run with
    | none => if s.mode.mode = .dawn ∧ s.dmc.point ≠ 16 ∧ s.cal.partly.isSome then changePoint 16 s else s
    | some r => if !r.left.isEmpty then s
      else
        let s := if s.mode.mode = .dawn ∧ s.dmc.point ≠ 16 then changePoint 16 s else s
        endCalRun (if r.bad = 0 then St.ok else St.degraded) 0 s)

/-- CAL_STALE (R480): a trim has gone CAL_STALE hours without recalibration; said once. -/
def execCalStale (item : Byte) (s : State) : Host.Outcome State Fault Refusal :=
  let it := item.toNat
  ok (if it < 2 ∨ 4 < it ∨ s.cal.staleSaid.contains it ∨ !mainOn s then s
    else
      let last := (histGet s it 0 0).2
      if last = 0 then s
      else
        let s := advanceMer ((last + pv s 0x1204 * 3600) * nsPerSec) s
        raise 0xF1 [] { s with cal := { s.cal with staleSaid := it :: s.cal.staleSaid } })

/-- CAL_STATUS as a row (R483). -/
def rowCalStatus (h : Hdr) (p : CalStatusP) : Row :=
  let it := p.item.toNat
  let pc := p.pc.toNat
  { i := .calStatus h p, h := h, opc := 0x0904, plens := [1],
    chk := fun _ => firstOf
      [(it < 1 || 4 < it || p.rsv != 0 || !(p.point == 0 || it == 1 && points.contains p.point.toNat) ||
          (if it = 1 then 63 < pc else pc != 0), no St.badParam)],
    run := fun s =>
      let pt := if it = 1 then (if p.point ≠ 0 then p.point.toNat else if s.dmc.point = 0 then 16 else s.dmc.point) else 0
      let (n, t) := histGet s it pt pc
      let v := if it = 1 then (dlyOf s pt pc).margin
        else if it = 2 then trimSkew s false 0
        else if it = 3 then unsigned 16 (trimField s 2 2) else unsigned 16 (trimField s 3 6)
      let flags := b2n (n == 0) + 2 * b2n (s.cal.staleSaid.contains it) +
        4 * b2n (s.cal.jobs.any (fun j => j.item == it && (it != 1 || j.pc == pc))) +
        8 * b2n (it == 1 && (dlyOf s pt pc).degraded) + 16 * b2n (it == 1 && isFenced s pc)
      finish h 0x0904 (okay n (t % 2 ^ 32) (v + flags * 2 ^ 16)) s }

/-- CAL_STATUS (R483). -/
def execCalStatus (h : Hdr) (p : CalStatusP) (s : State) : Host.Outcome State Fault Refusal := ok (command (rowCalStatus h p) s)

/-! ## The calibration image -/

/-- The stored trim record. -/
def storedTrim (s : State) : List Byte := (nvGet s 0 0x06 0).getD trimBlank

/-- A section of the image (R484). -/
def calSection (type key : Nat) (body : List Byte) : List Byte :=
  leBytes 1 type ++ leBytes 1 key ++ zeroBytes 2 ++ leBytes 4 body.length ++ body

/-- The image of R485, with all five sections. -/
def calImage (s : State) : List Byte :=
  let body := (points.flatMap (fun p => calSection 1 p (dlySetBytes (storedSet s p)))) ++ calSection 2 0 (storedTrim s)
  [0x48, 0x4C, 0x43, 0x49, 1, 5, 0, 0] ++ leBytes 4 (16 + body.length) ++ leBytes 4 (crc32c body) ++ body

/-- CAL_EXPORT as a row (R485, R366). -/
def rowCalExport (h : Hdr) (p : CalExportP) : Row :=
  let dev := p.flags.toNat.testBit 0
  { i := .calExport h p, h := h, opc := 0x0902, plens := [2], host := !dev && p.dest != 0,
    chk := fun s =>
      let b := bufOf s (segHandle p.dest)
      firstOf
      [(p.room.toNat < 4280, ⟨St.noSpace, 4280, 0, 0⟩), (p.flags.toNat > 1 || p.rsv != 0, no St.badParam),
       (starlightBuf dev s, no St.modeForbids), (dev && b.isNone, no St.badHandle),
       (dev && (match b with | some b => !segFits b (segOff p.dest) 4280 | none => false), no St.badParam)],
    run := fun s =>
      let d := calImage s
      let s := if dev then (match bufOf s (segHandle p.dest) with
          | some b => devWrite (bufAddr b + segOff p.dest) d s
          | none => s)
        else emit (.hostWrite p.dest.toNat d) s
      finish h 0x0902 (okay d.length) s }

/-- CAL_EXPORT (R485). -/
def execCalExport (h : Hdr) (p : CalExportP) (s : State) : Host.Outcome State Fault Refusal := ok (command (rowCalExport h p) s)

/-- A section found in an image: type, key, and the offset of its body. -/
structure CalSec where
  type : Nat
  key : Nat
  at_ : Nat
deriving DecidableEq, Repr

/-- Reads up to `n` sections from offset `o`: the sections, or the offset of the first wrong one (code 0x04). -/
def calSections (d : List Byte) : Nat → Nat → List CalSec → List CalSec × Option Nat
  | 0, o, acc => (acc, if o = d.length then none else some o)
  | n + 1, o, acc =>
    let ty := field d o 1
    let key := field d (o + 1) 1
    let len := field d (o + 4) 4
    if d.length < o + 8 ∨ !((ty == 1 && points.contains key && len == 1024) || (ty == 2 && key == 0 && len == 128)) ∨
        d.length < o + 8 + len ∨ acc.any (fun x => x.type == ty && x.key == key) then (acc, some o)
    else calSections d n (o + 8 + len) (acc ++ [⟨ty, key, o + 8⟩])

/-- The first field out of range in a delay record, by offset within it (code 0x05). -/
def dlyBad (r : List Byte) : Option Nat :=
  (List.range 16).find? (fun i =>
    let v := field r i 1
    if i < 11 then 63 < v else if i = 11 then 7 < v else if i = 12 then 64 < v
    else if i = 13 then 7 < v || (!(field r 11 1).testBit 2 && v != 0) else v != 0)

/-- The first field out of range in a trim record, by offset (code 0x05). -/
def trimBad (t : List Byte) : Option Nat :=
  let s := fun (o : Nat) => signed 16 (field t o 2)
  let out := fun (o : Nat) (lo hi : Int) => decide (s o < lo) || decide (hi < s o)
  if 31 < field t 0 2 then some 0
  else if out 2 (-64) 63 then some 2 else if out 4 (-1311) 1311 then some 4 else if out 6 (-32) 31 then some 6
  else if out 8 (-32) 31 then some 8 else if out 10 (-1311) 1311 then some 10 else if out 12 (-128) 127 then some 12
  else if field t 14 2 ≠ 0 then some 14
  else match (List.range 60).find? (fun i => 31 < field t (16 + i) 1) with
    | some i => some (16 + i)
    | none => ((List.range 52).find? (fun i => field t (76 + i) 1 != 0)).map (· + 76)

/-- The first offending field of a section, by offset in the image. -/
def secBad (d : List Byte) (x : CalSec) : Option Nat :=
  if field d (x.at_ - 6) 2 ≠ 0 then some (x.at_ - 6)
  else if x.type = 2 then (trimBad (bytesAt d x.at_ 128)).map (· + x.at_)
  else (List.range 64).findSome? (fun i => (dlyBad (bytesAt d (x.at_ + 16 * i) 16)).map (· + x.at_ + 16 * i))

/-- The fence fields of a PC in an image's delay set. -/
def secFence (d : List Byte) (x : CalSec) (pc : Nat) : Bool × Nat :=
  ((field d (x.at_ + 16 * pc + 11) 1).testBit 2, field d (x.at_ + 16 * pc + 13) 1)

/-- The offset of the first fence error (code 0x06): the sets compared are those of the image and, for a point it leaves out,
the stored ones. -/
def fenceBad (s : State) (d : List Byte) (xs : List CalSec) : Option Nat :=
  let of := fun (p pc : Nat) => match xs.find? (fun x => x.type == 1 && x.key == p) with
    | some x => secFence d x pc
    | none => ((storedDly s p pc).fenced, (storedDly s p pc).order)
  let sets := xs.filter (fun x => x.type == 1)
  let pcBad := fun (x : CalSec) (pc : Nat) =>
    ((secFence d x pc).1 && !fenceDecided s pc) || points.any (fun p => of p pc != secFence d x pc)
  match sets with
  | [] => none
  | x :: _ =>
    match sets.findSome? (fun y => ((List.range 64).find? (fun pc => pcBad y pc)).map (fun pc => y.at_ + 16 * pc + 11)) with
    | some o => some o
    | none =>
      let orders := ((List.range 64).filter (fun pc => (secFence d x pc).1)).map (fun pc => (secFence d x pc).2)
      if 8 < orders.length ∨ !((List.range orders.length).all (fun k => orders.contains k)) then some (x.at_ + 11) else none

/-- The checks of the image (R486): code and offset of the first failure, or its sections. -/
def calParse (s : State) (d : List Byte) (len : Nat) : List CalSec × Option (Nat × Nat) :=
  if field d 8 4 ≠ len ∨ d.length ≠ len then ([], some (1, 8))
  else if d.take 4 ≠ [0x48, 0x4C, 0x43, 0x49] then ([], some (2, 0))
  else if field d 4 1 ≠ 1 then ([], some (2, 4))
  else if field d 12 4 ≠ crc32c (d.drop 16) then ([], some (3, 12))
  else
    let n := field d 5 1
    match calSections d (min n 5) 16 [] with
    | (_, some o) => ([], some (4, o))
    | (xs, none) =>
      if n = 0 ∨ 5 < n then ([], some (4, 5))
      else if field d 6 2 ≠ 0 then ([], some (5, 6))
      else match xs.findSome? (secBad d) with
        | some o => ([], some (5, o))
        | none => match fenceBad s d xs with
          | some o => ([], some (6, o))
          | none => (xs, none)

/-- The image bytes a CAL_IMPORT names. -/
def calImportBytes (p : CalImportP) (s : State) : List Byte :=
  match bufOf s p.handle.toNat with
  | some b => memGetAll s.mem (bufAddr b + p.offset.toNat) p.len.toNat
  | none => []

/-- The checks of CAL_IMPORT (R486). -/
def chkCalImport (h : Hdr) (p : CalImportP) (s : State) : Option Verdict :=
  let b := bufOf s p.handle.toNat
  let bad : Option (Nat × Nat) :=
    if p.len.toNat < 152 || 4280 < p.len.toNat || (match b with | some b => !segFits b p.offset.toNat p.len.toNat | none => false)
    then some (1, 8)
    else (calParse s (calImportBytes p s) p.len.toNat).2
  firstOf
    [(!modeOk 0x0903 s, no St.modeForbids), (p.flags.toNat > 1 || p.rsv != 0 || p.offset.toNat % 8 != 0, no St.badParam),
     (b.isNone, no St.badHandle), (bad.isSome, ⟨St.badParam, (bad.getD (0, 0)).1, (bad.getD (0, 0)).2, 0⟩),
     (nvLocked s (masterOf h.src) 0 1, no St.deniedLocked)]

/-- The sections of an image are written, every one or none (R486). -/
def calStore (h : Hdr) (p : CalImportP) (s : State) : State :=
  let d := calImportBytes p s
  let xs := (calParse s d p.len.toNat).1
  if freeSlots s 0 < xs.length then finish h 0x0903 (no St.noSpace) (raise 0xE2 [] s)
  else
    let s := xs.foldl (fun s x =>
      if x.type = 1 then nvOwn 0 0x02 x.key (bytesAt d x.at_ 1024) s else nvOwn 0 0x06 0 (bytesAt d x.at_ 128) s) s
    finish h 0x0903 (okay) (raise 0xF3 [] s)

/-- CAL_IMPORT as a row. -/
def rowCalImport (h : Hdr) (p : CalImportP) : Row :=
  { i := .calImport h p, h := h, opc := 0x0903, plens := [2], chk := chkCalImport h p,
    run := fun s => if p.flags.toNat.testBit 0 then finish h 0x0903 (okay) s else calStore h p s }

/-- CAL_IMPORT (R486). -/
def execCalImport (h : Hdr) (p : CalImportP) (s : State) : Host.Outcome State Fault Refusal := ok (command (rowCalImport h p) s)

end Sys2Proof.Machine
end

