-- ==== Sys2Proof/Machine/ThermalOps.lean ====
section
/-! DEFINITION. Dewpoint: samples (R305 to R309), conditions (R312), their acts (R313 to R318), warm-up (R311), and the loss
of the main domain's power (R302, R318). -/

namespace Sys2Proof.Machine

/-! ## Loss of power (R302, R318) -/

/-- Every device buffer ends without a record: generations advance, units go to FREE or stay withdrawn (log entry 34). -/
def loseBuffers (s : State) : State :=
  s.buf.bufs.foldl (fun s b => dropBuf b (bufCol b) (if b.live then nextGen 0x01 b.idx s else s)) s

/-- The main domain loses power (R302): the layer is crowbarred, everything the main domain held ends without a reply, the
module is in Dormant, and `src` is logged; in Dormant too, for a loss of VMAIN. -/
def powerLoss (src : Nat) (s : State) : State :=
  if s.mode.mode = .dormant then
    (if src = 0x06 ∧ s.hwd.quiesce.isNone ∧ !s.hwd.detached then
      raise src [] (onMode (fun m => { m with ledgerRebuilt := true }) s) else s)
  else
    let m0 := s.mode.mode
    let s := recordTime (stdCrowbarNow s)
    let s := endFieldOpen (emptyPools (loseBuffers (hostDown s)))
    let s := { s with
      time := { s.time with alarms := s.time.alarms ++ s.time.timers.filter (fun (t : Timer) => t.wake) }
      sec := { s.sec with abortedPend := s.sec.abortedPend || s.sec.update.isSome, update := none }
      nv := { s.nv with unlocks := [] }
      evt := { s.evt with recs := [] } }
    let s := mainReset true (dmcReset 0 (forgetCommands s))
    let s := { s with cmd := { s.cmd with waits := [], sbReady := [] } }
    let s := onMode (fun m => { m with mode := .dormant, rate := 0, lastCause := 9, ledgerRebuilt := true }) s
    raise 0x01 [(1, modeNum m0), (1, 0), (8, noFrame), (1, 9)] (raise src [] s)

/-- A thermal shutdown (R318): as the loss of VMAIN, with event 0x17; wakes are ignored for 60 s. -/
def thermalShutdown (s : State) : State :=
  onMode (fun m => { m with shutUntil := some (s.time.ref + 60 * nsPerSec) }) (powerLoss 0x17 s)

/-! ## Conditions (R312) -/

/-- A condition after a reading `v` with its set level; the clear level lies 3.0 °C below. -/
def Cond.next (c : Cond) (v level : Int) : Cond :=
  let q := if c.on then decide (v < level - 30) else decide (level ≤ v)
  if !q then { c with count := 0 }
  else if c.count + 1 < 3 then { c with count := c.count + 1 }
  else ⟨!c.on, 0⟩

/-- A reading is the first to qualify for a change of a condition. -/
def Cond.first (c d : Cond) : Bool := c.count == 0 && d.count == 1

/-- The seven conditions. -/
def condsOf (t : ThmSt) : List Cond := [t.warn, t.dieReq, t.hbmReq0, t.hbmReq1, t.dieCrit, t.hbmCrit0, t.hbmCrit1]

/-- The conditions after the readings now held. -/
def nextConds (die : Int) (t : ThmSt) : ThmSt :=
  { t with
    warn := t.warn.next die t.limDieWarn, dieReq := t.dieReq.next die t.limDieReq, dieCrit := t.dieCrit.next die t.limDieCrit,
    hbmReq0 := t.hbmReq0.next t.hbm0 t.limHbmReq, hbmReq1 := t.hbmReq1.next t.hbm1 t.limHbmReq,
    hbmCrit0 := t.hbmCrit0.next t.hbm0 t.limHbmCrit, hbmCrit1 := t.hbmCrit1.next t.hbm1 t.limHbmCrit }

/-! ## Die sensors (R306) -/

/-- Sorts integers. -/
def sortInts : List Int → List Int
  | [] => []
  | x :: r => let l := sortInts r; l.takeWhile (fun y => y < x) ++ x :: l.dropWhile (fun y => y < x)

/-- The median of the sensors in service; of an even number, the mean of the two middle ones rounded down (log entry 31). -/
def medianOf (l : List Int) : Int :=
  let a := sortInts l
  let n := a.length
  floorDiv (a.getD ((n - 1) / 2) 0 + a.getD (n / 2) 0) 2

/-- Sensors in service. -/
def sensorsOk (s : State) : Nat := (s.thm.ok.filter (fun b => b)).length

/-- One sensor is judged against the median: out of service on the third deviation in a row, with event 0x18. -/
def judgeSensor (med : Int) (i : Nat) (s : State) : State :=
  if !(s.thm.ok.getD i false) then s
  else
    let v := s.thm.die.getD i 0
    let n := if 150 < v - med ∨ 150 < med - v then s.thm.dev.getD i 0 + 1 else 0
    let s := onThm (fun t => { t with dev := t.dev.set i n, ok := if 3 ≤ n then t.ok.set i false else t.ok }) s
    if 3 ≤ n then raise 0x18 [(1, i)] s else s

/-- Every sensor is judged; with fewer than 12 left, the die throttle request stands. -/
def judgeSensors (s : State) : State :=
  let med := medianOf (((s.thm.die.zip s.thm.ok).filter (·.2)).map (·.1))
  let s := (List.range 24).foldl (fun s i => judgeSensor med i s) s
  onThm (fun t => { t with sensorsLow := t.sensorsLow || sensorsOk s < 12 }) s

/-! ## Requests (R314, R315) -/

/-- Event 0x12 with the sensor code, the reading and the enforcement time; a grace starts when none runs. -/
def throttleEvent (code : Nat) (v : Int) (s : State) : State :=
  let s := if s.thm.grace.isSome then s else onThm (fun t => { t with grace := some (merNs s + graceNs s) }) s
  raise 0x12 ([(1, code), (2, unsigned 16 v)] ++ mtItems (s.thm.grace.getD 0)) s

/-- What a sample does with the conditions that changed from `a` to the ones in force (R313 to R317). -/
def condActs (a : ThmSt) (was : Bool) (s : State) : State :=
  let t := s.thm
  let s := raiseIf (!a.warn.on && t.warn.on) 0x10 [] s
  let s := raiseIf (a.warn.on && !t.warn.on) 0x11 [] s
  let s := if !(a.dieReq.on || a.sensorsLow) && (t.dieReq.on || t.sensorsLow) then throttleEvent 0 (dieTemp s) s else s
  let s := if !a.hbmReq0.on && t.hbmReq0.on then throttleEvent 1 t.hbm0 s else s
  let s := if !a.hbmReq1.on && t.hbmReq1.on then throttleEvent 2 t.hbm1 s else s
  let s := if was && !throttled s then throttleCleared s else s
  let crit := fun (x : ThmSt) => [x.dieCrit.on, x.hbmCrit0.on, x.hbmCrit1.on]
  let s := if ((crit a).zip (crit t)).any (fun e => !e.1 && e.2) then
      decideRecov 0x31 4 (some 0x15) (payload []) 0 .thermal none false s
    else s
  raiseIf ((crit a).any (fun b => b) && !criticalNow s) 0x16 [] s

/-- The warm-up sees a sample (R311): it ends on the third in a row with both stacks at or above 0.0 °C, and device memory is
released. -/
def warmSample (s : State) : State :=
  if s.thm.warmup.isNone then s
  else if s.thm.hbm0 < 0 ∨ s.thm.hbm1 < 0 then onThm (fun t => { t with warmCount := 0 }) s
  else if s.thm.warmCount + 1 < 3 then onThm (fun t => { t with warmCount := t.warmCount + 1 }) s
  else dmcRelease (raise 0x1B [(1, 0)] (onThm (fun t => { t with warmup := none, warmCount := 0, warmLoad := false }) s))

/-! ## Samples (R305 to R309) -/

/-- Confirmation samples follow a first qualifying sample (R308). -/
def confirmAfter (a : ThmSt) (s : State) : State :=
  if pv s 0x0205 = 1 ∨ !((condsOf a).zip (condsOf s.thm)).any (fun e => e.1.first e.2) then s
  else onThm (fun t => { t with confirm := t.confirm ++ [s.time.ref + 1000000, s.time.ref + 2000000] }) s

/-! ## Hot stacks (R340) -/

/-- A stack after a sample `v` of its sensor: hot on one sample at or above 80.0 °C, no longer hot on the third in a row below
77.0 °C; `n` counts those. -/
def hotNext (hot : Bool) (n : Nat) (v : Int) : Bool × Nat :=
  if 800 ≤ v then (true, 0)
  else if hot && decide (v < 770) then (if n + 1 < 3 then (true, n + 1) else (false, 0))
  else (hot, 0)

/-- Both stacks after a sample; each change raises event 0x4A with the stack (R340). -/
def hotSample (s : State) : State :=
  let d := s.dmc
  let a := hotNext d.hot0 d.cool0 s.thm.hbm0
  let b := hotNext d.hot1 d.cool1 s.thm.hbm1
  let s := { s with dmc := { s.dmc with hot0 := a.1, cool0 := a.2, hot1 := b.1, cool1 := b.2 } }
  raiseIf (d.hot1 != b.1) 0x4A [(1, 1)] (raiseIf (d.hot0 != a.1) 0x4A [(1, 0)] s)

/-- A sample is taken (R305): readings, sensors, conditions and what they bring. -/
def takeSample (r : ThmRead) (s : State) : State :=
  if !mainOn s then s
  else
    let s := { s with pwr := { s.pwr with eLast := s.pwr.e } }
    let s := onThm (fun t => { t with
      die := (List.range 24).map (fun i => r.die.getD i 0), hbm0 := r.hbm0.getD t.limHbmCrit, hbm1 := r.hbm1.getD t.limHbmCrit,
      hor := r.hor, lastSample := some s.time.ref, samples := t.samples + 1 }) s
    let a := s.thm
    let was := throttled s
    let s := judgeSensors s
    if 1250 ≤ dieTemp s ∨ 1050 ≤ s.thm.hbm0 ∨ 1050 ≤ s.thm.hbm1 then thermalShutdown s
    else
      let s := onThm (nextConds (dieTemp s)) s
      confirmAfter a (condActs a was (warmSample (hotSample s)))

/-- A demand for a sample (R307): served with the last one when that is less than 1 ms old. -/
def demandSample (r : ThmRead) (s : State) : State :=
  match s.thm.lastSample with
  | some t => if s.time.ref < t + 1000000 then s else takeSample r s
  | none => takeSample r s

/-- A reading lies within 5.0 °C of a set or clear level (R309). -/
def nearLevel (s : State) : Bool :=
  let near := fun (v l : Int) => (decide (l - 50 ≤ v) && decide (v ≤ l + 50)) || (decide (l - 80 ≤ v) && decide (v ≤ l + 20))
  let t := s.thm
  [t.limDieWarn, t.limDieReq, t.limDieCrit].any (near (dieTemp s)) ||
  [t.limHbmReq, t.limHbmCrit].any (fun l => near t.hbm0 l || near t.hbm1 l)

/-- Reference ns at which the next sample of the module's own falls due (R307, R309). -/
def sampleDue (s : State) : Nat :=
  let last := s.thm.lastSample.getD 0
  if pv s 0x0205 = 1 then last + (if nearLevel s then 10000000 else 100000000)
  else if s.pwr.eLast + pv s 0x0206 * 10000 ≤ s.pwr.e then s.time.ref
  else last + pv s 0x0207 * 1000000

/-- The stacks are read and the warm-up checked on an entry to Dawn or Recovery at start-up (R299, R311). -/
def startSample (r : ThmRead) (s : State) : State :=
  let s := takeSample r s
  if mainOn s then checkWarm s else s

end Sys2Proof.Machine
end

