-- ==== Sys2Proof/Machine/ModeRows.lean ====
section
/-! DEFINITION. MODE_SET, MODE_GET and TIMING_SET, and the boundary of a change (R194, R195, R197, R290 to R296). -/

namespace Sys2Proof.Machine

/-! ## Settings -/

/-- The default rate of a mode (R292). -/
def defaultRate (m : Mode) (s : State) : Nat :=
  match m with
  | .starlight | .flat | .standard | .deep | .skylight => 60
  | .swift | .cloudburst => 120
  | .stillAir => stillRate s.mode.mode s.mode.rate
  | _ => 0

/-- A trained camera's payload exceeds its gear at a rate of Skylight (R141, R162). -/
def cameraTooSlow (m : Mode) (rate : Nat) (s : State) : Bool :=
  m == .skylight && camPorts.any (fun c => match (portOf c s).cfg, (portOf c s).gear with
    | some g, some t => !gearFits g rate t
    | _, _ => false)

/-- The budgets of a setting: R114 with its word 0 (R115), R158, R185, R206 with its word 1, R358, and, for a change of timing,
a camera's payload; log entry 37. -/
def budgetCheck (m : Mode) (rate : Nat) (timing : Bool) (s : State) : Option Verdict :=
  match s.pnl.desc with
  | none => none
  | some d =>
    if !isLit m then none
    else
      let pmax := pv s 0x0A03
      let syn := synBudget m rate pmax d s
      let nc := (sweepPorts s).length
      let link := linkOk m rate s
      let sweep := m != .skylight || sweepBudget s.cam.sweepCfg.planes nc rate s
      let host := hostFits (layersToCome s) m rate (pv s 0x0D23) s
      let dmc := dmcFits s m rate d.w d.h (nqOf m s) (planesFor m pmax d) nc
      if syn.isNone && link && sweep && host && dmc && !(timing && cameraTooSlow m rate s) then none
      else some ⟨St.budgetExceeded, syn.getD 0, if link then 0 else linkBest m s, 0⟩

/-- The target instant of a change: the target MTIME, or the completion time; none when it has passed (R292). -/
def changeTarget (h : Hdr) (s : State) : Option Nat :=
  if !scheduled h then some (merNs s)
  else if merNs s ≤ mtOf h.target then some (mtOf h.target)
  else if asapIfLate h then some (merNs s)
  else none

/-- A change is accepted (R194, R294): a pending TIMING_SET gives way (R199), ACCEPTED with the frame index at c, and the frame
in synthesis is looked at again (R104). -/
def placeChange (h : Hdr) (opc : Nat) (m : Mode) (rate : Nat) (s : State) : State :=
  match changeTarget h s with
  | none => finish h opc (no St.timePassed) s
  | some t =>
    let s := endChangeCmd (no St.modeForbids) s
    let b := changeBoundary m rate t s
    let s := onMode (fun x => { x with
      change := some ⟨m, rate, b.1, b.2, 0, m == x.mode, some (h, opc)⟩ }) s
    let s := if m = .stillAir ∧ s.mode.mode = .stillAir then onScn (fun c => { c with stillSince := none }) s else s
    synRecheck (accepted h opc (match b.2 with | some k => k % 2 ^ 32 | none => 0xFFFFFFFF) s)

/-! ## MODE_SET -/

/-- A transition a MODE_SET may ask for (R290). -/
def transitionOk (a b : Mode) : Bool :=
  match a with
  | .dormant => false
  | .overcast => b == .dawn || b == .dormant
  | .recovery => b == .dormant
  | _ => true

/-- Every recorded cause of the safe hold lets a MODE_SET leave it (R432). -/
def mayLeaveHold (s : State) : Bool :=
  s.mode.causes.all (fun c => c == .thermal || c == .request) && !criticalNow s

/-- A throttle lets a MODE_SET into a mode pass (R316). -/
def throttleAllows (m : Mode) (s : State) : Bool :=
  !throttled s || [Mode.dawn, .dormant, .overcast, .recovery].contains m ||
  (chain s.mode.mode s.mode.rate).any (fun e => e.1 == m)

/-- Another MODE_SET or a THROTTLE_ACK target is pending, or a dark interval of a change runs (R293); a change of the module's
own counts too (log entry 36). -/
def modeBusy (s : State) : Bool :=
  (match s.mode.change with
   | some x => (match x.cmd with | some (_, opc) => opc != 0x0404 | none => true)
   | none => false) ||
  s.thm.ack.isSome || changeDark s || s.mode.completing.isSome || s.mode.heldSet.any (·.judged)

/-- The mode and rate a MODE_SET names. -/
def modeAsked (p : ModeSetP) (s : State) : Mode × Nat :=
  let m := (modeOf p.mode.toNat).getD .dormant
  (m, if p.rate == 0 then defaultRate m s else p.rate.toNat)

/-- The checks of R293, in order. -/
def chkModeSet (p : ModeSetP) (s : State) : Option Verdict :=
  let (m, rate) := modeAsked p s
  let limited := (settleLimit m rate).isSome
  let needsCam := m == .skylight && !skylightCams s
  firstOf
    [((modeOf p.mode.toNat).isNone || p.rsv != 0 || p.rsv2 != 0 || !rateOk m rate, no St.badParam),
     (m != s.mode.mode && !transitionOk s.mode.mode m, no St.modeForbids),
     (s.mode.safeHold && !mayLeaveHold s, ⟨St.modeForbids, 4, 0, 0⟩),
     (!throttleAllows m s, ⟨St.modeForbids, 3, 0, 0⟩),
     (limited && (!s.std.charged || !settleOk m rate s), no St.modeForbids),
     (isLit m && s.plk.mismatch, no St.modeForbids),
     (m == .swift && (match s.pnl.desc with | some d => d.p != 4 | none => false), ⟨St.modeForbids, 6, 0, 0⟩),
     (!panelServes m s || needsCam, no St.notPresent),
     ((budgetCheck m rate false s).isSome, (budgetCheck m rate false s).getD (okay)),
     (modeBusy s, no St.busy)]

/-- MODE_SETs held for device memory end with a verdict (R293). -/
def endHeld (v : Verdict) (s : State) : State :=
  let due := s.mode.heldSet.filter (·.judged)
  due.foldl (fun s e => finish e.h 0x0003 v s) (onMode (fun m => { m with heldSet := m.heldSet.filter (fun e => !e.judged) }) s)

/-- The effect of a MODE_SET that passes its checks (R293, R294). Out of Dawn into a lit mode it waits for device memory; after a
warm-up that failed it ends as those held at the limit. -/
def runModeSet (h : Hdr) (p : ModeSetP) (s : State) : State :=
  let (m, rate) := modeAsked p s
  if m = s.mode.mode ∧ rate = s.mode.rate then
    finish h 0x0003 (changeWords 0x0003 0xFFFFFFFF 0 s) (onMode (fun x => { x with safeHold := false, causes := [] }) s)
  else if s.mode.mode = .dawn ∧ isLit m ∧ (s.thm.warmup.isSome ∨ s.dmc.state = 1 ∨ s.dmc.state = 2) then
    let s := accepted h 0x0003 0xFFFFFFFF (onMode (fun x => { x with heldSet := x.heldSet ++ [⟨h, p, true⟩] }) s)
    if s.thm.warmup.isNone && s.thm.warmFailed then endHeld ⟨St.fault, 2, 0, 0⟩ s else s
  else placeChange h 0x0003 m rate s

/-- A MODE_SET is judged: its checks, then its effect. -/
def judgeModeSet (h : Hdr) (p : ModeSetP) (s : State) : State :=
  match chkModeSet p s with
  | some v => finish h 0x0003 v s
  | none => runModeSet h p s

/-- The samples a transition demands: thermal, and the panel thermistor (R246, R290). -/
def decisionSamples (p : ModeSetP) (s : State) : State := thermSample p.therm (demandSample p.thm s)

/-- MODE_SET as a row: while a PANEL_LOAD is being checked it is held (R36). -/
def rowModeSet (h : Hdr) (p : ModeSetP) : Row :=
  { i := .modeSet h p, h := h, opc := 0x0003, plens := [1], chk := fun _ => none,
    run := fun s =>
      if s.pnl.load.isSome then onMode (fun x => { x with heldSet := x.heldSet ++ [⟨h, p, false⟩] }) s
      else judgeModeSet h p (decisionSamples p s) }

/-- MODE_SET (R292 to R294). -/
def execModeSet (h : Hdr) (p : ModeSetP) (s : State) : Host.Outcome State Fault Refusal := ok (command (rowModeSet h p) s)

/-- MODE_SETs held for a PANEL_LOAD are judged once it has completed (R36). -/
def judgeHeld (s : State) : State :=
  let due := s.mode.heldSet.filter (fun e => !e.judged)
  due.foldl (fun s e => judgeModeSet e.h e.p (decisionSamples e.p s))
    (onMode (fun m => { m with heldSet := m.heldSet.filter (·.judged) }) s)

/-- Device memory is released: MODE_SETs held for it take their course from now (R290, R293). -/
def placeHeld (s : State) : State :=
  let due := s.mode.heldSet.filter (·.judged)
  due.foldl (fun s e => let (m, rate) := modeAsked e.p s; placeChange e.h 0x0003 m rate s)
    (onMode (fun m => { m with heldSet := m.heldSet.filter (fun e => !e.judged) }) s)

/-! ## MODE_GET -/

/-- The reply of MODE_GET (R295). -/
def modeWords (s : State) : Verdict :=
  let tgt := match s.mode.change, s.mode.heldSet.find? (·.judged) with
    | some x, _ => modeNum x.target
    | none, some e => modeNum (modeAsked e.p s).1
    | none, none => 0xFF
  let k := match s.mode.change.bind (·.k) with | some k => k % 2 ^ 32 | none => 0xFFFFFFFF
  okay (modeNum s.mode.mode + s.mode.rate * 2 ^ 8 + tgt * 2 ^ 16 + b2n s.mode.safeHold * 2 ^ 24 + b2n (throttled s) * 2 ^ 25 +
      b2n (criticalNow s) * 2 ^ 26 + b2n s.thm.warmup.isSome * 2 ^ 27) k (s.mode.lastCause + graceLeft s % 2 ^ 24 * 2 ^ 8)

/-- MODE_GET as a row. -/
def rowModeGet (h : Hdr) : Row :=
  { i := .modeGet h, h := h, opc := 0x0004, plens := [0], chk := fun _ => none,
    run := fun s => finish h 0x0004 (modeWords s) s }

/-- MODE_GET (R295). -/
def execModeGet (h : Hdr) (s : State) : Host.Outcome State Fault Refusal := ok (command (rowModeGet h) s)

/-! ## TIMING_SET -/

/-- The checks of TIMING_SET (R195, R206, R316, R358). -/
def chkTimingSet (p : TimingSetP) (s : State) : Option Verdict :=
  let m := s.mode.mode
  let r := p.rate.toNat
  let b := if r = s.mode.rate then none else budgetCheck m r true s
  firstOf
    [(!isLit m, no St.modeForbids),
     (rateOk m r && !settleOk m r s, no St.modeForbids),
     (!rateOk m r || p.rsv != 0, no St.badParam),
     (throttled s && s.mode.rate < r, ⟨St.modeForbids, 3, 0, 0⟩),
     (changeBusy s, no St.busy),
     (b.isSome, b.getD (okay))]

/-- TIMING_SET as a row. -/
def rowTimingSet (h : Hdr) (p : TimingSetP) : Row :=
  { i := .timingSet h p, h := h, opc := 0x0404, plens := [1], chk := chkTimingSet p,
    run := fun s =>
      if p.rate.toNat = s.mode.rate then
        finish h 0x0404 (okay (((frameAt (merNs s) s).getD 0xFFFFFFFF) % 2 ^ 32) 0 (emitWindow s)) s
      else placeChange h 0x0404 s.mode.mode p.rate.toNat s }

/-- TIMING_SET (R194, R195). -/
def execTimingSet (h : Hdr) (p : TimingSetP) (s : State) : Host.Outcome State Fault Refusal := ok (command (rowTimingSet h p) s)

/-! ## The boundary of a change -/

/-- MODE_CHANGE_BOUNDARY (R197): the boundary c of a pending change is reached and the change takes effect. -/
def execModeChangeBoundary (s : State) : Host.Outcome State Fault Refusal :=
  ok (match s.mode.change with
    | none => s
    | some x => applyChange x (advanceMer x.c s))

end Sys2Proof.Machine
end

