-- ==== Sys2Proof/Machine/DmcRows.lean ====
section
/-! DEFINITION. The memory controller's own happenings (R339 to R356, R359) and the host's accesses through BAR2 (R357, R365). -/

namespace Sys2Proof.Machine

/-- Updates the memory controller. -/
def onDmc (f : DmcSt → DmcSt) (s : State) : State := { s with dmc := f s.dmc }

/-- A change of point ends: event 0x41 with the old and new points (R342). -/
def execDmcRateChangeDone (s : State) : Host.Outcome State Fault Refusal :=
  ok (match s.dmc.change with
    | some (a, b) => raise 0x41 [(1, a), (1, b)] (onDmc (fun d => { d with change := none }) s)
    | none => s)

/-! ## Release (R346, R347) -/

/-- The fences recorded in the delay sets in force, in fence order (R346 step 2). -/
def recordedFences (s : State) : List Nat :=
  sortBy (fun pc => (dlyOf s 16 pc).order) ((List.range 64).filter (fun pc => (dlyOf s 16 pc).fenced))

/-- The recorded fence mapping is applied: WITHDRAWN holds the units of these fences and of no other (R346, R384, R487). -/
def applyFences (s : State) : State :=
  let l := recordedFences s
  let was := col s 0x01 11
  let is_ := l.length * 8192
  let s := onDmc (fun d => { d with fenced := l, fences := [] }) s
  checkLow (if was ≤ is_ then move 0x01 0 11 (is_ - was) s else move 0x01 11 0 (was - is_) s)

/-- A PC is fenced while memory is empty: it needs no migration (R347). -/
def fenceEmpty (pc : Nat) (s : State) : State :=
  let s := decideFence pc s
  let s := onDmc (fun d => { d with fenced := d.fenced ++ [pc], fences := d.fences.filter (fun f => f.pc != pc) }) s
  raise 0x48 [(1, pc), (8, dmcCapacity s), (4, s.dmc.fenced.length)] s

/-- The training of a PC at a point during release, with the ranges it found (R347, R356). -/
def releaseTrain (pt pc : Nat) (m : DmcMeas) (s : State) : State :=
  let r := dlyOf s pt pc
  if sweepGood s m then storeFound pt pc (putDly pt pc (centred r m) s)
  else if r.valid then
    let s := raise 0x46 [] (putDly pt pc { r with degraded := true } s)
    storeRec pt pc { storedDly s pt pc with degraded := true } s
  else if 8 ≤ fenceCount s then fencePc pc (putDly pt pc { r with degraded := true } s)
  else fenceEmpty pc s

/-- The start-up check of one PC at one point: a PC whose record is not VALID, or that fails, is trained. -/
def releaseCheck (checks : List DmcCheck) (other : DmcMeas) (pt : Nat) (s : State) (pc : Nat) : State :=
  let c := checks.find? (fun x => x.point == pt && x.pc == pc)
  let fails := match c with | some x => x.fails | none => false
  let found := match c with | some x => x.found | none => other
  if isFenced s pc then s
  else if !(dlyOf s pt pc).valid || fails then releaseTrain pt pc found s
  else s

/-- DMC_READY (R346, R347, R487): the release ends. The stored sets and the fence mapping are in force, every PC has been checked at
each point, memory stands at 1.6 Gbit/s, event 0x40 with the masks; MODE_SETs held for memory go on. -/
def execDmcReady (checks : List DmcCheck) (other : DmcMeas) (s : State) : Host.Outcome State Fault Refusal :=
  ok (if s.dmc.state ≠ 2 then s
    else
      let s := applyFences (points.foldl (fun s p => loadDly p s) s)
      let s := { s with cal := { s.cal with trim := storedTrim s } }
      let s := points.foldl (fun s p => (List.range 64).foldl (releaseCheck checks other p) s) s
      let s := onDmc (fun d => { d with state := 3, point := 16 }) s
      let s := raise 0x40 [(8, pcMask (isDegraded s)), (8, pcMask (isFenced s))] s
      let s := if s.mode.mode = Mode.starlight then enterSelfRefresh s
        else match pointOf s.mode.mode s.mode.rate with
          | some p => changePoint p s
          | none => s
      placeHeld s)

/-! ## Windows (R348, R349) -/

/-- A test segment waits on a PC (R488). -/
def segmentWaits (s : State) (pc : Nat) : Bool := s.bst.jobs.any (fun j => j.id == 1 && j.inst == pc)

/-- CAL_WINDOW_OPEN (R348): a window opens on a PC that has work, closing its rows (R339). -/
def execCalWindowOpen (pc : Fin 64) (s : State) : Host.Outcome State Fault Refusal :=
  let n := pc.val
  let p := pcOf s n
  let openNow := (s.dmc.pcs.filter (·.winOpen)).length
  ok (if s.dmc.state ≠ 3 ∨ s.dmc.change.isSome ∨ p.winOpen ∨ p.winSince ∨ pv s 0x0704 ≤ openNow ∨
        !(sweeping s n || segmentWaits s n) then s
    else onDmc (fun d => { d with rows := d.rows.filter (fun r => r.pc != n) })
      (onPc n (fun p => { p with winOpen := true, winSince := true, refDone := false }) s))

/-- CAL_WINDOW_CLOSE (R349, R352): a window closes after one step of a sweep or one segment of a test, which alternate when both wait,
the sweep first. The last step of a sweep decides its outcome. -/
def execCalWindowClose (pc : Fin 64) (work : WinWork) (s : State) : Host.Outcome State Fault Refusal :=
  let n := pc.val
  let p := pcOf s n
  ok (if !p.winOpen then s
    else
      let s := onPc n (fun p => { p with winOpen := false }) s
      let test := segmentWaits s n
      match work, s.dmc.sweeps.find? (fun w => w.pc == n) with
      | .segment, w => if test && !(w.isSome && !p.lastWasSweep) then onPc n (fun p => { p with lastWasSweep := false }) s else s
      | _, none => s
      | .step, some w =>
        if test && p.lastWasSweep then s
        else onPc n (fun p => { p with lastWasSweep := true }) (onDmc (fun d => { d with
          sweeps := d.sweeps.map (fun x => if x.pc = w.pc then { x with windows := x.windows + 1 } else x) }) s)
      | .sweepEnd m, some w =>
        if test && p.lastWasSweep then s else sweepEnd w m (onPc n (fun p => { p with lastWasSweep := true }) s))

/-! ## Refresh and pages (R339, R340) -/

/-- DMC_REFRESH (R340): the next bank of a PC is refreshed and precharged; a calibration window may open after it. -/
def execDmcRefresh (pc : Fin 64) (s : State) : Host.Outcome State Fault Refusal :=
  let n := pc.val
  let p := pcOf s n
  ok (if s.dmc.state ≠ 3 ∨ p.winOpen then s
    else onDmc (fun d => { d with rows := d.rows.filter (fun r => !(r.pc == n && r.bank == p.refBank)) })
      (onPc n (fun p => { p with refBank := (p.refBank + 1) % 32, refDone := true, winSince := false }) s))

/-- DMC_PAGE_IDLE_EXPIRY (R339): DMC_PAGE_IDLE passes with no access to a bank, and its row is precharged. -/
def execDmcPageIdleExpiry (pc : Fin 64) (bank : Fin 32) (s : State) : Host.Outcome State Fault Refusal :=
  let here := fun (r : OpenRow) => r.pc == pc.val && r.bank == bank.val
  ok (match s.dmc.rows.find? here with
    | none => s
    | some r => onDmc (fun d => { d with rows := d.rows.filter (fun x => !here x) }) (advanceRef (r.last + pv s 0x0702) s))

/-! ## Fences (R355) -/

/-- FENCE_MIGRATION_START (R355 step 3): no allocated buffer lies in the range of the fence decided first, and the copy begins. -/
def execFenceMigrationStart (s : State) : Host.Outcome State Fault Refusal :=
  let b := heapUnits - s.dmc.fenced.length * 8192
  ok (match s.dmc.fences with
    | [] => s
    | f :: rest =>
      if f.copying ∨ s.dmc.state ≠ 3 ∨ freeUnitsIn s (b - 8192) b ≠ 8192 then s
      else onDmc (fun d => { d with fences := { f with copying := true } :: rest }) s)

/-- The mode in force no longer fits the memory budget (R358). -/
def dmcShort (s : State) : Bool :=
  match s.pnl.desc with
  | some d => isLit s.mode.mode &&
      !dmcFits s s.mode.mode s.mode.rate d.w d.h (nqOf s.mode.mode s) (planeLimit s) (sweepPorts s).length
  | none => false

/-- DMC_FENCED (R355 step 4): the copy ends and the PC carries no traffic: event 0x48, and a step-down with cause 10 when the mode in
force no longer fits (R358). -/
def execDmcFenced (s : State) : Host.Outcome State Fault Refusal :=
  ok (match s.dmc.fences with
    | [] => s
    | f :: rest =>
      if !f.copying ∨ s.dmc.state ≠ 3 then s
      else
        let s := onDmc (fun d => { d with fenced := d.fenced ++ [f.pc], fences := rest }) s
        let s := { s with mem := memErase s.mem (withdrawnBase s.dmc.fenced.length) 0x20000000 }
        let s := raise 0x48 [(1, f.pc), (8, dmcCapacity s), (4, s.dmc.fenced.length)] s
        if dmcShort s then stepDown 10 none (merNs s) s else s)

/-- DMC_FAULT (R359): the controller fails its internal checks and is recovered at L2. -/
def execDmcFault (s : State) : Host.Outcome State Fault Refusal :=
  ok (if !mainOn s ∨ s.dmc.state < 2 then s else faultOf 0x30 0x4D [] s)

/-! ## BAR2 (R357, R365) -/

/-- Device memory answers BAR2: released, and neither in Starlight nor in Dormant. -/
def bar2Live (s : State) : Bool := mainOn s && s.mode.mode != .starlight && 3 ≤ s.dmc.state

/-- An offset is withdrawn or unpopulated (R357). -/
def bar2Hole (s : State) (o : Nat) : Bool := withdrawnBase s.dmc.fenced.length ≤ o

/-- A heap offset lies in a unit of a live buffer. -/
def bar2Owned (s : State) (o : Nat) : Bool :=
  heapBase ≤ o && s.buf.bufs.any (fun b => b.live && bufAddr b ≤ o && o < bufAddr b + b.units * unitBytes)

/-- The byte a BAR2 read finds at an offset. -/
def bar2Byte (s : State) (o : Nat) : Byte :=
  if !bar2Live s || bar2Hole s o then 0xFF
  else if o < heapBase || bar2Owned s o then memGet s.mem o
  else 0xFF

/-- A row is opened by an access, or closed at once with DMC_PAGE_IDLE 0; another row of its bank is precharged (R339). -/
def touchRow (o : Nat) (s : State) : State :=
  let p := placeOf s o
  let others := s.dmc.rows.filter (fun r => !(r.pc == p.pc && r.bank == p.upper))
  onDmc (fun d => { d with rows := if pv s 0x0702 = 0 then others else ⟨p.pc, p.upper, p.row, s.time.ref⟩ :: others }) s

/-- Rows touched by an access of `n` bytes. -/
def touchRows (o n : Nat) (s : State) : State :=
  (List.range ((o + n - 1) / 64 + 1 - o / 64)).foldl (fun s i => touchRow (64 * (o / 64 + i)) s) s

/-- BAR2_READ (R365): a host read of `len` bytes, with the errors it meets. -/
def execBar2Read (off : U64) (len : Byte) (errs : List MemErr) (s : State) : Host.Outcome State Fault Refusal :=
  let o := off.toNat
  let n := len.toNat
  ok (if !s.cmd.up then s
    else
      let idx := (List.range n).map (o + ·)
      let s := emit (.bar2Read o (idx.map (bar2Byte s))) s
      if !bar2Live s then s
      else
        let s := raiseIf (idx.any (bar2Hole s)) 0x4C [(8, o)] s
        let good := idx.filter (fun a => !bar2Hole s a && (a < heapBase || bar2Owned s a))
        match good with
        | [] => s
        | a :: _ => memErrors (errs.filter (fun e => good.contains e.addr)) (touchRows a good.length s))

/-- BAR2_WRITE (R365): a host write; what lies below the heap or in no live buffer is dropped with event 0x57, what is withdrawn or
unpopulated with event 0x4C. -/
def execBar2Write (off : U64) (data : List Byte) (s : State) : Host.Outcome State Fault Refusal :=
  let o := off.toNat
  ok (if !s.cmd.up || !bar2Live s then s
    else
      let at_ := data.zipIdx.map (fun e => (o + e.2, e.1))
      let s := raiseIf (at_.any (fun e => bar2Hole s e.1)) 0x4C [(8, o)] s
      let s := raiseIf (at_.any (fun e => !bar2Hole s e.1 && !bar2Owned s e.1)) 0x57 [(8, o)] s
      let good := at_.filter (fun e => !bar2Hole s e.1 && bar2Owned s e.1)
      match good with
      | [] => s
      | e :: _ => touchRows e.1 good.length { s with mem := good.foldl (fun m e => memPut m e.1 e.2) s.mem })

end Sys2Proof.Machine
end

