-- ==== Sys2Proof/Machine/Security.lean ====
section
/-! DEFINITION. Life-cycle states (R511 to R513), owner authentication (R514 to R517), keys (R518), attestation (R519) and
LIFE_GET (R525). -/

namespace Sys2Proof.Machine

/-! ## Keys and counts -/

/-- The owner debug key (X, Y), when installed (R505). -/
def ownerKey (s : State) : Option (Nat × Nat) := (nvGet s 3 0x03 0).map (fun b => (field b 0 48, field b 48 48))

/-- The fleet key: the scalar D and the KEY_ID, when installed (R505). -/
def fleetKey (s : State) : Option (Nat × Nat) := (nvGet s 3 0x04 0).map (fun b => (field b 0 48, field b 48 4))

/-- The debug password record: 16 salt bytes and 48 digest bytes (R505, R467). -/
def debugPass (s : State) : Option (List Byte) := nvGet s 4 0x11 0

/-- The digest of the debug password: partition code 4 and access kind 2 stand in front of the salt (DESIGN CHOICE, log entry
53). -/
def debugDigest (salt pw : List Byte) : List Byte := passDigest 4 2 salt pw

/-- Failures of RESPONSE_PUT and PASSWORD_PUT in a row: counter 0x0004 (R517). -/
def authFails (s : State) : Nat := counterGet s 4

/-- The challenge held for a master. -/
def challengeOf (m : Master) (s : State) : Option Challenge :=
  match m with
  | .host => s.sec.chalHost
  | .sideBand => s.sec.chalSide

/-- The challenge of a master while it has not expired (R514). -/
def liveChallenge (m : Master) (s : State) : Option Challenge :=
  (challengeOf m s).bind (fun c => if merNs s < c.until_ then some c else none)

/-- Sets the challenge of a master. -/
def setChallenge (m : Master) (c : Option Challenge) (s : State) : State :=
  onSec (fun x => match m with | .host => { x with chalHost := c } | .sideBand => { x with chalSide := c }) s

/-- The instant until which a master holds owner authentication (R517). -/
def authUntil (m : Master) (s : State) : Nat :=
  match m with
  | .host => s.sec.authHost
  | .sideBand => s.sec.authSide

/-- A master holds owner authentication. -/
def authHeld (m : Master) (s : State) : Bool := merNs s < authUntil m s

/-- A master gains owner authentication for 60 s (R517). -/
def giveAuth (m : Master) (s : State) : State :=
  let t := merNs s + 60 * nsPerSec
  onSec (fun x => match m with | .host => { x with authHost := t } | .sideBand => { x with authSide := t }) s

/-! ## The test access port (R511) -/

/-- How far the test access port is open: 0 closed, 1 Nimbus debug only, 2 in full. -/
def tapAccess (s : State) : Nat :=
  match lifeState s with
  | 0 | 1 | 5 => 2
  | 4 => 1
  | _ => 0

/-! ## LIFE_GET and challenges -/

/-- The words of LIFE_GET (R525). -/
def lifeWords (m : Master) (s : State) : Verdict :=
  let keys := b2n (ownerKey s).isSome + 2 * b2n (fleetKey s).isSome + 4 * b2n (debugPass s).isSome + 8 * b2n (authHeld m s)
  let lock := ceilDiv (s.sec.lockUntil - s.time.ref) nsPerSec
  let left := match s.sec.open_ with | some o => ceilDiv (o.until_ - s.time.ref) nsPerSec | none => 0
  okay (lifeState s + fuseValue s.sec.lifeFuses * 256 + rollbackValue s * 2 ^ 16 + s.sec.revoke * 2 ^ 24)
    (keys + min 255 (authFails s) * 256 + min 65535 lock * 2 ^ 16) left

/-- LIFE_GET as a row. -/
def rowLifeGet (h : Hdr) : Row :=
  { i := .lifeGet h, h := h, opc := 0x0B01, plens := [0],
    chk := fun s => firstOf [(!modeOk 0x0B01 s, no St.modeForbids)],
    run := fun s => finish h 0x0B01 (lifeWords (masterOf h.src) s) s }

/-- LIFE_GET (R525). -/
def execLifeGet (h : Hdr) (s : State) : Host.Outcome State Fault Refusal := ok (command (rowLifeGet h) s)

/-- Twelve bytes as three words, the first byte lowest (R514). -/
def threeWords (b : List Byte) (o : Nat) : Verdict := okay (field b o 4) (field b (o + 4) 4) (field b (o + 8) 4)

/-- A new challenge (R514). -/
def newChallenge (s : State) : Challenge :=
  ⟨bytesAt (Config.trng s.free) 0 32 ++ mtBytes (merNs s) ++ leBytes 1 (lifeState s) ++ zeroBytes 5, merNs s + 300 * nsPerSec⟩

/-- CHALLENGE_GET with PART 0 as a row. -/
def rowChallengeGetNew (h : Hdr) (p : ChallengeGetP) : Row :=
  { i := .challengeGetNew h p, h := h, opc := 0x0B02, plens := [1],
    chk := fun s => firstOf [(!modeOk 0x0B02 s, no St.modeForbids), (p.part != 0 || p.rsv != 0, no St.badParam)],
    run := fun s =>
      let c := newChallenge s
      finish h 0x0B02 (threeWords c.data 0) (setChallenge (masterOf h.src) (some c) (drawn s)) }

/-- CHALLENGE_GET, PART 0: a new challenge (R514). -/
def execChallengeGetNew (h : Hdr) (p : ChallengeGetP) (s : State) : Host.Outcome State Fault Refusal :=
  ok (command (rowChallengeGetNew h p) s)

/-- CHALLENGE_GET with PART 1 to 3 as a row. -/
def rowChallengeGetPart (h : Hdr) (p : ChallengeGetP) : Row :=
  { i := .challengeGetPart h p, h := h, opc := 0x0B02, plens := [1],
    chk := fun s => firstOf
      [(!modeOk 0x0B02 s, no St.modeForbids),
       (p.part == 0 || 3 < p.part.toNat || p.rsv != 0, no St.badParam),
       ((liveChallenge (masterOf h.src) s).isNone, no St.notPresent)],
    run := fun s => match liveChallenge (masterOf h.src) s with
      | some c => finish h 0x0B02 (threeWords c.data (12 * p.part.toNat)) s
      | none => s }

/-- CHALLENGE_GET, PART 1 to 3: a part of the challenge held (R514). -/
def execChallengeGetPart (h : Hdr) (p : ChallengeGetP) (s : State) : Host.Outcome State Fault Refusal :=
  ok (command (rowChallengeGetPart h p) s)

/-! ## Authentication (R515 to R517) -/

/-- A lock-out stands (R517, R470). -/
def authLocked (s : State) : Bool := s.time.ref < s.sec.lockUntil

/-- Authentication succeeds: the count is cleared, the master holds it for 60 s; with PURPOSE 1 the state becomes FIELD_OPEN,
with event 0xED. -/
def authPass (h : Hdr) (opc purpose : Nat) (s : State) : State :=
  let s := if authFails s = 0 then s else counterSet 4 0 s
  let s := giveAuth (masterOf h.src) s
  let s := if purpose = 1 then
      raise 0xED [(1, 1)] (onSec (fun c => { c with
        open_ := some ⟨s.time.ref + pv s 0x1404 * 3600 * nsPerSec⟩ }) s)
    else s
  finish h opc (okay) s

/-- Authentication fails: event 0xEA, the count rises, and from the fifth failure on it locks out with event 0xEB. -/
def authFail (h : Hdr) (opc : Nat) (s : State) : State :=
  let n := authFails s + 1
  let s := raise 0xEA [] (counterSet 4 n s)
  let s := if n < 5 then s else raise 0xEB [] (onSec (fun c => { c with lockUntil := s.time.ref + lockPeriod n }) s)
  finish h opc (no St.authFail) s

/-- The refusals of R517 in its order. -/
def chkAuth (opc : Nat) (bad : Bool) (purpose : Nat) (absent : State → Bool) (s : State) : Option Verdict :=
  firstOf
    [(!modeOk opc s, no St.modeForbids), (bad, no St.badParam), (purpose == 1 && lifeState s != 3, no St.deniedLocked),
     (absent s, no St.notPresent), (authLocked s, no St.lockedOut)]

/-- The signature of a response over the challenge and the PURPOSE byte verifies (R515). -/
def responseGood (c : Challenge) (key : Nat × Nat) (p : ResponsePutP) : Bool :=
  ecVerify key.1 key.2 (digestNat (c.data ++ [p.purpose])) p.sigR.toNat p.sigS.toNat

/-- RESPONSE_PUT as a row: the challenge is used up, whatever comes of it. -/
def rowResponsePut (h : Hdr) (p : ResponsePutP) : Row :=
  let m := masterOf h.src
  { i := .responsePut h p, h := h, opc := 0x0B03, plens := [13],
    chk := chkAuth 0x0B03 (1 < p.purpose.toNat || p.rsv != 0) p.purpose.toNat
      (fun s => (ownerKey s).isNone || (liveChallenge m s).isNone),
    run := fun s => match ownerKey s, liveChallenge m s with
      | some k, some c =>
        let s := setChallenge m none s
        if responseGood c k p then authPass h 0x0B03 p.purpose.toNat s else authFail h 0x0B03 s
      | _, _ => s }

/-- RESPONSE_PUT (R515, R517). -/
def execResponsePut (h : Hdr) (p : ResponsePutP) (s : State) : Host.Outcome State Fault Refusal :=
  ok (command (rowResponsePut h p) s)

/-- The fields of PASSWORD_PUT (R516). -/
def passPutFields (p : PasswordPutP) : Bool :=
  p.purpose.toNat ≤ 1 && 8 ≤ p.pwLen.toNat && p.pwLen.toNat ≤ 32 && p.rsv == 0 &&
  ((leBytes 32 p.password.toNat).drop p.pwLen.toNat).all (· == 0)

/-- A debug password matches the record (R516). -/
def passwordGood (rec : List Byte) (pw : List Byte) : Bool := debugDigest (rec.take 16) pw == (rec.drop 16).take 48

/-- PASSWORD_PUT as a row. -/
def rowPasswordPut (h : Hdr) (p : PasswordPutP) : Row :=
  { i := .passwordPut h p, h := h, opc := 0x0B04, plens := [5],
    chk := chkAuth 0x0B04 (!passPutFields p) p.purpose.toNat (fun s => (debugPass s).isNone),
    run := fun s => match debugPass s with
      | some r =>
        if passwordGood r ((leBytes 32 p.password.toNat).take p.pwLen.toNat) then authPass h 0x0B04 p.purpose.toNat s
        else authFail h 0x0B04 s
      | none => s }

/-- PASSWORD_PUT (R516, R517). -/
def execPasswordPut (h : Hdr) (p : PasswordPutP) (s : State) : Host.Outcome State Fault Refusal :=
  ok (command (rowPasswordPut h p) s)

/-- FIELD_OPEN_EXPIRY (R513): SEC_OPEN_HOURS after it opened, FIELD_OPEN ends. -/
def execFieldOpenExpiry (s : State) : Host.Outcome State Fault Refusal :=
  ok (match s.sec.open_ with
    | none => s
    | some o => endFieldOpen (advanceRef o.until_ s))

/-! ## LIFE_ADVANCE (R512) -/

/-- A transition of R512: the fuse value it blows to, and whether its condition holds. -/
def lifeStep (target : Nat) (s : State) : Option (Nat × Bool) :=
  match lifeState s, target with
  | 0, 1 => some (1, true)
  | 1, 2 => some (2, s.sec.sensorTrim.all (· != 0))
  | 2, 3 => some (3, (ownerKey s).isSome && (fleetKey s).isSome)
  | 4, 3 => some (3, true)
  | 4, 5 => some (4, true)
  | n, 6 => if n = 3 ∨ n = 6 then none else some (5, true)
  | _, _ => none

/-- The checks of LIFE_ADVANCE (R512). -/
def chkLife (p : LifeAdvanceP) (s : State) : Option Verdict :=
  let t := p.target.toNat
  firstOf
    [(!modeOk 0x0B06 s, no St.modeForbids),
     (p.rsv != 0 || p.confirm.toNat != 0x4C410000 + t, no St.badParam),
     (lifeState s == 3 && (t == 3 || t == 5 || t == 6), no St.deniedLocked),
     ((lifeStep t s).isNone, no St.badParam),
     ((match lifeStep t s with | some (_, okay) => !okay | none => false), no St.notPresent)]

/-- Trims of the die sensors that firmware has blown in VENDOR_TEST (R503): fuses only ever gain bits. -/
def blowTrims (trims : List U16) (s : State) : State :=
  if lifeState s ≠ 1 then s
  else onSec (fun c => { c with sensorTrim := c.sensorTrim.zipIdx.map (fun e => e.1 ||| ((trims.getD e.2 0).toNat)) }) s

/-- A reset at L3 that is no fault, after a reply (R512, R523): its records are formed under source 0x00 (R431). -/
def plainReset (leave : Bool) (s : State) : State := decideRecov 0x31 3 (some 0x00) [] 0 .escalation none leave s

/-- The effect of LIFE_ADVANCE: fuses, event 0xEC with the old and new states, the erasure, the reply, and an L3. A blow cut
short leaves the top fuse unblown or marginal (R504); an erasure cut short is owed (R512). -/
def runLife (h : Hdr) (p : LifeAdvanceP) (cut : Option LifeCut) (s : State) : State :=
  let old := lifeState s
  match lifeStep p.target.toNat s with
  | none => s
  | some (v, _) =>
    if old = 4 ∧ p.target = 3 then
      finish h 0x0B06 (okay) (raise 0xEC [(1, 4), (1, 3)] (endFieldOpen s))
    else match cut with
      | some (.blow marginal) =>
        if marginal then onSec (fun c => { c with lifeFuses := c.lifeFuses.set (v - 1) .marginal, erasePend := 4 ≤ v }) s else s
      | some .erasing => onSec (fun c => { c with lifeFuses := blowTo v c.lifeFuses, erasePend := 4 ≤ v }) s
      | none =>
        let s := onSec (fun c => { c with lifeFuses := blowTo v c.lifeFuses }) s
        let s := if 4 ≤ v then lifeErase s else s
        plainReset false (finish h 0x0B06 (okay) (raise 0xEC [(1, old), (1, lifeState s)] s))

/-- LIFE_ADVANCE as a row. -/
def rowLifeAdvance (h : Hdr) (p : LifeAdvanceP) (trims : List U16) (cut : Option LifeCut) : Row :=
  { i := .lifeAdvance h p trims cut, h := h, opc := 0x0B06, plens := [1], pre := blowTrims trims,
    chk := chkLife p, run := runLife h p cut }

/-- LIFE_ADVANCE (R512). -/
def execLifeAdvance (h : Hdr) (p : LifeAdvanceP) (trims : List U16) (cut : Option LifeCut) (s : State) :
    Host.Outcome State Fault Refusal :=
  ok (command (rowLifeAdvance h p trims cut) s)

/-! ## KEY_INSTALL (R518) -/

/-- The fields every KIND shares: LEN, the reserved bytes, and KEY_ID for the fleet key only. -/
def keyFields (p : KeyInstallP) (len : Nat) (fleet : Bool) : Bool :=
  p.len.toNat == len && p.rsv == 0 && (if fleet then p.keyId != 0 else p.keyId == 0)

/-- The first four bytes of the SHA-384 of a public key X, Y (R518). -/
def keyTag (x y : Nat) : Nat := leNat ((sha384 (leBytes 48 x ++ leBytes 48 y)).take 4)

/-- KEY_INSTALL is refused in a mode its row does not name. -/
def chkKey (bad : Bool) (s : State) : Option Verdict :=
  firstOf [(!modeOk 0x0B07 s, no St.modeForbids), (bad, no St.badParam)]

/-- KEY_INSTALL KIND 1 as a row. -/
def rowKeyInstallOwnerKey (h : Hdr) (p : KeyInstallP) : Row :=
  let x := field p.data 0 48
  let y := field p.data 48 48
  { i := .keyInstallOwnerKey h p, h := h, opc := 0x0B07, plens := [13],
    chk := chkKey (!keyFields p 96 false || !ecOnCurve x y),
    run := fun s => finish h 0x0B07 (okay (keyTag x y)) (nvOwn 3 0x03 0 (leBytes 48 x ++ leBytes 48 y) s) }

/-- KEY_INSTALL, KIND 1: the owner debug key (R518). -/
def execKeyInstallOwnerKey (h : Hdr) (p : KeyInstallP) (s : State) : Host.Outcome State Fault Refusal :=
  ok (command (rowKeyInstallOwnerKey h p) s)

/-- KEY_INSTALL KIND 2 as a row. -/
def rowKeyInstallFleetKey (h : Hdr) (p : KeyInstallP) : Row :=
  let d := field p.data 0 48
  { i := .keyInstallFleetKey h p, h := h, opc := 0x0B07, plens := [7],
    chk := chkKey (!keyFields p 48 true || d == 0 || ecN ≤ d),
    run := fun s =>
      let q := ecPublic d
      finish h 0x0B07 (okay (keyTag q.1 q.2) p.keyId.toNat) (nvOwn 3 0x04 0 (leBytes 48 d ++ leBytes 4 p.keyId.toNat) s) }

/-- KEY_INSTALL, KIND 2: the fleet attestation key (R518). -/
def execKeyInstallFleetKey (h : Hdr) (p : KeyInstallP) (s : State) : Host.Outcome State Fault Refusal :=
  ok (command (rowKeyInstallFleetKey h p) s)

/-- KEY_INSTALL KIND 3 as a row: LEN 8 to 32, the password padded with zeros. -/
def rowKeyInstallPassword (h : Hdr) (p : KeyInstallP) : Row :=
  let n := p.len.toNat
  { i := .keyInstallPassword h p, h := h, opc := 0x0B07, plens := [5],
    chk := chkKey (n < 8 || 32 < n || !keyFields p n false || (bytesAt p.data n (32 - n)).any (· != 0)),
    run := fun s =>
      let salt := drawSalt s
      match nvPut 4 0x11 0 false (salt ++ debugDigest salt (bytesAt p.data 0 n)) 0 (drawn s) with
      | (s, .seq _) => finish h 0x0B07 (okay) s
      | (s, .refused st) => finish h 0x0B07 (no st) s }

/-- KEY_INSTALL, KIND 3: the debug password (R518). -/
def execKeyInstallPassword (h : Hdr) (p : KeyInstallP) (s : State) : Host.Outcome State Fault Refusal :=
  ok (command (rowKeyInstallPassword h p) s)

/-- KEY_INSTALL KIND 4 as a row. -/
def rowKeyInstallRemovePassword (h : Hdr) (p : KeyInstallP) : Row :=
  { i := .keyInstallRemovePassword h p, h := h, opc := 0x0B07, plens := [1],
    chk := chkKey (!keyFields p 0 false),
    run := fun s =>
      if (debugPass s).isNone then finish h 0x0B07 (okay) s
      else match nvDelete 4 0x11 0 s with
        | (s, .seq _) => finish h 0x0B07 (okay) s
        | (s, .refused st) => finish h 0x0B07 (no st) s }

/-- KEY_INSTALL, KIND 4: the debug password is removed (R518). -/
def execKeyInstallRemovePassword (h : Hdr) (p : KeyInstallP) (s : State) : Host.Outcome State Fault Refusal :=
  ok (command (rowKeyInstallRemovePassword h p) s)

/-! ## Attestation (R519) -/

/-- The quote held for a master. -/
def quoteOf (m : Master) (s : State) : Option (List Byte) :=
  match m with
  | .host => s.sec.quoteHost
  | .sideBand => s.sec.quoteSide

/-- VERSION of the running image; that of the Recovery firmware is not given (log entry 54). -/
def runVersion (s : State) : Nat :=
  match s.sec.running with
  | some n => imgVersion (imageOf n s)
  | none => Config.recoveryVersion

/-- VERSION of the other sealed image, or 0 (R412, R519). -/
def otherVersion (s : State) : Nat :=
  let n := match s.sec.running with | some n => 1 - n | none => 1 - (bootCtl s).active
  if isSealed n s then imgVersion (imageOf n s) else 0

/-- Bytes 0 to 119 of a quote. -/
def quoteHead (key nonce : Nat) (s : State) : List Byte :=
  let b := bootCtl s
  ([0x5A, 0x4C, 0x41, 0x51, 0x01] : List Byte) ++ leBytes 1 (lifeState s) ++ leBytes 1 (s.sec.running.getD 0xFF) ++
    leBytes 1 (b2n (s.sec.running == some b.trying) + 2 * b2n s.mode.safeHold) ++ leBytes 4 (runVersion s) ++
    leBytes 4 (otherVersion s) ++ leBytes 1 (rollbackValue s) ++ leBytes 1 (s.sec.revoke % 16) ++ zeroBytes 2 ++ leBytes 4 key ++
    mtBytes (merNs s) ++ zeroBytes 2 ++ leBytes 4 (match s.pnl.desc with | some d => d.crc | none => 0) ++
    bytesAt (match s.sec.running with | some n => imgHash (imageOf n s) | none => Config.recoveryHash) 0 48 ++ leBytes 32 nonce

/-- A quote, signed with the fleet key. -/
def formQuote (d key nonce : Nat) (s : State) : List Byte :=
  let hd := quoteHead key nonce s
  let sg := ecSign d (digestNat hd) (Config.ecdsaNonce s.free)
  hd ++ leBytes 48 sg.1 ++ leBytes 48 sg.2

/-- The checks of ATTEST_QUOTE with PART 0 (R519). -/
def chkQuote (p : AttestP) (s : State) : Option Verdict :=
  let dev := p.flags.toNat.testBit 0 && p.dest != 0
  let b := bufOf s (segHandle p.dest)
  firstOf
    [(!modeOk 0x0B05 s, no St.modeForbids), ((fleetKey s).isNone, no St.notPresent),
     (p.part != 0 || 1 < p.flags.toNat || p.rsv != 0, no St.badParam),
     (starlightBuf dev s, no St.modeForbids), (dev && b.isNone, no St.badHandle),
     (dev && (match b with | some b => !segFits b (segOff p.dest) 216 | none => false), no St.badParam)]

/-- ATTEST_QUOTE with PART 0 as a row. -/
def rowAttestQuoteForm (h : Hdr) (p : AttestP) : Row :=
  { i := .attestQuoteForm h p, h := h, opc := 0x0B05, plens := [6], host := !p.flags.toNat.testBit 0 && p.dest != 0,
    chk := chkQuote p,
    run := fun s => match fleetKey s with
      | none => s
      | some (d, key) =>
        let q := formQuote d key p.nonce.toNat s
        let s := onSec (fun c => match masterOf h.src with
          | .host => { c with quoteHost := some q }
          | .sideBand => { c with quoteSide := some q }) (drawn s)
        let s := if p.dest = 0 then s
          else if p.flags.toNat.testBit 0 then
            (match bufOf s (segHandle p.dest) with
             | some b => devWrite (bufAddr b + segOff p.dest) q s
             | none => s)
          else emit (.hostWrite p.dest.toNat q) s
        finish h 0x0B05 (okay 216) s }

/-- ATTEST_QUOTE, PART 0: a quote is formed (R519). -/
def execAttestQuoteForm (h : Hdr) (p : AttestP) (s : State) : Host.Outcome State Fault Refusal :=
  ok (command (rowAttestQuoteForm h p) s)

/-- ATTEST_QUOTE with PART 1 to 18 as a row. -/
def rowAttestQuotePart (h : Hdr) (p : AttestP) : Row :=
  { i := .attestQuotePart h p, h := h, opc := 0x0B05, plens := [6],
    chk := fun s => firstOf
      [(!modeOk 0x0B05 s, no St.modeForbids), ((fleetKey s).isNone, no St.notPresent),
       ((quoteOf (masterOf h.src) s).isNone, no St.notPresent),
       (p.part == 0 || 18 < p.part.toNat || 1 < p.flags.toNat || p.rsv != 0 || p.dest != 0 || p.nonce != 0, no St.badParam)],
    run := fun s => match quoteOf (masterOf h.src) s with
      | some q => finish h 0x0B05 (threeWords q (12 * (p.part.toNat - 1))) s
      | none => s }

/-- ATTEST_QUOTE, PART 1 to 18: twelve bytes of the quote held (R519). -/
def execAttestQuotePart (h : Hdr) (p : AttestP) (s : State) : Host.Outcome State Fault Refusal :=
  ok (command (rowAttestQuotePart h p) s)

end Sys2Proof.Machine
end

