-- ==== Sys2Proof/Machine/Firmware.lean ====
section
/-! DEFINITION. Firmware updates (R520 to R523). -/

namespace Sys2Proof.Machine

/-- TRYING names the running slot: the other slot holds the only confirmed image (R520, R523). -/
def onTrial (s : State) : Bool := s.sec.running == some (bootCtl s).trying

/-- The slot an update writes (R520): the one not running; in Recovery the one other than ACTIVE, unless ACTIVE failed
verification at this boot. -/
def updateTarget (s : State) : Nat :=
  match s.sec.running with
  | some n => 1 - n
  | none => if s.sec.bootFailedActive then (bootCtl s).active else 1 - (bootCtl s).active

/-- A firmware command of the open update is in flight. -/
def updateBusy (s : State) : Bool :=
  match s.sec.update with
  | some u => u.erasing.isSome || u.verifying.isSome
  | none => false

/-- The image of a slot changes. -/
def setImage (n : Nat) (m : FwImage) (s : State) : State := onSec (fun c => if n = 0 then { c with slotA := m } else { c with slotB := m }) s

/-- FW_BEGIN as a row: the record first, then the erasure. -/
def rowFwBegin (h : Hdr) (p : FwBeginP) : Row :=
  { i := .fwBegin h p, h := h, opc := 0x0D01, plens := [1],
    chk := fun s => firstOf
      [(!modeOk 0x0D01 s, no St.modeForbids),
       (p.total.toNat < 4608 || 16777216 < p.total.toNat || p.rsv != 0, no St.badParam),
       (onTrial s || updateBusy s, no St.busy)],
    run := fun s =>
      let n := updateTarget s
      let b := bootCtl s
      let s := putBoot { b with sealed := sealTo n false b.sealed, trial := if b.trial = n then 0xFF else b.trial, staged := 0 } s
      let s := setImage n (.bytes []) s
      accepted h 0x0D01 0 (onSec (fun c => { c with update := some ⟨masterOf h.src, n, p.total.toNat, some h, none⟩ }) s) }

/-- FW_BEGIN (R520). -/
def execFwBegin (h : Hdr) (p : FwBeginP) (s : State) : Host.Outcome State Fault Refusal := ok (command (rowFwBegin h p) s)

/-- FW_ERASE_DONE (R520): the erase ends and FW_BEGIN completes. -/
def execFwEraseDone (s : State) : Host.Outcome State Fault Refusal :=
  ok (match s.sec.update with
    | none => s
    | some u => match u.erasing with
      | none => s
      | some h => finish h 0x0D01 (okay) (onSec (fun c => { c with update := some { u with erasing := none } }) s))

/-- The bytes programmed into a slot so far. -/
def stagedBytes (n : Nat) (s : State) : List Byte := match imageOf n s with | .bytes d => d | _ => []

/-- The bytes a chunk brings: inline, from host memory, or from a device buffer. -/
def chunkData (p : FwChunkP) (s : State) : List Byte :=
  if p.src = 2 then
    (match bufOf s (segHandle p.addr) with
     | some b => memGetAll s.mem (bufAddr b + segOff p.addr) p.length.toNat
     | none => [])
  else bytesAt p.data 0 p.length.toNat

/-- The fields of a chunk are in range and its data lies within the image (R521). -/
def chunkFields (p : FwChunkP) (total : Nat) : Bool :=
  let n := p.length.toNat
  p.src.toNat ≤ 2 && p.rsv == 0 && 1 ≤ n && (if p.src = 0 then n ≤ 192 else n ≤ 32768) && (p.src != 0 || p.addr == 0) &&
  p.offset.toNat + n ≤ total && (p.src != 0 || (p.data.drop n).all (· == 0))

/-- The checks of FW_CHUNK (R521). -/
def chkFwChunk (h : Hdr) (p : FwChunkP) (s : State) : Option Verdict :=
  let staged := (bootCtl s).staged
  let dev := p.src == 2
  let b := bufOf s (segHandle p.addr)
  match s.sec.update with
  | none => firstOf [(!modeOk 0x0D02 s, no St.modeForbids), (true, no St.notPresent)]
  | some u => firstOf
      [(!modeOk 0x0D02 s, no St.modeForbids), (u.owner != masterOf h.src || updateBusy s, no St.busy),
       (p.offset.toNat != staged, ⟨St.badParam, staged, 0, 0⟩), (!chunkFields p u.total, no St.badParam),
       (starlightBuf dev s, no St.modeForbids), (dev && b.isNone, no St.badHandle),
       (dev && (match b with | some b => !segFits b (segOff p.addr) p.length.toNat | none => false), no St.badParam)]

/-- FW_CHUNK as a row: the data are programmed before the reply; `fails` says that programming failed, which ends the update. -/
def rowFwChunk (h : Hdr) (p : FwChunkP) (fails : Bool) : Row :=
  { i := .fwChunk h p fails, h := h, opc := 0x0D02,
    plens := if p.src = 0 then [2 + ceilDiv p.length.toNat 8] else [2],
    host := p.src == 1, chk := chkFwChunk h p,
    run := fun s => match s.sec.update with
      | none => s
      | some u =>
        let b := bootCtl s
        if fails then
          finish h 0x0D02 (no St.fault) (putBoot { b with staged := 0 } (onSec (fun c => { c with update := none }) s))
        else
          let n := b.staged + p.length.toNat
          let s := setImage u.slot (.bytes (stagedBytes u.slot s ++ chunkData p s)) s
          finish h 0x0D02 (okay n) (putBoot { b with staged := n } s) }

/-- FW_CHUNK (R521). -/
def execFwChunk (h : Hdr) (p : FwChunkP) (fails : Bool) (s : State) : Host.Outcome State Fault Refusal :=
  ok (command (rowFwChunk h p fails) s)

/-- The staged image is complete: STAGED = TOTAL_LEN = 512 + BODY_LEN (R522). -/
def stagedWhole (u : FwUpdate) (s : State) : Bool :=
  (bootCtl s).staged == u.total && u.total == 512 + leNat (slotBytes (stagedBytes u.slot s) 16 4)

/-- FW_COMMIT as a row. -/
def rowFwCommit (h : Hdr) : Row :=
  { i := .fwCommit h, h := h, opc := 0x0D03, plens := [0],
    chk := fun s => match s.sec.update with
      | none => firstOf [(!modeOk 0x0D03 s, no St.modeForbids), (true, no St.notPresent)]
      | some u => firstOf
          [(!modeOk 0x0D03 s, no St.modeForbids), (u.owner != masterOf h.src || updateBusy s, no St.busy),
           (!stagedWhole u s, ⟨St.badParam, 0x08, 0, 0⟩)],
    run := fun s => accepted h 0x0D03 0 (onSec (fun c => { c with update := c.update.map (fun u => { u with verifying := some h }) }) s) }

/-- FW_COMMIT (R522). -/
def execFwCommit (h : Hdr) (s : State) : Host.Outcome State Fault Refusal := ok (command (rowFwCommit h) s)

/-- FW_VERIFY_DONE (R522): the staged image has been verified; it is sealed with event 0xEE, or refused with the code. -/
def execFwVerifyDone (s : State) : Host.Outcome State Fault Refusal :=
  ok (match s.sec.update with
    | none => s
    | some u => match u.verifying with
      | none => s
      | some h =>
        let m := imageOf u.slot s
        let b := bootCtl s
        let s := onSec (fun c => { c with update := none }) s
        match verifyImage m s with
        | some code => finish h 0x0D03 ⟨St.badParam, code, 0, 0⟩ (putBoot { b with staged := 0 } s)
        | none =>
          finish h 0x0D03 (okay (imgVersion m) (imgRollback m))
            (stageEvent 1 (putBoot { b with staged := 0, sealed := sealTo u.slot true b.sealed } s)))

/-! ## FW_ACTIVATE (R523) -/

/-- The sealed slot to arm: the one not running; in Recovery the one other than ACTIVE, else ACTIVE (log entry 55). -/
def armSlot (s : State) : Option Nat :=
  let b := bootCtl s
  match s.sec.running with
  | some n => if isSealed (1 - n) s then some (1 - n) else none
  | none => if isSealed (1 - b.active) s then some (1 - b.active) else if isSealed b.active s then some b.active else none

/-- FLAGS and the reserved bytes of FW_ACTIVATE. -/
def activateFields (p : FwActivateP) : Bool := p.flags.toNat < 4 && p.rsv == 0

/-- FW_ACTIVATE OP 0 as a row: with RESTART an L3 follows the reply. -/
def rowFwActivateArm (h : Hdr) (p : FwActivateP) : Row :=
  { i := .fwActivateArm h p, h := h, opc := 0x0D04, plens := [1],
    chk := fun s => firstOf
      [(!modeOk 0x0D04 s, no St.modeForbids), (!activateFields p, no St.badParam), ((armSlot s).isNone, no St.notPresent),
       (s.sec.update.isSome || onTrial s, no St.busy)],
    run := fun s => match armSlot s with
      | none => s
      | some n =>
        let s := finish h 0x0D04 (okay) (putBoot { bootCtl s with trial := n, auto := b2n (p.flags.toNat.testBit 1) } s)
        if p.flags.toNat.testBit 0 then plainReset (s.mode.mode == .recovery) s else s }

/-- FW_ACTIVATE, OP 0 (R523). -/
def execFwActivateArm (h : Hdr) (p : FwActivateP) (s : State) : Host.Outcome State Fault Refusal :=
  ok (command (rowFwActivateArm h p) s)

/-- A confirmation that a power loss cuts short: the record stands, the ROLLBACK fuses are blown up to the one being blown
(R504, R523). -/
def confirmCut (n : Nat) (c : ConfirmCut) (s : State) : State :=
  let f := c.fuse.val
  let s := putBoot { bootCtl s with active := n, trying := 0xFF } s
  if imgRollback (imageOf n s) ≤ f then s
  else onSec (fun x =>
    let fs := blowTo f x.rollFuses
    { x with rollFuses := if c.marginal && fs.getD f .unblown == .unblown then fs.set f .marginal else fs }) s

/-- FW_ACTIVATE OP 1 as a row. -/
def rowFwActivateConfirm (h : Hdr) (p : FwActivateP) (cut : Option ConfirmCut) : Row :=
  { i := .fwActivateConfirm h p cut, h := h, opc := 0x0D04, plens := [1],
    chk := fun s => firstOf
      [(!modeOk 0x0D04 s, no St.modeForbids), (!activateFields p, no St.badParam), (!onTrial s, no St.notPresent)],
    run := fun s => match s.sec.running, cut with
      | some n, none => (let s := confirmRunning n s; finish h 0x0D04 (okay (rollbackValue s)) s)
      | some n, some c => confirmCut n c s
      | none, _ => s }

/-- FW_ACTIVATE, OP 1 (R523). -/
def execFwActivateConfirm (h : Hdr) (p : FwActivateP) (cut : Option ConfirmCut) (s : State) : Host.Outcome State Fault Refusal :=
  ok (command (rowFwActivateConfirm h p cut) s)

/-- FW_ACTIVATE OP 2 as a row. -/
def rowFwActivateDisarm (h : Hdr) (p : FwActivateP) : Row :=
  { i := .fwActivateDisarm h p, h := h, opc := 0x0D04, plens := [1],
    chk := fun s => firstOf [(!modeOk 0x0D04 s, no St.modeForbids), (!activateFields p, no St.badParam)],
    run := fun s => finish h 0x0D04 (okay) (putBoot { bootCtl s with trial := 0xFF } s) }

/-- FW_ACTIVATE, OP 2 (R523). -/
def execFwActivateDisarm (h : Hdr) (p : FwActivateP) (s : State) : Host.Outcome State Fault Refusal :=
  ok (command (rowFwActivateDisarm h p) s)

end Sys2Proof.Machine
end

