-- ==== Sys2Proof/Machine/DetachOps.lean ====
section
/-! DEFINITION. The detach quiesce (R544 to R547, R549): what each of its steps does, forced steps, the detached state. -/

namespace Sys2Proof.Machine

/-- Updates the hardware state. -/
def onHwd (f : HwdSt → HwdSt) (s : State) : State := { s with hwd := f s.hwd }

/-- DETACH_REQ_N counts as asserted: accepted, and not masked (R539). -/
def detAsserted (s : State) : Bool := s.hwd.det.on && !s.hwd.det.masked

/-- MRST_N counts as asserted (R539, R542). -/
def mrstAsserted (s : State) : Bool := s.hwd.mrst.on && !s.hwd.mrst.masked

/-! ## The seated record and the last quiesce (R543, R545, R556) -/

/-- The seated record: type 0x21, key 0, in COUNTERS; its payload is the model's: one byte, 1 SEATED, 0 CLEAR (log entry 56). -/
def putSeated (v : Bool) (s : State) : State := nvOwn 1 0x21 0 (leBytes 1 (b2n v)) s

/-- The seated record reads SEATED. -/
def seatedRead (s : State) : Bool := (match nvGet s 1 0x21 0 with | some b => field b 0 1 | none => 0) == 1

/-- One more on a module counter (R471). -/
def bumpCounter (key : Nat) (s : State) : State := counterSet key (counterGet s key + 1) s

/-! ## Steps 2 to 6 -/

/-- The panel and the blocks of the data plane stop without replies, and what they hold returns. -/
def quietPlane (s : State) : State :=
  planePools (endHolds (mpiCollect (planeReset { s with scn := { s.scn with seg := none } })))

/-- Step 2: DARK with reason 4, the heads, Cumulus, the sweep engine and Cirrus stop, the camera ports power down, discharge
starts (R545, R200, R163, R256). -/
def quiesce2 (s : State) : State :=
  let s := if s.scn.seg.isSome then lightsOut 4 s else s
  let s := onScn (fun x => { x with
    seg := none, began := false, cur := none, prev := none, dark := none, wins := [], stillSince := none }) s
  let s := endSessions 5 s
  let s := endJobsAll (fun j s => jobEnds j.idx St.abortedDetach 0x86 j.block s) s
  let s := onSyn (fun y => { y with fences := [], cut := none }) (abandonSyn St.abortedDetach false s)
  camPorts.foldl (fun s c => onPort c (fun p => { p with gear := none }) (endI2c c St.abortedDetach s)) (dropAllCapture s)

/-- Step 2 ended by force. -/
def quiet2 (s : State) : State :=
  let s := if s.std.powered then stdDischarge s else s
  let s := quietPlane (onHead true (fun h => { h with lit := false }) (onHead false (fun h => { h with lit := false }) s))
  camPorts.foldl (fun s c => onPort c (fun p => { p with gear := none, i2c := [] }) s) (dropAllCapture s)

/-- Step 3: the steering layer is discharged, with event 0xC5 (R256). -/
def quiesce3 (s : State) : State :=
  if s.std.discharge.isNone then s
  else
    let s := if s.std.closedAt.isNone then emit (.crowbar true) (onStd (fun d => { d with closedAt := some s.time.ref }) s) else s
    raise 0xC5 [] (onStd (fun d => { d with discharge := none }) s)

/-- Recoveries in progress end with OUTCOME 6, waiting ones are dropped (R430). -/
def endRecoveries (s : State) : State :=
  let run := s.evt.recs.filter (·.running)
  let s := run.foldl (fun s r => endRecov r 6 0 s) s
  { s with evt := { s.evt with recs := [] } }

/-- Timers are lost; WAKE timers stay in the Horizon alarm (R287). -/
def loseTimers (s : State) : State :=
  { s with time := { s.time with alarms := s.time.alarms ++ s.time.timers.filter (fun (t : Timer) => t.wake), timers := [] } }

/-- Step 4: commands, layers, calibrations, tests, recoveries, timers and the firmware update end with their replies; a
DETACH_PREPARE gets its final reply last (R545, R551). -/
def quiesce4 (q : Quiesce) (s : State) : State :=
  let s := clearLayers false (dropFrames false s)
  let s := endTests 5 (some St.abortedDetach) s
  let s := dropRetrain (fun _ => true) 5 (abandonCal (fun _ => true) 5 s)
  let s := endUpdate (some St.abortedDetach) false (endLinkCmd St.abortedDetach s)
  let s := loseTimers (endRecoveries s)
  let s := forgetCommands (endCommands (no St.abortedDetach) (q.cmd.map keyOf) s)
  let s := releaseStage .nimbus s
  match q.cmd with
  | some h => finish h 0x0009 (okay q.evseq 250000 0) s
  | none => s

/-- Step 4 ended by force: everything ends without replies or fences. -/
def quiet4 (s : State) : State :=
  let s := endUpdate none false (loseTimers (endRecoveries (forgetCommands s)))
  let s := dropRetrain (fun _ => true) 5 (abandonCal (fun _ => true) 5 s)
  let s := endTests 5 none (onScn (fun x => { x with layers := List.replicate 5 {}, waits := [], fences := [], star := none }) s)
  endHolds { s with cmd := { s.cmd with live := [], waits := [] }, buf := { s.buf with copies := [] } }

/-- Step 5: the module's own frames are sent and the bridge's ports go down, the panel's lanes idle, the host's link goes down
(R450, R229). -/
def quiesce5 (s : State) : State := hostDown (linksIdle St.abortedDetach (netQuiesce s))

/-- Step 5 ended by force: no frame is sent. -/
def quiet5 (s : State) : State := hostDown (linksIdle St.abortedDetach (netQuiesce (netFlush s)))

/-- Step 6: self-refresh, the buffers released, the ledger closed after an audit (R359, R384, R379). -/
def quiesce6 (s : State) : State := auditAll (emptyPools (releaseAll (enterSelfRefresh s)))

/-- A step as it runs of itself. -/
def quiesceStep (k : Nat) (q : Quiesce) (s : State) : State :=
  match k with
  | 2 => quiesce2 s
  | 3 => quiesce3 s
  | 4 => quiesce4 q s
  | 5 => quiesce5 s
  | 6 => quiesce6 s
  | _ => s

/-- A step ended by force, without further replies, fences or frames (R546). -/
def quietStep (k : Nat) (s : State) : State :=
  match k with
  | 2 => quiet2 s
  | 3 => quiesce3 s
  | 4 => quiet4 s
  | 5 => quiet5 s
  | 6 => quiesce6 s
  | _ => s

/-- The maximum of a step, in ns from the acceptance of the trigger (R545). -/
def stepMax (k : Nat) : Nat := (match k with | 2 => 1 | 3 => 3 | 4 => 60 | 5 => 100 | 6 => 130 | _ => 140) * 1000000

/-! ## Steps 7 to 10 -/

/-- Step 7: the lease, authentications, unlocks and FIELD_OPEN end, and event 0x09 is formed (R545). -/
def quiesce7 (q : Quiesce) (s : State) : State :=
  let s := endFieldOpen (endLease s)
  let s := onSec (fun c => { c with authHost := 0, authSide := 0 }) s
  raise 0x09 [(4, (s.time.ref - q.since) / 1000), (1, q.forced), (1, b2n q.vmainLost)] s

/-- Step 8: the history is flushed, counter 0x0003 rises, the seated record is CLEAR; the length is kept (R556, log entry 56). -/
def quiesce8 (q : Quiesce) (s : State) : State :=
  let t := (s.time.ref - q.since) / 1000
  let s := putSeated false (bumpCounter 3 (nvFlush s))
  onHwd (fun w => { w with lastQuiesce := t, forcedCount := w.forcedCount + b2n (q.forced != 0) }) (nvOwn 0 0x11 0 (leBytes 4 t) s)

/-- Step 9: the main domain is switched off; Dormant is entered without event 0x01 (R296). -/
def quiesce9 (s : State) : State :=
  if s.mode.mode = .dormant then s
  else onMode (fun m => { m with mode := .dormant, rate := 0 }) (mainReset true (dmcReset 0 (recordTime s)))

/-- Step 10: SAFE_N is asserted; the detached state is set. -/
def quiesce10 (s : State) : State :=
  onHwd (fun w => { w with quiesce := none, safe := true, safeAt := s.time.ref, detached := true }) s

/-- The steps from 7 on; step 7 is reached `took` ns after the trigger, at most its maximum. -/
def quiesceEnd (q : Quiesce) (s : State) : State :=
  let lim := if s.mode.mode = .dormant then 5000000 else 140000000
  let s := advanceRef (q.since + min q.took lim) s
  quiesce10 (quiesce9 (quiesce8 q (quiesce7 q s)))

/-- The steps `ks` in order, then the end; the quiesce stands at `stall` when that step hangs. -/
def quiesceRun (stall : Option Nat) : List Nat → Quiesce → State → State
  | [], q, s => quiesceEnd q s
  | k :: ks, q, s =>
    if stall = some k then onHwd (fun w => { w with quiesce := some { q with step := k } }) s
    else quiesceRun stall ks q (quiesceStep k q s)

/-- A quiesce starts (R544): event 0x08 with the source, REASON and the mode; packets not yet accepted and held commands end
ABORTED_DETACH. In Dormant, or during a wake, only steps 1, 7, 8 and 10 run (R549). -/
def quiesceStart (source reason : Nat) (cmd : Option Hdr) (stall : Option Nat) (took : Nat) (s : State) : State :=
  if quiescing s then s
  else
    let s := raise 0x08 [(1, source), (1, reason), (1, modeNum s.mode.mode)] s
    let q : Quiesce := ⟨s.time.ref, source, 0, 0, cmd, s.evt.evseq, false, took⟩
    let s := onMode (fun m => { m with waking := none, wakeHeld := 0 }) (onHwd (fun w => { w with quiesce := some q }) s)
    let ws := (s.cmd.waits.filter (fun w => w.seqExp.isSome)).map (fun w => (w.h, w.opcode))
    let s := finishAll ws (no St.abortedDetach) { s with cmd := { s.cmd with waits := [] } }
    if s.mode.mode = .dormant then quiesceEnd q s
    else quiesceRun stall [2, 3, 4, 5, 6] q (endSched St.abortedDetach s)

/-- A hanging step is ended by force at its maximum: event 0x0A and its bit in the mask (R546); the later steps run. -/
def quiesceForce (stall : Option Nat) (s : State) : State :=
  match s.hwd.quiesce with
  | none => s
  | some q =>
    if q.step < 2 then s
    else
      let s := advanceRef (q.since + stepMax q.step) s
      let q := { q with forced := q.forced ||| 2 ^ q.step, took := max q.took (stepMax q.step) }
      let s := raise 0x0A [] (quietStep q.step (onHwd (fun w => { w with quiesce := some q }) s))
      quiesceRun stall ([2, 3, 4, 5, 6].filter (fun k => q.step < k)) q s

/-- VMAIN was lost during the quiesce: the steps that remain of 2 to 6 are dropped, 7, 8 and 10 complete on VAUX (R549). -/
def quiesceOnVaux (s : State) : State :=
  match s.hwd.quiesce with
  | none => s
  | some q => quiesceEnd { q with vmainLost := true } s

/-! ## The detached state (R547) -/

/-- The detached state ends: SAFE_N is released and the module starts as at step 7 of R543. -/
def detachedEnd (s : State) : State :=
  if !s.hwd.detached then s
  else
    let s := onHwd (fun w => { w with detached := false, safe := false }) s
    if s.mode.vmainQual && pv s 0x0103 = 0 && s.mode.shutUntil.isNone then onMode (fun m => { m with waking := some 0 }) s else s

end Sys2Proof.Machine
end

