-- ==== Sys2Proof/Machine/ThermalRows.lean ====
section
/-! DEFINITION. The commands of Dewpoint (R305 to R318, R324, R325, R327). -/

namespace Sys2Proof.Machine

/-- THERMAL_SAMPLE (R307, R309): the sample that falls due next is taken. -/
def execThermalSample (t : ThmRead) (s : State) : Host.Outcome State Fault Refusal :=
  ok (if !mainOn s then s else takeSample t (advanceRef (sampleDue s) s))

/-- CONFIRMATION_SAMPLE (R308): the earliest confirmation sample is taken. -/
def execConfirmationSample (t : ThmRead) (s : State) : Host.Outcome State Fault Refusal :=
  ok (match sortBy (fun r => r) s.thm.confirm with
    | [] => s
    | r :: rest => takeSample t (onThm (fun t => { t with confirm := rest }) (advanceRef r s)))

/-- WARMUP_LIMIT_EXPIRY (R311): THM_WARMUP_LIMIT passes first: event 0x1B with the failure flag; MODE_SETs held for memory
complete FAULT with word 0 = 2 (R293). -/
def execWarmupLimitExpiry (s : State) : Host.Outcome State Fault Refusal :=
  ok (match s.thm.warmup with
    | none => s
    | some t =>
      let s := advanceRef (t + pv s 0x020E * nsPerSec) s
      let s := raise 0x1B [(1, 1)] (onThm (fun t => { t with warmup := none, warmFailed := true, warmLoad := false }) s)
      endHeld ⟨St.fault, 2, 0, 0⟩ s)

/-- A request is enforced (R315): event 0x13, counted, and a step-down, to the target of THROTTLE_ACK where one is held; ignored
during the quiesce (R549). -/
def enforce (s : State) : State :=
  let cause := if dieRequest s || hbmRequest s then 2 else 3
  let target := match s.thm.ack with | some 0xFF => none | t => t
  let s := onThm (fun t => { t with grace := none, ack := none }) s
  if s.hwd.quiesce.isSome then s
  else stepDown cause target (merNs s) (raise 0x13 [] (onThm (fun t => { t with throttles := t.throttles + 1 }) s))

/-- THROTTLE_GRACE_EXPIRY (R315): a request still stands at its enforcement time. -/
def execThrottleGraceExpiry (s : State) : Host.Outcome State Fault Refusal :=
  ok (match s.thm.grace with
    | none => s
    | some t =>
      let s := advanceMer t s
      if throttled s then enforce s else onThm (fun t => { t with grace := none }) s)

/-- SHUTDOWN_HOLD_EXPIRY (R318): the 60 s in which wakes are ignored are over. -/
def execShutdownHoldExpiry (s : State) : Host.Outcome State Fault Refusal :=
  ok (match s.mode.shutUntil with
    | none => s
    | some t => onMode (fun m => { m with shutUntil := none }) (advanceRef t s))

/-! ## THERMAL_READ -/

/-- A temperature as a 16-bit value. -/
def temp16 (v : Int) : Nat := unsigned 16 v

/-- A die sensor's field: 0x8000 out of service or in Dormant (R324). -/
def sensor16 (i : Nat) (s : State) : Nat :=
  if mainOn s && s.thm.ok.getD i false then temp16 (s.thm.die.getD i 0) else 0x8000

/-- The coolest die sensor in service. -/
def coolest (s : State) : Int :=
  ((s.thm.die.zip s.thm.ok).filter (·.2)).foldl (fun m e => if e.1 < m then e.1 else m) 32767

/-- The reply of THERMAL_READ (R324). -/
def thermalWords (sel : Nat) (s : State) : Verdict :=
  let two := fun (i : Nat) => sensor16 i s + sensor16 (i + 1) s * 2 ^ 16
  if sel ≠ 0 then okay (two (6 * (sel - 1))) (two (6 * (sel - 1) + 2)) (two (6 * (sel - 1) + 4))
  else if !mainOn s then okay 0x80008000 0x80008000 (temp16 s.thm.hor)
  else
    let none_ := sensorsOk s == 0
    okay ((if none_ then 0x8000 else temp16 (dieTemp s)) + (if none_ then 0x8000 else temp16 (coolest s)) * 2 ^ 16)
      (temp16 s.thm.hbm0 + temp16 s.thm.hbm1 * 2 ^ 16) (temp16 s.thm.hor + thmState s * 2 ^ 16 + sensorsOk s * 2 ^ 24)

/-- In Dormant a THERMAL_READ reads the Horizon sensor; otherwise it demands a sample (R300, R307). -/
def readSample (t : ThmRead) (s : State) : State :=
  if mainOn s then demandSample t s else onThm (fun x => { x with hor := t.hor }) s

/-- THERMAL_READ as a row. -/
def rowThermalRead (h : Hdr) (p : ThermalReadP) : Row :=
  { i := .thermalRead h p, h := h, opc := 0x0701, plens := [1], pre := readSample p.thm,
    chk := fun _ => firstOf [(4 < p.select.toNat || p.rsv != 0, no St.badParam)],
    run := fun s => finish h 0x0701 (thermalWords p.select.toNat s) s }

/-- THERMAL_READ (R324). -/
def execThermalRead (h : Hdr) (p : ThermalReadP) (s : State) : Host.Outcome State Fault Refusal := ok (command (rowThermalRead h p) s)

/-! ## THERMAL_LIMITS_SET -/

/-- The fields of THERMAL_LIMITS_SET are in range (R325). -/
def limitsOk (p : ThermalLimitsP) : Bool :=
  let w := p.warn.toNat
  let r := p.request.toNat
  let c := p.critical.toNat
  let hr := p.hbmRequest.toNat
  let hc := p.hbmCritical.toNat
  650 ≤ w && w ≤ 950 && 700 ≤ r && r ≤ 1000 && w ≤ r && 850 ≤ c && c ≤ 1150 && r < c && 550 ≤ hr && hr ≤ 850 &&
  650 ≤ hc && hc ≤ 950 && hr < hc && p.rsv == 0

/-- THERMAL_LIMITS_SET as a row. -/
def rowThermalLimitsSet (h : Hdr) (p : ThermalLimitsP) : Row :=
  { i := .thermalLimitsSet h p, h := h, opc := 0x0702, plens := [2],
    chk := fun s => firstOf [(!modeOk 0x0702 s, no St.modeForbids), (!limitsOk p, no St.badParam)],
    run := fun s => finish h 0x0702 (okay) (onThm (fun t => { t with
      limDieWarn := p.warn.toNat, limDieReq := p.request.toNat, limDieCrit := p.critical.toNat,
      limHbmReq := p.hbmRequest.toNat, limHbmCrit := p.hbmCritical.toNat }) s) }

/-- THERMAL_LIMITS_SET (R325). -/
def execThermalLimitsSet (h : Hdr) (p : ThermalLimitsP) (s : State) : Host.Outcome State Fault Refusal :=
  ok (command (rowThermalLimitsSet h p) s)

/-! ## THROTTLE_ACK -/

/-- TARGET names a permitted rung of the chain, or the step-down of R319 (R327). -/
def ackTargetOk (t : Nat) (s : State) : Bool :=
  t == 0xFF || (chain s.mode.mode s.mode.rate).any (fun e => modeNum e.1 == t && permitted e.1 e.2 s)

/-- THROTTLE_ACK as a row. -/
def rowThrottleAck (h : Hdr) (p : ThrottleAckP) : Row :=
  { i := .throttleAck h p, h := h, opc := 0x0703, plens := [1],
    chk := fun s => firstOf
      [(!modeOk 0x0703 s, no St.modeForbids),
       ((p.target != 0xFF && 11 < p.target.toNat) || 1 < p.flags.toNat || p.rsv != 0, no St.badParam),
       (!ackTargetOk p.target.toNat s, no St.modeForbids), (!throttled s, no St.notPresent)],
    run := fun s =>
      let s := onThm (fun t => { t with ack := some p.target.toNat }) s
      if p.flags.toNat.testBit 0 then enforce (finish h 0x0703 (okay) s) else finish h 0x0703 (okay (graceLeft s)) s }

/-- THROTTLE_ACK (R327). -/
def execThrottleAck (h : Hdr) (p : ThrottleAckP) (s : State) : Host.Outcome State Fault Refusal := ok (command (rowThrottleAck h p) s)

end Sys2Proof.Machine
end

