-- ==== Sys2Proof/Machine/ParamOps.lean ====
section
/-! DEFINITION. Parameters as they are read (R412: every chapter's table), set (R7) and kept in the NV store. -/

namespace Sys2Proof.Machine

/-- A count as a parameter of 32 bits: past its range the value is open. -/
def cnt (id n : Nat) : Nat := if n < 2 ^ 32 then n else Config.countPast id n

/-- A mask of the list entries that satisfy a condition. -/
def maskOf {α : Type} (f : α → Bool) (l : List α) : Nat :=
  l.zipIdx.foldl (fun n e => n + b2n (f e.1) * 2 ^ e.2) 0

/-! ## Read-only parameters, by chapter -/

/-- HWD_STATE (R556). -/
def hwdState (s : State) : Nat := if s.hwd.quiesce.isSome then 1 else if s.hwd.detached then 2 else 0

/-- HWD_INPUTS (R556); a masked input is treated as released (R539). -/
def hwdInputs (s : State) : Nat :=
  b2n (detAsserted s) + 2 * b2n (mrstAsserted s) + 256 * b2n s.hwd.det.masked + 512 * b2n s.hwd.mrst.masked

/-- PANEL and HWD parameters (R40, R556). -/
def ro00 (id : Nat) (s : State) : Nat :=
  match id with
  | 0x0020 => panelState s
  | 0x0021 => (match s.pnl.desc with | some d => d.crc | none => 0)
  | 0x0022 => (match s.pnl.desc with | some d => d.rays | none => 0)
  | 0x0023 => (match s.pnl.desc with | some d => d.views | none => 0)
  | 0x0030 => hwdState s
  | 0x0031 => hwdInputs s
  | 0x0033 => s.hwd.lastQuiesce
  | 0x0034 => cnt id s.hwd.forcedCount
  | 0x0035 => s.hwd.holdupMv
  | _ => s.hwd.vauxMv

/-- Mode and power parameters (R330). Power is reported in 10 mW, energy in mJ. -/
def ro01 (id : Nat) (s : State) : Nat :=
  match id with
  | 0x0100 => modeNum s.mode.mode
  | 0x0101 => s.mode.rate
  | 0x0102 => s.mode.lastCause
  | 0x0105 => s.mode.wakeLast
  | 0x0110 => s.pwr.vmainMv
  | 0x0111 => s.pwr.avg10 / 10
  | 0x0112 => s.pwr.avgs.sum / max 1 s.pwr.avgs.length / 10
  | 0x0113 => s.pwr.e / 10000
  | 0x0114 => s.pwr.vauxMw
  | _ => cnt id s.pwr.overCount

/-- Thermal parameters (R331). -/
def ro02 (id : Nat) (s : State) : Nat :=
  match id with
  | 0x0200 => if sensorsOk s = 0 then 0x8000 else temp16 (dieTemp s)
  | 0x0201 => temp16 s.thm.hbm0
  | 0x0202 => temp16 s.thm.hbm1
  | 0x0203 => temp16 s.thm.hor
  | 0x0204 => thmState s
  | 0x020B => maskOf (fun b => b) s.thm.ok
  | 0x020C => cnt id s.thm.samples
  | 0x020D => cnt id s.thm.throttles
  | _ => sensor16 (id - 0x0210) s

/-- Time parameters (R289). -/
def ro03 (id : Nat) (s : State) : Nat :=
  match id with
  | 0x0301 => tsCode s.time.state
  | 0x0305 => if pv s 0x0300 = 0 then 0 else unsigned 32 s.time.offset
  | 0x0306 => unsigned 32 (floorDiv (foffNow s * nsPerSec + (2 ^ 40 : Nat)) (2 ^ 41 : Nat))
  | 0x0320 => cnt id s.time.steps
  | 0x0321 => s.time.timers.length
  | 0x0322 => cnt id s.time.lateCount
  | 0x0323 => cnt id s.time.ppsEdges
  | _ => (ptpOf s (id - 0x0330)).portState

/-- Event parameters (R435). -/
def ro04 (id : Nat) (s : State) : Nat :=
  match id with
  | 0x0411 => s.evt.rseq
  | 0x0417 => cnt id s.evt.coalescedRecs
  | 0x0418 => cnt id s.evt.sbSent
  | _ => cnt id (s.evt.counts5.getD (id - 0x0412) 0)

/-- The lease holder's code (R409, R415): none once the lease has expired. -/
def leaseHolder (s : State) : Nat :=
  match s.cmd.lease.holder with
  | some m => if merNs s < s.cmd.lease.expiry then masterCode m else 0
  | none => 0

/-- Command parameters (R415). -/
def ro05 (id : Nat) (s : State) : Nat :=
  match id with
  | 0x0501 => leaseHolder s
  | 0x0502 => s.cmd.sched.length
  | 0x0503 => cnt id s.cmd.accepted
  | 0x0504 => cnt id s.cmd.refused
  | 0x0505 => cnt id s.cmd.deadlines
  | 0x0506 => cnt id s.cmd.replyLost
  | _ => cnt id s.cmd.sbDropped

/-- NV store parameters (R476). -/
def ro06 (id : Nat) (s : State) : Nat :=
  match id with
  | 0x0600 => b2n s.nv.ready
  | 0x0607 => nvLocks s
  | 0x0608 => cnt id s.nv.writes
  | 0x0609 => s.nv.retired.length
  | _ => freeSlots s (id - 0x0602)

/-- The record DMC_DLY_SEL selects (R345): that in the controller once the sets have been loaded, else the stored one. -/
def selDly (s : State) : DlyRec :=
  let sel := pv s 0x0720
  if 3 ≤ s.dmc.state then dlyOf s (sel / 256) (sel % 64) else storedDly s (sel / 256) (sel % 64)

/-- DMC_DLY_TIMING of a record (R361). -/
def dlyTiming (r : DlyRec) : Nat :=
  ((r.rd ++ r.wr ++ [r.ca]).zipIdx).foldl (fun n e => n + e.1 * 2 ^ (6 * e.2)) 0

/-- DMC_DLY_STATE of a record (R361). -/
def dlyState (r : DlyRec) : Nat :=
  b2n r.valid + 2 * b2n r.degraded + 4 * b2n r.fenced + 256 * r.margin + 65536 * r.order

/-- Memory parameters (R361). -/
def ro07 (id : Nat) (s : State) : Nat :=
  match id with
  | 0x0700 => s.dmc.point
  | 0x0701 => s.dmc.state
  | 0x0708 => pcMask (isDegraded s)
  | 0x0709 => pcMask (isFenced s)
  | 0x070A => dmcCapacity s
  | 0x070B => dmcSupply s s.dmc.point / 1000000000
  | 0x070C => cnt id s.dmc.ceCount
  | 0x070D => cnt id s.dmc.ueCount
  | 0x070E => b2n s.dmc.hot0 + 2 * b2n s.dmc.hot1
  | _ => dlyState (selDly s)

/-- Buffer and ledger parameters (R386). -/
def ro08 (id : Nat) (s : State) : Nat :=
  match id with
  | 0x0800 => col s 0x01 0
  | 0x0801 => largestRun s 1
  | 0x0802 => (s.buf.bufs.filter (·.live)).length
  | 0x0803 => (s.buf.bufs.filter (fun b => !b.live)).length
  | 0x0805 => cnt id s.buf.audits
  | _ => cnt id s.buf.faults

/-- STM_STATE of a session slot (R72). -/
def stmState (i : Nat) (s : State) : Nat :=
  match sessOf i s with
  | none => 0
  | some x => if x.closing || x.drain.isSome then 4 else if x.resync || x.search then 3 else if x.shown.isNone then 1 else 2

/-- The status of a session slot (R72). -/
def stmValue (id i k : Nat) (s : State) : Nat :=
  let t := s.scene.stat.getD i {}
  match k with
  | 0 => stmState i s
  | 1 => leNat (mtBytes t.start)
  | 2 => t.shown
  | 3 => cnt id t.late
  | 4 => cnt id t.drop
  | 5 => cnt id t.lost
  | 6 => cnt id t.tileErr
  | _ => match sessOf i s with | some x => (if x.units = 0 then 0 else ringFree x) | none => 0

/-- Codec and session parameters (R98, R72). -/
def ro09 (id : Nat) (s : State) : Nat :=
  match id with
  | 0x0902 => s.cdc.jobs.length
  | 0x0903 => enginesOk s
  | 0x0904 => s.cdc.inBytes % 2 ^ 64
  | 0x0905 => s.cdc.outBytes % 2 ^ 64
  | 0x0906 => cnt id s.cdc.errors
  | _ => stmValue id ((id - 0x0940) / 16) (id % 16) s

/-- SYN_LOAD (R133): the share of the budget of R114 in use, in 0.01 %. -/
def synLoad (s : State) : Nat :=
  match s.pnl.desc with
  | some d => if isRendered s.mode.mode && groupsOk s != 0 then
      min 10000 (d.w * d.h * (phasesNow s).length * s.mode.rate * planeLimit s * 16 * 10000 / (1800000000000 * groupsOk s))
    else 0
  | none => 0

/-- Synthesis parameters (R133). -/
def ro0A (id : Nat) (s : State) : Nat :=
  match id with
  | 0x0A05 => groupsOk s
  | 0x0A06 => planeLimit s
  | 0x0A07 => synLoad s
  | 0x0A08 => s.syn.committedK
  | 0x0A09 => s.syn.shownK
  | 0x0A0A => s.syn.retiredK
  | 0x0A0B => cnt id s.syn.misses
  | _ => cnt id s.syn.restarts

/-- SWP_LOAD (R166): the share of the sweep budget of R158 in use, in 0.01 %. -/
def sweepLoad (s : State) : Nat :=
  match s.pnl.desc with
  | some d => if s.mode.mode = .skylight ∧ sweepGroups s ≠ 0 then
      min 10000 (d.hx * d.hy * sweepLimit s * s.mode.rate * (sweepPorts s).length * 16 * 10000 / (230000000000 * sweepGroups s))
    else 0
  | none => 0

/-- Sweep and camera parameters (R166). -/
def ro0BC (id : Nat) (s : State) : Nat :=
  match id with
  | 0x0B00 => sweepGroups s
  | 0x0B01 => sweepLimit s
  | 0x0B02 => sweepLoad s
  | 0x0B03 => cnt id s.cam.misses
  | 0x0C01 => maskOf (fun p => p.cfg.isSome && !p.freeing) s.cam.ports
  | 0x0C02 => s.cam.present
  | 0x0C03 => cnt id s.cam.late
  | _ => cnt id s.cam.errors

/-- Scan-out parameters (R203). -/
def ro0D (id : Nat) (s : State) : Nat :=
  let h := headOf (0x0D80 ≤ id) s
  match id with
  | 0x0D30 => if panelLit s then s.mode.rate else 0
  | 0x0D31 => emitWindow s
  | 0x0D32 => cnt id s.scn.darkFrames
  | _ => match id % 16 with
    | 0 => cnt id h.underBase
    | 1 => cnt id h.underOvl
    | 2 => cnt id h.crcFail
    | 3 => cnt id h.repeats
    | _ => cnt id h.bgFrames

/-- PLK_STATE of a half (R232). -/
def plkState (p : Plk) : Nat :=
  if !p.present then 0 else if p.up then 3 else if p.train.isSome then 2 else if p.failed then 4 else 1

/-- Panel link parameters (R232). -/
def ro0E (id : Nat) (s : State) : Nat :=
  let b := decide (0x0E80 ≤ id)
  let p := plkOf b s
  match id % 16 with
  | 0 => plkState p
  | 1 => p.lanes
  | 2 => p.rate
  | 3 => col s (creditPool b) 0
  | 4 => cnt id p.retries
  | 5 => cnt id p.rowsLost
  | _ => match p.hello with | some h => h.model | none => 0

/-- Steering parameters (R263). -/
def ro0F (id : Nat) (s : State) : Nat :=
  match id with
  | 0x0F10 => unsigned 16 s.std.temp
  | 0x0F11 => s.std.code
  | 0x0F12 => s.std.band.getD 255
  | 0x0F13 => settleNow s
  | 0x0F14 => (settleLimit s.mode.mode s.mode.rate).getD 0
  | 0x0F15 => min s.std.dcMax 65535
  | 0x0F16 => cnt id s.std.misses
  | _ => cnt id s.std.pairsTotal

/-- Bridge and side-band parameters (R456). -/
def ro1x (id : Nat) (s : State) : Nat :=
  match id with
  | 0x1020 => s.net.fdb.length
  | 0x1021 => col s 0x28 0
  | 0x1109 => s.sbd.eid
  | 0x110A => b2n s.sbd.up
  | _ => netPortState s (id - 0x1010)

/-- Calibration, test and security parameters (R502, R527). -/
def roRest (id : Nat) (s : State) : Nat :=
  match id with
  | 0x1205 => (s.cal.jobs.map (·.item)).foldl (fun n i => n ||| 2 ^ i) 0
  | 0x1206 => cnt id s.cal.abandoned
  | 0x1303 => b2n s.bst.run.isSome
  | 0x1304 => s.bst.number
  | 0x1305 => cnt id s.bst.heldCount
  | 0x1306 => cnt id s.bst.busyCount
  | 0x1400 => lifeState s
  | 0x1401 => rollbackValue s
  | 0x1402 => (let b := bootCtl s; b.active + b.trial * 2 ^ 8 + b.trying * 2 ^ 16 + b.sealed * 2 ^ 24)
  | 0x1403 => (bootCtl s).staged
  | _ => (match fleetKey s with | some k => k.2 | none => 0)

/-- The value of a read-only parameter. -/
def roValue (id : Nat) (s : State) : Nat :=
  match id / 256 with
  | 0x00 => ro00 id s
  | 0x01 => ro01 id s
  | 0x02 => ro02 id s
  | 0x03 => ro03 id s
  | 0x04 => ro04 id s
  | 0x05 => ro05 id s
  | 0x06 => ro06 id s
  | 0x07 => ro07 id s
  | 0x08 => ro08 id s
  | 0x09 => ro09 id s
  | 0x0A => ro0A id s
  | 0x0B => ro0BC id s
  | 0x0C => ro0BC id s
  | 0x0D => ro0D id s
  | 0x0E => ro0E id s
  | 0x0F => ro0F id s
  | 0x10 => ro1x id s
  | 0x11 => ro1x id s
  | _ => roRest id s

/-- The value in force of a parameter, as PARAM_GET reports it (R412). -/
def paramValue (d : PDesc) (s : State) : Nat :=
  if d.ro then roValue d.id s
  else match d.id with
    | 0x0032 => 0
    | 0x0721 => dlyTiming (selDly s)
    | 0x0722 => (selDly s).rdVref + (selDly s).wrVref * 256
    | id => pv s id

/-! ## Parameters kept in the NV store -/

/-- The CONFIG record of a parameter kept in the NV store: type and key (log entries 51, 56). -/
def nvParamKey (id : Nat) : Nat × Nat :=
  if id = 0x0103 then (0x04, 0)
  else if 0x0710 ≤ id ∧ id ≤ 0x071A then (0x03, id - 0x0710)
  else if id = 0x1404 then (0x10, 0)
  else (0x05, 0xF000 + (id - 0x1000))

/-- The parameters that the NV store keeps under a record of their own. -/
def nvParams : List PDesc := paramTable.filter (fun d => d.keep == 2 && d.id != 0x0721 && d.id != 0x0722)

/-- The parameters kept in the NV store take their stored values, as VAUX is applied. -/
def restoreParams (s : State) : State :=
  nvParams.foldl (fun s d =>
    match nvGet s 0 (nvParamKey d.id).1 (nvParamKey d.id).2 with
    | some b => pSet d.id (leNat b) s
    | none => s) s

/-! ## Setting a parameter (R7, R412) -/

/-- VALUE lies in the range of the table, with its unused high bits zero. -/
def inRange (d : PDesc) (v : Nat) : Bool :=
  v < 2 ^ d.width && (let x : Int := if d.lo < 0 then signed d.width v else v; decide (d.lo ≤ x) && decide (x ≤ d.hi))

/-- A MAC address is unicast: the first octet's bit 0, in bits [47:40], is zero. -/
def unicast (v : Nat) : Bool := !v.testBit 40

/-- What a parameter's row of its table asks of a value beyond its range. -/
def rangeExtra (id v : Nat) : Bool :=
  match id with
  | 0x0104 => v.testBit 4
  | 0x0720 => points.contains (v / 256) && v % 256 < 64
  | 0x0721 => v < 2 ^ 54
  | 0x0722 => v % 256 < 64 && v / 256 < 64
  | 0x0F00 => v % 2 == 0
  | 0x1000 => v == 0 || (unicast v && v % 16 == 0)
  | 0x1100 => unicast v
  | 0x1108 => v == 0 || 8 ≤ v
  | 0x1301 => v % 2 == 0
  | 0x1302 => v == 0 || 60 ≤ v
  | id => if 0x0710 ≤ id ∧ id ≤ 0x071A then maskValid (id - 0x0710) v else true

/-- A parameter of the memory masks. -/
def isHash (id : Nat) : Bool := 0x0710 ≤ id && id ≤ 0x071A
/-- A parameter of the selected delay record. -/
def isDly (id : Nat) : Bool := id == 0x0721 || id == 0x0722

/-- Device memory is in use (R337). -/
def memoryUsed (s : State) : Bool :=
  !s.buf.bufs.isEmpty || s.scene.sess.any (·.isSome) || !s.cdc.jobs.isEmpty || !s.syn.jobs.isEmpty ||
  s.cam.ports.any (fun p => p.map.isSome) || panelState s == 2 || s.dmc.state != 3

/-- The selected record is of a fenced PC (R345). -/
def selFenced (s : State) : Bool := (selDly s).fenced || fenceDecided s (pv s 0x0720 % 64)

/-- The budget words of a SYN_PLANES_MAX that breaks R114 (R115). -/
def planesBudget (v : Nat) (s : State) : Option Nat :=
  match s.pnl.desc with
  | some d => synBudget s.mode.mode s.mode.rate v d s
  | none => none

/-- The checks of PARAM_SET (R412), of the masks (R337), of the delay records (R345), and the further ones of the chapters. -/
def chkParamSet (h : Hdr) (p : ParamSetP) (s : State) : Option Verdict :=
  let id := p.id.toNat
  let v := p.value.toNat
  let memory := isHash id || isDly id
  let bad := match pFind paramTable id with
    | some d => d.ro || !inRange d v || !rangeExtra id v
    | none => true
  let kept := match pFind paramTable id with | some d => d.keep == 2 | none => false
  firstOf
    [(!memory && !modeOk 0x0102 s, no St.modeForbids),
     (bad || p.rsv != 0 || (isDly id && selFenced s), no St.badParam),
     (isHash id && s.mode.mode != .dawn, no St.modeForbids),
     (isDly id && ((s.dmc.point == pv s 0x0720 / 256 && s.mode.mode != .dawn) || !modeOk 0x0102 s), no St.modeForbids),
     (isHash id && memoryUsed s, no St.busy),
     (isDly id && s.dmc.point == pv s 0x0720 / 256 && sweeping s (pv s 0x0720 % 64), no St.busy),
     (id == 0x0A03 && (planesBudget v s).isSome, ⟨St.budgetExceeded, (planesBudget v s).getD 0, 0, 0⟩),
     (id == 0x0D23 && !hostFits (layersToCome s) s.mode.mode s.mode.rate v s, no St.budgetExceeded),
     (kept && nvLocked s (masterOf h.src) 0 1, no St.deniedLocked)]

/-- A value waits for its time (R7): it replaces one that waits already. -/
def pendParam (d : PDesc) (v : Nat) (s : State) : State :=
  { s with parPend := s.parPend.filter (fun e => e.1 != d.id) ++ [(d.id, v, d.eff)] }

/-- TIME_SOURCE changes (R267): I is cleared, and the state becomes FREE unless it is UNSET. -/
def timeSource (s : State) : State :=
  let s := { s with time := { s.time with iacc := 0, inLock := 0, outLock := 0, stepRun := 0 } }
  if s.time.state = .unset then s else setTimeState .free s

/-- What a new value does beside being in force. -/
def paramActs (id : Nat) (changed : Bool) (s : State) : State :=
  match id with
  | 0x0300 => if changed then timeSource s else s
  | 0x0310 => { s with time := { s.time with ppsMasked := false } }
  | 0x0804 => checkLow s
  | id => if 0x0A00 ≤ id ∧ id ≤ 0x0A04 then synParamSet id s else s

/-- An accepted value takes effect, or waits for the frame, pair or change of R7. -/
def applyParam (d : PDesc) (v : Nat) (s : State) : State :=
  let wait := match d.eff with
    | 0 => false
    | 1 => gridRuns s
    | 2 => s.std.powered
    | _ => true
  let changed := pv s d.id != v
  let s := if wait then pendParam d v s
    else pSet d.id v { s with parPend := s.parPend.filter (fun e => e.1 != d.id) }
  paramActs d.id changed s

/-- The OK reply of PARAM_SET. -/
def paramReply (d : PDesc) (v : Nat) : Verdict := okay (v % 2 ^ 32) (v / 2 ^ 32) d.eff

/-- A mask is stored and applies before the reply: every byte of memory keeps its place in the stacks (R337). -/
def setHash (id v : Nat) (s : State) : State :=
  let old := hashMasks s
  let s := pSet id v s
  { s with mem := rehash old (hashMasks s) s.dmc.fenced s.mem }

/-- The selected record with a new DMC_DLY_TIMING or DMC_DLY_VREF, VALID (R345). -/
def dlyWith (id v : Nat) (r : DlyRec) : DlyRec :=
  let taps := fun (k : Nat) => (List.range 4).map (fun i => bits v (6 * (i + k) + 5) (6 * (i + k)))
  if id = 0x0721 then { r with rd := taps 0, wr := taps 4, ca := bits v 53 48, valid := true }
  else { r with rdVref := v % 64, wrVref := v / 256 % 64, valid := true }

/-- Masked inputs are re-armed (R539): a level that still stands counts anew once it is accepted again. -/
def rearm (v : Nat) (s : State) : State :=
  let f := fun (b : Bool) (i : Input) => if b && i.masked then { i with masked := false, on := false } else i
  onHwd (fun w => { w with det := f (v.testBit 0) w.det, mrst := f (v.testBit 1) w.mrst }) s

/-- A record is written before the reply; a refused write changes nothing else. -/
def keepParam (h : Hdr) (type key : Nat) (bytes : List Byte) (fill : State → State) (v : Verdict) (s : State) : State :=
  match nvPut 0 type key false bytes 0 s with
  | (s, .seq _) => finish h 0x0102 v (fill s)
  | (s, .refused st) => finish h 0x0102 (no st) s

/-- The effect of PARAM_SET. Values of SBD_MAC, SBD_IP and SBD_UDP_PORT apply after the reply (R451). -/
def runParamSet (h : Hdr) (p : ParamSetP) (s : State) : State :=
  let id := p.id.toNat
  let v := p.value.toNat
  match pFind paramTable id with
  | none => s
  | some d =>
    let ok := paramReply d v
    if isHash id then keepParam h 0x03 (id - 0x0710) (leBytes 8 v) (setHash id v) ok s
    else if isDly id then
      (let pt := pv s 0x0720 / 256
       let pc := pv s 0x0720 % 64
       let r := dlyWith id v (selDly s)
       keepParam h 0x02 pt (dlySetBytes ((storedSet s pt).set pc (dlyWith id v (storedDly s pt pc))))
         (fun s => if 3 ≤ s.dmc.state then putDly pt pc r s else s) ok s)
    else if id = 0x0032 then finish h 0x0102 ok (rearm v s)
    else if d.keep = 2 then
      (if 0x1100 ≤ id ∧ id ≤ 0x1102 then
        match nvPut 0 (nvParamKey id).1 (nvParamKey id).2 false (leBytes 8 v) 0 s with
        | (s, .seq _) => applyParam d v (finish h 0x0102 ok s)
        | (s, .refused st) => finish h 0x0102 (no st) s
       else keepParam h (nvParamKey id).1 (nvParamKey id).2 (leBytes 8 v) (applyParam d v) ok s)
    else finish h 0x0102 ok (applyParam d v s)

end Sys2Proof.Machine
end

