-- ==== Sys2Proof/Machine/RecoveryRows.lean ====
section
/-! DEFINITION. The commands of chapter 14 on recoveries and records: RESET_LEVEL (R433), RECOVERY_START (R429),
RECOVERY_END (R431), EVENT_LOG_READ (R424) and DIAG_CAPTURE (R434). -/

namespace Sys2Proof.Machine

/-- EVENT_LOG_READ as a row (R424): the history, oldest record first. -/
def rowEventLogRead (h : Hdr) (p : EventLogReadP) : Row :=
  { i := .eventLogRead h p, h := h, opc := 0x0E02, plens := [2], host := !p.flags.toNat.testBit 0 && p.dest != 0,
    chk := chkLogRead p, run := fun s => runLogRead h 0x0E02 p ((s.evt.history.map recBytes).reverse) s }

/-- EVENT_LOG_READ (R424). -/
def execEventLogRead (h : Hdr) (p : EventLogReadP) (s : State) : Host.Outcome State Fault Refusal :=
  ok (command (rowEventLogRead h p) s)

/-- A recovery at level `l` or above that covers the scope named (domain `d` at level `l`) is running (R433). -/
def resetBusy (l d : Nat) (s : State) : Bool :=
  s.evt.recs.any (fun r => r.running && l ≤ r.level && r.level != 4 && covers r.domain r.level d)

/-- The checks of RESET_LEVEL at LEVEL 1 to 3, in the order of R433. -/
def chkReset (l : Nat) (p : ResetLevelP) (s : State) : Option Verdict :=
  let d := p.domain.toNat
  let exit := p.flags.toNat.testBit 0
  firstOf
    [(p.rsv != 0 || p.flags.toNat > 1 || (exit && (l != 3 || s.mode.mode != .recovery)) ||
        (l == 1 && !(knownDomain d && entryLevel d ≤ 1)) || (l != 1 && d != 0), no St.badParam),
     (l ≤ 2 && s.mode.mode == .recovery, no St.modeForbids),
     (resetBusy l (if l = 1 then d else if l = 2 then 0x30 else 0x31) s, no St.busy)]

/-- RESET_LEVEL at LEVEL 1 as a row. -/
def rowResetLevel1 (h : Hdr) (p : ResetLevelP) : Row :=
  { i := .resetLevel1 h p, h := h, opc := 0x000A, plens := [1], chk := chkReset 1 p,
    run := fun s => decideRecov p.domain.toNat 1 none [] 0 .escalation (some (h, 0x000A)) false (accepted h 0x000A 0 s) }

/-- RESET_LEVEL, LEVEL 1 (R433): the domain is recovered; the completion follows its end. -/
def execResetLevel1 (h : Hdr) (p : ResetLevelP) (s : State) : Host.Outcome State Fault Refusal :=
  ok (command (rowResetLevel1 h p) s)

/-- RESET_LEVEL at LEVEL 2 as a row. -/
def rowResetLevel2 (h : Hdr) (p : ResetLevelP) : Row :=
  { i := .resetLevel2 h p, h := h, opc := 0x000A, plens := [1], chk := chkReset 2 p,
    run := fun s => decideRecov 0x30 2 none [] 0 .escalation (some (h, 0x000A)) false (accepted h 0x000A 0 s) }

/-- RESET_LEVEL, LEVEL 2 (R433): the data plane is recovered. -/
def execResetLevel2 (h : Hdr) (p : ResetLevelP) (s : State) : Host.Outcome State Fault Refusal :=
  ok (command (rowResetLevel2 h p) s)

/-- RESET_LEVEL at LEVEL 3 as a row: the reply, with the RSEQ, is written before the reset starts; the records are formed
under source 0x00 (R431). -/
def rowResetLevel3 (h : Hdr) (p : ResetLevelP) : Row :=
  { i := .resetLevel3 h p, h := h, opc := 0x000A, plens := [1], chk := chkReset 3 p,
    run := fun s => decideRecov 0x31 3 (some 0x00) [] 0 .escalation none (p.flags.toNat.testBit 0)
      (finish h 0x000A (okay ((s.evt.rseq + 1) % 2 ^ 32)) s) }

/-- RESET_LEVEL, LEVEL 3 (R433): everything but Horizon is reset. -/
def execResetLevel3 (h : Hdr) (p : ResetLevelP) (s : State) : Host.Outcome State Fault Refusal :=
  ok (command (rowResetLevel3 h p) s)

/-- RESET_LEVEL at LEVEL 4 as a row: any master may issue it. -/
def rowResetLevel4 (h : Hdr) (p : ResetLevelP) : Row :=
  { i := .resetLevel4 h p, h := h, opc := 0x000A, plens := [1], anyMaster := true, chk := chkReset 4 p,
    run := fun s => decideRecov 0x31 4 none [] 0 .request none false (finish h 0x000A (okay) s) }

/-- RESET_LEVEL, LEVEL 4 (R433): the actions of R317 and the safe hold. -/
def execResetLevel4 (h : Hdr) (p : ResetLevelP) (s : State) : Host.Outcome State Fault Refusal :=
  ok (command (rowResetLevel4 h p) s)

/-- A waiting recovery starts when no conflicting recovery runs or waits ahead of it (R429). -/
def execRecoveryStart (rseq : U32) (s : State) : Host.Outcome State Fault Refusal :=
  ok (match s.evt.recs.find? (fun r => r.rseq == rseq.toNat) with
    | none => s
    | some r => if mayStart r s then startRecov r s else s)

/-- What a level's end does to the blocks (R426); a thermal sample is taken at a start-up (R299). -/
def levelEnd (r : Recov) (success : Bool) (t : ThmRead) (s : State) : State :=
  if r.level = 2 then rebuildPools (planeEnd s)
  else if r.level = 3 then startSample t (moduleEnd r s)
  else blockEnd r.domain r.level success s

/-- A link in the scope of an L0 or L1 is still training: its own rows end the recovery (R223, R137). -/
def linkBusy (r : Recov) (s : State) : Bool :=
  r.level ≤ 1 &&
  (if r.domain = 6 ∨ r.domain = 7 then
    (plkOf (r.domain == 7) s).train.isSome && (s.mode.mode == .dawn || !modelWrong (r.domain == 7) s)
   else if r.domain = 0x20 then r.level == 0 && netPortState s (field r.payload 0 1) == 1
   else 0x10 ≤ r.domain && r.domain ≤ 0x1F && (portOf (r.domain - 0x10) s).gear.isNone && portPowered (r.domain - 0x10) s)

/-- A running recovery completes (R431): the block is back in service, or the recovery failed, which is itself a fault of
its domain (R428). An L3 does not end while MRST_N stays asserted (R542). -/
def execRecoveryEnd (rseq : U32) (success : Bool) (t : ThmRead) (s : State) : Host.Outcome State Fault Refusal :=
  ok (match s.evt.recs.find? (fun r => r.rseq == rseq.toNat && r.running) with
    | none => s
    | some r =>
      if linkBusy r s || (r.level == 3 && mrstAsserted s) then s else
      let s := levelEnd r success t s
      if success then endRecov r 1 0 s
      else faultAt r.domain (entryLevel r.domain) (r.source.getD 0) r.payload (endRecov r 4 0 s))

/-- The bytes DIAG_CAPTURE writes (R434). -/
def captureBytes (c : Capture) : List Byte :=
  [0x44, 0x47, 0x43, 0x50] ++ leBytes 1 c.domain ++ zeroBytes 3 ++ leBytes 4 c.rseq ++ mtBytes c.time ++ zeroBytes 2 ++
    leBytes 4 c.body.length ++ leBytes 4 (crc32c c.body) ++ c.body

/-- The capture held for a domain. -/
def captureOf (s : State) (d : Nat) : Option Capture :=
  if d = 0x31 then s.evt.capStore else s.evt.captures.find? (fun c => c.domain == d)

/-- The checks of DIAG_CAPTURE (R434, R366). -/
def chkDiag (p : DiagCaptureP) (s : State) : Option Verdict :=
  let b := bufOf s p.handle.toNat
  let c := captureOf s p.domain.toNat
  firstOf
    [(!knownDomain p.domain.toNat || p.rsv != 0 || p.rsv2 != 0 || p.offset.toNat % 64 != 0, no St.badParam),
     (starlightBuf true s, no St.modeForbids), (b.isNone, no St.badHandle), (c.isNone, no St.notPresent),
     ((match b, c with | some b, some c => !segFits b p.offset.toNat (32 + c.body.length) | _, _ => false), no St.badParam)]

/-- DIAG_CAPTURE as a row. -/
def rowDiagCapture (h : Hdr) (p : DiagCaptureP) : Row :=
  { i := .diagCapture h p, h := h, opc := 0x0E01, plens := [2], chk := chkDiag p,
    run := fun s => match bufOf s p.handle.toNat, captureOf s p.domain.toNat with
      | some b, some c =>
        let d := captureBytes c
        finish h 0x0E01 (okay d.length c.rseq) (devWrite (bufAddr b + p.offset.toNat) d s)
      | _, _ => s }

/-- DIAG_CAPTURE (R434). -/
def execDiagCapture (h : Hdr) (p : DiagCaptureP) (s : State) : Host.Outcome State Fault Refusal :=
  ok (command (rowDiagCapture h p) s)

end Sys2Proof.Machine
end

