-- ==== Sys2Proof/Machine/Hardware.lean ====
section
/-! DEFINITION. Seating, the detach quiesce and the discrete inputs (chapter 19). -/

namespace Sys2Proof.Machine

/-- The number of a step from the index of a hanging one: steps 2 to 6. -/
def stepNo (i : Option (Fin 5)) : Option Nat := i.map (fun k => k.val + 2)

/-! ## Discrete inputs (R539) -/

/-- Extra edges of an input are counted, with event 0x0D once per second; `set` replaces the input. -/
def bounced (code n : Nat) (i : Input) (set : Input → State → State) (s : State) : State :=
  if n = 0 then s
  else
    let i := { i with bounces := i.bounces + n }
    if (match i.said with | some t => decide (s.time.ref < t + nsPerSec) | none => false) then set i s
    else raise 0x0D [(1, code), (4, i.bounces)] (set { i with said := some s.time.ref } s)

/-- Replaces DETACH_REQ_N. -/
def setDet (i : Input) (s : State) : State := onHwd (fun w => { w with det := i }) s
/-- Replaces MRST_N. -/
def setMrst (i : Input) (s : State) : State := onHwd (fun w => { w with mrst := i }) s

/-- The instant from which an edge may be accepted: an interval after the last accepted one. -/
def edgeFrom (i : Input) (interval : Nat) : Nat := match i.edge with | some t => t + interval | none => 0

/-- An edge of DETACH_REQ_N is accepted at the end of its interval of 1 s. -/
def acceptDet (edges : Nat) (level : Bool) (s : State) : State :=
  let s := bounced 0 edges s.hwd.det setDet s
  let s := advanceRef (edgeFrom s.hwd.det 1000000000) s
  setDet { s.hwd.det with on := level, edge := some s.time.ref } s

/-- An edge of MRST_N is accepted at the end of its interval of 100 ms. -/
def acceptMrst (edges : Nat) (level : Bool) (s : State) : State :=
  let s := bounced 1 edges s.hwd.mrst setMrst s
  let s := advanceRef (edgeFrom s.hwd.mrst 100000000) s
  setMrst { s.hwd.mrst with on := level, edge := some s.time.ref } s

/-- DETACH_REQ_ASSERT (R544): an assertion is accepted. It starts the quiesce; one that comes before step 8 of R543, or in the
detached state, starts none. -/
def execDetachReqAssert (edges : Nat) (stall : Option (Fin 5)) (took : Nat) (s : State) : Host.Outcome State Fault Refusal :=
  ok (if !s.mode.vauxOn || s.hwd.det.on || s.hwd.det.masked then s
    else
      let s := acceptDet edges true s
      if s.hwd.seating || s.hwd.detached then s else quiesceStart 1 0 none (stepNo stall) took s)

/-- QUIESCE_STEP_FORCED (R546): a step that has not ended by its maximum is ended by force. -/
def execQuiesceStepForced (stall : Option (Fin 5)) (s : State) : Host.Outcome State Fault Refusal :=
  ok (quiesceForce (stepNo stall) s)

/-- DETACH_REQ_RELEASE (R547): a release is accepted, and the detached state ends. -/
def execDetachReqRelease (edges : Nat) (s : State) : Host.Outcome State Fault Refusal :=
  ok (if !s.mode.vauxOn || !s.hwd.det.on || s.hwd.det.masked then s else detachedEnd (acceptDet edges false s))

/-- DETACH_PREPARE as a row. -/
def rowDetachPrepare (h : Hdr) (p : DetachP) (stall : Option (Fin 5)) (took : Nat) : Row :=
  { i := .detachPrepare h p stall took, h := h, opc := 0x0009, plens := [1],
    chk := fun s => firstOf [(!modeOk 0x0009 s, no St.modeForbids), (p.rsv != 0, no St.badParam)],
    run := fun s => quiesceStart (masterCode (masterOf h.src) + 1) p.reason.toNat (some h) (stepNo stall) took (accepted h 0x0009 0 s) }

/-- DETACH_PREPARE (R551). -/
def execDetachPrepare (h : Hdr) (p : DetachP) (stall : Option (Fin 5)) (took : Nat) (s : State) : Host.Outcome State Fault Refusal :=
  ok (command (rowDetachPrepare h p stall took) s)

/-- MRST_ASSERT (R542): an accepted assertion starts an L3 that is no fault, with event 0x0E; in Dormant, during the quiesce and
in the detached state it is counted. -/
def execMrstAssert (edges : Nat) (s : State) : Host.Outcome State Fault Refusal :=
  ok (if !s.mode.vauxOn || s.hwd.mrst.on || s.hwd.mrst.masked then s
    else
      let s := acceptMrst edges true s
      if s.mode.mode = .dormant ∨ quiescing s ∨ s.hwd.detached then onHwd (fun w => { w with ignored := w.ignored + 1 }) s
      else plainReset false (raise 0x0E [] s))

/-- MRST_RELEASE (R542): the main domain starts as at the end of an L3, timed from the release. -/
def execMrstRelease (edges : Nat) (t : ThmRead) (s : State) : Host.Outcome State Fault Refusal :=
  ok (if !s.mode.vauxOn || !s.hwd.mrst.on || s.hwd.mrst.masked then s
    else
      let s := acceptMrst edges false s
      match s.evt.recs.find? (fun r => r.level == 3 && r.running) with
      | some r => endRecov r 1 0 (levelEnd r true t s)
      | none => s)

/-- DETACH_REQ_N has been asserted for 600 s with SAFE_N asserted: it is masked, and treated as released (R539, R547). -/
def detStuck (s : State) : State :=
  if !detAsserted s || !s.hwd.safe then s
  else
    let s := advanceRef (max (s.hwd.det.edge.getD 0) s.hwd.safeAt + 600 * nsPerSec) s
    detachedEnd (raise 0x0C [(1, 0)] (setDet { s.hwd.det with masked := true } s))

/-- MRST_N has been low for 10 s: it is masked, and the main domain is no longer held. -/
def mrstStuck (s : State) : State :=
  if !mrstAsserted s then s
  else
    let s := advanceRef (s.hwd.mrst.edge.getD 0 + 10 * nsPerSec) s
    raise 0x0C [(1, 1)] (setMrst { s.hwd.mrst with masked := true } s)

/-- A camera's presence input has been asserted for 5 s with its link down: presence rests on the link alone. -/
def camStuck (c : Nat) (s : State) : State :=
  let p := portOf c s
  if !p.camera || p.presMasked || p.gear.isSome then s
  else
    let s := advanceRef (max p.presAt (p.drops.headD 0) + 5 * nsPerSec) s
    raise 0x0C [(1, 0x10 + c)] (onPort c (fun p => { p with presMasked := true }) s)

/-- HWD_INPUT_STUCK (R539). -/
def execHwdInputStuck (input : HwdInput) (s : State) : Host.Outcome State Fault Refusal :=
  ok (if !s.mode.vauxOn then s else match input with
    | .detach => detStuck s
    | .mrst => mrstStuck s
    | .camera c => camStuck c.val s)

/-! ## Seating (R543) -/

/-- The lock-outs that a power cycle does not shorten restart in full (R470, R517). -/
def restartLocks (s : State) : State :=
  let parts := (List.range 5).filter (fun p => lockPeriod (counterGet s (failKey p)) != 0)
  { s with
    nv := { s.nv with lockUntil := parts.map (fun p => (p, s.time.ref + lockPeriod (counterGet s (failKey p)))) }
    sec := { s.sec with lockUntil := (let n := lockPeriod (counterGet s 4); if n = 0 then 0 else s.time.ref + n) } }

/-- What Horizon takes from the NV store once it has been scanned: the panel summary (R37), the parameters it keeps, the length of
the last quiesce. -/
def horizonFromNv (s : State) : State :=
  let s := restartLocks (restoreParams (panelFromNv s))
  onHwd (fun w => { w with lastQuiesce := match nvGet s 0 0x11 0 with | some b => leNat b | none => 0 }) s

/-- Step 5 of R543: the seated record is read and written SEATED, PRESENT_N is driven. -/
def seat (s : State) : State :=
  let s := if seatedRead s then bumpCounter 5 (raise 0x0B [] s) else bumpCounter 1 s
  onHwd (fun w => { w with present := true, seating := true }) (bumpCounter 0 (putSeated true s))

/-- VAUX_POWER_GOOD (R543, R465): VAUX is applied, Horizon scans the NV store and the module is seated. -/
def execVauxPowerGood (found : List (Nat × NvFound)) (s : State) : Host.Outcome State Fault Refusal :=
  ok (if s.hwd.present then s
    else seat (horizonFromNv (nvScan found (onMode (fun m => { m with vauxOn := true }) s))))

end Sys2Proof.Machine
end

