-- ==== Sys2Proof/Machine/LayerRows.lean ====
section
/-! DEFINITION. LAYER_SET, LAYER_ENABLE, STARLIGHT_SET and SCANOUT_STATUS (R180 to R185, R191, R192, R201). -/

namespace Sys2Proof.Machine

/-- When a change applies (R182): its frame on the grid, or its Meridian instant outside it; none when the target has passed. -/
def layerWhen (h : Hdr) (s : State) : Option (Option Nat × Nat) :=
  let now := merNs s
  let at_ := fun (t : Nat) => match frameFrom t s with
    | some (b, k) => if now ≤ b then some (some k, b) else none
    | none => if now ≤ t then some (none, t) else none
  if !scheduled h then at_ now
  else match at_ (mtOf h.target) with
    | some w => some w
    | none => if asapIfLate h then at_ now else none

/-- A change is accepted: it joins the waiting ones, and the reply holds the frame (R182). Outside the grid a change due now
applies at once. -/
def acceptLayer (h : Hdr) (opc : Nat) (op : LayerOp) (fence value : Nat) (s : State) : State :=
  match layerWhen h s with
  | none => finish h opc (no St.timePassed) s
  | some (k, t) =>
    let s := onScn (fun c => { c with waits := c.waits ++ [⟨op, k, t, fence, value⟩] }) s
    let s := finish h opc (okay (match k with | some k => k % 2 ^ 32 | none => 0xFFFFFFFF)) (settleLayers s)
    applyWaitsDawn s

/-- The target of a command has passed. -/
def layerLate (h : Hdr) (s : State) : Bool := (layerWhen h s).isNone

/-! ## LAYER_SET -/

/-- The source of a LAYER_SET. -/
def layerSrc (p : LayerSetP) (s : State) : Option LayerSrc :=
  if p.flags.toNat.testBit 0 then (bufOf s (segHandle p.addr)).map (fun b => .dev b.idx (segOff p.addr))
  else some (.host p.addr.toNat)

/-- The layer a LAYER_SET describes. -/
def layerAsked (p : LayerSetP) (s : State) : Layer :=
  { src := layerSrc p s, x0 := p.x0.toNat, y0 := p.y0.toNat, w := p.width.toNat, h := p.height.toNat,
    stride := p.stride.toNat, on := (layerOf p.layer.toNat s).on }

/-- The fields of a LAYER_SET are in range (R180). -/
def layerFieldsOk (p : LayerSetP) (s : State) : Bool :=
  let dev := p.flags.toNat.testBit 0
  p.layer.toNat ≤ 4 && p.flags.toNat ≤ 1 && p.rsv == 0 && p.fence.toNat % 8 == 0 &&
  (if dev then segOff p.addr else p.addr.toNat) % 64 == 0 &&
  (match s.pnl.desc with
   | none => false
   | some d =>
     if p.layer == 0 then dev && p.x0 == 0 && p.y0 == 0 && p.width == 0 && p.height == 0 && p.stride == 0
     else p.x0.toNat < d.hx && p.y0.toNat < d.hy && 1 ≤ p.width.toNat && p.x0.toNat + p.width.toNat ≤ d.hx &&
       1 ≤ p.height.toNat && p.y0.toNat + p.height.toNat ≤ d.hy && p.stride.toNat % 64 == 0 && 4 * p.width.toNat ≤ p.stride.toNat)

/-- Bytes a layer reads from its source's offset on (R180, R181). -/
def layerBytes (p : LayerSetP) (d : PanelDesc) : Nat :=
  if p.layer == 0 then d.nh * d.block else (p.height.toNat - 1) * p.stride.toNat + 4 * p.width.toNat

/-- A source in a live buffer reaches past its end. -/
def layerPast (p : LayerSetP) (s : State) : Bool :=
  p.flags.toNat.testBit 0 &&
  (match bufOf s (segHandle p.addr), s.pnl.desc with
   | some b, some d => !segFits b (segOff p.addr) (layerBytes p d)
   | _, _ => false)

/-- A LAYER_SET of layer `n` waits. -/
def layerWaits (n : Nat) (s : State) : Bool :=
  s.scn.waits.any (fun w => match w.op with | .set m _ => m == n | _ => false)

/-- The host-memory limit holds with a list of overlays in the mode in force. -/
def layersFit (ls : List Layer) (s : State) : Bool := hostFits ls s.mode.mode s.mode.rate (pv s 0x0D23) s

/-- The checks of R181. -/
def chkLayerSet (h : Hdr) (p : LayerSetP) (s : State) : Option Verdict :=
  let ls := layersToCome s
  let n := p.layer.toNat
  firstOf
    [(!modeOk 0x0401 s, no St.modeForbids),
     (!layerFieldsOk p s || layerPast p s, no St.badParam),
     (layerWaits n s, no St.busy),
     ((layerSrc p s).isNone, no St.badHandle),
     (!layersFit (ls.set n { layerAsked p s with on := (ls.getD n {}).on }) s, no St.budgetExceeded),
     (layerLate h s, no St.timePassed)]

/-- LAYER_SET as a row. -/
def rowLayerSet (h : Hdr) (p : LayerSetP) : Row :=
  { i := .layerSet h p, h := h, opc := 0x0401, plens := [5], host := !p.flags.toNat.testBit 0 || p.fence != 0,
    chk := chkLayerSet h p,
    run := fun s => acceptLayer h 0x0401 (.set p.layer.toNat (layerAsked p s)) p.fence.toNat p.value.toNat s }

/-- LAYER_SET (R180 to R182). -/
def execLayerSet (h : Hdr) (p : LayerSetP) (s : State) : Host.Outcome State Fault Refusal := ok (command (rowLayerSet h p) s)

/-! ## LAYER_ENABLE -/

/-- The overlays a LAYER_ENABLE would leave. -/
def enableTo (m : Nat) (ls : List Layer) : List Layer :=
  ls.zipIdx.map (fun e => if e.2 = 0 then e.1 else { e.1 with on := m.testBit e.2 && e.1.src.isSome })

/-- The checks of LAYER_ENABLE (R183, R181). -/
def chkLayerEnable (h : Hdr) (p : LayerEnableP) (s : State) : Option Verdict :=
  let ls := layersToCome s
  let m := p.mask.toNat
  firstOf
    [(!modeOk 0x0402 s, no St.modeForbids),
     (m % 2 == 1 || 32 ≤ m || p.rsv != 0 || p.fence.toNat % 8 != 0 ||
        ls.zipIdx.any (fun e => m.testBit e.2 && e.1.src.isNone), no St.badParam),
     (s.scn.waits.any (fun w => match w.op with | .enable _ => true | _ => false), no St.busy),
     (!layersFit (enableTo m ls) s, no St.budgetExceeded),
     (layerLate h s, no St.timePassed)]

/-- LAYER_ENABLE as a row. -/
def rowLayerEnable (h : Hdr) (p : LayerEnableP) : Row :=
  { i := .layerEnable h p, h := h, opc := 0x0402, plens := [3], host := p.fence != 0, chk := chkLayerEnable h p,
    run := fun s => acceptLayer h 0x0402 (.enable p.mask.toNat) p.fence.toNat p.value.toNat s }

/-- LAYER_ENABLE (R183). -/
def execLayerEnable (h : Hdr) (p : LayerEnableP) (s : State) : Host.Outcome State Fault Refusal :=
  ok (command (rowLayerEnable h p) s)

/-! ## STARLIGHT_SET -/

/-- The window of a STARLIGHT_SET meets its limits (R191). -/
def starFieldsOk (p : StarlightSetP) (s : State) : Bool :=
  let w := p.w.toNat
  let h := p.h.toNat
  let k := p.scale.toNat
  1 ≤ w && w ≤ 1920 && 1 ≤ h && h ≤ 1080 && [1, 2, 4, 8].contains k && p.flags.toNat ≤ 1 && p.rsv == 0 &&
  p.len.toNat == ceilDiv w 2 * h && w * k ≤ 1920 && h * k ≤ 1080 &&
  (match s.pnl.desc with
   | some d => p.x0.toNat + w * k ≤ d.w && p.y0.toNat + h * k ≤ d.h
   | none => false)

/-- The checks of STARLIGHT_SET (R191). -/
def chkStarlightSet (h : Hdr) (p : StarlightSetP) (s : State) : Option Verdict :=
  let dev := p.flags.toNat.testBit 0
  let b := bufOf s (segHandle p.addr)
  firstOf
    [(!modeOk 0x0405 s || (dev && s.mode.mode == .starlight), no St.modeForbids),
     (!starFieldsOk p s || (dev && (match b with | some b => !segFits b (segOff p.addr) p.len.toNat | none => false)), no St.badParam),
     (dev && b.isNone, no St.badHandle),
     (s.scn.starNext.isSome, no St.busy),
     (layerLate h s, no St.timePassed)]

/-- The image bytes a STARLIGHT_SET copies. -/
def starBytes (p : StarlightSetP) (s : State) : List Byte :=
  if p.flags.toNat.testBit 0 then
    (match bufOf s (segHandle p.addr) with
     | some b => memGetAll s.mem (bufAddr b + segOff p.addr) p.len.toNat
     | none => [])
  else bytesAt p.host 0 p.len.toNat

/-- STARLIGHT_SET as a row: the image goes into the inactive page before the reply (R192). -/
def rowStarlightSet (h : Hdr) (p : StarlightSetP) : Row :=
  { i := .starlightSet h p, h := h, opc := 0x0405, plens := [6], host := !p.flags.toNat.testBit 0, chk := chkStarlightSet h p,
    run := fun s =>
      let page : StarPage := ⟨p.x0.toNat, p.y0.toNat, p.w.toNat, p.h.toNat, p.scale.toNat, starBytes p s, p.palette⟩
      let s := if p.flags.toNat.testBit 0 then s else emit (.hostRead p.addr.toNat p.len.toNat) s
      acceptLayer h 0x0405 .starlight 0 0 (onScn (fun c => { c with starNext := some page }) s) }

/-- STARLIGHT_SET (R191, R192). -/
def execStarlightSet (h : Hdr) (p : StarlightSetP) (s : State) : Host.Outcome State Fault Refusal :=
  ok (command (rowStarlightSet h p) s)

/-! ## SCANOUT_STATUS -/

/-- State of a head (R201). -/
def headState (b : Bool) (s : State) : Nat :=
  if (headOf b s).recovering then 3
  else if !(halves s).contains b || !(plkOf b s).present then 4
  else if s.scn.seg.isNone then 0
  else if s.scn.dark.isSome || !halfLit b s then 1
  else 2

/-- The reply of SCANOUT_STATUS (R201). -/
def scanoutWords (b : Bool) (s : State) : Verdict :=
  let h := headOf b s
  let on := s.scn.layers.zipIdx.foldl (fun n e => if e.2 ≠ 0 ∧ e.1.on then n + 2 ^ (e.2 - 1) else n) 0
  let nq := match s.scn.seg with | some g => g.nq | none => 0
  okay (headState b s + h.now.source * 2 ^ 8 + on * 2 ^ 16 + nq % 16 * 2 ^ 20 + s.mode.rate * 2 ^ 24) (h.shownK % 2 ^ 32)
    (emitWindow s % 2 ^ 16)

/-- SCANOUT_STATUS as a row. -/
def rowScanoutStatus (h : Hdr) (p : ScanoutStatusP) : Row :=
  { i := .scanoutStatus h p, h := h, opc := 0x0406, plens := [1],
    chk := fun _ => firstOf [(1 < p.half.toNat || p.rsv != 0, no St.badParam)],
    run := fun s => finish h 0x0406 (scanoutWords (p.half == 1) s) s }

/-- SCANOUT_STATUS (R201). -/
def execScanoutStatus (h : Hdr) (p : ScanoutStatusP) (s : State) : Host.Outcome State Fault Refusal :=
  ok (command (rowScanoutStatus h p) s)

end Sys2Proof.Machine
end

