-- ==== Sys2Proof/Machine/Params.lean ====
section
/-! DEFINITION. The parameter commands (R412): PARAM_GET, PARAM_SET, PARAM_LIST. -/

namespace Sys2Proof.Machine

/-- Horizon measures the hold-up store and VAUX (R536). -/
def takeVolts (v : HwdVolts) (s : State) : State :=
  onHwd (fun w => { w with holdupMv := v.holdup.toNat, vauxMv := v.vaux.toNat }) s

/-- PARAM_GET as a row. -/
def rowParamGet (h : Hdr) (p : ParamGetP) (v : HwdVolts) : Row :=
  { i := .paramGet h p v, h := h, opc := 0x0101, plens := [1], pre := takeVolts v,
    chk := fun s => firstOf
      [(!modeOk 0x0101 s, no St.modeForbids), ((pFind paramTable p.id.toNat).isNone || p.rsv != 0, no St.badParam)],
    run := fun s => match pFind paramTable p.id.toNat with
      | some d => (let x := paramValue d s
                   finish h 0x0101 (okay (x % 2 ^ 32) (x / 2 ^ 32 % 2 ^ 32) (x / 2 ^ 64 % 2 ^ 32)) s)
      | none => s }

/-- PARAM_GET (R412): the value in force, low bits first. -/
def execParamGet (h : Hdr) (p : ParamGetP) (v : HwdVolts) (s : State) : Host.Outcome State Fault Refusal :=
  ok (command (rowParamGet h p v) s)

/-- PARAM_SET as a row; `i` is the row of the table that the happening is. -/
def rowParamSet (i : Instr) (h : Hdr) (p : ParamSetP) : Row :=
  { i := i, h := h, opc := 0x0102, plens := [2], chk := chkParamSet h p, run := runParamSet h p }

/-- PARAM_SET (R412). -/
def execParamSet (h : Hdr) (p : ParamSetP) (s : State) : Host.Outcome State Fault Refusal :=
  ok (command (rowParamSet (.paramSet h p) h p) s)

/-- PARAM_SET of a DMC_HASH mask (R337). -/
def execParamSetDmcHash (h : Hdr) (p : ParamSetP) (s : State) : Host.Outcome State Fault Refusal :=
  ok (command (rowParamSet (.paramSetDmcHash h p) h p) s)

/-- PARAM_SET of DMC_DLY_TIMING or DMC_DLY_VREF (R345). -/
def execParamSetDmcDly (h : Hdr) (p : ParamSetP) (s : State) : Host.Outcome State Fault Refusal :=
  ok (command (rowParamSet (.paramSetDmcDly h p) h p) s)

/-- PARAM_SET of HWD_REARM (R539). -/
def execParamSetHwdRearm (h : Hdr) (p : ParamSetP) (s : State) : Host.Outcome State Fault Refusal :=
  ok (command (rowParamSet (.paramSetHwdRearm h p) h p) s)

/-- An entry of PARAM_LIST (R412). -/
def paramEntry (d : PDesc) (s : State) : List Byte :=
  leBytes 2 d.id ++ leBytes 1 d.width ++ leBytes 1 (b2n (!d.ro) + 2 * (if d.ro then 4 else d.eff)) ++ zeroBytes 4 ++
    leBytes 8 (paramValue d s)

/-- The effect of PARAM_LIST: up to COUNT entries of existing IDs from START_ID on, written to host memory. -/
def runParamList (h : Hdr) (p : ParamListP) (s : State) : State :=
  let from_ := paramTable.filter (fun d => p.startId.toNat ≤ d.id)
  let n := if p.dest = 0 then 0 else min p.count.toNat from_.length
  let next := match from_.drop n with | d :: _ => d.id | [] => 0xFFFFFFFF
  let bs := (from_.take n).flatMap (fun d => paramEntry d s)
  let s := if p.dest = 0 then s else emit (.hostWrite p.dest.toNat bs) s
  finish h 0x0104 (okay n next) s

/-- PARAM_LIST as a row. -/
def rowParamList (h : Hdr) (p : ParamListP) (v : HwdVolts) : Row :=
  { i := .paramList h p v, h := h, opc := 0x0104, plens := [2], host := p.dest != 0, pre := takeVolts v,
    chk := fun s => firstOf
      [(!modeOk 0x0104 s, no St.modeForbids),
       (p.count.toNat < 1 || 4096 < p.count.toNat || p.rsv != 0 || p.dest.toNat % 16 != 0, no St.badParam)],
    run := runParamList h p }

/-- PARAM_LIST (R412). -/
def execParamList (h : Hdr) (p : ParamListP) (v : HwdVolts) (s : State) : Host.Outcome State Fault Refusal :=
  ok (command (rowParamList h p v) s)

end Sys2Proof.Machine
end

