-- ==== Sys2Proof/Machine/Rings.lean ====
section
/-! DEFINITION. The ring pairs (R390 to R395), the doorbells, and the BAR0 registers that hold a plain field (R389). -/

namespace Sys2Proof.Machine

/-- A host access: nothing happens while the link is down (R388); one that reaches the module returns the link to L0 (R387). -/
def hostAccess (f : State → State) (s : State) : State := if s.cmd.up then f (hostTouch s) else s

/-- Commands of a pair that stand unread are dropped: the pair reads no new entries (R392, R393). -/
def dropUnread (r : Fin 16) (s : State) : State :=
  { s with cmd := { s.cmd with waits := s.cmd.waits.filter (fun w => !(w.h.src == .ring r && w.seqExp == none)) } }

/-- The indices, SEQ_EXP and PHASE of a pair that starts (R392), with its entries in the ledger (R395). -/
def ringStart (r : Nat) (s : State) : State :=
  let x := ringOf s r
  let n := 16 * 2 ^ x.size
  move 0x21 0 2 n (move 0x20 0 1 n (setRing r { x with
    state := .running, n := n, head := 0, seqExp := 0, sqTail := 0, cqTail := 0, cqHead := 0, written := 0, armed := true,
    waitRaised := false, discard := false, held := true } s))

/-- VECTOR, CQ_IRQ and, while STATE is 0, SIZE of a RING_CTL write (R390). -/
def ringFields (r v : Nat) (en : Bool) (s : State) : State :=
  let x := ringOf s r
  setRing r { x with vector := bits v 20 16, irq := bit v 15, enable := en,
                     size := if x.state == .off then bits v 2 0 else x.size } s

/-- A RING_CTL write with ENABLE 1 (R392): it starts a pair that is off; SIZE 5 to 7 is ring error 0x01 (R393). -/
def ringEnable (r v : Nat) (s : State) : State :=
  let was := (ringOf s r).state
  let s := ringFields r v true s
  if was != .off then s
  else if 4 < (ringOf s r).size then ringError r 0x01 s
  else ringStart r s

/-- RING_ENABLE. -/
def execRingEnable (r : Fin 16) (v : BitVec 31) (s : State) : Host.Outcome State Fault Refusal :=
  ok (hostAccess (ringEnable r.val v.toNat) s)

/-- A RING_CTL write with ENABLE 0 (R392): a running or failed pair drains. -/
def ringDisable (r : Fin 16) (v : Nat) (s : State) : State :=
  let s := ringFields r.val v false s
  let x := ringOf s r.val
  if x.state = .running ∨ x.state = .error then dropUnread r (setRing r.val { x with state := .draining } s) else s

/-- RING_DISABLE. -/
def execRingDisable (r : Fin 16) (v : BitVec 31) (s : State) : Host.Outcome State Fault Refusal :=
  ok (hostAccess (ringDisable r v.toNat) s)

/-- A command of the pair is in flight: accepted without its final reply, held, or read and waiting (R392). -/
def ringBusy (r : Fin 16) (s : State) : Bool :=
  s.cmd.live.any (fun l => l.h.src == .ring r && !l.orphan) || s.cmd.waits.any (fun w => w.h.src == .ring r)

/-- STATE becomes 0 once no command of a draining pair is in flight (R392). -/
def execRingDrained (r : Fin 16) (s : State) : Host.Outcome State Fault Refusal :=
  ok (if (ringOf s r.val).state = .draining ∧ !ringBusy r s then ringOff r.val s else s)

/-- The packet of a stray entry: an opcode outside the catalogue is refused by check 2 of R398; a sub-operation that no row
of the table carries is a field out of range of its opcode (log entry 7). -/
def rowStray (x : Stray) : Row :=
  { i := .nop x.h, h := x.h, opc := x.opcode.toNat,
    plens := if (infoOf x.opcode.toNat).isSome then [x.h.plen.toNat] else [],
    chk := fun s => firstOf [(!modeOk x.opcode.toNat s, no St.modeForbids), (true, no St.badParam)], run := id }

/-- An SQ_TAIL write acted on (R391): entries are submitted, HOST to NIMBUS (R395); a bad index is ring error 0x02; a failed
read of the ring is ring error 0x04 (R393). Entries that carry a stray packet at the head of the ring are then taken. -/
def sqTail (r : Fin 16) (v : Nat) (strays : List Stray) (mem : HostMem) (s : State) : State :=
  let x := ringOf s r.val
  if x.state != .running then s
  else if x.n ≤ v then dropUnread r (ringError r.val 0x02 s)
  else
    let dist := fun (a : Nat) => (a + x.n - x.head) % x.n
    if dist v < dist x.sqTail then dropUnread r (ringError r.val 0x02 s)
    else
      let s := move 0x20 1 2 (dist v - dist x.sqTail) (setRing r.val { x with sqTail := v } s)
      if mem = .readFails then dropUnread r (ringError r.val 0x04 s)
      else strays.foldl (fun s y => if y.h.src = .ring r then command (rowStray y) s else s) s

/-- SQ_TAIL. -/
def execSqTail (r : Fin 16) (v : U32) (strays : List Stray) (mem : HostMem) (s : State) : Host.Outcome State Fault Refusal :=
  ok (hostAccess (sqTail r v.toNat strays mem) s)

/-- A CQ_HEAD write acted on (R391): entries are released, HOST to NIMBUS (R395), the interrupt is re-armed and raised at once
when written entries remain (R394); in STATE 3 a write that would be a ring error is ignored. -/
def cqHead (r : Fin 16) (v : Nat) (s : State) : State :=
  let x := ringOf s r.val
  if x.state = .off ∨ !x.held then s
  else
    let k := (v + x.n - x.cqHead) % x.n
    let bad := if x.n ≤ v then 0x02 else if unreleased x < k then 0x03 else 0
    if bad ≠ 0 then (if x.state = .error then s else dropUnread r (ringError r.val bad s))
    else
      let again := x.irq && k < unreleased x
      let s := move 0x21 1 2 k (setRing r.val { x with cqHead := v, armed := !again } s)
      if again then sendMsix x.vector s else s

/-- CQ_HEAD. -/
def execCqHead (r : Fin 16) (v : U32) (s : State) : Host.Outcome State Fault Refusal := ok (hostAccess (cqHead r v.toNat) s)

/-- Renews the lease: it expires CMD_LEASE_TIME from now (R406). -/
def renewLease (s : State) : State :=
  { s with cmd := { s.cmd with lease := { s.cmd.lease with expiry := merNs s + pv s 0x0500 * 1000000 } } }

/-- LEASE_HB (R409): the host renews the lease it holds; any other write is ignored with event 0x23. -/
def leaseHb (s : State) : State :=
  if holdsLease s .host then renewLease s else raise 0x23 [(1, 1), (8, 0x4004)] s

/-- LEASE_HB. -/
def execLeaseHb (_v : U32) (s : State) : Host.Outcome State Fault Refusal := ok (hostAccess leaseHb s)

/-- SAFE_REQ (R409): a keyed write takes the actions of R317 and enters the safe hold of L4, with event 0x28; the records of
the L4 are formed under that source (R431). -/
def safeReq (v : Nat) (s : State) : State :=
  if v = 0x5AFE0001 then
    decideRecov 0x31 4 (some 0x28) (payload []) 0 .request none false
      (raise 0x28 [] s)
  else s

/-- SAFE_REQ. -/
def execSafeReq (v : U32) (s : State) : Host.Outcome State Fault Refusal := ok (hostAccess (safeReq v.toNat) s)

/-- A base register of a pair (R390): written only while STATE is 0. -/
def ringBase (r off v : Nat) (s : State) : State :=
  let x := ringOf s r
  if x.state != .off then s
  else if off = 0 then setRing r { x with sqBase := x.sqBase / 2 ^ 32 * 2 ^ 32 + v / 4096 * 4096 } s
  else if off = 4 then setRing r { x with sqBase := v * 2 ^ 32 + x.sqBase % 2 ^ 32 } s
  else if off = 8 then setRing r { x with cqBase := x.cqBase / 2 ^ 32 * 2 ^ 32 + v / 4096 * 4096 } s
  else if off = 12 then setRing r { x with cqBase := v * 2 ^ 32 + x.cqBase % 2 ^ 32 } s
  else s

/-- EVT_VMAP word `i` (R419): four vectors of five bits. -/
def vmapWrite (i v : Nat) (s : State) : State :=
  let f := fun (l : List Nat) (b : Nat) => l.set (4 * i + b) (bits v (8 * b + 4) (8 * b))
  { s with evt := { s.evt with vmap := (List.range 4).foldl f s.evt.vmap } }

/-- EVQ_BASE (R421): written only while ENABLE is 0. -/
def evqBase (hi : Bool) (v : Nat) (s : State) : State :=
  if s.evt.qEnable then s
  else { s with evt := { s.evt with qBase :=
    (if hi then v * 2 ^ 32 + s.evt.qBase % 2 ^ 32 else s.evt.qBase / 2 ^ 32 * 2 ^ 32 + v / 4096 * 4096) } }

/-- Word `k` of the MSI-X table (PCI Express Base 4.0). Unmasking a vector with its pending bit set sends its message. -/
def msixWrite (k v : Nat) (s : State) : State :=
  let v := if k % 4 = 3 then v % 2 else if k % 4 = 0 then v / 4 * 4 else v
  let s := { s with cmd := { s.cmd with msixTable := s.cmd.msixTable.set k v } }
  if k % 4 = 3 && v == 0 && s.cmd.pba.testBit (k / 4) then
    emit (.msix (k / 4)) { s with cmd := { s.cmd with pba := s.cmd.pba ^^^ 2 ^ (k / 4) } }
  else s

/-- Clears event pending bits (R419). -/
def pendWrite (i v : Nat) (s : State) : State :=
  let m := v * 2 ^ (32 * i)
  { s with evt := { s.evt with pend := s.evt.pend &&& ((2 ^ 256 - 1) ^^^ (m % 2 ^ 256)) } }

/-- EVT_PEND_WRITE (R419). -/
def execEvtPendWrite (word : Fin 8) (v : U32) (s : State) : Host.Outcome State Fault Refusal :=
  ok (hostAccess (pendWrite word.val v.toNat) s)

/-- A mask word (R419): clearing the mask of a pending source sends its message at once. -/
def maskWrite (i v : Nat) (s : State) : State :=
  let old := s.evt.mask
  let new := old - bits old (32 * i + 31) (32 * i) * 2 ^ (32 * i) + v * 2 ^ (32 * i)
  (List.range 32).foldl (fun s j =>
    let src := 32 * i + j
    if old.testBit src && !new.testBit src && s.evt.pend.testBit src then sendMsix (s.evt.vmap.getD src 0) s else s)
    { s with evt := { s.evt with mask := new } }

/-- EVT_MASK_WRITE (R419). -/
def execEvtMaskWrite (word : Fin 8) (v : U32) (s : State) : Host.Outcome State Fault Refusal :=
  ok (hostAccess (maskWrite word.val v.toNat) s)

/-- EVQ_CTL (R421): enabling sets TAIL, the head and PHASE; SIZE is written only while ENABLE is 0; ENABLE 1 with SIZE above 8
is ignored. -/
def evqCtl (v : Nat) (s : State) : State :=
  let en := bit v 31
  let sz := bits v 3 0
  if en ∧ 8 < sz then s
  else if s.evt.qEnable then { s with evt := { s.evt with qEnable := en } }
  else if en then { s with evt := { s.evt with qEnable := true, qSize := sz, qTail := 0, qHead := 0, qWritten := 0 } }
  else { s with evt := { s.evt with qSize := sz } }

/-- EVQ_CTL_WRITE (R421). -/
def execEvqCtlWrite (v : U32) (s : State) : Host.Outcome State Fault Refusal := ok (hostAccess (evqCtl v.toNat) s)

/-- EVQ_HEAD (R421): entries are released; a bad write disables the queue with event 0x25, pair 0xFF. -/
def evqHead (v : Nat) (s : State) : State :=
  if !s.evt.qEnable then s
  else
    let n := evqN s
    let k := (v + n - s.evt.qHead) % n
    let bad := if n ≤ v then 0x02 else if (s.evt.qTail + n - s.evt.qHead) % n < k then 0x03 else 0
    if bad = 0 then { s with evt := { s.evt with qHead := v } }
    else raise 0x25 [(1, 0xFF), (1, bad)] { s with evt := { s.evt with qEnable := false } }

/-- EVQ_HEAD. -/
def execEvqHead (v : U32) (s : State) : Host.Outcome State Fault Refusal := ok (hostAccess (evqHead v.toNat) s)

/-- A read of EVQ_DROPPED returns the count and clears it (R421). -/
def execEvqDroppedRead (s : State) : Host.Outcome State Fault Refusal :=
  ok (hostAccess (fun s => emit (.regRead 0x2214 (s.evt.dropped % 2 ^ 32)) { s with evt := { s.evt with dropped := 0 } }) s)

/-- The millisecond of Meridian time in which a coalesced source fired ends (R420). -/
def execCoalesceMsEnd (s : State) : Host.Outcome State Fault Refusal :=
  ok (match sortBy (fun (c : SrcCount) => c.ms) (s.evt.counts.filter (fun c => c.coalesced)) with
    | [] => s
    | c :: _ =>
      let s := advanceMer ((c.ms + 1) * 1000000) s
      (s.evt.counts.filter (fun x => x.coalesced && x.ms == c.ms)).foldl (fun s x => coalesceEnd x s) s)

/-- A BAR0 write routed to its register (R389); offsets not listed, and read-only registers, are ignored. -/
def regWrite (off v : Nat) (s : State) : State :=
  if off % 4 ≠ 0 then s
  else if 0x0100 ≤ off ∧ off < 0x0300 then
    let r := (off - 0x0100) / 0x20
    let o := (off - 0x0100) % 0x20
    if o < 0x10 then ringBase r o v s
    else if o = 0x10 then (if bit v 31 then ringEnable r v s else ringDisable (Fin.ofNat 16 r) v s) else s
  else if 0x1000 ≤ off ∧ off < 0x1080 then
    let r := Fin.ofNat 16 ((off - 0x1000) / 8)
    if off % 8 = 0 then sqTail r v [] .ok s else cqHead r v s
  else if 0x2000 ≤ off ∧ off < 0x2020 then pendWrite ((off - 0x2000) / 4) v s
  else if 0x2020 ≤ off ∧ off < 0x2040 then maskWrite ((off - 0x2020) / 4) v s
  else if 0x2100 ≤ off ∧ off < 0x2200 then vmapWrite ((off - 0x2100) / 4) v s
  else if off = 0x2200 then evqBase false v s
  else if off = 0x2204 then evqBase true v s
  else if off = 0x2208 then evqCtl v s
  else if off = 0x2210 then evqHead v s
  else if off = 0x4004 then leaseHb s
  else if off = 0x4008 then safeReq v s
  else if 0x8000 ≤ off ∧ off < 0x8200 then msixWrite ((off - 0x8000) / 4) v s
  else s

/-- REGISTER_WRITE (R389). -/
def execRegisterWrite (off : U16) (v : U32) (s : State) : Host.Outcome State Fault Refusal :=
  ok (hostAccess (regWrite off.toNat v.toNat) s)

/-- A 64-bit register by the offset of its low word: its value (R6). -/
def reg64 (off : Nat) (s : State) : Option Nat :=
  if 0x0100 ≤ off ∧ off < 0x0300 ∧ (off - 0x0100) % 0x20 = 0 then some (ringOf s ((off - 0x0100) / 0x20)).sqBase
  else if 0x0100 ≤ off ∧ off < 0x0300 ∧ (off - 0x0100) % 0x20 = 8 then some (ringOf s ((off - 0x0100) / 0x20)).cqBase
  else if off = 0x2200 then some s.evt.qBase
  else if off = 0x9000 then some s.cmd.pba
  else if 0x8000 ≤ off ∧ off < 0x8200 ∧ off % 16 = 0 then
    let k := (off - 0x8000) / 4
    some (s.cmd.msixTable.getD k 0 + s.cmd.msixTable.getD (k + 1) 0 * 2 ^ 32)
  else none

/-- A read of the low word of a 64-bit register latches its high word for the master (R6). BAR0 is the host's. -/
def execReg64LowRead (m : Master) (off : U16) (s : State) : Host.Outcome State Fault Refusal :=
  ok (if m = .sideBand then s
    else hostAccess (fun s => match reg64 off.toNat s with
      | none => s
      | some v => emit (.regRead off.toNat (v % 2 ^ 32))
          { s with cmd := { s.cmd with hi64 := assocSet s.cmd.hi64 (off.toNat + 4) (v / 2 ^ 32) } }) s)

end Sys2Proof.Machine
end

