-- ==== Sys2Proof/Machine/Lease.lean ====
section
/-! DEFINITION. NOP and GET_INFO (R412), the control lease (R406 to R408), and the host's link (R387, R388). -/

namespace Sys2Proof.Machine

/-! ## NOP and GET_INFO -/

/-- NOP as a row. -/
def rowNop (h : Hdr) : Row :=
  { i := .nop h, h := h, opc := 0x0001, plens := [0],
    chk := fun s => firstOf [(!modeOk 0x0001 s, no St.modeForbids)],
    run := finish h 0x0001 (okay) }

/-- NOP (R412). -/
def execNop (h : Hdr) (s : State) : Host.Outcome State Fault Refusal := ok (command (rowNop h) s)

/-- DEV_STATE (R389). -/
def devState (s : State) : Nat :=
  modeNum s.mode.mode + b2n s.mode.safeHold * 2 ^ 8 + b2n s.cmd.ready * 2 ^ 9 +
    b2n (decide (3 ≤ s.dmc.state)) * 2 ^ 10 + lifeState s * 2 ^ 16

/-- FW_VERSION (R389): no image runs in Dormant. -/
def fwVersion (s : State) : Nat := if mainOn s then runVersion s else Config.dormantVersion

/-- The pages of GET_INFO (R412). -/
def infoPage (page : Nat) (s : State) : Option Verdict :=
  match page with
  | 0 => some (okay 0x5A4C9624 (0x41 + devState s * 2 ^ 8) (fwVersion s))
  | 1 => some (okay (otherVersion s) (rollbackValue s) (16 + 32 * 2 ^ 8 + 64 * 2 ^ 16))
  | 2 => some (okay (dmcCapacity s / 2 ^ 20) catalogue.length)
  | _ => none

/-- GET_INFO as a row. -/
def rowGetInfo (h : Hdr) (p : GetInfoP) : Row :=
  { i := .getInfo h p, h := h, opc := 0x0002, plens := [1],
    chk := fun s => firstOf
      [(!modeOk 0x0002 s, no St.modeForbids), (p.rsv != 0 || (infoPage p.page.toNat s).isNone, no St.badParam)],
    run := fun s => finish h 0x0002 ((infoPage p.page.toNat s).getD (no St.badParam)) s }

/-- GET_INFO (R412). -/
def execGetInfo (h : Hdr) (p : GetInfoP) (s : State) : Host.Outcome State Fault Refusal := ok (command (rowGetInfo h p) s)

/-! ## The lease -/

/-- The lease expires once its time has passed: event 0x21; its holder loses its partition unlocks (R408, R468). -/
def expireLease (s : State) : State :=
  match s.cmd.lease.holder with
  | none => s
  | some m =>
    if merNs s < s.cmd.lease.expiry then s
    else dropUnlocks m (raise 0x21 [] { s with cmd := { s.cmd with lease := { last := some m } } })

/-- The other master. -/
def otherMaster : Master → Master
  | .host => .sideBand
  | .sideBand => .host

/-- Held commands of a master that has lost the lease to the other end NO_LEASE (R404). -/
def endHeldOf (m : Master) (s : State) : State :=
  let gone := s.cmd.sched.filter (fun e => masterOf e.h.src == m)
  finishAll (gone.map (fun e => (e.h, e.opcode))) (no St.noLease)
    { s with cmd := { s.cmd with sched := s.cmd.sched.filter (fun e => masterOf e.h.src != m) } }

/-- A firmware update of a master ends as the lease passes to the other (R524). -/
def endUpdateOf (m : Master) (s : State) : State :=
  match s.sec.update with
  | some u => if u.owner = m then endUpdate (some St.abortedReset) false s else s
  | none => s

/-- The lease is granted (R407): event 0x20; what the other master had under it ends. -/
def grantLease (m : Master) (forced : Bool) (s : State) : State :=
  let s := renewLease { s with cmd := { s.cmd with lease := { holder := some m, forced := forced, last := some m } } }
  let s := raise 0x20 [(1, masterCode m), (1, b2n forced)] s
  let o := otherMaster m
  endUpdateOf o (endHeldOf o (dropUnlocks o s))

/-- What LEASE_TAKE comes to (R407). -/
inductive Take where
  | grant (forced : Bool)
  | renew
  | refuse (v : Verdict)
deriving DecidableEq, Repr

/-- The table of R407. -/
def decideTake (m : Master) (force : Bool) (s : State) : Take :=
  match s.cmd.lease.holder with
  | none => .grant false
  | some o =>
    if s.cmd.lease.expiry ≤ merNs s then .grant false
    else if o = m then .renew
    else if !force then .refuse ⟨St.noLease, masterCode o, (s.cmd.lease.expiry - merNs s) / 1000000, 0⟩
    else if (m == .sideBand && !s.cmd.up) || authHeld m s then .grant true
    else .refuse (no St.authFail)

/-- The effect of a LEASE_TAKE that passes its checks. -/
def runTake (h : Hdr) (p : LeaseTakeP) (s : State) : State :=
  let m := masterOf h.src
  let good := fun (f : Bool) => okay (masterCode m) (pv s 0x0500) (b2n f)
  match decideTake m (p.b0.toNat.testBit 0) s with
  | .refuse v => finish h 0x0005 v s
  | .renew => finish h 0x0005 (good false) (renewLease s)
  | .grant f => finish h 0x0005 (good f) (grantLease m f s)

/-- LEASE_TAKE as a row. -/
def rowLeaseTake (h : Hdr) (p : LeaseTakeP) : Row :=
  { i := .leaseTake h p, h := h, opc := 0x0005, plens := [1], pre := expireLease,
    chk := fun s => firstOf [(!modeOk 0x0005 s, no St.modeForbids), (1 < p.b0.toNat || p.rsv != 0, no St.badParam)],
    run := runTake h p }

/-- LEASE_TAKE (R407). -/
def execLeaseTake (h : Hdr) (p : LeaseTakeP) (s : State) : Host.Outcome State Fault Refusal :=
  ok (command (rowLeaseTake h p) s)

/-- The master may renew (R408): it holds the lease, or its lease expired and no other has taken it since. -/
def mayRenew (m : Master) (s : State) : Bool :=
  s.cmd.lease.holder == some m || (s.cmd.lease.holder == none && s.cmd.lease.last == some m)

/-- LEASE_RENEW as a row. -/
def rowLeaseRenew (h : Hdr) : Row :=
  let m := masterOf h.src
  { i := .leaseRenew h, h := h, opc := 0x0006, plens := [0], pre := expireLease,
    chk := fun s => firstOf [(!modeOk 0x0006 s, no St.modeForbids), (!mayRenew m s, no St.noLease)],
    run := fun s => finish h 0x0006 (okay)
      (renewLease { s with cmd := { s.cmd with lease := { s.cmd.lease with holder := some m } } }) }

/-- LEASE_RENEW (R408). -/
def execLeaseRenew (h : Hdr) (s : State) : Host.Outcome State Fault Refusal := ok (command (rowLeaseRenew h) s)

/-- LEASE_RELEASE as a row. -/
def rowLeaseRelease (h : Hdr) : Row :=
  let m := masterOf h.src
  { i := .leaseRelease h, h := h, opc := 0x0007, plens := [0], pre := expireLease,
    chk := fun s => firstOf [(!modeOk 0x0007 s, no St.modeForbids), (!holdsLease s m, no St.noLease)],
    run := fun s => raise 0x22 [] (finish h 0x0007 (okay) (endLease s)) }

/-- LEASE_RELEASE (R408). -/
def execLeaseRelease (h : Hdr) (s : State) : Host.Outcome State Fault Refusal := ok (command (rowLeaseRelease h) s)

/-- CMD_LEASE_EXPIRED (R406, R408): CMD_LEASE_TIME has passed since the lease was last taken or renewed. -/
def execCmdLeaseExpired (s : State) : Host.Outcome State Fault Refusal :=
  ok (if s.cmd.lease.holder.isNone then s else expireLease (advanceMer s.cmd.lease.expiry s))

/-! ## The host's link -/

/-- What a reset of the function returns to reset: a conventional reset the event words and the event queue (R419, R421), and
either reset the MSI-X table (PCI Express Base 4.0; PRESUMED, log entry 20). -/
def functionReset (why : LinkDown) (s : State) : State :=
  match why with
  | .dlDown => s
  | .functionReset => { s with cmd := { s.cmd with msixTable := (List.replicate 32 [0, 0, 0, 1]).flatten, pba := 0 } }
  | .conventionalReset =>
    { s with
      cmd := { s.cmd with msixTable := (List.replicate 32 [0, 0, 0, 1]).flatten, pba := 0 }
      evt := { s.evt with pend := 0, mask := 2 ^ 256 - 1, qBase := 0, qEnable := false, qSize := 0, qTail := 0, qWritten := 0,
                          qHead := 0, dropped := 0, seqReg := 0 } }

/-- PCIE_LINK_DOWN (R388): the host's link goes down, by DL_Down, a conventional reset or a function-level reset. -/
def execPcieLinkDown (why : LinkDown) (s : State) : Host.Outcome State Fault Refusal :=
  ok (if mainOn s then functionReset why (hostDown s) else s)

/-- PCIE_LINK_UP (R388): DL_Up; there is no link in Dormant. -/
def execPcieLinkUp (s : State) : Host.Outcome State Fault Refusal :=
  ok (if !mainOn s || s.cmd.up then s
    else { s with cmd := { s.cmd with up := true, l1 := false, lostRaised := false, lastHost := s.time.ref } })

/-- An overlay with KIND 0 is enabled (R387). -/
def hostOverlay (s : State) : Bool := s.scn.layers.any (fun l => l.on && l.isHost)

/-- ASPM_L1_ENTRY (R387): 10 µs have passed with no transaction; the module requests L1. -/
def execAspmL1Entry (s : State) : Host.Outcome State Fault Refusal :=
  ok (if !s.cmd.up || s.cmd.l1 || hostOverlay s then s
    else
      let s := advanceRef (s.cmd.lastHost + 10000) s
      emit .aspmL1 { s with cmd := { s.cmd with l1 := true } })

end Sys2Proof.Machine
end

