-- ==== Sys2Proof/Machine/Meridian.lean ====
section
/-! DEFINITION. The commands of chapter 09: reading, setting and steering Meridian time, the time-protocol ports, timers and
the pulse per second. -/

namespace Sys2Proof.Machine

/-- TIME_GET as a row (R270). -/
def rowTimeGet (h : Hdr) : Row :=
  { i := .timeGet h, h := h, opc := 0x0601, plens := [0], chk := fun _ => none,
    run := fun s => finish h 0x0601
      (okay (s.time.mer % fracOne / 2 ^ 32 + tsCode s.time.state * 2 ^ 16)
        (if pv s 0x0300 = 0 then 0 else unsigned 32 s.time.offset)
        (unsigned 32 (floorDiv (foffNow s * nsPerSec + (2 ^ 40 : Nat)) (2 ^ 41 : Nat)))) s }

/-- TIME_GET: visible fraction and state, latest offset, frequency offset in 1/256 ppb (R270). -/
def execTimeGet (h : Hdr) (s : State) : Host.Outcome State Fault Refusal := ok (command (rowTimeGet h) s)

/-- TIME_SOURCE is 1 and a port is SLAVE or UNCALIBRATED (R271). -/
def ptpSteers (s : State) : Bool :=
  pv s 0x0300 == 1 && s.time.ports.any (fun p => p.portState == 9 || p.portState == 8)

/-- Largest Meridian time: 2⁴⁸ − 1 s and the last nanosecond of it (R271). -/
def maxMer : Nat := 2 ^ 48 * nsPerSec - 1

/-- The effect TIME_SET OP 0 and OP 1 share (R271): a slew ends, the time is stepped by Δ ns (a Δ of 0 is no step), UNSET
becomes FREE, and the reply gives Δ and the state. -/
def timeSetBy (h : Hdr) (d : Int) (s : State) : State :=
  let s := endSlew s
  let s := stepTime (4 * d) 1 s
  let s := if s.time.state = .unset then setTimeState .free s else s
  finish h 0x0602 (okay (lo32 d) (hi32 d) (tsCode s.time.state)) s

/-- TIME_SET OP 0 as a row. -/
def rowTimeSetAbsolute (h : Hdr) (p : TimeSetP) : Row :=
  { i := .timeSetAbsolute h p, h := h, opc := 0x0602, plens := [4],
    chk := fun s => firstOf
      [(!modeOk 0x0602 s, no St.modeForbids), (ptpSteers s, ⟨St.busy, 1, 0, 0⟩),
       (p.rsv != 0 || p.rsv2 != 0 || p.delta != 0 || !mtOk p.time, no St.badParam)],
    run := fun s => timeSetBy h ((mtOf p.time : Int) - merNs s) s }

/-- TIME_SET OP 0 (R271). -/
def execTimeSetAbsolute (h : Hdr) (p : TimeSetP) (s : State) : Host.Outcome State Fault Refusal :=
  ok (command (rowTimeSetAbsolute h p) s)

/-- TIME_SET OP 1 as a row. -/
def rowTimeSetRelative (h : Hdr) (p : TimeSetP) : Row :=
  { i := .timeSetRelative h p, h := h, opc := 0x0602, plens := [4],
    chk := fun s =>
      let r := (merNs s : Int) + signed 64 p.delta.toNat
      firstOf
      [(!modeOk 0x0602 s, no St.modeForbids), (ptpSteers s, ⟨St.busy, 1, 0, 0⟩),
       (p.rsv != 0 || p.rsv2 != 0 || p.delta == 0 || p.time.sec != 0 || p.time.ns != 0 ||
         decide (r < 0) || decide ((maxMer : Int) < r), no St.badParam)],
    run := fun s => timeSetBy h (signed 64 p.delta.toNat) s }

/-- TIME_SET OP 1 (R271). -/
def execTimeSetRelative (h : Hdr) (p : TimeSetP) (s : State) : Host.Outcome State Fault Refusal :=
  ok (command (rowTimeSetRelative h p) s)

/-- TIME_SET OP 2 as a row: it waits for the next used edge. -/
def rowTimeSetAtPps (h : Hdr) (p : TimeSetP) : Row :=
  { i := .timeSetAtPps h p, h := h, opc := 0x0602, plens := [4],
    chk := fun s => firstOf
      [(!modeOk 0x0602 s, no St.modeForbids), (ptpSteers s, ⟨St.busy, 1, 0, 0⟩),
       (p.rsv != 0 || p.rsv2 != 0 || p.delta != 0 || p.time.ns != 0, no St.badParam),
       (s.time.ppsMasked || pv s 0x0300 != 2, no St.notPresent)],
    run := fun s =>
      let s := endSlew s
      let s := match s.time.ppsSet with | some w => finish w.h 0x0602 (no St.busy) s | none => s
      accepted h 0x0602 0 { s with time := { s.time with ppsSet := some ⟨h, p.time.sec.toNat, s.time.ref + 1500000000⟩ } } }

/-- TIME_SET OP 2 (R271). -/
def execTimeSetAtPps (h : Hdr) (p : TimeSetP) (s : State) : Host.Outcome State Fault Refusal :=
  ok (command (rowTimeSetAtPps h p) s)

/-- No edge has been used within 1.5 s of a TIME_SET OP 2: it completes DEADLINE_MISSED (R271). -/
def execTimeSetPpsTimeout (s : State) : Host.Outcome State Fault Refusal :=
  ok (match s.time.ppsSet with
    | none => s
    | some w =>
      let s := advanceRef w.until_ s
      finish w.h 0x0602 (no St.deadlineMissed) { s with time := { s.time with ppsSet := none } })

/-- TIME_ADJUST OP 0 as a row (R272). -/
def rowTimeAdjustSlew (h : Hdr) (p : TimeAdjustP) : Row :=
  { i := .timeAdjustSlew h p, h := h, opc := 0x0603, plens := [2],
    chk := fun s =>
      let d := signed 64 p.delta.toNat
      firstOf
      [(!modeOk 0x0603 s, no St.modeForbids), (pv s 0x0300 != 0, ⟨St.busy, 1, 0, 0⟩),
       (p.rsv != 0 || p.freq != 0 || decide ((pv s 0x0303 : Int) < d) || decide (d < -(pv s 0x0303 : Int)), no St.badParam)],
    run := fun s =>
      let s := endSlew s
      accepted h 0x0603 0 { s with time := { s.time with slew := some ⟨h, signed 64 p.delta.toNat, s.time.ref⟩ } } }

/-- TIME_ADJUST OP 0: an offset is removed by running 40 ppm off (R272). -/
def execTimeAdjustSlew (h : Hdr) (p : TimeAdjustP) (s : State) : Host.Outcome State Fault Refusal :=
  ok (command (rowTimeAdjustSlew h p) s)

/-- TIME_ADJUST OP 1 as a row (R272). -/
def rowTimeAdjustFrequency (h : Hdr) (p : TimeAdjustP) : Row :=
  { i := .timeAdjustFrequency h p, h := h, opc := 0x0603, plens := [2],
    chk := fun s =>
      let f := signed 32 p.freq.toNat
      firstOf
      [(!modeOk 0x0603 s, no St.modeForbids), (pv s 0x0300 != 0, ⟨St.busy, 1, 0, 0⟩),
       (p.rsv != 0 || p.delta != 0 || decide (11520000 < f) || decide (f < -11520000), no St.badParam)],
    run := fun s =>
      let s := endSlew s
      finish h 0x0603 (okay) { s with time := { s.time with
        foff := floorDiv (signed 32 p.freq.toNat * (2 ^ 41 : Nat)) nsPerSec } } }

/-- TIME_ADJUST OP 1: the frequency offset is set (R272). -/
def execTimeAdjustFrequency (h : Hdr) (p : TimeAdjustP) (s : State) : Host.Outcome State Fault Refusal :=
  ok (command (rowTimeAdjustFrequency h p) s)

/-- A slew has removed its offset: its command completes OK (R272). -/
def execSlewDone (s : State) : Host.Outcome State Fault Refusal :=
  ok (match s.time.slew with
    | none => s
    | some w =>
      let s := advanceRef (w.since + w.left.natAbs * 25000) s
      finish w.h 0x0603 (okay) { s with time := { s.time with slew := none } })

/-- Fields of PTP_PORT_CFG in range (R278). -/
def ptpFields (p : PtpPortCfgP) : Bool :=
  let ls := signed 8 p.logSync.toNat
  let la := signed 8 p.logAnnounce.toNat
  let a := signed 32 p.asym.toNat
  p.port.toNat ≤ 7 && p.profile.toNat ≤ 3 && p.flags.toNat < 8 && p.domain.toNat ≤ 127 && decide (-7 ≤ ls) &&
  decide (ls ≤ 1) && decide (-3 ≤ la) && decide (la ≤ 4) && p.txLat.toNat ≤ 4000 && p.rxLat.toNat ≤ 4000 &&
  decide (-400000 ≤ a) && decide (a ≤ 400000) && p.rsv == 0 && !(p.flags.toNat.testBit 0 && p.flags.toNat.testBit 1) &&
  !(p.flags.toNat.testBit 2 && p.profile == 1)

/-- The settings that every enabled port shares differ from those of another enabled port (R278). -/
def ptpConflict (p : PtpPortCfgP) (s : State) : Bool :=
  p.profile != 0 && (List.range 8).any (fun q =>
    let x := ptpOf s q
    q != p.port.toNat && x.profile != 0 &&
    (x.profile != p.profile.toNat || x.domain != p.domain.toNat || x.prio1 != p.prio1.toNat || x.prio2 != p.prio2.toNat))

/-- PTP_PORT_CFG as a row (R278). -/
def rowPtpPortCfg (h : Hdr) (p : PtpPortCfgP) : Row :=
  { i := .ptpPortCfg h p, h := h, opc := 0x0606, plens := [3],
    chk := fun s => firstOf
      [(!modeOk 0x0606 s, no St.modeForbids), (!ptpFields p || ptpConflict p s, no St.badParam),
       (!netConfigured s p.port.toNat || (p.profile != 0 && pv s 0x1000 == 0), no St.notPresent)],
    run := fun s =>
      let port := p.port.toNat
      let old := (ptpOf s port).portState
      let s := setPtp port {
        profile := p.profile.toNat, flags := p.flags.toNat, domain := p.domain.toNat,
        logSync := signed 8 p.logSync.toNat, logAnnounce := signed 8 p.logAnnounce.toNat, prio1 := p.prio1.toNat,
        prio2 := p.prio2.toNat, txLat := p.txLat.toNat, rxLat := p.rxLat.toNat, asym := signed 32 p.asym.toNat,
        portState := old, nextSync := merNs s, nextAnnounce := merNs s, nextDelay := merNs s } s
      let s := setPortState port (if p.profile = 0 then 0 else 4) s
      let s := if old = 9 then { s with time := { s.time with slaveLast := s.time.ref } } else s
      finish h 0x0606 (okay (ptpOf s port).portState) s }

/-- PTP_PORT_CFG: a port's profile, roles and latencies (R278). -/
def execPtpPortCfg (h : Hdr) (p : PtpPortCfgP) (s : State) : Host.Outcome State Fault Refusal :=
  ok (command (rowPtpPortCfg h p) s)

/-- The slave port has completed an exchange: it leaves UNCALIBRATED, and the offset is measured while TIME_SOURCE is 1
(R267). -/
def slaveOffset (port : Nat) (th : Int) (s : State) : State :=
  let s := setPortState port 9 s
  if pv s 0x0300 = 1 then measure th s else s

/-- A PTP message arrives on an enabled port (R274): Announce feeds the choice of the best clock; Sync and Delay_Resp give
the path delay and the offset end to end; with gPTP the peer delay is measured and every Sync gives an offset. -/
def ptpReceive (port : Nat) (m : PtpMsg) (s : State) : State :=
  let x := ptpOf s port
  if x.profile = 0 ∨ !mainOn s then s
  else match m with
  | .announce p1 c a v p2 gm =>
    runBmca (setPtp port { x with foreign := some ⟨p1, c, a, v, p2, gm.toNat⟩, lastAnnounce := s.time.ref } s)
  | .sync t1 t2 corr =>
    let d : Int := (t2 : Int) - x.rxLat - t1 - corr
    let s := setPtp port { x with syncDiff := some d } s
    if x.profile = 1 ∧ (x.portState = 8 ∨ x.portState = 9) then slaveOffset port (d - x.pathDelay - x.asym) s else s
  | .delayResp t3 t4 corr =>
    match x.syncDiff with
    | none => s
    | some d =>
      if x.profile = 1 ∨ ¬ (x.portState = 8 ∨ x.portState = 9) then s
      else
        let back : Int := (t4 : Int) - (t3 + x.txLat) - corr
        let mean := floorDiv (d + back) 2
        slaveOffset port (d - mean - x.asym) (setPtp port { x with pathDelay := mean } s)
  | .peerDelay t1 t2 t3 t4 =>
    if x.profile = 1 then
      let r : Int := ((t4 : Int) - x.rxLat) - (t1 + x.txLat)
      setPtp port { x with pathDelay := floorDiv (r - ((t3 : Int) - t2)) 2 } s
    else s

/-- A PTP message is received and stamped (R273, R274). -/
def execPtpEventMessage (port : Fin 8) (m : PtpMsg) (s : State) : Host.Outcome State Fault Refusal :=
  ok (ptpReceive port.val m s)

/-- The clockClass a port announces: the followed grandmaster's, or the module's own (R275). -/
def sentClass (s : State) : Nat :=
  match bestPort s with
  | some p => (match (ptpOf s p).foreign with | some f => f.cls | none => ownClass s)
  | none => ownClass s

/-- A port's interval expires and it sends its message (R275): Sync and Announce as MASTER, a delay request as SLAVE or
UNCALIBRATED; the egress stamp is the time at the contact + TX_LAT (R273). -/
def ptpSend (port : Nat) (k : PtpTxKind) (s : State) : State :=
  let x := ptpOf s port
  let slave := x.portState = 8 ∨ x.portState = 9
  if x.profile = 0 ∨ !mainOn s then s
  else match k with
  | .sync =>
    if x.portState ≠ 6 then s
    else
      let s := advanceMer x.nextSync s
      emit (.ptpTx port 0 (merNs s * 4 + x.txLat) (sentClass s) s.time.gmId)
        (setPtp port { x with nextSync := max (merNs s) x.nextSync + logInterval x.logSync } s)
  | .announce =>
    if x.portState ≠ 6 then s
    else
      let s := advanceMer x.nextAnnounce s
      emit (.ptpTx port 1 (merNs s * 4 + x.txLat) (sentClass s) s.time.gmId)
        (setPtp port { x with nextAnnounce := max (merNs s) x.nextAnnounce + logInterval x.logAnnounce } s)
  | .delayReq =>
    if ¬ slave then s
    else
      let s := advanceMer x.nextDelay s
      emit (.ptpTx port 2 (merNs s * 4 + x.txLat) (sentClass s) s.time.gmId)
        (setPtp port { x with nextDelay := max (merNs s) x.nextDelay + logInterval x.logSync } s)

/-- PTP_MESSAGE_TX (R275). -/
def execPtpMessageTx (port : Fin 8) (kind : PtpTxKind) (s : State) : Host.Outcome State Fault Refusal :=
  ok (ptpSend port.val kind s)

/-- The announce interval of the enabled ports in ns; one second when none is enabled. -/
def announceInterval (s : State) : Nat :=
  match s.time.ports.find? (fun p => p.profile != 0) with
  | some p => logInterval p.logAnnounce
  | none => nsPerSec

/-- The source is lost: event 0x32, and LOCKED becomes HOLDOVER (R268). -/
def loseSource (s : State) : State :=
  let s := raise 0x32 [] { s with time := { s.time with sourceLost := true } }
  if s.time.state = .locked then
    let s := setTimeState .holdover s
    { s with time := { s.time with holdSince := s.time.ref } }
  else s

/-- The source is lost at its bound (R268): with TIME_SOURCE 1, first the slave port loses its master after three announce
intervals without an Announce, and the source is lost three intervals after no port is SLAVE; with TIME_SOURCE 2, 1.5 s
after the last used edge. -/
def execTimeSourceLost (s : State) : Host.Outcome State Fault Refusal :=
  ok (if s.time.sourceLost then s
    else if pv s 0x0300 = 1 then
      if anySlave s then
        match (List.range 8).find? (fun p => (ptpOf s p).portState == 9) with
        | none => s
        | some p =>
          let s := advanceRef ((ptpOf s p).lastAnnounce + 3 * announceInterval s) s
          let s := runBmca (setPtp p { ptpOf s p with foreign := none, syncDiff := none } s)
          { s with time := { s.time with slaveLast := s.time.ref } }
      else loseSource (advanceRef (s.time.slaveLast + 3 * announceInterval s) s)
    else if pv s 0x0300 = 2 then loseSource (advanceRef (s.time.ppsUsed.getD 0 + 1500000000) s)
    else s)

/-- HOLDOVER has lasted TIME_HOLDOVER seconds: FREE, event 0x33 (R268). -/
def execTimeHoldoverEnd (s : State) : Host.Outcome State Fault Refusal :=
  ok (if s.time.state = .holdover then
      raise 0x33 [] (setTimeState .free (advanceRef (s.time.holdSince + pv s 0x0304 * nsPerSec) s))
    else s)

/-- The lowest timer index that is neither armed nor held by the Horizon alarm. -/
def freeTimer (s : State) : Option Nat :=
  (List.range 64).find? (fun i => !(s.time.timers ++ s.time.alarms).any (fun t => t.idx == i))

/-- TIMER_ARM as a row (R280). -/
def rowTimerArm (h : Hdr) (p : TimerArmP) : Row :=
  { i := .timerArm h p, h := h, opc := 0x0604, plens := [4],
    chk := fun s =>
      let per := p.flags.toNat.testBit 0
      let wake := p.flags.toNat.testBit 1
      firstOf
      [(!modeOk 0x0604 s, no St.modeForbids),
       ((freeTimer s).isNone || (wake && 4 ≤ ((s.time.timers ++ s.time.alarms).filter (fun (t : Timer) => t.wake)).length),
         no St.noSpace),
       (p.flags.toNat > 3 || p.rsv != 0 || p.rsv2 != 0 || !mtOk p.t || (wake && per) ||
         (per && (p.period.toNat < 100000 || 2 ^ 40 < p.period.toNat)) || (!per && p.period != 0), no St.badParam),
       (mtOf p.t < merNs s && !asapIfLate h, no St.timePassed)],
    run := fun s =>
      match freeTimer s with
      | none => s
      | some i =>
        let t : Timer := ⟨i, genOf s 0xF2 i, mtOf p.t, p.period.toNat, p.cookie.toNat, p.flags.toNat.testBit 1, 0, 0⟩
        let s := move 0xF2 0 1 1 { s with time := { s.time with timers := s.time.timers ++ [t] } }
        let s := if t.t < merNs s then
            -- the firing stands for T; later expiries up to now are skipped
            let past := if t.period = 0 then 0 else (merNs s - t.t) / t.period
            let s := lateAction t.t (timerEvent t (b2n (t.t + 1000 ≤ merNs s)) s)
            if t.period = 0 then dropTimer i s
            else { s with time := { s.time with timers := s.time.timers.map (fun x =>
              if x.idx = i then { x with t := t.t + (past + 1) * t.period, firings := 1, skipped := past } else x) } }
          else s
        finish h 0x0604 (okay (handle 0xF2 i t.gen)) s }

/-- TIMER_ARM (R280). -/
def execTimerArm (h : Hdr) (p : TimerArmP) (s : State) : Host.Outcome State Fault Refusal := ok (command (rowTimerArm h p) s)

/-- The armed timer a handle names. -/
def timerOf (s : State) (hd : Nat) : Option Timer :=
  (s.time.timers ++ s.time.alarms).find? (fun t => hd == handle 0xF2 t.idx t.gen)

/-- TIMER_CANCEL as a row (R281). -/
def rowTimerCancel (h : Hdr) (p : HandleP) : Row :=
  { i := .timerCancel h p, h := h, opc := 0x0605, plens := [1],
    chk := fun s => firstOf
      [(!modeOk 0x0605 s, no St.modeForbids), (p.rsv != 0, no St.badParam),
       ((timerOf s p.handle.toNat).isNone, no St.badHandle)],
    run := fun s => match timerOf s p.handle.toNat with
      | none => s
      | some t => finish h 0x0605 (okay t.firings t.skipped) (dropTimer t.idx s) }

/-- TIMER_CANCEL (R281). -/
def execTimerCancel (h : Hdr) (p : HandleP) (s : State) : Host.Outcome State Fault Refusal := ok (command (rowTimerCancel h p) s)

/-- A timer reaches its expiry and fires (R279, R282). -/
def execTimeTimer (timer : Fin 64) (s : State) : Host.Outcome State Fault Refusal :=
  ok (match s.time.timers.find? (fun t => t.idx == timer.val) with
    | none => s
    | some t => if s.hwd.quiesce.isSome then s else fireTimer t (advanceMer t.t s))

/-! ## Pulse per second -/

/-- The offset of a stamp (0.25 ns) from the nearest whole second (R284). -/
def ppsOffset (stamp : Int) : Int :=
  let s4 : Int := (4 * nsPerSec : Nat)
  stamp - floorDiv (stamp + 2 * nsPerSec) s4 * s4

/-- A used edge (R284, R271): a pending TIME_SET OP 2 sets the time of the edge; otherwise, with TIME_SOURCE 2, the edge's
offset is a measurement. -/
def usePps (stamp : Int) (s : State) : State :=
  let s := { s with time := { s.time with ppsUsed := some s.time.ref, ppsLostRaised := false } }
  match s.time.ppsSet with
  | some w =>
    let d4 : Int := (w.sec * nsPerSec * 4 : Nat) - stamp
    let d := floorDiv d4 4
    let s := stepTime (4 * d) 1 { s with time := { s.time with ppsSet := none } }
    let s := if s.time.state = .unset then setTimeState .free s else s
    finish w.h 0x0602 (okay (lo32 d) (hi32 d) (tsCode s.time.state)) s
  | none => if pv s 0x0300 = 2 then measure (ppsOffset stamp) s else s

/-- The time since the last edge that was not too early; a first edge counts as after a missing one. -/
def ppsGap (s : State) : Nat := match s.time.ppsLast with | some t => s.time.ref - t | none => 1500000000

/-- Event 0x37 is due: the last one is a second old (R283). -/
def bounceDue (s : State) : Bool := match s.time.ppsBounce with | some t => decide (t + nsPerSec ≤ s.time.ref) | none => true

/-- An edge too early is not used; any other becomes the last one, and is used unless edges have been missing (R283, R284). -/
def ppsJudged (stamp : Nat) (s : State) : State :=
  if s.time.ppsMasked then s
  else if ppsGap s < 500000000 then
    (if bounceDue s then raise 0x37 [] { s with time := { s.time with ppsBounce := some s.time.ref } } else s)
  else if ppsGap s < 1500000000 then
    usePps ((stamp : Int) - pvs s 32 0x0311) { s with time := { s.time with ppsLast := some s.time.ref } }
  else raise 0x39 [] { s with time := { s.time with ppsLast := some s.time.ref } }

/-- The edge is counted in PPS_IN_EDGES, then judged. -/
def ppsCounted (stamp : Nat) (s : State) : State :=
  ppsJudged stamp { s with time := { s.time with ppsEdges := s.time.ppsEdges + 1 } }

/-- An active edge on PPS_IN with its contact stamp (0.25 ns) and the length of its active level in ns (R283): glitches,
bounces, used edges and new series. -/
def ppsEdge (stamp width : Nat) (s : State) : State :=
  if !mainOn s then s
  else if width < 100 then { s with time := { s.time with ppsGlitches := s.time.ppsGlitches + 1 } }
  else ppsCounted stamp (advanceMer (stamp / 4) s)

/-- PPS_IN_EDGE (R283). -/
def execPpsInEdge (stamp width : Nat) (s : State) : Host.Outcome State Fault Refusal := ok (ppsEdge stamp width s)

/-- PPS_IN's active level has lasted 1.0 s: the input is masked, event 0x38 (R283). -/
def execPpsInStuck (s : State) : Host.Outcome State Fault Refusal :=
  ok (if s.time.ppsMasked ∨ !mainOn s then s else raise 0x38 [] { s with time := { s.time with ppsMasked := true } })

/-- No edge has been used for 1.5 s: event 0x36, once until an edge is used again (R284). -/
def execPpsInLost (s : State) : Host.Outcome State Fault Refusal :=
  ok (if s.time.ppsLostRaised ∨ !mainOn s then s
    else
      let s := advanceRef (s.time.ppsUsed.getD 0 + 1500000000) s
      raise 0x36 [] { s with time := { s.time with ppsLostRaised := true } })

/-- The next instant TIME_PPS_OUT_MODE selects, and the interval between edges there (R285). -/
def ppsOutDue (s : State) : Option (Nat × Nat) :=
  let from_ := match s.time.ppsOutNext with | some t => t + 1 | none => merNs s
  let second := ((from_ + nsPerSec - 1) / nsPerSec) * nsPerSec
  match pv s 0x0312 with
  | 1 => if timeLocked s then some (second, nsPerSec) else none
  | 2 => if s.time.state = .unset then none else some (second, nsPerSec)
  | 3 => match frameFrom from_ s with
    | some (t, _) => (match frameFrom (t + 1) s with | some (u, _) => some (t, u - t) | none => none)
    | none => none
  | _ => none

/-- PPS_OUT pulses at the next selected instant, delayed by TIME_PPS_OUT_DELAY, for TIME_PPS_OUT_WIDTH but never longer
than half the interval (R285); a run 1 µs late is reported (R279, R282). -/
def execPpsOutEdge (s : State) : Host.Outcome State Fault Refusal :=
  ok (if !mainOn s then s
    else match ppsOutDue s with
    | none => s
    | some (t, gap) =>
      let s := lateAction t (advanceMer t s)
      let edge := ((t * 4 : Nat) : Int) + pvs s 32 0x0314
      emit (.ppsOut (floorDiv edge 4).toNat (min (pv s 0x0313 * 1000) (gap / 2)))
        { s with time := { s.time with ppsOutNext := some (max t (merNs s)) } })

/-- A read of MT_NS latches the time and the frame index for the master (R269), and returns the nanoseconds. -/
def execMtNsRead (m : Master) (s : State) : Host.Outcome State Fault Refusal :=
  let l : MtLatch := ⟨s.time.mer, tsCode s.time.state, (frameAt (merNs s) s).getD 0⟩
  ok (if m = .host ∧ !s.cmd.up then s
    else
      let s := match m with
        | .host => { s with time := { s.time with latchHost := some l } }
        | .sideBand => { s with time := { s.time with latchSide := some l } }
      emit (.regRead 0x3000 (merNs s % nsPerSec)) s)

end Sys2Proof.Machine
end

