-- ==== Sys2Proof/Machine/TestFail.lean ====
section
/-! DEFINITION. What a failed in-service test does to its block (R492), what the vendor tests leave (R488, R489), and which
instances are out of service (R495). -/

namespace Sys2Proof.Machine

/-- An instance of a test is fenced or out of service (R495). -/
def instanceOut (id inst : Nat) (s : State) : Bool :=
  match id with
  | 1 => isFenced s inst
  | 2 => s.cdc.off.contains inst
  | 3 => s.syn.off.contains inst
  | 4 => s.cam.off.contains inst
  | _ => false

/-- A failed in-service test enters its block's own fault handling (R492); ADC_REF acts through `BstSt.adcBad`. -/
def serviceFail (id inst : Nat) (s : State) : State :=
  match id with
  | 1 => errorActs inst true s
  | 2 => engineFault inst s
  | 3 => groupFault inst s
  | 4 => sweepFault inst s
  | 6 => raise 0xE1 [] s
  | _ => s

/-- Device memory holds no data after DMC_MARCH_D: the rectification maps are gone, and PANEL_STATE reads at most 1 (R489). -/
def memoryCleared (s : State) : State :=
  let s := onCam (fun c => { c with ports := c.ports.map (fun p => { p with map := none }) }) s
  { s with mem := {}, pnl := { s.pnl with full := false } }

/-- What a vendor test leaves as it ends: DMC_MARCH_D empties memory, SCAN_DFT ends with an L3 that is not a fault. -/
def vendorEnd (id : Nat) (s : State) : State :=
  if id = 0x1E then memoryCleared s
  else if id = 0x1F then decideRecov 0x31 3 (some 0x00) [] 0 .escalation none false s
  else s

end Sys2Proof.Machine
end

