-- ==== Sys2Proof/Machine/Overcast.lean ====
section
/-! DEFINITION. The commands of Overcast (chapter 17): TEST_RUN, TEST_END, TEST_RESULT, TEST_ABORT, TST_BUSY and the automatic
runs. -/

namespace Sys2Proof.Machine

/-- The catalogue rows a SET selects, in rising ID order. -/
def testsOf (set : Nat) : List TestInfo := testCatalogue.filter (fun t => set.testBit t.id)

/-- The instances of a test that a command names: all in turn for 0xFF (R495). -/
def instsOf (t : TestInfo) (inst : Nat) : List Nat :=
  if t.id = 0x16 then [inst] else if t.insts = 0 then [0] else if inst = 0xFF then List.range t.insts else [inst]

/-- INSTANCE suits a test (R495). -/
def instSuits (inst : Nat) (t : TestInfo) : Bool :=
  if t.id = 0x16 then [5, 16, 32, 60].contains inst else t.insts == 0 || inst == 0xFF || inst < t.insts

/-- The life-cycle state allows a test (R498). -/
def testAllowed (ls : Nat) (t : TestInfo) : Bool :=
  if t.kind == .vendor then [0, 1, 5].contains ls else ls ≤ 5

/-- Bits of SET that name no test of the catalogue. -/
def unknownTests (set : Nat) : Bool := (List.range 32).any (fun i => set.testBit i && (testInfo i).isNone)

/-- The work of a run: tests in rising ID order, instances in turn; instances out of service are not run on all. -/
def runWork (set inst : Nat) (s : State) : List (Nat × Nat) :=
  (testsOf set).flatMap (fun t => ((instsOf t inst).filter (fun k => !(inst == 0xFF && instanceOut t.id k s))).map (fun k => (t.id, k)))

/-- The checks of TEST_RUN (R495). -/
def chkTestRun (p : TestRunP) (s : State) : Option Verdict :=
  let set := p.set.toNat
  let inst := p.inst.toNat
  let ts := testsOf set
  firstOf
    [(!modeOk 0x0A01 s, no St.modeForbids),
     (unknownTests set || p.flags.toNat > 1 || p.rsv != 0 || !ts.all (instSuits inst), no St.badParam),
     (ts.any (fun t => t.kind != .service) && s.mode.mode != .overcast, no St.modeForbids),
     (!ts.all (testAllowed (lifeState s)), no St.deniedLocked),
     (s.bst.run.isSome || (set.testBit 0x1E && !s.buf.bufs.isEmpty), no St.busy),
     (inst != 0xFF && ts.any (fun t => t.insts != 0 && instanceOut t.id inst s), no St.notPresent),
     (s.mode.mode == .overcast && ts.any (fun t => powerLimit s < t.power), no St.budgetExceeded)]

/-- TEST_RUN as a row. -/
def rowTestRun (h : Hdr) (p : TestRunP) : Row :=
  { i := .testRun h p, h := h, opc := 0x0A01, plens := [2], chk := chkTestRun p,
    run := fun s =>
      let s := accepted h 0x0A01 ((s.bst.number + 1) % 65536) s
      beginRun (some h) (p.flags.toNat.testBit 0) p.set.toNat (runWork p.set.toNat p.inst.toNat s) s }

/-- TEST_RUN (R495). -/
def execTestRun (h : Hdr) (p : TestRunP) (s : State) : Host.Outcome State Fault Refusal := ok (command (rowTestRun h p) s)

/-- One word into the MISR of R490, with feedback x⁶⁴ + x⁴ + x³ + x + 1. -/
def misrStep (m : Nat) (w : Nat) : Nat :=
  ((if m < 2 ^ 63 then 2 * m else (2 * m - 2 ^ 64) ^^^ 0x1B) ^^^ w) % 2 ^ 64

/-- The sealed signature of R490: the responses in order, then the word of count and test ID. -/
def sealed (id : Nat) (rs : List U64) : Nat :=
  misrStep (rs.foldl (fun m w => misrStep m w.toNat) 0) (rs.length % 2 ^ 48 * 65536 + id)

/-- Outcome and result words of a test that ends of its own (R491, R496). -/
def judgeTest (t : TestInfo) (inst : Nat) (r : TestShow) : Nat × Nat × Nat :=
  match r with
  | .patterns rs =>
    let v := sealed t.id rs
    (if rs.length ≠ Config.testPatterns t.id inst then 4 else if v = Config.testReference t.id inst then 2 else 3,
     v % 2 ^ 32, v / 2 ^ 32)
  | .errors whole n first => (if !whole then 4 else if n = 0 then 2 else 3, n % 2 ^ 32, if n = 0 then 0 else first % 2 ^ 32)
  | .measured whole w =>
    let lim : Int := match t.result with | .measured l => l | _ => 0
    (if !whole then 4 else if t.id = 0x16 then 2 else if -lim ≤ w ∧ w ≤ lim then 2 else 3, unsigned 32 w, unsigned 32 lim)

/-- TEST_END (R491, R492, R494): the outcome, the block's fault handling for a failed in-service test, STOP_ON_FAIL, and the
scheduler; a full test ends after exactly its duration. -/
def execTestEnd (id : Byte) (inst : Byte) (r : TestShow) (s : State) : Host.Outcome State Fault Refusal :=
  ok (match s.bst.jobs.find? (fun j => j.id == id.toNat && j.inst == inst.toNat), testInfo id.toNat with
    | some j, some t =>
      let s := if t.kind = .service then s else advanceRef (j.start + t.dur) s
      let (o, w1, w2) := judgeTest t j.inst r
      let s := { s with bst := { s.bst with
        jobs := s.bst.jobs.filter (fun x => !(x.id == j.id && x.inst == j.inst))
        adcBad := (if j.id = 5 ∧ o = 2 then false else if j.id = 5 ∧ o = 3 then true else s.bst.adcBad) } }
      let reason := if o = 4 then 6 else 0
      let s := testEnded j.id j.inst o reason (putResult ⟨j.id, j.inst, o, reason, s.bst.number, w1, w2⟩ s)
      let s := if o = 3 ∧ t.kind = .service then serviceFail j.id j.inst s else s
      let stop := match s.bst.run with | some q => q.stopOnFail && o == 3 | none => false
      let s := if stop then stopTests (fun _ => true) 1 s else schedule s
      let s := settleRun s
      if t.kind = .vendor then vendorEnd j.id s else s
    | _, _ => s)

/-- The outcome TEST_RESULT reports for an instance, with the kept result: a running one is RUNNING. -/
def resultOf (s : State) (id inst : Nat) : Option TestRes :=
  if s.bst.jobs.any (fun j => j.id == id && (inst == 0xFF || j.inst == inst)) then some ⟨id, inst, 1, 0, s.bst.number, 0, 0⟩
  else
    let rs := s.bst.results.filter (fun r => r.id == id)
    if inst = 0xFF then
      match rs with
      | [] => none
      | r :: _ =>
        let cur := rs.filter (fun x => x.run == r.run)
        match cur.find? (fun x => x.outcome == 3) with
        | some x => some x
        | none => match cur.find? (fun x => x.outcome == 4) with
          | some x => some x
          | none => some r
    else rs.find? (fun r => r.inst == inst)

/-- TEST_RESULT as a row (R496). -/
def rowTestResult (h : Hdr) (p : TestResultP) : Row :=
  { i := .testResult h p, h := h, opc := 0x0A02, plens := [1],
    chk := fun s => firstOf
      [((testInfo p.id.toNat).isNone || p.rsv != 0 ||
          (match testInfo p.id.toNat with
           | some t => !(p.inst == 0xFF || (if t.id = 0x16 then [5, 16, 32, 60].contains p.inst.toNat else p.inst.toNat < max 1 t.insts))
           | none => false), no St.badParam),
       ((resultOf s p.id.toNat p.inst.toNat).isNone, no St.notPresent)],
    run := fun s => match resultOf s p.id.toNat p.inst.toNat with
      | none => s
      | some r => finish h 0x0A02 (okay (r.outcome + r.reason * 256 + r.run * 65536) r.w1 r.w2) s }

/-- TEST_RESULT (R496). -/
def execTestResult (h : Hdr) (p : TestResultP) (s : State) : Host.Outcome State Fault Refusal := ok (command (rowTestResult h p) s)

/-- TEST_ABORT as a row (R497): tests running or waiting end INCOMPLETE with reason 1; word 0 is the mask of those stopped. -/
def rowTestAbort (h : Hdr) : Row :=
  { i := .testAbort h, h := h, opc := 0x0A03, plens := [0],
    chk := fun s => firstOf [(!modeOk 0x0A03 s, no St.modeForbids), (s.bst.run.isNone, no St.notPresent)],
    run := fun s =>
      let m := (List.range 32).foldl (fun n i => n + b2n (s.bst.jobs.any (fun j => j.id == i)) * 2 ^ i) 0
      finish h 0x0A03 (okay m) (endTests 1 none s) }

/-- TEST_ABORT (R497). -/
def execTestAbort (h : Hdr) (s : State) : Host.Outcome State Fault Refusal := ok (command (rowTestAbort h) s)

/-- TST_BUSY (R493): a command held by an in-service test outlasts its hold time. -/
def execTstBusy (k : CmdKey) (s : State) : Host.Outcome State Fault Refusal :=
  ok (match s.cmd.waits.find? (fun w => keyOf w.h == k && w.test.isSome) with
    | none => s
    | some w => match holder w.opcode w.i s with
      | none => s
      | some (t, _) =>
        let s := advanceRef (w.test.getD 0 + t.holdTime) s
        let e := (testBlock w.opcode w.i s).getD 0
        let s := { s with
          cmd := { s.cmd with waits := s.cmd.waits.filter (fun x => !(keyOf x.h == k && x.test.isSome)) }
          bst := { s.bst with busyCount := s.bst.busyCount + 1 } }
        finish w.h w.opcode ⟨St.busySelftest, e / nsPerSec % 2 ^ 32, e % nsPerSec, 0⟩ (raise 0xFA [] s))

/-- BST_AUTO_RUN (R500): BST_AUTO_PERIOD has passed and no run is active; the run has no command. -/
def execBstAutoRun (s : State) : Host.Outcome State Fault Refusal :=
  ok (if pv s 0x1302 = 0 ∨ s.bst.run.isSome ∨ !mainOn s ∨ lifeState s = 6 then s
    else
      let s := advanceRef (s.bst.lastAuto + pv s 0x1302 * nsPerSec) s
      let s := { s with bst := { s.bst with lastAuto := s.time.ref } }
      beginRun none false (pv s 0x1301) (runWork (pv s 0x1301) 0xFF s) s)

end Sys2Proof.Machine
end

