-- ==== Sys2Proof/Machine/Scanout.lean ====
section
/-! DEFINITION. The commands of chapter 06 that the frame grid gives: subframe starts, band instants, emission windows, rows
in Flat and Starlight (R10, R167 to R177, R193, R198), and the scan-out's own faults (R186, R200). -/

namespace Sys2Proof.Machine

/-! ## SUBFRAME_START -/

/-- The subframe that starts next, unless a pending change comes into effect by then (R197). -/
def subframeDue (s : State) : Option Sub :=
  match comingSub s with
  | none => none
  | some u => (match s.mode.change with
    | some x => if x.c ≤ u.at_ then none else some u
    | none => some u)

/-- The SUBFRAME_START markers of subframe `u` (R168, R211). -/
def subMarkers (u : Sub) (s : State) : State :=
  (halves s).foldl (fun s b =>
    if (plkOf b s).up then
      emit (.markSub b (4 * (u.at_ : Int) + pvs s 32 (0x0D01 + 0x80 * b2n b))
        ⟨u.q, phaseOf s u.q, !halfLit b s, s.mode.mode == .flat, s.mode.mode == .starlight, u.k, u.m⟩) s
    else s) s

/-- A half may rejoin: trained, not in recovery, and no recovery of its head or link runs or waits (R200, R429). -/
def mayJoin (b : Bool) (s : State) : Bool :=
  (plkOf b s).up && !(headOf b s).recovering &&
  !s.evt.recs.any (fun r => r.domain == headDomain b || r.domain == linkDomain b || r.level == 2 || r.level == 3)

/-- Halves that may rejoin do so, with event 0x96 or 0xA6 (R200). -/
def joinHalves (s : State) : State :=
  (halves s).foldl (fun s b =>
    if !halfLit b s && mayJoin b s then raise (scnEvt b 0x96) [] (setDead b false (onHead b (fun h => { h with lit := true, cut := true }) s))
    else s) s

/-- New pairs start where the mode powers the layer and it may be powered (R241, R244, R258). -/
def powerLayer (k : Nat) (s : State) : State :=
  if isLightField s.mode.mode && layerReady s then onStd (fun d => { d with rest := false }) (stdPower k s) else s

/-- The comparison of outputs `os` with DC_LIMIT (R242): the first that reaches it is a fault of the drive (R244). -/
def compareOuts (os : List Nat) (s : State) : State :=
  let s := os.foldl (fun s i => dcCompare i s) s
  match os.find? (fun i => dcHit i s) with
  | some i => faultOf 0x08 0xC4 [(1, i), (4, unsigned 32 (s.std.acc.getD i 0 / 1000000))] s
  | none => s

/-- One pair of an output ends for the open-output check: event 0xC7 on the third low pair in a row (R255). -/
def checkOpen (i : Nat) (s : State) : State :=
  let s := onStd (fun d => { d with edges := d.edges.modify i openStep }) s
  raiseIf ((s.std.edges.getD i {}).low == 3) 0xC7 [(1, i)] s

/-- A pair begins at frame `k` (R241, R242, R248): settings and bands apply, segment outputs are compared. -/
def beginPair (k : Nat) (s : State) : State :=
  if !isPairStart k s then s
  else
    let segs := (List.range 8).map (· + 64)
    compareOuts segs (segs.foldl (fun s i => checkOpen i s) (pairBoundary k s))

/-- Sessions closing at a display-frame boundary end (R65); frames that fall due in Still-air are dropped (R70). -/
def sessionsAt (t : Nat) (s : State) : State :=
  [0, 1].foldl (fun s i => match sessOf i s with
    | none => s
    | some x =>
      if x.closing then endSession i 1 0 s
      else if s.mode.mode != .stillAir then s
      else
        let due := fun (f : SFrame) => (match shownAt x f with | some a => decide (a ≤ t) | none => false) &&
          (match x.shown with | some g => g.uid != f.uid | none => true)
        let n := (x.frames.filter due).length
        mpiCollect (onStat i (fun y => { y with drop := y.drop + n })
          (onSess i (fun x => { x with frames := x.frames.filter (fun f => !due f) }) s))) s

/-- What a head keeps of the frame before ends with it: underruns and overlays switched off (R187). -/
def freshHead (b : Bool) (s : State) : State := onHead b (fun h => { h with baseOff := false, ovlOff := [], cut := false }) s

/-- Frame `k` is shown by a half that has chosen it. -/
def shownNow (k : Nat) (s : State) : Bool :=
  (halves s).any (fun b => (headOf b s).now == ⟨1, some k⟩)

/-- The heads choose for a lit frame `k`, after the changes due have applied (R173, R182). -/
def lightFrame (k : Nat) (s : State) : State :=
  let s := onScn (fun c => { c with layersOld := c.layers }) s
  let s := applyWaits k s
  let s := (halves s).foldl (fun s b => if halfLit b s then chooseLit b k s else s) s
  let s := if shownNow k s && isRendered s.mode.mode then frameShown k s else s
  retireUnseen k s

/-- A frame starts dark (R174, R198). -/
def darkFrame (k : Nat) (s : State) : State :=
  let s := onScn (fun c => { c with
    darkFrames := c.darkFrames + 1, dark := c.dark.map (fun d => { d with frames := d.frames + 1 }) }) s
  let s := (halves s).foldl (fun s b => chooseDark b k s) s
  let s := if shownNow k s then frameShown k s else s
  retireUnseen k s

/-- A dark interval ends with frame `k` (R198 step 5): the halves that have trained light, new pairs start, event 0x9C, the
command that waited completes, a step-down that fell due is made (R194, R294, R322). -/
def endDark (d : Dark) (k : Nat) (s : State) : State :=
  let s := onScn (fun c => { c with dark := none }) s
  let s := (halves s).foldl (fun s b =>
    let j := mayJoin b s
    setDead b (segDead b s && !j) (onHead b (fun h => { h with lit := j, cut := true }) s)) s
  let s := raise 0x9C [(4, d.frames)] s
  let s := lightFrame k (beginPair k (powerLayer k s))
  let s := completeChange k d.frames s
  let s := if s.mode.mode = .stillAir ∧ s.scn.stillSince.isNone then onScn (fun c => { c with stillSince := some s.time.ref }) s
    else s
  match s.mode.stepOwed with
  | some cause => makeStep cause none (merNs s + 1) (onMode (fun m => { m with stepOwed := none }) s)
  | none => s

/-- A frame boundary (R167): values due at the next frame take effect (R7), dark intervals end or go on, the heads choose. -/
def frameBoundary (u : Sub) (s : State) : State :=
  let k := u.k
  let roll := isLightField s.mode.mode && s.scn.dark.isNone && s.scn.cur.isSome && panelLit s
  let s := onScn (fun c => { c with
    prev := if roll then c.cur else none, cur := some u, band := 0, row := 0, began := true, lastK := some k }) s
  let s := (halves s).foldl (fun s b => onPlk b (fun p => { p with stalled := false, lostFrame := 0 }) s) s
  let s := sessionsAt (merNs s) (pApply 1 s)
  let s := match s.scn.dark with
    | some d =>
      if (allTrained s || d.forced || decide (d.deadline ≤ merNs s)) && mayLight s then endDark d k s else darkFrame k s
    | none => completeChange k 0 (lightFrame k (beginPair k (powerLayer k (joinHalves s))))
  if roll then s else endFences k ((halves s).foldl (fun s b => freshHead b (letBefore b s)) s)

/-- A subframe starts (R10): at S_Pk a frame begins; the carrier restarts and the markers go out. -/
def startSub (u : Sub) (s : State) : State :=
  let s := advanceMer u.at_ s
  let s := if u.q = 0 then frameBoundary u s
    else onScn (fun c => { c with prev := if panelLit s then c.cur else none, cur := some u, band := 0 }) s
  subMarkers u (stdSubframe u s)

/-- SUBFRAME_START. -/
def execSubframeStart (s : State) : Host.Outcome State Fault Refusal :=
  ok (match subframeDue s with
    | some u => startSub u s
    | none => s)

/-! ## BAND_INSTANT -/

/-- The band instants of the subframe in progress go on: the panel is lit in a light-field mode and bands remain. -/
def bandDue (s : State) : Option (Sub × Nat) :=
  match s.scn.cur with
  | some u => if isLightField s.mode.mode && s.scn.dark.isNone && s.scn.band < bandsN s then some (u, s.scn.band) else none
  | none => none

/-- Write slots that have ended are closed, and a half that has lost more than 64 rows in the frame is retrained at L0 (R219,
R224). -/
def endSlots (s : State) : State :=
  (halves s).foldl (fun s b =>
    let was := (plkOf b s).lostFrame
    let s := closeSlots b s
    if was ≤ 64 ∧ 64 < (plkOf b s).lostFrame ∧ halfLit b s then faultOf (linkDomain b) 0xB6 [(1, b2n b)] s else s) s

/-- The emission window that band `b` of subframe `u`, switched now, will have (R172). -/
def addWindow (u : Sub) (b : Nat) (s : State) : State :=
  let t := bandInst u b s
  let on := t + max (settleNow s * 1000) (bandInst u (b + 2) s - t)
  if on + 200000 < bandInst (nextSub u s) b s then onScn (fun c => { c with wins := c.wins ++ [⟨u, b, on, false⟩] }) s else s

/-- The rows of band `b` of subframe `u` are sent in the write slot that opens now (R171). `old` is set for the last band of
the frame before. -/
def sendBand (u : Sub) (b : Nat) (old : Bool) (p : FetchP) (s : State) : State :=
  match s.pnl.desc with
  | none => s
  | some d =>
    let layers := if old then s.scn.layersOld else s.scn.layers
    let y := b * d.bandRows
    let s := readHost d (litLayers layers []) y d.bandRows s
    (halves s).foldl (fun s h =>
      if !halfLit h s then s
      else
        let x := headOf h s
        sendRows d h u.q u.q (if old then x.before else x.now) layers (if h then p.b else p.a) p.host y d.bandRows
          (bandInst u (b + 2) s) s) s

/-- The phase block of the subframe before has been read in full and is checked (R175). -/
def checkPrev (v : Sub) (old : Bool) (p : FetchP) (s : State) : State :=
  match s.pnl.desc with
  | none => s
  | some d => (halves s).foldl (fun s h =>
      if !halfLit h s then s
      else
        let x := headOf h s
        checkBlock d h (if old then x.before else x.now) v.k v.q (if h then p.b else p.a).crc s) s

/-- At J(m, 1) the last band of the subframe before has been written: its block is checked, and at a frame's first subframe
the frame before is let go, with fences that waited for it (R174, R175, R182). -/
def endPrev (u : Sub) (p : FetchP) (s : State) : State :=
  let s := match s.scn.prev with
    | some v => checkPrev v (u.q == 0) p s
    | none => s
  if u.q = 0 then
    (let s := (halves s).foldl (fun s b => freshHead b (letBefore b s)) s
     endFences u.k (onScn (fun c => { c with layersOld := c.layers }) s))
  else (halves s).foldl (fun s b => onHead b (fun h => { h with cut := h.baseOff }) s) s

/-- BAND_INSTANT as a state change. -/
def bandInstant (u : Sub) (b : Nat) (p : FetchP) (s : State) : State :=
  let s := endSlots (advanceMer (bandAt u b s) s)
  let pair := u.q == 0 && isPairStart u.k s
  let s := stdIntegrate (merNs s) s
  let s := if pair then compareOuts [b] (checkOpen b s) else s
  let s := onScn (fun c => { c with band := b + 1 }) s
  if s.scn.dark.isSome then s
  else
    let s := addWindow u b (stdBand u b (merNs s) s)
    let s := if b = 1 then endPrev u p s else s
    let s := if b = 0 then
        (match s.scn.prev with
         | some v => sendBand v (bandsN s - 1) (u.q == 0) p s
         | none => s)
      else sendBand u (b - 1) false p s
    memErrors p.errs s

/-- BAND_INSTANT (R170): common b switches to the phase of the subframe; the write slot of band b − 1 opens and that of band
b − 2 ends. -/
def execBandInstant (p : FetchP) (s : State) : Host.Outcome State Fault Refusal :=
  ok (match bandDue s with
    | some (u, b) => bandInstant u b p s
    | none => s)

/-! ## Emission -/

/-- The window whose EMIT_ON comes next: the earliest not yet begun. -/
def nextOn (s : State) : Option Win := (sortBy (fun w => w.on) (s.scn.wins.filter (fun w => !w.sent))).head?

/-- End of a window: J(m + 1, b) − 200 µs (R172). -/
def winEnd (s : State) (w : Win) : Nat := bandInst (nextSub w.sub s) w.band s - 200000

/-- The window whose EMIT_OFF comes next. -/
def nextOff (s : State) : Option Win := (sortBy (winEnd s) (s.scn.wins.filter (·.sent))).head?

/-- EMIT_ON or EMIT_OFF markers of a band in the lit halves (R211). -/
def emitMarks (on : Bool) (band t : Nat) (s : State) : State :=
  (halves s).foldl (fun s b =>
    if halfLit b s then emit (.markEmit b on band (4 * (t : Int) + pvs s 32 (0x0D01 + 0x80 * b2n b))) s else s) s

/-- EMIT_ON (R172): a band's emission window opens. -/
def execEmitOn (s : State) : Host.Outcome State Fault Refusal :=
  ok (match nextOn s with
    | none => s
    | some w =>
      let s := advanceMer w.on s
      emitMarks true w.band w.on (onScn (fun c => { c with
        wins := c.wins.map (fun x => if x = w then { x with sent := true } else x) }) s))

/-- EMIT_OFF (R172): a band's emission window closes. -/
def execEmitOff (s : State) : Host.Outcome State Fault Refusal :=
  ok (match nextOff s with
    | none => s
    | some w =>
      let t := winEnd s w
      emitMarks false w.band t (onScn (fun c => { c with wins := c.wins.filter (fun x => x != w) }) (advanceMer t s)))

/-! ## Flat and Starlight -/

/-- Start of row `r` of `n` spread over the frame of `u` (R177, R193). -/
def rowAt (u : Sub) (r n : Nat) (s : State) : Nat := u.at_ + r * ((nextSub u s).at_ - u.at_) / n

/-- FLAT_ROW_WRITE (R177, R178): the next row of the flat base is written in each lit half. -/
def execFlatRowWrite (p : FetchP) (s : State) : Host.Outcome State Fault Refusal :=
  ok (match s.scn.cur, s.pnl.desc with
    | some u, some d =>
      if s.mode.mode != .flat || s.scn.dark.isSome || d.h ≤ s.scn.row then s
      else
        let y := s.scn.row
        let s := endSlots (advanceMer (rowAt u y d.h s) s)
        let s := readHost d (litLayers s.scn.layers []) y 1 (onScn (fun c => { c with row := y + 1 }) s)
        memErrors p.errs ((halves s).foldl (fun s h =>
          if halfLit h s then sendRows d h u.q 0 (headOf h s).now s.scn.layers (if h then p.b else p.a) p.host y 1
              (rowAt u (y + 1) d.h s) s
          else s) s)
    | _, _ => s)

/-- STARLIGHT_ROW_WRITE (R193): the next window row's codes and palette are sent on lane 00 of each lit half. -/
def execStarlightRowWrite (s : State) : Host.Outcome State Fault Refusal :=
  ok (match s.scn.cur, s.pnl.desc, s.scn.star with
    | some u, some d, some p =>
      if s.mode.mode != .starlight || s.scn.dark.isSome || p.rows ≤ s.scn.row then s
      else
        let r := s.scn.row
        let s := endSlots (advanceMer (rowAt u r p.rows s) s)
        let s := onScn (fun c => { c with row := r + 1 }) s
        (halves s).foldl (fun s h =>
          match (if halfLit h s then starRow d h p r else none) with
          | some bs => queueRows h [⟨true, u.q, p.y0 + r, bs, 0, rowAt u (r + 1) p.rows s⟩] s
          | none => s) s
    | _, _, _ => s)

/-! ## Faults and timers of the scan-out -/

/-- SCN_HEAD_FAULT (R200): a head fails its internal checks; its half stops emitting and the head is recovered at L1. -/
def execScnHeadFault (b : Bool) (s : State) : Host.Outcome State Fault Refusal :=
  ok (if !mainOn s || !(halves s).contains b then s else faultOf (headDomain b) (scnEvt b 0x95) [] s)

/-- OVERLAY_HOST_READ_FAIL (R186): a host-memory read for an overlay fails. -/
def execOverlayHostReadFail (s : State) : Host.Outcome State Fault Refusal :=
  ok (if panelLit s && s.mode.mode != .starlight then hostLayersOff s else s)

/-- SCN_STILL_LOWERED (R190): Still-air has been lit for SCN_STILL_HOLD; the rate changes to SCN_STILL_RATE at the next common
boundary. -/
def execScnStillLowered (s : State) : Host.Outcome State Fault Refusal :=
  ok (match s.scn.stillSince with
    | none => s
    | some t =>
      if s.mode.mode != .stillAir || s.mode.rate ≤ pv s 0x0D20 || s.mode.change.isSome then s
      else
        let s := advanceRef (t + pv s 0x0D21 * nsPerSec) s
        let b := changeBoundary .stillAir (pv s 0x0D20) (merNs s) s
        onMode (fun m => { m with change := some ⟨.stillAir, pv s 0x0D20, b.1, b.2, 0, true, none⟩ })
          (onScn (fun c => { c with stillSince := none }) s))

/-- DARK_INTERVAL_TRAIN_TIMEOUT (R198 step 6, R223): at c′ + 2 new periods the halves that have trained light without the
others, which keep trying. -/
def execDarkIntervalTrainTimeout (s : State) : Host.Outcome State Fault Refusal :=
  ok (match s.scn.dark with
    | none => s
    | some d => if d.forced then s
      else onScn (fun c => { c with dark := some { d with forced := true } }) (advanceMer d.deadline s))

end Sys2Proof.Machine
end

