-- ==== Sys2Proof/Machine/PanelLink.lean ====
section
/-! DEFINITION. The commands, messages and timers of the panel link (R215 to R228). A half is named by a truth value: false for
A, true for B; a back lane likewise. -/

namespace Sys2Proof.Machine

/-! ## Shared steps -/

/-- The back lanes of a half are in use: the main domain is on, the mode is not Recovery, and the panel has the half (R15,
R204). -/
def backOn (b : Bool) (s : State) : Bool := mainOn s && s.mode.mode != .recovery && (halves s).contains b

/-- The recovery of a half's link that runs at L0 or L1. -/
def linkRecov (b : Bool) (s : State) : Option Recov :=
  s.evt.recs.find? (fun r => r.domain == linkDomain b && r.running && r.level ≤ 1)

/-- The recovery of a half's link, if one runs, ends with an outcome (R431). -/
def endLinkRecov (b : Bool) (outcome : Nat) (s : State) : State :=
  match linkRecov b s with
  | some r => endRecov r outcome 0 s
  | none => s

/-- A change that may lose rows of a half; beyond 64 in a frame a lit half is retrained at L0 (R219, R224). -/
def withLoss (b : Bool) (f : State → State) (s : State) : State :=
  let was := (plkOf b s).lostFrame
  let s := f s
  if was ≤ 64 ∧ 64 < (plkOf b s).lostFrame ∧ halfLit b s then faultOf (linkDomain b) 0xB6 [(1, b2n b)] s else s

/-- A training attempt fails (R223): the next attempt 1 ms later, or the series ends with event 0xB1 and the link is recovered
at L1; when that series is the recovery's own, the recovery has failed. -/
def failAttempt (b : Bool) (s : State) : State :=
  match (plkOf b s).train with
  | none => s
  | some t =>
    let n := t.failed + 1
    let idle : Train := ⟨t.rate, none, none, none, none, n, t.second, none, false⟩
    if n < pv s 0x0E12 then
      onPlk b (fun p => { p with train := some { idle with retry := some (s.time.ref + 1000000) } }) s
    else
      let s := linkCmdHalf b false (onPlk b (fun p => { p with train := some idle, failed := true }) s)
      faultAt (linkDomain b) 1 0xB1 (payload [(1, b2n b)]) (endLinkRecov b 4 s)

/-- The lanes dropped in training: event 0xB4 with each (R222). -/
def dropLanes (b : Bool) (all mask : Nat) (s : State) : State :=
  ((List.range 30).filter (fun i => all.testBit i && !mask.testBit i)).foldl (fun s i => raise 0xB4 [(1, b2n b), (1, i)] s) s

/-- Every half that has reported a model code reports that of the resident summary (R39). -/
def modelsAgree (s : State) : Bool := [false, true].all (fun b => !modelWrong b s)

/-- A half has trained (R221 step 5): its lanes and rate, the credits announced (R228, R371), event 0xB0 with the rate code and
the lanes. -/
def trainDone (b : Bool) (t : Train) (mask credits : Nat) (s : State) : State :=
  let s := dropLanes b (wiredMask b t.rate s) mask (reclaim b s)
  let s := setTotal (pevtPool b) 8 (setTotal (creditPool b) credits s)
  let s := onPlk b (fun p => { p with
    up := true, train := none, failed := false, lanes := mask, rate := t.rate, seq := 0, sent := [], rows := [] }) s
  let s := { s with plk := { s.plk with mismatch := s.plk.mismatch && !modelsAgree s } }
  let s := raise 0xB0 [(1, b2n b), (1, t.rate), (4, mask)] s
  linkCmdHalf b true (endLinkRecov b 1 s)

/-- Training completes once the panel has answered with both CINIT and TSTAT stage 3 (R221 step 4). -/
def settleTrain (b : Bool) (s : State) : State :=
  match (plkOf b s).train with
  | some t =>
    (match t.locked, t.skewed, t.cinit with
     | some l, some k, some c => if t.said3 then trainDone b t (l &&& k &&& wiredMask b t.rate s) c s else s
     | _, _, _ => s)
  | none => s

/-- A half becomes absent (R227): its head stops and lets its frames go, its segments are crowbarred (R240), event 0xB2,
credits reclaimed, lanes idle; the training
in progress fails; every pool is audited (R379). -/
def halfDown (b : Bool) (s : State) : State :=
  if !(plkOf b s).present then s
  else
    let s := if s.scn.seg.isSome then letAll b (onHead b (fun h => { h with lit := false, cut := true }) s) else s
    let s := raise 0xB2 [(1, b2n b)] (crowbarHalf b s)
    let s := linkIdle b (setTotal (pevtPool b) 8 s)
    let s := onPlk b (fun p => { p with present := false, hello := none, flags := 0 }) s
    auditAll (settleLayers (linkCmdHalf b false (endLinkRecov b 1 s)))

/-- A half becomes present once its presence stands, or is masked, and a back lane has lock (R226, R228): event 0xB3, the check
of R39, training at the class in force in a mode that lights the panel; every pool is audited (R379). -/
def settlePresence (b : Bool) (s : State) : State :=
  let p := plkOf b s
  if p.present || !backLock b s || !(p.level || p.masked) || !backOn b s then s
  else
    let s := raise 0xB3 [(1, b2n b)] (onPlk b (fun p => { p with present := true }) s)
    let s := if s.scn.seg.isSome then startTrain b (classNow s) false s else judgeModel b s
    auditAll (settleLayers s)

/-! ## PANEL_LINK_TRAIN (R225) -/

/-- A half is named by HALVES. -/
def named (p : LinkTrainP) (b : Bool) : Bool := p.halves.toNat.testBit (b2n b)

/-- The halves that HALVES names. -/
def namedHalves (p : LinkTrainP) : List Bool := [false, true].filter (named p)

/-- The checks of PANEL_LINK_TRAIN, in the order of the table of R225; `train` is OP 0. -/
def chkLinkTrain (train : Bool) (p : LinkTrainP) (s : State) : Option Verdict :=
  let inDawn := s.mode.mode == .dawn && train
  let hs := namedHalves p
  firstOf
    [(!modeOk 0x0407 s, no St.modeForbids),
     (p.halves == 0 || 3 < p.halves.toNat || p.rsv != 0 ||
       (if inDawn then !([5, 16, 32, 60].contains p.rate.toNat) else p.rate != 0), no St.badParam),
     (inDawn && hs.any (fun b => maxRateCode b s < p.rate.toNat), no St.budgetExceeded),
     (s.scn.dark.isSome || s.plk.cmd.isSome || hs.any (fun b => training b s), no St.busy),
     (hs.any (fun b => !(plkOf b s).present), no St.notPresent)]

/-- The effect of OP 0: every named half trains, in a lit mode after DARK with reason 1 (R224, R225). -/
def runLinkTrain (h : Hdr) (p : LinkTrainP) (s : State) : State :=
  let code := if s.mode.mode = .dawn then p.rate.toNat else classNow s
  let s := accepted h 0x0407 0 { s with plk := { s.plk with cmd := some ⟨h, p.halves.toNat, p.halves.toNat, 0, code⟩ } }
  (namedHalves p).foldl (fun s b =>
    startTrain b code false (if s.scn.seg.isSome then darken b 1 s else s)) s

/-- PANEL_LINK_TRAIN OP 0 as a row. -/
def rowPanelLinkTrain (h : Hdr) (p : LinkTrainP) : Row :=
  { i := .panelLinkTrain h p, h := h, opc := 0x0407, plens := [1], chk := chkLinkTrain true p, run := runLinkTrain h p }

/-- PANEL_LINK_TRAIN OP 0 (R225). -/
def execPanelLinkTrain (h : Hdr) (p : LinkTrainP) (s : State) : Host.Outcome State Fault Refusal :=
  ok (command (rowPanelLinkTrain h p) s)

/-- PANEL_LINK_TRAIN OP 1 as a row: the presence inputs of the named halves are re-armed (R226). -/
def rowPanelPresRearm (h : Hdr) (p : LinkTrainP) : Row :=
  { i := .panelPresRearm h p, h := h, opc := 0x0407, plens := [1], chk := chkLinkTrain false p,
    run := fun s => finish h 0x0407 (okay) ((namedHalves p).foldl (fun s b =>
      onPlk b (fun q => { q with masked := false, assertedAt := s.time.ref }) s) s) }

/-- PANEL_LINK_TRAIN OP 1 (R225, R226). -/
def execPanelPresRearm (h : Hdr) (p : LinkTrainP) (s : State) : Host.Outcome State Fault Refusal :=
  ok (command (rowPanelPresRearm h p) s)

/-! ## Messages from the panel -/

/-- A HELLO whose fields lie in the ranges of R216. -/
def helloOk (p : HelloMsg) : Bool :=
  1 ≤ p.lanes.toNat && p.lanes.toNat ≤ 30 && 5 ≤ p.rate.toNat && p.rate.toNat ≤ 60 && 16 ≤ p.credits.toNat

/-- HELLO (R216): what it reports is kept while the half is not trained; one that differs from the last is judged (R39, R216). -/
def execHello (b : Bool) (p : HelloMsg) (s : State) : Host.Outcome State Fault Refusal :=
  let m : Hello := ⟨p.model.toNat, p.lanes.toNat, p.rate.toNat, p.credits.toNat⟩
  ok (if !backOn b s || !backLock b s || (plkOf b s).up || !helloOk p || (plkOf b s).hello = some m then s
    else judgeModel b (judgeCap b (onPlk b (fun q => { q with hello := some m }) s)))

/-- TSTAT (R221): stage 1 with the lanes locked, stage 2 with the lanes deskewed, on which the lanes in use are chosen or the
attempt fails (R222), stage 3 done. A message out of its stage is ignored. -/
def execTstat (b : Bool) (stage : Byte) (mask : U32) (s : State) : Host.Outcome State Fault Refusal :=
  ok (match (if backLock b s then (plkOf b s).train else none) with
    | none => s
    | some t =>
      let put := fun (t : Train) (s : State) => onPlk b (fun p => { p with train := some t }) s
      if t.began.isNone then s
      else if stage = 1 ∧ t.locked.isNone then
        emit (.train b 2 t.rate) (put { t with locked := some mask.toNat } s)
      else if stage = 2 ∧ t.skewed.isNone then
        (match t.locked with
         | none => s
         | some l =>
           let use := l &&& mask.toNat &&& wiredMask b t.rate s
           if lanesAllowed b t.rate use s then emit (.linkInit b use 8) (put { t with skewed := some mask.toNat } s)
           else failAttempt b s)
      else if stage = 3 ∧ t.skewed.isSome then settleTrain b (put { t with said3 := true } s)
      else s)

/-- CINIT of the panel (R217): its row credits, in training step 4. -/
def execPanelCinit (b : Bool) (credits : Byte) (s : State) : Host.Outcome State Fault Refusal :=
  ok (match (if backLock b s then (plkOf b s).train else none) with
    | none => s
    | some t => if t.skewed.isNone || credits.toNat < 16 then s
      else settleTrain b (onPlk b (fun p => { p with train := some { t with cinit := some credits.toNat } }) s))

/-- An outstanding packet is answered: its credit returns (R218). -/
def answered (b : Bool) (seq : Nat) (s : State) : State :=
  if (plkOf b s).sent.any (fun k => k.seq == seq) then
    creditBack b (onPlk b (fun p => { p with sent := p.sent.filter (fun k => k.seq != seq) }) s)
  else s

/-- ACK (R218): the packets named return their credits and the head sends on. -/
def execAck (b : Bool) (seq : U16) (count : Byte) (s : State) : Host.Outcome State Fault Refusal :=
  ok (if !backLock b s || count == 0 || 32 < count.toNat then s
    else withLoss b (pump b) ((List.range count.toNat).foldl (fun s i => answered b ((seq.toNat + i) % 65536) s) s))

/-- NAK (R219): the packet's credit returns; the row is resent for reason 1, 2 or 4 while it may be, else lost; a late answer
returns the credit only. -/
def execNak (b : Bool) (seq : U16) (reason : Byte) (s : State) : Host.Outcome State Fault Refusal :=
  ok (match (if backLock b s then (plkOf b s).sent.find? (fun k => k.seq == seq.toNat) else none) with
    | none => s
    | some k =>
      let s := answered b k.seq s
      withLoss b (fun s =>
        if k.timedOut then pump b s
        else if reason = 1 ∨ reason = 2 ∨ reason = 4 then resendRow b k.job s
        else pump b (loseRow b s)) s)

/-- A SEQ at or before LAST_SEQ (R220). -/
def seqBefore (last seq : Nat) : Bool := (last + 65536 - seq) % 65536 < 32768

/-- STATUS (R220, R224): packets up to LAST_SEQ count as ACKed; changed flags raise event 0xBA; LANE_LOST or FAULT retrains a
lit half at L0. -/
def execStatus (b : Bool) (p : StatusMsg) (s : State) : Host.Outcome State Fault Refusal :=
  ok (if !backLock b s || !(plkOf b s).up then s
    else
      let due := (plkOf b s).sent.filter (fun k => seqBefore p.lastSeq.toNat k.seq)
      let s := withLoss b (pump b) (due.foldl (fun s k => answered b k.seq s) s)
      let changed := p.flags.toNat != (plkOf b s).flags
      let s := onPlk b (fun q => { q with flags := p.flags.toNat }) s
      let items := [(1, b2n b), (1, p.flags.toNat)]
      if p.flags.toNat % 4 ≠ 0 ∧ halfLit b s then faultOf (linkDomain b) 0xBA items s
      else raiseIf changed 0xBA items s)

/-- PEVT (R217): queued as event 0xBB with its code and data; its credit returns with LINKCTL CREDIT. -/
def execPevt (b : Bool) (code : U16) (data : List Byte) (s : State) : Host.Outcome State Fault Refusal :=
  ok (if !backLock b s || !(plkOf b s).up then s
    else
      let s := raise 0xBB [(1, b2n b), (2, code.toNat), (5, leNat (bytesAt data 0 5))] (move (pevtPool b) 0 2 1 s)
      emit (.linkCredit b 1) (move (pevtPool b) 2 0 1 s))

/-! ## Timers of training and acknowledgement -/

/-- TRAINING_ATTEMPT (R221 step 1): an attempt starts once a back lane has lock and HELLO has been received. -/
def execTrainingAttempt (b : Bool) (s : State) : Host.Outcome State Fault Refusal :=
  ok (if mayTrain b s then beginAttempt b s else s)

/-- TRAINING_ATTEMPT_TIMEOUT (R221): TSTAT stage 3 has not arrived 8 ms after step 1. -/
def execTrainingAttemptTimeout (b : Bool) (s : State) : Host.Outcome State Fault Refusal :=
  ok (match (plkOf b s).train.bind (·.began) with
    | none => s
    | some t => failAttempt b (advanceRef (t + 8000000) s))

/-- TRAINING_RETRY (R223): 1 ms after a failed attempt a new one begins. -/
def execTrainingRetry (b : Bool) (s : State) : Host.Outcome State Fault Refusal :=
  ok (match (plkOf b s).train with
    | none => s
    | some t => (match t.retry with
      | none => s
      | some r =>
        let s := advanceRef r (onPlk b (fun p => { p with train := some { t with retry := none } }) s)
        if mayTrain b s then beginAttempt b s else s))

/-- PLK_ACK_TIMEOUT (R219): no ACK or NAK within PLK_ACK_TIMEOUT of a packet's EOP: event 0xB7; the row is resent or lost, its
credit stays out. -/
def execPlkAckTimeout (b : Bool) (s : State) : Host.Outcome State Fault Refusal :=
  ok (match (plkOf b s).sent.find? (fun k => !k.timedOut) with
    | none => s
    | some k =>
      let s := advanceMer (ceilDiv k.eop 1000 + pv s 0x0E10 * 1000) s
      let s := onPlk b (fun p => { p with
        sent := p.sent.map (fun x => if x.seq = k.seq then { x with timedOut := true } else x) }) s
      withLoss b (resendRow b k.job) (raise 0xB7 [(1, b2n b)] s))

/-! ## Presence (R226 to R228) -/

/-- A presence level is accepted at reference ns now. -/
def acceptPresence (b level : Bool) (s : State) : State :=
  let s := onPlk b (fun p => { p with level := level, lastEdge := some s.time.ref, assertedAt := s.time.ref }) s
  if level then settlePresence b s else halfDown b s

/-- PANEL_PRES_CHANGE (R226): the input goes to a level and stays there for `stable` µs. An edge less than 200 ms after the last
accepted one is counted with event 0xBD, and its level is accepted at the end of those 200 ms when it still stands. -/
def execPanelPresChange (b : Bool) (level : Bool) (stable : Nat) (s : State) : Host.Outcome State Fault Refusal :=
  let p := plkOf b s
  let ready := s.time.ref + 20000000
  let open_ := match p.lastEdge with | some e => e + 200000000 | none => 0
  ok (if p.masked || level == p.level || !(halves s).contains b then s
    else
      let s := if ready < open_ then
          raise 0xBD [(1, b2n b)] (onPlk b (fun p => { p with bounces := p.bounces + 1 }) s)
        else s
      let at_ := max ready open_
      if at_ ≤ s.time.ref + stable * 1000 then acceptPresence b level (advanceRef at_ s) else s)

/-- PLK_PRES_STUCK (R226): asserted for 5 s while neither back lane has lock, the input is masked. -/
def execPlkPresStuck (b : Bool) (s : State) : Host.Outcome State Fault Refusal :=
  let p := plkOf b s
  ok (if !p.level || p.masked || backLock b s || !backOn b s then s
    else
      let since := max p.assertedAt (p.lockLost.getD 0)
      raise 0xBC [(1, b2n b)] (onPlk b (fun p => { p with masked := true })
        (advanceRef (since + 5000000000) s)))

/-- BACK_LANE_LOCK_LOSS (R215): a back lane loses block lock; the half goes on with the other, with event 0xB4. -/
def execBackLaneLockLoss (b : Bool) (lane : Bool) (s : State) : Host.Outcome State Fault Refusal :=
  ok (if !(if lane then (plkOf b s).lock1 else (plkOf b s).lock0) then s
    else
      let s := onPlk b (fun p => if lane then { p with lock1 := false } else { p with lock0 := false }) s
      if backLock b s then raise 0xB4 [(1, b2n b), (1, 0x80 + b2n lane)] s
      else onPlk b (fun p => { p with lockLost := some s.time.ref }) s)

/-- PLK_HALF_DOWN (R227): neither back lane has had lock for 100 µs. -/
def execPlkHalfDown (b : Bool) (s : State) : Host.Outcome State Fault Refusal :=
  ok (if !(plkOf b s).present || backLock b s then s
    else halfDown b (advanceRef ((plkOf b s).lockLost.getD 0 + 100000) s))

/-- PLK_HALF_PRESENT (R228): a back lane gains block lock; with its presence accepted the half becomes present. -/
def execPlkHalfPresent (b : Bool) (lane : Bool) (s : State) : Host.Outcome State Fault Refusal :=
  ok (if !backOn b s then s
    else settlePresence b (onPlk b (fun p => if lane then { p with lock1 := true } else { p with lock0 := true }) s))

end Sys2Proof.Machine
end

