-- ==== Sys2Proof/Machine/PanelRows.lean ====
section
/-! DEFINITION. PANEL_LOAD and the completion of its check (R29 to R39). -/

namespace Sys2Proof.Machine

/-- Updates what is held of the panel description. -/
def onPnl (f : PanelSt → PanelSt) (s : State) : State := { s with pnl := f s.pnl }

/-- Nimbus's owner number for a PANEL_LOAD's hold (R375). -/
def loadOwner : Nat := 0x0301

/-- The checks PANEL_LOAD makes when it arrives (R29, R32, R366). -/
def chkPanelLoad (p : PanelLoadP) (s : State) : Option Verdict :=
  let fits := match bufOf s p.handle.toNat with
    | some b => segFits b p.bufOffset.toNat p.length.toNat
    | none => false
  firstOf
    [(!modeOk 0x0301 s || s.mode.mode == .starlight, no St.modeForbids), (s.dmc.state != 3, no St.notPresent),
     ((bufOf s p.handle.toNat).isNone, no St.badHandle), (1 < p.flags.toNat, no St.badParam),
     (s.pnl.load.isSome, no St.busy),
     (p.bufOffset.toNat % 8 != 0 || !fits, ⟨St.badParam, 0x01, 8, 0⟩)]

/-- The effect of PANEL_LOAD: Nimbus holds the buffer and the check begins (R33, R375). -/
def runPanelLoad (h : Hdr) (p : PanelLoadP) (s : State) : State :=
  match bufOf s p.handle.toNat with
  | none => s
  | some b =>
    let l : PanelLoad := ⟨h, b.idx, bufAddr b + p.bufOffset.toNat, p.length.toNat, p.flags.toNat.testBit 0⟩
    accepted h 0x0301 0 (onPnl (fun x => { x with load := some l }) (hold b.idx .nimbus loadOwner s))

/-- PANEL_LOAD as a row. -/
def rowPanelLoad (h : Hdr) (p : PanelLoadP) : Row :=
  { i := .panelLoad h p, h := h, opc := 0x0301, plens := [2], chk := chkPanelLoad p, run := runPanelLoad h p }

/-- PANEL_LOAD (R29). -/
def execPanelLoad (h : Hdr) (p : PanelLoadP) (s : State) : Host.Outcome State Fault Refusal := ok (command (rowPanelLoad h p) s)

/-- A file's GEOMETRY, STEERING or LINK section differs from the one resident (R32). -/
def differsResident (d : PanelDesc) (s : State) : Bool :=
  match s.pnl.desc with
  | some r => d.geom != r.geom || d.steer != r.steer || d.link != r.link
  | none => true

/-- SYN_VSCALE of a description, clamped to 64 to 4,096 (R106). -/
def vscaleSet (d : PanelDesc) : Nat := min 4096 (max 64 (vscaleOf d))

/-- Result words of a successful load (R30). -/
def loadWords (d : PanelDesc) (differs : Bool) : Verdict :=
  okay d.crc d.rays (d.views + d.nb * 2 ^ 16 + b2n (vscaleSet d != vscaleOf d) * 2 ^ 24 + b2n differs * 2 ^ 25)

/-- The settings in force with the new description break the budget of R114 or of R158 (R115, R158). -/
def loadBudget (d : PanelDesc) (s : State) : Option Nat :=
  let s' := onPnl (fun x => { x with desc := some d, full := true }) s
  match synBudget s.mode.mode s.mode.rate (pv s 0x0A03) d s with
  | some n => some n
  | none => if sweepBudget s.cam.sweepCfg.planes (sweepPorts s).length (camRate s) s' then none else some 0

/-- A description is installed whole (R33): the summary record when it changes (R37), SYN_VSCALE (R106), every rectification map
invalid when HX or HY changes (R163), a matching model code (R39). -/
def installPanel (d : PanelDesc) (s : State) : State :=
  let regrid := match s.pnl.desc with
    | some r => r.hx != d.hx || r.hy != d.hy
    | none => true
  let s := if nvGet s 0 0x01 0 = some (summaryBytes d) then s else nvOwn 0 0x01 0 (summaryBytes d) s
  let s := pSet 0x0A04 (vscaleSet d) (onPnl (fun x => { x with desc := some d, full := true }) s)
  let s := { s with parPend := s.parPend.filter (fun e => e.1 != 0x0A04) }
  let maps := camPorts.any (fun c => (portOf c s).map.isSome)
  let s := if regrid && maps then
      raise 0x8F [] (camPorts.foldl (fun s c => onPort c (fun q => { q with map := none }) s) s)
    else s
  let said := [false, true].filter (fun b => (plkOf b s).hello.isSome)
  if !said.isEmpty && said.all (fun b => !modelWrong b s) then { s with plk := { s.plk with mismatch := false } } else s

/-- The verdict on a file whose checks of R31 have passed, and whether it is installed (R30, R32, R37). -/
def judgeFile (l : PanelLoad) (d : PanelDesc) (s : State) : Verdict × Bool :=
  let same := s.mode.mode != .dawn
  let differs := same && differsResident d s
  if !modeOk 0x0301 s || s.mode.mode == .starlight then (no St.modeForbids, false)
  else if l.validate then (loadWords d differs, false)
  else if differs then (no St.modeForbids, false)
  else match loadBudget d s with
    | some n => (⟨St.budgetExceeded, n, 0, 0⟩, false)
    | none => if summaryDenied (masterOf l.h.src) d s then (no St.deniedLocked, false) else (loadWords d false, true)

/-- PANEL_LOAD_COMPLETION (R33): the check ends; the whole file is installed or nothing changes; the buffer is let go, the reply
given, and MODE_SETs held for the load are judged (R36). -/
def execPanelLoadCompletion (s : State) : Host.Outcome State Fault Refusal :=
  ok (match s.pnl.load with
    | none => s
    | some l =>
      let bs := memGetAll s.mem l.addr l.len
      let s := onPnl (fun x => { x with load := none }) s
      let s := match panelBad bs l.len with
        | some e => finish l.h 0x0301 ⟨St.badParam, e.code, e.off, e.type⟩ s
        | none =>
          let d := panelOf bs
          let v := judgeFile l d s
          finish l.h 0x0301 v.1 (if v.2 then installPanel d s else s)
      judgeHeld (release l.buf .nimbus loadOwner s))

end Sys2Proof.Machine
end

