-- ==== Sys2Proof/Machine/Steering.lean ====
section
/-! DEFINITION. The commands and happenings of the steering drive (R242 to R261, R536). -/

namespace Sys2Proof.Machine

/-! ## The thermistor (R246) -/

/-- A sample is taken, and what it makes of the settle limit is looked at (R252). -/
def takeTherm (code : BitVec 12) (s : State) : State := settleCheck (thermSample code.toNat s)

/-- Meridian instant of the last sample. -/
def lastThermAt (s : State) : Nat := merNs s - (s.time.ref - s.std.lastSample)

/-- The instant of the frame's sample, 2 ms before its S_Pk, for the first frame whose interval has not passed and holds no sample
yet; `n` bounds the frames looked at. -/
def thermDue : Nat → Nat → State → Option Nat
  | 0, _, _ => none
  | n + 1, t, s => match frameFrom t s with
    | none => none
    | some (b, _) =>
      if b - 2000000 ≤ lastThermAt s && 2000000 ≤ b then thermDue n (b + 1) s else some (b - 2000000)

/-- THERMISTOR_SAMPLE (R246): once per frame while a mode lights the panel, every 100 ms in Dawn. -/
def execThermistorSample (code : BitVec 12) (s : State) : Host.Outcome State Fault Refusal :=
  ok (if !mainOn s then s
    else if s.mode.mode = .dawn then takeTherm code (advanceRef (s.std.lastSample + 100000000) s)
    else match thermDue 4 (merNs s + 1000001) s with
      | some t => takeTherm code (advanceMer t s)
      | none => s)

/-! ## Settling (R253, R254) -/

/-- A common has been switched and has neither settled nor been counted as a miss. -/
def EdgeSt.waits (e : EdgeSt) : Bool := !e.settled && e.deadline != 0

/-- The band whose settle deadline comes first. -/
def nextMiss (s : State) : Option (EdgeSt × Nat) :=
  (sortBy (fun e => e.1.deadline) (((s.std.edges.take (bandsN s)).zipIdx).filter (fun e => e.1.waits))).head?

/-- STD_SETTLE_MISS (R253): a band's deadline passes unsettled: event 0xC2 with b and m; at STD_MISS_LIMIT in a pair one settle
step is added (R254), with the check of R252. -/
def execStdSettleMiss (s : State) : Host.Outcome State Fault Refusal :=
  ok (match (if s.std.powered then nextMiss s else none) with
    | none => s
    | some (e, b) =>
      let s := advanceMer e.deadline s
      let s := raise 0xC2 [(1, b), (8, e.m)] (onStd (fun d => { d with
        edges := d.edges.modify b (fun x => { x with settled := true })
        missPair := d.missPair + 1, misses := d.misses + 1 }) s)
      if s.std.missPair = pv s 0x0F02 then settleCheck (raise 0xC9 [] (onStd (fun d => { d with stepNext := true }) s)) else s)

/-- An edge of charge `q` at Meridian instant `t` works on a common's settling (R253). -/
def settleEdge (tol t q : Nat) (e : EdgeSt) : EdgeSt :=
  let near := match e.last with
    | some (q0, t0) => decide (e.since ≤ t0) && decide (((q : Int) - q0).natAbs * 1024 ≤ tol * q)
    | none => false
  { e with last := some (q, t), settled := e.settled || (e.waits && decide (e.since ≤ t) && decide (t ≤ e.deadline) && near) }

/-- What an output carries before an edge at `t`: its level times the carrier of the half-period that ends there (R237, R238). -/
def beforeEdge (s : State) (i t : Nat) : Int :=
  let o := s.std.level.getD i {}
  let v := if t ≤ o.odEnd then o.od else o.hold
  withSign (s.std.sign != (s.std.edge % 2 == 0)) v

/-- The DC trim of an output at an edge (R243): 0.5 µs more in the sign that reduces its accumulator, while that stands at
DC_LIMIT / 16 or more in the pair after a comparison at DC_LIMIT / 8. -/
def trimEdge (t : Nat) (s : State) (i : Nat) : State :=
  let a := s.std.acc.getD i 0
  let v := beforeEdge s i t
  if (s.std.edges.getD i {}).trim && decide (dcLimit s ≤ 16 * (a.natAbs : Nat)) && decide (a * v < 0) then
    onStd (fun d => { d with acc := d.acc.set i (a + 1000 * v) }) s
  else s

/-- CARRIER_EDGE (R237, R253): the next edge of the subframe at S_m + n × T_c / 2; `charges` are the charges the 72 outputs draw
after it. -/
def execCarrierEdge (charges : List Nat) (s : State) : Host.Outcome State Fault Refusal :=
  ok (match s.scn.cur with
    | none => s
    | some u =>
      let t := s.std.subAt + s.std.edge * (carrierNs s / 2)
      if !s.std.powered || (nextSub u s).at_ ≤ t then s
      else
        let s := stdIntegrate t (advanceMer t s)
        let s := (List.range 72).foldl (trimEdge t) s
        let tol := pv s 0x0F01
        let step := fun (x : EdgeSt × Nat) =>
          let q := charges.getD x.2 0
          let e := if x.2 < bandsN s then settleEdge tol t q x.1 else x.1
          { e with peak := max e.peak q }
        onStd (fun d => { d with edges := d.edges.zipIdx.map step, edge := d.edge + 1 }) s)

/-! ## Discharge (R242, R256) -/

/-- CROWBAR_CLOSE (R256 step 3): 50 µs into a discharge. -/
def execCrowbarClose (s : State) : Host.Outcome State Fault Refusal :=
  ok (match s.std.discharge, s.std.closedAt with
    | some t, none =>
      let s := advanceRef (t + 50000) s
      emit (.crowbar true) (onStd (fun d => { d with closedAt := some s.time.ref }) s)
    | _, _ => s)

/-- STD_DISCHARGED (R256 step 4): the discharge is complete, at most 2 ms after its start. -/
def execStdDischarged (s : State) : Host.Outcome State Fault Refusal :=
  ok (match s.std.discharge, s.std.closedAt with
    | some t, some _ => raise 0xC5 [] (onStd (fun d => { d with discharge := none }) (advanceRef (t + 2000000) s))
    | _, _ => s)

/-- STD_REST_EXPIRY (R242, R244): crowbarred for STD_REST, the accumulators are cleared and new pairs may start. -/
def execStdRestExpiry (s : State) : Host.Outcome State Fault Refusal :=
  ok (match s.std.closedAt with
    | some t =>
      if !mainOn s then s
      else onStd (fun d => { d with rest := false }) (stdRest (advanceRef (t + pv s 0x0F03 * 1000000) s))
    | none => s)

/-- HOLDUP_CHARGED (R536): the hold-up store, which charges while the input switch is closed, reaches 20.0 V. -/
def execHoldupCharged (s : State) : Host.Outcome State Fault Refusal :=
  ok (if s.mode.mode = .dormant then s else onStd (fun d => { d with charged := true }) s)

/-! ## Faults (R255) -/

/-- The output is driven on this panel (R233). -/
def outputUsed (o : Nat) (s : State) : Bool := o < bandsN s || (64 ≤ o && o < 72 && (o - 64) % 4 < phasesN s)

/-- STD_OVERCURRENT (R255): an output stays at its current limit; the drive is recovered as in R244. -/
def execStdOvercurrent (out : Byte) (s : State) : Host.Outcome State Fault Refusal :=
  ok (if s.std.powered && outputUsed out.toNat s then faultOf 0x08 0xC6 [(1, out.toNat)] s else s)

/-- STD_FAULT (R255): the driver fails its internal checks. -/
def execStdFault (s : State) : Host.Outcome State Fault Refusal := ok (if mainOn s then faultOf 0x08 0xCA [] s else s)

/-! ## STEER_CFG and STEER_STATUS (R260, R261) -/

/-- The band a STEER_CFG locks. -/
def lockAsked (p : SteerCfgP) : Option Nat := if p.bandMode = 1 then some p.band.toNat else none

/-- The checks of STEER_CFG, in the order of the table of R260. -/
def chkSteerCfg (p : SteerCfgP) (s : State) : Option Verdict :=
  let breaks := match lockAsked p, settleLimit s.mode.mode s.mode.rate with
    | some b, some l => decide (l < (bandRow s b).settle)
    | _, _ => false
  let trim := signed 16 p.trim.toNat
  let off := signed 16 p.offset.toNat
  firstOf
    [(!modeOk 0x0408 s || breaks, no St.modeForbids),
     (1 < p.bandMode.toNat || 15 < p.band.toNat || (p.bandMode == 0 && p.band != 0) || decide (trim < -256) ||
       decide (255 < trim) || decide (off < -100) || decide (100 < off) || p.rsv != 0, no St.badParam),
     (s.pnl.desc.isNone, no St.notPresent)]

/-- The frame of the next pair boundary (R241). -/
def nextPairFrame (s : State) : Nat :=
  let k := match s.scn.cur with | some u => u.k + 1 | none => 0
  if poweredJ s k % 2 = 0 then k else k + 1

/-- The effect of STEER_CFG: at the next pair boundary while the layer is powered, else at once (R260). -/
def runSteerCfg (h : Hdr) (p : SteerCfgP) (s : State) : State :=
  let trim := signed 16 p.trim.toNat
  let s := onStd (fun d => { d with offset := signed 16 p.offset.toNat }) s
  if s.std.powered then
    let s := settleCheck (onStd (fun d => { d with wait := some ⟨lockAsked p, trim⟩ }) s)
    finish h 0x0408 (okay (nextPairFrame s % 2 ^ 32)) s
  else
    finish h 0x0408 (okay 0xFFFFFFFF)
      (onStd (fun d => { d with lock := lockAsked p, trim := trim, wait := none, steps := 0, stepNext := false }) s)

/-- STEER_CFG as a row. -/
def rowSteerCfg (h : Hdr) (p : SteerCfgP) : Row :=
  { i := .steerCfg h p, h := h, opc := 0x0408, plens := [2], chk := chkSteerCfg p, run := runSteerCfg h p }

/-- STEER_CFG (R260). -/
def execSteerCfg (h : Hdr) (p : SteerCfgP) (s : State) : Host.Outcome State Fault Refusal := ok (command (rowSteerCfg h p) s)

/-- The reply of STEER_STATUS (R261). -/
def steerWords (s : State) : Verdict :=
  let st := if s.std.recovering then 3 else if s.std.powered then 2 else if s.std.discharge.isSome then 1 else 0
  okay (st + effBand s * 2 ^ 8 + s.std.band.getD 255 * 2 ^ 16 + b2n s.std.lock.isSome * 2 ^ 24 + b2n s.std.fault * 2 ^ 25)
    (unsigned 16 s.std.temp + settleNow s % 65536 * 2 ^ 16) (min s.std.dcMax 65535 + s.std.pairs % 65536 * 2 ^ 16)

/-- STEER_STATUS as a row. -/
def rowSteerStatus (h : Hdr) (code : BitVec 12) : Row :=
  { i := .steerStatus h code, h := h, opc := 0x0409, plens := [0], pre := takeTherm code, chk := fun _ => none,
    run := fun s => finish h 0x0409 (steerWords s) s }

/-- STEER_STATUS (R246, R261): the thermistor is sampled and the steering state reported. -/
def execSteerStatus (h : Hdr) (code : BitVec 12) (s : State) : Host.Outcome State Fault Refusal :=
  ok (command (rowSteerStatus h code) s)

end Sys2Proof.Machine
end

