-- ==== Sys2Proof/Machine/SweepRows.lean ====
section
/-! DEFINITION. The sweep: SWEEP_CFG (R157), its start, end and deadline (R153 to R156, R160), its faults (R159). -/

namespace Sys2Proof.Machine

/-! ## SWEEP_CFG (R157) -/

/-- A disparity of SWEEP_CFG. -/
def sweepDispAt (p : SweepCfgP) (i : Nat) : Int := signed 16 (p.disp.getD i 0).toNat

/-- Fields of SWEEP_CFG are in range. -/
def sweepCfgOk (p : SweepCfgP) : Bool :=
  let n := p.planes.toNat
  1 ≤ n && n ≤ 24 && p.flags.toNat ≤ 1 && 1 ≤ p.minViews.toNat && p.minViews.toNat ≤ 16 && p.rsv == 0 && p.lo.toNat ≤ 764 &&
  p.lo.toNat < p.hi.toNat && p.hi.toNat ≤ 765 && dispOk ((List.range n).map (sweepDispAt p)) &&
  (List.range (24 - n)).all (fun i => p.disp.getD (n + i) 0 == 0)

/-- SWEEP_CFG as a row. -/
def rowSweepCfg (h : Hdr) (p : SweepCfgP) : Row :=
  { i := .sweepCfg h p, h := h, opc := 0x0C08, plens := [7],
    chk := fun s => firstOf
      [(!modeOk 0x0C08 s, no St.modeForbids), (!sweepCfgOk p, no St.badParam),
       (p.planes.toNat != s.cam.sweepCfg.planes && !sweepBudget p.planes.toNat (sweepPorts s).length (camRate s) s,
        no St.budgetExceeded)],
    run := fun s => finish h 0x0C08 (okay) (onCam (fun c => { c with sweepCfg :=
      ⟨p.planes.toNat, p.flags.toNat.testBit 0, p.minViews.toNat, p.lo.toNat, p.hi.toNat,
       (List.range 24).map (sweepDispAt p)⟩ }) s) }

/-- SWEEP_CFG (R157). -/
def execSweepCfg (h : Hdr) (p : SweepCfgP) (s : State) : Host.Outcome State Fault Refusal := ok (command (rowSweepCfg h p) s)

/-! ## The sweep -/

/-- The sweep engine works: the main domain runs, memory is up, no recovery of it is in progress. -/
def sweepUp (s : State) : Bool :=
  mainOn s && s.dmc.state == 3 && sweepGroups s != 0 &&
  !s.evt.recs.any (fun r => r.running && (r.domain == 3 || r.level == 2 || r.level == 3))

/-- The frame whose sweep comes next (R153): after the last one, from the first frame of Skylight on, its deadline not past. -/
def nextSweep (f : Nat) (s : State) : Nat :=
  max (f + 2) (max s.cam.fromK (match s.cam.lastK with | some k => k + 1 | none => 0))

/-- Images that no sweep will read any more return their buffers. -/
def dropOldImages (k : Nat) (s : State) : State := dropAllImages (fun x => x.k ≤ k) s

/-- Without a camera present the sweep does not run: event 0x8B once until one runs again (R160). -/
def noSweep (k : Nat) (s : State) : State :=
  let s := if (match s.cam.lastNc with | some n => n != 0 | none => false) && !s.cam.noneSaid then
      raise 0x89 [(1, 0), (2, 0)] s else s
  let s := if s.cam.noneSaid then s else raise 0x8B [] s
  dropOldImages k (onCam (fun c => { c with noneSaid := true, lastK := some k }) s)

/-- The sweep of frame `k` begins in MPI slot `m` with the ports present (R148, R153, R157, R160). -/
def beginSweep (k m : Nat) (ports : List Nat) (s : State) : State :=
  let mask := ports.foldl (fun n c => n + 2 ^ c) 0
  let nc := ports.length
  let before := if s.cam.noneSaid then some 0 else s.cam.lastNc
  let s := if (match before with | some n => n != nc | none => false) then raise 0x89 [(1, nc), (2, mask)] s else s
  let n := sweepLimit s
  let cfg := { s.cam.sweepCfg with disp := s.cam.sweepCfg.disp.take n }
  let used := ports.filterMap (fun c => (portOf c s).images.find? (fun x => x.k == k) |>.bind (fun x =>
    (portOf c s).map.map (fun q => (c, x, q))))
  let s := used.foldl (fun s e => onPort e.1 (fun p => { p with images := p.images.filter (fun x => x.buf != e.2.1.buf) }) s) s
  let w : Sweep := ⟨k, m, used.map (fun e => (e.1, e.2.1.buf)), used.map (fun e => (e.2.1.cfg, e.2.2)), n, cfg⟩
  let s := onCam (fun c => { c with sweep := some w, lastK := some k, present := mask, lastNc := some nc, noneSaid := false }) s
  dropOldImages k (takeMpi m 4 cfg.disp s)

/-- SWEEP_START (R153): the next sweep starts once every port of it has its image, or at S_P(k−2). -/
def execSweepStart (s : State) : Host.Outcome State Fault Refusal :=
  ok (match frameAt (merNs s) s, freeMpi s with
    | some f, some m =>
      let k := nextSweep f s
      if s.mode.mode ≠ .skylight || !sweepUp s || s.scn.dark.isSome || s.cam.sweep.isSome || sweepPorts s == [] || f + 3 < k ||
          sweepLimit s = 0 then s
      else
        let all := (sweepPorts s).all (fun c => (portOf c s).images.any (fun x => x.k == k))
        let s := if all then s else advanceMer (frameStart (k - 2) s) s
        (match camPorts.filter (fun c => portPresent c k s) with
         | [] => noSweep k s
         | ports => beginSweep k m ports s)
    | _, _ => s)

/-- A sweep's camera buffers return to their ports (R149). -/
def returnImages (w : Sweep) (s : State) : State :=
  w.ports.foldl (fun s e => settlePort e.1 s) (move 0x13 4 8 w.ports.length s)

/-- SWEEP_END (R154 to R156): a sweep finishes before its deadline; its MPI slot is written and waits for synthesis. -/
def execSweepEnd (s : State) : Host.Outcome State Fault Refusal :=
  ok (match s.cam.sweep, s.pnl.desc with
    | some w, some d =>
      if !sweepUp s || frameStart (w.k - 1) s ≤ merNs s then s
      else
        let s := sweepWrite d w s
        returnImages w (onCam (fun c => { c with sweep := none, done := c.done ++ [(w.k, w.mpi)] }) s)
    | _, _ => s)

/-- SWP_DEADLINE (R153): S_P(k−1) comes with the sweep of frame k unfinished: it is abandoned, with event 0x88. -/
def execSwpDeadline (s : State) : Host.Outcome State Fault Refusal :=
  ok (match s.cam.sweep with
    | none => s
    | some w =>
      let s := abandonSweep (advanceMer (frameStart (w.k - 1) s) s)
      raise 0x88 [] (onCam (fun c => { c with misses := c.misses + 1 }) s))

/-- SWP_FAULT (R159): a sweep lane group fails its checks; the engine is recovered at L1, a repeated failure leaves the group out. -/
def execSwpFault (group : Fin 16) (s : State) : Host.Outcome State Fault Refusal :=
  ok (sweepFault group.val s)

end Sys2Proof.Machine
end

