-- ==== Sys2Proof/Machine/Synthesis.lean ====
section
/-! DEFINITION. The commands and happenings of Cumulus (R99 to R102, R117 to R124, R127, R130) and what the start of a synthesis
makes of the stream frames that fall due (R55, R56, R59). -/

namespace Sys2Proof.Machine

/-! ## What falls due at a synthesis start (R56) -/

/-- The first stream frame of a session that has not been decoded, as far as its header is known: stream offset, FRAME_NUMBER,
PTS with its lap, and whether all its bytes are present. -/
def undecoded (x : Session) (s : State) : Option (Nat × Nat × Nat × Bool) :=
  match x.decode with
  | some c => some (c.off, c.num, c.pts + lapOffset x s, true)
  | none =>
    match (if x.ended then none else nextFrame x) with
    | none => none
    | some o => (match streamRead x o 48 s with
      | some b =>
        if frameHdrOk b then some (o, field b 8 4, field b 16 8 + lapOffset x s, (frameBytes x o s).isSome) else none
      | none => none)

/-- ASAP (R59): stream time zero is set so that the first decoded frame is due at the display frame that starts at `t`. -/
def setAsap (i t : Nat) (s : State) : State :=
  match sessOf i s with
  | none => s
  | some x => (match x.start, x.frames with
    | none, f :: _ => onStat i (fun y => { y with start := t - f.t }) (onSess i (fun x => { x with start := some (t - f.t) }) s)
    | _, _ => s)

/-- A stream frame that is due at `t` and not decoded: late with event 0x69 (R56), or, of a backbone stream with bytes missing,
lost with code 0x18 (R63). -/
def lateFrame (i t : Nat) (s : State) : State :=
  match sessOf i s with
  | none => s
  | some x => (match undecoded x s, x.start with
    | some (o, num, pts, whole), some t0 =>
      if t < t0 + pts then s
      else if x.source = 1 ∧ !whole then
        raise 0x6A [(1, 0x18), (4, num)] (onStat i (fun y => { y with lost := y.lost + 1 }) (onSess i (resumeAfter o s) s))
      else if x.lateSaid.contains o then s
      else raise 0x69 [] (onStat i (fun y => { y with late := y.late + 1 })
        (onSess i (fun x => { x with lateSaid := o :: x.lateSaid.take 7 }) s))
    | _, _ => s)

/-- Decoded frames overtaken by a later one due at `t` are let go; the late ones among them, never shown, are dropped and counted
(R56). -/
def overtake (i t : Nat) (s : State) : State :=
  match sessOf i s with
  | none => s
  | some x => (match sessPick x t with
    | none => s
    | some f =>
      let old := x.frames.takeWhile (fun g => g.uid != f.uid)
      let n := (old.filter (fun g => g.late && some g.uid != x.shown.map (·.uid) && x.waiting != some g.uid)).length
      mpiCollect (onStat i (fun y => { y with drop := y.drop + n })
        (onSess i (fun x => { x with frames := x.frames.dropWhile (fun g => g.uid != f.uid) }) s)))

/-- What the synthesis start of the frame that starts at `t` makes of both sessions. -/
def framesDue (t : Nat) (s : State) : State :=
  [0, 1].foldl (fun s i => overtake i t (lateFrame i t (setAsap i t s))) s

/-! ## SYNTHESIS_START (R99, R102) -/

/-- New view shifts apply from their frames (R127): event 0x77. -/
def shiftsDue (k : Nat) (s : State) : State :=
  (s.syn.shiftNext.filter (fun e => e.1 ≤ k)).foldl (fun s e => raise 0x77 [(8, k)] (onSyn (fun y => { y with shift := e.2 }) s))
    (onSyn (fun y => { y with shiftNext := y.shiftNext.filter (fun e => k < e.1) }) s)

/-- The synthesis of frame `k` begins with a source (R99, R370): a slot of each half, the source's MPI in Cumulus's column. -/
def beginSynth (k : Nat) (d : PanelDesc) (f : FSrc) (a b : Nat) (s : State) : State :=
  let m := srcMpi f d s
  let v := valsFor k m d s
  let s := srcToCumulus f (move 0x10 0 5 1 s)
  let s := if d.nh = 2 then move 0x11 0 5 1 s else s
  let s := onFrames (fun l => l ++ [⟨k, v.phases, a, b, false, [], [], f, false, false⟩]) s
  let s := putStat ⟨k, 1, srcCode f, min m.disp.length v.planes, 0, srcTag f⟩ s
  let s := match f with
    | .session i _ uid => onSess i (fun x => { x with waiting := some uid }) s
    | _ => s
  onSyn (fun y => { y with cur := some ⟨k, f, m, v⟩, jobs := y.jobs.filter (fun j => j.k != k) }) s

/-- A frame job whose frame has passed without a synthesis has missed it (R121): its fence is written, DEADLINE_MISSED; a KEEP job
stays a source (R122, R124). -/
def missJob (j : FrameJob) (s : State) : State :=
  let s := onSyn (fun y => { y with
    kept := if j.keep && !y.kept.any (fun e => e.1 == j) then (j, false) :: y.kept else y.kept }) s
  endJob j ⟨St.deadlineMissed, j.k % 2 ^ 32, 0, 0⟩ true j.keep s

/-- Jobs for frames before `k` that were never started have missed them. -/
def missedJobs (k : Nat) (s : State) : State :=
  (s.syn.jobs.filter (fun j => decide (j.k < k))).foldl (fun s j => missJob j s)
    (onSyn (fun y => { y with jobs := y.jobs.filter (fun j => decide (k ≤ j.k)) }) s)

/-- The lowest free frame-store slots, of half B too when the panel has it. -/
def freeStores (d : PanelDesc) (s : State) : Option (Nat × Nat) :=
  match freeStore false s, (if d.nh = 2 then freeStore true s else some 0) with
  | some a, some b => some (a, b)
  | _, _ => none

/-- SYNTHESIS_START (R99): the next frame's synthesis starts at S_P(k−1) or at the end of the one before, with the source of R102;
without one the frame is repeated. Without a free slot it cannot start. -/
def execSynthesisStart (s : State) : Host.Outcome State Fault Refusal :=
  ok (match openFrame s, s.pnl.desc with
    | some k, some d =>
      if s.syn.cur.isSome || !isRendered s.mode.mode || !isRendered (modeAt k s) || !s.pnl.full || groupsOk s = 0 then s
      else match freeStores d s with
        | none => s
        | some (a, b) =>
          let s := advanceMer (max (frameStart (k - 1) s) (s.syn.freeAt.getD 0)) s
          let s := onSyn (fun y => { y with nextK := some (k + 1) }) s
          let s := missedJobs k (shiftsDue k s)
          let s := framesDue (frameStart k s) s
          let s := match sourceFor k d s with
            | some f => beginSynth k d f a b s
            | none => putStat ⟨k, 6, 0, 0, 0, 0⟩ s
          mpiCollect (onCam (fun c => { c with done := c.done.filter (fun e => k < e.1) }) s)
    | _, _ => s)

/-! ## SYN_COMMIT (R100) -/

/-- A half's phase blocks go into its frame-store slot; their CRCs are the result. -/
def writeHalf (c : Synth) (b : Bool) (slot : Nat) (s : State) : State × List Nat :=
  (c.vals.phases.zipIdx).foldl (fun e p =>
    let bs := blockBytes c.vals c.mpi s.mem (b2n b) p.1
    (devWrite (storeBase b slot + p.2 * c.vals.panel.block) bs e.1, e.2 ++ [crc32c bs])) (s, [])

/-- The frame is handed to Stratus with its CRCs (R100, R370). -/
def handOver (c : Synth) (s : State) : State :=
  match frameOf c.k s with
  | none => s
  | some f =>
    let two := c.vals.panel.nh = 2
    let wa := writeHalf c false f.slotA s
    let wb := if two then writeHalf c true f.slotB wa.1 else (wa.1, [])
    let s := onFrames (fun l => l.map (fun x =>
      if x.k = c.k then { x with committed := true, phases := c.vals.phases, crcA := wa.2, crcB := wb.2 } else x)) wb.1
    let s := move 0x10 5 6 1 s
    if two then move 0x11 5 7 1 s else s

/-- What a commit makes of the frame's job, or of the KEEP job held before it (R121, R122). -/
def commitJob (c : Synth) (slack : Nat) (s : State) : State :=
  match c.src with
  | .job j =>
    let again := s.syn.kept.any (fun e => e.1 == j)
    let s := dropKept (some j) s
    let s := onSyn (fun y => { y with kept := if j.keep then [(j, true)] else y.kept }) s
    if again then s
    else
      let s := if j.point = 0 then writeFence 0x78 j.fence j.value s
        else onSyn (fun y => { y with
          fences := if j.fence = 0 then y.fences else y.fences ++ [⟨c.k, j.point, j.fence, j.value⟩] }) s
      let v := okay (c.k % 2 ^ 32) (min c.mpi.disp.length c.vals.planes) slack
      endJob j v false j.keep s
  | _ => dropKept none s

/-- SYN_COMMIT (R100): the frame in synthesis is complete before its commit deadline: its store and CRCs, event 0x72. -/
def execSynCommit (s : State) : Host.Outcome State Fault Refusal :=
  ok (match s.syn.cur with
    | none => s
    | some c =>
      if commitBy c.k s < merNs s then s
      else
        let slack := (commitBy c.k s - merNs s) / 1000
        let s := handOver c s
        let s := onSyn (fun y => { y with
          cur := none, last := some ⟨c.k, c.src, c.vals⟩, freeAt := some (merNs s), committedK := max y.committedK c.k }) s
        let s := onFrameStat c.k (fun t => { t with
          state := 2, slack := slack, planes := min c.mpi.disp.length c.vals.planes }) s
        mpiCollect (raise 0x72 [(8, c.k), (4, slack)] (commitJob c slack s)))

/-- SYN_DEADLINE (R124): the frame in synthesis is not committed by S_Pk − 500 µs: it is stopped, event 0x74 with k and the fraction
done. -/
def execSynDeadline (done : Byte) (s : State) : Host.Outcome State Fault Refusal :=
  ok (match s.syn.cur with
    | none => s
    | some c =>
      let s := stopSynth (advanceMer (commitBy c.k s) s)
      let s := raise 0x74 [(8, c.k), (1, done.toNat)] (onSyn (fun y => { y with misses := y.misses + 1 }) s)
      match c.src with
      | .job j =>
        if s.syn.kept.any (fun e => e.1 == j) then
          onSyn (fun y => { y with kept := y.kept.map (fun e => if e.1 == j then (e.1, false) else e) }) s
        else missJob j s
      | _ => s)

/-- SYN_GROUP_FAULT (R130): a lane group fails its checks; Cumulus is recovered at L1, a repeated failure leaves the group out. -/
def execSynGroupFault (group : Byte) (s : State) : Host.Outcome State Fault Refusal :=
  ok (groupFault group.toNat s)

/-! ## Frame jobs (R117 to R121) -/

/-- Bytes of the occupancy map of one plane of a host MPI (R117). -/
def hostMap (mx my : Nat) : Nat := 8 * ceilDiv (ceilDiv mx 64 * ceilDiv my 64) 64

/-- The code of a failing host MPI (R118), in code order; `b` is its header and `avail` the bytes from it to the buffer's end. -/
def hostMpiBad (off avail : Nat) (b : List Byte) : Option Nat :=
  let mx := field b 4 2
  let my := field b 6 2
  let n := field b 8 1
  let fl := field b 9 1
  let stride := field b 12 4
  let data := field b 16 4
  let occ := field b 20 4
  let disp := fun (i : Nat) => field16s b (28 + 2 * i)
  if off % 64 ≠ 0 ∨ avail < 128 ∨ avail < data + (n - 1) * stride + 4 * (mx * my) ∨
      (fl.testBit 0 ∧ avail < occ + n * hostMap mx my) then some 0x01
  else if field b 0 4 ≠ 0x504D564C then some 0x02
  else if crc32c (bytesAt b 0 124) ≠ field b 124 4 then some 0x03
  else if mx = 0 ∨ 32768 < mx ∨ my = 0 ∨ 8640 < my ∨ n = 0 ∨ 48 < n ∨ 1 < fl ∨ !zeroAt b 10 2 ∨ !zeroAt b 24 4 ∨
      stride % 64 ≠ 0 ∨ stride < 4 * mx * my ∨ data % 64 ≠ 0 ∨ occ % 8 ≠ 0 ∨ (!fl.testBit 0 ∧ occ ≠ 0) ∨
      (List.range 48).any (fun i => (n ≤ i && disp i != 0) || decide (disp i < -16384) || decide (16383 < disp i)) then some 0x04
  else if (List.range (n - 1)).any (fun i => decide (disp (i + 1) ≤ disp i)) then some 0x05
  else none

/-- The host MPI of a checked header at a device address (R117). -/
def hostMpi (m : DevMem) (a : Nat) (b : List Byte) : Mpi :=
  let mx := field b 4 2
  let my := field b 6 2
  let n := field b 8 1
  let full := !(field b 9 1).testBit 0
  { base := a + field b 16 4, stride := field b 12 4, mx := mx, my := my,
    disp := (List.range n).map (fun i => field16s b (28 + 2 * i)), full := full,
    occ := if full then [] else (List.range n).map (fun i => leNat (memGetAll m (a + field b 20 4 + i * hostMap mx my) (hostMap mx my))) }

/-- The header a FRAME_SUBMIT names, its address and the bytes to the buffer's end. -/
def submitHdr (p : FrameSubmitP) (s : State) : Option (Buf × Nat × List Byte × Nat) :=
  (bufOf s p.handle.toNat).map (fun b =>
    let a := bufAddr b + p.offset.toNat
    (b, a, memGetAll s.mem a 128, b.units * unitBytes - p.offset.toNat))

/-- The code with which a FRAME_SUBMIT's header fails R118. -/
def submitBad (p : FrameSubmitP) (s : State) : Option Nat :=
  match submitHdr p s with
  | some (_, _, b, n) => hostMpiBad p.offset.toNat n b
  | none => none

/-- Fields of a FRAME_SUBMIT are in range. -/
def submitOk (p : FrameSubmitP) : Bool := p.fence.toNat % 8 == 0 && p.point.toNat ≤ 2 && p.flags.toNat ≤ 1 && p.rsv == 0

/-- The checks of FRAME_SUBMIT (R120), the header's last but one. -/
def chkFrameSubmit (h : Hdr) (p : FrameSubmitP) (s : State) : Option Verdict :=
  let k := targetFrame h s
  let early := match k with | some k => s.syn.jobs.any (fun j => k ≤ j.k) | none => false
  firstOf
    [(!modeOk 0x0305 s, no St.modeForbids), (8 ≤ s.syn.jobs.length, no St.noSpace), (early, no St.busy),
     ((bufOf s p.handle.toNat).isNone, no St.badHandle), (!submitOk p, no St.badParam),
     ((submitBad p s).isSome, ⟨St.badParam, (submitBad p s).getD 0, 0, 0⟩), (k.isNone, no St.timePassed)]

/-- The effect of FRAME_SUBMIT: the job is pending for its frame and Cumulus holds the buffer (R119, R120, R375). -/
def runFrameSubmit (h : Hdr) (p : FrameSubmitP) (s : State) : State :=
  match targetFrame h s, submitHdr p s with
  | some k, some (b, a, bs, _) =>
    let j : FrameJob := ⟨h, k, b.idx, hostMpi s.mem a bs, p.fence.toNat, p.value.toNat, p.point.toNat, p.flags.toNat.testBit 0⟩
    accepted h 0x0305 (k % 2 ^ 32) (onSyn (fun y => { y with jobs := y.jobs ++ [j] }) (hold b.idx .cumulus (jobOwner j) s))
  | _, _ => s

/-- A FRAME_SUBMIT judged: a header that fails R118 raises event 0x73 with the code (R132). -/
def rowFrameSubmit (h : Hdr) (p : FrameSubmitP) : Row :=
  { i := .frameSubmit h p, h := h, opc := 0x0305, plens := [4], host := p.fence != 0,
    chk := fun s => match chkFrameSubmit h p s with
      | some v => if v.status = St.badParam ∧ submitOk p then none else some v
      | none => none
    run := fun s => match chkFrameSubmit h p s with
      | some v => finish h 0x0305 v (raise 0x73 [(1, v.w0)] s)
      | none => runFrameSubmit h p s }

/-- FRAME_SUBMIT (R119). -/
def execFrameSubmit (h : Hdr) (p : FrameSubmitP) (s : State) : Host.Outcome State Fault Refusal :=
  ok (command (rowFrameSubmit h p) s)

/-! ## FRAME_STATUS (R123) -/

/-- The frame shown now. -/
def shownFrame (s : State) : Option Nat :=
  match s.scn.headA.now.frame with
  | some k => some k
  | none => s.scn.headB.now.frame

/-- The status asked for. -/
def statAsked (k : U64) (s : State) : Option FrameStat :=
  match (if k = BitVec.allOnes 64 then shownFrame s else some k.toNat) with
  | some n => s.syn.stats.find? (fun t => t.k == n)
  | none => none

/-- FRAME_STATUS as a row. -/
def rowFrameStatus (h : Hdr) (k : U64) : Row :=
  { i := .frameStatus h k, h := h, opc := 0x0306, plens := [1],
    chk := fun s => if (statAsked k s).isNone then some (no St.notPresent) else none
    run := fun s => match statAsked k s with
      | some t => finish h 0x0306 (okay (t.state + t.src * 2 ^ 8 + t.planes * 2 ^ 16) t.slack t.tag) s
      | none => s }

/-- FRAME_STATUS (R123). -/
def execFrameStatus (h : Hdr) (k : U64) (s : State) : Host.Outcome State Fault Refusal := ok (command (rowFrameStatus h k) s)

/-! ## VIEW_SHIFT (R127) -/

/-- A parallax field in range. -/
def parOk (v : U16) : Bool := let x := signed 16 v.toNat; decide (-4096 ≤ x) && decide (x ≤ 4095)

/-- The checks of VIEW_SHIFT. -/
def chkViewShift (h : Hdr) (p : ViewShiftP) (s : State) : Option Verdict :=
  firstOf
    [(!modeOk 0x0307 s, no St.modeForbids), (!parOk p.parX || !parOk p.parY || !mtOk p.t0 || p.rsv != 0, no St.badParam),
     ((targetFrame h s).isNone, no St.timePassed)]

/-- The shift a VIEW_SHIFT describes. -/
def shiftAsked (p : ViewShiftP) : Shift :=
  ⟨signed 32 p.originX.toNat, signed 32 p.originY.toNat, signed 32 p.rateX.toNat, signed 32 p.rateY.toNat,
   signed 16 p.parX.toNat, signed 16 p.parY.toNat, mtOf p.t0⟩

/-- The effect of VIEW_SHIFT: from its frame on, in place of shifts for the same or later frames. -/
def runViewShift (h : Hdr) (p : ViewShiftP) (s : State) : State :=
  match targetFrame h s with
  | some k => finish h 0x0307 (okay (k % 2 ^ 32)) (onSyn (fun y => { y with
      shiftNext := y.shiftNext.filter (fun e => e.1 < k) ++ [(k, shiftAsked p)] }) s)
  | none => s

/-- VIEW_SHIFT as a row. -/
def rowViewShift (h : Hdr) (p : ViewShiftP) : Row :=
  { i := .viewShift h p, h := h, opc := 0x0307, plens := [5], chk := chkViewShift h p, run := runViewShift h p }

/-- VIEW_SHIFT (R127). -/
def execViewShift (h : Hdr) (p : ViewShiftP) (s : State) : Host.Outcome State Fault Refusal := ok (command (rowViewShift h p) s)

end Sys2Proof.Machine
end

