-- ==== Sys2Proof/Machine/Held.lean ====
section
/-! DEFINITION. Commands taken up later: held back by R401, R405 or R493, held in the scheduler (R402), and the budgets (R403). -/

namespace Sys2Proof.Machine

/-- The row of an Imven command; none for every other command of the block. -/
def rowOf (i : Instr) : Option Row :=
  match i with
  | .timingSet h p => some (rowTimingSet h p)
  | .layerSet h p => some (rowLayerSet h p)
  | .layerEnable h p => some (rowLayerEnable h p)
  | .starlightSet h p => some (rowStarlightSet h p)
  | .scanoutStatus h p => some (rowScanoutStatus h p)
  | .modeSet h p => some (rowModeSet h p)
  | .modeGet h => some (rowModeGet h)
  | .panelLoad h p => some (rowPanelLoad h p)
  | .sceneOpen h p => some (rowSceneOpen h p)
  | .sceneFeed h p data => some (rowSceneFeed h p data)
  | .sceneCloseDrain h p => some (rowSceneCloseDrain h p)
  | .sceneCloseNow h p => some (rowSceneCloseNow h p)
  | .codecJobCompress h p => some (rowCodecJobCompress h p)
  | .codecJobDecompress h p => some (rowCodecJobDecompress h p)
  | .codecResume h p => some (rowCodecResume h p)
  | .codecAbort h p => some (rowCodecAbort h p)
  | .frameSubmit h p => some (rowFrameSubmit h p)
  | .frameStatus h k => some (rowFrameStatus h k)
  | .viewShift h p => some (rowViewShift h p)
  | .camCfgPort h p => some (rowCamCfgPort h p)
  | .camCfgOff h p => some (rowCamCfgOff h p)
  | .camCfgI2c h p => some (rowCamCfgI2c h p)
  | .camCfgMap h p => some (rowCamCfgMap h p)
  | .camTriggerCfg h p => some (rowCamTriggerCfg h p)
  | .sweepCfg h p => some (rowSweepCfg h p)
  | .camStatus h p => some (rowCamStatus h p)
  | .panelLinkTrain h p => some (rowPanelLinkTrain h p)
  | .panelPresRearm h p => some (rowPanelPresRearm h p)
  | .steerCfg h p => some (rowSteerCfg h p)
  | .steerStatus h code => some (rowSteerStatus h code)
  | .timeGet h => some (rowTimeGet h)
  | .timeSetAbsolute h p => some (rowTimeSetAbsolute h p)
  | .timeSetRelative h p => some (rowTimeSetRelative h p)
  | .timeSetAtPps h p => some (rowTimeSetAtPps h p)
  | .timeAdjustSlew h p => some (rowTimeAdjustSlew h p)
  | .timeAdjustFrequency h p => some (rowTimeAdjustFrequency h p)
  | .ptpPortCfg h p => some (rowPtpPortCfg h p)
  | .timerArm h p => some (rowTimerArm h p)
  | .timerCancel h p => some (rowTimerCancel h p)
  | .thermalRead h p => some (rowThermalRead h p)
  | .thermalLimitsSet h p => some (rowThermalLimitsSet h p)
  | .throttleAck h p => some (rowThrottleAck h p)
  | .paramSetDmcHash h p => some (rowParamSet (.paramSetDmcHash h p) h p)
  | .paramSetDmcDly h p => some (rowParamSet (.paramSetDmcDly h p) h p)
  | .bufAlloc h p => some (rowBufAlloc h p)
  | .bufFree h p => some (rowBufFree h p)
  | .bufCopy h p => some (rowBufCopy h p)
  | .bufQuery h p => some (rowBufQuery h p)
  | .ledgerRead h p upsets => some (rowLedgerRead h p upsets)
  | .nop h => some (rowNop h)
  | .getInfo h p => some (rowGetInfo h p)
  | .paramGet h p v => some (rowParamGet h p v)
  | .paramSet h p => some (rowParamSet (.paramSet h p) h p)
  | .paramList h p v => some (rowParamList h p v)
  | .leaseTake h p => some (rowLeaseTake h p)
  | .leaseRenew h => some (rowLeaseRenew h)
  | .leaseRelease h => some (rowLeaseRelease h)
  | .eventLogRead h p => some (rowEventLogRead h p)
  | .resetLevel1 h p => some (rowResetLevel1 h p)
  | .resetLevel2 h p => some (rowResetLevel2 h p)
  | .resetLevel3 h p => some (rowResetLevel3 h p)
  | .resetLevel4 h p => some (rowResetLevel4 h p)
  | .diagCapture h p => some (rowDiagCapture h p)
  | .netPortCfg h p => some (rowNetPortCfg h p)
  | .netVlanCfgVlan h p => some (rowNetVlanCfgVlan h p)
  | .netVlanCfgStaticEntry h p => some (rowNetVlanCfgStaticEntry h p)
  | .netVlanCfgPriorityMap h p => some (rowNetVlanCfgPriorityMap h p)
  | .netVlanCfgStream h p => some (rowNetVlanCfgStream h p)
  | .netSchedCfgWrite h p => some (rowNetSchedCfgWrite h p)
  | .netSchedCfgCommit h p => some (rowNetSchedCfgCommit h p)
  | .netSchedCfgDisable h p => some (rowNetSchedCfgDisable h p)
  | .netStats h p => some (rowNetStats h p)
  | .nvRead h p => some (rowNvRead h p)
  | .nvWrite h p data fails => some (rowNvWrite h p data fails)
  | .nvWriteDelete h p => some (rowNvWriteDelete h p)
  | .nvUnlock h p rsv8 => some (rowNvUnlock h p rsv8)
  | .nvLock h p => some (rowNvLock h p)
  | .nvLockSetPassword h p => some (rowNvLockSetPassword h p)
  | .nvLockRemovePassword h p => some (rowNvLockRemovePassword h p)
  | .nvCounterAdd h p => some (rowNvCounterAdd h p)
  | .nvLogRead h p => some (rowNvLogRead h p)
  | .calRun h p => some (rowCalRun h p)
  | .calExport h p => some (rowCalExport h p)
  | .calImport h p => some (rowCalImport h p)
  | .calStatus h p => some (rowCalStatus h p)
  | .testRun h p => some (rowTestRun h p)
  | .testResult h p => some (rowTestResult h p)
  | .testAbort h => some (rowTestAbort h)
  | .lifeGet h => some (rowLifeGet h)
  | .challengeGetNew h p => some (rowChallengeGetNew h p)
  | .challengeGetPart h p => some (rowChallengeGetPart h p)
  | .responsePut h p => some (rowResponsePut h p)
  | .passwordPut h p => some (rowPasswordPut h p)
  | .attestQuoteForm h p => some (rowAttestQuoteForm h p)
  | .attestQuotePart h p => some (rowAttestQuotePart h p)
  | .lifeAdvance h p trims cut => some (rowLifeAdvance h p trims cut)
  | .keyInstallOwnerKey h p => some (rowKeyInstallOwnerKey h p)
  | .keyInstallFleetKey h p => some (rowKeyInstallFleetKey h p)
  | .keyInstallPassword h p => some (rowKeyInstallPassword h p)
  | .keyInstallRemovePassword h p => some (rowKeyInstallRemovePassword h p)
  | .fwBegin h p => some (rowFwBegin h p)
  | .fwChunk h p fails => some (rowFwChunk h p fails)
  | .fwCommit h => some (rowFwCommit h)
  | .fwActivateArm h p => some (rowFwActivateArm h p)
  | .fwActivateConfirm h p cut => some (rowFwActivateConfirm h p cut)
  | .fwActivateDisarm h p => some (rowFwActivateDisarm h p)
  | .detachPrepare h p stall took => some (rowDetachPrepare h p stall took)
  | .paramSetHwdRearm h p => some (rowParamSet (.paramSetHwdRearm h p) h p)
  | _ => none

/-- The row of a command kept as an instruction with its packet: a stray packet keeps its opcode. -/
def keptRow (i : Instr) (h : Hdr) (opc : Nat) : Option Row :=
  match rowOf i with
  | some r => if r.opc = opc then some r else some (rowStray ⟨h, BitVec.ofNat 16 opc⟩)
  | none => none

/-! ## Deferred acceptance -/

/-- A command does not wait any more. -/
def dropWait (w : Wait) (s : State) : State := { s with cmd := { s.cmd with waits := s.cmd.waits.erase w } }

/-- A command held by an in-service test: when the test has ended the command is accepted and its own checks proceed
(R493). One that ran from the scheduler has been accepted already. -/
def resumeTest (w : Wait) (r : Row) (s : State) : State :=
  if (testBlock r.opc r.i s).isSome then s
  else
    let s := dropWait w s
    perform r (if (liveOf s (keyOf r.h)).isSome then s else admitLive r (merNs s) s)

/-- A command that stands unread at the head of its ring (R401): it is read once the completion ring has room; the wait raises
event 0x26 once. -/
def resumeUnread (w : Wait) (r : Row) (k : Nat) (s : State) : State :=
  let x := ringOf s k
  if !s.cmd.up || !s.cmd.ready || x.state != .running || x.sqBad then s
  else if cqRoom s k < repliesOf r.opc then
    if x.waitRaised then s else raise 0x26 [] (setRing k { x with waitRaised := true } s)
  else
    let s := readEntry k s
    if mustWait r.h s then
      { s with cmd := { s.cmd with waits := s.cmd.waits.map (fun v => if v = w then { v with seqExp := some x.seqExp } else v) } }
    else takeUp r (some x.seqExp) (dropWait w s)

/-- A command read, whose ordering conditions R405 may hold by now. A side-band packet that woke the module is taken as
received once it has started (R299). -/
def resumeRead (w : Wait) (r : Row) (s : State) : State :=
  if mustWait r.h s || (r.h.src == .side && !mainOn s && !dormantOps.contains r.opc) then s
  else takeUp r (if r.h.src == .side then none else w.seqExp) (dropWait w s)

/-- The first waiting command of a source goes on, when what it waits for has come. -/
def resume (src : Src) (s : State) : State :=
  match s.cmd.waits.find? (fun w => w.h.src == src) with
  | none => s
  | some w =>
    match keptRow w.i w.h w.opcode with
    | none => s
    | some r =>
      if w.test.isSome then resumeTest w r s
      else match src, w.seqExp with
        | .ring k, none => resumeUnread w r k.val s
        | _, _ => resumeRead w r s

/-- DEFERRED_ACCEPTANCE (R401, R405, R493). -/
def execDeferredAcceptance (src : Src) (s : State) : Host.Outcome State Fault Refusal := ok (resume src s)

/-! ## The scheduler -/

/-- A held command leaves the scheduler at its target time. -/
def leaveSched (e : Held) (s : State) : State :=
  lateAction e.t (advanceMer e.t { s with cmd := { s.cmd with sched := s.cmd.sched.erase e } })

/-- A command is performed, unless an in-service test holds it back (R493). -/
def performOrHold (r : Row) (exp : Option Nat) (s : State) : State :=
  match holdForTest r exp s with
  | some s' => s'
  | none => perform r s

/-- A held command runs as if it arrived now (R402): its own checks and its effect, unless an in-service test holds it back. -/
def runHeld (e : Held) (s : State) : State :=
  let s := leaveSched e s
  match keptRow e.i e.h e.opcode with
  | none => s
  | some r => performOrHold r (some e.h.seq.toNat) s

/-- An L2 runs (R404). -/
def l2Running (s : State) : Bool := s.evt.recs.any (fun r => r.running && r.level == 2)

/-- SCHEDULED_COMMAND_RUN (R402, R404): the target of the held command in a slot is reached, not while an L2 runs. -/
def execScheduledCommandRun (slot : Fin 64) (s : State) : Host.Outcome State Fault Refusal :=
  ok (match s.cmd.sched.find? (fun e => e.slot == slot.val) with
    | none => s
    | some e => if l2Running s then s else runHeld e s)

/-! ## Budgets -/

/-- The rule "stop" (R403): a copy ends with its bytes copied (R376), a codec job stops with code 0x84 (R87). -/
def stopCommand (l : Live) (s : State) : State :=
  match s.buf.copies.find? (fun c => keyOf c.h == keyOf l.h),
        s.cdc.jobs.find? (fun j => j.running && keyOf j.h == keyOf l.h) with
  | some c, _ => endCopy St.deadlineMissed c s
  | none, some j => jobStops j.idx St.deadlineMissed 0x84 j.block s
  | none, none => finish l.h l.opcode (no St.deadlineMissed)
      { s with cmd := { s.cmd with sched := s.cmd.sched.filter (fun e => keyOf e.h != keyOf l.h),
                                   waits := s.cmd.waits.filter (fun w => keyOf w.h != keyOf l.h) } }

/-- A budget has run out (R403): event 0x24 with the opcode, the tag and the source, then the opcode's rule. -/
def missBudget (l : Live) (s : State) : State :=
  let s := { s with cmd := { s.cmd with
    deadlines := s.cmd.deadlines + 1
    live := s.cmd.live.map (fun x => if keyOf x.h = keyOf l.h then { x with deadline := none, late := x.late || !l.stop } else x) } }
  let s := raise 0x24 [(2, l.opcode), (2, l.h.tag.toNat), (1, masterCode (masterOf l.h.src))] s
  if l.stop then stopCommand l s else s

/-- CMD_DEADLINE (R403). -/
def execCmdDeadline (k : CmdKey) (s : State) : Host.Outcome State Fault Refusal :=
  ok (match liveOf s k with
    | none => s
    | some l => match l.deadline with
      | none => s
      | some d => missBudget l (advanceMer d s))

end Sys2Proof.Machine
end

