-- ==== Sys2Proof/Machine/PowerRows.lean ====
section
/-! DEFINITION. Power and wakes (chapter 10): VMAIN, the power manager (R297, R302, R304), wakes (R298, R299, R310). -/

namespace Sys2Proof.Machine

/-- A quiesce runs, or the detached state stands with DETACH_REQ_N asserted: no wake acts (R545, R547). -/
def wakesIgnored (s : State) : Bool :=
  s.hwd.quiesce.isSome || s.mode.shutUntil.isSome || (s.hwd.detached && detAsserted s)

/-- The detached state ends (R547): SAFE_N is released. -/
def leaveDetached (s : State) : State :=
  if s.hwd.detached then { s with hwd := { s.hwd with detached := false, safe := false } } else s

/-- A wake source of R298 acts in Dormant: ignored while its bit is clear, held with event 0x03 while VMAIN is not qualified,
merged with others. -/
def wakeBy (b : Nat) (s : State) : State :=
  if s.mode.mode != .dormant || wakesIgnored s || !(pv s 0x0104).testBit b then s
  else
    let s := leaveDetached s
    if s.mode.vmainQual then onMode (fun m => { m with waking := some (m.waking.getD 0 ||| 2 ^ b) }) s
    else raise 0x03 [] (onMode (fun m => { m with wakeHeld := m.wakeHeld ||| 2 ^ b }) s)

/-- WAKE (R299): a wake that has been accepted starts the main domain and enters Dawn, or Recovery when no firmware
verifies; a thermal sample is taken, and the wakes are counted (R471). -/
def execWake (t : ThmRead) (s : State) : Host.Outcome State Fault Refusal :=
  ok (match s.mode.waking with
    | none => s
    | some mask => if s.mode.mode = .dormant ∧ s.mode.vmainQual then startSample t (startAfterWake mask (bumpCounter 2 s)) else s)

/-- VMAIN_QUALIFIED (R297, R302): VMAIN has stayed in range for 10 ms. A held wake acts; at power-up the module wakes unless
MODE_POWERUP is 1; the detached state keeps it in Dormant, and DETACH_REQ_N asserted at step 8 of R543 enters it. -/
def execVmainQualified (s : State) : Host.Outcome State Fault Refusal :=
  ok (if s.mode.vmainQual || !s.mode.vauxOn then s
    else
      let s := onMode (fun m => { m with vmainQual := true }) s
      let seating := s.hwd.seating
      let s := onHwd (fun w => { w with seating := false }) s
      if seating && detAsserted s then onHwd (fun w => { w with detached := true, safe := true, safeAt := s.time.ref }) s
      else if s.mode.mode != .dormant || s.hwd.detached || s.hwd.quiesce.isSome then s
      else if s.mode.wakeHeld ≠ 0 then onMode (fun m => { m with waking := some m.wakeHeld }) s
      else if pv s 0x0103 = 0 then onMode (fun m => { m with waking := some 0 }) s
      else s)

/-- PWR_VMAIN_RANGE (R302): VMAIN stands outside 10.8 V to 13.2 V, above 9.0 V: event 0x05 once until it has been back in range
for 1 s. -/
def execPwrVmainRange (mv : Nat) (s : State) : Host.Outcome State Fault Refusal :=
  ok (if !mainOn s || mv ≤ 9000 || (10800 ≤ mv && mv ≤ 13200) then s
    else
      let again := match s.mode.vmainRange with | some t => decide (t + nsPerSec ≤ s.time.ref) | none => true
      let s := { s with pwr := { s.pwr with vmainMv := mv } }
      raiseIf again 0x05 [] (onMode (fun m => { m with vmainRange := some s.time.ref }) s))

/-- PWR_VMAIN_LOST (R302): VMAIN is below 9.0 V. During the quiesce its later steps complete on VAUX (R549). -/
def execPwrVmainLost (s : State) : Host.Outcome State Fault Refusal :=
  ok (if !s.mode.vmainQual then s
    else
      let s := onMode (fun m => { m with vmainQual := false, waking := none }) s
      quiesceOnVaux (powerLoss 0x06 s))

/-! ## The power manager (R304) -/

/-- VMAIN has been back in range: event 0x05 is armed again after 1 s (R302). -/
def rangeSeen (mv : Nat) (s : State) : State :=
  if 10800 ≤ mv ∧ mv ≤ 13200 then s else onMode (fun m => { m with vmainRange := m.vmainRange.map (fun _ => s.time.ref) }) s

/-- A 10 ms average in mW is judged: overdraw after three above 105 % of the mode's maximum, clear after three at or below it
(R304). -/
def judgePower (avg : Nat) (s : State) : State :=
  let lim := modePower s.mode.mode
  let was := throttled s
  let s := { s with pwr := { s.pwr with
    avg10 := avg, avgs := (avg :: s.pwr.avgs).take 100,
    overRun := if 105 * lim < 100 * avg then s.pwr.overRun + 1 else 0,
    underRun := if avg ≤ lim then s.pwr.underRun + 1 else 0 } }
  if !s.pwr.capped && 3 ≤ s.pwr.overRun then
    throttleEvent 3 (avg / 10 : Nat) (raise 0x04 [] { s with pwr := { s.pwr with capped := true, overCount := s.pwr.overCount + 1, overRun := 0 } })
  else if s.pwr.capped && 3 ≤ s.pwr.underRun then
    (let s := { s with pwr := { s.pwr with capped := false, underRun := 0 } }
     if was && !throttled s then throttleCleared s else s)
  else s

/-- POWER_SAMPLE (R304): every 100 µs the power manager measures VMAIN and keeps the energy estimate and the 10 ms average. -/
def execPowerSample (p : PowerRead) (s : State) : Host.Outcome State Fault Refusal :=
  ok (let s := { s with pwr := { s.pwr with vmainMv := p.mv, vauxMw := p.vaux } }
    if !mainOn s then s
    else
      let s := rangeSeen p.mv (advanceRef (s.pwr.lastSample + 100000) s)
      let s := { s with pwr := { s.pwr with
        lastSample := s.time.ref, e := s.pwr.e + p.mw, winSum := s.pwr.winSum + p.mw, winCount := s.pwr.winCount + 1 } }
      if s.pwr.winCount < 100 then s
      else judgePower (s.pwr.winSum / 100) { s with pwr := { s.pwr with winSum := 0, winCount := 0 } })

/-! ## Horizon's own sources -/

/-- A reading of the Horizon sensor lies outside THM_WAKE_LOW and THM_WAKE_HIGH (R310). -/
def tripReading (v : Int) (s : State) : Bool := decide (v < pvs s 16 0x0209) || decide (pvs s 16 0x020A ≤ v)

/-- HORIZON_SENSOR_READ (R310): in Dormant, every 60 s; the second reading in a row outside the limits raises event 0x19 and
wakes the module. -/
def execHorizonSensorRead (v : Int) (s : State) : Host.Outcome State Fault Refusal :=
  ok (if s.mode.mode != .dormant || !s.mode.vauxOn then s
    else
      let s := advanceRef (s.thm.horLast + 60 * nsPerSec) s
      let s := onThm (fun t => { t with hor := v, horLast := s.time.ref }) s
      if !tripReading v s then onThm (fun t => { t with tripCount := 0, tripped := false }) s
      else
        let n := s.thm.tripCount + 1
        let s := onThm (fun t => { t with tripCount := n }) s
        if n < 2 || s.thm.tripped then s else wakeBy 5 (raise 0x19 [] (onThm (fun t => { t with tripped := true }) s)))

/-- PE_PERST_RISE (R298): a rising edge of PE_PERST_N wakes the module. -/
def execPePerstRise (s : State) : Host.Outcome State Fault Refusal := ok (wakeBy 2 s)

/-- HORIZON_ALARM (R287): the WAKE timer that expires first in Dormant wakes the module; event 0x34 follows the wake. -/
def execHorizonAlarm (s : State) : Host.Outcome State Fault Refusal :=
  ok (if s.mode.mode != .dormant then s
    else match sortBy (fun t => t.t) s.time.alarms with
      | [] => s
      | t :: _ => wakeBy 3 (advanceMer t.t s))

/-- VAUX_LOST (R549, R302): everything Horizon held ends. The NV store, the fuses and the firmware slots stay; time starts anew
at the next power-up. -/
def execVauxLost (s : State) : Host.Outcome State Fault Refusal :=
  ok { pending := s.pending, out := s.out, free := s.free,
       mode := { ({} : ModeSt) with vauxOn := false, ledgerRebuilt := true },
       std := { ({} : StdSt) with owed := s.std.owed || s.std.powered },
       nv := { ({} : NvSt) with slots := s.nv.slots },
       sec := { ({} : SecSt) with
         lifeFuses := s.sec.lifeFuses, rollFuses := s.sec.rollFuses, revoke := s.sec.revoke, sensorTrim := s.sec.sensorTrim,
         slotA := s.sec.slotA, slotB := s.sec.slotB, sealedFactory := s.sec.sealedFactory, erasePend := s.sec.erasePend,
         abortedPend := s.sec.abortedPend || s.sec.update.isSome } }

end Sys2Proof.Machine
end

