-- ==== Sys2Proof/Machine/SideBand.lean ====
section
/-! DEFINITION. The side-band port (R410, R411, R451 to R454): messages taken from SB_T1 and SB_SMB, MCTP control, the link of
SB_T1. -/

namespace Sys2Proof.Machine

/-- A message is dropped and counted, with event 0xDD (R410, R452). -/
def sbDrop (s : State) : State := raise 0xDD [] { s with cmd := { s.cmd with sbDropped := s.cmd.sbDropped + 1 } }

/-- A kept reply with the SEQ and TAG of a command (R411). -/
def keptReply (m : SbMsg) (s : State) : Option Reply := s.cmd.sbKept.find? (fun r => r.seq == m.h.seq && r.tag == m.h.tag)

/-- DETACH_REQ_N holds the module in the detached state (R547). -/
def detachHolds (s : State) : Bool := s.hwd.detached && s.hwd.det.on && !s.hwd.det.masked

/-- A message that passed R410 is taken: its source is remembered for the reply, a stray packet is judged at once. -/
def sbTake (from_ : SbFrom) (m : SbMsg) (s : State) : State :=
  let m : SbMsg := { m with h := { m.h with src := .side } }
  let s := { s with
    sbd := { s.sbd with from_ := s.sbd.from_ ++ [(keyOf m.h, from_)] }
    cmd := { s.cmd with sbReady := s.cmd.sbReady ++ [m] } }
  if m.stray then command (rowStray ⟨m.h, m.opcode⟩) s else s

/-- In Dormant a packet that Horizon does not answer itself wakes the module, or is refused while its source's bit is clear or
DETACH_REQ_N holds the detached state (R300, R547). -/
def sbRefusal (bit : Nat) (m : SbMsg) (s : State) : Option Verdict :=
  if s.mode.mode != .dormant || dormantOps.contains m.opcode.toNat then none
  else if detachHolds s then some ⟨St.modeForbids, 5, 0, 0⟩
  else if !(pv s 0x0104).testBit bit then some (no St.modeForbids)
  else none

/-- A side-band message arrives (R410, R411, R300). -/
def sbIn (from_ : SbFrom) (bit : Nat) (m : SbMsg) (s : State) : State :=
  if !m.wellFormed then sbDrop s
  else match keptReply m s with
    | some r => emit (.sbReply (some from_) false r) s
    | none =>
      let h : Hdr := { m.h with src := .side }
      match sbRefusal bit m s with
      | some v => finish h m.opcode.toNat v { s with sbd := { s.sbd with from_ := s.sbd.from_ ++ [(keyOf h, from_)] } }
      | none =>
        let s := if dormantOps.contains m.opcode.toNat then s else wakeBy bit s
        sbTake from_ m s

/-- SB_T1_DATAGRAM (R451): an ARP request for SBD_IP is answered; a datagram to SBD_IP and SBD_UDP_PORT carries a message;
everything else is discarded. -/
def execSbT1Datagram (f : T1Frame) (s : State) : Host.Outcome State Fault Refusal :=
  ok (if !s.mode.vauxOn || !s.sbd.up then s
    else match f with
      | .arp target sender mac =>
        if target.toNat = pv s 0x1101 then
          emit (.sbArp (pv s 0x1101) (pv s 0x1100) ⟨true, sender.toNat, 0, mac.toNat⟩) s
        else s
      | .udp dstMac srcMac dst dstPort m =>
        if dstMac.toNat = pv s 0x1100 ∧ dst.toNat = pv s 0x1101 ∧ dstPort.toNat = pv s 0x1102 then
          sbIn ⟨true, m.addr.toNat, m.port.toNat, srcMac.toNat⟩ 0 m s
        else s
      | .other => s)

/-- A transfer on the SMBus reaches the module (R452): its own address; one with a wrong PEC is dropped. -/
def smbIn (f : SmbFrame) (act : State → State) (s : State) : State :=
  if !s.mode.vauxOn || f.addr.toNat ≠ pv s 0x1103 then s
  else if !f.pecOk then sbDrop s
  else act s

/-- MCTP_MESSAGE (R452). -/
def execMctpMessage (f : SmbFrame) (m : SbMsg) (s : State) : Host.Outcome State Fault Refusal :=
  ok (smbIn f (sbIn ⟨false, f.source.toNat, 0, 0⟩ 1 m) s)

/-- SET_ENDPOINT_ID (R452): operations 0 and 1 set the endpoint ID, with event 0xDC; others, and IDs outside 8 to 254, are
invalid data (completion codes and layout as DSP0236 gives them). -/
def execSetEndpointId (f : SmbFrame) (op : Byte) (eid : Byte) (s : State) : Host.Outcome State Fault Refusal :=
  ok (smbIn f (fun s =>
    if op.toNat ≤ 1 ∧ 8 ≤ eid.toNat ∧ eid.toNat ≤ 254 then
      emit (.mctpReply 1 [0x00, 0x00, eid, 0x00]) (raise 0xDC [] { s with sbd := { s.sbd with eid := eid.toNat } })
    else emit (.mctpReply 1 [0x02, 0x10, BitVec.ofNat 8 s.sbd.eid, 0x00]) s) s)

/-- GET_ENDPOINT_ID (R452): a simple endpoint with a dynamic ID. -/
def execGetEndpointId (f : SmbFrame) (s : State) : Host.Outcome State Fault Refusal :=
  ok (smbIn f (fun s => emit (.mctpReply 2 [0x00, BitVec.ofNat 8 s.sbd.eid, 0x00, 0x00]) s) s)

/-- GET_MCTP_VERSION_SUPPORT (R452): for the base (0xFF), control (0x00) and vendor-defined (0x7E) messages; another type is
not supported (completion code 0x80). -/
def execGetMctpVersionSupport (f : SmbFrame) (type : Byte) (s : State) : Host.Outcome State Fault Refusal :=
  ok (smbIn f (fun s =>
    if type = 0xFF ∨ type = 0x00 ∨ type = 0x7E then emit (.mctpReply 4 (0x00 :: Config.mctpVersions type.toNat)) s
    else emit (.mctpReply 4 [0x80]) s) s)

/-- GET_MESSAGE_TYPE_SUPPORT (R452): one type beside control messages, 0x7E. -/
def execGetMessageTypeSupport (f : SmbFrame) (s : State) : Host.Outcome State Fault Refusal :=
  ok (smbIn f (emit (.mctpReply 5 [0x00, 0x01, 0x7E])) s)

/-- SBD_LINK_UP (R455): SB_T1 gains link, event 0xDA. -/
def execSbdLinkUp (s : State) : Host.Outcome State Fault Refusal :=
  ok (if !s.mode.vauxOn || s.sbd.up then s else raise 0xDA [] { s with sbd := { s.sbd with up := true } })

/-- SBD_LINK_DOWN (R455): SB_T1 loses link, event 0xDB. -/
def execSbdLinkDown (s : State) : Host.Outcome State Fault Refusal :=
  ok (if !s.sbd.up then s else raise 0xDB [] { s with sbd := { s.sbd with up := false } })

end Sys2Proof.Machine
end

