-- ==== Sys2Proof/Machine/Dispatch.lean ====
section
/-! DEFINITION. The dispatch: one arm per constructor of Instr, each one direct call of its meaning. -/

namespace Sys2Proof.Machine

def exec (i : Instr) (s : State) : Host.Outcome State Fault Refusal :=
  match i with
  | .bandInstant p => Sys2Proof.Machine.execBandInstant p s
  | .flatRowWrite p => Sys2Proof.Machine.execFlatRowWrite p s
  | .scnHeadFault b => Sys2Proof.Machine.execScnHeadFault b s
  | .timingSet h p => Sys2Proof.Machine.execTimingSet h p s
  | .layerSet h p => Sys2Proof.Machine.execLayerSet h p s
  | .layerEnable h p => Sys2Proof.Machine.execLayerEnable h p s
  | .starlightSet h p => Sys2Proof.Machine.execStarlightSet h p s
  | .scanoutStatus h p => Sys2Proof.Machine.execScanoutStatus h p s
  | .modeSet h p => Sys2Proof.Machine.execModeSet h p s
  | .modeGet h => Sys2Proof.Machine.execModeGet h s
  | .panelLoad h p => Sys2Proof.Machine.execPanelLoad h p s
  | .sceneOpen h p => Sys2Proof.Machine.execSceneOpen h p s
  | .sceneFeed h p data => Sys2Proof.Machine.execSceneFeed h p data s
  | .sceneCloseDrain h p => Sys2Proof.Machine.execSceneCloseDrain h p s
  | .sceneCloseNow h p => Sys2Proof.Machine.execSceneCloseNow h p s
  | .streamDatagram port payload => Sys2Proof.Machine.execStreamDatagram port payload s
  | .streamFrameDecodeStart slot => Sys2Proof.Machine.execStreamFrameDecodeStart slot s
  | .streamFrameDecoded slot => Sys2Proof.Machine.execStreamFrameDecoded slot s
  | .sessionEndComplete slot => Sys2Proof.Machine.execSessionEndComplete slot s
  | .codecJobCompress h p => Sys2Proof.Machine.execCodecJobCompress h p s
  | .codecJobDecompress h p => Sys2Proof.Machine.execCodecJobDecompress h p s
  | .codecResume h p => Sys2Proof.Machine.execCodecResume h p s
  | .codecAbort h p => Sys2Proof.Machine.execCodecAbort h p s
  | .cirrusBlockStart engine => Sys2Proof.Machine.execCirrusBlockStart engine s
  | .cirrusBlockDone engine host => Sys2Proof.Machine.execCirrusBlockDone engine host s
  | .cdcHostStarved slot => Sys2Proof.Machine.execCdcHostStarved slot s
  | .cdcSuspendLimitExpiry slot => Sys2Proof.Machine.execCdcSuspendLimitExpiry slot s
  | .cdcEngineFault engine => Sys2Proof.Machine.execCdcEngineFault engine s
  | .synDeadline done => Sys2Proof.Machine.execSynDeadline done s
  | .synGroupFault group => Sys2Proof.Machine.execSynGroupFault group s
  | .frameSubmit h p => Sys2Proof.Machine.execFrameSubmit h p s
  | .frameStatus h k => Sys2Proof.Machine.execFrameStatus h k s
  | .viewShift h p => Sys2Proof.Machine.execViewShift h p s
  | .camCfgPort h p => Sys2Proof.Machine.execCamCfgPort h p s
  | .camCfgOff h p => Sys2Proof.Machine.execCamCfgOff h p s
  | .camCfgI2c h p => Sys2Proof.Machine.execCamCfgI2c h p s
  | .camI2cTransferDone port e => Sys2Proof.Machine.execCamI2cTransferDone port e s
  | .camCfgMap h p => Sys2Proof.Machine.execCamCfgMap h p s
  | .camTriggerCfg h p => Sys2Proof.Machine.execCamTriggerCfg h p s
  | .sweepCfg h p => Sys2Proof.Machine.execSweepCfg h p s
  | .camStatus h p => Sys2Proof.Machine.execCamStatus h p s
  | .camLinkUp port gear latency => Sys2Proof.Machine.execCamLinkUp port gear latency s
  | .camLinkDown port => Sys2Proof.Machine.execCamLinkDown port s
  | .camTrigger port => Sys2Proof.Machine.execCamTrigger port s
  | .csi2Frame port f => Sys2Proof.Machine.execCsi2Frame port f s
  | .camWindowEnd outstanding => Sys2Proof.Machine.execCamWindowEnd outstanding s
  | .camPresInput port level stable => Sys2Proof.Machine.execCamPresInput port level stable s
  | .swpFault group => Sys2Proof.Machine.execSwpFault group s
  | .panelLinkTrain h p => Sys2Proof.Machine.execPanelLinkTrain h p s
  | .panelPresRearm h p => Sys2Proof.Machine.execPanelPresRearm h p s
  | .hello b p => Sys2Proof.Machine.execHello b p s
  | .tstat b stage mask => Sys2Proof.Machine.execTstat b stage mask s
  | .panelCinit b credits => Sys2Proof.Machine.execPanelCinit b credits s
  | .ack b seq count => Sys2Proof.Machine.execAck b seq count s
  | .nak b seq reason => Sys2Proof.Machine.execNak b seq reason s
  | .status b p => Sys2Proof.Machine.execStatus b p s
  | .pevt b code data => Sys2Proof.Machine.execPevt b code data s
  | .trainingAttempt b => Sys2Proof.Machine.execTrainingAttempt b s
  | .trainingAttemptTimeout b => Sys2Proof.Machine.execTrainingAttemptTimeout b s
  | .trainingRetry b => Sys2Proof.Machine.execTrainingRetry b s
  | .plkAckTimeout b => Sys2Proof.Machine.execPlkAckTimeout b s
  | .panelPresChange b level stable => Sys2Proof.Machine.execPanelPresChange b level stable s
  | .plkPresStuck b => Sys2Proof.Machine.execPlkPresStuck b s
  | .backLaneLockLoss b lane => Sys2Proof.Machine.execBackLaneLockLoss b lane s
  | .plkHalfDown b => Sys2Proof.Machine.execPlkHalfDown b s
  | .plkHalfPresent b lane => Sys2Proof.Machine.execPlkHalfPresent b lane s
  | .thermistorSample code => Sys2Proof.Machine.execThermistorSample code s
  | .stdOvercurrent out => Sys2Proof.Machine.execStdOvercurrent out s
  | .steerCfg h p => Sys2Proof.Machine.execSteerCfg h p s
  | .steerStatus h code => Sys2Proof.Machine.execSteerStatus h code s
  | .timeGet h => Sys2Proof.Machine.execTimeGet h s
  | .timeSetAbsolute h p => Sys2Proof.Machine.execTimeSetAbsolute h p s
  | .timeSetRelative h p => Sys2Proof.Machine.execTimeSetRelative h p s
  | .timeSetAtPps h p => Sys2Proof.Machine.execTimeSetAtPps h p s
  | .timeAdjustSlew h p => Sys2Proof.Machine.execTimeAdjustSlew h p s
  | .timeAdjustFrequency h p => Sys2Proof.Machine.execTimeAdjustFrequency h p s
  | .ptpPortCfg h p => Sys2Proof.Machine.execPtpPortCfg h p s
  | .ptpEventMessage port m => Sys2Proof.Machine.execPtpEventMessage port m s
  | .ptpMessageTx port kind => Sys2Proof.Machine.execPtpMessageTx port kind s
  | .timerArm h p => Sys2Proof.Machine.execTimerArm h p s
  | .timerCancel h p => Sys2Proof.Machine.execTimerCancel h p s
  | .timeTimer timer => Sys2Proof.Machine.execTimeTimer timer s
  | .ppsInEdge stamp width => Sys2Proof.Machine.execPpsInEdge stamp width s
  | .mtNsRead m => Sys2Proof.Machine.execMtNsRead m s
  | .vauxPowerGood found => Sys2Proof.Machine.execVauxPowerGood found s
  | .pwrVmainRange mv => Sys2Proof.Machine.execPwrVmainRange mv s
  | .powerSample p => Sys2Proof.Machine.execPowerSample p s
  | .thermalSample t => Sys2Proof.Machine.execThermalSample t s
  | .confirmationSample t => Sys2Proof.Machine.execConfirmationSample t s
  | .horizonSensorRead v => Sys2Proof.Machine.execHorizonSensorRead v s
  | .thermalRead h p => Sys2Proof.Machine.execThermalRead h p s
  | .thermalLimitsSet h p => Sys2Proof.Machine.execThermalLimitsSet h p s
  | .throttleAck h p => Sys2Proof.Machine.execThrottleAck h p s
  | .wake t => Sys2Proof.Machine.execWake t s
  | .dmcReady checks other => Sys2Proof.Machine.execDmcReady checks other s
  | .calWindowOpen pc => Sys2Proof.Machine.execCalWindowOpen pc s
  | .calWindowClose pc work => Sys2Proof.Machine.execCalWindowClose pc work s
  | .dmcRefresh pc => Sys2Proof.Machine.execDmcRefresh pc s
  | .dmcPageIdleExpiry pc bank => Sys2Proof.Machine.execDmcPageIdleExpiry pc bank s
  | .bar2Read off len errs => Sys2Proof.Machine.execBar2Read off len errs s
  | .bar2Write off data => Sys2Proof.Machine.execBar2Write off data s
  | .paramSetDmcHash h p => Sys2Proof.Machine.execParamSetDmcHash h p s
  | .paramSetDmcDly h p => Sys2Proof.Machine.execParamSetDmcDly h p s
  | .bufAlloc h p => Sys2Proof.Machine.execBufAlloc h p s
  | .bufFree h p => Sys2Proof.Machine.execBufFree h p s
  | .bufCopy h p => Sys2Proof.Machine.execBufCopy h p s
  | .bufCopyDone k copied mem data => Sys2Proof.Machine.execBufCopyDone k copied mem data s
  | .bufQuery h p => Sys2Proof.Machine.execBufQuery h p s
  | .ledgerRead h p upsets => Sys2Proof.Machine.execLedgerRead h p upsets s
  | .ledgerAuditTick upsets => Sys2Proof.Machine.execLedgerAuditTick upsets s
  | .ringEnable r v => Sys2Proof.Machine.execRingEnable r v s
  | .ringDisable r v => Sys2Proof.Machine.execRingDisable r v s
  | .ringDrained r => Sys2Proof.Machine.execRingDrained r s
  | .sqTail r v strays mem => Sys2Proof.Machine.execSqTail r v strays mem s
  | .cqHead r v => Sys2Proof.Machine.execCqHead r v s
  | .leaseHb v => Sys2Proof.Machine.execLeaseHb v s
  | .safeReq v => Sys2Proof.Machine.execSafeReq v s
  | .registerWrite off v => Sys2Proof.Machine.execRegisterWrite off v s
  | .reg64LowRead m off => Sys2Proof.Machine.execReg64LowRead m off s
  | .pcieLinkDown why => Sys2Proof.Machine.execPcieLinkDown why s
  | .deferredAcceptance src => Sys2Proof.Machine.execDeferredAcceptance src s
  | .scheduledCommandRun slot => Sys2Proof.Machine.execScheduledCommandRun slot s
  | .cmdDeadline k => Sys2Proof.Machine.execCmdDeadline k s
  | .sbT1Datagram f => Sys2Proof.Machine.execSbT1Datagram f s
  | .mctpMessage f m => Sys2Proof.Machine.execMctpMessage f m s
  | .setEndpointId f op eid => Sys2Proof.Machine.execSetEndpointId f op eid s
  | .getEndpointId f => Sys2Proof.Machine.execGetEndpointId f s
  | .getMctpVersionSupport f type => Sys2Proof.Machine.execGetMctpVersionSupport f type s
  | .getMessageTypeSupport f => Sys2Proof.Machine.execGetMessageTypeSupport f s
  | .nop h => Sys2Proof.Machine.execNop h s
  | .getInfo h p => Sys2Proof.Machine.execGetInfo h p s
  | .paramGet h p v => Sys2Proof.Machine.execParamGet h p v s
  | .paramSet h p => Sys2Proof.Machine.execParamSet h p s
  | .paramList h p v => Sys2Proof.Machine.execParamList h p v s
  | .leaseTake h p => Sys2Proof.Machine.execLeaseTake h p s
  | .leaseRenew h => Sys2Proof.Machine.execLeaseRenew h s
  | .leaseRelease h => Sys2Proof.Machine.execLeaseRelease h s
  | .evtPendWrite word v => Sys2Proof.Machine.execEvtPendWrite word v s
  | .evtMaskWrite word v => Sys2Proof.Machine.execEvtMaskWrite word v s
  | .evqCtlWrite v => Sys2Proof.Machine.execEvqCtlWrite v s
  | .evqHead v => Sys2Proof.Machine.execEvqHead v s
  | .eventLogRead h p => Sys2Proof.Machine.execEventLogRead h p s
  | .resetLevel1 h p => Sys2Proof.Machine.execResetLevel1 h p s
  | .resetLevel2 h p => Sys2Proof.Machine.execResetLevel2 h p s
  | .resetLevel3 h p => Sys2Proof.Machine.execResetLevel3 h p s
  | .resetLevel4 h p => Sys2Proof.Machine.execResetLevel4 h p s
  | .diagCapture h p => Sys2Proof.Machine.execDiagCapture h p s
  | .recoveryStart rseq => Sys2Proof.Machine.execRecoveryStart rseq s
  | .recoveryEnd rseq success t => Sys2Proof.Machine.execRecoveryEnd rseq success t s
  | .ethFrameRx port bytes fcsOk => Sys2Proof.Machine.execEthFrameRx port bytes fcsOk s
  | .ethFrameTx port => Sys2Proof.Machine.execEthFrameTx port s
  | .gateControlEvent port => Sys2Proof.Machine.execGateControlEvent port s
  | .netSchedSwitch port => Sys2Proof.Machine.execNetSchedSwitch port s
  | .frerResetTimeout stream => Sys2Proof.Machine.execFrerResetTimeout stream s
  | .netLinkUp port latency => Sys2Proof.Machine.execNetLinkUp port latency s
  | .netLinkDown port => Sys2Proof.Machine.execNetLinkDown port s
  | .netPortCfg h p => Sys2Proof.Machine.execNetPortCfg h p s
  | .netVlanCfgVlan h p => Sys2Proof.Machine.execNetVlanCfgVlan h p s
  | .netVlanCfgStaticEntry h p => Sys2Proof.Machine.execNetVlanCfgStaticEntry h p s
  | .netVlanCfgPriorityMap h p => Sys2Proof.Machine.execNetVlanCfgPriorityMap h p s
  | .netVlanCfgStream h p => Sys2Proof.Machine.execNetVlanCfgStream h p s
  | .netSchedCfgWrite h p => Sys2Proof.Machine.execNetSchedCfgWrite h p s
  | .netSchedCfgCommit h p => Sys2Proof.Machine.execNetSchedCfgCommit h p s
  | .netSchedCfgDisable h p => Sys2Proof.Machine.execNetSchedCfgDisable h p s
  | .netStats h p => Sys2Proof.Machine.execNetStats h p s
  | .nvRead h p => Sys2Proof.Machine.execNvRead h p s
  | .nvWrite h p data fails => Sys2Proof.Machine.execNvWrite h p data fails s
  | .nvWriteDelete h p => Sys2Proof.Machine.execNvWriteDelete h p s
  | .nvUnlock h p rsv8 => Sys2Proof.Machine.execNvUnlock h p rsv8 s
  | .nvLock h p => Sys2Proof.Machine.execNvLock h p s
  | .nvLockSetPassword h p => Sys2Proof.Machine.execNvLockSetPassword h p s
  | .nvLockRemovePassword h p => Sys2Proof.Machine.execNvLockRemovePassword h p s
  | .nvCounterAdd h p => Sys2Proof.Machine.execNvCounterAdd h p s
  | .nvLogRead h p => Sys2Proof.Machine.execNvLogRead h p s
  | .calRun h p => Sys2Proof.Machine.execCalRun h p s
  | .calAutoTrigger item pc => Sys2Proof.Machine.execCalAutoTrigger item pc s
  | .calDone pc m => Sys2Proof.Machine.execCalDone pc m s
  | .calStale item => Sys2Proof.Machine.execCalStale item s
  | .calExport h p => Sys2Proof.Machine.execCalExport h p s
  | .calImport h p => Sys2Proof.Machine.execCalImport h p s
  | .calStatus h p => Sys2Proof.Machine.execCalStatus h p s
  | .testRun h p => Sys2Proof.Machine.execTestRun h p s
  | .testEnd id inst r => Sys2Proof.Machine.execTestEnd id inst r s
  | .testResult h p => Sys2Proof.Machine.execTestResult h p s
  | .testAbort h => Sys2Proof.Machine.execTestAbort h s
  | .tstBusy k => Sys2Proof.Machine.execTstBusy k s
  | .lifeGet h => Sys2Proof.Machine.execLifeGet h s
  | .challengeGetNew h p => Sys2Proof.Machine.execChallengeGetNew h p s
  | .challengeGetPart h p => Sys2Proof.Machine.execChallengeGetPart h p s
  | .responsePut h p => Sys2Proof.Machine.execResponsePut h p s
  | .passwordPut h p => Sys2Proof.Machine.execPasswordPut h p s
  | .attestQuoteForm h p => Sys2Proof.Machine.execAttestQuoteForm h p s
  | .attestQuotePart h p => Sys2Proof.Machine.execAttestQuotePart h p s
  | .lifeAdvance h p trims cut => Sys2Proof.Machine.execLifeAdvance h p trims cut s
  | .keyInstallOwnerKey h p => Sys2Proof.Machine.execKeyInstallOwnerKey h p s
  | .keyInstallFleetKey h p => Sys2Proof.Machine.execKeyInstallFleetKey h p s
  | .keyInstallPassword h p => Sys2Proof.Machine.execKeyInstallPassword h p s
  | .keyInstallRemovePassword h p => Sys2Proof.Machine.execKeyInstallRemovePassword h p s
  | .fwBegin h p => Sys2Proof.Machine.execFwBegin h p s
  | .fwChunk h p fails => Sys2Proof.Machine.execFwChunk h p fails s
  | .fwCommit h => Sys2Proof.Machine.execFwCommit h s
  | .fwActivateArm h p => Sys2Proof.Machine.execFwActivateArm h p s
  | .fwActivateConfirm h p cut => Sys2Proof.Machine.execFwActivateConfirm h p cut s
  | .fwActivateDisarm h p => Sys2Proof.Machine.execFwActivateDisarm h p s
  | .detachReqAssert edges stall took => Sys2Proof.Machine.execDetachReqAssert edges stall took s
  | .quiesceStepForced stall => Sys2Proof.Machine.execQuiesceStepForced stall s
  | .detachReqRelease edges => Sys2Proof.Machine.execDetachReqRelease edges s
  | .detachPrepare h p stall took => Sys2Proof.Machine.execDetachPrepare h p stall took s
  | .mrstAssert edges => Sys2Proof.Machine.execMrstAssert edges s
  | .mrstRelease edges t => Sys2Proof.Machine.execMrstRelease edges t s
  | .hwdInputStuck input => Sys2Proof.Machine.execHwdInputStuck input s
  | .paramSetHwdRearm h p => Sys2Proof.Machine.execParamSetHwdRearm h p s
  | .carrierEdge charges => Sys2Proof.Machine.execCarrierEdge charges s
  | .subframeStart => Sys2Proof.Machine.execSubframeStart s
  | .emitOn => Sys2Proof.Machine.execEmitOn s
  | .emitOff => Sys2Proof.Machine.execEmitOff s
  | .starlightRowWrite => Sys2Proof.Machine.execStarlightRowWrite s
  | .overlayHostReadFail => Sys2Proof.Machine.execOverlayHostReadFail s
  | .scnStillLowered => Sys2Proof.Machine.execScnStillLowered s
  | .darkIntervalTrainTimeout => Sys2Proof.Machine.execDarkIntervalTrainTimeout s
  | .modeChangeBoundary => Sys2Proof.Machine.execModeChangeBoundary s
  | .dmcRateChangeDone => Sys2Proof.Machine.execDmcRateChangeDone s
  | .panelLoadCompletion => Sys2Proof.Machine.execPanelLoadCompletion s
  | .synthesisStart => Sys2Proof.Machine.execSynthesisStart s
  | .synCommit => Sys2Proof.Machine.execSynCommit s
  | .sweepStart => Sys2Proof.Machine.execSweepStart s
  | .sweepEnd => Sys2Proof.Machine.execSweepEnd s
  | .swpDeadline => Sys2Proof.Machine.execSwpDeadline s
  | .stdSettleMiss => Sys2Proof.Machine.execStdSettleMiss s
  | .crowbarClose => Sys2Proof.Machine.execCrowbarClose s
  | .stdDischarged => Sys2Proof.Machine.execStdDischarged s
  | .stdRestExpiry => Sys2Proof.Machine.execStdRestExpiry s
  | .stdFault => Sys2Proof.Machine.execStdFault s
  | .holdupCharged => Sys2Proof.Machine.execHoldupCharged s
  | .timeSetPpsTimeout => Sys2Proof.Machine.execTimeSetPpsTimeout s
  | .slewDone => Sys2Proof.Machine.execSlewDone s
  | .timeSourceLost => Sys2Proof.Machine.execTimeSourceLost s
  | .timeHoldoverEnd => Sys2Proof.Machine.execTimeHoldoverEnd s
  | .horizonAlarm => Sys2Proof.Machine.execHorizonAlarm s
  | .ppsInStuck => Sys2Proof.Machine.execPpsInStuck s
  | .ppsInLost => Sys2Proof.Machine.execPpsInLost s
  | .ppsOutEdge => Sys2Proof.Machine.execPpsOutEdge s
  | .vauxLost => Sys2Proof.Machine.execVauxLost s
  | .vmainQualified => Sys2Proof.Machine.execVmainQualified s
  | .pwrVmainLost => Sys2Proof.Machine.execPwrVmainLost s
  | .warmupLimitExpiry => Sys2Proof.Machine.execWarmupLimitExpiry s
  | .throttleGraceExpiry => Sys2Proof.Machine.execThrottleGraceExpiry s
  | .shutdownHoldExpiry => Sys2Proof.Machine.execShutdownHoldExpiry s
  | .pePerstRise => Sys2Proof.Machine.execPePerstRise s
  | .fenceMigrationStart => Sys2Proof.Machine.execFenceMigrationStart s
  | .dmcFenced => Sys2Proof.Machine.execDmcFenced s
  | .dmcFault => Sys2Proof.Machine.execDmcFault s
  | .bufWithdrawWait => Sys2Proof.Machine.execBufWithdrawWait s
  | .pcieLinkUp => Sys2Proof.Machine.execPcieLinkUp s
  | .aspmL1Entry => Sys2Proof.Machine.execAspmL1Entry s
  | .cmdLeaseExpired => Sys2Proof.Machine.execCmdLeaseExpired s
  | .sbdLinkUp => Sys2Proof.Machine.execSbdLinkUp s
  | .sbdLinkDown => Sys2Proof.Machine.execSbdLinkDown s
  | .evqDroppedRead => Sys2Proof.Machine.execEvqDroppedRead s
  | .coalesceMsEnd => Sys2Proof.Machine.execCoalesceMsEnd s
  | .fdbAgeing => Sys2Proof.Machine.execFdbAgeing s
  | .netBridgeFault => Sys2Proof.Machine.execNetBridgeFault s
  | .nvLogFlush => Sys2Proof.Machine.execNvLogFlush s
  | .calRunDone => Sys2Proof.Machine.execCalRunDone s
  | .bstAutoRun => Sys2Proof.Machine.execBstAutoRun s
  | .fieldOpenExpiry => Sys2Proof.Machine.execFieldOpenExpiry s
  | .fwEraseDone => Sys2Proof.Machine.execFwEraseDone s
  | .fwVerifyDone => Sys2Proof.Machine.execFwVerifyDone s

end Sys2Proof.Machine
end

