-- ==== Sys2Proof/Safety.lean ====
section
/-! DEFINITION. What statements about the block are said with: the parts of its state and what a command leaves alone, the states
in which a packet of the host or of a side-band link is performed, and the invariant every step keeps. -/

namespace Sys2Proof.Machine

/-- The parts of the state. -/
inductive Part where
  /-- The queue of waiting commands. -/
  | pending
  /-- What the module has sent out. -/
  | out
  /-- The counter of free values. -/
  | free
  /-- Parameter values in force. -/
  | par
  /-- Parameter values not yet in force. -/
  | parPend
  /-- The clocks, timers and alarms. -/
  | time
  /-- The mode of the module. -/
  | mode
  /-- Power limits and readings. -/
  | pwr
  /-- Thermal readings and flags. -/
  | thm
  /-- Buffers, handles and the ledger. -/
  | buf
  /-- Rings, commands accepted and held, the lease. -/
  | cmd
  /-- Event words, history, recoveries. -/
  | evt
  /-- Device memory. -/
  | mem
  /-- The panel description. -/
  | pnl
  /-- Lamina. -/
  | scene
  /-- Cirrus. -/
  | cdc
  /-- Halo synthesis. -/
  | syn
  /-- The camera ports. -/
  | cam
  /-- Scan-out. -/
  | scn
  /-- The panel links. -/
  | plk
  /-- Steering. -/
  | std
  /-- The memory controller. -/
  | dmc
  /-- The bridge. -/
  | net
  /-- The side-band links. -/
  | sbd
  /-- The NV store. -/
  | nv
  /-- Calibration. -/
  | cal
  /-- Self-test. -/
  | bst
  /-- Security and firmware. -/
  | sec
  /-- Horizon. -/
  | hwd
deriving DecidableEq, Repr

/-- A part is the same in two states. -/
def sameIn (p : Part) (s t : State) : Prop :=
  match p with
  | .pending => t.pending = s.pending
  | .out => t.out = s.out
  | .free => t.free = s.free
  | .par => t.par = s.par
  | .parPend => t.parPend = s.parPend
  | .time => t.time = s.time
  | .mode => t.mode = s.mode
  | .pwr => t.pwr = s.pwr
  | .thm => t.thm = s.thm
  | .buf => t.buf = s.buf
  | .cmd => t.cmd = s.cmd
  | .evt => t.evt = s.evt
  | .mem => t.mem = s.mem
  | .pnl => t.pnl = s.pnl
  | .scene => t.scene = s.scene
  | .cdc => t.cdc = s.cdc
  | .syn => t.syn = s.syn
  | .cam => t.cam = s.cam
  | .scn => t.scn = s.scn
  | .plk => t.plk = s.plk
  | .std => t.std = s.std
  | .dmc => t.dmc = s.dmc
  | .net => t.net = s.net
  | .sbd => t.sbd = s.sbd
  | .nv => t.nv = s.nv
  | .cal => t.cal = s.cal
  | .bst => t.bst = s.bst
  | .sec => t.sec = s.sec
  | .hwd => t.hwd = s.hwd

/-- Every part but those named is the same in `t` as in `s`. -/
def Keeps (touched : List Part) (s t : State) : Prop := ∀ p, p ∉ touched → sameIn p s t

/-- The invariant: device memory in its canonical form (R364), at most 1,024 records in the history (R423), at most 16 side-band
replies kept (R411), EVSEQ within its four bytes (R417). -/
def Inv (s : State) : Prop :=
  Memory.wf s.mem = true ∧ s.evt.history.length ≤ 1024 ∧ s.cmd.sbKept.length ≤ 16 ∧ s.evt.evseq < 2 ^ 32

/-- The state after a packet has left its source: read from its ring (R395, R398) or taken from the side-band. -/
def reached (r : Row) (s : State) : State :=
  match r.h.src with
  | .ring k => readEntry k.val s
  | .side => { s with cmd := { s.cmd with sbReady := s.cmd.sbReady.drop 1 } }

/-- The state in which it is judged: noted as the last packet of its source (R405). -/
def judged (r : Row) (s : State) : State := noteTaken r.h (reached r s)

/-- Neither CHAIN nor FENCE_WAIT keeps the packet back or ends it (R405). -/
def orderOk (h : Hdr) (s : State) : Bool :=
  !mustWait h s && (!chained h || (match before s h with
    | some l => l.status == some St.ok || l.status == some St.deferred
    | none => true))

/-- SEQ_EXP for the packet, if its source is a ring (R398). -/
def expOf (r : Row) (s : State) : Option Nat :=
  match r.h.src with
  | .ring k => some (ringOf s k.val).seqExp
  | .side => none

/-- The state in which it has become an accepted command (R398). -/
def admitted (r : Row) (s : State) : State := admitLive r (merNs s) (judged r s)

/-- The state a command is performed in: accepted, and what it measures taken. -/
def taken (r : Row) (s : State) : State := r.pre (admitted r s)

/-- The packet stands at the front of its source and nothing keeps it there: the ring runs and its completion ring has room
(R401), no earlier command of the source waits, CHAIN and FENCE_WAIT hold nothing back (R405), the module is on for a side-band packet
or answers it in Dormant (R300). -/
def atFront (r : Row) (s : State) : Bool :=
  orderOk r.h (reached r s) && !hasWait s r.h.src &&
  (match r.h.src with
   | .ring k =>
     let x := ringOf s k.val
     s.cmd.up && s.cmd.ready && x.state == .running && !x.sqBad && waitingUnread s r.h.src < unread x &&
       repliesOf r.opc ≤ cqRoom s k.val
   | .side =>
     (match s.cmd.sbReady with | [] => false | m :: _ => sbMatches m r) && (mainOn s || dormantOps.contains r.opc) &&
       sideInFlight (judged r s) < 8)

/-- The packet is served at once: it stands at the front of its source, no quiesce runs (R545), checks 1 to 8 of R398 pass, it is
not held (R402), no in-service test holds it back (R493) and its own checks (R398 step 9) find nothing. -/
def served (r : Row) (s : State) : Bool :=
  atFront r s && s.hwd.quiesce.isNone && (checks r (expOf r s) (judged r s)).isNone && !toHold r &&
  (testBlock r.opc r.i (judged r s)).isNone && (r.chk (taken r s)).isNone

/-- The parts a recovery of the ladder may reach: all but the queue and Horizon. -/
def ladderParts : List Part := [.out, .free, .par, .parPend, .time, .mode, .pwr, .thm, .buf, .cmd, .evt, .mem, .pnl, .scene, .cdc, .syn, .cam, .scn, .plk, .std, .dmc, .net, .sbd, .nv, .cal, .bst, .sec]

/-- The parts of the state a command may change; it leaves every other part as it was. -/
def touches (c : Instr) : List Part :=
  match c with
  | .bandInstant _ | .flatRowWrite _ | .scnHeadFault _ | .modeSet _ _ | .cdcEngineFault _ | .synGroupFault _ | .camLinkDown _
  | .camPresInput _ _ _ | .swpFault _ | .tstat _ _ _ | .ack _ _ _ | .nak _ _ _ | .status _ _ | .trainingAttemptTimeout _
  | .plkAckTimeout _ | .stdOvercurrent _ | .thermalSample _ | .confirmationSample _ | .thermalRead _ _ | .wake _ | .dmcReady _ _
  | .bar2Read _ _ _ | .ledgerRead _ _ _ | .ledgerAuditTick _ | .safeReq _ | .registerWrite _ _ | .resetLevel1 _ _ | .resetLevel2 _ _
  | .resetLevel3 _ _ | .resetLevel4 _ _ | .recoveryStart _ | .recoveryEnd _ _ _ | .netLinkDown _ | .testEnd _ _ _
  | .lifeAdvance _ _ _ _ | .fwActivateArm _ _ | .subframeStart | .starlightRowWrite | .modeChangeBoundary | .panelLoadCompletion
  | .stdFault | .dmcFault | .netBridgeFault => ladderParts
  | .timingSet _ _ => [.out, .mode, .buf, .cmd, .evt, .syn, .scn, .sbd, .bst]
  | .layerSet _ _ | .layerEnable _ _ | .starlightSet _ _ | .bufFree _ _ => [.out, .buf, .cmd, .evt, .scn, .sbd, .bst]
  | .scanoutStatus _ _ | .modeGet _ | .frameStatus _ _ | .camStatus _ _ | .timeGet _ | .bufCopy _ _ | .bufQuery _ _
  | .sqTail _ _ _ _ | .nop _ | .getInfo _ _ | .netStats _ _ | .calStatus _ _ | .testRun _ _ | .testResult _ _ | .testAbort _
  | .lifeGet _ | .challengeGetPart _ _ | .attestQuotePart _ _ => [.out, .buf, .cmd, .evt, .sbd, .bst]
  | .panelLoad _ _ => [.out, .buf, .cmd, .evt, .pnl, .sbd, .bst]
  | .sceneOpen _ _ | .sceneCloseDrain _ _ | .sceneCloseNow _ _ => [.out, .buf, .cmd, .evt, .scene, .sbd, .bst]
  | .sceneFeed _ _ _ => [.out, .buf, .cmd, .evt, .scene, .cdc, .sbd, .bst]
  | .streamDatagram _ _ => [.out, .buf, .cmd, .evt, .scene, .cdc, .sbd]
  | .streamFrameDecodeStart _ => [.out, .buf, .cmd, .evt, .mem, .scene, .sbd]
  | .streamFrameDecoded _ => [.out, .buf, .cmd, .evt, .scene, .sbd]
  | .sessionEndComplete _ => [.out, .time, .buf, .cmd, .evt, .scene, .cdc, .sbd]
  | .codecJobCompress _ _ | .codecJobDecompress _ _ | .codecResume _ _ | .codecAbort _ _ =>
    [.out, .buf, .cmd, .evt, .cdc, .sbd, .bst]
  | .cirrusBlockStart _ => [.scene, .cdc]
  | .cirrusBlockDone _ _ => [.out, .buf, .cmd, .evt, .mem, .scene, .cdc, .sbd]
  | .cdcHostStarved _ => [.out, .time, .cmd, .evt, .cdc, .sbd]
  | .cdcSuspendLimitExpiry _ => [.out, .time, .buf, .cmd, .evt, .cdc, .sbd]
  | .synDeadline _ => [.out, .time, .buf, .cmd, .evt, .scene, .syn, .scn, .sbd]
  | .frameSubmit _ _ | .viewShift _ _ => [.out, .buf, .cmd, .evt, .syn, .sbd, .bst]
  | .camCfgPort _ _ | .camCfgOff _ _ | .camCfgI2c _ _ | .camCfgMap _ _ | .camTriggerCfg _ _ | .sweepCfg _ _ =>
    [.out, .buf, .cmd, .evt, .cam, .sbd, .bst]
  | .camI2cTransferDone _ _ | .camLinkUp _ _ _ => [.out, .buf, .cmd, .evt, .cam, .sbd]
  | .camTrigger _ => [.out, .time, .cmd, .cam]
  | .csi2Frame _ _ => [.out, .time, .buf, .cmd, .evt, .mem, .cam, .sbd]
  | .camWindowEnd _ => [.out, .time, .cmd, .evt, .cam, .sbd]
  | .panelLinkTrain _ _ => [.out, .buf, .cmd, .evt, .scn, .plk, .sbd, .bst]
  | .panelPresRearm _ _ => [.out, .buf, .cmd, .evt, .plk, .sbd, .bst]
  | .hello _ _ | .backLaneLockLoss _ _ => [.out, .cmd, .evt, .plk, .sbd]
  | .panelCinit _ _ => [.out, .buf, .cmd, .evt, .plk, .sbd]
  | .pevt _ _ _ | .ringEnable _ _ | .cqHead _ _ => [.out, .buf, .cmd, .evt, .sbd]
  | .trainingAttempt _ => [.out, .buf, .cmd, .plk]
  | .trainingRetry _ => [.out, .time, .buf, .cmd, .plk]
  | .panelPresChange _ _ _ | .plkHalfDown _ => [.out, .time, .buf, .cmd, .evt, .syn, .scn, .plk, .std, .sbd]
  | .plkPresStuck _ => [.out, .time, .cmd, .evt, .plk, .sbd]
  | .plkHalfPresent _ _ => [.out, .buf, .cmd, .evt, .scn, .plk, .sbd]
  | .thermistorSample _ | .stdSettleMiss => [.out, .time, .mode, .thm, .buf, .cmd, .evt, .std, .dmc, .sbd, .cal, .bst]
  | .steerCfg _ _ | .steerStatus _ _ => [.out, .mode, .thm, .buf, .cmd, .evt, .std, .dmc, .sbd, .cal, .bst]
  | .timeSetAbsolute _ _ | .timeSetRelative _ _ =>
    [.out, .par, .parPend, .time, .mode, .buf, .cmd, .evt, .scene, .syn, .cam, .scn, .plk, .std, .net, .sbd, .bst]
  | .timeSetAtPps _ _ | .timeAdjustSlew _ _ | .timeAdjustFrequency _ _ | .ptpPortCfg _ _ | .timerArm _ _ | .timerCancel _ _
  | .tstBusy _ | .bstAutoRun => [.out, .time, .buf, .cmd, .evt, .sbd, .bst]
  | .ptpEventMessage _ _ | .ppsInEdge _ _ =>
    [.out, .par, .parPend, .time, .mode, .buf, .cmd, .evt, .scene, .syn, .cam, .scn, .plk, .std, .net, .sbd]
  | .ptpMessageTx _ _ | .mtNsRead _ | .aspmL1Entry => [.out, .time, .cmd]
  | .timeTimer _ | .timeSetPpsTimeout | .slewDone | .bufWithdrawWait => [.out, .time, .buf, .cmd, .evt, .sbd]
  | .vauxPowerGood _ => [.out, .par, .mode, .cmd, .evt, .pnl, .sbd, .nv, .sec, .hwd]
  | .pwrVmainRange _ => [.out, .mode, .pwr, .cmd, .evt, .sbd]
  | .powerSample _ => [.out, .time, .mode, .pwr, .thm, .cmd, .evt, .sbd]
  | .horizonSensorRead _ => [.out, .time, .mode, .thm, .cmd, .evt, .sbd, .hwd]
  | .thermalLimitsSet _ _ => [.out, .thm, .buf, .cmd, .evt, .sbd, .bst]
  | .throttleAck _ _ => [.out, .mode, .thm, .buf, .cmd, .evt, .dmc, .sbd, .cal, .bst]
  | .calWindowOpen _ | .dmcRefresh _ | .fenceMigrationStart => [.dmc]
  | .calWindowClose _ _ | .calDone _ _ => [.out, .buf, .cmd, .evt, .plk, .dmc, .sbd, .nv, .cal]
  | .dmcPageIdleExpiry _ _ => [.time, .dmc]
  | .bar2Write _ _ => [.out, .cmd, .evt, .mem, .dmc, .sbd]
  | .paramSetDmcHash _ _ | .paramSetDmcDly _ _ | .paramSet _ _ | .paramSetHwdRearm _ _ =>
    [.out, .par, .parPend, .time, .buf, .cmd, .evt, .mem, .syn, .dmc, .sbd, .nv, .bst, .hwd]
  | .bufAlloc _ _ | .eventLogRead _ _ | .diagCapture _ _ | .nvRead _ _ | .nvLogRead _ _ | .calExport _ _ =>
    [.out, .buf, .cmd, .evt, .mem, .sbd, .bst]
  | .bufCopyDone _ _ _ _ => [.out, .buf, .cmd, .evt, .mem, .sbd]
  | .ringDisable _ _ | .pcieLinkUp => [.cmd]
  | .ringDrained _ => [.buf, .cmd]
  | .leaseHb _ | .setEndpointId _ _ _ | .getEndpointId _ | .getMctpVersionSupport _ _ | .getMessageTypeSupport _ | .evqHead _
  | .sbdLinkUp | .sbdLinkDown => [.out, .cmd, .evt, .sbd]
  | .reg64LowRead _ _ => [.out, .cmd]
  | .pcieLinkDown _ => [.out, .buf, .cmd, .evt, .scn, .sbd]
  | .deferredAcceptance _ | .scheduledCommandRun _ | .detachReqAssert _ _ _ | .quiesceStepForced _ | .detachPrepare _ _ _ _
  | .mrstAssert _ | .mrstRelease _ _ | .pwrVmainLost => .hwd :: ladderParts
  | .cmdDeadline _ => [.out, .free, .time, .buf, .cmd, .evt, .mem, .cdc, .sbd]
  | .sbT1Datagram _ | .mctpMessage _ _ => [.out, .mode, .buf, .cmd, .evt, .sbd, .bst, .hwd]
  | .paramGet _ _ _ | .paramList _ _ _ => [.out, .buf, .cmd, .evt, .sbd, .bst, .hwd]
  | .leaseTake _ _ | .responsePut _ _ | .passwordPut _ _ | .fwBegin _ _ | .fwChunk _ _ _ | .fwActivateConfirm _ _ _ =>
    [.out, .buf, .cmd, .evt, .sbd, .nv, .bst, .sec]
  | .leaseRenew _ | .leaseRelease _ | .nvWrite _ _ _ _ | .nvWriteDelete _ _ | .nvUnlock _ _ _ | .nvLock _ _
  | .nvLockRemovePassword _ _ | .nvCounterAdd _ _ | .calImport _ _ | .keyInstallOwnerKey _ _ | .keyInstallFleetKey _ _
  | .keyInstallRemovePassword _ _ | .fwActivateDisarm _ _ => [.out, .buf, .cmd, .evt, .sbd, .nv, .bst]
  | .evtPendWrite _ _ | .evqCtlWrite _ => [.cmd, .evt]
  | .evtMaskWrite _ _ | .evqDroppedRead => [.out, .cmd, .evt]
  | .ethFrameRx _ _ _ => [.out, .buf, .cmd, .evt, .scene, .cdc, .net, .sbd]
  | .ethFrameTx _ => [.out, .time, .buf, .cmd, .net]
  | .gateControlEvent _ | .frerResetTimeout _ | .fdbAgeing => [.time, .net]
  | .netSchedSwitch _ => [.out, .time, .cmd, .evt, .net, .sbd]
  | .netLinkUp _ _ => [.out, .buf, .cmd, .evt, .net, .sbd]
  | .netPortCfg _ _ | .netVlanCfgVlan _ _ | .netVlanCfgStaticEntry _ _ | .netVlanCfgPriorityMap _ _ | .netVlanCfgStream _ _
  | .netSchedCfgWrite _ _ | .netSchedCfgCommit _ _ | .netSchedCfgDisable _ _ => [.out, .buf, .cmd, .evt, .net, .sbd, .nv, .bst]
  | .nvLockSetPassword _ _ | .keyInstallPassword _ _ => [.out, .free, .buf, .cmd, .evt, .sbd, .nv, .bst]
  | .calRun _ _ => [.out, .buf, .cmd, .evt, .plk, .dmc, .sbd, .cal, .bst]
  | .calAutoTrigger _ _ => [.out, .time, .buf, .cmd, .evt, .plk, .dmc, .sbd, .cal]
  | .calStale _ => [.out, .time, .cmd, .evt, .sbd, .cal]
  | .challengeGetNew _ _ => [.out, .free, .buf, .cmd, .evt, .sbd, .bst, .sec]
  | .attestQuoteForm _ _ => [.out, .free, .buf, .cmd, .evt, .mem, .sbd, .bst, .sec]
  | .fwCommit _ => [.out, .buf, .cmd, .evt, .sbd, .bst, .sec]
  | .detachReqRelease _ | .horizonAlarm => [.out, .time, .mode, .cmd, .evt, .sbd, .hwd]
  | .hwdInputStuck _ => [.out, .time, .mode, .cmd, .evt, .cam, .sbd, .hwd]
  | .carrierEdge _ | .stdRestExpiry => [.time, .std]
  | .emitOn | .emitOff => [.out, .time, .cmd, .scn]
  | .overlayHostReadFail => [.out, .cmd, .evt, .scn, .sbd]
  | .scnStillLowered => [.time, .mode, .scn]
  | .darkIntervalTrainTimeout => [.time, .scn]
  | .dmcRateChangeDone => [.out, .cmd, .evt, .dmc, .sbd]
  | .synthesisStart => [.out, .time, .buf, .cmd, .evt, .scene, .syn, .cam, .scn, .sbd]
  | .synCommit => [.out, .buf, .cmd, .evt, .mem, .scene, .syn, .scn, .sbd]
  | .sweepStart => [.out, .time, .buf, .cmd, .evt, .mem, .scene, .cam, .sbd]
  | .sweepEnd => [.buf, .mem, .scene, .cam]
  | .swpDeadline => [.out, .time, .buf, .cmd, .evt, .scene, .cam, .sbd]
  | .crowbarClose => [.out, .time, .cmd, .std]
  | .stdDischarged => [.out, .time, .cmd, .evt, .std, .sbd]
  | .holdupCharged => [.std]
  | .timeSourceLost | .timeHoldoverEnd | .ppsInStuck | .ppsInLost | .ppsOutEdge | .coalesceMsEnd => [.out, .time, .cmd, .evt, .sbd]
  | .vauxLost =>
    [.par, .parPend, .time, .mode, .pwr, .thm, .buf, .cmd, .evt, .mem, .pnl, .scene, .cdc, .syn, .cam, .scn, .plk, .std, .dmc, .net, .sbd, .nv, .cal, .bst, .sec, .hwd]
  | .vmainQualified => [.mode, .hwd]
  | .warmupLimitExpiry => [.out, .time, .mode, .thm, .buf, .cmd, .evt, .sbd]
  | .throttleGraceExpiry => [.out, .time, .mode, .thm, .buf, .cmd, .evt, .dmc, .sbd, .cal, .bst]
  | .shutdownHoldExpiry => [.time, .mode]
  | .pePerstRise => [.out, .mode, .cmd, .evt, .sbd, .hwd]
  | .dmcFenced => [.out, .mode, .thm, .buf, .cmd, .evt, .mem, .dmc, .sbd, .cal, .bst]
  | .cmdLeaseExpired | .nvLogFlush => [.out, .time, .cmd, .evt, .sbd, .nv]
  | .calRunDone => [.out, .buf, .cmd, .evt, .dmc, .sbd, .cal]
  | .fieldOpenExpiry => [.out, .free, .time, .cmd, .evt, .sbd, .sec]
  | .fwEraseDone => [.out, .buf, .cmd, .evt, .sbd, .sec]
  | .fwVerifyDone => [.out, .buf, .cmd, .evt, .sbd, .nv, .sec]

end Sys2Proof.Machine
end

