-- ==== Sys2Proof/Certificates/Slice0/Obligations.lean ====
section
/-! DEFINITION. The statements for the provers. A statement about a command names its meaning through `exec`; `served` says that a
packet is performed at once, `taken` is the state it is performed in (Safety.lean). -/

namespace Sys2Proof.Machine

end Sys2Proof.Machine

open Sys2Proof Sys2Proof.Machine


/-! ## The step, reset and the frame -/

/-- The step takes the command at the front of the queue and runs it on the state with the rest of the queue; on an empty queue
one tick of the time clock passes (the model's choice, log entry 2). -/
def Obligations.StepRunsFront : Prop :=
  (∀ (c : Instr) (r : List Instr) (s : State), step { s with pending := c :: r } = exec c { s with pending := r }) ∧
  ∀ s : State, s.pending = [] → step s = .next (idle s)

/-- What the specification gives for the state after reset: Dormant (R297), every generation 1 (R363), no view shift (R129), no
lease (R406), every ring off (R392), no command waiting, every parameter at its reset value (R412), no recovery (R428). -/
def Obligations.ResetValues : Prop :=
  State.reset.mode.mode = .dormant ∧ (∀ pool idx, genOf State.reset pool idx = 1) ∧ State.reset.syn.shift = {} ∧
  State.reset.cmd.lease.holder = none ∧ State.reset.cmd.rings.length = 16 ∧
  (∀ k, k < 16 → (ringOf State.reset k).state = .off) ∧ State.reset.pending = [] ∧ State.reset.cmd.live = [] ∧
  (∀ id, pv State.reset id = pReset id) ∧ State.reset.evt.recs = [] ∧ State.reset.buf.bufs = [] ∧ State.reset.evt.history = []

/-- The state after reset satisfies the invariant. -/
def Obligations.ResetInv : Prop := Inv State.reset

/-- Every step keeps the invariant: device memory in canonical form, at most 1,024 records of history, at most 16 kept replies,
EVSEQ in four bytes. -/
def Obligations.StepKeepsInv : Prop := ∀ s t : State, Inv s → step s = .next t → Inv t

/-- Every command of every state answers a next state: no command of the block faults or is refused. -/
def Obligations.EveryCommandAnswers : Prop := ∀ (c : Instr) (s : State), ∃ t, exec c s = .next t

/-- A command changes no part of the state but those `touches` names for it: a command of the host or the side-band, the rings,
the ledger, the event words and its own block; a happening, the clock and what its rule says; a fault, what a recovery may reach.
-/
def Obligations.FrameOfEveryCommand : Prop := ∀ (c : Instr) (s t : State), exec c s = .next t → Keeps (touches c) s t

/-! ## Packets and replies -/

/-- Every Imven command runs as its row (a row is a packet with its opcode, lengths, checks and effect). A packet at the front of
its source is answered ABORTED_DETACH in a quiesce (R545); by the first of checks 1 to 8 that fails, which is counted and raises
its event (R398); by its own check that fails, with nothing else done (R398 step 9). A packet with a later target is kept in the
lowest free slot and answered ACCEPTED (R402); one held back by an in-service test waits with event 0xF9 (R493). An entry whose
replies have no room waits unread, with event 0x26 once (R401). -/
def Obligations.PacketsJudged : Prop :=
  (∀ c s r, rowOf c = some r → exec c s = .next (command r s)) ∧
  (∀ r s, atFront r s = true → s.hwd.quiesce.isSome = true →
    command r s = finish r.h r.opc (no St.abortedDetach) (judged r s)) ∧
  (∀ r s v, atFront r s = true → s.hwd.quiesce = none → checks r (expOf r s) (judged r s) = some v →
    ∃ u, command r s = finish r.h (if v.status = St.badOpcode then 0 else r.opc) v (refusalEvent r (expOf r s) v u) ∧
      u.cmd.refused = s.cmd.refused + 1 ∧ u.cmd.accepted = s.cmd.accepted ∧ u.cmd.live = s.cmd.live ∧ Keeps [.buf, .cmd] s u) ∧
  (∀ r s v, atFront r s = true → s.hwd.quiesce = none → checks r (expOf r s) (judged r s) = none → toHold r = false →
    testBlock r.opc r.i (judged r s) = none → r.chk (taken r s) = some v → command r s = finish r.h r.opc v (taken r s)) ∧
  (∀ r s, atFront r s = true → s.hwd.quiesce = none → checks r (expOf r s) (judged r s) = none → toHold r = true →
    ∃ u, command r s = accepted r.h r.opc (freeSlot s) u ∧
      u.cmd.sched = s.cmd.sched ++ [⟨freeSlot s, r.i, r.h, r.opc, mtOf r.h.target⟩] ∧ freeSlot s < 64 ∧
      (∀ e ∈ s.cmd.sched, e.slot ≠ freeSlot s) ∧ (merNs s ≤ mtOf r.h.target ∨ asapIfLate r.h = true) ∧ Keeps [.buf, .cmd, .sbd] s u) ∧
  (∀ r s b, atFront r s = true → s.hwd.quiesce = none → checks r (expOf r s) (judged r s) = none → toHold r = false →
    testBlock r.opc r.i (judged r s) = some b →
    ∃ u, command r s = raise 0xF9 [] u ∧ u.cmd.waits = ⟨r.i, r.h, r.opc, expOf r s, some s.time.ref⟩ :: s.cmd.waits ∧
      u.bst.heldCount = s.bst.heldCount + 1 ∧ u.cmd.live = s.cmd.live ∧ Keeps [.buf, .cmd, .bst] s u) ∧
  (∀ r s (k : Fin 16), r.h.src = .ring k → s.cmd.up = true → s.cmd.ready = true → (ringOf s k.val).state = .running →
    (ringOf s k.val).sqBad = false → waitingUnread s r.h.src < unread (ringOf s k.val) → hasWait s r.h.src = false →
    cqRoom s k.val < repliesOf r.opc → k.val < s.cmd.rings.length →
    ∃ u, command r s = (if (ringOf s k.val).waitRaised then u else raise 0x26 [] u) ∧
      u.cmd.waits = s.cmd.waits ++ [⟨r.i, r.h, r.opc, none, none⟩] ∧ (ringOf u k.val).head = (ringOf s k.val).head ∧
      (ringOf u k.val).waitRaised = true ∧ Keeps [.cmd] s u)

/-- Checks 1 to 8 of R398 in their order: each answers its status when it fails and those before it pass. -/
def Obligations.FirstChecks : Prop := ∀ (r : Row) (exp : Option Nat) (s : State) (c : CmdInfo), infoOf r.opc = some c →
  (∀ e, exp = some e → r.h.seq.toNat ≠ e → checks r exp s = some ⟨St.badParam, e, 0, 0⟩) ∧
  ((∀ e, exp = some e → r.h.seq.toNat = e) →
    (r.h.plen.toNat ∉ r.plens → checks r exp s = some (no St.badLength)) ∧
    (r.h.plen.toNat ∈ r.plens →
      ((r.h.rsv ≠ 0 ∨ 32 ≤ r.h.flags.toNat ∨ (scheduled r.h = false ∧ mtOf r.h.target ≠ 0) ∨
          (scheduled r.h = true ∧ c.sched = .notTaken) ∨ mtOk r.h.target = false ∨ (r.h.src = .side ∧ r.host = true)) →
        checks r exp s = some (no St.badParam)) ∧
      (r.h.rsv = 0 → r.h.flags.toNat < 32 → (scheduled r.h = false → mtOf r.h.target = 0) →
          (scheduled r.h = true → c.sched ≠ .notTaken) → mtOk r.h.target = true → (r.h.src = .side → r.host = false) →
        (c.cls ≠ .observe → r.anyMaster = false → holdsLease s (masterOf r.h.src) = false → checks r exp s = some (no St.noLease)) ∧
        ((c.cls = .observe ∨ r.anyMaster = true ∨ holdsLease s (masterOf r.h.src) = true) →
          (c.cls = .privileged → lifeState s ∉ c.life → checks r exp s = some (no St.deniedLocked)) ∧
          ((c.cls ≠ .privileged ∨ lifeState s ∈ c.life) →
            (toHold r = false → checks r exp s = none) ∧
            (toHold r = true → 64 ≤ s.cmd.sched.length → checks r exp s = some (no St.noSpace)) ∧
            (toHold r = true → s.cmd.sched.length < 64 → mtOf r.h.target < merNs s → asapIfLate r.h = false →
              checks r exp s = some (no St.timePassed)) ∧
            (toHold r = true → s.cmd.sched.length < 64 → (merNs s ≤ mtOf r.h.target ∨ asapIfLate r.h = true) →
              checks r exp s = none))))))

/-- A packet that is served becomes an accepted command in the state its effect starts from: ACCEPTED goes up by one, the command
is among the accepted ones with no reply given yet, it is the last one of its source, and nothing changes but the rings and the
commands, the ledger and the side-band record. An entry that is served leaves its submission ring: HEAD and SEQ_EXP advance by one
(R395, R398). -/
def Obligations.PacketTaken : Prop :=
  (∀ (r : Row) (s : State), served r s = true →
  (admitted r s).cmd.accepted = s.cmd.accepted + 1 ∧
  (∃ l ∈ (admitted r s).cmd.live, l.h = r.h ∧ l.opcode = r.opc ∧ l.interim = false ∧ l.at_ = merNs s) ∧
  (admitted r s).cmd.last.head? = some ⟨r.h.src, r.h.seq, r.h.tag, none⟩ ∧
  Keeps [.buf, .cmd, .sbd] s (admitted r s)) ∧
  (∀ (r : Row) (s : State) (k : Fin 16), r.h.src = .ring k → k.val < s.cmd.rings.length →
  served r s = true →
  (ringOf (admitted r s) k.val).head = ((ringOf s k.val).head + 1) % (ringOf s k.val).n ∧
  (ringOf (admitted r s) k.val).seqExp = ((ringOf s k.val).seqExp + 1) % 65536)

/-- The final reply of a command of a running ring whose link is up (R397): one entry at CQ_TAIL with the command's SEQ and TAG,
its opcode, STATUS, the time and the three words; the command is no accepted one any more. -/
def Obligations.FinalReply : Prop := ∀ (h : Hdr) (opc : Nat) (v : Verdict) (s : State) (k : Fin 16) (l : Live),
  h.src = .ring k → liveOf s (keyOf h) = some l → l.orphan = false → s.cmd.up = true →
  (ringOf s k.val).state ≠ .off → (ringOf s k.val).discard = false → (ringOf s k.val).cqBad = false →
  (noReply h = true → v.status ≠ St.ok) →
  .ringReply k.val (ringOf s k.val).cqTail ((ringOf s k.val).written / (ringOf s k.val).n % 2 == 0) false
      ⟨h.src, h.tag, h.seq, opc, v.status, l.late, merNs s, v.w0, v.w1, v.w2⟩ ∈ (finish h opc v s).out ∧
  liveOf (finish h opc v s) (keyOf h) = none ∧
  Keeps [.out, .buf, .cmd, .evt, .sbd] s (finish h opc v s)

/-- NO_REPLY suppresses the replies OK and ACCEPTED of its command and no others: a reply of another status is written to the
completion ring of its source, or sent on the side-band (R400). -/
def Obligations.NoReply : Prop :=
  (∀ h opc v s, noReply h = true → v.status = St.ok → (finish h opc v s).out = s.out) ∧
  (∀ h opc w s, noReply h = true → (accepted h opc w s).out = s.out) ∧
  (∀ h opc v s (k : Fin 16), noReply h = true → v.status ≠ St.ok → h.src = .ring k →
    (∀ l, liveOf s (keyOf h) = some l → l.orphan = false) → s.cmd.up = true → (ringOf s k.val).state ≠ .off →
    (ringOf s k.val).discard = false → (ringOf s k.val).cqBad = false →
    ∃ phase late, .ringReply k.val (ringOf s k.val).cqTail phase false
      ⟨h.src, h.tag, h.seq, opc, v.status, late, merNs s, v.w0, v.w1, v.w2⟩ ∈ (finish h opc v s).out) ∧
  (∀ h opc v s, noReply h = true → v.status ≠ St.ok → h.src = .side →
    ∃ d late, .sbReply d false ⟨h.src, h.tag, h.seq, opc, v.status, late, merNs s, v.w0, v.w1, v.w2⟩ ∈ (finish h opc v s).out)

/-- A waiting command goes on when what held it has passed (R401, R405, R493); a held command runs at its target (R402), and one
whose budget runs out raises event 0x24 (R403). -/
def Obligations.LaterCommands : Prop :=
  (∀ src s w r, s.cmd.waits.find? (fun w => w.h.src == src) = some w → keptRow w.i w.h w.opcode = some r → w.test.isSome = true →
    testBlock r.opc r.i s = none →
    ∃ u, exec (.deferredAcceptance src) s = .next (perform r u) ∧ u.cmd.waits = s.cmd.waits.erase w ∧
      (liveOf s (keyOf r.h) = none → (infoOf r.opc).isSome = true → u.cmd.accepted = s.cmd.accepted + 1) ∧ Keeps [.cmd, .sbd] s u) ∧
  (∀ k s w r, s.cmd.waits.find? (fun w => w.h.src == .ring k) = some w → keptRow w.i w.h w.opcode = some r → w.test = none →
    w.seqExp = none → s.cmd.up = true → s.cmd.ready = true → (ringOf s k.val).state = .running → (ringOf s k.val).sqBad = false →
    repliesOf r.opc ≤ cqRoom s k.val → mustWait r.h s = false →
    ∃ u, exec (.deferredAcceptance (.ring k)) s = .next (takeUp r (some (ringOf s k.val).seqExp) u) ∧
      u = dropWait w (readEntry k.val s)) ∧
  (∀ k s w r e, s.cmd.waits.find? (fun w => w.h.src == .ring k) = some w → keptRow w.i w.h w.opcode = some r → w.test = none →
    w.seqExp = some e → r.h.src = .ring k → mustWait r.h s = false →
    exec (.deferredAcceptance (.ring k)) s = .next (takeUp r (some e) (dropWait w s))) ∧
  (∀ s w r, s.cmd.waits.find? (fun w => w.h.src == .side) = some w → keptRow w.i w.h w.opcode = some r → w.test = none →
    r.h.src = .side → mustWait r.h s = false → (mainOn s || dormantOps.contains r.opc) = true →
    exec (.deferredAcceptance .side) s = .next (takeUp r none (dropWait w s))) ∧
  (∀ (slot : Fin 64) s e r, s.cmd.sched.find? (fun e => e.slot == slot.val) = some e → l2Running s = false →
    keptRow e.i e.h e.opcode = some r → holder r.opc r.i s = none →
    ∃ u, exec (.scheduledCommandRun slot) s = .next (perform r u) ∧ u.cmd.sched = s.cmd.sched.erase e ∧ e.t ≤ merNs u ∧
      Keeps [.out, .time, .cmd, .evt, .sbd] s u) ∧
  (∀ k s l d, liveOf s k = some l → l.deadline = some d →
    ∃ u, exec (.cmdDeadline k) s = .next (if l.stop then
        stopCommand l (raise 0x24 [(2, l.opcode), (2, l.h.tag.toNat), (1, masterCode (masterOf l.h.src))] u)
        else raise 0x24 [(2, l.opcode), (2, l.h.tag.toNat), (1, masterCode (masterOf l.h.src))] u) ∧ d ≤ merNs u ∧
      u.cmd.deadlines = s.cmd.deadlines + 1 ∧
      (∀ x ∈ u.cmd.live, keyOf x.h = keyOf l.h → x.deadline = none ∧ (l.stop = false → x.late = true)) ∧ Keeps [.time, .cmd] s u)

/-- LEASE_TAKE of a free lease grants it to the taker for CMD_LEASE_TIME with event 0x20; by its holder it renews it; LEASE_RENEW
renews the caller's; LEASE_RELEASE leaves no holder. A lease that is not renewed has no holder once its time has passed. -/
def Obligations.Lease : Prop :=
  (∀ h (p : LeaseTakeP) s, s.cmd.lease.holder = none → served (rowLeaseTake h p) s = true →
    ∃ u, exec (.leaseTake h p) s = .next (finish h 0x0005 (okay (masterCode (masterOf h.src)) (pv s 0x0500) 0) u) ∧
      u.cmd.lease.holder = some (masterOf h.src) ∧ u.cmd.lease.expiry = merNs s + pv s 0x0500 * 1000000 ∧
      u.cmd.lease.forced = false) ∧
  (∀ h (p : LeaseTakeP) s, s.cmd.lease.holder = some (masterOf h.src) → merNs s < s.cmd.lease.expiry →
    served (rowLeaseTake h p) s = true →
    ∃ u, exec (.leaseTake h p) s = .next (finish h 0x0005 (okay (masterCode (masterOf h.src)) (pv s 0x0500) 0) u) ∧
      u.cmd.lease.holder = some (masterOf h.src) ∧ u.cmd.lease.expiry = merNs s + pv s 0x0500 * 1000000) ∧
  (∀ h s, served (rowLeaseRenew h) s = true →
    ∃ u, exec (.leaseRenew h) s = .next (finish h 0x0006 (okay) u) ∧ u.cmd.lease.holder = some (masterOf h.src) ∧
      u.cmd.lease.expiry = merNs s + pv s 0x0500 * 1000000) ∧
  (∀ h s, served (rowLeaseRelease h) s = true →
    ∃ t, exec (.leaseRelease h) s = .next t ∧ t.cmd.lease.holder = none) ∧
  (∀ s m, s.cmd.lease.holder = some m →
    ∃ t, exec .cmdLeaseExpired s = .next t ∧ t.cmd.lease.holder = none ∧ s.cmd.lease.expiry ≤ merNs t ∧ t.cmd.live = s.cmd.live)

/-! ## Rings, registers and links of the host and the side-band -/

/-- A ring pair starts, drains and stops as R392 says: every index, SEQ_EXP and the count of entries written (whose parity is
PHASE 1) from 0; drained, it reads no new entry, keeps its accepted commands and writes their replies, and is off once none is in
flight. -/
def Obligations.PairLife : Prop :=
  (∀ (r : Fin 16) (v : BitVec 31) s, s.cmd.up = true → r.val < s.cmd.rings.length → (ringOf s r.val).state = .off →
    bits v.toNat 2 0 ≤ 4 →
    ∃ t, exec (.ringEnable r v) s = .next t ∧ (ringOf t r.val).state = .running ∧ (ringOf t r.val).n = 16 * 2 ^ bits v.toNat 2 0 ∧
      (ringOf t r.val).head = 0 ∧ (ringOf t r.val).seqExp = 0 ∧ (ringOf t r.val).sqTail = 0 ∧ (ringOf t r.val).cqTail = 0 ∧
      (ringOf t r.val).cqHead = 0 ∧ (ringOf t r.val).written / (ringOf t r.val).n % 2 = 0 ∧ (ringOf t r.val).written = 0 ∧
      (ringOf t r.val).vector = bits v.toNat 20 16 ∧ (ringOf t r.val).irq = bit v.toNat 15 ∧
      (∀ k, k ≠ r.val → ringOf t k = ringOf s k) ∧ Keeps [.buf, .cmd] s t) ∧
  (∀ (r : Fin 16) (v : BitVec 31) s, s.cmd.up = true → r.val < s.cmd.rings.length →
    ((ringOf s r.val).state = .running ∨ (ringOf s r.val).state = .error) →
    ∃ t, exec (.ringDisable r v) s = .next t ∧ (ringOf t r.val).state = .draining ∧
      (∀ w ∈ t.cmd.waits, ¬(w.h.src = .ring r ∧ w.seqExp = none)) ∧ t.cmd.live = s.cmd.live ∧ Keeps [.cmd] s t) ∧
  (∀ c x s (r : Fin 16), rowOf c = some x → x.h.src = .ring r → (ringOf s r.val).state ≠ .running → exec c s = .next s) ∧
  (∀ h opc v s (r : Fin 16), h.src = .ring r → (ringOf s r.val).state = .draining → (ringOf s r.val).discard = false →
    (ringOf s r.val).cqBad = false → s.cmd.up = true → (∀ l, liveOf s (keyOf h) = some l → l.orphan = false) → noReply h = false →
    ∃ phase late, .ringReply r.val (ringOf s r.val).cqTail phase false
      ⟨h.src, h.tag, h.seq, opc, v.status, late, merNs s, v.w0, v.w1, v.w2⟩ ∈ (finish h opc v s).out) ∧
  (∀ (r : Fin 16) s, (ringOf s r.val).state = .draining → ringBusy r s = false → r.val < s.cmd.rings.length →
    ∃ t, exec (.ringDrained r) s = .next t ∧ (ringOf t r.val).state = .off ∧ (ringOf t r.val).held = false ∧ Keeps [.buf, .cmd] s t)

/-- RING_CTL with a bad SIZE is a ring error (R393); SQ_TAIL submits and CQ_HEAD releases entries, a bad index is a ring error
(R391, R393). -/
def Obligations.RingRegisters : Prop :=
  (∀ (r : Fin 16) (v : BitVec 31) s, s.cmd.up = true → (ringOf s r.val).state = .off → r.val < s.cmd.rings.length →
    4 < bits v.toNat 2 0 →
    ∃ u, exec (.ringEnable r v) s = .next (ringError r.val 0x01 u) ∧ Keeps [.cmd] s u) ∧
  (∀ (r : Fin 16) (v : U32) s, s.cmd.up = true → r.val < s.cmd.rings.length → (ringOf s r.val).state = .running →
    v.toNat < (ringOf s r.val).n →
    unread (ringOf s r.val) ≤ (v.toNat + (ringOf s r.val).n - (ringOf s r.val).head) % (ringOf s r.val).n →
    ∃ t, exec (.sqTail r v [] .ok) s = .next t ∧ ringOf t r.val = { ringOf s r.val with sqTail := v.toNat } ∧ Keeps [.buf, .cmd] s t) ∧
  (∀ (r : Fin 16) (v : U32) strays mem s, s.cmd.up = true → (ringOf s r.val).state = .running → (ringOf s r.val).n ≤ v.toNat →
    ∃ u, exec (.sqTail r v strays mem) s = .next (dropUnread r (ringError r.val 0x02 u)) ∧ u = hostTouch s) ∧
  (∀ (r : Fin 16) (v : U32) s k, s.cmd.up = true → r.val < s.cmd.rings.length → (ringOf s r.val).state ≠ .off →
    (ringOf s r.val).held = true → v.toNat < (ringOf s r.val).n →
    k = (v.toNat + (ringOf s r.val).n - (ringOf s r.val).cqHead) % (ringOf s r.val).n → k ≤ unreleased (ringOf s r.val) →
    ∃ t, exec (.cqHead r v) s = .next t ∧ (ringOf t r.val).cqHead = v.toNat ∧
      (ringOf t r.val).armed = !((ringOf s r.val).irq && decide (k < unreleased (ringOf s r.val))) ∧
      Keeps [.out, .buf, .cmd] s t)

/-- The other host registers and the link: LEASE_HB renews the host's lease, SAFE_REQ holds the module safe (R409); a write
reaches the register at its offset (R389); the low word of a 64-bit register latches the high word (R6); the link goes down, up
and to L1 (R387, R388). -/
def Obligations.HostLink : Prop :=
  (∀ v s, s.cmd.up = true → holdsLease s .host = true →
    ∃ t, exec (.leaseHb v) s = .next t ∧ t.cmd.lease.expiry = merNs s + pv s 0x0500 * 1000000 ∧
      t.cmd.lease.holder = some .host ∧ Keeps [.cmd] s t) ∧
  (∀ v s, s.cmd.up = true → holdsLease s .host = false →
    exec (.leaseHb v) s = .next (raise 0x23 [(1, 1), (8, 0x4004)] (hostTouch s))) ∧
  (∀ s, s.cmd.up = true → quiescing s = false →
    ∃ t, exec (.safeReq 0x5AFE0001) s = .next t ∧ t.mode.safeHold = true ∧ .request ∈ t.mode.causes) ∧
  (∀ v s, s.cmd.up = true → v ≠ 0x5AFE0001 → exec (.safeReq v) s = .next (hostTouch s)) ∧
  (∀ (off : U16) v s, s.cmd.up = true → off.toNat % 4 ≠ 0 → exec (.registerWrite off v) s = .next (hostTouch s)) ∧
  (∀ (i : Fin 64) (off : U16) (v : U32) s, s.cmd.up = true → off.toNat = 0x2100 + 4 * i.val → s.evt.vmap.length = 256 →
    ∃ t, exec (.registerWrite off v) s = .next t ∧
      (∀ b, b < 4 → t.evt.vmap.getD (4 * i.val + b) 0 = bits v.toNat (8 * b + 4) (8 * b)) ∧
      (∀ n, n / 4 ≠ i.val → t.evt.vmap.getD n 0 = s.evt.vmap.getD n 0) ∧ Keeps [.cmd, .evt] s t) ∧
  (∀ (r : Fin 16) (off : U16) (v : U32) s, s.cmd.up = true → off.toNat = 0x0100 + 0x20 * r.val → r.val < s.cmd.rings.length →
    (ringOf s r.val).state = .off →
    ∃ t, exec (.registerWrite off v) s = .next t ∧ (ringOf t r.val).sqBase =
        (ringOf s r.val).sqBase / 2 ^ 32 * 2 ^ 32 + v.toNat / 4096 * 4096 ∧ Keeps [.cmd] s t) ∧
  (∀ v s, exec (.registerWrite 0x4004 v) s = exec (.leaseHb v) s ∧ exec (.registerWrite 0x4008 v) s = exec (.safeReq v) s ∧
    exec (.registerWrite 0x2208 v) s = exec (.evqCtlWrite v) s ∧ exec (.registerWrite 0x2210 v) s = exec (.evqHead v) s) ∧
  (∀ (off : U16) s v, s.cmd.up = true → reg64 off.toNat s = some v →
    ∃ t, exec (.reg64LowRead .host off) s = .next t ∧ .regRead off.toNat (v % 2 ^ 32) ∈ t.out ∧
      assocD t.cmd.hi64 (off.toNat + 4) 0 = v / 2 ^ 32 ∧ Keeps [.out, .cmd] s t) ∧
  (∀ why s, mainOn s = true → s.cmd.up = true →
    ∃ t, exec (.pcieLinkDown why) s = .next t ∧ t.cmd.up = false ∧ t.evt.qEnable = false ∧
      (∀ k, k < 16 → k < s.cmd.rings.length → (ringOf t k).state = .off) ∧
      (why = .conventionalReset → t.evt.pend = 0 ∧ t.evt.mask = 2 ^ 256 - 1) ∧
      Keeps [.out, .buf, .cmd, .evt, .scn, .sbd] s t) ∧
  (∀ s, mainOn s = true → s.cmd.up = false → ∃ t, exec .pcieLinkUp s = .next t ∧ t.cmd.up = true ∧ t.cmd.rings = s.cmd.rings ∧
    Keeps [.cmd] s t) ∧
  (∀ s, s.cmd.up = true → s.cmd.l1 = false → hostOverlay s = false →
    ∃ t, exec .aspmL1Entry s = .next t ∧ .aspmL1 ∈ t.out ∧ t.cmd.l1 = true ∧ s.cmd.lastHost + 10000 ≤ t.time.ref ∧
      Keeps [.out, .time, .cmd] s t)

/-- A datagram and an MCTP message for the module carry a side-band message (R451, R452), which is taken, answered from the kept
replies or dropped (R410, R411); MCTP control answers (R452); the link of SB_T1 (R455). -/
def Obligations.SideBandPort : Prop :=
  (∀ (sender : U32) (target : U32) mac s, s.mode.vauxOn = true → s.sbd.up = true → target.toNat = pv s 0x1101 →
    ∃ t, exec (.sbT1Datagram (.arp target sender mac)) s = .next t ∧
      .sbArp (pv s 0x1101) (pv s 0x1100) ⟨true, sender.toNat, 0, mac.toNat⟩ ∈ t.out ∧ Keeps [.out] s t) ∧
  (∀ (dstMac srcMac : BitVec 48) (dst : U32) (dstPort : U16) m s, s.mode.vauxOn = true → s.sbd.up = true → dstMac.toNat = pv s 0x1100 →
    dst.toNat = pv s 0x1101 → dstPort.toNat = pv s 0x1102 →
    exec (.sbT1Datagram (.udp dstMac srcMac dst dstPort m)) s =
      .next (sbIn ⟨true, m.addr.toNat, m.port.toNat, srcMac.toNat⟩ 0 m s)) ∧
  (∀ f m s, s.mode.vauxOn = true → f.addr.toNat = pv s 0x1103 → f.pecOk = true →
    exec (.mctpMessage f m) s = .next (sbIn ⟨false, f.source.toNat, 0, 0⟩ 1 m s)) ∧
  (∀ from_ n m s, m.wellFormed = false → ∃ u, sbIn from_ n m s = raise 0xDD [] u ∧ u.cmd.sbDropped = s.cmd.sbDropped + 1) ∧
  (∀ from_ n m s r, m.wellFormed = true → keptReply m s = some r → sbIn from_ n m s = emit (.sbReply (some from_) false r) s) ∧
  (∀ from_ n m s, m.wellFormed = true → keptReply m s = none → sbRefusal n m s = none → m.stray = false →
    ∃ x, (sbIn from_ n m s).cmd.sbReady = s.cmd.sbReady ++ [x] ∧ x.h = { m.h with src := .side } ∧ x.opcode = m.opcode ∧
      Keeps [.out, .mode, .cmd, .evt, .hwd, .sbd] s (sbIn from_ n m s)) ∧
  (∀ f (op eid : Byte) s, s.mode.vauxOn = true → f.addr.toNat = pv s 0x1103 → f.pecOk = true → op.toNat ≤ 1 → 8 ≤ eid.toNat →
    eid.toNat ≤ 254 →
    ∃ u, exec (.setEndpointId f op eid) s = .next (emit (.mctpReply 1 [0x00, 0x00, eid, 0x00]) (raise 0xDC [] u)) ∧
      u.sbd.eid = eid.toNat ∧ Keeps [.sbd] s u) ∧
  (∀ f s, s.mode.vauxOn = true → f.addr.toNat = pv s 0x1103 → f.pecOk = true →
    exec (.getEndpointId f) s = .next (emit (.mctpReply 2 [0x00, BitVec.ofNat 8 s.sbd.eid, 0x00, 0x00]) s) ∧
    exec (.getMessageTypeSupport f) s = .next (emit (.mctpReply 5 [0x00, 0x01, 0x7E]) s)) ∧
  (∀ f (type : Byte) s, s.mode.vauxOn = true → f.addr.toNat = pv s 0x1103 → f.pecOk = true →
    exec (.getMctpVersionSupport f type) s = .next (emit (.mctpReply 4 (if type = 0xFF ∨ type = 0x00 ∨ type = 0x7E
      then 0x00 :: Config.mctpVersions type.toNat else [0x80])) s)) ∧
  (∀ s, s.mode.vauxOn = true → s.sbd.up = false →
    ∃ u, exec .sbdLinkUp s = .next (raise 0xDA [] u) ∧ u.sbd.up = true ∧ Keeps [.sbd] s u) ∧
  (∀ s, s.sbd.up = true → ∃ u, exec .sbdLinkDown s = .next (raise 0xDB [] u) ∧ u.sbd.up = false ∧ Keeps [.sbd] s u)

/-- A record takes the next EVSEQ and joins the history (R417, R423); EVT_PEND and EVT_MASK words (R419); the event queue's
registers (R421); the end of a coalesced source's millisecond (R420). -/
def Obligations.EventRegisters : Prop :=
  (∀ r s, (logRec r s).2.evt.evseq = (s.evt.evseq + 1) % 2 ^ 32 ∧
    (logRec r s).2.evt.history = ((logRec r s).1 :: s.evt.history).take 1024 ∧ .record (logRec r s).1 ∈ (logRec r s).2.out ∧
    Keeps [.out, .evt] s (logRec r s).2) ∧
  (∀ (word : Fin 8) (v : U32) s, s.cmd.up = true →
    ∃ t, exec (.evtPendWrite word v) s = .next t ∧ (∀ n, n < 256 →
      t.evt.pend.testBit n = (s.evt.pend.testBit n && !(n / 32 == word.val && v.toNat.testBit (n % 32)))) ∧ Keeps [.cmd, .evt] s t) ∧
  (∀ (word : Fin 8) (v : U32) s, s.cmd.up = true →
    ∃ t, exec (.evtMaskWrite word v) s = .next t ∧ (∀ n,
      t.evt.mask.testBit n = (if n / 32 = word.val then v.toNat.testBit (n % 32) else s.evt.mask.testBit n)) ∧
      t.evt.pend = s.evt.pend ∧ Keeps [.out, .cmd, .evt] s t) ∧
  (∀ (v : U32) s, s.cmd.up = true → s.evt.qEnable = false → bit v.toNat 31 = true → bits v.toNat 3 0 ≤ 8 →
    ∃ t, exec (.evqCtlWrite v) s = .next t ∧ t.evt.qEnable = true ∧ t.evt.qSize = bits v.toNat 3 0 ∧ t.evt.qTail = 0 ∧
      t.evt.qHead = 0 ∧ t.evt.qWritten = 0 ∧ Keeps [.cmd, .evt] s t) ∧
  (∀ (v : U32) s, s.cmd.up = true → s.evt.qEnable = true → (bit v.toNat 31 = true → bits v.toNat 3 0 ≤ 8) →
    ∃ t, exec (.evqCtlWrite v) s = .next t ∧ t.evt.qEnable = bit v.toNat 31 ∧ t.evt.qSize = s.evt.qSize ∧ Keeps [.cmd, .evt] s t) ∧
  (∀ (v : U32) s, s.cmd.up = true → s.evt.qEnable = true → v.toNat < evqN s →
    (v.toNat + evqN s - s.evt.qHead) % evqN s ≤ (s.evt.qTail + evqN s - s.evt.qHead) % evqN s →
    ∃ t, exec (.evqHead v) s = .next t ∧ t.evt.qHead = v.toNat ∧ t.evt.qEnable = true ∧ Keeps [.cmd, .evt] s t) ∧
  (∀ (v : U32) s, s.cmd.up = true → s.evt.qEnable = true → evqN s ≤ v.toNat →
    ∃ u, exec (.evqHead v) s = .next (raise 0x25 [(1, 0xFF), (1, 0x02)] u) ∧ u.evt.qEnable = false ∧ Keeps [.cmd, .evt] s u) ∧
  (∀ s, s.cmd.up = true → ∃ t, exec .evqDroppedRead s = .next t ∧ .regRead 0x2214 (s.evt.dropped % 2 ^ 32) ∈ t.out ∧
    t.evt.dropped = 0 ∧ Keeps [.out, .cmd, .evt] s t) ∧
  (∀ s c r, sortBy (fun (c : SrcCount) => c.ms) (s.evt.counts.filter (fun c => c.coalesced)) = c :: r →
    ∃ t d, exec .coalesceMsEnd s = .next t ∧ (c.ms + 1) * 1000000 ≤ merNs t ∧ srcCount t c.source = some d ∧ d.ms = c.ms + 1 ∧
      d.count = 0 ∧ Keeps [.out, .time, .cmd, .evt, .sbd] s t)

/-! ## Parameters, time and timers -/

/-- NOP answers OK and does nothing else. GET_INFO page 0 answers the identity 0x5A4C9624, the revision with DEV_STATE, and
FW_VERSION; page 1 the other image's version, the rollback value and the counts; page 2 the capacity of device memory in MiB.
PARAM_GET answers the value of the parameter, low 32 bits first. PARAM_LIST answers how many entries it gives and the next ID. -/
def Obligations.InfoAndParameters : Prop :=
  ((∀ h s, served (rowNop h) s = true → exec (.nop h) s = .next (finish h 0x0001 (okay) (taken (rowNop h) s))) ∧
  (∀ h (p : GetInfoP) s, served (rowGetInfo h p) s = true →
    ∃ v, exec (.getInfo h p) s = .next (finish h 0x0002 v (taken (rowGetInfo h p) s)) ∧ v.status = St.ok ∧
      (p.page = 0 → v.w0 = 0x5A4C9624 ∧ v.w1 % 2 ^ 8 = 0x41) ∧
      (p.page = 2 → v.w0 = dmcCapacity s / 2 ^ 20))) ∧
  ((∀ h (p : ParamGetP) v s, served (rowParamGet h p v) s = true →
    ∃ d u, pFind paramTable p.id.toNat = some d ∧
      exec (.paramGet h p v) s = .next (finish h 0x0101 (okay (paramValue d u % 2 ^ 32) (paramValue d u / 2 ^ 32 % 2 ^ 32)
        (paramValue d u / 2 ^ 64 % 2 ^ 32)) u) ∧
      u.hwd.holdupMv = v.holdup.toNat ∧ u.hwd.vauxMv = v.vaux.toNat ∧ Keeps [.buf, .cmd, .sbd, .hwd] s u) ∧
  (∀ h (p : ParamListP) v s, served (rowParamList h p v) s = true →
    ∃ n next u, exec (.paramList h p v) s = .next (finish h 0x0104 (okay n next) u) ∧
      n ≤ p.count.toNat ∧ (p.dest = 0 → n = 0) ∧
      (∀ d ∈ ((paramTable.filter (fun d => p.startId.toNat ≤ d.id)).drop n).head?, next = d.id) ∧
      ((paramTable.filter (fun d => p.startId.toNat ≤ d.id)).length ≤ n → next = 0xFFFFFFFF) ∧
      Keeps [.out, .buf, .cmd, .sbd, .hwd] s u))

/-- PARAM_SET of a parameter that is neither kept in the NV store nor one of the memory rows: the reply gives the value and when
it takes effect, and the value is in force, or waits for its frame, pair or change (R7). PARAM_SET of a DMC_HASH mask and of
DMC_DLY_TIMING or DMC_DLY_VREF in Dawn or with the record's point not in force writes its record in the CONFIG partition before
the reply (R337, R345); PARAM_SET of HWD_REARM re-arms the masked inputs it names (R539). -/
def Obligations.ParameterSets : Prop :=
  (∀ h (p : ParamSetP) d s, pFind paramTable p.id.toNat = some d → d.keep ≠ 2 →
  isHash p.id.toNat = false → isDly p.id.toNat = false → p.id.toNat ≠ 0x0032 →
  served (rowParamSet (.paramSet h p) h p) s = true →
  ∃ u, exec (.paramSet h p) s = .next (finish h 0x0102 (paramReply d p.value.toNat) u) ∧
    (d.eff = 0 → pv u p.id.toNat = p.value.toNat) ∧
    (pv u p.id.toNat = p.value.toNat ∨ (p.id.toNat, p.value.toNat, d.eff) ∈ u.parPend)) ∧
  ((∀ h (p : ParamSetP) d s seq u, pFind paramTable p.id.toNat = some d → isHash p.id.toNat = true →
    served (rowParamSet (.paramSetDmcHash h p) h p) s = true →
    nvPut 0 0x03 (p.id.toNat - 0x0710) false (leBytes 8 p.value.toNat) 0 (taken (rowParamSet (.paramSetDmcHash h p) h p) s) =
      (u, .seq seq) →
    exec (.paramSetDmcHash h p) s =
      .next (finish h 0x0102 (paramReply d p.value.toNat) (setHash p.id.toNat p.value.toNat u))) ∧
  (∀ h (p : ParamSetP) d s seq u, pFind paramTable p.id.toNat = some d → isDly p.id.toNat = true →
    served (rowParamSet (.paramSetDmcDly h p) h p) s = true →
    nvPut 0 0x02 (pv s 0x0720 / 256) false (dlySetBytes ((storedSet (taken (rowParamSet (.paramSetDmcDly h p) h p) s)
        (pv s 0x0720 / 256)).set (pv s 0x0720 % 64)
        (dlyWith p.id.toNat p.value.toNat (storedDly (taken (rowParamSet (.paramSetDmcDly h p) h p) s) (pv s 0x0720 / 256)
          (pv s 0x0720 % 64))))) 0 (taken (rowParamSet (.paramSetDmcDly h p) h p) s) = (u, .seq seq) →
    ∃ t, exec (.paramSetDmcDly h p) s = .next (finish h 0x0102 (paramReply d p.value.toNat) t) ∧
      (3 ≤ s.dmc.state → t = putDly (pv s 0x0720 / 256) (pv s 0x0720 % 64)
        (dlyWith p.id.toNat p.value.toNat (selDly (taken (rowParamSet (.paramSetDmcDly h p) h p) s))) u) ∧
      (s.dmc.state < 3 → t = u)) ∧
  (∀ h (p : ParamSetP) s, p.id = 0x0032 → served (rowParamSet (.paramSetHwdRearm h p) h p) s = true →
    ∃ u v, exec (.paramSetHwdRearm h p) s = .next (finish h 0x0102 v u) ∧ v.status = St.ok ∧
      (p.value.toNat.testBit 0 = true → u.hwd.det.masked = false) ∧
      (p.value.toNat.testBit 1 = true → u.hwd.mrst.masked = false) ∧
      (p.value.toNat.testBit 0 = false → u.hwd.det = s.hwd.det) ∧ Keeps [.buf, .cmd, .sbd, .hwd] s u))

/-- TIME_GET answers the visible fraction of the time with the state code, the latest offset (0 without a time source) and the
frequency offset in 1/256 ppb; its reply carries the time at which it is formed (R270). -/
def Obligations.TimeGetReply : Prop :=
  (∀ h, (rowTimeGet h).plens = [0]) ∧ (∀ c, infoOf 0x0601 = some c → c.cls = .observe) ∧ (infoOf 0x0601).isSome = true ∧
  (∀ h s, served (rowTimeGet h) s = true → ∃ v, exec (.timeGet h) s = .next (finish h 0x0601 v (taken (rowTimeGet h) s)) ∧
    v.status = St.ok ∧ bits v.w0 15 0 = s.time.mer % fracOne / 2 ^ 32 ∧ bits v.w0 17 16 = tsCode s.time.state ∧ v.w0 < 2 ^ 18 ∧
    v.w1 = (if pv s 0x0300 = 0 then 0 else unsigned 32 s.time.offset) ∧
    v.w2 = unsigned 32 (floorDiv (foffNow s * nsPerSec + (2 ^ 40 : Nat)) (2 ^ 41 : Nat)) ∧
    merNs (taken (rowTimeGet h) s) = merNs s) ∧
  (∀ h v s, h.src = .side → noReply h = false →
    ∃ d late, .sbReply d false ⟨h.src, h.tag, h.seq, 0x0601, v.status, late, merNs s, v.w0, v.w1, v.w2⟩ ∈ (finish h 0x0601 v s).out)

/-- TIME_SET OP 0 and OP 1 end a slew, step Meridian time by Δ and set UNSET to FREE, and answer Δ and the state; OP 2 waits for
the next used edge, at most 1.5 s, after which it ends DEADLINE_MISSED (R271). TIME_ADJUST OP 0 starts a slew that ends OK once
its offset is removed at 40 ns in a millisecond; OP 1 sets the frequency offset (R272). -/
def Obligations.SettingTime : Prop :=
  ((∀ h (p : TimeSetP) s, served (rowTimeSetAbsolute h p) s = true →
    exec (.timeSetAbsolute h p) s =
      .next (timeSetBy h ((mtOf p.time : Int) - merNs s) (taken (rowTimeSetAbsolute h p) s))) ∧
  (∀ h (p : TimeSetP) s, served (rowTimeSetRelative h p) s = true →
    exec (.timeSetRelative h p) s = .next (timeSetBy h (signed 64 p.delta.toNat) (taken (rowTimeSetRelative h p) s))) ∧
  (∀ h (d : Int) s, s.time.slew = none → s.time.state = .free → 0 ≤ (s.time.mer : Int) + 4 * d * (2 ^ 46 : Nat) →
    ∃ u, timeSetBy h d s = finish h 0x0602 (okay (lo32 d) (hi32 d) 1) u ∧
      (u.time.mer : Int) = s.time.mer + 4 * d * (2 ^ 46 : Nat) ∧ u.time.ref = s.time.ref ∧
      u.time.steps = (if d = 0 then s.time.steps else s.time.steps + 1)) ∧
  (∀ h (p : TimeSetP) s, s.time.slew = none → s.time.ppsSet = none → served (rowTimeSetAtPps h p) s = true →
    ∃ u, exec (.timeSetAtPps h p) s = .next (accepted h 0x0602 0 u) ∧
      u.time.ppsSet = some ⟨h, p.time.sec.toNat, s.time.ref + 1500000000⟩ ∧ Keeps [.time, .buf, .cmd, .sbd] s u) ∧
  (∀ s w, s.time.ppsSet = some w →
    ∃ u, exec .timeSetPpsTimeout s = .next (finish w.h 0x0602 (no St.deadlineMissed) u) ∧ u.time.ppsSet = none ∧
      w.until_ ≤ u.time.ref ∧ Keeps [.time] s u)) ∧
  ((∀ h (p : TimeAdjustP) s, s.time.slew = none → served (rowTimeAdjustSlew h p) s = true →
    ∃ u, exec (.timeAdjustSlew h p) s = .next (accepted h 0x0603 0 u) ∧
      u.time.slew = some ⟨h, signed 64 p.delta.toNat, s.time.ref⟩ ∧ Keeps [.time, .buf, .cmd, .sbd] s u) ∧
  (∀ h (p : TimeAdjustP) s, s.time.slew = none → served (rowTimeAdjustFrequency h p) s = true →
    ∃ u, exec (.timeAdjustFrequency h p) s = .next (finish h 0x0603 (okay) u) ∧
      u.time.foff = floorDiv (signed 32 p.freq.toNat * (2 ^ 41 : Nat)) nsPerSec ∧ u.time.mer = s.time.mer ∧
      Keeps [.time, .buf, .cmd, .sbd] s u) ∧
  (∀ s w, s.time.slew = some w →
    ∃ u, exec .slewDone s = .next (finish w.h 0x0603 (okay) u) ∧ u.time.slew = none ∧
      w.since + w.left.natAbs * 25000 ≤ u.time.ref ∧ Keeps [.time] s u))

/-- PTP_PORT_CFG stores a port's settings; a port of profile 0 is DISABLED (R278). A Sync on a gPTP port gives an offset; a MASTER
port sends its Sync no earlier than it is due (R274, R275). -/
def Obligations.PtpPorts : Prop :=
  (∀ h (p : PtpPortCfgP) s, p.port.toNat < s.time.ports.length → served (rowPtpPortCfg h p) s = true →
    ∃ u, exec (.ptpPortCfg h p) s = .next (finish h 0x0606 (okay (if p.profile = 0 then 0 else 4)) u) ∧
      (ptpOf u p.port.toNat).profile = p.profile.toNat ∧ (ptpOf u p.port.toNat).domain = p.domain.toNat ∧
      (ptpOf u p.port.toNat).portState = (if p.profile = 0 then 0 else 4)) ∧
  (∀ (port : Fin 8) t1 t2 corr s, mainOn s = true → (ptpOf s port.val).profile = 1 →
    ((ptpOf s port.val).portState = 8 ∨ (ptpOf s port.val).portState = 9) →
    exec (.ptpEventMessage port (.sync t1 t2 corr)) s =
      .next (slaveOffset port.val ((t2 : Int) - (ptpOf s port.val).rxLat - t1 - corr - (ptpOf s port.val).pathDelay -
        (ptpOf s port.val).asym) (setPtp port.val { ptpOf s port.val with
          syncDiff := some ((t2 : Int) - (ptpOf s port.val).rxLat - t1 - corr) } s))) ∧
  (∀ (port : Fin 8) s, mainOn s = true → port.val < s.time.ports.length → (ptpOf s port.val).profile ≠ 0 →
    (ptpOf s port.val).portState = 6 →
    ∃ t, exec (.ptpMessageTx port .sync) s = .next t ∧ (ptpOf s port.val).nextSync ≤ merNs t ∧
      .ptpTx port.val 0 (merNs t * 4 + (ptpOf s port.val).txLat) (sentClass s) s.time.gmId ∈ t.out ∧
      (ptpOf t port.val).nextSync = merNs t + logInterval (ptpOf s port.val).logSync)

/-- TIMER_ARM arms the lowest free timer and answers its handle; TIMER_CANCEL releases the timer its handle names; a one-shot
timer fires at its time with event 0x34 and is released (R279 to R282). -/
def Obligations.Timers : Prop :=
  (∀ h (p : TimerArmP) s, merNs s ≤ mtOf p.t → served (rowTimerArm h p) s = true →
    ∃ i u, freeTimer s = some i ∧ exec (.timerArm h p) s = .next (finish h 0x0604 (okay (handle 0xF2 i (genOf s 0xF2 i))) u) ∧
      u.time.timers = s.time.timers ++ [⟨i, genOf s 0xF2 i, mtOf p.t, p.period.toNat, p.cookie.toNat, p.flags.toNat.testBit 1, 0, 0⟩] ∧
      Keeps [.time, .buf, .cmd, .sbd] s u) ∧
  (∀ h (p : HandleP) s, served (rowTimerCancel h p) s = true →
    ∃ t u, timerOf s p.handle.toNat = some t ∧ exec (.timerCancel h p) s = .next (finish h 0x0605 (okay t.firings t.skipped) u) ∧
      (∀ x ∈ u.time.timers, x.idx ≠ t.idx) ∧ (∀ x ∈ u.time.alarms, x.idx ≠ t.idx) ∧ Keeps [.time, .buf, .cmd, .sbd] s u) ∧
  (∀ (i : Fin 64) t s, s.time.timers.find? (fun x => x.idx == i.val) = some t → s.hwd.quiesce = none → t.period = 0 →
    ∃ u, exec (.timeTimer i) s = .next u ∧ t.t ≤ merNs u ∧ (∀ x ∈ u.time.timers, x.idx ≠ t.idx))

/-- The loss of the time source raises event 0x32 and turns LOCKED into HOLDOVER, which ends FREE with event 0x33 after
TIME_HOLDOVER (R268). The pulse per second: a glitch is counted and not used; an active level of 1.0 s masks the input with event
0x38; 1.5 s without a used edge raise event 0x36; a read of MT_NS latches the time for its master and answers the nanoseconds
(R269, R283, R284). -/
def Obligations.TimeSources : Prop :=
  ((∀ s, s.time.sourceLost = false → pv s 0x0300 = 2 → s.time.state = .locked →
    ∃ t, exec .timeSourceLost s = .next t ∧ t.time.state = .holdover ∧ t.time.sourceLost = true ∧
      s.time.ppsUsed.getD 0 + 1500000000 ≤ t.time.ref) ∧
  (∀ s, s.time.state = .holdover →
    ∃ u, exec .timeHoldoverEnd s = .next (raise 0x33 [] u) ∧ u.time.state = .free ∧
      s.time.holdSince + pv s 0x0304 * nsPerSec ≤ u.time.ref)) ∧
  ((∀ stamp width s, mainOn s = true → width < 100 →
    exec (.ppsInEdge stamp width) s = .next { s with time := { s.time with ppsGlitches := s.time.ppsGlitches + 1 } }) ∧
  (∀ stamp width s, mainOn s = true → 100 ≤ width → s.time.ppsMasked = true →
    ∃ t, exec (.ppsInEdge stamp width) s = .next t ∧ t.time.ppsEdges = s.time.ppsEdges + 1 ∧ stamp / 4 ≤ merNs t ∧ Keeps [.time] s t) ∧
  (∀ s, s.time.ppsMasked = false → mainOn s = true →
    exec .ppsInStuck s = .next (raise 0x38 [] { s with time := { s.time with ppsMasked := true } })) ∧
  (∀ s, s.time.ppsLostRaised = false → mainOn s = true →
    ∃ u, exec .ppsInLost s = .next (raise 0x36 [] u) ∧ u.time.ppsLostRaised = true ∧
      s.time.ppsUsed.getD 0 + 1500000000 ≤ u.time.ref ∧ Keeps [.time] s u) ∧
  (∀ s k gap, mainOn s = true → ppsOutDue s = some (k, gap) →
    ∃ t w e, exec .ppsOutEdge s = .next t ∧ .ppsOut e w ∈ t.out ∧ 2 * w ≤ gap ∧ k ≤ merNs t) ∧
  (∀ s, s.cmd.up = true →
    ∃ t, exec (.mtNsRead .host) s = .next t ∧ .regRead 0x3000 (merNs s % nsPerSec) ∈ t.out ∧
      t.time.latchHost = some ⟨s.time.mer, tsCode s.time.state, (frameAt (merNs s) s).getD 0⟩ ∧ t.time.mer = s.time.mer) ∧
  (∀ s, ∃ t, exec (.mtNsRead .sideBand) s = .next t ∧ .regRead 0x3000 (merNs s % nsPerSec) ∈ t.out ∧
      t.time.latchSide = some ⟨s.time.mer, tsCode s.time.state, (frameAt (merNs s) s).getD 0⟩))

/-! ## Modes, power, heat and hardware -/

/-- TIMING_SET at the rate in force is answered at once; at another one, and a MODE_SET for another mode or rate, becomes the
pending change with its boundary c, answered ACCEPTED with the frame index at c (R194, R294). A MODE_SET that fails a check of
R293 is answered with it and does nothing. The boundary of a pending change makes its mode and rate the ones in force (R197,
R294), with event 0x01 when the mode changes (R296). MODE_GET answers the mode in force (R295). A change of the memory's point
ends with event 0x41 (R342). -/
def Obligations.ModeChanges : Prop :=
  ((∀ h p s, p.rate.toNat = s.mode.rate → served (rowTimingSet h p) s = true →
    exec (.timingSet h p) s = .next (finish h 0x0404 (okay (((frameAt (merNs s) s).getD 0xFFFFFFFF) % 2 ^ 32) 0 (emitWindow s))
      (taken (rowTimingSet h p) s))) ∧
  (∀ h p s at_, p.rate.toNat ≠ s.mode.rate → changeTarget h s = some at_ → s.mode.change = none → served (rowTimingSet h p) s = true →
    ∃ k u, exec (.timingSet h p) s = .next (synRecheck (accepted h 0x0404 k u)) ∧
      u.mode.change = some ⟨s.mode.mode, p.rate.toNat, (changeBoundary s.mode.mode p.rate.toNat at_ s).1,
        (changeBoundary s.mode.mode p.rate.toNat at_ s).2, 0, true, some (h, 0x0404)⟩ ∧
      u.mode.mode = s.mode.mode ∧ u.mode.rate = s.mode.rate ∧ Keeps [.mode, .scn, .buf, .cmd, .sbd] s u) ∧
  (∀ h p s v, s.pnl.load = none → served (rowModeSet h p) s = true →
    chkModeSet p (decisionSamples p (taken (rowModeSet h p) s)) = some v →
    exec (.modeSet h p) s = .next (finish h 0x0003 v (decisionSamples p (taken (rowModeSet h p) s)))) ∧
  (∀ h p s x at_, s.pnl.load = none → served (rowModeSet h p) s = true → x = decisionSamples p (taken (rowModeSet h p) s) →
    chkModeSet p x = none → modeAsked p x ≠ (x.mode.mode, x.mode.rate) → x.mode.mode ≠ .dawn → changeTarget h x = some at_ →
    ∃ k u, exec (.modeSet h p) s = .next (synRecheck (accepted h 0x0003 k u)) ∧
      u.mode.change = some ⟨(modeAsked p x).1, (modeAsked p x).2, (changeBoundary (modeAsked p x).1 (modeAsked p x).2 at_ x).1,
        (changeBoundary (modeAsked p x).1 (modeAsked p x).2 at_ x).2, 0, (modeAsked p x).1 == x.mode.mode, some (h, 0x0003)⟩ ∧
      u.mode.mode = x.mode.mode ∧ u.mode.rate = x.mode.rate)) ∧
  ((∀ s x, s.mode.change = some x → x.target ≠ .dormant →
    ∃ t, exec .modeChangeBoundary s = .next t ∧ t.mode.mode = x.target ∧ t.mode.rate = x.rate) ∧
  (∀ s x, s.mode.change = some x → exec .modeChangeBoundary s = .next (applyChange x (advanceMer x.c s))) ∧
  (∀ h s, served (rowModeGet h) s = true →
    ∃ v, exec (.modeGet h) s = .next (finish h 0x0004 v (taken (rowModeGet h) s)) ∧ v.status = St.ok ∧
      v.w0 % 2 ^ 8 = modeNum s.mode.mode ∧ v.w2 % 2 ^ 8 = s.mode.lastCause % 2 ^ 8) ∧
  (∀ s a b, s.dmc.change = some (a, b) →
    ∃ u, exec .dmcRateChangeDone s = .next (raise 0x41 [(1, a), (1, b)] u) ∧ u.dmc.change = none ∧ Keeps [.dmc] s u))

/-- VMAIN qualified in Dormant starts the module where a wake is held or MODE_POWERUP asks for it (R302). VMAIN below 9.0 V puts
the module into Dormant with event 0x06 (R302); outside its range it raises event 0x05 (R302). The loss of VAUX leaves the NV
store and nothing of memory (R549). A wake accepted brings the module into Dawn, or Recovery where no firmware runs (R299). The
sources of R298 act in Dormant: with VMAIN qualified the wake is accepted, else held with event 0x03. The Horizon sensor wakes on
its second reading in a row outside its limits (R310), the Horizon alarm at the first WAKE timer (R287). -/
def Obligations.SuppliesAndWakes : Prop :=
  ((∀ s, s.mode.vmainQual = false → s.mode.vauxOn = true → s.hwd.seating = false → s.mode.mode = .dormant → s.hwd.detached = false →
    s.hwd.quiesce = none →
    ∃ t, exec .vmainQualified s = .next t ∧ t.mode.vmainQual = true ∧
      (s.mode.wakeHeld ≠ 0 → t.mode.waking = some s.mode.wakeHeld) ∧
      (s.mode.wakeHeld = 0 → pv s 0x0103 = 0 → t.mode.waking = some 0) ∧
      (s.mode.wakeHeld = 0 → pv s 0x0103 ≠ 0 → t.mode.waking = s.mode.waking) ∧ Keeps [.mode, .hwd] s t) ∧
  (∀ s, s.mode.vmainQual = true → s.mode.mode ≠ .dormant → s.hwd.quiesce = none →
    ∃ t, exec .pwrVmainLost s = .next t ∧ t.mode.mode = .dormant ∧ t.mode.lastCause = 9 ∧ t.mode.vmainQual = false ∧ t.mem = {}) ∧
  (∀ mv s, mainOn s = true → 9000 < mv → (mv < 10800 ∨ 13200 < mv) → s.mode.vmainRange = none →
    ∃ u, exec (.pwrVmainRange mv) s = .next (raise 0x05 [] u) ∧ u.pwr.vmainMv = mv ∧ u.mode.vmainRange = some s.time.ref ∧
      Keeps [.pwr, .mode] s u) ∧
  (∀ s, ∃ t, exec .vauxLost s = .next t ∧ t.mode.vauxOn = false ∧ t.mode.mode = .dormant ∧ t.mem = {} ∧ t.buf.bufs = [] ∧
    t.nv.slots = s.nv.slots ∧ t.sec.lifeFuses = s.sec.lifeFuses ∧ t.sec.slotA = s.sec.slotA ∧ t.sec.slotB = s.sec.slotB ∧
    t.pending = s.pending)) ∧
  ((∀ r mask s, s.mode.waking = some mask → s.mode.mode = .dormant → s.mode.vmainQual = true →
    ∃ u, exec (.wake r) s = .next (startSample r u) ∧
      u.mode.mode = (if u.sec.running.isNone then .recovery else .dawn) ∧ u.mode.rate = 0 ∧ u.mode.wakeLast = mask ∧ u.mode.waking = none) ∧
  (∀ s, s.mode.mode = .dormant → wakesIgnored s = false → (pv s 0x0104).testBit 2 = true → s.mode.vmainQual = true →
    ∃ t, exec .pePerstRise s = .next t ∧ t.mode.waking = some (s.mode.waking.getD 0 ||| 4) ∧ Keeps [.mode, .hwd] s t) ∧
  (∀ s, s.mode.mode = .dormant → wakesIgnored s = false → (pv s 0x0104).testBit 2 = true → s.mode.vmainQual = false →
    ∃ u, exec .pePerstRise s = .next (raise 0x03 [] u) ∧ u.mode.wakeHeld = s.mode.wakeHeld ||| 4 ∧ Keeps [.mode, .hwd] s u) ∧
  (∀ v s, s.mode.mode = .dormant → s.mode.vauxOn = true → tripReading v s = false →
    ∃ t, exec (.horizonSensorRead v) s = .next t ∧ t.thm.hor = v ∧ t.thm.tripCount = 0 ∧ s.thm.horLast + 60 * nsPerSec ≤ t.time.ref ∧
      Keeps [.thm, .time] s t) ∧
  (∀ v s, s.mode.mode = .dormant → s.mode.vauxOn = true → tripReading v s = true → 1 ≤ s.thm.tripCount → s.thm.tripped = false →
    ∃ u, exec (.horizonSensorRead v) s = .next (wakeBy 5 (raise 0x19 [] u)) ∧ u.thm.tripped = true ∧ u.thm.hor = v ∧
      Keeps [.thm, .time] s u) ∧
  (∀ s x rest, s.mode.mode = .dormant → sortBy (fun (w : Timer) => w.t) s.time.alarms = x :: rest →
    exec .horizonAlarm s = .next (wakeBy 3 (advanceMer x.t s))))

/-- The power manager adds a sample to the energy and, with a hundred of them, judges their mean: the third in a row above 105 %
of the mode's maximum is an overdraw (R304). -/
def Obligations.PowerManager : Prop :=
  (∀ p s, mainOn s = true → s.pwr.winCount + 1 < 100 →
    ∃ t, exec (.powerSample p) s = .next t ∧ t.pwr.vmainMv = p.mv ∧ t.pwr.e = s.pwr.e + p.mw ∧
      t.pwr.winSum = s.pwr.winSum + p.mw ∧ t.pwr.winCount = s.pwr.winCount + 1 ∧ s.pwr.lastSample + 100000 ≤ t.time.ref ∧
      Keeps [.pwr, .time, .mode] s t) ∧
  (∀ p s, mainOn s = true → s.pwr.winCount = 99 →
    ∃ u, exec (.powerSample p) s = .next (judgePower ((s.pwr.winSum + p.mw) / 100) u) ∧ u.pwr.e = s.pwr.e + p.mw ∧
      u.pwr.winCount = 0) ∧
  (∀ avg s, s.pwr.capped = false → s.pwr.overRun = 2 → 105 * modePower s.mode.mode < 100 * avg →
    (judgePower avg s).pwr.capped = true ∧ (judgePower avg s).pwr.overCount = s.pwr.overCount + 1) ∧
  (∀ avg s, s.pwr.capped = true → s.pwr.underRun = 2 → avg ≤ modePower s.mode.mode → (judgePower avg s).pwr.capped = false)

/-- A thermal sample with a stack at 105.0 °C or above shuts the module down: Dormant, wakes ignored for 60 s (R318). A condition
is set by the third reading in a row at its level or above, and cleared by the third in a row more than 3.0 °C below (R312).
THM_WARMUP_LIMIT passed raises event 0x1B with the failure flag (R311); outside the quiesce a request that stands at its
enforcement time raises event 0x13 and a step-down, with the target of THROTTLE_ACK (R315, R327); the 60 s after a shutdown end
(R318). THERMAL_READ answers the readings held (R324), THERMAL_LIMITS_SET puts its limits in force (R325), THROTTLE_ACK keeps its
target, enforced at once where its flag asks for that (R327). -/
def Obligations.Thermal : Prop :=
  ((∀ r v s, mainOn s = true → r.hbm0 = some v → 1050 ≤ v →
    ∃ t, exec (.thermalSample r) s = .next t ∧ t.mode.mode = .dormant ∧ t.mode.shutUntil = some (t.time.ref + 60 * nsPerSec)) ∧
  (∀ r s, mainOn s = true → exec (.thermalSample r) s = .next (takeSample r (advanceRef (sampleDue s) s))) ∧
  (∀ r x rest s, sortBy (fun r => r) s.thm.confirm = x :: rest →
    ∃ u, exec (.confirmationSample r) s = .next (takeSample r u) ∧ u.thm.confirm = rest ∧ x ≤ u.time.ref ∧ Keeps [.thm, .time] s u) ∧
  (∀ (c : Cond) (v level : Int), c.on = false → c.count = 2 → level ≤ v → c.next v level = ⟨true, 0⟩) ∧
  (∀ (c : Cond) (v level : Int), c.on = false → c.count < 2 → level ≤ v → c.next v level = ⟨false, c.count + 1⟩) ∧
  (∀ (c : Cond) (v level : Int), c.on = true → c.count = 2 → v < level - 30 → c.next v level = ⟨false, 0⟩) ∧
  (∀ (c : Cond) (v level : Int), c.on = true → level - 30 ≤ v → c.next v level = ⟨true, 0⟩)) ∧
  ((∀ s at_, s.thm.warmup = some at_ →
    ∃ t, exec .warmupLimitExpiry s = .next t ∧ t.thm.warmup = none ∧ t.thm.warmFailed = true ∧
      at_ + pv s 0x020E * nsPerSec ≤ t.time.ref ∧ (∀ e ∈ t.mode.heldSet, e.judged = false)) ∧
  (∀ s at_, s.thm.grace = some at_ → throttled s = true → s.hwd.quiesce = none →
    ∃ c tgt u, exec .throttleGraceExpiry s = .next (stepDown c tgt (merNs u) (raise 0x13 [] u)) ∧
      c = (if dieRequest s || hbmRequest s then 2 else 3) ∧ tgt = (match s.thm.ack with | some 0xFF => none | x => x) ∧
      u.thm.grace = none ∧ u.thm.ack = none ∧ at_ ≤ merNs u ∧ Keeps [.thm, .time] s u) ∧
  (∀ s at_, s.thm.grace = some at_ → (throttled s = false ∨ s.hwd.quiesce ≠ none) →
    ∃ t, exec .throttleGraceExpiry s = .next t ∧ t.thm.grace = none ∧ Keeps [.thm, .time] s t) ∧
  (∀ s at_, s.mode.shutUntil = some at_ →
    ∃ t, exec .shutdownHoldExpiry s = .next t ∧ t.mode.shutUntil = none ∧ at_ ≤ t.time.ref ∧ Keeps [.mode, .time] s t)) ∧
  ((∀ h p s, served (rowThermalRead h p) s = true →
    exec (.thermalRead h p) s = .next (finish h 0x0701 (thermalWords p.select.toNat (taken (rowThermalRead h p) s))
      (taken (rowThermalRead h p) s))) ∧
  (∀ s, mainOn s = false → thermalWords 0 s = okay 0x80008000 0x80008000 (temp16 s.thm.hor)) ∧
  (∀ i s, mainOn s = true → s.thm.ok.getD i false = false → sensor16 i s = 0x8000) ∧
  (∀ h p s, served (rowThermalLimitsSet h p) s = true →
    ∃ u, exec (.thermalLimitsSet h p) s = .next (finish h 0x0702 (okay) u) ∧ u.thm.limDieWarn = p.warn.toNat ∧
      u.thm.limDieReq = p.request.toNat ∧ u.thm.limDieCrit = p.critical.toNat ∧ u.thm.limHbmReq = p.hbmRequest.toNat ∧
      u.thm.limHbmCrit = p.hbmCritical.toNat ∧ Keeps [.thm, .buf, .cmd, .sbd] s u) ∧
  (∀ h p s, p.flags.toNat.testBit 0 = false → served (rowThrottleAck h p) s = true →
    ∃ u, exec (.throttleAck h p) s = .next (finish h 0x0703 (okay (graceLeft s)) u) ∧ u.thm.ack = some p.target.toNat ∧
      u.thm.grace = s.thm.grace ∧ Keeps [.thm, .buf, .cmd, .sbd] s u) ∧
  (∀ h p s, p.flags.toNat.testBit 0 = true → served (rowThrottleAck h p) s = true →
    ∃ u, exec (.throttleAck h p) s = .next (enforce (finish h 0x0703 (okay) u)) ∧ u.thm.ack = some p.target.toNat ∧
      Keeps [.thm, .buf, .cmd, .sbd] s u))

/-- VAUX power good seats the module once: PRESENT_N is driven, step 8 of R543 is to come (R543). An assertion of DETACH_REQ_N,
DETACH_PREPARE and a step ended by force, with no step that hangs, run the quiesce to its end: the module is in Dormant and
detached, SAFE_N is asserted (R544 to R547). A step that hangs holds it there. -/
def Obligations.SeatingAndDetaching : Prop :=
  (∀ found s, s.hwd.present = false →
  ∃ t, exec (.vauxPowerGood found) s = .next t ∧ t.hwd.present = true ∧ t.hwd.seating = true ∧ t.mode.vauxOn = true ∧
    t.mode.mode = s.mode.mode ∧ t.mem = s.mem) ∧
  ((∀ edges took s, s.mode.vauxOn = true → s.hwd.det.on = false → s.hwd.det.masked = false → s.hwd.seating = false →
    s.hwd.detached = false → s.hwd.quiesce = none →
    ∃ t, exec (.detachReqAssert edges none took) s = .next t ∧ t.hwd.detached = true ∧ t.hwd.safe = true ∧ t.hwd.quiesce = none ∧
      t.hwd.det.on = true ∧ t.mode.mode = .dormant) ∧
  (∀ edges (k : Fin 5) took s, s.mode.vauxOn = true → s.hwd.det.on = false → s.hwd.det.masked = false → s.hwd.seating = false →
    s.hwd.detached = false → s.hwd.quiesce = none → s.mode.mode ≠ .dormant →
    ∃ t q, exec (.detachReqAssert edges (some k) took) s = .next t ∧ t.hwd.quiesce = some q ∧ q.step = k.val + 2 ∧
      t.hwd.detached = false) ∧
  (∀ q s, s.hwd.quiesce = some q → 2 ≤ q.step →
    ∃ t, exec (.quiesceStepForced none) s = .next t ∧ t.hwd.detached = true ∧ t.hwd.safe = true ∧ t.hwd.quiesce = none ∧
      t.mode.mode = .dormant) ∧
  (∀ h p took s, served (rowDetachPrepare h p none took) s = true →
    ∃ t, exec (.detachPrepare h p none took) s = .next t ∧ t.hwd.detached = true ∧ t.hwd.safe = true ∧ t.hwd.quiesce = none ∧
      t.mode.mode = .dormant) ∧
  (∀ edges s, s.mode.vauxOn = true → s.hwd.det.on = true → s.hwd.det.masked = false →
    ∃ t, exec (.detachReqRelease edges) s = .next t ∧ t.hwd.det.on = false ∧
      (s.hwd.detached = true → t.hwd.detached = false ∧ t.hwd.safe = false)))

/-- MRST_N starts an L3 that is no fault, with event 0x0E, and in Dormant is only counted (R542). An input that stays asserted is
masked (R539). -/
def Obligations.Inputs : Prop :=
  (∀ edges s, s.mode.vauxOn = true → s.hwd.mrst.on = false → s.hwd.mrst.masked = false → s.mode.mode = .dormant →
    ∃ t, exec (.mrstAssert edges) s = .next t ∧ t.hwd.mrst.on = true ∧ t.hwd.ignored = s.hwd.ignored + 1 ∧ t.mode = s.mode) ∧
  (∀ edges s, s.mode.vauxOn = true → s.hwd.mrst.on = false → s.hwd.mrst.masked = false → s.mode.mode ≠ .dormant →
    s.hwd.quiesce = none → s.hwd.detached = false →
    ∃ u, exec (.mrstAssert edges) s = .next (plainReset false (raise 0x0E [] u)) ∧ u.hwd.mrst.on = true ∧ u.mode = s.mode) ∧
  (∀ edges r s, s.mode.vauxOn = true → s.hwd.mrst.on = true → s.hwd.mrst.masked = false →
    ∃ t, exec (.mrstRelease edges r) s = .next t ∧ t.hwd.mrst.on = false) ∧
  (∀ s, s.mode.vauxOn = true → detAsserted s = true → s.hwd.safe = true →
    ∃ t, exec (.hwdInputStuck .detach) s = .next t ∧ t.hwd.det.masked = true ∧ t.hwd.detached = false) ∧
  (∀ s, s.mode.vauxOn = true → mrstAsserted s = true →
    ∃ t, exec (.hwdInputStuck .mrst) s = .next t ∧ t.hwd.mrst.masked = true ∧
      s.hwd.mrst.edge.getD 0 + 10 * nsPerSec ≤ t.time.ref) ∧
  (∀ (c : Fin 16) s, s.mode.vauxOn = true → c.val < s.cam.ports.length → (portOf c.val s).camera = true →
    (portOf c.val s).presMasked = false → (portOf c.val s).gear = none →
    ∃ u, exec (.hwdInputStuck (.camera c)) s = .next (raise 0x0C [(1, 0x10 + c.val)] u) ∧ (portOf c.val u).presMasked = true ∧
      Keeps [.time, .cam] s u)

/-! ## Faults, calibration and self-test -/

/-- Every fault of a block enters the ladder in its domain with its event (R97, R130, R159, R200, R255, R359, R449). The ladder
(R427 to R431): during the quiesce a fault only raises its event; outside the domain's window it enters at its level; a repeat
takes the own action of the domain, or escalates one level; the recovery decided takes the next RSEQ and starts when no other is
in progress; an L4 puts the module in the safe hold; an ended recovery is in progress no more. -/
def Obligations.FaultLadder : Prop :=
  ((∀ b s, mainOn s = true → b ∈ halves s → exec (.scnHeadFault b) s = .next (faultOf (headDomain b) (scnEvt b 0x95) [] s)) ∧
  (∀ (out : Byte) s, s.std.powered = true → outputUsed out.toNat s = true →
    exec (.stdOvercurrent out) s = .next (faultOf 0x08 0xC6 [(1, out.toNat)] s)) ∧
  (∀ s, mainOn s = true → exec .stdFault s = .next (faultOf 0x08 0xCA [] s)) ∧
  (∀ s, mainOn s = true → 2 ≤ s.dmc.state → exec .dmcFault s = .next (faultOf 0x30 0x4D [] s)) ∧
  (∀ s, mainOn s = true → exec .netBridgeFault s = .next (faultAt 0x20 1 0xD8 [] s)) ∧
  (∀ (e : Fin 16) s, mainOn s = true → s.cdc.off.contains e.val = false →
    ∃ u, exec (.cdcEngineFault e) s = .next (faultOf 0x01 0x60 [] u) ∧ u.cdc.recent.head? = some (e.val, merNs s) ∧ Keeps [.cdc] s u) ∧
  (∀ (g : Byte) s, mainOn s = true → g.toNat ≤ 15 → s.syn.off.contains g.toNat = false →
    ∃ u, exec (.synGroupFault g) s = .next (faultOf 0x02 0x70 [] u) ∧ u.syn.recent.head? = some (g.toNat, merNs s) ∧
      Keeps [.syn] s u) ∧
  (∀ (g : Fin 16) s, mainOn s = true → s.cam.off.contains g.val = false →
    ∃ u, exec (.swpFault g) s = .next (faultOf 0x03 0x8C [] u) ∧ u.cam.recent.head? = some (g.val, merNs s) ∧ Keeps [.cam] s u)) ∧
  ((∀ dom entry src pay s, quiescing s = true → faultAt dom entry src pay s = fire src pay s) ∧
  (∀ dom entry src pay s, quiescing s = false → windowOf dom s = none → entry ≤ 1 →
    ∃ u, faultAt dom entry src pay s = decideRecov dom entry (some src) pay 0 .escalation none false u ∧
      u.evt.windows.head? = some ⟨dom, merNs s, entry, (s.evt.rseq + 1) % 2 ^ 32⟩ ∧ u.evt.recs = s.evt.recs ∧ u.evt.rseq = s.evt.rseq ∧
      Keeps [.evt] s u) ∧
  (∀ dom entry src pay s w, quiescing s = false → windowOf dom s = some w → hasOwn dom = true →
    faultAt dom entry src pay s = takeOwn dom entry w.level src pay s) ∧
  (∀ dom entry src pay s w, quiescing s = false → windowOf dom s = some w → hasOwn dom = false → w.level = 0 →
    ∃ u, faultAt dom entry src pay s = decideRecov dom 1 (some src) pay w.rseq .escalation none false u ∧
      u.evt.recs = s.evt.recs ∧ Keeps [.evt] s u) ∧
  (∀ dom level src pay esc cause cmd leave s, quiescing s = false → s.evt.recs = [] → level < 4 →
    ∃ u r, decideRecov dom level src pay esc cause cmd leave s = startRecov r u ∧ u.evt.recs = [r] ∧
      r.rseq = (s.evt.rseq + 1) % 2 ^ 32 ∧ r.domain = dom ∧ r.level = level ∧ r.prior = 0 ∧ r.running = false ∧ r.mode = s.mode.mode ∧
      u.evt.rseq = r.rseq ∧ Keeps [.out, .cmd, .evt, .sbd] s u) ∧
  (∀ dom src pay esc cause cmd leave s, quiescing s = false →
    (decideRecov dom 4 src pay esc cause cmd leave s).mode.safeHold = true ∧
    cause ∈ (decideRecov dom 4 src pay esc cause cmd leave s).mode.causes) ∧
  (∀ r outcome esc s, ∀ x ∈ (endRecov r outcome esc s).evt.recs, x ∈ s.evt.recs ∧ x.rseq ≠ r.rseq) ∧
  (∀ r s, (r.level = 1 ∨ r.level = 2) → ∃ c, (takeCapture r s).evt.captures.head? = some c ∧ c.domain = r.domain ∧ c.rseq = r.rseq ∧
    c.time = merNs s ∧ c.body.length ≤ 1048576))

/-- RESET_LEVEL (R433): LEVEL 1 and 2 are accepted and decided as recoveries without a source, LEVEL 3 is answered with its RSEQ
first, LEVEL 4 holds the module safe. A waiting recovery starts (R429), a running one ends or fails (R431). DIAG_CAPTURE copies a
capture into a buffer (R434). -/
def Obligations.Recoveries : Prop :=
  (∀ h p s, served (rowResetLevel1 h p) s = true → exec (.resetLevel1 h p) s = .next (decideRecov p.domain.toNat 1 none [] 0
    .escalation (some (h, 0x000A)) false (accepted h 0x000A 0 (taken (rowResetLevel1 h p) s)))) ∧
  (∀ h p s, served (rowResetLevel2 h p) s = true → exec (.resetLevel2 h p) s = .next (decideRecov 0x30 2 none [] 0
    .escalation (some (h, 0x000A)) false (accepted h 0x000A 0 (taken (rowResetLevel2 h p) s)))) ∧
  (∀ h p s, served (rowResetLevel3 h p) s = true → exec (.resetLevel3 h p) s = .next (decideRecov 0x31 3 (some 0x00) [] 0
    .escalation none (p.flags.toNat.testBit 0)
    (finish h 0x000A (okay ((s.evt.rseq + 1) % 2 ^ 32)) (taken (rowResetLevel3 h p) s)))) ∧
  (∀ h p s, served (rowResetLevel4 h p) s = true →
    ∃ t, exec (.resetLevel4 h p) s = .next t ∧ t.mode.safeHold = true ∧ .request ∈ t.mode.causes) ∧
  (∀ (rseq : U32) s r, s.evt.recs.find? (fun r => r.rseq == rseq.toNat) = some r → mayStart r s = true →
    exec (.recoveryStart rseq) s = .next (startRecov r s)) ∧
  (∀ (rseq : U32) t s r, s.evt.recs.find? (fun r => r.rseq == rseq.toNat && r.running) = some r → linkBusy r s = false →
    (r.level = 3 → mrstAsserted s = false) →
    exec (.recoveryEnd rseq true t) s = .next (endRecov r 1 0 (levelEnd r true t s)) ∧
    exec (.recoveryEnd rseq false t) s = .next (faultAt r.domain (entryLevel r.domain) (r.source.getD 0) r.payload
      (endRecov r 4 0 (levelEnd r false t s)))) ∧
  (∀ h p s b c d, bufOf (taken (rowDiagCapture h p) s) p.handle.toNat = some b → captureOf s p.domain.toNat = some c →
    d = captureBytes c → served (rowDiagCapture h p) s = true →
    ∃ u, exec (.diagCapture h p) s = .next (finish h 0x0E01 (okay d.length c.rseq) u) ∧
      u.mem = memPutAll s.mem (bufAddr b + p.offset.toNat) d ∧ Keeps [.mem, .buf, .cmd, .sbd] s u)

/-- EVENT_LOG_READ answers how many records it gives and the EVSEQ of the oldest and the newest record held, and writes those at
or after START, at most COUNT (R424); NV_LOG_READ has its parameters, checks and replies, and reads the flushed log (R474). -/
def Obligations.LogReads : Prop :=
  (∀ h p s, served (rowEventLogRead h p) s = true → exec (.eventLogRead h p) s =
    .next (runLogRead h 0x0E02 p ((s.evt.history.map recBytes).reverse) (taken (rowEventLogRead h p) s))) ∧
  (∀ h p s, served (rowNvLogRead h p) s = true → exec (.nvLogRead h p) s =
    .next (runLogRead h 0x0806 p (logRecords (taken (rowNvLogRead h p) s)) (taken (rowNvLogRead h p) s))) ∧
  (∀ h p, (rowNvLogRead h p).plens = (rowEventLogRead h p).plens ∧ (rowNvLogRead h p).host = (rowEventLogRead h p).host ∧
    (rowNvLogRead h p).chk = (rowEventLogRead h p).chk) ∧
  (∀ h opc p rs s, p.dest ≠ 0 → p.flags.toNat.testBit 0 = false →
    ∃ (sel : List (List Byte)) (first last : Nat),
      runLogRead h opc p rs s = finish h opc (okay sel.length first last) (emit (.hostWrite p.dest.toNat sel.flatten) s) ∧
      sel.length ≤ p.count.toNat ∧ (∀ r ∈ sel, r ∈ rs ∧ p.start.toNat ≤ field r 4 4) ∧ sel.Sublist rs ∧
      (rs ≠ [] → first = field (rs.headD []) 4 4 ∧ last = field (rs.getLastD []) 4 4)) ∧
  (∀ h opc p rs s b, p.dest ≠ 0 → p.flags.toNat.testBit 0 = true → bufOf s (segHandle p.dest) = some b →
    ∃ (sel : List (List Byte)) (first last : Nat) (u : State), runLogRead h opc p rs s = finish h opc (okay sel.length first last) u ∧
      u.mem = memPutAll s.mem (bufAddr b + segOff p.dest) sel.flatten ∧ sel.length ≤ p.count.toNat ∧
      (∀ r ∈ sel, r ∈ rs ∧ p.start.toNat ≤ field r 4 4) ∧ Keeps [.mem] s u)

/-- CAL_RUN is accepted and its first item starts (R479, R482); an automatic calibration starts when due (R479); a completed one
puts its clamped trims in force (R478, R480) or a centred delay setting (R352); the run's completion counts them (R482); a stale
trim is said once (R480). CAL_STATUS answers the history, the value and the flags of an item (R483); CAL_EXPORT writes the image
to where it is asked (R485); CAL_IMPORT checks or stores it, every section or none (R486). -/
def Obligations.Calibration : Prop :=
  ((∀ h p s, served (rowCalRun h p) s = true →
    ∃ u r, exec (.calRun h p) s = .next (nextCal u) ∧ u.cal.run = some r ∧ r.h = h ∧
      r.left = calTodo p u ∧ r.done = 0 ∧ r.bad = 0 ∧ Keeps [.out, .buf, .cmd, .evt, .dmc, .sbd, .cal] s u) ∧
  (∀ (item : Byte) (pc : Fin 64) s n t, n = (if item = 1 then pc.val else 0) → calDue item.toNat n s = some t →
    s.cal.jobs.any (fun j => j.item != item.toNat || j.pc == n) = false → testHolds item.toNat n s = false → runWaits s = false →
    ∃ u, exec (.calAutoTrigger item pc) s = .next (startCal item.toNat n u) ∧ t * nsPerSec ≤ merNs u ∧ Keeps [.time] s u) ∧
  (∀ item pc s, ∃ j, (startCal item pc s).cal.jobs = s.cal.jobs ++ [j] ∧ j.item = item ∧ j.pc = pc) ∧
  (∀ (pc : Fin 64) w s x, s.mode.mode = .dawn → s.dmc.sweeps.find? (fun x => x.pc == pc.val) = some x →
    exec (.calDone pc (.hbm w)) s = .next (sweepEnd x w s)) ∧
  (∀ w m s, w.pc < (dlySet s s.dmc.point).length →
    dlyOf (sweepEnd w m s) s.dmc.point w.pc = (if sweepGood s m then centred (dlyOf s s.dmc.point w.pc) m
      else { dlyOf s s.dmc.point w.pc with degraded := true })) ∧
  (∀ pc b taps s, calRunning 2 (b2n b) s = true → taps.length = 30 →
    ∃ t, exec (.calDone pc (.skew b taps)) s = .next t ∧
      t.cal.trim = patch (withValid (trimOf s) (2 ^ b2n b)) (16 + 30 * b2n b)
        (taps.map (fun v => BitVec.ofNat 8 (clampInt 0 31 v).toNat))) ∧
  (∀ pc off gain s, calRunning 3 0 s = true →
    ∃ t, exec (.calDone pc (.adc off gain)) s = .next t ∧ t.cal.lastAdc = some s.time.ref ∧
      t.cal.trim = patch (withValid (trimOf s) 4) 2 (s16 (clampInt (-64) 63 off) ++ s16 (clampInt (-1311) 1311 gain))) ∧
  (∀ pc offC offS gain sense s, calRunning 4 0 s = true →
    ∃ t, exec (.calDone pc (.dac offC offS gain sense)) s = .next t ∧ t.cal.lastDac = some s.time.ref ∧
      t.cal.trim = patch (withValid (trimOf s) 24) 6 (s16 (clampInt (-32) 31 offC) ++ s16 (clampInt (-32) 31 offS) ++
        s16 (clampInt (-1311) 1311 gain) ++ s16 (clampInt (-128) 127 sense))) ∧
  (∀ s r, s.cal.run = some r → r.left = [] → (s.mode.mode = .dawn → s.dmc.point = 16) →
    ∃ u, exec .calRunDone s = .next (finish r.h 0x0901
        ⟨if r.bad = 0 then St.ok else St.degraded, r.done, r.narrow.getD 0, r.bad⟩ u) ∧ u.cal.run = none ∧ Keeps [.cal] s u) ∧
  (∀ (item : Byte) s, 2 ≤ item.toNat → item.toNat ≤ 4 → s.cal.staleSaid.contains item.toNat = false → mainOn s = true →
    (histGet s item.toNat 0 0).2 ≠ 0 →
    ∃ u, exec (.calStale item) s = .next (raise 0xF1 [] u) ∧ u.cal.staleSaid = item.toNat :: s.cal.staleSaid ∧
      ((histGet s item.toNat 0 0).2 + pv s 0x1204 * 3600) * nsPerSec ≤ merNs u ∧ Keeps [.time, .cal] s u)) ∧
  ((∀ h p s pt, served (rowCalStatus h p) s = true →
    pt = (if p.item.toNat = 1 then (if p.point ≠ 0 then p.point.toNat else if s.dmc.point = 0 then 16 else s.dmc.point) else 0) →
    ∃ v flags, exec (.calStatus h p) s = .next (finish h 0x0904 (okay (histGet s p.item.toNat pt p.pc.toNat).1
        ((histGet s p.item.toNat pt p.pc.toNat).2 % 2 ^ 32) (v + flags * 2 ^ 16)) (taken (rowCalStatus h p) s)) ∧
      (p.item = 1 → v = (dlyOf s pt p.pc.toNat).margin) ∧ (p.item = 2 → v = trimSkew s false 0) ∧
      (p.item = 3 → v = unsigned 16 (trimField s 2 2)) ∧ (p.item = 4 → v = unsigned 16 (trimField s 3 6)) ∧
      flags.testBit 0 = ((histGet s p.item.toNat pt p.pc.toNat).1 == 0) ∧ flags.testBit 1 = s.cal.staleSaid.contains p.item.toNat ∧
      flags.testBit 4 = (p.item.toNat == 1 && isFenced s p.pc.toNat)) ∧
  (∀ h p s, p.flags.toNat.testBit 0 = false → served (rowCalExport h p) s = true →
    ∃ u, exec (.calExport h p) s = .next (finish h 0x0902 (okay (calImage s).length) u) ∧
      .hostWrite p.dest.toNat (calImage s) ∈ u.out ∧ Keeps [.out, .buf, .cmd, .sbd] s u) ∧
  (∀ h p s b, p.flags.toNat.testBit 0 = true → bufOf (taken (rowCalExport h p) s) (segHandle p.dest) = some b →
    served (rowCalExport h p) s = true →
    ∃ u, exec (.calExport h p) s = .next (finish h 0x0902 (okay (calImage s).length) u) ∧
      u.mem = memPutAll s.mem (bufAddr b + segOff p.dest) (calImage s) ∧ Keeps [.mem, .buf, .cmd, .sbd] s u) ∧
  (∀ h p s, p.flags.toNat.testBit 0 = true → served (rowCalImport h p) s = true →
    exec (.calImport h p) s = .next (finish h 0x0903 (okay) (taken (rowCalImport h p) s))) ∧
  (∀ h p s, p.flags.toNat.testBit 0 = false → served (rowCalImport h p) s = true →
    exec (.calImport h p) s = .next (calStore h p (taken (rowCalImport h p) s))) ∧
  (∀ h p s, freeSlots s 0 < (calParse s (calImportBytes p s) p.len.toNat).1.length →
    calStore h p s = finish h 0x0903 (no St.noSpace) (raise 0xE2 [] s)) ∧
  (∀ h p s, (calParse s (calImportBytes p s) p.len.toNat).1.length ≤ freeSlots s 0 →
    ∃ u, calStore h p s = finish h 0x0903 (okay) (raise 0xF3 [] u) ∧ Keeps [.out, .cmd, .evt, .nv, .sbd] s u))

/-- TEST_RUN begins a run with the work of its set (R494, R495), as the automatic run does (R500); a test that ends puts its
result (R491, R496) and the scheduler goes on (R494); TEST_RESULT answers it (R496); TEST_ABORT ends every test (R497); a command
that an in-service test holds too long is answered BUSY_SELFTEST (R493). -/
def Obligations.SelfTest : Prop :=
  (∀ h p s, served (rowTestRun h p) s = true →
    ∃ u r, exec (.testRun h p) s = .next (settleRun (schedule u)) ∧ u.bst.number = (s.bst.number + 1) % 65536 ∧ u.bst.run = some r ∧
      r.h = some h ∧ r.stopOnFail = p.flags.toNat.testBit 0 ∧ r.set = p.set.toNat ∧
      r.waiting = runWork p.set.toNat p.inst.toNat u ∧ u.bst.jobs = s.bst.jobs ∧ Keeps [.out, .buf, .cmd, .evt, .sbd, .bst] s u) ∧
  (∀ s, pv s 0x1302 ≠ 0 → s.bst.run = none → mainOn s = true → lifeState s ≠ 6 →
    ∃ u r, exec .bstAutoRun s = .next (settleRun (schedule u)) ∧ u.bst.number = (s.bst.number + 1) % 65536 ∧ u.bst.run = some r ∧
      r.h = none ∧ r.set = pv s 0x1301 ∧ r.waiting = runWork (pv s 0x1301) 0xFF u ∧
      s.bst.lastAuto + pv s 0x1302 * nsPerSec ≤ u.time.ref ∧ u.bst.lastAuto = u.time.ref ∧ Keeps [.time, .bst] s u) ∧
  (∀ (id inst : Byte) r s j t o w1 w2, s.bst.jobs.find? (fun j => j.id == id.toNat && j.inst == inst.toNat) = some j →
    testInfo id.toNat = some t → judgeTest t j.inst r = (o, w1, w2) →
    (o = 3 → t.kind ≠ .service ∧ ∀ q, s.bst.run = some q → q.stopOnFail = false) →
    ∃ u reason, exec (.testEnd id inst r) s = .next (if t.kind = .vendor
        then vendorEnd j.id (settleRun (schedule (testEnded j.id j.inst o reason u)))
        else settleRun (schedule (testEnded j.id j.inst o reason u))) ∧
      u.bst.results.head? = some ⟨j.id, j.inst, o, reason, s.bst.number, w1, w2⟩ ∧ (o ≠ 4 → reason = 0) ∧
      (∀ x ∈ u.bst.jobs, ¬(x.id = j.id ∧ x.inst = j.inst)) ∧ (t.kind ≠ .service → j.start + t.dur ≤ u.time.ref) ∧
      Keeps [.time, .bst] s u) ∧
  (∀ h p s r, resultOf s p.id.toNat p.inst.toNat = some r → served (rowTestResult h p) s = true →
    exec (.testResult h p) s = .next (finish h 0x0A02 (okay (r.outcome + r.reason * 256 + r.run * 65536) r.w1 r.w2)
      (taken (rowTestResult h p) s))) ∧
  (∀ h s, served (rowTestAbort h) s = true →
    ∃ u m, exec (.testAbort h) s = .next (finish h 0x0A03 (okay m) u) ∧ u.bst.run = none ∧ u.bst.jobs = [] ∧
      (∀ i, i < 32 → m.testBit i = s.bst.jobs.any (fun j => j.id == i)) ∧ Keeps [.out, .buf, .cmd, .evt, .sbd, .bst] s u) ∧
  (∀ k s w t st, s.cmd.waits.find? (fun w => keyOf w.h == k && w.test.isSome) = some w → holder w.opcode w.i s = some (t, st) →
    ∃ u e, exec (.tstBusy k) s = .next (finish w.h w.opcode ⟨St.busySelftest, e / nsPerSec % 2 ^ 32, e % nsPerSec, 0⟩ (raise 0xFA [] u)) ∧
      e = merNs u + (st + t.dur - u.time.ref) ∧ w.test.getD 0 + t.holdTime ≤ u.time.ref ∧ u.bst.busyCount = s.bst.busyCount + 1 ∧
      (∀ x ∈ u.cmd.waits, ¬(keyOf x.h = k ∧ x.test.isSome = true)) ∧ Keeps [.time, .cmd, .bst] s u)

/-! ## Panel, scan-out, steering and the panel link -/

/-- PANEL_LOAD holds the buffer for Nimbus and is answered ACCEPTED (R33). At the end of its check a file with a failure of R31 is
answered BAD_PARAM with code, offset and section type and changes nothing; a valid file is judged, and installed whole or not at
all (R33). -/
def Obligations.PanelLoading : Prop :=
  (∀ h p s b, bufOf (taken (rowPanelLoad h p) s) p.handle.toNat = some b → served (rowPanelLoad h p) s = true →
    ∃ u, exec (.panelLoad h p) s = .next (accepted h 0x0301 0 u) ∧
      u.pnl.load = some ⟨h, b.idx, bufAddr b + p.bufOffset.toNat, p.length.toNat, p.flags.toNat.testBit 0⟩ ∧
      u.pnl.desc = s.pnl.desc ∧ Keeps [.pnl, .buf, .cmd, .sbd] s u) ∧
  (∀ s l e, s.pnl.load = some l → panelBad (memGetAll s.mem l.addr l.len) l.len = some e →
    ∃ u, exec .panelLoadCompletion s = .next (judgeHeld (release l.buf .nimbus loadOwner (finish l.h 0x0301 ⟨St.badParam, e.code, e.off, e.type⟩ u))) ∧
      u.pnl.load = none ∧ u.pnl.desc = s.pnl.desc ∧ u.pnl.full = s.pnl.full ∧ Keeps [.pnl] s u) ∧
  (∀ s l d, s.pnl.load = some l → panelBad (memGetAll s.mem l.addr l.len) l.len = none →
    d = panelOf (memGetAll s.mem l.addr l.len) → (judgeFile l d { s with pnl := { s.pnl with load := none } }).2 = true →
    ∃ u, exec .panelLoadCompletion s = .next (judgeHeld (release l.buf .nimbus loadOwner (finish l.h 0x0301 (loadWords d false) u))) ∧
      u.pnl.desc = some d ∧ u.pnl.full = true ∧ pv u 0x0A04 = vscaleSet d)

/-- A subframe starts at S_m and its SUBFRAME_START marker goes to each trained half with the marker offset; at S_Pk a frame
begins (R10, R167, R168). In a rendered mode a lit half shows in frame k the frame committed for k with the phases in force;
without one it shows the frame before again, which is counted and raises event 0x93 or 0xA3 (R173); Flat shows the flat base
(R178), Starlight its window (R193). The band instants of a subframe come one after the other at J(m, b) (R170); a row of Flat or
Starlight goes out in its share of the frame (R177, R193). The statement is about steps in which no write slot closes with rows
left, and no memory error is met. An emission window opens with EMIT_ON and closes with EMIT_OFF, at J(m + 1, b) − 200 µs, in each
lit half (R172, R211). -/
def Obligations.FrameGrid : Prop :=
  ((∀ s u, subframeDue s = some u → u.q ≠ 0 →
    ∃ t, exec .subframeStart s = .next t ∧ t.scn.cur = some u ∧ t.scn.band = 0 ∧ t.scn.lastK = s.scn.lastK ∧ u.at_ ≤ merNs t ∧
      (∀ b ∈ halves s, (plkOf b s).up = true →
        ∃ m : SubMark, .markSub b (4 * (u.at_ : Int) + pvs s 32 (0x0D01 + 0x80 * b2n b)) m ∈ t.out ∧ m.q = u.q ∧ m.k = u.k ∧
          m.m = u.m ∧ m.phase = phaseOf s u.q ∧ m.dark = !halfLit b s) ∧
      Keeps [.out, .time, .cmd, .scn, .std] s t) ∧
  (∀ s u, subframeDue s = some u → u.q = 0 →
    exec .subframeStart s = .next (subMarkers u (stdSubframe u (frameBoundary u (advanceMer u.at_ s)))))) ∧
  ((∀ b k f s, s.mode.mode = .standard → frameOf k s = some f → f.committed = true → f.phases = phasesNow s →
    (headOf b (chooseLit b k s)).now = ⟨1, some k⟩ ∧ (headOf b (chooseLit b k s)).shownK = k ∧
      (headOf b (chooseLit b k s)).repeats = (headOf b s).repeats) ∧
  (∀ b k f s, s.mode.mode = .standard → frameOf k s = none → repeatable b s = some f →
    (headOf b (chooseLit b k s)).now = ⟨2, some f⟩ ∧ (headOf b (chooseLit b k s)).repeats = (headOf b s).repeats + 1) ∧
  (∀ b k s, s.mode.mode = .standard → frameOf k s = none → repeatable b s = none →
    (headOf b (chooseLit b k s)).now = {} ∧ (headOf b (chooseLit b k s)).bgFrames = (headOf b s).bgFrames + 1) ∧
  (∀ b k s, s.mode.mode = .flat →
    (headOf b (chooseLit b k s)).now.source = (if (layerOf 0 s).src.isSome then 3 else 0)) ∧
  (∀ b k s, s.mode.mode = .starlight → (headOf b (chooseLit b k s)).now.source = 4)) ∧
  ((∀ s u b p, bandDue s = some (u, b) → u.q ≠ 0 → (∀ h, (plkOf h s).rows = []) → p.errs = [] →
    ∃ t, exec (.bandInstant p) s = .next t ∧ t.scn.band = b + 1 ∧ t.scn.cur = some u ∧ bandAt u b s ≤ merNs t ∧
      Keeps [.out, .time, .buf, .cmd, .evt, .syn, .scn, .plk, .std, .sbd] s t) ∧
  (∀ s u d p, s.scn.cur = some u → s.pnl.desc = some d → s.mode.mode = .flat → s.scn.dark = none → s.scn.row < d.h →
    (∀ h, (plkOf h s).rows = []) → p.errs = [] →
    ∃ t, exec (.flatRowWrite p) s = .next t ∧ t.scn.row = s.scn.row + 1 ∧ rowAt u s.scn.row d.h s ≤ merNs t ∧
      Keeps [.out, .time, .buf, .cmd, .evt, .scn, .plk, .sbd] s t) ∧
  (∀ s u d g, s.scn.cur = some u → s.pnl.desc = some d → s.scn.star = some g → s.mode.mode = .starlight → s.scn.dark = none →
    s.scn.row < g.rows → (∀ h, (plkOf h s).rows = []) →
    ∃ t, exec .starlightRowWrite s = .next t ∧ t.scn.row = s.scn.row + 1 ∧ rowAt u s.scn.row g.rows s ≤ merNs t ∧
      Keeps [.out, .time, .buf, .cmd, .evt, .scn, .plk, .sbd] s t)) ∧
  ((∀ s w, nextOn s = some w →
    ∃ t, exec .emitOn s = .next t ∧ w.on ≤ merNs t ∧
      (∀ x ∈ t.scn.wins, x.sub = w.sub → x.band = w.band → x.on = w.on → x.sent = true) ∧
      (∀ b ∈ halves s, halfLit b s = true →
        .markEmit b true w.band (4 * (w.on : Int) + pvs s 32 (0x0D01 + 0x80 * b2n b)) ∈ t.out) ∧
      Keeps [.out, .time, .cmd, .scn] s t) ∧
  (∀ s w, nextOff s = some w →
    ∃ t, exec .emitOff s = .next t ∧ winEnd s w = bandInst (nextSub w.sub s) w.band s - 200000 ∧ winEnd s w ≤ merNs t ∧
      w ∉ t.scn.wins ∧
      (∀ b ∈ halves s, halfLit b s = true →
        .markEmit b false w.band (4 * (winEnd s w : Int) + pvs s 32 (0x0D01 + 0x80 * b2n b)) ∈ t.out) ∧
      Keeps [.out, .time, .cmd, .scn] s t))

/-- LAYER_SET, LAYER_ENABLE and STARLIGHT_SET join the waiting changes, to apply from one frame, and answer it (R182, R183, R192);
a change applied raises event 0x98 (R182). -/
def Obligations.LayerChanges : Prop :=
  (∀ h p s k t, layerWhen h s = some (k, t) → served (rowLayerSet h p) s = true →
    ∃ u, exec (.layerSet h p) s = .next (applyWaitsDawn (finish h 0x0401
        (okay (match k with | some k => k % 2 ^ 32 | none => 0xFFFFFFFF)) (settleLayers u))) ∧
      u.scn.waits = s.scn.waits ++ [⟨.set p.layer.toNat (layerAsked p (taken (rowLayerSet h p) s)), k, t, p.fence.toNat, p.value.toNat⟩] ∧
      u.scn.layers = s.scn.layers ∧ Keeps [.buf, .cmd, .scn, .sbd] s u) ∧
  (∀ h p s k t, layerWhen h s = some (k, t) → served (rowLayerEnable h p) s = true →
    ∃ u, exec (.layerEnable h p) s = .next (applyWaitsDawn (finish h 0x0402
        (okay (match k with | some k => k % 2 ^ 32 | none => 0xFFFFFFFF)) (settleLayers u))) ∧
      u.scn.waits = s.scn.waits ++ [⟨.enable p.mask.toNat, k, t, p.fence.toNat, p.value.toNat⟩] ∧
      u.scn.layers = s.scn.layers ∧ Keeps [.buf, .cmd, .scn, .sbd] s u) ∧
  (∀ h p s k t, layerWhen h s = some (k, t) → served (rowStarlightSet h p) s = true →
    ∃ u, exec (.starlightSet h p) s = .next (applyWaitsDawn (finish h 0x0405
        (okay (match k with | some k => k % 2 ^ 32 | none => 0xFFFFFFFF)) (settleLayers u))) ∧
      u.scn.starNext = some ⟨p.x0.toNat, p.y0.toNat, p.w.toNat, p.h.toNat, p.scale.toNat,
        starBytes p (taken (rowStarlightSet h p) s), p.palette⟩ ∧
      u.scn.waits = s.scn.waits ++ [⟨.starlight, k, t, 0, 0⟩] ∧ Keeps [.out, .buf, .cmd, .scn, .sbd] s u) ∧
  (∀ k n l fence value at_ s,
    ∃ u, applyWait k ⟨.set n l, some k, at_, fence, value⟩ s = raise 0x98 [(1, n), (8, k)] u ∧
      u.scn.layers = s.scn.layers.set n { l with on := (s.scn.layers.getD n {}).on && l.src.isSome } ∧ Keeps [.scn] s u)

/-- A failed host read switches every host-memory overlay off with event 0x99 (R186); Still-air lit for SCN_STILL_HOLD goes to
SCN_STILL_RATE (R190); at c′ + 2 periods a dark interval goes on without the halves that have not trained (R198). SCANOUT_STATUS
answers the state of the head, what it shows, the rate, the last frame shown and the emission window (R201). -/
def Obligations.ScanoutTimersAndStatus : Prop :=
  ((∀ s, panelLit s = true → s.mode.mode ≠ .starlight →
    (s.scn.layers.zipIdx.any (fun e => e.2 ≠ 0 && e.1.on && e.1.isHost)) = true →
    ∃ u, exec .overlayHostReadFail s = .next (raise 0x99 [] u) ∧ Keeps [.scn] s u ∧
      ∀ n l, n ≠ 0 → u.scn.layers[n]? = some l → l.isHost = true → l.on = false) ∧
  (∀ s at_, s.scn.stillSince = some at_ → s.mode.mode = .stillAir → pv s 0x0D20 < s.mode.rate → s.mode.change = none →
    ∃ t x, exec .scnStillLowered s = .next t ∧ t.mode.change = some x ∧ x.target = .stillAir ∧ x.rate = pv s 0x0D20 ∧ x.cmd = none ∧
      at_ + pv s 0x0D21 * nsPerSec ≤ t.time.ref ∧ Keeps [.time, .mode, .scn] s t) ∧
  (∀ s d, s.scn.dark = some d → d.forced = false →
    ∃ t, exec .darkIntervalTrainTimeout s = .next t ∧ t.scn.dark = some { d with forced := true } ∧ d.deadline ≤ merNs t ∧
      Keeps [.time, .scn] s t)) ∧
  (∀ h p s, served (rowScanoutStatus h p) s = true →
  ∃ v, exec (.scanoutStatus h p) s = .next (finish h 0x0406 v (taken (rowScanoutStatus h p) s)) ∧ v.status = St.ok ∧
    v.w0 % 2 ^ 8 = headState (p.half == 1) s ∧ v.w1 = (headOf (p.half == 1) s).shownK % 2 ^ 32 ∧ v.w2 = emitWindow s % 2 ^ 16)

/-- A thermistor sample keeps its code and its instant; a bad code counts as a fault at T_LOW of band 0 (R245, R246). A settle
miss is counted with event 0xC2; one that reaches STD_MISS_LIMIT adds a settle step with event 0xC9 (R253, R254). An edge of the
carrier moves to the next one (R237). The switch of common b drives it: with one phase to G × 3a after the overdrive, with more to
G × a (R238, R239); the layer discharged drives every output to 0 V (R256). The crowbar closes 50 µs into a discharge, which ends
with event 0xC5 (R256); after STD_REST the accumulators are clear (R242). STEER_CFG applies at once while the layer is not
powered, else waits for the next pair (R260). STEER_STATUS samples the thermistor and answers the steering state (R246, R261). -/
def Obligations.Steering : Prop :=
  ((∀ code s, mainOn s = true → s.mode.mode = .dawn →
    ∃ t, exec (.thermistorSample code) s = .next t ∧ s.std.lastSample + 100000000 ≤ t.time.ref ∧ t.std.code = code.toNat ∧
      t.std.lastSample = t.time.ref ∧
      (s.pnl.desc.isSome = true → thermBad code.toNat = true → t.std.fault = true ∧ t.std.temp = (bandRow s 0).low) ∧
      (∀ d, s.pnl.desc = some d → thermBad code.toNat = false → s.bst.adcBad = false →
        t.std.fault = false ∧ t.std.temp = thermTemp d code.toNat + s.std.offset)) ∧
  (∀ code s at_, mainOn s = true → s.mode.mode ≠ .dawn → thermDue 4 (merNs s + 1000001) s = some at_ →
    ∃ t, exec (.thermistorSample code) s = .next t ∧ at_ ≤ merNs t ∧ t.std.code = code.toNat) ∧
  (∀ s e b, s.std.powered = true → nextMiss s = some (e, b) → s.std.missPair + 1 ≠ pv s 0x0F02 →
    ∃ u, exec .stdSettleMiss s = .next (raise 0xC2 [(1, b), (8, e.m)] u) ∧ u.std.misses = s.std.misses + 1 ∧
      u.std.missPair = s.std.missPair + 1 ∧ e.deadline ≤ merNs u ∧ Keeps [.time, .std] s u) ∧
  (∀ s e b, s.std.powered = true → nextMiss s = some (e, b) → s.std.missPair + 1 = pv s 0x0F02 →
    ∃ u, exec .stdSettleMiss s = .next (settleCheck (raise 0xC9 [] u)) ∧ u.std.stepNext = true ∧
      u.std.missPair = s.std.missPair + 1 ∧ e.deadline ≤ merNs u) ∧
  (∀ charges s u, s.scn.cur = some u → s.std.powered = true →
    s.std.subAt + s.std.edge * (carrierNs s / 2) < (nextSub u s).at_ →
    ∃ t, exec (.carrierEdge charges) s = .next t ∧ t.std.edge = s.std.edge + 1 ∧
      s.std.subAt + s.std.edge * (carrierNs s / 2) ≤ merNs t ∧ Keeps [.time, .std] s t)) ∧
  ((∀ u b at_ s, s.std.powered = true → b < s.std.level.length → b < 64 →
    ∃ o, (stdBand u b at_ s).std.level[b]? = some o ∧
      o.hold = withSign (groupNeg s u.seg.nq u.k u.q) (if phasesN s < 2 then 3 * (ampCode s : Int) else ampCode s)) ∧
  (∀ s, s.std.powered = true → (stdDischarge s).std.powered = false ∧ (stdDischarge s).std.discharge = some s.time.ref ∧
    (stdDischarge s).std.level = List.replicate 72 {}) ∧
  (∀ s at_, s.std.discharge = some at_ → s.std.closedAt = none →
    ∃ t, exec .crowbarClose s = .next t ∧ at_ + 50000 ≤ t.time.ref ∧ t.std.closedAt = some t.time.ref ∧ .crowbar true ∈ t.out ∧
      Keeps [.out, .cmd, .time, .std] s t) ∧
  (∀ s at_ c, s.std.discharge = some at_ → s.std.closedAt = some c →
    ∃ u, exec .stdDischarged s = .next (raise 0xC5 [] u) ∧ u.std.discharge = none ∧ at_ + 2000000 ≤ u.time.ref ∧
      Keeps [.time, .std] s u) ∧
  (∀ s c, s.std.closedAt = some c → mainOn s = true →
    ∃ t, exec .stdRestExpiry s = .next t ∧ t.std.acc = List.replicate 72 0 ∧ t.std.rest = false ∧
      c + pv s 0x0F03 * 1000000 ≤ t.time.ref ∧ Keeps [.time, .std] s t) ∧
  (∀ s, s.mode.mode ≠ .dormant → exec .holdupCharged s = .next { s with std := { s.std with charged := true } })) ∧
  ((∀ h p s, s.std.powered = false → served (rowSteerCfg h p) s = true →
    ∃ u, exec (.steerCfg h p) s = .next (finish h 0x0408 (okay 0xFFFFFFFF) u) ∧ u.std.lock = lockAsked p ∧
      u.std.trim = signed 16 p.trim.toNat ∧ u.std.offset = signed 16 p.offset.toNat ∧ u.std.wait = none ∧
      Keeps [.std, .buf, .cmd, .sbd] s u) ∧
  (∀ h p s, s.std.powered = true → served (rowSteerCfg h p) s = true →
    ∃ u, exec (.steerCfg h p) s =
        .next (finish h 0x0408 (okay (nextPairFrame (settleCheck u) % 2 ^ 32)) (settleCheck u)) ∧
      u.std.wait = some ⟨lockAsked p, signed 16 p.trim.toNat⟩ ∧ u.std.lock = s.std.lock ∧ u.std.trim = s.std.trim ∧
      Keeps [.std, .buf, .cmd, .sbd] s u) ∧
  (∀ h code s, served (rowSteerStatus h code) s = true →
    ∃ v u, exec (.steerStatus h code) s = .next (finish h 0x0409 v u) ∧ v.status = St.ok ∧ u.std.code = code.toNat ∧
      v.w1 = unsigned 16 u.std.temp + settleNow u % 65536 * 2 ^ 16 ∧
      v.w2 = min u.std.dcMax 65535 + u.std.pairs % 65536 * 2 ^ 16))

/-- PANEL_LINK_TRAIN (R225); the messages of the panel: HELLO (R216), TSTAT and CINIT in training (R221, R222), ACK, NAK and
STATUS (R218 to R220), PEVT (R217). -/
def Obligations.LinkMessages : Prop :=
  (∀ h p s, served (rowPanelLinkTrain h p) s = true →
    ∃ t, exec (.panelLinkTrain h p) s = .next t ∧
      t.plk.cmd = some ⟨h, p.halves.toNat, p.halves.toNat, 0, if s.mode.mode = .dawn then p.rate.toNat else classNow s⟩ ∧
      (∀ b, named p b = true → (plkOf b t).up = false ∧
        ∃ x, (plkOf b t).train = some x ∧ x.rate = (if s.mode.mode = .dawn then p.rate.toNat else classNow s) ∧ x.failed = 0) ∧
      Keeps [.out, .buf, .cmd, .evt, .scn, .plk, .sbd] s t) ∧
  (∀ h p s, served (rowPanelPresRearm h p) s = true →
    ∃ u, exec (.panelPresRearm h p) s = .next (finish h 0x0407 (okay) u) ∧
      (∀ b, named p b = true → (plkOf b u).masked = false ∧ (plkOf b u).assertedAt = s.time.ref) ∧
      (∀ b, named p b = false → plkOf b u = plkOf b s) ∧ Keeps [.buf, .cmd, .plk, .sbd] s u) ∧
  (∀ b p s m, m = (⟨p.model.toNat, p.lanes.toNat, p.rate.toNat, p.credits.toNat⟩ : Hello) → backOn b s = true → backLock b s = true →
    (plkOf b s).up = false → helloOk p = true → (plkOf b s).hello ≠ some m →
    ∃ u, exec (.hello b p) s = .next (judgeModel b (judgeCap b u)) ∧ (plkOf b u).hello = some m ∧ plkOf (!b) u = plkOf (!b) s ∧
      Keeps [.plk] s u) ∧
  (∀ b s, modelWrong b s = true → ∃ u, judgeModel b s = raise 0xB8 [(1, b2n b)] u ∧ u.plk.mismatch = true ∧ Keeps [.plk] s u) ∧
  (∀ b mask s t, backLock b s = true → (plkOf b s).train = some t → t.began.isSome = true → t.locked = none →
    ∃ u, exec (.tstat b 1 mask) s = .next u ∧ .train b 2 t.rate ∈ u.out ∧
      (plkOf b u).train = some { t with locked := some mask.toNat } ∧ Keeps [.out, .plk] s u) ∧
  (∀ b mask s t l use, backLock b s = true → (plkOf b s).train = some t → t.began.isSome = true → t.locked = some l →
    t.skewed = none → use = l &&& mask.toNat &&& wiredMask b t.rate s →
    (lanesAllowed b t.rate use s = true →
      ∃ u, exec (.tstat b 2 mask) s = .next u ∧ .linkInit b use 8 ∈ u.out ∧
        (plkOf b u).train = some { t with skewed := some mask.toNat } ∧ Keeps [.out, .plk] s u) ∧
    (lanesAllowed b t.rate use s = false → exec (.tstat b 2 mask) s = .next (failAttempt b s))) ∧
  (∀ b mask s t l k c, backLock b s = true → (plkOf b s).train = some t → t.began.isSome = true → t.locked = some l →
    t.skewed = some k → t.cinit = some c →
    ∃ u, exec (.tstat b 3 mask) s = .next (trainDone b { t with said3 := true } (l &&& k &&& wiredMask b t.rate u) c u) ∧
      Keeps [.plk] s u) ∧
  (∀ b (credits : Byte) s t, backLock b s = true → (plkOf b s).train = some t → t.skewed.isSome = true → 16 ≤ credits.toNat →
    ∃ u, exec (.panelCinit b credits) s = .next (settleTrain b u) ∧
      (plkOf b u).train = some { t with cinit := some credits.toNat } ∧ Keeps [.plk] s u) ∧
  (∀ b t mask credits s, (plkOf b (trainDone b t mask credits s)).up = true ∧ (plkOf b (trainDone b t mask credits s)).lanes = mask ∧
    (plkOf b (trainDone b t mask credits s)).rate = t.rate ∧ (plkOf b (trainDone b t mask credits s)).seq = 0 ∧
    (plkOf b (trainDone b t mask credits s)).train = none) ∧
  (∀ b (seq : U16) (count : Byte) s, backLock b s = true → 1 ≤ count.toNat → count.toNat ≤ 32 →
    ∃ u, exec (.ack b seq count) s = .next (withLoss b (pump b) u) ∧ Keeps [.buf, .plk] s u ∧
      (∀ k ∈ (plkOf b u).sent, ∀ i, i < count.toNat → k.seq ≠ (seq.toNat + i) % 65536) ∧
      (∀ k ∈ (plkOf b s).sent, (∀ i, i < count.toNat → k.seq ≠ (seq.toNat + i) % 65536) → k ∈ (plkOf b u).sent)) ∧
  (∀ b (seq : U16) reason s k, backLock b s = true → (plkOf b s).sent.find? (fun k => k.seq == seq.toNat) = some k →
    ∃ u, exec (.nak b seq reason) s = .next (withLoss b (fun s =>
        if k.timedOut then pump b s
        else if reason = 1 ∨ reason = 2 ∨ reason = 4 then resendRow b k.job s
        else pump b (loseRow b s)) u) ∧ (∀ x ∈ (plkOf b u).sent, x.seq ≠ seq.toNat) ∧ Keeps [.buf, .plk] s u) ∧
  (∀ b p s, backLock b s = true → (plkOf b s).up = true → p.flags.toNat % 4 = 0 →
    ∃ u v, exec (.status b p) s = .next (raiseIf (p.flags.toNat != (plkOf b v).flags) 0xBA [(1, b2n b), (1, p.flags.toNat)]
        (onPlk b (fun q => { q with flags := p.flags.toNat }) v)) ∧ v = withLoss b (pump b) u ∧ Keeps [.buf, .plk] s u ∧
      ∀ k ∈ (plkOf b u).sent, seqBefore p.lastSeq.toNat k.seq = false) ∧
  (∀ b code data s, backLock b s = true → (plkOf b s).up = true →
    ∃ u, exec (.pevt b code data) s = .next (emit (.linkCredit b 1) (move (pevtPool b) 2 0 1
        (raise 0xBB [(1, b2n b), (2, code.toNat), (5, leNat (bytesAt data 0 5))] u))) ∧ Keeps [.buf] s u)

/-- Attempts of training, their timeout and their repetition (R221, R223); a packet not answered in time (R219); presence of a
half and of its back lanes (R215, R226 to R228); a row sent spends a credit and a sequence number (R208, R217). -/
def Obligations.LinkTimers : Prop :=
  (∀ b s, mayTrain b s = true →
    ∃ t x, exec (.trainingAttempt b) s = .next t ∧ (plkOf b t).train = some x ∧ x.began = some s.time.ref ∧ x.locked = none ∧
      x.cinit = none ∧ .train b 1 x.rate ∈ t.out ∧ Keeps [.out, .buf, .plk] s t) ∧
  (∀ b s t r, (plkOf b s).train = some t → t.began = some r →
    ∃ u, exec (.trainingAttemptTimeout b) s = .next (failAttempt b u) ∧ r + 8000000 ≤ u.time.ref ∧ Keeps [.time] s u) ∧
  (∀ b s t, (plkOf b s).train = some t → t.failed + 1 < pv s 0x0E12 →
    ∃ x, (plkOf b (failAttempt b s)).train = some x ∧ x.failed = t.failed + 1 ∧ x.retry = some (s.time.ref + 1000000) ∧
      x.began = none ∧ Keeps [.plk] s (failAttempt b s)) ∧
  (∀ b s t r, (plkOf b s).train = some t → t.retry = some r →
    ∃ u, exec (.trainingRetry b) s = .next (if mayTrain b u then beginAttempt b u else u) ∧ r ≤ u.time.ref ∧
      (plkOf b u).train = some { t with retry := none } ∧ Keeps [.time, .plk] s u) ∧
  (∀ b s k, (plkOf b s).sent.find? (fun k => !k.timedOut) = some k →
    ∃ u, exec (.plkAckTimeout b) s = .next (withLoss b (resendRow b k.job) (raise 0xB7 [(1, b2n b)] u)) ∧
      ceilDiv k.eop 1000 + pv s 0x0E10 * 1000 ≤ merNs u ∧ (∀ x ∈ (plkOf b u).sent, x.seq = k.seq → x.timedOut = true) ∧
      Keeps [.time, .plk] s u) ∧
  (∀ b level stable s t, (plkOf b s).masked = false → level ≠ (plkOf b s).level → b ∈ halves s →
    t = max (s.time.ref + 20000000) (match (plkOf b s).lastEdge with | some e => e + 200000000 | none => 0) →
    t ≤ s.time.ref + stable * 1000 →
    ∃ u, exec (.panelPresChange b level stable) s = .next (if level then settlePresence b u else halfDown b u) ∧
      (plkOf b u).level = level ∧ (plkOf b u).lastEdge = some u.time.ref ∧ t ≤ u.time.ref ∧
      Keeps [.out, .time, .cmd, .evt, .plk, .sbd] s u) ∧
  (∀ b s, (plkOf b s).level = true → (plkOf b s).masked = false → backLock b s = false → backOn b s = true →
    ∃ u, exec (.plkPresStuck b) s = .next (raise 0xBC [(1, b2n b)] u) ∧ (plkOf b u).masked = true ∧
      max (plkOf b s).assertedAt ((plkOf b s).lockLost.getD 0) + 5000000000 ≤ u.time.ref ∧ Keeps [.time, .plk] s u) ∧
  (∀ b (lane : Bool) s, (if lane then (plkOf b s).lock1 else (plkOf b s).lock0) = true →
    ∃ u, Keeps [.plk] s u ∧ (if lane then (plkOf b u).lock1 else (plkOf b u).lock0) = false ∧
      (if lane then (plkOf b u).lock0 = (plkOf b s).lock0 else (plkOf b u).lock1 = (plkOf b s).lock1) ∧
      (backLock b u = true → exec (.backLaneLockLoss b lane) s = .next (raise 0xB4 [(1, b2n b), (1, 0x80 + b2n lane)] u)) ∧
      (backLock b u = false → exec (.backLaneLockLoss b lane) s = .next u ∧ (plkOf b u).lockLost = some s.time.ref)) ∧
  (∀ b s, (plkOf b s).present = true → backLock b s = false →
    ∃ u, exec (.plkHalfDown b) s = .next (halfDown b u) ∧ (plkOf b s).lockLost.getD 0 + 100000 ≤ u.time.ref ∧ Keeps [.time] s u) ∧
  (∀ b s, (plkOf b s).present = true → (plkOf b (halfDown b s)).present = false ∧ (plkOf b (halfDown b s)).hello = none ∧
    (plkOf b (halfDown b s)).up = false ∧ segDead b (halfDown b s) = true ∧
    Keeps [.out, .buf, .cmd, .evt, .syn, .scn, .plk, .std, .sbd] s (halfDown b s)) ∧
  (∀ b (lane : Bool) s, backOn b s = true → (plkOf b s).present = false → ((plkOf b s).level || (plkOf b s).masked) = true →
    ∃ t, exec (.plkHalfPresent b lane) s = .next t ∧ (plkOf b t).present = true ∧
      (if lane then (plkOf b t).lock1 else (plkOf b t).lock0) = true ∧ Keeps [.out, .buf, .cmd, .evt, .scn, .plk, .sbd] s t) ∧
  (∀ b j s, .rowPacket b j.star j.q (plkOf b s).seq j.row j.data ∈ (sendRow b j s).out ∧
    (plkOf b (sendRow b j s)).seq = ((plkOf b s).seq + 1) % 65536 ∧ Keeps [.out, .buf, .plk] s (sendRow b j s))

/-! ## Memory, buffers and the ledger -/

/-- The release of device memory ends with memory in service (R346). A calibration window opens on a PC with its rows closed
(R339, R348), and closes after one step of a sweep (R349). A refresh works on the next bank and closes its row (R340); an idle row
is closed (R339). The copy of a fence begins once its range holds no buffer, and ends with event 0x48 and the PC among the fenced
ones; the memory of the range withdrawn is gone (R354, R355). A BAR2 read answers the bytes found, and a write stores the bytes of
live buffers and nothing else (R365). -/
def Obligations.DeviceMemory : Prop :=
  ((∀ checks other s, s.dmc.state = 2 → ∃ t, exec (.dmcReady checks other) s = .next t ∧ 3 ≤ t.dmc.state) ∧
  (∀ (pc : Fin 64) s, pc.val < s.dmc.pcs.length → s.dmc.state = 3 → s.dmc.change = none → (pcOf s pc.val).winOpen = false →
    (pcOf s pc.val).winSince = false → (s.dmc.pcs.filter (·.winOpen)).length < pv s 0x0704 → sweeping s pc.val = true →
    ∃ t, exec (.calWindowOpen pc) s = .next t ∧ (pcOf t pc.val).winOpen = true ∧ (pcOf t pc.val).winSince = true ∧
      (∀ r ∈ t.dmc.rows, r.pc ≠ pc.val) ∧ Keeps [.dmc] s t) ∧
  (∀ (pc : Fin 64) w s, pc.val < s.dmc.pcs.length → (pcOf s pc.val).winOpen = true → segmentWaits s pc.val = false →
    s.dmc.sweeps.find? (fun w => w.pc == pc.val) = some w →
    ∃ t, exec (.calWindowClose pc .step) s = .next t ∧ (pcOf t pc.val).winOpen = false ∧
      t.dmc.sweeps = s.dmc.sweeps.map (fun x => if x.pc = w.pc then { x with windows := x.windows + 1 } else x) ∧ Keeps [.dmc] s t) ∧
  (∀ (pc : Fin 64) s, pc.val < s.dmc.pcs.length → s.dmc.state = 3 → (pcOf s pc.val).winOpen = false →
    ∃ t, exec (.dmcRefresh pc) s = .next t ∧ (pcOf t pc.val).refBank = ((pcOf s pc.val).refBank + 1) % 32 ∧
      t.dmc.rows = s.dmc.rows.filter (fun r => !(r.pc == pc.val && r.bank == (pcOf s pc.val).refBank)) ∧ Keeps [.dmc] s t) ∧
  (∀ (pc : Fin 64) (bank : Fin 32) r s, s.dmc.rows.find? (fun r => r.pc == pc.val && r.bank == bank.val) = some r →
    ∃ t, exec (.dmcPageIdleExpiry pc bank) s = .next t ∧ r.last + pv s 0x0702 ≤ t.time.ref ∧
      (∀ x ∈ t.dmc.rows, ¬(x.pc = pc.val ∧ x.bank = bank.val)) ∧ Keeps [.time, .dmc] s t)) ∧
  ((∀ f rest s, s.dmc.fences = f :: rest → f.copying = false → s.dmc.state = 3 →
    freeUnitsIn s (heapUnits - s.dmc.fenced.length * 8192 - 8192) (heapUnits - s.dmc.fenced.length * 8192) = 8192 →
    ∃ t, exec .fenceMigrationStart s = .next t ∧ t.dmc.fences = { f with copying := true } :: rest ∧ Keeps [.dmc] s t) ∧
  (∀ f rest s, s.dmc.fences = f :: rest → f.copying = true → s.dmc.state = 3 →
    ∃ u w, w = raise 0x48 [(1, f.pc), (8, dmcCapacity u), (4, u.dmc.fenced.length)] u ∧
      exec .dmcFenced s = .next (if dmcShort w then stepDown 10 none (merNs w) w else w) ∧
      u.dmc.fenced = s.dmc.fenced ++ [f.pc] ∧ u.dmc.fences = rest ∧
      (∀ a, withdrawnBase (s.dmc.fenced.length + 1) ≤ a → a < withdrawnBase (s.dmc.fenced.length + 1) + 0x20000000 →
        memGet u.mem a = memBlank) ∧ Keeps [.dmc, .mem] s u)) ∧
  ((∀ off len s, s.cmd.up = true → (∀ i < len.toNat, bar2Hole s (off.toNat + i) = false) →
    ∃ t, exec (.bar2Read off len []) s = .next t ∧
      .bar2Read off.toNat ((List.range len.toNat).map (fun i => bar2Byte s (off.toNat + i))) ∈ t.out ∧
      Keeps [.out, .cmd, .dmc] s t) ∧
  (∀ off data s, s.cmd.up = true → bar2Live s = true → Memory.wf s.mem = true →
    (∀ i < data.length, bar2Hole s (off.toNat + i) = false ∧ bar2Owned s (off.toNat + i) = true) →
    ∃ t, exec (.bar2Write off data) s = .next t ∧
      (∀ i < data.length, memGet t.mem (off.toNat + i) = data.getD i 0) ∧
      (∀ a, (a < off.toNat ∨ off.toNat + data.length ≤ a) → memGet t.mem a = memGet s.mem a) ∧ Keeps [.mem, .dmc] s t))

/-- BUF_ALLOC makes a buffer at the lowest aligned run of FREE units and answers its handle and address (R372); BUF_FREE ends the
handle: an unheld buffer is gone, a held one is DEFERRED with event 0x51 (R374). -/
def Obligations.Buffers : Prop :=
  (∀ h p s a i, placeFor (taken (rowBufAlloc h p) s) (unitsFor p.size.toNat) (alignUnits p) = some a →
    freeBufIdx (taken (rowBufAlloc h p) s) = some i → served (rowBufAlloc h p) s = true →
    ∃ b u, b = (⟨i, a, unitsFor p.size.toNat, true, genOf (taken (rowBufAlloc h p) s) 0x01 i, []⟩ : Buf) ∧
      exec (.bufAlloc h p) s = .next (finish h 0x0201 (okay (handle 0x01 i b.gen) (bufAddr b % 2 ^ 32) (bufAddr b / 2 ^ 32)) (checkLow u)) ∧
      u.buf.bufs = (taken (rowBufAlloc h p) s).buf.bufs ++ [b] ∧
      (Memory.wf s.mem = true → ∀ x, (x < bufAddr b ∨ bufAddr b + b.units * unitBytes ≤ x) → memGet u.mem x = memGet s.mem x) ∧
      Keeps [.buf, .cmd, .mem, .sbd] s u) ∧
  (∀ h p s b, bufOf (taken (rowBufFree h p) s) p.handle.toNat = some b → served (rowBufFree h p) s = true →
    ∃ x c, x = dropSources b.idx (nextGen 0x01 b.idx (taken (rowBufFree h p) s)) ∧
      c = (x.buf.bufs.find? (fun y => y.idx == b.idx)).getD b ∧
      (c.holds = [] → exec (.bufFree h p) s = .next (finish h 0x0202 (okay) (checkLow (dropBuf c 1 x)))) ∧
      (c.holds ≠ [] → ∃ u, exec (.bufFree h p) s = .next (finish h 0x0202 ⟨St.deferred, holderMask c, 0, 0⟩ (raise 0x51 [] u)) ∧
        ∀ y ∈ u.buf.bufs, y.idx = c.idx → y.live = false)) ∧
  (∀ b c s, ∀ y ∈ (dropBuf b c s).buf.bufs, y.idx ≠ b.idx)

/-- BUF_QUERY is an observe command of one parameter unit whose bytes 4 to 7 are zero; it answers the size in units, the device
address and the mask of its holders (R377). -/
def Obligations.BufferQuery : Prop :=
  (∀ h p, (rowBufQuery h p).plens = [1] ∧ (rowBufQuery h p).opc = 0x0204) ∧ (∃ c, infoOf 0x0204 = some c ∧ c.cls = .observe) ∧
  (∀ h p s, p.rsv ≠ 0 → (rowBufQuery h p).chk s = some (no St.badParam)) ∧
  (∀ h p s b, bufOf (taken (rowBufQuery h p) s) p.handle.toNat = some b → served (rowBufQuery h p) s = true →
    ∃ w2, exec (.bufQuery h p) s = .next (finish h 0x0204 (okay b.units (bufAddr b % 2 ^ 32) w2) (taken (rowBufQuery h p) s)) ∧
      (bufAddr b < 2 ^ 35 → bits w2 2 0 = bufAddr b / 2 ^ 32) ∧ (bufAddr b < 2 ^ 35 → bits w2 11 8 = holderMask b % 16))

/-- BUF_COPY is answered ACCEPTED and stands as a copy; a copy from host memory that ends whole has put its bytes at the
destination and is answered with LENGTH; one whose host access fails is answered FAULT with the bytes copied (R376). LEDGER_READ
audits the pool, answers AUDIT_SEQ, its TOTAL and its FREE count, and writes the record where it is asked for (R379, R381). At
each second every pool is audited (R379). Once per second a buffer in a withdrawn range raises event 0x56 (R378). -/
def Obligations.CopiesAndLedger : Prop :=
  ((∀ h p s, served (rowBufCopy h p) s = true →
    ∃ c u, exec (.bufCopy h p) s = .next (accepted h 0x0203 0 u) ∧
      u.buf.copies = (taken (rowBufCopy h p) s).buf.copies ++ [c] ∧ c.h = h ∧ c.len = p.len.toNat ∧ Keeps [.buf, .cmd, .sbd] s u) ∧
  (∀ k copied data c s, s.buf.copies.find? (fun c => keyOf c.h == k) = some c →
    ∃ u, exec (.bufCopyDone k copied .ok data) s = .next (finish c.h 0x0203 (okay c.len) (dropCopy c u)) ∧
      (c.srcDev = none → c.dstDev.isSome = true → u.mem = memPutAll s.mem c.dstAddr (bytesAt data 0 c.len)) ∧
      (c.srcDev.isSome = true → c.dstDev.isSome = true → u.mem = memPutAll s.mem c.dstAddr (memGetAll s.mem c.srcAddr c.len)) ∧
      (c.dstDev = none → u.mem = s.mem) ∧ Keeps [.out, .cmd, .mem] s u) ∧
  (∀ k copied mem data c s, s.buf.copies.find? (fun c => keyOf c.h == k) = some c → mem ≠ .ok →
    ∃ u, exec (.bufCopyDone k copied mem data) s =
      .next (finish c.h 0x0203 ⟨St.fault, min copied.toNat c.len, 0, 0⟩ (dropCopy c u)) ∧
      (c.dstDev = none → u.mem = s.mem) ∧
      (Memory.wf s.mem = true → c.srcDev = none → c.dstDev.isSome = true →
        ∀ i < min copied.toNat c.len, memGet u.mem (c.dstAddr + i) = (bytesAt data 0 (min copied.toNat c.len)).getD i 0) ∧
      (Memory.wf s.mem = true → ∀ x, (x < c.dstAddr ∨ c.dstAddr + c.len ≤ x) → memGet u.mem x = memGet s.mem x) ∧
      Keeps [.out, .cmd, .mem] s u)) ∧
  ((∀ h p s q, poolOf (taken (rowLedgerRead h p []) s) p.pool.toNat = some q → q.cols.sum = q.total →
    served (rowLedgerRead h p []) s = true →
    ∃ v u, exec (.ledgerRead h p []) s = .next (finish h 0x0205 v u) ∧ v.status = St.ok ∧
      v.w0 = ((taken (rowLedgerRead h p []) s).buf.auditSeq + 1) % 2 ^ 32 ∧ v.w1 = q.total ∧
      v.w2 % 2 ^ 24 = q.cols.getD 0 0 % 2 ^ 24 ∧
      (p.dest ≠ 0 → ∃ rec, .hostWrite p.dest.toNat rec ∈ u.out) ∧ Keeps [.out, .buf, .cmd, .sbd] s u) ∧
  (∀ s, mainOn s = true → (∀ p ∈ s.buf.pools, p.cols.sum = p.total) →
    ∃ t, exec (.ledgerAuditTick []) s = .next t ∧ t.buf.auditSeq % 2 ^ 32 = (s.buf.auditSeq + s.buf.pools.length) % 2 ^ 32 ∧
      t.buf.audits = s.buf.audits + s.buf.pools.length ∧ t.buf.faults = s.buf.faults ∧ Keeps [.time, .buf] s t) ∧
  (∀ s, withdrawnBufs s ≠ [] →
    ∃ n low u, exec .bufWithdrawWait s = .next (raise 0x56 [(4, n), (4, low)] u) ∧ s.buf.withdrawEvt + nsPerSec ≤ u.time.ref ∧
      u.buf.withdrawEvt = u.time.ref ∧ Keeps [.time, .buf] s u))

/-! ## Scenes, the codec, synthesis and live capture -/

/-- SCENE_OPEN opens a session in the lowest free slot and answers its handle and ring (R59). SCENE_FEED puts its bytes into the
ring (R61), or finds too little room and answers NO_SPACE with what there is (R62). SCENE_CLOSE drains the session or closes it at
the next display frame (R65). A datagram of a backbone session reaches its ring (R63); the decoding of a frame whose bytes are
there begins in a free MPI slot, with the checks of R54; a frame decoded whole is the newest frame of its session (R57), one that
failed a check is lost (R67); a drained session ends with its last frame's interval (R65). -/
def Obligations.Scenes : Prop :=
  ((∀ h p s i, s.scene.sess.length = 2 → i = (if (sessOf 0 s).isNone then 0 else 1) → served (rowSceneOpen h p) s = true →
    ∃ x u, x = openSession h p (taken (rowSceneOpen h p) s) ∧
      exec (.sceneOpen h p) s = .next (finish h 0x0302 (okay (handle 0xF0 i (genOf u 0xF0 i)) (ringBytes x) 0) u) ∧
      sessOf i u = some x ∧ x.source = p.source.toNat ∧ x.frames = [] ∧ x.decode = none ∧ sessOf (1 - i) u = sessOf (1 - i) s ∧
      Keeps [.scene, .buf, .cmd, .sbd] s u) ∧
  (∀ h p data s i x, feedSess p (taken (rowSceneFeed h p data) s) = some (i, x) → p.length.toNat ≤ feedRoom p x → p.kind = 0 →
    served (rowSceneFeed h p data) s = true →
    ∃ u v, exec (.sceneFeed h p data) s = .next (judgeStreamHdr i (finish h 0x0303 v u)) ∧ v.status = St.ok ∧
      sessOf i u = some (takeFeed p.offset.toNat (bytesAt data 0 p.length.toNat) x) ∧
      .hostRead p.addr.toNat p.length.toNat ∈ u.out ∧ Keeps [.out, .scene, .buf, .cmd, .sbd] s u) ∧
  (∀ h p data s i x, feedSess p (taken (rowSceneFeed h p data) s) = some (i, x) → feedRoom p x < p.length.toNat →
    served (rowSceneFeed h p data) s = true →
    ∃ u, exec (.sceneFeed h p data) s = .next (finish h 0x0303 ⟨St.noSpace, feedRoom p x % 2 ^ 32, 0, 0⟩ u) ∧
      sessOf i u = some { x with refused := some p.length.toNat }) ∧
  (∀ h p s i x, sessSlot (taken (rowSceneCloseDrain h p) s) p.session.toNat = some i → sessOf i s = some x →
    served (rowSceneCloseDrain h p) s = true →
    ∃ u, exec (.sceneCloseDrain h p) s = .next (accepted h 0x0304 0 u) ∧ sessOf i u = some { x with drain := some h } ∧
      Keeps [.scene, .buf, .cmd, .sbd] s u) ∧
  (∀ h p s i x, sessSlot (taken (rowSceneCloseNow h p) s) p.session.toNat = some i → sessOf i s = some x →
    served (rowSceneCloseNow h p) s = true →
    ∃ u, exec (.sceneCloseNow h p) s = .next (finish h 0x0304 (okay) u) ∧ sessOf i u = some { x with closing := true } ∧
      Keeps [.scene, .buf, .cmd, .sbd] s u)) ∧
  ((∀ (port : U16) payload s i x, mainOn s = true → 17 ≤ payload.length → payload.length ≤ 8960 → field payload 0 4 = 0x4453564C →
    sessOf i s = some x → x.source = 1 → x.port = port.toNat → x.streamId = field payload 4 4 → i ≤ 1 →
    (∀ x0, i = 1 → sessOf 0 s = some x0 → ¬(x0.source = 1 ∧ x0.port = port.toNat ∧ x0.streamId = field payload 4 4)) →
    ∃ u y, exec (.streamDatagram port payload) s = .next (judgeStreamHdr i u) ∧ sessOf i u = some y ∧ x.expect ≤ y.expect ∧
      y.decode = x.decode ∧ y.frames = x.frames ∧ Keeps [.scene] s u) ∧
  (∀ (slot : Fin 2) s x d m o b, sessOf slot.val s = some x → s.pnl.desc = some d → freeMpi s = some m → x.decode = none →
    x.ended = false → s.dmc.state = 3 → ¬(x.source = 0 ∧ x.hdr = none) → nextFrame x = some o → frameBytes x o s = some b →
    ∃ t y c, exec (.streamFrameDecodeStart slot) s = .next t ∧ sessOf slot.val t = some y ∧ y.decode = some c ∧ c.off = o ∧
      c.bad = frameBad d x b ∧ c.num = field b 8 4 ∧ c.pts = field b 16 8 ∧ (c.bad = none → c.mpi = m) ∧ y.search = false) ∧
  (∀ (slot : Fin 2) s x c, sessOf slot.val s = some x → x.decode = some c → c.bad = none → c.tiles = [] →
    s.cdc.eng.any (fun e => match e with | some (.tile j _) => j == slot.val | _ => false) = false →
    ∃ u y f, exec (.streamFrameDecoded slot) s =
        .next (spaceCheck slot.val (mpiCollect (if c.resync then raise 0x6C [] u else u))) ∧ sessOf slot.val u = some y ∧
      y.frames = x.frames ++ [f] ∧ f.num = c.num ∧ f.mpi = c.mpi ∧ f.t = c.pts + lapOffset x s ∧ Keeps [.scene] s u) ∧
  (∀ (slot : Fin 2) s x c code, sessOf slot.val s = some x → x.decode = some c → c.bad = some code →
    exec (.streamFrameDecoded slot) s = .next (spaceCheck slot.val (frameLost slot.val c code s))) ∧
  (∀ (slot : Fin 2) s x at_, sessOf slot.val s = some x → nothingToDecode x s = true → x.drain.isSome = true → lastEnd x s = some at_ →
    ∃ t, exec (.sessionEndComplete slot) s = .next t ∧ sessOf slot.val t = none ∧ at_ ≤ merNs t) ∧
  (∀ i reason code s x, sessOf i s = some x → sessOf i (endSession i reason code s) = none))

/-- CODEC_JOB opens a job in the lowest free slot and answers ACCEPTED with its handle (R85, R87); CODEC_RESUME gives it new
segments (R93); CODEC_ABORT ends it and answers the bytes done (R95). An idle engine in service takes the next block (R83); at the
end of a tile record it is idle again, and a job's block does what R87 to R91 say; a job that waits 100 ms raises event 0x64
(R84), one stopped longer than CDC_SUSPEND_LIMIT is lost (R96). -/
def Obligations.Codec : Prop :=
  ((∀ h p s, served (rowCodecJobCompress h p) s = true →
    ∃ u i, i = freeJobSlot s ∧ exec (.codecJobCompress h p) s = .next (accepted h 0x0501 (jobHandle u i) u) ∧
      u.cdc.jobs = s.cdc.jobs ++ [openJob h false p i (taken (rowCodecJobCompress h p) s)] ∧ Keeps [.cdc, .buf, .cmd, .sbd] s u) ∧
  (∀ h p s, served (rowCodecJobDecompress h p) s = true →
    ∃ u i, i = freeJobSlot s ∧ exec (.codecJobDecompress h p) s = .next (accepted h 0x0501 (jobHandle u i) u) ∧
      u.cdc.jobs = s.cdc.jobs ++ [openJob h true p i (taken (rowCodecJobDecompress h p) s)] ∧ Keeps [.cdc, .buf, .cmd, .sbd] s u) ∧
  (∀ h p s j, jobBy (taken (rowCodecResume h p) s) p.job.toNat = some j → served (rowCodecResume h p) s = true →
    ∃ u, exec (.codecResume h p) s = .next (accepted h 0x0502 0 u) ∧ Keeps [.cdc, .buf, .cmd, .sbd] s u ∧
      ∃ x ∈ u.cdc.jobs, x.idx = j.idx ∧ x.h = h ∧ x.running = true ∧ x.code = 0 ∧ x.inTotal = j.inTotal + p.inLen.toNat ∧
        x.inDone = j.inDone ∧ x.outDone = j.outDone) ∧
  (∀ h p s j, jobBy (taken (rowCodecAbort h p) s) p.job.toNat = some j → served (rowCodecAbort h p) s = true →
    ∃ u, exec (.codecAbort h p) s = .next (finish h 0x0503 (okay j.inDone j.outDone) u) ∧ ∀ x ∈ u.cdc.jobs, x.idx ≠ j.idx)) ∧
  ((∀ (e : Fin 16) w s, cirrusUp s = true → s.cdc.off.contains e.val = false → e.val < s.cdc.eng.length →
    s.cdc.eng.getD e.val none = none → s.bst.jobs.any (fun j => j.id == 2 && j.inst == e.val) = false → nextWork s = some w →
    ∃ t, exec (.cirrusBlockStart e) s = .next t ∧ t.cdc.eng.getD e.val none = some w ∧
      (∀ n, n ≠ e.val → t.cdc.eng.getD n none = s.cdc.eng.getD n none) ∧ Keeps [.cdc, .scene] s t) ∧
  (∀ (e : Fin 16) host i r s, cirrusUp s = true → s.cdc.eng.getD e.val none = some (.tile i r) →
    ∃ t, exec (.cirrusBlockDone e host) s = .next t ∧ t.cdc.eng.getD e.val none = none ∧
      Keeps [.out, .cmd, .evt, .mem, .scene, .cdc, .sbd] s t) ∧
  (∀ (e : Fin 16) host i s, cirrusUp s = true → s.cdc.eng.getD e.val none = some (.job i) →
    exec (.cirrusBlockDone e host) s = .next (jobDone i host s)) ∧
  (∀ j host s, inLeft j < j.blockSize - j.inp.length → j.more = true →
    compressStep j host s = jobStops j.idx St.partly 0x81 j.block s) ∧
  (∀ (slot : Fin 16) j s, (waitingJobs s).find? (fun j => j.idx == slot.val) = some j → j.starved = false →
    ∃ u, exec (.cdcHostStarved slot) s = .next (raise 0x64 [] u) ∧ j.waitSince + 100000000 ≤ u.time.ref ∧
      (∀ x ∈ u.cdc.jobs, x.idx = j.idx → x.starved = true) ∧ Keeps [.time, .cdc] s u) ∧
  (∀ (slot : Fin 16) j s, jobOf slot.val s = some j → j.running = false →
    ∃ t, exec (.cdcSuspendLimitExpiry slot) s = .next t ∧ (∀ x ∈ t.cdc.jobs, x.idx ≠ j.idx) ∧
      j.stoppedAt + pv s 0x0901 * nsPerSec < t.time.ref))

/-- A synthesis starts for the next frame (R99); a commit makes its frame committed, with event 0x72 (R100); a frame not committed
by its deadline is stopped with event 0x74 (R124). FRAME_SUBMIT is pending for its frame and answered ACCEPTED with it; one whose
header fails R118 raises event 0x73 (R119, R132). FRAME_STATUS answers the status kept (R123). VIEW_SHIFT applies from its frame
on (R127). -/
def Obligations.Synthesis : Prop :=
  ((∀ s k d a b, openFrame s = some k → s.pnl.desc = some d → s.syn.cur = none → isRendered s.mode.mode = true →
    isRendered (modeAt k s) = true → s.pnl.full = true → groupsOk s ≠ 0 → freeStores d s = some (a, b) →
    ∃ t, exec .synthesisStart s = .next t ∧ t.syn.nextK = some (k + 1) ∧
      max (frameStart (k - 1) s) (s.syn.freeAt.getD 0) ≤ merNs t ∧
      Keeps [.out, .time, .buf, .cmd, .evt, .scene, .syn, .cam, .scn, .sbd] s t) ∧
  (∀ k d f a b s, (beginSynth k d f a b s).syn.cur = some ⟨k, f, srcMpi f d s, valsFor k (srcMpi f d s) d s⟩) ∧
  (∀ s c, s.syn.cur = some c → merNs s ≤ commitBy c.k s →
    ∃ u slack, exec .synCommit s = .next (mpiCollect (raise 0x72 [(8, c.k), (4, slack)] (commitJob c slack u))) ∧
      slack = (commitBy c.k s - merNs s) / 1000 ∧ u.syn.cur = none ∧ u.syn.committedK = max s.syn.committedK c.k ∧
      (∀ f, frameOf c.k s = some f → ∀ g ∈ u.scn.frames, g.k = c.k → g.committed = true ∧ g.phases = c.vals.phases) ∧
      Keeps [.buf, .mem, .syn, .scn] s u) ∧
  (∀ done s c, s.syn.cur = some c → (∀ j, c.src ≠ .job j) →
    ∃ u, exec (.synDeadline done) s = .next (raise 0x74 [(8, c.k), (1, done.toNat)] u) ∧ u.syn.cur = none ∧
      u.syn.misses = s.syn.misses + 1 ∧ commitBy c.k s ≤ merNs u ∧ Keeps [.time, .buf, .scene, .syn, .scn] s u) ∧
  (∀ done s c j, s.syn.cur = some c → c.src = .job j → s.syn.kept.any (fun e => e.1 == j) = false →
    ∃ u, exec (.synDeadline done) s = .next (missJob j (raise 0x74 [(8, c.k), (1, done.toNat)] u)) ∧ u.syn.cur = none ∧
      u.syn.misses = s.syn.misses + 1)) ∧
  ((∀ h p s k b a bs n, chkFrameSubmit h p (taken (rowFrameSubmit h p) s) = none → targetFrame h s = some k →
    submitHdr p (taken (rowFrameSubmit h p) s) = some (b, a, bs, n) → served (rowFrameSubmit h p) s = true →
    ∃ j u, exec (.frameSubmit h p) s = .next (accepted h 0x0305 (k % 2 ^ 32) u) ∧ u.syn.jobs = s.syn.jobs ++ [j] ∧ j.h = h ∧
      j.k = k ∧ j.fence = p.fence.toNat ∧ j.value = p.value.toNat ∧ Keeps [.syn, .buf, .cmd, .sbd] s u) ∧
  (∀ h p s v, chkFrameSubmit h p (taken (rowFrameSubmit h p) s) = some v → served (rowFrameSubmit h p) s = true →
    exec (.frameSubmit h p) s = .next (finish h 0x0305 v (raise 0x73 [(1, v.w0)] (taken (rowFrameSubmit h p) s)))) ∧
  (∀ h k s x, statAsked k s = some x → served (rowFrameStatus h k) s = true →
    exec (.frameStatus h k) s = .next (finish h 0x0306 (okay (x.state + x.src * 2 ^ 8 + x.planes * 2 ^ 16) x.slack x.tag)
      (taken (rowFrameStatus h k) s))) ∧
  (∀ h p s k, targetFrame h s = some k → served (rowViewShift h p) s = true →
    ∃ u, exec (.viewShift h p) s = .next (finish h 0x0307 (okay (k % 2 ^ 32)) u) ∧
      u.syn.shiftNext = s.syn.shiftNext.filter (fun e => e.1 < k) ++ [(k, shiftAsked p)] ∧ Keeps [.syn, .buf, .cmd, .sbd] s u))

/-- What the six camera commands and SWEEP_CFG do to the camera ports and what they answer (R141 to R146, R157, R164). -/
def Obligations.CameraCommands : Prop :=
  (∀ h p s, p.port.toNat < s.cam.ports.length → served (rowCamCfgPort h p) s = true →
    ∃ u, exec (.camCfgPort h p) s = .next (finish h 0x0C05 (okay) u) ∧
      (portOf p.port.toNat u).cfg = some (cfgOf p) ∧ (portOf p.port.toNat u).masked = false ∧
      (portOf p.port.toNat u).rearm = false ∧ (portOf p.port.toNat u).freeing = false ∧
      (portOf p.port.toNat u).cfgFrom = nextWindow (taken (rowCamCfgPort h p) s) ∧
      (portOf p.port.toNat u).gear = (match (portOf p.port.toNat s).gear with
        | some t => if (cfgOf p).gearMax < t then none else some t
        | none => none) ∧
      (∀ n, n ≠ p.port.toNat → portOf n u = portOf n s) ∧ Keeps [.out, .buf, .cmd, .evt, .cam, .sbd] s u) ∧
  (∀ h p s, p.port.toNat < s.cam.ports.length → (portOf p.port.toNat s).cfg.isSome = true → served (rowCamCfgOff h p) s = true →
    ∃ u, exec (.camCfgOff h p) s = .next (finish h 0x0C05 (okay) u) ∧ (portOf p.port.toNat u).gear = none ∧
      (portOf p.port.toNat u).i2c = [] ∧
      ((portOf p.port.toNat u).freeing = true ∨ ((portOf p.port.toNat u).cfg = none ∧ (portOf p.port.toNat u).map = none)) ∧
      ((portOf p.port.toNat s).images = [] → sweptBufs p.port.toNat s = [] → (portOf p.port.toNat u).cfg = none) ∧
      Keeps [.out, .buf, .cmd, .evt, .cam, .sbd] s u) ∧
  (∀ h p s, (portOf p.port.toNat s).cfg = none → served (rowCamCfgOff h p) s = true →
    exec (.camCfgOff h p) s = .next (finish h 0x0C05 (okay) (taken (rowCamCfgOff h p) s))) ∧
  (∀ h p s t, p.port.toNat < s.cam.ports.length →
    t = (⟨h, p.addr.toNat, bytesAt p.data 0 p.writeLen.toNat, p.speed.toNat, p.readLen.toNat⟩ : CamI2c) →
    served (rowCamCfgI2c h p) s = true →
    ∃ u, exec (.camCfgI2c h p) s = .next (if (portOf p.port.toNat s).i2c = [] then
        emit (.camI2c p.port.toNat t.addr t.data t.readLen t.speed) (accepted h 0x0C05 0 u) else accepted h 0x0C05 0 u) ∧
      (portOf p.port.toNat u).i2c = (portOf p.port.toNat s).i2c ++ [t] ∧ Keeps [.cam, .buf, .cmd, .sbd] s u) ∧
  (∀ h p s, p.port.toNat < s.cam.ports.length → served (rowCamCfgMap h p) s = true →
    ∃ u, exec (.camCfgMap h p) s = .next (finish h 0x0C05 (okay) u) ∧
      (portOf p.port.toNat u).map = some (mapOf (mapBytes p (taken (rowCamCfgMap h p) s)).1) ∧ (portOf p.port.toNat u).rearm = false ∧
      (portOf p.port.toNat u).cfg = (portOf p.port.toNat s).cfg ∧ Keeps [.cam, .buf, .cmd, .sbd] s u) ∧
  (∀ h p s k, k = nextWindow (taken (rowCamTriggerCfg h p) s) → served (rowCamTriggerCfg h p) s = true →
    ∃ u, exec (.camTriggerCfg h p) s = .next (finish h 0x0C06 (okay) u) ∧
      trigAt k u = ⟨p.offset.toNat, p.width.toNat, p.flags.toNat.testBit 0, camPorts.map (skewAt p)⟩ ∧
      u.cam.ports = s.cam.ports ∧ Keeps [.cam, .buf, .cmd, .sbd] s u) ∧
  (∀ h p s, served (rowCamStatus h p) s = true →
    exec (.camStatus h p) s = .next (finish h 0x0C07 (okay (camState p.port.toNat s + 256 * (portOf p.port.toNat s).gear.getD 0)
      ((portOf p.port.toNat s).accepted % 2 ^ 32) (unsigned 32 (portOf p.port.toNat s).slack)) (taken (rowCamStatus h p) s))) ∧
  (∀ h p s, served (rowSweepCfg h p) s = true →
    ∃ u, exec (.sweepCfg h p) s = .next (finish h 0x0C08 (okay) u) ∧
      u.cam.sweepCfg = ⟨p.planes.toNat, p.flags.toNat.testBit 0, p.minViews.toNat, p.lo.toNat, p.hi.toNat,
        (List.range 24).map (sweepDispAt p)⟩ ∧ u.cam.ports = s.cam.ports ∧ Keeps [.cam, .buf, .cmd, .sbd] s u)

/-- Camera links train and are lost (R134, R138), transfers end (R143), triggers go out early by the uplink's latency (R147),
images are judged and stored (R136, R148), windows end (R148), presence changes (R539). -/
def Obligations.CameraHappenings : Prop :=
  (∀ (port : Fin 16) (gear : Fin 5) latency s g t, mainOn s = true → (portOf port.val s).cfg = some g → (portOf port.val s).gear = none →
    portPowered port.val s = true → port.val < s.cam.ports.length → t = min g.gearMax (gear.val + 1) →
    ∃ u, exec (.camLinkUp port gear latency) s =
        .next (auditAll (match camRecov port.val s with | some r => endRecov r 1 0 u | none => u)) ∧
      (portOf port.val u).gear = some t ∧ (portOf port.val u).latency = latency.val ∧
      (portOf port.val u).rearm = ((portOf port.val s).rearm || (portOf port.val s).lost) ∧
      (portOf port.val u).format = !gearFits g (camRate s) t ∧ Keeps [.out, .cmd, .evt, .cam, .sbd] s u) ∧
  (∀ (port : Fin 16) s, (portOf port.val s).gear.isSome = true → port.val < s.cam.ports.length → quiescing s = true →
    ∃ u, exec (.camLinkDown port) s = .next (auditAll (fire 0x81 [] u)) ∧ (portOf port.val u).gear = none ∧
      (portOf port.val u).lost = true ∧ (portOf port.val u).dropCount = (portOf port.val s).dropCount + 1 ∧
      (portOf port.val u).i2c = []) ∧
  (∀ (port : Fin 16) s, (portOf port.val s).gear.isSome = true → port.val < s.cam.ports.length → quiescing s = false →
    ∃ u rseq, exec (.camLinkDown port) s = .next (auditAll (if pv s 0x0C00 < recentDrops port.val u then
          takeOwn (camDomain port.val) 0 0 0x81 [] u
        else decideRecov (camDomain port.val) 0 (some 0x81) [] 0 .escalation none false (setWindow (camDomain port.val) 0 rseq u))) ∧
      (portOf port.val u).gear = none ∧ (portOf port.val u).lost = true ∧
      (portOf port.val u).dropCount = (portOf port.val s).dropCount + 1 ∧ (portOf port.val u).i2c = []) ∧
  (∀ (port : Fin 16) e s t rest, (portOf port.val s).i2c = t :: rest → port.val < s.cam.ports.length →
    ∃ u, exec (.camI2cTransferDone port e) s = .next (startI2c port.val (match e with
        | .done _ => finish t.h 0x0C05 (i2cVerdict t e) u
        | _ => raise 0x86 [] (finish t.h 0x0C05 (i2cVerdict t e) u))) ∧
      (portOf port.val u).i2c = rest ∧ Keeps [.cam] s u) ∧
  (∀ (port : Fin 16) s f k g t q, frameAt (merNs s) s = some f → k = max s.cam.fromK (max (s.cam.trigDone.getD port.val 0 + 1) (f + 3)) →
    s.mode.mode = .skylight → (portOf port.val s).gear.isSome = true → s.scn.dark = none → k ≤ f + 4 → cfgAt port.val k s = some g →
    g.free = false → t = trigTime k port.val s - (portOf port.val s).latency → q = trigAt k s →
    ∃ u, exec (.camTrigger port) s = .next (emit (.camTrigger port.val t (q.width * 1000) q.low) u) ∧ t ≤ merNs u ∧
      u.cam.trigDone = s.cam.trigDone.set port.val k ∧ Keeps [.time, .cam] s u) ∧
  (∀ (port : Fin 16) f s, (portOf port.val s).gear.isSome = true → port.val < s.cam.ports.length → mtOf f.fs ≤ mtOf f.fe →
    s.mode.mode ≠ .skylight →
    ∃ t, exec (.csi2Frame port f) s = .next t ∧ (portOf port.val t).skipped = (portOf port.val s).skipped + f.counted.toNat ∧
      mtOf f.fe ≤ merNs t ∧ Keeps [.time, .cam] s t) ∧
  (∀ (port : Fin 16) f s u j g, (portOf port.val s).gear.isSome = true → mtOf f.fs ≤ mtOf f.fe → s.mode.mode = .skylight →
    u = onPort port.val (fun p => { p with skipped := p.skipped + f.counted.toNat }) (advanceMer (mtOf f.fe) s) →
    frameAt (mtOf f.fs) u = some j → s.cam.fromK ≤ j + 3 → cfgAt port.val (j + 3) s = some g →
    exec (.csi2Frame port f) s = .next (judgeImage port.val (j + 3) g f u)) ∧
  (∀ c k g (f : CsiFrame) i s, c < s.cam.ports.length → (g.free = true ∨ trigTime k c s ≤ mtOf f.fs) →
    (∀ x ∈ (portOf c s).images, x.k ≠ k) → (portOf c s).judged.contains k = false → mtOf f.fe < windowEnd k s → f.broken = false →
    f.lines.length = g.h → (∀ l ∈ f.lines, l.length = g.w * pixelBytes g.dtype) → freeCamBuf c s = some i →
    (portOf c (judgeImage c k g f s)).images = (portOf c s).images ++ [⟨k, i, g⟩] ∧
    (portOf c (judgeImage c k g f s)).accepted = (portOf c s).accepted + 1 ∧
    (portOf c (judgeImage c k g f s)).slack = floorDiv ((windowEnd k s : Int) - mtOf f.fe) 1000 ∧
    Keeps [.buf, .mem, .cam] s (judgeImage c k g f s)) ∧
  (∀ outstanding s f k, frameAt (merNs s) s = some f → k = max s.cam.fromK (s.cam.winEnd + 1) → s.mode.mode = .skylight →
    s.scn.dark = none → k ≤ f + 4 →
    ∃ t, exec (.camWindowEnd outstanding) s = .next t ∧ t.cam.winEnd = k ∧ windowEnd k s ≤ merNs t ∧
      Keeps [.out, .time, .cmd, .evt, .cam, .sbd] s t) ∧
  (∀ (port : Fin 16) level stable s t, (portOf port.val s).presMasked = false → level ≠ (portOf port.val s).camera →
    port.val < s.cam.ports.length →
    t = max (s.time.ref + 20000000) (match (portOf port.val s).presEdge with | some e => e + 200000000 | none => 0) →
    t ≤ s.time.ref + stable * 1000 →
    ∃ u, exec (.camPresInput port level stable) s =
        .next (if level = false ∧ (portOf port.val s).gear.isSome = true then linkLost port.val u else u) ∧
      (portOf port.val u).camera = level ∧ t ≤ u.time.ref ∧ Keeps [.out, .time, .cmd, .evt, .cam, .sbd] s u)

/-- A sweep begins with the ports present (R148, R153, R160); finished before its deadline, it waits for synthesis (R156); past
it, it is abandoned with event 0x88 (R153). -/
def Obligations.Sweeping : Prop :=
  (∀ s f m k, frameAt (merNs s) s = some f → freeMpi s = some m → k = nextSweep f s → s.mode.mode = .skylight → sweepUp s = true →
    s.scn.dark = none → s.cam.sweep = none → sweepPorts s ≠ [] → k ≤ f + 3 → sweepLimit s ≠ 0 →
    ∃ u, exec .sweepStart s = .next (match camPorts.filter (fun c => portPresent c k u) with
        | [] => noSweep k u
        | ports => beginSweep k m ports u) ∧ Keeps [.time] s u ∧
      ((∀ c ∈ sweepPorts s, ∃ x ∈ (portOf c s).images, x.k = k) ∨ frameStart (k - 2) s ≤ merNs u)) ∧
  (∀ k m ports s, ∃ w, (beginSweep k m ports s).cam.sweep = some w ∧ w.k = k ∧ w.mpi = m ∧ w.planes = sweepLimit s ∧
    (beginSweep k m ports s).cam.lastK = some k ∧ (beginSweep k m ports s).cam.lastNc = some ports.length ∧
    Keeps [.out, .buf, .cmd, .evt, .mem, .scene, .cam, .sbd] s (beginSweep k m ports s)) ∧
  (∀ k s, (noSweep k s).cam.noneSaid = true ∧ (noSweep k s).cam.lastK = some k ∧
    Keeps [.out, .buf, .cmd, .evt, .cam, .sbd] s (noSweep k s)) ∧
  (∀ s w d, s.cam.sweep = some w → s.pnl.desc = some d → sweepUp s = true → merNs s < frameStart (w.k - 1) s →
    ∃ t, exec .sweepEnd s = .next t ∧ t.cam.sweep = none ∧ t.cam.done = s.cam.done ++ [(w.k, w.mpi)] ∧ t.mem = (sweepWrite d w s).mem ∧
      Keeps [.buf, .mem, .scene, .cam] s t) ∧
  (∀ s w, s.cam.sweep = some w →
    ∃ u, exec .swpDeadline s = .next (raise 0x88 [] u) ∧ u.cam.sweep = none ∧ u.cam.misses = s.cam.misses + 1 ∧
      frameStart (w.k - 1) s ≤ merNs u ∧ Keeps [.time, .buf, .scene, .cam] s u)

/-! ## The backbone, the NV store and security -/

/-- Reception counts and discards (R437), learning (R442), storing (R443) and transmission under the gates (R447); gates over time
(R446, R447), ageing (R442), the reset of a stream's history (R445). The links of the bridge come up and go down (R449, R450);
NET_STATS answers the counts (R448). -/
def Obligations.BridgeTraffic : Prop :=
  ((∀ (port : Fin 8) bytes fcsOk s, netRuns s = true → (netPort s port.val).up = true → port.val < s.net.ports.length →
    (fcsOk = false ∨ bytes.length + 4 < 64 ∨ (netPort s port.val).maxFrame < bytes.length + 4) →
    ∃ t, exec (.ethFrameRx port bytes fcsOk) s = .next t ∧
      netPort t port.val = { netPort s port.val with bad := (netPort s port.val).bad + 1 } ∧ Keeps [.net] s t) ∧
  (∀ (port : Fin 8) bytes s, netRuns s = true → (netPort s port.val).up = true → port.val < s.net.ports.length →
    64 ≤ bytes.length + 4 → bytes.length + 4 ≤ (netPort s port.val).maxFrame →
    ∃ t, exec (.ethFrameRx port bytes true) s = .next t ∧ (netPort t port.val).rx = (netPort s port.val).rx + 1 ∧
      (netPort t port.val).rxOct = (netPort s port.val).rxOct + (bytes.length + 4) ∧
      Keeps [.out, .buf, .cmd, .evt, .scene, .cdc, .net, .sbd] s t) ∧
  (∀ n p s, isGroup p.sa = false → s.net.fdb.length < 8192 →
    ∃ t, learn n p s = t ∧ t.net.fdb.head? = some ⟨p.vid, p.sa, n, s.time.ref⟩ ∧
      (∀ e ∈ t.net.fdb.tail, e ∈ s.net.fdb ∧ ¬(e.vid = p.vid ∧ e.mac = p.sa)) ∧ Keeps [.net] s t) ∧
  (∀ n len p s, (∀ v, vlanOf p.vid s = some v → v.members.testBit n = false) →
    forward n len p s = (false, p, onNetPort n (fun x => { x with vlanDrop := x.vlanDrop + 1 }) s)) ∧
  (∀ n len p x v ports s, col s 0x28 0 < cellsOf len → storeFrame n len p x v ports s = (false, netLose n 1 s)) ∧
  (∀ (port : Fin 8) s t0 u0 t c, netRuns s = true → (netPort s port.val).up = true → heads port.val s ≠ [] →
    t0 = max (100 * merNs s) (netPort s port.val).txEnd → u0 = countWaits port.val t0 s →
    firstStart (netPort s port.val) (heads port.val u0) 1200 t0 = some (t, c) →
    ∃ u, exec (.ethFrameTx port) s = .next (sendCopy c t u) ∧ ceilDiv t 100 ≤ merNs u ∧ Keeps [.time, .net] s u ∧
      u.net = u0.net) ∧
  (∀ c t s, c.port < s.net.ports.length →
    ∃ bs, .ethTx c.port bs t ∈ (sendCopy c t s).out ∧ (netPort (sendCopy c t s) c.port).tx = (netPort s c.port).tx + 1 ∧
      (netPort (sendCopy c t s) c.port).txOct = (netPort s c.port).txOct + bs.length + 4 ∧
      (sendCopy c t s).net.queue = s.net.queue.erase c ∧ Keeps [.out, .buf, .net] s (sendCopy c t s)) ∧
  (∀ (port : Fin 8) s e, mainOn s = true → (netPort s port.val).oper.isSome = true → (gatesAt (netPort s port.val) (merNs s)).2 = some e →
    (∀ c l, (netPort s port.val).next = some (c, l) → e < c) → port.val < s.net.ports.length →
    ∃ t, exec (.gateControlEvent port) s = .next t ∧ netPort t port.val =
        { netPort s port.val with gates := (gatesAt (netPort s port.val) e).1 } ∧ e ≤ merNs t ∧ Keeps [.time, .net] s t) ∧
  (∀ (port : Fin 8) s c l, (netPort s port.val).next = some (c, l) → mainOn s = true → port.val < s.net.ports.length →
    ∃ u, exec (.netSchedSwitch port) s = .next (raise 0xD5 [] u) ∧ (netPort u port.val).oper = some l ∧
      (netPort u port.val).next = none ∧ (netPort u port.val).gates = (gatesIn l.cycle l.entries 255 0 (cycleOff l (merNs u))).1 ∧
      c ≤ merNs u ∧ Keeps [.time, .net] s u) ∧
  (∀ (stream : Fin 64) s x, s.net.streams.find? (fun x => x.idx == stream.val) = some x → (runOf stream.val s).high.isSome = true →
    x.flags.testBit 2 = true →
    ∃ t, exec (.frerResetTimeout stream) s = .next t ∧ (runOf stream.val t).high = none ∧ (runOf stream.val t).seen = [] ∧
      (runOf stream.val s).at_ + x.resetMs * 1000000 ≤ t.time.ref ∧ Keeps [.time, .net] s t) ∧
  (∀ s, s.net.fdb ≠ [] →
    ∃ t, exec .fdbAgeing s = .next t ∧ (∀ x ∈ t.net.fdb, x ∈ s.net.fdb ∧ t.time.ref < x.seen + pv s 0x1002 * nsPerSec) ∧
      t.net.fdb.length < s.net.fdb.length ∧ t.net.fullSaid = false ∧ Keeps [.time, .net] s t)) ∧
  ((∀ (port : Fin 8) latency s, mainOn s = true → quiescing s = false → netPortState s port.val = 1 → port.val < s.net.ports.length →
    ∃ u, exec (.netLinkUp port latency) s =
        .next (auditAll (match netRecov port.val s with | some r => endRecov r 1 0 u | none => u)) ∧ (netPort u port.val).up = true ∧
      (netPort u port.val).latency = latency.val ∧ Keeps [.out, .cmd, .evt, .net, .sbd] s u) ∧
  (∀ (port : Fin 8) s, (netPort s port.val).up = true → port.val < s.net.ports.length →
    ∃ u, exec (.netLinkDown port) s = .next (auditAll (match (if quiescing s then none else windowOf 0x20 s) with
        | some w => takeOwn 0x20 0 w.level 0xD1 (payload (downItems port.val 0)) u
        | none => faultAt 0x20 0 0xD1 (payload (downItems port.val 0)) u)) ∧ (netPort u port.val).up = false ∧
      (∀ c ∈ u.net.queue, c.port ≠ port.val) ∧ (∀ e ∈ u.net.fdb, e.port ≠ port.val) ∧ Keeps [.buf, .net] s u) ∧
  (∀ h p s, served (rowNetStats h p) s = true → exec (.netStats h p) s =
    .next (finish h 0x0C04 (statsWords (netPort s p.port.toNat) p.page.toNat) (taken (rowNetStats h p) s))))

/-- A change of the bridge's configuration is recorded first (R440); refused, it changes nothing and answers the status; recorded,
it takes effect: a port (R441), a VLAN, a static entry, a priority map, a stream (R444), a gate list written, committed and
disabled (R446). -/
def Obligations.BridgeConfiguration : Prop :=
  (∀ h opc key rec fill v s, (∀ w st, nvPut 0 0x05 key false rec 0 s = (w, .refused st) →
      netCommand h opc key rec fill v s = finish h opc (no st) w) ∧
    (∀ w q, nvPut 0 0x05 key false rec 0 s = (w, .seq q) → netCommand h opc key rec fill v s = finish h opc (v (fill w)) (fill w))) ∧
  (∀ h p s w q, nvPut 0 0x05 (0x1000 + p.port.toNat) false (portRecord (portSet p (netPort s p.port.toNat))) 0
      (taken (rowNetPortCfg h p) s) = (w, .seq q) → served (rowNetPortCfg h p) s = true → p.port.toNat < s.net.ports.length →
    ∃ u, exec (.netPortCfg h p) s = .next (finish h 0x0C01 (okay (netPortState u p.port.toNat)) u) ∧
      (netPort u p.port.toNat).up = false ∧ (netPort u p.port.toNat).speed = p.speed.toNat ∧
      (netPort u p.port.toNat).pvid = p.pvid.toNat ∧ (netPort u p.port.toNat).pcp = p.pcp.toNat ∧
      (netPort u p.port.toNat).maxFrame = p.maxFrame.toNat ∧ (netPort u p.port.toNat).dropUntagged = p.flags.toNat.testBit 0 ∧
      (netPort u p.port.toNat).masked = false ∧ Keeps [.out, .buf, .cmd, .evt, .net, .nv, .sbd] s u) ∧
  (∀ h p s w q, nvPut 0 0x05 0x2000 false (vlanRecord (vlanSet ⟨p.vid.toNat, p.members.toNat, p.untagged.toNat⟩ s.net.vlans)) 0
      (taken (rowNetVlanCfgVlan h p) s) = (w, .seq q) → served (rowNetVlanCfgVlan h p) s = true →
    ∃ u, exec (.netVlanCfgVlan h p) s = .next (finish h 0x0C02 (okay) u) ∧
      u.net.vlans = vlanSet ⟨p.vid.toNat, p.members.toNat, p.untagged.toNat⟩ s.net.vlans ∧ u.net.ports = s.net.ports ∧
      Keeps [.out, .buf, .cmd, .evt, .net, .nv, .sbd] s u) ∧
  (∀ h p s w, putStatics (staticSet ⟨p.vid.toNat, p.mac.toNat, p.ports.toNat⟩ s.net.statics) (List.range 4)
      (taken (rowNetVlanCfgStaticEntry h p) s) = (w, none) → served (rowNetVlanCfgStaticEntry h p) s = true →
    exec (.netVlanCfgStaticEntry h p) s = .next (finish h 0x0C02 (okay) w) ∧
      w.net.statics = staticSet ⟨p.vid.toNat, p.mac.toNat, p.ports.toNat⟩ s.net.statics ∧
      Keeps [.out, .buf, .cmd, .evt, .net, .nv, .sbd] s w) ∧
  (∀ h p s w q, nvPut 0 0x05 (0x1000 + p.port.toNat) false
      (portRecord { netPort s p.port.toNat with map := (leBytes 8 p.tc.toNat).map (·.toNat) }) 0
      (taken (rowNetVlanCfgPriorityMap h p) s) = (w, .seq q) → served (rowNetVlanCfgPriorityMap h p) s = true →
    p.port.toNat < s.net.ports.length →
    ∃ u, exec (.netVlanCfgPriorityMap h p) s = .next (finish h 0x0C02 (okay) u) ∧ netPort u p.port.toNat =
        { netPort s p.port.toNat with map := (leBytes 8 p.tc.toNat).map (·.toNat) } ∧
      Keeps [.out, .buf, .cmd, .evt, .net, .nv, .sbd] s u) ∧
  (∀ h p s x w q, x = (⟨p.stream.toNat, p.vid.toNat, p.ingress.toNat, p.egress.toNat, p.mac.toNat, p.flags.toNat,
      p.history.toNat, p.resetMs.toNat⟩ : StreamCfg) →
    nvPut 0 0x05 0x2300 false (streamRecord (s.net.streams.filter (fun y => y.idx != x.idx) ++ [x])) 0
      (taken (rowNetVlanCfgStream h p) s) = (w, .seq q) → served (rowNetVlanCfgStream h p) s = true →
    ∃ u, exec (.netVlanCfgStream h p) s = .next (finish h 0x0C02 (okay) u) ∧
      u.net.streams = s.net.streams.filter (fun y => y.idx != x.idx) ++ [x] ∧ (runOf x.idx u).high = none ∧
      Keeps [.out, .buf, .cmd, .evt, .net, .nv, .sbd] s u) ∧
  (∀ h p s w q, nvPut 0 0x05 (0x3000 + p.port.toNat) false (adminRecord (adminSet p (netPort s p.port.toNat).admin)) 0
      (taken (rowNetSchedCfgWrite h p) s) = (w, .seq q) → served (rowNetSchedCfgWrite h p) s = true →
    p.port.toNat < s.net.ports.length →
    ∃ u, exec (.netSchedCfgWrite h p) s = .next (finish h 0x0C03 (okay) u) ∧ netPort u p.port.toNat =
        { netPort s p.port.toNat with admin := adminSet p (netPort s p.port.toNat).admin } ∧
      Keeps [.out, .buf, .cmd, .evt, .net, .nv, .sbd] s u) ∧
  (∀ h p s l c w q, commitList p (netPort s p.port.toNat) = some l → c = changeTime l.base l.cycle (merNs s) →
    nvPut 0 0x05 (0x3100 + p.port.toNat) false (gateRecord (some l)) 0 (taken (rowNetSchedCfgCommit h p) s) = (w, .seq q) →
    served (rowNetSchedCfgCommit h p) s = true → p.port.toNat < s.net.ports.length →
    ∃ u, exec (.netSchedCfgCommit h p) s = .next (finish h 0x0C03 (okay (c / nsPerSec % 2 ^ 32) (c % nsPerSec)) u) ∧
      netPort u p.port.toNat = { netPort s p.port.toNat with next := some (c, l) } ∧
      Keeps [.out, .buf, .cmd, .evt, .net, .nv, .sbd] s u) ∧
  (∀ h p s w q, nvPut 0 0x05 (0x3100 + p.port.toNat) false (gateRecord none) 0 (taken (rowNetSchedCfgDisable h p) s) = (w, .seq q) →
    served (rowNetSchedCfgDisable h p) s = true → p.port.toNat < s.net.ports.length →
    ∃ u, exec (.netSchedCfgDisable h p) s = .next (finish h 0x0C03 (okay) u) ∧
      netPort u p.port.toNat = { netPort s p.port.toNat with oper := none, next := none, gates := 255 } ∧
      Keeps [.out, .buf, .cmd, .evt, .net, .nv, .sbd] s u) ∧
  (∀ base cycle now, 0 < cycle → ∃ n, changeTime base cycle now = base + n * cycle ∧ now ≤ changeTime base cycle now ∧
    (now ≤ base → n = 0) ∧ (base < now → changeTime base cycle now < now + cycle))

/-- A record that is written with no read-back failure is the newest of its key from then on, and no other key's changes (R462); a
deleted key is absent (R463). -/
def Obligations.NvRecords : Prop :=
  (∀ part type key pay s t q, nvPut part type key false pay 0 s = (t, .seq q) →
    nvGet t part type key = some pay ∧ t.nv.writes = s.nv.writes + 1 ∧
    (∀ p k e, (p ≠ part ∨ k ≠ type ∨ e ≠ key) → nvGet t p k e = nvGet s p k e) ∧ Keeps [.nv] s t) ∧
  (∀ part type key s t q, nvDelete part type key s = (t, .seq q) → nvGet t part type key = none ∧ Keeps [.nv] s t)

/-- NV_READ answers a record inline or writes it to host memory (R473); NV_WRITE and its DELETE answer the SEQ written or the
refusal (R462, R463); NV_UNLOCK, NV_LOCK and its passwords (R468 to R470); NV_COUNTER_ADD (R471); the log's flush (R472). -/
def Obligations.NvCommands : Prop :=
  (∀ h p s n r d, newest s p.part.toNat p.type.toNat p.key.toNat = some (n, r) → nvReadInline p = true →
    d = bytesAt r.payload p.offset.toNat p.len.toNat → served (rowNvRead h p) s = true →
    exec (.nvRead h p) s = .next (finish h 0x0801 (okay (r.payload.length + p.len.toNat * 2 ^ 16) (leNat (d.take 4)) (leNat (d.drop 4)))
      (taken (rowNvRead h p) s))) ∧
  (∀ h p s n r d, newest s p.part.toNat p.type.toNat p.key.toNat = some (n, r) → nvReadInline p = false → p.addr ≠ 0 →
    p.flags.toNat.testBit 0 = false → d = bytesAt r.payload p.offset.toNat p.len.toNat → served (rowNvRead h p) s = true →
    exec (.nvRead h p) s = .next (finish h 0x0801 (okay r.payload.length r.seq d.length)
      (emit (.hostWrite p.addr.toNat d) (taken (rowNvRead h p) s)))) ∧
  (∀ h p data fails s q w r, q = { p with flags := p.flags &&& 0xFB } →
    nvPut p.part.toNat p.type.toNat p.key.toNat false (nvWriteData q data (taken (rowNvWrite h p data fails) s)) fails
      (taken (rowNvWrite h p data fails) s) = (w, r) → served (rowNvWrite h p data fails) s = true →
    exec (.nvWrite h p data fails) s = .next (finish h 0x0802 (match r with | .seq n => okay n | .refused st => no st) w)) ∧
  (∀ h p s w r, nvDelete p.part.toNat p.type.toNat p.key.toNat (taken (rowNvWriteDelete h p) s) = (w, r) →
    served (rowNvWriteDelete h p) s = true →
    exec (.nvWriteDelete h p) s = .next (finish h 0x0802 (match r with | .seq n => okay n | .refused st => no st) w)) ∧
  (∀ h p rsv8 s, (∀ k ∈ accessKinds p, passMatches s p.part.toNat k ((pwBytes p).take p.pwLen.toNat) = true) →
    served (rowNvUnlock h p rsv8) s = true →
    ∃ u, exec (.nvUnlock h p rsv8) s = .next (finish h 0x0803 (okay) u) ∧
      (∀ k ∈ accessKinds p, (masterOf h.src, p.part.toNat, k) ∈ u.nv.unlocks) ∧ (∀ e ∈ s.nv.unlocks, e ∈ u.nv.unlocks) ∧
      Keeps [.out, .buf, .cmd, .evt, .nv, .sbd] s u) ∧
  (∀ h p rsv8 s k, k ∈ accessKinds p → passMatches s p.part.toNat k ((pwBytes p).take p.pwLen.toNat) = false →
    served (rowNvUnlock h p rsv8) s = true →
    exec (.nvUnlock h p rsv8) s = .next (finish h 0x0803 (no St.authFail) (nvAuthFail p.part.toNat (taken (rowNvUnlock h p rsv8) s)))) ∧
  (∀ part s, 4 ≤ counterGet s (failKey part) → assocD (nvAuthFail part s).nv.lockUntil part 0 =
    s.time.ref + lockPeriod (counterGet s (failKey part) + 1)) ∧
  (∀ h p s, served (rowNvLock h p) s = true →
    ∃ u, exec (.nvLock h p) s = .next (finish h 0x0804 (okay) u) ∧
      (∀ k ∈ accessKinds p, (masterOf h.src, p.part.toNat, k) ∉ u.nv.unlocks) ∧ (∀ e ∈ u.nv.unlocks, e ∈ s.nv.unlocks) ∧
      Keeps [.nv, .buf, .cmd, .sbd] s u) ∧
  (∀ h p s, served (rowNvLockSetPassword h p) s = true →
    ∃ u st, exec (.nvLockSetPassword h p) s = .next (finish h 0x0804 (match st with | none => okay | some c => no c) u) ∧
      (u, st) = putPasses p.part.toNat ((pwBytes p).take p.pwLen.toNat) (accessKinds p)
        (relock p none (taken (rowNvLockSetPassword h p) s)) ∧
      (∀ m, ∀ k ∈ accessKinds p, (m, p.part.toNat, k) ∉ u.nv.unlocks) ∧ (st = none → u.free = s.free + (accessKinds p).length) ∧
      Keeps [.out, .free, .buf, .cmd, .evt, .nv, .sbd] s u) ∧
  (∀ h p s, served (rowNvLockRemovePassword h p) s = true →
    ∃ u st, exec (.nvLockRemovePassword h p) s = .next (finish h 0x0804 (match st with | none => okay | some c => no c) u) ∧
      (u, st) = dropPasses p.part.toNat (accessKinds p) (taken (rowNvLockRemovePassword h p) s) ∧ u.nv.unlocks = s.nv.unlocks ∧
      Keeps [.out, .buf, .cmd, .evt, .nv, .sbd] s u) ∧
  (∀ h p s v w r, v = counterGet s p.key.toNat + p.increment.toNat →
    nvPut 1 0x20 p.key.toNat false (leBytes 8 v) 0 (taken (rowNvCounterAdd h p) s) = (w, r) → served (rowNvCounterAdd h p) s = true →
    exec (.nvCounterAdd h p) s =
      .next (finish h 0x0805 (match r with | .seq q => okay (v % 2 ^ 32) (v / 2 ^ 32) q | .refused st => no st) w)) ∧
  (∀ s, flushDue s = true →
    ∃ u t, exec .nvLogFlush s = .next t ∧ t = nvFlush u ∧ s.nv.lastFlush + pv s 0x0601 * nsPerSec ≤ u.time.ref ∧
      t.nv.lastFlush = u.time.ref ∧ Keeps [.time] s u)

/-- LIFE_GET and CHALLENGE_GET answer (R525, R514); RESPONSE_PUT and PASSWORD_PUT give owner authentication for 60 s or count a
failure (R515 to R517); FIELD_OPEN ends in time (R513); quotes are formed and read (R519). -/
def Obligations.Authentication : Prop :=
  (∀ h s, served (rowLifeGet h) s = true → exec (.lifeGet h) s =
    .next (finish h 0x0B01 (lifeWords (masterOf h.src) s) (taken (rowLifeGet h) s))) ∧
  (∀ h p s, served (rowChallengeGetNew h p) s = true →
    ∃ u c r, exec (.challengeGetNew h p) s = .next (finish h 0x0B02 (threeWords c.data 0) u) ∧
      challengeOf (masterOf h.src) u = some c ∧ c.until_ = merNs s + 300 * nsPerSec ∧ r.length = 32 ∧
      c.data = r ++ mtBytes (merNs s) ++ leBytes 1 (lifeState s) ++ zeroBytes 5 ∧ u.free = s.free + 1 ∧
      Keeps [.free, .sec, .buf, .cmd, .sbd] s u) ∧
  (∀ h p s c, liveChallenge (masterOf h.src) s = some c → served (rowChallengeGetPart h p) s = true →
    exec (.challengeGetPart h p) s = .next (finish h 0x0B02 (threeWords c.data (12 * p.part.toNat)) (taken (rowChallengeGetPart h p) s))) ∧
  (∀ h p s k c, ownerKey s = some k → liveChallenge (masterOf h.src) s = some c → served (rowResponsePut h p) s = true →
    ∃ u, exec (.responsePut h p) s = .next (if responseGood c k p then authPass h 0x0B03 p.purpose.toNat u
        else authFail h 0x0B03 u) ∧ challengeOf (masterOf h.src) u = none ∧ Keeps [.sec, .buf, .cmd, .sbd] s u) ∧
  (∀ h p s r, debugPass s = some r → served (rowPasswordPut h p) s = true →
    exec (.passwordPut h p) s = .next (if passwordGood r ((leBytes 32 p.password.toNat).take p.pwLen.toNat)
      then authPass h 0x0B04 p.purpose.toNat (taken (rowPasswordPut h p) s) else authFail h 0x0B04 (taken (rowPasswordPut h p) s))) ∧
  (∀ h opc purpose s, ∃ v, authPass h opc purpose s = finish h opc (okay) v ∧ authHeld (masterOf h.src) v = true ∧
    authUntil (masterOf h.src) v = merNs s + 60 * nsPerSec ∧
    (purpose = 1 → v.sec.open_.map (·.until_) = some (s.time.ref + pv s 0x1404 * 3600 * nsPerSec)) ∧
    (purpose ≠ 1 → v.sec.open_ = s.sec.open_)) ∧
  (∀ h opc s, ∃ v, authFail h opc s = finish h opc (no St.authFail) v ∧
    (4 ≤ authFails s → v.sec.lockUntil = s.time.ref + lockPeriod (authFails s + 1)) ∧
    (authFails s < 4 → v.sec.lockUntil = s.sec.lockUntil)) ∧
  (∀ s o, s.sec.open_ = some o →
    ∃ t, exec .fieldOpenExpiry s = .next t ∧ t.sec.open_ = none ∧ o.until_ ≤ t.time.ref ∧
      Keeps [.out, .free, .time, .cmd, .evt, .sec, .sbd] s t) ∧
  (∀ h p s d key, fleetKey s = some (d, key) → p.dest ≠ 0 → p.flags.toNat.testBit 0 = false →
    served (rowAttestQuoteForm h p) s = true →
    ∃ u q, exec (.attestQuoteForm h p) s = .next (finish h 0x0B05 (okay 216) u) ∧
      q = formQuote d key p.nonce.toNat (taken (rowAttestQuoteForm h p) s) ∧ quoteOf (masterOf h.src) u = some q ∧
      .hostWrite p.dest.toNat q ∈ u.out ∧ Keeps [.out, .free, .sec, .buf, .cmd, .sbd] s u) ∧
  (∀ h p s q, quoteOf (masterOf h.src) s = some q → served (rowAttestQuotePart h p) s = true →
    exec (.attestQuotePart h p) s = .next (finish h 0x0B05 (threeWords q (12 * (p.part.toNat - 1))) (taken (rowAttestQuotePart h p) s)))

/-- LIFE_ADVANCE blows the fuses of its target, erases from LIFE 4 on, raises event 0xEC, and resets the module after the reply
(R512); KEY_INSTALL writes its key or password (R518). -/
def Obligations.LifeAndKeys : Prop :=
  (∀ h p trims s x v, x = taken (rowLifeAdvance h p trims none) s → lifeStep p.target.toNat x = some (v, true) →
    ¬(lifeState x = 4 ∧ p.target = 3) → served (rowLifeAdvance h p trims none) s = true →
    ∃ u, exec (.lifeAdvance h p trims none) s = .next (plainReset false (finish h 0x0B06 (okay)
        (raise 0xEC [(1, lifeState x), (1, lifeState u)] u))) ∧ u.sec.lifeFuses = blowTo v x.sec.lifeFuses ∧
      (v < 4 → u.nv = x.nv) ∧ Keeps [.buf, .cmd, .nv, .sbd, .sec] s u) ∧
  (∀ h p trims cut s x v, x = taken (rowLifeAdvance h p trims cut) s → lifeStep p.target.toNat x = some (v, true) → lifeState x = 4 →
    p.target = 3 → served (rowLifeAdvance h p trims cut) s = true →
    exec (.lifeAdvance h p trims cut) s = .next (finish h 0x0B06 (okay) (raise 0xEC [(1, 4), (1, 3)] (endFieldOpen x)))) ∧
  (∀ h p s x y, x = field p.data 0 48 → y = field p.data 48 48 → served (rowKeyInstallOwnerKey h p) s = true →
    exec (.keyInstallOwnerKey h p) s = .next (finish h 0x0B07 (okay (keyTag x y))
      (nvOwn 3 0x03 0 (leBytes 48 x ++ leBytes 48 y) (taken (rowKeyInstallOwnerKey h p) s)))) ∧
  (∀ h p s d q, d = field p.data 0 48 → q = ecPublic d → served (rowKeyInstallFleetKey h p) s = true →
    exec (.keyInstallFleetKey h p) s = .next (finish h 0x0B07 (okay (keyTag q.1 q.2) p.keyId.toNat)
      (nvOwn 3 0x04 0 (leBytes 48 d ++ leBytes 4 p.keyId.toNat) (taken (rowKeyInstallFleetKey h p) s)))) ∧
  (∀ h p s, served (rowKeyInstallPassword h p) s = true →
    ∃ u salt w r, exec (.keyInstallPassword h p) s = .next (finish h 0x0B07 (match r with | .seq _ => okay | .refused st => no st) w) ∧
      (w, r) = nvPut 4 0x11 0 false (salt ++ debugDigest salt (bytesAt p.data 0 p.len.toNat)) 0 u ∧ salt.length = 16 ∧ u.free = s.free + 1 ∧
      Keeps [.free, .buf, .cmd, .sbd] s u) ∧
  (∀ h p s, (debugPass s).isSome = true → served (rowKeyInstallRemovePassword h p) s = true →
    ∃ w r, exec (.keyInstallRemovePassword h p) s = .next (finish h 0x0B07 (match r with | .seq _ => okay | .refused st => no st) w) ∧
      (w, r) = nvDelete 4 0x11 0 (taken (rowKeyInstallRemovePassword h p) s))

/-- A firmware update is begun, erased, filled and sealed (R520 to R522), and activated, confirmed or disarmed (R523). -/
def Obligations.FirmwareUpdates : Prop :=
  (∀ h p s n, n = updateTarget (taken (rowFwBegin h p) s) → served (rowFwBegin h p) s = true →
    ∃ u, exec (.fwBegin h p) s = .next (accepted h 0x0D01 0 u) ∧
      u.sec.update = some ⟨masterOf h.src, n, p.total.toNat, some h, none⟩ ∧ imageOf n u = .bytes [] ∧
      Keeps [.out, .buf, .cmd, .evt, .nv, .sbd, .sec] s u) ∧
  (∀ s x h, s.sec.update = some x → x.erasing = some h →
    ∃ u, exec .fwEraseDone s = .next (finish h 0x0D01 (okay) u) ∧ u.sec.update = some { x with erasing := none } ∧ Keeps [.sec] s u) ∧
  (∀ h p s x b, s.sec.update = some x → b = bootCtl s → served (rowFwChunk h p false) s = true →
    ∃ u, exec (.fwChunk h p false) s = .next (finish h 0x0D02 (okay (b.staged + p.length.toNat))
        (putBoot { b with staged := b.staged + p.length.toNat } u)) ∧
      imageOf x.slot u = .bytes (stagedBytes x.slot s ++ chunkData p (taken (rowFwChunk h p false) s)) ∧ u.sec.update = some x ∧
      Keeps [.buf, .cmd, .sbd, .sec] s u) ∧
  (∀ h p s x b, s.sec.update = some x → b = bootCtl s → served (rowFwChunk h p true) s = true →
    ∃ u, exec (.fwChunk h p true) s = .next (finish h 0x0D02 (no St.fault) (putBoot { b with staged := 0 } u)) ∧
      u.sec.update = none ∧ Keeps [.buf, .cmd, .sbd, .sec] s u) ∧
  (∀ h s x, s.sec.update = some x → served (rowFwCommit h) s = true →
    ∃ u, exec (.fwCommit h) s = .next (accepted h 0x0D03 0 u) ∧ u.sec.update = some { x with verifying := some h } ∧
      Keeps [.buf, .cmd, .sbd, .sec] s u) ∧
  (∀ s x h m b, s.sec.update = some x → x.verifying = some h → m = imageOf x.slot s → b = bootCtl s →
    ∃ u, u.sec.update = none ∧ Keeps [.sec] s u ∧
      (∀ code, verifyImage m s = some code →
        exec .fwVerifyDone s = .next (finish h 0x0D03 ⟨St.badParam, code, 0, 0⟩ (putBoot { b with staged := 0 } u))) ∧
      (verifyImage m s = none → exec .fwVerifyDone s = .next (finish h 0x0D03 (okay (imgVersion m) (imgRollback m))
        (stageEvent 1 (putBoot { b with staged := 0, sealed := sealTo x.slot true b.sealed } u))))) ∧
  (∀ h p s n, armSlot s = some n → served (rowFwActivateArm h p) s = true →
    ∃ u, u = finish h 0x0D04 (okay) (putBoot { bootCtl s with trial := n, auto := b2n (p.flags.toNat.testBit 1) }
        (taken (rowFwActivateArm h p) s)) ∧
      exec (.fwActivateArm h p) s = .next (if p.flags.toNat.testBit 0 then plainReset (s.mode.mode == .recovery) u else u)) ∧
  (∀ h p s n, s.sec.running = some n → served (rowFwActivateConfirm h p none) s = true →
    ∃ u, u = confirmRunning n (taken (rowFwActivateConfirm h p none) s) ∧
      exec (.fwActivateConfirm h p none) s = .next (finish h 0x0D04 (okay (rollbackValue u)) u)) ∧
  (∀ h p s, served (rowFwActivateDisarm h p) s = true →
    exec (.fwActivateDisarm h p) s = .next (finish h 0x0D04 (okay) (putBoot { bootCtl s with trial := 0xFF }
      (taken (rowFwActivateDisarm h p) s))))
end

