-- ==== Sys2Proof/Laws/Memory.lean ====
section
/-! SUPPORT. Device memory: every operation keeps the canonical form, a byte written is read back, and other bytes stay. -/

namespace Sys2Proof.Machine

/-- The canonical form from a bound: addresses rise from above it, no entry is blank. -/
def wfFrom (lo : Option Nat) (m : List Host.Cell) : Bool := memRising lo m && m.all (fun c => c.2 != memBlank)

theorem Memory.wf_eq (m : DevMem) : Memory.wf m = wfFrom none m.cells := rfl

theorem wfFrom_cons (lo : Option Nat) (a : Nat) (b : Byte) (r : List Host.Cell) :
    wfFrom lo ((a, b) :: r) = true ↔ (∀ l, lo = some l → l < a) ∧ b ≠ memBlank ∧ wfFrom (some a) r = true := by
  cases lo <;> simp [wfFrom, memRising] <;> grind

theorem wfFrom_weaken {lo : Option Nat} {k : Nat} {m : List Host.Cell} (h : wfFrom (some k) m = true)
    (hl : ∀ l, lo = some l → l ≤ k) : wfFrom lo m = true := by
  cases m with
  | nil => simp [wfFrom, memRising]
  | cons c r => obtain ⟨a, b⟩ := c; rw [wfFrom_cons] at h ⊢; grind

/-- A write above the bound keeps the canonical form. -/
theorem cellPut_wfFrom (m : List Host.Cell) (lo : Option Nat) (x : Nat) (v : Byte) (h : wfFrom lo m = true)
    (hx : ∀ l, lo = some l → l < x) : wfFrom lo (cellPut m x v) = true := by
  induction m generalizing lo with
  | nil =>
    unfold cellPut; split
    · exact h
    · rw [wfFrom_cons]; exact ⟨hx, ‹_›, rfl⟩
  | cons c r ih =>
    obtain ⟨a, b⟩ := c
    have hc := (wfFrom_cons lo a b r).1 h
    unfold cellPut; split
    · subst x; split
      · exact wfFrom_weaken hc.2.2 (fun l hl => Nat.le_of_lt (hc.1 l hl))
      · rw [wfFrom_cons]; exact ⟨hc.1, ‹_›, hc.2.2⟩
    · split
      · split
        · exact h
        · rw [wfFrom_cons, wfFrom_cons]
          refine ⟨hx, ‹_›, ?_, hc.2.1, hc.2.2⟩
          intro l hl; cases hl; assumption
      · rw [wfFrom_cons]
        refine ⟨hc.1, hc.2.1, ih (some a) hc.2.2 ?_⟩
        intro l hl; cases hl; omega

/-- Listing one byte keeps the canonical form. -/
theorem cellPut_wf {m : List Host.Cell} (x : Nat) (v : Byte) (h : wfFrom none m = true) : wfFrom none (cellPut m x v) = true :=
  cellPut_wfFrom m none x v h (by simp)

/-- A write of one byte keeps the canonical form. -/
theorem memPut_wf {m : DevMem} (x : Nat) (v : Byte) (h : Memory.wf m = true) : Memory.wf (memPut m x v) = true := cellPut_wf x v h

/-- A write of bytes keeps the canonical form. -/
theorem memPutAll_wf {m : DevMem} (x : Nat) (bs : List Byte) (h : Memory.wf m = true) :
    Memory.wf (memPutAll m x bs) = true := by
  induction bs generalizing m x with
  | nil => exact h
  | cons v r ih => exact ih (x + 1) (memPut_wf x v h)

/-- Writes one after another keep the canonical form. -/
theorem memPut_foldl_wf {α : Type} (a : α → Nat) (b : α → Byte) (l : List α) {m : DevMem} (h : Memory.wf m = true) :
    Memory.wf (l.foldl (fun m c => memPut m (a c) (b c)) m) = true := by
  induction l generalizing m with
  | nil => exact h
  | cons c r ih => exact ih (memPut_wf (a c) (b c) h)

/-- Bytes listed one after another keep the canonical form. -/
theorem cellPut_foldl_wf {α : Type} (a : α → Nat) (b : α → Byte) (l : List α) {m : List Host.Cell} (h : wfFrom none m = true) :
    wfFrom none (l.foldl (fun m c => cellPut m (a c) (b c)) m) = true := by
  induction l generalizing m with
  | nil => exact h
  | cons c r ih => exact ih (cellPut_wf (a c) (b c) h)

/-- Bytes listed no more keep the canonical form. -/
theorem cellErase_wf {m : List Host.Cell} (x n : Nat) (h : wfFrom none m = true) : wfFrom none (cellErase m x n) = true := by
  have key : ∀ (m : List Host.Cell) (lo : Option Nat), wfFrom lo m = true → wfFrom lo (cellErase m x n) = true := by
    intro m
    induction m with
    | nil => intro lo h; exact h
    | cons c r ih =>
      intro lo h; obtain ⟨a, b⟩ := c
      rw [wfFrom_cons] at h
      unfold cellErase; rw [List.filter_cons]; split
      · rw [wfFrom_cons]; exact ⟨h.1, h.2.1, ih _ h.2.2⟩
      · exact wfFrom_weaken (ih _ h.2.2) (fun l hl => Nat.le_of_lt (h.1 l hl))
  exact key m none h

/-- Erasing a range keeps the canonical form. -/
theorem memErase_wf {m : DevMem} (x n : Nat) (h : Memory.wf m = true) : Memory.wf (memErase m x n) = true := cellErase_wf x n h

/-- A range that becomes undefined keeps the canonical form. -/
theorem memBlur_wf {m : DevMem} (x n : Nat) (h : Memory.wf m = true) : Memory.wf (memBlur m x n) = true := cellErase_wf x n h

/-- A new address mapping keeps the canonical form. -/
theorem rehash_wf (old new f : List Nat) (m : DevMem) : Memory.wf (rehash old new f m) = true :=
  cellPut_foldl_wf _ _ m.cells rfl

/-- A byte below every listed address reads blank. -/
theorem cellGet_of_wfFrom (m : List Host.Cell) (x k : Nat) (hk : x ≤ k) (h : wfFrom (some k) m = true) : cellGet m x = memBlank := by
  cases m with
  | nil => rfl
  | cons c r =>
    obtain ⟨a, b⟩ := c
    have := ((wfFrom_cons _ a b r).1 h).1 k rfl
    unfold cellGet; grind

/-- A byte listed is found, and every other address is listed as before. -/
theorem cellGet_cellPut (m : List Host.Cell) (x y : Nat) (v : Byte) (h : wfFrom none m = true) :
    cellGet (cellPut m x v) y = if y = x then v else cellGet m y := by
  have key : ∀ (m : List Host.Cell) (lo : Option Nat), wfFrom lo m = true →
      cellGet (cellPut m x v) y = if y = x then v else cellGet m y := by
    intro m
    induction m with
    | nil => intro lo _; by_cases hv : v = memBlank <;> grind [cellGet, cellPut]
    | cons c r ih =>
      intro lo h; obtain ⟨a, b⟩ := c
      have hc := (wfFrom_cons lo a b r).1 h
      have hr := ih (some a) hc.2.2
      have hb := cellGet_of_wfFrom r a a (Nat.le_refl _) hc.2.2
      have hy : y ≤ a → cellGet r y = memBlank := fun hle => cellGet_of_wfFrom r y a hle hc.2.2
      grind [cellGet, cellPut]
  exact key m none h

/-- Bytes listed no more read blank, and the others as before. -/
theorem cellGet_cellErase (m : List Host.Cell) (x n y : Nat) (h : wfFrom none m = true) :
    cellGet (cellErase m x n) y = if x ≤ y ∧ y < x + n then memBlank else cellGet m y := by
  have key : ∀ (m : List Host.Cell) (lo : Option Nat), wfFrom lo m = true →
      cellGet (cellErase m x n) y = if x ≤ y ∧ y < x + n then memBlank else cellGet m y := by
    intro m
    induction m with
    | nil => intro lo _; simp [cellErase, cellGet]
    | cons c r ih =>
      intro lo h; obtain ⟨a, b⟩ := c
      have hc := (wfFrom_cons lo a b r).1 h
      have hr := ih (some a) hc.2.2
      have hy : y ≤ a → cellGet r y = memBlank := fun hle => cellGet_of_wfFrom r y a hle hc.2.2
      simp only [cellErase, List.filter_cons] at hr ⊢
      split <;> grind [cellGet]
  exact key m none h

/-- What a range loses: an address outside the range cut out stays where it was. -/
theorem find_without (l : List Vague) (x n y : Nat) :
    ((l.flatMap (Vague.without x n)).find? (·.has y)).map (·.draw) =
      if x ≤ y ∧ y < x + n then none else (l.find? (·.has y)).map (·.draw) := by
  induction l with
  | nil => simp
  | cons v r ih =>
    rw [List.flatMap_cons, List.find?_append, List.find?_cons]
    have key : ((Vague.without x n v).find? (·.has y)).map (·.draw) =
        if (x ≤ y ∧ y < x + n) ∨ v.has y = false then none else some v.draw := by
      unfold Vague.without
      by_cases h1 : v.first + v.len ≤ x ∨ x + n ≤ v.first
      · simp only [if_pos h1, List.find?_cons, List.find?_nil]
        by_cases hv : v.has y = true <;> simp [Vague.has] at hv ⊢ <;> grind
      · simp only [if_neg h1]
        split <;> split <;> simp [Vague.has, List.find?_cons] <;> grind
    grind

/-- The byte at an address, by the draw of the undefined range that holds it. -/
theorem memGet_eq (m : DevMem) (y : Nat) :
    memGet m y = match (m.vague.find? (·.has y)).map (·.draw) with
      | some d => Config.undefByte d y
      | none => cellGet m.cells y := by
  unfold memGet; cases m.vague.find? (·.has y) <;> rfl

/-- A byte written is read back, and every other byte reads as before. -/
theorem memGet_memPut (m : DevMem) (x y : Nat) (v : Byte) (h : Memory.wf m = true) :
    memGet (memPut m x v) y = if y = x then v else memGet m y := by
  rw [memGet_eq, memGet_eq]
  simp only [memPut, find_without, cellGet_cellPut _ _ _ _ h]
  by_cases hy : y = x
  · simp [hy]
  · have : ¬ (x ≤ y ∧ y < x + 1) := by omega
    simp only [if_neg this, if_neg hy]

/-- An undefined range reads as free bytes of its own draw, and every other byte as before. -/
theorem memGet_memBlur (m : DevMem) (x n y : Nat) (h : Memory.wf m = true) :
    memGet (memBlur m x n) y = if x ≤ y ∧ y < x + n then Config.undefByte m.draws y else memGet m y := by
  rw [memGet_eq, memGet_eq]
  simp only [memBlur, List.find?_cons, cellGet_cellErase _ _ _ _ h]
  by_cases hy : x ≤ y ∧ y < x + n
  · have : (Vague.mk x n m.draws).has y = true := by simp [Vague.has]; omega
    simp [this, hy]
  · have : (Vague.mk x n m.draws).has y = false := by simp [Vague.has]; omega
    simp only [this, find_without, if_neg hy]

end Sys2Proof.Machine
end

