-- ==== Sys2Proof/Laws/Fit.lean ====
section
/-! SUPPORT. What an operation touches, in a form that composes: `Fit L s0 x` says that `x` carries on the invariant of `s0` and
differs from it in no part outside the mask `L`. -/

namespace Sys2Proof.Machine

/-- The bit of a part in a mask. -/
def Part.bit : Part → Nat
  | .pending => 0
  | .out => 1
  | .free => 2
  | .par => 3
  | .parPend => 4
  | .time => 5
  | .mode => 6
  | .pwr => 7
  | .thm => 8
  | .buf => 9
  | .cmd => 10
  | .evt => 11
  | .mem => 12
  | .pnl => 13
  | .scene => 14
  | .cdc => 15
  | .syn => 16
  | .cam => 17
  | .scn => 18
  | .plk => 19
  | .std => 20
  | .dmc => 21
  | .net => 22
  | .sbd => 23
  | .nv => 24
  | .cal => 25
  | .bst => 26
  | .sec => 27
  | .hwd => 28

/-- Every part. -/
def partList : List Part := [.pending, .out, .free, .par, .parPend, .time, .mode, .pwr, .thm, .buf, .cmd, .evt, .mem, .pnl, .scene, .cdc, .syn, .cam, .scn, .plk, .std, .dmc, .net, .sbd, .nv, .cal, .bst, .sec, .hwd]

/-- A mask lies within another. -/
abbrev In (a b : Nat) : Prop := a &&& b = a

theorem In.bit {a b k : Nat} (h : In a b) (hk : a.testBit k = true) : b.testBit k = true := by
  rw [← h, Nat.testBit_and] at hk
  exact (Bool.and_eq_true _ _ ▸ hk).2

theorem In.trans {a b c : Nat} (h : In a b) (k : In b c) : In a c := by
  unfold In at *
  rw [← h, Nat.and_assoc, k]

/-- `x` carries on the invariant of `s0` and differs from it in no part outside the mask. -/
def Fit (L : Nat) (s0 x : State) : Prop := (Inv s0 → Inv x) ∧ ∀ p : Part, L.testBit p.bit = false → sameIn p s0 x

/-- What a row's samples and effect touch. -/
def RowFit (L : Nat) (r : Row) : Prop := (∀ s0 s, Fit L s0 s → Fit L s0 (r.pre s)) ∧ ∀ s0 s, Fit L s0 s → Fit L s0 (r.run s)

theorem Fit.refl (L : Nat) (s : State) : Fit L s s := ⟨id, fun p _ => by cases p <;> rfl⟩

/-- Every part of a mask is in a list. -/
def maskCovers (L : Nat) (l : List Part) : Bool := partList.all (fun p => l.contains p || !L.testBit p.bit)

/-- The parts outside the mask are kept. -/
theorem Fit.keeps {L : Nat} {s t : State} (h : Fit L s t) {l : List Part} (hl : maskCovers L l = true) : Keeps l s t := by
  intro p hp
  have hm : p ∈ partList := by cases p <;> decide
  have := List.all_eq_true.1 hl p hm
  simp only [Bool.or_eq_true, List.contains_iff_mem, Bool.not_eq_true'] at this
  exact h.2 p (this.resolve_left hp)

theorem Fit.inv {L : Nat} {s t : State} (h : Fit L s t) (hi : Inv s) : Inv t := h.1 hi

theorem Fit.ite {L : Nat} {s0 : State} {c : Prop} [Decidable c] {a b : State} (ha : c → Fit L s0 a) (hb : ¬c → Fit L s0 b) :
    Fit L s0 (if c then a else b) := by
  split
  · exact ha ‹_›
  · exact hb ‹_›

theorem Fit.foldl {α : Type} {L : Nat} {s0 : State} {f : State → α → State} {l : List α} {s : State} (h : Fit L s0 s)
    (hf : ∀ s x, Fit L s0 s → Fit L s0 (f s x)) : Fit L s0 (l.foldl f s) := by
  induction l generalizing s with
  | nil => exact h
  | cons x r ih => exact ih (hf s x h)

theorem Fit.of_snd {α : Type} {L : Nat} {s0 : State} {p : α × State} {a : α} {s : State} (e : p = (a, s)) (h : Fit L s0 p.2) :
    Fit L s0 s := by subst e; exact h

theorem Fit.of_fst {α : Type} {L : Nat} {s0 : State} {p : State × α} {a : α} {s : State} (e : p = (s, a)) (h : Fit L s0 p.1) :
    Fit L s0 s := by subst e; exact h

theorem Fit.seq (L : Nat) (s0 x : State) {P : Prop} (hx : Fit L s0 x) (k : Fit L s0 x → P) : P := k hx

theorem ok_fit {L : Nat} {s0 s : State} (h : Fit L s0 s) : ∀ t, ok s = .next t → Fit L s0 t := by
  intro t e; cases e; exact h

theorem Fit.upd_out {L : Nat} {s0 x : State} {a0} (hb : In 0x2 L) (h : Fit L s0 x) :
    Fit L s0 { x with out := a0 } := by
  refine ⟨fun i => have k := h.1 i; ⟨k.1, k.2.1, k.2.2.1, k.2.2.2⟩, fun p hp => ?_⟩
  cases p <;> first | exact h.2 _ hp | exact absurd (hb.bit rfl) (by rw [hp]; exact Bool.false_ne_true)

theorem Fit.upd_free {L : Nat} {s0 x : State} {a0} (hb : In 0x4 L) (h : Fit L s0 x) :
    Fit L s0 { x with free := a0 } := by
  refine ⟨fun i => have k := h.1 i; ⟨k.1, k.2.1, k.2.2.1, k.2.2.2⟩, fun p hp => ?_⟩
  cases p <;> first | exact h.2 _ hp | exact absurd (hb.bit rfl) (by rw [hp]; exact Bool.false_ne_true)

theorem Fit.upd_par {L : Nat} {s0 x : State} {a0} (hb : In 0x8 L) (h : Fit L s0 x) :
    Fit L s0 { x with par := a0 } := by
  refine ⟨fun i => have k := h.1 i; ⟨k.1, k.2.1, k.2.2.1, k.2.2.2⟩, fun p hp => ?_⟩
  cases p <;> first | exact h.2 _ hp | exact absurd (hb.bit rfl) (by rw [hp]; exact Bool.false_ne_true)

theorem Fit.upd_par_parPend {L : Nat} {s0 x : State} {a0 a1} (hb : In 0x18 L) (h : Fit L s0 x) :
    Fit L s0 { x with par := a0, parPend := a1 } := by
  refine ⟨fun i => have k := h.1 i; ⟨k.1, k.2.1, k.2.2.1, k.2.2.2⟩, fun p hp => ?_⟩
  cases p <;> first | exact h.2 _ hp | exact absurd (hb.bit rfl) (by rw [hp]; exact Bool.false_ne_true)

theorem Fit.upd_parPend {L : Nat} {s0 x : State} {a0} (hb : In 0x10 L) (h : Fit L s0 x) :
    Fit L s0 { x with parPend := a0 } := by
  refine ⟨fun i => have k := h.1 i; ⟨k.1, k.2.1, k.2.2.1, k.2.2.2⟩, fun p hp => ?_⟩
  cases p <;> first | exact h.2 _ hp | exact absurd (hb.bit rfl) (by rw [hp]; exact Bool.false_ne_true)

theorem Fit.upd_time {L : Nat} {s0 x : State} {a0} (hb : In 0x20 L) (h : Fit L s0 x) :
    Fit L s0 { x with time := a0 } := by
  refine ⟨fun i => have k := h.1 i; ⟨k.1, k.2.1, k.2.2.1, k.2.2.2⟩, fun p hp => ?_⟩
  cases p <;> first | exact h.2 _ hp | exact absurd (hb.bit rfl) (by rw [hp]; exact Bool.false_ne_true)

theorem Fit.upd_time_mode_pwr_thm_buf_cmd_evt_mem_pnl_scene_cdc_syn_cam_scn_plk_std_dmc_net_cal_bst_sec {L : Nat} {s0 x : State} {a0 a1 a2 a3 a4 a5 a6 a7 a8 a9 a10 a11 a12 a13 a14 a15 a16 a17 a18 a19 a20} (hb : In 0xE7FFFE0 L) (h : Fit L s0 x) (hm : Inv s0 → Memory.wf a7 = true) (hk : a5.sbKept = x.cmd.sbKept)
    (hh : a6.history = x.evt.history) (he : a6.evseq = x.evt.evseq) :
    Fit L s0 { x with time := a0, mode := a1, pwr := a2, thm := a3, buf := a4, cmd := a5, evt := a6, mem := a7, pnl := a8, scene := a9, cdc := a10, syn := a11, cam := a12, scn := a13, plk := a14, std := a15, dmc := a16, net := a17, cal := a18, bst := a19, sec := a20 } := by
  refine ⟨fun i => have k := h.1 i; ⟨hm i, hh ▸ k.2.1, hk ▸ k.2.2.1, he ▸ k.2.2.2⟩, fun p hp => ?_⟩
  cases p <;> first | exact h.2 _ hp | exact absurd (hb.bit rfl) (by rw [hp]; exact Bool.false_ne_true)

theorem Fit.upd_time_mode_evt_pnl_plk_cal_bst_sec {L : Nat} {s0 x : State} {a0 a1 a2 a3 a4 a5 a6 a7} (hb : In 0xE082860 L) (h : Fit L s0 x)
    (hh : a2.history = x.evt.history) (he : a2.evseq = x.evt.evseq) :
    Fit L s0 { x with time := a0, mode := a1, evt := a2, pnl := a3, plk := a4, cal := a5, bst := a6, sec := a7 } := by
  refine ⟨fun i => have k := h.1 i; ⟨k.1, hh ▸ k.2.1, k.2.2.1, he ▸ k.2.2.2⟩, fun p hp => ?_⟩
  cases p <;> first | exact h.2 _ hp | exact absurd (hb.bit rfl) (by rw [hp]; exact Bool.false_ne_true)

theorem Fit.upd_time_evt_nv_sec {L : Nat} {s0 x : State} {a0 a1 a2 a3} (hb : In 0x9000820 L) (h : Fit L s0 x)
    (hh : a1.history = x.evt.history) (he : a1.evseq = x.evt.evseq) :
    Fit L s0 { x with time := a0, evt := a1, nv := a2, sec := a3 } := by
  refine ⟨fun i => have k := h.1 i; ⟨k.1, hh ▸ k.2.1, k.2.2.1, he ▸ k.2.2.2⟩, fun p hp => ?_⟩
  cases p <;> first | exact h.2 _ hp | exact absurd (hb.bit rfl) (by rw [hp]; exact Bool.false_ne_true)

theorem Fit.upd_mode {L : Nat} {s0 x : State} {a0} (hb : In 0x40 L) (h : Fit L s0 x) :
    Fit L s0 { x with mode := a0 } := by
  refine ⟨fun i => have k := h.1 i; ⟨k.1, k.2.1, k.2.2.1, k.2.2.2⟩, fun p hp => ?_⟩
  cases p <;> first | exact h.2 _ hp | exact absurd (hb.bit rfl) (by rw [hp]; exact Bool.false_ne_true)

theorem Fit.upd_pwr {L : Nat} {s0 x : State} {a0} (hb : In 0x80 L) (h : Fit L s0 x) :
    Fit L s0 { x with pwr := a0 } := by
  refine ⟨fun i => have k := h.1 i; ⟨k.1, k.2.1, k.2.2.1, k.2.2.2⟩, fun p hp => ?_⟩
  cases p <;> first | exact h.2 _ hp | exact absurd (hb.bit rfl) (by rw [hp]; exact Bool.false_ne_true)

theorem Fit.upd_thm {L : Nat} {s0 x : State} {a0} (hb : In 0x100 L) (h : Fit L s0 x) :
    Fit L s0 { x with thm := a0 } := by
  refine ⟨fun i => have k := h.1 i; ⟨k.1, k.2.1, k.2.2.1, k.2.2.2⟩, fun p hp => ?_⟩
  cases p <;> first | exact h.2 _ hp | exact absurd (hb.bit rfl) (by rw [hp]; exact Bool.false_ne_true)

theorem Fit.upd_buf {L : Nat} {s0 x : State} {a0} (hb : In 0x200 L) (h : Fit L s0 x) :
    Fit L s0 { x with buf := a0 } := by
  refine ⟨fun i => have k := h.1 i; ⟨k.1, k.2.1, k.2.2.1, k.2.2.2⟩, fun p hp => ?_⟩
  cases p <;> first | exact h.2 _ hp | exact absurd (hb.bit rfl) (by rw [hp]; exact Bool.false_ne_true)

theorem Fit.upd_buf_cmd {L : Nat} {s0 x : State} {a0 a1} (hb : In 0x600 L) (h : Fit L s0 x) (hk : a1.sbKept = x.cmd.sbKept) :
    Fit L s0 { x with buf := a0, cmd := a1 } := by
  refine ⟨fun i => have k := h.1 i; ⟨k.1, k.2.1, hk ▸ k.2.2.1, k.2.2.2⟩, fun p hp => ?_⟩
  cases p <;> first | exact h.2 _ hp | exact absurd (hb.bit rfl) (by rw [hp]; exact Bool.false_ne_true)

theorem Fit.upd_cmd {L : Nat} {s0 x : State} {a0} (hb : In 0x400 L) (h : Fit L s0 x) (hk : a0.sbKept = x.cmd.sbKept) :
    Fit L s0 { x with cmd := a0 } := by
  refine ⟨fun i => have k := h.1 i; ⟨k.1, k.2.1, hk ▸ k.2.2.1, k.2.2.2⟩, fun p hp => ?_⟩
  cases p <;> first | exact h.2 _ hp | exact absurd (hb.bit rfl) (by rw [hp]; exact Bool.false_ne_true)

theorem Fit.upd_cmd_evt {L : Nat} {s0 x : State} {a0 a1} (hb : In 0xC00 L) (h : Fit L s0 x) (hk : a0.sbKept = x.cmd.sbKept)
    (hh : a1.history = x.evt.history) (he : a1.evseq = x.evt.evseq) :
    Fit L s0 { x with cmd := a0, evt := a1 } := by
  refine ⟨fun i => have k := h.1 i; ⟨k.1, hh ▸ k.2.1, hk ▸ k.2.2.1, he ▸ k.2.2.2⟩, fun p hp => ?_⟩
  cases p <;> first | exact h.2 _ hp | exact absurd (hb.bit rfl) (by rw [hp]; exact Bool.false_ne_true)

theorem Fit.upd_cmd_cam_plk_dmc {L : Nat} {s0 x : State} {a0 a1 a2 a3} (hb : In 0x2A0400 L) (h : Fit L s0 x) (hk : a0.sbKept = x.cmd.sbKept) :
    Fit L s0 { x with cmd := a0, cam := a1, plk := a2, dmc := a3 } := by
  refine ⟨fun i => have k := h.1 i; ⟨k.1, k.2.1, hk ▸ k.2.2.1, k.2.2.2⟩, fun p hp => ?_⟩
  cases p <;> first | exact h.2 _ hp | exact absurd (hb.bit rfl) (by rw [hp]; exact Bool.false_ne_true)

theorem Fit.upd_cmd_sbd {L : Nat} {s0 x : State} {a0 a1} (hb : In 0x800400 L) (h : Fit L s0 x) (hk : a0.sbKept = x.cmd.sbKept) :
    Fit L s0 { x with cmd := a0, sbd := a1 } := by
  refine ⟨fun i => have k := h.1 i; ⟨k.1, k.2.1, hk ▸ k.2.2.1, k.2.2.2⟩, fun p hp => ?_⟩
  cases p <;> first | exact h.2 _ hp | exact absurd (hb.bit rfl) (by rw [hp]; exact Bool.false_ne_true)

theorem Fit.upd_cmd_nv {L : Nat} {s0 x : State} {a0 a1} (hb : In 0x1000400 L) (h : Fit L s0 x) (hk : a0.sbKept = x.cmd.sbKept) :
    Fit L s0 { x with cmd := a0, nv := a1 } := by
  refine ⟨fun i => have k := h.1 i; ⟨k.1, k.2.1, hk ▸ k.2.2.1, k.2.2.2⟩, fun p hp => ?_⟩
  cases p <;> first | exact h.2 _ hp | exact absurd (hb.bit rfl) (by rw [hp]; exact Bool.false_ne_true)

theorem Fit.upd_cmd_bst {L : Nat} {s0 x : State} {a0 a1} (hb : In 0x4000400 L) (h : Fit L s0 x) (hk : a0.sbKept = x.cmd.sbKept) :
    Fit L s0 { x with cmd := a0, bst := a1 } := by
  refine ⟨fun i => have k := h.1 i; ⟨k.1, k.2.1, hk ▸ k.2.2.1, k.2.2.2⟩, fun p hp => ?_⟩
  cases p <;> first | exact h.2 _ hp | exact absurd (hb.bit rfl) (by rw [hp]; exact Bool.false_ne_true)

theorem Fit.upd_evt {L : Nat} {s0 x : State} {a0} (hb : In 0x800 L) (h : Fit L s0 x)
    (hh : a0.history = x.evt.history) (he : a0.evseq = x.evt.evseq) :
    Fit L s0 { x with evt := a0 } := by
  refine ⟨fun i => have k := h.1 i; ⟨k.1, hh ▸ k.2.1, k.2.2.1, he ▸ k.2.2.2⟩, fun p hp => ?_⟩
  cases p <;> first | exact h.2 _ hp | exact absurd (hb.bit rfl) (by rw [hp]; exact Bool.false_ne_true)

theorem Fit.upd_mem {L : Nat} {s0 x : State} {a0} (hb : In 0x1000 L) (h : Fit L s0 x) (hm : Inv s0 → Memory.wf a0 = true) :
    Fit L s0 { x with mem := a0 } := by
  refine ⟨fun i => have k := h.1 i; ⟨hm i, k.2.1, k.2.2.1, k.2.2.2⟩, fun p hp => ?_⟩
  cases p <;> first | exact h.2 _ hp | exact absurd (hb.bit rfl) (by rw [hp]; exact Bool.false_ne_true)

theorem Fit.upd_mem_pnl {L : Nat} {s0 x : State} {a0 a1} (hb : In 0x3000 L) (h : Fit L s0 x) (hm : Inv s0 → Memory.wf a0 = true) :
    Fit L s0 { x with mem := a0, pnl := a1 } := by
  refine ⟨fun i => have k := h.1 i; ⟨hm i, k.2.1, k.2.2.1, k.2.2.2⟩, fun p hp => ?_⟩
  cases p <;> first | exact h.2 _ hp | exact absurd (hb.bit rfl) (by rw [hp]; exact Bool.false_ne_true)

theorem Fit.upd_mem_dmc {L : Nat} {s0 x : State} {a0 a1} (hb : In 0x201000 L) (h : Fit L s0 x) (hm : Inv s0 → Memory.wf a0 = true) :
    Fit L s0 { x with mem := a0, dmc := a1 } := by
  refine ⟨fun i => have k := h.1 i; ⟨hm i, k.2.1, k.2.2.1, k.2.2.2⟩, fun p hp => ?_⟩
  cases p <;> first | exact h.2 _ hp | exact absurd (hb.bit rfl) (by rw [hp]; exact Bool.false_ne_true)

theorem Fit.upd_pnl {L : Nat} {s0 x : State} {a0} (hb : In 0x2000 L) (h : Fit L s0 x) :
    Fit L s0 { x with pnl := a0 } := by
  refine ⟨fun i => have k := h.1 i; ⟨k.1, k.2.1, k.2.2.1, k.2.2.2⟩, fun p hp => ?_⟩
  cases p <;> first | exact h.2 _ hp | exact absurd (hb.bit rfl) (by rw [hp]; exact Bool.false_ne_true)

theorem Fit.upd_scene {L : Nat} {s0 x : State} {a0} (hb : In 0x4000 L) (h : Fit L s0 x) :
    Fit L s0 { x with scene := a0 } := by
  refine ⟨fun i => have k := h.1 i; ⟨k.1, k.2.1, k.2.2.1, k.2.2.2⟩, fun p hp => ?_⟩
  cases p <;> first | exact h.2 _ hp | exact absurd (hb.bit rfl) (by rw [hp]; exact Bool.false_ne_true)

theorem Fit.upd_scene_cdc_syn_cam_scn {L : Nat} {s0 x : State} {a0 a1 a2 a3 a4} (hb : In 0x7C000 L) (h : Fit L s0 x) :
    Fit L s0 { x with scene := a0, cdc := a1, syn := a2, cam := a3, scn := a4 } := by
  refine ⟨fun i => have k := h.1 i; ⟨k.1, k.2.1, k.2.2.1, k.2.2.2⟩, fun p hp => ?_⟩
  cases p <;> first | exact h.2 _ hp | exact absurd (hb.bit rfl) (by rw [hp]; exact Bool.false_ne_true)

theorem Fit.upd_cdc {L : Nat} {s0 x : State} {a0} (hb : In 0x8000 L) (h : Fit L s0 x) :
    Fit L s0 { x with cdc := a0 } := by
  refine ⟨fun i => have k := h.1 i; ⟨k.1, k.2.1, k.2.2.1, k.2.2.2⟩, fun p hp => ?_⟩
  cases p <;> first | exact h.2 _ hp | exact absurd (hb.bit rfl) (by rw [hp]; exact Bool.false_ne_true)

theorem Fit.upd_syn {L : Nat} {s0 x : State} {a0} (hb : In 0x10000 L) (h : Fit L s0 x) :
    Fit L s0 { x with syn := a0 } := by
  refine ⟨fun i => have k := h.1 i; ⟨k.1, k.2.1, k.2.2.1, k.2.2.2⟩, fun p hp => ?_⟩
  cases p <;> first | exact h.2 _ hp | exact absurd (hb.bit rfl) (by rw [hp]; exact Bool.false_ne_true)

theorem Fit.upd_cam {L : Nat} {s0 x : State} {a0} (hb : In 0x20000 L) (h : Fit L s0 x) :
    Fit L s0 { x with cam := a0 } := by
  refine ⟨fun i => have k := h.1 i; ⟨k.1, k.2.1, k.2.2.1, k.2.2.2⟩, fun p hp => ?_⟩
  cases p <;> first | exact h.2 _ hp | exact absurd (hb.bit rfl) (by rw [hp]; exact Bool.false_ne_true)

theorem Fit.upd_scn {L : Nat} {s0 x : State} {a0} (hb : In 0x40000 L) (h : Fit L s0 x) :
    Fit L s0 { x with scn := a0 } := by
  refine ⟨fun i => have k := h.1 i; ⟨k.1, k.2.1, k.2.2.1, k.2.2.2⟩, fun p hp => ?_⟩
  cases p <;> first | exact h.2 _ hp | exact absurd (hb.bit rfl) (by rw [hp]; exact Bool.false_ne_true)

theorem Fit.upd_plk {L : Nat} {s0 x : State} {a0} (hb : In 0x80000 L) (h : Fit L s0 x) :
    Fit L s0 { x with plk := a0 } := by
  refine ⟨fun i => have k := h.1 i; ⟨k.1, k.2.1, k.2.2.1, k.2.2.2⟩, fun p hp => ?_⟩
  cases p <;> first | exact h.2 _ hp | exact absurd (hb.bit rfl) (by rw [hp]; exact Bool.false_ne_true)

theorem Fit.upd_std {L : Nat} {s0 x : State} {a0} (hb : In 0x100000 L) (h : Fit L s0 x) :
    Fit L s0 { x with std := a0 } := by
  refine ⟨fun i => have k := h.1 i; ⟨k.1, k.2.1, k.2.2.1, k.2.2.2⟩, fun p hp => ?_⟩
  cases p <;> first | exact h.2 _ hp | exact absurd (hb.bit rfl) (by rw [hp]; exact Bool.false_ne_true)

theorem Fit.upd_dmc {L : Nat} {s0 x : State} {a0} (hb : In 0x200000 L) (h : Fit L s0 x) :
    Fit L s0 { x with dmc := a0 } := by
  refine ⟨fun i => have k := h.1 i; ⟨k.1, k.2.1, k.2.2.1, k.2.2.2⟩, fun p hp => ?_⟩
  cases p <;> first | exact h.2 _ hp | exact absurd (hb.bit rfl) (by rw [hp]; exact Bool.false_ne_true)

theorem Fit.upd_dmc_cal {L : Nat} {s0 x : State} {a0 a1} (hb : In 0x2200000 L) (h : Fit L s0 x) :
    Fit L s0 { x with dmc := a0, cal := a1 } := by
  refine ⟨fun i => have k := h.1 i; ⟨k.1, k.2.1, k.2.2.1, k.2.2.2⟩, fun p hp => ?_⟩
  cases p <;> first | exact h.2 _ hp | exact absurd (hb.bit rfl) (by rw [hp]; exact Bool.false_ne_true)

theorem Fit.upd_net {L : Nat} {s0 x : State} {a0} (hb : In 0x400000 L) (h : Fit L s0 x) :
    Fit L s0 { x with net := a0 } := by
  refine ⟨fun i => have k := h.1 i; ⟨k.1, k.2.1, k.2.2.1, k.2.2.2⟩, fun p hp => ?_⟩
  cases p <;> first | exact h.2 _ hp | exact absurd (hb.bit rfl) (by rw [hp]; exact Bool.false_ne_true)

theorem Fit.upd_sbd {L : Nat} {s0 x : State} {a0} (hb : In 0x800000 L) (h : Fit L s0 x) :
    Fit L s0 { x with sbd := a0 } := by
  refine ⟨fun i => have k := h.1 i; ⟨k.1, k.2.1, k.2.2.1, k.2.2.2⟩, fun p hp => ?_⟩
  cases p <;> first | exact h.2 _ hp | exact absurd (hb.bit rfl) (by rw [hp]; exact Bool.false_ne_true)

theorem Fit.upd_nv {L : Nat} {s0 x : State} {a0} (hb : In 0x1000000 L) (h : Fit L s0 x) :
    Fit L s0 { x with nv := a0 } := by
  refine ⟨fun i => have k := h.1 i; ⟨k.1, k.2.1, k.2.2.1, k.2.2.2⟩, fun p hp => ?_⟩
  cases p <;> first | exact h.2 _ hp | exact absurd (hb.bit rfl) (by rw [hp]; exact Bool.false_ne_true)

theorem Fit.upd_nv_sec {L : Nat} {s0 x : State} {a0 a1} (hb : In 0x9000000 L) (h : Fit L s0 x) :
    Fit L s0 { x with nv := a0, sec := a1 } := by
  refine ⟨fun i => have k := h.1 i; ⟨k.1, k.2.1, k.2.2.1, k.2.2.2⟩, fun p hp => ?_⟩
  cases p <;> first | exact h.2 _ hp | exact absurd (hb.bit rfl) (by rw [hp]; exact Bool.false_ne_true)

theorem Fit.upd_cal {L : Nat} {s0 x : State} {a0} (hb : In 0x2000000 L) (h : Fit L s0 x) :
    Fit L s0 { x with cal := a0 } := by
  refine ⟨fun i => have k := h.1 i; ⟨k.1, k.2.1, k.2.2.1, k.2.2.2⟩, fun p hp => ?_⟩
  cases p <;> first | exact h.2 _ hp | exact absurd (hb.bit rfl) (by rw [hp]; exact Bool.false_ne_true)

theorem Fit.upd_bst {L : Nat} {s0 x : State} {a0} (hb : In 0x4000000 L) (h : Fit L s0 x) :
    Fit L s0 { x with bst := a0 } := by
  refine ⟨fun i => have k := h.1 i; ⟨k.1, k.2.1, k.2.2.1, k.2.2.2⟩, fun p hp => ?_⟩
  cases p <;> first | exact h.2 _ hp | exact absurd (hb.bit rfl) (by rw [hp]; exact Bool.false_ne_true)

theorem Fit.upd_sec {L : Nat} {s0 x : State} {a0} (hb : In 0x8000000 L) (h : Fit L s0 x) :
    Fit L s0 { x with sec := a0 } := by
  refine ⟨fun i => have k := h.1 i; ⟨k.1, k.2.1, k.2.2.1, k.2.2.2⟩, fun p hp => ?_⟩
  cases p <;> first | exact h.2 _ hp | exact absurd (hb.bit rfl) (by rw [hp]; exact Bool.false_ne_true)

theorem Fit.upd_hwd {L : Nat} {s0 x : State} {a0} (hb : In 0x10000000 L) (h : Fit L s0 x) :
    Fit L s0 { x with hwd := a0 } := by
  refine ⟨fun i => have k := h.1 i; ⟨k.1, k.2.1, k.2.2.1, k.2.2.2⟩, fun p hp => ?_⟩
  cases p <;> first | exact h.2 _ hp | exact absurd (hb.bit rfl) (by rw [hp]; exact Bool.false_ne_true)

theorem Fit.erase {L : Nat} {s0 x : State} {a n : Nat} (hb : In 0x1000 L) (h : Fit L s0 x) :
    Fit L s0 { x with mem := memErase x.mem a n } := Fit.upd_mem hb h (fun i => memErase_wf _ _ (h.1 i).1)

theorem Fit.puts {L : Nat} {s0 x : State} {l : List (Nat × Byte)} (hb : In 0x1000 L) (h : Fit L s0 x) :
    Fit L s0 { x with mem := l.foldl (fun m e => memPut m e.1 e.2) x.mem } :=
  Fit.upd_mem hb h (fun i => memPut_foldl_wf _ _ _ (h.1 i).1)

end Sys2Proof.Machine
end

