-- ==== Sys2Proof/Laws/FitOps.lean ====
section
/-! SUPPORT. What each definition of Machine/Ops.lean touches, and that it keeps the invariant: one lemma each. -/

set_option Elab.async false
set_option linter.all false

namespace Sys2Proof.Machine

theorem hostTouch_fit {L : Nat} {s0 : State} {s : State} (hL : In 0x400 L) (h0 : Fit L s0 s) :
    Fit L s0 (hostTouch s) := by
  unfold hostTouch
  repeat' (first
    | with_reducible assumption
    | (extract_lets +onlyGivenNames x; have y := x; first | (guard_hyp y : State; clear y; refine Fit.seq L s0 x ?_ ?_; rotate_left; intro hx; clear_value x; rotate_left; dsimp -zeta only [x]; clear x) | (guard_hyp y : CmdSt; clear y; dsimp -zeta only [x]; clear x) | (clear y; clear_value x))
    | (with_reducible apply Fit.upd_cmd (In.trans (by decide) hL); rotate_left; with_reducible rfl; first | (with_reducible apply Fit.ite <;> intro _) | (fail_if_success split)))

theorem emit_fit {L : Nat} {s0 : State} {o : Out} {s : State} (hL : In 0x402 L) (h0 : Fit L s0 s) :
    Fit L s0 (emit o s) := by
  unfold emit
  repeat' (first
    | with_reducible assumption
    | (extract_lets +onlyGivenNames x; have y := x; first | (guard_hyp y : State; clear y; refine Fit.seq L s0 x ?_ ?_; rotate_left; intro hx; clear_value x; rotate_left; dsimp -zeta only [x]; clear x) | (clear y; clear_value x))
    | with_reducible apply hostTouch_fit (In.trans (by decide) hL)
    | (with_reducible apply Fit.ite <;> intro _)
    | (with_reducible apply Fit.upd_out (In.trans (by decide) hL); first | (with_reducible apply Fit.ite <;> intro _) | (fail_if_success split)))

theorem drawn_fit {L : Nat} {s0 : State} {s : State} (hL : In 0x4 L) (h0 : Fit L s0 s) :
    Fit L s0 (drawn s) := by
  unfold drawn
  repeat' (first
    | with_reducible assumption
    | (extract_lets +onlyGivenNames x; have y := x; first | (guard_hyp y : State; clear y; refine Fit.seq L s0 x ?_ ?_; rotate_left; intro hx; clear_value x; rotate_left; dsimp -zeta only [x]; clear x) | (clear y; clear_value x))
    | (with_reducible apply Fit.upd_free (In.trans (by decide) hL); first | (with_reducible apply Fit.ite <;> intro _) | (fail_if_success split)))

theorem ticks_fit {L : Nat} {s0 : State} {n : Nat} {s : State} (hL : In 0x20 L) (h0 : Fit L s0 s) :
    Fit L s0 (ticks n s) := by
  unfold ticks
  repeat' (first
    | with_reducible assumption
    | (extract_lets +onlyGivenNames x; have y := x; first | (guard_hyp y : State; clear y; refine Fit.seq L s0 x ?_ ?_; rotate_left; intro hx; clear_value x; rotate_left; dsimp -zeta only [x]; clear x) | (clear y; clear_value x))
    | (with_reducible apply Fit.upd_time (In.trans (by decide) hL); first | (with_reducible apply Fit.ite <;> intro _) | (fail_if_success split)))

theorem advanceMer_fit {L : Nat} {s0 : State} {t : Nat} {s : State} (hL : In 0x20 L) (h0 : Fit L s0 s) :
    Fit L s0 (advanceMer t s) := by
  unfold advanceMer
  repeat' (first
    | with_reducible assumption
    | (extract_lets +onlyGivenNames x; have y := x; first | (guard_hyp y : State; clear y; refine Fit.seq L s0 x ?_ ?_; rotate_left; intro hx; clear_value x; rotate_left; dsimp -zeta only [x]; clear x) | (clear y; clear_value x))
    | (with_reducible apply Fit.ite <;> intro _)
    | (with_reducible apply Fit.upd_time (In.trans (by decide) hL); first | (with_reducible apply Fit.ite <;> intro _) | (fail_if_success split)))

theorem advanceRef_fit {L : Nat} {s0 : State} {r : Nat} {s : State} (hL : In 0x20 L) (h0 : Fit L s0 s) :
    Fit L s0 (advanceRef r s) := by
  unfold advanceRef
  repeat' (first
    | with_reducible assumption
    | with_reducible apply ticks_fit (In.trans (by decide) hL)
    | (with_reducible apply Fit.ite <;> intro _))

theorem pSet_fit {L : Nat} {s0 : State} {id v : Nat} {s : State} (hL : In 0x8 L) (h0 : Fit L s0 s) :
    Fit L s0 (pSet id v s) := by
  unfold pSet
  repeat' (first
    | with_reducible assumption
    | (extract_lets +onlyGivenNames x; have y := x; first | (guard_hyp y : State; clear y; refine Fit.seq L s0 x ?_ ?_; rotate_left; intro hx; clear_value x; rotate_left; dsimp -zeta only [x]; clear x) | (clear y; clear_value x))
    | (with_reducible apply Fit.ite <;> intro _)
    | (with_reducible apply Fit.upd_par (In.trans (by decide) hL); first | (with_reducible apply Fit.ite <;> intro _) | (fail_if_success split)))

theorem pApply_fit {L : Nat} {s0 : State} {eff : Nat} {s : State} (hL : In 0x18 L) (h0 : Fit L s0 s) :
    Fit L s0 (pApply eff s) := by
  unfold pApply
  repeat' (first
    | with_reducible assumption
    | intro _
    | (extract_lets +onlyGivenNames x; have y := x; first | (guard_hyp y : State; clear y; refine Fit.seq L s0 x ?_ ?_; rotate_left; intro hx; clear_value x; rotate_left; dsimp -zeta only [x]; clear x) | (clear y; clear_value x))
    | with_reducible apply pSet_fit (In.trans (by decide) hL)
    | (with_reducible apply Fit.foldl)
    | (with_reducible apply Fit.upd_parPend (In.trans (by decide) hL); first | (with_reducible apply Fit.ite <;> intro _) | (fail_if_success split)))

theorem pForget_fit {L : Nat} {s0 : State} {dormant : Bool} {s : State} (hL : In 0x18 L) (h0 : Fit L s0 s) :
    Fit L s0 (pForget dormant s) := by
  unfold pForget
  repeat' (first
    | with_reducible assumption
    | intro _
    | (extract_lets +onlyGivenNames x; have y := x; first | (guard_hyp y : State; clear y; refine Fit.seq L s0 x ?_ ?_; rotate_left; intro hx; clear_value x; rotate_left; dsimp -zeta only [x]; clear x) | ((first | (guard_hyp y : _ → State; clear y) | (guard_hyp y : _ → _ → State; clear y) | (guard_hyp y : _ → _ → _ → State; clear y)); dsimp -zeta only [x]; clear x) | (clear y; clear_value x))
    | (with_reducible apply Fit.upd_par_parPend (In.trans (by decide) hL); first | (with_reducible apply Fit.ite <;> intro _) | (fail_if_success split))
    | split)

theorem devBlur_fit {L : Nat} {s0 : State} {a n : Nat} {s : State} (hL : In 0x1000 L) (h : Fit L s0 s) :
    Fit L s0 (devBlur a n s) := Fit.upd_mem hL h (fun i => memBlur_wf a n (h.1 i).1)

theorem devWrite_fit {L : Nat} {s0 : State} {a : Nat} {bs : List Byte} {s : State} (hL : In 0x1000 L) (h : Fit L s0 s) :
    Fit L s0 (devWrite a bs s) := Fit.upd_mem hL h (fun i => memPutAll_wf a bs (h.1 i).1)

theorem sendMsix_fit {L : Nat} {s0 : State} {v : Nat} {s : State} (hL : In 0x402 L) (h0 : Fit L s0 s) :
    Fit L s0 (sendMsix v s) := by
  unfold sendMsix
  repeat' (first
    | with_reducible assumption
    | (extract_lets +onlyGivenNames x; have y := x; first | (guard_hyp y : State; clear y; refine Fit.seq L s0 x ?_ ?_; rotate_left; intro hx; clear_value x; rotate_left; dsimp -zeta only [x]; clear x) | (guard_hyp y : CmdSt; clear y; dsimp -zeta only [x]; clear x) | (clear y; clear_value x))
    | with_reducible apply emit_fit (In.trans (by decide) hL)
    | (with_reducible apply Fit.ite <;> intro _)
    | (with_reducible apply Fit.upd_cmd (In.trans (by decide) hL); rotate_left; with_reducible rfl; first | (with_reducible apply Fit.ite <;> intro _) | (fail_if_success split)))

theorem evqWrite_fit {L : Nat} {s0 : State} {r : Rec} {s : State} (hL : In 0xC02 L) (h0 : Fit L s0 s) :
    Fit L s0 (evqWrite r s) := by
  unfold evqWrite
  repeat' (first
    | with_reducible assumption
    | (extract_lets +onlyGivenNames x; have y := x; first | (guard_hyp y : State; clear y; refine Fit.seq L s0 x ?_ ?_; rotate_left; intro hx; clear_value x; rotate_left; dsimp -zeta only [x]; clear x) | ((first | (guard_hyp y : CmdSt; clear y) | (guard_hyp y : EvtSt; clear y)); dsimp -zeta only [x]; clear x) | (clear y; clear_value x))
    | with_reducible apply emit_fit (In.trans (by decide) hL)
    | (with_reducible apply Fit.ite <;> intro _)
    | (with_reducible apply Fit.upd_evt (In.trans (by decide) hL); rotate_left; with_reducible rfl; with_reducible rfl; first | (with_reducible apply Fit.ite <;> intro _) | (fail_if_success split)))

theorem post_fit {L : Nat} {s0 : State} {r : Rec} {s : State} (hL : In 0xC02 L) (h0 : Fit L s0 s) :
    Fit L s0 (post r s) := by
  unfold post
  repeat' (first
    | with_reducible assumption
    | (extract_lets +onlyGivenNames x; have y := x; first | (guard_hyp y : State; clear y; refine Fit.seq L s0 x ?_ ?_; rotate_left; intro hx; clear_value x; rotate_left; dsimp -zeta only [x]; clear x) | (guard_hyp y : EvtSt; clear y; dsimp -zeta only [x]; clear x) | (clear y; clear_value x))
    | with_reducible apply sendMsix_fit (In.trans (by decide) hL)
    | with_reducible apply evqWrite_fit (In.trans (by decide) hL)
    | (with_reducible apply Fit.ite <;> intro _)
    | (with_reducible apply Fit.upd_evt (In.trans (by decide) hL); rotate_left; with_reducible rfl; with_reducible rfl; first | (with_reducible apply Fit.ite <;> intro _) | (fail_if_success split)))

theorem logRec_fit {L : Nat} {s0 : State} {r : Rec} {s : State} (hL : In 0xC02 L) (h : Fit L s0 s) : Fit L s0 (logRec r s).2 := by
  refine emit_fit (In.trans (by decide) hL) ⟨fun i => ?_, fun p hp => ?_⟩
  · have k := h.1 i
    refine ⟨k.1, ?_, k.2.2.1, Nat.mod_lt _ (by decide)⟩
    show (List.take 1024 _).length ≤ 1024
    simp only [List.length_take]; omega
  · cases p <;> first | exact h.2 _ hp | exact absurd (hL.bit rfl) (by rw [hp]; exact Bool.false_ne_true)

theorem notifyFails_fit {L : Nat} {s0 : State} {s : State} (hL : In 0x800C02 L) (h0 : Fit L s0 s) :
    Fit L s0 (notifyFails s) := by
  unfold notifyFails
  repeat' (first
    | with_reducible assumption
    | (extract_lets +onlyGivenNames x; have y := x; first | (guard_hyp y : State; clear y; refine Fit.seq L s0 x ?_ ?_; rotate_left; intro hx; clear_value x; rotate_left; dsimp -zeta only [x]; clear x) | (clear y; clear_value x))
    | with_reducible apply post_fit (In.trans (by decide) hL)
    | with_reducible apply logRec_fit (In.trans (by decide) hL)
    | (with_reducible apply Fit.ite <;> intro _)
    | (with_reducible apply Fit.upd_sbd (In.trans (by decide) hL); first | (with_reducible apply Fit.ite <;> intro _) | (fail_if_success split)))

theorem deliver_fit {L : Nat} {s0 : State} {r : Rec} {s : State} (hL : In 0x800C02 L) (h0 : Fit L s0 s) :
    Fit L s0 (deliver r s) := by
  unfold deliver
  repeat' (first
    | with_reducible assumption
    | (extract_lets +onlyGivenNames x; have y := x; first | (guard_hyp y : State; clear y; refine Fit.seq L s0 x ?_ ?_; rotate_left; intro hx; clear_value x; rotate_left; dsimp -zeta only [x]; clear x) | (guard_hyp y : EvtSt; clear y; dsimp -zeta only [x]; clear x) | (clear y; clear_value x))
    | with_reducible apply emit_fit (In.trans (by decide) hL)
    | with_reducible apply post_fit (In.trans (by decide) hL)
    | with_reducible apply notifyFails_fit (In.trans (by decide) hL)
    | (with_reducible apply Fit.ite <;> intro _)
    | (with_reducible apply Fit.upd_evt (In.trans (by decide) hL); rotate_left; with_reducible rfl; with_reducible rfl; first | (with_reducible apply Fit.ite <;> intro _) | (fail_if_success split))
    | split)

theorem formRec_fit {L : Nat} {s0 : State} {r : Rec} {s : State} (hL : In 0x800C02 L) (h0 : Fit L s0 s) :
    Fit L s0 (formRec r s) := by
  unfold formRec
  repeat' (first
    | with_reducible assumption
    | (extract_lets +onlyGivenNames x; have y := x; first | (guard_hyp y : State; clear y; refine Fit.seq L s0 x ?_ ?_; rotate_left; intro hx; clear_value x; rotate_left; dsimp -zeta only [x]; clear x) | (clear y; clear_value x))
    | with_reducible apply logRec_fit (In.trans (by decide) hL)
    | with_reducible apply deliver_fit (In.trans (by decide) hL)
    | (with_reducible apply Fit.ite <;> intro _))

theorem setCount_fit {L : Nat} {s0 : State} {c : SrcCount} {s : State} (hL : In 0x800 L) (h0 : Fit L s0 s) :
    Fit L s0 (setCount c s) := by
  unfold setCount
  repeat' (first
    | with_reducible assumption
    | intro _
    | (extract_lets +onlyGivenNames x; have y := x; first | (guard_hyp y : State; clear y; refine Fit.seq L s0 x ?_ ?_; rotate_left; intro hx; clear_value x; rotate_left; dsimp -zeta only [x]; clear x) | (guard_hyp y : EvtSt; clear y; dsimp -zeta only [x]; clear x) | (clear y; clear_value x))
    | (with_reducible apply Fit.upd_evt (In.trans (by decide) hL); rotate_left; with_reducible rfl; with_reducible rfl; first | (with_reducible apply Fit.ite <;> intro _) | (fail_if_success split)))

theorem coalesceEnd_fit {L : Nat} {s0 : State} {c : SrcCount} {s : State} (hL : In 0x800C02 L) (h0 : Fit L s0 s) :
    Fit L s0 (coalesceEnd c s) := by
  unfold coalesceEnd
  repeat' (first
    | with_reducible assumption
    | (extract_lets +onlyGivenNames x; have y := x; first | (guard_hyp y : State; clear y; refine Fit.seq L s0 x ?_ ?_; rotate_left; intro hx; clear_value x; rotate_left; dsimp -zeta only [x]; clear x) | (clear y; clear_value x))
    | with_reducible apply formRec_fit (In.trans (by decide) hL)
    | with_reducible apply setCount_fit (In.trans (by decide) hL)
    | (with_reducible apply Fit.ite <;> intro _))

theorem fire_fit {L : Nat} {s0 : State} {src : Nat} {pay : List Byte} {s : State} (hL : In 0x800C02 L) (h0 : Fit L s0 s) :
    Fit L s0 (fire src pay s) := by
  unfold fire
  repeat' (first
    | with_reducible assumption
    | (extract_lets +onlyGivenNames x; have y := x; first | (guard_hyp y : State; clear y; refine Fit.seq L s0 x ?_ ?_; rotate_left; intro hx; clear_value x; rotate_left; dsimp -zeta only [x]; clear x) | (clear y; clear_value x))
    | with_reducible apply formRec_fit (In.trans (by decide) hL)
    | with_reducible apply setCount_fit (In.trans (by decide) hL)
    | with_reducible apply coalesceEnd_fit (In.trans (by decide) hL)
    | (with_reducible apply Fit.ite <;> intro _)
    | split)

theorem raise_fit {L : Nat} {s0 : State} {src : Nat} {items : List (Nat × Nat)} {s : State} (hL : In 0x800C02 L) (h0 : Fit L s0 s) :
    Fit L s0 (raise src items s) := by
  unfold raise
  repeat' (first
    | with_reducible assumption
    | with_reducible apply fire_fit (In.trans (by decide) hL))

theorem raiseIf_fit {L : Nat} {s0 : State} {c : Bool} {src : Nat} {items : List (Nat × Nat)} {s : State} (hL : In 0x800C02 L) (h0 : Fit L s0 s) :
    Fit L s0 (raiseIf c src items s) := by
  unfold raiseIf
  repeat' (first
    | with_reducible assumption
    | with_reducible apply raise_fit (In.trans (by decide) hL)
    | (with_reducible apply Fit.ite <;> intro _))

theorem onPool_fit {L : Nat} {s0 : State} {id : Nat} {f : Pool → Pool} {s : State} (hL : In 0x200 L) (h0 : Fit L s0 s) :
    Fit L s0 (onPool id f s) := by
  unfold onPool
  repeat' (first
    | with_reducible assumption
    | intro _
    | (extract_lets +onlyGivenNames x; have y := x; first | (guard_hyp y : State; clear y; refine Fit.seq L s0 x ?_ ?_; rotate_left; intro hx; clear_value x; rotate_left; dsimp -zeta only [x]; clear x) | (clear y; clear_value x))
    | (with_reducible apply Fit.ite <;> intro _)
    | (with_reducible apply Fit.upd_buf (In.trans (by decide) hL); first | (with_reducible apply Fit.ite <;> intro _) | (fail_if_success split))
    | split)

theorem move_fit {L : Nat} {s0 : State} {id a b n : Nat} {s : State} (hL : In 0x200 L) (h0 : Fit L s0 s) :
    Fit L s0 (move id a b n s) := by
  unfold move
  repeat' (first
    | with_reducible assumption
    | intro _
    | with_reducible apply onPool_fit (In.trans (by decide) hL))

theorem freePool_fit {L : Nat} {s0 : State} {id : Nat} {s : State} (hL : In 0x200 L) (h0 : Fit L s0 s) :
    Fit L s0 (freePool id s) := by
  unfold freePool
  repeat' (first
    | with_reducible assumption
    | with_reducible apply onPool_fit (In.trans (by decide) hL))

theorem setTotal_fit {L : Nat} {s0 : State} {id n : Nat} {s : State} (hL : In 0x200 L) (h0 : Fit L s0 s) :
    Fit L s0 (setTotal id n s) := by
  unfold setTotal
  repeat' (first
    | with_reducible assumption
    | intro _
    | (extract_lets +onlyGivenNames x; have y := x; first | (guard_hyp y : State; clear y; refine Fit.seq L s0 x ?_ ?_; rotate_left; intro hx; clear_value x; rotate_left; dsimp -zeta only [x]; clear x) | (clear y; clear_value x))
    | with_reducible apply onPool_fit (In.trans (by decide) hL))

theorem nextGen_fit {L : Nat} {s0 : State} {pool idx : Nat} {s : State} (hL : In 0x200 L) (h0 : Fit L s0 s) :
    Fit L s0 (nextGen pool idx s) := by
  unfold nextGen
  repeat' (first
    | with_reducible assumption
    | (extract_lets +onlyGivenNames x; have y := x; first | (guard_hyp y : State; clear y; refine Fit.seq L s0 x ?_ ?_; rotate_left; intro hx; clear_value x; rotate_left; dsimp -zeta only [x]; clear x) | (clear y; clear_value x))
    | (with_reducible apply Fit.ite <;> intro _)
    | (with_reducible apply Fit.upd_buf (In.trans (by decide) hL); first | (with_reducible apply Fit.ite <;> intro _) | (fail_if_success split)))

theorem setBuf_fit {L : Nat} {s0 : State} {b : Buf} {s : State} (hL : In 0x200 L) (h0 : Fit L s0 s) :
    Fit L s0 (setBuf b s) := by
  unfold setBuf
  repeat' (first
    | with_reducible assumption
    | intro _
    | (extract_lets +onlyGivenNames x; have y := x; first | (guard_hyp y : State; clear y; refine Fit.seq L s0 x ?_ ?_; rotate_left; intro hx; clear_value x; rotate_left; dsimp -zeta only [x]; clear x) | (clear y; clear_value x))
    | (with_reducible apply Fit.ite <;> intro _)
    | (with_reducible apply Fit.upd_buf (In.trans (by decide) hL); first | (with_reducible apply Fit.ite <;> intro _) | (fail_if_success split))
    | split)

theorem dropBuf_fit {L : Nat} {s0 : State} {b : Buf} {c : Nat} {s : State} (hL : In 0x200 L) (h0 : Fit L s0 s) :
    Fit L s0 (dropBuf b c s) := by
  unfold dropBuf
  repeat' (first
    | with_reducible assumption
    | intro _
    | (extract_lets +onlyGivenNames x; have y := x; first | (guard_hyp y : State; clear y; refine Fit.seq L s0 x ?_ ?_; rotate_left; intro hx; clear_value x; rotate_left; dsimp -zeta only [x]; clear x) | (clear y; clear_value x))
    | with_reducible apply move_fit (In.trans (by decide) hL)
    | (with_reducible apply Fit.upd_buf (In.trans (by decide) hL); first | (with_reducible apply Fit.ite <;> intro _) | (fail_if_success split)))

theorem checkLow_fit {L : Nat} {s0 : State} {s : State} (hL : In 0x800E02 L) (h0 : Fit L s0 s) :
    Fit L s0 (checkLow s) := by
  unfold checkLow
  repeat' (first
    | with_reducible assumption
    | (extract_lets +onlyGivenNames x; have y := x; first | (guard_hyp y : State; clear y; refine Fit.seq L s0 x ?_ ?_; rotate_left; intro hx; clear_value x; rotate_left; dsimp -zeta only [x]; clear x) | (clear y; clear_value x))
    | with_reducible apply raise_fit (In.trans (by decide) hL)
    | (with_reducible apply Fit.ite <;> intro _)
    | (with_reducible apply Fit.upd_buf (In.trans (by decide) hL); first | (with_reducible apply Fit.ite <;> intro _) | (fail_if_success split)))

theorem hold_fit {L : Nat} {s0 : State} {idx : Nat} {st : Stage} {owner : Nat} {s : State} (hL : In 0x200 L) (h0 : Fit L s0 s) :
    Fit L s0 (hold idx st owner s) := by
  unfold hold
  repeat' (first
    | with_reducible assumption
    | intro _
    | (extract_lets +onlyGivenNames x; have y := x; first | (guard_hyp y : State; clear y; refine Fit.seq L s0 x ?_ ?_; rotate_left; intro hx; clear_value x; rotate_left; dsimp -zeta only [x]; clear x) | (clear y; clear_value x))
    | (with_reducible apply Fit.ite <;> intro _)
    | (with_reducible apply Fit.upd_buf (In.trans (by decide) hL); first | (with_reducible apply Fit.ite <;> intro _) | (fail_if_success split))
    | split)

theorem setHolds_fit {L : Nat} {s0 : State} {b : Buf} {hs : List (Stage × Nat)} {s : State} (hL : In 0x800E02 L) (h0 : Fit L s0 s) :
    Fit L s0 (setHolds b hs s) := by
  unfold setHolds
  repeat' (first
    | with_reducible assumption
    | (extract_lets +onlyGivenNames x; have y := x; first | (guard_hyp y : State; clear y; refine Fit.seq L s0 x ?_ ?_; rotate_left; intro hx; clear_value x; rotate_left; dsimp -zeta only [x]; clear x) | (clear y; clear_value x))
    | with_reducible apply raise_fit (In.trans (by decide) hL)
    | with_reducible apply move_fit (In.trans (by decide) hL)
    | with_reducible apply setBuf_fit (In.trans (by decide) hL)
    | with_reducible apply dropBuf_fit (In.trans (by decide) hL)
    | with_reducible apply checkLow_fit (In.trans (by decide) hL)
    | (with_reducible apply Fit.ite <;> intro _)
    | split)

theorem release_fit {L : Nat} {s0 : State} {idx : Nat} {st : Stage} {owner : Nat} {s : State} (hL : In 0x800E02 L) (h0 : Fit L s0 s) :
    Fit L s0 (release idx st owner s) := by
  unfold release
  repeat' (first
    | with_reducible assumption
    | intro _
    | (extract_lets +onlyGivenNames x; have y := x; first | (guard_hyp y : State; clear y; refine Fit.seq L s0 x ?_ ?_; rotate_left; intro hx; clear_value x; rotate_left; dsimp -zeta only [x]; clear x) | (clear y; clear_value x))
    | with_reducible apply setHolds_fit (In.trans (by decide) hL)
    | (with_reducible apply Fit.ite <;> intro _)
    | split)

theorem releaseStage_fit {L : Nat} {s0 : State} {st : Stage} {s : State} (hL : In 0x800E02 L) (h0 : Fit L s0 s) :
    Fit L s0 (releaseStage st s) := by
  unfold releaseStage
  repeat' (first
    | with_reducible assumption
    | intro _
    | with_reducible apply setHolds_fit (In.trans (by decide) hL)
    | (with_reducible apply Fit.ite <;> intro _)
    | (with_reducible apply Fit.foldl)
    | split)

theorem releaseOwner_fit {L : Nat} {s0 : State} {st : Stage} {owner : Nat} {s : State} (hL : In 0x800E02 L) (h0 : Fit L s0 s) :
    Fit L s0 (releaseOwner st owner s) := by
  unfold releaseOwner
  repeat' (first
    | with_reducible assumption
    | intro _
    | with_reducible apply setHolds_fit (In.trans (by decide) hL)
    | (with_reducible apply Fit.ite <;> intro _)
    | (with_reducible apply Fit.foldl)
    | split)

theorem auditOne_fit {L : Nat} {s0 : State} {s : State} (hL : In 0x200 L) (h0 : Fit L s0 s) :
    Fit L s0 (auditOne s) := by
  unfold auditOne
  repeat' (first
    | with_reducible assumption
    | (extract_lets +onlyGivenNames x; have y := x; first | (guard_hyp y : State; clear y; refine Fit.seq L s0 x ?_ ?_; rotate_left; intro hx; clear_value x; rotate_left; dsimp -zeta only [x]; clear x) | (clear y; clear_value x))
    | (with_reducible apply Fit.upd_buf (In.trans (by decide) hL); first | (with_reducible apply Fit.ite <;> intro _) | (fail_if_success split)))

theorem auditAll_fit {L : Nat} {s0 : State} {s : State} (hL : In 0x200 L) (h0 : Fit L s0 s) :
    Fit L s0 (auditAll s) := by
  unfold auditAll
  repeat' (first
    | with_reducible assumption
    | (extract_lets +onlyGivenNames x; have y := x; first | (guard_hyp y : State; clear y; refine Fit.seq L s0 x ?_ ?_; rotate_left; intro hx; clear_value x; rotate_left; dsimp -zeta only [x]; clear x) | (clear y; clear_value x))
    | (with_reducible apply Fit.upd_buf (In.trans (by decide) hL); first | (with_reducible apply Fit.ite <;> intro _) | (fail_if_success split)))

end Sys2Proof.Machine
end

