-- ==== Sys2Proof/Laws/FitAccept.lean ====
section
/-! SUPPORT. What each definition of Machine/Accept.lean touches, and that it keeps the invariant: one lemma each. -/

set_option Elab.async false
set_option linter.all false

namespace Sys2Proof.Machine

theorem setRing_fit {L : Nat} {s0 : State} {r : Nat} {x : Ring} {s : State} (hL : In 0x400 L) (h0 : Fit L s0 s) :
    Fit L s0 (setRing r x s) := by
  unfold setRing
  repeat' (first
    | with_reducible assumption
    | (extract_lets +onlyGivenNames x; have y := x; first | (guard_hyp y : State; clear y; refine Fit.seq L s0 x ?_ ?_; rotate_left; intro hx; clear_value x; rotate_left; dsimp -zeta only [x]; clear x) | (guard_hyp y : CmdSt; clear y; dsimp -zeta only [x]; clear x) | (clear y; clear_value x))
    | (with_reducible apply Fit.upd_cmd (In.trans (by decide) hL); rotate_left; with_reducible rfl; first | (with_reducible apply Fit.ite <;> intro _) | (fail_if_success split)))

theorem ringError_fit {L : Nat} {s0 : State} {r code : Nat} {s : State} (hL : In 0x800C02 L) (h0 : Fit L s0 s) :
    Fit L s0 (ringError r code s) := by
  unfold ringError
  repeat' (first
    | with_reducible assumption
    | (extract_lets +onlyGivenNames x; have y := x; first | (guard_hyp y : State; clear y; refine Fit.seq L s0 x ?_ ?_; rotate_left; intro hx; clear_value x; rotate_left; dsimp -zeta only [x]; clear x) | (clear y; clear_value x))
    | with_reducible apply raise_fit (In.trans (by decide) hL)
    | with_reducible apply setRing_fit (In.trans (by decide) hL))

theorem loseReply_fit {L : Nat} {s0 : State} {rep : Reply} {s : State} (hL : In 0x800C02 L) (h0 : Fit L s0 s) :
    Fit L s0 (loseReply rep s) := by
  unfold loseReply
  repeat' (first
    | with_reducible assumption
    | (extract_lets +onlyGivenNames x; have y := x; first | (guard_hyp y : State; clear y; refine Fit.seq L s0 x ?_ ?_; rotate_left; intro hx; clear_value x; rotate_left; dsimp -zeta only [x]; clear x) | (guard_hyp y : CmdSt; clear y; dsimp -zeta only [x]; clear x) | (clear y; clear_value x))
    | with_reducible apply emit_fit (In.trans (by decide) hL)
    | with_reducible apply raise_fit (In.trans (by decide) hL)
    | (with_reducible apply Fit.ite <;> intro _)
    | (with_reducible apply Fit.upd_cmd (In.trans (by decide) hL); rotate_left; with_reducible rfl; first | (with_reducible apply Fit.ite <;> intro _) | (fail_if_success split)))

theorem ringReply_fit {L : Nat} {s0 : State} {r : Nat} {interim : Bool} {rep : Reply} {s : State} (hL : In 0x800E02 L) (h0 : Fit L s0 s) :
    Fit L s0 (ringReply r interim rep s) := by
  unfold ringReply
  repeat' (first
    | with_reducible assumption
    | (extract_lets +onlyGivenNames x; have y := x; first | (guard_hyp y : State; clear y; refine Fit.seq L s0 x ?_ ?_; rotate_left; intro hx; clear_value x; rotate_left; dsimp -zeta only [x]; clear x) | (clear y; clear_value x))
    | with_reducible apply emit_fit (In.trans (by decide) hL)
    | with_reducible apply sendMsix_fit (In.trans (by decide) hL)
    | with_reducible apply move_fit (In.trans (by decide) hL)
    | with_reducible apply setRing_fit (In.trans (by decide) hL)
    | with_reducible apply ringError_fit (In.trans (by decide) hL)
    | (with_reducible apply Fit.ite <;> intro _))

theorem keepReply_fit {L : Nat} {s0 : State} {rep : Reply} {s : State} (hL : In 0x400 L) (h : Fit L s0 s) :
    Fit L s0 (keepReply rep s) := by
  refine ⟨fun i => ?_, fun p hp => ?_⟩
  · have k := h.1 i
    refine ⟨k.1, k.2.1, ?_, k.2.2.2⟩
    show (List.take 16 _).length ≤ 16
    simp only [List.length_take]; omega
  · cases p <;> first | exact h.2 _ hp | exact absurd (hL.bit rfl) (by rw [hp]; exact Bool.false_ne_true)

theorem sendReply_fit {L : Nat} {s0 : State} {orphan interim : Bool} {rep : Reply} {s : State} (hL : In 0x800E02 L) (h0 : Fit L s0 s) :
    Fit L s0 (sendReply orphan interim rep s) := by
  unfold sendReply
  repeat' (first
    | with_reducible assumption
    | intro _
    | (extract_lets +onlyGivenNames x; have y := x; first | (guard_hyp y : State; clear y; refine Fit.seq L s0 x ?_ ?_; rotate_left; intro hx; clear_value x; rotate_left; dsimp -zeta only [x]; clear x) | (guard_hyp y : CmdSt; clear y; dsimp -zeta only [x]; clear x) | (clear y; clear_value x))
    | with_reducible apply emit_fit (In.trans (by decide) hL)
    | with_reducible apply loseReply_fit (In.trans (by decide) hL)
    | with_reducible apply ringReply_fit (In.trans (by decide) hL)
    | with_reducible apply keepReply_fit (In.trans (by decide) hL)
    | (with_reducible apply Fit.ite <;> intro _)
    | (with_reducible apply Fit.upd_sbd (In.trans (by decide) hL); first | (with_reducible apply Fit.ite <;> intro _) | (fail_if_success split))
    | split)

theorem noteFinal_fit {L : Nat} {s0 : State} {h : Hdr} {st : Nat} {s : State} (hL : In 0x400 L) (h0 : Fit L s0 s) :
    Fit L s0 (noteFinal h st s) := by
  unfold noteFinal
  repeat' (first
    | with_reducible assumption
    | intro _
    | (extract_lets +onlyGivenNames x; have y := x; first | (guard_hyp y : State; clear y; refine Fit.seq L s0 x ?_ ?_; rotate_left; intro hx; clear_value x; rotate_left; dsimp -zeta only [x]; clear x) | (guard_hyp y : CmdSt; clear y; dsimp -zeta only [x]; clear x) | (clear y; clear_value x))
    | (with_reducible apply Fit.ite <;> intro _)
    | (with_reducible apply Fit.upd_cmd (In.trans (by decide) hL); rotate_left; with_reducible rfl; first | (with_reducible apply Fit.ite <;> intro _) | (fail_if_success split))
    | split)

theorem finish_fit {L : Nat} {s0 : State} {h : Hdr} {opc : Nat} {v : Verdict} {s : State} (hL : In 0x800E02 L) (h0 : Fit L s0 s) :
    Fit L s0 (finish h opc v s) := by
  unfold finish
  repeat' (first
    | with_reducible assumption
    | intro _
    | (extract_lets +onlyGivenNames x; have y := x; first | (guard_hyp y : State; clear y; refine Fit.seq L s0 x ?_ ?_; rotate_left; intro hx; clear_value x; rotate_left; dsimp -zeta only [x]; clear x) | (guard_hyp y : CmdSt; clear y; dsimp -zeta only [x]; clear x) | (clear y; clear_value x))
    | with_reducible apply sendReply_fit (In.trans (by decide) hL)
    | with_reducible apply noteFinal_fit (In.trans (by decide) hL)
    | (with_reducible apply Fit.ite <;> intro _)
    | (with_reducible apply Fit.upd_cmd (In.trans (by decide) hL); rotate_left; with_reducible rfl; first | (with_reducible apply Fit.ite <;> intro _) | (fail_if_success split))
    | (with_reducible apply Fit.upd_sbd (In.trans (by decide) hL); first | (with_reducible apply Fit.ite <;> intro _) | (fail_if_success split))
    | split)

theorem accepted_fit {L : Nat} {s0 : State} {h : Hdr} {opc w0 : Nat} {s : State} (hL : In 0x800E02 L) (h0 : Fit L s0 s) :
    Fit L s0 (accepted h opc w0 s) := by
  unfold accepted
  repeat' (first
    | with_reducible assumption
    | intro _
    | (extract_lets +onlyGivenNames x; have y := x; first | (guard_hyp y : State; clear y; refine Fit.seq L s0 x ?_ ?_; rotate_left; intro hx; clear_value x; rotate_left; dsimp -zeta only [x]; clear x) | (guard_hyp y : CmdSt; clear y; dsimp -zeta only [x]; clear x) | (clear y; clear_value x))
    | with_reducible apply sendReply_fit (In.trans (by decide) hL)
    | (with_reducible apply Fit.ite <;> intro _)
    | (with_reducible apply Fit.upd_cmd (In.trans (by decide) hL); rotate_left; with_reducible rfl; first | (with_reducible apply Fit.ite <;> intro _) | (fail_if_success split))
    | split)

theorem finishAll_fit {L : Nat} {s0 : State} {ls : List (Hdr × Nat)} {v : Verdict} {s : State} (hL : In 0x800E02 L) (h0 : Fit L s0 s) :
    Fit L s0 (finishAll ls v s) := by
  unfold finishAll
  repeat' (first
    | with_reducible assumption
    | intro _
    | with_reducible apply finish_fit (In.trans (by decide) hL)
    | (with_reducible apply Fit.foldl))

theorem refusalEvent_fit {L : Nat} {s0 : State} {r : Row} {exp : Option Nat} {v : Verdict} {s : State} (hL : In 0x800C02 L) (h0 : Fit L s0 s) :
    Fit L s0 (refusalEvent r exp v s) := by
  unfold refusalEvent
  repeat' (first
    | with_reducible assumption
    | (extract_lets +onlyGivenNames x; have y := x; first | (guard_hyp y : State; clear y; refine Fit.seq L s0 x ?_ ?_; rotate_left; intro hx; clear_value x; rotate_left; dsimp -zeta only [x]; clear x) | (clear y; clear_value x))
    | with_reducible apply raise_fit (In.trans (by decide) hL)
    | (with_reducible apply Fit.ite <;> intro _)
    | split)

theorem perform_fit {L : Nat} {s0 : State} {r : Row} {s : State} (hL : In 0x800E02 L) (h0 : Fit L s0 s) (h_r : RowFit L r) :
    Fit L s0 (perform r s) := by
  have h1 := h_r.1 s0 s h0
  unfold perform; dsimp only []; split
  · exact finish_fit (In.trans (by decide) hL) h1
  · exact h_r.2 _ _ h1

theorem holdForTest_fit {L : Nat} {s0 : State} {r : Row} {exp : Option Nat} {s t : State} (hL : In 0x4800C02 L) (h : Fit L s0 s)
    (e : holdForTest r exp s = some t) : Fit L s0 t := by
  simp only [holdForTest, Option.map_eq_some_iff] at e
  obtain ⟨_, _, rfl⟩ := e
  exact raise_fit (In.trans (by decide) hL) (Fit.upd_cmd_bst (In.trans (by decide) hL) h rfl)

theorem noteT1_fit {L : Nat} {s0 : State} {h : Hdr} {s : State} (hL : In 0x800000 L) (h0 : Fit L s0 s) :
    Fit L s0 (noteT1 h s) := by
  unfold noteT1
  repeat' (first
    | with_reducible assumption
    | intro _
    | (extract_lets +onlyGivenNames x; have y := x; first | (guard_hyp y : State; clear y; refine Fit.seq L s0 x ?_ ?_; rotate_left; intro hx; clear_value x; rotate_left; dsimp -zeta only [x]; clear x) | (clear y; clear_value x))
    | (with_reducible apply Fit.ite <;> intro _)
    | (with_reducible apply Fit.upd_sbd (In.trans (by decide) hL); first | (with_reducible apply Fit.ite <;> intro _) | (fail_if_success split))
    | split)

theorem admitLive_fit {L : Nat} {s0 : State} {r : Row} {t : Nat} {s : State} (hL : In 0x800400 L) (h0 : Fit L s0 s) :
    Fit L s0 (admitLive r t s) := by
  unfold admitLive
  repeat' (first
    | with_reducible assumption
    | (extract_lets +onlyGivenNames x; have y := x; first | (guard_hyp y : State; clear y; refine Fit.seq L s0 x ?_ ?_; rotate_left; intro hx; clear_value x; rotate_left; dsimp -zeta only [x]; clear x) | (guard_hyp y : CmdSt; clear y; dsimp -zeta only [x]; clear x) | (clear y; clear_value x))
    | with_reducible apply noteT1_fit (In.trans (by decide) hL)
    | (with_reducible apply Fit.upd_cmd (In.trans (by decide) hL); rotate_left; with_reducible rfl; first | (with_reducible apply Fit.ite <;> intro _) | (fail_if_success split))
    | split)

theorem noteTaken_fit {L : Nat} {s0 : State} {h : Hdr} {s : State} (hL : In 0x400 L) (h0 : Fit L s0 s) :
    Fit L s0 (noteTaken h s) := by
  unfold noteTaken
  repeat' (first
    | with_reducible assumption
    | intro _
    | (extract_lets +onlyGivenNames x; have y := x; first | (guard_hyp y : State; clear y; refine Fit.seq L s0 x ?_ ?_; rotate_left; intro hx; clear_value x; rotate_left; dsimp -zeta only [x]; clear x) | (guard_hyp y : CmdSt; clear y; dsimp -zeta only [x]; clear x) | (clear y; clear_value x))
    | (with_reducible apply Fit.upd_cmd (In.trans (by decide) hL); rotate_left; with_reducible rfl; first | (with_reducible apply Fit.ite <;> intro _) | (fail_if_success split)))

theorem accept_fit {L : Nat} {s0 : State} {r : Row} {exp : Option Nat} {s : State} (hL : In 0x4800E02 L) (h0 : Fit L s0 s) (h_r : RowFit L r) :
    Fit L s0 (accept r exp s) := by
  unfold accept
  repeat' (first
    | with_reducible assumption
    | (extract_lets +onlyGivenNames x; have y := x; first | (guard_hyp y : State; clear y; refine Fit.seq L s0 x ?_ ?_; rotate_left; intro hx; clear_value x; rotate_left; dsimp -zeta only [x]; clear x) | (guard_hyp y : CmdSt; clear y; dsimp -zeta only [x]; clear x) | (clear y; clear_value x))
    | with_reducible apply raise_fit (In.trans (by decide) hL)
    | with_reducible apply finish_fit (In.trans (by decide) hL)
    | with_reducible apply accepted_fit (In.trans (by decide) hL)
    | with_reducible apply refusalEvent_fit (In.trans (by decide) hL)
    | with_reducible apply perform_fit (In.trans (by decide) hL)
    | (with_reducible apply holdForTest_fit (In.trans (by decide) hL); case e => with_reducible assumption)
    | with_reducible apply admitLive_fit (In.trans (by decide) hL)
    | with_reducible apply noteTaken_fit (In.trans (by decide) hL)
    | with_reducible apply h_r.1
    | with_reducible apply h_r.2
    | (with_reducible apply Fit.ite <;> intro _)
    | (dsimp -zeta only [id])
    | (with_reducible apply Fit.of_snd; case e => with_reducible assumption)
    | (with_reducible apply Fit.of_fst; case e => with_reducible assumption)
    | (with_reducible apply Fit.upd_cmd (In.trans (by decide) hL); rotate_left; with_reducible rfl; first | (with_reducible apply Fit.ite <;> intro _) | (fail_if_success split))
    | split)

theorem takeUp_fit {L : Nat} {s0 : State} {r : Row} {exp : Option Nat} {s : State} (hL : In 0x4800E02 L) (h0 : Fit L s0 s) (h_r : RowFit L r) :
    Fit L s0 (takeUp r exp s) := by
  unfold takeUp
  repeat' (first
    | with_reducible assumption
    | (extract_lets +onlyGivenNames x; have y := x; first | (guard_hyp y : State; clear y; refine Fit.seq L s0 x ?_ ?_; rotate_left; intro hx; clear_value x; rotate_left; dsimp -zeta only [x]; clear x) | (clear y; clear_value x))
    | with_reducible apply finish_fit (In.trans (by decide) hL)
    | with_reducible apply noteTaken_fit (In.trans (by decide) hL)
    | with_reducible apply accept_fit (In.trans (by decide) hL)
    | with_reducible apply h_r.1
    | with_reducible apply h_r.2
    | (with_reducible apply Fit.ite <;> intro _)
    | split)

theorem pushWait_fit {L : Nat} {s0 : State} {w : Wait} {s : State} (hL : In 0x400 L) (h0 : Fit L s0 s) :
    Fit L s0 (pushWait w s) := by
  unfold pushWait
  repeat' (first
    | with_reducible assumption
    | (extract_lets +onlyGivenNames x; have y := x; first | (guard_hyp y : State; clear y; refine Fit.seq L s0 x ?_ ?_; rotate_left; intro hx; clear_value x; rotate_left; dsimp -zeta only [x]; clear x) | (guard_hyp y : CmdSt; clear y; dsimp -zeta only [x]; clear x) | (clear y; clear_value x))
    | (with_reducible apply Fit.upd_cmd (In.trans (by decide) hL); rotate_left; with_reducible rfl; first | (with_reducible apply Fit.ite <;> intro _) | (fail_if_success split)))

theorem readEntry_fit {L : Nat} {s0 : State} {r : Nat} {s : State} (hL : In 0x600 L) (h0 : Fit L s0 s) :
    Fit L s0 (readEntry r s) := by
  unfold readEntry
  repeat' (first
    | with_reducible assumption
    | (extract_lets +onlyGivenNames x; have y := x; first | (guard_hyp y : State; clear y; refine Fit.seq L s0 x ?_ ?_; rotate_left; intro hx; clear_value x; rotate_left; dsimp -zeta only [x]; clear x) | (clear y; clear_value x))
    | with_reducible apply move_fit (In.trans (by decide) hL)
    | with_reducible apply setRing_fit (In.trans (by decide) hL))

theorem takeRing_fit {L : Nat} {s0 : State} {r : Row} {k : Nat} {s : State} (hL : In 0x4800E02 L) (h0 : Fit L s0 s) (h_r : RowFit L r) :
    Fit L s0 (takeRing r k s) := by
  unfold takeRing
  repeat' (first
    | with_reducible assumption
    | (extract_lets +onlyGivenNames x; have y := x; first | (guard_hyp y : State; clear y; refine Fit.seq L s0 x ?_ ?_; rotate_left; intro hx; clear_value x; rotate_left; dsimp -zeta only [x]; clear x) | (clear y; clear_value x))
    | with_reducible apply raise_fit (In.trans (by decide) hL)
    | with_reducible apply setRing_fit (In.trans (by decide) hL)
    | with_reducible apply takeUp_fit (In.trans (by decide) hL)
    | with_reducible apply pushWait_fit (In.trans (by decide) hL)
    | with_reducible apply readEntry_fit (In.trans (by decide) hL)
    | with_reducible apply h_r.1
    | with_reducible apply h_r.2
    | (with_reducible apply Fit.ite <;> intro _))

theorem command_fit {L : Nat} {s0 : State} {r : Row} {s : State} (hL : In 0x4800E02 L) (h0 : Fit L s0 s) (h_r : RowFit L r) :
    Fit L s0 (command r s) := by
  unfold command
  repeat' (first
    | with_reducible assumption
    | (extract_lets +onlyGivenNames x; have y := x; first | (guard_hyp y : State; clear y; refine Fit.seq L s0 x ?_ ?_; rotate_left; intro hx; clear_value x; rotate_left; dsimp -zeta only [x]; clear x) | (guard_hyp y : CmdSt; clear y; dsimp -zeta only [x]; clear x) | (clear y; clear_value x))
    | with_reducible apply takeUp_fit (In.trans (by decide) hL)
    | with_reducible apply pushWait_fit (In.trans (by decide) hL)
    | with_reducible apply takeRing_fit (In.trans (by decide) hL)
    | with_reducible apply h_r.1
    | with_reducible apply h_r.2
    | (with_reducible apply Fit.ite <;> intro _)
    | (with_reducible apply Fit.upd_cmd (In.trans (by decide) hL); rotate_left; with_reducible rfl; first | (with_reducible apply Fit.ite <;> intro _) | (fail_if_success split))
    | split)

end Sys2Proof.Machine
end

