-- ==== Sys2Proof/Laws/FitNvOps.lean ====
section
/-! SUPPORT. What each definition of Machine/NvOps.lean touches, and that it keeps the invariant: one lemma each. -/

set_option Elab.async false
set_option linter.all false

namespace Sys2Proof.Machine

theorem slotSet_fit {L : Nat} {s0 : State} {n : Nat} {v : NvSlot} {s : State} (hL : In 0x1000000 L) (h0 : Fit L s0 s) :
    Fit L s0 (slotSet n v s) := by
  unfold slotSet
  repeat' (first
    | with_reducible assumption
    | (extract_lets +onlyGivenNames x; have y := x; first | (guard_hyp y : State; clear y; refine Fit.seq L s0 x ?_ ?_; rotate_left; intro hx; clear_value x; rotate_left; dsimp -zeta only [x]; clear x) | (clear y; clear_value x))
    | (with_reducible apply Fit.upd_nv (In.trans (by decide) hL); first | (with_reducible apply Fit.ite <;> intro _) | (fail_if_success split)))

theorem slotClear_fit {L : Nat} {s0 : State} {n : Nat} {s : State} (hL : In 0x1000000 L) (h0 : Fit L s0 s) :
    Fit L s0 (slotClear n s) := by
  unfold slotClear
  repeat' (first
    | with_reducible assumption
    | intro _
    | (extract_lets +onlyGivenNames x; have y := x; first | (guard_hyp y : State; clear y; refine Fit.seq L s0 x ?_ ?_; rotate_left; intro hx; clear_value x; rotate_left; dsimp -zeta only [x]; clear x) | (clear y; clear_value x))
    | (with_reducible apply Fit.upd_nv (In.trans (by decide) hL); first | (with_reducible apply Fit.ite <;> intro _) | (fail_if_success split)))

theorem slotSpoil_fit {L : Nat} {s0 : State} {n : Nat} {s : State} (hL : In 0x1000000 L) (h0 : Fit L s0 s) :
    Fit L s0 (slotSpoil n s) := by
  unfold slotSpoil
  repeat' (first
    | with_reducible assumption
    | intro _
    | (extract_lets +onlyGivenNames x; have y := x; first | (guard_hyp y : State; clear y; refine Fit.seq L s0 x ?_ ?_; rotate_left; intro hx; clear_value x; rotate_left; dsimp -zeta only [x]; clear x) | (clear y; clear_value x))
    | (with_reducible apply Fit.ite <;> intro _)
    | (with_reducible apply Fit.upd_nv (In.trans (by decide) hL); first | (with_reducible apply Fit.ite <;> intro _) | (fail_if_success split))
    | split)

theorem enterBank_fit {L : Nat} {s0 : State} {part b : Nat} {s : State} (hL : In 0x1000000 L) (h0 : Fit L s0 s) :
    Fit L s0 (enterBank part b s) := by
  unfold enterBank
  repeat' (first
    | with_reducible assumption
    | intro _
    | (extract_lets +onlyGivenNames x; have y := x; first | (guard_hyp y : State; clear y; refine Fit.seq L s0 x ?_ ?_; rotate_left; intro hx; clear_value x; rotate_left; dsimp -zeta only [x]; clear x) | (clear y; clear_value x))
    | (with_reducible apply Fit.foldl)
    | (with_reducible apply Fit.upd_nv (In.trans (by decide) hL); first | (with_reducible apply Fit.ite <;> intro _) | (fail_if_success split)))

theorem movePtr_fit {L : Nat} {s0 : State} {part n : Nat} {s : State} (hL : In 0x1000000 L) (h0 : Fit L s0 s) :
    Fit L s0 (movePtr part n s) := by
  unfold movePtr
  repeat' (first
    | with_reducible assumption
    | intro _
    | (extract_lets +onlyGivenNames x; have y := x; first | (guard_hyp y : State; clear y; refine Fit.seq L s0 x ?_ ?_; rotate_left; intro hx; clear_value x; rotate_left; dsimp -zeta only [x]; clear x) | (clear y; clear_value x))
    | with_reducible apply enterBank_fit (In.trans (by decide) hL)
    | (with_reducible apply Fit.foldl)
    | (with_reducible apply Fit.upd_nv (In.trans (by decide) hL); first | (with_reducible apply Fit.ite <;> intro _) | (fail_if_success split)))

theorem slotFailed_fit {L : Nat} {s0 : State} {n : Nat} {s : State} (hL : In 0x1800C02 L) (h0 : Fit L s0 s) :
    Fit L s0 (slotFailed n s) := by
  unfold slotFailed
  repeat' (first
    | with_reducible assumption
    | (extract_lets +onlyGivenNames x; have y := x; first | (guard_hyp y : State; clear y; refine Fit.seq L s0 x ?_ ?_; rotate_left; intro hx; clear_value x; rotate_left; dsimp -zeta only [x]; clear x) | (clear y; clear_value x))
    | with_reducible apply raise_fit (In.trans (by decide) hL)
    | with_reducible apply slotSet_fit (In.trans (by decide) hL)
    | (with_reducible apply Fit.ite <;> intro _)
    | (with_reducible apply Fit.upd_nv (In.trans (by decide) hL); first | (with_reducible apply Fit.ite <;> intro _) | (fail_if_success split)))

theorem nvAttempt_fit {L : Nat} {s0 : State} {r : NvRec} {bad : Bool} {s t : State} (hL : In 0x1800C02 L) (h : Fit L s0 s)
    (e : nvAttempt r bad s = some t) : Fit L s0 t := by
  unfold nvAttempt at e
  split at e
  · cases e
  · have h1 := fun n => movePtr_fit (part := r.part) (n := n) (In.trans (by decide) hL) h
    split at e <;> cases e
    · exact slotFailed_fit (In.trans (by decide) hL) (h1 _)
    · exact Fit.upd_nv (In.trans (by decide) hL) (slotSet_fit (In.trans (by decide) hL) (h1 _))

theorem nvPut_fit {L : Nat} {s0 : State} {part type key : Nat} {tomb : Bool} {pay : List Byte} {fails : Nat} {s : State} (hL : In 0x1800C02 L) (h0 : Fit L s0 s) :
    Fit L s0 (nvPut part type key tomb pay fails s).1 := by
  unfold nvPut
  repeat' (first
    | with_reducible assumption
    | (extract_lets +onlyGivenNames x; have y := x; first | (guard_hyp y : State; clear y; refine Fit.seq L s0 x ?_ ?_; rotate_left; intro hx; clear_value x; rotate_left; dsimp -zeta only [x]; clear x) | (clear y; clear_value x))
    | with_reducible apply raise_fit (In.trans (by decide) hL)
    | (with_reducible apply nvAttempt_fit (In.trans (by decide) hL); case e => with_reducible assumption)
    | (with_reducible apply Fit.ite <;> intro _)
    | (dsimp -zeta only [id])
    | (with_reducible apply Fit.of_snd; case e => with_reducible assumption)
    | (with_reducible apply Fit.of_fst; case e => with_reducible assumption)
    | split)

theorem nvOwn_fit {L : Nat} {s0 : State} {part type key : Nat} {pay : List Byte} {s : State} (hL : In 0x1800C02 L) (h0 : Fit L s0 s) :
    Fit L s0 (nvOwn part type key pay s) := by
  unfold nvOwn
  repeat' (first
    | with_reducible assumption
    | with_reducible apply nvPut_fit (In.trans (by decide) hL)
    | (dsimp -zeta only [id])
    | (with_reducible apply Fit.of_snd; case e => with_reducible assumption)
    | (with_reducible apply Fit.of_fst; case e => with_reducible assumption))

theorem nvDelete_fit {L : Nat} {s0 : State} {part type key : Nat} {s : State} (hL : In 0x1800C02 L) (h0 : Fit L s0 s) :
    Fit L s0 (nvDelete part type key s).1 := by
  unfold nvDelete
  repeat' (first
    | with_reducible assumption
    | intro _
    | (extract_lets +onlyGivenNames x; have y := x; first | (guard_hyp y : State; clear y; refine Fit.seq L s0 x ?_ ?_; rotate_left; intro hx; clear_value x; rotate_left; dsimp -zeta only [x]; clear x) | (clear y; clear_value x))
    | with_reducible apply slotSpoil_fit (In.trans (by decide) hL)
    | with_reducible apply nvPut_fit (In.trans (by decide) hL)
    | (with_reducible apply Fit.foldl)
    | (dsimp -zeta only [id])
    | (with_reducible apply Fit.of_snd; case e => with_reducible assumption)
    | (with_reducible apply Fit.of_fst; case e => with_reducible assumption)
    | split)

theorem counterSet_fit {L : Nat} {s0 : State} {key v : Nat} {s : State} (hL : In 0x1800C02 L) (h0 : Fit L s0 s) :
    Fit L s0 (counterSet key v s) := by
  unfold counterSet
  repeat' (first
    | with_reducible assumption
    | with_reducible apply nvOwn_fit (In.trans (by decide) hL))

theorem flushChunks_fit {L : Nat} {s0 : State} {k : Nat} {rs : List Rec} {s : State} (hL : In 0x1800C02 L) (h : Fit L s0 s) :
    Fit L s0 (flushChunks k rs s) := by
  induction k generalizing rs s with
  | zero => exact h
  | succ k ih =>
    unfold flushChunks; split
    · exact h
    · exact ih (nvOwn_fit (In.trans (by decide) hL) h)

theorem nvFlush_fit {L : Nat} {s0 : State} {s : State} (hL : In 0x1800C02 L) (h0 : Fit L s0 s) :
    Fit L s0 (nvFlush s) := by
  unfold nvFlush
  repeat' (first
    | with_reducible assumption
    | (extract_lets +onlyGivenNames x; have y := x; first | (guard_hyp y : State; clear y; refine Fit.seq L s0 x ?_ ?_; rotate_left; intro hx; clear_value x; rotate_left; dsimp -zeta only [x]; clear x) | (guard_hyp y : EvtSt; clear y; dsimp -zeta only [x]; clear x) | (clear y; clear_value x))
    | with_reducible apply flushChunks_fit (In.trans (by decide) hL)
    | (with_reducible apply Fit.upd_nv (In.trans (by decide) hL); first | (with_reducible apply Fit.ite <;> intro _) | (fail_if_success split))
    | split)

theorem dropUnlocks_fit {L : Nat} {s0 : State} {m : Master} {s : State} (hL : In 0x1000000 L) (h0 : Fit L s0 s) :
    Fit L s0 (dropUnlocks m s) := by
  unfold dropUnlocks
  repeat' (first
    | with_reducible assumption
    | intro _
    | (extract_lets +onlyGivenNames x; have y := x; first | (guard_hyp y : State; clear y; refine Fit.seq L s0 x ?_ ?_; rotate_left; intro hx; clear_value x; rotate_left; dsimp -zeta only [x]; clear x) | (clear y; clear_value x))
    | (with_reducible apply Fit.upd_nv (In.trans (by decide) hL); first | (with_reducible apply Fit.ite <;> intro _) | (fail_if_success split)))

theorem nvScan_fit {L : Nat} {s0 : State} {found : List (Nat × NvFound)} {s : State} (hL : In 0x1800C02 L) (h0 : Fit L s0 s) :
    Fit L s0 (nvScan found s) := by
  unfold nvScan
  repeat' (first
    | with_reducible assumption
    | intro _
    | (extract_lets +onlyGivenNames x; have y := x; first | (guard_hyp y : State; clear y; refine Fit.seq L s0 x ?_ ?_; rotate_left; intro hx; clear_value x; rotate_left; dsimp -zeta only [x]; clear x) | (clear y; clear_value x))
    | with_reducible apply raise_fit (In.trans (by decide) hL)
    | with_reducible apply slotSet_fit (In.trans (by decide) hL)
    | with_reducible apply slotClear_fit (In.trans (by decide) hL)
    | with_reducible apply nvPut_fit (In.trans (by decide) hL)
    | (with_reducible apply Fit.ite <;> intro _)
    | (with_reducible apply Fit.foldl)
    | (dsimp -zeta only [id])
    | (with_reducible apply Fit.of_snd; case e => with_reducible assumption)
    | (with_reducible apply Fit.of_fst; case e => with_reducible assumption)
    | (with_reducible apply Fit.upd_nv (In.trans (by decide) hL); first | (with_reducible apply Fit.ite <;> intro _) | (fail_if_success split))
    | split)

end Sys2Proof.Machine
end

