-- ==== Sys2Proof/Laws/Frame.lean ====
section
/-! SUPPORT. What the shared operations leave alone, part by part. -/

set_option Elab.async false
set_option linter.all false

namespace Sys2Proof.Machine

@[simp] theorem hostTouch_pending (s : State) : (hostTouch s).pending = s.pending :=
  (hostTouch_fit (L := 0x400) rfl (Fit.refl _ s)).2 .pending rfl
@[simp] theorem hostTouch_out (s : State) : (hostTouch s).out = s.out :=
  (hostTouch_fit (L := 0x400) rfl (Fit.refl _ s)).2 .out rfl
@[simp] theorem hostTouch_free (s : State) : (hostTouch s).free = s.free :=
  (hostTouch_fit (L := 0x400) rfl (Fit.refl _ s)).2 .free rfl
@[simp] theorem hostTouch_par (s : State) : (hostTouch s).par = s.par :=
  (hostTouch_fit (L := 0x400) rfl (Fit.refl _ s)).2 .par rfl
@[simp] theorem hostTouch_parPend (s : State) : (hostTouch s).parPend = s.parPend :=
  (hostTouch_fit (L := 0x400) rfl (Fit.refl _ s)).2 .parPend rfl
@[simp] theorem hostTouch_time (s : State) : (hostTouch s).time = s.time :=
  (hostTouch_fit (L := 0x400) rfl (Fit.refl _ s)).2 .time rfl
@[simp] theorem hostTouch_mode (s : State) : (hostTouch s).mode = s.mode :=
  (hostTouch_fit (L := 0x400) rfl (Fit.refl _ s)).2 .mode rfl
@[simp] theorem hostTouch_pwr (s : State) : (hostTouch s).pwr = s.pwr :=
  (hostTouch_fit (L := 0x400) rfl (Fit.refl _ s)).2 .pwr rfl
@[simp] theorem hostTouch_thm (s : State) : (hostTouch s).thm = s.thm :=
  (hostTouch_fit (L := 0x400) rfl (Fit.refl _ s)).2 .thm rfl
@[simp] theorem hostTouch_buf (s : State) : (hostTouch s).buf = s.buf :=
  (hostTouch_fit (L := 0x400) rfl (Fit.refl _ s)).2 .buf rfl
@[simp] theorem hostTouch_evt (s : State) : (hostTouch s).evt = s.evt :=
  (hostTouch_fit (L := 0x400) rfl (Fit.refl _ s)).2 .evt rfl
@[simp] theorem hostTouch_mem (s : State) : (hostTouch s).mem = s.mem :=
  (hostTouch_fit (L := 0x400) rfl (Fit.refl _ s)).2 .mem rfl
@[simp] theorem hostTouch_pnl (s : State) : (hostTouch s).pnl = s.pnl :=
  (hostTouch_fit (L := 0x400) rfl (Fit.refl _ s)).2 .pnl rfl
@[simp] theorem hostTouch_scene (s : State) : (hostTouch s).scene = s.scene :=
  (hostTouch_fit (L := 0x400) rfl (Fit.refl _ s)).2 .scene rfl
@[simp] theorem hostTouch_cdc (s : State) : (hostTouch s).cdc = s.cdc :=
  (hostTouch_fit (L := 0x400) rfl (Fit.refl _ s)).2 .cdc rfl
@[simp] theorem hostTouch_syn (s : State) : (hostTouch s).syn = s.syn :=
  (hostTouch_fit (L := 0x400) rfl (Fit.refl _ s)).2 .syn rfl
@[simp] theorem hostTouch_cam (s : State) : (hostTouch s).cam = s.cam :=
  (hostTouch_fit (L := 0x400) rfl (Fit.refl _ s)).2 .cam rfl
@[simp] theorem hostTouch_scn (s : State) : (hostTouch s).scn = s.scn :=
  (hostTouch_fit (L := 0x400) rfl (Fit.refl _ s)).2 .scn rfl
@[simp] theorem hostTouch_plk (s : State) : (hostTouch s).plk = s.plk :=
  (hostTouch_fit (L := 0x400) rfl (Fit.refl _ s)).2 .plk rfl
@[simp] theorem hostTouch_std (s : State) : (hostTouch s).std = s.std :=
  (hostTouch_fit (L := 0x400) rfl (Fit.refl _ s)).2 .std rfl
@[simp] theorem hostTouch_dmc (s : State) : (hostTouch s).dmc = s.dmc :=
  (hostTouch_fit (L := 0x400) rfl (Fit.refl _ s)).2 .dmc rfl
@[simp] theorem hostTouch_net (s : State) : (hostTouch s).net = s.net :=
  (hostTouch_fit (L := 0x400) rfl (Fit.refl _ s)).2 .net rfl
@[simp] theorem hostTouch_sbd (s : State) : (hostTouch s).sbd = s.sbd :=
  (hostTouch_fit (L := 0x400) rfl (Fit.refl _ s)).2 .sbd rfl
@[simp] theorem hostTouch_nv (s : State) : (hostTouch s).nv = s.nv :=
  (hostTouch_fit (L := 0x400) rfl (Fit.refl _ s)).2 .nv rfl
@[simp] theorem hostTouch_cal (s : State) : (hostTouch s).cal = s.cal :=
  (hostTouch_fit (L := 0x400) rfl (Fit.refl _ s)).2 .cal rfl
@[simp] theorem hostTouch_bst (s : State) : (hostTouch s).bst = s.bst :=
  (hostTouch_fit (L := 0x400) rfl (Fit.refl _ s)).2 .bst rfl
@[simp] theorem hostTouch_sec (s : State) : (hostTouch s).sec = s.sec :=
  (hostTouch_fit (L := 0x400) rfl (Fit.refl _ s)).2 .sec rfl
@[simp] theorem hostTouch_hwd (s : State) : (hostTouch s).hwd = s.hwd :=
  (hostTouch_fit (L := 0x400) rfl (Fit.refl _ s)).2 .hwd rfl

@[simp] theorem emit_pending (o : Out) (s : State) : (emit o s).pending = s.pending :=
  (emit_fit (L := 0x402) rfl (Fit.refl _ s)).2 .pending rfl
@[simp] theorem emit_free (o : Out) (s : State) : (emit o s).free = s.free :=
  (emit_fit (L := 0x402) rfl (Fit.refl _ s)).2 .free rfl
@[simp] theorem emit_par (o : Out) (s : State) : (emit o s).par = s.par :=
  (emit_fit (L := 0x402) rfl (Fit.refl _ s)).2 .par rfl
@[simp] theorem emit_parPend (o : Out) (s : State) : (emit o s).parPend = s.parPend :=
  (emit_fit (L := 0x402) rfl (Fit.refl _ s)).2 .parPend rfl
@[simp] theorem emit_time (o : Out) (s : State) : (emit o s).time = s.time :=
  (emit_fit (L := 0x402) rfl (Fit.refl _ s)).2 .time rfl
@[simp] theorem emit_mode (o : Out) (s : State) : (emit o s).mode = s.mode :=
  (emit_fit (L := 0x402) rfl (Fit.refl _ s)).2 .mode rfl
@[simp] theorem emit_pwr (o : Out) (s : State) : (emit o s).pwr = s.pwr :=
  (emit_fit (L := 0x402) rfl (Fit.refl _ s)).2 .pwr rfl
@[simp] theorem emit_thm (o : Out) (s : State) : (emit o s).thm = s.thm :=
  (emit_fit (L := 0x402) rfl (Fit.refl _ s)).2 .thm rfl
@[simp] theorem emit_buf (o : Out) (s : State) : (emit o s).buf = s.buf :=
  (emit_fit (L := 0x402) rfl (Fit.refl _ s)).2 .buf rfl
@[simp] theorem emit_evt (o : Out) (s : State) : (emit o s).evt = s.evt :=
  (emit_fit (L := 0x402) rfl (Fit.refl _ s)).2 .evt rfl
@[simp] theorem emit_mem (o : Out) (s : State) : (emit o s).mem = s.mem :=
  (emit_fit (L := 0x402) rfl (Fit.refl _ s)).2 .mem rfl
@[simp] theorem emit_pnl (o : Out) (s : State) : (emit o s).pnl = s.pnl :=
  (emit_fit (L := 0x402) rfl (Fit.refl _ s)).2 .pnl rfl
@[simp] theorem emit_scene (o : Out) (s : State) : (emit o s).scene = s.scene :=
  (emit_fit (L := 0x402) rfl (Fit.refl _ s)).2 .scene rfl
@[simp] theorem emit_cdc (o : Out) (s : State) : (emit o s).cdc = s.cdc :=
  (emit_fit (L := 0x402) rfl (Fit.refl _ s)).2 .cdc rfl
@[simp] theorem emit_syn (o : Out) (s : State) : (emit o s).syn = s.syn :=
  (emit_fit (L := 0x402) rfl (Fit.refl _ s)).2 .syn rfl
@[simp] theorem emit_cam (o : Out) (s : State) : (emit o s).cam = s.cam :=
  (emit_fit (L := 0x402) rfl (Fit.refl _ s)).2 .cam rfl
@[simp] theorem emit_scn (o : Out) (s : State) : (emit o s).scn = s.scn :=
  (emit_fit (L := 0x402) rfl (Fit.refl _ s)).2 .scn rfl
@[simp] theorem emit_plk (o : Out) (s : State) : (emit o s).plk = s.plk :=
  (emit_fit (L := 0x402) rfl (Fit.refl _ s)).2 .plk rfl
@[simp] theorem emit_std (o : Out) (s : State) : (emit o s).std = s.std :=
  (emit_fit (L := 0x402) rfl (Fit.refl _ s)).2 .std rfl
@[simp] theorem emit_dmc (o : Out) (s : State) : (emit o s).dmc = s.dmc :=
  (emit_fit (L := 0x402) rfl (Fit.refl _ s)).2 .dmc rfl
@[simp] theorem emit_net (o : Out) (s : State) : (emit o s).net = s.net :=
  (emit_fit (L := 0x402) rfl (Fit.refl _ s)).2 .net rfl
@[simp] theorem emit_sbd (o : Out) (s : State) : (emit o s).sbd = s.sbd :=
  (emit_fit (L := 0x402) rfl (Fit.refl _ s)).2 .sbd rfl
@[simp] theorem emit_nv (o : Out) (s : State) : (emit o s).nv = s.nv :=
  (emit_fit (L := 0x402) rfl (Fit.refl _ s)).2 .nv rfl
@[simp] theorem emit_cal (o : Out) (s : State) : (emit o s).cal = s.cal :=
  (emit_fit (L := 0x402) rfl (Fit.refl _ s)).2 .cal rfl
@[simp] theorem emit_bst (o : Out) (s : State) : (emit o s).bst = s.bst :=
  (emit_fit (L := 0x402) rfl (Fit.refl _ s)).2 .bst rfl
@[simp] theorem emit_sec (o : Out) (s : State) : (emit o s).sec = s.sec :=
  (emit_fit (L := 0x402) rfl (Fit.refl _ s)).2 .sec rfl
@[simp] theorem emit_hwd (o : Out) (s : State) : (emit o s).hwd = s.hwd :=
  (emit_fit (L := 0x402) rfl (Fit.refl _ s)).2 .hwd rfl

@[simp] theorem drawn_pending (s : State) : (drawn s).pending = s.pending :=
  (drawn_fit (L := 0x4) rfl (Fit.refl _ s)).2 .pending rfl
@[simp] theorem drawn_out (s : State) : (drawn s).out = s.out :=
  (drawn_fit (L := 0x4) rfl (Fit.refl _ s)).2 .out rfl
@[simp] theorem drawn_par (s : State) : (drawn s).par = s.par :=
  (drawn_fit (L := 0x4) rfl (Fit.refl _ s)).2 .par rfl
@[simp] theorem drawn_parPend (s : State) : (drawn s).parPend = s.parPend :=
  (drawn_fit (L := 0x4) rfl (Fit.refl _ s)).2 .parPend rfl
@[simp] theorem drawn_time (s : State) : (drawn s).time = s.time :=
  (drawn_fit (L := 0x4) rfl (Fit.refl _ s)).2 .time rfl
@[simp] theorem drawn_mode (s : State) : (drawn s).mode = s.mode :=
  (drawn_fit (L := 0x4) rfl (Fit.refl _ s)).2 .mode rfl
@[simp] theorem drawn_pwr (s : State) : (drawn s).pwr = s.pwr :=
  (drawn_fit (L := 0x4) rfl (Fit.refl _ s)).2 .pwr rfl
@[simp] theorem drawn_thm (s : State) : (drawn s).thm = s.thm :=
  (drawn_fit (L := 0x4) rfl (Fit.refl _ s)).2 .thm rfl
@[simp] theorem drawn_buf (s : State) : (drawn s).buf = s.buf :=
  (drawn_fit (L := 0x4) rfl (Fit.refl _ s)).2 .buf rfl
@[simp] theorem drawn_cmd (s : State) : (drawn s).cmd = s.cmd :=
  (drawn_fit (L := 0x4) rfl (Fit.refl _ s)).2 .cmd rfl
@[simp] theorem drawn_evt (s : State) : (drawn s).evt = s.evt :=
  (drawn_fit (L := 0x4) rfl (Fit.refl _ s)).2 .evt rfl
@[simp] theorem drawn_mem (s : State) : (drawn s).mem = s.mem :=
  (drawn_fit (L := 0x4) rfl (Fit.refl _ s)).2 .mem rfl
@[simp] theorem drawn_pnl (s : State) : (drawn s).pnl = s.pnl :=
  (drawn_fit (L := 0x4) rfl (Fit.refl _ s)).2 .pnl rfl
@[simp] theorem drawn_scene (s : State) : (drawn s).scene = s.scene :=
  (drawn_fit (L := 0x4) rfl (Fit.refl _ s)).2 .scene rfl
@[simp] theorem drawn_cdc (s : State) : (drawn s).cdc = s.cdc :=
  (drawn_fit (L := 0x4) rfl (Fit.refl _ s)).2 .cdc rfl
@[simp] theorem drawn_syn (s : State) : (drawn s).syn = s.syn :=
  (drawn_fit (L := 0x4) rfl (Fit.refl _ s)).2 .syn rfl
@[simp] theorem drawn_cam (s : State) : (drawn s).cam = s.cam :=
  (drawn_fit (L := 0x4) rfl (Fit.refl _ s)).2 .cam rfl
@[simp] theorem drawn_scn (s : State) : (drawn s).scn = s.scn :=
  (drawn_fit (L := 0x4) rfl (Fit.refl _ s)).2 .scn rfl
@[simp] theorem drawn_plk (s : State) : (drawn s).plk = s.plk :=
  (drawn_fit (L := 0x4) rfl (Fit.refl _ s)).2 .plk rfl
@[simp] theorem drawn_std (s : State) : (drawn s).std = s.std :=
  (drawn_fit (L := 0x4) rfl (Fit.refl _ s)).2 .std rfl
@[simp] theorem drawn_dmc (s : State) : (drawn s).dmc = s.dmc :=
  (drawn_fit (L := 0x4) rfl (Fit.refl _ s)).2 .dmc rfl
@[simp] theorem drawn_net (s : State) : (drawn s).net = s.net :=
  (drawn_fit (L := 0x4) rfl (Fit.refl _ s)).2 .net rfl
@[simp] theorem drawn_sbd (s : State) : (drawn s).sbd = s.sbd :=
  (drawn_fit (L := 0x4) rfl (Fit.refl _ s)).2 .sbd rfl
@[simp] theorem drawn_nv (s : State) : (drawn s).nv = s.nv :=
  (drawn_fit (L := 0x4) rfl (Fit.refl _ s)).2 .nv rfl
@[simp] theorem drawn_cal (s : State) : (drawn s).cal = s.cal :=
  (drawn_fit (L := 0x4) rfl (Fit.refl _ s)).2 .cal rfl
@[simp] theorem drawn_bst (s : State) : (drawn s).bst = s.bst :=
  (drawn_fit (L := 0x4) rfl (Fit.refl _ s)).2 .bst rfl
@[simp] theorem drawn_sec (s : State) : (drawn s).sec = s.sec :=
  (drawn_fit (L := 0x4) rfl (Fit.refl _ s)).2 .sec rfl
@[simp] theorem drawn_hwd (s : State) : (drawn s).hwd = s.hwd :=
  (drawn_fit (L := 0x4) rfl (Fit.refl _ s)).2 .hwd rfl

@[simp] theorem ticks_pending (n : Nat) (s : State) : (ticks n s).pending = s.pending :=
  (ticks_fit (L := 0x20) rfl (Fit.refl _ s)).2 .pending rfl
@[simp] theorem ticks_out (n : Nat) (s : State) : (ticks n s).out = s.out :=
  (ticks_fit (L := 0x20) rfl (Fit.refl _ s)).2 .out rfl
@[simp] theorem ticks_free (n : Nat) (s : State) : (ticks n s).free = s.free :=
  (ticks_fit (L := 0x20) rfl (Fit.refl _ s)).2 .free rfl
@[simp] theorem ticks_par (n : Nat) (s : State) : (ticks n s).par = s.par :=
  (ticks_fit (L := 0x20) rfl (Fit.refl _ s)).2 .par rfl
@[simp] theorem ticks_parPend (n : Nat) (s : State) : (ticks n s).parPend = s.parPend :=
  (ticks_fit (L := 0x20) rfl (Fit.refl _ s)).2 .parPend rfl
@[simp] theorem ticks_mode (n : Nat) (s : State) : (ticks n s).mode = s.mode :=
  (ticks_fit (L := 0x20) rfl (Fit.refl _ s)).2 .mode rfl
@[simp] theorem ticks_pwr (n : Nat) (s : State) : (ticks n s).pwr = s.pwr :=
  (ticks_fit (L := 0x20) rfl (Fit.refl _ s)).2 .pwr rfl
@[simp] theorem ticks_thm (n : Nat) (s : State) : (ticks n s).thm = s.thm :=
  (ticks_fit (L := 0x20) rfl (Fit.refl _ s)).2 .thm rfl
@[simp] theorem ticks_buf (n : Nat) (s : State) : (ticks n s).buf = s.buf :=
  (ticks_fit (L := 0x20) rfl (Fit.refl _ s)).2 .buf rfl
@[simp] theorem ticks_cmd (n : Nat) (s : State) : (ticks n s).cmd = s.cmd :=
  (ticks_fit (L := 0x20) rfl (Fit.refl _ s)).2 .cmd rfl
@[simp] theorem ticks_evt (n : Nat) (s : State) : (ticks n s).evt = s.evt :=
  (ticks_fit (L := 0x20) rfl (Fit.refl _ s)).2 .evt rfl
@[simp] theorem ticks_mem (n : Nat) (s : State) : (ticks n s).mem = s.mem :=
  (ticks_fit (L := 0x20) rfl (Fit.refl _ s)).2 .mem rfl
@[simp] theorem ticks_pnl (n : Nat) (s : State) : (ticks n s).pnl = s.pnl :=
  (ticks_fit (L := 0x20) rfl (Fit.refl _ s)).2 .pnl rfl
@[simp] theorem ticks_scene (n : Nat) (s : State) : (ticks n s).scene = s.scene :=
  (ticks_fit (L := 0x20) rfl (Fit.refl _ s)).2 .scene rfl
@[simp] theorem ticks_cdc (n : Nat) (s : State) : (ticks n s).cdc = s.cdc :=
  (ticks_fit (L := 0x20) rfl (Fit.refl _ s)).2 .cdc rfl
@[simp] theorem ticks_syn (n : Nat) (s : State) : (ticks n s).syn = s.syn :=
  (ticks_fit (L := 0x20) rfl (Fit.refl _ s)).2 .syn rfl
@[simp] theorem ticks_cam (n : Nat) (s : State) : (ticks n s).cam = s.cam :=
  (ticks_fit (L := 0x20) rfl (Fit.refl _ s)).2 .cam rfl
@[simp] theorem ticks_scn (n : Nat) (s : State) : (ticks n s).scn = s.scn :=
  (ticks_fit (L := 0x20) rfl (Fit.refl _ s)).2 .scn rfl
@[simp] theorem ticks_plk (n : Nat) (s : State) : (ticks n s).plk = s.plk :=
  (ticks_fit (L := 0x20) rfl (Fit.refl _ s)).2 .plk rfl
@[simp] theorem ticks_std (n : Nat) (s : State) : (ticks n s).std = s.std :=
  (ticks_fit (L := 0x20) rfl (Fit.refl _ s)).2 .std rfl
@[simp] theorem ticks_dmc (n : Nat) (s : State) : (ticks n s).dmc = s.dmc :=
  (ticks_fit (L := 0x20) rfl (Fit.refl _ s)).2 .dmc rfl
@[simp] theorem ticks_net (n : Nat) (s : State) : (ticks n s).net = s.net :=
  (ticks_fit (L := 0x20) rfl (Fit.refl _ s)).2 .net rfl
@[simp] theorem ticks_sbd (n : Nat) (s : State) : (ticks n s).sbd = s.sbd :=
  (ticks_fit (L := 0x20) rfl (Fit.refl _ s)).2 .sbd rfl
@[simp] theorem ticks_nv (n : Nat) (s : State) : (ticks n s).nv = s.nv :=
  (ticks_fit (L := 0x20) rfl (Fit.refl _ s)).2 .nv rfl
@[simp] theorem ticks_cal (n : Nat) (s : State) : (ticks n s).cal = s.cal :=
  (ticks_fit (L := 0x20) rfl (Fit.refl _ s)).2 .cal rfl
@[simp] theorem ticks_bst (n : Nat) (s : State) : (ticks n s).bst = s.bst :=
  (ticks_fit (L := 0x20) rfl (Fit.refl _ s)).2 .bst rfl
@[simp] theorem ticks_sec (n : Nat) (s : State) : (ticks n s).sec = s.sec :=
  (ticks_fit (L := 0x20) rfl (Fit.refl _ s)).2 .sec rfl
@[simp] theorem ticks_hwd (n : Nat) (s : State) : (ticks n s).hwd = s.hwd :=
  (ticks_fit (L := 0x20) rfl (Fit.refl _ s)).2 .hwd rfl

@[simp] theorem advanceMer_pending (t : Nat) (s : State) : (advanceMer t s).pending = s.pending :=
  (advanceMer_fit (L := 0x20) rfl (Fit.refl _ s)).2 .pending rfl
@[simp] theorem advanceMer_out (t : Nat) (s : State) : (advanceMer t s).out = s.out :=
  (advanceMer_fit (L := 0x20) rfl (Fit.refl _ s)).2 .out rfl
@[simp] theorem advanceMer_free (t : Nat) (s : State) : (advanceMer t s).free = s.free :=
  (advanceMer_fit (L := 0x20) rfl (Fit.refl _ s)).2 .free rfl
@[simp] theorem advanceMer_par (t : Nat) (s : State) : (advanceMer t s).par = s.par :=
  (advanceMer_fit (L := 0x20) rfl (Fit.refl _ s)).2 .par rfl
@[simp] theorem advanceMer_parPend (t : Nat) (s : State) : (advanceMer t s).parPend = s.parPend :=
  (advanceMer_fit (L := 0x20) rfl (Fit.refl _ s)).2 .parPend rfl
@[simp] theorem advanceMer_mode (t : Nat) (s : State) : (advanceMer t s).mode = s.mode :=
  (advanceMer_fit (L := 0x20) rfl (Fit.refl _ s)).2 .mode rfl
@[simp] theorem advanceMer_pwr (t : Nat) (s : State) : (advanceMer t s).pwr = s.pwr :=
  (advanceMer_fit (L := 0x20) rfl (Fit.refl _ s)).2 .pwr rfl
@[simp] theorem advanceMer_thm (t : Nat) (s : State) : (advanceMer t s).thm = s.thm :=
  (advanceMer_fit (L := 0x20) rfl (Fit.refl _ s)).2 .thm rfl
@[simp] theorem advanceMer_buf (t : Nat) (s : State) : (advanceMer t s).buf = s.buf :=
  (advanceMer_fit (L := 0x20) rfl (Fit.refl _ s)).2 .buf rfl
@[simp] theorem advanceMer_cmd (t : Nat) (s : State) : (advanceMer t s).cmd = s.cmd :=
  (advanceMer_fit (L := 0x20) rfl (Fit.refl _ s)).2 .cmd rfl
@[simp] theorem advanceMer_evt (t : Nat) (s : State) : (advanceMer t s).evt = s.evt :=
  (advanceMer_fit (L := 0x20) rfl (Fit.refl _ s)).2 .evt rfl
@[simp] theorem advanceMer_mem (t : Nat) (s : State) : (advanceMer t s).mem = s.mem :=
  (advanceMer_fit (L := 0x20) rfl (Fit.refl _ s)).2 .mem rfl
@[simp] theorem advanceMer_pnl (t : Nat) (s : State) : (advanceMer t s).pnl = s.pnl :=
  (advanceMer_fit (L := 0x20) rfl (Fit.refl _ s)).2 .pnl rfl
@[simp] theorem advanceMer_scene (t : Nat) (s : State) : (advanceMer t s).scene = s.scene :=
  (advanceMer_fit (L := 0x20) rfl (Fit.refl _ s)).2 .scene rfl
@[simp] theorem advanceMer_cdc (t : Nat) (s : State) : (advanceMer t s).cdc = s.cdc :=
  (advanceMer_fit (L := 0x20) rfl (Fit.refl _ s)).2 .cdc rfl
@[simp] theorem advanceMer_syn (t : Nat) (s : State) : (advanceMer t s).syn = s.syn :=
  (advanceMer_fit (L := 0x20) rfl (Fit.refl _ s)).2 .syn rfl
@[simp] theorem advanceMer_cam (t : Nat) (s : State) : (advanceMer t s).cam = s.cam :=
  (advanceMer_fit (L := 0x20) rfl (Fit.refl _ s)).2 .cam rfl
@[simp] theorem advanceMer_scn (t : Nat) (s : State) : (advanceMer t s).scn = s.scn :=
  (advanceMer_fit (L := 0x20) rfl (Fit.refl _ s)).2 .scn rfl
@[simp] theorem advanceMer_plk (t : Nat) (s : State) : (advanceMer t s).plk = s.plk :=
  (advanceMer_fit (L := 0x20) rfl (Fit.refl _ s)).2 .plk rfl
@[simp] theorem advanceMer_std (t : Nat) (s : State) : (advanceMer t s).std = s.std :=
  (advanceMer_fit (L := 0x20) rfl (Fit.refl _ s)).2 .std rfl
@[simp] theorem advanceMer_dmc (t : Nat) (s : State) : (advanceMer t s).dmc = s.dmc :=
  (advanceMer_fit (L := 0x20) rfl (Fit.refl _ s)).2 .dmc rfl
@[simp] theorem advanceMer_net (t : Nat) (s : State) : (advanceMer t s).net = s.net :=
  (advanceMer_fit (L := 0x20) rfl (Fit.refl _ s)).2 .net rfl
@[simp] theorem advanceMer_sbd (t : Nat) (s : State) : (advanceMer t s).sbd = s.sbd :=
  (advanceMer_fit (L := 0x20) rfl (Fit.refl _ s)).2 .sbd rfl
@[simp] theorem advanceMer_nv (t : Nat) (s : State) : (advanceMer t s).nv = s.nv :=
  (advanceMer_fit (L := 0x20) rfl (Fit.refl _ s)).2 .nv rfl
@[simp] theorem advanceMer_cal (t : Nat) (s : State) : (advanceMer t s).cal = s.cal :=
  (advanceMer_fit (L := 0x20) rfl (Fit.refl _ s)).2 .cal rfl
@[simp] theorem advanceMer_bst (t : Nat) (s : State) : (advanceMer t s).bst = s.bst :=
  (advanceMer_fit (L := 0x20) rfl (Fit.refl _ s)).2 .bst rfl
@[simp] theorem advanceMer_sec (t : Nat) (s : State) : (advanceMer t s).sec = s.sec :=
  (advanceMer_fit (L := 0x20) rfl (Fit.refl _ s)).2 .sec rfl
@[simp] theorem advanceMer_hwd (t : Nat) (s : State) : (advanceMer t s).hwd = s.hwd :=
  (advanceMer_fit (L := 0x20) rfl (Fit.refl _ s)).2 .hwd rfl

@[simp] theorem advanceRef_pending (r : Nat) (s : State) : (advanceRef r s).pending = s.pending :=
  (advanceRef_fit (L := 0x20) rfl (Fit.refl _ s)).2 .pending rfl
@[simp] theorem advanceRef_out (r : Nat) (s : State) : (advanceRef r s).out = s.out :=
  (advanceRef_fit (L := 0x20) rfl (Fit.refl _ s)).2 .out rfl
@[simp] theorem advanceRef_free (r : Nat) (s : State) : (advanceRef r s).free = s.free :=
  (advanceRef_fit (L := 0x20) rfl (Fit.refl _ s)).2 .free rfl
@[simp] theorem advanceRef_par (r : Nat) (s : State) : (advanceRef r s).par = s.par :=
  (advanceRef_fit (L := 0x20) rfl (Fit.refl _ s)).2 .par rfl
@[simp] theorem advanceRef_parPend (r : Nat) (s : State) : (advanceRef r s).parPend = s.parPend :=
  (advanceRef_fit (L := 0x20) rfl (Fit.refl _ s)).2 .parPend rfl
@[simp] theorem advanceRef_mode (r : Nat) (s : State) : (advanceRef r s).mode = s.mode :=
  (advanceRef_fit (L := 0x20) rfl (Fit.refl _ s)).2 .mode rfl
@[simp] theorem advanceRef_pwr (r : Nat) (s : State) : (advanceRef r s).pwr = s.pwr :=
  (advanceRef_fit (L := 0x20) rfl (Fit.refl _ s)).2 .pwr rfl
@[simp] theorem advanceRef_thm (r : Nat) (s : State) : (advanceRef r s).thm = s.thm :=
  (advanceRef_fit (L := 0x20) rfl (Fit.refl _ s)).2 .thm rfl
@[simp] theorem advanceRef_buf (r : Nat) (s : State) : (advanceRef r s).buf = s.buf :=
  (advanceRef_fit (L := 0x20) rfl (Fit.refl _ s)).2 .buf rfl
@[simp] theorem advanceRef_cmd (r : Nat) (s : State) : (advanceRef r s).cmd = s.cmd :=
  (advanceRef_fit (L := 0x20) rfl (Fit.refl _ s)).2 .cmd rfl
@[simp] theorem advanceRef_evt (r : Nat) (s : State) : (advanceRef r s).evt = s.evt :=
  (advanceRef_fit (L := 0x20) rfl (Fit.refl _ s)).2 .evt rfl
@[simp] theorem advanceRef_mem (r : Nat) (s : State) : (advanceRef r s).mem = s.mem :=
  (advanceRef_fit (L := 0x20) rfl (Fit.refl _ s)).2 .mem rfl
@[simp] theorem advanceRef_pnl (r : Nat) (s : State) : (advanceRef r s).pnl = s.pnl :=
  (advanceRef_fit (L := 0x20) rfl (Fit.refl _ s)).2 .pnl rfl
@[simp] theorem advanceRef_scene (r : Nat) (s : State) : (advanceRef r s).scene = s.scene :=
  (advanceRef_fit (L := 0x20) rfl (Fit.refl _ s)).2 .scene rfl
@[simp] theorem advanceRef_cdc (r : Nat) (s : State) : (advanceRef r s).cdc = s.cdc :=
  (advanceRef_fit (L := 0x20) rfl (Fit.refl _ s)).2 .cdc rfl
@[simp] theorem advanceRef_syn (r : Nat) (s : State) : (advanceRef r s).syn = s.syn :=
  (advanceRef_fit (L := 0x20) rfl (Fit.refl _ s)).2 .syn rfl
@[simp] theorem advanceRef_cam (r : Nat) (s : State) : (advanceRef r s).cam = s.cam :=
  (advanceRef_fit (L := 0x20) rfl (Fit.refl _ s)).2 .cam rfl
@[simp] theorem advanceRef_scn (r : Nat) (s : State) : (advanceRef r s).scn = s.scn :=
  (advanceRef_fit (L := 0x20) rfl (Fit.refl _ s)).2 .scn rfl
@[simp] theorem advanceRef_plk (r : Nat) (s : State) : (advanceRef r s).plk = s.plk :=
  (advanceRef_fit (L := 0x20) rfl (Fit.refl _ s)).2 .plk rfl
@[simp] theorem advanceRef_std (r : Nat) (s : State) : (advanceRef r s).std = s.std :=
  (advanceRef_fit (L := 0x20) rfl (Fit.refl _ s)).2 .std rfl
@[simp] theorem advanceRef_dmc (r : Nat) (s : State) : (advanceRef r s).dmc = s.dmc :=
  (advanceRef_fit (L := 0x20) rfl (Fit.refl _ s)).2 .dmc rfl
@[simp] theorem advanceRef_net (r : Nat) (s : State) : (advanceRef r s).net = s.net :=
  (advanceRef_fit (L := 0x20) rfl (Fit.refl _ s)).2 .net rfl
@[simp] theorem advanceRef_sbd (r : Nat) (s : State) : (advanceRef r s).sbd = s.sbd :=
  (advanceRef_fit (L := 0x20) rfl (Fit.refl _ s)).2 .sbd rfl
@[simp] theorem advanceRef_nv (r : Nat) (s : State) : (advanceRef r s).nv = s.nv :=
  (advanceRef_fit (L := 0x20) rfl (Fit.refl _ s)).2 .nv rfl
@[simp] theorem advanceRef_cal (r : Nat) (s : State) : (advanceRef r s).cal = s.cal :=
  (advanceRef_fit (L := 0x20) rfl (Fit.refl _ s)).2 .cal rfl
@[simp] theorem advanceRef_bst (r : Nat) (s : State) : (advanceRef r s).bst = s.bst :=
  (advanceRef_fit (L := 0x20) rfl (Fit.refl _ s)).2 .bst rfl
@[simp] theorem advanceRef_sec (r : Nat) (s : State) : (advanceRef r s).sec = s.sec :=
  (advanceRef_fit (L := 0x20) rfl (Fit.refl _ s)).2 .sec rfl
@[simp] theorem advanceRef_hwd (r : Nat) (s : State) : (advanceRef r s).hwd = s.hwd :=
  (advanceRef_fit (L := 0x20) rfl (Fit.refl _ s)).2 .hwd rfl

@[simp] theorem sendMsix_pending (v : Nat) (s : State) : (sendMsix v s).pending = s.pending :=
  (sendMsix_fit (L := 0x402) rfl (Fit.refl _ s)).2 .pending rfl
@[simp] theorem sendMsix_free (v : Nat) (s : State) : (sendMsix v s).free = s.free :=
  (sendMsix_fit (L := 0x402) rfl (Fit.refl _ s)).2 .free rfl
@[simp] theorem sendMsix_par (v : Nat) (s : State) : (sendMsix v s).par = s.par :=
  (sendMsix_fit (L := 0x402) rfl (Fit.refl _ s)).2 .par rfl
@[simp] theorem sendMsix_parPend (v : Nat) (s : State) : (sendMsix v s).parPend = s.parPend :=
  (sendMsix_fit (L := 0x402) rfl (Fit.refl _ s)).2 .parPend rfl
@[simp] theorem sendMsix_time (v : Nat) (s : State) : (sendMsix v s).time = s.time :=
  (sendMsix_fit (L := 0x402) rfl (Fit.refl _ s)).2 .time rfl
@[simp] theorem sendMsix_mode (v : Nat) (s : State) : (sendMsix v s).mode = s.mode :=
  (sendMsix_fit (L := 0x402) rfl (Fit.refl _ s)).2 .mode rfl
@[simp] theorem sendMsix_pwr (v : Nat) (s : State) : (sendMsix v s).pwr = s.pwr :=
  (sendMsix_fit (L := 0x402) rfl (Fit.refl _ s)).2 .pwr rfl
@[simp] theorem sendMsix_thm (v : Nat) (s : State) : (sendMsix v s).thm = s.thm :=
  (sendMsix_fit (L := 0x402) rfl (Fit.refl _ s)).2 .thm rfl
@[simp] theorem sendMsix_buf (v : Nat) (s : State) : (sendMsix v s).buf = s.buf :=
  (sendMsix_fit (L := 0x402) rfl (Fit.refl _ s)).2 .buf rfl
@[simp] theorem sendMsix_evt (v : Nat) (s : State) : (sendMsix v s).evt = s.evt :=
  (sendMsix_fit (L := 0x402) rfl (Fit.refl _ s)).2 .evt rfl
@[simp] theorem sendMsix_mem (v : Nat) (s : State) : (sendMsix v s).mem = s.mem :=
  (sendMsix_fit (L := 0x402) rfl (Fit.refl _ s)).2 .mem rfl
@[simp] theorem sendMsix_pnl (v : Nat) (s : State) : (sendMsix v s).pnl = s.pnl :=
  (sendMsix_fit (L := 0x402) rfl (Fit.refl _ s)).2 .pnl rfl
@[simp] theorem sendMsix_scene (v : Nat) (s : State) : (sendMsix v s).scene = s.scene :=
  (sendMsix_fit (L := 0x402) rfl (Fit.refl _ s)).2 .scene rfl
@[simp] theorem sendMsix_cdc (v : Nat) (s : State) : (sendMsix v s).cdc = s.cdc :=
  (sendMsix_fit (L := 0x402) rfl (Fit.refl _ s)).2 .cdc rfl
@[simp] theorem sendMsix_syn (v : Nat) (s : State) : (sendMsix v s).syn = s.syn :=
  (sendMsix_fit (L := 0x402) rfl (Fit.refl _ s)).2 .syn rfl
@[simp] theorem sendMsix_cam (v : Nat) (s : State) : (sendMsix v s).cam = s.cam :=
  (sendMsix_fit (L := 0x402) rfl (Fit.refl _ s)).2 .cam rfl
@[simp] theorem sendMsix_scn (v : Nat) (s : State) : (sendMsix v s).scn = s.scn :=
  (sendMsix_fit (L := 0x402) rfl (Fit.refl _ s)).2 .scn rfl
@[simp] theorem sendMsix_plk (v : Nat) (s : State) : (sendMsix v s).plk = s.plk :=
  (sendMsix_fit (L := 0x402) rfl (Fit.refl _ s)).2 .plk rfl
@[simp] theorem sendMsix_std (v : Nat) (s : State) : (sendMsix v s).std = s.std :=
  (sendMsix_fit (L := 0x402) rfl (Fit.refl _ s)).2 .std rfl
@[simp] theorem sendMsix_dmc (v : Nat) (s : State) : (sendMsix v s).dmc = s.dmc :=
  (sendMsix_fit (L := 0x402) rfl (Fit.refl _ s)).2 .dmc rfl
@[simp] theorem sendMsix_net (v : Nat) (s : State) : (sendMsix v s).net = s.net :=
  (sendMsix_fit (L := 0x402) rfl (Fit.refl _ s)).2 .net rfl
@[simp] theorem sendMsix_sbd (v : Nat) (s : State) : (sendMsix v s).sbd = s.sbd :=
  (sendMsix_fit (L := 0x402) rfl (Fit.refl _ s)).2 .sbd rfl
@[simp] theorem sendMsix_nv (v : Nat) (s : State) : (sendMsix v s).nv = s.nv :=
  (sendMsix_fit (L := 0x402) rfl (Fit.refl _ s)).2 .nv rfl
@[simp] theorem sendMsix_cal (v : Nat) (s : State) : (sendMsix v s).cal = s.cal :=
  (sendMsix_fit (L := 0x402) rfl (Fit.refl _ s)).2 .cal rfl
@[simp] theorem sendMsix_bst (v : Nat) (s : State) : (sendMsix v s).bst = s.bst :=
  (sendMsix_fit (L := 0x402) rfl (Fit.refl _ s)).2 .bst rfl
@[simp] theorem sendMsix_sec (v : Nat) (s : State) : (sendMsix v s).sec = s.sec :=
  (sendMsix_fit (L := 0x402) rfl (Fit.refl _ s)).2 .sec rfl
@[simp] theorem sendMsix_hwd (v : Nat) (s : State) : (sendMsix v s).hwd = s.hwd :=
  (sendMsix_fit (L := 0x402) rfl (Fit.refl _ s)).2 .hwd rfl

@[simp] theorem evqWrite_pending (r : Rec) (s : State) : (evqWrite r s).pending = s.pending :=
  (evqWrite_fit (L := 0xC02) rfl (Fit.refl _ s)).2 .pending rfl
@[simp] theorem evqWrite_free (r : Rec) (s : State) : (evqWrite r s).free = s.free :=
  (evqWrite_fit (L := 0xC02) rfl (Fit.refl _ s)).2 .free rfl
@[simp] theorem evqWrite_par (r : Rec) (s : State) : (evqWrite r s).par = s.par :=
  (evqWrite_fit (L := 0xC02) rfl (Fit.refl _ s)).2 .par rfl
@[simp] theorem evqWrite_parPend (r : Rec) (s : State) : (evqWrite r s).parPend = s.parPend :=
  (evqWrite_fit (L := 0xC02) rfl (Fit.refl _ s)).2 .parPend rfl
@[simp] theorem evqWrite_time (r : Rec) (s : State) : (evqWrite r s).time = s.time :=
  (evqWrite_fit (L := 0xC02) rfl (Fit.refl _ s)).2 .time rfl
@[simp] theorem evqWrite_mode (r : Rec) (s : State) : (evqWrite r s).mode = s.mode :=
  (evqWrite_fit (L := 0xC02) rfl (Fit.refl _ s)).2 .mode rfl
@[simp] theorem evqWrite_pwr (r : Rec) (s : State) : (evqWrite r s).pwr = s.pwr :=
  (evqWrite_fit (L := 0xC02) rfl (Fit.refl _ s)).2 .pwr rfl
@[simp] theorem evqWrite_thm (r : Rec) (s : State) : (evqWrite r s).thm = s.thm :=
  (evqWrite_fit (L := 0xC02) rfl (Fit.refl _ s)).2 .thm rfl
@[simp] theorem evqWrite_buf (r : Rec) (s : State) : (evqWrite r s).buf = s.buf :=
  (evqWrite_fit (L := 0xC02) rfl (Fit.refl _ s)).2 .buf rfl
@[simp] theorem evqWrite_mem (r : Rec) (s : State) : (evqWrite r s).mem = s.mem :=
  (evqWrite_fit (L := 0xC02) rfl (Fit.refl _ s)).2 .mem rfl
@[simp] theorem evqWrite_pnl (r : Rec) (s : State) : (evqWrite r s).pnl = s.pnl :=
  (evqWrite_fit (L := 0xC02) rfl (Fit.refl _ s)).2 .pnl rfl
@[simp] theorem evqWrite_scene (r : Rec) (s : State) : (evqWrite r s).scene = s.scene :=
  (evqWrite_fit (L := 0xC02) rfl (Fit.refl _ s)).2 .scene rfl
@[simp] theorem evqWrite_cdc (r : Rec) (s : State) : (evqWrite r s).cdc = s.cdc :=
  (evqWrite_fit (L := 0xC02) rfl (Fit.refl _ s)).2 .cdc rfl
@[simp] theorem evqWrite_syn (r : Rec) (s : State) : (evqWrite r s).syn = s.syn :=
  (evqWrite_fit (L := 0xC02) rfl (Fit.refl _ s)).2 .syn rfl
@[simp] theorem evqWrite_cam (r : Rec) (s : State) : (evqWrite r s).cam = s.cam :=
  (evqWrite_fit (L := 0xC02) rfl (Fit.refl _ s)).2 .cam rfl
@[simp] theorem evqWrite_scn (r : Rec) (s : State) : (evqWrite r s).scn = s.scn :=
  (evqWrite_fit (L := 0xC02) rfl (Fit.refl _ s)).2 .scn rfl
@[simp] theorem evqWrite_plk (r : Rec) (s : State) : (evqWrite r s).plk = s.plk :=
  (evqWrite_fit (L := 0xC02) rfl (Fit.refl _ s)).2 .plk rfl
@[simp] theorem evqWrite_std (r : Rec) (s : State) : (evqWrite r s).std = s.std :=
  (evqWrite_fit (L := 0xC02) rfl (Fit.refl _ s)).2 .std rfl
@[simp] theorem evqWrite_dmc (r : Rec) (s : State) : (evqWrite r s).dmc = s.dmc :=
  (evqWrite_fit (L := 0xC02) rfl (Fit.refl _ s)).2 .dmc rfl
@[simp] theorem evqWrite_net (r : Rec) (s : State) : (evqWrite r s).net = s.net :=
  (evqWrite_fit (L := 0xC02) rfl (Fit.refl _ s)).2 .net rfl
@[simp] theorem evqWrite_sbd (r : Rec) (s : State) : (evqWrite r s).sbd = s.sbd :=
  (evqWrite_fit (L := 0xC02) rfl (Fit.refl _ s)).2 .sbd rfl
@[simp] theorem evqWrite_nv (r : Rec) (s : State) : (evqWrite r s).nv = s.nv :=
  (evqWrite_fit (L := 0xC02) rfl (Fit.refl _ s)).2 .nv rfl
@[simp] theorem evqWrite_cal (r : Rec) (s : State) : (evqWrite r s).cal = s.cal :=
  (evqWrite_fit (L := 0xC02) rfl (Fit.refl _ s)).2 .cal rfl
@[simp] theorem evqWrite_bst (r : Rec) (s : State) : (evqWrite r s).bst = s.bst :=
  (evqWrite_fit (L := 0xC02) rfl (Fit.refl _ s)).2 .bst rfl
@[simp] theorem evqWrite_sec (r : Rec) (s : State) : (evqWrite r s).sec = s.sec :=
  (evqWrite_fit (L := 0xC02) rfl (Fit.refl _ s)).2 .sec rfl
@[simp] theorem evqWrite_hwd (r : Rec) (s : State) : (evqWrite r s).hwd = s.hwd :=
  (evqWrite_fit (L := 0xC02) rfl (Fit.refl _ s)).2 .hwd rfl

@[simp] theorem post_pending (r : Rec) (s : State) : (post r s).pending = s.pending :=
  (post_fit (L := 0xC02) rfl (Fit.refl _ s)).2 .pending rfl
@[simp] theorem post_free (r : Rec) (s : State) : (post r s).free = s.free :=
  (post_fit (L := 0xC02) rfl (Fit.refl _ s)).2 .free rfl
@[simp] theorem post_par (r : Rec) (s : State) : (post r s).par = s.par :=
  (post_fit (L := 0xC02) rfl (Fit.refl _ s)).2 .par rfl
@[simp] theorem post_parPend (r : Rec) (s : State) : (post r s).parPend = s.parPend :=
  (post_fit (L := 0xC02) rfl (Fit.refl _ s)).2 .parPend rfl
@[simp] theorem post_time (r : Rec) (s : State) : (post r s).time = s.time :=
  (post_fit (L := 0xC02) rfl (Fit.refl _ s)).2 .time rfl
@[simp] theorem post_mode (r : Rec) (s : State) : (post r s).mode = s.mode :=
  (post_fit (L := 0xC02) rfl (Fit.refl _ s)).2 .mode rfl
@[simp] theorem post_pwr (r : Rec) (s : State) : (post r s).pwr = s.pwr :=
  (post_fit (L := 0xC02) rfl (Fit.refl _ s)).2 .pwr rfl
@[simp] theorem post_thm (r : Rec) (s : State) : (post r s).thm = s.thm :=
  (post_fit (L := 0xC02) rfl (Fit.refl _ s)).2 .thm rfl
@[simp] theorem post_buf (r : Rec) (s : State) : (post r s).buf = s.buf :=
  (post_fit (L := 0xC02) rfl (Fit.refl _ s)).2 .buf rfl
@[simp] theorem post_mem (r : Rec) (s : State) : (post r s).mem = s.mem :=
  (post_fit (L := 0xC02) rfl (Fit.refl _ s)).2 .mem rfl
@[simp] theorem post_pnl (r : Rec) (s : State) : (post r s).pnl = s.pnl :=
  (post_fit (L := 0xC02) rfl (Fit.refl _ s)).2 .pnl rfl
@[simp] theorem post_scene (r : Rec) (s : State) : (post r s).scene = s.scene :=
  (post_fit (L := 0xC02) rfl (Fit.refl _ s)).2 .scene rfl
@[simp] theorem post_cdc (r : Rec) (s : State) : (post r s).cdc = s.cdc :=
  (post_fit (L := 0xC02) rfl (Fit.refl _ s)).2 .cdc rfl
@[simp] theorem post_syn (r : Rec) (s : State) : (post r s).syn = s.syn :=
  (post_fit (L := 0xC02) rfl (Fit.refl _ s)).2 .syn rfl
@[simp] theorem post_cam (r : Rec) (s : State) : (post r s).cam = s.cam :=
  (post_fit (L := 0xC02) rfl (Fit.refl _ s)).2 .cam rfl
@[simp] theorem post_scn (r : Rec) (s : State) : (post r s).scn = s.scn :=
  (post_fit (L := 0xC02) rfl (Fit.refl _ s)).2 .scn rfl
@[simp] theorem post_plk (r : Rec) (s : State) : (post r s).plk = s.plk :=
  (post_fit (L := 0xC02) rfl (Fit.refl _ s)).2 .plk rfl
@[simp] theorem post_std (r : Rec) (s : State) : (post r s).std = s.std :=
  (post_fit (L := 0xC02) rfl (Fit.refl _ s)).2 .std rfl
@[simp] theorem post_dmc (r : Rec) (s : State) : (post r s).dmc = s.dmc :=
  (post_fit (L := 0xC02) rfl (Fit.refl _ s)).2 .dmc rfl
@[simp] theorem post_net (r : Rec) (s : State) : (post r s).net = s.net :=
  (post_fit (L := 0xC02) rfl (Fit.refl _ s)).2 .net rfl
@[simp] theorem post_sbd (r : Rec) (s : State) : (post r s).sbd = s.sbd :=
  (post_fit (L := 0xC02) rfl (Fit.refl _ s)).2 .sbd rfl
@[simp] theorem post_nv (r : Rec) (s : State) : (post r s).nv = s.nv :=
  (post_fit (L := 0xC02) rfl (Fit.refl _ s)).2 .nv rfl
@[simp] theorem post_cal (r : Rec) (s : State) : (post r s).cal = s.cal :=
  (post_fit (L := 0xC02) rfl (Fit.refl _ s)).2 .cal rfl
@[simp] theorem post_bst (r : Rec) (s : State) : (post r s).bst = s.bst :=
  (post_fit (L := 0xC02) rfl (Fit.refl _ s)).2 .bst rfl
@[simp] theorem post_sec (r : Rec) (s : State) : (post r s).sec = s.sec :=
  (post_fit (L := 0xC02) rfl (Fit.refl _ s)).2 .sec rfl
@[simp] theorem post_hwd (r : Rec) (s : State) : (post r s).hwd = s.hwd :=
  (post_fit (L := 0xC02) rfl (Fit.refl _ s)).2 .hwd rfl

@[simp] theorem deliver_pending (r : Rec) (s : State) : (deliver r s).pending = s.pending :=
  (deliver_fit (L := 0x800C02) rfl (Fit.refl _ s)).2 .pending rfl
@[simp] theorem deliver_free (r : Rec) (s : State) : (deliver r s).free = s.free :=
  (deliver_fit (L := 0x800C02) rfl (Fit.refl _ s)).2 .free rfl
@[simp] theorem deliver_par (r : Rec) (s : State) : (deliver r s).par = s.par :=
  (deliver_fit (L := 0x800C02) rfl (Fit.refl _ s)).2 .par rfl
@[simp] theorem deliver_parPend (r : Rec) (s : State) : (deliver r s).parPend = s.parPend :=
  (deliver_fit (L := 0x800C02) rfl (Fit.refl _ s)).2 .parPend rfl
@[simp] theorem deliver_time (r : Rec) (s : State) : (deliver r s).time = s.time :=
  (deliver_fit (L := 0x800C02) rfl (Fit.refl _ s)).2 .time rfl
@[simp] theorem deliver_mode (r : Rec) (s : State) : (deliver r s).mode = s.mode :=
  (deliver_fit (L := 0x800C02) rfl (Fit.refl _ s)).2 .mode rfl
@[simp] theorem deliver_pwr (r : Rec) (s : State) : (deliver r s).pwr = s.pwr :=
  (deliver_fit (L := 0x800C02) rfl (Fit.refl _ s)).2 .pwr rfl
@[simp] theorem deliver_thm (r : Rec) (s : State) : (deliver r s).thm = s.thm :=
  (deliver_fit (L := 0x800C02) rfl (Fit.refl _ s)).2 .thm rfl
@[simp] theorem deliver_buf (r : Rec) (s : State) : (deliver r s).buf = s.buf :=
  (deliver_fit (L := 0x800C02) rfl (Fit.refl _ s)).2 .buf rfl
@[simp] theorem deliver_mem (r : Rec) (s : State) : (deliver r s).mem = s.mem :=
  (deliver_fit (L := 0x800C02) rfl (Fit.refl _ s)).2 .mem rfl
@[simp] theorem deliver_pnl (r : Rec) (s : State) : (deliver r s).pnl = s.pnl :=
  (deliver_fit (L := 0x800C02) rfl (Fit.refl _ s)).2 .pnl rfl
@[simp] theorem deliver_scene (r : Rec) (s : State) : (deliver r s).scene = s.scene :=
  (deliver_fit (L := 0x800C02) rfl (Fit.refl _ s)).2 .scene rfl
@[simp] theorem deliver_cdc (r : Rec) (s : State) : (deliver r s).cdc = s.cdc :=
  (deliver_fit (L := 0x800C02) rfl (Fit.refl _ s)).2 .cdc rfl
@[simp] theorem deliver_syn (r : Rec) (s : State) : (deliver r s).syn = s.syn :=
  (deliver_fit (L := 0x800C02) rfl (Fit.refl _ s)).2 .syn rfl
@[simp] theorem deliver_cam (r : Rec) (s : State) : (deliver r s).cam = s.cam :=
  (deliver_fit (L := 0x800C02) rfl (Fit.refl _ s)).2 .cam rfl
@[simp] theorem deliver_scn (r : Rec) (s : State) : (deliver r s).scn = s.scn :=
  (deliver_fit (L := 0x800C02) rfl (Fit.refl _ s)).2 .scn rfl
@[simp] theorem deliver_plk (r : Rec) (s : State) : (deliver r s).plk = s.plk :=
  (deliver_fit (L := 0x800C02) rfl (Fit.refl _ s)).2 .plk rfl
@[simp] theorem deliver_std (r : Rec) (s : State) : (deliver r s).std = s.std :=
  (deliver_fit (L := 0x800C02) rfl (Fit.refl _ s)).2 .std rfl
@[simp] theorem deliver_dmc (r : Rec) (s : State) : (deliver r s).dmc = s.dmc :=
  (deliver_fit (L := 0x800C02) rfl (Fit.refl _ s)).2 .dmc rfl
@[simp] theorem deliver_net (r : Rec) (s : State) : (deliver r s).net = s.net :=
  (deliver_fit (L := 0x800C02) rfl (Fit.refl _ s)).2 .net rfl
@[simp] theorem deliver_nv (r : Rec) (s : State) : (deliver r s).nv = s.nv :=
  (deliver_fit (L := 0x800C02) rfl (Fit.refl _ s)).2 .nv rfl
@[simp] theorem deliver_cal (r : Rec) (s : State) : (deliver r s).cal = s.cal :=
  (deliver_fit (L := 0x800C02) rfl (Fit.refl _ s)).2 .cal rfl
@[simp] theorem deliver_bst (r : Rec) (s : State) : (deliver r s).bst = s.bst :=
  (deliver_fit (L := 0x800C02) rfl (Fit.refl _ s)).2 .bst rfl
@[simp] theorem deliver_sec (r : Rec) (s : State) : (deliver r s).sec = s.sec :=
  (deliver_fit (L := 0x800C02) rfl (Fit.refl _ s)).2 .sec rfl
@[simp] theorem deliver_hwd (r : Rec) (s : State) : (deliver r s).hwd = s.hwd :=
  (deliver_fit (L := 0x800C02) rfl (Fit.refl _ s)).2 .hwd rfl

@[simp] theorem formRec_pending (r : Rec) (s : State) : (formRec r s).pending = s.pending :=
  (formRec_fit (L := 0x800C02) rfl (Fit.refl _ s)).2 .pending rfl
@[simp] theorem formRec_free (r : Rec) (s : State) : (formRec r s).free = s.free :=
  (formRec_fit (L := 0x800C02) rfl (Fit.refl _ s)).2 .free rfl
@[simp] theorem formRec_par (r : Rec) (s : State) : (formRec r s).par = s.par :=
  (formRec_fit (L := 0x800C02) rfl (Fit.refl _ s)).2 .par rfl
@[simp] theorem formRec_parPend (r : Rec) (s : State) : (formRec r s).parPend = s.parPend :=
  (formRec_fit (L := 0x800C02) rfl (Fit.refl _ s)).2 .parPend rfl
@[simp] theorem formRec_time (r : Rec) (s : State) : (formRec r s).time = s.time :=
  (formRec_fit (L := 0x800C02) rfl (Fit.refl _ s)).2 .time rfl
@[simp] theorem formRec_mode (r : Rec) (s : State) : (formRec r s).mode = s.mode :=
  (formRec_fit (L := 0x800C02) rfl (Fit.refl _ s)).2 .mode rfl
@[simp] theorem formRec_pwr (r : Rec) (s : State) : (formRec r s).pwr = s.pwr :=
  (formRec_fit (L := 0x800C02) rfl (Fit.refl _ s)).2 .pwr rfl
@[simp] theorem formRec_thm (r : Rec) (s : State) : (formRec r s).thm = s.thm :=
  (formRec_fit (L := 0x800C02) rfl (Fit.refl _ s)).2 .thm rfl
@[simp] theorem formRec_buf (r : Rec) (s : State) : (formRec r s).buf = s.buf :=
  (formRec_fit (L := 0x800C02) rfl (Fit.refl _ s)).2 .buf rfl
@[simp] theorem formRec_mem (r : Rec) (s : State) : (formRec r s).mem = s.mem :=
  (formRec_fit (L := 0x800C02) rfl (Fit.refl _ s)).2 .mem rfl
@[simp] theorem formRec_pnl (r : Rec) (s : State) : (formRec r s).pnl = s.pnl :=
  (formRec_fit (L := 0x800C02) rfl (Fit.refl _ s)).2 .pnl rfl
@[simp] theorem formRec_scene (r : Rec) (s : State) : (formRec r s).scene = s.scene :=
  (formRec_fit (L := 0x800C02) rfl (Fit.refl _ s)).2 .scene rfl
@[simp] theorem formRec_cdc (r : Rec) (s : State) : (formRec r s).cdc = s.cdc :=
  (formRec_fit (L := 0x800C02) rfl (Fit.refl _ s)).2 .cdc rfl
@[simp] theorem formRec_syn (r : Rec) (s : State) : (formRec r s).syn = s.syn :=
  (formRec_fit (L := 0x800C02) rfl (Fit.refl _ s)).2 .syn rfl
@[simp] theorem formRec_cam (r : Rec) (s : State) : (formRec r s).cam = s.cam :=
  (formRec_fit (L := 0x800C02) rfl (Fit.refl _ s)).2 .cam rfl
@[simp] theorem formRec_scn (r : Rec) (s : State) : (formRec r s).scn = s.scn :=
  (formRec_fit (L := 0x800C02) rfl (Fit.refl _ s)).2 .scn rfl
@[simp] theorem formRec_plk (r : Rec) (s : State) : (formRec r s).plk = s.plk :=
  (formRec_fit (L := 0x800C02) rfl (Fit.refl _ s)).2 .plk rfl
@[simp] theorem formRec_std (r : Rec) (s : State) : (formRec r s).std = s.std :=
  (formRec_fit (L := 0x800C02) rfl (Fit.refl _ s)).2 .std rfl
@[simp] theorem formRec_dmc (r : Rec) (s : State) : (formRec r s).dmc = s.dmc :=
  (formRec_fit (L := 0x800C02) rfl (Fit.refl _ s)).2 .dmc rfl
@[simp] theorem formRec_net (r : Rec) (s : State) : (formRec r s).net = s.net :=
  (formRec_fit (L := 0x800C02) rfl (Fit.refl _ s)).2 .net rfl
@[simp] theorem formRec_nv (r : Rec) (s : State) : (formRec r s).nv = s.nv :=
  (formRec_fit (L := 0x800C02) rfl (Fit.refl _ s)).2 .nv rfl
@[simp] theorem formRec_cal (r : Rec) (s : State) : (formRec r s).cal = s.cal :=
  (formRec_fit (L := 0x800C02) rfl (Fit.refl _ s)).2 .cal rfl
@[simp] theorem formRec_bst (r : Rec) (s : State) : (formRec r s).bst = s.bst :=
  (formRec_fit (L := 0x800C02) rfl (Fit.refl _ s)).2 .bst rfl
@[simp] theorem formRec_sec (r : Rec) (s : State) : (formRec r s).sec = s.sec :=
  (formRec_fit (L := 0x800C02) rfl (Fit.refl _ s)).2 .sec rfl
@[simp] theorem formRec_hwd (r : Rec) (s : State) : (formRec r s).hwd = s.hwd :=
  (formRec_fit (L := 0x800C02) rfl (Fit.refl _ s)).2 .hwd rfl

@[simp] theorem fire_pending (src : Nat) (pay : List Byte) (s : State) : (fire src pay s).pending = s.pending :=
  (fire_fit (L := 0x800C02) rfl (Fit.refl _ s)).2 .pending rfl
@[simp] theorem fire_free (src : Nat) (pay : List Byte) (s : State) : (fire src pay s).free = s.free :=
  (fire_fit (L := 0x800C02) rfl (Fit.refl _ s)).2 .free rfl
@[simp] theorem fire_par (src : Nat) (pay : List Byte) (s : State) : (fire src pay s).par = s.par :=
  (fire_fit (L := 0x800C02) rfl (Fit.refl _ s)).2 .par rfl
@[simp] theorem fire_parPend (src : Nat) (pay : List Byte) (s : State) : (fire src pay s).parPend = s.parPend :=
  (fire_fit (L := 0x800C02) rfl (Fit.refl _ s)).2 .parPend rfl
@[simp] theorem fire_time (src : Nat) (pay : List Byte) (s : State) : (fire src pay s).time = s.time :=
  (fire_fit (L := 0x800C02) rfl (Fit.refl _ s)).2 .time rfl
@[simp] theorem fire_mode (src : Nat) (pay : List Byte) (s : State) : (fire src pay s).mode = s.mode :=
  (fire_fit (L := 0x800C02) rfl (Fit.refl _ s)).2 .mode rfl
@[simp] theorem fire_pwr (src : Nat) (pay : List Byte) (s : State) : (fire src pay s).pwr = s.pwr :=
  (fire_fit (L := 0x800C02) rfl (Fit.refl _ s)).2 .pwr rfl
@[simp] theorem fire_thm (src : Nat) (pay : List Byte) (s : State) : (fire src pay s).thm = s.thm :=
  (fire_fit (L := 0x800C02) rfl (Fit.refl _ s)).2 .thm rfl
@[simp] theorem fire_buf (src : Nat) (pay : List Byte) (s : State) : (fire src pay s).buf = s.buf :=
  (fire_fit (L := 0x800C02) rfl (Fit.refl _ s)).2 .buf rfl
@[simp] theorem fire_mem (src : Nat) (pay : List Byte) (s : State) : (fire src pay s).mem = s.mem :=
  (fire_fit (L := 0x800C02) rfl (Fit.refl _ s)).2 .mem rfl
@[simp] theorem fire_pnl (src : Nat) (pay : List Byte) (s : State) : (fire src pay s).pnl = s.pnl :=
  (fire_fit (L := 0x800C02) rfl (Fit.refl _ s)).2 .pnl rfl
@[simp] theorem fire_scene (src : Nat) (pay : List Byte) (s : State) : (fire src pay s).scene = s.scene :=
  (fire_fit (L := 0x800C02) rfl (Fit.refl _ s)).2 .scene rfl
@[simp] theorem fire_cdc (src : Nat) (pay : List Byte) (s : State) : (fire src pay s).cdc = s.cdc :=
  (fire_fit (L := 0x800C02) rfl (Fit.refl _ s)).2 .cdc rfl
@[simp] theorem fire_syn (src : Nat) (pay : List Byte) (s : State) : (fire src pay s).syn = s.syn :=
  (fire_fit (L := 0x800C02) rfl (Fit.refl _ s)).2 .syn rfl
@[simp] theorem fire_cam (src : Nat) (pay : List Byte) (s : State) : (fire src pay s).cam = s.cam :=
  (fire_fit (L := 0x800C02) rfl (Fit.refl _ s)).2 .cam rfl
@[simp] theorem fire_scn (src : Nat) (pay : List Byte) (s : State) : (fire src pay s).scn = s.scn :=
  (fire_fit (L := 0x800C02) rfl (Fit.refl _ s)).2 .scn rfl
@[simp] theorem fire_plk (src : Nat) (pay : List Byte) (s : State) : (fire src pay s).plk = s.plk :=
  (fire_fit (L := 0x800C02) rfl (Fit.refl _ s)).2 .plk rfl
@[simp] theorem fire_std (src : Nat) (pay : List Byte) (s : State) : (fire src pay s).std = s.std :=
  (fire_fit (L := 0x800C02) rfl (Fit.refl _ s)).2 .std rfl
@[simp] theorem fire_dmc (src : Nat) (pay : List Byte) (s : State) : (fire src pay s).dmc = s.dmc :=
  (fire_fit (L := 0x800C02) rfl (Fit.refl _ s)).2 .dmc rfl
@[simp] theorem fire_net (src : Nat) (pay : List Byte) (s : State) : (fire src pay s).net = s.net :=
  (fire_fit (L := 0x800C02) rfl (Fit.refl _ s)).2 .net rfl
@[simp] theorem fire_nv (src : Nat) (pay : List Byte) (s : State) : (fire src pay s).nv = s.nv :=
  (fire_fit (L := 0x800C02) rfl (Fit.refl _ s)).2 .nv rfl
@[simp] theorem fire_cal (src : Nat) (pay : List Byte) (s : State) : (fire src pay s).cal = s.cal :=
  (fire_fit (L := 0x800C02) rfl (Fit.refl _ s)).2 .cal rfl
@[simp] theorem fire_bst (src : Nat) (pay : List Byte) (s : State) : (fire src pay s).bst = s.bst :=
  (fire_fit (L := 0x800C02) rfl (Fit.refl _ s)).2 .bst rfl
@[simp] theorem fire_sec (src : Nat) (pay : List Byte) (s : State) : (fire src pay s).sec = s.sec :=
  (fire_fit (L := 0x800C02) rfl (Fit.refl _ s)).2 .sec rfl
@[simp] theorem fire_hwd (src : Nat) (pay : List Byte) (s : State) : (fire src pay s).hwd = s.hwd :=
  (fire_fit (L := 0x800C02) rfl (Fit.refl _ s)).2 .hwd rfl

@[simp] theorem raise_pending (src : Nat) (items : List (Nat × Nat)) (s : State) : (raise src items s).pending = s.pending :=
  (raise_fit (L := 0x800C02) rfl (Fit.refl _ s)).2 .pending rfl
@[simp] theorem raise_free (src : Nat) (items : List (Nat × Nat)) (s : State) : (raise src items s).free = s.free :=
  (raise_fit (L := 0x800C02) rfl (Fit.refl _ s)).2 .free rfl
@[simp] theorem raise_par (src : Nat) (items : List (Nat × Nat)) (s : State) : (raise src items s).par = s.par :=
  (raise_fit (L := 0x800C02) rfl (Fit.refl _ s)).2 .par rfl
@[simp] theorem raise_parPend (src : Nat) (items : List (Nat × Nat)) (s : State) : (raise src items s).parPend = s.parPend :=
  (raise_fit (L := 0x800C02) rfl (Fit.refl _ s)).2 .parPend rfl
@[simp] theorem raise_time (src : Nat) (items : List (Nat × Nat)) (s : State) : (raise src items s).time = s.time :=
  (raise_fit (L := 0x800C02) rfl (Fit.refl _ s)).2 .time rfl
@[simp] theorem raise_mode (src : Nat) (items : List (Nat × Nat)) (s : State) : (raise src items s).mode = s.mode :=
  (raise_fit (L := 0x800C02) rfl (Fit.refl _ s)).2 .mode rfl
@[simp] theorem raise_pwr (src : Nat) (items : List (Nat × Nat)) (s : State) : (raise src items s).pwr = s.pwr :=
  (raise_fit (L := 0x800C02) rfl (Fit.refl _ s)).2 .pwr rfl
@[simp] theorem raise_thm (src : Nat) (items : List (Nat × Nat)) (s : State) : (raise src items s).thm = s.thm :=
  (raise_fit (L := 0x800C02) rfl (Fit.refl _ s)).2 .thm rfl
@[simp] theorem raise_buf (src : Nat) (items : List (Nat × Nat)) (s : State) : (raise src items s).buf = s.buf :=
  (raise_fit (L := 0x800C02) rfl (Fit.refl _ s)).2 .buf rfl
@[simp] theorem raise_mem (src : Nat) (items : List (Nat × Nat)) (s : State) : (raise src items s).mem = s.mem :=
  (raise_fit (L := 0x800C02) rfl (Fit.refl _ s)).2 .mem rfl
@[simp] theorem raise_pnl (src : Nat) (items : List (Nat × Nat)) (s : State) : (raise src items s).pnl = s.pnl :=
  (raise_fit (L := 0x800C02) rfl (Fit.refl _ s)).2 .pnl rfl
@[simp] theorem raise_scene (src : Nat) (items : List (Nat × Nat)) (s : State) : (raise src items s).scene = s.scene :=
  (raise_fit (L := 0x800C02) rfl (Fit.refl _ s)).2 .scene rfl
@[simp] theorem raise_cdc (src : Nat) (items : List (Nat × Nat)) (s : State) : (raise src items s).cdc = s.cdc :=
  (raise_fit (L := 0x800C02) rfl (Fit.refl _ s)).2 .cdc rfl
@[simp] theorem raise_syn (src : Nat) (items : List (Nat × Nat)) (s : State) : (raise src items s).syn = s.syn :=
  (raise_fit (L := 0x800C02) rfl (Fit.refl _ s)).2 .syn rfl
@[simp] theorem raise_cam (src : Nat) (items : List (Nat × Nat)) (s : State) : (raise src items s).cam = s.cam :=
  (raise_fit (L := 0x800C02) rfl (Fit.refl _ s)).2 .cam rfl
@[simp] theorem raise_scn (src : Nat) (items : List (Nat × Nat)) (s : State) : (raise src items s).scn = s.scn :=
  (raise_fit (L := 0x800C02) rfl (Fit.refl _ s)).2 .scn rfl
@[simp] theorem raise_plk (src : Nat) (items : List (Nat × Nat)) (s : State) : (raise src items s).plk = s.plk :=
  (raise_fit (L := 0x800C02) rfl (Fit.refl _ s)).2 .plk rfl
@[simp] theorem raise_std (src : Nat) (items : List (Nat × Nat)) (s : State) : (raise src items s).std = s.std :=
  (raise_fit (L := 0x800C02) rfl (Fit.refl _ s)).2 .std rfl
@[simp] theorem raise_dmc (src : Nat) (items : List (Nat × Nat)) (s : State) : (raise src items s).dmc = s.dmc :=
  (raise_fit (L := 0x800C02) rfl (Fit.refl _ s)).2 .dmc rfl
@[simp] theorem raise_net (src : Nat) (items : List (Nat × Nat)) (s : State) : (raise src items s).net = s.net :=
  (raise_fit (L := 0x800C02) rfl (Fit.refl _ s)).2 .net rfl
@[simp] theorem raise_nv (src : Nat) (items : List (Nat × Nat)) (s : State) : (raise src items s).nv = s.nv :=
  (raise_fit (L := 0x800C02) rfl (Fit.refl _ s)).2 .nv rfl
@[simp] theorem raise_cal (src : Nat) (items : List (Nat × Nat)) (s : State) : (raise src items s).cal = s.cal :=
  (raise_fit (L := 0x800C02) rfl (Fit.refl _ s)).2 .cal rfl
@[simp] theorem raise_bst (src : Nat) (items : List (Nat × Nat)) (s : State) : (raise src items s).bst = s.bst :=
  (raise_fit (L := 0x800C02) rfl (Fit.refl _ s)).2 .bst rfl
@[simp] theorem raise_sec (src : Nat) (items : List (Nat × Nat)) (s : State) : (raise src items s).sec = s.sec :=
  (raise_fit (L := 0x800C02) rfl (Fit.refl _ s)).2 .sec rfl
@[simp] theorem raise_hwd (src : Nat) (items : List (Nat × Nat)) (s : State) : (raise src items s).hwd = s.hwd :=
  (raise_fit (L := 0x800C02) rfl (Fit.refl _ s)).2 .hwd rfl

@[simp] theorem raiseIf_pending (c : Bool) (src : Nat) (items : List (Nat × Nat)) (s : State) : (raiseIf c src items s).pending = s.pending :=
  (raiseIf_fit (L := 0x800C02) rfl (Fit.refl _ s)).2 .pending rfl
@[simp] theorem raiseIf_free (c : Bool) (src : Nat) (items : List (Nat × Nat)) (s : State) : (raiseIf c src items s).free = s.free :=
  (raiseIf_fit (L := 0x800C02) rfl (Fit.refl _ s)).2 .free rfl
@[simp] theorem raiseIf_par (c : Bool) (src : Nat) (items : List (Nat × Nat)) (s : State) : (raiseIf c src items s).par = s.par :=
  (raiseIf_fit (L := 0x800C02) rfl (Fit.refl _ s)).2 .par rfl
@[simp] theorem raiseIf_parPend (c : Bool) (src : Nat) (items : List (Nat × Nat)) (s : State) : (raiseIf c src items s).parPend = s.parPend :=
  (raiseIf_fit (L := 0x800C02) rfl (Fit.refl _ s)).2 .parPend rfl
@[simp] theorem raiseIf_time (c : Bool) (src : Nat) (items : List (Nat × Nat)) (s : State) : (raiseIf c src items s).time = s.time :=
  (raiseIf_fit (L := 0x800C02) rfl (Fit.refl _ s)).2 .time rfl
@[simp] theorem raiseIf_mode (c : Bool) (src : Nat) (items : List (Nat × Nat)) (s : State) : (raiseIf c src items s).mode = s.mode :=
  (raiseIf_fit (L := 0x800C02) rfl (Fit.refl _ s)).2 .mode rfl
@[simp] theorem raiseIf_pwr (c : Bool) (src : Nat) (items : List (Nat × Nat)) (s : State) : (raiseIf c src items s).pwr = s.pwr :=
  (raiseIf_fit (L := 0x800C02) rfl (Fit.refl _ s)).2 .pwr rfl
@[simp] theorem raiseIf_thm (c : Bool) (src : Nat) (items : List (Nat × Nat)) (s : State) : (raiseIf c src items s).thm = s.thm :=
  (raiseIf_fit (L := 0x800C02) rfl (Fit.refl _ s)).2 .thm rfl
@[simp] theorem raiseIf_buf (c : Bool) (src : Nat) (items : List (Nat × Nat)) (s : State) : (raiseIf c src items s).buf = s.buf :=
  (raiseIf_fit (L := 0x800C02) rfl (Fit.refl _ s)).2 .buf rfl
@[simp] theorem raiseIf_mem (c : Bool) (src : Nat) (items : List (Nat × Nat)) (s : State) : (raiseIf c src items s).mem = s.mem :=
  (raiseIf_fit (L := 0x800C02) rfl (Fit.refl _ s)).2 .mem rfl
@[simp] theorem raiseIf_pnl (c : Bool) (src : Nat) (items : List (Nat × Nat)) (s : State) : (raiseIf c src items s).pnl = s.pnl :=
  (raiseIf_fit (L := 0x800C02) rfl (Fit.refl _ s)).2 .pnl rfl
@[simp] theorem raiseIf_scene (c : Bool) (src : Nat) (items : List (Nat × Nat)) (s : State) : (raiseIf c src items s).scene = s.scene :=
  (raiseIf_fit (L := 0x800C02) rfl (Fit.refl _ s)).2 .scene rfl
@[simp] theorem raiseIf_cdc (c : Bool) (src : Nat) (items : List (Nat × Nat)) (s : State) : (raiseIf c src items s).cdc = s.cdc :=
  (raiseIf_fit (L := 0x800C02) rfl (Fit.refl _ s)).2 .cdc rfl
@[simp] theorem raiseIf_syn (c : Bool) (src : Nat) (items : List (Nat × Nat)) (s : State) : (raiseIf c src items s).syn = s.syn :=
  (raiseIf_fit (L := 0x800C02) rfl (Fit.refl _ s)).2 .syn rfl
@[simp] theorem raiseIf_cam (c : Bool) (src : Nat) (items : List (Nat × Nat)) (s : State) : (raiseIf c src items s).cam = s.cam :=
  (raiseIf_fit (L := 0x800C02) rfl (Fit.refl _ s)).2 .cam rfl
@[simp] theorem raiseIf_scn (c : Bool) (src : Nat) (items : List (Nat × Nat)) (s : State) : (raiseIf c src items s).scn = s.scn :=
  (raiseIf_fit (L := 0x800C02) rfl (Fit.refl _ s)).2 .scn rfl
@[simp] theorem raiseIf_plk (c : Bool) (src : Nat) (items : List (Nat × Nat)) (s : State) : (raiseIf c src items s).plk = s.plk :=
  (raiseIf_fit (L := 0x800C02) rfl (Fit.refl _ s)).2 .plk rfl
@[simp] theorem raiseIf_std (c : Bool) (src : Nat) (items : List (Nat × Nat)) (s : State) : (raiseIf c src items s).std = s.std :=
  (raiseIf_fit (L := 0x800C02) rfl (Fit.refl _ s)).2 .std rfl
@[simp] theorem raiseIf_dmc (c : Bool) (src : Nat) (items : List (Nat × Nat)) (s : State) : (raiseIf c src items s).dmc = s.dmc :=
  (raiseIf_fit (L := 0x800C02) rfl (Fit.refl _ s)).2 .dmc rfl
@[simp] theorem raiseIf_net (c : Bool) (src : Nat) (items : List (Nat × Nat)) (s : State) : (raiseIf c src items s).net = s.net :=
  (raiseIf_fit (L := 0x800C02) rfl (Fit.refl _ s)).2 .net rfl
@[simp] theorem raiseIf_nv (c : Bool) (src : Nat) (items : List (Nat × Nat)) (s : State) : (raiseIf c src items s).nv = s.nv :=
  (raiseIf_fit (L := 0x800C02) rfl (Fit.refl _ s)).2 .nv rfl
@[simp] theorem raiseIf_cal (c : Bool) (src : Nat) (items : List (Nat × Nat)) (s : State) : (raiseIf c src items s).cal = s.cal :=
  (raiseIf_fit (L := 0x800C02) rfl (Fit.refl _ s)).2 .cal rfl
@[simp] theorem raiseIf_bst (c : Bool) (src : Nat) (items : List (Nat × Nat)) (s : State) : (raiseIf c src items s).bst = s.bst :=
  (raiseIf_fit (L := 0x800C02) rfl (Fit.refl _ s)).2 .bst rfl
@[simp] theorem raiseIf_sec (c : Bool) (src : Nat) (items : List (Nat × Nat)) (s : State) : (raiseIf c src items s).sec = s.sec :=
  (raiseIf_fit (L := 0x800C02) rfl (Fit.refl _ s)).2 .sec rfl
@[simp] theorem raiseIf_hwd (c : Bool) (src : Nat) (items : List (Nat × Nat)) (s : State) : (raiseIf c src items s).hwd = s.hwd :=
  (raiseIf_fit (L := 0x800C02) rfl (Fit.refl _ s)).2 .hwd rfl

@[simp] theorem onPool_pending (id : Nat) (f : Pool → Pool) (s : State) : (onPool id f s).pending = s.pending :=
  (onPool_fit (L := 0x200) rfl (Fit.refl _ s)).2 .pending rfl
@[simp] theorem onPool_out (id : Nat) (f : Pool → Pool) (s : State) : (onPool id f s).out = s.out :=
  (onPool_fit (L := 0x200) rfl (Fit.refl _ s)).2 .out rfl
@[simp] theorem onPool_free (id : Nat) (f : Pool → Pool) (s : State) : (onPool id f s).free = s.free :=
  (onPool_fit (L := 0x200) rfl (Fit.refl _ s)).2 .free rfl
@[simp] theorem onPool_par (id : Nat) (f : Pool → Pool) (s : State) : (onPool id f s).par = s.par :=
  (onPool_fit (L := 0x200) rfl (Fit.refl _ s)).2 .par rfl
@[simp] theorem onPool_parPend (id : Nat) (f : Pool → Pool) (s : State) : (onPool id f s).parPend = s.parPend :=
  (onPool_fit (L := 0x200) rfl (Fit.refl _ s)).2 .parPend rfl
@[simp] theorem onPool_time (id : Nat) (f : Pool → Pool) (s : State) : (onPool id f s).time = s.time :=
  (onPool_fit (L := 0x200) rfl (Fit.refl _ s)).2 .time rfl
@[simp] theorem onPool_mode (id : Nat) (f : Pool → Pool) (s : State) : (onPool id f s).mode = s.mode :=
  (onPool_fit (L := 0x200) rfl (Fit.refl _ s)).2 .mode rfl
@[simp] theorem onPool_pwr (id : Nat) (f : Pool → Pool) (s : State) : (onPool id f s).pwr = s.pwr :=
  (onPool_fit (L := 0x200) rfl (Fit.refl _ s)).2 .pwr rfl
@[simp] theorem onPool_thm (id : Nat) (f : Pool → Pool) (s : State) : (onPool id f s).thm = s.thm :=
  (onPool_fit (L := 0x200) rfl (Fit.refl _ s)).2 .thm rfl
@[simp] theorem onPool_cmd (id : Nat) (f : Pool → Pool) (s : State) : (onPool id f s).cmd = s.cmd :=
  (onPool_fit (L := 0x200) rfl (Fit.refl _ s)).2 .cmd rfl
@[simp] theorem onPool_evt (id : Nat) (f : Pool → Pool) (s : State) : (onPool id f s).evt = s.evt :=
  (onPool_fit (L := 0x200) rfl (Fit.refl _ s)).2 .evt rfl
@[simp] theorem onPool_mem (id : Nat) (f : Pool → Pool) (s : State) : (onPool id f s).mem = s.mem :=
  (onPool_fit (L := 0x200) rfl (Fit.refl _ s)).2 .mem rfl
@[simp] theorem onPool_pnl (id : Nat) (f : Pool → Pool) (s : State) : (onPool id f s).pnl = s.pnl :=
  (onPool_fit (L := 0x200) rfl (Fit.refl _ s)).2 .pnl rfl
@[simp] theorem onPool_scene (id : Nat) (f : Pool → Pool) (s : State) : (onPool id f s).scene = s.scene :=
  (onPool_fit (L := 0x200) rfl (Fit.refl _ s)).2 .scene rfl
@[simp] theorem onPool_cdc (id : Nat) (f : Pool → Pool) (s : State) : (onPool id f s).cdc = s.cdc :=
  (onPool_fit (L := 0x200) rfl (Fit.refl _ s)).2 .cdc rfl
@[simp] theorem onPool_syn (id : Nat) (f : Pool → Pool) (s : State) : (onPool id f s).syn = s.syn :=
  (onPool_fit (L := 0x200) rfl (Fit.refl _ s)).2 .syn rfl
@[simp] theorem onPool_cam (id : Nat) (f : Pool → Pool) (s : State) : (onPool id f s).cam = s.cam :=
  (onPool_fit (L := 0x200) rfl (Fit.refl _ s)).2 .cam rfl
@[simp] theorem onPool_scn (id : Nat) (f : Pool → Pool) (s : State) : (onPool id f s).scn = s.scn :=
  (onPool_fit (L := 0x200) rfl (Fit.refl _ s)).2 .scn rfl
@[simp] theorem onPool_plk (id : Nat) (f : Pool → Pool) (s : State) : (onPool id f s).plk = s.plk :=
  (onPool_fit (L := 0x200) rfl (Fit.refl _ s)).2 .plk rfl
@[simp] theorem onPool_std (id : Nat) (f : Pool → Pool) (s : State) : (onPool id f s).std = s.std :=
  (onPool_fit (L := 0x200) rfl (Fit.refl _ s)).2 .std rfl
@[simp] theorem onPool_dmc (id : Nat) (f : Pool → Pool) (s : State) : (onPool id f s).dmc = s.dmc :=
  (onPool_fit (L := 0x200) rfl (Fit.refl _ s)).2 .dmc rfl
@[simp] theorem onPool_net (id : Nat) (f : Pool → Pool) (s : State) : (onPool id f s).net = s.net :=
  (onPool_fit (L := 0x200) rfl (Fit.refl _ s)).2 .net rfl
@[simp] theorem onPool_sbd (id : Nat) (f : Pool → Pool) (s : State) : (onPool id f s).sbd = s.sbd :=
  (onPool_fit (L := 0x200) rfl (Fit.refl _ s)).2 .sbd rfl
@[simp] theorem onPool_nv (id : Nat) (f : Pool → Pool) (s : State) : (onPool id f s).nv = s.nv :=
  (onPool_fit (L := 0x200) rfl (Fit.refl _ s)).2 .nv rfl
@[simp] theorem onPool_cal (id : Nat) (f : Pool → Pool) (s : State) : (onPool id f s).cal = s.cal :=
  (onPool_fit (L := 0x200) rfl (Fit.refl _ s)).2 .cal rfl
@[simp] theorem onPool_bst (id : Nat) (f : Pool → Pool) (s : State) : (onPool id f s).bst = s.bst :=
  (onPool_fit (L := 0x200) rfl (Fit.refl _ s)).2 .bst rfl
@[simp] theorem onPool_sec (id : Nat) (f : Pool → Pool) (s : State) : (onPool id f s).sec = s.sec :=
  (onPool_fit (L := 0x200) rfl (Fit.refl _ s)).2 .sec rfl
@[simp] theorem onPool_hwd (id : Nat) (f : Pool → Pool) (s : State) : (onPool id f s).hwd = s.hwd :=
  (onPool_fit (L := 0x200) rfl (Fit.refl _ s)).2 .hwd rfl

@[simp] theorem move_pending (id a b n : Nat) (s : State) : (move id a b n s).pending = s.pending :=
  (move_fit (L := 0x200) rfl (Fit.refl _ s)).2 .pending rfl
@[simp] theorem move_out (id a b n : Nat) (s : State) : (move id a b n s).out = s.out :=
  (move_fit (L := 0x200) rfl (Fit.refl _ s)).2 .out rfl
@[simp] theorem move_free (id a b n : Nat) (s : State) : (move id a b n s).free = s.free :=
  (move_fit (L := 0x200) rfl (Fit.refl _ s)).2 .free rfl
@[simp] theorem move_par (id a b n : Nat) (s : State) : (move id a b n s).par = s.par :=
  (move_fit (L := 0x200) rfl (Fit.refl _ s)).2 .par rfl
@[simp] theorem move_parPend (id a b n : Nat) (s : State) : (move id a b n s).parPend = s.parPend :=
  (move_fit (L := 0x200) rfl (Fit.refl _ s)).2 .parPend rfl
@[simp] theorem move_time (id a b n : Nat) (s : State) : (move id a b n s).time = s.time :=
  (move_fit (L := 0x200) rfl (Fit.refl _ s)).2 .time rfl
@[simp] theorem move_mode (id a b n : Nat) (s : State) : (move id a b n s).mode = s.mode :=
  (move_fit (L := 0x200) rfl (Fit.refl _ s)).2 .mode rfl
@[simp] theorem move_pwr (id a b n : Nat) (s : State) : (move id a b n s).pwr = s.pwr :=
  (move_fit (L := 0x200) rfl (Fit.refl _ s)).2 .pwr rfl
@[simp] theorem move_thm (id a b n : Nat) (s : State) : (move id a b n s).thm = s.thm :=
  (move_fit (L := 0x200) rfl (Fit.refl _ s)).2 .thm rfl
@[simp] theorem move_cmd (id a b n : Nat) (s : State) : (move id a b n s).cmd = s.cmd :=
  (move_fit (L := 0x200) rfl (Fit.refl _ s)).2 .cmd rfl
@[simp] theorem move_evt (id a b n : Nat) (s : State) : (move id a b n s).evt = s.evt :=
  (move_fit (L := 0x200) rfl (Fit.refl _ s)).2 .evt rfl
@[simp] theorem move_mem (id a b n : Nat) (s : State) : (move id a b n s).mem = s.mem :=
  (move_fit (L := 0x200) rfl (Fit.refl _ s)).2 .mem rfl
@[simp] theorem move_pnl (id a b n : Nat) (s : State) : (move id a b n s).pnl = s.pnl :=
  (move_fit (L := 0x200) rfl (Fit.refl _ s)).2 .pnl rfl
@[simp] theorem move_scene (id a b n : Nat) (s : State) : (move id a b n s).scene = s.scene :=
  (move_fit (L := 0x200) rfl (Fit.refl _ s)).2 .scene rfl
@[simp] theorem move_cdc (id a b n : Nat) (s : State) : (move id a b n s).cdc = s.cdc :=
  (move_fit (L := 0x200) rfl (Fit.refl _ s)).2 .cdc rfl
@[simp] theorem move_syn (id a b n : Nat) (s : State) : (move id a b n s).syn = s.syn :=
  (move_fit (L := 0x200) rfl (Fit.refl _ s)).2 .syn rfl
@[simp] theorem move_cam (id a b n : Nat) (s : State) : (move id a b n s).cam = s.cam :=
  (move_fit (L := 0x200) rfl (Fit.refl _ s)).2 .cam rfl
@[simp] theorem move_scn (id a b n : Nat) (s : State) : (move id a b n s).scn = s.scn :=
  (move_fit (L := 0x200) rfl (Fit.refl _ s)).2 .scn rfl
@[simp] theorem move_plk (id a b n : Nat) (s : State) : (move id a b n s).plk = s.plk :=
  (move_fit (L := 0x200) rfl (Fit.refl _ s)).2 .plk rfl
@[simp] theorem move_std (id a b n : Nat) (s : State) : (move id a b n s).std = s.std :=
  (move_fit (L := 0x200) rfl (Fit.refl _ s)).2 .std rfl
@[simp] theorem move_dmc (id a b n : Nat) (s : State) : (move id a b n s).dmc = s.dmc :=
  (move_fit (L := 0x200) rfl (Fit.refl _ s)).2 .dmc rfl
@[simp] theorem move_net (id a b n : Nat) (s : State) : (move id a b n s).net = s.net :=
  (move_fit (L := 0x200) rfl (Fit.refl _ s)).2 .net rfl
@[simp] theorem move_sbd (id a b n : Nat) (s : State) : (move id a b n s).sbd = s.sbd :=
  (move_fit (L := 0x200) rfl (Fit.refl _ s)).2 .sbd rfl
@[simp] theorem move_nv (id a b n : Nat) (s : State) : (move id a b n s).nv = s.nv :=
  (move_fit (L := 0x200) rfl (Fit.refl _ s)).2 .nv rfl
@[simp] theorem move_cal (id a b n : Nat) (s : State) : (move id a b n s).cal = s.cal :=
  (move_fit (L := 0x200) rfl (Fit.refl _ s)).2 .cal rfl
@[simp] theorem move_bst (id a b n : Nat) (s : State) : (move id a b n s).bst = s.bst :=
  (move_fit (L := 0x200) rfl (Fit.refl _ s)).2 .bst rfl
@[simp] theorem move_sec (id a b n : Nat) (s : State) : (move id a b n s).sec = s.sec :=
  (move_fit (L := 0x200) rfl (Fit.refl _ s)).2 .sec rfl
@[simp] theorem move_hwd (id a b n : Nat) (s : State) : (move id a b n s).hwd = s.hwd :=
  (move_fit (L := 0x200) rfl (Fit.refl _ s)).2 .hwd rfl

@[simp] theorem freePool_pending (id : Nat) (s : State) : (freePool id s).pending = s.pending :=
  (freePool_fit (L := 0x200) rfl (Fit.refl _ s)).2 .pending rfl
@[simp] theorem freePool_out (id : Nat) (s : State) : (freePool id s).out = s.out :=
  (freePool_fit (L := 0x200) rfl (Fit.refl _ s)).2 .out rfl
@[simp] theorem freePool_free (id : Nat) (s : State) : (freePool id s).free = s.free :=
  (freePool_fit (L := 0x200) rfl (Fit.refl _ s)).2 .free rfl
@[simp] theorem freePool_par (id : Nat) (s : State) : (freePool id s).par = s.par :=
  (freePool_fit (L := 0x200) rfl (Fit.refl _ s)).2 .par rfl
@[simp] theorem freePool_parPend (id : Nat) (s : State) : (freePool id s).parPend = s.parPend :=
  (freePool_fit (L := 0x200) rfl (Fit.refl _ s)).2 .parPend rfl
@[simp] theorem freePool_time (id : Nat) (s : State) : (freePool id s).time = s.time :=
  (freePool_fit (L := 0x200) rfl (Fit.refl _ s)).2 .time rfl
@[simp] theorem freePool_mode (id : Nat) (s : State) : (freePool id s).mode = s.mode :=
  (freePool_fit (L := 0x200) rfl (Fit.refl _ s)).2 .mode rfl
@[simp] theorem freePool_pwr (id : Nat) (s : State) : (freePool id s).pwr = s.pwr :=
  (freePool_fit (L := 0x200) rfl (Fit.refl _ s)).2 .pwr rfl
@[simp] theorem freePool_thm (id : Nat) (s : State) : (freePool id s).thm = s.thm :=
  (freePool_fit (L := 0x200) rfl (Fit.refl _ s)).2 .thm rfl
@[simp] theorem freePool_cmd (id : Nat) (s : State) : (freePool id s).cmd = s.cmd :=
  (freePool_fit (L := 0x200) rfl (Fit.refl _ s)).2 .cmd rfl
@[simp] theorem freePool_evt (id : Nat) (s : State) : (freePool id s).evt = s.evt :=
  (freePool_fit (L := 0x200) rfl (Fit.refl _ s)).2 .evt rfl
@[simp] theorem freePool_mem (id : Nat) (s : State) : (freePool id s).mem = s.mem :=
  (freePool_fit (L := 0x200) rfl (Fit.refl _ s)).2 .mem rfl
@[simp] theorem freePool_pnl (id : Nat) (s : State) : (freePool id s).pnl = s.pnl :=
  (freePool_fit (L := 0x200) rfl (Fit.refl _ s)).2 .pnl rfl
@[simp] theorem freePool_scene (id : Nat) (s : State) : (freePool id s).scene = s.scene :=
  (freePool_fit (L := 0x200) rfl (Fit.refl _ s)).2 .scene rfl
@[simp] theorem freePool_cdc (id : Nat) (s : State) : (freePool id s).cdc = s.cdc :=
  (freePool_fit (L := 0x200) rfl (Fit.refl _ s)).2 .cdc rfl
@[simp] theorem freePool_syn (id : Nat) (s : State) : (freePool id s).syn = s.syn :=
  (freePool_fit (L := 0x200) rfl (Fit.refl _ s)).2 .syn rfl
@[simp] theorem freePool_cam (id : Nat) (s : State) : (freePool id s).cam = s.cam :=
  (freePool_fit (L := 0x200) rfl (Fit.refl _ s)).2 .cam rfl
@[simp] theorem freePool_scn (id : Nat) (s : State) : (freePool id s).scn = s.scn :=
  (freePool_fit (L := 0x200) rfl (Fit.refl _ s)).2 .scn rfl
@[simp] theorem freePool_plk (id : Nat) (s : State) : (freePool id s).plk = s.plk :=
  (freePool_fit (L := 0x200) rfl (Fit.refl _ s)).2 .plk rfl
@[simp] theorem freePool_std (id : Nat) (s : State) : (freePool id s).std = s.std :=
  (freePool_fit (L := 0x200) rfl (Fit.refl _ s)).2 .std rfl
@[simp] theorem freePool_dmc (id : Nat) (s : State) : (freePool id s).dmc = s.dmc :=
  (freePool_fit (L := 0x200) rfl (Fit.refl _ s)).2 .dmc rfl
@[simp] theorem freePool_net (id : Nat) (s : State) : (freePool id s).net = s.net :=
  (freePool_fit (L := 0x200) rfl (Fit.refl _ s)).2 .net rfl
@[simp] theorem freePool_sbd (id : Nat) (s : State) : (freePool id s).sbd = s.sbd :=
  (freePool_fit (L := 0x200) rfl (Fit.refl _ s)).2 .sbd rfl
@[simp] theorem freePool_nv (id : Nat) (s : State) : (freePool id s).nv = s.nv :=
  (freePool_fit (L := 0x200) rfl (Fit.refl _ s)).2 .nv rfl
@[simp] theorem freePool_cal (id : Nat) (s : State) : (freePool id s).cal = s.cal :=
  (freePool_fit (L := 0x200) rfl (Fit.refl _ s)).2 .cal rfl
@[simp] theorem freePool_bst (id : Nat) (s : State) : (freePool id s).bst = s.bst :=
  (freePool_fit (L := 0x200) rfl (Fit.refl _ s)).2 .bst rfl
@[simp] theorem freePool_sec (id : Nat) (s : State) : (freePool id s).sec = s.sec :=
  (freePool_fit (L := 0x200) rfl (Fit.refl _ s)).2 .sec rfl
@[simp] theorem freePool_hwd (id : Nat) (s : State) : (freePool id s).hwd = s.hwd :=
  (freePool_fit (L := 0x200) rfl (Fit.refl _ s)).2 .hwd rfl

@[simp] theorem setTotal_pending (id n : Nat) (s : State) : (setTotal id n s).pending = s.pending :=
  (setTotal_fit (L := 0x200) rfl (Fit.refl _ s)).2 .pending rfl
@[simp] theorem setTotal_out (id n : Nat) (s : State) : (setTotal id n s).out = s.out :=
  (setTotal_fit (L := 0x200) rfl (Fit.refl _ s)).2 .out rfl
@[simp] theorem setTotal_free (id n : Nat) (s : State) : (setTotal id n s).free = s.free :=
  (setTotal_fit (L := 0x200) rfl (Fit.refl _ s)).2 .free rfl
@[simp] theorem setTotal_par (id n : Nat) (s : State) : (setTotal id n s).par = s.par :=
  (setTotal_fit (L := 0x200) rfl (Fit.refl _ s)).2 .par rfl
@[simp] theorem setTotal_parPend (id n : Nat) (s : State) : (setTotal id n s).parPend = s.parPend :=
  (setTotal_fit (L := 0x200) rfl (Fit.refl _ s)).2 .parPend rfl
@[simp] theorem setTotal_time (id n : Nat) (s : State) : (setTotal id n s).time = s.time :=
  (setTotal_fit (L := 0x200) rfl (Fit.refl _ s)).2 .time rfl
@[simp] theorem setTotal_mode (id n : Nat) (s : State) : (setTotal id n s).mode = s.mode :=
  (setTotal_fit (L := 0x200) rfl (Fit.refl _ s)).2 .mode rfl
@[simp] theorem setTotal_pwr (id n : Nat) (s : State) : (setTotal id n s).pwr = s.pwr :=
  (setTotal_fit (L := 0x200) rfl (Fit.refl _ s)).2 .pwr rfl
@[simp] theorem setTotal_thm (id n : Nat) (s : State) : (setTotal id n s).thm = s.thm :=
  (setTotal_fit (L := 0x200) rfl (Fit.refl _ s)).2 .thm rfl
@[simp] theorem setTotal_cmd (id n : Nat) (s : State) : (setTotal id n s).cmd = s.cmd :=
  (setTotal_fit (L := 0x200) rfl (Fit.refl _ s)).2 .cmd rfl
@[simp] theorem setTotal_evt (id n : Nat) (s : State) : (setTotal id n s).evt = s.evt :=
  (setTotal_fit (L := 0x200) rfl (Fit.refl _ s)).2 .evt rfl
@[simp] theorem setTotal_mem (id n : Nat) (s : State) : (setTotal id n s).mem = s.mem :=
  (setTotal_fit (L := 0x200) rfl (Fit.refl _ s)).2 .mem rfl
@[simp] theorem setTotal_pnl (id n : Nat) (s : State) : (setTotal id n s).pnl = s.pnl :=
  (setTotal_fit (L := 0x200) rfl (Fit.refl _ s)).2 .pnl rfl
@[simp] theorem setTotal_scene (id n : Nat) (s : State) : (setTotal id n s).scene = s.scene :=
  (setTotal_fit (L := 0x200) rfl (Fit.refl _ s)).2 .scene rfl
@[simp] theorem setTotal_cdc (id n : Nat) (s : State) : (setTotal id n s).cdc = s.cdc :=
  (setTotal_fit (L := 0x200) rfl (Fit.refl _ s)).2 .cdc rfl
@[simp] theorem setTotal_syn (id n : Nat) (s : State) : (setTotal id n s).syn = s.syn :=
  (setTotal_fit (L := 0x200) rfl (Fit.refl _ s)).2 .syn rfl
@[simp] theorem setTotal_cam (id n : Nat) (s : State) : (setTotal id n s).cam = s.cam :=
  (setTotal_fit (L := 0x200) rfl (Fit.refl _ s)).2 .cam rfl
@[simp] theorem setTotal_scn (id n : Nat) (s : State) : (setTotal id n s).scn = s.scn :=
  (setTotal_fit (L := 0x200) rfl (Fit.refl _ s)).2 .scn rfl
@[simp] theorem setTotal_plk (id n : Nat) (s : State) : (setTotal id n s).plk = s.plk :=
  (setTotal_fit (L := 0x200) rfl (Fit.refl _ s)).2 .plk rfl
@[simp] theorem setTotal_std (id n : Nat) (s : State) : (setTotal id n s).std = s.std :=
  (setTotal_fit (L := 0x200) rfl (Fit.refl _ s)).2 .std rfl
@[simp] theorem setTotal_dmc (id n : Nat) (s : State) : (setTotal id n s).dmc = s.dmc :=
  (setTotal_fit (L := 0x200) rfl (Fit.refl _ s)).2 .dmc rfl
@[simp] theorem setTotal_net (id n : Nat) (s : State) : (setTotal id n s).net = s.net :=
  (setTotal_fit (L := 0x200) rfl (Fit.refl _ s)).2 .net rfl
@[simp] theorem setTotal_sbd (id n : Nat) (s : State) : (setTotal id n s).sbd = s.sbd :=
  (setTotal_fit (L := 0x200) rfl (Fit.refl _ s)).2 .sbd rfl
@[simp] theorem setTotal_nv (id n : Nat) (s : State) : (setTotal id n s).nv = s.nv :=
  (setTotal_fit (L := 0x200) rfl (Fit.refl _ s)).2 .nv rfl
@[simp] theorem setTotal_cal (id n : Nat) (s : State) : (setTotal id n s).cal = s.cal :=
  (setTotal_fit (L := 0x200) rfl (Fit.refl _ s)).2 .cal rfl
@[simp] theorem setTotal_bst (id n : Nat) (s : State) : (setTotal id n s).bst = s.bst :=
  (setTotal_fit (L := 0x200) rfl (Fit.refl _ s)).2 .bst rfl
@[simp] theorem setTotal_sec (id n : Nat) (s : State) : (setTotal id n s).sec = s.sec :=
  (setTotal_fit (L := 0x200) rfl (Fit.refl _ s)).2 .sec rfl
@[simp] theorem setTotal_hwd (id n : Nat) (s : State) : (setTotal id n s).hwd = s.hwd :=
  (setTotal_fit (L := 0x200) rfl (Fit.refl _ s)).2 .hwd rfl

@[simp] theorem setRing_pending (r : Nat) (x : Ring) (s : State) : (setRing r x s).pending = s.pending :=
  (setRing_fit (L := 0x400) rfl (Fit.refl _ s)).2 .pending rfl
@[simp] theorem setRing_out (r : Nat) (x : Ring) (s : State) : (setRing r x s).out = s.out :=
  (setRing_fit (L := 0x400) rfl (Fit.refl _ s)).2 .out rfl
@[simp] theorem setRing_free (r : Nat) (x : Ring) (s : State) : (setRing r x s).free = s.free :=
  (setRing_fit (L := 0x400) rfl (Fit.refl _ s)).2 .free rfl
@[simp] theorem setRing_par (r : Nat) (x : Ring) (s : State) : (setRing r x s).par = s.par :=
  (setRing_fit (L := 0x400) rfl (Fit.refl _ s)).2 .par rfl
@[simp] theorem setRing_parPend (r : Nat) (x : Ring) (s : State) : (setRing r x s).parPend = s.parPend :=
  (setRing_fit (L := 0x400) rfl (Fit.refl _ s)).2 .parPend rfl
@[simp] theorem setRing_time (r : Nat) (x : Ring) (s : State) : (setRing r x s).time = s.time :=
  (setRing_fit (L := 0x400) rfl (Fit.refl _ s)).2 .time rfl
@[simp] theorem setRing_mode (r : Nat) (x : Ring) (s : State) : (setRing r x s).mode = s.mode :=
  (setRing_fit (L := 0x400) rfl (Fit.refl _ s)).2 .mode rfl
@[simp] theorem setRing_pwr (r : Nat) (x : Ring) (s : State) : (setRing r x s).pwr = s.pwr :=
  (setRing_fit (L := 0x400) rfl (Fit.refl _ s)).2 .pwr rfl
@[simp] theorem setRing_thm (r : Nat) (x : Ring) (s : State) : (setRing r x s).thm = s.thm :=
  (setRing_fit (L := 0x400) rfl (Fit.refl _ s)).2 .thm rfl
@[simp] theorem setRing_buf (r : Nat) (x : Ring) (s : State) : (setRing r x s).buf = s.buf :=
  (setRing_fit (L := 0x400) rfl (Fit.refl _ s)).2 .buf rfl
@[simp] theorem setRing_evt (r : Nat) (x : Ring) (s : State) : (setRing r x s).evt = s.evt :=
  (setRing_fit (L := 0x400) rfl (Fit.refl _ s)).2 .evt rfl
@[simp] theorem setRing_mem (r : Nat) (x : Ring) (s : State) : (setRing r x s).mem = s.mem :=
  (setRing_fit (L := 0x400) rfl (Fit.refl _ s)).2 .mem rfl
@[simp] theorem setRing_pnl (r : Nat) (x : Ring) (s : State) : (setRing r x s).pnl = s.pnl :=
  (setRing_fit (L := 0x400) rfl (Fit.refl _ s)).2 .pnl rfl
@[simp] theorem setRing_scene (r : Nat) (x : Ring) (s : State) : (setRing r x s).scene = s.scene :=
  (setRing_fit (L := 0x400) rfl (Fit.refl _ s)).2 .scene rfl
@[simp] theorem setRing_cdc (r : Nat) (x : Ring) (s : State) : (setRing r x s).cdc = s.cdc :=
  (setRing_fit (L := 0x400) rfl (Fit.refl _ s)).2 .cdc rfl
@[simp] theorem setRing_syn (r : Nat) (x : Ring) (s : State) : (setRing r x s).syn = s.syn :=
  (setRing_fit (L := 0x400) rfl (Fit.refl _ s)).2 .syn rfl
@[simp] theorem setRing_cam (r : Nat) (x : Ring) (s : State) : (setRing r x s).cam = s.cam :=
  (setRing_fit (L := 0x400) rfl (Fit.refl _ s)).2 .cam rfl
@[simp] theorem setRing_scn (r : Nat) (x : Ring) (s : State) : (setRing r x s).scn = s.scn :=
  (setRing_fit (L := 0x400) rfl (Fit.refl _ s)).2 .scn rfl
@[simp] theorem setRing_plk (r : Nat) (x : Ring) (s : State) : (setRing r x s).plk = s.plk :=
  (setRing_fit (L := 0x400) rfl (Fit.refl _ s)).2 .plk rfl
@[simp] theorem setRing_std (r : Nat) (x : Ring) (s : State) : (setRing r x s).std = s.std :=
  (setRing_fit (L := 0x400) rfl (Fit.refl _ s)).2 .std rfl
@[simp] theorem setRing_dmc (r : Nat) (x : Ring) (s : State) : (setRing r x s).dmc = s.dmc :=
  (setRing_fit (L := 0x400) rfl (Fit.refl _ s)).2 .dmc rfl
@[simp] theorem setRing_net (r : Nat) (x : Ring) (s : State) : (setRing r x s).net = s.net :=
  (setRing_fit (L := 0x400) rfl (Fit.refl _ s)).2 .net rfl
@[simp] theorem setRing_sbd (r : Nat) (x : Ring) (s : State) : (setRing r x s).sbd = s.sbd :=
  (setRing_fit (L := 0x400) rfl (Fit.refl _ s)).2 .sbd rfl
@[simp] theorem setRing_nv (r : Nat) (x : Ring) (s : State) : (setRing r x s).nv = s.nv :=
  (setRing_fit (L := 0x400) rfl (Fit.refl _ s)).2 .nv rfl
@[simp] theorem setRing_cal (r : Nat) (x : Ring) (s : State) : (setRing r x s).cal = s.cal :=
  (setRing_fit (L := 0x400) rfl (Fit.refl _ s)).2 .cal rfl
@[simp] theorem setRing_bst (r : Nat) (x : Ring) (s : State) : (setRing r x s).bst = s.bst :=
  (setRing_fit (L := 0x400) rfl (Fit.refl _ s)).2 .bst rfl
@[simp] theorem setRing_sec (r : Nat) (x : Ring) (s : State) : (setRing r x s).sec = s.sec :=
  (setRing_fit (L := 0x400) rfl (Fit.refl _ s)).2 .sec rfl
@[simp] theorem setRing_hwd (r : Nat) (x : Ring) (s : State) : (setRing r x s).hwd = s.hwd :=
  (setRing_fit (L := 0x400) rfl (Fit.refl _ s)).2 .hwd rfl

@[simp] theorem ringError_pending (r code : Nat) (s : State) : (ringError r code s).pending = s.pending :=
  (ringError_fit (L := 0x800C02) rfl (Fit.refl _ s)).2 .pending rfl
@[simp] theorem ringError_free (r code : Nat) (s : State) : (ringError r code s).free = s.free :=
  (ringError_fit (L := 0x800C02) rfl (Fit.refl _ s)).2 .free rfl
@[simp] theorem ringError_par (r code : Nat) (s : State) : (ringError r code s).par = s.par :=
  (ringError_fit (L := 0x800C02) rfl (Fit.refl _ s)).2 .par rfl
@[simp] theorem ringError_parPend (r code : Nat) (s : State) : (ringError r code s).parPend = s.parPend :=
  (ringError_fit (L := 0x800C02) rfl (Fit.refl _ s)).2 .parPend rfl
@[simp] theorem ringError_time (r code : Nat) (s : State) : (ringError r code s).time = s.time :=
  (ringError_fit (L := 0x800C02) rfl (Fit.refl _ s)).2 .time rfl
@[simp] theorem ringError_mode (r code : Nat) (s : State) : (ringError r code s).mode = s.mode :=
  (ringError_fit (L := 0x800C02) rfl (Fit.refl _ s)).2 .mode rfl
@[simp] theorem ringError_pwr (r code : Nat) (s : State) : (ringError r code s).pwr = s.pwr :=
  (ringError_fit (L := 0x800C02) rfl (Fit.refl _ s)).2 .pwr rfl
@[simp] theorem ringError_thm (r code : Nat) (s : State) : (ringError r code s).thm = s.thm :=
  (ringError_fit (L := 0x800C02) rfl (Fit.refl _ s)).2 .thm rfl
@[simp] theorem ringError_buf (r code : Nat) (s : State) : (ringError r code s).buf = s.buf :=
  (ringError_fit (L := 0x800C02) rfl (Fit.refl _ s)).2 .buf rfl
@[simp] theorem ringError_mem (r code : Nat) (s : State) : (ringError r code s).mem = s.mem :=
  (ringError_fit (L := 0x800C02) rfl (Fit.refl _ s)).2 .mem rfl
@[simp] theorem ringError_pnl (r code : Nat) (s : State) : (ringError r code s).pnl = s.pnl :=
  (ringError_fit (L := 0x800C02) rfl (Fit.refl _ s)).2 .pnl rfl
@[simp] theorem ringError_scene (r code : Nat) (s : State) : (ringError r code s).scene = s.scene :=
  (ringError_fit (L := 0x800C02) rfl (Fit.refl _ s)).2 .scene rfl
@[simp] theorem ringError_cdc (r code : Nat) (s : State) : (ringError r code s).cdc = s.cdc :=
  (ringError_fit (L := 0x800C02) rfl (Fit.refl _ s)).2 .cdc rfl
@[simp] theorem ringError_syn (r code : Nat) (s : State) : (ringError r code s).syn = s.syn :=
  (ringError_fit (L := 0x800C02) rfl (Fit.refl _ s)).2 .syn rfl
@[simp] theorem ringError_cam (r code : Nat) (s : State) : (ringError r code s).cam = s.cam :=
  (ringError_fit (L := 0x800C02) rfl (Fit.refl _ s)).2 .cam rfl
@[simp] theorem ringError_scn (r code : Nat) (s : State) : (ringError r code s).scn = s.scn :=
  (ringError_fit (L := 0x800C02) rfl (Fit.refl _ s)).2 .scn rfl
@[simp] theorem ringError_plk (r code : Nat) (s : State) : (ringError r code s).plk = s.plk :=
  (ringError_fit (L := 0x800C02) rfl (Fit.refl _ s)).2 .plk rfl
@[simp] theorem ringError_std (r code : Nat) (s : State) : (ringError r code s).std = s.std :=
  (ringError_fit (L := 0x800C02) rfl (Fit.refl _ s)).2 .std rfl
@[simp] theorem ringError_dmc (r code : Nat) (s : State) : (ringError r code s).dmc = s.dmc :=
  (ringError_fit (L := 0x800C02) rfl (Fit.refl _ s)).2 .dmc rfl
@[simp] theorem ringError_net (r code : Nat) (s : State) : (ringError r code s).net = s.net :=
  (ringError_fit (L := 0x800C02) rfl (Fit.refl _ s)).2 .net rfl
@[simp] theorem ringError_nv (r code : Nat) (s : State) : (ringError r code s).nv = s.nv :=
  (ringError_fit (L := 0x800C02) rfl (Fit.refl _ s)).2 .nv rfl
@[simp] theorem ringError_cal (r code : Nat) (s : State) : (ringError r code s).cal = s.cal :=
  (ringError_fit (L := 0x800C02) rfl (Fit.refl _ s)).2 .cal rfl
@[simp] theorem ringError_bst (r code : Nat) (s : State) : (ringError r code s).bst = s.bst :=
  (ringError_fit (L := 0x800C02) rfl (Fit.refl _ s)).2 .bst rfl
@[simp] theorem ringError_sec (r code : Nat) (s : State) : (ringError r code s).sec = s.sec :=
  (ringError_fit (L := 0x800C02) rfl (Fit.refl _ s)).2 .sec rfl
@[simp] theorem ringError_hwd (r code : Nat) (s : State) : (ringError r code s).hwd = s.hwd :=
  (ringError_fit (L := 0x800C02) rfl (Fit.refl _ s)).2 .hwd rfl

@[simp] theorem loseReply_pending (rep : Reply) (s : State) : (loseReply rep s).pending = s.pending :=
  (loseReply_fit (L := 0x800C02) rfl (Fit.refl _ s)).2 .pending rfl
@[simp] theorem loseReply_free (rep : Reply) (s : State) : (loseReply rep s).free = s.free :=
  (loseReply_fit (L := 0x800C02) rfl (Fit.refl _ s)).2 .free rfl
@[simp] theorem loseReply_par (rep : Reply) (s : State) : (loseReply rep s).par = s.par :=
  (loseReply_fit (L := 0x800C02) rfl (Fit.refl _ s)).2 .par rfl
@[simp] theorem loseReply_parPend (rep : Reply) (s : State) : (loseReply rep s).parPend = s.parPend :=
  (loseReply_fit (L := 0x800C02) rfl (Fit.refl _ s)).2 .parPend rfl
@[simp] theorem loseReply_time (rep : Reply) (s : State) : (loseReply rep s).time = s.time :=
  (loseReply_fit (L := 0x800C02) rfl (Fit.refl _ s)).2 .time rfl
@[simp] theorem loseReply_mode (rep : Reply) (s : State) : (loseReply rep s).mode = s.mode :=
  (loseReply_fit (L := 0x800C02) rfl (Fit.refl _ s)).2 .mode rfl
@[simp] theorem loseReply_pwr (rep : Reply) (s : State) : (loseReply rep s).pwr = s.pwr :=
  (loseReply_fit (L := 0x800C02) rfl (Fit.refl _ s)).2 .pwr rfl
@[simp] theorem loseReply_thm (rep : Reply) (s : State) : (loseReply rep s).thm = s.thm :=
  (loseReply_fit (L := 0x800C02) rfl (Fit.refl _ s)).2 .thm rfl
@[simp] theorem loseReply_buf (rep : Reply) (s : State) : (loseReply rep s).buf = s.buf :=
  (loseReply_fit (L := 0x800C02) rfl (Fit.refl _ s)).2 .buf rfl
@[simp] theorem loseReply_mem (rep : Reply) (s : State) : (loseReply rep s).mem = s.mem :=
  (loseReply_fit (L := 0x800C02) rfl (Fit.refl _ s)).2 .mem rfl
@[simp] theorem loseReply_pnl (rep : Reply) (s : State) : (loseReply rep s).pnl = s.pnl :=
  (loseReply_fit (L := 0x800C02) rfl (Fit.refl _ s)).2 .pnl rfl
@[simp] theorem loseReply_scene (rep : Reply) (s : State) : (loseReply rep s).scene = s.scene :=
  (loseReply_fit (L := 0x800C02) rfl (Fit.refl _ s)).2 .scene rfl
@[simp] theorem loseReply_cdc (rep : Reply) (s : State) : (loseReply rep s).cdc = s.cdc :=
  (loseReply_fit (L := 0x800C02) rfl (Fit.refl _ s)).2 .cdc rfl
@[simp] theorem loseReply_syn (rep : Reply) (s : State) : (loseReply rep s).syn = s.syn :=
  (loseReply_fit (L := 0x800C02) rfl (Fit.refl _ s)).2 .syn rfl
@[simp] theorem loseReply_cam (rep : Reply) (s : State) : (loseReply rep s).cam = s.cam :=
  (loseReply_fit (L := 0x800C02) rfl (Fit.refl _ s)).2 .cam rfl
@[simp] theorem loseReply_scn (rep : Reply) (s : State) : (loseReply rep s).scn = s.scn :=
  (loseReply_fit (L := 0x800C02) rfl (Fit.refl _ s)).2 .scn rfl
@[simp] theorem loseReply_plk (rep : Reply) (s : State) : (loseReply rep s).plk = s.plk :=
  (loseReply_fit (L := 0x800C02) rfl (Fit.refl _ s)).2 .plk rfl
@[simp] theorem loseReply_std (rep : Reply) (s : State) : (loseReply rep s).std = s.std :=
  (loseReply_fit (L := 0x800C02) rfl (Fit.refl _ s)).2 .std rfl
@[simp] theorem loseReply_dmc (rep : Reply) (s : State) : (loseReply rep s).dmc = s.dmc :=
  (loseReply_fit (L := 0x800C02) rfl (Fit.refl _ s)).2 .dmc rfl
@[simp] theorem loseReply_net (rep : Reply) (s : State) : (loseReply rep s).net = s.net :=
  (loseReply_fit (L := 0x800C02) rfl (Fit.refl _ s)).2 .net rfl
@[simp] theorem loseReply_nv (rep : Reply) (s : State) : (loseReply rep s).nv = s.nv :=
  (loseReply_fit (L := 0x800C02) rfl (Fit.refl _ s)).2 .nv rfl
@[simp] theorem loseReply_cal (rep : Reply) (s : State) : (loseReply rep s).cal = s.cal :=
  (loseReply_fit (L := 0x800C02) rfl (Fit.refl _ s)).2 .cal rfl
@[simp] theorem loseReply_bst (rep : Reply) (s : State) : (loseReply rep s).bst = s.bst :=
  (loseReply_fit (L := 0x800C02) rfl (Fit.refl _ s)).2 .bst rfl
@[simp] theorem loseReply_sec (rep : Reply) (s : State) : (loseReply rep s).sec = s.sec :=
  (loseReply_fit (L := 0x800C02) rfl (Fit.refl _ s)).2 .sec rfl
@[simp] theorem loseReply_hwd (rep : Reply) (s : State) : (loseReply rep s).hwd = s.hwd :=
  (loseReply_fit (L := 0x800C02) rfl (Fit.refl _ s)).2 .hwd rfl

@[simp] theorem ringReply_pending (r : Nat) (interim : Bool) (rep : Reply) (s : State) : (ringReply r interim rep s).pending = s.pending :=
  (ringReply_fit (L := 0x800E02) rfl (Fit.refl _ s)).2 .pending rfl
@[simp] theorem ringReply_free (r : Nat) (interim : Bool) (rep : Reply) (s : State) : (ringReply r interim rep s).free = s.free :=
  (ringReply_fit (L := 0x800E02) rfl (Fit.refl _ s)).2 .free rfl
@[simp] theorem ringReply_par (r : Nat) (interim : Bool) (rep : Reply) (s : State) : (ringReply r interim rep s).par = s.par :=
  (ringReply_fit (L := 0x800E02) rfl (Fit.refl _ s)).2 .par rfl
@[simp] theorem ringReply_parPend (r : Nat) (interim : Bool) (rep : Reply) (s : State) : (ringReply r interim rep s).parPend = s.parPend :=
  (ringReply_fit (L := 0x800E02) rfl (Fit.refl _ s)).2 .parPend rfl
@[simp] theorem ringReply_time (r : Nat) (interim : Bool) (rep : Reply) (s : State) : (ringReply r interim rep s).time = s.time :=
  (ringReply_fit (L := 0x800E02) rfl (Fit.refl _ s)).2 .time rfl
@[simp] theorem ringReply_mode (r : Nat) (interim : Bool) (rep : Reply) (s : State) : (ringReply r interim rep s).mode = s.mode :=
  (ringReply_fit (L := 0x800E02) rfl (Fit.refl _ s)).2 .mode rfl
@[simp] theorem ringReply_pwr (r : Nat) (interim : Bool) (rep : Reply) (s : State) : (ringReply r interim rep s).pwr = s.pwr :=
  (ringReply_fit (L := 0x800E02) rfl (Fit.refl _ s)).2 .pwr rfl
@[simp] theorem ringReply_thm (r : Nat) (interim : Bool) (rep : Reply) (s : State) : (ringReply r interim rep s).thm = s.thm :=
  (ringReply_fit (L := 0x800E02) rfl (Fit.refl _ s)).2 .thm rfl
@[simp] theorem ringReply_mem (r : Nat) (interim : Bool) (rep : Reply) (s : State) : (ringReply r interim rep s).mem = s.mem :=
  (ringReply_fit (L := 0x800E02) rfl (Fit.refl _ s)).2 .mem rfl
@[simp] theorem ringReply_pnl (r : Nat) (interim : Bool) (rep : Reply) (s : State) : (ringReply r interim rep s).pnl = s.pnl :=
  (ringReply_fit (L := 0x800E02) rfl (Fit.refl _ s)).2 .pnl rfl
@[simp] theorem ringReply_scene (r : Nat) (interim : Bool) (rep : Reply) (s : State) : (ringReply r interim rep s).scene = s.scene :=
  (ringReply_fit (L := 0x800E02) rfl (Fit.refl _ s)).2 .scene rfl
@[simp] theorem ringReply_cdc (r : Nat) (interim : Bool) (rep : Reply) (s : State) : (ringReply r interim rep s).cdc = s.cdc :=
  (ringReply_fit (L := 0x800E02) rfl (Fit.refl _ s)).2 .cdc rfl
@[simp] theorem ringReply_syn (r : Nat) (interim : Bool) (rep : Reply) (s : State) : (ringReply r interim rep s).syn = s.syn :=
  (ringReply_fit (L := 0x800E02) rfl (Fit.refl _ s)).2 .syn rfl
@[simp] theorem ringReply_cam (r : Nat) (interim : Bool) (rep : Reply) (s : State) : (ringReply r interim rep s).cam = s.cam :=
  (ringReply_fit (L := 0x800E02) rfl (Fit.refl _ s)).2 .cam rfl
@[simp] theorem ringReply_scn (r : Nat) (interim : Bool) (rep : Reply) (s : State) : (ringReply r interim rep s).scn = s.scn :=
  (ringReply_fit (L := 0x800E02) rfl (Fit.refl _ s)).2 .scn rfl
@[simp] theorem ringReply_plk (r : Nat) (interim : Bool) (rep : Reply) (s : State) : (ringReply r interim rep s).plk = s.plk :=
  (ringReply_fit (L := 0x800E02) rfl (Fit.refl _ s)).2 .plk rfl
@[simp] theorem ringReply_std (r : Nat) (interim : Bool) (rep : Reply) (s : State) : (ringReply r interim rep s).std = s.std :=
  (ringReply_fit (L := 0x800E02) rfl (Fit.refl _ s)).2 .std rfl
@[simp] theorem ringReply_dmc (r : Nat) (interim : Bool) (rep : Reply) (s : State) : (ringReply r interim rep s).dmc = s.dmc :=
  (ringReply_fit (L := 0x800E02) rfl (Fit.refl _ s)).2 .dmc rfl
@[simp] theorem ringReply_net (r : Nat) (interim : Bool) (rep : Reply) (s : State) : (ringReply r interim rep s).net = s.net :=
  (ringReply_fit (L := 0x800E02) rfl (Fit.refl _ s)).2 .net rfl
@[simp] theorem ringReply_nv (r : Nat) (interim : Bool) (rep : Reply) (s : State) : (ringReply r interim rep s).nv = s.nv :=
  (ringReply_fit (L := 0x800E02) rfl (Fit.refl _ s)).2 .nv rfl
@[simp] theorem ringReply_cal (r : Nat) (interim : Bool) (rep : Reply) (s : State) : (ringReply r interim rep s).cal = s.cal :=
  (ringReply_fit (L := 0x800E02) rfl (Fit.refl _ s)).2 .cal rfl
@[simp] theorem ringReply_bst (r : Nat) (interim : Bool) (rep : Reply) (s : State) : (ringReply r interim rep s).bst = s.bst :=
  (ringReply_fit (L := 0x800E02) rfl (Fit.refl _ s)).2 .bst rfl
@[simp] theorem ringReply_sec (r : Nat) (interim : Bool) (rep : Reply) (s : State) : (ringReply r interim rep s).sec = s.sec :=
  (ringReply_fit (L := 0x800E02) rfl (Fit.refl _ s)).2 .sec rfl
@[simp] theorem ringReply_hwd (r : Nat) (interim : Bool) (rep : Reply) (s : State) : (ringReply r interim rep s).hwd = s.hwd :=
  (ringReply_fit (L := 0x800E02) rfl (Fit.refl _ s)).2 .hwd rfl

@[simp] theorem keepReply_pending (rep : Reply) (s : State) : (keepReply rep s).pending = s.pending :=
  (keepReply_fit (L := 0x400) rfl (Fit.refl _ s)).2 .pending rfl
@[simp] theorem keepReply_out (rep : Reply) (s : State) : (keepReply rep s).out = s.out :=
  (keepReply_fit (L := 0x400) rfl (Fit.refl _ s)).2 .out rfl
@[simp] theorem keepReply_free (rep : Reply) (s : State) : (keepReply rep s).free = s.free :=
  (keepReply_fit (L := 0x400) rfl (Fit.refl _ s)).2 .free rfl
@[simp] theorem keepReply_par (rep : Reply) (s : State) : (keepReply rep s).par = s.par :=
  (keepReply_fit (L := 0x400) rfl (Fit.refl _ s)).2 .par rfl
@[simp] theorem keepReply_parPend (rep : Reply) (s : State) : (keepReply rep s).parPend = s.parPend :=
  (keepReply_fit (L := 0x400) rfl (Fit.refl _ s)).2 .parPend rfl
@[simp] theorem keepReply_time (rep : Reply) (s : State) : (keepReply rep s).time = s.time :=
  (keepReply_fit (L := 0x400) rfl (Fit.refl _ s)).2 .time rfl
@[simp] theorem keepReply_mode (rep : Reply) (s : State) : (keepReply rep s).mode = s.mode :=
  (keepReply_fit (L := 0x400) rfl (Fit.refl _ s)).2 .mode rfl
@[simp] theorem keepReply_pwr (rep : Reply) (s : State) : (keepReply rep s).pwr = s.pwr :=
  (keepReply_fit (L := 0x400) rfl (Fit.refl _ s)).2 .pwr rfl
@[simp] theorem keepReply_thm (rep : Reply) (s : State) : (keepReply rep s).thm = s.thm :=
  (keepReply_fit (L := 0x400) rfl (Fit.refl _ s)).2 .thm rfl
@[simp] theorem keepReply_buf (rep : Reply) (s : State) : (keepReply rep s).buf = s.buf :=
  (keepReply_fit (L := 0x400) rfl (Fit.refl _ s)).2 .buf rfl
@[simp] theorem keepReply_evt (rep : Reply) (s : State) : (keepReply rep s).evt = s.evt :=
  (keepReply_fit (L := 0x400) rfl (Fit.refl _ s)).2 .evt rfl
@[simp] theorem keepReply_mem (rep : Reply) (s : State) : (keepReply rep s).mem = s.mem :=
  (keepReply_fit (L := 0x400) rfl (Fit.refl _ s)).2 .mem rfl
@[simp] theorem keepReply_pnl (rep : Reply) (s : State) : (keepReply rep s).pnl = s.pnl :=
  (keepReply_fit (L := 0x400) rfl (Fit.refl _ s)).2 .pnl rfl
@[simp] theorem keepReply_scene (rep : Reply) (s : State) : (keepReply rep s).scene = s.scene :=
  (keepReply_fit (L := 0x400) rfl (Fit.refl _ s)).2 .scene rfl
@[simp] theorem keepReply_cdc (rep : Reply) (s : State) : (keepReply rep s).cdc = s.cdc :=
  (keepReply_fit (L := 0x400) rfl (Fit.refl _ s)).2 .cdc rfl
@[simp] theorem keepReply_syn (rep : Reply) (s : State) : (keepReply rep s).syn = s.syn :=
  (keepReply_fit (L := 0x400) rfl (Fit.refl _ s)).2 .syn rfl
@[simp] theorem keepReply_cam (rep : Reply) (s : State) : (keepReply rep s).cam = s.cam :=
  (keepReply_fit (L := 0x400) rfl (Fit.refl _ s)).2 .cam rfl
@[simp] theorem keepReply_scn (rep : Reply) (s : State) : (keepReply rep s).scn = s.scn :=
  (keepReply_fit (L := 0x400) rfl (Fit.refl _ s)).2 .scn rfl
@[simp] theorem keepReply_plk (rep : Reply) (s : State) : (keepReply rep s).plk = s.plk :=
  (keepReply_fit (L := 0x400) rfl (Fit.refl _ s)).2 .plk rfl
@[simp] theorem keepReply_std (rep : Reply) (s : State) : (keepReply rep s).std = s.std :=
  (keepReply_fit (L := 0x400) rfl (Fit.refl _ s)).2 .std rfl
@[simp] theorem keepReply_dmc (rep : Reply) (s : State) : (keepReply rep s).dmc = s.dmc :=
  (keepReply_fit (L := 0x400) rfl (Fit.refl _ s)).2 .dmc rfl
@[simp] theorem keepReply_net (rep : Reply) (s : State) : (keepReply rep s).net = s.net :=
  (keepReply_fit (L := 0x400) rfl (Fit.refl _ s)).2 .net rfl
@[simp] theorem keepReply_sbd (rep : Reply) (s : State) : (keepReply rep s).sbd = s.sbd :=
  (keepReply_fit (L := 0x400) rfl (Fit.refl _ s)).2 .sbd rfl
@[simp] theorem keepReply_nv (rep : Reply) (s : State) : (keepReply rep s).nv = s.nv :=
  (keepReply_fit (L := 0x400) rfl (Fit.refl _ s)).2 .nv rfl
@[simp] theorem keepReply_cal (rep : Reply) (s : State) : (keepReply rep s).cal = s.cal :=
  (keepReply_fit (L := 0x400) rfl (Fit.refl _ s)).2 .cal rfl
@[simp] theorem keepReply_bst (rep : Reply) (s : State) : (keepReply rep s).bst = s.bst :=
  (keepReply_fit (L := 0x400) rfl (Fit.refl _ s)).2 .bst rfl
@[simp] theorem keepReply_sec (rep : Reply) (s : State) : (keepReply rep s).sec = s.sec :=
  (keepReply_fit (L := 0x400) rfl (Fit.refl _ s)).2 .sec rfl
@[simp] theorem keepReply_hwd (rep : Reply) (s : State) : (keepReply rep s).hwd = s.hwd :=
  (keepReply_fit (L := 0x400) rfl (Fit.refl _ s)).2 .hwd rfl

@[simp] theorem sendReply_pending (orphan interim : Bool) (rep : Reply) (s : State) : (sendReply orphan interim rep s).pending = s.pending :=
  (sendReply_fit (L := 0x800E02) rfl (Fit.refl _ s)).2 .pending rfl
@[simp] theorem sendReply_free (orphan interim : Bool) (rep : Reply) (s : State) : (sendReply orphan interim rep s).free = s.free :=
  (sendReply_fit (L := 0x800E02) rfl (Fit.refl _ s)).2 .free rfl
@[simp] theorem sendReply_par (orphan interim : Bool) (rep : Reply) (s : State) : (sendReply orphan interim rep s).par = s.par :=
  (sendReply_fit (L := 0x800E02) rfl (Fit.refl _ s)).2 .par rfl
@[simp] theorem sendReply_parPend (orphan interim : Bool) (rep : Reply) (s : State) : (sendReply orphan interim rep s).parPend = s.parPend :=
  (sendReply_fit (L := 0x800E02) rfl (Fit.refl _ s)).2 .parPend rfl
@[simp] theorem sendReply_time (orphan interim : Bool) (rep : Reply) (s : State) : (sendReply orphan interim rep s).time = s.time :=
  (sendReply_fit (L := 0x800E02) rfl (Fit.refl _ s)).2 .time rfl
@[simp] theorem sendReply_mode (orphan interim : Bool) (rep : Reply) (s : State) : (sendReply orphan interim rep s).mode = s.mode :=
  (sendReply_fit (L := 0x800E02) rfl (Fit.refl _ s)).2 .mode rfl
@[simp] theorem sendReply_pwr (orphan interim : Bool) (rep : Reply) (s : State) : (sendReply orphan interim rep s).pwr = s.pwr :=
  (sendReply_fit (L := 0x800E02) rfl (Fit.refl _ s)).2 .pwr rfl
@[simp] theorem sendReply_thm (orphan interim : Bool) (rep : Reply) (s : State) : (sendReply orphan interim rep s).thm = s.thm :=
  (sendReply_fit (L := 0x800E02) rfl (Fit.refl _ s)).2 .thm rfl
@[simp] theorem sendReply_mem (orphan interim : Bool) (rep : Reply) (s : State) : (sendReply orphan interim rep s).mem = s.mem :=
  (sendReply_fit (L := 0x800E02) rfl (Fit.refl _ s)).2 .mem rfl
@[simp] theorem sendReply_pnl (orphan interim : Bool) (rep : Reply) (s : State) : (sendReply orphan interim rep s).pnl = s.pnl :=
  (sendReply_fit (L := 0x800E02) rfl (Fit.refl _ s)).2 .pnl rfl
@[simp] theorem sendReply_scene (orphan interim : Bool) (rep : Reply) (s : State) : (sendReply orphan interim rep s).scene = s.scene :=
  (sendReply_fit (L := 0x800E02) rfl (Fit.refl _ s)).2 .scene rfl
@[simp] theorem sendReply_cdc (orphan interim : Bool) (rep : Reply) (s : State) : (sendReply orphan interim rep s).cdc = s.cdc :=
  (sendReply_fit (L := 0x800E02) rfl (Fit.refl _ s)).2 .cdc rfl
@[simp] theorem sendReply_syn (orphan interim : Bool) (rep : Reply) (s : State) : (sendReply orphan interim rep s).syn = s.syn :=
  (sendReply_fit (L := 0x800E02) rfl (Fit.refl _ s)).2 .syn rfl
@[simp] theorem sendReply_cam (orphan interim : Bool) (rep : Reply) (s : State) : (sendReply orphan interim rep s).cam = s.cam :=
  (sendReply_fit (L := 0x800E02) rfl (Fit.refl _ s)).2 .cam rfl
@[simp] theorem sendReply_scn (orphan interim : Bool) (rep : Reply) (s : State) : (sendReply orphan interim rep s).scn = s.scn :=
  (sendReply_fit (L := 0x800E02) rfl (Fit.refl _ s)).2 .scn rfl
@[simp] theorem sendReply_plk (orphan interim : Bool) (rep : Reply) (s : State) : (sendReply orphan interim rep s).plk = s.plk :=
  (sendReply_fit (L := 0x800E02) rfl (Fit.refl _ s)).2 .plk rfl
@[simp] theorem sendReply_std (orphan interim : Bool) (rep : Reply) (s : State) : (sendReply orphan interim rep s).std = s.std :=
  (sendReply_fit (L := 0x800E02) rfl (Fit.refl _ s)).2 .std rfl
@[simp] theorem sendReply_dmc (orphan interim : Bool) (rep : Reply) (s : State) : (sendReply orphan interim rep s).dmc = s.dmc :=
  (sendReply_fit (L := 0x800E02) rfl (Fit.refl _ s)).2 .dmc rfl
@[simp] theorem sendReply_net (orphan interim : Bool) (rep : Reply) (s : State) : (sendReply orphan interim rep s).net = s.net :=
  (sendReply_fit (L := 0x800E02) rfl (Fit.refl _ s)).2 .net rfl
@[simp] theorem sendReply_nv (orphan interim : Bool) (rep : Reply) (s : State) : (sendReply orphan interim rep s).nv = s.nv :=
  (sendReply_fit (L := 0x800E02) rfl (Fit.refl _ s)).2 .nv rfl
@[simp] theorem sendReply_cal (orphan interim : Bool) (rep : Reply) (s : State) : (sendReply orphan interim rep s).cal = s.cal :=
  (sendReply_fit (L := 0x800E02) rfl (Fit.refl _ s)).2 .cal rfl
@[simp] theorem sendReply_bst (orphan interim : Bool) (rep : Reply) (s : State) : (sendReply orphan interim rep s).bst = s.bst :=
  (sendReply_fit (L := 0x800E02) rfl (Fit.refl _ s)).2 .bst rfl
@[simp] theorem sendReply_sec (orphan interim : Bool) (rep : Reply) (s : State) : (sendReply orphan interim rep s).sec = s.sec :=
  (sendReply_fit (L := 0x800E02) rfl (Fit.refl _ s)).2 .sec rfl
@[simp] theorem sendReply_hwd (orphan interim : Bool) (rep : Reply) (s : State) : (sendReply orphan interim rep s).hwd = s.hwd :=
  (sendReply_fit (L := 0x800E02) rfl (Fit.refl _ s)).2 .hwd rfl

@[simp] theorem noteFinal_pending (h : Hdr) (st : Nat) (s : State) : (noteFinal h st s).pending = s.pending :=
  (noteFinal_fit (L := 0x400) rfl (Fit.refl _ s)).2 .pending rfl
@[simp] theorem noteFinal_out (h : Hdr) (st : Nat) (s : State) : (noteFinal h st s).out = s.out :=
  (noteFinal_fit (L := 0x400) rfl (Fit.refl _ s)).2 .out rfl
@[simp] theorem noteFinal_free (h : Hdr) (st : Nat) (s : State) : (noteFinal h st s).free = s.free :=
  (noteFinal_fit (L := 0x400) rfl (Fit.refl _ s)).2 .free rfl
@[simp] theorem noteFinal_par (h : Hdr) (st : Nat) (s : State) : (noteFinal h st s).par = s.par :=
  (noteFinal_fit (L := 0x400) rfl (Fit.refl _ s)).2 .par rfl
@[simp] theorem noteFinal_parPend (h : Hdr) (st : Nat) (s : State) : (noteFinal h st s).parPend = s.parPend :=
  (noteFinal_fit (L := 0x400) rfl (Fit.refl _ s)).2 .parPend rfl
@[simp] theorem noteFinal_time (h : Hdr) (st : Nat) (s : State) : (noteFinal h st s).time = s.time :=
  (noteFinal_fit (L := 0x400) rfl (Fit.refl _ s)).2 .time rfl
@[simp] theorem noteFinal_mode (h : Hdr) (st : Nat) (s : State) : (noteFinal h st s).mode = s.mode :=
  (noteFinal_fit (L := 0x400) rfl (Fit.refl _ s)).2 .mode rfl
@[simp] theorem noteFinal_pwr (h : Hdr) (st : Nat) (s : State) : (noteFinal h st s).pwr = s.pwr :=
  (noteFinal_fit (L := 0x400) rfl (Fit.refl _ s)).2 .pwr rfl
@[simp] theorem noteFinal_thm (h : Hdr) (st : Nat) (s : State) : (noteFinal h st s).thm = s.thm :=
  (noteFinal_fit (L := 0x400) rfl (Fit.refl _ s)).2 .thm rfl
@[simp] theorem noteFinal_buf (h : Hdr) (st : Nat) (s : State) : (noteFinal h st s).buf = s.buf :=
  (noteFinal_fit (L := 0x400) rfl (Fit.refl _ s)).2 .buf rfl
@[simp] theorem noteFinal_evt (h : Hdr) (st : Nat) (s : State) : (noteFinal h st s).evt = s.evt :=
  (noteFinal_fit (L := 0x400) rfl (Fit.refl _ s)).2 .evt rfl
@[simp] theorem noteFinal_mem (h : Hdr) (st : Nat) (s : State) : (noteFinal h st s).mem = s.mem :=
  (noteFinal_fit (L := 0x400) rfl (Fit.refl _ s)).2 .mem rfl
@[simp] theorem noteFinal_pnl (h : Hdr) (st : Nat) (s : State) : (noteFinal h st s).pnl = s.pnl :=
  (noteFinal_fit (L := 0x400) rfl (Fit.refl _ s)).2 .pnl rfl
@[simp] theorem noteFinal_scene (h : Hdr) (st : Nat) (s : State) : (noteFinal h st s).scene = s.scene :=
  (noteFinal_fit (L := 0x400) rfl (Fit.refl _ s)).2 .scene rfl
@[simp] theorem noteFinal_cdc (h : Hdr) (st : Nat) (s : State) : (noteFinal h st s).cdc = s.cdc :=
  (noteFinal_fit (L := 0x400) rfl (Fit.refl _ s)).2 .cdc rfl
@[simp] theorem noteFinal_syn (h : Hdr) (st : Nat) (s : State) : (noteFinal h st s).syn = s.syn :=
  (noteFinal_fit (L := 0x400) rfl (Fit.refl _ s)).2 .syn rfl
@[simp] theorem noteFinal_cam (h : Hdr) (st : Nat) (s : State) : (noteFinal h st s).cam = s.cam :=
  (noteFinal_fit (L := 0x400) rfl (Fit.refl _ s)).2 .cam rfl
@[simp] theorem noteFinal_scn (h : Hdr) (st : Nat) (s : State) : (noteFinal h st s).scn = s.scn :=
  (noteFinal_fit (L := 0x400) rfl (Fit.refl _ s)).2 .scn rfl
@[simp] theorem noteFinal_plk (h : Hdr) (st : Nat) (s : State) : (noteFinal h st s).plk = s.plk :=
  (noteFinal_fit (L := 0x400) rfl (Fit.refl _ s)).2 .plk rfl
@[simp] theorem noteFinal_std (h : Hdr) (st : Nat) (s : State) : (noteFinal h st s).std = s.std :=
  (noteFinal_fit (L := 0x400) rfl (Fit.refl _ s)).2 .std rfl
@[simp] theorem noteFinal_dmc (h : Hdr) (st : Nat) (s : State) : (noteFinal h st s).dmc = s.dmc :=
  (noteFinal_fit (L := 0x400) rfl (Fit.refl _ s)).2 .dmc rfl
@[simp] theorem noteFinal_net (h : Hdr) (st : Nat) (s : State) : (noteFinal h st s).net = s.net :=
  (noteFinal_fit (L := 0x400) rfl (Fit.refl _ s)).2 .net rfl
@[simp] theorem noteFinal_sbd (h : Hdr) (st : Nat) (s : State) : (noteFinal h st s).sbd = s.sbd :=
  (noteFinal_fit (L := 0x400) rfl (Fit.refl _ s)).2 .sbd rfl
@[simp] theorem noteFinal_nv (h : Hdr) (st : Nat) (s : State) : (noteFinal h st s).nv = s.nv :=
  (noteFinal_fit (L := 0x400) rfl (Fit.refl _ s)).2 .nv rfl
@[simp] theorem noteFinal_cal (h : Hdr) (st : Nat) (s : State) : (noteFinal h st s).cal = s.cal :=
  (noteFinal_fit (L := 0x400) rfl (Fit.refl _ s)).2 .cal rfl
@[simp] theorem noteFinal_bst (h : Hdr) (st : Nat) (s : State) : (noteFinal h st s).bst = s.bst :=
  (noteFinal_fit (L := 0x400) rfl (Fit.refl _ s)).2 .bst rfl
@[simp] theorem noteFinal_sec (h : Hdr) (st : Nat) (s : State) : (noteFinal h st s).sec = s.sec :=
  (noteFinal_fit (L := 0x400) rfl (Fit.refl _ s)).2 .sec rfl
@[simp] theorem noteFinal_hwd (h : Hdr) (st : Nat) (s : State) : (noteFinal h st s).hwd = s.hwd :=
  (noteFinal_fit (L := 0x400) rfl (Fit.refl _ s)).2 .hwd rfl

@[simp] theorem finish_pending (h : Hdr) (opc : Nat) (v : Verdict) (s : State) : (finish h opc v s).pending = s.pending :=
  (finish_fit (L := 0x800E02) rfl (Fit.refl _ s)).2 .pending rfl
@[simp] theorem finish_free (h : Hdr) (opc : Nat) (v : Verdict) (s : State) : (finish h opc v s).free = s.free :=
  (finish_fit (L := 0x800E02) rfl (Fit.refl _ s)).2 .free rfl
@[simp] theorem finish_par (h : Hdr) (opc : Nat) (v : Verdict) (s : State) : (finish h opc v s).par = s.par :=
  (finish_fit (L := 0x800E02) rfl (Fit.refl _ s)).2 .par rfl
@[simp] theorem finish_parPend (h : Hdr) (opc : Nat) (v : Verdict) (s : State) : (finish h opc v s).parPend = s.parPend :=
  (finish_fit (L := 0x800E02) rfl (Fit.refl _ s)).2 .parPend rfl
@[simp] theorem finish_time (h : Hdr) (opc : Nat) (v : Verdict) (s : State) : (finish h opc v s).time = s.time :=
  (finish_fit (L := 0x800E02) rfl (Fit.refl _ s)).2 .time rfl
@[simp] theorem finish_mode (h : Hdr) (opc : Nat) (v : Verdict) (s : State) : (finish h opc v s).mode = s.mode :=
  (finish_fit (L := 0x800E02) rfl (Fit.refl _ s)).2 .mode rfl
@[simp] theorem finish_pwr (h : Hdr) (opc : Nat) (v : Verdict) (s : State) : (finish h opc v s).pwr = s.pwr :=
  (finish_fit (L := 0x800E02) rfl (Fit.refl _ s)).2 .pwr rfl
@[simp] theorem finish_thm (h : Hdr) (opc : Nat) (v : Verdict) (s : State) : (finish h opc v s).thm = s.thm :=
  (finish_fit (L := 0x800E02) rfl (Fit.refl _ s)).2 .thm rfl
@[simp] theorem finish_mem (h : Hdr) (opc : Nat) (v : Verdict) (s : State) : (finish h opc v s).mem = s.mem :=
  (finish_fit (L := 0x800E02) rfl (Fit.refl _ s)).2 .mem rfl
@[simp] theorem finish_pnl (h : Hdr) (opc : Nat) (v : Verdict) (s : State) : (finish h opc v s).pnl = s.pnl :=
  (finish_fit (L := 0x800E02) rfl (Fit.refl _ s)).2 .pnl rfl
@[simp] theorem finish_scene (h : Hdr) (opc : Nat) (v : Verdict) (s : State) : (finish h opc v s).scene = s.scene :=
  (finish_fit (L := 0x800E02) rfl (Fit.refl _ s)).2 .scene rfl
@[simp] theorem finish_cdc (h : Hdr) (opc : Nat) (v : Verdict) (s : State) : (finish h opc v s).cdc = s.cdc :=
  (finish_fit (L := 0x800E02) rfl (Fit.refl _ s)).2 .cdc rfl
@[simp] theorem finish_syn (h : Hdr) (opc : Nat) (v : Verdict) (s : State) : (finish h opc v s).syn = s.syn :=
  (finish_fit (L := 0x800E02) rfl (Fit.refl _ s)).2 .syn rfl
@[simp] theorem finish_cam (h : Hdr) (opc : Nat) (v : Verdict) (s : State) : (finish h opc v s).cam = s.cam :=
  (finish_fit (L := 0x800E02) rfl (Fit.refl _ s)).2 .cam rfl
@[simp] theorem finish_scn (h : Hdr) (opc : Nat) (v : Verdict) (s : State) : (finish h opc v s).scn = s.scn :=
  (finish_fit (L := 0x800E02) rfl (Fit.refl _ s)).2 .scn rfl
@[simp] theorem finish_plk (h : Hdr) (opc : Nat) (v : Verdict) (s : State) : (finish h opc v s).plk = s.plk :=
  (finish_fit (L := 0x800E02) rfl (Fit.refl _ s)).2 .plk rfl
@[simp] theorem finish_std (h : Hdr) (opc : Nat) (v : Verdict) (s : State) : (finish h opc v s).std = s.std :=
  (finish_fit (L := 0x800E02) rfl (Fit.refl _ s)).2 .std rfl
@[simp] theorem finish_dmc (h : Hdr) (opc : Nat) (v : Verdict) (s : State) : (finish h opc v s).dmc = s.dmc :=
  (finish_fit (L := 0x800E02) rfl (Fit.refl _ s)).2 .dmc rfl
@[simp] theorem finish_net (h : Hdr) (opc : Nat) (v : Verdict) (s : State) : (finish h opc v s).net = s.net :=
  (finish_fit (L := 0x800E02) rfl (Fit.refl _ s)).2 .net rfl
@[simp] theorem finish_nv (h : Hdr) (opc : Nat) (v : Verdict) (s : State) : (finish h opc v s).nv = s.nv :=
  (finish_fit (L := 0x800E02) rfl (Fit.refl _ s)).2 .nv rfl
@[simp] theorem finish_cal (h : Hdr) (opc : Nat) (v : Verdict) (s : State) : (finish h opc v s).cal = s.cal :=
  (finish_fit (L := 0x800E02) rfl (Fit.refl _ s)).2 .cal rfl
@[simp] theorem finish_bst (h : Hdr) (opc : Nat) (v : Verdict) (s : State) : (finish h opc v s).bst = s.bst :=
  (finish_fit (L := 0x800E02) rfl (Fit.refl _ s)).2 .bst rfl
@[simp] theorem finish_sec (h : Hdr) (opc : Nat) (v : Verdict) (s : State) : (finish h opc v s).sec = s.sec :=
  (finish_fit (L := 0x800E02) rfl (Fit.refl _ s)).2 .sec rfl
@[simp] theorem finish_hwd (h : Hdr) (opc : Nat) (v : Verdict) (s : State) : (finish h opc v s).hwd = s.hwd :=
  (finish_fit (L := 0x800E02) rfl (Fit.refl _ s)).2 .hwd rfl

@[simp] theorem accepted_pending (h : Hdr) (opc w0 : Nat) (s : State) : (accepted h opc w0 s).pending = s.pending :=
  (accepted_fit (L := 0x800E02) rfl (Fit.refl _ s)).2 .pending rfl
@[simp] theorem accepted_free (h : Hdr) (opc w0 : Nat) (s : State) : (accepted h opc w0 s).free = s.free :=
  (accepted_fit (L := 0x800E02) rfl (Fit.refl _ s)).2 .free rfl
@[simp] theorem accepted_par (h : Hdr) (opc w0 : Nat) (s : State) : (accepted h opc w0 s).par = s.par :=
  (accepted_fit (L := 0x800E02) rfl (Fit.refl _ s)).2 .par rfl
@[simp] theorem accepted_parPend (h : Hdr) (opc w0 : Nat) (s : State) : (accepted h opc w0 s).parPend = s.parPend :=
  (accepted_fit (L := 0x800E02) rfl (Fit.refl _ s)).2 .parPend rfl
@[simp] theorem accepted_time (h : Hdr) (opc w0 : Nat) (s : State) : (accepted h opc w0 s).time = s.time :=
  (accepted_fit (L := 0x800E02) rfl (Fit.refl _ s)).2 .time rfl
@[simp] theorem accepted_mode (h : Hdr) (opc w0 : Nat) (s : State) : (accepted h opc w0 s).mode = s.mode :=
  (accepted_fit (L := 0x800E02) rfl (Fit.refl _ s)).2 .mode rfl
@[simp] theorem accepted_pwr (h : Hdr) (opc w0 : Nat) (s : State) : (accepted h opc w0 s).pwr = s.pwr :=
  (accepted_fit (L := 0x800E02) rfl (Fit.refl _ s)).2 .pwr rfl
@[simp] theorem accepted_thm (h : Hdr) (opc w0 : Nat) (s : State) : (accepted h opc w0 s).thm = s.thm :=
  (accepted_fit (L := 0x800E02) rfl (Fit.refl _ s)).2 .thm rfl
@[simp] theorem accepted_mem (h : Hdr) (opc w0 : Nat) (s : State) : (accepted h opc w0 s).mem = s.mem :=
  (accepted_fit (L := 0x800E02) rfl (Fit.refl _ s)).2 .mem rfl
@[simp] theorem accepted_pnl (h : Hdr) (opc w0 : Nat) (s : State) : (accepted h opc w0 s).pnl = s.pnl :=
  (accepted_fit (L := 0x800E02) rfl (Fit.refl _ s)).2 .pnl rfl
@[simp] theorem accepted_scene (h : Hdr) (opc w0 : Nat) (s : State) : (accepted h opc w0 s).scene = s.scene :=
  (accepted_fit (L := 0x800E02) rfl (Fit.refl _ s)).2 .scene rfl
@[simp] theorem accepted_cdc (h : Hdr) (opc w0 : Nat) (s : State) : (accepted h opc w0 s).cdc = s.cdc :=
  (accepted_fit (L := 0x800E02) rfl (Fit.refl _ s)).2 .cdc rfl
@[simp] theorem accepted_syn (h : Hdr) (opc w0 : Nat) (s : State) : (accepted h opc w0 s).syn = s.syn :=
  (accepted_fit (L := 0x800E02) rfl (Fit.refl _ s)).2 .syn rfl
@[simp] theorem accepted_cam (h : Hdr) (opc w0 : Nat) (s : State) : (accepted h opc w0 s).cam = s.cam :=
  (accepted_fit (L := 0x800E02) rfl (Fit.refl _ s)).2 .cam rfl
@[simp] theorem accepted_scn (h : Hdr) (opc w0 : Nat) (s : State) : (accepted h opc w0 s).scn = s.scn :=
  (accepted_fit (L := 0x800E02) rfl (Fit.refl _ s)).2 .scn rfl
@[simp] theorem accepted_plk (h : Hdr) (opc w0 : Nat) (s : State) : (accepted h opc w0 s).plk = s.plk :=
  (accepted_fit (L := 0x800E02) rfl (Fit.refl _ s)).2 .plk rfl
@[simp] theorem accepted_std (h : Hdr) (opc w0 : Nat) (s : State) : (accepted h opc w0 s).std = s.std :=
  (accepted_fit (L := 0x800E02) rfl (Fit.refl _ s)).2 .std rfl
@[simp] theorem accepted_dmc (h : Hdr) (opc w0 : Nat) (s : State) : (accepted h opc w0 s).dmc = s.dmc :=
  (accepted_fit (L := 0x800E02) rfl (Fit.refl _ s)).2 .dmc rfl
@[simp] theorem accepted_net (h : Hdr) (opc w0 : Nat) (s : State) : (accepted h opc w0 s).net = s.net :=
  (accepted_fit (L := 0x800E02) rfl (Fit.refl _ s)).2 .net rfl
@[simp] theorem accepted_nv (h : Hdr) (opc w0 : Nat) (s : State) : (accepted h opc w0 s).nv = s.nv :=
  (accepted_fit (L := 0x800E02) rfl (Fit.refl _ s)).2 .nv rfl
@[simp] theorem accepted_cal (h : Hdr) (opc w0 : Nat) (s : State) : (accepted h opc w0 s).cal = s.cal :=
  (accepted_fit (L := 0x800E02) rfl (Fit.refl _ s)).2 .cal rfl
@[simp] theorem accepted_bst (h : Hdr) (opc w0 : Nat) (s : State) : (accepted h opc w0 s).bst = s.bst :=
  (accepted_fit (L := 0x800E02) rfl (Fit.refl _ s)).2 .bst rfl
@[simp] theorem accepted_sec (h : Hdr) (opc w0 : Nat) (s : State) : (accepted h opc w0 s).sec = s.sec :=
  (accepted_fit (L := 0x800E02) rfl (Fit.refl _ s)).2 .sec rfl
@[simp] theorem accepted_hwd (h : Hdr) (opc w0 : Nat) (s : State) : (accepted h opc w0 s).hwd = s.hwd :=
  (accepted_fit (L := 0x800E02) rfl (Fit.refl _ s)).2 .hwd rfl

@[simp] theorem finishAll_pending (ls : List (Hdr × Nat)) (v : Verdict) (s : State) : (finishAll ls v s).pending = s.pending :=
  (finishAll_fit (L := 0x800E02) rfl (Fit.refl _ s)).2 .pending rfl
@[simp] theorem finishAll_free (ls : List (Hdr × Nat)) (v : Verdict) (s : State) : (finishAll ls v s).free = s.free :=
  (finishAll_fit (L := 0x800E02) rfl (Fit.refl _ s)).2 .free rfl
@[simp] theorem finishAll_par (ls : List (Hdr × Nat)) (v : Verdict) (s : State) : (finishAll ls v s).par = s.par :=
  (finishAll_fit (L := 0x800E02) rfl (Fit.refl _ s)).2 .par rfl
@[simp] theorem finishAll_parPend (ls : List (Hdr × Nat)) (v : Verdict) (s : State) : (finishAll ls v s).parPend = s.parPend :=
  (finishAll_fit (L := 0x800E02) rfl (Fit.refl _ s)).2 .parPend rfl
@[simp] theorem finishAll_time (ls : List (Hdr × Nat)) (v : Verdict) (s : State) : (finishAll ls v s).time = s.time :=
  (finishAll_fit (L := 0x800E02) rfl (Fit.refl _ s)).2 .time rfl
@[simp] theorem finishAll_mode (ls : List (Hdr × Nat)) (v : Verdict) (s : State) : (finishAll ls v s).mode = s.mode :=
  (finishAll_fit (L := 0x800E02) rfl (Fit.refl _ s)).2 .mode rfl
@[simp] theorem finishAll_pwr (ls : List (Hdr × Nat)) (v : Verdict) (s : State) : (finishAll ls v s).pwr = s.pwr :=
  (finishAll_fit (L := 0x800E02) rfl (Fit.refl _ s)).2 .pwr rfl
@[simp] theorem finishAll_thm (ls : List (Hdr × Nat)) (v : Verdict) (s : State) : (finishAll ls v s).thm = s.thm :=
  (finishAll_fit (L := 0x800E02) rfl (Fit.refl _ s)).2 .thm rfl
@[simp] theorem finishAll_mem (ls : List (Hdr × Nat)) (v : Verdict) (s : State) : (finishAll ls v s).mem = s.mem :=
  (finishAll_fit (L := 0x800E02) rfl (Fit.refl _ s)).2 .mem rfl
@[simp] theorem finishAll_pnl (ls : List (Hdr × Nat)) (v : Verdict) (s : State) : (finishAll ls v s).pnl = s.pnl :=
  (finishAll_fit (L := 0x800E02) rfl (Fit.refl _ s)).2 .pnl rfl
@[simp] theorem finishAll_scene (ls : List (Hdr × Nat)) (v : Verdict) (s : State) : (finishAll ls v s).scene = s.scene :=
  (finishAll_fit (L := 0x800E02) rfl (Fit.refl _ s)).2 .scene rfl
@[simp] theorem finishAll_cdc (ls : List (Hdr × Nat)) (v : Verdict) (s : State) : (finishAll ls v s).cdc = s.cdc :=
  (finishAll_fit (L := 0x800E02) rfl (Fit.refl _ s)).2 .cdc rfl
@[simp] theorem finishAll_syn (ls : List (Hdr × Nat)) (v : Verdict) (s : State) : (finishAll ls v s).syn = s.syn :=
  (finishAll_fit (L := 0x800E02) rfl (Fit.refl _ s)).2 .syn rfl
@[simp] theorem finishAll_cam (ls : List (Hdr × Nat)) (v : Verdict) (s : State) : (finishAll ls v s).cam = s.cam :=
  (finishAll_fit (L := 0x800E02) rfl (Fit.refl _ s)).2 .cam rfl
@[simp] theorem finishAll_scn (ls : List (Hdr × Nat)) (v : Verdict) (s : State) : (finishAll ls v s).scn = s.scn :=
  (finishAll_fit (L := 0x800E02) rfl (Fit.refl _ s)).2 .scn rfl
@[simp] theorem finishAll_plk (ls : List (Hdr × Nat)) (v : Verdict) (s : State) : (finishAll ls v s).plk = s.plk :=
  (finishAll_fit (L := 0x800E02) rfl (Fit.refl _ s)).2 .plk rfl
@[simp] theorem finishAll_std (ls : List (Hdr × Nat)) (v : Verdict) (s : State) : (finishAll ls v s).std = s.std :=
  (finishAll_fit (L := 0x800E02) rfl (Fit.refl _ s)).2 .std rfl
@[simp] theorem finishAll_dmc (ls : List (Hdr × Nat)) (v : Verdict) (s : State) : (finishAll ls v s).dmc = s.dmc :=
  (finishAll_fit (L := 0x800E02) rfl (Fit.refl _ s)).2 .dmc rfl
@[simp] theorem finishAll_net (ls : List (Hdr × Nat)) (v : Verdict) (s : State) : (finishAll ls v s).net = s.net :=
  (finishAll_fit (L := 0x800E02) rfl (Fit.refl _ s)).2 .net rfl
@[simp] theorem finishAll_nv (ls : List (Hdr × Nat)) (v : Verdict) (s : State) : (finishAll ls v s).nv = s.nv :=
  (finishAll_fit (L := 0x800E02) rfl (Fit.refl _ s)).2 .nv rfl
@[simp] theorem finishAll_cal (ls : List (Hdr × Nat)) (v : Verdict) (s : State) : (finishAll ls v s).cal = s.cal :=
  (finishAll_fit (L := 0x800E02) rfl (Fit.refl _ s)).2 .cal rfl
@[simp] theorem finishAll_bst (ls : List (Hdr × Nat)) (v : Verdict) (s : State) : (finishAll ls v s).bst = s.bst :=
  (finishAll_fit (L := 0x800E02) rfl (Fit.refl _ s)).2 .bst rfl
@[simp] theorem finishAll_sec (ls : List (Hdr × Nat)) (v : Verdict) (s : State) : (finishAll ls v s).sec = s.sec :=
  (finishAll_fit (L := 0x800E02) rfl (Fit.refl _ s)).2 .sec rfl
@[simp] theorem finishAll_hwd (ls : List (Hdr × Nat)) (v : Verdict) (s : State) : (finishAll ls v s).hwd = s.hwd :=
  (finishAll_fit (L := 0x800E02) rfl (Fit.refl _ s)).2 .hwd rfl

@[simp] theorem noteT1_pending (h : Hdr) (s : State) : (noteT1 h s).pending = s.pending :=
  (noteT1_fit (L := 0x800000) rfl (Fit.refl _ s)).2 .pending rfl
@[simp] theorem noteT1_out (h : Hdr) (s : State) : (noteT1 h s).out = s.out :=
  (noteT1_fit (L := 0x800000) rfl (Fit.refl _ s)).2 .out rfl
@[simp] theorem noteT1_free (h : Hdr) (s : State) : (noteT1 h s).free = s.free :=
  (noteT1_fit (L := 0x800000) rfl (Fit.refl _ s)).2 .free rfl
@[simp] theorem noteT1_par (h : Hdr) (s : State) : (noteT1 h s).par = s.par :=
  (noteT1_fit (L := 0x800000) rfl (Fit.refl _ s)).2 .par rfl
@[simp] theorem noteT1_parPend (h : Hdr) (s : State) : (noteT1 h s).parPend = s.parPend :=
  (noteT1_fit (L := 0x800000) rfl (Fit.refl _ s)).2 .parPend rfl
@[simp] theorem noteT1_time (h : Hdr) (s : State) : (noteT1 h s).time = s.time :=
  (noteT1_fit (L := 0x800000) rfl (Fit.refl _ s)).2 .time rfl
@[simp] theorem noteT1_mode (h : Hdr) (s : State) : (noteT1 h s).mode = s.mode :=
  (noteT1_fit (L := 0x800000) rfl (Fit.refl _ s)).2 .mode rfl
@[simp] theorem noteT1_pwr (h : Hdr) (s : State) : (noteT1 h s).pwr = s.pwr :=
  (noteT1_fit (L := 0x800000) rfl (Fit.refl _ s)).2 .pwr rfl
@[simp] theorem noteT1_thm (h : Hdr) (s : State) : (noteT1 h s).thm = s.thm :=
  (noteT1_fit (L := 0x800000) rfl (Fit.refl _ s)).2 .thm rfl
@[simp] theorem noteT1_buf (h : Hdr) (s : State) : (noteT1 h s).buf = s.buf :=
  (noteT1_fit (L := 0x800000) rfl (Fit.refl _ s)).2 .buf rfl
@[simp] theorem noteT1_cmd (h : Hdr) (s : State) : (noteT1 h s).cmd = s.cmd :=
  (noteT1_fit (L := 0x800000) rfl (Fit.refl _ s)).2 .cmd rfl
@[simp] theorem noteT1_evt (h : Hdr) (s : State) : (noteT1 h s).evt = s.evt :=
  (noteT1_fit (L := 0x800000) rfl (Fit.refl _ s)).2 .evt rfl
@[simp] theorem noteT1_mem (h : Hdr) (s : State) : (noteT1 h s).mem = s.mem :=
  (noteT1_fit (L := 0x800000) rfl (Fit.refl _ s)).2 .mem rfl
@[simp] theorem noteT1_pnl (h : Hdr) (s : State) : (noteT1 h s).pnl = s.pnl :=
  (noteT1_fit (L := 0x800000) rfl (Fit.refl _ s)).2 .pnl rfl
@[simp] theorem noteT1_scene (h : Hdr) (s : State) : (noteT1 h s).scene = s.scene :=
  (noteT1_fit (L := 0x800000) rfl (Fit.refl _ s)).2 .scene rfl
@[simp] theorem noteT1_cdc (h : Hdr) (s : State) : (noteT1 h s).cdc = s.cdc :=
  (noteT1_fit (L := 0x800000) rfl (Fit.refl _ s)).2 .cdc rfl
@[simp] theorem noteT1_syn (h : Hdr) (s : State) : (noteT1 h s).syn = s.syn :=
  (noteT1_fit (L := 0x800000) rfl (Fit.refl _ s)).2 .syn rfl
@[simp] theorem noteT1_cam (h : Hdr) (s : State) : (noteT1 h s).cam = s.cam :=
  (noteT1_fit (L := 0x800000) rfl (Fit.refl _ s)).2 .cam rfl
@[simp] theorem noteT1_scn (h : Hdr) (s : State) : (noteT1 h s).scn = s.scn :=
  (noteT1_fit (L := 0x800000) rfl (Fit.refl _ s)).2 .scn rfl
@[simp] theorem noteT1_plk (h : Hdr) (s : State) : (noteT1 h s).plk = s.plk :=
  (noteT1_fit (L := 0x800000) rfl (Fit.refl _ s)).2 .plk rfl
@[simp] theorem noteT1_std (h : Hdr) (s : State) : (noteT1 h s).std = s.std :=
  (noteT1_fit (L := 0x800000) rfl (Fit.refl _ s)).2 .std rfl
@[simp] theorem noteT1_dmc (h : Hdr) (s : State) : (noteT1 h s).dmc = s.dmc :=
  (noteT1_fit (L := 0x800000) rfl (Fit.refl _ s)).2 .dmc rfl
@[simp] theorem noteT1_net (h : Hdr) (s : State) : (noteT1 h s).net = s.net :=
  (noteT1_fit (L := 0x800000) rfl (Fit.refl _ s)).2 .net rfl
@[simp] theorem noteT1_nv (h : Hdr) (s : State) : (noteT1 h s).nv = s.nv :=
  (noteT1_fit (L := 0x800000) rfl (Fit.refl _ s)).2 .nv rfl
@[simp] theorem noteT1_cal (h : Hdr) (s : State) : (noteT1 h s).cal = s.cal :=
  (noteT1_fit (L := 0x800000) rfl (Fit.refl _ s)).2 .cal rfl
@[simp] theorem noteT1_bst (h : Hdr) (s : State) : (noteT1 h s).bst = s.bst :=
  (noteT1_fit (L := 0x800000) rfl (Fit.refl _ s)).2 .bst rfl
@[simp] theorem noteT1_sec (h : Hdr) (s : State) : (noteT1 h s).sec = s.sec :=
  (noteT1_fit (L := 0x800000) rfl (Fit.refl _ s)).2 .sec rfl
@[simp] theorem noteT1_hwd (h : Hdr) (s : State) : (noteT1 h s).hwd = s.hwd :=
  (noteT1_fit (L := 0x800000) rfl (Fit.refl _ s)).2 .hwd rfl

@[simp] theorem admitLive_pending (r : Row) (t : Nat) (s : State) : (admitLive r t s).pending = s.pending :=
  (admitLive_fit (L := 0x800400) rfl (Fit.refl _ s)).2 .pending rfl
@[simp] theorem admitLive_out (r : Row) (t : Nat) (s : State) : (admitLive r t s).out = s.out :=
  (admitLive_fit (L := 0x800400) rfl (Fit.refl _ s)).2 .out rfl
@[simp] theorem admitLive_free (r : Row) (t : Nat) (s : State) : (admitLive r t s).free = s.free :=
  (admitLive_fit (L := 0x800400) rfl (Fit.refl _ s)).2 .free rfl
@[simp] theorem admitLive_par (r : Row) (t : Nat) (s : State) : (admitLive r t s).par = s.par :=
  (admitLive_fit (L := 0x800400) rfl (Fit.refl _ s)).2 .par rfl
@[simp] theorem admitLive_parPend (r : Row) (t : Nat) (s : State) : (admitLive r t s).parPend = s.parPend :=
  (admitLive_fit (L := 0x800400) rfl (Fit.refl _ s)).2 .parPend rfl
@[simp] theorem admitLive_time (r : Row) (t : Nat) (s : State) : (admitLive r t s).time = s.time :=
  (admitLive_fit (L := 0x800400) rfl (Fit.refl _ s)).2 .time rfl
@[simp] theorem admitLive_mode (r : Row) (t : Nat) (s : State) : (admitLive r t s).mode = s.mode :=
  (admitLive_fit (L := 0x800400) rfl (Fit.refl _ s)).2 .mode rfl
@[simp] theorem admitLive_pwr (r : Row) (t : Nat) (s : State) : (admitLive r t s).pwr = s.pwr :=
  (admitLive_fit (L := 0x800400) rfl (Fit.refl _ s)).2 .pwr rfl
@[simp] theorem admitLive_thm (r : Row) (t : Nat) (s : State) : (admitLive r t s).thm = s.thm :=
  (admitLive_fit (L := 0x800400) rfl (Fit.refl _ s)).2 .thm rfl
@[simp] theorem admitLive_buf (r : Row) (t : Nat) (s : State) : (admitLive r t s).buf = s.buf :=
  (admitLive_fit (L := 0x800400) rfl (Fit.refl _ s)).2 .buf rfl
@[simp] theorem admitLive_evt (r : Row) (t : Nat) (s : State) : (admitLive r t s).evt = s.evt :=
  (admitLive_fit (L := 0x800400) rfl (Fit.refl _ s)).2 .evt rfl
@[simp] theorem admitLive_mem (r : Row) (t : Nat) (s : State) : (admitLive r t s).mem = s.mem :=
  (admitLive_fit (L := 0x800400) rfl (Fit.refl _ s)).2 .mem rfl
@[simp] theorem admitLive_pnl (r : Row) (t : Nat) (s : State) : (admitLive r t s).pnl = s.pnl :=
  (admitLive_fit (L := 0x800400) rfl (Fit.refl _ s)).2 .pnl rfl
@[simp] theorem admitLive_scene (r : Row) (t : Nat) (s : State) : (admitLive r t s).scene = s.scene :=
  (admitLive_fit (L := 0x800400) rfl (Fit.refl _ s)).2 .scene rfl
@[simp] theorem admitLive_cdc (r : Row) (t : Nat) (s : State) : (admitLive r t s).cdc = s.cdc :=
  (admitLive_fit (L := 0x800400) rfl (Fit.refl _ s)).2 .cdc rfl
@[simp] theorem admitLive_syn (r : Row) (t : Nat) (s : State) : (admitLive r t s).syn = s.syn :=
  (admitLive_fit (L := 0x800400) rfl (Fit.refl _ s)).2 .syn rfl
@[simp] theorem admitLive_cam (r : Row) (t : Nat) (s : State) : (admitLive r t s).cam = s.cam :=
  (admitLive_fit (L := 0x800400) rfl (Fit.refl _ s)).2 .cam rfl
@[simp] theorem admitLive_scn (r : Row) (t : Nat) (s : State) : (admitLive r t s).scn = s.scn :=
  (admitLive_fit (L := 0x800400) rfl (Fit.refl _ s)).2 .scn rfl
@[simp] theorem admitLive_plk (r : Row) (t : Nat) (s : State) : (admitLive r t s).plk = s.plk :=
  (admitLive_fit (L := 0x800400) rfl (Fit.refl _ s)).2 .plk rfl
@[simp] theorem admitLive_std (r : Row) (t : Nat) (s : State) : (admitLive r t s).std = s.std :=
  (admitLive_fit (L := 0x800400) rfl (Fit.refl _ s)).2 .std rfl
@[simp] theorem admitLive_dmc (r : Row) (t : Nat) (s : State) : (admitLive r t s).dmc = s.dmc :=
  (admitLive_fit (L := 0x800400) rfl (Fit.refl _ s)).2 .dmc rfl
@[simp] theorem admitLive_net (r : Row) (t : Nat) (s : State) : (admitLive r t s).net = s.net :=
  (admitLive_fit (L := 0x800400) rfl (Fit.refl _ s)).2 .net rfl
@[simp] theorem admitLive_nv (r : Row) (t : Nat) (s : State) : (admitLive r t s).nv = s.nv :=
  (admitLive_fit (L := 0x800400) rfl (Fit.refl _ s)).2 .nv rfl
@[simp] theorem admitLive_cal (r : Row) (t : Nat) (s : State) : (admitLive r t s).cal = s.cal :=
  (admitLive_fit (L := 0x800400) rfl (Fit.refl _ s)).2 .cal rfl
@[simp] theorem admitLive_bst (r : Row) (t : Nat) (s : State) : (admitLive r t s).bst = s.bst :=
  (admitLive_fit (L := 0x800400) rfl (Fit.refl _ s)).2 .bst rfl
@[simp] theorem admitLive_sec (r : Row) (t : Nat) (s : State) : (admitLive r t s).sec = s.sec :=
  (admitLive_fit (L := 0x800400) rfl (Fit.refl _ s)).2 .sec rfl
@[simp] theorem admitLive_hwd (r : Row) (t : Nat) (s : State) : (admitLive r t s).hwd = s.hwd :=
  (admitLive_fit (L := 0x800400) rfl (Fit.refl _ s)).2 .hwd rfl

@[simp] theorem noteTaken_pending (h : Hdr) (s : State) : (noteTaken h s).pending = s.pending :=
  (noteTaken_fit (L := 0x400) rfl (Fit.refl _ s)).2 .pending rfl
@[simp] theorem noteTaken_out (h : Hdr) (s : State) : (noteTaken h s).out = s.out :=
  (noteTaken_fit (L := 0x400) rfl (Fit.refl _ s)).2 .out rfl
@[simp] theorem noteTaken_free (h : Hdr) (s : State) : (noteTaken h s).free = s.free :=
  (noteTaken_fit (L := 0x400) rfl (Fit.refl _ s)).2 .free rfl
@[simp] theorem noteTaken_par (h : Hdr) (s : State) : (noteTaken h s).par = s.par :=
  (noteTaken_fit (L := 0x400) rfl (Fit.refl _ s)).2 .par rfl
@[simp] theorem noteTaken_parPend (h : Hdr) (s : State) : (noteTaken h s).parPend = s.parPend :=
  (noteTaken_fit (L := 0x400) rfl (Fit.refl _ s)).2 .parPend rfl
@[simp] theorem noteTaken_time (h : Hdr) (s : State) : (noteTaken h s).time = s.time :=
  (noteTaken_fit (L := 0x400) rfl (Fit.refl _ s)).2 .time rfl
@[simp] theorem noteTaken_mode (h : Hdr) (s : State) : (noteTaken h s).mode = s.mode :=
  (noteTaken_fit (L := 0x400) rfl (Fit.refl _ s)).2 .mode rfl
@[simp] theorem noteTaken_pwr (h : Hdr) (s : State) : (noteTaken h s).pwr = s.pwr :=
  (noteTaken_fit (L := 0x400) rfl (Fit.refl _ s)).2 .pwr rfl
@[simp] theorem noteTaken_thm (h : Hdr) (s : State) : (noteTaken h s).thm = s.thm :=
  (noteTaken_fit (L := 0x400) rfl (Fit.refl _ s)).2 .thm rfl
@[simp] theorem noteTaken_buf (h : Hdr) (s : State) : (noteTaken h s).buf = s.buf :=
  (noteTaken_fit (L := 0x400) rfl (Fit.refl _ s)).2 .buf rfl
@[simp] theorem noteTaken_evt (h : Hdr) (s : State) : (noteTaken h s).evt = s.evt :=
  (noteTaken_fit (L := 0x400) rfl (Fit.refl _ s)).2 .evt rfl
@[simp] theorem noteTaken_mem (h : Hdr) (s : State) : (noteTaken h s).mem = s.mem :=
  (noteTaken_fit (L := 0x400) rfl (Fit.refl _ s)).2 .mem rfl
@[simp] theorem noteTaken_pnl (h : Hdr) (s : State) : (noteTaken h s).pnl = s.pnl :=
  (noteTaken_fit (L := 0x400) rfl (Fit.refl _ s)).2 .pnl rfl
@[simp] theorem noteTaken_scene (h : Hdr) (s : State) : (noteTaken h s).scene = s.scene :=
  (noteTaken_fit (L := 0x400) rfl (Fit.refl _ s)).2 .scene rfl
@[simp] theorem noteTaken_cdc (h : Hdr) (s : State) : (noteTaken h s).cdc = s.cdc :=
  (noteTaken_fit (L := 0x400) rfl (Fit.refl _ s)).2 .cdc rfl
@[simp] theorem noteTaken_syn (h : Hdr) (s : State) : (noteTaken h s).syn = s.syn :=
  (noteTaken_fit (L := 0x400) rfl (Fit.refl _ s)).2 .syn rfl
@[simp] theorem noteTaken_cam (h : Hdr) (s : State) : (noteTaken h s).cam = s.cam :=
  (noteTaken_fit (L := 0x400) rfl (Fit.refl _ s)).2 .cam rfl
@[simp] theorem noteTaken_scn (h : Hdr) (s : State) : (noteTaken h s).scn = s.scn :=
  (noteTaken_fit (L := 0x400) rfl (Fit.refl _ s)).2 .scn rfl
@[simp] theorem noteTaken_plk (h : Hdr) (s : State) : (noteTaken h s).plk = s.plk :=
  (noteTaken_fit (L := 0x400) rfl (Fit.refl _ s)).2 .plk rfl
@[simp] theorem noteTaken_std (h : Hdr) (s : State) : (noteTaken h s).std = s.std :=
  (noteTaken_fit (L := 0x400) rfl (Fit.refl _ s)).2 .std rfl
@[simp] theorem noteTaken_dmc (h : Hdr) (s : State) : (noteTaken h s).dmc = s.dmc :=
  (noteTaken_fit (L := 0x400) rfl (Fit.refl _ s)).2 .dmc rfl
@[simp] theorem noteTaken_net (h : Hdr) (s : State) : (noteTaken h s).net = s.net :=
  (noteTaken_fit (L := 0x400) rfl (Fit.refl _ s)).2 .net rfl
@[simp] theorem noteTaken_sbd (h : Hdr) (s : State) : (noteTaken h s).sbd = s.sbd :=
  (noteTaken_fit (L := 0x400) rfl (Fit.refl _ s)).2 .sbd rfl
@[simp] theorem noteTaken_nv (h : Hdr) (s : State) : (noteTaken h s).nv = s.nv :=
  (noteTaken_fit (L := 0x400) rfl (Fit.refl _ s)).2 .nv rfl
@[simp] theorem noteTaken_cal (h : Hdr) (s : State) : (noteTaken h s).cal = s.cal :=
  (noteTaken_fit (L := 0x400) rfl (Fit.refl _ s)).2 .cal rfl
@[simp] theorem noteTaken_bst (h : Hdr) (s : State) : (noteTaken h s).bst = s.bst :=
  (noteTaken_fit (L := 0x400) rfl (Fit.refl _ s)).2 .bst rfl
@[simp] theorem noteTaken_sec (h : Hdr) (s : State) : (noteTaken h s).sec = s.sec :=
  (noteTaken_fit (L := 0x400) rfl (Fit.refl _ s)).2 .sec rfl
@[simp] theorem noteTaken_hwd (h : Hdr) (s : State) : (noteTaken h s).hwd = s.hwd :=
  (noteTaken_fit (L := 0x400) rfl (Fit.refl _ s)).2 .hwd rfl

@[simp] theorem pushWait_pending (w : Wait) (s : State) : (pushWait w s).pending = s.pending :=
  (pushWait_fit (L := 0x400) rfl (Fit.refl _ s)).2 .pending rfl
@[simp] theorem pushWait_out (w : Wait) (s : State) : (pushWait w s).out = s.out :=
  (pushWait_fit (L := 0x400) rfl (Fit.refl _ s)).2 .out rfl
@[simp] theorem pushWait_free (w : Wait) (s : State) : (pushWait w s).free = s.free :=
  (pushWait_fit (L := 0x400) rfl (Fit.refl _ s)).2 .free rfl
@[simp] theorem pushWait_par (w : Wait) (s : State) : (pushWait w s).par = s.par :=
  (pushWait_fit (L := 0x400) rfl (Fit.refl _ s)).2 .par rfl
@[simp] theorem pushWait_parPend (w : Wait) (s : State) : (pushWait w s).parPend = s.parPend :=
  (pushWait_fit (L := 0x400) rfl (Fit.refl _ s)).2 .parPend rfl
@[simp] theorem pushWait_time (w : Wait) (s : State) : (pushWait w s).time = s.time :=
  (pushWait_fit (L := 0x400) rfl (Fit.refl _ s)).2 .time rfl
@[simp] theorem pushWait_mode (w : Wait) (s : State) : (pushWait w s).mode = s.mode :=
  (pushWait_fit (L := 0x400) rfl (Fit.refl _ s)).2 .mode rfl
@[simp] theorem pushWait_pwr (w : Wait) (s : State) : (pushWait w s).pwr = s.pwr :=
  (pushWait_fit (L := 0x400) rfl (Fit.refl _ s)).2 .pwr rfl
@[simp] theorem pushWait_thm (w : Wait) (s : State) : (pushWait w s).thm = s.thm :=
  (pushWait_fit (L := 0x400) rfl (Fit.refl _ s)).2 .thm rfl
@[simp] theorem pushWait_buf (w : Wait) (s : State) : (pushWait w s).buf = s.buf :=
  (pushWait_fit (L := 0x400) rfl (Fit.refl _ s)).2 .buf rfl
@[simp] theorem pushWait_evt (w : Wait) (s : State) : (pushWait w s).evt = s.evt :=
  (pushWait_fit (L := 0x400) rfl (Fit.refl _ s)).2 .evt rfl
@[simp] theorem pushWait_mem (w : Wait) (s : State) : (pushWait w s).mem = s.mem :=
  (pushWait_fit (L := 0x400) rfl (Fit.refl _ s)).2 .mem rfl
@[simp] theorem pushWait_pnl (w : Wait) (s : State) : (pushWait w s).pnl = s.pnl :=
  (pushWait_fit (L := 0x400) rfl (Fit.refl _ s)).2 .pnl rfl
@[simp] theorem pushWait_scene (w : Wait) (s : State) : (pushWait w s).scene = s.scene :=
  (pushWait_fit (L := 0x400) rfl (Fit.refl _ s)).2 .scene rfl
@[simp] theorem pushWait_cdc (w : Wait) (s : State) : (pushWait w s).cdc = s.cdc :=
  (pushWait_fit (L := 0x400) rfl (Fit.refl _ s)).2 .cdc rfl
@[simp] theorem pushWait_syn (w : Wait) (s : State) : (pushWait w s).syn = s.syn :=
  (pushWait_fit (L := 0x400) rfl (Fit.refl _ s)).2 .syn rfl
@[simp] theorem pushWait_cam (w : Wait) (s : State) : (pushWait w s).cam = s.cam :=
  (pushWait_fit (L := 0x400) rfl (Fit.refl _ s)).2 .cam rfl
@[simp] theorem pushWait_scn (w : Wait) (s : State) : (pushWait w s).scn = s.scn :=
  (pushWait_fit (L := 0x400) rfl (Fit.refl _ s)).2 .scn rfl
@[simp] theorem pushWait_plk (w : Wait) (s : State) : (pushWait w s).plk = s.plk :=
  (pushWait_fit (L := 0x400) rfl (Fit.refl _ s)).2 .plk rfl
@[simp] theorem pushWait_std (w : Wait) (s : State) : (pushWait w s).std = s.std :=
  (pushWait_fit (L := 0x400) rfl (Fit.refl _ s)).2 .std rfl
@[simp] theorem pushWait_dmc (w : Wait) (s : State) : (pushWait w s).dmc = s.dmc :=
  (pushWait_fit (L := 0x400) rfl (Fit.refl _ s)).2 .dmc rfl
@[simp] theorem pushWait_net (w : Wait) (s : State) : (pushWait w s).net = s.net :=
  (pushWait_fit (L := 0x400) rfl (Fit.refl _ s)).2 .net rfl
@[simp] theorem pushWait_sbd (w : Wait) (s : State) : (pushWait w s).sbd = s.sbd :=
  (pushWait_fit (L := 0x400) rfl (Fit.refl _ s)).2 .sbd rfl
@[simp] theorem pushWait_nv (w : Wait) (s : State) : (pushWait w s).nv = s.nv :=
  (pushWait_fit (L := 0x400) rfl (Fit.refl _ s)).2 .nv rfl
@[simp] theorem pushWait_cal (w : Wait) (s : State) : (pushWait w s).cal = s.cal :=
  (pushWait_fit (L := 0x400) rfl (Fit.refl _ s)).2 .cal rfl
@[simp] theorem pushWait_bst (w : Wait) (s : State) : (pushWait w s).bst = s.bst :=
  (pushWait_fit (L := 0x400) rfl (Fit.refl _ s)).2 .bst rfl
@[simp] theorem pushWait_sec (w : Wait) (s : State) : (pushWait w s).sec = s.sec :=
  (pushWait_fit (L := 0x400) rfl (Fit.refl _ s)).2 .sec rfl
@[simp] theorem pushWait_hwd (w : Wait) (s : State) : (pushWait w s).hwd = s.hwd :=
  (pushWait_fit (L := 0x400) rfl (Fit.refl _ s)).2 .hwd rfl

@[simp] theorem readEntry_pending (r : Nat) (s : State) : (readEntry r s).pending = s.pending :=
  (readEntry_fit (L := 0x600) rfl (Fit.refl _ s)).2 .pending rfl
@[simp] theorem readEntry_out (r : Nat) (s : State) : (readEntry r s).out = s.out :=
  (readEntry_fit (L := 0x600) rfl (Fit.refl _ s)).2 .out rfl
@[simp] theorem readEntry_free (r : Nat) (s : State) : (readEntry r s).free = s.free :=
  (readEntry_fit (L := 0x600) rfl (Fit.refl _ s)).2 .free rfl
@[simp] theorem readEntry_par (r : Nat) (s : State) : (readEntry r s).par = s.par :=
  (readEntry_fit (L := 0x600) rfl (Fit.refl _ s)).2 .par rfl
@[simp] theorem readEntry_parPend (r : Nat) (s : State) : (readEntry r s).parPend = s.parPend :=
  (readEntry_fit (L := 0x600) rfl (Fit.refl _ s)).2 .parPend rfl
@[simp] theorem readEntry_time (r : Nat) (s : State) : (readEntry r s).time = s.time :=
  (readEntry_fit (L := 0x600) rfl (Fit.refl _ s)).2 .time rfl
@[simp] theorem readEntry_mode (r : Nat) (s : State) : (readEntry r s).mode = s.mode :=
  (readEntry_fit (L := 0x600) rfl (Fit.refl _ s)).2 .mode rfl
@[simp] theorem readEntry_pwr (r : Nat) (s : State) : (readEntry r s).pwr = s.pwr :=
  (readEntry_fit (L := 0x600) rfl (Fit.refl _ s)).2 .pwr rfl
@[simp] theorem readEntry_thm (r : Nat) (s : State) : (readEntry r s).thm = s.thm :=
  (readEntry_fit (L := 0x600) rfl (Fit.refl _ s)).2 .thm rfl
@[simp] theorem readEntry_evt (r : Nat) (s : State) : (readEntry r s).evt = s.evt :=
  (readEntry_fit (L := 0x600) rfl (Fit.refl _ s)).2 .evt rfl
@[simp] theorem readEntry_mem (r : Nat) (s : State) : (readEntry r s).mem = s.mem :=
  (readEntry_fit (L := 0x600) rfl (Fit.refl _ s)).2 .mem rfl
@[simp] theorem readEntry_pnl (r : Nat) (s : State) : (readEntry r s).pnl = s.pnl :=
  (readEntry_fit (L := 0x600) rfl (Fit.refl _ s)).2 .pnl rfl
@[simp] theorem readEntry_scene (r : Nat) (s : State) : (readEntry r s).scene = s.scene :=
  (readEntry_fit (L := 0x600) rfl (Fit.refl _ s)).2 .scene rfl
@[simp] theorem readEntry_cdc (r : Nat) (s : State) : (readEntry r s).cdc = s.cdc :=
  (readEntry_fit (L := 0x600) rfl (Fit.refl _ s)).2 .cdc rfl
@[simp] theorem readEntry_syn (r : Nat) (s : State) : (readEntry r s).syn = s.syn :=
  (readEntry_fit (L := 0x600) rfl (Fit.refl _ s)).2 .syn rfl
@[simp] theorem readEntry_cam (r : Nat) (s : State) : (readEntry r s).cam = s.cam :=
  (readEntry_fit (L := 0x600) rfl (Fit.refl _ s)).2 .cam rfl
@[simp] theorem readEntry_scn (r : Nat) (s : State) : (readEntry r s).scn = s.scn :=
  (readEntry_fit (L := 0x600) rfl (Fit.refl _ s)).2 .scn rfl
@[simp] theorem readEntry_plk (r : Nat) (s : State) : (readEntry r s).plk = s.plk :=
  (readEntry_fit (L := 0x600) rfl (Fit.refl _ s)).2 .plk rfl
@[simp] theorem readEntry_std (r : Nat) (s : State) : (readEntry r s).std = s.std :=
  (readEntry_fit (L := 0x600) rfl (Fit.refl _ s)).2 .std rfl
@[simp] theorem readEntry_dmc (r : Nat) (s : State) : (readEntry r s).dmc = s.dmc :=
  (readEntry_fit (L := 0x600) rfl (Fit.refl _ s)).2 .dmc rfl
@[simp] theorem readEntry_net (r : Nat) (s : State) : (readEntry r s).net = s.net :=
  (readEntry_fit (L := 0x600) rfl (Fit.refl _ s)).2 .net rfl
@[simp] theorem readEntry_sbd (r : Nat) (s : State) : (readEntry r s).sbd = s.sbd :=
  (readEntry_fit (L := 0x600) rfl (Fit.refl _ s)).2 .sbd rfl
@[simp] theorem readEntry_nv (r : Nat) (s : State) : (readEntry r s).nv = s.nv :=
  (readEntry_fit (L := 0x600) rfl (Fit.refl _ s)).2 .nv rfl
@[simp] theorem readEntry_cal (r : Nat) (s : State) : (readEntry r s).cal = s.cal :=
  (readEntry_fit (L := 0x600) rfl (Fit.refl _ s)).2 .cal rfl
@[simp] theorem readEntry_bst (r : Nat) (s : State) : (readEntry r s).bst = s.bst :=
  (readEntry_fit (L := 0x600) rfl (Fit.refl _ s)).2 .bst rfl
@[simp] theorem readEntry_sec (r : Nat) (s : State) : (readEntry r s).sec = s.sec :=
  (readEntry_fit (L := 0x600) rfl (Fit.refl _ s)).2 .sec rfl
@[simp] theorem readEntry_hwd (r : Nat) (s : State) : (readEntry r s).hwd = s.hwd :=
  (readEntry_fit (L := 0x600) rfl (Fit.refl _ s)).2 .hwd rfl

@[simp] theorem nvOwn_pending (part type key : Nat) (pay : List Byte) (s : State) : (nvOwn part type key pay s).pending = s.pending :=
  (nvOwn_fit (L := 0x1800C02) rfl (Fit.refl _ s)).2 .pending rfl
@[simp] theorem nvOwn_free (part type key : Nat) (pay : List Byte) (s : State) : (nvOwn part type key pay s).free = s.free :=
  (nvOwn_fit (L := 0x1800C02) rfl (Fit.refl _ s)).2 .free rfl
@[simp] theorem nvOwn_par (part type key : Nat) (pay : List Byte) (s : State) : (nvOwn part type key pay s).par = s.par :=
  (nvOwn_fit (L := 0x1800C02) rfl (Fit.refl _ s)).2 .par rfl
@[simp] theorem nvOwn_parPend (part type key : Nat) (pay : List Byte) (s : State) : (nvOwn part type key pay s).parPend = s.parPend :=
  (nvOwn_fit (L := 0x1800C02) rfl (Fit.refl _ s)).2 .parPend rfl
@[simp] theorem nvOwn_time (part type key : Nat) (pay : List Byte) (s : State) : (nvOwn part type key pay s).time = s.time :=
  (nvOwn_fit (L := 0x1800C02) rfl (Fit.refl _ s)).2 .time rfl
@[simp] theorem nvOwn_mode (part type key : Nat) (pay : List Byte) (s : State) : (nvOwn part type key pay s).mode = s.mode :=
  (nvOwn_fit (L := 0x1800C02) rfl (Fit.refl _ s)).2 .mode rfl
@[simp] theorem nvOwn_pwr (part type key : Nat) (pay : List Byte) (s : State) : (nvOwn part type key pay s).pwr = s.pwr :=
  (nvOwn_fit (L := 0x1800C02) rfl (Fit.refl _ s)).2 .pwr rfl
@[simp] theorem nvOwn_thm (part type key : Nat) (pay : List Byte) (s : State) : (nvOwn part type key pay s).thm = s.thm :=
  (nvOwn_fit (L := 0x1800C02) rfl (Fit.refl _ s)).2 .thm rfl
@[simp] theorem nvOwn_buf (part type key : Nat) (pay : List Byte) (s : State) : (nvOwn part type key pay s).buf = s.buf :=
  (nvOwn_fit (L := 0x1800C02) rfl (Fit.refl _ s)).2 .buf rfl
@[simp] theorem nvOwn_mem (part type key : Nat) (pay : List Byte) (s : State) : (nvOwn part type key pay s).mem = s.mem :=
  (nvOwn_fit (L := 0x1800C02) rfl (Fit.refl _ s)).2 .mem rfl
@[simp] theorem nvOwn_pnl (part type key : Nat) (pay : List Byte) (s : State) : (nvOwn part type key pay s).pnl = s.pnl :=
  (nvOwn_fit (L := 0x1800C02) rfl (Fit.refl _ s)).2 .pnl rfl
@[simp] theorem nvOwn_scene (part type key : Nat) (pay : List Byte) (s : State) : (nvOwn part type key pay s).scene = s.scene :=
  (nvOwn_fit (L := 0x1800C02) rfl (Fit.refl _ s)).2 .scene rfl
@[simp] theorem nvOwn_cdc (part type key : Nat) (pay : List Byte) (s : State) : (nvOwn part type key pay s).cdc = s.cdc :=
  (nvOwn_fit (L := 0x1800C02) rfl (Fit.refl _ s)).2 .cdc rfl
@[simp] theorem nvOwn_syn (part type key : Nat) (pay : List Byte) (s : State) : (nvOwn part type key pay s).syn = s.syn :=
  (nvOwn_fit (L := 0x1800C02) rfl (Fit.refl _ s)).2 .syn rfl
@[simp] theorem nvOwn_cam (part type key : Nat) (pay : List Byte) (s : State) : (nvOwn part type key pay s).cam = s.cam :=
  (nvOwn_fit (L := 0x1800C02) rfl (Fit.refl _ s)).2 .cam rfl
@[simp] theorem nvOwn_scn (part type key : Nat) (pay : List Byte) (s : State) : (nvOwn part type key pay s).scn = s.scn :=
  (nvOwn_fit (L := 0x1800C02) rfl (Fit.refl _ s)).2 .scn rfl
@[simp] theorem nvOwn_plk (part type key : Nat) (pay : List Byte) (s : State) : (nvOwn part type key pay s).plk = s.plk :=
  (nvOwn_fit (L := 0x1800C02) rfl (Fit.refl _ s)).2 .plk rfl
@[simp] theorem nvOwn_std (part type key : Nat) (pay : List Byte) (s : State) : (nvOwn part type key pay s).std = s.std :=
  (nvOwn_fit (L := 0x1800C02) rfl (Fit.refl _ s)).2 .std rfl
@[simp] theorem nvOwn_dmc (part type key : Nat) (pay : List Byte) (s : State) : (nvOwn part type key pay s).dmc = s.dmc :=
  (nvOwn_fit (L := 0x1800C02) rfl (Fit.refl _ s)).2 .dmc rfl
@[simp] theorem nvOwn_net (part type key : Nat) (pay : List Byte) (s : State) : (nvOwn part type key pay s).net = s.net :=
  (nvOwn_fit (L := 0x1800C02) rfl (Fit.refl _ s)).2 .net rfl
@[simp] theorem nvOwn_cal (part type key : Nat) (pay : List Byte) (s : State) : (nvOwn part type key pay s).cal = s.cal :=
  (nvOwn_fit (L := 0x1800C02) rfl (Fit.refl _ s)).2 .cal rfl
@[simp] theorem nvOwn_bst (part type key : Nat) (pay : List Byte) (s : State) : (nvOwn part type key pay s).bst = s.bst :=
  (nvOwn_fit (L := 0x1800C02) rfl (Fit.refl _ s)).2 .bst rfl
@[simp] theorem nvOwn_sec (part type key : Nat) (pay : List Byte) (s : State) : (nvOwn part type key pay s).sec = s.sec :=
  (nvOwn_fit (L := 0x1800C02) rfl (Fit.refl _ s)).2 .sec rfl
@[simp] theorem nvOwn_hwd (part type key : Nat) (pay : List Byte) (s : State) : (nvOwn part type key pay s).hwd = s.hwd :=
  (nvOwn_fit (L := 0x1800C02) rfl (Fit.refl _ s)).2 .hwd rfl

@[simp] theorem counterSet_pending (key v : Nat) (s : State) : (counterSet key v s).pending = s.pending :=
  (counterSet_fit (L := 0x1800C02) rfl (Fit.refl _ s)).2 .pending rfl
@[simp] theorem counterSet_free (key v : Nat) (s : State) : (counterSet key v s).free = s.free :=
  (counterSet_fit (L := 0x1800C02) rfl (Fit.refl _ s)).2 .free rfl
@[simp] theorem counterSet_par (key v : Nat) (s : State) : (counterSet key v s).par = s.par :=
  (counterSet_fit (L := 0x1800C02) rfl (Fit.refl _ s)).2 .par rfl
@[simp] theorem counterSet_parPend (key v : Nat) (s : State) : (counterSet key v s).parPend = s.parPend :=
  (counterSet_fit (L := 0x1800C02) rfl (Fit.refl _ s)).2 .parPend rfl
@[simp] theorem counterSet_time (key v : Nat) (s : State) : (counterSet key v s).time = s.time :=
  (counterSet_fit (L := 0x1800C02) rfl (Fit.refl _ s)).2 .time rfl
@[simp] theorem counterSet_mode (key v : Nat) (s : State) : (counterSet key v s).mode = s.mode :=
  (counterSet_fit (L := 0x1800C02) rfl (Fit.refl _ s)).2 .mode rfl
@[simp] theorem counterSet_pwr (key v : Nat) (s : State) : (counterSet key v s).pwr = s.pwr :=
  (counterSet_fit (L := 0x1800C02) rfl (Fit.refl _ s)).2 .pwr rfl
@[simp] theorem counterSet_thm (key v : Nat) (s : State) : (counterSet key v s).thm = s.thm :=
  (counterSet_fit (L := 0x1800C02) rfl (Fit.refl _ s)).2 .thm rfl
@[simp] theorem counterSet_buf (key v : Nat) (s : State) : (counterSet key v s).buf = s.buf :=
  (counterSet_fit (L := 0x1800C02) rfl (Fit.refl _ s)).2 .buf rfl
@[simp] theorem counterSet_mem (key v : Nat) (s : State) : (counterSet key v s).mem = s.mem :=
  (counterSet_fit (L := 0x1800C02) rfl (Fit.refl _ s)).2 .mem rfl
@[simp] theorem counterSet_pnl (key v : Nat) (s : State) : (counterSet key v s).pnl = s.pnl :=
  (counterSet_fit (L := 0x1800C02) rfl (Fit.refl _ s)).2 .pnl rfl
@[simp] theorem counterSet_scene (key v : Nat) (s : State) : (counterSet key v s).scene = s.scene :=
  (counterSet_fit (L := 0x1800C02) rfl (Fit.refl _ s)).2 .scene rfl
@[simp] theorem counterSet_cdc (key v : Nat) (s : State) : (counterSet key v s).cdc = s.cdc :=
  (counterSet_fit (L := 0x1800C02) rfl (Fit.refl _ s)).2 .cdc rfl
@[simp] theorem counterSet_syn (key v : Nat) (s : State) : (counterSet key v s).syn = s.syn :=
  (counterSet_fit (L := 0x1800C02) rfl (Fit.refl _ s)).2 .syn rfl
@[simp] theorem counterSet_cam (key v : Nat) (s : State) : (counterSet key v s).cam = s.cam :=
  (counterSet_fit (L := 0x1800C02) rfl (Fit.refl _ s)).2 .cam rfl
@[simp] theorem counterSet_scn (key v : Nat) (s : State) : (counterSet key v s).scn = s.scn :=
  (counterSet_fit (L := 0x1800C02) rfl (Fit.refl _ s)).2 .scn rfl
@[simp] theorem counterSet_plk (key v : Nat) (s : State) : (counterSet key v s).plk = s.plk :=
  (counterSet_fit (L := 0x1800C02) rfl (Fit.refl _ s)).2 .plk rfl
@[simp] theorem counterSet_std (key v : Nat) (s : State) : (counterSet key v s).std = s.std :=
  (counterSet_fit (L := 0x1800C02) rfl (Fit.refl _ s)).2 .std rfl
@[simp] theorem counterSet_dmc (key v : Nat) (s : State) : (counterSet key v s).dmc = s.dmc :=
  (counterSet_fit (L := 0x1800C02) rfl (Fit.refl _ s)).2 .dmc rfl
@[simp] theorem counterSet_net (key v : Nat) (s : State) : (counterSet key v s).net = s.net :=
  (counterSet_fit (L := 0x1800C02) rfl (Fit.refl _ s)).2 .net rfl
@[simp] theorem counterSet_cal (key v : Nat) (s : State) : (counterSet key v s).cal = s.cal :=
  (counterSet_fit (L := 0x1800C02) rfl (Fit.refl _ s)).2 .cal rfl
@[simp] theorem counterSet_bst (key v : Nat) (s : State) : (counterSet key v s).bst = s.bst :=
  (counterSet_fit (L := 0x1800C02) rfl (Fit.refl _ s)).2 .bst rfl
@[simp] theorem counterSet_sec (key v : Nat) (s : State) : (counterSet key v s).sec = s.sec :=
  (counterSet_fit (L := 0x1800C02) rfl (Fit.refl _ s)).2 .sec rfl
@[simp] theorem counterSet_hwd (key v : Nat) (s : State) : (counterSet key v s).hwd = s.hwd :=
  (counterSet_fit (L := 0x1800C02) rfl (Fit.refl _ s)).2 .hwd rfl

@[simp] theorem nvFlush_pending (s : State) : (nvFlush s).pending = s.pending :=
  (nvFlush_fit (L := 0x1800C02) rfl (Fit.refl _ s)).2 .pending rfl
@[simp] theorem nvFlush_free (s : State) : (nvFlush s).free = s.free :=
  (nvFlush_fit (L := 0x1800C02) rfl (Fit.refl _ s)).2 .free rfl
@[simp] theorem nvFlush_par (s : State) : (nvFlush s).par = s.par :=
  (nvFlush_fit (L := 0x1800C02) rfl (Fit.refl _ s)).2 .par rfl
@[simp] theorem nvFlush_parPend (s : State) : (nvFlush s).parPend = s.parPend :=
  (nvFlush_fit (L := 0x1800C02) rfl (Fit.refl _ s)).2 .parPend rfl
@[simp] theorem nvFlush_time (s : State) : (nvFlush s).time = s.time :=
  (nvFlush_fit (L := 0x1800C02) rfl (Fit.refl _ s)).2 .time rfl
@[simp] theorem nvFlush_mode (s : State) : (nvFlush s).mode = s.mode :=
  (nvFlush_fit (L := 0x1800C02) rfl (Fit.refl _ s)).2 .mode rfl
@[simp] theorem nvFlush_pwr (s : State) : (nvFlush s).pwr = s.pwr :=
  (nvFlush_fit (L := 0x1800C02) rfl (Fit.refl _ s)).2 .pwr rfl
@[simp] theorem nvFlush_thm (s : State) : (nvFlush s).thm = s.thm :=
  (nvFlush_fit (L := 0x1800C02) rfl (Fit.refl _ s)).2 .thm rfl
@[simp] theorem nvFlush_buf (s : State) : (nvFlush s).buf = s.buf :=
  (nvFlush_fit (L := 0x1800C02) rfl (Fit.refl _ s)).2 .buf rfl
@[simp] theorem nvFlush_mem (s : State) : (nvFlush s).mem = s.mem :=
  (nvFlush_fit (L := 0x1800C02) rfl (Fit.refl _ s)).2 .mem rfl
@[simp] theorem nvFlush_pnl (s : State) : (nvFlush s).pnl = s.pnl :=
  (nvFlush_fit (L := 0x1800C02) rfl (Fit.refl _ s)).2 .pnl rfl
@[simp] theorem nvFlush_scene (s : State) : (nvFlush s).scene = s.scene :=
  (nvFlush_fit (L := 0x1800C02) rfl (Fit.refl _ s)).2 .scene rfl
@[simp] theorem nvFlush_cdc (s : State) : (nvFlush s).cdc = s.cdc :=
  (nvFlush_fit (L := 0x1800C02) rfl (Fit.refl _ s)).2 .cdc rfl
@[simp] theorem nvFlush_syn (s : State) : (nvFlush s).syn = s.syn :=
  (nvFlush_fit (L := 0x1800C02) rfl (Fit.refl _ s)).2 .syn rfl
@[simp] theorem nvFlush_cam (s : State) : (nvFlush s).cam = s.cam :=
  (nvFlush_fit (L := 0x1800C02) rfl (Fit.refl _ s)).2 .cam rfl
@[simp] theorem nvFlush_scn (s : State) : (nvFlush s).scn = s.scn :=
  (nvFlush_fit (L := 0x1800C02) rfl (Fit.refl _ s)).2 .scn rfl
@[simp] theorem nvFlush_plk (s : State) : (nvFlush s).plk = s.plk :=
  (nvFlush_fit (L := 0x1800C02) rfl (Fit.refl _ s)).2 .plk rfl
@[simp] theorem nvFlush_std (s : State) : (nvFlush s).std = s.std :=
  (nvFlush_fit (L := 0x1800C02) rfl (Fit.refl _ s)).2 .std rfl
@[simp] theorem nvFlush_dmc (s : State) : (nvFlush s).dmc = s.dmc :=
  (nvFlush_fit (L := 0x1800C02) rfl (Fit.refl _ s)).2 .dmc rfl
@[simp] theorem nvFlush_net (s : State) : (nvFlush s).net = s.net :=
  (nvFlush_fit (L := 0x1800C02) rfl (Fit.refl _ s)).2 .net rfl
@[simp] theorem nvFlush_cal (s : State) : (nvFlush s).cal = s.cal :=
  (nvFlush_fit (L := 0x1800C02) rfl (Fit.refl _ s)).2 .cal rfl
@[simp] theorem nvFlush_bst (s : State) : (nvFlush s).bst = s.bst :=
  (nvFlush_fit (L := 0x1800C02) rfl (Fit.refl _ s)).2 .bst rfl
@[simp] theorem nvFlush_sec (s : State) : (nvFlush s).sec = s.sec :=
  (nvFlush_fit (L := 0x1800C02) rfl (Fit.refl _ s)).2 .sec rfl
@[simp] theorem nvFlush_hwd (s : State) : (nvFlush s).hwd = s.hwd :=
  (nvFlush_fit (L := 0x1800C02) rfl (Fit.refl _ s)).2 .hwd rfl

@[simp] theorem reached_pending (r : Row) (s : State) : (reached r s).pending = s.pending := by unfold reached; split <;> simp
@[simp] theorem reached_out (r : Row) (s : State) : (reached r s).out = s.out := by unfold reached; split <;> simp
@[simp] theorem reached_free (r : Row) (s : State) : (reached r s).free = s.free := by unfold reached; split <;> simp
@[simp] theorem reached_par (r : Row) (s : State) : (reached r s).par = s.par := by unfold reached; split <;> simp
@[simp] theorem reached_parPend (r : Row) (s : State) : (reached r s).parPend = s.parPend := by unfold reached; split <;> simp
@[simp] theorem reached_time (r : Row) (s : State) : (reached r s).time = s.time := by unfold reached; split <;> simp
@[simp] theorem reached_mode (r : Row) (s : State) : (reached r s).mode = s.mode := by unfold reached; split <;> simp
@[simp] theorem reached_pwr (r : Row) (s : State) : (reached r s).pwr = s.pwr := by unfold reached; split <;> simp
@[simp] theorem reached_thm (r : Row) (s : State) : (reached r s).thm = s.thm := by unfold reached; split <;> simp
@[simp] theorem reached_evt (r : Row) (s : State) : (reached r s).evt = s.evt := by unfold reached; split <;> simp
@[simp] theorem reached_mem (r : Row) (s : State) : (reached r s).mem = s.mem := by unfold reached; split <;> simp
@[simp] theorem reached_pnl (r : Row) (s : State) : (reached r s).pnl = s.pnl := by unfold reached; split <;> simp
@[simp] theorem reached_scene (r : Row) (s : State) : (reached r s).scene = s.scene := by unfold reached; split <;> simp
@[simp] theorem reached_cdc (r : Row) (s : State) : (reached r s).cdc = s.cdc := by unfold reached; split <;> simp
@[simp] theorem reached_syn (r : Row) (s : State) : (reached r s).syn = s.syn := by unfold reached; split <;> simp
@[simp] theorem reached_cam (r : Row) (s : State) : (reached r s).cam = s.cam := by unfold reached; split <;> simp
@[simp] theorem reached_scn (r : Row) (s : State) : (reached r s).scn = s.scn := by unfold reached; split <;> simp
@[simp] theorem reached_plk (r : Row) (s : State) : (reached r s).plk = s.plk := by unfold reached; split <;> simp
@[simp] theorem reached_std (r : Row) (s : State) : (reached r s).std = s.std := by unfold reached; split <;> simp
@[simp] theorem reached_dmc (r : Row) (s : State) : (reached r s).dmc = s.dmc := by unfold reached; split <;> simp
@[simp] theorem reached_net (r : Row) (s : State) : (reached r s).net = s.net := by unfold reached; split <;> simp
@[simp] theorem reached_sbd (r : Row) (s : State) : (reached r s).sbd = s.sbd := by unfold reached; split <;> simp
@[simp] theorem reached_nv (r : Row) (s : State) : (reached r s).nv = s.nv := by unfold reached; split <;> simp
@[simp] theorem reached_cal (r : Row) (s : State) : (reached r s).cal = s.cal := by unfold reached; split <;> simp
@[simp] theorem reached_bst (r : Row) (s : State) : (reached r s).bst = s.bst := by unfold reached; split <;> simp
@[simp] theorem reached_sec (r : Row) (s : State) : (reached r s).sec = s.sec := by unfold reached; split <;> simp
@[simp] theorem reached_hwd (r : Row) (s : State) : (reached r s).hwd = s.hwd := by unfold reached; split <;> simp

@[simp] theorem judged_pending (r : Row) (s : State) : (judged r s).pending = s.pending := by unfold judged; simp
@[simp] theorem judged_out (r : Row) (s : State) : (judged r s).out = s.out := by unfold judged; simp
@[simp] theorem judged_free (r : Row) (s : State) : (judged r s).free = s.free := by unfold judged; simp
@[simp] theorem judged_par (r : Row) (s : State) : (judged r s).par = s.par := by unfold judged; simp
@[simp] theorem judged_parPend (r : Row) (s : State) : (judged r s).parPend = s.parPend := by unfold judged; simp
@[simp] theorem judged_time (r : Row) (s : State) : (judged r s).time = s.time := by unfold judged; simp
@[simp] theorem judged_mode (r : Row) (s : State) : (judged r s).mode = s.mode := by unfold judged; simp
@[simp] theorem judged_pwr (r : Row) (s : State) : (judged r s).pwr = s.pwr := by unfold judged; simp
@[simp] theorem judged_thm (r : Row) (s : State) : (judged r s).thm = s.thm := by unfold judged; simp
@[simp] theorem judged_evt (r : Row) (s : State) : (judged r s).evt = s.evt := by unfold judged; simp
@[simp] theorem judged_mem (r : Row) (s : State) : (judged r s).mem = s.mem := by unfold judged; simp
@[simp] theorem judged_pnl (r : Row) (s : State) : (judged r s).pnl = s.pnl := by unfold judged; simp
@[simp] theorem judged_scene (r : Row) (s : State) : (judged r s).scene = s.scene := by unfold judged; simp
@[simp] theorem judged_cdc (r : Row) (s : State) : (judged r s).cdc = s.cdc := by unfold judged; simp
@[simp] theorem judged_syn (r : Row) (s : State) : (judged r s).syn = s.syn := by unfold judged; simp
@[simp] theorem judged_cam (r : Row) (s : State) : (judged r s).cam = s.cam := by unfold judged; simp
@[simp] theorem judged_scn (r : Row) (s : State) : (judged r s).scn = s.scn := by unfold judged; simp
@[simp] theorem judged_plk (r : Row) (s : State) : (judged r s).plk = s.plk := by unfold judged; simp
@[simp] theorem judged_std (r : Row) (s : State) : (judged r s).std = s.std := by unfold judged; simp
@[simp] theorem judged_dmc (r : Row) (s : State) : (judged r s).dmc = s.dmc := by unfold judged; simp
@[simp] theorem judged_net (r : Row) (s : State) : (judged r s).net = s.net := by unfold judged; simp
@[simp] theorem judged_sbd (r : Row) (s : State) : (judged r s).sbd = s.sbd := by unfold judged; simp
@[simp] theorem judged_nv (r : Row) (s : State) : (judged r s).nv = s.nv := by unfold judged; simp
@[simp] theorem judged_cal (r : Row) (s : State) : (judged r s).cal = s.cal := by unfold judged; simp
@[simp] theorem judged_bst (r : Row) (s : State) : (judged r s).bst = s.bst := by unfold judged; simp
@[simp] theorem judged_sec (r : Row) (s : State) : (judged r s).sec = s.sec := by unfold judged; simp
@[simp] theorem judged_hwd (r : Row) (s : State) : (judged r s).hwd = s.hwd := by unfold judged; simp

theorem admitted_fit {L : Nat} {s0 : State} {r : Row} {s : State} (hL : In 0x800600 L) (h : Fit L s0 s) : Fit L s0 (admitted r s) := by
  unfold admitted judged reached
  refine admitLive_fit (In.trans (by decide) hL) (noteTaken_fit (In.trans (by decide) hL) ?_)
  split
  · exact readEntry_fit (In.trans (by decide) hL) h
  · exact Fit.upd_cmd (In.trans (by decide) hL) h rfl

theorem taken_fit {L : Nat} {s0 : State} {r : Row} {s : State} (hL : In 0x800600 L) (hr : RowFit L r) (h : Fit L s0 s) :
    Fit L s0 (taken r s) := hr.1 _ _ (admitted_fit hL h)

@[simp] theorem admitted_pending (r : Row) (s : State) : (admitted r s).pending = s.pending := by unfold admitted; simp
theorem taken_pending (r : Row) (s : State) (h : ∀ x, (r.pre x).pending = x.pending) : (taken r s).pending = s.pending := by unfold taken; rw [h]; simp
@[simp] theorem admitted_out (r : Row) (s : State) : (admitted r s).out = s.out := by unfold admitted; simp
theorem taken_out (r : Row) (s : State) (h : ∀ x, (r.pre x).out = x.out) : (taken r s).out = s.out := by unfold taken; rw [h]; simp
@[simp] theorem admitted_free (r : Row) (s : State) : (admitted r s).free = s.free := by unfold admitted; simp
theorem taken_free (r : Row) (s : State) (h : ∀ x, (r.pre x).free = x.free) : (taken r s).free = s.free := by unfold taken; rw [h]; simp
@[simp] theorem admitted_par (r : Row) (s : State) : (admitted r s).par = s.par := by unfold admitted; simp
theorem taken_par (r : Row) (s : State) (h : ∀ x, (r.pre x).par = x.par) : (taken r s).par = s.par := by unfold taken; rw [h]; simp
@[simp] theorem admitted_parPend (r : Row) (s : State) : (admitted r s).parPend = s.parPend := by unfold admitted; simp
theorem taken_parPend (r : Row) (s : State) (h : ∀ x, (r.pre x).parPend = x.parPend) : (taken r s).parPend = s.parPend := by unfold taken; rw [h]; simp
@[simp] theorem admitted_time (r : Row) (s : State) : (admitted r s).time = s.time := by unfold admitted; simp
theorem taken_time (r : Row) (s : State) (h : ∀ x, (r.pre x).time = x.time) : (taken r s).time = s.time := by unfold taken; rw [h]; simp
@[simp] theorem admitted_mode (r : Row) (s : State) : (admitted r s).mode = s.mode := by unfold admitted; simp
theorem taken_mode (r : Row) (s : State) (h : ∀ x, (r.pre x).mode = x.mode) : (taken r s).mode = s.mode := by unfold taken; rw [h]; simp
@[simp] theorem admitted_pwr (r : Row) (s : State) : (admitted r s).pwr = s.pwr := by unfold admitted; simp
theorem taken_pwr (r : Row) (s : State) (h : ∀ x, (r.pre x).pwr = x.pwr) : (taken r s).pwr = s.pwr := by unfold taken; rw [h]; simp
@[simp] theorem admitted_thm (r : Row) (s : State) : (admitted r s).thm = s.thm := by unfold admitted; simp
theorem taken_thm (r : Row) (s : State) (h : ∀ x, (r.pre x).thm = x.thm) : (taken r s).thm = s.thm := by unfold taken; rw [h]; simp
@[simp] theorem admitted_evt (r : Row) (s : State) : (admitted r s).evt = s.evt := by unfold admitted; simp
theorem taken_evt (r : Row) (s : State) (h : ∀ x, (r.pre x).evt = x.evt) : (taken r s).evt = s.evt := by unfold taken; rw [h]; simp
@[simp] theorem admitted_mem (r : Row) (s : State) : (admitted r s).mem = s.mem := by unfold admitted; simp
theorem taken_mem (r : Row) (s : State) (h : ∀ x, (r.pre x).mem = x.mem) : (taken r s).mem = s.mem := by unfold taken; rw [h]; simp
@[simp] theorem admitted_pnl (r : Row) (s : State) : (admitted r s).pnl = s.pnl := by unfold admitted; simp
theorem taken_pnl (r : Row) (s : State) (h : ∀ x, (r.pre x).pnl = x.pnl) : (taken r s).pnl = s.pnl := by unfold taken; rw [h]; simp
@[simp] theorem admitted_scene (r : Row) (s : State) : (admitted r s).scene = s.scene := by unfold admitted; simp
theorem taken_scene (r : Row) (s : State) (h : ∀ x, (r.pre x).scene = x.scene) : (taken r s).scene = s.scene := by unfold taken; rw [h]; simp
@[simp] theorem admitted_cdc (r : Row) (s : State) : (admitted r s).cdc = s.cdc := by unfold admitted; simp
theorem taken_cdc (r : Row) (s : State) (h : ∀ x, (r.pre x).cdc = x.cdc) : (taken r s).cdc = s.cdc := by unfold taken; rw [h]; simp
@[simp] theorem admitted_syn (r : Row) (s : State) : (admitted r s).syn = s.syn := by unfold admitted; simp
theorem taken_syn (r : Row) (s : State) (h : ∀ x, (r.pre x).syn = x.syn) : (taken r s).syn = s.syn := by unfold taken; rw [h]; simp
@[simp] theorem admitted_cam (r : Row) (s : State) : (admitted r s).cam = s.cam := by unfold admitted; simp
theorem taken_cam (r : Row) (s : State) (h : ∀ x, (r.pre x).cam = x.cam) : (taken r s).cam = s.cam := by unfold taken; rw [h]; simp
@[simp] theorem admitted_scn (r : Row) (s : State) : (admitted r s).scn = s.scn := by unfold admitted; simp
theorem taken_scn (r : Row) (s : State) (h : ∀ x, (r.pre x).scn = x.scn) : (taken r s).scn = s.scn := by unfold taken; rw [h]; simp
@[simp] theorem admitted_plk (r : Row) (s : State) : (admitted r s).plk = s.plk := by unfold admitted; simp
theorem taken_plk (r : Row) (s : State) (h : ∀ x, (r.pre x).plk = x.plk) : (taken r s).plk = s.plk := by unfold taken; rw [h]; simp
@[simp] theorem admitted_std (r : Row) (s : State) : (admitted r s).std = s.std := by unfold admitted; simp
theorem taken_std (r : Row) (s : State) (h : ∀ x, (r.pre x).std = x.std) : (taken r s).std = s.std := by unfold taken; rw [h]; simp
@[simp] theorem admitted_dmc (r : Row) (s : State) : (admitted r s).dmc = s.dmc := by unfold admitted; simp
theorem taken_dmc (r : Row) (s : State) (h : ∀ x, (r.pre x).dmc = x.dmc) : (taken r s).dmc = s.dmc := by unfold taken; rw [h]; simp
@[simp] theorem admitted_net (r : Row) (s : State) : (admitted r s).net = s.net := by unfold admitted; simp
theorem taken_net (r : Row) (s : State) (h : ∀ x, (r.pre x).net = x.net) : (taken r s).net = s.net := by unfold taken; rw [h]; simp
@[simp] theorem admitted_nv (r : Row) (s : State) : (admitted r s).nv = s.nv := by unfold admitted; simp
theorem taken_nv (r : Row) (s : State) (h : ∀ x, (r.pre x).nv = x.nv) : (taken r s).nv = s.nv := by unfold taken; rw [h]; simp
@[simp] theorem admitted_cal (r : Row) (s : State) : (admitted r s).cal = s.cal := by unfold admitted; simp
theorem taken_cal (r : Row) (s : State) (h : ∀ x, (r.pre x).cal = x.cal) : (taken r s).cal = s.cal := by unfold taken; rw [h]; simp
@[simp] theorem admitted_bst (r : Row) (s : State) : (admitted r s).bst = s.bst := by unfold admitted; simp
theorem taken_bst (r : Row) (s : State) (h : ∀ x, (r.pre x).bst = x.bst) : (taken r s).bst = s.bst := by unfold taken; rw [h]; simp
@[simp] theorem admitted_sec (r : Row) (s : State) : (admitted r s).sec = s.sec := by unfold admitted; simp
theorem taken_sec (r : Row) (s : State) (h : ∀ x, (r.pre x).sec = x.sec) : (taken r s).sec = s.sec := by unfold taken; rw [h]; simp
@[simp] theorem admitted_hwd (r : Row) (s : State) : (admitted r s).hwd = s.hwd := by unfold admitted; simp
theorem taken_hwd (r : Row) (s : State) (h : ∀ x, (r.pre x).hwd = x.hwd) : (taken r s).hwd = s.hwd := by unfold taken; rw [h]; simp

end Sys2Proof.Machine
end

