-- ==== Sys2Proof/Laws/Events.lean ====
section
/-! SUPPORT. What emitting, raising and replying do to the command interface, beyond the parts they touch. -/

set_option Elab.async false

namespace Sys2Proof.Machine

theorem emit_out (o : Out) (s : State) : (emit o s).out = o :: s.out := by
  unfold emit hostTouch; dsimp only []; split <;> rfl

/-- Two states of the command interface that differ at most in the pending bits of MSI-X, in L1 and in when the host was last
heard. -/
def CmdLike (x y : CmdSt) : Prop := ∃ a b c, y = { x with pba := a, lastHost := b, l1 := c }

theorem CmdLike.refl (x : CmdSt) : CmdLike x x := ⟨x.pba, x.lastHost, x.l1, rfl⟩

theorem CmdLike.trans {x y z : CmdSt} (h : CmdLike x y) (k : CmdLike y z) : CmdLike x z := by
  obtain ⟨a, b, e, rfl⟩ := h
  obtain ⟨c, d, f, rfl⟩ := k
  exact ⟨c, d, f, rfl⟩

theorem emit_cmdLike (o : Out) (s : State) : CmdLike s.cmd (emit o s).cmd := by
  unfold emit hostTouch; dsimp only []; split
  · exact ⟨s.cmd.pba, s.time.ref, false, rfl⟩
  · exact CmdLike.refl _

theorem sendMsix_cmdLike (v : Nat) (s : State) : CmdLike s.cmd (sendMsix v s).cmd := by
  unfold sendMsix; split
  · exact CmdLike.refl _
  · split
    · exact ⟨s.cmd.pba ||| 2 ^ v, s.cmd.lastHost, s.cmd.l1, rfl⟩
    · exact emit_cmdLike _ _

theorem evqWrite_cmdLike (r : Rec) (s : State) : CmdLike s.cmd (evqWrite r s).cmd := by
  unfold evqWrite; split
  · exact CmdLike.refl _
  · split
    · exact emit_cmdLike _ _
    · exact CmdLike.refl _

theorem post_cmdLike (r : Rec) (s : State) : CmdLike s.cmd (post r s).cmd := by
  unfold post; dsimp only []
  refine CmdLike.trans ?_ (evqWrite_cmdLike _ _)
  split
  · exact sendMsix_cmdLike _ _
  · exact CmdLike.refl _

theorem logRec_cmdLike (r : Rec) (s : State) : CmdLike s.cmd (logRec r s).2.cmd := by
  unfold logRec; exact emit_cmdLike _ _

theorem notifyFails_cmdLike (s : State) : CmdLike s.cmd (notifyFails s).cmd := by
  unfold notifyFails
  split
  · exact CmdLike.refl _
  · exact (logRec_cmdLike { source := 0xDE, time := merNs s } { s with sbd := { s.sbd with failAt := some s.time.ref } }).trans
      (post_cmdLike _ _)

theorem deliver_cmdLike (r : Rec) (s : State) : CmdLike s.cmd (deliver r s).cmd := by
  unfold deliver
  refine (post_cmdLike r s).trans ?_
  generalize post r s = x
  dsimp only []
  split
  · split
    · exact emit_cmdLike _ _
    · exact notifyFails_cmdLike x
  · exact CmdLike.refl _

theorem formRec_cmdLike (r : Rec) (s : State) : CmdLike s.cmd (formRec r s).cmd := by
  unfold formRec
  refine (logRec_cmdLike r s).trans ?_
  generalize logRec r s = x
  dsimp only []
  split
  · exact deliver_cmdLike _ _
  · exact CmdLike.refl _

theorem coalesceEnd_cmdLike (c : SrcCount) (s : State) : CmdLike s.cmd (coalesceEnd c s).cmd := by
  unfold coalesceEnd
  dsimp only [setCount]
  split
  · exact formRec_cmdLike _ _
  · exact CmdLike.refl _

/-- A firing counted and, unless it is coalesced, formed. -/
theorem fireNow_cmdLike (src : Nat) (pay : List Byte) (x : State) : CmdLike x.cmd (match srcCount x src with
      | none => x
      | some c =>
        if c.coalesced || c.count ≥ 64 then
          setCount { c with count := c.count + 1, coalesced := true, since := c.since + 1, last := pay, lastTime := merNs x } x
        else formRec { source := src, time := merNs x, payload := pay } (setCount { c with count := c.count + 1 } x)).cmd := by
  generalize srcCount x src = o
  cases o with
  | none => exact CmdLike.refl _
  | some c =>
    dsimp only []
    split
    · exact CmdLike.refl _
    · exact formRec_cmdLike _ (setCount { c with count := c.count + 1 } x)

/-- A millisecond of a source that has ended is closed. -/
theorem fireOld_cmdLike (src ms : Nat) (s : State) : CmdLike s.cmd (match srcCount s src with
      | some c =>
        if c.ms < ms then
          setCount ⟨src, ms, 0, (if c.ms + 1 = ms then c.coalesced && c.count > 64 else false), 0, [], 0⟩
            (if c.coalesced && c.since > 0 then coalesceEnd c s else s)
        else s
      | none => setCount ⟨src, ms, 0, false, 0, [], 0⟩ s).cmd := by
  generalize srcCount s src = o
  cases o with
  | none => exact CmdLike.refl _
  | some c =>
    dsimp only []
    split
    · dsimp only [setCount]
      split
      · exact coalesceEnd_cmdLike _ _
      · exact CmdLike.refl _
    · exact CmdLike.refl _

theorem fire_cmdLike (src : Nat) (pay : List Byte) (s : State) : CmdLike s.cmd (fire src pay s).cmd :=
  (fireOld_cmdLike src (merNs s / 1000000) s).trans (fireNow_cmdLike src pay _)

/-- Raising an event changes nothing of the command interface but MSI-X pending bits, L1 and when the host was last heard. -/
theorem raise_cmdLike (src : Nat) (items : List (Nat × Nat)) (s : State) : CmdLike s.cmd (raise src items s).cmd := fire_cmdLike _ _ _

theorem CmdLike.lease {x y : CmdSt} (h : CmdLike x y) : y.lease = x.lease := by obtain ⟨_, _, _, rfl⟩ := h; rfl
theorem CmdLike.live {x y : CmdSt} (h : CmdLike x y) : y.live = x.live := by obtain ⟨_, _, _, rfl⟩ := h; rfl
theorem CmdLike.waits {x y : CmdSt} (h : CmdLike x y) : y.waits = x.waits := by obtain ⟨_, _, _, rfl⟩ := h; rfl
theorem CmdLike.sched {x y : CmdSt} (h : CmdLike x y) : y.sched = x.sched := by obtain ⟨_, _, _, rfl⟩ := h; rfl
theorem CmdLike.rings {x y : CmdSt} (h : CmdLike x y) : y.rings = x.rings := by obtain ⟨_, _, _, rfl⟩ := h; rfl
theorem CmdLike.up {x y : CmdSt} (h : CmdLike x y) : y.up = x.up := by obtain ⟨_, _, _, rfl⟩ := h; rfl
theorem CmdLike.ready {x y : CmdSt} (h : CmdLike x y) : y.ready = x.ready := by obtain ⟨_, _, _, rfl⟩ := h; rfl
theorem CmdLike.last {x y : CmdSt} (h : CmdLike x y) : y.last = x.last := by obtain ⟨_, _, _, rfl⟩ := h; rfl
theorem CmdLike.accepted {x y : CmdSt} (h : CmdLike x y) : y.accepted = x.accepted := by obtain ⟨_, _, _, rfl⟩ := h; rfl

@[simp] theorem raise_lease (a : Nat) (b : List (Nat × Nat)) (s : State) : (raise a b s).cmd.lease = s.cmd.lease := (raise_cmdLike a b s).lease
@[simp] theorem raise_live (a : Nat) (b : List (Nat × Nat)) (s : State) : (raise a b s).cmd.live = s.cmd.live := (raise_cmdLike a b s).live
@[simp] theorem raise_waits (a : Nat) (b : List (Nat × Nat)) (s : State) : (raise a b s).cmd.waits = s.cmd.waits := (raise_cmdLike a b s).waits
@[simp] theorem raise_sched (a : Nat) (b : List (Nat × Nat)) (s : State) : (raise a b s).cmd.sched = s.cmd.sched := (raise_cmdLike a b s).sched
@[simp] theorem raise_rings (a : Nat) (b : List (Nat × Nat)) (s : State) : (raise a b s).cmd.rings = s.cmd.rings := (raise_cmdLike a b s).rings
@[simp] theorem raise_up (a : Nat) (b : List (Nat × Nat)) (s : State) : (raise a b s).cmd.up = s.cmd.up := (raise_cmdLike a b s).up
@[simp] theorem emit_lease (o : Out) (s : State) : (emit o s).cmd.lease = s.cmd.lease := (emit_cmdLike o s).lease
@[simp] theorem sendMsix_lease (v : Nat) (s : State) : (sendMsix v s).cmd.lease = s.cmd.lease := (sendMsix_cmdLike v s).lease

theorem ringReply_lease (r : Nat) (i : Bool) (rep : Reply) (s : State) : (ringReply r i rep s).cmd.lease = s.cmd.lease := by
  unfold ringReply; dsimp only []
  split
  · simp
  · split
    · simp [ringError, setRing]
    · split <;> simp [setRing]

theorem sendReply_lease (o i : Bool) (rep : Reply) (s : State) : (sendReply o i rep s).cmd.lease = s.cmd.lease := by
  unfold sendReply
  split
  · split
    · unfold loseReply; dsimp only []; split
      · simp
      · simp
    · exact ringReply_lease ..
  · dsimp only []; split
    · simp
    · simp [keepReply]

/-- A final reply does not change the lease. -/
@[simp] theorem finish_lease (h : Hdr) (opc : Nat) (v : Verdict) (s : State) : (finish h opc v s).cmd.lease = s.cmd.lease := by
  unfold finish; dsimp only []
  split
  · rfl
  · rw [sendReply_lease]; rfl

end Sys2Proof.Machine
end

