-- ==== Sys2Proof/Laws/FitSecOps.lean ====
section
/-! SUPPORT. What each definition of Machine/SecOps.lean touches, and that it keeps the invariant: one lemma each. -/

set_option Elab.async false
set_option linter.all false

namespace Sys2Proof.Machine

theorem onSec_fit {L : Nat} {s0 : State} {f : SecSt → SecSt} {s : State} (hL : In 0x8000000 L) (h0 : Fit L s0 s) :
    Fit L s0 (onSec f s) := by
  unfold onSec
  repeat' (first
    | with_reducible assumption
    | (extract_lets +onlyGivenNames x; have y := x; first | (guard_hyp y : State; clear y; refine Fit.seq L s0 x ?_ ?_; rotate_left; intro hx; clear_value x; rotate_left; dsimp -zeta only [x]; clear x) | (clear y; clear_value x))
    | (with_reducible apply Fit.upd_sec (In.trans (by decide) hL); first | (with_reducible apply Fit.ite <;> intro _) | (fail_if_success split)))

theorem putBoot_fit {L : Nat} {s0 : State} {b : BootCtl} {s : State} (hL : In 0x1800C02 L) (h0 : Fit L s0 s) :
    Fit L s0 (putBoot b s) := by
  unfold putBoot
  repeat' (first
    | with_reducible assumption
    | with_reducible apply nvOwn_fit (In.trans (by decide) hL))

theorem stageEvent_fit {L : Nat} {s0 : State} {flags : Nat} {s : State} (hL : In 0x800C02 L) (h0 : Fit L s0 s) :
    Fit L s0 (stageEvent flags s) := by
  unfold stageEvent
  repeat' (first
    | with_reducible assumption
    | with_reducible apply raise_fit (In.trans (by decide) hL))

theorem endUpdate_fit {L : Nat} {s0 : State} {st : Option Nat} {later : Bool} {s : State} (hL : In 0x9800E02 L) (h0 : Fit L s0 s) :
    Fit L s0 (endUpdate st later s) := by
  unfold endUpdate
  repeat' (first
    | with_reducible assumption
    | intro _
    | (extract_lets +onlyGivenNames x; have y := x; first | (guard_hyp y : State; clear y; refine Fit.seq L s0 x ?_ ?_; rotate_left; intro hx; clear_value x; rotate_left; dsimp -zeta only [x]; clear x) | (clear y; clear_value x))
    | with_reducible apply finish_fit (In.trans (by decide) hL)
    | with_reducible apply onSec_fit (In.trans (by decide) hL)
    | with_reducible apply putBoot_fit (In.trans (by decide) hL)
    | with_reducible apply stageEvent_fit (In.trans (by decide) hL)
    | (with_reducible apply Fit.ite <;> intro _)
    | (with_reducible apply Fit.upd_sec (In.trans (by decide) hL); first | (with_reducible apply Fit.ite <;> intro _) | (fail_if_success split))
    | split)

theorem endFieldOpen_fit {L : Nat} {s0 : State} {s : State} (hL : In 0x8800C06 L) (h0 : Fit L s0 s) :
    Fit L s0 (endFieldOpen s) := by
  unfold endFieldOpen
  repeat' (first
    | with_reducible assumption
    | intro _
    | (extract_lets +onlyGivenNames x; have y := x; first | (guard_hyp y : State; clear y; refine Fit.seq L s0 x ?_ ?_; rotate_left; intro hx; clear_value x; rotate_left; dsimp -zeta only [x]; clear x) | (clear y; clear_value x))
    | with_reducible apply drawn_fit (In.trans (by decide) hL)
    | with_reducible apply raise_fit (In.trans (by decide) hL)
    | with_reducible apply onSec_fit (In.trans (by decide) hL)
    | (with_reducible apply Fit.ite <;> intro _)
    | split)

end Sys2Proof.Machine
end

