-- ==== Sys2Proof/Laws/FitBootOps.lean ====
section
/-! SUPPORT. What each definition of Machine/BootOps.lean touches, and that it keeps the invariant: one lemma each. -/

set_option Elab.async false
set_option linter.all false

namespace Sys2Proof.Machine

theorem firmFuses_fit {L : Nat} {s0 : State} {s : State} (hL : In 0x8800C02 L) (h0 : Fit L s0 s) :
    Fit L s0 (firmFuses s) := by
  unfold firmFuses
  repeat' (first
    | with_reducible assumption
    | intro _
    | (extract_lets +onlyGivenNames x; have y := x; first | (guard_hyp y : State; clear y; refine Fit.seq L s0 x ?_ ?_; rotate_left; intro hx; clear_value x; rotate_left; dsimp -zeta only [x]; clear x) | (clear y; clear_value x))
    | with_reducible apply raise_fit (In.trans (by decide) hL)
    | with_reducible apply onSec_fit (In.trans (by decide) hL)
    | (with_reducible apply Fit.foldl))

theorem confirmSlot_fit {L : Nat} {s0 : State} {n : Nat} {s : State} (hL : In 0x9800C02 L) (h0 : Fit L s0 s) :
    Fit L s0 (confirmSlot n s) := by
  unfold confirmSlot
  repeat' (first
    | with_reducible assumption
    | intro _
    | (extract_lets +onlyGivenNames x; have y := x; first | (guard_hyp y : State; clear y; refine Fit.seq L s0 x ?_ ?_; rotate_left; intro hx; clear_value x; rotate_left; dsimp -zeta only [x]; clear x) | (clear y; clear_value x))
    | with_reducible apply onSec_fit (In.trans (by decide) hL)
    | with_reducible apply putBoot_fit (In.trans (by decide) hL)
    | (with_reducible apply Fit.ite <;> intro _)
    | split)

theorem confirmRunning_fit {L : Nat} {s0 : State} {n : Nat} {s : State} (hL : In 0x9800C02 L) (h0 : Fit L s0 s) :
    Fit L s0 (confirmRunning n s) := by
  unfold confirmRunning
  repeat' (first
    | with_reducible assumption
    | (extract_lets +onlyGivenNames x; have y := x; first | (guard_hyp y : State; clear y; refine Fit.seq L s0 x ?_ ?_; rotate_left; intro hx; clear_value x; rotate_left; dsimp -zeta only [x]; clear x) | (clear y; clear_value x))
    | with_reducible apply putBoot_fit (In.trans (by decide) hL)
    | with_reducible apply confirmSlot_fit (In.trans (by decide) hL))

theorem nvErase_fit {L : Nat} {s0 : State} {part : Nat} {f : NvRec → Bool} {s : State} (hL : In 0x1000000 L) (h0 : Fit L s0 s) :
    Fit L s0 (nvErase part f s) := by
  unfold nvErase
  repeat' (first
    | with_reducible assumption
    | intro _
    | (extract_lets +onlyGivenNames x; have y := x; first | (guard_hyp y : State; clear y; refine Fit.seq L s0 x ?_ ?_; rotate_left; intro hx; clear_value x; rotate_left; dsimp -zeta only [x]; clear x) | (clear y; clear_value x))
    | (with_reducible apply Fit.upd_nv (In.trans (by decide) hL); first | (with_reducible apply Fit.ite <;> intro _) | (fail_if_success split))
    | split)

theorem lifeErase_fit {L : Nat} {s0 : State} {s : State} (hL : In 0x1000000 L) (h0 : Fit L s0 s) :
    Fit L s0 (lifeErase s) := by
  unfold lifeErase
  repeat' (first
    | with_reducible assumption
    | intro _
    | (extract_lets +onlyGivenNames x; have y := x; first | (guard_hyp y : State; clear y; refine Fit.seq L s0 x ?_ ?_; rotate_left; intro hx; clear_value x; rotate_left; dsimp -zeta only [x]; clear x) | (clear y; clear_value x))
    | with_reducible apply nvErase_fit (In.trans (by decide) hL)
    | (with_reducible apply Fit.ite <;> intro _)
    | split)

theorem startSlot_fit {L : Nat} {s0 : State} {n : Nat} {s : State} (hL : In 0x9800C02 L) (h0 : Fit L s0 s) :
    Fit L s0 (startSlot n s) := by
  unfold startSlot
  repeat' (first
    | with_reducible assumption
    | intro _
    | (extract_lets +onlyGivenNames x; have y := x; first | (guard_hyp y : State; clear y; refine Fit.seq L s0 x ?_ ?_; rotate_left; intro hx; clear_value x; rotate_left; dsimp -zeta only [x]; clear x) | (clear y; clear_value x))
    | with_reducible apply raise_fit (In.trans (by decide) hL)
    | with_reducible apply onSec_fit (In.trans (by decide) hL)
    | with_reducible apply confirmSlot_fit (In.trans (by decide) hL)
    | (with_reducible apply Fit.ite <;> intro _)
    | split)

theorem candidate_fit {L : Nat} {s0 : State} {s : State} (hL : In 0x1800C02 L) (h0 : Fit L s0 s) :
    Fit L s0 (candidate s).2 := by
  unfold candidate
  repeat' (first
    | with_reducible assumption
    | (extract_lets +onlyGivenNames x; have y := x; first | (guard_hyp y : State; clear y; refine Fit.seq L s0 x ?_ ?_; rotate_left; intro hx; clear_value x; rotate_left; dsimp -zeta only [x]; clear x) | (clear y; clear_value x))
    | with_reducible apply putBoot_fit (In.trans (by decide) hL)
    | with_reducible apply stageEvent_fit (In.trans (by decide) hL)
    | (with_reducible apply Fit.ite <;> intro _)
    | (dsimp -zeta only [id])
    | (with_reducible apply Fit.of_snd; case e => with_reducible assumption)
    | (with_reducible apply Fit.of_fst; case e => with_reducible assumption)
    | split)

theorem bootFail_fit {L : Nat} {s0 : State} {n code : Nat} {s : State} (hL : In 0x8800C02 L) (h0 : Fit L s0 s) :
    Fit L s0 (bootFail n code s) := by
  unfold bootFail
  repeat' (first
    | with_reducible assumption
    | intro _
    | (extract_lets +onlyGivenNames x; have y := x; first | (guard_hyp y : State; clear y; refine Fit.seq L s0 x ?_ ?_; rotate_left; intro hx; clear_value x; rotate_left; dsimp -zeta only [x]; clear x) | (clear y; clear_value x))
    | with_reducible apply raise_fit (In.trans (by decide) hL)
    | with_reducible apply onSec_fit (In.trans (by decide) hL))

theorem boot_fit {L : Nat} {s0 : State} {s : State} (hL : In 0x9800C02 L) (h0 : Fit L s0 s) :
    Fit L s0 (boot s) := by
  unfold boot
  repeat' (first
    | with_reducible assumption
    | intro _
    | (extract_lets +onlyGivenNames x; have y := x; first | (guard_hyp y : State; clear y; refine Fit.seq L s0 x ?_ ?_; rotate_left; intro hx; clear_value x; rotate_left; dsimp -zeta only [x]; clear x) | (clear y; clear_value x))
    | with_reducible apply nvOwn_fit (In.trans (by decide) hL)
    | with_reducible apply onSec_fit (In.trans (by decide) hL)
    | with_reducible apply putBoot_fit (In.trans (by decide) hL)
    | with_reducible apply firmFuses_fit (In.trans (by decide) hL)
    | with_reducible apply lifeErase_fit (In.trans (by decide) hL)
    | with_reducible apply startSlot_fit (In.trans (by decide) hL)
    | with_reducible apply candidate_fit (In.trans (by decide) hL)
    | with_reducible apply bootFail_fit (In.trans (by decide) hL)
    | (with_reducible apply Fit.ite <;> intro _)
    | (dsimp -zeta only [id])
    | (with_reducible apply Fit.of_snd; case e => with_reducible assumption)
    | (with_reducible apply Fit.of_fst; case e => with_reducible assumption)
    | split)

end Sys2Proof.Machine
end

