-- ==== Sys2Proof/Laws/FitPanelOps.lean ====
section
/-! SUPPORT. What each definition of Machine/PanelOps.lean touches, and that it keeps the invariant: one lemma each. -/

set_option Elab.async false
set_option linter.all false

namespace Sys2Proof.Machine

theorem panelFromNv_fit {L : Nat} {s0 : State} {s : State} (hL : In 0x2000 L) (h0 : Fit L s0 s) :
    Fit L s0 (panelFromNv s) := by
  unfold panelFromNv
  repeat' (first
    | with_reducible assumption
    | (extract_lets +onlyGivenNames x; have y := x; first | (guard_hyp y : State; clear y; refine Fit.seq L s0 x ?_ ?_; rotate_left; intro hx; clear_value x; rotate_left; dsimp -zeta only [x]; clear x) | (clear y; clear_value x))
    | (with_reducible apply Fit.upd_pnl (In.trans (by decide) hL); first | (with_reducible apply Fit.ite <;> intro _) | (fail_if_success split)))

end Sys2Proof.Machine
end

