-- ==== Sys2Proof/Laws/FitSteeringOps.lean ====
section
/-! SUPPORT. What each definition of Machine/SteeringOps.lean touches, and that it keeps the invariant: one lemma each. -/

set_option Elab.async false
set_option linter.all false

namespace Sys2Proof.Machine

theorem onStd_fit {L : Nat} {s0 : State} {f : StdSt → StdSt} {s : State} (hL : In 0x100000 L) (h0 : Fit L s0 s) :
    Fit L s0 (onStd f s) := by
  unfold onStd
  repeat' (first
    | with_reducible assumption
    | (extract_lets +onlyGivenNames x; have y := x; first | (guard_hyp y : State; clear y; refine Fit.seq L s0 x ?_ ?_; rotate_left; intro hx; clear_value x; rotate_left; dsimp -zeta only [x]; clear x) | (clear y; clear_value x))
    | (with_reducible apply Fit.upd_std (In.trans (by decide) hL); first | (with_reducible apply Fit.ite <;> intro _) | (fail_if_success split)))

theorem applyBand_fit {L : Nat} {s0 : State} {b k : Nat} {s : State} (hL : In 0x900C02 L) (h0 : Fit L s0 s) :
    Fit L s0 (applyBand b k s) := by
  unfold applyBand
  repeat' (first
    | with_reducible assumption
    | intro _
    | (extract_lets +onlyGivenNames x; have y := x; first | (guard_hyp y : State; clear y; refine Fit.seq L s0 x ?_ ?_; rotate_left; intro hx; clear_value x; rotate_left; dsimp -zeta only [x]; clear x) | (clear y; clear_value x))
    | with_reducible apply raise_fit (In.trans (by decide) hL)
    | with_reducible apply onStd_fit (In.trans (by decide) hL))

theorem bandSample_fit {L : Nat} {s0 : State} {t : Int} {s : State} (hL : In 0x900C02 L) (h0 : Fit L s0 s) :
    Fit L s0 (bandSample t s) := by
  unfold bandSample
  repeat' (first
    | with_reducible assumption
    | intro _
    | (extract_lets +onlyGivenNames x; have y := x; first | (guard_hyp y : State; clear y; refine Fit.seq L s0 x ?_ ?_; rotate_left; intro hx; clear_value x; rotate_left; dsimp -zeta only [x]; clear x) | (clear y; clear_value x))
    | with_reducible apply onStd_fit (In.trans (by decide) hL)
    | with_reducible apply applyBand_fit (In.trans (by decide) hL)
    | (with_reducible apply Fit.ite <;> intro _)
    | split)

theorem thermSample_fit {L : Nat} {s0 : State} {n : Nat} {s : State} (hL : In 0x900C02 L) (h0 : Fit L s0 s) :
    Fit L s0 (thermSample n s) := by
  unfold thermSample
  repeat' (first
    | with_reducible assumption
    | intro _
    | (extract_lets +onlyGivenNames x; have y := x; first | (guard_hyp y : State; clear y; refine Fit.seq L s0 x ?_ ?_; rotate_left; intro hx; clear_value x; rotate_left; dsimp -zeta only [x]; clear x) | (clear y; clear_value x))
    | with_reducible apply raiseIf_fit (In.trans (by decide) hL)
    | with_reducible apply onStd_fit (In.trans (by decide) hL)
    | with_reducible apply bandSample_fit (In.trans (by decide) hL)
    | (with_reducible apply Fit.ite <;> intro _)
    | split)

theorem stdIntegrate_fit {L : Nat} {s0 : State} {t : Nat} {s : State} (hL : In 0x100000 L) (h0 : Fit L s0 s) :
    Fit L s0 (stdIntegrate t s) := by
  unfold stdIntegrate
  repeat' (first
    | with_reducible assumption
    | intro _
    | (extract_lets +onlyGivenNames x; have y := x; first | (guard_hyp y : State; clear y; refine Fit.seq L s0 x ?_ ?_; rotate_left; intro hx; clear_value x; rotate_left; dsimp -zeta only [x]; clear x) | (clear y; clear_value x))
    | with_reducible apply onStd_fit (In.trans (by decide) hL)
    | (with_reducible apply Fit.ite <;> intro _)
    | split)

theorem setDrive_fit {L : Nat} {s0 : State} {i : Nat} {o : OutDrive} {s : State} (hL : In 0x100402 L) (h0 : Fit L s0 s) :
    Fit L s0 (setDrive i o s) := by
  unfold setDrive
  repeat' (first
    | with_reducible assumption
    | intro _
    | (extract_lets +onlyGivenNames x; have y := x; first | (guard_hyp y : State; clear y; refine Fit.seq L s0 x ?_ ?_; rotate_left; intro hx; clear_value x; rotate_left; dsimp -zeta only [x]; clear x) | (clear y; clear_value x))
    | with_reducible apply emit_fit (In.trans (by decide) hL)
    | with_reducible apply onStd_fit (In.trans (by decide) hL)
    | (with_reducible apply Fit.ite <;> intro _)
    | split)

theorem setDead_fit {L : Nat} {s0 : State} {b v : Bool} {s : State} (hL : In 0x100000 L) (h0 : Fit L s0 s) :
    Fit L s0 (setDead b v s) := by
  unfold setDead
  repeat' (first
    | with_reducible assumption
    | intro _
    | (extract_lets +onlyGivenNames x; have y := x; first | (guard_hyp y : State; clear y; refine Fit.seq L s0 x ?_ ?_; rotate_left; intro hx; clear_value x; rotate_left; dsimp -zeta only [x]; clear x) | (clear y; clear_value x))
    | with_reducible apply onStd_fit (In.trans (by decide) hL)
    | (with_reducible apply Fit.ite <;> intro _)
    | split)

theorem crowbarHalf_fit {L : Nat} {s0 : State} {b : Bool} {s : State} (hL : In 0x100402 L) (h0 : Fit L s0 s) :
    Fit L s0 (crowbarHalf b s) := by
  unfold crowbarHalf
  repeat' (first
    | with_reducible assumption
    | intro _
    | (extract_lets +onlyGivenNames x; have y := x; first | (guard_hyp y : State; clear y; refine Fit.seq L s0 x ?_ ?_; rotate_left; intro hx; clear_value x; rotate_left; dsimp -zeta only [x]; clear x) | (clear y; clear_value x))
    | with_reducible apply stdIntegrate_fit (In.trans (by decide) hL)
    | with_reducible apply setDrive_fit (In.trans (by decide) hL)
    | with_reducible apply setDead_fit (In.trans (by decide) hL)
    | (with_reducible apply Fit.ite <;> intro _)
    | (with_reducible apply Fit.foldl)
    | split)

theorem driveSegs_fit {L : Nat} {s0 : State} {p : Nat} {v : Int} {s : State} (hL : In 0x100402 L) (h0 : Fit L s0 s) :
    Fit L s0 (driveSegs p v s) := by
  unfold driveSegs
  repeat' (first
    | with_reducible assumption
    | intro _
    | (extract_lets +onlyGivenNames x; have y := x; first | (guard_hyp y : State; clear y; refine Fit.seq L s0 x ?_ ?_; rotate_left; intro hx; clear_value x; rotate_left; dsimp -zeta only [x]; clear x) | ((first | (guard_hyp y : _ → State; clear y) | (guard_hyp y : _ → _ → State; clear y) | (guard_hyp y : _ → _ → _ → State; clear y)); dsimp -zeta only [x]; clear x) | (clear y; clear_value x))
    | with_reducible apply setDrive_fit (In.trans (by decide) hL)
    | (with_reducible apply Fit.ite <;> intro _)
    | split)

theorem stdSubframe_fit {L : Nat} {s0 : State} {u : Sub} {s : State} (hL : In 0x100402 L) (h0 : Fit L s0 s) :
    Fit L s0 (stdSubframe u s) := by
  unfold stdSubframe
  repeat' (first
    | with_reducible assumption
    | intro _
    | (extract_lets +onlyGivenNames x; have y := x; first | (guard_hyp y : State; clear y; refine Fit.seq L s0 x ?_ ?_; rotate_left; intro hx; clear_value x; rotate_left; dsimp -zeta only [x]; clear x) | (clear y; clear_value x))
    | with_reducible apply onStd_fit (In.trans (by decide) hL)
    | with_reducible apply stdIntegrate_fit (In.trans (by decide) hL)
    | with_reducible apply driveSegs_fit (In.trans (by decide) hL)
    | (with_reducible apply Fit.ite <;> intro _)
    | split)

theorem stdBand_fit {L : Nat} {s0 : State} {u : Sub} {b t : Nat} {s : State} (hL : In 0x100402 L) (h0 : Fit L s0 s) :
    Fit L s0 (stdBand u b t s) := by
  unfold stdBand
  repeat' (first
    | with_reducible assumption
    | intro _
    | (extract_lets +onlyGivenNames x; have y := x; first | (guard_hyp y : State; clear y; refine Fit.seq L s0 x ?_ ?_; rotate_left; intro hx; clear_value x; rotate_left; dsimp -zeta only [x]; clear x) | (clear y; clear_value x))
    | with_reducible apply onStd_fit (In.trans (by decide) hL)
    | with_reducible apply stdIntegrate_fit (In.trans (by decide) hL)
    | with_reducible apply setDrive_fit (In.trans (by decide) hL)
    | with_reducible apply driveSegs_fit (In.trans (by decide) hL)
    | (with_reducible apply Fit.ite <;> intro _)
    | split)

theorem stdQuiet_fit {L : Nat} {s0 : State} {s : State} (hL : In 0x100000 L) (h0 : Fit L s0 s) :
    Fit L s0 (stdQuiet s) := by
  unfold stdQuiet
  repeat' (first
    | with_reducible assumption
    | intro _
    | (extract_lets +onlyGivenNames x; have y := x; first | (guard_hyp y : State; clear y; refine Fit.seq L s0 x ?_ ?_; rotate_left; intro hx; clear_value x; rotate_left; dsimp -zeta only [x]; clear x) | (clear y; clear_value x))
    | with_reducible apply onStd_fit (In.trans (by decide) hL))

theorem stdDischarge_fit {L : Nat} {s0 : State} {s : State} (hL : In 0x900C1A L) (h0 : Fit L s0 s) :
    Fit L s0 (stdDischarge s) := by
  unfold stdDischarge
  repeat' (first
    | with_reducible assumption
    | intro _
    | (extract_lets +onlyGivenNames x; have y := x; first | (guard_hyp y : State; clear y; refine Fit.seq L s0 x ?_ ?_; rotate_left; intro hx; clear_value x; rotate_left; dsimp -zeta only [x]; clear x) | (clear y; clear_value x))
    | with_reducible apply pApply_fit (In.trans (by decide) hL)
    | with_reducible apply onStd_fit (In.trans (by decide) hL)
    | with_reducible apply applyBand_fit (In.trans (by decide) hL)
    | with_reducible apply stdIntegrate_fit (In.trans (by decide) hL)
    | with_reducible apply stdQuiet_fit (In.trans (by decide) hL)
    | (with_reducible apply Fit.ite <;> intro _)
    | split)

theorem stdCrowbarNow_fit {L : Nat} {s0 : State} {s : State} (hL : In 0x900C1A L) (h0 : Fit L s0 s) :
    Fit L s0 (stdCrowbarNow s) := by
  unfold stdCrowbarNow
  repeat' (first
    | with_reducible assumption
    | intro _
    | (extract_lets +onlyGivenNames x; have y := x; first | (guard_hyp y : State; clear y; refine Fit.seq L s0 x ?_ ?_; rotate_left; intro hx; clear_value x; rotate_left; dsimp -zeta only [x]; clear x) | (clear y; clear_value x))
    | with_reducible apply emit_fit (In.trans (by decide) hL)
    | with_reducible apply onStd_fit (In.trans (by decide) hL)
    | with_reducible apply stdDischarge_fit (In.trans (by decide) hL)
    | (with_reducible apply Fit.ite <;> intro _)
    | split)

theorem stdRest_fit {L : Nat} {s0 : State} {s : State} (hL : In 0x100000 L) (h0 : Fit L s0 s) :
    Fit L s0 (stdRest s) := by
  unfold stdRest
  repeat' (first
    | with_reducible assumption
    | intro _
    | (extract_lets +onlyGivenNames x; have y := x; first | (guard_hyp y : State; clear y; refine Fit.seq L s0 x ?_ ?_; rotate_left; intro hx; clear_value x; rotate_left; dsimp -zeta only [x]; clear x) | (clear y; clear_value x))
    | with_reducible apply onStd_fit (In.trans (by decide) hL)
    | (with_reducible apply Fit.ite <;> intro _)
    | split)

theorem stdPower_fit {L : Nat} {s0 : State} {k : Nat} {s : State} (hL : In 0x900C02 L) (h0 : Fit L s0 s) :
    Fit L s0 (stdPower k s) := by
  unfold stdPower
  repeat' (first
    | with_reducible assumption
    | intro _
    | (extract_lets +onlyGivenNames x; have y := x; first | (guard_hyp y : State; clear y; refine Fit.seq L s0 x ?_ ?_; rotate_left; intro hx; clear_value x; rotate_left; dsimp -zeta only [x]; clear x) | (clear y; clear_value x))
    | with_reducible apply emit_fit (In.trans (by decide) hL)
    | with_reducible apply raise_fit (In.trans (by decide) hL)
    | with_reducible apply onStd_fit (In.trans (by decide) hL)
    | with_reducible apply stdRest_fit (In.trans (by decide) hL)
    | (with_reducible apply Fit.ite <;> intro _)
    | split)

theorem dcCompare_fit {L : Nat} {s0 : State} {i : Nat} {s : State} (hL : In 0x100000 L) (h0 : Fit L s0 s) :
    Fit L s0 (dcCompare i s) := by
  unfold dcCompare
  repeat' (first
    | with_reducible assumption
    | intro _
    | (extract_lets +onlyGivenNames x; have y := x; first | (guard_hyp y : State; clear y; refine Fit.seq L s0 x ?_ ?_; rotate_left; intro hx; clear_value x; rotate_left; dsimp -zeta only [x]; clear x) | (clear y; clear_value x))
    | with_reducible apply onStd_fit (In.trans (by decide) hL))

theorem pairBoundary_fit {L : Nat} {s0 : State} {k : Nat} {s : State} (hL : In 0x900C1A L) (h0 : Fit L s0 s) :
    Fit L s0 (pairBoundary k s) := by
  unfold pairBoundary
  repeat' (first
    | with_reducible assumption
    | intro _
    | (extract_lets +onlyGivenNames x; have y := x; first | (guard_hyp y : State; clear y; refine Fit.seq L s0 x ?_ ?_; rotate_left; intro hx; clear_value x; rotate_left; dsimp -zeta only [x]; clear x) | (clear y; clear_value x))
    | with_reducible apply pApply_fit (In.trans (by decide) hL)
    | with_reducible apply onStd_fit (In.trans (by decide) hL)
    | with_reducible apply applyBand_fit (In.trans (by decide) hL)
    | (with_reducible apply Fit.ite <;> intro _)
    | split)

end Sys2Proof.Machine
end

