-- ==== Sys2Proof/Laws/FitPanelLinkOps.lean ====
section
/-! SUPPORT. What each definition of Machine/PanelLinkOps.lean touches, and that it keeps the invariant: one lemma each. -/

set_option Elab.async false
set_option linter.all false

namespace Sys2Proof.Machine

theorem onPlk_fit {L : Nat} {s0 : State} {b : Bool} {f : Plk → Plk} {s : State} (hL : In 0x80000 L) (h0 : Fit L s0 s) :
    Fit L s0 (onPlk b f s) := by
  unfold onPlk
  repeat' (first
    | with_reducible assumption
    | (extract_lets +onlyGivenNames x; have y := x; first | (guard_hyp y : State; clear y; refine Fit.seq L s0 x ?_ ?_; rotate_left; intro hx; clear_value x; rotate_left; dsimp -zeta only [x]; clear x) | (clear y; clear_value x))
    | (with_reducible apply Fit.ite <;> intro _)
    | (with_reducible apply Fit.upd_plk (In.trans (by decide) hL); first | (with_reducible apply Fit.ite <;> intro _) | (fail_if_success split)))

theorem onHead_fit {L : Nat} {s0 : State} {b : Bool} {f : Head → Head} {s : State} (hL : In 0x40000 L) (h0 : Fit L s0 s) :
    Fit L s0 (onHead b f s) := by
  unfold onHead
  repeat' (first
    | with_reducible assumption
    | (extract_lets +onlyGivenNames x; have y := x; first | (guard_hyp y : State; clear y; refine Fit.seq L s0 x ?_ ?_; rotate_left; intro hx; clear_value x; rotate_left; dsimp -zeta only [x]; clear x) | (clear y; clear_value x))
    | (with_reducible apply Fit.ite <;> intro _)
    | (with_reducible apply Fit.upd_scn (In.trans (by decide) hL); first | (with_reducible apply Fit.ite <;> intro _) | (fail_if_success split)))

theorem sendDark_fit {L : Nat} {s0 : State} {b : Bool} {reason : Nat} {s : State} (hL : In 0x402 L) (h0 : Fit L s0 s) :
    Fit L s0 (sendDark b reason s) := by
  unfold sendDark
  repeat' (first
    | with_reducible assumption
    | with_reducible apply emit_fit (In.trans (by decide) hL))

theorem reclaim_fit {L : Nat} {s0 : State} {b : Bool} {s : State} (hL : In 0x80200 L) (h0 : Fit L s0 s) :
    Fit L s0 (reclaim b s) := by
  unfold reclaim
  repeat' (first
    | with_reducible assumption
    | intro _
    | (extract_lets +onlyGivenNames x; have y := x; first | (guard_hyp y : State; clear y; refine Fit.seq L s0 x ?_ ?_; rotate_left; intro hx; clear_value x; rotate_left; dsimp -zeta only [x]; clear x) | (clear y; clear_value x))
    | with_reducible apply move_fit (In.trans (by decide) hL)
    | with_reducible apply onPlk_fit (In.trans (by decide) hL))

theorem linkIdle_fit {L : Nat} {s0 : State} {b : Bool} {s : State} (hL : In 0x80602 L) (h0 : Fit L s0 s) :
    Fit L s0 (linkIdle b s) := by
  unfold linkIdle
  repeat' (first
    | with_reducible assumption
    | intro _
    | (extract_lets +onlyGivenNames x; have y := x; first | (guard_hyp y : State; clear y; refine Fit.seq L s0 x ?_ ?_; rotate_left; intro hx; clear_value x; rotate_left; dsimp -zeta only [x]; clear x) | (clear y; clear_value x))
    | with_reducible apply emit_fit (In.trans (by decide) hL)
    | with_reducible apply onPlk_fit (In.trans (by decide) hL)
    | with_reducible apply reclaim_fit (In.trans (by decide) hL))

theorem judgeModel_fit {L : Nat} {s0 : State} {b : Bool} {s : State} (hL : In 0x880C02 L) (h0 : Fit L s0 s) :
    Fit L s0 (judgeModel b s) := by
  unfold judgeModel
  repeat' (first
    | with_reducible assumption
    | (extract_lets +onlyGivenNames x; have y := x; first | (guard_hyp y : State; clear y; refine Fit.seq L s0 x ?_ ?_; rotate_left; intro hx; clear_value x; rotate_left; dsimp -zeta only [x]; clear x) | (clear y; clear_value x))
    | with_reducible apply raise_fit (In.trans (by decide) hL)
    | (with_reducible apply Fit.ite <;> intro _)
    | (with_reducible apply Fit.upd_plk (In.trans (by decide) hL); first | (with_reducible apply Fit.ite <;> intro _) | (fail_if_success split))
    | split)

theorem judgeCap_fit {L : Nat} {s0 : State} {b : Bool} {s : State} (hL : In 0x800C02 L) (h0 : Fit L s0 s) :
    Fit L s0 (judgeCap b s) := by
  unfold judgeCap
  repeat' (first
    | with_reducible assumption
    | (extract_lets +onlyGivenNames x; have y := x; first | (guard_hyp y : State; clear y; refine Fit.seq L s0 x ?_ ?_; rotate_left; intro hx; clear_value x; rotate_left; dsimp -zeta only [x]; clear x) | (clear y; clear_value x))
    | with_reducible apply raise_fit (In.trans (by decide) hL)
    | (with_reducible apply Fit.ite <;> intro _)
    | split)

theorem startTrain_fit {L : Nat} {s0 : State} {b : Bool} {rate : Nat} {second : Bool} {s : State} (hL : In 0x880E02 L) (h0 : Fit L s0 s) :
    Fit L s0 (startTrain b rate second s) := by
  unfold startTrain
  repeat' (first
    | with_reducible assumption
    | intro _
    | (extract_lets +onlyGivenNames x; have y := x; first | (guard_hyp y : State; clear y; refine Fit.seq L s0 x ?_ ?_; rotate_left; intro hx; clear_value x; rotate_left; dsimp -zeta only [x]; clear x) | (clear y; clear_value x))
    | with_reducible apply onPlk_fit (In.trans (by decide) hL)
    | with_reducible apply reclaim_fit (In.trans (by decide) hL)
    | with_reducible apply judgeModel_fit (In.trans (by decide) hL)
    | with_reducible apply judgeCap_fit (In.trans (by decide) hL))

theorem linkCmdHalf_fit {L : Nat} {s0 : State} {b trained : Bool} {s : State} (hL : In 0x880E02 L) (h0 : Fit L s0 s) :
    Fit L s0 (linkCmdHalf b trained s) := by
  unfold linkCmdHalf
  repeat' (first
    | with_reducible assumption
    | (extract_lets +onlyGivenNames x; have y := x; first | (guard_hyp y : State; clear y; refine Fit.seq L s0 x ?_ ?_; rotate_left; intro hx; clear_value x; rotate_left; dsimp -zeta only [x]; clear x) | (guard_hyp y : CmdSt; clear y; dsimp -zeta only [x]; clear x) | (clear y; clear_value x))
    | with_reducible apply finish_fit (In.trans (by decide) hL)
    | (with_reducible apply Fit.ite <;> intro _)
    | (with_reducible apply Fit.upd_plk (In.trans (by decide) hL); first | (with_reducible apply Fit.ite <;> intro _) | (fail_if_success split))
    | split)

theorem endLinkCmd_fit {L : Nat} {s0 : State} {st : Nat} {s : State} (hL : In 0x880E02 L) (h0 : Fit L s0 s) :
    Fit L s0 (endLinkCmd st s) := by
  unfold endLinkCmd
  repeat' (first
    | with_reducible assumption
    | (extract_lets +onlyGivenNames x; have y := x; first | (guard_hyp y : State; clear y; refine Fit.seq L s0 x ?_ ?_; rotate_left; intro hx; clear_value x; rotate_left; dsimp -zeta only [x]; clear x) | (guard_hyp y : CmdSt; clear y; dsimp -zeta only [x]; clear x) | (clear y; clear_value x))
    | with_reducible apply finish_fit (In.trans (by decide) hL)
    | (with_reducible apply Fit.ite <;> intro _)
    | (with_reducible apply Fit.upd_plk (In.trans (by decide) hL); first | (with_reducible apply Fit.ite <;> intro _) | (fail_if_success split))
    | split)

theorem linksIdle_fit {L : Nat} {s0 : State} {st : Nat} {s : State} (hL : In 0x880E02 L) (h0 : Fit L s0 s) :
    Fit L s0 (linksIdle st s) := by
  unfold linksIdle
  repeat' (first
    | with_reducible assumption
    | intro _
    | with_reducible apply linkIdle_fit (In.trans (by decide) hL)
    | with_reducible apply endLinkCmd_fit (In.trans (by decide) hL)
    | (with_reducible apply Fit.ite <;> intro _)
    | (with_reducible apply Fit.foldl)
    | split)

theorem beginAttempt_fit {L : Nat} {s0 : State} {b : Bool} {s : State} (hL : In 0x80602 L) (h0 : Fit L s0 s) :
    Fit L s0 (beginAttempt b s) := by
  unfold beginAttempt
  repeat' (first
    | with_reducible assumption
    | intro _
    | (extract_lets +onlyGivenNames x; have y := x; first | (guard_hyp y : State; clear y; refine Fit.seq L s0 x ?_ ?_; rotate_left; intro hx; clear_value x; rotate_left; dsimp -zeta only [x]; clear x) | (clear y; clear_value x))
    | with_reducible apply emit_fit (In.trans (by decide) hL)
    | with_reducible apply onPlk_fit (In.trans (by decide) hL)
    | with_reducible apply reclaim_fit (In.trans (by decide) hL)
    | split)

theorem retrainDark_fit {L : Nat} {s0 : State} {s : State} (hL : In 0x880E02 L) (h0 : Fit L s0 s) :
    Fit L s0 (retrainDark s) := by
  unfold retrainDark
  repeat' (first
    | with_reducible assumption
    | intro _
    | (extract_lets +onlyGivenNames x; have y := x; first | (guard_hyp y : State; clear y; refine Fit.seq L s0 x ?_ ?_; rotate_left; intro hx; clear_value x; rotate_left; dsimp -zeta only [x]; clear x) | (clear y; clear_value x))
    | with_reducible apply startTrain_fit (In.trans (by decide) hL)
    | (with_reducible apply Fit.ite <;> intro _)
    | (with_reducible apply Fit.foldl)
    | split)

theorem sendRow_fit {L : Nat} {s0 : State} {b : Bool} {j : RowJob} {s : State} (hL : In 0x80602 L) (h0 : Fit L s0 s) :
    Fit L s0 (sendRow b j s) := by
  unfold sendRow
  repeat' (first
    | with_reducible assumption
    | intro _
    | (extract_lets +onlyGivenNames x; have y := x; first | (guard_hyp y : State; clear y; refine Fit.seq L s0 x ?_ ?_; rotate_left; intro hx; clear_value x; rotate_left; dsimp -zeta only [x]; clear x) | (clear y; clear_value x))
    | with_reducible apply emit_fit (In.trans (by decide) hL)
    | with_reducible apply move_fit (In.trans (by decide) hL)
    | with_reducible apply onPlk_fit (In.trans (by decide) hL))

theorem pumpN_fit {L : Nat} {s0 : State} {n : Nat} {b : Bool} {t : Nat} {s : State} (hL : In 0x880E02 L) (h : Fit L s0 s) :
    Fit L s0 (pumpN n b t s) := by
  induction n generalizing s with
  | zero => exact h
  | succ n ih =>
    unfold pumpN; dsimp only []; split
    · exact h
    · refine Fit.ite (fun _ => h) (fun _ => Fit.ite (fun _ => Fit.ite (fun _ => h) (fun _ => ?_))
        (fun _ => ih (sendRow_fit (In.trans (by decide) hL) h)))
      exact raise_fit (In.trans (by decide) hL) (onPlk_fit (In.trans (by decide) hL) h)

theorem pump_fit {L : Nat} {s0 : State} {b : Bool} {s : State} (hL : In 0x880E02 L) (h0 : Fit L s0 s) :
    Fit L s0 (pump b s) := by
  unfold pump
  repeat' (first
    | with_reducible assumption
    | with_reducible apply pumpN_fit (In.trans (by decide) hL))

theorem loseRow_fit {L : Nat} {s0 : State} {b : Bool} {s : State} (hL : In 0x880C02 L) (h0 : Fit L s0 s) :
    Fit L s0 (loseRow b s) := by
  unfold loseRow
  repeat' (first
    | with_reducible assumption
    | intro _
    | (extract_lets +onlyGivenNames x; have y := x; first | (guard_hyp y : State; clear y; refine Fit.seq L s0 x ?_ ?_; rotate_left; intro hx; clear_value x; rotate_left; dsimp -zeta only [x]; clear x) | (clear y; clear_value x))
    | with_reducible apply raise_fit (In.trans (by decide) hL)
    | with_reducible apply onPlk_fit (In.trans (by decide) hL))

theorem resendRow_fit {L : Nat} {s0 : State} {b : Bool} {j : RowJob} {s : State} (hL : In 0x880E02 L) (h0 : Fit L s0 s) :
    Fit L s0 (resendRow b j s) := by
  unfold resendRow
  repeat' (first
    | with_reducible assumption
    | intro _
    | (extract_lets +onlyGivenNames x; have y := x; first | (guard_hyp y : State; clear y; refine Fit.seq L s0 x ?_ ?_; rotate_left; intro hx; clear_value x; rotate_left; dsimp -zeta only [x]; clear x) | (clear y; clear_value x))
    | with_reducible apply raise_fit (In.trans (by decide) hL)
    | with_reducible apply onPlk_fit (In.trans (by decide) hL)
    | with_reducible apply pump_fit (In.trans (by decide) hL)
    | with_reducible apply loseRow_fit (In.trans (by decide) hL)
    | (with_reducible apply Fit.ite <;> intro _)
    | split)

theorem closeSlots_fit {L : Nat} {s0 : State} {b : Bool} {s : State} (hL : In 0x880E02 L) (h0 : Fit L s0 s) :
    Fit L s0 (closeSlots b s) := by
  unfold closeSlots
  repeat' (first
    | with_reducible assumption
    | intro _
    | (extract_lets +onlyGivenNames x; have y := x; first | (guard_hyp y : State; clear y; refine Fit.seq L s0 x ?_ ?_; rotate_left; intro hx; clear_value x; rotate_left; dsimp -zeta only [x]; clear x) | (clear y; clear_value x))
    | with_reducible apply onPlk_fit (In.trans (by decide) hL)
    | with_reducible apply pump_fit (In.trans (by decide) hL)
    | with_reducible apply loseRow_fit (In.trans (by decide) hL)
    | (with_reducible apply Fit.foldl))

theorem queueRows_fit {L : Nat} {s0 : State} {b : Bool} {js : List RowJob} {s : State} (hL : In 0x880E02 L) (h0 : Fit L s0 s) :
    Fit L s0 (queueRows b js s) := by
  unfold queueRows
  repeat' (first
    | with_reducible assumption
    | intro _
    | (extract_lets +onlyGivenNames x; have y := x; first | (guard_hyp y : State; clear y; refine Fit.seq L s0 x ?_ ?_; rotate_left; intro hx; clear_value x; rotate_left; dsimp -zeta only [x]; clear x) | (clear y; clear_value x))
    | with_reducible apply onPlk_fit (In.trans (by decide) hL)
    | with_reducible apply pump_fit (In.trans (by decide) hL))

theorem creditBack_fit {L : Nat} {s0 : State} {b : Bool} {s : State} (hL : In 0x200 L) (h0 : Fit L s0 s) :
    Fit L s0 (creditBack b s) := by
  unfold creditBack
  repeat' (first
    | with_reducible assumption
    | with_reducible apply move_fit (In.trans (by decide) hL))

end Sys2Proof.Machine
end

