-- ==== Sys2Proof/Laws/FitSceneOps.lean ====
section
/-! SUPPORT. What each definition of Machine/SceneOps.lean touches, and that it keeps the invariant: one lemma each. -/

set_option Elab.async false
set_option linter.all false

namespace Sys2Proof.Machine

theorem setSess_fit {L : Nat} {s0 : State} {i : Nat} {x : Option Session} {s : State} (hL : In 0x4000 L) (h0 : Fit L s0 s) :
    Fit L s0 (setSess i x s) := by
  unfold setSess
  repeat' (first
    | with_reducible assumption
    | (extract_lets +onlyGivenNames x; have y := x; first | (guard_hyp y : State; clear y; refine Fit.seq L s0 x ?_ ?_; rotate_left; intro hx; clear_value x; rotate_left; dsimp -zeta only [x]; clear x) | (clear y; clear_value x))
    | (with_reducible apply Fit.upd_scene (In.trans (by decide) hL); first | (with_reducible apply Fit.ite <;> intro _) | (fail_if_success split)))

theorem onSess_fit {L : Nat} {s0 : State} {i : Nat} {f : Session → Session} {s : State} (hL : In 0x4000 L) (h0 : Fit L s0 s) :
    Fit L s0 (onSess i f s) := by
  unfold onSess
  repeat' (first
    | with_reducible assumption
    | with_reducible apply setSess_fit (In.trans (by decide) hL))

theorem onStat_fit {L : Nat} {s0 : State} {i : Nat} {f : SessStat → SessStat} {s : State} (hL : In 0x4000 L) (h0 : Fit L s0 s) :
    Fit L s0 (onStat i f s) := by
  unfold onStat
  repeat' (first
    | with_reducible assumption
    | (extract_lets +onlyGivenNames x; have y := x; first | (guard_hyp y : State; clear y; refine Fit.seq L s0 x ?_ ?_; rotate_left; intro hx; clear_value x; rotate_left; dsimp -zeta only [x]; clear x) | (clear y; clear_value x))
    | (with_reducible apply Fit.upd_scene (In.trans (by decide) hL); first | (with_reducible apply Fit.ite <;> intro _) | (fail_if_success split)))

theorem onMpi_fit {L : Nat} {s0 : State} {i : Nat} {f : MpiSlot → MpiSlot} {s : State} (hL : In 0x4000 L) (h0 : Fit L s0 s) :
    Fit L s0 (onMpi i f s) := by
  unfold onMpi
  repeat' (first
    | with_reducible assumption
    | (extract_lets +onlyGivenNames x; have y := x; first | (guard_hyp y : State; clear y; refine Fit.seq L s0 x ?_ ?_; rotate_left; intro hx; clear_value x; rotate_left; dsimp -zeta only [x]; clear x) | (clear y; clear_value x))
    | (with_reducible apply Fit.upd_scene (In.trans (by decide) hL); first | (with_reducible apply Fit.ite <;> intro _) | (fail_if_success split)))

theorem setOcc_fit {L : Nat} {s0 : State} {i p t : Nat} {b : Bool} {s : State} (hL : In 0x4000 L) (h0 : Fit L s0 s) :
    Fit L s0 (setOcc i p t b s) := by
  unfold setOcc
  repeat' (first
    | with_reducible assumption
    | intro _
    | (extract_lets +onlyGivenNames x; have y := x; first | (guard_hyp y : State; clear y; refine Fit.seq L s0 x ?_ ?_; rotate_left; intro hx; clear_value x; rotate_left; dsimp -zeta only [x]; clear x) | (clear y; clear_value x))
    | with_reducible apply onMpi_fit (In.trans (by decide) hL)
    | (with_reducible apply Fit.ite <;> intro _)
    | split)

theorem putTile_fit {L : Nat} {s0 : State} {d : PanelDesc} {i p t : Nat} {bs : List Byte} {s : State} (hL : In 0x5000 L) (h0 : Fit L s0 s) :
    Fit L s0 (putTile d i p t bs s) := by
  unfold putTile
  repeat' (first
    | with_reducible assumption
    | intro _
    | (extract_lets +onlyGivenNames x; have y := x; first | (guard_hyp y : State; clear y; refine Fit.seq L s0 x ?_ ?_; rotate_left; intro hx; clear_value x; rotate_left; dsimp -zeta only [x]; clear x) | (clear y; clear_value x))
    | with_reducible apply devWrite_fit (In.trans (by decide) hL)
    | with_reducible apply setOcc_fit (In.trans (by decide) hL)
    | (with_reducible apply Fit.foldl))

theorem copyTile_fit {L : Nat} {s0 : State} {d : PanelDesc} {j i p t : Nat} {s : State} (hL : In 0x5000 L) (h0 : Fit L s0 s) :
    Fit L s0 (copyTile d j i p t s) := by
  unfold copyTile
  repeat' (first
    | with_reducible assumption
    | intro _
    | (extract_lets +onlyGivenNames x; have y := x; first | (guard_hyp y : State; clear y; refine Fit.seq L s0 x ?_ ?_; rotate_left; intro hx; clear_value x; rotate_left; dsimp -zeta only [x]; clear x) | (clear y; clear_value x))
    | with_reducible apply setOcc_fit (In.trans (by decide) hL)
    | with_reducible apply putTile_fit (In.trans (by decide) hL)
    | (with_reducible apply Fit.ite <;> intro _)
    | split)

theorem mpiCollect_fit {L : Nat} {s0 : State} {s : State} (hL : In 0x4200 L) (h0 : Fit L s0 s) :
    Fit L s0 (mpiCollect s) := by
  unfold mpiCollect
  repeat' (first
    | with_reducible assumption
    | intro _
    | (extract_lets +onlyGivenNames x; have y := x; first | (guard_hyp y : State; clear y; refine Fit.seq L s0 x ?_ ?_; rotate_left; intro hx; clear_value x; rotate_left; dsimp -zeta only [x]; clear x) | (clear y; clear_value x))
    | with_reducible apply move_fit (In.trans (by decide) hL)
    | with_reducible apply onMpi_fit (In.trans (by decide) hL)
    | (with_reducible apply Fit.ite <;> intro _)
    | (with_reducible apply Fit.foldl)
    | split)

theorem mpiTo_fit {L : Nat} {s0 : State} {i c : Nat} {s : State} (hL : In 0x4200 L) (h0 : Fit L s0 s) :
    Fit L s0 (mpiTo i c s) := by
  unfold mpiTo
  repeat' (first
    | with_reducible assumption
    | intro _
    | (extract_lets +onlyGivenNames x; have y := x; first | (guard_hyp y : State; clear y; refine Fit.seq L s0 x ?_ ?_; rotate_left; intro hx; clear_value x; rotate_left; dsimp -zeta only [x]; clear x) | (clear y; clear_value x))
    | with_reducible apply move_fit (In.trans (by decide) hL)
    | with_reducible apply onMpi_fit (In.trans (by decide) hL)
    | (with_reducible apply Fit.ite <;> intro _)
    | split)

theorem takeMpi_fit {L : Nat} {s0 : State} {i c : Nat} {disp : List Int} {s : State} (hL : In 0x5200 L) (h0 : Fit L s0 s) :
    Fit L s0 (takeMpi i c disp s) := by
  unfold takeMpi
  repeat' (first
    | with_reducible assumption
    | intro _
    | (extract_lets +onlyGivenNames x; have y := x; first | (guard_hyp y : State; clear y; refine Fit.seq L s0 x ?_ ?_; rotate_left; intro hx; clear_value x; rotate_left; dsimp -zeta only [x]; clear x) | (clear y; clear_value x))
    | with_reducible apply devBlur_fit (In.trans (by decide) hL)
    | with_reducible apply onMpi_fit (In.trans (by decide) hL)
    | with_reducible apply mpiTo_fit (In.trans (by decide) hL))

theorem dropDecode_fit {L : Nat} {s0 : State} {i : Nat} {s : State} (hL : In 0xC200 L) (h0 : Fit L s0 s) :
    Fit L s0 (dropDecode i s) := by
  unfold dropDecode
  repeat' (first
    | with_reducible assumption
    | intro _
    | (extract_lets +onlyGivenNames x; have y := x; first | (guard_hyp y : State; clear y; refine Fit.seq L s0 x ?_ ?_; rotate_left; intro hx; clear_value x; rotate_left; dsimp -zeta only [x]; clear x) | (clear y; clear_value x))
    | with_reducible apply onSess_fit (In.trans (by decide) hL)
    | with_reducible apply mpiCollect_fit (In.trans (by decide) hL)
    | (with_reducible apply Fit.ite <;> intro _)
    | (with_reducible apply Fit.upd_cdc (In.trans (by decide) hL); first | (with_reducible apply Fit.ite <;> intro _) | (fail_if_success split))
    | split)

theorem endSession_fit {L : Nat} {s0 : State} {i reason code : Nat} {s : State} (hL : In 0x80CE02 L) (h0 : Fit L s0 s) :
    Fit L s0 (endSession i reason code s) := by
  unfold endSession
  repeat' (first
    | with_reducible assumption
    | (extract_lets +onlyGivenNames x; have y := x; first | (guard_hyp y : State; clear y; refine Fit.seq L s0 x ?_ ?_; rotate_left; intro hx; clear_value x; rotate_left; dsimp -zeta only [x]; clear x) | (clear y; clear_value x))
    | with_reducible apply raise_fit (In.trans (by decide) hL)
    | with_reducible apply move_fit (In.trans (by decide) hL)
    | with_reducible apply nextGen_fit (In.trans (by decide) hL)
    | with_reducible apply release_fit (In.trans (by decide) hL)
    | with_reducible apply finish_fit (In.trans (by decide) hL)
    | with_reducible apply setSess_fit (In.trans (by decide) hL)
    | with_reducible apply mpiCollect_fit (In.trans (by decide) hL)
    | with_reducible apply dropDecode_fit (In.trans (by decide) hL)
    | (with_reducible apply Fit.ite <;> intro _)
    | split)

theorem endSessions_fit {L : Nat} {s0 : State} {reason : Nat} {s : State} (hL : In 0x80CE02 L) (h0 : Fit L s0 s) :
    Fit L s0 (endSessions reason s) := by
  unfold endSessions
  repeat' (first
    | with_reducible assumption
    | with_reducible apply endSession_fit (In.trans (by decide) hL))

theorem loseDecode_fit {L : Nat} {s0 : State} {i : Nat} {s : State} (hL : In 0xC200 L) (h0 : Fit L s0 s) :
    Fit L s0 (loseDecode i s) := by
  unfold loseDecode
  repeat' (first
    | with_reducible assumption
    | intro _
    | (extract_lets +onlyGivenNames x; have y := x; first | (guard_hyp y : State; clear y; refine Fit.seq L s0 x ?_ ?_; rotate_left; intro hx; clear_value x; rotate_left; dsimp -zeta only [x]; clear x) | (clear y; clear_value x))
    | with_reducible apply onSess_fit (In.trans (by decide) hL)
    | with_reducible apply onStat_fit (In.trans (by decide) hL)
    | with_reducible apply dropDecode_fit (In.trans (by decide) hL)
    | split)

end Sys2Proof.Machine
end

