-- ==== Sys2Proof/Laws/FitSynOps.lean ====
section
/-! SUPPORT. What each definition of Machine/SynOps.lean touches, and that it keeps the invariant: one lemma each. -/

set_option Elab.async false
set_option linter.all false

namespace Sys2Proof.Machine

theorem onSyn_fit {L : Nat} {s0 : State} {f : SynSt → SynSt} {s : State} (hL : In 0x10000 L) (h0 : Fit L s0 s) :
    Fit L s0 (onSyn f s) := by
  unfold onSyn
  repeat' (first
    | with_reducible assumption
    | (extract_lets +onlyGivenNames x; have y := x; first | (guard_hyp y : State; clear y; refine Fit.seq L s0 x ?_ ?_; rotate_left; intro hx; clear_value x; rotate_left; dsimp -zeta only [x]; clear x) | (clear y; clear_value x))
    | (with_reducible apply Fit.upd_syn (In.trans (by decide) hL); first | (with_reducible apply Fit.ite <;> intro _) | (fail_if_success split)))

theorem putStat_fit {L : Nat} {s0 : State} {t : FrameStat} {s : State} (hL : In 0x10000 L) (h0 : Fit L s0 s) :
    Fit L s0 (putStat t s) := by
  unfold putStat
  repeat' (first
    | with_reducible assumption
    | intro _
    | (extract_lets +onlyGivenNames x; have y := x; first | (guard_hyp y : State; clear y; refine Fit.seq L s0 x ?_ ?_; rotate_left; intro hx; clear_value x; rotate_left; dsimp -zeta only [x]; clear x) | (clear y; clear_value x))
    | with_reducible apply onSyn_fit (In.trans (by decide) hL))

theorem onFrameStat_fit {L : Nat} {s0 : State} {k : Nat} {f : FrameStat → FrameStat} {s : State} (hL : In 0x10000 L) (h0 : Fit L s0 s) :
    Fit L s0 (onFrameStat k f s) := by
  unfold onFrameStat
  repeat' (first
    | with_reducible assumption
    | intro _
    | (extract_lets +onlyGivenNames x; have y := x; first | (guard_hyp y : State; clear y; refine Fit.seq L s0 x ?_ ?_; rotate_left; intro hx; clear_value x; rotate_left; dsimp -zeta only [x]; clear x) | (clear y; clear_value x))
    | with_reducible apply onSyn_fit (In.trans (by decide) hL)
    | (with_reducible apply Fit.ite <;> intro _)
    | split)

theorem writeFence_fit {L : Nat} {s0 : State} {lost fence value : Nat} {s : State} (hL : In 0x800C02 L) (h0 : Fit L s0 s) :
    Fit L s0 (writeFence lost fence value s) := by
  unfold writeFence
  repeat' (first
    | with_reducible assumption
    | with_reducible apply emit_fit (In.trans (by decide) hL)
    | with_reducible apply raise_fit (In.trans (by decide) hL)
    | (with_reducible apply Fit.ite <;> intro _))

theorem jobFences_fit {L : Nat} {s0 : State} {k point : Nat} {s : State} (hL : In 0x810C02 L) (h0 : Fit L s0 s) :
    Fit L s0 (jobFences k point s) := by
  unfold jobFences
  repeat' (first
    | with_reducible assumption
    | intro _
    | (extract_lets +onlyGivenNames x; have y := x; first | (guard_hyp y : State; clear y; refine Fit.seq L s0 x ?_ ?_; rotate_left; intro hx; clear_value x; rotate_left; dsimp -zeta only [x]; clear x) | (clear y; clear_value x))
    | with_reducible apply onSyn_fit (In.trans (by decide) hL)
    | with_reducible apply writeFence_fit (In.trans (by decide) hL)
    | (with_reducible apply Fit.foldl))

theorem onFrames_fit {L : Nat} {s0 : State} {f : List Frame → List Frame} {s : State} (hL : In 0x40000 L) (h0 : Fit L s0 s) :
    Fit L s0 (onFrames f s) := by
  unfold onFrames
  repeat' (first
    | with_reducible assumption
    | (extract_lets +onlyGivenNames x; have y := x; first | (guard_hyp y : State; clear y; refine Fit.seq L s0 x ?_ ?_; rotate_left; intro hx; clear_value x; rotate_left; dsimp -zeta only [x]; clear x) | (clear y; clear_value x))
    | (with_reducible apply Fit.upd_scn (In.trans (by decide) hL); first | (with_reducible apply Fit.ite <;> intro _) | (fail_if_success split)))

theorem dropFrame_fit {L : Nat} {s0 : State} {k colA colB : Nat} {s : State} (hL : In 0x40200 L) (h0 : Fit L s0 s) :
    Fit L s0 (dropFrame k colA colB s) := by
  unfold dropFrame
  repeat' (first
    | with_reducible assumption
    | intro _
    | (extract_lets +onlyGivenNames x; have y := x; first | (guard_hyp y : State; clear y; refine Fit.seq L s0 x ?_ ?_; rotate_left; intro hx; clear_value x; rotate_left; dsimp -zeta only [x]; clear x) | (clear y; clear_value x))
    | with_reducible apply move_fit (In.trans (by decide) hL)
    | with_reducible apply onFrames_fit (In.trans (by decide) hL)
    | (with_reducible apply Fit.ite <;> intro _)
    | split)

theorem letJob_fit {L : Nat} {s0 : State} {j : FrameJob} {s : State} (hL : In 0x800E02 L) (h0 : Fit L s0 s) :
    Fit L s0 (letJob j s) := by
  unfold letJob
  repeat' (first
    | with_reducible assumption
    | with_reducible apply release_fit (In.trans (by decide) hL))

theorem dropKept_fit {L : Nat} {s0 : State} {stay : Option FrameJob} {s : State} (hL : In 0x810E02 L) (h0 : Fit L s0 s) :
    Fit L s0 (dropKept stay s) := by
  unfold dropKept
  repeat' (first
    | with_reducible assumption
    | intro _
    | (extract_lets +onlyGivenNames x; have y := x; first | (guard_hyp y : State; clear y; refine Fit.seq L s0 x ?_ ?_; rotate_left; intro hx; clear_value x; rotate_left; dsimp -zeta only [x]; clear x) | (clear y; clear_value x))
    | with_reducible apply onSyn_fit (In.trans (by decide) hL)
    | with_reducible apply letJob_fit (In.trans (by decide) hL)
    | (with_reducible apply Fit.foldl))

theorem endJob_fit {L : Nat} {s0 : State} {j : FrameJob} {v : Verdict} {fence stay : Bool} {s : State} (hL : In 0x800E02 L) (h0 : Fit L s0 s) :
    Fit L s0 (endJob j v fence stay s) := by
  unfold endJob
  repeat' (first
    | with_reducible assumption
    | (extract_lets +onlyGivenNames x; have y := x; first | (guard_hyp y : State; clear y; refine Fit.seq L s0 x ?_ ?_; rotate_left; intro hx; clear_value x; rotate_left; dsimp -zeta only [x]; clear x) | (clear y; clear_value x))
    | with_reducible apply finish_fit (In.trans (by decide) hL)
    | with_reducible apply writeFence_fit (In.trans (by decide) hL)
    | with_reducible apply letJob_fit (In.trans (by decide) hL)
    | (with_reducible apply Fit.ite <;> intro _))

theorem endJobs_fit {L : Nat} {s0 : State} {st : Nat} {fence : Bool} {s : State} (hL : In 0x810E02 L) (h0 : Fit L s0 s) :
    Fit L s0 (endJobs st fence s) := by
  unfold endJobs
  repeat' (first
    | with_reducible assumption
    | intro _
    | (extract_lets +onlyGivenNames x; have y := x; first | (guard_hyp y : State; clear y; refine Fit.seq L s0 x ?_ ?_; rotate_left; intro hx; clear_value x; rotate_left; dsimp -zeta only [x]; clear x) | (clear y; clear_value x))
    | with_reducible apply onSyn_fit (In.trans (by decide) hL)
    | with_reducible apply endJob_fit (In.trans (by decide) hL)
    | (with_reducible apply Fit.foldl))

theorem srcToCumulus_fit {L : Nat} {s0 : State} {f : FSrc} {s : State} (hL : In 0x4200 L) (h0 : Fit L s0 s) :
    Fit L s0 (srcToCumulus f s) := by
  unfold srcToCumulus
  repeat' (first
    | with_reducible assumption
    | (extract_lets +onlyGivenNames x; have y := x; first | (guard_hyp y : State; clear y; refine Fit.seq L s0 x ?_ ?_; rotate_left; intro hx; clear_value x; rotate_left; dsimp -zeta only [x]; clear x) | (clear y; clear_value x))
    | with_reducible apply mpiTo_fit (In.trans (by decide) hL)
    | split)

theorem stopSynth_fit {L : Nat} {s0 : State} {s : State} (hL : In 0x54200 L) (h0 : Fit L s0 s) :
    Fit L s0 (stopSynth s) := by
  unfold stopSynth
  repeat' (first
    | with_reducible assumption
    | intro _
    | (extract_lets +onlyGivenNames x; have y := x; first | (guard_hyp y : State; clear y; refine Fit.seq L s0 x ?_ ?_; rotate_left; intro hx; clear_value x; rotate_left; dsimp -zeta only [x]; clear x) | (clear y; clear_value x))
    | with_reducible apply mpiCollect_fit (In.trans (by decide) hL)
    | with_reducible apply onSyn_fit (In.trans (by decide) hL)
    | with_reducible apply onFrameStat_fit (In.trans (by decide) hL)
    | with_reducible apply dropFrame_fit (In.trans (by decide) hL)
    | split)

theorem endCurJob_fit {L : Nat} {s0 : State} {st : Nat} {fence : Bool} {s : State} (hL : In 0x800E02 L) (h0 : Fit L s0 s) :
    Fit L s0 (endCurJob st fence s) := by
  unfold endCurJob
  repeat' (first
    | with_reducible assumption
    | intro _
    | (extract_lets +onlyGivenNames x; have y := x; first | (guard_hyp y : State; clear y; refine Fit.seq L s0 x ?_ ?_; rotate_left; intro hx; clear_value x; rotate_left; dsimp -zeta only [x]; clear x) | (clear y; clear_value x))
    | with_reducible apply endJob_fit (In.trans (by decide) hL)
    | (with_reducible apply Fit.ite <;> intro _)
    | split)

theorem abandonSyn_fit {L : Nat} {s0 : State} {st : Nat} {fence : Bool} {s : State} (hL : In 0x854E02 L) (h0 : Fit L s0 s) :
    Fit L s0 (abandonSyn st fence s) := by
  unfold abandonSyn
  repeat' (first
    | with_reducible assumption
    | (extract_lets +onlyGivenNames x; have y := x; first | (guard_hyp y : State; clear y; refine Fit.seq L s0 x ?_ ?_; rotate_left; intro hx; clear_value x; rotate_left; dsimp -zeta only [x]; clear x) | (clear y; clear_value x))
    | with_reducible apply dropKept_fit (In.trans (by decide) hL)
    | with_reducible apply endJobs_fit (In.trans (by decide) hL)
    | with_reducible apply stopSynth_fit (In.trans (by decide) hL)
    | with_reducible apply endCurJob_fit (In.trans (by decide) hL))

theorem restartSyn_fit {L : Nat} {s0 : State} {s : State} (hL : In 0x810C02 L) (h0 : Fit L s0 s) :
    Fit L s0 (restartSyn s) := by
  unfold restartSyn
  repeat' (first
    | with_reducible assumption
    | intro _
    | (extract_lets +onlyGivenNames x; have y := x; first | (guard_hyp y : State; clear y; refine Fit.seq L s0 x ?_ ?_; rotate_left; intro hx; clear_value x; rotate_left; dsimp -zeta only [x]; clear x) | (clear y; clear_value x))
    | with_reducible apply raise_fit (In.trans (by decide) hL)
    | with_reducible apply onSyn_fit (In.trans (by decide) hL)
    | split)

theorem synRecheck_fit {L : Nat} {s0 : State} {s : State} (hL : In 0x810C02 L) (h0 : Fit L s0 s) :
    Fit L s0 (synRecheck s) := by
  unfold synRecheck
  repeat' (first
    | with_reducible assumption
    | (extract_lets +onlyGivenNames x; have y := x; first | (guard_hyp y : State; clear y; refine Fit.seq L s0 x ?_ ?_; rotate_left; intro hx; clear_value x; rotate_left; dsimp -zeta only [x]; clear x) | (clear y; clear_value x))
    | with_reducible apply restartSyn_fit (In.trans (by decide) hL)
    | (with_reducible apply Fit.ite <;> intro _)
    | split)

theorem synParamSet_fit {L : Nat} {s0 : State} {id : Nat} {s : State} (hL : In 0x810C02 L) (h0 : Fit L s0 s) :
    Fit L s0 (synParamSet id s) := by
  unfold synParamSet
  repeat' (first
    | with_reducible assumption
    | (extract_lets +onlyGivenNames x; have y := x; first | (guard_hyp y : State; clear y; refine Fit.seq L s0 x ?_ ?_; rotate_left; intro hx; clear_value x; rotate_left; dsimp -zeta only [x]; clear x) | (clear y; clear_value x))
    | with_reducible apply restartSyn_fit (In.trans (by decide) hL)
    | with_reducible apply synRecheck_fit (In.trans (by decide) hL)
    | (with_reducible apply Fit.ite <;> intro _)
    | split)

end Sys2Proof.Machine
end

