-- ==== Sys2Proof/Laws/FitCodecOps.lean ====
section
/-! SUPPORT. What each definition of Machine/CodecOps.lean touches, and that it keeps the invariant: one lemma each. -/

set_option Elab.async false
set_option linter.all false

namespace Sys2Proof.Machine

theorem onCdc_fit {L : Nat} {s0 : State} {f : CdcSt → CdcSt} {s : State} (hL : In 0x8000 L) (h0 : Fit L s0 s) :
    Fit L s0 (onCdc f s) := by
  unfold onCdc
  repeat' (first
    | with_reducible assumption
    | (extract_lets +onlyGivenNames x; have y := x; first | (guard_hyp y : State; clear y; refine Fit.seq L s0 x ?_ ?_; rotate_left; intro hx; clear_value x; rotate_left; dsimp -zeta only [x]; clear x) | (clear y; clear_value x))
    | (with_reducible apply Fit.upd_cdc (In.trans (by decide) hL); first | (with_reducible apply Fit.ite <;> intro _) | (fail_if_success split)))

theorem onJob_fit {L : Nat} {s0 : State} {i : Nat} {f : CodecJob → CodecJob} {s : State} (hL : In 0x8000 L) (h0 : Fit L s0 s) :
    Fit L s0 (onJob i f s) := by
  unfold onJob
  repeat' (first
    | with_reducible assumption
    | intro _
    | (extract_lets +onlyGivenNames x; have y := x; first | (guard_hyp y : State; clear y; refine Fit.seq L s0 x ?_ ?_; rotate_left; intro hx; clear_value x; rotate_left; dsimp -zeta only [x]; clear x) | (clear y; clear_value x))
    | with_reducible apply onCdc_fit (In.trans (by decide) hL)
    | (with_reducible apply Fit.ite <;> intro _)
    | split)

theorem putOutput_fit {L : Nat} {s0 : State} {g : CSeg} {off : Nat} {bs : List Byte} {s : State} (hL : In 0x1402 L) (h0 : Fit L s0 s) :
    Fit L s0 (putOutput g off bs s) := by
  unfold putOutput
  repeat' (first
    | with_reducible assumption
    | (extract_lets +onlyGivenNames x; have y := x; first | (guard_hyp y : State; clear y; refine Fit.seq L s0 x ?_ ?_; rotate_left; intro hx; clear_value x; rotate_left; dsimp -zeta only [x]; clear x) | (clear y; clear_value x))
    | with_reducible apply emit_fit (In.trans (by decide) hL)
    | with_reducible apply devWrite_fit (In.trans (by decide) hL)
    | (with_reducible apply Fit.ite <;> intro _)
    | split)

theorem freeEngine_fit {L : Nat} {s0 : State} {i : Nat} {s : State} (hL : In 0x8000 L) (h0 : Fit L s0 s) :
    Fit L s0 (freeEngine i s) := by
  unfold freeEngine
  repeat' (first
    | with_reducible assumption
    | intro _
    | (extract_lets +onlyGivenNames x; have y := x; first | (guard_hyp y : State; clear y; refine Fit.seq L s0 x ?_ ?_; rotate_left; intro hx; clear_value x; rotate_left; dsimp -zeta only [x]; clear x) | (clear y; clear_value x))
    | with_reducible apply onCdc_fit (In.trans (by decide) hL)
    | (with_reducible apply Fit.ite <;> intro _)
    | split)

theorem freeJob_fit {L : Nat} {s0 : State} {i : Nat} {s : State} (hL : In 0x808E02 L) (h0 : Fit L s0 s) :
    Fit L s0 (freeJob i s) := by
  unfold freeJob
  repeat' (first
    | with_reducible assumption
    | intro _
    | (extract_lets +onlyGivenNames x; have y := x; first | (guard_hyp y : State; clear y; refine Fit.seq L s0 x ?_ ?_; rotate_left; intro hx; clear_value x; rotate_left; dsimp -zeta only [x]; clear x) | (clear y; clear_value x))
    | with_reducible apply move_fit (In.trans (by decide) hL)
    | with_reducible apply nextGen_fit (In.trans (by decide) hL)
    | with_reducible apply releaseOwner_fit (In.trans (by decide) hL)
    | with_reducible apply onCdc_fit (In.trans (by decide) hL)
    | with_reducible apply freeEngine_fit (In.trans (by decide) hL))

theorem jobEnds_fit {L : Nat} {s0 : State} {i st code blk : Nat} {s : State} (hL : In 0x808E02 L) (h0 : Fit L s0 s) :
    Fit L s0 (jobEnds i st code blk s) := by
  unfold jobEnds
  repeat' (first
    | with_reducible assumption
    | (extract_lets +onlyGivenNames x; have y := x; first | (guard_hyp y : State; clear y; refine Fit.seq L s0 x ?_ ?_; rotate_left; intro hx; clear_value x; rotate_left; dsimp -zeta only [x]; clear x) | (clear y; clear_value x))
    | with_reducible apply finish_fit (In.trans (by decide) hL)
    | with_reducible apply freeJob_fit (In.trans (by decide) hL)
    | split)

theorem jobStops_fit {L : Nat} {s0 : State} {i st code blk : Nat} {s : State} (hL : In 0x808E02 L) (h0 : Fit L s0 s) :
    Fit L s0 (jobStops i st code blk s) := by
  unfold jobStops
  repeat' (first
    | with_reducible assumption
    | intro _
    | (extract_lets +onlyGivenNames x; have y := x; first | (guard_hyp y : State; clear y; refine Fit.seq L s0 x ?_ ?_; rotate_left; intro hx; clear_value x; rotate_left; dsimp -zeta only [x]; clear x) | (clear y; clear_value x))
    | with_reducible apply raise_fit (In.trans (by decide) hL)
    | with_reducible apply finish_fit (In.trans (by decide) hL)
    | with_reducible apply onJob_fit (In.trans (by decide) hL)
    | with_reducible apply freeEngine_fit (In.trans (by decide) hL)
    | split)

theorem jobLost_fit {L : Nat} {s0 : State} {i : Nat} {s : State} (hL : In 0x808E02 L) (h0 : Fit L s0 s) :
    Fit L s0 (jobLost i s) := by
  unfold jobLost
  repeat' (first
    | with_reducible assumption
    | with_reducible apply raise_fit (In.trans (by decide) hL)
    | with_reducible apply freeJob_fit (In.trans (by decide) hL))

theorem endJobsAll_fit {L : Nat} {s0 : State} {f : CodecJob → State → State} {s : State} (hL : In 0x808E02 L) (h0 : Fit L s0 s) (h_f : ∀ v0 v1, Fit L s0 v1 → Fit L s0 (f v0 v1)) :
    Fit L s0 (endJobsAll f s) := by
  unfold endJobsAll
  repeat' (first
    | with_reducible assumption
    | intro _
    | with_reducible apply jobLost_fit (In.trans (by decide) hL)
    | with_reducible apply h_f
    | (with_reducible apply Fit.ite <;> intro _)
    | (with_reducible apply Fit.foldl)
    | split)

theorem dataError_fit {L : Nat} {s0 : State} {code : Nat} {s : State} (hL : In 0x808C02 L) (h0 : Fit L s0 s) :
    Fit L s0 (dataError code s) := by
  unfold dataError
  repeat' (first
    | with_reducible assumption
    | intro _
    | (extract_lets +onlyGivenNames x; have y := x; first | (guard_hyp y : State; clear y; refine Fit.seq L s0 x ?_ ?_; rotate_left; intro hx; clear_value x; rotate_left; dsimp -zeta only [x]; clear x) | (clear y; clear_value x))
    | with_reducible apply raise_fit (In.trans (by decide) hL)
    | with_reducible apply onCdc_fit (In.trans (by decide) hL))

theorem countBytes_fit {L : Nat} {s0 : State} {i o : Nat} {s : State} (hL : In 0x8000 L) (h0 : Fit L s0 s) :
    Fit L s0 (countBytes i o s) := by
  unfold countBytes
  repeat' (first
    | with_reducible assumption
    | intro _
    | (extract_lets +onlyGivenNames x; have y := x; first | (guard_hyp y : State; clear y; refine Fit.seq L s0 x ?_ ?_; rotate_left; intro hx; clear_value x; rotate_left; dsimp -zeta only [x]; clear x) | (clear y; clear_value x))
    | with_reducible apply onCdc_fit (In.trans (by decide) hL))

theorem jobMoves_fit {L : Nat} {s0 : State} {i used : Nat} {bs : List Byte} {f : CodecJob → CodecJob} {s : State} (hL : In 0x9402 L) (h0 : Fit L s0 s) :
    Fit L s0 (jobMoves i used bs f s) := by
  unfold jobMoves
  repeat' (first
    | with_reducible assumption
    | intro _
    | (extract_lets +onlyGivenNames x; have y := x; first | (guard_hyp y : State; clear y; refine Fit.seq L s0 x ?_ ?_; rotate_left; intro hx; clear_value x; rotate_left; dsimp -zeta only [x]; clear x) | (clear y; clear_value x))
    | with_reducible apply onJob_fit (In.trans (by decide) hL)
    | with_reducible apply putOutput_fit (In.trans (by decide) hL)
    | with_reducible apply countBytes_fit (In.trans (by decide) hL)
    | split)

theorem afterJobBlock_fit {L : Nat} {s0 : State} {i : Nat} {s : State} (hL : In 0x808E02 L) (h0 : Fit L s0 s) :
    Fit L s0 (afterJobBlock i s) := by
  unfold afterJobBlock
  repeat' (first
    | with_reducible assumption
    | intro _
    | (extract_lets +onlyGivenNames x; have y := x; first | (guard_hyp y : State; clear y; refine Fit.seq L s0 x ?_ ?_; rotate_left; intro hx; clear_value x; rotate_left; dsimp -zeta only [x]; clear x) | (clear y; clear_value x))
    | with_reducible apply onJob_fit (In.trans (by decide) hL)
    | with_reducible apply freeEngine_fit (In.trans (by decide) hL)
    | with_reducible apply jobEnds_fit (In.trans (by decide) hL)
    | with_reducible apply jobStops_fit (In.trans (by decide) hL)
    | (with_reducible apply Fit.ite <;> intro _)
    | split)

theorem compressStep_fit {L : Nat} {s0 : State} {j : CodecJob} {host : List Byte} {s : State} (hL : In 0x809E02 L) (h0 : Fit L s0 s) :
    Fit L s0 (compressStep j host s) := by
  unfold compressStep
  repeat' (first
    | with_reducible assumption
    | intro _
    | (extract_lets +onlyGivenNames x; have y := x; first | (guard_hyp y : State; clear y; refine Fit.seq L s0 x ?_ ?_; rotate_left; intro hx; clear_value x; rotate_left; dsimp -zeta only [x]; clear x) | (clear y; clear_value x))
    | with_reducible apply jobEnds_fit (In.trans (by decide) hL)
    | with_reducible apply jobStops_fit (In.trans (by decide) hL)
    | with_reducible apply jobMoves_fit (In.trans (by decide) hL)
    | with_reducible apply afterJobBlock_fit (In.trans (by decide) hL)
    | (with_reducible apply Fit.ite <;> intro _)
    | split)

theorem decompressStep_fit {L : Nat} {s0 : State} {j : CodecJob} {host : List Byte} {s : State} (hL : In 0x809E02 L) (h0 : Fit L s0 s) :
    Fit L s0 (decompressStep j host s) := by
  unfold decompressStep
  repeat' (first
    | with_reducible assumption
    | intro _
    | (extract_lets +onlyGivenNames x; have y := x; first | (guard_hyp y : State; clear y; refine Fit.seq L s0 x ?_ ?_; rotate_left; intro hx; clear_value x; rotate_left; dsimp -zeta only [x]; clear x) | ((first | (guard_hyp y : _ → State; clear y) | (guard_hyp y : _ → _ → State; clear y) | (guard_hyp y : _ → _ → _ → State; clear y)); dsimp -zeta only [x]; clear x) | (clear y; clear_value x))
    | with_reducible apply jobEnds_fit (In.trans (by decide) hL)
    | with_reducible apply jobStops_fit (In.trans (by decide) hL)
    | with_reducible apply dataError_fit (In.trans (by decide) hL)
    | with_reducible apply jobMoves_fit (In.trans (by decide) hL)
    | with_reducible apply afterJobBlock_fit (In.trans (by decide) hL)
    | (with_reducible apply Fit.ite <;> intro _)
    | split)

theorem cirrusReset_fit {L : Nat} {s0 : State} {s : State} (hL : In 0x80CE02 L) (h0 : Fit L s0 s) :
    Fit L s0 (cirrusReset s) := by
  unfold cirrusReset
  repeat' (first
    | with_reducible assumption
    | intro _
    | (extract_lets +onlyGivenNames x; have y := x; first | (guard_hyp y : State; clear y; refine Fit.seq L s0 x ?_ ?_; rotate_left; intro hx; clear_value x; rotate_left; dsimp -zeta only [x]; clear x) | (clear y; clear_value x))
    | with_reducible apply loseDecode_fit (In.trans (by decide) hL)
    | with_reducible apply onCdc_fit (In.trans (by decide) hL)
    | with_reducible apply jobEnds_fit (In.trans (by decide) hL)
    | (with_reducible apply Fit.ite <;> intro _)
    | (with_reducible apply Fit.foldl)
    | split)

theorem suspendJobs_fit {L : Nat} {s0 : State} {s : State} (hL : In 0x808E02 L) (h0 : Fit L s0 s) :
    Fit L s0 (suspendJobs s) := by
  unfold suspendJobs
  repeat' (first
    | with_reducible assumption
    | intro _
    | with_reducible apply jobStops_fit (In.trans (by decide) hL)
    | (with_reducible apply Fit.ite <;> intro _)
    | (with_reducible apply Fit.foldl)
    | split)

end Sys2Proof.Machine
end

