-- ==== Sys2Proof/Laws/FitCamOps.lean ====
section
/-! SUPPORT. What each definition of Machine/CamOps.lean touches, and that it keeps the invariant: one lemma each. -/

set_option Elab.async false
set_option linter.all false

namespace Sys2Proof.Machine

theorem onCam_fit {L : Nat} {s0 : State} {f : CamSt → CamSt} {s : State} (hL : In 0x20000 L) (h0 : Fit L s0 s) :
    Fit L s0 (onCam f s) := by
  unfold onCam
  repeat' (first
    | with_reducible assumption
    | (extract_lets +onlyGivenNames x; have y := x; first | (guard_hyp y : State; clear y; refine Fit.seq L s0 x ?_ ?_; rotate_left; intro hx; clear_value x; rotate_left; dsimp -zeta only [x]; clear x) | (clear y; clear_value x))
    | (with_reducible apply Fit.upd_cam (In.trans (by decide) hL); first | (with_reducible apply Fit.ite <;> intro _) | (fail_if_success split)))

theorem onPort_fit {L : Nat} {s0 : State} {c : Nat} {f : CamPort → CamPort} {s : State} (hL : In 0x20000 L) (h0 : Fit L s0 s) :
    Fit L s0 (onPort c f s) := by
  unfold onPort
  repeat' (first
    | with_reducible assumption
    | intro _
    | (extract_lets +onlyGivenNames x; have y := x; first | (guard_hyp y : State; clear y; refine Fit.seq L s0 x ?_ ?_; rotate_left; intro hx; clear_value x; rotate_left; dsimp -zeta only [x]; clear x) | (clear y; clear_value x))
    | with_reducible apply onCam_fit (In.trans (by decide) hL))

theorem settlePort_fit {L : Nat} {s0 : State} {c : Nat} {s : State} (hL : In 0x20200 L) (h0 : Fit L s0 s) :
    Fit L s0 (settlePort c s) := by
  unfold settlePort
  repeat' (first
    | with_reducible assumption
    | intro _
    | (extract_lets +onlyGivenNames x; have y := x; first | (guard_hyp y : State; clear y; refine Fit.seq L s0 x ?_ ?_; rotate_left; intro hx; clear_value x; rotate_left; dsimp -zeta only [x]; clear x) | (clear y; clear_value x))
    | with_reducible apply move_fit (In.trans (by decide) hL)
    | with_reducible apply onPort_fit (In.trans (by decide) hL)
    | (with_reducible apply Fit.ite <;> intro _)
    | split)

theorem dropImages_fit {L : Nat} {s0 : State} {c : Nat} {f : CamImage → Bool} {s : State} (hL : In 0x20200 L) (h0 : Fit L s0 s) :
    Fit L s0 (dropImages c f s) := by
  unfold dropImages
  repeat' (first
    | with_reducible assumption
    | intro _
    | (extract_lets +onlyGivenNames x; have y := x; first | (guard_hyp y : State; clear y; refine Fit.seq L s0 x ?_ ?_; rotate_left; intro hx; clear_value x; rotate_left; dsimp -zeta only [x]; clear x) | (clear y; clear_value x))
    | with_reducible apply move_fit (In.trans (by decide) hL)
    | with_reducible apply onPort_fit (In.trans (by decide) hL)
    | with_reducible apply settlePort_fit (In.trans (by decide) hL))

theorem dropAllImages_fit {L : Nat} {s0 : State} {f : CamImage → Bool} {s : State} (hL : In 0x20200 L) (h0 : Fit L s0 s) :
    Fit L s0 (dropAllImages f s) := by
  unfold dropAllImages
  repeat' (first
    | with_reducible assumption
    | intro _
    | with_reducible apply dropImages_fit (In.trans (by decide) hL)
    | (with_reducible apply Fit.foldl))

theorem abandonSweep_fit {L : Nat} {s0 : State} {s : State} (hL : In 0x24200 L) (h0 : Fit L s0 s) :
    Fit L s0 (abandonSweep s) := by
  unfold abandonSweep
  repeat' (first
    | with_reducible assumption
    | intro _
    | (extract_lets +onlyGivenNames x; have y := x; first | (guard_hyp y : State; clear y; refine Fit.seq L s0 x ?_ ?_; rotate_left; intro hx; clear_value x; rotate_left; dsimp -zeta only [x]; clear x) | (clear y; clear_value x))
    | with_reducible apply move_fit (In.trans (by decide) hL)
    | with_reducible apply mpiCollect_fit (In.trans (by decide) hL)
    | with_reducible apply onCam_fit (In.trans (by decide) hL)
    | with_reducible apply settlePort_fit (In.trans (by decide) hL)
    | (with_reducible apply Fit.foldl)
    | split)

theorem dropCapture_fit {L : Nat} {s0 : State} {k : Nat} {s : State} (hL : In 0x24200 L) (h0 : Fit L s0 s) :
    Fit L s0 (dropCapture k s) := by
  unfold dropCapture
  repeat' (first
    | with_reducible assumption
    | intro _
    | (extract_lets +onlyGivenNames x; have y := x; first | (guard_hyp y : State; clear y; refine Fit.seq L s0 x ?_ ?_; rotate_left; intro hx; clear_value x; rotate_left; dsimp -zeta only [x]; clear x) | (clear y; clear_value x))
    | with_reducible apply mpiCollect_fit (In.trans (by decide) hL)
    | with_reducible apply onCam_fit (In.trans (by decide) hL)
    | with_reducible apply dropAllImages_fit (In.trans (by decide) hL)
    | with_reducible apply abandonSweep_fit (In.trans (by decide) hL)
    | (with_reducible apply Fit.ite <;> intro _)
    | split)

theorem dropAllCapture_fit {L : Nat} {s0 : State} {s : State} (hL : In 0x24200 L) (h0 : Fit L s0 s) :
    Fit L s0 (dropAllCapture s) := by
  unfold dropAllCapture
  repeat' (first
    | with_reducible assumption
    | intro _
    | (extract_lets +onlyGivenNames x; have y := x; first | (guard_hyp y : State; clear y; refine Fit.seq L s0 x ?_ ?_; rotate_left; intro hx; clear_value x; rotate_left; dsimp -zeta only [x]; clear x) | (clear y; clear_value x))
    | with_reducible apply mpiCollect_fit (In.trans (by decide) hL)
    | with_reducible apply onCam_fit (In.trans (by decide) hL)
    | with_reducible apply dropAllImages_fit (In.trans (by decide) hL)
    | with_reducible apply abandonSweep_fit (In.trans (by decide) hL))

theorem endI2c_fit {L : Nat} {s0 : State} {c st : Nat} {s : State} (hL : In 0x820E02 L) (h0 : Fit L s0 s) :
    Fit L s0 (endI2c c st s) := by
  unfold endI2c
  repeat' (first
    | with_reducible assumption
    | intro _
    | (extract_lets +onlyGivenNames x; have y := x; first | (guard_hyp y : State; clear y; refine Fit.seq L s0 x ?_ ?_; rotate_left; intro hx; clear_value x; rotate_left; dsimp -zeta only [x]; clear x) | (clear y; clear_value x))
    | with_reducible apply raise_fit (In.trans (by decide) hL)
    | with_reducible apply finish_fit (In.trans (by decide) hL)
    | with_reducible apply onPort_fit (In.trans (by decide) hL)
    | (with_reducible apply Fit.foldl))

theorem portDown_fit {L : Nat} {s0 : State} {c : Nat} {s : State} (hL : In 0x820E02 L) (h0 : Fit L s0 s) :
    Fit L s0 (portDown c s) := by
  unfold portDown
  repeat' (first
    | with_reducible assumption
    | intro _
    | (extract_lets +onlyGivenNames x; have y := x; first | (guard_hyp y : State; clear y; refine Fit.seq L s0 x ?_ ?_; rotate_left; intro hx; clear_value x; rotate_left; dsimp -zeta only [x]; clear x) | (clear y; clear_value x))
    | with_reducible apply onPort_fit (In.trans (by decide) hL)
    | with_reducible apply endI2c_fit (In.trans (by decide) hL))

theorem settlePower_fit {L : Nat} {s0 : State} {s : State} (hL : In 0x820E02 L) (h0 : Fit L s0 s) :
    Fit L s0 (settlePower s) := by
  unfold settlePower
  repeat' (first
    | with_reducible assumption
    | intro _
    | with_reducible apply portDown_fit (In.trans (by decide) hL)
    | (with_reducible apply Fit.ite <;> intro _)
    | (with_reducible apply Fit.foldl)
    | split)

theorem sweepWrite_fit {L : Nat} {s0 : State} {d : PanelDesc} {w : Sweep} {s : State} (hL : In 0x5000 L) (h0 : Fit L s0 s) :
    Fit L s0 (sweepWrite d w s) := by
  unfold sweepWrite
  repeat' (first
    | with_reducible assumption
    | intro _
    | (extract_lets +onlyGivenNames x; have y := x; first | (guard_hyp y : State; clear y; refine Fit.seq L s0 x ?_ ?_; rotate_left; intro hx; clear_value x; rotate_left; dsimp -zeta only [x]; clear x) | (clear y; clear_value x))
    | with_reducible apply setOcc_fit (In.trans (by decide) hL)
    | with_reducible apply putTile_fit (In.trans (by decide) hL)
    | (with_reducible apply Fit.ite <;> intro _)
    | (with_reducible apply Fit.foldl)
    | split)

end Sys2Proof.Machine
end

