-- ==== Sys2Proof/Laws/FitScanoutOps.lean ====
section
/-! SUPPORT. What each definition of Machine/ScanoutOps.lean touches, and that it keeps the invariant: one lemma each. -/

set_option Elab.async false
set_option linter.all false

namespace Sys2Proof.Machine

theorem onScn_fit {L : Nat} {s0 : State} {f : ScnSt → ScnSt} {s : State} (hL : In 0x40000 L) (h0 : Fit L s0 s) :
    Fit L s0 (onScn f s) := by
  unfold onScn
  repeat' (first
    | with_reducible assumption
    | (extract_lets +onlyGivenNames x; have y := x; first | (guard_hyp y : State; clear y; refine Fit.seq L s0 x ?_ ?_; rotate_left; intro hx; clear_value x; rotate_left; dsimp -zeta only [x]; clear x) | (clear y; clear_value x))
    | (with_reducible apply Fit.upd_scn (In.trans (by decide) hL); first | (with_reducible apply Fit.ite <;> intro _) | (fail_if_success split)))

theorem syncHolds_fit {L : Nat} {s0 : State} {b : Bool} {s : State} (hL : In 0x800E02 L) (h0 : Fit L s0 s) :
    Fit L s0 (syncHolds b s) := by
  unfold syncHolds
  repeat' (first
    | with_reducible assumption
    | intro _
    | (extract_lets +onlyGivenNames x; have y := x; first | (guard_hyp y : State; clear y; refine Fit.seq L s0 x ?_ ?_; rotate_left; intro hx; clear_value x; rotate_left; dsimp -zeta only [x]; clear x) | (clear y; clear_value x))
    | with_reducible apply hold_fit (In.trans (by decide) hL)
    | with_reducible apply release_fit (In.trans (by decide) hL)
    | (with_reducible apply Fit.ite <;> intro _)
    | (with_reducible apply Fit.foldl)
    | split)

theorem settleLayers_fit {L : Nat} {s0 : State} {s : State} (hL : In 0x840E02 L) (h0 : Fit L s0 s) :
    Fit L s0 (settleLayers s) := by
  unfold settleLayers
  repeat' (first
    | with_reducible assumption
    | intro _
    | (extract_lets +onlyGivenNames x; have y := x; first | (guard_hyp y : State; clear y; refine Fit.seq L s0 x ?_ ?_; rotate_left; intro hx; clear_value x; rotate_left; dsimp -zeta only [x]; clear x) | (clear y; clear_value x))
    | with_reducible apply onScn_fit (In.trans (by decide) hL)
    | with_reducible apply syncHolds_fit (In.trans (by decide) hL)
    | split)

theorem dropSources_fit {L : Nat} {s0 : State} {idx : Nat} {s : State} (hL : In 0x840E02 L) (h0 : Fit L s0 s) :
    Fit L s0 (dropSources idx s) := by
  unfold dropSources
  repeat' (first
    | with_reducible assumption
    | intro _
    | (extract_lets +onlyGivenNames x; have y := x; first | (guard_hyp y : State; clear y; refine Fit.seq L s0 x ?_ ?_; rotate_left; intro hx; clear_value x; rotate_left; dsimp -zeta only [x]; clear x) | ((first | (guard_hyp y : _ → State; clear y) | (guard_hyp y : _ → _ → State; clear y) | (guard_hyp y : _ → _ → _ → State; clear y)); dsimp -zeta only [x]; clear x) | (clear y; clear_value x))
    | with_reducible apply onScn_fit (In.trans (by decide) hL)
    | with_reducible apply settleLayers_fit (In.trans (by decide) hL)
    | (with_reducible apply Fit.ite <;> intro _)
    | split)

theorem applyWait_fit {L : Nat} {s0 : State} {k : Nat} {w : LayerWait} {s : State} (hL : In 0x840C02 L) (h0 : Fit L s0 s) :
    Fit L s0 (applyWait k w s) := by
  unfold applyWait
  repeat' (first
    | with_reducible assumption
    | intro _
    | (extract_lets +onlyGivenNames x; have y := x; first | (guard_hyp y : State; clear y; refine Fit.seq L s0 x ?_ ?_; rotate_left; intro hx; clear_value x; rotate_left; dsimp -zeta only [x]; clear x) | (clear y; clear_value x))
    | with_reducible apply raise_fit (In.trans (by decide) hL)
    | with_reducible apply onScn_fit (In.trans (by decide) hL)
    | (with_reducible apply Fit.ite <;> intro _)
    | split)

theorem applyWaits_fit {L : Nat} {s0 : State} {k : Nat} {s : State} (hL : In 0x840C02 L) (h0 : Fit L s0 s) :
    Fit L s0 (applyWaits k s) := by
  unfold applyWaits
  repeat' (first
    | with_reducible assumption
    | intro _
    | (extract_lets +onlyGivenNames x; have y := x; first | (guard_hyp y : State; clear y; refine Fit.seq L s0 x ?_ ?_; rotate_left; intro hx; clear_value x; rotate_left; dsimp -zeta only [x]; clear x) | (clear y; clear_value x))
    | with_reducible apply onScn_fit (In.trans (by decide) hL)
    | with_reducible apply applyWait_fit (In.trans (by decide) hL)
    | (with_reducible apply Fit.foldl)
    | split)

theorem endFences_fit {L : Nat} {s0 : State} {k : Nat} {s : State} (hL : In 0x840E02 L) (h0 : Fit L s0 s) :
    Fit L s0 (endFences k s) := by
  unfold endFences
  repeat' (first
    | with_reducible assumption
    | intro _
    | (extract_lets +onlyGivenNames x; have y := x; first | (guard_hyp y : State; clear y; refine Fit.seq L s0 x ?_ ?_; rotate_left; intro hx; clear_value x; rotate_left; dsimp -zeta only [x]; clear x) | (clear y; clear_value x))
    | with_reducible apply writeFence_fit (In.trans (by decide) hL)
    | with_reducible apply onScn_fit (In.trans (by decide) hL)
    | with_reducible apply settleLayers_fit (In.trans (by decide) hL)
    | (with_reducible apply Fit.foldl))

theorem applyWaitsDawn_fit {L : Nat} {s0 : State} {s : State} (hL : In 0x840E02 L) (h0 : Fit L s0 s) :
    Fit L s0 (applyWaitsDawn s) := by
  unfold applyWaitsDawn
  repeat' (first
    | with_reducible assumption
    | intro _
    | (extract_lets +onlyGivenNames x; have y := x; first | (guard_hyp y : State; clear y; refine Fit.seq L s0 x ?_ ?_; rotate_left; intro hx; clear_value x; rotate_left; dsimp -zeta only [x]; clear x) | (clear y; clear_value x))
    | with_reducible apply onScn_fit (In.trans (by decide) hL)
    | with_reducible apply applyWait_fit (In.trans (by decide) hL)
    | with_reducible apply endFences_fit (In.trans (by decide) hL)
    | (with_reducible apply Fit.ite <;> intro _)
    | (with_reducible apply Fit.foldl)
    | split)

theorem clearLayers_fit {L : Nat} {s0 : State} {hostOnly : Bool} {s : State} (hL : In 0x840E02 L) (h0 : Fit L s0 s) :
    Fit L s0 (clearLayers hostOnly s) := by
  unfold clearLayers
  repeat' (first
    | with_reducible assumption
    | intro _
    | (extract_lets +onlyGivenNames x; have y := x; first | (guard_hyp y : State; clear y; refine Fit.seq L s0 x ?_ ?_; rotate_left; intro hx; clear_value x; rotate_left; dsimp -zeta only [x]; clear x) | ((first | (guard_hyp y : CmdSt; clear y) | (guard_hyp y : _ → State; clear y) | (guard_hyp y : _ → _ → State; clear y) | (guard_hyp y : _ → _ → _ → State; clear y)); dsimp -zeta only [x]; clear x) | (clear y; clear_value x))
    | with_reducible apply writeFence_fit (In.trans (by decide) hL)
    | with_reducible apply onScn_fit (In.trans (by decide) hL)
    | with_reducible apply settleLayers_fit (In.trans (by decide) hL)
    | (with_reducible apply Fit.ite <;> intro _)
    | (with_reducible apply Fit.foldl)
    | split)

theorem hostLayersOff_fit {L : Nat} {s0 : State} {s : State} (hL : In 0x840C02 L) (h0 : Fit L s0 s) :
    Fit L s0 (hostLayersOff s) := by
  unfold hostLayersOff
  repeat' (first
    | with_reducible assumption
    | intro _
    | (extract_lets +onlyGivenNames x; have y := x; first | (guard_hyp y : State; clear y; refine Fit.seq L s0 x ?_ ?_; rotate_left; intro hx; clear_value x; rotate_left; dsimp -zeta only [x]; clear x) | ((first | (guard_hyp y : _ → State; clear y) | (guard_hyp y : _ → _ → State; clear y) | (guard_hyp y : _ → _ → _ → State; clear y)); dsimp -zeta only [x]; clear x) | (clear y; clear_value x))
    | with_reducible apply raise_fit (In.trans (by decide) hL)
    | with_reducible apply onHead_fit (In.trans (by decide) hL)
    | with_reducible apply onScn_fit (In.trans (by decide) hL)
    | (with_reducible apply Fit.ite <;> intro _)
    | split)

theorem retireFrame_fit {L : Nat} {s0 : State} {k : Nat} {s : State} (hL : In 0x850E02 L) (h0 : Fit L s0 s) :
    Fit L s0 (retireFrame k s) := by
  unfold retireFrame
  repeat' (first
    | with_reducible assumption
    | intro _
    | (extract_lets +onlyGivenNames x; have y := x; first | (guard_hyp y : State; clear y; refine Fit.seq L s0 x ?_ ?_; rotate_left; intro hx; clear_value x; rotate_left; dsimp -zeta only [x]; clear x) | ((first | (guard_hyp y : _ → State; clear y) | (guard_hyp y : _ → _ → State; clear y) | (guard_hyp y : _ → _ → _ → State; clear y)); dsimp -zeta only [x]; clear x) | (clear y; clear_value x))
    | with_reducible apply onHead_fit (In.trans (by decide) hL)
    | with_reducible apply onSyn_fit (In.trans (by decide) hL)
    | with_reducible apply onFrameStat_fit (In.trans (by decide) hL)
    | with_reducible apply jobFences_fit (In.trans (by decide) hL)
    | with_reducible apply dropFrame_fit (In.trans (by decide) hL))

theorem markHold_fit {L : Nat} {s0 : State} {b on : Bool} {k : Nat} {s : State} (hL : In 0x40000 L) (h0 : Fit L s0 s) :
    Fit L s0 (markHold b on k s) := by
  unfold markHold
  repeat' (first
    | with_reducible assumption
    | intro _
    | (extract_lets +onlyGivenNames x; have y := x; first | (guard_hyp y : State; clear y; refine Fit.seq L s0 x ?_ ?_; rotate_left; intro hx; clear_value x; rotate_left; dsimp -zeta only [x]; clear x) | (clear y; clear_value x))
    | with_reducible apply onFrames_fit (In.trans (by decide) hL)
    | (with_reducible apply Fit.ite <;> intro _)
    | split)

theorem letFrame_fit {L : Nat} {s0 : State} {b : Bool} {k : Nat} {s : State} (hL : In 0x850E02 L) (h0 : Fit L s0 s) :
    Fit L s0 (letFrame b k s) := by
  unfold letFrame
  repeat' (first
    | with_reducible assumption
    | (extract_lets +onlyGivenNames x; have y := x; first | (guard_hyp y : State; clear y; refine Fit.seq L s0 x ?_ ?_; rotate_left; intro hx; clear_value x; rotate_left; dsimp -zeta only [x]; clear x) | (clear y; clear_value x))
    | with_reducible apply retireFrame_fit (In.trans (by decide) hL)
    | with_reducible apply markHold_fit (In.trans (by decide) hL)
    | (with_reducible apply Fit.ite <;> intro _)
    | split)

theorem letBefore_fit {L : Nat} {s0 : State} {b : Bool} {s : State} (hL : In 0x850E02 L) (h0 : Fit L s0 s) :
    Fit L s0 (letBefore b s) := by
  unfold letBefore
  repeat' (first
    | with_reducible assumption
    | intro _
    | (extract_lets +onlyGivenNames x; have y := x; first | (guard_hyp y : State; clear y; refine Fit.seq L s0 x ?_ ?_; rotate_left; intro hx; clear_value x; rotate_left; dsimp -zeta only [x]; clear x) | (clear y; clear_value x))
    | with_reducible apply onHead_fit (In.trans (by decide) hL)
    | with_reducible apply letFrame_fit (In.trans (by decide) hL)
    | (with_reducible apply Fit.ite <;> intro _)
    | (with_reducible apply Fit.foldl)
    | split)

theorem letAll_fit {L : Nat} {s0 : State} {b : Bool} {s : State} (hL : In 0x850E02 L) (h0 : Fit L s0 s) :
    Fit L s0 (letAll b s) := by
  unfold letAll
  repeat' (first
    | with_reducible assumption
    | intro _
    | (extract_lets +onlyGivenNames x; have y := x; first | (guard_hyp y : State; clear y; refine Fit.seq L s0 x ?_ ?_; rotate_left; intro hx; clear_value x; rotate_left; dsimp -zeta only [x]; clear x) | (clear y; clear_value x))
    | with_reducible apply onHead_fit (In.trans (by decide) hL)
    | with_reducible apply letBefore_fit (In.trans (by decide) hL))

theorem retireUnseen_fit {L : Nat} {s0 : State} {k : Nat} {s : State} (hL : In 0x850E02 L) (h0 : Fit L s0 s) :
    Fit L s0 (retireUnseen k s) := by
  unfold retireUnseen
  repeat' (first
    | with_reducible assumption
    | intro _
    | with_reducible apply retireFrame_fit (In.trans (by decide) hL)
    | (with_reducible apply Fit.foldl))

theorem dropFrames_fit {L : Nat} {s0 : State} {fences : Bool} {s : State} (hL : In 0x850E02 L) (h0 : Fit L s0 s) :
    Fit L s0 (dropFrames fences s) := by
  unfold dropFrames
  repeat' (first
    | with_reducible assumption
    | intro _
    | (extract_lets +onlyGivenNames x; have y := x; first | (guard_hyp y : State; clear y; refine Fit.seq L s0 x ?_ ?_; rotate_left; intro hx; clear_value x; rotate_left; dsimp -zeta only [x]; clear x) | ((first | (guard_hyp y : _ → State; clear y) | (guard_hyp y : _ → _ → State; clear y) | (guard_hyp y : _ → _ → _ → State; clear y)); dsimp -zeta only [x]; clear x) | (clear y; clear_value x))
    | with_reducible apply onHead_fit (In.trans (by decide) hL)
    | with_reducible apply onSyn_fit (In.trans (by decide) hL)
    | with_reducible apply onFrameStat_fit (In.trans (by decide) hL)
    | with_reducible apply jobFences_fit (In.trans (by decide) hL)
    | with_reducible apply dropFrame_fit (In.trans (by decide) hL)
    | with_reducible apply retireFrame_fit (In.trans (by decide) hL)
    | (with_reducible apply Fit.ite <;> intro _)
    | (with_reducible apply Fit.foldl)
    | split)

theorem bgEvent_fit {L : Nat} {s0 : State} {b : Bool} {k : Nat} {s : State} (hL : In 0x840C06 L) (h0 : Fit L s0 s) :
    Fit L s0 (bgEvent b k s) := by
  unfold bgEvent
  repeat' (first
    | with_reducible assumption
    | intro _
    | (extract_lets +onlyGivenNames x; have y := x; first | (guard_hyp y : State; clear y; refine Fit.seq L s0 x ?_ ?_; rotate_left; intro hx; clear_value x; rotate_left; dsimp -zeta only [x]; clear x) | (clear y; clear_value x))
    | with_reducible apply drawn_fit (In.trans (by decide) hL)
    | with_reducible apply raise_fit (In.trans (by decide) hL)
    | with_reducible apply onHead_fit (In.trans (by decide) hL))

theorem setShow_fit {L : Nat} {s0 : State} {b : Bool} {k : Nat} {w : Show} {s : State} (hL : In 0x40000 L) (h0 : Fit L s0 s) :
    Fit L s0 (setShow b k w s) := by
  unfold setShow
  repeat' (first
    | with_reducible assumption
    | intro _
    | (extract_lets +onlyGivenNames x; have y := x; first | (guard_hyp y : State; clear y; refine Fit.seq L s0 x ?_ ?_; rotate_left; intro hx; clear_value x; rotate_left; dsimp -zeta only [x]; clear x) | (clear y; clear_value x))
    | with_reducible apply onHead_fit (In.trans (by decide) hL)
    | with_reducible apply markHold_fit (In.trans (by decide) hL)
    | split)

theorem chooseLit_fit {L : Nat} {s0 : State} {b : Bool} {k : Nat} {s : State} (hL : In 0x840C06 L) (h0 : Fit L s0 s) :
    Fit L s0 (chooseLit b k s) := by
  unfold chooseLit
  repeat' (first
    | with_reducible assumption
    | intro _
    | (extract_lets +onlyGivenNames x; have y := x; first | (guard_hyp y : State; clear y; refine Fit.seq L s0 x ?_ ?_; rotate_left; intro hx; clear_value x; rotate_left; dsimp -zeta only [x]; clear x) | (clear y; clear_value x))
    | with_reducible apply raise_fit (In.trans (by decide) hL)
    | with_reducible apply onHead_fit (In.trans (by decide) hL)
    | with_reducible apply bgEvent_fit (In.trans (by decide) hL)
    | with_reducible apply setShow_fit (In.trans (by decide) hL)
    | (with_reducible apply Fit.ite <;> intro _)
    | split)

theorem chooseDark_fit {L : Nat} {s0 : State} {b : Bool} {k : Nat} {s : State} (hL : In 0x850E02 L) (h0 : Fit L s0 s) :
    Fit L s0 (chooseDark b k s) := by
  unfold chooseDark
  repeat' (first
    | with_reducible assumption
    | (extract_lets +onlyGivenNames x; have y := x; first | (guard_hyp y : State; clear y; refine Fit.seq L s0 x ?_ ?_; rotate_left; intro hx; clear_value x; rotate_left; dsimp -zeta only [x]; clear x) | (clear y; clear_value x))
    | with_reducible apply letBefore_fit (In.trans (by decide) hL)
    | with_reducible apply setShow_fit (In.trans (by decide) hL)
    | (with_reducible apply Fit.ite <;> intro _)
    | split)

theorem sessionShown_fit {L : Nat} {s0 : State} {i uid k : Nat} {s : State} (hL : In 0x80CE02 L) (h0 : Fit L s0 s) :
    Fit L s0 (sessionShown i uid k s) := by
  unfold sessionShown
  repeat' (first
    | with_reducible assumption
    | intro _
    | (extract_lets +onlyGivenNames x; have y := x; first | (guard_hyp y : State; clear y; refine Fit.seq L s0 x ?_ ?_; rotate_left; intro hx; clear_value x; rotate_left; dsimp -zeta only [x]; clear x) | (clear y; clear_value x))
    | with_reducible apply raise_fit (In.trans (by decide) hL)
    | with_reducible apply onSess_fit (In.trans (by decide) hL)
    | with_reducible apply onStat_fit (In.trans (by decide) hL)
    | with_reducible apply mpiCollect_fit (In.trans (by decide) hL)
    | with_reducible apply endSession_fit (In.trans (by decide) hL)
    | (with_reducible apply Fit.ite <;> intro _)
    | split)

theorem frameShown_fit {L : Nat} {s0 : State} {k : Nat} {s : State} (hL : In 0x81CE02 L) (h0 : Fit L s0 s) :
    Fit L s0 (frameShown k s) := by
  unfold frameShown
  repeat' (first
    | with_reducible assumption
    | intro _
    | (extract_lets +onlyGivenNames x; have y := x; first | (guard_hyp y : State; clear y; refine Fit.seq L s0 x ?_ ?_; rotate_left; intro hx; clear_value x; rotate_left; dsimp -zeta only [x]; clear x) | (clear y; clear_value x))
    | with_reducible apply onSyn_fit (In.trans (by decide) hL)
    | with_reducible apply onFrameStat_fit (In.trans (by decide) hL)
    | with_reducible apply jobFences_fit (In.trans (by decide) hL)
    | with_reducible apply sessionShown_fit (In.trans (by decide) hL)
    | split)

theorem readHost_fit {L : Nat} {s0 : State} {d : PanelDesc} {ls : List (Layer × Nat)} {y n : Nat} {s : State} (hL : In 0x402 L) (h0 : Fit L s0 s) :
    Fit L s0 (readHost d ls y n s) := by
  unfold readHost
  repeat' (first
    | with_reducible assumption
    | intro _
    | (extract_lets +onlyGivenNames x; have y := x; first | (guard_hyp y : State; clear y; refine Fit.seq L s0 x ?_ ?_; rotate_left; intro hx; clear_value x; rotate_left; dsimp -zeta only [x]; clear x) | (clear y; clear_value x))
    | with_reducible apply emit_fit (In.trans (by decide) hL)
    | (with_reducible apply Fit.ite <;> intro _)
    | (with_reducible apply Fit.foldl)
    | split)

theorem underruns_fit {L : Nat} {s0 : State} {b : Bool} {w : Show} {ls : List (Layer × Nat)} {f : FetchHalf} {s : State} (hL : In 0x840C02 L) (h0 : Fit L s0 s) :
    Fit L s0 (underruns b w ls f s) := by
  unfold underruns
  repeat' (first
    | with_reducible assumption
    | intro _
    | (extract_lets +onlyGivenNames x; have y := x; first | (guard_hyp y : State; clear y; refine Fit.seq L s0 x ?_ ?_; rotate_left; intro hx; clear_value x; rotate_left; dsimp -zeta only [x]; clear x) | (clear y; clear_value x))
    | with_reducible apply raise_fit (In.trans (by decide) hL)
    | with_reducible apply onHead_fit (In.trans (by decide) hL)
    | (with_reducible apply Fit.ite <;> intro _)
    | (with_reducible apply Fit.foldl)
    | split)

theorem sendRows_fit {L : Nat} {s0 : State} {d : PanelDesc} {b : Bool} {q qi : Nat} {w : Show} {layers : List Layer} {f : FetchHalf} {host : List (Nat × List Byte)} {y n slotEnd : Nat} {s : State} (hL : In 0x8C0E02 L) (h0 : Fit L s0 s) :
    Fit L s0 (sendRows d b q qi w layers f host y n slotEnd s) := by
  unfold sendRows
  repeat' (first
    | with_reducible assumption
    | intro _
    | (extract_lets +onlyGivenNames x; have y := x; first | (guard_hyp y : State; clear y; refine Fit.seq L s0 x ?_ ?_; rotate_left; intro hx; clear_value x; rotate_left; dsimp -zeta only [x]; clear x) | (clear y; clear_value x))
    | with_reducible apply queueRows_fit (In.trans (by decide) hL)
    | with_reducible apply underruns_fit (In.trans (by decide) hL)
    | (with_reducible apply Fit.ite <;> intro _)
    | split)

theorem checkBlock_fit {L : Nat} {s0 : State} {d : PanelDesc} {b : Bool} {w : Show} {k qi : Nat} {crc : Option Nat} {s : State} (hL : In 0x840C02 L) (h0 : Fit L s0 s) :
    Fit L s0 (checkBlock d b w k qi crc s) := by
  unfold checkBlock
  repeat' (first
    | with_reducible assumption
    | intro _
    | (extract_lets +onlyGivenNames x; have y := x; first | (guard_hyp y : State; clear y; refine Fit.seq L s0 x ?_ ?_; rotate_left; intro hx; clear_value x; rotate_left; dsimp -zeta only [x]; clear x) | (clear y; clear_value x))
    | with_reducible apply raise_fit (In.trans (by decide) hL)
    | with_reducible apply onHead_fit (In.trans (by decide) hL)
    | (with_reducible apply Fit.ite <;> intro _)
    | split)

theorem darken_fit {L : Nat} {s0 : State} {b : Bool} {reason : Nat} {s : State} (hL : In 0xC0402 L) (h0 : Fit L s0 s) :
    Fit L s0 (darken b reason s) := by
  unfold darken
  repeat' (first
    | with_reducible assumption
    | intro _
    | (extract_lets +onlyGivenNames x; have y := x; first | (guard_hyp y : State; clear y; refine Fit.seq L s0 x ?_ ?_; rotate_left; intro hx; clear_value x; rotate_left; dsimp -zeta only [x]; clear x) | (clear y; clear_value x))
    | with_reducible apply onPlk_fit (In.trans (by decide) hL)
    | with_reducible apply onHead_fit (In.trans (by decide) hL)
    | with_reducible apply sendDark_fit (In.trans (by decide) hL)
    | (with_reducible apply Fit.ite <;> intro _)
    | split)

theorem lightsOut_fit {L : Nat} {s0 : State} {reason : Nat} {s : State} (hL : In 0x9C0C1A L) (h0 : Fit L s0 s) :
    Fit L s0 (lightsOut reason s) := by
  unfold lightsOut
  repeat' (first
    | with_reducible assumption
    | intro _
    | (extract_lets +onlyGivenNames x; have y := x; first | (guard_hyp y : State; clear y; refine Fit.seq L s0 x ?_ ?_; rotate_left; intro hx; clear_value x; rotate_left; dsimp -zeta only [x]; clear x) | (clear y; clear_value x))
    | with_reducible apply stdDischarge_fit (In.trans (by decide) hL)
    | with_reducible apply onScn_fit (In.trans (by decide) hL)
    | with_reducible apply darken_fit (In.trans (by decide) hL)
    | (with_reducible apply Fit.foldl))

theorem beginDark_fit {L : Nat} {s0 : State} {reason c : Nat} {g : Seg} {s : State} (hL : In 0x840C02 L) (h0 : Fit L s0 s) :
    Fit L s0 (beginDark reason c g s) := by
  unfold beginDark
  repeat' (first
    | with_reducible assumption
    | intro _
    | (extract_lets +onlyGivenNames x; have y := x; first | (guard_hyp y : State; clear y; refine Fit.seq L s0 x ?_ ?_; rotate_left; intro hx; clear_value x; rotate_left; dsimp -zeta only [x]; clear x) | (clear y; clear_value x))
    | with_reducible apply raise_fit (In.trans (by decide) hL)
    | with_reducible apply onScn_fit (In.trans (by decide) hL))

theorem timeJump_fit {L : Nat} {s0 : State} {s : State} (hL : In 0x9F4E5A L) (h0 : Fit L s0 s) :
    Fit L s0 (timeJump s) := by
  unfold timeJump
  repeat' (first
    | with_reducible assumption
    | intro _
    | (extract_lets +onlyGivenNames x; have y := x; first | (guard_hyp y : State; clear y; refine Fit.seq L s0 x ?_ ?_; rotate_left; intro hx; clear_value x; rotate_left; dsimp -zeta only [x]; clear x) | (clear y; clear_value x))
    | with_reducible apply onSyn_fit (In.trans (by decide) hL)
    | with_reducible apply endJob_fit (In.trans (by decide) hL)
    | with_reducible apply stopSynth_fit (In.trans (by decide) hL)
    | with_reducible apply onCam_fit (In.trans (by decide) hL)
    | with_reducible apply dropAllCapture_fit (In.trans (by decide) hL)
    | with_reducible apply dropFrames_fit (In.trans (by decide) hL)
    | with_reducible apply lightsOut_fit (In.trans (by decide) hL)
    | with_reducible apply beginDark_fit (In.trans (by decide) hL)
    | (with_reducible apply Fit.ite <;> intro _)
    | (with_reducible apply Fit.foldl)
    | (with_reducible apply Fit.upd_mode (In.trans (by decide) hL); first | (with_reducible apply Fit.ite <;> intro _) | (fail_if_success split))
    | split)

theorem scnTimeStep_fit {L : Nat} {s0 : State} {d : Int} {s : State} (hL : In 0x9F4E5A L) (h0 : Fit L s0 s) :
    Fit L s0 (scnTimeStep d s) := by
  unfold scnTimeStep
  repeat' (first
    | with_reducible assumption
    | (extract_lets +onlyGivenNames x; have y := x; first | (guard_hyp y : State; clear y; refine Fit.seq L s0 x ?_ ?_; rotate_left; intro hx; clear_value x; rotate_left; dsimp -zeta only [x]; clear x) | (clear y; clear_value x))
    | with_reducible apply raise_fit (In.trans (by decide) hL)
    | with_reducible apply timeJump_fit (In.trans (by decide) hL)
    | (with_reducible apply Fit.ite <;> intro _))

end Sys2Proof.Machine
end

