-- ==== Sys2Proof/Laws/FitIdle.lean ====
section
/-! SUPPORT. What each definition of Machine/Idle.lean touches, and that it keeps the invariant: one lemma each. -/

set_option Elab.async false
set_option linter.all false

namespace Sys2Proof.Machine

theorem idle_fit {L : Nat} {s0 : State} {s : State} (hL : In 0x840E22 L) (h0 : Fit L s0 s) :
    Fit L s0 (idle s) := by
  unfold idle
  repeat' (first
    | with_reducible assumption
    | with_reducible apply ticks_fit (In.trans (by decide) hL)
    | with_reducible apply applyWaitsDawn_fit (In.trans (by decide) hL))

end Sys2Proof.Machine
end

