-- ==== Sys2Proof/Laws/FitRingOps.lean ====
section
/-! SUPPORT. What each definition of Machine/RingOps.lean touches, and that it keeps the invariant: one lemma each. -/

set_option Elab.async false
set_option linter.all false

namespace Sys2Proof.Machine

theorem freeRingEntries_fit {L : Nat} {s0 : State} {x : Ring} {s : State} (hL : In 0x200 L) (h0 : Fit L s0 s) :
    Fit L s0 (freeRingEntries x s) := by
  unfold freeRingEntries
  repeat' (first
    | with_reducible assumption
    | with_reducible apply move_fit (In.trans (by decide) hL)
    | (with_reducible apply Fit.ite <;> intro _))

theorem ringOff_fit {L : Nat} {s0 : State} {r : Nat} {s : State} (hL : In 0x600 L) (h0 : Fit L s0 s) :
    Fit L s0 (ringOff r s) := by
  unfold ringOff
  repeat' (first
    | with_reducible assumption
    | (extract_lets +onlyGivenNames x; have y := x; first | (guard_hyp y : State; clear y; refine Fit.seq L s0 x ?_ ?_; rotate_left; intro hx; clear_value x; rotate_left; dsimp -zeta only [x]; clear x) | (clear y; clear_value x))
    | with_reducible apply setRing_fit (In.trans (by decide) hL)
    | with_reducible apply freeRingEntries_fit (In.trans (by decide) hL))

theorem linkDown_fit {L : Nat} {s0 : State} {s : State} (hL : In 0xE00 L) (h0 : Fit L s0 s) :
    Fit L s0 (linkDown s) := by
  unfold linkDown
  repeat' (first
    | with_reducible assumption
    | intro _
    | (extract_lets +onlyGivenNames x; have y := x; first | (guard_hyp y : State; clear y; refine Fit.seq L s0 x ?_ ?_; rotate_left; intro hx; clear_value x; rotate_left; dsimp -zeta only [x]; clear x) | ((first | (guard_hyp y : CmdSt; clear y) | (guard_hyp y : EvtSt; clear y) | (guard_hyp y : _ → State; clear y) | (guard_hyp y : _ → _ → State; clear y) | (guard_hyp y : _ → _ → _ → State; clear y)); dsimp -zeta only [x]; clear x) | (clear y; clear_value x))
    | with_reducible apply setRing_fit (In.trans (by decide) hL)
    | with_reducible apply ringOff_fit (In.trans (by decide) hL)
    | (with_reducible apply Fit.ite <;> intro _)
    | (with_reducible apply Fit.foldl)
    | (with_reducible apply Fit.upd_cmd_evt (In.trans (by decide) hL); rotate_left; with_reducible rfl; with_reducible rfl; with_reducible rfl; first | (with_reducible apply Fit.ite <;> intro _) | (fail_if_success split))
    | split)

end Sys2Proof.Machine
end

