-- ==== Sys2Proof/Laws/FitNetBase.lean ====
section
/-! SUPPORT. What each definition of Machine/NetBase.lean touches, and that it keeps the invariant: one lemma each. -/

set_option Elab.async false
set_option linter.all false

namespace Sys2Proof.Machine

theorem onNet_fit {L : Nat} {s0 : State} {f : NetSt → NetSt} {s : State} (hL : In 0x400000 L) (h0 : Fit L s0 s) :
    Fit L s0 (onNet f s) := by
  unfold onNet
  repeat' (first
    | with_reducible assumption
    | (extract_lets +onlyGivenNames x; have y := x; first | (guard_hyp y : State; clear y; refine Fit.seq L s0 x ?_ ?_; rotate_left; intro hx; clear_value x; rotate_left; dsimp -zeta only [x]; clear x) | (clear y; clear_value x))
    | (with_reducible apply Fit.upd_net (In.trans (by decide) hL); first | (with_reducible apply Fit.ite <;> intro _) | (fail_if_success split)))

theorem onNetPort_fit {L : Nat} {s0 : State} {n : Nat} {f : NetPort → NetPort} {s : State} (hL : In 0x400000 L) (h0 : Fit L s0 s) :
    Fit L s0 (onNetPort n f s) := by
  unfold onNetPort
  repeat' (first
    | with_reducible assumption
    | intro _
    | (extract_lets +onlyGivenNames x; have y := x; first | (guard_hyp y : State; clear y; refine Fit.seq L s0 x ?_ ?_; rotate_left; intro hx; clear_value x; rotate_left; dsimp -zeta only [x]; clear x) | (clear y; clear_value x))
    | with_reducible apply onNet_fit (In.trans (by decide) hL))

theorem netCollect_fit {L : Nat} {s0 : State} {s : State} (hL : In 0x400200 L) (h0 : Fit L s0 s) :
    Fit L s0 (netCollect s) := by
  unfold netCollect
  repeat' (first
    | with_reducible assumption
    | intro _
    | (extract_lets +onlyGivenNames x; have y := x; first | (guard_hyp y : State; clear y; refine Fit.seq L s0 x ?_ ?_; rotate_left; intro hx; clear_value x; rotate_left; dsimp -zeta only [x]; clear x) | (clear y; clear_value x))
    | with_reducible apply move_fit (In.trans (by decide) hL)
    | with_reducible apply onNet_fit (In.trans (by decide) hL)
    | (with_reducible apply Fit.foldl))

theorem netFlush_fit {L : Nat} {s0 : State} {s : State} (hL : In 0x400200 L) (h0 : Fit L s0 s) :
    Fit L s0 (netFlush s) := by
  unfold netFlush
  repeat' (first
    | with_reducible assumption
    | intro _
    | (extract_lets +onlyGivenNames x; have y := x; first | (guard_hyp y : State; clear y; refine Fit.seq L s0 x ?_ ?_; rotate_left; intro hx; clear_value x; rotate_left; dsimp -zeta only [x]; clear x) | (clear y; clear_value x))
    | with_reducible apply onNet_fit (In.trans (by decide) hL)
    | with_reducible apply netCollect_fit (In.trans (by decide) hL))

theorem netDrop_fit {L : Nat} {s0 : State} {n : Nat} {s : State} (hL : In 0x400200 L) (h0 : Fit L s0 s) :
    Fit L s0 (netDrop n s) := by
  unfold netDrop
  repeat' (first
    | with_reducible assumption
    | intro _
    | (extract_lets +onlyGivenNames x; have y := x; first | (guard_hyp y : State; clear y; refine Fit.seq L s0 x ?_ ?_; rotate_left; intro hx; clear_value x; rotate_left; dsimp -zeta only [x]; clear x) | (clear y; clear_value x))
    | with_reducible apply onNet_fit (In.trans (by decide) hL)
    | with_reducible apply onNetPort_fit (In.trans (by decide) hL)
    | with_reducible apply netCollect_fit (In.trans (by decide) hL))

theorem netDown_fit {L : Nat} {s0 : State} {n kind : Nat} {s : State} (hL : In 0xC00E02 L) (h0 : Fit L s0 s) :
    Fit L s0 (netDown n kind s) := by
  unfold netDown
  repeat' (first
    | with_reducible assumption
    | with_reducible apply raise_fit (In.trans (by decide) hL)
    | with_reducible apply auditAll_fit (In.trans (by decide) hL)
    | with_reducible apply netDrop_fit (In.trans (by decide) hL)
    | (with_reducible apply Fit.ite <;> intro _))

theorem netModeChange_fit {L : Nat} {s0 : State} {s : State} (hL : In 0xC00E02 L) (h0 : Fit L s0 s) :
    Fit L s0 (netModeChange s) := by
  unfold netModeChange
  repeat' (first
    | with_reducible assumption
    | intro _
    | with_reducible apply netDown_fit (In.trans (by decide) hL)
    | (with_reducible apply Fit.ite <;> intro _)
    | (with_reducible apply Fit.foldl)
    | split)

theorem netReset_fit {L : Nat} {s0 : State} {s : State} (hL : In 0x400200 L) (h0 : Fit L s0 s) :
    Fit L s0 (netReset s) := by
  unfold netReset
  repeat' (first
    | with_reducible assumption
    | intro _
    | (extract_lets +onlyGivenNames x; have y := x; first | (guard_hyp y : State; clear y; refine Fit.seq L s0 x ?_ ?_; rotate_left; intro hx; clear_value x; rotate_left; dsimp -zeta only [x]; clear x) | (clear y; clear_value x))
    | with_reducible apply onNet_fit (In.trans (by decide) hL)
    | with_reducible apply netFlush_fit (In.trans (by decide) hL))

theorem netQuiesce_fit {L : Nat} {s0 : State} {s : State} (hL : In 0xC00E02 L) (h0 : Fit L s0 s) :
    Fit L s0 (netQuiesce s) := by
  unfold netQuiesce
  repeat' (first
    | with_reducible assumption
    | intro _
    | (extract_lets +onlyGivenNames x; have y := x; first | (guard_hyp y : State; clear y; refine Fit.seq L s0 x ?_ ?_; rotate_left; intro hx; clear_value x; rotate_left; dsimp -zeta only [x]; clear x) | (clear y; clear_value x))
    | with_reducible apply emit_fit (In.trans (by decide) hL)
    | with_reducible apply onNet_fit (In.trans (by decide) hL)
    | with_reducible apply netCollect_fit (In.trans (by decide) hL)
    | with_reducible apply netDown_fit (In.trans (by decide) hL)
    | (with_reducible apply Fit.foldl))

theorem netStepped_fit {L : Nat} {s0 : State} {d : Int} {s : State} (hL : In 0xC00C02 L) (h0 : Fit L s0 s) :
    Fit L s0 (netStepped d s) := by
  unfold netStepped
  repeat' (first
    | with_reducible assumption
    | intro _
    | (extract_lets +onlyGivenNames x; have y := x; first | (guard_hyp y : State; clear y; refine Fit.seq L s0 x ?_ ?_; rotate_left; intro hx; clear_value x; rotate_left; dsimp -zeta only [x]; clear x) | (clear y; clear_value x))
    | with_reducible apply raise_fit (In.trans (by decide) hL)
    | with_reducible apply onNetPort_fit (In.trans (by decide) hL)
    | (with_reducible apply Fit.ite <;> intro _)
    | (with_reducible apply Fit.foldl)
    | split)

theorem netPut_fit {L : Nat} {s0 : State} {key : Nat} {bytes : List Byte} {fill : State → State} {s : State} (hL : In 0x1800C02 L) (h0 : Fit L s0 s) (h_fill : ∀ v0, Fit L s0 v0 → Fit L s0 (fill v0)) :
    Fit L s0 (netPut key bytes fill s).1 := by
  unfold netPut
  repeat' (first
    | with_reducible assumption
    | (extract_lets +onlyGivenNames x; have y := x; first | (guard_hyp y : State; clear y; refine Fit.seq L s0 x ?_ ?_; rotate_left; intro hx; clear_value x; rotate_left; dsimp -zeta only [x]; clear x) | (clear y; clear_value x))
    | with_reducible apply nvPut_fit (In.trans (by decide) hL)
    | with_reducible apply h_fill
    | (dsimp -zeta only [id])
    | (with_reducible apply Fit.of_snd; case e => with_reducible assumption)
    | (with_reducible apply Fit.of_fst; case e => with_reducible assumption)
    | split)

theorem netRestore_fit {L : Nat} {s0 : State} {s : State} (hL : In 0x400000 L) (h0 : Fit L s0 s) :
    Fit L s0 (netRestore s) := by
  unfold netRestore
  repeat' (first
    | with_reducible assumption
    | intro _
    | (extract_lets +onlyGivenNames x; have y := x; first | (guard_hyp y : State; clear y; refine Fit.seq L s0 x ?_ ?_; rotate_left; intro hx; clear_value x; rotate_left; dsimp -zeta only [x]; clear x) | (clear y; clear_value x))
    | with_reducible apply onNet_fit (In.trans (by decide) hL)
    | split)

end Sys2Proof.Machine
end

