-- ==== Sys2Proof/Laws/FitMeridianOps.lean ====
section
/-! SUPPORT. What each definition of Machine/MeridianOps.lean touches, and that it keeps the invariant: one lemma each. -/

set_option Elab.async false
set_option linter.all false

namespace Sys2Proof.Machine

theorem setTimeState_fit {L : Nat} {s0 : State} {n : TimeState} {s : State} (hL : In 0x800C22 L) (h0 : Fit L s0 s) :
    Fit L s0 (setTimeState n s) := by
  unfold setTimeState
  repeat' (first
    | with_reducible assumption
    | (extract_lets +onlyGivenNames x; have y := x; first | (guard_hyp y : State; clear y; refine Fit.seq L s0 x ?_ ?_; rotate_left; intro hx; clear_value x; rotate_left; dsimp -zeta only [x]; clear x) | (clear y; clear_value x))
    | with_reducible apply raise_fit (In.trans (by decide) hL)
    | (with_reducible apply Fit.ite <;> intro _)
    | (with_reducible apply Fit.upd_time (In.trans (by decide) hL); first | (with_reducible apply Fit.ite <;> intro _) | (fail_if_success split)))

theorem shiftMer_fit {L : Nat} {s0 : State} {q : Int} {s : State} (hL : In 0x20 L) (h0 : Fit L s0 s) :
    Fit L s0 (shiftMer q s) := by
  unfold shiftMer
  repeat' (first
    | with_reducible assumption
    | (extract_lets +onlyGivenNames x; have y := x; first | (guard_hyp y : State; clear y; refine Fit.seq L s0 x ?_ ?_; rotate_left; intro hx; clear_value x; rotate_left; dsimp -zeta only [x]; clear x) | (clear y; clear_value x))
    | (with_reducible apply Fit.upd_time (In.trans (by decide) hL); first | (with_reducible apply Fit.ite <;> intro _) | (fail_if_success split)))

theorem stepTime_fit {L : Nat} {s0 : State} {q : Int} {cause : Nat} {s : State} (hL : In 0xDF4E7A L) (h0 : Fit L s0 s) :
    Fit L s0 (stepTime q cause s) := by
  unfold stepTime
  repeat' (first
    | with_reducible assumption
    | (extract_lets +onlyGivenNames x; have y := x; first | (guard_hyp y : State; clear y; refine Fit.seq L s0 x ?_ ?_; rotate_left; intro hx; clear_value x; rotate_left; dsimp -zeta only [x]; clear x) | (clear y; clear_value x))
    | with_reducible apply raise_fit (In.trans (by decide) hL)
    | with_reducible apply scnTimeStep_fit (In.trans (by decide) hL)
    | with_reducible apply netStepped_fit (In.trans (by decide) hL)
    | with_reducible apply shiftMer_fit (In.trans (by decide) hL)
    | (with_reducible apply Fit.ite <;> intro _)
    | (with_reducible apply Fit.upd_time (In.trans (by decide) hL); first | (with_reducible apply Fit.ite <;> intro _) | (fail_if_success split)))

theorem endSlew_fit {L : Nat} {s0 : State} {s : State} (hL : In 0x800E22 L) (h0 : Fit L s0 s) :
    Fit L s0 (endSlew s) := by
  unfold endSlew
  repeat' (first
    | with_reducible assumption
    | (extract_lets +onlyGivenNames x; have y := x; first | (guard_hyp y : State; clear y; refine Fit.seq L s0 x ?_ ?_; rotate_left; intro hx; clear_value x; rotate_left; dsimp -zeta only [x]; clear x) | (clear y; clear_value x))
    | with_reducible apply finish_fit (In.trans (by decide) hL)
    | (with_reducible apply Fit.upd_time (In.trans (by decide) hL); first | (with_reducible apply Fit.ite <;> intro _) | (fail_if_success split))
    | split)

theorem setServoFreq_fit {L : Nat} {s0 : State} {f : Int} {s : State} (hL : In 0x800C22 L) (h0 : Fit L s0 s) :
    Fit L s0 (setServoFreq f s) := by
  unfold setServoFreq
  repeat' (first
    | with_reducible assumption
    | (extract_lets +onlyGivenNames x; have y := x; first | (guard_hyp y : State; clear y; refine Fit.seq L s0 x ?_ ?_; rotate_left; intro hx; clear_value x; rotate_left; dsimp -zeta only [x]; clear x) | (clear y; clear_value x))
    | with_reducible apply raise_fit (In.trans (by decide) hL)
    | (with_reducible apply Fit.ite <;> intro _)
    | (with_reducible apply Fit.upd_time (In.trans (by decide) hL); first | (with_reducible apply Fit.ite <;> intro _) | (fail_if_success split)))

theorem judgeLock_fit {L : Nat} {s0 : State} {th : Int} {s : State} (hL : In 0x800C22 L) (h0 : Fit L s0 s) :
    Fit L s0 (judgeLock th s) := by
  unfold judgeLock
  repeat' (first
    | with_reducible assumption
    | (extract_lets +onlyGivenNames x; have y := x; first | (guard_hyp y : State; clear y; refine Fit.seq L s0 x ?_ ?_; rotate_left; intro hx; clear_value x; rotate_left; dsimp -zeta only [x]; clear x) | (clear y; clear_value x))
    | with_reducible apply setTimeState_fit (In.trans (by decide) hL)
    | (with_reducible apply Fit.ite <;> intro _)
    | (with_reducible apply Fit.upd_time (In.trans (by decide) hL); first | (with_reducible apply Fit.ite <;> intro _) | (fail_if_success split)))

theorem measure_fit {L : Nat} {s0 : State} {th : Int} {s : State} (hL : In 0xDF4E7A L) (h0 : Fit L s0 s) :
    Fit L s0 (measure th s) := by
  unfold measure
  repeat' (first
    | with_reducible assumption
    | (extract_lets +onlyGivenNames x; have y := x; first | (guard_hyp y : State; clear y; refine Fit.seq L s0 x ?_ ?_; rotate_left; intro hx; clear_value x; rotate_left; dsimp -zeta only [x]; clear x) | (clear y; clear_value x))
    | with_reducible apply setTimeState_fit (In.trans (by decide) hL)
    | with_reducible apply stepTime_fit (In.trans (by decide) hL)
    | with_reducible apply setServoFreq_fit (In.trans (by decide) hL)
    | with_reducible apply judgeLock_fit (In.trans (by decide) hL)
    | (with_reducible apply Fit.ite <;> intro _)
    | (with_reducible apply Fit.upd_time (In.trans (by decide) hL); first | (with_reducible apply Fit.ite <;> intro _) | (fail_if_success split))
    | split)

theorem lateAction_fit {L : Nat} {s0 : State} {t : Nat} {s : State} (hL : In 0x800C22 L) (h0 : Fit L s0 s) :
    Fit L s0 (lateAction t s) := by
  unfold lateAction
  repeat' (first
    | with_reducible assumption
    | (extract_lets +onlyGivenNames x; have y := x; first | (guard_hyp y : State; clear y; refine Fit.seq L s0 x ?_ ?_; rotate_left; intro hx; clear_value x; rotate_left; dsimp -zeta only [x]; clear x) | (clear y; clear_value x))
    | with_reducible apply raise_fit (In.trans (by decide) hL)
    | (with_reducible apply Fit.ite <;> intro _)
    | (with_reducible apply Fit.upd_time (In.trans (by decide) hL); first | (with_reducible apply Fit.ite <;> intro _) | (fail_if_success split)))

theorem timerEvent_fit {L : Nat} {s0 : State} {t : Timer} {flags : Nat} {s : State} (hL : In 0x800C02 L) (h0 : Fit L s0 s) :
    Fit L s0 (timerEvent t flags s) := by
  unfold timerEvent
  repeat' (first
    | with_reducible assumption
    | with_reducible apply raise_fit (In.trans (by decide) hL))

theorem dropTimer_fit {L : Nat} {s0 : State} {idx : Nat} {s : State} (hL : In 0x220 L) (h0 : Fit L s0 s) :
    Fit L s0 (dropTimer idx s) := by
  unfold dropTimer
  repeat' (first
    | with_reducible assumption
    | intro _
    | (extract_lets +onlyGivenNames x; have y := x; first | (guard_hyp y : State; clear y; refine Fit.seq L s0 x ?_ ?_; rotate_left; intro hx; clear_value x; rotate_left; dsimp -zeta only [x]; clear x) | (clear y; clear_value x))
    | with_reducible apply move_fit (In.trans (by decide) hL)
    | with_reducible apply nextGen_fit (In.trans (by decide) hL)
    | (with_reducible apply Fit.upd_time (In.trans (by decide) hL); first | (with_reducible apply Fit.ite <;> intro _) | (fail_if_success split)))

theorem fireTimer_fit {L : Nat} {s0 : State} {t : Timer} {s : State} (hL : In 0x800E22 L) (h0 : Fit L s0 s) :
    Fit L s0 (fireTimer t s) := by
  unfold fireTimer
  repeat' (first
    | with_reducible assumption
    | intro _
    | (extract_lets +onlyGivenNames x; have y := x; first | (guard_hyp y : State; clear y; refine Fit.seq L s0 x ?_ ?_; rotate_left; intro hx; clear_value x; rotate_left; dsimp -zeta only [x]; clear x) | (clear y; clear_value x))
    | with_reducible apply lateAction_fit (In.trans (by decide) hL)
    | with_reducible apply timerEvent_fit (In.trans (by decide) hL)
    | with_reducible apply dropTimer_fit (In.trans (by decide) hL)
    | (with_reducible apply Fit.ite <;> intro _)
    | (with_reducible apply Fit.upd_time (In.trans (by decide) hL); first | (with_reducible apply Fit.ite <;> intro _) | (fail_if_success split))
    | split)

theorem timersToHorizon_fit {L : Nat} {s0 : State} {s : State} (hL : In 0x800E22 L) (h0 : Fit L s0 s) :
    Fit L s0 (timersToHorizon s) := by
  unfold timersToHorizon
  repeat' (first
    | with_reducible assumption
    | intro _
    | (extract_lets +onlyGivenNames x; have y := x; first | (guard_hyp y : State; clear y; refine Fit.seq L s0 x ?_ ?_; rotate_left; intro hx; clear_value x; rotate_left; dsimp -zeta only [x]; clear x) | (clear y; clear_value x))
    | with_reducible apply timerEvent_fit (In.trans (by decide) hL)
    | with_reducible apply dropTimer_fit (In.trans (by decide) hL)
    | (with_reducible apply Fit.foldl)
    | (with_reducible apply Fit.upd_time (In.trans (by decide) hL); first | (with_reducible apply Fit.ite <;> intro _) | (fail_if_success split)))

theorem recordTime_fit {L : Nat} {s0 : State} {s : State} (hL : In 0x20 L) (h0 : Fit L s0 s) :
    Fit L s0 (recordTime s) := by
  unfold recordTime
  repeat' (first
    | with_reducible assumption
    | (extract_lets +onlyGivenNames x; have y := x; first | (guard_hyp y : State; clear y; refine Fit.seq L s0 x ?_ ?_; rotate_left; intro hx; clear_value x; rotate_left; dsimp -zeta only [x]; clear x) | (clear y; clear_value x))
    | (with_reducible apply Fit.upd_time (In.trans (by decide) hL); first | (with_reducible apply Fit.ite <;> intro _) | (fail_if_success split)))

theorem restoreTime_fit {L : Nat} {s0 : State} {s : State} (hL : In 0x800C22 L) (h0 : Fit L s0 s) :
    Fit L s0 (restoreTime s) := by
  unfold restoreTime
  repeat' (first
    | with_reducible assumption
    | (extract_lets +onlyGivenNames x; have y := x; first | (guard_hyp y : State; clear y; refine Fit.seq L s0 x ?_ ?_; rotate_left; intro hx; clear_value x; rotate_left; dsimp -zeta only [x]; clear x) | (clear y; clear_value x))
    | with_reducible apply raise_fit (In.trans (by decide) hL)
    | with_reducible apply setTimeState_fit (In.trans (by decide) hL)
    | (with_reducible apply Fit.ite <;> intro _)
    | (with_reducible apply Fit.upd_time (In.trans (by decide) hL); first | (with_reducible apply Fit.ite <;> intro _) | (fail_if_success split))
    | split)

theorem setPtp_fit {L : Nat} {s0 : State} {p : Nat} {x : PtpPort} {s : State} (hL : In 0x20 L) (h0 : Fit L s0 s) :
    Fit L s0 (setPtp p x s) := by
  unfold setPtp
  repeat' (first
    | with_reducible assumption
    | (extract_lets +onlyGivenNames x; have y := x; first | (guard_hyp y : State; clear y; refine Fit.seq L s0 x ?_ ?_; rotate_left; intro hx; clear_value x; rotate_left; dsimp -zeta only [x]; clear x) | (clear y; clear_value x))
    | (with_reducible apply Fit.upd_time (In.trans (by decide) hL); first | (with_reducible apply Fit.ite <;> intro _) | (fail_if_success split)))

theorem setPortState_fit {L : Nat} {s0 : State} {p n : Nat} {s : State} (hL : In 0x800C22 L) (h0 : Fit L s0 s) :
    Fit L s0 (setPortState p n s) := by
  unfold setPortState
  repeat' (first
    | with_reducible assumption
    | (extract_lets +onlyGivenNames x; have y := x; first | (guard_hyp y : State; clear y; refine Fit.seq L s0 x ?_ ?_; rotate_left; intro hx; clear_value x; rotate_left; dsimp -zeta only [x]; clear x) | (clear y; clear_value x))
    | with_reducible apply raise_fit (In.trans (by decide) hL)
    | with_reducible apply setPtp_fit (In.trans (by decide) hL)
    | (with_reducible apply Fit.ite <;> intro _))

theorem runBmca_fit {L : Nat} {s0 : State} {s : State} (hL : In 0x800C22 L) (h0 : Fit L s0 s) :
    Fit L s0 (runBmca s) := by
  unfold runBmca
  repeat' (first
    | with_reducible assumption
    | intro _
    | (extract_lets +onlyGivenNames x; have y := x; first | (guard_hyp y : State; clear y; refine Fit.seq L s0 x ?_ ?_; rotate_left; intro hx; clear_value x; rotate_left; dsimp -zeta only [x]; clear x) | (clear y; clear_value x))
    | with_reducible apply raise_fit (In.trans (by decide) hL)
    | with_reducible apply setPortState_fit (In.trans (by decide) hL)
    | (with_reducible apply Fit.ite <;> intro _)
    | (with_reducible apply Fit.foldl)
    | (with_reducible apply Fit.upd_time (In.trans (by decide) hL); first | (with_reducible apply Fit.ite <;> intro _) | (fail_if_success split))
    | split)

end Sys2Proof.Machine
end

