-- ==== Sys2Proof/Laws/FitBufferOps.lean ====
section
/-! SUPPORT. What each definition of Machine/BufferOps.lean touches, and that it keeps the invariant: one lemma each. -/

set_option Elab.async false
set_option linter.all false

namespace Sys2Proof.Machine

theorem dropCopy_fit {L : Nat} {s0 : State} {c : BufCopy} {s : State} (hL : In 0x800E02 L) (h0 : Fit L s0 s) :
    Fit L s0 (dropCopy c s) := by
  unfold dropCopy
  repeat' (first
    | with_reducible assumption
    | intro _
    | (extract_lets +onlyGivenNames x; have y := x; first | (guard_hyp y : State; clear y; refine Fit.seq L s0 x ?_ ?_; rotate_left; intro hx; clear_value x; rotate_left; dsimp -zeta only [x]; clear x) | (clear y; clear_value x))
    | with_reducible apply releaseOwner_fit (In.trans (by decide) hL)
    | (with_reducible apply Fit.upd_buf (In.trans (by decide) hL); first | (with_reducible apply Fit.ite <;> intro _) | (fail_if_success split)))

theorem landCopy_fit {L : Nat} {s0 : State} {c : BufCopy} {n : Nat} {data : List Byte} {s : State} (hL : In 0x1402 L) (h0 : Fit L s0 s) :
    Fit L s0 (landCopy c n data s) := by
  unfold landCopy
  repeat' (first
    | with_reducible assumption
    | (extract_lets +onlyGivenNames x; have y := x; first | (guard_hyp y : State; clear y; refine Fit.seq L s0 x ?_ ?_; rotate_left; intro hx; clear_value x; rotate_left; dsimp -zeta only [x]; clear x) | (clear y; clear_value x))
    | with_reducible apply emit_fit (In.trans (by decide) hL)
    | with_reducible apply devWrite_fit (In.trans (by decide) hL)
    | (with_reducible apply Fit.ite <;> intro _))

theorem loseRest_fit {L : Nat} {s0 : State} {c : BufCopy} {n : Nat} {s : State} (hL : In 0x1000 L) (h0 : Fit L s0 s) :
    Fit L s0 (loseRest c n s) := by
  unfold loseRest
  repeat' (first
    | with_reducible assumption
    | with_reducible apply devBlur_fit (In.trans (by decide) hL)
    | (with_reducible apply Fit.ite <;> intro _))

theorem endCopy_fit {L : Nat} {s0 : State} {st : Nat} {c : BufCopy} {s : State} (hL : In 0x801E06 L) (h0 : Fit L s0 s) :
    Fit L s0 (endCopy st c s) := by
  unfold endCopy
  repeat' (first
    | with_reducible assumption
    | (extract_lets +onlyGivenNames x; have y := x; first | (guard_hyp y : State; clear y; refine Fit.seq L s0 x ?_ ?_; rotate_left; intro hx; clear_value x; rotate_left; dsimp -zeta only [x]; clear x) | (clear y; clear_value x))
    | with_reducible apply drawn_fit (In.trans (by decide) hL)
    | with_reducible apply finish_fit (In.trans (by decide) hL)
    | with_reducible apply dropCopy_fit (In.trans (by decide) hL)
    | with_reducible apply landCopy_fit (In.trans (by decide) hL)
    | with_reducible apply loseRest_fit (In.trans (by decide) hL)
    | (with_reducible apply Fit.ite <;> intro _))

theorem endCopies_fit {L : Nat} {s0 : State} {st : Nat} {s : State} (hL : In 0x801E06 L) (h0 : Fit L s0 s) :
    Fit L s0 (endCopies st s) := by
  unfold endCopies
  repeat' (first
    | with_reducible assumption
    | intro _
    | with_reducible apply endCopy_fit (In.trans (by decide) hL)
    | (with_reducible apply Fit.foldl))

theorem releaseAll_fit {L : Nat} {s0 : State} {s : State} (hL : In 0x800E02 L) (h0 : Fit L s0 s) :
    Fit L s0 (releaseAll s) := by
  unfold releaseAll
  repeat' (first
    | with_reducible assumption
    | intro _
    | (extract_lets +onlyGivenNames x; have y := x; first | (guard_hyp y : State; clear y; refine Fit.seq L s0 x ?_ ?_; rotate_left; intro hx; clear_value x; rotate_left; dsimp -zeta only [x]; clear x) | (clear y; clear_value x))
    | with_reducible apply raise_fit (In.trans (by decide) hL)
    | with_reducible apply nextGen_fit (In.trans (by decide) hL)
    | with_reducible apply dropBuf_fit (In.trans (by decide) hL)
    | with_reducible apply checkLow_fit (In.trans (by decide) hL)
    | (with_reducible apply Fit.ite <;> intro _)
    | (with_reducible apply Fit.foldl)
    | split)

theorem rebuildPools_fit {L : Nat} {s0 : State} {s : State} (hL : In 0x800E02 L) (h0 : Fit L s0 s) :
    Fit L s0 (rebuildPools s) := by
  unfold rebuildPools
  repeat' (first
    | with_reducible assumption
    | intro _
    | (extract_lets +onlyGivenNames x; have y := x; first | (guard_hyp y : State; clear y; refine Fit.seq L s0 x ?_ ?_; rotate_left; intro hx; clear_value x; rotate_left; dsimp -zeta only [x]; clear x) | (clear y; clear_value x))
    | with_reducible apply raise_fit (In.trans (by decide) hL)
    | with_reducible apply onPool_fit (In.trans (by decide) hL)
    | (with_reducible apply Fit.foldl)
    | (with_reducible apply Fit.upd_buf (In.trans (by decide) hL); first | (with_reducible apply Fit.ite <;> intro _) | (fail_if_success split)))

end Sys2Proof.Machine
end

