-- ==== Sys2Proof/Laws/FitDmcOps.lean ====
section
/-! SUPPORT. What each definition of Machine/DmcOps.lean touches, and that it keeps the invariant: one lemma each. -/

set_option Elab.async false
set_option linter.all false

namespace Sys2Proof.Machine

theorem setDly_fit {L : Nat} {s0 : State} {point : Nat} {l : List DlyRec} {s : State} (hL : In 0x200000 L) (h0 : Fit L s0 s) :
    Fit L s0 (setDly point l s) := by
  unfold setDly
  repeat' (first
    | with_reducible assumption
    | (extract_lets +onlyGivenNames x; have y := x; first | (guard_hyp y : State; clear y; refine Fit.seq L s0 x ?_ ?_; rotate_left; intro hx; clear_value x; rotate_left; dsimp -zeta only [x]; clear x) | (clear y; clear_value x))
    | (with_reducible apply Fit.ite <;> intro _)
    | (with_reducible apply Fit.upd_dmc (In.trans (by decide) hL); first | (with_reducible apply Fit.ite <;> intro _) | (fail_if_success split)))

theorem putDly_fit {L : Nat} {s0 : State} {point pc : Nat} {r : DlyRec} {s : State} (hL : In 0x200000 L) (h0 : Fit L s0 s) :
    Fit L s0 (putDly point pc r s) := by
  unfold putDly
  repeat' (first
    | with_reducible assumption
    | with_reducible apply setDly_fit (In.trans (by decide) hL))

theorem storeRec_fit {L : Nat} {s0 : State} {point pc : Nat} {r : DlyRec} {s : State} (hL : In 0x1800C02 L) (h0 : Fit L s0 s) :
    Fit L s0 (storeRec point pc r s) := by
  unfold storeRec
  repeat' (first
    | with_reducible assumption
    | with_reducible apply nvOwn_fit (In.trans (by decide) hL))

theorem storeFound_fit {L : Nat} {s0 : State} {point pc : Nat} {s : State} (hL : In 0x1800C02 L) (h0 : Fit L s0 s) :
    Fit L s0 (storeFound point pc s) := by
  unfold storeFound
  repeat' (first
    | with_reducible assumption
    | with_reducible apply raise_fit (In.trans (by decide) hL)
    | with_reducible apply storeRec_fit (In.trans (by decide) hL)
    | (with_reducible apply Fit.ite <;> intro _))

theorem loadDly_fit {L : Nat} {s0 : State} {point : Nat} {s : State} (hL : In 0xA00C02 L) (h0 : Fit L s0 s) :
    Fit L s0 (loadDly point s) := by
  unfold loadDly
  repeat' (first
    | with_reducible assumption
    | (extract_lets +onlyGivenNames x; have y := x; first | (guard_hyp y : State; clear y; refine Fit.seq L s0 x ?_ ?_; rotate_left; intro hx; clear_value x; rotate_left; dsimp -zeta only [x]; clear x) | (clear y; clear_value x))
    | with_reducible apply raise_fit (In.trans (by decide) hL)
    | with_reducible apply setDly_fit (In.trans (by decide) hL)
    | split)

theorem onPc_fit {L : Nat} {s0 : State} {pc : Nat} {f : PcSt → PcSt} {s : State} (hL : In 0x200000 L) (h0 : Fit L s0 s) :
    Fit L s0 (onPc pc f s) := by
  unfold onPc
  repeat' (first
    | with_reducible assumption
    | (extract_lets +onlyGivenNames x; have y := x; first | (guard_hyp y : State; clear y; refine Fit.seq L s0 x ?_ ?_; rotate_left; intro hx; clear_value x; rotate_left; dsimp -zeta only [x]; clear x) | (clear y; clear_value x))
    | (with_reducible apply Fit.upd_dmc (In.trans (by decide) hL); first | (with_reducible apply Fit.ite <;> intro _) | (fail_if_success split)))

theorem endCalRun_fit {L : Nat} {s0 : State} {st cause : Nat} {s : State} (hL : In 0x2800E02 L) (h0 : Fit L s0 s) :
    Fit L s0 (endCalRun st cause s) := by
  unfold endCalRun
  repeat' (first
    | with_reducible assumption
    | (extract_lets +onlyGivenNames x; have y := x; first | (guard_hyp y : State; clear y; refine Fit.seq L s0 x ?_ ?_; rotate_left; intro hx; clear_value x; rotate_left; dsimp -zeta only [x]; clear x) | (clear y; clear_value x))
    | with_reducible apply finish_fit (In.trans (by decide) hL)
    | (with_reducible apply Fit.ite <;> intro _)
    | (with_reducible apply Fit.upd_cal (In.trans (by decide) hL); first | (with_reducible apply Fit.ite <;> intro _) | (fail_if_success split))
    | split)

theorem abandonCal_fit {L : Nat} {s0 : State} {f : CalJob → Bool} {cause : Nat} {s : State} (hL : In 0x2A00E02 L) (h0 : Fit L s0 s) :
    Fit L s0 (abandonCal f cause s) := by
  unfold abandonCal
  repeat' (first
    | with_reducible assumption
    | intro _
    | (extract_lets +onlyGivenNames x; have y := x; first | (guard_hyp y : State; clear y; refine Fit.seq L s0 x ?_ ?_; rotate_left; intro hx; clear_value x; rotate_left; dsimp -zeta only [x]; clear x) | ((first | (guard_hyp y : _ → State; clear y) | (guard_hyp y : _ → _ → State; clear y) | (guard_hyp y : _ → _ → _ → State; clear y)); dsimp -zeta only [x]; clear x) | (clear y; clear_value x))
    | with_reducible apply raise_fit (In.trans (by decide) hL)
    | with_reducible apply endCalRun_fit (In.trans (by decide) hL)
    | (with_reducible apply Fit.ite <;> intro _)
    | (with_reducible apply Fit.foldl)
    | (with_reducible apply Fit.upd_dmc_cal (In.trans (by decide) hL); first | (with_reducible apply Fit.ite <;> intro _) | (fail_if_success split))
    | split)

theorem dropRetrain_fit {L : Nat} {s0 : State} {f : Nat → Bool} {cause : Nat} {s : State} (hL : In 0x2A00C02 L) (h0 : Fit L s0 s) :
    Fit L s0 (dropRetrain f cause s) := by
  unfold dropRetrain
  repeat' (first
    | with_reducible assumption
    | intro _
    | (extract_lets +onlyGivenNames x; have y := x; first | (guard_hyp y : State; clear y; refine Fit.seq L s0 x ?_ ?_; rotate_left; intro hx; clear_value x; rotate_left; dsimp -zeta only [x]; clear x) | (clear y; clear_value x))
    | with_reducible apply raise_fit (In.trans (by decide) hL)
    | with_reducible apply onPc_fit (In.trans (by decide) hL)
    | (with_reducible apply Fit.foldl)
    | (with_reducible apply Fit.upd_cal (In.trans (by decide) hL); first | (with_reducible apply Fit.ite <;> intro _) | (fail_if_success split))
    | (with_reducible apply Fit.upd_dmc (In.trans (by decide) hL); first | (with_reducible apply Fit.ite <;> intro _) | (fail_if_success split)))

theorem abandonSweeps_fit {L : Nat} {s0 : State} {cause : Nat} {s : State} (hL : In 0x2A00E02 L) (h0 : Fit L s0 s) :
    Fit L s0 (abandonSweeps cause s) := by
  unfold abandonSweeps
  repeat' (first
    | with_reducible assumption
    | intro _
    | with_reducible apply abandonCal_fit (In.trans (by decide) hL)
    | with_reducible apply dropRetrain_fit (In.trans (by decide) hL))

theorem closeWindows_fit {L : Nat} {s0 : State} {s : State} (hL : In 0x200000 L) (h0 : Fit L s0 s) :
    Fit L s0 (closeWindows s) := by
  unfold closeWindows
  repeat' (first
    | with_reducible assumption
    | intro _
    | (extract_lets +onlyGivenNames x; have y := x; first | (guard_hyp y : State; clear y; refine Fit.seq L s0 x ?_ ?_; rotate_left; intro hx; clear_value x; rotate_left; dsimp -zeta only [x]; clear x) | (clear y; clear_value x))
    | (with_reducible apply Fit.upd_dmc (In.trans (by decide) hL); first | (with_reducible apply Fit.ite <;> intro _) | (fail_if_success split)))

theorem changePoint_fit {L : Nat} {s0 : State} {p : Nat} {s : State} (hL : In 0x2A00E02 L) (h0 : Fit L s0 s) :
    Fit L s0 (changePoint p s) := by
  unfold changePoint
  repeat' (first
    | with_reducible assumption
    | (extract_lets +onlyGivenNames x; have y := x; first | (guard_hyp y : State; clear y; refine Fit.seq L s0 x ?_ ?_; rotate_left; intro hx; clear_value x; rotate_left; dsimp -zeta only [x]; clear x) | (clear y; clear_value x))
    | with_reducible apply abandonSweeps_fit (In.trans (by decide) hL)
    | with_reducible apply closeWindows_fit (In.trans (by decide) hL)
    | (with_reducible apply Fit.ite <;> intro _)
    | (with_reducible apply Fit.upd_dmc (In.trans (by decide) hL); first | (with_reducible apply Fit.ite <;> intro _) | (fail_if_success split)))

theorem enterSelfRefresh_fit {L : Nat} {s0 : State} {s : State} (hL : In 0x2A00E02 L) (h0 : Fit L s0 s) :
    Fit L s0 (enterSelfRefresh s) := by
  unfold enterSelfRefresh
  repeat' (first
    | with_reducible assumption
    | (extract_lets +onlyGivenNames x; have y := x; first | (guard_hyp y : State; clear y; refine Fit.seq L s0 x ?_ ?_; rotate_left; intro hx; clear_value x; rotate_left; dsimp -zeta only [x]; clear x) | (clear y; clear_value x))
    | with_reducible apply abandonSweeps_fit (In.trans (by decide) hL)
    | with_reducible apply closeWindows_fit (In.trans (by decide) hL)
    | (with_reducible apply Fit.ite <;> intro _)
    | (with_reducible apply Fit.upd_dmc (In.trans (by decide) hL); first | (with_reducible apply Fit.ite <;> intro _) | (fail_if_success split)))

theorem dmcReset_fit {L : Nat} {s0 : State} {st : Nat} {s : State} (hL : In 0x201000 L) (h0 : Fit L s0 s) :
    Fit L s0 (dmcReset st s) := Fit.upd_mem_dmc hL h0 (fun _ => rfl)

theorem dmcRelease_fit {L : Nat} {s0 : State} {s : State} (hL : In 0x200000 L) (h0 : Fit L s0 s) :
    Fit L s0 (dmcRelease s) := by
  unfold dmcRelease
  repeat' (first
    | with_reducible assumption
    | (extract_lets +onlyGivenNames x; have y := x; first | (guard_hyp y : State; clear y; refine Fit.seq L s0 x ?_ ?_; rotate_left; intro hx; clear_value x; rotate_left; dsimp -zeta only [x]; clear x) | (clear y; clear_value x))
    | (with_reducible apply Fit.ite <;> intro _)
    | (with_reducible apply Fit.upd_dmc (In.trans (by decide) hL); first | (with_reducible apply Fit.ite <;> intro _) | (fail_if_success split)))

theorem startRetrain_fit {L : Nat} {s0 : State} {pc : Nat} {s : State} (hL : In 0x2A00E02 L) (h0 : Fit L s0 s) :
    Fit L s0 (startRetrain pc s) := by
  unfold startRetrain
  repeat' (first
    | with_reducible assumption
    | intro _
    | (extract_lets +onlyGivenNames x; have y := x; first | (guard_hyp y : State; clear y; refine Fit.seq L s0 x ?_ ?_; rotate_left; intro hx; clear_value x; rotate_left; dsimp -zeta only [x]; clear x) | (clear y; clear_value x))
    | with_reducible apply raise_fit (In.trans (by decide) hL)
    | with_reducible apply onPc_fit (In.trans (by decide) hL)
    | with_reducible apply abandonCal_fit (In.trans (by decide) hL)
    | (with_reducible apply Fit.ite <;> intro _)
    | (with_reducible apply Fit.upd_dmc (In.trans (by decide) hL); first | (with_reducible apply Fit.ite <;> intro _) | (fail_if_success split))
    | split)

theorem recordFence_fit {L : Nat} {s0 : State} {pc order : Nat} {s : State} (hL : In 0x1A00C02 L) (h0 : Fit L s0 s) :
    Fit L s0 (recordFence pc order s) := by
  unfold recordFence
  repeat' (first
    | with_reducible assumption
    | intro _
    | (extract_lets +onlyGivenNames x; have y := x; first | (guard_hyp y : State; clear y; refine Fit.seq L s0 x ?_ ?_; rotate_left; intro hx; clear_value x; rotate_left; dsimp -zeta only [x]; clear x) | (clear y; clear_value x))
    | with_reducible apply putDly_fit (In.trans (by decide) hL)
    | with_reducible apply storeRec_fit (In.trans (by decide) hL)
    | (with_reducible apply Fit.foldl))

theorem decideFence_fit {L : Nat} {s0 : State} {pc : Nat} {s : State} (hL : In 0x3A00E02 L) (h0 : Fit L s0 s) :
    Fit L s0 (decideFence pc s) := by
  unfold decideFence
  repeat' (first
    | with_reducible assumption
    | intro _
    | (extract_lets +onlyGivenNames x; have y := x; first | (guard_hyp y : State; clear y; refine Fit.seq L s0 x ?_ ?_; rotate_left; intro hx; clear_value x; rotate_left; dsimp -zeta only [x]; clear x) | (clear y; clear_value x))
    | with_reducible apply raise_fit (In.trans (by decide) hL)
    | with_reducible apply move_fit (In.trans (by decide) hL)
    | with_reducible apply checkLow_fit (In.trans (by decide) hL)
    | with_reducible apply abandonCal_fit (In.trans (by decide) hL)
    | with_reducible apply dropRetrain_fit (In.trans (by decide) hL)
    | with_reducible apply recordFence_fit (In.trans (by decide) hL)
    | (with_reducible apply Fit.upd_dmc (In.trans (by decide) hL); first | (with_reducible apply Fit.ite <;> intro _) | (fail_if_success split)))

end Sys2Proof.Machine
end

