-- ==== Sys2Proof/Laws/FitTestOps.lean ====
section
/-! SUPPORT. What each definition of Machine/TestOps.lean touches, and that it keeps the invariant: one lemma each. -/

set_option Elab.async false
set_option linter.all false

namespace Sys2Proof.Machine

theorem putResult_fit {L : Nat} {s0 : State} {r : TestRes} {s : State} (hL : In 0x4000000 L) (h0 : Fit L s0 s) :
    Fit L s0 (putResult r s) := by
  unfold putResult
  repeat' (first
    | with_reducible assumption
    | intro _
    | (extract_lets +onlyGivenNames x; have y := x; first | (guard_hyp y : State; clear y; refine Fit.seq L s0 x ?_ ?_; rotate_left; intro hx; clear_value x; rotate_left; dsimp -zeta only [x]; clear x) | (clear y; clear_value x))
    | (with_reducible apply Fit.upd_bst (In.trans (by decide) hL); first | (with_reducible apply Fit.ite <;> intro _) | (fail_if_success split)))

theorem startTest_fit {L : Nat} {s0 : State} {e : Nat × Nat} {s : State} (hL : In 0x4800C02 L) (h0 : Fit L s0 s) :
    Fit L s0 (startTest e s) := by
  unfold startTest
  repeat' (first
    | with_reducible assumption
    | intro _
    | (extract_lets +onlyGivenNames x; have y := x; first | (guard_hyp y : State; clear y; refine Fit.seq L s0 x ?_ ?_; rotate_left; intro hx; clear_value x; rotate_left; dsimp -zeta only [x]; clear x) | (clear y; clear_value x))
    | with_reducible apply raise_fit (In.trans (by decide) hL)
    | (with_reducible apply Fit.upd_bst (In.trans (by decide) hL); first | (with_reducible apply Fit.ite <;> intro _) | (fail_if_success split)))

theorem schedule_fit {L : Nat} {s0 : State} {s : State} (hL : In 0x4800C02 L) (h0 : Fit L s0 s) :
    Fit L s0 (schedule s) := by
  unfold schedule
  repeat' (first
    | with_reducible assumption
    | intro _
    | (extract_lets +onlyGivenNames x; have y := x; first | (guard_hyp y : State; clear y; refine Fit.seq L s0 x ?_ ?_; rotate_left; intro hx; clear_value x; rotate_left; dsimp -zeta only [x]; clear x) | (clear y; clear_value x))
    | with_reducible apply raise_fit (In.trans (by decide) hL)
    | with_reducible apply startTest_fit (In.trans (by decide) hL)
    | (with_reducible apply Fit.ite <;> intro _)
    | (with_reducible apply Fit.foldl)
    | (with_reducible apply Fit.upd_bst (In.trans (by decide) hL); first | (with_reducible apply Fit.ite <;> intro _) | (fail_if_success split))
    | split)

theorem completeRun_fit {L : Nat} {s0 : State} {st : Option Nat} {s : State} (hL : In 0x4800E02 L) (h0 : Fit L s0 s) :
    Fit L s0 (completeRun st s) := by
  unfold completeRun
  repeat' (first
    | with_reducible assumption
    | (extract_lets +onlyGivenNames x; have y := x; first | (guard_hyp y : State; clear y; refine Fit.seq L s0 x ?_ ?_; rotate_left; intro hx; clear_value x; rotate_left; dsimp -zeta only [x]; clear x) | (clear y; clear_value x))
    | with_reducible apply finish_fit (In.trans (by decide) hL)
    | (with_reducible apply Fit.ite <;> intro _)
    | (with_reducible apply Fit.upd_bst (In.trans (by decide) hL); first | (with_reducible apply Fit.ite <;> intro _) | (fail_if_success split))
    | split)

theorem settleRun_fit {L : Nat} {s0 : State} {s : State} (hL : In 0x4800E02 L) (h0 : Fit L s0 s) :
    Fit L s0 (settleRun s) := by
  unfold settleRun
  repeat' (first
    | with_reducible assumption
    | (extract_lets +onlyGivenNames x; have y := x; first | (guard_hyp y : State; clear y; refine Fit.seq L s0 x ?_ ?_; rotate_left; intro hx; clear_value x; rotate_left; dsimp -zeta only [x]; clear x) | (clear y; clear_value x))
    | with_reducible apply completeRun_fit (In.trans (by decide) hL)
    | (with_reducible apply Fit.ite <;> intro _)
    | split)

theorem testEnded_fit {L : Nat} {s0 : State} {id inst outcome reason : Nat} {s : State} (hL : In 0x800C02 L) (h0 : Fit L s0 s) :
    Fit L s0 (testEnded id inst outcome reason s) := by
  unfold testEnded
  repeat' (first
    | with_reducible assumption
    | (extract_lets +onlyGivenNames x; have y := x; first | (guard_hyp y : State; clear y; refine Fit.seq L s0 x ?_ ?_; rotate_left; intro hx; clear_value x; rotate_left; dsimp -zeta only [x]; clear x) | (clear y; clear_value x))
    | with_reducible apply raise_fit (In.trans (by decide) hL)
    | (with_reducible apply Fit.ite <;> intro _))

theorem stopTests_fit {L : Nat} {s0 : State} {f : Nat × Nat → Bool} {reason : Nat} {s : State} (hL : In 0x4800C02 L) (h0 : Fit L s0 s) :
    Fit L s0 (stopTests f reason s) := by
  unfold stopTests
  repeat' (first
    | with_reducible assumption
    | intro _
    | (extract_lets +onlyGivenNames x; have y := x; first | (guard_hyp y : State; clear y; refine Fit.seq L s0 x ?_ ?_; rotate_left; intro hx; clear_value x; rotate_left; dsimp -zeta only [x]; clear x) | (clear y; clear_value x))
    | with_reducible apply putResult_fit (In.trans (by decide) hL)
    | with_reducible apply testEnded_fit (In.trans (by decide) hL)
    | (with_reducible apply Fit.foldl)
    | (with_reducible apply Fit.upd_bst (In.trans (by decide) hL); first | (with_reducible apply Fit.ite <;> intro _) | (fail_if_success split))
    | split)

theorem endTests_fit {L : Nat} {s0 : State} {reason : Nat} {st : Option Nat} {s : State} (hL : In 0x4800E02 L) (h0 : Fit L s0 s) :
    Fit L s0 (endTests reason st s) := by
  unfold endTests
  repeat' (first
    | with_reducible assumption
    | intro _
    | with_reducible apply completeRun_fit (In.trans (by decide) hL)
    | with_reducible apply stopTests_fit (In.trans (by decide) hL))

theorem endTestsOf_fit {L : Nat} {s0 : State} {ids : List Nat} {s : State} (hL : In 0x4800E02 L) (h0 : Fit L s0 s) :
    Fit L s0 (endTestsOf ids s) := by
  unfold endTestsOf
  repeat' (first
    | with_reducible assumption
    | intro _
    | with_reducible apply schedule_fit (In.trans (by decide) hL)
    | with_reducible apply settleRun_fit (In.trans (by decide) hL)
    | with_reducible apply stopTests_fit (In.trans (by decide) hL))

theorem beginRun_fit {L : Nat} {s0 : State} {h : Option Hdr} {stop : Bool} {set : Nat} {work : List (Nat × Nat)} {s : State} (hL : In 0x4800E02 L) (h0 : Fit L s0 s) :
    Fit L s0 (beginRun h stop set work s) := by
  unfold beginRun
  repeat' (first
    | with_reducible assumption
    | (extract_lets +onlyGivenNames x; have y := x; first | (guard_hyp y : State; clear y; refine Fit.seq L s0 x ?_ ?_; rotate_left; intro hx; clear_value x; rotate_left; dsimp -zeta only [x]; clear x) | (clear y; clear_value x))
    | with_reducible apply schedule_fit (In.trans (by decide) hL)
    | with_reducible apply settleRun_fit (In.trans (by decide) hL)
    | (with_reducible apply Fit.upd_bst (In.trans (by decide) hL); first | (with_reducible apply Fit.ite <;> intro _) | (fail_if_success split)))

end Sys2Proof.Machine
end

