-- ==== Sys2Proof/Laws/FitMainOps.lean ====
section
/-! SUPPORT. What each definition of Machine/MainOps.lean touches, and that it keeps the invariant: one lemma each. -/

set_option Elab.async false
set_option linter.all false

namespace Sys2Proof.Machine

theorem hostDown_fit {L : Nat} {s0 : State} {s : State} (hL : In 0x840E02 L) (h0 : Fit L s0 s) :
    Fit L s0 (hostDown s) := by
  unfold hostDown
  repeat' (first
    | with_reducible assumption
    | with_reducible apply hostLayersOff_fit (In.trans (by decide) hL)
    | with_reducible apply linkDown_fit (In.trans (by decide) hL)
    | (with_reducible apply Fit.ite <;> intro _))

theorem forgetCommands_fit {L : Nat} {s0 : State} {s : State} (hL : In 0xE082C60 L) (h0 : Fit L s0 s) :
    Fit L s0 (forgetCommands s) := by
  unfold forgetCommands
  repeat' (first
    | with_reducible assumption
    | intro _
    | (extract_lets +onlyGivenNames x; have y := x; first | (guard_hyp y : State; clear y; refine Fit.seq L s0 x ?_ ?_; rotate_left; intro hx; clear_value x; rotate_left; dsimp -zeta only [x]; clear x) | ((first | (guard_hyp y : CmdSt; clear y) | (guard_hyp y : EvtSt; clear y)); dsimp -zeta only [x]; clear x) | (clear y; clear_value x))
    | (with_reducible apply Fit.upd_cmd (In.trans (by decide) hL); rotate_left; with_reducible rfl; first | (with_reducible apply Fit.ite <;> intro _) | (fail_if_success split))
    | (with_reducible apply Fit.upd_time_mode_evt_pnl_plk_cal_bst_sec (In.trans (by decide) hL); rotate_left; with_reducible rfl; with_reducible rfl; first | (with_reducible apply Fit.ite <;> intro _) | (fail_if_success split)))

theorem endSched_fit {L : Nat} {s0 : State} {st : Nat} {s : State} (hL : In 0x800E02 L) (h0 : Fit L s0 s) :
    Fit L s0 (endSched st s) := by
  unfold endSched
  repeat' (first
    | with_reducible assumption
    | intro _
    | (extract_lets +onlyGivenNames x; have y := x; first | (guard_hyp y : State; clear y; refine Fit.seq L s0 x ?_ ?_; rotate_left; intro hx; clear_value x; rotate_left; dsimp -zeta only [x]; clear x) | (guard_hyp y : CmdSt; clear y; dsimp -zeta only [x]; clear x) | (clear y; clear_value x))
    | with_reducible apply finishAll_fit (In.trans (by decide) hL)
    | (with_reducible apply Fit.upd_cmd (In.trans (by decide) hL); rotate_left; with_reducible rfl; first | (with_reducible apply Fit.ite <;> intro _) | (fail_if_success split)))

theorem endCommands_fit {L : Nat} {s0 : State} {v : Verdict} {but : Option CmdKey} {s : State} (hL : In 0x801E06 L) (h0 : Fit L s0 s) :
    Fit L s0 (endCommands v but s) := by
  unfold endCommands
  repeat' (first
    | with_reducible assumption
    | intro _
    | (extract_lets +onlyGivenNames x; have y := x; first | (guard_hyp y : State; clear y; refine Fit.seq L s0 x ?_ ?_; rotate_left; intro hx; clear_value x; rotate_left; dsimp -zeta only [x]; clear x) | (guard_hyp y : CmdSt; clear y; dsimp -zeta only [x]; clear x) | (clear y; clear_value x))
    | with_reducible apply finishAll_fit (In.trans (by decide) hL)
    | with_reducible apply endCopies_fit (In.trans (by decide) hL)
    | (with_reducible apply Fit.upd_cmd (In.trans (by decide) hL); rotate_left; with_reducible rfl; first | (with_reducible apply Fit.ite <;> intro _) | (fail_if_success split)))

theorem endLease_fit {L : Nat} {s0 : State} {s : State} (hL : In 0x1000400 L) (h0 : Fit L s0 s) :
    Fit L s0 (endLease s) := by
  unfold endLease
  repeat' (first
    | with_reducible assumption
    | (extract_lets +onlyGivenNames x; have y := x; first | (guard_hyp y : State; clear y; refine Fit.seq L s0 x ?_ ?_; rotate_left; intro hx; clear_value x; rotate_left; dsimp -zeta only [x]; clear x) | (guard_hyp y : CmdSt; clear y; dsimp -zeta only [x]; clear x) | (clear y; clear_value x))
    | (with_reducible apply Fit.upd_cmd_nv (In.trans (by decide) hL); rotate_left; with_reducible rfl; first | (with_reducible apply Fit.ite <;> intro _) | (fail_if_success split)))

theorem planeReset_fit {L : Nat} {s0 : State} {s : State} (hL : In 0x7C000 L) (h0 : Fit L s0 s) :
    Fit L s0 (planeReset s) := by
  unfold planeReset
  repeat' (first
    | with_reducible assumption
    | (extract_lets +onlyGivenNames x; have y := x; first | (guard_hyp y : State; clear y; refine Fit.seq L s0 x ?_ ?_; rotate_left; intro hx; clear_value x; rotate_left; dsimp -zeta only [x]; clear x) | (clear y; clear_value x))
    | (with_reducible apply Fit.upd_scene_cdc_syn_cam_scn (In.trans (by decide) hL); first | (with_reducible apply Fit.ite <;> intro _) | (fail_if_success split)))

theorem mainReset_fit {L : Nat} {s0 : State} {dormant : Bool} {s : State} (hL : In 0xE7FFFF8 L) (h0 : Fit L s0 s) :
    Fit L s0 (mainReset dormant s) := by
  unfold mainReset
  exact Fit.upd_time_mode_pwr_thm_buf_cmd_evt_mem_pnl_scene_cdc_syn_cam_scn_plk_std_dmc_net_cal_bst_sec (In.trans (by decide) hL) (pForget_fit (In.trans (by decide) hL) h0) (fun _ => rfl) rfl rfl rfl

theorem emptyPools_fit {L : Nat} {s0 : State} {s : State} (hL : In 0x200 L) (h0 : Fit L s0 s) :
    Fit L s0 (emptyPools s) := by
  unfold emptyPools
  repeat' (first
    | with_reducible assumption
    | intro _
    | with_reducible apply freePool_fit (In.trans (by decide) hL)
    | (with_reducible apply Fit.foldl))

end Sys2Proof.Machine
end

