-- ==== Sys2Proof/Laws/FitModeOps.lean ====
section
/-! SUPPORT. What each definition of Machine/ModeOps.lean touches, and that it keeps the invariant: one lemma each. -/

set_option Elab.async false
set_option linter.all false

namespace Sys2Proof.Machine

theorem onMode_fit {L : Nat} {s0 : State} {f : ModeSt → ModeSt} {s : State} (hL : In 0x40 L) (h0 : Fit L s0 s) :
    Fit L s0 (onMode f s) := by
  unfold onMode
  repeat' (first
    | with_reducible assumption
    | (extract_lets +onlyGivenNames x; have y := x; first | (guard_hyp y : State; clear y; refine Fit.seq L s0 x ?_ ?_; rotate_left; intro hx; clear_value x; rotate_left; dsimp -zeta only [x]; clear x) | (clear y; clear_value x))
    | (with_reducible apply Fit.upd_mode (In.trans (by decide) hL); first | (with_reducible apply Fit.ite <;> intro _) | (fail_if_success split)))

theorem onThm_fit {L : Nat} {s0 : State} {f : ThmSt → ThmSt} {s : State} (hL : In 0x100 L) (h0 : Fit L s0 s) :
    Fit L s0 (onThm f s) := by
  unfold onThm
  repeat' (first
    | with_reducible assumption
    | (extract_lets +onlyGivenNames x; have y := x; first | (guard_hyp y : State; clear y; refine Fit.seq L s0 x ?_ ?_; rotate_left; intro hx; clear_value x; rotate_left; dsimp -zeta only [x]; clear x) | (clear y; clear_value x))
    | (with_reducible apply Fit.upd_thm (In.trans (by decide) hL); first | (with_reducible apply Fit.ite <;> intro _) | (fail_if_success split)))

theorem endChangeCmd_fit {L : Nat} {s0 : State} {v : Verdict} {s : State} (hL : In 0x800E42 L) (h0 : Fit L s0 s) :
    Fit L s0 (endChangeCmd v s) := by
  unfold endChangeCmd
  repeat' (first
    | with_reducible assumption
    | intro _
    | (extract_lets +onlyGivenNames x; have y := x; first | (guard_hyp y : State; clear y; refine Fit.seq L s0 x ?_ ?_; rotate_left; intro hx; clear_value x; rotate_left; dsimp -zeta only [x]; clear x) | (guard_hyp y : CmdSt; clear y; dsimp -zeta only [x]; clear x) | (clear y; clear_value x))
    | with_reducible apply finish_fit (In.trans (by decide) hL)
    | with_reducible apply onMode_fit (In.trans (by decide) hL)
    | split)

theorem cancelChanges_fit {L : Nat} {s0 : State} {v : Verdict} {s : State} (hL : In 0x800F42 L) (h0 : Fit L s0 s) :
    Fit L s0 (cancelChanges v s) := by
  unfold cancelChanges
  repeat' (first
    | with_reducible assumption
    | intro _
    | (extract_lets +onlyGivenNames x; have y := x; first | (guard_hyp y : State; clear y; refine Fit.seq L s0 x ?_ ?_; rotate_left; intro hx; clear_value x; rotate_left; dsimp -zeta only [x]; clear x) | (clear y; clear_value x))
    | with_reducible apply finish_fit (In.trans (by decide) hL)
    | with_reducible apply onMode_fit (In.trans (by decide) hL)
    | with_reducible apply onThm_fit (In.trans (by decide) hL)
    | with_reducible apply endChangeCmd_fit (In.trans (by decide) hL)
    | (with_reducible apply Fit.foldl))

theorem makeStep_fit {L : Nat} {s0 : State} {cause : Nat} {target : Option Nat} {from_ : Nat} {s : State} (hL : In 0x800F42 L) (h0 : Fit L s0 s) :
    Fit L s0 (makeStep cause target from_ s) := by
  unfold makeStep
  repeat' (first
    | with_reducible assumption
    | intro _
    | (extract_lets +onlyGivenNames x; have y := x; first | (guard_hyp y : State; clear y; refine Fit.seq L s0 x ?_ ?_; rotate_left; intro hx; clear_value x; rotate_left; dsimp -zeta only [x]; clear x) | (clear y; clear_value x))
    | with_reducible apply raise_fit (In.trans (by decide) hL)
    | with_reducible apply onMode_fit (In.trans (by decide) hL)
    | with_reducible apply cancelChanges_fit (In.trans (by decide) hL)
    | (with_reducible apply Fit.ite <;> intro _)
    | split)

theorem stopWarm_fit {L : Nat} {s0 : State} {s : State} (hL : In 0x2A00F02 L) (h0 : Fit L s0 s) :
    Fit L s0 (stopWarm s) := by
  unfold stopWarm
  repeat' (first
    | with_reducible assumption
    | intro _
    | (extract_lets +onlyGivenNames x; have y := x; first | (guard_hyp y : State; clear y; refine Fit.seq L s0 x ?_ ?_; rotate_left; intro hx; clear_value x; rotate_left; dsimp -zeta only [x]; clear x) | (clear y; clear_value x))
    | with_reducible apply abandonCal_fit (In.trans (by decide) hL)
    | with_reducible apply onThm_fit (In.trans (by decide) hL))

theorem stepDown_fit {L : Nat} {s0 : State} {cause : Nat} {target : Option Nat} {from_ : Nat} {s : State} (hL : In 0x6A00F42 L) (h0 : Fit L s0 s) :
    Fit L s0 (stepDown cause target from_ s) := by
  unfold stepDown
  repeat' (first
    | with_reducible assumption
    | intro _
    | (extract_lets +onlyGivenNames x; have y := x; first | (guard_hyp y : State; clear y; refine Fit.seq L s0 x ?_ ?_; rotate_left; intro hx; clear_value x; rotate_left; dsimp -zeta only [x]; clear x) | (clear y; clear_value x))
    | with_reducible apply raise_fit (In.trans (by decide) hL)
    | with_reducible apply endTests_fit (In.trans (by decide) hL)
    | with_reducible apply onMode_fit (In.trans (by decide) hL)
    | with_reducible apply cancelChanges_fit (In.trans (by decide) hL)
    | with_reducible apply makeStep_fit (In.trans (by decide) hL)
    | with_reducible apply stopWarm_fit (In.trans (by decide) hL)
    | (with_reducible apply Fit.ite <;> intro _)
    | split)

theorem settleCheck_fit {L : Nat} {s0 : State} {s : State} (hL : In 0x6B00F42 L) (h0 : Fit L s0 s) :
    Fit L s0 (settleCheck s) := by
  unfold settleCheck
  repeat' (first
    | with_reducible assumption
    | intro _
    | (extract_lets +onlyGivenNames x; have y := x; first | (guard_hyp y : State; clear y; refine Fit.seq L s0 x ?_ ?_; rotate_left; intro hx; clear_value x; rotate_left; dsimp -zeta only [x]; clear x) | (clear y; clear_value x))
    | with_reducible apply raise_fit (In.trans (by decide) hL)
    | with_reducible apply onStd_fit (In.trans (by decide) hL)
    | with_reducible apply stepDown_fit (In.trans (by decide) hL)
    | (with_reducible apply Fit.ite <;> intro _)
    | split)

theorem startGrace_fit {L : Nat} {s0 : State} {s : State} (hL : In 0x100 L) (h0 : Fit L s0 s) :
    Fit L s0 (startGrace s) := by
  unfold startGrace
  repeat' (first
    | with_reducible assumption
    | intro _
    | (extract_lets +onlyGivenNames x; have y := x; first | (guard_hyp y : State; clear y; refine Fit.seq L s0 x ?_ ?_; rotate_left; intro hx; clear_value x; rotate_left; dsimp -zeta only [x]; clear x) | (clear y; clear_value x))
    | with_reducible apply onThm_fit (In.trans (by decide) hL))

theorem throttleCleared_fit {L : Nat} {s0 : State} {s : State} (hL : In 0x800D42 L) (h0 : Fit L s0 s) :
    Fit L s0 (throttleCleared s) := by
  unfold throttleCleared
  repeat' (first
    | with_reducible assumption
    | intro _
    | (extract_lets +onlyGivenNames x; have y := x; first | (guard_hyp y : State; clear y; refine Fit.seq L s0 x ?_ ?_; rotate_left; intro hx; clear_value x; rotate_left; dsimp -zeta only [x]; clear x) | (clear y; clear_value x))
    | with_reducible apply raise_fit (In.trans (by decide) hL)
    | with_reducible apply onMode_fit (In.trans (by decide) hL)
    | with_reducible apply onThm_fit (In.trans (by decide) hL)
    | (with_reducible apply Fit.ite <;> intro _)
    | split)

theorem checkWarm_fit {L : Nat} {s0 : State} {s : State} (hL : In 0xA00D02 L) (h0 : Fit L s0 s) :
    Fit L s0 (checkWarm s) := by
  unfold checkWarm
  repeat' (first
    | with_reducible assumption
    | intro _
    | (extract_lets +onlyGivenNames x; have y := x; first | (guard_hyp y : State; clear y; refine Fit.seq L s0 x ?_ ?_; rotate_left; intro hx; clear_value x; rotate_left; dsimp -zeta only [x]; clear x) | (clear y; clear_value x))
    | with_reducible apply raise_fit (In.trans (by decide) hL)
    | with_reducible apply dmcRelease_fit (In.trans (by decide) hL)
    | with_reducible apply onThm_fit (In.trans (by decide) hL)
    | (with_reducible apply Fit.ite <;> intro _)
    | split)

theorem leaveWarm_fit {L : Nat} {s0 : State} {s : State} (hL : In 0x100 L) (h0 : Fit L s0 s) :
    Fit L s0 (leaveWarm s) := by
  unfold leaveWarm
  repeat' (first
    | with_reducible assumption
    | intro _
    | (extract_lets +onlyGivenNames x; have y := x; first | (guard_hyp y : State; clear y; refine Fit.seq L s0 x ?_ ?_; rotate_left; intro hx; clear_value x; rotate_left; dsimp -zeta only [x]; clear x) | (clear y; clear_value x))
    | with_reducible apply onThm_fit (In.trans (by decide) hL)
    | (with_reducible apply Fit.ite <;> intro _)
    | split)

theorem panelChange_fit {L : Nat} {s0 : State} {m0 : Mode} {r0 : Nat} {k : Option Nat} {s : State} (hL : In 0x9D0E1A L) (h0 : Fit L s0 s) :
    Fit L s0 (panelChange m0 r0 k s) := by
  unfold panelChange
  repeat' (first
    | with_reducible assumption
    | intro _
    | (extract_lets +onlyGivenNames x; have y := x; first | (guard_hyp y : State; clear y; refine Fit.seq L s0 x ?_ ?_; rotate_left; intro hx; clear_value x; rotate_left; dsimp -zeta only [x]; clear x) | (clear y; clear_value x))
    | with_reducible apply startTrain_fit (In.trans (by decide) hL)
    | with_reducible apply linksIdle_fit (In.trans (by decide) hL)
    | with_reducible apply onScn_fit (In.trans (by decide) hL)
    | with_reducible apply endFences_fit (In.trans (by decide) hL)
    | with_reducible apply letBefore_fit (In.trans (by decide) hL)
    | with_reducible apply retireUnseen_fit (In.trans (by decide) hL)
    | with_reducible apply lightsOut_fit (In.trans (by decide) hL)
    | with_reducible apply beginDark_fit (In.trans (by decide) hL)
    | (with_reducible apply Fit.ite <;> intro _)
    | (with_reducible apply Fit.foldl)
    | split)

theorem freshCuts_fit {L : Nat} {s0 : State} {s : State} (hL : In 0x30000 L) (h0 : Fit L s0 s) :
    Fit L s0 (freshCuts s) := by
  unfold freshCuts
  repeat' (first
    | with_reducible assumption
    | intro _
    | (extract_lets +onlyGivenNames x; have y := x; first | (guard_hyp y : State; clear y; refine Fit.seq L s0 x ?_ ?_; rotate_left; intro hx; clear_value x; rotate_left; dsimp -zeta only [x]; clear x) | (clear y; clear_value x))
    | with_reducible apply onSyn_fit (In.trans (by decide) hL)
    | with_reducible apply onCam_fit (In.trans (by decide) hL)
    | (with_reducible apply Fit.ite <;> intro _)
    | (with_reducible apply Fit.foldl)
    | split)

theorem sceneChange_fit {L : Nat} {s0 : State} {m0 : Mode} {s : State} (hL : In 0xC7CE02 L) (h0 : Fit L s0 s) :
    Fit L s0 (sceneChange m0 s) := by
  unfold sceneChange
  repeat' (first
    | with_reducible assumption
    | intro _
    | (extract_lets +onlyGivenNames x; have y := x; first | (guard_hyp y : State; clear y; refine Fit.seq L s0 x ?_ ?_; rotate_left; intro hx; clear_value x; rotate_left; dsimp -zeta only [x]; clear x) | (clear y; clear_value x))
    | with_reducible apply endSessions_fit (In.trans (by decide) hL)
    | with_reducible apply abandonSyn_fit (In.trans (by decide) hL)
    | with_reducible apply synRecheck_fit (In.trans (by decide) hL)
    | with_reducible apply onCam_fit (In.trans (by decide) hL)
    | with_reducible apply dropCapture_fit (In.trans (by decide) hL)
    | with_reducible apply dropAllCapture_fit (In.trans (by decide) hL)
    | with_reducible apply settlePower_fit (In.trans (by decide) hL)
    | with_reducible apply netModeChange_fit (In.trans (by decide) hL)
    | with_reducible apply freshCuts_fit (In.trans (by decide) hL)
    | (with_reducible apply Fit.ite <;> intro _)
    | split)

theorem blockChange_fit {L : Nat} {s0 : State} {m0 : Mode} {s : State} (hL : In 0x6A48E02 L) (h0 : Fit L s0 s) :
    Fit L s0 (blockChange m0 s) := by
  unfold blockChange
  repeat' (first
    | with_reducible assumption
    | intro _
    | (extract_lets +onlyGivenNames x; have y := x; first | (guard_hyp y : State; clear y; refine Fit.seq L s0 x ?_ ?_; rotate_left; intro hx; clear_value x; rotate_left; dsimp -zeta only [x]; clear x) | (clear y; clear_value x))
    | with_reducible apply jobLost_fit (In.trans (by decide) hL)
    | with_reducible apply endJobsAll_fit (In.trans (by decide) hL)
    | with_reducible apply suspendJobs_fit (In.trans (by decide) hL)
    | with_reducible apply settleLayers_fit (In.trans (by decide) hL)
    | with_reducible apply abandonCal_fit (In.trans (by decide) hL)
    | with_reducible apply changePoint_fit (In.trans (by decide) hL)
    | with_reducible apply enterSelfRefresh_fit (In.trans (by decide) hL)
    | with_reducible apply endTests_fit (In.trans (by decide) hL)
    | (with_reducible apply Fit.ite <;> intro _)
    | split)

theorem dormantEntry_fit {L : Nat} {s0 : State} {fin : State → State} {but : Option CmdKey} {s : State} (hL : In 0xFFFFFFE L) (h0 : Fit L s0 s) (h_fin : ∀ v0, Fit L s0 v0 → Fit L s0 (fin v0)) :
    Fit L s0 (dormantEntry fin but s) := by
  unfold dormantEntry
  repeat' (first
    | with_reducible assumption
    | (extract_lets +onlyGivenNames x; have y := x; first | (guard_hyp y : State; clear y; refine Fit.seq L s0 x ?_ ?_; rotate_left; intro hx; clear_value x; rotate_left; dsimp -zeta only [x]; clear x) | (clear y; clear_value x))
    | with_reducible apply raise_fit (In.trans (by decide) hL)
    | with_reducible apply auditAll_fit (In.trans (by decide) hL)
    | with_reducible apply nvFlush_fit (In.trans (by decide) hL)
    | with_reducible apply endUpdate_fit (In.trans (by decide) hL)
    | with_reducible apply endFieldOpen_fit (In.trans (by decide) hL)
    | with_reducible apply timersToHorizon_fit (In.trans (by decide) hL)
    | with_reducible apply recordTime_fit (In.trans (by decide) hL)
    | with_reducible apply releaseAll_fit (In.trans (by decide) hL)
    | with_reducible apply dmcReset_fit (In.trans (by decide) hL)
    | with_reducible apply hostDown_fit (In.trans (by decide) hL)
    | with_reducible apply forgetCommands_fit (In.trans (by decide) hL)
    | with_reducible apply endSched_fit (In.trans (by decide) hL)
    | with_reducible apply endCommands_fit (In.trans (by decide) hL)
    | with_reducible apply endLease_fit (In.trans (by decide) hL)
    | with_reducible apply mainReset_fit (In.trans (by decide) hL)
    | with_reducible apply emptyPools_fit (In.trans (by decide) hL)
    | with_reducible apply h_fin)

theorem enterMode_fit {L : Nat} {s0 : State} {m : Mode} {rate : Nat} {k : Option Nat} {cause : Nat} {s : State} (hL : In 0x6FFCF5A L) (h0 : Fit L s0 s) :
    Fit L s0 (enterMode m rate k cause s) := by
  unfold enterMode
  repeat' (first
    | with_reducible assumption
    | intro _
    | (extract_lets +onlyGivenNames x; have y := x; first | (guard_hyp y : State; clear y; refine Fit.seq L s0 x ?_ ?_; rotate_left; intro hx; clear_value x; rotate_left; dsimp -zeta only [x]; clear x) | (clear y; clear_value x))
    | with_reducible apply pApply_fit (In.trans (by decide) hL)
    | with_reducible apply raise_fit (In.trans (by decide) hL)
    | with_reducible apply onMode_fit (In.trans (by decide) hL)
    | with_reducible apply startGrace_fit (In.trans (by decide) hL)
    | with_reducible apply checkWarm_fit (In.trans (by decide) hL)
    | with_reducible apply leaveWarm_fit (In.trans (by decide) hL)
    | with_reducible apply panelChange_fit (In.trans (by decide) hL)
    | with_reducible apply sceneChange_fit (In.trans (by decide) hL)
    | with_reducible apply blockChange_fit (In.trans (by decide) hL)
    | (with_reducible apply Fit.ite <;> intro _)
    | split)

theorem applyChange_fit {L : Nat} {s0 : State} {x : Change} {s : State} (hL : In 0xFFFFFFE L) (h0 : Fit L s0 s) :
    Fit L s0 (applyChange x s) := by
  unfold applyChange
  repeat' (first
    | with_reducible assumption
    | intro _
    | (extract_lets +onlyGivenNames x; have y := x; first | (guard_hyp y : State; clear y; refine Fit.seq L s0 x ?_ ?_; rotate_left; intro hx; clear_value x; rotate_left; dsimp -zeta only [x]; clear x) | (guard_hyp y : CmdSt; clear y; dsimp -zeta only [x]; clear x) | (clear y; clear_value x))
    | with_reducible apply raise_fit (In.trans (by decide) hL)
    | with_reducible apply finish_fit (In.trans (by decide) hL)
    | with_reducible apply onMode_fit (In.trans (by decide) hL)
    | with_reducible apply settleCheck_fit (In.trans (by decide) hL)
    | with_reducible apply dormantEntry_fit (In.trans (by decide) hL)
    | with_reducible apply enterMode_fit (In.trans (by decide) hL)
    | (with_reducible apply Fit.ite <;> intro _)
    | split)

theorem completeChange_fit {L : Nat} {s0 : State} {k dark : Nat} {s : State} (hL : In 0x800E42 L) (h0 : Fit L s0 s) :
    Fit L s0 (completeChange k dark s) := by
  unfold completeChange
  repeat' (first
    | with_reducible assumption
    | intro _
    | (extract_lets +onlyGivenNames x; have y := x; first | (guard_hyp y : State; clear y; refine Fit.seq L s0 x ?_ ?_; rotate_left; intro hx; clear_value x; rotate_left; dsimp -zeta only [x]; clear x) | (clear y; clear_value x))
    | with_reducible apply finish_fit (In.trans (by decide) hL)
    | with_reducible apply onMode_fit (In.trans (by decide) hL)
    | split)

theorem safeActions_fit {L : Nat} {s0 : State} {c : SafeCause} {s : State} (hL : In 0x7FFCF5A L) (h0 : Fit L s0 s) :
    Fit L s0 (safeActions c s) := by
  unfold safeActions
  repeat' (first
    | with_reducible assumption
    | intro _
    | (extract_lets +onlyGivenNames x; have y := x; first | (guard_hyp y : State; clear y; refine Fit.seq L s0 x ?_ ?_; rotate_left; intro hx; clear_value x; rotate_left; dsimp -zeta only [x]; clear x) | (clear y; clear_value x))
    | with_reducible apply finish_fit (In.trans (by decide) hL)
    | with_reducible apply linksIdle_fit (In.trans (by decide) hL)
    | with_reducible apply suspendJobs_fit (In.trans (by decide) hL)
    | with_reducible apply abandonSweep_fit (In.trans (by decide) hL)
    | with_reducible apply lightsOut_fit (In.trans (by decide) hL)
    | with_reducible apply abandonCal_fit (In.trans (by decide) hL)
    | with_reducible apply endLease_fit (In.trans (by decide) hL)
    | with_reducible apply onMode_fit (In.trans (by decide) hL)
    | with_reducible apply cancelChanges_fit (In.trans (by decide) hL)
    | with_reducible apply enterMode_fit (In.trans (by decide) hL)
    | (with_reducible apply Fit.ite <;> intro _)
    | (with_reducible apply Fit.upd_buf (In.trans (by decide) hL); first | (with_reducible apply Fit.ite <;> intro _) | (fail_if_success split))
    | split)

end Sys2Proof.Machine
end

