-- ==== Sys2Proof/Laws/FitStartOps.lean ====
section
/-! SUPPORT. What each definition of Machine/StartOps.lean touches, and that it keeps the invariant: one lemma each. -/

set_option Elab.async false
set_option linter.all false

namespace Sys2Proof.Machine

theorem deliverLogged_fit {L : Nat} {s0 : State} {s : State} (hL : In 0x800C02 L) (h0 : Fit L s0 s) :
    Fit L s0 (deliverLogged s) := by
  unfold deliverLogged
  repeat' (first
    | with_reducible assumption
    | intro _
    | with_reducible apply deliver_fit (In.trans (by decide) hL)
    | (with_reducible apply Fit.foldl))

theorem startEvent_fit {L : Nat} {s0 : State} {mask : Nat} {s : State} (hL : In 0x800C42 L) (h0 : Fit L s0 s) :
    Fit L s0 (startEvent mask s) := by
  unfold startEvent
  repeat' (first
    | with_reducible assumption
    | intro _
    | (extract_lets +onlyGivenNames x; have y := x; first | (guard_hyp y : State; clear y; refine Fit.seq L s0 x ?_ ?_; rotate_left; intro hx; clear_value x; rotate_left; dsimp -zeta only [x]; clear x) | (clear y; clear_value x))
    | with_reducible apply raise_fit (In.trans (by decide) hL)
    | with_reducible apply onMode_fit (In.trans (by decide) hL))

theorem owedEvents_fit {L : Nat} {s0 : State} {s : State} (hL : In 0x8900C02 L) (h0 : Fit L s0 s) :
    Fit L s0 (owedEvents s) := by
  unfold owedEvents
  repeat' (first
    | with_reducible assumption
    | intro _
    | (extract_lets +onlyGivenNames x; have y := x; first | (guard_hyp y : State; clear y; refine Fit.seq L s0 x ?_ ?_; rotate_left; intro hx; clear_value x; rotate_left; dsimp -zeta only [x]; clear x) | (clear y; clear_value x))
    | with_reducible apply raise_fit (In.trans (by decide) hL)
    | with_reducible apply onSec_fit (In.trans (by decide) hL)
    | with_reducible apply stageEvent_fit (In.trans (by decide) hL)
    | with_reducible apply onStd_fit (In.trans (by decide) hL)
    | (with_reducible apply Fit.ite <;> intro _)
    | split)

theorem ownCamBufs_fit {L : Nat} {s0 : State} {s : State} (hL : In 0x200 L) (h0 : Fit L s0 s) :
    Fit L s0 (ownCamBufs s) := by
  unfold ownCamBufs
  repeat' (first
    | with_reducible assumption
    | intro _
    | with_reducible apply move_fit (In.trans (by decide) hL))

theorem startFirmware_fit {L : Nat} {s0 : State} {s : State} (hL : In 0x9EA0E22 L) (h0 : Fit L s0 s) :
    Fit L s0 (startFirmware s) := by
  unfold startFirmware
  repeat' (first
    | with_reducible assumption
    | intro _
    | (extract_lets +onlyGivenNames x; have y := x; first | (guard_hyp y : State; clear y; refine Fit.seq L s0 x ?_ ?_; rotate_left; intro hx; clear_value x; rotate_left; dsimp -zeta only [x]; clear x) | (guard_hyp y : CmdSt; clear y; dsimp -zeta only [x]; clear x) | (clear y; clear_value x))
    | with_reducible apply boot_fit (In.trans (by decide) hL)
    | with_reducible apply netRestore_fit (In.trans (by decide) hL)
    | with_reducible apply restoreTime_fit (In.trans (by decide) hL)
    | with_reducible apply ownCamBufs_fit (In.trans (by decide) hL)
    | (with_reducible apply Fit.upd_cmd_cam_plk_dmc (In.trans (by decide) hL); rotate_left; with_reducible rfl; first | (with_reducible apply Fit.ite <;> intro _) | (fail_if_success split)))

theorem autoConfirm_fit {L : Nat} {s0 : State} {s : State} (hL : In 0x9800C02 L) (h0 : Fit L s0 s) :
    Fit L s0 (autoConfirm s) := by
  unfold autoConfirm
  repeat' (first
    | with_reducible assumption
    | (extract_lets +onlyGivenNames x; have y := x; first | (guard_hyp y : State; clear y; refine Fit.seq L s0 x ?_ ?_; rotate_left; intro hx; clear_value x; rotate_left; dsimp -zeta only [x]; clear x) | (clear y; clear_value x))
    | with_reducible apply confirmRunning_fit (In.trans (by decide) hL)
    | (with_reducible apply Fit.ite <;> intro _)
    | split)

theorem alarmsBack_fit {L : Nat} {s0 : State} {s : State} (hL : In 0x800E22 L) (h0 : Fit L s0 s) :
    Fit L s0 (alarmsBack s) := by
  unfold alarmsBack
  repeat' (first
    | with_reducible assumption
    | intro _
    | (extract_lets +onlyGivenNames x; have y := x; first | (guard_hyp y : State; clear y; refine Fit.seq L s0 x ?_ ?_; rotate_left; intro hx; clear_value x; rotate_left; dsimp -zeta only [x]; clear x) | (clear y; clear_value x))
    | with_reducible apply fireTimer_fit (In.trans (by decide) hL)
    | (with_reducible apply Fit.foldl)
    | (with_reducible apply Fit.upd_time (In.trans (by decide) hL); first | (with_reducible apply Fit.ite <;> intro _) | (fail_if_success split)))

theorem startDone_fit {L : Nat} {s0 : State} {mask : Nat} {s : State} (hL : In 0x9900E62 L) (h0 : Fit L s0 s) :
    Fit L s0 (startDone mask s) := by
  unfold startDone
  repeat' (first
    | with_reducible assumption
    | with_reducible apply deliverLogged_fit (In.trans (by decide) hL)
    | with_reducible apply startEvent_fit (In.trans (by decide) hL)
    | with_reducible apply owedEvents_fit (In.trans (by decide) hL)
    | with_reducible apply autoConfirm_fit (In.trans (by decide) hL)
    | with_reducible apply alarmsBack_fit (In.trans (by decide) hL))

theorem relight_fit {L : Nat} {s0 : State} {s : State} (hL : In 0x840C02 L) (h0 : Fit L s0 s) :
    Fit L s0 (relight s) := by
  unfold relight
  repeat' (first
    | with_reducible assumption
    | (extract_lets +onlyGivenNames x; have y := x; first | (guard_hyp y : State; clear y; refine Fit.seq L s0 x ?_ ?_; rotate_left; intro hx; clear_value x; rotate_left; dsimp -zeta only [x]; clear x) | (clear y; clear_value x))
    | with_reducible apply beginDark_fit (In.trans (by decide) hL))

theorem startAfterReset_fit {L : Nat} {s0 : State} {m : Mode} {rate : Nat} {leave : Bool} {s : State} (hL : In 0x9FE0E62 L) (h0 : Fit L s0 s) :
    Fit L s0 (startAfterReset m rate leave s) := by
  unfold startAfterReset
  repeat' (first
    | with_reducible assumption
    | intro _
    | (extract_lets +onlyGivenNames x; have y := x; first | (guard_hyp y : State; clear y; refine Fit.seq L s0 x ?_ ?_; rotate_left; intro hx; clear_value x; rotate_left; dsimp -zeta only [x]; clear x) | (guard_hyp y : EvtSt; clear y; dsimp -zeta only [x]; clear x) | (clear y; clear_value x))
    | with_reducible apply raise_fit (In.trans (by decide) hL)
    | with_reducible apply onMode_fit (In.trans (by decide) hL)
    | with_reducible apply startFirmware_fit (In.trans (by decide) hL)
    | with_reducible apply startDone_fit (In.trans (by decide) hL)
    | with_reducible apply relight_fit (In.trans (by decide) hL)
    | (with_reducible apply Fit.ite <;> intro _)
    | (with_reducible apply Fit.upd_evt (In.trans (by decide) hL); rotate_left; with_reducible rfl; with_reducible rfl; first | (with_reducible apply Fit.ite <;> intro _) | (fail_if_success split))
    | split)

theorem startAfterWake_fit {L : Nat} {s0 : State} {mask : Nat} {s : State} (hL : In 0x9FA0E62 L) (h0 : Fit L s0 s) :
    Fit L s0 (startAfterWake mask s) := by
  unfold startAfterWake
  repeat' (first
    | with_reducible assumption
    | intro _
    | (extract_lets +onlyGivenNames x; have y := x; first | (guard_hyp y : State; clear y; refine Fit.seq L s0 x ?_ ?_; rotate_left; intro hx; clear_value x; rotate_left; dsimp -zeta only [x]; clear x) | (clear y; clear_value x))
    | with_reducible apply raise_fit (In.trans (by decide) hL)
    | with_reducible apply onMode_fit (In.trans (by decide) hL)
    | with_reducible apply startFirmware_fit (In.trans (by decide) hL)
    | with_reducible apply startDone_fit (In.trans (by decide) hL)
    | (with_reducible apply Fit.ite <;> intro _)
    | split)

end Sys2Proof.Machine
end

