-- ==== Sys2Proof/Laws/FitLevels.lean ====
section
/-! SUPPORT. What each definition of Machine/Levels.lean touches, and that it keeps the invariant: one lemma each. -/

set_option Elab.async false
set_option linter.all false

namespace Sys2Proof.Machine

theorem endBlockWork_fit {L : Nat} {s0 : State} {items tests : List Nat} {s : State} (hL : In 0x6A00E02 L) (h0 : Fit L s0 s) :
    Fit L s0 (endBlockWork items tests s) := by
  unfold endBlockWork
  repeat' (first
    | with_reducible assumption
    | intro _
    | with_reducible apply abandonCal_fit (In.trans (by decide) hL)
    | with_reducible apply endTestsOf_fit (In.trans (by decide) hL))

theorem linkBegin_fit {L : Nat} {s0 : State} {b second : Bool} {s : State} (hL : In 0x8C0E02 L) (h0 : Fit L s0 s) :
    Fit L s0 (linkBegin b second s) := by
  unfold linkBegin
  repeat' (first
    | with_reducible assumption
    | (extract_lets +onlyGivenNames x; have y := x; first | (guard_hyp y : State; clear y; refine Fit.seq L s0 x ?_ ?_; rotate_left; intro hx; clear_value x; rotate_left; dsimp -zeta only [x]; clear x) | (clear y; clear_value x))
    | with_reducible apply startTrain_fit (In.trans (by decide) hL)
    | with_reducible apply darken_fit (In.trans (by decide) hL)
    | (with_reducible apply Fit.ite <;> intro _))

theorem steeringBegin_fit {L : Nat} {s0 : State} {s : State} (hL : In 0x9C0C1A L) (h0 : Fit L s0 s) :
    Fit L s0 (steeringBegin s) := by
  unfold steeringBegin
  repeat' (first
    | with_reducible assumption
    | intro _
    | (extract_lets +onlyGivenNames x; have y := x; first | (guard_hyp y : State; clear y; refine Fit.seq L s0 x ?_ ?_; rotate_left; intro hx; clear_value x; rotate_left; dsimp -zeta only [x]; clear x) | (clear y; clear_value x))
    | with_reducible apply onStd_fit (In.trans (by decide) hL)
    | with_reducible apply stdDischarge_fit (In.trans (by decide) hL)
    | with_reducible apply onScn_fit (In.trans (by decide) hL)
    | with_reducible apply darken_fit (In.trans (by decide) hL)
    | (with_reducible apply Fit.ite <;> intro _)
    | (with_reducible apply Fit.foldl)
    | split)

theorem blockBegin_fit {L : Nat} {s0 : State} {dom level : Nat} {_rseq : Nat} {s : State} (hL : In 0x6FFCE1A L) (h0 : Fit L s0 s) :
    Fit L s0 (blockBegin dom level _rseq s) := by
  unfold blockBegin
  repeat' (first
    | with_reducible assumption
    | intro _
    | (extract_lets +onlyGivenNames x; have y := x; first | (guard_hyp y : State; clear y; refine Fit.seq L s0 x ?_ ?_; rotate_left; intro hx; clear_value x; rotate_left; dsimp -zeta only [x]; clear x) | (clear y; clear_value x))
    | with_reducible apply onHead_fit (In.trans (by decide) hL)
    | with_reducible apply restartSyn_fit (In.trans (by decide) hL)
    | with_reducible apply cirrusReset_fit (In.trans (by decide) hL)
    | with_reducible apply onPort_fit (In.trans (by decide) hL)
    | with_reducible apply letAll_fit (In.trans (by decide) hL)
    | with_reducible apply darken_fit (In.trans (by decide) hL)
    | with_reducible apply netReset_fit (In.trans (by decide) hL)
    | with_reducible apply endBlockWork_fit (In.trans (by decide) hL)
    | with_reducible apply linkBegin_fit (In.trans (by decide) hL)
    | with_reducible apply steeringBegin_fit (In.trans (by decide) hL)
    | (with_reducible apply Fit.ite <;> intro _)
    | split)

theorem blockEnd_fit {L : Nat} {s0 : State} {dom _level : Nat} {_success : Bool} {s : State} (hL : In 0x140000 L) (h0 : Fit L s0 s) :
    Fit L s0 (blockEnd dom _level _success s) := by
  unfold blockEnd
  repeat' (first
    | with_reducible assumption
    | intro _
    | (extract_lets +onlyGivenNames x; have y := x; first | (guard_hyp y : State; clear y; refine Fit.seq L s0 x ?_ ?_; rotate_left; intro hx; clear_value x; rotate_left; dsimp -zeta only [x]; clear x) | (clear y; clear_value x))
    | with_reducible apply onStd_fit (In.trans (by decide) hL)
    | with_reducible apply onHead_fit (In.trans (by decide) hL)
    | split)

theorem camsReset_fit {L : Nat} {s0 : State} {s : State} (hL : In 0x824E02 L) (h0 : Fit L s0 s) :
    Fit L s0 (camsReset s) := by
  unfold camsReset
  repeat' (first
    | with_reducible assumption
    | intro _
    | (extract_lets +onlyGivenNames x; have y := x; first | (guard_hyp y : State; clear y; refine Fit.seq L s0 x ?_ ?_; rotate_left; intro hx; clear_value x; rotate_left; dsimp -zeta only [x]; clear x) | (clear y; clear_value x))
    | with_reducible apply onPort_fit (In.trans (by decide) hL)
    | with_reducible apply dropAllCapture_fit (In.trans (by decide) hL)
    | with_reducible apply endI2c_fit (In.trans (by decide) hL)
    | (with_reducible apply Fit.foldl))

theorem planePools_fit {L : Nat} {s0 : State} {s : State} (hL : In 0x200 L) (h0 : Fit L s0 s) :
    Fit L s0 (planePools s) := by
  unfold planePools
  repeat' (first
    | with_reducible assumption
    | intro _
    | with_reducible apply freePool_fit (In.trans (by decide) hL)
    | (with_reducible apply Fit.foldl))

theorem endHolds_fit {L : Nat} {s0 : State} {s : State} (hL : In 0x800E02 L) (h0 : Fit L s0 s) :
    Fit L s0 (endHolds s) := by
  unfold endHolds
  repeat' (first
    | with_reducible assumption
    | intro _
    | with_reducible apply releaseStage_fit (In.trans (by decide) hL)
    | (with_reducible apply Fit.foldl))

theorem planeBegin_fit {L : Nat} {s0 : State} {s : State} (hL : In 0xFFFDE1E L) (h0 : Fit L s0 s) :
    Fit L s0 (planeBegin s) := by
  unfold planeBegin
  repeat' (first
    | with_reducible assumption
    | intro _
    | (extract_lets +onlyGivenNames x; have y := x; first | (guard_hyp y : State; clear y; refine Fit.seq L s0 x ?_ ?_; rotate_left; intro hx; clear_value x; rotate_left; dsimp -zeta only [x]; clear x) | (clear y; clear_value x))
    | with_reducible apply raise_fit (In.trans (by decide) hL)
    | with_reducible apply endUpdate_fit (In.trans (by decide) hL)
    | with_reducible apply linksIdle_fit (In.trans (by decide) hL)
    | with_reducible apply mpiCollect_fit (In.trans (by decide) hL)
    | with_reducible apply endSessions_fit (In.trans (by decide) hL)
    | with_reducible apply onSyn_fit (In.trans (by decide) hL)
    | with_reducible apply abandonSyn_fit (In.trans (by decide) hL)
    | with_reducible apply jobEnds_fit (In.trans (by decide) hL)
    | with_reducible apply endJobsAll_fit (In.trans (by decide) hL)
    | with_reducible apply onScn_fit (In.trans (by decide) hL)
    | with_reducible apply clearLayers_fit (In.trans (by decide) hL)
    | with_reducible apply dropFrames_fit (In.trans (by decide) hL)
    | with_reducible apply lightsOut_fit (In.trans (by decide) hL)
    | with_reducible apply netReset_fit (In.trans (by decide) hL)
    | with_reducible apply endCopies_fit (In.trans (by decide) hL)
    | with_reducible apply abandonCal_fit (In.trans (by decide) hL)
    | with_reducible apply dropRetrain_fit (In.trans (by decide) hL)
    | with_reducible apply closeWindows_fit (In.trans (by decide) hL)
    | with_reducible apply endTests_fit (In.trans (by decide) hL)
    | with_reducible apply camsReset_fit (In.trans (by decide) hL)
    | with_reducible apply planePools_fit (In.trans (by decide) hL)
    | with_reducible apply endHolds_fit (In.trans (by decide) hL)
    | (with_reducible apply Fit.ite <;> intro _)
    | (with_reducible apply Fit.upd_dmc (In.trans (by decide) hL); first | (with_reducible apply Fit.ite <;> intro _) | (fail_if_success split))
    | split)

theorem planeEnd_fit {L : Nat} {s0 : State} {s : State} (hL : In 0xAC0E02 L) (h0 : Fit L s0 s) :
    Fit L s0 (planeEnd s) := by
  unfold planeEnd
  repeat' (first
    | with_reducible assumption
    | intro _
    | (extract_lets +onlyGivenNames x; have y := x; first | (guard_hyp y : State; clear y; refine Fit.seq L s0 x ?_ ?_; rotate_left; intro hx; clear_value x; rotate_left; dsimp -zeta only [x]; clear x) | ((first | (guard_hyp y : _ → State; clear y) | (guard_hyp y : _ → _ → State; clear y) | (guard_hyp y : _ → _ → _ → State; clear y)); dsimp -zeta only [x]; clear x) | (clear y; clear_value x))
    | with_reducible apply startTrain_fit (In.trans (by decide) hL)
    | with_reducible apply onScn_fit (In.trans (by decide) hL)
    | (with_reducible apply Fit.ite <;> intro _)
    | (with_reducible apply Fit.foldl)
    | (with_reducible apply Fit.upd_dmc (In.trans (by decide) hL); first | (with_reducible apply Fit.ite <;> intro _) | (fail_if_success split))
    | split)

theorem moduleBegin_fit {L : Nat} {s0 : State} {_rseq : Nat} {s : State} (hL : In 0xFFFFFFE L) (h0 : Fit L s0 s) :
    Fit L s0 (moduleBegin _rseq s) := by
  unfold moduleBegin
  repeat' (first
    | with_reducible assumption
    | (extract_lets +onlyGivenNames x; have y := x; first | (guard_hyp y : State; clear y; refine Fit.seq L s0 x ?_ ?_; rotate_left; intro hx; clear_value x; rotate_left; dsimp -zeta only [x]; clear x) | (clear y; clear_value x))
    | with_reducible apply auditAll_fit (In.trans (by decide) hL)
    | with_reducible apply endUpdate_fit (In.trans (by decide) hL)
    | with_reducible apply endFieldOpen_fit (In.trans (by decide) hL)
    | with_reducible apply lightsOut_fit (In.trans (by decide) hL)
    | with_reducible apply timersToHorizon_fit (In.trans (by decide) hL)
    | with_reducible apply recordTime_fit (In.trans (by decide) hL)
    | with_reducible apply releaseAll_fit (In.trans (by decide) hL)
    | with_reducible apply dmcReset_fit (In.trans (by decide) hL)
    | with_reducible apply hostDown_fit (In.trans (by decide) hL)
    | with_reducible apply forgetCommands_fit (In.trans (by decide) hL)
    | with_reducible apply endSched_fit (In.trans (by decide) hL)
    | with_reducible apply endCommands_fit (In.trans (by decide) hL)
    | with_reducible apply endLease_fit (In.trans (by decide) hL)
    | with_reducible apply mainReset_fit (In.trans (by decide) hL)
    | with_reducible apply emptyPools_fit (In.trans (by decide) hL)
    | (with_reducible apply Fit.ite <;> intro _))

theorem moduleEnd_fit {L : Nat} {s0 : State} {r : Recov} {s : State} (hL : In 0x9FE0E62 L) (h0 : Fit L s0 s) :
    Fit L s0 (moduleEnd r s) := by
  unfold moduleEnd
  repeat' (first
    | with_reducible assumption
    | with_reducible apply startAfterReset_fit (In.trans (by decide) hL))

theorem engineOff_fit {L : Nat} {s0 : State} {s : State} (hL : In 0xC000 L) (h0 : Fit L s0 s) :
    Fit L s0 (engineOff s) := by
  unfold engineOff
  repeat' (first
    | with_reducible assumption
    | intro _
    | (extract_lets +onlyGivenNames x; have y := x; first | (guard_hyp y : State; clear y; refine Fit.seq L s0 x ?_ ?_; rotate_left; intro hx; clear_value x; rotate_left; dsimp -zeta only [x]; clear x) | (clear y; clear_value x))
    | with_reducible apply onSess_fit (In.trans (by decide) hL)
    | with_reducible apply onCdc_fit (In.trans (by decide) hL)
    | (with_reducible apply Fit.ite <;> intro _)
    | split)

theorem synCut_fit {L : Nat} {s0 : State} {s : State} (hL : In 0x6A10F42 L) (h0 : Fit L s0 s) :
    Fit L s0 (synCut s) := by
  unfold synCut
  repeat' (first
    | with_reducible assumption
    | intro _
    | (extract_lets +onlyGivenNames x; have y := x; first | (guard_hyp y : State; clear y; refine Fit.seq L s0 x ?_ ?_; rotate_left; intro hx; clear_value x; rotate_left; dsimp -zeta only [x]; clear x) | (clear y; clear_value x))
    | with_reducible apply raise_fit (In.trans (by decide) hL)
    | with_reducible apply onSyn_fit (In.trans (by decide) hL)
    | with_reducible apply stepDown_fit (In.trans (by decide) hL)
    | (with_reducible apply Fit.ite <;> intro _)
    | split)

theorem synGroupOff_fit {L : Nat} {s0 : State} {s : State} (hL : In 0x6A10F42 L) (h0 : Fit L s0 s) :
    Fit L s0 (synGroupOff s) := by
  unfold synGroupOff
  repeat' (first
    | with_reducible assumption
    | intro _
    | (extract_lets +onlyGivenNames x; have y := x; first | (guard_hyp y : State; clear y; refine Fit.seq L s0 x ?_ ?_; rotate_left; intro hx; clear_value x; rotate_left; dsimp -zeta only [x]; clear x) | (clear y; clear_value x))
    | with_reducible apply raise_fit (In.trans (by decide) hL)
    | with_reducible apply onSyn_fit (In.trans (by decide) hL)
    | with_reducible apply restartSyn_fit (In.trans (by decide) hL)
    | with_reducible apply synCut_fit (In.trans (by decide) hL)
    | (with_reducible apply Fit.ite <;> intro _)
    | split)

theorem sweepGroupOff_fit {L : Nat} {s0 : State} {s : State} (hL : In 0x6A20F42 L) (h0 : Fit L s0 s) :
    Fit L s0 (sweepGroupOff s) := by
  unfold sweepGroupOff
  repeat' (first
    | with_reducible assumption
    | intro _
    | (extract_lets +onlyGivenNames x; have y := x; first | (guard_hyp y : State; clear y; refine Fit.seq L s0 x ?_ ?_; rotate_left; intro hx; clear_value x; rotate_left; dsimp -zeta only [x]; clear x) | (clear y; clear_value x))
    | with_reducible apply raise_fit (In.trans (by decide) hL)
    | with_reducible apply onCam_fit (In.trans (by decide) hL)
    | with_reducible apply stepDown_fit (In.trans (by decide) hL)
    | (with_reducible apply Fit.ite <;> intro _)
    | (with_reducible apply Fit.foldl)
    | split)

theorem maskPort_fit {L : Nat} {s0 : State} {c : Nat} {s : State} (hL : In 0x820E02 L) (h0 : Fit L s0 s) :
    Fit L s0 (maskPort c s) := by
  unfold maskPort
  repeat' (first
    | with_reducible assumption
    | intro _
    | (extract_lets +onlyGivenNames x; have y := x; first | (guard_hyp y : State; clear y; refine Fit.seq L s0 x ?_ ?_; rotate_left; intro hx; clear_value x; rotate_left; dsimp -zeta only [x]; clear x) | (clear y; clear_value x))
    | with_reducible apply raise_fit (In.trans (by decide) hL)
    | with_reducible apply onPort_fit (In.trans (by decide) hL)
    | with_reducible apply portDown_fit (In.trans (by decide) hL))

theorem netMask_fit {L : Nat} {s0 : State} {n : Nat} {s : State} (hL : In 0xC00E02 L) (h0 : Fit L s0 s) :
    Fit L s0 (netMask n s) := by
  unfold netMask
  repeat' (first
    | with_reducible assumption
    | intro _
    | (extract_lets +onlyGivenNames x; have y := x; first | (guard_hyp y : State; clear y; refine Fit.seq L s0 x ?_ ?_; rotate_left; intro hx; clear_value x; rotate_left; dsimp -zeta only [x]; clear x) | (clear y; clear_value x))
    | with_reducible apply raise_fit (In.trans (by decide) hL)
    | with_reducible apply onNetPort_fit (In.trans (by decide) hL)
    | with_reducible apply netDrop_fit (In.trans (by decide) hL))

theorem ownAction_fit {L : Nat} {s0 : State} {dom : Nat} {pay : List Byte} {s : State} (hL : In 0x6E3CF42 L) (h0 : Fit L s0 s) :
    Fit L s0 (ownAction dom pay s) := by
  unfold ownAction
  repeat' (first
    | with_reducible assumption
    | with_reducible apply engineOff_fit (In.trans (by decide) hL)
    | with_reducible apply synGroupOff_fit (In.trans (by decide) hL)
    | with_reducible apply sweepGroupOff_fit (In.trans (by decide) hL)
    | with_reducible apply maskPort_fit (In.trans (by decide) hL)
    | with_reducible apply netMask_fit (In.trans (by decide) hL)
    | (with_reducible apply Fit.ite <;> intro _))

end Sys2Proof.Machine
end

