-- ==== Sys2Proof/Laws/FitRecovery.lean ====
section
/-! SUPPORT. What each definition of Machine/Recovery.lean touches, and that it keeps the invariant: one lemma each. -/

set_option Elab.async false
set_option linter.all false

namespace Sys2Proof.Machine

theorem recovRecord_fit {L : Nat} {s0 : State} {r : Recov} {isEnd : Bool} {outcome esc : Nat} {s : State} (hL : In 0x800C02 L) (h0 : Fit L s0 s) :
    Fit L s0 (recovRecord r isEnd outcome esc s) := by
  unfold recovRecord
  repeat' (first
    | with_reducible assumption
    | (extract_lets +onlyGivenNames x; have y := x; first | (guard_hyp y : State; clear y; refine Fit.seq L s0 x ?_ ?_; rotate_left; intro hx; clear_value x; rotate_left; dsimp -zeta only [x]; clear x) | (clear y; clear_value x))
    | with_reducible apply formRec_fit (In.trans (by decide) hL)
    | split)

theorem takeCapture_fit {L : Nat} {s0 : State} {r : Recov} {s : State} (hL : In 0x804 L) (h0 : Fit L s0 s) :
    Fit L s0 (takeCapture r s) := by
  unfold takeCapture
  repeat' (first
    | with_reducible assumption
    | intro _
    | (extract_lets +onlyGivenNames x; have y := x; first | (guard_hyp y : State; clear y; refine Fit.seq L s0 x ?_ ?_; rotate_left; intro hx; clear_value x; rotate_left; dsimp -zeta only [x]; clear x) | (guard_hyp y : EvtSt; clear y; dsimp -zeta only [x]; clear x) | (clear y; clear_value x))
    | with_reducible apply drawn_fit (In.trans (by decide) hL)
    | (with_reducible apply Fit.ite <;> intro _)
    | (with_reducible apply Fit.upd_evt (In.trans (by decide) hL); rotate_left; with_reducible rfl; with_reducible rfl; first | (with_reducible apply Fit.ite <;> intro _) | (fail_if_success split))
    | split)

theorem dropRecov_fit {L : Nat} {s0 : State} {rseq : Nat} {s : State} (hL : In 0x800 L) (h0 : Fit L s0 s) :
    Fit L s0 (dropRecov rseq s) := by
  unfold dropRecov
  repeat' (first
    | with_reducible assumption
    | intro _
    | (extract_lets +onlyGivenNames x; have y := x; first | (guard_hyp y : State; clear y; refine Fit.seq L s0 x ?_ ?_; rotate_left; intro hx; clear_value x; rotate_left; dsimp -zeta only [x]; clear x) | (guard_hyp y : EvtSt; clear y; dsimp -zeta only [x]; clear x) | (clear y; clear_value x))
    | (with_reducible apply Fit.upd_evt (In.trans (by decide) hL); rotate_left; with_reducible rfl; with_reducible rfl; first | (with_reducible apply Fit.ite <;> intro _) | (fail_if_success split)))

theorem endRecov_fit {L : Nat} {s0 : State} {r : Recov} {outcome esc : Nat} {s : State} (hL : In 0x800E02 L) (h0 : Fit L s0 s) :
    Fit L s0 (endRecov r outcome esc s) := by
  unfold endRecov
  repeat' (first
    | with_reducible assumption
    | (extract_lets +onlyGivenNames x; have y := x; first | (guard_hyp y : State; clear y; refine Fit.seq L s0 x ?_ ?_; rotate_left; intro hx; clear_value x; rotate_left; dsimp -zeta only [x]; clear x) | (guard_hyp y : CmdSt; clear y; dsimp -zeta only [x]; clear x) | (clear y; clear_value x))
    | with_reducible apply auditAll_fit (In.trans (by decide) hL)
    | with_reducible apply finish_fit (In.trans (by decide) hL)
    | with_reducible apply recovRecord_fit (In.trans (by decide) hL)
    | with_reducible apply dropRecov_fit (In.trans (by decide) hL)
    | (with_reducible apply Fit.ite <;> intro _)
    | split)

theorem startRecov_fit {L : Nat} {s0 : State} {r : Recov} {s : State} (hL : In 0xFFFFFFE L) (h0 : Fit L s0 s) :
    Fit L s0 (startRecov r s) := by
  unfold startRecov
  repeat' (first
    | with_reducible assumption
    | intro _
    | (extract_lets +onlyGivenNames x; have y := x; first | (guard_hyp y : State; clear y; refine Fit.seq L s0 x ?_ ?_; rotate_left; intro hx; clear_value x; rotate_left; dsimp -zeta only [x]; clear x) | (guard_hyp y : EvtSt; clear y; dsimp -zeta only [x]; clear x) | (clear y; clear_value x))
    | with_reducible apply blockBegin_fit (In.trans (by decide) hL)
    | with_reducible apply planeBegin_fit (In.trans (by decide) hL)
    | with_reducible apply moduleBegin_fit (In.trans (by decide) hL)
    | with_reducible apply takeCapture_fit (In.trans (by decide) hL)
    | (with_reducible apply Fit.ite <;> intro _)
    | (with_reducible apply Fit.upd_evt (In.trans (by decide) hL); rotate_left; with_reducible rfl; with_reducible rfl; first | (with_reducible apply Fit.ite <;> intro _) | (fail_if_success split))
    | split)

theorem decideRecov_fit {L : Nat} {s0 : State} {dom level : Nat} {src : Option Nat} {pay : List Byte} {esc : Nat} {cause : SafeCause} {cmd : Option (Hdr × Nat)} {leave : Bool} {s : State} (hL : In 0xFFFFFFE L) (h0 : Fit L s0 s) :
    Fit L s0 (decideRecov dom level src pay esc cause cmd leave s) := by
  unfold decideRecov
  repeat' (first
    | with_reducible assumption
    | intro _
    | (extract_lets +onlyGivenNames x; have y := x; first | (guard_hyp y : State; clear y; refine Fit.seq L s0 x ?_ ?_; rotate_left; intro hx; clear_value x; rotate_left; dsimp -zeta only [x]; clear x) | ((first | (guard_hyp y : CmdSt; clear y) | (guard_hyp y : EvtSt; clear y)); dsimp -zeta only [x]; clear x) | (clear y; clear_value x))
    | with_reducible apply safeActions_fit (In.trans (by decide) hL)
    | with_reducible apply recovRecord_fit (In.trans (by decide) hL)
    | with_reducible apply endRecov_fit (In.trans (by decide) hL)
    | with_reducible apply startRecov_fit (In.trans (by decide) hL)
    | (with_reducible apply Fit.ite <;> intro _)
    | (with_reducible apply Fit.foldl)
    | (with_reducible apply Fit.upd_evt (In.trans (by decide) hL); rotate_left; with_reducible rfl; with_reducible rfl; first | (with_reducible apply Fit.ite <;> intro _) | (fail_if_success split))
    | split)

theorem setWindow_fit {L : Nat} {s0 : State} {d level rseq : Nat} {s : State} (hL : In 0x800 L) (h0 : Fit L s0 s) :
    Fit L s0 (setWindow d level rseq s) := by
  unfold setWindow
  repeat' (first
    | with_reducible assumption
    | intro _
    | (extract_lets +onlyGivenNames x; have y := x; first | (guard_hyp y : State; clear y; refine Fit.seq L s0 x ?_ ?_; rotate_left; intro hx; clear_value x; rotate_left; dsimp -zeta only [x]; clear x) | (guard_hyp y : EvtSt; clear y; dsimp -zeta only [x]; clear x) | (clear y; clear_value x))
    | (with_reducible apply Fit.upd_evt (In.trans (by decide) hL); rotate_left; with_reducible rfl; with_reducible rfl; first | (with_reducible apply Fit.ite <;> intro _) | (fail_if_success split)))

theorem takeOwn_fit {L : Nat} {s0 : State} {dom entry level src : Nat} {pay : List Byte} {s : State} (hL : In 0x6E3CF42 L) (h0 : Fit L s0 s) :
    Fit L s0 (takeOwn dom entry level src pay s) := by
  unfold takeOwn
  repeat' (first
    | with_reducible assumption
    | (extract_lets +onlyGivenNames x; have y := x; first | (guard_hyp y : State; clear y; refine Fit.seq L s0 x ?_ ?_; rotate_left; intro hx; clear_value x; rotate_left; dsimp -zeta only [x]; clear x) | (guard_hyp y : EvtSt; clear y; dsimp -zeta only [x]; clear x) | (clear y; clear_value x))
    | with_reducible apply ownAction_fit (In.trans (by decide) hL)
    | with_reducible apply recovRecord_fit (In.trans (by decide) hL)
    | with_reducible apply setWindow_fit (In.trans (by decide) hL)
    | (with_reducible apply Fit.upd_evt (In.trans (by decide) hL); rotate_left; with_reducible rfl; with_reducible rfl; first | (with_reducible apply Fit.ite <;> intro _) | (fail_if_success split)))

theorem faultAt_fit {L : Nat} {s0 : State} {dom entry src : Nat} {pay : List Byte} {s : State} (hL : In 0xFFFFFFE L) (h0 : Fit L s0 s) :
    Fit L s0 (faultAt dom entry src pay s) := by
  unfold faultAt
  repeat' (first
    | with_reducible assumption
    | (extract_lets +onlyGivenNames x; have y := x; first | (guard_hyp y : State; clear y; refine Fit.seq L s0 x ?_ ?_; rotate_left; intro hx; clear_value x; rotate_left; dsimp -zeta only [x]; clear x) | (guard_hyp y : EvtSt; clear y; dsimp -zeta only [x]; clear x) | (clear y; clear_value x))
    | with_reducible apply fire_fit (In.trans (by decide) hL)
    | with_reducible apply decideRecov_fit (In.trans (by decide) hL)
    | with_reducible apply setWindow_fit (In.trans (by decide) hL)
    | with_reducible apply takeOwn_fit (In.trans (by decide) hL)
    | (with_reducible apply Fit.ite <;> intro _)
    | split)

theorem faultOf_fit {L : Nat} {s0 : State} {dom src : Nat} {items : List (Nat × Nat)} {s : State} (hL : In 0xFFFFFFE L) (h0 : Fit L s0 s) :
    Fit L s0 (faultOf dom src items s) := by
  unfold faultOf
  repeat' (first
    | with_reducible assumption
    | with_reducible apply faultAt_fit (In.trans (by decide) hL))

end Sys2Proof.Machine
end

