-- ==== Sys2Proof/Laws/FitScenes.lean ====
section
/-! SUPPORT. What each definition of Machine/Scenes.lean touches, and that it keeps the invariant: one lemma each. -/

set_option Elab.async false
set_option linter.all false

namespace Sys2Proof.Machine

theorem runSceneOpen_fit {L : Nat} {s0 : State} {h : Hdr} {p : SceneOpenP} {s : State} (hL : In 0x804E02 L) (h0 : Fit L s0 s) :
    Fit L s0 (runSceneOpen h p s) := by
  unfold runSceneOpen
  repeat' (first
    | with_reducible assumption
    | intro _
    | (extract_lets +onlyGivenNames x; have y := x; first | (guard_hyp y : State; clear y; refine Fit.seq L s0 x ?_ ?_; rotate_left; intro hx; clear_value x; rotate_left; dsimp -zeta only [x]; clear x) | (clear y; clear_value x))
    | with_reducible apply move_fit (In.trans (by decide) hL)
    | with_reducible apply hold_fit (In.trans (by decide) hL)
    | with_reducible apply finish_fit (In.trans (by decide) hL)
    | with_reducible apply setSess_fit (In.trans (by decide) hL)
    | with_reducible apply onStat_fit (In.trans (by decide) hL)
    | (with_reducible apply Fit.ite <;> intro _)
    | (with_reducible apply Fit.upd_scene (In.trans (by decide) hL); first | (with_reducible apply Fit.ite <;> intro _) | (fail_if_success split))
    | split)

theorem rowSceneOpen_fit {L : Nat} {h : Hdr} {p : SceneOpenP} (hL : In 0x804E02 L) :
    RowFit L (rowSceneOpen h p) := by
  refine ⟨fun s0 s h0 => ?_, fun s0 s h0 => ?_⟩ <;> unfold rowSceneOpen <;> try dsimp -zeta only [id]
  repeat' (first
    | with_reducible assumption
    | with_reducible apply runSceneOpen_fit (In.trans (by decide) hL)
    | (dsimp -zeta only [id])
    | (with_reducible apply Fit.of_snd; case e => with_reducible assumption)
    | (with_reducible apply Fit.of_fst; case e => with_reducible assumption))

theorem execSceneOpen_fit {L : Nat} {s0 : State} {h : Hdr} {p : SceneOpenP} {s : State} (hL : In 0x4804E02 L) (h0 : Fit L s0 s) :
    ∀ post, execSceneOpen h p s = .next post → Fit L s0 post := by
  unfold execSceneOpen
  refine ok_fit ?_
  repeat' (first
    | with_reducible assumption
    | with_reducible apply command_fit (In.trans (by decide) hL)
    | with_reducible apply rowSceneOpen_fit (In.trans (by decide) hL))

theorem judgeStreamHdr_fit {L : Nat} {s0 : State} {i : Nat} {s : State} (hL : In 0x80CE02 L) (h0 : Fit L s0 s) :
    Fit L s0 (judgeStreamHdr i s) := by
  unfold judgeStreamHdr
  repeat' (first
    | with_reducible assumption
    | intro _
    | (extract_lets +onlyGivenNames x; have y := x; first | (guard_hyp y : State; clear y; refine Fit.seq L s0 x ?_ ?_; rotate_left; intro hx; clear_value x; rotate_left; dsimp -zeta only [x]; clear x) | (clear y; clear_value x))
    | with_reducible apply onSess_fit (In.trans (by decide) hL)
    | with_reducible apply endSession_fit (In.trans (by decide) hL)
    | (with_reducible apply Fit.ite <;> intro _)
    | split)

theorem runSceneFeed_fit {L : Nat} {s0 : State} {h : Hdr} {p : SceneFeedP} {data : List Byte} {s : State} (hL : In 0x80CE02 L) (h0 : Fit L s0 s) :
    Fit L s0 (runSceneFeed h p data s) := by
  unfold runSceneFeed
  repeat' (first
    | with_reducible assumption
    | intro _
    | (extract_lets +onlyGivenNames x; have y := x; first | (guard_hyp y : State; clear y; refine Fit.seq L s0 x ?_ ?_; rotate_left; intro hx; clear_value x; rotate_left; dsimp -zeta only [x]; clear x) | (clear y; clear_value x))
    | with_reducible apply emit_fit (In.trans (by decide) hL)
    | with_reducible apply finish_fit (In.trans (by decide) hL)
    | with_reducible apply onSess_fit (In.trans (by decide) hL)
    | with_reducible apply judgeStreamHdr_fit (In.trans (by decide) hL)
    | (with_reducible apply Fit.ite <;> intro _)
    | split)

theorem rowSceneFeed_fit {L : Nat} {h : Hdr} {p : SceneFeedP} {data : List Byte} (hL : In 0x80CE02 L) :
    RowFit L (rowSceneFeed h p data) := by
  refine ⟨fun s0 s h0 => ?_, fun s0 s h0 => ?_⟩ <;> unfold rowSceneFeed <;> try dsimp -zeta only [id]
  repeat' (first
    | with_reducible assumption
    | with_reducible apply runSceneFeed_fit (In.trans (by decide) hL)
    | (dsimp -zeta only [id])
    | (with_reducible apply Fit.of_snd; case e => with_reducible assumption)
    | (with_reducible apply Fit.of_fst; case e => with_reducible assumption))

theorem execSceneFeed_fit {L : Nat} {s0 : State} {h : Hdr} {p : SceneFeedP} {data : List Byte} {s : State} (hL : In 0x480CE02 L) (h0 : Fit L s0 s) :
    ∀ post, execSceneFeed h p data s = .next post → Fit L s0 post := by
  unfold execSceneFeed
  refine ok_fit ?_
  repeat' (first
    | with_reducible assumption
    | with_reducible apply command_fit (In.trans (by decide) hL)
    | with_reducible apply rowSceneFeed_fit (In.trans (by decide) hL))

theorem rowSceneCloseDrain_fit {L : Nat} {h : Hdr} {p : SceneCloseP} (hL : In 0x804E02 L) :
    RowFit L (rowSceneCloseDrain h p) := by
  refine ⟨fun s0 s h0 => ?_, fun s0 s h0 => ?_⟩ <;> unfold rowSceneCloseDrain <;> try dsimp -zeta only [id]
  repeat' (first
    | with_reducible assumption
    | intro _
    | (extract_lets +onlyGivenNames x; have y := x; first | (guard_hyp y : State; clear y; refine Fit.seq L s0 x ?_ ?_; rotate_left; intro hx; clear_value x; rotate_left; dsimp -zeta only [x]; clear x) | (clear y; clear_value x))
    | with_reducible apply accepted_fit (In.trans (by decide) hL)
    | with_reducible apply onSess_fit (In.trans (by decide) hL)
    | (dsimp -zeta only [id])
    | (with_reducible apply Fit.of_snd; case e => with_reducible assumption)
    | (with_reducible apply Fit.of_fst; case e => with_reducible assumption)
    | split)

theorem execSceneCloseDrain_fit {L : Nat} {s0 : State} {h : Hdr} {p : SceneCloseP} {s : State} (hL : In 0x4804E02 L) (h0 : Fit L s0 s) :
    ∀ post, execSceneCloseDrain h p s = .next post → Fit L s0 post := by
  unfold execSceneCloseDrain
  refine ok_fit ?_
  repeat' (first
    | with_reducible assumption
    | with_reducible apply command_fit (In.trans (by decide) hL)
    | with_reducible apply rowSceneCloseDrain_fit (In.trans (by decide) hL))

theorem rowSceneCloseNow_fit {L : Nat} {h : Hdr} {p : SceneCloseP} (hL : In 0x804E02 L) :
    RowFit L (rowSceneCloseNow h p) := by
  refine ⟨fun s0 s h0 => ?_, fun s0 s h0 => ?_⟩ <;> unfold rowSceneCloseNow <;> try dsimp -zeta only [id]
  repeat' (first
    | with_reducible assumption
    | intro _
    | (extract_lets +onlyGivenNames x; have y := x; first | (guard_hyp y : State; clear y; refine Fit.seq L s0 x ?_ ?_; rotate_left; intro hx; clear_value x; rotate_left; dsimp -zeta only [x]; clear x) | (clear y; clear_value x))
    | with_reducible apply finish_fit (In.trans (by decide) hL)
    | with_reducible apply onSess_fit (In.trans (by decide) hL)
    | (dsimp -zeta only [id])
    | (with_reducible apply Fit.of_snd; case e => with_reducible assumption)
    | (with_reducible apply Fit.of_fst; case e => with_reducible assumption)
    | split)

theorem execSceneCloseNow_fit {L : Nat} {s0 : State} {h : Hdr} {p : SceneCloseP} {s : State} (hL : In 0x4804E02 L) (h0 : Fit L s0 s) :
    ∀ post, execSceneCloseNow h p s = .next post → Fit L s0 post := by
  unfold execSceneCloseNow
  refine ok_fit ?_
  repeat' (first
    | with_reducible assumption
    | with_reducible apply command_fit (In.trans (by decide) hL)
    | with_reducible apply rowSceneCloseNow_fit (In.trans (by decide) hL))

theorem placeData_fit {L : Nat} {s0 : State} {i o : Nat} {bs : List Byte} {s : State} (hL : In 0x4000 L) (h0 : Fit L s0 s) :
    Fit L s0 (placeData i o bs s) := by
  unfold placeData
  repeat' (first
    | with_reducible assumption
    | intro _
    | (extract_lets +onlyGivenNames x; have y := x; first | (guard_hyp y : State; clear y; refine Fit.seq L s0 x ?_ ?_; rotate_left; intro hx; clear_value x; rotate_left; dsimp -zeta only [x]; clear x) | (clear y; clear_value x))
    | with_reducible apply onSess_fit (In.trans (by decide) hL)
    | (with_reducible apply Fit.ite <;> intro _)
    | (with_reducible apply Fit.upd_scene (In.trans (by decide) hL); first | (with_reducible apply Fit.ite <;> intro _) | (fail_if_success split))
    | split)

theorem streamIn_fit {L : Nat} {s0 : State} {port : Nat} {payload : List Byte} {s : State} (hL : In 0x80CE02 L) (h0 : Fit L s0 s) :
    Fit L s0 (streamIn port payload s) := by
  unfold streamIn
  repeat' (first
    | with_reducible assumption
    | intro _
    | (extract_lets +onlyGivenNames x; have y := x; first | (guard_hyp y : State; clear y; refine Fit.seq L s0 x ?_ ?_; rotate_left; intro hx; clear_value x; rotate_left; dsimp -zeta only [x]; clear x) | ((first | (guard_hyp y : _ → State; clear y) | (guard_hyp y : _ → _ → State; clear y) | (guard_hyp y : _ → _ → _ → State; clear y)); dsimp -zeta only [x]; clear x) | (clear y; clear_value x))
    | with_reducible apply judgeStreamHdr_fit (In.trans (by decide) hL)
    | with_reducible apply placeData_fit (In.trans (by decide) hL)
    | (with_reducible apply Fit.ite <;> intro _)
    | split)

theorem execStreamDatagram_fit {L : Nat} {s0 : State} {port : U16} {payload : List Byte} {s : State} (hL : In 0x80CE02 L) (h0 : Fit L s0 s) :
    ∀ post, execStreamDatagram port payload s = .next post → Fit L s0 post := by
  unfold execStreamDatagram
  refine ok_fit ?_
  repeat' (first
    | with_reducible assumption
    | with_reducible apply streamIn_fit (In.trans (by decide) hL))

theorem copyRepeats_fit {L : Nat} {s0 : State} {d : PanelDesc} {b : List Byte} {j i np : Nat} {s : State} (hL : In 0x5000 L) (h0 : Fit L s0 s) :
    Fit L s0 (copyRepeats d b j i np s) := by
  unfold copyRepeats
  repeat' (first
    | with_reducible assumption
    | intro _
    | with_reducible apply copyTile_fit (In.trans (by decide) hL)
    | (with_reducible apply Fit.foldl))

theorem sayCut_fit {L : Nat} {s0 : State} {i : Nat} {x : Session} {s : State} (hL : In 0x804C02 L) (h0 : Fit L s0 s) :
    Fit L s0 (sayCut i x s) := by
  unfold sayCut
  repeat' (first
    | with_reducible assumption
    | intro _
    | (extract_lets +onlyGivenNames x; have y := x; first | (guard_hyp y : State; clear y; refine Fit.seq L s0 x ?_ ?_; rotate_left; intro hx; clear_value x; rotate_left; dsimp -zeta only [x]; clear x) | (clear y; clear_value x))
    | with_reducible apply raise_fit (In.trans (by decide) hL)
    | with_reducible apply onSess_fit (In.trans (by decide) hL)
    | (with_reducible apply Fit.ite <;> intro _)
    | split)

theorem beginDecode_fit {L : Nat} {s0 : State} {i : Nat} {x : Session} {d : PanelDesc} {o : Nat} {b : List Byte} {m : Nat} {s : State} (hL : In 0x805E02 L) (h0 : Fit L s0 s) :
    Fit L s0 (beginDecode i x d o b m s) := by
  unfold beginDecode
  repeat' (first
    | with_reducible assumption
    | intro _
    | (extract_lets +onlyGivenNames x; have y := x; first | (guard_hyp y : State; clear y; refine Fit.seq L s0 x ?_ ?_; rotate_left; intro hx; clear_value x; rotate_left; dsimp -zeta only [x]; clear x) | ((first | (guard_hyp y : _ → State; clear y) | (guard_hyp y : _ → _ → State; clear y) | (guard_hyp y : _ → _ → _ → State; clear y)); dsimp -zeta only [x]; clear x) | (clear y; clear_value x))
    | with_reducible apply onSess_fit (In.trans (by decide) hL)
    | with_reducible apply takeMpi_fit (In.trans (by decide) hL)
    | with_reducible apply copyRepeats_fit (In.trans (by decide) hL)
    | with_reducible apply sayCut_fit (In.trans (by decide) hL)
    | (with_reducible apply Fit.ite <;> intro _)
    | (with_reducible apply Fit.upd_scene (In.trans (by decide) hL); first | (with_reducible apply Fit.ite <;> intro _) | (fail_if_success split))
    | split)

theorem execStreamFrameDecodeStart_fit {L : Nat} {s0 : State} {slot : Fin 2} {s : State} (hL : In 0x805E02 L) (h0 : Fit L s0 s) :
    ∀ post, execStreamFrameDecodeStart slot s = .next post → Fit L s0 post := by
  unfold execStreamFrameDecodeStart
  refine ok_fit ?_
  repeat' (first
    | with_reducible assumption
    | (extract_lets +onlyGivenNames x; have y := x; first | (guard_hyp y : State; clear y; refine Fit.seq L s0 x ?_ ?_; rotate_left; intro hx; clear_value x; rotate_left; dsimp -zeta only [x]; clear x) | (clear y; clear_value x))
    | with_reducible apply beginDecode_fit (In.trans (by decide) hL)
    | (with_reducible apply Fit.ite <;> intro _)
    | split)

theorem spaceCheck_fit {L : Nat} {s0 : State} {i : Nat} {s : State} (hL : In 0x804C02 L) (h0 : Fit L s0 s) :
    Fit L s0 (spaceCheck i s) := by
  unfold spaceCheck
  repeat' (first
    | with_reducible assumption
    | intro _
    | (extract_lets +onlyGivenNames x; have y := x; first | (guard_hyp y : State; clear y; refine Fit.seq L s0 x ?_ ?_; rotate_left; intro hx; clear_value x; rotate_left; dsimp -zeta only [x]; clear x) | (clear y; clear_value x))
    | with_reducible apply raise_fit (In.trans (by decide) hL)
    | with_reducible apply onSess_fit (In.trans (by decide) hL)
    | (with_reducible apply Fit.ite <;> intro _)
    | split)

theorem frameLost_fit {L : Nat} {s0 : State} {i : Nat} {c : Decode} {code : Nat} {s : State} (hL : In 0x804C02 L) (h0 : Fit L s0 s) :
    Fit L s0 (frameLost i c code s) := by
  unfold frameLost
  repeat' (first
    | with_reducible assumption
    | intro _
    | (extract_lets +onlyGivenNames x; have y := x; first | (guard_hyp y : State; clear y; refine Fit.seq L s0 x ?_ ?_; rotate_left; intro hx; clear_value x; rotate_left; dsimp -zeta only [x]; clear x) | (clear y; clear_value x))
    | with_reducible apply raise_fit (In.trans (by decide) hL)
    | with_reducible apply onSess_fit (In.trans (by decide) hL)
    | with_reducible apply onStat_fit (In.trans (by decide) hL)
    | (with_reducible apply Fit.ite <;> intro _)
    | split)

theorem execStreamFrameDecoded_fit {L : Nat} {s0 : State} {slot : Fin 2} {s : State} (hL : In 0x804E02 L) (h0 : Fit L s0 s) :
    ∀ post, execStreamFrameDecoded slot s = .next post → Fit L s0 post := by
  unfold execStreamFrameDecoded
  refine ok_fit ?_
  repeat' (first
    | with_reducible assumption
    | intro _
    | (extract_lets +onlyGivenNames x; have y := x; first | (guard_hyp y : State; clear y; refine Fit.seq L s0 x ?_ ?_; rotate_left; intro hx; clear_value x; rotate_left; dsimp -zeta only [x]; clear x) | (clear y; clear_value x))
    | with_reducible apply raise_fit (In.trans (by decide) hL)
    | with_reducible apply onSess_fit (In.trans (by decide) hL)
    | with_reducible apply mpiCollect_fit (In.trans (by decide) hL)
    | with_reducible apply spaceCheck_fit (In.trans (by decide) hL)
    | with_reducible apply frameLost_fit (In.trans (by decide) hL)
    | (with_reducible apply Fit.ite <;> intro _)
    | split)

theorem execSessionEndComplete_fit {L : Nat} {s0 : State} {slot : Fin 2} {s : State} (hL : In 0x80CE22 L) (h0 : Fit L s0 s) :
    ∀ post, execSessionEndComplete slot s = .next post → Fit L s0 post := by
  unfold execSessionEndComplete
  refine ok_fit ?_
  repeat' (first
    | with_reducible assumption
    | (extract_lets +onlyGivenNames x; have y := x; first | (guard_hyp y : State; clear y; refine Fit.seq L s0 x ?_ ?_; rotate_left; intro hx; clear_value x; rotate_left; dsimp -zeta only [x]; clear x) | (clear y; clear_value x))
    | with_reducible apply advanceMer_fit (In.trans (by decide) hL)
    | with_reducible apply endSession_fit (In.trans (by decide) hL)
    | (with_reducible apply Fit.ite <;> intro _)
    | split)

end Sys2Proof.Machine
end

