-- ==== Sys2Proof/Laws/FitBridge.lean ====
section
/-! SUPPORT. What each definition of Machine/Bridge.lean touches, and that it keeps the invariant: one lemma each. -/

set_option Elab.async false
set_option linter.all false

namespace Sys2Proof.Machine

theorem setRun_fit {L : Nat} {s0 : State} {r : StreamRun} {s : State} (hL : In 0x400000 L) (h0 : Fit L s0 s) :
    Fit L s0 (setRun r s) := by
  unfold setRun
  repeat' (first
    | with_reducible assumption
    | intro _
    | (extract_lets +onlyGivenNames x; have y := x; first | (guard_hyp y : State; clear y; refine Fit.seq L s0 x ?_ ?_; rotate_left; intro hx; clear_value x; rotate_left; dsimp -zeta only [x]; clear x) | (clear y; clear_value x))
    | with_reducible apply onNet_fit (In.trans (by decide) hL))

theorem throughStream_fit {L : Nat} {s0 : State} {x : StreamCfg} {p : Pkt} {s : State} (hL : In 0xC00C02 L) (h0 : Fit L s0 s) :
    Fit L s0 (throughStream x p s).2 := by
  unfold throughStream
  repeat' (first
    | with_reducible assumption
    | (extract_lets +onlyGivenNames x; have y := x; first | (guard_hyp y : State; clear y; refine Fit.seq L s0 x ?_ ?_; rotate_left; intro hx; clear_value x; rotate_left; dsimp -zeta only [x]; clear x) | (clear y; clear_value x))
    | with_reducible apply raise_fit (In.trans (by decide) hL)
    | with_reducible apply setRun_fit (In.trans (by decide) hL)
    | (with_reducible apply Fit.ite <;> intro _)
    | (dsimp -zeta only [id])
    | (with_reducible apply Fit.of_snd; case e => with_reducible assumption)
    | (with_reducible apply Fit.of_fst; case e => with_reducible assumption)
    | split)

theorem learn_fit {L : Nat} {s0 : State} {n : Nat} {p : Pkt} {s : State} (hL : In 0xC00C02 L) (h0 : Fit L s0 s) :
    Fit L s0 (learn n p s) := by
  unfold learn
  repeat' (first
    | with_reducible assumption
    | intro _
    | (extract_lets +onlyGivenNames x; have y := x; first | (guard_hyp y : State; clear y; refine Fit.seq L s0 x ?_ ?_; rotate_left; intro hx; clear_value x; rotate_left; dsimp -zeta only [x]; clear x) | (clear y; clear_value x))
    | with_reducible apply raise_fit (In.trans (by decide) hL)
    | with_reducible apply onNet_fit (In.trans (by decide) hL)
    | (with_reducible apply Fit.ite <;> intro _)
    | split)

theorem netLose_fit {L : Nat} {s0 : State} {n reason : Nat} {s : State} (hL : In 0xC00C02 L) (h0 : Fit L s0 s) :
    Fit L s0 (netLose n reason s) := by
  unfold netLose
  repeat' (first
    | with_reducible assumption
    | intro _
    | (extract_lets +onlyGivenNames x; have y := x; first | (guard_hyp y : State; clear y; refine Fit.seq L s0 x ?_ ?_; rotate_left; intro hx; clear_value x; rotate_left; dsimp -zeta only [x]; clear x) | (clear y; clear_value x))
    | with_reducible apply raise_fit (In.trans (by decide) hL)
    | with_reducible apply onNetPort_fit (In.trans (by decide) hL)
    | (with_reducible apply Fit.ite <;> intro _)
    | split)

theorem storeFrame_fit {L : Nat} {s0 : State} {n len : Nat} {p : Pkt} {x : Option StreamCfg} {v : Vlan} {ports : List Nat} {s : State} (hL : In 0xC00E02 L) (h0 : Fit L s0 s) :
    Fit L s0 (storeFrame n len p x v ports s).2 := by
  unfold storeFrame
  repeat' (first
    | with_reducible assumption
    | intro _
    | (extract_lets +onlyGivenNames x; have y := x; first | (guard_hyp y : State; clear y; refine Fit.seq L s0 x ?_ ?_; rotate_left; intro hx; clear_value x; rotate_left; dsimp -zeta only [x]; clear x) | (clear y; clear_value x))
    | with_reducible apply move_fit (In.trans (by decide) hL)
    | with_reducible apply onNet_fit (In.trans (by decide) hL)
    | with_reducible apply netLose_fit (In.trans (by decide) hL)
    | (with_reducible apply Fit.ite <;> intro _)
    | (dsimp -zeta only [id])
    | (with_reducible apply Fit.of_snd; case e => with_reducible assumption)
    | (with_reducible apply Fit.of_fst; case e => with_reducible assumption)
    | split)

theorem forward_fit {L : Nat} {s0 : State} {n len : Nat} {p : Pkt} {s : State} (hL : In 0xC00E02 L) (h0 : Fit L s0 s) :
    Fit L s0 (forward n len p s).2.2 := by
  unfold forward
  repeat' (first
    | with_reducible assumption
    | intro _
    | (extract_lets +onlyGivenNames x; have y := x; first | (guard_hyp y : State; clear y; refine Fit.seq L s0 x ?_ ?_; rotate_left; intro hx; clear_value x; rotate_left; dsimp -zeta only [x]; clear x) | (clear y; clear_value x))
    | with_reducible apply onNetPort_fit (In.trans (by decide) hL)
    | with_reducible apply throughStream_fit (In.trans (by decide) hL)
    | with_reducible apply learn_fit (In.trans (by decide) hL)
    | with_reducible apply storeFrame_fit (In.trans (by decide) hL)
    | (with_reducible apply Fit.ite <;> intro _)
    | (dsimp -zeta only [id])
    | (with_reducible apply Fit.of_snd; case e => with_reducible assumption)
    | (with_reducible apply Fit.of_fst; case e => with_reducible assumption)
    | split)

theorem ipDrop_fit {L : Nat} {s0 : State} {s : State} (hL : In 0x400000 L) (h0 : Fit L s0 s) :
    Fit L s0 (ipDrop s) := by
  unfold ipDrop
  repeat' (first
    | with_reducible assumption
    | intro _
    | (extract_lets +onlyGivenNames x; have y := x; first | (guard_hyp y : State; clear y; refine Fit.seq L s0 x ?_ ?_; rotate_left; intro hx; clear_value x; rotate_left; dsimp -zeta only [x]; clear x) | (clear y; clear_value x))
    | with_reducible apply onNet_fit (In.trans (by decide) hL))

theorem ownSend_fit {L : Nat} {s0 : State} {asker : Pkt} {rest : List Byte} {s : State} (hL : In 0xC00E02 L) (h0 : Fit L s0 s) :
    Fit L s0 (ownSend asker rest s) := by
  unfold ownSend
  repeat' (first
    | with_reducible assumption
    | (extract_lets +onlyGivenNames x; have y := x; first | (guard_hyp y : State; clear y; refine Fit.seq L s0 x ?_ ?_; rotate_left; intro hx; clear_value x; rotate_left; dsimp -zeta only [x]; clear x) | (clear y; clear_value x))
    | with_reducible apply forward_fit (In.trans (by decide) hL)
    | (dsimp -zeta only [id])
    | (with_reducible apply Fit.of_snd; case e => with_reducible assumption)
    | (with_reducible apply Fit.of_fst; case e => with_reducible assumption))

theorem arpIn_fit {L : Nat} {s0 : State} {p : Pkt} {s : State} (hL : In 0xC00E02 L) (h0 : Fit L s0 s) :
    Fit L s0 (arpIn p s) := by
  unfold arpIn
  repeat' (first
    | with_reducible assumption
    | (extract_lets +onlyGivenNames x; have y := x; first | (guard_hyp y : State; clear y; refine Fit.seq L s0 x ?_ ?_; rotate_left; intro hx; clear_value x; rotate_left; dsimp -zeta only [x]; clear x) | (clear y; clear_value x))
    | with_reducible apply ownSend_fit (In.trans (by decide) hL)
    | (with_reducible apply Fit.ite <;> intro _))

theorem echoIn_fit {L : Nat} {s0 : State} {p : Pkt} {ip : List Byte} {s : State} (hL : In 0xC00E02 L) (h0 : Fit L s0 s) :
    Fit L s0 (echoIn p ip s) := by
  unfold echoIn
  repeat' (first
    | with_reducible assumption
    | (extract_lets +onlyGivenNames x; have y := x; first | (guard_hyp y : State; clear y; refine Fit.seq L s0 x ?_ ?_; rotate_left; intro hx; clear_value x; rotate_left; dsimp -zeta only [x]; clear x) | (clear y; clear_value x))
    | with_reducible apply ownSend_fit (In.trans (by decide) hL))

theorem ipIn_fit {L : Nat} {s0 : State} {p : Pkt} {s : State} (hL : In 0xC0CE02 L) (h0 : Fit L s0 s) :
    Fit L s0 (ipIn p s) := by
  unfold ipIn
  repeat' (first
    | with_reducible assumption
    | (extract_lets +onlyGivenNames x; have y := x; first | (guard_hyp y : State; clear y; refine Fit.seq L s0 x ?_ ?_; rotate_left; intro hx; clear_value x; rotate_left; dsimp -zeta only [x]; clear x) | (clear y; clear_value x))
    | with_reducible apply streamIn_fit (In.trans (by decide) hL)
    | with_reducible apply ipDrop_fit (In.trans (by decide) hL)
    | with_reducible apply echoIn_fit (In.trans (by decide) hL)
    | (with_reducible apply Fit.ite <;> intro _))

theorem internalIn_fit {L : Nat} {s0 : State} {p : Pkt} {s : State} (hL : In 0xC0CE02 L) (h0 : Fit L s0 s) :
    Fit L s0 (internalIn p s) := by
  unfold internalIn
  repeat' (first
    | with_reducible assumption
    | with_reducible apply arpIn_fit (In.trans (by decide) hL)
    | with_reducible apply ipIn_fit (In.trans (by decide) hL)
    | (with_reducible apply Fit.ite <;> intro _))

theorem frameIn_fit {L : Nat} {s0 : State} {n : Nat} {bs : List Byte} {s : State} (hL : In 0xC0CE02 L) (h0 : Fit L s0 s) :
    Fit L s0 (frameIn n bs s) := by
  unfold frameIn
  repeat' (first
    | with_reducible assumption
    | intro _
    | (extract_lets +onlyGivenNames x; have y := x; first | (guard_hyp y : State; clear y; refine Fit.seq L s0 x ?_ ?_; rotate_left; intro hx; clear_value x; rotate_left; dsimp -zeta only [x]; clear x) | (clear y; clear_value x))
    | with_reducible apply onNetPort_fit (In.trans (by decide) hL)
    | with_reducible apply forward_fit (In.trans (by decide) hL)
    | with_reducible apply internalIn_fit (In.trans (by decide) hL)
    | (with_reducible apply Fit.ite <;> intro _)
    | (dsimp -zeta only [id])
    | (with_reducible apply Fit.of_snd; case e => with_reducible assumption)
    | (with_reducible apply Fit.of_fst; case e => with_reducible assumption)
    | split)

theorem execEthFrameRx_fit {L : Nat} {s0 : State} {port : Fin 8} {bytes : List Byte} {fcsOk : Bool} {s : State} (hL : In 0xC0CE02 L) (h0 : Fit L s0 s) :
    ∀ post, execEthFrameRx port bytes fcsOk s = .next post → Fit L s0 post := by
  unfold execEthFrameRx
  refine ok_fit ?_
  repeat' (first
    | with_reducible assumption
    | intro _
    | (extract_lets +onlyGivenNames x; have y := x; first | (guard_hyp y : State; clear y; refine Fit.seq L s0 x ?_ ?_; rotate_left; intro hx; clear_value x; rotate_left; dsimp -zeta only [x]; clear x) | (clear y; clear_value x))
    | with_reducible apply onNetPort_fit (In.trans (by decide) hL)
    | with_reducible apply frameIn_fit (In.trans (by decide) hL)
    | (with_reducible apply Fit.ite <;> intro _)
    | split)

theorem countWaits_fit {L : Nat} {s0 : State} {q t : Nat} {s : State} (hL : In 0x400000 L) (h0 : Fit L s0 s) :
    Fit L s0 (countWaits q t s) := by
  unfold countWaits
  repeat' (first
    | with_reducible assumption
    | intro _
    | (extract_lets +onlyGivenNames x; have y := x; first | (guard_hyp y : State; clear y; refine Fit.seq L s0 x ?_ ?_; rotate_left; intro hx; clear_value x; rotate_left; dsimp -zeta only [x]; clear x) | (clear y; clear_value x))
    | with_reducible apply onNet_fit (In.trans (by decide) hL)
    | with_reducible apply onNetPort_fit (In.trans (by decide) hL)
    | (with_reducible apply Fit.ite <;> intro _)
    | split)

theorem transparent_fit {L : Nat} {s0 : State} {c : NetCopy} {t : Nat} {s : State} (hL : In 0x400000 L) (h0 : Fit L s0 s) :
    Fit L s0 (transparent c t s).2 := by
  unfold transparent
  repeat' (first
    | with_reducible assumption
    | intro _
    | (extract_lets +onlyGivenNames x; have y := x; first | (guard_hyp y : State; clear y; refine Fit.seq L s0 x ?_ ?_; rotate_left; intro hx; clear_value x; rotate_left; dsimp -zeta only [x]; clear x) | (clear y; clear_value x))
    | with_reducible apply onNet_fit (In.trans (by decide) hL)
    | (with_reducible apply Fit.ite <;> intro _)
    | (dsimp -zeta only [id])
    | (with_reducible apply Fit.of_snd; case e => with_reducible assumption)
    | (with_reducible apply Fit.of_fst; case e => with_reducible assumption)
    | split)

theorem sendCopy_fit {L : Nat} {s0 : State} {c : NetCopy} {t : Nat} {s : State} (hL : In 0x400602 L) (h0 : Fit L s0 s) :
    Fit L s0 (sendCopy c t s) := by
  unfold sendCopy
  repeat' (first
    | with_reducible assumption
    | intro _
    | (extract_lets +onlyGivenNames x; have y := x; first | (guard_hyp y : State; clear y; refine Fit.seq L s0 x ?_ ?_; rotate_left; intro hx; clear_value x; rotate_left; dsimp -zeta only [x]; clear x) | (clear y; clear_value x))
    | with_reducible apply emit_fit (In.trans (by decide) hL)
    | with_reducible apply onNet_fit (In.trans (by decide) hL)
    | with_reducible apply onNetPort_fit (In.trans (by decide) hL)
    | with_reducible apply netCollect_fit (In.trans (by decide) hL)
    | with_reducible apply transparent_fit (In.trans (by decide) hL)
    | (dsimp -zeta only [id])
    | (with_reducible apply Fit.of_snd; case e => with_reducible assumption)
    | (with_reducible apply Fit.of_fst; case e => with_reducible assumption))

theorem execEthFrameTx_fit {L : Nat} {s0 : State} {port : Fin 8} {s : State} (hL : In 0x400622 L) (h0 : Fit L s0 s) :
    ∀ post, execEthFrameTx port s = .next post → Fit L s0 post := by
  unfold execEthFrameTx
  refine ok_fit ?_
  repeat' (first
    | with_reducible assumption
    | (extract_lets +onlyGivenNames x; have y := x; first | (guard_hyp y : State; clear y; refine Fit.seq L s0 x ?_ ?_; rotate_left; intro hx; clear_value x; rotate_left; dsimp -zeta only [x]; clear x) | (clear y; clear_value x))
    | with_reducible apply advanceMer_fit (In.trans (by decide) hL)
    | with_reducible apply countWaits_fit (In.trans (by decide) hL)
    | with_reducible apply sendCopy_fit (In.trans (by decide) hL)
    | (with_reducible apply Fit.ite <;> intro _)
    | split)

end Sys2Proof.Machine
end

