-- ==== Sys2Proof/Laws/FitBridgeRows.lean ====
section
/-! SUPPORT. What each definition of Machine/BridgeRows.lean touches, and that it keeps the invariant: one lemma each. -/

set_option Elab.async false
set_option linter.all false

namespace Sys2Proof.Machine

theorem execGateControlEvent_fit {L : Nat} {s0 : State} {port : Fin 8} {s : State} (hL : In 0x400020 L) (h0 : Fit L s0 s) :
    ∀ post, execGateControlEvent port s = .next post → Fit L s0 post := by
  unfold execGateControlEvent
  refine ok_fit ?_
  repeat' (first
    | with_reducible assumption
    | intro _
    | (extract_lets +onlyGivenNames x; have y := x; first | (guard_hyp y : State; clear y; refine Fit.seq L s0 x ?_ ?_; rotate_left; intro hx; clear_value x; rotate_left; dsimp -zeta only [x]; clear x) | (clear y; clear_value x))
    | with_reducible apply advanceMer_fit (In.trans (by decide) hL)
    | with_reducible apply onNetPort_fit (In.trans (by decide) hL)
    | (with_reducible apply Fit.ite <;> intro _)
    | split)

theorem execNetSchedSwitch_fit {L : Nat} {s0 : State} {port : Fin 8} {s : State} (hL : In 0xC00C22 L) (h0 : Fit L s0 s) :
    ∀ post, execNetSchedSwitch port s = .next post → Fit L s0 post := by
  unfold execNetSchedSwitch
  refine ok_fit ?_
  repeat' (first
    | with_reducible assumption
    | intro _
    | (extract_lets +onlyGivenNames x; have y := x; first | (guard_hyp y : State; clear y; refine Fit.seq L s0 x ?_ ?_; rotate_left; intro hx; clear_value x; rotate_left; dsimp -zeta only [x]; clear x) | (clear y; clear_value x))
    | with_reducible apply advanceMer_fit (In.trans (by decide) hL)
    | with_reducible apply raise_fit (In.trans (by decide) hL)
    | with_reducible apply onNetPort_fit (In.trans (by decide) hL)
    | (with_reducible apply Fit.ite <;> intro _)
    | split)

theorem execFdbAgeing_fit {L : Nat} {s0 : State} {s : State} (hL : In 0x400020 L) (h0 : Fit L s0 s) :
    ∀ post, execFdbAgeing s = .next post → Fit L s0 post := by
  unfold execFdbAgeing
  refine ok_fit ?_
  repeat' (first
    | with_reducible assumption
    | intro _
    | (extract_lets +onlyGivenNames x; have y := x; first | (guard_hyp y : State; clear y; refine Fit.seq L s0 x ?_ ?_; rotate_left; intro hx; clear_value x; rotate_left; dsimp -zeta only [x]; clear x) | (clear y; clear_value x))
    | with_reducible apply advanceRef_fit (In.trans (by decide) hL)
    | with_reducible apply onNet_fit (In.trans (by decide) hL)
    | (with_reducible apply Fit.foldl)
    | split)

theorem execFrerResetTimeout_fit {L : Nat} {s0 : State} {stream : Fin 64} {s : State} (hL : In 0x400020 L) (h0 : Fit L s0 s) :
    ∀ post, execFrerResetTimeout stream s = .next post → Fit L s0 post := by
  unfold execFrerResetTimeout
  refine ok_fit ?_
  repeat' (first
    | with_reducible assumption
    | intro _
    | (extract_lets +onlyGivenNames x; have y := x; first | (guard_hyp y : State; clear y; refine Fit.seq L s0 x ?_ ?_; rotate_left; intro hx; clear_value x; rotate_left; dsimp -zeta only [x]; clear x) | (clear y; clear_value x))
    | with_reducible apply advanceRef_fit (In.trans (by decide) hL)
    | with_reducible apply setRun_fit (In.trans (by decide) hL)
    | (with_reducible apply Fit.ite <;> intro _)
    | split)

theorem execNetLinkUp_fit {L : Nat} {s0 : State} {port : Fin 8} {latency : Fin 4096} {s : State} (hL : In 0xC00E02 L) (h0 : Fit L s0 s) :
    ∀ post, execNetLinkUp port latency s = .next post → Fit L s0 post := by
  unfold execNetLinkUp
  refine ok_fit ?_
  repeat' (first
    | with_reducible assumption
    | intro _
    | (extract_lets +onlyGivenNames x; have y := x; first | (guard_hyp y : State; clear y; refine Fit.seq L s0 x ?_ ?_; rotate_left; intro hx; clear_value x; rotate_left; dsimp -zeta only [x]; clear x) | (clear y; clear_value x))
    | with_reducible apply raise_fit (In.trans (by decide) hL)
    | with_reducible apply auditAll_fit (In.trans (by decide) hL)
    | with_reducible apply onNetPort_fit (In.trans (by decide) hL)
    | with_reducible apply endRecov_fit (In.trans (by decide) hL)
    | (with_reducible apply Fit.ite <;> intro _)
    | split)

theorem execNetLinkDown_fit {L : Nat} {s0 : State} {port : Fin 8} {s : State} (hL : In 0xFFFFFFE L) (h0 : Fit L s0 s) :
    ∀ post, execNetLinkDown port s = .next post → Fit L s0 post := by
  unfold execNetLinkDown
  refine ok_fit ?_
  repeat' (first
    | with_reducible assumption
    | (extract_lets +onlyGivenNames x; have y := x; first | (guard_hyp y : State; clear y; refine Fit.seq L s0 x ?_ ?_; rotate_left; intro hx; clear_value x; rotate_left; dsimp -zeta only [x]; clear x) | (clear y; clear_value x))
    | with_reducible apply auditAll_fit (In.trans (by decide) hL)
    | with_reducible apply netDrop_fit (In.trans (by decide) hL)
    | with_reducible apply takeOwn_fit (In.trans (by decide) hL)
    | with_reducible apply faultAt_fit (In.trans (by decide) hL)
    | (with_reducible apply Fit.ite <;> intro _)
    | split)

theorem execNetBridgeFault_fit {L : Nat} {s0 : State} {s : State} (hL : In 0xFFFFFFE L) (h0 : Fit L s0 s) :
    ∀ post, execNetBridgeFault s = .next post → Fit L s0 post := by
  unfold execNetBridgeFault
  refine ok_fit ?_
  repeat' (first
    | with_reducible assumption
    | with_reducible apply faultAt_fit (In.trans (by decide) hL)
    | (with_reducible apply Fit.ite <;> intro _))

theorem netCommand_fit {L : Nat} {s0 : State} {h : Hdr} {opc key : Nat} {rec : List Byte} {fill : State → State} {v : State → Verdict} {s : State} (hL : In 0x1800E02 L) (h0 : Fit L s0 s) (h_fill : ∀ v0, Fit L s0 v0 → Fit L s0 (fill v0)) :
    Fit L s0 (netCommand h opc key rec fill v s) := by
  unfold netCommand
  repeat' (first
    | with_reducible assumption
    | intro _
    | (extract_lets +onlyGivenNames x; have y := x; first | (guard_hyp y : State; clear y; refine Fit.seq L s0 x ?_ ?_; rotate_left; intro hx; clear_value x; rotate_left; dsimp -zeta only [x]; clear x) | (clear y; clear_value x))
    | with_reducible apply finish_fit (In.trans (by decide) hL)
    | with_reducible apply netPut_fit (In.trans (by decide) hL)
    | with_reducible apply h_fill
    | (dsimp -zeta only [id])
    | (with_reducible apply Fit.of_snd; case e => with_reducible assumption)
    | (with_reducible apply Fit.of_fst; case e => with_reducible assumption)
    | split)

theorem rowNetPortCfg_fit {L : Nat} {h : Hdr} {p : NetPortCfgP} (hL : In 0x1C00E02 L) :
    RowFit L (rowNetPortCfg h p) := by
  refine ⟨fun s0 s h0 => ?_, fun s0 s h0 => ?_⟩ <;> unfold rowNetPortCfg <;> try dsimp -zeta only [id]
  repeat' (first
    | with_reducible assumption
    | intro _
    | (extract_lets +onlyGivenNames x; have y := x; first | (guard_hyp y : State; clear y; refine Fit.seq L s0 x ?_ ?_; rotate_left; intro hx; clear_value x; rotate_left; dsimp -zeta only [x]; clear x) | (clear y; clear_value x))
    | with_reducible apply onNetPort_fit (In.trans (by decide) hL)
    | with_reducible apply netDown_fit (In.trans (by decide) hL)
    | with_reducible apply netCommand_fit (In.trans (by decide) hL)
    | (dsimp -zeta only [id])
    | (with_reducible apply Fit.of_snd; case e => with_reducible assumption)
    | (with_reducible apply Fit.of_fst; case e => with_reducible assumption))

theorem execNetPortCfg_fit {L : Nat} {s0 : State} {h : Hdr} {p : NetPortCfgP} {s : State} (hL : In 0x5C00E02 L) (h0 : Fit L s0 s) :
    ∀ post, execNetPortCfg h p s = .next post → Fit L s0 post := by
  unfold execNetPortCfg
  refine ok_fit ?_
  repeat' (first
    | with_reducible assumption
    | with_reducible apply command_fit (In.trans (by decide) hL)
    | with_reducible apply rowNetPortCfg_fit (In.trans (by decide) hL))

theorem rowNetVlanCfgVlan_fit {L : Nat} {h : Hdr} {p : NetVlanP} (hL : In 0x1C00E02 L) :
    RowFit L (rowNetVlanCfgVlan h p) := by
  refine ⟨fun s0 s h0 => ?_, fun s0 s h0 => ?_⟩ <;> unfold rowNetVlanCfgVlan <;> try dsimp -zeta only [id]
  repeat' (first
    | with_reducible assumption
    | intro _
    | (extract_lets +onlyGivenNames x; have y := x; first | (guard_hyp y : State; clear y; refine Fit.seq L s0 x ?_ ?_; rotate_left; intro hx; clear_value x; rotate_left; dsimp -zeta only [x]; clear x) | (clear y; clear_value x))
    | with_reducible apply onNet_fit (In.trans (by decide) hL)
    | with_reducible apply netCommand_fit (In.trans (by decide) hL)
    | (dsimp -zeta only [id])
    | (with_reducible apply Fit.of_snd; case e => with_reducible assumption)
    | (with_reducible apply Fit.of_fst; case e => with_reducible assumption))

theorem execNetVlanCfgVlan_fit {L : Nat} {s0 : State} {h : Hdr} {p : NetVlanP} {s : State} (hL : In 0x5C00E02 L) (h0 : Fit L s0 s) :
    ∀ post, execNetVlanCfgVlan h p s = .next post → Fit L s0 post := by
  unfold execNetVlanCfgVlan
  refine ok_fit ?_
  repeat' (first
    | with_reducible assumption
    | with_reducible apply command_fit (In.trans (by decide) hL)
    | with_reducible apply rowNetVlanCfgVlan_fit (In.trans (by decide) hL))

theorem putStatics_fit {L : Nat} {s0 : State} {es : List StaticMac} {cs : List Nat} {s : State} (hL : In 0x1C00C02 L)
    (h0 : Fit L s0 s) : Fit L s0 (putStatics es cs s).1 := by
  induction cs generalizing s with
  | nil => exact onNet_fit (In.trans (by decide) hL) h0
  | cons c r ih =>
    unfold putStatics; dsimp only []; split
    · exact ih h0
    · have h1 := netPut_fit (key := 0x2100 + c) (bytes := staticRecord ((es.drop (170 * c)).take 170)) (fill := id)
        (In.trans (by decide) hL) h0 (fun _ h => h)
      split
      · exact ih (Fit.of_fst ‹_› h1)
      · exact Fit.of_fst ‹_› h1

theorem rowNetVlanCfgStaticEntry_fit {L : Nat} {h : Hdr} {p : NetStaticP} (hL : In 0x1C00E02 L) :
    RowFit L (rowNetVlanCfgStaticEntry h p) := by
  refine ⟨fun s0 s h0 => ?_, fun s0 s h0 => ?_⟩ <;> unfold rowNetVlanCfgStaticEntry <;> try dsimp -zeta only [id]
  repeat' (first
    | with_reducible assumption
    | intro _
    | (extract_lets +onlyGivenNames x; have y := x; first | (guard_hyp y : State; clear y; refine Fit.seq L s0 x ?_ ?_; rotate_left; intro hx; clear_value x; rotate_left; dsimp -zeta only [x]; clear x) | (clear y; clear_value x))
    | with_reducible apply finish_fit (In.trans (by decide) hL)
    | with_reducible apply putStatics_fit (In.trans (by decide) hL)
    | (dsimp -zeta only [id])
    | (with_reducible apply Fit.of_snd; case e => with_reducible assumption)
    | (with_reducible apply Fit.of_fst; case e => with_reducible assumption)
    | split)

theorem execNetVlanCfgStaticEntry_fit {L : Nat} {s0 : State} {h : Hdr} {p : NetStaticP} {s : State} (hL : In 0x5C00E02 L) (h0 : Fit L s0 s) :
    ∀ post, execNetVlanCfgStaticEntry h p s = .next post → Fit L s0 post := by
  unfold execNetVlanCfgStaticEntry
  refine ok_fit ?_
  repeat' (first
    | with_reducible assumption
    | with_reducible apply command_fit (In.trans (by decide) hL)
    | with_reducible apply rowNetVlanCfgStaticEntry_fit (In.trans (by decide) hL))

theorem rowNetVlanCfgPriorityMap_fit {L : Nat} {h : Hdr} {p : NetPrioP} (hL : In 0x1C00E02 L) :
    RowFit L (rowNetVlanCfgPriorityMap h p) := by
  refine ⟨fun s0 s h0 => ?_, fun s0 s h0 => ?_⟩ <;> unfold rowNetVlanCfgPriorityMap <;> try dsimp -zeta only [id]
  repeat' (first
    | with_reducible assumption
    | intro _
    | (extract_lets +onlyGivenNames x; have y := x; first | (guard_hyp y : State; clear y; refine Fit.seq L s0 x ?_ ?_; rotate_left; intro hx; clear_value x; rotate_left; dsimp -zeta only [x]; clear x) | ((first | (guard_hyp y : _ → State; clear y) | (guard_hyp y : _ → _ → State; clear y) | (guard_hyp y : _ → _ → _ → State; clear y)); dsimp -zeta only [x]; clear x) | (clear y; clear_value x))
    | with_reducible apply onNetPort_fit (In.trans (by decide) hL)
    | with_reducible apply netCommand_fit (In.trans (by decide) hL)
    | (dsimp -zeta only [id])
    | (with_reducible apply Fit.of_snd; case e => with_reducible assumption)
    | (with_reducible apply Fit.of_fst; case e => with_reducible assumption))

theorem execNetVlanCfgPriorityMap_fit {L : Nat} {s0 : State} {h : Hdr} {p : NetPrioP} {s : State} (hL : In 0x5C00E02 L) (h0 : Fit L s0 s) :
    ∀ post, execNetVlanCfgPriorityMap h p s = .next post → Fit L s0 post := by
  unfold execNetVlanCfgPriorityMap
  refine ok_fit ?_
  repeat' (first
    | with_reducible assumption
    | with_reducible apply command_fit (In.trans (by decide) hL)
    | with_reducible apply rowNetVlanCfgPriorityMap_fit (In.trans (by decide) hL))

theorem rowNetVlanCfgStream_fit {L : Nat} {h : Hdr} {p : NetStreamP} (hL : In 0x1C00E02 L) :
    RowFit L (rowNetVlanCfgStream h p) := by
  refine ⟨fun s0 s h0 => ?_, fun s0 s h0 => ?_⟩ <;> unfold rowNetVlanCfgStream <;> try dsimp -zeta only [id]
  repeat' (first
    | with_reducible assumption
    | intro _
    | (extract_lets +onlyGivenNames x; have y := x; first | (guard_hyp y : State; clear y; refine Fit.seq L s0 x ?_ ?_; rotate_left; intro hx; clear_value x; rotate_left; dsimp -zeta only [x]; clear x) | ((first | (guard_hyp y : _ → State; clear y) | (guard_hyp y : _ → _ → State; clear y) | (guard_hyp y : _ → _ → _ → State; clear y)); dsimp -zeta only [x]; clear x) | (clear y; clear_value x))
    | with_reducible apply onNet_fit (In.trans (by decide) hL)
    | with_reducible apply netCommand_fit (In.trans (by decide) hL)
    | (dsimp -zeta only [id])
    | (with_reducible apply Fit.of_snd; case e => with_reducible assumption)
    | (with_reducible apply Fit.of_fst; case e => with_reducible assumption))

theorem execNetVlanCfgStream_fit {L : Nat} {s0 : State} {h : Hdr} {p : NetStreamP} {s : State} (hL : In 0x5C00E02 L) (h0 : Fit L s0 s) :
    ∀ post, execNetVlanCfgStream h p s = .next post → Fit L s0 post := by
  unfold execNetVlanCfgStream
  refine ok_fit ?_
  repeat' (first
    | with_reducible assumption
    | with_reducible apply command_fit (In.trans (by decide) hL)
    | with_reducible apply rowNetVlanCfgStream_fit (In.trans (by decide) hL))

theorem rowNetSchedCfgWrite_fit {L : Nat} {h : Hdr} {p : NetSchedWriteP} (hL : In 0x1C00E02 L) :
    RowFit L (rowNetSchedCfgWrite h p) := by
  refine ⟨fun s0 s h0 => ?_, fun s0 s h0 => ?_⟩ <;> unfold rowNetSchedCfgWrite <;> try dsimp -zeta only [id]
  repeat' (first
    | with_reducible assumption
    | intro _
    | (extract_lets +onlyGivenNames x; have y := x; first | (guard_hyp y : State; clear y; refine Fit.seq L s0 x ?_ ?_; rotate_left; intro hx; clear_value x; rotate_left; dsimp -zeta only [x]; clear x) | (clear y; clear_value x))
    | with_reducible apply onNetPort_fit (In.trans (by decide) hL)
    | with_reducible apply netCommand_fit (In.trans (by decide) hL)
    | (dsimp -zeta only [id])
    | (with_reducible apply Fit.of_snd; case e => with_reducible assumption)
    | (with_reducible apply Fit.of_fst; case e => with_reducible assumption))

theorem execNetSchedCfgWrite_fit {L : Nat} {s0 : State} {h : Hdr} {p : NetSchedWriteP} {s : State} (hL : In 0x5C00E02 L) (h0 : Fit L s0 s) :
    ∀ post, execNetSchedCfgWrite h p s = .next post → Fit L s0 post := by
  unfold execNetSchedCfgWrite
  refine ok_fit ?_
  repeat' (first
    | with_reducible assumption
    | with_reducible apply command_fit (In.trans (by decide) hL)
    | with_reducible apply rowNetSchedCfgWrite_fit (In.trans (by decide) hL))

theorem rowNetSchedCfgCommit_fit {L : Nat} {h : Hdr} {p : NetSchedCommitP} (hL : In 0x1C00E02 L) :
    RowFit L (rowNetSchedCfgCommit h p) := by
  refine ⟨fun s0 s h0 => ?_, fun s0 s h0 => ?_⟩ <;> unfold rowNetSchedCfgCommit <;> try dsimp -zeta only [id]
  repeat' (first
    | with_reducible assumption
    | intro _
    | (extract_lets +onlyGivenNames x; have y := x; first | (guard_hyp y : State; clear y; refine Fit.seq L s0 x ?_ ?_; rotate_left; intro hx; clear_value x; rotate_left; dsimp -zeta only [x]; clear x) | (clear y; clear_value x))
    | with_reducible apply onNetPort_fit (In.trans (by decide) hL)
    | with_reducible apply netCommand_fit (In.trans (by decide) hL)
    | (dsimp -zeta only [id])
    | (with_reducible apply Fit.of_snd; case e => with_reducible assumption)
    | (with_reducible apply Fit.of_fst; case e => with_reducible assumption)
    | split)

theorem execNetSchedCfgCommit_fit {L : Nat} {s0 : State} {h : Hdr} {p : NetSchedCommitP} {s : State} (hL : In 0x5C00E02 L) (h0 : Fit L s0 s) :
    ∀ post, execNetSchedCfgCommit h p s = .next post → Fit L s0 post := by
  unfold execNetSchedCfgCommit
  refine ok_fit ?_
  repeat' (first
    | with_reducible assumption
    | with_reducible apply command_fit (In.trans (by decide) hL)
    | with_reducible apply rowNetSchedCfgCommit_fit (In.trans (by decide) hL))

theorem rowNetSchedCfgDisable_fit {L : Nat} {h : Hdr} {p : NetSchedDisableP} (hL : In 0x1C00E02 L) :
    RowFit L (rowNetSchedCfgDisable h p) := by
  refine ⟨fun s0 s h0 => ?_, fun s0 s h0 => ?_⟩ <;> unfold rowNetSchedCfgDisable <;> try dsimp -zeta only [id]
  repeat' (first
    | with_reducible assumption
    | intro _
    | (extract_lets +onlyGivenNames x; have y := x; first | (guard_hyp y : State; clear y; refine Fit.seq L s0 x ?_ ?_; rotate_left; intro hx; clear_value x; rotate_left; dsimp -zeta only [x]; clear x) | (clear y; clear_value x))
    | with_reducible apply onNetPort_fit (In.trans (by decide) hL)
    | with_reducible apply netCommand_fit (In.trans (by decide) hL)
    | (dsimp -zeta only [id])
    | (with_reducible apply Fit.of_snd; case e => with_reducible assumption)
    | (with_reducible apply Fit.of_fst; case e => with_reducible assumption))

theorem execNetSchedCfgDisable_fit {L : Nat} {s0 : State} {h : Hdr} {p : NetSchedDisableP} {s : State} (hL : In 0x5C00E02 L) (h0 : Fit L s0 s) :
    ∀ post, execNetSchedCfgDisable h p s = .next post → Fit L s0 post := by
  unfold execNetSchedCfgDisable
  refine ok_fit ?_
  repeat' (first
    | with_reducible assumption
    | with_reducible apply command_fit (In.trans (by decide) hL)
    | with_reducible apply rowNetSchedCfgDisable_fit (In.trans (by decide) hL))

theorem rowNetStats_fit {L : Nat} {h : Hdr} {p : NetStatsP} (hL : In 0x800E02 L) :
    RowFit L (rowNetStats h p) := by
  refine ⟨fun s0 s h0 => ?_, fun s0 s h0 => ?_⟩ <;> unfold rowNetStats <;> try dsimp -zeta only [id]
  repeat' (first
    | with_reducible assumption
    | intro _
    | with_reducible apply finish_fit (In.trans (by decide) hL)
    | (dsimp -zeta only [id])
    | (with_reducible apply Fit.of_snd; case e => with_reducible assumption)
    | (with_reducible apply Fit.of_fst; case e => with_reducible assumption))

theorem execNetStats_fit {L : Nat} {s0 : State} {h : Hdr} {p : NetStatsP} {s : State} (hL : In 0x4800E02 L) (h0 : Fit L s0 s) :
    ∀ post, execNetStats h p s = .next post → Fit L s0 post := by
  unfold execNetStats
  refine ok_fit ?_
  repeat' (first
    | with_reducible assumption
    | with_reducible apply command_fit (In.trans (by decide) hL)
    | with_reducible apply rowNetStats_fit (In.trans (by decide) hL))

end Sys2Proof.Machine
end

