-- ==== Sys2Proof/Laws/FitNvStore.lean ====
section
/-! SUPPORT. What each definition of Machine/NvStore.lean touches, and that it keeps the invariant: one lemma each. -/

set_option Elab.async false
set_option linter.all false

namespace Sys2Proof.Machine

theorem runNvRead_fit {L : Nat} {s0 : State} {h : Hdr} {p : NvAccessP} {s : State} (hL : In 0x801E02 L) (h0 : Fit L s0 s) :
    Fit L s0 (runNvRead h p s) := by
  unfold runNvRead
  repeat' (first
    | with_reducible assumption
    | (extract_lets +onlyGivenNames x; have y := x; first | (guard_hyp y : State; clear y; refine Fit.seq L s0 x ?_ ?_; rotate_left; intro hx; clear_value x; rotate_left; dsimp -zeta only [x]; clear x) | (clear y; clear_value x))
    | with_reducible apply emit_fit (In.trans (by decide) hL)
    | with_reducible apply devWrite_fit (In.trans (by decide) hL)
    | with_reducible apply finish_fit (In.trans (by decide) hL)
    | (with_reducible apply Fit.ite <;> intro _)
    | split)

theorem rowNvRead_fit {L : Nat} {h : Hdr} {p : NvAccessP} (hL : In 0x801E02 L) :
    RowFit L (rowNvRead h p) := by
  refine ⟨fun s0 s h0 => ?_, fun s0 s h0 => ?_⟩ <;> unfold rowNvRead <;> try dsimp -zeta only [id]
  repeat' (first
    | with_reducible assumption
    | with_reducible apply runNvRead_fit (In.trans (by decide) hL)
    | (dsimp -zeta only [id])
    | (with_reducible apply Fit.of_snd; case e => with_reducible assumption)
    | (with_reducible apply Fit.of_fst; case e => with_reducible assumption))

theorem execNvRead_fit {L : Nat} {s0 : State} {h : Hdr} {p : NvAccessP} {s : State} (hL : In 0x4801E02 L) (h0 : Fit L s0 s) :
    ∀ post, execNvRead h p s = .next post → Fit L s0 post := by
  unfold execNvRead
  refine ok_fit ?_
  repeat' (first
    | with_reducible assumption
    | with_reducible apply command_fit (In.trans (by decide) hL)
    | with_reducible apply rowNvRead_fit (In.trans (by decide) hL))

theorem runNvWrite_fit {L : Nat} {s0 : State} {h : Hdr} {p : NvAccessP} {data : List Byte} {fails : Nat} {s : State} (hL : In 0x1800E02 L) (h0 : Fit L s0 s) :
    Fit L s0 (runNvWrite h p data fails s) := by
  unfold runNvWrite
  repeat' (first
    | with_reducible assumption
    | (extract_lets +onlyGivenNames x; have y := x; first | (guard_hyp y : State; clear y; refine Fit.seq L s0 x ?_ ?_; rotate_left; intro hx; clear_value x; rotate_left; dsimp -zeta only [x]; clear x) | (clear y; clear_value x))
    | with_reducible apply finish_fit (In.trans (by decide) hL)
    | with_reducible apply nvPut_fit (In.trans (by decide) hL)
    | (dsimp -zeta only [id])
    | (with_reducible apply Fit.of_snd; case e => with_reducible assumption)
    | (with_reducible apply Fit.of_fst; case e => with_reducible assumption)
    | split)

theorem rowNvWrite_fit {L : Nat} {h : Hdr} {p : NvAccessP} {data : List Byte} {fails : Nat} (hL : In 0x1800E02 L) :
    RowFit L (rowNvWrite h p data fails) := by
  refine ⟨fun s0 s h0 => ?_, fun s0 s h0 => ?_⟩ <;> unfold rowNvWrite <;> try dsimp -zeta only [id]
  repeat' (first
    | with_reducible assumption
    | (extract_lets +onlyGivenNames x; have y := x; first | (guard_hyp y : State; clear y; refine Fit.seq L s0 x ?_ ?_; rotate_left; intro hx; clear_value x; rotate_left; dsimp -zeta only [x]; clear x) | (clear y; clear_value x))
    | with_reducible apply runNvWrite_fit (In.trans (by decide) hL)
    | (with_reducible apply Fit.ite <;> intro _)
    | (dsimp -zeta only [id])
    | (with_reducible apply Fit.of_snd; case e => with_reducible assumption)
    | (with_reducible apply Fit.of_fst; case e => with_reducible assumption)
    | split)

theorem execNvWrite_fit {L : Nat} {s0 : State} {h : Hdr} {p : NvAccessP} {data : List Byte} {fails : Nat} {s : State} (hL : In 0x5800E02 L) (h0 : Fit L s0 s) :
    ∀ post, execNvWrite h p data fails s = .next post → Fit L s0 post := by
  unfold execNvWrite
  refine ok_fit ?_
  repeat' (first
    | with_reducible assumption
    | with_reducible apply command_fit (In.trans (by decide) hL)
    | with_reducible apply rowNvWrite_fit (In.trans (by decide) hL))

theorem runNvDelete_fit {L : Nat} {s0 : State} {h : Hdr} {p : NvAccessP} {s : State} (hL : In 0x1800E02 L) (h0 : Fit L s0 s) :
    Fit L s0 (runNvDelete h p s) := by
  unfold runNvDelete
  repeat' (first
    | with_reducible assumption
    | (extract_lets +onlyGivenNames x; have y := x; first | (guard_hyp y : State; clear y; refine Fit.seq L s0 x ?_ ?_; rotate_left; intro hx; clear_value x; rotate_left; dsimp -zeta only [x]; clear x) | (clear y; clear_value x))
    | with_reducible apply finish_fit (In.trans (by decide) hL)
    | with_reducible apply nvDelete_fit (In.trans (by decide) hL)
    | (dsimp -zeta only [id])
    | (with_reducible apply Fit.of_snd; case e => with_reducible assumption)
    | (with_reducible apply Fit.of_fst; case e => with_reducible assumption)
    | split)

theorem rowNvWriteDelete_fit {L : Nat} {h : Hdr} {p : NvAccessP} (hL : In 0x1800E02 L) :
    RowFit L (rowNvWriteDelete h p) := by
  refine ⟨fun s0 s h0 => ?_, fun s0 s h0 => ?_⟩ <;> unfold rowNvWriteDelete <;> try dsimp -zeta only [id]
  repeat' (first
    | with_reducible assumption
    | intro _
    | (extract_lets +onlyGivenNames x; have y := x; first | (guard_hyp y : State; clear y; refine Fit.seq L s0 x ?_ ?_; rotate_left; intro hx; clear_value x; rotate_left; dsimp -zeta only [x]; clear x) | (clear y; clear_value x))
    | with_reducible apply runNvDelete_fit (In.trans (by decide) hL)
    | (dsimp -zeta only [id])
    | (with_reducible apply Fit.of_snd; case e => with_reducible assumption)
    | (with_reducible apply Fit.of_fst; case e => with_reducible assumption))

theorem execNvWriteDelete_fit {L : Nat} {s0 : State} {h : Hdr} {p : NvAccessP} {s : State} (hL : In 0x5800E02 L) (h0 : Fit L s0 s) :
    ∀ post, execNvWriteDelete h p s = .next post → Fit L s0 post := by
  unfold execNvWriteDelete
  refine ok_fit ?_
  repeat' (first
    | with_reducible assumption
    | with_reducible apply command_fit (In.trans (by decide) hL)
    | with_reducible apply rowNvWriteDelete_fit (In.trans (by decide) hL))

theorem nvAuthFail_fit {L : Nat} {s0 : State} {part : Nat} {s : State} (hL : In 0x1800C02 L) (h0 : Fit L s0 s) :
    Fit L s0 (nvAuthFail part s) := by
  unfold nvAuthFail
  repeat' (first
    | with_reducible assumption
    | (extract_lets +onlyGivenNames x; have y := x; first | (guard_hyp y : State; clear y; refine Fit.seq L s0 x ?_ ?_; rotate_left; intro hx; clear_value x; rotate_left; dsimp -zeta only [x]; clear x) | (clear y; clear_value x))
    | with_reducible apply raise_fit (In.trans (by decide) hL)
    | with_reducible apply counterSet_fit (In.trans (by decide) hL)
    | (with_reducible apply Fit.ite <;> intro _)
    | (with_reducible apply Fit.upd_nv (In.trans (by decide) hL); first | (with_reducible apply Fit.ite <;> intro _) | (fail_if_success split)))

theorem runNvUnlock_fit {L : Nat} {s0 : State} {h : Hdr} {p : NvPassP} {s : State} (hL : In 0x1800E02 L) (h0 : Fit L s0 s) :
    Fit L s0 (runNvUnlock h p s) := by
  unfold runNvUnlock
  repeat' (first
    | with_reducible assumption
    | intro _
    | (extract_lets +onlyGivenNames x; have y := x; first | (guard_hyp y : State; clear y; refine Fit.seq L s0 x ?_ ?_; rotate_left; intro hx; clear_value x; rotate_left; dsimp -zeta only [x]; clear x) | (clear y; clear_value x))
    | with_reducible apply finish_fit (In.trans (by decide) hL)
    | with_reducible apply counterSet_fit (In.trans (by decide) hL)
    | with_reducible apply nvAuthFail_fit (In.trans (by decide) hL)
    | (with_reducible apply Fit.ite <;> intro _)
    | (with_reducible apply Fit.foldl)
    | (with_reducible apply Fit.upd_nv (In.trans (by decide) hL); first | (with_reducible apply Fit.ite <;> intro _) | (fail_if_success split))
    | split)

theorem rowNvUnlock_fit {L : Nat} {h : Hdr} {p : NvPassP} {rsv8 : Byte} (hL : In 0x1800E02 L) :
    RowFit L (rowNvUnlock h p rsv8) := by
  refine ⟨fun s0 s h0 => ?_, fun s0 s h0 => ?_⟩ <;> unfold rowNvUnlock <;> try dsimp -zeta only [id]
  repeat' (first
    | with_reducible assumption
    | intro _
    | with_reducible apply runNvUnlock_fit (In.trans (by decide) hL)
    | (dsimp -zeta only [id])
    | (with_reducible apply Fit.of_snd; case e => with_reducible assumption)
    | (with_reducible apply Fit.of_fst; case e => with_reducible assumption))

theorem execNvUnlock_fit {L : Nat} {s0 : State} {h : Hdr} {p : NvPassP} {rsv8 : Byte} {s : State} (hL : In 0x5800E02 L) (h0 : Fit L s0 s) :
    ∀ post, execNvUnlock h p rsv8 s = .next post → Fit L s0 post := by
  unfold execNvUnlock
  refine ok_fit ?_
  repeat' (first
    | with_reducible assumption
    | with_reducible apply command_fit (In.trans (by decide) hL)
    | with_reducible apply rowNvUnlock_fit (In.trans (by decide) hL))

theorem relock_fit {L : Nat} {s0 : State} {p : NvPassP} {m : Option Master} {s : State} (hL : In 0x1000000 L) (h0 : Fit L s0 s) :
    Fit L s0 (relock p m s) := by
  unfold relock
  repeat' (first
    | with_reducible assumption
    | intro _
    | (extract_lets +onlyGivenNames x; have y := x; first | (guard_hyp y : State; clear y; refine Fit.seq L s0 x ?_ ?_; rotate_left; intro hx; clear_value x; rotate_left; dsimp -zeta only [x]; clear x) | (clear y; clear_value x))
    | (with_reducible apply Fit.upd_nv (In.trans (by decide) hL); first | (with_reducible apply Fit.ite <;> intro _) | (fail_if_success split)))

theorem rowNvLock_fit {L : Nat} {h : Hdr} {p : NvPassP} (hL : In 0x1800E02 L) :
    RowFit L (rowNvLock h p) := by
  refine ⟨fun s0 s h0 => ?_, fun s0 s h0 => ?_⟩ <;> unfold rowNvLock <;> try dsimp -zeta only [id]
  repeat' (first
    | with_reducible assumption
    | intro _
    | with_reducible apply finish_fit (In.trans (by decide) hL)
    | with_reducible apply relock_fit (In.trans (by decide) hL)
    | (dsimp -zeta only [id])
    | (with_reducible apply Fit.of_snd; case e => with_reducible assumption)
    | (with_reducible apply Fit.of_fst; case e => with_reducible assumption))

theorem execNvLock_fit {L : Nat} {s0 : State} {h : Hdr} {p : NvPassP} {s : State} (hL : In 0x5800E02 L) (h0 : Fit L s0 s) :
    ∀ post, execNvLock h p s = .next post → Fit L s0 post := by
  unfold execNvLock
  refine ok_fit ?_
  repeat' (first
    | with_reducible assumption
    | with_reducible apply command_fit (In.trans (by decide) hL)
    | with_reducible apply rowNvLock_fit (In.trans (by decide) hL))

theorem putPass_fit {L : Nat} {s0 : State} {part k : Nat} {pw : List Byte} {s : State} (hL : In 0x1800C06 L) (h0 : Fit L s0 s) :
    Fit L s0 (putPass part k pw s).1 := by
  unfold putPass
  repeat' (first
    | with_reducible assumption
    | (extract_lets +onlyGivenNames x; have y := x; first | (guard_hyp y : State; clear y; refine Fit.seq L s0 x ?_ ?_; rotate_left; intro hx; clear_value x; rotate_left; dsimp -zeta only [x]; clear x) | (clear y; clear_value x))
    | with_reducible apply drawn_fit (In.trans (by decide) hL)
    | with_reducible apply nvPut_fit (In.trans (by decide) hL)
    | (dsimp -zeta only [id])
    | (with_reducible apply Fit.of_snd; case e => with_reducible assumption)
    | (with_reducible apply Fit.of_fst; case e => with_reducible assumption))

theorem putPasses_fit {L : Nat} {s0 : State} {part : Nat} {pw : List Byte} {ks : List Nat} {s : State}
    (hL : In 0x1800C06 L) (h0 : Fit L s0 s) : Fit L s0 (putPasses part pw ks s).1 := by
  induction ks generalizing s with
  | nil => exact h0
  | cons k r ih =>
    have h1 := putPass_fit (part := part) (k := k) (pw := pw) (In.trans (by decide) hL) h0
    unfold putPasses; split
    · exact ih (Fit.of_fst ‹_› h1)
    · exact Fit.of_fst ‹_› h1

theorem dropPasses_fit {L : Nat} {s0 : State} {part : Nat} {ks : List Nat} {s : State}
    (hL : In 0x1800C02 L) (h0 : Fit L s0 s) : Fit L s0 (dropPasses part ks s).1 := by
  induction ks generalizing s with
  | nil => exact h0
  | cons k r ih =>
    unfold dropPasses; split
    · exact ih h0
    · have h1 := nvDelete_fit (part := 4) (type := 0x10) (key := 2 * part + k) (In.trans (by decide) hL) h0
      split
      · exact ih (Fit.of_fst ‹_› h1)
      · exact Fit.of_fst ‹_› h1

theorem rowNvLockSetPassword_fit {L : Nat} {h : Hdr} {p : NvPassP} (hL : In 0x1800E06 L) :
    RowFit L (rowNvLockSetPassword h p) := by
  refine ⟨fun s0 s h0 => ?_, fun s0 s h0 => ?_⟩ <;> unfold rowNvLockSetPassword <;> try dsimp -zeta only [id]
  repeat' (first
    | with_reducible assumption
    | intro _
    | (extract_lets +onlyGivenNames x; have y := x; first | (guard_hyp y : State; clear y; refine Fit.seq L s0 x ?_ ?_; rotate_left; intro hx; clear_value x; rotate_left; dsimp -zeta only [x]; clear x) | (clear y; clear_value x))
    | with_reducible apply finish_fit (In.trans (by decide) hL)
    | with_reducible apply relock_fit (In.trans (by decide) hL)
    | with_reducible apply putPasses_fit (In.trans (by decide) hL)
    | (dsimp -zeta only [id])
    | (with_reducible apply Fit.of_snd; case e => with_reducible assumption)
    | (with_reducible apply Fit.of_fst; case e => with_reducible assumption)
    | split)

theorem execNvLockSetPassword_fit {L : Nat} {s0 : State} {h : Hdr} {p : NvPassP} {s : State} (hL : In 0x5800E06 L) (h0 : Fit L s0 s) :
    ∀ post, execNvLockSetPassword h p s = .next post → Fit L s0 post := by
  unfold execNvLockSetPassword
  refine ok_fit ?_
  repeat' (first
    | with_reducible assumption
    | with_reducible apply command_fit (In.trans (by decide) hL)
    | with_reducible apply rowNvLockSetPassword_fit (In.trans (by decide) hL))

theorem rowNvLockRemovePassword_fit {L : Nat} {h : Hdr} {p : NvPassP} (hL : In 0x1800E02 L) :
    RowFit L (rowNvLockRemovePassword h p) := by
  refine ⟨fun s0 s h0 => ?_, fun s0 s h0 => ?_⟩ <;> unfold rowNvLockRemovePassword <;> try dsimp -zeta only [id]
  repeat' (first
    | with_reducible assumption
    | intro _
    | (extract_lets +onlyGivenNames x; have y := x; first | (guard_hyp y : State; clear y; refine Fit.seq L s0 x ?_ ?_; rotate_left; intro hx; clear_value x; rotate_left; dsimp -zeta only [x]; clear x) | (clear y; clear_value x))
    | with_reducible apply finish_fit (In.trans (by decide) hL)
    | with_reducible apply dropPasses_fit (In.trans (by decide) hL)
    | (dsimp -zeta only [id])
    | (with_reducible apply Fit.of_snd; case e => with_reducible assumption)
    | (with_reducible apply Fit.of_fst; case e => with_reducible assumption)
    | split)

theorem execNvLockRemovePassword_fit {L : Nat} {s0 : State} {h : Hdr} {p : NvPassP} {s : State} (hL : In 0x5800E02 L) (h0 : Fit L s0 s) :
    ∀ post, execNvLockRemovePassword h p s = .next post → Fit L s0 post := by
  unfold execNvLockRemovePassword
  refine ok_fit ?_
  repeat' (first
    | with_reducible assumption
    | with_reducible apply command_fit (In.trans (by decide) hL)
    | with_reducible apply rowNvLockRemovePassword_fit (In.trans (by decide) hL))

theorem rowNvCounterAdd_fit {L : Nat} {h : Hdr} {p : NvCounterP} (hL : In 0x1800E02 L) :
    RowFit L (rowNvCounterAdd h p) := by
  refine ⟨fun s0 s h0 => ?_, fun s0 s h0 => ?_⟩ <;> unfold rowNvCounterAdd <;> try dsimp -zeta only [id]
  repeat' (first
    | with_reducible assumption
    | intro _
    | (extract_lets +onlyGivenNames x; have y := x; first | (guard_hyp y : State; clear y; refine Fit.seq L s0 x ?_ ?_; rotate_left; intro hx; clear_value x; rotate_left; dsimp -zeta only [x]; clear x) | (clear y; clear_value x))
    | with_reducible apply finish_fit (In.trans (by decide) hL)
    | with_reducible apply nvPut_fit (In.trans (by decide) hL)
    | (dsimp -zeta only [id])
    | (with_reducible apply Fit.of_snd; case e => with_reducible assumption)
    | (with_reducible apply Fit.of_fst; case e => with_reducible assumption)
    | split)

theorem execNvCounterAdd_fit {L : Nat} {s0 : State} {h : Hdr} {p : NvCounterP} {s : State} (hL : In 0x5800E02 L) (h0 : Fit L s0 s) :
    ∀ post, execNvCounterAdd h p s = .next post → Fit L s0 post := by
  unfold execNvCounterAdd
  refine ok_fit ?_
  repeat' (first
    | with_reducible assumption
    | with_reducible apply command_fit (In.trans (by decide) hL)
    | with_reducible apply rowNvCounterAdd_fit (In.trans (by decide) hL))

theorem runLogRead_fit {L : Nat} {s0 : State} {h : Hdr} {opc : Nat} {p : EventLogReadP} {rs : List (List Byte)} {s : State} (hL : In 0x801E02 L) (h0 : Fit L s0 s) :
    Fit L s0 (runLogRead h opc p rs s) := by
  unfold runLogRead
  repeat' (first
    | with_reducible assumption
    | intro _
    | (extract_lets +onlyGivenNames x; have y := x; first | (guard_hyp y : State; clear y; refine Fit.seq L s0 x ?_ ?_; rotate_left; intro hx; clear_value x; rotate_left; dsimp -zeta only [x]; clear x) | (clear y; clear_value x))
    | with_reducible apply emit_fit (In.trans (by decide) hL)
    | with_reducible apply devWrite_fit (In.trans (by decide) hL)
    | with_reducible apply finish_fit (In.trans (by decide) hL)
    | (with_reducible apply Fit.ite <;> intro _)
    | split)

theorem rowNvLogRead_fit {L : Nat} {h : Hdr} {p : EventLogReadP} (hL : In 0x801E02 L) :
    RowFit L (rowNvLogRead h p) := by
  refine ⟨fun s0 s h0 => ?_, fun s0 s h0 => ?_⟩ <;> unfold rowNvLogRead <;> try dsimp -zeta only [id]
  repeat' (first
    | with_reducible assumption
    | intro _
    | with_reducible apply runLogRead_fit (In.trans (by decide) hL)
    | (dsimp -zeta only [id])
    | (with_reducible apply Fit.of_snd; case e => with_reducible assumption)
    | (with_reducible apply Fit.of_fst; case e => with_reducible assumption))

theorem execNvLogRead_fit {L : Nat} {s0 : State} {h : Hdr} {p : EventLogReadP} {s : State} (hL : In 0x4801E02 L) (h0 : Fit L s0 s) :
    ∀ post, execNvLogRead h p s = .next post → Fit L s0 post := by
  unfold execNvLogRead
  refine ok_fit ?_
  repeat' (first
    | with_reducible assumption
    | with_reducible apply command_fit (In.trans (by decide) hL)
    | with_reducible apply rowNvLogRead_fit (In.trans (by decide) hL))

theorem execNvLogFlush_fit {L : Nat} {s0 : State} {s : State} (hL : In 0x1800C22 L) (h0 : Fit L s0 s) :
    ∀ post, execNvLogFlush s = .next post → Fit L s0 post := by
  unfold execNvLogFlush
  refine ok_fit ?_
  repeat' (first
    | with_reducible assumption
    | with_reducible apply advanceRef_fit (In.trans (by decide) hL)
    | with_reducible apply nvFlush_fit (In.trans (by decide) hL)
    | (with_reducible apply Fit.ite <;> intro _))

end Sys2Proof.Machine
end

