-- ==== Sys2Proof/Laws/FitBuffers.lean ====
section
/-! SUPPORT. What each definition of Machine/Buffers.lean touches, and that it keeps the invariant: one lemma each. -/

set_option Elab.async false
set_option linter.all false

namespace Sys2Proof.Machine

theorem runBufAlloc_fit {L : Nat} {s0 : State} {h : Hdr} {p : BufAllocP} {s : State} (hL : In 0x801E02 L) (h0 : Fit L s0 s) :
    Fit L s0 (runBufAlloc h p s) := by
  unfold runBufAlloc
  repeat' (first
    | with_reducible assumption
    | (extract_lets +onlyGivenNames x; have y := x; first | (guard_hyp y : State; clear y; refine Fit.seq L s0 x ?_ ?_; rotate_left; intro hx; clear_value x; rotate_left; dsimp -zeta only [x]; clear x) | (clear y; clear_value x))
    | with_reducible apply devBlur_fit (In.trans (by decide) hL)
    | with_reducible apply move_fit (In.trans (by decide) hL)
    | with_reducible apply checkLow_fit (In.trans (by decide) hL)
    | with_reducible apply finish_fit (In.trans (by decide) hL)
    | (with_reducible apply Fit.upd_buf (In.trans (by decide) hL); first | (with_reducible apply Fit.ite <;> intro _) | (fail_if_success split))
    | split)

theorem rowBufAlloc_fit {L : Nat} {h : Hdr} {p : BufAllocP} (hL : In 0x801E02 L) :
    RowFit L (rowBufAlloc h p) := by
  refine ⟨fun s0 s h0 => ?_, fun s0 s h0 => ?_⟩ <;> unfold rowBufAlloc <;> try dsimp -zeta only [id]
  repeat' (first
    | with_reducible assumption
    | with_reducible apply runBufAlloc_fit (In.trans (by decide) hL)
    | (dsimp -zeta only [id])
    | (with_reducible apply Fit.of_snd; case e => with_reducible assumption)
    | (with_reducible apply Fit.of_fst; case e => with_reducible assumption))

theorem execBufAlloc_fit {L : Nat} {s0 : State} {h : Hdr} {p : BufAllocP} {s : State} (hL : In 0x4801E02 L) (h0 : Fit L s0 s) :
    ∀ post, execBufAlloc h p s = .next post → Fit L s0 post := by
  unfold execBufAlloc
  refine ok_fit ?_
  repeat' (first
    | with_reducible assumption
    | with_reducible apply command_fit (In.trans (by decide) hL)
    | with_reducible apply rowBufAlloc_fit (In.trans (by decide) hL))

theorem runBufFree_fit {L : Nat} {s0 : State} {h : Hdr} {p : HandleP} {s : State} (hL : In 0x840E02 L) (h0 : Fit L s0 s) :
    Fit L s0 (runBufFree h p s) := by
  unfold runBufFree
  repeat' (first
    | with_reducible assumption
    | intro _
    | (extract_lets +onlyGivenNames x; have y := x; first | (guard_hyp y : State; clear y; refine Fit.seq L s0 x ?_ ?_; rotate_left; intro hx; clear_value x; rotate_left; dsimp -zeta only [x]; clear x) | (clear y; clear_value x))
    | with_reducible apply raise_fit (In.trans (by decide) hL)
    | with_reducible apply move_fit (In.trans (by decide) hL)
    | with_reducible apply nextGen_fit (In.trans (by decide) hL)
    | with_reducible apply setBuf_fit (In.trans (by decide) hL)
    | with_reducible apply dropBuf_fit (In.trans (by decide) hL)
    | with_reducible apply checkLow_fit (In.trans (by decide) hL)
    | with_reducible apply finish_fit (In.trans (by decide) hL)
    | with_reducible apply dropSources_fit (In.trans (by decide) hL)
    | (with_reducible apply Fit.ite <;> intro _)
    | split)

theorem rowBufFree_fit {L : Nat} {h : Hdr} {p : HandleP} (hL : In 0x840E02 L) :
    RowFit L (rowBufFree h p) := by
  refine ⟨fun s0 s h0 => ?_, fun s0 s h0 => ?_⟩ <;> unfold rowBufFree <;> try dsimp -zeta only [id]
  repeat' (first
    | with_reducible assumption
    | intro _
    | with_reducible apply runBufFree_fit (In.trans (by decide) hL)
    | (dsimp -zeta only [id])
    | (with_reducible apply Fit.of_snd; case e => with_reducible assumption)
    | (with_reducible apply Fit.of_fst; case e => with_reducible assumption))

theorem execBufFree_fit {L : Nat} {s0 : State} {h : Hdr} {p : HandleP} {s : State} (hL : In 0x4840E02 L) (h0 : Fit L s0 s) :
    ∀ post, execBufFree h p s = .next post → Fit L s0 post := by
  unfold execBufFree
  refine ok_fit ?_
  repeat' (first
    | with_reducible assumption
    | with_reducible apply command_fit (In.trans (by decide) hL)
    | with_reducible apply rowBufFree_fit (In.trans (by decide) hL))

theorem runBufCopy_fit {L : Nat} {s0 : State} {h : Hdr} {p : BufCopyP} {s : State} (hL : In 0x800E02 L) (h0 : Fit L s0 s) :
    Fit L s0 (runBufCopy h p s) := by
  unfold runBufCopy
  repeat' (first
    | with_reducible assumption
    | intro _
    | (extract_lets +onlyGivenNames x; have y := x; first | (guard_hyp y : State; clear y; refine Fit.seq L s0 x ?_ ?_; rotate_left; intro hx; clear_value x; rotate_left; dsimp -zeta only [x]; clear x) | ((first | (guard_hyp y : _ → State; clear y) | (guard_hyp y : _ → _ → State; clear y) | (guard_hyp y : _ → _ → _ → State; clear y)); dsimp -zeta only [x]; clear x) | (clear y; clear_value x))
    | with_reducible apply hold_fit (In.trans (by decide) hL)
    | with_reducible apply accepted_fit (In.trans (by decide) hL)
    | (with_reducible apply Fit.ite <;> intro _)
    | (with_reducible apply Fit.upd_buf (In.trans (by decide) hL); first | (with_reducible apply Fit.ite <;> intro _) | (fail_if_success split))
    | split)

theorem rowBufCopy_fit {L : Nat} {h : Hdr} {p : BufCopyP} (hL : In 0x800E02 L) :
    RowFit L (rowBufCopy h p) := by
  refine ⟨fun s0 s h0 => ?_, fun s0 s h0 => ?_⟩ <;> unfold rowBufCopy <;> try dsimp -zeta only [id]
  repeat' (first
    | with_reducible assumption
    | with_reducible apply runBufCopy_fit (In.trans (by decide) hL)
    | (dsimp -zeta only [id])
    | (with_reducible apply Fit.of_snd; case e => with_reducible assumption)
    | (with_reducible apply Fit.of_fst; case e => with_reducible assumption))

theorem execBufCopy_fit {L : Nat} {s0 : State} {h : Hdr} {p : BufCopyP} {s : State} (hL : In 0x4800E02 L) (h0 : Fit L s0 s) :
    ∀ post, execBufCopy h p s = .next post → Fit L s0 post := by
  unfold execBufCopy
  refine ok_fit ?_
  repeat' (first
    | with_reducible assumption
    | with_reducible apply command_fit (In.trans (by decide) hL)
    | with_reducible apply rowBufCopy_fit (In.trans (by decide) hL))

theorem execBufCopyDone_fit {L : Nat} {s0 : State} {k : CmdKey} {copied : U32} {mem : HostMem} {data : List Byte} {s : State} (hL : In 0x801E02 L) (h0 : Fit L s0 s) :
    ∀ post, execBufCopyDone k copied mem data s = .next post → Fit L s0 post := by
  unfold execBufCopyDone
  refine ok_fit ?_
  repeat' (first
    | with_reducible assumption
    | intro _
    | (extract_lets +onlyGivenNames x; have y := x; first | (guard_hyp y : State; clear y; refine Fit.seq L s0 x ?_ ?_; rotate_left; intro hx; clear_value x; rotate_left; dsimp -zeta only [x]; clear x) | (clear y; clear_value x))
    | with_reducible apply finish_fit (In.trans (by decide) hL)
    | with_reducible apply dropCopy_fit (In.trans (by decide) hL)
    | with_reducible apply landCopy_fit (In.trans (by decide) hL)
    | with_reducible apply loseRest_fit (In.trans (by decide) hL)
    | (with_reducible apply Fit.ite <;> intro _)
    | split)

theorem rowBufQuery_fit {L : Nat} {h : Hdr} {p : HandleP} (hL : In 0x800E02 L) :
    RowFit L (rowBufQuery h p) := by
  refine ⟨fun s0 s h0 => ?_, fun s0 s h0 => ?_⟩ <;> unfold rowBufQuery <;> try dsimp -zeta only [id]
  repeat' (first
    | with_reducible assumption
    | intro _
    | (extract_lets +onlyGivenNames x; have y := x; first | (guard_hyp y : State; clear y; refine Fit.seq L s0 x ?_ ?_; rotate_left; intro hx; clear_value x; rotate_left; dsimp -zeta only [x]; clear x) | (clear y; clear_value x))
    | with_reducible apply finish_fit (In.trans (by decide) hL)
    | (dsimp -zeta only [id])
    | (with_reducible apply Fit.of_snd; case e => with_reducible assumption)
    | (with_reducible apply Fit.of_fst; case e => with_reducible assumption)
    | split)

theorem execBufQuery_fit {L : Nat} {s0 : State} {h : Hdr} {p : HandleP} {s : State} (hL : In 0x4800E02 L) (h0 : Fit L s0 s) :
    ∀ post, execBufQuery h p s = .next post → Fit L s0 post := by
  unfold execBufQuery
  refine ok_fit ?_
  repeat' (first
    | with_reducible assumption
    | with_reducible apply command_fit (In.trans (by decide) hL)
    | with_reducible apply rowBufQuery_fit (In.trans (by decide) hL))

theorem auditPool_fit {L : Nat} {s0 : State} {us : List Upset} {p : Pool} {s : State} (hL : In 0xFFFFFFE L) (h0 : Fit L s0 s) :
    Fit L s0 (auditPool us p s) := by
  unfold auditPool
  repeat' (first
    | with_reducible assumption
    | (extract_lets +onlyGivenNames x; have y := x; first | (guard_hyp y : State; clear y; refine Fit.seq L s0 x ?_ ?_; rotate_left; intro hx; clear_value x; rotate_left; dsimp -zeta only [x]; clear x) | (clear y; clear_value x))
    | with_reducible apply raise_fit (In.trans (by decide) hL)
    | with_reducible apply auditOne_fit (In.trans (by decide) hL)
    | with_reducible apply faultOf_fit (In.trans (by decide) hL)
    | (with_reducible apply Fit.ite <;> intro _)
    | (with_reducible apply Fit.upd_buf (In.trans (by decide) hL); first | (with_reducible apply Fit.ite <;> intro _) | (fail_if_success split)))

theorem rowLedgerRead_fit {L : Nat} {h : Hdr} {p : LedgerReadP} {us : List Upset} (hL : In 0xFFFFFFE L) :
    RowFit L (rowLedgerRead h p us) := by
  refine ⟨fun s0 s h0 => ?_, fun s0 s h0 => ?_⟩ <;> unfold rowLedgerRead <;> try dsimp -zeta only [id]
  repeat' (first
    | with_reducible assumption
    | intro _
    | (extract_lets +onlyGivenNames x; have y := x; first | (guard_hyp y : State; clear y; refine Fit.seq L s0 x ?_ ?_; rotate_left; intro hx; clear_value x; rotate_left; dsimp -zeta only [x]; clear x) | (clear y; clear_value x))
    | with_reducible apply emit_fit (In.trans (by decide) hL)
    | with_reducible apply auditOne_fit (In.trans (by decide) hL)
    | with_reducible apply finish_fit (In.trans (by decide) hL)
    | with_reducible apply auditPool_fit (In.trans (by decide) hL)
    | (with_reducible apply Fit.ite <;> intro _)
    | (dsimp -zeta only [id])
    | (with_reducible apply Fit.of_snd; case e => with_reducible assumption)
    | (with_reducible apply Fit.of_fst; case e => with_reducible assumption)
    | split)

theorem execLedgerRead_fit {L : Nat} {s0 : State} {h : Hdr} {p : LedgerReadP} {upsets : List Upset} {s : State} (hL : In 0xFFFFFFE L) (h0 : Fit L s0 s) :
    ∀ post, execLedgerRead h p upsets s = .next post → Fit L s0 post := by
  unfold execLedgerRead
  refine ok_fit ?_
  repeat' (first
    | with_reducible assumption
    | with_reducible apply command_fit (In.trans (by decide) hL)
    | with_reducible apply rowLedgerRead_fit (In.trans (by decide) hL))

theorem execLedgerAuditTick_fit {L : Nat} {s0 : State} {upsets : List Upset} {s : State} (hL : In 0xFFFFFFE L) (h0 : Fit L s0 s) :
    ∀ post, execLedgerAuditTick upsets s = .next post → Fit L s0 post := by
  unfold execLedgerAuditTick
  refine ok_fit ?_
  repeat' (first
    | with_reducible assumption
    | intro _
    | (extract_lets +onlyGivenNames x; have y := x; first | (guard_hyp y : State; clear y; refine Fit.seq L s0 x ?_ ?_; rotate_left; intro hx; clear_value x; rotate_left; dsimp -zeta only [x]; clear x) | (clear y; clear_value x))
    | with_reducible apply advanceMer_fit (In.trans (by decide) hL)
    | with_reducible apply auditPool_fit (In.trans (by decide) hL)
    | (with_reducible apply Fit.ite <;> intro _)
    | (with_reducible apply Fit.foldl)
    | (with_reducible apply Fit.upd_buf (In.trans (by decide) hL); first | (with_reducible apply Fit.ite <;> intro _) | (fail_if_success split))
    | split)

theorem execBufWithdrawWait_fit {L : Nat} {s0 : State} {s : State} (hL : In 0x800E22 L) (h0 : Fit L s0 s) :
    ∀ post, execBufWithdrawWait s = .next post → Fit L s0 post := by
  unfold execBufWithdrawWait
  refine ok_fit ?_
  repeat' (first
    | with_reducible assumption
    | intro _
    | (extract_lets +onlyGivenNames x; have y := x; first | (guard_hyp y : State; clear y; refine Fit.seq L s0 x ?_ ?_; rotate_left; intro hx; clear_value x; rotate_left; dsimp -zeta only [x]; clear x) | (clear y; clear_value x))
    | with_reducible apply advanceRef_fit (In.trans (by decide) hL)
    | with_reducible apply raise_fit (In.trans (by decide) hL)
    | (with_reducible apply Fit.foldl)
    | (with_reducible apply Fit.upd_buf (In.trans (by decide) hL); first | (with_reducible apply Fit.ite <;> intro _) | (fail_if_success split))
    | split)

end Sys2Proof.Machine
end

