-- ==== Sys2Proof/Laws/FitCamera.lean ====
section
/-! SUPPORT. What each definition of Machine/Camera.lean touches, and that it keeps the invariant: one lemma each. -/

set_option Elab.async false
set_option linter.all false

namespace Sys2Proof.Machine

theorem configure_fit {L : Nat} {s0 : State} {c : Nat} {g : CamCfg} {s : State} (hL : In 0x820E02 L) (h0 : Fit L s0 s) :
    Fit L s0 (configure c g s) := by
  unfold configure
  repeat' (first
    | with_reducible assumption
    | intro _
    | (extract_lets +onlyGivenNames x; have y := x; first | (guard_hyp y : State; clear y; refine Fit.seq L s0 x ?_ ?_; rotate_left; intro hx; clear_value x; rotate_left; dsimp -zeta only [x]; clear x) | (clear y; clear_value x))
    | with_reducible apply move_fit (In.trans (by decide) hL)
    | with_reducible apply onPort_fit (In.trans (by decide) hL)
    | with_reducible apply portDown_fit (In.trans (by decide) hL)
    | (with_reducible apply Fit.ite <;> intro _)
    | split)

theorem rowCamCfgPort_fit {L : Nat} {h : Hdr} {p : CamPortP} (hL : In 0x820E02 L) :
    RowFit L (rowCamCfgPort h p) := by
  refine ⟨fun s0 s h0 => ?_, fun s0 s h0 => ?_⟩ <;> unfold rowCamCfgPort <;> try dsimp -zeta only [id]
  repeat' (first
    | with_reducible assumption
    | intro _
    | with_reducible apply finish_fit (In.trans (by decide) hL)
    | with_reducible apply configure_fit (In.trans (by decide) hL)
    | (dsimp -zeta only [id])
    | (with_reducible apply Fit.of_snd; case e => with_reducible assumption)
    | (with_reducible apply Fit.of_fst; case e => with_reducible assumption))

theorem execCamCfgPort_fit {L : Nat} {s0 : State} {h : Hdr} {p : CamPortP} {s : State} (hL : In 0x4820E02 L) (h0 : Fit L s0 s) :
    ∀ post, execCamCfgPort h p s = .next post → Fit L s0 post := by
  unfold execCamCfgPort
  refine ok_fit ?_
  repeat' (first
    | with_reducible assumption
    | with_reducible apply command_fit (In.trans (by decide) hL)
    | with_reducible apply rowCamCfgPort_fit (In.trans (by decide) hL))

theorem rowCamCfgOff_fit {L : Nat} {h : Hdr} {p : CamOffP} (hL : In 0x820E02 L) :
    RowFit L (rowCamCfgOff h p) := by
  refine ⟨fun s0 s h0 => ?_, fun s0 s h0 => ?_⟩ <;> unfold rowCamCfgOff <;> try dsimp -zeta only [id]
  repeat' (first
    | with_reducible assumption
    | intro _
    | (extract_lets +onlyGivenNames x; have y := x; first | (guard_hyp y : State; clear y; refine Fit.seq L s0 x ?_ ?_; rotate_left; intro hx; clear_value x; rotate_left; dsimp -zeta only [x]; clear x) | (clear y; clear_value x))
    | with_reducible apply finish_fit (In.trans (by decide) hL)
    | with_reducible apply onPort_fit (In.trans (by decide) hL)
    | with_reducible apply settlePort_fit (In.trans (by decide) hL)
    | with_reducible apply portDown_fit (In.trans (by decide) hL)
    | (with_reducible apply Fit.ite <;> intro _)
    | (dsimp -zeta only [id])
    | (with_reducible apply Fit.of_snd; case e => with_reducible assumption)
    | (with_reducible apply Fit.of_fst; case e => with_reducible assumption)
    | split)

theorem execCamCfgOff_fit {L : Nat} {s0 : State} {h : Hdr} {p : CamOffP} {s : State} (hL : In 0x4820E02 L) (h0 : Fit L s0 s) :
    ∀ post, execCamCfgOff h p s = .next post → Fit L s0 post := by
  unfold execCamCfgOff
  refine ok_fit ?_
  repeat' (first
    | with_reducible assumption
    | with_reducible apply command_fit (In.trans (by decide) hL)
    | with_reducible apply rowCamCfgOff_fit (In.trans (by decide) hL))

theorem startI2c_fit {L : Nat} {s0 : State} {c : Nat} {s : State} (hL : In 0x402 L) (h0 : Fit L s0 s) :
    Fit L s0 (startI2c c s) := by
  unfold startI2c
  repeat' (first
    | with_reducible assumption
    | (extract_lets +onlyGivenNames x; have y := x; first | (guard_hyp y : State; clear y; refine Fit.seq L s0 x ?_ ?_; rotate_left; intro hx; clear_value x; rotate_left; dsimp -zeta only [x]; clear x) | (clear y; clear_value x))
    | with_reducible apply emit_fit (In.trans (by decide) hL)
    | split)

theorem rowCamCfgI2c_fit {L : Nat} {h : Hdr} {p : CamI2cP} (hL : In 0x820E02 L) :
    RowFit L (rowCamCfgI2c h p) := by
  refine ⟨fun s0 s h0 => ?_, fun s0 s h0 => ?_⟩ <;> unfold rowCamCfgI2c <;> try dsimp -zeta only [id]
  repeat' (first
    | with_reducible assumption
    | intro _
    | (extract_lets +onlyGivenNames x; have y := x; first | (guard_hyp y : State; clear y; refine Fit.seq L s0 x ?_ ?_; rotate_left; intro hx; clear_value x; rotate_left; dsimp -zeta only [x]; clear x) | (clear y; clear_value x))
    | with_reducible apply accepted_fit (In.trans (by decide) hL)
    | with_reducible apply onPort_fit (In.trans (by decide) hL)
    | with_reducible apply startI2c_fit (In.trans (by decide) hL)
    | (with_reducible apply Fit.ite <;> intro _)
    | (dsimp -zeta only [id])
    | (with_reducible apply Fit.of_snd; case e => with_reducible assumption)
    | (with_reducible apply Fit.of_fst; case e => with_reducible assumption)
    | split)

theorem execCamCfgI2c_fit {L : Nat} {s0 : State} {h : Hdr} {p : CamI2cP} {s : State} (hL : In 0x4820E02 L) (h0 : Fit L s0 s) :
    ∀ post, execCamCfgI2c h p s = .next post → Fit L s0 post := by
  unfold execCamCfgI2c
  refine ok_fit ?_
  repeat' (first
    | with_reducible assumption
    | with_reducible apply command_fit (In.trans (by decide) hL)
    | with_reducible apply rowCamCfgI2c_fit (In.trans (by decide) hL))

theorem execCamI2cTransferDone_fit {L : Nat} {s0 : State} {port : Fin 16} {e : I2cEnd} {s : State} (hL : In 0x820E02 L) (h0 : Fit L s0 s) :
    ∀ post, execCamI2cTransferDone port e s = .next post → Fit L s0 post := by
  unfold execCamI2cTransferDone
  refine ok_fit ?_
  repeat' (first
    | with_reducible assumption
    | intro _
    | (extract_lets +onlyGivenNames x; have y := x; first | (guard_hyp y : State; clear y; refine Fit.seq L s0 x ?_ ?_; rotate_left; intro hx; clear_value x; rotate_left; dsimp -zeta only [x]; clear x) | (clear y; clear_value x))
    | with_reducible apply raise_fit (In.trans (by decide) hL)
    | with_reducible apply finish_fit (In.trans (by decide) hL)
    | with_reducible apply onPort_fit (In.trans (by decide) hL)
    | with_reducible apply startI2c_fit (In.trans (by decide) hL)
    | split)

theorem rowCamCfgMap_fit {L : Nat} {h : Hdr} {p : CamMapP} (hL : In 0x820E02 L) :
    RowFit L (rowCamCfgMap h p) := by
  refine ⟨fun s0 s h0 => ?_, fun s0 s h0 => ?_⟩ <;> unfold rowCamCfgMap <;> try dsimp -zeta only [id]
  repeat' (first
    | with_reducible assumption
    | intro _
    | (extract_lets +onlyGivenNames x; have y := x; first | (guard_hyp y : State; clear y; refine Fit.seq L s0 x ?_ ?_; rotate_left; intro hx; clear_value x; rotate_left; dsimp -zeta only [x]; clear x) | (clear y; clear_value x))
    | with_reducible apply finish_fit (In.trans (by decide) hL)
    | with_reducible apply onPort_fit (In.trans (by decide) hL)
    | (dsimp -zeta only [id])
    | (with_reducible apply Fit.of_snd; case e => with_reducible assumption)
    | (with_reducible apply Fit.of_fst; case e => with_reducible assumption))

theorem execCamCfgMap_fit {L : Nat} {s0 : State} {h : Hdr} {p : CamMapP} {s : State} (hL : In 0x4820E02 L) (h0 : Fit L s0 s) :
    ∀ post, execCamCfgMap h p s = .next post → Fit L s0 post := by
  unfold execCamCfgMap
  refine ok_fit ?_
  repeat' (first
    | with_reducible assumption
    | with_reducible apply command_fit (In.trans (by decide) hL)
    | with_reducible apply rowCamCfgMap_fit (In.trans (by decide) hL))

theorem rowCamTriggerCfg_fit {L : Nat} {h : Hdr} {p : CamTrigP} (hL : In 0x820E02 L) :
    RowFit L (rowCamTriggerCfg h p) := by
  refine ⟨fun s0 s h0 => ?_, fun s0 s h0 => ?_⟩ <;> unfold rowCamTriggerCfg <;> try dsimp -zeta only [id]
  repeat' (first
    | with_reducible assumption
    | intro _
    | (extract_lets +onlyGivenNames x; have y := x; first | (guard_hyp y : State; clear y; refine Fit.seq L s0 x ?_ ?_; rotate_left; intro hx; clear_value x; rotate_left; dsimp -zeta only [x]; clear x) | (clear y; clear_value x))
    | with_reducible apply finish_fit (In.trans (by decide) hL)
    | with_reducible apply onCam_fit (In.trans (by decide) hL)
    | (dsimp -zeta only [id])
    | (with_reducible apply Fit.of_snd; case e => with_reducible assumption)
    | (with_reducible apply Fit.of_fst; case e => with_reducible assumption))

theorem execCamTriggerCfg_fit {L : Nat} {s0 : State} {h : Hdr} {p : CamTrigP} {s : State} (hL : In 0x4820E02 L) (h0 : Fit L s0 s) :
    ∀ post, execCamTriggerCfg h p s = .next post → Fit L s0 post := by
  unfold execCamTriggerCfg
  refine ok_fit ?_
  repeat' (first
    | with_reducible assumption
    | with_reducible apply command_fit (In.trans (by decide) hL)
    | with_reducible apply rowCamTriggerCfg_fit (In.trans (by decide) hL))

theorem rowCamStatus_fit {L : Nat} {h : Hdr} {p : CamStatusP} (hL : In 0x800E02 L) :
    RowFit L (rowCamStatus h p) := by
  refine ⟨fun s0 s h0 => ?_, fun s0 s h0 => ?_⟩ <;> unfold rowCamStatus <;> try dsimp -zeta only [id]
  repeat' (first
    | with_reducible assumption
    | intro _
    | (extract_lets +onlyGivenNames x; have y := x; first | (guard_hyp y : State; clear y; refine Fit.seq L s0 x ?_ ?_; rotate_left; intro hx; clear_value x; rotate_left; dsimp -zeta only [x]; clear x) | (clear y; clear_value x))
    | with_reducible apply finish_fit (In.trans (by decide) hL)
    | (dsimp -zeta only [id])
    | (with_reducible apply Fit.of_snd; case e => with_reducible assumption)
    | (with_reducible apply Fit.of_fst; case e => with_reducible assumption))

theorem execCamStatus_fit {L : Nat} {s0 : State} {h : Hdr} {p : CamStatusP} {s : State} (hL : In 0x4800E02 L) (h0 : Fit L s0 s) :
    ∀ post, execCamStatus h p s = .next post → Fit L s0 post := by
  unfold execCamStatus
  refine ok_fit ?_
  repeat' (first
    | with_reducible assumption
    | with_reducible apply command_fit (In.trans (by decide) hL)
    | with_reducible apply rowCamStatus_fit (In.trans (by decide) hL))

theorem execCamLinkUp_fit {L : Nat} {s0 : State} {port : Fin 16} {gear : Fin 5} {latency : Fin 10001} {s : State} (hL : In 0x820E02 L) (h0 : Fit L s0 s) :
    ∀ post, execCamLinkUp port gear latency s = .next post → Fit L s0 post := by
  unfold execCamLinkUp
  refine ok_fit ?_
  repeat' (first
    | with_reducible assumption
    | intro _
    | (extract_lets +onlyGivenNames x; have y := x; first | (guard_hyp y : State; clear y; refine Fit.seq L s0 x ?_ ?_; rotate_left; intro hx; clear_value x; rotate_left; dsimp -zeta only [x]; clear x) | (clear y; clear_value x))
    | with_reducible apply raise_fit (In.trans (by decide) hL)
    | with_reducible apply raiseIf_fit (In.trans (by decide) hL)
    | with_reducible apply auditAll_fit (In.trans (by decide) hL)
    | with_reducible apply onPort_fit (In.trans (by decide) hL)
    | with_reducible apply endRecov_fit (In.trans (by decide) hL)
    | (with_reducible apply Fit.ite <;> intro _)
    | split)

theorem linkLost_fit {L : Nat} {s0 : State} {c : Nat} {s : State} (hL : In 0xFFFFFFE L) (h0 : Fit L s0 s) :
    Fit L s0 (linkLost c s) := by
  unfold linkLost
  repeat' (first
    | with_reducible assumption
    | intro _
    | (extract_lets +onlyGivenNames x; have y := x; first | (guard_hyp y : State; clear y; refine Fit.seq L s0 x ?_ ?_; rotate_left; intro hx; clear_value x; rotate_left; dsimp -zeta only [x]; clear x) | (guard_hyp y : EvtSt; clear y; dsimp -zeta only [x]; clear x) | (clear y; clear_value x))
    | with_reducible apply fire_fit (In.trans (by decide) hL)
    | with_reducible apply auditAll_fit (In.trans (by decide) hL)
    | with_reducible apply onPort_fit (In.trans (by decide) hL)
    | with_reducible apply portDown_fit (In.trans (by decide) hL)
    | with_reducible apply decideRecov_fit (In.trans (by decide) hL)
    | with_reducible apply setWindow_fit (In.trans (by decide) hL)
    | with_reducible apply takeOwn_fit (In.trans (by decide) hL)
    | (with_reducible apply Fit.ite <;> intro _)
    | split)

theorem execCamLinkDown_fit {L : Nat} {s0 : State} {port : Fin 16} {s : State} (hL : In 0xFFFFFFE L) (h0 : Fit L s0 s) :
    ∀ post, execCamLinkDown port s = .next post → Fit L s0 post := by
  unfold execCamLinkDown
  refine ok_fit ?_
  repeat' (first
    | with_reducible assumption
    | with_reducible apply linkLost_fit (In.trans (by decide) hL)
    | (with_reducible apply Fit.ite <;> intro _))

theorem execCamTrigger_fit {L : Nat} {s0 : State} {port : Fin 16} {s : State} (hL : In 0x20422 L) (h0 : Fit L s0 s) :
    ∀ post, execCamTrigger port s = .next post → Fit L s0 post := by
  unfold execCamTrigger
  refine ok_fit ?_
  repeat' (first
    | with_reducible assumption
    | intro _
    | (extract_lets +onlyGivenNames x; have y := x; first | (guard_hyp y : State; clear y; refine Fit.seq L s0 x ?_ ?_; rotate_left; intro hx; clear_value x; rotate_left; dsimp -zeta only [x]; clear x) | (clear y; clear_value x))
    | with_reducible apply emit_fit (In.trans (by decide) hL)
    | with_reducible apply advanceMer_fit (In.trans (by decide) hL)
    | with_reducible apply onCam_fit (In.trans (by decide) hL)
    | (with_reducible apply Fit.ite <;> intro _)
    | split)

theorem badImage_fit {L : Nat} {s0 : State} {c k src : Nat} {s : State} (hL : In 0x820C02 L) (h0 : Fit L s0 s) :
    Fit L s0 (badImage c k src s) := by
  unfold badImage
  repeat' (first
    | with_reducible assumption
    | intro _
    | (extract_lets +onlyGivenNames x; have y := x; first | (guard_hyp y : State; clear y; refine Fit.seq L s0 x ?_ ?_; rotate_left; intro hx; clear_value x; rotate_left; dsimp -zeta only [x]; clear x) | (clear y; clear_value x))
    | with_reducible apply raise_fit (In.trans (by decide) hL)
    | with_reducible apply onCam_fit (In.trans (by decide) hL)
    | with_reducible apply onPort_fit (In.trans (by decide) hL)
    | (with_reducible apply Fit.ite <;> intro _)
    | split)

theorem storeImage_fit {L : Nat} {s0 : State} {c k : Nat} {g : CamCfg} {lines : List (List Byte)} {s : State} (hL : In 0x21200 L) (h0 : Fit L s0 s) :
    Fit L s0 (storeImage c k g lines s) := by
  unfold storeImage
  repeat' (first
    | with_reducible assumption
    | intro _
    | (extract_lets +onlyGivenNames x; have y := x; first | (guard_hyp y : State; clear y; refine Fit.seq L s0 x ?_ ?_; rotate_left; intro hx; clear_value x; rotate_left; dsimp -zeta only [x]; clear x) | (clear y; clear_value x))
    | with_reducible apply devWrite_fit (In.trans (by decide) hL)
    | with_reducible apply move_fit (In.trans (by decide) hL)
    | with_reducible apply onPort_fit (In.trans (by decide) hL)
    | (with_reducible apply Fit.foldl)
    | split)

theorem judgeImage_fit {L : Nat} {s0 : State} {c k : Nat} {g : CamCfg} {f : CsiFrame} {s : State} (hL : In 0x821E02 L) (h0 : Fit L s0 s) :
    Fit L s0 (judgeImage c k g f s) := by
  unfold judgeImage
  repeat' (first
    | with_reducible assumption
    | intro _
    | (extract_lets +onlyGivenNames x; have y := x; first | (guard_hyp y : State; clear y; refine Fit.seq L s0 x ?_ ?_; rotate_left; intro hx; clear_value x; rotate_left; dsimp -zeta only [x]; clear x) | (clear y; clear_value x))
    | with_reducible apply raise_fit (In.trans (by decide) hL)
    | with_reducible apply onPort_fit (In.trans (by decide) hL)
    | with_reducible apply badImage_fit (In.trans (by decide) hL)
    | with_reducible apply storeImage_fit (In.trans (by decide) hL)
    | (with_reducible apply Fit.ite <;> intro _)
    | split)

theorem execCsi2Frame_fit {L : Nat} {s0 : State} {port : Fin 16} {f : CsiFrame} {s : State} (hL : In 0x821E22 L) (h0 : Fit L s0 s) :
    ∀ post, execCsi2Frame port f s = .next post → Fit L s0 post := by
  unfold execCsi2Frame
  refine ok_fit ?_
  repeat' (first
    | with_reducible assumption
    | intro _
    | (extract_lets +onlyGivenNames x; have y := x; first | (guard_hyp y : State; clear y; refine Fit.seq L s0 x ?_ ?_; rotate_left; intro hx; clear_value x; rotate_left; dsimp -zeta only [x]; clear x) | (clear y; clear_value x))
    | with_reducible apply advanceMer_fit (In.trans (by decide) hL)
    | with_reducible apply onPort_fit (In.trans (by decide) hL)
    | with_reducible apply judgeImage_fit (In.trans (by decide) hL)
    | (with_reducible apply Fit.ite <;> intro _)
    | split)

theorem execCamWindowEnd_fit {L : Nat} {s0 : State} {outstanding : U16} {s : State} (hL : In 0x820C22 L) (h0 : Fit L s0 s) :
    ∀ post, execCamWindowEnd outstanding s = .next post → Fit L s0 post := by
  unfold execCamWindowEnd
  refine ok_fit ?_
  repeat' (first
    | with_reducible assumption
    | intro _
    | (extract_lets +onlyGivenNames x; have y := x; first | (guard_hyp y : State; clear y; refine Fit.seq L s0 x ?_ ?_; rotate_left; intro hx; clear_value x; rotate_left; dsimp -zeta only [x]; clear x) | (clear y; clear_value x))
    | with_reducible apply advanceMer_fit (In.trans (by decide) hL)
    | with_reducible apply onCam_fit (In.trans (by decide) hL)
    | with_reducible apply badImage_fit (In.trans (by decide) hL)
    | (with_reducible apply Fit.ite <;> intro _)
    | (with_reducible apply Fit.foldl)
    | split)

theorem presBounce_fit {L : Nat} {s0 : State} {c : Nat} {s : State} (hL : In 0x820C02 L) (h0 : Fit L s0 s) :
    Fit L s0 (presBounce c s) := by
  unfold presBounce
  repeat' (first
    | with_reducible assumption
    | intro _
    | (extract_lets +onlyGivenNames x; have y := x; first | (guard_hyp y : State; clear y; refine Fit.seq L s0 x ?_ ?_; rotate_left; intro hx; clear_value x; rotate_left; dsimp -zeta only [x]; clear x) | (clear y; clear_value x))
    | with_reducible apply raise_fit (In.trans (by decide) hL)
    | with_reducible apply onPort_fit (In.trans (by decide) hL)
    | (with_reducible apply Fit.ite <;> intro _)
    | split)

theorem acceptCam_fit {L : Nat} {s0 : State} {c : Nat} {level : Bool} {s : State} (hL : In 0xFFFFFFE L) (h0 : Fit L s0 s) :
    Fit L s0 (acceptCam c level s) := by
  unfold acceptCam
  repeat' (first
    | with_reducible assumption
    | intro _
    | (extract_lets +onlyGivenNames x; have y := x; first | (guard_hyp y : State; clear y; refine Fit.seq L s0 x ?_ ?_; rotate_left; intro hx; clear_value x; rotate_left; dsimp -zeta only [x]; clear x) | (clear y; clear_value x))
    | with_reducible apply onPort_fit (In.trans (by decide) hL)
    | with_reducible apply linkLost_fit (In.trans (by decide) hL)
    | (with_reducible apply Fit.ite <;> intro _)
    | split)

theorem execCamPresInput_fit {L : Nat} {s0 : State} {port : Fin 16} {level : Bool} {stable : Nat} {s : State} (hL : In 0xFFFFFFE L) (h0 : Fit L s0 s) :
    ∀ post, execCamPresInput port level stable s = .next post → Fit L s0 post := by
  unfold execCamPresInput
  refine ok_fit ?_
  repeat' (first
    | with_reducible assumption
    | (extract_lets +onlyGivenNames x; have y := x; first | (guard_hyp y : State; clear y; refine Fit.seq L s0 x ?_ ?_; rotate_left; intro hx; clear_value x; rotate_left; dsimp -zeta only [x]; clear x) | (clear y; clear_value x))
    | with_reducible apply advanceRef_fit (In.trans (by decide) hL)
    | with_reducible apply presBounce_fit (In.trans (by decide) hL)
    | with_reducible apply acceptCam_fit (In.trans (by decide) hL)
    | (with_reducible apply Fit.ite <;> intro _)
    | split)

end Sys2Proof.Machine
end

