-- ==== Sys2Proof/Laws/FitDmcErr.lean ====
section
/-! SUPPORT. What each definition of Machine/DmcErr.lean touches, and that it keeps the invariant: one lemma each. -/

set_option Elab.async false
set_option linter.all false

namespace Sys2Proof.Machine

theorem fencePc_fit {L : Nat} {s0 : State} {pc : Nat} {s : State} (hL : In 0xFFFFFFE L) (h0 : Fit L s0 s) :
    Fit L s0 (fencePc pc s) := by
  unfold fencePc
  repeat' (first
    | with_reducible assumption
    | with_reducible apply raise_fit (In.trans (by decide) hL)
    | with_reducible apply decideFence_fit (In.trans (by decide) hL)
    | with_reducible apply decideRecov_fit (In.trans (by decide) hL)
    | (with_reducible apply Fit.ite <;> intro _))

theorem errorActs_fit {L : Nat} {s0 : State} {pc : Nat} {ue : Bool} {s : State} (hL : In 0xFFFFFFE L) (h0 : Fit L s0 s) :
    Fit L s0 (errorActs pc ue s) := by
  unfold errorActs
  repeat' (first
    | with_reducible assumption
    | (extract_lets +onlyGivenNames x; have y := x; first | (guard_hyp y : State; clear y; refine Fit.seq L s0 x ?_ ?_; rotate_left; intro hx; clear_value x; rotate_left; dsimp -zeta only [x]; clear x) | (clear y; clear_value x))
    | with_reducible apply startRetrain_fit (In.trans (by decide) hL)
    | with_reducible apply fencePc_fit (In.trans (by decide) hL)
    | (with_reducible apply Fit.ite <;> intro _))

theorem memError_fit {L : Nat} {s0 : State} {e : MemErr} {s : State} (hL : In 0xFFFFFFE L) (h0 : Fit L s0 s) :
    Fit L s0 (memError e s) := by
  unfold memError
  repeat' (first
    | with_reducible assumption
    | intro _
    | (extract_lets +onlyGivenNames x; have y := x; first | (guard_hyp y : State; clear y; refine Fit.seq L s0 x ?_ ?_; rotate_left; intro hx; clear_value x; rotate_left; dsimp -zeta only [x]; clear x) | (clear y; clear_value x))
    | with_reducible apply raise_fit (In.trans (by decide) hL)
    | with_reducible apply onPc_fit (In.trans (by decide) hL)
    | with_reducible apply errorActs_fit (In.trans (by decide) hL)
    | (with_reducible apply Fit.ite <;> intro _)
    | (with_reducible apply Fit.upd_dmc (In.trans (by decide) hL); first | (with_reducible apply Fit.ite <;> intro _) | (fail_if_success split))
    | split)

theorem memErrors_fit {L : Nat} {s0 : State} {es : List MemErr} {s : State} (hL : In 0xFFFFFFE L) (h0 : Fit L s0 s) :
    Fit L s0 (memErrors es s) := by
  unfold memErrors
  repeat' (first
    | with_reducible assumption
    | intro _
    | with_reducible apply memError_fit (In.trans (by decide) hL)
    | (with_reducible apply Fit.ite <;> intro _)
    | (with_reducible apply Fit.foldl)
    | split)

end Sys2Proof.Machine
end

