-- ==== Sys2Proof/Laws/FitCodec.lean ====
section
/-! SUPPORT. What each definition of Machine/Codec.lean touches, and that it keeps the invariant: one lemma each. -/

set_option Elab.async false
set_option linter.all false

namespace Sys2Proof.Machine

theorem holdSeg_fit {L : Nat} {s0 : State} {i : Nat} {g : CSeg} {s : State} (hL : In 0x200 L) (h0 : Fit L s0 s) :
    Fit L s0 (holdSeg i g s) := by
  unfold holdSeg
  repeat' (first
    | with_reducible assumption
    | (extract_lets +onlyGivenNames x; have y := x; first | (guard_hyp y : State; clear y; refine Fit.seq L s0 x ?_ ?_; rotate_left; intro hx; clear_value x; rotate_left; dsimp -zeta only [x]; clear x) | (clear y; clear_value x))
    | with_reducible apply hold_fit (In.trans (by decide) hL)
    | split)

theorem runCodecJob_fit {L : Nat} {s0 : State} {h : Hdr} {decomp : Bool} {p : CodecJobP} {s : State} (hL : In 0x808E02 L) (h0 : Fit L s0 s) :
    Fit L s0 (runCodecJob h decomp p s) := by
  unfold runCodecJob
  repeat' (first
    | with_reducible assumption
    | intro _
    | (extract_lets +onlyGivenNames x; have y := x; first | (guard_hyp y : State; clear y; refine Fit.seq L s0 x ?_ ?_; rotate_left; intro hx; clear_value x; rotate_left; dsimp -zeta only [x]; clear x) | (clear y; clear_value x))
    | with_reducible apply move_fit (In.trans (by decide) hL)
    | with_reducible apply accepted_fit (In.trans (by decide) hL)
    | with_reducible apply onCdc_fit (In.trans (by decide) hL)
    | with_reducible apply holdSeg_fit (In.trans (by decide) hL)
    | (with_reducible apply Fit.foldl))

theorem rowCodecJob_fit {L : Nat} {i : Instr} {h : Hdr} {decomp : Bool} {p : CodecJobP} (hL : In 0x808E02 L) :
    RowFit L (rowCodecJob i h decomp p) := by
  refine ⟨fun s0 s h0 => ?_, fun s0 s h0 => ?_⟩ <;> unfold rowCodecJob <;> try dsimp -zeta only [id]
  repeat' (first
    | with_reducible assumption
    | with_reducible apply runCodecJob_fit (In.trans (by decide) hL)
    | (dsimp -zeta only [id])
    | (with_reducible apply Fit.of_snd; case e => with_reducible assumption)
    | (with_reducible apply Fit.of_fst; case e => with_reducible assumption))

theorem rowCodecJobCompress_fit {L : Nat} {h : Hdr} {p : CodecJobP} (hL : In 0x808E02 L) :
    RowFit L (rowCodecJobCompress h p) := by
  unfold rowCodecJobCompress; exact rowCodecJob_fit (In.trans (by decide) hL)

theorem execCodecJobCompress_fit {L : Nat} {s0 : State} {h : Hdr} {p : CodecJobP} {s : State} (hL : In 0x4808E02 L) (h0 : Fit L s0 s) :
    ∀ post, execCodecJobCompress h p s = .next post → Fit L s0 post := by
  unfold execCodecJobCompress
  refine ok_fit ?_
  repeat' (first
    | with_reducible assumption
    | with_reducible apply command_fit (In.trans (by decide) hL)
    | with_reducible apply rowCodecJobCompress_fit (In.trans (by decide) hL))

theorem rowCodecJobDecompress_fit {L : Nat} {h : Hdr} {p : CodecJobP} (hL : In 0x808E02 L) :
    RowFit L (rowCodecJobDecompress h p) := by
  unfold rowCodecJobDecompress; exact rowCodecJob_fit (In.trans (by decide) hL)

theorem execCodecJobDecompress_fit {L : Nat} {s0 : State} {h : Hdr} {p : CodecJobP} {s : State} (hL : In 0x4808E02 L) (h0 : Fit L s0 s) :
    ∀ post, execCodecJobDecompress h p s = .next post → Fit L s0 post := by
  unfold execCodecJobDecompress
  refine ok_fit ?_
  repeat' (first
    | with_reducible assumption
    | with_reducible apply command_fit (In.trans (by decide) hL)
    | with_reducible apply rowCodecJobDecompress_fit (In.trans (by decide) hL))

theorem runCodecResume_fit {L : Nat} {s0 : State} {h : Hdr} {p : CodecResumeP} {s : State} (hL : In 0x808E02 L) (h0 : Fit L s0 s) :
    Fit L s0 (runCodecResume h p s) := by
  unfold runCodecResume
  repeat' (first
    | with_reducible assumption
    | intro _
    | (extract_lets +onlyGivenNames x; have y := x; first | (guard_hyp y : State; clear y; refine Fit.seq L s0 x ?_ ?_; rotate_left; intro hx; clear_value x; rotate_left; dsimp -zeta only [x]; clear x) | (clear y; clear_value x))
    | with_reducible apply accepted_fit (In.trans (by decide) hL)
    | with_reducible apply onJob_fit (In.trans (by decide) hL)
    | with_reducible apply holdSeg_fit (In.trans (by decide) hL)
    | (with_reducible apply Fit.ite <;> intro _)
    | (with_reducible apply Fit.foldl)
    | split)

theorem rowCodecResume_fit {L : Nat} {h : Hdr} {p : CodecResumeP} (hL : In 0x808E02 L) :
    RowFit L (rowCodecResume h p) := by
  refine ⟨fun s0 s h0 => ?_, fun s0 s h0 => ?_⟩ <;> unfold rowCodecResume <;> try dsimp -zeta only [id]
  repeat' (first
    | with_reducible assumption
    | with_reducible apply runCodecResume_fit (In.trans (by decide) hL)
    | (dsimp -zeta only [id])
    | (with_reducible apply Fit.of_snd; case e => with_reducible assumption)
    | (with_reducible apply Fit.of_fst; case e => with_reducible assumption))

theorem execCodecResume_fit {L : Nat} {s0 : State} {h : Hdr} {p : CodecResumeP} {s : State} (hL : In 0x4808E02 L) (h0 : Fit L s0 s) :
    ∀ post, execCodecResume h p s = .next post → Fit L s0 post := by
  unfold execCodecResume
  refine ok_fit ?_
  repeat' (first
    | with_reducible assumption
    | with_reducible apply command_fit (In.trans (by decide) hL)
    | with_reducible apply rowCodecResume_fit (In.trans (by decide) hL))

theorem runCodecAbort_fit {L : Nat} {s0 : State} {h : Hdr} {p : CodecAbortP} {s : State} (hL : In 0x808E02 L) (h0 : Fit L s0 s) :
    Fit L s0 (runCodecAbort h p s) := by
  unfold runCodecAbort
  repeat' (first
    | with_reducible assumption
    | (extract_lets +onlyGivenNames x; have y := x; first | (guard_hyp y : State; clear y; refine Fit.seq L s0 x ?_ ?_; rotate_left; intro hx; clear_value x; rotate_left; dsimp -zeta only [x]; clear x) | (clear y; clear_value x))
    | with_reducible apply finish_fit (In.trans (by decide) hL)
    | with_reducible apply freeJob_fit (In.trans (by decide) hL)
    | with_reducible apply jobStops_fit (In.trans (by decide) hL)
    | (with_reducible apply Fit.ite <;> intro _)
    | split)

theorem rowCodecAbort_fit {L : Nat} {h : Hdr} {p : CodecAbortP} (hL : In 0x808E02 L) :
    RowFit L (rowCodecAbort h p) := by
  refine ⟨fun s0 s h0 => ?_, fun s0 s h0 => ?_⟩ <;> unfold rowCodecAbort <;> try dsimp -zeta only [id]
  repeat' (first
    | with_reducible assumption
    | intro _
    | with_reducible apply runCodecAbort_fit (In.trans (by decide) hL)
    | (dsimp -zeta only [id])
    | (with_reducible apply Fit.of_snd; case e => with_reducible assumption)
    | (with_reducible apply Fit.of_fst; case e => with_reducible assumption))

theorem execCodecAbort_fit {L : Nat} {s0 : State} {h : Hdr} {p : CodecAbortP} {s : State} (hL : In 0x4808E02 L) (h0 : Fit L s0 s) :
    ∀ post, execCodecAbort h p s = .next post → Fit L s0 post := by
  unfold execCodecAbort
  refine ok_fit ?_
  repeat' (first
    | with_reducible assumption
    | with_reducible apply command_fit (In.trans (by decide) hL)
    | with_reducible apply rowCodecAbort_fit (In.trans (by decide) hL))

theorem assign_fit {L : Nat} {s0 : State} {e : Nat} {w : EngWork} {s : State} (hL : In 0xC000 L) (h0 : Fit L s0 s) :
    Fit L s0 (assign e w s) := by
  unfold assign
  repeat' (first
    | with_reducible assumption
    | intro _
    | (extract_lets +onlyGivenNames x; have y := x; first | (guard_hyp y : State; clear y; refine Fit.seq L s0 x ?_ ?_; rotate_left; intro hx; clear_value x; rotate_left; dsimp -zeta only [x]; clear x) | (clear y; clear_value x))
    | with_reducible apply onSess_fit (In.trans (by decide) hL)
    | with_reducible apply onCdc_fit (In.trans (by decide) hL)
    | with_reducible apply onJob_fit (In.trans (by decide) hL)
    | split)

theorem execCirrusBlockStart_fit {L : Nat} {s0 : State} {engine : Fin 16} {s : State} (hL : In 0xC000 L) (h0 : Fit L s0 s) :
    ∀ post, execCirrusBlockStart engine s = .next post → Fit L s0 post := by
  unfold execCirrusBlockStart
  refine ok_fit ?_
  repeat' (first
    | with_reducible assumption
    | intro _
    | (extract_lets +onlyGivenNames x; have y := x; first | (guard_hyp y : State; clear y; refine Fit.seq L s0 x ?_ ?_; rotate_left; intro hx; clear_value x; rotate_left; dsimp -zeta only [x]; clear x) | (clear y; clear_value x))
    | with_reducible apply assign_fit (In.trans (by decide) hL)
    | (with_reducible apply Fit.ite <;> intro _)
    | split)

theorem tileFails_fit {L : Nat} {s0 : State} {i : Nat} {c : Decode} {t : TileRec} {code : Option Nat} {s : State} (hL : In 0x80CC02 L) (h0 : Fit L s0 s) :
    Fit L s0 (tileFails i c t code s) := by
  unfold tileFails
  repeat' (first
    | with_reducible assumption
    | intro _
    | (extract_lets +onlyGivenNames x; have y := x; first | (guard_hyp y : State; clear y; refine Fit.seq L s0 x ?_ ?_; rotate_left; intro hx; clear_value x; rotate_left; dsimp -zeta only [x]; clear x) | (clear y; clear_value x))
    | with_reducible apply raise_fit (In.trans (by decide) hL)
    | with_reducible apply onStat_fit (In.trans (by decide) hL)
    | with_reducible apply setOcc_fit (In.trans (by decide) hL)
    | with_reducible apply dataError_fit (In.trans (by decide) hL)
    | split)

theorem tileDone_fit {L : Nat} {s0 : State} {e i : Nat} {t : TileRec} {s : State} (hL : In 0x80DC02 L) (h0 : Fit L s0 s) :
    Fit L s0 (tileDone e i t s) := by
  unfold tileDone
  repeat' (first
    | with_reducible assumption
    | intro _
    | (extract_lets +onlyGivenNames x; have y := x; first | (guard_hyp y : State; clear y; refine Fit.seq L s0 x ?_ ?_; rotate_left; intro hx; clear_value x; rotate_left; dsimp -zeta only [x]; clear x) | (clear y; clear_value x))
    | with_reducible apply putTile_fit (In.trans (by decide) hL)
    | with_reducible apply onCdc_fit (In.trans (by decide) hL)
    | with_reducible apply countBytes_fit (In.trans (by decide) hL)
    | with_reducible apply tileFails_fit (In.trans (by decide) hL)
    | (with_reducible apply Fit.ite <;> intro _)
    | split)

theorem jobDone_fit {L : Nat} {s0 : State} {i : Nat} {host : List Byte} {s : State} (hL : In 0x809E02 L) (h0 : Fit L s0 s) :
    Fit L s0 (jobDone i host s) := by
  unfold jobDone
  repeat' (first
    | with_reducible assumption
    | intro _
    | (extract_lets +onlyGivenNames x; have y := x; first | (guard_hyp y : State; clear y; refine Fit.seq L s0 x ?_ ?_; rotate_left; intro hx; clear_value x; rotate_left; dsimp -zeta only [x]; clear x) | (clear y; clear_value x))
    | with_reducible apply emit_fit (In.trans (by decide) hL)
    | with_reducible apply compressStep_fit (In.trans (by decide) hL)
    | with_reducible apply decompressStep_fit (In.trans (by decide) hL)
    | (with_reducible apply Fit.ite <;> intro _)
    | (with_reducible apply Fit.foldl)
    | split)

theorem execCirrusBlockDone_fit {L : Nat} {s0 : State} {engine : Fin 16} {host : List Byte} {s : State} (hL : In 0x80DE02 L) (h0 : Fit L s0 s) :
    ∀ post, execCirrusBlockDone engine host s = .next post → Fit L s0 post := by
  unfold execCirrusBlockDone
  refine ok_fit ?_
  repeat' (first
    | with_reducible assumption
    | (extract_lets +onlyGivenNames x; have y := x; first | (guard_hyp y : State; clear y; refine Fit.seq L s0 x ?_ ?_; rotate_left; intro hx; clear_value x; rotate_left; dsimp -zeta only [x]; clear x) | (clear y; clear_value x))
    | with_reducible apply tileDone_fit (In.trans (by decide) hL)
    | with_reducible apply jobDone_fit (In.trans (by decide) hL)
    | (with_reducible apply Fit.ite <;> intro _)
    | split)

theorem execCdcHostStarved_fit {L : Nat} {s0 : State} {slot : Fin 16} {s : State} (hL : In 0x808C22 L) (h0 : Fit L s0 s) :
    ∀ post, execCdcHostStarved slot s = .next post → Fit L s0 post := by
  unfold execCdcHostStarved
  refine ok_fit ?_
  repeat' (first
    | with_reducible assumption
    | intro _
    | (extract_lets +onlyGivenNames x; have y := x; first | (guard_hyp y : State; clear y; refine Fit.seq L s0 x ?_ ?_; rotate_left; intro hx; clear_value x; rotate_left; dsimp -zeta only [x]; clear x) | (clear y; clear_value x))
    | with_reducible apply advanceRef_fit (In.trans (by decide) hL)
    | with_reducible apply raise_fit (In.trans (by decide) hL)
    | with_reducible apply onJob_fit (In.trans (by decide) hL)
    | (with_reducible apply Fit.ite <;> intro _)
    | split)

theorem execCdcSuspendLimitExpiry_fit {L : Nat} {s0 : State} {slot : Fin 16} {s : State} (hL : In 0x808E22 L) (h0 : Fit L s0 s) :
    ∀ post, execCdcSuspendLimitExpiry slot s = .next post → Fit L s0 post := by
  unfold execCdcSuspendLimitExpiry
  refine ok_fit ?_
  repeat' (first
    | with_reducible assumption
    | (extract_lets +onlyGivenNames x; have y := x; first | (guard_hyp y : State; clear y; refine Fit.seq L s0 x ?_ ?_; rotate_left; intro hx; clear_value x; rotate_left; dsimp -zeta only [x]; clear x) | (clear y; clear_value x))
    | with_reducible apply advanceRef_fit (In.trans (by decide) hL)
    | with_reducible apply jobLost_fit (In.trans (by decide) hL)
    | (with_reducible apply Fit.ite <;> intro _)
    | split)

theorem execCdcEngineFault_fit {L : Nat} {s0 : State} {engine : Fin 16} {s : State} (hL : In 0xFFFFFFE L) (h0 : Fit L s0 s) :
    ∀ post, execCdcEngineFault engine s = .next post → Fit L s0 post := by
  unfold execCdcEngineFault
  refine ok_fit ?_
  repeat' (first
    | with_reducible assumption
    | with_reducible apply engineFault_fit (In.trans (by decide) hL))

end Sys2Proof.Machine
end

