-- ==== Sys2Proof/Laws/FitThermalOps.lean ====
section
/-! SUPPORT. What each definition of Machine/ThermalOps.lean touches, and that it keeps the invariant: one lemma each. -/

set_option Elab.async false
set_option linter.all false

namespace Sys2Proof.Machine

theorem loseBuffers_fit {L : Nat} {s0 : State} {s : State} (hL : In 0x200 L) (h0 : Fit L s0 s) :
    Fit L s0 (loseBuffers s) := by
  unfold loseBuffers
  repeat' (first
    | with_reducible assumption
    | intro _
    | with_reducible apply nextGen_fit (In.trans (by decide) hL)
    | with_reducible apply dropBuf_fit (In.trans (by decide) hL)
    | (with_reducible apply Fit.ite <;> intro _)
    | (with_reducible apply Fit.foldl)
    | split)

theorem powerLoss_fit {L : Nat} {s0 : State} {src : Nat} {s : State} (hL : In 0xFFFFFFE L) (h0 : Fit L s0 s) :
    Fit L s0 (powerLoss src s) := by
  unfold powerLoss
  repeat' (first
    | with_reducible assumption
    | intro _
    | (extract_lets +onlyGivenNames x; have y := x; first | (guard_hyp y : State; clear y; refine Fit.seq L s0 x ?_ ?_; rotate_left; intro hx; clear_value x; rotate_left; dsimp -zeta only [x]; clear x) | ((first | (guard_hyp y : CmdSt; clear y) | (guard_hyp y : EvtSt; clear y)); dsimp -zeta only [x]; clear x) | (clear y; clear_value x))
    | with_reducible apply raise_fit (In.trans (by decide) hL)
    | with_reducible apply endFieldOpen_fit (In.trans (by decide) hL)
    | with_reducible apply stdCrowbarNow_fit (In.trans (by decide) hL)
    | with_reducible apply recordTime_fit (In.trans (by decide) hL)
    | with_reducible apply dmcReset_fit (In.trans (by decide) hL)
    | with_reducible apply hostDown_fit (In.trans (by decide) hL)
    | with_reducible apply forgetCommands_fit (In.trans (by decide) hL)
    | with_reducible apply mainReset_fit (In.trans (by decide) hL)
    | with_reducible apply emptyPools_fit (In.trans (by decide) hL)
    | with_reducible apply onMode_fit (In.trans (by decide) hL)
    | with_reducible apply loseBuffers_fit (In.trans (by decide) hL)
    | (with_reducible apply Fit.ite <;> intro _)
    | (with_reducible apply Fit.upd_cmd (In.trans (by decide) hL); rotate_left; with_reducible rfl; first | (with_reducible apply Fit.ite <;> intro _) | (fail_if_success split))
    | (with_reducible apply Fit.upd_time_evt_nv_sec (In.trans (by decide) hL); rotate_left; with_reducible rfl; with_reducible rfl; first | (with_reducible apply Fit.ite <;> intro _) | (fail_if_success split))
    | split)

theorem thermalShutdown_fit {L : Nat} {s0 : State} {s : State} (hL : In 0xFFFFFFE L) (h0 : Fit L s0 s) :
    Fit L s0 (thermalShutdown s) := by
  unfold thermalShutdown
  repeat' (first
    | with_reducible assumption
    | intro _
    | (extract_lets +onlyGivenNames x; have y := x; first | (guard_hyp y : State; clear y; refine Fit.seq L s0 x ?_ ?_; rotate_left; intro hx; clear_value x; rotate_left; dsimp -zeta only [x]; clear x) | (clear y; clear_value x))
    | with_reducible apply onMode_fit (In.trans (by decide) hL)
    | with_reducible apply powerLoss_fit (In.trans (by decide) hL))

theorem judgeSensor_fit {L : Nat} {s0 : State} {med : Int} {i : Nat} {s : State} (hL : In 0x800D02 L) (h0 : Fit L s0 s) :
    Fit L s0 (judgeSensor med i s) := by
  unfold judgeSensor
  repeat' (first
    | with_reducible assumption
    | intro _
    | (extract_lets +onlyGivenNames x; have y := x; first | (guard_hyp y : State; clear y; refine Fit.seq L s0 x ?_ ?_; rotate_left; intro hx; clear_value x; rotate_left; dsimp -zeta only [x]; clear x) | (clear y; clear_value x))
    | with_reducible apply raise_fit (In.trans (by decide) hL)
    | with_reducible apply onThm_fit (In.trans (by decide) hL)
    | (with_reducible apply Fit.ite <;> intro _)
    | split)

theorem judgeSensors_fit {L : Nat} {s0 : State} {s : State} (hL : In 0x800D02 L) (h0 : Fit L s0 s) :
    Fit L s0 (judgeSensors s) := by
  unfold judgeSensors
  repeat' (first
    | with_reducible assumption
    | intro _
    | (extract_lets +onlyGivenNames x; have y := x; first | (guard_hyp y : State; clear y; refine Fit.seq L s0 x ?_ ?_; rotate_left; intro hx; clear_value x; rotate_left; dsimp -zeta only [x]; clear x) | (clear y; clear_value x))
    | with_reducible apply onThm_fit (In.trans (by decide) hL)
    | with_reducible apply judgeSensor_fit (In.trans (by decide) hL)
    | (with_reducible apply Fit.foldl))

theorem throttleEvent_fit {L : Nat} {s0 : State} {code : Nat} {v : Int} {s : State} (hL : In 0x800D02 L) (h0 : Fit L s0 s) :
    Fit L s0 (throttleEvent code v s) := by
  unfold throttleEvent
  repeat' (first
    | with_reducible assumption
    | intro _
    | (extract_lets +onlyGivenNames x; have y := x; first | (guard_hyp y : State; clear y; refine Fit.seq L s0 x ?_ ?_; rotate_left; intro hx; clear_value x; rotate_left; dsimp -zeta only [x]; clear x) | (clear y; clear_value x))
    | with_reducible apply raise_fit (In.trans (by decide) hL)
    | with_reducible apply onThm_fit (In.trans (by decide) hL)
    | (with_reducible apply Fit.ite <;> intro _)
    | split)

theorem condActs_fit {L : Nat} {s0 : State} {a : ThmSt} {was : Bool} {s : State} (hL : In 0xFFFFFFE L) (h0 : Fit L s0 s) :
    Fit L s0 (condActs a was s) := by
  unfold condActs
  repeat' (first
    | with_reducible assumption
    | intro _
    | (extract_lets +onlyGivenNames x; have y := x; first | (guard_hyp y : State; clear y; refine Fit.seq L s0 x ?_ ?_; rotate_left; intro hx; clear_value x; rotate_left; dsimp -zeta only [x]; clear x) | ((first | (guard_hyp y : _ → State; clear y) | (guard_hyp y : _ → _ → State; clear y) | (guard_hyp y : _ → _ → _ → State; clear y)); dsimp -zeta only [x]; clear x) | (clear y; clear_value x))
    | with_reducible apply raiseIf_fit (In.trans (by decide) hL)
    | with_reducible apply throttleCleared_fit (In.trans (by decide) hL)
    | with_reducible apply decideRecov_fit (In.trans (by decide) hL)
    | with_reducible apply throttleEvent_fit (In.trans (by decide) hL)
    | (with_reducible apply Fit.ite <;> intro _)
    | split)

theorem warmSample_fit {L : Nat} {s0 : State} {s : State} (hL : In 0xA00D02 L) (h0 : Fit L s0 s) :
    Fit L s0 (warmSample s) := by
  unfold warmSample
  repeat' (first
    | with_reducible assumption
    | intro _
    | (extract_lets +onlyGivenNames x; have y := x; first | (guard_hyp y : State; clear y; refine Fit.seq L s0 x ?_ ?_; rotate_left; intro hx; clear_value x; rotate_left; dsimp -zeta only [x]; clear x) | (clear y; clear_value x))
    | with_reducible apply raise_fit (In.trans (by decide) hL)
    | with_reducible apply dmcRelease_fit (In.trans (by decide) hL)
    | with_reducible apply onThm_fit (In.trans (by decide) hL)
    | (with_reducible apply Fit.ite <;> intro _)
    | split)

theorem confirmAfter_fit {L : Nat} {s0 : State} {a : ThmSt} {s : State} (hL : In 0x100 L) (h0 : Fit L s0 s) :
    Fit L s0 (confirmAfter a s) := by
  unfold confirmAfter
  repeat' (first
    | with_reducible assumption
    | intro _
    | (extract_lets +onlyGivenNames x; have y := x; first | (guard_hyp y : State; clear y; refine Fit.seq L s0 x ?_ ?_; rotate_left; intro hx; clear_value x; rotate_left; dsimp -zeta only [x]; clear x) | (clear y; clear_value x))
    | with_reducible apply onThm_fit (In.trans (by decide) hL)
    | (with_reducible apply Fit.ite <;> intro _)
    | split)

theorem hotSample_fit {L : Nat} {s0 : State} {s : State} (hL : In 0xA00C02 L) (h0 : Fit L s0 s) :
    Fit L s0 (hotSample s) := by
  unfold hotSample
  repeat' (first
    | with_reducible assumption
    | (extract_lets +onlyGivenNames x; have y := x; first | (guard_hyp y : State; clear y; refine Fit.seq L s0 x ?_ ?_; rotate_left; intro hx; clear_value x; rotate_left; dsimp -zeta only [x]; clear x) | (clear y; clear_value x))
    | with_reducible apply raiseIf_fit (In.trans (by decide) hL)
    | (with_reducible apply Fit.upd_dmc (In.trans (by decide) hL); first | (with_reducible apply Fit.ite <;> intro _) | (fail_if_success split)))

theorem takeSample_fit {L : Nat} {s0 : State} {r : ThmRead} {s : State} (hL : In 0xFFFFFFE L) (h0 : Fit L s0 s) :
    Fit L s0 (takeSample r s) := by
  unfold takeSample
  repeat' (first
    | with_reducible assumption
    | intro _
    | (extract_lets +onlyGivenNames x; have y := x; first | (guard_hyp y : State; clear y; refine Fit.seq L s0 x ?_ ?_; rotate_left; intro hx; clear_value x; rotate_left; dsimp -zeta only [x]; clear x) | (clear y; clear_value x))
    | with_reducible apply onThm_fit (In.trans (by decide) hL)
    | with_reducible apply thermalShutdown_fit (In.trans (by decide) hL)
    | with_reducible apply judgeSensors_fit (In.trans (by decide) hL)
    | with_reducible apply condActs_fit (In.trans (by decide) hL)
    | with_reducible apply warmSample_fit (In.trans (by decide) hL)
    | with_reducible apply confirmAfter_fit (In.trans (by decide) hL)
    | with_reducible apply hotSample_fit (In.trans (by decide) hL)
    | (with_reducible apply Fit.ite <;> intro _)
    | (with_reducible apply Fit.upd_pwr (In.trans (by decide) hL); first | (with_reducible apply Fit.ite <;> intro _) | (fail_if_success split))
    | split)

theorem demandSample_fit {L : Nat} {s0 : State} {r : ThmRead} {s : State} (hL : In 0xFFFFFFE L) (h0 : Fit L s0 s) :
    Fit L s0 (demandSample r s) := by
  unfold demandSample
  repeat' (first
    | with_reducible assumption
    | (extract_lets +onlyGivenNames x; have y := x; first | (guard_hyp y : State; clear y; refine Fit.seq L s0 x ?_ ?_; rotate_left; intro hx; clear_value x; rotate_left; dsimp -zeta only [x]; clear x) | (clear y; clear_value x))
    | with_reducible apply takeSample_fit (In.trans (by decide) hL)
    | (with_reducible apply Fit.ite <;> intro _)
    | split)

theorem startSample_fit {L : Nat} {s0 : State} {r : ThmRead} {s : State} (hL : In 0xFFFFFFE L) (h0 : Fit L s0 s) :
    Fit L s0 (startSample r s) := by
  unfold startSample
  repeat' (first
    | with_reducible assumption
    | (extract_lets +onlyGivenNames x; have y := x; first | (guard_hyp y : State; clear y; refine Fit.seq L s0 x ?_ ?_; rotate_left; intro hx; clear_value x; rotate_left; dsimp -zeta only [x]; clear x) | (clear y; clear_value x))
    | with_reducible apply checkWarm_fit (In.trans (by decide) hL)
    | with_reducible apply takeSample_fit (In.trans (by decide) hL)
    | (with_reducible apply Fit.ite <;> intro _))

end Sys2Proof.Machine
end

