-- ==== Sys2Proof/Laws/FitDetachOps.lean ====
section
/-! SUPPORT. What each definition of Machine/DetachOps.lean touches, and that it keeps the invariant: one lemma each. -/

set_option Elab.async false
set_option linter.all false

namespace Sys2Proof.Machine

theorem onHwd_fit {L : Nat} {s0 : State} {f : HwdSt → HwdSt} {s : State} (hL : In 0x10000000 L) (h0 : Fit L s0 s) :
    Fit L s0 (onHwd f s) := by
  unfold onHwd
  repeat' (first
    | with_reducible assumption
    | (extract_lets +onlyGivenNames x; have y := x; first | (guard_hyp y : State; clear y; refine Fit.seq L s0 x ?_ ?_; rotate_left; intro hx; clear_value x; rotate_left; dsimp -zeta only [x]; clear x) | (clear y; clear_value x))
    | (with_reducible apply Fit.upd_hwd (In.trans (by decide) hL); first | (with_reducible apply Fit.ite <;> intro _) | (fail_if_success split)))

theorem putSeated_fit {L : Nat} {s0 : State} {v : Bool} {s : State} (hL : In 0x1800C02 L) (h0 : Fit L s0 s) :
    Fit L s0 (putSeated v s) := by
  unfold putSeated
  repeat' (first
    | with_reducible assumption
    | with_reducible apply nvOwn_fit (In.trans (by decide) hL))

theorem bumpCounter_fit {L : Nat} {s0 : State} {key : Nat} {s : State} (hL : In 0x1800C02 L) (h0 : Fit L s0 s) :
    Fit L s0 (bumpCounter key s) := by
  unfold bumpCounter
  repeat' (first
    | with_reducible assumption
    | with_reducible apply counterSet_fit (In.trans (by decide) hL))

theorem quietPlane_fit {L : Nat} {s0 : State} {s : State} (hL : In 0x87CE02 L) (h0 : Fit L s0 s) :
    Fit L s0 (quietPlane s) := by
  unfold quietPlane
  repeat' (first
    | with_reducible assumption
    | (extract_lets +onlyGivenNames x; have y := x; first | (guard_hyp y : State; clear y; refine Fit.seq L s0 x ?_ ?_; rotate_left; intro hx; clear_value x; rotate_left; dsimp -zeta only [x]; clear x) | (clear y; clear_value x))
    | with_reducible apply mpiCollect_fit (In.trans (by decide) hL)
    | with_reducible apply planeReset_fit (In.trans (by decide) hL)
    | with_reducible apply planePools_fit (In.trans (by decide) hL)
    | with_reducible apply endHolds_fit (In.trans (by decide) hL)
    | (with_reducible apply Fit.upd_scn (In.trans (by decide) hL); first | (with_reducible apply Fit.ite <;> intro _) | (fail_if_success split)))

theorem quiesce2_fit {L : Nat} {s0 : State} {s : State} (hL : In 0x9FCE1A L) (h0 : Fit L s0 s) :
    Fit L s0 (quiesce2 s) := by
  unfold quiesce2
  repeat' (first
    | with_reducible assumption
    | intro _
    | (extract_lets +onlyGivenNames x; have y := x; first | (guard_hyp y : State; clear y; refine Fit.seq L s0 x ?_ ?_; rotate_left; intro hx; clear_value x; rotate_left; dsimp -zeta only [x]; clear x) | (clear y; clear_value x))
    | with_reducible apply endSessions_fit (In.trans (by decide) hL)
    | with_reducible apply onSyn_fit (In.trans (by decide) hL)
    | with_reducible apply abandonSyn_fit (In.trans (by decide) hL)
    | with_reducible apply jobEnds_fit (In.trans (by decide) hL)
    | with_reducible apply endJobsAll_fit (In.trans (by decide) hL)
    | with_reducible apply onPort_fit (In.trans (by decide) hL)
    | with_reducible apply dropAllCapture_fit (In.trans (by decide) hL)
    | with_reducible apply endI2c_fit (In.trans (by decide) hL)
    | with_reducible apply onScn_fit (In.trans (by decide) hL)
    | with_reducible apply lightsOut_fit (In.trans (by decide) hL)
    | (with_reducible apply Fit.ite <;> intro _)
    | (with_reducible apply Fit.foldl)
    | split)

theorem quiet2_fit {L : Nat} {s0 : State} {s : State} (hL : In 0x97CE1A L) (h0 : Fit L s0 s) :
    Fit L s0 (quiet2 s) := by
  unfold quiet2
  repeat' (first
    | with_reducible assumption
    | intro _
    | (extract_lets +onlyGivenNames x; have y := x; first | (guard_hyp y : State; clear y; refine Fit.seq L s0 x ?_ ?_; rotate_left; intro hx; clear_value x; rotate_left; dsimp -zeta only [x]; clear x) | (clear y; clear_value x))
    | with_reducible apply stdDischarge_fit (In.trans (by decide) hL)
    | with_reducible apply onHead_fit (In.trans (by decide) hL)
    | with_reducible apply onPort_fit (In.trans (by decide) hL)
    | with_reducible apply dropAllCapture_fit (In.trans (by decide) hL)
    | with_reducible apply quietPlane_fit (In.trans (by decide) hL)
    | (with_reducible apply Fit.ite <;> intro _)
    | (with_reducible apply Fit.foldl)
    | split)

theorem quiesce3_fit {L : Nat} {s0 : State} {s : State} (hL : In 0x900C02 L) (h0 : Fit L s0 s) :
    Fit L s0 (quiesce3 s) := by
  unfold quiesce3
  repeat' (first
    | with_reducible assumption
    | intro _
    | (extract_lets +onlyGivenNames x; have y := x; first | (guard_hyp y : State; clear y; refine Fit.seq L s0 x ?_ ?_; rotate_left; intro hx; clear_value x; rotate_left; dsimp -zeta only [x]; clear x) | (clear y; clear_value x))
    | with_reducible apply emit_fit (In.trans (by decide) hL)
    | with_reducible apply raise_fit (In.trans (by decide) hL)
    | with_reducible apply onStd_fit (In.trans (by decide) hL)
    | (with_reducible apply Fit.ite <;> intro _)
    | split)

theorem endRecoveries_fit {L : Nat} {s0 : State} {s : State} (hL : In 0x800E02 L) (h0 : Fit L s0 s) :
    Fit L s0 (endRecoveries s) := by
  unfold endRecoveries
  repeat' (first
    | with_reducible assumption
    | intro _
    | (extract_lets +onlyGivenNames x; have y := x; first | (guard_hyp y : State; clear y; refine Fit.seq L s0 x ?_ ?_; rotate_left; intro hx; clear_value x; rotate_left; dsimp -zeta only [x]; clear x) | (guard_hyp y : EvtSt; clear y; dsimp -zeta only [x]; clear x) | (clear y; clear_value x))
    | with_reducible apply endRecov_fit (In.trans (by decide) hL)
    | (with_reducible apply Fit.foldl)
    | (with_reducible apply Fit.upd_evt (In.trans (by decide) hL); rotate_left; with_reducible rfl; with_reducible rfl; first | (with_reducible apply Fit.ite <;> intro _) | (fail_if_success split)))

theorem loseTimers_fit {L : Nat} {s0 : State} {s : State} (hL : In 0x20 L) (h0 : Fit L s0 s) :
    Fit L s0 (loseTimers s) := by
  unfold loseTimers
  repeat' (first
    | with_reducible assumption
    | intro _
    | (extract_lets +onlyGivenNames x; have y := x; first | (guard_hyp y : State; clear y; refine Fit.seq L s0 x ?_ ?_; rotate_left; intro hx; clear_value x; rotate_left; dsimp -zeta only [x]; clear x) | (clear y; clear_value x))
    | (with_reducible apply Fit.upd_time (In.trans (by decide) hL); first | (with_reducible apply Fit.ite <;> intro _) | (fail_if_success split)))

theorem quiesce4_fit {L : Nat} {s0 : State} {q : Quiesce} {s : State} (hL : In 0xFAD3E66 L) (h0 : Fit L s0 s) :
    Fit L s0 (quiesce4 q s) := by
  unfold quiesce4
  repeat' (first
    | with_reducible assumption
    | intro _
    | (extract_lets +onlyGivenNames x; have y := x; first | (guard_hyp y : State; clear y; refine Fit.seq L s0 x ?_ ?_; rotate_left; intro hx; clear_value x; rotate_left; dsimp -zeta only [x]; clear x) | (guard_hyp y : CmdSt; clear y; dsimp -zeta only [x]; clear x) | (clear y; clear_value x))
    | with_reducible apply releaseStage_fit (In.trans (by decide) hL)
    | with_reducible apply finish_fit (In.trans (by decide) hL)
    | with_reducible apply endUpdate_fit (In.trans (by decide) hL)
    | with_reducible apply endLinkCmd_fit (In.trans (by decide) hL)
    | with_reducible apply clearLayers_fit (In.trans (by decide) hL)
    | with_reducible apply dropFrames_fit (In.trans (by decide) hL)
    | with_reducible apply abandonCal_fit (In.trans (by decide) hL)
    | with_reducible apply dropRetrain_fit (In.trans (by decide) hL)
    | with_reducible apply endTests_fit (In.trans (by decide) hL)
    | with_reducible apply forgetCommands_fit (In.trans (by decide) hL)
    | with_reducible apply endCommands_fit (In.trans (by decide) hL)
    | with_reducible apply endRecoveries_fit (In.trans (by decide) hL)
    | with_reducible apply loseTimers_fit (In.trans (by decide) hL)
    | split)

theorem quiet4_fit {L : Nat} {s0 : State} {s : State} (hL : In 0xFAC2E62 L) (h0 : Fit L s0 s) :
    Fit L s0 (quiet4 s) := by
  unfold quiet4
  repeat' (first
    | with_reducible assumption
    | intro _
    | (extract_lets +onlyGivenNames x; have y := x; first | (guard_hyp y : State; clear y; refine Fit.seq L s0 x ?_ ?_; rotate_left; intro hx; clear_value x; rotate_left; dsimp -zeta only [x]; clear x) | (guard_hyp y : CmdSt; clear y; dsimp -zeta only [x]; clear x) | (clear y; clear_value x))
    | with_reducible apply endUpdate_fit (In.trans (by decide) hL)
    | with_reducible apply onScn_fit (In.trans (by decide) hL)
    | with_reducible apply abandonCal_fit (In.trans (by decide) hL)
    | with_reducible apply dropRetrain_fit (In.trans (by decide) hL)
    | with_reducible apply endTests_fit (In.trans (by decide) hL)
    | with_reducible apply forgetCommands_fit (In.trans (by decide) hL)
    | with_reducible apply endHolds_fit (In.trans (by decide) hL)
    | with_reducible apply endRecoveries_fit (In.trans (by decide) hL)
    | with_reducible apply loseTimers_fit (In.trans (by decide) hL)
    | (with_reducible apply Fit.upd_buf_cmd (In.trans (by decide) hL); rotate_left; with_reducible rfl; first | (with_reducible apply Fit.ite <;> intro _) | (fail_if_success split)))

theorem quiesce5_fit {L : Nat} {s0 : State} {s : State} (hL : In 0xCC0E02 L) (h0 : Fit L s0 s) :
    Fit L s0 (quiesce5 s) := by
  unfold quiesce5
  repeat' (first
    | with_reducible assumption
    | with_reducible apply linksIdle_fit (In.trans (by decide) hL)
    | with_reducible apply netQuiesce_fit (In.trans (by decide) hL)
    | with_reducible apply hostDown_fit (In.trans (by decide) hL))

theorem quiet5_fit {L : Nat} {s0 : State} {s : State} (hL : In 0xCC0E02 L) (h0 : Fit L s0 s) :
    Fit L s0 (quiet5 s) := by
  unfold quiet5
  repeat' (first
    | with_reducible assumption
    | with_reducible apply linksIdle_fit (In.trans (by decide) hL)
    | with_reducible apply netFlush_fit (In.trans (by decide) hL)
    | with_reducible apply netQuiesce_fit (In.trans (by decide) hL)
    | with_reducible apply hostDown_fit (In.trans (by decide) hL))

theorem quiesce6_fit {L : Nat} {s0 : State} {s : State} (hL : In 0x2A00E02 L) (h0 : Fit L s0 s) :
    Fit L s0 (quiesce6 s) := by
  unfold quiesce6
  repeat' (first
    | with_reducible assumption
    | with_reducible apply auditAll_fit (In.trans (by decide) hL)
    | with_reducible apply releaseAll_fit (In.trans (by decide) hL)
    | with_reducible apply enterSelfRefresh_fit (In.trans (by decide) hL)
    | with_reducible apply emptyPools_fit (In.trans (by decide) hL))

theorem quiesceStep_fit {L : Nat} {s0 : State} {k : Nat} {q : Quiesce} {s : State} (hL : In 0xFFFFE7E L) (h0 : Fit L s0 s) :
    Fit L s0 (quiesceStep k q s) := by
  unfold quiesceStep
  repeat' (first
    | with_reducible assumption
    | (extract_lets +onlyGivenNames x; have y := x; first | (guard_hyp y : State; clear y; refine Fit.seq L s0 x ?_ ?_; rotate_left; intro hx; clear_value x; rotate_left; dsimp -zeta only [x]; clear x) | (clear y; clear_value x))
    | with_reducible apply quiesce2_fit (In.trans (by decide) hL)
    | with_reducible apply quiesce3_fit (In.trans (by decide) hL)
    | with_reducible apply quiesce4_fit (In.trans (by decide) hL)
    | with_reducible apply quiesce5_fit (In.trans (by decide) hL)
    | with_reducible apply quiesce6_fit (In.trans (by decide) hL)
    | split)

theorem quietStep_fit {L : Nat} {s0 : State} {k : Nat} {s : State} (hL : In 0xFFFEE7A L) (h0 : Fit L s0 s) :
    Fit L s0 (quietStep k s) := by
  unfold quietStep
  repeat' (first
    | with_reducible assumption
    | (extract_lets +onlyGivenNames x; have y := x; first | (guard_hyp y : State; clear y; refine Fit.seq L s0 x ?_ ?_; rotate_left; intro hx; clear_value x; rotate_left; dsimp -zeta only [x]; clear x) | (clear y; clear_value x))
    | with_reducible apply quiet2_fit (In.trans (by decide) hL)
    | with_reducible apply quiesce3_fit (In.trans (by decide) hL)
    | with_reducible apply quiet4_fit (In.trans (by decide) hL)
    | with_reducible apply quiet5_fit (In.trans (by decide) hL)
    | with_reducible apply quiesce6_fit (In.trans (by decide) hL)
    | split)

theorem quiesce7_fit {L : Nat} {s0 : State} {q : Quiesce} {s : State} (hL : In 0x9800C06 L) (h0 : Fit L s0 s) :
    Fit L s0 (quiesce7 q s) := by
  unfold quiesce7
  repeat' (first
    | with_reducible assumption
    | intro _
    | (extract_lets +onlyGivenNames x; have y := x; first | (guard_hyp y : State; clear y; refine Fit.seq L s0 x ?_ ?_; rotate_left; intro hx; clear_value x; rotate_left; dsimp -zeta only [x]; clear x) | (clear y; clear_value x))
    | with_reducible apply raise_fit (In.trans (by decide) hL)
    | with_reducible apply onSec_fit (In.trans (by decide) hL)
    | with_reducible apply endFieldOpen_fit (In.trans (by decide) hL)
    | with_reducible apply endLease_fit (In.trans (by decide) hL))

theorem quiesce8_fit {L : Nat} {s0 : State} {q : Quiesce} {s : State} (hL : In 0x11800C02 L) (h0 : Fit L s0 s) :
    Fit L s0 (quiesce8 q s) := by
  unfold quiesce8
  repeat' (first
    | with_reducible assumption
    | intro _
    | (extract_lets +onlyGivenNames x; have y := x; first | (guard_hyp y : State; clear y; refine Fit.seq L s0 x ?_ ?_; rotate_left; intro hx; clear_value x; rotate_left; dsimp -zeta only [x]; clear x) | (clear y; clear_value x))
    | with_reducible apply nvOwn_fit (In.trans (by decide) hL)
    | with_reducible apply nvFlush_fit (In.trans (by decide) hL)
    | with_reducible apply onHwd_fit (In.trans (by decide) hL)
    | with_reducible apply putSeated_fit (In.trans (by decide) hL)
    | with_reducible apply bumpCounter_fit (In.trans (by decide) hL))

theorem quiesce9_fit {L : Nat} {s0 : State} {s : State} (hL : In 0xE7FFFF8 L) (h0 : Fit L s0 s) :
    Fit L s0 (quiesce9 s) := by
  unfold quiesce9
  repeat' (first
    | with_reducible assumption
    | intro _
    | (extract_lets +onlyGivenNames x; have y := x; first | (guard_hyp y : State; clear y; refine Fit.seq L s0 x ?_ ?_; rotate_left; intro hx; clear_value x; rotate_left; dsimp -zeta only [x]; clear x) | (clear y; clear_value x))
    | with_reducible apply recordTime_fit (In.trans (by decide) hL)
    | with_reducible apply dmcReset_fit (In.trans (by decide) hL)
    | with_reducible apply mainReset_fit (In.trans (by decide) hL)
    | with_reducible apply onMode_fit (In.trans (by decide) hL)
    | (with_reducible apply Fit.ite <;> intro _)
    | split)

theorem quiesce10_fit {L : Nat} {s0 : State} {s : State} (hL : In 0x10000000 L) (h0 : Fit L s0 s) :
    Fit L s0 (quiesce10 s) := by
  unfold quiesce10
  repeat' (first
    | with_reducible assumption
    | intro _
    | (extract_lets +onlyGivenNames x; have y := x; first | (guard_hyp y : State; clear y; refine Fit.seq L s0 x ?_ ?_; rotate_left; intro hx; clear_value x; rotate_left; dsimp -zeta only [x]; clear x) | (clear y; clear_value x))
    | with_reducible apply onHwd_fit (In.trans (by decide) hL))

theorem quiesceEnd_fit {L : Nat} {s0 : State} {q : Quiesce} {s : State} (hL : In 0x1FFFFFFE L) (h0 : Fit L s0 s) :
    Fit L s0 (quiesceEnd q s) := by
  unfold quiesceEnd
  repeat' (first
    | with_reducible assumption
    | (extract_lets +onlyGivenNames x; have y := x; first | (guard_hyp y : State; clear y; refine Fit.seq L s0 x ?_ ?_; rotate_left; intro hx; clear_value x; rotate_left; dsimp -zeta only [x]; clear x) | (clear y; clear_value x))
    | with_reducible apply advanceRef_fit (In.trans (by decide) hL)
    | with_reducible apply quiesce7_fit (In.trans (by decide) hL)
    | with_reducible apply quiesce8_fit (In.trans (by decide) hL)
    | with_reducible apply quiesce9_fit (In.trans (by decide) hL)
    | with_reducible apply quiesce10_fit (In.trans (by decide) hL)
    | (with_reducible apply Fit.ite <;> intro _))

theorem quiesceRun_fit {L : Nat} {s0 : State} {stall : Option Nat} {ks : List Nat} {q : Quiesce} {s : State} (hL : In 0x1FFFFFFE L)
    (h : Fit L s0 s) : Fit L s0 (quiesceRun stall ks q s) := by
  induction ks generalizing q s with
  | nil => exact quiesceEnd_fit (In.trans (by decide) hL) h
  | cons k ks ih =>
    unfold quiesceRun; split
    · exact onHwd_fit (In.trans (by decide) hL) h
    · exact ih (quiesceStep_fit (In.trans (by decide) hL) h)

theorem quiesceStart_fit {L : Nat} {s0 : State} {source reason : Nat} {cmd : Option Hdr} {stall : Option Nat} {took : Nat} {s : State} (hL : In 0x1FFFFFFE L) (h0 : Fit L s0 s) :
    Fit L s0 (quiesceStart source reason cmd stall took s) := by
  unfold quiesceStart
  repeat' (first
    | with_reducible assumption
    | intro _
    | (extract_lets +onlyGivenNames x; have y := x; first | (guard_hyp y : State; clear y; refine Fit.seq L s0 x ?_ ?_; rotate_left; intro hx; clear_value x; rotate_left; dsimp -zeta only [x]; clear x) | ((first | (guard_hyp y : CmdSt; clear y) | (guard_hyp y : EvtSt; clear y)); dsimp -zeta only [x]; clear x) | (clear y; clear_value x))
    | with_reducible apply raise_fit (In.trans (by decide) hL)
    | with_reducible apply finishAll_fit (In.trans (by decide) hL)
    | with_reducible apply endSched_fit (In.trans (by decide) hL)
    | with_reducible apply onMode_fit (In.trans (by decide) hL)
    | with_reducible apply onHwd_fit (In.trans (by decide) hL)
    | with_reducible apply quiesceEnd_fit (In.trans (by decide) hL)
    | with_reducible apply quiesceRun_fit (In.trans (by decide) hL)
    | (with_reducible apply Fit.ite <;> intro _)
    | (with_reducible apply Fit.upd_cmd (In.trans (by decide) hL); rotate_left; with_reducible rfl; first | (with_reducible apply Fit.ite <;> intro _) | (fail_if_success split))
    | split)

theorem quiesceForce_fit {L : Nat} {s0 : State} {stall : Option Nat} {s : State} (hL : In 0x1FFFFFFE L) (h0 : Fit L s0 s) :
    Fit L s0 (quiesceForce stall s) := by
  unfold quiesceForce
  repeat' (first
    | with_reducible assumption
    | intro _
    | (extract_lets +onlyGivenNames x; have y := x; first | (guard_hyp y : State; clear y; refine Fit.seq L s0 x ?_ ?_; rotate_left; intro hx; clear_value x; rotate_left; dsimp -zeta only [x]; clear x) | (clear y; clear_value x))
    | with_reducible apply advanceRef_fit (In.trans (by decide) hL)
    | with_reducible apply raise_fit (In.trans (by decide) hL)
    | with_reducible apply onHwd_fit (In.trans (by decide) hL)
    | with_reducible apply quietStep_fit (In.trans (by decide) hL)
    | with_reducible apply quiesceRun_fit (In.trans (by decide) hL)
    | (with_reducible apply Fit.ite <;> intro _)
    | split)

theorem quiesceOnVaux_fit {L : Nat} {s0 : State} {s : State} (hL : In 0x1FFFFFFE L) (h0 : Fit L s0 s) :
    Fit L s0 (quiesceOnVaux s) := by
  unfold quiesceOnVaux
  repeat' (first
    | with_reducible assumption
    | (extract_lets +onlyGivenNames x; have y := x; first | (guard_hyp y : State; clear y; refine Fit.seq L s0 x ?_ ?_; rotate_left; intro hx; clear_value x; rotate_left; dsimp -zeta only [x]; clear x) | (clear y; clear_value x))
    | with_reducible apply quiesceEnd_fit (In.trans (by decide) hL)
    | split)

theorem detachedEnd_fit {L : Nat} {s0 : State} {s : State} (hL : In 0x10000040 L) (h0 : Fit L s0 s) :
    Fit L s0 (detachedEnd s) := by
  unfold detachedEnd
  repeat' (first
    | with_reducible assumption
    | intro _
    | (extract_lets +onlyGivenNames x; have y := x; first | (guard_hyp y : State; clear y; refine Fit.seq L s0 x ?_ ?_; rotate_left; intro hx; clear_value x; rotate_left; dsimp -zeta only [x]; clear x) | (clear y; clear_value x))
    | with_reducible apply onMode_fit (In.trans (by decide) hL)
    | with_reducible apply onHwd_fit (In.trans (by decide) hL)
    | (with_reducible apply Fit.ite <;> intro _)
    | split)

end Sys2Proof.Machine
end

