-- ==== Sys2Proof/Laws/FitHalo.lean ====
section
/-! SUPPORT. What each definition of Machine/Halo.lean touches, and that it keeps the invariant: one lemma each. -/

set_option Elab.async false
set_option linter.all false

namespace Sys2Proof.Machine

theorem histAdd_fit {L : Nat} {s0 : State} {item point pc : Nat} {s : State} (hL : In 0x1800C02 L) (h0 : Fit L s0 s) :
    Fit L s0 (histAdd item point pc s) := by
  unfold histAdd
  repeat' (first
    | with_reducible assumption
    | (extract_lets +onlyGivenNames x; have y := x; first | (guard_hyp y : State; clear y; refine Fit.seq L s0 x ?_ ?_; rotate_left; intro hx; clear_value x; rotate_left; dsimp -zeta only [x]; clear x) | (clear y; clear_value x))
    | with_reducible apply nvOwn_fit (In.trans (by decide) hL)
    | (with_reducible apply Fit.ite <;> intro _))

theorem startCal_fit {L : Nat} {s0 : State} {item pc : Nat} {s : State} (hL : In 0x2A80E02 L) (h0 : Fit L s0 s) :
    Fit L s0 (startCal item pc s) := by
  unfold startCal
  repeat' (first
    | with_reducible assumption
    | (extract_lets +onlyGivenNames x; have y := x; first | (guard_hyp y : State; clear y; refine Fit.seq L s0 x ?_ ?_; rotate_left; intro hx; clear_value x; rotate_left; dsimp -zeta only [x]; clear x) | (clear y; clear_value x))
    | with_reducible apply retrainDark_fit (In.trans (by decide) hL)
    | (with_reducible apply Fit.ite <;> intro _)
    | (with_reducible apply Fit.upd_cal (In.trans (by decide) hL); first | (with_reducible apply Fit.ite <;> intro _) | (fail_if_success split))
    | (with_reducible apply Fit.upd_dmc (In.trans (by decide) hL); first | (with_reducible apply Fit.ite <;> intro _) | (fail_if_success split)))

theorem nextCal_fit {L : Nat} {s0 : State} {s : State} (hL : In 0x2A80E02 L) (h0 : Fit L s0 s) :
    Fit L s0 (nextCal s) := by
  unfold nextCal
  repeat' (first
    | with_reducible assumption
    | intro _
    | (extract_lets +onlyGivenNames x; have y := x; first | (guard_hyp y : State; clear y; refine Fit.seq L s0 x ?_ ?_; rotate_left; intro hx; clear_value x; rotate_left; dsimp -zeta only [x]; clear x) | (clear y; clear_value x))
    | with_reducible apply startCal_fit (In.trans (by decide) hL)
    | (with_reducible apply Fit.ite <;> intro _)
    | (with_reducible apply Fit.foldl)
    | split)

theorem rowCalRun_fit {L : Nat} {h : Hdr} {p : CalRunP} (hL : In 0x2A80E02 L) :
    RowFit L (rowCalRun h p) := by
  refine ⟨fun s0 s h0 => ?_, fun s0 s h0 => ?_⟩ <;> unfold rowCalRun <;> try dsimp -zeta only [id]
  repeat' (first
    | with_reducible assumption
    | intro _
    | (extract_lets +onlyGivenNames x; have y := x; first | (guard_hyp y : State; clear y; refine Fit.seq L s0 x ?_ ?_; rotate_left; intro hx; clear_value x; rotate_left; dsimp -zeta only [x]; clear x) | (clear y; clear_value x))
    | with_reducible apply accepted_fit (In.trans (by decide) hL)
    | with_reducible apply changePoint_fit (In.trans (by decide) hL)
    | with_reducible apply nextCal_fit (In.trans (by decide) hL)
    | (with_reducible apply Fit.ite <;> intro _)
    | (dsimp -zeta only [id])
    | (with_reducible apply Fit.of_snd; case e => with_reducible assumption)
    | (with_reducible apply Fit.of_fst; case e => with_reducible assumption)
    | (with_reducible apply Fit.upd_cal (In.trans (by decide) hL); first | (with_reducible apply Fit.ite <;> intro _) | (fail_if_success split))
    | split)

theorem execCalRun_fit {L : Nat} {s0 : State} {h : Hdr} {p : CalRunP} {s : State} (hL : In 0x6A80E02 L) (h0 : Fit L s0 s) :
    ∀ post, execCalRun h p s = .next post → Fit L s0 post := by
  unfold execCalRun
  refine ok_fit ?_
  repeat' (first
    | with_reducible assumption
    | with_reducible apply command_fit (In.trans (by decide) hL)
    | with_reducible apply rowCalRun_fit (In.trans (by decide) hL))

theorem execCalAutoTrigger_fit {L : Nat} {s0 : State} {item : Byte} {pc : Fin 64} {s : State} (hL : In 0x2A80E22 L) (h0 : Fit L s0 s) :
    ∀ post, execCalAutoTrigger item pc s = .next post → Fit L s0 post := by
  unfold execCalAutoTrigger
  refine ok_fit ?_
  repeat' (first
    | with_reducible assumption
    | intro _
    | (extract_lets +onlyGivenNames x; have y := x; first | (guard_hyp y : State; clear y; refine Fit.seq L s0 x ?_ ?_; rotate_left; intro hx; clear_value x; rotate_left; dsimp -zeta only [x]; clear x) | (clear y; clear_value x))
    | with_reducible apply advanceMer_fit (In.trans (by decide) hL)
    | with_reducible apply startCal_fit (In.trans (by decide) hL)
    | with_reducible apply nextCal_fit (In.trans (by decide) hL)
    | (with_reducible apply Fit.ite <;> intro _)
    | split)

theorem clampTrim_fit {L : Nat} {s0 : State} {item fieldNo : Nat} {lo hi v : Int} {s : State} (hL : In 0x800C02 L) (h0 : Fit L s0 s) :
    Fit L s0 (clampTrim item fieldNo lo hi v s).1 := by
  unfold clampTrim
  repeat' (first
    | with_reducible assumption
    | with_reducible apply raiseIf_fit (In.trans (by decide) hL)
    | (dsimp -zeta only [id])
    | (with_reducible apply Fit.of_snd; case e => with_reducible assumption)
    | (with_reducible apply Fit.of_fst; case e => with_reducible assumption))

theorem clampSkews_fit {L : Nat} {s0 : State} {base : Nat} {vs : List Int} {i : Nat} {s : State} (hL : In 0x800C02 L)
    (h0 : Fit L s0 s) : Fit L s0 (clampSkews base vs i s).1 := by
  induction vs generalizing i s with
  | nil => exact h0
  | cons v vs ih => exact ih (clampTrim_fit (In.trans (by decide) hL) h0)

theorem putTrim_fit {L : Nat} {s0 : State} {t : List Byte} {s : State} (hL : In 0x3800C02 L) (h0 : Fit L s0 s) :
    Fit L s0 (putTrim t s) := by
  unfold putTrim
  repeat' (first
    | with_reducible assumption
    | (extract_lets +onlyGivenNames x; have y := x; first | (guard_hyp y : State; clear y; refine Fit.seq L s0 x ?_ ?_; rotate_left; intro hx; clear_value x; rotate_left; dsimp -zeta only [x]; clear x) | (clear y; clear_value x))
    | with_reducible apply nvOwn_fit (In.trans (by decide) hL)
    | (with_reducible apply Fit.upd_cal (In.trans (by decide) hL); first | (with_reducible apply Fit.ite <;> intro _) | (fail_if_success split)))

theorem calFinished_fit {L : Nat} {s0 : State} {item pc : Nat} {margin : Option Nat} {bad : Bool} {s : State} (hL : In 0x2A80E02 L) (h0 : Fit L s0 s) :
    Fit L s0 (calFinished item pc margin bad s) := by
  unfold calFinished
  repeat' (first
    | with_reducible assumption
    | intro _
    | (extract_lets +onlyGivenNames x; have y := x; first | (guard_hyp y : State; clear y; refine Fit.seq L s0 x ?_ ?_; rotate_left; intro hx; clear_value x; rotate_left; dsimp -zeta only [x]; clear x) | ((first | (guard_hyp y : _ → State; clear y) | (guard_hyp y : _ → _ → State; clear y) | (guard_hyp y : _ → _ → _ → State; clear y)); dsimp -zeta only [x]; clear x) | (clear y; clear_value x))
    | with_reducible apply nextCal_fit (In.trans (by decide) hL)
    | (with_reducible apply Fit.ite <;> intro _)
    | (with_reducible apply Fit.upd_cal (In.trans (by decide) hL); first | (with_reducible apply Fit.ite <;> intro _) | (fail_if_success split))
    | split)

theorem sweepEnd_fit {L : Nat} {s0 : State} {w : DmcSweep} {m : DmcMeas} {s : State} (hL : In 0x3A80E02 L) (h0 : Fit L s0 s) :
    Fit L s0 (sweepEnd w m s) := by
  unfold sweepEnd
  repeat' (first
    | with_reducible assumption
    | intro _
    | (extract_lets +onlyGivenNames x; have y := x; first | (guard_hyp y : State; clear y; refine Fit.seq L s0 x ?_ ?_; rotate_left; intro hx; clear_value x; rotate_left; dsimp -zeta only [x]; clear x) | (clear y; clear_value x))
    | with_reducible apply raise_fit (In.trans (by decide) hL)
    | with_reducible apply raiseIf_fit (In.trans (by decide) hL)
    | with_reducible apply putDly_fit (In.trans (by decide) hL)
    | with_reducible apply storeRec_fit (In.trans (by decide) hL)
    | with_reducible apply storeFound_fit (In.trans (by decide) hL)
    | with_reducible apply histAdd_fit (In.trans (by decide) hL)
    | with_reducible apply calFinished_fit (In.trans (by decide) hL)
    | (with_reducible apply Fit.ite <;> intro _)
    | (with_reducible apply Fit.upd_dmc_cal (In.trans (by decide) hL); first | (with_reducible apply Fit.ite <;> intro _) | (fail_if_success split))
    | split)

theorem execCalDone_fit {L : Nat} {s0 : State} {pc : Fin 64} {m : CalMeas} {s : State} (hL : In 0x3A80E02 L) (h0 : Fit L s0 s) :
    ∀ post, execCalDone pc m s = .next post → Fit L s0 post := by
  unfold execCalDone
  refine ok_fit ?_
  repeat' (first
    | with_reducible assumption
    | intro _
    | (extract_lets +onlyGivenNames x; have y := x; first | (guard_hyp y : State; clear y; refine Fit.seq L s0 x ?_ ?_; rotate_left; intro hx; clear_value x; rotate_left; dsimp -zeta only [x]; clear x) | (clear y; clear_value x))
    | with_reducible apply raise_fit (In.trans (by decide) hL)
    | with_reducible apply histAdd_fit (In.trans (by decide) hL)
    | with_reducible apply clampTrim_fit (In.trans (by decide) hL)
    | with_reducible apply clampSkews_fit (In.trans (by decide) hL)
    | with_reducible apply putTrim_fit (In.trans (by decide) hL)
    | with_reducible apply calFinished_fit (In.trans (by decide) hL)
    | with_reducible apply sweepEnd_fit (In.trans (by decide) hL)
    | (with_reducible apply Fit.ite <;> intro _)
    | (dsimp -zeta only [id])
    | (with_reducible apply Fit.of_snd; case e => with_reducible assumption)
    | (with_reducible apply Fit.of_fst; case e => with_reducible assumption)
    | (with_reducible apply Fit.upd_cal (In.trans (by decide) hL); first | (with_reducible apply Fit.ite <;> intro _) | (fail_if_success split))
    | split)

theorem execCalRunDone_fit {L : Nat} {s0 : State} {s : State} (hL : In 0x2A00E02 L) (h0 : Fit L s0 s) :
    ∀ post, execCalRunDone s = .next post → Fit L s0 post := by
  unfold execCalRunDone
  refine ok_fit ?_
  repeat' (first
    | with_reducible assumption
    | (extract_lets +onlyGivenNames x; have y := x; first | (guard_hyp y : State; clear y; refine Fit.seq L s0 x ?_ ?_; rotate_left; intro hx; clear_value x; rotate_left; dsimp -zeta only [x]; clear x) | (clear y; clear_value x))
    | with_reducible apply endCalRun_fit (In.trans (by decide) hL)
    | with_reducible apply changePoint_fit (In.trans (by decide) hL)
    | (with_reducible apply Fit.ite <;> intro _)
    | split)

theorem execCalStale_fit {L : Nat} {s0 : State} {item : Byte} {s : State} (hL : In 0x2800C22 L) (h0 : Fit L s0 s) :
    ∀ post, execCalStale item s = .next post → Fit L s0 post := by
  unfold execCalStale
  refine ok_fit ?_
  repeat' (first
    | with_reducible assumption
    | (extract_lets +onlyGivenNames x; have y := x; first | (guard_hyp y : State; clear y; refine Fit.seq L s0 x ?_ ?_; rotate_left; intro hx; clear_value x; rotate_left; dsimp -zeta only [x]; clear x) | (clear y; clear_value x))
    | with_reducible apply advanceMer_fit (In.trans (by decide) hL)
    | with_reducible apply raise_fit (In.trans (by decide) hL)
    | (with_reducible apply Fit.ite <;> intro _)
    | (with_reducible apply Fit.upd_cal (In.trans (by decide) hL); first | (with_reducible apply Fit.ite <;> intro _) | (fail_if_success split)))

theorem rowCalStatus_fit {L : Nat} {h : Hdr} {p : CalStatusP} (hL : In 0x800E02 L) :
    RowFit L (rowCalStatus h p) := by
  refine ⟨fun s0 s h0 => ?_, fun s0 s h0 => ?_⟩ <;> unfold rowCalStatus <;> try dsimp -zeta only [id]
  repeat' (first
    | with_reducible assumption
    | intro _
    | (extract_lets +onlyGivenNames x; have y := x; first | (guard_hyp y : State; clear y; refine Fit.seq L s0 x ?_ ?_; rotate_left; intro hx; clear_value x; rotate_left; dsimp -zeta only [x]; clear x) | (clear y; clear_value x))
    | with_reducible apply finish_fit (In.trans (by decide) hL)
    | (with_reducible apply Fit.ite <;> intro _)
    | (dsimp -zeta only [id])
    | (with_reducible apply Fit.of_snd; case e => with_reducible assumption)
    | (with_reducible apply Fit.of_fst; case e => with_reducible assumption)
    | split)

theorem execCalStatus_fit {L : Nat} {s0 : State} {h : Hdr} {p : CalStatusP} {s : State} (hL : In 0x4800E02 L) (h0 : Fit L s0 s) :
    ∀ post, execCalStatus h p s = .next post → Fit L s0 post := by
  unfold execCalStatus
  refine ok_fit ?_
  repeat' (first
    | with_reducible assumption
    | with_reducible apply command_fit (In.trans (by decide) hL)
    | with_reducible apply rowCalStatus_fit (In.trans (by decide) hL))

theorem rowCalExport_fit {L : Nat} {h : Hdr} {p : CalExportP} (hL : In 0x801E02 L) :
    RowFit L (rowCalExport h p) := by
  refine ⟨fun s0 s h0 => ?_, fun s0 s h0 => ?_⟩ <;> unfold rowCalExport <;> try dsimp -zeta only [id]
  repeat' (first
    | with_reducible assumption
    | intro _
    | (extract_lets +onlyGivenNames x; have y := x; first | (guard_hyp y : State; clear y; refine Fit.seq L s0 x ?_ ?_; rotate_left; intro hx; clear_value x; rotate_left; dsimp -zeta only [x]; clear x) | (clear y; clear_value x))
    | with_reducible apply emit_fit (In.trans (by decide) hL)
    | with_reducible apply devWrite_fit (In.trans (by decide) hL)
    | with_reducible apply finish_fit (In.trans (by decide) hL)
    | (with_reducible apply Fit.ite <;> intro _)
    | (dsimp -zeta only [id])
    | (with_reducible apply Fit.of_snd; case e => with_reducible assumption)
    | (with_reducible apply Fit.of_fst; case e => with_reducible assumption)
    | split)

theorem execCalExport_fit {L : Nat} {s0 : State} {h : Hdr} {p : CalExportP} {s : State} (hL : In 0x4801E02 L) (h0 : Fit L s0 s) :
    ∀ post, execCalExport h p s = .next post → Fit L s0 post := by
  unfold execCalExport
  refine ok_fit ?_
  repeat' (first
    | with_reducible assumption
    | with_reducible apply command_fit (In.trans (by decide) hL)
    | with_reducible apply rowCalExport_fit (In.trans (by decide) hL))

theorem calStore_fit {L : Nat} {s0 : State} {h : Hdr} {p : CalImportP} {s : State} (hL : In 0x1800E02 L) (h0 : Fit L s0 s) :
    Fit L s0 (calStore h p s) := by
  unfold calStore
  repeat' (first
    | with_reducible assumption
    | intro _
    | (extract_lets +onlyGivenNames x; have y := x; first | (guard_hyp y : State; clear y; refine Fit.seq L s0 x ?_ ?_; rotate_left; intro hx; clear_value x; rotate_left; dsimp -zeta only [x]; clear x) | (clear y; clear_value x))
    | with_reducible apply raise_fit (In.trans (by decide) hL)
    | with_reducible apply finish_fit (In.trans (by decide) hL)
    | with_reducible apply nvOwn_fit (In.trans (by decide) hL)
    | (with_reducible apply Fit.ite <;> intro _)
    | (with_reducible apply Fit.foldl)
    | split)

theorem rowCalImport_fit {L : Nat} {h : Hdr} {p : CalImportP} (hL : In 0x1800E02 L) :
    RowFit L (rowCalImport h p) := by
  refine ⟨fun s0 s h0 => ?_, fun s0 s h0 => ?_⟩ <;> unfold rowCalImport <;> try dsimp -zeta only [id]
  repeat' (first
    | with_reducible assumption
    | intro _
    | with_reducible apply finish_fit (In.trans (by decide) hL)
    | with_reducible apply calStore_fit (In.trans (by decide) hL)
    | (with_reducible apply Fit.ite <;> intro _)
    | (dsimp -zeta only [id])
    | (with_reducible apply Fit.of_snd; case e => with_reducible assumption)
    | (with_reducible apply Fit.of_fst; case e => with_reducible assumption)
    | split)

theorem execCalImport_fit {L : Nat} {s0 : State} {h : Hdr} {p : CalImportP} {s : State} (hL : In 0x5800E02 L) (h0 : Fit L s0 s) :
    ∀ post, execCalImport h p s = .next post → Fit L s0 post := by
  unfold execCalImport
  refine ok_fit ?_
  repeat' (first
    | with_reducible assumption
    | with_reducible apply command_fit (In.trans (by decide) hL)
    | with_reducible apply rowCalImport_fit (In.trans (by decide) hL))

end Sys2Proof.Machine
end

