-- ==== Sys2Proof/Laws/FitModeRows.lean ====
section
/-! SUPPORT. What each definition of Machine/ModeRows.lean touches, and that it keeps the invariant: one lemma each. -/

set_option Elab.async false
set_option linter.all false

namespace Sys2Proof.Machine

theorem placeChange_fit {L : Nat} {s0 : State} {h : Hdr} {opc : Nat} {m : Mode} {rate : Nat} {s : State} (hL : In 0x850E42 L) (h0 : Fit L s0 s) :
    Fit L s0 (placeChange h opc m rate s) := by
  unfold placeChange
  repeat' (first
    | with_reducible assumption
    | intro _
    | (extract_lets +onlyGivenNames x; have y := x; first | (guard_hyp y : State; clear y; refine Fit.seq L s0 x ?_ ?_; rotate_left; intro hx; clear_value x; rotate_left; dsimp -zeta only [x]; clear x) | (clear y; clear_value x))
    | with_reducible apply finish_fit (In.trans (by decide) hL)
    | with_reducible apply accepted_fit (In.trans (by decide) hL)
    | with_reducible apply synRecheck_fit (In.trans (by decide) hL)
    | with_reducible apply onScn_fit (In.trans (by decide) hL)
    | with_reducible apply onMode_fit (In.trans (by decide) hL)
    | with_reducible apply endChangeCmd_fit (In.trans (by decide) hL)
    | (with_reducible apply Fit.ite <;> intro _)
    | split)

theorem endHeld_fit {L : Nat} {s0 : State} {v : Verdict} {s : State} (hL : In 0x800E42 L) (h0 : Fit L s0 s) :
    Fit L s0 (endHeld v s) := by
  unfold endHeld
  repeat' (first
    | with_reducible assumption
    | intro _
    | (extract_lets +onlyGivenNames x; have y := x; first | (guard_hyp y : State; clear y; refine Fit.seq L s0 x ?_ ?_; rotate_left; intro hx; clear_value x; rotate_left; dsimp -zeta only [x]; clear x) | (clear y; clear_value x))
    | with_reducible apply finish_fit (In.trans (by decide) hL)
    | with_reducible apply onMode_fit (In.trans (by decide) hL)
    | (with_reducible apply Fit.foldl))

theorem runModeSet_fit {L : Nat} {s0 : State} {h : Hdr} {p : ModeSetP} {s : State} (hL : In 0x850E42 L) (h0 : Fit L s0 s) :
    Fit L s0 (runModeSet h p s) := by
  unfold runModeSet
  repeat' (first
    | with_reducible assumption
    | intro _
    | (extract_lets +onlyGivenNames x; have y := x; first | (guard_hyp y : State; clear y; refine Fit.seq L s0 x ?_ ?_; rotate_left; intro hx; clear_value x; rotate_left; dsimp -zeta only [x]; clear x) | (clear y; clear_value x))
    | with_reducible apply finish_fit (In.trans (by decide) hL)
    | with_reducible apply accepted_fit (In.trans (by decide) hL)
    | with_reducible apply onMode_fit (In.trans (by decide) hL)
    | with_reducible apply placeChange_fit (In.trans (by decide) hL)
    | with_reducible apply endHeld_fit (In.trans (by decide) hL)
    | (with_reducible apply Fit.ite <;> intro _)
    | split)

theorem judgeModeSet_fit {L : Nat} {s0 : State} {h : Hdr} {p : ModeSetP} {s : State} (hL : In 0x850E42 L) (h0 : Fit L s0 s) :
    Fit L s0 (judgeModeSet h p s) := by
  unfold judgeModeSet
  repeat' (first
    | with_reducible assumption
    | (extract_lets +onlyGivenNames x; have y := x; first | (guard_hyp y : State; clear y; refine Fit.seq L s0 x ?_ ?_; rotate_left; intro hx; clear_value x; rotate_left; dsimp -zeta only [x]; clear x) | (clear y; clear_value x))
    | with_reducible apply finish_fit (In.trans (by decide) hL)
    | with_reducible apply runModeSet_fit (In.trans (by decide) hL)
    | split)

theorem decisionSamples_fit {L : Nat} {s0 : State} {p : ModeSetP} {s : State} (hL : In 0xFFFFFFE L) (h0 : Fit L s0 s) :
    Fit L s0 (decisionSamples p s) := by
  unfold decisionSamples
  repeat' (first
    | with_reducible assumption
    | with_reducible apply thermSample_fit (In.trans (by decide) hL)
    | with_reducible apply demandSample_fit (In.trans (by decide) hL))

theorem rowModeSet_fit {L : Nat} {h : Hdr} {p : ModeSetP} (hL : In 0xFFFFFFE L) :
    RowFit L (rowModeSet h p) := by
  refine ⟨fun s0 s h0 => ?_, fun s0 s h0 => ?_⟩ <;> unfold rowModeSet <;> try dsimp -zeta only [id]
  repeat' (first
    | with_reducible assumption
    | intro _
    | (extract_lets +onlyGivenNames x; have y := x; first | (guard_hyp y : State; clear y; refine Fit.seq L s0 x ?_ ?_; rotate_left; intro hx; clear_value x; rotate_left; dsimp -zeta only [x]; clear x) | (clear y; clear_value x))
    | with_reducible apply onMode_fit (In.trans (by decide) hL)
    | with_reducible apply judgeModeSet_fit (In.trans (by decide) hL)
    | with_reducible apply decisionSamples_fit (In.trans (by decide) hL)
    | (with_reducible apply Fit.ite <;> intro _)
    | (dsimp -zeta only [id])
    | (with_reducible apply Fit.of_snd; case e => with_reducible assumption)
    | (with_reducible apply Fit.of_fst; case e => with_reducible assumption)
    | split)

theorem execModeSet_fit {L : Nat} {s0 : State} {h : Hdr} {p : ModeSetP} {s : State} (hL : In 0xFFFFFFE L) (h0 : Fit L s0 s) :
    ∀ post, execModeSet h p s = .next post → Fit L s0 post := by
  unfold execModeSet
  refine ok_fit ?_
  repeat' (first
    | with_reducible assumption
    | with_reducible apply command_fit (In.trans (by decide) hL)
    | with_reducible apply rowModeSet_fit (In.trans (by decide) hL))

theorem judgeHeld_fit {L : Nat} {s0 : State} {s : State} (hL : In 0xFFFFFFE L) (h0 : Fit L s0 s) :
    Fit L s0 (judgeHeld s) := by
  unfold judgeHeld
  repeat' (first
    | with_reducible assumption
    | intro _
    | (extract_lets +onlyGivenNames x; have y := x; first | (guard_hyp y : State; clear y; refine Fit.seq L s0 x ?_ ?_; rotate_left; intro hx; clear_value x; rotate_left; dsimp -zeta only [x]; clear x) | (clear y; clear_value x))
    | with_reducible apply onMode_fit (In.trans (by decide) hL)
    | with_reducible apply judgeModeSet_fit (In.trans (by decide) hL)
    | with_reducible apply decisionSamples_fit (In.trans (by decide) hL)
    | (with_reducible apply Fit.foldl))

theorem placeHeld_fit {L : Nat} {s0 : State} {s : State} (hL : In 0x850E42 L) (h0 : Fit L s0 s) :
    Fit L s0 (placeHeld s) := by
  unfold placeHeld
  repeat' (first
    | with_reducible assumption
    | intro _
    | (extract_lets +onlyGivenNames x; have y := x; first | (guard_hyp y : State; clear y; refine Fit.seq L s0 x ?_ ?_; rotate_left; intro hx; clear_value x; rotate_left; dsimp -zeta only [x]; clear x) | (clear y; clear_value x))
    | with_reducible apply onMode_fit (In.trans (by decide) hL)
    | with_reducible apply placeChange_fit (In.trans (by decide) hL)
    | (with_reducible apply Fit.foldl))

theorem rowModeGet_fit {L : Nat} {h : Hdr} (hL : In 0x800E02 L) :
    RowFit L (rowModeGet h) := by
  refine ⟨fun s0 s h0 => ?_, fun s0 s h0 => ?_⟩ <;> unfold rowModeGet <;> try dsimp -zeta only [id]
  repeat' (first
    | with_reducible assumption
    | intro _
    | with_reducible apply finish_fit (In.trans (by decide) hL)
    | (dsimp -zeta only [id])
    | (with_reducible apply Fit.of_snd; case e => with_reducible assumption)
    | (with_reducible apply Fit.of_fst; case e => with_reducible assumption))

theorem execModeGet_fit {L : Nat} {s0 : State} {h : Hdr} {s : State} (hL : In 0x4800E02 L) (h0 : Fit L s0 s) :
    ∀ post, execModeGet h s = .next post → Fit L s0 post := by
  unfold execModeGet
  refine ok_fit ?_
  repeat' (first
    | with_reducible assumption
    | with_reducible apply command_fit (In.trans (by decide) hL)
    | with_reducible apply rowModeGet_fit (In.trans (by decide) hL))

theorem rowTimingSet_fit {L : Nat} {h : Hdr} {p : TimingSetP} (hL : In 0x850E42 L) :
    RowFit L (rowTimingSet h p) := by
  refine ⟨fun s0 s h0 => ?_, fun s0 s h0 => ?_⟩ <;> unfold rowTimingSet <;> try dsimp -zeta only [id]
  repeat' (first
    | with_reducible assumption
    | intro _
    | with_reducible apply finish_fit (In.trans (by decide) hL)
    | with_reducible apply placeChange_fit (In.trans (by decide) hL)
    | (with_reducible apply Fit.ite <;> intro _)
    | (dsimp -zeta only [id])
    | (with_reducible apply Fit.of_snd; case e => with_reducible assumption)
    | (with_reducible apply Fit.of_fst; case e => with_reducible assumption)
    | split)

theorem execTimingSet_fit {L : Nat} {s0 : State} {h : Hdr} {p : TimingSetP} {s : State} (hL : In 0x4850E42 L) (h0 : Fit L s0 s) :
    ∀ post, execTimingSet h p s = .next post → Fit L s0 post := by
  unfold execTimingSet
  refine ok_fit ?_
  repeat' (first
    | with_reducible assumption
    | with_reducible apply command_fit (In.trans (by decide) hL)
    | with_reducible apply rowTimingSet_fit (In.trans (by decide) hL))

theorem execModeChangeBoundary_fit {L : Nat} {s0 : State} {s : State} (hL : In 0xFFFFFFE L) (h0 : Fit L s0 s) :
    ∀ post, execModeChangeBoundary s = .next post → Fit L s0 post := by
  unfold execModeChangeBoundary
  refine ok_fit ?_
  repeat' (first
    | with_reducible assumption
    | (extract_lets +onlyGivenNames x; have y := x; first | (guard_hyp y : State; clear y; refine Fit.seq L s0 x ?_ ?_; rotate_left; intro hx; clear_value x; rotate_left; dsimp -zeta only [x]; clear x) | (clear y; clear_value x))
    | with_reducible apply advanceMer_fit (In.trans (by decide) hL)
    | with_reducible apply applyChange_fit (In.trans (by decide) hL)
    | split)

end Sys2Proof.Machine
end

