-- ==== Sys2Proof/Laws/FitDmcRows.lean ====
section
/-! SUPPORT. What each definition of Machine/DmcRows.lean touches, and that it keeps the invariant: one lemma each. -/

set_option Elab.async false
set_option linter.all false

namespace Sys2Proof.Machine

theorem onDmc_fit {L : Nat} {s0 : State} {f : DmcSt → DmcSt} {s : State} (hL : In 0x200000 L) (h0 : Fit L s0 s) :
    Fit L s0 (onDmc f s) := by
  unfold onDmc
  repeat' (first
    | with_reducible assumption
    | (extract_lets +onlyGivenNames x; have y := x; first | (guard_hyp y : State; clear y; refine Fit.seq L s0 x ?_ ?_; rotate_left; intro hx; clear_value x; rotate_left; dsimp -zeta only [x]; clear x) | (clear y; clear_value x))
    | (with_reducible apply Fit.upd_dmc (In.trans (by decide) hL); first | (with_reducible apply Fit.ite <;> intro _) | (fail_if_success split)))

theorem execDmcRateChangeDone_fit {L : Nat} {s0 : State} {s : State} (hL : In 0xA00C02 L) (h0 : Fit L s0 s) :
    ∀ post, execDmcRateChangeDone s = .next post → Fit L s0 post := by
  unfold execDmcRateChangeDone
  refine ok_fit ?_
  repeat' (first
    | with_reducible assumption
    | intro _
    | (extract_lets +onlyGivenNames x; have y := x; first | (guard_hyp y : State; clear y; refine Fit.seq L s0 x ?_ ?_; rotate_left; intro hx; clear_value x; rotate_left; dsimp -zeta only [x]; clear x) | (clear y; clear_value x))
    | with_reducible apply raise_fit (In.trans (by decide) hL)
    | with_reducible apply onDmc_fit (In.trans (by decide) hL)
    | split)

theorem applyFences_fit {L : Nat} {s0 : State} {s : State} (hL : In 0xA00E02 L) (h0 : Fit L s0 s) :
    Fit L s0 (applyFences s) := by
  unfold applyFences
  repeat' (first
    | with_reducible assumption
    | intro _
    | (extract_lets +onlyGivenNames x; have y := x; first | (guard_hyp y : State; clear y; refine Fit.seq L s0 x ?_ ?_; rotate_left; intro hx; clear_value x; rotate_left; dsimp -zeta only [x]; clear x) | (clear y; clear_value x))
    | with_reducible apply move_fit (In.trans (by decide) hL)
    | with_reducible apply checkLow_fit (In.trans (by decide) hL)
    | with_reducible apply onDmc_fit (In.trans (by decide) hL)
    | (with_reducible apply Fit.ite <;> intro _)
    | split)

theorem fenceEmpty_fit {L : Nat} {s0 : State} {pc : Nat} {s : State} (hL : In 0x3A00E02 L) (h0 : Fit L s0 s) :
    Fit L s0 (fenceEmpty pc s) := by
  unfold fenceEmpty
  repeat' (first
    | with_reducible assumption
    | intro _
    | (extract_lets +onlyGivenNames x; have y := x; first | (guard_hyp y : State; clear y; refine Fit.seq L s0 x ?_ ?_; rotate_left; intro hx; clear_value x; rotate_left; dsimp -zeta only [x]; clear x) | (clear y; clear_value x))
    | with_reducible apply raise_fit (In.trans (by decide) hL)
    | with_reducible apply decideFence_fit (In.trans (by decide) hL)
    | with_reducible apply onDmc_fit (In.trans (by decide) hL))

theorem releaseTrain_fit {L : Nat} {s0 : State} {pt pc : Nat} {m : DmcMeas} {s : State} (hL : In 0xFFFFFFE L) (h0 : Fit L s0 s) :
    Fit L s0 (releaseTrain pt pc m s) := by
  unfold releaseTrain
  repeat' (first
    | with_reducible assumption
    | (extract_lets +onlyGivenNames x; have y := x; first | (guard_hyp y : State; clear y; refine Fit.seq L s0 x ?_ ?_; rotate_left; intro hx; clear_value x; rotate_left; dsimp -zeta only [x]; clear x) | (clear y; clear_value x))
    | with_reducible apply raise_fit (In.trans (by decide) hL)
    | with_reducible apply putDly_fit (In.trans (by decide) hL)
    | with_reducible apply storeRec_fit (In.trans (by decide) hL)
    | with_reducible apply storeFound_fit (In.trans (by decide) hL)
    | with_reducible apply fencePc_fit (In.trans (by decide) hL)
    | with_reducible apply fenceEmpty_fit (In.trans (by decide) hL)
    | (with_reducible apply Fit.ite <;> intro _))

theorem releaseCheck_fit {L : Nat} {s0 : State} {checks : List DmcCheck} {other : DmcMeas} {pt : Nat} {s : State} {pc : Nat} (hL : In 0xFFFFFFE L) (h0 : Fit L s0 s) :
    Fit L s0 (releaseCheck checks other pt s pc) := by
  unfold releaseCheck
  repeat' (first
    | with_reducible assumption
    | intro _
    | (extract_lets +onlyGivenNames x; have y := x; first | (guard_hyp y : State; clear y; refine Fit.seq L s0 x ?_ ?_; rotate_left; intro hx; clear_value x; rotate_left; dsimp -zeta only [x]; clear x) | (clear y; clear_value x))
    | with_reducible apply releaseTrain_fit (In.trans (by decide) hL)
    | (with_reducible apply Fit.ite <;> intro _)
    | split)

theorem execDmcReady_fit {L : Nat} {s0 : State} {checks : List DmcCheck} {other : DmcMeas} {s : State} (hL : In 0xFFFFFFE L) (h0 : Fit L s0 s) :
    ∀ post, execDmcReady checks other s = .next post → Fit L s0 post := by
  unfold execDmcReady
  refine ok_fit ?_
  repeat' (first
    | with_reducible assumption
    | intro _
    | (extract_lets +onlyGivenNames x; have y := x; first | (guard_hyp y : State; clear y; refine Fit.seq L s0 x ?_ ?_; rotate_left; intro hx; clear_value x; rotate_left; dsimp -zeta only [x]; clear x) | (clear y; clear_value x))
    | with_reducible apply raise_fit (In.trans (by decide) hL)
    | with_reducible apply loadDly_fit (In.trans (by decide) hL)
    | with_reducible apply changePoint_fit (In.trans (by decide) hL)
    | with_reducible apply enterSelfRefresh_fit (In.trans (by decide) hL)
    | with_reducible apply placeHeld_fit (In.trans (by decide) hL)
    | with_reducible apply onDmc_fit (In.trans (by decide) hL)
    | with_reducible apply applyFences_fit (In.trans (by decide) hL)
    | with_reducible apply releaseCheck_fit (In.trans (by decide) hL)
    | (with_reducible apply Fit.ite <;> intro _)
    | (with_reducible apply Fit.foldl)
    | (with_reducible apply Fit.upd_cal (In.trans (by decide) hL); first | (with_reducible apply Fit.ite <;> intro _) | (fail_if_success split))
    | split)

theorem execCalWindowOpen_fit {L : Nat} {s0 : State} {pc : Fin 64} {s : State} (hL : In 0x200000 L) (h0 : Fit L s0 s) :
    ∀ post, execCalWindowOpen pc s = .next post → Fit L s0 post := by
  unfold execCalWindowOpen
  refine ok_fit ?_
  repeat' (first
    | with_reducible assumption
    | intro _
    | (extract_lets +onlyGivenNames x; have y := x; first | (guard_hyp y : State; clear y; refine Fit.seq L s0 x ?_ ?_; rotate_left; intro hx; clear_value x; rotate_left; dsimp -zeta only [x]; clear x) | (clear y; clear_value x))
    | with_reducible apply onPc_fit (In.trans (by decide) hL)
    | with_reducible apply onDmc_fit (In.trans (by decide) hL)
    | (with_reducible apply Fit.ite <;> intro _)
    | split)

theorem execCalWindowClose_fit {L : Nat} {s0 : State} {pc : Fin 64} {work : WinWork} {s : State} (hL : In 0x3A80E02 L) (h0 : Fit L s0 s) :
    ∀ post, execCalWindowClose pc work s = .next post → Fit L s0 post := by
  unfold execCalWindowClose
  refine ok_fit ?_
  repeat' (first
    | with_reducible assumption
    | intro _
    | (extract_lets +onlyGivenNames x; have y := x; first | (guard_hyp y : State; clear y; refine Fit.seq L s0 x ?_ ?_; rotate_left; intro hx; clear_value x; rotate_left; dsimp -zeta only [x]; clear x) | (clear y; clear_value x))
    | with_reducible apply onPc_fit (In.trans (by decide) hL)
    | with_reducible apply sweepEnd_fit (In.trans (by decide) hL)
    | with_reducible apply onDmc_fit (In.trans (by decide) hL)
    | (with_reducible apply Fit.ite <;> intro _)
    | split)

theorem execDmcRefresh_fit {L : Nat} {s0 : State} {pc : Fin 64} {s : State} (hL : In 0x200000 L) (h0 : Fit L s0 s) :
    ∀ post, execDmcRefresh pc s = .next post → Fit L s0 post := by
  unfold execDmcRefresh
  refine ok_fit ?_
  repeat' (first
    | with_reducible assumption
    | intro _
    | (extract_lets +onlyGivenNames x; have y := x; first | (guard_hyp y : State; clear y; refine Fit.seq L s0 x ?_ ?_; rotate_left; intro hx; clear_value x; rotate_left; dsimp -zeta only [x]; clear x) | (clear y; clear_value x))
    | with_reducible apply onPc_fit (In.trans (by decide) hL)
    | with_reducible apply onDmc_fit (In.trans (by decide) hL)
    | (with_reducible apply Fit.ite <;> intro _)
    | split)

theorem execDmcPageIdleExpiry_fit {L : Nat} {s0 : State} {pc : Fin 64} {bank : Fin 32} {s : State} (hL : In 0x200020 L) (h0 : Fit L s0 s) :
    ∀ post, execDmcPageIdleExpiry pc bank s = .next post → Fit L s0 post := by
  unfold execDmcPageIdleExpiry
  refine ok_fit ?_
  repeat' (first
    | with_reducible assumption
    | intro _
    | (extract_lets +onlyGivenNames x; have y := x; first | (guard_hyp y : State; clear y; refine Fit.seq L s0 x ?_ ?_; rotate_left; intro hx; clear_value x; rotate_left; dsimp -zeta only [x]; clear x) | ((first | (guard_hyp y : _ → State; clear y) | (guard_hyp y : _ → _ → State; clear y) | (guard_hyp y : _ → _ → _ → State; clear y)); dsimp -zeta only [x]; clear x) | (clear y; clear_value x))
    | with_reducible apply advanceRef_fit (In.trans (by decide) hL)
    | with_reducible apply onDmc_fit (In.trans (by decide) hL)
    | split)

theorem execFenceMigrationStart_fit {L : Nat} {s0 : State} {s : State} (hL : In 0x200000 L) (h0 : Fit L s0 s) :
    ∀ post, execFenceMigrationStart s = .next post → Fit L s0 post := by
  unfold execFenceMigrationStart
  refine ok_fit ?_
  repeat' (first
    | with_reducible assumption
    | intro _
    | (extract_lets +onlyGivenNames x; have y := x; first | (guard_hyp y : State; clear y; refine Fit.seq L s0 x ?_ ?_; rotate_left; intro hx; clear_value x; rotate_left; dsimp -zeta only [x]; clear x) | (clear y; clear_value x))
    | with_reducible apply onDmc_fit (In.trans (by decide) hL)
    | (with_reducible apply Fit.ite <;> intro _)
    | split)

theorem execDmcFenced_fit {L : Nat} {s0 : State} {s : State} (hL : In 0x6A01F42 L) (h0 : Fit L s0 s) :
    ∀ post, execDmcFenced s = .next post → Fit L s0 post := by
  unfold execDmcFenced
  refine ok_fit ?_
  repeat' (first
    | with_reducible assumption
    | intro _
    | (extract_lets +onlyGivenNames x; have y := x; first | (guard_hyp y : State; clear y; refine Fit.seq L s0 x ?_ ?_; rotate_left; intro hx; clear_value x; rotate_left; dsimp -zeta only [x]; clear x) | (clear y; clear_value x))
    | with_reducible apply raise_fit (In.trans (by decide) hL)
    | with_reducible apply stepDown_fit (In.trans (by decide) hL)
    | with_reducible apply onDmc_fit (In.trans (by decide) hL)
    | (with_reducible apply Fit.erase (In.trans (by decide) hL))
    | (with_reducible apply Fit.ite <;> intro _)
    | split)

theorem execDmcFault_fit {L : Nat} {s0 : State} {s : State} (hL : In 0xFFFFFFE L) (h0 : Fit L s0 s) :
    ∀ post, execDmcFault s = .next post → Fit L s0 post := by
  unfold execDmcFault
  refine ok_fit ?_
  repeat' (first
    | with_reducible assumption
    | with_reducible apply faultOf_fit (In.trans (by decide) hL)
    | (with_reducible apply Fit.ite <;> intro _))

theorem touchRow_fit {L : Nat} {s0 : State} {o : Nat} {s : State} (hL : In 0x200000 L) (h0 : Fit L s0 s) :
    Fit L s0 (touchRow o s) := by
  unfold touchRow
  repeat' (first
    | with_reducible assumption
    | intro _
    | (extract_lets +onlyGivenNames x; have y := x; first | (guard_hyp y : State; clear y; refine Fit.seq L s0 x ?_ ?_; rotate_left; intro hx; clear_value x; rotate_left; dsimp -zeta only [x]; clear x) | (clear y; clear_value x))
    | with_reducible apply onDmc_fit (In.trans (by decide) hL)
    | (with_reducible apply Fit.ite <;> intro _)
    | split)

theorem touchRows_fit {L : Nat} {s0 : State} {o n : Nat} {s : State} (hL : In 0x200000 L) (h0 : Fit L s0 s) :
    Fit L s0 (touchRows o n s) := by
  unfold touchRows
  repeat' (first
    | with_reducible assumption
    | intro _
    | with_reducible apply touchRow_fit (In.trans (by decide) hL)
    | (with_reducible apply Fit.foldl))

theorem execBar2Read_fit {L : Nat} {s0 : State} {off : U64} {len : Byte} {errs : List MemErr} {s : State} (hL : In 0xFFFFFFE L) (h0 : Fit L s0 s) :
    ∀ post, execBar2Read off len errs s = .next post → Fit L s0 post := by
  unfold execBar2Read
  refine ok_fit ?_
  repeat' (first
    | with_reducible assumption
    | intro _
    | (extract_lets +onlyGivenNames x; have y := x; first | (guard_hyp y : State; clear y; refine Fit.seq L s0 x ?_ ?_; rotate_left; intro hx; clear_value x; rotate_left; dsimp -zeta only [x]; clear x) | (guard_hyp y : CmdSt; clear y; dsimp -zeta only [x]; clear x) | (clear y; clear_value x))
    | with_reducible apply emit_fit (In.trans (by decide) hL)
    | with_reducible apply raiseIf_fit (In.trans (by decide) hL)
    | with_reducible apply memErrors_fit (In.trans (by decide) hL)
    | with_reducible apply touchRows_fit (In.trans (by decide) hL)
    | (with_reducible apply Fit.ite <;> intro _)
    | split)

theorem execBar2Write_fit {L : Nat} {s0 : State} {off : U64} {data : List Byte} {s : State} (hL : In 0xA01C02 L) (h0 : Fit L s0 s) :
    ∀ post, execBar2Write off data s = .next post → Fit L s0 post := by
  unfold execBar2Write
  refine ok_fit ?_
  repeat' (first
    | with_reducible assumption
    | intro _
    | (extract_lets +onlyGivenNames x; have y := x; first | (guard_hyp y : State; clear y; refine Fit.seq L s0 x ?_ ?_; rotate_left; intro hx; clear_value x; rotate_left; dsimp -zeta only [x]; clear x) | (guard_hyp y : CmdSt; clear y; dsimp -zeta only [x]; clear x) | (clear y; clear_value x))
    | with_reducible apply raiseIf_fit (In.trans (by decide) hL)
    | with_reducible apply touchRows_fit (In.trans (by decide) hL)
    | (with_reducible apply Fit.puts (In.trans (by decide) hL))
    | (with_reducible apply Fit.ite <;> intro _)
    | (with_reducible apply Fit.foldl)
    | split)

end Sys2Proof.Machine
end

