-- ==== Sys2Proof/Laws/FitSecurity.lean ====
section
/-! SUPPORT. What each definition of Machine/Security.lean touches, and that it keeps the invariant: one lemma each. -/

set_option Elab.async false
set_option linter.all false

namespace Sys2Proof.Machine

theorem setChallenge_fit {L : Nat} {s0 : State} {m : Master} {c : Option Challenge} {s : State} (hL : In 0x8000000 L) (h0 : Fit L s0 s) :
    Fit L s0 (setChallenge m c s) := by
  unfold setChallenge
  repeat' (first
    | with_reducible assumption
    | intro _
    | (extract_lets +onlyGivenNames x; have y := x; first | (guard_hyp y : State; clear y; refine Fit.seq L s0 x ?_ ?_; rotate_left; intro hx; clear_value x; rotate_left; dsimp -zeta only [x]; clear x) | (clear y; clear_value x))
    | with_reducible apply onSec_fit (In.trans (by decide) hL)
    | split)

theorem giveAuth_fit {L : Nat} {s0 : State} {m : Master} {s : State} (hL : In 0x8000000 L) (h0 : Fit L s0 s) :
    Fit L s0 (giveAuth m s) := by
  unfold giveAuth
  repeat' (first
    | with_reducible assumption
    | intro _
    | (extract_lets +onlyGivenNames x; have y := x; first | (guard_hyp y : State; clear y; refine Fit.seq L s0 x ?_ ?_; rotate_left; intro hx; clear_value x; rotate_left; dsimp -zeta only [x]; clear x) | (clear y; clear_value x))
    | with_reducible apply onSec_fit (In.trans (by decide) hL)
    | split)

theorem rowLifeGet_fit {L : Nat} {h : Hdr} (hL : In 0x800E02 L) :
    RowFit L (rowLifeGet h) := by
  refine ⟨fun s0 s h0 => ?_, fun s0 s h0 => ?_⟩ <;> unfold rowLifeGet <;> try dsimp -zeta only [id]
  repeat' (first
    | with_reducible assumption
    | intro _
    | with_reducible apply finish_fit (In.trans (by decide) hL)
    | (dsimp -zeta only [id])
    | (with_reducible apply Fit.of_snd; case e => with_reducible assumption)
    | (with_reducible apply Fit.of_fst; case e => with_reducible assumption))

theorem execLifeGet_fit {L : Nat} {s0 : State} {h : Hdr} {s : State} (hL : In 0x4800E02 L) (h0 : Fit L s0 s) :
    ∀ post, execLifeGet h s = .next post → Fit L s0 post := by
  unfold execLifeGet
  refine ok_fit ?_
  repeat' (first
    | with_reducible assumption
    | with_reducible apply command_fit (In.trans (by decide) hL)
    | with_reducible apply rowLifeGet_fit (In.trans (by decide) hL))

theorem rowChallengeGetNew_fit {L : Nat} {h : Hdr} {p : ChallengeGetP} (hL : In 0x8800E06 L) :
    RowFit L (rowChallengeGetNew h p) := by
  refine ⟨fun s0 s h0 => ?_, fun s0 s h0 => ?_⟩ <;> unfold rowChallengeGetNew <;> try dsimp -zeta only [id]
  repeat' (first
    | with_reducible assumption
    | intro _
    | (extract_lets +onlyGivenNames x; have y := x; first | (guard_hyp y : State; clear y; refine Fit.seq L s0 x ?_ ?_; rotate_left; intro hx; clear_value x; rotate_left; dsimp -zeta only [x]; clear x) | (clear y; clear_value x))
    | with_reducible apply drawn_fit (In.trans (by decide) hL)
    | with_reducible apply finish_fit (In.trans (by decide) hL)
    | with_reducible apply setChallenge_fit (In.trans (by decide) hL)
    | (dsimp -zeta only [id])
    | (with_reducible apply Fit.of_snd; case e => with_reducible assumption)
    | (with_reducible apply Fit.of_fst; case e => with_reducible assumption))

theorem execChallengeGetNew_fit {L : Nat} {s0 : State} {h : Hdr} {p : ChallengeGetP} {s : State} (hL : In 0xC800E06 L) (h0 : Fit L s0 s) :
    ∀ post, execChallengeGetNew h p s = .next post → Fit L s0 post := by
  unfold execChallengeGetNew
  refine ok_fit ?_
  repeat' (first
    | with_reducible assumption
    | with_reducible apply command_fit (In.trans (by decide) hL)
    | with_reducible apply rowChallengeGetNew_fit (In.trans (by decide) hL))

theorem rowChallengeGetPart_fit {L : Nat} {h : Hdr} {p : ChallengeGetP} (hL : In 0x800E02 L) :
    RowFit L (rowChallengeGetPart h p) := by
  refine ⟨fun s0 s h0 => ?_, fun s0 s h0 => ?_⟩ <;> unfold rowChallengeGetPart <;> try dsimp -zeta only [id]
  repeat' (first
    | with_reducible assumption
    | intro _
    | (extract_lets +onlyGivenNames x; have y := x; first | (guard_hyp y : State; clear y; refine Fit.seq L s0 x ?_ ?_; rotate_left; intro hx; clear_value x; rotate_left; dsimp -zeta only [x]; clear x) | (clear y; clear_value x))
    | with_reducible apply finish_fit (In.trans (by decide) hL)
    | (dsimp -zeta only [id])
    | (with_reducible apply Fit.of_snd; case e => with_reducible assumption)
    | (with_reducible apply Fit.of_fst; case e => with_reducible assumption)
    | split)

theorem execChallengeGetPart_fit {L : Nat} {s0 : State} {h : Hdr} {p : ChallengeGetP} {s : State} (hL : In 0x4800E02 L) (h0 : Fit L s0 s) :
    ∀ post, execChallengeGetPart h p s = .next post → Fit L s0 post := by
  unfold execChallengeGetPart
  refine ok_fit ?_
  repeat' (first
    | with_reducible assumption
    | with_reducible apply command_fit (In.trans (by decide) hL)
    | with_reducible apply rowChallengeGetPart_fit (In.trans (by decide) hL))

theorem authPass_fit {L : Nat} {s0 : State} {h : Hdr} {opc purpose : Nat} {s : State} (hL : In 0x9800E02 L) (h0 : Fit L s0 s) :
    Fit L s0 (authPass h opc purpose s) := by
  unfold authPass
  repeat' (first
    | with_reducible assumption
    | intro _
    | (extract_lets +onlyGivenNames x; have y := x; first | (guard_hyp y : State; clear y; refine Fit.seq L s0 x ?_ ?_; rotate_left; intro hx; clear_value x; rotate_left; dsimp -zeta only [x]; clear x) | (clear y; clear_value x))
    | with_reducible apply raise_fit (In.trans (by decide) hL)
    | with_reducible apply finish_fit (In.trans (by decide) hL)
    | with_reducible apply counterSet_fit (In.trans (by decide) hL)
    | with_reducible apply onSec_fit (In.trans (by decide) hL)
    | with_reducible apply giveAuth_fit (In.trans (by decide) hL)
    | (with_reducible apply Fit.ite <;> intro _)
    | split)

theorem authFail_fit {L : Nat} {s0 : State} {h : Hdr} {opc : Nat} {s : State} (hL : In 0x9800E02 L) (h0 : Fit L s0 s) :
    Fit L s0 (authFail h opc s) := by
  unfold authFail
  repeat' (first
    | with_reducible assumption
    | intro _
    | (extract_lets +onlyGivenNames x; have y := x; first | (guard_hyp y : State; clear y; refine Fit.seq L s0 x ?_ ?_; rotate_left; intro hx; clear_value x; rotate_left; dsimp -zeta only [x]; clear x) | (clear y; clear_value x))
    | with_reducible apply raise_fit (In.trans (by decide) hL)
    | with_reducible apply finish_fit (In.trans (by decide) hL)
    | with_reducible apply counterSet_fit (In.trans (by decide) hL)
    | with_reducible apply onSec_fit (In.trans (by decide) hL)
    | (with_reducible apply Fit.ite <;> intro _)
    | split)

theorem rowResponsePut_fit {L : Nat} {h : Hdr} {p : ResponsePutP} (hL : In 0x9800E02 L) :
    RowFit L (rowResponsePut h p) := by
  refine ⟨fun s0 s h0 => ?_, fun s0 s h0 => ?_⟩ <;> unfold rowResponsePut <;> try dsimp -zeta only [id]
  repeat' (first
    | with_reducible assumption
    | intro _
    | (extract_lets +onlyGivenNames x; have y := x; first | (guard_hyp y : State; clear y; refine Fit.seq L s0 x ?_ ?_; rotate_left; intro hx; clear_value x; rotate_left; dsimp -zeta only [x]; clear x) | (clear y; clear_value x))
    | with_reducible apply setChallenge_fit (In.trans (by decide) hL)
    | with_reducible apply authPass_fit (In.trans (by decide) hL)
    | with_reducible apply authFail_fit (In.trans (by decide) hL)
    | (with_reducible apply Fit.ite <;> intro _)
    | (dsimp -zeta only [id])
    | (with_reducible apply Fit.of_snd; case e => with_reducible assumption)
    | (with_reducible apply Fit.of_fst; case e => with_reducible assumption)
    | split)

theorem execResponsePut_fit {L : Nat} {s0 : State} {h : Hdr} {p : ResponsePutP} {s : State} (hL : In 0xD800E02 L) (h0 : Fit L s0 s) :
    ∀ post, execResponsePut h p s = .next post → Fit L s0 post := by
  unfold execResponsePut
  refine ok_fit ?_
  repeat' (first
    | with_reducible assumption
    | with_reducible apply command_fit (In.trans (by decide) hL)
    | with_reducible apply rowResponsePut_fit (In.trans (by decide) hL))

theorem rowPasswordPut_fit {L : Nat} {h : Hdr} {p : PasswordPutP} (hL : In 0x9800E02 L) :
    RowFit L (rowPasswordPut h p) := by
  refine ⟨fun s0 s h0 => ?_, fun s0 s h0 => ?_⟩ <;> unfold rowPasswordPut <;> try dsimp -zeta only [id]
  repeat' (first
    | with_reducible assumption
    | intro _
    | (extract_lets +onlyGivenNames x; have y := x; first | (guard_hyp y : State; clear y; refine Fit.seq L s0 x ?_ ?_; rotate_left; intro hx; clear_value x; rotate_left; dsimp -zeta only [x]; clear x) | (clear y; clear_value x))
    | with_reducible apply authPass_fit (In.trans (by decide) hL)
    | with_reducible apply authFail_fit (In.trans (by decide) hL)
    | (with_reducible apply Fit.ite <;> intro _)
    | (dsimp -zeta only [id])
    | (with_reducible apply Fit.of_snd; case e => with_reducible assumption)
    | (with_reducible apply Fit.of_fst; case e => with_reducible assumption)
    | split)

theorem execPasswordPut_fit {L : Nat} {s0 : State} {h : Hdr} {p : PasswordPutP} {s : State} (hL : In 0xD800E02 L) (h0 : Fit L s0 s) :
    ∀ post, execPasswordPut h p s = .next post → Fit L s0 post := by
  unfold execPasswordPut
  refine ok_fit ?_
  repeat' (first
    | with_reducible assumption
    | with_reducible apply command_fit (In.trans (by decide) hL)
    | with_reducible apply rowPasswordPut_fit (In.trans (by decide) hL))

theorem execFieldOpenExpiry_fit {L : Nat} {s0 : State} {s : State} (hL : In 0x8800C26 L) (h0 : Fit L s0 s) :
    ∀ post, execFieldOpenExpiry s = .next post → Fit L s0 post := by
  unfold execFieldOpenExpiry
  refine ok_fit ?_
  repeat' (first
    | with_reducible assumption
    | (extract_lets +onlyGivenNames x; have y := x; first | (guard_hyp y : State; clear y; refine Fit.seq L s0 x ?_ ?_; rotate_left; intro hx; clear_value x; rotate_left; dsimp -zeta only [x]; clear x) | (clear y; clear_value x))
    | with_reducible apply advanceRef_fit (In.trans (by decide) hL)
    | with_reducible apply endFieldOpen_fit (In.trans (by decide) hL)
    | split)

theorem blowTrims_fit {L : Nat} {s0 : State} {trims : List U16} {s : State} (hL : In 0x8000000 L) (h0 : Fit L s0 s) :
    Fit L s0 (blowTrims trims s) := by
  unfold blowTrims
  repeat' (first
    | with_reducible assumption
    | intro _
    | (extract_lets +onlyGivenNames x; have y := x; first | (guard_hyp y : State; clear y; refine Fit.seq L s0 x ?_ ?_; rotate_left; intro hx; clear_value x; rotate_left; dsimp -zeta only [x]; clear x) | (clear y; clear_value x))
    | with_reducible apply onSec_fit (In.trans (by decide) hL)
    | (with_reducible apply Fit.ite <;> intro _)
    | split)

theorem plainReset_fit {L : Nat} {s0 : State} {leave : Bool} {s : State} (hL : In 0xFFFFFFE L) (h0 : Fit L s0 s) :
    Fit L s0 (plainReset leave s) := by
  unfold plainReset
  repeat' (first
    | with_reducible assumption
    | with_reducible apply decideRecov_fit (In.trans (by decide) hL))

theorem runLife_fit {L : Nat} {s0 : State} {h : Hdr} {p : LifeAdvanceP} {cut : Option LifeCut} {s : State} (hL : In 0xFFFFFFE L) (h0 : Fit L s0 s) :
    Fit L s0 (runLife h p cut s) := by
  unfold runLife
  repeat' (first
    | with_reducible assumption
    | intro _
    | (extract_lets +onlyGivenNames x; have y := x; first | (guard_hyp y : State; clear y; refine Fit.seq L s0 x ?_ ?_; rotate_left; intro hx; clear_value x; rotate_left; dsimp -zeta only [x]; clear x) | (clear y; clear_value x))
    | with_reducible apply raise_fit (In.trans (by decide) hL)
    | with_reducible apply finish_fit (In.trans (by decide) hL)
    | with_reducible apply onSec_fit (In.trans (by decide) hL)
    | with_reducible apply endFieldOpen_fit (In.trans (by decide) hL)
    | with_reducible apply lifeErase_fit (In.trans (by decide) hL)
    | with_reducible apply plainReset_fit (In.trans (by decide) hL)
    | (with_reducible apply Fit.ite <;> intro _)
    | split)

theorem rowLifeAdvance_fit {L : Nat} {h : Hdr} {p : LifeAdvanceP} {trims : List U16} {cut : Option LifeCut} (hL : In 0xFFFFFFE L) :
    RowFit L (rowLifeAdvance h p trims cut) := by
  refine ⟨fun s0 s h0 => ?_, fun s0 s h0 => ?_⟩ <;> unfold rowLifeAdvance <;> try dsimp -zeta only [id]
  repeat' (first
    | with_reducible assumption
    | with_reducible apply blowTrims_fit (In.trans (by decide) hL)
    | with_reducible apply runLife_fit (In.trans (by decide) hL)
    | (dsimp -zeta only [id])
    | (with_reducible apply Fit.of_snd; case e => with_reducible assumption)
    | (with_reducible apply Fit.of_fst; case e => with_reducible assumption))

theorem execLifeAdvance_fit {L : Nat} {s0 : State} {h : Hdr} {p : LifeAdvanceP} {trims : List U16} {cut : Option LifeCut} {s : State} (hL : In 0xFFFFFFE L) (h0 : Fit L s0 s) :
    ∀ post, execLifeAdvance h p trims cut s = .next post → Fit L s0 post := by
  unfold execLifeAdvance
  refine ok_fit ?_
  repeat' (first
    | with_reducible assumption
    | with_reducible apply command_fit (In.trans (by decide) hL)
    | with_reducible apply rowLifeAdvance_fit (In.trans (by decide) hL))

theorem rowKeyInstallOwnerKey_fit {L : Nat} {h : Hdr} {p : KeyInstallP} (hL : In 0x1800E02 L) :
    RowFit L (rowKeyInstallOwnerKey h p) := by
  refine ⟨fun s0 s h0 => ?_, fun s0 s h0 => ?_⟩ <;> unfold rowKeyInstallOwnerKey <;> try dsimp -zeta only [id]
  repeat' (first
    | with_reducible assumption
    | intro _
    | (extract_lets +onlyGivenNames x; have y := x; first | (guard_hyp y : State; clear y; refine Fit.seq L s0 x ?_ ?_; rotate_left; intro hx; clear_value x; rotate_left; dsimp -zeta only [x]; clear x) | (clear y; clear_value x))
    | with_reducible apply finish_fit (In.trans (by decide) hL)
    | with_reducible apply nvOwn_fit (In.trans (by decide) hL)
    | (dsimp -zeta only [id])
    | (with_reducible apply Fit.of_snd; case e => with_reducible assumption)
    | (with_reducible apply Fit.of_fst; case e => with_reducible assumption))

theorem execKeyInstallOwnerKey_fit {L : Nat} {s0 : State} {h : Hdr} {p : KeyInstallP} {s : State} (hL : In 0x5800E02 L) (h0 : Fit L s0 s) :
    ∀ post, execKeyInstallOwnerKey h p s = .next post → Fit L s0 post := by
  unfold execKeyInstallOwnerKey
  refine ok_fit ?_
  repeat' (first
    | with_reducible assumption
    | with_reducible apply command_fit (In.trans (by decide) hL)
    | with_reducible apply rowKeyInstallOwnerKey_fit (In.trans (by decide) hL))

theorem rowKeyInstallFleetKey_fit {L : Nat} {h : Hdr} {p : KeyInstallP} (hL : In 0x1800E02 L) :
    RowFit L (rowKeyInstallFleetKey h p) := by
  refine ⟨fun s0 s h0 => ?_, fun s0 s h0 => ?_⟩ <;> unfold rowKeyInstallFleetKey <;> try dsimp -zeta only [id]
  repeat' (first
    | with_reducible assumption
    | intro _
    | (extract_lets +onlyGivenNames x; have y := x; first | (guard_hyp y : State; clear y; refine Fit.seq L s0 x ?_ ?_; rotate_left; intro hx; clear_value x; rotate_left; dsimp -zeta only [x]; clear x) | (clear y; clear_value x))
    | with_reducible apply finish_fit (In.trans (by decide) hL)
    | with_reducible apply nvOwn_fit (In.trans (by decide) hL)
    | (dsimp -zeta only [id])
    | (with_reducible apply Fit.of_snd; case e => with_reducible assumption)
    | (with_reducible apply Fit.of_fst; case e => with_reducible assumption))

theorem execKeyInstallFleetKey_fit {L : Nat} {s0 : State} {h : Hdr} {p : KeyInstallP} {s : State} (hL : In 0x5800E02 L) (h0 : Fit L s0 s) :
    ∀ post, execKeyInstallFleetKey h p s = .next post → Fit L s0 post := by
  unfold execKeyInstallFleetKey
  refine ok_fit ?_
  repeat' (first
    | with_reducible assumption
    | with_reducible apply command_fit (In.trans (by decide) hL)
    | with_reducible apply rowKeyInstallFleetKey_fit (In.trans (by decide) hL))

theorem rowKeyInstallPassword_fit {L : Nat} {h : Hdr} {p : KeyInstallP} (hL : In 0x1800E06 L) :
    RowFit L (rowKeyInstallPassword h p) := by
  refine ⟨fun s0 s h0 => ?_, fun s0 s h0 => ?_⟩ <;> unfold rowKeyInstallPassword <;> try dsimp -zeta only [id]
  repeat' (first
    | with_reducible assumption
    | intro _
    | (extract_lets +onlyGivenNames x; have y := x; first | (guard_hyp y : State; clear y; refine Fit.seq L s0 x ?_ ?_; rotate_left; intro hx; clear_value x; rotate_left; dsimp -zeta only [x]; clear x) | (clear y; clear_value x))
    | with_reducible apply drawn_fit (In.trans (by decide) hL)
    | with_reducible apply finish_fit (In.trans (by decide) hL)
    | with_reducible apply nvPut_fit (In.trans (by decide) hL)
    | (dsimp -zeta only [id])
    | (with_reducible apply Fit.of_snd; case e => with_reducible assumption)
    | (with_reducible apply Fit.of_fst; case e => with_reducible assumption)
    | split)

theorem execKeyInstallPassword_fit {L : Nat} {s0 : State} {h : Hdr} {p : KeyInstallP} {s : State} (hL : In 0x5800E06 L) (h0 : Fit L s0 s) :
    ∀ post, execKeyInstallPassword h p s = .next post → Fit L s0 post := by
  unfold execKeyInstallPassword
  refine ok_fit ?_
  repeat' (first
    | with_reducible assumption
    | with_reducible apply command_fit (In.trans (by decide) hL)
    | with_reducible apply rowKeyInstallPassword_fit (In.trans (by decide) hL))

theorem rowKeyInstallRemovePassword_fit {L : Nat} {h : Hdr} {p : KeyInstallP} (hL : In 0x1800E02 L) :
    RowFit L (rowKeyInstallRemovePassword h p) := by
  refine ⟨fun s0 s h0 => ?_, fun s0 s h0 => ?_⟩ <;> unfold rowKeyInstallRemovePassword <;> try dsimp -zeta only [id]
  repeat' (first
    | with_reducible assumption
    | intro _
    | (extract_lets +onlyGivenNames x; have y := x; first | (guard_hyp y : State; clear y; refine Fit.seq L s0 x ?_ ?_; rotate_left; intro hx; clear_value x; rotate_left; dsimp -zeta only [x]; clear x) | (clear y; clear_value x))
    | with_reducible apply finish_fit (In.trans (by decide) hL)
    | with_reducible apply nvDelete_fit (In.trans (by decide) hL)
    | (with_reducible apply Fit.ite <;> intro _)
    | (dsimp -zeta only [id])
    | (with_reducible apply Fit.of_snd; case e => with_reducible assumption)
    | (with_reducible apply Fit.of_fst; case e => with_reducible assumption)
    | split)

theorem execKeyInstallRemovePassword_fit {L : Nat} {s0 : State} {h : Hdr} {p : KeyInstallP} {s : State} (hL : In 0x5800E02 L) (h0 : Fit L s0 s) :
    ∀ post, execKeyInstallRemovePassword h p s = .next post → Fit L s0 post := by
  unfold execKeyInstallRemovePassword
  refine ok_fit ?_
  repeat' (first
    | with_reducible assumption
    | with_reducible apply command_fit (In.trans (by decide) hL)
    | with_reducible apply rowKeyInstallRemovePassword_fit (In.trans (by decide) hL))

theorem rowAttestQuoteForm_fit {L : Nat} {h : Hdr} {p : AttestP} (hL : In 0x8801E06 L) :
    RowFit L (rowAttestQuoteForm h p) := by
  refine ⟨fun s0 s h0 => ?_, fun s0 s h0 => ?_⟩ <;> unfold rowAttestQuoteForm <;> try dsimp -zeta only [id]
  repeat' (first
    | with_reducible assumption
    | intro _
    | (extract_lets +onlyGivenNames x; have y := x; first | (guard_hyp y : State; clear y; refine Fit.seq L s0 x ?_ ?_; rotate_left; intro hx; clear_value x; rotate_left; dsimp -zeta only [x]; clear x) | (clear y; clear_value x))
    | with_reducible apply emit_fit (In.trans (by decide) hL)
    | with_reducible apply drawn_fit (In.trans (by decide) hL)
    | with_reducible apply devWrite_fit (In.trans (by decide) hL)
    | with_reducible apply finish_fit (In.trans (by decide) hL)
    | with_reducible apply onSec_fit (In.trans (by decide) hL)
    | (with_reducible apply Fit.ite <;> intro _)
    | (dsimp -zeta only [id])
    | (with_reducible apply Fit.of_snd; case e => with_reducible assumption)
    | (with_reducible apply Fit.of_fst; case e => with_reducible assumption)
    | split)

theorem execAttestQuoteForm_fit {L : Nat} {s0 : State} {h : Hdr} {p : AttestP} {s : State} (hL : In 0xC801E06 L) (h0 : Fit L s0 s) :
    ∀ post, execAttestQuoteForm h p s = .next post → Fit L s0 post := by
  unfold execAttestQuoteForm
  refine ok_fit ?_
  repeat' (first
    | with_reducible assumption
    | with_reducible apply command_fit (In.trans (by decide) hL)
    | with_reducible apply rowAttestQuoteForm_fit (In.trans (by decide) hL))

theorem rowAttestQuotePart_fit {L : Nat} {h : Hdr} {p : AttestP} (hL : In 0x800E02 L) :
    RowFit L (rowAttestQuotePart h p) := by
  refine ⟨fun s0 s h0 => ?_, fun s0 s h0 => ?_⟩ <;> unfold rowAttestQuotePart <;> try dsimp -zeta only [id]
  repeat' (first
    | with_reducible assumption
    | intro _
    | (extract_lets +onlyGivenNames x; have y := x; first | (guard_hyp y : State; clear y; refine Fit.seq L s0 x ?_ ?_; rotate_left; intro hx; clear_value x; rotate_left; dsimp -zeta only [x]; clear x) | (clear y; clear_value x))
    | with_reducible apply finish_fit (In.trans (by decide) hL)
    | (dsimp -zeta only [id])
    | (with_reducible apply Fit.of_snd; case e => with_reducible assumption)
    | (with_reducible apply Fit.of_fst; case e => with_reducible assumption)
    | split)

theorem execAttestQuotePart_fit {L : Nat} {s0 : State} {h : Hdr} {p : AttestP} {s : State} (hL : In 0x4800E02 L) (h0 : Fit L s0 s) :
    ∀ post, execAttestQuotePart h p s = .next post → Fit L s0 post := by
  unfold execAttestQuotePart
  refine ok_fit ?_
  repeat' (first
    | with_reducible assumption
    | with_reducible apply command_fit (In.trans (by decide) hL)
    | with_reducible apply rowAttestQuotePart_fit (In.trans (by decide) hL))

end Sys2Proof.Machine
end

