-- ==== Sys2Proof/Laws/FitFirmware.lean ====
section
/-! SUPPORT. What each definition of Machine/Firmware.lean touches, and that it keeps the invariant: one lemma each. -/

set_option Elab.async false
set_option linter.all false

namespace Sys2Proof.Machine

theorem setImage_fit {L : Nat} {s0 : State} {n : Nat} {m : FwImage} {s : State} (hL : In 0x8000000 L) (h0 : Fit L s0 s) :
    Fit L s0 (setImage n m s) := by
  unfold setImage
  repeat' (first
    | with_reducible assumption
    | intro _
    | (extract_lets +onlyGivenNames x; have y := x; first | (guard_hyp y : State; clear y; refine Fit.seq L s0 x ?_ ?_; rotate_left; intro hx; clear_value x; rotate_left; dsimp -zeta only [x]; clear x) | (clear y; clear_value x))
    | with_reducible apply onSec_fit (In.trans (by decide) hL)
    | (with_reducible apply Fit.ite <;> intro _)
    | split)

theorem rowFwBegin_fit {L : Nat} {h : Hdr} {p : FwBeginP} (hL : In 0x9800E02 L) :
    RowFit L (rowFwBegin h p) := by
  refine ⟨fun s0 s h0 => ?_, fun s0 s h0 => ?_⟩ <;> unfold rowFwBegin <;> try dsimp -zeta only [id]
  repeat' (first
    | with_reducible assumption
    | intro _
    | (extract_lets +onlyGivenNames x; have y := x; first | (guard_hyp y : State; clear y; refine Fit.seq L s0 x ?_ ?_; rotate_left; intro hx; clear_value x; rotate_left; dsimp -zeta only [x]; clear x) | (clear y; clear_value x))
    | with_reducible apply accepted_fit (In.trans (by decide) hL)
    | with_reducible apply onSec_fit (In.trans (by decide) hL)
    | with_reducible apply putBoot_fit (In.trans (by decide) hL)
    | with_reducible apply setImage_fit (In.trans (by decide) hL)
    | (with_reducible apply Fit.ite <;> intro _)
    | (dsimp -zeta only [id])
    | (with_reducible apply Fit.of_snd; case e => with_reducible assumption)
    | (with_reducible apply Fit.of_fst; case e => with_reducible assumption)
    | split)

theorem execFwBegin_fit {L : Nat} {s0 : State} {h : Hdr} {p : FwBeginP} {s : State} (hL : In 0xD800E02 L) (h0 : Fit L s0 s) :
    ∀ post, execFwBegin h p s = .next post → Fit L s0 post := by
  unfold execFwBegin
  refine ok_fit ?_
  repeat' (first
    | with_reducible assumption
    | with_reducible apply command_fit (In.trans (by decide) hL)
    | with_reducible apply rowFwBegin_fit (In.trans (by decide) hL))

theorem execFwEraseDone_fit {L : Nat} {s0 : State} {s : State} (hL : In 0x8800E02 L) (h0 : Fit L s0 s) :
    ∀ post, execFwEraseDone s = .next post → Fit L s0 post := by
  unfold execFwEraseDone
  refine ok_fit ?_
  repeat' (first
    | with_reducible assumption
    | intro _
    | (extract_lets +onlyGivenNames x; have y := x; first | (guard_hyp y : State; clear y; refine Fit.seq L s0 x ?_ ?_; rotate_left; intro hx; clear_value x; rotate_left; dsimp -zeta only [x]; clear x) | (clear y; clear_value x))
    | with_reducible apply finish_fit (In.trans (by decide) hL)
    | with_reducible apply onSec_fit (In.trans (by decide) hL)
    | split)

theorem rowFwChunk_fit {L : Nat} {h : Hdr} {p : FwChunkP} {fails : Bool} (hL : In 0x9800E02 L) :
    RowFit L (rowFwChunk h p fails) := by
  refine ⟨fun s0 s h0 => ?_, fun s0 s h0 => ?_⟩ <;> unfold rowFwChunk <;> try dsimp -zeta only [id]
  repeat' (first
    | with_reducible assumption
    | intro _
    | (extract_lets +onlyGivenNames x; have y := x; first | (guard_hyp y : State; clear y; refine Fit.seq L s0 x ?_ ?_; rotate_left; intro hx; clear_value x; rotate_left; dsimp -zeta only [x]; clear x) | (clear y; clear_value x))
    | with_reducible apply finish_fit (In.trans (by decide) hL)
    | with_reducible apply onSec_fit (In.trans (by decide) hL)
    | with_reducible apply putBoot_fit (In.trans (by decide) hL)
    | with_reducible apply setImage_fit (In.trans (by decide) hL)
    | (with_reducible apply Fit.ite <;> intro _)
    | (dsimp -zeta only [id])
    | (with_reducible apply Fit.of_snd; case e => with_reducible assumption)
    | (with_reducible apply Fit.of_fst; case e => with_reducible assumption)
    | split)

theorem execFwChunk_fit {L : Nat} {s0 : State} {h : Hdr} {p : FwChunkP} {fails : Bool} {s : State} (hL : In 0xD800E02 L) (h0 : Fit L s0 s) :
    ∀ post, execFwChunk h p fails s = .next post → Fit L s0 post := by
  unfold execFwChunk
  refine ok_fit ?_
  repeat' (first
    | with_reducible assumption
    | with_reducible apply command_fit (In.trans (by decide) hL)
    | with_reducible apply rowFwChunk_fit (In.trans (by decide) hL))

theorem rowFwCommit_fit {L : Nat} {h : Hdr} (hL : In 0x8800E02 L) :
    RowFit L (rowFwCommit h) := by
  refine ⟨fun s0 s h0 => ?_, fun s0 s h0 => ?_⟩ <;> unfold rowFwCommit <;> try dsimp -zeta only [id]
  repeat' (first
    | with_reducible assumption
    | intro _
    | (extract_lets +onlyGivenNames x; have y := x; first | (guard_hyp y : State; clear y; refine Fit.seq L s0 x ?_ ?_; rotate_left; intro hx; clear_value x; rotate_left; dsimp -zeta only [x]; clear x) | (clear y; clear_value x))
    | with_reducible apply accepted_fit (In.trans (by decide) hL)
    | with_reducible apply onSec_fit (In.trans (by decide) hL)
    | (dsimp -zeta only [id])
    | (with_reducible apply Fit.of_snd; case e => with_reducible assumption)
    | (with_reducible apply Fit.of_fst; case e => with_reducible assumption)
    | split)

theorem execFwCommit_fit {L : Nat} {s0 : State} {h : Hdr} {s : State} (hL : In 0xC800E02 L) (h0 : Fit L s0 s) :
    ∀ post, execFwCommit h s = .next post → Fit L s0 post := by
  unfold execFwCommit
  refine ok_fit ?_
  repeat' (first
    | with_reducible assumption
    | with_reducible apply command_fit (In.trans (by decide) hL)
    | with_reducible apply rowFwCommit_fit (In.trans (by decide) hL))

theorem execFwVerifyDone_fit {L : Nat} {s0 : State} {s : State} (hL : In 0x9800E02 L) (h0 : Fit L s0 s) :
    ∀ post, execFwVerifyDone s = .next post → Fit L s0 post := by
  unfold execFwVerifyDone
  refine ok_fit ?_
  repeat' (first
    | with_reducible assumption
    | intro _
    | (extract_lets +onlyGivenNames x; have y := x; first | (guard_hyp y : State; clear y; refine Fit.seq L s0 x ?_ ?_; rotate_left; intro hx; clear_value x; rotate_left; dsimp -zeta only [x]; clear x) | (clear y; clear_value x))
    | with_reducible apply finish_fit (In.trans (by decide) hL)
    | with_reducible apply onSec_fit (In.trans (by decide) hL)
    | with_reducible apply putBoot_fit (In.trans (by decide) hL)
    | with_reducible apply stageEvent_fit (In.trans (by decide) hL)
    | split)

theorem rowFwActivateArm_fit {L : Nat} {h : Hdr} {p : FwActivateP} (hL : In 0xFFFFFFE L) :
    RowFit L (rowFwActivateArm h p) := by
  refine ⟨fun s0 s h0 => ?_, fun s0 s h0 => ?_⟩ <;> unfold rowFwActivateArm <;> try dsimp -zeta only [id]
  repeat' (first
    | with_reducible assumption
    | intro _
    | (extract_lets +onlyGivenNames x; have y := x; first | (guard_hyp y : State; clear y; refine Fit.seq L s0 x ?_ ?_; rotate_left; intro hx; clear_value x; rotate_left; dsimp -zeta only [x]; clear x) | (clear y; clear_value x))
    | with_reducible apply finish_fit (In.trans (by decide) hL)
    | with_reducible apply putBoot_fit (In.trans (by decide) hL)
    | with_reducible apply plainReset_fit (In.trans (by decide) hL)
    | (with_reducible apply Fit.ite <;> intro _)
    | (dsimp -zeta only [id])
    | (with_reducible apply Fit.of_snd; case e => with_reducible assumption)
    | (with_reducible apply Fit.of_fst; case e => with_reducible assumption)
    | split)

theorem execFwActivateArm_fit {L : Nat} {s0 : State} {h : Hdr} {p : FwActivateP} {s : State} (hL : In 0xFFFFFFE L) (h0 : Fit L s0 s) :
    ∀ post, execFwActivateArm h p s = .next post → Fit L s0 post := by
  unfold execFwActivateArm
  refine ok_fit ?_
  repeat' (first
    | with_reducible assumption
    | with_reducible apply command_fit (In.trans (by decide) hL)
    | with_reducible apply rowFwActivateArm_fit (In.trans (by decide) hL))

theorem confirmCut_fit {L : Nat} {s0 : State} {n : Nat} {c : ConfirmCut} {s : State} (hL : In 0x9800C02 L) (h0 : Fit L s0 s) :
    Fit L s0 (confirmCut n c s) := by
  unfold confirmCut
  repeat' (first
    | with_reducible assumption
    | intro _
    | (extract_lets +onlyGivenNames x; have y := x; first | (guard_hyp y : State; clear y; refine Fit.seq L s0 x ?_ ?_; rotate_left; intro hx; clear_value x; rotate_left; dsimp -zeta only [x]; clear x) | (clear y; clear_value x))
    | with_reducible apply onSec_fit (In.trans (by decide) hL)
    | with_reducible apply putBoot_fit (In.trans (by decide) hL)
    | (with_reducible apply Fit.ite <;> intro _)
    | split)

theorem rowFwActivateConfirm_fit {L : Nat} {h : Hdr} {p : FwActivateP} {cut : Option ConfirmCut} (hL : In 0x9800E02 L) :
    RowFit L (rowFwActivateConfirm h p cut) := by
  refine ⟨fun s0 s h0 => ?_, fun s0 s h0 => ?_⟩ <;> unfold rowFwActivateConfirm <;> try dsimp -zeta only [id]
  repeat' (first
    | with_reducible assumption
    | intro _
    | (extract_lets +onlyGivenNames x; have y := x; first | (guard_hyp y : State; clear y; refine Fit.seq L s0 x ?_ ?_; rotate_left; intro hx; clear_value x; rotate_left; dsimp -zeta only [x]; clear x) | (clear y; clear_value x))
    | with_reducible apply finish_fit (In.trans (by decide) hL)
    | with_reducible apply confirmRunning_fit (In.trans (by decide) hL)
    | with_reducible apply confirmCut_fit (In.trans (by decide) hL)
    | (dsimp -zeta only [id])
    | (with_reducible apply Fit.of_snd; case e => with_reducible assumption)
    | (with_reducible apply Fit.of_fst; case e => with_reducible assumption)
    | split)

theorem execFwActivateConfirm_fit {L : Nat} {s0 : State} {h : Hdr} {p : FwActivateP} {cut : Option ConfirmCut} {s : State} (hL : In 0xD800E02 L) (h0 : Fit L s0 s) :
    ∀ post, execFwActivateConfirm h p cut s = .next post → Fit L s0 post := by
  unfold execFwActivateConfirm
  refine ok_fit ?_
  repeat' (first
    | with_reducible assumption
    | with_reducible apply command_fit (In.trans (by decide) hL)
    | with_reducible apply rowFwActivateConfirm_fit (In.trans (by decide) hL))

theorem rowFwActivateDisarm_fit {L : Nat} {h : Hdr} {p : FwActivateP} (hL : In 0x1800E02 L) :
    RowFit L (rowFwActivateDisarm h p) := by
  refine ⟨fun s0 s h0 => ?_, fun s0 s h0 => ?_⟩ <;> unfold rowFwActivateDisarm <;> try dsimp -zeta only [id]
  repeat' (first
    | with_reducible assumption
    | intro _
    | (extract_lets +onlyGivenNames x; have y := x; first | (guard_hyp y : State; clear y; refine Fit.seq L s0 x ?_ ?_; rotate_left; intro hx; clear_value x; rotate_left; dsimp -zeta only [x]; clear x) | (clear y; clear_value x))
    | with_reducible apply finish_fit (In.trans (by decide) hL)
    | with_reducible apply putBoot_fit (In.trans (by decide) hL)
    | (dsimp -zeta only [id])
    | (with_reducible apply Fit.of_snd; case e => with_reducible assumption)
    | (with_reducible apply Fit.of_fst; case e => with_reducible assumption))

theorem execFwActivateDisarm_fit {L : Nat} {s0 : State} {h : Hdr} {p : FwActivateP} {s : State} (hL : In 0x5800E02 L) (h0 : Fit L s0 s) :
    ∀ post, execFwActivateDisarm h p s = .next post → Fit L s0 post := by
  unfold execFwActivateDisarm
  refine ok_fit ?_
  repeat' (first
    | with_reducible assumption
    | with_reducible apply command_fit (In.trans (by decide) hL)
    | with_reducible apply rowFwActivateDisarm_fit (In.trans (by decide) hL))

end Sys2Proof.Machine
end

