-- ==== Sys2Proof/Laws/FitThermalRows.lean ====
section
/-! SUPPORT. What each definition of Machine/ThermalRows.lean touches, and that it keeps the invariant: one lemma each. -/

set_option Elab.async false
set_option linter.all false

namespace Sys2Proof.Machine

theorem execThermalSample_fit {L : Nat} {s0 : State} {t : ThmRead} {s : State} (hL : In 0xFFFFFFE L) (h0 : Fit L s0 s) :
    ∀ post, execThermalSample t s = .next post → Fit L s0 post := by
  unfold execThermalSample
  refine ok_fit ?_
  repeat' (first
    | with_reducible assumption
    | with_reducible apply advanceRef_fit (In.trans (by decide) hL)
    | with_reducible apply takeSample_fit (In.trans (by decide) hL)
    | (with_reducible apply Fit.ite <;> intro _))

theorem execConfirmationSample_fit {L : Nat} {s0 : State} {t : ThmRead} {s : State} (hL : In 0xFFFFFFE L) (h0 : Fit L s0 s) :
    ∀ post, execConfirmationSample t s = .next post → Fit L s0 post := by
  unfold execConfirmationSample
  refine ok_fit ?_
  repeat' (first
    | with_reducible assumption
    | intro _
    | (extract_lets +onlyGivenNames x; have y := x; first | (guard_hyp y : State; clear y; refine Fit.seq L s0 x ?_ ?_; rotate_left; intro hx; clear_value x; rotate_left; dsimp -zeta only [x]; clear x) | (clear y; clear_value x))
    | with_reducible apply advanceRef_fit (In.trans (by decide) hL)
    | with_reducible apply onThm_fit (In.trans (by decide) hL)
    | with_reducible apply takeSample_fit (In.trans (by decide) hL)
    | split)

theorem execWarmupLimitExpiry_fit {L : Nat} {s0 : State} {s : State} (hL : In 0x800F62 L) (h0 : Fit L s0 s) :
    ∀ post, execWarmupLimitExpiry s = .next post → Fit L s0 post := by
  unfold execWarmupLimitExpiry
  refine ok_fit ?_
  repeat' (first
    | with_reducible assumption
    | intro _
    | (extract_lets +onlyGivenNames x; have y := x; first | (guard_hyp y : State; clear y; refine Fit.seq L s0 x ?_ ?_; rotate_left; intro hx; clear_value x; rotate_left; dsimp -zeta only [x]; clear x) | (clear y; clear_value x))
    | with_reducible apply advanceRef_fit (In.trans (by decide) hL)
    | with_reducible apply raise_fit (In.trans (by decide) hL)
    | with_reducible apply onThm_fit (In.trans (by decide) hL)
    | with_reducible apply endHeld_fit (In.trans (by decide) hL)
    | split)

theorem enforce_fit {L : Nat} {s0 : State} {s : State} (hL : In 0x6A00F42 L) (h0 : Fit L s0 s) :
    Fit L s0 (enforce s) := by
  unfold enforce
  repeat' (first
    | with_reducible assumption
    | intro _
    | (extract_lets +onlyGivenNames x; have y := x; first | (guard_hyp y : State; clear y; refine Fit.seq L s0 x ?_ ?_; rotate_left; intro hx; clear_value x; rotate_left; dsimp -zeta only [x]; clear x) | (clear y; clear_value x))
    | with_reducible apply raise_fit (In.trans (by decide) hL)
    | with_reducible apply onThm_fit (In.trans (by decide) hL)
    | with_reducible apply stepDown_fit (In.trans (by decide) hL)
    | (with_reducible apply Fit.ite <;> intro _)
    | split)

theorem execThrottleGraceExpiry_fit {L : Nat} {s0 : State} {s : State} (hL : In 0x6A00F62 L) (h0 : Fit L s0 s) :
    ∀ post, execThrottleGraceExpiry s = .next post → Fit L s0 post := by
  unfold execThrottleGraceExpiry
  refine ok_fit ?_
  repeat' (first
    | with_reducible assumption
    | intro _
    | (extract_lets +onlyGivenNames x; have y := x; first | (guard_hyp y : State; clear y; refine Fit.seq L s0 x ?_ ?_; rotate_left; intro hx; clear_value x; rotate_left; dsimp -zeta only [x]; clear x) | (clear y; clear_value x))
    | with_reducible apply advanceMer_fit (In.trans (by decide) hL)
    | with_reducible apply onThm_fit (In.trans (by decide) hL)
    | with_reducible apply enforce_fit (In.trans (by decide) hL)
    | (with_reducible apply Fit.ite <;> intro _)
    | split)

theorem execShutdownHoldExpiry_fit {L : Nat} {s0 : State} {s : State} (hL : In 0x60 L) (h0 : Fit L s0 s) :
    ∀ post, execShutdownHoldExpiry s = .next post → Fit L s0 post := by
  unfold execShutdownHoldExpiry
  refine ok_fit ?_
  repeat' (first
    | with_reducible assumption
    | intro _
    | (extract_lets +onlyGivenNames x; have y := x; first | (guard_hyp y : State; clear y; refine Fit.seq L s0 x ?_ ?_; rotate_left; intro hx; clear_value x; rotate_left; dsimp -zeta only [x]; clear x) | (clear y; clear_value x))
    | with_reducible apply advanceRef_fit (In.trans (by decide) hL)
    | with_reducible apply onMode_fit (In.trans (by decide) hL)
    | split)

theorem readSample_fit {L : Nat} {s0 : State} {t : ThmRead} {s : State} (hL : In 0xFFFFFFE L) (h0 : Fit L s0 s) :
    Fit L s0 (readSample t s) := by
  unfold readSample
  repeat' (first
    | with_reducible assumption
    | intro _
    | (extract_lets +onlyGivenNames x; have y := x; first | (guard_hyp y : State; clear y; refine Fit.seq L s0 x ?_ ?_; rotate_left; intro hx; clear_value x; rotate_left; dsimp -zeta only [x]; clear x) | (clear y; clear_value x))
    | with_reducible apply onThm_fit (In.trans (by decide) hL)
    | with_reducible apply demandSample_fit (In.trans (by decide) hL)
    | (with_reducible apply Fit.ite <;> intro _)
    | split)

theorem rowThermalRead_fit {L : Nat} {h : Hdr} {p : ThermalReadP} (hL : In 0xFFFFFFE L) :
    RowFit L (rowThermalRead h p) := by
  refine ⟨fun s0 s h0 => ?_, fun s0 s h0 => ?_⟩ <;> unfold rowThermalRead <;> try dsimp -zeta only [id]
  repeat' (first
    | with_reducible assumption
    | intro _
    | with_reducible apply finish_fit (In.trans (by decide) hL)
    | with_reducible apply readSample_fit (In.trans (by decide) hL)
    | (dsimp -zeta only [id])
    | (with_reducible apply Fit.of_snd; case e => with_reducible assumption)
    | (with_reducible apply Fit.of_fst; case e => with_reducible assumption))

theorem execThermalRead_fit {L : Nat} {s0 : State} {h : Hdr} {p : ThermalReadP} {s : State} (hL : In 0xFFFFFFE L) (h0 : Fit L s0 s) :
    ∀ post, execThermalRead h p s = .next post → Fit L s0 post := by
  unfold execThermalRead
  refine ok_fit ?_
  repeat' (first
    | with_reducible assumption
    | with_reducible apply command_fit (In.trans (by decide) hL)
    | with_reducible apply rowThermalRead_fit (In.trans (by decide) hL))

theorem rowThermalLimitsSet_fit {L : Nat} {h : Hdr} {p : ThermalLimitsP} (hL : In 0x800F02 L) :
    RowFit L (rowThermalLimitsSet h p) := by
  refine ⟨fun s0 s h0 => ?_, fun s0 s h0 => ?_⟩ <;> unfold rowThermalLimitsSet <;> try dsimp -zeta only [id]
  repeat' (first
    | with_reducible assumption
    | intro _
    | (extract_lets +onlyGivenNames x; have y := x; first | (guard_hyp y : State; clear y; refine Fit.seq L s0 x ?_ ?_; rotate_left; intro hx; clear_value x; rotate_left; dsimp -zeta only [x]; clear x) | (clear y; clear_value x))
    | with_reducible apply finish_fit (In.trans (by decide) hL)
    | with_reducible apply onThm_fit (In.trans (by decide) hL)
    | (dsimp -zeta only [id])
    | (with_reducible apply Fit.of_snd; case e => with_reducible assumption)
    | (with_reducible apply Fit.of_fst; case e => with_reducible assumption))

theorem execThermalLimitsSet_fit {L : Nat} {s0 : State} {h : Hdr} {p : ThermalLimitsP} {s : State} (hL : In 0x4800F02 L) (h0 : Fit L s0 s) :
    ∀ post, execThermalLimitsSet h p s = .next post → Fit L s0 post := by
  unfold execThermalLimitsSet
  refine ok_fit ?_
  repeat' (first
    | with_reducible assumption
    | with_reducible apply command_fit (In.trans (by decide) hL)
    | with_reducible apply rowThermalLimitsSet_fit (In.trans (by decide) hL))

theorem rowThrottleAck_fit {L : Nat} {h : Hdr} {p : ThrottleAckP} (hL : In 0x6A00F42 L) :
    RowFit L (rowThrottleAck h p) := by
  refine ⟨fun s0 s h0 => ?_, fun s0 s h0 => ?_⟩ <;> unfold rowThrottleAck <;> try dsimp -zeta only [id]
  repeat' (first
    | with_reducible assumption
    | intro _
    | (extract_lets +onlyGivenNames x; have y := x; first | (guard_hyp y : State; clear y; refine Fit.seq L s0 x ?_ ?_; rotate_left; intro hx; clear_value x; rotate_left; dsimp -zeta only [x]; clear x) | (clear y; clear_value x))
    | with_reducible apply finish_fit (In.trans (by decide) hL)
    | with_reducible apply onThm_fit (In.trans (by decide) hL)
    | with_reducible apply enforce_fit (In.trans (by decide) hL)
    | (with_reducible apply Fit.ite <;> intro _)
    | (dsimp -zeta only [id])
    | (with_reducible apply Fit.of_snd; case e => with_reducible assumption)
    | (with_reducible apply Fit.of_fst; case e => with_reducible assumption)
    | split)

theorem execThrottleAck_fit {L : Nat} {s0 : State} {h : Hdr} {p : ThrottleAckP} {s : State} (hL : In 0x6A00F42 L) (h0 : Fit L s0 s) :
    ∀ post, execThrottleAck h p s = .next post → Fit L s0 post := by
  unfold execThrottleAck
  refine ok_fit ?_
  repeat' (first
    | with_reducible assumption
    | with_reducible apply command_fit (In.trans (by decide) hL)
    | with_reducible apply rowThrottleAck_fit (In.trans (by decide) hL))

end Sys2Proof.Machine
end

