-- ==== Sys2Proof/Laws/FitParamOps.lean ====
section
/-! SUPPORT. What each definition of Machine/ParamOps.lean touches, and that it keeps the invariant: one lemma each. -/

set_option Elab.async false
set_option linter.all false

namespace Sys2Proof.Machine

theorem restoreParams_fit {L : Nat} {s0 : State} {s : State} (hL : In 0x8 L) (h0 : Fit L s0 s) :
    Fit L s0 (restoreParams s) := by
  unfold restoreParams
  repeat' (first
    | with_reducible assumption
    | intro _
    | (extract_lets +onlyGivenNames x; have y := x; first | (guard_hyp y : State; clear y; refine Fit.seq L s0 x ?_ ?_; rotate_left; intro hx; clear_value x; rotate_left; dsimp -zeta only [x]; clear x) | (clear y; clear_value x))
    | with_reducible apply pSet_fit (In.trans (by decide) hL)
    | (with_reducible apply Fit.foldl)
    | split)

theorem pendParam_fit {L : Nat} {s0 : State} {d : PDesc} {v : Nat} {s : State} (hL : In 0x10 L) (h0 : Fit L s0 s) :
    Fit L s0 (pendParam d v s) := by
  unfold pendParam
  repeat' (first
    | with_reducible assumption
    | intro _
    | (extract_lets +onlyGivenNames x; have y := x; first | (guard_hyp y : State; clear y; refine Fit.seq L s0 x ?_ ?_; rotate_left; intro hx; clear_value x; rotate_left; dsimp -zeta only [x]; clear x) | (clear y; clear_value x))
    | (with_reducible apply Fit.upd_parPend (In.trans (by decide) hL); first | (with_reducible apply Fit.ite <;> intro _) | (fail_if_success split)))

theorem timeSource_fit {L : Nat} {s0 : State} {s : State} (hL : In 0x800C22 L) (h0 : Fit L s0 s) :
    Fit L s0 (timeSource s) := by
  unfold timeSource
  repeat' (first
    | with_reducible assumption
    | (extract_lets +onlyGivenNames x; have y := x; first | (guard_hyp y : State; clear y; refine Fit.seq L s0 x ?_ ?_; rotate_left; intro hx; clear_value x; rotate_left; dsimp -zeta only [x]; clear x) | (clear y; clear_value x))
    | with_reducible apply setTimeState_fit (In.trans (by decide) hL)
    | (with_reducible apply Fit.ite <;> intro _)
    | (with_reducible apply Fit.upd_time (In.trans (by decide) hL); first | (with_reducible apply Fit.ite <;> intro _) | (fail_if_success split)))

theorem paramActs_fit {L : Nat} {s0 : State} {id : Nat} {changed : Bool} {s : State} (hL : In 0x810E22 L) (h0 : Fit L s0 s) :
    Fit L s0 (paramActs id changed s) := by
  unfold paramActs
  repeat' (first
    | with_reducible assumption
    | (extract_lets +onlyGivenNames x; have y := x; first | (guard_hyp y : State; clear y; refine Fit.seq L s0 x ?_ ?_; rotate_left; intro hx; clear_value x; rotate_left; dsimp -zeta only [x]; clear x) | (clear y; clear_value x))
    | with_reducible apply checkLow_fit (In.trans (by decide) hL)
    | with_reducible apply synParamSet_fit (In.trans (by decide) hL)
    | with_reducible apply timeSource_fit (In.trans (by decide) hL)
    | (with_reducible apply Fit.ite <;> intro _)
    | (with_reducible apply Fit.upd_time (In.trans (by decide) hL); first | (with_reducible apply Fit.ite <;> intro _) | (fail_if_success split))
    | split)

theorem applyParam_fit {L : Nat} {s0 : State} {d : PDesc} {v : Nat} {s : State} (hL : In 0x810E3A L) (h0 : Fit L s0 s) :
    Fit L s0 (applyParam d v s) := by
  unfold applyParam
  repeat' (first
    | with_reducible assumption
    | intro _
    | (extract_lets +onlyGivenNames x; have y := x; first | (guard_hyp y : State; clear y; refine Fit.seq L s0 x ?_ ?_; rotate_left; intro hx; clear_value x; rotate_left; dsimp -zeta only [x]; clear x) | (clear y; clear_value x))
    | with_reducible apply pSet_fit (In.trans (by decide) hL)
    | with_reducible apply pendParam_fit (In.trans (by decide) hL)
    | with_reducible apply paramActs_fit (In.trans (by decide) hL)
    | (with_reducible apply Fit.ite <;> intro _)
    | (with_reducible apply Fit.upd_parPend (In.trans (by decide) hL); first | (with_reducible apply Fit.ite <;> intro _) | (fail_if_success split))
    | split)

theorem setHash_fit {L : Nat} {s0 : State} {id v : Nat} {s : State} (hL : In 0x1008 L) (h0 : Fit L s0 s) : Fit L s0 (setHash id v s) := by
  unfold setHash
  exact Fit.upd_mem (In.trans (by decide) hL) (pSet_fit (In.trans (by decide) hL) h0) (fun _ => rehash_wf _ _ _ _)

theorem rearm_fit {L : Nat} {s0 : State} {v : Nat} {s : State} (hL : In 0x10000000 L) (h0 : Fit L s0 s) :
    Fit L s0 (rearm v s) := by
  unfold rearm
  repeat' (first
    | with_reducible assumption
    | intro _
    | (extract_lets +onlyGivenNames x; have y := x; first | (guard_hyp y : State; clear y; refine Fit.seq L s0 x ?_ ?_; rotate_left; intro hx; clear_value x; rotate_left; dsimp -zeta only [x]; clear x) | ((first | (guard_hyp y : _ → State; clear y) | (guard_hyp y : _ → _ → State; clear y) | (guard_hyp y : _ → _ → _ → State; clear y)); dsimp -zeta only [x]; clear x) | (clear y; clear_value x))
    | with_reducible apply onHwd_fit (In.trans (by decide) hL)
    | (with_reducible apply Fit.ite <;> intro _)
    | split)

theorem keepParam_fit {L : Nat} {s0 : State} {h : Hdr} {type key : Nat} {bytes : List Byte} {fill : State → State} {v : Verdict} {s : State} (hL : In 0x1800E02 L) (h0 : Fit L s0 s) (h_fill : ∀ v0, Fit L s0 v0 → Fit L s0 (fill v0)) :
    Fit L s0 (keepParam h type key bytes fill v s) := by
  unfold keepParam
  repeat' (first
    | with_reducible assumption
    | (extract_lets +onlyGivenNames x; have y := x; first | (guard_hyp y : State; clear y; refine Fit.seq L s0 x ?_ ?_; rotate_left; intro hx; clear_value x; rotate_left; dsimp -zeta only [x]; clear x) | (clear y; clear_value x))
    | with_reducible apply finish_fit (In.trans (by decide) hL)
    | with_reducible apply nvPut_fit (In.trans (by decide) hL)
    | with_reducible apply h_fill
    | (dsimp -zeta only [id])
    | (with_reducible apply Fit.of_snd; case e => with_reducible assumption)
    | (with_reducible apply Fit.of_fst; case e => with_reducible assumption)
    | split)

theorem runParamSet_fit {L : Nat} {s0 : State} {h : Hdr} {p : ParamSetP} {s : State} (hL : In 0x11A11E3A L) (h0 : Fit L s0 s) :
    Fit L s0 (runParamSet h p s) := by
  unfold runParamSet
  repeat' (first
    | with_reducible assumption
    | intro _
    | (extract_lets +onlyGivenNames x; have y := x; first | (guard_hyp y : State; clear y; refine Fit.seq L s0 x ?_ ?_; rotate_left; intro hx; clear_value x; rotate_left; dsimp -zeta only [x]; clear x) | (clear y; clear_value x))
    | with_reducible apply finish_fit (In.trans (by decide) hL)
    | with_reducible apply nvPut_fit (In.trans (by decide) hL)
    | with_reducible apply putDly_fit (In.trans (by decide) hL)
    | with_reducible apply applyParam_fit (In.trans (by decide) hL)
    | with_reducible apply setHash_fit (In.trans (by decide) hL)
    | with_reducible apply rearm_fit (In.trans (by decide) hL)
    | with_reducible apply keepParam_fit (In.trans (by decide) hL)
    | (with_reducible apply Fit.ite <;> intro _)
    | (dsimp -zeta only [id])
    | (with_reducible apply Fit.of_snd; case e => with_reducible assumption)
    | (with_reducible apply Fit.of_fst; case e => with_reducible assumption)
    | split)

end Sys2Proof.Machine
end

