-- ==== Sys2Proof/Laws/FitRecoveryRows.lean ====
section
/-! SUPPORT. What each definition of Machine/RecoveryRows.lean touches, and that it keeps the invariant: one lemma each. -/

set_option Elab.async false
set_option linter.all false

namespace Sys2Proof.Machine

theorem rowEventLogRead_fit {L : Nat} {h : Hdr} {p : EventLogReadP} (hL : In 0x801E02 L) :
    RowFit L (rowEventLogRead h p) := by
  refine ⟨fun s0 s h0 => ?_, fun s0 s h0 => ?_⟩ <;> unfold rowEventLogRead <;> try dsimp -zeta only [id]
  repeat' (first
    | with_reducible assumption
    | intro _
    | with_reducible apply runLogRead_fit (In.trans (by decide) hL)
    | (dsimp -zeta only [id])
    | (with_reducible apply Fit.of_snd; case e => with_reducible assumption)
    | (with_reducible apply Fit.of_fst; case e => with_reducible assumption))

theorem execEventLogRead_fit {L : Nat} {s0 : State} {h : Hdr} {p : EventLogReadP} {s : State} (hL : In 0x4801E02 L) (h0 : Fit L s0 s) :
    ∀ post, execEventLogRead h p s = .next post → Fit L s0 post := by
  unfold execEventLogRead
  refine ok_fit ?_
  repeat' (first
    | with_reducible assumption
    | with_reducible apply command_fit (In.trans (by decide) hL)
    | with_reducible apply rowEventLogRead_fit (In.trans (by decide) hL))

theorem rowResetLevel1_fit {L : Nat} {h : Hdr} {p : ResetLevelP} (hL : In 0xFFFFFFE L) :
    RowFit L (rowResetLevel1 h p) := by
  refine ⟨fun s0 s h0 => ?_, fun s0 s h0 => ?_⟩ <;> unfold rowResetLevel1 <;> try dsimp -zeta only [id]
  repeat' (first
    | with_reducible assumption
    | intro _
    | with_reducible apply accepted_fit (In.trans (by decide) hL)
    | with_reducible apply decideRecov_fit (In.trans (by decide) hL)
    | (dsimp -zeta only [id])
    | (with_reducible apply Fit.of_snd; case e => with_reducible assumption)
    | (with_reducible apply Fit.of_fst; case e => with_reducible assumption))

theorem execResetLevel1_fit {L : Nat} {s0 : State} {h : Hdr} {p : ResetLevelP} {s : State} (hL : In 0xFFFFFFE L) (h0 : Fit L s0 s) :
    ∀ post, execResetLevel1 h p s = .next post → Fit L s0 post := by
  unfold execResetLevel1
  refine ok_fit ?_
  repeat' (first
    | with_reducible assumption
    | with_reducible apply command_fit (In.trans (by decide) hL)
    | with_reducible apply rowResetLevel1_fit (In.trans (by decide) hL))

theorem rowResetLevel2_fit {L : Nat} {h : Hdr} {p : ResetLevelP} (hL : In 0xFFFFFFE L) :
    RowFit L (rowResetLevel2 h p) := by
  refine ⟨fun s0 s h0 => ?_, fun s0 s h0 => ?_⟩ <;> unfold rowResetLevel2 <;> try dsimp -zeta only [id]
  repeat' (first
    | with_reducible assumption
    | intro _
    | with_reducible apply accepted_fit (In.trans (by decide) hL)
    | with_reducible apply decideRecov_fit (In.trans (by decide) hL)
    | (dsimp -zeta only [id])
    | (with_reducible apply Fit.of_snd; case e => with_reducible assumption)
    | (with_reducible apply Fit.of_fst; case e => with_reducible assumption))

theorem execResetLevel2_fit {L : Nat} {s0 : State} {h : Hdr} {p : ResetLevelP} {s : State} (hL : In 0xFFFFFFE L) (h0 : Fit L s0 s) :
    ∀ post, execResetLevel2 h p s = .next post → Fit L s0 post := by
  unfold execResetLevel2
  refine ok_fit ?_
  repeat' (first
    | with_reducible assumption
    | with_reducible apply command_fit (In.trans (by decide) hL)
    | with_reducible apply rowResetLevel2_fit (In.trans (by decide) hL))

theorem rowResetLevel3_fit {L : Nat} {h : Hdr} {p : ResetLevelP} (hL : In 0xFFFFFFE L) :
    RowFit L (rowResetLevel3 h p) := by
  refine ⟨fun s0 s h0 => ?_, fun s0 s h0 => ?_⟩ <;> unfold rowResetLevel3 <;> try dsimp -zeta only [id]
  repeat' (first
    | with_reducible assumption
    | intro _
    | with_reducible apply finish_fit (In.trans (by decide) hL)
    | with_reducible apply decideRecov_fit (In.trans (by decide) hL)
    | (dsimp -zeta only [id])
    | (with_reducible apply Fit.of_snd; case e => with_reducible assumption)
    | (with_reducible apply Fit.of_fst; case e => with_reducible assumption))

theorem execResetLevel3_fit {L : Nat} {s0 : State} {h : Hdr} {p : ResetLevelP} {s : State} (hL : In 0xFFFFFFE L) (h0 : Fit L s0 s) :
    ∀ post, execResetLevel3 h p s = .next post → Fit L s0 post := by
  unfold execResetLevel3
  refine ok_fit ?_
  repeat' (first
    | with_reducible assumption
    | with_reducible apply command_fit (In.trans (by decide) hL)
    | with_reducible apply rowResetLevel3_fit (In.trans (by decide) hL))

theorem rowResetLevel4_fit {L : Nat} {h : Hdr} {p : ResetLevelP} (hL : In 0xFFFFFFE L) :
    RowFit L (rowResetLevel4 h p) := by
  refine ⟨fun s0 s h0 => ?_, fun s0 s h0 => ?_⟩ <;> unfold rowResetLevel4 <;> try dsimp -zeta only [id]
  repeat' (first
    | with_reducible assumption
    | intro _
    | with_reducible apply finish_fit (In.trans (by decide) hL)
    | with_reducible apply decideRecov_fit (In.trans (by decide) hL)
    | (dsimp -zeta only [id])
    | (with_reducible apply Fit.of_snd; case e => with_reducible assumption)
    | (with_reducible apply Fit.of_fst; case e => with_reducible assumption))

theorem execResetLevel4_fit {L : Nat} {s0 : State} {h : Hdr} {p : ResetLevelP} {s : State} (hL : In 0xFFFFFFE L) (h0 : Fit L s0 s) :
    ∀ post, execResetLevel4 h p s = .next post → Fit L s0 post := by
  unfold execResetLevel4
  refine ok_fit ?_
  repeat' (first
    | with_reducible assumption
    | with_reducible apply command_fit (In.trans (by decide) hL)
    | with_reducible apply rowResetLevel4_fit (In.trans (by decide) hL))

theorem execRecoveryStart_fit {L : Nat} {s0 : State} {rseq : U32} {s : State} (hL : In 0xFFFFFFE L) (h0 : Fit L s0 s) :
    ∀ post, execRecoveryStart rseq s = .next post → Fit L s0 post := by
  unfold execRecoveryStart
  refine ok_fit ?_
  repeat' (first
    | with_reducible assumption
    | intro _
    | (extract_lets +onlyGivenNames x; have y := x; first | (guard_hyp y : State; clear y; refine Fit.seq L s0 x ?_ ?_; rotate_left; intro hx; clear_value x; rotate_left; dsimp -zeta only [x]; clear x) | (guard_hyp y : EvtSt; clear y; dsimp -zeta only [x]; clear x) | (clear y; clear_value x))
    | with_reducible apply startRecov_fit (In.trans (by decide) hL)
    | (with_reducible apply Fit.ite <;> intro _)
    | split)

theorem levelEnd_fit {L : Nat} {s0 : State} {r : Recov} {success : Bool} {t : ThmRead} {s : State} (hL : In 0xFFFFFFE L) (h0 : Fit L s0 s) :
    Fit L s0 (levelEnd r success t s) := by
  unfold levelEnd
  repeat' (first
    | with_reducible assumption
    | with_reducible apply rebuildPools_fit (In.trans (by decide) hL)
    | with_reducible apply blockEnd_fit (In.trans (by decide) hL)
    | with_reducible apply planeEnd_fit (In.trans (by decide) hL)
    | with_reducible apply moduleEnd_fit (In.trans (by decide) hL)
    | with_reducible apply startSample_fit (In.trans (by decide) hL)
    | (with_reducible apply Fit.ite <;> intro _))

theorem execRecoveryEnd_fit {L : Nat} {s0 : State} {rseq : U32} {success : Bool} {t : ThmRead} {s : State} (hL : In 0xFFFFFFE L) (h0 : Fit L s0 s) :
    ∀ post, execRecoveryEnd rseq success t s = .next post → Fit L s0 post := by
  unfold execRecoveryEnd
  refine ok_fit ?_
  repeat' (first
    | with_reducible assumption
    | intro _
    | (extract_lets +onlyGivenNames x; have y := x; first | (guard_hyp y : State; clear y; refine Fit.seq L s0 x ?_ ?_; rotate_left; intro hx; clear_value x; rotate_left; dsimp -zeta only [x]; clear x) | (guard_hyp y : EvtSt; clear y; dsimp -zeta only [x]; clear x) | (clear y; clear_value x))
    | with_reducible apply endRecov_fit (In.trans (by decide) hL)
    | with_reducible apply faultAt_fit (In.trans (by decide) hL)
    | with_reducible apply levelEnd_fit (In.trans (by decide) hL)
    | (with_reducible apply Fit.ite <;> intro _)
    | split)

theorem rowDiagCapture_fit {L : Nat} {h : Hdr} {p : DiagCaptureP} (hL : In 0x801E02 L) :
    RowFit L (rowDiagCapture h p) := by
  refine ⟨fun s0 s h0 => ?_, fun s0 s h0 => ?_⟩ <;> unfold rowDiagCapture <;> try dsimp -zeta only [id]
  repeat' (first
    | with_reducible assumption
    | intro _
    | (extract_lets +onlyGivenNames x; have y := x; first | (guard_hyp y : State; clear y; refine Fit.seq L s0 x ?_ ?_; rotate_left; intro hx; clear_value x; rotate_left; dsimp -zeta only [x]; clear x) | (clear y; clear_value x))
    | with_reducible apply devWrite_fit (In.trans (by decide) hL)
    | with_reducible apply finish_fit (In.trans (by decide) hL)
    | (dsimp -zeta only [id])
    | (with_reducible apply Fit.of_snd; case e => with_reducible assumption)
    | (with_reducible apply Fit.of_fst; case e => with_reducible assumption)
    | split)

theorem execDiagCapture_fit {L : Nat} {s0 : State} {h : Hdr} {p : DiagCaptureP} {s : State} (hL : In 0x4801E02 L) (h0 : Fit L s0 s) :
    ∀ post, execDiagCapture h p s = .next post → Fit L s0 post := by
  unfold execDiagCapture
  refine ok_fit ?_
  repeat' (first
    | with_reducible assumption
    | with_reducible apply command_fit (In.trans (by decide) hL)
    | with_reducible apply rowDiagCapture_fit (In.trans (by decide) hL))

end Sys2Proof.Machine
end

