-- ==== Sys2Proof/Laws/FitHardware.lean ====
section
/-! SUPPORT. What each definition of Machine/Hardware.lean touches, and that it keeps the invariant: one lemma each. -/

set_option Elab.async false
set_option linter.all false

namespace Sys2Proof.Machine

theorem bounced_fit {L : Nat} {s0 : State} {code n : Nat} {i : Input} {set : Input → State → State} {s : State} (hL : In 0x800C02 L) (h0 : Fit L s0 s) (h_set : ∀ v0 v1, Fit L s0 v1 → Fit L s0 (set v0 v1)) :
    Fit L s0 (bounced code n i set s) := by
  unfold bounced
  repeat' (first
    | with_reducible assumption
    | (extract_lets +onlyGivenNames x; have y := x; first | (guard_hyp y : State; clear y; refine Fit.seq L s0 x ?_ ?_; rotate_left; intro hx; clear_value x; rotate_left; dsimp -zeta only [x]; clear x) | (clear y; clear_value x))
    | with_reducible apply raise_fit (In.trans (by decide) hL)
    | with_reducible apply h_set
    | (with_reducible apply Fit.ite <;> intro _)
    | split)

theorem setDet_fit {L : Nat} {s0 : State} {i : Input} {s : State} (hL : In 0x10000000 L) (h0 : Fit L s0 s) :
    Fit L s0 (setDet i s) := by
  unfold setDet
  repeat' (first
    | with_reducible assumption
    | intro _
    | (extract_lets +onlyGivenNames x; have y := x; first | (guard_hyp y : State; clear y; refine Fit.seq L s0 x ?_ ?_; rotate_left; intro hx; clear_value x; rotate_left; dsimp -zeta only [x]; clear x) | (clear y; clear_value x))
    | with_reducible apply onHwd_fit (In.trans (by decide) hL))

theorem setMrst_fit {L : Nat} {s0 : State} {i : Input} {s : State} (hL : In 0x10000000 L) (h0 : Fit L s0 s) :
    Fit L s0 (setMrst i s) := by
  unfold setMrst
  repeat' (first
    | with_reducible assumption
    | intro _
    | (extract_lets +onlyGivenNames x; have y := x; first | (guard_hyp y : State; clear y; refine Fit.seq L s0 x ?_ ?_; rotate_left; intro hx; clear_value x; rotate_left; dsimp -zeta only [x]; clear x) | (clear y; clear_value x))
    | with_reducible apply onHwd_fit (In.trans (by decide) hL))

theorem acceptDet_fit {L : Nat} {s0 : State} {edges : Nat} {level : Bool} {s : State} (hL : In 0x10800C22 L) (h0 : Fit L s0 s) :
    Fit L s0 (acceptDet edges level s) := by
  unfold acceptDet
  repeat' (first
    | with_reducible assumption
    | intro _
    | (extract_lets +onlyGivenNames x; have y := x; first | (guard_hyp y : State; clear y; refine Fit.seq L s0 x ?_ ?_; rotate_left; intro hx; clear_value x; rotate_left; dsimp -zeta only [x]; clear x) | (clear y; clear_value x))
    | with_reducible apply advanceRef_fit (In.trans (by decide) hL)
    | with_reducible apply bounced_fit (In.trans (by decide) hL)
    | with_reducible apply setDet_fit (In.trans (by decide) hL))

theorem acceptMrst_fit {L : Nat} {s0 : State} {edges : Nat} {level : Bool} {s : State} (hL : In 0x10800C22 L) (h0 : Fit L s0 s) :
    Fit L s0 (acceptMrst edges level s) := by
  unfold acceptMrst
  repeat' (first
    | with_reducible assumption
    | intro _
    | (extract_lets +onlyGivenNames x; have y := x; first | (guard_hyp y : State; clear y; refine Fit.seq L s0 x ?_ ?_; rotate_left; intro hx; clear_value x; rotate_left; dsimp -zeta only [x]; clear x) | (clear y; clear_value x))
    | with_reducible apply advanceRef_fit (In.trans (by decide) hL)
    | with_reducible apply bounced_fit (In.trans (by decide) hL)
    | with_reducible apply setMrst_fit (In.trans (by decide) hL))

theorem execDetachReqAssert_fit {L : Nat} {s0 : State} {edges : Nat} {stall : Option (Fin 5)} {took : Nat} {s : State} (hL : In 0x1FFFFFFE L) (h0 : Fit L s0 s) :
    ∀ post, execDetachReqAssert edges stall took s = .next post → Fit L s0 post := by
  unfold execDetachReqAssert
  refine ok_fit ?_
  repeat' (first
    | with_reducible assumption
    | (extract_lets +onlyGivenNames x; have y := x; first | (guard_hyp y : State; clear y; refine Fit.seq L s0 x ?_ ?_; rotate_left; intro hx; clear_value x; rotate_left; dsimp -zeta only [x]; clear x) | (clear y; clear_value x))
    | with_reducible apply quiesceStart_fit (In.trans (by decide) hL)
    | with_reducible apply acceptDet_fit (In.trans (by decide) hL)
    | (with_reducible apply Fit.ite <;> intro _))

theorem execQuiesceStepForced_fit {L : Nat} {s0 : State} {stall : Option (Fin 5)} {s : State} (hL : In 0x1FFFFFFE L) (h0 : Fit L s0 s) :
    ∀ post, execQuiesceStepForced stall s = .next post → Fit L s0 post := by
  unfold execQuiesceStepForced
  refine ok_fit ?_
  repeat' (first
    | with_reducible assumption
    | with_reducible apply quiesceForce_fit (In.trans (by decide) hL))

theorem execDetachReqRelease_fit {L : Nat} {s0 : State} {edges : Nat} {s : State} (hL : In 0x10800C62 L) (h0 : Fit L s0 s) :
    ∀ post, execDetachReqRelease edges s = .next post → Fit L s0 post := by
  unfold execDetachReqRelease
  refine ok_fit ?_
  repeat' (first
    | with_reducible assumption
    | with_reducible apply detachedEnd_fit (In.trans (by decide) hL)
    | with_reducible apply acceptDet_fit (In.trans (by decide) hL)
    | (with_reducible apply Fit.ite <;> intro _))

theorem rowDetachPrepare_fit {L : Nat} {h : Hdr} {p : DetachP} {stall : Option (Fin 5)} {took : Nat} (hL : In 0x1FFFFFFE L) :
    RowFit L (rowDetachPrepare h p stall took) := by
  refine ⟨fun s0 s h0 => ?_, fun s0 s h0 => ?_⟩ <;> unfold rowDetachPrepare <;> try dsimp -zeta only [id]
  repeat' (first
    | with_reducible assumption
    | intro _
    | with_reducible apply accepted_fit (In.trans (by decide) hL)
    | with_reducible apply quiesceStart_fit (In.trans (by decide) hL)
    | (dsimp -zeta only [id])
    | (with_reducible apply Fit.of_snd; case e => with_reducible assumption)
    | (with_reducible apply Fit.of_fst; case e => with_reducible assumption))

theorem execDetachPrepare_fit {L : Nat} {s0 : State} {h : Hdr} {p : DetachP} {stall : Option (Fin 5)} {took : Nat} {s : State} (hL : In 0x1FFFFFFE L) (h0 : Fit L s0 s) :
    ∀ post, execDetachPrepare h p stall took s = .next post → Fit L s0 post := by
  unfold execDetachPrepare
  refine ok_fit ?_
  repeat' (first
    | with_reducible assumption
    | with_reducible apply command_fit (In.trans (by decide) hL)
    | with_reducible apply rowDetachPrepare_fit (In.trans (by decide) hL))

theorem execMrstAssert_fit {L : Nat} {s0 : State} {edges : Nat} {s : State} (hL : In 0x1FFFFFFE L) (h0 : Fit L s0 s) :
    ∀ post, execMrstAssert edges s = .next post → Fit L s0 post := by
  unfold execMrstAssert
  refine ok_fit ?_
  repeat' (first
    | with_reducible assumption
    | intro _
    | (extract_lets +onlyGivenNames x; have y := x; first | (guard_hyp y : State; clear y; refine Fit.seq L s0 x ?_ ?_; rotate_left; intro hx; clear_value x; rotate_left; dsimp -zeta only [x]; clear x) | (clear y; clear_value x))
    | with_reducible apply raise_fit (In.trans (by decide) hL)
    | with_reducible apply plainReset_fit (In.trans (by decide) hL)
    | with_reducible apply onHwd_fit (In.trans (by decide) hL)
    | with_reducible apply acceptMrst_fit (In.trans (by decide) hL)
    | (with_reducible apply Fit.ite <;> intro _)
    | split)

theorem execMrstRelease_fit {L : Nat} {s0 : State} {edges : Nat} {t : ThmRead} {s : State} (hL : In 0x1FFFFFFE L) (h0 : Fit L s0 s) :
    ∀ post, execMrstRelease edges t s = .next post → Fit L s0 post := by
  unfold execMrstRelease
  refine ok_fit ?_
  repeat' (first
    | with_reducible assumption
    | intro _
    | (extract_lets +onlyGivenNames x; have y := x; first | (guard_hyp y : State; clear y; refine Fit.seq L s0 x ?_ ?_; rotate_left; intro hx; clear_value x; rotate_left; dsimp -zeta only [x]; clear x) | (guard_hyp y : EvtSt; clear y; dsimp -zeta only [x]; clear x) | (clear y; clear_value x))
    | with_reducible apply endRecov_fit (In.trans (by decide) hL)
    | with_reducible apply levelEnd_fit (In.trans (by decide) hL)
    | with_reducible apply acceptMrst_fit (In.trans (by decide) hL)
    | (with_reducible apply Fit.ite <;> intro _)
    | split)

theorem detStuck_fit {L : Nat} {s0 : State} {s : State} (hL : In 0x10800C62 L) (h0 : Fit L s0 s) :
    Fit L s0 (detStuck s) := by
  unfold detStuck
  repeat' (first
    | with_reducible assumption
    | (extract_lets +onlyGivenNames x; have y := x; first | (guard_hyp y : State; clear y; refine Fit.seq L s0 x ?_ ?_; rotate_left; intro hx; clear_value x; rotate_left; dsimp -zeta only [x]; clear x) | (clear y; clear_value x))
    | with_reducible apply advanceRef_fit (In.trans (by decide) hL)
    | with_reducible apply raise_fit (In.trans (by decide) hL)
    | with_reducible apply detachedEnd_fit (In.trans (by decide) hL)
    | with_reducible apply setDet_fit (In.trans (by decide) hL)
    | (with_reducible apply Fit.ite <;> intro _))

theorem mrstStuck_fit {L : Nat} {s0 : State} {s : State} (hL : In 0x10800C22 L) (h0 : Fit L s0 s) :
    Fit L s0 (mrstStuck s) := by
  unfold mrstStuck
  repeat' (first
    | with_reducible assumption
    | (extract_lets +onlyGivenNames x; have y := x; first | (guard_hyp y : State; clear y; refine Fit.seq L s0 x ?_ ?_; rotate_left; intro hx; clear_value x; rotate_left; dsimp -zeta only [x]; clear x) | (clear y; clear_value x))
    | with_reducible apply advanceRef_fit (In.trans (by decide) hL)
    | with_reducible apply raise_fit (In.trans (by decide) hL)
    | with_reducible apply setMrst_fit (In.trans (by decide) hL)
    | (with_reducible apply Fit.ite <;> intro _))

theorem camStuck_fit {L : Nat} {s0 : State} {c : Nat} {s : State} (hL : In 0x820C22 L) (h0 : Fit L s0 s) :
    Fit L s0 (camStuck c s) := by
  unfold camStuck
  repeat' (first
    | with_reducible assumption
    | intro _
    | (extract_lets +onlyGivenNames x; have y := x; first | (guard_hyp y : State; clear y; refine Fit.seq L s0 x ?_ ?_; rotate_left; intro hx; clear_value x; rotate_left; dsimp -zeta only [x]; clear x) | (clear y; clear_value x))
    | with_reducible apply advanceRef_fit (In.trans (by decide) hL)
    | with_reducible apply raise_fit (In.trans (by decide) hL)
    | with_reducible apply onPort_fit (In.trans (by decide) hL)
    | (with_reducible apply Fit.ite <;> intro _)
    | split)

theorem execHwdInputStuck_fit {L : Nat} {s0 : State} {input : HwdInput} {s : State} (hL : In 0x10820C62 L) (h0 : Fit L s0 s) :
    ∀ post, execHwdInputStuck input s = .next post → Fit L s0 post := by
  unfold execHwdInputStuck
  refine ok_fit ?_
  repeat' (first
    | with_reducible assumption
    | (extract_lets +onlyGivenNames x; have y := x; first | (guard_hyp y : State; clear y; refine Fit.seq L s0 x ?_ ?_; rotate_left; intro hx; clear_value x; rotate_left; dsimp -zeta only [x]; clear x) | (clear y; clear_value x))
    | with_reducible apply detStuck_fit (In.trans (by decide) hL)
    | with_reducible apply mrstStuck_fit (In.trans (by decide) hL)
    | with_reducible apply camStuck_fit (In.trans (by decide) hL)
    | (with_reducible apply Fit.ite <;> intro _)
    | split)

theorem restartLocks_fit {L : Nat} {s0 : State} {s : State} (hL : In 0x9000000 L) (h0 : Fit L s0 s) :
    Fit L s0 (restartLocks s) := by
  unfold restartLocks
  repeat' (first
    | with_reducible assumption
    | intro _
    | (extract_lets +onlyGivenNames x; have y := x; first | (guard_hyp y : State; clear y; refine Fit.seq L s0 x ?_ ?_; rotate_left; intro hx; clear_value x; rotate_left; dsimp -zeta only [x]; clear x) | (clear y; clear_value x))
    | (with_reducible apply Fit.ite <;> intro _)
    | (with_reducible apply Fit.upd_nv_sec (In.trans (by decide) hL); first | (with_reducible apply Fit.ite <;> intro _) | (fail_if_success split))
    | split)

theorem horizonFromNv_fit {L : Nat} {s0 : State} {s : State} (hL : In 0x19002008 L) (h0 : Fit L s0 s) :
    Fit L s0 (horizonFromNv s) := by
  unfold horizonFromNv
  repeat' (first
    | with_reducible assumption
    | intro _
    | (extract_lets +onlyGivenNames x; have y := x; first | (guard_hyp y : State; clear y; refine Fit.seq L s0 x ?_ ?_; rotate_left; intro hx; clear_value x; rotate_left; dsimp -zeta only [x]; clear x) | (clear y; clear_value x))
    | with_reducible apply panelFromNv_fit (In.trans (by decide) hL)
    | with_reducible apply onHwd_fit (In.trans (by decide) hL)
    | with_reducible apply restoreParams_fit (In.trans (by decide) hL)
    | with_reducible apply restartLocks_fit (In.trans (by decide) hL)
    | split)

theorem seat_fit {L : Nat} {s0 : State} {s : State} (hL : In 0x11800C02 L) (h0 : Fit L s0 s) :
    Fit L s0 (seat s) := by
  unfold seat
  repeat' (first
    | with_reducible assumption
    | intro _
    | (extract_lets +onlyGivenNames x; have y := x; first | (guard_hyp y : State; clear y; refine Fit.seq L s0 x ?_ ?_; rotate_left; intro hx; clear_value x; rotate_left; dsimp -zeta only [x]; clear x) | (clear y; clear_value x))
    | with_reducible apply raise_fit (In.trans (by decide) hL)
    | with_reducible apply onHwd_fit (In.trans (by decide) hL)
    | with_reducible apply putSeated_fit (In.trans (by decide) hL)
    | with_reducible apply bumpCounter_fit (In.trans (by decide) hL)
    | (with_reducible apply Fit.ite <;> intro _)
    | split)

theorem execVauxPowerGood_fit {L : Nat} {s0 : State} {found : List (Nat × NvFound)} {s : State} (hL : In 0x19802C4A L) (h0 : Fit L s0 s) :
    ∀ post, execVauxPowerGood found s = .next post → Fit L s0 post := by
  unfold execVauxPowerGood
  refine ok_fit ?_
  repeat' (first
    | with_reducible assumption
    | intro _
    | (extract_lets +onlyGivenNames x; have y := x; first | (guard_hyp y : State; clear y; refine Fit.seq L s0 x ?_ ?_; rotate_left; intro hx; clear_value x; rotate_left; dsimp -zeta only [x]; clear x) | (clear y; clear_value x))
    | with_reducible apply nvScan_fit (In.trans (by decide) hL)
    | with_reducible apply onMode_fit (In.trans (by decide) hL)
    | with_reducible apply horizonFromNv_fit (In.trans (by decide) hL)
    | with_reducible apply seat_fit (In.trans (by decide) hL)
    | (with_reducible apply Fit.ite <;> intro _)
    | split)

end Sys2Proof.Machine
end

