-- ==== Sys2Proof/Laws/FitLayerRows.lean ====
section
/-! SUPPORT. What each definition of Machine/LayerRows.lean touches, and that it keeps the invariant: one lemma each. -/

set_option Elab.async false
set_option linter.all false

namespace Sys2Proof.Machine

theorem acceptLayer_fit {L : Nat} {s0 : State} {h : Hdr} {opc : Nat} {op : LayerOp} {fence value : Nat} {s : State} (hL : In 0x840E02 L) (h0 : Fit L s0 s) :
    Fit L s0 (acceptLayer h opc op fence value s) := by
  unfold acceptLayer
  repeat' (first
    | with_reducible assumption
    | intro _
    | (extract_lets +onlyGivenNames x; have y := x; first | (guard_hyp y : State; clear y; refine Fit.seq L s0 x ?_ ?_; rotate_left; intro hx; clear_value x; rotate_left; dsimp -zeta only [x]; clear x) | (clear y; clear_value x))
    | with_reducible apply finish_fit (In.trans (by decide) hL)
    | with_reducible apply onScn_fit (In.trans (by decide) hL)
    | with_reducible apply settleLayers_fit (In.trans (by decide) hL)
    | with_reducible apply applyWaitsDawn_fit (In.trans (by decide) hL)
    | split)

theorem rowLayerSet_fit {L : Nat} {h : Hdr} {p : LayerSetP} (hL : In 0x840E02 L) :
    RowFit L (rowLayerSet h p) := by
  refine ⟨fun s0 s h0 => ?_, fun s0 s h0 => ?_⟩ <;> unfold rowLayerSet <;> try dsimp -zeta only [id]
  repeat' (first
    | with_reducible assumption
    | intro _
    | with_reducible apply acceptLayer_fit (In.trans (by decide) hL)
    | (dsimp -zeta only [id])
    | (with_reducible apply Fit.of_snd; case e => with_reducible assumption)
    | (with_reducible apply Fit.of_fst; case e => with_reducible assumption))

theorem execLayerSet_fit {L : Nat} {s0 : State} {h : Hdr} {p : LayerSetP} {s : State} (hL : In 0x4840E02 L) (h0 : Fit L s0 s) :
    ∀ post, execLayerSet h p s = .next post → Fit L s0 post := by
  unfold execLayerSet
  refine ok_fit ?_
  repeat' (first
    | with_reducible assumption
    | with_reducible apply command_fit (In.trans (by decide) hL)
    | with_reducible apply rowLayerSet_fit (In.trans (by decide) hL))

theorem rowLayerEnable_fit {L : Nat} {h : Hdr} {p : LayerEnableP} (hL : In 0x840E02 L) :
    RowFit L (rowLayerEnable h p) := by
  refine ⟨fun s0 s h0 => ?_, fun s0 s h0 => ?_⟩ <;> unfold rowLayerEnable <;> try dsimp -zeta only [id]
  repeat' (first
    | with_reducible assumption
    | intro _
    | with_reducible apply acceptLayer_fit (In.trans (by decide) hL)
    | (dsimp -zeta only [id])
    | (with_reducible apply Fit.of_snd; case e => with_reducible assumption)
    | (with_reducible apply Fit.of_fst; case e => with_reducible assumption))

theorem execLayerEnable_fit {L : Nat} {s0 : State} {h : Hdr} {p : LayerEnableP} {s : State} (hL : In 0x4840E02 L) (h0 : Fit L s0 s) :
    ∀ post, execLayerEnable h p s = .next post → Fit L s0 post := by
  unfold execLayerEnable
  refine ok_fit ?_
  repeat' (first
    | with_reducible assumption
    | with_reducible apply command_fit (In.trans (by decide) hL)
    | with_reducible apply rowLayerEnable_fit (In.trans (by decide) hL))

theorem rowStarlightSet_fit {L : Nat} {h : Hdr} {p : StarlightSetP} (hL : In 0x840E02 L) :
    RowFit L (rowStarlightSet h p) := by
  refine ⟨fun s0 s h0 => ?_, fun s0 s h0 => ?_⟩ <;> unfold rowStarlightSet <;> try dsimp -zeta only [id]
  repeat' (first
    | with_reducible assumption
    | intro _
    | (extract_lets +onlyGivenNames x; have y := x; first | (guard_hyp y : State; clear y; refine Fit.seq L s0 x ?_ ?_; rotate_left; intro hx; clear_value x; rotate_left; dsimp -zeta only [x]; clear x) | (clear y; clear_value x))
    | with_reducible apply emit_fit (In.trans (by decide) hL)
    | with_reducible apply onScn_fit (In.trans (by decide) hL)
    | with_reducible apply acceptLayer_fit (In.trans (by decide) hL)
    | (with_reducible apply Fit.ite <;> intro _)
    | (dsimp -zeta only [id])
    | (with_reducible apply Fit.of_snd; case e => with_reducible assumption)
    | (with_reducible apply Fit.of_fst; case e => with_reducible assumption)
    | split)

theorem execStarlightSet_fit {L : Nat} {s0 : State} {h : Hdr} {p : StarlightSetP} {s : State} (hL : In 0x4840E02 L) (h0 : Fit L s0 s) :
    ∀ post, execStarlightSet h p s = .next post → Fit L s0 post := by
  unfold execStarlightSet
  refine ok_fit ?_
  repeat' (first
    | with_reducible assumption
    | with_reducible apply command_fit (In.trans (by decide) hL)
    | with_reducible apply rowStarlightSet_fit (In.trans (by decide) hL))

theorem rowScanoutStatus_fit {L : Nat} {h : Hdr} {p : ScanoutStatusP} (hL : In 0x800E02 L) :
    RowFit L (rowScanoutStatus h p) := by
  refine ⟨fun s0 s h0 => ?_, fun s0 s h0 => ?_⟩ <;> unfold rowScanoutStatus <;> try dsimp -zeta only [id]
  repeat' (first
    | with_reducible assumption
    | intro _
    | with_reducible apply finish_fit (In.trans (by decide) hL)
    | (dsimp -zeta only [id])
    | (with_reducible apply Fit.of_snd; case e => with_reducible assumption)
    | (with_reducible apply Fit.of_fst; case e => with_reducible assumption))

theorem execScanoutStatus_fit {L : Nat} {s0 : State} {h : Hdr} {p : ScanoutStatusP} {s : State} (hL : In 0x4800E02 L) (h0 : Fit L s0 s) :
    ∀ post, execScanoutStatus h p s = .next post → Fit L s0 post := by
  unfold execScanoutStatus
  refine ok_fit ?_
  repeat' (first
    | with_reducible assumption
    | with_reducible apply command_fit (In.trans (by decide) hL)
    | with_reducible apply rowScanoutStatus_fit (In.trans (by decide) hL))

end Sys2Proof.Machine
end

