-- ==== Sys2Proof/Laws/FitParams.lean ====
section
/-! SUPPORT. What each definition of Machine/Params.lean touches, and that it keeps the invariant: one lemma each. -/

set_option Elab.async false
set_option linter.all false

namespace Sys2Proof.Machine

theorem takeVolts_fit {L : Nat} {s0 : State} {v : HwdVolts} {s : State} (hL : In 0x10000000 L) (h0 : Fit L s0 s) :
    Fit L s0 (takeVolts v s) := by
  unfold takeVolts
  repeat' (first
    | with_reducible assumption
    | intro _
    | (extract_lets +onlyGivenNames x; have y := x; first | (guard_hyp y : State; clear y; refine Fit.seq L s0 x ?_ ?_; rotate_left; intro hx; clear_value x; rotate_left; dsimp -zeta only [x]; clear x) | (clear y; clear_value x))
    | with_reducible apply onHwd_fit (In.trans (by decide) hL))

theorem rowParamGet_fit {L : Nat} {h : Hdr} {p : ParamGetP} {v : HwdVolts} (hL : In 0x10800E02 L) :
    RowFit L (rowParamGet h p v) := by
  refine ⟨fun s0 s h0 => ?_, fun s0 s h0 => ?_⟩ <;> unfold rowParamGet <;> try dsimp -zeta only [id]
  repeat' (first
    | with_reducible assumption
    | intro _
    | (extract_lets +onlyGivenNames x; have y := x; first | (guard_hyp y : State; clear y; refine Fit.seq L s0 x ?_ ?_; rotate_left; intro hx; clear_value x; rotate_left; dsimp -zeta only [x]; clear x) | (clear y; clear_value x))
    | with_reducible apply finish_fit (In.trans (by decide) hL)
    | with_reducible apply takeVolts_fit (In.trans (by decide) hL)
    | (dsimp -zeta only [id])
    | (with_reducible apply Fit.of_snd; case e => with_reducible assumption)
    | (with_reducible apply Fit.of_fst; case e => with_reducible assumption)
    | split)

theorem execParamGet_fit {L : Nat} {s0 : State} {h : Hdr} {p : ParamGetP} {v : HwdVolts} {s : State} (hL : In 0x14800E02 L) (h0 : Fit L s0 s) :
    ∀ post, execParamGet h p v s = .next post → Fit L s0 post := by
  unfold execParamGet
  refine ok_fit ?_
  repeat' (first
    | with_reducible assumption
    | with_reducible apply command_fit (In.trans (by decide) hL)
    | with_reducible apply rowParamGet_fit (In.trans (by decide) hL))

theorem rowParamSet_fit {L : Nat} {i : Instr} {h : Hdr} {p : ParamSetP} (hL : In 0x11A11E3A L) :
    RowFit L (rowParamSet i h p) := by
  refine ⟨fun s0 s h0 => ?_, fun s0 s h0 => ?_⟩ <;> unfold rowParamSet <;> try dsimp -zeta only [id]
  repeat' (first
    | with_reducible assumption
    | with_reducible apply runParamSet_fit (In.trans (by decide) hL)
    | (dsimp -zeta only [id])
    | (with_reducible apply Fit.of_snd; case e => with_reducible assumption)
    | (with_reducible apply Fit.of_fst; case e => with_reducible assumption))

theorem execParamSet_fit {L : Nat} {s0 : State} {h : Hdr} {p : ParamSetP} {s : State} (hL : In 0x15A11E3A L) (h0 : Fit L s0 s) :
    ∀ post, execParamSet h p s = .next post → Fit L s0 post := by
  unfold execParamSet
  refine ok_fit ?_
  repeat' (first
    | with_reducible assumption
    | with_reducible apply command_fit (In.trans (by decide) hL)
    | with_reducible apply rowParamSet_fit (In.trans (by decide) hL))

theorem execParamSetDmcHash_fit {L : Nat} {s0 : State} {h : Hdr} {p : ParamSetP} {s : State} (hL : In 0x15A11E3A L) (h0 : Fit L s0 s) :
    ∀ post, execParamSetDmcHash h p s = .next post → Fit L s0 post := by
  unfold execParamSetDmcHash
  refine ok_fit ?_
  repeat' (first
    | with_reducible assumption
    | with_reducible apply command_fit (In.trans (by decide) hL)
    | with_reducible apply rowParamSet_fit (In.trans (by decide) hL))

theorem execParamSetDmcDly_fit {L : Nat} {s0 : State} {h : Hdr} {p : ParamSetP} {s : State} (hL : In 0x15A11E3A L) (h0 : Fit L s0 s) :
    ∀ post, execParamSetDmcDly h p s = .next post → Fit L s0 post := by
  unfold execParamSetDmcDly
  refine ok_fit ?_
  repeat' (first
    | with_reducible assumption
    | with_reducible apply command_fit (In.trans (by decide) hL)
    | with_reducible apply rowParamSet_fit (In.trans (by decide) hL))

theorem execParamSetHwdRearm_fit {L : Nat} {s0 : State} {h : Hdr} {p : ParamSetP} {s : State} (hL : In 0x15A11E3A L) (h0 : Fit L s0 s) :
    ∀ post, execParamSetHwdRearm h p s = .next post → Fit L s0 post := by
  unfold execParamSetHwdRearm
  refine ok_fit ?_
  repeat' (first
    | with_reducible assumption
    | with_reducible apply command_fit (In.trans (by decide) hL)
    | with_reducible apply rowParamSet_fit (In.trans (by decide) hL))

theorem runParamList_fit {L : Nat} {s0 : State} {h : Hdr} {p : ParamListP} {s : State} (hL : In 0x800E02 L) (h0 : Fit L s0 s) :
    Fit L s0 (runParamList h p s) := by
  unfold runParamList
  repeat' (first
    | with_reducible assumption
    | intro _
    | (extract_lets +onlyGivenNames x; have y := x; first | (guard_hyp y : State; clear y; refine Fit.seq L s0 x ?_ ?_; rotate_left; intro hx; clear_value x; rotate_left; dsimp -zeta only [x]; clear x) | (clear y; clear_value x))
    | with_reducible apply emit_fit (In.trans (by decide) hL)
    | with_reducible apply finish_fit (In.trans (by decide) hL)
    | (with_reducible apply Fit.ite <;> intro _)
    | split)

theorem rowParamList_fit {L : Nat} {h : Hdr} {p : ParamListP} {v : HwdVolts} (hL : In 0x10800E02 L) :
    RowFit L (rowParamList h p v) := by
  refine ⟨fun s0 s h0 => ?_, fun s0 s h0 => ?_⟩ <;> unfold rowParamList <;> try dsimp -zeta only [id]
  repeat' (first
    | with_reducible assumption
    | intro _
    | with_reducible apply takeVolts_fit (In.trans (by decide) hL)
    | with_reducible apply runParamList_fit (In.trans (by decide) hL)
    | (dsimp -zeta only [id])
    | (with_reducible apply Fit.of_snd; case e => with_reducible assumption)
    | (with_reducible apply Fit.of_fst; case e => with_reducible assumption))

theorem execParamList_fit {L : Nat} {s0 : State} {h : Hdr} {p : ParamListP} {v : HwdVolts} {s : State} (hL : In 0x14800E02 L) (h0 : Fit L s0 s) :
    ∀ post, execParamList h p v s = .next post → Fit L s0 post := by
  unfold execParamList
  refine ok_fit ?_
  repeat' (first
    | with_reducible assumption
    | with_reducible apply command_fit (In.trans (by decide) hL)
    | with_reducible apply rowParamList_fit (In.trans (by decide) hL))

end Sys2Proof.Machine
end

