-- ==== Sys2Proof/Laws/FitRings.lean ====
section
/-! SUPPORT. What each definition of Machine/Rings.lean touches, and that it keeps the invariant: one lemma each. -/

set_option Elab.async false
set_option linter.all false

namespace Sys2Proof.Machine

theorem hostAccess_fit {L : Nat} {s0 : State} {f : State → State} {s : State} (hL : In 0x400 L) (h0 : Fit L s0 s) (h_f : ∀ v0, Fit L s0 v0 → Fit L s0 (f v0)) :
    Fit L s0 (hostAccess f s) := by
  unfold hostAccess
  repeat' (first
    | with_reducible assumption
    | with_reducible apply hostTouch_fit (In.trans (by decide) hL)
    | with_reducible apply h_f
    | (with_reducible apply Fit.ite <;> intro _))

theorem dropUnread_fit {L : Nat} {s0 : State} {r : Fin 16} {s : State} (hL : In 0x400 L) (h0 : Fit L s0 s) :
    Fit L s0 (dropUnread r s) := by
  unfold dropUnread
  repeat' (first
    | with_reducible assumption
    | intro _
    | (extract_lets +onlyGivenNames x; have y := x; first | (guard_hyp y : State; clear y; refine Fit.seq L s0 x ?_ ?_; rotate_left; intro hx; clear_value x; rotate_left; dsimp -zeta only [x]; clear x) | (guard_hyp y : CmdSt; clear y; dsimp -zeta only [x]; clear x) | (clear y; clear_value x))
    | (with_reducible apply Fit.upd_cmd (In.trans (by decide) hL); rotate_left; with_reducible rfl; first | (with_reducible apply Fit.ite <;> intro _) | (fail_if_success split)))

theorem ringStart_fit {L : Nat} {s0 : State} {r : Nat} {s : State} (hL : In 0x600 L) (h0 : Fit L s0 s) :
    Fit L s0 (ringStart r s) := by
  unfold ringStart
  repeat' (first
    | with_reducible assumption
    | (extract_lets +onlyGivenNames x; have y := x; first | (guard_hyp y : State; clear y; refine Fit.seq L s0 x ?_ ?_; rotate_left; intro hx; clear_value x; rotate_left; dsimp -zeta only [x]; clear x) | (clear y; clear_value x))
    | with_reducible apply move_fit (In.trans (by decide) hL)
    | with_reducible apply setRing_fit (In.trans (by decide) hL))

theorem ringFields_fit {L : Nat} {s0 : State} {r v : Nat} {en : Bool} {s : State} (hL : In 0x400 L) (h0 : Fit L s0 s) :
    Fit L s0 (ringFields r v en s) := by
  unfold ringFields
  repeat' (first
    | with_reducible assumption
    | (extract_lets +onlyGivenNames x; have y := x; first | (guard_hyp y : State; clear y; refine Fit.seq L s0 x ?_ ?_; rotate_left; intro hx; clear_value x; rotate_left; dsimp -zeta only [x]; clear x) | (clear y; clear_value x))
    | with_reducible apply setRing_fit (In.trans (by decide) hL)
    | (with_reducible apply Fit.ite <;> intro _))

theorem ringEnable_fit {L : Nat} {s0 : State} {r v : Nat} {s : State} (hL : In 0x800E02 L) (h0 : Fit L s0 s) :
    Fit L s0 (ringEnable r v s) := by
  unfold ringEnable
  repeat' (first
    | with_reducible assumption
    | (extract_lets +onlyGivenNames x; have y := x; first | (guard_hyp y : State; clear y; refine Fit.seq L s0 x ?_ ?_; rotate_left; intro hx; clear_value x; rotate_left; dsimp -zeta only [x]; clear x) | (clear y; clear_value x))
    | with_reducible apply ringError_fit (In.trans (by decide) hL)
    | with_reducible apply ringStart_fit (In.trans (by decide) hL)
    | with_reducible apply ringFields_fit (In.trans (by decide) hL)
    | (with_reducible apply Fit.ite <;> intro _))

theorem execRingEnable_fit {L : Nat} {s0 : State} {r : Fin 16} {v : BitVec 31} {s : State} (hL : In 0x800E02 L) (h0 : Fit L s0 s) :
    ∀ post, execRingEnable r v s = .next post → Fit L s0 post := by
  unfold execRingEnable
  refine ok_fit ?_
  repeat' (first
    | with_reducible assumption
    | intro _
    | with_reducible apply hostAccess_fit (In.trans (by decide) hL)
    | with_reducible apply ringEnable_fit (In.trans (by decide) hL))

theorem ringDisable_fit {L : Nat} {s0 : State} {r : Fin 16} {v : Nat} {s : State} (hL : In 0x400 L) (h0 : Fit L s0 s) :
    Fit L s0 (ringDisable r v s) := by
  unfold ringDisable
  repeat' (first
    | with_reducible assumption
    | (extract_lets +onlyGivenNames x; have y := x; first | (guard_hyp y : State; clear y; refine Fit.seq L s0 x ?_ ?_; rotate_left; intro hx; clear_value x; rotate_left; dsimp -zeta only [x]; clear x) | (clear y; clear_value x))
    | with_reducible apply setRing_fit (In.trans (by decide) hL)
    | with_reducible apply dropUnread_fit (In.trans (by decide) hL)
    | with_reducible apply ringFields_fit (In.trans (by decide) hL)
    | (with_reducible apply Fit.ite <;> intro _))

theorem execRingDisable_fit {L : Nat} {s0 : State} {r : Fin 16} {v : BitVec 31} {s : State} (hL : In 0x400 L) (h0 : Fit L s0 s) :
    ∀ post, execRingDisable r v s = .next post → Fit L s0 post := by
  unfold execRingDisable
  refine ok_fit ?_
  repeat' (first
    | with_reducible assumption
    | intro _
    | with_reducible apply hostAccess_fit (In.trans (by decide) hL)
    | with_reducible apply ringDisable_fit (In.trans (by decide) hL))

theorem execRingDrained_fit {L : Nat} {s0 : State} {r : Fin 16} {s : State} (hL : In 0x600 L) (h0 : Fit L s0 s) :
    ∀ post, execRingDrained r s = .next post → Fit L s0 post := by
  unfold execRingDrained
  refine ok_fit ?_
  repeat' (first
    | with_reducible assumption
    | with_reducible apply ringOff_fit (In.trans (by decide) hL)
    | (with_reducible apply Fit.ite <;> intro _))

theorem rowStray_fit {L : Nat} {x : Stray} (hL : In 0x0 L) :
    RowFit L (rowStray x) := by
  refine ⟨fun s0 s h0 => ?_, fun s0 s h0 => ?_⟩ <;> unfold rowStray <;> try dsimp -zeta only [id]
  repeat' (first
    | with_reducible assumption
    | intro _
    | (with_reducible apply Fit.ite <;> intro _)
    | (dsimp -zeta only [id])
    | (with_reducible apply Fit.of_snd; case e => with_reducible assumption)
    | (with_reducible apply Fit.of_fst; case e => with_reducible assumption)
    | split)

theorem sqTail_fit {L : Nat} {s0 : State} {r : Fin 16} {v : Nat} {strays : List Stray} {mem : HostMem} {s : State} (hL : In 0x4800E02 L) (h0 : Fit L s0 s) :
    Fit L s0 (sqTail r v strays mem s) := by
  unfold sqTail
  repeat' (first
    | with_reducible assumption
    | intro _
    | (extract_lets +onlyGivenNames x; have y := x; first | (guard_hyp y : State; clear y; refine Fit.seq L s0 x ?_ ?_; rotate_left; intro hx; clear_value x; rotate_left; dsimp -zeta only [x]; clear x) | ((first | (guard_hyp y : _ → State; clear y) | (guard_hyp y : _ → _ → State; clear y) | (guard_hyp y : _ → _ → _ → State; clear y)); dsimp -zeta only [x]; clear x) | (clear y; clear_value x))
    | with_reducible apply move_fit (In.trans (by decide) hL)
    | with_reducible apply setRing_fit (In.trans (by decide) hL)
    | with_reducible apply ringError_fit (In.trans (by decide) hL)
    | with_reducible apply command_fit (In.trans (by decide) hL)
    | with_reducible apply dropUnread_fit (In.trans (by decide) hL)
    | with_reducible apply rowStray_fit (In.trans (by decide) hL)
    | (with_reducible apply Fit.ite <;> intro _)
    | (with_reducible apply Fit.foldl)
    | split)

theorem execSqTail_fit {L : Nat} {s0 : State} {r : Fin 16} {v : U32} {strays : List Stray} {mem : HostMem} {s : State} (hL : In 0x4800E02 L) (h0 : Fit L s0 s) :
    ∀ post, execSqTail r v strays mem s = .next post → Fit L s0 post := by
  unfold execSqTail
  refine ok_fit ?_
  repeat' (first
    | with_reducible assumption
    | intro _
    | with_reducible apply hostAccess_fit (In.trans (by decide) hL)
    | with_reducible apply sqTail_fit (In.trans (by decide) hL))

theorem cqHead_fit {L : Nat} {s0 : State} {r : Fin 16} {v : Nat} {s : State} (hL : In 0x800E02 L) (h0 : Fit L s0 s) :
    Fit L s0 (cqHead r v s) := by
  unfold cqHead
  repeat' (first
    | with_reducible assumption
    | (extract_lets +onlyGivenNames x; have y := x; first | (guard_hyp y : State; clear y; refine Fit.seq L s0 x ?_ ?_; rotate_left; intro hx; clear_value x; rotate_left; dsimp -zeta only [x]; clear x) | (clear y; clear_value x))
    | with_reducible apply sendMsix_fit (In.trans (by decide) hL)
    | with_reducible apply move_fit (In.trans (by decide) hL)
    | with_reducible apply setRing_fit (In.trans (by decide) hL)
    | with_reducible apply ringError_fit (In.trans (by decide) hL)
    | with_reducible apply dropUnread_fit (In.trans (by decide) hL)
    | (with_reducible apply Fit.ite <;> intro _))

theorem execCqHead_fit {L : Nat} {s0 : State} {r : Fin 16} {v : U32} {s : State} (hL : In 0x800E02 L) (h0 : Fit L s0 s) :
    ∀ post, execCqHead r v s = .next post → Fit L s0 post := by
  unfold execCqHead
  refine ok_fit ?_
  repeat' (first
    | with_reducible assumption
    | intro _
    | with_reducible apply hostAccess_fit (In.trans (by decide) hL)
    | with_reducible apply cqHead_fit (In.trans (by decide) hL))

theorem renewLease_fit {L : Nat} {s0 : State} {s : State} (hL : In 0x400 L) (h0 : Fit L s0 s) :
    Fit L s0 (renewLease s) := by
  unfold renewLease
  repeat' (first
    | with_reducible assumption
    | (extract_lets +onlyGivenNames x; have y := x; first | (guard_hyp y : State; clear y; refine Fit.seq L s0 x ?_ ?_; rotate_left; intro hx; clear_value x; rotate_left; dsimp -zeta only [x]; clear x) | (guard_hyp y : CmdSt; clear y; dsimp -zeta only [x]; clear x) | (clear y; clear_value x))
    | (with_reducible apply Fit.upd_cmd (In.trans (by decide) hL); rotate_left; with_reducible rfl; first | (with_reducible apply Fit.ite <;> intro _) | (fail_if_success split)))

theorem leaseHb_fit {L : Nat} {s0 : State} {s : State} (hL : In 0x800C02 L) (h0 : Fit L s0 s) :
    Fit L s0 (leaseHb s) := by
  unfold leaseHb
  repeat' (first
    | with_reducible assumption
    | with_reducible apply raise_fit (In.trans (by decide) hL)
    | with_reducible apply renewLease_fit (In.trans (by decide) hL)
    | (with_reducible apply Fit.ite <;> intro _))

theorem execLeaseHb_fit {L : Nat} {s0 : State} {_v : U32} {s : State} (hL : In 0x800C02 L) (h0 : Fit L s0 s) :
    ∀ post, execLeaseHb _v s = .next post → Fit L s0 post := by
  unfold execLeaseHb
  refine ok_fit ?_
  repeat' (first
    | with_reducible assumption
    | intro _
    | with_reducible apply hostAccess_fit (In.trans (by decide) hL)
    | with_reducible apply leaseHb_fit (In.trans (by decide) hL))

theorem safeReq_fit {L : Nat} {s0 : State} {v : Nat} {s : State} (hL : In 0xFFFFFFE L) (h0 : Fit L s0 s) :
    Fit L s0 (safeReq v s) := by
  unfold safeReq
  repeat' (first
    | with_reducible assumption
    | with_reducible apply raise_fit (In.trans (by decide) hL)
    | with_reducible apply decideRecov_fit (In.trans (by decide) hL)
    | (with_reducible apply Fit.ite <;> intro _))

theorem execSafeReq_fit {L : Nat} {s0 : State} {v : U32} {s : State} (hL : In 0xFFFFFFE L) (h0 : Fit L s0 s) :
    ∀ post, execSafeReq v s = .next post → Fit L s0 post := by
  unfold execSafeReq
  refine ok_fit ?_
  repeat' (first
    | with_reducible assumption
    | intro _
    | with_reducible apply hostAccess_fit (In.trans (by decide) hL)
    | with_reducible apply safeReq_fit (In.trans (by decide) hL))

theorem ringBase_fit {L : Nat} {s0 : State} {r off v : Nat} {s : State} (hL : In 0x400 L) (h0 : Fit L s0 s) :
    Fit L s0 (ringBase r off v s) := by
  unfold ringBase
  repeat' (first
    | with_reducible assumption
    | (extract_lets +onlyGivenNames x; have y := x; first | (guard_hyp y : State; clear y; refine Fit.seq L s0 x ?_ ?_; rotate_left; intro hx; clear_value x; rotate_left; dsimp -zeta only [x]; clear x) | (clear y; clear_value x))
    | with_reducible apply setRing_fit (In.trans (by decide) hL)
    | (with_reducible apply Fit.ite <;> intro _))

theorem vmapWrite_fit {L : Nat} {s0 : State} {i v : Nat} {s : State} (hL : In 0x800 L) (h0 : Fit L s0 s) :
    Fit L s0 (vmapWrite i v s) := by
  unfold vmapWrite
  repeat' (first
    | with_reducible assumption
    | intro _
    | (extract_lets +onlyGivenNames x; have y := x; first | (guard_hyp y : State; clear y; refine Fit.seq L s0 x ?_ ?_; rotate_left; intro hx; clear_value x; rotate_left; dsimp -zeta only [x]; clear x) | ((first | (guard_hyp y : EvtSt; clear y) | (guard_hyp y : _ → State; clear y) | (guard_hyp y : _ → _ → State; clear y) | (guard_hyp y : _ → _ → _ → State; clear y)); dsimp -zeta only [x]; clear x) | (clear y; clear_value x))
    | (with_reducible apply Fit.foldl)
    | (with_reducible apply Fit.upd_evt (In.trans (by decide) hL); rotate_left; with_reducible rfl; with_reducible rfl; first | (with_reducible apply Fit.ite <;> intro _) | (fail_if_success split)))

theorem evqBase_fit {L : Nat} {s0 : State} {hi : Bool} {v : Nat} {s : State} (hL : In 0x800 L) (h0 : Fit L s0 s) :
    Fit L s0 (evqBase hi v s) := by
  unfold evqBase
  repeat' (first
    | with_reducible assumption
    | (extract_lets +onlyGivenNames x; have y := x; first | (guard_hyp y : State; clear y; refine Fit.seq L s0 x ?_ ?_; rotate_left; intro hx; clear_value x; rotate_left; dsimp -zeta only [x]; clear x) | (guard_hyp y : EvtSt; clear y; dsimp -zeta only [x]; clear x) | (clear y; clear_value x))
    | (with_reducible apply Fit.ite <;> intro _)
    | (with_reducible apply Fit.upd_evt (In.trans (by decide) hL); rotate_left; with_reducible rfl; with_reducible rfl; first | (with_reducible apply Fit.ite <;> intro _) | (fail_if_success split)))

theorem msixWrite_fit {L : Nat} {s0 : State} {k v : Nat} {s : State} (hL : In 0x402 L) (h0 : Fit L s0 s) :
    Fit L s0 (msixWrite k v s) := by
  unfold msixWrite
  repeat' (first
    | with_reducible assumption
    | (extract_lets +onlyGivenNames x; have y := x; first | (guard_hyp y : State; clear y; refine Fit.seq L s0 x ?_ ?_; rotate_left; intro hx; clear_value x; rotate_left; dsimp -zeta only [x]; clear x) | (guard_hyp y : CmdSt; clear y; dsimp -zeta only [x]; clear x) | (clear y; clear_value x))
    | with_reducible apply emit_fit (In.trans (by decide) hL)
    | (with_reducible apply Fit.ite <;> intro _)
    | (with_reducible apply Fit.upd_cmd (In.trans (by decide) hL); rotate_left; with_reducible rfl; first | (with_reducible apply Fit.ite <;> intro _) | (fail_if_success split)))

theorem pendWrite_fit {L : Nat} {s0 : State} {i v : Nat} {s : State} (hL : In 0x800 L) (h0 : Fit L s0 s) :
    Fit L s0 (pendWrite i v s) := by
  unfold pendWrite
  repeat' (first
    | with_reducible assumption
    | (extract_lets +onlyGivenNames x; have y := x; first | (guard_hyp y : State; clear y; refine Fit.seq L s0 x ?_ ?_; rotate_left; intro hx; clear_value x; rotate_left; dsimp -zeta only [x]; clear x) | (guard_hyp y : EvtSt; clear y; dsimp -zeta only [x]; clear x) | (clear y; clear_value x))
    | (with_reducible apply Fit.upd_evt (In.trans (by decide) hL); rotate_left; with_reducible rfl; with_reducible rfl; first | (with_reducible apply Fit.ite <;> intro _) | (fail_if_success split)))

theorem execEvtPendWrite_fit {L : Nat} {s0 : State} {word : Fin 8} {v : U32} {s : State} (hL : In 0xC00 L) (h0 : Fit L s0 s) :
    ∀ post, execEvtPendWrite word v s = .next post → Fit L s0 post := by
  unfold execEvtPendWrite
  refine ok_fit ?_
  repeat' (first
    | with_reducible assumption
    | intro _
    | with_reducible apply hostAccess_fit (In.trans (by decide) hL)
    | with_reducible apply pendWrite_fit (In.trans (by decide) hL))

theorem maskWrite_fit {L : Nat} {s0 : State} {i v : Nat} {s : State} (hL : In 0xC02 L) (h0 : Fit L s0 s) :
    Fit L s0 (maskWrite i v s) := by
  unfold maskWrite
  repeat' (first
    | with_reducible assumption
    | intro _
    | (extract_lets +onlyGivenNames x; have y := x; first | (guard_hyp y : State; clear y; refine Fit.seq L s0 x ?_ ?_; rotate_left; intro hx; clear_value x; rotate_left; dsimp -zeta only [x]; clear x) | (guard_hyp y : EvtSt; clear y; dsimp -zeta only [x]; clear x) | (clear y; clear_value x))
    | with_reducible apply sendMsix_fit (In.trans (by decide) hL)
    | (with_reducible apply Fit.ite <;> intro _)
    | (with_reducible apply Fit.foldl)
    | (with_reducible apply Fit.upd_evt (In.trans (by decide) hL); rotate_left; with_reducible rfl; with_reducible rfl; first | (with_reducible apply Fit.ite <;> intro _) | (fail_if_success split))
    | split)

theorem execEvtMaskWrite_fit {L : Nat} {s0 : State} {word : Fin 8} {v : U32} {s : State} (hL : In 0xC02 L) (h0 : Fit L s0 s) :
    ∀ post, execEvtMaskWrite word v s = .next post → Fit L s0 post := by
  unfold execEvtMaskWrite
  refine ok_fit ?_
  repeat' (first
    | with_reducible assumption
    | intro _
    | with_reducible apply hostAccess_fit (In.trans (by decide) hL)
    | with_reducible apply maskWrite_fit (In.trans (by decide) hL))

theorem evqCtl_fit {L : Nat} {s0 : State} {v : Nat} {s : State} (hL : In 0x800 L) (h0 : Fit L s0 s) :
    Fit L s0 (evqCtl v s) := by
  unfold evqCtl
  repeat' (first
    | with_reducible assumption
    | (extract_lets +onlyGivenNames x; have y := x; first | (guard_hyp y : State; clear y; refine Fit.seq L s0 x ?_ ?_; rotate_left; intro hx; clear_value x; rotate_left; dsimp -zeta only [x]; clear x) | (guard_hyp y : EvtSt; clear y; dsimp -zeta only [x]; clear x) | (clear y; clear_value x))
    | (with_reducible apply Fit.ite <;> intro _)
    | (with_reducible apply Fit.upd_evt (In.trans (by decide) hL); rotate_left; with_reducible rfl; with_reducible rfl; first | (with_reducible apply Fit.ite <;> intro _) | (fail_if_success split)))

theorem execEvqCtlWrite_fit {L : Nat} {s0 : State} {v : U32} {s : State} (hL : In 0xC00 L) (h0 : Fit L s0 s) :
    ∀ post, execEvqCtlWrite v s = .next post → Fit L s0 post := by
  unfold execEvqCtlWrite
  refine ok_fit ?_
  repeat' (first
    | with_reducible assumption
    | intro _
    | with_reducible apply hostAccess_fit (In.trans (by decide) hL)
    | with_reducible apply evqCtl_fit (In.trans (by decide) hL))

theorem evqHead_fit {L : Nat} {s0 : State} {v : Nat} {s : State} (hL : In 0x800C02 L) (h0 : Fit L s0 s) :
    Fit L s0 (evqHead v s) := by
  unfold evqHead
  repeat' (first
    | with_reducible assumption
    | (extract_lets +onlyGivenNames x; have y := x; first | (guard_hyp y : State; clear y; refine Fit.seq L s0 x ?_ ?_; rotate_left; intro hx; clear_value x; rotate_left; dsimp -zeta only [x]; clear x) | (guard_hyp y : EvtSt; clear y; dsimp -zeta only [x]; clear x) | (clear y; clear_value x))
    | with_reducible apply raise_fit (In.trans (by decide) hL)
    | (with_reducible apply Fit.ite <;> intro _)
    | (with_reducible apply Fit.upd_evt (In.trans (by decide) hL); rotate_left; with_reducible rfl; with_reducible rfl; first | (with_reducible apply Fit.ite <;> intro _) | (fail_if_success split)))

theorem execEvqHead_fit {L : Nat} {s0 : State} {v : U32} {s : State} (hL : In 0x800C02 L) (h0 : Fit L s0 s) :
    ∀ post, execEvqHead v s = .next post → Fit L s0 post := by
  unfold execEvqHead
  refine ok_fit ?_
  repeat' (first
    | with_reducible assumption
    | intro _
    | with_reducible apply hostAccess_fit (In.trans (by decide) hL)
    | with_reducible apply evqHead_fit (In.trans (by decide) hL))

theorem execEvqDroppedRead_fit {L : Nat} {s0 : State} {s : State} (hL : In 0xC02 L) (h0 : Fit L s0 s) :
    ∀ post, execEvqDroppedRead s = .next post → Fit L s0 post := by
  unfold execEvqDroppedRead
  refine ok_fit ?_
  repeat' (first
    | with_reducible assumption
    | intro _
    | (extract_lets +onlyGivenNames x; have y := x; first | (guard_hyp y : State; clear y; refine Fit.seq L s0 x ?_ ?_; rotate_left; intro hx; clear_value x; rotate_left; dsimp -zeta only [x]; clear x) | (guard_hyp y : EvtSt; clear y; dsimp -zeta only [x]; clear x) | (clear y; clear_value x))
    | with_reducible apply emit_fit (In.trans (by decide) hL)
    | with_reducible apply hostAccess_fit (In.trans (by decide) hL)
    | (with_reducible apply Fit.upd_evt (In.trans (by decide) hL); rotate_left; with_reducible rfl; with_reducible rfl; first | (with_reducible apply Fit.ite <;> intro _) | (fail_if_success split)))

theorem execCoalesceMsEnd_fit {L : Nat} {s0 : State} {s : State} (hL : In 0x800C22 L) (h0 : Fit L s0 s) :
    ∀ post, execCoalesceMsEnd s = .next post → Fit L s0 post := by
  unfold execCoalesceMsEnd
  refine ok_fit ?_
  repeat' (first
    | with_reducible assumption
    | intro _
    | (extract_lets +onlyGivenNames x; have y := x; first | (guard_hyp y : State; clear y; refine Fit.seq L s0 x ?_ ?_; rotate_left; intro hx; clear_value x; rotate_left; dsimp -zeta only [x]; clear x) | (guard_hyp y : EvtSt; clear y; dsimp -zeta only [x]; clear x) | (clear y; clear_value x))
    | with_reducible apply advanceMer_fit (In.trans (by decide) hL)
    | with_reducible apply coalesceEnd_fit (In.trans (by decide) hL)
    | (with_reducible apply Fit.foldl)
    | split)

theorem regWrite_fit {L : Nat} {s0 : State} {off v : Nat} {s : State} (hL : In 0xFFFFFFE L) (h0 : Fit L s0 s) :
    Fit L s0 (regWrite off v s) := by
  unfold regWrite
  repeat' (first
    | with_reducible assumption
    | (extract_lets +onlyGivenNames x; have y := x; first | (guard_hyp y : State; clear y; refine Fit.seq L s0 x ?_ ?_; rotate_left; intro hx; clear_value x; rotate_left; dsimp -zeta only [x]; clear x) | (clear y; clear_value x))
    | with_reducible apply ringEnable_fit (In.trans (by decide) hL)
    | with_reducible apply ringDisable_fit (In.trans (by decide) hL)
    | with_reducible apply sqTail_fit (In.trans (by decide) hL)
    | with_reducible apply cqHead_fit (In.trans (by decide) hL)
    | with_reducible apply leaseHb_fit (In.trans (by decide) hL)
    | with_reducible apply safeReq_fit (In.trans (by decide) hL)
    | with_reducible apply ringBase_fit (In.trans (by decide) hL)
    | with_reducible apply vmapWrite_fit (In.trans (by decide) hL)
    | with_reducible apply evqBase_fit (In.trans (by decide) hL)
    | with_reducible apply msixWrite_fit (In.trans (by decide) hL)
    | with_reducible apply pendWrite_fit (In.trans (by decide) hL)
    | with_reducible apply maskWrite_fit (In.trans (by decide) hL)
    | with_reducible apply evqCtl_fit (In.trans (by decide) hL)
    | with_reducible apply evqHead_fit (In.trans (by decide) hL)
    | (with_reducible apply Fit.ite <;> intro _))

theorem execRegisterWrite_fit {L : Nat} {s0 : State} {off : U16} {v : U32} {s : State} (hL : In 0xFFFFFFE L) (h0 : Fit L s0 s) :
    ∀ post, execRegisterWrite off v s = .next post → Fit L s0 post := by
  unfold execRegisterWrite
  refine ok_fit ?_
  repeat' (first
    | with_reducible assumption
    | intro _
    | with_reducible apply hostAccess_fit (In.trans (by decide) hL)
    | with_reducible apply regWrite_fit (In.trans (by decide) hL))

theorem execReg64LowRead_fit {L : Nat} {s0 : State} {m : Master} {off : U16} {s : State} (hL : In 0x402 L) (h0 : Fit L s0 s) :
    ∀ post, execReg64LowRead m off s = .next post → Fit L s0 post := by
  unfold execReg64LowRead
  refine ok_fit ?_
  repeat' (first
    | with_reducible assumption
    | intro _
    | (extract_lets +onlyGivenNames x; have y := x; first | (guard_hyp y : State; clear y; refine Fit.seq L s0 x ?_ ?_; rotate_left; intro hx; clear_value x; rotate_left; dsimp -zeta only [x]; clear x) | (guard_hyp y : CmdSt; clear y; dsimp -zeta only [x]; clear x) | (clear y; clear_value x))
    | with_reducible apply emit_fit (In.trans (by decide) hL)
    | with_reducible apply hostAccess_fit (In.trans (by decide) hL)
    | (with_reducible apply Fit.ite <;> intro _)
    | (with_reducible apply Fit.upd_cmd (In.trans (by decide) hL); rotate_left; with_reducible rfl; first | (with_reducible apply Fit.ite <;> intro _) | (fail_if_success split))
    | split)

end Sys2Proof.Machine
end

