-- ==== Sys2Proof/Laws/FitLease.lean ====
section
/-! SUPPORT. What each definition of Machine/Lease.lean touches, and that it keeps the invariant: one lemma each. -/

set_option Elab.async false
set_option linter.all false

namespace Sys2Proof.Machine

theorem rowNop_fit {L : Nat} {h : Hdr} (hL : In 0x800E02 L) :
    RowFit L (rowNop h) := by
  refine ⟨fun s0 s h0 => ?_, fun s0 s h0 => ?_⟩ <;> unfold rowNop <;> try dsimp -zeta only [id]
  repeat' (first
    | with_reducible assumption
    | intro _
    | with_reducible apply finish_fit (In.trans (by decide) hL)
    | (dsimp -zeta only [id])
    | (with_reducible apply Fit.of_snd; case e => with_reducible assumption)
    | (with_reducible apply Fit.of_fst; case e => with_reducible assumption))

theorem execNop_fit {L : Nat} {s0 : State} {h : Hdr} {s : State} (hL : In 0x4800E02 L) (h0 : Fit L s0 s) :
    ∀ post, execNop h s = .next post → Fit L s0 post := by
  unfold execNop
  refine ok_fit ?_
  repeat' (first
    | with_reducible assumption
    | with_reducible apply command_fit (In.trans (by decide) hL)
    | with_reducible apply rowNop_fit (In.trans (by decide) hL))

theorem rowGetInfo_fit {L : Nat} {h : Hdr} {p : GetInfoP} (hL : In 0x800E02 L) :
    RowFit L (rowGetInfo h p) := by
  refine ⟨fun s0 s h0 => ?_, fun s0 s h0 => ?_⟩ <;> unfold rowGetInfo <;> try dsimp -zeta only [id]
  repeat' (first
    | with_reducible assumption
    | intro _
    | with_reducible apply finish_fit (In.trans (by decide) hL)
    | (dsimp -zeta only [id])
    | (with_reducible apply Fit.of_snd; case e => with_reducible assumption)
    | (with_reducible apply Fit.of_fst; case e => with_reducible assumption))

theorem execGetInfo_fit {L : Nat} {s0 : State} {h : Hdr} {p : GetInfoP} {s : State} (hL : In 0x4800E02 L) (h0 : Fit L s0 s) :
    ∀ post, execGetInfo h p s = .next post → Fit L s0 post := by
  unfold execGetInfo
  refine ok_fit ?_
  repeat' (first
    | with_reducible assumption
    | with_reducible apply command_fit (In.trans (by decide) hL)
    | with_reducible apply rowGetInfo_fit (In.trans (by decide) hL))

theorem expireLease_fit {L : Nat} {s0 : State} {s : State} (hL : In 0x1800C02 L) (h0 : Fit L s0 s) :
    Fit L s0 (expireLease s) := by
  unfold expireLease
  repeat' (first
    | with_reducible assumption
    | (extract_lets +onlyGivenNames x; have y := x; first | (guard_hyp y : State; clear y; refine Fit.seq L s0 x ?_ ?_; rotate_left; intro hx; clear_value x; rotate_left; dsimp -zeta only [x]; clear x) | (guard_hyp y : CmdSt; clear y; dsimp -zeta only [x]; clear x) | (clear y; clear_value x))
    | with_reducible apply raise_fit (In.trans (by decide) hL)
    | with_reducible apply dropUnlocks_fit (In.trans (by decide) hL)
    | (with_reducible apply Fit.ite <;> intro _)
    | (with_reducible apply Fit.upd_cmd (In.trans (by decide) hL); rotate_left; with_reducible rfl; first | (with_reducible apply Fit.ite <;> intro _) | (fail_if_success split))
    | split)

theorem endHeldOf_fit {L : Nat} {s0 : State} {m : Master} {s : State} (hL : In 0x800E02 L) (h0 : Fit L s0 s) :
    Fit L s0 (endHeldOf m s) := by
  unfold endHeldOf
  repeat' (first
    | with_reducible assumption
    | intro _
    | (extract_lets +onlyGivenNames x; have y := x; first | (guard_hyp y : State; clear y; refine Fit.seq L s0 x ?_ ?_; rotate_left; intro hx; clear_value x; rotate_left; dsimp -zeta only [x]; clear x) | (guard_hyp y : CmdSt; clear y; dsimp -zeta only [x]; clear x) | (clear y; clear_value x))
    | with_reducible apply finishAll_fit (In.trans (by decide) hL)
    | (with_reducible apply Fit.upd_cmd (In.trans (by decide) hL); rotate_left; with_reducible rfl; first | (with_reducible apply Fit.ite <;> intro _) | (fail_if_success split)))

theorem endUpdateOf_fit {L : Nat} {s0 : State} {m : Master} {s : State} (hL : In 0x9800E02 L) (h0 : Fit L s0 s) :
    Fit L s0 (endUpdateOf m s) := by
  unfold endUpdateOf
  repeat' (first
    | with_reducible assumption
    | (extract_lets +onlyGivenNames x; have y := x; first | (guard_hyp y : State; clear y; refine Fit.seq L s0 x ?_ ?_; rotate_left; intro hx; clear_value x; rotate_left; dsimp -zeta only [x]; clear x) | (clear y; clear_value x))
    | with_reducible apply endUpdate_fit (In.trans (by decide) hL)
    | (with_reducible apply Fit.ite <;> intro _)
    | split)

theorem grantLease_fit {L : Nat} {s0 : State} {m : Master} {forced : Bool} {s : State} (hL : In 0x9800E02 L) (h0 : Fit L s0 s) :
    Fit L s0 (grantLease m forced s) := by
  unfold grantLease
  repeat' (first
    | with_reducible assumption
    | (extract_lets +onlyGivenNames x; have y := x; first | (guard_hyp y : State; clear y; refine Fit.seq L s0 x ?_ ?_; rotate_left; intro hx; clear_value x; rotate_left; dsimp -zeta only [x]; clear x) | (guard_hyp y : CmdSt; clear y; dsimp -zeta only [x]; clear x) | (clear y; clear_value x))
    | with_reducible apply raise_fit (In.trans (by decide) hL)
    | with_reducible apply dropUnlocks_fit (In.trans (by decide) hL)
    | with_reducible apply renewLease_fit (In.trans (by decide) hL)
    | with_reducible apply endHeldOf_fit (In.trans (by decide) hL)
    | with_reducible apply endUpdateOf_fit (In.trans (by decide) hL)
    | (with_reducible apply Fit.upd_cmd (In.trans (by decide) hL); rotate_left; with_reducible rfl; first | (with_reducible apply Fit.ite <;> intro _) | (fail_if_success split)))

theorem runTake_fit {L : Nat} {s0 : State} {h : Hdr} {p : LeaseTakeP} {s : State} (hL : In 0x9800E02 L) (h0 : Fit L s0 s) :
    Fit L s0 (runTake h p s) := by
  unfold runTake
  repeat' (first
    | with_reducible assumption
    | intro _
    | (extract_lets +onlyGivenNames x; have y := x; first | (guard_hyp y : State; clear y; refine Fit.seq L s0 x ?_ ?_; rotate_left; intro hx; clear_value x; rotate_left; dsimp -zeta only [x]; clear x) | ((first | (guard_hyp y : _ → State; clear y) | (guard_hyp y : _ → _ → State; clear y) | (guard_hyp y : _ → _ → _ → State; clear y)); dsimp -zeta only [x]; clear x) | (clear y; clear_value x))
    | with_reducible apply finish_fit (In.trans (by decide) hL)
    | with_reducible apply renewLease_fit (In.trans (by decide) hL)
    | with_reducible apply grantLease_fit (In.trans (by decide) hL)
    | split)

theorem rowLeaseTake_fit {L : Nat} {h : Hdr} {p : LeaseTakeP} (hL : In 0x9800E02 L) :
    RowFit L (rowLeaseTake h p) := by
  refine ⟨fun s0 s h0 => ?_, fun s0 s h0 => ?_⟩ <;> unfold rowLeaseTake <;> try dsimp -zeta only [id]
  repeat' (first
    | with_reducible assumption
    | intro _
    | with_reducible apply expireLease_fit (In.trans (by decide) hL)
    | with_reducible apply runTake_fit (In.trans (by decide) hL)
    | (dsimp -zeta only [id])
    | (with_reducible apply Fit.of_snd; case e => with_reducible assumption)
    | (with_reducible apply Fit.of_fst; case e => with_reducible assumption))

theorem execLeaseTake_fit {L : Nat} {s0 : State} {h : Hdr} {p : LeaseTakeP} {s : State} (hL : In 0xD800E02 L) (h0 : Fit L s0 s) :
    ∀ post, execLeaseTake h p s = .next post → Fit L s0 post := by
  unfold execLeaseTake
  refine ok_fit ?_
  repeat' (first
    | with_reducible assumption
    | with_reducible apply command_fit (In.trans (by decide) hL)
    | with_reducible apply rowLeaseTake_fit (In.trans (by decide) hL))

theorem rowLeaseRenew_fit {L : Nat} {h : Hdr} (hL : In 0x1800E02 L) :
    RowFit L (rowLeaseRenew h) := by
  refine ⟨fun s0 s h0 => ?_, fun s0 s h0 => ?_⟩ <;> unfold rowLeaseRenew <;> try dsimp -zeta only [id]
  repeat' (first
    | with_reducible assumption
    | intro _
    | (extract_lets +onlyGivenNames x; have y := x; first | (guard_hyp y : State; clear y; refine Fit.seq L s0 x ?_ ?_; rotate_left; intro hx; clear_value x; rotate_left; dsimp -zeta only [x]; clear x) | (guard_hyp y : CmdSt; clear y; dsimp -zeta only [x]; clear x) | (clear y; clear_value x))
    | with_reducible apply finish_fit (In.trans (by decide) hL)
    | with_reducible apply renewLease_fit (In.trans (by decide) hL)
    | with_reducible apply expireLease_fit (In.trans (by decide) hL)
    | (dsimp -zeta only [id])
    | (with_reducible apply Fit.of_snd; case e => with_reducible assumption)
    | (with_reducible apply Fit.of_fst; case e => with_reducible assumption)
    | (with_reducible apply Fit.upd_cmd (In.trans (by decide) hL); rotate_left; with_reducible rfl; first | (with_reducible apply Fit.ite <;> intro _) | (fail_if_success split)))

theorem execLeaseRenew_fit {L : Nat} {s0 : State} {h : Hdr} {s : State} (hL : In 0x5800E02 L) (h0 : Fit L s0 s) :
    ∀ post, execLeaseRenew h s = .next post → Fit L s0 post := by
  unfold execLeaseRenew
  refine ok_fit ?_
  repeat' (first
    | with_reducible assumption
    | with_reducible apply command_fit (In.trans (by decide) hL)
    | with_reducible apply rowLeaseRenew_fit (In.trans (by decide) hL))

theorem rowLeaseRelease_fit {L : Nat} {h : Hdr} (hL : In 0x1800E02 L) :
    RowFit L (rowLeaseRelease h) := by
  refine ⟨fun s0 s h0 => ?_, fun s0 s h0 => ?_⟩ <;> unfold rowLeaseRelease <;> try dsimp -zeta only [id]
  repeat' (first
    | with_reducible assumption
    | intro _
    | (extract_lets +onlyGivenNames x; have y := x; first | (guard_hyp y : State; clear y; refine Fit.seq L s0 x ?_ ?_; rotate_left; intro hx; clear_value x; rotate_left; dsimp -zeta only [x]; clear x) | (clear y; clear_value x))
    | with_reducible apply raise_fit (In.trans (by decide) hL)
    | with_reducible apply finish_fit (In.trans (by decide) hL)
    | with_reducible apply endLease_fit (In.trans (by decide) hL)
    | with_reducible apply expireLease_fit (In.trans (by decide) hL)
    | (dsimp -zeta only [id])
    | (with_reducible apply Fit.of_snd; case e => with_reducible assumption)
    | (with_reducible apply Fit.of_fst; case e => with_reducible assumption))

theorem execLeaseRelease_fit {L : Nat} {s0 : State} {h : Hdr} {s : State} (hL : In 0x5800E02 L) (h0 : Fit L s0 s) :
    ∀ post, execLeaseRelease h s = .next post → Fit L s0 post := by
  unfold execLeaseRelease
  refine ok_fit ?_
  repeat' (first
    | with_reducible assumption
    | with_reducible apply command_fit (In.trans (by decide) hL)
    | with_reducible apply rowLeaseRelease_fit (In.trans (by decide) hL))

theorem execCmdLeaseExpired_fit {L : Nat} {s0 : State} {s : State} (hL : In 0x1800C22 L) (h0 : Fit L s0 s) :
    ∀ post, execCmdLeaseExpired s = .next post → Fit L s0 post := by
  unfold execCmdLeaseExpired
  refine ok_fit ?_
  repeat' (first
    | with_reducible assumption
    | with_reducible apply advanceMer_fit (In.trans (by decide) hL)
    | with_reducible apply expireLease_fit (In.trans (by decide) hL)
    | (with_reducible apply Fit.ite <;> intro _))

theorem functionReset_fit {L : Nat} {s0 : State} {why : LinkDown} {s : State} (hL : In 0xC00 L) (h0 : Fit L s0 s) :
    Fit L s0 (functionReset why s) := by
  unfold functionReset
  repeat' (first
    | with_reducible assumption
    | (extract_lets +onlyGivenNames x; have y := x; first | (guard_hyp y : State; clear y; refine Fit.seq L s0 x ?_ ?_; rotate_left; intro hx; clear_value x; rotate_left; dsimp -zeta only [x]; clear x) | ((first | (guard_hyp y : CmdSt; clear y) | (guard_hyp y : EvtSt; clear y)); dsimp -zeta only [x]; clear x) | (clear y; clear_value x))
    | (with_reducible apply Fit.upd_cmd (In.trans (by decide) hL); rotate_left; with_reducible rfl; first | (with_reducible apply Fit.ite <;> intro _) | (fail_if_success split))
    | (with_reducible apply Fit.upd_cmd_evt (In.trans (by decide) hL); rotate_left; with_reducible rfl; with_reducible rfl; with_reducible rfl; first | (with_reducible apply Fit.ite <;> intro _) | (fail_if_success split))
    | split)

theorem execPcieLinkDown_fit {L : Nat} {s0 : State} {why : LinkDown} {s : State} (hL : In 0x840E02 L) (h0 : Fit L s0 s) :
    ∀ post, execPcieLinkDown why s = .next post → Fit L s0 post := by
  unfold execPcieLinkDown
  refine ok_fit ?_
  repeat' (first
    | with_reducible assumption
    | with_reducible apply hostDown_fit (In.trans (by decide) hL)
    | with_reducible apply functionReset_fit (In.trans (by decide) hL)
    | (with_reducible apply Fit.ite <;> intro _))

theorem execPcieLinkUp_fit {L : Nat} {s0 : State} {s : State} (hL : In 0x400 L) (h0 : Fit L s0 s) :
    ∀ post, execPcieLinkUp s = .next post → Fit L s0 post := by
  unfold execPcieLinkUp
  refine ok_fit ?_
  repeat' (first
    | with_reducible assumption
    | (extract_lets +onlyGivenNames x; have y := x; first | (guard_hyp y : State; clear y; refine Fit.seq L s0 x ?_ ?_; rotate_left; intro hx; clear_value x; rotate_left; dsimp -zeta only [x]; clear x) | (guard_hyp y : CmdSt; clear y; dsimp -zeta only [x]; clear x) | (clear y; clear_value x))
    | (with_reducible apply Fit.ite <;> intro _)
    | (with_reducible apply Fit.upd_cmd (In.trans (by decide) hL); rotate_left; with_reducible rfl; first | (with_reducible apply Fit.ite <;> intro _) | (fail_if_success split)))

theorem execAspmL1Entry_fit {L : Nat} {s0 : State} {s : State} (hL : In 0x422 L) (h0 : Fit L s0 s) :
    ∀ post, execAspmL1Entry s = .next post → Fit L s0 post := by
  unfold execAspmL1Entry
  refine ok_fit ?_
  repeat' (first
    | with_reducible assumption
    | (extract_lets +onlyGivenNames x; have y := x; first | (guard_hyp y : State; clear y; refine Fit.seq L s0 x ?_ ?_; rotate_left; intro hx; clear_value x; rotate_left; dsimp -zeta only [x]; clear x) | (guard_hyp y : CmdSt; clear y; dsimp -zeta only [x]; clear x) | (clear y; clear_value x))
    | with_reducible apply emit_fit (In.trans (by decide) hL)
    | with_reducible apply advanceRef_fit (In.trans (by decide) hL)
    | (with_reducible apply Fit.ite <;> intro _)
    | (with_reducible apply Fit.upd_cmd (In.trans (by decide) hL); rotate_left; with_reducible rfl; first | (with_reducible apply Fit.ite <;> intro _) | (fail_if_success split)))

end Sys2Proof.Machine
end

