-- ==== Sys2Proof/Laws/FitMeridian.lean ====
section
/-! SUPPORT. What each definition of Machine/Meridian.lean touches, and that it keeps the invariant: one lemma each. -/

set_option Elab.async false
set_option linter.all false

namespace Sys2Proof.Machine

theorem rowTimeGet_fit {L : Nat} {h : Hdr} (hL : In 0x800E02 L) :
    RowFit L (rowTimeGet h) := by
  refine ⟨fun s0 s h0 => ?_, fun s0 s h0 => ?_⟩ <;> unfold rowTimeGet <;> try dsimp -zeta only [id]
  repeat' (first
    | with_reducible assumption
    | intro _
    | with_reducible apply finish_fit (In.trans (by decide) hL)
    | (with_reducible apply Fit.ite <;> intro _)
    | (dsimp -zeta only [id])
    | (with_reducible apply Fit.of_snd; case e => with_reducible assumption)
    | (with_reducible apply Fit.of_fst; case e => with_reducible assumption)
    | split)

theorem execTimeGet_fit {L : Nat} {s0 : State} {h : Hdr} {s : State} (hL : In 0x4800E02 L) (h0 : Fit L s0 s) :
    ∀ post, execTimeGet h s = .next post → Fit L s0 post := by
  unfold execTimeGet
  refine ok_fit ?_
  repeat' (first
    | with_reducible assumption
    | with_reducible apply command_fit (In.trans (by decide) hL)
    | with_reducible apply rowTimeGet_fit (In.trans (by decide) hL))

theorem timeSetBy_fit {L : Nat} {s0 : State} {h : Hdr} {d : Int} {s : State} (hL : In 0xDF4E7A L) (h0 : Fit L s0 s) :
    Fit L s0 (timeSetBy h d s) := by
  unfold timeSetBy
  repeat' (first
    | with_reducible assumption
    | (extract_lets +onlyGivenNames x; have y := x; first | (guard_hyp y : State; clear y; refine Fit.seq L s0 x ?_ ?_; rotate_left; intro hx; clear_value x; rotate_left; dsimp -zeta only [x]; clear x) | (clear y; clear_value x))
    | with_reducible apply finish_fit (In.trans (by decide) hL)
    | with_reducible apply setTimeState_fit (In.trans (by decide) hL)
    | with_reducible apply stepTime_fit (In.trans (by decide) hL)
    | with_reducible apply endSlew_fit (In.trans (by decide) hL)
    | (with_reducible apply Fit.ite <;> intro _))

theorem rowTimeSetAbsolute_fit {L : Nat} {h : Hdr} {p : TimeSetP} (hL : In 0xDF4E7A L) :
    RowFit L (rowTimeSetAbsolute h p) := by
  refine ⟨fun s0 s h0 => ?_, fun s0 s h0 => ?_⟩ <;> unfold rowTimeSetAbsolute <;> try dsimp -zeta only [id]
  repeat' (first
    | with_reducible assumption
    | intro _
    | with_reducible apply timeSetBy_fit (In.trans (by decide) hL)
    | (dsimp -zeta only [id])
    | (with_reducible apply Fit.of_snd; case e => with_reducible assumption)
    | (with_reducible apply Fit.of_fst; case e => with_reducible assumption))

theorem execTimeSetAbsolute_fit {L : Nat} {s0 : State} {h : Hdr} {p : TimeSetP} {s : State} (hL : In 0x4DF4E7A L) (h0 : Fit L s0 s) :
    ∀ post, execTimeSetAbsolute h p s = .next post → Fit L s0 post := by
  unfold execTimeSetAbsolute
  refine ok_fit ?_
  repeat' (first
    | with_reducible assumption
    | with_reducible apply command_fit (In.trans (by decide) hL)
    | with_reducible apply rowTimeSetAbsolute_fit (In.trans (by decide) hL))

theorem rowTimeSetRelative_fit {L : Nat} {h : Hdr} {p : TimeSetP} (hL : In 0xDF4E7A L) :
    RowFit L (rowTimeSetRelative h p) := by
  refine ⟨fun s0 s h0 => ?_, fun s0 s h0 => ?_⟩ <;> unfold rowTimeSetRelative <;> try dsimp -zeta only [id]
  repeat' (first
    | with_reducible assumption
    | intro _
    | (extract_lets +onlyGivenNames x; have y := x; first | (guard_hyp y : State; clear y; refine Fit.seq L s0 x ?_ ?_; rotate_left; intro hx; clear_value x; rotate_left; dsimp -zeta only [x]; clear x) | (clear y; clear_value x))
    | with_reducible apply timeSetBy_fit (In.trans (by decide) hL)
    | (dsimp -zeta only [id])
    | (with_reducible apply Fit.of_snd; case e => with_reducible assumption)
    | (with_reducible apply Fit.of_fst; case e => with_reducible assumption))

theorem execTimeSetRelative_fit {L : Nat} {s0 : State} {h : Hdr} {p : TimeSetP} {s : State} (hL : In 0x4DF4E7A L) (h0 : Fit L s0 s) :
    ∀ post, execTimeSetRelative h p s = .next post → Fit L s0 post := by
  unfold execTimeSetRelative
  refine ok_fit ?_
  repeat' (first
    | with_reducible assumption
    | with_reducible apply command_fit (In.trans (by decide) hL)
    | with_reducible apply rowTimeSetRelative_fit (In.trans (by decide) hL))

theorem rowTimeSetAtPps_fit {L : Nat} {h : Hdr} {p : TimeSetP} (hL : In 0x800E22 L) :
    RowFit L (rowTimeSetAtPps h p) := by
  refine ⟨fun s0 s h0 => ?_, fun s0 s h0 => ?_⟩ <;> unfold rowTimeSetAtPps <;> try dsimp -zeta only [id]
  repeat' (first
    | with_reducible assumption
    | intro _
    | (extract_lets +onlyGivenNames x; have y := x; first | (guard_hyp y : State; clear y; refine Fit.seq L s0 x ?_ ?_; rotate_left; intro hx; clear_value x; rotate_left; dsimp -zeta only [x]; clear x) | (clear y; clear_value x))
    | with_reducible apply finish_fit (In.trans (by decide) hL)
    | with_reducible apply accepted_fit (In.trans (by decide) hL)
    | with_reducible apply endSlew_fit (In.trans (by decide) hL)
    | (dsimp -zeta only [id])
    | (with_reducible apply Fit.of_snd; case e => with_reducible assumption)
    | (with_reducible apply Fit.of_fst; case e => with_reducible assumption)
    | (with_reducible apply Fit.upd_time (In.trans (by decide) hL); first | (with_reducible apply Fit.ite <;> intro _) | (fail_if_success split))
    | split)

theorem execTimeSetAtPps_fit {L : Nat} {s0 : State} {h : Hdr} {p : TimeSetP} {s : State} (hL : In 0x4800E22 L) (h0 : Fit L s0 s) :
    ∀ post, execTimeSetAtPps h p s = .next post → Fit L s0 post := by
  unfold execTimeSetAtPps
  refine ok_fit ?_
  repeat' (first
    | with_reducible assumption
    | with_reducible apply command_fit (In.trans (by decide) hL)
    | with_reducible apply rowTimeSetAtPps_fit (In.trans (by decide) hL))

theorem execTimeSetPpsTimeout_fit {L : Nat} {s0 : State} {s : State} (hL : In 0x800E22 L) (h0 : Fit L s0 s) :
    ∀ post, execTimeSetPpsTimeout s = .next post → Fit L s0 post := by
  unfold execTimeSetPpsTimeout
  refine ok_fit ?_
  repeat' (first
    | with_reducible assumption
    | (extract_lets +onlyGivenNames x; have y := x; first | (guard_hyp y : State; clear y; refine Fit.seq L s0 x ?_ ?_; rotate_left; intro hx; clear_value x; rotate_left; dsimp -zeta only [x]; clear x) | (clear y; clear_value x))
    | with_reducible apply advanceRef_fit (In.trans (by decide) hL)
    | with_reducible apply finish_fit (In.trans (by decide) hL)
    | (with_reducible apply Fit.upd_time (In.trans (by decide) hL); first | (with_reducible apply Fit.ite <;> intro _) | (fail_if_success split))
    | split)

theorem rowTimeAdjustSlew_fit {L : Nat} {h : Hdr} {p : TimeAdjustP} (hL : In 0x800E22 L) :
    RowFit L (rowTimeAdjustSlew h p) := by
  refine ⟨fun s0 s h0 => ?_, fun s0 s h0 => ?_⟩ <;> unfold rowTimeAdjustSlew <;> try dsimp -zeta only [id]
  repeat' (first
    | with_reducible assumption
    | intro _
    | (extract_lets +onlyGivenNames x; have y := x; first | (guard_hyp y : State; clear y; refine Fit.seq L s0 x ?_ ?_; rotate_left; intro hx; clear_value x; rotate_left; dsimp -zeta only [x]; clear x) | (clear y; clear_value x))
    | with_reducible apply accepted_fit (In.trans (by decide) hL)
    | with_reducible apply endSlew_fit (In.trans (by decide) hL)
    | (dsimp -zeta only [id])
    | (with_reducible apply Fit.of_snd; case e => with_reducible assumption)
    | (with_reducible apply Fit.of_fst; case e => with_reducible assumption)
    | (with_reducible apply Fit.upd_time (In.trans (by decide) hL); first | (with_reducible apply Fit.ite <;> intro _) | (fail_if_success split)))

theorem execTimeAdjustSlew_fit {L : Nat} {s0 : State} {h : Hdr} {p : TimeAdjustP} {s : State} (hL : In 0x4800E22 L) (h0 : Fit L s0 s) :
    ∀ post, execTimeAdjustSlew h p s = .next post → Fit L s0 post := by
  unfold execTimeAdjustSlew
  refine ok_fit ?_
  repeat' (first
    | with_reducible assumption
    | with_reducible apply command_fit (In.trans (by decide) hL)
    | with_reducible apply rowTimeAdjustSlew_fit (In.trans (by decide) hL))

theorem rowTimeAdjustFrequency_fit {L : Nat} {h : Hdr} {p : TimeAdjustP} (hL : In 0x800E22 L) :
    RowFit L (rowTimeAdjustFrequency h p) := by
  refine ⟨fun s0 s h0 => ?_, fun s0 s h0 => ?_⟩ <;> unfold rowTimeAdjustFrequency <;> try dsimp -zeta only [id]
  repeat' (first
    | with_reducible assumption
    | intro _
    | (extract_lets +onlyGivenNames x; have y := x; first | (guard_hyp y : State; clear y; refine Fit.seq L s0 x ?_ ?_; rotate_left; intro hx; clear_value x; rotate_left; dsimp -zeta only [x]; clear x) | (clear y; clear_value x))
    | with_reducible apply finish_fit (In.trans (by decide) hL)
    | with_reducible apply endSlew_fit (In.trans (by decide) hL)
    | (dsimp -zeta only [id])
    | (with_reducible apply Fit.of_snd; case e => with_reducible assumption)
    | (with_reducible apply Fit.of_fst; case e => with_reducible assumption)
    | (with_reducible apply Fit.upd_time (In.trans (by decide) hL); first | (with_reducible apply Fit.ite <;> intro _) | (fail_if_success split)))

theorem execTimeAdjustFrequency_fit {L : Nat} {s0 : State} {h : Hdr} {p : TimeAdjustP} {s : State} (hL : In 0x4800E22 L) (h0 : Fit L s0 s) :
    ∀ post, execTimeAdjustFrequency h p s = .next post → Fit L s0 post := by
  unfold execTimeAdjustFrequency
  refine ok_fit ?_
  repeat' (first
    | with_reducible assumption
    | with_reducible apply command_fit (In.trans (by decide) hL)
    | with_reducible apply rowTimeAdjustFrequency_fit (In.trans (by decide) hL))

theorem execSlewDone_fit {L : Nat} {s0 : State} {s : State} (hL : In 0x800E22 L) (h0 : Fit L s0 s) :
    ∀ post, execSlewDone s = .next post → Fit L s0 post := by
  unfold execSlewDone
  refine ok_fit ?_
  repeat' (first
    | with_reducible assumption
    | (extract_lets +onlyGivenNames x; have y := x; first | (guard_hyp y : State; clear y; refine Fit.seq L s0 x ?_ ?_; rotate_left; intro hx; clear_value x; rotate_left; dsimp -zeta only [x]; clear x) | (clear y; clear_value x))
    | with_reducible apply advanceRef_fit (In.trans (by decide) hL)
    | with_reducible apply finish_fit (In.trans (by decide) hL)
    | (with_reducible apply Fit.upd_time (In.trans (by decide) hL); first | (with_reducible apply Fit.ite <;> intro _) | (fail_if_success split))
    | split)

theorem rowPtpPortCfg_fit {L : Nat} {h : Hdr} {p : PtpPortCfgP} (hL : In 0x800E22 L) :
    RowFit L (rowPtpPortCfg h p) := by
  refine ⟨fun s0 s h0 => ?_, fun s0 s h0 => ?_⟩ <;> unfold rowPtpPortCfg <;> try dsimp -zeta only [id]
  repeat' (first
    | with_reducible assumption
    | intro _
    | (extract_lets +onlyGivenNames x; have y := x; first | (guard_hyp y : State; clear y; refine Fit.seq L s0 x ?_ ?_; rotate_left; intro hx; clear_value x; rotate_left; dsimp -zeta only [x]; clear x) | (clear y; clear_value x))
    | with_reducible apply finish_fit (In.trans (by decide) hL)
    | with_reducible apply setPtp_fit (In.trans (by decide) hL)
    | with_reducible apply setPortState_fit (In.trans (by decide) hL)
    | (with_reducible apply Fit.ite <;> intro _)
    | (dsimp -zeta only [id])
    | (with_reducible apply Fit.of_snd; case e => with_reducible assumption)
    | (with_reducible apply Fit.of_fst; case e => with_reducible assumption)
    | (with_reducible apply Fit.upd_time (In.trans (by decide) hL); first | (with_reducible apply Fit.ite <;> intro _) | (fail_if_success split))
    | split)

theorem execPtpPortCfg_fit {L : Nat} {s0 : State} {h : Hdr} {p : PtpPortCfgP} {s : State} (hL : In 0x4800E22 L) (h0 : Fit L s0 s) :
    ∀ post, execPtpPortCfg h p s = .next post → Fit L s0 post := by
  unfold execPtpPortCfg
  refine ok_fit ?_
  repeat' (first
    | with_reducible assumption
    | with_reducible apply command_fit (In.trans (by decide) hL)
    | with_reducible apply rowPtpPortCfg_fit (In.trans (by decide) hL))

theorem slaveOffset_fit {L : Nat} {s0 : State} {port : Nat} {th : Int} {s : State} (hL : In 0xDF4E7A L) (h0 : Fit L s0 s) :
    Fit L s0 (slaveOffset port th s) := by
  unfold slaveOffset
  repeat' (first
    | with_reducible assumption
    | (extract_lets +onlyGivenNames x; have y := x; first | (guard_hyp y : State; clear y; refine Fit.seq L s0 x ?_ ?_; rotate_left; intro hx; clear_value x; rotate_left; dsimp -zeta only [x]; clear x) | (clear y; clear_value x))
    | with_reducible apply measure_fit (In.trans (by decide) hL)
    | with_reducible apply setPortState_fit (In.trans (by decide) hL)
    | (with_reducible apply Fit.ite <;> intro _))

theorem ptpReceive_fit {L : Nat} {s0 : State} {port : Nat} {m : PtpMsg} {s : State} (hL : In 0xDF4E7A L) (h0 : Fit L s0 s) :
    Fit L s0 (ptpReceive port m s) := by
  unfold ptpReceive
  repeat' (first
    | with_reducible assumption
    | (extract_lets +onlyGivenNames x; have y := x; first | (guard_hyp y : State; clear y; refine Fit.seq L s0 x ?_ ?_; rotate_left; intro hx; clear_value x; rotate_left; dsimp -zeta only [x]; clear x) | (clear y; clear_value x))
    | with_reducible apply setPtp_fit (In.trans (by decide) hL)
    | with_reducible apply runBmca_fit (In.trans (by decide) hL)
    | with_reducible apply slaveOffset_fit (In.trans (by decide) hL)
    | (with_reducible apply Fit.ite <;> intro _)
    | split)

theorem execPtpEventMessage_fit {L : Nat} {s0 : State} {port : Fin 8} {m : PtpMsg} {s : State} (hL : In 0xDF4E7A L) (h0 : Fit L s0 s) :
    ∀ post, execPtpEventMessage port m s = .next post → Fit L s0 post := by
  unfold execPtpEventMessage
  refine ok_fit ?_
  repeat' (first
    | with_reducible assumption
    | with_reducible apply ptpReceive_fit (In.trans (by decide) hL))

theorem ptpSend_fit {L : Nat} {s0 : State} {port : Nat} {k : PtpTxKind} {s : State} (hL : In 0x422 L) (h0 : Fit L s0 s) :
    Fit L s0 (ptpSend port k s) := by
  unfold ptpSend
  repeat' (first
    | with_reducible assumption
    | (extract_lets +onlyGivenNames x; have y := x; first | (guard_hyp y : State; clear y; refine Fit.seq L s0 x ?_ ?_; rotate_left; intro hx; clear_value x; rotate_left; dsimp -zeta only [x]; clear x) | (clear y; clear_value x))
    | with_reducible apply emit_fit (In.trans (by decide) hL)
    | with_reducible apply advanceMer_fit (In.trans (by decide) hL)
    | with_reducible apply setPtp_fit (In.trans (by decide) hL)
    | (with_reducible apply Fit.ite <;> intro _)
    | split)

theorem execPtpMessageTx_fit {L : Nat} {s0 : State} {port : Fin 8} {kind : PtpTxKind} {s : State} (hL : In 0x422 L) (h0 : Fit L s0 s) :
    ∀ post, execPtpMessageTx port kind s = .next post → Fit L s0 post := by
  unfold execPtpMessageTx
  refine ok_fit ?_
  repeat' (first
    | with_reducible assumption
    | with_reducible apply ptpSend_fit (In.trans (by decide) hL))

theorem loseSource_fit {L : Nat} {s0 : State} {s : State} (hL : In 0x800C22 L) (h0 : Fit L s0 s) :
    Fit L s0 (loseSource s) := by
  unfold loseSource
  repeat' (first
    | with_reducible assumption
    | (extract_lets +onlyGivenNames x; have y := x; first | (guard_hyp y : State; clear y; refine Fit.seq L s0 x ?_ ?_; rotate_left; intro hx; clear_value x; rotate_left; dsimp -zeta only [x]; clear x) | (clear y; clear_value x))
    | with_reducible apply raise_fit (In.trans (by decide) hL)
    | with_reducible apply setTimeState_fit (In.trans (by decide) hL)
    | (with_reducible apply Fit.ite <;> intro _)
    | (with_reducible apply Fit.upd_time (In.trans (by decide) hL); first | (with_reducible apply Fit.ite <;> intro _) | (fail_if_success split)))

theorem execTimeSourceLost_fit {L : Nat} {s0 : State} {s : State} (hL : In 0x800C22 L) (h0 : Fit L s0 s) :
    ∀ post, execTimeSourceLost s = .next post → Fit L s0 post := by
  unfold execTimeSourceLost
  refine ok_fit ?_
  repeat' (first
    | with_reducible assumption
    | intro _
    | (extract_lets +onlyGivenNames x; have y := x; first | (guard_hyp y : State; clear y; refine Fit.seq L s0 x ?_ ?_; rotate_left; intro hx; clear_value x; rotate_left; dsimp -zeta only [x]; clear x) | (clear y; clear_value x))
    | with_reducible apply advanceRef_fit (In.trans (by decide) hL)
    | with_reducible apply setPtp_fit (In.trans (by decide) hL)
    | with_reducible apply runBmca_fit (In.trans (by decide) hL)
    | with_reducible apply loseSource_fit (In.trans (by decide) hL)
    | (with_reducible apply Fit.ite <;> intro _)
    | (with_reducible apply Fit.upd_time (In.trans (by decide) hL); first | (with_reducible apply Fit.ite <;> intro _) | (fail_if_success split))
    | split)

theorem execTimeHoldoverEnd_fit {L : Nat} {s0 : State} {s : State} (hL : In 0x800C22 L) (h0 : Fit L s0 s) :
    ∀ post, execTimeHoldoverEnd s = .next post → Fit L s0 post := by
  unfold execTimeHoldoverEnd
  refine ok_fit ?_
  repeat' (first
    | with_reducible assumption
    | with_reducible apply advanceRef_fit (In.trans (by decide) hL)
    | with_reducible apply raise_fit (In.trans (by decide) hL)
    | with_reducible apply setTimeState_fit (In.trans (by decide) hL)
    | (with_reducible apply Fit.ite <;> intro _))

theorem rowTimerArm_fit {L : Nat} {h : Hdr} {p : TimerArmP} (hL : In 0x800E22 L) :
    RowFit L (rowTimerArm h p) := by
  refine ⟨fun s0 s h0 => ?_, fun s0 s h0 => ?_⟩ <;> unfold rowTimerArm <;> try dsimp -zeta only [id]
  repeat' (first
    | with_reducible assumption
    | intro _
    | (extract_lets +onlyGivenNames x; have y := x; first | (guard_hyp y : State; clear y; refine Fit.seq L s0 x ?_ ?_; rotate_left; intro hx; clear_value x; rotate_left; dsimp -zeta only [x]; clear x) | (clear y; clear_value x))
    | with_reducible apply move_fit (In.trans (by decide) hL)
    | with_reducible apply finish_fit (In.trans (by decide) hL)
    | with_reducible apply lateAction_fit (In.trans (by decide) hL)
    | with_reducible apply timerEvent_fit (In.trans (by decide) hL)
    | with_reducible apply dropTimer_fit (In.trans (by decide) hL)
    | (with_reducible apply Fit.ite <;> intro _)
    | (dsimp -zeta only [id])
    | (with_reducible apply Fit.of_snd; case e => with_reducible assumption)
    | (with_reducible apply Fit.of_fst; case e => with_reducible assumption)
    | (with_reducible apply Fit.upd_time (In.trans (by decide) hL); first | (with_reducible apply Fit.ite <;> intro _) | (fail_if_success split))
    | split)

theorem execTimerArm_fit {L : Nat} {s0 : State} {h : Hdr} {p : TimerArmP} {s : State} (hL : In 0x4800E22 L) (h0 : Fit L s0 s) :
    ∀ post, execTimerArm h p s = .next post → Fit L s0 post := by
  unfold execTimerArm
  refine ok_fit ?_
  repeat' (first
    | with_reducible assumption
    | with_reducible apply command_fit (In.trans (by decide) hL)
    | with_reducible apply rowTimerArm_fit (In.trans (by decide) hL))

theorem rowTimerCancel_fit {L : Nat} {h : Hdr} {p : HandleP} (hL : In 0x800E22 L) :
    RowFit L (rowTimerCancel h p) := by
  refine ⟨fun s0 s h0 => ?_, fun s0 s h0 => ?_⟩ <;> unfold rowTimerCancel <;> try dsimp -zeta only [id]
  repeat' (first
    | with_reducible assumption
    | intro _
    | (extract_lets +onlyGivenNames x; have y := x; first | (guard_hyp y : State; clear y; refine Fit.seq L s0 x ?_ ?_; rotate_left; intro hx; clear_value x; rotate_left; dsimp -zeta only [x]; clear x) | (clear y; clear_value x))
    | with_reducible apply finish_fit (In.trans (by decide) hL)
    | with_reducible apply dropTimer_fit (In.trans (by decide) hL)
    | (dsimp -zeta only [id])
    | (with_reducible apply Fit.of_snd; case e => with_reducible assumption)
    | (with_reducible apply Fit.of_fst; case e => with_reducible assumption)
    | split)

theorem execTimerCancel_fit {L : Nat} {s0 : State} {h : Hdr} {p : HandleP} {s : State} (hL : In 0x4800E22 L) (h0 : Fit L s0 s) :
    ∀ post, execTimerCancel h p s = .next post → Fit L s0 post := by
  unfold execTimerCancel
  refine ok_fit ?_
  repeat' (first
    | with_reducible assumption
    | with_reducible apply command_fit (In.trans (by decide) hL)
    | with_reducible apply rowTimerCancel_fit (In.trans (by decide) hL))

theorem execTimeTimer_fit {L : Nat} {s0 : State} {timer : Fin 64} {s : State} (hL : In 0x800E22 L) (h0 : Fit L s0 s) :
    ∀ post, execTimeTimer timer s = .next post → Fit L s0 post := by
  unfold execTimeTimer
  refine ok_fit ?_
  repeat' (first
    | with_reducible assumption
    | intro _
    | (extract_lets +onlyGivenNames x; have y := x; first | (guard_hyp y : State; clear y; refine Fit.seq L s0 x ?_ ?_; rotate_left; intro hx; clear_value x; rotate_left; dsimp -zeta only [x]; clear x) | (clear y; clear_value x))
    | with_reducible apply advanceMer_fit (In.trans (by decide) hL)
    | with_reducible apply fireTimer_fit (In.trans (by decide) hL)
    | (with_reducible apply Fit.ite <;> intro _)
    | split)

theorem usePps_fit {L : Nat} {s0 : State} {stamp : Int} {s : State} (hL : In 0xDF4E7A L) (h0 : Fit L s0 s) :
    Fit L s0 (usePps stamp s) := by
  unfold usePps
  repeat' (first
    | with_reducible assumption
    | (extract_lets +onlyGivenNames x; have y := x; first | (guard_hyp y : State; clear y; refine Fit.seq L s0 x ?_ ?_; rotate_left; intro hx; clear_value x; rotate_left; dsimp -zeta only [x]; clear x) | (clear y; clear_value x))
    | with_reducible apply finish_fit (In.trans (by decide) hL)
    | with_reducible apply setTimeState_fit (In.trans (by decide) hL)
    | with_reducible apply stepTime_fit (In.trans (by decide) hL)
    | with_reducible apply measure_fit (In.trans (by decide) hL)
    | (with_reducible apply Fit.ite <;> intro _)
    | (with_reducible apply Fit.upd_time (In.trans (by decide) hL); first | (with_reducible apply Fit.ite <;> intro _) | (fail_if_success split))
    | split)

theorem ppsJudged_fit {L : Nat} {s0 : State} {stamp : Nat} {s : State} (hL : In 0xDF4E7A L) (h0 : Fit L s0 s) :
    Fit L s0 (ppsJudged stamp s) := by
  unfold ppsJudged
  repeat' (first
    | with_reducible assumption
    | (extract_lets +onlyGivenNames x; have y := x; first | (guard_hyp y : State; clear y; refine Fit.seq L s0 x ?_ ?_; rotate_left; intro hx; clear_value x; rotate_left; dsimp -zeta only [x]; clear x) | (clear y; clear_value x))
    | with_reducible apply raise_fit (In.trans (by decide) hL)
    | with_reducible apply usePps_fit (In.trans (by decide) hL)
    | (with_reducible apply Fit.ite <;> intro _)
    | (with_reducible apply Fit.upd_time (In.trans (by decide) hL); first | (with_reducible apply Fit.ite <;> intro _) | (fail_if_success split)))

theorem ppsCounted_fit {L : Nat} {s0 : State} {stamp : Nat} {s : State} (hL : In 0xDF4E7A L) (h0 : Fit L s0 s) :
    Fit L s0 (ppsCounted stamp s) := by
  unfold ppsCounted
  repeat' (first
    | with_reducible assumption
    | (extract_lets +onlyGivenNames x; have y := x; first | (guard_hyp y : State; clear y; refine Fit.seq L s0 x ?_ ?_; rotate_left; intro hx; clear_value x; rotate_left; dsimp -zeta only [x]; clear x) | (clear y; clear_value x))
    | with_reducible apply ppsJudged_fit (In.trans (by decide) hL)
    | (with_reducible apply Fit.upd_time (In.trans (by decide) hL); first | (with_reducible apply Fit.ite <;> intro _) | (fail_if_success split)))

theorem ppsEdge_fit {L : Nat} {s0 : State} {stamp width : Nat} {s : State} (hL : In 0xDF4E7A L) (h0 : Fit L s0 s) :
    Fit L s0 (ppsEdge stamp width s) := by
  unfold ppsEdge
  repeat' (first
    | with_reducible assumption
    | (extract_lets +onlyGivenNames x; have y := x; first | (guard_hyp y : State; clear y; refine Fit.seq L s0 x ?_ ?_; rotate_left; intro hx; clear_value x; rotate_left; dsimp -zeta only [x]; clear x) | (clear y; clear_value x))
    | with_reducible apply advanceMer_fit (In.trans (by decide) hL)
    | with_reducible apply ppsCounted_fit (In.trans (by decide) hL)
    | (with_reducible apply Fit.ite <;> intro _)
    | (with_reducible apply Fit.upd_time (In.trans (by decide) hL); first | (with_reducible apply Fit.ite <;> intro _) | (fail_if_success split)))

theorem execPpsInEdge_fit {L : Nat} {s0 : State} {stamp width : Nat} {s : State} (hL : In 0xDF4E7A L) (h0 : Fit L s0 s) :
    ∀ post, execPpsInEdge stamp width s = .next post → Fit L s0 post := by
  unfold execPpsInEdge
  refine ok_fit ?_
  repeat' (first
    | with_reducible assumption
    | with_reducible apply ppsEdge_fit (In.trans (by decide) hL))

theorem execPpsInStuck_fit {L : Nat} {s0 : State} {s : State} (hL : In 0x800C22 L) (h0 : Fit L s0 s) :
    ∀ post, execPpsInStuck s = .next post → Fit L s0 post := by
  unfold execPpsInStuck
  refine ok_fit ?_
  repeat' (first
    | with_reducible assumption
    | (extract_lets +onlyGivenNames x; have y := x; first | (guard_hyp y : State; clear y; refine Fit.seq L s0 x ?_ ?_; rotate_left; intro hx; clear_value x; rotate_left; dsimp -zeta only [x]; clear x) | (clear y; clear_value x))
    | with_reducible apply raise_fit (In.trans (by decide) hL)
    | (with_reducible apply Fit.ite <;> intro _)
    | (with_reducible apply Fit.upd_time (In.trans (by decide) hL); first | (with_reducible apply Fit.ite <;> intro _) | (fail_if_success split)))

theorem execPpsInLost_fit {L : Nat} {s0 : State} {s : State} (hL : In 0x800C22 L) (h0 : Fit L s0 s) :
    ∀ post, execPpsInLost s = .next post → Fit L s0 post := by
  unfold execPpsInLost
  refine ok_fit ?_
  repeat' (first
    | with_reducible assumption
    | (extract_lets +onlyGivenNames x; have y := x; first | (guard_hyp y : State; clear y; refine Fit.seq L s0 x ?_ ?_; rotate_left; intro hx; clear_value x; rotate_left; dsimp -zeta only [x]; clear x) | (clear y; clear_value x))
    | with_reducible apply advanceRef_fit (In.trans (by decide) hL)
    | with_reducible apply raise_fit (In.trans (by decide) hL)
    | (with_reducible apply Fit.ite <;> intro _)
    | (with_reducible apply Fit.upd_time (In.trans (by decide) hL); first | (with_reducible apply Fit.ite <;> intro _) | (fail_if_success split)))

theorem execPpsOutEdge_fit {L : Nat} {s0 : State} {s : State} (hL : In 0x800C22 L) (h0 : Fit L s0 s) :
    ∀ post, execPpsOutEdge s = .next post → Fit L s0 post := by
  unfold execPpsOutEdge
  refine ok_fit ?_
  repeat' (first
    | with_reducible assumption
    | (extract_lets +onlyGivenNames x; have y := x; first | (guard_hyp y : State; clear y; refine Fit.seq L s0 x ?_ ?_; rotate_left; intro hx; clear_value x; rotate_left; dsimp -zeta only [x]; clear x) | (clear y; clear_value x))
    | with_reducible apply emit_fit (In.trans (by decide) hL)
    | with_reducible apply advanceMer_fit (In.trans (by decide) hL)
    | with_reducible apply lateAction_fit (In.trans (by decide) hL)
    | (with_reducible apply Fit.ite <;> intro _)
    | (with_reducible apply Fit.upd_time (In.trans (by decide) hL); first | (with_reducible apply Fit.ite <;> intro _) | (fail_if_success split))
    | split)

theorem execMtNsRead_fit {L : Nat} {s0 : State} {m : Master} {s : State} (hL : In 0x422 L) (h0 : Fit L s0 s) :
    ∀ post, execMtNsRead m s = .next post → Fit L s0 post := by
  unfold execMtNsRead
  refine ok_fit ?_
  repeat' (first
    | with_reducible assumption
    | (extract_lets +onlyGivenNames x; have y := x; first | (guard_hyp y : State; clear y; refine Fit.seq L s0 x ?_ ?_; rotate_left; intro hx; clear_value x; rotate_left; dsimp -zeta only [x]; clear x) | (guard_hyp y : CmdSt; clear y; dsimp -zeta only [x]; clear x) | (clear y; clear_value x))
    | with_reducible apply emit_fit (In.trans (by decide) hL)
    | (with_reducible apply Fit.ite <;> intro _)
    | (with_reducible apply Fit.upd_time (In.trans (by decide) hL); first | (with_reducible apply Fit.ite <;> intro _) | (fail_if_success split))
    | split)

end Sys2Proof.Machine
end

