-- ==== Sys2Proof/Laws/FitTestFail.lean ====
section
/-! SUPPORT. What each definition of Machine/TestFail.lean touches, and that it keeps the invariant: one lemma each. -/

set_option Elab.async false
set_option linter.all false

namespace Sys2Proof.Machine

theorem serviceFail_fit {L : Nat} {s0 : State} {id inst : Nat} {s : State} (hL : In 0xFFFFFFE L) (h0 : Fit L s0 s) :
    Fit L s0 (serviceFail id inst s) := by
  unfold serviceFail
  repeat' (first
    | with_reducible assumption
    | (extract_lets +onlyGivenNames x; have y := x; first | (guard_hyp y : State; clear y; refine Fit.seq L s0 x ?_ ?_; rotate_left; intro hx; clear_value x; rotate_left; dsimp -zeta only [x]; clear x) | (clear y; clear_value x))
    | with_reducible apply raise_fit (In.trans (by decide) hL)
    | with_reducible apply errorActs_fit (In.trans (by decide) hL)
    | with_reducible apply engineFault_fit (In.trans (by decide) hL)
    | with_reducible apply groupFault_fit (In.trans (by decide) hL)
    | with_reducible apply sweepFault_fit (In.trans (by decide) hL)
    | split)

theorem memoryCleared_fit {L : Nat} {s0 : State} {s : State} (hL : In 0x23000 L) (h0 : Fit L s0 s) :
    Fit L s0 (memoryCleared s) := by
  unfold memoryCleared
  exact Fit.upd_mem_pnl (In.trans (by decide) hL) (onCam_fit (In.trans (by decide) hL) h0) (fun _ => rfl)

theorem vendorEnd_fit {L : Nat} {s0 : State} {id : Nat} {s : State} (hL : In 0xFFFFFFE L) (h0 : Fit L s0 s) :
    Fit L s0 (vendorEnd id s) := by
  unfold vendorEnd
  repeat' (first
    | with_reducible assumption
    | with_reducible apply decideRecov_fit (In.trans (by decide) hL)
    | with_reducible apply memoryCleared_fit (In.trans (by decide) hL)
    | (with_reducible apply Fit.ite <;> intro _))

end Sys2Proof.Machine
end

