-- ==== Sys2Proof/Laws/FitOvercast.lean ====
section
/-! SUPPORT. What each definition of Machine/Overcast.lean touches, and that it keeps the invariant: one lemma each. -/

set_option Elab.async false
set_option linter.all false

namespace Sys2Proof.Machine

theorem rowTestRun_fit {L : Nat} {h : Hdr} {p : TestRunP} (hL : In 0x4800E02 L) :
    RowFit L (rowTestRun h p) := by
  refine ⟨fun s0 s h0 => ?_, fun s0 s h0 => ?_⟩ <;> unfold rowTestRun <;> try dsimp -zeta only [id]
  repeat' (first
    | with_reducible assumption
    | intro _
    | (extract_lets +onlyGivenNames x; have y := x; first | (guard_hyp y : State; clear y; refine Fit.seq L s0 x ?_ ?_; rotate_left; intro hx; clear_value x; rotate_left; dsimp -zeta only [x]; clear x) | (clear y; clear_value x))
    | with_reducible apply accepted_fit (In.trans (by decide) hL)
    | with_reducible apply beginRun_fit (In.trans (by decide) hL)
    | (dsimp -zeta only [id])
    | (with_reducible apply Fit.of_snd; case e => with_reducible assumption)
    | (with_reducible apply Fit.of_fst; case e => with_reducible assumption))

theorem execTestRun_fit {L : Nat} {s0 : State} {h : Hdr} {p : TestRunP} {s : State} (hL : In 0x4800E02 L) (h0 : Fit L s0 s) :
    ∀ post, execTestRun h p s = .next post → Fit L s0 post := by
  unfold execTestRun
  refine ok_fit ?_
  repeat' (first
    | with_reducible assumption
    | with_reducible apply command_fit (In.trans (by decide) hL)
    | with_reducible apply rowTestRun_fit (In.trans (by decide) hL))

theorem execTestEnd_fit {L : Nat} {s0 : State} {id : Byte} {inst : Byte} {r : TestShow} {s : State} (hL : In 0xFFFFFFE L) (h0 : Fit L s0 s) :
    ∀ post, execTestEnd id inst r s = .next post → Fit L s0 post := by
  unfold execTestEnd
  refine ok_fit ?_
  repeat' (first
    | with_reducible assumption
    | intro _
    | (extract_lets +onlyGivenNames x; have y := x; first | (guard_hyp y : State; clear y; refine Fit.seq L s0 x ?_ ?_; rotate_left; intro hx; clear_value x; rotate_left; dsimp -zeta only [x]; clear x) | (clear y; clear_value x))
    | with_reducible apply advanceRef_fit (In.trans (by decide) hL)
    | with_reducible apply putResult_fit (In.trans (by decide) hL)
    | with_reducible apply schedule_fit (In.trans (by decide) hL)
    | with_reducible apply settleRun_fit (In.trans (by decide) hL)
    | with_reducible apply testEnded_fit (In.trans (by decide) hL)
    | with_reducible apply stopTests_fit (In.trans (by decide) hL)
    | with_reducible apply serviceFail_fit (In.trans (by decide) hL)
    | with_reducible apply vendorEnd_fit (In.trans (by decide) hL)
    | (with_reducible apply Fit.ite <;> intro _)
    | (with_reducible apply Fit.upd_bst (In.trans (by decide) hL); first | (with_reducible apply Fit.ite <;> intro _) | (fail_if_success split))
    | split)

theorem rowTestResult_fit {L : Nat} {h : Hdr} {p : TestResultP} (hL : In 0x800E02 L) :
    RowFit L (rowTestResult h p) := by
  refine ⟨fun s0 s h0 => ?_, fun s0 s h0 => ?_⟩ <;> unfold rowTestResult <;> try dsimp -zeta only [id]
  repeat' (first
    | with_reducible assumption
    | intro _
    | (extract_lets +onlyGivenNames x; have y := x; first | (guard_hyp y : State; clear y; refine Fit.seq L s0 x ?_ ?_; rotate_left; intro hx; clear_value x; rotate_left; dsimp -zeta only [x]; clear x) | (clear y; clear_value x))
    | with_reducible apply finish_fit (In.trans (by decide) hL)
    | (with_reducible apply Fit.ite <;> intro _)
    | (dsimp -zeta only [id])
    | (with_reducible apply Fit.of_snd; case e => with_reducible assumption)
    | (with_reducible apply Fit.of_fst; case e => with_reducible assumption)
    | split)

theorem execTestResult_fit {L : Nat} {s0 : State} {h : Hdr} {p : TestResultP} {s : State} (hL : In 0x4800E02 L) (h0 : Fit L s0 s) :
    ∀ post, execTestResult h p s = .next post → Fit L s0 post := by
  unfold execTestResult
  refine ok_fit ?_
  repeat' (first
    | with_reducible assumption
    | with_reducible apply command_fit (In.trans (by decide) hL)
    | with_reducible apply rowTestResult_fit (In.trans (by decide) hL))

theorem rowTestAbort_fit {L : Nat} {h : Hdr} (hL : In 0x4800E02 L) :
    RowFit L (rowTestAbort h) := by
  refine ⟨fun s0 s h0 => ?_, fun s0 s h0 => ?_⟩ <;> unfold rowTestAbort <;> try dsimp -zeta only [id]
  repeat' (first
    | with_reducible assumption
    | intro _
    | (extract_lets +onlyGivenNames x; have y := x; first | (guard_hyp y : State; clear y; refine Fit.seq L s0 x ?_ ?_; rotate_left; intro hx; clear_value x; rotate_left; dsimp -zeta only [x]; clear x) | (clear y; clear_value x))
    | with_reducible apply finish_fit (In.trans (by decide) hL)
    | with_reducible apply endTests_fit (In.trans (by decide) hL)
    | (with_reducible apply Fit.foldl)
    | (dsimp -zeta only [id])
    | (with_reducible apply Fit.of_snd; case e => with_reducible assumption)
    | (with_reducible apply Fit.of_fst; case e => with_reducible assumption))

theorem execTestAbort_fit {L : Nat} {s0 : State} {h : Hdr} {s : State} (hL : In 0x4800E02 L) (h0 : Fit L s0 s) :
    ∀ post, execTestAbort h s = .next post → Fit L s0 post := by
  unfold execTestAbort
  refine ok_fit ?_
  repeat' (first
    | with_reducible assumption
    | with_reducible apply command_fit (In.trans (by decide) hL)
    | with_reducible apply rowTestAbort_fit (In.trans (by decide) hL))

theorem execTstBusy_fit {L : Nat} {s0 : State} {k : CmdKey} {s : State} (hL : In 0x4800E22 L) (h0 : Fit L s0 s) :
    ∀ post, execTstBusy k s = .next post → Fit L s0 post := by
  unfold execTstBusy
  refine ok_fit ?_
  repeat' (first
    | with_reducible assumption
    | intro _
    | (extract_lets +onlyGivenNames x; have y := x; first | (guard_hyp y : State; clear y; refine Fit.seq L s0 x ?_ ?_; rotate_left; intro hx; clear_value x; rotate_left; dsimp -zeta only [x]; clear x) | (guard_hyp y : CmdSt; clear y; dsimp -zeta only [x]; clear x) | (clear y; clear_value x))
    | with_reducible apply advanceRef_fit (In.trans (by decide) hL)
    | with_reducible apply raise_fit (In.trans (by decide) hL)
    | with_reducible apply finish_fit (In.trans (by decide) hL)
    | (with_reducible apply Fit.upd_cmd_bst (In.trans (by decide) hL); rotate_left; with_reducible rfl; first | (with_reducible apply Fit.ite <;> intro _) | (fail_if_success split))
    | split)

theorem execBstAutoRun_fit {L : Nat} {s0 : State} {s : State} (hL : In 0x4800E22 L) (h0 : Fit L s0 s) :
    ∀ post, execBstAutoRun s = .next post → Fit L s0 post := by
  unfold execBstAutoRun
  refine ok_fit ?_
  repeat' (first
    | with_reducible assumption
    | (extract_lets +onlyGivenNames x; have y := x; first | (guard_hyp y : State; clear y; refine Fit.seq L s0 x ?_ ?_; rotate_left; intro hx; clear_value x; rotate_left; dsimp -zeta only [x]; clear x) | (clear y; clear_value x))
    | with_reducible apply advanceRef_fit (In.trans (by decide) hL)
    | with_reducible apply beginRun_fit (In.trans (by decide) hL)
    | (with_reducible apply Fit.ite <;> intro _)
    | (with_reducible apply Fit.upd_bst (In.trans (by decide) hL); first | (with_reducible apply Fit.ite <;> intro _) | (fail_if_success split)))

end Sys2Proof.Machine
end

