-- ==== Sys2Proof/Laws/FitScanout.lean ====
section
/-! SUPPORT. What each definition of Machine/Scanout.lean touches, and that it keeps the invariant: one lemma each. -/

set_option Elab.async false
set_option linter.all false

namespace Sys2Proof.Machine

theorem subMarkers_fit {L : Nat} {s0 : State} {u : Sub} {s : State} (hL : In 0x402 L) (h0 : Fit L s0 s) :
    Fit L s0 (subMarkers u s) := by
  unfold subMarkers
  repeat' (first
    | with_reducible assumption
    | intro _
    | with_reducible apply emit_fit (In.trans (by decide) hL)
    | (with_reducible apply Fit.ite <;> intro _)
    | (with_reducible apply Fit.foldl)
    | split)

theorem joinHalves_fit {L : Nat} {s0 : State} {s : State} (hL : In 0x940C02 L) (h0 : Fit L s0 s) :
    Fit L s0 (joinHalves s) := by
  unfold joinHalves
  repeat' (first
    | with_reducible assumption
    | intro _
    | (extract_lets +onlyGivenNames x; have y := x; first | (guard_hyp y : State; clear y; refine Fit.seq L s0 x ?_ ?_; rotate_left; intro hx; clear_value x; rotate_left; dsimp -zeta only [x]; clear x) | (clear y; clear_value x))
    | with_reducible apply raise_fit (In.trans (by decide) hL)
    | with_reducible apply setDead_fit (In.trans (by decide) hL)
    | with_reducible apply onHead_fit (In.trans (by decide) hL)
    | (with_reducible apply Fit.ite <;> intro _)
    | (with_reducible apply Fit.foldl)
    | split)

theorem powerLayer_fit {L : Nat} {s0 : State} {k : Nat} {s : State} (hL : In 0x900C02 L) (h0 : Fit L s0 s) :
    Fit L s0 (powerLayer k s) := by
  unfold powerLayer
  repeat' (first
    | with_reducible assumption
    | intro _
    | (extract_lets +onlyGivenNames x; have y := x; first | (guard_hyp y : State; clear y; refine Fit.seq L s0 x ?_ ?_; rotate_left; intro hx; clear_value x; rotate_left; dsimp -zeta only [x]; clear x) | (clear y; clear_value x))
    | with_reducible apply onStd_fit (In.trans (by decide) hL)
    | with_reducible apply stdPower_fit (In.trans (by decide) hL)
    | (with_reducible apply Fit.ite <;> intro _)
    | split)

theorem compareOuts_fit {L : Nat} {s0 : State} {os : List Nat} {s : State} (hL : In 0xFFFFFFE L) (h0 : Fit L s0 s) :
    Fit L s0 (compareOuts os s) := by
  unfold compareOuts
  repeat' (first
    | with_reducible assumption
    | intro _
    | (extract_lets +onlyGivenNames x; have y := x; first | (guard_hyp y : State; clear y; refine Fit.seq L s0 x ?_ ?_; rotate_left; intro hx; clear_value x; rotate_left; dsimp -zeta only [x]; clear x) | (clear y; clear_value x))
    | with_reducible apply dcCompare_fit (In.trans (by decide) hL)
    | with_reducible apply faultOf_fit (In.trans (by decide) hL)
    | (with_reducible apply Fit.foldl)
    | split)

theorem checkOpen_fit {L : Nat} {s0 : State} {i : Nat} {s : State} (hL : In 0x900C02 L) (h0 : Fit L s0 s) :
    Fit L s0 (checkOpen i s) := by
  unfold checkOpen
  repeat' (first
    | with_reducible assumption
    | intro _
    | (extract_lets +onlyGivenNames x; have y := x; first | (guard_hyp y : State; clear y; refine Fit.seq L s0 x ?_ ?_; rotate_left; intro hx; clear_value x; rotate_left; dsimp -zeta only [x]; clear x) | (clear y; clear_value x))
    | with_reducible apply raiseIf_fit (In.trans (by decide) hL)
    | with_reducible apply onStd_fit (In.trans (by decide) hL))

theorem beginPair_fit {L : Nat} {s0 : State} {k : Nat} {s : State} (hL : In 0xFFFFFFE L) (h0 : Fit L s0 s) :
    Fit L s0 (beginPair k s) := by
  unfold beginPair
  repeat' (first
    | with_reducible assumption
    | intro _
    | (extract_lets +onlyGivenNames x; have y := x; first | (guard_hyp y : State; clear y; refine Fit.seq L s0 x ?_ ?_; rotate_left; intro hx; clear_value x; rotate_left; dsimp -zeta only [x]; clear x) | (clear y; clear_value x))
    | with_reducible apply pairBoundary_fit (In.trans (by decide) hL)
    | with_reducible apply compareOuts_fit (In.trans (by decide) hL)
    | with_reducible apply checkOpen_fit (In.trans (by decide) hL)
    | (with_reducible apply Fit.ite <;> intro _)
    | (with_reducible apply Fit.foldl)
    | split)

theorem sessionsAt_fit {L : Nat} {s0 : State} {t : Nat} {s : State} (hL : In 0x80CE02 L) (h0 : Fit L s0 s) :
    Fit L s0 (sessionsAt t s) := by
  unfold sessionsAt
  repeat' (first
    | with_reducible assumption
    | intro _
    | (extract_lets +onlyGivenNames x; have y := x; first | (guard_hyp y : State; clear y; refine Fit.seq L s0 x ?_ ?_; rotate_left; intro hx; clear_value x; rotate_left; dsimp -zeta only [x]; clear x) | ((first | (guard_hyp y : _ → State; clear y) | (guard_hyp y : _ → _ → State; clear y) | (guard_hyp y : _ → _ → _ → State; clear y)); dsimp -zeta only [x]; clear x) | (clear y; clear_value x))
    | with_reducible apply onSess_fit (In.trans (by decide) hL)
    | with_reducible apply onStat_fit (In.trans (by decide) hL)
    | with_reducible apply mpiCollect_fit (In.trans (by decide) hL)
    | with_reducible apply endSession_fit (In.trans (by decide) hL)
    | (with_reducible apply Fit.ite <;> intro _)
    | (with_reducible apply Fit.foldl)
    | split)

theorem freshHead_fit {L : Nat} {s0 : State} {b : Bool} {s : State} (hL : In 0x40000 L) (h0 : Fit L s0 s) :
    Fit L s0 (freshHead b s) := by
  unfold freshHead
  repeat' (first
    | with_reducible assumption
    | intro _
    | (extract_lets +onlyGivenNames x; have y := x; first | (guard_hyp y : State; clear y; refine Fit.seq L s0 x ?_ ?_; rotate_left; intro hx; clear_value x; rotate_left; dsimp -zeta only [x]; clear x) | (clear y; clear_value x))
    | with_reducible apply onHead_fit (In.trans (by decide) hL))

theorem lightFrame_fit {L : Nat} {s0 : State} {k : Nat} {s : State} (hL : In 0x85CE06 L) (h0 : Fit L s0 s) :
    Fit L s0 (lightFrame k s) := by
  unfold lightFrame
  repeat' (first
    | with_reducible assumption
    | intro _
    | (extract_lets +onlyGivenNames x; have y := x; first | (guard_hyp y : State; clear y; refine Fit.seq L s0 x ?_ ?_; rotate_left; intro hx; clear_value x; rotate_left; dsimp -zeta only [x]; clear x) | (clear y; clear_value x))
    | with_reducible apply onScn_fit (In.trans (by decide) hL)
    | with_reducible apply applyWaits_fit (In.trans (by decide) hL)
    | with_reducible apply retireUnseen_fit (In.trans (by decide) hL)
    | with_reducible apply chooseLit_fit (In.trans (by decide) hL)
    | with_reducible apply frameShown_fit (In.trans (by decide) hL)
    | (with_reducible apply Fit.ite <;> intro _)
    | (with_reducible apply Fit.foldl)
    | split)

theorem darkFrame_fit {L : Nat} {s0 : State} {k : Nat} {s : State} (hL : In 0x85CE02 L) (h0 : Fit L s0 s) :
    Fit L s0 (darkFrame k s) := by
  unfold darkFrame
  repeat' (first
    | with_reducible assumption
    | intro _
    | (extract_lets +onlyGivenNames x; have y := x; first | (guard_hyp y : State; clear y; refine Fit.seq L s0 x ?_ ?_; rotate_left; intro hx; clear_value x; rotate_left; dsimp -zeta only [x]; clear x) | (clear y; clear_value x))
    | with_reducible apply onScn_fit (In.trans (by decide) hL)
    | with_reducible apply retireUnseen_fit (In.trans (by decide) hL)
    | with_reducible apply chooseDark_fit (In.trans (by decide) hL)
    | with_reducible apply frameShown_fit (In.trans (by decide) hL)
    | (with_reducible apply Fit.ite <;> intro _)
    | (with_reducible apply Fit.foldl)
    | split)

theorem endDark_fit {L : Nat} {s0 : State} {d : Dark} {k : Nat} {s : State} (hL : In 0xFFFFFFE L) (h0 : Fit L s0 s) :
    Fit L s0 (endDark d k s) := by
  unfold endDark
  repeat' (first
    | with_reducible assumption
    | intro _
    | (extract_lets +onlyGivenNames x; have y := x; first | (guard_hyp y : State; clear y; refine Fit.seq L s0 x ?_ ?_; rotate_left; intro hx; clear_value x; rotate_left; dsimp -zeta only [x]; clear x) | (clear y; clear_value x))
    | with_reducible apply raise_fit (In.trans (by decide) hL)
    | with_reducible apply setDead_fit (In.trans (by decide) hL)
    | with_reducible apply onHead_fit (In.trans (by decide) hL)
    | with_reducible apply onScn_fit (In.trans (by decide) hL)
    | with_reducible apply onMode_fit (In.trans (by decide) hL)
    | with_reducible apply makeStep_fit (In.trans (by decide) hL)
    | with_reducible apply completeChange_fit (In.trans (by decide) hL)
    | with_reducible apply powerLayer_fit (In.trans (by decide) hL)
    | with_reducible apply beginPair_fit (In.trans (by decide) hL)
    | with_reducible apply lightFrame_fit (In.trans (by decide) hL)
    | (with_reducible apply Fit.ite <;> intro _)
    | (with_reducible apply Fit.foldl)
    | split)

theorem frameBoundary_fit {L : Nat} {s0 : State} {u : Sub} {s : State} (hL : In 0xFFFFFFE L) (h0 : Fit L s0 s) :
    Fit L s0 (frameBoundary u s) := by
  unfold frameBoundary
  repeat' (first
    | with_reducible assumption
    | intro _
    | (extract_lets +onlyGivenNames x; have y := x; first | (guard_hyp y : State; clear y; refine Fit.seq L s0 x ?_ ?_; rotate_left; intro hx; clear_value x; rotate_left; dsimp -zeta only [x]; clear x) | (clear y; clear_value x))
    | with_reducible apply pApply_fit (In.trans (by decide) hL)
    | with_reducible apply onPlk_fit (In.trans (by decide) hL)
    | with_reducible apply onScn_fit (In.trans (by decide) hL)
    | with_reducible apply endFences_fit (In.trans (by decide) hL)
    | with_reducible apply letBefore_fit (In.trans (by decide) hL)
    | with_reducible apply completeChange_fit (In.trans (by decide) hL)
    | with_reducible apply joinHalves_fit (In.trans (by decide) hL)
    | with_reducible apply powerLayer_fit (In.trans (by decide) hL)
    | with_reducible apply beginPair_fit (In.trans (by decide) hL)
    | with_reducible apply sessionsAt_fit (In.trans (by decide) hL)
    | with_reducible apply freshHead_fit (In.trans (by decide) hL)
    | with_reducible apply lightFrame_fit (In.trans (by decide) hL)
    | with_reducible apply darkFrame_fit (In.trans (by decide) hL)
    | with_reducible apply endDark_fit (In.trans (by decide) hL)
    | (with_reducible apply Fit.ite <;> intro _)
    | (with_reducible apply Fit.foldl)
    | split)

theorem startSub_fit {L : Nat} {s0 : State} {u : Sub} {s : State} (hL : In 0xFFFFFFE L) (h0 : Fit L s0 s) :
    Fit L s0 (startSub u s) := by
  unfold startSub
  repeat' (first
    | with_reducible assumption
    | intro _
    | (extract_lets +onlyGivenNames x; have y := x; first | (guard_hyp y : State; clear y; refine Fit.seq L s0 x ?_ ?_; rotate_left; intro hx; clear_value x; rotate_left; dsimp -zeta only [x]; clear x) | (clear y; clear_value x))
    | with_reducible apply advanceMer_fit (In.trans (by decide) hL)
    | with_reducible apply stdSubframe_fit (In.trans (by decide) hL)
    | with_reducible apply onScn_fit (In.trans (by decide) hL)
    | with_reducible apply subMarkers_fit (In.trans (by decide) hL)
    | with_reducible apply frameBoundary_fit (In.trans (by decide) hL)
    | (with_reducible apply Fit.ite <;> intro _)
    | split)

theorem execSubframeStart_fit {L : Nat} {s0 : State} {s : State} (hL : In 0xFFFFFFE L) (h0 : Fit L s0 s) :
    ∀ post, execSubframeStart s = .next post → Fit L s0 post := by
  unfold execSubframeStart
  refine ok_fit ?_
  repeat' (first
    | with_reducible assumption
    | (extract_lets +onlyGivenNames x; have y := x; first | (guard_hyp y : State; clear y; refine Fit.seq L s0 x ?_ ?_; rotate_left; intro hx; clear_value x; rotate_left; dsimp -zeta only [x]; clear x) | (clear y; clear_value x))
    | with_reducible apply startSub_fit (In.trans (by decide) hL)
    | split)

theorem endSlots_fit {L : Nat} {s0 : State} {s : State} (hL : In 0xFFFFFFE L) (h0 : Fit L s0 s) :
    Fit L s0 (endSlots s) := by
  unfold endSlots
  repeat' (first
    | with_reducible assumption
    | intro _
    | (extract_lets +onlyGivenNames x; have y := x; first | (guard_hyp y : State; clear y; refine Fit.seq L s0 x ?_ ?_; rotate_left; intro hx; clear_value x; rotate_left; dsimp -zeta only [x]; clear x) | (clear y; clear_value x))
    | with_reducible apply closeSlots_fit (In.trans (by decide) hL)
    | with_reducible apply faultOf_fit (In.trans (by decide) hL)
    | (with_reducible apply Fit.ite <;> intro _)
    | (with_reducible apply Fit.foldl)
    | split)

theorem addWindow_fit {L : Nat} {s0 : State} {u : Sub} {b : Nat} {s : State} (hL : In 0x40000 L) (h0 : Fit L s0 s) :
    Fit L s0 (addWindow u b s) := by
  unfold addWindow
  repeat' (first
    | with_reducible assumption
    | intro _
    | (extract_lets +onlyGivenNames x; have y := x; first | (guard_hyp y : State; clear y; refine Fit.seq L s0 x ?_ ?_; rotate_left; intro hx; clear_value x; rotate_left; dsimp -zeta only [x]; clear x) | (clear y; clear_value x))
    | with_reducible apply onScn_fit (In.trans (by decide) hL)
    | (with_reducible apply Fit.ite <;> intro _)
    | split)

theorem sendBand_fit {L : Nat} {s0 : State} {u : Sub} {b : Nat} {old : Bool} {p : FetchP} {s : State} (hL : In 0x8C0E02 L) (h0 : Fit L s0 s) :
    Fit L s0 (sendBand u b old p s) := by
  unfold sendBand
  repeat' (first
    | with_reducible assumption
    | intro _
    | (extract_lets +onlyGivenNames x; have y := x; first | (guard_hyp y : State; clear y; refine Fit.seq L s0 x ?_ ?_; rotate_left; intro hx; clear_value x; rotate_left; dsimp -zeta only [x]; clear x) | (clear y; clear_value x))
    | with_reducible apply readHost_fit (In.trans (by decide) hL)
    | with_reducible apply sendRows_fit (In.trans (by decide) hL)
    | (with_reducible apply Fit.ite <;> intro _)
    | (with_reducible apply Fit.foldl)
    | split)

theorem checkPrev_fit {L : Nat} {s0 : State} {v : Sub} {old : Bool} {p : FetchP} {s : State} (hL : In 0x840C02 L) (h0 : Fit L s0 s) :
    Fit L s0 (checkPrev v old p s) := by
  unfold checkPrev
  repeat' (first
    | with_reducible assumption
    | intro _
    | (extract_lets +onlyGivenNames x; have y := x; first | (guard_hyp y : State; clear y; refine Fit.seq L s0 x ?_ ?_; rotate_left; intro hx; clear_value x; rotate_left; dsimp -zeta only [x]; clear x) | (clear y; clear_value x))
    | with_reducible apply checkBlock_fit (In.trans (by decide) hL)
    | (with_reducible apply Fit.ite <;> intro _)
    | (with_reducible apply Fit.foldl)
    | split)

theorem endPrev_fit {L : Nat} {s0 : State} {u : Sub} {p : FetchP} {s : State} (hL : In 0x850E02 L) (h0 : Fit L s0 s) :
    Fit L s0 (endPrev u p s) := by
  unfold endPrev
  repeat' (first
    | with_reducible assumption
    | intro _
    | (extract_lets +onlyGivenNames x; have y := x; first | (guard_hyp y : State; clear y; refine Fit.seq L s0 x ?_ ?_; rotate_left; intro hx; clear_value x; rotate_left; dsimp -zeta only [x]; clear x) | (clear y; clear_value x))
    | with_reducible apply onHead_fit (In.trans (by decide) hL)
    | with_reducible apply onScn_fit (In.trans (by decide) hL)
    | with_reducible apply endFences_fit (In.trans (by decide) hL)
    | with_reducible apply letBefore_fit (In.trans (by decide) hL)
    | with_reducible apply freshHead_fit (In.trans (by decide) hL)
    | with_reducible apply checkPrev_fit (In.trans (by decide) hL)
    | (with_reducible apply Fit.ite <;> intro _)
    | (with_reducible apply Fit.foldl)
    | split)

theorem bandInstant_fit {L : Nat} {s0 : State} {u : Sub} {b : Nat} {p : FetchP} {s : State} (hL : In 0xFFFFFFE L) (h0 : Fit L s0 s) :
    Fit L s0 (bandInstant u b p s) := by
  unfold bandInstant
  repeat' (first
    | with_reducible assumption
    | intro _
    | (extract_lets +onlyGivenNames x; have y := x; first | (guard_hyp y : State; clear y; refine Fit.seq L s0 x ?_ ?_; rotate_left; intro hx; clear_value x; rotate_left; dsimp -zeta only [x]; clear x) | (clear y; clear_value x))
    | with_reducible apply advanceMer_fit (In.trans (by decide) hL)
    | with_reducible apply stdIntegrate_fit (In.trans (by decide) hL)
    | with_reducible apply stdBand_fit (In.trans (by decide) hL)
    | with_reducible apply onScn_fit (In.trans (by decide) hL)
    | with_reducible apply memErrors_fit (In.trans (by decide) hL)
    | with_reducible apply compareOuts_fit (In.trans (by decide) hL)
    | with_reducible apply checkOpen_fit (In.trans (by decide) hL)
    | with_reducible apply endSlots_fit (In.trans (by decide) hL)
    | with_reducible apply addWindow_fit (In.trans (by decide) hL)
    | with_reducible apply sendBand_fit (In.trans (by decide) hL)
    | with_reducible apply endPrev_fit (In.trans (by decide) hL)
    | (with_reducible apply Fit.ite <;> intro _)
    | split)

theorem execBandInstant_fit {L : Nat} {s0 : State} {p : FetchP} {s : State} (hL : In 0xFFFFFFE L) (h0 : Fit L s0 s) :
    ∀ post, execBandInstant p s = .next post → Fit L s0 post := by
  unfold execBandInstant
  refine ok_fit ?_
  repeat' (first
    | with_reducible assumption
    | (extract_lets +onlyGivenNames x; have y := x; first | (guard_hyp y : State; clear y; refine Fit.seq L s0 x ?_ ?_; rotate_left; intro hx; clear_value x; rotate_left; dsimp -zeta only [x]; clear x) | (clear y; clear_value x))
    | with_reducible apply bandInstant_fit (In.trans (by decide) hL)
    | split)

theorem emitMarks_fit {L : Nat} {s0 : State} {on : Bool} {band t : Nat} {s : State} (hL : In 0x402 L) (h0 : Fit L s0 s) :
    Fit L s0 (emitMarks on band t s) := by
  unfold emitMarks
  repeat' (first
    | with_reducible assumption
    | intro _
    | with_reducible apply emit_fit (In.trans (by decide) hL)
    | (with_reducible apply Fit.ite <;> intro _)
    | (with_reducible apply Fit.foldl)
    | split)

theorem execEmitOn_fit {L : Nat} {s0 : State} {s : State} (hL : In 0x40422 L) (h0 : Fit L s0 s) :
    ∀ post, execEmitOn s = .next post → Fit L s0 post := by
  unfold execEmitOn
  refine ok_fit ?_
  repeat' (first
    | with_reducible assumption
    | intro _
    | (extract_lets +onlyGivenNames x; have y := x; first | (guard_hyp y : State; clear y; refine Fit.seq L s0 x ?_ ?_; rotate_left; intro hx; clear_value x; rotate_left; dsimp -zeta only [x]; clear x) | (clear y; clear_value x))
    | with_reducible apply advanceMer_fit (In.trans (by decide) hL)
    | with_reducible apply onScn_fit (In.trans (by decide) hL)
    | with_reducible apply emitMarks_fit (In.trans (by decide) hL)
    | (with_reducible apply Fit.ite <;> intro _)
    | split)

theorem execEmitOff_fit {L : Nat} {s0 : State} {s : State} (hL : In 0x40422 L) (h0 : Fit L s0 s) :
    ∀ post, execEmitOff s = .next post → Fit L s0 post := by
  unfold execEmitOff
  refine ok_fit ?_
  repeat' (first
    | with_reducible assumption
    | intro _
    | (extract_lets +onlyGivenNames x; have y := x; first | (guard_hyp y : State; clear y; refine Fit.seq L s0 x ?_ ?_; rotate_left; intro hx; clear_value x; rotate_left; dsimp -zeta only [x]; clear x) | (clear y; clear_value x))
    | with_reducible apply advanceMer_fit (In.trans (by decide) hL)
    | with_reducible apply onScn_fit (In.trans (by decide) hL)
    | with_reducible apply emitMarks_fit (In.trans (by decide) hL)
    | split)

theorem execFlatRowWrite_fit {L : Nat} {s0 : State} {p : FetchP} {s : State} (hL : In 0xFFFFFFE L) (h0 : Fit L s0 s) :
    ∀ post, execFlatRowWrite p s = .next post → Fit L s0 post := by
  unfold execFlatRowWrite
  refine ok_fit ?_
  repeat' (first
    | with_reducible assumption
    | intro _
    | (extract_lets +onlyGivenNames x; have y := x; first | (guard_hyp y : State; clear y; refine Fit.seq L s0 x ?_ ?_; rotate_left; intro hx; clear_value x; rotate_left; dsimp -zeta only [x]; clear x) | (clear y; clear_value x))
    | with_reducible apply advanceMer_fit (In.trans (by decide) hL)
    | with_reducible apply onScn_fit (In.trans (by decide) hL)
    | with_reducible apply readHost_fit (In.trans (by decide) hL)
    | with_reducible apply sendRows_fit (In.trans (by decide) hL)
    | with_reducible apply memErrors_fit (In.trans (by decide) hL)
    | with_reducible apply endSlots_fit (In.trans (by decide) hL)
    | (with_reducible apply Fit.ite <;> intro _)
    | (with_reducible apply Fit.foldl)
    | split)

theorem execStarlightRowWrite_fit {L : Nat} {s0 : State} {s : State} (hL : In 0xFFFFFFE L) (h0 : Fit L s0 s) :
    ∀ post, execStarlightRowWrite s = .next post → Fit L s0 post := by
  unfold execStarlightRowWrite
  refine ok_fit ?_
  repeat' (first
    | with_reducible assumption
    | intro _
    | (extract_lets +onlyGivenNames x; have y := x; first | (guard_hyp y : State; clear y; refine Fit.seq L s0 x ?_ ?_; rotate_left; intro hx; clear_value x; rotate_left; dsimp -zeta only [x]; clear x) | (clear y; clear_value x))
    | with_reducible apply advanceMer_fit (In.trans (by decide) hL)
    | with_reducible apply queueRows_fit (In.trans (by decide) hL)
    | with_reducible apply onScn_fit (In.trans (by decide) hL)
    | with_reducible apply endSlots_fit (In.trans (by decide) hL)
    | (with_reducible apply Fit.ite <;> intro _)
    | (with_reducible apply Fit.foldl)
    | split)

theorem execScnHeadFault_fit {L : Nat} {s0 : State} {b : Bool} {s : State} (hL : In 0xFFFFFFE L) (h0 : Fit L s0 s) :
    ∀ post, execScnHeadFault b s = .next post → Fit L s0 post := by
  unfold execScnHeadFault
  refine ok_fit ?_
  repeat' (first
    | with_reducible assumption
    | with_reducible apply faultOf_fit (In.trans (by decide) hL)
    | (with_reducible apply Fit.ite <;> intro _))

theorem execOverlayHostReadFail_fit {L : Nat} {s0 : State} {s : State} (hL : In 0x840C02 L) (h0 : Fit L s0 s) :
    ∀ post, execOverlayHostReadFail s = .next post → Fit L s0 post := by
  unfold execOverlayHostReadFail
  refine ok_fit ?_
  repeat' (first
    | with_reducible assumption
    | with_reducible apply hostLayersOff_fit (In.trans (by decide) hL)
    | (with_reducible apply Fit.ite <;> intro _))

theorem execScnStillLowered_fit {L : Nat} {s0 : State} {s : State} (hL : In 0x40060 L) (h0 : Fit L s0 s) :
    ∀ post, execScnStillLowered s = .next post → Fit L s0 post := by
  unfold execScnStillLowered
  refine ok_fit ?_
  repeat' (first
    | with_reducible assumption
    | intro _
    | (extract_lets +onlyGivenNames x; have y := x; first | (guard_hyp y : State; clear y; refine Fit.seq L s0 x ?_ ?_; rotate_left; intro hx; clear_value x; rotate_left; dsimp -zeta only [x]; clear x) | (clear y; clear_value x))
    | with_reducible apply advanceRef_fit (In.trans (by decide) hL)
    | with_reducible apply onScn_fit (In.trans (by decide) hL)
    | with_reducible apply onMode_fit (In.trans (by decide) hL)
    | (with_reducible apply Fit.ite <;> intro _)
    | split)

theorem execDarkIntervalTrainTimeout_fit {L : Nat} {s0 : State} {s : State} (hL : In 0x40020 L) (h0 : Fit L s0 s) :
    ∀ post, execDarkIntervalTrainTimeout s = .next post → Fit L s0 post := by
  unfold execDarkIntervalTrainTimeout
  refine ok_fit ?_
  repeat' (first
    | with_reducible assumption
    | intro _
    | (extract_lets +onlyGivenNames x; have y := x; first | (guard_hyp y : State; clear y; refine Fit.seq L s0 x ?_ ?_; rotate_left; intro hx; clear_value x; rotate_left; dsimp -zeta only [x]; clear x) | (clear y; clear_value x))
    | with_reducible apply advanceMer_fit (In.trans (by decide) hL)
    | with_reducible apply onScn_fit (In.trans (by decide) hL)
    | (with_reducible apply Fit.ite <;> intro _)
    | split)

end Sys2Proof.Machine
end

