-- ==== Sys2Proof/Laws/FitPanelLink.lean ====
section
/-! SUPPORT. What each definition of Machine/PanelLink.lean touches, and that it keeps the invariant: one lemma each. -/

set_option Elab.async false
set_option linter.all false

namespace Sys2Proof.Machine

theorem endLinkRecov_fit {L : Nat} {s0 : State} {b : Bool} {outcome : Nat} {s : State} (hL : In 0x800E02 L) (h0 : Fit L s0 s) :
    Fit L s0 (endLinkRecov b outcome s) := by
  unfold endLinkRecov
  repeat' (first
    | with_reducible assumption
    | (extract_lets +onlyGivenNames x; have y := x; first | (guard_hyp y : State; clear y; refine Fit.seq L s0 x ?_ ?_; rotate_left; intro hx; clear_value x; rotate_left; dsimp -zeta only [x]; clear x) | (clear y; clear_value x))
    | with_reducible apply endRecov_fit (In.trans (by decide) hL)
    | split)

theorem withLoss_fit {L : Nat} {s0 : State} {b : Bool} {f : State → State} {s : State} (hL : In 0xFFFFFFE L) (h0 : Fit L s0 s) (h_f : ∀ v0, Fit L s0 v0 → Fit L s0 (f v0)) :
    Fit L s0 (withLoss b f s) := by
  unfold withLoss
  repeat' (first
    | with_reducible assumption
    | (extract_lets +onlyGivenNames x; have y := x; first | (guard_hyp y : State; clear y; refine Fit.seq L s0 x ?_ ?_; rotate_left; intro hx; clear_value x; rotate_left; dsimp -zeta only [x]; clear x) | (clear y; clear_value x))
    | with_reducible apply faultOf_fit (In.trans (by decide) hL)
    | with_reducible apply h_f
    | (with_reducible apply Fit.ite <;> intro _))

theorem failAttempt_fit {L : Nat} {s0 : State} {b : Bool} {s : State} (hL : In 0xFFFFFFE L) (h0 : Fit L s0 s) :
    Fit L s0 (failAttempt b s) := by
  unfold failAttempt
  repeat' (first
    | with_reducible assumption
    | intro _
    | (extract_lets +onlyGivenNames x; have y := x; first | (guard_hyp y : State; clear y; refine Fit.seq L s0 x ?_ ?_; rotate_left; intro hx; clear_value x; rotate_left; dsimp -zeta only [x]; clear x) | (clear y; clear_value x))
    | with_reducible apply onPlk_fit (In.trans (by decide) hL)
    | with_reducible apply linkCmdHalf_fit (In.trans (by decide) hL)
    | with_reducible apply idle_fit (In.trans (by decide) hL)
    | with_reducible apply faultAt_fit (In.trans (by decide) hL)
    | with_reducible apply endLinkRecov_fit (In.trans (by decide) hL)
    | (with_reducible apply Fit.ite <;> intro _)
    | split)

theorem dropLanes_fit {L : Nat} {s0 : State} {b : Bool} {all mask : Nat} {s : State} (hL : In 0x800C02 L) (h0 : Fit L s0 s) :
    Fit L s0 (dropLanes b all mask s) := by
  unfold dropLanes
  repeat' (first
    | with_reducible assumption
    | intro _
    | with_reducible apply raise_fit (In.trans (by decide) hL)
    | (with_reducible apply Fit.foldl))

theorem trainDone_fit {L : Nat} {s0 : State} {b : Bool} {t : Train} {mask credits : Nat} {s : State} (hL : In 0x880E02 L) (h0 : Fit L s0 s) :
    Fit L s0 (trainDone b t mask credits s) := by
  unfold trainDone
  repeat' (first
    | with_reducible assumption
    | intro _
    | (extract_lets +onlyGivenNames x; have y := x; first | (guard_hyp y : State; clear y; refine Fit.seq L s0 x ?_ ?_; rotate_left; intro hx; clear_value x; rotate_left; dsimp -zeta only [x]; clear x) | (guard_hyp y : EvtSt; clear y; dsimp -zeta only [x]; clear x) | (clear y; clear_value x))
    | with_reducible apply raise_fit (In.trans (by decide) hL)
    | with_reducible apply setTotal_fit (In.trans (by decide) hL)
    | with_reducible apply onPlk_fit (In.trans (by decide) hL)
    | with_reducible apply reclaim_fit (In.trans (by decide) hL)
    | with_reducible apply linkCmdHalf_fit (In.trans (by decide) hL)
    | with_reducible apply endLinkRecov_fit (In.trans (by decide) hL)
    | with_reducible apply dropLanes_fit (In.trans (by decide) hL)
    | (with_reducible apply Fit.upd_plk (In.trans (by decide) hL); first | (with_reducible apply Fit.ite <;> intro _) | (fail_if_success split))
    | split)

theorem settleTrain_fit {L : Nat} {s0 : State} {b : Bool} {s : State} (hL : In 0x880E02 L) (h0 : Fit L s0 s) :
    Fit L s0 (settleTrain b s) := by
  unfold settleTrain
  repeat' (first
    | with_reducible assumption
    | (extract_lets +onlyGivenNames x; have y := x; first | (guard_hyp y : State; clear y; refine Fit.seq L s0 x ?_ ?_; rotate_left; intro hx; clear_value x; rotate_left; dsimp -zeta only [x]; clear x) | (clear y; clear_value x))
    | with_reducible apply trainDone_fit (In.trans (by decide) hL)
    | (with_reducible apply Fit.ite <;> intro _)
    | split)

theorem halfDown_fit {L : Nat} {s0 : State} {b : Bool} {s : State} (hL : In 0x9D0E02 L) (h0 : Fit L s0 s) :
    Fit L s0 (halfDown b s) := by
  unfold halfDown
  repeat' (first
    | with_reducible assumption
    | intro _
    | (extract_lets +onlyGivenNames x; have y := x; first | (guard_hyp y : State; clear y; refine Fit.seq L s0 x ?_ ?_; rotate_left; intro hx; clear_value x; rotate_left; dsimp -zeta only [x]; clear x) | (guard_hyp y : EvtSt; clear y; dsimp -zeta only [x]; clear x) | (clear y; clear_value x))
    | with_reducible apply raise_fit (In.trans (by decide) hL)
    | with_reducible apply setTotal_fit (In.trans (by decide) hL)
    | with_reducible apply auditAll_fit (In.trans (by decide) hL)
    | with_reducible apply crowbarHalf_fit (In.trans (by decide) hL)
    | with_reducible apply onPlk_fit (In.trans (by decide) hL)
    | with_reducible apply onHead_fit (In.trans (by decide) hL)
    | with_reducible apply linkIdle_fit (In.trans (by decide) hL)
    | with_reducible apply linkCmdHalf_fit (In.trans (by decide) hL)
    | with_reducible apply settleLayers_fit (In.trans (by decide) hL)
    | with_reducible apply letAll_fit (In.trans (by decide) hL)
    | with_reducible apply endLinkRecov_fit (In.trans (by decide) hL)
    | (with_reducible apply Fit.ite <;> intro _)
    | split)

theorem settlePresence_fit {L : Nat} {s0 : State} {b : Bool} {s : State} (hL : In 0x8C0E02 L) (h0 : Fit L s0 s) :
    Fit L s0 (settlePresence b s) := by
  unfold settlePresence
  repeat' (first
    | with_reducible assumption
    | intro _
    | (extract_lets +onlyGivenNames x; have y := x; first | (guard_hyp y : State; clear y; refine Fit.seq L s0 x ?_ ?_; rotate_left; intro hx; clear_value x; rotate_left; dsimp -zeta only [x]; clear x) | (clear y; clear_value x))
    | with_reducible apply raise_fit (In.trans (by decide) hL)
    | with_reducible apply auditAll_fit (In.trans (by decide) hL)
    | with_reducible apply onPlk_fit (In.trans (by decide) hL)
    | with_reducible apply judgeModel_fit (In.trans (by decide) hL)
    | with_reducible apply startTrain_fit (In.trans (by decide) hL)
    | with_reducible apply settleLayers_fit (In.trans (by decide) hL)
    | (with_reducible apply Fit.ite <;> intro _)
    | split)

theorem runLinkTrain_fit {L : Nat} {s0 : State} {h : Hdr} {p : LinkTrainP} {s : State} (hL : In 0x8C0E02 L) (h0 : Fit L s0 s) :
    Fit L s0 (runLinkTrain h p s) := by
  unfold runLinkTrain
  repeat' (first
    | with_reducible assumption
    | intro _
    | (extract_lets +onlyGivenNames x; have y := x; first | (guard_hyp y : State; clear y; refine Fit.seq L s0 x ?_ ?_; rotate_left; intro hx; clear_value x; rotate_left; dsimp -zeta only [x]; clear x) | (guard_hyp y : CmdSt; clear y; dsimp -zeta only [x]; clear x) | (clear y; clear_value x))
    | with_reducible apply accepted_fit (In.trans (by decide) hL)
    | with_reducible apply startTrain_fit (In.trans (by decide) hL)
    | with_reducible apply darken_fit (In.trans (by decide) hL)
    | (with_reducible apply Fit.ite <;> intro _)
    | (with_reducible apply Fit.foldl)
    | (with_reducible apply Fit.upd_plk (In.trans (by decide) hL); first | (with_reducible apply Fit.ite <;> intro _) | (fail_if_success split))
    | split)

theorem rowPanelLinkTrain_fit {L : Nat} {h : Hdr} {p : LinkTrainP} (hL : In 0x8C0E02 L) :
    RowFit L (rowPanelLinkTrain h p) := by
  refine ⟨fun s0 s h0 => ?_, fun s0 s h0 => ?_⟩ <;> unfold rowPanelLinkTrain <;> try dsimp -zeta only [id]
  repeat' (first
    | with_reducible assumption
    | with_reducible apply runLinkTrain_fit (In.trans (by decide) hL)
    | (dsimp -zeta only [id])
    | (with_reducible apply Fit.of_snd; case e => with_reducible assumption)
    | (with_reducible apply Fit.of_fst; case e => with_reducible assumption))

theorem execPanelLinkTrain_fit {L : Nat} {s0 : State} {h : Hdr} {p : LinkTrainP} {s : State} (hL : In 0x48C0E02 L) (h0 : Fit L s0 s) :
    ∀ post, execPanelLinkTrain h p s = .next post → Fit L s0 post := by
  unfold execPanelLinkTrain
  refine ok_fit ?_
  repeat' (first
    | with_reducible assumption
    | with_reducible apply command_fit (In.trans (by decide) hL)
    | with_reducible apply rowPanelLinkTrain_fit (In.trans (by decide) hL))

theorem rowPanelPresRearm_fit {L : Nat} {h : Hdr} {p : LinkTrainP} (hL : In 0x880E02 L) :
    RowFit L (rowPanelPresRearm h p) := by
  refine ⟨fun s0 s h0 => ?_, fun s0 s h0 => ?_⟩ <;> unfold rowPanelPresRearm <;> try dsimp -zeta only [id]
  repeat' (first
    | with_reducible assumption
    | intro _
    | (extract_lets +onlyGivenNames x; have y := x; first | (guard_hyp y : State; clear y; refine Fit.seq L s0 x ?_ ?_; rotate_left; intro hx; clear_value x; rotate_left; dsimp -zeta only [x]; clear x) | (clear y; clear_value x))
    | with_reducible apply finish_fit (In.trans (by decide) hL)
    | with_reducible apply onPlk_fit (In.trans (by decide) hL)
    | (with_reducible apply Fit.foldl)
    | (dsimp -zeta only [id])
    | (with_reducible apply Fit.of_snd; case e => with_reducible assumption)
    | (with_reducible apply Fit.of_fst; case e => with_reducible assumption))

theorem execPanelPresRearm_fit {L : Nat} {s0 : State} {h : Hdr} {p : LinkTrainP} {s : State} (hL : In 0x4880E02 L) (h0 : Fit L s0 s) :
    ∀ post, execPanelPresRearm h p s = .next post → Fit L s0 post := by
  unfold execPanelPresRearm
  refine ok_fit ?_
  repeat' (first
    | with_reducible assumption
    | with_reducible apply command_fit (In.trans (by decide) hL)
    | with_reducible apply rowPanelPresRearm_fit (In.trans (by decide) hL))

theorem execHello_fit {L : Nat} {s0 : State} {b : Bool} {p : HelloMsg} {s : State} (hL : In 0x880C02 L) (h0 : Fit L s0 s) :
    ∀ post, execHello b p s = .next post → Fit L s0 post := by
  unfold execHello
  refine ok_fit ?_
  repeat' (first
    | with_reducible assumption
    | intro _
    | (extract_lets +onlyGivenNames x; have y := x; first | (guard_hyp y : State; clear y; refine Fit.seq L s0 x ?_ ?_; rotate_left; intro hx; clear_value x; rotate_left; dsimp -zeta only [x]; clear x) | (clear y; clear_value x))
    | with_reducible apply onPlk_fit (In.trans (by decide) hL)
    | with_reducible apply judgeModel_fit (In.trans (by decide) hL)
    | with_reducible apply judgeCap_fit (In.trans (by decide) hL)
    | (with_reducible apply Fit.ite <;> intro _)
    | split)

theorem execTstat_fit {L : Nat} {s0 : State} {b : Bool} {stage : Byte} {mask : U32} {s : State} (hL : In 0xFFFFFFE L) (h0 : Fit L s0 s) :
    ∀ post, execTstat b stage mask s = .next post → Fit L s0 post := by
  unfold execTstat
  refine ok_fit ?_
  repeat' (first
    | with_reducible assumption
    | intro _
    | (extract_lets +onlyGivenNames x; have y := x; first | (guard_hyp y : State; clear y; refine Fit.seq L s0 x ?_ ?_; rotate_left; intro hx; clear_value x; rotate_left; dsimp -zeta only [x]; clear x) | ((first | (guard_hyp y : _ → State; clear y) | (guard_hyp y : _ → _ → State; clear y) | (guard_hyp y : _ → _ → _ → State; clear y)); dsimp -zeta only [x]; clear x) | (clear y; clear_value x))
    | with_reducible apply emit_fit (In.trans (by decide) hL)
    | with_reducible apply onPlk_fit (In.trans (by decide) hL)
    | with_reducible apply failAttempt_fit (In.trans (by decide) hL)
    | with_reducible apply settleTrain_fit (In.trans (by decide) hL)
    | (with_reducible apply Fit.ite <;> intro _)
    | split)

theorem execPanelCinit_fit {L : Nat} {s0 : State} {b : Bool} {credits : Byte} {s : State} (hL : In 0x880E02 L) (h0 : Fit L s0 s) :
    ∀ post, execPanelCinit b credits s = .next post → Fit L s0 post := by
  unfold execPanelCinit
  refine ok_fit ?_
  repeat' (first
    | with_reducible assumption
    | intro _
    | (extract_lets +onlyGivenNames x; have y := x; first | (guard_hyp y : State; clear y; refine Fit.seq L s0 x ?_ ?_; rotate_left; intro hx; clear_value x; rotate_left; dsimp -zeta only [x]; clear x) | (clear y; clear_value x))
    | with_reducible apply onPlk_fit (In.trans (by decide) hL)
    | with_reducible apply settleTrain_fit (In.trans (by decide) hL)
    | (with_reducible apply Fit.ite <;> intro _)
    | split)

theorem answered_fit {L : Nat} {s0 : State} {b : Bool} {seq : Nat} {s : State} (hL : In 0x80200 L) (h0 : Fit L s0 s) :
    Fit L s0 (answered b seq s) := by
  unfold answered
  repeat' (first
    | with_reducible assumption
    | intro _
    | (extract_lets +onlyGivenNames x; have y := x; first | (guard_hyp y : State; clear y; refine Fit.seq L s0 x ?_ ?_; rotate_left; intro hx; clear_value x; rotate_left; dsimp -zeta only [x]; clear x) | (clear y; clear_value x))
    | with_reducible apply onPlk_fit (In.trans (by decide) hL)
    | with_reducible apply creditBack_fit (In.trans (by decide) hL)
    | (with_reducible apply Fit.ite <;> intro _)
    | split)

theorem execAck_fit {L : Nat} {s0 : State} {b : Bool} {seq : U16} {count : Byte} {s : State} (hL : In 0xFFFFFFE L) (h0 : Fit L s0 s) :
    ∀ post, execAck b seq count s = .next post → Fit L s0 post := by
  unfold execAck
  refine ok_fit ?_
  repeat' (first
    | with_reducible assumption
    | intro _
    | (extract_lets +onlyGivenNames x; have y := x; first | (guard_hyp y : State; clear y; refine Fit.seq L s0 x ?_ ?_; rotate_left; intro hx; clear_value x; rotate_left; dsimp -zeta only [x]; clear x) | (clear y; clear_value x))
    | with_reducible apply pump_fit (In.trans (by decide) hL)
    | with_reducible apply withLoss_fit (In.trans (by decide) hL)
    | with_reducible apply answered_fit (In.trans (by decide) hL)
    | (with_reducible apply Fit.ite <;> intro _)
    | (with_reducible apply Fit.foldl)
    | split)

theorem execNak_fit {L : Nat} {s0 : State} {b : Bool} {seq : U16} {reason : Byte} {s : State} (hL : In 0xFFFFFFE L) (h0 : Fit L s0 s) :
    ∀ post, execNak b seq reason s = .next post → Fit L s0 post := by
  unfold execNak
  refine ok_fit ?_
  repeat' (first
    | with_reducible assumption
    | intro _
    | (extract_lets +onlyGivenNames x; have y := x; first | (guard_hyp y : State; clear y; refine Fit.seq L s0 x ?_ ?_; rotate_left; intro hx; clear_value x; rotate_left; dsimp -zeta only [x]; clear x) | (clear y; clear_value x))
    | with_reducible apply pump_fit (In.trans (by decide) hL)
    | with_reducible apply loseRow_fit (In.trans (by decide) hL)
    | with_reducible apply resendRow_fit (In.trans (by decide) hL)
    | with_reducible apply withLoss_fit (In.trans (by decide) hL)
    | with_reducible apply answered_fit (In.trans (by decide) hL)
    | (with_reducible apply Fit.ite <;> intro _)
    | split)

theorem execStatus_fit {L : Nat} {s0 : State} {b : Bool} {p : StatusMsg} {s : State} (hL : In 0xFFFFFFE L) (h0 : Fit L s0 s) :
    ∀ post, execStatus b p s = .next post → Fit L s0 post := by
  unfold execStatus
  refine ok_fit ?_
  repeat' (first
    | with_reducible assumption
    | intro _
    | (extract_lets +onlyGivenNames x; have y := x; first | (guard_hyp y : State; clear y; refine Fit.seq L s0 x ?_ ?_; rotate_left; intro hx; clear_value x; rotate_left; dsimp -zeta only [x]; clear x) | (clear y; clear_value x))
    | with_reducible apply raiseIf_fit (In.trans (by decide) hL)
    | with_reducible apply onPlk_fit (In.trans (by decide) hL)
    | with_reducible apply pump_fit (In.trans (by decide) hL)
    | with_reducible apply faultOf_fit (In.trans (by decide) hL)
    | with_reducible apply withLoss_fit (In.trans (by decide) hL)
    | with_reducible apply answered_fit (In.trans (by decide) hL)
    | (with_reducible apply Fit.ite <;> intro _)
    | (with_reducible apply Fit.foldl)
    | split)

theorem execPevt_fit {L : Nat} {s0 : State} {b : Bool} {code : U16} {data : List Byte} {s : State} (hL : In 0x800E02 L) (h0 : Fit L s0 s) :
    ∀ post, execPevt b code data s = .next post → Fit L s0 post := by
  unfold execPevt
  refine ok_fit ?_
  repeat' (first
    | with_reducible assumption
    | (extract_lets +onlyGivenNames x; have y := x; first | (guard_hyp y : State; clear y; refine Fit.seq L s0 x ?_ ?_; rotate_left; intro hx; clear_value x; rotate_left; dsimp -zeta only [x]; clear x) | (guard_hyp y : EvtSt; clear y; dsimp -zeta only [x]; clear x) | (clear y; clear_value x))
    | with_reducible apply emit_fit (In.trans (by decide) hL)
    | with_reducible apply raise_fit (In.trans (by decide) hL)
    | with_reducible apply move_fit (In.trans (by decide) hL)
    | (with_reducible apply Fit.ite <;> intro _))

theorem execTrainingAttempt_fit {L : Nat} {s0 : State} {b : Bool} {s : State} (hL : In 0x80602 L) (h0 : Fit L s0 s) :
    ∀ post, execTrainingAttempt b s = .next post → Fit L s0 post := by
  unfold execTrainingAttempt
  refine ok_fit ?_
  repeat' (first
    | with_reducible assumption
    | with_reducible apply beginAttempt_fit (In.trans (by decide) hL)
    | (with_reducible apply Fit.ite <;> intro _))

theorem execTrainingAttemptTimeout_fit {L : Nat} {s0 : State} {b : Bool} {s : State} (hL : In 0xFFFFFFE L) (h0 : Fit L s0 s) :
    ∀ post, execTrainingAttemptTimeout b s = .next post → Fit L s0 post := by
  unfold execTrainingAttemptTimeout
  refine ok_fit ?_
  repeat' (first
    | with_reducible assumption
    | (extract_lets +onlyGivenNames x; have y := x; first | (guard_hyp y : State; clear y; refine Fit.seq L s0 x ?_ ?_; rotate_left; intro hx; clear_value x; rotate_left; dsimp -zeta only [x]; clear x) | (clear y; clear_value x))
    | with_reducible apply advanceRef_fit (In.trans (by decide) hL)
    | with_reducible apply failAttempt_fit (In.trans (by decide) hL)
    | split)

theorem execTrainingRetry_fit {L : Nat} {s0 : State} {b : Bool} {s : State} (hL : In 0x80622 L) (h0 : Fit L s0 s) :
    ∀ post, execTrainingRetry b s = .next post → Fit L s0 post := by
  unfold execTrainingRetry
  refine ok_fit ?_
  repeat' (first
    | with_reducible assumption
    | intro _
    | (extract_lets +onlyGivenNames x; have y := x; first | (guard_hyp y : State; clear y; refine Fit.seq L s0 x ?_ ?_; rotate_left; intro hx; clear_value x; rotate_left; dsimp -zeta only [x]; clear x) | (clear y; clear_value x))
    | with_reducible apply advanceRef_fit (In.trans (by decide) hL)
    | with_reducible apply onPlk_fit (In.trans (by decide) hL)
    | with_reducible apply beginAttempt_fit (In.trans (by decide) hL)
    | (with_reducible apply Fit.ite <;> intro _)
    | split)

theorem execPlkAckTimeout_fit {L : Nat} {s0 : State} {b : Bool} {s : State} (hL : In 0xFFFFFFE L) (h0 : Fit L s0 s) :
    ∀ post, execPlkAckTimeout b s = .next post → Fit L s0 post := by
  unfold execPlkAckTimeout
  refine ok_fit ?_
  repeat' (first
    | with_reducible assumption
    | intro _
    | (extract_lets +onlyGivenNames x; have y := x; first | (guard_hyp y : State; clear y; refine Fit.seq L s0 x ?_ ?_; rotate_left; intro hx; clear_value x; rotate_left; dsimp -zeta only [x]; clear x) | (clear y; clear_value x))
    | with_reducible apply advanceMer_fit (In.trans (by decide) hL)
    | with_reducible apply raise_fit (In.trans (by decide) hL)
    | with_reducible apply onPlk_fit (In.trans (by decide) hL)
    | with_reducible apply resendRow_fit (In.trans (by decide) hL)
    | with_reducible apply withLoss_fit (In.trans (by decide) hL)
    | (with_reducible apply Fit.ite <;> intro _)
    | split)

theorem acceptPresence_fit {L : Nat} {s0 : State} {b level : Bool} {s : State} (hL : In 0x9D0E02 L) (h0 : Fit L s0 s) :
    Fit L s0 (acceptPresence b level s) := by
  unfold acceptPresence
  repeat' (first
    | with_reducible assumption
    | intro _
    | (extract_lets +onlyGivenNames x; have y := x; first | (guard_hyp y : State; clear y; refine Fit.seq L s0 x ?_ ?_; rotate_left; intro hx; clear_value x; rotate_left; dsimp -zeta only [x]; clear x) | (clear y; clear_value x))
    | with_reducible apply onPlk_fit (In.trans (by decide) hL)
    | with_reducible apply halfDown_fit (In.trans (by decide) hL)
    | with_reducible apply settlePresence_fit (In.trans (by decide) hL)
    | (with_reducible apply Fit.ite <;> intro _)
    | split)

theorem execPanelPresChange_fit {L : Nat} {s0 : State} {b : Bool} {level : Bool} {stable : Nat} {s : State} (hL : In 0x9D0E22 L) (h0 : Fit L s0 s) :
    ∀ post, execPanelPresChange b level stable s = .next post → Fit L s0 post := by
  unfold execPanelPresChange
  refine ok_fit ?_
  repeat' (first
    | with_reducible assumption
    | intro _
    | (extract_lets +onlyGivenNames x; have y := x; first | (guard_hyp y : State; clear y; refine Fit.seq L s0 x ?_ ?_; rotate_left; intro hx; clear_value x; rotate_left; dsimp -zeta only [x]; clear x) | (clear y; clear_value x))
    | with_reducible apply advanceRef_fit (In.trans (by decide) hL)
    | with_reducible apply raise_fit (In.trans (by decide) hL)
    | with_reducible apply onPlk_fit (In.trans (by decide) hL)
    | with_reducible apply acceptPresence_fit (In.trans (by decide) hL)
    | (with_reducible apply Fit.ite <;> intro _)
    | split)

theorem execPlkPresStuck_fit {L : Nat} {s0 : State} {b : Bool} {s : State} (hL : In 0x880C22 L) (h0 : Fit L s0 s) :
    ∀ post, execPlkPresStuck b s = .next post → Fit L s0 post := by
  unfold execPlkPresStuck
  refine ok_fit ?_
  repeat' (first
    | with_reducible assumption
    | intro _
    | (extract_lets +onlyGivenNames x; have y := x; first | (guard_hyp y : State; clear y; refine Fit.seq L s0 x ?_ ?_; rotate_left; intro hx; clear_value x; rotate_left; dsimp -zeta only [x]; clear x) | (clear y; clear_value x))
    | with_reducible apply advanceRef_fit (In.trans (by decide) hL)
    | with_reducible apply raise_fit (In.trans (by decide) hL)
    | with_reducible apply onPlk_fit (In.trans (by decide) hL)
    | (with_reducible apply Fit.ite <;> intro _)
    | split)

theorem execBackLaneLockLoss_fit {L : Nat} {s0 : State} {b : Bool} {lane : Bool} {s : State} (hL : In 0x880C02 L) (h0 : Fit L s0 s) :
    ∀ post, execBackLaneLockLoss b lane s = .next post → Fit L s0 post := by
  unfold execBackLaneLockLoss
  refine ok_fit ?_
  repeat' (first
    | with_reducible assumption
    | intro _
    | (extract_lets +onlyGivenNames x; have y := x; first | (guard_hyp y : State; clear y; refine Fit.seq L s0 x ?_ ?_; rotate_left; intro hx; clear_value x; rotate_left; dsimp -zeta only [x]; clear x) | (clear y; clear_value x))
    | with_reducible apply raise_fit (In.trans (by decide) hL)
    | with_reducible apply onPlk_fit (In.trans (by decide) hL)
    | (with_reducible apply Fit.ite <;> intro _)
    | split)

theorem execPlkHalfDown_fit {L : Nat} {s0 : State} {b : Bool} {s : State} (hL : In 0x9D0E22 L) (h0 : Fit L s0 s) :
    ∀ post, execPlkHalfDown b s = .next post → Fit L s0 post := by
  unfold execPlkHalfDown
  refine ok_fit ?_
  repeat' (first
    | with_reducible assumption
    | with_reducible apply advanceRef_fit (In.trans (by decide) hL)
    | with_reducible apply halfDown_fit (In.trans (by decide) hL)
    | (with_reducible apply Fit.ite <;> intro _))

theorem execPlkHalfPresent_fit {L : Nat} {s0 : State} {b : Bool} {lane : Bool} {s : State} (hL : In 0x8C0E02 L) (h0 : Fit L s0 s) :
    ∀ post, execPlkHalfPresent b lane s = .next post → Fit L s0 post := by
  unfold execPlkHalfPresent
  refine ok_fit ?_
  repeat' (first
    | with_reducible assumption
    | intro _
    | (extract_lets +onlyGivenNames x; have y := x; first | (guard_hyp y : State; clear y; refine Fit.seq L s0 x ?_ ?_; rotate_left; intro hx; clear_value x; rotate_left; dsimp -zeta only [x]; clear x) | (clear y; clear_value x))
    | with_reducible apply onPlk_fit (In.trans (by decide) hL)
    | with_reducible apply settlePresence_fit (In.trans (by decide) hL)
    | (with_reducible apply Fit.ite <;> intro _)
    | split)

end Sys2Proof.Machine
end

