-- ==== Sys2Proof/Laws/FitPanelRows.lean ====
section
/-! SUPPORT. What each definition of Machine/PanelRows.lean touches, and that it keeps the invariant: one lemma each. -/

set_option Elab.async false
set_option linter.all false

namespace Sys2Proof.Machine

theorem onPnl_fit {L : Nat} {s0 : State} {f : PanelSt → PanelSt} {s : State} (hL : In 0x2000 L) (h0 : Fit L s0 s) :
    Fit L s0 (onPnl f s) := by
  unfold onPnl
  repeat' (first
    | with_reducible assumption
    | (extract_lets +onlyGivenNames x; have y := x; first | (guard_hyp y : State; clear y; refine Fit.seq L s0 x ?_ ?_; rotate_left; intro hx; clear_value x; rotate_left; dsimp -zeta only [x]; clear x) | (clear y; clear_value x))
    | (with_reducible apply Fit.upd_pnl (In.trans (by decide) hL); first | (with_reducible apply Fit.ite <;> intro _) | (fail_if_success split)))

theorem runPanelLoad_fit {L : Nat} {s0 : State} {h : Hdr} {p : PanelLoadP} {s : State} (hL : In 0x802E02 L) (h0 : Fit L s0 s) :
    Fit L s0 (runPanelLoad h p s) := by
  unfold runPanelLoad
  repeat' (first
    | with_reducible assumption
    | intro _
    | (extract_lets +onlyGivenNames x; have y := x; first | (guard_hyp y : State; clear y; refine Fit.seq L s0 x ?_ ?_; rotate_left; intro hx; clear_value x; rotate_left; dsimp -zeta only [x]; clear x) | (clear y; clear_value x))
    | with_reducible apply hold_fit (In.trans (by decide) hL)
    | with_reducible apply accepted_fit (In.trans (by decide) hL)
    | with_reducible apply onPnl_fit (In.trans (by decide) hL)
    | split)

theorem rowPanelLoad_fit {L : Nat} {h : Hdr} {p : PanelLoadP} (hL : In 0x802E02 L) :
    RowFit L (rowPanelLoad h p) := by
  refine ⟨fun s0 s h0 => ?_, fun s0 s h0 => ?_⟩ <;> unfold rowPanelLoad <;> try dsimp -zeta only [id]
  repeat' (first
    | with_reducible assumption
    | with_reducible apply runPanelLoad_fit (In.trans (by decide) hL)
    | (dsimp -zeta only [id])
    | (with_reducible apply Fit.of_snd; case e => with_reducible assumption)
    | (with_reducible apply Fit.of_fst; case e => with_reducible assumption))

theorem execPanelLoad_fit {L : Nat} {s0 : State} {h : Hdr} {p : PanelLoadP} {s : State} (hL : In 0x4802E02 L) (h0 : Fit L s0 s) :
    ∀ post, execPanelLoad h p s = .next post → Fit L s0 post := by
  unfold execPanelLoad
  refine ok_fit ?_
  repeat' (first
    | with_reducible assumption
    | with_reducible apply command_fit (In.trans (by decide) hL)
    | with_reducible apply rowPanelLoad_fit (In.trans (by decide) hL))

theorem installPanel_fit {L : Nat} {s0 : State} {d : PanelDesc} {s : State} (hL : In 0x18A2C1A L) (h0 : Fit L s0 s) :
    Fit L s0 (installPanel d s) := by
  unfold installPanel
  repeat' (first
    | with_reducible assumption
    | intro _
    | (extract_lets +onlyGivenNames x; have y := x; first | (guard_hyp y : State; clear y; refine Fit.seq L s0 x ?_ ?_; rotate_left; intro hx; clear_value x; rotate_left; dsimp -zeta only [x]; clear x) | (clear y; clear_value x))
    | with_reducible apply pSet_fit (In.trans (by decide) hL)
    | with_reducible apply raise_fit (In.trans (by decide) hL)
    | with_reducible apply nvOwn_fit (In.trans (by decide) hL)
    | with_reducible apply onPort_fit (In.trans (by decide) hL)
    | with_reducible apply onPnl_fit (In.trans (by decide) hL)
    | (with_reducible apply Fit.ite <;> intro _)
    | (with_reducible apply Fit.foldl)
    | (with_reducible apply Fit.upd_parPend (In.trans (by decide) hL); first | (with_reducible apply Fit.ite <;> intro _) | (fail_if_success split))
    | (with_reducible apply Fit.upd_plk (In.trans (by decide) hL); first | (with_reducible apply Fit.ite <;> intro _) | (fail_if_success split))
    | split)

theorem execPanelLoadCompletion_fit {L : Nat} {s0 : State} {s : State} (hL : In 0xFFFFFFE L) (h0 : Fit L s0 s) :
    ∀ post, execPanelLoadCompletion s = .next post → Fit L s0 post := by
  unfold execPanelLoadCompletion
  refine ok_fit ?_
  repeat' (first
    | with_reducible assumption
    | intro _
    | (extract_lets +onlyGivenNames x; have y := x; first | (guard_hyp y : State; clear y; refine Fit.seq L s0 x ?_ ?_; rotate_left; intro hx; clear_value x; rotate_left; dsimp -zeta only [x]; clear x) | (clear y; clear_value x))
    | with_reducible apply release_fit (In.trans (by decide) hL)
    | with_reducible apply finish_fit (In.trans (by decide) hL)
    | with_reducible apply judgeHeld_fit (In.trans (by decide) hL)
    | with_reducible apply onPnl_fit (In.trans (by decide) hL)
    | with_reducible apply installPanel_fit (In.trans (by decide) hL)
    | (with_reducible apply Fit.ite <;> intro _)
    | split)

end Sys2Proof.Machine
end

