-- ==== Sys2Proof/Laws/FitSteering.lean ====
section
/-! SUPPORT. What each definition of Machine/Steering.lean touches, and that it keeps the invariant: one lemma each. -/

set_option Elab.async false
set_option linter.all false

namespace Sys2Proof.Machine

theorem takeTherm_fit {L : Nat} {s0 : State} {code : BitVec 12} {s : State} (hL : In 0x6B00F42 L) (h0 : Fit L s0 s) :
    Fit L s0 (takeTherm code s) := by
  unfold takeTherm
  repeat' (first
    | with_reducible assumption
    | with_reducible apply thermSample_fit (In.trans (by decide) hL)
    | with_reducible apply settleCheck_fit (In.trans (by decide) hL))

theorem execThermistorSample_fit {L : Nat} {s0 : State} {code : BitVec 12} {s : State} (hL : In 0x6B00F62 L) (h0 : Fit L s0 s) :
    ∀ post, execThermistorSample code s = .next post → Fit L s0 post := by
  unfold execThermistorSample
  refine ok_fit ?_
  repeat' (first
    | with_reducible assumption
    | (extract_lets +onlyGivenNames x; have y := x; first | (guard_hyp y : State; clear y; refine Fit.seq L s0 x ?_ ?_; rotate_left; intro hx; clear_value x; rotate_left; dsimp -zeta only [x]; clear x) | (clear y; clear_value x))
    | with_reducible apply advanceMer_fit (In.trans (by decide) hL)
    | with_reducible apply advanceRef_fit (In.trans (by decide) hL)
    | with_reducible apply takeTherm_fit (In.trans (by decide) hL)
    | (with_reducible apply Fit.ite <;> intro _)
    | split)

theorem execStdSettleMiss_fit {L : Nat} {s0 : State} {s : State} (hL : In 0x6B00F62 L) (h0 : Fit L s0 s) :
    ∀ post, execStdSettleMiss s = .next post → Fit L s0 post := by
  unfold execStdSettleMiss
  refine ok_fit ?_
  repeat' (first
    | with_reducible assumption
    | intro _
    | (extract_lets +onlyGivenNames x; have y := x; first | (guard_hyp y : State; clear y; refine Fit.seq L s0 x ?_ ?_; rotate_left; intro hx; clear_value x; rotate_left; dsimp -zeta only [x]; clear x) | (clear y; clear_value x))
    | with_reducible apply advanceMer_fit (In.trans (by decide) hL)
    | with_reducible apply raise_fit (In.trans (by decide) hL)
    | with_reducible apply onStd_fit (In.trans (by decide) hL)
    | with_reducible apply settleCheck_fit (In.trans (by decide) hL)
    | (with_reducible apply Fit.ite <;> intro _)
    | split)

theorem trimEdge_fit {L : Nat} {s0 : State} {t : Nat} {s : State} {i : Nat} (hL : In 0x100000 L) (h0 : Fit L s0 s) :
    Fit L s0 (trimEdge t s i) := by
  unfold trimEdge
  repeat' (first
    | with_reducible assumption
    | intro _
    | (extract_lets +onlyGivenNames x; have y := x; first | (guard_hyp y : State; clear y; refine Fit.seq L s0 x ?_ ?_; rotate_left; intro hx; clear_value x; rotate_left; dsimp -zeta only [x]; clear x) | (clear y; clear_value x))
    | with_reducible apply onStd_fit (In.trans (by decide) hL)
    | (with_reducible apply Fit.ite <;> intro _)
    | split)

theorem execCarrierEdge_fit {L : Nat} {s0 : State} {charges : List Nat} {s : State} (hL : In 0x100020 L) (h0 : Fit L s0 s) :
    ∀ post, execCarrierEdge charges s = .next post → Fit L s0 post := by
  unfold execCarrierEdge
  refine ok_fit ?_
  repeat' (first
    | with_reducible assumption
    | intro _
    | (extract_lets +onlyGivenNames x; have y := x; first | (guard_hyp y : State; clear y; refine Fit.seq L s0 x ?_ ?_; rotate_left; intro hx; clear_value x; rotate_left; dsimp -zeta only [x]; clear x) | ((first | (guard_hyp y : _ → State; clear y) | (guard_hyp y : _ → _ → State; clear y) | (guard_hyp y : _ → _ → _ → State; clear y)); dsimp -zeta only [x]; clear x) | (clear y; clear_value x))
    | with_reducible apply advanceMer_fit (In.trans (by decide) hL)
    | with_reducible apply onStd_fit (In.trans (by decide) hL)
    | with_reducible apply stdIntegrate_fit (In.trans (by decide) hL)
    | with_reducible apply trimEdge_fit (In.trans (by decide) hL)
    | (with_reducible apply Fit.ite <;> intro _)
    | (with_reducible apply Fit.foldl)
    | split)

theorem execCrowbarClose_fit {L : Nat} {s0 : State} {s : State} (hL : In 0x100422 L) (h0 : Fit L s0 s) :
    ∀ post, execCrowbarClose s = .next post → Fit L s0 post := by
  unfold execCrowbarClose
  refine ok_fit ?_
  repeat' (first
    | with_reducible assumption
    | intro _
    | (extract_lets +onlyGivenNames x; have y := x; first | (guard_hyp y : State; clear y; refine Fit.seq L s0 x ?_ ?_; rotate_left; intro hx; clear_value x; rotate_left; dsimp -zeta only [x]; clear x) | (clear y; clear_value x))
    | with_reducible apply emit_fit (In.trans (by decide) hL)
    | with_reducible apply advanceRef_fit (In.trans (by decide) hL)
    | with_reducible apply onStd_fit (In.trans (by decide) hL)
    | split)

theorem execStdDischarged_fit {L : Nat} {s0 : State} {s : State} (hL : In 0x900C22 L) (h0 : Fit L s0 s) :
    ∀ post, execStdDischarged s = .next post → Fit L s0 post := by
  unfold execStdDischarged
  refine ok_fit ?_
  repeat' (first
    | with_reducible assumption
    | intro _
    | (extract_lets +onlyGivenNames x; have y := x; first | (guard_hyp y : State; clear y; refine Fit.seq L s0 x ?_ ?_; rotate_left; intro hx; clear_value x; rotate_left; dsimp -zeta only [x]; clear x) | (clear y; clear_value x))
    | with_reducible apply advanceRef_fit (In.trans (by decide) hL)
    | with_reducible apply raise_fit (In.trans (by decide) hL)
    | with_reducible apply onStd_fit (In.trans (by decide) hL)
    | split)

theorem execStdRestExpiry_fit {L : Nat} {s0 : State} {s : State} (hL : In 0x100020 L) (h0 : Fit L s0 s) :
    ∀ post, execStdRestExpiry s = .next post → Fit L s0 post := by
  unfold execStdRestExpiry
  refine ok_fit ?_
  repeat' (first
    | with_reducible assumption
    | intro _
    | (extract_lets +onlyGivenNames x; have y := x; first | (guard_hyp y : State; clear y; refine Fit.seq L s0 x ?_ ?_; rotate_left; intro hx; clear_value x; rotate_left; dsimp -zeta only [x]; clear x) | (clear y; clear_value x))
    | with_reducible apply advanceRef_fit (In.trans (by decide) hL)
    | with_reducible apply onStd_fit (In.trans (by decide) hL)
    | with_reducible apply stdRest_fit (In.trans (by decide) hL)
    | (with_reducible apply Fit.ite <;> intro _)
    | split)

theorem execHoldupCharged_fit {L : Nat} {s0 : State} {s : State} (hL : In 0x100000 L) (h0 : Fit L s0 s) :
    ∀ post, execHoldupCharged s = .next post → Fit L s0 post := by
  unfold execHoldupCharged
  refine ok_fit ?_
  repeat' (first
    | with_reducible assumption
    | intro _
    | (extract_lets +onlyGivenNames x; have y := x; first | (guard_hyp y : State; clear y; refine Fit.seq L s0 x ?_ ?_; rotate_left; intro hx; clear_value x; rotate_left; dsimp -zeta only [x]; clear x) | (clear y; clear_value x))
    | with_reducible apply onStd_fit (In.trans (by decide) hL)
    | (with_reducible apply Fit.ite <;> intro _)
    | split)

theorem execStdOvercurrent_fit {L : Nat} {s0 : State} {out : Byte} {s : State} (hL : In 0xFFFFFFE L) (h0 : Fit L s0 s) :
    ∀ post, execStdOvercurrent out s = .next post → Fit L s0 post := by
  unfold execStdOvercurrent
  refine ok_fit ?_
  repeat' (first
    | with_reducible assumption
    | with_reducible apply faultOf_fit (In.trans (by decide) hL)
    | (with_reducible apply Fit.ite <;> intro _))

theorem execStdFault_fit {L : Nat} {s0 : State} {s : State} (hL : In 0xFFFFFFE L) (h0 : Fit L s0 s) :
    ∀ post, execStdFault s = .next post → Fit L s0 post := by
  unfold execStdFault
  refine ok_fit ?_
  repeat' (first
    | with_reducible assumption
    | with_reducible apply faultOf_fit (In.trans (by decide) hL)
    | (with_reducible apply Fit.ite <;> intro _))

theorem runSteerCfg_fit {L : Nat} {s0 : State} {h : Hdr} {p : SteerCfgP} {s : State} (hL : In 0x6B00F42 L) (h0 : Fit L s0 s) :
    Fit L s0 (runSteerCfg h p s) := by
  unfold runSteerCfg
  repeat' (first
    | with_reducible assumption
    | intro _
    | (extract_lets +onlyGivenNames x; have y := x; first | (guard_hyp y : State; clear y; refine Fit.seq L s0 x ?_ ?_; rotate_left; intro hx; clear_value x; rotate_left; dsimp -zeta only [x]; clear x) | (clear y; clear_value x))
    | with_reducible apply finish_fit (In.trans (by decide) hL)
    | with_reducible apply onStd_fit (In.trans (by decide) hL)
    | with_reducible apply settleCheck_fit (In.trans (by decide) hL)
    | (with_reducible apply Fit.ite <;> intro _)
    | split)

theorem rowSteerCfg_fit {L : Nat} {h : Hdr} {p : SteerCfgP} (hL : In 0x6B00F42 L) :
    RowFit L (rowSteerCfg h p) := by
  refine ⟨fun s0 s h0 => ?_, fun s0 s h0 => ?_⟩ <;> unfold rowSteerCfg <;> try dsimp -zeta only [id]
  repeat' (first
    | with_reducible assumption
    | with_reducible apply runSteerCfg_fit (In.trans (by decide) hL)
    | (dsimp -zeta only [id])
    | (with_reducible apply Fit.of_snd; case e => with_reducible assumption)
    | (with_reducible apply Fit.of_fst; case e => with_reducible assumption))

theorem execSteerCfg_fit {L : Nat} {s0 : State} {h : Hdr} {p : SteerCfgP} {s : State} (hL : In 0x6B00F42 L) (h0 : Fit L s0 s) :
    ∀ post, execSteerCfg h p s = .next post → Fit L s0 post := by
  unfold execSteerCfg
  refine ok_fit ?_
  repeat' (first
    | with_reducible assumption
    | with_reducible apply command_fit (In.trans (by decide) hL)
    | with_reducible apply rowSteerCfg_fit (In.trans (by decide) hL))

theorem rowSteerStatus_fit {L : Nat} {h : Hdr} {code : BitVec 12} (hL : In 0x6B00F42 L) :
    RowFit L (rowSteerStatus h code) := by
  refine ⟨fun s0 s h0 => ?_, fun s0 s h0 => ?_⟩ <;> unfold rowSteerStatus <;> try dsimp -zeta only [id]
  repeat' (first
    | with_reducible assumption
    | intro _
    | with_reducible apply finish_fit (In.trans (by decide) hL)
    | with_reducible apply takeTherm_fit (In.trans (by decide) hL)
    | (dsimp -zeta only [id])
    | (with_reducible apply Fit.of_snd; case e => with_reducible assumption)
    | (with_reducible apply Fit.of_fst; case e => with_reducible assumption))

theorem execSteerStatus_fit {L : Nat} {s0 : State} {h : Hdr} {code : BitVec 12} {s : State} (hL : In 0x6B00F42 L) (h0 : Fit L s0 s) :
    ∀ post, execSteerStatus h code s = .next post → Fit L s0 post := by
  unfold execSteerStatus
  refine ok_fit ?_
  repeat' (first
    | with_reducible assumption
    | with_reducible apply command_fit (In.trans (by decide) hL)
    | with_reducible apply rowSteerStatus_fit (In.trans (by decide) hL))

end Sys2Proof.Machine
end

