-- ==== Sys2Proof/Laws/FitSweepRows.lean ====
section
/-! SUPPORT. What each definition of Machine/SweepRows.lean touches, and that it keeps the invariant: one lemma each. -/

set_option Elab.async false
set_option linter.all false

namespace Sys2Proof.Machine

theorem rowSweepCfg_fit {L : Nat} {h : Hdr} {p : SweepCfgP} (hL : In 0x820E02 L) :
    RowFit L (rowSweepCfg h p) := by
  refine ⟨fun s0 s h0 => ?_, fun s0 s h0 => ?_⟩ <;> unfold rowSweepCfg <;> try dsimp -zeta only [id]
  repeat' (first
    | with_reducible assumption
    | intro _
    | (extract_lets +onlyGivenNames x; have y := x; first | (guard_hyp y : State; clear y; refine Fit.seq L s0 x ?_ ?_; rotate_left; intro hx; clear_value x; rotate_left; dsimp -zeta only [x]; clear x) | (clear y; clear_value x))
    | with_reducible apply finish_fit (In.trans (by decide) hL)
    | with_reducible apply onCam_fit (In.trans (by decide) hL)
    | (dsimp -zeta only [id])
    | (with_reducible apply Fit.of_snd; case e => with_reducible assumption)
    | (with_reducible apply Fit.of_fst; case e => with_reducible assumption))

theorem execSweepCfg_fit {L : Nat} {s0 : State} {h : Hdr} {p : SweepCfgP} {s : State} (hL : In 0x4820E02 L) (h0 : Fit L s0 s) :
    ∀ post, execSweepCfg h p s = .next post → Fit L s0 post := by
  unfold execSweepCfg
  refine ok_fit ?_
  repeat' (first
    | with_reducible assumption
    | with_reducible apply command_fit (In.trans (by decide) hL)
    | with_reducible apply rowSweepCfg_fit (In.trans (by decide) hL))

theorem dropOldImages_fit {L : Nat} {s0 : State} {k : Nat} {s : State} (hL : In 0x20200 L) (h0 : Fit L s0 s) :
    Fit L s0 (dropOldImages k s) := by
  unfold dropOldImages
  repeat' (first
    | with_reducible assumption
    | intro _
    | with_reducible apply dropAllImages_fit (In.trans (by decide) hL))

theorem noSweep_fit {L : Nat} {s0 : State} {k : Nat} {s : State} (hL : In 0x820E02 L) (h0 : Fit L s0 s) :
    Fit L s0 (noSweep k s) := by
  unfold noSweep
  repeat' (first
    | with_reducible assumption
    | intro _
    | (extract_lets +onlyGivenNames x; have y := x; first | (guard_hyp y : State; clear y; refine Fit.seq L s0 x ?_ ?_; rotate_left; intro hx; clear_value x; rotate_left; dsimp -zeta only [x]; clear x) | (clear y; clear_value x))
    | with_reducible apply raise_fit (In.trans (by decide) hL)
    | with_reducible apply onCam_fit (In.trans (by decide) hL)
    | with_reducible apply dropOldImages_fit (In.trans (by decide) hL)
    | (with_reducible apply Fit.ite <;> intro _)
    | split)

theorem beginSweep_fit {L : Nat} {s0 : State} {k m : Nat} {ports : List Nat} {s : State} (hL : In 0x825E02 L) (h0 : Fit L s0 s) :
    Fit L s0 (beginSweep k m ports s) := by
  unfold beginSweep
  repeat' (first
    | with_reducible assumption
    | intro _
    | (extract_lets +onlyGivenNames x; have y := x; first | (guard_hyp y : State; clear y; refine Fit.seq L s0 x ?_ ?_; rotate_left; intro hx; clear_value x; rotate_left; dsimp -zeta only [x]; clear x) | (clear y; clear_value x))
    | with_reducible apply raise_fit (In.trans (by decide) hL)
    | with_reducible apply takeMpi_fit (In.trans (by decide) hL)
    | with_reducible apply onCam_fit (In.trans (by decide) hL)
    | with_reducible apply onPort_fit (In.trans (by decide) hL)
    | with_reducible apply dropOldImages_fit (In.trans (by decide) hL)
    | (with_reducible apply Fit.ite <;> intro _)
    | (with_reducible apply Fit.foldl)
    | split)

theorem execSweepStart_fit {L : Nat} {s0 : State} {s : State} (hL : In 0x825E22 L) (h0 : Fit L s0 s) :
    ∀ post, execSweepStart s = .next post → Fit L s0 post := by
  unfold execSweepStart
  refine ok_fit ?_
  repeat' (first
    | with_reducible assumption
    | intro _
    | (extract_lets +onlyGivenNames x; have y := x; first | (guard_hyp y : State; clear y; refine Fit.seq L s0 x ?_ ?_; rotate_left; intro hx; clear_value x; rotate_left; dsimp -zeta only [x]; clear x) | (clear y; clear_value x))
    | with_reducible apply advanceMer_fit (In.trans (by decide) hL)
    | with_reducible apply noSweep_fit (In.trans (by decide) hL)
    | with_reducible apply beginSweep_fit (In.trans (by decide) hL)
    | (with_reducible apply Fit.ite <;> intro _)
    | split)

theorem returnImages_fit {L : Nat} {s0 : State} {w : Sweep} {s : State} (hL : In 0x20200 L) (h0 : Fit L s0 s) :
    Fit L s0 (returnImages w s) := by
  unfold returnImages
  repeat' (first
    | with_reducible assumption
    | intro _
    | with_reducible apply move_fit (In.trans (by decide) hL)
    | with_reducible apply settlePort_fit (In.trans (by decide) hL)
    | (with_reducible apply Fit.foldl))

theorem execSweepEnd_fit {L : Nat} {s0 : State} {s : State} (hL : In 0x25200 L) (h0 : Fit L s0 s) :
    ∀ post, execSweepEnd s = .next post → Fit L s0 post := by
  unfold execSweepEnd
  refine ok_fit ?_
  repeat' (first
    | with_reducible assumption
    | intro _
    | (extract_lets +onlyGivenNames x; have y := x; first | (guard_hyp y : State; clear y; refine Fit.seq L s0 x ?_ ?_; rotate_left; intro hx; clear_value x; rotate_left; dsimp -zeta only [x]; clear x) | (clear y; clear_value x))
    | with_reducible apply onCam_fit (In.trans (by decide) hL)
    | with_reducible apply sweepWrite_fit (In.trans (by decide) hL)
    | with_reducible apply returnImages_fit (In.trans (by decide) hL)
    | (with_reducible apply Fit.ite <;> intro _)
    | split)

theorem execSwpDeadline_fit {L : Nat} {s0 : State} {s : State} (hL : In 0x824E22 L) (h0 : Fit L s0 s) :
    ∀ post, execSwpDeadline s = .next post → Fit L s0 post := by
  unfold execSwpDeadline
  refine ok_fit ?_
  repeat' (first
    | with_reducible assumption
    | intro _
    | (extract_lets +onlyGivenNames x; have y := x; first | (guard_hyp y : State; clear y; refine Fit.seq L s0 x ?_ ?_; rotate_left; intro hx; clear_value x; rotate_left; dsimp -zeta only [x]; clear x) | (clear y; clear_value x))
    | with_reducible apply advanceMer_fit (In.trans (by decide) hL)
    | with_reducible apply raise_fit (In.trans (by decide) hL)
    | with_reducible apply onCam_fit (In.trans (by decide) hL)
    | with_reducible apply abandonSweep_fit (In.trans (by decide) hL)
    | split)

theorem execSwpFault_fit {L : Nat} {s0 : State} {group : Fin 16} {s : State} (hL : In 0xFFFFFFE L) (h0 : Fit L s0 s) :
    ∀ post, execSwpFault group s = .next post → Fit L s0 post := by
  unfold execSwpFault
  refine ok_fit ?_
  repeat' (first
    | with_reducible assumption
    | with_reducible apply sweepFault_fit (In.trans (by decide) hL))

end Sys2Proof.Machine
end

