-- ==== Sys2Proof/Laws/FitSynthesis.lean ====
section
/-! SUPPORT. What each definition of Machine/Synthesis.lean touches, and that it keeps the invariant: one lemma each. -/

set_option Elab.async false
set_option linter.all false

namespace Sys2Proof.Machine

theorem setAsap_fit {L : Nat} {s0 : State} {i t : Nat} {s : State} (hL : In 0x4000 L) (h0 : Fit L s0 s) :
    Fit L s0 (setAsap i t s) := by
  unfold setAsap
  repeat' (first
    | with_reducible assumption
    | intro _
    | (extract_lets +onlyGivenNames x; have y := x; first | (guard_hyp y : State; clear y; refine Fit.seq L s0 x ?_ ?_; rotate_left; intro hx; clear_value x; rotate_left; dsimp -zeta only [x]; clear x) | (clear y; clear_value x))
    | with_reducible apply onSess_fit (In.trans (by decide) hL)
    | with_reducible apply onStat_fit (In.trans (by decide) hL)
    | split)

theorem lateFrame_fit {L : Nat} {s0 : State} {i t : Nat} {s : State} (hL : In 0x804C02 L) (h0 : Fit L s0 s) :
    Fit L s0 (lateFrame i t s) := by
  unfold lateFrame
  repeat' (first
    | with_reducible assumption
    | intro _
    | (extract_lets +onlyGivenNames x; have y := x; first | (guard_hyp y : State; clear y; refine Fit.seq L s0 x ?_ ?_; rotate_left; intro hx; clear_value x; rotate_left; dsimp -zeta only [x]; clear x) | (clear y; clear_value x))
    | with_reducible apply raise_fit (In.trans (by decide) hL)
    | with_reducible apply onSess_fit (In.trans (by decide) hL)
    | with_reducible apply onStat_fit (In.trans (by decide) hL)
    | (with_reducible apply Fit.ite <;> intro _)
    | split)

theorem overtake_fit {L : Nat} {s0 : State} {i t : Nat} {s : State} (hL : In 0x4200 L) (h0 : Fit L s0 s) :
    Fit L s0 (overtake i t s) := by
  unfold overtake
  repeat' (first
    | with_reducible assumption
    | intro _
    | (extract_lets +onlyGivenNames x; have y := x; first | (guard_hyp y : State; clear y; refine Fit.seq L s0 x ?_ ?_; rotate_left; intro hx; clear_value x; rotate_left; dsimp -zeta only [x]; clear x) | (clear y; clear_value x))
    | with_reducible apply onSess_fit (In.trans (by decide) hL)
    | with_reducible apply onStat_fit (In.trans (by decide) hL)
    | with_reducible apply mpiCollect_fit (In.trans (by decide) hL)
    | split)

theorem framesDue_fit {L : Nat} {s0 : State} {t : Nat} {s : State} (hL : In 0x804E02 L) (h0 : Fit L s0 s) :
    Fit L s0 (framesDue t s) := by
  unfold framesDue
  repeat' (first
    | with_reducible assumption
    | intro _
    | with_reducible apply setAsap_fit (In.trans (by decide) hL)
    | with_reducible apply lateFrame_fit (In.trans (by decide) hL)
    | with_reducible apply overtake_fit (In.trans (by decide) hL)
    | (with_reducible apply Fit.foldl))

theorem shiftsDue_fit {L : Nat} {s0 : State} {k : Nat} {s : State} (hL : In 0x810C02 L) (h0 : Fit L s0 s) :
    Fit L s0 (shiftsDue k s) := by
  unfold shiftsDue
  repeat' (first
    | with_reducible assumption
    | intro _
    | (extract_lets +onlyGivenNames x; have y := x; first | (guard_hyp y : State; clear y; refine Fit.seq L s0 x ?_ ?_; rotate_left; intro hx; clear_value x; rotate_left; dsimp -zeta only [x]; clear x) | (clear y; clear_value x))
    | with_reducible apply raise_fit (In.trans (by decide) hL)
    | with_reducible apply onSyn_fit (In.trans (by decide) hL)
    | (with_reducible apply Fit.foldl))

theorem beginSynth_fit {L : Nat} {s0 : State} {k : Nat} {d : PanelDesc} {f : FSrc} {a b : Nat} {s : State} (hL : In 0x54200 L) (h0 : Fit L s0 s) :
    Fit L s0 (beginSynth k d f a b s) := by
  unfold beginSynth
  repeat' (first
    | with_reducible assumption
    | intro _
    | (extract_lets +onlyGivenNames x; have y := x; first | (guard_hyp y : State; clear y; refine Fit.seq L s0 x ?_ ?_; rotate_left; intro hx; clear_value x; rotate_left; dsimp -zeta only [x]; clear x) | (clear y; clear_value x))
    | with_reducible apply move_fit (In.trans (by decide) hL)
    | with_reducible apply onSess_fit (In.trans (by decide) hL)
    | with_reducible apply onSyn_fit (In.trans (by decide) hL)
    | with_reducible apply putStat_fit (In.trans (by decide) hL)
    | with_reducible apply onFrames_fit (In.trans (by decide) hL)
    | with_reducible apply srcToCumulus_fit (In.trans (by decide) hL)
    | (with_reducible apply Fit.ite <;> intro _)
    | split)

theorem missJob_fit {L : Nat} {s0 : State} {j : FrameJob} {s : State} (hL : In 0x810E02 L) (h0 : Fit L s0 s) :
    Fit L s0 (missJob j s) := by
  unfold missJob
  repeat' (first
    | with_reducible assumption
    | intro _
    | (extract_lets +onlyGivenNames x; have y := x; first | (guard_hyp y : State; clear y; refine Fit.seq L s0 x ?_ ?_; rotate_left; intro hx; clear_value x; rotate_left; dsimp -zeta only [x]; clear x) | (clear y; clear_value x))
    | with_reducible apply onSyn_fit (In.trans (by decide) hL)
    | with_reducible apply endJob_fit (In.trans (by decide) hL)
    | (with_reducible apply Fit.ite <;> intro _)
    | split)

theorem missedJobs_fit {L : Nat} {s0 : State} {k : Nat} {s : State} (hL : In 0x810E02 L) (h0 : Fit L s0 s) :
    Fit L s0 (missedJobs k s) := by
  unfold missedJobs
  repeat' (first
    | with_reducible assumption
    | intro _
    | (extract_lets +onlyGivenNames x; have y := x; first | (guard_hyp y : State; clear y; refine Fit.seq L s0 x ?_ ?_; rotate_left; intro hx; clear_value x; rotate_left; dsimp -zeta only [x]; clear x) | (clear y; clear_value x))
    | with_reducible apply onSyn_fit (In.trans (by decide) hL)
    | with_reducible apply missJob_fit (In.trans (by decide) hL)
    | (with_reducible apply Fit.foldl))

theorem execSynthesisStart_fit {L : Nat} {s0 : State} {s : State} (hL : In 0x874E22 L) (h0 : Fit L s0 s) :
    ∀ post, execSynthesisStart s = .next post → Fit L s0 post := by
  unfold execSynthesisStart
  refine ok_fit ?_
  repeat' (first
    | with_reducible assumption
    | intro _
    | (extract_lets +onlyGivenNames x; have y := x; first | (guard_hyp y : State; clear y; refine Fit.seq L s0 x ?_ ?_; rotate_left; intro hx; clear_value x; rotate_left; dsimp -zeta only [x]; clear x) | (clear y; clear_value x))
    | with_reducible apply advanceMer_fit (In.trans (by decide) hL)
    | with_reducible apply mpiCollect_fit (In.trans (by decide) hL)
    | with_reducible apply onSyn_fit (In.trans (by decide) hL)
    | with_reducible apply putStat_fit (In.trans (by decide) hL)
    | with_reducible apply onCam_fit (In.trans (by decide) hL)
    | with_reducible apply framesDue_fit (In.trans (by decide) hL)
    | with_reducible apply shiftsDue_fit (In.trans (by decide) hL)
    | with_reducible apply beginSynth_fit (In.trans (by decide) hL)
    | with_reducible apply missedJobs_fit (In.trans (by decide) hL)
    | (with_reducible apply Fit.ite <;> intro _)
    | split)

theorem writeHalf_fit {L : Nat} {s0 : State} {c : Synth} {b : Bool} {slot : Nat} {s : State} (hL : In 0x1000 L)
    (h0 : Fit L s0 s) : Fit L s0 (writeHalf c b slot s).1 := by
  unfold writeHalf
  have key : ∀ (l : List (Nat × Nat)) (e : State × List Nat), Fit L s0 e.1 → Fit L s0 (l.foldl (fun e p =>
      ((devWrite (storeBase b slot + p.2 * c.vals.panel.block) (blockBytes c.vals c.mpi s.mem (b2n b) p.1) e.1,
        e.2 ++ [crc32c (blockBytes c.vals c.mpi s.mem (b2n b) p.1)]) : State × List Nat)) e).1 := by
    intro l
    induction l with
    | nil => exact fun _ h => h
    | cons p r ih => exact fun e h => ih _ (devWrite_fit (In.trans (by decide) hL) h)
  exact key _ _ h0

theorem handOver_fit {L : Nat} {s0 : State} {c : Synth} {s : State} (hL : In 0x41200 L) (h0 : Fit L s0 s) :
    Fit L s0 (handOver c s) := by
  unfold handOver
  repeat' (first
    | with_reducible assumption
    | intro _
    | (extract_lets +onlyGivenNames x; have y := x; first | (guard_hyp y : State; clear y; refine Fit.seq L s0 x ?_ ?_; rotate_left; intro hx; clear_value x; rotate_left; dsimp -zeta only [x]; clear x) | (clear y; clear_value x))
    | with_reducible apply move_fit (In.trans (by decide) hL)
    | with_reducible apply onFrames_fit (In.trans (by decide) hL)
    | with_reducible apply writeHalf_fit (In.trans (by decide) hL)
    | (with_reducible apply Fit.ite <;> intro _)
    | split)

theorem commitJob_fit {L : Nat} {s0 : State} {c : Synth} {slack : Nat} {s : State} (hL : In 0x810E02 L) (h0 : Fit L s0 s) :
    Fit L s0 (commitJob c slack s) := by
  unfold commitJob
  repeat' (first
    | with_reducible assumption
    | intro _
    | (extract_lets +onlyGivenNames x; have y := x; first | (guard_hyp y : State; clear y; refine Fit.seq L s0 x ?_ ?_; rotate_left; intro hx; clear_value x; rotate_left; dsimp -zeta only [x]; clear x) | (clear y; clear_value x))
    | with_reducible apply onSyn_fit (In.trans (by decide) hL)
    | with_reducible apply writeFence_fit (In.trans (by decide) hL)
    | with_reducible apply dropKept_fit (In.trans (by decide) hL)
    | with_reducible apply endJob_fit (In.trans (by decide) hL)
    | (with_reducible apply Fit.ite <;> intro _)
    | split)

theorem execSynCommit_fit {L : Nat} {s0 : State} {s : State} (hL : In 0x855E02 L) (h0 : Fit L s0 s) :
    ∀ post, execSynCommit s = .next post → Fit L s0 post := by
  unfold execSynCommit
  refine ok_fit ?_
  repeat' (first
    | with_reducible assumption
    | intro _
    | (extract_lets +onlyGivenNames x; have y := x; first | (guard_hyp y : State; clear y; refine Fit.seq L s0 x ?_ ?_; rotate_left; intro hx; clear_value x; rotate_left; dsimp -zeta only [x]; clear x) | (clear y; clear_value x))
    | with_reducible apply raise_fit (In.trans (by decide) hL)
    | with_reducible apply mpiCollect_fit (In.trans (by decide) hL)
    | with_reducible apply onSyn_fit (In.trans (by decide) hL)
    | with_reducible apply onFrameStat_fit (In.trans (by decide) hL)
    | with_reducible apply handOver_fit (In.trans (by decide) hL)
    | with_reducible apply commitJob_fit (In.trans (by decide) hL)
    | (with_reducible apply Fit.ite <;> intro _)
    | split)

theorem execSynDeadline_fit {L : Nat} {s0 : State} {done : Byte} {s : State} (hL : In 0x854E22 L) (h0 : Fit L s0 s) :
    ∀ post, execSynDeadline done s = .next post → Fit L s0 post := by
  unfold execSynDeadline
  refine ok_fit ?_
  repeat' (first
    | with_reducible assumption
    | intro _
    | (extract_lets +onlyGivenNames x; have y := x; first | (guard_hyp y : State; clear y; refine Fit.seq L s0 x ?_ ?_; rotate_left; intro hx; clear_value x; rotate_left; dsimp -zeta only [x]; clear x) | (clear y; clear_value x))
    | with_reducible apply advanceMer_fit (In.trans (by decide) hL)
    | with_reducible apply raise_fit (In.trans (by decide) hL)
    | with_reducible apply onSyn_fit (In.trans (by decide) hL)
    | with_reducible apply stopSynth_fit (In.trans (by decide) hL)
    | with_reducible apply missJob_fit (In.trans (by decide) hL)
    | (with_reducible apply Fit.ite <;> intro _)
    | split)

theorem execSynGroupFault_fit {L : Nat} {s0 : State} {group : Byte} {s : State} (hL : In 0xFFFFFFE L) (h0 : Fit L s0 s) :
    ∀ post, execSynGroupFault group s = .next post → Fit L s0 post := by
  unfold execSynGroupFault
  refine ok_fit ?_
  repeat' (first
    | with_reducible assumption
    | with_reducible apply groupFault_fit (In.trans (by decide) hL))

theorem runFrameSubmit_fit {L : Nat} {s0 : State} {h : Hdr} {p : FrameSubmitP} {s : State} (hL : In 0x810E02 L) (h0 : Fit L s0 s) :
    Fit L s0 (runFrameSubmit h p s) := by
  unfold runFrameSubmit
  repeat' (first
    | with_reducible assumption
    | intro _
    | (extract_lets +onlyGivenNames x; have y := x; first | (guard_hyp y : State; clear y; refine Fit.seq L s0 x ?_ ?_; rotate_left; intro hx; clear_value x; rotate_left; dsimp -zeta only [x]; clear x) | (clear y; clear_value x))
    | with_reducible apply hold_fit (In.trans (by decide) hL)
    | with_reducible apply accepted_fit (In.trans (by decide) hL)
    | with_reducible apply onSyn_fit (In.trans (by decide) hL)
    | split)

theorem rowFrameSubmit_fit {L : Nat} {h : Hdr} {p : FrameSubmitP} (hL : In 0x810E02 L) :
    RowFit L (rowFrameSubmit h p) := by
  refine ⟨fun s0 s h0 => ?_, fun s0 s h0 => ?_⟩ <;> unfold rowFrameSubmit <;> try dsimp -zeta only [id]
  repeat' (first
    | with_reducible assumption
    | intro _
    | (extract_lets +onlyGivenNames x; have y := x; first | (guard_hyp y : State; clear y; refine Fit.seq L s0 x ?_ ?_; rotate_left; intro hx; clear_value x; rotate_left; dsimp -zeta only [x]; clear x) | (clear y; clear_value x))
    | with_reducible apply raise_fit (In.trans (by decide) hL)
    | with_reducible apply finish_fit (In.trans (by decide) hL)
    | with_reducible apply runFrameSubmit_fit (In.trans (by decide) hL)
    | (with_reducible apply Fit.ite <;> intro _)
    | (dsimp -zeta only [id])
    | (with_reducible apply Fit.of_snd; case e => with_reducible assumption)
    | (with_reducible apply Fit.of_fst; case e => with_reducible assumption)
    | split)

theorem execFrameSubmit_fit {L : Nat} {s0 : State} {h : Hdr} {p : FrameSubmitP} {s : State} (hL : In 0x4810E02 L) (h0 : Fit L s0 s) :
    ∀ post, execFrameSubmit h p s = .next post → Fit L s0 post := by
  unfold execFrameSubmit
  refine ok_fit ?_
  repeat' (first
    | with_reducible assumption
    | with_reducible apply command_fit (In.trans (by decide) hL)
    | with_reducible apply rowFrameSubmit_fit (In.trans (by decide) hL))

theorem rowFrameStatus_fit {L : Nat} {h : Hdr} {k : U64} (hL : In 0x800E02 L) :
    RowFit L (rowFrameStatus h k) := by
  refine ⟨fun s0 s h0 => ?_, fun s0 s h0 => ?_⟩ <;> unfold rowFrameStatus <;> try dsimp -zeta only [id]
  repeat' (first
    | with_reducible assumption
    | intro _
    | (extract_lets +onlyGivenNames x; have y := x; first | (guard_hyp y : State; clear y; refine Fit.seq L s0 x ?_ ?_; rotate_left; intro hx; clear_value x; rotate_left; dsimp -zeta only [x]; clear x) | (clear y; clear_value x))
    | with_reducible apply finish_fit (In.trans (by decide) hL)
    | (with_reducible apply Fit.ite <;> intro _)
    | (dsimp -zeta only [id])
    | (with_reducible apply Fit.of_snd; case e => with_reducible assumption)
    | (with_reducible apply Fit.of_fst; case e => with_reducible assumption)
    | split)

theorem execFrameStatus_fit {L : Nat} {s0 : State} {h : Hdr} {k : U64} {s : State} (hL : In 0x4800E02 L) (h0 : Fit L s0 s) :
    ∀ post, execFrameStatus h k s = .next post → Fit L s0 post := by
  unfold execFrameStatus
  refine ok_fit ?_
  repeat' (first
    | with_reducible assumption
    | with_reducible apply command_fit (In.trans (by decide) hL)
    | with_reducible apply rowFrameStatus_fit (In.trans (by decide) hL))

theorem runViewShift_fit {L : Nat} {s0 : State} {h : Hdr} {p : ViewShiftP} {s : State} (hL : In 0x810E02 L) (h0 : Fit L s0 s) :
    Fit L s0 (runViewShift h p s) := by
  unfold runViewShift
  repeat' (first
    | with_reducible assumption
    | intro _
    | (extract_lets +onlyGivenNames x; have y := x; first | (guard_hyp y : State; clear y; refine Fit.seq L s0 x ?_ ?_; rotate_left; intro hx; clear_value x; rotate_left; dsimp -zeta only [x]; clear x) | (clear y; clear_value x))
    | with_reducible apply finish_fit (In.trans (by decide) hL)
    | with_reducible apply onSyn_fit (In.trans (by decide) hL)
    | split)

theorem rowViewShift_fit {L : Nat} {h : Hdr} {p : ViewShiftP} (hL : In 0x810E02 L) :
    RowFit L (rowViewShift h p) := by
  refine ⟨fun s0 s h0 => ?_, fun s0 s h0 => ?_⟩ <;> unfold rowViewShift <;> try dsimp -zeta only [id]
  repeat' (first
    | with_reducible assumption
    | with_reducible apply runViewShift_fit (In.trans (by decide) hL)
    | (dsimp -zeta only [id])
    | (with_reducible apply Fit.of_snd; case e => with_reducible assumption)
    | (with_reducible apply Fit.of_fst; case e => with_reducible assumption))

theorem execViewShift_fit {L : Nat} {s0 : State} {h : Hdr} {p : ViewShiftP} {s : State} (hL : In 0x4810E02 L) (h0 : Fit L s0 s) :
    ∀ post, execViewShift h p s = .next post → Fit L s0 post := by
  unfold execViewShift
  refine ok_fit ?_
  repeat' (first
    | with_reducible assumption
    | with_reducible apply command_fit (In.trans (by decide) hL)
    | with_reducible apply rowViewShift_fit (In.trans (by decide) hL))

end Sys2Proof.Machine
end

