-- ==== Sys2Proof/Laws/FitHeld.lean ====
section
/-! SUPPORT. What each definition of Machine/Held.lean touches, and that it keeps the invariant: one lemma each. -/

set_option Elab.async false
set_option linter.all false

namespace Sys2Proof.Machine

theorem rowOf_fit {L : Nat} {i : Instr} {r : Row} (hL : In 0x1FFFFFFE L) (e : rowOf i = some r) : RowFit L r := by
  unfold rowOf at e
  split at e
  · cases e; exact rowTimingSet_fit (In.trans (by decide) hL)
  · cases e; exact rowLayerSet_fit (In.trans (by decide) hL)
  · cases e; exact rowLayerEnable_fit (In.trans (by decide) hL)
  · cases e; exact rowStarlightSet_fit (In.trans (by decide) hL)
  · cases e; exact rowScanoutStatus_fit (In.trans (by decide) hL)
  · cases e; exact rowModeSet_fit (In.trans (by decide) hL)
  · cases e; exact rowModeGet_fit (In.trans (by decide) hL)
  · cases e; exact rowPanelLoad_fit (In.trans (by decide) hL)
  · cases e; exact rowSceneOpen_fit (In.trans (by decide) hL)
  · cases e; exact rowSceneFeed_fit (In.trans (by decide) hL)
  · cases e; exact rowSceneCloseDrain_fit (In.trans (by decide) hL)
  · cases e; exact rowSceneCloseNow_fit (In.trans (by decide) hL)
  · cases e; exact rowCodecJobCompress_fit (In.trans (by decide) hL)
  · cases e; exact rowCodecJobDecompress_fit (In.trans (by decide) hL)
  · cases e; exact rowCodecResume_fit (In.trans (by decide) hL)
  · cases e; exact rowCodecAbort_fit (In.trans (by decide) hL)
  · cases e; exact rowFrameSubmit_fit (In.trans (by decide) hL)
  · cases e; exact rowFrameStatus_fit (In.trans (by decide) hL)
  · cases e; exact rowViewShift_fit (In.trans (by decide) hL)
  · cases e; exact rowCamCfgPort_fit (In.trans (by decide) hL)
  · cases e; exact rowCamCfgOff_fit (In.trans (by decide) hL)
  · cases e; exact rowCamCfgI2c_fit (In.trans (by decide) hL)
  · cases e; exact rowCamCfgMap_fit (In.trans (by decide) hL)
  · cases e; exact rowCamTriggerCfg_fit (In.trans (by decide) hL)
  · cases e; exact rowSweepCfg_fit (In.trans (by decide) hL)
  · cases e; exact rowCamStatus_fit (In.trans (by decide) hL)
  · cases e; exact rowPanelLinkTrain_fit (In.trans (by decide) hL)
  · cases e; exact rowPanelPresRearm_fit (In.trans (by decide) hL)
  · cases e; exact rowSteerCfg_fit (In.trans (by decide) hL)
  · cases e; exact rowSteerStatus_fit (In.trans (by decide) hL)
  · cases e; exact rowTimeGet_fit (In.trans (by decide) hL)
  · cases e; exact rowTimeSetAbsolute_fit (In.trans (by decide) hL)
  · cases e; exact rowTimeSetRelative_fit (In.trans (by decide) hL)
  · cases e; exact rowTimeSetAtPps_fit (In.trans (by decide) hL)
  · cases e; exact rowTimeAdjustSlew_fit (In.trans (by decide) hL)
  · cases e; exact rowTimeAdjustFrequency_fit (In.trans (by decide) hL)
  · cases e; exact rowPtpPortCfg_fit (In.trans (by decide) hL)
  · cases e; exact rowTimerArm_fit (In.trans (by decide) hL)
  · cases e; exact rowTimerCancel_fit (In.trans (by decide) hL)
  · cases e; exact rowThermalRead_fit (In.trans (by decide) hL)
  · cases e; exact rowThermalLimitsSet_fit (In.trans (by decide) hL)
  · cases e; exact rowThrottleAck_fit (In.trans (by decide) hL)
  · cases e; exact rowParamSet_fit (In.trans (by decide) hL)
  · cases e; exact rowParamSet_fit (In.trans (by decide) hL)
  · cases e; exact rowBufAlloc_fit (In.trans (by decide) hL)
  · cases e; exact rowBufFree_fit (In.trans (by decide) hL)
  · cases e; exact rowBufCopy_fit (In.trans (by decide) hL)
  · cases e; exact rowBufQuery_fit (In.trans (by decide) hL)
  · cases e; exact rowLedgerRead_fit (In.trans (by decide) hL)
  · cases e; exact rowNop_fit (In.trans (by decide) hL)
  · cases e; exact rowGetInfo_fit (In.trans (by decide) hL)
  · cases e; exact rowParamGet_fit (In.trans (by decide) hL)
  · cases e; exact rowParamSet_fit (In.trans (by decide) hL)
  · cases e; exact rowParamList_fit (In.trans (by decide) hL)
  · cases e; exact rowLeaseTake_fit (In.trans (by decide) hL)
  · cases e; exact rowLeaseRenew_fit (In.trans (by decide) hL)
  · cases e; exact rowLeaseRelease_fit (In.trans (by decide) hL)
  · cases e; exact rowEventLogRead_fit (In.trans (by decide) hL)
  · cases e; exact rowResetLevel1_fit (In.trans (by decide) hL)
  · cases e; exact rowResetLevel2_fit (In.trans (by decide) hL)
  · cases e; exact rowResetLevel3_fit (In.trans (by decide) hL)
  · cases e; exact rowResetLevel4_fit (In.trans (by decide) hL)
  · cases e; exact rowDiagCapture_fit (In.trans (by decide) hL)
  · cases e; exact rowNetPortCfg_fit (In.trans (by decide) hL)
  · cases e; exact rowNetVlanCfgVlan_fit (In.trans (by decide) hL)
  · cases e; exact rowNetVlanCfgStaticEntry_fit (In.trans (by decide) hL)
  · cases e; exact rowNetVlanCfgPriorityMap_fit (In.trans (by decide) hL)
  · cases e; exact rowNetVlanCfgStream_fit (In.trans (by decide) hL)
  · cases e; exact rowNetSchedCfgWrite_fit (In.trans (by decide) hL)
  · cases e; exact rowNetSchedCfgCommit_fit (In.trans (by decide) hL)
  · cases e; exact rowNetSchedCfgDisable_fit (In.trans (by decide) hL)
  · cases e; exact rowNetStats_fit (In.trans (by decide) hL)
  · cases e; exact rowNvRead_fit (In.trans (by decide) hL)
  · cases e; exact rowNvWrite_fit (In.trans (by decide) hL)
  · cases e; exact rowNvWriteDelete_fit (In.trans (by decide) hL)
  · cases e; exact rowNvUnlock_fit (In.trans (by decide) hL)
  · cases e; exact rowNvLock_fit (In.trans (by decide) hL)
  · cases e; exact rowNvLockSetPassword_fit (In.trans (by decide) hL)
  · cases e; exact rowNvLockRemovePassword_fit (In.trans (by decide) hL)
  · cases e; exact rowNvCounterAdd_fit (In.trans (by decide) hL)
  · cases e; exact rowNvLogRead_fit (In.trans (by decide) hL)
  · cases e; exact rowCalRun_fit (In.trans (by decide) hL)
  · cases e; exact rowCalExport_fit (In.trans (by decide) hL)
  · cases e; exact rowCalImport_fit (In.trans (by decide) hL)
  · cases e; exact rowCalStatus_fit (In.trans (by decide) hL)
  · cases e; exact rowTestRun_fit (In.trans (by decide) hL)
  · cases e; exact rowTestResult_fit (In.trans (by decide) hL)
  · cases e; exact rowTestAbort_fit (In.trans (by decide) hL)
  · cases e; exact rowLifeGet_fit (In.trans (by decide) hL)
  · cases e; exact rowChallengeGetNew_fit (In.trans (by decide) hL)
  · cases e; exact rowChallengeGetPart_fit (In.trans (by decide) hL)
  · cases e; exact rowResponsePut_fit (In.trans (by decide) hL)
  · cases e; exact rowPasswordPut_fit (In.trans (by decide) hL)
  · cases e; exact rowAttestQuoteForm_fit (In.trans (by decide) hL)
  · cases e; exact rowAttestQuotePart_fit (In.trans (by decide) hL)
  · cases e; exact rowLifeAdvance_fit (In.trans (by decide) hL)
  · cases e; exact rowKeyInstallOwnerKey_fit (In.trans (by decide) hL)
  · cases e; exact rowKeyInstallFleetKey_fit (In.trans (by decide) hL)
  · cases e; exact rowKeyInstallPassword_fit (In.trans (by decide) hL)
  · cases e; exact rowKeyInstallRemovePassword_fit (In.trans (by decide) hL)
  · cases e; exact rowFwBegin_fit (In.trans (by decide) hL)
  · cases e; exact rowFwChunk_fit (In.trans (by decide) hL)
  · cases e; exact rowFwCommit_fit (In.trans (by decide) hL)
  · cases e; exact rowFwActivateArm_fit (In.trans (by decide) hL)
  · cases e; exact rowFwActivateConfirm_fit (In.trans (by decide) hL)
  · cases e; exact rowFwActivateDisarm_fit (In.trans (by decide) hL)
  · cases e; exact rowDetachPrepare_fit (In.trans (by decide) hL)
  · cases e; exact rowParamSet_fit (In.trans (by decide) hL)
  · cases e

theorem keptRow_fit {L : Nat} {i : Instr} {h : Hdr} {opc : Nat} {r : Row} (hL : In 0x1FFFFFFE L) (e : keptRow i h opc = some r) : RowFit L r := by
  unfold keptRow at e
  split at e
  · split at e <;> cases e
    · exact rowOf_fit hL ‹_›
    · exact rowStray_fit (In.trans (by decide) hL)
  · cases e

theorem dropWait_fit {L : Nat} {s0 : State} {w : Wait} {s : State} (hL : In 0x400 L) (h0 : Fit L s0 s) :
    Fit L s0 (dropWait w s) := by
  unfold dropWait
  repeat' (first
    | with_reducible assumption
    | (extract_lets +onlyGivenNames x; have y := x; first | (guard_hyp y : State; clear y; refine Fit.seq L s0 x ?_ ?_; rotate_left; intro hx; clear_value x; rotate_left; dsimp -zeta only [x]; clear x) | (guard_hyp y : CmdSt; clear y; dsimp -zeta only [x]; clear x) | (clear y; clear_value x))
    | (with_reducible apply Fit.upd_cmd (In.trans (by decide) hL); rotate_left; with_reducible rfl; first | (with_reducible apply Fit.ite <;> intro _) | (fail_if_success split)))

theorem resumeTest_fit {L : Nat} {s0 : State} {w : Wait} {r : Row} {s : State} (hL : In 0x800E02 L) (h0 : Fit L s0 s) (h_r : RowFit L r) :
    Fit L s0 (resumeTest w r s) := by
  unfold resumeTest
  repeat' (first
    | with_reducible assumption
    | (extract_lets +onlyGivenNames x; have y := x; first | (guard_hyp y : State; clear y; refine Fit.seq L s0 x ?_ ?_; rotate_left; intro hx; clear_value x; rotate_left; dsimp -zeta only [x]; clear x) | (clear y; clear_value x))
    | with_reducible apply perform_fit (In.trans (by decide) hL)
    | with_reducible apply admitLive_fit (In.trans (by decide) hL)
    | with_reducible apply dropWait_fit (In.trans (by decide) hL)
    | with_reducible apply h_r.1
    | with_reducible apply h_r.2
    | (with_reducible apply Fit.ite <;> intro _))

theorem resumeUnread_fit {L : Nat} {s0 : State} {w : Wait} {r : Row} {k : Nat} {s : State} (hL : In 0x4800E02 L) (h0 : Fit L s0 s) (h_r : RowFit L r) :
    Fit L s0 (resumeUnread w r k s) := by
  unfold resumeUnread
  repeat' (first
    | with_reducible assumption
    | intro _
    | (extract_lets +onlyGivenNames x; have y := x; first | (guard_hyp y : State; clear y; refine Fit.seq L s0 x ?_ ?_; rotate_left; intro hx; clear_value x; rotate_left; dsimp -zeta only [x]; clear x) | (guard_hyp y : CmdSt; clear y; dsimp -zeta only [x]; clear x) | (clear y; clear_value x))
    | with_reducible apply raise_fit (In.trans (by decide) hL)
    | with_reducible apply setRing_fit (In.trans (by decide) hL)
    | with_reducible apply takeUp_fit (In.trans (by decide) hL)
    | with_reducible apply readEntry_fit (In.trans (by decide) hL)
    | with_reducible apply dropWait_fit (In.trans (by decide) hL)
    | with_reducible apply h_r.1
    | with_reducible apply h_r.2
    | (with_reducible apply Fit.ite <;> intro _)
    | (with_reducible apply Fit.upd_cmd (In.trans (by decide) hL); rotate_left; with_reducible rfl; first | (with_reducible apply Fit.ite <;> intro _) | (fail_if_success split))
    | split)

theorem resumeRead_fit {L : Nat} {s0 : State} {w : Wait} {r : Row} {s : State} (hL : In 0x4800E02 L) (h0 : Fit L s0 s) (h_r : RowFit L r) :
    Fit L s0 (resumeRead w r s) := by
  unfold resumeRead
  repeat' (first
    | with_reducible assumption
    | with_reducible apply takeUp_fit (In.trans (by decide) hL)
    | with_reducible apply dropWait_fit (In.trans (by decide) hL)
    | with_reducible apply h_r.1
    | with_reducible apply h_r.2
    | (with_reducible apply Fit.ite <;> intro _))

theorem resume_fit {L : Nat} {s0 : State} {src : Src} {s : State} (hL : In 0x1FFFFFFE L) (h0 : Fit L s0 s) :
    Fit L s0 (resume src s) := by
  unfold resume
  repeat' (first
    | with_reducible assumption
    | intro _
    | (extract_lets +onlyGivenNames x; have y := x; first | (guard_hyp y : State; clear y; refine Fit.seq L s0 x ?_ ?_; rotate_left; intro hx; clear_value x; rotate_left; dsimp -zeta only [x]; clear x) | (guard_hyp y : CmdSt; clear y; dsimp -zeta only [x]; clear x) | (clear y; clear_value x))
    | (with_reducible apply keptRow_fit (In.trans (by decide) hL); with_reducible assumption)
    | with_reducible apply resumeTest_fit (In.trans (by decide) hL)
    | with_reducible apply resumeUnread_fit (In.trans (by decide) hL)
    | with_reducible apply resumeRead_fit (In.trans (by decide) hL)
    | (with_reducible apply Fit.ite <;> intro _)
    | split)

theorem execDeferredAcceptance_fit {L : Nat} {s0 : State} {src : Src} {s : State} (hL : In 0x1FFFFFFE L) (h0 : Fit L s0 s) :
    ∀ post, execDeferredAcceptance src s = .next post → Fit L s0 post := by
  unfold execDeferredAcceptance
  refine ok_fit ?_
  repeat' (first
    | with_reducible assumption
    | with_reducible apply resume_fit (In.trans (by decide) hL))

theorem leaveSched_fit {L : Nat} {s0 : State} {e : Held} {s : State} (hL : In 0x800C22 L) (h0 : Fit L s0 s) :
    Fit L s0 (leaveSched e s) := by
  unfold leaveSched
  repeat' (first
    | with_reducible assumption
    | (extract_lets +onlyGivenNames x; have y := x; first | (guard_hyp y : State; clear y; refine Fit.seq L s0 x ?_ ?_; rotate_left; intro hx; clear_value x; rotate_left; dsimp -zeta only [x]; clear x) | (guard_hyp y : CmdSt; clear y; dsimp -zeta only [x]; clear x) | (clear y; clear_value x))
    | with_reducible apply advanceMer_fit (In.trans (by decide) hL)
    | with_reducible apply lateAction_fit (In.trans (by decide) hL)
    | (with_reducible apply Fit.upd_cmd (In.trans (by decide) hL); rotate_left; with_reducible rfl; first | (with_reducible apply Fit.ite <;> intro _) | (fail_if_success split)))

theorem performOrHold_fit {L : Nat} {s0 : State} {r : Row} {exp : Option Nat} {s : State} (hL : In 0x4800E02 L) (h0 : Fit L s0 s) (h_r : RowFit L r) :
    Fit L s0 (performOrHold r exp s) := by
  unfold performOrHold
  repeat' (first
    | with_reducible assumption
    | (extract_lets +onlyGivenNames x; have y := x; first | (guard_hyp y : State; clear y; refine Fit.seq L s0 x ?_ ?_; rotate_left; intro hx; clear_value x; rotate_left; dsimp -zeta only [x]; clear x) | (clear y; clear_value x))
    | with_reducible apply perform_fit (In.trans (by decide) hL)
    | (with_reducible apply holdForTest_fit (In.trans (by decide) hL); case e => with_reducible assumption)
    | with_reducible apply h_r.1
    | with_reducible apply h_r.2
    | (dsimp -zeta only [id])
    | (with_reducible apply Fit.of_snd; case e => with_reducible assumption)
    | (with_reducible apply Fit.of_fst; case e => with_reducible assumption)
    | split)

theorem runHeld_fit {L : Nat} {s0 : State} {e : Held} {s : State} (hL : In 0x1FFFFFFE L) (h0 : Fit L s0 s) : Fit L s0 (runHeld e s) := by
  have h1 := leaveSched_fit (e := e) (In.trans (by decide) hL) h0
  unfold runHeld
  cases hk : keptRow e.i e.h e.opcode with
  | none => exact h1
  | some r => exact performOrHold_fit (In.trans (by decide) hL) h1 (keptRow_fit (In.trans (by decide) hL) hk)

theorem execScheduledCommandRun_fit {L : Nat} {s0 : State} {slot : Fin 64} {s : State} (hL : In 0x1FFFFFFE L) (h0 : Fit L s0 s) :
    ∀ post, execScheduledCommandRun slot s = .next post → Fit L s0 post := by
  unfold execScheduledCommandRun
  refine ok_fit ?_
  repeat' (first
    | with_reducible assumption
    | intro _
    | (extract_lets +onlyGivenNames x; have y := x; first | (guard_hyp y : State; clear y; refine Fit.seq L s0 x ?_ ?_; rotate_left; intro hx; clear_value x; rotate_left; dsimp -zeta only [x]; clear x) | (guard_hyp y : CmdSt; clear y; dsimp -zeta only [x]; clear x) | (clear y; clear_value x))
    | with_reducible apply runHeld_fit (In.trans (by decide) hL)
    | (with_reducible apply Fit.ite <;> intro _)
    | split)

theorem stopCommand_fit {L : Nat} {s0 : State} {l : Live} {s : State} (hL : In 0x809E06 L) (h0 : Fit L s0 s) :
    Fit L s0 (stopCommand l s) := by
  unfold stopCommand
  repeat' (first
    | with_reducible assumption
    | intro _
    | (extract_lets +onlyGivenNames x; have y := x; first | (guard_hyp y : State; clear y; refine Fit.seq L s0 x ?_ ?_; rotate_left; intro hx; clear_value x; rotate_left; dsimp -zeta only [x]; clear x) | (guard_hyp y : CmdSt; clear y; dsimp -zeta only [x]; clear x) | (clear y; clear_value x))
    | with_reducible apply finish_fit (In.trans (by decide) hL)
    | with_reducible apply jobStops_fit (In.trans (by decide) hL)
    | with_reducible apply endCopy_fit (In.trans (by decide) hL)
    | (with_reducible apply Fit.upd_cmd (In.trans (by decide) hL); rotate_left; with_reducible rfl; first | (with_reducible apply Fit.ite <;> intro _) | (fail_if_success split))
    | split)

theorem missBudget_fit {L : Nat} {s0 : State} {l : Live} {s : State} (hL : In 0x809E06 L) (h0 : Fit L s0 s) :
    Fit L s0 (missBudget l s) := by
  unfold missBudget
  repeat' (first
    | with_reducible assumption
    | intro _
    | (extract_lets +onlyGivenNames x; have y := x; first | (guard_hyp y : State; clear y; refine Fit.seq L s0 x ?_ ?_; rotate_left; intro hx; clear_value x; rotate_left; dsimp -zeta only [x]; clear x) | (guard_hyp y : CmdSt; clear y; dsimp -zeta only [x]; clear x) | (clear y; clear_value x))
    | with_reducible apply raise_fit (In.trans (by decide) hL)
    | with_reducible apply stopCommand_fit (In.trans (by decide) hL)
    | (with_reducible apply Fit.ite <;> intro _)
    | (with_reducible apply Fit.upd_cmd (In.trans (by decide) hL); rotate_left; with_reducible rfl; first | (with_reducible apply Fit.ite <;> intro _) | (fail_if_success split))
    | split)

theorem execCmdDeadline_fit {L : Nat} {s0 : State} {k : CmdKey} {s : State} (hL : In 0x809E26 L) (h0 : Fit L s0 s) :
    ∀ post, execCmdDeadline k s = .next post → Fit L s0 post := by
  unfold execCmdDeadline
  refine ok_fit ?_
  repeat' (first
    | with_reducible assumption
    | (extract_lets +onlyGivenNames x; have y := x; first | (guard_hyp y : State; clear y; refine Fit.seq L s0 x ?_ ?_; rotate_left; intro hx; clear_value x; rotate_left; dsimp -zeta only [x]; clear x) | (clear y; clear_value x))
    | with_reducible apply advanceMer_fit (In.trans (by decide) hL)
    | with_reducible apply missBudget_fit (In.trans (by decide) hL)
    | split)

end Sys2Proof.Machine
end

