-- ==== Sys2Proof/Laws/FitPowerRows.lean ====
section
/-! SUPPORT. What each definition of Machine/PowerRows.lean touches, and that it keeps the invariant: one lemma each. -/

set_option Elab.async false
set_option linter.all false

namespace Sys2Proof.Machine

theorem leaveDetached_fit {L : Nat} {s0 : State} {s : State} (hL : In 0x10000000 L) (h0 : Fit L s0 s) :
    Fit L s0 (leaveDetached s) := by
  unfold leaveDetached
  repeat' (first
    | with_reducible assumption
    | (extract_lets +onlyGivenNames x; have y := x; first | (guard_hyp y : State; clear y; refine Fit.seq L s0 x ?_ ?_; rotate_left; intro hx; clear_value x; rotate_left; dsimp -zeta only [x]; clear x) | (clear y; clear_value x))
    | (with_reducible apply Fit.ite <;> intro _)
    | (with_reducible apply Fit.upd_hwd (In.trans (by decide) hL); first | (with_reducible apply Fit.ite <;> intro _) | (fail_if_success split)))

theorem wakeBy_fit {L : Nat} {s0 : State} {b : Nat} {s : State} (hL : In 0x10800C42 L) (h0 : Fit L s0 s) :
    Fit L s0 (wakeBy b s) := by
  unfold wakeBy
  repeat' (first
    | with_reducible assumption
    | intro _
    | (extract_lets +onlyGivenNames x; have y := x; first | (guard_hyp y : State; clear y; refine Fit.seq L s0 x ?_ ?_; rotate_left; intro hx; clear_value x; rotate_left; dsimp -zeta only [x]; clear x) | (clear y; clear_value x))
    | with_reducible apply raise_fit (In.trans (by decide) hL)
    | with_reducible apply onMode_fit (In.trans (by decide) hL)
    | with_reducible apply leaveDetached_fit (In.trans (by decide) hL)
    | (with_reducible apply Fit.ite <;> intro _)
    | split)

theorem execWake_fit {L : Nat} {s0 : State} {t : ThmRead} {s : State} (hL : In 0xFFFFFFE L) (h0 : Fit L s0 s) :
    ∀ post, execWake t s = .next post → Fit L s0 post := by
  unfold execWake
  refine ok_fit ?_
  repeat' (first
    | with_reducible assumption
    | (extract_lets +onlyGivenNames x; have y := x; first | (guard_hyp y : State; clear y; refine Fit.seq L s0 x ?_ ?_; rotate_left; intro hx; clear_value x; rotate_left; dsimp -zeta only [x]; clear x) | (clear y; clear_value x))
    | with_reducible apply startAfterWake_fit (In.trans (by decide) hL)
    | with_reducible apply startSample_fit (In.trans (by decide) hL)
    | with_reducible apply bumpCounter_fit (In.trans (by decide) hL)
    | (with_reducible apply Fit.ite <;> intro _)
    | split)

theorem execVmainQualified_fit {L : Nat} {s0 : State} {s : State} (hL : In 0x10000040 L) (h0 : Fit L s0 s) :
    ∀ post, execVmainQualified s = .next post → Fit L s0 post := by
  unfold execVmainQualified
  refine ok_fit ?_
  repeat' (first
    | with_reducible assumption
    | intro _
    | (extract_lets +onlyGivenNames x; have y := x; first | (guard_hyp y : State; clear y; refine Fit.seq L s0 x ?_ ?_; rotate_left; intro hx; clear_value x; rotate_left; dsimp -zeta only [x]; clear x) | (clear y; clear_value x))
    | with_reducible apply onMode_fit (In.trans (by decide) hL)
    | with_reducible apply onHwd_fit (In.trans (by decide) hL)
    | (with_reducible apply Fit.ite <;> intro _)
    | split)

theorem execPwrVmainRange_fit {L : Nat} {s0 : State} {mv : Nat} {s : State} (hL : In 0x800CC2 L) (h0 : Fit L s0 s) :
    ∀ post, execPwrVmainRange mv s = .next post → Fit L s0 post := by
  unfold execPwrVmainRange
  refine ok_fit ?_
  repeat' (first
    | with_reducible assumption
    | intro _
    | (extract_lets +onlyGivenNames x; have y := x; first | (guard_hyp y : State; clear y; refine Fit.seq L s0 x ?_ ?_; rotate_left; intro hx; clear_value x; rotate_left; dsimp -zeta only [x]; clear x) | (clear y; clear_value x))
    | with_reducible apply raiseIf_fit (In.trans (by decide) hL)
    | with_reducible apply onMode_fit (In.trans (by decide) hL)
    | (with_reducible apply Fit.ite <;> intro _)
    | (with_reducible apply Fit.upd_pwr (In.trans (by decide) hL); first | (with_reducible apply Fit.ite <;> intro _) | (fail_if_success split))
    | split)

theorem execPwrVmainLost_fit {L : Nat} {s0 : State} {s : State} (hL : In 0x1FFFFFFE L) (h0 : Fit L s0 s) :
    ∀ post, execPwrVmainLost s = .next post → Fit L s0 post := by
  unfold execPwrVmainLost
  refine ok_fit ?_
  repeat' (first
    | with_reducible assumption
    | intro _
    | (extract_lets +onlyGivenNames x; have y := x; first | (guard_hyp y : State; clear y; refine Fit.seq L s0 x ?_ ?_; rotate_left; intro hx; clear_value x; rotate_left; dsimp -zeta only [x]; clear x) | (clear y; clear_value x))
    | with_reducible apply onMode_fit (In.trans (by decide) hL)
    | with_reducible apply powerLoss_fit (In.trans (by decide) hL)
    | with_reducible apply quiesceOnVaux_fit (In.trans (by decide) hL)
    | (with_reducible apply Fit.ite <;> intro _)
    | split)

theorem rangeSeen_fit {L : Nat} {s0 : State} {mv : Nat} {s : State} (hL : In 0x40 L) (h0 : Fit L s0 s) :
    Fit L s0 (rangeSeen mv s) := by
  unfold rangeSeen
  repeat' (first
    | with_reducible assumption
    | intro _
    | (extract_lets +onlyGivenNames x; have y := x; first | (guard_hyp y : State; clear y; refine Fit.seq L s0 x ?_ ?_; rotate_left; intro hx; clear_value x; rotate_left; dsimp -zeta only [x]; clear x) | (clear y; clear_value x))
    | with_reducible apply onMode_fit (In.trans (by decide) hL)
    | (with_reducible apply Fit.ite <;> intro _)
    | split)

theorem judgePower_fit {L : Nat} {s0 : State} {avg : Nat} {s : State} (hL : In 0x800DC2 L) (h0 : Fit L s0 s) :
    Fit L s0 (judgePower avg s) := by
  unfold judgePower
  repeat' (first
    | with_reducible assumption
    | (extract_lets +onlyGivenNames x; have y := x; first | (guard_hyp y : State; clear y; refine Fit.seq L s0 x ?_ ?_; rotate_left; intro hx; clear_value x; rotate_left; dsimp -zeta only [x]; clear x) | (clear y; clear_value x))
    | with_reducible apply raise_fit (In.trans (by decide) hL)
    | with_reducible apply throttleCleared_fit (In.trans (by decide) hL)
    | with_reducible apply throttleEvent_fit (In.trans (by decide) hL)
    | (with_reducible apply Fit.ite <;> intro _)
    | (with_reducible apply Fit.upd_pwr (In.trans (by decide) hL); first | (with_reducible apply Fit.ite <;> intro _) | (fail_if_success split)))

theorem execPowerSample_fit {L : Nat} {s0 : State} {p : PowerRead} {s : State} (hL : In 0x800DE2 L) (h0 : Fit L s0 s) :
    ∀ post, execPowerSample p s = .next post → Fit L s0 post := by
  unfold execPowerSample
  refine ok_fit ?_
  repeat' (first
    | with_reducible assumption
    | (extract_lets +onlyGivenNames x; have y := x; first | (guard_hyp y : State; clear y; refine Fit.seq L s0 x ?_ ?_; rotate_left; intro hx; clear_value x; rotate_left; dsimp -zeta only [x]; clear x) | (clear y; clear_value x))
    | with_reducible apply advanceRef_fit (In.trans (by decide) hL)
    | with_reducible apply rangeSeen_fit (In.trans (by decide) hL)
    | with_reducible apply judgePower_fit (In.trans (by decide) hL)
    | (with_reducible apply Fit.ite <;> intro _)
    | (with_reducible apply Fit.upd_pwr (In.trans (by decide) hL); first | (with_reducible apply Fit.ite <;> intro _) | (fail_if_success split)))

theorem execHorizonSensorRead_fit {L : Nat} {s0 : State} {v : Int} {s : State} (hL : In 0x10800D62 L) (h0 : Fit L s0 s) :
    ∀ post, execHorizonSensorRead v s = .next post → Fit L s0 post := by
  unfold execHorizonSensorRead
  refine ok_fit ?_
  repeat' (first
    | with_reducible assumption
    | intro _
    | (extract_lets +onlyGivenNames x; have y := x; first | (guard_hyp y : State; clear y; refine Fit.seq L s0 x ?_ ?_; rotate_left; intro hx; clear_value x; rotate_left; dsimp -zeta only [x]; clear x) | (clear y; clear_value x))
    | with_reducible apply advanceRef_fit (In.trans (by decide) hL)
    | with_reducible apply raise_fit (In.trans (by decide) hL)
    | with_reducible apply onThm_fit (In.trans (by decide) hL)
    | with_reducible apply wakeBy_fit (In.trans (by decide) hL)
    | (with_reducible apply Fit.ite <;> intro _)
    | split)

theorem execPePerstRise_fit {L : Nat} {s0 : State} {s : State} (hL : In 0x10800C42 L) (h0 : Fit L s0 s) :
    ∀ post, execPePerstRise s = .next post → Fit L s0 post := by
  unfold execPePerstRise
  refine ok_fit ?_
  repeat' (first
    | with_reducible assumption
    | with_reducible apply wakeBy_fit (In.trans (by decide) hL))

theorem execHorizonAlarm_fit {L : Nat} {s0 : State} {s : State} (hL : In 0x10800C62 L) (h0 : Fit L s0 s) :
    ∀ post, execHorizonAlarm s = .next post → Fit L s0 post := by
  unfold execHorizonAlarm
  refine ok_fit ?_
  repeat' (first
    | with_reducible assumption
    | intro _
    | (extract_lets +onlyGivenNames x; have y := x; first | (guard_hyp y : State; clear y; refine Fit.seq L s0 x ?_ ?_; rotate_left; intro hx; clear_value x; rotate_left; dsimp -zeta only [x]; clear x) | (clear y; clear_value x))
    | with_reducible apply advanceMer_fit (In.trans (by decide) hL)
    | with_reducible apply wakeBy_fit (In.trans (by decide) hL)
    | (with_reducible apply Fit.ite <;> intro _)
    | split)

theorem execVauxLost_fit {s : State} : ∀ post, execVauxLost s = .next post → Inv post := by
  intro post e; cases e
  exact ⟨rfl, Nat.zero_le _, Nat.zero_le _, (by decide : 0 < 2 ^ 32)⟩

end Sys2Proof.Machine
end

