-- ==== Sys2Proof/Laws/FitSideBand.lean ====
section
/-! SUPPORT. What each definition of Machine/SideBand.lean touches, and that it keeps the invariant: one lemma each. -/

set_option Elab.async false
set_option linter.all false

namespace Sys2Proof.Machine

theorem sbDrop_fit {L : Nat} {s0 : State} {s : State} (hL : In 0x800C02 L) (h0 : Fit L s0 s) :
    Fit L s0 (sbDrop s) := by
  unfold sbDrop
  repeat' (first
    | with_reducible assumption
    | (extract_lets +onlyGivenNames x; have y := x; first | (guard_hyp y : State; clear y; refine Fit.seq L s0 x ?_ ?_; rotate_left; intro hx; clear_value x; rotate_left; dsimp -zeta only [x]; clear x) | (guard_hyp y : CmdSt; clear y; dsimp -zeta only [x]; clear x) | (clear y; clear_value x))
    | with_reducible apply raise_fit (In.trans (by decide) hL)
    | (with_reducible apply Fit.upd_cmd (In.trans (by decide) hL); rotate_left; with_reducible rfl; first | (with_reducible apply Fit.ite <;> intro _) | (fail_if_success split)))

theorem sbTake_fit {L : Nat} {s0 : State} {from_ : SbFrom} {m : SbMsg} {s : State} (hL : In 0x4800E02 L) (h0 : Fit L s0 s) :
    Fit L s0 (sbTake from_ m s) := by
  unfold sbTake
  repeat' (first
    | with_reducible assumption
    | (extract_lets +onlyGivenNames x; have y := x; first | (guard_hyp y : State; clear y; refine Fit.seq L s0 x ?_ ?_; rotate_left; intro hx; clear_value x; rotate_left; dsimp -zeta only [x]; clear x) | (guard_hyp y : CmdSt; clear y; dsimp -zeta only [x]; clear x) | (clear y; clear_value x))
    | with_reducible apply command_fit (In.trans (by decide) hL)
    | with_reducible apply rowStray_fit (In.trans (by decide) hL)
    | (with_reducible apply Fit.ite <;> intro _)
    | (with_reducible apply Fit.upd_cmd_sbd (In.trans (by decide) hL); rotate_left; with_reducible rfl; first | (with_reducible apply Fit.ite <;> intro _) | (fail_if_success split)))

theorem sbIn_fit {L : Nat} {s0 : State} {from_ : SbFrom} {bit : Nat} {m : SbMsg} {s : State} (hL : In 0x14800E42 L) (h0 : Fit L s0 s) :
    Fit L s0 (sbIn from_ bit m s) := by
  unfold sbIn
  repeat' (first
    | with_reducible assumption
    | (extract_lets +onlyGivenNames x; have y := x; first | (guard_hyp y : State; clear y; refine Fit.seq L s0 x ?_ ?_; rotate_left; intro hx; clear_value x; rotate_left; dsimp -zeta only [x]; clear x) | (clear y; clear_value x))
    | with_reducible apply emit_fit (In.trans (by decide) hL)
    | with_reducible apply finish_fit (In.trans (by decide) hL)
    | with_reducible apply wakeBy_fit (In.trans (by decide) hL)
    | with_reducible apply sbDrop_fit (In.trans (by decide) hL)
    | with_reducible apply sbTake_fit (In.trans (by decide) hL)
    | (with_reducible apply Fit.ite <;> intro _)
    | (with_reducible apply Fit.upd_sbd (In.trans (by decide) hL); first | (with_reducible apply Fit.ite <;> intro _) | (fail_if_success split))
    | split)

theorem execSbT1Datagram_fit {L : Nat} {s0 : State} {f : T1Frame} {s : State} (hL : In 0x14800E42 L) (h0 : Fit L s0 s) :
    ∀ post, execSbT1Datagram f s = .next post → Fit L s0 post := by
  unfold execSbT1Datagram
  refine ok_fit ?_
  repeat' (first
    | with_reducible assumption
    | (extract_lets +onlyGivenNames x; have y := x; first | (guard_hyp y : State; clear y; refine Fit.seq L s0 x ?_ ?_; rotate_left; intro hx; clear_value x; rotate_left; dsimp -zeta only [x]; clear x) | (clear y; clear_value x))
    | with_reducible apply emit_fit (In.trans (by decide) hL)
    | with_reducible apply sbIn_fit (In.trans (by decide) hL)
    | (with_reducible apply Fit.ite <;> intro _)
    | split)

theorem smbIn_fit {L : Nat} {s0 : State} {f : SmbFrame} {act : State → State} {s : State} (hL : In 0x800C02 L) (h0 : Fit L s0 s) (h_act : ∀ v0, Fit L s0 v0 → Fit L s0 (act v0)) :
    Fit L s0 (smbIn f act s) := by
  unfold smbIn
  repeat' (first
    | with_reducible assumption
    | with_reducible apply sbDrop_fit (In.trans (by decide) hL)
    | with_reducible apply h_act
    | (with_reducible apply Fit.ite <;> intro _))

theorem execMctpMessage_fit {L : Nat} {s0 : State} {f : SmbFrame} {m : SbMsg} {s : State} (hL : In 0x14800E42 L) (h0 : Fit L s0 s) :
    ∀ post, execMctpMessage f m s = .next post → Fit L s0 post := by
  unfold execMctpMessage
  refine ok_fit ?_
  repeat' (first
    | with_reducible assumption
    | intro _
    | with_reducible apply sbIn_fit (In.trans (by decide) hL)
    | with_reducible apply smbIn_fit (In.trans (by decide) hL))

theorem execSetEndpointId_fit {L : Nat} {s0 : State} {f : SmbFrame} {op : Byte} {eid : Byte} {s : State} (hL : In 0x800C02 L) (h0 : Fit L s0 s) :
    ∀ post, execSetEndpointId f op eid s = .next post → Fit L s0 post := by
  unfold execSetEndpointId
  refine ok_fit ?_
  repeat' (first
    | with_reducible assumption
    | intro _
    | (extract_lets +onlyGivenNames x; have y := x; first | (guard_hyp y : State; clear y; refine Fit.seq L s0 x ?_ ?_; rotate_left; intro hx; clear_value x; rotate_left; dsimp -zeta only [x]; clear x) | (clear y; clear_value x))
    | with_reducible apply emit_fit (In.trans (by decide) hL)
    | with_reducible apply raise_fit (In.trans (by decide) hL)
    | with_reducible apply smbIn_fit (In.trans (by decide) hL)
    | (with_reducible apply Fit.ite <;> intro _)
    | (with_reducible apply Fit.upd_sbd (In.trans (by decide) hL); first | (with_reducible apply Fit.ite <;> intro _) | (fail_if_success split))
    | split)

theorem execGetEndpointId_fit {L : Nat} {s0 : State} {f : SmbFrame} {s : State} (hL : In 0x800C02 L) (h0 : Fit L s0 s) :
    ∀ post, execGetEndpointId f s = .next post → Fit L s0 post := by
  unfold execGetEndpointId
  refine ok_fit ?_
  repeat' (first
    | with_reducible assumption
    | intro _
    | with_reducible apply emit_fit (In.trans (by decide) hL)
    | with_reducible apply smbIn_fit (In.trans (by decide) hL))

theorem execGetMctpVersionSupport_fit {L : Nat} {s0 : State} {f : SmbFrame} {type : Byte} {s : State} (hL : In 0x800C02 L) (h0 : Fit L s0 s) :
    ∀ post, execGetMctpVersionSupport f type s = .next post → Fit L s0 post := by
  unfold execGetMctpVersionSupport
  refine ok_fit ?_
  repeat' (first
    | with_reducible assumption
    | intro _
    | with_reducible apply emit_fit (In.trans (by decide) hL)
    | with_reducible apply smbIn_fit (In.trans (by decide) hL)
    | (with_reducible apply Fit.ite <;> intro _)
    | split)

theorem execGetMessageTypeSupport_fit {L : Nat} {s0 : State} {f : SmbFrame} {s : State} (hL : In 0x800C02 L) (h0 : Fit L s0 s) :
    ∀ post, execGetMessageTypeSupport f s = .next post → Fit L s0 post := by
  unfold execGetMessageTypeSupport
  refine ok_fit ?_
  repeat' (first
    | with_reducible assumption
    | intro _
    | with_reducible apply emit_fit (In.trans (by decide) hL)
    | with_reducible apply smbIn_fit (In.trans (by decide) hL))

theorem execSbdLinkUp_fit {L : Nat} {s0 : State} {s : State} (hL : In 0x800C02 L) (h0 : Fit L s0 s) :
    ∀ post, execSbdLinkUp s = .next post → Fit L s0 post := by
  unfold execSbdLinkUp
  refine ok_fit ?_
  repeat' (first
    | with_reducible assumption
    | (extract_lets +onlyGivenNames x; have y := x; first | (guard_hyp y : State; clear y; refine Fit.seq L s0 x ?_ ?_; rotate_left; intro hx; clear_value x; rotate_left; dsimp -zeta only [x]; clear x) | (clear y; clear_value x))
    | with_reducible apply raise_fit (In.trans (by decide) hL)
    | (with_reducible apply Fit.ite <;> intro _)
    | (with_reducible apply Fit.upd_sbd (In.trans (by decide) hL); first | (with_reducible apply Fit.ite <;> intro _) | (fail_if_success split)))

theorem execSbdLinkDown_fit {L : Nat} {s0 : State} {s : State} (hL : In 0x800C02 L) (h0 : Fit L s0 s) :
    ∀ post, execSbdLinkDown s = .next post → Fit L s0 post := by
  unfold execSbdLinkDown
  refine ok_fit ?_
  repeat' (first
    | with_reducible assumption
    | (extract_lets +onlyGivenNames x; have y := x; first | (guard_hyp y : State; clear y; refine Fit.seq L s0 x ?_ ?_; rotate_left; intro hx; clear_value x; rotate_left; dsimp -zeta only [x]; clear x) | (clear y; clear_value x))
    | with_reducible apply raise_fit (In.trans (by decide) hL)
    | (with_reducible apply Fit.ite <;> intro _)
    | (with_reducible apply Fit.upd_sbd (In.trans (by decide) hL); first | (with_reducible apply Fit.ite <;> intro _) | (fail_if_success split)))

end Sys2Proof.Machine
end

