-- ==== Sys2Proof/Laws/Served.lean ====
section
/-! SUPPORT. A packet that is served is performed. -/

namespace Sys2Proof.Machine

/-- A packet whose ordering conditions hold is judged like any other (R405). -/
theorem takeUp_of_orderOk {r : Row} {exp : Option Nat} {s : State} (h : orderOk r.h s = true) : takeUp r exp s = accept r exp s := by
  unfold takeUp
  split
  · rename_i l hl
    split at hl
    · rename_i hc
      simp only [orderOk, hc, hl, Bool.not_true, Bool.false_or, Bool.and_eq_true, Bool.or_eq_true, beq_iff_eq] at h
      rw [if_pos h.2]
    · cases hl
  · rfl

/-- A packet that passes every check, is not held and is not held back is performed (R398). -/
theorem accept_of_passes {r : Row} {exp : Option Nat} {s : State} (hq : (noteTaken r.h s).hwd.quiesce = none)
    (h8 : (r.h.src == .side && sideInFlight (noteTaken r.h s) ≥ 8) = false) (hc : checks r exp (noteTaken r.h s) = none)
    (hh : toHold r = false) (ht : testBlock r.opc r.i (noteTaken r.h s) = none) :
    accept r exp s = perform r (admitLive r (merNs (noteTaken r.h s)) (noteTaken r.h s)) := by
  unfold accept
  simp only [hq, Option.isSome_none, Bool.false_eq_true, if_false, h8, hc, hh, holdForTest, ht, Option.map_none]

/-- Reading an entry takes no time. -/
theorem judged_merNs (r : Row) (s : State) : merNs (judged r s) = merNs s := by
  unfold judged reached
  split <;> rfl

/-- Leaving its source changes nothing but the rings, the ledger and the record of last commands. -/
theorem judged_keeps_hwd (r : Row) (s : State) : (judged r s).hwd = s.hwd := by
  unfold judged reached
  split <;> rfl

/-- A served packet is performed on the state in which it has become an accepted command. -/
theorem command_of_served {r : Row} {s : State} (h : served r s = true) : command r s = r.run (taken r s) := by
  simp only [served, atFront, Bool.and_eq_true, Bool.not_eq_true', Option.isNone_iff_eq_none] at h
  obtain ⟨⟨⟨⟨⟨⟨⟨ho, hw⟩, hf⟩, hq⟩, hc⟩, hh⟩, ht⟩, hk⟩ := h
  have hp : perform r (admitLive r (merNs (judged r s)) (judged r s)) = r.run (taken r s) := by
    rw [judged_merNs]
    unfold perform
    show (match r.chk (taken r s) with | some v => finish r.h r.opc v (taken r s) | none => r.run (taken r s)) = _
    rw [hk]
  have hm : mustWait r.h (reached r s) = false := by
    simp only [orderOk, Bool.and_eq_true, Bool.not_eq_true'] at ho; exact ho.1
  unfold command
  cases hs : r.h.src with
  | ring k =>
    simp only [hs, Bool.and_eq_true, decide_eq_true_eq] at hf
    have hr : reached r s = readEntry k.val s := by simp only [reached, hs]
    have hj : judged r s = noteTaken r.h (readEntry k.val s) := by rw [judged, hr]
    simp only [hs] at hw ⊢
    rw [if_pos (by simp only [Bool.and_eq_true, decide_eq_true_eq]; exact hf.1)]
    simp only [hw, Bool.false_eq_true, if_false, takeRing]
    rw [if_neg (by omega), if_neg (by rw [← hr, hm]; simp), takeUp_of_orderOk (hr ▸ ho),
      accept_of_passes (by rw [← hj, judged_keeps_hwd]; exact hq) (by simp [hs]) (by rw [← hj]; simpa only [expOf, hs] using hc) hh
        (by rw [← hj]; exact ht), ← hj, hp]
  | side =>
    simp only [hs, Bool.and_eq_true, decide_eq_true_eq] at hf
    obtain ⟨⟨hm1, hd⟩, h8⟩ := hf
    have hr : reached r s = { s with cmd := { s.cmd with sbReady := s.cmd.sbReady.drop 1 } } := by simp only [reached, hs]
    have hj : judged r s = noteTaken r.h { s with cmd := { s.cmd with sbReady := s.cmd.sbReady.drop 1 } } := by rw [judged, hr]
    cases hb : s.cmd.sbReady with
    | nil => simp [hb] at hm1
    | cons m rest =>
      rw [hb] at hm1 hr hj
      simp only [List.drop_succ_cons, List.drop_zero] at hr hj hm1
      simp only []
      rw [if_pos hm1, if_neg (by
        have e1 : hasWait { s with cmd := { s.cmd with sbReady := rest } } r.h.src = false := by rw [hs]; exact hs ▸ hw
        have e2 : mainOn { s with cmd := { s.cmd with sbReady := rest } } = mainOn s := rfl
        rw [hs] at e1
        simp only [e1, e2, Bool.false_or, Bool.and_eq_true, Bool.not_eq_true', not_and, Bool.not_eq_false]
        intro h1; simpa [h1] using hd), if_neg (by rw [← hr, hm]; simp), takeUp_of_orderOk (hr ▸ ho),
        accept_of_passes (by rw [← hj, judged_keeps_hwd]; exact hq) (by rw [← hj]; simp; omega)
          (by rw [← hj]; simpa only [expOf, hs] using hc) hh (by rw [← hj]; exact ht), ← hj, hp]

end Sys2Proof.Machine
end

