-- ==== Sys2Proof/Laws/State.lean ====
section
/-! SUPPORT. Each named update of a part of the state: what it makes of every part. -/

set_option Elab.async false
set_option linter.all false

namespace Sys2Proof.Machine

/-! `onSec` -/
@[simp] theorem onSec_pending (f : SecSt → SecSt) (s : State) : (onSec f s).pending = s.pending := rfl
@[simp] theorem onSec_out (f : SecSt → SecSt) (s : State) : (onSec f s).out = s.out := rfl
@[simp] theorem onSec_free (f : SecSt → SecSt) (s : State) : (onSec f s).free = s.free := rfl
@[simp] theorem onSec_par (f : SecSt → SecSt) (s : State) : (onSec f s).par = s.par := rfl
@[simp] theorem onSec_parPend (f : SecSt → SecSt) (s : State) : (onSec f s).parPend = s.parPend := rfl
@[simp] theorem onSec_time (f : SecSt → SecSt) (s : State) : (onSec f s).time = s.time := rfl
@[simp] theorem onSec_mode (f : SecSt → SecSt) (s : State) : (onSec f s).mode = s.mode := rfl
@[simp] theorem onSec_pwr (f : SecSt → SecSt) (s : State) : (onSec f s).pwr = s.pwr := rfl
@[simp] theorem onSec_thm (f : SecSt → SecSt) (s : State) : (onSec f s).thm = s.thm := rfl
@[simp] theorem onSec_buf (f : SecSt → SecSt) (s : State) : (onSec f s).buf = s.buf := rfl
@[simp] theorem onSec_cmd (f : SecSt → SecSt) (s : State) : (onSec f s).cmd = s.cmd := rfl
@[simp] theorem onSec_evt (f : SecSt → SecSt) (s : State) : (onSec f s).evt = s.evt := rfl
@[simp] theorem onSec_mem (f : SecSt → SecSt) (s : State) : (onSec f s).mem = s.mem := rfl
@[simp] theorem onSec_pnl (f : SecSt → SecSt) (s : State) : (onSec f s).pnl = s.pnl := rfl
@[simp] theorem onSec_scene (f : SecSt → SecSt) (s : State) : (onSec f s).scene = s.scene := rfl
@[simp] theorem onSec_cdc (f : SecSt → SecSt) (s : State) : (onSec f s).cdc = s.cdc := rfl
@[simp] theorem onSec_syn (f : SecSt → SecSt) (s : State) : (onSec f s).syn = s.syn := rfl
@[simp] theorem onSec_cam (f : SecSt → SecSt) (s : State) : (onSec f s).cam = s.cam := rfl
@[simp] theorem onSec_scn (f : SecSt → SecSt) (s : State) : (onSec f s).scn = s.scn := rfl
@[simp] theorem onSec_plk (f : SecSt → SecSt) (s : State) : (onSec f s).plk = s.plk := rfl
@[simp] theorem onSec_std (f : SecSt → SecSt) (s : State) : (onSec f s).std = s.std := rfl
@[simp] theorem onSec_dmc (f : SecSt → SecSt) (s : State) : (onSec f s).dmc = s.dmc := rfl
@[simp] theorem onSec_net (f : SecSt → SecSt) (s : State) : (onSec f s).net = s.net := rfl
@[simp] theorem onSec_sbd (f : SecSt → SecSt) (s : State) : (onSec f s).sbd = s.sbd := rfl
@[simp] theorem onSec_nv (f : SecSt → SecSt) (s : State) : (onSec f s).nv = s.nv := rfl
@[simp] theorem onSec_cal (f : SecSt → SecSt) (s : State) : (onSec f s).cal = s.cal := rfl
@[simp] theorem onSec_bst (f : SecSt → SecSt) (s : State) : (onSec f s).bst = s.bst := rfl
@[simp] theorem onSec_sec (f : SecSt → SecSt) (s : State) : (onSec f s).sec = f s.sec := rfl
@[simp] theorem onSec_hwd (f : SecSt → SecSt) (s : State) : (onSec f s).hwd = s.hwd := rfl

/-! `onStd` -/
@[simp] theorem onStd_pending (f : StdSt → StdSt) (s : State) : (onStd f s).pending = s.pending := rfl
@[simp] theorem onStd_out (f : StdSt → StdSt) (s : State) : (onStd f s).out = s.out := rfl
@[simp] theorem onStd_free (f : StdSt → StdSt) (s : State) : (onStd f s).free = s.free := rfl
@[simp] theorem onStd_par (f : StdSt → StdSt) (s : State) : (onStd f s).par = s.par := rfl
@[simp] theorem onStd_parPend (f : StdSt → StdSt) (s : State) : (onStd f s).parPend = s.parPend := rfl
@[simp] theorem onStd_time (f : StdSt → StdSt) (s : State) : (onStd f s).time = s.time := rfl
@[simp] theorem onStd_mode (f : StdSt → StdSt) (s : State) : (onStd f s).mode = s.mode := rfl
@[simp] theorem onStd_pwr (f : StdSt → StdSt) (s : State) : (onStd f s).pwr = s.pwr := rfl
@[simp] theorem onStd_thm (f : StdSt → StdSt) (s : State) : (onStd f s).thm = s.thm := rfl
@[simp] theorem onStd_buf (f : StdSt → StdSt) (s : State) : (onStd f s).buf = s.buf := rfl
@[simp] theorem onStd_cmd (f : StdSt → StdSt) (s : State) : (onStd f s).cmd = s.cmd := rfl
@[simp] theorem onStd_evt (f : StdSt → StdSt) (s : State) : (onStd f s).evt = s.evt := rfl
@[simp] theorem onStd_mem (f : StdSt → StdSt) (s : State) : (onStd f s).mem = s.mem := rfl
@[simp] theorem onStd_pnl (f : StdSt → StdSt) (s : State) : (onStd f s).pnl = s.pnl := rfl
@[simp] theorem onStd_scene (f : StdSt → StdSt) (s : State) : (onStd f s).scene = s.scene := rfl
@[simp] theorem onStd_cdc (f : StdSt → StdSt) (s : State) : (onStd f s).cdc = s.cdc := rfl
@[simp] theorem onStd_syn (f : StdSt → StdSt) (s : State) : (onStd f s).syn = s.syn := rfl
@[simp] theorem onStd_cam (f : StdSt → StdSt) (s : State) : (onStd f s).cam = s.cam := rfl
@[simp] theorem onStd_scn (f : StdSt → StdSt) (s : State) : (onStd f s).scn = s.scn := rfl
@[simp] theorem onStd_plk (f : StdSt → StdSt) (s : State) : (onStd f s).plk = s.plk := rfl
@[simp] theorem onStd_std (f : StdSt → StdSt) (s : State) : (onStd f s).std = f s.std := rfl
@[simp] theorem onStd_dmc (f : StdSt → StdSt) (s : State) : (onStd f s).dmc = s.dmc := rfl
@[simp] theorem onStd_net (f : StdSt → StdSt) (s : State) : (onStd f s).net = s.net := rfl
@[simp] theorem onStd_sbd (f : StdSt → StdSt) (s : State) : (onStd f s).sbd = s.sbd := rfl
@[simp] theorem onStd_nv (f : StdSt → StdSt) (s : State) : (onStd f s).nv = s.nv := rfl
@[simp] theorem onStd_cal (f : StdSt → StdSt) (s : State) : (onStd f s).cal = s.cal := rfl
@[simp] theorem onStd_bst (f : StdSt → StdSt) (s : State) : (onStd f s).bst = s.bst := rfl
@[simp] theorem onStd_sec (f : StdSt → StdSt) (s : State) : (onStd f s).sec = s.sec := rfl
@[simp] theorem onStd_hwd (f : StdSt → StdSt) (s : State) : (onStd f s).hwd = s.hwd := rfl

/-! `onSyn` -/
@[simp] theorem onSyn_pending (f : SynSt → SynSt) (s : State) : (onSyn f s).pending = s.pending := rfl
@[simp] theorem onSyn_out (f : SynSt → SynSt) (s : State) : (onSyn f s).out = s.out := rfl
@[simp] theorem onSyn_free (f : SynSt → SynSt) (s : State) : (onSyn f s).free = s.free := rfl
@[simp] theorem onSyn_par (f : SynSt → SynSt) (s : State) : (onSyn f s).par = s.par := rfl
@[simp] theorem onSyn_parPend (f : SynSt → SynSt) (s : State) : (onSyn f s).parPend = s.parPend := rfl
@[simp] theorem onSyn_time (f : SynSt → SynSt) (s : State) : (onSyn f s).time = s.time := rfl
@[simp] theorem onSyn_mode (f : SynSt → SynSt) (s : State) : (onSyn f s).mode = s.mode := rfl
@[simp] theorem onSyn_pwr (f : SynSt → SynSt) (s : State) : (onSyn f s).pwr = s.pwr := rfl
@[simp] theorem onSyn_thm (f : SynSt → SynSt) (s : State) : (onSyn f s).thm = s.thm := rfl
@[simp] theorem onSyn_buf (f : SynSt → SynSt) (s : State) : (onSyn f s).buf = s.buf := rfl
@[simp] theorem onSyn_cmd (f : SynSt → SynSt) (s : State) : (onSyn f s).cmd = s.cmd := rfl
@[simp] theorem onSyn_evt (f : SynSt → SynSt) (s : State) : (onSyn f s).evt = s.evt := rfl
@[simp] theorem onSyn_mem (f : SynSt → SynSt) (s : State) : (onSyn f s).mem = s.mem := rfl
@[simp] theorem onSyn_pnl (f : SynSt → SynSt) (s : State) : (onSyn f s).pnl = s.pnl := rfl
@[simp] theorem onSyn_scene (f : SynSt → SynSt) (s : State) : (onSyn f s).scene = s.scene := rfl
@[simp] theorem onSyn_cdc (f : SynSt → SynSt) (s : State) : (onSyn f s).cdc = s.cdc := rfl
@[simp] theorem onSyn_syn (f : SynSt → SynSt) (s : State) : (onSyn f s).syn = f s.syn := rfl
@[simp] theorem onSyn_cam (f : SynSt → SynSt) (s : State) : (onSyn f s).cam = s.cam := rfl
@[simp] theorem onSyn_scn (f : SynSt → SynSt) (s : State) : (onSyn f s).scn = s.scn := rfl
@[simp] theorem onSyn_plk (f : SynSt → SynSt) (s : State) : (onSyn f s).plk = s.plk := rfl
@[simp] theorem onSyn_std (f : SynSt → SynSt) (s : State) : (onSyn f s).std = s.std := rfl
@[simp] theorem onSyn_dmc (f : SynSt → SynSt) (s : State) : (onSyn f s).dmc = s.dmc := rfl
@[simp] theorem onSyn_net (f : SynSt → SynSt) (s : State) : (onSyn f s).net = s.net := rfl
@[simp] theorem onSyn_sbd (f : SynSt → SynSt) (s : State) : (onSyn f s).sbd = s.sbd := rfl
@[simp] theorem onSyn_nv (f : SynSt → SynSt) (s : State) : (onSyn f s).nv = s.nv := rfl
@[simp] theorem onSyn_cal (f : SynSt → SynSt) (s : State) : (onSyn f s).cal = s.cal := rfl
@[simp] theorem onSyn_bst (f : SynSt → SynSt) (s : State) : (onSyn f s).bst = s.bst := rfl
@[simp] theorem onSyn_sec (f : SynSt → SynSt) (s : State) : (onSyn f s).sec = s.sec := rfl
@[simp] theorem onSyn_hwd (f : SynSt → SynSt) (s : State) : (onSyn f s).hwd = s.hwd := rfl

/-! `onCdc` -/
@[simp] theorem onCdc_pending (f : CdcSt → CdcSt) (s : State) : (onCdc f s).pending = s.pending := rfl
@[simp] theorem onCdc_out (f : CdcSt → CdcSt) (s : State) : (onCdc f s).out = s.out := rfl
@[simp] theorem onCdc_free (f : CdcSt → CdcSt) (s : State) : (onCdc f s).free = s.free := rfl
@[simp] theorem onCdc_par (f : CdcSt → CdcSt) (s : State) : (onCdc f s).par = s.par := rfl
@[simp] theorem onCdc_parPend (f : CdcSt → CdcSt) (s : State) : (onCdc f s).parPend = s.parPend := rfl
@[simp] theorem onCdc_time (f : CdcSt → CdcSt) (s : State) : (onCdc f s).time = s.time := rfl
@[simp] theorem onCdc_mode (f : CdcSt → CdcSt) (s : State) : (onCdc f s).mode = s.mode := rfl
@[simp] theorem onCdc_pwr (f : CdcSt → CdcSt) (s : State) : (onCdc f s).pwr = s.pwr := rfl
@[simp] theorem onCdc_thm (f : CdcSt → CdcSt) (s : State) : (onCdc f s).thm = s.thm := rfl
@[simp] theorem onCdc_buf (f : CdcSt → CdcSt) (s : State) : (onCdc f s).buf = s.buf := rfl
@[simp] theorem onCdc_cmd (f : CdcSt → CdcSt) (s : State) : (onCdc f s).cmd = s.cmd := rfl
@[simp] theorem onCdc_evt (f : CdcSt → CdcSt) (s : State) : (onCdc f s).evt = s.evt := rfl
@[simp] theorem onCdc_mem (f : CdcSt → CdcSt) (s : State) : (onCdc f s).mem = s.mem := rfl
@[simp] theorem onCdc_pnl (f : CdcSt → CdcSt) (s : State) : (onCdc f s).pnl = s.pnl := rfl
@[simp] theorem onCdc_scene (f : CdcSt → CdcSt) (s : State) : (onCdc f s).scene = s.scene := rfl
@[simp] theorem onCdc_cdc (f : CdcSt → CdcSt) (s : State) : (onCdc f s).cdc = f s.cdc := rfl
@[simp] theorem onCdc_syn (f : CdcSt → CdcSt) (s : State) : (onCdc f s).syn = s.syn := rfl
@[simp] theorem onCdc_cam (f : CdcSt → CdcSt) (s : State) : (onCdc f s).cam = s.cam := rfl
@[simp] theorem onCdc_scn (f : CdcSt → CdcSt) (s : State) : (onCdc f s).scn = s.scn := rfl
@[simp] theorem onCdc_plk (f : CdcSt → CdcSt) (s : State) : (onCdc f s).plk = s.plk := rfl
@[simp] theorem onCdc_std (f : CdcSt → CdcSt) (s : State) : (onCdc f s).std = s.std := rfl
@[simp] theorem onCdc_dmc (f : CdcSt → CdcSt) (s : State) : (onCdc f s).dmc = s.dmc := rfl
@[simp] theorem onCdc_net (f : CdcSt → CdcSt) (s : State) : (onCdc f s).net = s.net := rfl
@[simp] theorem onCdc_sbd (f : CdcSt → CdcSt) (s : State) : (onCdc f s).sbd = s.sbd := rfl
@[simp] theorem onCdc_nv (f : CdcSt → CdcSt) (s : State) : (onCdc f s).nv = s.nv := rfl
@[simp] theorem onCdc_cal (f : CdcSt → CdcSt) (s : State) : (onCdc f s).cal = s.cal := rfl
@[simp] theorem onCdc_bst (f : CdcSt → CdcSt) (s : State) : (onCdc f s).bst = s.bst := rfl
@[simp] theorem onCdc_sec (f : CdcSt → CdcSt) (s : State) : (onCdc f s).sec = s.sec := rfl
@[simp] theorem onCdc_hwd (f : CdcSt → CdcSt) (s : State) : (onCdc f s).hwd = s.hwd := rfl

/-! `onCam` -/
@[simp] theorem onCam_pending (f : CamSt → CamSt) (s : State) : (onCam f s).pending = s.pending := rfl
@[simp] theorem onCam_out (f : CamSt → CamSt) (s : State) : (onCam f s).out = s.out := rfl
@[simp] theorem onCam_free (f : CamSt → CamSt) (s : State) : (onCam f s).free = s.free := rfl
@[simp] theorem onCam_par (f : CamSt → CamSt) (s : State) : (onCam f s).par = s.par := rfl
@[simp] theorem onCam_parPend (f : CamSt → CamSt) (s : State) : (onCam f s).parPend = s.parPend := rfl
@[simp] theorem onCam_time (f : CamSt → CamSt) (s : State) : (onCam f s).time = s.time := rfl
@[simp] theorem onCam_mode (f : CamSt → CamSt) (s : State) : (onCam f s).mode = s.mode := rfl
@[simp] theorem onCam_pwr (f : CamSt → CamSt) (s : State) : (onCam f s).pwr = s.pwr := rfl
@[simp] theorem onCam_thm (f : CamSt → CamSt) (s : State) : (onCam f s).thm = s.thm := rfl
@[simp] theorem onCam_buf (f : CamSt → CamSt) (s : State) : (onCam f s).buf = s.buf := rfl
@[simp] theorem onCam_cmd (f : CamSt → CamSt) (s : State) : (onCam f s).cmd = s.cmd := rfl
@[simp] theorem onCam_evt (f : CamSt → CamSt) (s : State) : (onCam f s).evt = s.evt := rfl
@[simp] theorem onCam_mem (f : CamSt → CamSt) (s : State) : (onCam f s).mem = s.mem := rfl
@[simp] theorem onCam_pnl (f : CamSt → CamSt) (s : State) : (onCam f s).pnl = s.pnl := rfl
@[simp] theorem onCam_scene (f : CamSt → CamSt) (s : State) : (onCam f s).scene = s.scene := rfl
@[simp] theorem onCam_cdc (f : CamSt → CamSt) (s : State) : (onCam f s).cdc = s.cdc := rfl
@[simp] theorem onCam_syn (f : CamSt → CamSt) (s : State) : (onCam f s).syn = s.syn := rfl
@[simp] theorem onCam_cam (f : CamSt → CamSt) (s : State) : (onCam f s).cam = f s.cam := rfl
@[simp] theorem onCam_scn (f : CamSt → CamSt) (s : State) : (onCam f s).scn = s.scn := rfl
@[simp] theorem onCam_plk (f : CamSt → CamSt) (s : State) : (onCam f s).plk = s.plk := rfl
@[simp] theorem onCam_std (f : CamSt → CamSt) (s : State) : (onCam f s).std = s.std := rfl
@[simp] theorem onCam_dmc (f : CamSt → CamSt) (s : State) : (onCam f s).dmc = s.dmc := rfl
@[simp] theorem onCam_net (f : CamSt → CamSt) (s : State) : (onCam f s).net = s.net := rfl
@[simp] theorem onCam_sbd (f : CamSt → CamSt) (s : State) : (onCam f s).sbd = s.sbd := rfl
@[simp] theorem onCam_nv (f : CamSt → CamSt) (s : State) : (onCam f s).nv = s.nv := rfl
@[simp] theorem onCam_cal (f : CamSt → CamSt) (s : State) : (onCam f s).cal = s.cal := rfl
@[simp] theorem onCam_bst (f : CamSt → CamSt) (s : State) : (onCam f s).bst = s.bst := rfl
@[simp] theorem onCam_sec (f : CamSt → CamSt) (s : State) : (onCam f s).sec = s.sec := rfl
@[simp] theorem onCam_hwd (f : CamSt → CamSt) (s : State) : (onCam f s).hwd = s.hwd := rfl

/-! `onScn` -/
@[simp] theorem onScn_pending (f : ScnSt → ScnSt) (s : State) : (onScn f s).pending = s.pending := rfl
@[simp] theorem onScn_out (f : ScnSt → ScnSt) (s : State) : (onScn f s).out = s.out := rfl
@[simp] theorem onScn_free (f : ScnSt → ScnSt) (s : State) : (onScn f s).free = s.free := rfl
@[simp] theorem onScn_par (f : ScnSt → ScnSt) (s : State) : (onScn f s).par = s.par := rfl
@[simp] theorem onScn_parPend (f : ScnSt → ScnSt) (s : State) : (onScn f s).parPend = s.parPend := rfl
@[simp] theorem onScn_time (f : ScnSt → ScnSt) (s : State) : (onScn f s).time = s.time := rfl
@[simp] theorem onScn_mode (f : ScnSt → ScnSt) (s : State) : (onScn f s).mode = s.mode := rfl
@[simp] theorem onScn_pwr (f : ScnSt → ScnSt) (s : State) : (onScn f s).pwr = s.pwr := rfl
@[simp] theorem onScn_thm (f : ScnSt → ScnSt) (s : State) : (onScn f s).thm = s.thm := rfl
@[simp] theorem onScn_buf (f : ScnSt → ScnSt) (s : State) : (onScn f s).buf = s.buf := rfl
@[simp] theorem onScn_cmd (f : ScnSt → ScnSt) (s : State) : (onScn f s).cmd = s.cmd := rfl
@[simp] theorem onScn_evt (f : ScnSt → ScnSt) (s : State) : (onScn f s).evt = s.evt := rfl
@[simp] theorem onScn_mem (f : ScnSt → ScnSt) (s : State) : (onScn f s).mem = s.mem := rfl
@[simp] theorem onScn_pnl (f : ScnSt → ScnSt) (s : State) : (onScn f s).pnl = s.pnl := rfl
@[simp] theorem onScn_scene (f : ScnSt → ScnSt) (s : State) : (onScn f s).scene = s.scene := rfl
@[simp] theorem onScn_cdc (f : ScnSt → ScnSt) (s : State) : (onScn f s).cdc = s.cdc := rfl
@[simp] theorem onScn_syn (f : ScnSt → ScnSt) (s : State) : (onScn f s).syn = s.syn := rfl
@[simp] theorem onScn_cam (f : ScnSt → ScnSt) (s : State) : (onScn f s).cam = s.cam := rfl
@[simp] theorem onScn_scn (f : ScnSt → ScnSt) (s : State) : (onScn f s).scn = f s.scn := rfl
@[simp] theorem onScn_plk (f : ScnSt → ScnSt) (s : State) : (onScn f s).plk = s.plk := rfl
@[simp] theorem onScn_std (f : ScnSt → ScnSt) (s : State) : (onScn f s).std = s.std := rfl
@[simp] theorem onScn_dmc (f : ScnSt → ScnSt) (s : State) : (onScn f s).dmc = s.dmc := rfl
@[simp] theorem onScn_net (f : ScnSt → ScnSt) (s : State) : (onScn f s).net = s.net := rfl
@[simp] theorem onScn_sbd (f : ScnSt → ScnSt) (s : State) : (onScn f s).sbd = s.sbd := rfl
@[simp] theorem onScn_nv (f : ScnSt → ScnSt) (s : State) : (onScn f s).nv = s.nv := rfl
@[simp] theorem onScn_cal (f : ScnSt → ScnSt) (s : State) : (onScn f s).cal = s.cal := rfl
@[simp] theorem onScn_bst (f : ScnSt → ScnSt) (s : State) : (onScn f s).bst = s.bst := rfl
@[simp] theorem onScn_sec (f : ScnSt → ScnSt) (s : State) : (onScn f s).sec = s.sec := rfl
@[simp] theorem onScn_hwd (f : ScnSt → ScnSt) (s : State) : (onScn f s).hwd = s.hwd := rfl

/-! `onNet` -/
@[simp] theorem onNet_pending (f : NetSt → NetSt) (s : State) : (onNet f s).pending = s.pending := rfl
@[simp] theorem onNet_out (f : NetSt → NetSt) (s : State) : (onNet f s).out = s.out := rfl
@[simp] theorem onNet_free (f : NetSt → NetSt) (s : State) : (onNet f s).free = s.free := rfl
@[simp] theorem onNet_par (f : NetSt → NetSt) (s : State) : (onNet f s).par = s.par := rfl
@[simp] theorem onNet_parPend (f : NetSt → NetSt) (s : State) : (onNet f s).parPend = s.parPend := rfl
@[simp] theorem onNet_time (f : NetSt → NetSt) (s : State) : (onNet f s).time = s.time := rfl
@[simp] theorem onNet_mode (f : NetSt → NetSt) (s : State) : (onNet f s).mode = s.mode := rfl
@[simp] theorem onNet_pwr (f : NetSt → NetSt) (s : State) : (onNet f s).pwr = s.pwr := rfl
@[simp] theorem onNet_thm (f : NetSt → NetSt) (s : State) : (onNet f s).thm = s.thm := rfl
@[simp] theorem onNet_buf (f : NetSt → NetSt) (s : State) : (onNet f s).buf = s.buf := rfl
@[simp] theorem onNet_cmd (f : NetSt → NetSt) (s : State) : (onNet f s).cmd = s.cmd := rfl
@[simp] theorem onNet_evt (f : NetSt → NetSt) (s : State) : (onNet f s).evt = s.evt := rfl
@[simp] theorem onNet_mem (f : NetSt → NetSt) (s : State) : (onNet f s).mem = s.mem := rfl
@[simp] theorem onNet_pnl (f : NetSt → NetSt) (s : State) : (onNet f s).pnl = s.pnl := rfl
@[simp] theorem onNet_scene (f : NetSt → NetSt) (s : State) : (onNet f s).scene = s.scene := rfl
@[simp] theorem onNet_cdc (f : NetSt → NetSt) (s : State) : (onNet f s).cdc = s.cdc := rfl
@[simp] theorem onNet_syn (f : NetSt → NetSt) (s : State) : (onNet f s).syn = s.syn := rfl
@[simp] theorem onNet_cam (f : NetSt → NetSt) (s : State) : (onNet f s).cam = s.cam := rfl
@[simp] theorem onNet_scn (f : NetSt → NetSt) (s : State) : (onNet f s).scn = s.scn := rfl
@[simp] theorem onNet_plk (f : NetSt → NetSt) (s : State) : (onNet f s).plk = s.plk := rfl
@[simp] theorem onNet_std (f : NetSt → NetSt) (s : State) : (onNet f s).std = s.std := rfl
@[simp] theorem onNet_dmc (f : NetSt → NetSt) (s : State) : (onNet f s).dmc = s.dmc := rfl
@[simp] theorem onNet_net (f : NetSt → NetSt) (s : State) : (onNet f s).net = f s.net := rfl
@[simp] theorem onNet_sbd (f : NetSt → NetSt) (s : State) : (onNet f s).sbd = s.sbd := rfl
@[simp] theorem onNet_nv (f : NetSt → NetSt) (s : State) : (onNet f s).nv = s.nv := rfl
@[simp] theorem onNet_cal (f : NetSt → NetSt) (s : State) : (onNet f s).cal = s.cal := rfl
@[simp] theorem onNet_bst (f : NetSt → NetSt) (s : State) : (onNet f s).bst = s.bst := rfl
@[simp] theorem onNet_sec (f : NetSt → NetSt) (s : State) : (onNet f s).sec = s.sec := rfl
@[simp] theorem onNet_hwd (f : NetSt → NetSt) (s : State) : (onNet f s).hwd = s.hwd := rfl

/-! `onMode` -/
@[simp] theorem onMode_pending (f : ModeSt → ModeSt) (s : State) : (onMode f s).pending = s.pending := rfl
@[simp] theorem onMode_out (f : ModeSt → ModeSt) (s : State) : (onMode f s).out = s.out := rfl
@[simp] theorem onMode_free (f : ModeSt → ModeSt) (s : State) : (onMode f s).free = s.free := rfl
@[simp] theorem onMode_par (f : ModeSt → ModeSt) (s : State) : (onMode f s).par = s.par := rfl
@[simp] theorem onMode_parPend (f : ModeSt → ModeSt) (s : State) : (onMode f s).parPend = s.parPend := rfl
@[simp] theorem onMode_time (f : ModeSt → ModeSt) (s : State) : (onMode f s).time = s.time := rfl
@[simp] theorem onMode_mode (f : ModeSt → ModeSt) (s : State) : (onMode f s).mode = f s.mode := rfl
@[simp] theorem onMode_pwr (f : ModeSt → ModeSt) (s : State) : (onMode f s).pwr = s.pwr := rfl
@[simp] theorem onMode_thm (f : ModeSt → ModeSt) (s : State) : (onMode f s).thm = s.thm := rfl
@[simp] theorem onMode_buf (f : ModeSt → ModeSt) (s : State) : (onMode f s).buf = s.buf := rfl
@[simp] theorem onMode_cmd (f : ModeSt → ModeSt) (s : State) : (onMode f s).cmd = s.cmd := rfl
@[simp] theorem onMode_evt (f : ModeSt → ModeSt) (s : State) : (onMode f s).evt = s.evt := rfl
@[simp] theorem onMode_mem (f : ModeSt → ModeSt) (s : State) : (onMode f s).mem = s.mem := rfl
@[simp] theorem onMode_pnl (f : ModeSt → ModeSt) (s : State) : (onMode f s).pnl = s.pnl := rfl
@[simp] theorem onMode_scene (f : ModeSt → ModeSt) (s : State) : (onMode f s).scene = s.scene := rfl
@[simp] theorem onMode_cdc (f : ModeSt → ModeSt) (s : State) : (onMode f s).cdc = s.cdc := rfl
@[simp] theorem onMode_syn (f : ModeSt → ModeSt) (s : State) : (onMode f s).syn = s.syn := rfl
@[simp] theorem onMode_cam (f : ModeSt → ModeSt) (s : State) : (onMode f s).cam = s.cam := rfl
@[simp] theorem onMode_scn (f : ModeSt → ModeSt) (s : State) : (onMode f s).scn = s.scn := rfl
@[simp] theorem onMode_plk (f : ModeSt → ModeSt) (s : State) : (onMode f s).plk = s.plk := rfl
@[simp] theorem onMode_std (f : ModeSt → ModeSt) (s : State) : (onMode f s).std = s.std := rfl
@[simp] theorem onMode_dmc (f : ModeSt → ModeSt) (s : State) : (onMode f s).dmc = s.dmc := rfl
@[simp] theorem onMode_net (f : ModeSt → ModeSt) (s : State) : (onMode f s).net = s.net := rfl
@[simp] theorem onMode_sbd (f : ModeSt → ModeSt) (s : State) : (onMode f s).sbd = s.sbd := rfl
@[simp] theorem onMode_nv (f : ModeSt → ModeSt) (s : State) : (onMode f s).nv = s.nv := rfl
@[simp] theorem onMode_cal (f : ModeSt → ModeSt) (s : State) : (onMode f s).cal = s.cal := rfl
@[simp] theorem onMode_bst (f : ModeSt → ModeSt) (s : State) : (onMode f s).bst = s.bst := rfl
@[simp] theorem onMode_sec (f : ModeSt → ModeSt) (s : State) : (onMode f s).sec = s.sec := rfl
@[simp] theorem onMode_hwd (f : ModeSt → ModeSt) (s : State) : (onMode f s).hwd = s.hwd := rfl

/-! `onThm` -/
@[simp] theorem onThm_pending (f : ThmSt → ThmSt) (s : State) : (onThm f s).pending = s.pending := rfl
@[simp] theorem onThm_out (f : ThmSt → ThmSt) (s : State) : (onThm f s).out = s.out := rfl
@[simp] theorem onThm_free (f : ThmSt → ThmSt) (s : State) : (onThm f s).free = s.free := rfl
@[simp] theorem onThm_par (f : ThmSt → ThmSt) (s : State) : (onThm f s).par = s.par := rfl
@[simp] theorem onThm_parPend (f : ThmSt → ThmSt) (s : State) : (onThm f s).parPend = s.parPend := rfl
@[simp] theorem onThm_time (f : ThmSt → ThmSt) (s : State) : (onThm f s).time = s.time := rfl
@[simp] theorem onThm_mode (f : ThmSt → ThmSt) (s : State) : (onThm f s).mode = s.mode := rfl
@[simp] theorem onThm_pwr (f : ThmSt → ThmSt) (s : State) : (onThm f s).pwr = s.pwr := rfl
@[simp] theorem onThm_thm (f : ThmSt → ThmSt) (s : State) : (onThm f s).thm = f s.thm := rfl
@[simp] theorem onThm_buf (f : ThmSt → ThmSt) (s : State) : (onThm f s).buf = s.buf := rfl
@[simp] theorem onThm_cmd (f : ThmSt → ThmSt) (s : State) : (onThm f s).cmd = s.cmd := rfl
@[simp] theorem onThm_evt (f : ThmSt → ThmSt) (s : State) : (onThm f s).evt = s.evt := rfl
@[simp] theorem onThm_mem (f : ThmSt → ThmSt) (s : State) : (onThm f s).mem = s.mem := rfl
@[simp] theorem onThm_pnl (f : ThmSt → ThmSt) (s : State) : (onThm f s).pnl = s.pnl := rfl
@[simp] theorem onThm_scene (f : ThmSt → ThmSt) (s : State) : (onThm f s).scene = s.scene := rfl
@[simp] theorem onThm_cdc (f : ThmSt → ThmSt) (s : State) : (onThm f s).cdc = s.cdc := rfl
@[simp] theorem onThm_syn (f : ThmSt → ThmSt) (s : State) : (onThm f s).syn = s.syn := rfl
@[simp] theorem onThm_cam (f : ThmSt → ThmSt) (s : State) : (onThm f s).cam = s.cam := rfl
@[simp] theorem onThm_scn (f : ThmSt → ThmSt) (s : State) : (onThm f s).scn = s.scn := rfl
@[simp] theorem onThm_plk (f : ThmSt → ThmSt) (s : State) : (onThm f s).plk = s.plk := rfl
@[simp] theorem onThm_std (f : ThmSt → ThmSt) (s : State) : (onThm f s).std = s.std := rfl
@[simp] theorem onThm_dmc (f : ThmSt → ThmSt) (s : State) : (onThm f s).dmc = s.dmc := rfl
@[simp] theorem onThm_net (f : ThmSt → ThmSt) (s : State) : (onThm f s).net = s.net := rfl
@[simp] theorem onThm_sbd (f : ThmSt → ThmSt) (s : State) : (onThm f s).sbd = s.sbd := rfl
@[simp] theorem onThm_nv (f : ThmSt → ThmSt) (s : State) : (onThm f s).nv = s.nv := rfl
@[simp] theorem onThm_cal (f : ThmSt → ThmSt) (s : State) : (onThm f s).cal = s.cal := rfl
@[simp] theorem onThm_bst (f : ThmSt → ThmSt) (s : State) : (onThm f s).bst = s.bst := rfl
@[simp] theorem onThm_sec (f : ThmSt → ThmSt) (s : State) : (onThm f s).sec = s.sec := rfl
@[simp] theorem onThm_hwd (f : ThmSt → ThmSt) (s : State) : (onThm f s).hwd = s.hwd := rfl

/-! `onDmc` -/
@[simp] theorem onDmc_pending (f : DmcSt → DmcSt) (s : State) : (onDmc f s).pending = s.pending := rfl
@[simp] theorem onDmc_out (f : DmcSt → DmcSt) (s : State) : (onDmc f s).out = s.out := rfl
@[simp] theorem onDmc_free (f : DmcSt → DmcSt) (s : State) : (onDmc f s).free = s.free := rfl
@[simp] theorem onDmc_par (f : DmcSt → DmcSt) (s : State) : (onDmc f s).par = s.par := rfl
@[simp] theorem onDmc_parPend (f : DmcSt → DmcSt) (s : State) : (onDmc f s).parPend = s.parPend := rfl
@[simp] theorem onDmc_time (f : DmcSt → DmcSt) (s : State) : (onDmc f s).time = s.time := rfl
@[simp] theorem onDmc_mode (f : DmcSt → DmcSt) (s : State) : (onDmc f s).mode = s.mode := rfl
@[simp] theorem onDmc_pwr (f : DmcSt → DmcSt) (s : State) : (onDmc f s).pwr = s.pwr := rfl
@[simp] theorem onDmc_thm (f : DmcSt → DmcSt) (s : State) : (onDmc f s).thm = s.thm := rfl
@[simp] theorem onDmc_buf (f : DmcSt → DmcSt) (s : State) : (onDmc f s).buf = s.buf := rfl
@[simp] theorem onDmc_cmd (f : DmcSt → DmcSt) (s : State) : (onDmc f s).cmd = s.cmd := rfl
@[simp] theorem onDmc_evt (f : DmcSt → DmcSt) (s : State) : (onDmc f s).evt = s.evt := rfl
@[simp] theorem onDmc_mem (f : DmcSt → DmcSt) (s : State) : (onDmc f s).mem = s.mem := rfl
@[simp] theorem onDmc_pnl (f : DmcSt → DmcSt) (s : State) : (onDmc f s).pnl = s.pnl := rfl
@[simp] theorem onDmc_scene (f : DmcSt → DmcSt) (s : State) : (onDmc f s).scene = s.scene := rfl
@[simp] theorem onDmc_cdc (f : DmcSt → DmcSt) (s : State) : (onDmc f s).cdc = s.cdc := rfl
@[simp] theorem onDmc_syn (f : DmcSt → DmcSt) (s : State) : (onDmc f s).syn = s.syn := rfl
@[simp] theorem onDmc_cam (f : DmcSt → DmcSt) (s : State) : (onDmc f s).cam = s.cam := rfl
@[simp] theorem onDmc_scn (f : DmcSt → DmcSt) (s : State) : (onDmc f s).scn = s.scn := rfl
@[simp] theorem onDmc_plk (f : DmcSt → DmcSt) (s : State) : (onDmc f s).plk = s.plk := rfl
@[simp] theorem onDmc_std (f : DmcSt → DmcSt) (s : State) : (onDmc f s).std = s.std := rfl
@[simp] theorem onDmc_dmc (f : DmcSt → DmcSt) (s : State) : (onDmc f s).dmc = f s.dmc := rfl
@[simp] theorem onDmc_net (f : DmcSt → DmcSt) (s : State) : (onDmc f s).net = s.net := rfl
@[simp] theorem onDmc_sbd (f : DmcSt → DmcSt) (s : State) : (onDmc f s).sbd = s.sbd := rfl
@[simp] theorem onDmc_nv (f : DmcSt → DmcSt) (s : State) : (onDmc f s).nv = s.nv := rfl
@[simp] theorem onDmc_cal (f : DmcSt → DmcSt) (s : State) : (onDmc f s).cal = s.cal := rfl
@[simp] theorem onDmc_bst (f : DmcSt → DmcSt) (s : State) : (onDmc f s).bst = s.bst := rfl
@[simp] theorem onDmc_sec (f : DmcSt → DmcSt) (s : State) : (onDmc f s).sec = s.sec := rfl
@[simp] theorem onDmc_hwd (f : DmcSt → DmcSt) (s : State) : (onDmc f s).hwd = s.hwd := rfl

/-! `onHwd` -/
@[simp] theorem onHwd_pending (f : HwdSt → HwdSt) (s : State) : (onHwd f s).pending = s.pending := rfl
@[simp] theorem onHwd_out (f : HwdSt → HwdSt) (s : State) : (onHwd f s).out = s.out := rfl
@[simp] theorem onHwd_free (f : HwdSt → HwdSt) (s : State) : (onHwd f s).free = s.free := rfl
@[simp] theorem onHwd_par (f : HwdSt → HwdSt) (s : State) : (onHwd f s).par = s.par := rfl
@[simp] theorem onHwd_parPend (f : HwdSt → HwdSt) (s : State) : (onHwd f s).parPend = s.parPend := rfl
@[simp] theorem onHwd_time (f : HwdSt → HwdSt) (s : State) : (onHwd f s).time = s.time := rfl
@[simp] theorem onHwd_mode (f : HwdSt → HwdSt) (s : State) : (onHwd f s).mode = s.mode := rfl
@[simp] theorem onHwd_pwr (f : HwdSt → HwdSt) (s : State) : (onHwd f s).pwr = s.pwr := rfl
@[simp] theorem onHwd_thm (f : HwdSt → HwdSt) (s : State) : (onHwd f s).thm = s.thm := rfl
@[simp] theorem onHwd_buf (f : HwdSt → HwdSt) (s : State) : (onHwd f s).buf = s.buf := rfl
@[simp] theorem onHwd_cmd (f : HwdSt → HwdSt) (s : State) : (onHwd f s).cmd = s.cmd := rfl
@[simp] theorem onHwd_evt (f : HwdSt → HwdSt) (s : State) : (onHwd f s).evt = s.evt := rfl
@[simp] theorem onHwd_mem (f : HwdSt → HwdSt) (s : State) : (onHwd f s).mem = s.mem := rfl
@[simp] theorem onHwd_pnl (f : HwdSt → HwdSt) (s : State) : (onHwd f s).pnl = s.pnl := rfl
@[simp] theorem onHwd_scene (f : HwdSt → HwdSt) (s : State) : (onHwd f s).scene = s.scene := rfl
@[simp] theorem onHwd_cdc (f : HwdSt → HwdSt) (s : State) : (onHwd f s).cdc = s.cdc := rfl
@[simp] theorem onHwd_syn (f : HwdSt → HwdSt) (s : State) : (onHwd f s).syn = s.syn := rfl
@[simp] theorem onHwd_cam (f : HwdSt → HwdSt) (s : State) : (onHwd f s).cam = s.cam := rfl
@[simp] theorem onHwd_scn (f : HwdSt → HwdSt) (s : State) : (onHwd f s).scn = s.scn := rfl
@[simp] theorem onHwd_plk (f : HwdSt → HwdSt) (s : State) : (onHwd f s).plk = s.plk := rfl
@[simp] theorem onHwd_std (f : HwdSt → HwdSt) (s : State) : (onHwd f s).std = s.std := rfl
@[simp] theorem onHwd_dmc (f : HwdSt → HwdSt) (s : State) : (onHwd f s).dmc = s.dmc := rfl
@[simp] theorem onHwd_net (f : HwdSt → HwdSt) (s : State) : (onHwd f s).net = s.net := rfl
@[simp] theorem onHwd_sbd (f : HwdSt → HwdSt) (s : State) : (onHwd f s).sbd = s.sbd := rfl
@[simp] theorem onHwd_nv (f : HwdSt → HwdSt) (s : State) : (onHwd f s).nv = s.nv := rfl
@[simp] theorem onHwd_cal (f : HwdSt → HwdSt) (s : State) : (onHwd f s).cal = s.cal := rfl
@[simp] theorem onHwd_bst (f : HwdSt → HwdSt) (s : State) : (onHwd f s).bst = s.bst := rfl
@[simp] theorem onHwd_sec (f : HwdSt → HwdSt) (s : State) : (onHwd f s).sec = s.sec := rfl
@[simp] theorem onHwd_hwd (f : HwdSt → HwdSt) (s : State) : (onHwd f s).hwd = f s.hwd := rfl

/-! `onPnl` -/
@[simp] theorem onPnl_pending (f : PanelSt → PanelSt) (s : State) : (onPnl f s).pending = s.pending := rfl
@[simp] theorem onPnl_out (f : PanelSt → PanelSt) (s : State) : (onPnl f s).out = s.out := rfl
@[simp] theorem onPnl_free (f : PanelSt → PanelSt) (s : State) : (onPnl f s).free = s.free := rfl
@[simp] theorem onPnl_par (f : PanelSt → PanelSt) (s : State) : (onPnl f s).par = s.par := rfl
@[simp] theorem onPnl_parPend (f : PanelSt → PanelSt) (s : State) : (onPnl f s).parPend = s.parPend := rfl
@[simp] theorem onPnl_time (f : PanelSt → PanelSt) (s : State) : (onPnl f s).time = s.time := rfl
@[simp] theorem onPnl_mode (f : PanelSt → PanelSt) (s : State) : (onPnl f s).mode = s.mode := rfl
@[simp] theorem onPnl_pwr (f : PanelSt → PanelSt) (s : State) : (onPnl f s).pwr = s.pwr := rfl
@[simp] theorem onPnl_thm (f : PanelSt → PanelSt) (s : State) : (onPnl f s).thm = s.thm := rfl
@[simp] theorem onPnl_buf (f : PanelSt → PanelSt) (s : State) : (onPnl f s).buf = s.buf := rfl
@[simp] theorem onPnl_cmd (f : PanelSt → PanelSt) (s : State) : (onPnl f s).cmd = s.cmd := rfl
@[simp] theorem onPnl_evt (f : PanelSt → PanelSt) (s : State) : (onPnl f s).evt = s.evt := rfl
@[simp] theorem onPnl_mem (f : PanelSt → PanelSt) (s : State) : (onPnl f s).mem = s.mem := rfl
@[simp] theorem onPnl_pnl (f : PanelSt → PanelSt) (s : State) : (onPnl f s).pnl = f s.pnl := rfl
@[simp] theorem onPnl_scene (f : PanelSt → PanelSt) (s : State) : (onPnl f s).scene = s.scene := rfl
@[simp] theorem onPnl_cdc (f : PanelSt → PanelSt) (s : State) : (onPnl f s).cdc = s.cdc := rfl
@[simp] theorem onPnl_syn (f : PanelSt → PanelSt) (s : State) : (onPnl f s).syn = s.syn := rfl
@[simp] theorem onPnl_cam (f : PanelSt → PanelSt) (s : State) : (onPnl f s).cam = s.cam := rfl
@[simp] theorem onPnl_scn (f : PanelSt → PanelSt) (s : State) : (onPnl f s).scn = s.scn := rfl
@[simp] theorem onPnl_plk (f : PanelSt → PanelSt) (s : State) : (onPnl f s).plk = s.plk := rfl
@[simp] theorem onPnl_std (f : PanelSt → PanelSt) (s : State) : (onPnl f s).std = s.std := rfl
@[simp] theorem onPnl_dmc (f : PanelSt → PanelSt) (s : State) : (onPnl f s).dmc = s.dmc := rfl
@[simp] theorem onPnl_net (f : PanelSt → PanelSt) (s : State) : (onPnl f s).net = s.net := rfl
@[simp] theorem onPnl_sbd (f : PanelSt → PanelSt) (s : State) : (onPnl f s).sbd = s.sbd := rfl
@[simp] theorem onPnl_nv (f : PanelSt → PanelSt) (s : State) : (onPnl f s).nv = s.nv := rfl
@[simp] theorem onPnl_cal (f : PanelSt → PanelSt) (s : State) : (onPnl f s).cal = s.cal := rfl
@[simp] theorem onPnl_bst (f : PanelSt → PanelSt) (s : State) : (onPnl f s).bst = s.bst := rfl
@[simp] theorem onPnl_sec (f : PanelSt → PanelSt) (s : State) : (onPnl f s).sec = s.sec := rfl
@[simp] theorem onPnl_hwd (f : PanelSt → PanelSt) (s : State) : (onPnl f s).hwd = s.hwd := rfl

end Sys2Proof.Machine
end

