-- ==== Sys2Proof/WellFormed.lean ====
section
/-! DEFINITION. Which terms of `Instr` stand for something that can reach the block: a packet whose lists are as long as its
PLEN says (R396 and the parameter tables), a reading with one value per sensor, a measurement with one range per item. -/

namespace Sys2Proof

/-- PLEN lies within its table's range, 0 to 28 (R396). -/
def hdrOk (h : Hdr) : Bool := h.plen.toNat ≤ 28

/-- A thermal reading has one value for each of the 24 die sensors (R305). -/
def thmOk (t : ThmRead) : Bool := t.die.length == 24

/-- A measurement has four read and four write ranges (R352). -/
def rangesOk (m : DmcMeas) : Bool := m.rd.length == 4 && m.wr.length == 4

/-- DATA of KEY_INSTALL fills the units after the first (R518). -/
def keyOk (h : Hdr) (p : KeyInstallP) : Bool := hdrOk h && p.data.length + 8 == 8 * h.plen.toNat

/-- Inline DATA of FW_CHUNK fills the units after the second; bytes read from host memory are LENGTH in number (R521). -/
def chunkOk (h : Hdr) (p : FwChunkP) : Bool :=
  if p.src = 0 then p.data.length + 16 == 8 * h.plen.toNat else p.data.length ≤ p.length.toNat

/-- Inline DATA of NV_WRITE fills the units after the third; bytes read from host memory are LENGTH in number (R473). -/
def inlineOk (h : Hdr) (p : NvAccessP) (data : List Byte) : Bool :=
  if p.flags.toNat.testBit 1 then data.length + 24 == 8 * h.plen.toNat else data.length ≤ p.len.toNat

/-- The well-formed commands. -/
def wellFormed (i : Instr) : Bool :=
  match i with
  | .bandInstant _ => true
  | .flatRowWrite _ => true
  | .scnHeadFault _ => true
  | .timingSet h _ => hdrOk h
  | .layerSet h _ => hdrOk h
  | .layerEnable h _ => hdrOk h
  | .starlightSet h p => hdrOk h && p.palette.length == 24 && p.host.length ≤ p.len.toNat
  | .scanoutStatus h _ => hdrOk h
  | .modeSet h p => hdrOk h && thmOk p.thm
  | .modeGet h => hdrOk h
  | .panelLoad h _ => hdrOk h
  | .sceneOpen h _ => hdrOk h
  | .sceneFeed h p data => hdrOk h && data.length ≤ p.length.toNat
  | .sceneCloseDrain h _ => hdrOk h
  | .sceneCloseNow h _ => hdrOk h
  | .streamDatagram _ payload => payload.length ≤ 65507
  | .streamFrameDecodeStart _ => true
  | .streamFrameDecoded _ => true
  | .sessionEndComplete _ => true
  | .codecJobCompress h _ => hdrOk h
  | .codecJobDecompress h _ => hdrOk h
  | .codecResume h _ => hdrOk h
  | .codecAbort h _ => hdrOk h
  | .cirrusBlockStart _ => true
  | .cirrusBlockDone _ _ => true
  | .cdcHostStarved _ => true
  | .cdcSuspendLimitExpiry _ => true
  | .cdcEngineFault _ => true
  | .synDeadline _ => true
  | .synGroupFault _ => true
  | .frameSubmit h _ => hdrOk h
  | .frameStatus h _ => hdrOk h
  | .viewShift h _ => hdrOk h
  | .camCfgPort h _ => hdrOk h
  | .camCfgOff h _ => hdrOk h
  | .camCfgI2c h p => hdrOk h && p.data.length + 8 == 8 * h.plen.toNat
  | .camI2cTransferDone _ _ => true
  | .camCfgMap h _ => hdrOk h
  | .camTriggerCfg h p => hdrOk h && p.skew.length == 16
  | .sweepCfg h p => hdrOk h && p.disp.length == 24
  | .camStatus h _ => hdrOk h
  | .camLinkUp _ _ _ => true
  | .camLinkDown _ => true
  | .camTrigger _ => true
  | .csi2Frame _ _ => true
  | .camWindowEnd _ => true
  | .camPresInput _ _ _ => true
  | .swpFault _ => true
  | .panelLinkTrain h _ => hdrOk h
  | .panelPresRearm h _ => hdrOk h
  | .hello _ _ => true
  | .tstat _ _ _ => true
  | .panelCinit _ _ => true
  | .ack _ _ _ => true
  | .nak _ _ _ => true
  | .status _ _ => true
  | .pevt _ _ data => data.length == 5
  | .trainingAttempt _ => true
  | .trainingAttemptTimeout _ => true
  | .trainingRetry _ => true
  | .plkAckTimeout _ => true
  | .panelPresChange _ _ _ => true
  | .plkPresStuck _ => true
  | .backLaneLockLoss _ _ => true
  | .plkHalfDown _ => true
  | .plkHalfPresent _ _ => true
  | .thermistorSample _ => true
  | .stdOvercurrent _ => true
  | .steerCfg h _ => hdrOk h
  | .steerStatus h _ => hdrOk h
  | .timeGet h => hdrOk h
  | .timeSetAbsolute h _ => hdrOk h
  | .timeSetRelative h _ => hdrOk h
  | .timeSetAtPps h _ => hdrOk h
  | .timeAdjustSlew h _ => hdrOk h
  | .timeAdjustFrequency h _ => hdrOk h
  | .ptpPortCfg h _ => hdrOk h
  | .ptpEventMessage _ _ => true
  | .ptpMessageTx _ _ => true
  | .timerArm h _ => hdrOk h
  | .timerCancel h _ => hdrOk h
  | .timeTimer _ => true
  | .ppsInEdge _ _ => true
  | .mtNsRead _ => true
  | .vauxPowerGood _ => true
  | .pwrVmainRange _ => true
  | .powerSample _ => true
  | .thermalSample t => thmOk t
  | .confirmationSample t => thmOk t
  | .horizonSensorRead _ => true
  | .thermalRead h p => hdrOk h && thmOk p.thm
  | .thermalLimitsSet h _ => hdrOk h
  | .throttleAck h _ => hdrOk h
  | .wake t => thmOk t
  | .dmcReady checks other => checks.all (fun c => rangesOk c.found) && rangesOk other
  | .calWindowOpen _ => true
  | .calWindowClose _ work => (match work with | .sweepEnd m => rangesOk m | _ => true)
  | .dmcRefresh _ => true
  | .dmcPageIdleExpiry _ _ => true
  | .bar2Read _ _ _ => true
  | .bar2Write _ data => 0 < data.length
  | .paramSetDmcHash h _ => hdrOk h
  | .paramSetDmcDly h _ => hdrOk h
  | .bufAlloc h _ => hdrOk h
  | .bufFree h _ => hdrOk h
  | .bufCopy h _ => hdrOk h
  | .bufCopyDone _ _ _ _ => true
  | .bufQuery h _ => hdrOk h
  | .ledgerRead h _ _ => hdrOk h
  | .ledgerAuditTick _ => true
  | .ringEnable _ _ => true
  | .ringDisable _ _ => true
  | .ringDrained _ => true
  | .sqTail _ _ _ _ => true
  | .cqHead _ _ => true
  | .leaseHb _ => true
  | .safeReq _ => true
  | .registerWrite _ _ => true
  | .reg64LowRead _ _ => true
  | .pcieLinkDown _ => true
  | .deferredAcceptance _ => true
  | .scheduledCommandRun _ => true
  | .cmdDeadline _ => true
  | .sbT1Datagram _ => true
  | .mctpMessage _ _ => true
  | .setEndpointId _ _ _ => true
  | .getEndpointId _ => true
  | .getMctpVersionSupport _ _ => true
  | .getMessageTypeSupport _ => true
  | .nop h => hdrOk h
  | .getInfo h _ => hdrOk h
  | .paramGet h _ _ => hdrOk h
  | .paramSet h _ => hdrOk h
  | .paramList h _ _ => hdrOk h
  | .leaseTake h _ => hdrOk h
  | .leaseRenew h => hdrOk h
  | .leaseRelease h => hdrOk h
  | .evtPendWrite _ _ => true
  | .evtMaskWrite _ _ => true
  | .evqCtlWrite _ => true
  | .evqHead _ => true
  | .eventLogRead h _ => hdrOk h
  | .resetLevel1 h _ => hdrOk h
  | .resetLevel2 h _ => hdrOk h
  | .resetLevel3 h _ => hdrOk h
  | .resetLevel4 h _ => hdrOk h
  | .diagCapture h _ => hdrOk h
  | .recoveryStart _ => true
  | .recoveryEnd _ _ t => thmOk t
  | .ethFrameRx _ _ _ => true
  | .ethFrameTx _ => true
  | .gateControlEvent _ => true
  | .netSchedSwitch _ => true
  | .frerResetTimeout _ => true
  | .netLinkUp _ _ => true
  | .netLinkDown _ => true
  | .netPortCfg h _ => hdrOk h
  | .netVlanCfgVlan h _ => hdrOk h
  | .netVlanCfgStaticEntry h _ => hdrOk h
  | .netVlanCfgPriorityMap h _ => hdrOk h
  | .netVlanCfgStream h _ => hdrOk h
  | .netSchedCfgWrite h p => hdrOk h && p.entries.length + 1 == h.plen.toNat
  | .netSchedCfgCommit h p => hdrOk h && p.tail.length + 3 == h.plen.toNat
  | .netSchedCfgDisable h p => hdrOk h && p.tail.length + 1 == h.plen.toNat
  | .netStats h _ => hdrOk h
  | .nvRead h _ => hdrOk h
  | .nvWrite h p data _ => hdrOk h && inlineOk h p data
  | .nvWriteDelete h _ => hdrOk h
  | .nvUnlock h _ _ => hdrOk h
  | .nvLock h _ => hdrOk h
  | .nvLockSetPassword h _ => hdrOk h
  | .nvLockRemovePassword h _ => hdrOk h
  | .nvCounterAdd h _ => hdrOk h
  | .nvLogRead h _ => hdrOk h
  | .calRun h _ => hdrOk h
  | .calAutoTrigger _ _ => true
  | .calDone _ m => (match m with | .hbm r => rangesOk r | _ => true)
  | .calStale _ => true
  | .calExport h _ => hdrOk h
  | .calImport h _ => hdrOk h
  | .calStatus h _ => hdrOk h
  | .testRun h _ => hdrOk h
  | .testEnd _ _ _ => true
  | .testResult h _ => hdrOk h
  | .testAbort h => hdrOk h
  | .tstBusy _ => true
  | .lifeGet h => hdrOk h
  | .challengeGetNew h _ => hdrOk h
  | .challengeGetPart h _ => hdrOk h
  | .responsePut h _ => hdrOk h
  | .passwordPut h _ => hdrOk h
  | .attestQuoteForm h _ => hdrOk h
  | .attestQuotePart h _ => hdrOk h
  | .lifeAdvance h _ _ _ => hdrOk h
  | .keyInstallOwnerKey h p => keyOk h p
  | .keyInstallFleetKey h p => keyOk h p
  | .keyInstallPassword h p => keyOk h p
  | .keyInstallRemovePassword h p => keyOk h p
  | .fwBegin h _ => hdrOk h
  | .fwChunk h p _ => hdrOk h && chunkOk h p
  | .fwCommit h => hdrOk h
  | .fwActivateArm h _ => hdrOk h
  | .fwActivateConfirm h _ _ => hdrOk h
  | .fwActivateDisarm h _ => hdrOk h
  | .detachReqAssert _ _ _ => true
  | .quiesceStepForced _ => true
  | .detachReqRelease _ => true
  | .detachPrepare h _ _ _ => hdrOk h
  | .mrstAssert _ => true
  | .mrstRelease _ t => thmOk t
  | .hwdInputStuck _ => true
  | .paramSetHwdRearm h _ => hdrOk h
  | .carrierEdge charges => charges.length == 72
  | .subframeStart => true
  | .emitOn => true
  | .emitOff => true
  | .starlightRowWrite => true
  | .overlayHostReadFail => true
  | .scnStillLowered => true
  | .darkIntervalTrainTimeout => true
  | .modeChangeBoundary => true
  | .dmcRateChangeDone => true
  | .panelLoadCompletion => true
  | .synthesisStart => true
  | .synCommit => true
  | .sweepStart => true
  | .sweepEnd => true
  | .swpDeadline => true
  | .stdSettleMiss => true
  | .crowbarClose => true
  | .stdDischarged => true
  | .stdRestExpiry => true
  | .stdFault => true
  | .holdupCharged => true
  | .timeSetPpsTimeout => true
  | .slewDone => true
  | .timeSourceLost => true
  | .timeHoldoverEnd => true
  | .horizonAlarm => true
  | .ppsInStuck => true
  | .ppsInLost => true
  | .ppsOutEdge => true
  | .vauxLost => true
  | .vmainQualified => true
  | .pwrVmainLost => true
  | .warmupLimitExpiry => true
  | .throttleGraceExpiry => true
  | .shutdownHoldExpiry => true
  | .pePerstRise => true
  | .fenceMigrationStart => true
  | .dmcFenced => true
  | .dmcFault => true
  | .bufWithdrawWait => true
  | .pcieLinkUp => true
  | .aspmL1Entry => true
  | .cmdLeaseExpired => true
  | .sbdLinkUp => true
  | .sbdLinkDown => true
  | .evqDroppedRead => true
  | .coalesceMsEnd => true
  | .fdbAgeing => true
  | .netBridgeFault => true
  | .nvLogFlush => true
  | .calRunDone => true
  | .bstAutoRun => true
  | .fieldOpenExpiry => true
  | .fwEraseDone => true
  | .fwVerifyDone => true

end Sys2Proof
end

