-- ==== Sys2Proof/Tests/Slice0.lean ====
section
/-! SUPPORT. The block's own tests: small states built by hand, for every statement with hypotheses a theorem that shows them met
together (one conjunct for each clause), the ill-formed commands WellFormed refuses, and single steps against the specification. -/

set_option Elab.async false
set_option maxRecDepth 8000

namespace Sys2Proof.Machine.Slice0

/-- A running ring of 64 entries with `t` submitted entries. -/
def ringUp (t : Nat) : Ring :=
  { sqBase := 0x10000, cqBase := 0x20000, enable := true, state := .running, size := 2, n := 64, sqTail := t, held := true,
    armed := true }

/-- The command side with the host's link up, its ring 0 running with one entry submitted, the host holding the lease. -/
def cmdUp : CmdSt :=
  { up := true, ready := true, rings := ringUp 1 :: List.replicate 15 {}, lease := { holder := some .host, expiry := 2 * nsPerSec } }

/-- The module in Dawn, with memory in service and image A running. -/
def dawn : State :=
  { time := { state := .free, mer := nsPerSec * fracOne, ref := nsPerSec }, mode := { mode := .dawn, vmainQual := true }, cmd := cmdUp,
    dmc := { state := 3 }, nv := { ready := true }, sec := { running := some 0 }, hwd := { present := true } }

/-- The header of ring 0's next packet with `n` parameter units. -/
def hd (n : Nat) : Hdr := ⟨.ring 0, 0, BitVec.ofNat 8 n, 7, 0, ⟨0, 0⟩, 0, 0⟩

/-- A side-band header. -/
def hdSide (n : Nat) : Hdr := { hd n with src := .side }

/-! ## Witnesses: packets, replies, the lease -/

/-- The entry of ring 0 that `dawn` submits. -/
def nop0 : Row := rowNop (hd 0)

/-- An accepted command of ring 0. -/
def live0 : Live := ⟨hd 1, 0x0003, false, false, some (2 * nsPerSec), false, 1, false, 0⟩

/-- Dawn with that command accepted. -/
def dawnLive : State := { dawn with cmd := { cmdUp with live := [live0] } }

/-- Dawn with a quiesce in progress. -/
def dawnQuiesce : State := { dawn with hwd := { dawn.hwd with quiesce := some ⟨0, 1, 2, 0, none, 0, false, 0⟩ } }

/-- Dawn with no lease held. -/
def dawnFree : State := { dawn with cmd := { cmdUp with lease := {} } }

/-- A held command of ring 0, to run at 2 s. -/
def hdAt : Hdr := { hd 1 with flags := 1, target := ⟨2, 0⟩ }

/-- Test 0x06 of the NV store runs, so that a command to it is held back. -/
def dawnTest : State := { dawn with bst := { dawn.bst with jobs := [⟨0x06, 0, 0⟩] } }

/-- A side-band message carrying NOP, and the state in which it has been taken. -/
def sbNop : SbMsg := ⟨true, 0x0001, false, hdSide 0, 0, 0⟩
def dawnSide : State := { dawn with cmd := { cmdUp with sbReady := [sbNop] } }

/-- O9: a served packet of a ring and of the side-band. -/
theorem witness_PacketTaken :
    (served nop0 dawn = true ∧ nop0.h.src = .ring 0) ∧
    served (rowNop (hdSide 0)) dawnSide = true := by
  decide +kernel

/-- O10: the last accepted command of a running ring. -/
theorem witness_FinalReply :
    (liveOf dawnLive (keyOf (hd 1)) = some live0 ∧ live0.orphan = false ∧ dawnLive.cmd.up = true ∧
      (ringOf dawnLive 0).state ≠ .off ∧ (ringOf dawnLive 0).discard = false ∧ (ringOf dawnLive 0).cqBad = false ∧
      noReply (hd 1) = false) := by
  decide +kernel

/-- O11: NO_REPLY is bit 2 of FLAGS; a ring and the side-band that take a reply. -/
theorem witness_NoReply :
    (noReply { hd 0 with flags := 4 } = true ∧ noReply { hdSide 0 with flags := 4 } = true ∧ St.fault ≠ St.ok) ∧
    (liveOf dawn (keyOf { hd 0 with flags := 4 }) = none ∧ dawn.cmd.up = true ∧ (ringOf dawn 0).state ≠ .off ∧
      (ringOf dawn 0).discard = false ∧ (ringOf dawn 0).cqBad = false) := by
  decide +kernel

/-- O7: a packet in a quiesce, refused, failing its own check, to hold, held back, waiting for room. -/
theorem witness_PacketsJudged :
    (rowOf (.nop (hd 0))).isSome = true ∧
    (atFront nop0 dawnQuiesce = true ∧ dawnQuiesce.hwd.quiesce.isSome = true) ∧
    (atFront (rowNop (hd 1)) dawn = true ∧
      checks (rowNop (hd 1)) (expOf (rowNop (hd 1)) dawn) (judged (rowNop (hd 1)) dawn) = some (no St.badLength)) ∧
    ((rowBufFree (hd 1) ⟨5, 0⟩).chk (taken (rowBufFree (hd 1) ⟨5, 0⟩) dawn) = some (no St.badHandle) ∧
      atFront (rowBufFree (hd 1) ⟨5, 0⟩) dawn = true ∧ toHold (rowBufFree (hd 1) ⟨5, 0⟩) = false ∧
      checks (rowBufFree (hd 1) ⟨5, 0⟩) (some 0) (judged (rowBufFree (hd 1) ⟨5, 0⟩) dawn) = none) ∧
    (atFront (rowBufFree hdAt ⟨5, 0⟩) dawn = true ∧ toHold (rowBufFree hdAt ⟨5, 0⟩) = true ∧
      checks (rowBufFree hdAt ⟨5, 0⟩) (some 0) (judged (rowBufFree hdAt ⟨5, 0⟩) dawn) = none) ∧
    (atFront (rowNvRead (hd 3) ⟨0, 0x80, 1, 0, 8, 0, 0, 0⟩) dawnTest = true ∧
      (testBlock 0x0801 (.nvRead (hd 3) ⟨0, 0x80, 1, 0, 8, 0, 0, 0⟩) (judged (rowNvRead (hd 3) ⟨0, 0x80, 1, 0, 8, 0, 0, 0⟩) dawnTest)).isSome = true) ∧
    cqRoom { dawn with cmd := { cmdUp with live := List.replicate 63 live0 } } 0 < repliesOf 0x0001 := by
  decide +kernel

/-- O8: each check of R398 fails on a packet that passes those before it. -/
theorem witness_FirstChecks :
    (infoOf 0x0201 ≠ none ∧ (hd 0).seq.toNat ≠ 1 ∧ 2 ∉ (rowNop (hd 2)).plens) ∧
    (mtOk ⟨0, 0x40000000#32⟩ = false ∧ mtOk (hd 0).target = true) ∧
    (holdsLease dawnFree .host = false ∧ holdsLease dawn .host = true ∧ holdsLease dawn .sideBand = false) ∧
    ((∀ c ∈ infoOf 0x0B07, c.cls = .privileged ∧ lifeState dawn ∉ c.life)) ∧
    (toHold (rowBufFree hdAt ⟨5, 0⟩) = true ∧ merNs dawn ≤ mtOf hdAt.target) ∧
    (asapIfLate hdAt = false ∧ mtOf hdAt.target < merNs { dawn with time := { dawn.time with mer := 3 * nsPerSec * fracOne } }) := by
  decide +kernel

/-- O13: the lease is free, held by the host, held and to expire. -/
theorem witness_Lease :
    (dawnFree.cmd.lease.holder = none ∧ served (rowLeaseTake (hd 1) ⟨0, 0⟩) dawnFree = true) ∧
    (dawn.cmd.lease.holder = some (masterOf (hd 1).src) ∧ merNs dawn < dawn.cmd.lease.expiry ∧
      served (rowLeaseTake (hd 1) ⟨0, 0⟩) dawn = true) ∧
    (served (rowLeaseRenew (hd 0)) dawn = true ∧ served (rowLeaseRelease (hd 0)) dawn = true) := by
  decide +kernel

/-- A command that waits for an in-service test, unread, read, and on the side-band; one held. -/
def waits (w : Wait) : State := { dawn with cmd := { cmdUp with waits := [w] } }
def wTest : Wait := ⟨.nop (hd 0), hd 0, 0x0001, none, some 0⟩
def wUnread : Wait := { wTest with test := none }
def wRead : Wait := { wUnread with seqExp := some 0 }
def wSide : Wait := ⟨.nop (hdSide 0), hdSide 0, 0x0001, none, none⟩
def held0 : Held := ⟨3, .nop (hd 0), hd 0, 0x0001, 2 * nsPerSec⟩

/-- O12: commands that wait under R493, R401 and R405, a held one, one with a budget. -/
theorem witness_LaterCommands :
    ((waits wTest).cmd.waits.find? (fun w => w.h.src == .ring 0) = some wTest ∧
      (keptRow wTest.i wTest.h wTest.opcode).isSome = true ∧ testBlock 0x0001 (.nop (hd 0)) (waits wTest) = none) ∧
    ((waits wUnread).cmd.waits.find? (fun w => w.h.src == .ring 0) = some wUnread ∧ (waits wUnread).cmd.up = true ∧
      (waits wUnread).cmd.ready = true ∧ (ringOf (waits wUnread) 0).state = .running ∧ (ringOf (waits wUnread) 0).sqBad = false ∧
      repliesOf 0x0001 ≤ cqRoom (waits wUnread) 0 ∧ mustWait (hd 0) (waits wUnread) = false) ∧
    ((waits wRead).cmd.waits.find? (fun w => w.h.src == .ring 0) = some wRead ∧ mustWait (hd 0) (waits wRead) = false) ∧
    ((waits wSide).cmd.waits.find? (fun w => w.h.src == .side) = some wSide ∧
      (mainOn (waits wSide) || dormantOps.contains 1) = true ∧ (keptRow wSide.i wSide.h wSide.opcode).isSome = true ∧
      mustWait (hdSide 0) (waits wSide) = false) ∧
    ([held0].find? (fun e => e.slot == 3) = some held0 ∧ l2Running dawn = false ∧
      (keptRow held0.i held0.h held0.opcode).isSome = true ∧ holder 0x0001 (.nop (hd 0)) dawn = none) ∧
    (liveOf dawnLive (keyOf (hd 1)) = some live0 ∧ live0.deadline = some (2 * nsPerSec)) := by
  decide +kernel

/-! ## Witnesses: rings, registers, links -/

/-- Ring 0 in another state. -/
def ringIn (x : RingState) : State := { dawn with cmd := { cmdUp with rings := { ringUp 1 with state := x } :: List.replicate 15 {} } }

/-- O14: a pair that is off, runs, drains with no command in flight. -/
theorem witness_PairLife :
    (dawn.cmd.up = true ∧ 1 < dawn.cmd.rings.length ∧ (ringOf dawn 1).state = .off ∧ bits 4 2 0 ≤ 4) ∧
    ((ringOf dawn 0).state = .running ∧ (ringOf (ringIn .error) 0).state = .error) ∧
    ((rowOf (.nop (hd 0))).isSome = true ∧ (ringOf (ringIn .draining) 0).state ≠ .running) ∧
    ((ringOf (ringIn .draining) 0).state = .draining ∧ (ringOf (ringIn .draining) 0).discard = false ∧
      (ringOf (ringIn .draining) 0).cqBad = false ∧ liveOf (ringIn .draining) (keyOf (hd 0)) = none ∧ noReply (hd 0) = false) ∧
    ringBusy 0 (ringIn .draining) = false := by
  decide +kernel

/-- O15: SIZE 5 on a pair that is off; good and bad indices of both doorbells. -/
theorem witness_RingRegisters :
    ((ringOf dawn 1).state = .off ∧ 4 < bits 5 2 0) ∧
    (unread (ringOf dawn 0) ≤ (63 + (ringOf dawn 0).n - (ringOf dawn 0).head) % (ringOf dawn 0).n ∧ 63 < (ringOf dawn 0).n) ∧
    (ringOf dawn 0).n ≤ 64 ∧
    ((ringOf dawn 0).held = true ∧
      (0 + (ringOf dawn 0).n - (ringOf dawn 0).cqHead) % (ringOf dawn 0).n ≤ unreleased (ringOf dawn 0)) := by
  decide +kernel

/-- O16: the lease with the host and without; the link up, down and in L0. -/
theorem witness_HostLink :
    (holdsLease dawn .host = true ∧ holdsLease dawnFree .host = false ∧ quiescing dawn = false ∧ dawn.evt.vmap.length = 256) ∧
    ((5#16).toNat % 4 ≠ 0 ∧ (0x2100#16).toNat = 0x2100 + 4 * 0 ∧ (0x21FC#16).toNat = 0x2100 + 4 * 63) ∧
    ((0x0120#16).toNat = 0x0100 + 0x20 * 1 ∧ (ringOf dawn 1).state = .off) ∧
    ((reg64 0x0100 dawn).isSome = true ∧ (reg64 0x2200 dawn).isSome = true) ∧
    (mainOn dawn = true ∧ mainOn { dawn with cmd := { cmdUp with up := false } } = true) ∧
    (dawn.cmd.l1 = false ∧ hostOverlay dawn = false) := by
  decide +kernel

/-- SB_T1 up, with the address 5. -/
def dawnT1 : State := { dawn with sbd := { up := true }, par := [(0x1101, 5)] }
def smb0 : SmbFrame := ⟨BitVec.ofNat 8 (pReset 0x1103), true, 9⟩

/-- O17: SB_T1 up and down, messages well formed and not, one answered from the kept replies, MCTP frames. -/
theorem witness_SideBandPort :
    (dawnT1.mode.vauxOn = true ∧ dawnT1.sbd.up = true ∧ (5#32).toNat = pv dawnT1 0x1101 ∧
      (BitVec.ofNat 48 (pReset 0x1100)).toNat = pv dawnT1 0x1100 ∧ (BitVec.ofNat 16 (pReset 0x1102)).toNat = pv dawnT1 0x1102) ∧
    (smb0.addr.toNat = pv dawn 0x1103 ∧ smb0.pecOk = true) ∧
    ({ sbNop with wellFormed := false } : SbMsg).wellFormed = false ∧
    (keptReply sbNop { dawn with cmd := { cmdUp with sbKept := [⟨.side, 7, 0, 1, 0, false, 0, 0, 0, 0⟩] } }).isSome = true ∧
    (keptReply sbNop dawn = none ∧ sbRefusal 0 sbNop dawn = none ∧ sbNop.stray = false ∧ sbNop.wellFormed = true) ∧
    ((1#8).toNat ≤ 1 ∧ 8 ≤ (8#8).toNat ∧ (254#8).toNat ≤ 254 ∧ dawn.sbd.up = false ∧ dawn.mode.vauxOn = true) := by
  decide +kernel

/-- The event queue enabled with 256 entries, one written; a coalesced source. -/
def counts0 : SrcCount := ⟨0x51, 1000, 70, true, 6, [], 0⟩
def dawnQ : State := { dawn with evt := { dawn.evt with qEnable := true, qTail := 1, qWritten := 1, counts := [counts0] } }

/-- O18: the queue off and on, a good and a bad head, a coalesced source. -/
theorem witness_EventRegisters :
    (dawn.evt.qEnable = false ∧ bit 0x80000008 31 = true ∧ bits 0x80000008 3 0 ≤ 8) ∧
    (dawnQ.evt.qEnable = true ∧ bit 0 31 = false ∧ 1 < evqN dawnQ ∧
      (1 + evqN dawnQ - dawnQ.evt.qHead) % evqN dawnQ ≤ (dawnQ.evt.qTail + evqN dawnQ - dawnQ.evt.qHead) % evqN dawnQ) ∧
    evqN dawnQ ≤ 256 ∧
    sortBy (fun (c : SrcCount) => c.ms) (dawnQ.evt.counts.filter (fun c => c.coalesced)) = [counts0] := by
  decide +kernel


/-! ## Witnesses: parameters, time and timers -/

/-- Parameter `id` holds `v`. -/
def withPar (id v : Nat) (s : State) : State := { s with par := (id, v) :: s.par }

/-- A write of a parameter, as its row. -/
def pset (id v : Nat) : Row := rowParamSet (.paramSet (hd 2) ⟨BitVec.ofNat 16 id, 0, BitVec.ofNat 64 v⟩) (hd 2) ⟨BitVec.ofNat 16 id, 0, BitVec.ofNat 64 v⟩
def hash0 : ParamSetP := ⟨0x0710, 0, BitVec.ofNat 64 (pReset 0x0710)⟩
def dly0 : ParamSetP := ⟨0x0721, 0, 0⟩
def rearm3 : ParamSetP := ⟨0x0032, 0, 3⟩
def dawnUnreleased : State := { dawn with dmc := { dawn.dmc with state := 2 } }

/-- O19: NOP, two pages of GET_INFO, PARAM_GET, PARAM_LIST. -/
theorem witness_InfoAndParameters :
    (served nop0 dawn = true ∧ served (rowGetInfo (hd 1) ⟨0, 0⟩) dawn = true ∧ served (rowGetInfo (hd 1) ⟨2, 0⟩) dawn = true) ∧
    served (rowParamGet (hd 1) ⟨0x0104, 0⟩ ⟨1, 2⟩) dawn = true ∧
    (served (rowParamList (hd 2) ⟨0, 4, 0, 0⟩ ⟨1, 2⟩) dawn = true ∧
      served (rowParamList (hd 2) ⟨0, 4, 0, 0x4000⟩ ⟨1, 2⟩) dawn = true) := by
  decide +kernel

/-- O20: a plain parameter, a hash mask, a delay word, HWD_REARM. -/
theorem witness_ParameterSets :
    ((∀ d ∈ pFind paramTable 0x0500, d.keep ≠ 2) ∧ (pFind paramTable 0x0500).isSome = true ∧ isHash 0x0500 = false ∧
      isDly 0x0500 = false ∧ served (pset 0x0500 60000) dawn = true) ∧
    (isHash 0x0710 = true ∧ served (rowParamSet (.paramSetDmcHash (hd 2) hash0) (hd 2) hash0) dawn = true) ∧
    (isDly 0x0721 = true ∧ served (rowParamSet (.paramSetDmcDly (hd 2) dly0) (hd 2) dly0) dawn = true) ∧
    served (rowParamSet (.paramSetHwdRearm (hd 2) rearm3) (hd 2) rearm3) dawn = true := by
  decide +kernel

def slew0 : Slew := ⟨hd 2, 100, 0⟩
def pps0 : PpsSet := ⟨hd 4, 5, 0⟩
def dawnPps : State := withPar 0x0300 2 dawn
def timer0 : Timer := ⟨3, 1, 2 * nsPerSec, 0, 9, false, 0, 0⟩
def dawnTimer : State := { dawn with time := { dawn.time with timers := [timer0] } }
def locked : State := { dawnPps with time := { dawn.time with state := .locked } }
def holdover : State := { dawn with time := { dawn.time with state := .holdover } }
/-- A port of the time protocol in a state. -/
def ptpIn (prof st : Nat) : State := { dawn with time := { dawn.time with ports := { profile := prof, portState := st } :: List.replicate 7 {} } }

/-- O21: TIME_GET served. -/
theorem witness_TimeGetReply :
    (served (rowTimeGet (hd 0)) dawn = true ∧ (hdSide 0).src = .side ∧ noReply (hdSide 0) = false) := by
  decide +kernel

/-- O22: TIME_SET with and without an edge, TIME_ADJUST, both under way. -/
theorem witness_SettingTime :
    (served (rowTimeSetAbsolute (hd 4) ⟨0, ⟨5, 0⟩, 0, 0⟩) dawn = true ∧
      served (rowTimeSetRelative (hd 4) ⟨0, ⟨0, 0⟩, 0, 100⟩) dawn = true) ∧
    (dawn.time.slew = none ∧ dawn.time.state = .free ∧ 0 ≤ (dawn.time.mer : Int) + 4 * (0 : Int) * (2 ^ 46 : Nat)) ∧
    (served (rowTimeSetAtPps (hd 4) ⟨0, ⟨5, 0⟩, 0, 0⟩) dawnPps = true ∧ dawnPps.time.ppsSet = none) ∧
    (served (rowTimeAdjustSlew (hd 2) ⟨0, 0, 100⟩) dawn = true ∧ served (rowTimeAdjustFrequency (hd 2) ⟨0, 100, 0⟩) dawn = true) ∧
    (({ dawn.time with slew := some slew0 } : TimeSt).slew = some slew0 ∧
      ({ dawn.time with ppsSet := some pps0 } : TimeSt).ppsSet = some pps0) := by
  decide +kernel

/-- O23: a port configured, a slave on gPTP, a master. -/
theorem witness_PtpPorts :
    served (rowPtpPortCfg (hd 3) ⟨0, 1, 0, 0, 0, 0, 0, 0, 0, 0, 0, 0⟩) { withPar 0x1000 3 dawn with net := { dawn.net with ports := { speed := 1 } :: List.replicate 8 {} } } = true ∧
    served (rowPtpPortCfg (hd 3) ⟨7, 0, 0, 0, 0, 0, 0, 0, 0, 0, 0, 0⟩) { withPar 0x1000 3 dawn with net := { dawn.net with ports := List.replicate 9 { speed := 1 } } } = true ∧
    (mainOn (ptpIn 1 9) = true ∧ (ptpOf (ptpIn 1 9) 0).profile = 1 ∧ (ptpOf (ptpIn 1 9) 0).portState = 9 ∧
      (ptpOf (ptpIn 1 8) 0).portState = 8) ∧
    ((ptpOf (ptpIn 1 6) 0).profile ≠ 0 ∧ (ptpOf (ptpIn 1 6) 0).portState = 6) := by
  decide +kernel

/-- O24: a timer armed, cancelled, expiring. -/
theorem witness_Timers :
    (served (rowTimerArm (hd 4) ⟨0, 0, 9, ⟨2, 0⟩, 0, 0⟩) dawn = true ∧ merNs dawn ≤ mtOf ⟨2, 0⟩) ∧
    served (rowTimerCancel (hd 1) ⟨BitVec.ofNat 32 (handle 0xF2 3 1), 0⟩) dawnTimer = true ∧
    (dawnTimer.time.timers.find? (fun x => x.idx == 3) = some timer0 ∧ timer0.period = 0 ∧ dawnTimer.hwd.quiesce = none) := by
  decide +kernel

/-- O25: LOCKED to a PPS source, HOLDOVER, the pulse input and output. -/
theorem witness_TimeSources :
    (locked.time.sourceLost = false ∧ pv locked 0x0300 = 2 ∧ locked.time.state = .locked ∧ holdover.time.state = .holdover) ∧
    (mainOn dawn = true ∧ 99 < 100 ∧ ({ dawn.time with ppsMasked := true } : TimeSt).ppsMasked = true ∧
      dawn.time.ppsMasked = false ∧ dawn.time.ppsLostRaised = false ∧ dawn.cmd.up = true) ∧
    (ppsOutDue (withPar 0x0312 2 dawn)).isSome = true := by
  decide +kernel

/-! ## Witnesses: modes, power, heat, hardware -/

/-- A small panel description. -/
def pd : PanelDesc :=
  { w := 64, h := 16, lx := 8, ly := 8, p := 4, nh := 2, nb := 4, az := [], el := [], corr := [], thermNom := 10000, thermB := 3950,
    ampCeil := 4095, dcLimit := 1000, bands := [⟨-400, 2000, 2500, 100, 400⟩], modelCode := 1, fwd := 16, maxRate := 120, crc := 0,
    head := [], geom := [], steer := [], link := [] }

/-- A frame grid of 60 Hz with four phases from 1 s on, and its subframes 0 and 1 of frame 60. -/
def seg0 : Seg := ⟨nsPerSec, 60, 4, nsPerSec, 60, 0⟩
def sub0 : Sub := ⟨seg0, 60, 0⟩
def sub1 : Sub := ⟨seg0, 60, 1⟩

/-- A linked half. -/
def plkUp : Plk := { level := true, lock0 := true, lock1 := true, present := true, up := true, lanes := 0xFFFF, rate := 32 }

/-- The module lit in a mode, in subframe 1 of frame 60. -/
def litIn (m : Mode) : State :=
  { dawn with mode := { dawn.mode with mode := m, rate := 60 }, pnl := { desc := some pd, full := true }
              scn := { seg := some seg0, began := true, cur := some sub1, lastK := some 60, headA := { lit := true }, headB := { lit := true } }
              plk := { a := plkUp, b := plkUp } }
def lit : State := litIn .standard

def thm0 : ThmRead := ⟨List.replicate 24 400, some 400, some 400, 400⟩
def toDawn : ModeSetP := ⟨2, 0, 0, 0, thm0, 2000⟩
def toBad : ModeSetP := ⟨99, 0, 0, 0, thm0, 2000⟩
def change0 : Change := ⟨.standard, 60, 2 * nsPerSec, none, 0, false, none⟩

/-- O26: TIMING_SET at the rate in force and at another one, a MODE_SET refused and one accepted, a pending change. -/
theorem witness_ModeChanges :
    ((60#16).toNat = lit.mode.rate ∧ served (rowTimingSet (hd 1) ⟨60, 0⟩) lit = true) ∧
    ((50#16).toNat ≠ lit.mode.rate ∧ changeTarget (hd 1) lit = some (merNs lit) ∧ lit.mode.change = none ∧
      served (rowTimingSet (hd 1) ⟨50, 0⟩) lit = true) ∧
    (dawn.pnl.load = none ∧ served (rowModeSet (hd 1) toBad) dawn = true ∧
      chkModeSet toBad (decisionSamples toBad (taken (rowModeSet (hd 1) toBad) dawn)) = some (no St.badParam)) ∧
    (served (rowModeSet (hd 1) toDawn) lit = true ∧
      chkModeSet toDawn (decisionSamples toDawn (taken (rowModeSet (hd 1) toDawn) lit)) = none ∧
      modeAsked toDawn (decisionSamples toDawn (taken (rowModeSet (hd 1) toDawn) lit)) = (.dawn, 0) ∧
      (decisionSamples toDawn (taken (rowModeSet (hd 1) toDawn) lit)).mode.mode = .standard ∧
      (changeTarget (hd 1) (decisionSamples toDawn (taken (rowModeSet (hd 1) toDawn) lit))).isSome = true) ∧
    (({ dawn.mode with change := some change0 } : ModeSt).change = some change0 ∧ change0.target ≠ .dormant) ∧
    (served (rowModeGet (hd 0)) dawn = true ∧ ({ dawn.dmc with change := some (16, 32) } : DmcSt).change = some (16, 32)) := by
  decide +kernel

/-- The module in Dormant, with VAUX up and VMAIN out or qualified. -/
def dark (vmain : Bool) : State := { dawn with mode := { dawn.mode with mode := .dormant, vmainQual := vmain } }
def waking1 : State := { dark true with mode := { (dark true).mode with waking := some 4 } }

/-- O27: VMAIN qualified, lost and out of range; a wake accepted, held; sensor and alarm. -/
theorem witness_SuppliesAndWakes :
    ((dark false).mode.vmainQual = false ∧ (dark false).mode.vauxOn = true ∧ (dark false).hwd.seating = false ∧
      (dark false).mode.mode = .dormant ∧ (dark false).hwd.detached = false ∧ (dark false).hwd.quiesce = none) ∧
    (dawn.mode.vmainQual = true ∧ dawn.mode.mode ≠ .dormant ∧ dawn.hwd.quiesce = none) ∧
    (mainOn dawn = true ∧ 9000 < 9001 ∧ (10799 < 10800 ∨ 13200 < 10799) ∧ (13201 < 10800 ∨ 13200 < 13201) ∧
      dawn.mode.vmainRange = none) ∧
    (waking1.mode.waking = some 4 ∧ waking1.mode.mode = .dormant ∧ waking1.mode.vmainQual = true) ∧
    (wakesIgnored (dark true) = false ∧ (pv (withPar 0x0104 4 (dark true)) 0x0104).testBit 2 = true) ∧
    (tripReading 400 (dark true) = false ∧ tripReading 2000 (dark true) = true) ∧
    sortBy (fun (w : Timer) => w.t) [timer0] = [timer0] := by
  decide +kernel

/-- The power manager after `n` samples. -/
def pwrAt (n : Nat) : State := { dawn with pwr := { winCount := n } }

/-- O28: a sample that fills no window, the hundredth, the third mean in a row above or below. -/
theorem witness_PowerManager :
    (mainOn (pwrAt 98) = true ∧ (pwrAt 98).pwr.winCount + 1 < 100) ∧
    (pwrAt 99).pwr.winCount = 99 ∧
    (105 * modePower .dawn < 100 * 12601 ∧ 12000 ≤ modePower .dawn) := by
  decide +kernel

def confirm2 : State := { dawn with thm := { dawn.thm with confirm := [5, 3] } }
def grace (on : Bool) : State := { dawn with thm := { dawn.thm with grace := some 7, dieReq := { on := on } } }

/-- O29: a stack at 105 °C, confirmations due, conditions at their limits, the timers, the commands. -/
theorem witness_Thermal :
    (mainOn dawn = true ∧ ({ thm0 with hbm0 := some 1050 } : ThmRead).hbm0 = some 1050) ∧
    sortBy (fun (r : Nat) => r) confirm2.thm.confirm = [3, 5] ∧
    ((⟨false, 2⟩ : Cond).count = 2 ∧ (⟨false, 1⟩ : Cond).count < 2 ∧ (949 : Int) - 30 ≤ 920 ∧ (919 : Int) < 950 - 30) ∧
    (({ dawn.thm with warmup := some 7 } : ThmSt).warmup = some 7 ∧ (grace true).thm.grace = some 7 ∧
      throttled (grace true) = true ∧ (grace true).hwd.quiesce = none ∧ throttled (grace false) = false) ∧
    (served (rowThermalRead (hd 1) ⟨0, 0, thm0⟩) dawn = true ∧ mainOn (dark true) = false) ∧
    ({ dawn.thm with ok := List.replicate 24 false } : ThmSt).ok.getD 3 false = false ∧
    served (rowThermalLimitsSet (hd 2) ⟨900, 950, 1100, 800, 900, 0⟩) dawn = true ∧
    (served (rowThrottleAck (hd 1) ⟨0xFF, 0, 0⟩) { litIn .standard with thm := (grace true).thm } = true ∧
      (0#8).toNat.testBit 0 = false) ∧
    (served (rowThrottleAck (hd 1) ⟨0xFF, 1, 0⟩) { litIn .standard with thm := (grace true).thm } = true ∧
      (1#8).toNat.testBit 0 = true) := by
  decide +kernel

/-- DETACH_REQ_N asserted, the module detached; a quiesce at step 2. -/
def detached : State := { dark true with hwd := { dawn.hwd with detached := true, safe := true, det := { on := true, edge := some 0 } } }
def mrstOn : State := { dawn with hwd := { dawn.hwd with mrst := { on := true, edge := some 0 } } }

/-- O30: not yet seated; an assertion in Dawn and in Dormant; a quiesce under way; a release. -/
theorem witness_SeatingAndDetaching :
    State.reset.hwd.present = false ∧
    (dawn.mode.vauxOn = true ∧ dawn.hwd.det.on = false ∧ dawn.hwd.det.masked = false ∧ dawn.hwd.seating = false ∧
      dawn.hwd.detached = false ∧ dawn.hwd.quiesce = none ∧ dawn.mode.mode ≠ .dormant) ∧
    (dawnQuiesce.hwd.quiesce.isSome = true ∧ (∀ q ∈ dawnQuiesce.hwd.quiesce, 2 ≤ q.step)) ∧
    served (rowDetachPrepare (hd 1) ⟨0, 0⟩ none 0) dawn = true ∧
    (detached.mode.vauxOn = true ∧ detached.hwd.det.on = true ∧ detached.hwd.det.masked = false ∧ detached.hwd.detached = true) := by
  decide +kernel

/-- Camera port 0 present. -/
def camThere : State := { dawn with cam := { dawn.cam with ports := { camera := true } :: List.replicate 15 {} } }

/-- O31: MRST_N released and asserted, in Dormant and not; the three inputs asserted. -/
theorem witness_Inputs :
    (dawn.hwd.mrst.on = false ∧ dawn.hwd.mrst.masked = false ∧ (dark true).mode.mode = .dormant ∧ dawn.hwd.quiesce = none) ∧
    (mrstOn.hwd.mrst.on = true ∧ mrstOn.hwd.mrst.masked = false ∧ mrstAsserted mrstOn = true ∧ mrstOn.mode.vauxOn = true) ∧
    (detAsserted detached = true ∧ detached.hwd.safe = true) ∧
    ((portOf 0 camThere).camera = true ∧ (portOf 0 camThere).presMasked = false ∧ (portOf 0 camThere).gear = none ∧
      0 < camThere.cam.ports.length) := by
  decide +kernel


/-! ## Witnesses: faults, calibration, self-test -/

/-- A recovery of Cirrus, waiting or running; the window of its last fault. -/
def rec0 (run : Bool) : Recov := ⟨9, 1, 1, some 0x60, [], 0, run, false, none, .dawn, 0, false⟩
def win0 (dom level : Nat) : Window := ⟨dom, nsPerSec, level, 4⟩
def faulty (ws : List Window) (rs : List Recov) : State := { dawn with evt := { dawn.evt with windows := ws, recs := rs } }
def powered : State := { lit with std := { powered := true, closedAt := none, subAt := nsPerSec } }

/-- O32: each block able to fail; a domain without a window, with one and an own action or none, in a quiesce. -/
theorem witness_FaultLadder :
    (mainOn lit = true ∧ true ∈ halves lit ∧ powered.std.powered = true ∧ outputUsed 0 powered = true ∧
      outputUsed 67 powered = true ∧ 2 ≤ dawn.dmc.state) ∧
    (dawn.cdc.off.contains 15 = false ∧ (15#8).toNat ≤ 15 ∧ dawn.syn.off.contains 15 = false ∧ dawn.cam.off.contains 15 = false) ∧
    (quiescing dawnQuiesce = true ∧ quiescing dawn = false ∧ windowOf 1 dawn = none) ∧
    (windowOf 1 (faulty [win0 1 0] []) = some (win0 1 0) ∧ hasOwn 1 = true ∧ windowOf 8 (faulty [win0 8 0] []) = some (win0 8 0) ∧
      hasOwn 8 = false ∧ (win0 8 0).level = 0) ∧
    dawn.evt.recs = [] := by
  decide +kernel

/-- A heap buffer of two units, and its handle. -/
def buf0 : Buf := ⟨0, 0, 2, true, 1, []⟩
def h0 : U32 := BitVec.ofNat 32 (handle 0x01 0 1)
def withBuf (b : Buf) (s : State) : State := { s with buf := { s.buf with bufs := [b] } }
/-- Life-cycle state 1, in which the privileged commands are allowed, and state 5. -/
def life (n : Nat) (s : State) : State :=
  { s with sec := { s.sec with lifeFuses := (List.range 8).map (fun i => if i < n then .blown else .unblown) } }
def cap0 : Capture := ⟨1, 9, 0, [1, 2]⟩

/-- O33: RESET_LEVEL at each level, a recovery waiting and running, a capture held. -/
theorem witness_Recoveries :
    (served (rowResetLevel1 (hd 1) ⟨1, 0, 0⟩) dawn = true ∧ served (rowResetLevel2 (hd 1) ⟨0, 0, 0⟩) dawn = true ∧
      served (rowResetLevel3 (hd 1) ⟨0, 0, 0⟩) dawn = true ∧ served (rowResetLevel4 (hd 1) ⟨0, 0, 0⟩) dawn = true) ∧
    ((faulty [] [rec0 false]).evt.recs.find? (fun r => r.rseq == 9) = some (rec0 false) ∧
      mayStart (rec0 false) (faulty [] [rec0 false]) = true) ∧
    ((faulty [] [rec0 true]).evt.recs.find? (fun r => r.rseq == 9 && r.running) = some (rec0 true) ∧
      linkBusy (rec0 true) (faulty [] [rec0 true]) = false ∧ (rec0 true).level ≠ 3) ∧
    (bufOf (withBuf buf0 dawn) h0.toNat = some buf0 ∧
      captureOf { dawn with evt := { dawn.evt with captures := [cap0] } } 1 = some cap0) ∧
    served (rowDiagCapture (hd 2) ⟨1, 0, h0, 64, 0⟩) (life 1 { withBuf buf0 dawn with evt := { dawn.evt with captures := [cap0] } }) = true := by
  decide +kernel

/-- O34: both log reads, to host memory and to a buffer. -/
theorem witness_LogReads :
    (served (rowEventLogRead (hd 2) ⟨0, 1024, 0, 0, 0x4000⟩) dawn = true ∧
      served (rowNvLogRead (hd 2) ⟨0, 4, 0, 0, 0x4000⟩) dawn = true) ∧
    ((⟨0, 4, 1, 0, 0⟩ : EventLogReadP).flags.toNat.testBit 0 = true ∧
      bufOf (withBuf buf0 dawn) (segHandle (BitVec.ofNat 64 h0.toNat)) = some buf0) := by
  decide +kernel

def run0 : CalRun := ⟨hd 2, ⟨3, 0, 0, 0⟩, 16, [], 1, none, 0⟩
def calJob (item : Nat) (pc : Nat) : State := { dawn with cal := { dawn.cal with jobs := [⟨item, 0, pc, 0⟩] } }
def sweep0 : DmcSweep := ⟨3, false, 0⟩
def sweeping3 : State := { dawn with dmc := { dawn.dmc with sweeps := [sweep0], point := 16 } }

/-- O35: CAL_RUN, a calibration due, jobs of each item, a run with nothing left; CAL_STATUS, CAL_EXPORT. -/
theorem witness_Calibration :
    served (rowCalRun (hd 2) ⟨3, 0, 0, 0⟩) dawn = true ∧
    (calDue 3 0 dawn = some 0 ∧ dawn.cal.jobs.any (fun j => j.item != 3 || j.pc == 0) = false ∧ testHolds 3 0 dawn = false ∧
      runWaits dawn = false) ∧
    (sweeping3.mode.mode = .dawn ∧ sweeping3.dmc.sweeps.find? (fun x => x.pc == 3) = some sweep0 ∧
      sweep0.pc < (dlySet sweeping3 sweeping3.dmc.point).length) ∧
    (calRunning 2 1 (calJob 2 1) = true ∧ (List.replicate 30 (0 : Int)).length = 30 ∧ calRunning 3 0 (calJob 3 0) = true ∧
      calRunning 4 0 (calJob 4 0) = true) ∧
    (({ dawn.cal with run := some run0 } : CalSt).run = some run0 ∧ run0.left = []) ∧
    ((2#8).toNat = 2 ∧ dawn.cal.staleSaid.contains 4 = false ∧ mainOn dawn = true) ∧
    (histGet { dawn with nv := { ready := true, slots := [(0, .valid ⟨0, 0x07, histKey 3 0, 1, false, 0, List.replicate 30 1⟩)] } } 3 0 0).2 ≠ 0 ∧
    (served (rowCalStatus (hd 1) ⟨3, 0, 0, 0⟩) dawn = true ∧ served (rowCalExport (hd 2) ⟨0, 0, 0x100000, 0x4000⟩) dawn = true) ∧
    freeSlots dawn 0 ≠ 0 := by
  decide +kernel

def job6 : TestJob := ⟨6, 0, 0⟩
def test6 : State := { dawn with bst := { dawn.bst with jobs := [job6] } }
def res6 : TestRes := ⟨6, 0, 2, 0, 1, 0, 0⟩
def bstRun : State := { test6 with mode := { dawn.mode with mode := .overcast }, bst := { test6.bst with run := some ⟨none, false, [], [], 0x40⟩ } }
def wHeld : Wait := ⟨.nvRead (hd 3) ⟨0, 0x80, 1, 0, 8, 0, 0, 0⟩, hd 3, 0x0801, none, some 0⟩
def heldBack : State := { test6 with cmd := { cmdUp with waits := [wHeld] } }

/-- O36: TEST_RUN, an automatic run due, a test that ends in each outcome, its result, an abort, a command held too long. -/
theorem witness_SelfTest :
    served (rowTestRun (hd 2) ⟨0x40, 0xFF, 0, 0⟩) dawn = true ∧
    (pv (withPar 0x1302 3600 dawn) 0x1302 ≠ 0 ∧ dawn.bst.run = none ∧ mainOn dawn = true ∧ lifeState dawn ≠ 6) ∧
    (test6.bst.jobs.find? (fun j => j.id == 6 && j.inst == 0) = some job6 ∧ (testInfo 6).isSome = true) ∧
    ((∀ t ∈ testInfo 6, judgeTest t 0 (.errors true 0 0) = (2, 0, 0) ∧ judgeTest t 0 (.errors true 1 5) = (3, 1, 5) ∧
      judgeTest t 0 (.errors false 0 0) = (4, 0, 0))) ∧
    ((∀ t ∈ testInfo 0x10, t.kind ≠ .service ∧ t.kind ≠ .vendor) ∧ (∀ t ∈ testInfo 0x1E, t.kind = .vendor)) ∧
    (resultOf { dawn with bst := { dawn.bst with results := [res6] } } 6 0 = some res6 ∧
      served (rowTestResult (hd 1) ⟨6, 0, 0⟩) { dawn with bst := { dawn.bst with results := [res6] } } = true) ∧
    served (rowTestAbort (hd 0)) bstRun = true ∧
    (heldBack.cmd.waits.find? (fun w => keyOf w.h == keyOf (hd 3) && w.test.isSome) = some wHeld ∧
      (holder wHeld.opcode wHeld.i heldBack).isSome = true) := by
  decide +kernel

/-! ## Witnesses: the panel, scan-out, steering, the panel link -/

def load0 : PanelLoad := ⟨hd 2, 0, 0, 64, false⟩
def loading : State := { dawn with pnl := { load := some load0 } }

/-- O37: PANEL_LOAD of a buffer; a file of zeros fails R31. -/
theorem witness_PanelLoading :
    (bufOf (withBuf buf0 dawn) h0.toNat = some buf0 ∧ served (rowPanelLoad (hd 2) ⟨h0, 0, 64, 0⟩) (withBuf buf0 dawn) = true) ∧
    (loading.pnl.load = some load0 ∧ (panelBad (memGetAll loading.mem 0 64) 64).isSome = true) := by
  decide +kernel

/-- A committed frame 60 with the phases of Standard, shown by half A. -/
def frame60 : Frame := ⟨60, [0, 1, 2, 3], 0, 1, true, [], [], .session 0 0 0, true, true⟩
def shown60 : State := { lit with scn := { lit.scn with frames := [frame60], headA := { lit.scn.headA with now := ⟨1, some 60⟩ } } }
def lastSub : State := { lit with scn := { lit.scn with cur := some ⟨seg0, 60, 3⟩ } }
def fetch0 : FetchP := ⟨⟨none, [], none⟩, ⟨none, [], none⟩, [], []⟩
def flatLit : State := { litIn .flat with scn := { lit.scn with seg := some { seg0 with nq := 1 }, cur := some ⟨{ seg0 with nq := 1 }, 60, 0⟩ } }
def star0 : StarPage := ⟨0, 0, 64, 8, 1, [], []⟩
def starLit : State := { flatLit with mode := { flatLit.mode with mode := .starlight }, scn := { flatLit.scn with star := some star0 } }
def w0 (sent : Bool) : Win := ⟨sub1, 2, nsPerSec + 5000000, sent⟩
def withWin (sent : Bool) : State := { lit with scn := { lit.scn with wins := [w0 sent] } }

/-- O38: a subframe within a frame and one that begins a frame; shown, repeated and missing frames; bands, rows, windows. -/
theorem witness_FrameGrid :
    ((∀ u ∈ subframeDue lit, u.q ≠ 0) ∧ (subframeDue lit).isSome = true ∧ (∀ u ∈ subframeDue lastSub, u.q = 0) ∧
      (subframeDue lastSub).isSome = true) ∧
    ((plkOf false lit).up = true ∧ true ∈ halves lit) ∧
    (lit.mode.mode = .standard ∧ frameOf 60 shown60 = some frame60 ∧ frame60.committed = true ∧
      frame60.phases = phasesNow shown60) ∧
    (frameOf 61 shown60 = none ∧ repeatable false shown60 = some 60 ∧ frameOf 60 lit = none ∧ repeatable false lit = none) ∧
    (flatLit.mode.mode = .flat ∧ starLit.mode.mode = .starlight) ∧
    (bandDue lit = some (sub1, 0) ∧ sub1.q ≠ 0 ∧ (plkOf false lit).rows = [] ∧ (plkOf true lit).rows = [] ∧ fetch0.errs = []) ∧
    (flatLit.pnl.desc = some pd ∧ flatLit.scn.dark = none ∧ flatLit.scn.row < pd.h ∧ flatLit.scn.cur.isSome = true) ∧
    (starLit.scn.star = some star0 ∧ starLit.scn.row < star0.rows ∧ starLit.scn.dark = none) ∧
    (nextOn (withWin false) = some (w0 false) ∧ nextOff (withWin true) = some (w0 true) ∧ halfLit false lit = true) := by
  decide +kernel

def starP : StarlightSetP := ⟨0, 0, 2, 2, 1, 0, 0, 2, 0x4000, List.replicate 12 0, List.replicate 12 0⟩

/-- O39: the three layer commands in Dawn with no grid, and LAYER_SET in a lit mode. -/
theorem witness_LayerChanges :
    (layerWhen (hd 5) dawn = some (none, merNs dawn) ∧ (layerWhen (hd 5) lit).isSome = true) ∧
    (served (rowLayerSet (hd 5) ⟨1, 0, 0, 0, 0, 4, 2, 64, 0x4000, 0, 0⟩) lit = true ∧
      served (rowLayerEnable (hd 3) ⟨0, 0, 0, 0⟩) dawn = true) ∧
    served (rowStarlightSet (hd 6) starP) { dawn with pnl := lit.pnl } = true := by
  decide +kernel

def overlay : Layer := ⟨some (.host 0x4000), 0, 0, 4, 4, 16, true⟩
def hostLit : State := { lit with scn := { lit.scn with layers := [{}, overlay, {}, {}, {}] } }
def dark0 : Dark := ⟨nsPerSec, 2 * nsPerSec, 0, 1, 2 * nsPerSec, false⟩
def still : State := { litIn .stillAir with scn := { lit.scn with stillSince := some 0 } }

/-- O40: a host overlay on, Still-air held long enough, a dark interval, SCANOUT_STATUS. -/
theorem witness_ScanoutTimersAndStatus :
    (panelLit hostLit = true ∧ hostLit.mode.mode ≠ .starlight ∧
      (hostLit.scn.layers.zipIdx.any (fun e => e.2 ≠ 0 && e.1.on && e.1.isHost)) = true) ∧
    (still.scn.stillSince = some 0 ∧ still.mode.mode = .stillAir ∧ pv still 0x0D20 < still.mode.rate ∧ still.mode.change = none) ∧
    (dark0.forced = false ∧ served (rowScanoutStatus (hd 1) ⟨0, 0⟩) dawn = true ∧
      served (rowScanoutStatus (hd 1) ⟨1, 0⟩) lit = true) := by
  decide +kernel

/-- Band 0 waits for its edge, at the limit of misses or before it. -/
def edge0 : EdgeSt := { deadline := 5 }
def missing (n : Nat) : State := { powered with std := { powered.std with edges := edge0 :: List.replicate 71 {}, missPair := n } }

/-- O41: samples in Dawn and lit, settle misses, a carrier edge, drive, discharge, rest, the two commands. -/
theorem witness_Steering :
    (mainOn dawn = true ∧ dawn.mode.mode = .dawn ∧ thermBad 4080 = true ∧ thermBad 4079 = false ∧ thermBad 16 = true ∧
      thermBad 17 = false ∧ dawn.bst.adcBad = false) ∧
    (lit.mode.mode ≠ .dawn ∧ (thermDue 4 (merNs lit + 1000001) lit).isSome = true) ∧
    ((nextMiss (missing 0)).isSome = true ∧ (missing 0).std.missPair + 1 ≠ pv (missing 0) 0x0F02 ∧
      (missing (pReset 0x0F02 - 1)).std.missPair + 1 = pv (missing 0) 0x0F02) ∧
    (powered.scn.cur = some sub1 ∧ powered.std.subAt + powered.std.edge * (carrierNs powered / 2) < (nextSub sub1 powered).at_) ∧
    (0 < powered.std.level.length ∧ 63 < powered.std.level.length ∧ phasesN powered = 4) ∧
    (({ powered.std with discharge := some 5 } : StdSt).closedAt = none ∧ dawn.std.closedAt = some 0 ∧
      dawn.mode.mode ≠ .dormant) ∧
    (served (rowSteerCfg (hd 2) ⟨0, 0, 0, 0, 0⟩) { dawn with pnl := lit.pnl } = true ∧ dawn.std.powered = false) ∧
    (served (rowSteerCfg (hd 2) ⟨0, 0, 0, 0, 0⟩) powered = true ∧ served (rowSteerStatus (hd 0) 2000) dawn = true) := by
  decide +kernel


/-! ## Witnesses: the panel link -/

/-- Half A with its back lanes locked and a training in a stage. -/
def train0 : Train := ⟨32, some nsPerSec, none, none, none, 0, false, none, false⟩
def linkIn (x : Plk) : State := { lit with mode := dawn.mode, plk := { a := x, b := plkUp }, scn := {} }
def training (t : Train) : State := linkIn { lock0 := true, present := true, train := some t, hello := some ⟨1, 16, 32, 16⟩ }
def hello0 : HelloMsg := ⟨1, 16, 32, 16⟩
def pkt0 : Packet := ⟨5, ⟨false, 0, 0, [], 0, 0⟩, 1000, false⟩
def sending : State := { lit with plk := { a := { plkUp with seq := 6, sent := [pkt0] }, b := plkUp } }

/-- O42: both commands; HELLO, TSTAT 1 to 3, CINIT in their stages; ACK, NAK, STATUS and PEVT while the link is up. -/
theorem witness_LinkMessages :
    served (rowPanelLinkTrain (hd 1) ⟨1, 32, 0⟩) (linkIn { plkUp with hello := some ⟨1, 16, 32, 16⟩ }) = true ∧
    served (rowPanelPresRearm (hd 1) ⟨1, 0, 0⟩) (linkIn { plkUp with masked := true }) = true ∧
    (backOn false (training train0) = true ∧ backLock false (training train0) = true ∧
      (plkOf false (training train0)).up = false ∧ helloOk hello0 = true) ∧
    modelWrong false (linkIn { lock0 := true, hello := some ⟨2, 16, 32, 16⟩ }) = true ∧
    (train0.began.isSome = true ∧ train0.locked = none ∧
      lanesAllowed false 32 0xFFFF (training { train0 with locked := some 0xFFFF }) = true ∧
      lanesAllowed false 32 0 (training { train0 with locked := some 0 }) = false) ∧
    ((16#8).toNat = 16 ∧ (plkOf false (training { train0 with locked := some 1, skewed := some 1 })).train.isSome = true) ∧
    (backLock false sending = true ∧ 1 ≤ (32#8).toNat ∧ (32#8).toNat ≤ 32) ∧
    ((plkOf false sending).sent.find? (fun k => k.seq == 5) = some pkt0 ∧ (plkOf false sending).up = true ∧ (4#8).toNat % 4 = 0) := by
  decide +kernel

/-- O43: training may begin, times out, is repeated; a packet unanswered; presence and lock come and go. -/
theorem witness_LinkTimers :
    mayTrain false (training { train0 with began := none }) = true ∧
    (train0.began = some nsPerSec ∧ train0.failed + 1 < pv dawn 0x0E12) ∧
    (({ train0 with retry := some 5 } : Train).retry = some 5 ∧
      (plkOf false sending).sent.find? (fun k => !k.timedOut) = some pkt0) ∧
    ((plkOf false (linkIn {})).masked = false ∧ (plkOf false (linkIn {})).level = false ∧ false ∈ halves (linkIn {})) ∧
    ((plkOf false (linkIn { level := true })).level = true ∧ backLock false (linkIn { level := true }) = false ∧
      backOn false (linkIn { level := true }) = true) ∧
    (plkUp.lock0 = true ∧ plkUp.lock1 = true ∧ backLock false (linkIn { present := true }) = false) ∧
    ((plkOf false (linkIn { level := true })).level || (plkOf false (linkIn { level := true })).masked) = true := by
  decide +kernel

/-! ## Witnesses: memory, buffers, the ledger -/

/-- Pseudo-channel 3 with its window open; a fence of it decided and being copied. -/
def pcIn (x : PcSt) : State := { sweeping3 with dmc := { sweeping3.dmc with pcs := (List.replicate 64 {}).set 3 x } }
def fencing (c : Bool) : State := { dawn with dmc := { dawn.dmc with fences := [⟨3, c⟩] } }
def openRow : OpenRow := ⟨3, 31, 7, 0⟩

/-- O44: memory to be released, a window to open and to close, a refresh, an idle row, a fence, BAR2 inside a buffer. -/
theorem witness_DeviceMemory :
    dawnUnreleased.dmc.state = 2 ∧
    (3 < (pcIn {}).dmc.pcs.length ∧ (pcIn {}).dmc.state = 3 ∧ (pcIn {}).dmc.change = none ∧ (pcOf (pcIn {}) 3).winOpen = false ∧
      (pcOf (pcIn {}) 3).winSince = false ∧ ((pcIn {}).dmc.pcs.filter (·.winOpen)).length < pv (pcIn {}) 0x0704 ∧
      sweeping (pcIn {}) 3 = true) ∧
    ((pcOf (pcIn { winOpen := true }) 3).winOpen = true ∧ segmentWaits (pcIn { winOpen := true }) 3 = false ∧
      (pcIn {}).dmc.sweeps.find? (fun w => w.pc == 3) = some sweep0) ∧
    [openRow].find? (fun r => r.pc == 3 && r.bank == 31) = some openRow ∧
    ((fencing false).dmc.fences = [⟨3, false⟩] ∧
      freeUnitsIn (fencing false) (heapUnits - (fencing false).dmc.fenced.length * 8192 - 8192) (heapUnits - (fencing false).dmc.fenced.length * 8192) = 8192) ∧
    ((fencing true).dmc.fences = [⟨3, true⟩] ∧ (fencing true).dmc.state = 3) ∧
    ((∀ i ∈ List.range 4, bar2Hole (withBuf buf0 dawn) (bufAddr buf0 + i) = false ∧
      bar2Owned (withBuf buf0 dawn) (bufAddr buf0 + i) = true) ∧ bar2Live (withBuf buf0 dawn) = true ∧
      Memory.wf (withBuf buf0 dawn).mem = true) := by
  decide +kernel

def copy0 : BufCopyP := ⟨0x4000, BitVec.ofNat 64 h0.toNat, 64, 2, 0⟩
def heldBuf : Buf := { buf0 with holds := [(.cumulus, 0)] }
def bufs (b : Buf) : State :=
  let s := withBuf b dawn
  { s with buf := { s.buf with pools := [⟨0x01, 327680, [327678, 2, 0, 0, 0, 0, 0, 0, 0, 0, 0, 0], false⟩] } }

/-- O45: an allocation that fits, the free of a buffer and of one held by Cumulus. -/
theorem witness_Buffers :
    (placeFor (taken (rowBufAlloc (hd 2) ⟨100000, 16, 0⟩) dawn) (unitsFor 100000) (alignUnits ⟨100000, 16, 0⟩) = some 0 ∧
      freeBufIdx (taken (rowBufAlloc (hd 2) ⟨100000, 16, 0⟩) dawn) = some 0 ∧
      served (rowBufAlloc (hd 2) ⟨100000, 16, 0⟩) dawn = true ∧ Memory.wf dawn.mem = true) ∧
    (bufOf (taken (rowBufFree (hd 1) ⟨h0, 0⟩) (bufs buf0)) h0.toNat = some buf0 ∧
      served (rowBufFree (hd 1) ⟨h0, 0⟩) (bufs buf0) = true) ∧
    (bufOf (taken (rowBufFree (hd 1) ⟨h0, 0⟩) (bufs heldBuf)) h0.toNat = some heldBuf ∧ heldBuf.holds ≠ [] ∧
      served (rowBufFree (hd 1) ⟨h0, 0⟩) (bufs heldBuf) = true) := by
  decide +kernel

/-- O46: a query of a buffer, and one with a reserved byte set. -/
theorem witness_BufferQuery :
    (bufOf (taken (rowBufQuery (hd 1) ⟨h0, 0⟩) (bufs heldBuf)) h0.toNat = some heldBuf ∧
      served (rowBufQuery (hd 1) ⟨h0, 0⟩) (bufs heldBuf) = true ∧ bufAddr heldBuf < 2 ^ 35) ∧
    (⟨h0, 1⟩ : HandleP).rsv ≠ 0 := by
  decide +kernel

def bc0 : BufCopy := ⟨hd 4, none, some (0, bufAddr buf0), 0x4000, bufAddr buf0, 64⟩

/-- O47: a copy asked for and ending, audits asked for and at a second, a buffer in a withdrawn range. -/
theorem witness_CopiesAndLedger :
    served (rowBufCopy (hd 4) copy0) (bufs buf0) = true ∧
    ([bc0].find? (fun c => keyOf c.h == keyOf (hd 4)) = some bc0 ∧ HostMem.readFails ≠ .ok ∧ bc0.srcDev = none ∧
      bc0.dstDev.isSome = true ∧ Memory.wf (bufs buf0).mem = true) ∧
    (served (rowLedgerRead (hd 2) ⟨0x01, 0, 0x1000⟩ []) dawn = true ∧
      (∀ q ∈ poolOf (taken (rowLedgerRead (hd 2) ⟨0x01, 0, 0x1000⟩ []) dawn) 0x01, q.cols.sum = q.total)) ∧
    (mainOn dawn = true ∧ (∀ p ∈ dawn.buf.pools, p.cols.sum = p.total)) ∧
    withdrawnBufs { withBuf { buf0 with start := heapUnits - 2 } dawn with dmc := (fencing false).dmc } ≠ [] := by
  decide +kernel


/-! ## Witnesses: scenes, the codec, synthesis -/

/-- A session fed by commands, a session over the backbone. -/
def fed : Session :=
  { source := 0, loop := false, asap := false, start := some (2 * nsPerSec), maxPlanes := 4, units := 1, port := 0, streamId := 0, buf := 0, base := 0, clipLen := 0, hdr := none, next := 64 }
def overNet : Session := { fed with source := 1, port := 5000, streamId := 7, next := 0, search := true }
/-- Sessions in the two slots of a lit module. -/
def sessIn (l : List (Option Session)) : State := { lit with scene := { lit.scene with sess := l } }
def hSess : U32 := BitVec.ofNat 32 (handle 0xF0 0 1)
def openP : SceneOpenP := ⟨0, 0, 0, 0, 16, ⟨2, 0⟩, 0, 0, 0, 0⟩
def feedP (n : Nat) : SceneFeedP := ⟨hSess, BitVec.ofNat 32 n, 0, 0x4000, 0, 0⟩
def closeP : SceneCloseP := ⟨hSess, 0⟩
/-- A session whose next frame header is held (48 zero bytes: no frame header), one that decodes a frame, one that lost it. -/
def headed : Session := { fed with hdr := some ⟨4, 0, 0, 0⟩, segs := [(64, List.replicate 48 0)], feeds := 1, expect := 112 }
def decode0 : Decode := ⟨1, 9, 100, 64, 128, true, false, 0, 4, [0, 1, 2, 3], [], none, false⟩
def decoding : Session := { headed with decode := some decode0 }
def decodingBad : Session := { headed with decode := some { decode0 with bad := some 0x11 } }
def magic : List Byte := leBytes 4 0x4453564C ++ leBytes 4 7 ++ leBytes 9 0

/-- O48: a session opened, fed, refused a feed for want of room, closed both ways; a datagram; a frame begun, decoded, lost; a
drained session. -/
theorem witness_Scenes :
    ((sessIn [none, none]).scene.sess.length = 2 ∧ (sessOf 0 (sessIn [none, none])).isNone = true ∧
      served (rowSceneOpen (hd 4) openP) (sessIn [none, none]) = true) ∧
    (served (rowSceneFeed (hd 4) (feedP 64) []) (sessIn [some fed, none]) = true ∧
      feedSess (feedP 64) (taken (rowSceneFeed (hd 4) (feedP 64) []) (sessIn [some fed, none])) = some (0, fed) ∧
      (feedP 64).length.toNat ≤ feedRoom (feedP 64) fed) ∧
    (served (rowSceneFeed (hd 4) (feedP 64) []) (sessIn [some { fed with units := 0 }, none]) = true ∧
      feedSess (feedP 64) (taken (rowSceneFeed (hd 4) (feedP 64) []) (sessIn [some { fed with units := 0 }, none])) = some (0, { fed with units := 0 }) ∧
      feedRoom (feedP 64) { fed with units := 0 } < 64) ∧
    (sessSlot (taken (rowSceneCloseDrain (hd 1) closeP) (sessIn [some fed, none])) hSess.toNat = some 0 ∧
      served (rowSceneCloseDrain (hd 1) closeP) (sessIn [some fed, none]) = true) ∧
    (sessSlot (taken (rowSceneCloseNow (hd 1) closeP) (sessIn [some fed, none])) hSess.toNat = some 0 ∧
      served (rowSceneCloseNow (hd 1) closeP) (sessIn [some fed, none]) = true) ∧
    (mainOn (sessIn [some overNet, none]) = true ∧ magic.length = 17 ∧ field magic 0 4 = 0x4453564C ∧
      sessOf 0 (sessIn [some overNet, none]) = some overNet ∧ overNet.port = (5000#16).toNat ∧
      overNet.streamId = field magic 4 4) ∧
    (freeMpi (sessIn [some headed, none]) = some 0 ∧ (sessIn [some headed, none]).pnl.desc = some pd ∧ headed.decode = none ∧
      headed.ended = false ∧ nextFrame headed = some 64 ∧ (frameBytes headed 64 (sessIn [some headed, none])).isSome = true) ∧
    (sessOf 0 (sessIn [some decoding, none]) = some decoding ∧ decode0.bad = none ∧ decode0.tiles = [] ∧
      sessOf 0 (sessIn [some decodingBad, none]) = some decodingBad) ∧
    (nothingToDecode { fed with drain := some (hd 1) } (sessIn [some { fed with drain := some (hd 1) }, none]) = true ∧
      lastEnd { fed with drain := some (hd 1) } (sessIn [none, none]) = some nsPerSec) := by
  decide +kernel

def compP : CodecJobP := ⟨1, 1, 0, 1024, 0x4000, 0x8000, 2048, 4096, 0⟩
def decompP : CodecJobP := ⟨0, 0, 0, 0, 0x4000, 0x8000, 2048, 4096, 0⟩
def cjob (run : Bool) : CodecJob :=
  ⟨0, hd 6, 0x0501, run, 0x81, 0, 0, false, false, 1, 1, 1024, true, [⟨none, 0x4000, 100⟩], 0, ⟨none, 0x8000, 4096⟩, 0, 0, 0, 100, 4096, 0, [], 0, 0⟩
def jobIn (j : CodecJob) : State := { dawn with cdc := { dawn.cdc with jobs := [j] } }
def hJob : U32 := BitVec.ofNat 32 (handle 0xF1 0 1)
def resP : CodecResumeP := ⟨hJob, 1, 0, 0x8000, 0x4000, 0, 64, 0⟩
def onEngine (w : EngWork) : State := { jobIn (cjob true) with cdc := { (jobIn (cjob true)).cdc with eng := some w :: List.replicate 15 none } }

/-- O49: both jobs, a resume, an abort; an engine that takes a job, one with a tile, one with a job's block; input short;
waiting; stopped. -/
theorem witness_Codec :
    (served (rowCodecJobCompress (hd 5) compP) dawn = true ∧ served (rowCodecJobDecompress (hd 5) decompP) dawn = true) ∧
    (jobBy (taken (rowCodecResume (hd 5) resP) (jobIn (cjob false))) hJob.toNat = some (cjob false) ∧
      served (rowCodecResume (hd 5) resP) (jobIn (cjob false)) = true) ∧
    (jobBy (taken (rowCodecAbort (hd 1) ⟨hJob, 0⟩) (jobIn (cjob true))) hJob.toNat = some (cjob true) ∧
      served (rowCodecAbort (hd 1) ⟨hJob, 0⟩) (jobIn (cjob true)) = true) ∧
    (cirrusUp (jobIn (cjob true)) = true ∧ nextWork (jobIn (cjob true)) = some (.job 0) ∧
      (jobIn (cjob true)).cdc.eng.getD 0 none = none) ∧
    ((onEngine (.tile 0 ⟨0, 0, 0, 8⟩)).cdc.eng.getD 0 none = some (.tile 0 ⟨0, 0, 0, 8⟩) ∧
      (onEngine (.job 0)).cdc.eng.getD 0 none = some (.job 0) ∧ cirrusUp (onEngine (.job 0)) = true) ∧
    (inLeft (cjob true) < (cjob true).blockSize - (cjob true).inp.length ∧ (cjob true).more = true) ∧
    ((waitingJobs (jobIn (cjob true))).find? (fun j => j.idx == 0) = some (cjob true) ∧ (cjob true).starved = false ∧
      jobOf 0 (jobIn (cjob false)) = some (cjob false)) := by
  decide +kernel

/-- The header of a host MPI of one plane of 4 by 4 samples (R117). -/
def mpiHead : List Byte :=
  let b := leBytes 4 0x504D564C ++ leBytes 2 4 ++ leBytes 2 4 ++ [1, 0, 0, 0] ++ leBytes 4 64 ++ leBytes 4 128 ++ leBytes 104 0
  b ++ leBytes 4 (crc32c b)
def litBuf (bs : List Byte) : State := withBuf buf0 { lit with mem := memPutAll {} (bufAddr buf0) bs }
def submitP : FrameSubmitP := ⟨h0, 0, 0x9000, 5, 1, 0, 0⟩
def shiftP : ViewShiftP := ⟨0, 0, 100, 0, 0, 0, ⟨1, 0⟩, 0⟩
def fjob : FrameJob := ⟨hd 4, 62, 0, hostMpi {} 0 mpiHead, 0, 0, 0, false⟩
def synthOf (f : FSrc) : Synth := ⟨62, f, hostMpi {} 0 mpiHead, ⟨0, 0, 0, 0, 0, 0, 0, 0, [0, 1, 2, 3], 4, pd⟩⟩
def rendering (f : FSrc) : State := { lit with syn := { lit.syn with cur := some (synthOf f) } }
def stat62 : FrameStat := ⟨62, 3, 1, 4, 100, 0⟩
def told : State := { lit with syn := { lit.syn with stats := [stat62] } }

/-- O50: a synthesis that may start, one in its commit, missed ones with and without a job; a good submit, a bad one; the
status; a shift. -/
theorem witness_Synthesis :
    (openFrame lit = some 61 ∧ lit.syn.cur = none ∧ isRendered lit.mode.mode = true ∧ isRendered (modeAt 61 lit) = true ∧
      lit.pnl.full = true ∧ groupsOk lit ≠ 0 ∧ (freeStores pd lit).isSome = true) ∧
    (merNs (rendering (.sweep 0)) ≤ commitBy 62 (rendering (.sweep 0)) ∧
      (rendering (.sweep 0)).syn.cur = some (synthOf (.sweep 0)) ∧
      (rendering (.job fjob)).syn.kept.any (fun e => e.1 == fjob) = false) ∧
    (served (rowFrameSubmit (hd 4) submitP) (litBuf mpiHead) = true ∧
      chkFrameSubmit (hd 4) submitP (taken (rowFrameSubmit (hd 4) submitP) (litBuf mpiHead)) = none ∧
      targetFrame (hd 4) (litBuf mpiHead) = some 61 ∧
      (submitHdr submitP (taken (rowFrameSubmit (hd 4) submitP) (litBuf mpiHead))).isSome = true) ∧
    (served (rowFrameSubmit (hd 4) submitP) (litBuf []) = true ∧
      (chkFrameSubmit (hd 4) submitP (taken (rowFrameSubmit (hd 4) submitP) (litBuf []))).isSome = true) ∧
    (statAsked 62 told = some stat62 ∧ served (rowFrameStatus (hd 1) 62) told = true) ∧
    (served (rowViewShift (hd 5) shiftP) lit = true ∧ targetFrame (hd 5) lit = some 61) := by
  decide +kernel


/-! ## Witnesses: live capture -/

/-- Camera port 0 with a configuration, linked or not, in a mode. -/
def camCfg0 : CamCfg := ⟨4, 0x24, 640, 480, true, false⟩
def camIn (m : Mode) (p : CamPort) : State :=
  let s := litIn m
  { s with cam := { s.cam with ports := p :: List.replicate 15 {} } }
def camOn : CamPort := { cfg := some camCfg0, camera := true, gear := some 2 }
def i2cP : CamI2cP := ⟨0, 0x10, 2, 1, 0, 0, [1, 2, 0, 0, 0, 0, 0, 0]⟩
def mapHead : List Byte :=
  let body := leBytes 48 0
  let b := leBytes 4 0x4D52564C ++ leBytes 2 2 ++ leBytes 2 2 ++ leBytes 2 640 ++ leBytes 2 480 ++ leBytes 2 256 ++ leBytes 2 256 ++ leBytes 2 256 ++ leBytes 6 0 ++ leBytes 4 (crc32c body)
  b ++ leBytes 4 (crc32c b) ++ body
def mapP : CamMapP := ⟨0, 0, h0, 0, 80⟩
def camMap : State := withBuf buf0 { camIn .dawn { camOn with gear := none } with mem := memPutAll {} (bufAddr buf0) mapHead }
def trigP : CamTrigP := ⟨200, 10, 0, 0, List.replicate 16 0⟩
def sweepP : SweepCfgP := ⟨24, 1, 3, 0, 24, 96, (List.range 24).map (fun i => BitVec.ofNat 16 (10 * i))⟩

/-- O51: each command served: a port set, an unset one and a set one switched off, a transfer, a map, triggers, status, the
sweep. -/
theorem witness_CameraCommands :
    (served (rowCamCfgPort (hd 2) ⟨0, 1, 0x24, 640, 480, 1, 0⟩) dawn = true ∧ served (rowCamCfgOff (hd 1) ⟨0, 0⟩) dawn = true ∧
      served (rowCamCfgOff (hd 1) ⟨0, 0⟩) (camIn .dawn camOn) = true ∧ (portOf 0 (camIn .dawn camOn)).cfg.isSome = true ∧
      (portOf 0 dawn).cfg = none) ∧
    served (rowCamCfgI2c (hd 2) i2cP) (camIn .dawn camOn) = true ∧
    served (rowCamCfgMap (hd 2) mapP) camMap = true ∧
    (served (rowCamTriggerCfg (hd 5) trigP) dawn = true ∧ served (rowCamStatus (hd 1) ⟨0, 0⟩) dawn = true ∧
      served (rowSweepCfg (hd 7) sweepP) dawn = true) := by
  decide +kernel

def csi0 : CsiFrame := ⟨⟨1, 0⟩, ⟨1, 1000000⟩, 0, false, []⟩
def sky (p : CamPort) : State := camIn .skylight p
def tiny : CamCfg := ⟨4, 0x24, 1, 1, true, true⟩
def csi1 : CsiFrame := { csi0 with lines := [[1, 2, 3]] }

/-- O52: a link up, lost while quiescing and not, a transfer ended, a trigger, images in and out of Skylight, a window's end,
presence. -/
theorem witness_CameraHappenings :
    (mainOn (camIn .dawn { camOn with gear := none }) = true ∧ portPowered 0 (camIn .dawn { camOn with gear := none }) = true) ∧
    ((portOf 0 (camIn .dawn camOn)).gear.isSome = true ∧ quiescing (camIn .dawn camOn) = false ∧
      quiescing { camIn .dawn camOn with hwd := { dawn.hwd with quiesce := some ⟨0, 1, 2, 0, none, 0, false, 0⟩ } } = true) ∧
    (portOf 0 (camIn .dawn { camOn with i2c := [⟨hd 2, 16, [1, 2], 0, 1⟩] })).i2c = [⟨hd 2, 16, [1, 2], 0, 1⟩] ∧
    (frameAt (merNs (sky camOn)) (sky camOn) = some 60 ∧
      max (sky camOn).cam.fromK (max ((sky camOn).cam.trigDone.getD 0 0 + 1) (60 + 3)) = 63 ∧ (sky camOn).mode.mode = .skylight ∧
      (sky camOn).scn.dark = none ∧ cfgAt 0 63 (sky camOn) = some camCfg0 ∧ camCfg0.free = false) ∧
    (mtOf csi0.fs ≤ mtOf csi0.fe ∧ (camIn .dawn camOn).mode.mode ≠ .skylight) ∧
    (frameAt (mtOf csi0.fs) (advanceMer (mtOf csi0.fe) (sky camOn)) = some 60 ∧ (sky camOn).cam.fromK ≤ 63) ∧
    (tiny.free = true ∧ (portOf 0 (sky { camOn with cfg := some tiny })).judged.contains 63 = false ∧
      mtOf csi1.fe < windowEnd 63 (sky camOn) ∧ csi1.lines.length = tiny.h ∧
      (∀ l ∈ csi1.lines, l.length = tiny.w * pixelBytes tiny.dtype) ∧ freeCamBuf 0 (sky camOn) = some 0) ∧
    max (sky camOn).cam.fromK ((sky camOn).cam.winEnd + 1) ≤ 60 + 4 ∧
    ((portOf 0 (camIn .dawn {})).presMasked = false ∧ true ≠ (portOf 0 (camIn .dawn {})).camera) := by
  decide +kernel

def sweep60 : Sweep := ⟨63, 0, [], [], 4, {}⟩
def sweeping : State := { sky camOn with cam := { (sky camOn).cam with sweep := some sweep60 } }

/-- O53: a sweep that may start, one before its deadline. -/
theorem witness_Sweeping :
    (freeMpi (sky camOn) = some 0 ∧ nextSweep 60 (sky camOn) ≤ 63 ∧ sweepUp (sky camOn) = true ∧ (sky camOn).cam.sweep = none ∧
      sweepPorts (sky camOn) ≠ [] ∧ sweepLimit (sky camOn) ≠ 0) ∧
    (sweepUp sweeping = true ∧ merNs sweeping < frameStart (63 - 1) sweeping ∧ sweeping.pnl.desc = some pd) := by
  decide +kernel

/-! ## Witnesses: the bridge, the NV store, security -/

/-- Bridge port 1 with settings; its link up. -/
def netIn (p : NetPort) : State := { dawn with net := { dawn.net with ports := {} :: p :: List.replicate 7 {} } }
def port1 : NetPort := { speed := 2, up := true }
def frame64 : List Byte := List.replicate 64 2
def copy1 : NetCopy := ⟨0, 1, 0, frame64, 2, 0, false⟩
def queued : State := { netIn port1 with net := { (netIn port1).net with queue := [copy1] } }
def gates0 : GateList := ⟨[⟨1, 500000⟩, ⟨254, 500000⟩], 1000000, 0⟩
def parsed0 : Pkt := ⟨0x020000000002, 0x020000000001, 0, 1, none, []⟩
def stream0 : StreamCfg := ⟨0, 1, 1, 2, 0x020000000001, 5, 16, 100⟩
def streaming : State := { dawn with net := { dawn.net with streams := [stream0], runs := [{ idx := 0, high := some 5 }] } }
def learned : State := { dawn with net := { dawn.net with fdb := [⟨1, 0x020000000001, 1, 0⟩] } }

/-- O54: frames bad and good, an address to learn, a frame to send, gates with a change ahead, a stream to reset, an entry to
age, links. -/
theorem witness_BridgeTraffic :
    (netRuns (netIn port1) = true ∧ (netPort (netIn port1) 1).up = true ∧
      frame64.length + 4 ≤ (netPort (netIn port1) 1).maxFrame ∧ 64 ≤ frame64.length + 4) ∧
    (isGroup parsed0.sa = false ∧ (netIn port1).net.fdb.length < 8192) ∧
    (vlanOf parsed0.vid (netIn port1) = some ⟨1, 0x1FF, 0x1FF⟩ ∧ vlanOf 5 (netIn port1) = none) ∧
    (heads 1 queued = [copy1] ∧
      (firstStart (netPort queued 1) (heads 1 (countWaits 1 (100 * merNs queued) queued)) 1200 (100 * merNs queued)).isSome = true) ∧
    (mainOn (netIn { port1 with oper := some gates0 }) = true ∧
      (gatesAt (netPort (netIn { port1 with oper := some gates0 }) 1) (merNs (netIn { port1 with oper := some gates0 }))).2.isSome = true) ∧
    (netPort (netIn { port1 with next := some (2 * nsPerSec, gates0) }) 1).next = some (2 * nsPerSec, gates0) ∧
    (streaming.net.streams.find? (fun x => x.idx == 0) = some stream0 ∧ (runOf 0 streaming).high.isSome = true ∧
      stream0.flags.testBit 2 = true ∧ learned.net.fdb ≠ []) ∧
    (netPortState (netIn { port1 with up := false }) 1 = 1 ∧ quiescing (netIn port1) = false ∧
      served (rowNetStats (hd 1) ⟨0, 0, 0⟩) dawn = true) := by
  decide +kernel

def portP : NetPortCfgP := ⟨2, 1, 0, 0, 1, 1518, 0⟩
def admin0 : NetPort := { port1 with admin := [(0, ⟨255, 100000⟩)] }
def commitP : NetSchedCommitP := ⟨1, 1, 1000000, ⟨2, 0⟩, 0, []⟩

/-- O55: every command served, its record written. -/
theorem witness_BridgeConfiguration :
    (served (rowNetPortCfg (hd 2) portP) dawn = true ∧ served (rowNetVlanCfgVlan (hd 3) ⟨2, 3, 1, 0⟩) dawn = true ∧
      served (rowNetVlanCfgStaticEntry (hd 3) ⟨1, 3, 0x020000000001, 0⟩) dawn = true ∧
      served (rowNetVlanCfgPriorityMap (hd 3) ⟨0, 0x0706050403020100, 0⟩) dawn = true) ∧
    (served (rowNetVlanCfgStream (hd 3) ⟨0, 1, 1, 2, 0x020000000001, 1, 16, 100, 0⟩) dawn = true ∧
      served (rowNetSchedCfgWrite (hd 2) ⟨0, 0, 1, 0, [⟨255, 0, 100000⟩]⟩) dawn = true ∧
      served (rowNetSchedCfgDisable (hd 1) ⟨0, 0, []⟩) dawn = true) ∧
    (served (rowNetSchedCfgCommit (hd 3) commitP) (netIn admin0) = true ∧
      (commitList commitP (netPort (netIn admin0) 1)).isSome = true) ∧
    ((nvPut 0 0x05 0x1002 false (portRecord (portSet portP (netPort dawn 2))) 0 dawn).2 = .seq 1 ∧
      (putStatics (staticSet ⟨1, 0x020000000001, 3⟩ dawn.net.statics) (List.range 4) dawn).2 = none) := by
  decide +kernel

/-- The NV store with records of the given keys. -/
def nvWith (l : List (Nat × Nat × Nat × List Byte)) : State :=
  l.foldl (fun s e => nvOwn e.1 e.2.1 e.2.2.1 e.2.2.2 s) dawn
def stored : State := nvWith [(0, 0x80, 1, [1, 2, 3, 4, 5, 6, 7, 8])]
def readP (addr : Nat) : NvAccessP := ⟨0, 0x80, 1, 0, 8, 0, 0, BitVec.ofNat 64 addr⟩
def passP : NvPassP := ⟨0, 2, 8, 0, 0x0807060504030201⟩
def lockP : NvPassP := ⟨0, 2, 0, 0, 0⟩
def passed : State := nvWith [(4, 0x10, 1, List.replicate 64 0)]

/-- O56: a write and a deletion that are done. -/
theorem witness_NvRecords :
    ((nvPut 0 0x80 1 false [1] 0 dawn).2 = .seq 1 ∧ (nvDelete 0 0x80 1 stored).2 = .seq 2) := by
  decide +kernel

/-- O57: reads inline and to memory, a write, a deletion, passwords right and wrong, locks, a counter, a due flush. -/
theorem witness_NvCommands :
    (served (rowNvRead (hd 3) (readP 0)) stored = true ∧ nvReadInline (readP 0) = true ∧ (newest stored 0 0x80 1).isSome = true) ∧
    (served (rowNvRead (hd 3) (readP 0x4000)) stored = true ∧ nvReadInline (readP 0x4000) = false ∧ (readP 0x4000).addr ≠ 0) ∧
    (served (rowNvWrite (hd 3) (readP 0x4000) [1, 2, 3, 4, 5, 6, 7, 8] 0) dawn = true ∧
      served (rowNvWriteDelete (hd 3) { readP 0 with len := 0, flags := 4 }) stored = true) ∧
    (served (rowNvUnlock (hd 5) passP 0) dawn = true ∧ (∀ k ∈ accessKinds passP, passRec dawn 0 k = none)) ∧
    (served (rowNvUnlock (hd 5) passP 0) passed = true ∧ 1 ∈ accessKinds passP ∧ (passRec passed 0 1).isSome = true) ∧
    (served (rowNvLock (hd 5) lockP) dawn = true ∧ served (rowNvLockSetPassword (hd 5) passP) dawn = true ∧
      served (rowNvLockRemovePassword (hd 5) lockP) dawn = true) ∧
    served (rowNvCounterAdd (hd 2) ⟨0x40, 0, 5⟩) dawn = true ∧
    flushDue { dawn with evt := { dawn.evt with history := List.replicate 31 { source := 1, logged := true, evseq := 5 } } } = true := by
  decide +kernel

def chal0 : Challenge := ⟨List.replicate 48 7, 300 * nsPerSec⟩
def ownerKeyed : State := { nvWith [(3, 0x03, 0, List.replicate 96 1)] with sec := { dawn.sec with chalHost := some chal0 } }
def debugged : State := nvWith [(4, 0x11, 0, List.replicate 64 1)]
/-- FIELD_OPEN in force. -/
def opened : State := life 3 { dawn with sec := { dawn.sec with open_ := some ⟨2 * nsPerSec⟩ } }
def fleet : State := { nvWith [(3, 0x04, 0, leBytes 48 5 ++ leBytes 4 1)] with sec := { dawn.sec with quoteHost := some (List.replicate 216 0) } }

/-- O58: LIFE_GET, challenges, a response, a password, FIELD_OPEN, a quote formed and read. -/
theorem witness_Authentication :
    (served (rowLifeGet (hd 0)) dawn = true ∧ served (rowChallengeGetNew (hd 1) ⟨0, 0⟩) dawn = true) ∧
    (served (rowChallengeGetPart (hd 1) ⟨1, 0⟩) ownerKeyed = true ∧ liveChallenge .host ownerKeyed = some chal0) ∧
    (served (rowResponsePut (hd 13) ⟨0, 0, 0, 0⟩) ownerKeyed = true ∧ (ownerKey ownerKeyed).isSome = true) ∧
    (served (rowPasswordPut (hd 5) ⟨0, 8, 0, 0x0807060504030201⟩) debugged = true ∧ (debugPass debugged).isSome = true) ∧
    (served (rowAttestQuoteForm (hd 6) ⟨0, 0, 0, 0x4000, 9⟩) fleet = true ∧ fleetKey fleet = some (5, 1)) ∧
    (served (rowAttestQuotePart (hd 6) ⟨1, 0, 0, 0, 0⟩) fleet = true ∧ quoteOf .host fleet = some (List.replicate 216 0)) := by
  decide +kernel

/-- A key of 96 bytes: the base point. -/
def basePoint : List Byte := match ecG with | some g => leBytes 48 g.1 ++ leBytes 48 g.2 | none => []

/-- O59: an advance from BLANK, the end of FIELD_OPEN, the four installations. -/
theorem witness_LifeAndKeys :
    (served (rowLifeAdvance (hd 1) ⟨1, 0, 0x4C410001⟩ [] none) dawn = true ∧
      lifeStep 1 (taken (rowLifeAdvance (hd 1) ⟨1, 0, 0x4C410001⟩ [] none) dawn) = some (1, true)) ∧
    (served (rowLifeAdvance (hd 1) ⟨3, 0, 0x4C410003⟩ [] none) opened = true ∧
      lifeStep 3 (taken (rowLifeAdvance (hd 1) ⟨3, 0, 0x4C410003⟩ [] none) opened) = some (3, true) ∧
      lifeState (taken (rowLifeAdvance (hd 1) ⟨3, 0, 0x4C410003⟩ [] none) opened) = 4) ∧
    served (rowKeyInstallOwnerKey (hd 13) ⟨96, 0, 0, basePoint⟩) (life 2 dawn) = true ∧
    served (rowKeyInstallFleetKey (hd 7) ⟨48, 0, 1, leBytes 48 5⟩) (life 2 dawn) = true ∧
    served (rowKeyInstallPassword (hd 5) ⟨8, 0, 0, [1, 2, 3, 4, 5, 6, 7, 8]⟩) (life 2 dawn) = true ∧
    served (rowKeyInstallRemovePassword (hd 1) ⟨0, 0, 0, []⟩) (life 2 debugged) = true := by
  decide +kernel

/-- An update of slot B by the host. -/
def upd (e v : Option Hdr) : State := { dawn with sec := { dawn.sec with update := some ⟨.host, 1, 5120, e, v⟩, slotB := .bytes [] } }
/-- A complete staged image of 512 + 4,608 bytes. -/
def whole : State :=
  putBoot { bootCtl dawn with staged := 5120 }
    { dawn with sec := { dawn.sec with update := some ⟨.host, 1, 5120, none, none⟩, slotB := .bytes (leBytes 16 0 ++ leBytes 4 4608) } }
def sealedB : State := putBoot { bootCtl dawn with sealed := 3 } dawn
def trying : State := putBoot { bootCtl dawn with trying := 0 } dawn

/-- O60: begun, erased, filled, committed, verified, armed, confirmed, disarmed. -/
theorem witness_FirmwareUpdates :
    (served (rowFwBegin (hd 1) ⟨5120, 0⟩) dawn = true ∧
      (upd (some (hd 1)) none).sec.update = some ⟨.host, 1, 5120, some (hd 1), none⟩) ∧
    (served (rowFwChunk (hd 3) ⟨0, 8, 0, 0, 0, [1, 2, 3, 4, 5, 6, 7, 8]⟩ false) (upd none none) = true ∧
      served (rowFwChunk (hd 3) ⟨0, 8, 0, 0, 0, [1, 2, 3, 4, 5, 6, 7, 8]⟩ true) (upd none none) = true) ∧
    served (rowFwCommit (hd 0)) whole = true ∧
    ((upd none (some (hd 0))).sec.update = some ⟨.host, 1, 5120, none, some (hd 0)⟩ ∧
      (verifyImage (.bytes []) dawn).isSome = true) ∧
    (armSlot sealedB = some 1 ∧ served (rowFwActivateArm (hd 1) ⟨0, 0⟩) sealedB = true) ∧
    (served (rowFwActivateConfirm (hd 1) ⟨0, 0⟩ none) trying = true ∧ trying.sec.running = some 0) ∧
    served (rowFwActivateDisarm (hd 1) ⟨0, 0⟩) dawn = true := by
  decide +kernel


/-! ## Witnesses: the step -/

/-- O1 to O6: a queue with a command, an empty queue, a state that satisfies the invariant and steps, a command that answers.
-/
theorem witness_Step :
    ((step { dawn with pending := [.nop (hd 0)] } matches .next _) ∧ dawn.pending = []) ∧
    (Memory.wf dawn.mem = true ∧ dawn.evt.history.length ≤ 1024 ∧ dawn.cmd.sbKept.length ≤ 16 ∧ dawn.evt.evseq < 2 ^ 32) ∧
    ((step dawn matches .next _) ∧ (exec (.nop (hd 0)) dawn matches .next _)) := by
  decide +kernel

/-! ## Ill-formed commands -/

def shortThm : ThmRead := ⟨[400], none, none, 0⟩
def badRanges : DmcMeas := ⟨[], [], (0, 0), (0, 0), (0, 0)⟩
def longHd : Hdr := hd 29

/-- A header of 29 units (R396), lists shorter or longer than their packet says, an empty BAR2 write. -/
theorem test_wellFormed_lengths :
    (wellFormed (.nop longHd) = false ∧ wellFormed (.nop (hd 28)) = true) ∧
    wellFormed (.starlightSet (hd 5) { starP with host := List.replicate 9 0, len := 8 }) = false ∧
    (wellFormed (.sceneFeed (hd 4) (feedP 64) (List.replicate 65 0)) = false ∧
      wellFormed (.streamDatagram 1 (List.replicate 10 0)) = true) ∧
    (wellFormed (.camCfgI2c (hd 2) { i2cP with data := [1] }) = false ∧ wellFormed (.camCfgI2c (hd 2) i2cP) = true) ∧
    (wellFormed (.camTriggerCfg (hd 5) { trigP with skew := [] }) = false ∧
      wellFormed (.sweepCfg (hd 7) { sweepP with disp := [] }) = false) ∧
    (wellFormed (.pevt false 1 [1, 2]) = false ∧ wellFormed (.bar2Write 0 []) = false ∧ wellFormed (.carrierEdge []) = false) ∧
    (wellFormed (.netSchedCfgWrite (hd 2) ⟨0, 0, 1, 0, []⟩) = false ∧ wellFormed (.netSchedCfgCommit (hd 4) commitP) = false ∧
      wellFormed (.netSchedCfgDisable (hd 2) ⟨0, 0, []⟩) = false) ∧
    (wellFormed (.nvWrite (hd 3) (readP 0x4000) (List.replicate 9 0) 0) = false ∧
      wellFormed (.nvWrite (hd 3) { readP 0 with flags := 2 } (List.replicate 8 0) 0) = false) ∧
    (wellFormed (.keyInstallPassword (hd 5) ⟨8, 0, 0, [1]⟩) = false ∧
      wellFormed (.keyInstallOwnerKey (hd 13) ⟨96, 0, 0, []⟩) = false ∧
      wellFormed (.keyInstallFleetKey (hd 7) ⟨48, 0, 1, []⟩) = false ∧
      wellFormed (.keyInstallRemovePassword (hd 1) ⟨0, 0, 0, [1]⟩) = false) ∧
    (wellFormed (.fwChunk (hd 3) ⟨0, 8, 0, 0, 0, [1]⟩ false) = false ∧
      wellFormed (.fwChunk (hd 2) ⟨0, 2, 1, 0, 0, [1, 2, 3]⟩ false) = false) := by
  decide +kernel

/-- A thermal reading of one sensor (R305), a measurement without its ranges (R352). -/
theorem test_wellFormed_readings :
    (wellFormed (.modeSet (hd 2) { toDawn with thm := shortThm }) = false ∧ wellFormed (.thermalSample shortThm) = false ∧
      wellFormed (.confirmationSample shortThm) = false ∧ wellFormed (.thermalRead (hd 1) ⟨0, 0, shortThm⟩) = false ∧
      wellFormed (.wake shortThm) = false) ∧
    (wellFormed (.dmcReady [] badRanges) = false ∧ wellFormed (.calWindowClose 0 (.sweepEnd badRanges)) = false) := by
  decide +kernel

/-! ## Single steps against the specification -/

/-- The last reply of a command: opcode, status and the three result words. -/
def reply (o : Host.Outcome State Fault Refusal) : List Nat :=
  match o with
  | .next s => (s.out.filterMap (fun e => match e with
      | .ringReply _ _ _ _ r => some [r.opcode, r.status, r.w0, r.w1, r.w2]
      | _ => none)).getLastD []
  | _ => []
/-- A field of the next state. -/
def after {α : Type} (f : State → α) (o : Host.Outcome State Fault Refusal) : Option α :=
  match o with
  | .next s => some (f s)
  | _ => none

/-- NOP answers OK (R399); with a parameter unit it is BAD_LENGTH, 0x12 (R398); through the queue as well. -/
theorem test_packets :
    (reply (exec (.nop (hd 0)) dawn) = [0x0001, 0, 0, 0, 0] ∧ reply (exec (.nop (hd 1)) dawn) = [0x0001, 0x12, 0, 0, 0]) ∧
    reply (step { dawn with pending := [.nop (hd 0)] }) = [0x0001, 0, 0, 0, 0] := by
  decide +kernel

/-- The first buffer: handle pool 0x01, index 0, generation 1 (R363), device address 0x300000000 (R364, R372); a SIZE of 0 is
BAD_PARAM, 0x11; a held buffer is DEFERRED with its holders (R374); BUF_QUERY (R377). -/
theorem test_buffers :
    reply (exec (.bufAlloc (hd 2) ⟨100000, 16, 0⟩) dawn) = [0x0201, 0, 0x01000001, 0, 3] ∧
    reply (exec (.bufAlloc (hd 2) ⟨0, 16, 0⟩) dawn) = [0x0201, 0x11, 0, 0, 0] ∧
    reply (exec (.bufFree (hd 1) ⟨h0, 0⟩) (bufs heldBuf)) = [0x0202, 2, 2, 0, 0] ∧
    reply (exec (.bufQuery (hd 1) ⟨h0, 0⟩) (bufs heldBuf)) = [0x0204, 0, 2, 0, 0x203] := by
  decide +kernel

/-- A copy of 4 host bytes lands at its destination (R376); each byte where it belongs, none beyond. -/
theorem test_copy :
    after (fun s => memGetAll s.mem (bufAddr buf0) 5) (exec (.bufCopyDone (keyOf (hd 4)) 4 .ok [9, 8, 7, 6]) { bufs buf0 with buf := { (bufs buf0).buf with copies := [{ bc0 with len := 4 }] } }) = some [9, 8, 7, 6, 0] := by
  decide +kernel

/-- A byte written through BAR2 to a live buffer is read back (R365); below the heap it is dropped. -/
theorem test_bar2 :
    after (fun s => memGetAll s.mem (bufAddr buf0) 2) (exec (.bar2Write (BitVec.ofNat 64 (bufAddr buf0)) [0x5A, 0]) (bufs buf0)) = some [0x5A, 0] ∧
    after (·.mem) (exec (.bar2Write 0x1000 [0x5A]) (bufs buf0)) = some {} := by
  decide +kernel

/-- PARAM_SET answers the value and its takes-effect code (R412); TIMER_ARM names pool 0xF2 (R363, R289). -/
theorem test_parameters :
    (reply (exec (.paramSet (hd 2) ⟨0x0500, 0, 60000⟩) dawn) = [0x0102, 0, 60000, 0, 0] ∧
      after (fun s => pv s 0x0500) (exec (.paramSet (hd 2) ⟨0x0500, 0, 60000⟩) dawn) = some 60000) ∧
    reply (exec (.timerArm (hd 4) ⟨0, 0, 9, ⟨2, 0⟩, 0, 0⟩) dawn) = [0x0604, 0, 0xF2000001, 0, 0] := by
  decide +kernel

/-- SCENE_OPEN answers a handle of pool 0xF0 and the 16 MiB ring (R59); VIEW_SHIFT the frame it applies from (R127). -/
theorem test_scenes :
    reply (exec (.sceneOpen (hd 4) openP) (sessIn [none, none])) = [0x0302, 0, 0xF0000001, 16777216, 0] ∧
    reply (exec (.viewShift (hd 5) shiftP) lit) = [0x0307, 0, 61, 0, 0] ∧
    reply (exec (.codecJobCompress (hd 5) compP) dawn) = [0x0501, 1, 0xF1000001, 0, 0] := by
  decide +kernel

/-- NV_READ of 8 bytes inline (R473), NV_COUNTER_ADD from zero (R471), the change time of a gate list in the future (R446),
FW_CHUNK (R521). -/
theorem test_nv :
    reply (exec (.nvRead (hd 3) (readP 0)) stored) = [0x0801, 0, 8 + 8 * 65536, 0x04030201, 0x08070605] ∧
    reply (exec (.nvCounterAdd (hd 2) ⟨0x40, 0, 5⟩) dawn) = [0x0805, 0, 5, 0, 1] ∧
    reply (exec (.netSchedCfgCommit (hd 3) commitP) (netIn admin0)) = [0x0C03, 0, 2, 0, 0] ∧
    reply (exec (.fwChunk (hd 3) ⟨0, 8, 0, 0, 0, [1, 2, 3, 4, 5, 6, 7, 8]⟩ false) (upd none none)) = [0x0D02, 0, 8, 0, 0] := by
  decide +kernel

/-- CRC-32C of the nine digits (its published check value) and SHA-384 of abc (FIPS 180-4), first and last bytes. -/
theorem test_digests :
    crc32c [0x31, 0x32, 0x33, 0x34, 0x35, 0x36, 0x37, 0x38, 0x39] = 0xE3069283 ∧
    ((sha384 [0x61, 0x62, 0x63]).take 4 = [0xCB, 0x00, 0x75, 0x3F] ∧
      (sha384 [0x61, 0x62, 0x63]).drop 44 = [0x34, 0xC8, 0x25, 0xA7]) := by
  decide +kernel

/-- The bytes of a new buffer are free values of its own draw (R372, log entry 3). -/
theorem test_undefined :
    ((memBlur {} 16 4).vague = [⟨16, 4, 0⟩] ∧ (memPut (memBlur {} 16 4) 17 0).vague = [⟨16, 1, 0⟩, ⟨18, 2, 0⟩] ∧
      memGet (memPut (memBlur {} 16 4) 17 5) 17 = 5 ∧ memGet (memBlur {} 16 4) 20 = 0) := by
  decide +kernel


end Sys2Proof.Machine.Slice0
end

section
/-! PROOFS. The host's registers and its link (R6, R387 to R389, R409, R419), and the frame grid (R10, R167 to R178, R193, R211). -/

namespace Sys2Proof.Machine

/-! ## Folds, the clock, and what a row leaves alone -/

/-- A fold reaches `P` when the step of one of its elements establishes it and every step keeps it and the precondition `Q`. -/
theorem foldl_reaches {σ α : Type} {Q P : σ → Prop} {f : σ → α → σ} {a : α} {l : List α} (ha : a ∈ l)
    (hQ : ∀ s x, Q s → Q (f s x)) (hP : ∀ s x, P s → P (f s x)) (hE : ∀ s, Q s → P (f s a)) {s : σ} (h : Q s) :
    P (l.foldl f s) := by
  induction l generalizing s with
  | nil => cases ha
  | cons x r ih =>
    rcases List.mem_cons.1 ha with rfl | ha
    · exact List.foldlRecOn r f (hE s h) (fun t ht y _ => hP t y ht)
    · exact ih ha (hQ s x h)

/-- A clock brought to an instant has reached it. -/
theorem le_merNs_advanceMer (t : Nat) (s : State) : t ≤ merNs (advanceMer t s) := by
  unfold merNs advanceMer
  split
  · rename_i h; exact (Nat.le_div_iff_mul_le (by decide)).2 h
  · exact Nat.le_of_eq (Nat.mul_div_cancel t (n := fracOne) (by decide)).symm

/-- The reference clock brought to an instant has reached it. -/
theorem le_ref_advanceRef (r : Nat) (s : State) : r ≤ (advanceRef r s).time.ref := by
  unfold advanceRef
  split
  · assumption
  · simp only [ticks, ceilDiv]; omega

/-- The clock of a state that keeps the time of one brought to `n` has reached `n`. -/
theorem le_merNs_of_time {n : Nat} {s t : State} (h : t.time = (advanceMer n s).time) : n ≤ merNs t := by
  rw [merNs, h]; exact le_merNs_advanceMer n s

theorem Fit.trans {L : Nat} {s t u : State} (h : Fit L s t) (k : Fit L t u) : Fit L s u :=
  ⟨fun i => k.1 (h.1 i), fun p hp => by cases p <;> exact (k.2 _ hp).trans (h.2 _ hp)⟩

theorem sameIn.trans {p : Part} {s t u : State} (h : sameIn p s t) (k : sameIn p t u) : sameIn p s u := by
  cases p <;> exact Eq.trans k h

/-- What a row that has its own instant leaves alone. -/
theorem Fit.keeps_from_clock {L n : Nat} {s t : State} {l : List Part} (h : Fit L (advanceMer n s) t)
    (hl : maskCovers L l = true) (ht : .time ∈ l) : Keeps l s t := by
  have hclock : Fit 0x20 s (advanceMer n s) := advanceMer_fit (by decide) (Fit.refl _ s)
  have hcover : maskCovers 0x20 [.time] = true := by decide
  intro p hp
  exact sameIn.trans (hclock.keeps hcover p (fun h => hp (List.mem_singleton.1 h ▸ ht))) (h.keeps hl p hp)

theorem mem_out_emit (o : Out) (s : State) : o ∈ (emit o s).out := by simp [emit_out]

/-! ## Host accesses and registers -/

/-- An access of the host while its link is up is acted on, and counts as traffic (R387, R388). -/
theorem hostAccess_up {s : State} (f : State → State) (hup : s.cmd.up = true) : hostAccess f s = f (hostTouch s) := if_pos hup

theorem hostAccess_congr {f g : State → State} (h : ∀ s, f s = g s) (s : State) : hostAccess f s = hostAccess g s := by
  rw [funext h]

@[simp] theorem holdsLease_hostTouch (s : State) (m : Master) : holdsLease (hostTouch s) m = holdsLease s m := rfl

/-- Renewing the lease moves its expiry and nothing else of the command interface (R406). -/
theorem renewLease_eq (s : State) : ∃ e, e = merNs s + pv s 0x0500 * 1000000 ∧
    renewLease s = { s with cmd := { s.cmd with lease := { s.cmd.lease with expiry := e } } } := ⟨_, rfl, rfl⟩

theorem ringOf_setRing_self {r : Nat} {x : Ring} {s : State} (h : r < s.cmd.rings.length) : ringOf (setRing r x s) r = x := by
  simp [ringOf, setRing, h]

theorem ringOf_setRing_of_ne {r k : Nat} {x : Ring} {s : State} (h : r ≠ k) : ringOf (setRing r x s) k = ringOf s k := by
  simp [ringOf, setRing, List.getD_eq_getElem?_getD, h]

theorem assocD_assocSet_self (l : List (Nat × Nat)) (k v d : Nat) : assocD (assocSet l k v) k d = v := by
  induction l with
  | nil => simp [assocSet, assocD]
  | cons e r ih =>
    obtain ⟨a, w⟩ := e
    simp only [assocSet]
    split
    · simp [assocD]
    · split
      · simp [assocD]
      · rename_i hne _; simp [assocD, hne, ih]

/-- A 64-bit register reads the same after the touch of the host's access. -/
theorem reg64_hostTouch (off : Nat) (s : State) : reg64 off (hostTouch s) = reg64 off s := rfl

/-- Word `i` of EVT_VMAP holds the vectors of the sources 4i to 4i + 3 (R419). -/
theorem vmapWrite_vmap (i v : Nat) (s : State) : (vmapWrite i v s).evt.vmap =
    (((s.evt.vmap.set (4 * i) (bits v 4 0)).set (4 * i + 1) (bits v 12 8)).set (4 * i + 2) (bits v 20 16)).set (4 * i + 3)
      (bits v 28 24) := rfl

theorem vmapWrite_getD_same {i v b : Nat} {s : State} (hl : 4 * i + 3 < s.evt.vmap.length) (hb : b < 4) :
    (vmapWrite i v s).evt.vmap.getD (4 * i + b) 0 = bits v (8 * b + 4) (8 * b) := by
  rw [vmapWrite_vmap]
  have hb : b = 0 ∨ b = 1 ∨ b = 2 ∨ b = 3 := by omega
  rcases hb with rfl | rfl | rfl | rfl <;>
    simp [List.getD_eq_getElem?_getD, show 4 * i < s.evt.vmap.length by omega,
      show 4 * i + 1 < s.evt.vmap.length by omega, show 4 * i + 2 < s.evt.vmap.length by omega, hl]

theorem vmapWrite_getD_other {i v n : Nat} {s : State} (hn : n / 4 ≠ i) :
    (vmapWrite i v s).evt.vmap.getD n 0 = s.evt.vmap.getD n 0 := by
  have h0 : 4 * i ≠ n := by omega
  have h1 : 4 * i + 1 ≠ n := by omega
  have h2 : 4 * i + 2 ≠ n := by omega
  have h3 : 4 * i + 3 ≠ n := by omega
  simp [vmapWrite_vmap, List.getD_eq_getElem?_getD, List.getElem?_set_ne, h0, h1, h2, h3]

/-- A write to EVT_VMAP reaches the word at its offset (R389). -/
theorem regWrite_vmap {off i v : Nat} (s : State) (ho : off = 0x2100 + 4 * i) (hi : i < 64) :
    regWrite off v s = vmapWrite i v s := by
  have hw : (off - 0x2100) / 4 = i := by omega
  unfold regWrite
  rw [if_neg (by omega), if_neg (by omega), if_neg (by omega), if_neg (by omega), if_neg (by omega), if_pos (by omega), hw]

theorem regWrite_leaseHb (v : Nat) (s : State) : regWrite 0x4004 v s = leaseHb s := by simp [regWrite]
theorem regWrite_safeReq (v : Nat) (s : State) : regWrite 0x4008 v s = safeReq v s := by simp [regWrite]
theorem regWrite_evqCtl (v : Nat) (s : State) : regWrite 0x2208 v s = evqCtl v s := by simp [regWrite]
theorem regWrite_evqHead (v : Nat) (s : State) : regWrite 0x2210 v s = evqHead v s := by simp [regWrite]

/-- A write to the low word of SQ_BASE reaches the base registers of its pair (R389, R390). -/
theorem regWrite_sqBase {off r v : Nat} (s : State) (ho : off = 0x0100 + 0x20 * r) (hr : r < 16) :
    regWrite off v s = ringBase r 0 v s := by
  have hq : (off - 0x0100) / 0x20 = r := by omega
  have hm : (off - 0x0100) % 0x20 = 0 := by omega
  unfold regWrite
  rw [if_neg (by omega), if_pos (by omega)]
  simp only [hq, hm]
  rfl

/-- The low word of SQ_BASE of a pair that is off (R390). -/
theorem ringBase_low_of_off {r v : Nat} {s : State} (h : (ringOf s r).state = .off) :
    ringBase r 0 v s = setRing r { ringOf s r with sqBase := (ringOf s r).sqBase / 2 ^ 32 * 2 ^ 32 + v / 4096 * 4096 } s := by
  unfold ringBase
  rw [if_neg (by simp [h]), if_pos rfl]

/-! ## The safe hold -/

/-- Every part but the mode of the module. -/
def notMode : Nat := 0x1FFFFFBF

/-- The safe hold and its causes stand as they did. -/
def SameHold (s t : State) : Prop := t.mode.safeHold = s.mode.safeHold ∧ t.mode.causes = s.mode.causes

theorem SameHold.trans {s t u : State} (h : SameHold s t) (k : SameHold t u) : SameHold s u := ⟨k.1.trans h.1, k.2.trans h.2⟩

theorem Fit.mode_eq {s t : State} (h : Fit notMode s t) : t.mode = s.mode := h.2 .mode rfl

theorem Fit.sameHold {s t : State} (h : Fit notMode s t) : SameHold s t := by simp [SameHold, h.mode_eq]

theorem endChangeCmd_sameHold (v : Verdict) (s : State) : SameHold s (endChangeCmd v s) := by
  unfold endChangeCmd
  split
  · split <;> simp [SameHold]
  · exact ⟨rfl, rfl⟩

/-- Cancelling the pending changes leaves the safe hold. -/
theorem cancelChanges_sameHold (v : Verdict) (s : State) : SameHold s (cancelChanges v s) := by
  refine (endChangeCmd_sameHold v s).trans (SameHold.trans (t := onMode (fun m => { m with heldSet := [] }) (endChangeCmd v s))
    ⟨rfl, rfl⟩ ?_)
  exact (onThm_fit (by decide) (Fit.foldl (Fit.refl notMode _) fun t e h => finish_fit (by decide) h)).sameHold

/-- The mode and rate as `enterMode` sets them, before the blocks follow (R296). -/
def inMode (m : Mode) (rate cause : Nat) (s : State) : State :=
  onMode (fun x => { x with mode := m, rate := rate, lastCause := if m == s.mode.mode then x.lastCause else cause }) s

/-- A change of mode leaves the safe hold. -/
theorem enterMode_sameHold (m : Mode) (rate : Nat) (k : Option Nat) (cause : Nat) (s : State) :
    SameHold s (enterMode m rate k cause s) := by
  refine SameHold.trans (t := inMode m rate cause s) ⟨rfl, rfl⟩ (Fit.sameHold ?_)
  unfold enterMode
  have h := Fit.refl notMode (inMode m rate cause s)
  have h1 := Fit.ite (c := m = s.mode.mode) (fun _ => h) (fun _ => raise_fit (src := 0x01)
    (items := [(1, modeNum s.mode.mode), (1, modeNum m), (8, k.getD noFrame), (1, cause)]) (by decide) h)
  have h2 := Fit.ite (c := s.scn.seg.isSome = true) (fun _ => raise_fit (src := 0x9A)
    (items := [(1, s.mode.rate), (1, rate), (8, k.getD noFrame)]) (by decide) h1) (fun _ => h1)
  have h3 := blockChange_fit (m0 := s.mode.mode) (by decide) (sceneChange_fit (m0 := s.mode.mode) (by decide)
    (panelChange_fit (m0 := s.mode.mode) (r0 := s.mode.rate) (k := k) (by decide) (pApply_fit (eff := 3) (by decide) h2)))
  have h4 := Fit.ite (c := m = .dawn ∧ s.mode.mode ≠ .dawn) (fun _ => checkWarm_fit (by decide) h3)
    (fun _ => leaveWarm_fit (by decide) h3)
  exact Fit.ite (fun _ => startGrace_fit (by decide) h4) (fun _ => h4)

/-- The safe hold as `safeActions` enters it, before the blocks follow (R317). -/
def inSafeHold (c : SafeCause) (s : State) : State :=
  onMode (fun m => { m with safeHold := true, causes := if m.causes.contains c then m.causes else m.causes ++ [c] }) s

theorem mem_causes_inSafeHold (c : SafeCause) (s : State) : c ∈ (inSafeHold c s).mode.causes := by
  simp only [inSafeHold, onMode_mode]
  split
  · rename_i h; exact List.contains_iff_mem.1 h
  · simp

/-- What follows the entry of the safe hold leaves it standing. -/
theorem safeActions_sameHold (c : SafeCause) (s : State) : SameHold (inSafeHold c s) (safeActions c s) := by
  unfold safeActions
  extract_lets s1 _ s2 s3 s4 s5 s6 s7
  have h3 : Fit notMode s1 s3 := abandonCal_fit (L := notMode) (by decide) (endLease_fit (L := notMode) (by decide)
    (Fit.upd_buf (L := notMode) (by decide) (Fit.refl _ s1)))
  have h4 : Fit notMode s1 s4 := Fit.ite (fun _ => lightsOut_fit (by decide) h3) (fun _ => h3)
  have h5 : SameHold s1 s5 := h4.sameHold.trans ((cancelChanges_sameHold _ s4).trans
    (linksIdle_fit (by decide) (Fit.refl notMode _)).sameHold)
  have h6 : SameHold s5 s6 := by
    simp only [s6]
    split
    · simp [SameHold]
    · exact ⟨rfl, rfl⟩
  have h7 : SameHold s1 s7 := (h5.trans h6).trans
    (suspendJobs_fit (by decide) (abandonSweep_fit (by decide) (Fit.refl notMode _))).sameHold
  change SameHold s1 _
  split
  · exact h3.sameHold
  · split
    · exact h7
    · exact h7.trans (enterMode_sameHold ..)

/-- The actions of R317 leave the module in the safe hold with their cause. -/
theorem safeActions_holds (c : SafeCause) (s : State) :
    (safeActions c s).mode.safeHold = true ∧ c ∈ (safeActions c s).mode.causes := by
  obtain ⟨hHold, hCauses⟩ := safeActions_sameHold c s
  exact ⟨hHold.trans rfl, hCauses ▸ mem_causes_inSafeHold c s⟩

/-- An L4 decided outside the detach quiesce enters the safe hold with its cause (R317, R432). -/
theorem decideRecov_four_holds {dom esc : Nat} {src : Option Nat} {pay : List Byte} {cause : SafeCause} {cmd : Option (Hdr × Nat)}
    {leave : Bool} {s : State} (hq : quiescing s = false) : (decideRecov dom 4 src pay esc cause cmd leave s).mode.safeHold = true ∧
      cause ∈ (decideRecov dom 4 src pay esc cause cmd leave s).mode.causes := by
  unfold decideRecov
  rw [if_neg (by simp [hq])]
  extract_lets rseq _ s1 conf gone ahead order prior r s2
  rw [if_pos rfl, (recovRecord_fit (by decide) (Fit.refl notMode (safeActions cause s2))).mode_eq]
  exact safeActions_holds cause s2

/-- A keyed SAFE_REQ enters the safe hold (R409). -/
theorem safeReq_keyed_holds {s : State} (hq : quiescing s = false) :
    (safeReq 0x5AFE0001 s).mode.safeHold = true ∧ .request ∈ (safeReq 0x5AFE0001 s).mode.causes := by
  unfold safeReq
  rw [if_pos rfl]
  exact decideRecov_four_holds (by simpa [quiescing] using hq)

/-! ## The host's link -/

/-- A ring pair as the loss of the host's link leaves it (R388). -/
def shutRing (s : State) (r : Nat) : State := setRing r { ringOf (ringOff r s) r with enable := false } (ringOff r s)

/-- The loss of the host's link shuts the sixteen ring pairs one after the other (R388). -/
theorem linkDown_eq_foldl {s : State} (hup : s.cmd.up = true) :
    ∃ u, linkDown s = (List.range 16).foldl shutRing u ∧ u.cmd.up = false ∧ u.evt.qEnable = false := by
  unfold linkDown
  rw [if_neg (by simp [hup])]
  exact ⟨_, rfl, rfl, rfl⟩

theorem shutRing_up (s : State) (r : Nat) : (shutRing s r).cmd.up = s.cmd.up := by
  simp only [shutRing, ringOff, setRing, freeRingEntries]
  split <;> simp

theorem shutRing_evt (s : State) (r : Nat) : (shutRing s r).evt = s.evt :=
  (setRing_fit (L := 0x600) (by decide) (ringOff_fit (by decide) (Fit.refl _ s))).2 .evt rfl

/-- Writing a pair as off turns it off and leaves the state of the others. -/
theorem setRing_off_state {r k : Nat} {x : Ring} {s : State} (hx : x.state = .off) :
    (ringOf (setRing r x s) k).state = if r = k then .off else (ringOf s k).state := by
  split
  · subst r
    by_cases hk : k < s.cmd.rings.length
    · rw [ringOf_setRing_self hk, hx]
    · simp [ringOf, setRing, List.getD_eq_getElem?_getD, hk]
  · rename_i h; rw [ringOf_setRing_of_ne h]

theorem ringOff_state (s : State) (r k : Nat) :
    (ringOf (ringOff r s) k).state = if r = k then .off else (ringOf s k).state := by
  have hfree : ringOf (freeRingEntries (ringOf s r) s) k = ringOf s k := by
    have hcmd : (freeRingEntries (ringOf s r) s).cmd = s.cmd :=
      (freeRingEntries_fit (L := 0x200) (by decide) (Fit.refl _ s)).2 .cmd rfl
    rw [ringOf, hcmd, ringOf]
  rw [← hfree]
  exact setRing_off_state rfl

theorem shutRing_state (s : State) (r k : Nat) :
    (ringOf (shutRing s r) k).state = if r = k then .off else (ringOf s k).state := by
  rw [shutRing, setRing_off_state (by simp [ringOff_state]), ringOff_state]
  split <;> rfl

/-- The loss of the host's link takes it down, disables the event queue and turns every ring pair off (R388). -/
theorem linkDown_spec {s : State} (hup : s.cmd.up = true) : (linkDown s).cmd.up = false ∧ (linkDown s).evt.qEnable = false ∧
    ∀ k, k < 16 → (ringOf (linkDown s) k).state = .off := by
  obtain ⟨u, hu, hdown, hqueue⟩ := linkDown_eq_foldl hup
  rw [hu]
  refine ⟨?_, ?_, fun k hk => ?_⟩
  · exact List.foldlRecOn (motive := fun t : State => t.cmd.up = false) _ _ hdown fun t ht r _ => (shutRing_up t r).trans ht
  · exact List.foldlRecOn (motive := fun t : State => t.evt.qEnable = false) _ _ hqueue fun t ht r _ => by rw [shutRing_evt]; exact ht
  · exact foldl_reaches (Q := fun _ => True) (P := fun t => (ringOf t k).state = .off) (List.mem_range.2 hk)
      (fun _ _ _ => trivial) (fun t r ht => by simp [shutRing_state, ht]) (fun t _ => by simp [shutRing_state]) trivial

theorem hostLayersOff_up (s : State) : (hostLayersOff s).cmd.up = s.cmd.up := by
  unfold hostLayersOff
  dsimp only []
  split
  · rfl
  · simp [onHead]

/-- A reset of the function leaves the link and the rings, and disables no queue that runs. -/
theorem functionReset_spec (why : LinkDown) (s : State) : (functionReset why s).cmd.up = s.cmd.up ∧
    (functionReset why s).cmd.rings = s.cmd.rings ∧ (s.evt.qEnable = false → (functionReset why s).evt.qEnable = false) ∧
    (why = .conventionalReset → (functionReset why s).evt.pend = 0 ∧ (functionReset why s).evt.mask = 2 ^ 256 - 1) := by
  cases why <;> simp [functionReset]

/-! ## The clauses of `HostLink` -/

theorem exec_leaseHb_held {v : U32} {s : State} (hup : s.cmd.up = true) (hl : holdsLease s .host = true) :
    exec (.leaseHb v) s = .next (renewLease (hostTouch s)) := by
  have h : leaseHb (hostTouch s) = renewLease (hostTouch s) := if_pos hl
  rw [← h]; exact congrArg _ (hostAccess_up leaseHb hup)

theorem exec_leaseHb_other {v : U32} {s : State} (hup : s.cmd.up = true) (hl : holdsLease s .host = false) :
    exec (.leaseHb v) s = .next (raise 0x23 [(1, 1), (8, 0x4004)] (hostTouch s)) := by
  have h : leaseHb (hostTouch s) = raise 0x23 [(1, 1), (8, 0x4004)] (hostTouch s) := if_neg (by simp [hl])
  rw [← h]; exact congrArg _ (hostAccess_up leaseHb hup)

theorem exec_safeReq {v : U32} {s : State} (hup : s.cmd.up = true) :
    exec (.safeReq v) s = .next (safeReq v.toNat (hostTouch s)) := congrArg _ (hostAccess_up _ hup)

theorem exec_registerWrite {off : U16} {v : U32} {s : State} (hup : s.cmd.up = true) :
    exec (.registerWrite off v) s = .next (regWrite off.toNat v.toNat (hostTouch s)) := congrArg _ (hostAccess_up _ hup)

/-- The low word of a 64-bit register is read and its high word latched (R6). -/
theorem exec_reg64LowRead {off : U16} {s : State} {v : Nat} (hup : s.cmd.up = true) (hv : reg64 off.toNat s = some v) :
    exec (.reg64LowRead .host off) s = .next (emit (.regRead off.toNat (v % 2 ^ 32)) { hostTouch s with
      cmd := { (hostTouch s).cmd with hi64 := assocSet s.cmd.hi64 (off.toNat + 4) (v / 2 ^ 32) } }) := by
  simp only [exec, execReg64LowRead, ok, hostAccess_up _ hup, reg64_hostTouch, hv, reduceCtorEq, if_false]
  rfl

/-- The host's link goes down in a module that runs. -/
theorem exec_pcieLinkDown {why : LinkDown} {s : State} (hm : mainOn s = true) (hup : s.cmd.up = true) :
    exec (.pcieLinkDown why) s = .next (functionReset why (linkDown (hostLayersOff s))) := by
  simp [exec, execPcieLinkDown, hostDown, ok, hm, hup]

theorem exec_aspmL1Entry {s : State} (hup : s.cmd.up = true) (hl1 : s.cmd.l1 = false) (ho : hostOverlay s = false) :
    exec .aspmL1Entry s = .next (emit .aspmL1 { advanceRef (s.cmd.lastHost + 10000) s with
      cmd := { (advanceRef (s.cmd.lastHost + 10000) s).cmd with l1 := true } }) := by
  simp [exec, execAspmL1Entry, ok, hup, hl1, ho]

/-- Settles O16: each register and each change of the link is one of the operations above, with what that operation keeps. -/
theorem hostLink : Obligations.HostLink := by
  refine ⟨?_, fun v s => exec_leaseHb_other, ?_, ?_, ?_, ?_, ?_, ?_, ?_, ?_, ?_, ?_⟩
  · intro v s hup hl
    obtain ⟨e, hExpiry, hRenewed⟩ := renewLease_eq (hostTouch s)
    refine ⟨_, exec_leaseHb_held hup hl, ?_, ?_,
      (renewLease_fit (L := 0x400) (by decide) (hostTouch_fit (by decide) (Fit.refl _ s))).keeps (by decide)⟩
    · rw [hRenewed, hExpiry]; simp [merNs, pv]
    · simp only [holdsLease, Bool.and_eq_true, beq_iff_eq] at hl
      rw [hRenewed]; exact hl.1
  · intro s hup hq
    refine ⟨_, exec_safeReq hup, ?_⟩
    rw [show (0x5AFE0001 : U32).toNat = 0x5AFE0001 by simp]
    exact safeReq_keyed_holds hq
  · intro v s hup hv
    rw [exec_safeReq hup, safeReq, if_neg]
    exact fun h => hv (BitVec.eq_of_toNat_eq (by simpa using h))
  · intro off v s hup ho
    rw [exec_registerWrite hup, regWrite, if_pos ho]
  · intro i off v s hup ho hl
    refine ⟨_, exec_registerWrite hup, ?_⟩
    rw [regWrite_vmap _ ho i.isLt]
    exact ⟨fun b hb => vmapWrite_getD_same (by rw [hostTouch_evt]; omega) hb, fun n hn => vmapWrite_getD_other hn,
      (vmapWrite_fit (L := 0xC00) (by decide) (hostTouch_fit (by decide) (Fit.refl _ s))).keeps (by decide)⟩
  · intro r off v s hup ho hr hoff
    refine ⟨_, exec_registerWrite hup, ?_⟩
    rw [regWrite_sqBase _ ho r.isLt, ringBase_low_of_off (s := hostTouch s) hoff, ringOf_setRing_self (s := hostTouch s) hr]
    exact ⟨rfl, (setRing_fit (L := 0x400) (by decide) (hostTouch_fit (by decide) (Fit.refl _ s))).keeps (by decide)⟩
  · intro v s
    exact ⟨congrArg ok (hostAccess_congr (regWrite_leaseHb v.toNat) s), congrArg ok (hostAccess_congr (regWrite_safeReq v.toNat) s),
      congrArg ok (hostAccess_congr (regWrite_evqCtl v.toNat) s), congrArg ok (hostAccess_congr (regWrite_evqHead v.toNat) s)⟩
  · intro off s v hup hv
    exact ⟨_, exec_reg64LowRead hup hv, mem_out_emit _ _, assocD_assocSet_self _ _ _ _,
      (execReg64LowRead_fit (L := 0x402) (m := .host) (off := off) (by decide) (Fit.refl _ s) _
        (exec_reg64LowRead hup hv)).keeps (by decide)⟩
  · intro why s hm hup
    obtain ⟨hDown, hQueue, hRings⟩ := linkDown_spec ((hostLayersOff_up s).trans hup)
    obtain ⟨hUp, hSame, hEnable, hReset⟩ := functionReset_spec why (linkDown (hostLayersOff s))
    refine ⟨_, exec_pcieLinkDown hm hup, hUp.trans hDown, hEnable hQueue, fun k hk _ => ?_, hReset,
      (execPcieLinkDown_fit (L := 0x840E02) (by decide) (Fit.refl _ s) _ (exec_pcieLinkDown hm hup)).keeps (by decide)⟩
    rw [ringOf, hSame]
    exact hRings k hk
  · intro s hm hdown
    have hexec : exec .pcieLinkUp s = .next { s with cmd := { s.cmd with
        up := true, l1 := false, lostRaised := false, lastHost := s.time.ref } } := by
      simp [exec, execPcieLinkUp, ok, hm, hdown]
    exact ⟨_, hexec, rfl, rfl, (execPcieLinkUp_fit (L := 0x400) (by decide) (Fit.refl _ s) _ hexec).keeps (by decide)⟩
  · intro s hup hl1 ho
    exact ⟨_, exec_aspmL1Entry hup hl1 ho, mem_out_emit _ _, rfl, le_ref_advanceRef _ s,
      (execAspmL1Entry_fit (L := 0x422) (by decide) (Fit.refl _ s) _ (exec_aspmL1Entry hup hl1 ho)).keeps (by decide)⟩

/-! ## Heads, halves and the grid -/

@[simp] theorem headOf_onHead_self (b : Bool) (f : Head → Head) (s : State) : headOf b (onHead b f s) = f (headOf b s) := by
  cases b <;> rfl

@[simp] theorem headOf_raise (b : Bool) (src : Nat) (items : List (Nat × Nat)) (s : State) :
    headOf b (raise src items s) = headOf b s := by
  simp [headOf]

@[simp] theorem headOf_drawn (b : Bool) (s : State) : headOf b (drawn s) = headOf b s := rfl

@[simp] theorem headOf_markHold (b c on : Bool) (k : Nat) (s : State) : headOf b (markHold c on k s) = headOf b s := rfl

/-- What a half shows from `setShow` on (R173). -/
theorem headOf_setShow (b : Bool) (k : Nat) (w : Show) (s : State) :
    headOf b (setShow b k w s) = { headOf b s with before := (headOf b s).now, now := w, shownK := k } := by
  unfold setShow
  dsimp only []
  split <;> simp

theorem headOf_bgEvent (b : Bool) (k : Nat) (s : State) :
    headOf b (bgEvent b k s) = { headOf b s with bgFrames := (headOf b s).bgFrames + 1 } := by simp [bgEvent]

/-- A half in Standard shows the frame committed for `k` with the phases in force (R173 item 1). -/
theorem chooseLit_fresh {b : Bool} {k : Nat} {f : Frame} {s : State} (hm : s.mode.mode = .standard) (hf : frameOf k s = some f)
    (hc : f.committed = true) (hp : f.phases = phasesNow s) : chooseLit b k s = setShow b k ⟨1, some k⟩ s := by
  simp [chooseLit, hm, hf, hc, hp]

/-- Without a frame for `k` it repeats the frame before where that may be shown again (R173 item 2). -/
theorem chooseLit_repeat {b : Bool} {k f : Nat} {s : State} (hm : s.mode.mode = .standard) (hf : frameOf k s = none)
    (hr : repeatable b s = some f) : chooseLit b k s =
      raise (scnEvt b 0x93) [(8, k)] (onHead b (fun h => { h with repeats := h.repeats + 1 }) (setShow b k ⟨2, some f⟩ s)) := by
  simp [chooseLit, hm, hf, hr]

/-- Without either it shows the background (R173 item 3). -/
theorem chooseLit_background {b : Bool} {k : Nat} {s : State} (hm : s.mode.mode = .standard) (hf : frameOf k s = none)
    (hr : repeatable b s = none) : chooseLit b k s = bgEvent b k (setShow b k {} s) := by
  simp [chooseLit, hm, hf, hr]

theorem chooseLit_flat {b : Bool} {k : Nat} {s : State} (hm : s.mode.mode = .flat) :
    chooseLit b k s = setShow b k { (headOf b s).now with source := if (layerOf 0 s).src.isSome then 3 else 0 } s := by
  simp [chooseLit, hm]

theorem chooseLit_starlight {b : Bool} {k : Nat} {s : State} (hm : s.mode.mode = .starlight) :
    chooseLit b k s = setShow b k { (headOf b s).now with source := 4 } s := by
  simp [chooseLit, hm]

theorem halves_congr {s t : State} (h : t.pnl = s.pnl) : halves t = halves s := by rw [halves, twoHalves, h, halves, twoHalves]

theorem plkOf_congr {s t : State} (b : Bool) (h : t.plk = s.plk) : plkOf b t = plkOf b s := by rw [plkOf, h, plkOf]

theorem headOf_congr {s t : State} (b : Bool) (h : t.scn = s.scn) : headOf b t = headOf b s := by rw [headOf, h, headOf]

/-! ## Markers -/

/-- Markers sent to a list of halves under a condition: each half that meets it gets its marker, whatever the others are sent. -/
theorem mem_out_foldl_marks {c : State → Bool → Bool} {o : State → Bool → Out} {l : List Bool} {b : Bool} {s : State}
    (hc : ∀ t x b, c (emit x t) b = c t b) (ho : ∀ t x b, o (emit x t) b = o t b) (hb : b ∈ l) (h : c s b = true) :
    o s b ∈ (l.foldl (fun s b => if c s b = true then emit (o s b) s else s) s).out := by
  refine foldl_reaches (Q := fun t => c t b = true ∧ o t b = o s b) (P := fun t => o s b ∈ t.out) hb ?_ ?_ ?_ ⟨h, rfl⟩
  · intro t x ⟨h1, h2⟩
    split
    · exact ⟨(hc ..).trans h1, (ho ..).trans h2⟩
    · exact ⟨h1, h2⟩
  · intro t x ht
    split
    · simp [emit_out, ht]
    · exact ht
  · intro t ⟨h1, h2⟩
    rw [if_pos h1, h2]
    exact mem_out_emit _ _

theorem halfLit_emit (b : Bool) (o : Out) (s : State) : halfLit b (emit o s) = halfLit b s := by
  rw [halfLit, headOf_congr b (emit_scn o s), halfLit]

/-- The phases in force rest on the panel, the mode, and in Still-air on the frames kept and shown. -/
theorem phaseOf_congr {s t : State} (q : Nat) (hp : t.pnl = s.pnl) (hm : t.mode = s.mode) (hA : t.scn.headA = s.scn.headA)
    (hB : t.scn.headB = s.scn.headB) (hF : t.scn.frames = s.scn.frames) : phaseOf t q = phaseOf s q := by
  simp only [phaseOf, phasesNow, keptFrame, hp, hm, hA, hB, hF]

/-- The SUBFRAME_START marker that subframe `u` sends to a half (R168, R211). -/
def subMark (u : Sub) (b : Bool) (s : State) : Out :=
  .markSub b (4 * (u.at_ : Int) + pvs s 32 (0x0D01 + 0x80 * b2n b))
    ⟨u.q, phaseOf s u.q, !halfLit b s, s.mode.mode == .flat, s.mode.mode == .starlight, u.k, u.m⟩

theorem subMark_congr {s t : State} (u : Sub) (b : Bool) (hr : t.par = s.par) (hp : t.pnl = s.pnl) (hm : t.mode = s.mode)
    (hA : t.scn.headA = s.scn.headA) (hB : t.scn.headB = s.scn.headB) (hF : t.scn.frames = s.scn.frames) :
    subMark u b t = subMark u b s := by
  simp only [subMark, pvs, pv, phaseOf_congr u.q hp hm hA hB hF, halfLit, headOf, hr, hm, hA, hB]

theorem subMark_mem {u : Sub} {b : Bool} {s : State} (hb : b ∈ halves s) (hup : (plkOf b s).up = true) :
    subMark u b s ∈ (subMarkers u s).out :=
  mem_out_foldl_marks (c := fun s b => (plkOf b s).up) (o := fun s b => subMark u b s) (fun t x b => by simp [plkOf])
    (fun t x b => subMark_congr u b (by simp) (by simp) (by simp) (by simp) (by simp) (by simp)) hb hup

/-- The EMIT_ON or EMIT_OFF marker of a band in a half (R211). -/
def emitMark (on : Bool) (band t : Nat) (b : Bool) (s : State) : Out :=
  .markEmit b on band (4 * (t : Int) + pvs s 32 (0x0D01 + 0x80 * b2n b))

theorem emitMark_mem {on : Bool} {band t : Nat} {b : Bool} {s : State} (hb : b ∈ halves s) (hl : halfLit b s = true) :
    emitMark on band t b s ∈ (emitMarks on band t s).out :=
  mem_out_foldl_marks (c := fun s b => halfLit b s) (o := fun s b => emitMark on band t b s) (fun t x b => halfLit_emit b x t)
    (fun t x b => by simp [emitMark, pvs, pv]) hb hl

/-! ## SUBFRAME_START -/

/-- The grid at a subframe that begins no frame: the clock has reached it and it is in progress (R10). -/
def gridAt (u : Sub) (s : State) : State :=
  onScn (fun c => { c with prev := if panelLit (advanceMer u.at_ s) then c.cur else none, cur := some u, band := 0 })
    (advanceMer u.at_ s)

theorem startSub_within (u : Sub) (s : State) (hq : u.q ≠ 0) : startSub u s = subMarkers u (stdSubframe u (gridAt u s)) := by
  simp only [startSub, hq, if_false, gridAt]

theorem gridAt_fit (u : Sub) (s : State) : Fit 0x140422 s (gridAt u s) :=
  onScn_fit (by decide) (advanceMer_fit (by decide) (Fit.refl _ s))

theorem gridAt_time (u : Sub) (s : State) : (gridAt u s).time = (advanceMer u.at_ s).time := onScn_time _ _

/-- The drive and the markers leave what the grid set. -/
theorem startSub_rest_fit (u : Sub) (x : State) : Fit 0x100402 x (subMarkers u (stdSubframe u x)) :=
  subMarkers_fit (by decide) (stdSubframe_fit (by decide) (Fit.refl _ x))

/-- A trained half gets the marker of a subframe that begins no frame. -/
theorem subMark_mem_startSub {u : Sub} {s : State} {b : Bool} (hb : b ∈ halves s) (hup : (plkOf b s).up = true) :
    subMark u b s ∈ (subMarkers u (stdSubframe u (gridAt u s))).out := by
  have hd (L : Nat) (hL : In 0x100402 L) : Fit L (gridAt u s) (stdSubframe u (gridAt u s)) := stdSubframe_fit hL (Fit.refl _ _)
  have hg : Fit 0x140422 s (stdSubframe u (gridAt u s)) := (gridAt_fit u s).trans (hd _ (by decide))
  have hscn : (stdSubframe u (gridAt u s)).scn = (gridAt u s).scn := (hd 0x100402 (by decide)).2 .scn rfl
  have hmark : subMark u b (stdSubframe u (gridAt u s)) = subMark u b s :=
    subMark_congr u b (hg.2 .par rfl) (hg.2 .pnl rfl) (hg.2 .mode rfl) (by rw [hscn]; simp [gridAt]) (by rw [hscn]; simp [gridAt])
      (by rw [hscn]; simp [gridAt])
  rw [← hmark]
  exact subMark_mem (halves_congr (hg.2 .pnl rfl) ▸ hb) ((plkOf_congr b (hg.2 .plk rfl)).symm ▸ hup)

/-! ## What the rows of a slot leave of the grid -/

/-- Two scan-outs that differ at most in what the heads hold and in the emission windows. -/
def GridLike (s t : State) : Prop := ∃ a b w, t.scn = { s.scn with headA := a, headB := b, wins := w }

theorem GridLike.refl (s : State) : GridLike s s := ⟨s.scn.headA, s.scn.headB, s.scn.wins, rfl⟩

theorem GridLike.of_scn_eq {s t : State} (h : t.scn = s.scn) : GridLike s t := ⟨_, _, _, h.trans rfl⟩

theorem GridLike.trans {s t u : State} (h : GridLike s t) (k : GridLike t u) : GridLike s u := by
  obtain ⟨_, _, _, h⟩ := h
  obtain ⟨a, b, w, k⟩ := k
  exact ⟨a, b, w, by rw [k, h]⟩

theorem GridLike.band {s t : State} (h : GridLike s t) : t.scn.band = s.scn.band := by obtain ⟨_, _, _, h⟩ := h; rw [h]
theorem GridLike.cur {s t : State} (h : GridLike s t) : t.scn.cur = s.scn.cur := by obtain ⟨_, _, _, h⟩ := h; rw [h]
theorem GridLike.row {s t : State} (h : GridLike s t) : t.scn.row = s.scn.row := by obtain ⟨_, _, _, h⟩ := h; rw [h]

theorem GridLike.foldl {α : Type} {f : State → α → State} (l : List α) (hf : ∀ s x, GridLike s (f s x)) (s : State) :
    GridLike s (l.foldl f s) :=
  List.foldlRecOn (motive := GridLike s) l f (GridLike.refl s) fun t ht x _ => ht.trans (hf t x)

theorem GridLike.ite {c : Prop} [Decidable c] {s x y : State} (hx : GridLike s x) (hy : GridLike s y) :
    GridLike s (if c then x else y) := by
  split
  · exact hx
  · exact hy

theorem onHead_gridLike (b : Bool) (f : Head → Head) (s : State) : GridLike s (onHead b f s) := by
  cases b
  · exact ⟨f s.scn.headA, s.scn.headB, s.scn.wins, rfl⟩
  · exact ⟨s.scn.headA, f s.scn.headB, s.scn.wins, rfl⟩

theorem raise_onHead_gridLike (src : Nat) (items : List (Nat × Nat)) (b : Bool) (f : Head → Head) (s : State) :
    GridLike s (raise src items (onHead b f s)) :=
  (onHead_gridLike b f s).trans (GridLike.of_scn_eq (by simp))

theorem underruns_gridLike (b : Bool) (w : Show) (ls : List (Layer × Nat)) (f : FetchHalf) (s : State) :
    GridLike s (underruns b w ls f s) := by
  unfold underruns
  exact (GridLike.ite (raise_onHead_gridLike ..) (GridLike.refl s)).trans
    (GridLike.foldl _ (fun t e => GridLike.ite (raise_onHead_gridLike ..) (GridLike.refl t)) _)

theorem queueRows_scn (b : Bool) (js : List RowJob) (s : State) : (queueRows b js s).scn = s.scn :=
  (queueRows_fit (L := 0x880E02) (by decide) (Fit.refl _ s)).2 .scn rfl

theorem readHost_scn (d : PanelDesc) (ls : List (Layer × Nat)) (y n : Nat) (s : State) : (readHost d ls y n s).scn = s.scn :=
  (readHost_fit (L := 0x402) (by decide) (Fit.refl _ s)).2 .scn rfl

theorem sendRows_gridLike (d : PanelDesc) (b : Bool) (q qi : Nat) (w : Show) (layers : List Layer) (f : FetchHalf)
    (host : List (Nat × List Byte)) (y n slotEnd : Nat) (s : State) :
    GridLike s (sendRows d b q qi w layers f host y n slotEnd s) := by
  unfold sendRows
  exact (underruns_gridLike ..).trans (GridLike.of_scn_eq (queueRows_scn ..))

theorem sendBand_gridLike (u : Sub) (b : Nat) (old : Bool) (p : FetchP) (s : State) : GridLike s (sendBand u b old p s) := by
  unfold sendBand
  split
  · exact GridLike.refl s
  · dsimp only []
    exact (GridLike.of_scn_eq (readHost_scn ..)).trans
      (GridLike.foldl _ (fun t h => GridLike.ite (GridLike.refl t) (sendRows_gridLike ..)) _)

theorem checkBlock_gridLike (d : PanelDesc) (b : Bool) (w : Show) (k qi : Nat) (crc : Option Nat) (s : State) :
    GridLike s (checkBlock d b w k qi crc s) := by
  unfold checkBlock
  dsimp only []
  split
  · exact GridLike.refl s
  · exact GridLike.ite (GridLike.refl s) (raise_onHead_gridLike ..)

theorem checkPrev_gridLike (v : Sub) (old : Bool) (p : FetchP) (s : State) : GridLike s (checkPrev v old p s) := by
  unfold checkPrev
  split
  · exact GridLike.refl s
  · exact GridLike.foldl _ (fun t h => GridLike.ite (GridLike.refl t) (checkBlock_gridLike ..)) _

/-- Within a frame the end of the subframe before touches only the heads. -/
theorem endPrev_gridLike {u : Sub} (p : FetchP) (s : State) (hq : u.q ≠ 0) : GridLike s (endPrev u p s) := by
  unfold endPrev
  dsimp only []
  rw [if_neg hq]
  refine GridLike.trans ?_ (GridLike.foldl _ (fun t b => onHead_gridLike ..) _)
  split
  · exact checkPrev_gridLike ..
  · exact GridLike.refl s

theorem addWindow_gridLike (u : Sub) (b : Nat) (s : State) : GridLike s (addWindow u b s) := by
  unfold addWindow
  exact GridLike.ite ⟨_, _, _, rfl⟩ (GridLike.refl s)

/-! ## Write slots -/

theorem onPlk_eq_self {b : Bool} {f : Plk → Plk} {s : State} (h : f (plkOf b s) = plkOf b s) : onPlk b f s = s := by
  cases b <;> simp only [plkOf, if_true, if_false, Bool.false_eq_true] at h <;> simp [onPlk, h]

/-- A write slot that closes with no rows left changes nothing (R219). -/
theorem closeSlots_of_no_rows {b : Bool} {s : State} (h : (plkOf b s).rows = []) : closeSlots b s = s := by
  have hpump : pump b s = s := by simp [pump, pumpN, h]
  unfold closeSlots
  rw [hpump]
  dsimp only []
  rw [h]
  exact onPlk_eq_self (by rw [h, List.filter_nil, ← h])

theorem endSlots_of_no_rows {s : State} (h : ∀ b, (plkOf b s).rows = []) : endSlots s = s := by
  unfold endSlots
  refine List.foldlRecOn (motive := fun t : State => t = s) _ _ rfl fun t ht b _ => ?_
  subst ht
  dsimp only []
  rw [closeSlots_of_no_rows (h b), if_neg (by omega)]

/-- The slots that end at an instant hold no rows where none were left before it. -/
theorem endSlots_advanceMer {t : Nat} {s : State} (h : ∀ b, (plkOf b s).rows = []) :
    endSlots (advanceMer t s) = advanceMer t s :=
  endSlots_of_no_rows fun b => by rw [plkOf_congr b (advanceMer_plk t s)]; exact h b

theorem memErrors_nil (s : State) : memErrors [] s = s := by simp [memErrors]

/-! ## BAND_INSTANT and the rows of Flat and Starlight -/

/-- What a band instant does once the drive is counted and the band noted: the window is set, the slot before ends, the rows of
the band before are sent (R170 to R172). -/
def bandSlot (u : Sub) (b : Nat) (p : FetchP) (s : State) : State :=
  if s.scn.dark.isSome then s
  else
    let s := addWindow u b (stdBand u b (merNs s) s)
    let s := if b = 1 then endPrev u p s else s
    if b = 0 then
      match s.scn.prev with
      | some v => sendBand v (bandsN s - 1) (u.q == 0) p s
      | none => s
    else sendBand u (b - 1) false p s

/-- The state in which the rows of a band go out: the drive is counted up to the clock and the next band is due. -/
def bandNoted (b : Nat) (s : State) : State := onScn (fun c => { c with band := b + 1 }) (stdIntegrate (merNs s) s)

/-- A band instant within a frame, with no rows left in the slot that closes and no memory error. -/
theorem bandInstant_within {u : Sub} {b : Nat} {p : FetchP} {s : State} (hq : u.q ≠ 0) (hrows : ∀ h, (plkOf h s).rows = [])
    (herrs : p.errs = []) : bandInstant u b p s = bandSlot u b p (bandNoted b (advanceMer (bandAt u b s) s)) := by
  have hfirst : (u.q == 0) = false := by simpa using hq
  unfold bandInstant
  rw [endSlots_advanceMer hrows, herrs]
  simp only [memErrors_nil, hfirst, Bool.false_and, Bool.false_eq_true, if_false]
  simp only [bandSlot, bandNoted, hfirst] <;> rfl

theorem bandNoted_scn (b : Nat) (s : State) : (bandNoted b s).scn = { s.scn with band := b + 1 } := by
  have h : (stdIntegrate (merNs s) s).scn = s.scn := (stdIntegrate_fit (L := 0x100000) (by decide) (Fit.refl _ s)).2 .scn rfl
  rw [bandNoted, onScn_scn, h]

theorem bandNoted_fit (b : Nat) (s : State) : Fit 0x9D0E02 s (bandNoted b s) :=
  onScn_fit (by decide) (stdIntegrate_fit (by decide) (Fit.refl _ s))

theorem bandSlot_fit (u : Sub) (b : Nat) (p : FetchP) (s : State) : Fit 0x9D0E02 s (bandSlot u b p s) := by
  unfold bandSlot
  refine Fit.ite (fun _ => Fit.refl _ s) fun _ => ?_
  extract_lets x y
  have hx : Fit 0x9D0E02 s x := addWindow_fit (by decide) (stdBand_fit (by decide) (Fit.refl _ s))
  have hy : Fit 0x9D0E02 s y := Fit.ite (fun _ => endPrev_fit (by decide) hx) (fun _ => hx)
  split
  · split
    · exact sendBand_fit (by decide) hy
    · exact hy
  · exact sendBand_fit (by decide) hy

theorem stdBand_scn (u : Sub) (b n : Nat) (s : State) : (stdBand u b n s).scn = s.scn :=
  (stdBand_fit (L := 0x100402) (by decide) (Fit.refl _ s)).2 .scn rfl

theorem bandSlot_gridLike {u : Sub} (b : Nat) (p : FetchP) (s : State) (hq : u.q ≠ 0) : GridLike s (bandSlot u b p s) := by
  unfold bandSlot
  refine GridLike.ite (GridLike.refl s) ?_
  extract_lets x y
  have hx : GridLike s x := (GridLike.of_scn_eq (stdBand_scn ..)).trans (addWindow_gridLike ..)
  have hy : GridLike s y := hx.trans (GridLike.ite (endPrev_gridLike p x hq) (GridLike.refl x))
  split
  · split
    · exact hy.trans (sendBand_gridLike ..)
    · exact hy
  · exact hy.trans (sendBand_gridLike ..)

/-- The next row of the flat base goes out at its instant (R177, R178). -/
theorem exec_flatRowWrite {u : Sub} {d : PanelDesc} {p : FetchP} {s : State} (hcur : s.scn.cur = some u)
    (hdesc : s.pnl.desc = some d) (hm : s.mode.mode = .flat) (hdark : s.scn.dark = none) (hrow : s.scn.row < d.h)
    (hrows : ∀ h, (plkOf h s).rows = []) (herrs : p.errs = []) :
    ∃ t, exec (.flatRowWrite p) s = .next t ∧ t.scn.row = s.scn.row + 1 ∧
      Fit 0x8C0E02 (advanceMer (rowAt u s.scn.row d.h s) s) t := by
  change ∃ t, execFlatRowWrite p s = .next t ∧ _
  unfold execFlatRowWrite
  rw [hcur, hdesc]
  dsimp only []
  rw [if_neg (by simp [hm, hdark, hrow]), endSlots_advanceMer hrows, herrs, memErrors_nil]
  generalize advanceMer (rowAt u s.scn.row d.h s) s = x
  refine ⟨_, rfl, ?_, ?_⟩
  · exact (GridLike.foldl _ (fun t h => GridLike.ite (sendRows_gridLike ..) (GridLike.refl t)) _).row.trans
      (congrArg ScnSt.row (readHost_scn ..))
  · exact Fit.foldl (readHost_fit (by decide) (onScn_fit (by decide) (Fit.refl _ x)))
      fun t h ht => Fit.ite (fun _ => sendRows_fit (by decide) ht) (fun _ => ht)

/-- The next row of the Starlight window goes out at its instant (R193). -/
theorem exec_starlightRowWrite {u : Sub} {d : PanelDesc} {g : StarPage} {s : State} (hcur : s.scn.cur = some u)
    (hdesc : s.pnl.desc = some d) (hstar : s.scn.star = some g) (hm : s.mode.mode = .starlight) (hdark : s.scn.dark = none)
    (hrow : s.scn.row < g.rows) (hrows : ∀ h, (plkOf h s).rows = []) :
    ∃ t, exec .starlightRowWrite s = .next t ∧ t.scn.row = s.scn.row + 1 ∧
      Fit 0x8C0E02 (advanceMer (rowAt u s.scn.row g.rows s) s) t := by
  change ∃ t, execStarlightRowWrite s = .next t ∧ _
  unfold execStarlightRowWrite
  rw [hcur, hdesc, hstar]
  dsimp only []
  rw [if_neg (by simp [hm, hdark, hrow]), endSlots_advanceMer hrows]
  generalize advanceMer (rowAt u s.scn.row g.rows s) s = x
  refine ⟨_, rfl, ?_, ?_⟩
  · refine (GridLike.foldl _ (fun t h => ?_) _).row
    split
    · exact GridLike.of_scn_eq (queueRows_scn ..)
    · exact GridLike.refl t
  · refine Fit.foldl (onScn_fit (by decide) (Fit.refl _ x)) fun t h ht => ?_
    split
    · exact queueRows_fit (by decide) ht
    · exact ht

/-! ## Emission windows -/

theorem mem_insertBy {α : Type} {f : α → Nat} {x y : α} {l : List α} : x ∈ insertBy f y l ↔ x = y ∨ x ∈ l := by
  induction l with
  | nil => simp [insertBy]
  | cons z r ih =>
    simp only [insertBy]
    split
    · simp
    · rw [List.mem_cons, ih, List.mem_cons]; exact or_left_comm

theorem mem_sortBy {α : Type} {f : α → Nat} {x : α} {l : List α} : x ∈ sortBy f l ↔ x ∈ l := by
  induction l with
  | nil => simp [sortBy]
  | cons y r ih => simp [sortBy, mem_insertBy, ih]

/-- The window that opens next has not been sent. -/
theorem nextOn_not_sent {s : State} {w : Win} (h : nextOn s = some w) : w.sent = false := by
  have hw := mem_sortBy.1 (List.mem_of_mem_head? h)
  simpa using (List.mem_filter.1 hw).2

/-- Rewrites the list of emission windows. -/
def onWins (g : List Win → List Win) (s : State) : State := onScn (fun c => { c with wins := g c.wins }) s

theorem onWins_wins (g : List Win → List Win) (s : State) : (onWins g s).scn.wins = g s.scn.wins := rfl

theorem headOf_onWins (b : Bool) (g : List Win → List Win) (s : State) : headOf b (onWins g s) = headOf b s := by cases b <;> rfl

/-- EMIT_ON is the marking of the window and its markers (R172). -/
theorem exec_emitOn {s : State} {w : Win} (h : nextOn s = some w) : exec .emitOn s = .next (emitMarks true w.band w.on
    (onWins (fun l => l.map (fun x => if x = w then { x with sent := true } else x)) (advanceMer w.on s))) := by
  change execEmitOn s = _
  simp only [execEmitOn, h, ok, onWins]

/-- EMIT_OFF is the removal of the window and its markers (R172). -/
theorem exec_emitOff {s : State} {w : Win} (h : nextOff s = some w) : exec .emitOff s = .next (emitMarks false w.band (winEnd s w)
    (onWins (fun l => l.filter (fun x => x != w)) (advanceMer (winEnd s w) s))) := by
  change execEmitOff s = _
  simp only [execEmitOff, h, ok, onWins]

/-- A window ends 200 µs before its band switches again (R172). -/
theorem winEnd_eq (s : State) (w : Win) : winEnd s w = bandInst (nextSub w.sub s) w.band s - 200000 := by
  delta winEnd; exact Eq.refl _

/-- Only the window that opens is marked; one like it in all but the mark is that window. -/
theorem sent_of_mem_map {l : List Win} {w x : Win} (hw : w.sent = false)
    (hx : x ∈ l.map (fun y => if y = w then { y with sent := true } else y)) (hsub : x.sub = w.sub) (hband : x.band = w.band)
    (hon : x.on = w.on) : x.sent = true := by
  obtain ⟨y, -, rfl⟩ := List.mem_map.1 hx
  by_cases hy : y = w
  · simp [hy]
  · rw [if_neg hy] at hsub hband hon ⊢
    refine (Bool.not_eq_false _).mp fun hsent => hy ?_
    exact (Win.mk.injEq ..).mpr ⟨hsub, hband, hon, hsent.trans hw.symm⟩

/-- A lit half gets the marker of a window, whose instant and list of windows are no part of what the marker rests on. -/
theorem emitMark_mem_onWins {on : Bool} {band t n : Nat} {b : Bool} {g : List Win → List Win} {s : State} (hb : b ∈ halves s)
    (hl : halfLit b s = true) : emitMark on band t b s ∈ (emitMarks on band t (onWins g (advanceMer n s))).out := by
  have hfit : Fit 0x40020 s (onWins g (advanceMer n s)) := onScn_fit (by decide) (advanceMer_fit (by decide) (Fit.refl _ s))
  have hpar : (onWins g (advanceMer n s)).par = s.par := hfit.2 .par rfl
  have hmark : emitMark on band t b (onWins g (advanceMer n s)) = emitMark on band t b s := by simp only [emitMark, pvs, pv, hpar]
  rw [← hmark]
  refine emitMark_mem (halves_congr (hfit.2 .pnl rfl) ▸ hb) ?_
  rw [halfLit, headOf_onWins, headOf_congr b (advanceMer_scn n s)]
  exact hl

theorem emitMarks_scn (on : Bool) (band t : Nat) (s : State) : (emitMarks on band t s).scn = s.scn :=
  (emitMarks_fit (L := 0x402) (by decide) (Fit.refl _ s)).2 .scn rfl

/-- A window opens or closes no sooner than its instant. -/
theorem le_merNs_emitMarks (on : Bool) (band n : Nat) (g : List Win → List Win) (s : State) :
    n ≤ merNs (emitMarks on band n (onWins g (advanceMer n s))) := by
  refine le_merNs_of_time (s := s) ?_
  rw [← onScn_time (fun c => { c with wins := g c.wins }) (advanceMer n s)]
  exact (emitMarks_fit (L := 0x402) (by decide) (Fit.refl _ _)).2 .time rfl

/-! ## The clauses of `FrameGrid` -/

theorem exec_subframeStart {s : State} {u : Sub} (h : subframeDue s = some u) : exec .subframeStart s = .next (startSub u s) := by
  change execSubframeStart s = _
  simp only [execSubframeStart, h, ok]

theorem exec_bandInstant {s : State} {u : Sub} {b : Nat} {p : FetchP} (h : bandDue s = some (u, b)) :
    exec (.bandInstant p) s = .next (bandInstant u b p s) := by
  change execBandInstant p s = _
  simp only [execBandInstant, h, ok]

theorem cur_of_bandDue {s : State} {u : Sub} {b : Nat} (h : bandDue s = some (u, b)) : s.scn.cur = some u := by
  unfold bandDue at h
  split at h
  · rename_i v hv
    split at h
    · cases h; exact hv
    · cases h
  · cases h

/-- Settles O38: the clauses of the subframe, of what a half shows, of the bands and rows, and of the emission windows. -/
theorem frameGrid : Obligations.FrameGrid := by
  refine ⟨⟨?_, ?_⟩, ⟨?_, ?_, ?_, ?_, ?_⟩, ⟨?_, ?_, ?_⟩, ?_, ?_⟩
  · intro s u hdue hq
    have hrest := startSub_rest_fit u (gridAt u s)
    have hscn : (subMarkers u (stdSubframe u (gridAt u s))).scn = (gridAt u s).scn := hrest.2 .scn rfl
    refine ⟨_, startSub_within u s hq ▸ exec_subframeStart hdue, ?_, ?_, ?_,
      le_merNs_of_time (Eq.trans (hrest.2 .time rfl) (gridAt_time u s)),
      fun b hb hup => ⟨_, subMark_mem_startSub hb hup, rfl, rfl, rfl, rfl, rfl⟩, ?_⟩
    · rw [hscn]; rfl
    · rw [hscn]; rfl
    · rw [hscn]; simp [gridAt]
    · exact ((gridAt_fit u s).trans (subMarkers_fit (by decide) (stdSubframe_fit (by decide) (Fit.refl _ _)))).keeps (by decide)
  · intro s u hdue hq
    rw [exec_subframeStart hdue, startSub, if_pos hq]
  · intro b k f s hm hf hc hp
    rw [chooseLit_fresh hm hf hc hp, headOf_setShow]
    exact ⟨rfl, rfl, rfl⟩
  · intro b k f s hm hf hr
    rw [chooseLit_repeat hm hf hr, headOf_raise, headOf_onHead_self, headOf_setShow]
    exact ⟨rfl, rfl⟩
  · intro b k s hm hf hr
    rw [chooseLit_background hm hf hr, headOf_bgEvent, headOf_setShow]
    exact ⟨rfl, rfl⟩
  · intro b k s hm
    rw [chooseLit_flat hm, headOf_setShow]
  · intro b k s hm
    rw [chooseLit_starlight hm, headOf_setShow]
  · intro s u b p hdue hq hrows herrs
    refine ⟨_, (exec_bandInstant hdue).trans (by rw [bandInstant_within hq hrows herrs]), ?_⟩
    have hlike := bandSlot_gridLike b p (bandNoted b (advanceMer (bandAt u b s) s)) hq
    have hfit := (bandNoted_fit b (advanceMer (bandAt u b s) s)).trans (bandSlot_fit u b p _)
    refine ⟨?_, ?_, le_merNs_of_time (hfit.2 .time rfl), hfit.keeps_from_clock (by decide) (by decide)⟩
    · rw [hlike.band, bandNoted_scn]
    · rw [hlike.cur, bandNoted_scn, advanceMer_scn]
      exact cur_of_bandDue hdue
  · intro s u d p hcur hdesc hm hdark hrow hrows herrs
    obtain ⟨t, hexec, ht, hfit⟩ := exec_flatRowWrite hcur hdesc hm hdark hrow hrows herrs
    exact ⟨t, hexec, ht, le_merNs_of_time (hfit.2 .time rfl), hfit.keeps_from_clock (by decide) (by decide)⟩
  · intro s u d g hcur hdesc hstar hm hdark hrow hrows
    obtain ⟨t, hexec, ht, hfit⟩ := exec_starlightRowWrite hcur hdesc hstar hm hdark hrow hrows
    exact ⟨t, hexec, ht, le_merNs_of_time (hfit.2 .time rfl), hfit.keeps_from_clock (by decide) (by decide)⟩
  · intro s w hw
    refine ⟨_, exec_emitOn hw, le_merNs_emitMarks .., fun x hx => ?_, fun b hb hl => ?_,
      (execEmitOn_fit (L := 0x40422) (by decide) (Fit.refl _ s) _ (exec_emitOn hw)).keeps (by decide)⟩
    · rw [emitMarks_scn, onWins_wins] at hx
      exact sent_of_mem_map (nextOn_not_sent hw) hx
    · exact emitMark_mem_onWins hb hl
  · intro s w hw
    refine ⟨_, exec_emitOff hw, ?_, ?_, ?_, fun b hb hl => ?_, ?_⟩
    · exact winEnd_eq s w
    · exact le_merNs_emitMarks ..
    · rw [emitMarks_scn, onWins_wins]; simp
    · exact emitMark_mem_onWins hb hl
    · exact (execEmitOff_fit (L := 0x40422) (by decide) (Fit.refl _ s) _ (exec_emitOff hw)).keeps (by decide)

end Sys2Proof.Machine
end

section
/-! PROOFS. PANEL_LOAD and the end of its check (R29 to R33, R37, R106). -/

namespace Sys2Proof.Machine

/-! ## A parameter put in force -/

/-- A key that was removed reads as the default. -/
theorem assocD_assocDel_self (l : List (Nat × Nat)) (k d : Nat) : assocD (assocDel l k) k d = d := by
  induction l with
  | nil => rfl
  | cons e r ih =>
    by_cases he : e.1 = k
    · rw [assocDel, List.filter_cons_of_neg (by simpa using he)]; exact ih
    · rw [assocDel, List.filter_cons_of_pos (by simpa using he), assocD, if_neg he]; exact ih

/-- A value put in force is the value in force, whether it is stored or is the reset value and dropped (R412). -/
@[simp] theorem pv_pSet_self (id v : Nat) (s : State) : pv (pSet id v s) id = v := by
  unfold pv pSet
  split
  · next hv => rw [assocD_assocDel_self, hv]
  · exact assocD_assocSet_self ..

theorem pv_congr {s t : State} (h : t.par = s.par) (id : Nat) : pv t id = pv s id := by rw [pv, h, pv]

@[simp] theorem pSet_pnl (id v : Nat) (s : State) : (pSet id v s).pnl = s.pnl := rfl

/-! ## PANEL_LOAD arrives -/

/-- The state in which the check of a PANEL_LOAD runs: Nimbus holds the buffer and the load is noted (R33, R375). -/
def loadBegun (h : Hdr) (p : PanelLoadP) (b : Buf) (s : State) : State :=
  onPnl (fun x => { x with load := some ⟨h, b.idx, bufAddr b + p.bufOffset.toNat, p.length.toNat, p.flags.toNat.testBit 0⟩ })
    (hold b.idx .nimbus loadOwner s)

theorem runPanelLoad_of_buf {h : Hdr} {p : PanelLoadP} {b : Buf} {s : State} (hb : bufOf s p.handle.toNat = some b) :
    runPanelLoad h p s = accepted h 0x0301 0 (loadBegun h p b s) := by
  rw [runPanelLoad, hb]; rfl

/-- A PANEL_LOAD that is served begins its check and is answered ACCEPTED (R33). -/
theorem exec_panelLoad {h : Hdr} {p : PanelLoadP} {b : Buf} {s : State} (hb : bufOf (taken (rowPanelLoad h p) s) p.handle.toNat = some b)
    (hs : served (rowPanelLoad h p) s = true) :
    exec (.panelLoad h p) s = .next (accepted h 0x0301 0 (loadBegun h p b (taken (rowPanelLoad h p) s))) :=
  calc exec (.panelLoad h p) s
    _ = .next (command (rowPanelLoad h p) s) := rfl
    _ = .next (runPanelLoad h p (taken (rowPanelLoad h p) s)) := congrArg _ (command_of_served hs)
    _ = _ := congrArg _ (runPanelLoad_of_buf hb)

/-- What stands before the answer ACCEPTED: the packet taken, and the check begun. -/
theorem loadBegun_taken_fit (h : Hdr) (p : PanelLoadP) (b : Buf) (s : State) :
    Fit 0x802600 s (loadBegun h p b (taken (rowPanelLoad h p) s)) := by
  have htaken : Fit 0x802600 s (taken (rowPanelLoad h p) s) :=
    admitted_fit (r := rowPanelLoad h p) (by decide) (Fit.refl _ s)
  exact onPnl_fit (by decide) (hold_fit (by decide) htaken)

/-- The description in force stays while the check runs (R33). -/
theorem loadBegun_desc (h : Hdr) (p : PanelLoadP) (b : Buf) (s : State) : (loadBegun h p b s).pnl.desc = s.pnl.desc := rfl

/-! ## A description is installed -/

/-- The description, its summary record (R37) and its SYN_VSCALE (R106) are in force. -/
def inForce (d : PanelDesc) (s : State) : State :=
  pSet 0x0A04 (vscaleSet d) (onPnl (fun x => { x with desc := some d, full := true })
    (if nvGet s 0 0x01 0 = some (summaryBytes d) then s else nvOwn 0 0x01 0 (summaryBytes d) s))

/-- What an installation does besides (R163, R39) reaches neither the panel description nor the parameters in force. -/
theorem installPanel_fit_inForce (d : PanelDesc) (s : State) : Fit 0x8A0C12 (inForce d s) (installPanel d s) := by
  unfold installPanel
  extract_lets regrid s1 s2 s3 maps s4 said
  have h3 : Fit 0x8A0C12 s2 s3 := Fit.upd_parPend (by decide) (Fit.refl _ _)
  have h4 : Fit 0x8A0C12 s2 s4 :=
    Fit.ite (fun _ => raise_fit (by decide) (Fit.foldl h3 fun _ _ => onPort_fit (by decide))) (fun _ => h3)
  exact Fit.ite (fun _ => Fit.upd_plk (by decide) h4) (fun _ => h4)

theorem installPanel_pnl (d : PanelDesc) (s : State) : (installPanel d s).pnl = { s.pnl with desc := some d, full := true } := by
  have hkeep : (installPanel d s).pnl = (inForce d s).pnl := (installPanel_fit_inForce d s).2 .pnl rfl
  rw [hkeep, inForce, pSet_pnl, onPnl_pnl, apply_ite State.pnl, nvOwn_pnl, ite_self]

/-- SYN_VSCALE after an installation is that of the description, clamped (R106). -/
theorem installPanel_vscale (d : PanelDesc) (s : State) : pv (installPanel d s) 0x0A04 = vscaleSet d :=
  (pv_congr ((installPanel_fit_inForce d s).2 .par rfl) _).trans (pv_pSet_self ..)

/-! ## The check ends -/

/-- No PANEL_LOAD is being checked any more. -/
def loadEnded (s : State) : State := onPnl (fun x => { x with load := none }) s

theorem loadEnded_keeps (s : State) : Keeps [.pnl] s (loadEnded s) :=
  (onPnl_fit (L := 0x2000) (by decide) (Fit.refl _ s)).keeps (by decide)

/-- A file with a failure of R31 is refused with it (R30). -/
theorem exec_panelLoadCompletion_bad {s : State} {l : PanelLoad} {e : PanelBad} (hl : s.pnl.load = some l)
    (hbad : panelBad (memGetAll s.mem l.addr l.len) l.len = some e) :
    exec .panelLoadCompletion s = .next (judgeHeld (release l.buf .nimbus loadOwner
      (finish l.h 0x0301 ⟨St.badParam, e.code, e.off, e.type⟩ (loadEnded s)))) := by
  show execPanelLoadCompletion s = _
  simp only [execPanelLoadCompletion, hl, hbad]; rfl

/-- A valid file is left out, whatever its answer, or is installed and answered with its words and no difference (R30, R32). -/
theorem judgeFile_cases (l : PanelLoad) (d : PanelDesc) (s : State) :
    (judgeFile l d s).2 = false ∨ judgeFile l d s = (loadWords d false, true) := by
  unfold judgeFile
  extract_lets same differs
  split
  · exact .inl rfl
  split
  · exact .inl rfl
  split
  · exact .inl rfl
  split
  · exact .inl rfl
  split
  · exact .inl rfl
  · exact .inr rfl

theorem judgeFile_of_installed {l : PanelLoad} {d : PanelDesc} {s : State} (h : (judgeFile l d s).2 = true) :
    judgeFile l d s = (loadWords d false, true) :=
  (judgeFile_cases l d s).resolve_left (by simp [h])

/-- A valid file judged fit is installed, and answered with its words (R30, R33). -/
theorem exec_panelLoadCompletion_installed {s : State} {l : PanelLoad} (hl : s.pnl.load = some l)
    (hgood : panelBad (memGetAll s.mem l.addr l.len) l.len = none)
    (hv : (judgeFile l (panelOf (memGetAll s.mem l.addr l.len)) (loadEnded s)).2 = true) :
    exec .panelLoadCompletion s = .next (judgeHeld (release l.buf .nimbus loadOwner
      (finish l.h 0x0301 (loadWords (panelOf (memGetAll s.mem l.addr l.len)) false)
        (installPanel (panelOf (memGetAll s.mem l.addr l.len)) (loadEnded s))))) := by
  show execPanelLoadCompletion s = _
  have hj := judgeFile_of_installed hv
  simp only [execPanelLoadCompletion, hl, hgood]
  rw [← loadEnded, hj]; rfl

/-- Settles O37: PANEL_LOAD begins a check; a bad file changes nothing, a valid one judged fit is installed whole (R31 to R33). -/
theorem panelLoading : Obligations.PanelLoading := by
  refine ⟨?_, ?_, ?_⟩
  · intro h p s b hb hs
    refine ⟨_, exec_panelLoad hb hs, rfl, ?_, (loadBegun_taken_fit h p b s).keeps (by decide)⟩
    rw [loadBegun_desc]
    exact congrArg PanelSt.desc (taken_pnl _ s fun _ => rfl)
  · intro s l e hl hbad
    exact ⟨_, exec_panelLoadCompletion_bad hl hbad, rfl, rfl, rfl, loadEnded_keeps s⟩
  · rintro s l d hl hgood rfl hv
    refine ⟨_, exec_panelLoadCompletion_installed hl hgood hv, ?_, ?_, installPanel_vscale ..⟩ <;> rw [installPanel_pnl]

end Sys2Proof.Machine
end

section
/-! PROOFS. Scene sessions: their commands, the bytes they receive, the decoding of their frames and their end (R54, R57, R59 to
R67). -/

namespace Sys2Proof.Machine

/-! ## Reading a session slot after a write -/

theorem sessOf_congr {s t : State} (h : t.scene.sess = s.scene.sess) (i : Nat) : sessOf i t = sessOf i s := by rw [sessOf, h, sessOf]

theorem sessOf_of_scene_eq {s t : State} (h : t.scene = s.scene) (i : Nat) : sessOf i t = sessOf i s :=
  sessOf_congr (congrArg SceneSt.sess h) i

/-- A slot that holds a session is one of the list. -/
theorem lt_length_of_sessOf {i : Nat} {s : State} {x : Session} (h : sessOf i s = some x) : i < s.scene.sess.length := by
  refine Nat.lt_of_not_le fun hi => ?_
  simp [sessOf, List.getD_eq_getElem?_getD, List.getElem?_eq_none hi] at h

theorem sessOf_setSess_self {i : Nat} {s : State} (x : Option Session) (h : i < s.scene.sess.length) :
    sessOf i (setSess i x s) = x := by
  simp [sessOf, setSess, h]

theorem sessOf_setSess_of_ne {i k : Nat} (x : Option Session) (s : State) (h : i ≠ k) :
    sessOf k (setSess i x s) = sessOf k s := by
  simp [sessOf, setSess, List.getD_eq_getElem?_getD, h]

@[simp] theorem sessOf_setSess_none (i : Nat) (s : State) : sessOf i (setSess i none s) = none := by
  by_cases h : i < s.scene.sess.length
  · exact sessOf_setSess_self none h
  · simp [sessOf, setSess, List.getD_eq_getElem?_getD, h]

@[simp] theorem sessOf_onSess_self (i : Nat) (f : Session → Session) (s : State) :
    sessOf i (onSess i f s) = (sessOf i s).map f := by
  cases hx : sessOf i s with
  | none => rw [onSess, hx]; exact sessOf_setSess_none i s
  | some x => rw [onSess, hx]; exact sessOf_setSess_self _ (lt_length_of_sessOf hx)

/-! ## What leaves the sessions alone -/

@[simp] theorem nextGen_scene (pool idx : Nat) (s : State) : (nextGen pool idx s).scene = s.scene := rfl

@[simp] theorem release_scene (idx : Nat) (st : Stage) (owner : Nat) (s : State) : (release idx st owner s).scene = s.scene :=
  (release_fit (L := 0x800E02) (by decide) (Fit.refl _ s)).2 .scene rfl

@[simp] theorem onMpi_sess (i : Nat) (f : MpiSlot → MpiSlot) (s : State) : (onMpi i f s).scene.sess = s.scene.sess := rfl

theorem foldl_sess {α : Type} {f : State → α → State} (l : List α) (hf : ∀ s a, (f s a).scene.sess = s.scene.sess) (s : State) :
    (l.foldl f s).scene.sess = s.scene.sess :=
  List.foldlRecOn (motive := fun t : State => t.scene.sess = s.scene.sess) l f rfl fun t ht a _ => (hf t a).trans ht

@[simp] theorem mpiCollect_sess (s : State) : (mpiCollect s).scene.sess = s.scene.sess := by
  refine foldl_sess _ (fun t i => ?_) s
  dsimp only []
  split
  · rw [move_scene, onMpi_sess]
  · rfl

@[simp] theorem mpiTo_sess (i c : Nat) (s : State) : (mpiTo i c s).scene.sess = s.scene.sess := by
  unfold mpiTo
  dsimp only []
  split
  · rfl
  · rw [move_scene, onMpi_sess]

@[simp] theorem takeMpi_sess (i c : Nat) (disp : List Int) (s : State) : (takeMpi i c disp s).scene.sess = s.scene.sess := by
  rw [takeMpi, mpiTo_sess]; rfl

theorem putTile_sess (d : PanelDesc) (i p t : Nat) (bs : List Byte) (s : State) :
    (putTile d i p t bs s).scene.sess = s.scene.sess := by
  unfold putTile
  refine (onMpi_sess ..).trans (foldl_sess _ ?_ s)
  exact fun _ _ => rfl

theorem copyTile_sess (d : PanelDesc) (j i p t : Nat) (s : State) : (copyTile d j i p t s).scene.sess = s.scene.sess := by
  unfold copyTile
  split
  · exact putTile_sess ..
  · rw [setOcc, onMpi_sess]

@[simp] theorem copyRepeats_sess (d : PanelDesc) (b : List Byte) (j i np : Nat) (s : State) :
    (copyRepeats d b j i np s).scene.sess = s.scene.sess :=
  foldl_sess _ (fun t _ => foldl_sess _ (fun _ _ => copyTile_sess ..) t) s

/-! ## A packet that takes no samples -/

theorem taken_fit_of_pre_id {L : Nat} {r : Row} (hL : In 0x800600 L) (hpre : r.pre = id) (s : State) : Fit L s (taken r s) := by
  rw [taken, hpre]; exact admitted_fit hL (Fit.refl _ s)

theorem taken_scene_of_pre_id {r : Row} (hpre : r.pre = id) (s : State) : (taken r s).scene = s.scene :=
  taken_scene r s fun _ => by rw [hpre]; rfl

theorem sessOf_taken {r : Row} (hpre : r.pre = id) (i : Nat) (s : State) : sessOf i (taken r s) = sessOf i s :=
  sessOf_of_scene_eq (taken_scene_of_pre_id hpre s) i

/-- What a packet that changes one session leaves alone. -/
theorem onSess_taken_keeps {r : Row} (hpre : r.pre = id) (i : Nat) (f : Session → Session) (s : State) :
    Keeps [.scene, .buf, .cmd, .sbd] s (onSess i f (taken r s)) :=
  (onSess_fit (L := 0x804600) (by decide) (taken_fit_of_pre_id (by decide) hpre s)).keeps (by decide)

/-! ## SCENE_OPEN -/

/-- A newly opened session stands in slot `i`, whose counters restart (R59, R72). -/
def sessionEntered (i : Nat) (x : Session) (s : State) : State :=
  onStat i (fun _ => { start := x.start.getD 0 }) (setSess i (some x) { s with scene := { s.scene with opens := s.scene.opens + 1 } })

/-- The state in which a SCENE_OPEN that takes slot `i` is answered (R59). -/
def sceneOpened (h : Hdr) (p : SceneOpenP) (i : Nat) (s : State) : State :=
  let x := openSession h p s
  let s := move 0xF0 0 1 1 (move 0x14 0 3 x.units (sessionEntered i x s))
  if x.source = 2 then hold x.buf .cirrus i s else s

theorem runSceneOpen_eq {h : Hdr} {p : SceneOpenP} {i : Nat} {s : State} (hi : i = if (sessOf 0 s).isNone then 0 else 1) :
    runSceneOpen h p s = finish h 0x0302 (okay (handle 0xF0 i (genOf (sceneOpened h p i s) 0xF0 i))
      (ringBytes (openSession h p s)) 0) (sceneOpened h p i s) := by
  subst hi; rfl

theorem sceneOpened_sess (h : Hdr) (p : SceneOpenP) (i : Nat) (s : State) :
    (sceneOpened h p i s).scene.sess = (setSess i (some (openSession h p s)) s).scene.sess := by
  unfold sceneOpened
  extract_lets x u
  have hu : u.scene.sess = (setSess i (some x) s).scene.sess := by simp only [u, move_scene]; rfl
  split <;> exact hu

/-- A slot of the list gets the session opened. -/
theorem sessOf_sceneOpened_self {h : Hdr} {p : SceneOpenP} {i : Nat} {s : State} (hi : i < s.scene.sess.length) :
    sessOf i (sceneOpened h p i s) = some (openSession h p s) :=
  (sessOf_congr (sceneOpened_sess ..) i).trans (sessOf_setSess_self _ hi)

theorem sessOf_sceneOpened_of_ne {h : Hdr} {p : SceneOpenP} {i k : Nat} {s : State} (hik : i ≠ k) :
    sessOf k (sceneOpened h p i s) = sessOf k s :=
  (sessOf_congr (sceneOpened_sess ..) k).trans (sessOf_setSess_of_ne _ s hik)

theorem sceneOpened_fit {L : Nat} {s0 : State} (h : Hdr) (p : SceneOpenP) (i : Nat) {s : State} (hL : In 0x4200 L)
    (h0 : Fit L s0 s) : Fit L s0 (sceneOpened h p i s) := by
  unfold sceneOpened
  extract_lets x u
  have hscene : In 0x4000 L := In.trans (by decide) hL
  have hbuf : In 0x200 L := In.trans (by decide) hL
  have hentered : Fit L s0 (sessionEntered i x s) := onStat_fit hscene (setSess_fit hscene (Fit.upd_scene hscene h0))
  have hu : Fit L s0 u := move_fit hbuf (move_fit hbuf hentered)
  exact Fit.ite (fun _ => hold_fit hbuf hu) (fun _ => hu)

/-- A session opens with the source asked for, nothing decoded and nothing in decoding, whether it plays a clip or not (R59). -/
theorem openSession_fresh (h : Hdr) (p : SceneOpenP) (s : State) : (openSession h p s).source = p.source.toNat ∧
    (openSession h p s).frames = [] ∧ (openSession h p s).decode = none := by
  unfold openSession
  extract_lets blank
  split <;> exact ⟨rfl, rfl, rfl⟩

theorem exec_sceneOpen {h : Hdr} {p : SceneOpenP} {i : Nat} {s : State} (hi : i = if (sessOf 0 s).isNone then 0 else 1)
    (hs : served (rowSceneOpen h p) s = true) :
    exec (.sceneOpen h p) s = .next (finish h 0x0302 (okay
      (handle 0xF0 i (genOf (sceneOpened h p i (taken (rowSceneOpen h p) s)) 0xF0 i))
      (ringBytes (openSession h p (taken (rowSceneOpen h p) s))) 0) (sceneOpened h p i (taken (rowSceneOpen h p) s))) :=
  have htaken : i = if (sessOf 0 (taken (rowSceneOpen h p) s)).isNone then 0 else 1 := by
    rw [sessOf_taken rfl, hi]
  calc exec (.sceneOpen h p) s
    _ = .next (command (rowSceneOpen h p) s) := rfl
    _ = .next (runSceneOpen h p (taken (rowSceneOpen h p) s)) := congrArg _ (command_of_served hs)
    _ = _ := congrArg _ (runSceneOpen_eq htaken)

/-! ## SCENE_FEED -/

/-- A feed finds its session in the slot its handle names. -/
theorem sessOf_of_feedSess {p : SceneFeedP} {s : State} {i : Nat} {x : Session} (h : feedSess p s = some (i, x)) :
    sessOf i s = some x := by
  simp only [feedSess, Option.bind_eq_some_iff, Option.map_eq_some_iff, Prod.mk.injEq] at h
  obtain ⟨_, -, _, hx, rfl, rfl⟩ := h
  exact hx

/-- The state in which a SCENE_FEED from host memory is answered: its bytes read and put into the ring (R61). -/
def hostFed (p : SceneFeedP) (data : List Byte) (i : Nat) (s : State) : State :=
  onSess i (takeFeed p.offset.toNat (bytesAt data 0 p.length.toNat)) (emit (.hostRead p.addr.toNat p.length.toNat) s)

theorem runSceneFeed_of_room {h : Hdr} {p : SceneFeedP} {data : List Byte} {s : State} {i : Nat} {x : Session}
    (hx : feedSess p s = some (i, x)) (hroom : p.length.toNat ≤ feedRoom p x) (hk : p.kind = 0) :
    ∃ v, v.status = St.ok ∧ runSceneFeed h p data s = judgeStreamHdr i (finish h 0x0303 v (hostFed p data i s)) := by
  simp only [runSceneFeed, hx, if_neg (Nat.not_lt.2 hroom), hk]
  exact ⟨okay _ _, rfl, rfl⟩

theorem runSceneFeed_of_no_room {h : Hdr} {p : SceneFeedP} {data : List Byte} {s : State} {i : Nat} {x : Session}
    (hx : feedSess p s = some (i, x)) (hroom : feedRoom p x < p.length.toNat) :
    runSceneFeed h p data s = finish h 0x0303 ⟨St.noSpace, feedRoom p x % 2 ^ 32, 0, 0⟩
      (onSess i (fun x => { x with refused := some p.length.toNat }) s) := by
  simp only [runSceneFeed, hx, if_pos hroom]

theorem exec_sceneFeed {h : Hdr} {p : SceneFeedP} {data : List Byte} {s : State} (hs : served (rowSceneFeed h p data) s = true) :
    exec (.sceneFeed h p data) s = .next (runSceneFeed h p data (taken (rowSceneFeed h p data) s)) :=
  congrArg Host.Outcome.next (command_of_served hs)

theorem sessOf_hostFed {p : SceneFeedP} {data : List Byte} {s : State} {i : Nat} {x : Session} (hx : sessOf i s = some x) :
    sessOf i (hostFed p data i s) = some (takeFeed p.offset.toNat (bytesAt data 0 p.length.toNat) x) := by
  rw [hostFed, sessOf_onSess_self, sessOf_of_scene_eq (emit_scene _ s), hx]; rfl

/-! ## SCENE_CLOSE -/

/-- SCENE_CLOSE with HOW DRAIN notes the drain and answers ACCEPTED (R65). -/
theorem exec_sceneCloseDrain {h : Hdr} {p : SceneCloseP} {s : State} {i : Nat}
    (hi : sessSlot (taken (rowSceneCloseDrain h p) s) p.session.toNat = some i) (hs : served (rowSceneCloseDrain h p) s = true) :
    exec (.sceneCloseDrain h p) s = .next (accepted h 0x0304 0
      (onSess i (fun x => { x with drain := some h }) (taken (rowSceneCloseDrain h p) s))) := by
  refine congrArg Host.Outcome.next ((command_of_served hs).trans ?_)
  simp only [rowSceneCloseDrain] at hi ⊢
  rw [hi]

/-- SCENE_CLOSE with HOW NOW leaves the session to the next display frame and answers OK (R65). -/
theorem exec_sceneCloseNow {h : Hdr} {p : SceneCloseP} {s : State} {i : Nat}
    (hi : sessSlot (taken (rowSceneCloseNow h p) s) p.session.toNat = some i) (hs : served (rowSceneCloseNow h p) s = true) :
    exec (.sceneCloseNow h p) s = .next (finish h 0x0304 (okay)
      (onSess i (fun x => { x with closing := true }) (taken (rowSceneCloseNow h p) s))) := by
  refine congrArg Host.Outcome.next ((command_of_served hs).trans ?_)
  simp only [rowSceneCloseNow] at hi ⊢
  rw [hi]

/-! ## STREAM_DATAGRAM -/

/-- A session as the bytes at a stream offset leave it: those from its decode point on that its ring has room for are held (R63). -/
def placed (o : Nat) (bs : List Byte) (x : Session) : Session :=
  let from_ := if x.segs = [] ∧ x.ref.isNone ∧ x.next = 0 then o else x.next
  let room := from_ + ringBytes x - max o from_
  { x with next := from_, segs := segAdd x.segs (max o from_) ((bs.drop (from_ - o)).take room),
           expect := max x.expect (max o from_ + min room (bs.drop (from_ - o)).length) }

theorem sessOf_placeData {i : Nat} {s : State} {x : Session} (o : Nat) (bs : List Byte) (hx : sessOf i s = some x) :
    sessOf i (placeData i o bs s) = some (placed o bs x) := by
  have hsess : (placeData i o bs s).scene.sess = (setSess i (some (placed o bs x)) s).scene.sess := by
    simp only [placeData, onSess, hx]
    rfl
  rw [sessOf_congr hsess, sessOf_setSess_self _ (lt_length_of_sessOf hx)]

/-- EXPECT never falls with a datagram. -/
theorem le_expect_placed (o : Nat) (bs : List Byte) (x : Session) : x.expect ≤ (placed o bs x).expect := Nat.le_max_left ..

theorem find_slot {q : Nat → Bool} {i : Nat} (hi : i ≤ 1) (hq : q i = true) (hfirst : i = 1 → q 0 = false) :
    [0, 1].find? q = some i := by
  obtain rfl | rfl : i = 0 ∨ i = 1 := by omega
  · exact List.find?_cons_of_pos hq
  · rw [List.find?_cons_of_neg (by simp [hfirst rfl])]; exact List.find?_cons_of_pos hq

/-- A datagram goes to the lowest slot whose session listens on its port for its stream (R63). -/
theorem streamIn_of_session {port : Nat} {payload : List Byte} {s : State} {i : Nat} {x : Session} (hm : mainOn s = true)
    (hmin : 17 ≤ payload.length) (hmax : payload.length ≤ 8960) (hmagic : field payload 0 4 = 0x4453564C)
    (hx : sessOf i s = some x) (hsrc : x.source = 1) (hport : x.port = port) (hid : x.streamId = field payload 4 4) (hi : i ≤ 1)
    (hfirst : ∀ y, i = 1 → sessOf 0 s = some y → ¬(y.source = 1 ∧ y.port = port ∧ y.streamId = field payload 4 4)) :
    streamIn port payload s = judgeStreamHdr i (placeData i (field payload 8 8) (payload.drop 16) s) := by
  unfold streamIn
  extract_lets wanted
  have htakes : wanted i = true := by simp [wanted, hx, hsrc, hport, hid]
  have hlower : i = 1 → wanted 0 = false := by
    intro h1
    cases hy : sessOf 0 s with
    | none => simp [wanted, hy]
    | some y => simpa [wanted, hy, and_assoc] using hfirst y h1 hy
  rw [if_neg (by simp [hm, hmagic, hmin, hmax]), find_slot hi htakes hlower]

/-! ## The decoding of a frame -/

/-- A session in which the decoding `c` of the frame at offset `o` has begun (R57). -/
def begun (c : Decode) (o : Nat) (x : Session) : Session := { x with decode := some c, next := o, search := false }

theorem sessOf_sayCut_isSome (i : Nat) (x : Session) (s : State) : (sessOf i (sayCut i x s)).isSome = (sessOf i s).isSome := by
  unfold sayCut
  split
  · rfl
  · rw [sessOf_of_scene_eq (raise_scene ..), sessOf_onSess_self, Option.isSome_map]

/-- A decoding begins with the frame's number, its PTS and the first check of R54 it fails; without one it fills the free MPI slot
(R57). -/
theorem beginDecode_eq {i : Nat} {s : State} (x : Session) (d : PanelDesc) (o : Nat) (b : List Byte) (m : Nat)
    (hs : (sessOf i s).isSome = true) : ∃ c u, beginDecode i x d o b m s = onSess i (begun c o) u ∧ (sessOf i u).isSome = true ∧
      c.off = o ∧ c.bad = frameBad d x b ∧ c.num = field b 8 4 ∧ c.pts = field b 16 8 ∧ (c.bad = none → c.mpi = m) := by
  unfold beginDecode
  extract_lets c0 s1 base put np s2 disp s3 s4
  have h1 : (sessOf i s1).isSome = true := hs
  have h2 : (sessOf i s2).isSome = true := by
    simp only [s2]
    split
    · rw [sessOf_sayCut_isSome]; exact h1
    · exact h1
  have h3 : s3.scene.sess = s2.scene.sess := takeMpi_sess ..
  have h4 : s4.scene.sess = s3.scene.sess := by
    simp only [s4]
    split
    · exact copyRepeats_sess ..
    · rfl
  split
  · rename_i hbad
    exact ⟨base, s1, rfl, h1, rfl, rfl, rfl, rfl, fun hnone => by simp [hnone] at hbad⟩
  · exact ⟨_, s4, rfl, (congrArg _ (sessOf_congr (h4.trans h3) i)).trans h2, rfl, rfl, rfl, rfl, fun _ => rfl⟩

theorem exec_streamFrameDecodeStart {slot : Fin 2} {s : State} {x : Session} {d : PanelDesc} {m o : Nat} {b : List Byte}
    (hx : sessOf slot.val s = some x) (hd : s.pnl.desc = some d) (hm : freeMpi s = some m) (hdec : x.decode = none)
    (hend : x.ended = false) (hdmc : s.dmc.state = 3) (hhdr : ¬(x.source = 0 ∧ x.hdr = none)) (ho : nextFrame x = some o)
    (hb : frameBytes x o s = some b) : exec (.streamFrameDecodeStart slot) s = .next (beginDecode slot.val x d o b m s) := by
  change execStreamFrameDecodeStart slot s = _
  have hready : ¬((x.decode.isSome || x.ended || decide (s.dmc.state ≠ 3) || (x.source == 0 && x.hdr.isNone)) = true) := by
    simpa [hdec, hend, hdmc] using hhdr
  simp only [execStreamFrameDecodeStart, hx, hd, hm, ho, hb, ok]
  rw [if_neg (by simpa using hready)]

/-- The frame that a decoding leaves in its MPI slot (R55, R57). -/
def wholeFrame (x : Session) (c : Decode) (s : State) : SFrame :=
  ⟨c.uid, c.num, c.pts + lapOffset x s, c.mpi, c.last, x.lateSaid.contains c.off, lapOffset x s⟩

/-- A session with a newest frame, which is the reference of the next (R57). -/
def withFrame (c : Decode) (f : SFrame) (x : Session) : Session :=
  { goOn c x with frames := x.frames ++ [f], ref := some ⟨c.num, c.pts, c.disp.length, c.mpi⟩ }

/-- With every tile decoded and no engine at work on one, the frame joins those of its session (R57). -/
theorem exec_streamFrameDecoded_whole {slot : Fin 2} {s : State} {x : Session} {c : Decode} (hx : sessOf slot.val s = some x)
    (hc : x.decode = some c) (hbad : c.bad = none) (htiles : c.tiles = [])
    (hidle : s.cdc.eng.any (fun e => match e with | some (.tile j _) => j == slot.val | _ => false) = false) :
    exec (.streamFrameDecoded slot) s = .next (spaceCheck slot.val (mpiCollect
      (if c.resync then raise 0x6C [] (onSess slot.val (withFrame c (wholeFrame x c s)) s)
        else onSess slot.val (withFrame c (wholeFrame x c s)) s))) := by
  change execStreamFrameDecoded slot s = _
  unfold execStreamFrameDecoded
  extract_lets i busy
  have hbusy : busy = false := hidle
  simp only [i, hx, hc, hbad, ok]
  rw [if_neg (by simp [hbusy, htiles])]
  rfl

theorem exec_streamFrameDecoded_bad {slot : Fin 2} {s : State} {x : Session} {c : Decode} {code : Nat}
    (hx : sessOf slot.val s = some x) (hc : x.decode = some c) (hbad : c.bad = some code) :
    exec (.streamFrameDecoded slot) s = .next (spaceCheck slot.val (frameLost slot.val c code s)) := by
  change execStreamFrameDecoded slot s = _
  simp only [execStreamFrameDecoded, hx, hc, hbad, ok]

/-! ## The end of a session -/

/-- The end of a session leaves its slot empty (R65, R70). -/
theorem sessOf_endSession {i : Nat} {s : State} {x : Session} (reason code : Nat) (hx : sessOf i s = some x) :
    sessOf i (endSession i reason code s) = none := by
  have hsess : (endSession i reason code s).scene.sess = (setSess i none (dropDecode i s)).scene.sess := by
    have hclip (u : State) : (if x.source = 2 then release x.buf .cirrus i u else u).scene = u.scene := by
      split
      · exact release_scene ..
      · rfl
    simp only [endSession, hx]
    cases x.drain <;> simp [hclip]
  rw [sessOf_congr hsess, sessOf_setSess_none]

theorem endSession_time (i reason code : Nat) (s : State) : (endSession i reason code s).time = s.time :=
  (endSession_fit (L := 0x80CE02) (by decide) (Fit.refl _ s)).2 .time rfl

/-- A drained session with nothing left to decode ends when its last frame's interval does (R65). -/
theorem exec_sessionEndComplete_drained {slot : Fin 2} {s : State} {x : Session} {n : Nat} (hx : sessOf slot.val s = some x)
    (hnone : nothingToDecode x s = true) (hdrain : x.drain.isSome = true) (hend : lastEnd x s = some n) :
    exec (.sessionEndComplete slot) s = .next (endSession slot.val 1 0 (advanceMer n s)) := by
  change execSessionEndComplete slot s = _
  simp only [execSessionEndComplete, hx, hnone, hdrain, hend, ok, Bool.not_true, Bool.false_eq_true, if_false, if_true]

/-! ## The clauses of `Scenes` -/

/-- Settles O48: the commands of a session, the datagrams it takes, the decoding of its frames, and its end. -/
theorem scenes : Obligations.Scenes := by
  refine ⟨⟨?_, ?_, ?_, ?_, ?_⟩, ?_, ?_, ?_, ?_, ?_, fun i reason code s x => sessOf_endSession reason code⟩
  · intro h p s i hlen hi hs
    obtain ⟨hsource, hframes, hdecode⟩ := openSession_fresh h p (taken (rowSceneOpen h p) s)
    have hslot : i < 2 := by rw [hi]; split <;> decide
    refine ⟨_, _, rfl, exec_sceneOpen hi hs, sessOf_sceneOpened_self ?_, hsource, hframes, hdecode, ?_,
      (sceneOpened_fit (L := 0x804600) h p i (by decide) (taken_fit_of_pre_id (by decide) rfl s)).keeps (by decide)⟩
    · rw [taken_scene_of_pre_id rfl, hlen]; exact hslot
    · rw [sessOf_sceneOpened_of_ne (by omega), sessOf_taken rfl]
  · intro h p data s i x hx hroom hk hs
    obtain ⟨v, hok, hrun⟩ := runSceneFeed_of_room (h := h) (data := data) hx hroom hk
    have htaken : Fit 0x804602 s (taken (rowSceneFeed h p data) s) := taken_fit_of_pre_id (by decide) rfl s
    exact ⟨_, v, (exec_sceneFeed hs).trans (congrArg _ hrun), hok, sessOf_hostFed (sessOf_of_feedSess hx), mem_out_emit _ _,
      (onSess_fit (L := 0x804602) (by decide) (emit_fit (by decide) htaken)).keeps (by decide)⟩
  · intro h p data s i x hx hroom hs
    refine ⟨_, (exec_sceneFeed hs).trans (congrArg _ (runSceneFeed_of_no_room hx hroom)), ?_⟩
    rw [sessOf_onSess_self, sessOf_of_feedSess hx]; rfl
  · intro h p s i x hi hx hs
    refine ⟨_, exec_sceneCloseDrain hi hs, ?_, onSess_taken_keeps rfl _ _ s⟩
    rw [sessOf_onSess_self, sessOf_taken rfl, hx]; rfl
  · intro h p s i x hi hx hs
    refine ⟨_, exec_sceneCloseNow hi hs, ?_, onSess_taken_keeps rfl _ _ s⟩
    rw [sessOf_onSess_self, sessOf_taken rfl, hx]; rfl
  · intro port payload s i x hm hmin hmax hmagic hx hsrc hport hid hi hfirst
    exact ⟨_, _, congrArg Host.Outcome.next
      (streamIn_of_session hm hmin hmax hmagic hx hsrc hport hid hi fun y h1 hy => hfirst y h1 hy),
      sessOf_placeData _ _ hx, le_expect_placed .., rfl, rfl, (placeData_fit (L := 0x4000) (by decide) (Fit.refl _ s)).keeps (by decide)⟩
  · intro slot s x d m o b hx hd hm hdec hend hdmc hhdr ho hb
    obtain ⟨c, u, hbegin, hu, hoff, hbad, hnum, hpts, hmpi⟩ :=
      beginDecode_eq (i := slot.val) (s := s) x d o b m (by rw [hx]; rfl)
    obtain ⟨z, hz⟩ := Option.isSome_iff_exists.1 hu
    refine ⟨_, begun c o z, c, exec_streamFrameDecodeStart hx hd hm hdec hend hdmc hhdr ho hb, ?_, rfl, hoff, hbad, hnum, hpts,
      hmpi, rfl⟩
    rw [hbegin, sessOf_onSess_self, hz]; rfl
  · intro slot s x c hx hc hbad htiles hidle
    refine ⟨_, withFrame c (wholeFrame x c s) x, wholeFrame x c s, exec_streamFrameDecoded_whole hx hc hbad htiles hidle, ?_, rfl,
      rfl, rfl, rfl, (onSess_fit (L := 0x4000) (by decide) (Fit.refl _ s)).keeps (by decide)⟩
    rw [sessOf_onSess_self, hx]; rfl
  · intro slot s x c code hx hc hbad
    exact exec_streamFrameDecoded_bad hx hc hbad
  · intro slot s x n hx hnone hdrain hend
    refine ⟨_, exec_sessionEndComplete_drained hx hnone hdrain hend, sessOf_endSession 1 0 (x := x) ?_,
      le_merNs_of_time (endSession_time ..)⟩
    rw [sessOf_of_scene_eq (advanceMer_scene n s), hx]

end Sys2Proof.Machine
end

section
/-! PROOFS. Cirrus: the jobs and their commands (R85, R87, R93, R95), the engines (R83), the jobs that wait or stand (R84, R96). -/

namespace Sys2Proof.Machine

/-! ## What leaves Cirrus or its engines alone -/

@[simp] theorem nextGen_cdc (pool idx : Nat) (s : State) : (nextGen pool idx s).cdc = s.cdc := rfl

@[simp] theorem releaseOwner_cdc (st : Stage) (owner : Nat) (s : State) : (releaseOwner st owner s).cdc = s.cdc :=
  (releaseOwner_fit (L := 0x800E02) (by decide) (Fit.refl _ s)).2 .cdc rfl

/-- Holds on the buffers of some segments leave everything but the buffers. -/
theorem holdSegs_fit {L : Nat} (hL : In 0x200 L) (i : Nat) (gs : List CSeg) (s : State) :
    Fit L s (gs.foldl (fun s g => holdSeg i g s) s) :=
  Fit.foldl (Fit.refl _ s) fun _ _ h => holdSeg_fit hL h

theorem holdSegs_cdc (i : Nat) (gs : List CSeg) (s : State) : (gs.foldl (fun s g => holdSeg i g s) s).cdc = s.cdc :=
  (holdSegs_fit (L := 0x200) (by decide) i gs s).2 .cdc rfl

theorem taken_cdc_of_pre_id {r : Row} (hpre : r.pre = id) (s : State) : (taken r s).cdc = s.cdc :=
  taken_cdc r s fun _ => by rw [hpre]; rfl

@[simp] theorem onJob_eng (i : Nat) (f : CodecJob → CodecJob) (s : State) : (onJob i f s).cdc.eng = s.cdc.eng := rfl

@[simp] theorem countBytes_eng (i o : Nat) (s : State) : (countBytes i o s).cdc.eng = s.cdc.eng := rfl

@[simp] theorem dataError_eng (code : Nat) (s : State) : (dataError code s).cdc.eng = s.cdc.eng := by simp [dataError]

theorem tileFails_eng (i : Nat) (c : Decode) (t : TileRec) (code : Option Nat) (s : State) :
    (tileFails i c t code s).cdc.eng = s.cdc.eng := by
  cases code <;> simp [tileFails, onStat, setOcc, onMpi]

theorem putTile_cdc (d : PanelDesc) (i p t : Nat) (bs : List Byte) (s : State) : (putTile d i p t bs s).cdc = s.cdc :=
  (putTile_fit (L := 0x5000) (by decide) (Fit.refl _ s)).2 .cdc rfl

/-! ## Jobs by their index -/

theorem mem_jobs_of_jobBy {s : State} {h : Nat} {j : CodecJob} (hj : jobBy s h = some j) : j ∈ s.cdc.jobs :=
  List.mem_of_find?_eq_some hj

theorem onJob_jobs (i : Nat) (f : CodecJob → CodecJob) (s : State) :
    (onJob i f s).cdc.jobs = s.cdc.jobs.map (fun j => if j.idx = i then f j else j) := rfl

/-- A job of the index is there as the update leaves it. -/
theorem mem_jobs_onJob {s : State} {j : CodecJob} (f : CodecJob → CodecJob) (hj : j ∈ s.cdc.jobs) :
    f j ∈ (onJob j.idx f s).cdc.jobs := by
  rw [onJob_jobs]
  exact List.mem_map.2 ⟨j, hj, if_pos rfl⟩

/-- Every job of the index has what the update gives it. -/
theorem of_mem_jobs_onJob {P : CodecJob → Prop} {i : Nat} {f : CodecJob → CodecJob} {s : State} (hf : ∀ j, P (f j)) :
    ∀ x ∈ (onJob i f s).cdc.jobs, x.idx = i → P x := by
  intro x hx hi
  obtain ⟨j, -, rfl⟩ := List.mem_map.1 (onJob_jobs i f s ▸ hx)
  split
  · exact hf j
  · next hne => exact absurd (by rwa [if_neg hne] at hi) hne

/-- A freed slot holds no job (R87, R96). -/
theorem freeJob_jobs (i : Nat) (s : State) : (freeJob i s).cdc.jobs = s.cdc.jobs.filter (fun j => j.idx != i) := by
  simp [freeJob, freeEngine]

theorem idx_ne_of_mem_freeJob {i : Nat} {s : State} : ∀ x ∈ (freeJob i s).cdc.jobs, x.idx ≠ i := by
  intro x hx
  rw [freeJob_jobs] at hx
  simpa using (List.mem_filter.1 hx).2

/-! ## CODEC_JOB -/

/-- The state in which a CODEC_JOB is answered: the lowest free slot has the job, which holds its buffers (R85, R92). -/
def jobOpened (h : Hdr) (decomp : Bool) (p : CodecJobP) (s : State) : State :=
  let j := openJob h decomp p (freeJobSlot s) s
  (j.ins ++ [j.out]).foldl (fun s g => holdSeg j.idx g s) (move 0xF1 0 1 1 (onCdc (fun c => { c with jobs := c.jobs ++ [j] }) s))

theorem runCodecJob_eq (h : Hdr) (decomp : Bool) (p : CodecJobP) (s : State) :
    runCodecJob h decomp p s = accepted h 0x0501 (jobHandle (jobOpened h decomp p s) (freeJobSlot s)) (jobOpened h decomp p s) := rfl

theorem jobOpened_jobs (h : Hdr) (decomp : Bool) (p : CodecJobP) (s : State) :
    (jobOpened h decomp p s).cdc.jobs = s.cdc.jobs ++ [openJob h decomp p (freeJobSlot s) s] := by
  rw [jobOpened, holdSegs_cdc, move_cdc]; rfl

theorem jobOpened_fit {L : Nat} (hL : In 0x8200 L) (h : Hdr) (decomp : Bool) (p : CodecJobP) (s : State) :
    Fit L s (jobOpened h decomp p s) :=
  (move_fit (In.trans (by decide) hL) (onCdc_fit (In.trans (by decide) hL) (Fit.refl _ s))).trans
    (holdSegs_fit (In.trans (by decide) hL) ..)

theorem freeJobSlot_congr {s t : State} (h : t.cdc = s.cdc) : freeJobSlot t = freeJobSlot s := by
  simp only [freeJobSlot, jobOf, h]

/-- CODEC_JOB opens a job in the lowest free slot and answers ACCEPTED with its handle (R85, R87). -/
theorem command_rowCodecJob {i : Instr} {h : Hdr} {decomp : Bool} {p : CodecJobP} {s : State}
    (hs : served (rowCodecJob i h decomp p) s = true) :
    ∃ u, command (rowCodecJob i h decomp p) s = accepted h 0x0501 (jobHandle u (freeJobSlot s)) u ∧
      u.cdc.jobs = s.cdc.jobs ++ [openJob h decomp p (freeJobSlot s) (taken (rowCodecJob i h decomp p) s)] ∧
      Keeps [.cdc, .buf, .cmd, .sbd] s u := by
  have hcdc : (taken (rowCodecJob i h decomp p) s).cdc = s.cdc := taken_cdc_of_pre_id rfl s
  refine ⟨jobOpened h decomp p (taken (rowCodecJob i h decomp p) s), ?_, ?_, ?_⟩
  · rw [command_of_served hs, ← freeJobSlot_congr hcdc]; exact runCodecJob_eq ..
  · rw [jobOpened_jobs, freeJobSlot_congr hcdc, hcdc]
  · exact ((taken_fit_of_pre_id (L := 0x808600) (by decide) rfl s).trans (jobOpened_fit (by decide) ..)).keeps (by decide)

/-! ## CODEC_RESUME -/

/-- The segments that a CODEC_RESUME adds to its job's input. -/
def resumeIns (p : CodecResumeP) (s : State) : List CSeg :=
  if p.inLen = 0 then [] else [segOf (inDev p.flags) p.inAddr p.inLen.toNat s]

/-- The segment that it puts in place of its job's output, if any. -/
def resumeOut (p : CodecResumeP) (s : State) : List CSeg :=
  if p.outLen = 0 then [] else [segOf (outDev p.flags) p.outAddr p.outLen.toNat s]

/-- A job as CODEC_RESUME leaves it (R93). -/
def resumedJob (h : Hdr) (p : CodecResumeP) (s : State) (now : Nat) (j : CodecJob) : CodecJob :=
  { j with
    h := h, opcode := 0x0502, running := true, code := 0, waitSince := now, starved := false,
    more := j.more && !p.flags.toNat.testBit 0, ins := j.ins ++ resumeIns p s, inTotal := j.inTotal + p.inLen.toNat,
    out := (resumeOut p s).headD j.out, outUsed := if resumeOut p s = [] then j.outUsed else 0,
    outTotal := if resumeOut p s = [] then j.outTotal else j.outDone + p.outLen.toNat }

/-- The buffers of the segments that a CODEC_RESUME names are held (R92). -/
def resumeHeld (p : CodecResumeP) (i : Nat) (s : State) : State :=
  (resumeIns p s ++ resumeOut p s).foldl (fun s g => holdSeg i g s) s

/-- The state in which a CODEC_RESUME of slot `i` is answered. -/
def jobResumed (h : Hdr) (p : CodecResumeP) (i : Nat) (s : State) : State :=
  onJob i (resumedJob h p s (resumeHeld p i s).time.ref) (resumeHeld p i s)

theorem runCodecResume_of_job {h : Hdr} {p : CodecResumeP} {s : State} {j : CodecJob} (hj : jobBy s p.job.toNat = some j) :
    runCodecResume h p s = accepted h 0x0502 0 (jobResumed h p j.idx s) := by
  simp only [runCodecResume, hj]; rfl

theorem jobResumed_fit {L : Nat} (hL : In 0x8200 L) (h : Hdr) (p : CodecResumeP) (i : Nat) (s : State) :
    Fit L s (jobResumed h p i s) :=
  onJob_fit (In.trans (by decide) hL) (holdSegs_fit (In.trans (by decide) hL) ..)

theorem exec_codecResume {h : Hdr} {p : CodecResumeP} {s : State} {j : CodecJob}
    (hj : jobBy (taken (rowCodecResume h p) s) p.job.toNat = some j) (hs : served (rowCodecResume h p) s = true) :
    exec (.codecResume h p) s = .next (accepted h 0x0502 0 (jobResumed h p j.idx (taken (rowCodecResume h p) s))) :=
  congrArg Host.Outcome.next ((command_of_served hs).trans (runCodecResume_of_job hj))

/-- A job that is resumed has its new totals and keeps what it has done (R93). -/
theorem mem_jobs_jobResumed {h : Hdr} {p : CodecResumeP} {s : State} {j : CodecJob} (hj : j ∈ s.cdc.jobs) :
    resumedJob h p s (resumeHeld p j.idx s).time.ref j ∈ (jobResumed h p j.idx s).cdc.jobs :=
  mem_jobs_onJob _ (by rw [resumeHeld, holdSegs_cdc]; exact hj)

/-! ## CODEC_ABORT -/

/-- The state in which a CODEC_ABORT of a job is answered: a running job has stopped, its slot is free (R95). -/
def jobAborted (j : CodecJob) (s : State) : State :=
  freeJob j.idx (if j.running then jobStops j.idx St.partly 0x83 j.block s else s)

theorem exec_codecAbort {h : Hdr} {p : CodecAbortP} {s : State} {j : CodecJob}
    (hj : jobBy (taken (rowCodecAbort h p) s) p.job.toNat = some j) (hs : served (rowCodecAbort h p) s = true) :
    exec (.codecAbort h p) s = .next (finish h 0x0503 (okay j.inDone j.outDone) (jobAborted j (taken (rowCodecAbort h p) s))) := by
  refine congrArg Host.Outcome.next ((command_of_served hs).trans ?_)
  change runCodecAbort h p _ = _
  simp only [runCodecAbort, hj]
  rfl

/-! ## Engines -/

theorem assign_eng (e : Nat) (w : EngWork) (s : State) : (assign e w s).cdc.eng = s.cdc.eng.set e (some w) := by
  cases w <;> rfl

theorem exec_cirrusBlockStart {e : Fin 16} {w : EngWork} {s : State} (hup : cirrusUp s = true)
    (hin : s.cdc.off.contains e.val = false) (hidle : s.cdc.eng.getD e.val none = none)
    (htest : s.bst.jobs.any (fun j => j.id == 2 && j.inst == e.val) = false) (hw : nextWork s = some w) :
    exec (.cirrusBlockStart e) s = .next (assign e.val w s) := by
  change execCirrusBlockStart e s = _
  simp only [execCirrusBlockStart, hup, hin, hidle, htest, hw, ok]
  rfl

/-- At the end of a tile record its engine is idle, whatever the record gave (R83). -/
theorem tileDone_eng (e i : Nat) (t : TileRec) (s : State) : (tileDone e i t s).cdc.eng = s.cdc.eng.set e none := by
  unfold tileDone
  dsimp only []
  split
  · split
    · split
      · rw [tileFails_eng]; rfl
      · split
        · rw [putTile_cdc]; rfl
        · rw [tileFails_eng]; rfl
    · rfl
  · rfl

theorem getD_set_none_self (l : List (Option EngWork)) (e : Nat) : (l.set e none).getD e none = none := by
  rw [List.getD_eq_getElem?_getD, List.getElem?_set_self']
  cases l[e]? <;> rfl

theorem exec_cirrusBlockDone_tile {e : Fin 16} {host : List Byte} {i : Nat} {r : TileRec} {s : State} (hup : cirrusUp s = true)
    (he : s.cdc.eng.getD e.val none = some (.tile i r)) : exec (.cirrusBlockDone e host) s = .next (tileDone e.val i r s) := by
  change execCirrusBlockDone e host s = _
  simp only [execCirrusBlockDone, hup, he, ok]
  rfl

theorem exec_cirrusBlockDone_job {e : Fin 16} {host : List Byte} {i : Nat} {s : State} (hup : cirrusUp s = true)
    (he : s.cdc.eng.getD e.val none = some (.job i)) : exec (.cirrusBlockDone e host) s = .next (jobDone i host s) := by
  change execCirrusBlockDone e host s = _
  simp only [execCirrusBlockDone, hup, he, ok]
  rfl

/-- A compressing job whose input does not fill its block, and has more to come, stops for it (R88). -/
theorem compressStep_of_short {j : CodecJob} (host : List Byte) (s : State) (hshort : inLeft j < j.blockSize - j.inp.length)
    (hmore : j.more = true) : compressStep j host s = jobStops j.idx St.partly 0x81 j.block s :=
  if_pos ⟨Nat.lt_of_le_of_lt (Nat.min_le_right ..) hshort, hmore⟩

/-! ## Jobs that wait and jobs that stand -/

/-- A job noted as starved 100 ms after it began to wait (R84). -/
def starvedAt (j : CodecJob) (s : State) : State :=
  onJob j.idx (fun j => { j with starved := true }) (advanceRef (j.waitSince + 100000000) s)

theorem starvedAt_fit {L : Nat} (hL : In 0x8020 L) (j : CodecJob) (s : State) : Fit L s (starvedAt j s) :=
  onJob_fit (In.trans (by decide) hL) (advanceRef_fit (In.trans (by decide) hL) (Fit.refl _ s))

theorem le_ref_starvedAt (j : CodecJob) (s : State) : j.waitSince + 100000000 ≤ (starvedAt j s).time.ref := by
  rw [starvedAt, onJob, onCdc_time]
  exact le_ref_advanceRef _ s

theorem starved_of_mem_starvedAt (j : CodecJob) (s : State) :
    ∀ x ∈ (starvedAt j s).cdc.jobs, x.idx = j.idx → x.starved = true :=
  of_mem_jobs_onJob fun _ => rfl

theorem exec_cdcHostStarved {slot : Fin 16} {j : CodecJob} {s : State}
    (hj : (waitingJobs s).find? (fun j => j.idx == slot.val) = some j) (hfirst : j.starved = false) :
    exec (.cdcHostStarved slot) s = .next (raise 0x64 [] (starvedAt j s)) := by
  change execCdcHostStarved slot s = _
  simp only [execCdcHostStarved, hj, hfirst, ok, Bool.false_eq_true, if_false, starvedAt]

theorem exec_cdcSuspendLimitExpiry {slot : Fin 16} {j : CodecJob} {s : State} (hj : jobOf slot.val s = some j)
    (hstands : j.running = false) : exec (.cdcSuspendLimitExpiry slot) s =
      .next (jobLost j.idx (advanceRef (j.stoppedAt + pv s 0x0901 * nsPerSec + 1) s)) := by
  change execCdcSuspendLimitExpiry slot s = _
  simp only [execCdcSuspendLimitExpiry, hj, hstands, ok, Bool.false_eq_true, if_false]

theorem jobLost_time (i : Nat) (s : State) : (jobLost i s).time = s.time :=
  (jobLost_fit (L := 0x808E02) (by decide) (Fit.refl _ s)).2 .time rfl

/-! ## The clauses of `Codec` -/

/-- Settles O49: the commands of a job, the work of the engines, and the ends of a job that waits or stands too long. -/
theorem codec : Obligations.Codec := by
  refine ⟨⟨?_, ?_, ?_, ?_⟩, ?_, ?_, ?_, ?_, ?_, ?_⟩
  · intro h p s hs
    obtain ⟨u, hrun, hjobs, hkeeps⟩ := command_rowCodecJob hs
    exact ⟨u, _, rfl, congrArg Host.Outcome.next hrun, hjobs, hkeeps⟩
  · intro h p s hs
    obtain ⟨u, hrun, hjobs, hkeeps⟩ := command_rowCodecJob hs
    exact ⟨u, _, rfl, congrArg Host.Outcome.next hrun, hjobs, hkeeps⟩
  · intro h p s j hj hs
    exact ⟨_, exec_codecResume hj hs,
      ((taken_fit_of_pre_id (L := 0x808600) (by decide) rfl s).trans (jobResumed_fit (by decide) ..)).keeps (by decide),
      _, mem_jobs_jobResumed (mem_jobs_of_jobBy hj), rfl, rfl, rfl, rfl, rfl, rfl, rfl⟩
  · intro h p s j hj hs
    exact ⟨_, exec_codecAbort hj hs, idx_ne_of_mem_freeJob⟩
  · intro e w s hup hin hlen hidle htest hw
    refine ⟨_, exec_cirrusBlockStart hup hin hidle htest hw, ?_, fun n hn => ?_,
      (assign_fit (L := 0xC000) (by decide) (Fit.refl _ s)).keeps (by decide)⟩
    · simp [assign_eng, hlen]
    · simp [assign_eng, List.getD_eq_getElem?_getD, hn.symm]
  · intro e host i r s hup he
    refine ⟨_, exec_cirrusBlockDone_tile hup he, ?_, (tileDone_fit (L := 0x80DC02) (by decide) (Fit.refl _ s)).keeps (by decide)⟩
    rw [tileDone_eng, getD_set_none_self]
  · intro e host i s
    exact exec_cirrusBlockDone_job
  · intro j host s
    exact compressStep_of_short host s
  · intro slot j s hj hfirst
    exact ⟨_, exec_cdcHostStarved hj hfirst, le_ref_starvedAt j s, starved_of_mem_starvedAt j s,
      (starvedAt_fit (L := 0x8020) (by decide) j s).keeps (by decide)⟩
  · intro slot j s hj hstands
    refine ⟨_, exec_cdcSuspendLimitExpiry hj hstands, ?_, ?_⟩
    · rw [jobLost, raise_cdc]; exact idx_ne_of_mem_freeJob
    · rw [jobLost_time]; exact le_ref_advanceRef ..

end Sys2Proof.Machine
end

section
/-! PROOFS. The fault ladder (R427 to R431, R434) and the faults of the blocks that enter it (R97, R130, R159, R200, R255, R359,
R449). -/

namespace Sys2Proof.Machine

/-! ## Records and replies leave the recoveries alone -/

/-- The recoveries in progress and RSEQ stand as they did. -/
def SameRecovs (s t : State) : Prop := t.evt.recs = s.evt.recs ∧ t.evt.rseq = s.evt.rseq

theorem SameRecovs.refl (s : State) : SameRecovs s s := ⟨rfl, rfl⟩

theorem SameRecovs.trans {s t u : State} (h : SameRecovs s t) (k : SameRecovs t u) : SameRecovs s u :=
  ⟨k.1.trans h.1, k.2.trans h.2⟩

theorem SameRecovs.of_evt {s t : State} (h : t.evt = s.evt) : SameRecovs s t := by simp [SameRecovs, h]

theorem SameRecovs.ite {c : Prop} [Decidable c] {s x y : State} (hx : SameRecovs s x) (hy : SameRecovs s y) :
    SameRecovs s (if c then x else y) := by
  split
  · exact hx
  · exact hy

theorem evqWrite_sameRecovs (r : Rec) (s : State) : SameRecovs s (evqWrite r s) :=
  .ite (.refl s) (.ite (by simp [SameRecovs]) ⟨rfl, rfl⟩)

theorem post_sameRecovs (r : Rec) (s : State) : SameRecovs s (post r s) := by
  refine SameRecovs.trans ?_ (evqWrite_sameRecovs r _)
  exact SameRecovs.ite (by simp [SameRecovs]) ⟨rfl, rfl⟩

theorem logRec_sameRecovs (r : Rec) (s : State) : SameRecovs s (logRec r s).2 := by simp [SameRecovs, logRec]

theorem notifyFails_sameRecovs (s : State) : SameRecovs s (notifyFails s) :=
  .ite (.refl s) ((logRec_sameRecovs _ { s with sbd := { s.sbd with failAt := some s.time.ref } }).trans (post_sameRecovs ..))

theorem deliver_sameRecovs (r : Rec) (s : State) : SameRecovs s (deliver r s) := by
  refine (post_sameRecovs r s).trans (SameRecovs.ite ?_ (.refl _))
  split
  · simp [SameRecovs]
  · exact notifyFails_sameRecovs _

theorem formRec_sameRecovs (r : Rec) (s : State) : SameRecovs s (formRec r s) :=
  (logRec_sameRecovs r s).trans (.ite (deliver_sameRecovs ..) (.refl _))

theorem setCount_sameRecovs (c : SrcCount) (s : State) : SameRecovs s (setCount c s) := ⟨rfl, rfl⟩

theorem coalesceEnd_sameRecovs (c : SrcCount) (s : State) : SameRecovs s (coalesceEnd c s) :=
  (SameRecovs.ite (formRec_sameRecovs _ s) (.refl s)).trans (setCount_sameRecovs ..)

/-- Counting an event and forming its record leave the recoveries (R420). -/
theorem fire_sameRecovs (src : Nat) (pay : List Byte) (s : State) : SameRecovs s (fire src pay s) := by
  unfold fire
  extract_lets ms opened
  have hopened : SameRecovs s opened := by
    simp only [opened]
    split
    · exact .ite ((SameRecovs.ite (coalesceEnd_sameRecovs _ s) (.refl s)).trans (setCount_sameRecovs ..)) (.refl s)
    · exact setCount_sameRecovs ..
  refine hopened.trans ?_
  split
  · exact .refl _
  · exact .ite (setCount_sameRecovs ..) ((setCount_sameRecovs ..).trans (formRec_sameRecovs ..))

theorem raise_sameRecovs (src : Nat) (items : List (Nat × Nat)) (s : State) : SameRecovs s (raise src items s) :=
  fire_sameRecovs ..

theorem ringReply_sameRecovs (r : Nat) (interim : Bool) (rep : Reply) (s : State) : SameRecovs s (ringReply r interim rep s) := by
  unfold ringReply
  dsimp only []
  refine .ite (.of_evt (by simp)) (.ite ?_ (.ite (.of_evt (by simp)) (.of_evt (by simp))))
  exact SameRecovs.trans (.of_evt (by simp)) (raise_sameRecovs ..)

theorem loseReply_sameRecovs (rep : Reply) (s : State) : SameRecovs s (loseReply rep s) := by
  unfold loseReply
  dsimp only []
  exact .ite (.of_evt (by simp)) (SameRecovs.trans (.of_evt (by simp)) (raise_sameRecovs ..))

theorem sendReply_sameRecovs (orphan interim : Bool) (rep : Reply) (s : State) : SameRecovs s (sendReply orphan interim rep s) := by
  unfold sendReply
  split
  · exact .ite (loseReply_sameRecovs ..) (ringReply_sameRecovs ..)
  · exact .ite (.of_evt (by simp)) (.of_evt (by simp))

theorem finish_sameRecovs (h : Hdr) (opc : Nat) (v : Verdict) (s : State) : SameRecovs s (finish h opc v s) :=
  .ite (.of_evt (by simp)) (SameRecovs.trans (.of_evt (by simp)) (sendReply_sameRecovs ..))

theorem recovRecord_sameRecovs (r : Recov) (isEnd : Bool) (outcome esc : Nat) (s : State) :
    SameRecovs s (recovRecord r isEnd outcome esc s) := by
  unfold recovRecord
  split
  · exact .refl s
  · exact formRec_sameRecovs ..

/-! ## A fault enters the ladder (R428) -/

/-- During the quiesce a fault only raises its event (R430). -/
theorem faultAt_of_quiescing {dom entry src : Nat} {pay : List Byte} {s : State} (hq : quiescing s = true) :
    faultAt dom entry src pay s = fire src pay s := if_pos hq

/-- Outside its domain's window a fault enters at its level. -/
theorem faultAt_of_no_window {dom entry src : Nat} {pay : List Byte} {s : State} (hq : quiescing s = false)
    (hw : windowOf dom s = none) (hentry : entry ≤ 1) : faultAt dom entry src pay s =
      decideRecov dom entry (some src) pay 0 .escalation none false (setWindow dom entry ((s.evt.rseq + 1) % 2 ^ 32) s) := by
  have h2 : entry ≠ 2 := by omega
  have h3 : entry ≠ 3 := by omega
  simp [faultAt, hq, hw, h2, h3]

/-- A repeat takes the own action of a domain that has one (R427). -/
theorem faultAt_of_own {dom entry src : Nat} {pay : List Byte} {s : State} {w : Window} (hq : quiescing s = false)
    (hw : windowOf dom s = some w) (hown : hasOwn dom = true) :
    faultAt dom entry src pay s = takeOwn dom entry w.level src pay s := by
  simp [faultAt, hq, hw, hown]

/-- A repeat at L0 in a domain without one escalates to L1. -/
theorem faultAt_of_level_zero {dom entry src : Nat} {pay : List Byte} {s : State} {w : Window} (hq : quiescing s = false)
    (hw : windowOf dom s = some w) (hown : hasOwn dom = false) (hlevel : w.level = 0) : faultAt dom entry src pay s =
      decideRecov dom 1 (some src) pay w.rseq .escalation none false (setWindow dom 1 ((s.evt.rseq + 1) % 2 ^ 32) s) := by
  simp [faultAt, hq, hw, hown, hlevel]

theorem setWindow_keeps (dom level rseq : Nat) (s : State) : Keeps [.evt] s (setWindow dom level rseq s) :=
  (setWindow_fit (L := 0x800) (by decide) (Fit.refl _ s)).keeps (by decide)

/-! ## A recovery is decided (R429, R431) -/

/-- The recovery that a decision makes while no other is in progress. -/
def soleRecov (dom level : Nat) (src : Option Nat) (pay : List Byte) (cmd : Option (Hdr × Nat)) (leave : Bool) (s : State) : Recov :=
  ⟨(s.evt.rseq + 1) % 2 ^ 32, dom, level, src, pay, 0, false, false, cmd, s.mode.mode, s.mode.rate, leave⟩

/-- A recovery is counted, RSEQ is its own, and its start record is formed. -/
def recovNoted (r : Recov) (esc : Nat) (s : State) : State :=
  recovRecord r false 0 esc { s with evt := { s.evt with rseq := r.rseq, counts5 := s.evt.counts5.modify r.level (· + 1) } }

/-- A recovery joins those in progress. -/
def recovJoined (r : Recov) (esc : Nat) (s : State) : State :=
  { recovNoted r esc s with evt := { (recovNoted r esc s).evt with recs := (recovNoted r esc s).evt.recs ++ [r] } }

theorem recovNoted_recs (r : Recov) (esc : Nat) (s : State) : (recovNoted r esc s).evt.recs = s.evt.recs :=
  (recovRecord_sameRecovs ..).1

theorem recovJoined_recs (r : Recov) (esc : Nat) (s : State) : (recovJoined r esc s).evt.recs = s.evt.recs ++ [r] :=
  congrArg (· ++ [r]) (recovNoted_recs r esc s)

theorem recovJoined_rseq (r : Recov) (esc : Nat) (s : State) : (recovJoined r esc s).evt.rseq = r.rseq :=
  (recovRecord_sameRecovs ..).2

theorem recovJoined_fit {L : Nat} (hL : In 0x800C02 L) (r : Recov) (esc : Nat) (s : State) : Fit L s (recovJoined r esc s) :=
  Fit.upd_evt (In.trans (by decide) hL) (recovRecord_fit hL (Fit.upd_evt (In.trans (by decide) hL) (Fit.refl _ s) rfl rfl)) rfl rfl

/-- A recovery that is the only one in progress may start (R429). -/
theorem mayStart_sole {r : Recov} {s : State} (hrecs : s.evt.recs = [r]) (hr : r.running = false) : mayStart r s = true := by
  simp [mayStart, hrecs, hr]

/-- Below L4 and with no other in progress, the recovery decided joins and starts at once. -/
theorem decideRecov_of_none_in_progress {dom level : Nat} {src : Option Nat} {pay : List Byte} {esc : Nat} {cause : SafeCause}
    {cmd : Option (Hdr × Nat)} {leave : Bool} {s : State} (hq : quiescing s = false) (hrecs : s.evt.recs = []) (hlevel : level < 4) :
    decideRecov dom level src pay esc cause cmd leave s = startRecov (soleRecov dom level src pay cmd leave s)
      (recovJoined (soleRecov dom level src pay cmd leave s) esc s) := by
  have hstart := mayStart_sole (r := soleRecov dom level src pay cmd leave s)
    ((recovJoined_recs (soleRecov dom level src pay cmd leave s) esc s).trans (by rw [hrecs]; rfl)) rfl
  unfold decideRecov
  rw [if_neg (by simp [hq])]
  extract_lets rseq _ s1 conf gone ahead order prior r s2 _ s3 s4
  have hcounted : s1.evt.recs = [] := hrecs
  have hconf : conf = [] := by simp only [conf, hcounted, List.filter_nil]
  have hprior : prior = 0 := by simp [prior, order, ahead, hconf, sortBy]
  have hr : r = soleRecov dom level src pay cmd leave s := by simp only [r, hprior]; rfl
  have hs : s4 = recovJoined r esc s := by simp only [s4, gone, hconf, List.filter_nil, List.foldl_nil]; rfl
  rw [if_neg (Nat.ne_of_lt hlevel), hs, hr, if_pos hstart]

/-! ## Captures and ends -/

/-- Before a block or the plane is re-initialised its capture is kept, at most 1,048,576 bytes of it (R434). -/
theorem takeCapture_of_level {r : Recov} (s : State) (hl : r.level = 1 ∨ r.level = 2) :
    (takeCapture r s).evt.captures.head? = some ⟨r.domain, r.rseq, merNs s, (Config.captureBody s.free r.domain).take 1048576⟩ := by
  rcases hl with hl | hl <;> simp [takeCapture, hl]

/-- What follows the end of a recovery leaves the others in progress as they are (R431). -/
theorem endRecov_sameRecovs (r : Recov) (outcome esc : Nat) (s : State) :
    SameRecovs (dropRecov r.rseq s) (endRecov r outcome esc s) := by
  have haudited : SameRecovs (dropRecov r.rseq s)
      (if 1 ≤ r.level ∧ r.level ≤ 3 then auditAll (dropRecov r.rseq s) else dropRecov r.rseq s) := .ite ⟨rfl, rfl⟩ (.refl _)
  have hrecord := haudited.trans (recovRecord_sameRecovs r true outcome esc _)
  unfold endRecov
  dsimp only []
  split
  · exact hrecord.trans (finish_sameRecovs ..)
  · exact hrecord

theorem mem_recs_endRecov {r x : Recov} {outcome esc : Nat} {s : State} (hx : x ∈ (endRecov r outcome esc s).evt.recs) :
    x ∈ s.evt.recs ∧ x.rseq ≠ r.rseq := by
  rw [(endRecov_sameRecovs r outcome esc s).1, dropRecov] at hx
  simpa using hx

/-! ## The faults of the blocks -/

theorem exec_scnHeadFault {b : Bool} {s : State} (hm : mainOn s = true) (hb : b ∈ halves s) :
    exec (.scnHeadFault b) s = .next (faultOf (headDomain b) (scnEvt b 0x95) [] s) := by
  simp [exec, execScnHeadFault, ok, hm, hb]

theorem exec_stdOvercurrent {out : Byte} {s : State} (hp : s.std.powered = true) (hu : outputUsed out.toNat s = true) :
    exec (.stdOvercurrent out) s = .next (faultOf 0x08 0xC6 [(1, out.toNat)] s) := by
  simp [exec, execStdOvercurrent, ok, hp, hu]

theorem exec_stdFault {s : State} (hm : mainOn s = true) : exec .stdFault s = .next (faultOf 0x08 0xCA [] s) := by
  simp [exec, execStdFault, ok, hm]

theorem exec_dmcFault {s : State} (hm : mainOn s = true) (hup : 2 ≤ s.dmc.state) :
    exec .dmcFault s = .next (faultOf 0x30 0x4D [] s) := by
  simp [exec, execDmcFault, ok, hm, Nat.not_lt.2 hup]

theorem exec_netBridgeFault {s : State} (hm : mainOn s = true) : exec .netBridgeFault s = .next (faultAt 0x20 1 0xD8 [] s) := by
  simp [exec, execNetBridgeFault, ok, hm]

/-- An engine of Cirrus is noted among those that have failed. -/
def engineNoted (e : Nat) (s : State) : State := onCdc (fun c => { c with recent := ((e, merNs s) :: c.recent).take 16 }) s

/-- A lane group of Cumulus is noted. -/
def groupNoted (g : Nat) (s : State) : State := onSyn (fun y => { y with recent := ((g, merNs s) :: y.recent).take 16 }) s

/-- A lane group of the sweep is noted. -/
def sweepNoted (g : Nat) (s : State) : State := onCam (fun c => { c with recent := ((g, merNs s) :: c.recent).take 16 }) s

theorem exec_cdcEngineFault {e : Fin 16} {s : State} (hm : mainOn s = true) (hin : s.cdc.off.contains e.val = false) :
    exec (.cdcEngineFault e) s = .next (faultOf 0x01 0x60 [] (engineNoted e.val s)) :=
  congrArg Host.Outcome.next (if_neg (by simp only [hm, hin]; decide))

theorem exec_synGroupFault {g : Byte} {s : State} (hm : mainOn s = true) (hg : g.toNat ≤ 15)
    (hin : s.syn.off.contains g.toNat = false) :
    exec (.synGroupFault g) s = .next (faultOf 0x02 0x70 [] (groupNoted g.toNat s)) :=
  congrArg Host.Outcome.next (if_neg (by simp only [hm, hin, decide_eq_false (Nat.not_lt.2 hg)]; decide))

theorem exec_swpFault {g : Fin 16} {s : State} (hm : mainOn s = true) (hin : s.cam.off.contains g.val = false) :
    exec (.swpFault g) s = .next (faultOf 0x03 0x8C [] (sweepNoted g.val s)) :=
  congrArg Host.Outcome.next (if_neg (by simp only [hm, hin]; decide))

/-! ## The clauses of `FaultLadder` -/


/-- Settles O32: the faults of the blocks, how a fault enters the ladder, what a decision starts or holds, what an end leaves, and the
capture before it. -/
theorem faultLadder : Obligations.FaultLadder := by
  refine ⟨⟨?_, ?_, ?_, ?_, ?_, ?_, ?_, ?_⟩, ?_, ?_, ?_, ?_, ?_, ?_, ?_, ?_⟩
  · intro b s; exact exec_scnHeadFault
  · intro out s; exact exec_stdOvercurrent
  · intro s; exact exec_stdFault
  · intro s; exact exec_dmcFault
  · intro s; exact exec_netBridgeFault
  · intro e s hm hin
    exact ⟨_, exec_cdcEngineFault hm hin, rfl, (onCdc_fit (L := 0x8000) (by decide) (Fit.refl _ s)).keeps (by decide)⟩
  · intro g s hm hg hin
    exact ⟨_, exec_synGroupFault hm hg hin, rfl, (onSyn_fit (L := 0x10000) (by decide) (Fit.refl _ s)).keeps (by decide)⟩
  · intro g s hm hin
    exact ⟨_, exec_swpFault hm hin, rfl, (onCam_fit (L := 0x20000) (by decide) (Fit.refl _ s)).keeps (by decide)⟩
  · intro dom entry src pay s; exact faultAt_of_quiescing
  · intro dom entry src pay s hq hw hentry
    exact ⟨_, faultAt_of_no_window hq hw hentry, rfl, rfl, rfl, setWindow_keeps dom _ _ s⟩
  · intro dom entry src pay s w; exact faultAt_of_own
  · intro dom entry src pay s w hq hw hown hlevel
    exact ⟨_, faultAt_of_level_zero hq hw hown hlevel, rfl, setWindow_keeps dom _ _ s⟩
  · intro dom level src pay esc cause cmd leave s hq hrecs hlevel
    refine ⟨_, _, decideRecov_of_none_in_progress hq hrecs hlevel, ?_, rfl, rfl, rfl, rfl, rfl, rfl, recovJoined_rseq ..,
      (recovJoined_fit (L := 0x800C02) (by decide) _ esc s).keeps (by decide)⟩
    rw [recovJoined_recs, hrecs]; rfl
  · intro dom src pay esc cause cmd leave s hq
    exact decideRecov_four_holds hq
  · intro r outcome esc s x
    exact mem_recs_endRecov
  · intro r s hl
    exact ⟨_, takeCapture_of_level s hl, rfl, rfl, rfl, List.length_take_le ..⟩

end Sys2Proof.Machine
end

section
/-! PROOFS. Cumulus: the start of a synthesis (R99), its commit (R100) and its deadline (R124), and the commands FRAME_SUBMIT,
FRAME_STATUS and VIEW_SHIFT (R118 to R120, R123, R127, R132). -/

namespace Sys2Proof.Machine

/-! ## What leaves Cumulus alone -/

@[simp] theorem mpiCollect_syn (s : State) : (mpiCollect s).syn = s.syn :=
  (mpiCollect_fit (L := 0x4200) (by decide) (Fit.refl _ s)).2 .syn rfl

@[simp] theorem dropFrame_syn (k colA colB : Nat) (s : State) : (dropFrame k colA colB s).syn = s.syn :=
  (dropFrame_fit (L := 0x40200) (by decide) (Fit.refl _ s)).2 .syn rfl

@[simp] theorem handOver_syn (c : Synth) (s : State) : (handOver c s).syn = s.syn :=
  (handOver_fit (L := 0x41200) (by decide) (Fit.refl _ s)).2 .syn rfl

@[simp] theorem framesDue_syn (t : Nat) (s : State) : (framesDue t s).syn = s.syn :=
  (framesDue_fit (L := 0x804E02) (by decide) (Fit.refl _ s)).2 .syn rfl

@[simp] theorem endJob_syn (j : FrameJob) (v : Verdict) (fence stay : Bool) (s : State) : (endJob j v fence stay s).syn = s.syn :=
  (endJob_fit (L := 0x800E02) (by decide) (Fit.refl _ s)).2 .syn rfl

@[simp] theorem hold_syn (idx : Nat) (st : Stage) (owner : Nat) (s : State) : (hold idx st owner s).syn = s.syn :=
  (hold_fit (L := 0x200) (by decide) (Fit.refl _ s)).2 .syn rfl

@[simp] theorem onSess_syn (i : Nat) (f : Session → Session) (s : State) : (onSess i f s).syn = s.syn :=
  (onSess_fit (L := 0x4000) (by decide) (Fit.refl _ s)).2 .syn rfl

theorem taken_syn_of_pre_id {r : Row} (hpre : r.pre = id) (s : State) : (taken r s).syn = s.syn :=
  taken_syn r s fun _ => by rw [hpre]; rfl

theorem taken_scn_of_pre_id {r : Row} (hpre : r.pre = id) (s : State) : (taken r s).scn = s.scn :=
  taken_scn r s fun _ => by rw [hpre]; rfl

/-! ## The start of a synthesis (R99) -/

/-- The lowest frame whose synthesis has not started is the same in both states. -/
def SameNext (s t : State) : Prop := t.syn.nextK = s.syn.nextK

theorem missJob_nextK (j : FrameJob) (s : State) : (missJob j s).syn.nextK = s.syn.nextK := by simp [missJob]

theorem missedJobs_nextK (k : Nat) (s : State) : (missedJobs k s).syn.nextK = s.syn.nextK :=
  List.foldlRecOn (motive := SameNext s) _ _ rfl fun t ht j _ => (missJob_nextK j t).trans ht

theorem shiftsDue_nextK (k : Nat) (s : State) : (shiftsDue k s).syn.nextK = s.syn.nextK :=
  List.foldlRecOn (motive := SameNext s) _ _ rfl fun t ht e _ => by simpa [SameNext] using ht

/-- The synthesis in progress from `beginSynth` on: its source's MPI and the values in force for its frame (R99, R103). -/
theorem beginSynth_cur (k : Nat) (d : PanelDesc) (f : FSrc) (a b : Nat) (s : State) :
    (beginSynth k d f a b s).syn.cur = some ⟨k, f, srcMpi f d s, valsFor k (srcMpi f d s) d s⟩ := rfl

theorem beginSynth_nextK (k : Nat) (d : PanelDesc) (f : FSrc) (a b : Nat) (s : State) :
    (beginSynth k d f a b s).syn.nextK = s.syn.nextK := by
  unfold beginSynth
  extract_lets m v moved halves stored noted waiting
  have hmoved : moved.syn = s.syn :=
    (srcToCumulus_fit (L := 0x4200) (by decide) (move_fit (by decide) (Fit.refl _ s))).2 .syn rfl
  have hhalves : halves.syn = s.syn := by
    simp only [halves]
    split
    · rw [move_syn, hmoved]
    · exact hmoved
  have hwaiting : waiting.syn = noted.syn := by
    cases f with
    | session i m uid => exact onSess_syn ..
    | job j => rfl
    | sweep i => rfl
  have hnoted : noted.syn.nextK = halves.syn.nextK := rfl
  exact (congrArg SynSt.nextK hwaiting).trans (hnoted.trans (congrArg SynSt.nextK hhalves))

/-- The instant at which the synthesis of frame `k` starts: S_P(k−1), or the end of the synthesis before (R99). -/
def synthInstant (k : Nat) (s : State) : Nat := max (frameStart (k - 1) s) (s.syn.freeAt.getD 0)

/-- The state at the synthesis start of frame `k`, before its source is taken: the shifts, missed jobs and stream frames due by
then have had their effect. -/
def synthTurned (k : Nat) (s : State) : State :=
  let u := missedJobs k (shiftsDue k (onSyn (fun y => { y with nextK := some (k + 1) }) s))
  framesDue (frameStart k u) u

/-- Frame `k` gets its source of R102, or is repeated without one. -/
def frameSourced (k : Nat) (d : PanelDesc) (a b : Nat) (s : State) : State :=
  (sourceFor k d s).elim (putStat ⟨k, 6, 0, 0, 0, 0⟩ s) fun f => beginSynth k d f a b s

/-- What the synthesis start of frame `k` makes of the state at its instant. -/
def synthStarted (k : Nat) (d : PanelDesc) (a b : Nat) (s : State) : State :=
  mpiCollect (onCam (fun c => { c with done := c.done.filter (fun e => k < e.1) }) (frameSourced k d a b (synthTurned k s)))

theorem synthTurned_nextK (k : Nat) (s : State) : (synthTurned k s).syn.nextK = some (k + 1) := by
  rw [synthTurned, framesDue_syn, missedJobs_nextK, shiftsDue_nextK]; rfl

theorem frameSourced_nextK (k : Nat) (d : PanelDesc) (a b : Nat) (s : State) :
    (frameSourced k d a b s).syn.nextK = s.syn.nextK := by
  unfold frameSourced
  cases sourceFor k d s with
  | none => rfl
  | some f => exact beginSynth_nextK ..

theorem synthStarted_nextK (k : Nat) (d : PanelDesc) (a b : Nat) (s : State) :
    (synthStarted k d a b s).syn.nextK = some (k + 1) := by
  rw [synthStarted, mpiCollect_syn, onCam_syn, frameSourced_nextK, synthTurned_nextK]

theorem synthStarted_fit {L : Nat} (hL : In 0x874E02 L) (k : Nat) (d : PanelDesc) (a b : Nat) (s : State) :
    Fit L s (synthStarted k d a b s) := by
  have hturned : Fit L s (synthTurned k s) := framesDue_fit (In.trans (by decide) hL) (missedJobs_fit (In.trans (by decide) hL)
    (shiftsDue_fit (In.trans (by decide) hL) (onSyn_fit (In.trans (by decide) hL) (Fit.refl _ s))))
  refine mpiCollect_fit (In.trans (by decide) hL) (onCam_fit (In.trans (by decide) hL) ?_)
  unfold frameSourced
  cases sourceFor k d (synthTurned k s) with
  | none => exact putStat_fit (In.trans (by decide) hL) hturned
  | some f => exact beginSynth_fit (In.trans (by decide) hL) hturned

theorem exec_synthesisStart {s : State} {k : Nat} {d : PanelDesc} {a b : Nat} (hopen : openFrame s = some k)
    (hdesc : s.pnl.desc = some d) (hidle : s.syn.cur = none) (hmode : isRendered s.mode.mode = true)
    (hthen : isRendered (modeAt k s) = true) (hfull : s.pnl.full = true) (hgroups : groupsOk s ≠ 0)
    (hfree : freeStores d s = some (a, b)) :
    exec .synthesisStart s = .next (synthStarted k d a b (advanceMer (synthInstant k s) s)) := by
  change execSynthesisStart s = _
  simp only [execSynthesisStart, ok, hopen, hdesc, hidle, hmode, hthen, hfull, hgroups, hfree, Option.isSome_none, Bool.not_true,
    Bool.or_self, decide_false, Bool.false_eq_true, if_false, synthStarted, frameSourced, synthTurned, synthInstant]
  generalize framesDue _ _ = u
  cases sourceFor k d u <;> rfl

/-! ## The commit (R100) -/

/-- A frame of the store as the commit of `c` leaves it, with the CRCs of both halves. -/
def committedFrame (c : Synth) (crcA crcB : List Nat) (x : Frame) : Frame :=
  if x.k = c.k then { x with committed := true, phases := c.vals.phases, crcA := crcA, crcB := crcB } else x

/-- The hand-over of a frame of the store commits it with its CRCs and leaves the other frames. -/
theorem handOver_frames {c : Synth} {s : State} {f : Frame} (hf : frameOf c.k s = some f) :
    ∃ crcA crcB, (handOver c s).scn.frames = s.scn.frames.map (committedFrame c crcA crcB) := by
  unfold handOver
  rw [hf]
  dsimp -zeta only []
  extract_lets two wa wb u v
  have hwa : wa.1.scn = s.scn := (writeHalf_fit (L := 0x1000) (by decide) (Fit.refl _ s)).2 .scn rfl
  have hwb : wb.1.scn = s.scn := by
    simp only [wb]
    split
    · exact (writeHalf_fit (L := 0x1000) (by decide) (writeHalf_fit (by decide) (Fit.refl _ s))).2 .scn rfl
    · exact hwa
  have hv : v.scn.frames = s.scn.frames.map (committedFrame c wa.2 wb.2) := by
    simp only [v, move_scn, u, onFrames, hwb]
    rfl
  refine ⟨wa.2, wb.2, ?_⟩
  split
  · rw [move_scn, hv]
  · exact hv

theorem committed_of_mem_handOver {c : Synth} {s : State} {f : Frame} (hf : frameOf c.k s = some f) :
    ∀ g ∈ (handOver c s).scn.frames, g.k = c.k → g.committed = true ∧ g.phases = c.vals.phases := by
  intro g hg hk
  obtain ⟨crcA, crcB, hframes⟩ := handOver_frames hf
  obtain ⟨x, -, rfl⟩ := List.mem_map.1 (hframes ▸ hg)
  by_cases hx : x.k = c.k
  · simp [committedFrame, hx]
  · exact absurd hk (by rwa [committedFrame, if_neg hx])

/-- The state of the commit of `c`, before its job is answered: the frame handed over, its status and the last commit noted. -/
def synthCommitted (c : Synth) (slack : Nat) (s : State) : State :=
  let u := handOver c s
  onFrameStat c.k (fun t => { t with state := 2, slack := slack, planes := min c.mpi.disp.length c.vals.planes })
    (onSyn (fun y => { y with
      cur := none, last := some ⟨c.k, c.src, c.vals⟩, freeAt := some (merNs u), committedK := max y.committedK c.k }) u)

theorem synthCommitted_committedK (c : Synth) (slack : Nat) (s : State) :
    (synthCommitted c slack s).syn.committedK = max s.syn.committedK c.k := by simp [synthCommitted, onFrameStat]

theorem synthCommitted_fit {L : Nat} (hL : In 0x51200 L) (c : Synth) (slack : Nat) (s : State) :
    Fit L s (synthCommitted c slack s) :=
  onFrameStat_fit (In.trans (by decide) hL) (onSyn_fit (In.trans (by decide) hL)
    (handOver_fit (In.trans (by decide) hL) (Fit.refl _ s)))

theorem exec_synCommit {s : State} {c : Synth} {slack : Nat} (hc : s.syn.cur = some c) (hby : merNs s ≤ commitBy c.k s)
    (hslack : slack = (commitBy c.k s - merNs s) / 1000) : exec .synCommit s =
      .next (mpiCollect (raise 0x72 [(8, c.k), (4, slack)] (commitJob c slack (synthCommitted c slack s)))) := by
  subst hslack
  change execSynCommit s = _
  simp only [execSynCommit, ok, hc, if_neg (Nat.not_lt.2 hby)]
  rfl

/-! ## The deadline (R124) -/

/-- A synthesis that is stopped: Cumulus is free from now on, the frame's status is a miss (R124). -/
theorem stopSynth_syn {s : State} {c : Synth} (hc : s.syn.cur = some c) : (stopSynth s).syn =
    { (onFrameStat c.k (fun t => { t with state := 5 }) s).syn with cur := none, freeAt := some (merNs s) } := by
  simp only [stopSynth, hc, mpiCollect_syn, onSyn_syn, onFrameStat, dropFrame_syn]

/-- The state at the commit deadline of `c`, which is stopped and counted as a miss (R124). -/
def synthMissed (c : Synth) (s : State) : State :=
  onSyn (fun y => { y with misses := y.misses + 1 }) (stopSynth (advanceMer (commitBy c.k s) s))

theorem synthMissed_syn {s : State} {c : Synth} (hc : s.syn.cur = some c) : (synthMissed c s).syn.cur = none ∧
    (synthMissed c s).syn.misses = s.syn.misses + 1 ∧ (synthMissed c s).syn.kept = s.syn.kept := by
  have hcur : (advanceMer (commitBy c.k s) s).syn.cur = some c := by rw [advanceMer_syn, hc]
  simp [synthMissed, stopSynth_syn hcur, onFrameStat]

/-- What the stop leaves alone from the deadline's instant on. -/
theorem synthMissed_fit (c : Synth) (s : State) : Fit 0x54200 (advanceMer (commitBy c.k s) s) (synthMissed c s) :=
  onSyn_fit (by decide) (stopSynth_fit (by decide) (Fit.refl _ _))

theorem exec_synDeadline_of_no_job {done : Byte} {s : State} {c : Synth} (hc : s.syn.cur = some c) (hsrc : ∀ j, c.src ≠ .job j) :
    exec (.synDeadline done) s = .next (raise 0x74 [(8, c.k), (1, done.toNat)] (synthMissed c s)) := by
  change execSynDeadline done s = _
  simp only [execSynDeadline, ok, hc] -- `hsrc` discharges the side condition of the match's last arm
  rfl

/-- A frame job not held as KEEP source misses its frame with the synthesis (R121, R124). -/
theorem exec_synDeadline_of_job {done : Byte} {s : State} {c : Synth} {j : FrameJob} (hc : s.syn.cur = some c)
    (hsrc : c.src = .job j) (hkept : s.syn.kept.any (fun e => e.1 == j) = false) :
    exec (.synDeadline done) s = .next (missJob j (raise 0x74 [(8, c.k), (1, done.toNat)] (synthMissed c s))) := by
  obtain ⟨-, -, hsame⟩ := synthMissed_syn hc
  have hheld : (raise 0x74 [(8, c.k), (1, done.toNat)] (synthMissed c s)).syn.kept.any (fun e => e.1 == j) = false := by
    rw [raise_syn, hsame, hkept]
  change execSynDeadline done s = _
  simp only [synthMissed] at hheld ⊢
  simp only [execSynDeadline, ok, hc, hsrc, hheld, Bool.false_eq_true, if_false]

/-! ## The frame a packet is for (R120) -/

theorem openFrame_congr {s t : State} (hscn : t.scn = s.scn) (htime : t.time = s.time) (hsyn : t.syn = s.syn) :
    openFrame t = openFrame s := by
  unfold openFrame merNs
  rw [hscn, htime, hsyn]

theorem segAfter_congr {s t : State} (hscn : t.scn = s.scn) (hmode : t.mode = s.mode) (hpnl : t.pnl = s.pnl) :
    segAfter t = segAfter s := by
  simp only [segAfter, nqOf, keptFrame, hscn, hmode, hpnl]

theorem frameFrom_congr {s t : State} (hscn : t.scn = s.scn) (hmode : t.mode = s.mode) (hpnl : t.pnl = s.pnl) (n : Nat) :
    frameFrom n t = frameFrom n s := by
  unfold frameFrom
  rw [segAfter_congr hscn hmode hpnl, hscn, hmode]

/-- A packet that takes no samples is performed with the frame grid and the open frames it arrived with. -/
theorem targetFrame_taken {r : Row} (hpre : r.pre = id) (h : Hdr) (s : State) : targetFrame h (taken r s) = targetFrame h s := by
  have hfit : Fit 0x800600 s (taken r s) := taken_fit_of_pre_id (by decide) hpre s
  have hscn : (taken r s).scn = s.scn := hfit.2 .scn rfl
  unfold targetFrame
  rw [openFrame_congr hscn (hfit.2 .time rfl) (hfit.2 .syn rfl), frameFrom_congr hscn (hfit.2 .mode rfl) (hfit.2 .pnl rfl)]

/-! ## FRAME_SUBMIT -/

/-- The job that a FRAME_SUBMIT asks for, from the MPI whose checked header `bs` stands at `a` of buffer `b` (R119). -/
def jobAsked (h : Hdr) (p : FrameSubmitP) (k : Nat) (b : Buf) (a : Nat) (bs : List Byte) (s : State) : FrameJob :=
  ⟨h, k, b.idx, hostMpi s.mem a bs, p.fence.toNat, p.value.toNat, p.point.toNat, p.flags.toNat.testBit 0⟩

/-- A job is pending and Cumulus holds its buffer (R120, R375). -/
def jobPending (j : FrameJob) (s : State) : State :=
  onSyn (fun y => { y with jobs := y.jobs ++ [j] }) (hold j.buf .cumulus (jobOwner j) s)

theorem jobPending_jobs (j : FrameJob) (s : State) : (jobPending j s).syn.jobs = s.syn.jobs ++ [j] := by simp [jobPending]

theorem jobPending_fit {L : Nat} (hL : In 0x10200 L) {s0 s : State} (j : FrameJob) (h0 : Fit L s0 s) : Fit L s0 (jobPending j s) :=
  onSyn_fit (In.trans (by decide) hL) (hold_fit (In.trans (by decide) hL) h0)

theorem exec_frameSubmit {h : Hdr} {p : FrameSubmitP} {s : State} {k a n : Nat} {b : Buf} {bs : List Byte}
    (hchk : chkFrameSubmit h p (taken (rowFrameSubmit h p) s) = none) (hk : targetFrame h s = some k)
    (hhdr : submitHdr p (taken (rowFrameSubmit h p) s) = some (b, a, bs, n)) (hs : served (rowFrameSubmit h p) s = true) :
    exec (.frameSubmit h p) s = .next (accepted h 0x0305 (k % 2 ^ 32)
      (jobPending (jobAsked h p k b a bs (taken (rowFrameSubmit h p) s)) (taken (rowFrameSubmit h p) s))) := by
  have hk' : targetFrame h (taken (rowFrameSubmit h p) s) = some k := (targetFrame_taken rfl h s).trans hk
  have hrun : (rowFrameSubmit h p).run (taken (rowFrameSubmit h p) s) = runFrameSubmit h p (taken (rowFrameSubmit h p) s) := by
    simp only [rowFrameSubmit] at hchk ⊢
    rw [hchk]
  refine congrArg Host.Outcome.next ((command_of_served hs).trans (hrun.trans ?_))
  simp only [runFrameSubmit, hk', hhdr]
  rfl

/-- A FRAME_SUBMIT that is served though its checks fail is one whose header fails R118: event 0x73 (R132). -/
theorem exec_frameSubmit_of_bad {h : Hdr} {p : FrameSubmitP} {s : State} {v : Verdict}
    (hchk : chkFrameSubmit h p (taken (rowFrameSubmit h p) s) = some v) (hs : served (rowFrameSubmit h p) s = true) :
    exec (.frameSubmit h p) s = .next (finish h 0x0305 v (raise 0x73 [(1, v.w0)] (taken (rowFrameSubmit h p) s))) := by
  refine congrArg Host.Outcome.next ((command_of_served hs).trans ?_)
  simp only [rowFrameSubmit] at hchk ⊢
  rw [hchk]

/-! ## FRAME_STATUS -/

theorem statAsked_taken {r : Row} (hpre : r.pre = id) (k : U64) (s : State) : statAsked k (taken r s) = statAsked k s := by
  simp only [statAsked, shownFrame, taken_syn_of_pre_id hpre, taken_scn_of_pre_id hpre]

theorem exec_frameStatus {h : Hdr} {k : U64} {s : State} {x : FrameStat} (hx : statAsked k s = some x)
    (hs : served (rowFrameStatus h k) s = true) : exec (.frameStatus h k) s = .next (finish h 0x0306
      (okay (x.state + x.src * 2 ^ 8 + x.planes * 2 ^ 16) x.slack x.tag) (taken (rowFrameStatus h k) s)) := by
  have hx' : statAsked k (taken (rowFrameStatus h k) s) = some x := (statAsked_taken rfl k s).trans hx
  refine congrArg Host.Outcome.next ((command_of_served hs).trans ?_)
  simp only [rowFrameStatus] at hx' ⊢
  rw [hx']

/-! ## VIEW_SHIFT -/

/-- A shift waits for frame `k` in place of those for the same or later frames (R127; the replacing is DEDUCED, log entry 46). -/
def shiftAhead (k : Nat) (x : Shift) (s : State) : State :=
  onSyn (fun y => { y with shiftNext := y.shiftNext.filter (fun e => e.1 < k) ++ [(k, x)] }) s

theorem exec_viewShift {h : Hdr} {p : ViewShiftP} {s : State} {k : Nat} (hk : targetFrame h s = some k)
    (hs : served (rowViewShift h p) s = true) : exec (.viewShift h p) s =
      .next (finish h 0x0307 (okay (k % 2 ^ 32)) (shiftAhead k (shiftAsked p) (taken (rowViewShift h p) s))) := by
  have hk' : targetFrame h (taken (rowViewShift h p) s) = some k := (targetFrame_taken rfl h s).trans hk
  refine congrArg Host.Outcome.next ((command_of_served hs).trans ?_)
  change runViewShift h p _ = _
  simp only [runViewShift, hk']
  rfl

/-! ## The clauses of `Synthesis` -/

/-- Settles O50: the start, the commit and the deadline of a synthesis, and the commands that give it jobs, ask after frames and
shift the view. -/
theorem synthesis : Obligations.Synthesis := by
  refine ⟨⟨?_, ?_, ?_, ?_, ?_⟩, ?_, ?_, ?_, ?_⟩
  · intro s k d a b hopen hdesc hidle hmode hthen hfull hgroups hfree
    have hfit := synthStarted_fit (L := 0x874E02) (by decide) k d a b (advanceMer (synthInstant k s) s)
    exact ⟨_, exec_synthesisStart hopen hdesc hidle hmode hthen hfull hgroups hfree, synthStarted_nextK ..,
      le_merNs_of_time (hfit.2 .time rfl), hfit.keeps_from_clock (by decide) (by decide)⟩
  · intro k d f a b s
    exact beginSynth_cur k d f a b s
  · intro s c hc hby
    exact ⟨_, _, exec_synCommit hc hby rfl, rfl, rfl, synthCommitted_committedK .., fun f hf => committed_of_mem_handOver hf,
      (synthCommitted_fit (L := 0x51200) (by decide) c _ s).keeps (by decide)⟩
  · intro done s c hc hsrc
    obtain ⟨hcur, hmisses, -⟩ := synthMissed_syn hc
    exact ⟨_, exec_synDeadline_of_no_job hc hsrc, hcur, hmisses, le_merNs_of_time ((synthMissed_fit c s).2 .time rfl),
      (synthMissed_fit c s).keeps_from_clock (by decide) (by decide)⟩
  · intro done s c j hc hsrc hkept
    obtain ⟨hcur, hmisses, -⟩ := synthMissed_syn hc
    exact ⟨_, exec_synDeadline_of_job hc hsrc hkept, hcur, hmisses⟩
  · intro h p s k b a bs n hchk hk hhdr hs
    refine ⟨jobAsked h p k b a bs (taken (rowFrameSubmit h p) s), _, exec_frameSubmit hchk hk hhdr hs, ?_, rfl, rfl, rfl, rfl,
      (jobPending_fit (L := 0x810600) (by decide) _ (taken_fit_of_pre_id (by decide) rfl s)).keeps (by decide)⟩
    rw [jobPending_jobs, taken_syn_of_pre_id rfl]
  · intro h p s v
    exact exec_frameSubmit_of_bad
  · intro h k s x
    exact exec_frameStatus
  · intro h p s k hk hs
    refine ⟨_, exec_viewShift hk hs, ?_,
      (onSyn_fit (L := 0x810600) (by decide) (taken_fit_of_pre_id (by decide) rfl s)).keeps (by decide)⟩
    rw [shiftAhead, onSyn_syn, taken_syn_of_pre_id rfl]

end Sys2Proof.Machine
end

section
/-! PROOFS. The camera ports and their commands: CAM_CFG, CAM_TRIGGER_CFG, CAM_STATUS and SWEEP_CFG (R141 to R146, R157, R164). -/

namespace Sys2Proof.Machine

/-! ## Reading a port after a write -/

theorem portOf_congr {s t : State} (h : t.cam.ports = s.cam.ports) (n : Nat) : portOf n t = portOf n s := by rw [portOf, h, portOf]

theorem portOf_of_cam_eq {s t : State} (h : t.cam = s.cam) (n : Nat) : portOf n t = portOf n s :=
  portOf_congr (congrArg CamSt.ports h) n

theorem portOf_onPort_self {c : Nat} {s : State} (f : CamPort → CamPort) (h : c < s.cam.ports.length) :
    portOf c (onPort c f s) = f (portOf c s) := by
  simp [portOf, onPort, h]

theorem portOf_onPort_of_ne {c n : Nat} (f : CamPort → CamPort) (s : State) (h : n ≠ c) :
    portOf n (onPort c f s) = portOf n s := by
  simp [portOf, onPort, List.getD_eq_getElem?_getD, h.symm]

/-- What a write leaves as it was in every port is the same after it. -/
theorem onPort_keeps_field {α : Type} (g : CamPort → α) {f : CamPort → CamPort} (hg : ∀ p, g (f p) = g p) (c n : Nat) (s : State) :
    g (portOf n (onPort c f s)) = g (portOf n s) := by
  by_cases hn : n = c
  · subst hn
    by_cases h : n < s.cam.ports.length
    · rw [portOf_onPort_self f h, hg]
    · simp [portOf, onPort, h]
  · rw [portOf_onPort_of_ne f s hn]

@[simp] theorem onPort_ports_length (c : Nat) (f : CamPort → CamPort) (s : State) :
    (onPort c f s).cam.ports.length = s.cam.ports.length := by simp [onPort]

theorem taken_cam_of_pre_id {r : Row} (hpre : r.pre = id) (s : State) : (taken r s).cam = s.cam :=
  taken_cam r s fun _ => by rw [hpre]; rfl

theorem taken_cam_ports {r : Row} (hpre : r.pre = id) (s : State) : (taken r s).cam.ports = s.cam.ports :=
  congrArg CamSt.ports (taken_cam_of_pre_id hpre s)

/-! ## A port goes down -/

theorem endI2c_cam (c st : Nat) (s : State) : (endI2c c st s).cam = (onPort c (fun p => { p with i2c := [] }) s).cam :=
  List.foldlRecOn (motive := fun t : State => t.cam = (onPort c (fun p => { p with i2c := [] }) s).cam) _ _ rfl
    fun _ ht _ _ => by rw [raise_cam, finish_cam, ht]

/-- A port that goes down has neither a gear nor transfers (R135, R143). -/
theorem portDown_cam (c : Nat) (s : State) :
    (portDown c s).cam = (onPort c (fun p => { p with gear := none, i2c := [] }) s).cam := by
  rw [portDown, endI2c_cam]
  simp [onPort, List.modify_modify_eq, Function.comp_def]

theorem portOf_portDown_self {c : Nat} {s : State} (h : c < s.cam.ports.length) :
    portOf c (portDown c s) = { portOf c s with gear := none, i2c := [] } := by
  rw [portOf_of_cam_eq (portDown_cam c s), portOf_onPort_self _ h]

theorem portOf_portDown_of_ne {c n : Nat} (s : State) (h : n ≠ c) : portOf n (portDown c s) = portOf n s := by
  rw [portOf_of_cam_eq (portDown_cam c s), portOf_onPort_of_ne _ s h]

@[simp] theorem portDown_ports_length (c : Nat) (s : State) : (portDown c s).cam.ports.length = s.cam.ports.length := by
  rw [portDown_cam, onPort_ports_length]

theorem sweptBufs_congr {s t : State} (h : t.cam.sweep = s.cam.sweep) (c : Nat) : sweptBufs c t = sweptBufs c s := by
  rw [sweptBufs, h, sweptBufs]

/-! ## OP 0: a port is configured (R141) -/

/-- The port is trained at a gear above GEAR_MAX, and trains again (DEDUCED, log entry 49). -/
def trainsAgain (g : CamCfg) (p : CamPort) : Bool := p.gear.any (fun t => decide (g.gearMax < t))

/-- The state in which port `c` takes configuration `g`: its buffers are its own, a gear above GEAR_MAX is given up. -/
def portReadied (c : Nat) (g : CamCfg) (s : State) : State :=
  let u := if (portOf c s).cfg.isNone then move 0x13 0 8 3 s else s
  if trainsAgain g (portOf c s) then portDown c u else u

theorem configure_eq (c : Nat) (g : CamCfg) (s : State) : configure c g s = onPort c (fun p => { p with
    cfg := some g, cfgFrom := nextWindow s, cfgPrev := if p.cfgFrom < nextWindow s then p.cfg else p.cfgPrev, freeing := false,
    masked := false, presMasked := false, rearm := false, format := false, drops := [], accepted := 0 }) (portReadied c g s) := by
  unfold configure portReadied trainsAgain
  dsimp only []
  cases (portOf c s).gear <;> rfl

/-- Taking its buffers changes no port. -/
theorem buffersTaken_cam (c : Nat) (s : State) : (if (portOf c s).cfg.isNone then move 0x13 0 8 3 s else s).cam = s.cam := by
  split
  · exact move_cam ..
  · rfl

theorem portReadied_ports_length (c : Nat) (g : CamCfg) (s : State) :
    (portReadied c g s).cam.ports.length = s.cam.ports.length := by
  unfold portReadied
  dsimp only []
  split
  · rw [portDown_ports_length, buffersTaken_cam]
  · rw [buffersTaken_cam]

theorem portOf_portReadied_of_ne {c n : Nat} (g : CamCfg) (s : State) (h : n ≠ c) :
    portOf n (portReadied c g s) = portOf n s := by
  unfold portReadied
  dsimp only []
  split
  · rw [portOf_portDown_of_ne _ h, portOf_of_cam_eq (buffersTaken_cam c s)]
  · exact portOf_of_cam_eq (buffersTaken_cam c s) n

theorem portReadied_gear {c : Nat} {s : State} (g : CamCfg) (h : c < s.cam.ports.length) :
    (portOf c (portReadied c g s)).gear = if trainsAgain g (portOf c s) then none else (portOf c s).gear := by
  have hkept := buffersTaken_cam c s
  unfold portReadied
  dsimp only []
  split
  · rw [portOf_portDown_self (by rw [hkept]; exact h)]
  · rw [portOf_of_cam_eq hkept]

theorem exec_camCfgPort {h : Hdr} {p : CamPortP} {s : State} (hs : served (rowCamCfgPort h p) s = true) :
    exec (.camCfgPort h p) s =
      .next (finish h 0x0C05 (okay) (configure p.port.toNat (cfgOf p) (taken (rowCamCfgPort h p) s))) :=
  congrArg Host.Outcome.next (command_of_served hs)

/-! ## OP 1: a port is deconfigured (R142) -/

/-- A port without a configuration, its buffers returned. -/
def deconfigured (p : CamPort) : CamPort := { p with freeing := false, cfg := none, cfgPrev := none, map := none }

/-- The buffers of port `c` may return: it is being deconfigured, and neither images nor a sweep hold any (R142, R370). -/
def mayReturn (c : Nat) (s : State) : Prop := (portOf c s).freeing = true ∧ (portOf c s).images = [] ∧ sweptBufs c s = []

theorem settlePort_cam_of_mayReturn {c : Nat} {s : State} (h : mayReturn c s) :
    (settlePort c s).cam = (onPort c deconfigured s).cam := by
  obtain ⟨hfreeing, himages, hswept⟩ := h
  simp only [settlePort, hfreeing, himages, hswept, beq_self_eq_true, Bool.and_self, if_true, move_cam]
  rfl

theorem settlePort_of_not_mayReturn {c : Nat} {s : State} (h : ¬ mayReturn c s) : settlePort c s = s := by
  unfold settlePort
  refine if_neg fun hc => h ?_
  simpa [mayReturn, and_assoc] using hc

/-- A port settled is as it was, or deconfigured. -/
theorem settlePort_keeps_field {α : Type} (g : CamPort → α) (hg : ∀ p, g (deconfigured p) = g p) (c n : Nat) (s : State) :
    g (portOf n (settlePort c s)) = g (portOf n s) := by
  by_cases h : mayReturn c s
  · rw [portOf_of_cam_eq (settlePort_cam_of_mayReturn h)]
    exact onPort_keeps_field g hg c n s
  · rw [settlePort_of_not_mayReturn h]

/-- What OP 1 makes of a configured port before it is settled: down, and its buffers to return. -/
def portFreeing (c : Nat) (s : State) : State := onPort c (fun x => { x with freeing := true }) (portDown c s)

theorem portOf_portFreeing {c : Nat} {s : State} (h : c < s.cam.ports.length) :
    portOf c (portFreeing c s) = { portOf c s with gear := none, i2c := [], freeing := true } := by
  rw [portFreeing, portOf_onPort_self _ (by simpa using h), portOf_portDown_self h]

theorem portFreeing_sweep (c : Nat) (s : State) : (portFreeing c s).cam.sweep = s.cam.sweep := by
  simp [portFreeing, onPort, portDown_cam]

theorem settlePort_portFreeing_of_empty {c : Nat} {s : State} (h : c < s.cam.ports.length) (himages : (portOf c s).images = [])
    (hswept : sweptBufs c s = []) : portOf c (settlePort c (portFreeing c s)) = deconfigured (portOf c (portFreeing c s)) := by
  have hmay : mayReturn c (portFreeing c s) := by
    refine ⟨?_, ?_, (sweptBufs_congr (portFreeing_sweep c s) c).trans hswept⟩
    · rw [portOf_portFreeing h]
    · rw [portOf_portFreeing h, himages]
  rw [portOf_of_cam_eq (settlePort_cam_of_mayReturn hmay), portOf_onPort_self]
  simpa [portFreeing] using h

/-- A port that OP 1 has reached waits for its buffers, or is deconfigured. -/
theorem settlePort_portFreeing {c : Nat} {s : State} (h : c < s.cam.ports.length) :
    (portOf c (settlePort c (portFreeing c s))).freeing = true ∨
      ((portOf c (settlePort c (portFreeing c s))).cfg = none ∧ (portOf c (settlePort c (portFreeing c s))).map = none) := by
  by_cases hmay : mayReturn c (portFreeing c s)
  · right
    rw [portOf_of_cam_eq (settlePort_cam_of_mayReturn hmay), portOf_onPort_self _ (by simpa [portFreeing] using h)]
    exact ⟨rfl, rfl⟩
  · left
    rw [settlePort_of_not_mayReturn hmay, portOf_portFreeing h]

theorem portFreeing_fit {L : Nat} {s0 s : State} (hL : In 0x820E02 L) (c : Nat) (h0 : Fit L s0 s) : Fit L s0 (portFreeing c s) :=
  onPort_fit (In.trans (by decide) hL) (portDown_fit hL h0)

theorem rowCamCfgOff_run (h : Hdr) (p : CamOffP) (s : State) : (rowCamCfgOff h p).run s = finish h 0x0C05 (okay)
    (if (portOf p.port.toNat s).cfg.isSome then settlePort p.port.toNat (portFreeing p.port.toNat s) else s) := rfl

theorem exec_camCfgOff {h : Hdr} {p : CamOffP} {s : State} (hcfg : (portOf p.port.toNat s).cfg.isSome = true)
    (hs : served (rowCamCfgOff h p) s = true) : exec (.camCfgOff h p) s = .next (finish h 0x0C05 (okay)
      (settlePort p.port.toNat (portFreeing p.port.toNat (taken (rowCamCfgOff h p) s)))) := by
  have hcfg' := portOf_of_cam_eq (taken_cam_of_pre_id (r := rowCamCfgOff h p) rfl s) p.port.toNat ▸ hcfg
  refine congrArg Host.Outcome.next ((command_of_served hs).trans ?_)
  rw [rowCamCfgOff_run, if_pos hcfg']

theorem exec_camCfgOff_of_none {h : Hdr} {p : CamOffP} {s : State} (hcfg : (portOf p.port.toNat s).cfg = none)
    (hs : served (rowCamCfgOff h p) s = true) :
    exec (.camCfgOff h p) s = .next (finish h 0x0C05 (okay) (taken (rowCamCfgOff h p) s)) := by
  have hcfg' := portOf_of_cam_eq (taken_cam_of_pre_id (r := rowCamCfgOff h p) rfl s) p.port.toNat ▸ hcfg
  refine congrArg Host.Outcome.next ((command_of_served hs).trans ?_)
  rw [rowCamCfgOff_run, hcfg']
  rfl

/-! ## OP 2: a transfer to the camera (R143) -/

/-- A transfer waits behind those of its port. -/
def i2cQueued (c : Nat) (t : CamI2c) (s : State) : State := onPort c (fun x => { x with i2c := x.i2c ++ [t] }) s

/-- The transfer that a CAM_CFG OP 2 asks for. -/
def i2cAsked (h : Hdr) (p : CamI2cP) : CamI2c :=
  ⟨h, p.addr.toNat, bytesAt p.data 0 p.writeLen.toNat, p.speed.toNat, p.readLen.toNat⟩

theorem i2cQueued_i2c {c : Nat} {s : State} (t : CamI2c) (h : c < s.cam.ports.length) :
    (portOf c (i2cQueued c t s)).i2c = (portOf c s).i2c ++ [t] := by
  rw [i2cQueued, portOf_onPort_self _ h]

theorem startI2c_of_cons {c : Nat} {s : State} {t : CamI2c} {r : List CamI2c} (h : (portOf c s).i2c = t :: r) :
    startI2c c s = emit (.camI2c c t.addr t.data t.readLen t.speed) s := by
  rw [startI2c, h]

/-- A transfer is accepted, and starts at once when the port has no other (R143). -/
theorem rowCamCfgI2c_run {h : Hdr} {p : CamI2cP} {s : State} (hp : p.port.toNat < s.cam.ports.length) :
    (rowCamCfgI2c h p).run s =
      if (portOf p.port.toNat s).i2c = [] then
        emit (.camI2c p.port.toNat (i2cAsked h p).addr (i2cAsked h p).data (i2cAsked h p).readLen (i2cAsked h p).speed)
          (accepted h 0x0C05 0 (i2cQueued p.port.toNat (i2cAsked h p) s))
      else accepted h 0x0C05 0 (i2cQueued p.port.toNat (i2cAsked h p) s) := by
  have hqueue : (portOf p.port.toNat (accepted h 0x0C05 0 (i2cQueued p.port.toNat (i2cAsked h p) s))).i2c =
      (portOf p.port.toNat s).i2c ++ [i2cAsked h p] := by
    rw [portOf_of_cam_eq (accepted_cam ..), i2cQueued_i2c _ hp]
  change (if ((portOf p.port.toNat s).i2c == []) = true then
    startI2c p.port.toNat (accepted h 0x0C05 0 (i2cQueued p.port.toNat (i2cAsked h p) s)) else _) = _
  by_cases hquiet : (portOf p.port.toNat s).i2c = []
  · rw [if_pos (by rw [hquiet]; rfl), if_pos hquiet]
    exact startI2c_of_cons (by rw [hqueue, hquiet]; rfl)
  · rw [if_neg (by simpa using hquiet), if_neg hquiet]
    rfl

theorem exec_camCfgI2c {h : Hdr} {p : CamI2cP} {s : State} (hp : p.port.toNat < s.cam.ports.length)
    (hs : served (rowCamCfgI2c h p) s = true) : exec (.camCfgI2c h p) s =
      .next (if (portOf p.port.toNat s).i2c = [] then
        emit (.camI2c p.port.toNat (i2cAsked h p).addr (i2cAsked h p).data (i2cAsked h p).readLen (i2cAsked h p).speed)
          (accepted h 0x0C05 0 (i2cQueued p.port.toNat (i2cAsked h p) (taken (rowCamCfgI2c h p) s)))
      else accepted h 0x0C05 0 (i2cQueued p.port.toNat (i2cAsked h p) (taken (rowCamCfgI2c h p) s))) := by
  have hcam : (taken (rowCamCfgI2c h p) s).cam = s.cam := taken_cam_of_pre_id rfl s
  refine congrArg Host.Outcome.next ((command_of_served hs).trans ?_)
  rw [rowCamCfgI2c_run (by rw [hcam]; exact hp), portOf_of_cam_eq hcam]

/-! ## The other commands of the cameras -/

/-- A port takes a rectification map, which re-arms it (R139, R144). -/
def mapTaken (c : Nat) (m : CamMap) (s : State) : State := onPort c (fun x => { x with map := some m, rearm := false }) s

theorem exec_camCfgMap {h : Hdr} {p : CamMapP} {s : State} (hs : served (rowCamCfgMap h p) s = true) :
    exec (.camCfgMap h p) s = .next (finish h 0x0C05 (okay) (mapTaken p.port.toNat
      (mapOf (mapBytes p (taken (rowCamCfgMap h p) s)).1) (taken (rowCamCfgMap h p) s))) :=
  congrArg Host.Outcome.next (command_of_served hs)

/-- Trigger settings wait for window `k`, and those in force before it stay (R146). -/
def trigAhead (k : Nat) (t : TrigCfg) (s : State) : State :=
  onCam (fun x => { x with trig := trigAt (k - 1) s, trigNext := some (k, t) }) s

theorem trigAt_trigAhead (k : Nat) (t : TrigCfg) (s : State) : trigAt k (trigAhead k t s) = t := by simp [trigAt, trigAhead]

theorem exec_camTriggerCfg {h : Hdr} {p : CamTrigP} {s : State} (hs : served (rowCamTriggerCfg h p) s = true) :
    exec (.camTriggerCfg h p) s = .next (finish h 0x0C06 (okay) (trigAhead (nextWindow (taken (rowCamTriggerCfg h p) s))
      ⟨p.offset.toNat, p.width.toNat, p.flags.toNat.testBit 0, camPorts.map (skewAt p)⟩ (taken (rowCamTriggerCfg h p) s))) :=
  congrArg Host.Outcome.next (command_of_served hs)

theorem portPowered_congr {s t : State} (hcam : t.cam = s.cam) (hmode : t.mode = s.mode) (c : Nat) :
    portPowered c t = portPowered c s := by
  simp only [portPowered, portOf_of_cam_eq hcam, hmode]

theorem camState_congr {s t : State} (hcam : t.cam = s.cam) (hmode : t.mode = s.mode) (c : Nat) : camState c t = camState c s := by
  simp only [camState, portOf_of_cam_eq hcam, portPowered_congr hcam hmode, hcam]

theorem exec_camStatus {h : Hdr} {p : CamStatusP} {s : State} (hs : served (rowCamStatus h p) s = true) :
    exec (.camStatus h p) s = .next (finish h 0x0C07
      (okay (camState p.port.toNat s + 256 * (portOf p.port.toNat s).gear.getD 0)
        ((portOf p.port.toNat s).accepted % 2 ^ 32) (unsigned 32 (portOf p.port.toNat s).slack)) (taken (rowCamStatus h p) s)) := by
  have hcam : (taken (rowCamStatus h p) s).cam = s.cam := taken_cam_of_pre_id rfl s
  have hmode : (taken (rowCamStatus h p) s).mode = s.mode := taken_mode _ s fun _ => rfl
  refine congrArg Host.Outcome.next ((command_of_served hs).trans ?_)
  rw [← camState_congr hcam hmode, ← portOf_of_cam_eq hcam]
  rfl

theorem exec_sweepCfg {h : Hdr} {p : SweepCfgP} {s : State} (hs : served (rowSweepCfg h p) s = true) :
    exec (.sweepCfg h p) s = .next (finish h 0x0C08 (okay) (onCam (fun c => { c with sweepCfg :=
      ⟨p.planes.toNat, p.flags.toNat.testBit 0, p.minViews.toNat, p.lo.toNat, p.hi.toNat, (List.range 24).map (sweepDispAt p)⟩ })
      (taken (rowSweepCfg h p) s))) :=
  congrArg Host.Outcome.next (command_of_served hs)

/-! ## The clauses of `CameraCommands` -/

/-- What a packet that changes only the cameras leaves alone. -/
theorem onCam_taken_keeps {r : Row} (hpre : r.pre = id) (f : CamSt → CamSt) (s : State) :
    Keeps [.cam, .buf, .cmd, .sbd] s (onCam f (taken r s)) :=
  (onCam_fit (L := 0x820600) (by decide) (taken_fit_of_pre_id (by decide) hpre s)).keeps (by decide)

/-- Settles O51: each command's effect on the ports is read from the one state it leaves before its reply. -/
theorem cameraCommands : Obligations.CameraCommands := by
  refine ⟨?_, ?_, ?_, ?_, ?_, ?_, ?_, ?_⟩
  · intro h p s hp hs
    have hcam : (taken (rowCamCfgPort h p) s).cam = s.cam := taken_cam_of_pre_id rfl s
    have hp' : p.port.toNat < (taken (rowCamCfgPort h p) s).cam.ports.length := by rw [hcam]; exact hp
    refine ⟨_, exec_camCfgPort hs, ?_⟩
    rw [configure_eq, portOf_onPort_self _ (by rw [portReadied_ports_length]; exact hp')]
    refine ⟨rfl, rfl, rfl, rfl, rfl, ?_, fun n hn => ?_, ?_⟩
    · refine (portReadied_gear _ hp').trans ?_
      rw [portOf_of_cam_eq hcam]
      unfold trainsAgain
      cases (portOf p.port.toNat s).gear with
      | none => rfl
      | some t => simp
    · rw [portOf_onPort_of_ne _ _ hn, portOf_portReadied_of_ne _ _ hn, portOf_of_cam_eq hcam]
    · rw [← configure_eq]
      exact (configure_fit (L := 0x820E02) (by decide) (taken_fit_of_pre_id (by decide) rfl s)).keeps (by decide)
  · intro h p s hp hcfg hs
    have hcam : (taken (rowCamCfgOff h p) s).cam = s.cam := taken_cam_of_pre_id rfl s
    have hp' : p.port.toNat < (taken (rowCamCfgOff h p) s).cam.ports.length := by rw [hcam]; exact hp
    refine ⟨_, exec_camCfgOff hcfg hs, ?_, ?_, settlePort_portFreeing hp', fun himages hswept => ?_, ?_⟩
    · rw [settlePort_keeps_field CamPort.gear (fun _ => rfl), portOf_portFreeing hp']
    · rw [settlePort_keeps_field CamPort.i2c (fun _ => rfl), portOf_portFreeing hp']
    · rw [settlePort_portFreeing_of_empty hp' (by rw [portOf_of_cam_eq hcam, himages])
        ((sweptBufs_congr (congrArg CamSt.sweep hcam) _).trans hswept)]
      rfl
    · exact (settlePort_fit (L := 0x820E02) (by decide)
        (portFreeing_fit (by decide) _ (taken_fit_of_pre_id (by decide) rfl s))).keeps (by decide)
  · intro h p s hcfg hs
    exact exec_camCfgOff_of_none hcfg hs
  · intro h p s t hp ht hs
    subst ht
    have hcam : (taken (rowCamCfgI2c h p) s).cam = s.cam := taken_cam_of_pre_id rfl s
    refine ⟨_, exec_camCfgI2c hp hs, ?_, onCam_taken_keeps rfl _ s⟩
    rw [i2cQueued_i2c _ (by rw [hcam]; exact hp), portOf_of_cam_eq hcam, i2cAsked]
  · intro h p s hp hs
    have hcam : (taken (rowCamCfgMap h p) s).cam = s.cam := taken_cam_of_pre_id rfl s
    refine ⟨_, exec_camCfgMap hs, ?_⟩
    rw [mapTaken, portOf_onPort_self _ (by rw [hcam]; exact hp), portOf_of_cam_eq hcam]
    exact ⟨rfl, rfl, rfl, onCam_taken_keeps rfl _ s⟩
  · intro h p s k hk hs
    subst hk
    exact ⟨_, exec_camTriggerCfg hs, trigAt_trigAhead .., taken_cam_ports (r := rowCamTriggerCfg h p) rfl s,
      onCam_taken_keeps rfl _ s⟩
  · intro h p s hs
    exact exec_camStatus hs
  · intro h p s hs
    exact ⟨_, exec_sweepCfg hs, rfl, taken_cam_ports (r := rowSweepCfg h p) rfl s, onCam_taken_keeps rfl _ s⟩

end Sys2Proof.Machine
end

section
/-! PROOFS. Camera ports in service: their links (R134, R138), transfers (R143), triggers (R147), images and windows (R136, R148)
and presence inputs (R539). -/

namespace Sys2Proof.Machine

/-! ## What reads and keeps the ports -/

theorem cfgAt_congr {c k : Nat} {s t : State} (hcfg : (portOf c t).cfg = (portOf c s).cfg)
    (hprev : (portOf c t).cfgPrev = (portOf c s).cfgPrev) (hfrom : (portOf c t).cfgFrom = (portOf c s).cfgFrom) :
    cfgAt c k t = cfgAt c k s := by
  simp only [cfgAt, hcfg, hprev, hfrom]

theorem freeCamBuf_congr {c : Nat} {s t : State} (himages : (portOf c t).images = (portOf c s).images)
    (hsweep : t.cam.sweep = s.cam.sweep) : freeCamBuf c t = freeCamBuf c s := by
  simp only [freeCamBuf, himages, sweptBufs_congr hsweep]

@[simp] theorem onPort_time (c : Nat) (f : CamPort → CamPort) (s : State) : (onPort c f s).time = s.time := rfl

@[simp] theorem onPort_mode (c : Nat) (f : CamPort → CamPort) (s : State) : (onPort c f s).mode = s.mode := rfl

theorem onPort_sameRecovs (c : Nat) (f : CamPort → CamPort) (s : State) : SameRecovs s (onPort c f s) := ⟨rfl, rfl⟩

theorem raiseIf_sameRecovs (b : Bool) (src : Nat) (items : List (Nat × Nat)) (s : State) :
    SameRecovs s (raiseIf b src items s) := by
  rw [raiseIf]
  exact .ite (raise_sameRecovs ..) (.refl s)

theorem portOf_advanceMer (n c : Nat) (s : State) : portOf c (advanceMer n s) = portOf c s := portOf_of_cam_eq (advanceMer_cam ..) c

/-! ## Links (R134, R138) -/

/-- Port `c` trains at gear `t`: events 0x80 and, for a gear too low for the payload, 0x85 (R134, R139, R141). -/
def linkTrained (c t latency : Nat) (g : CamCfg) (s : State) : State :=
  raiseIf (!gearFits g (camRate s) t) 0x85 [] (raise 0x80 [(1, t), (1, b2n (portOf c s).lost)] (onPort c (fun p => { p with
    gear := some t, latency := latency, rearm := p.rearm || p.lost, lost := false, format := !gearFits g (camRate s) t }) s))

theorem portOf_linkTrained {c : Nat} {s : State} (t latency : Nat) (g : CamCfg) (h : c < s.cam.ports.length) :
    portOf c (linkTrained c t latency g s) = { portOf c s with
      gear := some t, latency := latency, rearm := (portOf c s).rearm || (portOf c s).lost, lost := false,
      format := !gearFits g (camRate s) t } := by
  rw [linkTrained, portOf_of_cam_eq ((raiseIf_cam ..).trans (raise_cam ..)), portOf_onPort_self _ h]

theorem linkTrained_fit (c t latency : Nat) (g : CamCfg) (s : State) : Fit 0x820C02 s (linkTrained c t latency g s) :=
  raiseIf_fit (by decide) (raise_fit (by decide) (onPort_fit (by decide) (Fit.refl _ s)))

/-- The events of a training leave the recovery that waits for it. -/
theorem camRecov_linkTrained (c t latency : Nat) (g : CamCfg) (s : State) :
    camRecov c (linkTrained c t latency g s) = camRecov c s := by
  have hrecs : SameRecovs s (linkTrained c t latency g s) :=
    ((onPort_sameRecovs ..).trans (raise_sameRecovs ..)).trans (raiseIf_sameRecovs ..)
  rw [camRecov, hrecs.1, camRecov]

theorem exec_camLinkUp {port : Fin 16} {gear : Fin 5} {latency : Fin 10001} {s : State} {g : CamCfg} {t : Nat}
    (hmain : mainOn s = true) (hcfg : (portOf port.val s).cfg = some g) (hdown : (portOf port.val s).gear = none)
    (hpower : portPowered port.val s = true) (ht : t = min g.gearMax (gear.val + 1)) : exec (.camLinkUp port gear latency) s =
      .next (auditAll ((camRecov port.val s).elim (linkTrained port.val t latency.val g s)
        fun r => endRecov r 1 0 (linkTrained port.val t latency.val g s))) := by
  subst ht
  change execCamLinkUp port gear latency s = _
  rw [← camRecov_linkTrained port.val (min g.gearMax (gear.val + 1)) latency.val g s]
  simp only [execCamLinkUp, ok, hcfg, hmain, hdown, hpower, Option.isSome_none, Bool.not_true, Bool.or_self, Bool.false_eq_true,
    if_false]
  change Host.Outcome.next (auditAll (match camRecov port.val (linkTrained port.val _ latency.val g s) with
    | some r => endRecov r 1 0 (linkTrained port.val _ latency.val g s)
    | none => linkTrained port.val _ latency.val g s)) = _
  cases camRecov port.val (linkTrained port.val (min g.gearMax (gear.val + 1)) latency.val g s) <;> rfl

/-- Port `c` is down with its drop counted; what a lost link makes of the port itself (R138). -/
def linkDropped (c : Nat) (s : State) : State :=
  portDown c (onPort c (fun p => { p with
    lost := true, dropCount := p.dropCount + 1, drops := (s.time.ref :: p.drops).take 17 }) s)

theorem portOf_linkDropped {c : Nat} {s : State} (h : c < s.cam.ports.length) : portOf c (linkDropped c s) = { portOf c s with
    gear := none, i2c := [], lost := true, dropCount := (portOf c s).dropCount + 1,
    drops := (s.time.ref :: (portOf c s).drops).take 17 } := by
  rw [linkDropped, portOf_portDown_self (by simpa using h), portOf_onPort_self _ h]

theorem linkDropped_fit (c : Nat) (s : State) : Fit 0x820E02 s (linkDropped c s) :=
  portDown_fit (by decide) (onPort_fit (by decide) (Fit.refl _ s))

theorem quiescing_linkDropped (c : Nat) (s : State) : quiescing (linkDropped c s) = quiescing s := by
  rw [quiescing, (linkDropped_fit c s).2 .hwd rfl, quiescing]

theorem linkLost_of_quiescing {c : Nat} {s : State} (h : quiescing s = true) :
    linkLost c s = auditAll (fire 0x81 [] (linkDropped c s)) := by
  have h' : quiescing (linkDropped c s) = true := (quiescing_linkDropped c s).trans h
  unfold linkDropped at h' ⊢
  simp only [linkLost, h', if_true]

/-- Outside a quiesce a drop masks the port beyond CAM_FLAP_LIMIT, and is recovered at L0 otherwise (R138, R427). -/
theorem linkLost_of_not_quiescing {c : Nat} {s : State} (h : quiescing s = false) : linkLost c s =
    auditAll (if pv s 0x0C00 < recentDrops c (linkDropped c s) then takeOwn (camDomain c) 0 0 0x81 [] (linkDropped c s)
      else decideRecov (camDomain c) 0 (some 0x81) [] 0 .escalation none false
        (setWindow (camDomain c) 0 (((linkDropped c s).evt.rseq + 1) % 2 ^ 32) (linkDropped c s))) := by
  have h' : quiescing (linkDropped c s) = false := (quiescing_linkDropped c s).trans h
  rw [← pv_congr ((linkDropped_fit c s).2 .par rfl) 0x0C00]
  unfold linkDropped at h' ⊢
  simp only [linkLost, h', Bool.false_eq_true, if_false]

theorem exec_camLinkDown {port : Fin 16} {s : State} (h : (portOf port.val s).gear.isSome = true) :
    exec (.camLinkDown port) s = .next (linkLost port.val s) := by
  change execCamLinkDown port s = _
  rw [execCamLinkDown, ok, if_neg (by rw [Option.isNone_eq_false_iff.2 h]; exact Bool.false_ne_true)]

/-! ## Transfers (R143) -/

/-- What the end of a port's first transfer answers, with event 0x86 for one that fails (R143). -/
def i2cAnswered (t : CamI2c) (e : I2cEnd) (s : State) : State :=
  match e with
  | .done _ => finish t.h 0x0C05 (i2cVerdict t e) s
  | _ => raise 0x86 [] (finish t.h 0x0C05 (i2cVerdict t e) s)

theorem exec_camI2cTransferDone {port : Fin 16} {s : State} {t : CamI2c} {rest : List CamI2c} (e : I2cEnd)
    (h : (portOf port.val s).i2c = t :: rest) : exec (.camI2cTransferDone port e) s =
      .next (startI2c port.val (i2cAnswered t e (onPort port.val (fun p => { p with i2c := rest }) s))) := by
  change execCamI2cTransferDone port e s = _
  simp only [execCamI2cTransferDone, ok, h]
  cases e <;> rfl

/-! ## Triggers (R147) -/

/-- The trigger of window `k` of a port is sent early by the uplink's latency (R147). -/
def triggerSent (c k latency : Nat) (s : State) : State :=
  onCam (fun x => { x with trigDone := x.trigDone.set c k }) (advanceMer (trigTime k c s - latency) s)

theorem exec_camTrigger {port : Fin 16} {s : State} {f k : Nat} {g : CamCfg} (hframe : frameAt (merNs s) s = some f)
    (hk : k = max s.cam.fromK (max (s.cam.trigDone.getD port.val 0 + 1) (f + 3))) (hmode : s.mode.mode = .skylight)
    (hup : (portOf port.val s).gear.isSome = true) (hlit : s.scn.dark = none) (hnext : k ≤ f + 4)
    (hcfg : cfgAt port.val k s = some g) (hfree : g.free = false) : exec (.camTrigger port) s =
      .next (emit (.camTrigger port.val (trigTime k port.val s - (portOf port.val s).latency) ((trigAt k s).width * 1000)
        (trigAt k s).low) (triggerSent port.val k (portOf port.val s).latency s)) := by
  change execCamTrigger port s = _
  simp only [execCamTrigger, ok, hframe, ← hk, hmode, Option.isNone_eq_false_iff.2 hup, hlit, hcfg, hfree, Nat.not_lt.2 hnext,
    ne_eq, not_true_eq_false, decide_false, Option.isSome_none, Bool.or_self, Bool.false_eq_true, if_false]
  rfl

theorem le_merNs_triggerSent (c k latency : Nat) (s : State) : trigTime k c s - latency ≤ merNs (triggerSent c k latency s) :=
  le_merNs_of_time (onCam_time ..)

theorem triggerSent_trigDone (c k latency : Nat) (s : State) :
    (triggerSent c k latency s).cam.trigDone = s.cam.trigDone.set c k := by simp [triggerSent]

theorem triggerSent_fit (c k latency : Nat) (s : State) : Fit 0x20020 s (triggerSent c k latency s) :=
  onCam_fit (by decide) (advanceMer_fit (by decide) (Fit.refl _ s))

/-! ## Images (R136, R148) -/

/-- The port has received a frame, its counted packets noted, at the frame's FE stamp (R136, R137). -/
def frameReceived (c : Nat) (f : CsiFrame) (s : State) : State :=
  onPort c (fun p => { p with skipped := p.skipped + f.counted.toNat }) (advanceMer (mtOf f.fe) s)

theorem cfgAt_frameReceived (c k : Nat) (f : CsiFrame) (s : State) : cfgAt c k (frameReceived c f s) = cfgAt c k s := by
  have hkeeps {α : Type} (g : CamPort → α) (hg : ∀ (p : CamPort) n, g { p with skipped := n } = g p) :
      g (portOf c (frameReceived c f s)) = g (portOf c s) := by
    rw [frameReceived, onPort_keeps_field g (fun p => hg p _), portOf_advanceMer]
  exact cfgAt_congr (hkeeps CamPort.cfg fun _ _ => rfl) (hkeeps CamPort.cfgPrev fun _ _ => rfl)
    (hkeeps CamPort.cfgFrom fun _ _ => rfl)

theorem frameReceived_mode (c : Nat) (f : CsiFrame) (s : State) : (frameReceived c f s).mode = s.mode := by
  rw [frameReceived, onPort_mode, advanceMer_mode]

theorem frameReceived_fromK (c : Nat) (f : CsiFrame) (s : State) : (frameReceived c f s).cam.fromK = s.cam.fromK := by
  simp [frameReceived, onPort]

theorem frameReceived_fit (c : Nat) (f : CsiFrame) (s : State) : Fit 0x20020 s (frameReceived c f s) :=
  onPort_fit (by decide) (advanceMer_fit (by decide) (Fit.refl _ s))

theorem le_merNs_frameReceived (c : Nat) (f : CsiFrame) (s : State) : mtOf f.fe ≤ merNs (frameReceived c f s) :=
  le_merNs_of_time (onPort_time ..)

/-- The port takes a frame: its link is up and FE follows FS. -/
theorem frame_taken {c : Nat} {f : CsiFrame} {s : State} (hup : (portOf c s).gear.isSome = true)
    (horder : mtOf f.fs ≤ mtOf f.fe) : ¬ ((portOf c s).gear.isNone || decide (mtOf f.fe < mtOf f.fs)) = true := by
  simp [Option.isNone_eq_false_iff.2 hup, horder]

/-- Outside Skylight a received frame is not judged. -/
theorem exec_csi2Frame_of_not_skylight {port : Fin 16} {f : CsiFrame} {s : State} (hup : (portOf port.val s).gear.isSome = true)
    (horder : mtOf f.fs ≤ mtOf f.fe) (hmode : s.mode.mode ≠ .skylight) :
    exec (.csi2Frame port f) s = .next (frameReceived port.val f s) := by
  have hmode' : (frameReceived port.val f s).mode.mode ≠ .skylight := by rwa [frameReceived_mode]
  change execCsi2Frame port f s = _
  rw [execCsi2Frame, ok, if_neg (frame_taken hup horder)]
  exact congrArg Host.Outcome.next (if_pos hmode')

/-- In Skylight it is judged for the window of its FS stamp (R148). -/
theorem exec_csi2Frame_of_skylight {port : Fin 16} {f : CsiFrame} {s : State} {j : Nat} {g : CamCfg}
    (hup : (portOf port.val s).gear.isSome = true) (horder : mtOf f.fs ≤ mtOf f.fe) (hmode : s.mode.mode = .skylight)
    (hframe : frameAt (mtOf f.fs) (frameReceived port.val f s) = some j) (hfrom : s.cam.fromK ≤ j + 3)
    (hcfg : cfgAt port.val (j + 3) s = some g) :
    exec (.csi2Frame port f) s = .next (judgeImage port.val (j + 3) g f (frameReceived port.val f s)) := by
  have hmode' : ¬ (frameReceived port.val f s).mode.mode ≠ .skylight := by
    rw [frameReceived_mode]
    exact fun hne => hne hmode
  have hfrom' : ¬ j + 3 < (frameReceived port.val f s).cam.fromK := by rw [frameReceived_fromK]; exact Nat.not_lt.2 hfrom
  have hcfg' := (cfgAt_frameReceived port.val (j + 3) f s).trans hcfg
  change execCsi2Frame port f s = _
  rw [execCsi2Frame, ok, if_neg (frame_taken hup horder)]
  unfold frameReceived at hmode' hfrom' hcfg' hframe ⊢
  simp only [if_neg hmode', hframe, if_neg hfrom', hcfg']

/-- The lines of an image in camera buffer `i` of port `c`, with the row pitch of R141. -/
def linesStored (c i : Nat) (g : CamCfg) (lines : List (List Byte)) (s : State) : State :=
  lines.zipIdx.foldl (fun s e => devWrite (camBase c i + e.2 * camPitch g) e.1 s) s

theorem linesStored_cam (c i : Nat) (g : CamCfg) (lines : List (List Byte)) (s : State) :
    (linesStored c i g lines s).cam = s.cam :=
  (Fit.foldl (L := 0x1000) (Fit.refl _ s) fun _ _ h => devWrite_fit (by decide) h).2 .cam rfl

theorem portOf_storeImage {c i : Nat} {s : State} (k : Nat) (g : CamCfg) (lines : List (List Byte)) (h : c < s.cam.ports.length)
    (hfree : freeCamBuf c s = some i) : portOf c (storeImage c k g lines s) =
      { portOf c s with images := (portOf c s).images ++ [⟨k, i, g⟩], accepted := (portOf c s).accepted + 1 } := by
  have hstore : storeImage c k g lines s = move 0x13 8 4 1 (onPort c (fun p => { p with
      images := p.images ++ [⟨k, i, g⟩], accepted := p.accepted + 1 }) (linesStored c i g lines s)) := by
    rw [storeImage, hfree]
    rfl
  have hcam := linesStored_cam c i g lines s
  rw [hstore, portOf_of_cam_eq (move_cam ..), portOf_onPort_self _ (by rw [hcam]; exact h), portOf_of_cam_eq hcam]

/-- The slack of port `c` to the end of window `k` is noted (R164). -/
def slackNoted (c k fe : Nat) (s : State) : State :=
  onPort c (fun p => { p with slack := floorDiv ((windowEnd k s : Int) - fe) 1000 }) s

theorem freeCamBuf_slackNoted (c k fe : Nat) (s : State) : freeCamBuf c (slackNoted c k fe s) = freeCamBuf c s := by
  unfold slackNoted
  exact freeCamBuf_congr (onPort_keeps_field CamPort.images (fun _ => by rfl) ..) rfl

/-- A frame that meets R136 and comes first in its window, between trigger and window end, is stored (R148). -/
theorem judgeImage_of_good {c k : Nat} {g : CamCfg} {f : CsiFrame} {s : State} (hfs : g.free = true ∨ trigTime k c s ≤ mtOf f.fs)
    (hfirst : ∀ x ∈ (portOf c s).images, x.k ≠ k) (hjudged : (portOf c s).judged.contains k = false)
    (hfe : mtOf f.fe < windowEnd k s) (hwhole : f.broken = false) (hcount : f.lines.length = g.h)
    (hlines : ∀ l ∈ f.lines, l.length = g.w * pixelBytes g.dtype) :
    judgeImage c k g f s = storeImage c k g f.lines (slackNoted c k (mtOf f.fe) s) := by
  have hearly : (!g.free && decide (mtOf f.fs < trigTime k c (slackNoted c k (mtOf f.fe) s))) = false := by
    rcases hfs with hfree | htrig
    · rw [hfree]; rfl
    · rw [Bool.and_eq_false_iff, decide_eq_false_iff_not]; exact .inr (Nat.not_lt.2 htrig)
  have hextra : (portOf c s).images.any (fun x => x.k == k) = false := by simpa using hfirst
  have hwidth : f.lines.any (fun l => l.length != g.w * pixelBytes g.dtype) = false := by simpa using hlines
  unfold slackNoted at hearly ⊢
  simp only [judgeImage, hearly, hextra, hjudged, Nat.not_le.2 hfe, hwhole, hcount, hwidth, ne_eq, not_true_eq_false, decide_false,
    Bool.or_self, Bool.false_eq_true, if_false]

/-! ## Windows (R148) -/

theorem badImage_winEnd (c k src : Nat) (s : State) : (badImage c k src s).cam.winEnd = s.cam.winEnd := by
  unfold badImage
  dsimp only []
  rw [raise_cam]
  split <;> rfl

/-- What the end of window `k` makes of a port with an image whose FE has not arrived (R148). -/
def windowJudged (k : Nat) (outstanding : U16) (c : Nat) (s : State) : State :=
  if outstanding.toNat.testBit c && (portOf c s).gear.isSome && (cfgAt c k s).isSome &&
      !(portOf c s).images.any (fun x => x.k == k) && !(portOf c s).judged.contains k then badImage c k 0x82 s
  else s

/-- What the end of window `k` makes of the state at its instant. -/
def windowEnded (k : Nat) (outstanding : U16) (s : State) : State :=
  camPorts.foldl (fun s c => windowJudged k outstanding c s) (onCam (fun x => { x with winEnd := k }) s)

theorem windowEnded_winEnd (k : Nat) (outstanding : U16) (s : State) : (windowEnded k outstanding s).cam.winEnd = k := by
  refine List.foldlRecOn (motive := fun t : State => t.cam.winEnd = k) _ _ rfl fun t ht c _ => ?_
  unfold windowJudged
  split
  · rw [badImage_winEnd, ht]
  · exact ht

theorem windowEnded_fit (k : Nat) (outstanding : U16) (s : State) : Fit 0x820C02 s (windowEnded k outstanding s) :=
  Fit.foldl (onCam_fit (by decide) (Fit.refl _ s)) fun _ _ h => Fit.ite (fun _ => badImage_fit (by decide) h) fun _ => h

theorem exec_camWindowEnd {outstanding : U16} {s : State} {f k : Nat} (hframe : frameAt (merNs s) s = some f)
    (hk : k = max s.cam.fromK (s.cam.winEnd + 1)) (hmode : s.mode.mode = .skylight) (hlit : s.scn.dark = none) (hnext : k ≤ f + 4) :
    exec (.camWindowEnd outstanding) s = .next (windowEnded k outstanding (advanceMer (windowEnd k s) s)) := by
  change execCamWindowEnd outstanding s = _
  simp only [execCamWindowEnd, ok, hframe, ← hk, hmode, hlit, Nat.not_lt.2 hnext, ne_eq, not_true_eq_false, decide_false,
    Option.isSome_none, Bool.or_self, Bool.false_eq_true, if_false]
  rfl

/-! ## Presence (R539) -/

/-- The instant from which a level of the presence input that stays is accepted: 20 ms old, and 200 ms after the accepted edge
before (R539; between acceptances is DEDUCED, log entry 42). -/
def acceptInstant (c : Nat) (s : State) : Nat :=
  max (s.time.ref + 20000000) ((portOf c s).presEdge.elim 0 (· + 200000000))

/-- An edge that comes before the 200 ms have passed is counted (R539). -/
def presEdged (c : Nat) (s : State) : State :=
  if s.time.ref + 20000000 < (portOf c s).presEdge.elim 0 (· + 200000000) then presBounce c s else s

/-- The state in which a level is accepted: its edge counted, the instant come. -/
def presReady (c : Nat) (s : State) : State := advanceRef (acceptInstant c s) (presEdged c s)

/-- A presence level is accepted at the state's instant (R539). -/
def presAccepted (c : Nat) (level : Bool) (s : State) : State :=
  onPort c (fun p => { p with camera := level, presEdge := some s.time.ref, presAt := s.time.ref }) s

/-- An edge that came too early is counted at its port (R539). -/
def bounceCounted (c : Nat) (s : State) : State := onPort c (fun p => { p with bounces := p.bounces + 1 }) s

/-- The instant of the event 0x0D is noted. -/
def bounceSaid (c : Nat) (s : State) : State := onPort c (fun p => { p with said := some s.time.ref }) s

/-- An early edge is counted, and reported with event 0x0D or not (R539). -/
theorem presBounce_cases (c : Nat) (s : State) : presBounce c s = bounceCounted c s ∨
    ∃ items, presBounce c s = raise 0x0D items (bounceSaid c (bounceCounted c s)) := by
  unfold presBounce
  exact iteInduction (motive := fun t => t = bounceCounted c s ∨ ∃ items, t = raise 0x0D items (bounceSaid c (bounceCounted c s)))
    (fun _ => .inl rfl) fun _ => .inr ⟨_, rfl⟩

theorem bounceCounted_gear (c n : Nat) (s : State) : (portOf n (bounceCounted c s)).gear = (portOf n s).gear := by
  unfold bounceCounted
  exact onPort_keeps_field CamPort.gear (fun _ => by rfl) ..

theorem bounceSaid_gear (c n : Nat) (s : State) : (portOf n (bounceSaid c s)).gear = (portOf n s).gear := by
  unfold bounceSaid
  exact onPort_keeps_field CamPort.gear (fun _ => by rfl) ..

theorem presBounce_gear (c n : Nat) (s : State) : (portOf n (presBounce c s)).gear = (portOf n s).gear := by
  rcases presBounce_cases c s with h | ⟨items, h⟩
  · rw [h, bounceCounted_gear]
  · rw [h, portOf_of_cam_eq (raise_cam ..), bounceSaid_gear, bounceCounted_gear]

theorem presBounce_ports_length (c : Nat) (s : State) : (presBounce c s).cam.ports.length = s.cam.ports.length := by
  rcases presBounce_cases c s with h | ⟨items, h⟩
  · rw [h, bounceCounted, onPort_ports_length]
  · rw [h, raise_cam, bounceSaid, onPort_ports_length, bounceCounted, onPort_ports_length]

theorem presEdged_ports_length (c : Nat) (s : State) : (presEdged c s).cam.ports.length = s.cam.ports.length := by
  unfold presEdged
  split
  · exact presBounce_ports_length c s
  · rfl

theorem presEdged_gear (c : Nat) (s : State) : (portOf c (presEdged c s)).gear = (portOf c s).gear := by
  unfold presEdged
  split
  · exact presBounce_gear c c s
  · rfl

theorem presEdged_fit {L : Nat} (hL : In 0x820C02 L) (c : Nat) (s : State) : Fit L s (presEdged c s) :=
  Fit.ite (fun _ => presBounce_fit hL (Fit.refl _ s)) fun _ => Fit.refl _ s

theorem presReady_gear (c : Nat) (s : State) : (portOf c (presReady c s)).gear = (portOf c s).gear := by
  rw [presReady, portOf_of_cam_eq (advanceRef_cam ..), presEdged_gear]

theorem presAccepted_fit (c : Nat) (level : Bool) (s : State) : Fit 0x820C22 s (presAccepted c level (presReady c s)) :=
  onPort_fit (by decide) (advanceRef_fit (by decide) (presEdged_fit (by decide) c s))

theorem presAccepted_camera {c : Nat} {s : State} (level : Bool) (h : c < s.cam.ports.length) :
    (portOf c (presAccepted c level (presReady c s))).camera = level := by
  rw [presAccepted, portOf_onPort_self]
  rwa [presReady, advanceRef_cam, presEdged_ports_length]

theorem le_ref_presAccepted (c : Nat) (level : Bool) (s : State) :
    acceptInstant c s ≤ (presAccepted c level (presReady c s)).time.ref := by
  rw [presAccepted, onPort_time, presReady]
  exact le_ref_advanceRef ..

/-- A camera that goes while its link is up loses the link (DEDUCED, log entry 49). -/
theorem acceptCam_eq (c : Nat) (level : Bool) (s : State) : acceptCam c level s =
    if level = false ∧ (portOf c s).gear.isSome = true then linkLost c (presAccepted c level s) else presAccepted c level s := by
  have hgear : (portOf c (presAccepted c level s)).gear = (portOf c s).gear := by
    unfold presAccepted
    exact onPort_keeps_field CamPort.gear (fun _ => by rfl) ..
  unfold presAccepted at hgear ⊢
  simp only [acceptCam, hgear, Bool.and_eq_true, Bool.not_eq_true']

theorem exec_camPresInput {port : Fin 16} {level : Bool} {stable : Nat} {s : State} (hused : (portOf port.val s).presMasked = false)
    (hlevel : level ≠ (portOf port.val s).camera) (hstable : acceptInstant port.val s ≤ s.time.ref + stable * 1000) :
    exec (.camPresInput port level stable) s = .next (acceptCam port.val level (presReady port.val s)) := by
  have htime : (presEdged port.val s).time = s.time := (presEdged_fit (L := 0x820C02) (by decide) port.val s).2 .time rfl
  change execCamPresInput port level stable s = _
  unfold presReady
  unfold acceptInstant at hstable ⊢
  unfold presEdged at htime ⊢
  cases hedge : (portOf port.val s).presEdge
  all_goals
    simp only [hedge, Option.elim_none, Option.elim_some] at hstable htime ⊢
    simp only [execCamPresInput, ok, hused, beq_false_of_ne hlevel, hedge, htime, hstable, Bool.or_self, Bool.false_eq_true,
      if_false, if_true]
    rfl

/-! ## The clauses of `CameraHappenings` -/

/-- Settles O52: each row is one equation for what it makes of the state, read off port by port. -/
theorem cameraHappenings : Obligations.CameraHappenings := by
  refine ⟨?_, ?_, ?_, ?_, ?_, ?_, ?_, ?_, ?_, ?_⟩
  · intro port gear latency s g t hmain hcfg hdown hpower hp ht
    refine ⟨linkTrained port.val t latency.val g s, ?_, ?_⟩
    · rw [exec_camLinkUp hmain hcfg hdown hpower ht]
      cases camRecov port.val s <;> rfl
    · rw [portOf_linkTrained _ _ _ hp]
      exact ⟨rfl, rfl, rfl, rfl, (linkTrained_fit ..).keeps (by decide)⟩
  · intro port s hup hp hq
    refine ⟨linkDropped port.val s, (exec_camLinkDown hup).trans (congrArg _ (linkLost_of_quiescing hq)), ?_⟩
    rw [portOf_linkDropped hp]
    exact ⟨rfl, rfl, rfl, rfl⟩
  · intro port s hup hp hq
    refine ⟨linkDropped port.val s, _, (exec_camLinkDown hup).trans (congrArg _ (linkLost_of_not_quiescing hq)), ?_⟩
    rw [portOf_linkDropped hp]
    exact ⟨rfl, rfl, rfl, rfl⟩
  · intro port e s t rest hfirst hp
    refine ⟨onPort port.val (fun p => { p with i2c := rest }) s, (exec_camI2cTransferDone e hfirst).trans ?_,
      congrArg CamPort.i2c (portOf_onPort_self _ hp),
      (onPort_fit (L := 0x20000) (by decide) (Fit.refl _ s)).keeps (by decide)⟩
    cases e <;> rfl
  · intro port s f k g t q hframe hk hmode hup hlit hnext hcfg hfree ht hq
    subst ht hq
    exact ⟨_, exec_camTrigger hframe hk hmode hup hlit hnext hcfg hfree, le_merNs_triggerSent .., triggerSent_trigDone ..,
      (triggerSent_fit ..).keeps (by decide)⟩
  · intro port f s hup hp horder hmode
    refine ⟨_, exec_csi2Frame_of_not_skylight hup horder hmode, ?_, le_merNs_frameReceived ..,
      (frameReceived_fit ..).keeps (by decide)⟩
    rw [frameReceived, portOf_onPort_self _ (by rw [advanceMer_cam]; exact hp), portOf_advanceMer]
  · intro port f s u j g hup horder hmode hu hframe hfrom hcfg
    subst hu
    exact exec_csi2Frame_of_skylight hup horder hmode hframe hfrom hcfg
  · intro c k g f i s hc hfs hfirst hjudged hfe hwhole hcount hlines hfree
    rw [judgeImage_of_good hfs hfirst hjudged hfe hwhole hcount hlines,
      portOf_storeImage k g f.lines (by simpa [slackNoted] using hc) ((freeCamBuf_slackNoted ..).trans hfree), slackNoted,
      portOf_onPort_self _ hc]
    exact ⟨rfl, rfl, rfl,
      (storeImage_fit (L := 0x21200) (by decide) (onPort_fit (by decide) (Fit.refl _ s))).keeps (by decide)⟩
  · intro outstanding s f k hframe hk hmode hlit hnext
    have hfit := windowEnded_fit k outstanding (advanceMer (windowEnd k s) s)
    exact ⟨_, exec_camWindowEnd hframe hk hmode hlit hnext, windowEnded_winEnd .., le_merNs_of_time (hfit.2 .time rfl),
      hfit.keeps_from_clock (by decide) (by decide)⟩
  · intro port level stable s t hused hlevel hp ht hstable
    have hinstant : t = acceptInstant port.val s := by
      rw [ht, acceptInstant]
      cases (portOf port.val s).presEdge <;> rfl
    rw [hinstant] at hstable ⊢
    refine ⟨presAccepted port.val level (presReady port.val s), (exec_camPresInput hused hlevel hstable).trans ?_,
      presAccepted_camera level hp, le_ref_presAccepted .., (presAccepted_fit ..).keeps (by decide)⟩
    rw [acceptCam_eq, presReady_gear]

end Sys2Proof.Machine
end

section
/-! PROOFS. The sweep: its start (R148, R153, R160), its end (R156) and its deadline (R153). -/

namespace Sys2Proof.Machine

/-! ## What changes nothing of the cameras but their ports -/

/-- Of the cameras only the ports may have changed. -/
def OnlyPorts (s t : State) : Prop := t.cam = { s.cam with ports := t.cam.ports }

theorem OnlyPorts.of_cam_eq {s t : State} (h : t.cam = s.cam) : OnlyPorts s t := by rw [OnlyPorts, h]

theorem OnlyPorts.trans {s t u : State} (h : OnlyPorts s t) (k : OnlyPorts t u) : OnlyPorts s u := by
  unfold OnlyPorts at *
  rw [k, h]

theorem OnlyPorts.foldl {α : Type} {f : State → α → State} {l : List α} (hf : ∀ s a, OnlyPorts s (f s a)) (s : State) :
    OnlyPorts s (l.foldl f s) :=
  List.foldlRecOn (motive := OnlyPorts s) l f (.of_cam_eq rfl) fun t ht a _ => ht.trans (hf t a)

theorem onPort_onlyPorts (c : Nat) (f : CamPort → CamPort) (s : State) : OnlyPorts s (onPort c f s) := rfl

theorem settlePort_onlyPorts (c : Nat) (s : State) : OnlyPorts s (settlePort c s) := by
  by_cases h : mayReturn c s
  · exact (onPort_onlyPorts c deconfigured s).trans (.of_cam_eq (settlePort_cam_of_mayReturn h))
  · rw [settlePort_of_not_mayReturn h]
    exact .of_cam_eq rfl

theorem dropImages_onlyPorts (c : Nat) (f : CamImage → Bool) (s : State) : OnlyPorts s (dropImages c f s) :=
  ((onPort_onlyPorts c _ s).trans (.of_cam_eq (move_cam ..))).trans (settlePort_onlyPorts ..)

theorem dropOldImages_onlyPorts (k : Nat) (s : State) : OnlyPorts s (dropOldImages k s) :=
  .foldl (fun t c => dropImages_onlyPorts c _ t) s

theorem settlePorts_onlyPorts (ps : List (Nat × Nat)) (s : State) : OnlyPorts s (ps.foldl (fun s e => settlePort e.1 s) s) :=
  .foldl (fun t (e : Nat × Nat) => settlePort_onlyPorts e.1 t) s

theorem returnImages_onlyPorts (w : Sweep) (s : State) : OnlyPorts s (returnImages w s) :=
  (OnlyPorts.of_cam_eq (move_cam ..)).trans (settlePorts_onlyPorts w.ports _)

@[simp] theorem takeMpi_cam (i c : Nat) (disp : List Int) (s : State) : (takeMpi i c disp s).cam = s.cam :=
  (takeMpi_fit (L := 0x5200) (by decide) (Fit.refl _ s)).2 .cam rfl

@[simp] theorem mpiCollect_cam (s : State) : (mpiCollect s).cam = s.cam :=
  (mpiCollect_fit (L := 0x4200) (by decide) (Fit.refl _ s)).2 .cam rfl

/-! ## A sweep begins (R148, R153, R160) -/

theorem sweepLimit_congr {s t : State} (hcam : t.cam = s.cam) (hmode : t.mode = s.mode) (hpnl : t.pnl = s.pnl)
    (hpar : t.par = s.par) (hsyn : t.syn = s.syn) : sweepLimit t = sweepLimit s := by
  simp only [sweepLimit, planeLimit, pv_congr hpar, hcam, hmode, hpnl, hsyn]

/-- The module reports a number of cameras other than that of the sweep before, with event 0x89 (R160). -/
def countReported (ports : List Nat) (s : State) : State :=
  if (match (if s.cam.noneSaid then some 0 else s.cam.lastNc) with | some n => n != ports.length | none => false) then
    raise 0x89 [(1, ports.length), (2, ports.foldl (fun n c => n + 2 ^ c) 0)] s else s

theorem countReported_fit (ports : List Nat) (s : State) : Fit 0x800C02 s (countReported ports s) :=
  Fit.ite (fun _ => raise_fit (by decide) (Fit.refl _ s)) fun _ => Fit.refl _ s

theorem sweepLimit_countReported (ports : List Nat) (s : State) : sweepLimit (countReported ports s) = sweepLimit s := by
  have hfit := countReported_fit ports s
  exact sweepLimit_congr (hfit.2 .cam rfl) (hfit.2 .mode rfl) (hfit.2 .pnl rfl) (hfit.2 .par rfl) (hfit.2 .syn rfl)

/-- A sweep that begins is in progress for its frame, in its slot and at the plane limit in force (R153, R157, R159). -/
theorem beginSweep_cam (k m : Nat) (ports : List Nat) (s : State) : ∃ w, (beginSweep k m ports s).cam.sweep = some w ∧ w.k = k ∧
    w.mpi = m ∧ w.planes = sweepLimit s ∧ (beginSweep k m ports s).cam.lastK = some k ∧
    (beginSweep k m ports s).cam.lastNc = some ports.length := by
  unfold beginSweep
  extract_lets mask nc before reported n old cfg used freed w begun
  have honly : OnlyPorts begun (dropOldImages k (takeMpi m 4 cfg.disp begun)) :=
    (OnlyPorts.of_cam_eq (takeMpi_cam ..)).trans (dropOldImages_onlyPorts k _)
  exact ⟨w, congrArg CamSt.sweep honly, rfl, rfl, sweepLimit_countReported ports s, congrArg CamSt.lastK honly,
    congrArg CamSt.lastNc honly⟩

/-- The events of a frame without a camera present (R160). -/
def noneReported (s : State) : State :=
  let t := if (match s.cam.lastNc with | some n => n != 0 | none => false) && !s.cam.noneSaid then
    raise 0x89 [(1, 0), (2, 0)] s else s
  if t.cam.noneSaid then t else raise 0x8B [] t

/-- The state in which frame `k` is noted as one without a camera present. -/
def noneNoted (k : Nat) (s : State) : State := onCam (fun c => { c with noneSaid := true, lastK := some k }) (noneReported s)

theorem noSweep_onlyPorts (k : Nat) (s : State) : OnlyPorts (noneNoted k s) (noSweep k s) :=
  dropOldImages_onlyPorts k (noneNoted k s)

/-- The state at the start of the sweep of frame `k`: at once when every port of the sweep has its image, else at S_P(k−2)
(R153). -/
def sweepInstant (k : Nat) (s : State) : State :=
  if (sweepPorts s).all (fun c => (portOf c s).images.any (fun x => x.k == k)) then s else advanceMer (frameStart (k - 2) s) s

theorem sweepInstant_fit (k : Nat) (s : State) : Fit 0x20 s (sweepInstant k s) :=
  Fit.ite (fun _ => Fit.refl _ s) fun _ => advanceMer_fit (by decide) (Fit.refl _ s)

theorem sweepInstant_reached (k : Nat) (s : State) :
    (∀ c ∈ sweepPorts s, ∃ x ∈ (portOf c s).images, x.k = k) ∨ frameStart (k - 2) s ≤ merNs (sweepInstant k s) := by
  unfold sweepInstant
  split
  · next hall => exact .inl (by simpa using hall)
  · exact .inr (le_merNs_advanceMer ..)

/-- What the sweep of frame `k` in MPI slot `m` makes of the ports present (R148, R160). -/
def sweptWith (k m : Nat) (s : State) : List Nat → State
  | [] => noSweep k s
  | c :: cs => beginSweep k m (c :: cs) s

theorem exec_sweepStart {s : State} {f m k : Nat} (hframe : frameAt (merNs s) s = some f) (hslot : freeMpi s = some m)
    (hk : k = nextSweep f s) (hmode : s.mode.mode = .skylight) (hup : sweepUp s = true) (hlit : s.scn.dark = none)
    (hidle : s.cam.sweep = none) (hports : sweepPorts s ≠ []) (hnext : k ≤ f + 3) (hlimit : sweepLimit s ≠ 0) :
    exec .sweepStart s = .next (sweptWith k m (sweepInstant k s)
      (camPorts.filter (fun c => portPresent c k (sweepInstant k s)))) := by
  change execSweepStart s = _
  simp only [execSweepStart, ok, hframe, hslot, ← hk, hmode, hup, hlit, hidle, beq_false_of_ne hports, Nat.not_lt.2 hnext, hlimit,
    ne_eq, not_true_eq_false, Bool.not_true, decide_false, Option.isSome_none, Bool.or_self, Bool.false_eq_true, if_false]
  change Host.Outcome.next (match camPorts.filter (fun c => portPresent c k (sweepInstant k s)) with
    | [] => noSweep k (sweepInstant k s)
    | ports => beginSweep k m ports (sweepInstant k s)) = _
  cases camPorts.filter (fun c => portPresent c k (sweepInstant k s)) <;> rfl

/-! ## A sweep ends (R156), or is abandoned (R153) -/

/-- A finished sweep waits for synthesis in its slot. -/
def sweepDone (w : Sweep) (s : State) : State := onCam (fun c => { c with sweep := none, done := c.done ++ [(w.k, w.mpi)] }) s

/-- What the end of a sweep makes of the state: its slot written, its images returned (R149, R154 to R156). -/
def sweepEnded (d : PanelDesc) (w : Sweep) (s : State) : State := returnImages w (sweepDone w (sweepWrite d w s))

theorem sweepEnded_cam (d : PanelDesc) (w : Sweep) (s : State) :
    (sweepEnded d w s).cam.sweep = none ∧ (sweepEnded d w s).cam.done = s.cam.done ++ [(w.k, w.mpi)] := by
  have honly : OnlyPorts (sweepDone w (sweepWrite d w s)) (sweepEnded d w s) := returnImages_onlyPorts ..
  have hwrite : (sweepWrite d w s).cam = s.cam := (sweepWrite_fit (L := 0x5000) (by decide) (Fit.refl _ s)).2 .cam rfl
  refine ⟨congrArg CamSt.sweep honly, (congrArg CamSt.done honly).trans ?_⟩
  rw [sweepDone, onCam_cam, hwrite]

theorem sweepEnded_mem (d : PanelDesc) (w : Sweep) (s : State) : (sweepEnded d w s).mem = (sweepWrite d w s).mem :=
  (returnImages_fit (L := 0x20200) (by decide) (onCam_fit (by decide) (Fit.refl _ (sweepWrite d w s)))).2 .mem rfl

theorem sweepEnded_fit (d : PanelDesc) (w : Sweep) (s : State) : Fit 0x25200 s (sweepEnded d w s) :=
  returnImages_fit (by decide) (onCam_fit (by decide) (sweepWrite_fit (by decide) (Fit.refl _ s)))

theorem exec_sweepEnd {s : State} {w : Sweep} {d : PanelDesc} (hw : s.cam.sweep = some w) (hd : s.pnl.desc = some d)
    (hup : sweepUp s = true) (hbefore : merNs s < frameStart (w.k - 1) s) : exec .sweepEnd s = .next (sweepEnded d w s) := by
  change execSweepEnd s = _
  simp only [execSweepEnd, ok, hw, hd, hup, Nat.not_le.2 hbefore, Bool.not_true, decide_false, Bool.or_self, Bool.false_eq_true,
    if_false]
  rfl

/-- An abandoned sweep leaves the cameras as they were, but for itself and the ports. -/
theorem abandonSweep_cam {s : State} {w : Sweep} (h : s.cam.sweep = some w) :
    (abandonSweep s).cam = { s.cam with sweep := none, ports := (abandonSweep s).cam.ports } := by
  have honly : OnlyPorts (onCam (fun x => { x with sweep := none }) s) (abandonSweep s) := by
    rw [abandonSweep, h]
    exact ((OnlyPorts.of_cam_eq (move_cam ..)).trans (settlePorts_onlyPorts w.ports _)).trans (.of_cam_eq (mpiCollect_cam _))
  exact honly

/-- The sweep in progress is abandoned and counted as a miss (R153). -/
def missCounted (s : State) : State := onCam (fun c => { c with misses := c.misses + 1 }) (abandonSweep s)

theorem missCounted_cam {s : State} {w : Sweep} (h : s.cam.sweep = some w) :
    (missCounted s).cam.sweep = none ∧ (missCounted s).cam.misses = s.cam.misses + 1 := by
  rw [missCounted, onCam_cam, abandonSweep_cam h]
  exact ⟨rfl, rfl⟩

/-- The state at the deadline of sweep `w`, before event 0x88. -/
def sweepMissed (w : Sweep) (s : State) : State := missCounted (advanceMer (frameStart (w.k - 1) s) s)

theorem sweepMissed_cam {s : State} {w : Sweep} (h : s.cam.sweep = some w) :
    (sweepMissed w s).cam.sweep = none ∧ (sweepMissed w s).cam.misses = s.cam.misses + 1 := by
  have hw : (advanceMer (frameStart (w.k - 1) s) s).cam.sweep = some w := by rw [advanceMer_cam, h]
  have hmissed := missCounted_cam hw
  rwa [advanceMer_cam] at hmissed

/-- What the abandonment leaves alone from the deadline's instant on. -/
theorem sweepMissed_fit (w : Sweep) (s : State) : Fit 0x24200 (advanceMer (frameStart (w.k - 1) s) s) (sweepMissed w s) :=
  onCam_fit (by decide) (abandonSweep_fit (by decide) (Fit.refl _ _))

theorem exec_swpDeadline {s : State} {w : Sweep} (h : s.cam.sweep = some w) :
    exec .swpDeadline s = .next (raise 0x88 [] (sweepMissed w s)) := by
  change execSwpDeadline s = _
  simp only [execSwpDeadline, ok, h]
  rfl

/-! ## The clauses of `Sweeping` -/

/-- Settles O53: a sweep's start with and without cameras present, its end and its deadline (`sweeping` is a state of the
witnesses). -/
theorem sweepingHolds : Obligations.Sweeping := by
  refine ⟨?_, ?_, ?_, ?_, ?_⟩
  · intro s f m k hframe hslot hk hmode hup hlit hidle hports hnext hlimit
    refine ⟨sweepInstant k s, (exec_sweepStart hframe hslot hk hmode hup hlit hidle hports hnext hlimit).trans ?_,
      (sweepInstant_fit k s).keeps (by decide), sweepInstant_reached k s⟩
    cases camPorts.filter (fun c => portPresent c k (sweepInstant k s)) <;> rfl
  · intro k m ports s
    obtain ⟨w, hsweep, hk, hm, hplanes, hlast, hcount⟩ := beginSweep_cam k m ports s
    exact ⟨w, hsweep, hk, hm, hplanes, hlast, hcount,
      (beginSweep_fit (L := 0x825E02) (by decide) (Fit.refl _ s)).keeps (by decide)⟩
  · intro k s
    exact ⟨congrArg CamSt.noneSaid (noSweep_onlyPorts k s), congrArg CamSt.lastK (noSweep_onlyPorts k s),
      (noSweep_fit (L := 0x820E02) (by decide) (Fit.refl _ s)).keeps (by decide)⟩
  · intro s w d hw hd hup hbefore
    obtain ⟨hsweep, hdone⟩ := sweepEnded_cam d w s
    exact ⟨_, exec_sweepEnd hw hd hup hbefore, hsweep, hdone, sweepEnded_mem d w s, (sweepEnded_fit d w s).keeps (by decide)⟩
  · intro s w hw
    obtain ⟨hsweep, hmisses⟩ := sweepMissed_cam hw
    exact ⟨_, exec_swpDeadline hw, hsweep, hmisses, le_merNs_of_time ((sweepMissed_fit w s).2 .time rfl),
      (sweepMissed_fit w s).keeps_from_clock (by decide) (by decide)⟩

end Sys2Proof.Machine
end

section
/-! PROOFS. TIMING_SET, MODE_SET and MODE_GET, and the boundary of a change (R194, R197, R293 to R296, R342). -/

namespace Sys2Proof.Machine

/-! ## What the grid and a change are read from -/

theorem merNs_congr {s t : State} (htime : t.time = s.time) : merNs t = merNs s := by rw [merNs, htime, merNs]

theorem frameAt_congr {s t : State} (hscn : t.scn = s.scn) (n : Nat) : frameAt n t = frameAt n s := by
  rw [frameAt, hscn, frameAt]

theorem bandsN_congr {s t : State} (hpnl : t.pnl = s.pnl) : bandsN t = bandsN s := by rw [bandsN, hpnl, bandsN]

theorem settleNow_congr {s t : State} (hpnl : t.pnl = s.pnl) (hstd : t.std = s.std) : settleNow t = settleNow s := by
  simp only [settleNow, bandRow, effBand, hpnl, hstd]

/-- The emission window rests on the grid, the mode, the panel's bands and the band in force (R172, R203). -/
theorem emitWindow_congr {s t : State} (hscn : t.scn = s.scn) (hmode : t.mode = s.mode) (hpnl : t.pnl = s.pnl)
    (hstd : t.std = s.std) : emitWindow t = emitWindow s := by
  rw [emitWindow, hscn, hmode, settleNow_congr hpnl hstd, bandsN_congr hpnl, emitWindow]

theorem changeTarget_congr {s t : State} (htime : t.time = s.time) (h : Hdr) : changeTarget h t = changeTarget h s := by
  simp only [changeTarget, merNs_congr htime]

/-- A boundary rests on the grid and on the mode and rate in force (R197). -/
theorem changeBoundary_congr {s t : State} (hscn : t.scn = s.scn) (hmode : t.mode.mode = s.mode.mode)
    (hrate : t.mode.rate = s.mode.rate) (m : Mode) (rate target : Nat) :
    changeBoundary m rate target t = changeBoundary m rate target s := by
  simp only [changeBoundary, hscn, hmode, hrate]

theorem taken_mode_of_pre_id {r : Row} (hpre : r.pre = id) (s : State) : (taken r s).mode = s.mode :=
  taken_mode r s fun _ => by rw [hpre]; rfl

/-! ## The mode and rate in force -/

/-- The mode and rate in force stand as they did. -/
def SameSetting (s t : State) : Prop := t.mode.mode = s.mode.mode ∧ t.mode.rate = s.mode.rate

theorem SameSetting.refl (s : State) : SameSetting s s := ⟨rfl, rfl⟩

theorem SameSetting.trans {s t u : State} (h : SameSetting s t) (k : SameSetting t u) : SameSetting s u :=
  ⟨k.1.trans h.1, k.2.trans h.2⟩

theorem SameSetting.of_mode {s t : State} (h : t.mode = s.mode) : SameSetting s t := by simp [SameSetting, h]

theorem SameSetting.ite {c : Prop} [Decidable c] {s x y : State} (hx : SameSetting s x) (hy : SameSetting s y) :
    SameSetting s (if c then x else y) := by
  split
  · exact hx
  · exact hy

theorem SameSetting.raise {src : Nat} {items : List (Nat × Nat)} {s t : State} (h : SameSetting s t) :
    SameSetting s (raise src items t) := h.trans (.of_mode (raise_mode ..))

theorem SameSetting.onMode {f : ModeSt → ModeSt} {s t : State} (h : SameSetting s t) (hmode : (f t.mode).mode = t.mode.mode)
    (hrate : (f t.mode).rate = t.mode.rate) : SameSetting s (onMode f t) := h.trans ⟨hmode, hrate⟩

theorem Fit.sameSetting {s t : State} (h : Fit notMode s t) : SameSetting s t := .of_mode h.mode_eq

theorem endChangeCmd_sameSetting (v : Verdict) (s : State) : SameSetting s (endChangeCmd v s) := by
  unfold endChangeCmd
  split
  · split <;> simp [SameSetting]
  · exact .refl s

/-- Cancelling the pending changes leaves the mode in force. -/
theorem cancelChanges_sameSetting (v : Verdict) (s : State) : SameSetting s (cancelChanges v s) := by
  unfold cancelChanges
  extract_lets u held w
  have hu : SameSetting s (onMode (fun m => { m with heldSet := [] }) u) := .onMode (endChangeCmd_sameSetting v s) rfl rfl
  exact hu.trans (Fit.foldl (Fit.refl notMode _) fun _ _ => finish_fit (by decide)).sameSetting

/-- A step-down made is pending: it is not yet in force (R319). -/
theorem makeStep_sameSetting (cause : Nat) (target : Option Nat) (from_ : Nat) (s : State) :
    SameSetting s (makeStep cause target from_ s) := by
  unfold makeStep
  split
  · exact .raise (.refl s)
  · exact .ite (.refl s) (.raise (.onMode (cancelChanges_sameSetting ..) rfl rfl))

theorem stepDown_sameSetting (cause : Nat) (target : Option Nat) (from_ : Nat) (s : State) :
    SameSetting s (stepDown cause target from_ s) := by
  unfold stepDown
  split
  · exact .refl s
  · split
    · exact .refl s
    · exact .refl s
    · exact (stopWarm_fit (by decide) (Fit.refl _ s)).sameSetting
    · exact (endTests_fit (by decide) (Fit.refl _ s)).sameSetting
    · exact .raise (.refl s)
    · split
      · exact .onMode (cancelChanges_sameSetting ..) rfl rfl
      · exact makeStep_sameSetting ..

/-- A settle limit that would be broken asks for a step-down, and changes no mode by itself (R252). -/
theorem settleCheck_sameSetting (s : State) : SameSetting s (settleCheck s) := by
  unfold settleCheck
  split
  · exact .refl s
  · extract_lets l b u k k'
    have hu : SameSetting s u := .raise (.of_mode rfl)
    exact hu.trans (stepDown_sameSetting ..)

/-- Once a mode and rate are set, the blocks follow and leave them (R296). -/
theorem enterMode_fit_inMode (m : Mode) (rate : Nat) (k : Option Nat) (cause : Nat) (s : State) :
    Fit notMode (inMode m rate cause s) (enterMode m rate k cause s) := by
  unfold enterMode
  extract_lets m0 r0 grid u s1 s2 s3 s4
  have h1 : Fit notMode u s1 := Fit.ite (fun _ => Fit.refl _ u) fun _ => raise_fit (by decide) (Fit.refl _ u)
  have h2 : Fit notMode u s2 := Fit.ite (fun _ => raise_fit (by decide) h1) fun _ => h1
  have h3 : Fit notMode u s3 := blockChange_fit (by decide) (sceneChange_fit (by decide)
    (panelChange_fit (by decide) (pApply_fit (by decide) h2)))
  have h4 : Fit notMode u s4 := Fit.ite (fun _ => checkWarm_fit (by decide) h3) fun _ => leaveWarm_fit (by decide) h3
  exact Fit.ite (fun _ => startGrace_fit (by decide) h4) fun _ => h4

/-! ## A change becomes the pending one -/

/-- The change to a mode and rate that a command asks for, with its boundary from the target instant (R197). -/
def askedChange (h : Hdr) (opc : Nat) (m : Mode) (rate target : Nat) (s : State) : Change :=
  ⟨m, rate, (changeBoundary m rate target s).1, (changeBoundary m rate target s).2, 0, m == s.mode.mode, some (h, opc)⟩

/-- A change is the pending one in place of a TIMING_SET that was; one within Still-air starts its hold anew (R190, R199). -/
def changePending (x : Change) (s : State) : State :=
  let u := onMode (fun y => { y with change := some x }) (endChangeCmd (no St.modeForbids) s)
  if x.target = .stillAir ∧ s.mode.mode = .stillAir then onScn (fun c => { c with stillSince := none }) u else u

theorem changePending_mode (x : Change) (s : State) :
    (changePending x s).mode = { (endChangeCmd (no St.modeForbids) s).mode with change := some x } := by
  unfold changePending
  extract_lets u
  split <;> rfl

theorem changePending_change (x : Change) (s : State) : (changePending x s).mode.change = some x := by rw [changePending_mode]

theorem changePending_sameSetting (x : Change) (s : State) : SameSetting s (changePending x s) := by
  refine (endChangeCmd_sameSetting (no St.modeForbids) s).trans ?_
  rw [SameSetting, changePending_mode]
  exact ⟨rfl, rfl⟩

/-- With no change pending before, no command ends. -/
theorem changePending_fit {x : Change} {s0 s : State} {L : Nat} (hL : In 0x40040 L) (hnone : s.mode.change = none)
    (h0 : Fit L s0 s) : Fit L s0 (changePending x s) := by
  have hsame : endChangeCmd (no St.modeForbids) s = s := by simp only [endChangeCmd, hnone]
  have hu : Fit L s0 (onMode (fun y => { y with change := some x }) s) := onMode_fit (In.trans (by decide) hL) h0
  rw [changePending, hsame]
  exact Fit.ite (fun _ => onScn_fit (In.trans (by decide) hL) hu) fun _ => hu

/-- A change that is accepted becomes the pending one and is answered ACCEPTED with its frame index (R194, R294). -/
theorem placeChange_of_target {h : Hdr} {opc : Nat} {m : Mode} {rate at_ : Nat} {s : State} (ht : changeTarget h s = some at_) :
    ∃ k, placeChange h opc m rate s = synRecheck (accepted h opc k (changePending (askedChange h opc m rate at_ s) s)) := by
  obtain ⟨hmode, hrate⟩ := endChangeCmd_sameSetting (no St.modeForbids) s
  have hscn : (endChangeCmd (no St.modeForbids) s).scn = s.scn :=
    (endChangeCmd_fit (L := 0x800E42) (by decide) (Fit.refl _ s)).2 .scn rfl
  have hbound := changeBoundary_congr hscn hmode hrate m rate at_
  unfold placeChange changePending askedChange
  rw [ht]
  simp only [hbound, onMode, hmode]
  exact ⟨_, rfl⟩

/-! ## TIMING_SET -/

/-- A TIMING_SET at the rate in force is answered with the frame, no dark time and the emission window (R194). -/
theorem exec_timingSet_of_same {h : Hdr} {p : TimingSetP} {s : State} (hrate : p.rate.toNat = s.mode.rate)
    (hs : served (rowTimingSet h p) s = true) : exec (.timingSet h p) s = .next (finish h 0x0404
      (okay (((frameAt (merNs s) s).getD 0xFFFFFFFF) % 2 ^ 32) 0 (emitWindow s)) (taken (rowTimingSet h p) s)) := by
  have hfit : Fit 0x800600 s (taken (rowTimingSet h p) s) := taken_fit_of_pre_id (by decide) rfl s
  have hmode : (taken (rowTimingSet h p) s).mode = s.mode := hfit.2 .mode rfl
  have hscn : (taken (rowTimingSet h p) s).scn = s.scn := hfit.2 .scn rfl
  refine congrArg Host.Outcome.next ((command_of_served hs).trans ((if_pos (hrate.trans (by rw [hmode]))).trans ?_))
  rw [merNs_congr (hfit.2 .time rfl), frameAt_congr hscn, emitWindow_congr hscn hmode (hfit.2 .pnl rfl) (hfit.2 .std rfl)]

/-- A TIMING_SET at another rate asks for the mode in force at that rate (R194). -/
theorem exec_timingSet_of_ne {h : Hdr} {p : TimingSetP} {s : State} (hrate : p.rate.toNat ≠ s.mode.rate)
    (hs : served (rowTimingSet h p) s = true) : exec (.timingSet h p) s =
      .next (placeChange h 0x0404 s.mode.mode p.rate.toNat (taken (rowTimingSet h p) s)) := by
  have hmode : (taken (rowTimingSet h p) s).mode = s.mode := taken_mode_of_pre_id rfl s
  refine congrArg Host.Outcome.next ((command_of_served hs).trans ((if_neg fun hsame => hrate (hsame.trans ?_)).trans ?_))
  · rw [hmode]
  · rw [hmode]

/-! ## MODE_SET and MODE_GET -/

/-- Without a PANEL_LOAD in its check a MODE_SET is judged at once, on the samples it takes (R36, R290). -/
theorem exec_modeSet {h : Hdr} {p : ModeSetP} {s : State} (hload : s.pnl.load = none) (hs : served (rowModeSet h p) s = true) :
    exec (.modeSet h p) s = .next (judgeModeSet h p (decisionSamples p (taken (rowModeSet h p) s))) := by
  have hpnl : (taken (rowModeSet h p) s).pnl = s.pnl := taken_pnl _ s fun _ => rfl
  exact congrArg Host.Outcome.next ((command_of_served hs).trans (if_neg (by rw [hpnl, hload]; decide)))

theorem judgeModeSet_of_bad {h : Hdr} {p : ModeSetP} {s : State} {v : Verdict} (hchk : chkModeSet p s = some v) :
    judgeModeSet h p s = finish h 0x0003 v s := by
  rw [judgeModeSet, hchk]

/-- Out of another mode than Dawn a MODE_SET for another mode or rate asks for its change (R294). -/
theorem judgeModeSet_of_change {h : Hdr} {p : ModeSetP} {s : State} (hchk : chkModeSet p s = none)
    (hne : modeAsked p s ≠ (s.mode.mode, s.mode.rate)) (hdawn : s.mode.mode ≠ .dawn) :
    judgeModeSet h p s = placeChange h 0x0003 (modeAsked p s).1 (modeAsked p s).2 s := by
  rw [judgeModeSet, hchk]
  exact (if_neg fun hsame => hne (Prod.ext hsame.1 hsame.2)).trans (if_neg fun hd => hdawn hd.1)

theorem modeNum_lt (m : Mode) : modeNum m < 2 ^ 8 := by cases m <;> decide

/-- The low bytes of words 0 and 2 of MODE_GET: the mode in force and the cause of its last change (R295). -/
theorem modeWords_low (s : State) : (modeWords s).w0 % 2 ^ 8 = modeNum s.mode.mode ∧
    (modeWords s).w2 % 2 ^ 8 = s.mode.lastCause % 2 ^ 8 := by
  have hnum := modeNum_lt s.mode.mode
  simp only [modeWords, okay]
  omega

theorem exec_modeGet {h : Hdr} {s : State} (hs : served (rowModeGet h) s = true) : exec (.modeGet h) s =
    .next (finish h 0x0004 (modeWords (taken (rowModeGet h) s)) (taken (rowModeGet h) s)) :=
  congrArg Host.Outcome.next (command_of_served hs)

/-! ## The boundary of a change -/

theorem exec_modeChangeBoundary {s : State} {x : Change} (hx : s.mode.change = some x) :
    exec .modeChangeBoundary s = .next (applyChange x (advanceMer x.c s)) := by
  change execModeChangeBoundary s = _
  rw [execModeChangeBoundary, hx]; rfl

/-- A change that takes effect puts its mode and rate in force (R197, R294). -/
theorem applyChange_setting {x : Change} (hx : x.target ≠ .dormant) (s : State) :
    (applyChange x s).mode.mode = x.target ∧ (applyChange x s).mode.rate = x.rate := by
  unfold applyChange
  extract_lets u v w
  have hw : w.mode.mode = x.target ∧ w.mode.rate = x.rate := by
    have hv : SameSetting (inMode x.target x.rate x.cause u) v := (enterMode_fit_inMode ..).sameSetting
    exact hv.trans (.ite (.raise (.refl v)) (.refl v))
  clear_value w
  suffices hlast : ∀ y, SameSetting w y → y.mode.mode = x.target ∧ y.mode.rate = x.rate by
    split
    · exact absurd ‹_› hx
    · split
      · exact hlast _ (settleCheck_sameSetting w)
      · next h opc _ =>
        exact hlast _ (.ite ((SameSetting.onMode (.refl w) rfl rfl).trans (settleCheck_sameSetting _)) (.of_mode (finish_mode ..)))
  exact fun y hy => ⟨hy.1.trans hw.1, hy.2.trans hw.2⟩

/-- The change of the memory's point has ended. -/
def pointSettled (s : State) : State := onDmc (fun d => { d with change := none }) s

theorem exec_dmcRateChangeDone {s : State} {a b : Nat} (hx : s.dmc.change = some (a, b)) :
    exec .dmcRateChangeDone s = .next (raise 0x41 [(1, a), (1, b)] (pointSettled s)) := by
  change execDmcRateChangeDone s = _
  rw [execDmcRateChangeDone, hx]; rfl

/-! ## The clauses of `ModeChanges` -/

/-- Settles O26: TIMING_SET and MODE_SET, the boundary at which their change comes into force, MODE_GET, and the memory's point. -/
theorem modeChanges : Obligations.ModeChanges := by
  refine ⟨⟨?_, ?_, ?_, ?_⟩, ?_, ?_, ?_, ?_⟩
  · intro h p s
    exact exec_timingSet_of_same
  · intro h p s at_ hrate htarget hnone hs
    have hfit : Fit 0x800600 s (taken (rowTimingSet h p) s) := taken_fit_of_pre_id (by decide) rfl s
    have hmode : (taken (rowTimingSet h p) s).mode = s.mode := hfit.2 .mode rfl
    obtain ⟨k, hplace⟩ := placeChange_of_target (h := h) (opc := 0x0404) (m := s.mode.mode) (rate := p.rate.toNat)
      ((changeTarget_congr (hfit.2 .time rfl) h).trans htarget)
    obtain ⟨hsame, hsameRate⟩ := changePending_sameSetting
      (askedChange h 0x0404 s.mode.mode p.rate.toNat at_ (taken (rowTimingSet h p) s)) (taken (rowTimingSet h p) s)
    refine ⟨k, _, (exec_timingSet_of_ne hrate hs).trans (by rw [hplace]), ?_, hsame.trans (by rw [hmode]),
      hsameRate.trans (by rw [hmode]), (changePending_fit (L := 0x840640) (by decide) (by rw [hmode, hnone])
        (taken_fit_of_pre_id (by decide) rfl s)).keeps (by decide)⟩
    have hbound := changeBoundary_congr (hfit.2 .scn rfl) (congrArg ModeSt.mode hmode) (congrArg ModeSt.rate hmode)
      s.mode.mode p.rate.toNat at_
    rw [changePending_change, askedChange, hbound, hmode, beq_self_eq_true]
  · intro h p s v hload hs hchk
    rw [exec_modeSet hload hs, judgeModeSet_of_bad hchk]
  · intro h p s x at_ hload hs hx hchk hne hdawn htarget
    obtain ⟨k, hplace⟩ := placeChange_of_target (h := h) (opc := 0x0003) (m := (modeAsked p x).1) (rate := (modeAsked p x).2)
      htarget
    have hexec : exec (.modeSet h p) s = .next (judgeModeSet h p x) := hx ▸ exec_modeSet hload hs
    rw [judgeModeSet_of_change hchk hne hdawn, hplace] at hexec
    exact ⟨k, _, hexec, changePending_change .., changePending_sameSetting ..⟩
  · intro s x hx htarget
    exact ⟨_, exec_modeChangeBoundary hx, applyChange_setting htarget _⟩
  · intro s x
    exact exec_modeChangeBoundary
  · intro h s hs
    have hmode : (taken (rowModeGet h) s).mode = s.mode := taken_mode_of_pre_id rfl s
    obtain ⟨hnum, hcause⟩ := modeWords_low (taken (rowModeGet h) s)
    exact ⟨_, exec_modeGet hs, rfl, by rw [hnum, hmode], by rw [hcause, hmode]⟩
  · intro s a b hx
    exact ⟨_, exec_dmcRateChangeDone hx, rfl, (onDmc_fit (L := 0x200000) (by decide) (Fit.refl _ s)).keeps (by decide)⟩

end Sys2Proof.Machine
end

section
/-! PROOFS. The layer commands (R182, R183, R192), and scan-out's timers and status (R186, R190, R198, R201). -/

namespace Sys2Proof.Machine

/-! ## A change of layers is accepted (R182) -/

theorem layerWhen_congr {s t : State} (hscn : t.scn = s.scn) (htime : t.time = s.time) (hmode : t.mode = s.mode)
    (hpnl : t.pnl = s.pnl) (h : Hdr) : layerWhen h t = layerWhen h s := by
  simp only [layerWhen, merNs_congr htime, frameFrom_congr hscn hmode hpnl]

/-- A packet that takes no samples applies from the frame it would have when it arrived. -/
theorem layerWhen_taken {r : Row} (hpre : r.pre = id) (h : Hdr) (s : State) : layerWhen h (taken r s) = layerWhen h s := by
  have hfit : Fit 0x800600 s (taken r s) := taken_fit_of_pre_id (by decide) hpre s
  exact layerWhen_congr (hfit.2 .scn rfl) (hfit.2 .time rfl) (hfit.2 .mode rfl) (hfit.2 .pnl rfl) h

/-- A change joins the waiting ones. -/
def waitJoined (w : LayerWait) (s : State) : State := onScn (fun c => { c with waits := c.waits ++ [w] }) s

theorem waitJoined_fit {L : Nat} {s0 s : State} (hL : In 0x40000 L) (w : LayerWait) (h0 : Fit L s0 s) :
    Fit L s0 (waitJoined w s) := onScn_fit hL h0

theorem waitJoined_waits (w : LayerWait) (s : State) : (waitJoined w s).scn.waits = s.scn.waits ++ [w] := rfl

theorem waitJoined_layers (w : LayerWait) (s : State) : (waitJoined w s).scn.layers = s.scn.layers := rfl

/-- The word that answers the frame a change applies from: all ones outside the grid (R182). -/
def frameWord : Option Nat → Nat
  | some k => k % 2 ^ 32
  | none => 0xFFFFFFFF

/-- An accepted change waits, and its frame is answered; outside the grid one that is due applies at once. -/
def layerAccepted (h : Hdr) (opc : Nat) (k : Option Nat) (u : State) : State :=
  applyWaitsDawn (finish h opc (okay (frameWord k)) (settleLayers u))

theorem acceptLayer_of_when {h : Hdr} {opc : Nat} {op : LayerOp} {fence value : Nat} {s : State} {k : Option Nat} {t : Nat}
    (hw : layerWhen h s = some (k, t)) :
    acceptLayer h opc op fence value s = layerAccepted h opc k (waitJoined ⟨op, k, t, fence, value⟩ s) := by
  rw [acceptLayer, hw]
  cases k <;> rfl

theorem exec_layerSet {h : Hdr} {p : LayerSetP} {s : State} {k : Option Nat} {t : Nat} (hw : layerWhen h s = some (k, t))
    (hs : served (rowLayerSet h p) s = true) : exec (.layerSet h p) s = .next (layerAccepted h 0x0401 k (waitJoined
      ⟨.set p.layer.toNat (layerAsked p (taken (rowLayerSet h p) s)), k, t, p.fence.toNat, p.value.toNat⟩
      (taken (rowLayerSet h p) s))) :=
  congrArg Host.Outcome.next ((command_of_served hs).trans (acceptLayer_of_when ((layerWhen_taken rfl h s).trans hw)))

theorem exec_layerEnable {h : Hdr} {p : LayerEnableP} {s : State} {k : Option Nat} {t : Nat} (hw : layerWhen h s = some (k, t))
    (hs : served (rowLayerEnable h p) s = true) : exec (.layerEnable h p) s = .next (layerAccepted h 0x0402 k (waitJoined
      ⟨.enable p.mask.toNat, k, t, p.fence.toNat, p.value.toNat⟩ (taken (rowLayerEnable h p) s))) :=
  congrArg Host.Outcome.next ((command_of_served hs).trans (acceptLayer_of_when ((layerWhen_taken rfl h s).trans hw)))

/-! ## STARLIGHT_SET -/

/-- The page a STARLIGHT_SET describes, with its image (R191). -/
def pageAsked (p : StarlightSetP) (s : State) : StarPage :=
  ⟨p.x0.toNat, p.y0.toNat, p.w.toNat, p.h.toNat, p.scale.toNat, starBytes p s, p.palette⟩

/-- An image of host memory is read over the host's link. -/
def imageRead (p : StarlightSetP) (s : State) : State :=
  if p.flags.toNat.testBit 0 then s else emit (.hostRead p.addr.toNat p.len.toNat) s

/-- The page goes into the inactive store page (R192). -/
def pageStored (p : StarlightSetP) (s : State) : State :=
  onScn (fun c => { c with starNext := some (pageAsked p s) }) (imageRead p s)

theorem imageRead_fit {L : Nat} {s0 s : State} (hL : In 0x402 L) (p : StarlightSetP) (h0 : Fit L s0 s) :
    Fit L s0 (imageRead p s) := Fit.ite (fun _ => h0) fun _ => emit_fit hL h0

theorem imageRead_scn (p : StarlightSetP) (s : State) : (imageRead p s).scn = s.scn :=
  (imageRead_fit (L := 0x402) (by decide) p (Fit.refl _ s)).2 .scn rfl

theorem pageStored_fit {L : Nat} {s0 s : State} (hL : In 0x40402 L) (p : StarlightSetP) (h0 : Fit L s0 s) :
    Fit L s0 (pageStored p s) := onScn_fit (In.trans (by decide) hL) (imageRead_fit (In.trans (by decide) hL) p h0)

theorem pageStored_waits (p : StarlightSetP) (s : State) : (pageStored p s).scn.waits = s.scn.waits := by
  rw [pageStored, onScn_scn, imageRead_scn]

/-- The page stored is no part of the grid. -/
theorem layerWhen_pageStored (h : Hdr) (p : StarlightSetP) (s : State) : layerWhen h (pageStored p s) = layerWhen h s := by
  have hread : Fit 0x402 s (imageRead p s) := imageRead_fit (by decide) p (Fit.refl _ s)
  have hgrid : layerWhen h (pageStored p s) = layerWhen h (imageRead p s) := rfl
  rw [hgrid]
  exact layerWhen_congr (hread.2 .scn rfl) (hread.2 .time rfl) (hread.2 .mode rfl) (hread.2 .pnl rfl) h

theorem exec_starlightSet {h : Hdr} {p : StarlightSetP} {s : State} {k : Option Nat} {t : Nat} (hw : layerWhen h s = some (k, t))
    (hs : served (rowStarlightSet h p) s = true) : exec (.starlightSet h p) s = .next (layerAccepted h 0x0405 k
      (waitJoined ⟨.starlight, k, t, 0, 0⟩ (pageStored p (taken (rowStarlightSet h p) s)))) :=
  congrArg Host.Outcome.next ((command_of_served hs).trans (acceptLayer_of_when
    ((layerWhen_pageStored h p _).trans ((layerWhen_taken rfl h s).trans hw))))

/-! ## A LAYER_SET applies (R182) -/

/-- Layer `n` has its new source from frame `k` on, enabled as it was; the source it had and the fence wait for their last
read. -/
def layerReplaced (k n : Nat) (l : Layer) (fence value : Nat) (s : State) : State :=
  onScn (fun c => { c with
    layers := c.layers.set n { l with on := (c.layers.getD n {}).on && l.src.isSome },
    fences := c.fences ++ [⟨k, fence, value, ((c.layers.getD n {}).buf).toList⟩] }) s

theorem applyWait_set (k n : Nat) (l : Layer) (f : Option Nat) (at_ fence value : Nat) (s : State) :
    applyWait k ⟨.set n l, f, at_, fence, value⟩ s = raise 0x98 [(1, n), (8, k)] (layerReplaced k n l fence value s) := rfl

/-! ## The clauses of `LayerChanges` -/

/-- Settles O39: each command's change joins the waiting ones in the state before its answer; a LAYER_SET's effect is one update. -/
theorem layerChanges : Obligations.LayerChanges := by
  refine ⟨?_, ?_, ?_, ?_⟩
  · intro h p s k t hw hs
    exact ⟨_, exec_layerSet hw hs, by rw [waitJoined_waits, taken_scn_of_pre_id rfl],
      by rw [waitJoined_layers, taken_scn_of_pre_id rfl],
      (waitJoined_fit (L := 0x840600) (by decide) _ (taken_fit_of_pre_id (by decide) rfl s)).keeps (by decide)⟩
  · intro h p s k t hw hs
    exact ⟨_, exec_layerEnable hw hs, by rw [waitJoined_waits, taken_scn_of_pre_id rfl],
      by rw [waitJoined_layers, taken_scn_of_pre_id rfl],
      (waitJoined_fit (L := 0x840600) (by decide) _ (taken_fit_of_pre_id (by decide) rfl s)).keeps (by decide)⟩
  · intro h p s k t hw hs
    exact ⟨_, exec_starlightSet hw hs, rfl, by rw [waitJoined_waits, pageStored_waits, taken_scn_of_pre_id rfl],
      (waitJoined_fit (L := 0x840602) (by decide) _
        (pageStored_fit (by decide) p (taken_fit_of_pre_id (by decide) rfl s))).keeps (by decide)⟩
  · intro k n l fence value at_ s
    exact ⟨_, applyWait_set .., rfl, (onScn_fit (L := 0x40000) (by decide) (Fit.refl _ s)).keeps (by decide)⟩

/-! ## A host read fails (R186) -/

/-- The enabled overlays of host memory. -/
def hostOverlays (s : State) : List Nat :=
  (s.scn.layers.zipIdx.filter (fun e => e.2 ≠ 0 && e.1.on && e.1.isHost)).map (·.2)

/-- The overlays in `off` are switched off, in both heads from now on. -/
def overlaysCut (off : List Nat) (s : State) : State :=
  onHead false (fun x => { x with ovlOff := x.ovlOff ++ off }) (onHead true (fun x => { x with ovlOff := x.ovlOff ++ off })
    (onScn (fun c => { c with
      layers := c.layers.zipIdx.map (fun e => if off.contains e.2 then { e.1 with on := false } else e.1) }) s))

theorem overlaysCut_fit (off : List Nat) (s : State) : Fit 0x40000 s (overlaysCut off s) :=
  onHead_fit (by decide) (onHead_fit (by decide) (onScn_fit (by decide) (Fit.refl _ s)))

theorem mem_hostOverlays {n : Nat} {l : Layer} {s : State} (hl : s.scn.layers[n]? = some l) (hn : n ≠ 0) (hon : l.on = true)
    (hhost : l.isHost = true) : n ∈ hostOverlays s :=
  List.mem_map.2 ⟨(l, n), List.mem_filter.2 ⟨List.mk_mem_zipIdx_iff_getElem?.2 hl, by simp [hn, hon, hhost]⟩, rfl⟩

/-- Layer `n` once the overlays in `off` are switched off. -/
theorem overlaysCut_layer (off : List Nat) (s : State) (n : Nat) : (overlaysCut off s).scn.layers[n]? =
    s.scn.layers[n]?.map (fun l => if off.contains n then { l with on := false } else l) := by
  simp [overlaysCut, onHead, onScn, List.getElem?_zipIdx, Function.comp_def]

theorem off_of_overlaysCut {s : State} {n : Nat} {l : Layer} (hn : n ≠ 0)
    (hl : (overlaysCut (hostOverlays s) s).scn.layers[n]? = some l) (hhost : l.isHost = true) : l.on = false := by
  rw [overlaysCut_layer, Option.map_eq_some_iff] at hl
  obtain ⟨l₀, hl₀, rfl⟩ := hl
  by_cases hmem : n ∈ hostOverlays s
  · simp [hmem]
  · have hkept : (hostOverlays s).contains n = false := by simpa using hmem
    simp only [hkept, Bool.false_eq_true, if_false] at hhost ⊢
    exact Bool.eq_false_iff.2 fun hon => hmem (mem_hostOverlays hl₀ hn hon hhost)

theorem exec_overlayHostReadFail {s : State} (hlit : panelLit s = true) (hm : s.mode.mode ≠ .starlight)
    (hany : hostOverlays s ≠ []) :
    exec .overlayHostReadFail s = .next (raise 0x99 [] (overlaysCut (hostOverlays s) s)) := by
  refine congrArg Host.Outcome.next ((if_pos (by simp [hlit, hm])).trans ?_)
  exact if_neg fun hempty => hany (List.isEmpty_iff.1 hempty)

/-! ## Still-air is slowed down (R190) -/

/-- The module's own change of Still-air to SCN_STILL_RATE, at the next common boundary (R190, R197). -/
def stillChange (s : State) : Change :=
  ⟨.stillAir, pv s 0x0D20, (changeBoundary .stillAir (pv s 0x0D20) (merNs s) s).1,
    (changeBoundary .stillAir (pv s 0x0D20) (merNs s) s).2, 0, true, none⟩

/-- That change is the pending one. -/
def stillLowered (s : State) : State :=
  onMode (fun m => { m with change := some (stillChange s) }) (onScn (fun c => { c with stillSince := none }) s)

theorem stillLowered_change (s : State) : (stillLowered s).mode.change = some (stillChange s) := rfl

theorem stillLowered_time (s : State) : (stillLowered s).time = s.time := rfl

theorem exec_scnStillLowered {s : State} {at_ : Nat} (hsince : s.scn.stillSince = some at_) (hm : s.mode.mode = .stillAir)
    (hrate : pv s 0x0D20 < s.mode.rate) (hnone : s.mode.change = none) :
    exec .scnStillLowered s = .next (stillLowered (advanceRef (at_ + pv s 0x0D21 * nsPerSec) s)) := by
  change execScnStillLowered s = _
  simp only [execScnStillLowered, ok, hsince, hm, hnone, Nat.not_le.2 hrate]
  rfl

/-! ## A dark interval does not wait on (R198) -/

/-- The dark interval goes on without the halves that have not trained, from its deadline on. -/
def darkForced (d : Dark) (s : State) : State :=
  onScn (fun c => { c with dark := some { d with forced := true } }) (advanceMer d.deadline s)

theorem exec_darkIntervalTrainTimeout {s : State} {d : Dark} (hd : s.scn.dark = some d) (hf : d.forced = false) :
    exec .darkIntervalTrainTimeout s = .next (darkForced d s) := by
  change execDarkIntervalTrainTimeout s = _
  simp only [execDarkIntervalTrainTimeout, ok, hd, hf, Bool.false_eq_true, if_false]
  rfl

/-! ## SCANOUT_STATUS -/

theorem headState_lt (b : Bool) (s : State) : headState b s < 2 ^ 8 := by
  unfold headState
  split
  · decide
  · split
    · decide
    · split
      · decide
      · split <;> decide

/-- The low byte of word 0 of SCANOUT_STATUS is the state of the head (R201). -/
theorem scanoutWords_low (b : Bool) (s : State) : (scanoutWords b s).w0 % 2 ^ 8 = headState b s := by
  have hstate := headState_lt b s
  simp only [scanoutWords, okay]
  omega

theorem scanoutWords_w1 (b : Bool) (s : State) : (scanoutWords b s).w1 = (headOf b s).shownK % 2 ^ 32 := rfl

theorem scanoutWords_w2 (b : Bool) (s : State) : (scanoutWords b s).w2 = emitWindow s % 2 ^ 16 := rfl

theorem headState_congr {s t : State} (hscn : t.scn = s.scn) (hplk : t.plk = s.plk) (hpnl : t.pnl = s.pnl) (b : Bool) :
    headState b t = headState b s := by
  rw [headState, halfLit, headOf_congr b hscn, halves_congr hpnl, plkOf_congr b hplk, hscn, headState, halfLit]

theorem exec_scanoutStatus {h : Hdr} {p : ScanoutStatusP} {s : State} (hs : served (rowScanoutStatus h p) s = true) :
    exec (.scanoutStatus h p) s = .next (finish h 0x0406 (scanoutWords (p.half == 1) (taken (rowScanoutStatus h p) s))
      (taken (rowScanoutStatus h p) s)) :=
  congrArg Host.Outcome.next (command_of_served hs)

/-! ## The clauses of `ScanoutTimersAndStatus` -/

/-- Settles O40: the failed host read, the two timers, and the words of SCANOUT_STATUS read on the packet's arrival. -/
theorem scanoutTimersAndStatus : Obligations.ScanoutTimersAndStatus := by
  refine ⟨⟨?_, ?_, ?_⟩, ?_⟩
  · intro s hlit hm hany
    have hsome : hostOverlays s ≠ [] := by
      obtain ⟨e, he, hcond⟩ := List.any_eq_true.1 hany
      exact List.ne_nil_of_mem (List.mem_map.2 ⟨e, List.mem_filter.2 ⟨he, hcond⟩, rfl⟩)
    exact ⟨_, exec_overlayHostReadFail hlit hm hsome, (overlaysCut_fit _ s).keeps (by decide),
      fun n l hn hl hhost => off_of_overlaysCut hn hl hhost⟩
  · intro s at_ hsince hm hrate hnone
    have hexec := exec_scnStillLowered hsince hm hrate hnone
    exact ⟨_, _, hexec, stillLowered_change _, rfl, pv_congr (advanceRef_par ..) _, rfl,
      by rw [stillLowered_time]; exact le_ref_advanceRef ..,
      (execScnStillLowered_fit (L := 0x40060) (by decide) (Fit.refl _ s) _ hexec).keeps (by decide)⟩
  · intro s d hd hf
    have hexec := exec_darkIntervalTrainTimeout hd hf
    exact ⟨_, hexec, rfl, le_merNs_of_time (onScn_time ..),
      (execDarkIntervalTrainTimeout_fit (L := 0x40020) (by decide) (Fit.refl _ s) _ hexec).keeps (by decide)⟩
  · intro h p s hs
    have hfit : Fit 0x800600 s (taken (rowScanoutStatus h p) s) := taken_fit_of_pre_id (by decide) rfl s
    have hscn : (taken (rowScanoutStatus h p) s).scn = s.scn := hfit.2 .scn rfl
    refine ⟨_, exec_scanoutStatus hs, rfl, ?_, ?_, ?_⟩
    · rw [scanoutWords_low, headState_congr hscn (hfit.2 .plk rfl) (hfit.2 .pnl rfl)]
    · rw [scanoutWords_w1, headOf_congr _ hscn]
    · rw [scanoutWords_w2, emitWindow_congr hscn (hfit.2 .mode rfl) (hfit.2 .pnl rfl) (hfit.2 .std rfl)]

end Sys2Proof.Machine
end

section
/-! PROOFS. The panel link: PANEL_LINK_TRAIN (R225, R226) and the messages of the panel (R215 to R222). -/

namespace Sys2Proof.Machine

/-! ## Reading the link of a half after a write -/

@[simp] theorem plkOf_onPlk_self (b : Bool) (f : Plk → Plk) (s : State) : plkOf b (onPlk b f s) = f (plkOf b s) := by
  cases b <;> rfl

theorem plkOf_onPlk_of_ne {b c : Bool} (h : c ≠ b) (f : Plk → Plk) (s : State) : plkOf c (onPlk b f s) = plkOf c s := by
  cases b <;> cases c
  · exact absurd rfl h
  · rfl
  · rfl
  · exact absurd rfl h

@[simp] theorem onPlk_time (b : Bool) (f : Plk → Plk) (s : State) : (onPlk b f s).time = s.time := rfl

/-- The command in progress is no part of a half's link. -/
@[simp] theorem onPlk_linkCmd (b : Bool) (f : Plk → Plk) (s : State) : (onPlk b f s).plk.cmd = s.plk.cmd := by cases b <;> rfl

theorem judgeCap_plk (b : Bool) (s : State) : (judgeCap b s).plk = s.plk :=
  (judgeCap_fit (L := 0x800C02) (by decide) (Fit.refl _ s)).2 .plk rfl

/-- A model code that disagrees makes MISMATCH true (R39). -/
def mismatched (s : State) : State := { s with plk := { s.plk with mismatch := true } }

theorem plkOf_mismatched (b : Bool) (s : State) : plkOf b (mismatched s) = plkOf b s := rfl

theorem judgeModel_of_wrong {b : Bool} {s : State} (h : modelWrong b s = true) :
    judgeModel b s = raise 0xB8 [(1, b2n b)] (mismatched s) := if_pos h

theorem judgeModel_cases (b : Bool) (s : State) :
    judgeModel b s = s ∨ judgeModel b s = raise 0xB8 [(1, b2n b)] (mismatched s) := by
  unfold judgeModel
  split
  · exact .inr rfl
  · exact .inl rfl

@[simp] theorem plkOf_judgeModel (b c : Bool) (s : State) : plkOf c (judgeModel b s) = plkOf c s := by
  rcases judgeModel_cases b s with h | h <;> rw [h]
  rw [plkOf_congr c (raise_plk ..), plkOf_mismatched]

@[simp] theorem judgeModel_linkCmd (b : Bool) (s : State) : (judgeModel b s).plk.cmd = s.plk.cmd := by
  rcases judgeModel_cases b s with h | h <;> rw [h]
  rw [raise_plk]; rfl

/-- A half that has trained or failed changes the command in progress, and no half's link (R225). -/
@[simp] theorem plkOf_linkCmdHalf (b c trained : Bool) (s : State) : plkOf c (linkCmdHalf b trained s) = plkOf c s := by
  unfold linkCmdHalf
  split
  · rfl
  · refine iteInduction (motive := fun t => plkOf c t = plkOf c s) (fun _ => rfl) fun _ => ?_
    exact iteInduction (motive := fun t => plkOf c t = plkOf c s)
      (fun _ => (plkOf_congr c (finish_plk ..)).trans rfl) fun _ => rfl

theorem endLinkRecov_plk (b : Bool) (outcome : Nat) (s : State) : (endLinkRecov b outcome s).plk = s.plk :=
  (endLinkRecov_fit (L := 0x800E02) (by decide) (Fit.refl _ s)).2 .plk rfl

/-! ## Training is called for (R221) -/

/-- The link of a half whose training at a rate code is called for. -/
def trainCalled (rate : Nat) (second : Bool) (p : Plk) : Plk :=
  { p with sent := [], rows := [], up := false, failed := false, seq := 0,
           train := some ⟨rate, none, none, none, none, 0, second, none, false⟩ }

theorem reclaim_plk (b : Bool) (s : State) : (reclaim b s).plk = (onPlk b (fun p => { p with sent := [], rows := [] }) s).plk :=
  move_plk ..

theorem plkOf_startTrain_self (b : Bool) (rate : Nat) (second : Bool) (s : State) :
    plkOf b (startTrain b rate second s) = trainCalled rate second (plkOf b s) := by
  rw [startTrain, plkOf_judgeModel, plkOf_congr b (judgeCap_plk ..), plkOf_onPlk_self, plkOf_congr b (reclaim_plk ..),
    plkOf_onPlk_self]
  rfl

theorem plkOf_startTrain_of_ne {b c : Bool} (h : c ≠ b) (rate : Nat) (second : Bool) (s : State) :
    plkOf c (startTrain b rate second s) = plkOf c s := by
  rw [startTrain, plkOf_judgeModel, plkOf_congr c (judgeCap_plk ..), plkOf_onPlk_of_ne h, plkOf_congr c (reclaim_plk ..),
    plkOf_onPlk_of_ne h]

theorem startTrain_linkCmd (b : Bool) (rate : Nat) (second : Bool) (s : State) :
    (startTrain b rate second s).plk.cmd = s.plk.cmd := by
  rw [startTrain, judgeModel_linkCmd, judgeCap_plk, onPlk_linkCmd, reclaim_plk, onPlk_linkCmd]

theorem onHead_plk (b : Bool) (f : Head → Head) (s : State) : (onHead b f s).plk = s.plk :=
  (onHead_fit (L := 0x40000) (by decide) (Fit.refl _ s)).2 .plk rfl

theorem darken_plk (b : Bool) (reason : Nat) (s : State) :
    (darken b reason s).plk = (onPlk b (fun p => { p with rows := [] }) s).plk := by
  unfold darken
  refine iteInduction (motive := fun t => State.plk t = _) (fun _ => (emit_plk ..).trans ?_) (fun _ => ?_) <;>
    simp only [onPlk, onHead_plk]

/-! ## PANEL_LINK_TRAIN -/

/-- The rate code a PANEL_LINK_TRAIN trains at: in Dawn RATE, else that of the class in force (R225). -/
def linkRate (p : LinkTrainP) (s : State) : Nat := if s.mode.mode = .dawn then p.rate.toNat else classNow s

theorem linkRate_congr {s t : State} (h : t.mode = s.mode) (p : LinkTrainP) : linkRate p t = linkRate p s := by
  rw [linkRate, classNow, h, linkRate, classNow]

/-- A PANEL_LINK_TRAIN is accepted: it is the command in progress, and every half it names is still to train. -/
def linkTrainBegun (h : Hdr) (p : LinkTrainP) (s : State) : State :=
  accepted h 0x0407 0 { s with plk := { s.plk with cmd := some ⟨h, p.halves.toNat, p.halves.toNat, 0, linkRate p s⟩ } }

/-- A named half stops emitting if the panel is lit, and trains (R224, R225). -/
def trainNamed (rate : Nat) (s : State) (b : Bool) : State :=
  startTrain b rate false (if s.scn.seg.isSome then darken b 1 s else s)

theorem runLinkTrain_eq (h : Hdr) (p : LinkTrainP) (s : State) :
    runLinkTrain h p s = (namedHalves p).foldl (trainNamed (linkRate p s)) (linkTrainBegun h p s) := rfl

theorem mem_namedHalves {p : LinkTrainP} {b : Bool} : b ∈ namedHalves p ↔ named p b = true := by
  rw [namedHalves, List.mem_filter]
  exact and_iff_right (by cases b <;> decide)

/-- A half trains at a rate code, with no attempt failed yet. -/
def Trains (b : Bool) (rate : Nat) (s : State) : Prop :=
  (plkOf b s).up = false ∧ ∃ x, (plkOf b s).train = some x ∧ x.rate = rate ∧ x.failed = 0

theorem trains_trainNamed_self (b : Bool) (rate : Nat) (s : State) : Trains b rate (trainNamed rate s b) := by
  rw [Trains, trainNamed, plkOf_startTrain_self]
  exact ⟨rfl, _, rfl, rfl, rfl⟩

theorem plkOf_trainNamed_of_ne {b c : Bool} (h : c ≠ b) (rate : Nat) (s : State) :
    plkOf c (trainNamed rate s b) = plkOf c s := by
  rw [trainNamed, plkOf_startTrain_of_ne h]
  split
  · rw [plkOf_congr c (darken_plk ..), plkOf_onPlk_of_ne h]
  · rfl

theorem trains_trainNamed {b : Bool} {rate : Nat} {s : State} (c : Bool) (h : Trains b rate s) :
    Trains b rate (trainNamed rate s c) := by
  by_cases hbc : b = c
  · exact hbc ▸ trains_trainNamed_self b rate s
  · rwa [Trains, plkOf_trainNamed_of_ne hbc]

theorem trainNamed_linkCmd (rate : Nat) (s : State) (b : Bool) : (trainNamed rate s b).plk.cmd = s.plk.cmd := by
  rw [trainNamed, startTrain_linkCmd]
  split
  · rw [darken_plk, onPlk_linkCmd]
  · rfl

theorem runLinkTrain_trains {h : Hdr} {p : LinkTrainP} {b : Bool} (s : State) (hb : named p b = true) :
    Trains b (linkRate p s) (runLinkTrain h p s) := by
  rw [runLinkTrain_eq]
  exact foldl_reaches (Q := fun _ => True) (mem_namedHalves.2 hb) (fun _ _ _ => trivial) (fun _ c => trains_trainNamed c)
    (fun t _ => trains_trainNamed_self b _ t) trivial

theorem runLinkTrain_linkCmd (h : Hdr) (p : LinkTrainP) (s : State) :
    (runLinkTrain h p s).plk.cmd = some ⟨h, p.halves.toNat, p.halves.toNat, 0, linkRate p s⟩ := by
  rw [runLinkTrain_eq]
  refine List.foldlRecOn (motive := fun t => t.plk.cmd = _) _ _ ?_ fun t ht b _ => (trainNamed_linkCmd _ t b).trans ht
  rw [linkTrainBegun, accepted_plk]

theorem exec_panelLinkTrain {h : Hdr} {p : LinkTrainP} {s : State} (hs : served (rowPanelLinkTrain h p) s = true) :
    exec (.panelLinkTrain h p) s = .next (runLinkTrain h p (taken (rowPanelLinkTrain h p) s)) :=
  congrArg Host.Outcome.next (command_of_served hs)

/-! ## Re-arming the presence inputs (R226) -/

/-- The presence input of a half is re-armed. -/
def rearmed (s : State) (b : Bool) : State := onPlk b (fun q => { q with masked := false, assertedAt := s.time.ref }) s

/-- The presence input of a half stands as one re-armed at reference ns `n`. -/
def Rearmed (n : Nat) (b : Bool) (s : State) : Prop :=
  s.time.ref = n ∧ (plkOf b s).masked = false ∧ (plkOf b s).assertedAt = n

theorem rearmed_self {n : Nat} {s : State} (b : Bool) (h : s.time.ref = n) : Rearmed n b (rearmed s b) := by
  rw [Rearmed, rearmed, plkOf_onPlk_self]
  exact ⟨h, rfl, h⟩

theorem Rearmed.keep {n : Nat} {b : Bool} {s : State} (c : Bool) (h : Rearmed n b s) : Rearmed n b (rearmed s c) := by
  obtain ⟨htime, hmasked, hat⟩ := h
  by_cases hbc : b = c
  · exact hbc ▸ rearmed_self b htime
  · exact ⟨htime, by rwa [rearmed, plkOf_onPlk_of_ne hbc], by rwa [rearmed, plkOf_onPlk_of_ne hbc]⟩

/-- The named halves' presence inputs are re-armed. -/
def namedRearmed (p : LinkTrainP) (s : State) : State := (namedHalves p).foldl rearmed s

theorem namedRearmed_of_named {p : LinkTrainP} {b : Bool} (s : State) (hb : named p b = true) :
    Rearmed s.time.ref b (namedRearmed p s) :=
  foldl_reaches (Q := fun t : State => t.time.ref = s.time.ref) (P := Rearmed s.time.ref b) (f := rearmed)
    (mem_namedHalves.2 hb) (fun _ _ ht => ht) (fun _ c => Rearmed.keep c)
    (fun _ ht => rearmed_self b ht) rfl

theorem plkOf_namedRearmed_of_not_named {p : LinkTrainP} {b : Bool} (s : State) (hb : named p b = false) :
    plkOf b (namedRearmed p s) = plkOf b s := by
  refine List.foldlRecOn (motive := fun t => plkOf b t = plkOf b s) _ _ rfl fun t ht c hc => ?_
  have hne : b ≠ c := fun h => Bool.false_ne_true (hb.symm.trans (mem_namedHalves.1 (h ▸ hc)))
  rw [rearmed, plkOf_onPlk_of_ne hne, ht]

theorem namedRearmed_fit {L : Nat} {s0 s : State} (hL : In 0x80000 L) (p : LinkTrainP) (h0 : Fit L s0 s) :
    Fit L s0 (namedRearmed p s) := Fit.foldl h0 fun _ _ ht => onPlk_fit hL ht

theorem exec_panelPresRearm {h : Hdr} {p : LinkTrainP} {s : State} (hs : served (rowPanelPresRearm h p) s = true) :
    exec (.panelPresRearm h p) s = .next (finish h 0x0407 (okay) (namedRearmed p (taken (rowPanelPresRearm h p) s))) :=
  congrArg Host.Outcome.next (command_of_served hs)

/-! ## HELLO (R216) -/

/-- What a HELLO reports. -/
def helloOf (p : HelloMsg) : Hello := ⟨p.model.toNat, p.lanes.toNat, p.rate.toNat, p.credits.toNat⟩

/-- An equal HELLO is not judged again (DEDUCED, log entry 38). -/
theorem exec_hello {b : Bool} {p : HelloMsg} {s : State} (hon : backOn b s = true) (hlock : backLock b s = true)
    (hup : (plkOf b s).up = false) (hok : helloOk p = true) (hnew : (plkOf b s).hello ≠ some (helloOf p)) :
    exec (.hello b p) s = .next (judgeModel b (judgeCap b (onPlk b (fun q => { q with hello := some (helloOf p) }) s))) := by
  change ok (if _ then _ else _) = _
  refine congrArg Host.Outcome.next (if_neg ?_)
  rw [hon, hlock, hup, hok]
  exact fun hsame => hnew (of_decide_eq_true hsame)

/-! ## The stages of training (R221, R222) -/

/-- The training of a half stands as `t`. -/
def putTrain (b : Bool) (t : Train) (s : State) : State := onPlk b (fun p => { p with train := some t }) s

theorem putTrain_fit {L : Nat} {s0 s : State} (hL : In 0x80000 L) (b : Bool) (t : Train) (h0 : Fit L s0 s) :
    Fit L s0 (putTrain b t s) := onPlk_fit hL h0

@[simp] theorem putTrain_train (b : Bool) (t : Train) (s : State) : (plkOf b (putTrain b t s)).train = some t := by
  rw [putTrain, plkOf_onPlk_self]

/-- What is sent on a link other than the host's touches the outputs only. -/
theorem emit_fit_of_not_host {o : Out} {s0 s : State} {L : Nat} (ho : usesHost o = false) (hL : In 0x2 L) (h0 : Fit L s0 s) :
    Fit L s0 (emit o s) := by
  simp only [emit, ho, Bool.false_eq_true, if_false]
  exact Fit.upd_out hL h0

section
variable {b : Bool} {mask : U32} {s : State} {t : Train} (hlock : backLock b s = true) (ht : (plkOf b s).train = some t)
  (hbegan : t.began.isSome = true)
include hlock ht hbegan

theorem exec_tstat_locked (hnew : t.locked = none) : exec (.tstat b 1 mask) s =
    .next (emit (.train b 2 t.rate) (putTrain b { t with locked := some mask.toNat } s)) := by
  change execTstat b 1 mask s = _
  simp only [execTstat, ok, hlock, if_true, ht, Option.isNone_eq_false_iff.2 hbegan, Bool.false_eq_true, if_false, hnew,
    Option.isNone_none, and_self, putTrain]

theorem exec_tstat_deskewed {l : Nat} (hl : t.locked = some l) (hnew : t.skewed = none)
    (hallowed : lanesAllowed b t.rate (l &&& mask.toNat &&& wiredMask b t.rate s) s = true) : exec (.tstat b 2 mask) s =
    .next (emit (.linkInit b (l &&& mask.toNat &&& wiredMask b t.rate s) 8)
      (putTrain b { t with skewed := some mask.toNat } s)) := by
  change execTstat b 2 mask s = _
  simp only [execTstat, ok, hlock, if_true, ht, Option.isNone_eq_false_iff.2 hbegan, Bool.false_eq_true, if_false,
    show ¬ (2 : Byte) = 1 by decide, false_and, hnew, Option.isNone_none, and_self, hl, hallowed, putTrain]

theorem exec_tstat_refused {l : Nat} (hl : t.locked = some l) (hnew : t.skewed = none)
    (hallowed : lanesAllowed b t.rate (l &&& mask.toNat &&& wiredMask b t.rate s) s = false) :
    exec (.tstat b 2 mask) s = .next (failAttempt b s) := by
  change execTstat b 2 mask s = _
  simp only [execTstat, ok, hlock, if_true, ht, Option.isNone_eq_false_iff.2 hbegan, Bool.false_eq_true, if_false,
    show ¬ (2 : Byte) = 1 by decide, false_and, hnew, Option.isNone_none, and_self, hl, hallowed]

theorem exec_tstat_done (hskewed : t.skewed.isSome = true) :
    exec (.tstat b 3 mask) s = .next (settleTrain b (putTrain b { t with said3 := true } s)) := by
  change execTstat b 3 mask s = _
  simp only [execTstat, ok, hlock, if_true, ht, Option.isNone_eq_false_iff.2 hbegan, Bool.false_eq_true, if_false,
    show ¬ (3 : Byte) = 1 by decide, show ¬ (3 : Byte) = 2 by decide, false_and, hskewed, and_self, putTrain]

end

theorem exec_panelCinit {b : Bool} {credits : Byte} {s : State} {t : Train} (hlock : backLock b s = true)
    (ht : (plkOf b s).train = some t) (hskewed : t.skewed.isSome = true) (hcredits : 16 ≤ credits.toNat) :
    exec (.panelCinit b credits) s = .next (settleTrain b (putTrain b { t with cinit := some credits.toNat } s)) := by
  change execPanelCinit b credits s = _
  simp only [execPanelCinit, ok, hlock, if_true, ht, Option.isNone_eq_false_iff.2 hskewed,
    decide_eq_false (Nat.not_lt.2 hcredits), Bool.or_self, Bool.false_eq_true, if_false, putTrain]

/-- TSTAT stage 3 and CINIT are both needed, in either order (DEDUCED, log entry 43). -/
theorem settleTrain_of_all {b : Bool} {s : State} {t : Train} {l k c : Nat} (ht : (plkOf b s).train = some t)
    (hl : t.locked = some l)
    (hk : t.skewed = some k) (hc : t.cinit = some c) (hsaid : t.said3 = true) :
    settleTrain b s = trainDone b t (l &&& k &&& wiredMask b t.rate s) c s := by
  simp only [settleTrain, ht, hl, hk, hc, hsaid, if_true]

/-! ## A half has trained (R221) -/

/-- The link of a half that has trained. -/
def trainedLink (t : Train) (mask : Nat) (p : Plk) : Plk :=
  { p with up := true, train := none, failed := false, lanes := mask, rate := t.rate, seq := 0, sent := [], rows := [] }

theorem plkOf_trainDone (b : Bool) (t : Train) (mask credits : Nat) (s : State) :
    ∃ p, plkOf b (trainDone b t mask credits s) = trainedLink t mask p := by
  unfold trainDone
  extract_lets s₁ s₂ s₃ s₄ s₅
  refine ⟨plkOf b s₂, ?_⟩
  rw [plkOf_linkCmdHalf, plkOf_congr b (endLinkRecov_plk ..), plkOf_congr b (raise_plk ..)]
  exact plkOf_onPlk_self ..

/-! ## Answers of the panel (R218 to R220) -/

theorem creditBack_plk (b : Bool) (s : State) : (creditBack b s).plk = s.plk := move_plk ..

/-- An answer takes every packet of its SEQ from the outstanding ones. -/
theorem answered_sent (b : Bool) (seq : Nat) (s : State) :
    (plkOf b (answered b seq s)).sent = (plkOf b s).sent.filter (fun k => k.seq != seq) := by
  unfold answered
  split
  · rw [plkOf_congr b (creditBack_plk ..), plkOf_onPlk_self]
  · rename_i hnone
    refine (List.filter_eq_self.2 fun k hk => ?_).symm
    exact bne_iff_ne.2 fun hseq => hnone (List.any_eq_true.2 ⟨k, hk, beq_iff_eq.2 hseq⟩)

/-- The packets named by the elements of a list are answered. -/
def answeredAll {α : Type} (b : Bool) (seq : α → Nat) (l : List α) (s : State) : State :=
  l.foldl (fun s a => answered b (seq a) s) s

/-- The packets still outstanding are those that no element names. -/
theorem mem_answeredAll_sent {α : Type} {b : Bool} {seq : α → Nat} {l : List α} {s : State} {k : Packet} :
    k ∈ (plkOf b (answeredAll b seq l s)).sent ↔ k ∈ (plkOf b s).sent ∧ ∀ a ∈ l, k.seq ≠ seq a := by
  induction l generalizing s with
  | nil => exact ⟨fun hk => ⟨hk, List.forall_mem_nil _⟩, And.left⟩
  | cons a r ih =>
    rw [answeredAll, List.foldl_cons]
    refine ih.trans ?_
    rw [answered_sent, List.mem_filter, bne_iff_ne, List.forall_mem_cons, and_assoc]

theorem answeredAll_fit {α : Type} {L : Nat} {s0 s : State} (hL : In 0x80200 L) (b : Bool) (seq : α → Nat) (l : List α)
    (h0 : Fit L s0 s) : Fit L s0 (answeredAll b seq l s) := Fit.foldl h0 fun _ _ ht => answered_fit hL ht

/-- The SEQs an ACK names, by their offsets from its first (R216). -/
def ackSeq (seq : U16) (i : Nat) : Nat := (seq.toNat + i) % 65536

theorem exec_ack {b : Bool} {seq : U16} {count : Byte} {s : State} (hlock : backLock b s = true) (hlow : 1 ≤ count.toNat)
    (hhigh : count.toNat ≤ 32) : exec (.ack b seq count) s =
      .next (withLoss b (pump b) (answeredAll b (ackSeq seq) (List.range count.toNat) s)) := by
  have hcount : (count == 0) = false := beq_false_of_ne fun h => absurd (h ▸ hlow) (by decide)
  change execAck b seq count s = _
  simp only [execAck, ok, hlock, hcount, Bool.not_true, Bool.or_self, Bool.false_or, decide_eq_true_eq,
    Nat.not_lt.2 hhigh, if_false]
  rfl

/-- What a NAK makes of its row, its packet answered (R219). One with a reason outside 1 to 4 loses its row (DESIGN CHOICE, log
entry 41). -/
def nakRow (b : Bool) (reason : Byte) (k : Packet) (s : State) : State :=
  if k.timedOut then pump b s
  else if reason = 1 ∨ reason = 2 ∨ reason = 4 then resendRow b k.job s
  else pump b (loseRow b s)

theorem exec_nak {b : Bool} {seq : U16} {s : State} {k : Packet} (reason : Byte) (hlock : backLock b s = true)
    (hk : (plkOf b s).sent.find? (fun k => k.seq == seq.toNat) = some k) :
    exec (.nak b seq reason) s = .next (withLoss b (nakRow b reason k) (answered b k.seq s)) := by
  change execNak b seq reason s = _
  simp only [execNak, ok, hlock, hk, if_true]
  rfl

/-- The outstanding packets at or before LAST_SEQ (R220). -/
def dueBy (last : Nat) (b : Bool) (s : State) : List Packet := (plkOf b s).sent.filter (fun k => seqBefore last k.seq)

theorem exec_status {b : Bool} {p : StatusMsg} {s u v : State} (hlock : backLock b s = true) (hup : (plkOf b s).up = true)
    (hflags : p.flags.toNat % 4 = 0) (hu : u = answeredAll b Packet.seq (dueBy p.lastSeq.toNat b s) s)
    (hv : v = withLoss b (pump b) u) : exec (.status b p) s =
      .next (raiseIf (p.flags.toNat != (plkOf b v).flags) 0xBA [(1, b2n b), (1, p.flags.toNat)]
        (onPlk b (fun q => { q with flags := p.flags.toNat }) v)) := by
  subst hv hu
  change execStatus b p s = _
  simp only [execStatus, ok, hlock, hup, hflags, Bool.not_true, Bool.or_self, Bool.false_eq_true, ne_eq, not_true, false_and,
    if_false]
  rfl

theorem not_seqBefore_of_mem {last : Nat} {b : Bool} {s : State} {k : Packet}
    (hk : k ∈ (plkOf b (answeredAll b Packet.seq (dueBy last b s) s)).sent) : seqBefore last k.seq = false := by
  obtain ⟨hsent, hnot⟩ := mem_answeredAll_sent.1 hk
  exact Bool.eq_false_iff.2 fun hdue => hnot k (List.mem_filter.2 ⟨hsent, hdue⟩) rfl

theorem exec_pevt {b : Bool} {s : State} (code : U16) (data : List Byte) (hlock : backLock b s = true)
    (hup : (plkOf b s).up = true) : exec (.pevt b code data) s = .next (emit (.linkCredit b 1) (move (pevtPool b) 2 0 1
      (raise 0xBB [(1, b2n b), (2, code.toNat), (5, leNat (bytesAt data 0 5))] (move (pevtPool b) 0 2 1 s)))) := by
  change execPevt b code data s = _
  simp only [execPevt, ok, hlock, hup, Bool.not_true, Bool.or_self, Bool.false_eq_true, if_false]

/-! ## The clauses of `LinkMessages` -/

/-- Settles O42: the commands act on the named halves one by one, each message of the panel in its stage, and an answer takes the
packets it names from the outstanding ones. -/
theorem linkMessages : Obligations.LinkMessages := by
  refine ⟨?_, ?_, ?_, ?_, ?_, ?_, ?_, ?_, ?_, ?_, ?_, ?_, ?_⟩
  · intro h p s hs
    have hrate := linkRate_congr (taken_mode_of_pre_id (r := rowPanelLinkTrain h p) rfl s) p
    have htaken : Fit 0x8C0E02 s (taken (rowPanelLinkTrain h p) s) := taken_fit_of_pre_id (by decide) rfl s
    refine ⟨_, exec_panelLinkTrain hs, ?_, fun b hb => ?_, (runLinkTrain_fit (by decide) htaken).keeps (by decide)⟩
    · rw [runLinkTrain_linkCmd, hrate]; rfl
    · have htrains := runLinkTrain_trains (h := h) (taken (rowPanelLinkTrain h p) s) hb
      rwa [hrate] at htrains
  · intro h p s hs
    have htaken : Fit 0x880600 s (taken (rowPanelPresRearm h p) s) := taken_fit_of_pre_id (by decide) rfl s
    refine ⟨_, exec_panelPresRearm hs, fun b hb => ?_, fun b hb => ?_,
      (namedRearmed_fit (by decide) p htaken).keeps (by decide)⟩
    · obtain ⟨-, hmasked, hat⟩ := namedRearmed_of_named (taken (rowPanelPresRearm h p) s) hb
      exact ⟨hmasked, hat.trans (by rw [htaken.2 .time rfl])⟩
    · rw [plkOf_namedRearmed_of_not_named _ hb, plkOf_congr b (taken_plk _ s fun _ => rfl)]
  · rintro b p s m rfl hon hlock hup hok hnew
    exact ⟨_, exec_hello hon hlock hup hok hnew, by rw [plkOf_onPlk_self]; rfl, plkOf_onPlk_of_ne (by cases b <;> decide) ..,
      (onPlk_fit (L := 0x80000) (by decide) (Fit.refl _ s)).keeps (by decide)⟩
  · intro b s hwrong
    exact ⟨_, judgeModel_of_wrong hwrong, rfl, (Fit.upd_plk (L := 0x80000) (by decide) (Fit.refl _ s)).keeps (by decide)⟩
  · intro b mask s t hlock ht hbegan hnew
    exact ⟨_, exec_tstat_locked hlock ht hbegan hnew, mem_out_emit .., by rw [plkOf_congr b (emit_plk ..), putTrain_train],
      (emit_fit_of_not_host (L := 0x80002) rfl (by decide) (putTrain_fit (by decide) _ _ (Fit.refl _ s))).keeps (by decide)⟩
  · rintro b mask s t l use hlock ht hbegan hl hnew rfl
    refine ⟨fun hallowed => ?_, exec_tstat_refused hlock ht hbegan hl hnew⟩
    exact ⟨_, exec_tstat_deskewed hlock ht hbegan hl hnew hallowed, mem_out_emit ..,
      by rw [plkOf_congr b (emit_plk ..), putTrain_train],
      (emit_fit_of_not_host (L := 0x80002) rfl (by decide) (putTrain_fit (by decide) _ _ (Fit.refl _ s))).keeps (by decide)⟩
  · intro b mask s t l k c hlock ht hbegan hl hk hc
    refine ⟨putTrain b { t with said3 := true } s, ?_,
      (putTrain_fit (L := 0x80000) (by decide) _ _ (Fit.refl _ s)).keeps (by decide)⟩
    rw [exec_tstat_done hlock ht hbegan (by rw [hk]; rfl),
      settleTrain_of_all (t := { t with said3 := true }) (putTrain_train ..) hl hk hc rfl]
  · intro b credits s t hlock ht hskewed hcredits
    exact ⟨_, exec_panelCinit hlock ht hskewed hcredits, putTrain_train ..,
      (putTrain_fit (L := 0x80000) (by decide) _ _ (Fit.refl _ s)).keeps (by decide)⟩
  · intro b t mask credits s
    obtain ⟨p, hp⟩ := plkOf_trainDone b t mask credits s
    rw [hp]
    exact ⟨rfl, rfl, rfl, rfl, rfl⟩
  · intro b seq count s hlock hlow hhigh
    refine ⟨_, exec_ack hlock hlow hhigh, (answeredAll_fit (L := 0x80200) (by decide) b _ _ (Fit.refl _ s)).keeps (by decide),
      fun k hk i hi => ?_, fun k hk hnot => ?_⟩
    · obtain ⟨-, hnot⟩ := mem_answeredAll_sent.1 hk
      exact hnot i (List.mem_range.2 hi)
    · exact mem_answeredAll_sent.2 ⟨hk, fun i hi => hnot i (List.mem_range.1 hi)⟩
  · intro b seq reason s k hlock hk
    have hseq : k.seq = seq.toNat := beq_iff_eq.1 (List.find?_some (p := fun k : Packet => k.seq == seq.toNat) hk)
    refine ⟨_, exec_nak reason hlock hk, fun x hx => ?_,
      (answered_fit (L := 0x80200) (by decide) (Fit.refl _ s)).keeps (by decide)⟩
    rw [answered_sent, List.mem_filter, bne_iff_ne, hseq] at hx
    exact hx.2
  · intro b p s hlock hup hflags
    exact ⟨_, _, exec_status hlock hup hflags rfl rfl, rfl,
      (answeredAll_fit (L := 0x80200) (by decide) b _ _ (Fit.refl _ s)).keeps (by decide), fun _ => not_seqBefore_of_mem⟩
  · intro b code data s hlock hup
    exact ⟨_, exec_pevt code data hlock hup, (move_fit (L := 0x200) (by decide) (Fit.refl _ s)).keeps (by decide)⟩

end Sys2Proof.Machine
end

section
/-! PROOFS. The panel link: its training attempts (R221, R223), unanswered packets (R219), presence and lock (R215, R226 to R228),
rows sent (R208, R217). -/

namespace Sys2Proof.Machine

/-! ## Attempts of training (R221, R223) -/

/-- The training of a half as an attempt begins at reference ns `n`. -/
def attemptBegun (n : Nat) (t : Train) : Train :=
  { t with began := some n, locked := none, skewed := none, cinit := none, retry := none, said3 := false }

theorem beginAttempt_of_train {b : Bool} {s : State} {t : Train} (ht : (plkOf b s).train = some t) :
    beginAttempt b s = emit (.train b 1 t.rate) (putTrain b (attemptBegun s.time.ref t) (reclaim b s)) := by
  simp only [beginAttempt, ht]
  rfl

theorem train_of_mayTrain {b : Bool} {s : State} (h : mayTrain b s = true) : ∃ t, (plkOf b s).train = some t := by
  cases ht : (plkOf b s).train with
  | some t => exact ⟨t, rfl⟩
  | none => simp only [mayTrain, ht, Bool.and_false, Bool.false_and, Bool.false_eq_true] at h

theorem exec_trainingAttempt {b : Bool} {s : State} (h : mayTrain b s = true) :
    exec (.trainingAttempt b) s = .next (beginAttempt b s) := congrArg Host.Outcome.next (if_pos h)

theorem exec_trainingAttemptTimeout {b : Bool} {s : State} {t : Train} {r : Nat} (ht : (plkOf b s).train = some t)
    (hr : t.began = some r) :
    exec (.trainingAttemptTimeout b) s = .next (failAttempt b (advanceRef (r + 8000000) s)) := by
  change execTrainingAttemptTimeout b s = _
  simp only [execTrainingAttemptTimeout, ok, ht, Option.bind_some, hr]

/-- The training of a half whose attempt failed at reference ns `n`: the next one comes 1 ms later (R223). -/
def attemptFailed (n : Nat) (t : Train) : Train :=
  { rate := t.rate, began := none, locked := none, skewed := none, cinit := none, failed := t.failed + 1, second := t.second,
    retry := some (n + 1000000) }

theorem failAttempt_of_more {b : Bool} {s : State} {t : Train} (ht : (plkOf b s).train = some t)
    (hmore : t.failed + 1 < pv s 0x0E12) : failAttempt b s = putTrain b (attemptFailed s.time.ref t) s := by
  simp only [failAttempt, ht, hmore, if_true]
  rfl

/-- The instant of the next attempt has come. -/
def retryDue (b : Bool) (t : Train) (r : Nat) (s : State) : State := advanceRef r (putTrain b { t with retry := none } s)

theorem exec_trainingRetry {b : Bool} {s : State} {t : Train} {r : Nat} (ht : (plkOf b s).train = some t)
    (hr : t.retry = some r) : exec (.trainingRetry b) s =
      .next (if mayTrain b (retryDue b t r s) then beginAttempt b (retryDue b t r s) else retryDue b t r s) := by
  change execTrainingRetry b s = _
  simp only [execTrainingRetry, ok, ht, hr]
  rfl

/-! ## A packet unanswered (R219) -/

/-- The packet's time has run out without an answer. -/
def packetTimedOut (b : Bool) (k : Packet) (s : State) : State :=
  onPlk b (fun p => { p with sent := p.sent.map (fun x => if x.seq = k.seq then { x with timedOut := true } else x) })
    (advanceMer (ceilDiv k.eop 1000 + pv s 0x0E10 * 1000) s)

theorem packetTimedOut_fit (b : Bool) (k : Packet) (s : State) : Fit 0x80020 s (packetTimedOut b k s) :=
  onPlk_fit (by decide) (advanceMer_fit (by decide) (Fit.refl _ s))

theorem le_merNs_packetTimedOut (b : Bool) (k : Packet) (s : State) :
    ceilDiv k.eop 1000 + pv s 0x0E10 * 1000 ≤ merNs (packetTimedOut b k s) := le_merNs_of_time (onPlk_time ..)

theorem timedOut_of_mem {b : Bool} {k x : Packet} {s : State} (hx : x ∈ (plkOf b (packetTimedOut b k s)).sent)
    (hseq : x.seq = k.seq) : x.timedOut = true := by
  rw [packetTimedOut, plkOf_onPlk_self] at hx
  obtain ⟨y, -, rfl⟩ := List.mem_map.1 hx
  by_cases hy : y.seq = k.seq
  · rw [if_pos hy]
  · rw [if_neg hy] at hseq
    exact absurd hseq hy

theorem exec_plkAckTimeout {b : Bool} {s : State} {k : Packet} (hk : (plkOf b s).sent.find? (fun k => !k.timedOut) = some k) :
    exec (.plkAckTimeout b) s = .next (withLoss b (resendRow b k.job) (raise 0xB7 [(1, b2n b)] (packetTimedOut b k s))) := by
  change execPlkAckTimeout b s = _
  simp only [execPlkAckTimeout, ok, hk]
  rfl

/-! ## The presence input (R226) -/

/-- The instant from which a level of the presence input that stays is accepted: 20 ms old, and 200 ms after the accepted edge
before (R226; between acceptances is DEDUCED, log entry 42). -/
def linkAcceptInstant (b : Bool) (s : State) : Nat :=
  max (s.time.ref + 20000000) (match (plkOf b s).lastEdge with | some e => e + 200000000 | none => 0)

/-- An edge that comes before the 200 ms have passed is counted, with event 0xBD (R226). -/
def linkEdged (b : Bool) (s : State) : State :=
  if s.time.ref + 20000000 < (match (plkOf b s).lastEdge with | some e => e + 200000000 | none => 0) then
    raise 0xBD [(1, b2n b)] (onPlk b (fun p => { p with bounces := p.bounces + 1 }) s)
  else s

theorem linkEdged_fit {L : Nat} (hL : In 0x880C02 L) (b : Bool) (s : State) : Fit L s (linkEdged b s) :=
  Fit.ite (fun _ => raise_fit (In.trans (by decide) hL) (onPlk_fit (In.trans (by decide) hL) (Fit.refl _ s)))
    fun _ => Fit.refl _ s

/-- A presence level is accepted at the state's instant (R226). -/
def levelNoted (b level : Bool) (s : State) : State :=
  onPlk b (fun p => { p with level := level, lastEdge := some s.time.ref, assertedAt := s.time.ref }) s

theorem levelNoted_time (b level : Bool) (s : State) : (levelNoted b level s).time = s.time := onPlk_time ..

theorem plkOf_levelNoted (b level : Bool) (s : State) : (plkOf b (levelNoted b level s)).level = level ∧
    (plkOf b (levelNoted b level s)).lastEdge = some (levelNoted b level s).time.ref := by
  rw [levelNoted, plkOf_onPlk_self]
  exact ⟨rfl, rfl⟩

theorem acceptPresence_eq (b level : Bool) (s : State) :
    acceptPresence b level s = if level then settlePresence b (levelNoted b level s) else halfDown b (levelNoted b level s) := rfl

/-- The level is accepted once its instant has come. -/
def levelAccepted (b level : Bool) (s : State) : State := levelNoted b level (advanceRef (linkAcceptInstant b s) (linkEdged b s))

theorem levelAccepted_fit (b level : Bool) (s : State) : Fit 0x880C22 s (levelAccepted b level s) :=
  onPlk_fit (by decide) (advanceRef_fit (by decide) (linkEdged_fit (by decide) b s))

theorem plkOf_levelAccepted (b level : Bool) (s : State) : (plkOf b (levelAccepted b level s)).level = level ∧
    (plkOf b (levelAccepted b level s)).lastEdge = some (levelAccepted b level s).time.ref := plkOf_levelNoted ..

theorem le_ref_levelAccepted (b level : Bool) (s : State) : linkAcceptInstant b s ≤ (levelAccepted b level s).time.ref := by
  rw [levelAccepted, levelNoted_time]
  exact le_ref_advanceRef ..

theorem exec_panelPresChange {b level : Bool} {stable : Nat} {s : State} (hused : (plkOf b s).masked = false)
    (hlevel : level ≠ (plkOf b s).level) (hb : b ∈ halves s)
    (hstable : linkAcceptInstant b s ≤ s.time.ref + stable * 1000) :
    exec (.panelPresChange b level stable) s = .next (if level then settlePresence b (levelAccepted b level s)
      else halfDown b (levelAccepted b level s)) := by
  have htime : (linkEdged b s).time = s.time := (linkEdged_fit (L := 0x880C02) (by decide) b s).2 .time rfl
  refine congrArg Host.Outcome.next ((if_neg ?_).trans ((if_pos ?_).trans (acceptPresence_eq ..)))
  · rw [hused, beq_false_of_ne hlevel, List.contains_iff_mem.2 hb]; decide
  · exact (show linkAcceptInstant b s ≤ (linkEdged b s).time.ref + stable * 1000 by rwa [htime])

/-! ## An input that stays asserted without lock (R226) -/

/-- The presence input is masked, 5 s after the later of its assertion and the lock's loss (R226; DEDUCED, log entry 42). -/
def presenceMasked (b : Bool) (s : State) : State :=
  onPlk b (fun p => { p with masked := true })
    (advanceRef (max (plkOf b s).assertedAt ((plkOf b s).lockLost.getD 0) + 5000000000) s)

theorem le_ref_presenceMasked (b : Bool) (s : State) :
    max (plkOf b s).assertedAt ((plkOf b s).lockLost.getD 0) + 5000000000 ≤ (presenceMasked b s).time.ref := by
  rw [presenceMasked, onPlk_time]
  exact le_ref_advanceRef ..

theorem exec_plkPresStuck {b : Bool} {s : State} (hlevel : (plkOf b s).level = true) (hused : (plkOf b s).masked = false)
    (hlock : backLock b s = false) (hon : backOn b s = true) :
    exec (.plkPresStuck b) s = .next (raise 0xBC [(1, b2n b)] (presenceMasked b s)) :=
  congrArg Host.Outcome.next (if_neg (by rw [hlevel, hused, hlock, hon]; decide))

/-! ## Back lanes (R215) -/

/-- A back lane has block lock. -/
def laneLock (lane : Bool) (p : Plk) : Bool := if lane then p.lock1 else p.lock0

/-- The link with the lock of a back lane lost or gained. -/
def setLock (lane v : Bool) (p : Plk) : Plk := if lane then { p with lock1 := v } else { p with lock0 := v }

theorem laneLock_setLock_self (lane v : Bool) (p : Plk) : laneLock lane (setLock lane v p) = v := by cases lane <;> rfl

theorem laneLock_setLock_other (lane v : Bool) (p : Plk) : laneLock (!lane) (setLock lane v p) = laneLock (!lane) p := by
  cases lane <;> rfl

/-- A back lane of a half loses block lock. -/
def lockLostOf (b lane : Bool) (s : State) : State := onPlk b (setLock lane false) s

/-- The instant from which a half has no lock is kept. -/
def lockLostNoted (b : Bool) (s : State) : State := onPlk b (fun p => { p with lockLost := some s.time.ref }) s

/-- A back lane is 0x80 plus its number in event 0xB4 (DESIGN CHOICE, log entry 41). -/
theorem exec_backLaneLockLoss {b lane : Bool} {s : State} (h : laneLock lane (plkOf b s) = true) :
    exec (.backLaneLockLoss b lane) s = .next (if backLock b (lockLostOf b lane s)
      then raise 0xB4 [(1, b2n b), (1, 0x80 + b2n lane)] (lockLostOf b lane s) else lockLostNoted b (lockLostOf b lane s)) :=
  congrArg Host.Outcome.next (if_neg (ne_true_of_eq_false (congrArg Bool.not h)))

/-- The state once a back lane has lost lock, before any event of it. -/
def laneLost (b lane : Bool) (s : State) : State :=
  if backLock b (lockLostOf b lane s) then lockLostOf b lane s else lockLostNoted b (lockLostOf b lane s)

theorem laneLost_fit (b lane : Bool) (s : State) : Fit 0x80000 s (laneLost b lane s) :=
  have hlost : Fit 0x80000 s (lockLostOf b lane s) := onPlk_fit (by decide) (Fit.refl _ s)
  Fit.ite (fun _ => hlost) fun _ => onPlk_fit (by decide) hlost

/-- Noting the instant changes no lock. -/
theorem laneLock_laneLost (b lane l : Bool) (s : State) :
    laneLock l (plkOf b (laneLost b lane s)) = laneLock l (setLock lane false (plkOf b s)) := by
  have hlost : plkOf b (lockLostOf b lane s) = setLock lane false (plkOf b s) := plkOf_onPlk_self ..
  unfold laneLost
  split
  · rw [hlost]
  · rw [lockLostNoted, plkOf_onPlk_self, hlost]; rfl

theorem backLock_eq (b : Bool) (s : State) : backLock b s = (laneLock false (plkOf b s) || laneLock true (plkOf b s)) := rfl

theorem backLock_laneLost (b lane : Bool) (s : State) : backLock b (laneLost b lane s) = backLock b (lockLostOf b lane s) := by
  simp only [backLock_eq, laneLock_laneLost, lockLostOf, plkOf_onPlk_self]

theorem exec_backLaneLockLoss_locked {b lane : Bool} {s : State} (h : laneLock lane (plkOf b s) = true)
    (hlock : backLock b (laneLost b lane s) = true) : exec (.backLaneLockLoss b lane) s =
      .next (raise 0xB4 [(1, b2n b), (1, 0x80 + b2n lane)] (laneLost b lane s)) := by
  rw [backLock_laneLost] at hlock
  rw [exec_backLaneLockLoss h, laneLost, if_pos hlock, if_pos hlock]

theorem exec_backLaneLockLoss_none {b lane : Bool} {s : State} (h : laneLock lane (plkOf b s) = true)
    (hlock : backLock b (laneLost b lane s) = false) : exec (.backLaneLockLoss b lane) s = .next (laneLost b lane s) ∧
      (plkOf b (laneLost b lane s)).lockLost = some s.time.ref := by
  rw [backLock_laneLost] at hlock
  rw [exec_backLaneLockLoss h, laneLost, hlock, if_neg Bool.false_ne_true, if_neg Bool.false_ne_true]
  exact ⟨rfl, by rw [lockLostNoted, plkOf_onPlk_self]; rfl⟩

/-! ## A half goes (R227) -/

/-- The head of a half that becomes absent stops while the grid runs, and lets its frames go (R200). -/
def headStopped (b : Bool) (s : State) : State :=
  if s.scn.seg.isSome then letAll b (onHead b (fun h => { h with lit := false, cut := true }) s) else s

/-- The half is absent, its segments crowbarred, its lanes idle and its credits back (R227, R240). -/
def linkGone (b : Bool) (s : State) : State :=
  onPlk b (fun p => { p with present := false, hello := none, flags := 0 })
    (linkIdle b (setTotal (pevtPool b) 8 (raise 0xB2 [(1, b2n b)] (crowbarHalf b (headStopped b s)))))

theorem halfDown_of_present {b : Bool} {s : State} (h : (plkOf b s).present = true) :
    halfDown b s = auditAll (settleLayers (linkCmdHalf b false (endLinkRecov b 1 (linkGone b s)))) := by
  simp only [halfDown, h, Bool.not_true, Bool.false_eq_true, if_false, linkGone, headStopped]

theorem settleLayers_plk (s : State) : (settleLayers s).plk = s.plk :=
  (settleLayers_fit (L := 0x840E02) (by decide) (Fit.refl _ s)).2 .plk rfl

theorem auditAll_plk (s : State) : (auditAll s).plk = s.plk := rfl

theorem plkOf_halfDown {b : Bool} {s : State} (h : (plkOf b s).present = true) :
    plkOf b (halfDown b s) = plkOf b (linkGone b s) := by
  rw [halfDown_of_present h, plkOf_congr b (auditAll_plk _), plkOf_congr b (settleLayers_plk _), plkOf_linkCmdHalf,
    plkOf_congr b (endLinkRecov_plk ..)]

theorem plkOf_linkIdle_up (b : Bool) (s : State) : (plkOf b (linkIdle b s)).up = false := by
  rw [linkIdle, plkOf_congr b (emit_plk ..), plkOf_onPlk_self]

theorem plkOf_linkGone (b : Bool) (s : State) : (plkOf b (linkGone b s)).present = false ∧
    (plkOf b (linkGone b s)).hello = none ∧ (plkOf b (linkGone b s)).up = false := by
  rw [linkGone, plkOf_onPlk_self]
  exact ⟨rfl, rfl, plkOf_linkIdle_up ..⟩

/-- The segment outputs of an absent half are crowbarred (R240). -/
theorem segDead_of_absent {b : Bool} {s : State} (h : (plkOf b s).present = false) : segDead b s = true := by
  cases b <;> exact Bool.or_eq_true_iff.2 (.inr (congrArg Bool.not h))

theorem exec_plkHalfDown {b : Bool} {s : State} (hpres : (plkOf b s).present = true) (hlock : backLock b s = false) :
    exec (.plkHalfDown b) s = .next (halfDown b (advanceRef ((plkOf b s).lockLost.getD 0 + 100000) s)) :=
  congrArg Host.Outcome.next (if_neg (by rw [hpres, hlock]; decide))

/-! ## A half comes (R228) -/

/-- The half is present, with event 0xB3. -/
def linkPresent (b : Bool) (s : State) : State := raise 0xB3 [(1, b2n b)] (onPlk b (fun p => { p with present := true }) s)

/-- A half that is present trains at the class in force while the grid runs, else its model code is judged (R228). -/
def presentTrains (b : Bool) (s : State) : State :=
  if s.scn.seg.isSome then startTrain b (classNow s) false s else judgeModel b s

/-- A field that a call for training keeps is kept as a half becomes present. -/
theorem presentTrains_keeps_field {α : Type} (g : Plk → α) (hg : ∀ rate p, g (trainCalled rate false p) = g p) (b : Bool)
    (s : State) : g (plkOf b (presentTrains b s)) = g (plkOf b s) := by
  unfold presentTrains
  split
  · rw [plkOf_startTrain_self, hg]
  · rw [plkOf_judgeModel]

theorem settlePresence_of_ready {b : Bool} {s : State} (habsent : (plkOf b s).present = false) (hlock : backLock b s = true)
    (hlevel : ((plkOf b s).level || (plkOf b s).masked) = true) (hon : backOn b s = true) :
    settlePresence b s = auditAll (settleLayers (presentTrains b (linkPresent b s))) :=
  if_neg (by rw [habsent, hlock, hlevel, hon]; decide)

theorem plkOf_settlePresence {b : Bool} {s : State} (habsent : (plkOf b s).present = false) (hlock : backLock b s = true)
    (hlevel : ((plkOf b s).level || (plkOf b s).masked) = true) (hon : backOn b s = true) :
    plkOf b (settlePresence b s) = plkOf b (presentTrains b (linkPresent b s)) := by
  rw [settlePresence_of_ready habsent hlock hlevel hon, plkOf_congr b (auditAll_plk _), plkOf_congr b (settleLayers_plk _)]

theorem plkOf_linkPresent (b : Bool) (s : State) : plkOf b (linkPresent b s) = { plkOf b s with present := true } := by
  rw [linkPresent, plkOf_congr b (raise_plk ..), plkOf_onPlk_self]

theorem backLock_of_laneLock {b lane : Bool} {s : State} (h : laneLock lane (plkOf b s) = true) : backLock b s = true := by
  cases lane
  · exact Bool.or_eq_true_iff.2 (.inl h)
  · exact Bool.or_eq_true_iff.2 (.inr h)

/-- A back lane of a half gains block lock. -/
def lockGained (b lane : Bool) (s : State) : State := onPlk b (setLock lane true) s

theorem laneLock_lockGained (b lane : Bool) (s : State) : laneLock lane (plkOf b (lockGained b lane s)) = true := by
  rw [lockGained, plkOf_onPlk_self, laneLock_setLock_self]

theorem exec_plkHalfPresent {b : Bool} (lane : Bool) {s : State} (hon : backOn b s = true) :
    exec (.plkHalfPresent b lane) s = .next (settlePresence b (lockGained b lane s)) :=
  congrArg Host.Outcome.next (if_neg (by rw [hon]; decide))

/-- A half whose presence stands, or is masked, becomes present with the lock of a back lane (R228). -/
theorem settlePresence_lockGained {b : Bool} (lane : Bool) {s : State} (hon : backOn b s = true)
    (habsent : (plkOf b s).present = false) (hlevel : ((plkOf b s).level || (plkOf b s).masked) = true) :
    (plkOf b (settlePresence b (lockGained b lane s))).present = true ∧
      laneLock lane (plkOf b (settlePresence b (lockGained b lane s))) = true := by
  have hfields : plkOf b (lockGained b lane s) = setLock lane true (plkOf b s) := plkOf_onPlk_self ..
  have hlock : laneLock lane (plkOf b (lockGained b lane s)) = true := laneLock_lockGained b lane s
  rw [plkOf_settlePresence (by rw [hfields]; cases lane <;> exact habsent) (backLock_of_laneLock hlock)
    (by rw [hfields]; cases lane <;> exact hlevel) hon]
  constructor
  · rw [presentTrains_keeps_field Plk.present (fun _ _ => rfl), plkOf_linkPresent]
  · rw [presentTrains_keeps_field (laneLock lane) (fun _ _ => rfl), plkOf_linkPresent]
    exact hlock

/-! ## Rows (R208, R217) -/

theorem rowPacket_mem_sendRow (b : Bool) (j : RowJob) (s : State) :
    .rowPacket b j.star j.q (plkOf b s).seq j.row j.data ∈ (sendRow b j s).out := by
  rw [sendRow, move_out]
  exact mem_out_emit ..

theorem sendRow_seq (b : Bool) (j : RowJob) (s : State) : (plkOf b (sendRow b j s)).seq = ((plkOf b s).seq + 1) % 65536 := by
  rw [sendRow, plkOf_congr b (move_plk ..), plkOf_congr b (emit_plk ..), plkOf_onPlk_self]

theorem sendRow_fit_link (b : Bool) (j : RowJob) (s : State) : Fit 0x80202 s (sendRow b j s) :=
  move_fit (by decide) (emit_fit_of_not_host rfl (by decide) (onPlk_fit (by decide) (Fit.refl _ s)))

/-! ## The clauses of `LinkTimers` -/

/-- Settles O43: each timer and each happening is one update of the half's link, at its instant, before what follows from it. -/
theorem linkTimers : Obligations.LinkTimers := by
  refine ⟨?_, ?_, ?_, ?_, ?_, ?_, ?_, ?_, ?_, ?_, ?_, ?_⟩
  · intro b s hmay
    obtain ⟨t, ht⟩ := train_of_mayTrain hmay
    refine ⟨_, attemptBegun s.time.ref t, exec_trainingAttempt hmay, ?_⟩
    rw [beginAttempt_of_train ht, plkOf_congr b (emit_plk ..), putTrain_train]
    exact ⟨rfl, rfl, rfl, rfl, mem_out_emit .., (emit_fit_of_not_host (L := 0x80202) rfl (by decide)
      (putTrain_fit (by decide) _ _ (reclaim_fit (by decide) (Fit.refl _ s)))).keeps (by decide)⟩
  · intro b s t r ht hr
    exact ⟨_, exec_trainingAttemptTimeout ht hr, le_ref_advanceRef ..,
      (advanceRef_fit (L := 0x20) (by decide) (Fit.refl _ s)).keeps (by decide)⟩
  · intro b s t ht hmore
    rw [failAttempt_of_more ht hmore, putTrain_train]
    exact ⟨_, rfl, rfl, rfl, rfl, (putTrain_fit (L := 0x80000) (by decide) _ _ (Fit.refl _ s)).keeps (by decide)⟩
  · intro b s t r ht hr
    exact ⟨_, exec_trainingRetry ht hr, le_ref_advanceRef ..,
      by rw [retryDue, plkOf_congr b (advanceRef_plk ..), putTrain_train],
      (advanceRef_fit (L := 0x80020) (by decide) (putTrain_fit (by decide) _ _ (Fit.refl _ s))).keeps (by decide)⟩
  · intro b s k hk
    exact ⟨_, exec_plkAckTimeout hk, le_merNs_packetTimedOut b k s, fun x => timedOut_of_mem,
      (packetTimedOut_fit b k s).keeps (by decide)⟩
  · rintro b level stable s t hused hlevel hb rfl hstable
    obtain ⟨hnow, hedge⟩ := plkOf_levelAccepted b level s
    exact ⟨_, exec_panelPresChange hused hlevel hb hstable, hnow, hedge, le_ref_levelAccepted b level s,
      (levelAccepted_fit b level s).keeps (by decide)⟩
  · intro b s hlevel hused hlock hon
    exact ⟨_, exec_plkPresStuck hlevel hused hlock hon, by rw [presenceMasked, plkOf_onPlk_self], le_ref_presenceMasked b s,
      (onPlk_fit (L := 0x80020) (by decide) (advanceRef_fit (by decide) (Fit.refl _ s))).keeps (by decide)⟩
  · intro b lane s hlock
    refine ⟨laneLost b lane s, (laneLost_fit b lane s).keeps (by decide), ?_, ?_, exec_backLaneLockLoss_locked hlock,
      exec_backLaneLockLoss_none hlock⟩
    · exact (laneLock_laneLost b lane lane s).trans (laneLock_setLock_self ..)
    · have hother := (laneLock_laneLost b lane (!lane) s).trans (laneLock_setLock_other ..)
      cases lane <;> exact hother
  · intro b s hpres hlock
    exact ⟨_, exec_plkHalfDown hpres hlock, le_ref_advanceRef ..,
      (advanceRef_fit (L := 0x20) (by decide) (Fit.refl _ s)).keeps (by decide)⟩
  · intro b s hpres
    obtain ⟨habsent, hhello, hup⟩ := plkOf_linkGone b s
    have hlink := plkOf_halfDown hpres
    exact ⟨by rw [hlink, habsent], by rw [hlink, hhello], by rw [hlink, hup], segDead_of_absent (by rw [hlink, habsent]),
      (halfDown_fit (L := 0x9D0E02) (by decide) (Fit.refl _ s)).keeps (by decide)⟩
  · intro b lane s hon habsent hlevel
    obtain ⟨hpres, hlock⟩ := settlePresence_lockGained lane hon habsent hlevel
    have hexec := exec_plkHalfPresent lane hon
    exact ⟨_, hexec, hpres, hlock,
      (execPlkHalfPresent_fit (L := 0x8C0E02) (by decide) (Fit.refl _ s) _ hexec).keeps (by decide)⟩
  · intro b j s
    exact ⟨rowPacket_mem_sendRow b j s, sendRow_seq b j s, (sendRow_fit_link b j s).keeps (by decide)⟩

end Sys2Proof.Machine
end

section
/-! PROOFS. The steering drive: thermistor samples (R245, R246), settling (R253, R254), the carrier and the commons (R236 to R239),
discharge and rest (R242, R256), and its commands (R260, R261). -/

namespace Sys2Proof.Machine

/-! ## What a sample leaves in place -/

/-- The last sample, its code, temperature, fault and instant, stands as it was. -/
def SameSample (s t : State) : Prop :=
  t.std.code = s.std.code ∧ t.std.temp = s.std.temp ∧ t.std.fault = s.std.fault ∧ t.std.lastSample = s.std.lastSample

theorem SameSample.refl (s : State) : SameSample s s := ⟨rfl, rfl, rfl, rfl⟩

theorem SameSample.trans {s t u : State} (h : SameSample s t) (k : SameSample t u) : SameSample s u := by
  obtain ⟨hcode, htemp, hfault, hlast⟩ := h
  obtain ⟨kcode, ktemp, kfault, klast⟩ := k
  exact ⟨kcode.trans hcode, ktemp.trans htemp, kfault.trans hfault, klast.trans hlast⟩

theorem applyBand_sameSample (b k : Nat) (s : State) : SameSample s (applyBand b k s) := by simp [SameSample, applyBand]

theorem bandSample_sameSample (t : Int) (s : State) : SameSample s (bandSample t s) := by
  unfold bandSample
  split
  · exact .refl s
  · split
    · exact applyBand_sameSample ..
    · split
      · exact ⟨rfl, rfl, rfl, rfl⟩
      · dsimp only
        split
        · exact ⟨rfl, rfl, rfl, rfl⟩
        · split
          · exact ⟨rfl, rfl, rfl, rfl⟩
          · refine SameSample.trans ?_ (applyBand_sameSample ..)
            exact ⟨rfl, rfl, rfl, rfl⟩

@[simp] theorem stepDown_std (cause : Nat) (target : Option Nat) (from_ : Nat) (s : State) :
    (stepDown cause target from_ s).std = s.std :=
  (stepDown_fit (L := 0x6A00F42) (by decide) (Fit.refl _ s)).2 .std rfl

/-- A settle limit that would be broken is only noted in the steering state (R252). -/
theorem settleCheck_std (s : State) : ∃ said, (settleCheck s).std = { s.std with limitSaid := said } := by
  unfold settleCheck
  split
  · exact ⟨s.std.limitSaid, rfl⟩
  · exact ⟨true, by simp⟩

theorem settleCheck_sameSample (s : State) : SameSample s (settleCheck s) := by
  obtain ⟨said, h⟩ := settleCheck_std s
  rw [SameSample, h]
  exact ⟨rfl, rfl, rfl, rfl⟩

/-! ## The thermistor (R245, R246) -/

/-- A sample is faulty: its code says so (R245), or the reference test of the thermistor has failed (R492). -/
def sampleBad (n : Nat) (s : State) : Bool := thermBad n || s.bst.adcBad

/-- The temperature a sample counts as on panel `p` (R245). -/
def sampleTemp (n : Nat) (p : PanelDesc) (s : State) : Int :=
  if sampleBad n s then (bandRow s 0).low else thermTemp p n + s.std.offset

theorem bandRow_congr {s t : State} (h : t.pnl = s.pnl) (i : Nat) : bandRow t i = bandRow s i := by rw [bandRow, h, bandRow]

theorem thermSample_code (n : Nat) (s : State) :
    (thermSample n s).std.code = n ∧ (thermSample n s).std.lastSample = s.time.ref := by
  unfold thermSample
  split
  · exact ⟨rfl, rfl⟩
  · obtain ⟨hcode, -, -, hlast⟩ := bandSample_sameSample _ _
    exact ⟨hcode, hlast.trans (congrArg TimeSt.ref (raiseIf_time ..))⟩

theorem thermSample_temp {n : Nat} {s : State} {p : PanelDesc} (hp : s.pnl.desc = some p) :
    (thermSample n s).std.fault = sampleBad n s ∧ (thermSample n s).std.temp = sampleTemp n p s := by
  unfold thermSample
  rw [hp]
  obtain ⟨-, htemp, hfault, -⟩ := bandSample_sameSample _ _
  exact ⟨hfault, htemp⟩

@[simp] theorem takeTherm_time (code : BitVec 12) (s : State) : (takeTherm code s).time = s.time :=
  (takeTherm_fit (L := 0x6B00F42) (by decide) (Fit.refl _ s)).2 .time rfl

/-- A sample keeps its code and its instant (R246). -/
theorem takeTherm_code (code : BitVec 12) (s : State) :
    (takeTherm code s).std.code = code.toNat ∧ (takeTherm code s).std.lastSample = s.time.ref := by
  obtain ⟨hcode, -, -, hlast⟩ := settleCheck_sameSample (thermSample code.toNat s)
  obtain ⟨kcode, klast⟩ := thermSample_code code.toNat s
  exact ⟨hcode.trans kcode, hlast.trans klast⟩

theorem takeTherm_temp {code : BitVec 12} {s : State} {p : PanelDesc} (hp : s.pnl.desc = some p) :
    (takeTherm code s).std.fault = sampleBad code.toNat s ∧ (takeTherm code s).std.temp = sampleTemp code.toNat p s := by
  obtain ⟨-, htemp, hfault, -⟩ := settleCheck_sameSample (thermSample code.toNat s)
  obtain ⟨kfault, ktemp⟩ := thermSample_temp (n := code.toNat) hp
  exact ⟨hfault.trans kfault, htemp.trans ktemp⟩

/-- A bad code counts as a fault at T_LOW of band 0 (R245). -/
theorem takeTherm_of_bad {code : BitVec 12} {s : State} (hdesc : s.pnl.desc.isSome = true) (hbad : thermBad code.toNat = true) :
    (takeTherm code s).std.fault = true ∧ (takeTherm code s).std.temp = (bandRow s 0).low := by
  obtain ⟨p, hp⟩ := Option.isSome_iff_exists.1 hdesc
  have hb : sampleBad code.toNat s = true := by rw [sampleBad, hbad, Bool.true_or]
  obtain ⟨hfault, htemp⟩ := takeTherm_temp (code := code) hp
  exact ⟨hfault.trans hb, htemp.trans (if_pos hb)⟩

theorem takeTherm_of_good {code : BitVec 12} {s : State} {p : PanelDesc} (hp : s.pnl.desc = some p)
    (hgood : thermBad code.toNat = false) (hadc : s.bst.adcBad = false) :
    (takeTherm code s).std.fault = false ∧ (takeTherm code s).std.temp = thermTemp p code.toNat + s.std.offset := by
  have hb : sampleBad code.toNat s = false := by rw [sampleBad, hgood, hadc, Bool.or_false]
  obtain ⟨hfault, htemp⟩ := takeTherm_temp (code := code) hp
  exact ⟨hfault.trans hb, htemp.trans (if_neg (by rw [hb]; decide))⟩

/-- The instant of the next sample in Dawn, 100 ms after the last one (R246). -/
def dawnSampleDue (s : State) : State := advanceRef (s.std.lastSample + 100000000) s

theorem le_ref_dawnSampleDue (s : State) : s.std.lastSample + 100000000 ≤ (dawnSampleDue s).time.ref := le_ref_advanceRef ..

theorem exec_thermistorSample_dawn {code : BitVec 12} {s : State} (hm : mainOn s = true) (hdawn : s.mode.mode = .dawn) :
    exec (.thermistorSample code) s = .next (takeTherm code (dawnSampleDue s)) := by
  change execThermistorSample code s = _
  simp only [execThermistorSample, ok, hm, hdawn, Bool.not_true, Bool.false_eq_true, if_false, if_true]
  rfl

theorem exec_thermistorSample_frame {code : BitVec 12} {s : State} {t : Nat} (hm : mainOn s = true) (hdawn : s.mode.mode ≠ .dawn)
    (hdue : thermDue 4 (merNs s + 1000001) s = some t) :
    exec (.thermistorSample code) s = .next (takeTherm code (advanceMer t s)) := by
  change execThermistorSample code s = _
  simp only [execThermistorSample, ok, hm, hdawn, hdue, Bool.not_true, Bool.false_eq_true, if_false]

/-! ## Settle misses (R253, R254) -/

/-- Band `b` has missed its settle deadline (R253). -/
def missNoted (e : EdgeSt) (b : Nat) (s : State) : State :=
  onStd (fun d => { d with
    edges := d.edges.modify b (fun x => { x with settled := true }), missPair := d.missPair + 1, misses := d.misses + 1 })
    (advanceMer e.deadline s)

/-- The miss is told with event 0xC2 (R253). -/
def missSaid (e : EdgeSt) (b : Nat) (s : State) : State := raise 0xC2 [(1, b), (8, e.m)] (missNoted e b s)

/-- A settle step waits for the next pair boundary (R254). -/
def stepAdded (s : State) : State := onStd (fun d => { d with stepNext := true }) s

theorem stepAdded_std (s : State) :
    (stepAdded s).std.stepNext = true ∧ (stepAdded s).std.missPair = s.std.missPair := ⟨rfl, rfl⟩

theorem missNoted_std (e : EdgeSt) (b : Nat) (s : State) :
    (missNoted e b s).std.misses = s.std.misses + 1 ∧ (missNoted e b s).std.missPair = s.std.missPair + 1 := by
  rw [missNoted, onStd_std, advanceMer_std]; exact ⟨rfl, rfl⟩

theorem le_merNs_missNoted (e : EdgeSt) (b : Nat) (s : State) : e.deadline ≤ merNs (missNoted e b s) :=
  le_merNs_of_time (onStd_time ..)

theorem missSaid_missPair (e : EdgeSt) (b : Nat) (s : State) : (missSaid e b s).std.missPair = s.std.missPair + 1 := by
  rw [missSaid, raise_std]; exact (missNoted_std e b s).2

theorem missSaid_par (e : EdgeSt) (b : Nat) (s : State) : (missSaid e b s).par = s.par :=
  (raise_par ..).trans ((onStd_par ..).trans (advanceMer_par ..))

theorem missNoted_fit (e : EdgeSt) (b : Nat) (s : State) : Fit 0x100020 s (missNoted e b s) :=
  onStd_fit (by decide) (advanceMer_fit (by decide) (Fit.refl _ s))

theorem exec_stdSettleMiss {s : State} {e : EdgeSt} {b : Nat} (hpow : s.std.powered = true) (hnext : nextMiss s = some (e, b)) :
    exec .stdSettleMiss s = .next (if s.std.missPair + 1 = pv s 0x0F02
      then settleCheck (raise 0xC9 [] (stepAdded (missSaid e b s))) else missSaid e b s) := by
  change execStdSettleMiss s = _
  rw [← missSaid_missPair e b s, ← pv_congr (missSaid_par e b s)]
  simp only [execStdSettleMiss, ok, hpow, if_true, hnext]
  rfl

/-! ## The carrier (R237, R242) -/

/-- Two states that differ at most in the accumulators and the instant up to which they have been integrated. -/
def AccLike (s t : State) : Prop := ∃ acc at_, t = onStd (fun d => { d with acc := acc, accAt := at_ }) s

theorem AccLike.refl (s : State) : AccLike s s := ⟨s.std.acc, s.std.accAt, rfl⟩

theorem AccLike.trans {s t u : State} (h : AccLike s t) (k : AccLike t u) : AccLike s u := by
  obtain ⟨_, _, rfl⟩ := h
  obtain ⟨acc, at_, rfl⟩ := k
  exact ⟨acc, at_, rfl⟩

/-- What is read from neither the accumulators nor their instant is the same. -/
theorem AccLike.read {α : Type} (g : State → α) {s t : State} (h : AccLike s t)
    (hg : ∀ acc at_ x, g (onStd (fun d => { d with acc := acc, accAt := at_ }) x) = g x) : g t = g s := by
  obtain ⟨acc, at_, rfl⟩ := h
  exact hg acc at_ s

theorem stdIntegrate_accLike (t : Nat) (s : State) : AccLike s (stdIntegrate t s) := by
  unfold stdIntegrate
  split
  · exact .refl s
  · exact ⟨_, _, rfl⟩

theorem trimEdge_accLike (t : Nat) (s : State) (i : Nat) : AccLike s (trimEdge t s i) := by
  unfold trimEdge
  dsimp only
  split
  · exact ⟨_, s.std.accAt, rfl⟩
  · exact .refl s

theorem AccLike.foldl {f : State → Nat → State} (hf : ∀ s i, AccLike s (f s i)) (l : List Nat) (s : State) :
    AccLike s (l.foldl f s) :=
  List.foldlRecOn l f (AccLike.refl s) (fun x hx i _ => hx.trans (hf x i))

/-- The instant of the next edge of the carrier (R237), the edges of a subframe numbered from 1 (DESIGN CHOICE, log entry 45). -/
def edgeInstant (s : State) : Nat := s.std.subAt + s.std.edge * (carrierNs s / 2)

/-- The accumulators and their trims are brought to an edge of the carrier (R242, R243). -/
def edgeReached (s : State) : State :=
  (List.range 72).foldl (trimEdge (edgeInstant s)) (stdIntegrate (edgeInstant s) (advanceMer (edgeInstant s) s))

theorem edgeReached_accLike (s : State) : AccLike (advanceMer (edgeInstant s) s) (edgeReached s) :=
  (stdIntegrate_accLike ..).trans (.foldl (trimEdge_accLike _) ..)

theorem edgeReached_edge (s : State) : (edgeReached s).std.edge = s.std.edge :=
  ((edgeReached_accLike s).read (fun x => x.std.edge) (fun _ _ _ => rfl)).trans (by rw [advanceMer_std])

theorem edgeReached_time (s : State) : (edgeReached s).time = (advanceMer (edgeInstant s) s).time :=
  (edgeReached_accLike s).read State.time (fun _ _ _ => rfl)

/-- What an edge at `t` makes of the bookkeeping of an output (R253, R255). -/
def edgeStep (charges : List Nat) (t : Nat) (s : State) (x : EdgeSt × Nat) : EdgeSt :=
  let e := if x.2 < bandsN s then settleEdge (pv s 0x0F01) t (charges.getD x.2 0) x.1 else x.1
  { e with peak := max e.peak (charges.getD x.2 0) }

/-- The edge has passed: the next one is due. -/
def edgePassed (charges : List Nat) (t : Nat) (s : State) : State :=
  onStd (fun d => { d with edges := d.edges.zipIdx.map (edgeStep charges t s), edge := d.edge + 1 }) s

theorem edgePassed_edge (charges : List Nat) (t : Nat) (s : State) : (edgePassed charges t s).std.edge = s.std.edge + 1 := rfl

theorem edgePassed_time (charges : List Nat) (t : Nat) (s : State) : (edgePassed charges t s).time = s.time := rfl

theorem exec_carrierEdge {charges : List Nat} {s : State} {u : Sub} (hcur : s.scn.cur = some u) (hpow : s.std.powered = true)
    (hin : edgeInstant s < (nextSub u s).at_) :
    exec (.carrierEdge charges) s = .next (edgePassed charges (edgeInstant s) (edgeReached s)) := by
  have hnot : ¬ ((!s.std.powered || decide ((nextSub u s).at_ ≤ edgeInstant s)) = true) := by
    simp only [hpow, Bool.not_true, Bool.false_or, decide_eq_true_eq]; omega
  change execCarrierEdge charges s = _
  unfold execCarrierEdge
  rw [hcur]
  exact congrArg Host.Outcome.next (if_neg hnot)

/-! ## The switch of a common (R238, R239) -/

@[simp] theorem setDrive_level (i : Nat) (o : OutDrive) (s : State) : (setDrive i o s).std.level = s.std.level.set i o := by
  rw [setDrive, emit_std]; rfl

/-- Driving a segment group leaves the levels of the commons (R233). -/
theorem driveSegs_level_of_common {b : Nat} (hb : b < 64) (p : Nat) (v : Int) (s : State) :
    (driveSegs p v s).std.level[b]? = s.std.level[b]? := by
  have hone : ∀ (half : Bool) (o : OutDrive) (x : State),
      (if segDead half x then x else setDrive (segOut half p) o x).std.level[b]? = x.std.level[b]? := by
    intro half o x
    split
    · rfl
    · rw [setDrive_level, List.getElem?_set_ne (by simp only [segOut]; omega)]
  exact (hone true ..).trans (hone false ..)

/-- The drive a common takes as it switches at `t` (R238, R239). -/
def bandDrive (u : Sub) (t : Nat) (s : State) : OutDrive :=
  if phasesN s < 2 then ⟨withSign (groupNeg s u.seg.nq u.k u.q) (3 * odCode s), t + odTimeNs s,
    withSign (groupNeg s u.seg.nq u.k u.q) (3 * ampCode s)⟩
  else ⟨withSign (groupNeg s u.seg.nq u.k u.q) (3 * (odCode s : Int) - 2 * ampCode s), t + odTimeNs s,
    withSign (groupNeg s u.seg.nq u.k u.q) (ampCode s)⟩

theorem bandDrive_hold (u : Sub) (t : Nat) (s : State) : (bandDrive u t s).hold =
    withSign (groupNeg s u.seg.nq u.k u.q) (if phasesN s < 2 then 3 * (ampCode s : Int) else ampCode s) := by
  unfold bandDrive
  split <;> rfl

/-- Common `b` has switched at `t` (R238, R239). -/
def bandSwitched (u : Sub) (b t : Nat) (s : State) : State :=
  onStd (fun d => { d with edges := d.edges.modify b (fun x => { x with
    settled := false, since := t + odTimeNs s,
    deadline := t + settleNow (setDrive b (bandDrive u t s) s) * 1000 + carrierNs (setDrive b (bandDrive u t s) s) / 2
    m := u.m }) })
    (setDrive b (bandDrive u t s) s)

/-- At the last common the segment group of the subframe before returns to 0 V (R238). -/
def segsReturned (u : Sub) (b : Nat) (s : State) : State :=
  match s.scn.prev with
  | some v => if b + 1 = bandsN s ∧ 2 ≤ phasesN s ∧ phaseOf s v.q ≠ phaseOf s u.q then driveSegs (phaseOf s v.q) 0 s else s
  | none => s

theorem segsReturned_level_of_common {i : Nat} (hi : i < 64) (u : Sub) (b : Nat) (s : State) :
    (segsReturned u b s).std.level[i]? = s.std.level[i]? := by
  unfold segsReturned
  split
  · split
    · exact driveSegs_level_of_common hi ..
    · rfl
  · rfl

theorem stdBand_of_powered {u : Sub} {b t : Nat} {s : State} (hpow : s.std.powered = true) :
    stdBand u b t s = segsReturned u b (bandSwitched u b t (stdIntegrate t s)) :=
  if_neg (by rw [hpow]; decide)

theorem bandSwitched_level (u : Sub) (b t : Nat) (s : State) :
    (bandSwitched u b t s).std.level = s.std.level.set b (bandDrive u t s) :=
  setDrive_level ..

theorem stdIntegrate_level (t : Nat) (s : State) : (stdIntegrate t s).std.level = s.std.level :=
  (stdIntegrate_accLike t s).read (fun x => x.std.level) (fun _ _ _ => rfl)

/-- The common that switches takes its drive. -/
theorem stdBand_level_self {u : Sub} {b t : Nat} {s : State} (hpow : s.std.powered = true) (hlen : b < s.std.level.length)
    (hb : b < 64) : (stdBand u b t s).std.level[b]? = some (bandDrive u t (stdIntegrate t s)) := by
  rw [stdBand_of_powered hpow, segsReturned_level_of_common hb, bandSwitched_level, stdIntegrate_level,
    List.getElem?_set_self hlen]

theorem bandDrive_hold_stdIntegrate (u : Sub) (t : Nat) (s : State) : (bandDrive u t (stdIntegrate t s)).hold =
    withSign (groupNeg s u.seg.nq u.k u.q) (if phasesN s < 2 then 3 * (ampCode s : Int) else ampCode s) := by
  rw [bandDrive_hold]
  exact (stdIntegrate_accLike t s).read (fun x => withSign (groupNeg x u.seg.nq u.k u.q)
    (if phasesN x < 2 then 3 * (ampCode x : Int) else ampCode x)) (fun _ _ _ => rfl)

/-! ## Discharge and rest (R242, R256) -/

/-- The layer stops being powered, before a qualified band applies (R256). -/
def driveEnded (s : State) : State :=
  pApply 2 (onStd (fun d => { d with
    powered := false, discharge := some (stdQuiet (stdIntegrate (merNs s) s)).time.ref, steps := 0, stepNext := false,
    missPair := 0, limitSaid := false, lock := (match d.wait with | some w => w.lock | none => d.lock),
    trim := (match d.wait with | some w => w.trim | none => d.trim), wait := none }) (stdQuiet (stdIntegrate (merNs s) s)))

@[simp] theorem pApply_std (eff : Nat) (s : State) : (pApply eff s).std = s.std :=
  (pApply_fit (L := 0x18) (by decide) (Fit.refl _ s)).2 .std rfl

/-- What the application of a band leaves of the steering state, a discharge leaves as the end of the drive made it. -/
theorem stdDischarge_read {α : Type} (g : StdSt → α) (hg : ∀ d b,
    g { d with band := some b, qual := none, steps := 0, stepNext := false, limitSaid := false } = g d) {s : State}
    (hpow : s.std.powered = true) : g (stdDischarge s).std = g (driveEnded s).std := by
  unfold stdDischarge
  rw [if_neg (by rw [hpow]; decide)]
  dsimp only
  split
  · rw [applyBand, raise_std]
    exact hg ..
  · rfl

theorem driveEnded_std (s : State) : (driveEnded s).std.powered = false ∧ (driveEnded s).std.discharge = some s.time.ref ∧
    (driveEnded s).std.level = List.replicate 72 {} := by
  have htime : (stdQuiet (stdIntegrate (merNs s) s)).time = s.time :=
    (stdIntegrate_accLike (merNs s) s).read State.time (fun _ _ _ => rfl)
  rw [driveEnded, pApply_std, htime]
  exact ⟨rfl, rfl, rfl⟩

/-- The crowbar closes 50 µs into the discharge that began at `r` (R256). -/
def crowbarClosed (r : Nat) (s : State) : State :=
  emit (.crowbar true)
    (onStd (fun d => { d with closedAt := some (advanceRef (r + 50000) s).time.ref }) (advanceRef (r + 50000) s))

theorem crowbarClosed_time (r : Nat) (s : State) : (crowbarClosed r s).time = (advanceRef (r + 50000) s).time :=
  (emit_time ..).trans (onStd_time ..)

theorem crowbarClosed_closedAt (r : Nat) (s : State) :
    (crowbarClosed r s).std.closedAt = some (crowbarClosed r s).time.ref := by
  rw [crowbarClosed_time, crowbarClosed, emit_std]; rfl

theorem exec_crowbarClose {s : State} {r : Nat} (hdis : s.std.discharge = some r) (hopen : s.std.closedAt = none) :
    exec .crowbarClose s = .next (crowbarClosed r s) := by
  simp only [exec, execCrowbarClose, ok, hdis, hopen]
  rfl

/-- The discharge that began at `r` ends, 2 ms after its start (R256; DESIGN CHOICE, log entry 45). -/
def dischargeEnded (r : Nat) (s : State) : State := onStd (fun d => { d with discharge := none }) (advanceRef (r + 2000000) s)

theorem le_ref_dischargeEnded (r : Nat) (s : State) : r + 2000000 ≤ (dischargeEnded r s).time.ref := by
  rw [dischargeEnded, onStd_time]; exact le_ref_advanceRef ..

theorem exec_stdDischarged {s : State} {r c : Nat} (hdis : s.std.discharge = some r) (hclosed : s.std.closedAt = some c) :
    exec .stdDischarged s = .next (raise 0xC5 [] (dischargeEnded r s)) := by
  simp only [exec, execStdDischarged, ok, hdis, hclosed]
  rfl

/-- The instant at which the crowbar, closed since `c`, has been closed for STD_REST (R242). -/
def restInstant (c : Nat) (s : State) : Nat := c + pv s 0x0F03 * 1000000

/-- The accumulators are clear and new pairs may start (R242, R244). -/
def rested (s : State) : State :=
  onStd (fun d => { d with rest := false }) (onStd (fun d => { d with acc := List.replicate 72 0 }) s)

theorem rested_time (s : State) : (rested s).time = s.time := rfl

theorem stdRest_of_rested {c : Nat} {s : State} (hclosed : s.std.closedAt = some c) (hby : restInstant c s ≤ s.time.ref) :
    stdRest s = onStd (fun d => { d with acc := List.replicate 72 0 }) s := by
  simp only [stdRest, hclosed]
  exact if_pos hby

theorem exec_stdRestExpiry {s : State} {c : Nat} (hclosed : s.std.closedAt = some c) (hm : mainOn s = true) :
    exec .stdRestExpiry s = .next (rested (advanceRef (restInstant c s) s)) := by
  have hat : restInstant c (advanceRef (restInstant c s) s) = restInstant c s := by
    rw [restInstant, pv_congr (advanceRef_par ..), restInstant]
  have hrest := stdRest_of_rested (s := advanceRef (restInstant c s) s) (by rw [advanceRef_std, hclosed])
    (Nat.le_trans (Nat.le_of_eq hat) (le_ref_advanceRef ..))
  simp only [exec, execStdRestExpiry, ok, hclosed, hm, Bool.not_true, Bool.false_eq_true, if_false]
  exact congrArg (fun x => Host.Outcome.next (onStd (fun d => { d with rest := false }) x)) hrest

theorem exec_holdupCharged {s : State} (hon : s.mode.mode ≠ .dormant) :
    exec .holdupCharged s = .next { s with std := { s.std with charged := true } } :=
  congrArg Host.Outcome.next (if_neg hon)

/-! ## STEER_CFG and STEER_STATUS (R260, R261) -/

theorem taken_std_of_pre_id {r : Row} (hpre : r.pre = id) (s : State) : (taken r s).std = s.std :=
  taken_std r s (fun _ => by rw [hpre]; rfl)

/-- The offset of STEER_CFG, which applies at once (R260). -/
def offsetSet (p : SteerCfgP) (s : State) : State := onStd (fun d => { d with offset := signed 16 p.offset.toNat }) s

/-- The settings of STEER_CFG are in force, and the settle steps are clear (R260; DESIGN CHOICE, log entry 45). -/
def steerApplied (p : SteerCfgP) (s : State) : State :=
  onStd (fun d => { d with lock := lockAsked p, trim := signed 16 p.trim.toNat, wait := none, steps := 0, stepNext := false })
    (offsetSet p s)

/-- The settings of STEER_CFG wait for the next pair (R260). -/
def steerWaiting (p : SteerCfgP) (s : State) : State :=
  onStd (fun d => { d with wait := some ⟨lockAsked p, signed 16 p.trim.toNat⟩ }) (offsetSet p s)

theorem steerApplied_fit (p : SteerCfgP) {s x : State} (h : Fit 0x900600 s x) : Fit 0x900600 s (steerApplied p x) :=
  onStd_fit (by decide) (onStd_fit (by decide) h)

theorem steerWaiting_fit (p : SteerCfgP) {s x : State} (h : Fit 0x900600 s x) : Fit 0x900600 s (steerWaiting p x) :=
  onStd_fit (by decide) (onStd_fit (by decide) h)

/-- Settings that wait leave those in force (R260). -/
theorem steerWaiting_in_force (p : SteerCfgP) (s : State) :
    (steerWaiting p s).std.lock = s.std.lock ∧ (steerWaiting p s).std.trim = s.std.trim := ⟨rfl, rfl⟩

theorem exec_steerCfg_of_unpowered {h : Hdr} {p : SteerCfgP} {s : State} (hpow : s.std.powered = false)
    (hs : served (rowSteerCfg h p) s = true) : exec (.steerCfg h p) s =
      .next (finish h 0x0408 (okay 0xFFFFFFFF) (steerApplied p (taken (rowSteerCfg h p) s))) := by
  have hoff : ¬ ((offsetSet p (taken (rowSteerCfg h p) s)).std.powered = true) := by
    rw [offsetSet, onStd_std, taken_std_of_pre_id rfl, hpow]; decide
  exact congrArg Host.Outcome.next ((command_of_served hs).trans (if_neg hoff))

theorem exec_steerCfg_of_powered {h : Hdr} {p : SteerCfgP} {s : State} (hpow : s.std.powered = true)
    (hs : served (rowSteerCfg h p) s = true) : exec (.steerCfg h p) s =
      .next (finish h 0x0408 (okay (nextPairFrame (settleCheck (steerWaiting p (taken (rowSteerCfg h p) s))) % 2 ^ 32))
        (settleCheck (steerWaiting p (taken (rowSteerCfg h p) s)))) := by
  have hon : (offsetSet p (taken (rowSteerCfg h p) s)).std.powered = true := by
    rw [offsetSet, onStd_std, taken_std_of_pre_id rfl, hpow]
  exact congrArg Host.Outcome.next ((command_of_served hs).trans (if_pos hon))

theorem exec_steerStatus {h : Hdr} {code : BitVec 12} {s : State} (hs : served (rowSteerStatus h code) s = true) :
    exec (.steerStatus h code) s = .next (finish h 0x0409 (steerWords (taken (rowSteerStatus h code) s))
      (taken (rowSteerStatus h code) s)) :=
  congrArg Host.Outcome.next (command_of_served hs)

/-! ## The clauses of `Steering` -/

/-- Settles O41: each happening is one update of the steering state at its instant, and each command reads or sets it on arrival. -/
theorem steering : Obligations.Steering := by
  refine ⟨⟨?_, ?_, ?_, ?_, ?_⟩, ⟨?_, ?_, ?_, ?_, ?_, ?_⟩, ?_, ?_, ?_⟩
  · intro code s hm hdawn
    obtain ⟨hcode, hlast⟩ := takeTherm_code code (dawnSampleDue s)
    have hpnl : (dawnSampleDue s).pnl = s.pnl := advanceRef_pnl ..
    refine ⟨_, exec_thermistorSample_dawn hm hdawn, ?_, hcode, by rw [hlast, takeTherm_time], ?_, ?_⟩
    · rw [takeTherm_time]; exact le_ref_dawnSampleDue s
    · intro hdesc hbad
      rw [← bandRow_congr hpnl]
      exact takeTherm_of_bad (by rw [hpnl, hdesc]) hbad
    · intro d hd hgood hadc
      have hoffset : (dawnSampleDue s).std = s.std := advanceRef_std ..
      rw [← hoffset]
      exact takeTherm_of_good (by rw [hpnl, hd]) hgood (by rw [dawnSampleDue, advanceRef_bst, hadc])
  · intro code s at_ hm hdawn hdue
    exact ⟨_, exec_thermistorSample_frame hm hdawn hdue, le_merNs_of_time (takeTherm_time ..), (takeTherm_code ..).1⟩
  · intro s e b hpow hnext hbelow
    obtain ⟨hmisses, hpair⟩ := missNoted_std e b s
    exact ⟨missNoted e b s, (exec_stdSettleMiss hpow hnext).trans (congrArg Host.Outcome.next (if_neg hbelow)), hmisses, hpair,
      le_merNs_missNoted e b s, (missNoted_fit e b s).keeps (by decide)⟩
  · intro s e b hpow hnext hlimit
    have htime : (stepAdded (missSaid e b s)).time = (missNoted e b s).time := (onStd_time ..).trans (raise_time ..)
    obtain ⟨hstep, hpair⟩ := stepAdded_std (missSaid e b s)
    exact ⟨stepAdded (missSaid e b s), (exec_stdSettleMiss hpow hnext).trans (congrArg Host.Outcome.next (if_pos hlimit)), hstep,
      hpair.trans (missSaid_missPair e b s), by rw [merNs_congr htime]; exact le_merNs_missNoted e b s⟩
  · intro charges s u hcur hpow hin
    have hexec := exec_carrierEdge (charges := charges) hcur hpow hin
    have htime := (edgePassed_time charges (edgeInstant s) (edgeReached s)).trans (edgeReached_time s)
    exact ⟨_, hexec, (edgePassed_edge ..).trans (congrArg (· + 1) (edgeReached_edge s)), le_merNs_of_time htime,
      (execCarrierEdge_fit (L := 0x100020) (by decide) (Fit.refl _ s) _ hexec).keeps (by decide)⟩
  · intro u b at_ s hpow hlen hb
    exact ⟨_, stdBand_level_self hpow hlen hb, bandDrive_hold_stdIntegrate u at_ s⟩
  · intro s hpow
    obtain ⟨hoff, hdis, hlevel⟩ := driveEnded_std s
    exact ⟨(stdDischarge_read StdSt.powered (fun _ _ => rfl) hpow).trans hoff,
      (stdDischarge_read StdSt.discharge (fun _ _ => rfl) hpow).trans hdis,
      (stdDischarge_read StdSt.level (fun _ _ => rfl) hpow).trans hlevel⟩
  · intro s at_ hdis hopen
    have hexec := exec_crowbarClose hdis hopen
    refine ⟨_, hexec, ?_, crowbarClosed_closedAt .., mem_out_emit ..,
      (execCrowbarClose_fit (L := 0x100422) (by decide) (Fit.refl _ s) _ hexec).keeps (by decide)⟩
    rw [crowbarClosed_time]; exact le_ref_advanceRef ..
  · intro s at_ c hdis hclosed
    exact ⟨_, exec_stdDischarged hdis hclosed, rfl, le_ref_dischargeEnded ..,
      (onStd_fit (L := 0x100020) (by decide) (advanceRef_fit (by decide) (Fit.refl _ s))).keeps (by decide)⟩
  · intro s c hclosed hm
    have hexec := exec_stdRestExpiry hclosed hm
    exact ⟨_, hexec, rfl, rfl, by rw [rested_time]; exact le_ref_advanceRef ..,
      (execStdRestExpiry_fit (L := 0x100020) (by decide) (Fit.refl _ s) _ hexec).keeps (by decide)⟩
  · intro s hon
    exact exec_holdupCharged hon
  · intro h p s hpow hs
    exact ⟨_, exec_steerCfg_of_unpowered hpow hs, rfl, rfl, rfl, rfl,
      (steerApplied_fit p (taken_fit_of_pre_id (by decide) rfl s)).keeps (by decide)⟩
  · intro h p s hpow hs
    have hstd : (taken (rowSteerCfg h p) s).std = s.std := taken_std_of_pre_id rfl s
    obtain ⟨hlock, htrim⟩ := steerWaiting_in_force p (taken (rowSteerCfg h p) s)
    exact ⟨_, exec_steerCfg_of_powered hpow hs, rfl, hlock.trans (congrArg StdSt.lock hstd),
      htrim.trans (congrArg StdSt.trim hstd),
      (steerWaiting_fit p (taken_fit_of_pre_id (by decide) rfl s)).keeps (by decide)⟩
  · intro h code s hs
    exact ⟨_, _, exec_steerStatus hs, rfl, (takeTherm_code ..).1, rfl, rfl⟩

end Sys2Proof.Machine
end

section
/-! PROOFS. Meridian time: TIME_GET (R270), TIME_SET (R271), TIME_ADJUST (R272) and the time-protocol ports (R274, R275, R278). -/

namespace Sys2Proof.Machine

/-! ## An update of the time part -/

/-- Updates the time part. -/
def onTime (f : TimeSt → TimeSt) (s : State) : State := { s with time := f s.time }

@[simp] theorem onTime_time (f : TimeSt → TimeSt) (s : State) : (onTime f s).time = f s.time := rfl

theorem onTime_fit {L : Nat} {f : TimeSt → TimeSt} {s0 s : State} (hL : In 0x20 L) (h : Fit L s0 s) : Fit L s0 (onTime f s) :=
  Fit.upd_time hL h

theorem taken_time_of_pre_id {r : Row} (hpre : r.pre = id) (s : State) : (taken r s).time = s.time :=
  taken_time r s fun _ => by rw [hpre]; rfl

theorem taken_par_of_pre_id {r : Row} (hpre : r.pre = id) (s : State) : (taken r s).par = s.par :=
  taken_par r s fun _ => by rw [hpre]; rfl

/-- What a packet leaves alone that changes only the time part before its reply. -/
theorem onTime_taken_keeps {r : Row} (hpre : r.pre = id) (f : TimeSt → TimeSt) (s : State) :
    Keeps [.time, .buf, .cmd, .sbd] s (onTime f (taken r s)) :=
  (onTime_fit (L := 0x800620) (by decide) (taken_fit_of_pre_id (by decide) hpre s)).keeps (by decide)

/-- What an update of the time part at an instant of the reference clock leaves alone. -/
theorem onTime_advanceRef_keeps (f : TimeSt → TimeSt) (r : Nat) (s : State) : Keeps [.time] s (onTime f (advanceRef r s)) :=
  (onTime_fit (L := 0x20) (by decide) (advanceRef_fit (by decide) (Fit.refl _ s))).keeps (by decide)

/-- Two states of the time part that differ at most in the two clocks. -/
def ClockLike (x y : TimeSt) : Prop := ∃ r m, y = { x with ref := r, mer := m }

theorem ClockLike.read {α : Type} {x y : TimeSt} (h : ClockLike x y) (g : TimeSt → α)
    (hg : ∀ t r m, g { t with ref := r, mer := m } = g t) : g y = g x := by
  obtain ⟨r, m, rfl⟩ := h
  exact hg x r m

theorem merNs_of_mer {s t : State} (hmer : t.time.mer = s.time.mer) : merNs t = merNs s := by rw [merNs, hmer, merNs]

theorem advanceMer_clockLike (n : Nat) (s : State) : ClockLike s.time (advanceMer n s).time := by
  unfold advanceMer
  split <;> exact ⟨_, _, rfl⟩

theorem advanceRef_clockLike (r : Nat) (s : State) : ClockLike s.time (advanceRef r s).time := by
  unfold advanceRef
  split <;> exact ⟨_, _, rfl⟩

/-! ## TIME_GET -/

theorem tsCode_lt (t : TimeState) : tsCode t < 4 := by cases t <;> decide

theorem foffNow_congr {s t : State} (htime : t.time = s.time) : foffNow t = foffNow s := by rw [foffNow, htime, foffNow]

/-- The result words of TIME_GET (R270). -/
def timeWords (s : State) : Verdict :=
  okay (s.time.mer % fracOne / 2 ^ 32 + tsCode s.time.state * 2 ^ 16) (if pv s 0x0300 = 0 then 0 else unsigned 32 s.time.offset)
    (unsigned 32 (floorDiv (foffNow s * nsPerSec + (2 ^ 40 : Nat)) (2 ^ 41 : Nat)))

theorem timeWords_congr {s t : State} (htime : t.time = s.time) (hpar : t.par = s.par) : timeWords t = timeWords s := by
  simp only [timeWords, foffNow_congr htime, pv_congr hpar, htime]

theorem exec_timeGet {h : Hdr} {s : State} (hs : served (rowTimeGet h) s = true) :
    exec (.timeGet h) s = .next (finish h 0x0601 (timeWords s) (taken (rowTimeGet h) s)) :=
  calc exec (.timeGet h) s
    _ = .next (finish h 0x0601 (timeWords (taken (rowTimeGet h) s)) (taken (rowTimeGet h) s)) :=
      congrArg Host.Outcome.next (command_of_served hs)
    _ = _ := by rw [timeWords_congr (taken_time_of_pre_id rfl s) (taken_par_of_pre_id rfl s)]

/-- Word 0 of TIME_GET: 16 bits of the fraction below two bits of the state (R270). -/
theorem timeWords_w0 (s : State) : bits (timeWords s).w0 15 0 = s.time.mer % fracOne / 2 ^ 32 ∧
    bits (timeWords s).w0 17 16 = tsCode s.time.state ∧ (timeWords s).w0 < 2 ^ 18 := by
  have hfrac : s.time.mer % fracOne / 2 ^ 32 < 2 ^ 16 :=
    Nat.div_lt_of_lt_mul (Nat.mod_lt s.time.mer (by decide : 0 < fracOne))
  have hcode := tsCode_lt s.time.state
  simp only [timeWords, okay, bits, Nat.shiftRight_eq_div_pow]
  omega

/-- A final reply of a side-band command that NO_REPLY does not suppress carries the time at which it is formed (R397, R411). -/
theorem sbReply_mem_finish {h : Hdr} (hside : h.src = .side) (hreply : noReply h = false) (opc : Nat) (v : Verdict) (s : State) :
    ∃ d late, Out.sbReply d false ⟨h.src, h.tag, h.seq, opc, v.status, late, merNs s, v.w0, v.w1, v.w2⟩ ∈
      (finish h opc v s).out := by
  unfold finish sendReply
  simp only [hside, hreply, Bool.false_and, Bool.false_eq_true, if_false, keepReply]
  exact ⟨_, _, mem_out_emit ..⟩

/-- Settles O21: the words are read on the packet's arrival, which takes no time, and the side-band reply is formed then. -/
theorem timeGetReply : Obligations.TimeGetReply := by
  refine ⟨fun _ => rfl, fun c hc => ?_, by decide, fun h s hs => ?_,
    fun h v s hside hreply => sbReply_mem_finish hside hreply ..⟩
  · obtain rfl := Option.some.inj hc
    rfl
  · obtain ⟨hfrac, hstate, hrest⟩ := timeWords_w0 s
    exact ⟨_, exec_timeGet hs, rfl, hfrac, hstate, hrest, rfl, rfl, merNs_congr (taken_time_of_pre_id rfl s)⟩

/-! ## TIME_SET (R271) -/

theorem endSlew_of_none {s : State} (h : s.time.slew = none) : endSlew s = s := by rw [endSlew, h]

/-- Meridian time has moved by `q` quarter nanoseconds, with event 0x31; the blocks have not yet followed (R267). -/
def timeMoved (q : Int) (cause : Nat) (s : State) : State :=
  raise 0x31 [(8, unsigned 64 (floorDiv q 4)), (1, cause)] (onTime (fun t => { t with steps := t.steps + 1 }) (shiftMer q s))

theorem stepTime_of_ne {q : Int} (hq : q ≠ 0) (cause : Nat) (s : State) :
    stepTime q cause s = scnTimeStep (floorDiv q 4) (netStepped (floorDiv q 4) (timeMoved q cause s)) := if_neg hq

/-- A step moves the time and counts in TIME_STEPS; a step of 0 is none (R267). -/
theorem stepTime_time (q : Int) (cause : Nat) (s : State) : (stepTime q cause s).time =
    if q = 0 then s.time else { s.time with mer := (s.time.mer + q * (2 ^ 46 : Nat)).toNat, steps := s.time.steps + 1 } := by
  by_cases hq : q = 0
  · rw [if_pos hq, stepTime, if_pos hq]
  · have hblocks : (stepTime q cause s).time = (timeMoved q cause s).time := by
      rw [stepTime_of_ne hq]
      exact (scnTimeStep_fit (L := 0xDF4E5A) (by decide) (netStepped_fit (by decide) (Fit.refl _ _))).2 .time rfl
    rw [if_neg hq, hblocks, timeMoved, raise_time]
    rfl

theorem stepTime_state (q : Int) (cause : Nat) (s : State) : (stepTime q cause s).time.state = s.time.state := by
  rw [stepTime_time]
  split <;> rfl

theorem timeSetBy_of_free {h : Hdr} {d : Int} {s : State} (hslew : s.time.slew = none) (hfree : s.time.state = .free) :
    timeSetBy h d s = finish h 0x0602 (okay (lo32 d) (hi32 d) 1) (stepTime (4 * d) 1 s) := by
  have hstate : (stepTime (4 * d) 1 s).time.state = .free := (stepTime_state ..).trans hfree
  rw [timeSetBy, endSlew_of_none hslew]
  simp only [hstate, reduceCtorEq, if_false, tsCode]

/-- What TIME_SET makes of the time where it does not fall below zero (R271). -/
theorem stepTime_by {d : Int} {s : State} (hpos : 0 ≤ (s.time.mer : Int) + 4 * d * (2 ^ 46 : Nat)) (cause : Nat) :
    ((stepTime (4 * d) cause s).time.mer : Int) = s.time.mer + 4 * d * (2 ^ 46 : Nat) ∧
    (stepTime (4 * d) cause s).time.ref = s.time.ref ∧
    (stepTime (4 * d) cause s).time.steps = (if d = 0 then s.time.steps else s.time.steps + 1) := by
  rw [stepTime_time]
  by_cases hd : d = 0
  · simp [hd]
  · rw [if_neg (by omega), if_neg hd]
    exact ⟨Int.toNat_of_nonneg hpos, rfl, rfl⟩

theorem exec_timeSetAbsolute {h : Hdr} {p : TimeSetP} {s : State} (hs : served (rowTimeSetAbsolute h p) s = true) :
    exec (.timeSetAbsolute h p) s =
      .next (timeSetBy h ((mtOf p.time : Int) - merNs s) (taken (rowTimeSetAbsolute h p) s)) := by
  rw [← merNs_congr (taken_time_of_pre_id (r := rowTimeSetAbsolute h p) rfl s)]
  exact congrArg Host.Outcome.next (command_of_served hs)

theorem exec_timeSetRelative {h : Hdr} {p : TimeSetP} {s : State} (hs : served (rowTimeSetRelative h p) s = true) :
    exec (.timeSetRelative h p) s = .next (timeSetBy h (signed 64 p.delta.toNat) (taken (rowTimeSetRelative h p) s)) :=
  congrArg Host.Outcome.next (command_of_served hs)

/-- TIME_SET OP 2 waits for an edge, at most 1.5 s (R271). -/
def edgeAwaited (h : Hdr) (p : TimeSetP) (s : State) : State :=
  onTime (fun t => { t with ppsSet := some ⟨h, p.time.sec.toNat, t.ref + 1500000000⟩ }) s

theorem rowTimeSetAtPps_run (h : Hdr) (p : TimeSetP) {s : State} (hslew : s.time.slew = none) (hnone : s.time.ppsSet = none) :
    (rowTimeSetAtPps h p).run s = accepted h 0x0602 0 (edgeAwaited h p s) := by
  simp only [rowTimeSetAtPps, endSlew_of_none hslew, hnone]
  rfl

theorem exec_timeSetAtPps {h : Hdr} {p : TimeSetP} {s : State} (hslew : s.time.slew = none) (hnone : s.time.ppsSet = none)
    (hs : served (rowTimeSetAtPps h p) s = true) : exec (.timeSetAtPps h p) s =
      .next (accepted h 0x0602 0 (edgeAwaited h p (taken (rowTimeSetAtPps h p) s))) := by
  have htime := taken_time_of_pre_id (r := rowTimeSetAtPps h p) rfl s
  exact congrArg Host.Outcome.next ((command_of_served hs).trans
    (rowTimeSetAtPps_run h p (by rw [htime, hslew]) (by rw [htime, hnone])))

/-- No edge was used in time for the TIME_SET OP 2 that waited (R271). -/
def edgeMissed (w : PpsSet) (s : State) : State := onTime (fun t => { t with ppsSet := none }) (advanceRef w.until_ s)

theorem exec_timeSetPpsTimeout {s : State} {w : PpsSet} (hw : s.time.ppsSet = some w) :
    exec .timeSetPpsTimeout s = .next (finish w.h 0x0602 (no St.deadlineMissed) (edgeMissed w s)) := by
  change execTimeSetPpsTimeout s = _
  rw [execTimeSetPpsTimeout, hw]; rfl

/-! ## TIME_ADJUST (R272) -/

/-- A slew starts (R272). -/
def slewStarted (h : Hdr) (p : TimeAdjustP) (s : State) : State :=
  onTime (fun t => { t with slew := some ⟨h, signed 64 p.delta.toNat, t.ref⟩ }) s

theorem exec_timeAdjustSlew {h : Hdr} {p : TimeAdjustP} {s : State} (hslew : s.time.slew = none)
    (hs : served (rowTimeAdjustSlew h p) s = true) : exec (.timeAdjustSlew h p) s =
      .next (accepted h 0x0603 0 (slewStarted h p (taken (rowTimeAdjustSlew h p) s))) := by
  refine congrArg Host.Outcome.next ((command_of_served hs).trans ?_)
  change accepted h 0x0603 0 (slewStarted h p (endSlew (taken (rowTimeAdjustSlew h p) s))) = _
  rw [endSlew_of_none (by rw [taken_time_of_pre_id rfl, hslew])]

/-- The frequency offset of TIME_ADJUST OP 1 is in force (R272). -/
def frequencySet (p : TimeAdjustP) (s : State) : State :=
  onTime (fun t => { t with foff := floorDiv (signed 32 p.freq.toNat * (2 ^ 41 : Nat)) nsPerSec }) s

theorem exec_timeAdjustFrequency {h : Hdr} {p : TimeAdjustP} {s : State} (hslew : s.time.slew = none)
    (hs : served (rowTimeAdjustFrequency h p) s = true) : exec (.timeAdjustFrequency h p) s =
      .next (finish h 0x0603 (okay) (frequencySet p (taken (rowTimeAdjustFrequency h p) s))) := by
  refine congrArg Host.Outcome.next ((command_of_served hs).trans ?_)
  change finish h 0x0603 (okay) (frequencySet p (endSlew (taken (rowTimeAdjustFrequency h p) s))) = _
  rw [endSlew_of_none (by rw [taken_time_of_pre_id rfl, hslew])]

/-- A slew ends when its offset is removed, at 40 ns in a millisecond (R272). -/
def slewEnded (w : Slew) (s : State) : State :=
  onTime (fun t => { t with slew := none }) (advanceRef (w.since + w.left.natAbs * 25000) s)

theorem exec_slewDone {s : State} {w : Slew} (hw : s.time.slew = some w) :
    exec .slewDone s = .next (finish w.h 0x0603 (okay) (slewEnded w s)) := by
  change execSlewDone s = _
  rw [execSlewDone, hw]; rfl

/-- Settles O22: each command is one update of the time part on the packet's arrival, each end one at its instant. -/
theorem settingTime : Obligations.SettingTime := by
  refine ⟨⟨?_, ?_, ?_, ?_, ?_⟩, ?_, ?_, ?_⟩
  · intro h p s
    exact exec_timeSetAbsolute
  · intro h p s
    exact exec_timeSetRelative
  · intro h d s hslew hfree hpos
    exact ⟨_, timeSetBy_of_free hslew hfree, stepTime_by hpos 1⟩
  · intro h p s hslew hnone hs
    refine ⟨_, exec_timeSetAtPps hslew hnone hs, ?_, onTime_taken_keeps rfl _ s⟩
    rw [edgeAwaited, onTime_time, taken_time_of_pre_id rfl]
  · intro s w hw
    exact ⟨_, exec_timeSetPpsTimeout hw, rfl, le_ref_advanceRef .., onTime_advanceRef_keeps _ _ s⟩
  · intro h p s hslew hs
    refine ⟨_, exec_timeAdjustSlew hslew hs, ?_, onTime_taken_keeps rfl _ s⟩
    rw [slewStarted, onTime_time, taken_time_of_pre_id rfl]
  · intro h p s hslew hs
    refine ⟨_, exec_timeAdjustFrequency hslew hs, rfl, ?_, onTime_taken_keeps rfl _ s⟩
    rw [frequencySet, onTime_time, taken_time_of_pre_id rfl]
  · intro s w hw
    exact ⟨_, exec_slewDone hw, rfl, le_ref_advanceRef .., onTime_advanceRef_keeps _ _ s⟩

/-! ## The time-protocol ports -/

theorem ptpOf_congr {s t : State} (htime : t.time = s.time) (p : Nat) : ptpOf t p = ptpOf s p := by rw [ptpOf, htime, ptpOf]

theorem merNs_setPtp (p : Nat) (x : PtpPort) (s : State) : merNs (setPtp p x s) = merNs s := merNs_of_mer rfl

theorem ptpOf_setPtp_self {p : Nat} {s : State} (hp : p < s.time.ports.length) (x : PtpPort) : ptpOf (setPtp p x s) p = x := by
  simp [ptpOf, setPtp, hp]

/-- A port's state changes and nothing else of it (R288). -/
theorem ptpOf_setPortState_self {p : Nat} {s : State} (hp : p < s.time.ports.length) (n : Nat) :
    ptpOf (setPortState p n s) p = { ptpOf s p with portState := n } := by
  unfold setPortState
  split
  · next hsame => rw [← hsame]
  · rw [ptpOf_congr (raise_time ..), ptpOf_setPtp_self hp]

/-- The settings of PTP_PORT_CFG, with the port in the state it was in (R278). -/
def portAsked (p : PtpPortCfgP) (s : State) : PtpPort :=
  { profile := p.profile.toNat, flags := p.flags.toNat, domain := p.domain.toNat,
    logSync := signed 8 p.logSync.toNat, logAnnounce := signed 8 p.logAnnounce.toNat, prio1 := p.prio1.toNat,
    prio2 := p.prio2.toNat, txLat := p.txLat.toNat, rxLat := p.rxLat.toNat, asym := signed 32 p.asym.toNat,
    portState := (ptpOf s p.port.toNat).portState, nextSync := merNs s, nextAnnounce := merNs s, nextDelay := merNs s }

/-- The state PTP_PORT_CFG puts a port in: DISABLED with profile 0, else LISTENING (R278; PRESUMED, log entry 16). -/
def firstPortState (p : PtpPortCfgP) : Nat := if p.profile = 0 then 0 else 4

/-- The port stands in its settings; a slave lost with it starts the bound of the source (R268, R278). -/
def portConfigured (p : PtpPortCfgP) (s : State) : State :=
  let u := setPortState p.port.toNat (firstPortState p) (setPtp p.port.toNat (portAsked p s) s)
  if (ptpOf s p.port.toNat).portState = 9 then onTime (fun t => { t with slaveLast := t.ref }) u else u

theorem ptpOf_portConfigured {p : PtpPortCfgP} {s : State} (hp : p.port.toNat < s.time.ports.length) :
    ptpOf (portConfigured p s) p.port.toNat = { portAsked p s with portState := firstPortState p } := by
  have hlen : p.port.toNat < (setPtp p.port.toNat (portAsked p s) s).time.ports.length := by simpa [setPtp] using hp
  have hset := ptpOf_setPortState_self hlen (firstPortState p)
  rw [ptpOf_setPtp_self hp] at hset
  unfold portConfigured
  split <;> exact hset

/-- PTP_PORT_CFG answers the state of the port (R278). -/
theorem rowPtpPortCfg_run (h : Hdr) {p : PtpPortCfgP} {s : State} (hp : p.port.toNat < s.time.ports.length) :
    (rowPtpPortCfg h p).run s = finish h 0x0606 (okay (firstPortState p)) (portConfigured p s) :=
  calc (rowPtpPortCfg h p).run s
    _ = finish h 0x0606 (okay (ptpOf (portConfigured p s) p.port.toNat).portState) (portConfigured p s) := rfl
    _ = _ := by rw [ptpOf_portConfigured hp]

theorem exec_ptpPortCfg {h : Hdr} {p : PtpPortCfgP} {s : State} (hp : p.port.toNat < s.time.ports.length)
    (hs : served (rowPtpPortCfg h p) s = true) : exec (.ptpPortCfg h p) s =
      .next (finish h 0x0606 (okay (firstPortState p)) (portConfigured p (taken (rowPtpPortCfg h p) s))) :=
  congrArg Host.Outcome.next ((command_of_served hs).trans
    (rowPtpPortCfg_run h (by rw [taken_time_of_pre_id rfl]; exact hp)))

/-- A Sync on an enabled gPTP port that follows a master gives an offset (R274). -/
theorem exec_ptpEventMessage_sync {port : Fin 8} {t1 t2 : Nat} {corr : Int} {s : State} (hm : mainOn s = true)
    (hprofile : (ptpOf s port.val).profile = 1) (hstate : (ptpOf s port.val).portState = 8 ∨ (ptpOf s port.val).portState = 9) :
    exec (.ptpEventMessage port (.sync t1 t2 corr)) s =
      .next (slaveOffset port.val ((t2 : Int) - (ptpOf s port.val).rxLat - t1 - corr - (ptpOf s port.val).pathDelay -
        (ptpOf s port.val).asym) (setPtp port.val { ptpOf s port.val with
          syncDiff := some ((t2 : Int) - (ptpOf s port.val).rxLat - t1 - corr) } s)) := by
  refine congrArg Host.Outcome.next ?_
  rw [ptpReceive, if_neg (by simp [hprofile, hm])]
  exact if_pos ⟨hprofile, hstate⟩

theorem ownClass_congr {s t : State} (hstate : t.time.state = s.time.state) (hpar : t.par = s.par) : ownClass t = ownClass s := by
  rw [ownClass, hstate, pv_congr hpar, ownClass]

theorem clockIdentity_congr {s t : State} (hpar : t.par = s.par) : clockIdentity t = clockIdentity s := by
  rw [clockIdentity, pv_congr hpar, clockIdentity]

/-- The clockClass announced rests on the ports, the state of the time and the parameters (R275). -/
theorem sentClass_congr {s t : State} (hports : t.time.ports = s.time.ports) (hstate : t.time.state = s.time.state)
    (hpar : t.par = s.par) : sentClass t = sentClass s := by
  have hptp : ptpOf t = ptpOf s := funext fun p => by rw [ptpOf, hports, ptpOf]
  have hown : ownSet t = ownSet s := funext fun p => by
    rw [ownSet, ownClass_congr hstate hpar, clockIdentity_congr hpar, ownSet]
  have hbest : bestPort t = bestPort s := by rw [bestPort, hptp, hown, bestPort]
  rw [sentClass, hbest, hptp, ownClass_congr hstate hpar, sentClass]

theorem sentClass_advanceMer (n : Nat) (s : State) : sentClass (advanceMer n s) = sentClass s :=
  have hclock := advanceMer_clockLike n s
  sentClass_congr (hclock.read TimeSt.ports fun _ _ _ => rfl) (hclock.read TimeSt.state fun _ _ _ => rfl) (advanceMer_par ..)

/-- A MASTER port has sent its Sync at its instant, and the next is due an interval later (R275). -/
def syncSent (port : Nat) (s : State) : State :=
  let x := ptpOf s port
  let u := advanceMer x.nextSync s
  emit (.ptpTx port 0 (merNs u * 4 + x.txLat) (sentClass u) u.time.gmId)
    (setPtp port { x with nextSync := max (merNs u) x.nextSync + logInterval x.logSync } u)

theorem exec_ptpMessageTx_sync {port : Fin 8} {s : State} (hm : mainOn s = true) (hprofile : (ptpOf s port.val).profile ≠ 0)
    (hmaster : (ptpOf s port.val).portState = 6) : exec (.ptpMessageTx port .sync) s = .next (syncSent port.val s) := by
  refine congrArg Host.Outcome.next ?_
  rw [ptpSend, if_neg (by simp [hprofile, hm])]
  exact if_neg (not_not_intro hmaster)

theorem merNs_syncSent (port : Nat) (s : State) : merNs (syncSent port s) = merNs (advanceMer (ptpOf s port).nextSync s) :=
  (merNs_congr (emit_time ..)).trans (merNs_setPtp ..)

theorem ptpTx_mem_syncSent (port : Nat) (s : State) : Out.ptpTx port 0 (merNs (syncSent port s) * 4 + (ptpOf s port).txLat)
    (sentClass s) s.time.gmId ∈ (syncSent port s).out := by
  have hgm := (advanceMer_clockLike (ptpOf s port).nextSync s).read TimeSt.gmId fun _ _ _ => rfl
  rw [merNs_syncSent, ← sentClass_advanceMer (ptpOf s port).nextSync s, ← hgm]
  exact mem_out_emit ..

theorem nextSync_syncSent {port : Nat} {s : State} (hp : port < s.time.ports.length) :
    (ptpOf (syncSent port s) port).nextSync = merNs (syncSent port s) + logInterval (ptpOf s port).logSync := by
  have hports := (advanceMer_clockLike (ptpOf s port).nextSync s).read TimeSt.ports fun _ _ _ => rfl
  rw [merNs_syncSent, syncSent, ptpOf_congr (emit_time ..), ptpOf_setPtp_self (by rw [hports]; exact hp)]
  dsimp only
  rw [Nat.max_eq_left (le_merNs_advanceMer ..)]

/-- Settles O23: PTP_PORT_CFG replaces the port's settings; a Sync received is an offset, a Sync sent is at its instant. -/
theorem ptpPorts : Obligations.PtpPorts := by
  refine ⟨fun h p s hp hs => ?_, fun port t1 t2 corr s => exec_ptpEventMessage_sync, fun port s hm hp hprofile hmaster => ?_⟩
  · have hport : ptpOf (portConfigured p (taken (rowPtpPortCfg h p) s)) p.port.toNat = _ :=
      ptpOf_portConfigured (by rw [taken_time_of_pre_id rfl]; exact hp)
    refine ⟨_, exec_ptpPortCfg hp hs, ?_, ?_, ?_⟩ <;> rw [hport] <;> rfl
  · refine ⟨_, exec_ptpMessageTx_sync hm hprofile hmaster, ?_, ptpTx_mem_syncSent .., nextSync_syncSent hp⟩
    rw [merNs_syncSent]; exact le_merNs_advanceMer ..

end Sys2Proof.Machine
end

section
/-! PROOFS. Timers (R279 to R282), the loss of the time source (R268), the pulse per second (R283 to R285) and reads of MT_NS
(R269). -/

namespace Sys2Proof.Machine

/-! ## What a served packet has passed -/

/-- The own checks of a served packet find nothing (R398 step 9). -/
theorem chk_of_served {r : Row} {s : State} (h : served r s = true) : r.chk (taken r s) = none := by
  simp only [served, Bool.and_eq_true, Option.isNone_iff_eq_none] at h
  exact h.2

theorem firstOf_cons_eq_none {c : Bool} {v : Verdict} {l : List (Bool × Verdict)} :
    firstOf ((c, v) :: l) = none ↔ c = false ∧ firstOf l = none := by
  cases c <;> simp [firstOf]

/-- Becoming an accepted command advances no generation (R362). -/
theorem admitted_gens (r : Row) (s : State) : (admitted r s).buf.gens = s.buf.gens := by
  unfold admitted judged reached
  rw [admitLive_buf, noteTaken_buf]
  split <;> rfl

theorem genOf_taken {r : Row} (hpre : r.pre = id) (pool idx : Nat) (s : State) : genOf (taken r s) pool idx = genOf s pool idx := by
  rw [genOf, taken, hpre, id, admitted_gens, genOf]

/-! ## TIMER_ARM -/

theorem merNs_onTime {f : TimeSt → TimeSt} (hf : ∀ t, (f t).mer = t.mer) (s : State) : merNs (onTime f s) = merNs s :=
  merNs_of_mer (hf s.time)

theorem freeTimer_congr {s t : State} (htime : t.time = s.time) : freeTimer t = freeTimer s := by rw [freeTimer, htime, freeTimer]

/-- A TIMER_ARM that is served finds a free timer (R280). -/
theorem freeTimer_of_served {h : Hdr} {p : TimerArmP} {s : State} (hs : served (rowTimerArm h p) s = true) :
    ∃ i, freeTimer s = some i := by
  obtain ⟨-, hspace⟩ := firstOf_cons_eq_none.1 (chk_of_served hs)
  obtain ⟨hfree, -⟩ := firstOf_cons_eq_none.1 hspace
  rw [Bool.or_eq_false_iff, freeTimer_congr (taken_time_of_pre_id rfl s)] at hfree
  exact Option.isSome_iff_exists.1 (Option.isNone_eq_false_iff.1 hfree.1)

/-- The timer TIMER_ARM arms at index `i` (R280). -/
def newTimer (i : Nat) (p : TimerArmP) (s : State) : Timer :=
  ⟨i, genOf s 0xF2 i, mtOf p.t, p.period.toNat, p.cookie.toNat, p.flags.toNat.testBit 1, 0, 0⟩

/-- A timer is armed: its unit leaves FREE (R280, R370). -/
def timerArmed (t : Timer) (s : State) : State := move 0xF2 0 1 1 (onTime (fun x => { x with timers := x.timers ++ [t] }) s)

theorem merNs_timerArmed (t : Timer) (s : State) : merNs (timerArmed t s) = merNs s :=
  (merNs_congr (move_time ..)).trans (merNs_onTime (fun _ => rfl) s)

/-- A timer armed for a time that has not passed is answered with its handle (R280). -/
theorem rowTimerArm_run {h : Hdr} {p : TimerArmP} {i : Nat} {s : State} (hfree : freeTimer s = some i)
    (hahead : merNs s ≤ mtOf p.t) : (rowTimerArm h p).run s =
      finish h 0x0604 (okay (handle 0xF2 i (genOf s 0xF2 i))) (timerArmed (newTimer i p s) s) := by
  have hnow : ¬ mtOf p.t < merNs (timerArmed (newTimer i p s) s) := by rw [merNs_timerArmed]; omega
  simp only [rowTimerArm, hfree]
  exact congrArg (finish h 0x0604 _) (if_neg hnow)

theorem exec_timerArm {h : Hdr} {p : TimerArmP} {i : Nat} {s : State} (hfree : freeTimer s = some i) (hahead : merNs s ≤ mtOf p.t)
    (hs : served (rowTimerArm h p) s = true) : exec (.timerArm h p) s = .next (finish h 0x0604
      (okay (handle 0xF2 i (genOf s 0xF2 i))) (timerArmed (newTimer i p s) (taken (rowTimerArm h p) s))) := by
  have htime := taken_time_of_pre_id (r := rowTimerArm h p) rfl s
  have hrun := rowTimerArm_run (h := h) ((freeTimer_congr htime).trans hfree) (Nat.le_trans (Nat.le_of_eq (merNs_congr htime)) hahead)
  rw [newTimer, genOf_taken rfl, ← newTimer] at hrun
  exact congrArg Host.Outcome.next ((command_of_served hs).trans hrun)

/-! ## TIMER_CANCEL -/

theorem timerOf_congr {s t : State} (htime : t.time = s.time) (hd : Nat) : timerOf t hd = timerOf s hd := by
  rw [timerOf, htime, timerOf]

/-- A TIMER_CANCEL that is served names an armed timer (R281). -/
theorem timerOf_of_served {h : Hdr} {p : HandleP} {s : State} (hs : served (rowTimerCancel h p) s = true) :
    ∃ t, timerOf s p.handle.toNat = some t := by
  obtain ⟨-, hfields⟩ := firstOf_cons_eq_none.1 (chk_of_served hs)
  obtain ⟨-, hhandle⟩ := firstOf_cons_eq_none.1 hfields
  obtain ⟨hnone, -⟩ := firstOf_cons_eq_none.1 hhandle
  rw [timerOf_congr (taken_time_of_pre_id rfl s)] at hnone
  exact Option.isSome_iff_exists.1 (Option.isNone_eq_false_iff.1 hnone)

theorem exec_timerCancel {h : Hdr} {p : HandleP} {t : Timer} {s : State} (ht : timerOf s p.handle.toNat = some t)
    (hs : served (rowTimerCancel h p) s = true) : exec (.timerCancel h p) s =
      .next (finish h 0x0605 (okay t.firings t.skipped) (dropTimer t.idx (taken (rowTimerCancel h p) s))) := by
  have hrun (x : State) (hx : timerOf x p.handle.toNat = some t) : (rowTimerCancel h p).run x =
      finish h 0x0605 (okay t.firings t.skipped) (dropTimer t.idx x) := by simp only [rowTimerCancel, hx]
  exact congrArg Host.Outcome.next ((command_of_served hs).trans
    (hrun _ ((timerOf_congr (taken_time_of_pre_id rfl s) _).trans ht)))

/-- A timer released is armed no more, and the Horizon alarm does not hold it (R280, R287). -/
theorem idx_ne_of_mem_dropTimer (i : Nat) (s : State) : (∀ x ∈ (dropTimer i s).time.timers, x.idx ≠ i) ∧
    ∀ x ∈ (dropTimer i s).time.alarms, x.idx ≠ i := by
  have htime : (dropTimer i s).time = { s.time with
      timers := s.time.timers.filter (fun t => t.idx != i), alarms := s.time.alarms.filter (fun t => t.idx != i) } := rfl
  rw [htime]
  constructor <;> intro x hx <;> simpa using (List.mem_filter.1 hx).2

/-! ## A timer fires -/

theorem merNs_timerEvent (t : Timer) (flags : Nat) (s : State) : merNs (timerEvent t flags s) = merNs s := by
  unfold timerEvent
  exact merNs_congr (raise_time ..)

theorem merNs_lateAction (t : Nat) (s : State) : merNs (lateAction t s) = merNs s := by
  unfold lateAction
  split
  · exact (merNs_congr (raise_time ..)).trans (merNs_of_mer rfl)
  · rfl

/-- A one-shot timer that fires is reported, and released (R279). -/
def shotFired (t : Timer) (s : State) : State :=
  dropTimer t.idx (lateAction t.t (timerEvent t (b2n (t.t + 1000 ≤ merNs s)) s))

theorem fireTimer_of_oneShot {t : Timer} (h : t.period = 0) (s : State) : fireTimer t s = shotFired t s := by
  simp only [fireTimer, h, if_true, Nat.mul_zero, Nat.add_zero]
  rfl

theorem merNs_dropTimer (i : Nat) (s : State) : merNs (dropTimer i s) = merNs s := merNs_of_mer rfl

theorem merNs_shotFired (t : Timer) (s : State) : merNs (shotFired t s) = merNs s := by
  rw [shotFired, merNs_dropTimer, merNs_lateAction, merNs_timerEvent]

theorem exec_timeTimer {i : Fin 64} {t : Timer} {s : State} (ht : s.time.timers.find? (fun x => x.idx == i.val) = some t)
    (hquiet : s.hwd.quiesce = none) : exec (.timeTimer i) s = .next (fireTimer t (advanceMer t.t s)) := by
  change execTimeTimer i s = _
  rw [execTimeTimer, ht, hquiet]
  exact congrArg Host.Outcome.next (if_neg (by decide))

/-- Settles O24: a timer armed, a timer released, and a one-shot timer that fires, which is released in the same way. -/
theorem timers : Obligations.Timers := by
  refine ⟨?_, ?_, ?_⟩
  · intro h p s hahead hs
    obtain ⟨i, hfree⟩ := freeTimer_of_served hs
    refine ⟨i, _, hfree, exec_timerArm hfree hahead hs, ?_, (move_fit (L := 0x800620) (by decide) (onTime_fit (by decide)
      (taken_fit_of_pre_id (by decide) rfl s))).keeps (by decide)⟩
    rw [timerArmed, move_time, onTime_time, taken_time_of_pre_id rfl]
    rfl
  · intro h p s hs
    obtain ⟨t, ht⟩ := timerOf_of_served hs
    obtain ⟨htimers, halarms⟩ := idx_ne_of_mem_dropTimer t.idx (taken (rowTimerCancel h p) s)
    exact ⟨t, _, ht, exec_timerCancel ht hs, htimers, halarms,
      (dropTimer_fit (L := 0x800620) (by decide) (taken_fit_of_pre_id (by decide) rfl s)).keeps (by decide)⟩
  · intro i t s ht hquiet hshot
    refine ⟨_, exec_timeTimer ht hquiet, ?_, ?_⟩ <;> rw [fireTimer_of_oneShot hshot]
    · rw [merNs_shotFired]; exact le_merNs_advanceMer ..
    · exact (idx_ne_of_mem_dropTimer ..).1

/-! ## The time source (R268) -/

theorem setTimeState_time (n : TimeState) (s : State) : (setTimeState n s).time = { s.time with state := n } := by
  unfold setTimeState
  split
  · next hsame => rw [← hsame]
  · exact raise_time ..

/-- The loss of the source is noted, with event 0x32 (R268). -/
def sourceGone (s : State) : State := raise 0x32 [] (onTime (fun t => { t with sourceLost := true }) s)

theorem sourceGone_time (s : State) : (sourceGone s).time = { s.time with sourceLost := true } := raise_time ..

theorem setTimeState_ref (n : TimeState) (s : State) : (setTimeState n s).time.ref = s.time.ref := by rw [setTimeState_time]

/-- The loss of the source in LOCKED begins HOLDOVER (R268). -/
theorem loseSource_of_locked {s : State} (h : s.time.state = .locked) : loseSource s =
    onTime (fun t => { t with holdSince := t.ref }) (setTimeState .holdover (sourceGone s)) :=
  if_pos (show (sourceGone s).time.state = .locked by rw [sourceGone_time]; exact h)

theorem loseSource_time_of_locked {s : State} (h : s.time.state = .locked) : (loseSource s).time =
    { s.time with sourceLost := true, state := .holdover, holdSince := s.time.ref } := by
  rw [loseSource_of_locked h, onTime_time, setTimeState_time, sourceGone_time]

theorem loseSource_ref_of_locked {s : State} (h : s.time.state = .locked) : (loseSource s).time.ref = s.time.ref := by
  rw [loseSource_time_of_locked h]

/-- Without a used edge for 1.5 s a PPS source is lost (R268). -/
theorem exec_timeSourceLost_pps {s : State} (hlost : s.time.sourceLost = false) (hpps : pv s 0x0300 = 2) :
    exec .timeSourceLost s = .next (loseSource (advanceRef (s.time.ppsUsed.getD 0 + 1500000000) s)) := by
  refine congrArg Host.Outcome.next ?_
  rw [if_neg (by simp [hlost]), if_neg (by simp [hpps]), if_pos hpps]

/-- HOLDOVER has lasted TIME_HOLDOVER (R268). -/
def holdoverEnded (s : State) : State := setTimeState .free (advanceRef (s.time.holdSince + pv s 0x0304 * nsPerSec) s)

theorem exec_timeHoldoverEnd {s : State} (h : s.time.state = .holdover) :
    exec .timeHoldoverEnd s = .next (raise 0x33 [] (holdoverEnded s)) := congrArg Host.Outcome.next (if_pos h)

/-! ## PPS_IN (R283, R284) -/

theorem exec_ppsInEdge {stamp width : Nat} {s : State} (hm : mainOn s = true) : exec (.ppsInEdge stamp width) s =
    .next (if width < 100 then { s with time := { s.time with ppsGlitches := s.time.ppsGlitches + 1 } }
      else ppsCounted stamp (advanceMer (stamp / 4) s)) :=
  congrArg Host.Outcome.next (if_neg (by simp [hm]))

/-- The edge is counted in PPS_IN_EDGES. -/
def edgeCounted (s : State) : State := onTime (fun t => { t with ppsEdges := t.ppsEdges + 1 }) s

theorem edgeCounted_ppsEdges (s : State) : (edgeCounted s).time.ppsEdges = s.time.ppsEdges + 1 := rfl

theorem merNs_edgeCounted (s : State) : merNs (edgeCounted s) = merNs s := merNs_of_mer rfl

/-- An edge on a masked input is only counted (R283). -/
theorem ppsCounted_of_masked {stamp : Nat} {s : State} (h : s.time.ppsMasked = true) : ppsCounted stamp s = edgeCounted s :=
  if_pos h

theorem exec_ppsInStuck {s : State} (hused : s.time.ppsMasked = false) (hm : mainOn s = true) : exec .ppsInStuck s =
    .next (raise 0x38 [] { s with time := { s.time with ppsMasked := true } }) :=
  congrArg Host.Outcome.next (if_neg (by simp [hused, hm]))

/-- The loss of the edges is noted until one is used again (R284). -/
def lossNoted (s : State) : State := onTime (fun t => { t with ppsLostRaised := true }) s

theorem lossNoted_ref (s : State) : (lossNoted s).time.ref = s.time.ref := rfl

/-- 1.5 s have passed without a used edge (R284). -/
def edgesLost (s : State) : State := lossNoted (advanceRef (s.time.ppsUsed.getD 0 + 1500000000) s)

theorem exec_ppsInLost {s : State} (hnew : s.time.ppsLostRaised = false) (hm : mainOn s = true) : exec .ppsInLost s =
    .next (raise 0x36 [] (edgesLost s)) := congrArg Host.Outcome.next (if_neg (by simp [hnew, hm]))

/-! ## PPS_OUT (R285) -/

/-- PPS_OUT runs at the selected instant `k`; a run 1 µs late is reported (R282, R285). -/
def pulseRun (k : Nat) (s : State) : State := lateAction k (advanceMer k s)

/-- The instant PPS_OUT last acted on is `n` (R285). -/
def pulseNoted (n : Nat) (s : State) : State := onTime (fun t => { t with ppsOutNext := some n }) s

theorem merNs_pulseNoted (n : Nat) (s : State) : merNs (pulseNoted n s) = merNs s := merNs_of_mer rfl

/-- PPS_OUT pulses for the instant `k`, for at most half of the interval to the next (R285). -/
def pulseSent (k gap : Nat) (s : State) : State :=
  emit (.ppsOut (floorDiv (((k * 4 : Nat) : Int) + pvs (pulseRun k s) 32 0x0314) 4).toNat
    (min (pv (pulseRun k s) 0x0313 * 1000) (gap / 2))) (pulseNoted (max k (merNs (pulseRun k s))) (pulseRun k s))

theorem exec_ppsOutEdge {k gap : Nat} {s : State} (hm : mainOn s = true) (hdue : ppsOutDue s = some (k, gap)) :
    exec .ppsOutEdge s = .next (pulseSent k gap s) := by
  refine congrArg Host.Outcome.next ((if_neg (by simp [hm])).trans ?_)
  simp only [hdue]
  rfl

theorem merNs_pulseSent (k gap : Nat) (s : State) : merNs (pulseSent k gap s) = merNs (advanceMer k s) :=
  (merNs_congr (emit_time ..)).trans ((merNs_pulseNoted ..).trans (merNs_lateAction ..))

/-! ## MT_NS (R269) -/

/-- What a read of MT_NS latches: the time, its state and the frame index (R269). -/
def latchOf (s : State) : MtLatch := ⟨s.time.mer, tsCode s.time.state, (frameAt (merNs s) s).getD 0⟩

/-- The time is latched for a master (R269). -/
def latched (m : Master) (s : State) : State :=
  match m with
  | .host => onTime (fun t => { t with latchHost := some (latchOf s) }) s
  | .sideBand => onTime (fun t => { t with latchSide := some (latchOf s) }) s

theorem merNs_latched (m : Master) (s : State) : merNs (latched m s) = merNs s := by
  cases m <;> exact merNs_of_mer rfl

theorem exec_mtNsRead {m : Master} {s : State} (hup : m = .host → s.cmd.up = true) : exec (.mtNsRead m) s =
    .next (emit (.regRead 0x3000 (merNs s % nsPerSec)) (latched m s)) := by
  have hlive : ¬ (m = .host ∧ (!s.cmd.up) = true) := fun ⟨hm, hdown⟩ => by simp [hup hm] at hdown
  change execMtNsRead m s = _
  rw [← merNs_latched m s]
  simp only [execMtNsRead, ok, if_neg hlive]
  cases m <;> simp only [latched, onTime, latchOf]

/-- Settles O25: the two ends of a locked source, the judgements on PPS_IN, the pulse of PPS_OUT, and the latch of each master. -/
theorem timeSources : Obligations.TimeSources := by
  refine ⟨⟨?_, ?_⟩, ?_, ?_, ?_, ?_, ?_, ?_, ?_⟩
  · intro s hlost hpps hlocked
    have hstill := ((advanceRef_clockLike (s.time.ppsUsed.getD 0 + 1500000000) s).read TimeSt.state fun _ _ _ => rfl).trans hlocked
    refine ⟨_, exec_timeSourceLost_pps hlost hpps, ?_, ?_, ?_⟩
    · rw [loseSource_time_of_locked hstill]
    · rw [loseSource_time_of_locked hstill]
    · rw [loseSource_ref_of_locked hstill]; exact le_ref_advanceRef ..
  · intro s hhold
    refine ⟨_, exec_timeHoldoverEnd hhold, ?_, ?_⟩
    · rw [holdoverEnded, setTimeState_time]
    · rw [holdoverEnded, setTimeState_ref]; exact le_ref_advanceRef ..
  · intro stamp width s hm hglitch
    rw [exec_ppsInEdge hm, if_pos hglitch]
  · intro stamp width s hm hwide hmasked
    have hclock := advanceMer_clockLike (stamp / 4) s
    have hexec := exec_ppsInEdge (stamp := stamp) (width := width) hm
    rw [if_neg (Nat.not_lt.2 hwide), ppsCounted_of_masked ((hclock.read TimeSt.ppsMasked fun _ _ _ => rfl).trans hmasked)] at hexec
    refine ⟨_, hexec, ?_, ?_,
      (onTime_fit (L := 0x20) (by decide) (advanceMer_fit (by decide) (Fit.refl _ s))).keeps (by decide)⟩
    · rw [edgeCounted_ppsEdges, hclock.read TimeSt.ppsEdges fun _ _ _ => rfl]
    · rw [merNs_edgeCounted]; exact le_merNs_advanceMer ..
  · intro s
    exact exec_ppsInStuck
  · intro s hnew hm
    refine ⟨_, exec_ppsInLost hnew hm, rfl, ?_, onTime_advanceRef_keeps _ _ s⟩
    rw [edgesLost, lossNoted_ref]; exact le_ref_advanceRef ..
  · intro s k gap hm hdue
    refine ⟨_, _, _, exec_ppsOutEdge hm hdue, mem_out_emit .., ?_, by rw [merNs_pulseSent]; exact le_merNs_advanceMer ..⟩
    omega
  · intro s hup
    exact ⟨_, exec_mtNsRead fun _ => hup, mem_out_emit .., by rw [emit_time]; rfl, by rw [emit_time]; rfl⟩
  · intro s
    exact ⟨_, exec_mtNsRead (by nofun), mem_out_emit .., by rw [emit_time]; rfl⟩

end Sys2Proof.Machine
end

section
/-! PROOFS. The supplies (R302, R549) and the wakes (R287, R298, R299, R310). -/

namespace Sys2Proof.Machine

/-! ## VMAIN qualified (R302) -/

/-- VMAIN is qualified, and seating is over (R302, R543). -/
def mainQualified (s : State) : State :=
  onHwd (fun w => { w with seating := false }) (onMode (fun m => { m with vmainQual := true }) s)

/-- A held wake is accepted; without one MODE_POWERUP decides (R297, R302). -/
def poweredUp (s : State) : State :=
  if s.mode.wakeHeld ≠ 0 then onMode (fun m => { m with waking := some m.wakeHeld }) s
  else if pv s 0x0103 = 0 then onMode (fun m => { m with waking := some 0 }) s
  else s

theorem exec_vmainQualified {s : State} (hnew : s.mode.vmainQual = false) (haux : s.mode.vauxOn = true)
    (hseat : s.hwd.seating = false) (hoff : s.mode.mode = .dormant) (hin : s.hwd.detached = false) (hquiet : s.hwd.quiesce = none) :
    exec .vmainQualified s = .next (poweredUp (mainQualified s)) :=
  congrArg Host.Outcome.next ((if_neg (by simp [hnew, haux])).trans
    ((if_neg (by simp [hseat])).trans (if_neg (by simp [hoff, hin, hquiet]))))

theorem poweredUp_vmainQual (s : State) : (poweredUp s).mode.vmainQual = s.mode.vmainQual := by
  unfold poweredUp
  split
  · rfl
  · split <;> rfl

/-- Which wake a qualified VMAIN accepts (R297, R302). -/
theorem poweredUp_waking (s : State) : (s.mode.wakeHeld ≠ 0 → (poweredUp s).mode.waking = some s.mode.wakeHeld) ∧
    (s.mode.wakeHeld = 0 → pv s 0x0103 = 0 → (poweredUp s).mode.waking = some 0) ∧
    (s.mode.wakeHeld = 0 → pv s 0x0103 ≠ 0 → (poweredUp s).mode.waking = s.mode.waking) := by
  refine ⟨fun hheld => ?_, fun hnone hup => ?_, fun hnone hup => ?_⟩
  · rw [poweredUp, if_pos hheld, onMode_mode]
  · rw [poweredUp, if_neg (not_not_intro hnone), if_pos hup, onMode_mode]
  · rw [poweredUp, if_neg (not_not_intro hnone), if_neg hup]

theorem poweredUp_fit {L : Nat} {s0 s : State} (hL : In 0x40 L) (h : Fit L s0 s) : Fit L s0 (poweredUp s) :=
  Fit.ite (fun _ => onMode_fit hL h) fun _ => Fit.ite (fun _ => onMode_fit hL h) fun _ => h

/-! ## VMAIN lost or out of range (R302) -/

/-- What the main domain held has ended without replies, and the time is carried (R286, R302). -/
def mainEnded (s : State) : State := endFieldOpen (emptyPools (loseBuffers (hostDown (recordTime (stdCrowbarNow s)))))

/-- WAKE timers stay in the Horizon alarm (R287); an update, the unlocks and the recoveries end (R302). -/
def horizonLeft (s : State) : State :=
  { s with
    time := { s.time with alarms := s.time.alarms ++ s.time.timers.filter (fun (t : Timer) => t.wake) }
    sec := { s.sec with abortedPend := s.sec.abortedPend || s.sec.update.isSome, update := none }
    nv := { s.nv with unlocks := [] }
    evt := { s.evt with recs := [] } }

/-- The main domain is off (R302). -/
def mainOff (s : State) : State :=
  let u := mainReset true (dmcReset 0 (forgetCommands (horizonLeft s)))
  { u with cmd := { u.cmd with waits := [], sbReady := [] } }

/-- Dormant is entered on the loss of power (R296, R302). -/
def dormantLost (s : State) : State :=
  onMode (fun m => { m with mode := .dormant, rate := 0, lastCause := 9, ledgerRebuilt := true }) (mainOff s)

theorem powerLoss_eq_of_on (src : Nat) {s : State} (h : s.mode.mode ≠ .dormant) : powerLoss src s =
    raise 0x01 [(1, modeNum s.mode.mode), (1, 0), (8, noFrame), (1, 9)] (raise src [] (dormantLost (mainEnded s))) := if_neg h

theorem mainEnded_mode (s : State) : (mainEnded s).mode = s.mode :=
  (endFieldOpen_fit (L := notMode) (by decide) (emptyPools_fit (by decide) (loseBuffers_fit (by decide)
    (hostDown_fit (by decide) (recordTime_fit (by decide) (stdCrowbarNow_fit (by decide) (Fit.refl _ s))))))).mode_eq

theorem dormantLost_supplies (s : State) : (dormantLost s).mode.mode = .dormant ∧ (dormantLost s).mode.lastCause = 9 ∧
    (dormantLost s).mode.vmainQual = s.mode.vmainQual ∧ (dormantLost s).mem = {} := ⟨rfl, rfl, rfl, rfl⟩

/-- The main domain without power: Dormant entered with cause 9, nothing of memory left (R302). -/
theorem powerLoss_of_on (src : Nat) {s : State} (h : s.mode.mode ≠ .dormant) :
    (powerLoss src s).mode.mode = .dormant ∧ (powerLoss src s).mode.lastCause = 9 ∧
    (powerLoss src s).mode.vmainQual = s.mode.vmainQual ∧ (powerLoss src s).mem = {} := by
  rw [powerLoss_eq_of_on src h, raise_mode, raise_mode, raise_mem, raise_mem, ← mainEnded_mode s]
  exact dormantLost_supplies _

/-- VMAIN is below 9.0 V: it is qualified no more, and no wake acts (R302). -/
def mainLost (s : State) : State := onMode (fun m => { m with vmainQual := false, waking := none }) s

theorem quiesceOnVaux_of_none {s : State} (h : s.hwd.quiesce = none) : quiesceOnVaux s = s := by rw [quiesceOnVaux, h]

theorem exec_pwrVmainLost {s : State} (hqual : s.mode.vmainQual = true) (hquiet : s.hwd.quiesce = none) :
    exec .pwrVmainLost s = .next (powerLoss 0x06 (mainLost s)) := by
  have hhwd : (powerLoss 0x06 (mainLost s)).hwd = s.hwd :=
    (powerLoss_fit (L := 0xFFFFFFE) (by decide) (onMode_fit (by decide) (Fit.refl _ s))).2 .hwd rfl
  have hnone : (powerLoss 0x06 (mainLost s)).hwd.quiesce = none := by rw [hhwd, hquiet]
  exact congrArg Host.Outcome.next ((if_neg (by simp [hqual])).trans (quiesceOnVaux_of_none hnone))

/-- VMAIN measured outside its range (R302). -/
def rangeLeft (mv : Nat) (s : State) : State :=
  onMode (fun m => { m with vmainRange := some s.time.ref }) { s with pwr := { s.pwr with vmainMv := mv } }

theorem exec_pwrVmainRange {mv : Nat} {s : State} (hm : mainOn s = true) (habove : 9000 < mv) (hout : mv < 10800 ∨ 13200 < mv)
    (hnew : s.mode.vmainRange = none) : exec (.pwrVmainRange mv) s = .next (raise 0x05 [] (rangeLeft mv s)) := by
  have hcond : (!mainOn s || decide (mv ≤ 9000) || (decide (10800 ≤ mv) && decide (mv ≤ 13200))) = false := by
    simp [hm, habove]; omega
  refine congrArg Host.Outcome.next ((if_neg (by rw [hcond]; decide)).trans ?_)
  rw [hnew]
  rfl

/-! ## A wake accepted (R299) -/

/-- What follows the entry of a mode at start-up changes of the mode part only the ledger-rebuilt flag, and leaves the firmware
that runs. -/
def StartLike (s t : State) : Prop := (∃ b, t.mode = { s.mode with ledgerRebuilt := b }) ∧ t.sec.running = s.sec.running

theorem StartLike.trans {s t u : State} (h : StartLike s t) (k : StartLike t u) : StartLike s u := by
  obtain ⟨⟨b, hmode⟩, hsec⟩ := h
  obtain ⟨⟨c, kmode⟩, ksec⟩ := k
  exact ⟨⟨c, by rw [kmode, hmode]⟩, ksec.trans hsec⟩

theorem StartLike.of_same {s t : State} (hmode : t.mode = s.mode) (hsec : t.sec.running = s.sec.running) : StartLike s t :=
  ⟨⟨s.mode.ledgerRebuilt, by rw [hmode]⟩, hsec⟩

/-- Every part but the mode and security. -/
def notModeSec : Nat := 0x17FFFFBF

theorem Fit.startLike {s t : State} (h : Fit notModeSec s t) : StartLike s t :=
  .of_same (h.2 .mode rfl) (congrArg SecSt.running (h.2 .sec rfl))

theorem putBoot_running (b : BootCtl) (s : State) : (putBoot b s).sec.running = s.sec.running :=
  congrArg SecSt.running ((putBoot_fit (L := 0x1800C02) (by decide) (Fit.refl _ s)).2 .sec rfl)

theorem confirmSlot_running (n : Nat) (s : State) : (confirmSlot n s).sec.running = s.sec.running := by
  unfold confirmSlot
  extract_lets
  split
  · exact putBoot_running ..
  · rfl

/-- A trial boot that confirms itself goes on running (R510, R523). -/
theorem autoConfirm_startLike (s : State) : StartLike s (autoConfirm s) := by
  refine .of_same ((autoConfirm_fit (L := 0x9800C02) (by decide) (Fit.refl _ s)).2 .mode rfl) ?_
  unfold autoConfirm
  split
  · dsimp only
    split
    · exact (confirmSlot_running ..).trans (putBoot_running ..)
    · rfl
  · rfl

theorem startEvent_startLike (mask : Nat) (s : State) : StartLike s (startEvent mask s) := by
  rw [StartLike, startEvent, raise_mode, raise_sec]
  exact ⟨⟨false, rfl⟩, rfl⟩

theorem owedEvents_startLike (s : State) : StartLike s (owedEvents s) := by
  unfold owedEvents
  extract_lets s1 s2 s3
  have h0 : Fit notModeSec s s := Fit.refl _ s
  have h1 : Fit notModeSec s s1 := Fit.ite (fun _ => raise_fit (by decide) (onStd_fit (by decide) h0)) fun _ => h0
  have h2 : Fit notModeSec s s2 := Fit.ite (fun _ => h1) fun _ => raise_fit (by decide) (onStd_fit (by decide) h1)
  have h3 : Fit notModeSec s s3 := Fit.ite (fun _ => raise_fit (by decide) h2) fun _ => h2
  split
  · refine h3.startLike.trans (StartLike.trans (t := onSec (fun c => { c with abortedPend := false }) s3) (.of_same rfl rfl) ?_)
    exact (stageEvent_fit (by decide) (Fit.refl notModeSec _)).startLike
  · exact h3.startLike

theorem startDone_startLike (mask : Nat) (s : State) : StartLike s (startDone mask s) :=
  (autoConfirm_startLike s).trans <| (deliverLogged_fit (by decide) (Fit.refl notModeSec _)).startLike.trans <|
    (startEvent_startLike mask _).trans <| (owedEvents_startLike _).trans
      (alarmsBack_fit (by decide) (Fit.refl notModeSec _)).startLike

/-- The mode a wake enters: Recovery where no firmware runs (R299). -/
def wakeMode (s : State) : Mode := if s.sec.running.isNone then .recovery else .dawn

/-- A wake from the sources of `mask` enters its mode, and is noted as the last one (R299). -/
def wakeEntered (mask : Nat) (s : State) : State :=
  onMode (fun x => { x with
    mode := wakeMode s, rate := 0, lastCause := 1, wakeLast := mask, waking := none, wakeHeld := 0, shutUntil := none }) s

theorem startAfterWake_eq (mask : Nat) (s : State) : startAfterWake mask s = startDone mask
    (raise 0x01 [(1, modeNum .dormant), (1, modeNum (wakeMode (startFirmware s))), (8, noFrame), (1, 1)]
      (wakeEntered mask (startFirmware s))) := rfl

theorem StartLike.of_wakeEntered {mask : Nat} {s t : State} (h : StartLike (wakeEntered mask s) t) :
    t.mode.mode = (if t.sec.running.isNone then .recovery else .dawn) ∧ t.mode.rate = 0 ∧ t.mode.wakeLast = mask ∧
    t.mode.waking = none := by
  obtain ⟨⟨b, hmode⟩, hrunning⟩ := h
  rw [hmode, hrunning]
  exact ⟨rfl, rfl, rfl, rfl⟩

/-- What follows the entry of the mode leaves it (R299). -/
theorem wakeEntered_startLike_startAfterWake (mask : Nat) (s : State) :
    StartLike (wakeEntered mask (startFirmware s)) (startAfterWake mask s) := by
  rw [startAfterWake_eq]
  exact (raise_fit (by decide) (Fit.refl notModeSec _)).startLike.trans (startDone_startLike ..)

theorem exec_wake {r : ThmRead} {mask : Nat} {s : State} (hwaking : s.mode.waking = some mask) (hoff : s.mode.mode = .dormant)
    (hqual : s.mode.vmainQual = true) : exec (.wake r) s = .next (startSample r (startAfterWake mask (bumpCounter 2 s))) := by
  change execWake r s = _
  rw [execWake, hwaking]
  exact congrArg Host.Outcome.next (if_pos ⟨hoff, hqual⟩)

/-! ## The sources of R298 -/

@[simp] theorem leaveDetached_mode (s : State) : (leaveDetached s).mode = s.mode :=
  (leaveDetached_fit (L := 0x10000000) (by decide) (Fit.refl _ s)).2 .mode rfl

/-- A wake is accepted, merged with others (R298). -/
def wakeTaken (b : Nat) (s : State) : State :=
  onMode (fun m => { m with waking := some (m.waking.getD 0 ||| 2 ^ b) }) (leaveDetached s)

theorem wakeTaken_waking (b : Nat) (s : State) : (wakeTaken b s).mode.waking = some (s.mode.waking.getD 0 ||| 2 ^ b) :=
  congrArg (fun m : ModeSt => some (m.waking.getD 0 ||| 2 ^ b)) (leaveDetached_mode s)

/-- A wake is held while VMAIN is not qualified (R298). -/
def wakeKept (b : Nat) (s : State) : State :=
  onMode (fun m => { m with wakeHeld := m.wakeHeld ||| 2 ^ b }) (leaveDetached s)

theorem wakeKept_wakeHeld (b : Nat) (s : State) : (wakeKept b s).mode.wakeHeld = s.mode.wakeHeld ||| 2 ^ b :=
  congrArg (fun m : ModeSt => m.wakeHeld ||| 2 ^ b) (leaveDetached_mode s)

section
variable {b : Nat} {s : State} (hoff : s.mode.mode = .dormant) (hopen : wakesIgnored s = false)
  (hbit : (pv s 0x0104).testBit b = true)
include hoff hopen hbit

theorem wakeBy_of_open : wakeBy b s = if s.mode.vmainQual then wakeTaken b s else raise 0x03 [] (wakeKept b s) := by
  rw [← leaveDetached_mode s]
  exact if_neg (by simp [hoff, hopen, hbit])

theorem wakeBy_of_qualified (hqual : s.mode.vmainQual = true) : wakeBy b s = wakeTaken b s :=
  (wakeBy_of_open hoff hopen hbit).trans (if_pos hqual)

theorem wakeBy_of_unqualified (hqual : s.mode.vmainQual = false) : wakeBy b s = raise 0x03 [] (wakeKept b s) :=
  (wakeBy_of_open hoff hopen hbit).trans (if_neg (by simp [hqual]))

end

/-- What a wake leaves alone before its event. -/
theorem onMode_leaveDetached_keeps (f : ModeSt → ModeSt) (s : State) : Keeps [.mode, .hwd] s (onMode f (leaveDetached s)) :=
  (onMode_fit (L := 0x10000040) (by decide) (leaveDetached_fit (by decide) (Fit.refl _ s))).keeps (by decide)

/-! ## Horizon's own sources (R287, R310) -/

theorem pvs_congr {s t : State} (hpar : t.par = s.par) (w id : Nat) : pvs t w id = pvs s w id := by rw [pvs, pv_congr hpar, pvs]

theorem tripReading_congr {s t : State} (hpar : t.par = s.par) (v : Int) : tripReading v t = tripReading v s := by
  rw [tripReading, pvs_congr hpar, pvs_congr hpar, tripReading]

/-- The Horizon sensor is read at its instant (R310). -/
def horizonRead (v : Int) (s : State) : State :=
  let u := advanceRef (s.thm.horLast + 60 * nsPerSec) s
  onThm (fun t => { t with hor := v, horLast := u.time.ref }) u

/-- A reading within the limits clears what earlier ones counted (R310). -/
def tripCleared (s : State) : State := onThm (fun t => { t with tripCount := 0, tripped := false }) s

/-- One more reading in a row lies outside the limits (R310). -/
def tripCounted (s : State) : State := onThm (fun t => { t with tripCount := s.thm.tripCount + 1 }) s

/-- The readings in a row outside the limits have tripped the sensor (R310). -/
def horizonTripped (s : State) : State := onThm (fun t => { t with tripped := true }) s

/-- The reading is judged (R310). -/
def tripJudged (v : Int) (s : State) : State :=
  if !tripReading v s then tripCleared s
  else if s.thm.tripCount + 1 < 2 || (tripCounted s).thm.tripped then tripCounted s
  else wakeBy 5 (raise 0x19 [] (horizonTripped (tripCounted s)))

theorem tripJudged_of_second {v : Int} {s : State} (htrip : tripReading v s = true) (hcount : 1 ≤ s.thm.tripCount)
    (hnew : s.thm.tripped = false) : tripJudged v s = wakeBy 5 (raise 0x19 [] (horizonTripped (tripCounted s))) :=
  (if_neg (by simp [htrip])).trans (if_neg (by simp [tripCounted, hnew]; omega))

theorem horizonRead_fit {L : Nat} {v : Int} {s0 s : State} (hL : In 0x120 L) (h : Fit L s0 s) : Fit L s0 (horizonRead v s) :=
  onThm_fit (In.trans (by decide) hL) (advanceRef_fit (In.trans (by decide) hL) h)

theorem horizonRead_par (v : Int) (s : State) : (horizonRead v s).par = s.par :=
  (horizonRead_fit (L := 0x120) (by decide) (Fit.refl _ s)).2 .par rfl

theorem le_ref_horizonRead (v : Int) (s : State) : s.thm.horLast + 60 * nsPerSec ≤ (horizonRead v s).time.ref := by
  rw [horizonRead, onThm_time]; exact le_ref_advanceRef ..

theorem horizonRead_tripCount (v : Int) (s : State) : (horizonRead v s).thm.tripCount = s.thm.tripCount := by
  simp [horizonRead]

theorem horizonRead_tripped (v : Int) (s : State) : (horizonRead v s).thm.tripped = s.thm.tripped := by simp [horizonRead]

/-- In Dormant on VAUX a reading is taken and judged (R310). -/
theorem exec_horizonSensorRead {v : Int} {s : State} (hoff : s.mode.mode = .dormant) (haux : s.mode.vauxOn = true) :
    exec (.horizonSensorRead v) s = .next (tripJudged v (horizonRead v s)) :=
  congrArg Host.Outcome.next (if_neg (by simp [hoff, haux]))

theorem exec_horizonAlarm {x : Timer} {rest : List Timer} {s : State} (hoff : s.mode.mode = .dormant)
    (hfirst : sortBy (fun (w : Timer) => w.t) s.time.alarms = x :: rest) :
    exec .horizonAlarm s = .next (wakeBy 3 (advanceMer x.t s)) := by
  refine congrArg Host.Outcome.next ((if_neg (by simp [hoff])).trans ?_)
  rw [hfirst]

/-- Settles O27: what each supply starts or ends, the mode a wake enters, and what each source makes of the wakes. -/
theorem suppliesAndWakes : Obligations.SuppliesAndWakes := by
  refine ⟨⟨?_, ?_, ?_, ?_⟩, ?_, ?_, ?_, ?_, ?_, ?_⟩
  · intro s hnew haux hseat hoff hin hquiet
    obtain ⟨hheld, hdefault, hstay⟩ := poweredUp_waking (mainQualified s)
    exact ⟨_, exec_vmainQualified hnew haux hseat hoff hin hquiet, poweredUp_vmainQual _, hheld, hdefault, hstay,
      (poweredUp_fit (L := 0x10000040) (by decide) (onHwd_fit (by decide) (onMode_fit (by decide) (Fit.refl _ s)))).keeps
        (by decide)⟩
  · intro s hqual hon hquiet
    exact ⟨_, exec_pwrVmainLost hqual hquiet, powerLoss_of_on 0x06 (s := mainLost s) hon⟩
  · intro mv s hm habove hout hnew
    exact ⟨_, exec_pwrVmainRange hm habove hout hnew, rfl, rfl,
      (onMode_fit (L := 0xC0) (by decide) (Fit.upd_pwr (by decide) (Fit.refl _ s))).keeps (by decide)⟩
  · intro s
    exact ⟨_, rfl, rfl, rfl, rfl, rfl, rfl, rfl, rfl, rfl, rfl⟩
  · intro r mask s hwaking hoff hqual
    exact ⟨_, exec_wake hwaking hoff hqual, (wakeEntered_startLike_startAfterWake ..).of_wakeEntered⟩
  · intro s hoff hopen hbit hqual
    exact ⟨_, congrArg Host.Outcome.next (wakeBy_of_qualified hoff hopen hbit hqual), wakeTaken_waking 2 s,
      onMode_leaveDetached_keeps _ s⟩
  · intro s hoff hopen hbit hqual
    exact ⟨_, congrArg Host.Outcome.next (wakeBy_of_unqualified hoff hopen hbit hqual), wakeKept_wakeHeld 2 s,
      onMode_leaveDetached_keeps _ s⟩
  · intro v s hoff haux hcalm
    rw [← tripReading_congr (horizonRead_par v s)] at hcalm
    have hclear : tripJudged v (horizonRead v s) = tripCleared (horizonRead v s) := if_pos (by simp [hcalm])
    refine ⟨_, (exec_horizonSensorRead hoff haux).trans (congrArg Host.Outcome.next hclear), rfl, rfl, ?_,
      (onThm_fit (L := 0x120) (by decide) (horizonRead_fit (by decide) (Fit.refl _ s))).keeps (by decide)⟩
    rw [tripCleared, onThm_time]; exact le_ref_horizonRead ..
  · intro v s hoff haux htrip hcount hnew
    rw [← tripReading_congr (horizonRead_par v s)] at htrip
    rw [← horizonRead_tripCount v s] at hcount
    rw [← horizonRead_tripped v s] at hnew
    exact ⟨_, (exec_horizonSensorRead hoff haux).trans (congrArg Host.Outcome.next (tripJudged_of_second htrip hcount hnew)),
      rfl, rfl, (onThm_fit (L := 0x120) (by decide) (onThm_fit (by decide) (horizonRead_fit (by decide) (Fit.refl _ s)))).keeps
        (by decide)⟩
  · intro s x rest hoff hfirst
    exact exec_horizonAlarm hoff hfirst

end Sys2Proof.Machine
end

section
/-! PROOFS. The power manager (R304). -/

namespace Sys2Proof.Machine

/-! ## Samples -/

/-- What the power manager measures of the two supplies (R304). -/
def suppliesMeasured (p : PowerRead) (s : State) : State :=
  { s with pwr := { s.pwr with vmainMv := p.mv, vauxMw := p.vaux } }

/-- A power sample falls due 100 µs after the last one, and measures the supplies (R304). -/
def powerMeasured (p : PowerRead) (s : State) : State :=
  rangeSeen p.mv (advanceRef (s.pwr.lastSample + 100000) (suppliesMeasured p s))

/-- A sample joins the energy estimate and the window (R304). -/
def sampleAdded (p : PowerRead) (s : State) : State :=
  { s with pwr := { s.pwr with
      lastSample := s.time.ref, e := s.pwr.e + p.mw, winSum := s.pwr.winSum + p.mw, winCount := s.pwr.winCount + 1 } }

/-- A window of a hundred samples ends (R304). -/
def windowClosed (s : State) : State := { s with pwr := { s.pwr with winSum := 0, winCount := 0 } }

theorem rangeSeen_pwr (mv : Nat) (s : State) : (rangeSeen mv s).pwr = s.pwr :=
  (rangeSeen_fit (L := 0x40) (by decide) (Fit.refl _ s)).2 .pwr rfl

theorem rangeSeen_time (mv : Nat) (s : State) : (rangeSeen mv s).time = s.time :=
  (rangeSeen_fit (L := 0x40) (by decide) (Fit.refl _ s)).2 .time rfl

theorem powerMeasured_pwr (p : PowerRead) (s : State) :
    (powerMeasured p s).pwr = { s.pwr with vmainMv := p.mv, vauxMw := p.vaux } := by
  rw [powerMeasured, rangeSeen_pwr, advanceRef_pwr, suppliesMeasured]

theorem le_ref_powerMeasured (p : PowerRead) (s : State) : s.pwr.lastSample + 100000 ≤ (powerMeasured p s).time.ref := by
  rw [powerMeasured, rangeSeen_time]; exact le_ref_advanceRef ..

theorem sampleAdded_powerMeasured_keeps (p : PowerRead) (s : State) :
    Keeps [.pwr, .time, .mode] s (sampleAdded p (powerMeasured p s)) :=
  (Fit.upd_pwr (L := 0xE0) (by decide) (rangeSeen_fit (by decide) (advanceRef_fit (by decide)
    (Fit.upd_pwr (by decide) (Fit.refl _ s))))).keeps (by decide)

/-- The sample of a module that runs is added; the hundredth of a window has the window's mean judged (R304). -/
theorem exec_powerSample {p : PowerRead} {s : State} (hm : mainOn s = true) : exec (.powerSample p) s =
    .next (if s.pwr.winCount + 1 < 100 then sampleAdded p (powerMeasured p s)
      else judgePower ((s.pwr.winSum + p.mw) / 100) (windowClosed (sampleAdded p (powerMeasured p s)))) := by
  have hpwr := powerMeasured_pwr p s
  have hcount : (sampleAdded p (powerMeasured p s)).pwr.winCount = s.pwr.winCount + 1 := by rw [sampleAdded, hpwr]
  have hsum : (sampleAdded p (powerMeasured p s)).pwr.winSum = s.pwr.winSum + p.mw := by rw [sampleAdded, hpwr]
  rw [← hcount, ← hsum]
  exact congrArg Host.Outcome.next (if_neg (show ¬ (!mainOn s) = true by simp [hm]))

/-! ## Means -/

/-- A mean joins those kept, and the runs above and below the mode's maximum (R304). -/
def meanCounted (avg : Nat) (s : State) : State :=
  { s with pwr := { s.pwr with
      avg10 := avg, avgs := (avg :: s.pwr.avgs).take 100,
      overRun := if 105 * modePower s.mode.mode < 100 * avg then s.pwr.overRun + 1 else 0,
      underRun := if avg ≤ modePower s.mode.mode then s.pwr.underRun + 1 else 0 } }

/-- An overdraw stands (R304). -/
def overdrawn (s : State) : State :=
  { s with pwr := { s.pwr with capped := true, overCount := s.pwr.overCount + 1, overRun := 0 } }

/-- The overdraw is over (R304). -/
def overdrawEnded (s : State) : State := { s with pwr := { s.pwr with capped := false, underRun := 0 } }

theorem throttleEvent_pwr (code : Nat) (v : Int) (s : State) : (throttleEvent code v s).pwr = s.pwr :=
  (throttleEvent_fit (L := 0x800D02) (by decide) (Fit.refl _ s)).2 .pwr rfl

theorem throttleCleared_pwr (s : State) : (throttleCleared s).pwr = s.pwr :=
  (throttleCleared_fit (L := 0x800D42) (by decide) (Fit.refl _ s)).2 .pwr rfl

/-- The third mean in a row above 105 % of the maximum is an overdraw: event 0x04 and a throttle request (R304). -/
theorem judgePower_of_third_over {avg : Nat} {s : State} (hfree : s.pwr.capped = false) (hrun : s.pwr.overRun = 2)
    (hover : 105 * modePower s.mode.mode < 100 * avg) :
    judgePower avg s = throttleEvent 3 (avg / 10 : Nat) (raise 0x04 [] (overdrawn (meanCounted avg s))) :=
  if_pos (by simp [hfree, hrun, hover])

/-- The third mean in a row at or below the maximum ends the overdraw (R304). -/
theorem judgePower_of_third_under {avg : Nat} {s : State} (hcapped : s.pwr.capped = true) (hrun : s.pwr.underRun = 2)
    (hunder : avg ≤ modePower s.mode.mode) : judgePower avg s =
      if throttled s && !throttled (overdrawEnded (meanCounted avg s)) then throttleCleared (overdrawEnded (meanCounted avg s))
      else overdrawEnded (meanCounted avg s) :=
  (if_neg (by simp [hcapped])).trans (if_pos (by simp [hcapped, hrun, hunder]))

/-- Settles O28: a sample joins the window, the hundredth has its mean judged, and the third mean in a row sets or ends the
overdraw. -/
theorem powerManager : Obligations.PowerManager := by
  refine ⟨?_, ?_, ?_, ?_⟩
  · intro p s hm hwithin
    have hpwr := powerMeasured_pwr p s
    refine ⟨_, (exec_powerSample hm).trans (congrArg _ (if_pos hwithin)), ?_, ?_, ?_, ?_, le_ref_powerMeasured p s,
      sampleAdded_powerMeasured_keeps p s⟩ <;> rw [sampleAdded, hpwr]
  · intro p s hm hlast
    refine ⟨_, (exec_powerSample hm).trans (congrArg _ (if_neg (by omega))), ?_, rfl⟩
    rw [windowClosed, sampleAdded, powerMeasured_pwr]
  · intro avg s hfree hrun hover
    rw [judgePower_of_third_over hfree hrun hover, throttleEvent_pwr, raise_pwr]
    exact ⟨rfl, rfl⟩
  · intro avg s hcapped hrun hunder
    rw [judgePower_of_third_under hcapped hrun hunder]
    split
    · rw [throttleCleared_pwr]; rfl
    · rfl

end Sys2Proof.Machine
end

section
/-! PROOFS. Dewpoint (R311 to R318, R324, R325, R327). -/

namespace Sys2Proof.Machine

/-! ## A stack at 105.0 °C (R318) -/

theorem mode_ne_dormant_of_mainOn {s : State} (hm : mainOn s = true) : s.mode.mode ≠ .dormant := by
  rw [mainOn, Bool.and_eq_true] at hm
  exact bne_iff_ne.1 hm.1

/-- The readings of a sample stand (R305). -/
def readingsTaken (r : ThmRead) (s : State) : State :=
  onThm (fun t => { t with
    die := (List.range 24).map (fun i => r.die.getD i 0), hbm0 := r.hbm0.getD t.limHbmCrit, hbm1 := r.hbm1.getD t.limHbmCrit,
    hor := r.hor, lastSample := some s.time.ref, samples := t.samples + 1 }) { s with pwr := { s.pwr with eLast := s.pwr.e } }

/-- A sensor is judged by its own deviation: the stacks' readings stand (R306). -/
theorem judgeSensor_hbm0 (med : Int) (i : Nat) (s : State) : (judgeSensor med i s).thm.hbm0 = s.thm.hbm0 := by
  unfold judgeSensor
  split
  · rfl
  · extract_lets v n s1
    have hkept : s1.thm.hbm0 = s.thm.hbm0 := rfl
    split
    · rw [raise_thm, hkept]
    · exact hkept

theorem foldl_judgeSensor_hbm0 (med : Int) (l : List Nat) (s : State) :
    (l.foldl (fun s i => judgeSensor med i s) s).thm.hbm0 = s.thm.hbm0 :=
  List.foldlRecOn (motive := fun t : State => t.thm.hbm0 = s.thm.hbm0) l _ rfl
    fun t ht i _ => (judgeSensor_hbm0 med i t).trans ht

/-- Every sensor has been judged against the median of those in service (R306). -/
def sensorsJudged (s : State) : State :=
  (List.range 24).foldl (fun t i => judgeSensor (medianOf (((s.thm.die.zip s.thm.ok).filter (·.2)).map (·.1))) i t) s

/-- With fewer than 12 sensors left in service the die throttle request stands (R306). -/
def sensorsCounted (s : State) : State := onThm (fun t => { t with sensorsLow := t.sensorsLow || sensorsOk s < 12 }) s

theorem judgeSensors_eq (s : State) : judgeSensors s = sensorsCounted (sensorsJudged s) := rfl

theorem sensorsCounted_hbm0 (s : State) : (sensorsCounted s).thm.hbm0 = s.thm.hbm0 := rfl

theorem judgeSensors_hbm0 (s : State) : (judgeSensors s).thm.hbm0 = s.thm.hbm0 := by
  rw [judgeSensors_eq, sensorsCounted_hbm0, sensorsJudged, foldl_judgeSensor_hbm0]

theorem judgeSensors_mode (s : State) : (judgeSensors s).mode = s.mode :=
  (judgeSensors_fit (L := 0x800D02) (by decide) (Fit.refl _ s)).2 .mode rfl

/-- Stack 0 at 105.0 °C or above shuts the module down (R318). -/
theorem takeSample_of_hot {r : ThmRead} {v : Int} {s : State} (hm : mainOn s = true) (hread : r.hbm0 = some v) (hhot : 1050 ≤ v) :
    takeSample r s = thermalShutdown (judgeSensors (readingsTaken r s)) := by
  have hstack : 1050 ≤ (judgeSensors (readingsTaken r s)).thm.hbm0 := by
    rw [judgeSensors_hbm0, readingsTaken, onThm_thm, hread]; exact hhot
  rw [takeSample, if_neg (by simp [hm])]
  extract_lets s1 s2 before stood was s3
  have hjudged : s3 = judgeSensors (readingsTaken r s) := rfl
  rw [hjudged, if_pos (.inr (.inl hstack))]

/-- What the main domain held ends at the instant at which its power is lost (R302). -/
theorem mainEnded_ref (s : State) : (mainEnded s).time.ref = s.time.ref := by
  have hended : (mainEnded s).time = (recordTime (stdCrowbarNow s)).time :=
    (endFieldOpen_fit (L := 0x8840E06) (by decide) (emptyPools_fit (by decide) (loseBuffers_fit (by decide)
      (hostDown_fit (by decide) (Fit.refl _ _))))).2 .time rfl
  have hcrowbar : (stdCrowbarNow s).time = s.time := (stdCrowbarNow_fit (L := 0x900C1A) (by decide) (Fit.refl _ s)).2 .time rfl
  rw [hended, recordTime, hcrowbar]

theorem dormantLost_ref (s : State) : (dormantLost s).time.ref = s.time.ref := rfl

/-- The loss of power takes no time (R302). -/
theorem powerLoss_ref (src : Nat) {s : State} (h : s.mode.mode ≠ .dormant) : (powerLoss src s).time.ref = s.time.ref := by
  rw [powerLoss_eq_of_on src h, raise_time, raise_time, dormantLost_ref, mainEnded_ref]

/-- A thermal shutdown leaves the module in Dormant, where wakes are ignored for 60 s (R318). -/
theorem thermalShutdown_of_on {s : State} (h : s.mode.mode ≠ .dormant) : (thermalShutdown s).mode.mode = .dormant ∧
    (thermalShutdown s).mode.shutUntil = some ((thermalShutdown s).time.ref + 60 * nsPerSec) := by
  obtain ⟨hdormant, -⟩ := powerLoss_of_on 0x17 h
  exact ⟨hdormant, by rw [thermalShutdown, onMode_mode, onMode_time, powerLoss_ref 0x17 h]⟩

/-! ## Samples (R307, R308) -/

theorem exec_thermalSample {r : ThmRead} {s : State} (hm : mainOn s = true) :
    exec (.thermalSample r) s = .next (takeSample r (advanceRef (sampleDue s) s)) :=
  congrArg Host.Outcome.next (if_neg (by simp [hm]))

/-- The instant of a confirmation sample has come (R308). -/
def confirmationDue (x : Nat) (rest : List Nat) (s : State) : State := onThm (fun t => { t with confirm := rest }) (advanceRef x s)

theorem exec_confirmationSample {r : ThmRead} {x : Nat} {rest : List Nat} {s : State}
    (hfirst : sortBy (fun r => r) s.thm.confirm = x :: rest) :
    exec (.confirmationSample r) s = .next (takeSample r (confirmationDue x rest s)) := by
  change execConfirmationSample r s = _
  rw [execConfirmationSample, hfirst]
  rfl

/-- What an update of Dewpoint at an instant of the reference clock leaves alone. -/
theorem onThm_advanceRef_keeps (f : ThmSt → ThmSt) (r : Nat) (s : State) : Keeps [.thm, .time] s (onThm f (advanceRef r s)) :=
  (onThm_fit (L := 0x120) (by decide) (advanceRef_fit (by decide) (Fit.refl _ s))).keeps (by decide)

/-! ## Conditions (R312) -/

/-- A reading qualifies for a change of a condition. -/
def Cond.qualifies (c : Cond) (v level : Int) : Bool := if c.on then decide (v < level - 30) else decide (level ≤ v)

section
variable {c : Cond} {v level : Int}

/-- A reading that does not qualify starts the count anew. -/
theorem Cond.next_of_not_qualifies (h : c.qualifies v level = false) : c.next v level = ⟨c.on, 0⟩ :=
  if_pos (show (!c.qualifies v level) = true by simp [h])

theorem Cond.next_of_qualifies (h : c.qualifies v level = true) :
    c.next v level = if c.count + 1 < 3 then ⟨c.on, c.count + 1⟩ else ⟨!c.on, 0⟩ :=
  if_neg (show ¬ (!c.qualifies v level) = true by simp [h])

/-- The third reading in a row that qualifies changes the condition. -/
theorem Cond.next_of_third (h : c.qualifies v level = true) (hcount : c.count = 2) : c.next v level = ⟨!c.on, 0⟩ :=
  (Cond.next_of_qualifies h).trans (if_neg (by omega))

/-- An earlier one is counted. -/
theorem Cond.next_of_earlier (h : c.qualifies v level = true) (hcount : c.count < 2) : c.next v level = ⟨c.on, c.count + 1⟩ :=
  (Cond.next_of_qualifies h).trans (if_pos (by omega))

theorem Cond.qualifies_of_off (hoff : c.on = false) : c.qualifies v level = decide (level ≤ v) := if_neg (by simp [hoff])

theorem Cond.qualifies_of_on (hon : c.on = true) : c.qualifies v level = decide (v < level - 30) := if_pos hon

end

/-! ## The end of a warm-up (R311) -/

/-- THM_WARMUP_LIMIT has passed (R311). -/
def warmupFailed (at_ : Nat) (s : State) : State :=
  onThm (fun t => { t with warmup := none, warmFailed := true, warmLoad := false }) (advanceRef (at_ + pv s 0x020E * nsPerSec) s)

theorem exec_warmupLimitExpiry {at_ : Nat} {s : State} (hwarm : s.thm.warmup = some at_) :
    exec .warmupLimitExpiry s = .next (endHeld ⟨St.fault, 2, 0, 0⟩ (raise 0x1B [(1, 1)] (warmupFailed at_ s))) := by
  change execWarmupLimitExpiry s = _
  rw [execWarmupLimitExpiry, hwarm]
  rfl

theorem le_ref_warmupFailed (at_ : Nat) (s : State) : at_ + pv s 0x020E * nsPerSec ≤ (warmupFailed at_ s).time.ref := by
  rw [warmupFailed, onThm_time]; exact le_ref_advanceRef ..

theorem endHeld_thm (v : Verdict) (s : State) : (endHeld v s).thm = s.thm :=
  (endHeld_fit (L := 0x800E42) (by decide) (Fit.refl _ s)).2 .thm rfl

theorem endHeld_time (v : Verdict) (s : State) : (endHeld v s).time = s.time :=
  (endHeld_fit (L := 0x800E42) (by decide) (Fit.refl _ s)).2 .time rfl

/-- Of the MODE_SETs held, those held for device memory have ended (R293). -/
theorem endHeld_heldSet (v : Verdict) (s : State) : (endHeld v s).mode.heldSet = s.mode.heldSet.filter (fun e => !e.judged) :=
  congrArg ModeSt.heldSet ((Fit.foldl (Fit.refl notMode _) fun _ _ h => finish_fit (by decide) h).mode_eq)

theorem not_judged_of_mem_endHeld {v : Verdict} {s : State} : ∀ e ∈ (endHeld v s).mode.heldSet, e.judged = false := by
  intro e he
  rw [endHeld_heldSet] at he
  simpa using (List.mem_filter.1 he).2

/-! ## A request enforced (R315) -/

/-- The grace and the target of THROTTLE_ACK are dropped (R315). -/
def graceEnded (s : State) : State := onThm (fun t => { t with grace := none, ack := none }) s

/-- A throttle is counted. -/
def throttleCounted (s : State) : State := onThm (fun t => { t with throttles := t.throttles + 1 }) s

theorem requestCounted_time (s : State) : (throttleCounted (graceEnded s)).time = s.time := rfl

/-- The cause of the step-down that a request brings (R315). -/
def requestCause (s : State) : Nat := if dieRequest s || hbmRequest s then 2 else 3

/-- The target of THROTTLE_ACK, where it names a mode (R327). -/
def ackTarget (s : State) : Option Nat := match s.thm.ack with | some 0xFF => none | x => x

theorem enforce_of_quiet {s : State} (hquiet : s.hwd.quiesce = none) : enforce s =
    stepDown (requestCause s) (ackTarget s) (merNs (throttleCounted (graceEnded s)))
      (raise 0x13 [] (throttleCounted (graceEnded s))) :=
  if_neg (show ¬ s.hwd.quiesce.isSome = true by simp [hquiet])

/-- In the quiesce nothing is enforced (R549). -/
theorem enforce_of_quiesce {s : State} (hquiesce : s.hwd.quiesce ≠ none) : enforce s = graceEnded s :=
  if_pos (Option.isSome_iff_ne_none.2 hquiesce)

theorem dieRequest_congr {s t : State} (hthm : t.thm = s.thm) : dieRequest t = dieRequest s := by rw [dieRequest, hthm, dieRequest]

theorem hbmRequest_congr {s t : State} (hthm : t.thm = s.thm) : hbmRequest t = hbmRequest s := by rw [hbmRequest, hthm, hbmRequest]

theorem throttled_congr {s t : State} (hthm : t.thm = s.thm) (hpwr : t.pwr = s.pwr) : throttled t = throttled s := by
  rw [throttled, dieRequest_congr hthm, hbmRequest_congr hthm, hpwr, throttled]

theorem requestCause_congr {s t : State} (hthm : t.thm = s.thm) : requestCause t = requestCause s := by
  rw [requestCause, dieRequest_congr hthm, hbmRequest_congr hthm, requestCause]

theorem ackTarget_congr {s t : State} (hthm : t.thm = s.thm) : ackTarget t = ackTarget s := by rw [ackTarget, hthm, ackTarget]

/-- The enforcement time has come: the request is enforced where it stands (R315). -/
theorem exec_throttleGraceExpiry {at_ : Nat} {s : State} (hgrace : s.thm.grace = some at_) : exec .throttleGraceExpiry s =
    .next (if throttled s then enforce (advanceMer at_ s) else onThm (fun t => { t with grace := none }) (advanceMer at_ s)) := by
  change execThrottleGraceExpiry s = _
  rw [execThrottleGraceExpiry, hgrace, ← throttled_congr (advanceMer_thm at_ s) (advanceMer_pwr at_ s)]
  rfl

theorem exec_throttleGraceExpiry_enforced {at_ : Nat} {s : State} (hgrace : s.thm.grace = some at_) (hstands : throttled s = true)
    (hquiet : s.hwd.quiesce = none) : exec .throttleGraceExpiry s =
      .next (stepDown (requestCause s) (ackTarget s) (merNs (throttleCounted (graceEnded (advanceMer at_ s))))
        (raise 0x13 [] (throttleCounted (graceEnded (advanceMer at_ s))))) := by
  rw [exec_throttleGraceExpiry hgrace, if_pos hstands, enforce_of_quiet ((congrArg _ (advanceMer_hwd ..)).trans hquiet),
    requestCause_congr (advanceMer_thm ..), ackTarget_congr (advanceMer_thm ..)]

/-- What an update of Dewpoint at an instant of Meridian time leaves alone. -/
theorem onThm_advanceMer_fit (f : ThmSt → ThmSt) (t : Nat) (s : State) : Fit 0x120 s (onThm f (advanceMer t s)) :=
  onThm_fit (by decide) (advanceMer_fit (by decide) (Fit.refl _ s))

/-- Without a request, or in the quiesce, only the grace ends (R315, R549). -/
theorem exec_throttleGraceExpiry_dropped {at_ : Nat} {s : State} (hgrace : s.thm.grace = some at_)
    (hidle : throttled s = false ∨ s.hwd.quiesce ≠ none) :
    ∃ t, exec .throttleGraceExpiry s = .next t ∧ t.thm.grace = none ∧ Keeps [.thm, .time] s t := by
  by_cases hstands : throttled s = true
  · have hquiesce : (advanceMer at_ s).hwd.quiesce ≠ none := by
      rw [advanceMer_hwd]; exact hidle.resolve_left (by simp [hstands])
    refine ⟨_, (exec_throttleGraceExpiry hgrace).trans (congrArg _ (if_pos hstands)), ?_, ?_⟩ <;> rw [enforce_of_quiesce hquiesce]
    · rfl
    · exact (onThm_advanceMer_fit _ at_ s).keeps (by decide)
  · exact ⟨_, (exec_throttleGraceExpiry hgrace).trans (congrArg _ (if_neg hstands)), rfl,
      (onThm_advanceMer_fit _ at_ s).keeps (by decide)⟩

/-! ## The end of the 60 s after a shutdown (R318) -/

/-- Wakes are ignored no more (R318). -/
def holdEnded (at_ : Nat) (s : State) : State := onMode (fun m => { m with shutUntil := none }) (advanceRef at_ s)

theorem exec_shutdownHoldExpiry {at_ : Nat} {s : State} (hhold : s.mode.shutUntil = some at_) :
    exec .shutdownHoldExpiry s = .next (holdEnded at_ s) := by
  change execShutdownHoldExpiry s = _
  rw [execShutdownHoldExpiry, hhold]
  rfl

/-! ## The commands (R324, R325, R327) -/

theorem taken_thm_of_pre_id {r : Row} (hpre : r.pre = id) (s : State) : (taken r s).thm = s.thm :=
  taken_thm r s fun _ => by rw [hpre]; rfl

/-- What a packet that changes only Dewpoint before its reply leaves alone. -/
theorem onThm_taken_keeps {r : Row} (hpre : r.pre = id) (f : ThmSt → ThmSt) (s : State) :
    Keeps [.thm, .buf, .cmd, .sbd] s (onThm f (taken r s)) :=
  (onThm_fit (L := 0x800700) (by decide) (taken_fit_of_pre_id (by decide) hpre s)).keeps (by decide)

/-- THERMAL_READ in Dormant: only the Horizon sensor is read (R300, R324). -/
theorem thermalWords_of_off {s : State} (hoff : mainOn s = false) :
    thermalWords 0 s = okay 0x80008000 0x80008000 (temp16 s.thm.hor) := by
  rw [thermalWords, if_neg (by decide), if_pos (by simp [hoff])]

/-- A die sensor out of service reads as 0x8000 (R324). -/
theorem sensor16_of_out {i : Nat} {s : State} (hout : s.thm.ok.getD i false = false) : sensor16 i s = 0x8000 :=
  if_neg (by simp only [hout, Bool.and_false, Bool.false_eq_true, not_false_eq_true])

/-- The limits of THERMAL_LIMITS_SET (R325). -/
def limitsSet (p : ThermalLimitsP) (t : ThmSt) : ThmSt :=
  { t with limDieWarn := p.warn.toNat, limDieReq := p.request.toNat, limDieCrit := p.critical.toNat,
           limHbmReq := p.hbmRequest.toNat, limHbmCrit := p.hbmCritical.toNat }

theorem exec_thermalLimitsSet {h : Hdr} {p : ThermalLimitsP} {s : State} (hs : served (rowThermalLimitsSet h p) s = true) :
    exec (.thermalLimitsSet h p) s =
      .next (finish h 0x0702 (okay) (onThm (limitsSet p) (taken (rowThermalLimitsSet h p) s))) :=
  congrArg Host.Outcome.next (command_of_served hs)

/-- THROTTLE_ACK keeps its target (R327). -/
def targetKept (p : ThrottleAckP) (s : State) : State := onThm (fun t => { t with ack := some p.target.toNat }) s

/-- The target leaves the enforcement time (R327). -/
theorem targetKept_grace {h : Hdr} (p : ThrottleAckP) (s : State) :
    (targetKept p (taken (rowThrottleAck h p) s)).thm.grace = s.thm.grace :=
  show (taken (rowThrottleAck h p) s).thm.grace = s.thm.grace by rw [taken_thm_of_pre_id rfl]

theorem graceLeft_congr {s t : State} (hgrace : t.thm.grace = s.thm.grace) (htime : t.time = s.time) : graceLeft t = graceLeft s := by
  rw [graceLeft, hgrace, merNs_congr htime, graceLeft]

theorem rowThrottleAck_run (h : Hdr) (p : ThrottleAckP) (s : State) : (rowThrottleAck h p).run s =
    if p.flags.toNat.testBit 0 then enforce (finish h 0x0703 (okay) (targetKept p s))
    else finish h 0x0703 (okay (graceLeft (targetKept p s))) (targetKept p s) := rfl

/-- Without its flag THROTTLE_ACK answers the time that the grace still has (R327). -/
theorem exec_throttleAck_later {h : Hdr} {p : ThrottleAckP} {s : State} (hlater : p.flags.toNat.testBit 0 = false)
    (hs : served (rowThrottleAck h p) s = true) : exec (.throttleAck h p) s =
      .next (finish h 0x0703 (okay (graceLeft s)) (targetKept p (taken (rowThrottleAck h p) s))) := by
  have hleft : graceLeft (targetKept p (taken (rowThrottleAck h p) s)) = graceLeft s :=
    graceLeft_congr (targetKept_grace p s) (taken_time_of_pre_id (r := rowThrottleAck h p) rfl s)
  refine congrArg Host.Outcome.next ((command_of_served hs).trans ?_)
  rw [rowThrottleAck_run, if_neg (by simp [hlater]), hleft]

/-- With it the request is enforced at once (R327). -/
theorem exec_throttleAck_now {h : Hdr} {p : ThrottleAckP} {s : State} (hnow : p.flags.toNat.testBit 0 = true)
    (hs : served (rowThrottleAck h p) s = true) : exec (.throttleAck h p) s =
      .next (enforce (finish h 0x0703 (okay) (targetKept p (taken (rowThrottleAck h p) s)))) :=
  congrArg Host.Outcome.next ((command_of_served hs).trans ((rowThrottleAck_run ..).trans (if_pos hnow)))

/-- Settles O29: the samples and conditions, the four instants of Dewpoint, and its three commands. -/
theorem thermal : Obligations.Thermal := by
  refine ⟨⟨?_, ?_, ?_, ?_, ?_, ?_, ?_⟩, ⟨?_, ?_, ?_, ?_⟩, ?_, ?_, ?_, ?_, ?_, ?_⟩
  · intro r v s hm hread hhot
    have hm' : mainOn (advanceRef (sampleDue s) s) = true := by rw [mainOn, moduleDown, advanceRef_mode, advanceRef_evt]; exact hm
    refine ⟨_, (exec_thermalSample hm).trans (congrArg _ (takeSample_of_hot hm' hread hhot)), thermalShutdown_of_on ?_⟩
    rw [judgeSensors_mode]
    exact mode_ne_dormant_of_mainOn hm'
  · intro r s hm
    exact exec_thermalSample hm
  · intro r x rest s hfirst
    exact ⟨_, exec_confirmationSample hfirst, rfl, le_ref_advanceRef .., onThm_advanceRef_keeps _ x s⟩
  · intro c v level hoff hcount hreach
    rw [Cond.next_of_third (by simp [Cond.qualifies_of_off hoff, hreach]) hcount, hoff]
    rfl
  · intro c v level hoff hcount hreach
    rw [Cond.next_of_earlier (by simp [Cond.qualifies_of_off hoff, hreach]) hcount, hoff]
  · intro c v level hon hcount hbelow
    rw [Cond.next_of_third (by simp [Cond.qualifies_of_on hon, hbelow]) hcount, hon]
    rfl
  · intro c v level hon hwithin
    rw [Cond.next_of_not_qualifies (by simp [Cond.qualifies_of_on hon, hwithin]), hon]
  · intro s at_ hwarm
    refine ⟨_, exec_warmupLimitExpiry hwarm, ?_, ?_, ?_, not_judged_of_mem_endHeld⟩
    · rw [endHeld_thm, raise_thm]; rfl
    · rw [endHeld_thm, raise_thm]; rfl
    · rw [endHeld_time, raise_time]; exact le_ref_warmupFailed at_ s
  · intro s at_ hgrace hstands hquiet
    exact ⟨_, _, throttleCounted (graceEnded (advanceMer at_ s)), exec_throttleGraceExpiry_enforced hgrace hstands hquiet, rfl, rfl,
      rfl, rfl, le_merNs_of_time (requestCounted_time _),
      (onThm_fit (L := 0x120) (by decide) (onThm_advanceMer_fit _ at_ s)).keeps (by decide)⟩
  · intro s at_ hgrace hidle
    exact exec_throttleGraceExpiry_dropped hgrace hidle
  · intro s at_ hhold
    exact ⟨_, exec_shutdownHoldExpiry hhold, rfl, le_ref_advanceRef ..,
      (onMode_fit (L := 0x60) (by decide) (advanceRef_fit (by decide) (Fit.refl _ s))).keeps (by decide)⟩
  · intro h p s hs
    exact congrArg Host.Outcome.next (command_of_served hs)
  · intro s hoff
    exact thermalWords_of_off hoff
  · intro i s _ hout
    exact sensor16_of_out hout
  · intro h p s hs
    exact ⟨_, exec_thermalLimitsSet hs, rfl, rfl, rfl, rfl, rfl, onThm_taken_keeps rfl _ s⟩
  · intro h p s hlater hs
    exact ⟨_, exec_throttleAck_later hlater hs, rfl, targetKept_grace p s, onThm_taken_keeps rfl _ s⟩
  · intro h p s hnow hs
    exact ⟨_, exec_throttleAck_now hnow hs, rfl, onThm_taken_keeps rfl _ s⟩

end Sys2Proof.Machine
end

section
/-! PROOFS. The state after reset. -/

namespace Sys2Proof.Machine

theorem genOf_reset (pool idx : Nat) : genOf State.reset pool idx = 1 := rfl

/-- Every ring pair, and every index past the sixteenth, reads as a pair at its reset values. -/
theorem ringOf_reset (k : Nat) : ringOf State.reset k = {} := by
  rw [ringOf, List.getD_eq_getElem?_getD]; exact List.getElem?_getD_replicate_default_eq ..

theorem pv_reset (id : Nat) : pv State.reset id = pReset id := rfl

/-- Settles O2: no generation, ring or parameter differs from its reset value (where the specification gives none, the model's
choice, log entry 1). -/
theorem resetValues : Obligations.ResetValues :=
  ⟨rfl, genOf_reset, rfl, rfl, rfl, fun k _ => by rw [ringOf_reset], rfl, rfl, pv_reset, rfl, rfl, rfl⟩

end Sys2Proof.Machine
end

section
/-! PROOFS. What every command keeps: the invariant, and every part of the state that `touches` does not name. -/

namespace Sys2Proof.Machine

/-! ## The parts a list names, as a mask -/

/-- The mask of a list of parts. -/
def partMask (l : List Part) : Nat := l.foldr (fun p m => 2 ^ p.bit ||| m) 0

theorem Part.bit_injective : Function.Injective Part.bit :=
  Function.LeftInverse.injective (g := fun n => partList.getD n .pending) (fun p => by cases p <;> rfl)

theorem testBit_partMask (l : List Part) (p : Part) : (partMask l).testBit p.bit = l.contains p := by
  induction l with
  | nil => simp [partMask]
  | cons q l ih =>
    simp only [partMask, List.foldr_cons, Nat.testBit_or, Nat.testBit_two_pow, List.contains_cons] at ih ⊢
    rw [ih]; congr 1
    simp only [Part.bit_injective.eq_iff, eq_comm (a := q)]; rfl

theorem Fit.keeps_partMask {l : List Part} {s t : State} (h : Fit (partMask l) s t) : Keeps l s t := fun p hp =>
  h.2 p (by rw [testBit_partMask]; simpa using hp)

/-! ## Every command fits its parts -/

/-- Every command but the loss of VAUX, which starts from a new state, carries on the invariant and touches the parts of its row. -/
theorem exec_fit {c : Instr} {s t : State} (hc : c ≠ .vauxLost) (h : exec c s = .next t) : Fit (partMask (touches c)) s t := by
  cases c <;> dsimp only [touches, exec] at h ⊢
  case bandInstant => exact execBandInstant_fit (by decide) (.refl _ s) t h
  case flatRowWrite => exact execFlatRowWrite_fit (by decide) (.refl _ s) t h
  case scnHeadFault => exact execScnHeadFault_fit (by decide) (.refl _ s) t h
  case timingSet => exact execTimingSet_fit (by decide) (.refl _ s) t h
  case layerSet => exact execLayerSet_fit (by decide) (.refl _ s) t h
  case layerEnable => exact execLayerEnable_fit (by decide) (.refl _ s) t h
  case starlightSet => exact execStarlightSet_fit (by decide) (.refl _ s) t h
  case scanoutStatus => exact execScanoutStatus_fit (by decide) (.refl _ s) t h
  case modeSet => exact execModeSet_fit (by decide) (.refl _ s) t h
  case modeGet => exact execModeGet_fit (by decide) (.refl _ s) t h
  case panelLoad => exact execPanelLoad_fit (by decide) (.refl _ s) t h
  case sceneOpen => exact execSceneOpen_fit (by decide) (.refl _ s) t h
  case sceneFeed => exact execSceneFeed_fit (by decide) (.refl _ s) t h
  case sceneCloseDrain => exact execSceneCloseDrain_fit (by decide) (.refl _ s) t h
  case sceneCloseNow => exact execSceneCloseNow_fit (by decide) (.refl _ s) t h
  case streamDatagram => exact execStreamDatagram_fit (by decide) (.refl _ s) t h
  case streamFrameDecodeStart => exact execStreamFrameDecodeStart_fit (by decide) (.refl _ s) t h
  case streamFrameDecoded => exact execStreamFrameDecoded_fit (by decide) (.refl _ s) t h
  case sessionEndComplete => exact execSessionEndComplete_fit (by decide) (.refl _ s) t h
  case codecJobCompress => exact execCodecJobCompress_fit (by decide) (.refl _ s) t h
  case codecJobDecompress => exact execCodecJobDecompress_fit (by decide) (.refl _ s) t h
  case codecResume => exact execCodecResume_fit (by decide) (.refl _ s) t h
  case codecAbort => exact execCodecAbort_fit (by decide) (.refl _ s) t h
  case cirrusBlockStart => exact execCirrusBlockStart_fit (by decide) (.refl _ s) t h
  case cirrusBlockDone => exact execCirrusBlockDone_fit (by decide) (.refl _ s) t h
  case cdcHostStarved => exact execCdcHostStarved_fit (by decide) (.refl _ s) t h
  case cdcSuspendLimitExpiry => exact execCdcSuspendLimitExpiry_fit (by decide) (.refl _ s) t h
  case cdcEngineFault => exact execCdcEngineFault_fit (by decide) (.refl _ s) t h
  case synDeadline => exact execSynDeadline_fit (by decide) (.refl _ s) t h
  case synGroupFault => exact execSynGroupFault_fit (by decide) (.refl _ s) t h
  case frameSubmit => exact execFrameSubmit_fit (by decide) (.refl _ s) t h
  case frameStatus => exact execFrameStatus_fit (by decide) (.refl _ s) t h
  case viewShift => exact execViewShift_fit (by decide) (.refl _ s) t h
  case camCfgPort => exact execCamCfgPort_fit (by decide) (.refl _ s) t h
  case camCfgOff => exact execCamCfgOff_fit (by decide) (.refl _ s) t h
  case camCfgI2c => exact execCamCfgI2c_fit (by decide) (.refl _ s) t h
  case camI2cTransferDone => exact execCamI2cTransferDone_fit (by decide) (.refl _ s) t h
  case camCfgMap => exact execCamCfgMap_fit (by decide) (.refl _ s) t h
  case camTriggerCfg => exact execCamTriggerCfg_fit (by decide) (.refl _ s) t h
  case sweepCfg => exact execSweepCfg_fit (by decide) (.refl _ s) t h
  case camStatus => exact execCamStatus_fit (by decide) (.refl _ s) t h
  case camLinkUp => exact execCamLinkUp_fit (by decide) (.refl _ s) t h
  case camLinkDown => exact execCamLinkDown_fit (by decide) (.refl _ s) t h
  case camTrigger => exact execCamTrigger_fit (by decide) (.refl _ s) t h
  case csi2Frame => exact execCsi2Frame_fit (by decide) (.refl _ s) t h
  case camWindowEnd => exact execCamWindowEnd_fit (by decide) (.refl _ s) t h
  case camPresInput => exact execCamPresInput_fit (by decide) (.refl _ s) t h
  case swpFault => exact execSwpFault_fit (by decide) (.refl _ s) t h
  case panelLinkTrain => exact execPanelLinkTrain_fit (by decide) (.refl _ s) t h
  case panelPresRearm => exact execPanelPresRearm_fit (by decide) (.refl _ s) t h
  case hello => exact execHello_fit (by decide) (.refl _ s) t h
  case tstat => exact execTstat_fit (by decide) (.refl _ s) t h
  case panelCinit => exact execPanelCinit_fit (by decide) (.refl _ s) t h
  case ack => exact execAck_fit (by decide) (.refl _ s) t h
  case nak => exact execNak_fit (by decide) (.refl _ s) t h
  case status => exact execStatus_fit (by decide) (.refl _ s) t h
  case pevt => exact execPevt_fit (by decide) (.refl _ s) t h
  case trainingAttempt => exact execTrainingAttempt_fit (by decide) (.refl _ s) t h
  case trainingAttemptTimeout => exact execTrainingAttemptTimeout_fit (by decide) (.refl _ s) t h
  case trainingRetry => exact execTrainingRetry_fit (by decide) (.refl _ s) t h
  case plkAckTimeout => exact execPlkAckTimeout_fit (by decide) (.refl _ s) t h
  case panelPresChange => exact execPanelPresChange_fit (by decide) (.refl _ s) t h
  case plkPresStuck => exact execPlkPresStuck_fit (by decide) (.refl _ s) t h
  case backLaneLockLoss => exact execBackLaneLockLoss_fit (by decide) (.refl _ s) t h
  case plkHalfDown => exact execPlkHalfDown_fit (by decide) (.refl _ s) t h
  case plkHalfPresent => exact execPlkHalfPresent_fit (by decide) (.refl _ s) t h
  case thermistorSample => exact execThermistorSample_fit (by decide) (.refl _ s) t h
  case stdOvercurrent => exact execStdOvercurrent_fit (by decide) (.refl _ s) t h
  case steerCfg => exact execSteerCfg_fit (by decide) (.refl _ s) t h
  case steerStatus => exact execSteerStatus_fit (by decide) (.refl _ s) t h
  case timeGet => exact execTimeGet_fit (by decide) (.refl _ s) t h
  case timeSetAbsolute => exact execTimeSetAbsolute_fit (by decide) (.refl _ s) t h
  case timeSetRelative => exact execTimeSetRelative_fit (by decide) (.refl _ s) t h
  case timeSetAtPps => exact execTimeSetAtPps_fit (by decide) (.refl _ s) t h
  case timeAdjustSlew => exact execTimeAdjustSlew_fit (by decide) (.refl _ s) t h
  case timeAdjustFrequency => exact execTimeAdjustFrequency_fit (by decide) (.refl _ s) t h
  case ptpPortCfg => exact execPtpPortCfg_fit (by decide) (.refl _ s) t h
  case ptpEventMessage => exact execPtpEventMessage_fit (by decide) (.refl _ s) t h
  case ptpMessageTx => exact execPtpMessageTx_fit (by decide) (.refl _ s) t h
  case timerArm => exact execTimerArm_fit (by decide) (.refl _ s) t h
  case timerCancel => exact execTimerCancel_fit (by decide) (.refl _ s) t h
  case timeTimer => exact execTimeTimer_fit (by decide) (.refl _ s) t h
  case ppsInEdge => exact execPpsInEdge_fit (by decide) (.refl _ s) t h
  case mtNsRead => exact execMtNsRead_fit (by decide) (.refl _ s) t h
  case vauxPowerGood => exact execVauxPowerGood_fit (by decide) (.refl _ s) t h
  case pwrVmainRange => exact execPwrVmainRange_fit (by decide) (.refl _ s) t h
  case powerSample => exact execPowerSample_fit (by decide) (.refl _ s) t h
  case thermalSample => exact execThermalSample_fit (by decide) (.refl _ s) t h
  case confirmationSample => exact execConfirmationSample_fit (by decide) (.refl _ s) t h
  case horizonSensorRead => exact execHorizonSensorRead_fit (by decide) (.refl _ s) t h
  case thermalRead => exact execThermalRead_fit (by decide) (.refl _ s) t h
  case thermalLimitsSet => exact execThermalLimitsSet_fit (by decide) (.refl _ s) t h
  case throttleAck => exact execThrottleAck_fit (by decide) (.refl _ s) t h
  case wake => exact execWake_fit (by decide) (.refl _ s) t h
  case dmcReady => exact execDmcReady_fit (by decide) (.refl _ s) t h
  case calWindowOpen => exact execCalWindowOpen_fit (by decide) (.refl _ s) t h
  case calWindowClose => exact execCalWindowClose_fit (by decide) (.refl _ s) t h
  case dmcRefresh => exact execDmcRefresh_fit (by decide) (.refl _ s) t h
  case dmcPageIdleExpiry => exact execDmcPageIdleExpiry_fit (by decide) (.refl _ s) t h
  case bar2Read => exact execBar2Read_fit (by decide) (.refl _ s) t h
  case bar2Write => exact execBar2Write_fit (by decide) (.refl _ s) t h
  case paramSetDmcHash => exact execParamSetDmcHash_fit (by decide) (.refl _ s) t h
  case paramSetDmcDly => exact execParamSetDmcDly_fit (by decide) (.refl _ s) t h
  case bufAlloc => exact execBufAlloc_fit (by decide) (.refl _ s) t h
  case bufFree => exact execBufFree_fit (by decide) (.refl _ s) t h
  case bufCopy => exact execBufCopy_fit (by decide) (.refl _ s) t h
  case bufCopyDone => exact execBufCopyDone_fit (by decide) (.refl _ s) t h
  case bufQuery => exact execBufQuery_fit (by decide) (.refl _ s) t h
  case ledgerRead => exact execLedgerRead_fit (by decide) (.refl _ s) t h
  case ledgerAuditTick => exact execLedgerAuditTick_fit (by decide) (.refl _ s) t h
  case ringEnable => exact execRingEnable_fit (by decide) (.refl _ s) t h
  case ringDisable => exact execRingDisable_fit (by decide) (.refl _ s) t h
  case ringDrained => exact execRingDrained_fit (by decide) (.refl _ s) t h
  case sqTail => exact execSqTail_fit (by decide) (.refl _ s) t h
  case cqHead => exact execCqHead_fit (by decide) (.refl _ s) t h
  case leaseHb => exact execLeaseHb_fit (by decide) (.refl _ s) t h
  case safeReq => exact execSafeReq_fit (by decide) (.refl _ s) t h
  case registerWrite => exact execRegisterWrite_fit (by decide) (.refl _ s) t h
  case reg64LowRead => exact execReg64LowRead_fit (by decide) (.refl _ s) t h
  case pcieLinkDown => exact execPcieLinkDown_fit (by decide) (.refl _ s) t h
  case deferredAcceptance => exact execDeferredAcceptance_fit (by decide) (.refl _ s) t h
  case scheduledCommandRun => exact execScheduledCommandRun_fit (by decide) (.refl _ s) t h
  case cmdDeadline => exact execCmdDeadline_fit (by decide) (.refl _ s) t h
  case sbT1Datagram => exact execSbT1Datagram_fit (by decide) (.refl _ s) t h
  case mctpMessage => exact execMctpMessage_fit (by decide) (.refl _ s) t h
  case setEndpointId => exact execSetEndpointId_fit (by decide) (.refl _ s) t h
  case getEndpointId => exact execGetEndpointId_fit (by decide) (.refl _ s) t h
  case getMctpVersionSupport => exact execGetMctpVersionSupport_fit (by decide) (.refl _ s) t h
  case getMessageTypeSupport => exact execGetMessageTypeSupport_fit (by decide) (.refl _ s) t h
  case nop => exact execNop_fit (by decide) (.refl _ s) t h
  case getInfo => exact execGetInfo_fit (by decide) (.refl _ s) t h
  case paramGet => exact execParamGet_fit (by decide) (.refl _ s) t h
  case paramSet => exact execParamSet_fit (by decide) (.refl _ s) t h
  case paramList => exact execParamList_fit (by decide) (.refl _ s) t h
  case leaseTake => exact execLeaseTake_fit (by decide) (.refl _ s) t h
  case leaseRenew => exact execLeaseRenew_fit (by decide) (.refl _ s) t h
  case leaseRelease => exact execLeaseRelease_fit (by decide) (.refl _ s) t h
  case evtPendWrite => exact execEvtPendWrite_fit (by decide) (.refl _ s) t h
  case evtMaskWrite => exact execEvtMaskWrite_fit (by decide) (.refl _ s) t h
  case evqCtlWrite => exact execEvqCtlWrite_fit (by decide) (.refl _ s) t h
  case evqHead => exact execEvqHead_fit (by decide) (.refl _ s) t h
  case eventLogRead => exact execEventLogRead_fit (by decide) (.refl _ s) t h
  case resetLevel1 => exact execResetLevel1_fit (by decide) (.refl _ s) t h
  case resetLevel2 => exact execResetLevel2_fit (by decide) (.refl _ s) t h
  case resetLevel3 => exact execResetLevel3_fit (by decide) (.refl _ s) t h
  case resetLevel4 => exact execResetLevel4_fit (by decide) (.refl _ s) t h
  case diagCapture => exact execDiagCapture_fit (by decide) (.refl _ s) t h
  case recoveryStart => exact execRecoveryStart_fit (by decide) (.refl _ s) t h
  case recoveryEnd => exact execRecoveryEnd_fit (by decide) (.refl _ s) t h
  case ethFrameRx => exact execEthFrameRx_fit (by decide) (.refl _ s) t h
  case ethFrameTx => exact execEthFrameTx_fit (by decide) (.refl _ s) t h
  case gateControlEvent => exact execGateControlEvent_fit (by decide) (.refl _ s) t h
  case netSchedSwitch => exact execNetSchedSwitch_fit (by decide) (.refl _ s) t h
  case frerResetTimeout => exact execFrerResetTimeout_fit (by decide) (.refl _ s) t h
  case netLinkUp => exact execNetLinkUp_fit (by decide) (.refl _ s) t h
  case netLinkDown => exact execNetLinkDown_fit (by decide) (.refl _ s) t h
  case netPortCfg => exact execNetPortCfg_fit (by decide) (.refl _ s) t h
  case netVlanCfgVlan => exact execNetVlanCfgVlan_fit (by decide) (.refl _ s) t h
  case netVlanCfgStaticEntry => exact execNetVlanCfgStaticEntry_fit (by decide) (.refl _ s) t h
  case netVlanCfgPriorityMap => exact execNetVlanCfgPriorityMap_fit (by decide) (.refl _ s) t h
  case netVlanCfgStream => exact execNetVlanCfgStream_fit (by decide) (.refl _ s) t h
  case netSchedCfgWrite => exact execNetSchedCfgWrite_fit (by decide) (.refl _ s) t h
  case netSchedCfgCommit => exact execNetSchedCfgCommit_fit (by decide) (.refl _ s) t h
  case netSchedCfgDisable => exact execNetSchedCfgDisable_fit (by decide) (.refl _ s) t h
  case netStats => exact execNetStats_fit (by decide) (.refl _ s) t h
  case nvRead => exact execNvRead_fit (by decide) (.refl _ s) t h
  case nvWrite => exact execNvWrite_fit (by decide) (.refl _ s) t h
  case nvWriteDelete => exact execNvWriteDelete_fit (by decide) (.refl _ s) t h
  case nvUnlock => exact execNvUnlock_fit (by decide) (.refl _ s) t h
  case nvLock => exact execNvLock_fit (by decide) (.refl _ s) t h
  case nvLockSetPassword => exact execNvLockSetPassword_fit (by decide) (.refl _ s) t h
  case nvLockRemovePassword => exact execNvLockRemovePassword_fit (by decide) (.refl _ s) t h
  case nvCounterAdd => exact execNvCounterAdd_fit (by decide) (.refl _ s) t h
  case nvLogRead => exact execNvLogRead_fit (by decide) (.refl _ s) t h
  case calRun => exact execCalRun_fit (by decide) (.refl _ s) t h
  case calAutoTrigger => exact execCalAutoTrigger_fit (by decide) (.refl _ s) t h
  case calDone => exact execCalDone_fit (by decide) (.refl _ s) t h
  case calStale => exact execCalStale_fit (by decide) (.refl _ s) t h
  case calExport => exact execCalExport_fit (by decide) (.refl _ s) t h
  case calImport => exact execCalImport_fit (by decide) (.refl _ s) t h
  case calStatus => exact execCalStatus_fit (by decide) (.refl _ s) t h
  case testRun => exact execTestRun_fit (by decide) (.refl _ s) t h
  case testEnd => exact execTestEnd_fit (by decide) (.refl _ s) t h
  case testResult => exact execTestResult_fit (by decide) (.refl _ s) t h
  case testAbort => exact execTestAbort_fit (by decide) (.refl _ s) t h
  case tstBusy => exact execTstBusy_fit (by decide) (.refl _ s) t h
  case lifeGet => exact execLifeGet_fit (by decide) (.refl _ s) t h
  case challengeGetNew => exact execChallengeGetNew_fit (by decide) (.refl _ s) t h
  case challengeGetPart => exact execChallengeGetPart_fit (by decide) (.refl _ s) t h
  case responsePut => exact execResponsePut_fit (by decide) (.refl _ s) t h
  case passwordPut => exact execPasswordPut_fit (by decide) (.refl _ s) t h
  case attestQuoteForm => exact execAttestQuoteForm_fit (by decide) (.refl _ s) t h
  case attestQuotePart => exact execAttestQuotePart_fit (by decide) (.refl _ s) t h
  case lifeAdvance => exact execLifeAdvance_fit (by decide) (.refl _ s) t h
  case keyInstallOwnerKey => exact execKeyInstallOwnerKey_fit (by decide) (.refl _ s) t h
  case keyInstallFleetKey => exact execKeyInstallFleetKey_fit (by decide) (.refl _ s) t h
  case keyInstallPassword => exact execKeyInstallPassword_fit (by decide) (.refl _ s) t h
  case keyInstallRemovePassword => exact execKeyInstallRemovePassword_fit (by decide) (.refl _ s) t h
  case fwBegin => exact execFwBegin_fit (by decide) (.refl _ s) t h
  case fwChunk => exact execFwChunk_fit (by decide) (.refl _ s) t h
  case fwCommit => exact execFwCommit_fit (by decide) (.refl _ s) t h
  case fwActivateArm => exact execFwActivateArm_fit (by decide) (.refl _ s) t h
  case fwActivateConfirm => exact execFwActivateConfirm_fit (by decide) (.refl _ s) t h
  case fwActivateDisarm => exact execFwActivateDisarm_fit (by decide) (.refl _ s) t h
  case detachReqAssert => exact execDetachReqAssert_fit (by decide) (.refl _ s) t h
  case quiesceStepForced => exact execQuiesceStepForced_fit (by decide) (.refl _ s) t h
  case detachReqRelease => exact execDetachReqRelease_fit (by decide) (.refl _ s) t h
  case detachPrepare => exact execDetachPrepare_fit (by decide) (.refl _ s) t h
  case mrstAssert => exact execMrstAssert_fit (by decide) (.refl _ s) t h
  case mrstRelease => exact execMrstRelease_fit (by decide) (.refl _ s) t h
  case hwdInputStuck => exact execHwdInputStuck_fit (by decide) (.refl _ s) t h
  case paramSetHwdRearm => exact execParamSetHwdRearm_fit (by decide) (.refl _ s) t h
  case carrierEdge => exact execCarrierEdge_fit (by decide) (.refl _ s) t h
  case subframeStart => exact execSubframeStart_fit (by decide) (.refl _ s) t h
  case emitOn => exact execEmitOn_fit (by decide) (.refl _ s) t h
  case emitOff => exact execEmitOff_fit (by decide) (.refl _ s) t h
  case starlightRowWrite => exact execStarlightRowWrite_fit (by decide) (.refl _ s) t h
  case overlayHostReadFail => exact execOverlayHostReadFail_fit (by decide) (.refl _ s) t h
  case scnStillLowered => exact execScnStillLowered_fit (by decide) (.refl _ s) t h
  case darkIntervalTrainTimeout => exact execDarkIntervalTrainTimeout_fit (by decide) (.refl _ s) t h
  case modeChangeBoundary => exact execModeChangeBoundary_fit (by decide) (.refl _ s) t h
  case dmcRateChangeDone => exact execDmcRateChangeDone_fit (by decide) (.refl _ s) t h
  case panelLoadCompletion => exact execPanelLoadCompletion_fit (by decide) (.refl _ s) t h
  case synthesisStart => exact execSynthesisStart_fit (by decide) (.refl _ s) t h
  case synCommit => exact execSynCommit_fit (by decide) (.refl _ s) t h
  case sweepStart => exact execSweepStart_fit (by decide) (.refl _ s) t h
  case sweepEnd => exact execSweepEnd_fit (by decide) (.refl _ s) t h
  case swpDeadline => exact execSwpDeadline_fit (by decide) (.refl _ s) t h
  case stdSettleMiss => exact execStdSettleMiss_fit (by decide) (.refl _ s) t h
  case crowbarClose => exact execCrowbarClose_fit (by decide) (.refl _ s) t h
  case stdDischarged => exact execStdDischarged_fit (by decide) (.refl _ s) t h
  case stdRestExpiry => exact execStdRestExpiry_fit (by decide) (.refl _ s) t h
  case stdFault => exact execStdFault_fit (by decide) (.refl _ s) t h
  case holdupCharged => exact execHoldupCharged_fit (by decide) (.refl _ s) t h
  case timeSetPpsTimeout => exact execTimeSetPpsTimeout_fit (by decide) (.refl _ s) t h
  case slewDone => exact execSlewDone_fit (by decide) (.refl _ s) t h
  case timeSourceLost => exact execTimeSourceLost_fit (by decide) (.refl _ s) t h
  case timeHoldoverEnd => exact execTimeHoldoverEnd_fit (by decide) (.refl _ s) t h
  case horizonAlarm => exact execHorizonAlarm_fit (by decide) (.refl _ s) t h
  case ppsInStuck => exact execPpsInStuck_fit (by decide) (.refl _ s) t h
  case ppsInLost => exact execPpsInLost_fit (by decide) (.refl _ s) t h
  case ppsOutEdge => exact execPpsOutEdge_fit (by decide) (.refl _ s) t h
  case vauxLost => exact absurd rfl hc
  case vmainQualified => exact execVmainQualified_fit (by decide) (.refl _ s) t h
  case pwrVmainLost => exact execPwrVmainLost_fit (by decide) (.refl _ s) t h
  case warmupLimitExpiry => exact execWarmupLimitExpiry_fit (by decide) (.refl _ s) t h
  case throttleGraceExpiry => exact execThrottleGraceExpiry_fit (by decide) (.refl _ s) t h
  case shutdownHoldExpiry => exact execShutdownHoldExpiry_fit (by decide) (.refl _ s) t h
  case pePerstRise => exact execPePerstRise_fit (by decide) (.refl _ s) t h
  case fenceMigrationStart => exact execFenceMigrationStart_fit (by decide) (.refl _ s) t h
  case dmcFenced => exact execDmcFenced_fit (by decide) (.refl _ s) t h
  case dmcFault => exact execDmcFault_fit (by decide) (.refl _ s) t h
  case bufWithdrawWait => exact execBufWithdrawWait_fit (by decide) (.refl _ s) t h
  case pcieLinkUp => exact execPcieLinkUp_fit (by decide) (.refl _ s) t h
  case aspmL1Entry => exact execAspmL1Entry_fit (by decide) (.refl _ s) t h
  case cmdLeaseExpired => exact execCmdLeaseExpired_fit (by decide) (.refl _ s) t h
  case sbdLinkUp => exact execSbdLinkUp_fit (by decide) (.refl _ s) t h
  case sbdLinkDown => exact execSbdLinkDown_fit (by decide) (.refl _ s) t h
  case evqDroppedRead => exact execEvqDroppedRead_fit (by decide) (.refl _ s) t h
  case coalesceMsEnd => exact execCoalesceMsEnd_fit (by decide) (.refl _ s) t h
  case fdbAgeing => exact execFdbAgeing_fit (by decide) (.refl _ s) t h
  case netBridgeFault => exact execNetBridgeFault_fit (by decide) (.refl _ s) t h
  case nvLogFlush => exact execNvLogFlush_fit (by decide) (.refl _ s) t h
  case calRunDone => exact execCalRunDone_fit (by decide) (.refl _ s) t h
  case bstAutoRun => exact execBstAutoRun_fit (by decide) (.refl _ s) t h
  case fieldOpenExpiry => exact execFieldOpenExpiry_fit (by decide) (.refl _ s) t h
  case fwEraseDone => exact execFwEraseDone_fit (by decide) (.refl _ s) t h
  case fwVerifyDone => exact execFwVerifyDone_fit (by decide) (.refl _ s) t h

/-- A loss of VAUX leaves the queue, the outputs and the free values. -/
theorem exec_vauxLost_keeps (s t : State) (h : exec .vauxLost s = .next t) : Keeps (touches .vauxLost) s t := by
  cases h
  intro p hp
  cases p
  case pending => rfl
  case out => rfl
  case free => rfl
  all_goals exact absurd (by decide) hp

theorem exec_keeps {c : Instr} {s t : State} (h : exec c s = .next t) : Keeps (touches c) s t := by
  by_cases hc : c = .vauxLost
  · subst hc; exact exec_vauxLost_keeps s t h
  · exact (exec_fit hc h).keeps_partMask

theorem exec_inv {c : Instr} {s t : State} (hi : Inv s) (h : exec c s = .next t) : Inv t := by
  by_cases hc : c = .vauxLost
  · subst hc; exact execVauxLost_fit t h
  · exact (exec_fit hc h).inv hi

/-- Taking a command off the queue leaves the invariant. -/
theorem inv_pending {s : State} (r : List Instr) (hi : Inv s) : Inv { s with pending := r } := hi

/-! ## The invariant, the frame and the step -/

/-- Settles O4: a tick keeps the invariant, and so does every command, run on the state with the rest of the queue. -/
theorem stepKeepsInv : Obligations.StepKeepsInv := by
  intro s t hi h
  rw [step] at h
  split at h
  · cases h; exact (idle_fit (by decide : In 0x840E22 0x840E22) (.refl _ s)).inv hi
  · exact exec_inv (inv_pending _ hi) h

/-- Settles O3: nothing is written, recorded or kept yet. -/
theorem resetInv : Obligations.ResetInv := ⟨rfl, Nat.zero_le _, Nat.zero_le _, Nat.two_pow_pos 32⟩

/-- Settles O6: each command fits the mask of the parts that `touches` names; a loss of VAUX starts from a new state. -/
theorem frameOfEveryCommand : Obligations.FrameOfEveryCommand := fun _ _ _ h => exec_keeps h

/-- Settles O1: the step is defined by the queue. -/
theorem stepRunsFront : Obligations.StepRunsFront :=
  ⟨fun _ _ _ => rfl, fun s h => by rw [step, h]⟩

/-- Settles O5: every meaning is a next state. -/
theorem everyCommandAnswers : Obligations.EveryCommandAnswers := by
  intro c s
  cases c <;> exact ⟨_, rfl⟩

end Sys2Proof.Machine
end

section
/-! PROOFS. Packets: the checks of R398 in their order, how a packet is taken and judged (R395, R398, R402, R493, R545), and how
waiting and held commands go on (R401 to R405). -/

namespace Sys2Proof.Machine

/-! ## Checks 1 to 8 of R398 -/

theorem firstOf_cons_true {c : Bool} {v : Verdict} {l : List (Bool × Verdict)} (h : c = true) : firstOf ((c, v) :: l) = some v := if_pos h

theorem firstOf_cons_false {c : Bool} {v : Verdict} {l : List (Bool × Verdict)} (h : c = false) : firstOf ((c, v) :: l) = firstOf l :=
  if_neg (by simp [h])

theorem firstOf_eq_none {l : List (Bool × Verdict)} : firstOf l = none ↔ ∀ e ∈ l, e.1 = false := by
  induction l with
  | nil => simp [firstOf]
  | cons e l ih => obtain ⟨c, v⟩ := e; cases c <;> simp [firstOf, ih]

/-- Check 1: an entry whose SEQ is not SEQ_EXP is refused with it. -/
theorem checks_of_seq_ne {r : Row} {exp : Option Nat} {s : State} {e : Nat} (he : exp = some e) (hne : r.h.seq.toNat ≠ e) :
    checks r exp s = some ⟨St.badParam, e, 0, 0⟩ := by
  subst he
  exact if_pos (by simpa using hne)

/-- Checks 3 to 8, for a packet whose opcode has a row in the catalogue. -/
theorem checks_of_seq_eq {r : Row} {exp : Option Nat} {s : State} {c : CmdInfo} (hc : infoOf r.opc = some c)
    (he : ∀ e, exp = some e → r.h.seq.toNat = e) : checks r exp s = firstOf
      [(!r.plens.contains r.h.plen.toNat, no St.badLength),
       (r.h.rsv != 0 || r.h.flags.toNat ≥ 32 || (!scheduled r.h && mtOf r.h.target != 0) ||
         (scheduled r.h && c.sched == .notTaken) || !mtOk r.h.target, no St.badParam),
       (r.h.src == .side && r.host, no St.badParam),
       (c.cls != .observe && !r.anyMaster && !holdsLease s (masterOf r.h.src), no St.noLease),
       (c.cls == .privileged && !c.life.contains (lifeState s), no St.deniedLocked),
       (toHold r && s.cmd.sched.length ≥ 64, no St.noSpace),
       (toHold r && mtOf r.h.target < merNs s && !asapIfLate r.h, no St.timePassed)] := by
  cases exp with
  | none => simp only [checks, hc, Bool.false_eq_true, if_false]
  | some e => simp only [checks, hc, he e rfl, bne_self_eq_false, Bool.false_eq_true, if_false]

/-- Settles O8: the checks are one list; a check answers when those before it pass. -/
theorem firstChecks : Obligations.FirstChecks := by
  intro r exp s c hc
  refine ⟨fun e he hne => checks_of_seq_ne he hne, fun he => ?_⟩
  rw [checks_of_seq_eq hc he]
  refine ⟨fun hlen => firstOf_cons_true (by simpa using hlen), fun hlen => ?_⟩
  rw [firstOf_cons_false (by simpa using hlen)]
  refine ⟨fun hbad => ?_, fun hrsv hflags htarget hsched hmt hside => ?_⟩
  · by_cases hside : r.h.src = .side ∧ r.host = true
    · rw [firstOf]
      split
      · rfl
      · exact firstOf_cons_true (by simp [hside])
    · refine firstOf_cons_true ?_
      rcases hbad with h | h | h | h | h | h
      · simp [show r.h.rsv ≠ 0#80 from h]
      · simp [h]
      · simp [h]
      · simp [h]
      · simp [h]
      · exact absurd h hside
  rw [firstOf_cons_false (by simp_all), firstOf_cons_false (by simp_all)]
  refine ⟨fun hcls hany hlease => firstOf_cons_true (by simp [hcls, hany, hlease]), fun hlease => ?_⟩
  rw [firstOf_cons_false (by rcases hlease with h | h | h <;> simp [h])]
  refine ⟨fun hcls hlife => firstOf_cons_true (by simp [hcls, hlife]), fun hlife => ?_⟩
  rw [firstOf_cons_false (by rcases hlife with h | h <;> simp [h])]
  refine ⟨fun hnow => ?_, fun hhold hfull => ?_, fun hhold hroom hpast hasap => ?_, fun hhold hroom htime => ?_⟩
  · simp [firstOf, hnow]
  · exact firstOf_cons_true (by simp [hhold, hfull])
  · rw [firstOf_cons_false (by simp [hroom])]
    exact firstOf_cons_true (by simp [hhold, hpast, hasap])
  · rw [firstOf_cons_false (by simp [hroom]), firstOf_cons_false (by rcases htime with h | h <;> simp [h])]
    rfl

/-! ## A packet is taken and admitted -/

/-- Reading an entry moves HEAD and SEQ_EXP of its pair and nothing else of the command interface (R395, R398). -/
theorem readEntry_cmd (k : Nat) (s : State) : (readEntry k s).cmd = { s.cmd with rings := s.cmd.rings.set k { ringOf s k with
    head := ((ringOf s k).head + 1) % (ringOf s k).n, seqExp := ((ringOf s k).seqExp + 1) % 65536, waitRaised := false } } := by
  rw [readEntry, move_cmd]; rfl

/-- A packet that leaves its source leaves everything of the command interface but its ring or the side-band queue. -/
theorem reached_cmd_cases (r : Row) (s : State) :
    (∃ l, (reached r s).cmd = { s.cmd with rings := l }) ∨ (reached r s).cmd = { s.cmd with sbReady := s.cmd.sbReady.drop 1 } := by
  unfold reached
  split
  · exact .inl ⟨_, readEntry_cmd ..⟩
  · exact .inr rfl

theorem judged_accepted (r : Row) (s : State) : (judged r s).cmd.accepted = s.cmd.accepted := by
  show (reached r s).cmd.accepted = _
  obtain ⟨l, h⟩ | h := reached_cmd_cases r s <;> rw [h]

theorem judged_live (r : Row) (s : State) : (judged r s).cmd.live = s.cmd.live := by
  show (reached r s).cmd.live = _
  obtain ⟨l, h⟩ | h := reached_cmd_cases r s <;> rw [h]

theorem judged_refused (r : Row) (s : State) : (judged r s).cmd.refused = s.cmd.refused := by
  show (reached r s).cmd.refused = _
  obtain ⟨l, h⟩ | h := reached_cmd_cases r s <;> rw [h]

theorem judged_sched (r : Row) (s : State) : (judged r s).cmd.sched = s.cmd.sched := by
  show (reached r s).cmd.sched = _
  obtain ⟨l, h⟩ | h := reached_cmd_cases r s <;> rw [h]

theorem judged_waits (r : Row) (s : State) : (judged r s).cmd.waits = s.cmd.waits := by
  show (reached r s).cmd.waits = _
  obtain ⟨l, h⟩ | h := reached_cmd_cases r s <;> rw [h]

/-- A packet whose opcode has no row in the catalogue does not pass the checks (check 2). -/
theorem infoOf_of_checks_none {r : Row} {exp : Option Nat} {s : State} (h : checks r exp s = none) :
    ∃ c, infoOf r.opc = some c := by
  cases hc : infoOf r.opc with
  | some c => exact ⟨c, rfl⟩
  | none =>
    have hsome : (checks r exp s).isSome = true := by unfold checks; rw [hc, apply_ite Option.isSome]; exact ite_self _
    simp [h] at hsome

/-- The accepted command a packet becomes (R398, R403). -/
def liveFrom (r : Row) (c : CmdInfo) (t : Nat) : Live :=
  ⟨r.h, r.opc, false, false, deadlineFrom t r.h c, c.stop, repliesOf r.opc, false, t⟩

/-- Admission counts the command and adds it to the accepted ones (R398). -/
theorem admitLive_cmd {r : Row} {c : CmdInfo} {t : Nat} {s : State} (hc : infoOf r.opc = some c) : (admitLive r t s).cmd =
    { s.cmd with accepted := s.cmd.accepted + 1, live := s.cmd.live ++ [liveFrom r c t] } := by
  unfold admitLive
  simp only [hc, noteT1_cmd]
  rfl

theorem served_checks {r : Row} {s : State} (h : served r s = true) : checks r (expOf r s) (judged r s) = none := by
  simp only [served, Bool.and_eq_true, Option.isNone_iff_eq_none] at h
  exact h.1.1.1.2

/-- The command interface of the state in which a served packet is performed. -/
theorem admitted_cmd_of_served {r : Row} {s : State} (h : served r s = true) : ∃ c, (admitted r s).cmd =
    { (judged r s).cmd with accepted := (judged r s).cmd.accepted + 1, live := (judged r s).cmd.live ++ [liveFrom r c (merNs s)] } := by
  obtain ⟨c, hc⟩ := infoOf_of_checks_none (served_checks h)
  exact ⟨c, admitLive_cmd hc⟩

/-- The ring of an entry that was read (R395, R398). -/
theorem ringOf_judged {r : Row} {s : State} {k : Fin 16} (hsrc : r.h.src = .ring k) (hk : k.val < s.cmd.rings.length) :
    ringOf (judged r s) k.val = { ringOf s k.val with
      head := ((ringOf s k.val).head + 1) % (ringOf s k.val).n
      seqExp := ((ringOf s k.val).seqExp + 1) % 65536
      waitRaised := false } := by
  show (reached r s).cmd.rings.getD k.val {} = _
  rw [reached, hsrc]
  simp [readEntry_cmd, hk]

/-- Settles O9: the packet is noted as the last of its source, then counted and added to the accepted commands. -/
theorem packetTaken : Obligations.PacketTaken := by
  refine ⟨fun r s h => ?_, fun r s k hsrc hk h => ?_⟩
  · obtain ⟨c, hcmd⟩ := admitted_cmd_of_served h
    refine ⟨?_, ⟨liveFrom r c (merNs s), ?_, rfl, rfl, rfl, rfl⟩, ?_, (admitted_fit (L := 0x800600) (by decide) (Fit.refl _ s)).keeps (by decide)⟩
    · rw [hcmd, judged_accepted]
    · rw [hcmd]; simp
    · rw [hcmd]; rfl
  · obtain ⟨c, hcmd⟩ := admitted_cmd_of_served h
    have hring : ringOf (admitted r s) k.val = ringOf (judged r s) k.val := by rw [ringOf, hcmd, ringOf]
    exact ⟨congrArg Ring.head (hring.trans (ringOf_judged hsrc hk)), congrArg Ring.seqExp (hring.trans (ringOf_judged hsrc hk))⟩

/-! ## A packet at the front of its source -/

/-- A packet at the front of its source is taken and judged (R395, R398, R405). -/
theorem command_of_atFront {r : Row} {s : State} (h : atFront r s = true) : command r s = accept r (expOf r s) (reached r s) := by
  simp only [atFront, Bool.and_eq_true, Bool.not_eq_true'] at h
  obtain ⟨⟨horder, hwait⟩, hfront⟩ := h
  have hmust : mustWait r.h (reached r s) = false := by
    simp only [orderOk, Bool.and_eq_true, Bool.not_eq_true'] at horder; exact horder.1
  have htake := takeUp_of_orderOk (exp := expOf r s) horder
  unfold command
  cases hsrc : r.h.src with
  | ring k =>
    have hreached : reached r s = readEntry k.val s := by rw [reached, hsrc]
    have hexp : expOf r s = some (ringOf s k.val).seqExp := by rw [expOf, hsrc]
    simp only [hsrc, Bool.and_eq_true, decide_eq_true_eq] at hfront hwait ⊢
    rw [if_pos hfront.1, hwait, if_neg Bool.false_ne_true, takeRing]
    dsimp only []
    rw [if_neg (Nat.not_lt.2 hfront.2), ← hreached, hmust, if_neg Bool.false_ne_true, ← hexp, htake]
  | side =>
    have hreached : reached r s = { s with cmd := { s.cmd with sbReady := s.cmd.sbReady.drop 1 } } := by rw [reached, hsrc]
    have hexp : expOf r s = none := by rw [expOf, hsrc]
    simp only [hsrc, Bool.and_eq_true, decide_eq_true_eq] at hfront hwait ⊢
    obtain ⟨⟨hmatch, hawake⟩, hfew⟩ := hfront
    cases hready : s.cmd.sbReady with
    | nil => simp [hready] at hmatch
    | cons m rest =>
      rw [hready] at hmatch hreached
      have hheld : ((hasWait (reached r s) .side) || (!mainOn (reached r s) && !dormantOps.contains r.opc)) = false := by
        rw [hreached]
        show (hasWait s .side || (!mainOn s && !dormantOps.contains r.opc)) = false
        rw [hwait]; revert hawake; cases mainOn s <;> simp
      simp only [List.drop_succ_cons, List.drop_zero] at hreached
      simp only []
      rw [if_pos hmatch, ← hreached, hheld, if_neg Bool.false_ne_true, hmust, if_neg Bool.false_ne_true, ← hexp, htake]

/-- The side-band limit of R411 is not reached by a packet at the front of its source. -/
theorem side_room_of_atFront {r : Row} {s : State} (h : atFront r s = true) :
    (r.h.src == .side && decide (sideInFlight (judged r s) ≥ 8)) = false := by
  simp only [atFront, Bool.and_eq_true] at h
  cases hsrc : r.h.src with
  | ring k => rfl
  | side =>
    have hfront := h.2
    simp only [hsrc, Bool.and_eq_true, decide_eq_true_eq] at hfront
    simpa using hfront.2

/-- In a quiesce the packet is answered ABORTED_DETACH (R545). -/
theorem command_of_quiesce {r : Row} {s : State} (h : atFront r s = true) (hq : s.hwd.quiesce.isSome = true) :
    command r s = finish r.h r.opc (no St.abortedDetach) (judged r s) := by
  rw [command_of_atFront h]
  exact if_pos (by rw [← judged, judged_keeps_hwd]; exact hq)

/-- Outside a quiesce it is refused by its first failing check, else held, held back by a test, or performed (R398, R402, R493). -/
theorem command_of_no_quiesce {r : Row} {s : State} (h : atFront r s = true) (hq : s.hwd.quiesce = none) : command r s =
    match checks r (expOf r s) (judged r s) with
    | some v => finish r.h (if v.status = St.badOpcode then 0 else r.opc) v (refusalEvent r (expOf r s) v
        { judged r s with cmd := { (judged r s).cmd with refused := (judged r s).cmd.refused + 1 } })
    | none =>
      if toHold r then
        accepted r.h r.opc (freeSlot (judged r s)) (admitLive r (max (merNs (judged r s)) (mtOf r.h.target))
          { judged r s with cmd := { (judged r s).cmd with
              sched := (judged r s).cmd.sched ++ [⟨freeSlot (judged r s), r.i, r.h, r.opc, mtOf r.h.target⟩] } })
      else match holdForTest r (expOf r s) (judged r s) with
        | some s' => s'
        | none => perform r (admitted r s) := by
  have hq' : (judged r s).hwd.quiesce.isSome = false := by rw [judged_keeps_hwd, hq]; rfl
  rw [command_of_atFront h, accept, ← judged, hq', side_room_of_atFront h, admitted, judged_merNs]
  rfl

theorem judged_fit {L : Nat} (hL : In 0x600 L) (r : Row) (s : State) : Fit L s (judged r s) := by
  refine noteTaken_fit (In.trans (by decide) hL) ?_
  unfold reached
  split
  · exact readEntry_fit hL (Fit.refl _ s)
  · exact Fit.upd_cmd (In.trans (by decide) hL) (Fit.refl _ s) rfl

/-! ## Held packets -/

/-- With fewer than 64 commands held a slot is free, and the lowest free one is below 64 (R402). -/
theorem freeSlot_spec {s : State} (h : s.cmd.sched.length < 64) : freeSlot s < 64 ∧ ∀ e ∈ s.cmd.sched, e.slot ≠ freeSlot s := by
  unfold freeSlot
  cases hf : (List.range 64).find? (fun k => !s.cmd.sched.any (fun e => e.slot == k)) with
  | some k =>
    have hfree := List.find?_some hf
    simp only [Bool.not_eq_true', List.any_eq_false, beq_iff_eq] at hfree
    exact ⟨List.mem_range.1 (List.mem_of_find?_eq_some hf), hfree⟩
  | none =>
    have hsub : List.range 64 ⊆ s.cmd.sched.map (·.slot) := by
      intro k hk
      have := List.find?_eq_none.1 hf k hk
      simp only [Bool.not_eq_true', Bool.not_eq_false, List.any_eq_true, beq_iff_eq] at this
      exact List.mem_map.2 this
    have hlen := (List.nodup_range.subperm hsub).length_le
    simp only [List.length_range, List.length_map] at hlen
    omega

theorem freeSlot_judged (r : Row) (s : State) : freeSlot (judged r s) = freeSlot s := by
  rw [freeSlot, judged_sched, freeSlot]

/-- Checks 7 and 8 for a packet to be held: a slot is free, and its target lies ahead or may be late (R402). -/
theorem room_of_checks_none {r : Row} {exp : Option Nat} {s : State} (h : checks r exp s = none) (hhold : toHold r = true) :
    s.cmd.sched.length < 64 ∧ (merNs s ≤ mtOf r.h.target ∨ asapIfLate r.h = true) := by
  obtain ⟨c, hc⟩ := infoOf_of_checks_none h
  have hseq : ∀ e, exp = some e → r.h.seq.toNat = e := fun e he => by
    by_contra hne; rw [checks_of_seq_ne he hne] at h; cases h
  rw [checks_of_seq_eq hc hseq] at h
  have hall := firstOf_eq_none.1 h
  simp only [List.forall_mem_cons] at hall
  obtain ⟨-, -, -, -, -, hroom, htime, -⟩ := hall
  simp only [hhold, Bool.true_and, decide_eq_false_iff_not, Bool.and_eq_false_iff, Bool.not_eq_false'] at hroom htime
  exact ⟨Nat.lt_of_not_le hroom, htime.imp Nat.le_of_not_lt id⟩

/-- The state in which a packet is kept in slot `k` and answered ACCEPTED (R402). -/
def heldIn (r : Row) (k : Nat) (s : State) : State :=
  admitLive r (max (merNs (judged r s)) (mtOf r.h.target)) { judged r s with cmd := { (judged r s).cmd with
    sched := (judged r s).cmd.sched ++ [⟨k, r.i, r.h, r.opc, mtOf r.h.target⟩] } }

theorem heldIn_fit {L : Nat} (hL : In 0x800600 L) (r : Row) (k : Nat) (s : State) : Fit L s (heldIn r k s) :=
  admitLive_fit (In.trans (by decide) hL) (Fit.upd_cmd (In.trans (by decide) hL) (judged_fit (In.trans (by decide) hL) r s) rfl)

theorem heldIn_sched {r : Row} {c : CmdInfo} (hc : infoOf r.opc = some c) (k : Nat) (s : State) : (heldIn r k s).cmd.sched =
    s.cmd.sched ++ [⟨k, r.i, r.h, r.opc, mtOf r.h.target⟩] := by
  rw [heldIn, admitLive_cmd hc]
  exact congrArg (· ++ _) (judged_sched r s)

/-! ## Refused packets and packets held back by a test -/

/-- The refusal of a packet is counted (R398). -/
def refusalCounted (r : Row) (s : State) : State :=
  { judged r s with cmd := { (judged r s).cmd with refused := (judged r s).cmd.refused + 1 } }

theorem refusalCounted_fit {L : Nat} (hL : In 0x600 L) (r : Row) (s : State) : Fit L s (refusalCounted r s) :=
  Fit.upd_cmd (In.trans (by decide) hL) (judged_fit hL r s) rfl

/-- The packet waits for the end of an in-service test (R493). -/
def heldBack (r : Row) (s : State) : State :=
  { judged r s with
    cmd := { (judged r s).cmd with waits := ⟨r.i, r.h, r.opc, expOf r s, some (judged r s).time.ref⟩ :: (judged r s).cmd.waits }
    bst := { (judged r s).bst with heldCount := (judged r s).bst.heldCount + 1 } }

theorem heldBack_fit {L : Nat} (hL : In 0x4000600 L) (r : Row) (s : State) : Fit L s (heldBack r s) :=
  Fit.upd_cmd_bst (In.trans (by decide) hL) (judged_fit (In.trans (by decide) hL) r s) rfl

theorem heldBack_waits (r : Row) (s : State) : (heldBack r s).cmd.waits =
    ⟨r.i, r.h, r.opc, expOf r s, some s.time.ref⟩ :: s.cmd.waits := by
  rw [heldBack]; simp only [judged_waits, judged_time]

/-! ## Every packet command runs as its row -/

theorem exec_of_rowOf {c : Instr} {r : Row} (s : State) (h : rowOf c = some r) : exec c s = .next (command r s) := by
  cases c <;> cases h <;> rfl

/-- An entry whose replies have no room waits unread (R401). -/
theorem command_of_no_room {r : Row} {s : State} {k : Fin 16} (hsrc : r.h.src = .ring k) (hup : s.cmd.up = true)
    (hready : s.cmd.ready = true) (hrun : (ringOf s k.val).state = .running) (hsq : (ringOf s k.val).sqBad = false)
    (hunread : waitingUnread s r.h.src < unread (ringOf s k.val)) (hwait : hasWait s r.h.src = false)
    (hroom : cqRoom s k.val < repliesOf r.opc) : command r s =
      if (ringOf s k.val).waitRaised then pushWait ⟨r.i, r.h, r.opc, none, none⟩ s
      else raise 0x26 [] (setRing k.val { ringOf s k.val with waitRaised := true } (pushWait ⟨r.i, r.h, r.opc, none, none⟩ s)) := by
  unfold command
  rw [hsrc] at hunread hwait ⊢
  dsimp only []
  rw [if_pos (by simp [hup, hready, hrun, hsq, hunread]), hwait, if_neg Bool.false_ne_true, takeRing]
  exact if_pos hroom

/-- Settles O7: acceptance is one chain of cases on the state in which the packet has left its source. -/
theorem packetsJudged : Obligations.PacketsJudged := by
  refine ⟨fun c s r h => exec_of_rowOf s h, fun r s h hq => command_of_quiesce h hq, ?_, ?_, ?_, ?_, ?_⟩
  · intro r s v h hq hv
    refine ⟨refusalCounted r s, ?_, congrArg (· + 1) (judged_refused r s), judged_accepted r s, judged_live r s,
      (refusalCounted_fit (L := 0x600) (by decide) r s).keeps (by decide)⟩
    rw [command_of_no_quiesce h hq, hv]; rfl
  · intro r s v h hq hc hh ht hv
    rw [command_of_no_quiesce h hq, hc]
    simp only [hh, holdForTest, ht, Option.map_none, Bool.false_eq_true, if_false]
    show (match r.chk (taken r s) with | some v => _ | none => _) = _
    rw [hv]; rfl
  · intro r s h hq hc hh
    obtain ⟨c, hinfo⟩ := infoOf_of_checks_none hc
    obtain ⟨hroom, htime⟩ := room_of_checks_none hc hh
    obtain ⟨hlt, hfree⟩ := freeSlot_spec (judged_sched r s ▸ hroom)
    refine ⟨heldIn r (freeSlot s) s, ?_, heldIn_sched hinfo _ s, hlt, hfree, judged_merNs r s ▸ htime,
      (heldIn_fit (L := 0x800600) (by decide) r _ s).keeps (by decide)⟩
    rw [command_of_no_quiesce h hq, hc]
    simp only [hh, if_true, freeSlot_judged]
    rfl
  · intro r s b h hq hc hh ht
    refine ⟨heldBack r s, ?_, heldBack_waits r s, congrArg (fun b => b.heldCount + 1) (judged_bst r s), judged_live r s,
      (heldBack_fit (L := 0x4000600) (by decide) r s).keeps (by decide)⟩
    rw [command_of_no_quiesce h hq, hc]
    simp only [hh, holdForTest, ht, Option.map_some, Bool.false_eq_true, if_false]
    rfl
  · intro r s k hsrc hup hready hrun hsq hunread hwait hroom hk
    let x := pushWait ⟨r.i, r.h, r.opc, none, none⟩ s
    have hx : Fit 0x400 s x := pushWait_fit (by decide) (Fit.refl _ s)
    rw [command_of_no_room hsrc hup hready hrun hsq hunread hwait hroom]
    by_cases hraised : (ringOf s k.val).waitRaised = true
    · exact ⟨x, by rw [if_pos hraised, if_pos hraised], rfl, rfl, hraised, hx.keeps (by decide)⟩
    · have hself : ringOf (setRing k.val { ringOf s k.val with waitRaised := true } x) k.val =
          { ringOf s k.val with waitRaised := true } := ringOf_setRing_self hk
      exact ⟨_, by rw [if_neg hraised, if_neg hraised], rfl, (congrArg Ring.head hself :), (congrArg Ring.waitRaised hself :),
        (setRing_fit (by decide) hx).keeps (by decide)⟩

/-! ## Waiting commands go on -/

theorem mustWait_readEntry (h : Hdr) (k : Nat) (s : State) : mustWait h (readEntry k s) = mustWait h s := by
  simp only [mustWait, before, readEntry_cmd]

section
variable {src : Src} {s : State} {w : Wait} {r : Row} (hw : s.cmd.waits.find? (fun w => w.h.src == src) = some w)
  (hr : keptRow w.i w.h w.opcode = some r)
include hw hr

/-- A command that a test held back goes on by the rule of R493. -/
theorem resume_of_test (htest : w.test.isSome = true) : resume src s = resumeTest w r s := by
  simp only [resume, hw, hr, htest, if_true]

/-- One that stands unread goes on by the rule of R401. -/
theorem resume_of_unread {k : Fin 16} (hsrc : src = .ring k) (htest : w.test = none) (hseq : w.seqExp = none) :
    resume src s = resumeUnread w r k.val s := by
  subst hsrc
  simp only [resume, hw, hr, htest, hseq, Option.isSome_none, Bool.false_eq_true, if_false]

/-- One that was read goes on by the rule of R405. -/
theorem resume_of_read (hread : src = .side ∨ w.seqExp.isSome = true) (htest : w.test = none) :
    resume src s = resumeRead w r s := by
  simp only [resume, hw, hr, htest, Option.isSome_none, Bool.false_eq_true, if_false]
  cases hseq : w.seqExp <;> cases src <;> simp [hseq] at hread ⊢

end

/-- The state in which a command that a test held back is performed: it waits no more, and is admitted if it was not (R493). -/
def testPassed (w : Wait) (r : Row) (s : State) : State :=
  if (liveOf (dropWait w s) (keyOf r.h)).isSome then dropWait w s else admitLive r (merNs (dropWait w s)) (dropWait w s)

theorem resumeTest_of_passed {w : Wait} {r : Row} {s : State} (h : testBlock r.opc r.i s = none) :
    resumeTest w r s = perform r (testPassed w r s) := by
  rw [resumeTest, h]; rfl

theorem admitLive_waits (r : Row) (t : Nat) (s : State) : (admitLive r t s).cmd.waits = s.cmd.waits := by
  cases hc : infoOf r.opc with
  | none => simp [admitLive, hc]
  | some c => rw [admitLive_cmd hc]

theorem testPassed_waits (w : Wait) (r : Row) (s : State) : (testPassed w r s).cmd.waits = s.cmd.waits.erase w := by
  unfold testPassed
  split
  · rfl
  · exact admitLive_waits ..

theorem testPassed_accepted {w : Wait} {r : Row} {s : State} (hlive : liveOf s (keyOf r.h) = none)
    (hinfo : (infoOf r.opc).isSome = true) : (testPassed w r s).cmd.accepted = s.cmd.accepted + 1 := by
  obtain ⟨c, hc⟩ := Option.isSome_iff_exists.1 hinfo
  have hnew : liveOf (dropWait w s) (keyOf r.h) = none := hlive
  rw [testPassed, hnew, if_neg (by simp), admitLive_cmd hc]
  rfl

theorem testPassed_fit {L : Nat} (hL : In 0x800400 L) (w : Wait) (r : Row) (s : State) : Fit L s (testPassed w r s) := by
  have hdrop : Fit L s (dropWait w s) := dropWait_fit (In.trans (by decide) hL) (Fit.refl _ s)
  exact Fit.ite (fun _ => hdrop) (fun _ => admitLive_fit hL hdrop)

/-- A command that stands unread at the head of its ring is read once its replies have room (R401). -/
theorem resumeUnread_of_room {w : Wait} {r : Row} {k : Nat} {s : State} (hup : s.cmd.up = true) (hready : s.cmd.ready = true)
    (hrun : (ringOf s k).state = .running) (hsq : (ringOf s k).sqBad = false) (hroom : repliesOf r.opc ≤ cqRoom s k)
    (hmust : mustWait r.h s = false) :
    resumeUnread w r k s = takeUp r (some (ringOf s k).seqExp) (dropWait w (readEntry k s)) := by
  unfold resumeUnread
  dsimp only []
  rw [if_neg (by simp [hup, hready, hrun, hsq]), if_neg (Nat.not_lt.2 hroom), mustWait_readEntry, hmust, if_neg Bool.false_ne_true]

/-! ## Held commands run, and budgets run out -/

theorem lateAction_sched (t : Nat) (s : State) : (lateAction t s).cmd.sched = s.cmd.sched := by
  unfold lateAction; split <;> simp

theorem lateAction_merNs (t : Nat) (s : State) : merNs (lateAction t s) = merNs s := by
  unfold lateAction
  split
  · rw [merNs, raise_time]; rfl
  · rfl

theorem leaveSched_sched (e : Held) (s : State) : (leaveSched e s).cmd.sched = s.cmd.sched.erase e := by
  rw [leaveSched, lateAction_sched, advanceMer_cmd]

theorem le_merNs_leaveSched (e : Held) (s : State) : e.t ≤ merNs (leaveSched e s) := by
  rw [leaveSched, lateAction_merNs]; exact le_merNs_advanceMer ..

theorem holder_leaveSched (opc : Nat) (i : Instr) (e : Held) (s : State) : holder opc i (leaveSched e s) = holder opc i s := by
  have hbst : (leaveSched e s).bst = s.bst := (leaveSched_fit (L := 0x800C22) (by decide) (Fit.refl _ s)).2 .bst rfl
  rw [holder, hbst, holder]

/-- A held command runs at its target (R402). -/
theorem exec_scheduledCommandRun {slot : Fin 64} {s : State} {e : Held} {r : Row}
    (he : s.cmd.sched.find? (fun e => e.slot == slot.val) = some e) (hl2 : l2Running s = false)
    (hr : keptRow e.i e.h e.opcode = some r) (hfree : holder r.opc r.i s = none) :
    exec (.scheduledCommandRun slot) s = .next (perform r (leaveSched e s)) := by
  have hblock : testBlock r.opc r.i (leaveSched e s) = none := by rw [testBlock, holder_leaveSched, hfree]; rfl
  have hperform : performOrHold r (some e.h.seq.toNat) (leaveSched e s) = perform r (leaveSched e s) := by
    rw [performOrHold, holdForTest, hblock]; rfl
  show ok (match s.cmd.sched.find? (fun e => e.slot == slot.val) with | none => s | some e => _) = _
  rw [he]
  dsimp only []
  rw [hl2, if_neg Bool.false_ne_true, runHeld]
  simp only [hr, hperform]
  rfl

/-- A command whose budget has run out: it has no deadline any more, and is late unless it stops (R403). -/
def budgetSpent (l x : Live) : Live := if keyOf x.h = keyOf l.h then { x with deadline := none, late := x.late || !l.stop } else x

/-- A missed budget is counted (R403). -/
def budgetMissed (l : Live) (s : State) : State :=
  { s with cmd := { s.cmd with deadlines := s.cmd.deadlines + 1, live := s.cmd.live.map (budgetSpent l) } }

theorem budgetMissed_fit {L : Nat} {s0 s : State} (hL : In 0x400 L) (l : Live) (h : Fit L s0 s) : Fit L s0 (budgetMissed l s) :=
  Fit.upd_cmd (In.trans (by decide) hL) h rfl

theorem budgetMissed_merNs (l : Live) (s : State) : merNs (budgetMissed l s) = merNs s := rfl

theorem budgetMissed_deadlines (l : Live) (s : State) : (budgetMissed l s).cmd.deadlines = s.cmd.deadlines + 1 := rfl

theorem keyOf_budgetSpent (l x : Live) : keyOf (budgetSpent l x).h = keyOf x.h := by unfold budgetSpent; split <;> rfl

theorem budgetSpent_of_mem {l x : Live} {s : State} (hx : x ∈ (budgetMissed l s).cmd.live) (hkey : keyOf x.h = keyOf l.h) :
    x.deadline = none ∧ (l.stop = false → x.late = true) := by
  obtain ⟨y, -, rfl⟩ := List.mem_map.1 hx
  have hsame : keyOf y.h = keyOf l.h := (keyOf_budgetSpent l y).symm.trans hkey
  rw [budgetSpent, if_pos hsame]
  exact ⟨rfl, fun h => by simp [h]⟩

theorem missBudget_eq (l : Live) (s : State) : missBudget l s = if l.stop then
      stopCommand l (raise 0x24 [(2, l.opcode), (2, l.h.tag.toNat), (1, masterCode (masterOf l.h.src))] (budgetMissed l s))
      else raise 0x24 [(2, l.opcode), (2, l.h.tag.toNat), (1, masterCode (masterOf l.h.src))] (budgetMissed l s) := rfl

/-- A budget that runs out raises event 0x24, and its opcode's rule acts (R403). -/
theorem exec_cmdDeadline {k : CmdKey} {s : State} {l : Live} {d : Nat} (hl : liveOf s k = some l) (hd : l.deadline = some d) :
    exec (.cmdDeadline k) s = .next (if l.stop then
      stopCommand l (raise 0x24 [(2, l.opcode), (2, l.h.tag.toNat), (1, masterCode (masterOf l.h.src))] (budgetMissed l (advanceMer d s)))
      else raise 0x24 [(2, l.opcode), (2, l.h.tag.toNat), (1, masterCode (masterOf l.h.src))] (budgetMissed l (advanceMer d s))) := by
  have hrow : exec (.cmdDeadline k) s = execCmdDeadline k s := rfl
  rw [hrow, execCmdDeadline, hl]
  dsimp only []
  rw [hd]
  exact congrArg Host.Outcome.next (missBudget_eq l (advanceMer d s))

/-- Settles O12: each kind of waiting command goes on by its own rule, a held one at its target, and a budget runs out at its end. -/
theorem laterCommands : Obligations.LaterCommands := by
  refine ⟨?_, ?_, ?_, ?_, ?_, ?_⟩
  · intro src s w r hw hr htest hfree
    refine ⟨testPassed w r s, ?_, testPassed_waits w r s, testPassed_accepted,
      (testPassed_fit (L := 0x800400) (by decide) w r s).keeps (by decide)⟩
    exact congrArg Host.Outcome.next ((resume_of_test hw hr htest).trans (resumeTest_of_passed hfree))
  · intro k s w r hw hr htest hseq hup hready hrun hsq hroom hmust
    exact ⟨_, congrArg Host.Outcome.next ((resume_of_unread hw hr rfl htest hseq).trans
      (resumeUnread_of_room hup hready hrun hsq hroom hmust)), rfl⟩
  · intro k s w r e hw hr htest hseq hsrc hmust
    refine congrArg Host.Outcome.next ((resume_of_read hw hr (.inr (by simp [hseq])) htest).trans ?_)
    rw [resumeRead, hsrc, hmust, if_neg (by simp), hseq]; rfl
  · intro s w r hw hr htest hsrc hmust hawake
    refine congrArg Host.Outcome.next ((resume_of_read hw hr (.inl rfl) htest).trans ?_)
    rw [resumeRead, hsrc, hmust, if_neg (by revert hawake; cases mainOn s <;> simp)]; rfl
  · intro slot s e r he hl2 hr hfree
    exact ⟨_, exec_scheduledCommandRun he hl2 hr hfree, leaveSched_sched e s, le_merNs_leaveSched e s,
      (leaveSched_fit (L := 0x800C22) (by decide) (Fit.refl _ s)).keeps (by decide)⟩
  · intro k s l d hl hd
    exact ⟨_, exec_cmdDeadline hl hd, by rw [budgetMissed_merNs]; exact le_merNs_advanceMer d s,
      by rw [budgetMissed_deadlines, advanceMer_cmd],
      fun x hx hkey => budgetSpent_of_mem hx hkey, (budgetMissed_fit (L := 0x420) (by decide) l (advanceMer_fit (by decide) (Fit.refl _ s))).keeps (by decide)⟩

end Sys2Proof.Machine
end

section
/-! PROOFS. Replies (R397, R400), the ring pairs and their registers (R390 to R395), and the control lease (R406 to R408). -/

namespace Sys2Proof.Machine

/-! ## Replies written into a ring -/

theorem mem_out_sendMsix {o : Out} {s : State} (v : Nat) (h : o ∈ s.out) : o ∈ (sendMsix v s).out := by
  unfold sendMsix
  split
  · exact h
  · split
    · exact h
    · rw [emit_out]; exact List.mem_cons_of_mem _ h

/-- A reply to a ring that is on and takes completions is written at CQ_TAIL (R397). -/
theorem mem_out_ringReply {r : Nat} {interim : Bool} {rep : Reply} {s : State} (hstate : (ringOf s r).state ≠ .off)
    (hdiscard : (ringOf s r).discard = false) (hcq : (ringOf s r).cqBad = false) :
    .ringReply r (ringOf s r).cqTail ((ringOf s r).written / (ringOf s r).n % 2 == 0) interim rep ∈
      (ringReply r interim rep s).out := by
  unfold ringReply
  extract_lets x s1 s2 fireIrq s3
  rw [if_neg (by simp [x, hstate, hdiscard]), if_neg (by simp [x, hcq])]
  have hwritten : .ringReply r x.cqTail (x.written / x.n % 2 == 0) interim rep ∈ s3.out := by
    rw [setRing_out, move_out]; exact mem_out_emit ..
  split
  · exact mem_out_sendMsix _ hwritten
  · exact hwritten

/-- The verdict of a command as a reply, LATE when its budget ran out (R397). -/
def replyOf (h : Hdr) (opc : Nat) (v : Verdict) (s : State) : Reply :=
  ⟨h.src, h.tag, h.seq, opc, v.status, (match liveOf s (keyOf h) with | some l => l.late | none => false), merNs s, v.w0, v.w1, v.w2⟩

/-- The link of an accepted command went down under it (R388). -/
def orphaned (h : Hdr) (s : State) : Bool := match liveOf s (keyOf h) with | some l => l.orphan | none => false

/-- The state in which a final reply is given: the command is no accepted one any more, its status noted (R397, R405). -/
def ended (h : Hdr) (st : Nat) (s : State) : State :=
  noteFinal h st { s with cmd := { s.cmd with live := s.cmd.live.filter (fun l => keyOf l.h != keyOf h) } }

theorem finish_of_silent {h : Hdr} {opc : Nat} {v : Verdict} {s : State} (hq : noReply h = true) (hok : v.status = St.ok) :
    finish h opc v s = { ended h v.status s with
      sbd := { (ended h v.status s).sbd with from_ := (ended h v.status s).sbd.from_.filter (fun e => e.1 != keyOf h) } } :=
  if_pos (by simp [hq, hok])

theorem finish_of_reply {h : Hdr} {opc : Nat} {v : Verdict} {s : State} (hq : noReply h = true → v.status ≠ St.ok) :
    finish h opc v s = sendReply (orphaned h s) false (replyOf h opc v s) (ended h v.status s) :=
  if_neg (by simpa using hq)

theorem orphaned_eq_false {h : Hdr} {s : State} (ho : ∀ l, liveOf s (keyOf h) = some l → l.orphan = false) : orphaned h s = false := by
  unfold orphaned
  split
  · exact ho _ ‹_›
  · rfl

/-- The final reply of a ring's command is written at CQ_TAIL while the link is up and the pair takes completions (R397). -/
theorem mem_out_finish_ring {h : Hdr} {opc : Nat} {v : Verdict} {s : State} {k : Fin 16} (hsrc : h.src = .ring k)
    (ho : ∀ l, liveOf s (keyOf h) = some l → l.orphan = false) (hup : s.cmd.up = true) (hstate : (ringOf s k.val).state ≠ .off)
    (hdiscard : (ringOf s k.val).discard = false) (hcq : (ringOf s k.val).cqBad = false) (hq : noReply h = true → v.status ≠ St.ok) :
    .ringReply k.val (ringOf s k.val).cqTail ((ringOf s k.val).written / (ringOf s k.val).n % 2 == 0) false (replyOf h opc v s) ∈
      (finish h opc v s).out := by
  have hring : ringOf (ended h v.status s) k.val = ringOf s k.val := rfl
  have hsend : sendReply (orphaned h s) false (replyOf h opc v s) (ended h v.status s) =
      ringReply k.val false (replyOf h opc v s) (ended h v.status s) := by
    unfold sendReply
    rw [show (replyOf h opc v s).src = .ring k from hsrc, orphaned_eq_false ho]
    exact if_neg (by simpa [ended, noteFinal] using hup)
  rw [finish_of_reply hq, hsend, ← hring]
  exact mem_out_ringReply hstate hdiscard hcq

/-- The final reply of a side-band command is sent (R400). -/
theorem mem_out_finish_side {h : Hdr} {opc : Nat} {v : Verdict} {s : State} (hsrc : h.src = .side)
    (hq : noReply h = true → v.status ≠ St.ok) : ∃ d, .sbReply d false (replyOf h opc v s) ∈ (finish h opc v s).out := by
  rw [finish_of_reply hq, sendReply, show (replyOf h opc v s).src = .side from hsrc]
  exact ⟨_, by dsimp only []; rw [if_neg Bool.false_ne_true, keepReply_out]; exact mem_out_emit ..⟩

/-! ## Replies leave the accepted commands alone -/

theorem emit_live (o : Out) (s : State) : (emit o s).cmd.live = s.cmd.live := (emit_cmdLike o s).live

theorem sendMsix_live (v : Nat) (s : State) : (sendMsix v s).cmd.live = s.cmd.live := (sendMsix_cmdLike v s).live

theorem ringReply_live (r : Nat) (i : Bool) (rep : Reply) (s : State) : (ringReply r i rep s).cmd.live = s.cmd.live := by
  unfold ringReply
  dsimp only []
  split
  · exact emit_live ..
  · split
    · rw [ringError, raise_live]; exact emit_live ..
    · split
      · rw [sendMsix_live]; simp [setRing, emit_live]
      · simp [setRing, emit_live]

theorem loseReply_live (rep : Reply) (s : State) : (loseReply rep s).cmd.live = s.cmd.live := by
  unfold loseReply
  dsimp only []
  split
  · exact emit_live ..
  · rw [raise_live]; exact emit_live ..

theorem sendReply_live (o i : Bool) (rep : Reply) (s : State) : (sendReply o i rep s).cmd.live = s.cmd.live := by
  unfold sendReply
  split
  · split
    · exact loseReply_live ..
    · exact ringReply_live ..
  · dsimp only []
    split
    · exact emit_live ..
    · exact emit_live ..

/-- A command that gave its final reply is no accepted one any more (R397). -/
theorem finish_live (h : Hdr) (opc : Nat) (v : Verdict) (s : State) :
    (finish h opc v s).cmd.live = s.cmd.live.filter (fun l => keyOf l.h != keyOf h) := by
  unfold finish
  dsimp only []
  split
  · rfl
  · rw [sendReply_live]; rfl

theorem liveOf_finish_self (h : Hdr) (opc : Nat) (v : Verdict) (s : State) : liveOf (finish h opc v s) (keyOf h) = none := by
  rw [liveOf, finish_live, List.find?_eq_none]
  intro l hl
  simpa using (List.mem_filter.1 hl).2

/-- Settles O10: the reply is written at CQ_TAIL, and the command leaves the accepted ones. -/
theorem finalReply : Obligations.FinalReply := by
  intro h opc v s k l hsrc hl ho hup hstate hdiscard hcq hq
  have hlate : replyOf h opc v s = ⟨h.src, h.tag, h.seq, opc, v.status, l.late, merNs s, v.w0, v.w1, v.w2⟩ := by rw [replyOf, hl]
  refine ⟨?_, liveOf_finish_self .., (finish_fit (L := 0x800E02) (by decide) (Fit.refl _ s)).keeps (by decide)⟩
  rw [← hlate]
  exact mem_out_finish_ring hsrc (fun x hx => by rw [hl] at hx; cases hx; exact ho) hup hstate hdiscard hcq hq

/-- Settles O11: a suppressed reply puts nothing out, every other one is written or sent. -/
theorem noReplyHolds : Obligations.NoReply := by
  refine ⟨fun h opc v s hq hok => ?_, fun h opc w s hq => ?_, ?_, fun h opc v s hq hok hsrc => ?_⟩
  · rw [finish_of_silent hq hok]; exact noteFinal_out h v.status _
  · unfold accepted
    split
    · rfl
    · split
      · rfl
      · rfl
  · intro h opc v s k hq hok hsrc ho hup hstate hdiscard hcq
    exact ⟨_, _, mem_out_finish_ring hsrc ho hup hstate hdiscard hcq fun _ => hok⟩
  · obtain ⟨d, hd⟩ := mem_out_finish_side (opc := opc) (s := s) hsrc (fun _ => hok)
    exact ⟨d, _, hd⟩

/-! ## A pair starts (R392) -/

/-- VECTOR, CQ_IRQ, ENABLE and SIZE as a RING_CTL write sets them in a pair that is off (R390). -/
def ringSet (v : Nat) (en : Bool) (x : Ring) : Ring :=
  { x with vector := bits v 20 16, irq := bit v 15, enable := en, size := if x.state == .off then bits v 2 0 else x.size }

/-- A pair that has just started: every index, SEQ_EXP and the count of entries written from 0 (R392). -/
def ringFresh (x : Ring) : Ring :=
  { x with state := .running, n := 16 * 2 ^ x.size, head := 0, seqExp := 0, sqTail := 0, cqTail := 0, cqHead := 0, written := 0,
           armed := true, waitRaised := false, discard := false, held := true }

theorem ringOf_ringFields {r : Nat} {s : State} (v : Nat) (en : Bool) (hr : r < s.cmd.rings.length) :
    ringOf (ringFields r v en s) r = ringSet v en (ringOf s r) := ringOf_setRing_self hr

theorem ringFields_length (r v : Nat) (en : Bool) (s : State) : (ringFields r v en s).cmd.rings.length = s.cmd.rings.length :=
  List.length_set ..

theorem ringOf_move (id a b n : Nat) (s : State) (k : Nat) : ringOf (move id a b n s) k = ringOf s k := by
  rw [ringOf, move_cmd, ringOf]

theorem ringOf_ringStart {r : Nat} {s : State} (hr : r < s.cmd.rings.length) (k : Nat) :
    ringOf (ringStart r s) k = if r = k then ringFresh (ringOf s r) else ringOf s k := by
  unfold ringStart
  dsimp only []
  rw [ringOf_move, ringOf_move]
  split
  · next h => subst h; exact ringOf_setRing_self hr
  · next h => exact ringOf_setRing_of_ne h

/-- A pair that is off starts when it is enabled with a good SIZE (R392). -/
theorem ringEnable_of_off {r v : Nat} {s : State} (hr : r < s.cmd.rings.length) (hoff : (ringOf s r).state = .off)
    (hsize : bits v 2 0 ≤ 4) : ringEnable r v s = ringStart r (ringFields r v true s) := by
  unfold ringEnable
  dsimp only []
  rw [hoff, if_neg (by simp), if_neg]
  rw [ringOf_ringFields v true hr, ringSet, hoff]
  simpa using hsize

/-- A bad SIZE is ring error 0x01 (R393). -/
theorem ringEnable_of_bad_size {r v : Nat} {s : State} (hr : r < s.cmd.rings.length) (hoff : (ringOf s r).state = .off)
    (hsize : 4 < bits v 2 0) : ringEnable r v s = ringError r 0x01 (ringFields r v true s) := by
  unfold ringEnable
  dsimp only []
  rw [hoff, if_neg (by simp), if_pos]
  rw [ringOf_ringFields v true hr, ringSet, hoff]
  simpa using hsize

/-! ## A pair drains and is off (R392) -/

/-- A running or failed pair drains when it is disabled, and its unread commands are dropped (R392). -/
theorem ringDisable_of_on {r : Fin 16} {v : Nat} {s : State} (hr : r.val < s.cmd.rings.length)
    (hon : (ringOf s r.val).state = .running ∨ (ringOf s r.val).state = .error) : ringDisable r v s =
      dropUnread r (setRing r.val { ringSet v false (ringOf s r.val) with state := .draining } (ringFields r.val v false s)) := by
  unfold ringDisable
  dsimp only []
  rw [ringOf_ringFields v false hr]
  exact if_pos hon

theorem ringOf_dropUnread (r : Fin 16) (s : State) (k : Nat) : ringOf (dropUnread r s) k = ringOf s k := rfl

theorem not_unread_of_mem_dropUnread (r : Fin 16) (s : State) : ∀ w ∈ (dropUnread r s).cmd.waits,
    ¬(w.h.src = .ring r ∧ w.seqExp = none) := by
  intro w hw ⟨hsrc, hseq⟩
  have := (List.mem_filter.1 hw).2
  simp [hsrc, hseq] at this

/-- A packet of a ring whose pair is not running is not read (R392). -/
theorem command_of_not_running {x : Row} {s : State} {r : Fin 16} (hsrc : x.h.src = .ring r) (hstate : (ringOf s r.val).state ≠ .running) :
    command x s = s := by
  unfold command
  rw [hsrc]
  exact if_neg (by simp [hstate])

theorem ringOf_ringOff {r : Nat} {s : State} (hr : r < s.cmd.rings.length) :
    ringOf (ringOff r s) r = { ringOf s r with state := .off, held := false } := by
  have hcmd : (freeRingEntries (ringOf s r) s).cmd = s.cmd :=
    (freeRingEntries_fit (L := 0x200) (by decide) (Fit.refl _ s)).2 .cmd rfl
  exact ringOf_setRing_self (by rw [hcmd]; exact hr)

theorem exec_ringDrained {r : Fin 16} {s : State} (hstate : (ringOf s r.val).state = .draining) (hbusy : ringBusy r s = false) :
    exec (.ringDrained r) s = .next (ringOff r.val s) :=
  congrArg Host.Outcome.next (if_pos (by simp [hstate, hbusy]))

theorem exec_ringEnable {r : Fin 16} {v : BitVec 31} {s : State} (hup : s.cmd.up = true) :
    exec (.ringEnable r v) s = .next (ringEnable r.val v.toNat (hostTouch s)) := congrArg Host.Outcome.next (hostAccess_up _ hup)

theorem exec_ringDisable {r : Fin 16} {v : BitVec 31} {s : State} (hup : s.cmd.up = true) :
    exec (.ringDisable r v) s = .next (ringDisable r v.toNat (hostTouch s)) := congrArg Host.Outcome.next (hostAccess_up _ hup)

theorem exec_sqTail {r : Fin 16} {v : U32} {strays : List Stray} {mem : HostMem} {s : State} (hup : s.cmd.up = true) :
    exec (.sqTail r v strays mem) s = .next (sqTail r v.toNat strays mem (hostTouch s)) :=
  congrArg Host.Outcome.next (hostAccess_up _ hup)

theorem exec_cqHead {r : Fin 16} {v : U32} {s : State} (hup : s.cmd.up = true) :
    exec (.cqHead r v) s = .next (cqHead r v.toNat (hostTouch s)) := congrArg Host.Outcome.next (hostAccess_up _ hup)

theorem hostTouch_fit_refl (s : State) : Fit 0x400 s (hostTouch s) := hostTouch_fit (by decide) (Fit.refl _ s)

/-- Settles O14: each clause reads the one pair it changes. -/
theorem pairLife : Obligations.PairLife := by
  refine ⟨?_, ?_, ?_, ?_, ?_⟩
  · intro r v s hup hr hoff hsize
    have hr' : r.val < (ringFields r.val v.toNat true (hostTouch s)).cmd.rings.length := by rw [ringFields_length]; exact hr
    have hring : ringOf (ringStart r.val (ringFields r.val v.toNat true (hostTouch s))) r.val =
        ringFresh (ringSet v.toNat true (ringOf s r.val)) := by
      rw [ringOf_ringStart hr', if_pos rfl, ringOf_ringFields (s := hostTouch s) _ _ hr]; rfl
    have hsz : (ringSet v.toNat true (ringOf s r.val)).size = bits v.toNat 2 0 := by simp [ringSet, hoff]
    refine ⟨_, (exec_ringEnable hup).trans (congrArg _ (ringEnable_of_off hr hoff hsize)), ?_⟩
    rw [hring]
    refine ⟨rfl, by rw [← hsz]; rfl, rfl, rfl, rfl, rfl, rfl, ?_, rfl, rfl, rfl, fun k hk => ?_, ?_⟩
    · exact (congrArg (· % 2) (Nat.zero_div _) :)
    · rw [ringOf_ringStart hr', if_neg (Ne.symm hk)]
      exact ringOf_setRing_of_ne (Ne.symm hk)
    · exact (ringStart_fit (L := 0x600) (by decide) (setRing_fit (by decide) (hostTouch_fit (by decide) (Fit.refl _ s)))).keeps
        (by decide)
  · intro r v s hup hr hon
    have hr' : r.val < (ringFields r.val v.toNat false (hostTouch s)).cmd.rings.length := by rw [ringFields_length]; exact hr
    refine ⟨_, (exec_ringDisable hup).trans (congrArg _ (ringDisable_of_on hr hon)), ?_, not_unread_of_mem_dropUnread r _, rfl,
      (dropUnread_fit (by decide) (setRing_fit (by decide) (setRing_fit (by decide) (hostTouch_fit_refl s)))).keeps (by decide)⟩
    rw [ringOf_dropUnread, ringOf_setRing_self hr']
  · intro c x s r hc hsrc hstate
    rw [exec_of_rowOf s hc, command_of_not_running hsrc hstate]
  · intro h opc v s r hsrc hstate hdiscard hcq hup ho hq
    exact ⟨_, _, mem_out_finish_ring hsrc ho hup (by simp [hstate]) hdiscard hcq (by simp [hq])⟩
  · intro r s hstate hbusy hr
    refine ⟨_, exec_ringDrained hstate hbusy, ?_, ?_, (ringOff_fit (L := 0x600) (by decide) (Fit.refl _ s)).keeps (by decide)⟩
    · rw [ringOf_ringOff hr]
    · rw [ringOf_ringOff hr]

/-! ## SQ_TAIL and CQ_HEAD (R391) -/

/-- A good SQ_TAIL submits entries and moves nothing else of the pair (R391, R395). -/
theorem sqTail_of_good {r : Fin 16} {v : Nat} {s : State} (hstate : (ringOf s r.val).state = .running) (hv : v < (ringOf s r.val).n)
    (hahead : unread (ringOf s r.val) ≤ (v + (ringOf s r.val).n - (ringOf s r.val).head) % (ringOf s r.val).n) :
    ∃ k, sqTail r v [] .ok s = move 0x20 1 2 k (setRing r.val { ringOf s r.val with sqTail := v } s) := by
  unfold unread at hahead
  unfold sqTail
  dsimp only []
  rw [if_neg (by simp [hstate]), if_neg (Nat.not_le.2 hv), if_neg (Nat.not_lt.2 hahead)]
  exact ⟨_, rfl⟩

/-- An index outside the ring is ring error 0x02 (R393). -/
theorem sqTail_of_bad {r : Fin 16} {v : Nat} {strays : List Stray} {mem : HostMem} {s : State}
    (hstate : (ringOf s r.val).state = .running) (hv : (ringOf s r.val).n ≤ v) :
    sqTail r v strays mem s = dropUnread r (ringError r.val 0x02 s) := by
  unfold sqTail
  dsimp only []
  rw [if_neg (by simp [hstate]), if_pos hv]

/-- The pair after a good CQ_HEAD: written entries that remain raise the interrupt at once, else it is armed (R394). -/
def cqReleased (v k : Nat) (x : Ring) : Ring := { x with cqHead := v, armed := !(x.irq && decide (k < unreleased x)) }

/-- A good CQ_HEAD releases entries (R391, R395). -/
theorem cqHead_of_good {r : Fin 16} {v k : Nat} {s : State} (hstate : (ringOf s r.val).state ≠ .off)
    (hheld : (ringOf s r.val).held = true) (hv : v < (ringOf s r.val).n)
    (hk : k = (v + (ringOf s r.val).n - (ringOf s r.val).cqHead) % (ringOf s r.val).n) (hle : k ≤ unreleased (ringOf s r.val)) :
    cqHead r v s = (fun u => if ((ringOf s r.val).irq && decide (k < unreleased (ringOf s r.val))) = true
        then sendMsix (ringOf s r.val).vector u else u)
      (move 0x21 1 2 k (setRing r.val (cqReleased v k (ringOf s r.val)) s)) := by
  subst hk
  unfold cqHead
  dsimp only []
  rw [if_neg (by simp [hstate, hheld]), if_neg (Nat.not_le.2 hv), if_neg (Nat.not_lt.2 hle), if_neg (by simp)]
  rfl

theorem ringOf_sendMsix (v : Nat) (s : State) (k : Nat) : ringOf (sendMsix v s) k = ringOf s k := by
  rw [ringOf, (sendMsix_cmdLike v s).rings, ringOf]

/-- Settles O15: each register changes the one pair it belongs to, or fails it. -/
theorem ringRegisters : Obligations.RingRegisters := by
  refine ⟨?_, ?_, ?_, ?_⟩
  · intro r v s hup hoff hr hsize
    exact ⟨_, (exec_ringEnable hup).trans (congrArg _ (ringEnable_of_bad_size hr hoff hsize)),
      (setRing_fit (by decide) (hostTouch_fit_refl s)).keeps (by decide)⟩
  · intro r v s hup hr hstate hv hahead
    obtain ⟨k, hk⟩ := sqTail_of_good (s := hostTouch s) hstate hv hahead
    refine ⟨_, (exec_sqTail hup).trans (congrArg _ hk), ?_, ?_⟩
    · rw [ringOf_move]; exact ringOf_setRing_self hr
    · exact (move_fit (L := 0x600) (by decide) (setRing_fit (by decide) (hostTouch_fit (by decide) (Fit.refl _ s)))).keeps (by decide)
  · intro r v strays mem s hup hstate hv
    exact ⟨_, (exec_sqTail hup).trans (congrArg _ (sqTail_of_bad hstate hv)), rfl⟩
  · intro r v s k hup hr hstate hheld hv hk hle
    have hfit : Fit 0x602 s (move 0x21 1 2 k (setRing r.val (cqReleased v.toNat k (ringOf s r.val)) (hostTouch s))) :=
      move_fit (by decide) (setRing_fit (by decide) (hostTouch_fit (by decide) (Fit.refl _ s)))
    have hring : ringOf (move 0x21 1 2 k (setRing r.val (cqReleased v.toNat k (ringOf s r.val)) (hostTouch s))) r.val =
        cqReleased v.toNat k (ringOf s r.val) := by rw [ringOf_move]; exact ringOf_setRing_self hr
    refine ⟨_, (exec_cqHead hup).trans (congrArg _ (cqHead_of_good (s := hostTouch s) hstate hheld hv hk hle)), ?_⟩
    dsimp only []
    split
    · rw [ringOf_sendMsix]
      exact ⟨congrArg Ring.cqHead hring, congrArg Ring.armed hring, (sendMsix_fit (by decide) hfit).keeps (by decide)⟩
    · exact ⟨congrArg Ring.cqHead hring, congrArg Ring.armed hring, hfit.keeps (by decide)⟩

/-! ## The lease (R406 to R408) -/

theorem admitted_lease (r : Row) (s : State) : (admitted r s).cmd.lease = s.cmd.lease := by
  have hjudged : (judged r s).cmd.lease = s.cmd.lease := by
    show (reached r s).cmd.lease = _
    obtain ⟨l, h⟩ | h := reached_cmd_cases r s <;> rw [h]
  unfold admitted admitLive
  dsimp only []
  split
  · rw [noteT1_cmd, hjudged]
  · show (noteT1 r.h (judged r s)).cmd.lease = _
    rw [noteT1_cmd, hjudged]

theorem expireLease_of_free {s : State} (h : s.cmd.lease.holder = none) : expireLease s = s := by rw [expireLease, h]

theorem expireLease_of_live {s : State} {m : Master} (h : s.cmd.lease.holder = some m) (ht : merNs s < s.cmd.lease.expiry) :
    expireLease s = s := by
  rw [expireLease, h]; exact if_pos ht

/-- The lease of a master has expired (R406, R408). -/
def leaseExpired (m : Master) (s : State) : State :=
  dropUnlocks m (raise 0x21 [] { s with cmd := { s.cmd with lease := { last := some m } } })

theorem leaseExpired_holder (m : Master) (s : State) : (leaseExpired m s).cmd.lease.holder = none :=
  congrArg Lease.holder (raise_lease ..)

theorem leaseExpired_live (m : Master) (s : State) : (leaseExpired m s).cmd.live = s.cmd.live := raise_live ..

theorem expireLease_of_expired {s : State} {m : Master} (h : s.cmd.lease.holder = some m) (ht : s.cmd.lease.expiry ≤ merNs s) :
    expireLease s = leaseExpired m s := by
  rw [expireLease, h]; exact if_neg (Nat.not_lt.2 ht)

theorem expireLease_time (s : State) : (expireLease s).time = s.time :=
  (expireLease_fit (L := 0x1800C02) (by decide) (Fit.refl _ s)).2 .time rfl

theorem expireLease_par (s : State) : (expireLease s).par = s.par :=
  (expireLease_fit (L := 0x1800C02) (by decide) (Fit.refl _ s)).2 .par rfl

theorem endHeldOf_lease (m : Master) (s : State) : (endHeldOf m s).cmd.lease = s.cmd.lease :=
  List.foldlRecOn (motive := fun t : State => t.cmd.lease = s.cmd.lease) _ _ rfl fun _ ht _ _ => (finish_lease ..).trans ht

/-! ## A write to the NV store leaves the command interface but for its events -/

theorem movePtr_cmd (part n : Nat) (s : State) : (movePtr part n s).cmd = s.cmd :=
  (movePtr_fit (L := 0x1000000) (by decide) (Fit.refl _ s)).2 .cmd rfl

theorem slotFailed_cmdLike (n : Nat) (s : State) : CmdLike s.cmd (slotFailed n s).cmd := by
  have h : CmdLike s.cmd (raise 0xE5 [] (slotSet n .bad s)).cmd := raise_cmdLike 0xE5 [] (slotSet n .bad s)
  unfold slotFailed
  dsimp only []
  split
  · exact h
  · exact h

theorem nvAttempt_cmdLike {r : NvRec} {bad : Bool} {s t : State} (h : nvAttempt r bad s = some t) : CmdLike s.cmd t.cmd := by
  unfold nvAttempt at h
  split at h
  · cases h
  next n _ =>
    have hmove := movePtr_cmd r.part n s
    dsimp only [] at h
    split at h
    · rw [← Option.some.inj h, ← hmove]; exact slotFailed_cmdLike ..
    · rw [← Option.some.inj h]
      show CmdLike s.cmd (movePtr r.part n s).cmd
      rw [hmove]
      exact CmdLike.refl _

theorem nvPut_cmdLike (part type key : Nat) (tomb : Bool) (pay : List Byte) (fails : Nat) (s : State) :
    CmdLike s.cmd (nvPut part type key tomb pay fails s).1.cmd := by
  unfold nvPut
  extract_lets seq r
  split
  · exact CmdLike.refl _
  split
  · exact raise_cmdLike ..
  next s1 h1 =>
  have hs1 := nvAttempt_cmdLike h1
  split
  · exact hs1
  split
  · exact hs1.trans (raise_cmdLike ..)
  next s2 h2 =>
  split
  · exact hs1.trans (nvAttempt_cmdLike h2)
  · exact hs1.trans (nvAttempt_cmdLike h2)

theorem putBoot_cmdLike (b : BootCtl) (s : State) : CmdLike s.cmd (putBoot b s).cmd := nvPut_cmdLike ..

/-! ## The lease is granted (R407) -/

/-- The end of an update leaves the lease (R524). -/
theorem endUpdate_lease (st : Option Nat) (later : Bool) (s : State) : (endUpdate st later s).cmd.lease = s.cmd.lease := by
  unfold endUpdate
  split
  · rfl
  next u _ =>
  extract_lets boot s1 s2
  have h1 : s1.cmd.lease = s.cmd.lease := (putBoot_cmdLike _ _).lease
  have h2 : s2.cmd.lease = s.cmd.lease := by
    dsimp only [s2]
    split
    · cases u.verifying <;> cases u.erasing <;> simp only [finish_lease, h1]
    · exact h1
  split
  · exact h2
  · rw [stageEvent, raise_lease, h2]

theorem endUpdateOf_lease (m : Master) (s : State) : (endUpdateOf m s).cmd.lease = s.cmd.lease := by
  unfold endUpdateOf
  split
  · split
    · exact endUpdate_lease ..
    · rfl
  · rfl

/-- The lease as it stands when it has been granted to a master (R406, R407). -/
theorem grantLease_lease (m : Master) (forced : Bool) (s : State) : (grantLease m forced s).cmd.lease =
    { holder := some m, forced := forced, last := some m, expiry := merNs s + pv s 0x0500 * 1000000 } := by
  unfold grantLease
  dsimp only []
  rw [endUpdateOf_lease, endHeldOf_lease]
  show (raise _ _ _).cmd.lease = _
  rw [raise_lease]
  rfl

theorem taken_leaseRow_time {r : Row} (hpre : r.pre = expireLease) (s : State) : (taken r s).time = s.time := by
  rw [taken, hpre, expireLease_time, admitted_time]

theorem taken_leaseRow_par {r : Row} (hpre : r.pre = expireLease) (s : State) : (taken r s).par = s.par := by
  rw [taken, hpre, expireLease_par, admitted_par]

/-- LEASE_TAKE of a free lease grants it (R407). -/
theorem exec_leaseTake_of_free {h : Hdr} {p : LeaseTakeP} {s : State} (hfree : s.cmd.lease.holder = none)
    (hs : served (rowLeaseTake h p) s = true) : exec (.leaseTake h p) s =
      .next (finish h 0x0005 (okay (masterCode (masterOf h.src)) (pv s 0x0500) 0)
        (grantLease (masterOf h.src) false (taken (rowLeaseTake h p) s))) := by
  have htaken : taken (rowLeaseTake h p) s = admitted (rowLeaseTake h p) s := expireLease_of_free (by rw [admitted_lease, hfree])
  have htake : decideTake (masterOf h.src) (p.b0.toNat.testBit 0) (taken (rowLeaseTake h p) s) = .grant false := by
    rw [decideTake, htaken, admitted_lease, hfree]
  have hrun : runTake h p (taken (rowLeaseTake h p) s) = finish h 0x0005 (okay (masterCode (masterOf h.src)) (pv s 0x0500) 0)
      (grantLease (masterOf h.src) false (taken (rowLeaseTake h p) s)) := by
    rw [runTake, htake]
    dsimp only []
    rw [pv_congr (taken_leaseRow_par rfl s)]
    rfl
  exact congrArg Host.Outcome.next ((command_of_served hs).trans hrun)

/-- LEASE_TAKE by the holder renews the lease (R407). -/
theorem exec_leaseTake_of_holder {h : Hdr} {p : LeaseTakeP} {s : State} (hheld : s.cmd.lease.holder = some (masterOf h.src))
    (hlive : merNs s < s.cmd.lease.expiry) (hs : served (rowLeaseTake h p) s = true) : exec (.leaseTake h p) s =
      .next (finish h 0x0005 (okay (masterCode (masterOf h.src)) (pv s 0x0500) 0) (renewLease (taken (rowLeaseTake h p) s))) := by
  have hnow : merNs (admitted (rowLeaseTake h p) s) = merNs s := merNs_congr (admitted_time _ s)
  have htaken : taken (rowLeaseTake h p) s = admitted (rowLeaseTake h p) s :=
    expireLease_of_live (by rw [admitted_lease, hheld]) (by rw [hnow, admitted_lease]; exact hlive)
  have htake : decideTake (masterOf h.src) (p.b0.toNat.testBit 0) (taken (rowLeaseTake h p) s) = .renew := by
    rw [decideTake, htaken, admitted_lease, hheld]
    dsimp only []
    rw [if_neg (by rw [hnow]; exact Nat.not_le.2 hlive), if_pos rfl]
  have hrun : runTake h p (taken (rowLeaseTake h p) s) = finish h 0x0005 (okay (masterCode (masterOf h.src)) (pv s 0x0500) 0)
      (renewLease (taken (rowLeaseTake h p) s)) := by
    rw [runTake, htake]
    dsimp only []
    rw [pv_congr (taken_leaseRow_par rfl s)]
    rfl
  exact congrArg Host.Outcome.next ((command_of_served hs).trans hrun)

theorem taken_leaseTake_holder {h : Hdr} {p : LeaseTakeP} {s : State} {m : Master} (hheld : s.cmd.lease.holder = some m)
    (hlive : merNs s < s.cmd.lease.expiry) : (taken (rowLeaseTake h p) s).cmd.lease.holder = some m := by
  have hadm : (admitted (rowLeaseTake h p) s).cmd.lease.holder = some m := by rw [admitted_lease, hheld]
  have htaken : taken (rowLeaseTake h p) s = admitted (rowLeaseTake h p) s :=
    expireLease_of_live hadm (by rw [merNs_congr (admitted_time _ s), admitted_lease]; exact hlive)
  rw [htaken, hadm]

/-- An accepted renewal gives the caller the lease again (R408). -/
def leaseKept (m : Master) (s : State) : State := renewLease { s with cmd := { s.cmd with lease := { s.cmd.lease with holder := some m } } }

theorem exec_leaseRenew {h : Hdr} {s : State} (hs : served (rowLeaseRenew h) s = true) : exec (.leaseRenew h) s =
    .next (finish h 0x0006 (okay) (leaseKept (masterOf h.src) (taken (rowLeaseRenew h) s))) :=
  congrArg Host.Outcome.next (command_of_served hs)

theorem exec_leaseRelease {h : Hdr} {s : State} (hs : served (rowLeaseRelease h) s = true) : exec (.leaseRelease h) s =
    .next (raise 0x22 [] (finish h 0x0007 (okay) (endLease (taken (rowLeaseRelease h) s)))) :=
  congrArg Host.Outcome.next (command_of_served hs)

/-- A lease that is held expires at its time (R406). -/
theorem exec_cmdLeaseExpired {s : State} {m : Master} (hm : s.cmd.lease.holder = some m) :
    exec .cmdLeaseExpired s = .next (leaseExpired m (advanceMer s.cmd.lease.expiry s)) := by
  have hlease : (advanceMer s.cmd.lease.expiry s).cmd.lease = s.cmd.lease := by rw [advanceMer_cmd]
  rw [← expireLease_of_expired (by rw [hlease, hm]) (by rw [hlease]; exact le_merNs_advanceMer ..)]
  exact congrArg Host.Outcome.next (if_neg (by rw [hm]; simp))

theorem leaseExpired_time (m : Master) (s : State) : (leaseExpired m s).time = s.time := raise_time ..

theorem renewLease_lease (s : State) : (renewLease s).cmd.lease = { s.cmd.lease with expiry := merNs s + pv s 0x0500 * 1000000 } := rfl

theorem leaseKept_lease (m : Master) (s : State) : (leaseKept m s).cmd.lease =
    { s.cmd.lease with holder := some m, expiry := merNs s + pv s 0x0500 * 1000000 } := rfl

theorem endLease_holder (s : State) : (endLease s).cmd.lease.holder = none := rfl

/-- Settles O13: a grant, a renewal, a release and an expiry each set the lease, and nothing after them does. -/
theorem lease : Obligations.Lease := by
  refine ⟨?_, ?_, ?_, ?_, ?_⟩
  · intro h p s hfree hs
    have hlease := grantLease_lease (masterOf h.src) false (taken (rowLeaseTake h p) s)
    rw [merNs_congr (taken_leaseRow_time rfl s), pv_congr (taken_leaseRow_par rfl s)] at hlease
    exact ⟨_, exec_leaseTake_of_free hfree hs, by rw [hlease], by rw [hlease], by rw [hlease]⟩
  · intro h p s hheld hlive hs
    have hlease := renewLease_lease (taken (rowLeaseTake h p) s)
    rw [merNs_congr (taken_leaseRow_time rfl s), pv_congr (taken_leaseRow_par rfl s)] at hlease
    exact ⟨_, exec_leaseTake_of_holder hheld hlive hs, by rw [hlease, taken_leaseTake_holder hheld hlive], by rw [hlease]⟩
  · intro h s hs
    have hlease := leaseKept_lease (masterOf h.src) (taken (rowLeaseRenew h) s)
    rw [merNs_congr (taken_leaseRow_time rfl s), pv_congr (taken_leaseRow_par rfl s)] at hlease
    exact ⟨_, exec_leaseRenew hs, by rw [hlease], by rw [hlease]⟩
  · intro h s hs
    refine ⟨_, exec_leaseRelease hs, ?_⟩
    rw [raise_lease, finish_lease, endLease_holder]
  · intro s m hm
    refine ⟨_, exec_cmdLeaseExpired hm, leaseExpired_holder .., ?_, ?_⟩
    · rw [merNs_congr (leaseExpired_time ..)]; exact le_merNs_advanceMer ..
    · rw [leaseExpired_live, advanceMer_cmd]

end Sys2Proof.Machine
end

section
/-! PROOFS. Device buffers, copies and the ledger (R372 to R382), and the memory controller's windows, fences and BAR2 (R339 to
R365). -/

namespace Sys2Proof.Machine

/-! ## Bytes of device memory -/

/-- Bytes written read back, and every other byte reads as before. -/
theorem memGet_memPutAll (m : DevMem) (x y : Nat) (bs : List Byte) (h : Memory.wf m = true) :
    memGet (memPutAll m x bs) y = if x ≤ y ∧ y < x + bs.length then bs.getD (y - x) 0 else memGet m y := by
  induction bs generalizing m x with
  | nil => rw [memPutAll, if_neg (by simp)]
  | cons b r ih =>
    rw [memPutAll, ih _ _ (memPut_wf x b h), memGet_memPut _ _ _ _ h]
    by_cases hy : y = x
    · subst hy; simp
    · by_cases hin : x + 1 ≤ y ∧ y < x + 1 + r.length
      · obtain ⟨n, rfl⟩ : ∃ n, y = x + 1 + n := ⟨y - (x + 1), by omega⟩
        rw [if_pos hin, if_pos (by simp; omega), show x + 1 + n - (x + 1) = n by omega, show x + 1 + n - x = n + 1 by omega]
        rfl
      · rw [if_neg hin, if_neg hy, if_neg (by simp; omega)]

/-- An erased byte is blank, whatever stood there. -/
theorem memGet_memErase_of_mem {m : DevMem} {x n y : Nat} (hy : x ≤ y ∧ y < x + n) : memGet (memErase m x n) y = memBlank := by
  have hcell : ∀ l : List Host.Cell, cellGet (cellErase l x n) y = memBlank := by
    intro l
    induction l with
    | nil => rfl
    | cons c r ih =>
      rw [cellErase, List.filter_cons]
      split
      · next hc =>
        have hne : c.1 ≠ y := by simp at hc; omega
        rw [cellGet, if_neg hne]
        split
        · rfl
        · exact ih
      · exact ih
  rw [memGet_eq]
  simp only [memErase, find_without, if_pos hy, hcell]

theorem length_bytesAt (bs : List Byte) (o n : Nat) : (bytesAt bs o n).length = n := by
  simp only [bytesAt, List.length_append, List.length_take, List.length_drop, List.length_replicate]
  omega

/-! ## BUF_ALLOC, BUF_FREE and BUF_QUERY (R372, R374, R377) -/

/-- The state in which BUF_ALLOC has made a buffer of `n` units (R372). -/
def allocated (b : Buf) (n : Nat) (s : State) : State :=
  devBlur (bufAddr b) (n * unitBytes) (move 0x01 0 1 n { s with buf := { s.buf with bufs := s.buf.bufs ++ [b] } })

theorem allocated_fit {L : Nat} {s0 : State} (b : Buf) (n : Nat) {s : State} (hL : In 0x1200 L) (h : Fit L s0 s) :
    Fit L s0 (allocated b n s) :=
  devBlur_fit (In.trans (by decide) hL) (move_fit (In.trans (by decide) hL) (Fit.upd_buf (In.trans (by decide) hL) h))

theorem allocated_bufs (b : Buf) (n : Nat) (s : State) : (allocated b n s).buf.bufs = s.buf.bufs ++ [b] := rfl

theorem allocated_mem (b : Buf) (n : Nat) (s : State) : (allocated b n s).mem = memBlur s.mem (bufAddr b) (n * unitBytes) := rfl

theorem exec_bufAlloc {h : Hdr} {p : BufAllocP} {s : State} {a i : Nat}
    (ha : placeFor (taken (rowBufAlloc h p) s) (unitsFor p.size.toNat) (alignUnits p) = some a)
    (hi : freeBufIdx (taken (rowBufAlloc h p) s) = some i) (hs : served (rowBufAlloc h p) s = true) {b : Buf}
    (hb : b = ⟨i, a, unitsFor p.size.toNat, true, genOf (taken (rowBufAlloc h p) s) 0x01 i, []⟩) :
    exec (.bufAlloc h p) s = .next (finish h 0x0201 (okay (handle 0x01 i b.gen) (bufAddr b % 2 ^ 32) (bufAddr b / 2 ^ 32))
      (checkLow (allocated b (unitsFor p.size.toNat) (taken (rowBufAlloc h p) s)))) := by
  have hrun : runBufAlloc h p (taken (rowBufAlloc h p) s) = finish h 0x0201 (okay (handle 0x01 i b.gen) (bufAddr b % 2 ^ 32)
      (bufAddr b / 2 ^ 32)) (checkLow (allocated b (unitsFor p.size.toNat) (taken (rowBufAlloc h p) s))) := by
    rw [runBufAlloc, ha, hi, hb]; rfl
  exact congrArg Host.Outcome.next ((command_of_served hs).trans hrun)

/-- The state in which the handle of a buffer has ended and no layer lets it stand (R184, R374). -/
def handleEnded (b : Buf) (s : State) : State := dropSources b.idx (nextGen 0x01 b.idx s)

/-- A held buffer is freed later (R374). -/
def freeDeferred (c : Buf) (s : State) : State :=
  move 0x01 1 (bufCol { c with live := false }) c.units (setBuf { c with live := false } s)

theorem freeDeferred_dead {c y : Buf} {s : State} (hy : y ∈ (freeDeferred c s).buf.bufs) (hidx : y.idx = c.idx) : y.live = false := by
  obtain ⟨x, -, rfl⟩ := List.mem_map.1 (show y ∈ s.buf.bufs.map _ from hy)
  by_cases hx : x.idx = c.idx
  · rw [if_pos hx]
  · rw [if_neg hx] at hidx; exact absurd hidx hx

theorem dropBuf_idx_ne {b y : Buf} {c : Nat} {s : State} (hy : y ∈ (dropBuf b c s).buf.bufs) : y.idx ≠ b.idx := by
  simpa using (List.mem_filter.1 (show y ∈ s.buf.bufs.filter _ from hy)).2

theorem exec_bufFree {h : Hdr} {p : HandleP} {s : State} {b c : Buf} (hb : bufOf (taken (rowBufFree h p) s) p.handle.toNat = some b)
    (hs : served (rowBufFree h p) s = true)
    (hc : c = ((handleEnded b (taken (rowBufFree h p) s)).buf.bufs.find? (fun y => y.idx == b.idx)).getD b) :
    exec (.bufFree h p) s = .next (if c.holds.isEmpty
      then finish h 0x0202 (okay) (checkLow (dropBuf c 1 (handleEnded b (taken (rowBufFree h p) s))))
      else finish h 0x0202 ⟨St.deferred, holderMask c, 0, 0⟩
        (raise 0x51 [] (freeDeferred c (handleEnded b (taken (rowBufFree h p) s))))) := by
  have hrun : runBufFree h p (taken (rowBufFree h p) s) = if c.holds.isEmpty
      then finish h 0x0202 (okay) (checkLow (dropBuf c 1 (handleEnded b (taken (rowBufFree h p) s))))
      else finish h 0x0202 ⟨St.deferred, holderMask c, 0, 0⟩
        (raise 0x51 [] (freeDeferred c (handleEnded b (taken (rowBufFree h p) s)))) := by
    rw [runBufFree, hb, hc]; rfl
  exact congrArg Host.Outcome.next ((command_of_served hs).trans hrun)

/-- Settles O45: what BUF_ALLOC and BUF_FREE do with the buffer, by the state each one builds. -/
theorem buffers : Obligations.Buffers := by
  refine ⟨?_, ?_, fun b c s y => dropBuf_idx_ne⟩
  · intro h p s a i ha hi hs
    have htaken : Fit 0x800600 s (taken (rowBufAlloc h p) s) := taken_fit_of_pre_id (by decide) rfl s
    refine ⟨_, _, rfl, exec_bufAlloc ha hi hs rfl, allocated_bufs .., fun hwf x hx => ?_,
      (allocated_fit _ _ (L := 0x801600) (by decide) (taken_fit_of_pre_id (by decide) rfl s)).keeps (by decide)⟩
    have hmem : (taken (rowBufAlloc h p) s).mem = s.mem := htaken.2 .mem (by decide)
    rw [allocated_mem, hmem, memGet_memBlur _ _ _ _ hwf, if_neg (fun hin => ?_)]
    rcases hx with hlt | hge
    · exact absurd hin.1 (Nat.not_le.2 hlt)
    · exact absurd hin.2 (Nat.not_lt.2 hge)
  · intro h p s b hb hs
    refine ⟨_, _, rfl, rfl, fun hfree => ?_, fun hheld => ⟨freeDeferred _ (handleEnded b (taken (rowBufFree h p) s)), ?_,
      fun y => freeDeferred_dead⟩⟩
    · exact (exec_bufFree hb hs rfl).trans (congrArg Host.Outcome.next (if_pos (List.isEmpty_iff.2 hfree)))
    · exact (exec_bufFree hb hs rfl).trans (congrArg Host.Outcome.next (if_neg (mt List.isEmpty_iff.1 hheld)))

theorem exec_bufQuery {h : Hdr} {p : HandleP} {s : State} {b : Buf}
    (hb : bufOf (taken (rowBufQuery h p) s) p.handle.toNat = some b) (hs : served (rowBufQuery h p) s = true) :
    exec (.bufQuery h p) s = .next (finish h 0x0204 (okay b.units (bufAddr b % 2 ^ 32) (bufAddr b / 2 ^ 32 + holderMask b * 2 ^ 8))
      (taken (rowBufQuery h p) s)) := by
  have hrun : (rowBufQuery h p).run (taken (rowBufQuery h p) s) = finish h 0x0204
      (okay b.units (bufAddr b % 2 ^ 32) (bufAddr b / 2 ^ 32 + holderMask b * 2 ^ 8)) (taken (rowBufQuery h p) s) := by
    simp only [rowBufQuery] at hb ⊢; rw [hb]
  exact congrArg Host.Outcome.next ((command_of_served hs).trans hrun)

theorem bits_eq (v hi lo : Nat) : bits v hi lo = v / 2 ^ lo % 2 ^ (hi + 1 - lo) := by rw [bits, Nat.shiftRight_eq_div_pow]

/-- Settles O46. -/
theorem bufferQuery : Obligations.BufferQuery := by
  refine ⟨fun h p => ⟨rfl, rfl⟩, ⟨_, rfl, rfl⟩, fun h p s hp => firstOf_cons_true (by simpa using hp), ?_⟩
  intro h p s b hb hs
  refine ⟨_, exec_bufQuery hb hs, fun haddr => ?_, fun haddr => ?_⟩
  · rw [bits_eq]; omega
  · rw [bits_eq]; omega

/-! ## BUF_COPY (R376) -/

/-- The segment of a copy in device memory: the buffer's index and the address (R61). -/
def copySeg (dev : Bool) (a : U64) (s : State) : Option (Nat × Nat) :=
  if dev then (bufOf s (segHandle a)).map (fun b => (b.idx, bufAddr b + segOff a)) else none

/-- The address of a segment in device or host memory. -/
def segAddr (o : Option (Nat × Nat)) (a : U64) : Nat := match o with | some e => e.2 | none => a.toNat

/-- Nimbus holds the buffer of a segment (R375). -/
def holdCopied (h : Hdr) (o : Option (Nat × Nat)) (s : State) : State :=
  match o with | some e => hold e.1 .nimbus (ownerOf h) s | none => s

theorem holdCopied_copies (h : Hdr) (o : Option (Nat × Nat)) (s : State) : (holdCopied h o s).buf.copies = s.buf.copies := by
  cases o <;> rfl

theorem holdCopied_fit {L : Nat} {s0 s : State} (h : Hdr) (o : Option (Nat × Nat)) (hL : In 0x200 L) (hs : Fit L s0 s) :
    Fit L s0 (holdCopied h o s) := by
  cases o with
  | none => exact hs
  | some e => exact hold_fit hL hs

/-- The copy that BUF_COPY begins. -/
def copyOf (h : Hdr) (p : BufCopyP) (s : State) : BufCopy :=
  let src := copySeg (copyKinds p).1 p.src s
  let dst := copySeg (copyKinds p).2 p.dst s
  ⟨h, src, dst, segAddr src p.src, segAddr dst p.dst, p.len.toNat⟩

/-- The state in which a copy is in progress and its buffers are held (R375, R376). -/
def copyBegun (h : Hdr) (p : BufCopyP) (s : State) : State :=
  let x := holdCopied h (copyOf h p s).dstDev (holdCopied h (copyOf h p s).srcDev s)
  { x with buf := { x.buf with copies := x.buf.copies ++ [copyOf h p s] } }

theorem copyBegun_copies (h : Hdr) (p : BufCopyP) (s : State) : (copyBegun h p s).buf.copies = s.buf.copies ++ [copyOf h p s] := by
  show (holdCopied h _ (holdCopied h _ s)).buf.copies ++ _ = _
  rw [holdCopied_copies, holdCopied_copies]

theorem copyBegun_fit {L : Nat} {s0 s : State} (h : Hdr) (p : BufCopyP) (hL : In 0x200 L) (hs : Fit L s0 s) :
    Fit L s0 (copyBegun h p s) := Fit.upd_buf hL (holdCopied_fit _ _ hL (holdCopied_fit _ _ hL hs))

theorem exec_bufCopy {h : Hdr} {p : BufCopyP} {s : State} (hs : served (rowBufCopy h p) s = true) :
    exec (.bufCopy h p) s = .next (accepted h 0x0203 0 (copyBegun h p (taken (rowBufCopy h p) s))) := by
  have hrun : ∀ x, runBufCopy h p x = accepted h 0x0203 0 (copyBegun h p x) := fun _ => rfl
  exact congrArg Host.Outcome.next ((command_of_served hs).trans (hrun _))

/-- The bytes that a copy moves. -/
def copyData (c : BufCopy) (n : Nat) (data : List Byte) (s : State) : List Byte :=
  if c.srcDev.isSome then memGetAll s.mem c.srcAddr n else bytesAt data 0 n

theorem length_copyData (c : BufCopy) (n : Nat) (data : List Byte) (s : State) : (copyData c n data s).length = n := by
  unfold copyData
  split
  · rw [memGetAll, List.length_map, List.length_range]
  · exact length_bytesAt ..

theorem landCopy_mem (c : BufCopy) (n : Nat) (data : List Byte) (s : State) : (landCopy c n data s).mem =
    if c.dstDev.isSome then memPutAll s.mem c.dstAddr (copyData c n data s) else s.mem := by
  unfold landCopy
  by_cases h : c.dstDev.isSome = true
  · simp only [if_pos h]; rfl
  · simp only [if_neg h]; exact emit_mem ..

theorem landCopy_mem_dev {c : BufCopy} (h : c.dstDev.isSome = true) (n : Nat) (data : List Byte) (s : State) :
    (landCopy c n data s).mem = memPutAll s.mem c.dstAddr (copyData c n data s) := (landCopy_mem ..).trans (if_pos h)

theorem landCopy_mem_host {c : BufCopy} (h : c.dstDev = none) (n : Nat) (data : List Byte) (s : State) :
    (landCopy c n data s).mem = s.mem := (landCopy_mem ..).trans (if_neg (by simp [h]))

/-- The state in which a copy has failed after `n` bytes (R376). -/
def copyBroken (c : BufCopy) (n : Nat) (data : List Byte) (s : State) : State := loseRest c n (landCopy c n data s)

theorem copyBroken_mem_host {c : BufCopy} (h : c.dstDev = none) (n : Nat) (data : List Byte) (s : State) :
    (copyBroken c n data s).mem = s.mem := by
  rw [copyBroken, loseRest, if_neg (by simp [h])]
  exact landCopy_mem_host h ..

theorem memGet_landCopy {c : BufCopy} (h : c.dstDev.isSome = true) (n : Nat) (data : List Byte) {s : State}
    (hwf : Memory.wf s.mem = true) (x : Nat) : memGet (landCopy c n data s).mem x =
      if c.dstAddr ≤ x ∧ x < c.dstAddr + n then (copyData c n data s).getD (x - c.dstAddr) 0 else memGet s.mem x := by
  rw [landCopy_mem_dev h, memGet_memPutAll _ _ _ _ hwf, length_copyData]

/-- A failed copy into device memory: the bytes copied, undefined ones up to its end, and every other byte as before. -/
theorem memGet_copyBroken {c : BufCopy} (h : c.dstDev.isSome = true) {n : Nat} (data : List Byte) {s : State}
    (hwf : Memory.wf s.mem = true) {x : Nat} (hx : ¬ (c.dstAddr + n ≤ x ∧ x < c.dstAddr + c.len)) :
    memGet (copyBroken c n data s).mem x =
      if c.dstAddr ≤ x ∧ x < c.dstAddr + n then (copyData c n data s).getD (x - c.dstAddr) 0 else memGet s.mem x := by
  have hland : Memory.wf (landCopy c n data s).mem = true := by rw [landCopy_mem_dev h]; exact memPutAll_wf _ _ hwf
  rw [copyBroken, loseRest]
  split
  · show memGet (memBlur _ _ _) x = _
    rw [memGet_memBlur _ _ _ _ hland, if_neg (by omega)]
    exact memGet_landCopy h n data hwf x
  · exact memGet_landCopy h n data hwf x

theorem exec_bufCopyDone_ok {k : CmdKey} {copied : U32} {data : List Byte} {c : BufCopy} {s : State}
    (hc : s.buf.copies.find? (fun c => keyOf c.h == k) = some c) : exec (.bufCopyDone k copied .ok data) s =
      .next (finish c.h 0x0203 (okay c.len) (dropCopy c (landCopy c c.len data s))) := by
  show execBufCopyDone k copied .ok data s = _
  rw [execBufCopyDone, hc]; rfl

theorem exec_bufCopyDone_fails {k : CmdKey} {copied : U32} {mem : HostMem} {data : List Byte} {c : BufCopy} {s : State}
    (hc : s.buf.copies.find? (fun c => keyOf c.h == k) = some c) (hm : mem ≠ .ok) : exec (.bufCopyDone k copied mem data) s =
      .next (finish c.h 0x0203 ⟨St.fault, min copied.toNat c.len, 0, 0⟩
        (dropCopy c (copyBroken c (min copied.toNat c.len) data s))) := by
  show execBufCopyDone k copied mem data s = _
  rw [execBufCopyDone, hc]
  exact congrArg Host.Outcome.next (if_neg hm)

/-! ## The ledger (R378 to R382) -/

/-- An audit that finds the counts balanced counts one audit and finds no fault (R379). -/
theorem auditPool_of_balanced {p : Pool} {s : State} (h : p.cols.sum = p.total) : auditPool [] p s = auditOne s :=
  if_pos (show (foundCols p []).sum = _ from h)

/-- LEDGER_READ of a balanced pool: the audit, then the record where it is asked for (R381). -/
def ledgerRead (p : LedgerReadP) (q : Pool) (s : State) : State :=
  if p.dest = 0 then auditOne s else emit (.hostWrite p.dest.toNat (ledgerRecord (auditOne s) q q.cols)) (auditOne s)

theorem ledgerRead_fit {L : Nat} {s0 s : State} (p : LedgerReadP) (q : Pool) (hL : In 0x602 L) (h : Fit L s0 s) :
    Fit L s0 (ledgerRead p q s) := by
  have haudit : Fit L s0 (auditOne s) := Fit.upd_buf (In.trans (by decide) hL) h
  exact Fit.ite (fun _ => haudit) (fun _ => emit_fit (In.trans (by decide) hL) haudit)

theorem exec_ledgerRead {h : Hdr} {p : LedgerReadP} {q : Pool} {s : State}
    (hq : poolOf (taken (rowLedgerRead h p []) s) p.pool.toNat = some q) (hbal : q.cols.sum = q.total)
    (hs : served (rowLedgerRead h p []) s = true) : exec (.ledgerRead h p []) s = .next (finish h 0x0205
      (okay (auditOne (taken (rowLedgerRead h p []) s)).buf.auditSeq q.total (q.cols.getD 0 0 % 2 ^ 24 +
        poolFlags (auditOne (taken (rowLedgerRead h p []) s)) q q.cols * 2 ^ 24)) (ledgerRead p q (taken (rowLedgerRead h p []) s))) := by
  have hrun : ∀ x, poolOf x p.pool.toNat = some q → (rowLedgerRead h p []).run x = finish h 0x0205
      (okay (auditOne x).buf.auditSeq q.total (q.cols.getD 0 0 % 2 ^ 24 + poolFlags (auditOne x) q q.cols * 2 ^ 24))
      (ledgerRead p q x) := by
    intro x hx
    simp only [rowLedgerRead, hx, auditPool_of_balanced hbal]
    rfl
  exact congrArg Host.Outcome.next ((command_of_served hs).trans (hrun _ hq))

/-- Audits of balanced pools one after another: each counts, none finds a fault (R379). -/
theorem audits_of_balanced {L : Nat} {s0 s : State} {l : List Pool} (hl : ∀ p ∈ l, p.cols.sum = p.total) (hL : In 0x200 L)
    (hs : Fit L s0 s) :
    (l.foldl (fun s p => auditPool [] p s) s).buf.auditSeq % 2 ^ 32 = (s.buf.auditSeq + l.length) % 2 ^ 32 ∧
    (l.foldl (fun s p => auditPool [] p s) s).buf.audits = s.buf.audits + l.length ∧
    (l.foldl (fun s p => auditPool [] p s) s).buf.faults = s.buf.faults ∧
    Fit L s0 (l.foldl (fun s p => auditPool [] p s) s) := by
  induction l generalizing s with
  | nil => exact ⟨rfl, rfl, rfl, hs⟩
  | cons p l ih =>
    rw [List.foldl_cons, auditPool_of_balanced (hl p List.mem_cons_self)]
    obtain ⟨hseq, hcount, hfaults, hfit⟩ := ih (fun q hq => hl q (List.mem_cons_of_mem _ hq))
      (show Fit L s0 (auditOne s) from Fit.upd_buf hL hs)
    refine ⟨hseq.trans ?_, hcount.trans ?_, hfaults, hfit⟩
    · show ((s.buf.auditSeq + 1) % 2 ^ 32 + l.length) % 2 ^ 32 = _
      rw [List.length_cons]; omega
    · show s.buf.audits + 1 + l.length = _
      rw [List.length_cons]; omega

/-- The second at which every pool is audited (R379). -/
def auditSecond (s : State) : State := { s with buf := { s.buf with lastAudit := merNs s / nsPerSec } }

/-- The audit of a second counts every pool and nothing else changes but the time and the ledger (R379). -/
theorem audits_at_second {s : State} (t : Nat) (hbal : ∀ p ∈ s.buf.pools, p.cols.sum = p.total) {x u : State}
    (hx : x = auditSecond (advanceMer t s)) (hu : u = x.buf.pools.foldl (fun s p => auditPool [] p s) x) :
    u.buf.auditSeq % 2 ^ 32 = (s.buf.auditSeq + s.buf.pools.length) % 2 ^ 32 ∧
    u.buf.audits = s.buf.audits + s.buf.pools.length ∧ u.buf.faults = s.buf.faults ∧ Keeps [.time, .buf] s u := by
  have hbuf : x.buf = { s.buf with lastAudit := x.buf.lastAudit } := by
    rw [hx, auditSecond]; dsimp only []; rw [advanceMer_buf]
  have hclock : Fit 0x220 s x := by rw [hx]; exact Fit.upd_buf (by decide) (advanceMer_fit (by decide) (Fit.refl _ s))
  have hpools : x.buf.pools = s.buf.pools := by rw [hbuf]
  obtain ⟨hseq, hcount, hfaults, hfit⟩ := audits_of_balanced (l := x.buf.pools) (by rw [hpools]; exact hbal) (by decide) hclock
  rw [← hu] at hseq hcount hfaults hfit
  exact ⟨by rw [hseq, hbuf], by rw [hcount, hbuf], by rw [hfaults, hbuf], hfit.keeps (by decide)⟩

theorem exec_ledgerAuditTick {s : State} (h : mainOn s = true) : exec (.ledgerAuditTick []) s = .next
    ((auditSecond (advanceMer ((max s.buf.lastAudit (merNs s / nsPerSec) + 1) * nsPerSec) s)).buf.pools.foldl
      (fun s p => auditPool [] p s) (auditSecond (advanceMer ((max s.buf.lastAudit (merNs s / nsPerSec) + 1) * nsPerSec) s))) :=
  congrArg Host.Outcome.next (if_neg (by simp [h]))

/-- The second of a buffer in a withdrawn range (R378). -/
def withdrawNoted (s : State) : State := { s with buf := { s.buf with withdrawEvt := s.time.ref } }

theorem exec_bufWithdrawWait {s : State} (h : withdrawnBufs s ≠ []) : ∃ n low, exec .bufWithdrawWait s =
    .next (raise 0x56 [(4, n), (4, low)] (withdrawNoted (advanceRef (s.buf.withdrawEvt + nsPerSec) s))) := by
  show ∃ n low, execBufWithdrawWait s = _
  obtain ⟨b, r, hw⟩ := List.exists_cons_of_ne_nil h
  rw [execBufWithdrawWait, hw]
  generalize s.buf.withdrawEvt + nsPerSec = t
  exact ⟨_, _, rfl⟩

theorem withdrawNoted_time (s : State) : (withdrawNoted s).time = s.time := rfl

theorem withdrawNoted_ref (s : State) : (withdrawNoted s).buf.withdrawEvt = (withdrawNoted s).time.ref := rfl

/-- Settles O47: copies by the bytes they land; audits of balanced pools count and find no fault. -/
theorem copiesAndLedger : Obligations.CopiesAndLedger := by
  refine ⟨⟨?_, ?_, ?_⟩, ?_, ?_, ?_⟩
  · intro h p s hs
    exact ⟨_, _, exec_bufCopy hs, copyBegun_copies .., rfl, rfl,
      (copyBegun_fit _ _ (L := 0x800600) (by decide) (taken_fit_of_pre_id (by decide) rfl s)).keeps (by decide)⟩
  · intro k copied data c s hc
    refine ⟨_, exec_bufCopyDone_ok hc, fun hsrc hdst => ?_, fun hsrc hdst => ?_, fun hdst => landCopy_mem_host hdst ..,
      (landCopy_fit (L := 0x1402) (by decide) (Fit.refl _ s)).keeps (by decide)⟩
    · rw [landCopy_mem_dev hdst, copyData, if_neg (by simp [hsrc])]
    · rw [landCopy_mem_dev hdst, copyData, if_pos hsrc]
  · intro k copied mem data c s hc hm
    refine ⟨_, exec_bufCopyDone_fails hc hm, fun hdst => copyBroken_mem_host hdst .., fun hwf hsrc hdst i hi => ?_,
      fun hwf x hx => ?_, (loseRest_fit (L := 0x1402) (by decide) (landCopy_fit (by decide) (Fit.refl _ s))).keeps (by decide)⟩
    · rw [memGet_copyBroken hdst data hwf (by omega), if_pos (by omega), copyData, if_neg (by simp [hsrc]), Nat.add_sub_cancel_left]
    · cases hdst : c.dstDev with
      | none => rw [copyBroken_mem_host hdst]
      | some e =>
        have hlen : min copied.toNat c.len ≤ c.len := Nat.min_le_right ..
        rw [memGet_copyBroken (by simp [hdst]) data hwf (by omega), if_neg (by omega)]
  · intro h p s q hq hbal hs
    refine ⟨_, _, exec_ledgerRead hq hbal hs, rfl, rfl, rfl, ?_, 
      fun hdest => ⟨ledgerRecord (auditOne (taken (rowLedgerRead h p []) s)) q q.cols, ?_⟩,
      (ledgerRead_fit p q (L := 0x800602) (by decide) (taken_fit_of_pre_id (by decide) rfl s)).keeps (by decide)⟩
    · simp only [okay]; omega
    · rw [ledgerRead, if_neg hdest]; exact mem_out_emit ..
  · intro s hon hbal
    exact ⟨_, exec_ledgerAuditTick hon, audits_at_second _ hbal rfl rfl⟩
  · intro s hw
    obtain ⟨n, low, hexec⟩ := exec_bufWithdrawWait hw
    refine ⟨n, low, _, hexec, ?_, withdrawNoted_ref _, ?_⟩
    · rw [withdrawNoted_time]; exact le_ref_advanceRef ..
    · exact (Fit.upd_buf (L := 0x220) (by decide) (advanceRef_fit (by decide) (Fit.refl _ s))).keeps (by decide)

/-! ## The memory controller (R339 to R355) -/

/-- The bookkeeping of a PC after an update of it. -/
theorem pcOf_onPc {pc : Nat} {s : State} (h : pc < s.dmc.pcs.length) (f : PcSt → PcSt) : pcOf (onPc pc f s) pc = f (pcOf s pc) := by
  simp [pcOf, onPc, List.getD_eq_getElem?_getD, h]

theorem pcOf_onDmc {f : DmcSt → DmcSt} (h : ∀ d, (f d).pcs = d.pcs) (s : State) (pc : Nat) : pcOf (onDmc f s) pc = pcOf s pc := by
  simp [pcOf, onDmc, h]

/-- A run that ends leaves the memory controller as it was (R482). -/
theorem endCalRun_dmc (st cause : Nat) (s : State) : (endCalRun st cause s).dmc = s.dmc :=
  (endCalRun_fit (L := 0x2800E02) (by decide) (Fit.refl _ s)).2 .dmc rfl

theorem foldl_dmcState {α : Type} (f : State → α → State) (hf : ∀ s x, (f s x).dmc.state = s.dmc.state) (l : List α) (s : State) :
    (l.foldl f s).dmc.state = s.dmc.state :=
  List.foldlRecOn (motive := fun t : State => t.dmc.state = s.dmc.state) l f rfl fun t ht x _ => (hf t x).trans ht

theorem abandonCal_state (f : CalJob → Bool) (cause : Nat) (s : State) : (abandonCal f cause s).dmc.state = s.dmc.state := by
  unfold abandonCal
  extract_lets inRun hit gone dmc cal s1 s2
  have h2 : s2.dmc.state = s.dmc.state := foldl_dmcState _ (fun t j => by rw [raise_dmc]) gone s1
  split
  · rw [endCalRun_dmc, h2]
  · exact h2

theorem dropRetrain_state (f : Nat → Bool) (cause : Nat) (s : State) : (dropRetrain f cause s).dmc.state = s.dmc.state :=
  foldl_dmcState _ (fun t w => by rw [raise_dmc]; rfl) _ _

theorem abandonSweeps_state (cause : Nat) (s : State) : (abandonSweeps cause s).dmc.state = s.dmc.state := by
  rw [abandonSweeps, dropRetrain_state, abandonCal_state]

/-- A change of point leaves memory in service (R342). -/
theorem changePoint_state {p : Nat} {s : State} (h : s.dmc.state = 3) : (changePoint p s).dmc.state = 3 := by
  rw [changePoint, if_neg (by omega)]
  split
  · exact h
  · exact (abandonSweeps_state 1 s).trans h

theorem enterSelfRefresh_state {s : State} (h : s.dmc.state = 3) : (enterSelfRefresh s).dmc.state = 4 := by
  rw [enterSelfRefresh, if_neg (by omega)]

/-- The point of the mode in force is taken at the end of the release (R346, R359). -/
def pointTaken (s : State) : State :=
  if s.mode.mode = Mode.starlight then enterSelfRefresh s
  else match pointOf s.mode.mode s.mode.rate with
    | some p => changePoint p s
    | none => s

theorem pointTaken_state {s : State} (h : s.dmc.state = 3) : 3 ≤ (pointTaken s).dmc.state := by
  unfold pointTaken
  split
  · rw [enterSelfRefresh_state h]; decide
  split
  · rw [changePoint_state h]
  · rw [h]

theorem placeHeld_dmc (s : State) : (placeHeld s).dmc = s.dmc :=
  (placeHeld_fit (L := 0x850E42) (by decide) (Fit.refl _ s)).2 .dmc rfl

/-- The release ends with memory in service, whatever the checks find (R346). -/
theorem exec_dmcReady (checks : List DmcCheck) (other : DmcMeas) {s : State} (h : s.dmc.state = 2) :
    ∃ x, x.dmc.state = 3 ∧ exec (.dmcReady checks other) s = .next (placeHeld (pointTaken x)) := by
  show ∃ x, _ ∧ execDmcReady checks other s = _
  unfold execDmcReady
  rw [if_neg (not_not.2 h)]
  extract_lets s1 cal s2 s3 s4 s5 s6
  have h5 : s5.dmc.state = 3 := by dsimp only [s5]; rw [raise_dmc]; rfl
  clear_value s5
  exact ⟨s5, h5, rfl⟩

/-- A window opens on a PC and its rows close (R339, R348). -/
def windowOpened (n : Nat) (s : State) : State :=
  onDmc (fun d => { d with rows := d.rows.filter (fun r => r.pc != n) })
    (onPc n (fun p => { p with winOpen := true, winSince := true, refDone := false }) s)

theorem exec_calWindowOpen {pc : Fin 64} {s : State} (hst : s.dmc.state = 3) (hch : s.dmc.change = none)
    (hopen : (pcOf s pc.val).winOpen = false) (hsince : (pcOf s pc.val).winSince = false)
    (hroom : (s.dmc.pcs.filter (·.winOpen)).length < pv s 0x0704) (hwork : sweeping s pc.val = true) :
    exec (.calWindowOpen pc) s = .next (windowOpened pc.val s) := by
  refine congrArg Host.Outcome.next (if_neg ?_)
  simp [hst, hch, hopen, hsince, hwork, hroom]

/-- A window closes after one step of a sweep (R349). -/
def windowStepped (n : Nat) (w : DmcSweep) (s : State) : State :=
  onPc n (fun p => { p with lastWasSweep := true }) (onDmc (fun d => { d with
    sweeps := d.sweeps.map (fun x => if x.pc = w.pc then { x with windows := x.windows + 1 } else x) })
    (onPc n (fun p => { p with winOpen := false }) s))

theorem exec_calWindowClose_step {pc : Fin 64} {w : DmcSweep} {s : State} (hopen : (pcOf s pc.val).winOpen = true)
    (htest : segmentWaits s pc.val = false) (hw : s.dmc.sweeps.find? (fun w => w.pc == pc.val) = some w) :
    exec (.calWindowClose pc .step) s = .next (windowStepped pc.val w s) := by
  show execCalWindowClose pc .step s = _
  have htest' : segmentWaits (onPc pc.val (fun p => { p with winOpen := false }) s) pc.val = false := htest
  have hw' : (onPc pc.val (fun p => { p with winOpen := false }) s).dmc.sweeps.find? (fun w => w.pc == pc.val) = some w := hw
  simp only [execCalWindowClose, hopen, Bool.not_true, Bool.false_eq_true, if_false, htest', hw', Bool.false_and]
  rfl

theorem windowStepped_closed {n : Nat} {w : DmcSweep} {s : State} (h : n < s.dmc.pcs.length) :
    (pcOf (windowStepped n w s) n).winOpen = false := by
  have hpc := pcOf_onDmc (f := fun d => { d with
    sweeps := d.sweeps.map (fun x => if x.pc = w.pc then { x with windows := x.windows + 1 } else x) }) (fun _ => rfl)
    (onPc n (fun p => { p with winOpen := false }) s) n
  rw [windowStepped, pcOf_onPc (by simpa [onDmc, onPc] using h)]
  show (pcOf (onDmc _ _) n).winOpen = false
  rw [hpc, pcOf_onPc h]

/-- The next bank of a PC is refreshed, and its row closes (R340). -/
def refreshed (n : Nat) (s : State) : State :=
  onDmc (fun d => { d with rows := d.rows.filter (fun r => !(r.pc == n && r.bank == (pcOf s n).refBank)) })
    (onPc n (fun p => { p with refBank := (p.refBank + 1) % 32, refDone := true, winSince := false }) s)

theorem exec_dmcRefresh {pc : Fin 64} {s : State} (hst : s.dmc.state = 3) (hopen : (pcOf s pc.val).winOpen = false) :
    exec (.dmcRefresh pc) s = .next (refreshed pc.val s) := by
  refine congrArg Host.Outcome.next (if_neg ?_)
  simp [hst, hopen]

/-- The row of a bank closes (R339). -/
def bankClosed (pc bank : Nat) (s : State) : State :=
  onDmc (fun d => { d with rows := d.rows.filter (fun x => !(x.pc == pc && x.bank == bank)) }) s

theorem bankClosed_time (pc bank : Nat) (s : State) : (bankClosed pc bank s).time = s.time := rfl

theorem bankClosed_rows {pc bank : Nat} {s : State} {x : OpenRow} (hx : x ∈ (bankClosed pc bank s).dmc.rows) :
    ¬(x.pc = pc ∧ x.bank = bank) := by
  have := (List.mem_filter.1 (show x ∈ s.dmc.rows.filter _ from hx)).2
  simpa [-not_and, not_and_or] using this

theorem exec_dmcPageIdleExpiry {pc : Fin 64} {bank : Fin 32} {r : OpenRow} {s : State}
    (hr : s.dmc.rows.find? (fun r => r.pc == pc.val && r.bank == bank.val) = some r) : exec (.dmcPageIdleExpiry pc bank) s =
      .next (bankClosed pc.val bank.val (advanceRef (r.last + pv s 0x0702) s)) := by
  show execDmcPageIdleExpiry pc bank s = _
  simp only [execDmcPageIdleExpiry, hr]
  rfl

/-- The copy of a fence begins (R355 step 3). -/
def fenceCopying (f : Fence) (rest : List Fence) (s : State) : State :=
  onDmc (fun d => { d with fences := { f with copying := true } :: rest }) s

theorem exec_fenceMigrationStart {f : Fence} {rest : List Fence} {s : State} (hf : s.dmc.fences = f :: rest)
    (hcopy : f.copying = false) (hst : s.dmc.state = 3)
    (hfree : freeUnitsIn s (heapUnits - s.dmc.fenced.length * 8192 - 8192) (heapUnits - s.dmc.fenced.length * 8192) = 8192) :
    exec .fenceMigrationStart s = .next (fenceCopying f rest s) := by
  show execFenceMigrationStart s = _
  simp only [execFenceMigrationStart, hf, hcopy, hst, hfree]
  rfl

/-- The PC joins the fenced ones, and the memory of its range is gone (R354, R355). -/
def fenceDone (f : Fence) (rest : List Fence) (s : State) : State :=
  { s with
    dmc := { s.dmc with fenced := s.dmc.fenced ++ [f.pc], fences := rest }
    mem := memErase s.mem (withdrawnBase (s.dmc.fenced.length + 1)) 0x20000000 }

theorem fenceDone_fit {L : Nat} {s0 s : State} (f : Fence) (rest : List Fence) (hL : In 0x201000 L) (h : Fit L s0 s) :
    Fit L s0 (fenceDone f rest s) :=
  Fit.erase (In.trans (by decide) hL) (Fit.upd_dmc (a0 := { s.dmc with fenced := s.dmc.fenced ++ [f.pc], fences := rest })
    (In.trans (by decide) hL) h)

theorem exec_dmcFenced {f : Fence} {rest : List Fence} {s : State} (hf : s.dmc.fences = f :: rest) (hcopy : f.copying = true)
    (hst : s.dmc.state = 3) {u w : State} (hu : u = fenceDone f rest s)
    (hw : w = raise 0x48 [(1, f.pc), (8, dmcCapacity u), (4, u.dmc.fenced.length)] u) :
    exec .dmcFenced s = .next (if dmcShort w then stepDown 10 none (merNs w) w else w) := by
  show execDmcFenced s = _
  rw [execDmcFenced, hf]
  dsimp only []
  rw [if_neg (by simp [hcopy, hst])]
  have hbase : withdrawnBase (onDmc (fun d => { d with fenced := d.fenced ++ [f.pc], fences := rest }) s).dmc.fenced.length =
      withdrawnBase (s.dmc.fenced.length + 1) := by simp [onDmc]
  rw [hbase, hw, hu]
  rfl

/-! ## BAR2 (R365) -/

/-- The cells of a host write, one after another, are the bytes written from its offset. -/
theorem foldl_memPut_zipIdx (data : List Byte) (o k : Nat) (m : DevMem) :
    ((data.zipIdx k).map (fun e => (o + e.2, e.1))).foldl (fun m e => memPut m e.1 e.2) m = memPutAll m (o + k) data := by
  induction data generalizing k m with
  | nil => rfl
  | cons b r ih => rw [List.zipIdx_cons, List.map_cons, List.foldl_cons, ih]; rfl

theorem touchRows_out (o n : Nat) (s : State) : (touchRows o n s).out = s.out :=
  (touchRows_fit (L := 0x200000) (by decide) (Fit.refl _ s)).2 .out rfl

theorem touchRows_mem (o n : Nat) (s : State) : (touchRows o n s).mem = s.mem :=
  (touchRows_fit (L := 0x200000) (by decide) (Fit.refl _ s)).2 .mem rfl

/-- A read that meets no error answers the bytes found and opens rows (R339, R365). -/
theorem exec_bar2Read {off : U64} {len : Byte} {s : State} (hup : s.cmd.up = true)
    (hhole : ∀ i < len.toNat, bar2Hole s (off.toNat + i) = false) : ∃ t, exec (.bar2Read off len []) s = .next t ∧
      .bar2Read off.toNat ((List.range len.toNat).map (fun i => bar2Byte s (off.toNat + i))) ∈ t.out ∧ Fit 0x200402 s t := by
  let o : Out := .bar2Read off.toNat ((List.range len.toNat).map (fun i => bar2Byte s (off.toNat + i)))
  have hmem : o ∈ (emit o s).out := mem_out_emit ..
  have hfit : Fit 0x200402 s (emit o s) := emit_fit (by decide) (Fit.refl _ s)
  have hnone : ((List.range len.toNat).map (off.toNat + ·)).any (bar2Hole (emit o s)) = false := by
    rw [List.any_eq_false]
    intro x hx
    obtain ⟨i, hi, rfl⟩ := List.mem_map.1 hx
    have := hhole i (List.mem_range.1 hi)
    rw [bar2Hole, emit_dmc]
    simpa [bar2Hole] using this
  have hbytes : emit (.bar2Read off.toNat (((List.range len.toNat).map (off.toNat + ·)).map (bar2Byte s))) s = emit o s := by
    rw [List.map_map]; rfl
  show ∃ t, execBar2Read off len [] s = .next t ∧ o ∈ t.out ∧ Fit 0x200402 s t
  unfold execBar2Read
  dsimp only []
  rw [if_neg (by simp [hup]), hbytes, hnone]
  generalize emit o s = x at hmem hfit
  split
  · exact ⟨_, rfl, hmem, hfit⟩
  split
  · exact ⟨_, rfl, hmem, hfit⟩
  · next a _ _ =>
    refine ⟨_, rfl, ?_, ?_⟩
    · rw [List.filter_nil, memErrors_nil, touchRows_out]; exact hmem
    · rw [List.filter_nil, memErrors_nil]; exact touchRows_fit (by decide) hfit

/-- A write within live buffers stores its bytes and opens rows (R339, R365). -/
theorem exec_bar2Write {off : U64} {data : List Byte} {s : State} (hup : s.cmd.up = true) (hlive : bar2Live s = true)
    (hin : ∀ i < data.length, bar2Hole s (off.toNat + i) = false ∧ bar2Owned s (off.toNat + i) = true) :
    ∃ t, exec (.bar2Write off data) s = .next t ∧ t.mem = memPutAll s.mem off.toNat data ∧ Fit 0x201000 s t := by
  have hat : ∀ e ∈ data.zipIdx.map (fun e => (off.toNat + e.2, e.1)), bar2Hole s e.1 = false ∧ bar2Owned s e.1 = true := by
    intro e he
    obtain ⟨x, hx, rfl⟩ := List.mem_map.1 he
    exact hin _ (by simpa using List.snd_lt_of_mem_zipIdx hx)
  have hholes : (data.zipIdx.map (fun e => (off.toNat + e.2, e.1))).any (fun e => bar2Hole s e.1) = false := by
    rw [List.any_eq_false]; intro e he; simp [(hat e he).1]
  have hfree : (data.zipIdx.map (fun e => (off.toNat + e.2, e.1))).any (fun e => !bar2Hole s e.1 && !bar2Owned s e.1) = false := by
    rw [List.any_eq_false]; intro e he; simp [(hat e he).2]
  have hgood : (data.zipIdx.map (fun e => (off.toNat + e.2, e.1))).filter (fun e => !bar2Hole s e.1 && bar2Owned s e.1) =
      data.zipIdx.map (fun e => (off.toNat + e.2, e.1)) := by
    rw [List.filter_eq_self]; intro e he; simp [(hat e he).1, (hat e he).2]
  have hput := foldl_memPut_zipIdx data off.toNat 0 s.mem
  show ∃ t, execBar2Write off data s = .next t ∧ _
  unfold execBar2Write
  dsimp only []
  rw [if_neg (by simp [hup, hlive]), hholes]
  simp only [raiseIf, Bool.false_eq_true, if_false]
  rw [hfree]
  simp only [Bool.false_eq_true, if_false]
  rw [hgood]
  split
  · next h => rw [h] at hput; exact ⟨s, rfl, hput, Fit.refl _ s⟩
  · next h =>
    rw [h] at hput ⊢
    refine ⟨_, rfl, ?_, touchRows_fit (by decide) (Fit.puts (by decide) (Fit.refl _ s))⟩
    rw [touchRows_mem]; exact hput

/-- Settles O44: the memory controller's happenings, each by the state it builds. -/
theorem deviceMemory : Obligations.DeviceMemory := by
  refine ⟨⟨?_, ?_, ?_, ?_, ?_⟩, ⟨?_, ?_⟩, ?_, ?_⟩
  · intro checks other s hst
    obtain ⟨x, hx, hexec⟩ := exec_dmcReady checks other hst
    exact ⟨_, hexec, by rw [placeHeld_dmc]; exact pointTaken_state hx⟩
  · intro pc s hpc hst hch hopen hsince hroom hwork
    have hupd : pcOf (windowOpened pc.val s) pc.val = { pcOf s pc.val with winOpen := true, winSince := true, refDone := false } :=
      (pcOf_onDmc (fun _ => rfl) ..).trans (pcOf_onPc hpc _)
    refine ⟨_, exec_calWindowOpen hst hch hopen hsince hroom hwork, by rw [hupd], by rw [hupd], fun r hr => ?_,
      (Fit.upd_dmc (L := 0x200000) (by decide) (onPc_fit (by decide) (Fit.refl _ s))).keeps (by decide)⟩
    simpa using (List.mem_filter.1 (show r ∈ s.dmc.rows.filter _ from hr)).2
  · intro pc w s hpc hopen htest hw
    exact ⟨_, exec_calWindowClose_step hopen htest hw, windowStepped_closed hpc, rfl,
      (onPc_fit (L := 0x200000) (by decide) (Fit.upd_dmc (by decide) (onPc_fit (by decide) (Fit.refl _ s)))).keeps (by decide)⟩
  · intro pc s hpc hst hopen
    have hupd : (pcOf (refreshed pc.val s) pc.val).refBank = ((pcOf s pc.val).refBank + 1) % 32 :=
      congrArg PcSt.refBank ((pcOf_onDmc (fun _ => rfl) ..).trans (pcOf_onPc hpc _))
    exact ⟨_, exec_dmcRefresh hst hopen, hupd, rfl,
      (Fit.upd_dmc (L := 0x200000) (by decide) (onPc_fit (by decide) (Fit.refl _ s))).keeps (by decide)⟩
  · intro pc bank r s hr
    refine ⟨_, exec_dmcPageIdleExpiry hr, ?_, fun x => bankClosed_rows,
      (Fit.upd_dmc (L := 0x200020) (by decide) (advanceRef_fit (by decide) (Fit.refl _ s))).keeps (by decide)⟩
    rw [bankClosed_time]; exact le_ref_advanceRef ..
  · intro f rest s hf hcopy hst hfree
    exact ⟨_, exec_fenceMigrationStart hf hcopy hst hfree, rfl,
      (Fit.upd_dmc (L := 0x200000) (by decide) (Fit.refl _ s)).keeps (by decide)⟩
  · intro f rest s hf hcopy hst
    exact ⟨_, _, rfl, exec_dmcFenced hf hcopy hst rfl rfl, rfl, rfl, fun a hlo hhi => memGet_memErase_of_mem ⟨hlo, hhi⟩,
      (fenceDone_fit f rest (L := 0x201000) (by decide) (Fit.refl _ s)).keeps (by decide)⟩
  · intro off len s hup hhole
    obtain ⟨t, hexec, hout, hfit⟩ := exec_bar2Read hup hhole
    exact ⟨t, hexec, hout, hfit.keeps (by decide)⟩
  · intro off data s hup hlive hwf hin
    obtain ⟨t, hexec, hmem, hfit⟩ := exec_bar2Write hup hlive hin
    refine ⟨t, hexec, fun i hi => ?_, fun a ha => ?_, hfit.keeps (by decide)⟩
    · rw [hmem, memGet_memPutAll _ _ _ _ hwf, if_pos (by omega), Nat.add_sub_cancel_left]
    · rw [hmem, memGet_memPutAll _ _ _ _ hwf, if_neg (by omega)]

end Sys2Proof.Machine
end

section
/-! PROOFS. The NV store: which record is the newest of its key, what a write and a deletion leave (R459 to R466), and the commands
of chapter 16 (R462 to R473). -/

namespace Sys2Proof.Machine

/-! ## The newest of several copies (R465) -/

theorem newerRec_iff {a b : Nat × NvRec} : newerRec a b = true ↔ b.2.seq < a.2.seq ∨
    (b.2.seq = a.2.seq ∧ (b.2.bgen < a.2.bgen ∨ (b.2.bgen = a.2.bgen ∧ a.1 < b.1))) := by
  simp [newerRec]

theorem newerRec_of_seq_lt {a b : Nat × NvRec} (h : b.2.seq < a.2.seq) : newerRec a b = true := newerRec_iff.2 (.inl h)

theorem seq_le_of_not_newer {a b : Nat × NvRec} (h : newerRec a b = false) : a.2.seq ≤ b.2.seq := by
  by_contra hlt
  exact absurd (newerRec_of_seq_lt (Nat.not_le.1 hlt)) (by simp [h])

theorem seq_le_of_newer {a b : Nat × NvRec} (h : newerRec a b = true) : b.2.seq ≤ a.2.seq := by
  rw [newerRec_iff] at h; omega

theorem newerRec_of_not_newer {a b c : Nat × NvRec} (hab : newerRec a b = true) (hcb : newerRec c b = false) :
    newerRec a c = true := by
  rw [newerRec_iff] at *
  rw [← Bool.not_eq_true, newerRec_iff] at hcb
  omega

theorem newerRec_trans {a b c : Nat × NvRec} (hab : newerRec a b = true) (hbc : newerRec b c = true) : newerRec a c = true := by
  rw [newerRec_iff] at *; omega

theorem newestOf_mem {l : List (Nat × NvRec)} {m : Nat × NvRec} (h : newestOf l = some m) : m ∈ l := by
  induction l with
  | nil => simp [newestOf] at h
  | cons a r ih =>
    rw [newestOf] at h
    cases hr : newestOf r with
    | none => simp only [hr] at h; simp [Option.some.inj h]
    | some b =>
      simp only [hr] at h
      split at h
      · simp [Option.some.inj h]
      · exact List.mem_cons_of_mem _ (ih (hr.trans h))

/-- A copy stands in a list as the newest: none before it is newer, and it is newer than all after it. -/
def StandsNewest (l : List (Nat × NvRec)) (m : Nat × NvRec) : Prop :=
  ∃ l1 l2, l = l1 ++ m :: l2 ∧ (∀ b ∈ l1, newerRec b m = false) ∧ ∀ b ∈ l2, newerRec m b = true

theorem newestOf_of_standsNewest {l : List (Nat × NvRec)} {m : Nat × NvRec} (h : StandsNewest l m) : newestOf l = some m := by
  obtain ⟨l1, l2, rfl, hbefore, hafter⟩ := h
  have hbase : newestOf (m :: l2) = some m := by
    cases hb : newestOf l2 with
    | none => simp only [newestOf, hb]
    | some b =>
      simp only [newestOf, hb, hafter b (newestOf_mem hb), if_true]
  induction l1 with
  | nil => exact hbase
  | cons a r ih =>
    have hr := ih fun b hb => hbefore b (List.mem_cons_of_mem _ hb)
    rw [List.cons_append, newestOf, hr]
    simp [hbefore a List.mem_cons_self]

theorem exists_standsNewest {l : List (Nat × NvRec)} (h : l ≠ []) : ∃ m, StandsNewest l m := by
  induction l with
  | nil => exact absurd rfl h
  | cons a r ih =>
    by_cases hr : r = []
    · exact ⟨a, [], [], by rw [hr]; rfl, by simp, by simp⟩
    obtain ⟨b, l1, l2, rfl, hbefore, hafter⟩ := ih hr
    by_cases hab : newerRec a b = true
    · refine ⟨a, [], l1 ++ b :: l2, rfl, by simp, fun c hc => ?_⟩
      rcases List.mem_append.1 hc with hc | hc
      · exact newerRec_of_not_newer hab (hbefore c hc)
      · rcases List.mem_cons.1 hc with rfl | hc
        · exact hab
        · exact newerRec_trans hab (hafter c hc)
    · refine ⟨b, a :: l1, l2, rfl, fun c hc => ?_, hafter⟩
      rcases List.mem_cons.1 hc with rfl | hc
      · simpa using hab
      · exact hbefore c hc

theorem newestOf_eq_some_iff {l : List (Nat × NvRec)} {m : Nat × NvRec} : newestOf l = some m ↔ StandsNewest l m := by
  refine ⟨fun h => ?_, newestOf_of_standsNewest⟩
  obtain ⟨m', hm⟩ := exists_standsNewest (l := l) (fun hnil => by simp [hnil, newestOf] at h)
  rwa [← Option.some.inj ((newestOf_of_standsNewest hm).symm.trans h)]

/-- No copy has a higher SEQ than the newest. -/
theorem seq_le_of_newestOf {l : List (Nat × NvRec)} {m c : Nat × NvRec} (h : newestOf l = some m) (hc : c ∈ l) :
    c.2.seq ≤ m.2.seq := by
  obtain ⟨l1, l2, rfl, hbefore, hafter⟩ := newestOf_eq_some_iff.1 h
  rcases List.mem_append.1 hc with hc | hc
  · exact seq_le_of_not_newer (hbefore c hc)
  · rcases List.mem_cons.1 hc with rfl | hc
    · exact le_rfl
    · exact seq_le_of_newer (hafter c hc)

/-- A copy that is not the newest goes, and the newest stays. -/
theorem newestOf_remove {A B : List (Nat × NvRec)} {x m : Nat × NvRec} (h : newestOf (A ++ x :: B) = some m) (hne : m ≠ x) :
    newestOf (A ++ B) = some m := by
  obtain ⟨l1, l2, heq, hbefore, hafter⟩ := newestOf_eq_some_iff.1 h
  refine newestOf_of_standsNewest ?_
  rcases List.append_eq_append_iff.1 heq with ⟨a, rfl, ha⟩ | ⟨c, rfl, hc⟩
  · cases a with
    | nil => simp at ha; exact absurd ha.1.symm hne
    | cons y a =>
      obtain ⟨rfl, rfl⟩ := List.cons.inj ha
      refine ⟨A ++ a, l2, by simp, fun b hb => hbefore b ?_, hafter⟩
      simp only [List.mem_append, List.mem_cons] at hb ⊢
      tauto
  · cases c with
    | nil => simp at hc; exact absurd hc.1 hne
    | cons y c =>
      obtain ⟨rfl, rfl⟩ := List.cons.inj hc
      refine ⟨l1, c ++ B, by simp, hbefore, fun b hb => hafter b ?_⟩
      show b ∈ c ++ x :: B
      simp only [List.mem_append, List.mem_cons] at hb ⊢
      tauto

/-- A copy of a higher SEQ than all others is the newest. -/
theorem newestOf_of_seq_lt {A B : List (Nat × NvRec)} {x : Nat × NvRec} (h : ∀ c ∈ A ++ B, c.2.seq < x.2.seq) :
    newestOf (A ++ x :: B) = some x := by
  refine newestOf_of_standsNewest ⟨A, B, rfl, fun b hb => ?_, fun b hb => newerRec_of_seq_lt (h b (by simp [hb]))⟩
  by_contra hnew
  exact absurd (seq_le_of_newer (by simpa using hnew)) (Nat.not_le.2 (h b (by simp [hb])))

/-! ## Slots (R457, R459, R462) -/

/-- The copy of a key that a slot holds (R459). -/
def copyIn (part type key : Nat) (e : Nat × NvSlot) : Option (Nat × NvRec) :=
  match e.2 with
  | .valid r => if r.part = part ∧ r.type = type ∧ r.key = key then some (e.1, r) else none
  | .bad => none

theorem copiesOf_eq (s : State) (part type key : Nat) : copiesOf s part type key = s.nv.slots.filterMap (copyIn part type key) := rfl

/-- A slot's content is put in its place: over the first one of its number, or between two others. -/
theorem slotPut_cases (l : List (Nat × NvSlot)) (n : Nat) (v : NvSlot) :
    (∃ l1 w l2, l = l1 ++ (n, w) :: l2 ∧ slotPut l n v = l1 ++ (n, v) :: l2 ∧ ∀ e ∈ l1, e.1 ≠ n) ∨
    ∃ l1 l2, l = l1 ++ l2 ∧ slotPut l n v = l1 ++ (n, v) :: l2 := by
  induction l with
  | nil => exact .inr ⟨[], [], rfl, rfl⟩
  | cons e r ih =>
    obtain ⟨m, w⟩ := e
    by_cases hm : m = n
    · subst hm; exact .inl ⟨[], w, r, rfl, if_pos rfl, by simp⟩
    by_cases hlt : n < m
    · exact .inr ⟨[], (m, w) :: r, rfl, by rw [slotPut, if_neg hm, if_pos hlt]; rfl⟩
    have hput : slotPut ((m, w) :: r) n v = (m, w) :: slotPut r n v := by rw [slotPut, if_neg hm, if_neg hlt]
    rcases ih with ⟨l1, w', l2, rfl, h, hne⟩ | ⟨l1, l2, rfl, h⟩
    · exact .inl ⟨(m, w) :: l1, w', l2, rfl, by rw [hput, h]; rfl, by
        intro e he
        rcases List.mem_cons.1 he with rfl | he
        · exact hm
        · exact hne e he⟩
    · exact .inr ⟨(m, w) :: l1, l2, rfl, by rw [hput, h]; rfl⟩

theorem slotGet_of_first {s : State} {l1 l2 : List (Nat × NvSlot)} {n : Nat} {w : NvSlot} (h : s.nv.slots = l1 ++ (n, w) :: l2)
    (hne : ∀ e ∈ l1, e.1 ≠ n) : slotGet s n = some w := by
  rw [slotGet, h, List.find?_append, List.find?_eq_none.2 (by simpa using hne)]
  simp

/-- A slot that a write may take and holds a copy of a key: another copy is the newest of that key (R462). -/
theorem newest_ne_of_slotUsable {s : State} {n : Nat} {r : NvRec} (hu : slotUsable s n = true) (hg : slotGet s n = some (.valid r))
    {m : Nat × NvRec} (hm : newest s r.part r.type r.key = some m) : m.1 ≠ n := by
  obtain ⟨k, q⟩ := m
  simp only [slotUsable, Bool.and_eq_true, Bool.not_eq_true', holdsNewest, hg, hm] at hu
  simpa using hu.1

/-- A record put into a slot that a write may take leaves the newest record of every other key (R462). -/
theorem newest_slotPut_other {s t : State} {n : Nat} {r : NvRec} (hu : slotUsable s n = true)
    (ht : t.nv.slots = slotPut s.nv.slots n (.valid r)) {p k e : Nat} (hkey : ¬(r.part = p ∧ r.type = k ∧ r.key = e)) :
    newest t p k e = newest s p k e := by
  have hnew : copyIn p k e (n, .valid r) = none := if_neg hkey
  rw [newest, newest, copiesOf_eq, copiesOf_eq, ht]
  rcases slotPut_cases s.nv.slots n (.valid r) with ⟨l1, w, l2, hl, hput, hne⟩ | ⟨l1, l2, hl, hput⟩
  · rw [hput, hl, List.filterMap_append, List.filterMap_append, List.filterMap_cons_none hnew]
    cases hw : copyIn p k e (n, w) with
    | none => rw [List.filterMap_cons_none hw]
    | some x =>
      rw [List.filterMap_cons_some hw]
      obtain ⟨r', rfl, ⟨rfl, rfl, rfl⟩, rfl⟩ : ∃ r', w = .valid r' ∧ (r'.part = p ∧ r'.type = k ∧ r'.key = e) ∧ x = (n, r') := by
        cases w with
        | bad => simp [copyIn] at hw
        | valid r' => simp only [copyIn] at hw; split at hw <;> simp_all
      obtain ⟨m, hm⟩ := exists_standsNewest
        (l := l1.filterMap (copyIn r'.part r'.type r'.key) ++ (n, r') :: l2.filterMap (copyIn r'.part r'.type r'.key)) (by simp)
      have hold := newestOf_of_standsNewest hm
      have hnewest : newest s r'.part r'.type r'.key = some m := by
        rw [newest, copiesOf_eq, hl, List.filterMap_append, List.filterMap_cons_some hw]; exact hold
      have hne' : m ≠ (n, r') := fun he => newest_ne_of_slotUsable hu (slotGet_of_first hl hne) hnewest (by rw [he])
      rw [hold, newestOf_remove hold hne']
  · rw [hput, List.filterMap_append, List.filterMap_cons_none hnew, ← List.filterMap_append, hl]

/-- The SEQ a write of a key takes (R462). -/
def nextSeq (s : State) (part type key : Nat) : Nat := match newest s part type key with | some (_, r) => r.seq + 1 | none => 1

theorem seq_lt_nextSeq {s : State} {part type key : Nat} {c : Nat × NvRec} (hc : c ∈ copiesOf s part type key) :
    c.2.seq < nextSeq s part type key := by
  cases hm : newest s part type key with
  | none =>
    obtain ⟨m, h⟩ := exists_standsNewest (List.ne_nil_of_mem hc)
    rw [newest, newestOf_of_standsNewest h] at hm
    exact nomatch hm
  | some m =>
    rw [nextSeq, hm]
    exact Nat.lt_succ_of_le (seq_le_of_newestOf hm hc)

/-- A record of the next SEQ put into a slot is the newest of its key (R462). -/
theorem newest_slotPut_same {s t : State} {n : Nat} {r : NvRec} (ht : t.nv.slots = slotPut s.nv.slots n (.valid r))
    (hseq : r.seq = nextSeq s r.part r.type r.key) : newest t r.part r.type r.key = some (n, r) := by
  have hnew : copyIn r.part r.type r.key (n, .valid r) = some (n, r) := if_pos ⟨rfl, rfl, rfl⟩
  rw [newest, copiesOf_eq, ht]
  rcases slotPut_cases s.nv.slots n (.valid r) with ⟨l1, w, l2, hl, hput, -⟩ | ⟨l1, l2, hl, hput⟩
  · rw [hput, List.filterMap_append, List.filterMap_cons_some hnew]
    refine newestOf_of_seq_lt fun c hc => ?_
    rw [hseq]
    refine seq_lt_nextSeq ?_
    rw [copiesOf_eq, hl, List.mem_filterMap]
    rw [← List.filterMap_append, List.mem_filterMap] at hc
    obtain ⟨x, hx, hxc⟩ := hc
    exact ⟨x, by rcases List.mem_append.1 hx with hx | hx <;> simp [hx], hxc⟩
  · rw [hput, List.filterMap_append, List.filterMap_cons_some hnew]
    refine newestOf_of_seq_lt fun c hc => ?_
    rw [hseq]
    refine seq_lt_nextSeq ?_
    rwa [copiesOf_eq, hl, List.filterMap_append]

/-! ## Writing and deleting a record (R462, R463) -/

theorem movePtr_slots (part n : Nat) (s : State) : (movePtr part n s).nv.slots = s.nv.slots :=
  List.foldlRecOn (motive := fun t : State => t.nv.slots = s.nv.slots) _ _ rfl fun _ ht _ _ => ht

theorem movePtr_writes (part n : Nat) (s : State) : (movePtr part n s).nv.writes = s.nv.writes :=
  List.foldlRecOn (motive := fun t : State => t.nv.writes = s.nv.writes) _ _ rfl fun _ ht _ _ => ht

/-- A record as it is written: in slot `n`, with the generation of its bank (R461). -/
def recordIn (n : Nat) (r : NvRec) (s : State) : NvRec := { r with bgen := (movePtr r.part n s).nv.bgen.getD (n / 32) 0 }

/-- A record written into slot `n` with no read-back failure (R462). -/
def recordWritten (n : Nat) (r : NvRec) (s : State) : State :=
  let x := slotSet n (.valid (recordIn n r s)) (movePtr r.part n s)
  { x with nv := { x.nv with writes := x.nv.writes + 1 } }

theorem recordWritten_slots (n : Nat) (r : NvRec) (s : State) :
    (recordWritten n r s).nv.slots = slotPut s.nv.slots n (.valid (recordIn n r s)) := by
  show slotPut (movePtr r.part n s).nv.slots n _ = _
  rw [movePtr_slots]

theorem recordWritten_writes (n : Nat) (r : NvRec) (s : State) : (recordWritten n r s).nv.writes = s.nv.writes + 1 := by
  show (movePtr r.part n s).nv.writes + 1 = _
  rw [movePtr_writes]

theorem recordWritten_fit {L : Nat} {s0 s : State} (n : Nat) (r : NvRec) (hL : In 0x1000000 L) (h : Fit L s0 s) :
    Fit L s0 (recordWritten n r s) := Fit.upd_nv hL (slotSet_fit hL (movePtr_fit hL h))

/-- The record a write forms (R462). -/
def recordOf (part type key : Nat) (tomb : Bool) (pay : List Byte) (s : State) : NvRec :=
  ⟨part, type, key, nextSeq s part type key, tomb, 0, pay⟩

/-- A write with no read-back failure that is not refused puts its record into a slot it may take (R462). -/
theorem nvPut_seq {part type key : Nat} {tomb : Bool} {pay : List Byte} {s t : State} {q : Nat}
    (h : nvPut part type key tomb pay 0 s = (t, .seq q)) :
    ∃ n, slotUsable s n = true ∧ t = recordWritten n (recordOf part type key tomb pay s) s := by
  have hput : nvPut part type key tomb pay 0 s = if 0xFFFFFFFF < nextSeq s part type key then (s, .refused St.fault)
      else match nvAttempt (recordOf part type key tomb pay s) false s with
        | none => (raise 0xE2 [] s, .refused St.noSpace)
        | some s1 => (s1, .seq (nextSeq s part type key)) := rfl
  rw [hput] at h
  split at h
  · exact nomatch congrArg Prod.snd h
  cases hn : nextSlot s part with
  | none =>
    rw [show nvAttempt (recordOf part type key tomb pay s) false s = none by simp only [nvAttempt, recordOf, hn]] at h
    exact nomatch congrArg Prod.snd h
  | some n =>
    rw [show nvAttempt (recordOf part type key tomb pay s) false s = some (recordWritten n (recordOf part type key tomb pay s) s) by
      simp only [nvAttempt, recordOf, hn, Bool.false_eq_true, if_false]; rfl] at h
    exact ⟨n, List.find?_some hn, (congrArg Prod.fst h).symm⟩

theorem newest_recordWritten_same (n : Nat) {part type key : Nat} {tomb : Bool} {pay : List Byte} {s : State} :
    newest (recordWritten n (recordOf part type key tomb pay s) s) part type key =
      some (n, recordIn n (recordOf part type key tomb pay s) s) :=
  newest_slotPut_same (r := recordIn n (recordOf part type key tomb pay s) s) (recordWritten_slots ..) rfl

theorem nvGet_congr {s t : State} {p k e : Nat} (h : newest t p k e = newest s p k e) : nvGet t p k e = nvGet s p k e := by
  rw [nvGet, nvGet, h]

theorem copyIn_bad (part type key n : Nat) : copyIn part type key (n, .bad) = none := rfl

theorem copyIn_fst {part type key : Nat} {e : Nat × NvSlot} {c : Nat × NvRec} (h : copyIn part type key e = some c) : c.1 = e.1 := by
  obtain ⟨n, w⟩ := e
  cases w with
  | bad => exact nomatch h
  | valid r =>
    simp only [copyIn] at h
    split at h
    · rw [← Option.some.inj h]
    · exact nomatch h

/-- A slot whose MAGIC is cleared holds no copy, and no slot gains one (R463). -/
theorem copiesOf_slotSpoil (n : Nat) (s : State) (part type key : Nat) :
    copiesOf (slotSpoil n s) part type key = (copiesOf s part type key).filter (fun e => e.1 != n) := by
  have hslots : (slotSpoil n s).nv.slots = s.nv.slots.map (fun e => if e.1 = n then (n, .bad) else e) := rfl
  rw [copiesOf_eq, copiesOf_eq, hslots]
  induction s.nv.slots with
  | nil => rfl
  | cons e r ih =>
    obtain ⟨m, w⟩ := e
    rw [List.map_cons, List.filterMap_cons, List.filterMap_cons, ih]
    by_cases hm : m = n
    · subst hm
      rw [if_pos rfl, copyIn_bad]
      cases hc : copyIn part type key (m, w) with
      | none => rfl
      | some c => simp [copyIn_fst hc]
    · rw [if_neg hm]
      cases hc : copyIn part type key (m, w) with
      | none => rfl
      | some c => simp [copyIn_fst hc, hm]

theorem copiesOf_foldl_slotSpoil (l : List (Nat × NvRec)) (s : State) (part type key : Nat) :
    copiesOf (l.foldl (fun s e => slotSpoil e.1 s) s) part type key =
      (copiesOf s part type key).filter (fun c => l.all (fun e => c.1 != e.1)) := by
  induction l generalizing s with
  | nil => simp
  | cons e r ih =>
    rw [List.foldl_cons, ih, copiesOf_slotSpoil, List.filter_filter]
    exact List.filter_congr fun c _ => by rw [List.all_cons, Bool.and_comm]

/-- Settles O56: a record written is the newest of its key and the newest of the others stay; a deletion leaves no copy. -/
theorem nvRecords : Obligations.NvRecords := by
  refine ⟨?_, ?_⟩
  · intro part type key pay s t q h
    obtain ⟨n, hu, rfl⟩ := nvPut_seq h
    refine ⟨?_, recordWritten_writes .., fun p k e hne => nvGet_congr ?_,
      (recordWritten_fit n _ (L := 0x1000000) (by decide) (Fit.refl _ s)).keeps (by decide)⟩
    · rw [nvGet, newest_recordWritten_same]; rfl
    · refine newest_slotPut_other hu (recordWritten_slots ..) ?_
      rintro ⟨rfl, rfl, rfl⟩
      rcases hne with h | h | h <;> exact h rfl
  · intro part type key s t q h
    unfold nvDelete at h
    split at h
    · exact nomatch congrArg Prod.snd h
    next s1 q1 h1 =>
    obtain ⟨n, -, rfl⟩ := nvPut_seq h1
    have ht := (congrArg Prod.fst h).symm
    dsimp only at ht
    refine ⟨?_, ?_⟩
    · have hnone : copiesOf t part type key = [] := by
        rw [ht, copiesOf_foldl_slotSpoil, List.filter_eq_nil_iff]
        intro c hc hall
        simpa using List.all_eq_true.1 hall c hc
      rw [nvGet, newest, hnone]; rfl
    · rw [ht]
      exact (Fit.foldl (L := 0x1000000) (recordWritten_fit n _ (by decide) (Fit.refl _ s))
        fun x e hx => slotSpoil_fit (by decide) hx).keeps (by decide)

/-! ## The commands of the store (R462 to R473) -/

theorem newest_congr {s t : State} (h : t.nv = s.nv) (p k e : Nat) : newest t p k e = newest s p k e := by
  rw [newest, newest, copiesOf_eq, copiesOf_eq, h]

theorem counterGet_congr {s t : State} (h : t.nv = s.nv) (k : Nat) : counterGet t k = counterGet s k := by
  rw [counterGet, counterGet, nvGet_congr (newest_congr h ..)]

theorem passMatches_congr {s t : State} (h : t.nv = s.nv) (part kind : Nat) (pw : List Byte) :
    passMatches t part kind pw = passMatches s part kind pw := by
  rw [passMatches, passMatches, passRec, passRec, nvGet_congr (newest_congr h ..)]

theorem taken_nv_of_pre_id {r : Row} (hpre : r.pre = id) (s : State) : (taken r s).nv = s.nv := taken_nv r s fun _ => by rw [hpre]; rfl

theorem exec_nvRead {h : Hdr} {p : NvAccessP} {s : State} (hs : served (rowNvRead h p) s = true) :
    exec (.nvRead h p) s = .next (runNvRead h p (taken (rowNvRead h p) s)) := congrArg Host.Outcome.next (command_of_served hs)

/-- A read that fits the reply answers the bytes in it (R473). -/
theorem runNvRead_inline {h : Hdr} {p : NvAccessP} {s : State} {n : Nat} {r : NvRec} {d : List Byte}
    (hr : newest s p.part.toNat p.type.toNat p.key.toNat = some (n, r)) (hin : nvReadInline p = true)
    (hd : d = bytesAt r.payload p.offset.toNat p.len.toNat) : runNvRead h p s =
      finish h 0x0801 (okay (r.payload.length + p.len.toNat * 2 ^ 16) (leNat (d.take 4)) (leNat (d.drop 4))) s := by
  simp only [runNvRead, hr, hd]
  exact if_pos hin

/-- A read into host memory writes the bytes there (R473). -/
theorem runNvRead_host {h : Hdr} {p : NvAccessP} {s : State} {n : Nat} {r : NvRec} {d : List Byte}
    (hr : newest s p.part.toNat p.type.toNat p.key.toNat = some (n, r)) (hin : nvReadInline p = false) (haddr : p.addr ≠ 0)
    (hhost : p.flags.toNat.testBit 0 = false) (hd : d = bytesAt r.payload p.offset.toNat p.len.toNat) : runNvRead h p s =
      finish h 0x0801 (okay r.payload.length r.seq d.length) (emit (.hostWrite p.addr.toNat d) s) := by
  simp only [runNvRead, hr, hd, hin, hhost, if_neg haddr, Bool.false_eq_true, if_false]

/-- The answer of NV_COUNTER_ADD: the value and SEQ, or the refusal (R471). -/
def counterVerdict (v : Nat) : NvResult → Verdict
  | .seq q => okay (v % 2 ^ 32) (v / 2 ^ 32) q
  | .refused st => no st

/-- The answer of a write: its SEQ or its refusal (R462). -/
def writeVerdict : NvResult → Verdict
  | .seq n => okay n
  | .refused st => no st

theorem exec_nvWrite {h : Hdr} {p : NvAccessP} {data : List Byte} {fails : Nat} {s : State}
    (hs : served (rowNvWrite h p data fails) s = true) : exec (.nvWrite h p data fails) s =
      .next (runNvWrite h { p with flags := p.flags &&& 0xFB } data fails (taken (rowNvWrite h p data fails) s)) :=
  congrArg Host.Outcome.next (command_of_served hs)

theorem exec_nvWriteDelete {h : Hdr} {p : NvAccessP} {s : State} (hs : served (rowNvWriteDelete h p) s = true) :
    exec (.nvWriteDelete h p) s =
      .next (runNvDelete h { p with flags := p.flags &&& 0xFB } (taken (rowNvWriteDelete h p) s)) :=
  congrArg Host.Outcome.next (command_of_served hs)

theorem runNvWrite_eq {h : Hdr} {p : NvAccessP} {data : List Byte} {fails : Nat} {s w : State} {r : NvResult}
    (hw : nvPut p.part.toNat p.type.toNat p.key.toNat false (nvWriteData p data s) fails s = (w, r)) :
    runNvWrite h p data fails s = finish h 0x0802 (writeVerdict r) w := by
  rw [runNvWrite, hw]; cases r <;> rfl

theorem runNvDelete_eq {h : Hdr} {p : NvAccessP} {s w : State} {r : NvResult}
    (hw : nvDelete p.part.toNat p.type.toNat p.key.toNat s = (w, r)) :
    runNvDelete h p s = finish h 0x0802 (writeVerdict r) w := by
  rw [runNvDelete, hw]; cases r <;> rfl

/-! ### Unlocks (R468 to R470) -/

theorem nvAttempt_unlocks {r : NvRec} {bad : Bool} {s t : State} (h : nvAttempt r bad s = some t) : t.nv.unlocks = s.nv.unlocks := by
  have hmove : ∀ part n, (movePtr part n s).nv.unlocks = s.nv.unlocks := fun _ _ =>
    List.foldlRecOn (motive := fun t : State => t.nv.unlocks = s.nv.unlocks) _ _ rfl fun _ ht _ _ => ht
  unfold nvAttempt at h
  split at h
  · exact nomatch h
  next n _ =>
  dsimp only at h
  split at h
  · rw [← Option.some.inj h, slotFailed]
    dsimp only
    split
    · show (raise 0xE5 [] (slotSet n .bad (movePtr r.part n s))).nv.unlocks = _
      rw [raise_nv]; exact hmove ..
    · show (raise 0xE5 [] (slotSet n .bad (movePtr r.part n s))).nv.unlocks = _
      rw [raise_nv]; exact hmove ..
  · rw [← Option.some.inj h]
    show (movePtr r.part n s).nv.unlocks = _
    exact hmove ..

/-- Writing a record leaves the unlocks of the partitions. -/
theorem nvPut_unlocks (part type key : Nat) (tomb : Bool) (pay : List Byte) (fails : Nat) (s : State) :
    (nvPut part type key tomb pay fails s).1.nv.unlocks = s.nv.unlocks := by
  unfold nvPut
  extract_lets seq r
  split
  · rfl
  split
  · rw [raise_nv]
  next s1 h1 =>
  have hs1 := nvAttempt_unlocks h1
  split
  · exact hs1
  split
  · rw [raise_nv]; exact hs1
  next s2 h2 =>
  split
  · exact (nvAttempt_unlocks h2).trans hs1
  · exact (nvAttempt_unlocks h2).trans hs1

theorem counterSet_unlocks (key v : Nat) (s : State) : (counterSet key v s).nv.unlocks = s.nv.unlocks := nvPut_unlocks ..

theorem nvDelete_unlocks (part type key : Nat) (s : State) : (nvDelete part type key s).1.nv.unlocks = s.nv.unlocks := by
  have hput := nvPut_unlocks part type key true [] 0 s
  unfold nvDelete
  split
  · next h => rw [h] at hput; exact hput
  · next h =>
    rw [h] at hput
    exact List.foldlRecOn (motive := fun t : State => t.nv.unlocks = s.nv.unlocks) _ _ hput fun _ ht _ _ => ht

/-- The unlocks with those of one master for several accesses of a partition added (R468). -/
def unlocksWith (m : Master) (part : Nat) (ks : List Nat) (us : List (Master × Nat × Nat)) : List (Master × Nat × Nat) :=
  ks.foldl (fun u k => if u.contains (m, part, k) then u else (m, part, k) :: u) us

theorem mem_unlocksWith {m : Master} {part : Nat} {ks : List Nat} {us : List (Master × Nat × Nat)} {e : Master × Nat × Nat} :
    e ∈ unlocksWith m part ks us ↔ e ∈ us ∨ ∃ k ∈ ks, e = (m, part, k) := by
  induction ks generalizing us with
  | nil => simp [unlocksWith]
  | cons k r ih =>
    rw [show unlocksWith m part (k :: r) us = unlocksWith m part r (if us.contains (m, part, k) then us else (m, part, k) :: us)
      from rfl, ih]
    by_cases hc : us.contains (m, part, k) = true
    · rw [if_pos hc]
      have hmem : (m, part, k) ∈ us := by simpa using hc
      constructor
      · rintro (h | ⟨j, hj, rfl⟩)
        · exact .inl h
        · exact .inr ⟨j, List.mem_cons_of_mem _ hj, rfl⟩
      · rintro (h | ⟨j, hj, rfl⟩)
        · exact .inl h
        · rcases List.mem_cons.1 hj with rfl | hj
          · exact .inl hmem
          · exact .inr ⟨j, hj, rfl⟩
    · rw [if_neg hc]
      simp only [List.mem_cons, exists_eq_or_imp]
      tauto

/-- A partition's failure count goes back to zero (R470). -/
def failsCleared (part : Nat) (s : State) : State :=
  if counterGet s (failKey part) = 0 then s else counterSet (failKey part) 0 s

theorem failsCleared_unlocks (part : Nat) (s : State) : (failsCleared part s).nv.unlocks = s.nv.unlocks := by
  unfold failsCleared
  split
  · rfl
  · exact counterSet_unlocks ..

/-- The accesses named are unlocked for a master (R468). -/
def unlocked (m : Master) (p : NvPassP) (s : State) : State :=
  let x := failsCleared p.part.toNat s
  { x with nv := { x.nv with unlocks := unlocksWith m p.part.toNat (accessKinds p) x.nv.unlocks } }

theorem unlocked_unlocks (m : Master) (p : NvPassP) (s : State) :
    (unlocked m p s).nv.unlocks = unlocksWith m p.part.toNat (accessKinds p) s.nv.unlocks := by
  show unlocksWith m p.part.toNat (accessKinds p) (failsCleared p.part.toNat s).nv.unlocks = _
  rw [failsCleared_unlocks]

theorem unlocked_fit {L : Nat} {s0 s : State} (m : Master) (p : NvPassP) (hL : In 0x1800C02 L) (h : Fit L s0 s) :
    Fit L s0 (unlocked m p s) :=
  Fit.upd_nv (In.trans (by decide) hL) (Fit.ite (fun _ => h) (fun _ => counterSet_fit hL h))

theorem runNvUnlock_ok {h : Hdr} {p : NvPassP} {s : State}
    (hpw : ∀ k ∈ accessKinds p, passMatches s p.part.toNat k ((pwBytes p).take p.pwLen.toNat) = true) :
    runNvUnlock h p s = finish h 0x0803 (okay) (unlocked (masterOf h.src) p s) := if_pos (List.all_eq_true.2 hpw)

theorem runNvUnlock_fails {h : Hdr} {p : NvPassP} {s : State} {k : Nat} (hk : k ∈ accessKinds p)
    (hpw : passMatches s p.part.toNat k ((pwBytes p).take p.pwLen.toNat) = false) :
    runNvUnlock h p s = finish h 0x0803 (no St.authFail) (nvAuthFail p.part.toNat s) :=
  if_neg fun hall => by simpa [hpw] using List.all_eq_true.1 hall k hk

theorem mem_relock_unlocks {p : NvPassP} {m : Option Master} {s : State} {e : Master × Nat × Nat} :
    e ∈ (relock p m s).nv.unlocks ↔
      e ∈ s.nv.unlocks ∧ ¬(e.2.1 = p.part.toNat ∧ e.2.2 ∈ accessKinds p ∧ (m = none ∨ m = some e.1)) := by
  show e ∈ s.nv.unlocks.filter _ ↔ _
  rw [List.mem_filter]
  refine and_congr_right fun _ => ?_
  cases m <;> simp [-not_and, not_and_or, or_assoc]

/-! ### Passwords (R467, R469) -/

theorem putPasses_unlocks (part : Nat) (pw : List Byte) (ks : List Nat) (s : State) :
    (putPasses part pw ks s).1.nv.unlocks = s.nv.unlocks := by
  induction ks generalizing s with
  | nil => rfl
  | cons k r ih =>
    have hput : (putPass part k pw s).1.nv.unlocks = s.nv.unlocks := nvPut_unlocks ..
    rw [putPasses]
    split
    · next h => rw [h] at hput; exact (ih _).trans hput
    · next h => rw [h] at hput; exact hput

/-- Every password stored takes one draw of the generator (R467). -/
theorem putPasses_free {part : Nat} {pw : List Byte} {ks : List Nat} {s u : State} (h : putPasses part pw ks s = (u, none)) :
    u.free = s.free + ks.length := by
  induction ks generalizing s with
  | nil => rw [show u = s from (congrArg Prod.fst h).symm]; rfl
  | cons k r ih =>
    have hput : (putPass part k pw s).1.free = s.free + 1 := (nvPut_fit (L := 0x1800C02) (by decide) (Fit.refl _ _)).2 .free rfl
    rw [putPasses] at h
    split at h
    · next hp => rw [hp] at hput; rw [ih h, hput, List.length_cons]; omega
    · exact nomatch congrArg Prod.snd h

theorem dropPasses_unlocks (part : Nat) (ks : List Nat) (s : State) : (dropPasses part ks s).1.nv.unlocks = s.nv.unlocks := by
  induction ks generalizing s with
  | nil => rfl
  | cons k r ih =>
    have hdel := nvDelete_unlocks 4 0x10 (2 * part + k) s
    rw [dropPasses]
    split
    · exact ih s
    split
    · next h => rw [h] at hdel; exact (ih _).trans hdel
    · next h => rw [h] at hdel; exact hdel

/-- The reply of a command on passwords: OK, or the refusal of a write. -/
def passVerdict (st : Option Nat) : Verdict := match st with | none => okay | some c => no c

theorem rowNvLockSetPassword_run {h : Hdr} {p : NvPassP} {s : State} : (rowNvLockSetPassword h p).run s = finish h 0x0804
    (passVerdict (putPasses p.part.toNat ((pwBytes p).take p.pwLen.toNat) (accessKinds p) (relock p none s)).2)
    (putPasses p.part.toNat ((pwBytes p).take p.pwLen.toNat) (accessKinds p) (relock p none s)).1 := by
  simp only [rowNvLockSetPassword]
  split
  · next e => rw [e]; rfl
  · next e => rw [e]; rfl

theorem rowNvLockRemovePassword_run {h : Hdr} {p : NvPassP} {s : State} : (rowNvLockRemovePassword h p).run s = finish h 0x0804
    (passVerdict (dropPasses p.part.toNat (accessKinds p) s).2) (dropPasses p.part.toNat (accessKinds p) s).1 := by
  simp only [rowNvLockRemovePassword]
  split
  · next e => rw [e]; rfl
  · next e => rw [e]; rfl

theorem rowNvCounterAdd_run {h : Hdr} {p : NvCounterP} {s w : State} {r : NvResult} {v : Nat}
    (hv : v = counterGet s p.key.toNat + p.increment.toNat)
    (hw : nvPut 1 0x20 p.key.toNat false (leBytes 8 v) 0 s = (w, r)) : (rowNvCounterAdd h p).run s =
      finish h 0x0805 (counterVerdict v r) w := by
  simp only [rowNvCounterAdd, ← hv, hw]
  cases r <;> rfl

/-! ### Failures and the log (R470, R472) -/

/-- From the fifth failure on the partition is locked out (R470). -/
theorem nvAuthFail_lockUntil {part : Nat} {s : State} (h : 4 ≤ counterGet s (failKey part)) :
    assocD (nvAuthFail part s).nv.lockUntil part 0 = s.time.ref + lockPeriod (counterGet s (failKey part) + 1) := by
  have htime : ∀ n, (counterSet (failKey part) n s).time = s.time := fun n =>
    (counterSet_fit (L := 0x1800C02) (by decide) (Fit.refl _ s)).2 .time rfl
  unfold nvAuthFail
  dsimp only
  rw [if_neg (by omega), raise_nv]
  dsimp only
  rw [assocD_assocSet_self, htime]

theorem nvFlush_lastFlush (s : State) : (nvFlush s).nv.lastFlush = s.time.ref := by
  have htime : ∀ rs, (flushChunks 34 rs s).time = s.time := fun rs =>
    (flushChunks_fit (L := 0x1800C02) (by decide) (Fit.refl _ s)).2 .time rfl
  show (flushChunks 34 (unflushed s) s).time.ref = _
  rw [htime]

/-- Settles O57: each command of the store by what it runs, with the rules of the store for what it leaves. -/
theorem nvCommands : Obligations.NvCommands := by
  refine ⟨?_, ?_, ?_, ?_, ?_, ?_, fun part s => nvAuthFail_lockUntil, ?_, ?_, ?_, ?_, ?_⟩
  · intro h p s n r d hr hin hd hs
    have hnv := taken_nv_of_pre_id (r := rowNvRead h p) rfl s
    rw [exec_nvRead hs, runNvRead_inline ((newest_congr hnv ..).trans hr) hin hd]
  · intro h p s n r d hr hin haddr hhost hd hs
    have hnv := taken_nv_of_pre_id (r := rowNvRead h p) rfl s
    rw [exec_nvRead hs, runNvRead_host ((newest_congr hnv ..).trans hr) hin haddr hhost hd]
  · intro h p data fails s q w r hq hw hs
    subst hq
    rw [exec_nvWrite hs, runNvWrite_eq (p := { p with flags := p.flags &&& 0xFB }) hw]
    cases r <;> rfl
  · intro h p s w r hw hs
    rw [exec_nvWriteDelete hs, runNvDelete_eq (p := { p with flags := p.flags &&& 0xFB }) hw]
    cases r <;> rfl
  · intro h p rsv8 s hpw hs
    have hnv := taken_nv_of_pre_id (r := rowNvUnlock h p rsv8) rfl s
    have hrun := runNvUnlock_ok (h := h) (p := p) (s := taken (rowNvUnlock h p rsv8) s)
      fun k hk => (passMatches_congr hnv ..).trans (hpw k hk)
    refine ⟨_, congrArg Host.Outcome.next ((command_of_served hs).trans hrun), fun k hk => ?_, fun e he => ?_,
      (unlocked_fit _ p (L := 0x1800E02) (by decide) (taken_fit_of_pre_id (by decide) rfl s)).keeps (by decide)⟩
    · rw [unlocked_unlocks, mem_unlocksWith]; exact .inr ⟨k, hk, rfl⟩
    · rw [unlocked_unlocks, mem_unlocksWith, hnv]; exact .inl he
  · intro h p rsv8 s k hk hpw hs
    have hnv := taken_nv_of_pre_id (r := rowNvUnlock h p rsv8) rfl s
    exact congrArg Host.Outcome.next ((command_of_served hs).trans
      (runNvUnlock_fails hk ((passMatches_congr hnv ..).trans hpw)))
  · intro h p s hs
    have hnv := taken_nv_of_pre_id (r := rowNvLock h p) rfl s
    refine ⟨relock p (some (masterOf h.src)) (taken (rowNvLock h p) s), congrArg Host.Outcome.next (command_of_served hs),
      fun k hk he => ?_, fun e he => ?_,
      (relock_fit (L := 0x1800600) (by decide) (taken_fit_of_pre_id (by decide) rfl s)).keeps (by decide)⟩
    · exact (mem_relock_unlocks.1 he).2 ⟨rfl, hk, .inr rfl⟩
    · rw [← hnv]; exact (mem_relock_unlocks.1 he).1
  · intro h p s hs
    refine ⟨_, _, congrArg Host.Outcome.next ((command_of_served hs).trans rowNvLockSetPassword_run), rfl, fun m k hk he => ?_,
      fun hst => ?_, (putPasses_fit (L := 0x1800E06) (by decide) (relock_fit (by decide)
        (taken_fit_of_pre_id (by decide) rfl s))).keeps (by decide)⟩
    · rw [putPasses_unlocks] at he
      exact (mem_relock_unlocks.1 he).2 ⟨rfl, hk, .inl rfl⟩
    · rw [putPasses_free (Prod.ext rfl hst)]
      exact congrArg (· + _) ((taken_fit_of_pre_id (L := 0x800600) (by decide) (r := rowNvLockSetPassword h p) rfl s).2 .free rfl)
  · intro h p s hs
    refine ⟨_, _, congrArg Host.Outcome.next ((command_of_served hs).trans rowNvLockRemovePassword_run), rfl, ?_,
      (dropPasses_fit (L := 0x1800E02) (by decide) (taken_fit_of_pre_id (by decide) rfl s)).keeps (by decide)⟩
    rw [dropPasses_unlocks, taken_nv_of_pre_id rfl]
  · intro h p s v w r hv hw hs
    have hnv := taken_nv_of_pre_id (r := rowNvCounterAdd h p) rfl s
    have hexec : exec (.nvCounterAdd h p) s = .next (finish h 0x0805 (counterVerdict v r) w) :=
      congrArg Host.Outcome.next ((command_of_served hs).trans (rowNvCounterAdd_run (hv.trans (by rw [counterGet_congr hnv])) hw))
    rw [hexec]
    cases r <;> rfl
  · intro s hdue
    exact ⟨_, _, congrArg Host.Outcome.next (if_pos hdue), rfl, le_ref_advanceRef .., nvFlush_lastFlush _,
      (advanceRef_fit (L := 0x20) (by decide) (Fit.refl _ s)).keeps (by decide)⟩

end Sys2Proof.Machine
end

section
/-! PROOFS. Owner authentication, life-cycle states, keys and attestation (R511 to R519, R525), and firmware updates (R520 to
R524). -/

namespace Sys2Proof.Machine

/-! ## What is read of the NV store and the security state -/

theorem nvGet_of_nv {s t : State} (h : t.nv = s.nv) (p k e : Nat) : nvGet t p k e = nvGet s p k e := nvGet_congr (newest_congr h ..)

theorem ownerKey_congr {s t : State} (h : t.nv = s.nv) : ownerKey t = ownerKey s := by rw [ownerKey, ownerKey, nvGet_of_nv h]

theorem fleetKey_congr {s t : State} (h : t.nv = s.nv) : fleetKey t = fleetKey s := by rw [fleetKey, fleetKey, nvGet_of_nv h]

theorem debugPass_congr {s t : State} (h : t.nv = s.nv) : debugPass t = debugPass s := nvGet_of_nv h ..

theorem lifeState_congr {s t : State} (h : t.sec = s.sec) : lifeState t = lifeState s := by rw [lifeState, lifeState, h]

theorem challengeOf_congr {s t : State} (h : t.sec = s.sec) (m : Master) : challengeOf m t = challengeOf m s := by
  cases m <;> simp only [challengeOf, h]

theorem liveChallenge_congr {s t : State} (hsec : t.sec = s.sec) (htime : t.time = s.time) (m : Master) :
    liveChallenge m t = liveChallenge m s := by
  rw [liveChallenge, liveChallenge, challengeOf_congr hsec, merNs_congr htime]

theorem quoteOf_congr {s t : State} (h : t.sec = s.sec) (m : Master) : quoteOf m t = quoteOf m s := by cases m <;> simp only [quoteOf, h]

theorem authHeld_congr {s t : State} (hsec : t.sec = s.sec) (htime : t.time = s.time) (m : Master) : authHeld m t = authHeld m s := by
  have huntil : authUntil m t = authUntil m s := by cases m <;> simp only [authUntil, hsec]
  rw [authHeld, authHeld, huntil, merNs_congr htime]

/-- The words of LIFE_GET depend on the keys, the counters, the fuses and the time (R525). -/
theorem lifeWords_congr {s t : State} (hnv : t.nv = s.nv) (hsec : t.sec = s.sec) (htime : t.time = s.time) (m : Master) :
    lifeWords m t = lifeWords m s := by
  rw [lifeWords, lifeWords, ownerKey_congr hnv, fleetKey_congr hnv, debugPass_congr hnv, authHeld_congr hsec htime,
    lifeState_congr hsec, rollbackValue, rollbackValue, authFails, authFails, counterGet_congr hnv, hsec, htime]

theorem bootCtl_congr {s t : State} (hnv : t.nv = s.nv) (hsec : t.sec = s.sec) : bootCtl t = bootCtl s := by
  rw [bootCtl, bootCtl, nvGet_of_nv hnv, hsec]

theorem imageOf_congr {s t : State} (h : t.sec = s.sec) (n : Nat) : imageOf n t = imageOf n s := by rw [imageOf, imageOf, h]

theorem armSlot_congr {s t : State} (hnv : t.nv = s.nv) (hsec : t.sec = s.sec) : armSlot t = armSlot s := by
  rw [armSlot, armSlot, hsec, bootCtl_congr hnv hsec]
  simp only [isSealed, bootCtl_congr hnv hsec]
  rfl

section
variable {r : Row} (hpre : r.pre = id) (s : State)
include hpre

theorem taken_sec_of_pre_id : (taken r s).sec = s.sec := taken_sec r s fun _ => by rw [hpre]; rfl

theorem taken_free_of_pre_id : (taken r s).free = s.free := taken_free r s fun _ => by rw [hpre]; rfl

end

/-! ## LIFE_GET and challenges (R514, R525) -/

theorem exec_challengeGetNew {h : Hdr} {p : ChallengeGetP} {s : State} (hs : served (rowChallengeGetNew h p) s = true) :
    exec (.challengeGetNew h p) s = .next (finish h 0x0B02 (threeWords (newChallenge (taken (rowChallengeGetNew h p) s)).data 0)
      (setChallenge (masterOf h.src) (some (newChallenge (taken (rowChallengeGetNew h p) s)))
        (drawn (taken (rowChallengeGetNew h p) s)))) :=
  congrArg Host.Outcome.next (command_of_served hs)

theorem challengeOf_setChallenge (m : Master) (c : Option Challenge) (s : State) : challengeOf m (setChallenge m c s) = c := by
  cases m <;> rfl

theorem setChallenge_free (m : Master) (c : Option Challenge) (s : State) : (setChallenge m c s).free = s.free := rfl

theorem drawn_free (s : State) : (drawn s).free = s.free + 1 := rfl

/-- A challenge is formed from the generator, the time and the life-cycle state (R514). -/
theorem newChallenge_eq {s t : State} (hsec : t.sec = s.sec) (htime : t.time = s.time) (hfree : t.free = s.free) :
    newChallenge t = newChallenge s := by
  rw [newChallenge, newChallenge, hfree, merNs_congr htime, lifeState_congr hsec]

theorem exec_challengeGetPart {h : Hdr} {p : ChallengeGetP} {s : State} {c : Challenge}
    (hc : liveChallenge (masterOf h.src) s = some c) (hs : served (rowChallengeGetPart h p) s = true) :
    exec (.challengeGetPart h p) s =
      .next (finish h 0x0B02 (threeWords c.data (12 * p.part.toNat)) (taken (rowChallengeGetPart h p) s)) := by
  have hlive := (liveChallenge_congr (taken_sec_of_pre_id (r := rowChallengeGetPart h p) rfl s)
    (taken_time_of_pre_id rfl s) (masterOf h.src)).trans hc
  have hrun : ∀ x, liveChallenge (masterOf h.src) x = some c → (rowChallengeGetPart h p).run x =
      finish h 0x0B02 (threeWords c.data (12 * p.part.toNat)) x := by
    intro x hx; simp only [rowChallengeGetPart, hx]
  exact congrArg Host.Outcome.next ((command_of_served hs).trans (hrun _ hlive))

/-! ## Authentication (R515 to R517) -/

theorem exec_responsePut {h : Hdr} {p : ResponsePutP} {s : State} {k : Nat × Nat} {c : Challenge} (hk : ownerKey s = some k)
    (hc : liveChallenge (masterOf h.src) s = some c) (hs : served (rowResponsePut h p) s = true) :
    exec (.responsePut h p) s = .next (if responseGood c k p
      then authPass h 0x0B03 p.purpose.toNat (setChallenge (masterOf h.src) none (taken (rowResponsePut h p) s))
      else authFail h 0x0B03 (setChallenge (masterOf h.src) none (taken (rowResponsePut h p) s))) := by
  have hlive := (liveChallenge_congr (taken_sec_of_pre_id (r := rowResponsePut h p) rfl s)
    (taken_time_of_pre_id rfl s) (masterOf h.src)).trans hc
  have hkey := (ownerKey_congr (taken_nv_of_pre_id (r := rowResponsePut h p) rfl s)).trans hk
  have hrun : ∀ x, ownerKey x = some k → liveChallenge (masterOf h.src) x = some c → (rowResponsePut h p).run x =
      if responseGood c k p then authPass h 0x0B03 p.purpose.toNat (setChallenge (masterOf h.src) none x)
      else authFail h 0x0B03 (setChallenge (masterOf h.src) none x) := by
    intro x hx hx'; simp only [rowResponsePut, hx, hx']
  exact congrArg Host.Outcome.next ((command_of_served hs).trans (hrun _ hkey hlive))

theorem exec_passwordPut {h : Hdr} {p : PasswordPutP} {s : State} {r : List Byte} (hr : debugPass s = some r)
    (hs : served (rowPasswordPut h p) s = true) : exec (.passwordPut h p) s =
      .next (if passwordGood r ((leBytes 32 p.password.toNat).take p.pwLen.toNat)
        then authPass h 0x0B04 p.purpose.toNat (taken (rowPasswordPut h p) s)
        else authFail h 0x0B04 (taken (rowPasswordPut h p) s)) := by
  have hpass := (debugPass_congr (taken_nv_of_pre_id (r := rowPasswordPut h p) rfl s)).trans hr
  have hrun : ∀ x, debugPass x = some r → (rowPasswordPut h p).run x =
      if passwordGood r ((leBytes 32 p.password.toNat).take p.pwLen.toNat) then authPass h 0x0B04 p.purpose.toNat x
      else authFail h 0x0B04 x := by
    intro x hx; simp only [rowPasswordPut, hx]
  exact congrArg Host.Outcome.next ((command_of_served hs).trans (hrun _ hpass))

/-- The failure count is cleared (R517). -/
def authCleared (s : State) : State := if authFails s = 0 then s else counterSet 4 0 s

theorem authCleared_fit (s : State) : Fit 0x1800C02 s (authCleared s) :=
  Fit.ite (fun _ => Fit.refl _ s) (fun _ => counterSet_fit (by decide) (Fit.refl _ s))

theorem authUntil_giveAuth (m : Master) (s : State) : authUntil m (giveAuth m s) = merNs s + 60 * nsPerSec := by cases m <;> rfl

theorem giveAuth_open (m : Master) (s : State) : (giveAuth m s).sec.open_ = s.sec.open_ := by cases m <;> rfl

theorem giveAuth_time (m : Master) (s : State) : (giveAuth m s).time = s.time := rfl

theorem giveAuth_par (m : Master) (s : State) : (giveAuth m s).par = s.par := rfl

/-- FIELD_OPEN opens for SEC_OPEN_HOURS (R513). -/
def fieldOpened (s : State) : State := onSec (fun c => { c with open_ := some ⟨s.time.ref + pv s 0x1404 * 3600 * nsPerSec⟩ }) s

theorem fieldOpened_open (s : State) : (fieldOpened s).sec.open_ = some ⟨s.time.ref + pv s 0x1404 * 3600 * nsPerSec⟩ := rfl

theorem authUntil_fieldOpened (m : Master) (s : State) : authUntil m (fieldOpened s) = authUntil m s := by cases m <;> rfl

theorem fieldOpened_time (s : State) : (fieldOpened s).time = s.time := rfl

/-- What a successful authentication comes to before its reply (R513, R517). -/
def authGiven (m : Master) (purpose : Nat) (s : State) : State :=
  if purpose = 1 then raise 0xED [(1, 1)] (fieldOpened (giveAuth m (authCleared s))) else giveAuth m (authCleared s)

theorem authPass_eq (h : Hdr) (opc purpose : Nat) (s : State) :
    authPass h opc purpose s = finish h opc (okay) (authGiven (masterOf h.src) purpose s) := rfl

theorem authGiven_sec (m : Master) (purpose : Nat) (s : State) : (authGiven m purpose s).sec =
    if purpose = 1 then (fieldOpened (giveAuth m (authCleared s))).sec else (giveAuth m (authCleared s)).sec := by
  unfold authGiven
  split
  · rw [raise_sec]
  · rfl

theorem authGiven_time (m : Master) (purpose : Nat) (s : State) : (authGiven m purpose s).time = s.time := by
  have hcleared : (authCleared s).time = s.time := (authCleared_fit s).2 .time rfl
  unfold authGiven
  split
  · rw [raise_time, fieldOpened_time, giveAuth_time, hcleared]
  · rw [giveAuth_time, hcleared]

theorem authUntil_congr {s t : State} (h : t.sec = s.sec) (m : Master) : authUntil m t = authUntil m s := by
  cases m <;> simp only [authUntil, h]

theorem authUntil_authGiven (m : Master) (purpose : Nat) (s : State) :
    authUntil m (authGiven m purpose s) = merNs s + 60 * nsPerSec := by
  have hcleared : merNs (authCleared s) = merNs s := merNs_congr ((authCleared_fit s).2 .time rfl)
  by_cases h : purpose = 1
  · rw [authUntil_congr (t := authGiven m purpose s) ((authGiven_sec ..).trans (if_pos h)), authUntil_fieldOpened,
      authUntil_giveAuth, hcleared]
  · rw [authUntil_congr (t := authGiven m purpose s) ((authGiven_sec ..).trans (if_neg h)), authUntil_giveAuth, hcleared]

theorem authGiven_open_of_purpose {m : Master} {purpose : Nat} {s : State} (h : purpose = 1) :
    (authGiven m purpose s).sec.open_ = some ⟨s.time.ref + pv s 0x1404 * 3600 * nsPerSec⟩ := by
  have htime : (authCleared s).time = s.time := (authCleared_fit s).2 .time rfl
  have hpar : (authCleared s).par = s.par := (authCleared_fit s).2 .par rfl
  rw [authGiven_sec, if_pos h, fieldOpened_open, giveAuth_time, htime, pv_congr (giveAuth_par m (authCleared s)), pv_congr hpar]

theorem authGiven_open_of_not_purpose {m : Master} {purpose : Nat} {s : State} (h : purpose ≠ 1) :
    (authGiven m purpose s).sec.open_ = s.sec.open_ := by
  have hsec : (authCleared s).sec = s.sec := (authCleared_fit s).2 .sec rfl
  rw [authGiven_sec, if_neg h, giveAuth_open, hsec]

/-- A failed authentication is counted, with event 0xEA (R517). -/
def authCounted (s : State) : State := raise 0xEA [] (counterSet 4 (authFails s + 1) s)

/-- Authentication is locked out for its period (R517). -/
def authLockedOut (n : Nat) (s : State) : State := onSec (fun c => { c with lockUntil := s.time.ref + lockPeriod n }) s

/-- What a failed authentication comes to before its reply (R517). -/
def authFailed (s : State) : State :=
  if authFails s + 1 < 5 then authCounted s else raise 0xEB [] (authLockedOut (authFails s + 1) (authCounted s))

theorem authFail_eq (h : Hdr) (opc : Nat) (s : State) : authFail h opc s = finish h opc (no St.authFail) (authFailed s) := rfl

theorem authCounted_sec (s : State) : (authCounted s).sec = s.sec := by
  rw [authCounted, raise_sec]
  exact (counterSet_fit (L := 0x1800C02) (by decide) (Fit.refl _ s)).2 .sec rfl

theorem authCounted_time (s : State) : (authCounted s).time = s.time := by
  rw [authCounted, raise_time]
  exact (counterSet_fit (L := 0x1800C02) (by decide) (Fit.refl _ s)).2 .time rfl

theorem authLockedOut_lockUntil (n : Nat) (s : State) : (authLockedOut n s).sec.lockUntil = s.time.ref + lockPeriod n := rfl

theorem authFailed_lockUntil_of_five {s : State} (h : 4 ≤ authFails s) :
    (authFailed s).sec.lockUntil = s.time.ref + lockPeriod (authFails s + 1) := by
  rw [authFailed, if_neg (by omega), raise_sec, authLockedOut_lockUntil, authCounted_time]

theorem authFailed_lockUntil_of_few {s : State} (h : authFails s < 4) : (authFailed s).sec.lockUntil = s.sec.lockUntil := by
  rw [authFailed, if_pos (by omega), authCounted_sec]

/-! ## FIELD_OPEN and quotes (R513, R519) -/

theorem endFieldOpen_open (s : State) : (endFieldOpen s).sec.open_ = none := by
  unfold endFieldOpen
  split
  · next h => simpa using h
  · rw [raise_sec]; rfl

theorem endFieldOpen_time (s : State) : (endFieldOpen s).time = s.time :=
  (endFieldOpen_fit (L := 0x8800C06) (by decide) (Fit.refl _ s)).2 .time rfl

theorem exec_fieldOpenExpiry {s : State} {o : FieldOpen} (ho : s.sec.open_ = some o) :
    exec .fieldOpenExpiry s = .next (endFieldOpen (advanceRef o.until_ s)) := by
  show execFieldOpenExpiry s = _
  rw [execFieldOpenExpiry, ho]; rfl

/-- A quote is held for a master (R519). -/
def quoteHeld (m : Master) (q : List Byte) (s : State) : State :=
  onSec (fun c => match m with | .host => { c with quoteHost := some q } | .sideBand => { c with quoteSide := some q }) (drawn s)

theorem quoteOf_quoteHeld (m : Master) (q : List Byte) (s : State) : quoteOf m (quoteHeld m q s) = some q := by cases m <;> rfl

theorem quoteHeld_fit {L : Nat} {s0 s : State} (m : Master) (q : List Byte) (hL : In 0x8000004 L) (h : Fit L s0 s) :
    Fit L s0 (quoteHeld m q s) := onSec_fit (In.trans (by decide) hL) (drawn_fit (In.trans (by decide) hL) h)

theorem exec_attestQuoteForm {h : Hdr} {p : AttestP} {s : State} {d key : Nat} (hk : fleetKey s = some (d, key))
    (hdest : p.dest ≠ 0) (hhost : p.flags.toNat.testBit 0 = false) (hs : served (rowAttestQuoteForm h p) s = true) {q : List Byte}
    (hq : q = formQuote d key p.nonce.toNat (taken (rowAttestQuoteForm h p) s)) : exec (.attestQuoteForm h p) s =
      .next (finish h 0x0B05 (okay 216) (emit (.hostWrite p.dest.toNat q)
        (quoteHeld (masterOf h.src) q (taken (rowAttestQuoteForm h p) s)))) := by
  have hkey := (fleetKey_congr (taken_nv_of_pre_id (r := rowAttestQuoteForm h p) rfl s)).trans hk
  have hrun : ∀ x, fleetKey x = some (d, key) → (rowAttestQuoteForm h p).run x = finish h 0x0B05 (okay 216)
      (emit (.hostWrite p.dest.toNat (formQuote d key p.nonce.toNat x))
        (quoteHeld (masterOf h.src) (formQuote d key p.nonce.toNat x) x)) := by
    intro x hx
    simp only [rowAttestQuoteForm, hx, if_neg hdest, hhost, Bool.false_eq_true, if_false]
    rfl
  rw [hq]
  exact congrArg Host.Outcome.next ((command_of_served hs).trans (hrun _ hkey))

theorem exec_attestQuotePart {h : Hdr} {p : AttestP} {s : State} {q : List Byte} (hq : quoteOf (masterOf h.src) s = some q)
    (hs : served (rowAttestQuotePart h p) s = true) : exec (.attestQuotePart h p) s =
      .next (finish h 0x0B05 (threeWords q (12 * (p.part.toNat - 1))) (taken (rowAttestQuotePart h p) s)) := by
  have hq' := (quoteOf_congr (taken_sec_of_pre_id (r := rowAttestQuotePart h p) rfl s) (masterOf h.src)).trans hq
  have hrun : ∀ x, quoteOf (masterOf h.src) x = some q → (rowAttestQuotePart h p).run x =
      finish h 0x0B05 (threeWords q (12 * (p.part.toNat - 1))) x := by
    intro x hx; simp only [rowAttestQuotePart, hx]
  exact congrArg Host.Outcome.next ((command_of_served hs).trans (hrun _ hq'))

/-- Settles O58: each command by what it runs; a success and a failure by the security state they leave. -/
theorem authentication : Obligations.Authentication := by
  refine ⟨?_, ?_, ?_, ?_, ?_, ?_, ?_, ?_, ?_, ?_⟩
  · intro h s hs
    have hwords := lifeWords_congr (taken_nv_of_pre_id (r := rowLifeGet h) rfl s) (taken_sec_of_pre_id rfl s)
      (taken_time_of_pre_id rfl s) (masterOf h.src)
    rw [← hwords]
    exact congrArg Host.Outcome.next (command_of_served hs)
  · intro h p s hs
    have hnew := newChallenge_eq (taken_sec_of_pre_id (r := rowChallengeGetNew h p) rfl s) (taken_time_of_pre_id rfl s)
      (taken_free_of_pre_id rfl s)
    have hexec := exec_challengeGetNew hs
    rw [hnew] at hexec
    refine ⟨_, newChallenge s, bytesAt (Config.trng s.free) 0 32, hexec, challengeOf_setChallenge .., rfl, length_bytesAt .., rfl, ?_,
      (setChallenge_fit (L := 0x8800604) (by decide) (drawn_fit (by decide)
        (taken_fit_of_pre_id (by decide) rfl s))).keeps (by decide)⟩
    rw [setChallenge_free, drawn_free, taken_free_of_pre_id rfl]
  · intro h p s c hc hs
    exact exec_challengeGetPart hc hs
  · intro h p s k c hk hc hs
    exact ⟨_, exec_responsePut hk hc hs, challengeOf_setChallenge ..,
      (setChallenge_fit (L := 0x8800600) (by decide) (taken_fit_of_pre_id (by decide) rfl s)).keeps (by decide)⟩
  · intro h p s r hr hs
    exact exec_passwordPut hr hs
  · intro h opc purpose s
    refine ⟨_, authPass_eq .., ?_, authUntil_authGiven .., fun hp => ?_, authGiven_open_of_not_purpose⟩
    · rw [authHeld, authUntil_authGiven, merNs_congr (authGiven_time ..)]
      exact decide_eq_true (Nat.lt_add_of_pos_right (by decide))
    · rw [authGiven_open_of_purpose hp]; rfl
  · intro h opc s
    exact ⟨_, authFail_eq .., authFailed_lockUntil_of_five, authFailed_lockUntil_of_few⟩
  · intro s o ho
    refine ⟨_, exec_fieldOpenExpiry ho, endFieldOpen_open _, ?_,
      (endFieldOpen_fit (L := 0x8800C26) (by decide) (advanceRef_fit (by decide) (Fit.refl _ s))).keeps (by decide)⟩
    rw [endFieldOpen_time]; exact le_ref_advanceRef ..
  · intro h p s d key hk hdest hhost hs
    refine ⟨_, _, exec_attestQuoteForm hk hdest hhost hs rfl, rfl, ?_, mem_out_emit ..,
      (emit_fit (L := 0x8800606) (by decide) (quoteHeld_fit _ _ (by decide)
        (taken_fit_of_pre_id (by decide) rfl s))).keeps (by decide)⟩
    rw [quoteOf_congr (emit_sec ..), quoteOf_quoteHeld]
  · intro h p s q hq hs
    exact exec_attestQuotePart hq hs

/-! ## Life-cycle states and keys (R512, R518) -/

/-- The fuses of a life-cycle state are blown, and what the state erases is erased (R512). -/
def lifeBlown (v : Nat) (s : State) : State :=
  let x := onSec (fun c => { c with lifeFuses := blowTo v c.lifeFuses }) s
  if 4 ≤ v then lifeErase x else x

theorem lifeBlown_fit {L : Nat} {s0 s : State} (v : Nat) (hL : In 0x9000000 L) (h : Fit L s0 s) : Fit L s0 (lifeBlown v s) :=
  Fit.ite (fun _ => lifeErase_fit (In.trans (by decide) hL) (onSec_fit (In.trans (by decide) hL) h))
    (fun _ => onSec_fit (In.trans (by decide) hL) h)

theorem lifeBlown_fuses (v : Nat) (s : State) : (lifeBlown v s).sec.lifeFuses = blowTo v s.sec.lifeFuses := by
  have herase : ∀ x, (lifeErase x).sec = x.sec := fun x => (lifeErase_fit (L := 0x1000000) (by decide) (Fit.refl _ x)).2 .sec rfl
  unfold lifeBlown
  dsimp only
  split
  · rw [herase]; rfl
  · rfl

theorem lifeBlown_nv {v : Nat} (hv : v < 4) (s : State) : (lifeBlown v s).nv = s.nv := by
  rw [lifeBlown, if_neg (Nat.not_le.2 hv)]
  rfl

/-- A completed advance resets the module after its reply (R512). -/
theorem runLife_whole {h : Hdr} {p : LifeAdvanceP} {s : State} {v : Nat} {b : Bool} (hv : lifeStep p.target.toNat s = some (v, b))
    (hret : ¬(lifeState s = 4 ∧ p.target = 3)) : runLife h p none s = plainReset false (finish h 0x0B06 (okay)
      (raise 0xEC [(1, lifeState s), (1, lifeState (lifeBlown v s))] (lifeBlown v s))) := by
  rw [runLife, hv]
  exact if_neg hret

/-- Going back from FIELD_OPEN only ends it (R512, R513). -/
theorem runLife_return {h : Hdr} {p : LifeAdvanceP} {cut : Option LifeCut} {s : State} {v : Nat} {b : Bool}
    (hv : lifeStep p.target.toNat s = some (v, b)) (hret : lifeState s = 4 ∧ p.target = 3) :
    runLife h p cut s = finish h 0x0B06 (okay) (raise 0xEC [(1, 4), (1, 3)] (endFieldOpen s)) := by
  rw [runLife, hv]
  exact if_pos hret

theorem exec_lifeAdvance {h : Hdr} {p : LifeAdvanceP} {trims : List U16} {cut : Option LifeCut} {s : State}
    (hs : served (rowLifeAdvance h p trims cut) s = true) : exec (.lifeAdvance h p trims cut) s =
      .next (runLife h p cut (taken (rowLifeAdvance h p trims cut) s)) := by
  have hrun : ∀ x, (rowLifeAdvance h p trims cut).run x = runLife h p cut x := fun _ => rfl
  exact congrArg Host.Outcome.next ((command_of_served hs).trans (hrun _))

theorem taken_lifeAdvance_fit {L : Nat} (h : Hdr) (p : LifeAdvanceP) (trims : List U16) (cut : Option LifeCut) (s : State)
    (hL : In 0x8800600 L) : Fit L s (taken (rowLifeAdvance h p trims cut) s) :=
  blowTrims_fit (In.trans (by decide) hL) (admitted_fit (In.trans (by decide) hL) (Fit.refl _ s))

/-- The reply of a key write that answers its result (R518). -/
def keyVerdict : NvResult → Verdict
  | .seq _ => okay
  | .refused st => no st

theorem rowKeyInstallPassword_run {h : Hdr} {p : KeyInstallP} {s w : State} {r : NvResult}
    (hw : nvPut 4 0x11 0 false (drawSalt s ++ debugDigest (drawSalt s) (bytesAt p.data 0 p.len.toNat)) 0 (drawn s) = (w, r)) :
    (rowKeyInstallPassword h p).run s = finish h 0x0B07 (keyVerdict r) w := by
  simp only [rowKeyInstallPassword, hw]
  cases r <;> rfl

theorem rowKeyInstallRemovePassword_run {h : Hdr} {p : KeyInstallP} {s w : State} {r : NvResult}
    (hpass : (debugPass s).isSome = true) (hw : nvDelete 4 0x11 0 s = (w, r)) :
    (rowKeyInstallRemovePassword h p).run s = finish h 0x0B07 (keyVerdict r) w := by
  simp only [rowKeyInstallRemovePassword, hw, Option.isNone_eq_false_iff.2 hpass, Bool.false_eq_true, if_false]
  cases r <;> rfl

/-- Settles O59: an advance by what it blows and erases; a key by the record it writes. -/
theorem lifeAndKeys : Obligations.LifeAndKeys := by
  refine ⟨?_, ?_, ?_, ?_, ?_, ?_⟩
  · intro h p trims s x v hx hv hret hs
    subst hx
    refine ⟨lifeBlown v (taken (rowLifeAdvance h p trims none) s), (exec_lifeAdvance hs).trans (congrArg Host.Outcome.next
      (runLife_whole hv hret)), lifeBlown_fuses .., fun hlt => lifeBlown_nv hlt _, ?_⟩
    exact (lifeBlown_fit (L := 0x9800600) v (by decide) (taken_lifeAdvance_fit h p trims none s (by decide))).keeps (by decide)
  · intro h p trims cut s x v hx hv hold htarget hs
    subst hx
    exact (exec_lifeAdvance hs).trans (congrArg Host.Outcome.next (runLife_return hv ⟨hold, htarget⟩))
  · intro h p s x y hx hy hs
    subst hx hy
    exact congrArg Host.Outcome.next (command_of_served hs)
  · intro h p s d q hd hq hs
    subst hd hq
    exact congrArg Host.Outcome.next (command_of_served hs)
  · intro h p s hs
    refine ⟨drawn (taken (rowKeyInstallPassword h p) s), drawSalt (taken (rowKeyInstallPassword h p) s), _, _,
      (congrArg Host.Outcome.next ((command_of_served hs).trans (rowKeyInstallPassword_run rfl))).trans ?_, rfl,
      length_bytesAt .., ?_, (drawn_fit (L := 0x800604) (by decide) (taken_fit_of_pre_id (by decide) rfl s)).keeps (by decide)⟩
    · congr 2
    · rw [drawn_free, taken_free_of_pre_id rfl]
  · intro h p s hpass hs
    have hpass' : (debugPass (taken (rowKeyInstallRemovePassword h p) s)).isSome = true := by
      rw [debugPass_congr (taken_nv_of_pre_id rfl s)]; exact hpass
    refine ⟨_, _, (congrArg Host.Outcome.next ((command_of_served hs).trans
      (rowKeyInstallRemovePassword_run hpass' rfl))).trans ?_, rfl⟩
    congr 2

/-! ## Firmware updates (R520 to R524) -/

theorem imageOf_setImage (n : Nat) (m : FwImage) (s : State) : imageOf n (setImage n m s) = m := by
  rw [imageOf, setImage, onSec]
  by_cases h : n = 0
  · simp only [if_pos h]
  · simp only [if_neg h]

theorem setImage_update (n : Nat) (m : FwImage) (s : State) : (setImage n m s).sec.update = s.sec.update := by
  rw [setImage, onSec]
  by_cases h : n = 0
  · simp only [if_pos h]
  · simp only [if_neg h]

/-- An update stands open, or none does. -/
def withUpdate (u : Option FwUpdate) (s : State) : State := onSec (fun c => { c with update := u }) s

theorem withUpdate_update (u : Option FwUpdate) (s : State) : (withUpdate u s).sec.update = u := rfl

theorem imageOf_withUpdate (n : Nat) (u : Option FwUpdate) (s : State) : imageOf n (withUpdate u s) = imageOf n s := rfl

theorem withUpdate_fit {L : Nat} {s0 s : State} (u : Option FwUpdate) (hL : In 0x8000000 L) (h : Fit L s0 s) :
    Fit L s0 (withUpdate u s) := onSec_fit hL h

theorem verifyImage_withUpdate (m : FwImage) (u : Option FwUpdate) (s : State) : verifyImage m (withUpdate u s) = verifyImage m s := by
  cases m <;> rfl

/-- The boot control record with which an erasure of slot `n` begins (R520). -/
def eraseBoot (n : Nat) (s : State) : BootCtl :=
  { bootCtl s with sealed := sealTo n false (bootCtl s).sealed, trial := if (bootCtl s).trial = n then 0xFF else (bootCtl s).trial, staged := 0 }

/-- The state in which slot `n` is being erased for an update (R520). -/
def updateBegun (h : Hdr) (p : FwBeginP) (n : Nat) (s : State) : State :=
  withUpdate (some ⟨masterOf h.src, n, p.total.toNat, some h, none⟩) (setImage n (.bytes []) (putBoot (eraseBoot n s) s))

theorem exec_fwBegin {h : Hdr} {p : FwBeginP} {s : State} {n : Nat} (hn : n = updateTarget (taken (rowFwBegin h p) s))
    (hs : served (rowFwBegin h p) s = true) : exec (.fwBegin h p) s =
      .next (accepted h 0x0D01 0 (updateBegun h p n (taken (rowFwBegin h p) s))) := by
  have hrun : ∀ x, (rowFwBegin h p).run x = accepted h 0x0D01 0 (updateBegun h p (updateTarget x) x) := fun _ => rfl
  subst hn
  exact congrArg Host.Outcome.next ((command_of_served hs).trans (hrun _))

theorem exec_fwEraseDone {s : State} {x : FwUpdate} {h : Hdr} (hx : s.sec.update = some x) (hh : x.erasing = some h) :
    exec .fwEraseDone s = .next (finish h 0x0D01 (okay) (withUpdate (some { x with erasing := none }) s)) := by
  show execFwEraseDone s = _
  simp only [execFwEraseDone, hx, hh]
  rfl

/-- A chunk is programmed behind the bytes staged so far (R521). -/
def chunkStaged (p : FwChunkP) (n : Nat) (s : State) : State := setImage n (.bytes (stagedBytes n s ++ chunkData p s)) s

theorem rowFwChunk_run {h : Hdr} {p : FwChunkP} {s : State} {x : FwUpdate} (hx : s.sec.update = some x) :
    (rowFwChunk h p false).run s = finish h 0x0D02 (okay ((bootCtl s).staged + p.length.toNat))
      (putBoot { bootCtl s with staged := (bootCtl s).staged + p.length.toNat } (chunkStaged p x.slot s)) := by
  simp only [rowFwChunk, hx, Bool.false_eq_true, if_false]
  rfl

theorem rowFwChunk_run_fails {h : Hdr} {p : FwChunkP} {s : State} {x : FwUpdate} (hx : s.sec.update = some x) :
    (rowFwChunk h p true).run s = finish h 0x0D02 (no St.fault) (putBoot { bootCtl s with staged := 0 } (withUpdate none s)) := by
  simp only [rowFwChunk, hx, if_true]
  rfl

theorem stagedBytes_congr {s t : State} (h : t.sec = s.sec) (n : Nat) : stagedBytes n t = stagedBytes n s := by
  rw [stagedBytes, stagedBytes, imageOf_congr h]

theorem rowFwCommit_run {h : Hdr} {s : State} {x : FwUpdate} (hx : s.sec.update = some x) :
    (rowFwCommit h).run s = accepted h 0x0D03 0 (withUpdate (some { x with verifying := some h }) s) := by
  have hsec : onSec (fun c => { c with update := c.update.map (fun u => { u with verifying := some h }) }) s =
      withUpdate (some { x with verifying := some h }) s := by
    rw [withUpdate, onSec, onSec, hx]; rfl
  exact congrArg (accepted h 0x0D03 0) hsec

theorem exec_fwVerifyDone {s : State} {x : FwUpdate} {h : Hdr} (hx : s.sec.update = some x) (hh : x.verifying = some h) :
    exec .fwVerifyDone s = .next (match verifyImage (imageOf x.slot s) (withUpdate none s) with
      | some code => finish h 0x0D03 ⟨St.badParam, code, 0, 0⟩ (putBoot { bootCtl s with staged := 0 } (withUpdate none s))
      | none => finish h 0x0D03 (okay (imgVersion (imageOf x.slot s)) (imgRollback (imageOf x.slot s)))
        (stageEvent 1 (putBoot { bootCtl s with staged := 0, sealed := sealTo x.slot true (bootCtl s).sealed } (withUpdate none s)))) := by
  show execFwVerifyDone s = _
  simp only [execFwVerifyDone, hx, hh]
  rfl

/-- The state after FW_ACTIVATE has armed a slot and answered (R523). -/
def armed (h : Hdr) (p : FwActivateP) (n : Nat) (s : State) : State :=
  finish h 0x0D04 (okay) (putBoot { bootCtl s with trial := n, auto := b2n (p.flags.toNat.testBit 1) } s)

theorem armed_mode (h : Hdr) (p : FwActivateP) (n : Nat) (s : State) : (armed h p n s).mode = s.mode :=
  (finish_fit (L := 0x1800E02) (by decide) (putBoot_fit (by decide) (Fit.refl _ s))).2 .mode rfl

theorem rowFwActivateArm_run {h : Hdr} {p : FwActivateP} {s : State} {n : Nat} (hn : armSlot s = some n) :
    (rowFwActivateArm h p).run s =
      if p.flags.toNat.testBit 0 then plainReset (s.mode.mode == .recovery) (armed h p n s) else armed h p n s := by
  simp only [rowFwActivateArm, hn]
  rw [← armed_mode h p n s]
  rfl

/-- Settles O60: each firmware command by the boot control record and the slot it leaves. -/
theorem firmwareUpdates : Obligations.FirmwareUpdates := by
  refine ⟨?_, ?_, ?_, ?_, ?_, ?_, ?_, ?_, ?_⟩
  · intro h p s n hn hs
    refine ⟨_, exec_fwBegin hn hs, withUpdate_update ..,
      (imageOf_withUpdate ..).trans (imageOf_setImage ..), ?_⟩
    exact (withUpdate_fit (L := 0x9800E02) _ (by decide) (setImage_fit (by decide) (putBoot_fit (by decide)
      (taken_fit_of_pre_id (by decide) rfl s)))).keeps (by decide)
  · intro s x h hx hh
    exact ⟨_, exec_fwEraseDone hx hh, withUpdate_update .., (withUpdate_fit (L := 0x8000000) _ (by decide) (Fit.refl _ s)).keeps (by decide)⟩
  · intro h p s x b hx hb hs
    have hsec := taken_sec_of_pre_id (r := rowFwChunk h p false) rfl s
    have hboot := bootCtl_congr (taken_nv_of_pre_id (r := rowFwChunk h p false) rfl s) hsec
    have hx' : (taken (rowFwChunk h p false) s).sec.update = some x := by rw [hsec, hx]
    have hrun := rowFwChunk_run (h := h) (p := p) hx'
    rw [hboot, ← hb] at hrun
    refine ⟨chunkStaged p x.slot (taken (rowFwChunk h p false) s), congrArg Host.Outcome.next ((command_of_served hs).trans hrun),
      ?_, ?_, (setImage_fit (L := 0x8800600) (by decide) (taken_fit_of_pre_id (by decide) rfl s)).keeps (by decide)⟩
    · rw [chunkStaged, imageOf_setImage, stagedBytes_congr hsec]
    · rw [chunkStaged, setImage_update, hx']
  · intro h p s x b hx hb hs
    have hsec := taken_sec_of_pre_id (r := rowFwChunk h p true) rfl s
    have hboot := bootCtl_congr (taken_nv_of_pre_id (r := rowFwChunk h p true) rfl s) hsec
    have hx' : (taken (rowFwChunk h p true) s).sec.update = some x := by rw [hsec, hx]
    have hrun := rowFwChunk_run_fails (h := h) (p := p) hx'
    rw [hboot, ← hb] at hrun
    exact ⟨withUpdate none (taken (rowFwChunk h p true) s), congrArg Host.Outcome.next ((command_of_served hs).trans hrun),
      withUpdate_update .., (withUpdate_fit (L := 0x8800600) _ (by decide) (taken_fit_of_pre_id (by decide) rfl s)).keeps (by decide)⟩
  · intro h s x hx hs
    have hx' : (taken (rowFwCommit h) s).sec.update = some x := by rw [taken_sec_of_pre_id rfl, hx]
    exact ⟨_, congrArg Host.Outcome.next ((command_of_served hs).trans (rowFwCommit_run hx')), withUpdate_update ..,
      (withUpdate_fit (L := 0x8800600) _ (by decide) (taken_fit_of_pre_id (by decide) rfl s)).keeps (by decide)⟩
  · intro s x h m b hx hh hm hb
    subst hm hb
    have hexec := exec_fwVerifyDone hx hh
    rw [verifyImage_withUpdate] at hexec
    refine ⟨withUpdate none s, withUpdate_update .., (withUpdate_fit (L := 0x8000000) _ (by decide) (Fit.refl _ s)).keeps (by decide),
      fun code hcode => ?_, fun hgood => ?_⟩
    · rw [hexec, hcode]
    · rw [hexec, hgood]
  · intro h p s n hn hs
    have hsec := taken_sec_of_pre_id (r := rowFwActivateArm h p) rfl s
    have hnv := taken_nv_of_pre_id (r := rowFwActivateArm h p) rfl s
    have hmode : (taken (rowFwActivateArm h p) s).mode = s.mode :=
      (taken_fit_of_pre_id (L := 0x800600) (r := rowFwActivateArm h p) (by decide) rfl s).2 .mode rfl
    have hrun := rowFwActivateArm_run (h := h) (p := p) ((armSlot_congr hnv hsec).trans hn)
    rw [hmode] at hrun
    exact ⟨armed h p n (taken (rowFwActivateArm h p) s), by rw [armed, bootCtl_congr hnv hsec],
      congrArg Host.Outcome.next ((command_of_served hs).trans hrun)⟩
  · intro h p s n hn hs
    have hn' : (taken (rowFwActivateConfirm h p none) s).sec.running = some n := by rw [taken_sec_of_pre_id rfl, hn]
    have hrun : ∀ x : State, x.sec.running = some n → (rowFwActivateConfirm h p none).run x =
        finish h 0x0D04 (okay (rollbackValue (confirmRunning n x))) (confirmRunning n x) := by
      intro x hx; simp only [rowFwActivateConfirm, hx]
    exact ⟨_, rfl, congrArg Host.Outcome.next ((command_of_served hs).trans (hrun _ hn'))⟩
  · intro h p s hs
    have hboot := bootCtl_congr (taken_nv_of_pre_id (r := rowFwActivateDisarm h p) rfl s) (taken_sec_of_pre_id rfl s)
    rw [← hboot]
    exact congrArg Host.Outcome.next (command_of_served hs)

end Sys2Proof.Machine
end

section
/-! PROOFS. Records, event words and the event queue (R417 to R423), and NOP, GET_INFO, PARAM_GET and PARAM_LIST (R412, R413). -/

namespace Sys2Proof.Machine

/-! ## Records (R417, R423) -/

theorem logRec_cmd (r : Rec) (s : State) : (logRec r s).2.cmd = s.cmd := rfl

/-- A record changes the outputs and the events only. -/
theorem logRec_keeps (r : Rec) (s : State) : Keeps [.out, .evt] s (logRec r s).2 := by
  intro p hp
  by_cases hc : p = .cmd
  · subst hc; exact logRec_cmd r s
  · exact (logRec_fit (L := 0xC02) (by decide) (Fit.refl _ s)).keeps (l := [.out, .cmd, .evt]) (by decide) p (by simp_all)

/-! ## EVT_PEND and EVT_MASK (R419) -/

theorem testBit_word {v k n : Nat} (hv : v < 2 ^ 32) :
    (v * 2 ^ (32 * k)).testBit n = (n / 32 == k && v.testBit (n % 32)) := by
  rw [Nat.testBit_mul_two_pow]
  by_cases h : n / 32 = k
  · have hle : 32 * k ≤ n := by omega
    rw [show n % 32 = n - 32 * k by omega]
    simp [h, hle]
  · have hne : (n / 32 == k) = false := by simp [h]
    rw [hne, Bool.false_and]
    by_cases hle : 32 * k ≤ n
    · have hbig : v.testBit (n - 32 * k) = false :=
        Nat.testBit_lt_two_pow (Nat.lt_of_lt_of_le hv (Nat.pow_le_pow_right (by decide) (by omega)))
      simp [hbig]
    · simp [hle]

/-- Writing ones clears the bits of a pending word and no others (R419). -/
theorem pendWrite_testBit {i v n : Nat} (hv : v < 2 ^ 32) (hn : n < 256) (s : State) :
    (pendWrite i v s).evt.pend.testBit n = (s.evt.pend.testBit n && !(n / 32 == i && v.testBit (n % 32))) := by
  show (s.evt.pend &&& ((2 ^ 256 - 1) ^^^ (v * 2 ^ (32 * i) % 2 ^ 256))).testBit n = _
  rw [Nat.testBit_and, Nat.testBit_xor, Nat.testBit_two_pow_sub_one, Nat.testBit_mod_two_pow, testBit_word hv]
  simp [hn]

/-- The mask after its word `i` is written (R419). -/
def maskWith (i v old : Nat) : Nat := old - bits old (32 * i + 31) (32 * i) * 2 ^ (32 * i) + v * 2 ^ (32 * i)

theorem maskWith_eq (i v old : Nat) :
    maskWith i v old = 2 ^ (32 * i) * (2 ^ 32 * (old / 2 ^ (32 * i) / 2 ^ 32) + v) + old % 2 ^ (32 * i) := by
  have hbits : bits old (32 * i + 31) (32 * i) = old / 2 ^ (32 * i) % 2 ^ 32 := by
    rw [bits_eq, show 32 * i + 31 + 1 - 32 * i = 32 by omega]
  have hold : old = 2 ^ (32 * i) * (2 ^ 32 * (old / 2 ^ (32 * i) / 2 ^ 32) + old / 2 ^ (32 * i) % 2 ^ 32) + old % 2 ^ (32 * i) := by
    rw [Nat.div_add_mod, Nat.div_add_mod]
  rw [maskWith, hbits]
  generalize 2 ^ (32 * i) = P at hold ⊢
  generalize old / P % 2 ^ 32 = m at hold ⊢
  generalize old / P / 2 ^ 32 = q at hold ⊢
  generalize old % P = r at hold ⊢
  rw [hold, Nat.mul_add, Nat.mul_add, Nat.mul_comm m P, Nat.mul_comm v P]
  omega

theorem maskWith_testBit {v : Nat} (hv : v < 2 ^ 32) (i old n : Nat) :
    (maskWith i v old).testBit n = if n / 32 = i then v.testBit (n % 32) else old.testBit n := by
  rw [maskWith_eq, Nat.testBit_two_pow_mul_add _ (Nat.mod_lt _ (Nat.two_pow_pos _)), Nat.testBit_two_pow_mul_add _ hv]
  by_cases hlo : n < 32 * i
  · rw [if_pos hlo, if_neg (by omega), Nat.testBit_mod_two_pow]
    simp [hlo]
  rw [if_neg hlo]
  by_cases hmid : n - 32 * i < 32
  · rw [if_pos hmid, if_pos (by omega), show n % 32 = n - 32 * i by omega]
  · rw [if_neg hmid, if_neg (by omega), Nat.testBit_div_two_pow, Nat.testBit_div_two_pow]
    congr 1
    omega

/-- The mask stands as written, and the messages of sources unmasked are sent (R419). -/
theorem maskWrite_evt (i v : Nat) (s : State) : (maskWrite i v s).evt = { s.evt with mask := maskWith i v s.evt.mask } :=
  List.foldlRecOn (motive := fun t : State => t.evt = { s.evt with mask := maskWith i v s.evt.mask }) _ _ rfl fun t ht j _ => by
    dsimp only
    split
    · rw [sendMsix_evt, ht]
    · exact ht

/-! ## The event queue (R421) -/

theorem exec_evqCtlWrite {v : U32} {s : State} (hup : s.cmd.up = true) :
    exec (.evqCtlWrite v) s = .next (evqCtl v.toNat (hostTouch s)) := congrArg Host.Outcome.next (hostAccess_up _ hup)

theorem exec_evqHead {v : U32} {s : State} (hup : s.cmd.up = true) :
    exec (.evqHead v) s = .next (evqHead v.toNat (hostTouch s)) := congrArg Host.Outcome.next (hostAccess_up _ hup)

/-- The queue begins at entry 0 (R421). -/
def evqStarted (sz : Nat) (s : State) : State :=
  { s with evt := { s.evt with qEnable := true, qSize := sz, qTail := 0, qHead := 0, qWritten := 0 } }

theorem evqStarted_fit {L : Nat} {s0 s : State} (sz : Nat) (hL : In 0x800 L) (h : Fit L s0 s) : Fit L s0 (evqStarted sz s) :=
  Fit.upd_evt hL h rfl rfl

theorem evqCtl_of_off {v : Nat} {s : State} (hoff : s.evt.qEnable = false) (hen : bit v 31 = true) (hsz : bits v 3 0 ≤ 8) :
    evqCtl v s = evqStarted (bits v 3 0) s := by
  simp only [evqCtl, hen, hoff]
  rw [if_neg (by omega)]
  rfl

/-- The queue is enabled or disabled; its size stays (R421). -/
def evqEnabled (en : Bool) (s : State) : State := { s with evt := { s.evt with qEnable := en } }

theorem evqEnabled_fit {L : Nat} {s0 s : State} (en : Bool) (hL : In 0x800 L) (h : Fit L s0 s) : Fit L s0 (evqEnabled en s) :=
  Fit.upd_evt hL h rfl rfl

theorem evqCtl_of_on {v : Nat} {s : State} (hon : s.evt.qEnable = true) (hsz : bit v 31 = true → bits v 3 0 ≤ 8) :
    evqCtl v s = evqEnabled (bit v 31) s := by
  have hgood : ¬(bit v 31 = true ∧ 8 < bits v 3 0) := fun h => absurd (hsz h.1) (by omega)
  simp only [evqCtl, hon]
  rw [if_neg hgood]
  rfl

/-- Entries up to `v` are released (R421). -/
def evqReleased (v : Nat) (s : State) : State := { s with evt := { s.evt with qHead := v } }

theorem evqReleased_fit {L : Nat} {s0 s : State} (v : Nat) (hL : In 0x800 L) (h : Fit L s0 s) : Fit L s0 (evqReleased v s) :=
  Fit.upd_evt hL h rfl rfl

theorem evqHead_of_good {v : Nat} {s : State} (hon : s.evt.qEnable = true) (hv : v < evqN s)
    (hle : (v + evqN s - s.evt.qHead) % evqN s ≤ (s.evt.qTail + evqN s - s.evt.qHead) % evqN s) :
    evqHead v s = evqReleased v s := by
  rw [evqHead, if_neg (by simp [hon])]
  dsimp only
  rw [if_neg (Nat.not_le.2 hv), if_neg (Nat.not_lt.2 hle)]
  exact if_pos rfl

theorem evqHead_of_past {v : Nat} {s : State} (hon : s.evt.qEnable = true) (hv : evqN s ≤ v) :
    evqHead v s = raise 0x25 [(1, 0xFF), (1, 0x02)] (evqEnabled false s) := by
  simp only [evqHead, hon, if_pos hv]
  rfl

/-- EVQ_DROPPED is cleared (R421). -/
def droppedCleared (s : State) : State := { s with evt := { s.evt with dropped := 0 } }

theorem droppedCleared_fit {L : Nat} {s0 s : State} (hL : In 0x800 L) (h : Fit L s0 s) : Fit L s0 (droppedCleared s) :=
  Fit.upd_evt hL h rfl rfl

theorem exec_evqDroppedRead {s : State} (hup : s.cmd.up = true) : exec .evqDroppedRead s =
    .next (emit (.regRead 0x2214 (s.evt.dropped % 2 ^ 32)) (droppedCleared (hostTouch s))) :=
  congrArg Host.Outcome.next (hostAccess_up _ hup)

/-! ## The millisecond of a coalesced source (R420) -/

theorem evqWrite_counts (r : Rec) (s : State) : (evqWrite r s).evt.counts = s.evt.counts := by
  unfold evqWrite
  split
  · rfl
  split
  · simp
  · rfl

theorem post_counts (r : Rec) (s : State) : (post r s).evt.counts = s.evt.counts := by
  unfold post
  rw [evqWrite_counts]
  dsimp only
  split
  · rw [sendMsix_evt]
  · rfl

theorem logRec_counts (r : Rec) (s : State) : (logRec r s).2.evt.counts = s.evt.counts := rfl

theorem notifyFails_counts (s : State) : (notifyFails s).evt.counts = s.evt.counts := by
  unfold notifyFails
  split
  · rfl
  · exact (post_counts ..).trans (logRec_counts ..)

theorem deliver_counts (r : Rec) (s : State) : (deliver r s).evt.counts = s.evt.counts := by
  unfold deliver
  dsimp only
  split
  · split
    · rw [emit_evt]; exact post_counts ..
    · rw [notifyFails_counts, post_counts]
  · exact post_counts ..

theorem formRec_counts (r : Rec) (s : State) : (formRec r s).evt.counts = s.evt.counts := by
  unfold formRec
  dsimp only
  split
  · rw [deliver_counts]; exact logRec_counts ..
  · exact logRec_counts ..

theorem srcCount_setCount (c : SrcCount) (s : State) (src : Nat) :
    srcCount (setCount c s) src = if c.source = src then some c else srcCount s src := by
  show (c :: s.evt.counts.filter _).find? _ = _
  by_cases h : c.source = src
  · rw [if_pos h, List.find?_cons_of_pos (by simpa using h)]
  · rw [if_neg h, List.find?_cons_of_neg (by simpa using h), srcCount, List.find?_filter]
    congr 1
    funext x
    by_cases hx : x.source = src
    · subst hx; simp [Ne.symm h]
    · simp [hx]

/-- The count of a source whose millisecond has ended starts anew (R420 step 6). -/
theorem srcCount_coalesceEnd (c : SrcCount) (s : State) (src : Nat) : srcCount (coalesceEnd c s) src =
    if c.source = src then some { c with coalesced := c.coalesced && c.count > 64, count := 0, since := 0, ms := c.ms + 1 }
    else srcCount s src := by
  unfold coalesceEnd
  rw [srcCount_setCount]
  split
  · rfl
  · rw [srcCount, srcCount]
    split
    · rw [formRec_counts]
    · rfl

/-- A source's count stands at zero for a millisecond. -/
def CountFresh (src ms : Nat) (s : State) : Prop := ∃ d, srcCount s src = some d ∧ d.ms = ms ∧ d.count = 0

theorem countFresh_coalesceEnd {c : SrcCount} {s : State} {src : Nat} (h : c.source = src ∨ CountFresh src (c.ms + 1) s) :
    CountFresh src (c.ms + 1) (coalesceEnd c s) := by
  by_cases hc : c.source = src
  · exact ⟨_, (srcCount_coalesceEnd ..).trans (if_pos hc), rfl, rfl⟩
  · obtain ⟨d, hd, hms, hcount⟩ := h.resolve_left hc
    exact ⟨d, ((srcCount_coalesceEnd ..).trans (if_neg hc)).trans hd, hms, hcount⟩

/-- Every source that fired in the millisecond has a fresh count once it has ended. -/
theorem countFresh_foldl {l : List SrcCount} {ms src : Nat} (hl : ∀ x ∈ l, x.ms = ms) {s : State}
    (h : (∃ x ∈ l, x.source = src) ∨ CountFresh src (ms + 1) s) : CountFresh src (ms + 1) (l.foldl (fun s x => coalesceEnd x s) s) := by
  induction l generalizing s with
  | nil => exact h.resolve_left (by simp)
  | cons x r ih =>
    have hx : x.ms = ms := hl x List.mem_cons_self
    refine ih (fun y hy => hl y (List.mem_cons_of_mem _ hy)) ?_
    rcases h with ⟨y, hy, hsrc⟩ | h
    · rcases List.mem_cons.1 hy with rfl | hy
      · exact .inr (hx ▸ countFresh_coalesceEnd (.inl hsrc))
      · exact .inl ⟨y, hy, hsrc⟩
    · exact .inr (hx ▸ countFresh_coalesceEnd (.inr (hx ▸ h)))

/-- The sources that fired in millisecond `ms` and are coalesced. -/
def coalescedIn (ms : Nat) (s : State) : List SrcCount := s.evt.counts.filter (fun x => x.coalesced && x.ms == ms)

theorem exec_coalesceMsEnd {s : State} {c : SrcCount} {r : List SrcCount}
    (h : sortBy (fun (c : SrcCount) => c.ms) (s.evt.counts.filter (fun c => c.coalesced)) = c :: r) : exec .coalesceMsEnd s =
      .next ((coalescedIn c.ms (advanceMer ((c.ms + 1) * 1000000) s)).foldl (fun s x => coalesceEnd x s)
        (advanceMer ((c.ms + 1) * 1000000) s)) := by
  show execCoalesceMsEnd s = _
  rw [execCoalesceMsEnd, h]
  dsimp only [coalescedIn]
  rfl

theorem coalesceEnds_fit {L : Nat} {s0 s : State} (l : List SrcCount) (hL : In 0x800C02 L) (h : Fit L s0 s) :
    Fit L s0 (l.foldl (fun s x => coalesceEnd x s) s) := Fit.foldl h fun _ _ hx => coalesceEnd_fit hL hx

/-- Settles O18: a record, the event words, the queue's registers, and the end of a coalesced millisecond. -/
theorem eventRegisters : Obligations.EventRegisters := by
  refine ⟨fun r s => ⟨rfl, rfl, mem_out_emit .., logRec_keeps r s⟩, ?_, ?_, ?_, ?_, ?_, ?_, ?_, ?_⟩
  · intro word v s hup
    exact ⟨pendWrite word.val v.toNat (hostTouch s), congrArg Host.Outcome.next (hostAccess_up _ hup),
      fun n hn => pendWrite_testBit v.isLt hn _,
      (pendWrite_fit (L := 0xC00) (by decide) (hostTouch_fit (by decide) (Fit.refl _ s))).keeps (by decide)⟩
  · intro word v s hup
    refine ⟨maskWrite word.val v.toNat (hostTouch s), congrArg Host.Outcome.next (hostAccess_up _ hup), fun n => ?_, ?_,
      (maskWrite_fit (L := 0xC02) (by decide) (hostTouch_fit (by decide) (Fit.refl _ s))).keeps (by decide)⟩
    · rw [maskWrite_evt]; exact maskWith_testBit v.isLt ..
    · rw [maskWrite_evt]; rfl
  · intro v s hup hoff hen hsz
    exact ⟨_, (exec_evqCtlWrite hup).trans (congrArg Host.Outcome.next (evqCtl_of_off (s := hostTouch s) hoff hen hsz)),
      rfl, rfl, rfl, rfl, rfl,
      (evqStarted_fit (L := 0xC00) _ (by decide) (hostTouch_fit (by decide) (Fit.refl _ s))).keeps (by decide)⟩
  · intro v s hup hon hsz
    exact ⟨_, (exec_evqCtlWrite hup).trans (congrArg Host.Outcome.next (evqCtl_of_on (s := hostTouch s) hon hsz)), rfl, rfl,
      (evqEnabled_fit (L := 0xC00) _ (by decide) (hostTouch_fit (by decide) (Fit.refl _ s))).keeps (by decide)⟩
  · intro v s hup hon hv hle
    exact ⟨_, (exec_evqHead hup).trans (congrArg Host.Outcome.next (evqHead_of_good (s := hostTouch s) hon hv hle)), rfl, hon,
      (evqReleased_fit (L := 0xC00) _ (by decide) (hostTouch_fit (by decide) (Fit.refl _ s))).keeps (by decide)⟩
  · intro v s hup hon hv
    exact ⟨_, (exec_evqHead hup).trans (congrArg Host.Outcome.next (evqHead_of_past (s := hostTouch s) hon hv)), rfl,
      (evqEnabled_fit (L := 0xC00) _ (by decide) (hostTouch_fit (by decide) (Fit.refl _ s))).keeps (by decide)⟩
  · intro s hup
    exact ⟨_, exec_evqDroppedRead hup, mem_out_emit .., by rw [emit_evt]; rfl,
      (emit_fit (L := 0xC02) (by decide) (droppedCleared_fit (by decide) (hostTouch_fit (by decide) (Fit.refl _ s)))).keeps
        (by decide)⟩
  · intro s c r h
    have hc : c ∈ s.evt.counts.filter (fun c => c.coalesced) := by rw [← mem_sortBy (f := fun c : SrcCount => c.ms), h]; simp
    have hevt : (advanceMer ((c.ms + 1) * 1000000) s).evt = s.evt := advanceMer_evt ..
    have hmem : c ∈ coalescedIn c.ms (advanceMer ((c.ms + 1) * 1000000) s) := by
      rw [coalescedIn, hevt]
      obtain ⟨hin, hco⟩ := List.mem_filter.1 hc
      exact List.mem_filter.2 ⟨hin, by simpa using hco⟩
    have hfresh := countFresh_foldl (l := coalescedIn c.ms (advanceMer ((c.ms + 1) * 1000000) s)) (ms := c.ms)
      (fun x hx => by have h2 := (List.mem_filter.1 hx).2; simp at h2; exact h2.2) (.inl ⟨c, hmem, rfl⟩) (s := advanceMer ((c.ms + 1) * 1000000) s)
    obtain ⟨d, hd, hms, hcount⟩ := hfresh
    have htime := (coalesceEnds_fit (L := 0x800C02) (coalescedIn c.ms (advanceMer ((c.ms + 1) * 1000000) s)) (by decide)
      (Fit.refl _ (advanceMer ((c.ms + 1) * 1000000) s))).2 .time rfl
    refine ⟨_, d, exec_coalesceMsEnd h, ?_, hd, hms, hcount,
      (coalesceEnds_fit (L := 0x800C22) _ (by decide) (advanceMer_fit (by decide) (Fit.refl _ s))).keeps (by decide)⟩
    rw [merNs_congr htime]; exact le_merNs_advanceMer ..

/-! ## NOP, GET_INFO, PARAM_GET and PARAM_LIST (R412, R413) -/

/-- The pages of GET_INFO that exist answer OK (R412). -/
theorem infoPage_cases {page : Nat} {s : State} {v : Verdict} (h : infoPage page s = some v) : v.status = St.ok ∧
    (page = 0 → v.w0 = 0x5A4C9624 ∧ v.w1 % 2 ^ 8 = 0x41) ∧ (page = 2 → v.w0 = dmcCapacity s / 2 ^ 20) := by
  unfold infoPage at h
  split at h
  · rw [← Option.some.inj h]
    exact ⟨rfl, fun _ => ⟨rfl, by simp only [okay]; omega⟩, fun h2 => by omega⟩
  · rw [← Option.some.inj h]
    exact ⟨rfl, fun h0 => by omega, fun h2 => by omega⟩
  · rw [← Option.some.inj h]
    exact ⟨rfl, fun h0 => by omega, fun _ => rfl⟩
  · exact nomatch h

theorem exec_getInfo {h : Hdr} {p : GetInfoP} {s : State} (hs : served (rowGetInfo h p) s = true) :
    ∃ v, infoPage p.page.toNat (taken (rowGetInfo h p) s) = some v ∧
      exec (.getInfo h p) s = .next (finish h 0x0002 v (taken (rowGetInfo h p) s)) := by
  obtain ⟨-, hrest⟩ := firstOf_cons_eq_none.1 (chk_of_served hs)
  obtain ⟨hpage, -⟩ := firstOf_cons_eq_none.1 hrest
  have hsome : (infoPage p.page.toNat (taken (rowGetInfo h p) s)).isSome = true := by simp at hpage; exact hpage.2
  obtain ⟨v, hv⟩ := Option.isSome_iff_exists.1 hsome
  have hrun : ∀ x, infoPage p.page.toNat x = some v → (rowGetInfo h p).run x = finish h 0x0002 v x := by
    intro x hx; simp only [rowGetInfo, hx, Option.getD_some]
  exact ⟨v, hv, congrArg Host.Outcome.next ((command_of_served hs).trans (hrun _ hv))⟩

theorem takeVolts_holdup (v : HwdVolts) (s : State) : (takeVolts v s).hwd.holdupMv = v.holdup.toNat := rfl

theorem takeVolts_vaux (v : HwdVolts) (s : State) : (takeVolts v s).hwd.vauxMv = v.vaux.toNat := rfl

theorem taken_paramGet (h : Hdr) (p : ParamGetP) (v : HwdVolts) (s : State) :
    taken (rowParamGet h p v) s = takeVolts v (admitted (rowParamGet h p v) s) := rfl

theorem exec_paramGet {h : Hdr} {p : ParamGetP} {v : HwdVolts} {s : State} (hs : served (rowParamGet h p v) s = true) :
    ∃ d, pFind paramTable p.id.toNat = some d ∧ exec (.paramGet h p v) s =
      .next (finish h 0x0101 (okay (paramValue d (taken (rowParamGet h p v) s) % 2 ^ 32)
        (paramValue d (taken (rowParamGet h p v) s) / 2 ^ 32 % 2 ^ 32)
        (paramValue d (taken (rowParamGet h p v) s) / 2 ^ 64 % 2 ^ 32)) (taken (rowParamGet h p v) s)) := by
  obtain ⟨-, hrest⟩ := firstOf_cons_eq_none.1 (chk_of_served hs)
  obtain ⟨hid, -⟩ := firstOf_cons_eq_none.1 hrest
  have hsome : (pFind paramTable p.id.toNat).isSome = true := by simp at hid; exact hid.1
  obtain ⟨d, hd⟩ := Option.isSome_iff_exists.1 hsome
  have hrun : ∀ x, (rowParamGet h p v).run x = finish h 0x0101 (okay (paramValue d x % 2 ^ 32) (paramValue d x / 2 ^ 32 % 2 ^ 32)
      (paramValue d x / 2 ^ 64 % 2 ^ 32)) x := by
    intro x; simp only [rowParamGet, hd]
  exact ⟨d, hd, congrArg Host.Outcome.next ((command_of_served hs).trans (hrun _))⟩

/-- The parameters PARAM_LIST begins with (R412). -/
def listedFrom (p : ParamListP) : List PDesc := paramTable.filter (fun d => p.startId.toNat ≤ d.id)

/-- How many entries PARAM_LIST gives (R412). -/
def listCount (p : ParamListP) : Nat := if p.dest = 0 then 0 else min p.count.toNat (listedFrom p).length

/-- The ID a next PARAM_LIST begins with, after `n` of the parameters listed (R412). -/
def listNext (l : List PDesc) (n : Nat) : Nat := match l.drop n with | d :: _ => d.id | [] => 0xFFFFFFFF

theorem listNext_of_head {l : List PDesc} {n : Nat} {d : PDesc} (h : d ∈ (l.drop n).head?) : listNext l n = d.id := by
  rw [listNext]
  cases hl : l.drop n with
  | nil => rw [hl] at h; exact nomatch h
  | cons e r => rw [hl] at h; rw [← Option.some.inj h]

theorem listNext_of_length_le {l : List PDesc} {n : Nat} (h : l.length ≤ n) : listNext l n = 0xFFFFFFFF := by
  rw [listNext, List.drop_eq_nil_of_le h]

/-- The entries PARAM_LIST gives are written where they are asked for (R412). -/
def listed (p : ParamListP) (s : State) : State :=
  if p.dest = 0 then s
  else emit (.hostWrite p.dest.toNat (((listedFrom p).take (listCount p)).flatMap (fun d => paramEntry d s))) s

theorem runParamList_eq (h : Hdr) (p : ParamListP) (s : State) :
    runParamList h p s = finish h 0x0104 (okay (listCount p) (listNext (listedFrom p) (listCount p))) (listed p s) := rfl

theorem listCount_le (p : ParamListP) : listCount p ≤ p.count.toNat := by
  rw [listCount]
  split
  · exact Nat.zero_le _
  · exact Nat.min_le_left ..

theorem listed_fit {L : Nat} {s0 s : State} (p : ParamListP) (hL : In 0x402 L) (h : Fit L s0 s) : Fit L s0 (listed p s) :=
  Fit.ite (fun _ => h) (fun _ => emit_fit hL h)

theorem exec_paramList {h : Hdr} {p : ParamListP} {v : HwdVolts} {s : State} (hs : served (rowParamList h p v) s = true) :
    exec (.paramList h p v) s = .next (finish h 0x0104 (okay (listCount p) (listNext (listedFrom p) (listCount p)))
      (listed p (taken (rowParamList h p v) s))) := by
  have hrun : ∀ x, (rowParamList h p v).run x = _ := runParamList_eq h p
  exact congrArg Host.Outcome.next ((command_of_served hs).trans (hrun _))

/-- Settles O19: each command by what its row runs on the state it is taken in. -/
theorem infoAndParameters : Obligations.InfoAndParameters := by
  refine ⟨⟨fun h s hs => congrArg Host.Outcome.next (command_of_served hs), ?_⟩, ?_, ?_⟩
  · intro h p s hs
    obtain ⟨v, hv, hexec⟩ := exec_getInfo hs
    obtain ⟨hok, hzero, htwo⟩ := infoPage_cases hv
    refine ⟨v, hexec, hok, fun hp => hzero (by rw [hp]; rfl), fun hp => ?_⟩
    have hdmc : (taken (rowGetInfo h p) s).dmc = s.dmc :=
      (taken_fit_of_pre_id (L := 0x800600) (r := rowGetInfo h p) (by decide) rfl s).2 .dmc rfl
    rw [htwo (by rw [hp]; rfl), dmcCapacity, dmcCapacity, hdmc]
  · intro h p v s hs
    obtain ⟨d, hd, hexec⟩ := exec_paramGet hs
    refine ⟨d, _, hd, hexec, by rw [taken_paramGet, takeVolts_holdup], by rw [taken_paramGet, takeVolts_vaux], ?_⟩
    rw [taken_paramGet]
    exact (takeVolts_fit (L := 0x10800600) (by decide) (admitted_fit (by decide) (Fit.refl _ s))).keeps (by decide)
  · intro h p v s hs
    refine ⟨_, _, _, exec_paramList hs, listCount_le p, fun hdest => if_pos hdest, fun d hd => listNext_of_head hd,
      fun hlen => listNext_of_length_le hlen, ?_⟩
    exact (listed_fit (L := 0x10800602) p (by decide) (takeVolts_fit (by decide) (admitted_fit (by decide) (Fit.refl _ s)))).keeps
      (by decide)

end Sys2Proof.Machine
end

section
/-! PROOFS. The side-band port: datagrams and MCTP messages, the messages they carry, MCTP control and the link of SB_T1 (R410,
R411, R451, R452, R455). -/

namespace Sys2Proof.Machine

theorem CmdLike.sbReady {x y : CmdSt} (h : CmdLike x y) : y.sbReady = x.sbReady := by
  obtain ⟨a, b, c, rfl⟩ := h; rfl

/-! ## Side-band messages (R410, R411) -/

/-- A dropped message is counted (R410). -/
def dropCounted (s : State) : State := { s with cmd := { s.cmd with sbDropped := s.cmd.sbDropped + 1 } }

theorem sbIn_of_malformed {from_ : SbFrom} {n : Nat} {m : SbMsg} {s : State} (h : m.wellFormed = false) :
    sbIn from_ n m s = raise 0xDD [] (dropCounted s) := if_pos (by simp [h])

theorem sbIn_of_kept {from_ : SbFrom} {n : Nat} {m : SbMsg} {s : State} {r : Reply} (h : m.wellFormed = true)
    (hr : keptReply m s = some r) : sbIn from_ n m s = emit (.sbReply (some from_) false r) s := by
  rw [sbIn, if_neg (by simp [h]), hr]

/-- What a message does before it is taken: in Dormant it may wake the module (R300). -/
def wakenBy (n : Nat) (m : SbMsg) (s : State) : State := if dormantOps.contains m.opcode.toNat then s else wakeBy n s

theorem sbIn_of_new {from_ : SbFrom} {n : Nat} {m : SbMsg} {s : State} (h : m.wellFormed = true) (hr : keptReply m s = none)
    (hok : sbRefusal n m s = none) : sbIn from_ n m s = sbTake from_ m (wakenBy n m s) := by
  rw [sbIn, if_neg (by simp [h]), hr]
  dsimp only
  rw [hok]
  rfl

theorem wakeBy_sbReady (n : Nat) (s : State) : (wakeBy n s).cmd.sbReady = s.cmd.sbReady := by
  have hleave : (leaveDetached s).cmd.sbReady = s.cmd.sbReady :=
    congrArg CmdSt.sbReady ((leaveDetached_fit (L := 0x10000000) (by decide) (Fit.refl _ s)).2 .cmd rfl)
  unfold wakeBy
  split
  · rfl
  dsimp only
  split
  · exact hleave
  · exact (raise_cmdLike ..).sbReady.trans hleave

theorem wakenBy_sbReady (n : Nat) (m : SbMsg) (s : State) : (wakenBy n m s).cmd.sbReady = s.cmd.sbReady := by
  unfold wakenBy
  split
  · rfl
  · exact wakeBy_sbReady n s

theorem wakenBy_fit {L : Nat} {s0 s : State} (n : Nat) (m : SbMsg) (hL : In 0x10800C42 L) (h : Fit L s0 s) : Fit L s0 (wakenBy n m s) :=
  Fit.ite (fun _ => h) (fun _ => wakeBy_fit hL h)

/-- A message as it stands among those to be served (R410). -/
def sideMsg (m : SbMsg) : SbMsg := { m with h := { m.h with src := .side } }

/-- A message waits to be served, and its source is remembered (R410). -/
def sbQueued (from_ : SbFrom) (m : SbMsg) (s : State) : State :=
  { s with
    sbd := { s.sbd with from_ := s.sbd.from_ ++ [(keyOf (sideMsg m).h, from_)] }
    cmd := { s.cmd with sbReady := s.cmd.sbReady ++ [sideMsg m] } }

theorem sbTake_of_not_stray {from_ : SbFrom} {m : SbMsg} (s : State) (h : m.stray = false) : sbTake from_ m s = sbQueued from_ m s :=
  if_neg (by simp [h])

theorem sbQueued_fit {L : Nat} {s0 s : State} (from_ : SbFrom) (m : SbMsg) (hL : In 0x800400 L) (h : Fit L s0 s) :
    Fit L s0 (sbQueued from_ m s) := Fit.upd_cmd_sbd hL h rfl

theorem sbQueued_sbReady (from_ : SbFrom) (m : SbMsg) (s : State) : (sbQueued from_ m s).cmd.sbReady = s.cmd.sbReady ++ [sideMsg m] := rfl

/-! ## The two ports (R451, R452) -/

theorem exec_arp {target sender : U32} {mac : BitVec 48} {s : State} (hvaux : s.mode.vauxOn = true) (hup : s.sbd.up = true)
    (ht : target.toNat = pv s 0x1101) : exec (.sbT1Datagram (.arp target sender mac)) s =
      .next (emit (.sbArp (pv s 0x1101) (pv s 0x1100) ⟨true, sender.toNat, 0, mac.toNat⟩) s) := by
  refine congrArg Host.Outcome.next ((if_neg (by simp [hvaux, hup])).trans ?_)
  exact if_pos ht

theorem exec_udp {dstMac srcMac : BitVec 48} {dst : U32} {dstPort : U16} {m : SbMsg} {s : State} (hvaux : s.mode.vauxOn = true)
    (hup : s.sbd.up = true) (hmac : dstMac.toNat = pv s 0x1100) (hip : dst.toNat = pv s 0x1101) (hport : dstPort.toNat = pv s 0x1102) :
    exec (.sbT1Datagram (.udp dstMac srcMac dst dstPort m)) s =
      .next (sbIn ⟨true, m.addr.toNat, m.port.toNat, srcMac.toNat⟩ 0 m s) := by
  refine congrArg Host.Outcome.next ((if_neg (by simp [hvaux, hup])).trans ?_)
  exact if_pos ⟨hmac, hip, hport⟩

/-- A transfer to the module with a good PEC acts (R452). -/
theorem smbIn_of_good {f : SmbFrame} {s : State} (act : State → State) (hvaux : s.mode.vauxOn = true)
    (haddr : f.addr.toNat = pv s 0x1103) (hpec : f.pecOk = true) : smbIn f act s = act s := by
  rw [smbIn, if_neg (by simp [hvaux, haddr]), if_neg (by simp [hpec])]

/-- The endpoint ID is set (R452). -/
def eidSet (eid : Byte) (s : State) : State := { s with sbd := { s.sbd with eid := eid.toNat } }

/-- The link of SB_T1 (R455). -/
def linkSet (up : Bool) (s : State) : State := { s with sbd := { s.sbd with up := up } }

theorem linkSet_fit (up : Bool) (s : State) : Fit 0x800000 s (linkSet up s) := Fit.upd_sbd (by decide) (Fit.refl _ s)

theorem eidSet_fit (eid : Byte) (s : State) : Fit 0x800000 s (eidSet eid s) := Fit.upd_sbd (by decide) (Fit.refl _ s)

/-- Settles O17: each transfer by what the port does with it; a message by the case of R410 and R411 it falls under. -/
theorem sideBandPort : Obligations.SideBandPort := by
  refine ⟨?_, ?_, ?_, ?_, ?_, ?_, ?_, ?_, ?_, ?_, ?_⟩
  · intro sender target mac s hvaux hup ht
    exact ⟨_, exec_arp hvaux hup ht, mem_out_emit .., (emit_fit_of_not_host (L := 0x2) rfl (by decide) (Fit.refl _ s)).keeps (by decide)⟩
  · intro dstMac srcMac dst dstPort m s hvaux hup hmac hip hport
    exact exec_udp hvaux hup hmac hip hport
  · intro f m s hvaux haddr hpec
    exact congrArg Host.Outcome.next (smbIn_of_good _ hvaux haddr hpec)
  · intro from_ n m s h
    exact ⟨dropCounted s, sbIn_of_malformed h, rfl⟩
  · intro from_ n m s r h hr
    exact sbIn_of_kept h hr
  · intro from_ n m s h hr hok hstray
    rw [sbIn_of_new h hr hok, sbTake_of_not_stray _ hstray]
    refine ⟨sideMsg m, ?_, rfl, rfl,
      (sbQueued_fit (L := 0x10800C42) from_ m (by decide) (wakenBy_fit n m (by decide) (Fit.refl _ s))).keeps (by decide)⟩
    rw [sbQueued_sbReady, wakenBy_sbReady]
  · intro f op eid s hvaux haddr hpec hop hlo hhi
    refine ⟨eidSet eid s, congrArg Host.Outcome.next ((smbIn_of_good _ hvaux haddr hpec).trans ?_), rfl, (eidSet_fit eid s).keeps (by decide)⟩
    exact if_pos ⟨hop, hlo, hhi⟩
  · intro f s hvaux haddr hpec
    exact ⟨congrArg Host.Outcome.next (smbIn_of_good _ hvaux haddr hpec), congrArg Host.Outcome.next (smbIn_of_good _ hvaux haddr hpec)⟩
  · intro f type s hvaux haddr hpec
    refine congrArg Host.Outcome.next ((smbIn_of_good _ hvaux haddr hpec).trans ?_)
    by_cases ht : type = 0xFF ∨ type = 0x00 ∨ type = 0x7E
    · rw [if_pos ht, if_pos ht]
    · rw [if_neg ht, if_neg ht]
  · intro s hvaux hdown
    exact ⟨linkSet true s, congrArg Host.Outcome.next (if_neg (by simp [hvaux, hdown])), rfl, (linkSet_fit true s).keeps (by decide)⟩
  · intro s hup
    exact ⟨linkSet false s, congrArg Host.Outcome.next (if_neg (by simp [hup])), rfl, (linkSet_fit false s).keeps (by decide)⟩

end Sys2Proof.Machine
end

section
/-! PROOFS. Seating, the detach quiesce and the discrete inputs (R539, R542 to R547). -/

namespace Sys2Proof.Machine

/-! ## What the hardware state keeps over a quiesce (R545) -/

/-- A step that writes no hardware state keeps it. -/
theorem Fit.hwd_eq {L : Nat} {s t : State} (h : Fit L s t) (hL : L.testBit 28 = false) : t.hwd = s.hwd := h.2 .hwd hL

/-- A step that writes no mode keeps it. -/
theorem Fit.modeSt_eq {L : Nat} {s t : State} (h : Fit L s t) (hL : L.testBit 6 = false) : t.mode = s.mode := h.2 .mode hL

theorem quiesceStep_hwd (k : Nat) (q : Quiesce) (s : State) : (quiesceStep k q s).hwd = s.hwd :=
  (quiesceStep_fit (L := 0xFFFFE7E) (by decide) (Fit.refl _ s)).hwd_eq (by decide)

theorem quiesce7_hwd (q : Quiesce) (s : State) : (quiesce7 q s).hwd = s.hwd :=
  (quiesce7_fit (L := 0x9800C06) (by decide) (Fit.refl _ s)).hwd_eq (by decide)

/-- Step 8 before it keeps the length of the quiesce: the records it writes. -/
def flushRecords (t : Nat) (s : State) : State := nvOwn 0 0x11 0 (leBytes 4 t) (putSeated false (bumpCounter 3 (nvFlush s)))

theorem flushRecords_hwd (t : Nat) (s : State) : (flushRecords t s).hwd = s.hwd :=
  (nvOwn_fit (L := 0x1800C02) (by decide) (putSeated_fit (by decide) (bumpCounter_fit (by decide) (nvFlush_fit (by decide)
    (Fit.refl _ s))))).hwd_eq (by decide)

theorem quiesce8_eq (q : Quiesce) (s : State) :
    quiesce8 q s = onHwd (fun w => { w with
      lastQuiesce := (s.time.ref - q.since) / 1000, forcedCount := w.forcedCount + b2n (q.forced != 0) })
      (flushRecords ((s.time.ref - q.since) / 1000) s) := by
  unfold quiesce8 flushRecords
  rfl

theorem quiesce8_det (q : Quiesce) (s : State) : (quiesce8 q s).hwd.det = s.hwd.det := by
  rw [quiesce8_eq, onHwd_hwd, flushRecords_hwd]

theorem quiesce9_hwd (s : State) : (quiesce9 s).hwd = s.hwd :=
  (quiesce9_fit (L := 0xE7FFFF8) (by decide) (Fit.refl _ s)).hwd_eq (by decide)

theorem quiesce9_dormant (s : State) : (quiesce9 s).mode.mode = .dormant := by
  rw [quiesce9]
  split
  · assumption
  · rfl

/-- The state a finished quiesce leaves (R545): Dormant, detached, SAFE_N asserted. -/
structure Detached (t : State) : Prop where
  detached : t.hwd.detached = true
  safe : t.hwd.safe = true
  ended : t.hwd.quiesce = none
  dormant : t.mode.mode = .dormant

theorem quiesce10_detached {s : State} (h : s.mode.mode = .dormant) : Detached (quiesce10 s) := ⟨rfl, rfl, rfl, h⟩

theorem quiesce10_det (s : State) : (quiesce10 s).hwd.det = s.hwd.det := rfl

theorem quiesceEnd_detached (q : Quiesce) (s : State) : Detached (quiesceEnd q s) := by
  rw [quiesceEnd]
  exact quiesce10_detached (quiesce9_dormant _)

theorem quiesceEnd_det (q : Quiesce) (s : State) : (quiesceEnd q s).hwd.det = s.hwd.det := by
  rw [quiesceEnd, quiesce10_det, quiesce9_hwd, quiesce8_det, quiesce7_hwd, advanceRef_hwd]

/-- With no step that hangs, the steps run to the end. -/
theorem quiesceRun_detached (ks : List Nat) (q : Quiesce) (s : State) : Detached (quiesceRun none ks q s) := by
  induction ks generalizing s with
  | nil => exact quiesceEnd_detached q s
  | cons k ks ih => exact ih _

theorem quiesceRun_det (ks : List Nat) (q : Quiesce) (s : State) : (quiesceRun none ks q s).hwd.det = s.hwd.det := by
  induction ks generalizing s with
  | nil => exact quiesceEnd_det q s
  | cons k ks ih => exact (ih _).trans (congrArg HwdSt.det (quiesceStep_hwd k q s))

/-- A step that hangs holds the quiesce there. -/
theorem quiesceRun_stalled {k : Nat} {ks : List Nat} (hk : k ∈ ks) (q : Quiesce) (s : State) :
    (quiesceRun (some k) ks q s).hwd = { s.hwd with quiesce := some { q with step := k } } := by
  induction ks generalizing s with
  | nil => exact absurd hk List.not_mem_nil
  | cons j ks ih =>
    by_cases hj : j = k
    · subst hj
      rw [quiesceRun, if_pos rfl]; rfl
    · rw [quiesceRun, if_neg (fun h => hj (Option.some.inj h).symm), ih ((List.mem_cons.1 hk).resolve_left (Ne.symm hj)),
        quiesceStep_hwd]

/-! ## The start of the quiesce (R544) -/

/-- The record of a quiesce as it starts. -/
def quiesceRecord (source reason took : Nat) (cmd : Option Hdr) (s : State) : Quiesce :=
  let r := raise 0x08 [(1, source), (1, reason), (1, modeNum s.mode.mode)] s
  ⟨r.time.ref, source, 0, 0, cmd, r.evt.evseq, false, took⟩

/-- The quiesce is said and recorded. -/
def quiesceSaid (source reason took : Nat) (cmd : Option Hdr) (s : State) : State :=
  onMode (fun m => { m with waking := none, wakeHeld := 0 })
    (onHwd (fun w => { w with quiesce := some (quiesceRecord source reason took cmd s) })
      (raise 0x08 [(1, source), (1, reason), (1, modeNum s.mode.mode)] s))

/-- The commands kept waiting. -/
def waitingPackets (s : State) : List (Hdr × Nat) := (s.cmd.waits.filter (fun w => w.seqExp.isSome)).map (fun w => (w.h, w.opcode))

/-- No command waits any more. -/
def noWaits (s : State) : State := { s with cmd := { s.cmd with waits := [] } }

theorem noWaits_fit {L : Nat} {s0 s : State} (hL : In 0x400 L) (h0 : Fit L s0 s) : Fit L s0 (noWaits s) := Fit.upd_cmd hL h0 rfl

/-- Packets not yet accepted end ABORTED_DETACH. -/
def quiesceBegun (source reason took : Nat) (cmd : Option Hdr) (s : State) : State :=
  let x := quiesceSaid source reason took cmd s
  finishAll (waitingPackets x) (no St.abortedDetach) (noWaits x)

theorem quiesceBegun_fit (source reason took : Nat) (cmd : Option Hdr) (s : State) :
    Fit 0x800E02 (quiesceSaid source reason took cmd s) (quiesceBegun source reason took cmd s) :=
  finishAll_fit (by decide) (noWaits_fit (by decide) (Fit.refl _ _))

theorem quiesceStart_eq (source reason : Nat) (cmd : Option Hdr) (stall : Option Nat) (took : Nat) {s : State}
    (h : s.hwd.quiesce = none) :
    quiesceStart source reason cmd stall took s =
      if (quiesceBegun source reason took cmd s).mode.mode = .dormant then
        quiesceEnd (quiesceRecord source reason took cmd s) (quiesceBegun source reason took cmd s)
      else quiesceRun stall [2, 3, 4, 5, 6] (quiesceRecord source reason took cmd s)
        (endSched St.abortedDetach (quiesceBegun source reason took cmd s)) := by
  rw [quiesceStart, if_neg (by simp [quiescing, h])]
  rfl

theorem quiesceSaid_mode (source reason took : Nat) (cmd : Option Hdr) (s : State) :
    (quiesceSaid source reason took cmd s).mode.mode = s.mode.mode := by
  show (raise _ _ s).mode.mode = _
  rw [(raise_fit (L := 0x800C02) (by decide) (Fit.refl _ s)).modeSt_eq (by decide)]

theorem quiesceSaid_hwd (source reason took : Nat) (cmd : Option Hdr) (s : State) :
    (quiesceSaid source reason took cmd s).hwd = { s.hwd with quiesce := some (quiesceRecord source reason took cmd s) } :=
  congrArg (fun w : HwdSt => { w with quiesce := some (quiesceRecord source reason took cmd s) })
    ((raise_fit (L := 0x800C02) (by decide) (Fit.refl _ s)).hwd_eq (by decide))

theorem quiesceBegun_mode (source reason took : Nat) (cmd : Option Hdr) (s : State) :
    (quiesceBegun source reason took cmd s).mode.mode = s.mode.mode := by
  rw [(quiesceBegun_fit source reason took cmd s).modeSt_eq (by decide), quiesceSaid_mode]

theorem endSched_hwd (st : Nat) (s : State) : (endSched st s).hwd = s.hwd :=
  (endSched_fit (L := 0x800E02) (by decide) (Fit.refl _ s)).hwd_eq (by decide)

/-- With no step that hangs, a quiesce that starts ends. -/
theorem quiesceStart_detached (source reason : Nat) (cmd : Option Hdr) (took : Nat) {s : State} (h : s.hwd.quiesce = none) :
    Detached (quiesceStart source reason cmd none took s) := by
  rw [quiesceStart_eq _ _ _ _ _ h]
  split
  · exact quiesceEnd_detached ..
  · exact quiesceRun_detached ..

theorem quiesceStart_det (source reason : Nat) (cmd : Option Hdr) (took : Nat) {s : State} (h : s.hwd.quiesce = none) :
    (quiesceStart source reason cmd none took s).hwd.det = s.hwd.det := by
  have hbegun : (quiesceBegun source reason took cmd s).hwd.det = s.hwd.det := by
    rw [(quiesceBegun_fit ..).hwd_eq (by decide), quiesceSaid_hwd]
  rw [quiesceStart_eq _ _ _ _ _ h]
  split
  · rw [quiesceEnd_det, hbegun]
  · rw [quiesceRun_det, endSched_hwd, hbegun]

/-- Outside Dormant a step that hangs holds the quiesce. -/
theorem quiesceStart_stalled (source reason : Nat) (cmd : Option Hdr) (k : Fin 5) (took : Nat) {s : State}
    (h : s.hwd.quiesce = none) (hm : s.mode.mode ≠ .dormant) :
    (quiesceStart source reason cmd (some (k.val + 2)) took s).hwd =
      { s.hwd with quiesce := some { quiesceRecord source reason took cmd s with step := k.val + 2 } } := by
  have hk : k.val + 2 ∈ [2, 3, 4, 5, 6] := by revert k; decide
  rw [quiesceStart_eq _ _ _ _ _ h, if_neg (by rwa [quiesceBegun_mode]), quiesceRun_stalled hk, endSched_hwd,
    (quiesceBegun_fit ..).hwd_eq (by decide), quiesceSaid_hwd]

/-- With no step that hangs, a step ended by force ends the quiesce (R546). -/
theorem quiesceForce_detached {s : State} {q : Quiesce} (h : s.hwd.quiesce = some q) (hstep : 2 ≤ q.step) :
    Detached (quiesceForce none s) := by
  rw [quiesceForce, h]
  dsimp only
  rw [if_neg (Nat.not_lt.2 hstep)]
  exact quiesceRun_detached ..

/-! ## Accepted edges (R539) -/

/-- Counting the extra edges of DETACH_REQ_N changes nothing but its count and when it was said. -/
theorem bounced_det (n : Nat) (s : State) :
    ∃ b t, (bounced 0 n s.hwd.det setDet s).hwd = { s.hwd with det := { s.hwd.det with bounces := b, said := t } } := by
  rw [bounced]
  split
  · exact ⟨_, _, rfl⟩
  dsimp only
  split
  · exact ⟨_, _, rfl⟩
  · exact ⟨_, _, (raise_fit (L := 0x800C02) (by decide) (Fit.refl _ _)).hwd_eq (by decide)⟩

theorem bounced_mrst (n : Nat) (s : State) :
    ∃ b t, (bounced 1 n s.hwd.mrst setMrst s).hwd = { s.hwd with mrst := { s.hwd.mrst with bounces := b, said := t } } := by
  rw [bounced]
  split
  · exact ⟨_, _, rfl⟩
  dsimp only
  split
  · exact ⟨_, _, rfl⟩
  · exact ⟨_, _, (raise_fit (L := 0x800C02) (by decide) (Fit.refl _ _)).hwd_eq (by decide)⟩

/-- An accepted edge of DETACH_REQ_N sets its level and nothing else of the hardware but the input's own counts. -/
theorem acceptDet_hwd (n : Nat) (level : Bool) (s : State) :
    ∃ d, (acceptDet n level s).hwd = { s.hwd with det := d } ∧ d.on = level ∧ d.masked = s.hwd.det.masked := by
  obtain ⟨b, t, hb⟩ := bounced_det n s
  rw [acceptDet, setDet]
  dsimp only
  rw [onHwd_hwd, advanceRef_hwd, hb]
  exact ⟨_, rfl, rfl, rfl⟩

theorem acceptMrst_hwd (n : Nat) (level : Bool) (s : State) :
    ∃ d, (acceptMrst n level s).hwd = { s.hwd with mrst := d } ∧ d.on = level ∧ d.masked = s.hwd.mrst.masked := by
  obtain ⟨b, t, hb⟩ := bounced_mrst n s
  rw [acceptMrst, setMrst]
  dsimp only
  rw [onHwd_hwd, advanceRef_hwd, hb]
  exact ⟨_, rfl, rfl, rfl⟩

theorem acceptDet_mode (n : Nat) (level : Bool) (s : State) : (acceptDet n level s).mode = s.mode :=
  (acceptDet_fit (L := 0x10800C22) (by decide) (Fit.refl _ s)).modeSt_eq (by decide)

theorem acceptMrst_mode (n : Nat) (level : Bool) (s : State) : (acceptMrst n level s).mode = s.mode :=
  (acceptMrst_fit (L := 0x10800C22) (by decide) (Fit.refl _ s)).modeSt_eq (by decide)

/-- The end of the detached state changes no input. -/
theorem detachedEnd_det (s : State) : (detachedEnd s).hwd.det = s.hwd.det := by
  rw [detachedEnd]
  split
  · rfl
  dsimp only
  split <;> rfl

theorem detachedEnd_detached (s : State) : (detachedEnd s).hwd.detached = false := by
  rw [detachedEnd]
  split
  · simpa using ‹(!s.hwd.detached) = true›
  dsimp only
  split <;> rfl

theorem detachedEnd_safe {s : State} (h : s.hwd.detached = true) : (detachedEnd s).hwd.safe = false := by
  rw [detachedEnd, if_neg (by simp [h])]
  dsimp only
  split <;> rfl

/-! ## Seating and detaching -/

theorem exec_detachReqAssert (edges : Nat) (stall : Option (Fin 5)) (took : Nat) {s : State} (hv : s.mode.vauxOn = true)
    (hon : s.hwd.det.on = false) (hm : s.hwd.det.masked = false) (hseat : s.hwd.seating = false) (hdet : s.hwd.detached = false) :
    exec (.detachReqAssert edges stall took) s = .next (quiesceStart 1 0 none (stepNo stall) took (acceptDet edges true s)) := by
  obtain ⟨d, hd, -, -⟩ := acceptDet_hwd edges true s
  refine congrArg Host.Outcome.next ((if_neg (by simp [hv, hon, hm])).trans (if_neg ?_))
  rw [hd]
  simp [hseat, hdet]

/-- The state in which a quiesce finds the hardware after an accepted assertion. -/
theorem acceptDet_quiesce (n : Nat) (level : Bool) (s : State) : (acceptDet n level s).hwd.quiesce = s.hwd.quiesce := by
  obtain ⟨d, hd, -, -⟩ := acceptDet_hwd n level s
  rw [hd]

/-- What VAUX power good does before the module is seated (R543, R465). -/
def vauxScanned (found : List (Nat × NvFound)) (s : State) : State :=
  horizonFromNv (nvScan found (onMode (fun m => { m with vauxOn := true }) s))

theorem vauxScanned_fit (found : List (Nat × NvFound)) (s : State) :
    Fit 0x19802C0A (onMode (fun m => { m with vauxOn := true }) s) (vauxScanned found s) :=
  horizonFromNv_fit (by decide) (nvScan_fit (by decide) (Fit.refl _ _))

theorem taken_hwd_of_pre_id {r : Row} (h : r.pre = id) (s : State) : (taken r s).hwd = s.hwd :=
  (taken_fit_of_pre_id (L := 0x800600) (by decide) h s).hwd_eq (by decide)

theorem seat_present (s : State) : (seat s).hwd.present = true ∧ (seat s).hwd.seating = true := by
  rw [seat, onHwd_hwd]
  exact ⟨rfl, rfl⟩

/-- A packet is served outside a quiesce (R545). -/
theorem quiesce_none_of_served {r : Row} {s : State} (h : served r s = true) : s.hwd.quiesce = none := by
  simp only [served, Bool.and_eq_true] at h
  exact Option.isNone_iff_eq_none.1 h.1.1.1.1.2

theorem acceptDet_on (n : Nat) (level : Bool) (s : State) : (acceptDet n level s).hwd.det.on = level := by
  obtain ⟨d, hd, hon, -⟩ := acceptDet_hwd n level s
  rw [hd, ← hon]

/-- Settles O30: the quiesce by the state its end leaves, an edge by what it leaves of the hardware. -/
theorem seatingAndDetaching : Obligations.SeatingAndDetaching := by
  refine ⟨fun found s hp => ?_, fun edges took s hv hon hm hseat hdet hq => ?_, fun edges k took s hv hon hm hseat hdet hq hmode => ?_,
    fun q s hq hstep => ?_, fun h p took s hs => ?_, fun edges s hv hon hm => ?_⟩
  · have hfit : Fit 0x19802C0A (onMode (fun m => { m with vauxOn := true }) s) (seat (vauxScanned found s)) :=
      seat_fit (by decide) (vauxScanned_fit found s)
    have hmode : (seat (vauxScanned found s)).mode = { s.mode with vauxOn := true } := hfit.modeSt_eq (by decide)
    have hmem : (seat (vauxScanned found s)).mem = s.mem := hfit.2 .mem (by decide)
    have hexec : exec (.vauxPowerGood found) s = .next (seat (vauxScanned found s)) :=
      congrArg Host.Outcome.next (if_neg (by simp [hp]))
    obtain ⟨hpresent, hseating⟩ := seat_present (vauxScanned found s)
    exact ⟨_, hexec, hpresent, hseating, by rw [hmode], by rw [hmode], hmem⟩
  · have hq' := (acceptDet_quiesce edges true s).trans hq
    obtain ⟨hd, hsafe, hended, hdorm⟩ := quiesceStart_detached 1 0 none took hq'
    refine ⟨_, exec_detachReqAssert edges none took hv hon hm hseat hdet, hd, hsafe, hended, ?_, hdorm⟩
    exact (congrArg Input.on (quiesceStart_det 1 0 none took hq')).trans (acceptDet_on ..)
  · have hq' := (acceptDet_quiesce edges true s).trans hq
    have hstall := quiesceStart_stalled 1 0 none k took hq' (by rwa [acceptDet_mode])
    obtain ⟨d, hd, -, -⟩ := acceptDet_hwd edges true s
    refine ⟨_, _, exec_detachReqAssert edges (some k) took hv hon hm hseat hdet, congrArg HwdSt.quiesce hstall, rfl, ?_⟩
    exact (congrArg HwdSt.detached hstall).trans ((congrArg HwdSt.detached hd).trans hdet)
  · obtain ⟨hd, hsafe, hended, hdorm⟩ := quiesceForce_detached hq hstep
    exact ⟨_, rfl, hd, hsafe, hended, hdorm⟩
  · have hq : ((accepted h 0x0009 0 (taken (rowDetachPrepare h p none took) s)).hwd).quiesce = none := by
      rw [accepted_hwd, taken_hwd_of_pre_id rfl, quiesce_none_of_served hs]
    obtain ⟨hd, hsafe, hended, hdorm⟩ := quiesceStart_detached (masterCode (masterOf h.src) + 1) p.reason.toNat (some h) took hq
    have hrun : ∀ x, (rowDetachPrepare h p none took).run x =
      quiesceStart (masterCode (masterOf h.src) + 1) p.reason.toNat (some h) none took (accepted h 0x0009 0 x) := fun _ => rfl
    exact ⟨_, congrArg Host.Outcome.next ((command_of_served hs).trans (hrun _)), hd, hsafe, hended, hdorm⟩
  · refine ⟨_, congrArg Host.Outcome.next (if_neg (by simp [hv, hon, hm])), ?_, fun hdet => ⟨detachedEnd_detached _, detachedEnd_safe ?_⟩⟩
    · rw [detachedEnd_det, acceptDet_on]
    · obtain ⟨d, hd, -, -⟩ := acceptDet_hwd edges false s
      rw [hd]; exact hdet

/-! ## MRST_N and inputs that stay asserted (R539, R542) -/

theorem acceptMrst_on (n : Nat) (level : Bool) (s : State) : (acceptMrst n level s).hwd.mrst.on = level := by
  obtain ⟨d, hd, hon, -⟩ := acceptMrst_hwd n level s
  rw [hd, ← hon]

theorem exec_mrstAssert_of_dormant (edges : Nat) {s : State} (hv : s.mode.vauxOn = true) (hon : s.hwd.mrst.on = false)
    (hm : s.hwd.mrst.masked = false) (hmode : s.mode.mode = .dormant) :
    exec (.mrstAssert edges) s = .next (onHwd (fun w => { w with ignored := w.ignored + 1 }) (acceptMrst edges true s)) := by
  refine congrArg Host.Outcome.next ((if_neg (by simp [hv, hon, hm])).trans (if_pos (Or.inl ?_)))
  rw [acceptMrst_mode, hmode]

theorem exec_mrstAssert_of_active (edges : Nat) {s : State} (hv : s.mode.vauxOn = true) (hon : s.hwd.mrst.on = false)
    (hm : s.hwd.mrst.masked = false) (hmode : s.mode.mode ≠ .dormant) (hq : s.hwd.quiesce = none) (hd : s.hwd.detached = false) :
    exec (.mrstAssert edges) s = .next (plainReset false (raise 0x0E [] (acceptMrst edges true s))) := by
  refine congrArg Host.Outcome.next ((if_neg (by simp [hv, hon, hm])).trans (if_neg ?_))
  obtain ⟨d, hd', -, -⟩ := acceptMrst_hwd edges true s
  rw [acceptMrst_mode, quiescing, hd']
  simp [hmode, hq, hd]

theorem endRecov_hwd (r : Recov) (outcome esc : Nat) (s : State) : (endRecov r outcome esc s).hwd = s.hwd :=
  (endRecov_fit (L := 0x800E02) (by decide) (Fit.refl _ s)).hwd_eq (by decide)

theorem levelEnd_hwd (r : Recov) (success : Bool) (t : ThmRead) (s : State) : (levelEnd r success t s).hwd = s.hwd :=
  (levelEnd_fit (L := 0xFFFFFFE) (by decide) (Fit.refl _ s)).hwd_eq (by decide)

/-- A release starts the main domain as the end of the L3 that runs, if one does (R542). -/
def releasedReset (t : ThmRead) (s : State) : State :=
  match s.evt.recs.find? (fun r => r.level == 3 && r.running) with
  | some r => endRecov r 1 0 (levelEnd r true t s)
  | none => s

theorem releasedReset_hwd (t : ThmRead) (s : State) : (releasedReset t s).hwd = s.hwd := by
  rw [releasedReset]
  split
  · rw [endRecov_hwd, levelEnd_hwd]
  · rfl

theorem exec_mrstRelease (edges : Nat) (r : ThmRead) {s : State} (hv : s.mode.vauxOn = true) (hon : s.hwd.mrst.on = true)
    (hm : s.hwd.mrst.masked = false) : exec (.mrstRelease edges r) s = .next (releasedReset r (acceptMrst edges false s)) :=
  congrArg Host.Outcome.next (if_neg (by simp [hv, hon, hm]))

theorem raise_hwd_eq (code : Nat) (pay : List (Nat × Nat)) (s : State) : (raise code pay s).hwd = s.hwd :=
  (raise_fit (L := 0x800C02) (by decide) (Fit.refl _ s)).hwd_eq (by decide)

/-- DETACH_REQ_N is masked at an instant. -/
def detMaskedAt (t : Nat) (s : State) : State := setDet { (advanceRef t s).hwd.det with masked := true } (advanceRef t s)

theorem detMaskedAt_det (t : Nat) (s : State) : (detMaskedAt t s).hwd.det.masked = true := by
  rw [detMaskedAt, setDet, onHwd_hwd]

/-- The instant DETACH_REQ_N is masked from: 600 s after its edge and after SAFE_N. -/
def detMaskInstant (s : State) : Nat := max (s.hwd.det.edge.getD 0) s.hwd.safeAt + 600 * nsPerSec

theorem detStuck_of_asserted {s : State} (hd : detAsserted s = true) (hs : s.hwd.safe = true) :
    detStuck s = detachedEnd (raise 0x0C [(1, 0)] (detMaskedAt (detMaskInstant s) s)) := by
  unfold detMaskedAt detMaskInstant
  exact if_neg (by simp [hd, hs])

/-- DETACH_REQ_N that stays asserted is masked, and the detached state ends (R539, R547). -/
theorem detStuck_masked {s : State} (hd : detAsserted s = true) (hs : s.hwd.safe = true) :
    (detStuck s).hwd.det.masked = true ∧ (detStuck s).hwd.detached = false := by
  rw [detStuck_of_asserted hd hs]
  refine ⟨?_, detachedEnd_detached _⟩
  rw [detachedEnd_det, raise_hwd_eq, detMaskedAt_det]

theorem setMrst_time (i : Input) (s : State) : (setMrst i s).time = s.time := rfl

theorem raise_time_eq (code : Nat) (pay : List (Nat × Nat)) (s : State) : (raise code pay s).time = s.time :=
  (raise_fit (L := 0x800C02) (by decide) (Fit.refl _ s)).2 .time (by decide)

/-- MRST_N is masked at an instant. -/
def mrstMaskedAt (t : Nat) (s : State) : State := setMrst { (advanceRef t s).hwd.mrst with masked := true } (advanceRef t s)

theorem mrstMaskedAt_mrst (t : Nat) (s : State) : (mrstMaskedAt t s).hwd.mrst.masked = true := by
  rw [mrstMaskedAt, setMrst, onHwd_hwd]

theorem le_ref_mrstMaskedAt (t : Nat) (s : State) : t ≤ (mrstMaskedAt t s).time.ref := by
  rw [mrstMaskedAt, setMrst_time]
  exact le_ref_advanceRef ..

/-- The instant MRST_N is masked from: 10 s after its edge. -/
def mrstMaskInstant (s : State) : Nat := s.hwd.mrst.edge.getD 0 + 10 * nsPerSec

theorem mrstStuck_of_asserted {s : State} (hm : mrstAsserted s = true) :
    mrstStuck s = raise 0x0C [(1, 1)] (mrstMaskedAt (mrstMaskInstant s) s) := by
  unfold mrstMaskedAt mrstMaskInstant
  exact if_neg (by simp [hm])

/-- MRST_N that stays low for 10 s is masked (R539). -/
theorem mrstStuck_masked {s : State} (hm : mrstAsserted s = true) :
    (mrstStuck s).hwd.mrst.masked = true ∧ mrstMaskInstant s ≤ (mrstStuck s).time.ref := by
  rw [mrstStuck_of_asserted hm]
  refine ⟨?_, ?_⟩
  · rw [raise_hwd_eq, mrstMaskedAt_mrst]
  · rw [raise_time_eq]
    exact le_ref_mrstMaskedAt ..

/-- The presence input of a camera that stays asserted for 5 s is masked. -/
def camPresMasked (c : Nat) (s : State) : State :=
  onPort c (fun p => { p with presMasked := true })
    (advanceRef (max (portOf c s).presAt ((portOf c s).drops.headD 0) + 5 * nsPerSec) s)

theorem camStuck_of_asserted {c : Nat} {s : State} (hc : (portOf c s).camera = true) (hm : (portOf c s).presMasked = false)
    (hg : (portOf c s).gear = none) : camStuck c s = raise 0x0C [(1, 0x10 + c)] (camPresMasked c s) :=
  if_neg (by simp [hc, hm, hg])

theorem advanceRef_cam_eq (r : Nat) (s : State) : (advanceRef r s).cam = s.cam :=
  (advanceRef_fit (L := 0x20) (by decide) (Fit.refl _ s)).2 .cam (by decide)

theorem camPresMasked_port {c : Nat} {s : State} (h : c < s.cam.ports.length) :
    (portOf c (camPresMasked c s)).presMasked = true := by
  rw [camPresMasked, portOf_onPort_self _ (by rwa [advanceRef_cam_eq])]

/-- An input that stays asserted is judged while VAUX is on. -/
theorem exec_hwdInputStuck (input : HwdInput) {s : State} (hv : s.mode.vauxOn = true) :
    exec (.hwdInputStuck input) s = .next (match input with
      | .detach => detStuck s
      | .mrst => mrstStuck s
      | .camera c => camStuck c.val s) := by
  refine congrArg Host.Outcome.next ((if_neg (by simp [hv])).trans ?_)
  cases input <;> rfl

/-- Settles O31: an accepted edge, then what each input does. -/
theorem inputs : Obligations.Inputs := by
  refine ⟨fun edges s hv hon hm hmode => ?_, fun edges s hv hon hm hmode hq hd => ?_, fun edges r s hv hon hm => ?_,
    fun s hv hd hs => ?_, fun s hv hm => ?_, fun c s hv hlt hc hm hg => ?_⟩
  · refine ⟨_, exec_mrstAssert_of_dormant edges hv hon hm hmode, ?_, ?_, acceptMrst_mode edges true s⟩
    · rw [onHwd_hwd]; exact acceptMrst_on ..
    · obtain ⟨d, hd, -, -⟩ := acceptMrst_hwd edges true s
      rw [onHwd_hwd, hd]
  · exact ⟨_, exec_mrstAssert_of_active edges hv hon hm hmode hq hd, acceptMrst_on .., acceptMrst_mode ..⟩
  · refine ⟨_, exec_mrstRelease edges r hv hon hm, ?_⟩
    rw [releasedReset_hwd, acceptMrst_on]
  · exact ⟨_, exec_hwdInputStuck .detach hv, detStuck_masked hd hs⟩
  · exact ⟨_, exec_hwdInputStuck .mrst hv, mrstStuck_masked hm⟩
  · refine ⟨_, (exec_hwdInputStuck (.camera c) hv).trans (congrArg Host.Outcome.next (camStuck_of_asserted hc hm hg)),
      camPresMasked_port hlt, ?_⟩
    exact (onPort_fit (L := 0x20020) (by decide) (advanceRef_fit (by decide) (Fit.refl _ s))).keeps (by decide)

end Sys2Proof.Machine
end

section
/-! PROOFS. RESET_LEVEL, the start and end of recoveries, DIAG_CAPTURE (R429, R431, R433, R434). -/

namespace Sys2Proof.Machine

theorem taken_evt_of_pre_id {r : Row} (h : r.pre = id) (s : State) : (taken r s).evt = s.evt :=
  (taken_fit_of_pre_id (L := 0x800600) (by decide) h s).2 .evt (by decide)

theorem finish_hwd_eq (h : Hdr) (op : Nat) (v : Verdict) (s : State) : (finish h op v s).hwd = s.hwd :=
  (finish_fit (L := 0x800E02) (by decide) (Fit.refl _ s)).hwd_eq (by decide)

/-- RESET_LEVEL at LEVEL 3 is answered with its RSEQ, then decided (R433). -/
theorem exec_resetLevel3 {h : Hdr} {p : ResetLevelP} {s : State} (hs : served (rowResetLevel3 h p) s = true) :
    exec (.resetLevel3 h p) s = .next (decideRecov 0x31 3 (some 0x00) [] 0 .escalation none (p.flags.toNat.testBit 0)
      (finish h 0x000A (okay ((s.evt.rseq + 1) % 2 ^ 32)) (taken (rowResetLevel3 h p) s))) := by
  have hrun : ∀ x, (rowResetLevel3 h p).run x = decideRecov 0x31 3 (some 0x00) [] 0 .escalation none (p.flags.toNat.testBit 0)
      (finish h 0x000A (okay ((x.evt.rseq + 1) % 2 ^ 32)) x) := fun _ => rfl
  rw [← taken_evt_of_pre_id (r := rowResetLevel3 h p) rfl s]
  exact congrArg Host.Outcome.next ((command_of_served hs).trans (hrun _))

/-- RESET_LEVEL at LEVEL 4 is answered, then the module is held safe (R433). -/
theorem exec_resetLevel4 {h : Hdr} {p : ResetLevelP} {s : State} (hs : served (rowResetLevel4 h p) s = true) :
    exec (.resetLevel4 h p) s = .next (decideRecov 0x31 4 none [] 0 .request none false
      (finish h 0x000A (okay) (taken (rowResetLevel4 h p) s))) := by
  have hrun : ∀ x, (rowResetLevel4 h p).run x = decideRecov 0x31 4 none [] 0 .request none false (finish h 0x000A (okay) x) :=
    fun _ => rfl
  exact congrArg Host.Outcome.next ((command_of_served hs).trans (hrun _))

theorem exec_recoveryStart {rseq : U32} {s : State} {r : Recov} (hr : s.evt.recs.find? (fun r => r.rseq == rseq.toNat) = some r)
    (hstart : mayStart r s = true) : exec (.recoveryStart rseq) s = .next (startRecov r s) := by
  refine congrArg Host.Outcome.next ?_
  rw [hr]
  exact if_pos hstart

/-- A recovery ends, or fails, once its links have trained and MRST_N does not hold it (R431, R542). -/
theorem exec_recoveryEnd {rseq : U32} {success : Bool} {t : ThmRead} {s : State} {r : Recov}
    (hr : s.evt.recs.find? (fun r => r.rseq == rseq.toNat && r.running) = some r) (hlink : linkBusy r s = false)
    (hreset : r.level = 3 → mrstAsserted s = false) : exec (.recoveryEnd rseq success t) s =
      .next (if success then endRecov r 1 0 (levelEnd r success t s)
        else faultAt r.domain (entryLevel r.domain) (r.source.getD 0) r.payload (endRecov r 4 0 (levelEnd r success t s))) := by
  refine congrArg Host.Outcome.next ?_
  rw [hr]
  refine if_neg ?_
  by_cases hl : r.level = 3
  · simp [hlink, hreset hl]
  · simp [hlink, hl]

/-- The capture held for a domain rests on the events' state. -/
theorem captureOf_congr {s t : State} (h : t.evt = s.evt) (d : Nat) : captureOf t d = captureOf s d := by
  rw [captureOf, captureOf, h]

theorem rowDiagCapture_run {h : Hdr} {p : DiagCaptureP} {x : State} {b : Buf} {c : Capture} (hb : bufOf x p.handle.toNat = some b)
    (hc : captureOf x p.domain.toNat = some c) : (rowDiagCapture h p).run x = finish h 0x0E01
      (okay (captureBytes c).length c.rseq) (devWrite (bufAddr b + p.offset.toNat) (captureBytes c) x) := by
  simp only [rowDiagCapture]
  rw [hb, hc]

/-- Settles O33: each command by the recovery it decides, a recovery by its start and its end. -/
theorem recoveries : Obligations.Recoveries := by
  refine ⟨fun h p s hs => ?_, fun h p s hs => ?_, fun h p s hs => exec_resetLevel3 hs, fun h p s hs => ?_,
    fun rseq s r hr hstart => exec_recoveryStart hr hstart, fun rseq t s r hr hlink hreset => ⟨exec_recoveryEnd hr hlink hreset,
    exec_recoveryEnd hr hlink hreset⟩, fun h p s b c d hb hc hd hs => ?_⟩
  · have hrun : ∀ x, (rowResetLevel1 h p).run x = decideRecov p.domain.toNat 1 none [] 0 .escalation (some (h, 0x000A)) false
      (accepted h 0x000A 0 x) := fun _ => rfl
    exact congrArg Host.Outcome.next ((command_of_served hs).trans (hrun _))
  · have hrun : ∀ x, (rowResetLevel2 h p).run x = decideRecov 0x30 2 none [] 0 .escalation (some (h, 0x000A)) false
      (accepted h 0x000A 0 x) := fun _ => rfl
    exact congrArg Host.Outcome.next ((command_of_served hs).trans (hrun _))
  · refine ⟨_, exec_resetLevel4 hs, decideRecov_four_holds ?_⟩
    rw [quiescing, finish_hwd_eq, taken_hwd_of_pre_id rfl, quiesce_none_of_served hs]
    rfl
  · subst hd
    have hc' : captureOf (taken (rowDiagCapture h p) s) p.domain.toNat = some c := by
      rw [captureOf_congr (taken_evt_of_pre_id rfl s), hc]
    have htaken : Fit 0x800600 s (taken (rowDiagCapture h p) s) := taken_fit_of_pre_id (by decide) rfl s
    have hmem : (taken (rowDiagCapture h p) s).mem = s.mem := htaken.2 .mem (by decide)
    refine ⟨_, congrArg Host.Outcome.next ((command_of_served hs).trans (rowDiagCapture_run hb hc')), ?_,
      (devWrite_fit (L := 0x801600) (by decide) (taken_fit_of_pre_id (by decide) rfl s)).keeps (by decide)⟩
    rw [devWrite, hmem]

end Sys2Proof.Machine
end

section
/-! PROOFS. Halo: calibrations run, complete, and are read, exported and imported (R352, R478 to R486). -/

namespace Sys2Proof.Machine

theorem Fit.dmc_eq {L : Nat} {s t : State} (h : Fit L s t) (hL : L.testBit 21 = false) : t.dmc = s.dmc := h.2 .dmc hL

theorem Fit.cal_eq {L : Nat} {s t : State} (h : Fit L s t) (hL : L.testBit 25 = false) : t.cal = s.cal := h.2 .cal hL

theorem taken_dmc_of_pre_id {r : Row} (h : r.pre = id) (s : State) : (taken r s).dmc = s.dmc :=
  (taken_fit_of_pre_id (L := 0x800600) (by decide) h s).dmc_eq (by decide)

theorem taken_cal_of_pre_id {r : Row} (h : r.pre = id) (s : State) : (taken r s).cal = s.cal :=
  (taken_fit_of_pre_id (L := 0x800600) (by decide) h s).cal_eq (by decide)

theorem taken_mem_of_pre_id {r : Row} (h : r.pre = id) (s : State) : (taken r s).mem = s.mem :=
  (taken_fit_of_pre_id (L := 0x800600) (by decide) h s).2 .mem (by decide)

/-! ## Starting calibrations (R479, R482) -/

theorem retrainDark_cal (s : State) : (retrainDark s).cal = s.cal :=
  (retrainDark_fit (L := 0x880E02) (by decide) (Fit.refl _ s)).cal_eq (by decide)

theorem retrainDark_dmc (s : State) : (retrainDark s).dmc = s.dmc :=
  (retrainDark_fit (L := 0x880E02) (by decide) (Fit.refl _ s)).dmc_eq (by decide)

/-- A calibration as it starts. -/
def newCalJob (item pc : Nat) (s : State) : CalJob := ⟨item, (if item = 1 then s.dmc.point else 0), pc, s.time.ref⟩

/-- A start adds its job, and changes nothing else of Halo. -/
theorem startCal_cal (item pc : Nat) (s : State) :
    (startCal item pc s).cal = { s.cal with jobs := s.cal.jobs ++ [newCalJob item pc s] } := by
  unfold startCal newCalJob
  dsimp only
  split
  · split <;> rfl
  · split
    · rw [retrainDark_cal]
    · rfl

/-- A start changes the controller's sweeps at most. -/
theorem startCal_dmc (item pc : Nat) (s : State) : ∃ sw, (startCal item pc s).dmc = { s.dmc with sweeps := sw } := by
  unfold startCal
  dsimp only
  split
  · split <;> exact ⟨_, rfl⟩
  · split
    · exact ⟨s.dmc.sweeps, by rw [retrainDark_dmc]⟩
    · exact ⟨_, rfl⟩

/-- What a start of calibrations leaves of the state: Halo's trims and run, the controller's delay settings. -/
structure CalStarted (s t : State) : Prop where
  cal : ∃ js, t.cal = { s.cal with jobs := js }
  dmc : ∃ sw, t.dmc = { s.dmc with sweeps := sw }

theorem CalStarted.refl (s : State) : CalStarted s s := ⟨⟨_, rfl⟩, ⟨_, rfl⟩⟩

theorem CalStarted.trans {s t u : State} (h : CalStarted s t) (k : CalStarted t u) : CalStarted s u := by
  obtain ⟨⟨js, hjs⟩, sw, hsw⟩ := h
  obtain ⟨⟨js', hjs'⟩, sw', hsw'⟩ := k
  exact ⟨⟨js', by rw [hjs', hjs]⟩, sw', by rw [hsw', hsw]⟩

theorem startCal_started (item pc : Nat) (s : State) : CalStarted s (startCal item pc s) :=
  ⟨⟨_, startCal_cal item pc s⟩, startCal_dmc item pc s⟩

theorem foldl_startCal_started (item : Nat) (l : List (Nat × Nat)) (s : State) :
    CalStarted s (l.foldl (fun s e => startCal item e.2 s) s) := by
  induction l generalizing s with
  | nil => exact .refl s
  | cons e l ih => exact (startCal_started item e.2 s).trans (ih _)

theorem nextCal_started (s : State) : CalStarted s (nextCal s) := by
  rw [nextCal]
  split
  · exact .refl s
  · split
    · exact .refl s
    · split
      · exact .refl s
      · exact foldl_startCal_started ..

/-- The run a CAL_RUN starts is in force. -/
def runStarted (h : Hdr) (p : CalRunP) (pt : Nat) (s : State) : State :=
  { s with cal := { s.cal with run := some ⟨h, p, pt, calTodo p s, 0, none, 0⟩ } }

/-- What is to do does not rest on the run in force. -/
theorem calTodo_runStarted (h : Hdr) (p : CalRunP) (pt : Nat) (s : State) : calTodo p (runStarted h p pt s) = calTodo p s := rfl

/-- A CAL_RUN is accepted and memory goes to its point (R482). -/
def calRunReady (h : Hdr) (p : CalRunP) (s : State) : State :=
  if p.item = 1 && (accepted h 0x0901 0 s).dmc.point != calPoint p.point.toNat s then
    changePoint (calPoint p.point.toNat s) (accepted h 0x0901 0 s)
  else accepted h 0x0901 0 s

theorem calRunReady_fit {L : Nat} {s0 s : State} (h : Hdr) (p : CalRunP) (hL : In 0x2A00E02 L) (h0 : Fit L s0 s) :
    Fit L s0 (calRunReady h p s) :=
  have hacc : Fit L s0 (accepted h 0x0901 0 s) := accepted_fit (In.trans (by decide) hL) h0
  Fit.ite (fun _ => changePoint_fit (In.trans (by decide) hL) hacc) (fun _ => hacc)

theorem runStarted_fit {L : Nat} {s0 s : State} (h : Hdr) (p : CalRunP) (pt : Nat) (hL : In 0x2000000 L) (h0 : Fit L s0 s) :
    Fit L s0 (runStarted h p pt s) := Fit.upd_cal hL h0

theorem exec_calRun {h : Hdr} {p : CalRunP} {s : State} (hs : served (rowCalRun h p) s = true) :
    exec (.calRun h p) s = .next (nextCal (runStarted h p (calPoint p.point.toNat (taken (rowCalRun h p) s))
      (calRunReady h p (taken (rowCalRun h p) s)))) := by
  have hrun : ∀ x, (rowCalRun h p).run x = nextCal (runStarted h p (calPoint p.point.toNat x) (calRunReady h p x)) := fun _ => rfl
  exact congrArg Host.Outcome.next ((command_of_served hs).trans (hrun _))

/-- An automatic calibration that is due starts at its instant (R479). -/
theorem exec_calAutoTrigger {item : Byte} {pc : Fin 64} {s : State} {n t : Nat} (hn : n = if item = 1 then pc.val else 0)
    (hdue : calDue item.toNat n s = some t)
    (hfree : s.cal.jobs.any (fun j => j.item != item.toNat || j.pc == n) = false) (htest : testHolds item.toNat n s = false)
    (hrun : runWaits s = false) :
    exec (.calAutoTrigger item pc) s = .next (startCal item.toNat n (advanceMer (t * nsPerSec) s)) := by
  subst hn
  refine congrArg Host.Outcome.next ((if_neg (by simp [hrun])).trans ?_)
  rw [hdue]
  exact if_neg (by rw [hfree, htest]; decide)

/-! ## A sweep's end (R352) -/

theorem dlySet_congr_sweeps {s t : State} {sw : List DmcSweep} (h : t.dmc = { s.dmc with sweeps := sw }) (pt : Nat) :
    dlySet t pt = dlySet s pt := by
  rw [dlySet, h]; rfl

theorem dlyOf_congr_sweeps {s t : State} {sw : List DmcSweep} (h : t.dmc = { s.dmc with sweeps := sw }) (pt pc : Nat) :
    dlyOf t pt pc = dlyOf s pt pc := by
  rw [dlyOf, dlySet_congr_sweeps h, dlyOf]

theorem dlyOf_congr {s t : State} (h : t.dmc = s.dmc) (pt pc : Nat) : dlyOf t pt pc = dlyOf s pt pc :=
  dlyOf_congr_sweeps (sw := s.dmc.sweeps) h pt pc

theorem dlySet_setDly_self (pt : Nat) (l : List DlyRec) (s : State) : dlySet (setDly pt l s) pt = l := by
  unfold dlySet setDly
  split
  · rfl
  · split
    · rfl
    · split <;> rfl

theorem dlyOf_putDly_self {pt pc : Nat} {s : State} (r : DlyRec) (h : pc < (dlySet s pt).length) :
    dlyOf (putDly pt pc r s) pt pc = r := by
  rw [dlyOf, putDly, dlySet_setDly_self]
  simp [List.getD_eq_getElem?_getD, h]

/-- The sweep of a PC is over, and its temperature kept. -/
def sweepCleared (w : DmcSweep) (s : State) : State :=
  { s with
    dmc := { s.dmc with sweeps := s.dmc.sweeps.filter (fun x => x.pc != w.pc) }
    cal := { s.cal with sweepTemp := s.cal.sweepTemp.set w.pc (stackTemp s w.pc) } }

/-- The setting a good sweep leaves, in force and stored; a failed one marks the PC degraded. -/
def sweepStored (w : DmcSweep) (m : DmcMeas) (pt : Nat) (good : Bool) (s : State) : State :=
  if good then storeFound pt w.pc (putDly pt w.pc (centred (dlyOf s pt w.pc) m) s)
  else storeRec pt w.pc { storedDly (raise 0x46 [] (putDly pt w.pc { dlyOf s pt w.pc with degraded := true } s)) pt w.pc with
      degraded := true } (raise 0x46 [] (putDly pt w.pc { dlyOf s pt w.pc with degraded := true } s))

theorem sweepEnd_eq (w : DmcSweep) (m : DmcMeas) (s : State) :
    sweepEnd w m s =
      if w.retrain then raiseIf (sweepGood s m) 0x45 [(1, sweepNarrow m)]
        (sweepStored w m s.dmc.point (sweepGood s m) (sweepCleared w s))
      else calFinished 1 w.pc (some (if sweepGood s m then sweepNarrow m else 0)) (!sweepGood s m)
        (raiseIf (sweepGood s m) 0xF0 [(1, 1), (1, s.dmc.point), (1, w.pc), (2, sweepNarrow m)]
          (histAdd 1 s.dmc.point w.pc (sweepStored w m s.dmc.point (sweepGood s m) (sweepCleared w s)))) := rfl

/-- The setting a sweep that ends puts in force. -/
theorem dlyOf_sweepStored {w : DmcSweep} {m : DmcMeas} {pt : Nat} {good : Bool} {s : State} (h : w.pc < (dlySet s pt).length) :
    dlyOf (sweepStored w m pt good s) pt w.pc =
      if good then centred (dlyOf s pt w.pc) m else { dlyOf s pt w.pc with degraded := true } := by
  cases good with
  | true =>
    show dlyOf (storeFound pt w.pc (putDly pt w.pc (centred (dlyOf s pt w.pc) m) s)) pt w.pc = centred (dlyOf s pt w.pc) m
    rw [dlyOf_congr ((storeFound_fit (L := 0x1800C02) (by decide) (Fit.refl _ _)).dmc_eq (by decide)), dlyOf_putDly_self _ h]
  | false =>
    show dlyOf (storeRec pt w.pc _ (raise 0x46 [] (putDly pt w.pc { dlyOf s pt w.pc with degraded := true } s))) pt w.pc =
      { dlyOf s pt w.pc with degraded := true }
    rw [dlyOf_congr ((storeRec_fit (L := 0x1800C02) (by decide) (raise_fit (by decide) (Fit.refl _ _))).dmc_eq (by decide)),
      dlyOf_putDly_self _ h]

/-- The bookkeeping of a finished calibration, before the next starts. -/
def calCounted (item pc : Nat) (margin : Option Nat) (bad : Bool) (s : State) : State :=
  { s with cal := { s.cal with
    jobs := s.cal.jobs.filter (fun j => !(j.item == item && j.pc == pc))
    run := s.cal.run.map (fun r => if r.left.contains (item, pc) then
      { r with left := r.left.erase (item, pc), done := r.done + 1, bad := r.bad + b2n bad,
               narrow := (match margin with | none => r.narrow | some m => some (min m (r.narrow.getD m))) } else r)
    staleSaid := s.cal.staleSaid.filter (· != item) } }

theorem calFinished_eq (item pc : Nat) (margin : Option Nat) (bad : Bool) (s : State) :
    calFinished item pc margin bad s = nextCal (calCounted item pc margin bad s) := rfl

/-- A finished calibration keeps the trims in force and the times of the last ones. -/
theorem calFinished_trim (item pc : Nat) (margin : Option Nat) (bad : Bool) (s : State) :
    (calFinished item pc margin bad s).cal.trim = s.cal.trim ∧ (calFinished item pc margin bad s).cal.lastAdc = s.cal.lastAdc ∧
      (calFinished item pc margin bad s).cal.lastDac = s.cal.lastDac := by
  obtain ⟨⟨js, h⟩, -⟩ := nextCal_started (calCounted item pc margin bad s)
  rw [calFinished_eq, h]
  exact ⟨rfl, rfl, rfl⟩

theorem dlyOf_calFinished (item pc : Nat) (margin : Option Nat) (bad : Bool) (s : State) (pt n : Nat) :
    dlyOf (calFinished item pc margin bad s) pt n = dlyOf s pt n := by
  obtain ⟨-, sw, h⟩ := nextCal_started (calCounted item pc margin bad s)
  rw [calFinished_eq, dlyOf_congr_sweeps h]
  exact dlyOf_congr (s := s) rfl pt n

theorem dlyOf_sweepEnd {w : DmcSweep} {m : DmcMeas} {s : State} (h : w.pc < (dlySet s s.dmc.point).length) :
    dlyOf (sweepEnd w m s) s.dmc.point w.pc =
      if sweepGood s m then centred (dlyOf s s.dmc.point w.pc) m
      else { dlyOf s s.dmc.point w.pc with degraded := true } := by
  have hclear : dlyOf (sweepCleared w s) s.dmc.point w.pc = dlyOf s s.dmc.point w.pc := dlyOf_congr_sweeps rfl _ _
  have hlen : w.pc < (dlySet (sweepCleared w s) s.dmc.point).length := by
    rwa [dlySet_congr_sweeps (s := s) (t := sweepCleared w s) rfl]
  rw [sweepEnd_eq, ← hclear]
  split
  · rw [dlyOf_congr (raiseIf_dmc ..), dlyOf_sweepStored hlen]
  · rw [dlyOf_calFinished, dlyOf_congr (raiseIf_dmc ..),
      dlyOf_congr ((histAdd_fit (L := 0x1800C02) (by decide) (Fit.refl _ _)).dmc_eq (by decide)), dlyOf_sweepStored hlen]

/-! ## Trims (R478, R480) -/

theorem trimOf_congr {s t : State} (h : t.cal = s.cal) : trimOf t = trimOf s := by rw [trimOf, h, trimOf]

/-- The trims put in force and stored (R478). -/
theorem putTrim_trim (t : List Byte) (s : State) : (putTrim t s).cal.trim = t := by
  rw [putTrim, (nvOwn_fit (L := 0x1800C02) (by decide) (Fit.refl _ _)).cal_eq (by decide)]

theorem putTrim_time (t : List Byte) (s : State) : (putTrim t s).time = s.time :=
  (putTrim_fit (L := 0x3800C02) (by decide) (Fit.refl _ s)).2 .time (by decide)

theorem histAdd_cal (item pt pc : Nat) (s : State) : (histAdd item pt pc s).cal = s.cal :=
  (histAdd_fit (L := 0x1800C02) (by decide) (Fit.refl _ s)).cal_eq (by decide)

theorem histAdd_time (item pt pc : Nat) (s : State) : (histAdd item pt pc s).time = s.time :=
  (histAdd_fit (L := 0x1800C02) (by decide) (Fit.refl _ s)).2 .time (by decide)

theorem raise_cal_eq (code : Nat) (pay : List (Nat × Nat)) (s : State) : (raise code pay s).cal = s.cal :=
  (raise_fit (L := 0x800C02) (by decide) (Fit.refl _ s)).cal_eq (by decide)

theorem clampTrim_cal (item fieldNo : Nat) (lo hi v : Int) (s : State) : (clampTrim item fieldNo lo hi v s).1.cal = s.cal :=
  raiseIf_cal ..

theorem clampTrim_time (item fieldNo : Nat) (lo hi v : Int) (s : State) : (clampTrim item fieldNo lo hi v s).1.time = s.time :=
  raiseIf_time ..

/-- The skews a training leaves, each clamped to its 31 taps (R480). -/
theorem clampSkews_snd (base : Nat) (vs : List Int) (i : Nat) (s : State) :
    (clampSkews base vs i s).2 = vs.map (fun v => (clampInt 0 31 v).toNat) := by
  induction vs generalizing i s with
  | nil => rfl
  | cons v vs ih => exact congrArg ((clampInt 0 31 v).toNat :: ·) (ih _ _)

theorem clampSkews_cal (base : Nat) (vs : List Int) (i : Nat) (s : State) : (clampSkews base vs i s).1.cal = s.cal :=
  (clampSkews_fit (L := 0x800C02) (by decide) (Fit.refl _ s)).cal_eq (by decide)

/-- The end of a training of a half, with the skews found. -/
def skewDone (b : Bool) (taps : List Int) (s : State) : State :=
  let x := clampSkews (30 * b2n b) taps 0 s
  raise 0xF0 [(1, 2), (2, x.2.headD 0)] (histAdd 2 0 0
    (putTrim (patch (withValid (trimOf x.1) (2 ^ b2n b)) (16 + 30 * b2n b) (x.2.map (BitVec.ofNat 8))) x.1))

theorem exec_calDone_skew {pc : Fin 64} {b : Bool} {taps : List Int} {s : State} (hrun : calRunning 2 (b2n b) s = true)
    (hlen : taps.length = 30) :
    exec (.calDone pc (.skew b taps)) s = .next (calFinished 2 (b2n b) none false (skewDone b taps s)) :=
  congrArg Host.Outcome.next (if_neg (by simp [hrun, hlen]))

theorem skewDone_trim (b : Bool) (taps : List Int) (s : State) :
    (skewDone b taps s).cal.trim = patch (withValid (trimOf s) (2 ^ b2n b)) (16 + 30 * b2n b)
      (taps.map (fun v => BitVec.ofNat 8 (clampInt 0 31 v).toNat)) := by
  rw [skewDone, raise_cal_eq, histAdd_cal, putTrim_trim, trimOf_congr (clampSkews_cal ..), clampSkews_snd, List.map_map]
  rfl

/-- The converter's offset and gain are clamped, and said when they were out of range. -/
def adcSaid (off gain : Int) (s : State) : State := (clampTrim 3 1 (-1311) 1311 gain (clampTrim 3 0 (-64) 63 off s).1).1

/-- The time of the last calibration of the converter is kept. -/
def adcTimed (s : State) : State := { s with cal := { s.cal with lastAdc := some s.time.ref } }

/-- The end of a calibration of the converter. -/
def adcDone (off gain : Int) (s : State) : State :=
  raise 0xF0 [(1, 3), (2, unsigned 16 (clampInt (-64) 63 off))] (adcTimed (histAdd 3 0 0
    (putTrim (patch (withValid (trimOf (adcSaid off gain s)) 4) 2 (s16 (clampInt (-64) 63 off) ++ s16 (clampInt (-1311) 1311 gain)))
      (adcSaid off gain s))))

theorem exec_calDone_adc {pc : Fin 64} {off gain : Int} {s : State} (hrun : calRunning 3 0 s = true) :
    exec (.calDone pc (.adc off gain)) s = .next (calFinished 3 0 none false (adcDone off gain s)) :=
  congrArg Host.Outcome.next (if_neg (by simp [hrun]))

theorem adcSaid_cal (off gain : Int) (s : State) : (adcSaid off gain s).cal = s.cal := by
  rw [adcSaid, clampTrim_cal, clampTrim_cal]

theorem adcSaid_time (off gain : Int) (s : State) : (adcSaid off gain s).time = s.time := by
  rw [adcSaid, clampTrim_time, clampTrim_time]

theorem adcTimed_trim (s : State) : (adcTimed s).cal.trim = s.cal.trim := rfl

theorem adcTimed_lastAdc (s : State) : (adcTimed s).cal.lastAdc = some s.time.ref := rfl

theorem adcDone_trim (off gain : Int) (s : State) :
    (adcDone off gain s).cal.trim =
      patch (withValid (trimOf s) 4) 2 (s16 (clampInt (-64) 63 off) ++ s16 (clampInt (-1311) 1311 gain)) := by
  rw [adcDone, raise_cal_eq, adcTimed_trim, histAdd_cal, putTrim_trim, trimOf_congr (adcSaid_cal ..)]

theorem adcDone_lastAdc (off gain : Int) (s : State) : (adcDone off gain s).cal.lastAdc = some s.time.ref := by
  rw [adcDone, raise_cal_eq, adcTimed_lastAdc, histAdd_time, putTrim_time, adcSaid_time]

/-- The two offsets, the gain and the sense of the drive, clamped, and said when they were out of range. -/
def dacSaid (offC offS gain sense : Int) (s : State) : State :=
  (clampTrim 4 3 (-128) 127 sense (clampTrim 4 2 (-1311) 1311 gain (clampTrim 4 1 (-32) 31 offS
    (clampTrim 4 0 (-32) 31 offC s).1).1).1).1

/-- The bytes of the drive's trims. -/
def dacBytes (offC offS gain sense : Int) : List Byte :=
  s16 (clampInt (-32) 31 offC) ++ s16 (clampInt (-32) 31 offS) ++ s16 (clampInt (-1311) 1311 gain) ++ s16 (clampInt (-128) 127 sense)

/-- The time of the last calibration of the drive is kept. -/
def dacTimed (s : State) : State := { s with cal := { s.cal with lastDac := some s.time.ref } }

/-- The end of a calibration of the drive. -/
def dacDone (offC offS gain sense : Int) (s : State) : State :=
  raise 0xF0 [(1, 4), (2, unsigned 16 (clampInt (-32) 31 offC))] (dacTimed (histAdd 4 0 0
    (putTrim (patch (withValid (trimOf (dacSaid offC offS gain sense s)) 24) 6 (dacBytes offC offS gain sense))
      (dacSaid offC offS gain sense s))))

theorem exec_calDone_dac {pc : Fin 64} {offC offS gain sense : Int} {s : State} (hrun : calRunning 4 0 s = true) :
    exec (.calDone pc (.dac offC offS gain sense)) s =
      .next (calFinished 4 0 none false (dacDone offC offS gain sense s)) :=
  congrArg Host.Outcome.next (if_neg (by simp [hrun]))

theorem dacSaid_cal (offC offS gain sense : Int) (s : State) : (dacSaid offC offS gain sense s).cal = s.cal := by
  rw [dacSaid, clampTrim_cal, clampTrim_cal, clampTrim_cal, clampTrim_cal]

theorem dacSaid_time (offC offS gain sense : Int) (s : State) : (dacSaid offC offS gain sense s).time = s.time := by
  rw [dacSaid, clampTrim_time, clampTrim_time, clampTrim_time, clampTrim_time]

theorem dacTimed_trim (s : State) : (dacTimed s).cal.trim = s.cal.trim := rfl

theorem dacTimed_lastDac (s : State) : (dacTimed s).cal.lastDac = some s.time.ref := rfl

theorem dacDone_trim (offC offS gain sense : Int) (s : State) :
    (dacDone offC offS gain sense s).cal.trim = patch (withValid (trimOf s) 24) 6 (dacBytes offC offS gain sense) := by
  rw [dacDone, raise_cal_eq, dacTimed_trim, histAdd_cal, putTrim_trim, trimOf_congr (dacSaid_cal ..)]

theorem dacDone_lastDac (offC offS gain sense : Int) (s : State) :
    (dacDone offC offS gain sense s).cal.lastDac = some s.time.ref := by
  rw [dacDone, raise_cal_eq, dacTimed_lastDac, histAdd_time, putTrim_time, dacSaid_time]

/-! ## The end of a run, and stale trims (R480, R482) -/

/-- A CAL_RUN is over. -/
def runOver (s : State) : State := { s with cal := { s.cal with run := none, partly := none } }

theorem runOver_fit {L : Nat} {s0 s : State} (hL : In 0x2000000 L) (h0 : Fit L s0 s) : Fit L s0 (runOver s) := Fit.upd_cal hL h0

theorem endCalRun_of_run {s : State} {r : CalRun} (st : Nat) (h : s.cal.run = some r) :
    endCalRun st 0 s = finish r.h 0x0901 ⟨st, r.done, r.narrow.getD 0, r.bad⟩ (runOver s) := by
  rw [endCalRun, h]
  rfl

theorem exec_calRunDone {s : State} {r : CalRun} (h : s.cal.run = some r) (hleft : r.left = [])
    (hpoint : s.mode.mode = .dawn → s.dmc.point = 16) :
    exec .calRunDone s = .next (finish r.h 0x0901 ⟨if r.bad = 0 then St.ok else St.degraded, r.done, r.narrow.getD 0, r.bad⟩
      (runOver s)) := by
  rw [← endCalRun_of_run _ h]
  refine congrArg Host.Outcome.next ?_
  rw [h]
  have hstay : ¬(s.mode.mode = .dawn ∧ s.dmc.point ≠ 16) := fun hd => hd.2 (hpoint hd.1)
  refine (if_neg (by simp [hleft])).trans ?_
  rw [if_neg hstay]

/-- A stale trim is said once. -/
def withStale (item : Nat) (s : State) : State := { s with cal := { s.cal with staleSaid := item :: s.cal.staleSaid } }

theorem withStale_fit {L : Nat} {s0 s : State} (item : Nat) (hL : In 0x2000000 L) (h0 : Fit L s0 s) :
    Fit L s0 (withStale item s) := Fit.upd_cal hL h0

theorem withStale_time (item : Nat) (s : State) : (withStale item s).time = s.time := rfl

theorem withStale_said (item : Nat) (s : State) : (withStale item s).cal.staleSaid = item :: s.cal.staleSaid := rfl

theorem advanceMer_cal_eq (t : Nat) (s : State) : (advanceMer t s).cal = s.cal :=
  (advanceMer_fit (L := 0x20) (by decide) (Fit.refl _ s)).cal_eq (by decide)

/-- The instant a trim is stale from: CAL_STALE hours after its last calibration. -/
def staleInstant (item : Nat) (s : State) : Nat := ((histGet s item 0 0).2 + pv s 0x1204 * 3600) * nsPerSec

theorem exec_calStale {item : Byte} {s : State} (hlo : 2 ≤ item.toNat) (hhi : item.toNat ≤ 4)
    (hsaid : s.cal.staleSaid.contains item.toNat = false) (hon : mainOn s = true) (hlast : (histGet s item.toNat 0 0).2 ≠ 0) :
    exec (.calStale item) s = .next (raise 0xF1 [] (withStale item.toNat (advanceMer (staleInstant item.toNat s) s))) := by
  have hgo : ¬(item.toNat < 2 ∨ 4 < item.toNat ∨ s.cal.staleSaid.contains item.toNat = true ∨ (!mainOn s) = true) := by
    rw [hsaid, hon]; simp; omega
  exact congrArg Host.Outcome.next ((if_neg hgo).trans (if_neg hlast))

end Sys2Proof.Machine
end

section
/-! PROOFS. CAL_STATUS, CAL_EXPORT and CAL_IMPORT (R483 to R486), and the statement on calibrations. -/

namespace Sys2Proof.Machine

/-! ## CAL_STATUS (R483) -/

theorem histGet_congr {s t : State} (h : t.nv = s.nv) (item pt pc : Nat) : histGet t item pt pc = histGet s item pt pc := by
  rw [histGet, nvGet_of_nv h, histGet]

theorem trimSkew_congr {s t : State} (h : t.cal = s.cal) (b : Bool) (l : Nat) : trimSkew t b l = trimSkew s b l := by
  rw [trimSkew, trimOf_congr h, trimSkew]

theorem trimField_congr {s t : State} (h : t.cal = s.cal) (v o : Nat) : trimField t v o = trimField s v o := by
  rw [trimField, trimOf_congr h, trimField]

theorem isFenced_congr {s t : State} (h : t.dmc = s.dmc) (pc : Nat) : isFenced t pc = isFenced s pc := by
  rw [isFenced, h, isFenced]

/-- The point a CAL_STATUS asks about. -/
def statusPoint (p : CalStatusP) (s : State) : Nat :=
  if p.item.toNat = 1 then (if p.point ≠ 0 then p.point.toNat else if s.dmc.point = 0 then 16 else s.dmc.point) else 0

/-- The value of an item (R483). -/
def calValue (item pt pc : Nat) (s : State) : Nat :=
  if item = 1 then (dlyOf s pt pc).margin
  else if item = 2 then trimSkew s false 0
  else if item = 3 then unsigned 16 (trimField s 2 2) else unsigned 16 (trimField s 3 6)

/-- The flags of an item (R483). -/
def calFlags (item pt pc : Nat) (s : State) : Nat :=
  b2n ((histGet s item pt pc).1 == 0) + 2 * b2n (s.cal.staleSaid.contains item) +
    4 * b2n (s.cal.jobs.any (fun j => j.item == item && (item != 1 || j.pc == pc))) +
    8 * b2n (item == 1 && (dlyOf s pt pc).degraded) + 16 * b2n (item == 1 && isFenced s pc)

theorem calValue_congr {s t : State} (hdmc : t.dmc = s.dmc) (hcal : t.cal = s.cal) (item pt pc : Nat) :
    calValue item pt pc t = calValue item pt pc s := by
  rw [calValue, dlyOf_congr hdmc, trimSkew_congr hcal, trimField_congr hcal, trimField_congr hcal, calValue]

theorem calFlags_congr {s t : State} (hnv : t.nv = s.nv) (hdmc : t.dmc = s.dmc) (hcal : t.cal = s.cal) (item pt pc : Nat) :
    calFlags item pt pc t = calFlags item pt pc s := by
  rw [calFlags, histGet_congr hnv, dlyOf_congr hdmc, isFenced_congr hdmc, hcal, calFlags]

/-- Five flags are the bits of their sum. -/
theorem testBit_flags (a b c d e : Bool) : (b2n a + 2 * b2n b + 4 * b2n c + 8 * b2n d + 16 * b2n e).testBit 0 = a ∧
    (b2n a + 2 * b2n b + 4 * b2n c + 8 * b2n d + 16 * b2n e).testBit 1 = b ∧
    (b2n a + 2 * b2n b + 4 * b2n c + 8 * b2n d + 16 * b2n e).testBit 4 = e := by
  revert a b c d e
  decide

theorem exec_calStatus {h : Hdr} {p : CalStatusP} {s : State} {pt : Nat} (hs : served (rowCalStatus h p) s = true)
    (hpt : pt = statusPoint p s) :
    exec (.calStatus h p) s = .next (finish h 0x0904 (okay (histGet s p.item.toNat pt p.pc.toNat).1
      ((histGet s p.item.toNat pt p.pc.toNat).2 % 2 ^ 32)
      (calValue p.item.toNat pt p.pc.toNat s + calFlags p.item.toNat pt p.pc.toNat s * 2 ^ 16)) (taken (rowCalStatus h p) s)) := by
  have hrun : ∀ x, (rowCalStatus h p).run x = finish h 0x0904 (okay (histGet x p.item.toNat (statusPoint p x) p.pc.toNat).1
      ((histGet x p.item.toNat (statusPoint p x) p.pc.toNat).2 % 2 ^ 32) (calValue p.item.toNat (statusPoint p x) p.pc.toNat x +
        calFlags p.item.toNat (statusPoint p x) p.pc.toNat x * 2 ^ 16)) x := fun _ => rfl
  have hnv := taken_nv_of_pre_id (r := rowCalStatus h p) rfl s
  have hdmc := taken_dmc_of_pre_id (r := rowCalStatus h p) rfl s
  have hcal := taken_cal_of_pre_id (r := rowCalStatus h p) rfl s
  have hpoint : statusPoint p (taken (rowCalStatus h p) s) = pt := by rw [statusPoint, hdmc, hpt, statusPoint]
  refine congrArg Host.Outcome.next ((command_of_served hs).trans ((hrun _).trans ?_))
  rw [hpoint, histGet_congr hnv, calValue_congr hdmc hcal, calFlags_congr hnv hdmc hcal]

/-! ## CAL_EXPORT and CAL_IMPORT (R485, R486) -/

theorem storedSet_congr {s t : State} (h : t.nv = s.nv) (pt : Nat) : storedSet t pt = storedSet s pt := by
  rw [storedSet, nvGet_of_nv h, storedSet]

/-- The image rests on the NV store. -/
theorem calImage_congr {s t : State} (h : t.nv = s.nv) : calImage t = calImage s := by
  have hset : storedSet t = storedSet s := funext (storedSet_congr h)
  have htrim : storedTrim t = storedTrim s := by rw [storedTrim, nvGet_of_nv h, storedTrim]
  rw [calImage, hset, htrim, calImage]

theorem exec_calExport_host {h : Hdr} {p : CalExportP} {s : State} (hdev : p.flags.toNat.testBit 0 = false)
    (hs : served (rowCalExport h p) s = true) :
    exec (.calExport h p) s = .next (finish h 0x0902 (okay (calImage s).length)
      (emit (.hostWrite p.dest.toNat (calImage s)) (taken (rowCalExport h p) s))) := by
  have hrun : ∀ x, (rowCalExport h p).run x =
      finish h 0x0902 (okay (calImage x).length) (emit (.hostWrite p.dest.toNat (calImage x)) x) := by
    intro x; simp only [rowCalExport, hdev]; rfl
  rw [← calImage_congr (taken_nv_of_pre_id (r := rowCalExport h p) rfl s)]
  exact congrArg Host.Outcome.next ((command_of_served hs).trans (hrun _))

theorem exec_calExport_device {h : Hdr} {p : CalExportP} {s : State} {b : Buf} (hdev : p.flags.toNat.testBit 0 = true)
    (hb : bufOf (taken (rowCalExport h p) s) (segHandle p.dest) = some b) (hs : served (rowCalExport h p) s = true) :
    exec (.calExport h p) s = .next (finish h 0x0902 (okay (calImage s).length)
      (devWrite (bufAddr b + segOff p.dest) (calImage s) (taken (rowCalExport h p) s))) := by
  have hrun : ∀ x, bufOf x (segHandle p.dest) = some b → (rowCalExport h p).run x =
      finish h 0x0902 (okay (calImage x).length) (devWrite (bufAddr b + segOff p.dest) (calImage x) x) := by
    intro x hx; simp only [rowCalExport, hdev, if_true]; rw [hx]
  rw [← calImage_congr (taken_nv_of_pre_id (r := rowCalExport h p) rfl s)]
  exact congrArg Host.Outcome.next ((command_of_served hs).trans (hrun _ hb))

theorem exec_calImport {h : Hdr} {p : CalImportP} {s : State} (hs : served (rowCalImport h p) s = true) :
    exec (.calImport h p) s = .next (if p.flags.toNat.testBit 0 then finish h 0x0903 (okay) (taken (rowCalImport h p) s)
      else calStore h p (taken (rowCalImport h p) s)) := by
  have hrun : ∀ x, (rowCalImport h p).run x = if p.flags.toNat.testBit 0 then finish h 0x0903 (okay) x else calStore h p x :=
    fun _ => rfl
  exact congrArg Host.Outcome.next ((command_of_served hs).trans (hrun _))

/-- A section of an image is stored. -/
def secStored (d : List Byte) (s : State) (x : CalSec) : State :=
  if x.type = 1 then nvOwn 0 0x02 x.key (bytesAt d x.at_ 1024) s else nvOwn 0 0x06 0 (bytesAt d x.at_ 128) s

theorem foldl_secStored_fit {L : Nat} {s0 s : State} (d : List Byte) (xs : List CalSec) (hL : In 0x1800C02 L) (h0 : Fit L s0 s) :
    Fit L s0 (xs.foldl (secStored d) s) :=
  Fit.foldl h0 fun _ _ h => Fit.ite (fun _ => nvOwn_fit (In.trans (by decide) hL) h) (fun _ => nvOwn_fit (In.trans (by decide) hL) h)

/-- With too few free slots nothing is stored (R486). -/
theorem calStore_of_full {h : Hdr} {p : CalImportP} {s : State}
    (hfull : freeSlots s 0 < (calParse s (calImportBytes p s) p.len.toNat).1.length) :
    calStore h p s = finish h 0x0903 (no St.noSpace) (raise 0xE2 [] s) := if_pos hfull

/-- With enough free slots every section is (R486). -/
theorem calStore_of_room {h : Hdr} {p : CalImportP} {s : State}
    (hroom : (calParse s (calImportBytes p s) p.len.toNat).1.length ≤ freeSlots s 0) :
    calStore h p s = finish h 0x0903 (okay) (raise 0xF3 []
      ((calParse s (calImportBytes p s) p.len.toNat).1.foldl (secStored (calImportBytes p s)) s)) := if_neg (Nat.not_lt.2 hroom)

/-! ## The statement -/

/-- Settles O35: each start, completion and command by the state it builds. -/
theorem calibration : Obligations.Calibration := by
  refine ⟨⟨?_, ?_, ?_, ?_, ?_, ?_, ?_, ?_, ?_, ?_⟩, ?_, ?_, ?_, ?_, ?_, ?_, ?_⟩
  · intro h p s hs
    exact ⟨_, _, exec_calRun hs, rfl, rfl, (calTodo_runStarted ..).symm, rfl, rfl, (runStarted_fit (L := 0x2A00E02) _ _ _ (by decide)
      (calRunReady_fit h p (by decide) (taken_fit_of_pre_id (by decide) rfl s))).keeps (by decide)⟩
  · intro item pc s n t hn hdue hfree htest hrun
    exact ⟨_, exec_calAutoTrigger hn hdue hfree htest hrun, le_merNs_advanceMer _ s,
      (advanceMer_fit (L := 0x20) (by decide) (Fit.refl _ s)).keeps (by decide)⟩
  · intro item pc s
    exact ⟨newCalJob item pc s, congrArg CalSt.jobs (startCal_cal item pc s), rfl, rfl⟩
  · intro pc w s x hdawn hx
    refine congrArg Host.Outcome.next ?_
    dsimp only
    rw [hx]
    exact if_pos hdawn
  · exact fun w m s h => dlyOf_sweepEnd h
  · intro pc b taps s hrun hlen
    exact ⟨_, exec_calDone_skew hrun hlen, (calFinished_trim ..).1.trans (skewDone_trim b taps s)⟩
  · intro pc off gain s hrun
    obtain ⟨htrim, hadc, -⟩ := calFinished_trim 3 0 none false (adcDone off gain s)
    exact ⟨_, exec_calDone_adc hrun, hadc.trans (adcDone_lastAdc off gain s), htrim.trans (adcDone_trim off gain s)⟩
  · intro pc offC offS gain sense s hrun
    obtain ⟨htrim, -, hdac⟩ := calFinished_trim 4 0 none false (dacDone offC offS gain sense s)
    exact ⟨_, exec_calDone_dac hrun, hdac.trans (dacDone_lastDac offC offS gain sense s),
      htrim.trans (dacDone_trim offC offS gain sense s)⟩
  · intro s r hr hleft hpoint
    exact ⟨_, exec_calRunDone hr hleft hpoint, rfl, (runOver_fit (L := 0x2000000) (by decide) (Fit.refl _ s)).keeps (by decide)⟩
  · intro item s hlo hhi hsaid hon hlast
    refine ⟨_, exec_calStale hlo hhi hsaid hon hlast, ?_, ?_, (withStale_fit (L := 0x2000020) _ (by decide)
      (advanceMer_fit (by decide) (Fit.refl _ s))).keeps (by decide)⟩
    · rw [withStale_said, advanceMer_cal_eq]
    · rw [merNs_congr (withStale_time ..)]
      exact le_merNs_advanceMer ..
  · intro h p s pt hs hpt
    obtain ⟨hzero, hone, hfour⟩ := testBit_flags ((histGet s p.item.toNat pt p.pc.toNat).1 == 0)
      (s.cal.staleSaid.contains p.item.toNat) (s.cal.jobs.any (fun j => j.item == p.item.toNat && (p.item.toNat != 1 || j.pc == p.pc.toNat)))
      (p.item.toNat == 1 && (dlyOf s pt p.pc.toNat).degraded) (p.item.toNat == 1 && isFenced s p.pc.toNat)
    refine ⟨calValue p.item.toNat pt p.pc.toNat s, calFlags p.item.toNat pt p.pc.toNat s, exec_calStatus hs hpt, ?_, ?_, ?_, ?_,
      hzero, hone, hfour⟩ <;> intro hitem <;> rw [hitem] <;> rfl
  · intro h p s hdev hs
    exact ⟨_, exec_calExport_host hdev hs, mem_out_emit .., (emit_fit (L := 0x800602) (by decide)
      (taken_fit_of_pre_id (by decide) rfl s)).keeps (by decide)⟩
  · intro h p s b hdev hb hs
    refine ⟨_, exec_calExport_device hdev hb hs, ?_, (devWrite_fit (L := 0x801600) (by decide)
      (taken_fit_of_pre_id (by decide) rfl s)).keeps (by decide)⟩
    rw [devWrite, taken_mem_of_pre_id rfl]
  · intro h p s hcheck hs
    rw [exec_calImport hs, if_pos hcheck]
  · intro h p s hstore hs
    rw [exec_calImport hs, if_neg (ne_true_of_eq_false hstore)]
  · exact fun h p s hfull => calStore_of_full hfull
  · intro h p s hroom
    exact ⟨_, calStore_of_room hroom, (foldl_secStored_fit (L := 0x1800C02) _ _ (by decide) (Fit.refl _ s)).keeps (by decide)⟩

end Sys2Proof.Machine
end

section
/-! PROOFS. Overcast: test runs, their results, and commands a test holds back (R491 to R497, R500). -/

namespace Sys2Proof.Machine

theorem Fit.bst_eq {L : Nat} {s t : State} (h : Fit L s t) (hL : L.testBit 26 = false) : t.bst = s.bst := h.2 .bst hL

theorem taken_bst_of_pre_id {r : Row} (h : r.pre = id) (s : State) : (taken r s).bst = s.bst :=
  (taken_fit_of_pre_id (L := 0x800600) (by decide) h s).bst_eq (by decide)

/-! ## A run begins (R494, R495, R500) -/

/-- A run with its command, its set and its work, under the next number. -/
def runBegun (h : Option Hdr) (stop : Bool) (set : Nat) (work : List (Nat × Nat)) (s : State) : State :=
  { s with bst := { s.bst with number := (s.bst.number + 1) % 65536, run := some ⟨h, stop, work, [], set⟩ } }

theorem beginRun_eq (h : Option Hdr) (stop : Bool) (set : Nat) (work : List (Nat × Nat)) (s : State) :
    beginRun h stop set work s = settleRun (schedule (runBegun h stop set work s)) := rfl

theorem runBegun_fit {L : Nat} {s0 s : State} (h : Option Hdr) (stop : Bool) (set : Nat) (work : List (Nat × Nat))
    (hL : In 0x4000000 L) (h0 : Fit L s0 s) : Fit L s0 (runBegun h stop set work s) := Fit.upd_bst hL h0

/-- What is out of service does not rest on the run in force. -/
theorem runWork_runBegun (h : Option Hdr) (stop : Bool) (set : Nat) (work : List (Nat × Nat)) (set' inst : Nat) (s : State) :
    runWork set' inst (runBegun h stop set work s) = runWork set' inst s := rfl

theorem accepted_bst_eq (h : Hdr) (op v : Nat) (s : State) : (accepted h op v s).bst = s.bst :=
  (accepted_fit (L := 0x800E02) (by decide) (Fit.refl _ s)).bst_eq (by decide)

/-- A TEST_RUN is answered with the number its run will have (R495). -/
def testRunAccepted (h : Hdr) (s : State) : State := accepted h 0x0A01 ((s.bst.number + 1) % 65536) s

theorem testRunAccepted_bst (h : Hdr) (s : State) : (testRunAccepted h s).bst = s.bst := accepted_bst_eq ..

theorem testRunAccepted_fit {L : Nat} {s0 s : State} (h : Hdr) (hL : In 0x800E02 L) (h0 : Fit L s0 s) :
    Fit L s0 (testRunAccepted h s) := accepted_fit hL h0

theorem exec_testRun {h : Hdr} {p : TestRunP} {s x : State} (hx : x = testRunAccepted h (taken (rowTestRun h p) s))
    (hs : served (rowTestRun h p) s = true) :
    exec (.testRun h p) s = .next (settleRun (schedule (runBegun (some h) (p.flags.toNat.testBit 0) p.set.toNat
      (runWork p.set.toNat p.inst.toNat x) x))) := by
  have hrun : ∀ y, (rowTestRun h p).run y = beginRun (some h) (p.flags.toNat.testBit 0) p.set.toNat
      (runWork p.set.toNat p.inst.toNat (testRunAccepted h y)) (testRunAccepted h y) := fun _ => rfl
  rw [hx, ← beginRun_eq]
  exact congrArg Host.Outcome.next ((command_of_served hs).trans (hrun _))

/-- The instant of an automatic run is kept (R500). -/
def autoNoted (s : State) : State := { s with bst := { s.bst with lastAuto := s.time.ref } }

theorem autoNoted_fit {L : Nat} {s0 s : State} (hL : In 0x4000000 L) (h0 : Fit L s0 s) : Fit L s0 (autoNoted s) :=
  Fit.upd_bst hL h0

theorem autoNoted_time (s : State) : (autoNoted s).time = s.time := rfl

theorem autoNoted_number (s : State) : (autoNoted s).bst.number = s.bst.number := rfl

theorem runBegun_time (h : Option Hdr) (stop : Bool) (set : Nat) (work : List (Nat × Nat)) (s : State) :
    (runBegun h stop set work s).time = s.time := rfl

theorem runBegun_lastAuto (h : Option Hdr) (stop : Bool) (set : Nat) (work : List (Nat × Nat)) (s : State) :
    (runBegun h stop set work s).bst.lastAuto = s.bst.lastAuto := rfl

theorem advanceRef_bst_eq (r : Nat) (s : State) : (advanceRef r s).bst = s.bst :=
  (advanceRef_fit (L := 0x20) (by decide) (Fit.refl _ s)).bst_eq (by decide)

/-- The state an automatic run begins in: BST_AUTO_PERIOD after the last one. -/
def autoDue (s : State) : State := autoNoted (advanceRef (s.bst.lastAuto + pv s 0x1302 * nsPerSec) s)

theorem autoDue_fit {L : Nat} {s0 s : State} (hL : In 0x4000020 L) (h0 : Fit L s0 s) : Fit L s0 (autoDue s) :=
  autoNoted_fit (In.trans (by decide) hL) (advanceRef_fit (In.trans (by decide) hL) h0)

theorem le_ref_autoDue (s : State) : s.bst.lastAuto + pv s 0x1302 * nsPerSec ≤ (autoDue s).time.ref := by
  rw [autoDue, autoNoted_time]
  exact le_ref_advanceRef ..

theorem autoDue_number (s : State) : (autoDue s).bst.number = s.bst.number := by
  rw [autoDue, autoNoted_number, advanceRef_bst_eq]

theorem autoNoted_lastAuto (s : State) : (autoNoted s).bst.lastAuto = (autoNoted s).time.ref := rfl

theorem autoDue_lastAuto (s : State) : (autoDue s).bst.lastAuto = (autoDue s).time.ref := autoNoted_lastAuto _

theorem exec_bstAutoRun {s : State} (hper : pv s 0x1302 ≠ 0) (hrun : s.bst.run = none) (hon : mainOn s = true)
    (hlife : lifeState s ≠ 6) :
    exec .bstAutoRun s = .next (settleRun (schedule (runBegun none false (pv (autoDue s) 0x1301)
      (runWork (pv (autoDue s) 0x1301) 0xFF (autoDue s)) (autoDue s)))) := by
  have hgo : ¬(pv s 0x1302 = 0 ∨ s.bst.run.isSome = true ∨ (!mainOn s) = true ∨ lifeState s = 6) := by
    rw [hrun, hon]; simp [hper, hlife]
  rw [← beginRun_eq]
  unfold autoDue
  exact congrArg Host.Outcome.next (if_neg hgo)

/-! ## A test ends (R491, R494, R496) -/

theorem testEnded_bst (id inst o reason : Nat) (s : State) : (testEnded id inst o reason s).bst = s.bst :=
  (testEnded_fit (L := 0x800C02) (by decide) (Fit.refl _ s)).bst_eq (by decide)

/-- A full or vendor test ends after exactly its duration. -/
def testTimed (t : TestInfo) (j : TestJob) (s : State) : State := if t.kind = .service then s else advanceRef (j.start + t.dur) s

/-- A test that has ended runs no more; ADC_REF says whether the thermistors are at fault (R492). -/
def testClosed (j : TestJob) (o : Nat) (s : State) : State :=
  { s with bst := { s.bst with
    jobs := s.bst.jobs.filter (fun x => !(x.id == j.id && x.inst == j.inst))
    adcBad := (if j.id = 5 ∧ o = 2 then false else if j.id = 5 ∧ o = 3 then true else s.bst.adcBad) } }

/-- A test that has ended, with its result kept (R496). -/
def testResulted (t : TestInfo) (j : TestJob) (o w1 w2 : Nat) (s : State) : State :=
  putResult ⟨j.id, j.inst, o, if o = 4 then 6 else 0, (testClosed j o (testTimed t j s)).bst.number, w1, w2⟩
    (testClosed j o (testTimed t j s))

theorem testTimed_bst (t : TestInfo) (j : TestJob) (s : State) : (testTimed t j s).bst = s.bst := by
  rw [testTimed]
  split
  · rfl
  · exact advanceRef_bst_eq ..

theorem testTimed_fit {L : Nat} {s0 s : State} (t : TestInfo) (j : TestJob) (hL : In 0x20 L) (h0 : Fit L s0 s) :
    Fit L s0 (testTimed t j s) := Fit.ite (fun _ => h0) (fun _ => advanceRef_fit hL h0)

theorem testClosed_fit {L : Nat} {s0 s : State} (j : TestJob) (o : Nat) (hL : In 0x4000000 L) (h0 : Fit L s0 s) :
    Fit L s0 (testClosed j o s) := Fit.upd_bst hL h0

theorem testResulted_fit {L : Nat} {s0 s : State} (t : TestInfo) (j : TestJob) (o w1 w2 : Nat) (hL : In 0x4000020 L)
    (h0 : Fit L s0 s) : Fit L s0 (testResulted t j o w1 w2 s) :=
  putResult_fit (In.trans (by decide) hL) (testClosed_fit _ _ (In.trans (by decide) hL) (testTimed_fit _ _ (In.trans (by decide) hL) h0))

theorem putResult_run (r : TestRes) (s : State) : (putResult r s).bst.run = s.bst.run := rfl

theorem putResult_jobs (r : TestRes) (s : State) : (putResult r s).bst.jobs = s.bst.jobs := rfl

theorem putResult_time (r : TestRes) (s : State) : (putResult r s).time = s.time := rfl

theorem putResult_head (r : TestRes) (s : State) : (putResult r s).bst.results.head? = some r := rfl

theorem testClosed_run (j : TestJob) (o : Nat) (s : State) : (testClosed j o s).bst.run = s.bst.run := rfl

theorem testClosed_number (j : TestJob) (o : Nat) (s : State) : (testClosed j o s).bst.number = s.bst.number := rfl

theorem testClosed_time (j : TestJob) (o : Nat) (s : State) : (testClosed j o s).time = s.time := rfl

theorem testClosed_jobs (j : TestJob) (o : Nat) (s : State) :
    (testClosed j o s).bst.jobs = s.bst.jobs.filter (fun x => !(x.id == j.id && x.inst == j.inst)) := rfl

theorem testResulted_run (t : TestInfo) (j : TestJob) (o w1 w2 : Nat) (s : State) :
    (testResulted t j o w1 w2 s).bst.run = s.bst.run := by
  rw [testResulted, putResult_run, testClosed_run, testTimed_bst]

theorem testResulted_head (t : TestInfo) (j : TestJob) (o w1 w2 : Nat) (s : State) :
    (testResulted t j o w1 w2 s).bst.results.head? = some ⟨j.id, j.inst, o, if o = 4 then 6 else 0, s.bst.number, w1, w2⟩ := by
  rw [testResulted, putResult_head, testClosed_number, testTimed_bst]

/-- The test that has ended is among the running ones no more. -/
theorem not_mem_jobs_testResulted {t : TestInfo} {j x : TestJob} {o w1 w2 : Nat} {s : State}
    (hx : x ∈ (testResulted t j o w1 w2 s).bst.jobs) : ¬(x.id = j.id ∧ x.inst = j.inst) := by
  rw [testResulted, putResult_jobs, testClosed_jobs] at hx
  simpa [imp_iff_not_or] using (List.mem_filter.1 hx).2

theorem le_ref_testResulted {t : TestInfo} (j : TestJob) (o w1 w2 : Nat) (s : State) (h : t.kind ≠ .service) :
    j.start + t.dur ≤ (testResulted t j o w1 w2 s).time.ref := by
  rw [testResulted, putResult_time, testClosed_time, testTimed, if_neg h]
  exact le_ref_advanceRef ..

/-- What follows the end of a test: its block's fault handling, the end of the run on a failure, the scheduler (R492, R494). -/
def afterTest (t : TestInfo) (j : TestJob) (o : Nat) (s : State) : State :=
  let s := if o = 3 ∧ t.kind = .service then serviceFail j.id j.inst s else s
  let stop := match s.bst.run with | some q => q.stopOnFail && o == 3 | none => false
  let s := if stop then stopTests (fun _ => true) 1 s else schedule s
  let s := settleRun s
  if t.kind = .vendor then vendorEnd j.id s else s

theorem exec_testEnd {id inst : Byte} {r : TestShow} {s : State} {j : TestJob} {t : TestInfo} {o w1 w2 : Nat}
    (hj : s.bst.jobs.find? (fun j => j.id == id.toNat && j.inst == inst.toNat) = some j) (ht : testInfo id.toNat = some t)
    (hjudge : judgeTest t j.inst r = (o, w1, w2)) :
    exec (.testEnd id inst r) s =
      .next (afterTest t j o (testEnded j.id j.inst o (if o = 4 then 6 else 0) (testResulted t j o w1 w2 s))) := by
  refine congrArg Host.Outcome.next ?_
  rw [hj, ht]
  dsimp only
  rw [hjudge]
  rfl

/-- A test that passed, or that failed outside the service of its block in a run that goes on, hands over to the scheduler. -/
theorem afterTest_of_going {t : TestInfo} {j : TestJob} {o : Nat} {s : State}
    (h : o = 3 → t.kind ≠ .service ∧ ∀ q, s.bst.run = some q → q.stopOnFail = false) :
    afterTest t j o s =
      if t.kind = .vendor then vendorEnd j.id (settleRun (schedule s)) else settleRun (schedule s) := by
  have hserve : ¬(o = 3 ∧ t.kind = .service) := fun hs => (h hs.1).1 hs.2
  have hstop : (match s.bst.run with | some q => q.stopOnFail && o == 3 | none => false) = false := by
    cases hq : s.bst.run with
    | none => rfl
    | some q =>
      by_cases ho : o = 3
      · simp [(h ho).2 q hq]
      · simp [ho]
  rw [afterTest, if_neg hserve, hstop]
  rfl

/-! ## TEST_RESULT and TEST_ABORT (R496, R497) -/

theorem resultOf_congr {s t : State} (h : t.bst = s.bst) (id inst : Nat) : resultOf t id inst = resultOf s id inst := by
  rw [resultOf, h, resultOf]

theorem exec_testResult {h : Hdr} {p : TestResultP} {s : State} {r : TestRes}
    (hr : resultOf s p.id.toNat p.inst.toNat = some r) (hs : served (rowTestResult h p) s = true) :
    exec (.testResult h p) s = .next (finish h 0x0A02 (okay (r.outcome + r.reason * 256 + r.run * 65536) r.w1 r.w2)
      (taken (rowTestResult h p) s)) := by
  have hrun : ∀ x, resultOf x p.id.toNat p.inst.toNat = some r → (rowTestResult h p).run x =
      finish h 0x0A02 (okay (r.outcome + r.reason * 256 + r.run * 65536) r.w1 r.w2) x := by
    intro x hx; simp only [rowTestResult]; rw [hx]
  refine congrArg Host.Outcome.next ((command_of_served hs).trans (hrun _ ?_))
  rw [resultOf_congr (taken_bst_of_pre_id rfl s), hr]

/-- The mask of the indices below a bound that a test selects. -/
def bitMask (f : Nat → Bool) (n : Nat) : Nat := (List.range n).foldl (fun m i => m + b2n (f i) * 2 ^ i) 0

theorem bitMask_succ (f : Nat → Bool) (n : Nat) : bitMask f (n + 1) = bitMask f n + b2n (f n) * 2 ^ n := by
  rw [bitMask, List.range_succ, List.foldl_append]; rfl

theorem bitMask_lt (f : Nat → Bool) (n : Nat) : bitMask f n < 2 ^ n := by
  induction n with
  | zero => exact Nat.one_pos
  | succ n ih =>
    rw [bitMask_succ, Nat.pow_succ]
    cases f n <;> simp [b2n] <;> omega

/-- A bit of the mask is the test of its index. -/
theorem testBit_bitMask (f : Nat → Bool) {n i : Nat} (h : i < n) : (bitMask f n).testBit i = f i := by
  induction n with
  | zero => exact absurd h (Nat.not_lt_zero i)
  | succ n ih =>
    rw [bitMask_succ, Nat.add_comm, Nat.mul_comm, Nat.testBit_two_pow_mul_add _ (bitMask_lt f n)]
    split
    · exact ih ‹_›
    · obtain rfl : i = n := by omega
      rw [Nat.sub_self]
      cases f i <;> rfl

/-- Keeping results and saying ends changes neither the run nor the running tests. -/
theorem foldl_testEnded_run_jobs (g : State → Nat × Nat → TestRes) (reason : Nat)
    (l : List (Nat × Nat)) (s : State) :
    (l.foldl (fun s e => testEnded e.1 e.2 4 reason (putResult (g s e) s)) s).bst.run = s.bst.run ∧
      (l.foldl (fun s e => testEnded e.1 e.2 4 reason (putResult (g s e) s)) s).bst.jobs = s.bst.jobs := by
  induction l generalizing s with
  | nil => exact ⟨rfl, rfl⟩
  | cons e l ih =>
    obtain ⟨hrun, hjobs⟩ := ih (testEnded e.1 e.2 4 reason (putResult (g s e) s))
    rw [testEnded_bst] at hrun hjobs
    exact ⟨hrun, hjobs⟩

/-- Every test stops: none runs. -/
theorem stopTests_all_jobs (reason : Nat) (s : State) : (stopTests (fun _ => true) reason s).bst.jobs = [] := by
  rw [stopTests]
  dsimp only
  rw [(foldl_testEnded_run_jobs (fun s e => ⟨e.1, e.2, 4, reason, s.bst.number, 0, 0⟩) reason _ _).2]
  exact List.filter_eq_nil_iff.2 fun _ _ => by simp

theorem finish_bst_eq (h : Hdr) (op : Nat) (v : Verdict) (s : State) : (finish h op v s).bst = s.bst :=
  (finish_fit (L := 0x800E02) (by decide) (Fit.refl _ s)).bst_eq (by decide)

/-- A completed run is over, and its running tests are as they were. -/
theorem completeRun_bst (st : Option Nat) (s : State) : (completeRun st s).bst = { s.bst with run := none } := by
  rw [completeRun]
  split
  · rename_i hnone
    rw [← hnone]
  · dsimp only
    split
    · rfl
    · rw [finish_bst_eq]

theorem endTests_bst (reason : Nat) (st : Option Nat) (s : State) :
    (endTests reason st s).bst.run = none ∧ (endTests reason st s).bst.jobs = [] := by
  rw [endTests, completeRun_bst]
  exact ⟨rfl, stopTests_all_jobs reason s⟩

/-- The mask of the tests that run (R497). -/
def runningTests (s : State) : Nat := bitMask (fun i => s.bst.jobs.any (fun j => j.id == i)) 32

theorem exec_testAbort {h : Hdr} {s : State} (hs : served (rowTestAbort h) s = true) :
    exec (.testAbort h) s = .next (finish h 0x0A03 (okay (runningTests s)) (endTests 1 none (taken (rowTestAbort h) s))) := by
  have hrun : ∀ x, (rowTestAbort h).run x = finish h 0x0A03 (okay (runningTests x)) (endTests 1 none x) := fun _ => rfl
  have hmask : runningTests (taken (rowTestAbort h) s) = runningTests s := by
    rw [runningTests, taken_bst_of_pre_id rfl, runningTests]
  rw [← hmask]
  exact congrArg Host.Outcome.next ((command_of_served hs).trans (hrun _))

/-! ## A command that a test holds too long (R493) -/

/-- A held command waits no more, and is counted. -/
def busyCounted (k : CmdKey) (s : State) : State :=
  { s with
    cmd := { s.cmd with waits := s.cmd.waits.filter (fun x => !(keyOf x.h == k && x.test.isSome)) }
    bst := { s.bst with busyCount := s.bst.busyCount + 1 } }

theorem busyCounted_fit {L : Nat} {s0 s : State} (k : CmdKey) (hL : In 0x4000400 L) (h0 : Fit L s0 s) :
    Fit L s0 (busyCounted k s) := Fit.upd_cmd_bst hL h0 rfl

theorem busyCounted_time (k : CmdKey) (s : State) : (busyCounted k s).time = s.time := rfl

theorem busyCounted_count (k : CmdKey) (s : State) : (busyCounted k s).bst.busyCount = s.bst.busyCount + 1 := rfl

theorem not_mem_waits_busyCounted {k : CmdKey} {s : State} {x : Wait} (hx : x ∈ (busyCounted k s).cmd.waits) :
    ¬(keyOf x.h = k ∧ x.test.isSome = true) := by
  have hgone := (List.mem_filter.1 hx).2
  simpa [imp_iff_not_or] using hgone

theorem holder_congr {s t : State} (h : t.bst = s.bst) (opc : Nat) (i : Instr) : holder opc i t = holder opc i s := by
  rw [holder, h, holder]

/-- The expected end of a test that holds a command back. -/
theorem testBlock_of_holder {opc : Nat} {i : Instr} {s : State} {t : TestInfo} {st : Nat} (h : holder opc i s = some (t, st)) :
    (testBlock opc i s).getD 0 = merNs s + (st + t.dur - s.time.ref) := by
  rw [testBlock, h]; rfl

/-- The reply of a command held too long: the expected end of the test. -/
def busyVerdict (e : Nat) : Verdict := ⟨St.busySelftest, e / nsPerSec % 2 ^ 32, e % nsPerSec, 0⟩

theorem exec_tstBusy {k : CmdKey} {s x : State} {w : Wait} {t : TestInfo} {st : Nat}
    (hw : s.cmd.waits.find? (fun w => keyOf w.h == k && w.test.isSome) = some w) (ht : holder w.opcode w.i s = some (t, st))
    (hx : x = advanceRef (w.test.getD 0 + t.holdTime) s) :
    exec (.tstBusy k) s = .next (finish w.h w.opcode (busyVerdict ((testBlock w.opcode w.i x).getD 0)) (raise 0xFA [] (busyCounted k x))) := by
  subst hx
  refine congrArg Host.Outcome.next ?_
  rw [hw]
  dsimp only
  rw [ht]
  rfl

/-! ## The statement -/

/-- Settles O36: a run by the state it begins in, a test by the state its end leaves. -/
theorem selfTest : Obligations.SelfTest := by
  refine ⟨fun h p s hs => ?_, fun s hper hrun hon hlife => ?_, fun id inst r s j t o w1 w2 hj ht hjudge hgo => ?_,
    fun h p s r hr hs => exec_testResult hr hs, fun h s hs => ?_, fun k s w t st hw ht => ?_⟩
  · have hbst : (testRunAccepted h (taken (rowTestRun h p) s)).bst = s.bst := by
      rw [testRunAccepted_bst, taken_bst_of_pre_id rfl]
    refine ⟨_, _, exec_testRun rfl hs, ?_, rfl, rfl, rfl, rfl, (runWork_runBegun ..).symm, ?_,
      (runBegun_fit (L := 0x4800E02) _ _ _ _ (by decide) (testRunAccepted_fit h (by decide)
        (taken_fit_of_pre_id (by decide) rfl s))).keeps (by decide)⟩
    · rw [runBegun, hbst]
    · rw [runBegun, hbst]
  · have hpar : (autoDue s).par = s.par := (autoDue_fit (L := 0x4000020) (by decide) (Fit.refl _ s)).2 .par (by decide)
    have hset : pv (autoDue s) 0x1301 = pv s 0x1301 := pv_congr hpar _
    have hexec := exec_bstAutoRun hper hrun hon hlife
    rw [hset] at hexec
    refine ⟨_, _, hexec, ?_, rfl, rfl, rfl, (runWork_runBegun ..).symm, ?_, ?_,
      (runBegun_fit (L := 0x4000020) _ _ _ _ (by decide) (autoDue_fit (by decide) (Fit.refl _ s))).keeps (by decide)⟩
    · rw [runBegun, autoDue_number]
    · rw [runBegun_time]
      exact le_ref_autoDue s
    · rw [runBegun_lastAuto, runBegun_time, autoDue_lastAuto]
  · have hrun : (testEnded j.id j.inst o (if o = 4 then 6 else 0) (testResulted t j o w1 w2 s)).bst.run = s.bst.run := by
      rw [testEnded_bst, testResulted_run]
    refine ⟨testResulted t j o w1 w2 s, if o = 4 then 6 else 0, (exec_testEnd hj ht hjudge).trans
      (congrArg Host.Outcome.next (afterTest_of_going (by rwa [hrun]))), testResulted_head .., fun ho => if_neg ho,
      fun x hx => not_mem_jobs_testResulted hx, le_ref_testResulted j o w1 w2 s,
      (testResulted_fit (L := 0x4000020) t j o w1 w2 (by decide) (Fit.refl _ s)).keeps (by decide)⟩
  · obtain ⟨hrun, hjobs⟩ := endTests_bst 1 none (taken (rowTestAbort h) s)
    exact ⟨_, runningTests s, exec_testAbort hs, hrun, hjobs, fun i hi => testBit_bitMask _ hi,
      (endTests_fit (L := 0x4800E02) (by decide) (taken_fit_of_pre_id (by decide) rfl s)).keeps (by decide)⟩
  · have hfit : Fit 0x20 s (advanceRef (w.test.getD 0 + t.holdTime) s) := advanceRef_fit (by decide) (Fit.refl _ s)
    have hbst := hfit.bst_eq (by decide)
    refine ⟨busyCounted k (advanceRef (w.test.getD 0 + t.holdTime) s), _, exec_tstBusy hw ht rfl, ?_, ?_, ?_,
      fun x hx => not_mem_waits_busyCounted hx, (busyCounted_fit (L := 0x4000420) k (by decide)
        (advanceRef_fit (by decide) (Fit.refl _ s))).keeps (by decide)⟩
    · rw [testBlock_of_holder ((holder_congr hbst ..).trans ht), merNs_congr (busyCounted_time ..), busyCounted_time]
    · rw [busyCounted_time]
      exact le_ref_advanceRef ..
    · rw [busyCounted_count, hbst]

end Sys2Proof.Machine
end

section
/-! PROOFS. Frames in the bridge: reception, learning, storing and transmission (R437, R442, R443, R447). -/

namespace Sys2Proof.Machine

theorem Fit.net_eq {L : Nat} {s t : State} (h : Fit L s t) (hL : L.testBit 22 = false) : t.net = s.net := h.2 .net hL

theorem raise_net_eq (code : Nat) (pay : List (Nat × Nat)) (s : State) : (raise code pay s).net = s.net :=
  (raise_fit (L := 0x800C02) (by decide) (Fit.refl _ s)).net_eq (by decide)

/-! ## Ports -/

theorem netPort_congr {s t : State} (h : t.net.ports = s.net.ports) (n : Nat) : netPort t n = netPort s n := by
  rw [netPort, h, netPort]

theorem netPort_onNetPort_self {n : Nat} {s : State} (f : NetPort → NetPort) (h : n < s.net.ports.length) :
    netPort (onNetPort n f s) n = f (netPort s n) := by
  rw [netPort, netPort, onNetPort, onNet_net]
  simp [List.getD_eq_getElem?_getD, h]

/-- An update of a port leaves each port as it was, or updated. -/
theorem netPort_onNetPort_cases (k : Nat) (f : NetPort → NetPort) (s : State) (n : Nat) :
    netPort (onNetPort k f s) n = f (netPort s n) ∨ netPort (onNetPort k f s) n = netPort s n := by
  rw [netPort, netPort, onNetPort, onNet_net]
  simp only [List.getD_eq_getElem?_getD, List.getElem?_modify]
  cases s.net.ports[n]? with
  | none => exact .inr rfl
  | some x =>
    by_cases hk : k = n
    · exact .inl (by simp [hk])
    · exact .inr (by simp [hk])

/-- The counts of received frames and bytes are the same at every port. -/
structure SameRx (s t : State) : Prop where
  rx : ∀ n, (netPort t n).rx = (netPort s n).rx
  rxOct : ∀ n, (netPort t n).rxOct = (netPort s n).rxOct

theorem SameRx.refl (s : State) : SameRx s s := ⟨fun _ => rfl, fun _ => rfl⟩

theorem SameRx.trans {s t u : State} (h : SameRx s t) (k : SameRx t u) : SameRx s u :=
  ⟨fun n => (k.rx n).trans (h.rx n), fun n => (k.rxOct n).trans (h.rxOct n)⟩

theorem SameRx.of_ports {s t : State} (h : t.net.ports = s.net.ports) : SameRx s t :=
  ⟨fun n => by rw [netPort_congr h], fun n => by rw [netPort_congr h]⟩

theorem SameRx.of_net {s t : State} (h : t.net = s.net) : SameRx s t := .of_ports (congrArg NetSt.ports h)

theorem onNetPort_sameRx (k : Nat) (f : NetPort → NetPort) (s : State) (hf : ∀ x, (f x).rx = x.rx ∧ (f x).rxOct = x.rxOct) :
    SameRx s (onNetPort k f s) := by
  refine ⟨fun n => ?_, fun n => ?_⟩ <;> obtain h | h := netPort_onNetPort_cases k f s n <;> rw [h]
  · exact (hf _).1
  · exact (hf _).2

/-! ## Learning and forwarding (R442, R443, R445) -/

theorem learn_ports (n : Nat) (p : Pkt) (s : State) : (learn n p s).net.ports = s.net.ports := by
  rw [learn]
  split
  · rfl
  · dsimp only
    split
    · rfl
    · split
      · rfl
      · rw [raise_net_eq]; rfl

theorem setRun_ports (r : StreamRun) (s : State) : (setRun r s).net.ports = s.net.ports := rfl

theorem throughStream_ports (x : StreamCfg) (p : Pkt) (s : State) : (throughStream x p s).2.net.ports = s.net.ports := by
  unfold throughStream
  extract_lets r number q s1
  have h1 : s1.net.ports = s.net.ports := by
    cases hn : number <;> simp only [s1, hn] <;> rfl
  split
  · exact h1
  · split
    · exact h1
    · dsimp only
      split
      · rw [raise_net_eq, setRun_ports, h1]
      · rw [setRun_ports, h1]

theorem netLose_sameRx (n reason : Nat) (s : State) : SameRx s (netLose n reason s) :=
  (onNetPort_sameRx n _ s fun x => by split <;> exact ⟨rfl, rfl⟩).trans (.of_net (raise_net_eq ..))

theorem storeFrame_sameRx (n len : Nat) (p : Pkt) (x : Option StreamCfg) (v : Vlan) (ports : List Nat) (s : State) :
    SameRx s (storeFrame n len p x v ports s).2 := by
  unfold storeFrame
  extract_lets k cs c
  split
  · exact netLose_sameRx ..
  · split
    · exact netLose_sameRx ..
    · split
      · exact .refl s
      · exact .of_ports (by rw [move_net]; rfl)

theorem forward_sameRx (n len : Nat) (p : Pkt) (s : State) : SameRx s (forward n len p s).2.2 := by
  have hdrop : SameRx s (onNetPort n (fun x => { x with vlanDrop := x.vlanDrop + 1 }) s) :=
    onNetPort_sameRx _ _ _ fun _ => ⟨rfl, rfl⟩
  have hlearn : SameRx s (learn n p s) := .of_ports (learn_ports n p s)
  unfold forward
  split
  · exact hdrop
  · split
    · exact hdrop
    · dsimp only
      cases hx : streamOf n p (learn n p s) with
      | none => exact hlearn.trans (storeFrame_sameRx ..)
      | some x =>
        have hthrough : SameRx s (throughStream x p (learn n p s)).2 := hlearn.trans (.of_ports (throughStream_ports ..))
        dsimp only
        split
        · exact hthrough
        · exact hthrough.trans (storeFrame_sameRx ..)

/-! ## The internal port (R439) -/

theorem ownSend_sameRx (asker : Pkt) (rest : List Byte) (s : State) : SameRx s (ownSend asker rest s) := forward_sameRx ..

theorem ipDrop_sameRx (s : State) : SameRx s (ipDrop s) := .of_ports rfl

theorem streamIn_sameRx (port : Nat) (bs : List Byte) (s : State) : SameRx s (streamIn port bs s) :=
  .of_net ((streamIn_fit (L := 0x80CE02) (by decide) (Fit.refl _ s)).net_eq (by decide))

theorem arpIn_sameRx (p : Pkt) (s : State) : SameRx s (arpIn p s) := by
  rw [arpIn]
  split
  · exact ownSend_sameRx ..
  · exact .refl s

theorem echoIn_sameRx (p : Pkt) (ip : List Byte) (s : State) : SameRx s (echoIn p ip s) := ownSend_sameRx ..

theorem ipIn_sameRx (p : Pkt) (s : State) : SameRx s (ipIn p s) := by
  unfold ipIn
  extract_lets b len ip dst
  split
  · exact .refl s
  · split
    · exact ipDrop_sameRx s
    · split
      · exact ipDrop_sameRx s
      · split
        · split
          · exact echoIn_sameRx ..
          · exact ipDrop_sameRx s
        · split
          · split
            · exact ipDrop_sameRx s
            · exact streamIn_sameRx ..
          · exact ipDrop_sameRx s

theorem internalIn_sameRx (p : Pkt) (s : State) : SameRx s (internalIn p s) := by
  rw [internalIn]
  split
  · exact .refl s
  · split
    · exact arpIn_sameRx p s
    · split
      · exact ipIn_sameRx p s
      · exact .refl s

/-! ## Reception (R437) -/

/-- A good frame is counted. -/
def rxCounted (n len : Nat) (s : State) : State := onNetPort n (fun x => { x with rx := x.rx + 1, rxOct := x.rxOct + len }) s

/-- What the bridge does with a good frame changes no count of received frames but its own. -/
theorem frameIn_sameRx (n : Nat) (bs : List Byte) (s : State) : SameRx (rxCounted n (bs.length + 4) s) (frameIn n bs s) := by
  unfold frameIn rxCounted
  extract_lets len s1 port p
  split
  · exact onNetPort_sameRx _ _ _ fun _ => ⟨rfl, rfl⟩
  · split
    · exact .refl _
    · split
      · exact onNetPort_sameRx _ _ _ fun _ => ⟨rfl, rfl⟩
      · have hforward := forward_sameRx n len p s1
        dsimp only
        split
        · exact hforward.trans (internalIn_sameRx ..)
        · exact hforward

theorem exec_ethFrameRx_bad {port : Fin 8} {bytes : List Byte} {fcsOk : Bool} {s : State} (hruns : netRuns s = true)
    (hup : (netPort s port.val).up = true)
    (hbad : fcsOk = false ∨ bytes.length + 4 < 64 ∨ (netPort s port.val).maxFrame < bytes.length + 4) :
    exec (.ethFrameRx port bytes fcsOk) s = .next (onNetPort port.val (fun p => { p with bad := p.bad + 1 }) s) := by
  refine congrArg Host.Outcome.next ((if_neg (by simp [hruns, hup])).trans (if_pos ?_))
  simpa [or_assoc] using hbad

theorem exec_ethFrameRx_good {port : Fin 8} {bytes : List Byte} {s : State} (hruns : netRuns s = true)
    (hup : (netPort s port.val).up = true) (hmin : 64 ≤ bytes.length + 4) (hmax : bytes.length + 4 ≤ (netPort s port.val).maxFrame) :
    exec (.ethFrameRx port bytes true) s = .next (frameIn port.val bytes s) := by
  refine congrArg Host.Outcome.next ((if_neg (by simp [hruns, hup])).trans (if_neg ?_))
  simp
  omega

/-! ## Storing, and frames that leave (R443, R447) -/

/-- A source address is learned while the table has room (R442). -/
def learned (n : Nat) (p : Pkt) (s : State) : State :=
  onNet (fun b => { b with fdb := ⟨p.vid, p.sa, n, s.time.ref⟩ :: s.net.fdb.filter (fun x => !(x.vid == p.vid && x.mac == p.sa)) }) s

theorem learn_of_room {n : Nat} {p : Pkt} {s : State} (hone : isGroup p.sa = false) (hroom : s.net.fdb.length < 8192) :
    learn n p s = learned n p s := by
  rw [learn, if_neg (ne_true_of_eq_false hone)]
  exact if_pos (Nat.lt_of_le_of_lt (List.length_filter_le ..) hroom)

theorem learned_tail {n : Nat} {p : Pkt} {s : State} {e : FdbEntry} (he : e ∈ (learned n p s).net.fdb.tail) :
    e ∈ s.net.fdb ∧ ¬(e.vid = p.vid ∧ e.mac = p.sa) := by
  obtain ⟨hmem, hother⟩ := List.mem_filter.1 he
  exact ⟨hmem, by simpa [imp_iff_not_or] using hother⟩

/-- A frame whose VLAN the port is no member of is dropped (R443). -/
theorem forward_of_not_member {n len : Nat} {p : Pkt} {s : State} (h : ∀ v, vlanOf p.vid s = some v → v.members.testBit n = false) :
    forward n len p s = (false, p, onNetPort n (fun x => { x with vlanDrop := x.vlanDrop + 1 }) s) := by
  rw [forward]
  split
  · rfl
  · rename_i v hv
    rw [if_pos (by rw [h v hv]; rfl)]

/-- Giving cells back changes neither the ports, nor the queue, nor what was learned. -/
theorem foldl_move_net (l : List NetFrame) (s : State) :
    (l.foldl (fun s f => move 0x28 f.col 0 f.cells s) s).net = s.net := by
  induction l generalizing s with
  | nil => rfl
  | cons f l ih => exact (ih _).trans (move_net ..)

theorem foldl_move_out (l : List NetFrame) (s : State) :
    (l.foldl (fun s f => move 0x28 f.col 0 f.cells s) s).out = s.out := by
  induction l generalizing s with
  | nil => rfl
  | cons f l ih => exact (ih _).trans (move_out ..)

theorem netCollect_net (s : State) :
    (netCollect s).net = { s.net with frames := s.net.frames.filter (fun f => s.net.queue.any (fun c => c.uid == f.uid)) } := by
  rw [netCollect, foldl_move_net]; rfl

theorem netCollect_out (s : State) : (netCollect s).out = s.out := by
  rw [netCollect, foldl_move_out]; rfl

/-- The transparent clock keeps the residence of a two-step Sync, and changes nothing else (R277). -/
theorem transparent_net (c : NetCopy) (t : Nat) (s : State) : ∃ tc, (transparent c t s).2.net = { s.net with tc := tc } := by
  unfold transparent
  extract_lets o
  split
  · exact ⟨_, rfl⟩
  · extract_lets m res id q
    split
    · exact ⟨_, rfl⟩
    · split
      · exact ⟨_, rfl⟩
      · split
        · exact ⟨_, rfl⟩
        · split
          · split <;> exact ⟨_, rfl⟩
          · exact ⟨_, rfl⟩

/-- A frame that leaves is counted at its port. -/
def txCounted (c : NetCopy) (t : Nat) (bs : List Byte) (s : State) : State :=
  onNetPort c.port (fun x => { x with
    tx := x.tx + 1, txOct := x.txOct + bs.length + 4, txEnd := t + frameTime x.speed bs.length }) s

/-- Its copy leaves the queue. -/
def unqueued (c : NetCopy) (s : State) : State := onNet (fun b => { b with queue := b.queue.erase c }) s

theorem sendCopy_eq (c : NetCopy) (t : Nat) (s : State) :
    sendCopy c t s = netCollect (emit (.ethTx c.port (transparent c t s).1 t)
      (unqueued c (txCounted c t (transparent c t s).1 (transparent c t s).2))) := by
  unfold sendCopy unqueued txCounted
  rcases transparent c t s with ⟨bs, x⟩
  rfl

theorem txCounted_queue (c : NetCopy) (t : Nat) (bs : List Byte) (s : State) : (txCounted c t bs s).net.queue = s.net.queue := rfl

theorem unqueued_queue (c : NetCopy) (s : State) : (unqueued c s).net.queue = s.net.queue.erase c := rfl

theorem unqueued_ports (c : NetCopy) (s : State) : (unqueued c s).net.ports = s.net.ports := rfl

theorem netCollect_queue (s : State) : (netCollect s).net.queue = s.net.queue := by rw [netCollect_net]

theorem netCollect_ports (s : State) : (netCollect s).net.ports = s.net.ports := by rw [netCollect_net]

theorem txCounted_fit {L : Nat} {s0 s : State} (c : NetCopy) (t : Nat) (bs : List Byte) (hL : In 0x400000 L) (h0 : Fit L s0 s) :
    Fit L s0 (txCounted c t bs s) := onNetPort_fit hL h0

theorem unqueued_fit {L : Nat} {s0 s : State} (c : NetCopy) (hL : In 0x400000 L) (h0 : Fit L s0 s) :
    Fit L s0 (unqueued c s) := onNet_fit hL h0

theorem sendCopy_keeps (c : NetCopy) (t : Nat) (s : State) : Keeps [.out, .buf, .net] s (sendCopy c t s) := by
  rw [sendCopy_eq]
  exact (netCollect_fit (L := 0x400202) (by decide) (emit_fit_of_not_host rfl (by decide) (unqueued_fit _ (by decide)
    (txCounted_fit _ _ _ (by decide) (transparent_fit (by decide) (Fit.refl _ s)))))).keeps (by decide)

theorem sendCopy_out (c : NetCopy) (t : Nat) (s : State) :
    Out.ethTx c.port (transparent c t s).1 t ∈ (sendCopy c t s).out := by
  rw [sendCopy_eq, netCollect_out]
  exact mem_out_emit ..

theorem emit_net_eq (o : Out) (s : State) : (emit o s).net = s.net :=
  (emit_fit (L := 0x402) (by decide) (Fit.refl _ s)).net_eq (by decide)

theorem sendCopy_queue (c : NetCopy) (t : Nat) (s : State) : (sendCopy c t s).net.queue = s.net.queue.erase c := by
  obtain ⟨tc, htc⟩ := transparent_net c t s
  rw [sendCopy_eq, netCollect_queue, emit_net_eq, unqueued_queue, txCounted_queue, htc]

theorem sendCopy_port {c : NetCopy} (t : Nat) {s : State} (h : c.port < s.net.ports.length) :
    (netPort (sendCopy c t s) c.port).tx = (netPort s c.port).tx + 1 ∧
      (netPort (sendCopy c t s) c.port).txOct = (netPort s c.port).txOct + (transparent c t s).1.length + 4 := by
  obtain ⟨tc, htc⟩ := transparent_net c t s
  have hports : (transparent c t s).2.net.ports = s.net.ports := by rw [htc]
  have hsent : netPort (sendCopy c t s) c.port = netPort (txCounted c t (transparent c t s).1 (transparent c t s).2) c.port :=
    netPort_congr (by rw [sendCopy_eq, netCollect_ports, emit_net_eq, unqueued_ports]) _
  rw [hsent, txCounted, netPort_onNetPort_self _ (by rwa [hports]), netPort_congr hports]
  exact ⟨rfl, rfl⟩

theorem exec_ethFrameTx {port : Fin 8} {s u0 : State} {t0 t : Nat} {c : NetCopy} (hruns : netRuns s = true)
    (hup : (netPort s port.val).up = true) (hheads : heads port.val s ≠ []) (ht0 : t0 = max (100 * merNs s) (netPort s port.val).txEnd)
    (hu0 : u0 = countWaits port.val t0 s) (hfirst : firstStart (netPort s port.val) (heads port.val u0) 1200 t0 = some (t, c)) :
    exec (.ethFrameTx port) s = .next (sendCopy c t (advanceMer (ceilDiv t 100) u0)) := by
  subst ht0 hu0
  refine congrArg Host.Outcome.next ((if_neg (by simp [hruns, hup, hheads])).trans ?_)
  dsimp only
  rw [hfirst]

end Sys2Proof.Machine
end

section
/-! PROOFS. The bridge over time: gates, ageing, stream resets, links, and the statement on its traffic (R442 to R450). -/

namespace Sys2Proof.Machine

theorem advanceMer_net_eq (t : Nat) (s : State) : (advanceMer t s).net = s.net :=
  (advanceMer_fit (L := 0x20) (by decide) (Fit.refl _ s)).net_eq (by decide)

theorem advanceRef_net_eq (t : Nat) (s : State) : (advanceRef t s).net = s.net :=
  (advanceRef_fit (L := 0x20) (by decide) (Fit.refl _ s)).net_eq (by decide)

theorem onNetPort_time (n : Nat) (f : NetPort → NetPort) (s : State) : (onNetPort n f s).time = s.time := rfl

theorem onNetPort_length (n : Nat) (f : NetPort → NetPort) (s : State) :
    (onNetPort n f s).net.ports.length = s.net.ports.length := List.length_modify ..

/-! ## Gates over time (R446, R447) -/

/-- The gates of a port are set. -/
def gatesSet (n g : Nat) (s : State) : State := onNetPort n (fun x => { x with gates := g }) s

/-- The next list of a port changes later than an instant. -/
def switchesAfter (e : Nat) (p : NetPort) : Prop := ∀ c l, p.next = some (c, l) → e < c

theorem exec_gateControlEvent {port : Fin 8} {s : State} {e : Nat} (hon : mainOn s = true)
    (hoper : (netPort s port.val).oper.isSome = true) (he : (gatesAt (netPort s port.val) (merNs s)).2 = some e)
    (hlater : switchesAfter e (netPort s port.val)) :
    exec (.gateControlEvent port) s = .next (gatesSet port.val (gatesAt (netPort s port.val) e).1 (advanceMer e s)) := by
  obtain ⟨l, hl⟩ := Option.isSome_iff_exists.1 hoper
  refine congrArg Host.Outcome.next ((if_neg (by simp [hon, hl])).trans ?_)
  rw [he]
  dsimp only
  refine if_neg ?_
  cases hnext : (netPort s port.val).next with
  | none => simp
  | some x =>
    have hlt := hlater x.1 x.2 hnext
    simpa using hlt

/-- A committed list becomes operational. -/
def listSwitched (n : Nat) (l : GateList) (s : State) : State := onNetPort n (fun p => { p with oper := some l, next := none }) s

/-- The port's gates are those of its list now. -/
def gatesNow (n : Nat) (s : State) : State := onNetPort n (fun p => { p with gates := (gatesAt p (merNs s)).1 }) s

theorem exec_netSchedSwitch {port : Fin 8} {s : State} {c : Nat} {l : GateList} (hnext : (netPort s port.val).next = some (c, l))
    (hon : mainOn s = true) :
    exec (.netSchedSwitch port) s = .next (raise 0xD5 [] (gatesNow port.val (listSwitched port.val l (advanceMer c s)))) := by
  refine congrArg Host.Outcome.next ?_
  rw [hnext]
  exact if_neg (by simp [hon])

theorem gatesNow_port {n : Nat} {s : State} (h : n < s.net.ports.length) :
    netPort (gatesNow n s) n = { netPort s n with gates := (gatesAt (netPort s n) (merNs s)).1 } := netPort_onNetPort_self _ h

theorem listSwitched_port {n : Nat} {s : State} (l : GateList) (h : n < s.net.ports.length) :
    netPort (listSwitched n l s) n = { netPort s n with oper := some l, next := none } := netPort_onNetPort_self _ h

theorem gatesNow_time (n : Nat) (s : State) : (gatesNow n s).time = s.time := rfl

theorem listSwitched_time (n : Nat) (l : GateList) (s : State) : (listSwitched n l s).time = s.time := rfl

/-- The gates of a list in force with none to come. -/
theorem gatesAt_of_oper {p : NetPort} {l : GateList} (t : Nat) (hoper : p.oper = some l) (hnext : p.next = none) :
    (gatesAt p t).1 = (gatesIn l.cycle l.entries 255 0 (cycleOff l t)).1 := by
  rw [gatesAt, hnext, hoper]

/-! ## Streams and ageing (R442, R445) -/

theorem runOf_idx (i : Nat) (s : State) : (runOf i s).idx = i := by
  rw [runOf]
  cases h : s.net.runs.find? (fun r => r.idx == i) with
  | none => rfl
  | some r => simpa using List.find?_some h

theorem runOf_setRun_self (r : StreamRun) (s : State) : runOf r.idx (setRun r s) = r := by
  rw [runOf, setRun, onNet_net]
  simp

/-- The history of a stream is forgotten (R445). -/
def runCleared (r : StreamRun) : StreamRun := { r with high := none, seen := [], shifts := 0 }

theorem exec_frerResetTimeout {stream : Fin 64} {s : State} {x : StreamCfg}
    (hx : s.net.streams.find? (fun x => x.idx == stream.val) = some x) (hhigh : (runOf stream.val s).high.isSome = true)
    (hflag : x.flags.testBit 2 = true) :
    exec (.frerResetTimeout stream) s = .next (setRun (runCleared (runOf stream.val s))
      (advanceRef ((runOf stream.val s).at_ + x.resetMs * 1000000) s)) := by
  obtain ⟨q, hq⟩ := Option.isSome_iff_exists.1 hhigh
  refine congrArg Host.Outcome.next ?_
  rw [hx]
  exact if_neg (by simp [hq, hflag])

theorem setRun_time (r : StreamRun) (s : State) : (setRun r s).time = s.time := rfl

/-- The entries seen at or before an age ago are gone. -/
def fdbAged (age : Nat) (s : State) : State :=
  onNet (fun b => { b with fdb := b.fdb.filter (fun x => decide (s.time.ref < x.seen + age)), fullSaid := false }) s

/-- The instant the address seen longest ago was seen. -/
def oldestSeen : List FdbEntry → Nat
  | [] => 0
  | e :: r => r.foldl (fun m x => min m x.seen) e.seen

theorem exec_fdbAgeing {s : State} (h : s.net.fdb ≠ []) :
    exec .fdbAgeing s = .next (fdbAged (pv s 0x1002 * nsPerSec) (advanceRef (oldestSeen s.net.fdb + pv s 0x1002 * nsPerSec) s)) := by
  cases hfdb : s.net.fdb with
  | nil => exact absurd hfdb h
  | cons e r =>
    refine congrArg Host.Outcome.next ?_
    rw [hfdb]
    rfl

/-- Some entry was seen longest ago. -/
theorem foldl_min_seen_mem (r : List FdbEntry) (m : Nat) (e : FdbEntry) (he : e.seen = m) :
    ∃ x ∈ e :: r, x.seen = r.foldl (fun m x => min m x.seen) m := by
  induction r generalizing m e with
  | nil => exact ⟨e, List.mem_cons_self .., he⟩
  | cons y r ih =>
    rcases Nat.le_total m y.seen with hle | hle
    · obtain ⟨x, hx, hseen⟩ := ih m e he
      refine ⟨x, ?_, by rw [List.foldl_cons, Nat.min_eq_left hle, hseen]⟩
      rcases List.mem_cons.1 hx with rfl | hx
      · exact List.mem_cons_self ..
      · exact List.mem_cons_of_mem _ (List.mem_cons_of_mem _ hx)
    · obtain ⟨x, hx, hseen⟩ := ih y.seen y rfl
      exact ⟨x, List.mem_cons_of_mem _ hx, by rw [List.foldl_cons, Nat.min_eq_right hle, hseen]⟩

theorem oldestSeen_mem {l : List FdbEntry} (h : l ≠ []) : ∃ x ∈ l, x.seen = oldestSeen l := by
  cases l with
  | nil => exact absurd rfl h
  | cons e r => exact foldl_min_seen_mem r e.seen e rfl

theorem fdbAged_mem {age : Nat} {s : State} {x : FdbEntry} (hx : x ∈ (fdbAged age s).net.fdb) :
    x ∈ s.net.fdb ∧ (fdbAged age s).time.ref < x.seen + age := by
  obtain ⟨hmem, hage⟩ := List.mem_filter.1 hx
  exact ⟨hmem, of_decide_eq_true hage⟩

theorem fdbAged_length_lt {age : Nat} {s : State} {x : FdbEntry} (hx : x ∈ s.net.fdb) (hold : x.seen + age ≤ s.time.ref) :
    (fdbAged age s).net.fdb.length < s.net.fdb.length :=
  List.length_filter_lt_length_iff_exists.2 ⟨x, hx, by simpa using hold⟩

/-! ## Links (R449, R450) -/

/-- A port is up, its latency measured (R477). -/
def portUp (n latency : Nat) (s : State) : State := onNetPort n (fun p => { p with up := true, latency := latency, txEnd := 0 }) s

/-- A port's link up is said. -/
def portUpSaid (n latency : Nat) (s : State) : State :=
  raise 0xD0 [(1, n), (1, (netPort (portUp n latency s) n).speed)] (portUp n latency s)

theorem portUpSaid_fit {L : Nat} {s0 s : State} (n latency : Nat) (hL : In 0xC00C02 L) (h0 : Fit L s0 s) :
    Fit L s0 (portUpSaid n latency s) := raise_fit (In.trans (by decide) hL) (onNetPort_fit (In.trans (by decide) hL) h0)

theorem portUpSaid_port {n : Nat} (latency : Nat) {s : State} (h : n < s.net.ports.length) :
    netPort (portUpSaid n latency s) n = { netPort s n with up := true, latency := latency, txEnd := 0 } := by
  rw [portUpSaid, netPort_congr (congrArg NetSt.ports (raise_net_eq ..))]
  exact netPort_onNetPort_self _ h

/-- The links going up changes no recovery. -/
theorem netRecov_portUpSaid (n latency : Nat) (s : State) : netRecov n (portUpSaid n latency s) = netRecov n s := by
  rw [netRecov, netRecov, portUpSaid, (raise_sameRecovs ..).1]
  rfl

/-- The recovery of a port's link, if one runs, ends with the link (R431, R450). -/
def linkRecovered (r : Option Recov) (s : State) : State := match r with | some r => endRecov r 1 0 s | none => s

theorem exec_netLinkUp {port : Fin 8} {latency : Fin 4096} {s : State} (hon : mainOn s = true) (hq : quiescing s = false)
    (hdown : netPortState s port.val = 1) :
    exec (.netLinkUp port latency) s =
      .next (auditAll (linkRecovered (netRecov port.val s) (portUpSaid port.val latency.val s))) := by
  rw [← netRecov_portUpSaid port.val latency.val s]
  exact congrArg Host.Outcome.next (if_neg (by simp [hon, hq, hdown]))

/-- A port is down before its cells go back: its copies and the addresses learned on it are gone. -/
def portDropped (n : Nat) (s : State) : State :=
  onNet (fun b => { b with queue := b.queue.filter (fun c => c.port != n)
                           fullSaid := b.fullSaid && !b.fdb.any (fun e => e.port == n)
                           fdb := b.fdb.filter (fun e => e.port != n) }) (onNetPort n (fun p => { p with up := false }) s)

theorem netDrop_eq (n : Nat) (s : State) : netDrop n s = netCollect (portDropped n s) := rfl

theorem netDrop_port {n : Nat} {s : State} (h : n < s.net.ports.length) :
    netPort (netDrop n s) n = { netPort s n with up := false } := by
  rw [netDrop_eq, netPort_congr (netCollect_ports _)]
  exact netPort_onNetPort_self (fun p => { p with up := false }) h

theorem netDrop_queue {n : Nat} {s : State} {c : NetCopy} (hc : c ∈ (netDrop n s).net.queue) : c.port ≠ n := by
  rw [netDrop_eq, netCollect_queue] at hc
  simpa using (List.mem_filter.1 hc).2

theorem netDrop_fdb {n : Nat} {s : State} {e : FdbEntry} (he : e ∈ (netDrop n s).net.fdb) : e.port ≠ n := by
  rw [netDrop_eq, netCollect_net] at he
  simpa using (List.mem_filter.1 he).2

theorem windowOf_congr {s t : State} (hevt : t.evt = s.evt) (htime : t.time = s.time) (hpar : t.par = s.par) (d : Nat) :
    windowOf d t = windowOf d s := by
  rw [windowOf, windowOf, hevt, merNs_congr htime, pv_congr hpar]

theorem quiescing_congr {s t : State} (h : t.hwd = s.hwd) : quiescing t = quiescing s := by rw [quiescing, h, quiescing]

/-- What the loss of a port's link is to the ladder (R449): its own action in the domain's window, a fault outside it. -/
def linkLossFault (n : Nat) (w : Option Window) (s : State) : State :=
  match w with
  | some w => takeOwn 0x20 0 w.level 0xD1 (payload (downItems n 0)) s
  | none => faultAt 0x20 0 0xD1 (payload (downItems n 0)) s

/-- The domain's window, which a quiesce shuts. -/
def linkWindow (s : State) : Option Window := if quiescing s then none else windowOf 0x20 s

theorem linkWindow_netDrop (n : Nat) (s : State) : linkWindow (netDrop n s) = linkWindow s := by
  have hfit : Fit 0x400200 s (netDrop n s) := netDrop_fit (by decide) (Fit.refl _ s)
  rw [linkWindow, quiescing_congr (hfit.hwd_eq (by decide)),
    windowOf_congr (hfit.2 .evt (by decide)) (hfit.2 .time (by decide)) (hfit.2 .par (by decide)), linkWindow]

theorem exec_netLinkDown {port : Fin 8} {s : State} (hup : (netPort s port.val).up = true) :
    exec (.netLinkDown port) s = .next (auditAll (linkLossFault port.val (linkWindow s) (netDrop port.val s))) := by
  rw [← linkWindow_netDrop port.val s]
  exact congrArg Host.Outcome.next (if_neg (by simp [hup]))

theorem taken_net_of_pre_id {r : Row} (h : r.pre = id) (s : State) : (taken r s).net = s.net :=
  (taken_fit_of_pre_id (L := 0x800600) (by decide) h s).net_eq (by decide)

theorem netPort_taken {r : Row} (h : r.pre = id) (s : State) (n : Nat) : netPort (taken r s) n = netPort s n :=
  netPort_congr (congrArg NetSt.ports (taken_net_of_pre_id h s)) n

theorem exec_netStats {h : Hdr} {p : NetStatsP} {s : State} (hs : served (rowNetStats h p) s = true) :
    exec (.netStats h p) s =
      .next (finish h 0x0C04 (statsWords (netPort s p.port.toNat) p.page.toNat) (taken (rowNetStats h p) s)) := by
  have hrun : ∀ x, (rowNetStats h p).run x = finish h 0x0C04 (statsWords (netPort x p.port.toNat) p.page.toNat) x := fun _ => rfl
  rw [← netPort_taken (r := rowNetStats h p) rfl s]
  exact congrArg Host.Outcome.next ((command_of_served hs).trans (hrun _))

/-! ## The statement -/

/-- Settles O54: reception and transmission by the frame's way through the bridge, each happening by the state it leaves. -/
theorem bridgeTraffic : Obligations.BridgeTraffic := by
  refine ⟨⟨?_, ?_, ?_, ?_, ?_, ?_, ?_, ?_, ?_, ?_, ?_⟩, ?_, ?_, ?_⟩
  · intro port bytes fcsOk s hruns hup hlen hbad
    exact ⟨_, exec_ethFrameRx_bad hruns hup hbad, netPort_onNetPort_self _ hlen,
      (onNetPort_fit (L := 0x400000) (by decide) (Fit.refl _ s)).keeps (by decide)⟩
  · intro port bytes s hruns hup hlen hmin hmax
    have hcount := frameIn_sameRx port.val bytes s
    have hport : netPort (rxCounted port.val (bytes.length + 4) s) port.val = _ := netPort_onNetPort_self _ hlen
    refine ⟨_, exec_ethFrameRx_good hruns hup hmin hmax, ?_, ?_,
      (frameIn_fit (L := 0xC0CE02) (by decide) (Fit.refl _ s)).keeps (by decide)⟩
    · rw [hcount.rx, hport]
    · rw [hcount.rxOct, hport]
  · intro n p s hone hroom
    exact ⟨_, learn_of_room hone hroom, rfl, fun e he => learned_tail he,
      (onNet_fit (L := 0x400000) (by decide) (Fit.refl _ s)).keeps (by decide)⟩
  · exact fun n len p s h => forward_of_not_member h
  · exact fun n len p x v ports s h => if_pos h
  · intro port s t0 u0 t c hruns hup hheads ht0 hu0 hfirst
    have hfit : Fit 0x400020 s u0 := by rw [hu0]; exact countWaits_fit (by decide) (Fit.refl _ s)
    exact ⟨_, exec_ethFrameTx hruns hup hheads ht0 hu0 hfirst, le_merNs_advanceMer .., (advanceMer_fit (by decide) hfit).keeps (by decide),
      advanceMer_net_eq ..⟩
  · intro c t s hlen
    obtain ⟨htx, hoct⟩ := sendCopy_port t hlen
    exact ⟨_, sendCopy_out c t s, htx, hoct, sendCopy_queue c t s, sendCopy_keeps c t s⟩
  · intro port s e hon hoper he hlater hlen
    refine ⟨_, exec_gateControlEvent hon hoper he hlater, ?_, ?_, (onNetPort_fit (L := 0x400020) (by decide)
      (advanceMer_fit (by decide) (Fit.refl _ s))).keeps (by decide)⟩
    · rw [gatesSet, netPort_onNetPort_self _ (by rwa [advanceMer_net_eq]), netPort_congr (congrArg NetSt.ports (advanceMer_net_eq e s))]
    · rw [gatesSet, merNs_congr (onNetPort_time ..)]
      exact le_merNs_advanceMer ..
  · intro port s c l hnext hon hlen
    have hadv : port.val < (advanceMer c s).net.ports.length := by rwa [advanceMer_net_eq]
    have hswitched : port.val < (listSwitched port.val l (advanceMer c s)).net.ports.length := by
      rwa [listSwitched, onNetPort_length]
    have hport := listSwitched_port l hadv
    have hmer : merNs (gatesNow port.val (listSwitched port.val l (advanceMer c s))) = merNs (listSwitched port.val l (advanceMer c s)) :=
      merNs_congr (gatesNow_time ..)
    refine ⟨_, exec_netSchedSwitch hnext hon, ?_, ?_, ?_, ?_, (onNetPort_fit (L := 0x400020) (by decide)
      (onNetPort_fit (by decide) (advanceMer_fit (by decide) (Fit.refl _ s)))).keeps (by decide)⟩
    · rw [gatesNow_port hswitched, hport]
    · rw [gatesNow_port hswitched, hport]
    · rw [hmer, gatesNow_port hswitched]
      exact gatesAt_of_oper _ (by rw [hport]) (by rw [hport])
    · rw [hmer, merNs_congr (listSwitched_time ..)]
      exact le_merNs_advanceMer ..
  · intro stream s x hx hhigh hflag
    have hrun : ∀ u, runOf stream.val (setRun (runCleared (runOf stream.val s)) u) = runCleared (runOf stream.val s) := fun u => by
      have hself := runOf_setRun_self (runCleared (runOf stream.val s)) u
      rwa [show (runCleared (runOf stream.val s)).idx = stream.val from runOf_idx ..] at hself
    refine ⟨_, exec_frerResetTimeout hx hhigh hflag, by rw [hrun]; rfl, by rw [hrun]; rfl, ?_, (setRun_fit (L := 0x400020) (by decide)
      (advanceRef_fit (by decide) (Fit.refl _ s))).keeps (by decide)⟩
    rw [setRun_time]
    exact le_ref_advanceRef ..
  · intro s hfdb
    obtain ⟨x, hx, hseen⟩ := oldestSeen_mem hfdb
    have hnet := advanceRef_net_eq (oldestSeen s.net.fdb + pv s 0x1002 * nsPerSec) s
    refine ⟨_, exec_fdbAgeing hfdb, fun y hy => ?_, ?_, rfl, (onNet_fit (L := 0x400020) (by decide)
      (advanceRef_fit (by decide) (Fit.refl _ s))).keeps (by decide)⟩
    · obtain ⟨hmem, hage⟩ := fdbAged_mem hy
      rw [hnet] at hmem
      exact ⟨hmem, hage⟩
    · have hold : x.seen + pv s 0x1002 * nsPerSec ≤
          (advanceRef (oldestSeen s.net.fdb + pv s 0x1002 * nsPerSec) s).time.ref := by
        rw [hseen]
        exact le_ref_advanceRef ..
      have hlt := fdbAged_length_lt (by rwa [hnet]) hold
      rwa [hnet] at hlt
  · intro port latency s hon hq hdown hlen
    have hport := portUpSaid_port latency.val hlen
    refine ⟨portUpSaid port.val latency.val s, (exec_netLinkUp hon hq hdown).trans ?_, by rw [hport], by rw [hport],
      (portUpSaid_fit (L := 0xC00C02) _ _ (by decide) (Fit.refl _ s)).keeps (by decide)⟩
    cases netRecov port.val s <;> rfl
  · intro port s hup hlen
    refine ⟨netDrop port.val s, (exec_netLinkDown hup).trans ?_, by rw [netDrop_port hlen], fun c hc => netDrop_queue hc,
      fun e he => netDrop_fdb he, (netDrop_fit (L := 0x400200) (by decide) (Fit.refl _ s)).keeps (by decide)⟩
    show _ = Host.Outcome.next (auditAll (match linkWindow s with | some w => _ | none => _))
    cases linkWindow s <;> rfl
  · exact fun h p s hs => exec_netStats hs

end Sys2Proof.Machine
end

section
/-! PROOFS. The bridge's configuration is recorded, then takes effect (R440, R441, R444, R446). -/

namespace Sys2Proof.Machine

/-! ## The record first (R440) -/

theorem netCommand_of_refused {h : Hdr} {opc key : Nat} {rec : List Byte} {fill : State → State} {v : State → Verdict} {s w : State}
    {st : Nat} (hw : nvPut 0 0x05 key false rec 0 s = (w, .refused st)) :
    netCommand h opc key rec fill v s = finish h opc (no st) w := by
  rw [netCommand, netPut, hw]

theorem netCommand_of_recorded {h : Hdr} {opc key : Nat} {rec : List Byte} {fill : State → State} {v : State → Verdict} {s w : State}
    {q : Nat} (hw : nvPut 0 0x05 key false rec 0 s = (w, .seq q)) :
    netCommand h opc key rec fill v s = finish h opc (v (fill w)) (fill w) := by
  rw [netCommand, netPut, hw]

/-- A served change whose record is written takes effect and is answered. -/
theorem command_of_recorded {r : Row} {s w : State} {h : Hdr} {opc key q : Nat} {rec : List Byte} {fill : State → State}
    {v : State → Verdict} (hs : served r s = true)
    (hrun : r.run (taken r s) = netCommand h opc key rec fill v (taken r s))
    (hw : nvPut 0 0x05 key false rec 0 (taken r s) = (w, .seq q)) : command r s = finish h opc (v (fill w)) (fill w) :=
  (command_of_served hs).trans (hrun.trans (netCommand_of_recorded hw))

/-- What the record of a served change leaves of the state: the store and what its write says. -/
theorem recorded_fit {r : Row} {s w : State} {key q : Nat} {rec : List Byte} (hpre : r.pre = id)
    (hw : nvPut 0 0x05 key false rec 0 (taken r s) = (w, .seq q)) : Fit 0x1800E02 s w := by
  have hput : Fit 0x1800E02 s (nvPut 0 0x05 key false rec 0 (taken r s)).1 :=
    nvPut_fit (by decide) (taken_fit_of_pre_id (by decide) hpre s)
  rwa [hw] at hput

theorem recorded_net {r : Row} {s w : State} {key q : Nat} {rec : List Byte} (hpre : r.pre = id)
    (hw : nvPut 0 0x05 key false rec 0 (taken r s) = (w, .seq q)) : w.net = s.net := (recorded_fit hpre hw).net_eq (by decide)

/-- A port as a recorded change of it leaves it. -/
theorem recorded_port {r : Row} {s w : State} {key q n : Nat} {rec : List Byte} (hpre : r.pre = id)
    (hw : nvPut 0 0x05 key false rec 0 (taken r s) = (w, .seq q)) (hn : n < s.net.ports.length) (f : NetPort → NetPort) :
    netPort (onNetPort n f w) n = f (netPort s n) := by
  have hnet := recorded_net hpre hw
  rw [netPort_onNetPort_self f (by rwa [hnet]), netPort_congr (congrArg NetSt.ports hnet)]

/-- A recorded change of the bridge touches its block, the store and the host's side. -/
theorem recorded_onNet_keeps {r : Row} {s w : State} {key q : Nat} {rec : List Byte} (hpre : r.pre = id)
    (hw : nvPut 0 0x05 key false rec 0 (taken r s) = (w, .seq q)) (f : NetSt → NetSt) :
    Keeps [.out, .buf, .cmd, .evt, .net, .nv, .sbd] s (onNet f w) := by
  have hfit : Fit 0x1C00E02 s (nvPut 0 0x05 key false rec 0 (taken r s)).1 :=
    nvPut_fit (by decide) (taken_fit_of_pre_id (by decide) hpre s)
  rw [hw] at hfit
  exact (onNet_fit (by decide) hfit).keeps (by decide)

/-! ## NET_PORT_CFG (R441) -/

theorem auditAll_net_eq (s : State) : (auditAll s).net = s.net :=
  (auditAll_fit (L := 0x200) (by decide) (Fit.refl _ s)).net_eq (by decide)

theorem portDropped_length (n : Nat) (s : State) : (portDropped n s).net.ports.length = s.net.ports.length := onNetPort_length ..

theorem netDrop_length (n : Nat) (s : State) : (netDrop n s).net.ports.length = s.net.ports.length := by
  rw [netDrop_eq, netCollect_ports, portDropped_length]

/-- The port is down, and its other settings are as they were. -/
theorem netDown_port {n : Nat} (kind : Nat) {s : State} (h : n < s.net.ports.length) :
    netPort (netDown n kind s) n = { netPort s n with up := false } ∧ (netDown n kind s).net.ports.length = s.net.ports.length := by
  rw [netDown]
  split
  · have hnet : (auditAll (raise 0xD1 (downItems n kind) (netDrop n s))).net = (netDrop n s).net := by
      rw [auditAll_net_eq, raise_net_eq]
    rw [netPort_congr (congrArg NetSt.ports hnet), hnet]
    exact ⟨netDrop_port h, netDrop_length n s⟩
  · rename_i hdown
    refine ⟨?_, rfl⟩
    rw [← Bool.eq_false_of_not_eq_true hdown]

/-- A port that has gone down takes its new settings. -/
def portReset (p : NetPortCfgP) (s : State) : State := onNetPort p.port.toNat (portSet p) (netDown p.port.toNat 2 s)

theorem exec_netPortCfg {h : Hdr} {p : NetPortCfgP} {s w : State} {q : Nat}
    (hw : nvPut 0 0x05 (0x1000 + p.port.toNat) false (portRecord (portSet p (netPort s p.port.toNat))) 0
      (taken (rowNetPortCfg h p) s) = (w, .seq q)) (hs : served (rowNetPortCfg h p) s = true) :
    exec (.netPortCfg h p) s = .next (finish h 0x0C01 (okay (netPortState (portReset p w) p.port.toNat)) (portReset p w)) := by
  have hrun : ∀ x, (rowNetPortCfg h p).run x = netCommand h 0x0C01 (0x1000 + p.port.toNat)
      (portRecord (portSet p (netPort x p.port.toNat))) (portReset p) (fun s => okay (netPortState s p.port.toNat)) x := fun _ => rfl
  have hrun' := hrun (taken (rowNetPortCfg h p) s)
  rw [netPort_taken (r := rowNetPortCfg h p) rfl s] at hrun'
  exact congrArg Host.Outcome.next (command_of_recorded hs hrun' hw)

/-! ## NET_VLAN_CFG (R444) -/

theorem exec_netVlanCfgVlan {h : Hdr} {p : NetVlanP} {s w : State} {q : Nat} {v : Vlan}
    (hv : v = ⟨p.vid.toNat, p.members.toNat, p.untagged.toNat⟩)
    (hw : nvPut 0 0x05 0x2000 false (vlanRecord (vlanSet v s.net.vlans)) 0 (taken (rowNetVlanCfgVlan h p) s) = (w, .seq q))
    (hs : served (rowNetVlanCfgVlan h p) s = true) :
    exec (.netVlanCfgVlan h p) s = .next (finish h 0x0C02 (okay) (onNet (fun b => { b with vlans := vlanSet v b.vlans }) w)) := by
  subst hv
  have hrun : ∀ x, (rowNetVlanCfgVlan h p).run x = netCommand h 0x0C02 0x2000
      (vlanRecord (vlanSet ⟨p.vid.toNat, p.members.toNat, p.untagged.toNat⟩ x.net.vlans))
      (onNet (fun b => { b with vlans := vlanSet ⟨p.vid.toNat, p.members.toNat, p.untagged.toNat⟩ b.vlans })) (fun _ => okay) x :=
    fun _ => rfl
  have hrun' := hrun (taken (rowNetVlanCfgVlan h p) s)
  rw [taken_net_of_pre_id (r := rowNetVlanCfgVlan h p) rfl s] at hrun'
  exact congrArg Host.Outcome.next (command_of_recorded hs hrun' hw)

/-- Writing the parts of the static table ends with the table in force, or with a refusal. -/
theorem putStatics_statics {es : List StaticMac} {cs : List Nat} {s w : State} (h : putStatics es cs s = (w, none)) :
    w.net.statics = es := by
  induction cs generalizing s with
  | nil =>
    rw [putStatics] at h
    obtain ⟨rfl, -⟩ := Prod.mk.inj h
    rfl
  | cons c cs ih =>
    rw [putStatics] at h
    dsimp only at h
    split at h
    · exact ih h
    · split at h
      · exact ih h
      · exact absurd (congrArg Prod.snd h) (by simp)

theorem exec_netVlanCfgStaticEntry {h : Hdr} {p : NetStaticP} {s w : State}
    (hw : putStatics (staticSet ⟨p.vid.toNat, p.mac.toNat, p.ports.toNat⟩ s.net.statics) (List.range 4)
      (taken (rowNetVlanCfgStaticEntry h p) s) = (w, none)) (hs : served (rowNetVlanCfgStaticEntry h p) s = true) :
    exec (.netVlanCfgStaticEntry h p) s = .next (finish h 0x0C02 (okay) w) := by
  have hrun : (rowNetVlanCfgStaticEntry h p).run (taken (rowNetVlanCfgStaticEntry h p) s) = finish h 0x0C02 (okay) w := by
    rw [← taken_net_of_pre_id (r := rowNetVlanCfgStaticEntry h p) rfl s] at hw
    generalize taken (rowNetVlanCfgStaticEntry h p) s = x at hw
    simp only [rowNetVlanCfgStaticEntry]
    rw [hw]
  exact congrArg Host.Outcome.next ((command_of_served hs).trans hrun)

theorem exec_netVlanCfgPriorityMap {h : Hdr} {p : NetPrioP} {s w : State} {q : Nat} {tc : List Nat}
    (htc : tc = (leBytes 8 p.tc.toNat).map (·.toNat))
    (hw : nvPut 0 0x05 (0x1000 + p.port.toNat) false (portRecord { netPort s p.port.toNat with map := tc }) 0
      (taken (rowNetVlanCfgPriorityMap h p) s) = (w, .seq q)) (hs : served (rowNetVlanCfgPriorityMap h p) s = true) :
    exec (.netVlanCfgPriorityMap h p) s =
      .next (finish h 0x0C02 (okay) (onNetPort p.port.toNat (fun x => { x with map := tc }) w)) := by
  subst htc
  have hrun : ∀ x, (rowNetVlanCfgPriorityMap h p).run x = netCommand h 0x0C02 (0x1000 + p.port.toNat)
      (portRecord { netPort x p.port.toNat with map := (leBytes 8 p.tc.toNat).map (·.toNat) })
      (onNetPort p.port.toNat (fun x => { x with map := (leBytes 8 p.tc.toNat).map (·.toNat) })) (fun _ => okay) x := fun _ => rfl
  have hrun' := hrun (taken (rowNetVlanCfgPriorityMap h p) s)
  rw [netPort_taken (r := rowNetVlanCfgPriorityMap h p) rfl s] at hrun'
  exact congrArg Host.Outcome.next (command_of_recorded hs hrun' hw)

/-- A stream in the place of the one of its number. -/
def streamPut (x : StreamCfg) (l : List StreamCfg) : List StreamCfg := l.filter (fun y => y.idx != x.idx) ++ [x]

/-- The stream is configured and starts anew. -/
def streamConfigured (x : StreamCfg) (s : State) : State :=
  onNet (fun b => { b with streams := streamPut x b.streams, runs := b.runs.filter (fun r => r.idx != x.idx) }) s

theorem exec_netVlanCfgStream {h : Hdr} {p : NetStreamP} {s w : State} {q : Nat} {x : StreamCfg}
    (hx : x = ⟨p.stream.toNat, p.vid.toNat, p.ingress.toNat, p.egress.toNat, p.mac.toNat, p.flags.toNat, p.history.toNat,
      p.resetMs.toNat⟩)
    (hw : nvPut 0 0x05 0x2300 false (streamRecord (streamPut x s.net.streams)) 0 (taken (rowNetVlanCfgStream h p) s) = (w, .seq q))
    (hs : served (rowNetVlanCfgStream h p) s = true) :
    exec (.netVlanCfgStream h p) s = .next (finish h 0x0C02 (okay) (streamConfigured x w)) := by
  subst hx
  have hrun : ∀ y, (rowNetVlanCfgStream h p).run y = netCommand h 0x0C02 0x2300
      (streamRecord (streamPut ⟨p.stream.toNat, p.vid.toNat, p.ingress.toNat, p.egress.toNat, p.mac.toNat, p.flags.toNat,
        p.history.toNat, p.resetMs.toNat⟩ y.net.streams))
      (streamConfigured ⟨p.stream.toNat, p.vid.toNat, p.ingress.toNat, p.egress.toNat, p.mac.toNat, p.flags.toNat,
        p.history.toNat, p.resetMs.toNat⟩) (fun _ => okay) y := fun _ => rfl
  have hrun' := hrun (taken (rowNetVlanCfgStream h p) s)
  rw [taken_net_of_pre_id (r := rowNetVlanCfgStream h p) rfl s] at hrun'
  exact congrArg Host.Outcome.next (command_of_recorded hs hrun' hw)

/-- A stream that starts anew has no history. -/
theorem runOf_streamConfigured (x : StreamCfg) (s : State) : (runOf x.idx (streamConfigured x s)).high = none := by
  have hnone : (s.net.runs.filter (fun r => r.idx != x.idx)).find? (fun r => r.idx == x.idx) = none := by
    simp [List.find?_eq_none]
  rw [runOf, streamConfigured, onNet_net, hnone]
  rfl

/-! ## NET_SCHED_CFG (R446) -/

theorem exec_netSchedCfgWrite {h : Hdr} {p : NetSchedWriteP} {s w : State} {q : Nat}
    (hw : nvPut 0 0x05 (0x3000 + p.port.toNat) false (adminRecord (adminSet p (netPort s p.port.toNat).admin)) 0
      (taken (rowNetSchedCfgWrite h p) s) = (w, .seq q)) (hs : served (rowNetSchedCfgWrite h p) s = true) :
    exec (.netSchedCfgWrite h p) s =
      .next (finish h 0x0C03 (okay) (onNetPort p.port.toNat (fun x => { x with admin := adminSet p x.admin }) w)) := by
  have hrun : ∀ x, (rowNetSchedCfgWrite h p).run x = netCommand h 0x0C03 (0x3000 + p.port.toNat)
      (adminRecord (adminSet p (netPort x p.port.toNat).admin))
      (onNetPort p.port.toNat (fun x => { x with admin := adminSet p x.admin })) (fun _ => okay) x := fun _ => rfl
  have hrun' := hrun (taken (rowNetSchedCfgWrite h p) s)
  rw [netPort_taken (r := rowNetSchedCfgWrite h p) rfl s] at hrun'
  exact congrArg Host.Outcome.next (command_of_recorded hs hrun' hw)

/-- The reply that names a change time. -/
def changeVerdict (c : Nat) : Verdict := okay (c / nsPerSec % 2 ^ 32) (c % nsPerSec)

theorem rowNetSchedCfgCommit_run {h : Hdr} {p : NetSchedCommitP} {x : State} {l : GateList}
    (hl : commitList p (netPort x p.port.toNat) = some l) :
    (rowNetSchedCfgCommit h p).run x = netCommand h 0x0C03 (0x3100 + p.port.toNat) (gateRecord (some l))
      (onNetPort p.port.toNat (fun y => { y with next := some (changeTime l.base l.cycle (merNs x), l) }))
      (fun _ => changeVerdict (changeTime l.base l.cycle (merNs x))) x := by
  simp only [rowNetSchedCfgCommit, changeVerdict]
  rw [hl]

theorem exec_netSchedCfgCommit {h : Hdr} {p : NetSchedCommitP} {s w : State} {q c : Nat} {l : GateList}
    (hl : commitList p (netPort s p.port.toNat) = some l) (hc : c = changeTime l.base l.cycle (merNs s))
    (hw : nvPut 0 0x05 (0x3100 + p.port.toNat) false (gateRecord (some l)) 0 (taken (rowNetSchedCfgCommit h p) s) = (w, .seq q))
    (hs : served (rowNetSchedCfgCommit h p) s = true) :
    exec (.netSchedCfgCommit h p) s =
      .next (finish h 0x0C03 (changeVerdict c) (onNetPort p.port.toNat (fun y => { y with next := some (c, l) }) w)) := by
  have hrun := rowNetSchedCfgCommit_run (h := h) (p := p) (x := taken (rowNetSchedCfgCommit h p) s)
    (by rw [netPort_taken (r := rowNetSchedCfgCommit h p) rfl s, hl])
  rw [merNs_congr (taken_time_of_pre_id (r := rowNetSchedCfgCommit h p) rfl s), ← hc] at hrun
  exact congrArg Host.Outcome.next (command_of_recorded hs hrun hw)

/-- Every gate of a port opens, now and later. -/
def gatesOpen (x : NetPort) : NetPort := { x with oper := none, next := none, gates := 255 }

theorem exec_netSchedCfgDisable {h : Hdr} {p : NetSchedDisableP} {s w : State} {q : Nat}
    (hw : nvPut 0 0x05 (0x3100 + p.port.toNat) false (gateRecord none) 0 (taken (rowNetSchedCfgDisable h p) s) = (w, .seq q))
    (hs : served (rowNetSchedCfgDisable h p) s = true) :
    exec (.netSchedCfgDisable h p) s = .next (finish h 0x0C03 (okay) (onNetPort p.port.toNat gatesOpen w)) := by
  have hrun : ∀ x, (rowNetSchedCfgDisable h p).run x = netCommand h 0x0C03 (0x3100 + p.port.toNat) (gateRecord none)
      (onNetPort p.port.toNat gatesOpen) (fun _ => okay) x := fun _ => rfl
  exact congrArg Host.Outcome.next (command_of_recorded hs (hrun _) hw)

/-! ## The change time (R446) -/

theorem changeTime_of_le {base now : Nat} (cycle : Nat) (h : now ≤ base) : changeTime base cycle now = base := if_pos h

/-- After its base a list changes at the first whole number of cycles at or after now. -/
theorem changeTime_of_gt {base cycle now : Nat} (h : base < now) :
    changeTime base cycle now = base + ceilDiv (now - base) cycle * cycle := if_neg (Nat.not_le.2 h)

theorem le_ceilDiv_mul {a b : Nat} (hb : 0 < b) : a ≤ ceilDiv a b * b ∧ ceilDiv a b * b < a + b := by
  have hdiv := Nat.div_add_mod (a + b - 1) b
  have hmod := Nat.mod_lt (a + b - 1) hb
  rw [ceilDiv, Nat.mul_comm]
  omega

/-! ## The statement -/

/-- Settles O55: each change by its record, then by what it puts into the bridge. -/
theorem bridgeConfiguration : Obligations.BridgeConfiguration := by
  refine ⟨?_, ?_, ?_, ?_, ?_, ?_, ?_, ?_, ?_, ?_⟩
  · exact fun h opc key rec fill v s => ⟨fun w st hw => netCommand_of_refused hw, fun w q hw => netCommand_of_recorded hw⟩
  · intro h p s w q hw hs hn
    have hnet := recorded_net (r := rowNetPortCfg h p) rfl hw
    obtain ⟨hdown, hlen⟩ := netDown_port 2 (show p.port.toNat < w.net.ports.length by rwa [hnet])
    have hport : netPort (portReset p w) p.port.toNat = portSet p { netPort w p.port.toNat with up := false } := by
      rw [portReset, netPort_onNetPort_self _ (by rwa [hlen, hnet]), hdown]
    have hfit : Fit 0x1C00E02 s (nvPut 0 0x05 (0x1000 + p.port.toNat) false (portRecord (portSet p (netPort s p.port.toNat))) 0
      (taken (rowNetPortCfg h p) s)).1 := nvPut_fit (by decide) (taken_fit_of_pre_id (by decide) rfl s)
    rw [hw] at hfit
    exact ⟨_, exec_netPortCfg hw hs, by rw [hport]; rfl, by rw [hport]; rfl, by rw [hport]; rfl, by rw [hport]; rfl, by rw [hport]; rfl,
      by rw [hport]; rfl, by rw [hport]; rfl, (onNetPort_fit (by decide) (netDown_fit (by decide) hfit)).keeps (by decide)⟩
  · intro h p s w q hw hs
    have hnet := recorded_net (r := rowNetVlanCfgVlan h p) rfl hw
    refine ⟨_, exec_netVlanCfgVlan rfl hw hs, ?_, ?_, recorded_onNet_keeps rfl hw _⟩
    · rw [onNet_net, hnet]
    · rw [onNet_net, hnet]
  · intro h p s w hw hs
    have hfit : Fit 0x1C00E02 s (putStatics (staticSet ⟨p.vid.toNat, p.mac.toNat, p.ports.toNat⟩ s.net.statics) (List.range 4)
      (taken (rowNetVlanCfgStaticEntry h p) s)).1 := putStatics_fit (by decide) (taken_fit_of_pre_id (by decide) rfl s)
    rw [hw] at hfit
    exact ⟨exec_netVlanCfgStaticEntry hw hs, putStatics_statics hw, hfit.keeps (by decide)⟩
  · intro h p s w q hw hs hn
    exact ⟨_, exec_netVlanCfgPriorityMap rfl hw hs, recorded_port rfl hw hn _, recorded_onNet_keeps rfl hw _⟩
  · intro h p s x w q hx hw hs
    have hnet := recorded_net (r := rowNetVlanCfgStream h p) rfl hw
    refine ⟨_, exec_netVlanCfgStream hx hw hs, ?_, runOf_streamConfigured x w, recorded_onNet_keeps rfl hw _⟩
    rw [streamConfigured, onNet_net, hnet]
    rfl
  · intro h p s w q hw hs hn
    exact ⟨_, exec_netSchedCfgWrite hw hs, recorded_port rfl hw hn _, recorded_onNet_keeps rfl hw _⟩
  · intro h p s l c w q hl hc hw hs hn
    exact ⟨_, exec_netSchedCfgCommit hl hc hw hs, recorded_port rfl hw hn _, recorded_onNet_keeps rfl hw _⟩
  · intro h p s w q hw hs hn
    exact ⟨_, exec_netSchedCfgDisable hw hs, recorded_port rfl hw hn _, recorded_onNet_keeps rfl hw _⟩
  · intro base cycle now hcycle
    rcases Nat.lt_or_ge base now with hlt | hle
    · obtain ⟨hlow, hhigh⟩ := le_ceilDiv_mul (a := now - base) hcycle
      refine ⟨ceilDiv (now - base) cycle, changeTime_of_gt hlt, ?_, fun hle => absurd hle (Nat.not_le.2 hlt), fun _ => ?_⟩
      · rw [changeTime_of_gt hlt]; omega
      · rw [changeTime_of_gt hlt]; omega
    · refine ⟨0, ?_, ?_, fun _ => rfl, fun hlt => absurd hle (Nat.not_le.2 hlt)⟩
      · rw [changeTime_of_le cycle hle]; omega
      · rw [changeTime_of_le cycle hle]; exact hle

end Sys2Proof.Machine
end
